-- ==== Sys2Proof/Word.lean ====
section
/-! DEFINITION. The word types of the block and the sparse table that every sized store of the model is. -/

namespace Sys2Proof

/-- A register word, a payload word or a block's 64 bits (00 R4, 15 R378). -/
abbrev Word := BitVec 64

/-- A byte of a memory (00 R4). -/
abbrev Byte := BitVec 8

/-- A sparse table: the entries that differ from the table's default value, by index.  The operations over it
(`Tbl.get`, `Tbl.set`) stand in Machine/Table.lean; `Tbl.set` keeps the indices strictly rising and lists no default. -/
abbrev Tbl (α : Type) := List (Nat × α)

end Sys2Proof
end

