-- ==== Sys2Proof/Syntax.lean ====
section
/-! DEFINITION. The commands of the block and their operands.  The rows of spec/opcode_table.json name no operands: these are the
model's, chosen so that each step has what its rule asks of the outside world (DESIGN CHOICE, log entry 1). -/

namespace Sys2Proof

/-- The bus masters of 12 Table 12-2. -/
inductive Master
  | hostA | hostB | boot | test | logger
  deriving DecidableEq, Repr

/-- The two host ports (12 R308). -/
inductive Port
  | a | b
  deriving DecidableEq, Repr

/-- A link: 0 to 127, and 128, 129 for the mate links M0, M1 (15 R388). -/
abbrev LinkId := Fin 130
/-- An ingress link of the link quads. -/
abbrev IngressId := Fin 128
/-- A quad: 0 to 31, and 32 for the mate quad (15 R388). -/
abbrev QuadId := Fin 33
/-- An HBM stack. -/
abbrev StackId := Fin 4
/-- A protection group or egress bridge. -/
abbrev GroupId := Fin 64
/-- An emit station. -/
abbrev StationId := Fin 128
/-- A library slot (08 R191). -/
abbrev SlotId := Fin 16
/-- A timing reference (09 Table 09-2). -/
abbrev RefId := Fin 12
/-- A reference pin REFIN0 to REFIN7. -/
abbrev PinRefId := Fin 8
/-- A mate watch (10 R259). -/
abbrev WatchId := Fin 64
/-- A correction-tracker entry (11 R289). -/
abbrev TrackId := Fin 64
/-- An HBM repair candidate (11 R303). -/
abbrev CandId := Fin 32
/-- A bus target (12 Table 12-3). -/
abbrev TargetId := Fin 26
/-- A scratch bank (12 R322). -/
abbrev BankId := Fin 16
/-- A doorbell word of a scratch bank (12 R324). -/
abbrev DoorbellId := Fin 8
/-- A semaphore (12 R327). -/
abbrev SemId := Fin 64
/-- A function of 13 Table 13-9. -/
abbrev FuncId := Fin 39
/-- An alarm number (15 R387). -/
abbrev AlarmId := Fin 256
/-- A reserved cycle of a tick: cycle 64 j + 63 (06 R142). -/
abbrev ReservedId := Fin 488

/-- The two copies of a protection group, and the two legs of a report (05). -/
inductive Copy
  | primary | secondary
  deriving DecidableEq, Repr

/-- A 66-bit block with its word descrambled: sync header and 64-bit word (03 R52, R53). -/
structure Block where
  hdr : BitVec 2
  word : Word
  deriving DecidableEq, Repr

/-- A frame as it comes in on a link in SYNC (03 R55, R70): its overhead blocks as received and descrambled, its payload words (a word not
listed is 0), the payload positions that brought no valid data block, and how many payload blocks arrived in all.
`t16` is when the first bit of its FM came in, in sixteenths of a core cycle after the present tick's edge.
`overflow`: its data was lost to the stack's write buffer (04 R95).  Both are what the line and the store did, not the model's choice. -/
structure RxFrame where
  fm : Block
  ident : Block
  check : Block
  justify : Block
  protect : List Block
  mgmt : List Block
  user : List Block
  payload : Tbl Word
  bad : List Nat
  arrived : Nat
  t16 : Nat
  overflow : Bool
  deriving DecidableEq, Repr

/-- What took a quad out of UP or TEST (02 R48), with the lane where a lane did. -/
inductive FailCause
  | pllUnlock | clockLos | clockUnlock | dataLos (lane : Fin 4) | blockLock (lane : Fin 4) | skew (lane : Fin 4)
  deriving DecidableEq, Repr

/-- A failure of a quad: its cause, and when in the tick it comes, in sixteenths of a cycle. -/
structure Failure where
  cause : FailCause
  t16 : Nat
  deriving DecidableEq, Repr

/-- An event on a link, and when in the tick it comes, in sixteenths of a cycle. -/
structure LinkMoment where
  link : LinkId
  t16 : Nat
  deriving DecidableEq, Repr

/-- How a frame begins (03 R57, R65): B of R65 with 16 fractional bits, and how many STUFF blocks have gone since the last frame ended. -/
structure FrameStart where
  b : Nat
  gap : Nat
  deriving DecidableEq, Repr

/-- The four lanes' skews to the clock lane, in 1/64 UI (02 R26, Table 02-10). -/
structure Skews where
  s0 : Int
  s1 : Int
  s2 : Int
  s3 : Int
  deriving DecidableEq, Repr

/-- A receiver's measurements over one decision interval (02 R34, R37), in units of 1/10,000: first feedback tap and pre-cursor as
fractions of the main cursor, and transition density.  Analog quantities: the outside world's. -/
structure EqMeasure where
  h1 : Int
  p1 : Int
  density : Nat
  deriving DecidableEq, Repr

/-- How an HBM repair ended (11 R304). -/
inductive RepairResult
  | done | noSpare | failed
  deriving DecidableEq, Repr

/-- How an NVM command ended (13 R354). -/
inductive NvmResult
  | done | verifyFail | timeout
  deriving DecidableEq, Repr

/-- The instructions of the test port (16 R397). -/
inductive JtagInstr
  | bypass | idcode | samplePreload | other
  deriving DecidableEq, Repr

/-- Which part of a 64-bit register an access takes (12 R320). -/
inductive Part
  | whole | low | high
  deriving DecidableEq, Repr

/-- An HBM buffer or queue word that was not read clean as it drained, `a` its address word (11 Tables 11-1, 11-4): corrected at a code-word bit; or
uncorrectable: in a stack's write buffer, in page `page` of a frame of link `l`; in its read buffer, in a page that link `l` releases in the tick; in
the mate transmit queue, in a frame of M0 or M1; in a host port's queue; in the event logger's. -/
inductive Drain
  | corrected (a : BitVec 32) (codeBit : Nat)
  | written (a : BitVec 32) (l : Nat) (stamp : BitVec 32) (page : Nat)
  | fetched (a : BitVec 32) (l page : Nat)
  | mate (a : BitVec 32) (m1 : Bool)
  | host (a : BitVec 32) (p : Port)
  | logger (a : BitVec 32)
  deriving DecidableEq, Repr

/-- The address word of a drained word. -/
def Drain.addr : Drain → BitVec 32
  | .corrected a _ => a | .written a _ _ _ => a | .fetched a _ _ => a | .mate a _ => a | .host a _ => a | .logger a => a

/-- What the outside world and the memories' physics did in the tick that a TICK_EDGE closes: bits that flipped in protected words (address word and
code-word bit, 11 Table 11-2), cells that from then on read as a fixed value (address word, code-word bit, value), buffer and queue words that
drained with an error, ring pages and descriptors that the stacks' on-die ECC reported uncorrectable, and short-store pages that failed their checks
(link, page; 16 for the descriptor), pages not fetched in time (04 R94, R95), links whose lane's signal detect came back, quads whose clock lane's
signal detect changed (quad, present) (02 R45), each stack's largest write-buffer fill in KiB, corrected HBM reads by stack, HBM words of 32 bytes
(control-bus address over 32) that from then on read with an uncorrected error until they are written whole (11 R302), and the link references'
measured frequencies in ppt (reference, R; 09 R220). -/
structure TickEnv where
  upsets : List (BitVec 32 × Nat)
  stuck : List (BitVec 32 × Nat × Bool)
  drains : List Drain
  hbmUe : List (Nat × Nat)
  readLate : List (Nat × Nat)
  signals : List Nat
  clocks : List (Nat × Bool)
  fill : List (Nat × Nat)
  hbmCe : List Nat
  hbmBad : List Nat
  linkFreq : List (Nat × Int)
  deriving DecidableEq, Repr

/-- A configuration request of a host port's PCIe function (12 R308, R310): a read of the identity registers, or a write of the power state, the
bus-master enable, or the MSI-X enable and function mask; a read or a write of base address register 0 to 5; a read of what those writes set, and of
the error status of advanced error reporting; a write of that status, which clears the bits written as 1. -/
inductive CfgReq
  | readId
  | readBar (n : Fin 6)
  | writeBar (n : Fin 6) (v : BitVec 32)
  | readStatus
  | clearAer (bits : BitVec 32)
  | power (d3hot : Bool)
  | busMaster (on : Bool)
  | msix (on : Bool) (mask : Bool)
  deriving DecidableEq, Repr

/-- What BIST found (11 R300, 13 R339): failed SRAM banks as address words, failed emit stations, whether a sum unit or other core logic
failed. -/
structure BistResult where
  banks : List (BitVec 32)
  stations : List (Fin 128)
  sumUnit : Bool
  otherLogic : Bool
  deriving DecidableEq, Repr

/-- The commands of the block: one constructor for each row of spec/opcode_table.json, in its order (95 gives what each step holds). -/
inductive Instr where
  /-- PWR_OK_FALL -/
  | pwrOkFall
  /-- RST_N_FALL -/
  | rstNFall
  /-- RST_N_RISE -/
  | rstNRise (bootMode : BitVec 2) (imageSel : Bool) (mateRank : Bool)
  /-- HBM_INIT_DONE -/
  | hbmInitDone (k : StackId) (ok : Bool)
  /-- SUPPLY_MONITOR_TRIP -/
  | supplyMonitorTrip
  /-- TICK_EDGE -/
  | tickEdge (env : TickEnv)
  /-- TX_PLL_LOCK -/
  | txPllLock (q : QuadId)
  /-- TX_FRAME_START -/
  | txFrameStart (l : LinkId) (b : FrameStart)
  /-- RX_BLOCK -/
  | rxBlock (l : LinkId) (hdr : BitVec 2) (line : BitVec 64)
  /-- BLOCK_LOCK_ACQUIRE -/
  | blockLockAcquire (l : LinkId)
  /-- BLOCK_LOCK_LOSS -/
  | blockLockLoss (l : LinkMoment)
  /-- FA_SYNC_ENTRY -/
  | faSyncEntry (l : LinkId)
  /-- FA_SYNC_LOSS -/
  | faSyncLoss (l : LinkMoment)
  /-- RX_FRAME_DELIVER -/
  | rxFrameDeliver (l : LinkId) (f : RxFrame)
  /-- VERDICT_FORM -/
  | verdictForm (l : LinkId) (next : List Block) (t16 : Nat)
  /-- LAG_DEADLINE_MISS -/
  | lagDeadlineMiss (l : IngressId) (stamp : BitVec 32)
  /-- QUAD_FAILURE -/
  | quadFailure (q : QuadId) (cause : Failure)
  /-- CLOCK_LANE_ACQUIRE -/
  | clockLaneAcquire (q : QuadId)
  /-- DESKEW_DONE -/
  | deskewDone (q : QuadId) (skew : Skews)
  /-- QUAD_STATE_TIMEOUT -/
  | quadStateTimeout (q : QuadId)
  /-- QUAD_WAIT_END -/
  | quadWaitEnd (q : QuadId)
  /-- LANE_LOOP_SELECT -/
  | laneLoopSelect (m : Master) (q : QuadId) (loop : BitVec 2)
  /-- LANE_RESTART -/
  | laneRestart (m : Master) (q : QuadId)
  /-- PRBS_TX_ENABLE -/
  | prbsTxEnable (m : Master) (q : QuadId) (lanes : BitVec 4)
  /-- PRBS_RX_ENABLE -/
  | prbsRxEnable (m : Master) (q : QuadId) (lanes : BitVec 4)
  /-- PRBS_CHECKER_LOCK -/
  | prbsCheckerLock (l : LinkId)
  /-- PRBS_CHECKER_UNLOCK -/
  | prbsCheckerUnlock (l : LinkId)
  /-- ADAPT_DECISION -/
  | adaptDecision (l : LinkId) (meas : EqMeasure)
  /-- ADAPT_REQUEST_TIMEOUT -/
  | adaptRequestTimeout (l : LinkId)
  /-- ADAPT_SILENCE_TIMEOUT -/
  | adaptSilenceTimeout (l : LinkId)
  /-- ADAPT_TRAIN_TIMEOUT -/
  | adaptTrainTimeout (l : LinkId)
  /-- EYE_SCAN_START -/
  | eyeScanStart (m : Master) (q : QuadId)
  /-- EYE_SCAN_ABORT -/
  | eyeScanAbort (m : Master) (q : QuadId)
  /-- EYE_SCAN_POINT -/
  | eyeScanPoint (q : QuadId) (mismatches : Nat)
  /-- MBOX_SEND -/
  | mboxSend (m : Master) (l : LinkId) (seq : BitVec 8) (len : BitVec 8)
  /-- USER_SEND -/
  | userSend (m : Master) (l : LinkId) (seq : BitVec 8) (len : BitVec 8)
  /-- NEIGHBOUR_CHANGED_CLEAR -/
  | neighbourChangedClear (m : Master) (l : LinkId)
  /-- LOS_EXIT -/
  | losExit (l : LinkId)
  /-- LOF_ENTRY -/
  | lofEntry (l : LinkId)
  /-- LOF_EXIT -/
  | lofExit (l : LinkId)
  /-- BLOCK_TYPE_ERR_ENTRY -/
  | blockTypeErrEntry (l : LinkId)
  /-- BLOCK_TYPE_ERR_EXIT -/
  | blockTypeErrExit (l : LinkId)
  /-- RDI_ENTRY -/
  | rdiEntry (l : LinkId)
  /-- RDI_EXIT -/
  | rdiExit (l : LinkId)
  /-- DISCORD_ENTRY -/
  | discordEntry (l : LinkId)
  /-- DISCORD_EXIT -/
  | discordExit (l : LinkId)
  /-- LAG_LATE_RAISE -/
  | lagLateRaise (l : IngressId)
  /-- LAG_LATE_CLEAR -/
  | lagLateClear (l : IngressId)
  /-- LAG_STAMP_RANGE_RAISE -/
  | lagStampRangeRaise (l : IngressId)
  /-- LAG_STAMP_RANGE_CLEAR -/
  | lagStampRangeClear (l : IngressId)
  /-- LAG_MARGIN_CLEAR -/
  | lagMarginClear (l : IngressId)
  /-- LAG_STACK_OFF -/
  | lagStackOff (m : Master) (mask : BitVec 4)
  /-- HBM_TEMP_TRIP -/
  | hbmTempTrip (k : StackId)
  /-- STACK_UE_LOSS -/
  | stackUeLoss (k : StackId)
  /-- STACK_FALLBACK_ENTRY -/
  | stackFallbackEntry (k : StackId)
  /-- EVB_MOVE -/
  | evbMove
  /-- LAG_STACK_RESTORE -/
  | lagStackRestore (m : Master) (mask : BitVec 4)
  /-- STACK_RESTORE_DONE -/
  | stackRestoreDone (k : StackId)
  /-- STACK_RESTORE_FAIL -/
  | stackRestoreFail (k : StackId)
  /-- FALLBACK_RELEASE_END -/
  | fallbackReleaseEnd (l : IngressId)
  /-- LAG_LINK_CFG_WRITE -/
  | lagLinkCfgWrite (m : Master) (l : IngressId) (value : BitVec 64)
  /-- LAG_ARR_EXTREMES_READ -/
  | lagArrExtremesRead (m : Master) (l : IngressId) (max : Bool)
  /-- PROT_CMD_CLEAR -/
  | protCmdClear (m : Master) (g : GroupId)
  /-- PROT_CMD_MANUAL_P -/
  | protCmdManualP (m : Master) (g : GroupId)
  /-- PROT_CMD_MANUAL_S -/
  | protCmdManualS (m : Master) (g : GroupId)
  /-- PROT_CMD_FORCE_P -/
  | protCmdForceP (m : Master) (g : GroupId)
  /-- PROT_CMD_FORCE_S -/
  | protCmdForceS (m : Master) (g : GroupId)
  /-- PROT_CMD_LOCKOUT -/
  | protCmdLockout (m : Master) (g : GroupId)
  /-- PROT_CFG_WRITE -/
  | protCfgWrite (m : Master) (g : GroupId) (value : BitVec 64)
  /-- PROT_SF_ENTRY -/
  | protSfEntry (g : GroupId) (copy : Copy)
  /-- PROT_SF_EXIT -/
  | protSfExit (g : GroupId) (copy : Copy)
  /-- PROT_SD_WINDOW_END -/
  | protSdWindowEnd
  /-- PROT_WTR_END -/
  | protWtrEnd (g : GroupId)
  /-- PROT_MISALIGNED_RAISE -/
  | protMisalignedRaise (g : GroupId)
  /-- PROT_MISALIGNED_CLEAR -/
  | protMisalignedClear (g : GroupId)
  /-- PROT_RX_FRESH_EXPIRE -/
  | protRxFreshExpire (bridge : Bool) (i : GroupId) (leg : Copy)
  /-- SCHEDULE_OVERRUN_CLEAR -/
  | scheduleOverrunClear (m : Master)
  /-- SCHEDULE_CLASH_CLEAR -/
  | scheduleClashClear (m : Master)
  /-- CORE_SLACK_READ -/
  | coreSlackRead (m : Master) (k : StationId)
  /-- LIBRARY_WRITE -/
  | libraryWrite (m : Master) (slot : SlotId) (off : Nat) (data : List (BitVec 8))
  /-- ALM_CHECK -/
  | almCheck (m : Master) (slot : SlotId)
  /-- ALM_CHECK_DONE -/
  | almCheckDone (readUe : Option Nat)
  /-- ALM_STAGE -/
  | almStage (m : Master) (slot : SlotId)
  /-- ALM_STAGE_DONE -/
  | almStageDone (readUe : Bool)
  /-- ALM_ARM -/
  | almArm (m : Master)
  /-- ALM_DISARM -/
  | almDisarm (m : Master)
  /-- ALM_REJOIN -/
  | almRejoin (m : Master)
  /-- EPOCH_COMMIT -/
  | epochCommit
  /-- EPOCH_SWAP -/
  | epochSwap
  /-- EPOCH_SUM_SWAP -/
  | epochSumSwap
  /-- EPOCH_EMIT_SWAP -/
  | epochEmitSwap
  /-- EPOCH_SWAP_COMPLETE -/
  | epochSwapComplete
  /-- EPOCH_MISSED_CLEAR -/
  | epochMissedClear (m : Master)
  /-- TRIM_GO -/
  | trimGo (m : Master) (output : Bool) (index : BitVec 21) (gain : BitVec 12)
  /-- TRIM_APPLY -/
  | trimApply
  /-- TABLE_WINDOW_WRITE -/
  | tableWindowWrite (m : Master) (addr : Nat) (data : List (Option (BitVec 8))) (cyc : Nat)
  /-- TABLE_WINDOW_APPLY -/
  | tableWindowApply (j : ReservedId)
  /-- AUDIT_PASS_END -/
  | auditPassEnd
  /-- ALM_AUDIT_CTRL_WRITE -/
  | almAuditCtrlWrite (m : Master) (en : Bool)
  /-- REF_EVENT -/
  | refEvent (i : PinRefId) (t16 : Nat) (freq : Int)
  /-- REF_EVENT_MISSING -/
  | refEventMissing (i : RefId)
  /-- REF_QUALIFY -/
  | refQualify (i : RefId)
  /-- REF_WTR_END -/
  | refWtrEnd (i : RefId)
  /-- TIM_CMD_CLEAR -/
  | timCmdClear (m : Master)
  /-- TIM_CMD_FORCE_REF -/
  | timCmdForceRef (m : Master) (ref : BitVec 4)
  /-- TIM_CMD_FORCE_HOLDOVER -/
  | timCmdForceHoldover (m : Master)
  /-- TIM_CMD_ADOPT -/
  | timCmdAdopt (m : Master)
  /-- TIM_DCO_WRITE -/
  | timDcoWrite (m : Master) (hostLocked : Bool) (offset : BitVec 32)
  /-- HOLDOVER_SECOND_END -/
  | holdoverSecondEnd
  /-- DCO_LIMIT_CLEAR -/
  | dcoLimitClear
  /-- EXCHANGE_START -/
  | exchangeStart (l : IngressId)
  /-- PROBE_RECEIVE -/
  | probeReceive (l : IngressId)
  /-- REPORT_RECEIVE -/
  | reportReceive (l : IngressId)
  /-- EXCHANGE_TIMEOUT -/
  | exchangeTimeout (l : IngressId)
  /-- TICK_ADOPT -/
  | tickAdopt
  /-- ADOPT_WAIT_END -/
  | adoptWaitEnd
  /-- MATE_FRAME_RECEIVE -/
  | mateFrameReceive
  /-- MATE_ROLE_CHANGE -/
  | mateRoleChange
  /-- MATE_JOIN_WAIT_END -/
  | mateJoinWaitEnd
  /-- MATE_HB_EDGE -/
  | mateHbEdge (period : Nat)
  /-- MATE_HB_LOST -/
  | mateHbLost
  /-- MATE_HB_LOSS_CLASSIFY -/
  | mateHbLossClassify
  /-- MATE_HB_REGAIN -/
  | mateHbRegain
  /-- MATE_LINK_DOWN_RAISE -/
  | mateLinkDownRaise
  /-- MATE_LINK_DOWN_CLEAR -/
  | mateLinkDownClear
  /-- MIRROR_APPLY -/
  | mirrorApply
  /-- RESYNC_RECORD_APPLY -/
  | resyncRecordApply
  /-- RESYNC_SETTLED -/
  | resyncSettled
  /-- MATE_UNSETTLED_TIMEOUT -/
  | mateUnsettledTimeout
  /-- MATE_DISCREPANCY_CLEAR -/
  | mateDiscrepancyClear
  /-- MATE_WATCH_EXPIRE -/
  | mateWatchExpire (w : WatchId)
  /-- MATE_CMD_SWAP -/
  | mateCmdSwap (m : Master)
  /-- MATE_CMD_CLEAR_FAULT -/
  | mateCmdClearFault (m : Master)
  /-- MATE_CMD_RESYNC -/
  | mateCmdResync (m : Master)
  /-- TABLE_RESTORE -/
  | tableRestore (addr : BitVec 32) (readFails : Bool)
  /-- TRACKER_THRESHOLD -/
  | trackerThreshold (n : TrackId)
  /-- TRACKER_WRITEBACK -/
  | trackerWriteback (n : TrackId)
  /-- TRACKER_ENTRY_FREE -/
  | trackerEntryFree (n : TrackId)
  /-- TEST_STEP_START -/
  | testStepStart (fails : List (BitVec 32 × Nat))
  /-- TEST_STEP_END -/
  | testStepEnd
  /-- ECC_TEST_NOW -/
  | eccTestNow (m : Master)
  /-- SCRUB_START -/
  | scrubStart (m : Master) (cmd : BitVec 64)
  /-- SCRUB_ABORT -/
  | scrubAbort (m : Master)
  /-- SCRUB_PASS_END -/
  | scrubPassEnd
  /-- FUSE_BURN -/
  | fuseBurn (m : Master) (entry : BitVec 32)
  /-- FUSE_BURN_DONE -/
  | fuseBurnDone (readBack : BitVec 32)
  /-- HBM_REPAIR_GO -/
  | hbmRepairGo (m : Master) (cand : CandId)
  /-- HBM_REPAIR_DONE -/
  | hbmRepairDone (res : RepairResult)
  /-- HBM_ECS_READ -/
  | hbmEcsRead (counts : List Nat)
  /-- ECC_UE_CLEAR -/
  | eccUeClear (m : Master)
  /-- ECC_HARD_CLEAR -/
  | eccHardClear (m : Master)
  /-- ECC_TEST_FAIL_CLEAR -/
  | eccTestFailClear (m : Master)
  /-- ECC_TRACK_FULL_CLEAR -/
  | eccTrackFullClear (m : Master)
  /-- TRIM_LOST_CLEAR -/
  | trimLostClear (m : Master)
  /-- HOST_LINK_UP -/
  | hostLinkUp (p : Port)
  /-- HOST_READ -/
  | hostRead (p : Port) (bar2 : Bool) (off : Nat) (len : Nat) (cyc : Nat) (busy : Bool)
  /-- HOST_WRITE -/
  | hostWrite (p : Port) (bar2 : Bool) (off : Nat) (data : List (Option (BitVec 8))) (cyc : Nat) (busy : Bool)
  /-- BUS_GRANT -/
  | busGrant (t : TargetId) (cyc : Nat) (waited : Nat)
  /-- BUS_ERR_LAST_READ -/
  | busErrLastRead (m : Master) (of : Master)
  /-- ATOMIC_FETCHADD -/
  | atomicFetchadd (p : Port) (addr : Nat) (wide : Bool) (data : BitVec 64)
  /-- ATOMIC_SWAP -/
  | atomicSwap (p : Port) (addr : Nat) (wide : Bool) (data : BitVec 64)
  /-- ATOMIC_CAS -/
  | atomicCas (p : Port) (addr : Nat) (wide : Bool) (cmp : BitVec 64) (data : BitVec 64)
  /-- DOORBELL_SET -/
  | doorbellSet (m : Master) (n : BankId) (w : DoorbellId) (data : BitVec 64)
  /-- DOORBELL_CLEAR -/
  | doorbellClear (m : Master) (n : BankId) (w : DoorbellId) (data : BitVec 64)
  /-- DOORBELL_FETCH_CLEAR -/
  | doorbellFetchClear (m : Master) (n : BankId) (w : DoorbellId)
  /-- DOORBELL_ADD -/
  | doorbellAdd (m : Master) (n : BankId) (w : DoorbellId) (data : BitVec 64)
  /-- SCRATCH_CLAIM -/
  | scratchClaim (m : Master) (n : BankId)
  /-- SCRATCH_RELEASE -/
  | scratchRelease (m : Master) (n : BankId)
  /-- SCRATCH_GIVE -/
  | scratchGive (m : Master) (n : BankId) (dest : BitVec 3)
  /-- SEM_TRY -/
  | semTry (m : Master) (i : SemId) (cyc : Nat)
  /-- SEM_RELEASE -/
  | semRelease (m : Master) (i : SemId)
  /-- SEM_ARM -/
  | semArm (m : Master) (i : SemId) (data : BitVec 64) (cyc : Nat)
  /-- SEM_FORCE -/
  | semForce (m : Master) (i : SemId)
  /-- MASTER_RESET -/
  | masterReset (m : Master) (linkDown : Bool)
  /-- REMAP_WRITE -/
  | remapWrite (m : Master) (remap : Bool)
  /-- BOOT_LOADER_START -/
  | bootLoaderStart
  /-- SYS_BOOT_RUN -/
  | sysBootRun (m : Master)
  /-- LOAD_IMAGE -/
  | loadImage
  /-- CHECK_BOOT -/
  | checkBoot
  /-- STAGE_BOOT -/
  | stageBoot
  /-- ACTIVATE -/
  | activate
  /-- CHECK_REST -/
  | checkRest
  /-- BOOT_STEP_WRITE -/
  | bootStepWrite
  /-- BOOT_STEP_POLL -/
  | bootStepPoll
  /-- BOOT_STEP_WAIT -/
  | bootStepWait
  /-- BOOT_STEP_END -/
  | bootStepEnd
  /-- FUNC_ENABLE -/
  | funcEnable (f : FuncId)
  /-- FUNC_DISABLE -/
  | funcDisable (f : FuncId)
  /-- FUNC_START_DONE -/
  | funcStartDone (f : FuncId)
  /-- FUNC_START_FAIL -/
  | funcStartFail (f : FuncId)
  /-- FUNC_STOP_DONE -/
  | funcStopDone (f : FuncId)
  /-- NVM_PROGRAM -/
  | nvmProgram (m : Master) (addr : BitVec 28) (len : BitVec 13)
  /-- NVM_ERASE -/
  | nvmErase (m : Master) (addr : BitVec 28)
  /-- NVM_CMD_DONE -/
  | nvmCmdDone (res : NvmResult)
  /-- SNAPSHOT_AUTO -/
  | snapshotAuto
  /-- PM_SNAP -/
  | pmSnap (m : Master)
  /-- SNAPSHOT_ARMED_TICK -/
  | snapshotArmedTick
  /-- SNAPSHOT_WRITTEN -/
  | snapshotWritten
  /-- BW_WINDOW_END -/
  | bwWindowEnd
  /-- PM_BW_CFG_WRITE -/
  | pmBwCfgWrite (m : Master) (window : BitVec 16)
  /-- PM_SECOND_END -/
  | pmSecondEnd
  /-- ALARM_LATCH_CLEAR -/
  | alarmLatchClear (m : Master) (a : AlarmId) (w : Fin 4) (bits : BitVec 64)
  /-- INT_SRC_CLEAR -/
  | intSrcClear (m : Master) (p : Port) (bits : BitVec 12)
  /-- LOG_HOURLY -/
  | logHourly
  /-- LOG_FLUSH -/
  | logFlush (m : Master)
  /-- LOG_STORE_START -/
  | logStoreStart
  /-- LOG_STORE_DONE -/
  | logStoreDone (verified : Bool)
  /-- TEMP_UPDATE -/
  | tempUpdate (tj : BitVec 16)
  /-- JTAG_TAP_RESET -/
  | jtagTapReset
  /-- JTAG_INSTRUCTION -/
  | jtagInstruction (i : JtagInstr)
  /-- REGISTER_WRITE -/
  | registerWrite (m : Master) (addr : Nat) (value : BitVec 64) (part : Part)
  /-- LOSS_OF_SIGNAL -/
  | lossOfSignal (l : LinkMoment)
  /-- TICK_STOP -/
  | tickStop
  /-- END_OF_P2 -/
  | endOfP2 (flashMiB : Option Nat)
  /-- END_OF_P3 -/
  | endOfP3 (bist : BistResult)
  /-- CONFIGURATION_REQUEST -/
  | configurationRequest (p : Port) (req : CfgReq)
  /-- SYS_TEMP_READ -/
  | sysTempRead (m : Master) (part : Part)
  /-- HBM_TEMPERATURE_REPORT -/
  | hbmTemperatureReport (k : StackId) (hot : Bool)
  deriving DecidableEq, Repr

end Sys2Proof
end

