-- ==== Sys2Proof/Decode.lean ====
section
/-! DEFINITION. Commands from words: the table of this block gives its rows no bits, so no word spells a command. -/

namespace Sys2Proof

/-- The command that `nbits` bits of value `w` spell: none, since no row of spec/opcode_table.json has bits. -/
def decodeTableWord (_nbits _w : Nat) : Option Instr := none

end Sys2Proof
end

