-- ==== Sys2Proof/Machine/Table.lean ====
section
/-! DEFINITION. Operations over sparse tables and the plain bit, byte and number helpers the meanings share. -/

namespace Sys2Proof

/-- The entry of index `k`, or the default `d` where none is listed. -/
def Tbl.get {α : Type} (d : α) : Tbl α → Nat → α
  | [], _ => d
  | (j, v) :: t, k => if j = k then v else Tbl.get d t k

/-- Every entry of index `k` taken out. -/
def Tbl.erase {α : Type} (k : Nat) : Tbl α → Tbl α
  | [] => []
  | (j, v) :: t => if j = k then Tbl.erase k t else (j, v) :: Tbl.erase k t

/-- `(k, v)` put before the first entry of a higher index. -/
def Tbl.insert {α : Type} (k : Nat) (v : α) : Tbl α → Tbl α
  | [] => [(k, v)]
  | (j, w) :: t => if k < j then (k, v) :: (j, w) :: t else (j, w) :: Tbl.insert k v t

/-- Index `k` set to `v`: the canonical form lists no entry equal to the default `d`. -/
def Tbl.set {α : Type} [DecidableEq α] (d : α) (t : Tbl α) (k : Nat) (v : α) : Tbl α :=
  if v = d then Tbl.erase k t else Tbl.insert k v (Tbl.erase k t)

/-- Index `k` changed by `f`. -/
def Tbl.modify {α : Type} [DecidableEq α] (d : α) (t : Tbl α) (k : Nat) (f : α → α) : Tbl α :=
  Tbl.set d t k (f (Tbl.get d t k))

/-- Every entry of an index between `lo` and `lo + n - 1` taken out (they read as the default again). -/
def Tbl.clearRange {α : Type} (t : Tbl α) (lo n : Nat) : Tbl α :=
  t.filter fun e => !(decide (lo ≤ e.1) && decide (e.1 < lo + n))

/-- The canonical form: indices strictly rising from `lo`, no entry equal to the default. -/
def Tbl.wfFrom {α : Type} [DecidableEq α] (d : α) : Nat → Tbl α → Bool
  | _, [] => true
  | lo, (j, v) :: t => decide (lo ≤ j) && decide (v ≠ d) && Tbl.wfFrom d (j + 1) t

/-- The canonical form of a whole table. -/
def Tbl.wf {α : Type} [DecidableEq α] (d : α) (t : Tbl α) : Bool := Tbl.wfFrom d 0 t

/-- `f` applied to every index from `lo` to `lo + n - 1` in rising order. -/
def iter {α : Type} (f : Nat → α → α) : Nat → Nat → α → α
  | _, 0, a => a
  | lo, n + 1, a => iter f (lo + 1) n (f lo a)

/-- The bits `lo` to `lo + w - 1` of `x`. -/
def field (x lo w : Nat) : Nat := (x / 2 ^ lo) % 2 ^ w

/-- Bit `i` of `x`. -/
def bit (x i : Nat) : Bool := (x / 2 ^ i) % 2 = 1

/-- 1 for true, 0 for false. -/
def b2n (b : Bool) : Nat := if b then 1 else 0

/-- `x`'s low `w` bits as a two's-complement number. -/
def signed (w x : Nat) : Int :=
  let y := x % 2 ^ w
  if y < 2 ^ (w - 1) then (y : Int) else (y : Int) - 2 ^ w

/-- The two's-complement code of `i` in `w` bits. -/
def unsigned (w : Nat) (i : Int) : Nat := (i % 2 ^ w).toNat

/-- `n` bits of `x` with bit `i` set or cleared. -/
def setBit (x i : Nat) (b : Bool) : Nat :=
  if bit x i then (if b then x else x - 2 ^ i) else (if b then x + 2 ^ i else x)

/-- The `n` bytes of `x`, least significant first (00 R4). -/
def toBytes : Nat → Nat → List Byte
  | 0, _ => []
  | n + 1, x => BitVec.ofNat 8 x :: toBytes n (x / 256)

/-- The number that bytes spell, least significant first (00 R4). -/
def ofBytes : List Byte → Nat
  | [] => 0
  | b :: t => b.toNat + 256 * ofBytes t

/-- How many bits of `x`'s low `w` are 1. -/
def popcount (w x : Nat) : Nat := ((List.range w).filter (bit x)).length

/-- The parity of `x`'s low `w` bits: true where an odd number of them is 1. -/
def parity : Nat → Nat → Bool
  | 0, _ => false
  | w + 1, x => xor (x % 2 = 1) (parity w (x / 2))

/-- `(b − a)` modulo 2^32 as a signed difference of tick numbers (00 R5). -/
def tickDiff (a b : BitVec 32) : Int := (b - a).toInt

/-- Tick number `b` is later than `a` (00 R5). -/
def later (a b : BitVec 32) : Bool := decide (0 < tickDiff a b)

/-- A run length that stops counting at `cap`. -/
def bump (cap n : Nat) : Nat := if n < cap then n + 1 else n

end Sys2Proof
end

