-- ==== Sys2Proof/Machine/Crc.lean ====
section
/-! DEFINITION. The check codes of the links and images (02 R31, 03 Table 03-5), the scrambler (03 R53) and the SECDED codes of the SRAMs
(11 R279 to R282). -/

namespace Sys2Proof.Machine

/-- One bit of a most-significant-bit-first CRC of `w` bits with polynomial `poly`. -/
def crcBit (w poly : Nat) (crc : Nat) (b : Bool) : Nat :=
  let top := xor (bit crc (w - 1)) b
  let sh := (crc * 2) % 2 ^ w
  if top then sh ^^^ poly else sh

/-- The low `n` bits of `x`, most significant first, through a CRC. -/
def crcMsb (w poly : Nat) : Nat → Nat → Nat → Nat
  | 0, _, crc => crc
  | n + 1, x, crc => crcMsb w poly n x (crcBit w poly crc (bit x n))

/-- CRC8 of 02 R31: polynomial 0x07, over the `n` low bits of `x` from the top down. -/
def crc8 (n x : Nat) : Nat := crcMsb 8 0x07 n x 0

/-- CRC-16 of 03 Table 03-5: polynomial 0x1021, initial value 0xFFFF, each byte most significant bit first. -/
def crc16 (bs : List Byte) : Nat := bs.foldl (fun c b => crcMsb 16 0x1021 8 b.toNat c) 0xFFFF

/-- Eight bits of the reflected CRC-32C. -/
def crc32Step : Nat → Nat → Nat
  | 0, c => c
  | n + 1, c => crc32Step n (if c % 2 = 1 then (c / 2) ^^^ 0x82F63B78 else c / 2)

/-- CRC-32C over bytes without the initial and final inversion. -/
def crc32Go (c : Nat) (bs : List Byte) : Nat := bs.foldl (fun c b => crc32Step 8 (c ^^^ b.toNat)) c

/-- CRC-32C with the PCRC parameters of 03 Table 03-5. -/
def crc32c (bs : List Byte) : BitVec 32 := BitVec.ofNat 32 (crc32Go 0xFFFFFFFF bs ^^^ 0xFFFFFFFF)

/-- The CRC register run over words `lo` to `lo + n - 1` of a table, each as 8 bytes, least significant first (03 R61). -/
def crc32Words (get : Nat → Word) : Nat → Nat → Nat → Nat
  | _, 0, c => c
  | lo, n + 1, c => crc32Words get (lo + 1) n (crc32Go c (toBytes 8 (get lo).toNat))

/-- CRC-32C over `n` words from `lo` (03 R61, 05 R109, 10 R248). -/
def crcOfWords (get : Nat → Word) (lo n : Nat) : BitVec 32 :=
  BitVec.ofNat 32 (crc32Words get lo n 0xFFFFFFFF ^^^ 0xFFFFFFFF)

/-- `n` bits, 39 at most, through the self-synchronous scrambler x^58 + x^39 + 1 (03 R53): the state is the last 58 line bits, the oldest in bit 0, so
that bit j of it was sent 58 bits, and bit j + 19 of it 39 bits, before the j-th bit to come.  A scrambler adds both to the word's bit. -/
def scrambleBits (n : Nat) (st : BitVec 58) (w : Nat) : Nat := (w ^^^ st.toNat ^^^ st.toNat / 2 ^ 19) % 2 ^ n

/-- The state after `n` line bits `c` have followed. -/
def shiftIn (n : Nat) (st : BitVec 58) (c : Nat) : BitVec 58 := BitVec.ofNat 58 ((st.toNat + c % 2 ^ n * 2 ^ 58) / 2 ^ n)

/-- A word scrambled, least significant bit first, and the scrambler after it. -/
def scramble (st : BitVec 58) (w : Word) : Word × BitVec 58 :=
  let a := scrambleBits 39 st w.toNat
  let st := shiftIn 39 st a
  let b := scrambleBits 25 st (w.toNat / 2 ^ 39)
  (BitVec.ofNat 64 (a + b * 2 ^ 39), shiftIn 25 st b)

/-- A line word descrambled, and the descrambler after it (03 R53): it shifts in the line bits as they came. -/
def descramble (st : BitVec 58) (line : Word) : Word × BitVec 58 :=
  let l := line.toNat
  let a := scrambleBits 39 st l
  let st := shiftIn 39 st l
  let b := scrambleBits 25 st (l / 2 ^ 39)
  (BitVec.ofNat 64 (a + b * 2 ^ 39), shiftIn 25 st (l / 2 ^ 39))

/-! ### SECDED (11) -/

/-- The `n`-bit values of Hamming weight 3, rising (11 R279, R280). -/
def weight3 (n : Nat) : List Nat := (List.range (2 ^ n)).filter fun v => popcount n v = 3

/-- The columns of the 64 data bits of the (72,64) code (11 R279). -/
def columns64 : List Nat := (weight3 8).take 56 ++ [0x1F, 0x2F, 0x37, 0x3B, 0x3D, 0x3E, 0x4F, 0x57]

/-- The columns of the 80 data bits of the (89,80) code (11 R280). -/
def columns80 : List Nat := (weight3 9).take 80

/-- The check bits of data `d`: the columns of its 1 bits, added modulo 2. -/
def checkGo : List Nat → Nat → Nat → Nat
  | [], _, acc => acc
  | h :: t, d, acc => checkGo t (d / 2) (if d % 2 = 1 then acc ^^^ h else acc)

/-- The check bits of a code with data columns `cols`. -/
def checkBits (cols : List Nat) (d : Nat) : Nat := checkGo cols d 0

/-- What a read of a protected word gives (11 Table 11-3). -/
inductive EccOutcome
  | clean (data : Nat) | corrected (data codeBit : Nat) | ue | poison
  deriving DecidableEq, Repr

/-- A read by 11 Table 11-3: `n` data bits with columns `cols`, `m` check bits, data `d` and check bits `k` as read. -/
def eccDecode (n m : Nat) (cols : List Nat) (d k : Nat) : EccOutcome :=
  let ones := 2 ^ m - 1
  let off := popcount n d + popcount m (k ^^^ ones)
  if off = 0 then .poison
  else if off = 1 then .ue
  else
    let s := checkBits cols d ^^^ k
    if s = 0 then .clean d
    else if popcount m s = 1 then .corrected d (n + Nat.log2 s)
    else match cols.findIdx? (· = s) with
      | some i => .corrected (d ^^^ 2 ^ i) i
      | none => .ue

/-- The read of a word that holds `data` (or the poison pattern) with the code-word bits `flips` upset since it was written. -/
def eccRead (wide poisoned : Bool) (data : Nat) (flips : List Nat) : EccOutcome :=
  let n := if wide then 80 else 64
  let m := if wide then 9 else 8
  let cols := if wide then columns80 else columns64
  let d := if poisoned then 0 else data
  let k := if poisoned then 2 ^ m - 1 else checkBits cols data
  let word := flips.foldl (fun w b => w ^^^ 2 ^ b) (d + k * 2 ^ n)
  eccDecode n m cols (word % 2 ^ n) (word / 2 ^ n)

end Sys2Proof.Machine
end

