-- ==== Sys2Proof/Config.lean ====
section
/-! DEFINITION. Values the spec leaves open.  Nothing can evaluate them and no proof can see a value: a statement that holds, holds for
every value (log entry 3). -/

namespace Sys2Proof.Config

/-- The free word number `n`: a meaning that needs a value the spec leaves open takes the next number, which `State.free` counts. -/
opaque freeWord : Nat → Word

/-- Which row of its stack (ROW, BANK, SID and PC of 11 Table 11-12, bits [29:2]) holds an HBM address: the stack's own mapping. -/
opaque hbmRow : Nat → BitVec 28

/-- The byte of the boot ROM at an offset beyond its step list, whose content the spec does not give. -/
opaque romByte : Nat → Byte

/-- The loop's proportional gain at a bandwidth in 0.01 Hz: units of phase a tick for each unit of phase error, times 2^32 (09 R225). -/
opaque loopGain : Nat → Nat

end Sys2Proof.Config
end

