-- ==== Sys2Proof/Machine/Alarms.lean ====
section
/-! DEFINITION. The alarm catalogue of 15 Table 15-20: number, severity, block and instances of each alarm. -/

namespace Sys2Proof.Machine

/-- Severities of 14 R365: 1 INFO, 2 MINOR, 3 MAJOR, 4 fatal (the SEV code of 14 Table 14-6). -/
structure AlarmInfo where
  num : Nat
  sev : Nat
  block : Nat
  instances : List (Nat × Nat)
  deriving DecidableEq, Repr

namespace A

abbrev bootFail : Nat := 0
abbrev bootImageFallback : Nat := 1
abbrev bootStrapInvalid : Nat := 2
abbrev deviceUnusable : Nat := 3
abbrev tempHigh : Nat := 4
abbrev timFreerun : Nat := 5
abbrev timHoldover : Nat := 6
abbrev refFail : Nat := 7
abbrev refDispute : Nat := 8
abbrev dcoLimit : Nat := 9
abbrev tickUnnumbered : Nat := 10
abbrev tickNumberMismatch : Nat := 11
abbrev tickSkew : Nat := 12
abbrev timForced : Nat := 13
abbrev mateHbLost : Nat := 14
abbrev mateHbFail : Nat := 15
abbrev mateDispute : Nat := 16
abbrev mateLinkDown : Nat := 17
abbrev mateFault : Nat := 18
abbrev discrepancyUnexplained : Nat := 19
abbrev mateInputDiffer : Nat := 20
abbrev mirrorLost : Nat := 21
abbrev mateSetDiffer : Nat := 22
abbrev mateUnsettled : Nat := 23
abbrev mateAbsent : Nat := 24
abbrev mateRankClash : Nat := 25
abbrev mateWatchLost : Nat := 26
abbrev epochMissed : Nat := 27
abbrev almanacAudit : Nat := 28
abbrev armDisagree : Nat := 29
abbrev scheduleOverrun : Nat := 30
abbrev scheduleClash : Nat := 31
abbrev stationDisabled : Nat := 32
abbrev lagMargin : Nat := 33
abbrev lagLate : Nat := 34
abbrev lagStampRange : Nat := 35
abbrev lagFallback : Nat := 36
abbrev lagFallbackNopage : Nat := 37
abbrev lagStackLost : Nat := 38
abbrev protCopyFail : Nat := 39
abbrev protBothFail : Nat := 40
abbrev protDegrade : Nat := 41
abbrev protMisaligned : Nat := 42
abbrev protCmd : Nat := 43
abbrev protFarFail : Nat := 44
abbrev protLegCrossed : Nat := 45
abbrev eccUe : Nat := 46
abbrev tableUePersist : Nat := 47
abbrev eccHardCandidate : Nat := 48
abbrev testFail : Nat := 49
abbrev eccTrackFull : Nat := 50
abbrev trimLost : Nat := 51
abbrev pmUnavailable : Nat := 52
abbrev pmFeUnavailable : Nat := 53
abbrev historyBroken : Nat := 54
abbrev logStoreFail : Nat := 55
abbrev evbUnavailable : Nat := 56
abbrev nvmFail : Nat := 57
abbrev wiringMismatch : Nat := 58
abbrev linkLof : Nat := 59
abbrev blockTypeErr : Nat := 60
abbrev rdi : Nat := 61
abbrev discord : Nat := 62
abbrev justifyRange : Nat := 63
abbrev neighbourChanged : Nat := 64
abbrev quadDown : Nat := 65
abbrev txfirFence : Nat := 66
abbrev adaptTimeout : Nat := 67

end A

/-- Rows of 15 Table 15-20. -/
def alarmTable0 : List AlarmInfo := [
  ⟨A.bootFail, 4, 0, [(0, 1)]⟩,
  ⟨A.bootImageFallback, 2, 0, [(0, 1)]⟩,
  ⟨A.bootStrapInvalid, 3, 0, [(0, 1)]⟩,
  ⟨A.deviceUnusable, 4, 0, [(0, 1)]⟩,
  ⟨A.tempHigh, 3, 0, [(0, 1)]⟩,
  ⟨A.timFreerun, 3, 2, [(0, 1)]⟩,
  ⟨A.timHoldover, 3, 2, [(0, 1)]⟩,
  ⟨A.refFail, 2, 2, [(0, 12)]⟩,
  ⟨A.refDispute, 2, 2, [(0, 1)]⟩,
  ⟨A.dcoLimit, 3, 2, [(0, 1)]⟩,
  ⟨A.tickUnnumbered, 3, 2, [(0, 1)]⟩,
  ⟨A.tickNumberMismatch, 3, 2, [(0, 1)]⟩,
  ⟨A.tickSkew, 2, 2, [(0, 1)]⟩,
  ⟨A.timForced, 1, 2, [(0, 1)]⟩,
  ⟨A.mateHbLost, 3, 3, [(0, 1)]⟩,
  ⟨A.mateHbFail, 2, 3, [(0, 1)]⟩,
  ⟨A.mateDispute, 3, 3, [(0, 1)]⟩,
  ⟨A.mateLinkDown, 3, 3, [(0, 1)]⟩,
  ⟨A.mateFault, 3, 3, [(0, 1)]⟩,
  ⟨A.discrepancyUnexplained, 3, 3, [(0, 1)]⟩,
  ⟨A.mateInputDiffer, 2, 3, [(0, 1)]⟩,
  ⟨A.mirrorLost, 3, 3, [(0, 1)]⟩,
  ⟨A.mateSetDiffer, 3, 3, [(0, 1)]⟩,
  ⟨A.mateUnsettled, 2, 3, [(0, 1)]⟩]

/-- Rows of 15 Table 15-20. -/
def alarmTable1 : List AlarmInfo := [
  ⟨A.mateAbsent, 3, 3, [(0, 1)]⟩,
  ⟨A.mateRankClash, 3, 3, [(0, 1)]⟩,
  ⟨A.mateWatchLost, 2, 3, [(0, 1)]⟩,
  ⟨A.epochMissed, 3, 4, [(0, 1)]⟩,
  ⟨A.almanacAudit, 3, 4, [(0, 1)]⟩,
  ⟨A.armDisagree, 2, 4, [(0, 128)]⟩,
  ⟨A.scheduleOverrun, 4, 5, [(0, 1)]⟩,
  ⟨A.scheduleClash, 3, 5, [(0, 1)]⟩,
  ⟨A.stationDisabled, 3, 5, [(0, 128)]⟩,
  ⟨A.lagMargin, 2, 6, [(0, 128)]⟩,
  ⟨A.lagLate, 3, 6, [(0, 128)]⟩,
  ⟨A.lagStampRange, 3, 6, [(0, 128)]⟩,
  ⟨A.lagFallback, 2, 6, [(0, 128)]⟩,
  ⟨A.lagFallbackNopage, 3, 6, [(0, 128)]⟩,
  ⟨A.lagStackLost, 3, 6, [(0, 4)]⟩,
  ⟨A.protCopyFail, 2, 7, [(0, 64)]⟩,
  ⟨A.protBothFail, 3, 7, [(0, 64)]⟩,
  ⟨A.protDegrade, 2, 7, [(0, 64)]⟩,
  ⟨A.protMisaligned, 3, 7, [(0, 64)]⟩,
  ⟨A.protCmd, 1, 7, [(0, 64)]⟩,
  ⟨A.protFarFail, 2, 7, [(64, 64)]⟩,
  ⟨A.protLegCrossed, 1, 7, [(0, 64), (64, 64)]⟩,
  ⟨A.eccUe, 2, 8, [(0, 1)]⟩,
  ⟨A.tableUePersist, 3, 8, [(0, 1)]⟩]

/-- Rows of 15 Table 15-20. -/
def alarmTable2 : List AlarmInfo := [
  ⟨A.eccHardCandidate, 2, 8, [(0, 1)]⟩,
  ⟨A.testFail, 3, 8, [(0, 1)]⟩,
  ⟨A.eccTrackFull, 1, 8, [(0, 1)]⟩,
  ⟨A.trimLost, 1, 8, [(0, 1)]⟩,
  ⟨A.pmUnavailable, 2, 9, [(0, 128), (128, 64), (192, 1)]⟩,
  ⟨A.pmFeUnavailable, 1, 9, [(0, 128)]⟩,
  ⟨A.historyBroken, 1, 10, [(0, 1)]⟩,
  ⟨A.logStoreFail, 2, 10, [(0, 1)]⟩,
  ⟨A.evbUnavailable, 2, 10, [(0, 1)]⟩,
  ⟨A.nvmFail, 3, 11, [(0, 1)]⟩,
  ⟨A.wiringMismatch, 3, 13, [(0, 128)]⟩,
  ⟨A.linkLof, 3, 13, [(0, 130)]⟩,
  ⟨A.blockTypeErr, 2, 13, [(0, 130)]⟩,
  ⟨A.rdi, 2, 13, [(0, 130)]⟩,
  ⟨A.discord, 3, 13, [(0, 130)]⟩,
  ⟨A.justifyRange, 3, 13, [(0, 130)]⟩,
  ⟨A.neighbourChanged, 1, 13, [(0, 130)]⟩,
  ⟨A.quadDown, 3, 14, [(0, 33)]⟩,
  ⟨A.txfirFence, 2, 14, [(0, 130)]⟩,
  ⟨A.adaptTimeout, 2, 14, [(0, 130)]⟩]

/-- The alarm catalogue. -/
def alarmTable : List AlarmInfo := alarmTable0 ++ alarmTable1 ++ alarmTable2

/-- The row of alarm `a`, where Table 15-20 lists it. -/
def alarmInfo (a : Nat) : Option AlarmInfo := alarmTable.find? fun r => r.num = a

/-- SEV of alarm `a` (0 where it is not listed). -/
def alarmSev (a : Nat) : Nat := match alarmInfo a with | some r => r.sev | none => 0

/-- The block of alarm `a`. -/
def alarmBlock (a : Nat) : Nat := match alarmInfo a with | some r => r.block | none => 0

/-- Whether alarm `a` has instance `i`. -/
def alarmHas (a i : Nat) : Bool :=
  match alarmInfo a with
  | some r => r.instances.any fun x => decide (x.1 ≤ i) && decide (i < x.1 + x.2)
  | none => false

end Sys2Proof.Machine
end

