-- ==== Sys2Proof/Machine/Registers.lean ====
section
/-! DEFINITION. The register map: every register of the blocks of 15 Table 15-1, its offset and instances (15 Tables 15-2 to
15-13) and its fields with their access types, reset values and levels, as the field tables of chapters 02 to 15 give them. -/

namespace Sys2Proof.Machine

/-- The register blocks of 15 Table 15-1, in the order that numbers them (15 R388). -/
inductive RegBlock
  | sys | bus | tim | mate | alm | core | lag | prot | ecc | pm | log | nvm | hbm | link | lane
  deriving DecidableEq, Repr

/-- The registers of 15 R383, one name for all the instances of an instanced register.  SYS_DIEID, the SYS_ALM_ACT and SYS_ALM_LATCH words,
the buffers, the MSI-X structures and the fuse maps are held apart from these (State.lean). -/
inductive Reg
  | laneCtrl | laneState | laneSkew | laneTxfirPreset | laneTxfir | laneAdaptCfg | lanePrbsCtrl | laneScanCtrl
  | laneScanGrid | laneScanStatus | lanePrbsErr | lanePrbsBits | laneBringupTry | laneBringupTimeout | laneUpLoss
  | laneAdaptMsgErr | laneAdaptStep | laneAdaptReject | laneAdaptFrozen | laneAdaptTimeout | linkCtrl | linkState
  | linkRxTick | linkRxJust | linkTxJust | linkIdentRxSetid | linkIdentRxDieid | linkIdentRxInfo | linkIdentRxArmed
  | linkMboxCtrl | linkUserCtrl | linkFramesGood | linkFramesDoubtful | linkFramesBad | linkFramesAbsent | linkHdrErr
  | linkTypeErr | linkOvhCrcErr | linkPayCrcErr | linkJcCorrected | linkFmErr | linkOofEntry | linkLofEntry
  | linkLolEntry | linkTickJump | linkTickSubst | linkReiRx | linkProtMsgErr | linkMboxErr | linkUserErr
  | linkUserFwdDrop | linkDiscordEntry | linkJustRange | linkWiringEntry | lagStackCmd | lagState | lagStackCfg
  | lagLinkCfg | lagArrLast | lagArrMax | lagArrMin | lagLinkState | lagElasticOvf | lagReadLate | lagPageFail
  | lagStackLoss | lagReleased | lagMissing | lagLate | lagEarly | lagRepeat | lagPageBad | lagMarginLow
  | protGroupCfg | protGroupCmd | protGroupState | protBridgeCfg | protRxGroup | protRxBridge | protRxReserved
  | protRxUnmatched | protSelP | protSelS | protSwitch | protNoGood | protBothAbsent | protDiffer | protCmdRefused
  | coreStatus | coreStationDis | coreSumCount | coreSlack | coreTapCtrl | coreTapData | coreTapTick
  | coreOverrunSlots | coreClashReads | corePostClash | coreResvMirror | coreResvCtrl | coreResvScrub | coreResvTest
  | coreResvAudit | coreTicks | almState | almActiveSetid | almActiveInfo | almSlotCmd | almSlotStatus | almArm
  | almArmCmd | almArmed | almTrimCmd | almTrimStatus | almAuditCtrl | almAuditStatus | almVouched | almArmDis
  | almEpochs | almEpochMissed | almCheckReject | almStageFail | almAuditPasses | almAuditMismatch | almTrims
  | timState | timTick | timCfg | timSlope | timAdoptCfg | timRefCfg | timRefState | timPhase | timDco | timHold
  | timCmd | timAdoptStatus | timAdoptNum | timOutCfg | timSwitches | timHoldoverEntry | timFreerunEntry
  | timDisputes | timExchOk | timExchFail | timDcoClamp | timRefDisq | mateCfg | mateState | mateCmd | mateResync
  | mateWatchLost | mateWatch | matePromotions | mateDemotions | mateSwaps | mateHbLoss | mateLinkLoss
  | mateFrameUnusable | mateCmpTicks | mateCmpMismatch | mateDiscrepancies | mateMirrored | mateUnmirrored
  | mateMirrorGaps | mateResyncs | matePromoteUnsynced | eccStatus | eccLastUe | eccTrackCfg | eccTestCfg
  | eccTestStatus | eccScrubCmd | eccScrubStatus | eccScrubSum | eccScrubUe | eccTrack | eccFuseCmd | eccFuseStatus
  | eccSoft | eccCorr | eccUe | eccPoison | eccTestFail | eccTrackFull | eccWritebacks | eccRestores
  | eccSumPoisonAll | eccTestRegions | eccFuseBad | eccSoftNospare | hbmRepairCmd | hbmRepairStatus | hbmCand | hbmCe
  | hbmUe | hbmEcs | busStatus | busBar2Base | busPrio | busCollCfg | busErrLast | busCollLast | busScrOwn
  | busDbPend | busErrResp | busDefault | busSplits | busResets | busGrants | busWait | busCollisions | busSemForced
  | busSemTaken | sysBootStatus | sysBootCmd | sysBistStatus | sysFuncState | sysFuncStarts | nvmInfo | nvmCmd
  | nvmStatus | nvmPrograms | nvmErases | nvmVerifyFail | pmCtrl | pmSnapStatus | pmBwCfg | pmBwLast | pmLinkState
  | pmGroupState | pmMateState | pmBwLinkIn | pmBwLinkOut | pmBwHostWr | pmBwHostRd | pmBwHostReq | pmBwHbmWr
  | pmBwHbmRd | pmBwHbmPeak | pmBwBusBeats | pmBwBusWait | pmSeconds | pmSecondsCut | pmSnapshots | pmSnapSkipped
  | pmEs | pmSes | pmUas | pmFeEs | pmFeSes | pmFeUas | pmGroupEs | pmGroupSes | pmGroupUas | pmMateEs | pmMateSes
  | pmMateUas | logCtrl | logState | logEvbBase | logEvbEntries | logDropped | logEvbLost | logEntries | logStores
  | logStoreFail | sysId | sysPciId | sysCtrl | sysTemp | sysTempCfg | hbmCfg | hbmState | sysAlmSummary
  | sysAlarmMask | sysIntEn | sysIntBlk | sysIntSrc | sysIntPend
  deriving DecidableEq, Repr

/-- Access types of 00 R7. -/
inductive Access
  | rw | ro | w1c | rc | wo
  deriving DecidableEq, Repr

/-- Where a field lies: register, lowest bit, width. -/
structure Field where
  reg : Reg
  lo : Nat
  width : Nat
  deriving DecidableEq, Repr

/-- One row of a field table: the field, its access type, its reset value and whether its level is expert (12 R330). -/
structure FieldSpec where
  field : Field
  access : Access
  reset : Nat
  expert : Bool
  deriving DecidableEq, Repr

/-- Where a register lies: block, offset formula (`off + stride * i`), first index and number of instances. -/
structure RegPlace where
  block : RegBlock
  off : Nat
  stride : Nat
  first : Nat
  count : Nat
  deriving DecidableEq, Repr

namespace F

/-! LANE_CTRL -/
abbrev laneCtrlLoop : Field := ⟨.laneCtrl, 2, 2⟩
abbrev laneCtrlAdaptEn : Field := ⟨.laneCtrl, 1, 1⟩
abbrev laneCtrlRestart : Field := ⟨.laneCtrl, 0, 1⟩
/-! LANE_STATE -/
abbrev laneStatePllLock : Field := ⟨.laneState, 34, 1⟩
abbrev laneStateClkLock : Field := ⟨.laneState, 33, 1⟩
abbrev laneStateClkLos : Field := ⟨.laneState, 32, 1⟩
abbrev laneStateLos : Field := ⟨.laneState, 28, 4⟩
abbrev laneStateFenced : Field := ⟨.laneState, 24, 4⟩
abbrev laneStateTrained : Field := ⟨.laneState, 20, 4⟩
abbrev laneStateInFrame : Field := ⟨.laneState, 16, 4⟩
abbrev laneStateBlockLock : Field := ⟨.laneState, 12, 4⟩
abbrev laneStateDownCause : Field := ⟨.laneState, 8, 3⟩
abbrev laneStateGen : Field := ⟨.laneState, 4, 2⟩
abbrev laneStateQstate : Field := ⟨.laneState, 0, 3⟩
/-! LANE_SKEW -/
abbrev laneSkewSkew3 : Field := ⟨.laneSkew, 48, 16⟩
abbrev laneSkewSkew2 : Field := ⟨.laneSkew, 32, 16⟩
abbrev laneSkewSkew1 : Field := ⟨.laneSkew, 16, 16⟩
abbrev laneSkewSkew0 : Field := ⟨.laneSkew, 0, 16⟩
/-! LANE_TXFIR_PRESET -/
abbrev laneTxfirPresetPost : Field := ⟨.laneTxfirPreset, 16, 5⟩
abbrev laneTxfirPresetMain : Field := ⟨.laneTxfirPreset, 8, 7⟩
abbrev laneTxfirPresetPre : Field := ⟨.laneTxfirPreset, 0, 5⟩
/-! LANE_TXFIR -/
abbrev laneTxfirPostBu : Field := ⟨.laneTxfir, 48, 5⟩
abbrev laneTxfirMainBu : Field := ⟨.laneTxfir, 40, 7⟩
abbrev laneTxfirPreBu : Field := ⟨.laneTxfir, 32, 5⟩
abbrev laneTxfirPost : Field := ⟨.laneTxfir, 16, 5⟩
abbrev laneTxfirMain : Field := ⟨.laneTxfir, 8, 7⟩
abbrev laneTxfirPre : Field := ⟨.laneTxfir, 0, 5⟩
/-! LANE_ADAPT_CFG -/
abbrev laneAdaptCfgSvcInterval : Field := ⟨.laneAdaptCfg, 8, 8⟩
abbrev laneAdaptCfgFence : Field := ⟨.laneAdaptCfg, 0, 4⟩
/-! LANE_PRBS_CTRL -/
abbrev lanePrbsCtrlRxLocked : Field := ⟨.lanePrbsCtrl, 16, 4⟩
abbrev lanePrbsCtrlInvert : Field := ⟨.lanePrbsCtrl, 12, 1⟩
abbrev lanePrbsCtrlRxPat : Field := ⟨.lanePrbsCtrl, 10, 2⟩
abbrev lanePrbsCtrlTxPat : Field := ⟨.lanePrbsCtrl, 8, 2⟩
abbrev lanePrbsCtrlRxEn : Field := ⟨.lanePrbsCtrl, 4, 4⟩
abbrev lanePrbsCtrlTxEn : Field := ⟨.lanePrbsCtrl, 0, 4⟩
/-! LANE_SCAN_CTRL -/
abbrev laneScanCtrlDwell : Field := ⟨.laneScanCtrl, 8, 6⟩
abbrev laneScanCtrlAbort : Field := ⟨.laneScanCtrl, 3, 1⟩
abbrev laneScanCtrlStart : Field := ⟨.laneScanCtrl, 2, 1⟩
abbrev laneScanCtrlLane : Field := ⟨.laneScanCtrl, 0, 2⟩
/-! LANE_SCAN_GRID -/
abbrev laneScanGridVStep : Field := ⟨.laneScanGrid, 40, 4⟩
abbrev laneScanGridVEnd : Field := ⟨.laneScanGrid, 32, 8⟩
abbrev laneScanGridVStart : Field := ⟨.laneScanGrid, 24, 8⟩
abbrev laneScanGridHStep : Field := ⟨.laneScanGrid, 16, 4⟩
abbrev laneScanGridHEnd : Field := ⟨.laneScanGrid, 8, 8⟩
abbrev laneScanGridHStart : Field := ⟨.laneScanGrid, 0, 8⟩
/-! LANE_SCAN_STATUS -/
abbrev laneScanStatusPoints : Field := ⟨.laneScanStatus, 16, 12⟩
abbrev laneScanStatusErr : Field := ⟨.laneScanStatus, 2, 3⟩
abbrev laneScanStatusDone : Field := ⟨.laneScanStatus, 1, 1⟩
abbrev laneScanStatusBusy : Field := ⟨.laneScanStatus, 0, 1⟩
/-! LINK_CTRL -/
abbrev linkCtrlForceRdi : Field := ⟨.linkCtrl, 16, 1⟩
abbrev linkCtrlUserSrc : Field := ⟨.linkCtrl, 8, 7⟩
abbrev linkCtrlUserMode : Field := ⟨.linkCtrl, 0, 2⟩
/-! LINK_STATE -/
abbrev linkStateRdiTx : Field := ⟨.linkState, 20, 1⟩
abbrev linkStateKindRx : Field := ⟨.linkState, 19, 1⟩
abbrev linkStateLastVerdict : Field := ⟨.linkState, 16, 3⟩
abbrev linkStateFaState : Field := ⟨.linkState, 13, 2⟩
abbrev linkStateUserNew : Field := ⟨.linkState, 10, 1⟩
abbrev linkStateMboxNew : Field := ⟨.linkState, 9, 1⟩
abbrev linkStateNeighbourChanged : Field := ⟨.linkState, 8, 1⟩
abbrev linkStateJustifyRange : Field := ⟨.linkState, 7, 1⟩
abbrev linkStateRdi : Field := ⟨.linkState, 6, 1⟩
abbrev linkStateDiscord : Field := ⟨.linkState, 5, 1⟩
abbrev linkStateBlockTypeErr : Field := ⟨.linkState, 4, 1⟩
abbrev linkStateLof : Field := ⟨.linkState, 3, 1⟩
abbrev linkStateOof : Field := ⟨.linkState, 2, 1⟩
abbrev linkStateLol : Field := ⟨.linkState, 1, 1⟩
abbrev linkStateLos : Field := ⟨.linkState, 0, 1⟩
/-! LINK_RX_TICK -/
abbrev linkRxTickValid : Field := ⟨.linkRxTick, 32, 1⟩
abbrev linkRxTickStamp : Field := ⟨.linkRxTick, 0, 32⟩
/-! LINK_RX_JUST -/
abbrev linkRxJustTxPhase : Field := ⟨.linkRxJust, 24, 20⟩
abbrev linkRxJustK : Field := ⟨.linkRxJust, 8, 8⟩
abbrev linkRxJustJc : Field := ⟨.linkRxJust, 0, 3⟩
/-! LINK_TX_JUST -/
abbrev linkTxJustPhi : Field := ⟨.linkTxJust, 32, 32⟩
abbrev linkTxJustK : Field := ⟨.linkTxJust, 8, 8⟩
abbrev linkTxJustJc : Field := ⟨.linkTxJust, 0, 3⟩
/-! LINK_IDENT_RX_SETID -/
abbrev linkIdentRxSetidSetid : Field := ⟨.linkIdentRxSetid, 0, 64⟩
/-! LINK_IDENT_RX_DIEID -/
abbrev linkIdentRxDieidDieid : Field := ⟨.linkIdentRxDieid, 0, 64⟩
/-! LINK_IDENT_RX_INFO -/
abbrev linkIdentRxInfoGen : Field := ⟨.linkIdentRxInfo, 55, 2⟩
abbrev linkIdentRxInfoRole : Field := ⟨.linkIdentRxInfo, 53, 2⟩
abbrev linkIdentRxInfoMateRank : Field := ⟨.linkIdentRxInfo, 52, 1⟩
abbrev linkIdentRxInfoArmed : Field := ⟨.linkIdentRxInfo, 51, 1⟩
abbrev linkIdentRxInfoKind : Field := ⟨.linkIdentRxInfo, 50, 1⟩
abbrev linkIdentRxInfoLink : Field := ⟨.linkIdentRxInfo, 43, 7⟩
abbrev linkIdentRxInfoDevice : Field := ⟨.linkIdentRxInfo, 32, 11⟩
abbrev linkIdentRxInfoEpoch : Field := ⟨.linkIdentRxInfo, 0, 32⟩
/-! LINK_IDENT_RX_ARMED -/
abbrev linkIdentRxArmedArmedEpoch : Field := ⟨.linkIdentRxArmed, 32, 32⟩
abbrev linkIdentRxArmedArmedTick : Field := ⟨.linkIdentRxArmed, 0, 32⟩
/-! LINK_MBOX_CTRL -/
abbrev linkMboxCtrlRxLen : Field := ⟨.linkMboxCtrl, 24, 8⟩
abbrev linkMboxCtrlRxSeq : Field := ⟨.linkMboxCtrl, 16, 8⟩
abbrev linkMboxCtrlTxLen : Field := ⟨.linkMboxCtrl, 8, 8⟩
abbrev linkMboxCtrlTxSeq : Field := ⟨.linkMboxCtrl, 0, 8⟩
/-! LINK_USER_CTRL -/
abbrev linkUserCtrlRxLen : Field := ⟨.linkUserCtrl, 24, 8⟩
abbrev linkUserCtrlRxSeq : Field := ⟨.linkUserCtrl, 16, 8⟩
abbrev linkUserCtrlTxLen : Field := ⟨.linkUserCtrl, 8, 8⟩
abbrev linkUserCtrlTxSeq : Field := ⟨.linkUserCtrl, 0, 8⟩
/-! LAG_STACK_CMD -/
abbrev lagStackCmdRestore : Field := ⟨.lagStackCmd, 4, 4⟩
abbrev lagStackCmdOff : Field := ⟨.lagStackCmd, 0, 4⟩
/-! LAG_STATE -/
abbrev lagStateRingPos : Field := ⟨.lagState, 32, 14⟩
abbrev lagStatePoolFree : Field := ⟨.lagState, 16, 12⟩
abbrev lagStateRestoring : Field := ⟨.lagState, 8, 4⟩
abbrev lagStateRestoreFail : Field := ⟨.lagState, 4, 4⟩
abbrev lagStateStackLost : Field := ⟨.lagState, 0, 4⟩
/-! LAG_STACK_CFG -/
abbrev lagStackCfgUeWindow : Field := ⟨.lagStackCfg, 8, 8⟩
abbrev lagStackCfgUeTicks : Field := ⟨.lagStackCfg, 0, 6⟩
/-! LAG_LINK_CFG -/
abbrev lagLinkCfgMarginMin : Field := ⟨.lagLinkCfg, 32, 32⟩
abbrev lagLinkCfgFbLag : Field := ⟨.lagLinkCfg, 20, 2⟩
abbrev lagLinkCfgMode : Field := ⟨.lagLinkCfg, 16, 2⟩
abbrev lagLinkCfgD : Field := ⟨.lagLinkCfg, 0, 14⟩
/-! LAG_ARR_LAST -/
abbrev lagArrLastF : Field := ⟨.lagArrLast, 32, 32⟩
abbrev lagArrLastA : Field := ⟨.lagArrLast, 0, 32⟩
/-! LAG_ARR_MAX -/
abbrev lagArrMaxValid : Field := ⟨.lagArrMax, 32, 1⟩
abbrev lagArrMaxAMax : Field := ⟨.lagArrMax, 0, 32⟩
/-! LAG_ARR_MIN -/
abbrev lagArrMinValid : Field := ⟨.lagArrMin, 32, 1⟩
abbrev lagArrMinAMin : Field := ⟨.lagArrMin, 0, 32⟩
/-! LAG_LINK_STATE -/
abbrev lagLinkStatePoolPages : Field := ⟨.lagLinkState, 24, 8⟩
abbrev lagLinkStateLastRelVerdict : Field := ⟨.lagLinkState, 16, 3⟩
abbrev lagLinkStateArrValid : Field := ⟨.lagLinkState, 8, 1⟩
abbrev lagLinkStateNopage : Field := ⟨.lagLinkState, 5, 1⟩
abbrev lagLinkStateFallback : Field := ⟨.lagLinkState, 4, 1⟩
abbrev lagLinkStateStampRange : Field := ⟨.lagLinkState, 3, 1⟩
abbrev lagLinkStateMargin : Field := ⟨.lagLinkState, 2, 1⟩
abbrev lagLinkStateLate : Field := ⟨.lagLinkState, 1, 1⟩
/-! PROT_GROUP_CFG -/
abbrev protGroupCfgSdThresh : Field := ⟨.protGroupCfg, 56, 8⟩
abbrev protGroupCfgWtr : Field := ⟨.protGroupCfg, 40, 16⟩
abbrev protGroupCfgHoldoff : Field := ⟨.protGroupCfg, 32, 8⟩
abbrev protGroupCfgFarTarget : Field := ⟨.protGroupCfg, 30, 1⟩
abbrev protGroupCfgFarIndex : Field := ⟨.protGroupCfg, 24, 6⟩
abbrev protGroupCfgReport : Field := ⟨.protGroupCfg, 18, 1⟩
abbrev protGroupCfgRevertive : Field := ⟨.protGroupCfg, 17, 1⟩
abbrev protGroupCfgEn : Field := ⟨.protGroupCfg, 16, 1⟩
abbrev protGroupCfgSLink : Field := ⟨.protGroupCfg, 8, 7⟩
abbrev protGroupCfgPLink : Field := ⟨.protGroupCfg, 0, 7⟩
/-! PROT_GROUP_CMD -/
abbrev protGroupCmdLastResult : Field := ⟨.protGroupCmd, 8, 3⟩
abbrev protGroupCmdCmd : Field := ⟨.protGroupCmd, 0, 3⟩
/-! PROT_GROUP_STATE -/
abbrev protGroupStateWtrLeft : Field := ⟨.protGroupState, 48, 16⟩
abbrev protGroupStateGstate : Field := ⟨.protGroupState, 16, 4⟩
abbrev protGroupStateMisaligned : Field := ⟨.protGroupState, 12, 1⟩
abbrev protGroupStateWtrRun : Field := ⟨.protGroupState, 11, 1⟩
abbrev protGroupStateSSd : Field := ⟨.protGroupState, 10, 1⟩
abbrev protGroupStatePSd : Field := ⟨.protGroupState, 9, 1⟩
abbrev protGroupStateSSf : Field := ⟨.protGroupState, 8, 1⟩
abbrev protGroupStatePSf : Field := ⟨.protGroupState, 7, 1⟩
abbrev protGroupStateSVerdict : Field := ⟨.protGroupState, 4, 2⟩
abbrev protGroupStatePVerdict : Field := ⟨.protGroupState, 2, 2⟩
abbrev protGroupStateSel : Field := ⟨.protGroupState, 0, 1⟩
/-! PROT_BRIDGE_CFG -/
abbrev protBridgeCfgFarTarget : Field := ⟨.protBridgeCfg, 30, 1⟩
abbrev protBridgeCfgFarIndex : Field := ⟨.protBridgeCfg, 24, 6⟩
abbrev protBridgeCfgReport : Field := ⟨.protBridgeCfg, 18, 1⟩
abbrev protBridgeCfgEn : Field := ⟨.protBridgeCfg, 16, 1⟩
abbrev protBridgeCfgCopyLink : Field := ⟨.protBridgeCfg, 8, 7⟩
abbrev protBridgeCfgSrcLink : Field := ⟨.protBridgeCfg, 0, 7⟩
/-! PROT_RX_GROUP -/
abbrev protRxGroupCrossed1 : Field := ⟨.protRxGroup, 25, 1⟩
abbrev protRxGroupFresh1 : Field := ⟨.protRxGroup, 24, 1⟩
abbrev protRxGroupParam1 : Field := ⟨.protRxGroup, 20, 4⟩
abbrev protRxGroupCode1 : Field := ⟨.protRxGroup, 16, 4⟩
abbrev protRxGroupCrossed0 : Field := ⟨.protRxGroup, 9, 1⟩
abbrev protRxGroupFresh0 : Field := ⟨.protRxGroup, 8, 1⟩
abbrev protRxGroupParam0 : Field := ⟨.protRxGroup, 4, 4⟩
abbrev protRxGroupCode0 : Field := ⟨.protRxGroup, 0, 4⟩
/-! PROT_RX_BRIDGE -/
abbrev protRxBridgeCrossed1 : Field := ⟨.protRxBridge, 25, 1⟩
abbrev protRxBridgeFresh1 : Field := ⟨.protRxBridge, 24, 1⟩
abbrev protRxBridgeParam1 : Field := ⟨.protRxBridge, 20, 4⟩
abbrev protRxBridgeCode1 : Field := ⟨.protRxBridge, 16, 4⟩
abbrev protRxBridgeCrossed0 : Field := ⟨.protRxBridge, 9, 1⟩
abbrev protRxBridgeFresh0 : Field := ⟨.protRxBridge, 8, 1⟩
abbrev protRxBridgeParam0 : Field := ⟨.protRxBridge, 4, 4⟩
abbrev protRxBridgeCode0 : Field := ⟨.protRxBridge, 0, 4⟩
/-! CORE_STATUS -/
abbrev coreStatusOvrSlot : Field := ⟨.coreStatus, 32, 14⟩
abbrev coreStatusOvrStation : Field := ⟨.coreStatus, 16, 7⟩
abbrev coreStatusPostClash : Field := ⟨.coreStatus, 4, 1⟩
abbrev coreStatusClash : Field := ⟨.coreStatus, 3, 1⟩
abbrev coreStatusOverrun : Field := ⟨.coreStatus, 2, 1⟩
abbrev coreStatusRun : Field := ⟨.coreStatus, 0, 1⟩
/-! CORE_STATION_DIS -/
abbrev coreStationDisDis : Field := ⟨.coreStationDis, 0, 64⟩
/-! CORE_SUM_COUNT -/
abbrev coreSumCountCount : Field := ⟨.coreSumCount, 0, 16⟩
/-! CORE_SLACK -/
abbrev coreSlackValid : Field := ⟨.coreSlack, 32, 1⟩
abbrev coreSlackMinSlack : Field := ⟨.coreSlack, 0, 32⟩
/-! CORE_TAP_CTRL -/
abbrev coreTapCtrlEn : Field := ⟨.coreTapCtrl, 24, 1⟩
abbrev coreTapCtrlSrc : Field := ⟨.coreTapCtrl, 0, 22⟩
/-! CORE_TAP_DATA -/
abbrev coreTapDataValid : Field := ⟨.coreTapData, 32, 1⟩
abbrev coreTapDataSlot : Field := ⟨.coreTapData, 0, 32⟩
/-! CORE_TAP_TICK -/
abbrev coreTapTickTick : Field := ⟨.coreTapTick, 0, 32⟩
/-! ALM_STATE -/
abbrev almStateMissed : Field := ⟨.almState, 25, 1⟩
abbrev almStateAuditClean : Field := ⟨.almState, 24, 1⟩
abbrev almStateConcordant : Field := ⟨.almState, 23, 1⟩
abbrev almStateChained : Field := ⟨.almState, 22, 1⟩
abbrev almStateCheckBusy : Field := ⟨.almState, 21, 1⟩
abbrev almStateActiveValid : Field := ⟨.almState, 20, 1⟩
abbrev almStateActiveSlot : Field := ⟨.almState, 16, 4⟩
abbrev almStateShadowSlot : Field := ⟨.almState, 12, 4⟩
abbrev almStateShadow : Field := ⟨.almState, 8, 3⟩
abbrev almStateEstate : Field := ⟨.almState, 0, 3⟩
/-! ALM_ACTIVE_SETID -/
abbrev almActiveSetidSetid : Field := ⟨.almActiveSetid, 0, 64⟩
/-! ALM_ACTIVE_INFO -/
abbrev almActiveInfoVersion : Field := ⟨.almActiveInfo, 48, 2⟩
abbrev almActiveInfoDevice : Field := ⟨.almActiveInfo, 32, 11⟩
abbrev almActiveInfoEpoch : Field := ⟨.almActiveInfo, 0, 32⟩
/-! ALM_SLOT_CMD -/
abbrev almSlotCmdOp : Field := ⟨.almSlotCmd, 8, 2⟩
abbrev almSlotCmdSlot : Field := ⟨.almSlotCmd, 0, 4⟩
/-! ALM_SLOT_STATUS -/
abbrev almSlotStatusDetail : Field := ⟨.almSlotStatus, 32, 32⟩
abbrev almSlotStatusReason : Field := ⟨.almSlotStatus, 8, 4⟩
abbrev almSlotStatusWritten : Field := ⟨.almSlotStatus, 3, 1⟩
abbrev almSlotStatusSstate : Field := ⟨.almSlotStatus, 0, 3⟩
/-! ALM_ARM -/
abbrev almArmTick : Field := ⟨.almArm, 0, 32⟩
/-! ALM_ARM_CMD -/
abbrev almArmCmdResult : Field := ⟨.almArmCmd, 8, 4⟩
abbrev almArmCmdOp : Field := ⟨.almArmCmd, 0, 2⟩
/-! ALM_ARMED -/
abbrev almArmedArmedEpoch : Field := ⟨.almArmed, 32, 32⟩
abbrev almArmedArmedTick : Field := ⟨.almArmed, 0, 32⟩
/-! ALM_TRIM_CMD -/
abbrev almTrimCmdGo : Field := ⟨.almTrimCmd, 63, 1⟩
abbrev almTrimCmdKind : Field := ⟨.almTrimCmd, 48, 1⟩
abbrev almTrimCmdIndex : Field := ⟨.almTrimCmd, 24, 21⟩
abbrev almTrimCmdGain : Field := ⟨.almTrimCmd, 0, 12⟩
/-! ALM_TRIM_STATUS -/
abbrev almTrimStatusTick : Field := ⟨.almTrimStatus, 32, 32⟩
abbrev almTrimStatusResult : Field := ⟨.almTrimStatus, 8, 3⟩
abbrev almTrimStatusQueue : Field := ⟨.almTrimStatus, 0, 5⟩
/-! ALM_AUDIT_CTRL -/
abbrev almAuditCtrlEn : Field := ⟨.almAuditCtrl, 0, 1⟩
/-! ALM_AUDIT_STATUS -/
abbrev almAuditStatusHeld : Field := ⟨.almAuditStatus, 16, 1⟩
abbrev almAuditStatusRegion : Field := ⟨.almAuditStatus, 0, 8⟩
/-! ALM_VOUCHED -/
abbrev almVouchedV : Field := ⟨.almVouched, 0, 64⟩
/-! ALM_ARM_DIS -/
abbrev almArmDisD : Field := ⟨.almArmDis, 0, 64⟩
/-! TIM_STATE -/
abbrev timStateHops : Field := ⟨.timState, 16, 8⟩
abbrev timStateSkew : Field := ⟨.timState, 14, 1⟩
abbrev timStateMismatch : Field := ⟨.timState, 13, 1⟩
abbrev timStateDcoLimit : Field := ⟨.timState, 12, 1⟩
abbrev timStateForced : Field := ⟨.timState, 11, 1⟩
abbrev timStateDispute : Field := ⟨.timState, 10, 1⟩
abbrev timStateHistValid : Field := ⟨.timState, 9, 1⟩
abbrev timStateNumbered : Field := ⟨.timState, 8, 1⟩
abbrev timStateSelected : Field := ⟨.timState, 4, 4⟩
abbrev timStateTstate : Field := ⟨.timState, 0, 3⟩
/-! TIM_TICK -/
abbrev timTickTick : Field := ⟨.timTick, 0, 32⟩
/-! TIM_CFG -/
abbrev timCfgRamp : Field := ⟨.timCfg, 40, 8⟩
abbrev timCfgFreqLimit : Field := ⟨.timCfg, 32, 8⟩
abbrev timCfgDisagree : Field := ⟨.timCfg, 16, 16⟩
abbrev timCfgWtr : Field := ⟨.timCfg, 8, 8⟩
abbrev timCfgRevertive : Field := ⟨.timCfg, 1, 1⟩
abbrev timCfgMode : Field := ⟨.timCfg, 0, 1⟩
/-! TIM_SLOPE -/
abbrev timSlopeAdoptSlope : Field := ⟨.timSlope, 32, 32⟩
abbrev timSlopeSlope : Field := ⟨.timSlope, 0, 32⟩
/-! TIM_ADOPT_CFG -/
abbrev timAdoptCfgSkewLimit : Field := ⟨.timAdoptCfg, 56, 8⟩
abbrev timAdoptCfgAdoptWait : Field := ⟨.timAdoptCfg, 48, 8⟩
abbrev timAdoptCfgExchInterval : Field := ⟨.timAdoptCfg, 32, 16⟩
abbrev timAdoptCfgAsym : Field := ⟨.timAdoptCfg, 16, 16⟩
abbrev timAdoptCfgOrigin : Field := ⟨.timAdoptCfg, 9, 1⟩
abbrev timAdoptCfgEn : Field := ⟨.timAdoptCfg, 8, 1⟩
abbrev timAdoptCfgAdoptLink : Field := ⟨.timAdoptCfg, 0, 7⟩
/-! TIM_REF_CFG -/
abbrev timRefCfgDelay : Field := ⟨.timRefCfg, 32, 32⟩
abbrev timRefCfgBw : Field := ⟨.timRefCfg, 16, 16⟩
abbrev timRefCfgLink : Field := ⟨.timRefCfg, 8, 7⟩
abbrev timRefCfgRank : Field := ⟨.timRefCfg, 4, 4⟩
abbrev timRefCfgDelayMode : Field := ⟨.timRefCfg, 3, 1⟩
abbrev timRefCfgType : Field := ⟨.timRefCfg, 0, 3⟩
/-! TIM_REF_STATE -/
abbrev timRefStateFreq : Field := ⟨.timRefState, 32, 32⟩
abbrev timRefStateDqCause : Field := ⟨.timRefState, 4, 4⟩
abbrev timRefStateDisputed : Field := ⟨.timRefState, 2, 1⟩
abbrev timRefStateRestoring : Field := ⟨.timRefState, 1, 1⟩
abbrev timRefStateQualified : Field := ⟨.timRefState, 0, 1⟩
/-! TIM_PHASE -/
abbrev timPhasePhaseErr : Field := ⟨.timPhase, 0, 32⟩
/-! TIM_DCO -/
abbrev timDcoHostLocked : Field := ⟨.timDco, 32, 1⟩
abbrev timDcoOffset : Field := ⟨.timDco, 0, 32⟩
/-! TIM_HOLD -/
abbrev timHoldSecs : Field := ⟨.timHold, 32, 11⟩
abbrev timHoldValue : Field := ⟨.timHold, 0, 32⟩
/-! TIM_CMD -/
abbrev timCmdOp : Field := ⟨.timCmd, 4, 3⟩
abbrev timCmdRef : Field := ⟨.timCmd, 0, 4⟩
/-! TIM_ADOPT_STATUS -/
abbrev timAdoptStatusD : Field := ⟨.timAdoptStatus, 32, 32⟩
abbrev timAdoptStatusPsi : Field := ⟨.timAdoptStatus, 0, 32⟩
/-! TIM_ADOPT_NUM -/
abbrev timAdoptNumId : Field := ⟨.timAdoptNum, 32, 8⟩
abbrev timAdoptNumNum : Field := ⟨.timAdoptNum, 0, 32⟩
/-! TIM_OUT_CFG -/
abbrev timOutCfgOffset : Field := ⟨.timOutCfg, 32, 18⟩
abbrev timOutCfgSel : Field := ⟨.timOutCfg, 0, 4⟩
/-! MATE_CFG -/
abbrev mateCfgJoinWait : Field := ⟨.mateCfg, 16, 8⟩
abbrev mateCfgVigilMode : Field := ⟨.mateCfg, 8, 1⟩
abbrev mateCfgEn : Field := ⟨.mateCfg, 0, 1⟩
/-! MATE_STATE -/
abbrev mateStateActiveSince : Field := ⟨.mateState, 32, 32⟩
abbrev mateStateDiscNew : Field := ⟨.mateState, 16, 1⟩
abbrev mateStateDiscCause : Field := ⟨.mateState, 13, 3⟩
abbrev mateStateMateHbSeen : Field := ⟨.mateState, 12, 1⟩
abbrev mateStateMateRole : Field := ⟨.mateState, 10, 2⟩
abbrev mateStateHbOk : Field := ⟨.mateState, 9, 1⟩
abbrev mateStateLinkUp : Field := ⟨.mateState, 8, 1⟩
abbrev mateStateJoined : Field := ⟨.mateState, 7, 1⟩
abbrev mateStateWithheld : Field := ⟨.mateState, 6, 1⟩
abbrev mateStateSync : Field := ⟨.mateState, 4, 2⟩
abbrev mateStateRank : Field := ⟨.mateState, 2, 1⟩
abbrev mateStateRole : Field := ⟨.mateState, 0, 2⟩
/-! MATE_CMD -/
abbrev mateCmdResult : Field := ⟨.mateCmd, 8, 3⟩
abbrev mateCmdOp : Field := ⟨.mateCmd, 0, 3⟩
/-! MATE_RESYNC -/
abbrev mateResyncTotal : Field := ⟨.mateResync, 32, 32⟩
abbrev mateResyncDone : Field := ⟨.mateResync, 0, 32⟩
/-! MATE_WATCH_LOST -/
abbrev mateWatchLostW : Field := ⟨.mateWatchLost, 0, 64⟩
/-! MATE_WATCH -/
abbrev mateWatchBit : Field := ⟨.mateWatch, 17, 1⟩
abbrev mateWatchEn : Field := ⟨.mateWatch, 16, 1⟩
abbrev mateWatchTarget : Field := ⟨.mateWatch, 14, 1⟩
abbrev mateWatchIndex : Field := ⟨.mateWatch, 8, 6⟩
abbrev mateWatchLink : Field := ⟨.mateWatch, 0, 7⟩
/-! ECC_STATUS -/
abbrev eccStatusTrimLost : Field := ⟨.eccStatus, 5, 1⟩
abbrev eccStatusPersist : Field := ⟨.eccStatus, 4, 1⟩
abbrev eccStatusTrackFull : Field := ⟨.eccStatus, 3, 1⟩
abbrev eccStatusTestFail : Field := ⟨.eccStatus, 2, 1⟩
abbrev eccStatusHard : Field := ⟨.eccStatus, 1, 1⟩
abbrev eccStatusUe : Field := ⟨.eccStatus, 0, 1⟩
/-! ECC_LAST_UE -/
abbrev eccLastUeTick : Field := ⟨.eccLastUe, 32, 32⟩
abbrev eccLastUeAddr : Field := ⟨.eccLastUe, 0, 32⟩
/-! ECC_TRACK_CFG -/
abbrev eccTrackCfgThreshold : Field := ⟨.eccTrackCfg, 0, 8⟩
/-! ECC_TEST_CFG -/
abbrev eccTestCfgInterval : Field := ⟨.eccTestCfg, 32, 32⟩
abbrev eccTestCfgNow : Field := ⟨.eccTestCfg, 1, 1⟩
abbrev eccTestCfgEn : Field := ⟨.eccTestCfg, 0, 1⟩
/-! ECC_TEST_STATUS -/
abbrev eccTestStatusStep : Field := ⟨.eccTestStatus, 40, 24⟩
abbrev eccTestStatusBusy : Field := ⟨.eccTestStatus, 32, 1⟩
abbrev eccTestStatusLastFail : Field := ⟨.eccTestStatus, 0, 32⟩
/-! ECC_SCRUB_CMD -/
abbrev eccScrubCmdAbort : Field := ⟨.eccScrubCmd, 33, 1⟩
abbrev eccScrubCmdStart : Field := ⟨.eccScrubCmd, 32, 1⟩
abbrev eccScrubCmdMode : Field := ⟨.eccScrubCmd, 25, 1⟩
abbrev eccScrubCmdBankCount : Field := ⟨.eccScrubCmd, 14, 11⟩
abbrev eccScrubCmdBankFirst : Field := ⟨.eccScrubCmd, 4, 10⟩
abbrev eccScrubCmdMem : Field := ⟨.eccScrubCmd, 0, 4⟩
/-! ECC_SCRUB_STATUS -/
abbrev eccScrubStatusListed : Field := ⟨.eccScrubStatus, 8, 8⟩
abbrev eccScrubStatusErr : Field := ⟨.eccScrubStatus, 2, 3⟩
abbrev eccScrubStatusDone : Field := ⟨.eccScrubStatus, 1, 1⟩
abbrev eccScrubStatusBusy : Field := ⟨.eccScrubStatus, 0, 1⟩
/-! ECC_SCRUB_SUM -/
abbrev eccScrubSumValue : Field := ⟨.eccScrubSum, 0, 64⟩
/-! ECC_SCRUB_UE -/
abbrev eccScrubUeTick : Field := ⟨.eccScrubUe, 32, 32⟩
abbrev eccScrubUeAddr : Field := ⟨.eccScrubUe, 0, 32⟩
/-! ECC_TRACK -/
abbrev eccTrackBit : Field := ⟨.eccTrack, 42, 7⟩
abbrev eccTrackState : Field := ⟨.eccTrack, 40, 2⟩
abbrev eccTrackCount : Field := ⟨.eccTrack, 32, 8⟩
abbrev eccTrackAddr : Field := ⟨.eccTrack, 0, 32⟩
/-! ECC_FUSE_CMD -/
abbrev eccFuseCmdBurn : Field := ⟨.eccFuseCmd, 32, 1⟩
abbrev eccFuseCmdEntry : Field := ⟨.eccFuseCmd, 0, 32⟩
/-! ECC_FUSE_STATUS -/
abbrev eccFuseStatusFieldUsed : Field := ⟨.eccFuseStatus, 16, 11⟩
abbrev eccFuseStatusResult : Field := ⟨.eccFuseStatus, 1, 3⟩
abbrev eccFuseStatusBusy : Field := ⟨.eccFuseStatus, 0, 1⟩
/-! ECC_SOFT -/
abbrev eccSoftValid : Field := ⟨.eccSoft, 32, 1⟩
abbrev eccSoftEntry : Field := ⟨.eccSoft, 0, 32⟩
/-! HBM_REPAIR_CMD -/
abbrev hbmRepairCmdGo : Field := ⟨.hbmRepairCmd, 8, 1⟩
abbrev hbmRepairCmdCand : Field := ⟨.hbmRepairCmd, 0, 5⟩
/-! HBM_REPAIR_STATUS -/
abbrev hbmRepairStatusResult : Field := ⟨.hbmRepairStatus, 1, 3⟩
abbrev hbmRepairStatusBusy : Field := ⟨.hbmRepairStatus, 0, 1⟩
/-! HBM_CAND -/
abbrev hbmCandTick : Field := ⟨.hbmCand, 32, 32⟩
abbrev hbmCandValid : Field := ⟨.hbmCand, 31, 1⟩
abbrev hbmCandRepaired : Field := ⟨.hbmCand, 30, 1⟩
abbrev hbmCandRow : Field := ⟨.hbmCand, 13, 17⟩
abbrev hbmCandBank : Field := ⟨.hbmCand, 9, 4⟩
abbrev hbmCandSid : Field := ⟨.hbmCand, 7, 2⟩
abbrev hbmCandPc : Field := ⟨.hbmCand, 2, 5⟩
abbrev hbmCandStack : Field := ⟨.hbmCand, 0, 2⟩
/-! BUS_STATUS -/
abbrev busStatusPeerResetBl : Field := ⟨.busStatus, 9, 1⟩
abbrev busStatusPeerResetB : Field := ⟨.busStatus, 8, 1⟩
abbrev busStatusPeerResetA : Field := ⟨.busStatus, 7, 1⟩
abbrev busStatusSem0Holder : Field := ⟨.busStatus, 3, 2⟩
abbrev busStatusRecSem0 : Field := ⟨.busStatus, 2, 1⟩
abbrev busStatusRecFatal : Field := ⟨.busStatus, 1, 1⟩
abbrev busStatusExpert : Field := ⟨.busStatus, 0, 1⟩
/-! BUS_BAR2_BASE -/
abbrev busBar2BaseBase : Field := ⟨.busBar2Base, 0, 5⟩
/-! BUS_PRIO -/
abbrev busPrioAge : Field := ⟨.busPrio, 24, 8⟩
abbrev busPrioLvlLogger : Field := ⟨.busPrio, 8, 2⟩
abbrev busPrioLvlTest : Field := ⟨.busPrio, 6, 2⟩
abbrev busPrioLvlBoot : Field := ⟨.busPrio, 4, 2⟩
abbrev busPrioLvlB : Field := ⟨.busPrio, 2, 2⟩
abbrev busPrioLvlA : Field := ⟨.busPrio, 0, 2⟩
/-! BUS_COLL_CFG -/
abbrev busCollCfgWindow : Field := ⟨.busCollCfg, 0, 16⟩
/-! BUS_ERR_LAST -/
abbrev busErrLastValid : Field := ⟨.busErrLast, 63, 1⟩
abbrev busErrLastCause : Field := ⟨.busErrLast, 48, 4⟩
abbrev busErrLastWrite : Field := ⟨.busErrLast, 40, 1⟩
abbrev busErrLastAddr : Field := ⟨.busErrLast, 0, 40⟩
/-! BUS_COLL_LAST -/
abbrev busCollLastFirst : Field := ⟨.busCollLast, 48, 3⟩
abbrev busCollLastSecond : Field := ⟨.busCollLast, 44, 3⟩
abbrev busCollLastAddr : Field := ⟨.busCollLast, 0, 40⟩
/-! BUS_SCR_OWN -/
abbrev busScrOwnGiveTo : Field := ⟨.busScrOwn, 16, 3⟩
abbrev busScrOwnOp : Field := ⟨.busScrOwn, 12, 2⟩
abbrev busScrOwnOwner : Field := ⟨.busScrOwn, 4, 3⟩
abbrev busScrOwnState : Field := ⟨.busScrOwn, 0, 2⟩
/-! BUS_DB_PEND -/
abbrev busDbPendPend : Field := ⟨.busDbPend, 0, 16⟩
/-! SYS_BOOT_STATUS -/
abbrev sysBootStatusActTick : Field := ⟨.sysBootStatus, 32, 32⟩
abbrev sysBootStatusFail : Field := ⟨.sysBootStatus, 24, 4⟩
abbrev sysBootStatusStep : Field := ⟨.sysBootStatus, 16, 8⟩
abbrev sysBootStatusBValid : Field := ⟨.sysBootStatus, 12, 1⟩
abbrev sysBootStatusAValid : Field := ⟨.sysBootStatus, 11, 1⟩
abbrev sysBootStatusFallback : Field := ⟨.sysBootStatus, 10, 1⟩
abbrev sysBootStatusImage : Field := ⟨.sysBootStatus, 8, 2⟩
abbrev sysBootStatusImageSel : Field := ⟨.sysBootStatus, 5, 1⟩
abbrev sysBootStatusMode : Field := ⟨.sysBootStatus, 3, 2⟩
abbrev sysBootStatusPhase : Field := ⟨.sysBootStatus, 0, 3⟩
/-! SYS_BOOT_CMD -/
abbrev sysBootCmdRun : Field := ⟨.sysBootCmd, 0, 1⟩
/-! SYS_BIST_STATUS -/
abbrev sysBistStatusFailedBanks : Field := ⟨.sysBistStatus, 48, 16⟩
abbrev sysBistStatusOtherLogic : Field := ⟨.sysBistStatus, 33, 1⟩
abbrev sysBistStatusSumUnit : Field := ⟨.sysBistStatus, 32, 1⟩
abbrev sysBistStatusFirstBank : Field := ⟨.sysBistStatus, 0, 32⟩
/-! SYS_FUNC_STATE -/
abbrev sysFuncStateSince : Field := ⟨.sysFuncState, 32, 32⟩
abbrev sysFuncStateLastStop : Field := ⟨.sysFuncState, 8, 2⟩
abbrev sysFuncStateEnable : Field := ⟨.sysFuncState, 4, 1⟩
abbrev sysFuncStateStopReq : Field := ⟨.sysFuncState, 3, 1⟩
abbrev sysFuncStatePending : Field := ⟨.sysFuncState, 2, 1⟩
abbrev sysFuncStateState : Field := ⟨.sysFuncState, 0, 2⟩
/-! NVM_INFO -/
abbrev nvmInfoSizeMib : Field := ⟨.nvmInfo, 32, 16⟩
abbrev nvmInfoReady : Field := ⟨.nvmInfo, 0, 1⟩
/-! NVM_CMD -/
abbrev nvmCmdOp : Field := ⟨.nvmCmd, 48, 2⟩
abbrev nvmCmdLen : Field := ⟨.nvmCmd, 32, 13⟩
abbrev nvmCmdAddr : Field := ⟨.nvmCmd, 0, 28⟩
/-! NVM_STATUS -/
abbrev nvmStatusResult : Field := ⟨.nvmStatus, 1, 3⟩
abbrev nvmStatusBusy : Field := ⟨.nvmStatus, 0, 1⟩
/-! PM_CTRL -/
abbrev pmCtrlSnapTick : Field := ⟨.pmCtrl, 32, 32⟩
abbrev pmCtrlSnapArm : Field := ⟨.pmCtrl, 2, 1⟩
abbrev pmCtrlSnap : Field := ⟨.pmCtrl, 1, 1⟩
abbrev pmCtrlAuto : Field := ⟨.pmCtrl, 0, 1⟩
/-! PM_SNAP_STATUS -/
abbrev pmSnapStatusTick : Field := ⟨.pmSnapStatus, 32, 32⟩
abbrev pmSnapStatusSeq : Field := ⟨.pmSnapStatus, 0, 32⟩
/-! PM_BW_CFG -/
abbrev pmBwCfgWindow : Field := ⟨.pmBwCfg, 0, 16⟩
/-! PM_BW_LAST -/
abbrev pmBwLastEndTick : Field := ⟨.pmBwLast, 32, 32⟩
abbrev pmBwLastLength : Field := ⟨.pmBwLast, 16, 16⟩
abbrev pmBwLastSeq : Field := ⟨.pmBwLast, 0, 16⟩
/-! PM_LINK_STATE -/
abbrev pmLinkStateFeErrTicks : Field := ⟨.pmLinkState, 48, 16⟩
abbrev pmLinkStateErrTicks : Field := ⟨.pmLinkState, 32, 16⟩
abbrev pmLinkStateFeSesRun : Field := ⟨.pmLinkState, 20, 4⟩
abbrev pmLinkStateFeOkRun : Field := ⟨.pmLinkState, 16, 4⟩
abbrev pmLinkStateSesRun : Field := ⟨.pmLinkState, 12, 4⟩
abbrev pmLinkStateOkRun : Field := ⟨.pmLinkState, 8, 4⟩
abbrev pmLinkStateFeUnavail : Field := ⟨.pmLinkState, 1, 1⟩
abbrev pmLinkStateUnavail : Field := ⟨.pmLinkState, 0, 1⟩
/-! PM_GROUP_STATE -/
abbrev pmGroupStateErrTicks : Field := ⟨.pmGroupState, 32, 16⟩
abbrev pmGroupStateSesRun : Field := ⟨.pmGroupState, 12, 4⟩
abbrev pmGroupStateOkRun : Field := ⟨.pmGroupState, 8, 4⟩
abbrev pmGroupStateUnavail : Field := ⟨.pmGroupState, 0, 1⟩
/-! PM_MATE_STATE -/
abbrev pmMateStateErrTicks : Field := ⟨.pmMateState, 32, 16⟩
abbrev pmMateStateSesRun : Field := ⟨.pmMateState, 12, 4⟩
abbrev pmMateStateOkRun : Field := ⟨.pmMateState, 8, 4⟩
abbrev pmMateStateUnavail : Field := ⟨.pmMateState, 0, 1⟩
/-! PM_BW_LINK_IN -/
abbrev pmBwLinkInValue : Field := ⟨.pmBwLinkIn, 0, 48⟩
/-! PM_BW_LINK_OUT -/
abbrev pmBwLinkOutValue : Field := ⟨.pmBwLinkOut, 0, 48⟩
/-! PM_BW_HOST_WR -/
abbrev pmBwHostWrValue : Field := ⟨.pmBwHostWr, 0, 48⟩
/-! PM_BW_HOST_RD -/
abbrev pmBwHostRdValue : Field := ⟨.pmBwHostRd, 0, 48⟩
/-! PM_BW_HOST_REQ -/
abbrev pmBwHostReqValue : Field := ⟨.pmBwHostReq, 0, 48⟩
/-! PM_BW_HBM_WR -/
abbrev pmBwHbmWrValue : Field := ⟨.pmBwHbmWr, 0, 48⟩
/-! PM_BW_HBM_RD -/
abbrev pmBwHbmRdValue : Field := ⟨.pmBwHbmRd, 0, 48⟩
/-! PM_BW_HBM_PEAK -/
abbrev pmBwHbmPeakValue : Field := ⟨.pmBwHbmPeak, 0, 48⟩
/-! PM_BW_BUS_BEATS -/
abbrev pmBwBusBeatsValue : Field := ⟨.pmBwBusBeats, 0, 48⟩
/-! PM_BW_BUS_WAIT -/
abbrev pmBwBusWaitValue : Field := ⟨.pmBwBusWait, 0, 48⟩
/-! LOG_CTRL -/
abbrev logCtrlFlush : Field := ⟨.logCtrl, 0, 1⟩
/-! LOG_STATE -/
abbrev logStateRseq : Field := ⟨.logState, 32, 32⟩
abbrev logStateNextPos : Field := ⟨.logState, 16, 8⟩
abbrev logStateStaged : Field := ⟨.logState, 8, 8⟩
abbrev logStateEvbStack : Field := ⟨.logState, 5, 2⟩
abbrev logStateEvbValid : Field := ⟨.logState, 4, 1⟩
abbrev logStateHistoryBroken : Field := ⟨.logState, 3, 1⟩
abbrev logStateFirst : Field := ⟨.logState, 2, 1⟩
abbrev logStateStoring : Field := ⟨.logState, 1, 1⟩
abbrev logStateReady : Field := ⟨.logState, 0, 1⟩
/-! LOG_EVB_BASE -/
abbrev logEvbBaseBase : Field := ⟨.logEvbBase, 0, 64⟩
/-! SYS_ID -/
abbrev sysIdDeviceId : Field := ⟨.sysId, 48, 16⟩
abbrev sysIdVendorId : Field := ⟨.sysId, 32, 16⟩
abbrev sysIdStepping : Field := ⟨.sysId, 16, 8⟩
abbrev sysIdPart : Field := ⟨.sysId, 0, 16⟩
/-! SYS_PCI_ID -/
abbrev sysPciIdClass : Field := ⟨.sysPciId, 40, 24⟩
abbrev sysPciIdRevision : Field := ⟨.sysPciId, 32, 8⟩
abbrev sysPciIdSubsysId : Field := ⟨.sysPciId, 16, 16⟩
abbrev sysPciIdSubsysVendor : Field := ⟨.sysPciId, 0, 16⟩
/-! SYS_CTRL -/
abbrev sysCtrlRemap : Field := ⟨.sysCtrl, 0, 1⟩
/-! SYS_TEMP -/
abbrev sysTempValid : Field := ⟨.sysTemp, 48, 1⟩
abbrev sysTempTjMax : Field := ⟨.sysTemp, 32, 16⟩
abbrev sysTempTj : Field := ⟨.sysTemp, 0, 16⟩
/-! SYS_TEMP_CFG -/
abbrev sysTempCfgLimit : Field := ⟨.sysTempCfg, 0, 16⟩
/-! HBM_CFG -/
abbrev hbmCfgRate : Field := ⟨.hbmCfg, 0, 1⟩
/-! HBM_STATE -/
abbrev hbmStateInitDone : Field := ⟨.hbmState, 4, 4⟩
abbrev hbmStateAt8g : Field := ⟨.hbmState, 0, 4⟩
/-! SYS_ALM_SUMMARY -/
abbrev sysAlmSummaryFatal : Field := ⟨.sysAlmSummary, 49, 1⟩
abbrev sysAlmSummaryAlarmNLow : Field := ⟨.sysAlmSummary, 48, 1⟩
abbrev sysAlmSummaryLatched : Field := ⟨.sysAlmSummary, 32, 15⟩
abbrev sysAlmSummaryActive : Field := ⟨.sysAlmSummary, 0, 15⟩
/-! SYS_ALARM_MASK -/
abbrev sysAlarmMaskMask : Field := ⟨.sysAlarmMask, 0, 15⟩
/-! SYS_INT_EN -/
abbrev sysIntEnEn : Field := ⟨.sysIntEn, 1, 11⟩
abbrev sysIntEnEn0 : Field := ⟨.sysIntEn, 0, 1⟩
/-! SYS_INT_BLK -/
abbrev sysIntBlkBlk : Field := ⟨.sysIntBlk, 0, 15⟩
/-! SYS_INT_SRC -/
abbrev sysIntSrcEvb : Field := ⟨.sysIntSrc, 11, 1⟩
abbrev sysIntSrcBwWindow : Field := ⟨.sysIntSrc, 10, 1⟩
abbrev sysIntSrcSnapshot : Field := ⟨.sysIntSrc, 9, 1⟩
abbrev sysIntSrcPmFinal : Field := ⟨.sysIntSrc, 8, 1⟩
abbrev sysIntSrcWriteErr : Field := ⟨.sysIntSrc, 7, 1⟩
abbrev sysIntSrcPeerReset : Field := ⟨.sysIntSrc, 6, 1⟩
abbrev sysIntSrcDoorbell : Field := ⟨.sysIntSrc, 5, 1⟩
abbrev sysIntSrcCleared : Field := ⟨.sysIntSrc, 4, 1⟩
abbrev sysIntSrcInfo : Field := ⟨.sysIntSrc, 3, 1⟩
abbrev sysIntSrcMinor : Field := ⟨.sysIntSrc, 2, 1⟩
abbrev sysIntSrcMajor : Field := ⟨.sysIntSrc, 1, 1⟩
abbrev sysIntSrcFatal : Field := ⟨.sysIntSrc, 0, 1⟩
/-! SYS_INT_PEND -/
abbrev sysIntPendPin : Field := ⟨.sysIntPend, 32, 1⟩
abbrev sysIntPendPend : Field := ⟨.sysIntPend, 0, 12⟩

end F

/-- Block and offsets of each register (15 Tables 15-2 to 15-13). -/
def Reg.place : Reg → RegPlace
  | .laneCtrl => ⟨.lane, 0x0000, 0x0, 0, 1⟩
  | .laneState => ⟨.lane, 0x0008, 0x0, 0, 1⟩
  | .laneSkew => ⟨.lane, 0x0010, 0x0, 0, 1⟩
  | .laneTxfirPreset => ⟨.lane, 0x0020, 0x0, 0, 1⟩
  | .laneTxfir => ⟨.lane, 0x0040, 0x8, 0, 4⟩
  | .laneAdaptCfg => ⟨.lane, 0x0060, 0x0, 0, 1⟩
  | .lanePrbsCtrl => ⟨.lane, 0x0080, 0x0, 0, 1⟩
  | .laneScanCtrl => ⟨.lane, 0x0100, 0x0, 0, 1⟩
  | .laneScanGrid => ⟨.lane, 0x0108, 0x0, 0, 1⟩
  | .laneScanStatus => ⟨.lane, 0x0110, 0x0, 0, 1⟩
  | .lanePrbsErr => ⟨.lane, 0x00A0, 0x8, 0, 4⟩
  | .lanePrbsBits => ⟨.lane, 0x00C0, 0x8, 0, 4⟩
  | .laneBringupTry => ⟨.lane, 0x0200, 0x0, 0, 1⟩
  | .laneBringupTimeout => ⟨.lane, 0x0208, 0x0, 0, 1⟩
  | .laneUpLoss => ⟨.lane, 0x0210, 0x0, 0, 1⟩
  | .laneAdaptMsgErr => ⟨.lane, 0x0220, 0x8, 0, 4⟩
  | .laneAdaptStep => ⟨.lane, 0x0240, 0x8, 0, 4⟩
  | .laneAdaptReject => ⟨.lane, 0x0260, 0x8, 0, 4⟩
  | .laneAdaptFrozen => ⟨.lane, 0x0280, 0x8, 0, 4⟩
  | .laneAdaptTimeout => ⟨.lane, 0x02A0, 0x8, 0, 4⟩
  | .linkCtrl => ⟨.link, 0x0000, 0x0, 0, 1⟩
  | .linkState => ⟨.link, 0x0008, 0x0, 0, 1⟩
  | .linkRxTick => ⟨.link, 0x0010, 0x0, 0, 1⟩
  | .linkRxJust => ⟨.link, 0x0018, 0x0, 0, 1⟩
  | .linkTxJust => ⟨.link, 0x0020, 0x0, 0, 1⟩
  | .linkIdentRxSetid => ⟨.link, 0x0040, 0x0, 0, 1⟩
  | .linkIdentRxDieid => ⟨.link, 0x0048, 0x0, 0, 1⟩
  | .linkIdentRxInfo => ⟨.link, 0x0050, 0x0, 0, 1⟩
  | .linkIdentRxArmed => ⟨.link, 0x0058, 0x0, 0, 1⟩
  | .linkMboxCtrl => ⟨.link, 0x0080, 0x0, 0, 1⟩
  | .linkUserCtrl => ⟨.link, 0x0088, 0x0, 0, 1⟩
  | .linkFramesGood => ⟨.link, 0x0100, 0x0, 0, 1⟩
  | .linkFramesDoubtful => ⟨.link, 0x0108, 0x0, 0, 1⟩
  | .linkFramesBad => ⟨.link, 0x0110, 0x0, 0, 1⟩
  | .linkFramesAbsent => ⟨.link, 0x0118, 0x0, 0, 1⟩
  | .linkHdrErr => ⟨.link, 0x0120, 0x0, 0, 1⟩
  | .linkTypeErr => ⟨.link, 0x0128, 0x0, 0, 1⟩
  | .linkOvhCrcErr => ⟨.link, 0x0130, 0x0, 0, 1⟩
  | .linkPayCrcErr => ⟨.link, 0x0138, 0x0, 0, 1⟩
  | .linkJcCorrected => ⟨.link, 0x0140, 0x0, 0, 1⟩
  | .linkFmErr => ⟨.link, 0x0148, 0x0, 0, 1⟩
  | .linkOofEntry => ⟨.link, 0x0150, 0x0, 0, 1⟩
  | .linkLofEntry => ⟨.link, 0x0158, 0x0, 0, 1⟩
  | .linkLolEntry => ⟨.link, 0x0160, 0x0, 0, 1⟩
  | .linkTickJump => ⟨.link, 0x0168, 0x0, 0, 1⟩
  | .linkTickSubst => ⟨.link, 0x0170, 0x0, 0, 1⟩
  | .linkReiRx => ⟨.link, 0x0178, 0x0, 0, 1⟩
  | .linkProtMsgErr => ⟨.link, 0x0180, 0x0, 0, 1⟩
  | .linkMboxErr => ⟨.link, 0x0188, 0x0, 0, 1⟩
  | .linkUserErr => ⟨.link, 0x0190, 0x0, 0, 1⟩
  | .linkUserFwdDrop => ⟨.link, 0x0198, 0x0, 0, 1⟩
  | .linkDiscordEntry => ⟨.link, 0x01A0, 0x0, 0, 1⟩
  | .linkJustRange => ⟨.link, 0x01A8, 0x0, 0, 1⟩
  | .linkWiringEntry => ⟨.link, 0x01B0, 0x0, 0, 1⟩
  | .lagStackCmd => ⟨.lag, 0x0000, 0x0, 0, 1⟩
  | .lagState => ⟨.lag, 0x0008, 0x0, 0, 1⟩
  | .lagStackCfg => ⟨.lag, 0x0010, 0x0, 0, 1⟩
  | .lagLinkCfg => ⟨.lag, 0x1000, 0x8, 0, 128⟩
  | .lagArrLast => ⟨.lag, 0x1400, 0x8, 0, 128⟩
  | .lagArrMax => ⟨.lag, 0x1800, 0x8, 0, 128⟩
  | .lagArrMin => ⟨.lag, 0x1C00, 0x8, 0, 128⟩
  | .lagLinkState => ⟨.lag, 0x2000, 0x8, 0, 128⟩
  | .lagElasticOvf => ⟨.lag, 0x0100, 0x20, 0, 4⟩
  | .lagReadLate => ⟨.lag, 0x0108, 0x20, 0, 4⟩
  | .lagPageFail => ⟨.lag, 0x0110, 0x20, 0, 4⟩
  | .lagStackLoss => ⟨.lag, 0x0118, 0x20, 0, 4⟩
  | .lagReleased => ⟨.lag, 0x4000, 0x40, 0, 128⟩
  | .lagMissing => ⟨.lag, 0x4008, 0x40, 0, 128⟩
  | .lagLate => ⟨.lag, 0x4010, 0x40, 0, 128⟩
  | .lagEarly => ⟨.lag, 0x4018, 0x40, 0, 128⟩
  | .lagRepeat => ⟨.lag, 0x4020, 0x40, 0, 128⟩
  | .lagPageBad => ⟨.lag, 0x4028, 0x40, 0, 128⟩
  | .lagMarginLow => ⟨.lag, 0x4030, 0x40, 0, 128⟩
  | .protGroupCfg => ⟨.prot, 0x0000, 0x8, 0, 64⟩
  | .protGroupCmd => ⟨.prot, 0x0400, 0x8, 0, 64⟩
  | .protGroupState => ⟨.prot, 0x0800, 0x8, 0, 64⟩
  | .protBridgeCfg => ⟨.prot, 0x1000, 0x8, 0, 64⟩
  | .protRxGroup => ⟨.prot, 0x1400, 0x8, 0, 64⟩
  | .protRxBridge => ⟨.prot, 0x1800, 0x8, 0, 64⟩
  | .protRxReserved => ⟨.prot, 0x0F00, 0x0, 0, 1⟩
  | .protRxUnmatched => ⟨.prot, 0x0F08, 0x0, 0, 1⟩
  | .protSelP => ⟨.prot, 0x2000, 0x40, 0, 64⟩
  | .protSelS => ⟨.prot, 0x2008, 0x40, 0, 64⟩
  | .protSwitch => ⟨.prot, 0x2010, 0x40, 0, 64⟩
  | .protNoGood => ⟨.prot, 0x2018, 0x40, 0, 64⟩
  | .protBothAbsent => ⟨.prot, 0x2020, 0x40, 0, 64⟩
  | .protDiffer => ⟨.prot, 0x2028, 0x40, 0, 64⟩
  | .protCmdRefused => ⟨.prot, 0x2030, 0x40, 0, 64⟩
  | .coreStatus => ⟨.core, 0x0000, 0x0, 0, 1⟩
  | .coreStationDis => ⟨.core, 0x0010, 0x8, 0, 2⟩
  | .coreSumCount => ⟨.core, 0x0800, 0x8, 0, 64⟩
  | .coreSlack => ⟨.core, 0x0400, 0x8, 0, 128⟩
  | .coreTapCtrl => ⟨.core, 0x0040, 0x0, 0, 1⟩
  | .coreTapData => ⟨.core, 0x0048, 0x0, 0, 1⟩
  | .coreTapTick => ⟨.core, 0x0050, 0x0, 0, 1⟩
  | .coreOverrunSlots => ⟨.core, 0x0200, 0x0, 0, 1⟩
  | .coreClashReads => ⟨.core, 0x0208, 0x0, 0, 1⟩
  | .corePostClash => ⟨.core, 0x0210, 0x0, 0, 1⟩
  | .coreResvMirror => ⟨.core, 0x0218, 0x0, 0, 1⟩
  | .coreResvCtrl => ⟨.core, 0x0220, 0x0, 0, 1⟩
  | .coreResvScrub => ⟨.core, 0x0228, 0x0, 0, 1⟩
  | .coreResvTest => ⟨.core, 0x0230, 0x0, 0, 1⟩
  | .coreResvAudit => ⟨.core, 0x0238, 0x0, 0, 1⟩
  | .coreTicks => ⟨.core, 0x0240, 0x0, 0, 1⟩
  | .almState => ⟨.alm, 0x0000, 0x0, 0, 1⟩
  | .almActiveSetid => ⟨.alm, 0x0008, 0x0, 0, 1⟩
  | .almActiveInfo => ⟨.alm, 0x0010, 0x0, 0, 1⟩
  | .almSlotCmd => ⟨.alm, 0x0020, 0x0, 0, 1⟩
  | .almSlotStatus => ⟨.alm, 0x0100, 0x8, 0, 16⟩
  | .almArm => ⟨.alm, 0x0028, 0x0, 0, 1⟩
  | .almArmCmd => ⟨.alm, 0x0030, 0x0, 0, 1⟩
  | .almArmed => ⟨.alm, 0x0038, 0x0, 0, 1⟩
  | .almTrimCmd => ⟨.alm, 0x0040, 0x0, 0, 1⟩
  | .almTrimStatus => ⟨.alm, 0x0048, 0x0, 0, 1⟩
  | .almAuditCtrl => ⟨.alm, 0x0050, 0x0, 0, 1⟩
  | .almAuditStatus => ⟨.alm, 0x0058, 0x0, 0, 1⟩
  | .almVouched => ⟨.alm, 0x0060, 0x8, 0, 2⟩
  | .almArmDis => ⟨.alm, 0x0070, 0x8, 0, 2⟩
  | .almEpochs => ⟨.alm, 0x0200, 0x0, 0, 1⟩
  | .almEpochMissed => ⟨.alm, 0x0208, 0x0, 0, 1⟩
  | .almCheckReject => ⟨.alm, 0x0210, 0x0, 0, 1⟩
  | .almStageFail => ⟨.alm, 0x0218, 0x0, 0, 1⟩
  | .almAuditPasses => ⟨.alm, 0x0220, 0x0, 0, 1⟩
  | .almAuditMismatch => ⟨.alm, 0x0228, 0x0, 0, 1⟩
  | .almTrims => ⟨.alm, 0x0230, 0x0, 0, 1⟩
  | .timState => ⟨.tim, 0x0000, 0x0, 0, 1⟩
  | .timTick => ⟨.tim, 0x0008, 0x0, 0, 1⟩
  | .timCfg => ⟨.tim, 0x0010, 0x0, 0, 1⟩
  | .timSlope => ⟨.tim, 0x0018, 0x0, 0, 1⟩
  | .timAdoptCfg => ⟨.tim, 0x0020, 0x0, 0, 1⟩
  | .timRefCfg => ⟨.tim, 0x0100, 0x8, 0, 12⟩
  | .timRefState => ⟨.tim, 0x0200, 0x8, 0, 12⟩
  | .timPhase => ⟨.tim, 0x0028, 0x0, 0, 1⟩
  | .timDco => ⟨.tim, 0x0030, 0x0, 0, 1⟩
  | .timHold => ⟨.tim, 0x0038, 0x0, 0, 1⟩
  | .timCmd => ⟨.tim, 0x0040, 0x0, 0, 1⟩
  | .timAdoptStatus => ⟨.tim, 0x0048, 0x0, 0, 1⟩
  | .timAdoptNum => ⟨.tim, 0x0050, 0x0, 0, 1⟩
  | .timOutCfg => ⟨.tim, 0x0300, 0x8, 0, 8⟩
  | .timSwitches => ⟨.tim, 0x0400, 0x0, 0, 1⟩
  | .timHoldoverEntry => ⟨.tim, 0x0408, 0x0, 0, 1⟩
  | .timFreerunEntry => ⟨.tim, 0x0410, 0x0, 0, 1⟩
  | .timDisputes => ⟨.tim, 0x0418, 0x0, 0, 1⟩
  | .timExchOk => ⟨.tim, 0x0420, 0x0, 0, 1⟩
  | .timExchFail => ⟨.tim, 0x0428, 0x0, 0, 1⟩
  | .timDcoClamp => ⟨.tim, 0x0430, 0x0, 0, 1⟩
  | .timRefDisq => ⟨.tim, 0x0480, 0x8, 0, 12⟩
  | .mateCfg => ⟨.mate, 0x0000, 0x0, 0, 1⟩
  | .mateState => ⟨.mate, 0x0008, 0x0, 0, 1⟩
  | .mateCmd => ⟨.mate, 0x0010, 0x0, 0, 1⟩
  | .mateResync => ⟨.mate, 0x0018, 0x0, 0, 1⟩
  | .mateWatchLost => ⟨.mate, 0x0040, 0x0, 0, 1⟩
  | .mateWatch => ⟨.mate, 0x0400, 0x8, 0, 64⟩
  | .matePromotions => ⟨.mate, 0x0200, 0x0, 0, 1⟩
  | .mateDemotions => ⟨.mate, 0x0208, 0x0, 0, 1⟩
  | .mateSwaps => ⟨.mate, 0x0210, 0x0, 0, 1⟩
  | .mateHbLoss => ⟨.mate, 0x0218, 0x0, 0, 1⟩
  | .mateLinkLoss => ⟨.mate, 0x0220, 0x0, 0, 1⟩
  | .mateFrameUnusable => ⟨.mate, 0x0228, 0x0, 0, 1⟩
  | .mateCmpTicks => ⟨.mate, 0x0230, 0x0, 0, 1⟩
  | .mateCmpMismatch => ⟨.mate, 0x0238, 0x0, 0, 1⟩
  | .mateDiscrepancies => ⟨.mate, 0x0240, 0x0, 0, 1⟩
  | .mateMirrored => ⟨.mate, 0x0248, 0x0, 0, 1⟩
  | .mateUnmirrored => ⟨.mate, 0x0250, 0x0, 0, 1⟩
  | .mateMirrorGaps => ⟨.mate, 0x0258, 0x0, 0, 1⟩
  | .mateResyncs => ⟨.mate, 0x0260, 0x0, 0, 1⟩
  | .matePromoteUnsynced => ⟨.mate, 0x0268, 0x0, 0, 1⟩
  | .eccStatus => ⟨.ecc, 0x0000, 0x0, 0, 1⟩
  | .eccLastUe => ⟨.ecc, 0x0008, 0x0, 0, 1⟩
  | .eccTrackCfg => ⟨.ecc, 0x0010, 0x0, 0, 1⟩
  | .eccTestCfg => ⟨.ecc, 0x0018, 0x0, 0, 1⟩
  | .eccTestStatus => ⟨.ecc, 0x0020, 0x0, 0, 1⟩
  | .eccScrubCmd => ⟨.ecc, 0x0028, 0x0, 0, 1⟩
  | .eccScrubStatus => ⟨.ecc, 0x0030, 0x0, 0, 1⟩
  | .eccScrubSum => ⟨.ecc, 0x0038, 0x8, 0, 5⟩
  | .eccScrubUe => ⟨.ecc, 0x1000, 0x8, 0, 64⟩
  | .eccTrack => ⟨.ecc, 0x0400, 0x8, 0, 64⟩
  | .eccFuseCmd => ⟨.ecc, 0x0060, 0x0, 0, 1⟩
  | .eccFuseStatus => ⟨.ecc, 0x0068, 0x0, 0, 1⟩
  | .eccSoft => ⟨.ecc, 0x0800, 0x8, 0, 32⟩
  | .eccCorr => ⟨.ecc, 0x0100, 0x20, 0, 10⟩
  | .eccUe => ⟨.ecc, 0x0108, 0x20, 0, 10⟩
  | .eccPoison => ⟨.ecc, 0x0110, 0x20, 0, 10⟩
  | .eccTestFail => ⟨.ecc, 0x0118, 0x20, 0, 10⟩
  | .eccTrackFull => ⟨.ecc, 0x0300, 0x0, 0, 1⟩
  | .eccWritebacks => ⟨.ecc, 0x0308, 0x0, 0, 1⟩
  | .eccRestores => ⟨.ecc, 0x0310, 0x0, 0, 1⟩
  | .eccSumPoisonAll => ⟨.ecc, 0x0318, 0x0, 0, 1⟩
  | .eccTestRegions => ⟨.ecc, 0x0320, 0x0, 0, 1⟩
  | .eccFuseBad => ⟨.ecc, 0x0328, 0x0, 0, 1⟩
  | .eccSoftNospare => ⟨.ecc, 0x0330, 0x0, 0, 1⟩
  | .hbmRepairCmd => ⟨.hbm, 0x0040, 0x0, 0, 1⟩
  | .hbmRepairStatus => ⟨.hbm, 0x0048, 0x0, 0, 1⟩
  | .hbmCand => ⟨.hbm, 0x0400, 0x8, 0, 32⟩
  | .hbmCe => ⟨.hbm, 0x0100, 0x20, 0, 4⟩
  | .hbmUe => ⟨.hbm, 0x0108, 0x20, 0, 4⟩
  | .hbmEcs => ⟨.hbm, 0x0110, 0x20, 0, 4⟩
  | .busStatus => ⟨.bus, 0x0000, 0x0, 0, 1⟩
  | .busBar2Base => ⟨.bus, 0x0008, 0x8, 0, 2⟩
  | .busPrio => ⟨.bus, 0x0020, 0x0, 0, 1⟩
  | .busCollCfg => ⟨.bus, 0x0028, 0x0, 0, 1⟩
  | .busErrLast => ⟨.bus, 0x0300, 0x8, 1, 5⟩
  | .busCollLast => ⟨.bus, 0x0380, 0x0, 0, 1⟩
  | .busScrOwn => ⟨.bus, 0x0100, 0x8, 0, 16⟩
  | .busDbPend => ⟨.bus, 0x0200, 0x8, 1, 3⟩
  | .busErrResp => ⟨.bus, 0x0400, 0x20, 1, 5⟩
  | .busDefault => ⟨.bus, 0x0408, 0x20, 1, 5⟩
  | .busSplits => ⟨.bus, 0x0410, 0x20, 1, 5⟩
  | .busResets => ⟨.bus, 0x0418, 0x20, 1, 5⟩
  | .busGrants => ⟨.bus, 0x0600, 0x10, 0, 26⟩
  | .busWait => ⟨.bus, 0x0608, 0x10, 0, 26⟩
  | .busCollisions => ⟨.bus, 0x0800, 0x0, 0, 1⟩
  | .busSemForced => ⟨.bus, 0x0808, 0x0, 0, 1⟩
  | .busSemTaken => ⟨.bus, 0x0810, 0x0, 0, 1⟩
  | .sysBootStatus => ⟨.sys, 0x0100, 0x0, 0, 1⟩
  | .sysBootCmd => ⟨.sys, 0x0108, 0x0, 0, 1⟩
  | .sysBistStatus => ⟨.sys, 0x0110, 0x0, 0, 1⟩
  | .sysFuncState => ⟨.sys, 0x0200, 0x8, 0, 39⟩
  | .sysFuncStarts => ⟨.sys, 0x0400, 0x8, 0, 39⟩
  | .nvmInfo => ⟨.nvm, 0x0000, 0x0, 0, 1⟩
  | .nvmCmd => ⟨.nvm, 0x0008, 0x0, 0, 1⟩
  | .nvmStatus => ⟨.nvm, 0x0010, 0x0, 0, 1⟩
  | .nvmPrograms => ⟨.nvm, 0x0100, 0x0, 0, 1⟩
  | .nvmErases => ⟨.nvm, 0x0108, 0x0, 0, 1⟩
  | .nvmVerifyFail => ⟨.nvm, 0x0110, 0x0, 0, 1⟩
  | .pmCtrl => ⟨.pm, 0x0000, 0x0, 0, 1⟩
  | .pmSnapStatus => ⟨.pm, 0x0008, 0x0, 0, 1⟩
  | .pmBwCfg => ⟨.pm, 0x0010, 0x0, 0, 1⟩
  | .pmBwLast => ⟨.pm, 0x0018, 0x0, 0, 1⟩
  | .pmLinkState => ⟨.pm, 0x3000, 0x8, 0, 128⟩
  | .pmGroupState => ⟨.pm, 0x4800, 0x8, 0, 64⟩
  | .pmMateState => ⟨.pm, 0x4C18, 0x0, 0, 1⟩
  | .pmBwLinkIn => ⟨.pm, 0x5000, 0x10, 0, 128⟩
  | .pmBwLinkOut => ⟨.pm, 0x5008, 0x10, 0, 128⟩
  | .pmBwHostWr => ⟨.pm, 0x57E0, 0x20, 1, 2⟩
  | .pmBwHostRd => ⟨.pm, 0x57E8, 0x20, 1, 2⟩
  | .pmBwHostReq => ⟨.pm, 0x57F0, 0x20, 1, 2⟩
  | .pmBwHbmWr => ⟨.pm, 0x5880, 0x20, 0, 4⟩
  | .pmBwHbmRd => ⟨.pm, 0x5888, 0x20, 0, 4⟩
  | .pmBwHbmPeak => ⟨.pm, 0x5890, 0x20, 0, 4⟩
  | .pmBwBusBeats => ⟨.pm, 0x5A00, 0x10, 0, 26⟩
  | .pmBwBusWait => ⟨.pm, 0x5A08, 0x10, 0, 26⟩
  | .pmSeconds => ⟨.pm, 0x0100, 0x0, 0, 1⟩
  | .pmSecondsCut => ⟨.pm, 0x0108, 0x0, 0, 1⟩
  | .pmSnapshots => ⟨.pm, 0x0110, 0x0, 0, 1⟩
  | .pmSnapSkipped => ⟨.pm, 0x0118, 0x0, 0, 1⟩
  | .pmEs => ⟨.pm, 0x1000, 0x40, 0, 128⟩
  | .pmSes => ⟨.pm, 0x1008, 0x40, 0, 128⟩
  | .pmUas => ⟨.pm, 0x1010, 0x40, 0, 128⟩
  | .pmFeEs => ⟨.pm, 0x1018, 0x40, 0, 128⟩
  | .pmFeSes => ⟨.pm, 0x1020, 0x40, 0, 128⟩
  | .pmFeUas => ⟨.pm, 0x1028, 0x40, 0, 128⟩
  | .pmGroupEs => ⟨.pm, 0x4000, 0x20, 0, 64⟩
  | .pmGroupSes => ⟨.pm, 0x4008, 0x20, 0, 64⟩
  | .pmGroupUas => ⟨.pm, 0x4010, 0x20, 0, 64⟩
  | .pmMateEs => ⟨.pm, 0x4C00, 0x0, 0, 1⟩
  | .pmMateSes => ⟨.pm, 0x4C08, 0x0, 0, 1⟩
  | .pmMateUas => ⟨.pm, 0x4C10, 0x0, 0, 1⟩
  | .logCtrl => ⟨.log, 0x0000, 0x0, 0, 1⟩
  | .logState => ⟨.log, 0x0008, 0x0, 0, 1⟩
  | .logEvbBase => ⟨.log, 0x0010, 0x0, 0, 1⟩
  | .logEvbEntries => ⟨.log, 0x0100, 0x0, 0, 1⟩
  | .logDropped => ⟨.log, 0x0108, 0x0, 0, 1⟩
  | .logEvbLost => ⟨.log, 0x0110, 0x0, 0, 1⟩
  | .logEntries => ⟨.log, 0x0118, 0x0, 0, 1⟩
  | .logStores => ⟨.log, 0x0120, 0x0, 0, 1⟩
  | .logStoreFail => ⟨.log, 0x0128, 0x0, 0, 1⟩
  | .sysId => ⟨.sys, 0x0000, 0x0, 0, 1⟩
  | .sysPciId => ⟨.sys, 0x0018, 0x0, 0, 1⟩
  | .sysCtrl => ⟨.sys, 0x0010, 0x0, 0, 1⟩
  | .sysTemp => ⟨.sys, 0x0020, 0x0, 0, 1⟩
  | .sysTempCfg => ⟨.sys, 0x0028, 0x0, 0, 1⟩
  | .hbmCfg => ⟨.hbm, 0x0000, 0x0, 0, 1⟩
  | .hbmState => ⟨.hbm, 0x0008, 0x0, 0, 1⟩
  | .sysAlmSummary => ⟨.sys, 0x0800, 0x0, 0, 1⟩
  | .sysAlarmMask => ⟨.sys, 0x0808, 0x0, 0, 1⟩
  | .sysIntEn => ⟨.sys, 0x0820, 0x20, 1, 2⟩
  | .sysIntBlk => ⟨.sys, 0x0828, 0x20, 1, 2⟩
  | .sysIntSrc => ⟨.sys, 0x0830, 0x20, 1, 2⟩
  | .sysIntPend => ⟨.sys, 0x0838, 0x20, 1, 2⟩

/-- The one field of an event counter: 64 bits, read only, reset 0 (00 R8). -/
def counterField (r : Reg) (expert : Bool) : List FieldSpec := [⟨⟨r, 0, 64⟩, .ro, 0, expert⟩]

/-- The fields of each register; unlisted bits are reserved (00 R6). -/
def Reg.fields : Reg → List FieldSpec
  | .laneCtrl => [
      ⟨F.laneCtrlLoop, .rw, 0, true⟩, ⟨F.laneCtrlAdaptEn, .rw, 1, true⟩, ⟨F.laneCtrlRestart, .wo, 0, true⟩]
  | .laneState => [
      ⟨F.laneStatePllLock, .ro, 0, false⟩, ⟨F.laneStateClkLock, .ro, 0, false⟩, ⟨F.laneStateClkLos, .ro, 1, false⟩,
      ⟨F.laneStateLos, .ro, 15, false⟩, ⟨F.laneStateFenced, .ro, 0, false⟩, ⟨F.laneStateTrained, .ro, 0, false⟩,
      ⟨F.laneStateInFrame, .ro, 0, false⟩, ⟨F.laneStateBlockLock, .ro, 0, false⟩, ⟨F.laneStateDownCause, .ro, 0, false⟩,
      ⟨F.laneStateGen, .ro, 0, false⟩, ⟨F.laneStateQstate, .ro, 0, false⟩]
  | .laneSkew => [
      ⟨F.laneSkewSkew3, .ro, 0, false⟩, ⟨F.laneSkewSkew2, .ro, 0, false⟩, ⟨F.laneSkewSkew1, .ro, 0, false⟩,
      ⟨F.laneSkewSkew0, .ro, 0, false⟩]
  | .laneTxfirPreset => [
      ⟨F.laneTxfirPresetPost, .rw, 8, true⟩, ⟨F.laneTxfirPresetMain, .rw, 52, true⟩, ⟨F.laneTxfirPresetPre, .rw, 4, true⟩]
  | .laneTxfir => [
      ⟨F.laneTxfirPostBu, .ro, 0, false⟩, ⟨F.laneTxfirMainBu, .ro, 0, false⟩, ⟨F.laneTxfirPreBu, .ro, 0, false⟩,
      ⟨F.laneTxfirPost, .ro, 8, false⟩, ⟨F.laneTxfirMain, .ro, 52, false⟩, ⟨F.laneTxfirPre, .ro, 4, false⟩]
  | .laneAdaptCfg => [
      ⟨F.laneAdaptCfgSvcInterval, .rw, 10, true⟩, ⟨F.laneAdaptCfgFence, .rw, 4, true⟩]
  | .lanePrbsCtrl => [
      ⟨F.lanePrbsCtrlRxLocked, .ro, 0, true⟩, ⟨F.lanePrbsCtrlInvert, .rw, 0, true⟩, ⟨F.lanePrbsCtrlRxPat, .rw, 2, true⟩,
      ⟨F.lanePrbsCtrlTxPat, .rw, 2, true⟩, ⟨F.lanePrbsCtrlRxEn, .rw, 0, true⟩, ⟨F.lanePrbsCtrlTxEn, .rw, 0, true⟩]
  | .laneScanCtrl => [
      ⟨F.laneScanCtrlDwell, .rw, 20, true⟩, ⟨F.laneScanCtrlAbort, .wo, 0, true⟩, ⟨F.laneScanCtrlStart, .wo, 0, true⟩,
      ⟨F.laneScanCtrlLane, .rw, 0, true⟩]
  | .laneScanGrid => [
      ⟨F.laneScanGridVStep, .rw, 1, true⟩, ⟨F.laneScanGridVEnd, .rw, 127, true⟩, ⟨F.laneScanGridVStart, .rw, 129, true⟩,
      ⟨F.laneScanGridHStep, .rw, 1, true⟩, ⟨F.laneScanGridHEnd, .rw, 31, true⟩, ⟨F.laneScanGridHStart, .rw, 224, true⟩]
  | .laneScanStatus => [
      ⟨F.laneScanStatusPoints, .ro, 0, true⟩, ⟨F.laneScanStatusErr, .ro, 0, true⟩, ⟨F.laneScanStatusDone, .ro, 0, true⟩,
      ⟨F.laneScanStatusBusy, .ro, 0, true⟩]
  | .lanePrbsErr => counterField .lanePrbsErr true
  | .lanePrbsBits => counterField .lanePrbsBits true
  | .laneBringupTry => counterField .laneBringupTry false
  | .laneBringupTimeout => counterField .laneBringupTimeout false
  | .laneUpLoss => counterField .laneUpLoss false
  | .laneAdaptMsgErr => counterField .laneAdaptMsgErr false
  | .laneAdaptStep => counterField .laneAdaptStep false
  | .laneAdaptReject => counterField .laneAdaptReject false
  | .laneAdaptFrozen => counterField .laneAdaptFrozen false
  | .laneAdaptTimeout => counterField .laneAdaptTimeout false
  | .linkCtrl => [
      ⟨F.linkCtrlForceRdi, .rw, 0, true⟩, ⟨F.linkCtrlUserSrc, .rw, 0, true⟩, ⟨F.linkCtrlUserMode, .rw, 0, true⟩]
  | .linkState => [
      ⟨F.linkStateRdiTx, .ro, 1, false⟩, ⟨F.linkStateKindRx, .ro, 0, false⟩, ⟨F.linkStateLastVerdict, .ro, 3, false⟩,
      ⟨F.linkStateFaState, .ro, 0, false⟩, ⟨F.linkStateUserNew, .w1c, 0, false⟩, ⟨F.linkStateMboxNew, .w1c, 0, false⟩,
      ⟨F.linkStateNeighbourChanged, .w1c, 0, false⟩, ⟨F.linkStateJustifyRange, .ro, 0, false⟩, ⟨F.linkStateRdi, .ro, 0, false⟩,
      ⟨F.linkStateDiscord, .ro, 0, false⟩, ⟨F.linkStateBlockTypeErr, .ro, 0, false⟩, ⟨F.linkStateLof, .ro, 0, false⟩,
      ⟨F.linkStateOof, .ro, 1, false⟩, ⟨F.linkStateLol, .ro, 1, false⟩, ⟨F.linkStateLos, .ro, 1, false⟩]
  | .linkRxTick => [
      ⟨F.linkRxTickValid, .ro, 0, false⟩, ⟨F.linkRxTickStamp, .ro, 0, false⟩]
  | .linkRxJust => [
      ⟨F.linkRxJustTxPhase, .ro, 0, false⟩, ⟨F.linkRxJustK, .ro, 0, false⟩, ⟨F.linkRxJustJc, .ro, 0, false⟩]
  | .linkTxJust => [
      ⟨F.linkTxJustPhi, .ro, 0, false⟩, ⟨F.linkTxJustK, .ro, 0, false⟩, ⟨F.linkTxJustJc, .ro, 0, false⟩]
  | .linkIdentRxSetid => [
      ⟨F.linkIdentRxSetidSetid, .ro, 0, false⟩]
  | .linkIdentRxDieid => [
      ⟨F.linkIdentRxDieidDieid, .ro, 0, false⟩]
  | .linkIdentRxInfo => [
      ⟨F.linkIdentRxInfoGen, .ro, 0, false⟩, ⟨F.linkIdentRxInfoRole, .ro, 0, false⟩,
      ⟨F.linkIdentRxInfoMateRank, .ro, 0, false⟩, ⟨F.linkIdentRxInfoArmed, .ro, 0, false⟩,
      ⟨F.linkIdentRxInfoKind, .ro, 0, false⟩, ⟨F.linkIdentRxInfoLink, .ro, 0, false⟩, ⟨F.linkIdentRxInfoDevice, .ro, 0, false⟩,
      ⟨F.linkIdentRxInfoEpoch, .ro, 0, false⟩]
  | .linkIdentRxArmed => [
      ⟨F.linkIdentRxArmedArmedEpoch, .ro, 0, false⟩, ⟨F.linkIdentRxArmedArmedTick, .ro, 0, false⟩]
  | .linkMboxCtrl => [
      ⟨F.linkMboxCtrlRxLen, .ro, 0, false⟩, ⟨F.linkMboxCtrlRxSeq, .ro, 0, false⟩, ⟨F.linkMboxCtrlTxLen, .rw, 0, false⟩,
      ⟨F.linkMboxCtrlTxSeq, .rw, 0, false⟩]
  | .linkUserCtrl => [
      ⟨F.linkUserCtrlRxLen, .ro, 0, false⟩, ⟨F.linkUserCtrlRxSeq, .ro, 0, false⟩, ⟨F.linkUserCtrlTxLen, .rw, 0, false⟩,
      ⟨F.linkUserCtrlTxSeq, .rw, 0, false⟩]
  | .linkFramesGood => counterField .linkFramesGood false
  | .linkFramesDoubtful => counterField .linkFramesDoubtful false
  | .linkFramesBad => counterField .linkFramesBad false
  | .linkFramesAbsent => counterField .linkFramesAbsent false
  | .linkHdrErr => counterField .linkHdrErr false
  | .linkTypeErr => counterField .linkTypeErr false
  | .linkOvhCrcErr => counterField .linkOvhCrcErr false
  | .linkPayCrcErr => counterField .linkPayCrcErr false
  | .linkJcCorrected => counterField .linkJcCorrected false
  | .linkFmErr => counterField .linkFmErr false
  | .linkOofEntry => counterField .linkOofEntry false
  | .linkLofEntry => counterField .linkLofEntry false
  | .linkLolEntry => counterField .linkLolEntry false
  | .linkTickJump => counterField .linkTickJump false
  | .linkTickSubst => counterField .linkTickSubst false
  | .linkReiRx => counterField .linkReiRx false
  | .linkProtMsgErr => counterField .linkProtMsgErr false
  | .linkMboxErr => counterField .linkMboxErr false
  | .linkUserErr => counterField .linkUserErr false
  | .linkUserFwdDrop => counterField .linkUserFwdDrop false
  | .linkDiscordEntry => counterField .linkDiscordEntry false
  | .linkJustRange => counterField .linkJustRange false
  | .linkWiringEntry => counterField .linkWiringEntry false
  | .lagStackCmd => [
      ⟨F.lagStackCmdRestore, .wo, 0, true⟩, ⟨F.lagStackCmdOff, .wo, 0, true⟩]
  | .lagState => [
      ⟨F.lagStateRingPos, .ro, 0, false⟩, ⟨F.lagStatePoolFree, .ro, 2048, false⟩, ⟨F.lagStateRestoring, .ro, 0, false⟩,
      ⟨F.lagStateRestoreFail, .ro, 0, false⟩, ⟨F.lagStateStackLost, .ro, 0, false⟩]
  | .lagStackCfg => [
      ⟨F.lagStackCfgUeWindow, .rw, 48, true⟩, ⟨F.lagStackCfgUeTicks, .rw, 16, true⟩]
  | .lagLinkCfg => [
      ⟨F.lagLinkCfgMarginMin, .rw, 15625, true⟩, ⟨F.lagLinkCfgFbLag, .rw, 0, true⟩, ⟨F.lagLinkCfgMode, .rw, 0, true⟩,
      ⟨F.lagLinkCfgD, .rw, 0, true⟩]
  | .lagArrLast => [
      ⟨F.lagArrLastF, .ro, 0, false⟩, ⟨F.lagArrLastA, .ro, 0, false⟩]
  | .lagArrMax => [
      ⟨F.lagArrMaxValid, .rc, 0, false⟩, ⟨F.lagArrMaxAMax, .rc, 0, false⟩]
  | .lagArrMin => [
      ⟨F.lagArrMinValid, .rc, 0, false⟩, ⟨F.lagArrMinAMin, .rc, 0, false⟩]
  | .lagLinkState => [
      ⟨F.lagLinkStatePoolPages, .ro, 0, false⟩, ⟨F.lagLinkStateLastRelVerdict, .ro, 3, false⟩,
      ⟨F.lagLinkStateArrValid, .ro, 0, false⟩, ⟨F.lagLinkStateNopage, .ro, 0, false⟩, ⟨F.lagLinkStateFallback, .ro, 0, false⟩,
      ⟨F.lagLinkStateStampRange, .ro, 0, false⟩, ⟨F.lagLinkStateMargin, .ro, 0, false⟩, ⟨F.lagLinkStateLate, .ro, 0, false⟩]
  | .lagElasticOvf => counterField .lagElasticOvf false
  | .lagReadLate => counterField .lagReadLate false
  | .lagPageFail => counterField .lagPageFail false
  | .lagStackLoss => counterField .lagStackLoss false
  | .lagReleased => counterField .lagReleased false
  | .lagMissing => counterField .lagMissing false
  | .lagLate => counterField .lagLate false
  | .lagEarly => counterField .lagEarly false
  | .lagRepeat => counterField .lagRepeat false
  | .lagPageBad => counterField .lagPageBad false
  | .lagMarginLow => counterField .lagMarginLow false
  | .protGroupCfg => [
      ⟨F.protGroupCfgSdThresh, .rw, 48, true⟩, ⟨F.protGroupCfgWtr, .rw, 1000, true⟩, ⟨F.protGroupCfgHoldoff, .rw, 2, true⟩,
      ⟨F.protGroupCfgFarTarget, .rw, 0, true⟩, ⟨F.protGroupCfgFarIndex, .rw, 0, true⟩, ⟨F.protGroupCfgReport, .rw, 0, true⟩,
      ⟨F.protGroupCfgRevertive, .rw, 0, true⟩, ⟨F.protGroupCfgEn, .rw, 0, true⟩, ⟨F.protGroupCfgSLink, .rw, 0, true⟩,
      ⟨F.protGroupCfgPLink, .rw, 0, true⟩]
  | .protGroupCmd => [
      ⟨F.protGroupCmdLastResult, .ro, 0, false⟩, ⟨F.protGroupCmdCmd, .rw, 0, false⟩]
  | .protGroupState => [
      ⟨F.protGroupStateWtrLeft, .ro, 0, false⟩, ⟨F.protGroupStateGstate, .ro, 0, false⟩,
      ⟨F.protGroupStateMisaligned, .ro, 0, false⟩, ⟨F.protGroupStateWtrRun, .ro, 0, false⟩,
      ⟨F.protGroupStateSSd, .ro, 0, false⟩, ⟨F.protGroupStatePSd, .ro, 0, false⟩, ⟨F.protGroupStateSSf, .ro, 0, false⟩,
      ⟨F.protGroupStatePSf, .ro, 0, false⟩, ⟨F.protGroupStateSVerdict, .ro, 3, false⟩,
      ⟨F.protGroupStatePVerdict, .ro, 3, false⟩, ⟨F.protGroupStateSel, .ro, 0, false⟩]
  | .protBridgeCfg => [
      ⟨F.protBridgeCfgFarTarget, .rw, 0, true⟩, ⟨F.protBridgeCfgFarIndex, .rw, 0, true⟩, ⟨F.protBridgeCfgReport, .rw, 0, true⟩,
      ⟨F.protBridgeCfgEn, .rw, 0, true⟩, ⟨F.protBridgeCfgCopyLink, .rw, 0, true⟩, ⟨F.protBridgeCfgSrcLink, .rw, 0, true⟩]
  | .protRxGroup => [
      ⟨F.protRxGroupCrossed1, .ro, 0, false⟩, ⟨F.protRxGroupFresh1, .ro, 0, false⟩, ⟨F.protRxGroupParam1, .ro, 0, false⟩,
      ⟨F.protRxGroupCode1, .ro, 0, false⟩, ⟨F.protRxGroupCrossed0, .ro, 0, false⟩, ⟨F.protRxGroupFresh0, .ro, 0, false⟩,
      ⟨F.protRxGroupParam0, .ro, 0, false⟩, ⟨F.protRxGroupCode0, .ro, 0, false⟩]
  | .protRxBridge => [
      ⟨F.protRxBridgeCrossed1, .ro, 0, false⟩, ⟨F.protRxBridgeFresh1, .ro, 0, false⟩, ⟨F.protRxBridgeParam1, .ro, 0, false⟩,
      ⟨F.protRxBridgeCode1, .ro, 0, false⟩, ⟨F.protRxBridgeCrossed0, .ro, 0, false⟩, ⟨F.protRxBridgeFresh0, .ro, 0, false⟩,
      ⟨F.protRxBridgeParam0, .ro, 0, false⟩, ⟨F.protRxBridgeCode0, .ro, 0, false⟩]
  | .protRxReserved => counterField .protRxReserved false
  | .protRxUnmatched => counterField .protRxUnmatched false
  | .protSelP => counterField .protSelP false
  | .protSelS => counterField .protSelS false
  | .protSwitch => counterField .protSwitch false
  | .protNoGood => counterField .protNoGood false
  | .protBothAbsent => counterField .protBothAbsent false
  | .protDiffer => counterField .protDiffer false
  | .protCmdRefused => counterField .protCmdRefused false
  | .coreStatus => [
      ⟨F.coreStatusOvrSlot, .ro, 0, false⟩, ⟨F.coreStatusOvrStation, .ro, 0, false⟩, ⟨F.coreStatusPostClash, .w1c, 0, false⟩,
      ⟨F.coreStatusClash, .w1c, 0, false⟩, ⟨F.coreStatusOverrun, .w1c, 0, false⟩, ⟨F.coreStatusRun, .ro, 0, false⟩]
  | .coreStationDis => [
      ⟨F.coreStationDisDis, .ro, 0, false⟩]
  | .coreSumCount => [
      ⟨F.coreSumCountCount, .rw, 0, true⟩]
  | .coreSlack => [
      ⟨F.coreSlackValid, .rc, 0, false⟩, ⟨F.coreSlackMinSlack, .rc, 0, false⟩]
  | .coreTapCtrl => [
      ⟨F.coreTapCtrlEn, .rw, 0, false⟩, ⟨F.coreTapCtrlSrc, .rw, 0, false⟩]
  | .coreTapData => [
      ⟨F.coreTapDataValid, .ro, 0, false⟩, ⟨F.coreTapDataSlot, .ro, 0, false⟩]
  | .coreTapTick => [
      ⟨F.coreTapTickTick, .ro, 0, false⟩]
  | .coreOverrunSlots => counterField .coreOverrunSlots false
  | .coreClashReads => counterField .coreClashReads false
  | .corePostClash => counterField .corePostClash false
  | .coreResvMirror => counterField .coreResvMirror false
  | .coreResvCtrl => counterField .coreResvCtrl false
  | .coreResvScrub => counterField .coreResvScrub false
  | .coreResvTest => counterField .coreResvTest false
  | .coreResvAudit => counterField .coreResvAudit false
  | .coreTicks => counterField .coreTicks false
  | .almState => [
      ⟨F.almStateMissed, .w1c, 0, false⟩, ⟨F.almStateAuditClean, .ro, 0, false⟩, ⟨F.almStateConcordant, .ro, 0, false⟩,
      ⟨F.almStateChained, .ro, 0, false⟩, ⟨F.almStateCheckBusy, .ro, 0, false⟩, ⟨F.almStateActiveValid, .ro, 0, false⟩,
      ⟨F.almStateActiveSlot, .ro, 0, false⟩, ⟨F.almStateShadowSlot, .ro, 0, false⟩, ⟨F.almStateShadow, .ro, 0, false⟩,
      ⟨F.almStateEstate, .ro, 0, false⟩]
  | .almActiveSetid => [
      ⟨F.almActiveSetidSetid, .ro, 0, false⟩]
  | .almActiveInfo => [
      ⟨F.almActiveInfoVersion, .ro, 0, false⟩, ⟨F.almActiveInfoDevice, .ro, 0, false⟩, ⟨F.almActiveInfoEpoch, .ro, 0, false⟩]
  | .almSlotCmd => [
      ⟨F.almSlotCmdOp, .wo, 0, false⟩, ⟨F.almSlotCmdSlot, .rw, 0, false⟩]
  | .almSlotStatus => [
      ⟨F.almSlotStatusDetail, .ro, 0, false⟩, ⟨F.almSlotStatusReason, .ro, 0, false⟩, ⟨F.almSlotStatusWritten, .ro, 0, false⟩,
      ⟨F.almSlotStatusSstate, .ro, 0, false⟩]
  | .almArm => [
      ⟨F.almArmTick, .rw, 0, false⟩]
  | .almArmCmd => [
      ⟨F.almArmCmdResult, .ro, 0, false⟩, ⟨F.almArmCmdOp, .wo, 0, false⟩]
  | .almArmed => [
      ⟨F.almArmedArmedEpoch, .ro, 0, false⟩, ⟨F.almArmedArmedTick, .ro, 0, false⟩]
  | .almTrimCmd => [
      ⟨F.almTrimCmdGo, .wo, 0, false⟩, ⟨F.almTrimCmdKind, .rw, 0, false⟩, ⟨F.almTrimCmdIndex, .rw, 0, false⟩,
      ⟨F.almTrimCmdGain, .rw, 0, false⟩]
  | .almTrimStatus => [
      ⟨F.almTrimStatusTick, .ro, 0, false⟩, ⟨F.almTrimStatusResult, .ro, 0, false⟩, ⟨F.almTrimStatusQueue, .ro, 0, false⟩]
  | .almAuditCtrl => [
      ⟨F.almAuditCtrlEn, .rw, 1, false⟩]
  | .almAuditStatus => [
      ⟨F.almAuditStatusHeld, .w1c, 0, false⟩, ⟨F.almAuditStatusRegion, .ro, 0, false⟩]
  | .almVouched => [
      ⟨F.almVouchedV, .ro, 0, false⟩]
  | .almArmDis => [
      ⟨F.almArmDisD, .ro, 0, false⟩]
  | .almEpochs => counterField .almEpochs false
  | .almEpochMissed => counterField .almEpochMissed false
  | .almCheckReject => counterField .almCheckReject false
  | .almStageFail => counterField .almStageFail false
  | .almAuditPasses => counterField .almAuditPasses false
  | .almAuditMismatch => counterField .almAuditMismatch false
  | .almTrims => counterField .almTrims false
  | .timState => [
      ⟨F.timStateHops, .ro, 0, false⟩, ⟨F.timStateSkew, .ro, 0, false⟩, ⟨F.timStateMismatch, .ro, 0, false⟩,
      ⟨F.timStateDcoLimit, .ro, 0, false⟩, ⟨F.timStateForced, .ro, 0, false⟩, ⟨F.timStateDispute, .ro, 0, false⟩,
      ⟨F.timStateHistValid, .ro, 0, false⟩, ⟨F.timStateNumbered, .ro, 0, false⟩, ⟨F.timStateSelected, .ro, 15, false⟩,
      ⟨F.timStateTstate, .ro, 0, false⟩]
  | .timTick => [
      ⟨F.timTickTick, .ro, 0, false⟩]
  | .timCfg => [
      ⟨F.timCfgRamp, .rw, 10, true⟩, ⟨F.timCfgFreqLimit, .rw, 100, true⟩, ⟨F.timCfgDisagree, .rw, 200, true⟩,
      ⟨F.timCfgWtr, .rw, 10, true⟩, ⟨F.timCfgRevertive, .rw, 1, true⟩, ⟨F.timCfgMode, .rw, 0, true⟩]
  | .timSlope => [
      ⟨F.timSlopeAdoptSlope, .rw, 50000, true⟩, ⟨F.timSlopeSlope, .rw, 1000, true⟩]
  | .timAdoptCfg => [
      ⟨F.timAdoptCfgSkewLimit, .rw, 20, true⟩, ⟨F.timAdoptCfgAdoptWait, .rw, 20, true⟩,
      ⟨F.timAdoptCfgExchInterval, .rw, 10, true⟩, ⟨F.timAdoptCfgAsym, .rw, 0, true⟩, ⟨F.timAdoptCfgOrigin, .rw, 0, true⟩,
      ⟨F.timAdoptCfgEn, .rw, 0, true⟩, ⟨F.timAdoptCfgAdoptLink, .rw, 0, true⟩]
  | .timRefCfg => [
      ⟨F.timRefCfgDelay, .rw, 0, true⟩, ⟨F.timRefCfgBw, .rw, 0, true⟩, ⟨F.timRefCfgLink, .rw, 0, true⟩,
      ⟨F.timRefCfgRank, .rw, 0, true⟩, ⟨F.timRefCfgDelayMode, .rw, 0, true⟩, ⟨F.timRefCfgType, .rw, 0, true⟩]
  | .timRefState => [
      ⟨F.timRefStateFreq, .ro, 0, false⟩, ⟨F.timRefStateDqCause, .ro, 7, false⟩, ⟨F.timRefStateDisputed, .ro, 0, false⟩,
      ⟨F.timRefStateRestoring, .ro, 0, false⟩, ⟨F.timRefStateQualified, .ro, 0, false⟩]
  | .timPhase => [
      ⟨F.timPhasePhaseErr, .ro, 0, false⟩]
  | .timDco => [
      ⟨F.timDcoHostLocked, .rw, 0, true⟩, ⟨F.timDcoOffset, .rw, 0, true⟩]
  | .timHold => [
      ⟨F.timHoldSecs, .ro, 0, false⟩, ⟨F.timHoldValue, .ro, 0, false⟩]
  | .timCmd => [
      ⟨F.timCmdOp, .wo, 0, true⟩, ⟨F.timCmdRef, .wo, 0, true⟩]
  | .timAdoptStatus => [
      ⟨F.timAdoptStatusD, .ro, 0, false⟩, ⟨F.timAdoptStatusPsi, .ro, 0, false⟩]
  | .timAdoptNum => [
      ⟨F.timAdoptNumId, .ro, 0, false⟩, ⟨F.timAdoptNumNum, .ro, 0, false⟩]
  | .timOutCfg => [
      ⟨F.timOutCfgOffset, .rw, 0, true⟩, ⟨F.timOutCfgSel, .rw, 0, true⟩]
  | .timSwitches => counterField .timSwitches false
  | .timHoldoverEntry => counterField .timHoldoverEntry false
  | .timFreerunEntry => counterField .timFreerunEntry false
  | .timDisputes => counterField .timDisputes false
  | .timExchOk => counterField .timExchOk false
  | .timExchFail => counterField .timExchFail false
  | .timDcoClamp => counterField .timDcoClamp false
  | .timRefDisq => counterField .timRefDisq false
  | .mateCfg => [
      ⟨F.mateCfgJoinWait, .rw, 5, true⟩, ⟨F.mateCfgVigilMode, .rw, 1, true⟩, ⟨F.mateCfgEn, .rw, 0, true⟩]
  | .mateState => [
      ⟨F.mateStateActiveSince, .ro, 0, false⟩, ⟨F.mateStateDiscNew, .w1c, 0, false⟩, ⟨F.mateStateDiscCause, .ro, 0, false⟩,
      ⟨F.mateStateMateHbSeen, .ro, 0, false⟩, ⟨F.mateStateMateRole, .ro, 0, false⟩, ⟨F.mateStateHbOk, .ro, 0, false⟩,
      ⟨F.mateStateLinkUp, .ro, 0, false⟩, ⟨F.mateStateJoined, .ro, 0, false⟩, ⟨F.mateStateWithheld, .ro, 0, false⟩,
      ⟨F.mateStateSync, .ro, 0, false⟩, ⟨F.mateStateRank, .ro, 0, false⟩, ⟨F.mateStateRole, .ro, 0, false⟩]
  | .mateCmd => [
      ⟨F.mateCmdResult, .ro, 0, false⟩, ⟨F.mateCmdOp, .wo, 0, false⟩]
  | .mateResync => [
      ⟨F.mateResyncTotal, .ro, 0, false⟩, ⟨F.mateResyncDone, .ro, 0, false⟩]
  | .mateWatchLost => [
      ⟨F.mateWatchLostW, .ro, 0, false⟩]
  | .mateWatch => [
      ⟨F.mateWatchBit, .rw, 0, true⟩, ⟨F.mateWatchEn, .rw, 0, true⟩, ⟨F.mateWatchTarget, .rw, 0, true⟩,
      ⟨F.mateWatchIndex, .rw, 0, true⟩, ⟨F.mateWatchLink, .rw, 0, true⟩]
  | .matePromotions => counterField .matePromotions false
  | .mateDemotions => counterField .mateDemotions false
  | .mateSwaps => counterField .mateSwaps false
  | .mateHbLoss => counterField .mateHbLoss false
  | .mateLinkLoss => counterField .mateLinkLoss false
  | .mateFrameUnusable => counterField .mateFrameUnusable false
  | .mateCmpTicks => counterField .mateCmpTicks false
  | .mateCmpMismatch => counterField .mateCmpMismatch false
  | .mateDiscrepancies => counterField .mateDiscrepancies false
  | .mateMirrored => counterField .mateMirrored false
  | .mateUnmirrored => counterField .mateUnmirrored false
  | .mateMirrorGaps => counterField .mateMirrorGaps false
  | .mateResyncs => counterField .mateResyncs false
  | .matePromoteUnsynced => counterField .matePromoteUnsynced false
  | .eccStatus => [
      ⟨F.eccStatusTrimLost, .w1c, 0, false⟩, ⟨F.eccStatusPersist, .ro, 0, false⟩, ⟨F.eccStatusTrackFull, .w1c, 0, false⟩,
      ⟨F.eccStatusTestFail, .w1c, 0, false⟩, ⟨F.eccStatusHard, .w1c, 0, false⟩, ⟨F.eccStatusUe, .w1c, 0, false⟩]
  | .eccLastUe => [
      ⟨F.eccLastUeTick, .ro, 0, false⟩, ⟨F.eccLastUeAddr, .ro, 0, false⟩]
  | .eccTrackCfg => [
      ⟨F.eccTrackCfgThreshold, .rw, 16, true⟩]
  | .eccTestCfg => [
      ⟨F.eccTestCfgInterval, .rw, 16200000, true⟩, ⟨F.eccTestCfgNow, .wo, 0, true⟩, ⟨F.eccTestCfgEn, .rw, 1, true⟩]
  | .eccTestStatus => [
      ⟨F.eccTestStatusStep, .ro, 0, false⟩, ⟨F.eccTestStatusBusy, .ro, 0, false⟩, ⟨F.eccTestStatusLastFail, .ro, 0, false⟩]
  | .eccScrubCmd => [
      ⟨F.eccScrubCmdAbort, .wo, 0, false⟩, ⟨F.eccScrubCmdStart, .wo, 0, false⟩, ⟨F.eccScrubCmdMode, .rw, 0, false⟩,
      ⟨F.eccScrubCmdBankCount, .rw, 0, false⟩, ⟨F.eccScrubCmdBankFirst, .rw, 0, false⟩, ⟨F.eccScrubCmdMem, .rw, 0, false⟩]
  | .eccScrubStatus => [
      ⟨F.eccScrubStatusListed, .ro, 0, false⟩, ⟨F.eccScrubStatusErr, .ro, 0, false⟩, ⟨F.eccScrubStatusDone, .ro, 0, false⟩,
      ⟨F.eccScrubStatusBusy, .ro, 0, false⟩]
  | .eccScrubSum => [
      ⟨F.eccScrubSumValue, .ro, 0, false⟩]
  | .eccScrubUe => [
      ⟨F.eccScrubUeTick, .ro, 0, false⟩, ⟨F.eccScrubUeAddr, .ro, 0, false⟩]
  | .eccTrack => [
      ⟨F.eccTrackBit, .ro, 0, false⟩, ⟨F.eccTrackState, .ro, 0, false⟩, ⟨F.eccTrackCount, .ro, 0, false⟩,
      ⟨F.eccTrackAddr, .ro, 0, false⟩]
  | .eccFuseCmd => [
      ⟨F.eccFuseCmdBurn, .wo, 0, true⟩, ⟨F.eccFuseCmdEntry, .rw, 0, true⟩]
  | .eccFuseStatus => [
      ⟨F.eccFuseStatusFieldUsed, .ro, 0, false⟩, ⟨F.eccFuseStatusResult, .ro, 0, false⟩, ⟨F.eccFuseStatusBusy, .ro, 0, false⟩]
  | .eccSoft => [
      ⟨F.eccSoftValid, .ro, 0, false⟩, ⟨F.eccSoftEntry, .ro, 0, false⟩]
  | .eccCorr => counterField .eccCorr false
  | .eccUe => counterField .eccUe false
  | .eccPoison => counterField .eccPoison false
  | .eccTestFail => counterField .eccTestFail false
  | .eccTrackFull => counterField .eccTrackFull false
  | .eccWritebacks => counterField .eccWritebacks false
  | .eccRestores => counterField .eccRestores false
  | .eccSumPoisonAll => counterField .eccSumPoisonAll false
  | .eccTestRegions => counterField .eccTestRegions false
  | .eccFuseBad => counterField .eccFuseBad false
  | .eccSoftNospare => counterField .eccSoftNospare false
  | .hbmRepairCmd => [
      ⟨F.hbmRepairCmdGo, .wo, 0, true⟩, ⟨F.hbmRepairCmdCand, .rw, 0, true⟩]
  | .hbmRepairStatus => [
      ⟨F.hbmRepairStatusResult, .ro, 0, false⟩, ⟨F.hbmRepairStatusBusy, .ro, 0, false⟩]
  | .hbmCand => [
      ⟨F.hbmCandTick, .ro, 0, false⟩, ⟨F.hbmCandValid, .ro, 0, false⟩, ⟨F.hbmCandRepaired, .ro, 0, false⟩,
      ⟨F.hbmCandRow, .ro, 0, false⟩, ⟨F.hbmCandBank, .ro, 0, false⟩, ⟨F.hbmCandSid, .ro, 0, false⟩,
      ⟨F.hbmCandPc, .ro, 0, false⟩, ⟨F.hbmCandStack, .ro, 0, false⟩]
  | .hbmCe => counterField .hbmCe false
  | .hbmUe => counterField .hbmUe false
  | .hbmEcs => counterField .hbmEcs false
  | .busStatus => [
      ⟨F.busStatusPeerResetBl, .w1c, 0, false⟩, ⟨F.busStatusPeerResetB, .w1c, 0, false⟩,
      ⟨F.busStatusPeerResetA, .w1c, 0, false⟩, ⟨F.busStatusSem0Holder, .ro, 0, false⟩, ⟨F.busStatusRecSem0, .ro, 0, false⟩,
      ⟨F.busStatusRecFatal, .ro, 0, false⟩, ⟨F.busStatusExpert, .ro, 0, false⟩]
  | .busBar2Base => [
      ⟨F.busBar2BaseBase, .rw, 0, false⟩]
  | .busPrio => [
      ⟨F.busPrioAge, .rw, 64, true⟩, ⟨F.busPrioLvlLogger, .rw, 2, true⟩, ⟨F.busPrioLvlTest, .rw, 3, true⟩,
      ⟨F.busPrioLvlBoot, .rw, 2, true⟩, ⟨F.busPrioLvlB, .rw, 1, true⟩, ⟨F.busPrioLvlA, .rw, 1, true⟩]
  | .busCollCfg => [
      ⟨F.busCollCfgWindow, .rw, 800, true⟩]
  | .busErrLast => [
      ⟨F.busErrLastValid, .rc, 0, false⟩, ⟨F.busErrLastCause, .ro, 0, false⟩, ⟨F.busErrLastWrite, .ro, 0, false⟩,
      ⟨F.busErrLastAddr, .ro, 0, false⟩]
  | .busCollLast => [
      ⟨F.busCollLastFirst, .ro, 0, false⟩, ⟨F.busCollLastSecond, .ro, 0, false⟩, ⟨F.busCollLastAddr, .ro, 0, false⟩]
  | .busScrOwn => [
      ⟨F.busScrOwnGiveTo, .rw, 0, false⟩, ⟨F.busScrOwnOp, .wo, 0, false⟩, ⟨F.busScrOwnOwner, .ro, 0, false⟩,
      ⟨F.busScrOwnState, .ro, 0, false⟩]
  | .busDbPend => [
      ⟨F.busDbPendPend, .w1c, 0, false⟩]
  | .busErrResp => counterField .busErrResp false
  | .busDefault => counterField .busDefault false
  | .busSplits => counterField .busSplits false
  | .busResets => counterField .busResets false
  | .busGrants => counterField .busGrants false
  | .busWait => counterField .busWait false
  | .busCollisions => counterField .busCollisions false
  | .busSemForced => counterField .busSemForced false
  | .busSemTaken => counterField .busSemTaken false
  | .sysBootStatus => [
      ⟨F.sysBootStatusActTick, .ro, 0, false⟩, ⟨F.sysBootStatusFail, .ro, 0, false⟩, ⟨F.sysBootStatusStep, .ro, 0, false⟩,
      ⟨F.sysBootStatusBValid, .ro, 0, false⟩, ⟨F.sysBootStatusAValid, .ro, 0, false⟩, ⟨F.sysBootStatusFallback, .ro, 0, false⟩,
      ⟨F.sysBootStatusImage, .ro, 0, false⟩, ⟨F.sysBootStatusImageSel, .ro, 0, false⟩, ⟨F.sysBootStatusMode, .ro, 0, false⟩,
      ⟨F.sysBootStatusPhase, .ro, 0, false⟩]
  | .sysBootCmd => [
      ⟨F.sysBootCmdRun, .wo, 0, true⟩]
  | .sysBistStatus => [
      ⟨F.sysBistStatusFailedBanks, .ro, 0, false⟩, ⟨F.sysBistStatusOtherLogic, .ro, 0, false⟩,
      ⟨F.sysBistStatusSumUnit, .ro, 0, false⟩, ⟨F.sysBistStatusFirstBank, .ro, 0, false⟩]
  | .sysFuncState => [
      ⟨F.sysFuncStateSince, .ro, 0, false⟩, ⟨F.sysFuncStateLastStop, .ro, 0, false⟩, ⟨F.sysFuncStateEnable, .ro, 0, false⟩,
      ⟨F.sysFuncStateStopReq, .ro, 0, false⟩, ⟨F.sysFuncStatePending, .ro, 0, false⟩, ⟨F.sysFuncStateState, .ro, 0, false⟩]
  | .sysFuncStarts => counterField .sysFuncStarts false
  | .nvmInfo => [
      ⟨F.nvmInfoSizeMib, .ro, 0, false⟩, ⟨F.nvmInfoReady, .ro, 0, false⟩]
  | .nvmCmd => [
      ⟨F.nvmCmdOp, .wo, 0, false⟩, ⟨F.nvmCmdLen, .rw, 0, false⟩, ⟨F.nvmCmdAddr, .rw, 0, false⟩]
  | .nvmStatus => [
      ⟨F.nvmStatusResult, .ro, 0, false⟩, ⟨F.nvmStatusBusy, .ro, 0, false⟩]
  | .nvmPrograms => counterField .nvmPrograms false
  | .nvmErases => counterField .nvmErases false
  | .nvmVerifyFail => counterField .nvmVerifyFail false
  | .pmCtrl => [
      ⟨F.pmCtrlSnapTick, .rw, 0, false⟩, ⟨F.pmCtrlSnapArm, .rw, 0, false⟩, ⟨F.pmCtrlSnap, .wo, 0, false⟩,
      ⟨F.pmCtrlAuto, .rw, 1, false⟩]
  | .pmSnapStatus => [
      ⟨F.pmSnapStatusTick, .ro, 0, false⟩, ⟨F.pmSnapStatusSeq, .ro, 0, false⟩]
  | .pmBwCfg => [
      ⟨F.pmBwCfgWindow, .rw, 4800, false⟩]
  | .pmBwLast => [
      ⟨F.pmBwLastEndTick, .ro, 0, false⟩, ⟨F.pmBwLastLength, .ro, 0, false⟩, ⟨F.pmBwLastSeq, .ro, 0, false⟩]
  | .pmLinkState => [
      ⟨F.pmLinkStateFeErrTicks, .ro, 0, false⟩, ⟨F.pmLinkStateErrTicks, .ro, 0, false⟩, ⟨F.pmLinkStateFeSesRun, .ro, 0, false⟩,
      ⟨F.pmLinkStateFeOkRun, .ro, 0, false⟩, ⟨F.pmLinkStateSesRun, .ro, 0, false⟩, ⟨F.pmLinkStateOkRun, .ro, 0, false⟩,
      ⟨F.pmLinkStateFeUnavail, .ro, 0, false⟩, ⟨F.pmLinkStateUnavail, .ro, 0, false⟩]
  | .pmGroupState => [
      ⟨F.pmGroupStateErrTicks, .ro, 0, false⟩, ⟨F.pmGroupStateSesRun, .ro, 0, false⟩, ⟨F.pmGroupStateOkRun, .ro, 0, false⟩,
      ⟨F.pmGroupStateUnavail, .ro, 0, false⟩]
  | .pmMateState => [
      ⟨F.pmMateStateErrTicks, .ro, 0, false⟩, ⟨F.pmMateStateSesRun, .ro, 0, false⟩, ⟨F.pmMateStateOkRun, .ro, 0, false⟩,
      ⟨F.pmMateStateUnavail, .ro, 0, false⟩]
  | .pmBwLinkIn => [
      ⟨F.pmBwLinkInValue, .ro, 0, false⟩]
  | .pmBwLinkOut => [
      ⟨F.pmBwLinkOutValue, .ro, 0, false⟩]
  | .pmBwHostWr => [
      ⟨F.pmBwHostWrValue, .ro, 0, false⟩]
  | .pmBwHostRd => [
      ⟨F.pmBwHostRdValue, .ro, 0, false⟩]
  | .pmBwHostReq => [
      ⟨F.pmBwHostReqValue, .ro, 0, false⟩]
  | .pmBwHbmWr => [
      ⟨F.pmBwHbmWrValue, .ro, 0, false⟩]
  | .pmBwHbmRd => [
      ⟨F.pmBwHbmRdValue, .ro, 0, false⟩]
  | .pmBwHbmPeak => [
      ⟨F.pmBwHbmPeakValue, .ro, 0, false⟩]
  | .pmBwBusBeats => [
      ⟨F.pmBwBusBeatsValue, .ro, 0, false⟩]
  | .pmBwBusWait => [
      ⟨F.pmBwBusWaitValue, .ro, 0, false⟩]
  | .pmSeconds => counterField .pmSeconds false
  | .pmSecondsCut => counterField .pmSecondsCut false
  | .pmSnapshots => counterField .pmSnapshots false
  | .pmSnapSkipped => counterField .pmSnapSkipped false
  | .pmEs => counterField .pmEs false
  | .pmSes => counterField .pmSes false
  | .pmUas => counterField .pmUas false
  | .pmFeEs => counterField .pmFeEs false
  | .pmFeSes => counterField .pmFeSes false
  | .pmFeUas => counterField .pmFeUas false
  | .pmGroupEs => counterField .pmGroupEs false
  | .pmGroupSes => counterField .pmGroupSes false
  | .pmGroupUas => counterField .pmGroupUas false
  | .pmMateEs => counterField .pmMateEs false
  | .pmMateSes => counterField .pmMateSes false
  | .pmMateUas => counterField .pmMateUas false
  | .logCtrl => [
      ⟨F.logCtrlFlush, .wo, 0, false⟩]
  | .logState => [
      ⟨F.logStateRseq, .ro, 0, false⟩, ⟨F.logStateNextPos, .ro, 0, false⟩, ⟨F.logStateStaged, .ro, 0, false⟩,
      ⟨F.logStateEvbStack, .ro, 0, false⟩, ⟨F.logStateEvbValid, .ro, 0, false⟩, ⟨F.logStateHistoryBroken, .ro, 0, false⟩,
      ⟨F.logStateFirst, .ro, 0, false⟩, ⟨F.logStateStoring, .ro, 0, false⟩, ⟨F.logStateReady, .ro, 0, false⟩]
  | .logEvbBase => [
      ⟨F.logEvbBaseBase, .ro, 0, false⟩]
  | .logEvbEntries => counterField .logEvbEntries false
  | .logDropped => counterField .logDropped false
  | .logEvbLost => counterField .logEvbLost false
  | .logEntries => counterField .logEntries false
  | .logStores => counterField .logStores false
  | .logStoreFail => counterField .logStoreFail false
  | .sysId => [
      ⟨F.sysIdDeviceId, .ro, 16680, false⟩, ⟨F.sysIdVendorId, .ro, 7516, false⟩, ⟨F.sysIdStepping, .ro, 0, false⟩,
      ⟨F.sysIdPart, .ro, 16680, false⟩]
  | .sysPciId => [
      ⟨F.sysPciIdClass, .ro, 557056, false⟩, ⟨F.sysPciIdRevision, .ro, 0, false⟩, ⟨F.sysPciIdSubsysId, .ro, 1, false⟩,
      ⟨F.sysPciIdSubsysVendor, .ro, 7516, false⟩]
  | .sysCtrl => [
      ⟨F.sysCtrlRemap, .rw, 0, true⟩]
  | .sysTemp => [
      ⟨F.sysTempValid, .ro, 0, false⟩, ⟨F.sysTempTjMax, .rc, 0, false⟩, ⟨F.sysTempTj, .ro, 0, false⟩]
  | .sysTempCfg => [
      ⟨F.sysTempCfgLimit, .rw, 840, false⟩]
  | .hbmCfg => [
      ⟨F.hbmCfgRate, .rw, 0, true⟩]
  | .hbmState => [
      ⟨F.hbmStateInitDone, .ro, 0, false⟩, ⟨F.hbmStateAt8g, .ro, 0, false⟩]
  | .sysAlmSummary => [
      ⟨F.sysAlmSummaryFatal, .ro, 0, false⟩, ⟨F.sysAlmSummaryAlarmNLow, .ro, 0, false⟩,
      ⟨F.sysAlmSummaryLatched, .ro, 0, false⟩, ⟨F.sysAlmSummaryActive, .ro, 0, false⟩]
  | .sysAlarmMask => [
      ⟨F.sysAlarmMaskMask, .rw, 0, false⟩]
  | .sysIntEn => [
      ⟨F.sysIntEnEn, .rw, 0, false⟩, ⟨F.sysIntEnEn0, .ro, 1, false⟩]
  | .sysIntBlk => [
      ⟨F.sysIntBlkBlk, .rw, 32767, false⟩]
  | .sysIntSrc => [
      ⟨F.sysIntSrcEvb, .w1c, 0, false⟩, ⟨F.sysIntSrcBwWindow, .w1c, 0, false⟩, ⟨F.sysIntSrcSnapshot, .w1c, 0, false⟩,
      ⟨F.sysIntSrcPmFinal, .w1c, 0, false⟩, ⟨F.sysIntSrcWriteErr, .w1c, 0, false⟩, ⟨F.sysIntSrcPeerReset, .ro, 0, false⟩,
      ⟨F.sysIntSrcDoorbell, .ro, 0, false⟩, ⟨F.sysIntSrcCleared, .w1c, 0, false⟩, ⟨F.sysIntSrcInfo, .w1c, 0, false⟩,
      ⟨F.sysIntSrcMinor, .w1c, 0, false⟩, ⟨F.sysIntSrcMajor, .w1c, 0, false⟩, ⟨F.sysIntSrcFatal, .w1c, 0, false⟩]
  | .sysIntPend => [
      ⟨F.sysIntPendPin, .ro, 0, false⟩, ⟨F.sysIntPendPend, .ro, 0, false⟩]

/-- Whether the register is an event counter (00 R8, 14 Table 14-1). -/
def Reg.isCounter : Reg → Bool
  | .lanePrbsErr | .lanePrbsBits | .laneBringupTry | .laneBringupTimeout | .laneUpLoss | .laneAdaptMsgErr
  | .laneAdaptStep | .laneAdaptReject | .laneAdaptFrozen | .laneAdaptTimeout | .linkFramesGood | .linkFramesDoubtful
  | .linkFramesBad | .linkFramesAbsent | .linkHdrErr | .linkTypeErr | .linkOvhCrcErr | .linkPayCrcErr
  | .linkJcCorrected | .linkFmErr | .linkOofEntry | .linkLofEntry | .linkLolEntry | .linkTickJump | .linkTickSubst
  | .linkReiRx | .linkProtMsgErr | .linkMboxErr | .linkUserErr | .linkUserFwdDrop | .linkDiscordEntry
  | .linkJustRange | .linkWiringEntry | .lagElasticOvf | .lagReadLate | .lagPageFail | .lagStackLoss | .lagReleased
  | .lagMissing | .lagLate | .lagEarly | .lagRepeat | .lagPageBad | .lagMarginLow | .protRxReserved
  | .protRxUnmatched | .protSelP | .protSelS | .protSwitch | .protNoGood | .protBothAbsent | .protDiffer
  | .protCmdRefused | .coreOverrunSlots | .coreClashReads | .corePostClash | .coreResvMirror | .coreResvCtrl
  | .coreResvScrub | .coreResvTest | .coreResvAudit | .coreTicks | .almEpochs | .almEpochMissed | .almCheckReject
  | .almStageFail | .almAuditPasses | .almAuditMismatch | .almTrims | .timSwitches | .timHoldoverEntry
  | .timFreerunEntry | .timDisputes | .timExchOk | .timExchFail | .timDcoClamp | .timRefDisq | .matePromotions
  | .mateDemotions | .mateSwaps | .mateHbLoss | .mateLinkLoss | .mateFrameUnusable | .mateCmpTicks | .mateCmpMismatch
  | .mateDiscrepancies | .mateMirrored | .mateUnmirrored | .mateMirrorGaps | .mateResyncs | .matePromoteUnsynced
  | .eccCorr | .eccUe | .eccPoison | .eccTestFail | .eccTrackFull | .eccWritebacks | .eccRestores | .eccSumPoisonAll
  | .eccTestRegions | .eccFuseBad | .eccSoftNospare | .hbmCe | .hbmUe | .hbmEcs | .busErrResp | .busDefault
  | .busSplits | .busResets | .busGrants | .busWait | .busCollisions | .busSemForced | .busSemTaken | .sysFuncStarts
  | .nvmPrograms | .nvmErases | .nvmVerifyFail | .pmSeconds | .pmSecondsCut | .pmSnapshots | .pmSnapSkipped | .pmEs
  | .pmSes | .pmUas | .pmFeEs | .pmFeSes | .pmFeUas | .pmGroupEs | .pmGroupSes | .pmGroupUas | .pmMateEs | .pmMateSes
  | .pmMateUas | .logEvbEntries | .logDropped | .logEvbLost | .logEntries | .logStores | .logStoreFail => true
  | _ => false

/-- Every register, in the order of the field tables. -/
def Reg.all : List Reg := [
  .laneCtrl, .laneState, .laneSkew, .laneTxfirPreset, .laneTxfir, .laneAdaptCfg, .lanePrbsCtrl, .laneScanCtrl,
  .laneScanGrid, .laneScanStatus, .lanePrbsErr, .lanePrbsBits, .laneBringupTry, .laneBringupTimeout, .laneUpLoss,
  .laneAdaptMsgErr, .laneAdaptStep, .laneAdaptReject, .laneAdaptFrozen, .laneAdaptTimeout, .linkCtrl, .linkState,
  .linkRxTick, .linkRxJust, .linkTxJust, .linkIdentRxSetid, .linkIdentRxDieid, .linkIdentRxInfo, .linkIdentRxArmed,
  .linkMboxCtrl, .linkUserCtrl, .linkFramesGood, .linkFramesDoubtful, .linkFramesBad, .linkFramesAbsent, .linkHdrErr,
  .linkTypeErr, .linkOvhCrcErr, .linkPayCrcErr, .linkJcCorrected, .linkFmErr, .linkOofEntry, .linkLofEntry,
  .linkLolEntry, .linkTickJump, .linkTickSubst, .linkReiRx, .linkProtMsgErr, .linkMboxErr, .linkUserErr,
  .linkUserFwdDrop, .linkDiscordEntry, .linkJustRange, .linkWiringEntry, .lagStackCmd, .lagState, .lagStackCfg,
  .lagLinkCfg, .lagArrLast, .lagArrMax, .lagArrMin, .lagLinkState, .lagElasticOvf, .lagReadLate, .lagPageFail,
  .lagStackLoss, .lagReleased, .lagMissing, .lagLate, .lagEarly, .lagRepeat, .lagPageBad, .lagMarginLow,
  .protGroupCfg, .protGroupCmd, .protGroupState, .protBridgeCfg, .protRxGroup, .protRxBridge, .protRxReserved,
  .protRxUnmatched, .protSelP, .protSelS, .protSwitch, .protNoGood, .protBothAbsent, .protDiffer, .protCmdRefused,
  .coreStatus, .coreStationDis, .coreSumCount, .coreSlack, .coreTapCtrl, .coreTapData, .coreTapTick,
  .coreOverrunSlots, .coreClashReads, .corePostClash, .coreResvMirror, .coreResvCtrl, .coreResvScrub, .coreResvTest,
  .coreResvAudit, .coreTicks, .almState, .almActiveSetid, .almActiveInfo, .almSlotCmd, .almSlotStatus, .almArm,
  .almArmCmd, .almArmed, .almTrimCmd, .almTrimStatus, .almAuditCtrl, .almAuditStatus, .almVouched, .almArmDis,
  .almEpochs, .almEpochMissed, .almCheckReject, .almStageFail, .almAuditPasses, .almAuditMismatch, .almTrims,
  .timState, .timTick, .timCfg, .timSlope, .timAdoptCfg, .timRefCfg, .timRefState, .timPhase, .timDco, .timHold,
  .timCmd, .timAdoptStatus, .timAdoptNum, .timOutCfg, .timSwitches, .timHoldoverEntry, .timFreerunEntry,
  .timDisputes, .timExchOk, .timExchFail, .timDcoClamp, .timRefDisq, .mateCfg, .mateState, .mateCmd, .mateResync,
  .mateWatchLost, .mateWatch, .matePromotions, .mateDemotions, .mateSwaps, .mateHbLoss, .mateLinkLoss,
  .mateFrameUnusable, .mateCmpTicks, .mateCmpMismatch, .mateDiscrepancies, .mateMirrored, .mateUnmirrored,
  .mateMirrorGaps, .mateResyncs, .matePromoteUnsynced, .eccStatus, .eccLastUe, .eccTrackCfg, .eccTestCfg,
  .eccTestStatus, .eccScrubCmd, .eccScrubStatus, .eccScrubSum, .eccScrubUe, .eccTrack, .eccFuseCmd, .eccFuseStatus,
  .eccSoft, .eccCorr, .eccUe, .eccPoison, .eccTestFail, .eccTrackFull, .eccWritebacks, .eccRestores,
  .eccSumPoisonAll, .eccTestRegions, .eccFuseBad, .eccSoftNospare, .hbmRepairCmd, .hbmRepairStatus, .hbmCand, .hbmCe,
  .hbmUe, .hbmEcs, .busStatus, .busBar2Base, .busPrio, .busCollCfg, .busErrLast, .busCollLast, .busScrOwn,
  .busDbPend, .busErrResp, .busDefault, .busSplits, .busResets, .busGrants, .busWait, .busCollisions, .busSemForced,
  .busSemTaken, .sysBootStatus, .sysBootCmd, .sysBistStatus, .sysFuncState, .sysFuncStarts, .nvmInfo, .nvmCmd,
  .nvmStatus, .nvmPrograms, .nvmErases, .nvmVerifyFail, .pmCtrl, .pmSnapStatus, .pmBwCfg, .pmBwLast, .pmLinkState,
  .pmGroupState, .pmMateState, .pmBwLinkIn, .pmBwLinkOut, .pmBwHostWr, .pmBwHostRd, .pmBwHostReq, .pmBwHbmWr,
  .pmBwHbmRd, .pmBwHbmPeak, .pmBwBusBeats, .pmBwBusWait, .pmSeconds, .pmSecondsCut, .pmSnapshots, .pmSnapSkipped,
  .pmEs, .pmSes, .pmUas, .pmFeEs, .pmFeSes, .pmFeUas, .pmGroupEs, .pmGroupSes, .pmGroupUas, .pmMateEs, .pmMateSes,
  .pmMateUas, .logCtrl, .logState, .logEvbBase, .logEvbEntries, .logDropped, .logEvbLost, .logEntries, .logStores,
  .logStoreFail, .sysId, .sysPciId, .sysCtrl, .sysTemp, .sysTempCfg, .hbmCfg, .hbmState, .sysAlmSummary,
  .sysAlarmMask, .sysIntEn, .sysIntBlk, .sysIntSrc, .sysIntPend]

/-- The register word after reset: every field at the reset value of its table (15 R379). -/
def Reg.reset (r : Reg) : Word :=
  BitVec.ofNat 64 (r.fields.foldl (fun acc f => acc + f.reset * 2 ^ f.field.lo) 0)

end Sys2Proof.Machine
end

