-- ==== Sys2Proof/Machine/State.lean ====
section
/-! DEFINITION. The state of the block as plain data, what it is right after reset, and the reasons a step can stop.
Software-visible register words stand in `State.regs`; each structure below holds what the chapters give a block beyond them. -/

namespace Sys2Proof.Machine

/-- An addressed memory: (address, byte) pairs, addresses strictly rising, no entry equal to what an unlisted address reads as. -/
abbrev Memory := List Host.Cell

/-! ### Serial lanes and quads (02) -/

/-- A quad's bring-up machine beside LANE_STATE: ticks in the present state (02 Table 02-7), what a write has asked for at the next tick
edge (R43, R46, R47), and an eye scan's points taken and entries (R40, R41). -/
structure QuadH where
  ticks : Nat := 0
  restart : Bool := false
  reloop : Bool := false
  toTest : Bool := false
  leaveTest : Bool := false
  scanTaken : Nat := 0
  scanOut : Tbl (BitVec 32) := []
  deriving DecidableEq, Repr

/-- What a receiver asks of the far transmitter: codes of REQ_PRE, REQ_MAIN, REQ_POST (02 Table 02-4). -/
structure FirReq where
  pre : Nat := 0
  main : Nat := 0
  post : Nat := 0
  deriving DecidableEq, Repr

/-- One lane's adaptation (02 R30 to R37).  Transmitter half: last decided REQ_SEQ, status codes, the request received and not yet decided,
whether bring-up values are latched.  Receiver half: the request being sent, whether it awaits its acknowledgement and for how many ticks, the
increment a MAIN decrement makes room for, hold decisions in a row, ticks since a good message, ticks in TRAIN, FROZEN, ticks
of the running interval and whether any of them did not qualify, and whether the far transmitter is taken as fixed. -/
structure LaneH where
  ackSeq : Nat := 0
  stPre : Nat := 0
  stMain : Nat := 0
  stPost : Nat := 0
  pendReq : Option (BitVec 32) := none
  latched : Bool := false
  reqSeq : Nat := 0
  req : FirReq := {}
  waiting : Bool := false
  waited : Nat := 0
  rejected : Option FirReq := none
  freeing : Bool := false
  retried : Bool := false
  holds : Nat := 0
  silence : Nat := 0
  train : Nat := 0
  frozen : Bool := false
  interval : Nat := 0
  unqualified : Bool := false
  fixedFar : Bool := false
  deriving DecidableEq, Repr

/-! ### Ubath links (03) -/

/-- A candidate of frame alignment: block number of its FM, stamp and the spacing it announces (03 R69). -/
structure FaCand where
  block : Nat
  stamp : BitVec 32
  gap : Nat
  deriving DecidableEq, Repr

/-- What the lag store did with a delivered frame at FM arrival (04 R89, R95): it will never release the stamp, or has no place for it any more;
rows 1, 2 and 3 of Table 04-2; lost to write-buffer overflow; row 4. -/
inductive Admit
  | unstored | late | early | repeated | overflowed | written
  deriving DecidableEq, Repr

/-- The frame being received: stamp taken, whether E was substituted, whether every payload position brought a valid data block, the payload's
PCRC, its F offset, what the lag store did with it, and whether it has been counted late (03 R70, R71; 04 R86 to R89). -/
structure RxFrameH where
  stamp : BitVec 32
  subst : Bool
  allValid : Bool
  whole : Bool
  pcrc : BitVec 32
  offsetF : Int
  taken : Admit
  missed : Bool
  deriving DecidableEq, Repr

/-- One IDENT page kept for assembly: stamp, EPOCH_LO and data (03 R75). -/
structure IdentPage where
  stamp : BitVec 32
  epochLo : BitVec 4
  data : BitVec 32
  deriving DecidableEq, Repr

/-- A PRBS checker (02 R39): bits of its seed taken so far, its reference's last 31 bits (newest lowest), error-free bits since the seed, whether it
is locked, and which of the last 64 checked bits were errored (newest lowest). -/
structure PrbsH where
  seeded : Nat := 0
  ref : BitVec 31 := 0
  run : Nat := 0
  locked : Bool := false
  errs : BitVec 64 := 0
  deriving DecidableEq, Repr

/-- A link receiver beside LINK_STATE: block lock search and window (03 R68), descrambler (R53), frame alignment (R69), the frame being received,
whether the tick in progress brought a verdict, one other than GOOD, a far REI (14 Table 14-4), defect runs (R72, R76), IDENT assembly (R75, R77)
and the lane's PRBS checker (02 R39). -/
structure RxH where
  validRun : Nat := 0
  bitPos : Nat := 0
  winBlocks : Nat := 0
  winBad : Nat := 0
  descr : BitVec 58 := 0
  blocks : Nat := 0
  recent : List Block := []
  cands : List FaCand := []
  pos : Nat := 0
  missedFm : Nat := 0
  kNext : Nat := 0
  kCur : Nat := 0
  kAnn : Nat := 0
  fresh : Bool := false
  expected : BitVec 32 := 0
  frame : Option RxFrameH := none
  verdictTick : Bool := false
  verdictBad : Bool := false
  reiTick : Bool := false
  typeErr : Bool := false
  typeErrRun : Nat := 0
  typeCleanRun : Nat := 0
  losClear : Nat := 0
  oofRun : Nat := 0
  syncRun : Nat := 0
  rdi1Run : Nat := 0
  rdi0Run : Nat := 0
  discRun : Nat := 0
  agreeRun : Nat := 0
  armDisRun : Nat := 0
  armOkRun : Nat := 0
  pages : Tbl IdentPage := []
  identTaken : Bool := false
  prbs : PrbsH := {}
  deriving DecidableEq, Repr

/-- A mailbox or user-channel content: SEQ, LEN, message bytes (03 R78). -/
structure Mail where
  seq : BitVec 8 := 0
  len : BitVec 8 := 0
  body : List Byte := []
  deriving DecidableEq, Repr

/-- A frame as sent: its overhead and payload words in order (an unlisted payload word is 0), stuff count, stamp, and the scrambler before its first
block (03 R53, R55). -/
structure TxFrame where
  stamp : BitVec 32
  overhead : List Word
  payload : Tbl Word
  payloadBlocks : Nat
  stuff : Nat
  scrambler : BitVec 58
  deriving DecidableEq, Repr

/-- A link transmitter: whether its first frame is due and whether it has been sent (03 R57), the next frame's start offset, also before it is taken
into its own tick, with 16 fractional bits, the local tick in which it begins, its stuff count and whether that was clamped (R65, R66), the PCRC of
the last payload, the scrambler (R53), unreported errored verdicts (R74), the copies of the mailbox and the user channel and whether a control write
waits for its copy (R80), the user channel's present content and the forwarded message last found too long (R81), the last frame sent with the local
tick in which it began and whether its payload was withheld, the PRBS generator's last 31 bits (02 R38), and how far a near-end loop has brought the
stream back to the receiver: blocks since that frame's first, and the scrambler before the next of them (02 R44). -/
structure TxH where
  due : Bool := false
  started : Bool := false
  phi : Int := 0
  raw : Int := 0
  next : Nat := 0
  kNext : Nat := 0
  clamped : Bool := false
  pcrc : BitVec 32 := 0
  scrambler : BitVec 58 := 0
  rei : Nat := 0
  mbox : Mail := {}
  mboxWritten : Bool := false
  user : Mail := {}
  userWritten : Bool := false
  chan : Mail := {}
  dropped : Option Mail := none
  sent : Option TxFrame := none
  sentAt : Nat := 0
  withheld : Bool := false
  spoiled : Bool := false
  prbs : BitVec 31 := 0
  loopPos : Nat := 0
  loopScr : BitVec 58 := 0
  deriving DecidableEq, Repr

/-- One link: receiver, transmitter, the four buffers of 03 Table 03-11. -/
structure LinkH where
  rx : RxH := {}
  tx : TxH := {}
  mboxTx : Tbl Byte := []
  mboxRx : Tbl Byte := []
  userTx : Tbl Byte := []
  userRx : Tbl Byte := []
  userMail : Mail := {}
  deriving DecidableEq, Repr

/-! ### The lag store (04) -/

/-- How far a frame written to the lag store got: still arriving, complete, cut off in its payload, or left incomplete under row 5 (04 R89). -/
inductive SlotState
  | writing | complete | cut | incomplete
  deriving DecidableEq, Repr

/-- A frame written at a ring position since that was last released or cleared: its stamp, how far it got, and the CRCs of its pages taken as they
were written (04 R89, R94). -/
structure SlotMark where
  stamp : BitVec 32
  state : SlotState
  crcs : List (BitVec 32)
  deriving DecidableEq, Repr

/-- A short-store frame's checks, held on chip (04 R96). -/
structure ShortDesc where
  stamp : BitVec 32
  verdict : Nat
  pages : Nat
  crcs : List (BitVec 32)
  deriving DecidableEq, Repr

/-- Fallback of a link whose stack is lost (04 R100, R101): lag, first and last stamp it stores, as local ticks (see LagLinkH). -/
structure Fallback where
  lag : Nat
  first : Nat
  last : Option Nat
  deriving DecidableEq, Repr

/-- One ingress link in the lag store: the mode, lag and generation in force (R98), the first stamp it releases as a local tick (the count of
local ticks at which its tick number is or would be current, so that a renumbering does not move it), its fallback, and the runs of R88, R90. -/
structure LagLinkH where
  mode : Nat := 0
  lag : Nat := 0
  gen : Nat := 0
  first : Option Nat := none
  fb : Option Fallback := none
  slots : Tbl SlotMark := []
  marginRun : Nat := 0
  lateStamps : Nat := 0
  lateLast : BitVec 32 := 0
  onTimeRun : Nat := 0
  rangeRun : Nat := 0
  okRun : Nat := 0
  deriving DecidableEq, Repr

/-- What one release hands to the selector: verdict, payload words, how many words are valid and the pages that failed (04 R85). -/
structure Release where
  verdict : Nat := 3
  words : Tbl Word := []
  valid : Nat := 0
  badPages : List Nat := []
  deriving DecidableEq, Repr

/-- The lag store: payload words of the HBM ring by `r * 128 + L`, of the short store likewise, short-store checks, each stack's local tick of
loss, whether its links have entered fallback, its local ticks with a page failure, newest first (R99), and the local tick in which its restore began
(R101). -/
structure LagH where
  links : Tbl LagLinkH := []
  ring : Tbl (Tbl Word) := []
  short : Tbl (Tbl Word) := []
  shortDesc : Tbl ShortDesc := []
  lossTick : Tbl Nat := []
  fallbackDone : Tbl Bool := []
  failTicks : Tbl (List Nat) := []
  restoreTick : Tbl Nat := []
  deriving DecidableEq, Repr

/-! ### Protection (05) -/

/-- One copy of a protection group: runs of R110, window count of R111, SF and SD at the end of the tick before (R112). -/
structure CopyH where
  badRun : Nat := 0
  goodRun : Nat := 0
  sdCount : Nat := 0
  deriving DecidableEq, Repr

/-- One protection group: settings in force, copies, ticks of WTR run, digest runs (R109), the command that governs selection from the next tick
(R114), commands that await a reset's judgement, those judged in the tick in progress with how many of them were refused and CMD and LAST_RESULT
before them (R114), and the command in force, CODE and PARAM[2:0] at the end of the last tick (R118). -/
structure GroupH where
  pLink : Nat := 0
  sLink : Nat := 0
  en : Bool := false
  p : CopyH := {}
  s : CopyH := {}
  wtrRan : Nat := 0
  wasBad : Bool := false
  differRun : Nat := 0
  equalRun : Nat := 0
  govern : Nat := 0
  waiting : List Nat := []
  judged : List Nat := []
  refused : Nat := 0
  cmdWas : Nat := 0
  resultWas : Nat := 0
  lastCmd : Nat := 0
  lastCode : Nat := 0
  lastParam : Nat := 0
  deriving DecidableEq, Repr

/-- Protection: groups, bridges' configuration as the emit stage has it in force and as their messages have (R117, R118), tick of each leg's last
message (R120); whether the SD window in progress is whole, and the length in ticks of a window that has ended and is not yet judged (0: none;
R111). -/
structure ProtH where
  groups : Tbl GroupH := []
  bridges : Tbl Word := []
  legs : Tbl Word := []
  rxTick : Tbl Nat := []
  sdWhole : Bool := false
  sdEnded : Nat := 0
  deriving DecidableEq, Repr

/-! ### The switching core and the mixer (06, 07) -/

/-- One link's rows of a frame-memory group: words 0 to `valid - 1` as written, but for the pages that failed; every other word holds the
poison pattern (06 R126 to R128). -/
structure FrameImg where
  valid : Nat := 0
  words : Tbl Word := []
  badPages : List Nat := []
  deriving DecidableEq, Repr

/-- A sum buffer: sums, sori marked poisoned, and whether all of it is (06 R131 to R135; 11 R287). -/
structure SumBuf where
  sums : Tbl (BitVec 56) := []
  poison : Tbl Bool := []
  allPoison : Bool := false
  deriving DecidableEq, Repr

/-- An up-converter's state: history H_0 to H_15, newest first, and the tag of H_0's input (07 R174). -/
structure UpState where
  hist : List (BitVec 24) := []
  valid : Bool := false
  talk : Bool := false
  user : BitVec 4 := 0
  deriving DecidableEq, Repr

/-- A down-converter's state: partial sums, next output first, LAST_IN, LAST_VALID (07 Table 07-12), and the tag of the value last fed
(R177). -/
structure DownState where
  partials : List Int := []
  lastIn : BitVec 24 := 0
  lastValid : Bool := false
  lastTalk : Bool := false
  lastUser : BitVec 4 := 0
  deriving DecidableEq, Repr

/-- A write applied to an active table word in the tick in progress: the cycle, the word's index, the bits it writes and their values, what the
word held before it in the order of cycles (06 R145), and the bits of it that were upset. -/
structure TableEdit where
  cycle : Nat
  index : Nat
  mask : BitVec 80
  bits : BitVec 80
  old : BitVec 80
  flips : List Nat
  deriving DecidableEq, Repr

/-- An egress-ring word that no station has written: two slots of SILENCE (DESIGN CHOICE, log entry 8). -/
abbrev silentPair : Word := 0x0000008000000080#64

/-- The core's memories: three frame-memory groups by `128 g + L`, bridge outputs by group, two sum buffers, egress rings by link, the active and
shadow halves of the emit and sum tables, converters by number (configuration as bits [415:384] of 07 Table 07-11), coefficient sets by `48 set + k`
as the up- and down-converters use them, the shadow configuration and coefficients, digests by link, ranks written by link in the last ticks (newest
first), failed stations, the tick's table edits by cycle, the local ticks of the writes that wait to clear the overrun and the clash (R146), and the
control reserved cycles used in the tick in progress (R148). -/
structure CoreH where
  frames : Tbl FrameImg := []
  bridge : Tbl (Tbl (BitVec 32)) := []
  sums : Tbl SumBuf := []
  rings : Tbl (Tbl Word) := []
  emit : Tbl (BitVec 80) := []
  emitShadow : Tbl (BitVec 80) := []
  emitHalf : Bool := false
  terms : Tbl Word := []
  termShadow : Tbl Word := []
  sumHalf : Bool := false
  upCfg : Tbl (BitVec 32) := []
  up : Tbl UpState := []
  down : Tbl DownState := []
  coefUp : Tbl (BitVec 18) := []
  coefDown : Tbl (BitVec 18) := []
  upShadow : Tbl (BitVec 32) := []
  coefShadow : Tbl (BitVec 18) := []
  digests : Tbl (BitVec 32) := []
  ranks : List (Tbl Nat) := []
  failedStation : Tbl Bool := []
  emitEdits : List TableEdit := []
  termEdits : List TableEdit := []
  overrunClear : List Nat := []
  clashClear : List Nat := []
  lateThisTick : Bool := false
  clashThisTick : Bool := false
  ctrlUsed : List Nat := []
  deriving DecidableEq, Repr

/-- Ticks: how many local tick edges have begun since reset, whether one has, the numbers of the two ticks before (the groups they
used), integrity events of the tick in progress by kind (10 R263), whether the tick has stopped, and whether what is done now falls at the end of
the tick that the last edge closed. -/
structure TickH where
  begun : Bool := false
  n : Nat := 0
  prev1 : BitVec 32 := 0
  prev2 : BitVec 32 := 0
  events : List Nat := []
  stopped : Bool := false
  closing : Bool := false
  deriving DecidableEq, Repr

/-! ### Monitoring, interrupts and the logbook (14, 15) -/

/-- An event entry (14 Table 14-6). -/
structure LogEntry where
  tick : BitVec 32
  code : Nat
  sev : Nat
  flags : Nat
  p0 : Word
  p1 : Word
  p2 : Word
  deriving DecidableEq, Repr

/-- The logbook's running totals (14 Table 14-8). -/
structure LogTotals where
  powerUps : Nat := 0
  opSeconds : Nat := 0
  tempHist : Tbl Nat := []
  tstateHist : Tbl Nat := []
  roleHist : Tbl Nat := []
  ue : Nat := 0
  corr : Nat := 0
  epochs : Nat := 0
  promotions : Nat := 0
  majors : Nat := 0
  minors : Nat := 0
  bootFails : Nat := 0
  cands : List (BitVec 32 × Nat) := []
  candFull : Bool := false
  deriving DecidableEq, Repr

/-- The event logger: entries waiting for a share, the two staging records, totals, store causes pending, when the last store started, the
record being stored as entries and as bytes and how often it failed, the next RSEQ, whether the event buffer has to move, and how many of the next
entries the queue loses to an uncorrectable error (14 R369 to R372; 11 Table 11-4). -/
structure LogH where
  queue : List LogEntry := []
  stage : List LogEntry := []
  stage2 : List LogEntry := []
  totals : LogTotals := {}
  causes : List Nat := []
  lastStore : Option Nat := none
  storing : List LogEntry := []
  storeCause : Nat := 0
  attempts : Nat := 0
  firstFlags : Nat := 0
  record : List Byte := []
  nextRseq : BitVec 32 := 0
  move : Bool := false
  spoiled : Nat := 0
  deriving DecidableEq, Repr

/-- One host port: what its configuration space holds (12 R308, 15 R392) and its MSI-X vectors (14 R367): link trained, MSI-X enabled,
function masked, bus master enabled, D3hot, the address words written to its base address registers, the uncorrectable-error status of advanced
error reporting, table words by `2 v` (address) and `2 v + 1` (data, vector control), pending bits, the PEND bits
last seen, and for each vector how many messages it has sent. -/
structure IrqH where
  up : Bool := false
  msix : Bool := false
  fnMask : Bool := false
  busMaster : Bool := false
  d3hot : Bool := false
  bars : Tbl (BitVec 32) := []
  aer : BitVec 32 := 0
  table : Tbl Word := []
  pba : Nat := 0
  seen : Nat := 0
  sent : Tbl Nat := []
  deriving DecidableEq, Repr

/-- One monitored entity's second and availability (14 R360 to R363): errored ticks, a defect seen, out of service seen, runs of SES and of
non-SES, whether it is unavailable, and the classes of the seconds not yet final, oldest first. -/
structure PmEntity where
  errs : Nat := 0
  defect : Bool := false
  outOfService : Bool := false
  nearDefect : Bool := false
  sesRun : Nat := 0
  okRun : Nat := 0
  unavail : Bool := false
  waiting : List Nat := []
  deriving DecidableEq, Repr

/-- Performance monitoring: entities (links near 0 to 127, links far 128 to 255, groups 256 to 319, mate 320), the second in progress, snapshot
state (14 R357, R358: the registers as captured, the local tick after the last one due), how many seconds are not yet final, and bandwidth meters
accumulating by `256 * register + instance` (R359). -/
structure PmH where
  ents : Tbl PmEntity := []
  secStart : Option Nat := none
  snapReq : Bool := false
  snapSeq : Nat := 0
  snapPending : Option (BitVec 32 × Nat) := none
  snapRegs : Tbl (Tbl Word) := []
  snapAt : Nat := 0
  waiting : Nat := 0
  meters : Tbl Nat := []
  bwLen : Nat := 0
  bwOn : Bool := false
  deriving DecidableEq, Repr

/-! ### What a reset leaves alone (11, 13) -/

/-- eFuses and flash: die identifier (15 Table 15-14; its value is the die's own, DESIGN CHOICE 1, log entry 5), factory and field fuse maps
(11 R299), flash size in MiB (none: no readable flash) and flash bytes, an unlisted byte reading 0xFF as erased (13 R340; log entry 6); and the
SRAM cells that are stuck at a value, by address word (11 R294, R299: which they are is the die's own, none at first, log entry 5). -/
structure NonVol where
  dieId : Word := 1
  factory : Tbl (BitVec 32) := []
  fieldMap : Tbl (BitVec 32) := []
  flashMiB : Option Nat := none
  flash : Tbl Byte := []
  stuck : Tbl (List (Nat × Bool)) := []
  deriving DecidableEq, Repr

/-! ### Start-up (13) and the test port (16) -/

/-- Boot modes (13 R337). -/
inductive BootMode
  | autonomous | hosted | test
  deriving DecidableEq, Repr

/-- Start-up beside SYS_BOOT_STATUS: the mode in force, whether RST_N has risen, preludes P1 to P3 ended (13 R338, R349), stacks whose P4
initialisation has ended, whether the device is unusable (R339), whether the loader has tried its fallback and the index of its list's first
LOAD_IMAGE (R344), whether it has run, the slots it has loaded and the one it boots from, the index of its present step and whether it has been
fetched, the local tick in which the present step began, whether that is an ACTIVATE that waits for its swap, and the functions whose enable or
disable waits for a tick edge (R351); and whether TJ_MAX has not been measured since its last read (15 R385). -/
structure BootH where
  mode : BootMode := .autonomous
  risen : Bool := false
  p2 : Bool := false
  p3 : Bool := false
  p4 : Nat := 0
  unusable : Bool := false
  fallbackTried : Bool := false
  firstLoad : Option Nat := none
  ran : Bool := false
  slots : List Nat := []
  bootSlot : Nat := 0
  step : Nat := 0
  fetched : Bool := false
  since : Nat := 0
  activating : Bool := false
  want : Tbl Bool := []
  stop : Tbl Bool := []
  tjRead : Bool := true
  deriving DecidableEq, Repr

/-- The NVM block beside its registers: buffer bytes, the command running, as (OP, ADDR, LEN), and the bytes it programs (13 R354). -/
structure NvmH where
  buf : Tbl Byte := []
  cmd : Option (Nat × Nat × Nat) := none
  data : List Byte := []
  deriving DecidableEq, Repr

/-- The test port: the instruction in force and the word its data register shows (16 R397). -/
structure JtagH where
  instr : JtagInstr := .idcode
  shown : Nat := 0
  deriving DecidableEq, Repr

/-! ### The lichen pair (10) -/

/-- A mirrored write: MSEQ, apply tick u, byte enables, address, data (10 R267). -/
structure MirrorRec where
  mseq : BitVec 32
  u : BitVec 32
  be : BitVec 8
  addr : Nat
  data : Word
  deriving DecidableEq, Repr

/-- A resynchronisation record: REGION, INDEX, read tick v, data (10 R272). -/
structure ResyncRec where
  region : Nat
  index : Nat
  v : BitVec 32
  data : BitVec 80
  deriving DecidableEq, Repr

/-- What this unit put into its own M0 frame: stamp, valid digests, digests and ranks by link (10 R247). -/
structure OwnFrame where
  stamp : BitVec 32
  valid : BitVec 128
  digests : Tbl (BitVec 32)
  ranks : Tbl Nat
  deriving DecidableEq, Repr

/-- The mate block beside its registers. Records: own next MSEQ, records accepted in the tick in progress, those sent as new in its frame and in the
frame before, writes that wait for admission, own and mate's records not yet applied, the mate's next MSEQ, and the (u, address) of records applied
lately, table records left over from earlier ticks, and the local ticks after those in which mirrored and resynchronisation records were last
applied, with the control cycles and words the latter took (R267, R268, R273). Frames: the M0 frame being received and the usable one not yet read,
as stamp and payload words, whether a usable frame came this tick, status words of consecutive usable frames newest first, payload and stamp of the
last usable frame, ticks without and usable frames in a row, own frames newest first; the M1 payload being received. Heartbeat: (tick, period) of
the last edge as periods since reset, ticks without a missed edge, a loss to be classified since a local tick (R251, R257), a simultaneous loss to
be settled, whether the own one has stopped, mate lanes idle. Roles: ticks of JOIN_WAIT run, role change due as (role, WITHHELD) with the local tick
it was decided in, role 3 standing for R258 (R252). Comparison: stamps of mismatching frames in a row, frames without mismatch, BLAME (R262, R263),
own and mate's integrity events by stamp of the tick, compared stamps whose ranks differ. Watches: for each watch, the local ticks after which a
message last showed PARAM bit 0 and bit 1 (R259), whether this junior is ACTIVE on their evidence (R258). Resynchronisation: flat number of the next
record the ACTIVE sends and those it has read for the next frame, records received and not yet applied, whether one is wanted, whether it runs,
matching frames and ticks in SETTLING (R271 to R274), whether the pair has been joined before, ticks since the ACTIVE last sent records, whether a
gap has ended the join (R268). -/
structure MateH where
  rank : Bool := false
  mseq : BitVec 32 := 0
  fresh : List MirrorRec := []
  news : List MirrorRec := []
  rep : List MirrorRec := []
  waiting : List MirrorRec := []
  own : List MirrorRec := []
  theirs : List MirrorRec := []
  nextTheirs : Option (BitVec 32) := none
  recent : List (BitVec 32 × Nat) := []
  left : List MirrorRec := []
  mirrorAt : Nat := 0
  syncTick : Nat := 0
  syncTook : List (Nat × Nat) := []
  frame : Option (BitVec 32 × Tbl Word) := none
  ready : Option (BitVec 32 × Tbl Word) := none
  usableNow : Bool := false
  status : List Nat := []
  view : Tbl Word := []
  viewStamp : BitVec 32 := 0
  absentRun : Nat := 0
  usableRun : Nat := 0
  sent : List OwnFrame := []
  m1 : Tbl Word := []
  hbEdge : Nat := 0
  hbCleanTicks : Nat := 0
  hbMissedNow : Bool := false
  hbClassify : Option Nat := none
  simultaneous : Bool := false
  hbStopped : Bool := false
  idle : Bool := false
  joinTicks : Nat := 0
  change : Option (Nat × Bool) := none
  changeAt : Nat := 0
  badRun : List (BitVec 32) := []
  cleanRun : Nat := 0
  blame : Bool := false
  ownEvents : List (BitVec 32 × Nat) := []
  mateEvents : List (BitVec 32 × Nat) := []
  rankDiff : List (BitVec 32) := []
  watch : Tbl (Nat × Nat) := []
  evidence : Bool := false
  syncAt : Option Nat := none
  syncOut : List ResyncRec := []
  syncIn : List ResyncRec := []
  syncWanted : Bool := false
  syncing : Bool := false
  settled : Nat := 0
  settling : Nat := 0
  wasJoined : Bool := false
  sinceRun : Nat := 0
  gapped : Bool := false
  deriving DecidableEq, Repr


/-! ### Almanacs (08) -/

/-- An image's header fields (08 Table 08-1). -/
structure AlmHead where
  version : Nat := 0
  setid : Word := 0
  pred : Word := 0
  epoch : BitVec 32 := 0
  device : Nat := 0
  nextSlot : Nat := 0xFF
  nextGap : Nat := 0
  headerCrc : BitVec 32 := 0
  deriving DecidableEq, Repr

/-- What an almanac brings beside the emit, sum, converter and coefficient tables: header, quad and link words of WIRING, register records,
trim map as (term, entry), digests by region (08 R185 to R188). -/
structure AlmImg where
  head : AlmHead := {}
  quads : Tbl (BitVec 32) := []
  links : Tbl Word := []
  regs : List (Nat × Word) := []
  trims : List (Nat × Nat) := []
  digests : Tbl (BitVec 32) := []
  deriving DecidableEq, Repr

/-- A trim that waits: KIND, INDEX, GAIN, and the tick u at which it may be applied first (08 R205, R206). -/
structure Trim where
  output : Bool
  index : Nat
  gain : Nat
  u : BitVec 32
  deriving DecidableEq, Repr

/-- A table-window access that waits for a reserved cycle: master, byte address, the bytes it writes (none: not enabled), or how many it reads (0: it
writes) and where they go in what the master's read returns (12 R318). -/
structure WindowWrite where
  master : Master
  addr : Nat
  data : List (Option Byte)
  read : Nat := 0
  place : Nat := 0
  deriving DecidableEq, Repr

/-- Almanacs beside the ALM registers: shadow and active image; the slot under CHECK with the local tick since which it runs, and that of a running
staging; whether that staging was chained, whether the armed epoch waives the PRED and EPOCH checks, the SETID held before the last swap and the
slot active before it, that swap's local tick e, whether it follows NEXT_SLOT (08 R202, 13 R345) and how many of its steps have been taken; trims
with the local tick after the last one applied; waiting table-window accesses; the local tick at which the audit's pass began; and by link the last
two SETID assemblies, newest first, as twice the local tick plus 1 where it matched (08 R208). -/
structure AlmH where
  shadow : AlmImg := {}
  active : AlmImg := {}
  checking : Option (Nat × Nat) := none
  staging : Option Nat := none
  chain : Bool := false
  waived : Bool := false
  oldSetid : Word := 0
  oldSlot : Nat := 0
  swapTick : Nat := 0
  follow : Bool := false
  swapStage : Nat := 0
  trims : List Trim := []
  trimAt : Nat := 0
  window : List WindowWrite := []
  auditSince : Option Nat := none
  vouch : Tbl (List Nat) := []
  deriving DecidableEq, Repr

/-! ### Memory integrity (11) -/

/-- A running scrub pass: local tick at which it began, class, first bank, banks, CORRECT; by bank the words read so far, and the corrected word
that waits for its write-back, as its number plus 1 (11 R297). -/
structure ScrubRun where
  since : Nat
  mem : Nat
  first : Nat
  count : Nat
  correct : Bool
  done : Tbl Nat := []
  fixes : Tbl Nat := []
  deriving DecidableEq, Repr

/-- Integrity beside the ECC and HBM registers: upset code-word bits by address word, and cells stuck at a value by address word (R299); for each
tracker entry the local tick of its last count plus 1 and of its write-back, and the entries whose write-back has read its word and not yet written
it (R290); the local tick after the last restore; words to be restored with the local tick of detection; words that wait for a full-word write; the
local tick of a NOW write, plus 1, the ticks since the last step began, the running step's local tick and its number (R292 to R295); the scrub pass;
the reserved cycles with j mod 8 = 2 that restores, write-backs and scrub took in the tick in progress, by bank (06 R144); the fuse entry and repair
candidate under way; the local tick at which a page of an HBM row first failed, plus 1 (R303); HBM words of 32 bytes that read with an uncorrected
error, by their number on the control bus (R302); and the local tick after the last reading of the stacks' scrub counts (R302). -/
structure EccH where
  damage : Tbl (List Nat) := []
  stuck : Tbl (List (Nat × Bool)) := []
  counted : Tbl Nat := []
  written : Tbl Nat := []
  writeback : List (Nat × Nat) := []
  restoredAt : Nat := 0
  restores : List (Nat × Nat) := []
  persist : List Nat := []
  testNow : Nat := 0
  testWait : Nat := 0
  testSince : Option Nat := none
  testRegion : Nat := 0
  scrub : Option ScrubRun := none
  busy : Tbl Nat := []
  burn : Option (BitVec 32) := none
  repair : Option Nat := none
  rowFails : Tbl Nat := []
  hbmBad : List Nat := []
  ecsAt : Nat := 0
  deriving DecidableEq, Repr

/-! ### Timing (09) -/

/-- A reference's qualification (09 R219): the local tick since which it has been good, PPS pulses in their windows in a row, the predicted
time of its next event in sixteenths of a core cycle of local time, events missing in a row, local ticks with an event outside its window,
whether it has not yet qualified since reset or a change of its configuration, the local tick at which it began to restore, its last phase
sample, whether it was disqualified and whether it was selected in the second in progress (R227), whether WTR counts since its last entry to
qualification (R221), and the measurements that FREQ is taken over, as (local tick, ppt), newest first (R220). -/
structure RefH where
  since : Nat := 0
  pulses : Nat := 0
  next : Option Int := none
  missed : Nat := 0
  outs : List Nat := []
  fresh : Bool := true
  restoreAt : Nat := 0
  phase : Option Int := none
  dqSecond : Bool := false
  used : Bool := false
  waiting : Bool := false
  freqs : List (Nat × Int) := []
  deriving DecidableEq, Repr

/-- A timing message accepted on a link: stamp of its frame, message bytes, arrival g of its FM, TX_PHASE in units, and the tick number of the
local edge before it (09 R234, R235). -/
structure TimMsg where
  stamp : Nat
  body : List Byte
  g : Nat
  phi : Nat
  edge : Nat
  deriving DecidableEq, Repr

/-- Exchanges on a link (09 R235).  Prober: last ID, local tick since which a probe is out, local tick of the last start, stamps and TX_PHASE of the
frames that carried it.  Responder: last ID answered, the REPORT and how many more frames carry it.  The message that has come and is not
yet taken, the delay of the last success, exchanges failed in a row, the local tick after the last success, NUMBERED and HOPS of the last
REPORT (Table 09-3). -/
structure ExchH where
  id : Nat := 0
  since : Option Nat := none
  started : Option Nat := none
  phis : List (Nat × Nat) := []
  answered : Nat := 0
  report : List Byte := []
  left : Nat := 0
  inbox : Option TimMsg := none
  delay : Option Int := none
  fails : Nat := 0
  okAt : Nat := 0
  last : Option (Bool × Nat) := none
  deriving DecidableEq, Repr

/-- An adoption due at the next tick edge: num, psi, the responder's HOPS, the local tick in which the exchange ended (09 R237). -/
structure Adoption where
  num : Nat
  psi : Int
  hops : Nat
  since : Nat
  deriving DecidableEq, Repr

/-- The timing block beside its registers: references, exchanges by link, the commands that take effect at the next tick edge as (OP, REF), what is
forced, whether ADOPT's exchange is wanted, the offset last written, an adoption due, the adoption slew left (units times 2,000), the loop's
integral (ppt times 2^66, R225), the state entered with nothing selected (FREERUN or HOLDOVER, R228), whether MANUAL steered at the last edge
(R229), runs of exchange results (R239), tick edges without dispute, ticks without clamping, the second in progress (sum of OFFSET, ticks, usable),
the one just ended, the history as (local tick of its end, mean where usable), newest first (R227), the local tick of the first activation, whether
ADOPT_WAIT has ended, and each output's position (0.25 ns divided by 12,000, R232). -/
structure TimH where
  refs : Tbl RefH := []
  exch : Tbl ExchH := []
  cmd : List (Nat × Nat) := []
  forced : Option Nat := none
  hold : Bool := false
  adoptCmd : Bool := false
  target : Int := 0
  adopt : Option Adoption := none
  slew : Int := 0
  integ : Int := 0
  under : Nat := 0
  manual : Bool := false
  numBad : Nat := 0
  numOk : Nat := 0
  skewBad : Nat := 0
  skewOk : Nat := 0
  agreed : Nat := 0
  unclamped : Nat := 0
  secSum : Int := 0
  secTicks : Nat := 0
  secUsable : Bool := true
  secDone : Option (Nat × Option Int) := none
  hist : List (Nat × Option Int) := []
  firstActive : Option Nat := none
  waitDone : Bool := false
  outPos : Tbl Int := []
  deriving DecidableEq, Repr

/-! ### The bus matrix (12) -/

/-- A burst that waits at a target: its master, the target, byte address, length in bytes, the bytes written (none: not enabled), whether it writes,
whether it is its transfer's first, how often it has been passed over (12 R316, R317). -/
structure BusReq where
  master : Master
  target : Nat
  addr : Nat
  len : Nat
  data : List (Option Byte)
  write : Bool
  first : Bool
  passes : Nat
  deriving DecidableEq, Repr

/-- What a master's last read returned: whether every access of it was answered without an error, and the bytes (the model's own field, so that
what a read returns can be stated; log entry 13). -/
structure Answer where
  ok : Bool := false
  data : List Byte := []
  deriving DecidableEq, Repr

/-- The control bus beside the BUS registers: scratch words by `8192 n + word`, holders of semaphores and the tick numbers at which they were last
taken, each master's last ARM and the last write of each scratch word and table-window entry as (master, time) for the collision window, times in
thirds of a bus cycle plus 1 (12 R326 to R328), bursts waiting in order, the master granted last at each target, last answers by master. -/
structure BusH where
  scratch : Tbl Word := []
  semOwner : Tbl Nat := []
  semTick : Tbl Nat := []
  armed : Tbl Nat := []
  wrote : Tbl (Nat × Nat) := []
  waiting : List BusReq := []
  lastGrant : Tbl Nat := []
  answers : Tbl Answer := []
  deriving DecidableEq, Repr

/-- The state of the block. -/
structure State where
  /-- every register of the map, by register and instance; a register not listed holds its reset value -/
  regs : Tbl (Tbl Word) := []
  /-- the commands waiting, first in, first out -/
  pending : List Instr := []
  /-- how many free values the steps have taken so far (the model's own) -/
  free : Nat := 0
  /-- ticks (06 R123) -/
  tick : TickH := {}
  /-- quads 0 to 31 and 32, the mate quad (02) -/
  quads : Tbl QuadH := []
  /-- lanes by link number, 128 + i for the mate's (02 R30 to R37) -/
  lanes : Tbl LaneH := []
  /-- links 0 to 127, M0 and M1 as 128 and 129 (03) -/
  links : Tbl LinkH := []
  /-- the lag store (04) -/
  lag : LagH := {}
  /-- protection (05) -/
  prot : ProtH := {}
  /-- the switching core and the rate bridge (06, 07) -/
  core : CoreH := {}
  /-- ACT bits by alarm number (15 R387) -/
  act : Tbl (BitVec 256) := []
  /-- LATCH bits by alarm number (15 R387) -/
  latch : Tbl (BitVec 256) := []
  /-- MSI-X of host ports A (1) and B (2) (15 R392) -/
  irqs : Tbl IrqH := []
  /-- the event logger and the logbook (14) -/
  log : LogH := {}
  /-- performance monitoring, snapshots and meters (14) -/
  pm : PmH := {}
  /-- HBM outside the lag ring, by control-bus address (04 R91); an unlisted byte reads 0 -/
  hbm : Memory := []
  /-- what eFuses and flash hold over a reset (11 R299, 13 R340) -/
  nv : NonVol := {}
  /-- start-up (13) -/
  boot : BootH := {}
  /-- the NVM block (13 R354) -/
  nvm : NvmH := {}
  /-- the test port (16 R397) -/
  jtag : JtagH := {}
  /-- the lichen pair (10) -/
  mate : MateH := {}
  /-- almanacs (08) -/
  alm : AlmH := {}
  /-- memory integrity (11) -/
  ecc : EccH := {}
  /-- timing (09) -/
  tim : TimH := {}
  /-- the control bus (12) -/
  bus : BusH := {}
  deriving DecidableEq, Repr

/-- The block right after reset: every register at the value of its field table, nothing listed in any memory, no command waiting. -/
def State.reset : State := {}

/-- Why a step stops with a fault. -/
inductive Fault
  /-- Raised by JTAG_INSTRUCTION with an instruction that takes the balls: 16 R397 calls traffic, heartbeat and host access undefined from
  then on.  Safe: nothing is claimed of what follows. -/
  | undefinedUnderTest
  deriving DecidableEq, Repr

/-- Why a step is refused. -/
inductive Refusal
  /-- Raised for a command that has no meaning in the model yet.  Safe: nothing is claimed of it. -/
  | notModelled (mnemonic : String)
  deriving DecidableEq, Repr

end Sys2Proof.Machine
end

