-- ==== Sys2Proof/Machine/Ops.lean ====
section
/-! DEFINITION. The operations every family shares: register fields, event counters, the blocks' own state, free values, HBM bytes, the
event log, alarms and the interrupt tree. -/

namespace Sys2Proof.Machine

/-- What a meaning answers. -/
abbrev Res := Host.Outcome State Fault Refusal

/-- `f` applied where `b` holds. -/
def State.when (s : State) (b : Bool) (f : State → State) : State := if b then f s else s

/-- `f` applied for every element of a list, in order. -/
def State.each {α : Type} (s : State) (l : List α) (f : α → State → State) : State := l.foldl (fun s x => f x s) s

/-- `f` applied for every index from 0 to `n - 1`, in rising order. -/
def State.eachN (s : State) (n : Nat) (f : Nat → State → State) : State := iter f 0 n s

/-! ### Registers (15 R378 to R381) -/

/-- The word of instance `i` of a register. -/
def State.word (s : State) (r : Reg) (i : Nat) : Word := Tbl.get r.reset (Tbl.get [] s.regs r.ctorIdx) i

/-- The word of instance `i` of a register set to `v`. -/
def State.setWord (s : State) (r : Reg) (i : Nat) (v : Word) : State :=
  { s with regs := Tbl.set [] s.regs r.ctorIdx (Tbl.set r.reset (Tbl.get [] s.regs r.ctorIdx) i v) }

/-- A word with bits `lo` to `lo + w - 1` replaced. -/
def putField (x lo w v : Nat) : Nat := x - field x lo w * 2 ^ lo + v % 2 ^ w * 2 ^ lo

/-- A field's value. -/
def State.rd (s : State) (f : Field) (i : Nat) : Nat := field (s.word f.reg i).toNat f.lo f.width

/-- A field set to a value's low bits. -/
def State.wr (s : State) (f : Field) (i : Nat) (v : Nat) : State :=
  s.setWord f.reg i (BitVec.ofNat 64 (putField (s.word f.reg i).toNat f.lo f.width v))

/-- A one-bit field read as a truth value. -/
def State.flag (s : State) (f : Field) (i : Nat) : Bool := s.rd f i = 1

/-- A one-bit field set from a truth value. -/
def State.setFlag (s : State) (f : Field) (i : Nat) (b : Bool) : State := s.wr f i (b2n b)

/-- Bit `k` of a field. -/
def State.rdBit (s : State) (f : Field) (i k : Nat) : Bool := bit (s.rd f i) k

/-- Bit `k` of a field set. -/
def State.wrBit (s : State) (f : Field) (i k : Nat) (b : Bool) : State := s.wr f i (setBit (s.rd f i) k b)

/-- A field read as a two's-complement number. -/
def State.rdS (s : State) (f : Field) (i : Nat) : Int := signed f.width (s.rd f i)

/-- A field set to the two's-complement code of a number. -/
def State.wrS (s : State) (f : Field) (i : Nat) (v : Int) : State := s.wr f i (unsigned f.width v)

/-- An event counter advanced by `n`, modulo 2^64 (00 R8). -/
def State.countBy (s : State) (r : Reg) (i n : Nat) : State := s.setWord r i (s.word r i + BitVec.ofNat 64 n)

/-- An event counter advanced by 1 (00 R8). -/
def State.count (s : State) (r : Reg) (i : Nat) : State := s.countBy r i 1

/-- The address of a register word: block base, instance base, offset (15 R378, Table 15-1; 10 R244 for the mate's copies). -/
def regAddr (r : Reg) (i : Nat) : Nat :=
  let p := r.place
  match p.block with
  | .link => if i < 128 then 0x1400000 + 0x4000 * i + p.off else 0x1034000 + 0x4000 * (i - 128) + p.off
  | .lane =>
    if p.count = 4 then
      if i < 128 then 0x1600000 + 0x4000 * (i / 4) + p.off + p.stride * (i % 4) else 0x103C000 + p.off + p.stride * (i - 128)
    else if i < 32 then 0x1600000 + 0x4000 * i + p.off else 0x103C000 + p.off
  | b => 0x1000000 + 0x10000 * b.ctorIdx + p.off + p.stride * i

/-! ### The blocks' own state -/

def State.quad (s : State) (q : Nat) : QuadH := Tbl.get {} s.quads q
def State.setQuad (s : State) (q : Nat) (v : QuadH) : State := { s with quads := Tbl.set {} s.quads q v }
def State.lane (s : State) (l : Nat) : LaneH := Tbl.get {} s.lanes l
def State.setLane (s : State) (l : Nat) (v : LaneH) : State := { s with lanes := Tbl.set {} s.lanes l v }
def State.link (s : State) (l : Nat) : LinkH := Tbl.get {} s.links l
def State.setLink (s : State) (l : Nat) (v : LinkH) : State := { s with links := Tbl.set {} s.links l v }
def State.rx (s : State) (l : Nat) : RxH := (s.link l).rx
def State.setRx (s : State) (l : Nat) (v : RxH) : State := s.setLink l { s.link l with rx := v }
def State.tx (s : State) (l : Nat) : TxH := (s.link l).tx
def State.setTx (s : State) (l : Nat) (v : TxH) : State := s.setLink l { s.link l with tx := v }
def State.lagLink (s : State) (l : Nat) : LagLinkH := Tbl.get {} s.lag.links l
def State.setLagLink (s : State) (l : Nat) (v : LagLinkH) : State :=
  { s with lag := { s.lag with links := Tbl.set {} s.lag.links l v } }
def State.group (s : State) (g : Nat) : GroupH := Tbl.get {} s.prot.groups g
def State.setGroup (s : State) (g : Nat) (v : GroupH) : State :=
  { s with prot := { s.prot with groups := Tbl.set {} s.prot.groups g v } }

/-- The free word a meaning takes for a value the spec leaves open, and the state that counts it (log entry 3). -/
def State.takeFree (s : State) : Word × State := (Config.freeWord s.free, { s with free := s.free + 1 })

/-! ### Ticks -/

/-- The tick number held now (09 R232, TIM_TICK). -/
def State.now (s : State) : Nat := s.rd F.timTickTick 0

/-- NUMBERED (09 R237). -/
def State.numbered (s : State) : Bool := s.flag F.timStateNumbered 0

/-- The difference `b - a` of tick numbers as a signed number (00 R5). -/
def tdiff (a b : Nat) : Int := signed 32 ((b + 2 ^ 32 - a % 2 ^ 32) % 2 ^ 32)

/-- A tick number moved by `d` (00 R5). -/
def tadd (a : Nat) (d : Int) : Nat := unsigned 32 ((a : Int) + d)

/-! ### HBM bytes outside the lag ring's payload (04 R91) -/

/-- The control-bus address of stack `k` (04 R91). -/
def stackBase (k : Nat) : Nat := 0x1000000000 + 0x600000000 * k

/-- The control-bus address of library slot `i` (08 R191). -/
def slotBase (i : Nat) : Nat := stackBase (i / 4) + 0x5E0000000 + 0x8000000 * (i % 4)

/-- A byte of a memory whose unlisted bytes read 0. -/
def memByte (m : Memory) (a : Nat) : Byte := Tbl.get 0 m a

/-- `bs` written from address `a` up. -/
def memWrite : List Byte → Nat → Memory → Memory
  | [], _, m => m
  | b :: bs, a, m => memWrite bs (a + 1) (Tbl.set 0 m a b)

/-- The `n` bytes from address `a` up. -/
def memRead (m : Memory) (a n : Nat) : List Byte := (List.range n).map fun j => memByte m (a + j)

/-! ### The interrupt tree (14 R367, 15 R391, R392) -/

/-- SYS_INT_SRC of port `m` (1 or 2), its two followed bits as their sources stand (15 Table 15-18). -/
def State.intSrc (s : State) (m : Nat) : Nat :=
  let w := (s.word .sysIntSrc m).toNat
  let peer := s.flag F.busStatusPeerResetBl 0 ||
    s.flag (if m = 1 then F.busStatusPeerResetB else F.busStatusPeerResetA) 0
  let bell := decide ((s.word .busDbPend m).toNat ≠ 0)
  putField (putField w 5 1 (b2n bell)) 6 1 (b2n peer)

/-- PEND of port `m`: sources and enables, bit by bit (15 R391). -/
def State.intPend (s : State) (m : Nat) : Nat := field (s.intSrc m &&& (s.word .sysIntEn m).toNat) 0 12

/-- Word `j` of a port's MSI-X table: address, or data with the vector control, whose mask bit is 1 after reset (15 R392 names the PCIe
specification; PRESUMED, log entry 10). -/
def IrqH.entry (p : IrqH) (j : Nat) : Word := Tbl.get (if j % 2 = 1 then 0x100000000 else 0) p.table j

/-- Whether vector `v` of a port may send now: MSI-X on, bus master on, power state D0, neither function nor vector masked (15 R392 names
the PCIe specification; PRESUMED, log entry 10). -/
def IrqH.maySend (p : IrqH) (v : Nat) : Bool :=
  p.msix && p.busMaster && !p.d3hot && !p.fnMask && !bit (p.entry (2 * v + 1)).toNat 32

/-- Vector `v` rises: one message, or its pending bit where it may not send. -/
def IrqH.rise (p : IrqH) (v : Nat) : IrqH :=
  if p.maySend v then { p with sent := Tbl.modify 0 p.sent v (· + 1) }
  else { p with pba := setBit p.pba v true }

/-- Pending bits of vectors that may send now are sent and cleared. -/
def IrqH.flush (p : IrqH) : IrqH :=
  iter (fun v p => if bit p.pba v && p.maySend v then
    { p with pba := setBit p.pba v false, sent := Tbl.modify 0 p.sent v (· + 1) } else p) 0 12 p

/-- The vectors brought up to the pending sources `pend`: a vector sends when it goes from no pending source to one (14 R367). -/
def IrqH.follow (p : IrqH) (pend : Nat) : IrqH :=
  let q := iter (fun v p =>
    if bit pend v && !bit p.seen v then p.rise v
    else if !bit pend v && bit p.seen v then { p with pba := setBit p.pba v false }
    else p) 0 12 p
  { q with seen := pend }

/-- Both ports' vectors brought up to their sources (14 R367). -/
def State.irqSync (s : State) : State :=
  let a := (Tbl.get {} s.irqs 1).follow (s.intPend 1)
  let b := (Tbl.get {} s.irqs 2).follow (s.intPend 2)
  { s with irqs := Tbl.set {} (Tbl.set {} s.irqs 1 a) 2 b }

/-- SRC bit `v` of port `m` latched (15 R391). -/
def State.setSrc (s : State) (m v : Nat) : State :=
  s.setWord .sysIntSrc m (BitVec.ofNat 64 (setBit (s.word .sysIntSrc m).toNat v true))

/-! ### Bandwidth meters (14 R359) -/

/-- Where a meter accumulates. -/
def meterKey (r : Reg) (i : Nat) : Nat := 256 * r.ctorIdx + i

/-- A meter's total in the window in progress advanced by `n`. -/
def State.meter (s : State) (r : Reg) (i n : Nat) : State :=
  if s.pm.bwOn then { s with pm := { s.pm with meters := Tbl.modify 0 s.pm.meters (meterKey r i) (· + n) } } else s

/-- A peak meter taken up to `n`. -/
def State.meterMax (s : State) (r : Reg) (i n : Nat) : State :=
  if s.pm.bwOn then { s with pm := { s.pm with meters := Tbl.modify 0 s.pm.meters (meterKey r i) (max n) } } else s

/-! ### The event log (14 R368 to R372) -/

/-- An entry's 32 bytes (14 Table 14-6). -/
def LogEntry.bytes (e : LogEntry) : List Byte :=
  toBytes 4 e.tick.toNat ++ toBytes 2 e.code ++ [BitVec.ofNat 8 e.sev, BitVec.ofNat 8 e.flags] ++
    toBytes 8 e.p0.toNat ++ toBytes 8 e.p1.toNat ++ toBytes 8 e.p2.toNat

/-- `n` bursts of master number `m`, of `beats` beats in all, granted by target `t`, which grants that master last of all now (12 R317). -/
def State.grantOf (s : State) (m t n beats : Nat) : State :=
  let s := (s.countBy .busGrants t n).meter .pmBwBusBeats t beats
  { s with bus := { s.bus with lastGrant := Tbl.set 0 s.bus.lastGrant t m } }

/-- The entry written at its place in the event buffer of stack `k`, a burst of the event logger's (14 R369; 12 R317). -/
def State.evbWrite (s : State) (k : Nat) (e : LogEntry) : State :=
  let n := (s.word .logEvbEntries 0).toNat
  let place := ((n + 2 ^ 64 - (s.word .logEvbBase 0).toNat) % 2 ^ 64) % 1048576
  let s := { s with hbm := memWrite e.bytes (stackBase k + 0x584000000 + 32 * place) s.hbm }
  let s := ((s.count .logEvbEntries 0).meter .pmBwHbmWr k 32).grantOf 5 (21 + k) 1 4
  if (n + 1) % 262144 = 0 then (s.setSrc 1 11).setSrc 2 11 else s

/-- An entry given to the event buffer: dropped and counted where the queue's word is bad (11 Table 11-4); written where a share is in use; lost where
every stack is lost; else it waits, 2,048 at most (14 R369; log entry 11). -/
def State.evbPut (s : State) (e : LogEntry) : State :=
  if s.log.spoiled ≠ 0 then
    let s := s.count .logDropped 0
    { s with log := { s.log with spoiled := s.log.spoiled - 1 } }
  else if s.flag F.logStateEvbValid 0 then s.evbWrite (s.rd F.logStateEvbStack 0) e
  else if s.rd F.lagStateStackLost 0 = 15 then s.count .logEvbLost 0
  else if s.log.queue.length < 2048 then { s with log := { s.log with queue := s.log.queue ++ [e] } }
  else s.count .logDropped 0

/-- STAGED as the staging records stand (14 Table 14-13). -/
def State.stagedSync (s : State) : State :=
  s.wr F.logStateStaged 0 (s.log.stage.length + s.log.stage2.length + s.log.storing.length)

/-- A cause to store the staged record: 0 full, 1 hourly, 2 urgent, 3 FLUSH (14 R372). -/
def State.storeCause (s : State) (c : Nat) : State :=
  if c ∈ s.log.causes then s else { s with log := { s.log with causes := s.log.causes ++ [c] } }

/-- An entry staged for the logbook: the first record takes 113, then the second; with both full it is dropped (14 R372). -/
def State.stage (s : State) (e : LogEntry) : State :=
  let s := s.count .logEntries 0
  if s.log.storing.isEmpty && decide (s.log.stage.length < 113) then
    let s := { s with log := { s.log with stage := s.log.stage ++ [e] } }
    (if s.log.stage.length = 113 then s.storeCause 0 else s).stagedSync
  else if s.log.stage2.length < 113 then
    ({ s with log := { s.log with stage2 := s.log.stage2 ++ [e] } }).stagedSync
  else s.count .logDropped 0

/-- Codes of 14 Table 14-7 whose logbook entry is urgent (14 R372); a fatal alarm's raise is urgent too. -/
def urgentCode (code sev : Nat) : Bool :=
  code = 0x0001 || code = 0x00F0 || code = 0x0020 || code = 0x0023 || (code = 0x0010 && sev = 4)

/-- What falls at the end of the tick that the last edge closed: its events carry that tick's number. -/
def State.atEnd (s : State) (f : State → State) : State :=
  let s := f { s with tick := { s.tick with closing := true } }
  { s with tick := { s.tick with closing := false } }

/-- The local tick that what is done now falls in. -/
def State.localNow (s : State) : Nat := if s.tick.closing then s.tick.n - 1 else s.tick.n

/-- An event recorded (14 R368), staged for the logbook where `book` says so. -/
def State.logEvent (s : State) (code sev : Nat) (p0 p1 p2 : Nat) (book : Bool) : State :=
  let e : LogEntry := ⟨if s.tick.closing then s.tick.prev1 else BitVec.ofNat 32 s.now, code, sev, b2n book + 2 * b2n (!s.numbered),
    BitVec.ofNat 64 p0, BitVec.ofNat 64 p1, BitVec.ofNat 64 p2⟩
  let s := s.evbPut e
  if book then
    let s := s.stage e
    if urgentCode code sev then s.storeCause 2 else s
  else s

/-! ### Alarms (14 R365, 15 R387 to R391) -/

/-- ACT bit of an instance. -/
def State.active (s : State) (a i : Nat) : Bool := (Tbl.get 0 s.act a).getLsbD i

/-- Whether any instance of a fatal alarm is ACTIVE (14 R366). -/
def State.fatal (s : State) : Bool :=
  s.active A.scheduleOverrun 0 || s.active A.bootFail 0 || s.active A.deviceUnusable 0

/-- BUS_STATUS brought up to the causes of recovery, an entry to recovery and an exit from it logged (12 R330). -/
def State.recoverySync (s : State) : State :=
  let holder := s.rd F.busStatusSem0Holder 0
  let was := s.flag F.busStatusRecFatal 0 || s.flag F.busStatusRecSem0 0
  let sem := holder = 1 || holder = 2
  let is := s.fatal || sem
  let s := (s.setFlag F.busStatusRecFatal 0 s.fatal).setFlag F.busStatusRecSem0 0 sem
  let s := s.setFlag F.busStatusExpert 0 (is || s.boot.mode != .autonomous)
  if was == is then s else s.logEvent 0x40 0 (s.word .busStatus 0).toNat 0 0 true

/-- P0 of an alarm's event entries (15 R389). -/
def alarmP0 (a : Nat) : Nat := a + alarmBlock a * 256

/-- SRC bit `v` of each port whose SYS_INT_BLK has the alarm's block bit at 1 (15 R391). -/
def State.srcBlk (s : State) (a v : Nat) : State :=
  s.eachN 2 fun j s => if s.rdBit F.sysIntBlkBlk (j + 1) (alarmBlock a) then s.setSrc (j + 1) v else s

/-- SRC vector of a raise of severity SEV (14 Table 14-5). -/
def raiseVector (sev : Nat) : Nat := if sev = 1 then 3 else if sev = 2 then 2 else 1

/-- Instance `i` of alarm `a` raised: ACT and LATCH set, the interrupt sources, the event and the running totals (14 R365; a raise of an
instance that is already ACTIVE changes nothing, log entry 12). -/
def State.raise (s : State) (a i : Nat) : State :=
  if s.active a i then s else
  let m : BitVec 256 := 1#256 <<< i
  let s := { s with act := Tbl.modify 0 s.act a (· ||| m), latch := Tbl.modify 0 s.latch a (· ||| m) }
  let sev := alarmSev a
  let s := if sev = 4 then (s.setSrc 1 0).setSrc 2 0 else s
  let s := s.srcBlk a (raiseVector sev)
  let t := s.log.totals
  let s := if sev ≥ 3 then { s with log := { s.log with totals := { t with majors := t.majors + 1 } } }
    else if sev = 2 then { s with log := { s.log with totals := { t with minors := t.minors + 1 } } } else s
  let s := s.logEvent 0x10 sev (alarmP0 a) i 0 (decide (sev ≥ 3))
  s.recoverySync.irqSync

/-- An occurrence whose every event is logged (06 R146): the alarm raised, and where it is ACTIVE already an entry of the raise's code that is no
logbook entry (DESIGN CHOICE, log entry 12: 14 Table 14-7 gives a repeated occurrence no code of its own). -/
def State.raiseEach (s : State) (a i : Nat) : State :=
  if s.active a i then s.logEvent 0x10 (alarmSev a) (alarmP0 a) i 0 false else s.raise a i

/-- Instance `i` of alarm `a` cleared: ACT cleared, the cleared source and the event (14 R365). -/
def State.clear (s : State) (a i : Nat) : State :=
  if s.active a i then
    let s := { s with act := Tbl.modify 0 s.act a (· &&& ~~~(1#256 <<< i)) }
    let s := s.srcBlk a 4
    let s := s.logEvent 0x11 (alarmSev a) (alarmP0 a) i 0 false
    s.recoverySync.irqSync
  else s

/-- An instance ACTIVE exactly where `b` holds. -/
def State.setAlarm (s : State) (a i : Nat) (b : Bool) : State := if b then s.raise a i else s.clear a i

/-! ### Access rules (12 R311, R330 to R332) -/

/-- A master's number m, 1 to 5 (12 Table 12-4). -/
def masterNum : Master → Nat
  | .hostA => 1 | .hostB => 2 | .boot => 3 | .test => 4 | .logger => 5

/-- Whether a master acts at expert level (12 R330). -/
def State.expert (s : State) (m : Master) : Bool :=
  match m with
  | .hostA | .hostB => s.flag F.busStatusExpert 0
  | _ => true

/-- Error causes of 12 Table 12-10. -/
inductive ErrCause
  | default | level | fence | owner | value | ue | size | unavailable
  deriving DecidableEq, Repr

/-- CAUSE code. -/
def ErrCause.code : ErrCause → Nat
  | .default => 1 | .level => 2 | .fence => 3 | .owner => 4 | .value => 5 | .ue => 6 | .size => 7 | .unavailable => 8

/-- The Completer Abort bit of the uncorrectable-error status (PRESUMED: its place is the PCIe specification's, log entry 10). -/
abbrev completerAbort : BitVec 32 := 0x8000

/-- A Completer Abort of host port number `m` logged by advanced error reporting (12 R308, R311). -/
def State.aerLog (s : State) (m : Nat) : State :=
  let h := Tbl.get {} s.irqs m
  { s with irqs := Tbl.set {} s.irqs m { h with aer := h.aer ||| completerAbort } }

/-- An error response to master `m`: counted, latched in its BUS_ERR_LAST with the address of the beat of 8 bytes it refused; a host port's
refused write raises its write-error source, and its refused read ends in a Completer Abort (12 R311, R313, Table 12-10). -/
def State.errResp (s : State) (m : Master) (addr : Nat) (write : Bool) (c : ErrCause) : State :=
  let i := masterNum m
  let s := s.count .busErrResp i
  let s := s.setWord .busErrLast i (BitVec.ofNat 64
    (addr / 8 * 8 % 2 ^ 40 + b2n write * 2 ^ 40 + c.code * 2 ^ 48 + 2 ^ 63))
  let s := if c = .default then s.count .busDefault i else s
  if i ≤ 2 then (if write then (s.setSrc i 7).irqSync else s.aerLog i) else s

/-- A write of register `r` by master `m` at expert level: refused with cause LEVEL at basic level (12 R331). -/
def State.expertOnly (s : State) (m : Master) (addr : Nat) (f : State → State) : State :=
  if s.expert m then f s else s.errResp m addr true .level

/-- A write refused with cause VALUE unless `ok` (12 R332). -/
def State.valueOnly (s : State) (m : Master) (addr : Nat) (ok : Bool) (f : State → State) : State :=
  if ok then f s else s.errResp m addr true .value

end Sys2Proof.Machine
end

