-- ==== Sys2Proof/Machine/Operands.lean ====
section
/-! DEFINITION. What the commands' operands and the registers name: links and their quads, generations and their sizes, stamps as local
ticks. -/

namespace Sys2Proof.Machine

/-- The quad of a link: 32 for the mate links (02, 15 R388). -/
def quadOf (l : Nat) : Nat := if l < 128 then l / 4 else 32

/-- The lane of a link within its quad. -/
def laneOf (l : Nat) : Nat := if l < 128 then l % 4 else l - 128

/-- The link on lane `i` of quad `q`. -/
def linkAt (q i : Nat) : Nat := if q < 32 then 4 * q + i else 128 + i

/-- How many data lanes a quad has: the mate quad has those of M0 and M1 (10 R244). -/
def lanesOf (q : Nat) : Nat := if q < 32 then 4 else 2

/-- The links of a quad, in lane order. -/
def linksOf (q : Nat) : List Nat := (List.range (lanesOf q)).map (linkAt q)

/-- Overhead blocks O of a frame (03 Table 03-2; 0 for an unused quad). -/
def genO : Nat → Nat
  | 1 => 16 | 2 => 32 | 3 => 64 | _ => 0

/-- Payload blocks P of a frame (03 Table 03-2). -/
def genP : Nat → Nat
  | 1 => 2048 | 2 => 4096 | 3 => 8192 | _ => 0

/-- K_base of a frame (03 Table 03-2). -/
def genK : Nat → Nat
  | 1 => 30 | 2 => 62 | 3 => 126 | _ => 0

/-- PROTECT, MGMT and USER blocks of a frame (03 Table 03-2). -/
def genProt : Nat → Nat
  | 1 => 1 | 2 => 2 | 3 => 4 | _ => 0
def genMgmt : Nat → Nat
  | 1 => 8 | 2 => 16 | 3 => 32 | _ => 0
def genUser : Nat → Nat
  | 1 => 3 | 2 => 10 | 3 => 24 | _ => 0

/-- Pages of a stored frame (04 R93, R96). -/
def genPages : Nat → Nat
  | 1 => 4 | 2 => 8 | 3 => 16 | _ => 0

/-- GEN of a link's quad (02 Table 02-9). -/
def State.gen (s : State) (l : Nat) : Nat := s.rd F.laneStateGen (quadOf l)

/-- QSTATE codes of 02 Table 02-7. -/
abbrev qOff : Nat := 0
abbrev qPll : Nat := 1
abbrev qClkacq : Nat := 2
abbrev qDeskew : Nat := 3
abbrev qAlign : Nat := 4
abbrev qUp : Nat := 5
abbrev qTest : Nat := 6
abbrev qWait : Nat := 7

/-- QSTATE of a quad. -/
def State.qstate (s : State) (q : Nat) : Nat := s.rd F.laneStateQstate q

/-- Whether a quad samples its lanes, so that blocks reach the receivers: ALIGN, UP and TEST (02 Table 02-7). -/
def State.samples (s : State) (q : Nat) : Bool :=
  s.qstate q = qAlign || s.qstate q = qUp || s.qstate q = qTest

/-- FA_STATE codes of 03 Table 03-9. -/
abbrev faHunt : Nat := 0
abbrev faPresync : Nat := 1
abbrev faSync : Nat := 2

/-- Whether a link's receiver is in SYNC (03 R69). -/
def State.inSync (s : State) (l : Nat) : Bool := s.rd F.linkStateFaState l = faSync

/-- Whether a bit of LANE_STATE's per-lane fields is set for a link. -/
def State.laneBit (s : State) (f : Field) (l : Nat) : Bool := s.rdBit f (quadOf l) (laneOf l)
def State.setLaneBit (s : State) (f : Field) (l : Nat) (b : Bool) : State := s.wrBit f (quadOf l) (laneOf l) b

/-- Verdict codes of 03 Table 03-9. -/
abbrev vGood : Nat := 0
abbrev vDoubtful : Nat := 1
abbrev vBad : Nat := 2
abbrev vAbsent : Nat := 3

/-- The local tick at which tick number `n` is or would be current (00 R5). -/
def State.localTick (s : State) (n : Nat) : Int := (s.tick.n : Int) + tdiff s.now n

/-- The ring position of a frame stamped `n` (04 R92). -/
def State.ringPos (s : State) (n : Nat) : Nat :=
  (((s.rd F.lagStateRingPos 0 : Int) + tdiff s.now n) % 11264).toNat

/-- Core cycles in a tick (06 R123). -/
abbrev cyclesPerTick : Nat := 31250

/-- `n` words whose value the spec leaves open (log entry 3). -/
def State.takeFreeWords : Nat → State → List Word × State
  | 0, s => ([], s)
  | n + 1, s =>
    let (w, s) := s.takeFree
    let (ws, s) := State.takeFreeWords n s
    (w :: ws, s)

end Sys2Proof.Machine
end

