-- ==== Sys2Proof/Machine/Integrity.lean ====
section
/-! DEFINITION. SRAM reads and writes under their codes (11): corrections and the tracker, uncorrectable errors, poison, what a full-word write
clears, and repair candidates. -/

namespace Sys2Proof.Machine

/-! ### Address words and classes (11 Tables 11-1, 11-2) -/

/-- A memory address word. -/
def eccAddr (mem bank word : Nat) : Nat := word + bank * 2 ^ 14 + mem * 2 ^ 24
def eccMem (a : Nat) : Nat := field a 24 4
def eccBank (a : Nat) : Nat := field a 14 10
def eccWord (a : Nat) : Nat := field a 0 14

/-- Banks of a class. -/
def classBanks : Nat → Nat
  | 0 => 256 | 1 => 256 | 2 => 768 | 3 => 128 | 4 => 96 | 5 => 58 | 6 => 16 | 7 => 128 | 8 => 8 | 9 => 8 | _ => 0

/-- Words of a bank of a class. -/
def bankWords (mem bank : Nat) : Nat :=
  match mem with
  | 0 => 16384 | 1 => 16384 | 4 => 256 | 6 => 8192 | 7 => 8192
  | 8 => if bank % 2 = 0 then 16384 else 8192
  | m => if m < 10 then 4096 else 0

/-- Whether the words of a class are static. -/
def classStatic (mem : Nat) : Bool := mem = 0 || mem = 1 || mem = 5 || mem = 6

/-- Code-word bits of a class. -/
def codeBits (mem : Nat) : Nat := if mem = 0 then 89 else 72

/-- Whether an address names a word of a class. -/
def addrOk (a : Nat) : Bool := decide (eccBank a < classBanks (eccMem a)) && decide (eccWord a < bankWords (eccMem a) (eccBank a))

/-! ### The transparent march (11 R292 to R295) -/

/-- Regions of a bank, and the region that step `st` tests in it. -/
def bankRegions (mem bank : Nat) : Nat := bankWords mem bank / 64
def stepRegion (st mem bank : Nat) : Nat := st % bankRegions mem bank

/-- Whether a word lies in the region under test in step `st`. -/
def underTest (st a : Nat) : Bool := addrOk a && decide (eccWord a / 64 = stepRegion st (eccMem a) (eccBank a))

/-- Accesses of a step, and how many fall in one tick (11 R294, Table 11-5). -/
abbrev marchLength : Nat := 704
abbrev marchPerTick : Nat := 61

/-- The reads of a region's word `w` that the march compares, by access number, and whether each expects the complement of what was saved: M1 to M4,
each followed by a write of the other, and Verify (11 Table 11-5). -/
def marchReads (w : Nat) : List (Nat × Bool) :=
  [(64 + 2 * w, false), (192 + 2 * w, true), (320 + 2 * (63 - w), false), (448 + 2 * (63 - w), true), (576 + w, false)]

/-- The access that restores word `w`, after which its array holds it again. -/
def marchRestore (w : Nat) : Nat := 640 + w

/-- What a read hands on. -/
inductive Got
  | data (v : Nat) | ue | poison
  deriving DecidableEq, Repr

/-! ### Hard-fault candidates (11 R291; 14 R373) -/

/-- A hard-fault candidate recorded: an urgent logbook entry and a place among the 32 carried along; with all in use, CAND_FULL (14 Table 14-8). -/
def State.hardCandidate (s : State) (addr b cause : Nat) : State :=
  let t := s.log.totals
  let c : BitVec 32 × Nat := (BitVec.ofNat 32 addr, b)
  let s := if t.cands.contains c then s
    else if t.cands.length < 32 then { s with log := { s.log with totals := { t with cands := t.cands ++ [c] } } }
    else { s with log := { s.log with totals := { t with candFull := true } } }
  s.logEvent 0x20 0 addr b cause true

/-- Tracker entry `n` HARD (11 R291). -/
def State.trackerHard (s : State) (n : Nat) : State :=
  let s := (s.wr F.eccTrackState n 3).setFlag F.eccStatusHard 0 true
  (s.raise A.eccHardCandidate 0).hardCandidate (s.rd F.eccTrackAddr n) (s.rd F.eccTrackBit n) 0

/-! ### The repeat-correction tracker (11 R289, R290) -/

/-- Tracker entries in order, with their states. -/
def trackWith (p : Nat → Bool) : Option Nat := (List.range 64).find? p

/-- The COUNTING entry with the lowest COUNT, the lowest-numbered on a tie. -/
def State.trackLowest (s : State) : Option Nat :=
  (List.range 64).foldl (fun best n =>
    if s.rd F.eccTrackState n = 1 then
      match best with
      | some b => if s.rd F.eccTrackCount n < s.rd F.eccTrackCount b then some n else best
      | none => some n
    else best) none

/-- An entry counted in the tick in progress. -/
def State.markCounted (s : State) (n : Nat) : State :=
  { s with ecc := { s.ecc with counted := Tbl.insert n (s.tick.n + 1) (Tbl.erase n s.ecc.counted) } }

/-- A corrected read counted toward its word's entry, at most once per tick (11 R289, R290). -/
def State.trackCount (s : State) (addr b : Nat) : State :=
  match trackWith fun n => s.rd F.eccTrackState n ≠ 0 && s.rd F.eccTrackAddr n = addr with
  | some n =>
    if Tbl.get 0 s.ecc.counted n = s.tick.n + 1 then s
    else
      let s := s.markCounted n
      if s.rd F.eccTrackState n = 1 then s.wr F.eccTrackCount n (bump 255 (s.rd F.eccTrackCount n))
      else if s.rd F.eccTrackState n = 2 then s.trackerHard n
      else s
  | none =>
    match (trackWith fun n => s.rd F.eccTrackState n = 0).orElse fun _ => s.trackLowest with
    | some n =>
      (s.setWord .eccTrack n (BitVec.ofNat 64 (addr + 1 * 2 ^ 32 + 1 * 2 ^ 40 + b * 2 ^ 42))).markCounted n
    | none => ((s.count .eccTrackFull 0).setFlag F.eccStatusTrackFull 0 true).raise A.eccTrackFull 0

/-! ### Uncorrectable errors (11 R286, R288) -/

/-- The number of the march's first access in the tick in progress, while a step runs. -/
def State.marchAt (s : State) : Option Nat := s.ecc.testSince.map fun n => marchPerTick * (s.tick.n - n)

/-- Whether accesses to a word are served from the engine's live buffer: it has been saved and not yet restored (11 R293). -/
def State.inLive (s : State) (a : Nat) : Bool :=
  match s.marchAt with
  | some k => underTest s.ecc.testRegion a && decide (eccWord a % 64 < k) && decide (k ≤ marchRestore (eccWord a % 64))
  | none => false

/-- Bit `b` of the code word of `v`, or of the poison pattern (11 R279, R280, R282). -/
def codeBit (wide poisoned : Bool) (v b : Nat) : Bool :=
  let n := if wide then 80 else 64
  if poisoned then decide (n ≤ b)
  else if b < n then bit v b
  else bit (checkBits (if wide then columns80 else columns64) v) (b - n)

/-- The code-word bits that a read of word `a` finds wrong: those upset, and stuck cells that hold the other value; the live buffer has no stuck
cell. -/
def State.wrongBits (s : State) (a : Nat) (poisoned : Bool) (v : Nat) (flips : List Nat) : List Nat :=
  match Tbl.get [] s.ecc.stuck a with
  | [] => flips
  | cells =>
    if s.inLive a then flips
    else cells.foldl (fun l c =>
      let l := l.filter (· ≠ c.1)
      if codeBit (eccMem a = 0) poisoned v c.1 = c.2 then l else l ++ [c.1]) flips

/-- No word has an upset bit or a stuck cell. -/
def State.sound (s : State) : Bool := s.ecc.damage.isEmpty && s.ecc.stuck.isEmpty

/-- The words that have one. -/
def State.marred (s : State) : List Nat := (s.ecc.damage.map (·.1) ++ s.ecc.stuck.map (·.1)).eraseDups

/-- Whether an address word lies in an active table: the active half of the emit or sum SRAM, or a converter's configuration (08 R197, 07 R410). -/
def State.activeTable (s : State) (a : Nat) : Bool :=
  let b := eccBank a
  match eccMem a with
  | 0 => (b % 2 = 1) == s.core.emitHalf
  | 1 => (b % 2 = 1) == s.core.sumHalf
  | 5 => b = 24 || b = 25
  | _ => false

/-- Whether it lies in a shadow half. -/
def State.shadowTable (s : State) (a : Nat) : Bool := decide (eccMem a ≤ 1) && !s.activeTable a

/-- A word awaiting its restore (11 R288). -/
def State.wantRestore (s : State) (a : Nat) : State :=
  if s.ecc.restores.any (·.1 = a) || s.ecc.persist.contains a then s
  else { s with ecc := { s.ecc with restores := s.ecc.restores ++ [(a, s.tick.n)] } }

/-- An uncorrectable error counted, raised and logged; on a data path an integrity event of kind 0 (11 R286).  The code of the requester in its
entry is open (14 Table 14-7; log entry 3). -/
def State.ueSeen (s : State) (a : Nat) (path : Bool) : State :=
  let s := s.count .eccUe (eccMem a)
  let s := s.setWord .eccLastUe 0 (BitVec.ofNat 64 (a + s.now * 2 ^ 32))
  let s := (s.setFlag F.eccStatusUe 0 true).raise A.eccUe 0
  let t := s.log.totals
  let s := { s with log := { s.log with totals := { t with ue := t.ue + 1 } } }
  let (who, s) := s.takeFree
  let s := s.logEvent 0x21 0 a who.toNat 0 false
  if path then { s with tick := { s.tick with events := 0 :: s.tick.events } } else s

/-- An uncorrectable error met: an active table word is restored, a STAGED shadow fails (11 R286, R288). -/
def State.ueFound (s : State) (a : Nat) (path : Bool) : State :=
  let s := s.ueSeen a path
  if s.activeTable a then s.wantRestore a
  else if s.shadowTable a && s.rd F.almStateShadow 0 = 2 then (s.wr F.almStateShadow 0 4).count .almStageFail 0
  else s

/-- A read of the SRAM word `a` that holds `v` (or the poison pattern) with the bits `flips` upset: what the reader gets, with counters, tracker
and errors, `found` what an uncorrectable error does (11 R281 to R289). -/
def State.readWith (s : State) (a : Nat) (poisoned : Bool) (v : Nat) (flips : List Nat) (found : State → State) : Got × State :=
  if flips.isEmpty then
    if poisoned then (.poison, s.count .eccPoison (eccMem a)) else (.data v, s)
  else
    match eccRead (eccMem a = 0) poisoned v flips with
    | .clean d => (.data d, s)
    | .corrected d b =>
      let t := s.log.totals
      let s := { s with log := { s.log with totals := { t with corr := t.corr + 1 } } }
      (.data d, (s.count .eccCorr (eccMem a)).trackCount a b)
    | .ue => (.ue, found s)
    | .poison => (.poison, s.count .eccPoison (eccMem a))

/-- A read of the SRAM word `a` as it stands.  `path`: a data-path read. -/
def State.sramRead (s : State) (a : Nat) (poisoned : Bool) (v : Nat) (path : Bool) : Got × State :=
  s.readWith a poisoned v (s.wrongBits a poisoned v (Tbl.get [] s.ecc.damage a)) (·.ueFound a path)

/-! ### Writes (11 R284, R289, R290) -/

/-- A full-word write of a streaming word: its damage is gone. -/
def State.freshWord (s : State) (a : Nat) : State :=
  if (Tbl.get [] s.ecc.damage a).isEmpty then s else { s with ecc := { s.ecc with damage := Tbl.erase a s.ecc.damage } }

/-- Damage of every word of `n` banks from `bank` gone: the data path has rewritten them. -/
def State.freshBanks (s : State) (mem bank n : Nat) : State :=
  if s.ecc.damage.isEmpty then s
  else { s with ecc := { s.ecc with damage := s.ecc.damage.filter fun e =>
    !(eccMem e.1 = mem && decide (bank ≤ eccBank e.1) && decide (eccBank e.1 < bank + n)) } }

/-- Damage of the first `n` words of a bank gone. -/
def State.freshWords (s : State) (mem bank n : Nat) : State :=
  if s.ecc.damage.isEmpty then s
  else { s with ecc := { s.ecc with damage := s.ecc.damage.filter fun e =>
    !(eccMem e.1 = mem && eccBank e.1 = bank && decide (eccWord e.1 < n)) } }

/-- A full-word write of a static word: its damage is gone, a COUNTING entry starts again, a write-back and a restore of it are cancelled, and
TABLE_UE_PERSIST clears with the last such word (11 R284, R288 to R290, R305). -/
def State.fullWrite (s : State) (a : Nat) : State :=
  let e := s.ecc
  let s := { s with ecc := { e with
    damage := Tbl.erase a e.damage, restores := e.restores.filter (·.1 ≠ a), persist := e.persist.filter (· ≠ a)
    writeback := e.writeback.filter fun n => s.rd F.eccTrackAddr n.1 ≠ a } }
  let s := match trackWith fun n => s.rd F.eccTrackState n = 1 && s.rd F.eccTrackAddr n = a with
    | some n => s.wr F.eccTrackCount n 0
    | none => s
  if !e.persist.isEmpty && s.ecc.persist.isEmpty then (s.setFlag F.eccStatusPersist 0 false).clear A.tableUePersist 0 else s

/-- A partial write's merge (11 R284): `v` as stored, `new` the merge of what it decodes to.  `none` where the word is a UE or poisoned. -/
def State.partialRead (s : State) (a v : Nat) : Option Nat × State :=
  match s.sramRead a false v false with
  | (.data d, s) => (some d, s)
  | (_, s) => (none, s)

/-! ### HBM rows and uncorrected reads (11 R286, R302, R303; 14 Table 14-7) -/

/-- The row word of an HBM address: bits [29:2] of a candidate over the stack. -/
def hbmRowWord (a : Nat) : Nat := (a - stackBase 0) / 0x600000000 % 4 + (Config.hbmRow a).toNat * 4

/-- Candidates `n` to 31 moved down by one, the last place free: the list stays oldest first. -/
def State.candDrop (s : State) (n : Nat) : State :=
  (iter (fun k s => s.setWord .hbmCand k (s.word .hbmCand (k + 1))) n (31 - n) s).setWord .hbmCand 31 0

/-- Room for a new candidate at the list's end: a free place, else that which the oldest repaired one gives up (11 R303). -/
def State.candPlace (s : State) : Option Nat × State :=
  match (List.range 32).find? fun n => !s.flag F.hbmCandValid n with
  | some n => (some n, s)
  | none => match (List.range 32).find? fun n => s.flag F.hbmCandRepaired n with
    | some n => (some 31, { (s.candDrop n) with ecc := { (s.candDrop n).ecc with
        repair := (s.candDrop n).ecc.repair.map fun r => if n < r then r - 1 else r } })
    | none => (none, s)

/-- A row recorded as a candidate, first failed in tick `t` (11 R303; 14 Table 14-7); a row that already waits is not recorded again. -/
def State.hbmCandidate (s : State) (row t : Nat) : State :=
  let held := (List.range 32).any fun n =>
    s.flag F.hbmCandValid n && !s.flag F.hbmCandRepaired n && field (s.word .hbmCand n).toNat 0 30 = row
  if held then s else
  match s.candPlace with
  | (some n, s) =>
    let w := row + 2 ^ 31 + t * 2 ^ 32
    (s.setWord .hbmCand n (BitVec.ofNat 64 w)).logEvent 0x22 0 w 0 0 true
  | (none, s) => s

/-- A page that failed under R94 in the tick in progress: its row is a candidate at the second such tick (11 R303). -/
def State.rowFail (s : State) (a : Nat) : State :=
  let row := hbmRowWord a
  match s.ecc.rowFails.lookup row with
  | some n =>
    if n = s.tick.n + 1 then s
    else s.hbmCandidate row (tadd s.now ((n : Int) - 1 - (s.tick.n : Nat)))
  | none => { s with ecc := { s.ecc with rowFails := Tbl.insert row (s.tick.n + 1) s.ecc.rowFails } }

/-- A corrected read of stack `k` (11 R302; 14 Table 14-8). -/
def State.hbmCorrected (s : State) (k : Nat) : State :=
  let t := s.log.totals
  { (s.count .hbmCe k) with log := { (s.count .hbmCe k).log with totals := { t with corr := t.corr + 1 } } }

/-- An uncorrected read at HBM address `a`: counted, raised, logged, its row a repair candidate; on a data path an integrity event of kind 0.  How
its entry gives the address, and the requester, is open (14 Table 14-7; log entry 3). -/
def State.hbmUncorrected (s : State) (a : Nat) (path : Bool) : State :=
  let s := s.count .hbmUe ((a - stackBase 0) / 0x600000000 % 4)
  let s := (s.setFlag F.eccStatusUe 0 true).raise A.eccUe 0
  let t := s.log.totals
  let s := { s with log := { s.log with totals := { t with ue := t.ue + 1 } } }
  let (place, s) := s.takeFree
  let (who, s) := s.takeFree
  let s := s.logEvent 0x21 0 place.toNat who.toNat 0 false
  let s := if path then { s with tick := { s.tick with events := 0 :: s.tick.events } } else s
  s.hbmCandidate (hbmRowWord a) s.now

/-- An uncorrected read somewhere in library slot `i`: the address is not among the command's operands (log entry 3). -/
def State.libraryUncorrected (s : State) (i : Nat) : State :=
  let (w, s) := s.takeFree
  s.hbmUncorrected (slotBase i + w.toNat % 0x8000000) false

end Sys2Proof.Machine
end

