-- ==== Sys2Proof/Machine/Path.lean ====
section
/-! DEFINITION. The bus matrix's paths, when a target is available, and what it counts of every access (12 R312, R315, R317, R326; 13 R339, R349;
14 Table 14-3). -/

namespace Sys2Proof.Machine

/-- Whether master `m` has a path to target `t` (12 Table 12-4; a host port reaches HBM through BAR2). -/
def hasPath (m : Master) (t : Nat) (write : Bool) : Bool :=
  match m with
  | .test => decide (1 ≤ t) && decide (t ≤ 16)
  | .logger => (t = 18 && !write) || (decide (20 ≤ t) && decide (t ≤ 24))
  | _ => decide (t ≤ 24)

/-- Whether target `t` answers accesses (13 R339, R349): the boot ROM is target 0 of these; a lost stack, or one that is restored, does not (12
R332). -/
def State.available (s : State) (t : Nat) : Bool :=
  if t = 0 || t = 18 || t = 25 then true
  else if t = 20 then s.boot.p2
  else if s.boot.unusable then false
  else if 21 ≤ t then
    s.rdBit F.hbmStateInitDone 0 (t - 21) && !s.rdBit F.lagStateStackLost 0 (t - 21) && !s.rdBit F.lagStateRestoring 0 (t - 21)
  else s.boot.p3

/-- A burst of master `m` granted by a target (12 R317). -/
def State.grantTo (s : State) (m : Master) (t beats : Nat) : State := s.grantOf (masterNum m) t 1 beats

/-- Bursts of up to 16 beats that `n` bytes at address `a` make within one target (12 R316). -/
def burstCount (a n : Nat) : Nat := ((a % 8 + n + 7) / 8 + 15) / 16

/-- A transfer of `n` bytes at `a` within target `t` granted burst by burst, its splits counted (12 R316, R317). -/
def State.grantAll (s : State) (m : Master) (t a n : Nat) : State :=
  let k := max 1 (burstCount a n)
  (s.grantOf (masterNum m) t k ((a % 8 + n + 7) / 8)).countBy .busSplits (masterNum m) (k - 1)

/-- Whether a master's earlier accesses still wait: bursts for a grant, reads of the table window for their data.  It issues no other meanwhile (12
R315). -/
def State.masterWaits (s : State) (m : Master) : Bool :=
  (s.bus.waiting.any fun r => r.master = m) || s.alm.window.any fun w => w.master = m && decide (w.read ≠ 0)

/-- The bursts that wait at target `t`, each the first of its master's that wait anywhere (12 R315). -/
def State.heads (s : State) (t : Nat) : List BusReq :=
  [Master.hostA, .hostB, .boot, .test, .logger].filterMap fun m =>
    if s.alm.window.any fun w => w.master = m && decide (w.read ≠ 0) then none
    else match s.bus.waiting.find? fun r => r.master = m with
      | some r => if r.target = t then some r else none
      | none => none

/-- The first waiting burst of each master in `passed` passed over once more, the others as they are. -/
def passBursts (passed : List Master) : List Master → List BusReq → List BusReq
  | _, [] => []
  | seen, r :: rs =>
    if seen.contains r.master then r :: passBursts passed seen rs
    else (if passed.contains r.master then { r with passes := r.passes + 1 } else r) :: passBursts passed (r.master :: seen) rs

/-- The bursts of other masters that wait at target `t` passed over by a grant to `m` (12 R317). -/
def State.passOver (s : State) (m : Master) (t : Nat) : State :=
  let others := ((s.heads t).map (·.master)).filter (· ≠ m)
  if others.isEmpty then s else { s with bus := { s.bus with waiting := passBursts others [] s.bus.waiting } }

/-- A memory request of `n` bytes that a host port has received (14 Table 14-3). -/
def State.hostMeter (s : State) (m : Master) (write : Bool) (n : Nat) : State :=
  let i := masterNum m
  if i ≤ 2 then (s.meter .pmBwHostReq i 1).meter (if write then .pmBwHostWr else .pmBwHostRd) i n else s

/-- What a master's read returned. -/
def State.answer (s : State) (m : Master) (ok : Bool) (data : List Byte) : State :=
  { s with bus := { s.bus with answers := Tbl.set {} s.bus.answers (masterNum m) ⟨ok, data⟩ } }

/-- The bytes of a register word that a part of it covers (12 R320). -/
def partBytes (p : Part) (w : Nat) : List Byte :=
  match p with
  | .whole => toBytes 8 w | .low => toBytes 4 w | .high => toBytes 4 (w / 2 ^ 32)

/-- A refused burst: an error response, and for a read no data (12 R311, R313). -/
def State.refuse (s : State) (m : Master) (addr n : Nat) (write : Bool) (c : ErrCause) : State :=
  let s := s.errResp m addr write c
  if write then s else s.answer m false (List.replicate n 0)

/-- An access judged for its path and its target's availability, counted, and carried out (12 R312, R313, R315 to R317; 13 R349). Its command is its
grant: a master whose earlier accesses wait does not issue it, and bursts of others that wait at the target are passed over (DEDUCED, log entry 57).
-/
def State.byTarget (s : State) (m : Master) (t addr n : Nat) (write : Bool) (f : State → State) : State :=
  if s.masterWaits m then s else
  let s := s.hostMeter m write n
  if !hasPath m t write then (s.grantTo m 25 1).refuse m addr n write .default
  else
    let s := (s.passOver m t).grantAll m t addr n
    if s.available t then f s else s.refuse m addr n write .unavailable

/-- An access to instance `i` of a register. -/
def State.byReg (s : State) (m : Master) (r : Reg) (i n : Nat) (write : Bool) (f : State → State) : State :=
  s.byTarget m 18 (regAddr r i) n write f

/-! ### Time and collisions (12 R326) -/

/-- The bus cycle `cyc` of the tick in progress, in thirds of a cycle since reset: a tick is 16,666 2/3 of them (12 R312, 06 R123). -/
def State.busTime (s : State) (cyc : Nat) : Nat := s.tick.n * 50000 + 3 * cyc

/-- A write of master number `m` at `addr`, noted under `key`: a collision where another master wrote there within WINDOW bus cycles. -/
def State.noteWrite (s : State) (m key addr cyc : Nat) : State :=
  let now := s.busTime cyc + 1
  let (who, t) := Tbl.get (0, 0) s.bus.wrote key
  let w := s.rd F.busCollCfgWindow 0
  let s := s.when (who ≠ 0 && who ≠ m && w ≠ 0 && decide (now ≤ t + 3 * w)) fun s =>
    (s.count .busCollisions 0).setWord .busCollLast 0
      (BitVec.ofNat 64 (addr % 2 ^ 40 + m * 2 ^ 44 + who * 2 ^ 48))
  { s with bus := { s.bus with wrote := Tbl.set (0, 0) s.bus.wrote key (m, now) } }

end Sys2Proof.Machine
end

