-- ==== Sys2Proof/Machine/Lag.lean ====
section
/-! DEFINITION. The lag store's operations on one link (04): admission at FM arrival, completion at the verdict, release, changes of lag and
the pool. -/

namespace Sys2Proof.Machine

/-- The stack of a link (04 Table 04-1). -/
def stackOf (l : Nat) : Nat := l / 32

/-- Whether stack `k` is lost (04 R99). -/
def State.stackLost (s : State) (k : Nat) : Bool := s.rdBit F.lagStateStackLost 0 k

/-- The last cycle offset at which a frame of lag `d` is on time (04 R87). -/
def deadline (d : Nat) : Int := (d : Int) * 31250 - 3125

/-- The key of a frame of link `l` at ring position `r`. -/
def slotKey (r l : Nat) : Nat := r * 128 + l

/-- The control-bus address of the descriptor of link `l` at ring position `r` (04 R92). -/
def descAddr (r l : Nat) : Nat := stackBase (stackOf l) + 0x580000000 + (r * 32 + l % 32) * 0x80

/-- The control-bus address of the frame slot of link `l` at ring position `r` (04 R92). -/
def slotAddr (r l : Nat) : Nat := stackBase (stackOf l) + (r * 32 + l % 32) * 0x10000

/-- The bytes of a descriptor (04 Table 04-5). -/
def descBytes (stamp verdict pages : Nat) (crcs : List (BitVec 32)) : List Byte :=
  toBytes 4 stamp ++ [BitVec.ofNat 8 (verdict % 4 + 128), BitVec.ofNat 8 pages, 0, 0] ++
    crcs.flatMap (fun c => toBytes 4 c.toNat) ++ List.replicate (120 - 4 * crcs.length) 0

/-- The CRC-32C of each of `n` pages (04 R94). -/
def pageCrcs (words : Tbl Word) (n : Nat) : List (BitVec 32) :=
  (List.range n).map fun j => crcOfWords (Tbl.get 0 words) (512 * j) 512

/-! ### Counters and runs of late frames (04 R90) -/

/-- A late frame moves the runs of R88 and R90. -/
def State.lateRuns (s : State) (l stamp : Nat) : State :=
  let h := s.lagLink l
  let next := decide (tdiff h.lateLast.toNat stamp = 1) && decide (0 < h.lateStamps)
  let same := decide (tdiff h.lateLast.toNat stamp = 0) && decide (0 < h.lateStamps)
  let runs := if next then bump 3 h.lateStamps else if same then h.lateStamps else 1
  s.setLagLink l { h with
    lateStamps := runs, lateLast := BitVec.ofNat 32 stamp, onTimeRun := 0
    rangeRun := bump 48 h.rangeRun, okRun := 0, marginRun := 0 }

/-- A late frame of Table 04-2, rows 1 and 5. -/
def State.lagLate (s : State) (l stamp : Nat) : State := (s.count .lagLate l).lateRuns l stamp

/-- An early frame (04 Table 04-2 row 2). -/
def State.lagEarly (s : State) (l : Nat) : State :=
  let s := s.count .lagEarly l
  let h := s.lagLink l
  s.setLagLink l { h with rangeRun := bump 48 h.rangeRun, okRun := 0 }

/-! ### Admission (04 R86, R89) -/

/-- Where an admitted frame goes: its lag and early limit in cycles, and whether it is the short store. -/
structure LagTarget where
  lag : Nat
  early : Int
  short : Bool
  deriving DecidableEq, Repr

/-- Where a frame whose stamp is local tick `n` would be stored, or none where the link will never release it (04 R89). -/
def State.lagTarget (s : State) (l : Nat) (n : Int) : Option LagTarget :=
  let h := s.lagLink l
  let inRange := match h.first with | none => true | some f => decide ((f : Int) ≤ n)
  if h.mode = 1 then if inRange then some ⟨h.lag, 15625, true⟩ else none
  else if h.mode = 2 then
    match h.fb with
    | some b =>
      let open' := match b.last with | none => true | some e => decide (n ≤ (e : Int))
      if open' then if (b.first : Int) ≤ n then some ⟨b.lag, 15625, true⟩ else none
      else if inRange && !s.stackLost (stackOf l) then some ⟨h.lag, ((11262 - h.lag : Nat) : Int) * 31250, false⟩ else none
    | none =>
      if s.stackLost (stackOf l) || !inRange then none
      else some ⟨h.lag, ((11262 - h.lag : Nat) : Int) * 31250, false⟩
  else none

/-- Whether the link's mark at position `r` says that a frame with this stamp has been written there and was not left incomplete under row 5 (04 Table
04-2 row 3). -/
def LagLinkH.repeated (h : LagLinkH) (r stamp : Nat) : Bool :=
  match h.slots.lookup r with
  | some m => m.stamp.toNat = stamp && m.state != .incomplete
  | none => false

/-- A frame slot after `n` payload words of `words` have been written over what it held: the words beyond keep their content (04 R93). -/
def slotWrite (old words : Tbl Word) (n : Nat) : Tbl Word :=
  words.filter (fun e => decide (e.1 < n)) ++ old.filter fun e => decide (n ≤ e.1)

/-- A frame written: its slot, its pages' CRCs and its mark (04 R89, R93, R94, R96). -/
def State.lagWrite (s : State) (l stamp : Nat) (words : Tbl Word) (n : Nat) (short : Bool) : State :=
  let r := s.ringPos stamp
  let key := slotKey r l
  let h := s.lagLink l
  let old := Tbl.get [] (if short then s.lag.short else s.lag.ring) key
  let new := slotWrite old words n
  let mark : SlotMark := ⟨BitVec.ofNat 32 stamp, .writing, pageCrcs new (genPages (s.gen l))⟩
  let s := s.setLagLink l { h with slots := Tbl.insert r mark (Tbl.erase r h.slots) }
  if short then { s with lag := { s.lag with short := Tbl.set [] s.lag.short key new, shortDesc := Tbl.erase key s.lag.shortDesc } }
  else { s with lag := { s.lag with ring := Tbl.set [] s.lag.ring key new } }

/-- A delivered frame at FM arrival: `f` its offset F, `words` its payload, of which `n` words arrive (04 Table 04-2 rows 1 to 4; R95). -/
def State.lagAdmit (s : State) (l stamp : Nat) (f : Int) (words : Tbl Word) (n : Nat) (overflow : Bool) : Admit × State :=
  match s.lagTarget l (s.localTick stamp) with
  | none => (.unstored, s)
  | some t =>
    if f > deadline t.lag then (.late, s.lagLate l stamp)
    else if f < -t.early then (.early, s.lagEarly l)
    else
      let h := s.lagLink l
      if h.repeated (s.ringPos stamp) stamp then (.repeated, (s.count .lagRepeat l).setLagLink l { h with okRun := 0 })
      else if overflow && !t.short then
        (.overflowed, (s.count .lagElasticOvf (stackOf l)).setLagLink l { h with okRun := 0 })
      else (.written, s.lagWrite l stamp words n t.short)

/-! ### Arrival measurement (04 R86) -/

/-- The offset F of the frame being delivered. -/
def State.lagMeasureF (s : State) (l : Nat) (f : Int) : State := s.wrS F.lagArrLastF l f

/-- The offset A of a frame whose verdict is formed, and the extremes. -/
def State.lagMeasureA (s : State) (l : Nat) (a : Int) : State :=
  let s := (s.wrS F.lagArrLastA l a).setFlag F.lagLinkStateArrValid l true
  let s := if s.flag F.lagArrMaxValid l && decide (a ≤ s.rdS F.lagArrMaxAMax l) then s
    else (s.wrS F.lagArrMaxAMax l a).setFlag F.lagArrMaxValid l true
  if s.flag F.lagArrMinValid l && decide (s.rdS F.lagArrMinAMin l ≤ a) then s
  else (s.wrS F.lagArrMinAMin l a).setFlag F.lagArrMinValid l true

/-! ### Completion (04 R87 to R89, R93) -/

/-- The CRCs of the pages of the frame written at position `r`. -/
def LagLinkH.crcs (h : LagLinkH) (r : Nat) : List (BitVec 32) :=
  match h.slots.lookup r with | some m => m.crcs | none => []

/-- The mark of a written frame changed. -/
def State.lagMark (s : State) (l r stamp : Nat) (m : SlotState) : State :=
  let h := s.lagLink l
  s.setLagLink l { h with slots := Tbl.insert r ⟨BitVec.ofNat 32 stamp, m, h.crcs r⟩ (Tbl.erase r h.slots) }

/-- The margin of an on-time frame against MARGIN_MIN (04 R88). -/
def State.lagMargin (s : State) (l : Nat) (margin : Int) : State :=
  let h := s.lagLink l
  if margin < (s.rd F.lagLinkCfgMarginMin l : Int) then
    (((s.count .lagMarginLow l).setLagLink l { h with marginRun := 0 }).setFlag F.lagLinkStateMargin l true).raise A.lagMargin l
  else s.setLagLink l { h with marginRun := bump 48000 h.marginRun }

/-- A written frame complete: its descriptor (HBM) or its checks on chip (short store) written (04 R93, R94, R96). -/
def State.lagComplete (s : State) (l stamp verdict : Nat) (short : Bool) : State :=
  let r := s.ringPos stamp
  let crcs := (s.lagLink l).crcs r
  let pages := crcs.length
  let s := s.lagMark l r stamp .complete
  let key := slotKey r l
  if short then
    { s with lag := { s.lag with
      shortDesc := Tbl.insert key ⟨BitVec.ofNat 32 stamp, verdict, pages, crcs⟩ (Tbl.erase key s.lag.shortDesc) } }
  else { s with hbm := memWrite (descBytes stamp verdict pages crcs) (descAddr r l) s.hbm }

/-- An on-time frame moves the runs of R88 and R90, an early one not those of LAG_STAMP_RANGE. -/
def State.onTimeRuns (s : State) (l : Nat) (early : Bool) : State :=
  let h := s.lagLink l
  s.setLagLink l { h with onTimeRun := bump 48 h.onTimeRun, rangeRun := if early then h.rangeRun else 0 }

/-- A frame cut off in its payload: never complete, and no later copy takes its place (04 R89, R90). -/
def State.lagCut (s : State) (l stamp : Nat) : State :=
  let s := s.lagMark l (s.ringPos stamp) stamp .cut
  s.setLagLink l { s.lagLink l with okRun := 0 }

/-- The verdict of a frame reaches the lag store at offset `a` (04 R87 to R90): its lateness and margin are judged whether or not it was written,
and a written frame is completed, cut off or left incomplete. `whole`: all its payload blocks have come. -/
def State.lagVerdict (s : State) (l stamp : Nat) (a : Int) (verdict : Nat) (whole : Bool) (taken : Admit) (missed : Bool) : State :=
  let s := s.lagMeasureA l a
  if taken = .unstored || taken = .late || missed then s else
  match s.lagTarget l (s.localTick stamp) with
  | none => s
  | some t =>
    if a > deadline t.lag then
      if taken = .written then (s.lagLate l stamp).lagMark l (s.ringPos stamp) stamp .incomplete else s.lateRuns l stamp
    else
      let s := (s.onTimeRuns l (taken = .early)).lagMargin l ((t.lag : Int) * 31250 - a)
      if taken ≠ .written then s
      else if whole then s.lagComplete l stamp verdict t.short
      else s.lagCut l stamp

/-! ### Release (04 R84, R85, R94) -/

/-- A page or descriptor failure: counted, a lag-page integrity event (kind 1, 10 R263), and for HBM the stack's count and failing tick. -/
def State.pageFail (s : State) (l : Nat) (short : Bool) : State :=
  let s := s.count .lagPageBad l
  let s := { s with tick := { s.tick with events := 1 :: s.tick.events } }
  if short then s else
  let k := stackOf l
  let s := s.count .lagPageFail k
  let seen := Tbl.get [] s.lag.failTicks k
  if seen.head? = some s.tick.n then s
  else { s with lag := { s.lag with failTicks := Tbl.set [] s.lag.failTicks k ((s.tick.n :: seen).take 256) } }

/-- An ABSENT release (04 Table 04-3). -/
def State.releaseAbsent (s : State) (l : Nat) : Release × State :=
  (⟨vAbsent, [], 0, []⟩, (s.count .lagMissing l).wr F.lagLinkStateLastRelVerdict l vAbsent)

/-- A release of a complete frame whose failing pages are `bad` (04 R85). -/
def State.releaseFrame (s : State) (l verdict pages : Nat) (words : Tbl Word) (bad : List Nat) : Release × State :=
  let v := if bad.isEmpty then verdict else vBad
  let h := s.lagLink l
  let s := (s.count .lagReleased l).setLagLink l { h with okRun := bump 48 h.okRun }
  let keep := words.filter fun e => decide (e.1 < 512 * pages) && !bad.contains (e.1 / 512)
  (⟨v, keep, 512 * pages, bad⟩, s.wr F.lagLinkStateLastRelVerdict l v)

/-- The position a release has read is free again (04 Table 04-2 row 3). -/
def State.releasePos (s : State) (l r : Nat) : State :=
  let h := s.lagLink l
  s.setLagLink l { h with slots := Tbl.erase r h.slots }

/-- Page `p` of the frame of link `l` stamped `n` written with the complement of its check, so that it fails at its release (11 Table 11-4). -/
def State.pageSpoil (s : State) (l : Nat) (n : BitVec 32) (p : Nat) : State :=
  let h := s.lagLink l
  s.setLagLink l { h with slots := h.slots.map fun e =>
    if e.2.stamp = n then (e.1, { e.2 with crcs := e.2.crcs.mapIdx fun j c => if j = p then ~~~c else c }) else e }

/-- Pages of a release (16 the descriptor) that the stack's ECC reports, that were not fetched in time, and that met a bad word in the read buffer (04
R94, R95; 11 Table 11-4). -/
structure PageFaults where
  ue : List Nat
  late : List Nat
  buffer : List Nat
  deriving DecidableEq, Repr

/-- The release of stamp `n` from the short store: `failed` are the pages whose checks fail (04 R96). -/
def State.releaseShort (s : State) (l n : Nat) (failed : List Nat) : Release × State :=
  let r := s.ringPos n
  let key := slotKey r l
  let words := Tbl.get [] s.lag.short key
  let desc := s.lag.shortDesc.lookup key
  let s := s.releasePos l r
  let s := { s with lag := { s.lag with short := Tbl.erase key s.lag.short, shortDesc := Tbl.erase key s.lag.shortDesc } }
  match desc with
  | some d =>
    if d.stamp.toNat = n then
      let bad := (List.range d.pages).filter fun j => failed.contains j || decide (crcOfWords (Tbl.get 0 words) (512 * j) 512 ≠ d.crcs.getD j 0)
      let s := s.each bad fun _ s => s.pageFail l true
      s.releaseFrame l d.verdict d.pages words bad
    else s.releaseAbsent l
  | none => s.releaseAbsent l

/-- The release of stamp `n` from the HBM ring (04 R94, R95). -/
def State.releaseHbm (s : State) (l n : Nat) (f : PageFaults) : Release × State :=
  let r := s.ringPos n
  let a := descAddr r l
  let stamp := ofBytes (memRead s.hbm a 4)
  let status := (memByte s.hbm (a + 4)).toNat
  let pages := min 16 (memByte s.hbm (a + 5)).toNat
  let words := Tbl.get [] s.lag.ring (slotKey r l)
  let crc := fun j => ofBytes (memRead s.hbm (a + 8 + 4 * j) 4)
  let s := s.releasePos l r
  let s := { s with hbm := Tbl.set 0 s.hbm (a + 4) (BitVec.ofNat 8 (status % 128)) }
  if f.ue.contains 16 then
    let s := (s.hbmUncorrected a true).pageFail l false
    (s.setLagLink l { s.lagLink l with okRun := 0 }).releaseAbsent l
  else if bit status 7 && decide (stamp = n) then
    let bad := (List.range pages).filter fun j =>
      f.ue.contains j || f.late.contains j || f.buffer.contains j || decide ((crcOfWords (Tbl.get 0 words) (512 * j) 512).toNat ≠ crc j)
    let s := s.each bad fun j s =>
      let page := slotAddr r l + 4096 * j
      let s := if f.ue.contains j then s.hbmUncorrected page true else s
      let s := (s.pageFail l false).rowFail page
      if f.late.contains j then s.count .lagReadLate (stackOf l) else s
    (s.meter .pmBwHbmRd (stackOf l) (4096 * pages)).releaseFrame l (status % 4) pages words bad
  else s.releaseAbsent l

/-- Whether a link is released at all (04 R84). -/
def State.released (s : State) (l : Nat) : Bool := (s.lagLink l).mode = 1 || (s.lagLink l).mode = 2

/-- The release of link `l` in the tick in progress (04 R84, R98, R100, R101). -/
def State.lagRelease (s : State) (l : Nat) (f : PageFaults) : Release × State :=
  let h := s.lagLink l
  let u : Int := s.tick.n
  let from' := fun d : Nat => match h.first with | none => true | some f => decide ((f : Int) ≤ u - d)
  if h.mode = 1 then
    if from' h.lag then s.releaseShort l (tadd s.now (-h.lag)) f.ue else s.releaseAbsent l
  else
    let k := stackOf l
    let fbNow := match h.fb with
      | some b => decide ((b.first : Int) ≤ u - b.lag) &&
          (match b.last with | none => true | some e => decide (u - b.lag ≤ (e : Int)))
      | none => false
    if fbNow then
      match h.fb with
      | some b => s.releaseShort l (tadd s.now (-b.lag)) f.ue
      | none => s.releaseAbsent l
    else if (s.stackLost k && decide (Tbl.get 0 s.lag.lossTick k < s.tick.n)) || !from' h.lag then s.releaseAbsent l
    else s.releaseHbm l (tadd s.now (-h.lag)) f

/-! ### Restores (04 R101) -/

/-- A restore that has not succeeded: the stack stays lost. -/
def State.restoreFailed (s : State) (k : Nat) : State :=
  let s := (s.wrBit F.lagStateRestoring 0 k false).wrBit F.lagStateRestoreFail 0 k true
  { s with lag := { s.lag with restoreTick := Tbl.erase k s.lag.restoreTick } }

/-- At a tick edge, restores that have run for more than 480 ticks fail. -/
def State.restoreEdge (s : State) : State :=
  s.eachN 4 fun k s =>
    s.when (s.rdBit F.lagStateRestoring 0 k && decide (Tbl.get 0 s.lag.restoreTick k + 480 < s.tick.n)) (·.restoreFailed k)

/-! ### The pool and changes of lag (04 R96, R98, R100) -/

/-- The pages of an allotment for lag `d` at generation `g` (04 R96). -/
def allotment (d g : Nat) : Nat := (d + 2) * genPages g

/-- A link's allotment freed. -/
def State.poolFree (s : State) (l : Nat) : State :=
  let n := s.rd F.lagLinkStatePoolPages l
  (s.wr F.lagStatePoolFree 0 (s.rd F.lagStatePoolFree 0 + n)).wr F.lagLinkStatePoolPages l 0

/-- An allotment of `n` pages taken. -/
def State.poolTake (s : State) (l n : Nat) : State :=
  (s.wr F.lagStatePoolFree 0 (s.rd F.lagStatePoolFree 0 - n)).wr F.lagLinkStatePoolPages l n

/-- The frame that link `l` is receiving is no longer written where `p` holds of its stamp's local tick. -/
def State.unwrite (s : State) (l : Nat) (p : Int → Bool) : State :=
  let r := s.rx l
  match r.frame with
  | some f =>
    if f.taken = .written && p (s.localTick f.stamp.toNat) then s.setRx l { r with frame := some { f with taken := .unstored } } else s
  | none => s

/-- A link's short-store frames and checks dropped with their pages, the frame being written too. -/
def State.shortClear (s : State) (l : Nat) : State :=
  let s := { s with lag := { s.lag with
    short := s.lag.short.filter (fun e => e.1 % 128 ≠ l), shortDesc := s.lag.shortDesc.filter (fun e => e.1 % 128 ≠ l) } }
  s.unwrite l fun _ => true

/-- Whether a byte address lies in a descriptor of link `l`. -/
def inDescOf (l a : Nat) : Bool :=
  let base := stackBase (stackOf l) + 0x580000000
  decide (base ≤ a) && decide (a < base + 360448 * 0x80) && decide ((a - base) / 0x80 % 32 = l % 32)

/-- A link's descriptors cleared (04 R93, R98). -/
def State.descClear (s : State) (l : Nat) : State := { s with hbm := s.hbm.filter fun e => !inDescOf l e.1 }

/-- Fallback left: allotment freed, bits and alarms cleared. -/
def State.fbEnd (s : State) (l : Nat) : State :=
  let h := s.lagLink l
  let s := s.setLagLink l { h with fb := none }
  let s := if h.fb.isSome then (s.poolFree l).shortClear l else s
  let s := ((s.setFlag F.lagLinkStateFallback l false).setFlag F.lagLinkStateNopage l false)
  (s.clear A.lagFallback l).clear A.lagFallbackNopage l

/-- Fallback entered with first stamp of local tick `first`: an allotment where the pool has it, else NOPAGE (04 R98, R100). -/
def State.fbEnter (s : State) (l first : Nat) : State :=
  let f := s.rd F.lagLinkCfgFbLag l
  let n := allotment f (s.gen l)
  let h := s.lagLink l
  if f = 0 then s
  else if n ≤ s.rd F.lagStatePoolFree 0 then
    let s := (s.setLagLink l { h with fb := some ⟨f, first, none⟩, gen := s.gen l }).poolTake l n
    (s.setFlag F.lagLinkStateFallback l true).raise A.lagFallback l
  else
    let s := ((s.setLagLink l { h with fb := none }).setFlag F.lagLinkStateFallback l false).clear A.lagFallback l
    (s.setFlag F.lagLinkStateNopage l true).raise A.lagFallbackNopage l

/-- Whether a link's MODE or D, or the generation of a SHORT link, differ from those in force (04 R98). -/
def State.lagChanged (s : State) (l : Nat) : Bool :=
  let h := s.lagLink l
  let mode := s.rd F.lagLinkCfgMode l
  decide (mode ≠ h.mode) || (decide (mode ≠ 0) && decide (s.rd F.lagLinkCfgD l ≠ h.lag)) ||
    (decide (mode = 1) && decide (s.gen l ≠ h.gen))

/-- Whether a link in fallback is to be allotted anew for another generation (04 R98). -/
def State.fbChanged (s : State) (l : Nat) : Bool :=
  let h := s.lagLink l
  !s.lagChanged l && decide (s.gen l ≠ h.gen) && h.fb.isSome

/-- A changed link's pages freed, and what they held dropped (04 R98). -/
def State.lagFree (s : State) (l : Nat) : State :=
  let s := if (s.lagLink l).mode = 1 then (s.poolFree l).shortClear l else s
  s.fbEnd l

/-- A changed link's settings in force from the tick in progress (04 R98). A change of MODE clears its descriptors and ends a write in progress; a
change of D in HBM mode leaves what the ring holds. -/
def State.lagSet (s : State) (l : Nat) : State :=
  let h := s.lagLink l
  let mode := s.rd F.lagLinkCfgMode l
  let d := s.rd F.lagLinkCfgD l
  let g := s.gen l
  let same := decide (mode = 2) && decide (h.mode = 2) && !s.stackLost (stackOf l)
  let s := if mode = h.mode then s else (s.descClear l).unwrite l fun _ => true
  let s := s.setLagLink l { h with
    mode := mode, lag := d, gen := g, first := some s.tick.n, slots := if same then h.slots else [], lateStamps := 0, onTimeRun := 0
    rangeRun := 0, okRun := 0, marginRun := 0 }
  if mode = 1 then s.poolTake l (allotment d g) else s

/-- The links' settings brought into force at the edge that begins the tick in progress: changed links free their pages, then take what they need;
then the links of lost stacks, and those in fallback under another generation, take theirs in ascending order (04 R96, R98). -/
def State.lagSync (s : State) : State :=
  let all := List.range 128
  let changed := all.filter s.lagChanged
  let again := all.filter s.fbChanged
  let gens := all.filter fun l => !s.lagChanged l && !s.fbChanged l && decide (s.gen l ≠ (s.lagLink l).gen)
  let s := s.each gens fun l s => s.setLagLink l { s.lagLink l with gen := s.gen l }
  let s := (s.each changed fun l s => s.lagFree l).each again fun l s => (s.poolFree l).shortClear l
  let s := s.each changed fun l s => s.lagSet l
  s.each (all.filter fun l => again.contains l || (changed.contains l && (s.lagLink l).mode = 2 && s.stackLost (stackOf l)))
    fun l s => s.fbEnter l s.tick.n

/-- Whether MODE, D and FB_LAG together keep R83 and R97 for a link, `grouped` saying that it belongs to a protection group. -/
def lagCfgOk (mode d fb gen : Nat) (grouped : Bool) : Bool :=
  decide (mode ≠ 3) && decide (fb ≠ 1) &&
    (mode = 0 || (mode = 1 && (d = 2 || d = 3)) || (mode = 2 && decide (4 ≤ d) && decide (d ≤ 10240))) &&
    (decide (gen ≠ 0) || mode = 0) && (fb = 0 || (mode = 2 && !grouped))

end Sys2Proof.Machine
end

