-- ==== Sys2Proof/Machine/Prot.lean ====
section
/-! DEFINITION. Hitless protection (05): selection at each tick, copy conditions, commands, configuration, and protection messages. -/

namespace Sys2Proof.Machine

/-- Whether the pair is joined (10 R269). -/
def State.joined (s : State) : Bool := s.flag F.mateStateJoined 0

/-- Byte enables of an access part. -/
def partEnables : Part → BitVec 8
  | .whole => 0xFF | .low => 0x0F | .high => 0xF0

/-- A mirrored write accepted in a joined pair becomes a record with apply tick t + 4 (10 R266, R267); at most 640 are new in one
frame, and a further one waits. -/
def State.mirror (s : State) (addr : Nat) (be : BitVec 8) (data : Word) : State :=
  let m := s.mate
  let r : MirrorRec := ⟨m.mseq, BitVec.ofNat 32 (s.now + 4), be, addr, data⟩
  if m.fresh.length < 640 then
    { s with mate := { m with mseq := m.mseq + 1, fresh := m.fresh ++ [r], own := m.own ++ [r] } }
  else { s with mate := { m with waiting := m.waiting ++ [r] } }

/-- A write to a mirrored target: a record in a joined pair, else `f` at once, which counts in MATE_UNMIRRORED where the unit has a mate
(10 R265, R269). -/
def State.mirrored (s : State) (addr : Nat) (be : BitVec 8) (data : Word) (f : State → State) : State :=
  if s.joined then s.mirror addr be data
  else if s.flag F.mateCfgEn 0 then f (s.count .mateUnmirrored 0) else f s

/-! ### Group state -/

/-- Rank of a released verdict (05 R106). -/
def rankOf (v : Nat) : Nat := 3 - v

/-- The first entry of 05 Table 05-3 that applies to a group under command `cmd`. -/
def State.gstateOf (s : State) (cmd g : Nat) : Nat :=
  let psf := s.flag F.protGroupStatePSf g
  let ssf := s.flag F.protGroupStateSSf g
  if cmd = 5 then 6
  else if cmd = 3 || cmd = 4 then 5
  else if psf && ssf then 7
  else if psf || ssf then 4
  else if s.flag F.protGroupStatePSd g || s.flag F.protGroupStateSSd g then 3
  else if cmd = 1 || cmd = 2 then 2
  else if s.flag F.protGroupStateWtrRun g then 1
  else 0

/-- GSTATE of a group (05 Table 05-3). -/
def State.gstate (s : State) (g : Nat) : Nat := s.gstateOf (s.rd F.protGroupCmdCmd g) g

/-- CODE and PARAM[2:0] of a group's messages as they stand at the end of a tick whose command in force is `cmd` (05 R118, Table 05-4). -/
def State.protNote (s : State) (cmd g : Nat) : State :=
  let psx := b2n (s.flag F.protGroupStatePSf g || s.flag F.protGroupStatePSd g)
  let ssx := b2n (s.flag F.protGroupStateSSf g || s.flag F.protGroupStateSSd g)
  s.setGroup g { s.group g with
    lastCmd := cmd, lastCode := s.gstateOf cmd g, lastParam := psx + 2 * ssx + 4 * s.rd F.protGroupStateSel g }

/-- The groups' messages of the tick that begins follow the tick that ends (05 R118). -/
def State.protNotes (s : State) : State :=
  s.eachN 64 fun g s => if (s.group g).en then s.protNote (s.rd F.protGroupCmdCmd g) g else s

/-- A condition of a group that changed at the end of the tick that the last edge closed shows in that tick's messages. -/
def State.protRenote (s : State) (g : Nat) : State := s.protNote (s.group g).lastCmd g

/-- A group's alarms brought up to its conditions (05 Table 05-5). -/
def State.protAlarms (s : State) (g : Nat) : State :=
  let psf := s.flag F.protGroupStatePSf g
  let ssf := s.flag F.protGroupStateSSf g
  let cmd := s.rd F.protGroupCmdCmd g
  let s := s.setAlarm A.protCopyFail g (psf != ssf)
  let s := s.setAlarm A.protBothFail g (psf && ssf)
  let s := s.setAlarm A.protDegrade g (s.flag F.protGroupStatePSd g || s.flag F.protGroupStateSSd g)
  let s := s.setAlarm A.protCmd g (cmd = 3 || cmd = 4 || cmd = 5)
  s.wr F.protGroupStateGstate g (s.gstate g)

/-- WTR's length in ticks (05 R112). -/
def State.wtrTicks (s : State) (g : Nat) : Nat := max 1 (s.rd F.protGroupCfgWtr g) * 480

/-- WTR_LEFT as WTR stands: units of 480 ticks, rounded up. -/
def State.wtrLeft (s : State) (g : Nat) : State :=
  let left := if s.flag F.protGroupStateWtrRun g then (s.wtrTicks g - (s.group g).wtrRan + 479) / 480 else 0
  s.wr F.protGroupStateWtrLeft g left

/-- WTR started, restarted or stopped as the primary's condition at the end of a tick asks (05 R112). -/
def State.wtrSync (s : State) (g : Nat) : State :=
  let bad := s.flag F.protGroupStatePSf g || s.flag F.protGroupStatePSd g
  let h := s.group g
  if !s.flag F.protGroupCfgRevertive g then
    ((s.setGroup g { h with wtrRan := 0, wasBad := bad }).setFlag F.protGroupStateWtrRun g false).wtrLeft g
  else if bad then
    ((s.setGroup g { h with wtrRan := 0, wasBad := true }).setFlag F.protGroupStateWtrRun g false).wtrLeft g
  else s

/-- A group's settings changed: WTR stops where REVERTIVE is 0, else runs on to its new length (05 R112, R114). -/
def State.protRetime (s : State) (g : Nat) : State :=
  let s := if s.flag F.protGroupCfgRevertive g then s.wtrLeft g else s.wtrSync g
  s.wr F.protGroupStateGstate g (s.gstate g)

/-! ### Selection (05 R106) -/

/-- The copy used: `true` the secondary. `rp`, `rs` ranks; `prev` the copy used at the tick before (05 Table 05-1). -/
def selectCopy (cmd : Nat) (revertive wtr bad : Bool) (rp rs : Nat) (prev : Bool) : Bool :=
  if cmd = 5 then false
  else if cmd = 3 then false
  else if cmd = 4 then true
  else if cmd = 1 then decide (rp < rs)
  else if cmd = 2 then decide (rp ≤ rs)
  else if rp ≠ rs then decide (rp < rs)
  else if revertive && !wtr && !bad then false
  else prev

/-- A copy's runs and window count after a tick in which it was released with verdict `v` (05 R110, R111). -/
def CopyH.tick (c : CopyH) (v : Nat) (sf : Bool) : CopyH :=
  let bad := decide (2 ≤ v)
  { badRun := if bad then bump 256 c.badRun else 0
    goodRun := if bad then 0 else bump 48 c.goodRun
    sdCount := if decide (1 ≤ v) && !sf then c.sdCount + 1 else c.sdCount }

/-- The digest of one copy as released (05 R109). -/
def releaseDigest (r : Release) (gen : Nat) : BitVec 32 := crcOfWords (Tbl.get 0 r.words) 0 (genP gen)

/-- Runs of the digest comparison (05 R109). -/
def State.protDigests (s : State) (g : Nat) (p t : Release) : State :=
  if p.verdict = vGood && t.verdict = vGood then
    let h := s.group g
    if releaseDigest p (s.gen h.pLink) = releaseDigest t (s.gen h.sLink) then
      s.setGroup g { h with differRun := 0, equalRun := bump 48 h.equalRun }
    else (s.count .protDiffer g).setGroup g { h with differRun := bump 48 h.differRun, equalRun := 0 }
  else s

/-- One enabled group at a tick: the copy chosen, counters, runs (05 R105 to R112).  Answers whether the secondary was used. -/
def State.protSelect (s : State) (g : Nat) (p t : Release) : Bool × State :=
  let h := s.group g
  let prev := s.flag F.protGroupStateSel g
  let bad := s.flag F.protGroupStatePSf g || s.flag F.protGroupStatePSd g
  let s := if s.flag F.protGroupCfgRevertive g && h.wasBad && !bad then
      (s.setGroup g { h with wasBad := false, wtrRan := 0 }).setFlag F.protGroupStateWtrRun g true else s
  let wtr := s.flag F.protGroupStateWtrRun g
  let sel := selectCopy h.govern (s.flag F.protGroupCfgRevertive g) wtr bad (rankOf p.verdict) (rankOf t.verdict) prev
  let s := (s.setFlag F.protGroupStateSel g sel).wr F.protGroupStatePVerdict g p.verdict
  let s := s.wr F.protGroupStateSVerdict g t.verdict
  let s := s.count (if sel then .protSelS else .protSelP) g
  let s := s.when (sel != prev) (·.count .protSwitch g)
  let s := s.when (p.verdict ≠ vGood && t.verdict ≠ vGood) (·.count .protNoGood g)
  let s := s.when (p.verdict = vAbsent && t.verdict = vAbsent) (·.count .protBothAbsent g)
  let s := s.protDigests g p t
  let h := s.group g
  let s := s.setGroup g { h with
    p := h.p.tick p.verdict (s.flag F.protGroupStatePSf g), s := h.s.tick t.verdict (s.flag F.protGroupStateSSf g)
    wtrRan := if wtr then h.wtrRan + 1 else h.wtrRan }
  (sel, (s.wtrLeft g).wr F.protGroupStateGstate g (s.gstate g))

/-! ### Reset and configuration (05 R104, R114) -/

/-- A group reset at an epoch or by a write of its links or EN (05 R114). -/
def State.protReset (s : State) (g : Nat) : State :=
  let s := (s.wr F.protGroupCmdCmd g 0).wr F.protGroupCmdLastResult g 3
  let s := s.setGroup g { s.group g with
    p := {}, s := {}, wtrRan := 0, wasBad := false, differRun := 0, equalRun := 0, govern := 0 }
  let s := (s.setFlag F.protGroupStateSel g false).setFlag F.protGroupStatePSf g false
  let s := (s.setFlag F.protGroupStateSSf g false).setFlag F.protGroupStatePSd g false
  let s := (s.setFlag F.protGroupStateSSd g false).setFlag F.protGroupStateWtrRun g false
  let s := ((s.setFlag F.protGroupStateMisaligned g false).clear A.protMisaligned g).wtrLeft g
  s.protAlarms g

/-- The SD windows at a tick edge: one ends and the next begins where the tick number is divisible by 4,800; the last before the wrap has 4,096
ticks (05 R111).  The first whole window after reset or a renumbering begins with its counts at 0. -/
def State.sdWindowEdge (s : State) : State :=
  if s.now % 4800 ≠ 0 then s
  else if s.prot.sdWhole then { s with prot := { s.prot with sdEnded := if s.now = 0 then 4096 else 4800 } }
  else
    let s := s.eachN 64 fun g s =>
      let h := s.group g
      s.setGroup g { h with p := { h.p with sdCount := 0 }, s := { h.s with sdCount := 0 } }
    { s with prot := { s.prot with sdWhole := true } }

/-- The SD window in progress abandoned at a renumbering; one begins at once where the new number is divisible by 4,800 (05 R111). -/
def State.sdWindowCut (s : State) : State := ({ s with prot := { s.prot with sdWhole := false } }).sdWindowEdge

/-- Priority of a command (05 Table 05-2). -/
def cmdPriority : Nat → Nat
  | 1 => 1 | 2 => 1 | 3 => 2 | 4 => 2 | 5 => 3 | _ => 0

/-- A command judged against the one in force (05 R113). -/
def State.protJudge (s : State) (g cmd : Nat) : State :=
  if cmd = 0 || decide (cmdPriority (s.rd F.protGroupCmdCmd g) ≤ cmdPriority cmd) then
    let unmirrored := s.flag F.mateCfgEn 0 && !s.joined
    ((s.wr F.protGroupCmdCmd g cmd).wr F.protGroupCmdLastResult g (if unmirrored then 4 else 1)).protAlarms g
  else
    let s := s.setGroup g { s.group g with refused := (s.group g).refused + 1 }
    (s.wr F.protGroupCmdLastResult g 2).count .protCmdRefused g

/-- A command judged in the tick in progress, and noted for a reset that the same tick may still bring (05 R114). -/
def State.protTake (s : State) (g cmd : Nat) : State :=
  let h := s.group g
  let s := if h.judged.isEmpty then
      s.setGroup g { h with
        judged := [cmd], refused := 0, cmdWas := s.rd F.protGroupCmdCmd g, resultWas := s.rd F.protGroupCmdLastResult g }
    else s.setGroup g { h with judged := h.judged ++ [cmd] }
  s.protJudge g cmd

/-- Whether P_LINK, S_LINK or EN of a group differ from those in force. -/
def State.protChanged (s : State) (g : Nat) : Bool :=
  let h := s.group g
  decide (s.rd F.protGroupCfgPLink g ≠ h.pLink) || decide (s.rd F.protGroupCfgSLink g ≠ h.sLink) ||
    (s.flag F.protGroupCfgEn g != h.en)

/-- PROT_GROUP_CFG stored. Where that means a reset at the next tick edge, the commands of the tick in progress wait for the reset's judgement, and
CMD and LAST_RESULT read as they did before them (05 R114). -/
def State.protCfg (s : State) (g : Nat) : State :=
  let s := s.protRetime g
  let h := s.group g
  if s.protChanged g && !h.judged.isEmpty then
    let s := s.setGroup g { h with waiting := h.judged ++ h.waiting, judged := [], refused := 0 }
    let s := s.setWord .protCmdRefused g (s.word .protCmdRefused g - BitVec.ofNat 64 h.refused)
    ((s.wr F.protGroupCmdCmd g h.cmdWas).wr F.protGroupCmdLastResult g h.resultWas).protAlarms g
  else s

/-- A group brought up to its configuration at a tick edge, and commands that waited for that judged, in order (05 R114). -/
def State.protSync (s : State) (g : Nat) : State :=
  let s := s.when (s.group g).en (·.protRetime g)
  let s := if s.protChanged g then
      let s := s.protReset g
      let s := s.when (!s.flag F.protGroupCfgEn g) fun s => s.setGroup g { s.group g with lastCmd := 0, lastCode := 0, lastParam := 0 }
      s.setGroup g { s.group g with
        pLink := s.rd F.protGroupCfgPLink g, sLink := s.rd F.protGroupCfgSLink g, en := s.flag F.protGroupCfgEn g }
    else s
  let w := (s.group g).waiting
  let s := s.setGroup g { s.group g with waiting := [], judged := [], refused := 0 }
  let s := s.each w fun c s => s.protJudge g c
  s.setGroup g { s.group g with govern := s.rd F.protGroupCmdCmd g }

/-- A command write by a master (05 R113 to R115): an error response where EN is 0 or the code reserved; mirrored in a joined pair;
left for the reset's judgement where the group is to be reset at the next tick edge; else judged now. `atEpoch` says that the epoch
armed for the next edge changes the group. -/
def State.protCommand (s : State) (m : Master) (g cmd : Nat) (atEpoch : Bool) : State :=
  let addr := regAddr .protGroupCmd g
  if !s.flag F.protGroupCfgEn g || decide (5 < cmd) then s.errResp m addr true .value
  else s.mirrored addr 0xFF (BitVec.ofNat 64 cmd) fun s =>
    if s.protChanged g || atEpoch then s.setGroup g { s.group g with waiting := (s.group g).waiting ++ [cmd] }
    else s.protTake g cmd

/-- The links of the enabled groups other than `g`. -/
def State.groupLinks (s : State) (g : Nat) : List Nat :=
  (List.range 64).flatMap fun j =>
    if j ≠ g && s.flag F.protGroupCfgEn j then [s.rd F.protGroupCfgPLink j, s.rd F.protGroupCfgSLink j] else []

/-- Whether two links of lags `d1`, `d2` may form a group: R20's generations, quads and stacks (01 R20). -/
def State.pairOk (s : State) (p t : Nat) : Bool :=
  let deep := fun l => decide (3 < s.rd F.lagLinkCfgD l) && decide (s.rd F.lagLinkCfgMode l = 2)
  decide (s.gen p = s.gen t) && decide (p / 4 ≠ t / 4) && (!(deep p || deep t) || decide (p / 32 ≠ t / 32))

/-- Whether a value of PROT_GROUP_CFG keeps 05 R104, 04 R97 and 01 R20 for group `g`. -/
def State.groupCfgOk (s : State) (g v : Nat) : Bool :=
  let p := field v 0 7
  let t := field v 8 7
  if !bit v 16 then true
  else decide (p ≠ t) && decide (s.rd F.lagLinkCfgMode p ≠ 0) && decide (s.rd F.lagLinkCfgMode t ≠ 0) &&
    !(s.groupLinks g).contains p && !(s.groupLinks g).contains t && s.pairOk p t &&
    decide (s.rd F.lagLinkCfgFbLag p = 0) && decide (s.rd F.lagLinkCfgFbLag t = 0)

/-- Whether a value of PROT_BRIDGE_CFG keeps 05 R116 for bridge `b`. `silent` says that every emit entry of a link is SILENCE. -/
def State.bridgeCfgOk (s : State) (b v : Nat) (silent : Nat → Bool) : Bool :=
  let p := field v 0 7
  let t := field v 8 7
  let others := (List.range 64).flatMap fun j =>
    if j ≠ b && s.flag F.protBridgeCfgEn j then [s.rd F.protBridgeCfgSrcLink j, s.rd F.protBridgeCfgCopyLink j] else []
  if !bit v 16 then true
  else decide (s.gen p = s.gen t) && decide (p / 4 ≠ t / 4) && !others.contains p && !others.contains t && silent t

/-! ### Protection messages (05 R118 to R120; 03 R63) -/

/-- A PROTECT block's word. -/
def protectWord (index target code param : Nat) : Word :=
  let body := index + target * 2 ^ 6 + 2 ^ 7 + code * 2 ^ 8 + param * 2 ^ 12
  BitVec.ofNat 64 (0x69 + body * 2 ^ 8 + crc8 48 body * 2 ^ 56)

/-- The messages an egress link has to send, in order: ascending (TARGET, INDEX), the group's first on equal values; over the links in force (05 R114,
R118, R119). -/
def State.protMessages (s : State) (l : Nat) : List Word :=
  let groups := (List.range 64).filterMap fun g =>
    let h := s.group g
    if h.en && s.flag F.protGroupCfgReport g && (h.pLink = l || h.sLink = l) then
      some (s.rd F.protGroupCfgFarTarget g, s.rd F.protGroupCfgFarIndex g, h.lastCode, h.lastParam + 8 * b2n (h.pLink ≠ l))
    else none
  let bridges := (List.range 64).filterMap fun b =>
    let w := (Tbl.get 0 s.prot.legs b).toNat
    if bit w 16 && bit w 18 && (field w 0 7 = l || field w 8 7 = l) then
      some (field w 30 1, field w 24 6, 0, 8 * b2n (field w 0 7 ≠ l))
    else none
  let all := groups ++ bridges
  let lt := fun (a b : Nat × Nat × Nat × Nat) => decide (a.1 * 64 + a.2.1 ≤ b.1 * 64 + b.2.1)
  let sorted := match all with
    | [a, b] => if lt a b then [a, b] else [b, a]
    | l => l
  sorted.map fun x => protectWord x.2.1 x.1 x.2.2.1 x.2.2.2

/-- FRESH entries of a leg register judged for the far-fail and crossed alarms (05 Table 05-5). -/
def State.protRxAlarms (s : State) (bridge : Bool) (i : Nat) : State :=
  let w := (s.word (if bridge then .protRxBridge else .protRxGroup) i).toNat
  let leg := fun b => (bit w (b + 8), field w b 4, bit w (b + 9))
  let (f0, c0, x0) := leg 0
  let (f1, c1, x1) := leg 16
  let far := fun c => decide (c = 4 ∨ c = 7)
  let s := if bridge then s.setAlarm A.protFarFail (64 + i) ((f0 && far c0) || (f1 && far c1)) else s
  s.setAlarm A.protLegCrossed (if bridge then 64 + i else i) ((f0 && x0) || (f1 && x1))

/-- Key of a leg's last-message tick: group or bridge, index, leg. -/
def legKey (bridge : Bool) (i leg : Nat) : Nat := (if bridge then 128 else 0) + 2 * i + leg

/-- A message stored in a leg's entry (05 R120). -/
def State.protStore (s : State) (bridge : Bool) (i leg code param : Nat) : State :=
  let r := if bridge then Reg.protRxBridge else Reg.protRxGroup
  let crossed := b2n (bit param 3) ≠ leg
  let v := code + param * 16 + 2 ^ 8 + b2n crossed * 2 ^ 9
  let s := s.setWord r i (BitVec.ofNat 64 (putField (s.word r i).toNat (16 * leg) 10 v))
  let k := legKey bridge i leg
  let s := { s with prot := { s.prot with rxTick := Tbl.insert k s.tick.n (Tbl.erase k s.prot.rxTick) } }
  s.protRxAlarms bridge i

/-- A PROTECT block received on ingress link `l` that passed R63, matched over the links in force (05 R114, R120). -/
def State.protReceive (s : State) (l w : Nat) : State :=
  let i := field w 8 6
  let bridge := bit w 14
  let code := field w 16 4
  let param := field w 20 4
  let leg := (Tbl.get 0 s.prot.legs i).toNat
  let h := s.group i
  let en := if bridge then bit leg 16 else h.en
  let l0 := if bridge then field leg 0 7 else h.pLink
  let l1 := if bridge then field leg 8 7 else h.sLink
  let s := s.when (decide (8 ≤ code)) (·.count .protRxReserved 0)
  if decide (8 ≤ code) then s
  else if en && l0 = l then s.protStore bridge i 0 code param
  else if en && l1 = l then s.protStore bridge i 1 code param
  else s.count .protRxUnmatched 0

end Sys2Proof.Machine
end

