-- ==== Sys2Proof/Machine/Concord.lean ====
section
/-! DEFINITION. The wiring plan and concordance (08 R185, R208, R209): what the receivers compare with the almanac. -/

namespace Sys2Proof.Machine

/-- Quad `q`'s generation and facing in a wiring plan (08 Table 08-3). -/
def AlmImg.gen (a : AlmImg) (q : Nat) : Nat := field (Tbl.get 0 a.quads q).toNat 0 2
def AlmImg.facing (a : AlmImg) (q : Nat) : Nat := field (Tbl.get 0 a.quads q).toNat 2 2

/-- Whether a link's quad is device-facing under the active almanac. -/
def State.deviceFacing (s : State) (l : Nat) : Bool :=
  s.flag F.almStateActiveValid 0 && decide (l < 128) && s.alm.active.facing (l / 4) = 1

/-- The planned far end (device, link) of a device-facing ingress link; an unpaired device uses the rank-0 plan (08 R185, 01 R14, R21). -/
def State.wiringPlan (s : State) (l : Nat) : Option (Nat × Nat) :=
  if s.deviceFacing l then
    let w := (Tbl.get 0 s.alm.active.links l).toNat
    if s.flag F.mateCfgEn 0 && s.mate.rank then some (field w 32 11, field w 48 7) else some (field w 0 11, field w 16 7)
  else none

/-- The SETID in force at the tick of a stamp (03 R76). -/
def State.ownSetidAt (s : State) (stamp : Nat) : Nat :=
  if s.localTick stamp < s.alm.swapTick then s.alm.oldSetid.toNat else (s.word .almActiveSetid 0).toNat

/-- An assembly of a SETID noted for the vouching of its link (08 R208). -/
def State.vouchNote (s : State) (l : Nat) (matched : Bool) : State :=
  let old := Tbl.get [] s.alm.vouch l
  { s with alm := { s.alm with vouch := Tbl.set [] s.alm.vouch l (((2 * s.tick.n + b2n matched) :: old).take 2) } }

/-- Whether a link is vouched in the tick in progress (08 R208). -/
def State.vouched (s : State) (l : Nat) : Bool :=
  s.inSync l && decide (s.rd F.linkIdentRxInfoKind l = 0) &&
    match Tbl.get [] s.alm.vouch l with
    | [a, b] => a % 2 = 1 && b % 2 = 1 && decide (s.tick.n ≤ a / 2 + 24) && decide (s.tick.n ≤ b / 2 + 24)
    | _ => false

/-- ALM_VOUCHED word `w` (08 R208). -/
def State.vouchedWord (s : State) (w : Nat) : Word :=
  BitVec.ofNat 64 ((List.range 64).foldl (fun a j => if s.vouched (64 * w + j) then a + 2 ^ j else a) 0)

/-- CONCORDANT (08 R208). -/
def State.concordant (s : State) : Bool :=
  s.flag F.almStateActiveValid 0 &&
    (List.range 128).all fun l => !(s.deviceFacing l && decide (s.gen l ≠ 0)) || s.vouched l

/-- The own armed epoch as IDENT announces it: ARMED, tick, epoch (03 Table 03-4). -/
def State.ownArmed (s : State) : Bool × Nat × Nat :=
  let e := s.rd F.almStateEstate 0
  if e = 1 || e = 2 then (true, s.rd F.almArmedArmedTick 0, s.rd F.almArmedArmedEpoch 0) else (false, 0, 0)

/-- ARM_DISAGREE of a link raised or cleared, with its bit (08 R209, Table 08-14). -/
def State.setArmDis (s : State) (l : Nat) (b : Bool) : State :=
  (s.wrBit F.almArmDisD (l / 64) (l % 64) b).setAlarm A.armDisagree l b

/-- The neighbour's armed epoch, newly assembled, compared with this device's (08 R209). -/
def State.armCompare (s : State) (l : Nat) : State :=
  if !(decide (l < 128) && s.vouched l) then s else
  let r := s.rx l
  let theirs := (s.flag F.linkIdentRxInfoArmed l, (s.word .linkIdentRxArmed l).toNat % 2 ^ 32, (s.word .linkIdentRxArmed l).toNat / 2 ^ 32)
  let own := s.ownArmed
  if !own.1 && !theirs.1 then (s.setRx l { r with armDisRun := 0, armOkRun := 0 }).setArmDis l false
  else if theirs = own then
    let s := s.setRx l { r with armDisRun := 0, armOkRun := bump 2 r.armOkRun }
    if 2 ≤ r.armOkRun + 1 then s.setArmDis l false else s
  else
    let s := s.setRx l { r with armDisRun := bump 2 r.armDisRun, armOkRun := 0 }
    if 2 ≤ r.armDisRun + 1 then s.setArmDis l true else s

/-- ARM_DISAGREE cleared on every link where neither side is armed any more (08 R209). -/
def State.armIdle (s : State) : State :=
  if s.ownArmed.1 then s else
  s.eachN 128 fun l s => if s.active A.armDisagree l && !s.flag F.linkIdentRxInfoArmed l then s.setArmDis l false else s

/-! ### Watches of a lichen pair (10 R259) -/

/-- ROLE codes of 10 Table 10-11. -/
abbrev roleJoining : Nat := 0
abbrev roleActive : Nat := 1
abbrev roleVigil : Nat := 2
abbrev roleUnpaired : Nat := 3

def State.role (s : State) : Nat := s.rd F.mateStateRole 0

/-- Whether watch `w` shows the copy of the senior, or of the junior, lost: a matching message with that copy's PARAM bit at 1 came within the last
48 ticks. -/
def State.watchShows (s : State) (w : Nat) (senior : Bool) : Bool :=
  let seen := Tbl.get (0, 0) s.mate.watch w
  let b := if senior then s.rd F.mateWatchBit w else 1 - s.rd F.mateWatchBit w
  let at' := if b = 0 then seen.1 else seen.2
  s.flag F.mateWatchEn w && decide (0 < at') && decide (s.tick.n + 1 < at' + 48)

/-- The watches whose lost copy is the ACTIVE unit's: the own one where this unit is ACTIVE, else the mate's. -/
def State.watchWord (s : State) : Nat :=
  let senior := if s.role = roleActive then !s.mate.rank else s.mate.rank
  (List.range 64).foldl (fun a w => if s.watchShows w senior then a + 2 ^ w else a) 0

/-- MATE_WATCH_LOST, register and alarm. -/
def State.watchSync (s : State) : State :=
  if s.mate.watch.isEmpty && (s.word .mateWatchLost 0 = 0) then s else
  let w := s.watchWord
  (s.setWord .mateWatchLost 0 (BitVec.ofNat 64 w)).setAlarm A.mateWatchLost 0 (decide (w ≠ 0))

end Sys2Proof.Machine
end

