-- ==== Sys2Proof/Machine/Mix.lean ====
section
/-! DEFINITION. The mixing arithmetic (07): rounding, gain codes, slot layouts, emit entries, sum terms, constants, converters, G.711. -/

namespace Sys2Proof.Machine

/-! ### Rounding and gains (07 R155, R156, R163) -/

/-- rhu(v / 2^s): half rounds upward (07 R155). -/
def rhu (v : Int) (s : Nat) : Int := (v + 2 ^ (s - 1)) / 2 ^ s

/-- `v` held between `-n` and `n - 1`. -/
def satTo (n : Int) (v : Int) : Int := if v < -n then -n else if n ≤ v then n - 1 else v
def sat24 (v : Int) : Int := satTo 8388608 v
def sat16 (v : Int) : Int := satTo 32768 v

/-- Whether 2^20 · 10^((c − 3840) / 400) is at least g − 1/2. -/
def gainAtLeast (c g : Nat) : Bool :=
  if c ≤ 3840 then decide ((2 * g - 1) ^ 400 * 10 ^ (3840 - c) ≤ 2 ^ 8400)
  else decide ((2 * g - 1) ^ 400 ≤ 2 ^ 8400 * 10 ^ (c - 3840))

/-- The largest `g` below `lo + 2^n` with `gainAtLeast`, `lo` having it. -/
def gainSearch (c : Nat) : Nat → Nat → Nat
  | 0, lo => lo
  | n + 1, lo => if gainAtLeast c (lo + 2 ^ n) then gainSearch c n (lo + 2 ^ n) else gainSearch c n lo

/-- G(c), Q4.20 (07 R156). -/
def gainOf (c : Nat) : Nat := if c = 0 then 0 else gainSearch c 23 0

/-- The soft limit (07 R163). -/
def softLimit (r : Int) : Int :=
  let k : Int := 4194304
  if k < r then k + (r - k) / 4 else if r < -k then -(k + (-r - k) / 4) else r

/-! ### Slots, terms and entries (07 R149, R153, R154) -/

/-- SAMPLE of an L24T8 slot. -/
def slotSample (w : Nat) : Int := signed 24 (w / 256)
def slotValid (w : Nat) : Bool := bit w 7
def slotTalk (w : Nat) : Bool := bit w 6
def slotUser (w : Nat) : Nat := field w 0 4

/-- A station value: sample and tag. -/
structure Sample where
  y : Int := 0
  valid : Bool := true
  talk : Bool := false
  user : Nat := 0
  deriving DecidableEq, Repr

/-- An L24T8 slot (07 Table 07-1). -/
def Sample.slot (x : Sample) (rate : Nat) : Nat :=
  unsigned 24 x.y * 2 ^ 8 + b2n x.valid * 2 ^ 7 + b2n x.talk * 2 ^ 6 + rate * 2 ^ 4 + x.user

abbrev termSrc (t : Nat) : Nat := field t 42 22
abbrev termSorus (t : Nat) : Nat := field t 24 18
abbrev termGain (t : Nat) : Nat := field t 12 12
abbrev termGate (t : Nat) : Bool := bit t 11

abbrev entryOp (e : Nat) : Nat := field e 76 4
abbrev entryOfmt (e : Nat) : Nat := field e 73 3
abbrev entrySrc (e : Nat) : Nat := field e 51 22
abbrev entrySorus (e : Nat) : Nat := field e 33 18
abbrev entryGain (e : Nat) : Nat := field e 21 12
abbrev entryOwn (e : Nat) : Nat := field e 9 12
abbrev entryLim (e : Nat) : Bool := bit e 8
abbrev entryTalkpass (e : Nat) : Bool := bit e 7
abbrev entryHoldbad (e : Nat) : Bool := bit e 6

/-- OP codes of 07 Table 07-5. -/
abbrev opSilence : Nat := 0
abbrev opCopy : Nat := 1
abbrev opRaw : Nat := 2
abbrev opSum : Nat := 3
abbrev opMinus : Nat := 4
abbrev opHold : Nat := 5

/-- Whether an operation reads its source word, its sorus word (06 Table 06-3). -/
def opReadsSrc (op : Nat) : Bool := op = opCopy || op = opRaw || op = opMinus
def opReadsSorus (op : Nat) : Bool := op = opSum || op = opMinus

/-- Whether an OFMT takes the legacy path, and whether it is a C8X4 one (07 Table 07-6). -/
def legacyFmt (f : Nat) : Bool := f = 1 || f = 2 || f = 4 || f = 5
def c8Fmt (f : Nat) : Bool := f = 4 || f = 5

/-- M of a legacy format. -/
def fmtRatio (f : Nat) : Nat := if f = 1 then 3 else 6

/-! ### Sources (07 R151, R152, R171) -/

/-- A source read's class (07 Table 07-3), with the slot where it is GOOD. -/
inductive SrcRead
  | good (w : Nat) | absent | faulted
  deriving DecidableEq, Repr

/-- Where a local source address reads (07 R152). -/
inductive SrcPlace
  | frame (link slot : Nat) | bridge (i : Nat) | const (i : Nat)
  deriving DecidableEq, Repr

def srcPlace (a : Nat) : SrcPlace :=
  if bit a 21 then
    if field a 0 21 < 16384 then .bridge (field a 0 14) else .const (field a 0 21)
  else .frame (field a 14 7) (field a 0 14)

/-- Samples of TONE_1K: rhu(838,861 sin(2π j / 48)) (07 Table 07-9). -/
def toneTable : List Int := [
  0, 109493, 217113, 321018, 419431, 510666, 593164, 665513, 726475, 775007, 810278, 831684,
  838861, 831684, 810278, 775007, 726475, 665513, 593164, 510666, 419431, 321018, 217113, 109493,
  0, -109493, -217113, -321018, -419430, -510666, -593164, -665513, -726475, -775007, -810278, -831684,
  -838861, -831684, -810278, -775007, -726475, -665513, -593164, -510666, -419430, -321018, -217113, -109493]

/-- A constant source read at release tick `t` (07 Table 07-9). -/
def constRead (i t : Nat) : SrcRead :=
  if i = 16384 then .good 0x80
  else if i = 16386 then .good (unsigned 24 (toneTable.getD (t % 48) 0) * 2 ^ 8 + 0xC0)
  else .absent

/-- A slot that was read, as a term, COPY or MINUS takes it: ABSENT where VALID is 0 (07 Table 07-3). -/
def asL24 (r : SrcRead) : SrcRead :=
  match r with
  | .good w => if slotValid w then .good w else .absent
  | r => r

/-! ### Sum terms (07 R157, R158) -/

/-- T of a term whose read is not FAULTED (07 R157). -/
def termValue (t : Nat) (r : SrcRead) : BitVec 56 :=
  match asL24 r with
  | .good w => if !termGate t || slotTalk w then BitVec.ofInt 56 (slotSample w * gainOf (termGain t)) else 0
  | _ => 0

/-! ### Emit entries (07 R160 to R170) -/

/-- What an entry gives: a station value, a word (RAW), the previous value, or the invalid outcome. -/
inductive EntryOut
  | value (x : Sample) | word (w : Nat) | previous | invalid
  deriving DecidableEq, Repr

/-- The outcome on unusable inputs (07 Table 07-7). -/
def unusable (e : Nat) : EntryOut := if entryHoldbad e then .previous else .invalid

/-- Station sample of an unbounded `r` (07 R162). -/
def stationSample (e : Nat) (r : Int) : Int := sat24 (if entryLim e then softLimit r else r)

/-- An entry's outcome: `src` its source read, `sorus` the sorus read (`none`: POISONED) (07 R160 to R167). -/
def entryOut (e : Nat) (src : SrcRead) (sorus : Option (BitVec 56)) : EntryOut :=
  let op := entryOp e
  let g : Int := gainOf (entryGain e)
  if op = opCopy then
    match asL24 src with
    | .good w =>
      let r := if entryTalkpass e || slotTalk w then rhu (slotSample w * g) 20 else 0
      .value ⟨stationSample e r, true, slotTalk w, slotUser w⟩
    | _ => unusable e
  else if op = opRaw then
    match src with
    | .good w => .word w
    | _ => unusable e
  else if op = opSum then
    match sorus with
    | some v => .value ⟨stationSample e (rhu (v.toInt * g) 40), true, false, 0⟩
    | none => unusable e
  else if op = opMinus then
    match sorus, asL24 src with
    | none, _ => unusable e
    | some _, .faulted => unusable e
    | some v, .good w =>
      let d := if entryTalkpass e || slotTalk w then v - BitVec.ofInt 56 (slotSample w * gainOf (entryOwn e)) else v
      .value ⟨stationSample e (rhu (d.toInt * g) 40), true, false, 0⟩
    | some v, .absent => .value ⟨stationSample e (rhu (v.toInt * g) 40), true, false, 0⟩
  else if op = opHold then .previous
  else .value {}

/-- A direct L24T8 or D32 slot (07 R167 to R169): `prev` the previous word, none where the ring returned an uncorrectable error. -/
def directSlot (fmt : Nat) (o : EntryOut) (prev : Option Nat) : Nat :=
  match o with
  | .value x => if fmt = 6 then 0 else x.slot 0
  | .word w => w
  | .previous => prev.getD 0
  | .invalid => 0

/-- An L16X2 half as a 16-bit code (07 R168, R170): `prev` the entry's own half before. -/
def halfSlot (o : EntryOut) (prev : Option Nat) : Nat :=
  match o with
  | .value x => unsigned 16 (sat16 (rhu x.y 8))
  | .word w => field w 16 16
  | .previous => prev.getD 0
  | .invalid => 0

/-! ### G.711 (07 R180) -/

/-- The A-law byte of a 24-bit sample (07 R180; a boundary magnitude belongs to the interval it begins, log entry 20). -/
def aLawEncode (d : Int) : Nat :=
  let e := max (min (rhu d 11) 4095) (-4096)
  let neg := decide (e < 0)
  let m := min 4095 e.natAbs
  let seg := if m < 32 then 0 else Nat.log2 m - 4
  let interval := if seg = 0 then m / 2 else (m / 2 ^ seg) % 16
  ((if neg then 0 else 128) + seg * 16 + interval) ^^^ 0x55

/-- The A-law reconstruction, times 2^11. -/
def aLawDecode (b : Nat) : Int :=
  let c := b ^^^ 0x55
  let seg := field c 4 3
  let i := field c 0 4
  let m := if seg = 0 then 2 * i + 1 else 2 ^ (seg + 4) + i * 2 ^ seg + 2 ^ (seg - 1)
  (if bit c 7 then (m : Int) else -(m : Int)) * 2048

/-- The µ-law byte of a 24-bit sample. -/
def muLawEncode (d : Int) : Nat :=
  let e := max (min (rhu d 10) 8159) (-8159)
  let neg := decide (e < 0)
  let m := min 8191 (e.natAbs + 33)
  let seg := Nat.log2 m - 5
  let interval := (m / 2 ^ (seg + 1)) % 16
  (b2n neg * 128 + seg * 16 + interval) ^^^ 0xFF

/-- The µ-law reconstruction, times 2^10. -/
def muLawDecode (b : Nat) : Int :=
  let c := b ^^^ 0xFF
  let m := (2 * field c 0 4 + 33) * 2 ^ field c 4 3 - 33
  (if bit c 7 then -(m : Int) else (m : Int)) * 1024

/-! ### Rate conversion (07 R173 to R178) -/

abbrev upSrc (c : Nat) : Nat := field c 0 22
abbrev upMode (c : Nat) : Nat := field c 22 3
abbrev upCh (c : Nat) : Nat := field c 25 2
abbrev upPhase (c : Nat) : Nat := field c 27 3

/-- M of an up-converter mode (07 Table 07-13). -/
def modeRatio (m : Nat) : Nat := if m = 1 then 3 else if m = 3 then 1 else 6

/-- Σ h[φ + M j] · H_j over `n` taps from `j` up (07 R175). -/
def upTaps (h : Nat → Int) (phi m : Nat) : Nat → List (BitVec 24) → Int
  | _, [] => 0
  | j, x :: t => h (phi + m * j) * x.toInt + upTaps h phi m (j + 1) t

/-- The output of an up-converter with M > 1 (07 R175). -/
def upOutput (h : Nat → Int) (phi m : Nat) (hist : List (BitVec 24)) : Int :=
  sat24 (rhu (m * upTaps h phi m 0 (hist.take (48 / m))) 17)

/-- Ticks from frame `m` on to the next frame that carries a new sample, from `d` ticks on: the first `n ≥ m + d` with n mod M = 0, as a distance
from `m`; n runs through unsigned tick numbers (07 R177). -/
def nextOutput (ratio m : Nat) : Nat → Nat → Nat
  | 0, d => d
  | fuel + 1, d => if (m + d) % 2 ^ 32 % ratio = 0 then d else nextOutput ratio m fuel (d + 1)

/-- `rhu(h[k] · v / 2^12)` added to each partial sum of an output within the next 48 frames; `d` is the distance of the first (07 R177). -/
def downFeed (h : Nat → Int) (ratio m : Nat) (v : Int) : Nat → Nat → List Int → List Int
  | 0, _, p => p
  | fuel + 1, d, p =>
    if 48 < d then p
    else (p.headD 0 + rhu (h (d - 1) * v) 12) :: downFeed h ratio m v fuel (nextOutput ratio m 6 (d + 1)) p.tail

end Sys2Proof.Machine
end

