-- ==== Sys2Proof/Machine/Loaded.lean ====
section
/-! DEFINITION. Addresses of registers, the almanac-loaded and mirrored ones, and which values a direct write may store (15 R383; the chapters'
field tables). -/

namespace Sys2Proof.Machine

/-! ### Addresses (15 R378, Table 15-1; 10 R244) -/

/-- The register of a block, among `regs`, whose instance lies at offset `o`. -/
def regIn (b : RegBlock) (o : Nat) : Option (Reg × Nat) :=
  Reg.all.findSome? fun r =>
    let p := r.place
    if p.block ≠ b then none
    else (List.range p.count).findSome? fun j => if p.off + p.stride * (p.first + j) = o then some (r, p.first + j) else none

/-- A LINK or LANE block's register: instances by link and by lane. -/
def unitReg (b : RegBlock) (unit o : Nat) : Option (Reg × Nat) :=
  match regIn b o with
  | some (r, j) =>
    if b = .lane && r.place.count = 4 then
      if unit < 32 then some (r, 4 * unit + j) else if j < 2 then some (r, 128 + j) else none
    else some (r, unit)
  | none => none

/-- The blocks of 64 KiB from 0x00_0100_0000 up, in order. -/
def plainBlock : Nat → Option RegBlock
  | 0 => some .sys | 1 => some .bus | 2 => some .tim | 3 => some .mate | 4 => some .alm | 5 => some .core | 6 => some .lag
  | 7 => some .prot | 8 => some .ecc | 9 => some .pm | 10 => some .log | 11 => some .nvm | 12 => some .hbm | _ => none

/-- The register word at a control-bus address, with its instance. -/
def regAt (a : Nat) : Option (Reg × Nat) :=
  if 0x1400000 ≤ a && a < 0x1600000 then unitReg .link ((a - 0x1400000) / 0x4000) (a % 0x4000)
  else if 0x1600000 ≤ a && a < 0x1680000 then unitReg .lane ((a - 0x1600000) / 0x4000) (a % 0x4000)
  else if 0x1034000 ≤ a && a < 0x1038000 then unitReg .link 128 (a % 0x4000)
  else if 0x1038000 ≤ a && a < 0x103C000 then unitReg .link 129 (a % 0x4000)
  else if 0x103C000 ≤ a && a < 0x1040000 then unitReg .lane 32 (a % 0x4000)
  else if 0x1000000 ≤ a && a < 0x10D0000 then
    match plainBlock ((a - 0x1000000) / 0x10000) with
    | some b => regIn b (a % 0x10000)
    | none => none
  else none

/-! ### Attributes (15 R383) -/

/-- Almanac-loaded registers: attribute A (08 R186, 09 R242, 10 R277). -/
def loadedRegs : List Reg := [
  .linkCtrl, .laneTxfirPreset, .laneAdaptCfg, .lagStackCfg, .lagLinkCfg, .protGroupCfg, .protBridgeCfg, .coreSumCount,
  .timCfg, .timSlope, .timAdoptCfg, .timRefCfg, .timOutCfg, .mateCfg, .mateWatch]

/-- How many instances of an almanac-loaded register there are (links 0 to 127, quads 0 to 31). -/
def loadedCount (r : Reg) : Nat :=
  match r.place.block with | .link => 128 | .lane => 32 | _ => r.place.count

/-- Whether instance `i` of a register is almanac-loaded: the mate's LINK and LANE copies never are. -/
def Reg.isLoaded (r : Reg) (i : Nat) : Bool :=
  loadedRegs.contains r && (match r.place.block with | .link => decide (i < 128) | .lane => decide (i < 32) | _ => true)

/-- Whether a register is mirrored in a joined pair: attribute M (10 R265). -/
def Reg.isMirrored (r : Reg) (i : Nat) : Bool :=
  r.isLoaded i || [Reg.almSlotCmd, .almArm, .almArmCmd, .almTrimCmd, .almAuditCtrl, .protGroupCmd, .mateCmd].contains r

/-! ### What a write stores -/

/-- Whether a write of `v` leaves a field as it was, its code being reserved: LINK_CTRL.USER_MODE and the PAT fields of LANE_PRBS_CTRL at 0b11 (03
Table 03-8, 02 Table 02-5). -/
def Reg.keeps (r : Reg) (f : Field) (v : Nat) : Bool :=
  match r with
  | .linkCtrl => f.lo = 0 && field v 0 2 = 3
  | .lanePrbsCtrl => (f.lo = 8 || f.lo = 10) && field v f.lo 2 = 3
  | _ => false

/-- The word of a register after a write of `v`: its RW fields take their bits, but for those that `v` leaves as they were (00 R7). -/
def Reg.stored (r : Reg) (old v : Nat) : Nat :=
  r.fields.foldl (fun w f =>
    if f.access = .rw && !r.keeps f.field v then
      putField w f.field.lo f.field.width (field v f.field.lo f.field.width)
    else w) old

/-- The word of an almanac-loaded register under an almanac: its record over the reset value (08 R186). -/
def AlmImg.loaded (a : AlmImg) (r : Reg) (i : Nat) : Nat :=
  match a.regs.find? fun x => decide (x.1 = regAddr r i) with
  | some x => r.stored r.reset.toNat x.2.toNat
  | none => r.reset.toNat

/-! ### Values a direct write may store -/

/-- Whether a link belongs to an enabled protection group. -/
def State.grouped (s : State) (l : Nat) : Bool :=
  (List.range 64).any fun g => s.flag F.protGroupCfgEn g &&
    (decide (s.rd F.protGroupCfgPLink g = l) || decide (s.rd F.protGroupCfgSLink g = l))

/-- Whether every emit entry of station `k` is a SILENCE. -/
def State.stationSilent (s : State) (k : Nat) : Bool :=
  s.core.emit.all fun e => decide (e.1 / 16384 ≠ k) || decide (entryOp e.2.toNat = opSilence)

/-- The FIR rules of 02 Table 02-3. -/
def firOk (pre main post : Nat) : Bool :=
  decide (pre ≤ 16) && decide (32 ≤ main) && decide (main ≤ 64) && decide (post ≤ 24) && decide (pre + main + post ≤ 64) &&
    decide (20 + pre + post ≤ main)

/-- Whether a reference type is allowed on reference `i` (09 Table 09-2). -/
def refTypeOk (i ty : Nat) : Bool := ty = 0 || (decide (1 ≤ ty) && decide (ty ≤ 5) && decide (i < 8)) || (ty = 6 && decide (8 ≤ i))

/-- Pages that the links other than `l` take under the present configuration. -/
def State.pagesOthers (s : State) (l : Nat) : Nat :=
  (List.range 128).foldl (fun a j =>
    if j = l then a
    else if s.rd F.lagLinkCfgMode j = 1 then a + allotment (s.rd F.lagLinkCfgD j) (s.gen j)
    else if (s.lagLink j).fb.isSome then a + s.rd F.lagLinkStatePoolPages j
    else a) 0

/-- Whether the allotment of a link's new settings fits the pool beside what the others take (04 R96, R98). -/
def State.allotFits (s : State) (l mode d : Nat) : Bool :=
  mode ≠ 1 || decide (s.pagesOthers l + allotment d (s.gen l) ≤ 2048)

/-- Whether value `v` keeps the rule its chapter gives for register `r`, instance `i` (12 R332). -/
def State.valueOk (s : State) (r : Reg) (i v : Nat) : Bool :=
  match r with
  | .laneTxfirPreset => firOk (field v 0 5) (field v 8 7) (field v 16 5)
  | .lagLinkCfg =>
    lagCfgOk (field v 16 2) (field v 0 14) (field v 20 2) (s.gen i) (s.grouped i) && s.allotFits i (field v 16 2) (field v 0 14)
  | .protGroupCfg => s.groupCfgOk i v
  | .protBridgeCfg => s.bridgeCfgOk i v s.stationSilent
  | .coreSumCount => decide (field v 0 16 ≤ 32768)
  | .timCfg => decide (1 ≤ field v 40 8) && decide (field v 40 8 ≤ 100) && decide (1 ≤ field v 32 8) && decide (field v 32 8 ≤ 150)
  | .timSlope =>
    decide (10 ≤ field v 0 32) && decide (field v 0 32 ≤ 50000) && decide (10 ≤ field v 32 32) && decide (field v 32 32 ≤ 50000)
  | .timRefCfg => refTypeOk i (field v 0 3) && decide (field v 16 16 ≤ 5000)
  | .timOutCfg =>
    decide (field v 0 4 ≤ (if i < 4 then 3 else 8)) && decide (-83333 ≤ signed 18 (field v 32 18)) &&
      decide (signed 18 (field v 32 18) ≤ 83333)
  | .eccTestCfg => decide (16 ≤ field v 32 32)
  | .busBar2Base => decide (field v 0 5 < 24)
  | .pmBwCfg => decide (48 ≤ field v 0 16) && decide (field v 0 16 ≤ 48000) && decide (48000 % field v 0 16 = 0)
  | _ => true

/-- A direct write of a configuration register: at expert level, its value within its chapter's rule; mirrored in a joined pair where the
register is, else stored at once and followed by `f` (12 R331, R332; 10 R265). -/
def State.cfgWrite (s : State) (m : Master) (r : Reg) (i : Nat) (v : Word) (f : State → State) : State :=
  let addr := regAddr r i
  s.expertOnly m addr fun s => s.valueOnly m addr (s.valueOk r i v.toNat) fun s =>
    let put := fun (s : State) => f (s.setWord r i (BitVec.ofNat 64 (r.stored (s.word r i).toNat v.toNat)))
    if r.isMirrored i then s.mirrored addr 0xFF v put else put s

end Sys2Proof.Machine
end

