-- ==== Sys2Proof/Machine/Line.lean ====
section
/-! DEFINITION. What a transmitter puts onto its lane (03 R52, R53, R57; 02 R25, R38, R39, R43, R44): frames and STUFF as a stream of 66-bit blocks,
PRBS patterns, the clock lane, and the loops that bring a transmitter's stream back to its own receiver. -/

namespace Sys2Proof.Machine

/-! ### Frames as blocks (03 R53, R55) -/

/-- A STUFF block (03 R54, R64). -/
abbrev stuffBlock : Block := ⟨2, 0xF0⟩

/-- The words of a frame in line order, data headers for payload and control headers for the rest. -/
def TxFrame.blocks (f : TxFrame) : List Block :=
  f.overhead.map (fun w => ⟨2, w⟩) ++ (List.range f.payloadBlocks).map (fun p => ⟨1, Tbl.get 0 f.payload p⟩) ++
    List.replicate f.stuff stuffBlock

/-- Blocks scrambled as they go onto the line, and the scrambler after them (03 R53). -/
def scrambleBlocks : List Block → BitVec 58 → List Block × BitVec 58
  | [], st => ([], st)
  | b :: bs, st =>
    let (w, st) := scramble st b.word
    let (rest, st) := scrambleBlocks bs st
    (⟨b.hdr, w⟩ :: rest, st)

/-- The frame as it goes onto the line. -/
def TxFrame.line (f : TxFrame) : List Block := (scrambleBlocks f.blocks f.scrambler).1

/-- The scrambler after `bs`, from state `st`. -/
def scramblerAfter (bs : List Block) (st : BitVec 58) : BitVec 58 := bs.foldl (fun st b => (scramble st b.word).2) st

/-- Whether a link sends STUFF only because its station is disabled (06 R143). -/
def State.stationOff (s : State) (k : Nat) : Bool := s.rdBit F.coreStationDisDis (k / 64) (k % 64)

/-- Whether a link's transmitter is at electrical idle: an unusable device (13 R339), a stopped mate port (10 R245). -/
def State.txIdle (s : State) (l : Nat) : Bool := s.boot.unusable || (decide (128 ≤ l) && s.mate.idle)

/-- Whether a link's framer sends no frames: STUFF only (06 R143) or nothing at all. -/
def State.noFrames (s : State) (l : Nat) : Bool := s.txIdle l || (decide (l < 128) && s.stationOff l)

/-- Block `i` of the unbroken stream, counted from the first block of the last frame: that frame, then STUFF while no frame is due; before any
frame, and on a link whose framer sends none, STUFF (03 R52, R57; 06 R143). -/
def State.streamBlock (s : State) (l i : Nat) : Block :=
  if s.noFrames l then stuffBlock
  else match (s.tx l).sent with
    | some f => f.blocks.getD i stuffBlock
    | none => stuffBlock

/-! ### PRBS (02 R38, R39) -/

/-- The two taps of a PAT code's polynomial: x^7 + x^6 + 1, x^15 + x^14 + 1, x^31 + x^28 + 1 (02 Table 02-5). -/
def prbsTaps (pat : Nat) : Nat × Nat := if pat = 0 then (7, 6) else if pat = 1 then (15, 14) else (31, 28)

/-- The bit that follows, `st` holding the pattern's last 31 bits, newest lowest. -/
def prbsNext (pat : Nat) (st : BitVec 31) : Bool :=
  xor (st.getLsbD ((prbsTaps pat).1 - 1)) (st.getLsbD ((prbsTaps pat).2 - 1))

/-- A bit taken into a pattern's last 31 bits. -/
def prbsShift (st : BitVec 31) (b : Bool) : BitVec 31 := BitVec.ofNat 31 (st.toNat * 2 + b2n b)

/-- The generator's next `n` line bits, as a number whose bit 0 goes first, inverted where INVERT says so, and the generator after them. -/
def prbsRun (pat : Nat) (invert : Bool) : Nat → BitVec 31 → Nat × BitVec 31
  | 0, st => (0, st)
  | n + 1, st =>
    let b := prbsNext pat st
    let (w, st) := prbsRun pat invert n (prbsShift st b)
    (b2n (xor b invert) + 2 * w, st)

/-- A checker given one received bit; answers whether the bit was checked and whether it was errored.  It takes the polynomial's degree of bits as its
seed and runs its reference on from them by itself; 64 error-free bits after the seed lock it, and an errored one before that starts the seed
again (DEDUCED, log entry 55); once locked it counts every bit, and 16 errored among the last 64 end the lock and start the seed again. -/
def PrbsH.bit (p : PrbsH) (pat : Nat) (invert b : Bool) : PrbsH × Bool × Bool :=
  let b := xor b invert
  if p.seeded < (prbsTaps pat).1 then ({ p with seeded := p.seeded + 1, ref := prbsShift p.ref b }, false, false)
  else
    let want := prbsNext pat p.ref
    let bad := xor want b
    let p := { p with ref := prbsShift p.ref want }
    if p.locked then
      let errs : BitVec 64 := BitVec.ofNat 64 (p.errs.toNat * 2 + b2n bad)
      (if 16 ≤ popcount 64 errs.toNat then {} else { p with errs := errs }, true, bad)
    else if bad then ({}, false, false)
    else ({ p with run := bump 64 p.run, locked := decide (64 ≤ p.run + 1) }, false, false)

/-- A checker given the `n` low bits of `w`, bit 0 first; answers how many were checked and errored. -/
def PrbsH.take (pat : Nat) (invert : Bool) : Nat → Nat → PrbsH → Nat → Nat → PrbsH × Nat × Nat
  | 0, _, p, c, e => (p, c, e)
  | n + 1, w, p, c, e =>
    let (p, chk, bad) := p.bit pat invert (w % 2 = 1)
    PrbsH.take pat invert n (w / 2) p (c + b2n chk) (e + b2n bad)

/-- A block's 66 bits in line order, bit 0 first: H[0], H[1], W[0] to W[63] (03 R52). -/
def lineBits (hdr : BitVec 2) (w : Word) : Nat := hdr.toNat + 4 * w.toNat

/-! ### The lanes' outputs (02 R25, R38, R43) -/

/-- What a data lane sends: nothing, the stream of 66-bit blocks, a PRBS pattern from its generator's state, or the retimed signal of the far end. -/
inductive LaneOut
  | silent
  | blocks
  | prbs (pat : Nat) (invert : Bool) (state : BitVec 31)
  | farEnd
  deriving DecidableEq, Repr

/-- What a link's lane sends at its transmit balls (02 R38, Table 02-6; 03 R52, R57). -/
def State.laneOut (s : State) (l : Nat) : LaneOut :=
  let q := quadOf l
  if s.txIdle l then .silent
  else if s.rd F.laneCtrlLoop q = 3 then .farEnd
  else if !s.flag F.laneStatePllLock q then .silent
  else if s.laneBit F.lanePrbsCtrlTxEn l then
    .prbs (s.rd F.lanePrbsCtrlTxPat q) (s.flag F.lanePrbsCtrlInvert q) (s.tx l).prbs
  else .blocks

/-- Whether a link's frames leave its balls: its lane sends the stream of blocks (02 R38, R44). -/
def State.framesLeave (s : State) (l : Nat) : Bool := s.laneOut l = .blocks

/-- What a quad's clock lane sends: nothing, its own square wave, or the retimed clock of the far end. -/
inductive ClockOut
  | silent
  | square
  | farEnd
  deriving DecidableEq, Repr

/-- The clock lane's output: the square wave exactly while the transmit PLL is locked, whatever the data lanes do (02 R25, Table 02-6). -/
def State.clockOut (s : State) (q : Nat) : ClockOut :=
  if s.txIdle (linkAt q 0) then .silent
  else if s.rd F.laneCtrlLoop q = 3 then .farEnd
  else if s.flag F.laneStatePllLock q then .square
  else .silent

/-- The level of the square wave in unit interval `i`: the line pattern 0b1111_0000 repeated (02 R25). -/
def clockLevel (i : Nat) : Bool := bit 0xF0 (7 - i % 8)

/-- A generation's baud rate, and its clock lane's frequency in Hz, one eighth of it (02 Table 02-1). -/
def genBaud : Nat → Nat
  | 1 => 6640625000 | 2 => 13281250000 | 3 => 26562500000 | _ => 0
def clockLaneHz (gen : Nat) : Nat := genBaud gen / 8

/-! ### The near-end loops (02 R43, R44) -/

/-- Whether a link's receiver takes its own transmitter's signal instead of its balls' (02 Table 02-6). -/
def State.nearLoop (s : State) (l : Nat) : Bool :=
  let loop := s.rd F.laneCtrlLoop (quadOf l)
  loop = 1 || loop = 2

/-- Whether what comes back is the PRBS pattern: the loop at the serialiser's output.  The parallel loop returns the framer's blocks, PRBS or
not (DEDUCED, log entry 55). -/
def State.loopPrbs (s : State) (l : Nat) : Bool :=
  s.rd F.laneCtrlLoop (quadOf l) = 1 && s.laneBit F.lanePrbsCtrlTxEn l

/-- The next 66 bits that a near-end loop brings to a link's receiver, as header and line word.  The serial loop is cut at the receiver's candidate
bit position, the parallel one at the blocks (log entry 55). -/
def State.loopBlock (s : State) (l : Nat) : BitVec 2 × BitVec 64 × State :=
  let t := s.tx l
  if s.loopPrbs l then
    let q := quadOf l
    let (w, st) := prbsRun (s.rd F.lanePrbsCtrlTxPat q) (s.flag F.lanePrbsCtrlInvert q) 66 t.prbs
    (BitVec.ofNat 2 w, BitVec.ofNat 64 (w / 4), s.setTx l { t with prbs := st })
  else
    let b := s.streamBlock l t.loopPos
    let (w, scr) := scramble t.loopScr b.word
    let s' := s.setTx l { t with loopPos := t.loopPos + 1, loopScr := scr }
    let off := if s.rd F.laneCtrlLoop (quadOf l) = 1 then (s.rx l).bitPos else 0
    let c := s.streamBlock l (t.loopPos + 1)
    let both := lineBits b.hdr w + 2 ^ 66 * lineBits c.hdr (scramble scr c.word).1
    let cut := both / 2 ^ off
    (BitVec.ofNat 2 cut, BitVec.ofNat 64 (cut / 4), s')

/-- The frame that a near-end loop brings to a link's receiver, for one whose FM's first bit has just come back: timing as in `f`, content as the
link's own transmitter sent it (02 R44); a PRBS pattern leaves what the command brought. -/
def State.loopFrame (s : State) (l : Nat) (f : RxFrame) : RxFrame :=
  if !s.nearLoop l || s.loopPrbs l then f
  else
    let gen := s.gen l
    let b := fun i => s.streamBlock l i
    let from' := fun i n => (List.range n).map fun j => b (i + j)
    let o := genO gen
    let p := genP gen
    let pay := match (s.tx l).sent with | some x => if s.noFrames l then [] else x.payload | none => []
    let data := decide ((b o).hdr = 1)
    { f with
      fm := b 0, ident := b 1, check := b 2, justify := b 3, protect := from' 4 (genProt gen), mgmt := from' (4 + genProt gen) (genMgmt gen)
      user := from' (4 + genProt gen + genMgmt gen) (genUser gen), payload := pay
      bad := if data then [] else List.range p, arrived := p }

end Sys2Proof.Machine
end

