-- ==== Sys2Proof/Machine/Stages.lean ====
section
/-! DEFINITION. The core's stages at one tick (06, 07): selector, up-converters, sum stage, emit stage, frame-memory tap. -/

namespace Sys2Proof.Machine

/-! ### Cycles (06 R123) -/

/-- The cycle of scheduled index `n`. -/
def cycleOf (n : Nat) : Nat := n + n / 63

/-- The first scheduled index whose cycle lies after cycle `c`. -/
def indexAfter (c : Nat) : Nat :=
  let d := if (c + 1) % 64 = 63 then c + 2 else c + 1
  d - (d + 1) / 64

/-! ### Frame memory and bridge buffers (06 R126 to R129) -/

/-- The link image of group `g`. -/
def State.frameImg (s : State) (g l : Nat) : FrameImg := Tbl.get {} s.core.frames (128 * g + l)

/-- The bank of a link's word within its group. -/
def frameBank (l w : Nat) : Nat := (w + l) % 256

/-- A data-path read of a frame-memory word. -/
def State.frameRead (s : State) (g l w : Nat) (path : Bool) : Got × State :=
  let f := s.frameImg g l
  let poisoned := decide (f.valid ≤ w) || f.badPages.contains (w / 512)
  s.sramRead (eccAddr 2 (256 * g + frameBank l w) (32 * l + w / 256)) poisoned (Tbl.get 0 f.words w).toNat path

/-- A read of a rate-bridge output word. -/
def State.bridgeRead (s : State) (g w : Nat) (path : Bool) : Got × State :=
  let b := Tbl.get [] s.core.bridge g
  let v := (Tbl.get 0 b (2 * w)).toNat + (Tbl.get 0 b (2 * w + 1)).toNat * 2 ^ 32
  s.sramRead (eccAddr 4 (32 * g + w % 32) (w / 32)) false v path

/-- The slot of a word that was read: FAULTED on a UE, ABSENT on poison (07 Table 07-3). -/
def Got.slot (r : Got) (odd : Bool) : SrcRead :=
  match r with
  | .data v => .good (field v (if odd then 32 else 0) 32)
  | .ue => .faulted
  | .poison => .absent

/-- The bank and word that a source reads: frame-memory banks are 0 to 255, bridge banks 256 to 287; none for a constant. -/
def srcBank (a : Nat) : Option (Nat × Nat) :=
  match srcPlace a with
  | .frame l slot => some (frameBank l (slot / 2), l * 8192 + slot / 2)
  | .bridge i => some (256 + i / 2 % 32, i / 2)
  | .const _ => none

/-- A read of the word that `srcBank` names, in group `g`. -/
def State.wordRead (s : State) (g bank word : Nat) (path : Bool) : Got × State :=
  if bank < 256 then s.frameRead g (word / 8192) (word % 8192) path else s.bridgeRead g word path

/-- The read class of source `a` whose word gave `r`. -/
def srcClass (a : Nat) (r : Got) (t : Nat) : SrcRead :=
  match srcPlace a with
  | .const i => constRead i t
  | .frame _ slot => r.slot (slot % 2 = 1)
  | .bridge i => r.slot (i % 2 = 1)

/-! ### Selector (06 R127, R128; 05 R105) -/

/-- The rows of a link as a release gives them. -/
def Release.image (r : Release) : FrameImg := if r.verdict = vAbsent then {} else ⟨r.valid, r.words, r.badPages⟩

/-- The pages that a tick's environment makes fail for link `l` (11 Table 11-4: the read buffers' words among its drains). -/
def pagesOf (e : TickEnv) (l : Nat) : PageFaults :=
  let of := fun (x : List (Nat × Nat)) => (x.filter (·.1 = l)).map (·.2)
  ⟨of e.hbmUe, of e.readLate, e.drains.filterMap fun d => match d with | .fetched _ k p => if k = l then some p else none | _ => none⟩

/-- Every link's release of the tick, by link (04 R84). -/
def State.releaseAll (s : State) (e : TickEnv) : Tbl Release × State :=
  iter (fun l (acc : Tbl Release × State) =>
    if acc.2.released l then
      let (r, s) := acc.2.lagRelease l (pagesOf e l)
      (Tbl.insert l r acc.1, s)
    else acc) 0 128 ([], s)

/-- The group whose primary is link `l`, among those in force. -/
def State.groupOfP (s : State) (l : Nat) : Option Nat :=
  (List.range 64).find? fun g => (s.group g).en && decide ((s.group g).pLink = l)

/-- The selector: releases, each enabled group's choice, and the rows of group `g3` written (05 R105, 06 R127). -/
def State.selectorStage (s : State) (g3 : Nat) (e : TickEnv) : State :=
  let (rel, s) := s.releaseAll e
  let get := fun l => Tbl.get {} rel l
  let (chosen, s) := iter (fun g (acc : Tbl Release × State) =>
    let h := acc.2.group g
    if h.en then
      let (sec, s) := acc.2.protSelect g (get h.pLink) (get h.sLink)
      (Tbl.insert h.pLink (if sec then get h.sLink else get h.pLink) (Tbl.erase h.pLink acc.1), s)
    else acc) 0 64 (rel, s)
  let frames := iter (fun l fs => Tbl.set {} fs (128 * g3 + l) (Tbl.get {} chosen l).image) 0 128 s.core.frames
  let ranks := iter (fun l t => Tbl.set 0 t l (rankOf (Tbl.get {} chosen l).verdict)) 0 128 []
  { s with core := { s.core with frames := frames, ranks := (ranks :: s.core.ranks).take 4 } }.freshBanks 2 (256 * g3) 256

/-! ### Up-converters (07 R173 to R175, R410) -/

/-- The coefficient h[k] of the set for ratio `m` as the up-converters or the down-converters use it. -/
def coefOf (t : Tbl (BitVec 18)) (m k : Nat) : Int := (Tbl.get 0 t (48 * (if m = 3 then 0 else 1) + k)).toInt

/-- `n` words of a converter's record read, word `w` at `addr w`: the bits as decoded, none where a word is bad. -/
def State.recordRead (s : State) (addr : Nat → Nat) (bits n : Nat) : Option Nat × State :=
  iter (fun w (acc : Option Nat × State) =>
    match acc.1, acc.2.sramRead (addr w) false (field bits (64 * w) 64) true with
    | some v, (.data d, s) => (some (v + d * 2 ^ (64 * w)), s)
    | _, (_, s) => (none, s)) 0 n (some 0, s)

/-- Whether the tracker has entries: only then does a full-word write of an undamaged word touch it. -/
def State.tracking (s : State) : Bool := !(Tbl.get [] s.regs Reg.eccTrack.ctorIdx).isEmpty

/-- `n` words of a converter's record rewritten by the converter: full-word writes of static words (11 R284, R289, R290). -/
def State.recordFresh (s : State) (addr : Nat → Nat) (n : Nat) : State :=
  if s.sound && !s.tracking then s else s.eachN n fun w s => s.fullWrite (addr w)

/-- An up-converter's history as stored (07 Table 07-11), and a history of stored bits. -/
def UpState.bits (u : UpState) : Nat := (List.range 16).foldl (fun a j => a + (u.hist.getD j 0).toNat * 2 ^ (24 * j)) 0
def UpState.ofBits (u : UpState) (v : Nat) : UpState :=
  if v = u.bits then u else { u with hist := (List.range 16).map fun j => BitVec.ofNat 24 (field v (24 * j) 24) }

/-- The word that holds up-converter `i`'s configuration. -/
def State.upCfgWord (s : State) (i : Nat) : Nat :=
  let j := i / 4 * 4 + i % 2
  (Tbl.get 0 s.core.upCfg j).toNat + (Tbl.get 0 s.core.upCfg (j + 2)).toNat * 2 ^ 32

/-- Up-converter `i`'s configuration as read, none on a UE. -/
def State.upCfgRead (s : State) (i : Nat) : Option Nat × State :=
  match s.sramRead (eccAddr 5 (24 + i % 2) (i / 4)) false (s.upCfgWord i) true with
  | (.data d, s) => (some (field d (32 * (i % 4 / 2)) 32), s)
  | (_, s) => (none, s)

/-- The words of up-converter `i`'s history (07 R410). -/
def upAddr (i w : Nat) : Nat := eccAddr 5 ((6 * i + w) % 24) ((6 * i + w) / 24)

/-- The record of up-converter `i` as read this tick, configuration and history, none where a word is a UE (07 R410; 11 R281). -/
def State.upRecordRead (s : State) (i : Nat) : Option (Nat × UpState) × State :=
  let u := Tbl.get {} s.core.up i
  if s.sound then (some ((Tbl.get 0 s.core.upCfg i).toNat, u), s) else
  let x := s.recordRead (upAddr i) u.bits 6
  let y := x.2.upCfgRead i
  match x.1, y.1 with
  | some v, some c => (some (c, u.ofBits v), y.2)
  | _, _ => (none, y.2)

/-- The input sample of a mode from the slot read: sample, validity, TALK, USER (07 R174, R175). -/
def upInput (mode ch : Nat) (r : SrcRead) : Sample :=
  match mode, r with
  | 1, .good w => if slotValid w then ⟨slotSample w, true, slotTalk w, slotUser w⟩ else ⟨0, false, slotTalk w, slotUser w⟩
  | 2, .good w => if slotValid w then ⟨slotSample w, true, slotTalk w, slotUser w⟩ else ⟨0, false, slotTalk w, slotUser w⟩
  | 3, .good w => ⟨signed 16 (field w (if ch = 0 then 16 else 0) 16) * 256, true, true, 0⟩
  | 4, .good w => ⟨aLawDecode (field w (8 * ch) 8), true, true, 0⟩
  | 5, .good w => ⟨muLawDecode (field w (8 * ch) 8), true, true, 0⟩
  | 1, _ => ⟨0, false, false, 0⟩
  | 2, _ => ⟨0, false, false, 0⟩
  | 3, _ => ⟨0, false, true, 0⟩
  | _, _ => ⟨0, false, true, 0⟩

/-- The slot a configured up-converter reads from the image just written. -/
def State.upSource (s : State) (g src : Nat) : SrcRead :=
  let f := s.frameImg g (field src 14 7)
  let slot := field src 0 14
  let w := slot / 2
  if decide (f.valid ≤ w) || f.badPages.contains (w / 512) then .absent
  else .good (field (Tbl.get 0 f.words w).toNat (if slot % 2 = 1 then 32 else 0) 32)

/-- φ of an up-converter at release tick `t` (07 R174, R175). -/
def upPhi (t phase m : Nat) : Nat := (((t : Int) - phase) % m).toNat

/-- Output `i` of the rate bridge written in buffer `g`. -/
def State.bridgePut (s : State) (g i w : Nat) : State :=
  { s with core := { s.core with bridge := Tbl.modify [] s.core.bridge g fun b => Tbl.set 0 b i (BitVec.ofNat 32 w) } }

/-- Up-converter `i`'s state set. -/
def State.setUp (s : State) (i : Nat) (u : UpState) : State := { s with core := { s.core with up := Tbl.set {} s.core.up i u } }

/-- One up-converter at release tick `t`: capture on its phase, and its output (07 R174, R175).  TALK of a C8X4 output is 1 from the start. -/
def State.upStep (s : State) (g t i : Nat) : State :=
  if upMode (Tbl.get 0 s.core.upCfg i).toNat = 0 then s else
  match s.upRecordRead i with
  | (none, s) => ((s.setUp i {}).recordFresh (upAddr i) 6).bridgePut g i 0
  | (some (c, u), s) =>
    let mode := upMode c
    let x := upInput mode (upCh c) (s.upSource g (upSrc c))
    let m := modeRatio mode
    if m = 1 then s.bridgePut g i (x.slot 0) else
    let phi := upPhi t (upPhase c) m
    let u : UpState := if phi = 0 then
        { hist := (BitVec.ofInt 24 x.y :: u.hist).take 16, valid := x.valid, talk := x.talk, user := BitVec.ofNat 4 x.user } else u
    let s := if phi = 0 then (s.setUp i u).recordFresh (upAddr i) 6 else s
    s.bridgePut g i
      (Sample.slot ⟨upOutput (coefOf s.core.coefUp m) phi m u.hist, u.valid, u.talk || decide (4 ≤ mode), u.user.toNat⟩ 0)

/-- All configured up-converters; a converter that is OFF writes 0 (07 Table 07-13). -/
def State.upStage (s : State) (g t : Nat) : State :=
  let s := { s with core := { s.core with bridge := Tbl.set [] s.core.bridge g [] } }
  (s.each (s.core.upCfg.map (·.1)) fun i s => s.upStep g t i).freshBanks 4 (32 * g) 32

/-! ### Table words as fetched (06 R145) -/

/-- The first edit of word `i` applied at cycle `c` or later: the edits of a word stand in the order of cycles. -/
def laterEdit (edits : List TableEdit) (i c : Nat) : Option TableEdit := edits.find? fun e => e.index = i && decide (c ≤ e.cycle)

/-- What word `i` held at cycle `c`: the value before the first edit applied at `c` or later, else the present one. -/
def asOf (edits : List TableEdit) (i c : Nat) (now : Nat) : Nat :=
  match laterEdit edits i c with
  | some e => e.old.toNat
  | none => now

/-- A read at cycle `c` of table word `i`, at SRAM address `a`, which holds `now`: a word that is written later in the tick is read as it stood
before, its upset bits with it, and needs no restore (06 R145; 11 R288). -/
def State.fetchRead (s : State) (edits : List TableEdit) (a i c now : Nat) (path : Bool) : Got × State :=
  match laterEdit edits i c with
  | some e => s.readWith a false e.old.toNat (s.wrongBits a false e.old.toNat e.flips) (·.ueSeen a path)
  | none => s.sramRead a false now path

/-! ### Sum stage (06 R130 to R135; 07 R157, R158; 11 R287) -/

/-- A lane's running accumulator. -/
structure LaneSum where
  sorus : Nat
  total : BitVec 56
  bad : Bool
  deriving DecidableEq, Repr

/-- A term a lane executes at an issue: lane, position, term, and whether its fetch met a UE. -/
structure Issue where
  lane : Nat
  term : Nat
  ue : Bool
  deriving DecidableEq, Repr

/-- The sum stage at work: lane accumulators, the buffer, read and post clashes. -/
structure SumRun where
  lanes : Tbl (Option LaneSum)
  buf : SumBuf
  clash : Bool
  post : Bool
  deriving DecidableEq, Repr

/-- The term at a position as issue pair `i` fetches it. -/
def State.termAt (s : State) (pos i : Nat) : Nat :=
  asOf s.core.termEdits pos (cycleOf (4096 + i)) (Tbl.get 0 s.core.terms pos).toNat

/-- Whether lane `lane` (2 k + ℓ) executes issue pair `i`. -/
def State.laneRuns (s : State) (lane i : Nat) : Bool :=
  decide (2 * i + lane % 2 < s.rd F.coreSumCountCount (lane / 2))

/-- The position of lane `lane` at issue pair `i`. -/
def lanePos (lane i : Nat) : Nat := 32768 * (lane / 2) + 2 * i + lane % 2

/-- The fetches of an issue pair. -/
def State.issueFetch (s : State) (i : Nat) : List Issue × State :=
  (List.range 128).foldl (fun (acc : List Issue × State) lane =>
    if acc.2.laneRuns lane i then
      let q := lanePos lane i
      let t := acc.2.termAt q i
      match acc.2.fetchRead acc.2.core.termEdits (eccAddr 1 (2 * lane + b2n acc.2.core.sumHalf) i) q (cycleOf (4096 + i))
        (Tbl.get 0 acc.2.core.terms q).toNat true with
      | (.data v, s) => (acc.1 ++ [⟨lane, v, false⟩], s)
      | (_, s) => (acc.1 ++ [⟨lane, t, true⟩], s.count .eccSumPoisonAll 0)
    else acc) ([], s)

/-- Whether two executed terms of one issue name different words of `bank` (06 R134). -/
def bankClash (is : List Issue) (bank word : Nat) : Bool :=
  is.any fun x => !x.ue && (match srcBank (termSrc x.term) with | some (b, w) => b = bank && w ≠ word | none => false)

/-- The source reads of an issue: one read of each bank that all its lanes agree on, FAULTED for every lane of a clash (06 R134, R135). -/
def State.issueReads (s : State) (g t : Nat) (is : List Issue) : List (Issue × SrcRead) × Bool × State :=
  let step := fun (acc : List (Issue × SrcRead) × Tbl Got × Bool × State) (x : Issue) =>
    let (out, got, clash, s) := acc
    if x.ue then (out ++ [(x, .absent)], got, clash, s) else
    match srcBank (termSrc x.term) with
    | none => (out ++ [(x, srcClass (termSrc x.term) .poison t)], got, clash, s)
    | some (b, w) =>
      if bankClash is b w then (out ++ [(x, .faulted)], got, true, s.count .coreClashReads 0)
      else match got.lookup b with
        | some r => (out ++ [(x, srcClass (termSrc x.term) r t)], got, clash, s)
        | none =>
          let (r, s) := s.wordRead g b w true
          (out ++ [(x, srcClass (termSrc x.term) r t)], (b, r) :: got, clash, s)
  let (out, _, clash, s) := is.foldl step ([], [], false, s)
  (out, clash, s)

/-- A term added to its lane's run (06 R132; 07 R158). -/
def LaneSum.add (r : Option LaneSum) (x : Issue) (src : SrcRead) : LaneSum :=
  let v := if x.ue then 0 else termValue x.term src
  let bad := !x.ue && decide (src = .faulted)
  match r with
  | some a => ⟨a.sorus, a.total + v, a.bad || bad⟩
  | none => ⟨termSorus x.term, v, bad⟩

/-- One run's total added to its sorus of buffer `p`: the post reads the word and writes the new sum; an uncorrectable error there, or a FAULTED
term, poisons the sorus, whose word a failed read leaves as it is (06 R132; 07 R158; 11 Table 11-4). -/
def State.sumPost (s : State) (p : Nat) (b : SumBuf) (x : LaneSum) : SumBuf × State :=
  let a := eccAddr 3 (64 * p + x.sorus % 64) (x.sorus / 64)
  let bad := { b with poison := Tbl.set false b.poison x.sorus true }
  match s.sramRead a false (Tbl.get 0 b.sums x.sorus).toNat true with
  | (.data v, s) =>
    let b := if x.bad then bad else b
    ({ b with sums := Tbl.set 0 b.sums x.sorus (BitVec.ofNat 56 v + x.total) }, s.freshWord a)
  | (_, s) => (bad, s)

/-- The posts of an issue into buffer `p`: two on one bank are dropped and poison every sorus they name (06 R132, R135). -/
def State.sumPosts (s : State) (p : Nat) (r : SumRun) (ps : List LaneSum) : SumRun × Nat × State :=
  let clashing := fun (x : LaneSum) => decide (1 < (ps.filter fun q => q.sorus % 64 = x.sorus % 64).length)
  let banks := ((ps.filter clashing).map (·.sorus % 64)).eraseDups
  let y := ps.foldl (fun (acc : SumBuf × State) x =>
    if clashing x then ({ acc.1 with poison := Tbl.set false acc.1.poison x.sorus true }, acc.2) else acc.2.sumPost p acc.1 x) (r.buf, s)
  ({ r with buf := y.1, post := r.post || !banks.isEmpty }, banks.length, y.2)

/-- One issue pair into buffer `p`: fetches, reads, runs and the posts of the runs that end (06 R130 to R132). -/
def State.sumIssue (s : State) (p g t i : Nat) (r : SumRun) : SumRun × State :=
  let (is, s) := s.issueFetch i
  let (xs, clash, s) := s.issueReads g t is
  let step := fun (acc : Tbl (Option LaneSum) × List LaneSum) (x : Issue × SrcRead) =>
    let lane := x.1.lane
    let a := LaneSum.add (Tbl.get none acc.1 lane) x.1 x.2
    let goes := s.laneRuns lane (i + 1) && decide (termSorus (s.termAt (lanePos lane (i + 1)) (i + 1)) = a.sorus)
    if goes then (Tbl.set none acc.1 lane (some a), acc.2) else (Tbl.set none acc.1 lane none, acc.2 ++ [a])
  let (lanes, ps) := xs.foldl step (r.lanes, [])
  let (r, n, s) := s.sumPosts p { r with lanes := lanes, clash := r.clash || clash } ps
  let r := { r with buf := { r.buf with allPoison := r.buf.allPoison || is.any (·.ue) } }
  (r, s.countBy .corePostClash 0 n)

/-- Issue pairs that some unit executes. -/
def State.sumPairs (s : State) : Nat :=
  (List.range 64).foldl (fun m k => max m ((s.rd F.coreSumCountCount k + 1) / 2)) 0

/-- The sum program's outcome in buffer `p`: its sums, and the clashes flagged and alarmed (06 R134, R135). -/
def State.sumDone (s : State) (p : Nat) (r : SumRun) : State :=
  let s := { s with core := { s.core with sums := Tbl.set {} s.core.sums p r.buf } }
  let s := if r.clash then s.setFlag F.coreStatusClash 0 true else s
  let s := if r.post then s.setFlag F.coreStatusPostClash 0 true else s
  if r.clash || r.post then
    let s := { s with core := { s.core with clashThisTick := true }, tick := { s.tick with events := 2 :: s.tick.events } }
    s.raiseEach A.scheduleClash 0
  else s

/-- The sum program over group `g` of release tick `t`, into buffer `p` as its clear leaves it. -/
def State.sumRun (s : State) (p g t : Nat) : SumRun × State :=
  iter (fun i (acc : SumRun × State) => acc.2.sumIssue p g t i acc.1) 0 s.sumPairs (⟨[], {}, false, false⟩, s)

/-- The sum stage after its clear (06 R131). -/
def State.sumStage (s : State) (p g t : Nat) : State :=
  let x := s.sumRun p g t
  x.2.sumDone p x.1

/-! ### Emit stage: timing (06 R136 to R141) -/

/-- A and N of 06 Table 06-4. -/
def cadence : Nat → Nat × Nat
  | 3 => (288, 3818) | 2 => (320, 7636) | 1 => (384, 15271) | _ => (0, 0)

/-- W(p) (06 R139). -/
def writeCycle (gen p : Nat) : Nat := (cadence gen).1 + p * (cadence gen).2 / 1024

/-- The cycle in which entry `sl` is fetched: the first 256 one per non-reserved cycle, then two after each W(p) (06 R136). -/
def fetchCycle (gen sl : Nat) : Nat :=
  if sl < 256 then cycleOf sl
  else
    let n := indexAfter (writeCycle gen ((sl - 256) / 2))
    cycleOf (n + sl % 2)

/-- A read that an entry awaits: slot, cycle of its fetch, W of its pair, bank (0 to 255 frame memory, 256 to 287 bridge, 512 to 575 sum buffer)
and word. -/
structure ReadReq where
  slot : Nat
  fetch : Nat
  last : Nat
  bank : Nat
  word : Nat
  deriving DecidableEq, Repr

/-- The residue modulo 128 of the indices at which station `k` may access `bank` (06 R137). -/
def visitResidue (k bank : Nat) : Nat :=
  if bank < 256 then (bank / 2 + 128 - k) % 128
  else if bank < 512 then 4 * ((bank - 256 + 128 - k) % 32) + k / 32
  else 2 * ((bank - 512 + 128 - k) % 64) + k / 64

/-- The first index from `n` on that is `r` modulo 128. -/
def nextVisit (n r : Nat) : Nat := n + (r + 128 - n % 128) % 128

/-- One bank's reads in order: at each visit the oldest waiting entry's word is read for all that need it; a pair past its W(p) waits no longer
(06 R137, R141).  Answers (word, cycle, slots served). -/
def serveBank (r : Nat) : Nat → Nat → List ReadReq → List (Nat × Nat × List Nat)
  | 0, _, _ => []
  | fuel + 1, n, qs =>
    match qs with
    | [] => []
    | q :: t =>
      let first := t.foldl (fun m x => min m x.fetch) q.fetch
      let n' := nextVisit (max n (indexAfter first)) r
      let c := cycleOf n'
      let live := qs.filter fun x => decide (c ≤ x.last)
      match live.find? fun x => decide (x.fetch < c) with
      | some x =>
        let served := live.filter fun y => decide (y.fetch < c) && decide (y.word = x.word)
        (x.word, c, served.map (·.slot)) :: serveBank r fuel (n' + 1) (live.filter fun y => !(decide (y.fetch < c) && decide (y.word = x.word)))
      | none => serveBank r fuel (n' + 1) live

/-- The reads that entry `e` of slot `sl` awaits (06 Table 06-3). -/
def entryReads (gen sl e : Nat) : List ReadReq :=
  let f := fetchCycle gen sl
  let w := writeCycle gen (sl / 2)
  let op := entryOp e
  let a := if opReadsSrc op then match srcBank (entrySrc e) with | some (b, x) => [⟨sl, f, w, b, x⟩] | none => [] else []
  let b := if opReadsSorus op then [⟨sl, f, w, 512 + entrySorus e % 64, entrySorus e⟩] else []
  a ++ b

/-- A bank read of a station: bank, word, cycle, slots served. -/
structure BankRead where
  bank : Nat
  word : Nat
  cycle : Nat
  slots : List Nat
  deriving DecidableEq, Repr

/-- All bank reads of station `k` for the requests `qs`, which stand in slot order. -/
def stationReads (k : Nat) (qs : List ReadReq) : List BankRead :=
  ((qs.map (·.bank)).eraseDups).flatMap fun b =>
    let mine := qs.filter (·.bank = b)
    (serveBank (visitResidue k b) mine.length 0 mine).map fun x => ⟨b, x.1, x.2.1, x.2.2⟩

/-- The completion cycle of an entry, none where a read of its was not served (06 R136). -/
def completion (gen sl e : Nat) (rs : List BankRead) : Option Nat :=
  (entryReads gen sl e).foldl (fun (acc : Option Nat) q =>
    match acc, rs.find? fun r => r.bank = q.bank && r.word = q.word && r.slots.contains sl with
    | some c, some r => some (max c r.cycle)
    | _, _ => none) (some (fetchCycle gen sl))

/-! ### Emit stage: values (06 R138 to R142; 07 R162 to R177) -/

/-- A fetched entry: slot, the entry (after a UE as the SRAM holds it: its numbers no station sees), whether its fetch met a UE. -/
structure Fetched where
  slot : Nat
  entry : Nat
  ue : Bool
  deriving DecidableEq, Repr

/-- The slots of station `k`, of link generation `gen`, whose entries are not the all-zero SILENCE entry, were edited in the tick or are damaged,
with both slots of each such pair (other pairs are two slots of SILENCE). -/
def State.liveSlots (s : State) (k gen : Nat) : List Nat :=
  let lo := 16384 * k
  let keys := (s.core.emit.map (·.1)) ++ (s.core.emitEdits.map (·.index)) ++
    (s.marred.filterMap fun a =>
      if eccMem a = 0 && eccBank a = 2 * k + b2n s.core.emitHalf then some (lo + eccWord a) else none)
  let pairs := keys.foldl (fun (t : Tbl Bool) i =>
    if decide (lo ≤ i) && decide (i < lo + 2 * genP gen) then Tbl.set false t ((i - lo) / 2) true else t) []
  pairs.flatMap fun p => [2 * p.1, 2 * p.1 + 1]

/-- The entries of `slots` as fetched (06 R136, R145; 11 R286). -/
def State.fetchEntries (s : State) (k gen : Nat) (slots : List Nat) : List Fetched × State :=
  slots.foldl (fun (acc : List Fetched × State) sl =>
    let i := 16384 * k + sl
    let now := (Tbl.get 0 acc.2.core.emit i).toNat
    let c := fetchCycle gen sl
    match acc.2.fetchRead acc.2.core.emitEdits (eccAddr 0 (2 * k + b2n acc.2.core.emitHalf) sl) i c now true with
    | (.data v, s) => (acc.1 ++ [⟨sl, v, false⟩], s)
    | (_, s) => (acc.1 ++ [⟨sl, asOf acc.2.core.emitEdits i c now, true⟩], s)) ([], s)

/-- One bank read: a group's bank, or a sum bank of parity `p`. -/
def State.doRead (s : State) (g p : Nat) (r : BankRead) : Got × State :=
  if r.bank < 512 then s.wordRead g r.bank r.word true
  else
    let b := Tbl.get {} s.core.sums p
    match s.sramRead (eccAddr 3 (64 * p + r.word % 64) (r.word / 64)) false (Tbl.get 0 b.sums r.word).toNat true with
    | (.data v, s) => if b.allPoison || Tbl.get false b.poison r.word then (Got.poison, s) else (.data v, s)
    | y => y

/-- The words a station's bank reads returned: group `g`, sum buffer `p` (06 R137; 07 R151). -/
def State.doReads (s : State) (g p : Nat) (rs : List BankRead) : List (BankRead × Got) × State :=
  rs.foldl (fun (acc : List (BankRead × Got) × State) r =>
    let (x, s) := acc.2.doRead g p r
    (acc.1 ++ [(r, x)], s)) ([], s)

/-- The outcome of a fetched entry from the reads that were served (07 R151, R160 to R167). -/
def Fetched.out (f : Fetched) (t : Nat) (rs : List (BankRead × Got)) : EntryOut :=
  if f.ue then .invalid else
  let got := fun b w => (rs.find? fun r => r.1.bank = b && r.1.word = w && r.1.slots.contains f.slot).map (·.2)
  let src := match srcBank (entrySrc f.entry) with
    | none => srcClass (entrySrc f.entry) .poison t
    | some (b, w) => match got b w with | some r => srcClass (entrySrc f.entry) r t | none => .faulted
  let sor := match got (512 + entrySorus f.entry % 64) (entrySorus f.entry) with
    | some (.data v) => some (BitVec.ofNat 56 v)
    | _ => none
  entryOut f.entry src sor

/-- The down-converter record's words as stored (07 Table 07-12). -/
def DownState.bits (d : DownState) : Nat :=
  (List.range 16).foldl (fun a j => a + unsigned 30 (d.partials.getD j 0) * 2 ^ (30 * j)) 0 +
    d.lastIn.toNat * 2 ^ 480 + b2n d.lastValid * 2 ^ 504

/-- A record of stored bits. -/
def DownState.ofBits (d : DownState) (v : Nat) : DownState :=
  if v = d.bits then d
  else { d with
    partials := (List.range 16).map fun j => signed 30 (field v (30 * j) 30)
    lastIn := BitVec.ofNat 24 (field v 480 24), lastValid := bit v 504 }

/-- The words of down-converter `i` (07 R410). -/
def downAddr (i w : Nat) : Nat := eccAddr 5 (26 + 8 * (i % 4) + w) (i / 4)

/-- A down-converter's record as read; none where a word is a UE: the record is cleared (11 R281, Table 11-4). -/
def State.downRead (s : State) (i : Nat) : Option DownState × State :=
  let d := Tbl.get {} s.core.down i
  if s.sound then (some d, s) else
  match s.recordRead (downAddr i) d.bits 8 with
  | (some v, s) => (some (d.ofBits v), s)
  | (none, s) => (none, { s with core := { s.core with down := Tbl.set {} s.core.down i {} } })

/-- One new legacy sample, from the record before this tick's value is fed: `n` the stamp of the frame (07 R177). -/
def downSample (d : DownState) : Int := sat24 (rhu (d.partials.headD 0) 5)

/-- The record after frame `n`'s output, where that is due, and this tick's value `v(n)` fed (07 R176, R177). -/
def downStep (h : Nat → Int) (ratio n : Nat) (d : DownState) (x : Sample) : DownState :=
  let p := if n % ratio = 0 then d.partials.tail else d.partials
  { partials := downFeed h ratio n x.y 50 (nextOutput ratio n 6 1) p
    lastIn := BitVec.ofInt 24 x.y, lastValid := x.valid, lastTalk := x.talk, lastUser := BitVec.ofNat 4 x.user }

/-- The value a legacy entry feeds (07 R167, R168, R176). -/
def legacyValue (o : EntryOut) (d : DownState) : Sample :=
  match o with
  | .value x => x
  | .word w => ⟨slotSample w, slotValid w, slotTalk w, slotUser w⟩
  | .previous => ⟨d.lastIn.toInt, d.lastValid, d.lastTalk, d.lastUser.toNat⟩
  | .invalid => ⟨0, false, false, 0⟩

/-- A ring word as stored. -/
def State.ringWord (s : State) (l p : Nat) : Nat := (Tbl.get silentPair (Tbl.get [] s.core.rings l) p).toNat

/-- A station's read of the previous value of a word; none on a UE (06 R139; 11 Table 11-4). -/
def State.ringPrev (s : State) (l p : Nat) : Option Nat × State :=
  match s.sramRead (eccAddr 7 l p) false (s.ringWord l p) true with
  | (.data v, s) => (some v, s)
  | (_, s) => (none, s)

/-- What the emit stage carries from pair to pair: the next legacy number, the records of a C8X4 group that its first entry has read, the new ring,
late slots, the smallest slack. -/
structure EmitRun where
  legacy : Nat := 0
  held : List (Option DownState) := []
  ring : Tbl Word := []
  late : List (Nat × Nat) := []
  slack : Int := 2 ^ 31 - 1
  deriving DecidableEq, Repr

/-- A legacy slot's word for the frame stamped `n`: a new sample where due, else the word before (07 R177). `prev` is that word. -/
def legacySlot (fmt n : Nat) (d : Option DownState) (prev : Option Nat) : Nat :=
  match d with
  | none => 0
  | some d =>
    if n % fmtRatio fmt = 0 then Sample.slot ⟨downSample d, d.lastValid, d.lastTalk, d.lastUser.toNat⟩ fmt
    else prev.getD 0

/-- The slot 4 g of a C8X4 group for frame `n`, from the records of its four entries (07 R177). -/
def c8Slot (fmt n : Nat) (ds : List (Option DownState)) (prev : Option Nat) : Nat :=
  if n % 6 = 0 then
    (List.range 4).foldl (fun a i =>
      let y := match ds.getD i none with | some d => downSample d | none => 0
      a + (if fmt = 4 then aLawEncode y else muLawEncode y) * 2 ^ (8 * i)) 0
  else prev.getD 0

/-- The four records of a C8X4 group, read as its first entry is written. -/
def State.downRead4 (s : State) (i : Nat) : List (Option DownState) × State :=
  iter (fun j (acc : List (Option DownState) × State) =>
    let (d, s) := acc.2.downRead (i + j)
    (acc.1 ++ [d], s)) 0 4 ([], s)

/-- The records an entry's slot is formed from, its own first: those of its group at a C8X4 group's first entry, read there once for all four (11
R286). -/
def State.downReads (s : State) (r : EmitRun) (f : Fetched) (i : Nat) : List (Option DownState) × State :=
  if c8Fmt (entryOfmt f.entry) then
    if f.slot % 4 = 0 then s.downRead4 i
    else match r.held with
      | [] => let x := s.downRead i; ([x.1], x.2)
      | ds => (ds, s)
  else let x := s.downRead i; ([x.1], x.2)

/-- A legacy entry's slot, its converter fed (07 R167, R176, R177). -/
def State.legacyEntry (s : State) (l n : Nat) (r : EmitRun) (f : Fetched) (o : EntryOut) (mine : Option Nat) : Nat × EmitRun × State :=
  let fmt := entryOfmt f.entry
  let i := 128 * l + r.legacy
  let x := s.downReads r f i
  let d := x.1.headD none
  let w := if c8Fmt fmt then (if f.slot % 4 = 0 then c8Slot fmt n x.1 mine else 0) else legacySlot fmt n d mine
  let d := d.getD {}
  let d' := downStep (coefOf s.core.coefDown (fmtRatio fmt)) (fmtRatio fmt) n d (legacyValue o d)
  let s := ({ x.2 with core := { x.2.core with down := Tbl.set {} x.2.core.down i d' } }).recordFresh (downAddr i) 8
  (w, { r with legacy := r.legacy + 1, held := x.1.tail }, s)

/-- One entry's slot, its converter fed: `half` true for the odd slot; `prev` the pair's word before, `leader` its partner's outcome (07 R167 to
R177).  A legacy entry whose fetch failed keeps its converter's number (R176). -/
def State.entrySlot (s : State) (l n : Nat) (r : EmitRun) (f : Fetched) (o other : EntryOut) (prev : Option Nat) : Nat × EmitRun × State :=
  let fmt := entryOfmt f.entry
  let odd := f.slot % 2 = 1
  let mine := prev.map fun w => field w (if odd then 32 else 0) 32
  if f.ue then (0, { r with legacy := r.legacy + b2n (legacyFmt fmt), held := r.held.tail }, s)
  else if legacyFmt fmt then s.legacyEntry l n r f o mine
  else if fmt = 3 then
    if odd then (0, r, s)
    else
      let h := fun b => prev.map fun w => field w b 16
      (halfSlot o (h 16) * 2 ^ 16 + halfSlot other (h 0), r, s)
  else (directSlot fmt o mine, r, s)

/-- Whether an entry reads the word before (06 Table 06-3; 07 R177). -/
def needsPrev (f : Fetched) : Bool :=
  let op := entryOp f.entry
  !f.ue && (legacyFmt (entryOfmt f.entry) || op = opHold ||
    (entryHoldbad f.entry && (op = opCopy || op = opRaw || op = opSum || op = opMinus)))

/-- The cycle an entry's sources are all read by: its fetch where that failed; none where they are not read in time. -/
def doneCycle (gen : Nat) (reads : List BankRead) (f : Fetched) : Option Nat :=
  if f.ue then some (fetchCycle gen f.slot) else completion gen f.slot f.entry reads

/-- A pair's late slots and its slack against its write cycle `w` (06 R141, R142). -/
def pairLate (gen : Nat) (reads : List BankRead) (w : Nat) (a b : Fetched) : List (Nat × Nat) :=
  ([a, b].filter fun f => (doneCycle gen reads f).isNone).map fun f => (w, f.slot)
def pairSlack (gen : Nat) (reads : List BankRead) (w : Nat) (a b : Fetched) : Int :=
  match doneCycle gen reads a, doneCycle gen reads b with
  | some x, some y => (w : Int) - (max x y : Nat)
  | _, _ => -1

/-- The pair's word before, read where it is needed. -/
def State.prevWord (s : State) (need : Bool) (l p : Nat) : Option Nat × State := if need then s.ringPrev l p else (none, s)

/-- One pair written at W(p) for the frame stamped `n` (06 R139, R141). -/
def State.emitPair (s : State) (l gen n t : Nat) (rs : List (BankRead × Got)) (r : EmitRun) (a b : Fetched) : EmitRun × State :=
  let p := a.slot / 2
  let w := writeCycle gen p
  let reads := rs.map (·.1)
  let oa := a.out t rs
  let ob := b.out t rs
  let prev := s.prevWord (needsPrev a || needsPrev b) l p
  let x := prev.2.entrySlot l n r a oa ob prev.1
  let y := x.2.2.entrySlot l n x.2.1 b ob oa prev.1
  ({ y.2.1 with
    ring := Tbl.set silentPair y.2.1.ring p (BitVec.ofNat 64 (x.1 + y.1 * 2 ^ 32))
    late := y.2.1.late ++ pairLate gen reads w a b, slack := min y.2.1.slack (pairSlack gen reads w a b) }, y.2.2)

/-- Pairs in order. -/
def State.emitPairs (s : State) (l gen n t : Nat) (rs : List (BankRead × Got)) : List Fetched → EmitRun → EmitRun × State
  | a :: b :: rest, r =>
    let y := s.emitPair l gen n t rs r a b
    State.emitPairs y.2 l gen n t rs rest y.1
  | _, r => (r, s)

/-- The rings a station writes: its own and that of an enabled bridge's COPY_LINK (06 R142). -/
def State.ringsOf (s : State) (k : Nat) : List Nat :=
  k :: (List.range 64).filterMap fun b =>
    let v := (Tbl.get 0 s.prot.bridges b).toNat
    if bit v 16 && field v 0 7 = k then some (field v 8 7) else none

/-- Whether a link is the COPY_LINK of an enabled bridge: its own station executes no entries (05 R116). -/
def State.isCopyLink (s : State) (k : Nat) : Bool :=
  s.prot.bridges.any fun e => bit e.2.toNat 16 && field e.2.toNat 8 7 = k

/-- MIN_SLACK of a station taken down to `v` (06 R141). -/
def State.slackTake (s : State) (k : Nat) (v : Int) : State :=
  let was := if s.flag F.coreSlackValid k then signed 32 (s.rd F.coreSlackMinSlack k) else 2 ^ 31 - 1
  (s.setFlag F.coreSlackValid k true).wr F.coreSlackMinSlack k (unsigned 32 (min was v))

/-- The words of a generation written into a link's ring; the words beyond them stay (06 R139). -/
def State.ringPut (s : State) (l gen : Nat) (words : Tbl Word) : State :=
  let rest := (Tbl.get [] s.core.rings l).filter fun e => decide (genP gen ≤ e.1)
  ({ s with core := { s.core with rings := Tbl.set [] s.core.rings l (words ++ rest) } }).freshWords 7 l (genP gen)

/-- One station at one tick: group `g`, sum buffer `p`, release tick `t`, for the frame stamped `n`.  Answers its late slots as (W, slot). -/
def State.emitStation (s : State) (k g p t n : Nat) : List (Nat × Nat) × State :=
  let gen := s.gen k
  if gen = 0 || s.stationOff k || s.isCopyLink k then ([], s) else
  let (fs, s) := s.fetchEntries k gen (s.liveSlots k gen)
  let qs := fs.flatMap fun f => if f.ue then [] else entryReads gen f.slot f.entry
  let (rs, s) := s.doReads g p (stationReads k qs)
  let silent0 : Int := (writeCycle gen 0 : Int) - (fetchCycle gen 1 : Nat)
  let (r, s) := s.emitPairs k gen n t rs fs { slack := if fs.head?.map (·.slot) = some 0 then 2 ^ 31 - 1 else silent0 }
  let silent1 : Int := (writeCycle gen 1 : Int) - (fetchCycle gen 3 : Nat)
  let r := if fs.any (·.slot = 2) then r else { r with slack := min r.slack silent1 }
  let s := s.slackTake k r.slack
  let s := s.each (s.ringsOf k) fun l s => s.ringPut l gen r.ring
  (r.late, s.countBy .coreOverrunSlots 0 r.late.length)

/-- SCHEDULE_OVERRUN for the tick's late pairs: the first in time is recorded, the lower-numbered station on a tie (06 R141, R146). -/
def State.overrun (s : State) (late : List (Nat × Nat × Nat)) : State :=
  match late with
  | [] => s
  | x :: xs =>
    let f := xs.foldl (fun (m : Nat × Nat × Nat) y => if y.1 < m.1 then y else m) x
    let s := if s.flag F.coreStatusOverrun 0 then s
      else (s.wr F.coreStatusOvrStation 0 f.2.1).wr F.coreStatusOvrSlot 0 f.2.2
    let s := { s with core := { s.core with lateThisTick := true }, tick := { s.tick with events := 2 :: s.tick.events } }
    (s.setFlag F.coreStatusOverrun 0 true).raiseEach A.scheduleOverrun 0

/-- The per-link digests of the words just written (06 R142, 10 R248). -/
def State.digestStage (s : State) : State :=
  if !s.flag F.mateCfgEn 0 then s else
  let ds := iter (fun l (t : Tbl (BitVec 32)) =>
    let ring := Tbl.get [] s.core.rings l
    if s.gen l = 0 then Tbl.set 0 t l 0
    else Tbl.set 0 t l (crcOfWords (Tbl.get silentPair ring) 0 (genP (s.gen l)))) 0 128 []
  { s with core := { s.core with digests := ds } }

/-- The emit stage (06 R136 to R142). -/
def State.emitStage (s : State) (g p t n : Nat) : State :=
  let (late, s) := iter (fun k (acc : List (Nat × Nat × Nat) × State) =>
    let (xs, s) := acc.2.emitStation k g p t n
    (acc.1 ++ xs.map fun x => (x.1, k, x.2), s)) 0 128 ([], s)
  (s.overrun late).digestStage

/-! ### The tap (06 R148) -/

/-- Control reserved cycle `j` of the tick in progress used, counted once however many accesses share it (06 R148). -/
def State.ctrlCycle (s : State) (j : Nat) : State :=
  if s.core.ctrlUsed.contains j then s
  else
    let s := s.count .coreResvCtrl 0
    { s with core := { s.core with ctrlUsed := s.core.ctrlUsed ++ [j] } }

/-- The tap's source read in its reserved cycle, j = 1 (06 R148). -/
def State.tapRead (s : State) (a g t : Nat) : SrcRead × State :=
  match srcBank a with
  | some (b, w) =>
    let y := s.wordRead g b w false
    (srcClass a y.1 t, y.2.ctrlCycle 1)
  | none => (srcClass a .poison t, s)

/-- The tap's capture in the tick that ends: the slot as its sum stage reads it, group `g` of release tick `t`. -/
def State.tapStage (s : State) (g t : Nat) : State :=
  if !s.flag F.coreTapCtrlEn 0 then s else
  let (r, s) := s.tapRead (s.rd F.coreTapCtrlSrc 0) g t
  let s := s.wr F.coreTapTickTick 0 t
  match r with
  | .good w => (s.wr F.coreTapDataSlot 0 w).setFlag F.coreTapDataValid 0 true
  | _ => (s.wr F.coreTapDataSlot 0 0).setFlag F.coreTapDataValid 0 false

/-! ### One tick (06 R124) -/

/-- The sum buffer of the tick cleared, before anything upsets a word of it (06 R131). -/
def State.sumClear (s : State) : State :=
  if s.flag F.coreStatusRun 0 then s.freshBanks 3 (64 * (s.tick.n % 2)) 64 else s

/-- The core's stages while RUN is 1, in the tick that ends: sum and emit stages over the groups of the two ticks before, then the selector and the
up-converters into this tick's group (06 Table 06-2).  The groups and the sum buffers rotate tick by tick, so that no two stages share a bank and
the latency is 3 ticks over a wrap and over a renumbering of the ticks as well; until the first of these the group of tick t is t mod 3 (DESIGN
CHOICE, log entry 56). -/
def State.coreStages (s : State) (e : TickEnv) : State :=
  let n := s.tick.n
  let t1 := s.tick.prev1.toNat
  let s := (s.count .coreTicks 0).tapStage ((n + 2) % 3) t1
  let s := s.emitStage ((n + 1) % 3) ((n + 1) % 2) s.tick.prev2.toNat (tadd s.now 1)
  let s := s.sumStage (n % 2) ((n + 2) % 3) t1
  let s := s.selectorStage (n % 3) e
  s.upStage (n % 3) s.now

/-- The core in the tick that ends: its stages, and the tick's table edits and control cycles done with. -/
def State.coreTick (s : State) (e : TickEnv) : State :=
  let s := s.when (s.flag F.coreStatusRun 0) (·.coreStages e)
  { s with core := { s.core with emitEdits := [], termEdits := [], ctrlUsed := [] } }

end Sys2Proof.Machine
end

