-- ==== Sys2Proof/Machine/Image.lean ====
section
/-! DEFINITION. Almanac images (08): their layout in the library, what they hold, and the load checks. -/

namespace Sys2Proof.Machine

/-! ### Bytes of an image (08 R182, R183, R191) -/

/-- The number in `n` bytes of slot `i` from offset `o` (00 R4). -/
def State.imageNum (s : State) (i o n : Nat) : Nat := ofBytes (memRead s.hbm (slotBase i + o) n)

/-- The `n` bytes of slot `i` from offset `o`. -/
def State.imageBytes (s : State) (i o n : Nat) : List Byte := memRead s.hbm (slotBase i + o) n

/-- A section-table entry. -/
structure Section where
  type : Nat
  zero : Nat
  off : Nat
  len : Nat
  crc : Nat
  deriving DecidableEq, Repr

/-- The section table of slot `i`. -/
def State.sections (s : State) (i : Nat) : List Section :=
  (List.range (s.imageNum i 15 1)).map fun j =>
    let o := 256 + 16 * j
    ⟨s.imageNum i o 2, s.imageNum i (o + 2) 2, s.imageNum i (o + 4) 4, s.imageNum i (o + 8) 4, s.imageNum i (o + 12) 4⟩

/-- Where a section of a type lies: offset and length (0, 0 where it is missing). -/
def State.sectionAt (s : State) (i ty : Nat) : Nat × Nat :=
  match (s.sections i).find? (·.type = ty) with
  | some x => (x.off, x.len)
  | none => (0, 0)

/-- The numbers of `size` bytes each that a run of memory holds, `n` of them from address `base`; those that are 0 are not listed. -/
def cellsOf (m : Memory) (base size n : Nat) : List (Nat × Nat) :=
  (m.filter fun c => decide (base ≤ c.1) && decide (c.1 < base + size * n)).foldl (fun t c =>
    let j := (c.1 - base) / size
    let v := c.2.toNat * 2 ^ (8 * ((c.1 - base) % size))
    Tbl.set 0 t j (Tbl.get 0 t j + v)) []

/-- A section's words, `size` bytes each, as far as they are not 0. -/
def State.sectionWords (s : State) (i ty size : Nat) : List (Nat × Nat) :=
  let (o, len) := s.sectionAt i ty
  cellsOf s.hbm (slotBase i + o) size (len / size)

/-- A table of bit vectors from numbered values. -/
def tblOf (w : Nat) (l : List (Nat × Nat)) : Tbl (BitVec w) := l.filterMap fun e =>
  if BitVec.ofNat w e.2 = 0 then none else some (e.1, BitVec.ofNat w e.2)

/-! ### What an image holds -/

/-- Header fields (08 Table 08-1). -/
def State.imageHead (s : State) (i : Nat) : AlmHead :=
  { version := s.imageNum i 4 2, setid := BitVec.ofNat 64 (s.imageNum i 16 8), pred := BitVec.ofNat 64 (s.imageNum i 24 8)
    epoch := BitVec.ofNat 32 (s.imageNum i 32 4), device := s.imageNum i 36 2, nextSlot := s.imageNum i 38 1
    nextGap := s.imageNum i 40 4, headerCrc := BitVec.ofNat 32 (s.imageNum i 252 4) }

/-- The register records in order: (address, value) (08 R186). -/
def State.imageRegs (s : State) (i : Nat) : List (Nat × Word) :=
  let (o, len) := s.sectionAt i 2
  (List.range (len / 16)).map fun j => (s.imageNum i (o + 16 * j) 8, BitVec.ofNat 64 (s.imageNum i (o + 16 * j + 8) 8))

/-- The trim map in order: (term, entry) (08 R187). -/
def State.imageTrims (s : State) (i : Nat) : List (Nat × Nat) :=
  let (o, len) := s.sectionAt i 7
  (List.range (len / 8)).map fun j => (s.imageNum i (o + 8 * j) 4, s.imageNum i (o + 8 * j + 4) 4)

/-- Everything beside the tables. -/
def State.image (s : State) (i : Nat) : AlmImg :=
  let w := s.sectionWords i 1 4
  let l := s.sectionWords i 1 8
  { head := s.imageHead i
    quads := tblOf 32 (w.filter fun e => decide (e.1 < 32))
    links := tblOf 64 ((l.filter fun e => decide (16 ≤ e.1)).map fun e => (e.1 - 16, e.2))
    regs := s.imageRegs i, trims := s.imageTrims i, digests := tblOf 32 (s.sectionWords i 8 4) }

/-- The emit entries as staged: a version 1 image's MINUS entries take as OWNGAIN the GAIN of the term that their trim record names (08 R190). -/
def State.imageEmit (s : State) (i : Nat) : Tbl (BitVec 80) :=
  let es := s.sectionWords i 3 10
  if s.imageNum i 4 2 = 1 then
    let terms := s.sectionWords i 4 8
    let trims := s.imageTrims i
    tblOf 80 (es.map fun e =>
      if entryOp e.2 = opMinus then
        match trims.find? fun t => t.2 = e.1 with
        | some t => (e.1, putField e.2 9 12 (termGain ((terms.lookup t.1).getD 0)))
        | none => e
      else e)
  else tblOf 80 es

/-- Terms, converter configuration and coefficients. -/
def State.imageTerms (s : State) (i : Nat) : Tbl Word := tblOf 64 (s.sectionWords i 4 8)
def State.imageConv (s : State) (i : Nat) : Tbl (BitVec 32) := tblOf 32 (s.sectionWords i 5 4)
def State.imageCoef (s : State) (i : Nat) : Tbl (BitVec 18) := tblOf 18 (s.sectionWords i 6 4)

/-- Every almanac-loaded register at its reset value, then the records (08 R186). -/
def State.loadRegs (s : State) (regs : List (Nat × Word)) : State :=
  let s := s.each loadedRegs fun r s => s.eachN (loadedCount r) fun j s =>
    let i := r.place.first + j
    if r = .coreSumCount then s else s.setWord r i r.reset
  s.each regs fun x s =>
    match regAt x.1 with
    | some (r, i) => if r.isLoaded i && r ≠ .coreSumCount then s.setWord r i (BitVec.ofNat 64 (r.stored r.reset.toNat x.2.toNat)) else s
    | none => s

/-- CORE_SUM_COUNT as an almanac's records give it (06 R125: from e + 1). -/
def State.loadCounts (s : State) (regs : List (Nat × Word)) : State :=
  let s := s.eachN 64 fun k s => s.setWord .coreSumCount k 0
  s.each regs fun x s =>
    match regAt x.1 with
    | some (r, i) => if r = .coreSumCount then s.setWord r i (x.2 &&& 0xFFFF) else s
    | none => s

/-- The device as image `i` would configure it, for the load checks alone. -/
def State.asLoaded (s : State) (i : Nat) : State :=
  let a := s.image i
  let t := (s.loadRegs a.regs).loadCounts a.regs
  let t := t.eachN 32 fun q t => t.wr F.laneStateGen q (a.gen q)
  let bridges := (List.range 64).filterMap fun b =>
    if t.word .protBridgeCfg b = 0 then none else some (b, t.word .protBridgeCfg b)
  let core := { t.core with
    emit := s.imageEmit i, terms := s.imageTerms i, upCfg := s.imageConv i, emitEdits := [], termEdits := [] }
  let t := { t with core := core, prot := { t.prot with bridges := bridges }, ecc := { t.ecc with damage := [] } }
  t.eachN 2 fun w t => t.setWord .coreStationDis w 0

/-! ### Load checks (08 Table 08-6).  A failing check answers its REASON and DETAIL. -/

/-- A failed check. -/
abbrev Failed := Option (Nat × Nat)

/-- The first failure of a list of tests: (passes, REASON, DETAIL). -/
def firstFail (l : List (Bool × Nat × Nat)) : Failed := (l.find? fun t => !t.1).map (·.2)

/-- The lowest index that fails. -/
def lowest (l : List Nat) : Option Nat := l.foldl (fun m x => match m with | some y => some (min x y) | none => some x) none

/-- Rows 1 and 2. -/
def State.checkHeader (s : State) (i : Nat) : Failed :=
  let v := s.imageNum i 4 2
  let len := s.imageNum i 8 4
  firstFail [
    (decide (s.imageNum i 0 4 = 0x4C415A4D), 1, 0), (v = 1 || v = 2, 1, 4), (decide (s.imageNum i 6 2 = 256), 1, 6),
    (decide (256 ≤ len) && decide (len ≤ 134217728), 1, 8),
    (decide ((crc32c (s.imageBytes i 0 252)).toNat = s.imageNum i 252 4), 1, 252),
    (decide (s.imageNum i 12 2 = 0x4128), 2, 0), (decide (s.imageNum i 14 1 = 0), 2, 0)]

/-- Whether a section's LENGTH fits its TYPE (08 Table 08-2). -/
def sectionLenOk (ty len : Nat) : Bool :=
  match ty with
  | 1 => len = 1152 | 2 => len % 16 = 0 | 3 => len = 20971520 | 4 => len = 16777216 | 5 => len = 65536 | 6 => len = 384
  | 7 => len % 8 = 0 | 8 => len = 776 | 9 => decide (len ≤ 65536) | _ => false

/-- Whether two sections share a byte. -/
def Section.overlaps (a b : Section) : Bool := decide (a.off < b.off + b.len) && decide (b.off < a.off + a.len)

/-- Row 3: the first section, in table order, that breaks R183 by itself or against an earlier one. -/
def badSection (imageLen tableEnd : Nat) : List Section → List Section → Option Nat
  | _, [] => none
  | before, x :: rest =>
    let ok := decide (1 ≤ x.type) && decide (x.type ≤ 9) && x.zero = 0 && !before.any (·.type = x.type) &&
      sectionLenOk x.type x.len && x.off % 64 = 0 && decide (tableEnd ≤ x.off) && decide (x.off + x.len ≤ imageLen) &&
      !before.any fun y => x.overlaps y
    if ok then badSection imageLen tableEnd (before ++ [x]) rest else some x.type

/-- Row 3. -/
def State.checkSections (s : State) (i : Nat) : Failed :=
  let n := s.imageNum i 15 1
  let t := s.sections i
  if (crc32c (s.imageBytes i 256 (16 * n))).toNat ≠ s.imageNum i 248 4 then some (3, 0)
  else if n ≠ 8 ∧ n ≠ 9 then some (3, 0)
  else match badSection (s.imageNum i 8 4) (256 + 16 * n) [] t with
    | some ty => some (3, ty)
    | none =>
      match (List.range 8).find? fun k => !t.any (·.type = k + 1) with
      | some k => some (3, k + 1)
      | none => (t.find? fun x => (crc32c (s.imageBytes i x.off x.len)).toNat ≠ x.crc).map fun x => (3, x.type)

/-- Row 4. -/
def State.checkFields (s : State) (i : Nat) : Failed :=
  let h := s.imageHead i
  firstFail [
    (h.setid != 0, 4, 16), (h.epoch != 0, 4, 32), (decide (h.device ≤ 2047), 4, 36),
    (h.nextSlot = 0xFF || (decide (h.nextSlot ≤ 15) && h.version ≠ 1), 4, 38),
    (if h.nextSlot = 0xFF then h.nextGap = 0 else decide (14403 ≤ h.nextGap), 4, 40)]

/-- Row 5, WIRING: the first word that breaks 08 R185. -/
def State.checkWiring (s : State) (i : Nat) : Failed :=
  let (o, _) := s.sectionAt i 1
  let quad := (List.range 32).find? fun q =>
    let w := s.imageNum i (o + 4 * q) 4
    let facing := field w 2 2
    !(decide (w < 16) && facing ≠ 3 && (facing ≠ 0 || field w 0 2 = 0))
  let link := (List.range 128).find? fun l =>
    let w := s.imageNum i (o + 128 + 8 * l) 8
    w ≠ field w 0 11 + field w 16 7 * 2 ^ 16 + field w 32 11 * 2 ^ 32 + field w 48 7 * 2 ^ 48
  match quad, link with
  | some q, _ => some (5, q)
  | none, some l => some (5, 32 + l)
  | none, none => none

/-- Whether a TIM record keeps 09 R242's rules on links: no OFF link, and a device-facing one for adoption and ROUNDTRIP. -/
def timLinkOk (t : State) (a : AlmImg) (r : Reg) (v : Nat) : Bool :=
  let ok := fun l round => t.rd F.lagLinkCfgMode l ≠ 0 && (!round || a.facing (l / 4) = 1)
  match r with
  | .timRefCfg => field v 0 3 ≠ 6 || ok (field v 8 7) (!bit v 3)
  | .timAdoptCfg => ok (field v 0 7) true
  | _ => true

/-- Row 5, REGISTERS: the first record whose address or value breaks 08 R186 or the rules row 5 names; `t` the device as loaded. -/
def State.checkRegs (t : State) (a : AlmImg) : Failed :=
  let one := fun (j : Nat) =>
    match a.regs[j]? with
    | none => true
    | some (addr, v) =>
      match regAt addr with
      | none => false
      | some (r, i) =>
        let pool := ((a.regs.take (j + 1)).map fun x =>
          match regAt x.1 with
          | some (.lagLinkCfg, l) => if field x.2.toNat 16 2 = 1 then allotment (field x.2.toNat 0 14) (t.gen l) else 0
          | _ => 0).foldl (· + ·) 0
        r.isLoaded i && !(a.regs.take j).any (fun x => x.1 = addr) &&
          (if r = Reg.lagLinkCfg then
            lagCfgOk (field v.toNat 16 2) (field v.toNat 0 14) (field v.toNat 20 2) (t.gen i) (t.grouped i) && decide (pool ≤ 2048)
          else t.valueOk r i v.toNat) && timLinkOk t a r v.toNat
  ((List.range a.regs.length).find? fun j => !one j).map fun j => (5, j)

/-- Whether the fields an operation does not use are 0, and OP, OFMT and SRC allowed (07 R160, R161, R171). -/
def entryOk (e : Nat) : Bool :=
  let op := entryOp e
  let f := entryOfmt e
  let srcOk := !bit (entrySrc e) 21 || decide (field (entrySrc e) 0 21 ≤ 16386)
  let zero := fun lo w => field e lo w = 0
  decide (op ≤ 5) && f ≠ 7 && zero 0 6 && srcOk &&
    (opReadsSrc op || zero 51 22) && (opReadsSorus op || zero 33 18) &&
    (op = opCopy || op = opSum || op = opMinus || (zero 21 12 && !entryLim e)) && (op = opMinus || zero 9 12) &&
    (op = opCopy || op = opMinus || !entryTalkpass e) && ((decide (1 ≤ op) && decide (op ≤ 4)) || !entryHoldbad e) &&
    (if f = 6 then op = opSilence || op = opRaw || op = opHold else f = 0 || op ≠ opRaw)

/-- Row 6 for the emit entry of index `x`: its encoding, its pair (07 R170), its C8X4 group and its link's count of legacy entries (07 R176). -/
def emitRowOk (get : Nat → Nat) (legacyBefore : Nat → Nat) (v1 : Bool) (raw : Nat → Nat) (x : Nat) : Bool :=
  let e := get x
  let f := entryOfmt e
  let base := x / 4 * 4
  let mate := entryOfmt (get (if x % 2 = 0 then x + 1 else x - 1))
  entryOk e && ((f = 3) == (mate = 3)) && (!c8Fmt f || (List.range 4).all fun j => entryOfmt (get (base + j)) = f) &&
    (!legacyFmt f || decide (legacyBefore x < 128)) && (!v1 || field (raw x) 9 12 = 0)

/-- Row 6 for a sum term (07 R159). -/
def termOk (t : Nat) : Bool :=
  field t 0 11 = 0 && (!bit (termSrc t) 21 || decide (field (termSrc t) 0 21 ≤ 16386))

/-- Row 6. -/
def State.checkEncodings (s : State) (i : Nat) : Failed :=
  let es := s.sectionWords i 3 10
  let raw := fun x => (es.lookup x).getD 0
  let v1 := decide (s.imageNum i 4 2 = 1)
  let get := fun x => if v1 then putField (raw x) 9 12 0 else raw x
  let legacyBefore := fun x => (es.filter fun e => decide (e.1 / 16384 = x / 16384) && decide (e.1 < x) && legacyFmt (entryOfmt e.2)).length
  let cand := es.flatMap fun e => (List.range 4).map fun j => e.1 / 4 * 4 + j
  match lowest (cand.filter fun x => !emitRowOk get legacyBefore v1 raw x) with
  | some x => some (6, x)
  | none => (lowest (((s.sectionWords i 4 8).filter fun t => !termOk t.2).map (·.1))).map fun x => (6, x)

/-- Whether a converter word keeps 07 R173. -/
def convOk (c : Nat) : Bool :=
  let m := upMode c
  decide (m ≤ 5) && !bit (upSrc c) 21 && field c 30 2 = 0 &&
    (if m = 0 then upCh c = 0 && upPhase c = 0
     else if m = 3 then decide (upCh c ≤ 1) && upPhase c = 0
     else (4 ≤ m || upCh c = 0) && decide (upPhase c < modeRatio m))

/-- Whether coefficient set `k` keeps 07 R178: 48 sign-extended 18-bit words whose magnitudes add up to at most 245,760. -/
def State.coefOk (s : State) (i k : Nat) : Bool :=
  let (o, _) := s.sectionAt i 6
  let ws := (List.range 48).map fun j => s.imageNum i (o + 192 * k + 4 * j) 4
  ws.all (fun w => signed 32 w = signed 18 w) && decide ((ws.map fun w => (signed 18 w).natAbs).foldl (· + ·) 0 ≤ 245760)

/-- Row 7. -/
def State.checkConverters (s : State) (i : Nat) : Failed :=
  match lowest (((s.sectionWords i 5 4).filter fun c => !convOk c.2).map (·.1)) with
  | some x => some (7, x)
  | none =>
    if !s.coefOk i 0 then some (7, 0x80000003)
    else if !s.coefOk i 1 then some (7, 0x80000006) else none

/-- Whether position `q` is executed (06 R130). -/
def State.executed (t : State) (q : Nat) : Bool := decide (q % 32768 < t.rd F.coreSumCountCount (q / 32768))

/-- The executed positions whose term has this SRC and SORUS; an all-zero term is executed like any other (06 R130). -/
def State.pairedTerms (t : State) (src sorus : Nat) : List Nat :=
  let listed := (t.core.terms.filter fun x => t.executed x.1 && termSrc x.2.toNat = src && termSorus x.2.toNat = sorus).map (·.1)
  if src = 0 && sorus = 0 then
    listed ++ (List.range 2097152).filter fun q => t.executed q && Tbl.get 0 t.core.terms q = 0
  else listed

/-- Row 8 for a MINUS entry `x`: exactly one term, its GAIN and GATE, and exactly one record of the trim map, which names it (07 R165, 08 R187). -/
def State.minusOk (t : State) (a : AlmImg) (x e : Nat) : Bool :=
  match t.pairedTerms (entrySrc e) (entrySorus e) with
  | [q] =>
    let w := (Tbl.get 0 t.core.terms q).toNat
    termGain w = entryOwn e && (termGate w != entryTalkpass e) && ((a.trims.filter fun r => r.2 = x).map (·.1) == [q])
  | _ => false

/-- Whether the records stand in rising order. -/
def trimsSorted : List (Nat × Nat) → Option Nat
  | a :: b :: rest => if a.1 < b.1 ∨ (a.1 = b.1 ∧ a.2 < b.2) then trimsSorted (b :: rest) else some b.2
  | _ => none

/-- Row 8; of two partners of a term in one station the later one fails. -/
def State.checkPairing (t : State) (a : AlmImg) : Failed :=
  let bad := (t.core.emit.filter fun e => entryOp e.2.toNat = opMinus && !t.minusOk a e.1 e.2.toNat).map (·.1)
  let stray := (a.trims.filter fun r => entryOp (Tbl.get 0 t.core.emit r.2).toNat ≠ opMinus ||
    a.trims.any fun q => q.1 = r.1 && decide (q.2 < r.2) && q.2 / 16384 = r.2 / 16384).map (·.2)
  match lowest bad, lowest stray, trimsSorted a.trims with
  | some x, _, _ => some (8, x)
  | none, some x, _ => some (8, x)
  | none, none, some x => some (8, x)
  | none, none, none => none

/-- The terms an issue pair executes, as the tables stand. -/
def State.issueTerms (t : State) (i : Nat) : List Issue :=
  (List.range 128).filterMap fun lane =>
    if t.laneRuns lane i then some ⟨lane, (Tbl.get 0 t.core.terms (lanePos lane i)).toNat, false⟩ else none

/-- Whether an issue pair has a read clash, and whether its posts clash (06 R134). -/
def State.issueClash (t : State) (i : Nat) : Bool × Bool :=
  let is := t.issueTerms i
  let read := is.any fun x => match srcBank (termSrc x.term) with | some (b, w) => bankClash is b w | none => false
  let ends := is.filter fun x => !(t.laneRuns x.lane (i + 1) &&
    decide (termSorus (Tbl.get 0 t.core.terms (lanePos x.lane (i + 1))).toNat = termSorus x.term))
  let banks := ends.map fun x => termSorus x.term % 64
  (read, banks.any fun b => decide (1 < (banks.filter (· = b)).length))

/-- Row 10: the scheduled index of the earliest clash. -/
def State.checkSum (t : State) : Failed :=
  (lowest ((List.range t.sumPairs).flatMap fun i =>
    let (r, p) := t.issueClash i
    (if r then [4096 + i] else []) ++ (if p then [4096 + i + 8] else []))).map fun n => (10, n)

/-- The late slots of station `k` under the tables of `t` (06 R136 to R141). -/
def State.lateSlots (t : State) (k : Nat) : List Nat :=
  let gen := t.gen k
  if gen = 0 then [] else
  let es := (t.liveSlots k gen).map fun sl => (sl, (Tbl.get 0 t.core.emit (16384 * k + sl)).toNat)
  let rs := stationReads k (es.flatMap fun e => entryReads gen e.1 e.2)
  (es.filter fun e => (completion gen e.1 e.2 rs).isNone).map (·.1)

/-- Row 11. -/
def State.checkEmit (t : State) : Failed :=
  (lowest ((List.range 128).flatMap fun k => (t.lateSlots k).map fun sl => 16384 * k + sl)).map fun x => (11, x)

/-! ### Digests (08 R188) -/

/-- Bytes of `n` words of `size` bytes from index `lo`. -/
def wordsBytes (get : Nat → Nat) (size lo n : Nat) : List Byte := (List.range n).flatMap fun j => toBytes size (get (lo + j))

/-- The digest of region `r` over tables given by their words; `wiring` and `regs` as bytes. -/
def digestOf (emit terms conv coef : Nat → Nat) (wiring regs : List Byte) (r : Nat) : BitVec 32 :=
  if r < 128 then crc32c (wordsBytes (fun x => putField (emit x) 9 24 0) 10 (16384 * r) 16384)
  else if r < 192 then crc32c (wordsBytes (fun x => putField (terms x) 12 12 0) 8 (32768 * (r - 128)) 32768)
  else if r = 192 then crc32c (wordsBytes conv 4 0 16384 ++ wordsBytes coef 4 0 96)
  else crc32c (wiring ++ regs)

/-- The bytes of WIRING as a plan holds them. -/
def AlmImg.wiringBytes (a : AlmImg) : List Byte :=
  wordsBytes (fun q => (Tbl.get 0 a.quads q).toNat) 4 0 32 ++ wordsBytes (fun l => (Tbl.get 0 a.links l).toNat) 8 0 128

/-- A coefficient as its 32-bit word. -/
def coefWord (t : Tbl (BitVec 18)) (j : Nat) : Nat := unsigned 32 (Tbl.get 0 t j).toInt

/-- Region digests over an image (08 R188). -/
def State.imageDigest (s : State) (i : Nat) (a : AlmImg) (r : Nat) : BitVec 32 :=
  let es := s.imageEmit i
  let ts := s.imageTerms i
  let cs := s.imageConv i
  digestOf (fun x => (Tbl.get 0 es x).toNat) (fun x => (Tbl.get 0 ts x).toNat) (fun x => (Tbl.get 0 cs x).toNat)
    (coefWord (s.imageCoef i)) a.wiringBytes (a.regs.flatMap fun x => toBytes 8 x.1 ++ toBytes 8 x.2.toNat) r

/-- Row 12. -/
def State.checkDigests (s : State) (i : Nat) (a : AlmImg) : Failed :=
  ((List.range 194).find? fun r => s.imageDigest i a r ≠ Tbl.get 0 a.digests r).map fun r => (12, r)

/-- All rows in order: the first failure, or none (08 R193).  Row 9 cannot fail here: the encodings and CORE_SUM_COUNT's rule keep every limit of
06 Table 06-7. -/
def State.loadCheck (s : State) (i : Nat) : Failed :=
  (s.checkHeader i).orElse fun _ => (s.checkSections i).orElse fun _ => (s.checkFields i).orElse fun _ =>
  (s.checkWiring i).orElse fun _ =>
  let a := s.image i
  let t := s.asLoaded i
  (t.checkRegs a).orElse fun _ => (s.checkEncodings i).orElse fun _ => (s.checkConverters i).orElse fun _ =>
  (t.checkPairing a).orElse fun _ => t.checkSum.orElse fun _ => t.checkEmit.orElse fun _ => s.checkDigests i a

end Sys2Proof.Machine
end

