-- ==== Sys2Proof/Machine/Tables.lean ====
section
/-! DEFINITION. Words of the active and shadow tables: the table window, gain trims and what a write of a word does (08 R196, R197, R205 to R207,
R409; 11 R284, R285). -/

namespace Sys2Proof.Machine

/-! ### Places of the table window (08 Table 08-7) -/

/-- What an address of the table window names. -/
inductive WinPlace
  | emit (shadow : Bool) (i : Nat) | term (shadow : Bool) (i : Nat) | up (i : Nat) | conv (i : Nat) | down (i : Nat)
  | coef (shadow : Bool) (j : Nat)
  deriving DecidableEq, Repr

/-- The place of a byte address and the byte's offset in its entry. -/
def winPlace (a : Nat) : Option (WinPlace × Nat) :=
  let o := a - 0x8000000
  if a < 0x8000000 then none
  else if o < 0x2000000 then some (.emit false (o / 16), o % 16)
  else if o < 0x4000000 then some (.emit true ((o - 0x2000000) / 16), o % 16)
  else if o < 0x5000000 then some (.term false ((o - 0x4000000) / 8), o % 8)
  else if o < 0x6000000 then some (.term true ((o - 0x5000000) / 8), o % 8)
  else if o < 0x6100000 then some (.up ((o - 0x6000000) / 64), o % 64)
  else if o < 0x6110000 then some (.conv ((o - 0x6100000) / 4), o % 4)
  else if 0x6200000 ≤ o ∧ o < 0x6300000 then some (.down ((o - 0x6200000) / 64), o % 64)
  else if 0x6400000 ≤ o ∧ o < 0x6400180 then some (.coef false ((o - 0x6400000) / 4), o % 4)
  else if 0x6400400 ≤ o ∧ o < 0x6400580 then some (.coef true ((o - 0x6400400) / 4), o % 4)
  else none

/-- Bytes of an entry's place. -/
def WinPlace.size : WinPlace → Nat
  | .emit _ _ => 16 | .term _ _ => 8 | .up _ => 64 | .conv _ => 4 | .down _ => 64 | .coef _ _ => 4

/-- Whether a place is reached through reserved cycles (08 R197). -/
def WinPlace.isActive : WinPlace → Bool
  | .emit sh _ => !sh | .term sh _ => !sh | .up _ => true | .down _ => true | _ => false

/-- Whether a place may be written, and whether it lies in the shadow. -/
def WinPlace.writable : WinPlace → Bool
  | .down _ => false | .coef sh _ => sh | _ => true
def WinPlace.isShadow : WinPlace → Bool
  | .emit sh _ => sh | .term sh _ => sh | .conv _ => true | .coef sh _ => sh | _ => false

/-- The address word of a place's protected word (11 Tables 11-1, 11-2); none for what is held in registers. -/
def State.winAddr (s : State) : WinPlace → Option Nat
  | .emit sh i => some (eccAddr 0 (2 * (i / 16384) + b2n (s.core.emitHalf != sh)) (i % 16384))
  | .term sh i => some (eccAddr 1 (4 * (i / 32768) + 2 * (i % 2) + b2n (s.core.sumHalf != sh)) (i % 32768 / 2))
  | .up i => some (eccAddr 5 (24 + i % 2) (i / 4))
  | _ => none

/-- A place's word as held: an entry, a term, a converter's configuration, a coefficient as 32 bits. -/
def State.winHeld (s : State) : WinPlace → Nat
  | .emit sh i => (Tbl.get 0 (if sh then s.core.emitShadow else s.core.emit) i).toNat
  | .term sh i => (Tbl.get 0 (if sh then s.core.termShadow else s.core.terms) i).toNat
  | .up i => (Tbl.get 0 s.core.upCfg i).toNat
  | .conv i => (Tbl.get 0 s.core.upShadow i).toNat
  | .coef sh j => coefWord (if sh then s.core.coefShadow else s.core.coefUp) j
  | .down _ => 0

/-- All bits of a table word. -/
abbrev allBits : BitVec 80 := BitVec.allOnes 80

/-- `old` with the bits of `mask` taken from `bits`. -/
def blend (old mask bits : BitVec 80) : BitVec 80 := (old &&& ~~~mask) ||| (bits &&& mask)

/-- An edit put among those of its tick in the order of cycles, those of later cycles laid over it again: `now` is the word before it where no later
one stands.  Answers the edits and the word that results (06 R145). -/
def editPut (e : TableEdit) : List TableEdit → List TableEdit × BitVec 80
  | [] => ([e], blend e.old e.mask e.bits)
  | x :: xs =>
    if x.index ≠ e.index then
      let y := editPut e xs
      (x :: y.1, y.2)
    else if x.cycle ≤ e.cycle then
      let y := editPut { e with old := blend x.old x.mask x.bits } xs
      (x :: y.1, y.2)
    else
      let y := editPut { x with old := blend x.old e.mask e.bits } xs
      ({ e with old := x.old } :: y.1, y.2)

/-- A place's word stored, the bits of `mask` of it; an active table word's edit is noted with its cycle and takes effect in the order of cycles (06
R145). -/
def State.winPut (s : State) (p : WinPlace) (v cyc : Nat) (mask : BitVec 80) : State :=
  let c := s.core
  let flips := match s.winAddr p with | some a => Tbl.get [] s.ecc.damage a | none => []
  match p with
  | .emit false i =>
    let y := editPut ⟨cyc, i, mask, BitVec.ofNat 80 v, Tbl.get 0 c.emit i, flips⟩ c.emitEdits
    { s with core := { c with emit := Tbl.set 0 c.emit i y.2, emitEdits := y.1 } }
  | .emit true i => { s with core := { c with emitShadow := Tbl.set 0 c.emitShadow i (BitVec.ofNat 80 v) } }
  | .term false i =>
    let y := editPut ⟨cyc, i, mask, BitVec.ofNat 80 v, (Tbl.get 0 c.terms i).setWidth 80, flips⟩ c.termEdits
    { s with core := { c with terms := Tbl.set 0 c.terms i (y.2.setWidth 64), termEdits := y.1 } }
  | .term true i => { s with core := { c with termShadow := Tbl.set 0 c.termShadow i (BitVec.ofNat 64 v) } }
  | .up i => { s with core := { c with upCfg := Tbl.set 0 c.upCfg i (BitVec.ofNat 32 v) } }
  | .conv i => { s with core := { c with upShadow := Tbl.set 0 c.upShadow i (BitVec.ofNat 32 v) } }
  | .coef true j => { s with core := { c with coefShadow := Tbl.set 0 c.coefShadow j (BitVec.ofNat 18 v) } }
  | _ => s

/-- The bytes of a place's word that a write of it stores: the configuration of a converter stands at bytes 48 to 51 of its record. -/
def WinPlace.base : WinPlace → Nat
  | .up _ => 48 | _ => 0
def WinPlace.bytes : WinPlace → Nat
  | .emit _ _ => 10 | .term _ _ => 8 | _ => 4

/-- A word with its enabled bytes replaced: `off` is the place of the first of `data` in the entry. -/
def mergeBytes (old base n off : Nat) (data : List (Option Byte)) : Nat :=
  (List.range n).foldl (fun w j =>
    if off ≤ base + j then
      match data.getD (base + j - off) none with
      | some b => putField w (8 * j) 8 b.toNat
      | none => w
    else w) old

/-- How many bytes of a place's word a write enables. -/
def WinPlace.enabled (p : WinPlace) (off : Nat) (data : List (Option Byte)) : Nat :=
  ((List.range p.bytes).filter fun j => decide (off ≤ p.base + j) && (data.getD (p.base + j - off) none).isSome).length

/-- The bits of a place's word that a write enables. -/
def WinPlace.enabledBits (p : WinPlace) (off : Nat) (data : List (Option Byte)) : BitVec 80 :=
  BitVec.ofNat 80 (mergeBytes 0 p.base p.bytes off (data.map fun b => b.map fun _ => 255))

/-- Whether a word holds no reserved encoding (08 R409). -/
def WinPlace.encodingOk (p : WinPlace) (v : Nat) : Bool :=
  let src := fun a => !bit a 21 || decide (field a 0 21 ≤ 16386)
  match p with
  | .emit _ _ => decide (entryOp v ≤ 5) && entryOfmt v ≠ 7 && src (entrySrc v)
  | .term _ _ => src (termSrc v)
  | .up _ => decide (upMode v ≤ 5) && src (upSrc v)
  | .conv _ => decide (upMode v ≤ 5) && src (upSrc v)
  | _ => true

/-- A protected word rewritten after a merge: its damage is gone (11 R284). -/
def State.mergedWrite (s : State) (a : Nat) : State :=
  { s with ecc := { s.ecc with damage := Tbl.erase a s.ecc.damage } }

/-- How a write of a table word ended. -/
inductive WinDone
  | done | bad | reserved
  deriving DecidableEq, Repr

/-- A write applied at cycle `cyc`: full-word, or merged into what the word reads as; not performed where that is a UE, or where the result would be
a reserved encoding (08 R409, 11 R284). -/
def State.winWrite (s : State) (p : WinPlace) (off : Nat) (data : List (Option Byte)) (cyc : Nat) : WinDone × State :=
  let merge := fun old => mergeBytes old p.base p.bytes off data
  let put := fun (s : State) (old : Nat) (fresh : State → State) =>
    let mask := if old = s.winHeld p then p.enabledBits off data else allBits
    if p.encodingOk (merge old) then (WinDone.done, fresh (s.winPut p (merge old) cyc mask)) else (.reserved, s)
  match p, s.winAddr p with
  | _, none => put s (s.winHeld p) fun s => s
  | .up i, some a =>
    let w := (Tbl.get 0 s.core.upCfg (i / 4 * 4 + i % 2)).toNat + (Tbl.get 0 s.core.upCfg (i / 4 * 4 + i % 2 + 2)).toNat * 2 ^ 32
    match s.sramRead a false w false with
    | (.data d, s) => put s (field d (32 * (i % 4 / 2)) 32) (·.mergedWrite a)
    | (_, s) => (.bad, s.wantRestore a)
  | _, some a =>
    if p.enabled off data = p.bytes then put s (s.winHeld p) (·.fullWrite a)
    else match s.sramRead a false (s.winHeld p) false with
      | (.data d, s) => put s d (·.mergedWrite a)
      | (_, s) => (.bad, if s.activeTable a then s.wantRestore a else s)

/-! ### Reads of the table window (08 R196; 11 Table 11-4) -/

/-- Word `k` of a place's entry, 8 bytes each, as a control-bus read gets it. -/
def State.winRead8 (s : State) (p : WinPlace) (k : Nat) : Got × State :=
  match p with
  | .up i =>
    if k < 6 then
      let u := Tbl.get {} s.core.up i
      let bits := (List.range 16).foldl (fun a j => a + (u.hist.getD j 0).toNat * 2 ^ (24 * j)) 0
      let n := 6 * i + k
      s.sramRead (eccAddr 5 (n % 24) (n / 24)) false (field bits (64 * k) 64) false
    else if k = 6 then
      let j := i / 4 * 4 + i % 2
      let w := (Tbl.get 0 s.core.upCfg j).toNat + (Tbl.get 0 s.core.upCfg (j + 2)).toNat * 2 ^ 32
      match s.sramRead (eccAddr 5 (24 + i % 2) (i / 4)) false w false with
      | (.data d, s) => (.data (field d (32 * (i % 4 / 2)) 32), s)
      | x => x
    else (.data 0, s)
  | .down i => s.sramRead (eccAddr 5 (26 + 8 * (i % 4) + k) (i / 4)) false (field (Tbl.get {} s.core.down i).bits (64 * k) 64) false
  | p =>
    match s.winAddr p with
    | some a =>
      match s.sramRead a false (s.winHeld p) false with
      | (.data d, s) => (.data (field d (64 * k) 64), s)
      | x => x
    | none => (.data (field (s.winHeld p) (64 * k) 64), s)

/-- The words `lo` to `lo + n - 1` of a place's entry, each of its own protected word. -/
def State.winReads (s : State) (p : WinPlace) (lo n : Nat) : Option (List Byte) × State :=
  iter (fun k (acc : Option (List Byte) × State) =>
    match acc.1, acc.2.winRead8 p k with
    | some l, (.data d, s) => (some (l ++ toBytes 8 d), s)
    | _, (_, s) => (none, s)) lo n (some [], s)

/-- An emit entry or sum term as read at cycle `c`, in one read of its protected word; one of the active half as it stood then (06 R145; 11 R281). -/
def State.winReadWord (s : State) (p : WinPlace) (a c : Nat) : Got × State :=
  match p with
  | .emit false i => s.fetchRead s.core.emitEdits a i c (s.winHeld p) false
  | .term false i => s.fetchRead s.core.termEdits a i c (s.winHeld p) false
  | p => s.sramRead a false (s.winHeld p) false

/-- The `n` bytes at offset `off` of a place's entry as read at cycle `c`; none on a UE or poison. -/
def State.winRead (s : State) (p : WinPlace) (off n c : Nat) : Option (List Byte) × State :=
  let whole := match p with | .emit _ _ => true | .term _ _ => true | _ => false
  match s.winAddr p with
  | some a =>
    if whole then
      match s.winReadWord p a c with
      | (.data d, s) => (some (((toBytes 16 d).drop off).take n), s)
      | (_, s) => (none, s)
    else
      let x := s.winReads p (off / 8) ((off + n - 1) / 8 + 1 - off / 8)
      (x.1.map fun l => (l.drop (off % 8)).take n, x.2)
  | none =>
    let x := s.winReads p (off / 8) ((off + n - 1) / 8 + 1 - off / 8)
    (x.1.map fun l => (l.drop (off % 8)).take n, x.2)

/-! ### Gain trims (08 R205 to R207) -/

/-- A gain field written into an active table word; false where the word holds an uncorrectable error or awaits its restore (08 R207). -/
def State.gainWrite (s : State) (p : WinPlace) (lo gain cyc : Nat) : Bool × State :=
  match s.winAddr p with
  | none => (false, s)
  | some a =>
    if s.ecc.restores.any (·.1 = a) then (false, s)
    else match s.sramRead a false (s.winHeld p) false with
      | (.data d, s) =>
        let mask := if d = s.winHeld p then BitVec.ofNat 80 (putField 0 lo 12 4095) else allBits
        (true, (s.winPut p (putField d lo 12 gain) cyc mask).mergedWrite a)
      | (_, s) => (false, s.wantRestore a)

/-- Whether the active almanac's trim map can be read (08 R205). -/
def State.hasTrimMap (s : State) : Bool :=
  s.flag F.almStateActiveValid 0 && s.rd F.almSlotStatusSstate (s.rd F.almStateActiveSlot 0) = 4

/-- The partner entries of a term under the active trim map. -/
def State.partners (s : State) (term : Nat) : List Nat := (s.alm.active.trims.filter (·.1 = term)).map (·.2)

/-- The last trim's RESULT, and QUEUE as it stands (08 Table 08-13). -/
def State.trimResult (s : State) (r : Nat) : State := (s.wr F.almTrimStatusResult 0 r).wr F.almTrimStatusQueue 0 s.alm.trims.length

/-- A trim at its tick u (08 R205, R206): the term at cycle 63, entries at cycle 31,039. -/
def State.trimDo (s : State) (t : Trim) : State :=
  let finish := fun (ok : Bool) (s : State) =>
    let s := (s.wr F.almTrimStatusTick 0 s.now).trimResult (if ok then 1 else 5)
    if ok then s.count .almTrims 0 else s
  if t.output then
    let op := entryOp (s.winHeld (.emit false t.index))
    if !s.flag F.almStateActiveValid 0 || !(op = opCopy || op = opSum || op = opMinus) then s.trimResult 2
    else
      let (ok, s) := s.gainWrite (.emit false t.index) 21 t.gain 31039
      finish ok (s.count .coreResvMirror 0)
  else if !s.hasTrimMap then s.trimResult 3
  else
    let (ok, s) := s.gainWrite (.term false t.index) 12 t.gain 63
    let ps := s.partners t.index
    let (ok, s) := ps.foldl (fun (acc : Bool × State) e =>
      let (o, s) := acc.2.gainWrite (.emit false e) 9 t.gain 31039
      (acc.1 && o, s)) (ok, s)
    finish ok (s.countBy .coreResvMirror 0 (if ps.isEmpty then 1 else 2))

end Sys2Proof.Machine
end

