-- ==== Sys2Proof/Machine/Tim.lean ====
section
/-! DEFINITION. The timing block's operations (09): references, selection, the DCO, exchanges and adoption. -/

namespace Sys2Proof.Machine

/-! ### State -/

def State.ref (s : State) (i : Nat) : RefH := Tbl.get {} s.tim.refs i
def State.setRef (s : State) (i : Nat) (v : RefH) : State := { s with tim := { s.tim with refs := Tbl.set {} s.tim.refs i v } }
def State.exch (s : State) (l : Nat) : ExchH := Tbl.get {} s.tim.exch l
def State.setExch (s : State) (l : Nat) (v : ExchH) : State := { s with tim := { s.tim with exch := Tbl.set {} s.tim.exch l v } }

/-- Units of phase in a tick (09 R218). -/
abbrev unitsPerTick : Int := 500000

/-- A phase reduced into -250,000 to 249,999 (09 R218). -/
def wrapPhase (p : Int) : Int := (p + 250000) % 500000 - 250000

/-- rhu(v / n) for a positive `n` (07 R155, 09 R236). -/
def rhuDiv (v n : Int) : Int := (2 * v + n) / (2 * n)

/-- TX_PHASE in units (09 R218). -/
def phaseUnits (gen txPhase : Nat) : Nat :=
  (rhuDiv ((txPhase * (match gen with | 3 => 384 | 2 => 768 | _ => 1536) : Nat) : Int) 425).toNat

/-- Reference types of 09 Table 09-2. -/
abbrev refLink : Nat := 6

/-- The loop bandwidth of a type where BW is 0, in 0.01 Hz (09 Table 09-2). -/
def refTypeBw : Nat → Nat
  | 1 => 1000 | 2 => 500 | 3 => 5 | 4 => 100 | 5 => 100 | 6 => 2000 | _ => 0

def State.refType (s : State) (i : Nat) : Nat := s.rd F.timRefCfgType i
def State.refRank (s : State) (i : Nat) : Nat := s.rd F.timRefCfgRank i
def State.refBw (s : State) (i : Nat) : Nat :=
  if s.rd F.timRefCfgBw i = 0 then refTypeBw (s.refType i) else s.rd F.timRefCfgBw i
def State.refQualified (s : State) (i : Nat) : Bool := s.flag F.timRefStateQualified i

/-- Whether a type gives phase. -/
def givesPhase (ty : Nat) : Bool := ty = 1 || ty = 2 || ty = 3 || ty = 6

/-- FREQ, R in ppt (09 R220). -/
def State.refFreq (s : State) (i : Nat) : Int := s.rdS F.timRefStateFreq i

/-! ### Qualification (09 R219, R220) -/

/-- A reference's qualification begun again. -/
def State.refRestart (s : State) (i : Nat) : State :=
  let r := s.ref i
  s.setRef i { r with since := s.tick.n, pulses := 0, next := none, missed := 0, outs := [] }

/-- REF_FAIL: a ranked reference is disqualified (09 R241). -/
def State.refFail (s : State) (i : Nat) : State := s.when (!s.refQualified i && decide (0 < s.refRank i)) (·.raise A.refFail i)

/-- A reference disqualified for `cause` (09 Table 09-11), or its qualification begun again where it is not qualified. -/
def State.refLose (s : State) (i cause : Nat) : State :=
  let s := s.refRestart i
  let s := s.when (s.refQualified i) fun s =>
    let s := s.setRef i { s.ref i with dqSecond := true, waiting := false }
    let s := (s.setFlag F.timRefStateQualified i false).setFlag F.timRefStateRestoring i false
    (s.wr F.timRefStateDqCause i cause).count .timRefDisq i
  s.refFail i

/-- The mean of a list, rounded half upward (the spec states no rounding: DESIGN CHOICE, log entry 30). -/
def meanOf (l : List Int) : Int := if l.isEmpty then 0 else rhuDiv (l.foldl (· + ·) 0) l.length

/-- A reference beyond FREQ_LIMIT is disqualified, and its qualification does not run (09 R220). -/
def State.refLimit (s : State) (i : Nat) : State :=
  s.when (s.refType i ≠ 0 && decide (s.rd F.timCfgFreqLimit 0 * 1000000 < (s.refFreq i).natAbs)) (·.refLose i 3)

/-- A new frequency measurement of a reference, its offset since the measurement before: FREQ is the mean over the last 48,000 ticks, or the last 10
pulses of a PPS (09 R220; over those there are while fewer have come: DESIGN CHOICE, log entry 58). -/
def State.refFreqTake (s : State) (i : Nat) (r : Int) : State :=
  let x := s.ref i
  let l := (s.tick.n, r) :: x.freqs
  let l := if s.refType i = 3 then l.take 10 else l.filter fun e => decide (s.tick.n < e.1 + 48000)
  ((s.setRef i { x with freqs := l }).wrS F.timRefStateFreq i (meanOf (l.map (·.2)))).refLimit i

/-- RESTORING: WTR runs for a ranked reference since its entry to qualification after a disqualification (09 R221). -/
def State.restoreSync (s : State) (i : Nat) : State :=
  let x := s.ref i
  s.setFlag F.timRefStateRestoring i
    (s.refQualified i && x.waiting && decide (0 < s.refRank i) && decide (s.tick.n < x.restoreAt + 48000 * s.rd F.timCfgWtr 0))

/-- A change of a reference's TYPE, LINK, DELAY_MODE or DELAY from its configuration `old` restarts it (09 R219); one of RANK acts at once. -/
def State.refReconf (s : State) (i old : Nat) : State :=
  let v := (s.word .timRefCfg i).toNat
  let key := fun (w : Nat) => (field w 0 4, field w 8 7, field w 32 32)
  let s := s.when (key v ≠ key old) fun s =>
    let s := s.refLose i 7
    s.setRef i { s.ref i with fresh := true, phase := none, freqs := [] }
  (s.refFail i).restoreSync i

/-- TIM_CFG changed: FREQ_LIMIT and WTR act at once (09 R220, R221). -/
def State.refsSync (s : State) : State := s.eachN 12 fun i s => (s.refLimit i).restoreSync i

/-- The nominal spacing of a pin reference's events in ticks. -/
def refPeriod : Nat → Nat
  | 1 => 1 | 2 => 6 | 3 => 48000 | _ => 1

/-- Half the window of an event, in units; a link's is about the phase of the frame before (09 Table 09-3). -/
def State.refWindow (s : State) (i : Nat) : Int :=
  if s.refType i = 3 then (if s.refQualified i then 120000 else 3600000) else 31250

/-- An event at time `g` after the present tick's edge, in units: in its window or outside (09 R219), and its phase sample (09 R218). -/
def State.refEvent (s : State) (i : Nat) (g : Int) : State :=
  let ty := s.refType i
  let r := s.ref i
  let t : Int := (s.tick.n : Int) * unitsPerTick + g
  let ok := match r.next with | none => true | some x => decide ((t - x).natAbs ≤ (s.refWindow i).natAbs)
  let r := { r with phase := some (wrapPhase (-(g - 6 * s.rdS F.timRefCfgDelay i))) }
  if ok then
    s.setRef i { r with
      next := some (t + unitsPerTick * refPeriod ty), missed := 0, pulses := bump 3 r.pulses
      since := if r.next.isNone then s.tick.n else r.since }
  else if ty = 3 then (s.setRef i { r with pulses := 0 })
  else
    let outs := ((s.tick.n :: r.outs.erase s.tick.n).filter fun k => decide (s.tick.n < k + 48)).take 3
    let s := s.setRef i { r with outs := outs, since := s.tick.n }
    if 3 ≤ outs.length then s.refLose i 2 else s

/-- An event missing from its window: the second in a row disqualifies; so does the first missing edge of a FREQ reference (09 Table 09-3). -/
def State.refMissing (s : State) (i : Nat) : State :=
  let ty := s.refType i
  let r := s.ref i
  if ty = 4 || ty = 5 then s.refLose i 1
  else if ty = 1 || ty = 2 || ty = 3 then
    let s := s.setRef i { r with
      since := s.tick.n, pulses := 0, missed := r.missed + 1
      next := r.next.map (· + unitsPerTick * refPeriod ty) }
    if 2 ≤ r.missed + 1 then s.refLose i (if ty = 3 then 1 else 2) else s
  else s

/-- Whether a link reference needs exchanges, and on which link. -/
def State.roundtrip (s : State) (i : Nat) : Bool := s.refType i = refLink && !s.flag F.timRefCfgDelayMode i
def State.refLinkOf (s : State) (i : Nat) : Nat := s.rd F.timRefCfgLink i

/-- The own HOPS as the test of Table 09-3 takes it. -/
def State.ownHops (s : State) : Nat := if s.numbered then s.rd F.timStateHops 0 else 63

/-- Whether the last REPORT on a link keeps its ROUNDTRIP references: NUMBERED, and nearer the origin than the device (09 Table 09-3). -/
def State.reportOk (s : State) (l : Nat) : Bool :=
  match (s.exch l).last with | some (numbered, hops) => numbered && decide (hops < s.ownHops) | none => true

/-- Whether every event of a pin reference due before the tick in progress has come. -/
def State.eventsHere (s : State) (i : Nat) : Bool :=
  match (s.ref i).next with | some x => decide ((s.tick.n : Int) * unitsPerTick ≤ x + s.refWindow i) | none => false

/-- Whether a reference has completed its qualification (09 Table 09-3, R220). -/
def State.refDone (s : State) (i : Nat) : Bool :=
  let ty := s.refType i
  let r := s.ref i
  let run := s.tick.n - r.since
  decide ((s.refFreq i).natAbs ≤ s.rd F.timCfgFreqLimit 0 * 1000000) &&
    (if ty = 1 || ty = 2 then decide (4800 ≤ run) && s.eventsHere i
     else if ty = 3 then decide (3 ≤ r.pulses)
     else if ty = 4 || ty = 5 then decide (48000 ≤ run)
     else if ty = 6 then decide (4800 ≤ run) && s.inSync (s.refLinkOf i) &&
       (!s.roundtrip i || decide (r.since < (s.exch (s.refLinkOf i)).okAt) && s.reportOk (s.refLinkOf i))
     else false)

/-- Entry to qualification; after a disqualification WTR begins (09 R219, R221). -/
def State.refQualify (s : State) (i : Nat) : State :=
  let s := (s.setFlag F.timRefStateQualified i true).clear A.refFail i
  let r := s.ref i
  (s.setRef i { r with fresh := false, waiting := !r.fresh, restoreAt := s.tick.n }).restoreSync i

/-! ### Link references (09 R218, R219) -/

/-- The link references that follow ingress link `l`. -/
def State.refsOf (s : State) (l : Nat) : List Nat := [8, 9, 10, 11].filter fun i => s.refType i = refLink && s.refLinkOf i = l

/-- The one-way delay of a link reference in units, where it has one. -/
def State.refDelay (s : State) (i : Nat) : Option Int :=
  if s.flag F.timRefCfgDelayMode i then some (6 * s.rdS F.timRefCfgDelay i) else (s.exch (s.refLinkOf i)).delay

/-- A frame with good OCRC in SYNC, its FM at `g` units: a phase sample for the link's references (09 R218).  One outside its window, beyond 1/16 tick
from the sample before, begins the qualification of a reference not yet qualified again (R219 gives the window and no consequence: DESIGN CHOICE,
log entry 58). -/
def State.linkPhase (s : State) (l g : Nat) : State :=
  s.each (s.refsOf l) fun i s =>
    match s.refDelay i with
    | none => s
    | some d =>
      let phi : Int := phaseUnits (s.gen l) (s.rd F.linkRxJustTxPhase l)
      let r := s.ref i
      let p := wrapPhase (phi + d - g)
      let out := match r.phase with | some x => decide (s.refWindow i < (wrapPhase (p - x)).natAbs) | none => false
      s.setRef i { r with phase := some p, since := if out && !s.refQualified i then s.tick.n else r.since }

/-- SYNC left on a link (09 Table 09-3). -/
def State.linkRefLost (s : State) (l : Nat) : State := s.each (s.refsOf l) fun i s => s.refLose i 4

/-- ROUNDTRIP references of a link whose last REPORT does not keep them (09 Table 09-3). -/
def State.reportRefs (s : State) (l : Nat) : State :=
  s.when (!s.reportOk l) fun s => s.each ((s.refsOf l).filter s.roundtrip) fun i s => s.refLose i 6

/-! ### Holdover history (09 R227, R228) -/

/-- The usable means among the 1,000 seconds that end at the last second boundary at least 4,800,000 ticks back. -/
def State.histUsable (s : State) : List Int :=
  let back := 4800000 + (s.now + 2 ^ 32 - 4800000) % 2 ^ 32 % 48000
  s.tim.hist.filterMap fun e =>
    if decide (e.1 + back ≤ s.tick.n) && decide (s.tick.n < e.1 + back + 1000 * 48000) then e.2 else none

/-- Whether the device is in HOLDOVER, or in an adoption slew out of it. -/
def State.holding (s : State) : Bool :=
  s.rd F.timStateTstate 0 = 3 || (s.rd F.timStateTstate 0 = 4 && s.rd F.timStateSelected 0 = 15 && s.tim.under = 3 && !s.tim.manual)

/-- The holdover value where HIST_VALID is 1: TIM_HOLD's in HOLDOVER, else the mean of the window that ends 100 s back where it meets the test
(09 R228). -/
def State.holdover (s : State) : Option Int :=
  if s.holding then some (s.rdS F.timHoldValue 0)
  else if 100 ≤ s.histUsable.length then some (meanOf s.histUsable) else none

/-! ### Selection (09 R221 to R223) -/

/-- Whether every two of these frequencies differ by no more than `d`. -/
def withinAll (d : Int) (l : List Int) : Bool := l.all fun a => l.all fun b => decide ((a - b).natAbs ≤ d.natAbs)

/-- The qualified references with a rank; the eligible ones (09 R221). -/
def State.ranked (s : State) : List Nat := (List.range 12).filter fun i => s.refQualified i && decide (0 < s.refRank i)
def State.eligible (s : State) : List Nat :=
  let e := s.ranked.filter fun i => !s.flag F.timRefStateRestoring i
  if e.isEmpty then s.ranked else e

/-- The eligible references with the lowest rank. -/
def State.bestRefs (s : State) : List Nat :=
  let e := s.eligible
  e.filter fun i => e.all fun j => decide (s.refRank i ≤ s.refRank j)

/-- A witness of reference `x` (09 R222). -/
def State.hasWitness (s : State) (x : Nat) (d : Int) : Bool :=
  let near := fun (r : Int) => decide (2 * (r - s.refFreq x).natAbs ≤ d.natAbs)
  ((List.range 12).any fun j => j ≠ x && s.refQualified j && near (s.refFreq j)) ||
    (match s.holdover with | some v => near v | none => false)

/-- The candidates, and whether a dispute exists (09 R222). -/
def State.candidates (s : State) : List Nat × Bool :=
  let d : Int := (max 1 (s.rd F.timCfgDisagree 0) * 10000 : Nat)
  let best := s.bestRefs
  if withinAll d (best.map s.refFreq) then (best, false)
  else
    let c := best.filter fun i => s.hasWitness i d
    if c.isEmpty || !withinAll d (c.map s.refFreq) then ([], true) else (c, false)

/-- The selected reference. -/
def State.selected (s : State) : Option Nat :=
  let v := s.rd F.timStateSelected 0
  if v < 12 then some v else none

/-- MANUAL steering (09 R229). -/
def State.manual (s : State) : Bool := s.flag F.timCfgMode 0

/-- The selection of a tick edge (09 R223, R224, R229). -/
def State.choose (s : State) (cand : List Nat) (dispute : Bool) : Option Nat :=
  let cur := s.selected
  let kept := match cur with | some i => if s.refQualified i then cur else none | none => none
  if s.manual || s.tim.hold then none
  else match s.tim.forced with
    | some f => if s.refQualified f then some f else none
    | none =>
      if dispute then kept
      else if s.flag F.timCfgRevertive 0 then
        match cur with
        | some i => if cand.contains i then cur else cand.head?
        | none => cand.head?
      else match kept with | some i => some i | none => cand.head?

/-! ### The DCO (09 R213, R215, R225, R226) -/

/-- OFFSET in ppt (09 R213). -/
def State.offset (s : State) : Int := s.rdS F.timDcoOffset 0

/-- OFFSET after one tick of the ramp toward `target` (09 R226; the step of one tick rounded down: DESIGN CHOICE, log entry 31). -/
def State.ramped (s : State) (target : Int) : Int :=
  let step : Int := (s.rd F.timCfgRamp 0 * 1000000 / 48000 : Nat)
  let o := s.offset
  if o < target then min target (o + step) else max target (o - step)

/-- OFFSET written within its range, DCO_LIMIT and its counter (09 R213, R241). -/
def State.setOffset (s : State) (v : Int) : State :=
  let c := max (-500000000) (min 500000000 v)
  let s := s.wrS F.timDcoOffset 0 c
  if c = v then
    let s := s.setFlag F.timStateDcoLimit 0 false
    { s with tim := { s.tim with unclamped := bump 48000 s.tim.unclamped } }
  else
    let s := (s.setFlag F.timStateDcoLimit 0 true).count .timDcoClamp 0
    ({ s with tim := { s.tim with unclamped := 0 } }).raise A.dcoLimit 0

/-- SLOPE as ppt (09 R226). -/
def State.slopePpt (s : State) : Int := (s.rd F.timSlopeSlope 0 * 1000 : Nat)

/-- TSTATE codes of 09 Table 09-1. -/
abbrev tFreerun : Nat := 0
abbrev tAcquire : Nat := 1
abbrev tLocked : Nat := 2
abbrev tHoldover : Nat := 3
abbrev tSlewing : Nat := 4

/-- A timing state entered: register, entry counters, alarms (09 Tables 09-6, 09-13). -/
def State.enterT (s : State) (t : Nat) : State :=
  let old := s.rd F.timStateTstate 0
  let s := s.wr F.timStateTstate 0 t
  let s := s.when (t = tHoldover && old ≠ tHoldover) (·.count .timHoldoverEntry 0)
  let s := s.when (t = tFreerun && old ≠ tFreerun) (·.count .timFreerunEntry 0)
  let s := if t = tHoldover then s.raise A.timHoldover 0 else s.clear A.timHoldover 0
  if t ≠ tFreerun then s.clear A.timFreerun 0
  else if (List.range 12).any fun i => decide (0 < s.refRank i) then s.raise A.timFreerun 0 else s

/-- The last phase sample of the selected reference, where its type gives phase. -/
def State.refPhase (s : State) (i : Nat) : Option Int := if givesPhase (s.refType i) then some ((s.ref i).phase.getD 0) else none

/-- Whether the output is within SLOPE of a reference's frequency. -/
def State.nearRef (s : State) (i : Nat) : Bool := decide ((s.offset - s.refFreq i).natAbs ≤ s.slopePpt.natAbs)

/-- The state that a selection of reference `i` enters (09 Table 09-1). -/
def State.stateFor (s : State) (i : Nat) : Nat :=
  if !s.nearRef i then tAcquire
  else match s.refPhase i with
    | none => tLocked
    | some p => if p.natAbs ≤ 2400 then tLocked else tSlewing

/-- The state after an edge with reference `i` still selected (09 Table 09-1). -/
def State.stateNext (s : State) (i : Nat) : Nat :=
  let st := s.rd F.timStateTstate 0
  if st = tAcquire then s.stateFor i
  else match s.refPhase i with
    | none => tLocked
    | some p =>
      if st = tLocked then (if 24000 < p.natAbs then tSlewing else tLocked)
      else if p.natAbs ≤ 2400 then tLocked else tSlewing

/-- FREERUN or HOLDOVER entered with nothing selected. -/
def State.enterIdle (s : State) (t : Nat) : State := ({ s with tim := { s.tim with under := t, slew := 0 } }).enterT t

/-- Loss of selection: HOLDOVER with valid history, else FREERUN (09 R228); no slew is carried over (R226). -/
def State.loseSelection (s : State) : State :=
  let h := s.histUsable
  if 100 ≤ h.length then
    ((s.wrS F.timHoldValue 0 (meanOf h)).wr F.timHoldSecs 0 h.length).enterIdle tHoldover
  else s.enterIdle tFreerun

/-- The loop begun at a change of selection: at the reference's frequency, with nothing of the slew before (09 R226). -/
def State.loopRestart (s : State) (sel : Option Nat) : State :=
  { s with tim := { s.tim with slew := 0, integ := match sel with | some i => s.refFreq i * 2 ^ 66 | none => 0 } }

/-- A frequency held within SLOPE of reference `i`'s (09 R226). -/
def State.withinSlope (s : State) (i : Nat) (v : Int) : Int := max (s.refFreq i - s.slopePpt) (min (s.refFreq i + s.slopePpt) v)

/-- One tick of the proportional-integral loop under reference `i`: damping 1 makes the integral gain a quarter of the square of the proportional
gain, which its bandwidth sets (09 R225). A FREQ reference steers the frequency alone. The integral stands while the slope limit holds the output
(R226). The spec gives no gain for a bandwidth (a free value, log entries 3 and 58). -/
def State.loopStep (s : State) (i : Nat) : State :=
  let g : Int := Config.loopGain (s.refBw i)
  match s.refPhase i with
  | some p =>
    let want := (p * g * 2000000 * 2 ^ 34 + s.tim.integ) / 2 ^ 66
    let v := s.withinSlope i want
    let s := s.when (v = want) fun s => { s with tim := { s.tim with integ := s.tim.integ + p * g * g * 2000000 } }
    s.setOffset v
  | none =>
    let s := { s with tim := { s.tim with integ := s.tim.integ + (s.refFreq i * 2 ^ 66 - s.tim.integ) * g / 2 ^ 32 } }
    s.setOffset (s.withinSlope i (s.tim.integ / 2 ^ 66))

/-- One tick of the adoption slew about frequency `base`: psi is removed at ADOPT_SLOPE (09 R237). -/
def State.slewStep (s : State) (base : Int) : State :=
  let a : Int := s.rd F.timSlopeAdoptSlope 0
  let left := s.tim.slew
  let d := max (-a) (min a left)
  ({ s with tim := { s.tim with slew := left - d } }).setOffset (base + d * 1000)

/-- The frequency that OFFSET goes to with nothing selected: TIM_DCO's, or the holdover value (09 Table 09-1, R229). -/
def State.idleTarget (s : State) : Int := if !s.manual && s.tim.under = tHoldover then s.rdS F.timHoldValue 0 else s.tim.target

/-- The tick's OFFSET in the state entered at its edge. An adoption slew runs about the selected reference's frequency, or about the one held (in
MANUAL the host's: DESIGN CHOICE, log entry 58). -/
def State.dcoStep (s : State) : State :=
  match s.selected with
  | some i =>
    if s.tim.slew ≠ 0 then s.slewStep (s.refFreq i)
    else if s.rd F.timStateTstate 0 = tAcquire then
      ({ s with tim := { s.tim with integ := s.refFreq i * 2 ^ 66 } }).setOffset (s.ramped (s.refFreq i))
    else s.loopStep i
  | none => if s.tim.slew ≠ 0 then s.slewStep s.idleTarget else s.setOffset (s.ramped s.idleTarget)

/-- A command taken at the edge after its write (09 R224). -/
def State.timCommandDo (s : State) (op ref : Nat) : State :=
  let t := s.tim
  let t := match op with
    | 0 => { t with forced := none, hold := false }
    | 1 => { t with forced := some ref, hold := false }
    | 2 => { t with forced := none, hold := true }
    | _ => { t with adoptCmd := true }
  let s := { s with tim := t }
  let s := s.when (op = 2 && s.selected.isNone && !s.manual) (·.loseSelection)
  let f := t.forced.isSome || t.hold
  (s.setFlag F.timStateForced 0 f).setAlarm A.timForced 0 f

/-- The commands written in the tick that has ended, in order. -/
def State.timCommand (s : State) : State :=
  let cmds := s.tim.cmd
  let s := { s with tim := { s.tim with cmd := [] } }
  s.each cmds fun c s => s.timCommandDo c.1 c.2

/-- DISPUTE and its alarm: cleared after two consecutive edges without (09 R222, R241). -/
def State.disputeSync (s : State) (dispute : Bool) (best : List Nat) : State :=
  let s := s.eachN 12 fun i s => s.setFlag F.timRefStateDisputed i (dispute && best.contains i)
  if dispute then
    let s := { s with tim := { s.tim with agreed := 0 } }
    ((s.count .timDisputes 0).setFlag F.timStateDispute 0 true).raise A.refDispute 0
  else
    let s := { s with tim := { s.tim with agreed := bump 2 s.tim.agreed } }
    if 2 ≤ s.tim.agreed then (s.setFlag F.timStateDispute 0 false).clear A.refDispute 0 else s

/-- One output's position moved toward its OFFSET at no more than SLOPE (09 R232). -/
def State.outStep (s : State) (k : Nat) : State :=
  let want := s.rdS F.timOutCfgOffset k * 12000
  let p := Tbl.get 0 s.tim.outPos k
  let d : Int := s.rd F.timSlopeSlope 0
  let p' := if p < want then min want (p + d) else max want (p - d)
  { s with tim := { s.tim with outPos := Tbl.set 0 s.tim.outPos k p' } }

/-- The second in progress left: another begins. -/
def State.secondBegin (s : State) : State :=
  let s := { s with tim := { s.tim with secSum := 0, secTicks := 0, secUsable := true } }
  s.eachN 12 fun i s => s.setRef i { s.ref i with used := false, dqSecond := false }

/-- A second ended at the tick edge that begins a tick whose number is divisible by 48,000: its mean where it is usable; none is kept of one that ends
in HOLDOVER (09 R227, R228). -/
def State.secondEnd (s : State) : State :=
  let t := s.tim
  let clean := t.refs.all fun e => !(e.2.used && e.2.dqSecond)
  let mean := if t.secUsable && clean then some (rhuDiv t.secSum 48000) else none
  let keep := t.secTicks = 48000 && s.rd F.timStateTstate 0 ≠ tHoldover
  ({ s with tim := { t with secDone := if keep then some (s.tick.n, mean) else t.secDone } }).secondBegin

/-- The second in progress takes the tick that begins (09 R227). -/
def State.secondTick (s : State) : State :=
  let st := s.rd F.timStateTstate 0
  let ok := (s.manual && s.flag F.timDcoHostLocked 0) || (!s.manual && (st = tLocked || st = tSlewing) && s.selected.isSome)
  let s := match s.selected with | some i => s.setRef i { s.ref i with used := true } | none => s
  let t := s.tim
  { s with tim := { t with secSum := t.secSum + s.offset, secTicks := t.secTicks + 1, secUsable := t.secUsable && ok } }

/-- The timing state of a tick edge where the selection, or MANUAL, has `changed` and `sel` is selected: an adoption slew beyond 100 ns shows
LOCKED-SLEWING (09 Table 09-1, R229, R237). -/
def State.timState (s : State) (changed : Bool) (sel : Option Nat) : State :=
  let slews := decide (2400 * 2000 < s.tim.slew.natAbs)
  if s.manual then s.enterT (if slews then tSlewing else if s.flag F.timDcoHostLocked 0 then tLocked else tFreerun)
  else match sel with
    | some i => s.enterT (if slews then tSlewing else if changed then s.stateFor i else s.stateNext i)
    | none => if changed then s.loseSelection else s.enterT (if slews then tSlewing else s.tim.under)

/-- The timing block at a tick edge: commands, links' references, selection, state, OFFSET, outputs (09 R213 to R232). -/
def State.timEdge (s : State) (linkFreq : List (Nat × Int)) : State :=
  let s := (s.when (decide (s.now % 48000 = 0)) (·.secondEnd)).timCommand
  let s := s.each linkFreq fun x s => if s.refType x.1 = refLink && decide (8 ≤ x.1) then s.refFreqTake x.1 x.2 else s
  let s := s.each [8, 9, 10, 11] fun i s => s.when (s.roundtrip i) (·.reportRefs (s.refLinkOf i))
  let s := s.each [8, 9, 10, 11] fun i s =>
    if s.refType i = refLink && !s.inSync (s.refLinkOf i) then s.setRef i { s.ref i with since := s.tick.n } else s
  let (cand, dispute) := if s.manual then ([], false) else s.candidates
  let s := s.disputeSync dispute s.bestRefs
  let old := s.selected
  let sel := s.choose cand dispute
  let s := s.wr F.timStateSelected 0 (sel.getD 15)
  let changed := decide (sel ≠ old) || s.manual != s.tim.manual
  let s := (s.when (decide (sel ≠ old)) (·.count .timSwitches 0)).when changed (·.loopRestart sel)
  let s := { s with tim := { s.tim with manual := s.manual } }
  let s := s.wrS F.timPhasePhaseErr 0 (match sel with | some i => (s.refPhase i).getD 0 | none => 0)
  let s := ((s.timState changed sel).dcoStep).secondTick
  let s := s.setFlag F.timStateHistValid 0 s.holdover.isSome
  s.eachN 8 fun k s => s.outStep k

/-! ### Exchanges (09 R233 to R236) -/

/-- A timing message accepted on a link in a frame whose JUSTIFY carries TX_PHASE `txPhase` (09 R234, R235). -/
def State.timingMessage (s : State) (l stamp g txPhase : Nat) (body : List Byte) : State :=
  if 128 ≤ l then s else
  let phi := phaseUnits (s.gen l) txPhase
  s.setExch l { s.exch l with inbox := some ⟨stamp, body, g, phi, s.now⟩ }

/-- ADOPT_LINK where adoption is enabled. -/
def State.adoptLink (s : State) : Option Nat :=
  if s.flag F.timAdoptCfgEn 0 then some (s.rd F.timAdoptCfgAdoptLink 0) else none

/-- Whether exchanges run on a link: ADOPT_LINK's, or those of a ROUNDTRIP reference (09 R237). -/
def State.exchanges (s : State) (l : Nat) : Bool := s.adoptLink = some l || (s.refsOf l).any fun i => s.roundtrip i

/-- The probe's bytes (09 Table 09-5). -/
def probeBytes (id : Nat) : List Byte := [0x01, BitVec.ofNat 8 id, 0, 0]

/-- The REPORT's bytes for a probe `id` accepted in the frame stamped `a`, at `f` units after local edge `b` (09 Table 09-5). -/
def State.reportBytes (s : State) (id a b f : Nat) : List Byte :=
  [0x02, BitVec.ofNat 8 id, 0, 0] ++ toBytes 4 a ++ toBytes 4 b ++ toBytes 4 f ++
    [BitVec.ofNat 8 (b2n s.numbered + 2 * s.rd F.timStateTstate 0), BitVec.ofNat 8 (s.rd F.timStateHops 0), 0, 0]

/-- The timing message a frame of egress link `l` carries in place of the host content: a REPORT, else a PROBE (09 R234, R235). -/
def State.timingOut (s : State) (l : Nat) : Option (List Byte) :=
  let x := s.exch l
  if 0 < x.left then some x.report
  else if x.since.isSome then some (probeBytes x.id) else none

/-- A frame stamped `stamp` sent with TX_PHASE `phi` units and the timing message above in it. -/
def State.timingSent (s : State) (l stamp phi : Nat) : State :=
  let x := s.exch l
  if 0 < x.left then s.setExch l { x with left := x.left - 1 }
  else if x.since.isSome then s.setExch l { x with phis := (stamp, phi) :: x.phis.filter (·.1 ≠ stamp) } else s

/-- The result of an exchange (09 R236): d, num, psi. -/
def exchangeResult (a2 a b n : Nat) (g phiA phiN f asym : Int) : Int × Nat × Int :=
  let u := unitsPerTick
  let rtt := tdiff a a2 * u + (g - phiA) - (tdiff b n * u + (phiN - f))
  let d := rhuDiv (rtt - 6 * asym) 2
  let k : Int := ((n + 2 ^ 32 - a2) % 2 ^ 32 : Nat)
  let e := phiN + d - g
  let m := rhuDiv e u
  (d, unsigned 32 (k + m), e - u * m)

/-- Runs of results on ADOPT_LINK after adoption; a phase beyond the limit while the adoption slew runs begins no run (09 R239). -/
def State.adoptCheck (s : State) (num : Nat) (psi : Int) : State :=
  let t := s.tim
  let bad := decide (num ≠ 0)
  let s := { s with tim := { t with numBad := if bad then bump 2 t.numBad else 0, numOk := if bad then 0 else bump 2 t.numOk } }
  let s := if bad && decide (2 ≤ s.tim.numBad) then (s.setFlag F.timStateMismatch 0 true).raise A.tickNumberMismatch 0
    else if !bad && decide (2 ≤ s.tim.numOk) then (s.setFlag F.timStateMismatch 0 false).clear A.tickNumberMismatch 0 else s
  let lim := s.rd F.timAdoptCfgSkewLimit 0 * 2400
  let far := decide (0 < lim) && decide (lim < psi.natAbs)
  let skew := far && decide (s.tim.slew = 0)
  let t := s.tim
  let s := { s with tim := { t with skewBad := if skew then bump 2 t.skewBad else 0, skewOk := if far then 0 else bump 2 t.skewOk } }
  if skew && decide (2 ≤ s.tim.skewBad) then (s.setFlag F.timStateSkew 0 true).raise A.tickSkew 0
  else if decide (2 ≤ s.tim.skewOk) then (s.setFlag F.timStateSkew 0 false).clear A.tickSkew 0 else s

/-- The device's HOPS after a report of `hops` on ADOPT_LINK: an origin keeps 0 (09 R237, R238). -/
def State.setHops (s : State) (hops : Nat) : State :=
  s.wr F.timStateHops 0 (if s.flag F.timAdoptCfgOrigin 0 then 0 else hops + 1)

/-- A successful exchange on ADOPT_LINK (09 R237, R239). -/
def State.adoptResult (s : State) (num : Nat) (psi : Int) (numbered : Bool) (hops : Nat) : State :=
  let may := numbered && decide (hops < 62)
  if may && (!s.numbered || s.tim.adoptCmd) then
    { s with tim := { s.tim with adoptCmd := false, adopt := some ⟨num, psi, hops, s.tick.n⟩ } }
  else
    let s := { s with tim := { s.tim with adoptCmd := false } }
    if s.numbered then ((s.setHops hops).adoptCheck num psi) else s

/-- NUMBERED set, its alarm cleared (09 R241). -/
def State.setNumbered (s : State) : State := (s.setFlag F.timStateNumbered 0 true).clear A.tickUnnumbered 0

/-- The tick number moved by `num`: the second and the SD window in progress are not kept (09 R227, R237; 05 R111). -/
def State.renumber (s : State) (num : Nat) : State :=
  let s := s.wr F.timTickTick 0 (s.now + num)
  if num = 0 then s else (s.secondBegin.secondTick).sdWindowCut

/-- Whether an adoption slews psi: no phase reference is selected, or it is ADOPT_LINK's own (09 R237). -/
def State.adoptSlews (s : State) : Bool :=
  match s.selected with
  | none => true
  | some i => !givesPhase (s.refType i) || (s.refType i = refLink && s.adoptLink = some (s.refLinkOf i))

end Sys2Proof.Machine
end

