-- ==== Sys2Proof/Machine/Almanac.lean ====
section
/-! DEFINITION. The almanac library, staging, arming and the audit as operations (08). -/

namespace Sys2Proof.Machine

/-! ### Library slots (08 R191, R192) -/

/-- SSTATE codes of 08 Table 08-5. -/
abbrev slotEmpty : Nat := 0
abbrev slotChecking : Nat := 1
abbrev slotAccepted : Nat := 2
abbrev slotRejected : Nat := 3
abbrev slotActive : Nat := 4
abbrev slotLost : Nat := 5

def State.slotState (s : State) (i : Nat) : Nat := s.rd F.almSlotStatusSstate i
def State.setSlot (s : State) (i st : Nat) : State := s.wr F.almSlotStatusSstate i st

/-- ESTATE and SHADOW codes of 08 Tables 08-8 and 08-10. -/
abbrev eIdle : Nat := 0
abbrev eArmed : Nat := 1
abbrev eCommitted : Nat := 2
abbrev eSwapping : Nat := 3
abbrev shEmpty : Nat := 0
abbrev shStaging : Nat := 1
abbrev shStaged : Nat := 2
abbrev shStale : Nat := 3
abbrev shFailed : Nat := 4

def State.estate (s : State) : Nat := s.rd F.almStateEstate 0
def State.shadow (s : State) : Nat := s.rd F.almStateShadow 0

/-- Whether slot `i` is the source of a shadow in STAGING or STAGED. -/
def State.shadowSource (s : State) (i : Nat) : Bool :=
  (s.shadow = shStaging || s.shadow = shStaged) && decide (s.rd F.almStateShadowSlot 0 = i)

/-- Why a write into a library slot is refused (08 R192; 12 R332). -/
def State.slotWriteRefused (s : State) (i : Nat) : Option ErrCause :=
  let st := s.slotState i
  if st = slotLost then some .unavailable
  else if st = slotChecking || st = slotActive || s.shadowSource i then some .value
  else none

/-- A slot that has been written: EMPTY, WRITTEN, REASON and DETAIL at 0 (08 R192). -/
def State.slotWritten (s : State) (i : Nat) : State :=
  s.setWord .almSlotStatus i (BitVec.ofNat 64 (slotEmpty + 8))

/-- The slot a control-bus address lies in. -/
def slotAt (a : Nat) : Option Nat := (List.range 16).find? fun i => decide (slotBase i ≤ a) && decide (a < slotBase i + 0x8000000)

/-! ### CHECK (08 R193) -/

/-- Whether a CHECK of a slot gets an error response. -/
def State.checkRefused (s : State) (i : Nat) : Bool :=
  let st := s.slotState i
  s.flag F.almStateCheckBusy 0 || st = slotChecking || st = slotActive || st = slotLost ||
    (st = slotEmpty && !s.flag F.almSlotStatusWritten i)

/-- A CHECK begun. -/
def State.checkStart (s : State) (i : Nat) : State :=
  let s := (s.setSlot i slotChecking).setFlag F.almStateCheckBusy 0 true
  { s with alm := { s.alm with checking := some (i, s.tick.n) } }

/-- A CHECK ended; `readUe` the section whose library read met an uncorrectable error (11 Table 11-4).  A slot whose stack was lost meanwhile stays
LOST. -/
def State.checkEnd (s : State) (readUe : Option Nat) : State :=
  match s.alm.checking with
  | none => s
  | some (i, _) =>
    let s := ({ s with alm := { s.alm with checking := none } }).setFlag F.almStateCheckBusy 0 false
    if s.slotState i ≠ slotChecking then s else
    let s := s.when readUe.isSome (·.libraryUncorrected i)
    let r := match readUe with
      | some ty => (s.checkHeader i).orElse fun _ => some (3, ty)
      | none => s.loadCheck i
    match r with
    | none => ((s.setSlot i slotAccepted).wr F.almSlotStatusReason i 0).wr F.almSlotStatusDetail i 0
    | some (reason, detail) =>
      (((s.setSlot i slotRejected).wr F.almSlotStatusReason i reason).wr F.almSlotStatusDetail i detail).count .almCheckReject 0

/-! ### STAGE (08 R194, R195) -/

/-- Whether a STAGE of a slot gets an error response. -/
def State.stageRefused (s : State) (i : Nat) : Bool :=
  s.estate ≠ eIdle || s.shadow = shStaging || s.slotState i ≠ slotAccepted

/-- A staging begun. -/
def State.stageStart (s : State) (i : Nat) (chain : Bool) : State :=
  let s := (s.wr F.almStateShadow 0 shStaging).wr F.almStateShadowSlot 0 i
  { s with alm := { s.alm with staging := some s.tick.n, chain := chain } }

/-- A staging that ended FAILED. -/
def State.stageFail (s : State) : State :=
  ({ s with alm := { s.alm with staging := none, chain := false } }.wr F.almStateShadow 0 shFailed).count .almStageFail 0

/-- The shadow tables filled from slot `i`: every word written anew (08 R194). -/
def State.fillShadow (s : State) (i : Nat) : State :=
  let c := { s.core with
    emitShadow := s.imageEmit i, termShadow := s.imageTerms i, upShadow := s.imageConv i, coefShadow := s.imageCoef i }
  let s := { s with core := c, alm := { s.alm with shadow := s.image i } }
  let dirty := (s.ecc.damage.map (·.1) ++ s.ecc.persist ++ (List.range 64).map fun n => s.rd F.eccTrackAddr n).filter s.shadowTable
  s.each dirty.eraseDups fun a s => s.fullWrite a

/-- The end of a staging: section CRCs and digests recomputed (08 R194); a chained one is judged as an ARM would be (08 R202). -/
def State.stageEnd (s : State) (readUe : Bool) : State :=
  if s.alm.staging.isNone then s else
  let i := s.rd F.almStateShadowSlot 0
  let s := s.when readUe (·.libraryUncorrected i)
  if readUe || (s.checkSections i).isSome || (s.checkDigests i (s.image i)).isSome then s.stageFail
  else
    let chained := s.alm.chain
    let s := s.fillShadow i
    let s := { s with alm := { s.alm with staging := none, chain := false } }
    let h := s.alm.shadow.head
    let lead := tdiff s.now (s.rd F.almArmedArmedTick 0)
    let bad := decide (2 ^ 30 < lead) || (h.pred != 0 && h.pred != s.word .almActiveSetid 0) ||
      decide (tdiff (s.rd F.almActiveInfoEpoch 0) h.epoch.toNat ≤ 0)
    if chained && bad then s.stageFail else s.wr F.almStateShadow 0 shStaged

/-- Stack `k` lost: its slots are LOST; a staging from it fails (08 R192, R194). -/
def State.almStackLost (s : State) (k : Nat) : State :=
  let s := s.each [4 * k, 4 * k + 1, 4 * k + 2, 4 * k + 3] fun i s => s.setSlot i slotLost
  if s.shadow = shStaging && s.rd F.almStateShadowSlot 0 / 4 = k then s.stageFail else s

/-- Stack `k` restored: its slots are EMPTY and not written (08 R192). -/
def State.almStackRestored (s : State) (k : Nat) : State :=
  s.each [4 * k, 4 * k + 1, 4 * k + 2, 4 * k + 3] fun i s => s.setWord .almSlotStatus i 0

/-! ### Arming (08 R198, R202, R203; 10 R270; 13 R345) -/

/-- A slot of the mate's last usable M0 frame (10 Table 10-1). -/
def State.mateSlot (s : State) (n : Nat) : Nat := field (Tbl.get 0 s.mate.view (n / 2)).toNat (32 * (n % 2)) 32

/-- The staged SETID and HEADER_CRC as this unit announces them; 0 where the shadow is not STAGED (10 Table 10-1). -/
def State.stagedIdent (s : State) : Nat × Nat :=
  if s.shadow = shStaged then (s.alm.shadow.head.setid.toNat, s.alm.shadow.head.headerCrc.toNat) else (0, 0)

/-- Whether the shadow counts as STAGED for a command: for a `mirrored` one the mate's must be the same (10 R270). -/
def State.stagedForArm (s : State) (mirrored : Bool) : Bool :=
  s.shadow = shStaged &&
    (!mirrored || s.stagedIdent = (s.mateSlot 5 + s.mateSlot 6 * 2 ^ 32, s.mateSlot 7))

/-- ESTATE ARMED for tick `t` with epoch `e`. -/
def State.arm (s : State) (t e : Nat) (chained : Bool) : State :=
  let s := (s.wr F.almStateEstate 0 eArmed).setFlag F.almStateChained 0 chained
  (s.wr F.almArmedArmedTick 0 t).wr F.almArmedArmedEpoch 0 e

/-- ESTATE IDLE with nothing armed. -/
def State.disarm (s : State) : State :=
  let s := (s.wr F.almStateEstate 0 eIdle).setFlag F.almStateChained 0 false
  ({ s with alm := { s.alm with chain := false } }.setWord .almArmed 0 0).armIdle

/-- RESULT of an ARM for tick `t` (08 R198, Table 08-12; 13 R345): the first reason in the table's order. -/
def State.armResult (s : State) (mirrored : Bool) (t : Nat) : Nat :=
  let lead := tdiff s.now t
  let h := s.alm.shadow.head
  let first := !s.flag F.almStateActiveValid 0
  if !first && !s.numbered then 8
  else if !s.stagedForArm mirrored then 2
  else if lead < 4801 then 3
  else if 2 ^ 30 < lead then 4
  else if !first && h.pred != 0 && h.pred != s.word .almActiveSetid 0 then 5
  else if !first && decide (tdiff (s.rd F.almActiveInfoEpoch 0) h.epoch.toNat ≤ 0) then 6
  else if s.estate = eCommitted || s.estate = eSwapping then 7
  else 1

/-- An ARM judged now. -/
def State.armDo (s : State) (mirrored : Bool) : State :=
  let t := s.rd F.almArmTick 0
  let r := s.armResult mirrored t
  let s := s.wr F.almArmCmdResult 0 r
  if r = 1 then s.arm t s.alm.shadow.head.epoch.toNat false else s

/-- A DISARM judged now. -/
def State.disarmDo (s : State) : State :=
  if s.estate = eArmed then (s.wr F.almArmCmdResult 0 1).disarm else s.wr F.almArmCmdResult 0 8

/-- Whether REJOIN's conditions hold (08 R203; 13 R345). -/
def State.rejoinOk (s : State) (mirrored : Bool) : Bool :=
  let inDiscord := (List.range 128).filter fun l => s.flag F.linkStateDiscord l
  s.numbered && s.estate = eIdle && s.stagedForArm mirrored && inDiscord.any s.deviceFacing &&
    inDiscord.all fun l => s.rd F.linkIdentRxSetidSetid l = s.alm.shadow.head.setid.toNat

/-- A REJOIN judged now. -/
def State.rejoinDo (s : State) (mirrored : Bool) : State :=
  if s.rejoinOk mirrored then
    (s.wr F.almArmCmdResult 0 1).arm (tadd s.now 4801) s.alm.shadow.head.epoch.toNat false
  else s.wr F.almArmCmdResult 0 8

/-! ### Trims (08 R205 to R207) -/

/-- ALM_TRIM_CMD as it keeps a written word: GAIN, INDEX and KIND; GO and the reserved bits read 0 (08 Table 08-13; 00 R6). -/
def trimWord (v : Nat) : Word := BitVec.ofNat 64 (Reg.stored .almTrimCmd 0 (v % 2 ^ 63))

/-- A trim queued for tick `u`, or refused with EPOCH_BUSY (08 R207). -/
def State.trimQueue (s : State) (v : Nat) (u : Nat) : State :=
  let s := s.setWord .almTrimCmd 0 (trimWord v)
  if s.estate = eCommitted || s.estate = eSwapping then s.trimResult 4
  else
    let t : Trim := ⟨bit v 48, field v 24 21, field v 0 12, BitVec.ofNat 32 u⟩
    let s := { s with alm := { s.alm with trims := s.alm.trims ++ [t] } }
    s.wr F.almTrimStatusQueue 0 s.alm.trims.length

/-! ### The swap's tables (08 R200; 07 R181; 06 R125) -/

/-- The converters whose configuration differs between the halves. -/
def State.changedUps (s : State) : List Nat :=
  (((s.core.upCfg ++ s.core.upShadow).map (·.1)).eraseDups).filter fun i => Tbl.get 0 s.core.upCfg i ≠ Tbl.get 0 s.core.upShadow i

/-- At e: up-converter configuration and coefficients; a changed converter starts from a cleared history (07 R181). -/
def State.swapUps (s : State) : State :=
  let s := s.each s.changedUps fun i s => s.recordFresh (upAddr i) 6
  let up := s.changedUps.foldl (fun t i => Tbl.erase i t) s.core.up
  let s := { s with core := { s.core with
    up := up, upCfg := s.core.upShadow, upShadow := s.core.upCfg, coefUp := s.core.coefShadow } }
  let tracked := if s.tracking then (List.range 64).map fun n => s.rd F.eccTrackAddr n else []
  let words := (s.ecc.damage.map (·.1) ++ s.ecc.persist ++ s.ecc.restores.map (·.1) ++ tracked).filter fun a =>
    eccMem a = 5 && (eccBank a = 24 || eccBank a = 25)
  s.each words.eraseDups fun a s => s.fullWrite a

/-- At e + 1: the sum halves (06 R125). -/
def State.swapSums (s : State) : State :=
  let c := s.core
  ({ s with core := { c with terms := c.termShadow, termShadow := c.terms, sumHalf := !c.sumHalf, termEdits := [] } }).loadCounts
    s.alm.active.regs

/-- The legacy entries of a link in slot order, as (slot, OFMT): the j-th is served by converter 128 l + j (07 R176). -/
def legacyOf (emit : Tbl (BitVec 80)) (l : Nat) : List (Nat × Nat) :=
  (emit.filter fun e => decide (e.1 / 16384 = l) && legacyFmt (entryOfmt e.2.toNat)).map fun e => (e.1 % 16384, entryOfmt e.2.toNat)

/-- The bridges as PROT_BRIDGE_CFG has them. -/
def State.bridgeWords (s : State) : Tbl Word :=
  (List.range 64).filterMap fun b => if s.word .protBridgeCfg b = 0 then none else some (b, s.word .protBridgeCfg b)

/-- Whether a bridge of `bridges` makes link `l` a COPY_LINK: it then uses no converters (07 R176). -/
def copiedIn (bridges : Tbl Word) (l : Nat) : Bool := bridges.any fun e => bit e.2.toNat 16 && field e.2.toNat 8 7 = l

/-- At e + 2: the emit halves; a down-converter that serves another entry or format is cleared (07 R181), COPY_LINKs by the bridges that come into
force. -/
def State.swapEmit (s : State) : State :=
  let c := s.core
  let serves := fun (bridges : Tbl Word) (emit : Tbl (BitVec 80)) (i : Nat) =>
    if copiedIn bridges (i / 128) then none else (legacyOf emit (i / 128))[i % 128]?
  let changed := fun (i : Nat) => serves s.prot.bridges c.emit i ≠ serves s.bridgeWords c.emitShadow i
  let down := c.down.filter fun e => !changed e.1
  { s with core := { c with
    emit := c.emitShadow, emitShadow := c.emit, emitHalf := !c.emitHalf, emitEdits := [], down := down
    coefDown := c.coefShadow, coefShadow := c.coefDown } }

/-- The bridges' legs that send and receive messages brought up to their registers (05 R118, R120; 08 Table 08-9). -/
def State.legSync (s : State) : State := { s with prot := { s.prot with legs := s.bridgeWords } }

/-- CORE_STATION_DIS and STATION_DISABLED: the failed stations, and the COPY_LINK of an enabled bridge whose SRC_LINK's station failed (06 R143). -/
def State.stationSync (s : State) : State :=
  if s.core.failedStation.isEmpty then s else
  let failed := fun k => Tbl.get false s.core.failedStation k
  let copies := (List.range 64).filterMap fun b =>
    if s.flag F.protBridgeCfgEn b && failed (s.rd F.protBridgeCfgSrcLink b) then some (s.rd F.protBridgeCfgCopyLink b) else none
  s.eachN 128 fun k s =>
    let d := failed k || copies.contains k
    (s.wrBit F.coreStationDisDis (k / 64) (k % 64) d).setAlarm A.stationDisabled k d

/-! ### The audit (08 R210) -/

/-- The regions that a damaged word lies in. -/
def regionOf (a : Nat) : Option Nat :=
  match eccMem a with
  | 0 => some (eccBank a / 2) | 1 => some (128 + eccBank a / 4) | 5 => some 192 | _ => none

/-- The active table word at SRAM address `a` as held. -/
def State.auditHeld (s : State) (a : Nat) : Nat :=
  let k := eccBank a
  let w := eccWord a
  let j := 4 * w + k % 2
  match eccMem a with
  | 0 => s.winHeld (.emit false (16384 * (k / 2) + w))
  | 1 => s.winHeld (.term false (32768 * (k / 4) + 2 * w + k / 2 % 2))
  | _ => s.winHeld (.up j) + s.winHeld (.up (j + 2)) * 2 ^ 32

/-- The damaged words of the active tables as the audit reads them: (address, data), and the regions with an uncorrectable read. -/
def State.auditReads (s : State) : List (Nat × Nat) × List Nat × State :=
  let dirty := s.marred.filter s.activeTable
  dirty.foldl (fun (acc : List (Nat × Nat) × List Nat × State) a =>
    match acc.2.2.sramRead a false (acc.2.2.auditHeld a) false with
    | (.data d, s) => (acc.1 ++ [(a, d)], acc.2.1, s)
    | (_, s) => (acc.1, acc.2.1 ++ (regionOf a).toList, s)) ([], [], s)

/-- A register record as the audit reads it back: its value while the register still holds what the record loaded, else the register. -/
def State.auditReg (s : State) (x : Nat × Word) : List Byte :=
  let v := match regAt x.1 with
    | some (r, i) => if s.word r i = BitVec.ofNat 64 (r.stored r.reset.toNat x.2.toNat) then x.2 else s.word r i
    | none => x.2
  toBytes 8 x.1 ++ toBytes 8 v.toNat

/-- A region's digest over the active content, `ds` what damaged words read as. -/
def State.activeDigest (s : State) (ds : List (Nat × Nat)) (r : Nat) : BitVec 32 :=
  let edited := fun (p : WinPlace) (v : Nat) =>
    match s.winAddr p with | some a => (match ds.lookup a with | some d => d | none => v) | none => v
  let conv := fun (i : Nat) =>
    let j := i / 4 * 4 + i % 2
    let w := s.winHeld (.up j) + s.winHeld (.up (j + 2)) * 2 ^ 32
    field (edited (.up i) w) (32 * (i % 4 / 2)) 32
  let a := s.alm.active
  digestOf (fun x => edited (.emit false x) (s.winHeld (.emit false x))) (fun x => edited (.term false x) (s.winHeld (.term false x)))
    conv (coefWord s.core.coefUp) a.wiringBytes (a.regs.flatMap s.auditReg) r

/-- A region found different (08 R210). -/
def State.auditMismatch (s : State) (r : Nat) : State :=
  let s := (s.raise A.almanacAudit 0).count .almAuditMismatch 0
  if s.flag F.almAuditStatusHeld 0 then s else (s.wr F.almAuditStatusRegion 0 r).setFlag F.almAuditStatusHeld 0 true

/-- The audit's pass ended: judged, then a new one begun (08 R210). -/
def State.auditEnd (s : State) : State :=
  let (ds, skip, s) := s.auditReads
  let bad := (List.range 194).filter fun r => !skip.contains r && decide (s.activeDigest ds r ≠ Tbl.get 0 s.alm.active.digests r)
  let s := s.each bad fun r s => s.auditMismatch r
  let s := (s.setFlag F.almStateAuditClean 0 bad.isEmpty).count .almAuditPasses 0
  let s := if bad.isEmpty && skip.isEmpty then s.clear A.almanacAudit 0 else s
  { s with alm := { s.alm with auditSince := some s.tick.n } }

/-- A pass begun where the audit runs: enabled, an almanac active, no swap under way; `on` says that its function is ON (08 R210, 13 R350). -/
def State.auditBegin (s : State) (on : Bool) : State :=
  let run := on && s.flag F.almAuditCtrlEn 0 && s.flag F.almStateActiveValid 0 && s.estate ≠ eSwapping
  { s with alm := { s.alm with auditSince := if run then some s.tick.n else none } }

end Sys2Proof.Machine
end

