-- ==== Sys2Proof/Machine/Groups.lean ====
section
/-! DEFINITION. The commands of hitless protection (05). -/

namespace Sys2Proof.Machine

/-! ### Commands (05 R113 to R115) -/

/-- Whether the epoch committed for the next tick edge changes a group's links or EN (05 R114). -/
def State.epochChanges (s : State) (g : Nat) : Bool :=
  let v := s.alm.shadow.loaded .protGroupCfg g
  let h := s.group g
  s.estate = eCommitted && decide (s.rd F.almArmedArmedTick 0 = (s.now + 1) % 2 ^ 32) &&
    (decide (field v 0 7 ≠ h.pLink) || decide (field v 8 7 ≠ h.sLink) || (bit v 16 != h.en))

/-- A command write of a master. -/
def State.groupCmd (s : State) (m : Master) (g cmd : Nat) : State := s.protCommand m g cmd (s.epochChanges g)

/-- PROT_CMD_CLEAR (05 R113). -/
def execProtCmdClear (m : Master) (g : GroupId) (s : State) : Res := .next <| s.byReg m .protGroupCmd g 8 true fun s => s.groupCmd m g 0

/-- PROT_CMD_MANUAL_P (05 R113). -/
def execProtCmdManualP (m : Master) (g : GroupId) (s : State) : Res := .next <| s.byReg m .protGroupCmd g 8 true fun s => s.groupCmd m g 1

/-- PROT_CMD_MANUAL_S (05 R113). -/
def execProtCmdManualS (m : Master) (g : GroupId) (s : State) : Res := .next <| s.byReg m .protGroupCmd g 8 true fun s => s.groupCmd m g 2

/-- PROT_CMD_FORCE_P (05 R113). -/
def execProtCmdForceP (m : Master) (g : GroupId) (s : State) : Res := .next <| s.byReg m .protGroupCmd g 8 true fun s => s.groupCmd m g 3

/-- PROT_CMD_FORCE_S (05 R113). -/
def execProtCmdForceS (m : Master) (g : GroupId) (s : State) : Res := .next <| s.byReg m .protGroupCmd g 8 true fun s => s.groupCmd m g 4

/-- PROT_CMD_LOCKOUT (05 R113). -/
def execProtCmdLockout (m : Master) (g : GroupId) (s : State) : Res := .next <| s.byReg m .protGroupCmd g 8 true fun s => s.groupCmd m g 5

/-- PROT_CFG_WRITE (05 R103, R104, R114, Table 05-6): links and EN in force from the next tick edge. -/
def execProtCfgWrite (m : Master) (g : GroupId) (value : BitVec 64) (s : State) : Res :=
  .next <| s.byReg m .protGroupCfg g 8 true fun s => s.cfgWrite m .protGroupCfg g value (·.protCfg g)

/-! ### Conditions of copies (05 R110 to R112) -/

/-- A copy's runs, and whether it is in SF. -/
def State.copyOf (s : State) (g : Nat) (c : Copy) : CopyH × Bool :=
  match c with
  | .primary => ((s.group g).p, s.flag F.protGroupStatePSf g)
  | .secondary => ((s.group g).s, s.flag F.protGroupStateSSf g)

/-- Whether a copy enters SF now: HOLDOFF + 1 ticks in a row released BAD or ABSENT (05 R110). -/
def State.sfEnters (s : State) (g : Nat) (c : Copy) : Bool :=
  let (h, sf) := s.copyOf g c
  (s.group g).en && !sf && decide (s.rd F.protGroupCfgHoldoff g + 1 ≤ h.badRun)

/-- Whether a copy leaves SF now: 48 ticks in a row released GOOD or DOUBTFUL (05 R110). -/
def State.sfLeaves (s : State) (g : Nat) (c : Copy) : Bool :=
  let (h, sf) := s.copyOf g c
  (s.group g).en && sf && decide (48 ≤ h.goodRun)

/-- SF of a copy brought up to its runs; a copy in SF is never in SD (05 R110, R111). -/
def State.sfMove (s : State) (g : Nat) (c : Copy) : State :=
  let (sf, sd) := match c with
    | .primary => (F.protGroupStatePSf, F.protGroupStatePSd)
    | .secondary => (F.protGroupStateSSf, F.protGroupStateSSd)
  if s.sfEnters g c then (s.setFlag sf g true).setFlag sd g false
  else if s.sfLeaves g c then s.setFlag sf g false
  else s

/-- Both copies of a group judged together, as they are at the end of a tick (05 R110, R112). -/
def State.sfJudge (s : State) (g : Nat) : State := ((((s.sfMove g .primary).sfMove g .secondary).wtrSync g).protAlarms g).protRenote g

/-- PROT_SF_ENTRY (05 R110). -/
def execProtSfEntry (g : GroupId) (c : Copy) (s : State) : Res := .next <| s.when (s.sfEnters g c) fun s => s.atEnd (·.sfJudge g)

/-- PROT_SF_EXIT (05 R110). -/
def execProtSfExit (g : GroupId) (c : Copy) (s : State) : Res := .next <| s.when (s.sfLeaves g c) fun s => s.atEnd (·.sfJudge g)

/-- The threshold of a window of `len` ticks (05 R111). -/
def sdThreshold (thresh len : Nat) : Nat := (thresh * len + 4799) / 4800

/-- A group judged at the end of an SD window of `len` ticks (05 R111). -/
def State.sdJudge (s : State) (len g : Nat) : State :=
  let h := s.group g
  let th := s.rd F.protGroupCfgSdThresh g
  let sd := fun (c : CopyH) (sf : Bool) => !sf && decide (th ≠ 0) && decide (sdThreshold th len ≤ c.sdCount)
  let s := (s.setFlag F.protGroupStatePSd g (sd h.p (s.flag F.protGroupStatePSf g))).setFlag
    F.protGroupStateSSd g (sd h.s (s.flag F.protGroupStateSSf g))
  let s := s.setGroup g { h with p := { h.p with sdCount := 0 }, s := { h.s with sdCount := 0 } }
  ((s.wtrSync g).protAlarms g).protRenote g

/-- PROT_SD_WINDOW_END (05 R111). -/
def execProtSdWindowEnd (s : State) : Res :=
  .next <| s.when (decide (s.prot.sdEnded ≠ 0)) fun s =>
    let len := s.prot.sdEnded
    let s := { s with prot := { s.prot with sdEnded := 0 } }
    s.atEnd fun s => s.eachN 64 fun g s => if (s.group g).en then s.sdJudge len g else s

/-- PROT_WTR_END (05 R112): WTR has run its length. -/
def execProtWtrEnd (g : GroupId) (s : State) : Res :=
  .next <| s.when (s.flag F.protGroupStateWtrRun g && decide (s.wtrTicks g ≤ (s.group g).wtrRan)) fun s =>
    s.atEnd fun s => (((s.setFlag F.protGroupStateWtrRun g false).wtrLeft g).protAlarms g).protRenote g

/-- PROT_MISALIGNED_RAISE (05 R109). -/
def execProtMisalignedRaise (g : GroupId) (s : State) : Res :=
  .next <| s.when ((s.group g).en && decide (48 ≤ (s.group g).differRun)) fun s =>
    s.atEnd fun s => (s.setFlag F.protGroupStateMisaligned g true).raise A.protMisaligned g

/-- PROT_MISALIGNED_CLEAR (05 R109). -/
def execProtMisalignedClear (g : GroupId) (s : State) : Res :=
  .next <| s.when (decide (48 ≤ (s.group g).equalRun)) fun s =>
    s.atEnd fun s => (s.setFlag F.protGroupStateMisaligned g false).clear A.protMisaligned g

/-- PROT_RX_FRESH_EXPIRE (05 R120): 48 ticks without a message on the leg. -/
def execProtRxFreshExpire (bridge : Bool) (i : GroupId) (leg : Copy) (s : State) : Res :=
  let k := match leg with | .primary => 0 | .secondary => 1
  let r := if bridge then Reg.protRxBridge else Reg.protRxGroup
  let w := (s.word r i).toNat
  .next <| s.when (bit w (16 * k + 8) && decide (Tbl.get 0 s.prot.rxTick (legKey bridge i k) + 48 ≤ s.tick.n)) fun s =>
    (s.setWord r i (BitVec.ofNat 64 (setBit w (16 * k + 8) false))).protRxAlarms bridge i

end Sys2Proof.Machine
end

