-- ==== Sys2Proof/Machine/Rx.lean ====
section
/-! DEFINITION. A link receiver's operations (03): blocks, alignment, stamps, verdicts, defects, identity, mailboxes; and its lane's
adaptation messages (02 R30 to R36). -/

namespace Sys2Proof.Machine

/-! ### Blocks (03 R52 to R54) -/

/-- Whether a block is a control block of type `ty`. -/
def isCtl (b : Block) (ty : Nat) : Bool := b.hdr = 2 && decide (b.word.toNat % 256 = ty)

/-- An exact FM (03 R69). -/
def exactFm (b : Block) : Bool := isCtl b 0xC3 && decide (field b.word.toNat 8 24 = 0x5EC2A7)

/-- A valid header (03 R52). -/
def validHdr (h : BitVec 2) : Bool := h = 1 || h = 2

/-- The defined block types (03 Table 03-1). -/
def blockTypes : List Nat := [0xC3, 0x96, 0xA5, 0x5A, 0x69, 0x3C, 0x78, 0xF0]

/-- The type position `i` of a frame requires: FM none here (03 R54 leaves it to alignment), payload none, stuff 0xF0 (03 Table 03-2).  A
payload position requires no type, so that a control block of a defined type there is no block-type error (DESIGN CHOICE, log entry 55). -/
def requiredType (gen i : Nat) : Option Nat :=
  let o := genO gen
  if i = 0 then none
  else if i = 1 then some 0x96
  else if i = 2 then some 0xA5
  else if i = 3 then some 0x5A
  else if i < 4 + genProt gen then some 0x69
  else if i < 4 + genProt gen + genMgmt gen then some 0x3C
  else if i < o then some 0x78
  else if i < o + genP gen then none
  else some 0xF0

/-- Whether a block at position `i` of a frame in SYNC is a block-type error (03 R54). -/
def typeError (gen i : Nat) (b : Block) : Bool :=
  let ty := b.word.toNat % 256
  if b.hdr = 2 then
    if !blockTypes.contains ty then i ≠ 0
    else match requiredType gen i with | some r => decide (ty ≠ r) | none => false
  else if b.hdr = 1 then (requiredType gen i).isSome
  else false

/-- JC by majority of its three copies, and whether they disagreed (03 R67). -/
def voteJc (w : Nat) : Nat × Bool :=
  let a := field w 8 3
  let b := field w 11 3
  let c := field w 14 3
  let v := (a &&& b) ||| (a &&& c) ||| (b &&& c)
  (v, decide (a ≠ b ∨ b ≠ c))

/-- OCRC of blocks 0 to 3 (03 R61). -/
def ocrc (b0 b1 b2 b3 : Nat) : Nat :=
  crc16 (toBytes 8 b0 ++ toBytes 8 b1 ++ toBytes 8 (putField b2 40 16 0) ++ toBytes 8 b3)

/-- Whether a frame's OCRC is good: CHECK is there and its field matches (03 R60, R61). -/
def ocrcGood (fm ident check just : Block) : Bool :=
  isCtl check 0xA5 &&
    decide (ocrc fm.word.toNat ident.word.toNat check.word.toNat just.word.toNat = field check.word.toNat 40 16)

/-! ### Defect and state bits -/

/-- RDI left: bit and alarm cleared (03 Table 03-7). -/
def State.rdiExit (s : State) (l : Nat) : State :=
  let r := s.rx l
  ((s.setRx l { r with rdi1Run := 0 }).setFlag F.linkStateRdi l false).clear A.rdi l

/-- LOF left. -/
def State.lofExit (s : State) (l : Nat) : State := (s.setFlag F.linkStateLof l false).clear A.linkLof l

/-- DISCORD left. -/
def State.discordExit (s : State) (l : Nat) : State := (s.setFlag F.linkStateDiscord l false).clear A.discord l

/-- BLOCK_TYPE_ERR left. -/
def State.typeErrExit (s : State) (l : Nat) : State := (s.setFlag F.linkStateBlockTypeErr l false).clear A.blockTypeErr l

/-- Whether the device uses a link: its quad has a generation (02 R49), and for the mate links the mate port is enabled (10 R243). -/
def State.used (s : State) (l : Nat) : Bool := decide (s.gen l ≠ 0)

/-! ### Verdicts (03 R71) -/

/-- The verdict of a frame from 03 Table 03-6, `check` the CHECK of the next frame as (OCRC good, PCRC). -/
def verdictOf (allValid subst : Bool) (pcrc : BitVec 32) (check : Option (Bool × Nat)) : Nat :=
  let v := if !allValid then vBad
    else match check with
      | none => vDoubtful
      | some (ok, p) => if p = pcrc.toNat then vGood else if ok then vBad else vDoubtful
  if subst && v = vGood then vDoubtful else v

/-- A verdict other than GOOD in the tick in progress makes it an errored tick of the link's near end (14 Table 14-4). -/
def State.errTick (s : State) (l : Nat) (bad : Bool) : State :=
  let r := s.rx l
  s.setRx l { r with verdictTick := true, verdictBad := r.verdictBad || bad }

/-- A verdict counted and shown (03 R71, Table 03-9). -/
def State.countVerdict (s : State) (l v : Nat) : State :=
  ((s.count (if v = vGood then .linkFramesGood else if v = vDoubtful then .linkFramesDoubtful
    else if v = vBad then .linkFramesBad else .linkFramesAbsent) l).wr F.linkStateLastVerdict l v).errTick l (v ≠ vGood)

/-- `n` unusable M0 frames: counted; runs of usable and of compared frames end (10 R246, R262). -/
def State.mateUnusable (s : State) (n : Nat) : State :=
  let s := s.countBy .mateFrameUnusable 0 n
  { s with mate := { s.mate with frame := none, status := [], usableRun := 0, badRun := [] } }

/-- Slot `n` of a mate frame's payload words. -/
def mateSlotOf (t : Tbl Word) (n : Nat) : Nat := field (Tbl.get 0 t (n / 2)).toNat (32 * (n % 2)) 32

/-- The resynchronisation records of an M1 payload, 5 slots each; REGION 0 marks none (10 R272). -/
def resyncRecords (t : Tbl Word) : List ResyncRec :=
  (List.range 1638).filterMap fun i =>
    let w := fun j => mateSlotOf t (5 * i + j)
    let region := field (w 0) 24 4
    if region = 0 then none
    else some ⟨region, field (w 0) 0 24, BitVec.ofNat 32 (w 1), BitVec.ofNat 80 (w 2 + w 3 * 2 ^ 32 + w 4 % 2 ^ 16 * 2 ^ 64)⟩

/-- The verdict of the frame being received formed at sixteenth `t16` of the tick in progress: from the blocks 0 to 3 of the next frame, or
early where `next` is empty (03 R71; 04 R86; 02 R49). -/
def State.formVerdict (s : State) (l : Nat) (next : List Block) (t16 : Nat) : State :=
  let r := s.rx l
  match r.frame with
  | none => s
  | some f =>
    let check := match next with
      | [b0, b1, b2, b3] => if isCtl b2 0xA5 then some (ocrcGood b0 b1 b2 b3, field b2.word.toNat 8 32) else none
      | _ => none
    let s := s.when (match check with | some (_, p) => decide (p ≠ f.pcrc.toNat) | none => false)
      (·.count .linkPayCrcErr l)
    let up := s.qstate (quadOf l) = qUp
    let v := if up then verdictOf f.allValid f.subst f.pcrc check else vAbsent
    let s := s.setRx l { s.rx l with frame := none }
    let s := s.countVerdict l v
    let tx := s.tx l
    let s := if v = vBad || v = vDoubtful then s.setTx l { tx with rei := bump 255 tx.rei } else s
    let a : Int := -tdiff s.now f.stamp.toNat * 31250 + (t16 / 16 : Nat)
    if l < 128 then
      if up then s.lagVerdict l f.stamp.toNat a v f.whole f.taken f.missed
      else (s.lagMeasureA l a).when (f.taken = .written) fun s => s.lagCut l f.stamp.toNat
    else if l = 128 then
      if v = vGood && decide (a < 46875) then { s with mate := { s.mate with ready := s.mate.frame, frame := none } }
      else s.mateUnusable 1
    else if v = vGood then { s with mate := { s.mate with syncIn := s.mate.syncIn ++ resyncRecords s.mate.m1, m1 := [] } }
    else { s with mate := { s.mate with m1 := [] } }

/-! ### Leaving alignment (03 R69) -/

/-- The tick in progress does not qualify a lane's decision interval (02 R37). -/
def State.disqualify (s : State) (l : Nat) : State := s.setLane l { s.lane l with unqualified := true }

/-- SYNC left at sixteenth `t16` of the tick in progress: an unformed verdict is formed early, the exit counted, and what follows OOF (03 R69, R71,
R72; 04 R86; 09 R219; 02 R37). -/
def State.loseSync (s : State) (l t16 : Nat) : State :=
  if s.inSync l then
    let s := (s.formVerdict l [] t16).disqualify l
    let s := (s.count .linkOofEntry l).wr F.linkStateFaState l faHunt
    let s := (s.setFlag F.linkStateOof l true).setLaneBit F.laneStateInFrame l false
    let s := s.setRx l { s.rx l with
      cands := [], missedFm := 0, oofRun := 0, syncRun := 0, rdi0Run := 0, typeErr := false, typeErrRun := 0 }
    (s.rdiExit l).linkRefLost l
  else
    (s.wr F.linkStateFaState l faHunt).setRx l { s.rx l with cands := [] }

/-- Block lock left, the search starting again at the candidate position it has (02 Table 02-7). -/
def State.dropLock (s : State) (l t16 : Nat) : State :=
  let s := s.loseSync l t16
  let s := s.setRx l { s.rx l with validRun := 0, winBlocks := 0, winBad := 0, recent := [], cands := [] }
  (s.setLaneBit F.laneStateBlockLock l false).setFlag F.linkStateLol l true

/-- Block lock lost: counted, and the search starts again one bit on (03 R68). -/
def State.loseLock (s : State) (l t16 : Nat) : State :=
  let s := s.dropLock l t16
  let r := s.rx l
  (s.setRx l { r with bitPos := (r.bitPos + 1) % 66 }).count .linkLolEntry l

/-! ### Frame alignment block by block (03 R69) -/

/-- The candidate that follows `a` in a chain, at block number `n`: one that has come at the spacing `a` announces with the next stamp; whether one
may still come (03 R69). -/
def nextCand (rest : List FaCand) (a : FaCand) (n : Nat) : Option FaCand × Bool :=
  let want := a.block + a.gap
  match rest.find? fun c => decide (c.block = want) with
  | some b => if b.stamp = a.stamp + 1 then (some b, true) else (none, false)
  | none => (none, decide (n < want + 3))

/-- Whether the first candidate's chain of three can still hold at block number `n` (03 R69). -/
def chainOk : List FaCand → Nat → Bool
  | a :: rest, n =>
    match nextCand rest a n with
    | (some b, _) => (nextCand rest b n).2
    | (none, ok) => ok
  | [], _ => true

/-- Candidates dropped from the front while their chain has failed: the search goes on from the block after the first candidate. -/
def pruneCands : Nat → List FaCand → Nat → List FaCand
  | 0, c, _ => c
  | fuel + 1, c, n => if c.isEmpty || chainOk c n then c else pruneCands fuel c.tail n

/-- Three consecutive candidates from the first one kept (03 R69). -/
def chainOfThree (c : List FaCand) : Option FaCand :=
  match c with
  | a :: rest =>
    match rest.find? fun b => decide (b.block = a.block + a.gap) && decide (b.stamp = a.stamp + 1) with
    | some b => rest.find? fun d => decide (d.block = b.block + b.gap) && decide (d.stamp = b.stamp + 1)
    | none => none
  | [] => none

/-- A block examined outside SYNC: a JUSTIFY 3 blocks after an exact FM makes a candidate. -/
def State.searchBlock (s : State) (l : Nat) (b : Block) : State :=
  let r := s.rx l
  let gen := s.gen l
  let c := match r.recent with
    | _ :: _ :: fm :: _ =>
      if exactFm fm && isCtl b 0x5A then
        [⟨r.blocks - 3, BitVec.ofNat 32 (field fm.word.toNat 32 32), genO gen + genP gen + genK gen + (voteJc b.word.toNat).1⟩]
      else []
    | _ => []
  let cands := pruneCands (r.cands.length + 1) (r.cands ++ c) r.blocks
  (s.setRx l { r with cands := cands }).wr F.linkStateFaState l (if cands.isEmpty then faHunt else faPresync)

/-- A block examined in SYNC: position `pos` counts from the expected FM; its type checked; a missing FM counted; JC taken for the spacing
(03 R54, R67, R69). -/
def State.syncBlock (s : State) (l : Nat) (b : Block) : State :=
  let r := s.rx l
  let gen := s.gen l
  let i := r.pos
  let s := if typeError gen i b then (s.count .linkTypeErr l).setRx l { r with typeErr := true } else s
  let r := s.rx l
  let s := if i = 0 then
      if exactFm b then s.setRx l { r with missedFm := 0 }
      else (s.count .linkFmErr l).setRx l { r with missedFm := bump 4 r.missedFm }
    else if i = 3 && isCtl b 0x5A then s.setRx l { r with kAnn := genK gen + (voteJc b.word.toNat).1 }
    else s
  let r := s.rx l
  let len := genO gen + genP gen + r.kCur
  if i + 1 < len then s.setRx l { r with pos := i + 1 }
  else s.setRx l { r with pos := 0, kCur := r.kAnn }

/-! ### Stamps (03 R70) -/

/-- `n` ABSENT verdicts issued; those of M0 are unusable frames (10 R246). -/
def State.issueAbsent (s : State) (l n : Nat) : State :=
  if n = 0 then s else
  (((s.countBy .linkFramesAbsent l n).wr F.linkStateLastVerdict l vAbsent).errTick l true).when (l = 128) (·.mateUnusable n)

/-- The stamp a delivered frame takes, and whether E was substituted, with what counts (03 R70). -/
def State.takeStamp (s : State) (l : Nat) (exact good : Bool) (stamp : Nat) : Nat × Bool × State :=
  let e := (s.rx l).expected.toNat
  if !s.flag F.linkRxTickValid l then (stamp, false, s)
  else if exact && (good || stamp = e) then
    let fresh := (s.rx l).fresh
    if stamp = e then (stamp, false, s)
    else if fresh && decide (0 < tdiff e stamp) then (stamp, false, s.issueAbsent l (tdiff e stamp).toNat)
    else (stamp, false, s.count .linkTickJump l)
  else (e, true, s.count .linkTickSubst l)

/-- At a tick edge, outside SYNC: E advances and ABSENT is issued for the stamp it passes over; before any stamp has been accepted, E takes the
local tick number (03 R70, 02 R49). -/
def State.absentEdge (s : State) (l : Nat) : State :=
  if !s.used l || s.inSync l then s
  else
    let r := s.rx l
    let e := if s.flag F.linkRxTickValid l then r.expected + 1 else BitVec.ofNat 32 s.now
    (s.setRx l { r with expected := e }).issueAbsent l 1

/-! ### Identity (03 R75 to R77; 01 R14) -/

/-- The announced far end compared with the plan (01 R14).  A link that the plan in force no longer checks leaves an active alarm (DESIGN CHOICE, log
entry 55: the rule names only a match). -/
def State.wiringCheck (s : State) (l : Nat) : State :=
  match s.wiringPlan l with
  | none => s.clear A.wiringMismatch l
  | some (d, fl) =>
    if !(s.rx l).identTaken then s
    else if s.rd F.linkIdentRxInfoDevice l = d && s.rd F.linkIdentRxInfoLink l = fl && s.rd F.linkIdentRxInfoKind l = 0 then
      s.clear A.wiringMismatch l
    else if s.active A.wiringMismatch l then s
    else (s.count .linkWiringEntry l).raise A.wiringMismatch l

/-- A newly assembled DIEID (03 R77). -/
def State.dieidTaken (s : State) (l d : Nat) : State :=
  let kept := s.rd F.linkIdentRxDieidDieid l
  if d = 0 || d = kept then s
  else
    let s := s.wr F.linkIdentRxDieidDieid l d
    if kept = 0 then s
    else ((s.setFlag F.linkStateNeighbourChanged l true).raise A.neighbourChanged l).logEvent 0x60 0 l d kept true

/-- A newly assembled SETID, from frames stamped `stamp` and the next (03 R76). -/
def State.setidTaken (s : State) (l setid stamp : Nat) : State :=
  let s := s.wr F.linkIdentRxSetidSetid l setid
  let r := s.rx l
  if s.rd F.linkIdentRxInfoKind l = 1 then (s.setRx l { r with discRun := 0, agreeRun := 0 }).discordExit l
  else if setid = s.ownSetidAt stamp then (s.setRx l { r with discRun := 0, agreeRun := bump 2 r.agreeRun }).vouchNote l true
  else (s.setRx l { r with discRun := bump 2 r.discRun, agreeRun := 0 }).vouchNote l false

/-- The kept page `i`, where it was received with stamp `stamp`. -/
def RxH.page (r : RxH) (i : Nat) (stamp : Nat) : Option IdentPage :=
  match r.pages.lookup i with
  | some p => if p.stamp.toNat = stamp % 2 ^ 32 then some p else none
  | none => none

/-- Two pages of one value: consecutive stamps from `stamp`, the same EPOCH_LO (03 R75). -/
def RxH.pair (r : RxH) (i stamp : Nat) : Option Nat :=
  match r.page i stamp, r.page (i + 1) (stamp + 1) with
  | some a, some b => if a.epochLo = b.epochLo then some (a.data.toNat + b.data.toNat * 2 ^ 32) else none
  | _, _ => none

/-- The values that page 2 of the frame stamped `n` completes (03 R75). -/
def State.assemble (s : State) (l n epoch : Nat) : State :=
  let r := s.rx l
  match r.page 2 (n + 2 ^ 32 - 8) with
  | none => s
  | some p =>
    if p.data.toNat ≠ epoch then s else
    let s := match r.pair 3 (n + 2 ^ 32 - 7) with | some d => s.dieidTaken l d | none => s
    let s := match r.pair 6 (n + 2 ^ 32 - 4) with
      | some a => (s.setWord .linkIdentRxArmed l (BitVec.ofNat 64 a)).armCompare l
      | none => s
    match r.pair 0 (n + 2 ^ 32 - 2) with
    | some v => s.setidTaken l v ((n + 2 ^ 32 - 2) % 2 ^ 32)
    | none => s

/-- An IDENT block of a frame in SYNC with good OCRC (03 R75, R76, R72's RDI runs; 01 R14 judges only while the quad is UP). -/
def State.identTake (s : State) (l n : Nat) (w : Nat) : State :=
  let s := ((s.wr F.linkIdentRxInfoDevice l (field w 8 11)).wr F.linkIdentRxInfoLink l (field w 19 7)).wr
    F.linkIdentRxInfoKind l (field w 26 1)
  let s := s.wr F.linkStateKindRx l (field w 26 1)
  let up := s.qstate (quadOf l) = qUp
  let s := s.when (bit w 26) fun s => (s.setRx l { s.rx l with discRun := 0, agreeRun := 0 }).discordExit l
  let r := s.rx l
  let rdi := bit w 27
  let data := field w 32 32
  let s := s.setRx l { r with
    identTaken := r.identTaken || up, rdi1Run := if rdi then bump 3 r.rdi1Run else 0, rdi0Run := if rdi then 0 else bump 3 r.rdi0Run }
  let s := s.when (decide (l < 128) && up) (·.wiringCheck l)
  let page := n % 8
  let s := if page = 2 then (s.wr F.linkIdentRxInfoEpoch l data).assemble l n data
    else if page = 5 then
      (((s.wr F.linkIdentRxInfoArmed l (field data 0 1)).wr F.linkIdentRxInfoMateRank l (field data 1 1)).wr
        F.linkIdentRxInfoRole l (field data 2 2)).wr F.linkIdentRxInfoGen l (field data 4 2)
    else s
  let r := s.rx l
  let p : IdentPage := ⟨BitVec.ofNat 32 n, BitVec.ofNat 4 (field w 28 4), BitVec.ofNat 32 data⟩
  s.setRx l { r with pages := Tbl.insert page p (Tbl.erase page r.pages) }

/-! ### Mailboxes (03 R78, R79) -/

/-- The bytes of a channel's blocks (03 R78). -/
def channelBytes (blocks : List Block) : List Byte := blocks.flatMap fun b => toBytes 7 (b.word.toNat / 256)

/-- A channel's content where a frame's blocks make it acceptable; an empty or refused one (03 R79). -/
inductive Mailbox
  | empty | refused | content (m : Mail)
  deriving DecidableEq, Repr

/-- The judgement of R79 on a channel's blocks, `ty` their type. -/
def channelRead (blocks : List Block) (ty : Nat) : Mailbox :=
  let bs := channelBytes blocks
  let seq := bs.getD 0 0
  let len := (bs.getD 1 0).toNat
  if seq = 0 then .empty
  else if !blocks.all (fun b => isCtl b ty) || decide (bs.length < len + 4) then .refused
  else if crc16 (seq :: bs.getD 1 0 :: (bs.drop 4).take len) = (bs.getD 2 0).toNat + 256 * (bs.getD 3 0).toNat then
    .content ⟨seq, bs.getD 1 0, (bs.drop 4).take len⟩
  else .refused

/-- Bytes laid into a buffer from 0 up. -/
def bufWrite (bs : List Byte) (buf : Tbl Byte) : Tbl Byte := memWrite bs 0 buf

/-- The MGMT mailbox of a frame in SYNC that carries `txPhase`; SEQ 0xFF is a timing message (03 R79, 09 R234). -/
def State.mboxTake (s : State) (l stamp g txPhase : Nat) (blocks : List Block) : State :=
  match channelRead blocks 0x3C with
  | .empty => s
  | .refused => s.count .linkMboxErr l
  | .content m =>
    if m.seq = 0xFF then s.timingMessage l stamp g txPhase m.body
    else if m.seq.toNat = s.rd F.linkMboxCtrlRxSeq l then s
    else
      let h := s.link l
      let s := s.setLink l { h with mboxRx := bufWrite m.body h.mboxRx }
      ((s.wr F.linkMboxCtrlRxSeq l m.seq.toNat).wr F.linkMboxCtrlRxLen l m.len.toNat).setFlag F.linkStateMboxNew l true

/-- The user channel of a frame in SYNC (03 R79). -/
def State.userTake (s : State) (l : Nat) (blocks : List Block) : State :=
  match channelRead blocks 0x78 with
  | .empty => s
  | .refused => s.count .linkUserErr l
  | .content m =>
    if m.seq.toNat = s.rd F.linkUserCtrlRxSeq l then s
    else
      let h := s.link l
      let s := s.setLink l { h with userRx := bufWrite m.body h.userRx, userMail := m }
      ((s.wr F.linkUserCtrlRxSeq l m.seq.toNat).wr F.linkUserCtrlRxLen l m.len.toNat).setFlag F.linkStateUserNew l true

/-! ### Adaptation messages (02 R30 to R36) -/

/-- Numbered requests run 1 to 7 (02 R32). -/
def nextSeq (n : Nat) : Nat := if n = 7 then 1 else n + 1

/-- A new request sent with the next REQ_SEQ (02 R35). -/
def LaneH.send (h : LaneH) (r : FirReq) : LaneH :=
  { h with reqSeq := nextSeq h.reqSeq, req := r, waiting := true, waited := 0 }

/-- Whether every requested tap of `r` came back UPDATED, and whether any came back REJECTED (02 R32). -/
def FirReq.updated (r : FirReq) (stPre stMain stPost : Nat) : Bool :=
  (r.pre = 0 || stPre = 1) && (r.main = 0 || stMain = 1) && (r.post = 0 || stPost = 1)
def FirReq.rejected (r : FirReq) (stPre stMain stPost : Nat) : Bool :=
  (r.pre = 1 && stPre = 3) || (r.main = 1 && stMain = 3) || (r.post = 1 && stPost = 3)

/-- The acknowledgement of the receiver's outstanding request (02 R35). -/
def LaneH.acked (h : LaneH) (stPre stMain stPost : Nat) : LaneH :=
  let asked := h.req
  let h := { h with waiting := false, waited := 0, req := {} }
  if h.freeing then
    match h.rejected with
    | some r =>
      if asked.updated stPre stMain stPost then { (h.send r) with freeing := false, retried := true, rejected := none }
      else { h with freeing := false, rejected := none }
    | none => { h with freeing := false }
  else if asked.rejected stPre stMain stPost && !h.retried then
    { (h.send { main := 2 }) with freeing := true, rejected := some asked }
  else { h with retried := false }

/-- A good message's request and status halves (02 R32, R33, R35). Bring-up values are latched only in UP, since a lane has been in TRAIN only
there; an acknowledgement that nothing waits for, such as that of the hold which withdraws a request, does not clear ADAPT_TIMEOUT (DEDUCED, log
entry 55). -/
def State.adaptTake (s : State) (l w : Nat) : State :=
  if field w 30 2 ≠ 1 then s else
  let h := s.lane l
  let h := { h with silence := 0 }
  let h := if field w 27 3 ≠ h.ackSeq then { h with pendReq := some (BitVec.ofNat 32 w) } else h
  let acked := h.waiting && decide (field w 16 3 = h.reqSeq)
  let h := if acked then h.acked (field w 14 2) (field w 12 2) (field w 10 2) else h
  let s := s.setLane l h
  let s := s.when acked (·.clear A.adaptTimeout l)
  if field w 8 2 = 1 && !h.latched && s.qstate (quadOf l) = qUp then
    let x := s.word .laneTxfir l
    let x' := putField x.toNat 32 32 (field x.toNat 0 32)
    (s.setLane l { h with latched := true }).setWord .laneTxfir l (BitVec.ofNat 64 x')
  else s

/-- A received adaptation message (02 R31). -/
def State.adaptReceive (s : State) (l w : Nat) : State :=
  let bad := decide (crc8 24 (w / 256) ≠ w % 256) || decide (2 ≤ field w 30 2) || decide (2 ≤ field w 8 2) ||
    decide (field w 23 2 = 3) || decide (field w 21 2 = 3) || decide (field w 19 2 = 3)
  if bad then s.count .laneAdaptMsgErr l else s.adaptTake l w

/-! ### Protection messages (03 R63; 05 R120; 10 R259) -/

/-- A PROTECT message seen by the watches on its link (10 R259). -/
def State.watchTake (s : State) (l w : Nat) : State :=
  let mine := (List.range 64).filter fun i =>
    s.flag F.mateWatchEn i && s.rd F.mateWatchLink i = l && s.rd F.mateWatchTarget i = field w 14 1 &&
      s.rd F.mateWatchIndex i = field w 8 6
  if mine.isEmpty then s else
  (s.each mine fun i s =>
    let old := Tbl.get (0, 0) s.mate.watch i
    let seen := fun (b was : Nat) => if bit w (20 + b) then s.tick.n + 1 else was
    { s with mate := { s.mate with watch := Tbl.set (0, 0) s.mate.watch i (seen 0 old.1, seen 1 old.2) } }).watchSync

/-- One PROTECT block received. -/
def State.protectTake (s : State) (l : Nat) (b : Block) : State :=
  let w := b.word.toNat
  if !isCtl b 0x69 then s
  else if crc8 48 (field w 8 48) ≠ field w 56 8 then s.count .linkProtMsgErr l
  else if !bit w 15 then s
  else (s.protReceive l w).when (decide (l < 128)) (·.watchTake l w)

end Sys2Proof.Machine
end

