-- ==== Sys2Proof/Machine/Quads.lean ====
section
/-! DEFINITION. Quads and lanes (02): the bring-up machine, failures, loops, PRBS, eye scan and the judging receiver. -/

namespace Sys2Proof.Machine

/-! ### The bring-up machine -/

/-- QUAD_DOWN as 02 R49 has it: active exactly while the quad is used and neither UP nor TEST. -/
def State.quadDown (s : State) (q : Nat) : State :=
  s.setAlarm A.quadDown q
    (decide (s.rd F.laneStateGen q ≠ 0) && decide (s.qstate q ≠ qUp) && decide (s.qstate q ≠ qTest))

/-- A coefficient's fence: its bring-up value ± `fence` steps, clipped to its range (02 R33). -/
def fenceOf (lo hi : Int) (bu fence : Nat) : Int × Int := (max lo ((bu : Int) - fence), min hi ((bu : Int) + fence))

/-- Where a coefficient lies against its fence: strictly inside, and on its boundary or beyond. -/
def State.insideFence (s : State) (l : Nat) (c bu : Field) (lo hi : Int) : Bool :=
  let f := fenceOf lo hi (s.rd bu l) (s.rd F.laneAdaptCfgFence (quadOf l))
  decide (f.1 < (s.rd c l : Int)) && decide ((s.rd c l : Int) < f.2)

/-- TXFIR_FENCE of a lane with latched bring-up values: raised where a step has landed one of the coefficients of `moved` (PRE, MAIN, POST) on its
fence boundary, cleared where every coefficient lies strictly inside its fence (02 R33).  Loading the preset is no step. -/
def State.fenceSync (s : State) (l : Nat) (moved : Bool × Bool × Bool) : State :=
  if !(s.lane l).latched then s else
  let ip := s.insideFence l F.laneTxfirPre F.laneTxfirPreBu 0 16
  let im := s.insideFence l F.laneTxfirMain F.laneTxfirMainBu 32 64
  let io := s.insideFence l F.laneTxfirPost F.laneTxfirPostBu 0 24
  if ip && im && io then (s.setLaneBit F.laneStateFenced l false).clear A.txfirFence l
  else if (moved.1 && !ip) || (moved.2.1 && !im) || (moved.2.2 && !io) then (s.setLaneBit F.laneStateFenced l true).raise A.txfirFence l
  else s

/-- The preset loaded as the current coefficients of a lane (02 R29, R32, R33). -/
def State.loadPreset (s : State) (l : Nat) : State :=
  let p := (s.word .laneTxfirPreset (quadOf l)).toNat
  (s.setWord .laneTxfir l (BitVec.ofNat 64 (putField (s.word .laneTxfir l).toNat 0 32 p))).fenceSync l (false, false, false)

/-- TRAIN entered: both ends' sequence numbers at 0, the fence lifted; the status fields keep their values (02 R32, R33, R34). -/
def State.enterTrain (s : State) (l : Nat) : State :=
  let h := s.lane l
  let s := s.setLane l { stPre := h.stPre, stMain := h.stMain, stPost := h.stPost, pendReq := h.pendReq }
  let s := (s.setLaneBit F.laneStateTrained l false).setLaneBit F.laneStateFenced l false
  s.clear A.txfirFence l

/-- SERVICE entered (02 R36). -/
def State.enterService (s : State) (l : Nat) : State := s.setLaneBit F.laneStateTrained l true

/-- A scan ended with ERR `e` (02 R41). -/
def State.scanEnd (s : State) (q e : Nat) : State :=
  if s.flag F.laneScanStatusBusy q then
    ((s.setFlag F.laneScanStatusBusy q false).setFlag F.laneScanStatusDone q true).wr F.laneScanStatusErr q e
  else s

/-- A link's transmitter stopped: its PLL is not locked (03 R57). -/
def State.txStop (s : State) (l : Nat) : State :=
  let t := s.tx l
  s.setTx l { t with due := false, started := false, sent := none }

/-- The transmit PLL not locked (02 R25; 03 R57). -/
def State.pllLost (s : State) (q : Nat) : State :=
  (s.setFlag F.laneStatePllLock q false).each (linksOf q) fun l s => s.txStop l

/-- What a state drops on entry: the states before ALIGN hold no block lock; OFF and PLL hold no PLL lock (02 Table 02-7; log entry 15). -/
def State.quadDrop (s : State) (q st t16 : Nat) : State :=
  let s := if st ≤ qClkacq || st = qWait then
      let s := s.each (linksOf q) fun l s => s.dropLock l t16
      s.setFlag F.laneStateClkLock q false
    else s
  if st ≤ qPll then s.pllLost q else s

/-- Defects that a quad marked unused leaves, with link and lane alarms and the runs that would enter them (02 R49; 03 R72, R76). -/
def State.linkUnused (s : State) (l : Nat) : State :=
  let s := ((s.lofExit l).rdiExit l).discordExit l
  let s := s.typeErrExit l
  let s := s.setRx l { s.rx l with
    oofRun := 0, syncRun := 0, discRun := 0, agreeRun := 0, rdi0Run := 0, typeErr := false, typeErrRun := 0, typeCleanRun := 0 }
  let s := ((s.setFlag F.linkStateLos l true).setFlag F.linkStateLol l true).setFlag F.linkStateOof l true
  let s := (s.clear A.txfirFence l).clear A.adaptTimeout l
  let s := (s.clear A.justifyRange l).setFlag F.linkStateJustifyRange l false
  s.setLaneBit F.laneStateFenced l false

/-- UP left at sixteenth `t16` of the tick in progress: verdicts not yet formed are formed early, a scan ends (03 R71; 02 R41). -/
def State.leaveUp (s : State) (q t16 : Nat) : State :=
  if s.qstate q = qUp then (s.each (linksOf q) fun l s => s.formVerdict l [] t16).scanEnd q 4 else s

/-- TEST left: its checkers stop, and start from their seeds when they run again (DEDUCED, log entry 55). -/
def State.leaveTest (s : State) (q : Nat) : State :=
  if s.qstate q = qTest then
    (s.wr F.lanePrbsCtrlRxLocked q 0).each (linksOf q) fun l s => s.setRx l { s.rx l with prbs := {} }
  else s

/-- State `st` entered at sixteenth `t16` of the tick in progress (02 R29, R34, R45 to R50, R71). -/
def State.enterQuad (s : State) (q st t16 : Nat) : State :=
  let s := if st = qUp then s else s.leaveUp q t16
  let s := if st = qTest then s else s.leaveTest q
  let s := s.quadDrop q st t16
  let s := s.wr F.laneStateQstate q st
  let s := s.setQuad q { s.quad q with ticks := 0 }
  let s := if st = qPll then (s.count .laneBringupTry q).each (linksOf q) fun l s => s.loadPreset l else s
  let s := if st = qOff then s.each (linksOf q) fun l s => s.linkUnused l else s
  let s := if st = qUp then s.each (linksOf q) fun l s => s.enterTrain l else s
  let s := if st = qTest then
      s.each (linksOf q) fun l s => (s.setRx l { s.rx l with oofRun := 0 }).lofExit l
    else s
  s.quadDown q

/-- ALIGN left for UP where every lane has block lock and is in-frame (02 Table 02-7). -/
def State.alignCheck (s : State) (q : Nat) : State :=
  let full := 2 ^ lanesOf q - 1
  if s.qstate q = qAlign && decide (s.rd F.laneStateBlockLock q = full) && decide (s.rd F.laneStateInFrame q = full) then
    s.enterQuad q qUp 0
  else s

/-- A failure, where the quad is UP or in TEST: counted, its cause recorded (02 R48). -/
def State.quadFail (s : State) (q cause st t16 : Nat) : State :=
  if s.qstate q = qUp || s.qstate q = qTest then
    ((s.count .laneUpLoss q).wr F.laneStateDownCause q cause).enterQuad q st t16
  else s

/-! ### Signal detect (02 R45, Table 02-2; 03 Table 03-7) -/

/-- A data lane's signal lost: LANE_STATE shows the present signal, the link defect is entered where the link is used, and a quad in UP or TEST
fails (02 R45, R48, R49; 03 R72). -/
def State.signalLost (s : State) (l t16 : Nat) : State :=
  let s := (s.setLaneBit F.laneStateLos l true).when (s.used l) (·.setFlag F.linkStateLos l true)
  s.quadFail (quadOf l) 4 qClkacq t16

/-- A data lane's signal back: present from the next tick on for the 48 ticks that the link defect asks for (02 R45; 03 Table 03-7). -/
def State.signalBack (s : State) (l : Nat) : State :=
  if s.laneBit F.laneStateLos l then
    (s.setLaneBit F.laneStateLos l false).setRx l { s.rx l with losClear := s.tick.n + 1 }
  else s

/-- A clock lane's signal detect changed (02 R45, R48). -/
def State.clockSignal (s : State) (q : Nat) (present : Bool) : State :=
  let s := s.setFlag F.laneStateClkLos q (!present)
  if present then s else s.quadFail q 2 qClkacq (16 * 31249)

/-- A link's quad used from now on: the 48 ticks of signal and those out of frame are counted from here (03 Table 03-7; DESIGN CHOICE, log entry
55). -/
def State.linkUsed (s : State) (l : Nat) : State :=
  s.setRx l { s.rx l with losClear := s.tick.n, oofRun := 0 }

/-! ### Tick edges -/

/-- What a quad does at a tick edge: its state's ticks counted; RESTART, a checker enabled or the last one disabled, a changed LOOP (02 R43, R46,
R47).  Where a changed LOOP and an enabled checker meet in one tick, TEST is entered, whose end brings the quad to CLKACQ (DESIGN CHOICE, log entry
55). -/
def State.quadEdge (s : State) (q : Nat) : State :=
  let h := s.quad q
  let st := s.qstate q
  let s := s.setQuad q { h with
    ticks := bump 4800 h.ticks, restart := false, reloop := false, toTest := false, leaveTest := false }
  if h.restart && decide (st ≠ qOff) then s.enterQuad q qPll 0
  else if h.toTest && (st = qAlign || st = qUp) then s.enterQuad q qTest 0
  else if h.reloop && decide (st ≠ qOff) then s.enterQuad q qClkacq 0
  else if h.leaveTest && st = qTest then s.enterQuad q qClkacq 0
  else s

/-- TX_PLL_LOCK (02 Table 02-7, R24; 03 R57): the lock shows in every state of a used quad; only PLL waits for it. -/
def execTxPllLock (q : QuadId) (s : State) : Res :=
  .next <| s.when (s.qstate q ≠ qOff) fun s =>
    let s := s.setFlag F.laneStatePllLock q true
    s.when (s.qstate q = qPll) fun s => s.enterQuad q qClkacq 0

/-- CLOCK_LANE_ACQUIRE (02 Table 02-7). -/
def execClockLaneAcquire (q : QuadId) (s : State) : Res :=
  .next <| s.when (s.qstate q = qClkacq) fun s =>
    ((s.enterQuad q qDeskew 0).setFlag F.laneStateClkLos q false).setFlag F.laneStateClkLock q true

/-- Skews within 02 R26's 16 UI, on the lanes the quad has. -/
def Skews.ok (k : Skews) (q : Nat) : Bool :=
  let within := fun x : Int => decide (-1024 ≤ x) && decide (x ≤ 1024)
  within k.s0 && within k.s1 && (q = 32 || (within k.s2 && within k.s3))

/-- DESKEW_DONE (02 R26, R46, Table 02-7): every data lane has a sampling phase, so it has signal (R45). -/
def execDeskewDone (q : QuadId) (k : Skews) (s : State) : Res :=
  .next <| s.when (s.qstate q = qDeskew && Skews.ok k q) fun s =>
    let s := (s.wrS F.laneSkewSkew0 q k.s0).wrS F.laneSkewSkew1 q k.s1
    let s := if q.val = 32 then s else (s.wrS F.laneSkewSkew2 q k.s2).wrS F.laneSkewSkew3 q k.s3
    let s := s.each (linksOf q) fun l s => s.signalBack l
    s.enterQuad q (if s.rd F.lanePrbsCtrlRxEn q ≠ 0 then qTest else qAlign) 0

/-- The timeout of a bring-up state in ticks (02 Table 02-7). -/
def stateTimeout (st : Nat) : Option Nat :=
  if st = qPll then some 10 else if st = qClkacq then some 48 else if st = qDeskew then some 48
  else if st = qAlign then some 480 else none

/-- QUAD_STATE_TIMEOUT (02 R47). -/
def execQuadStateTimeout (q : QuadId) (s : State) : Res :=
  .next <| match stateTimeout (s.qstate q) with
    | some n => s.when (decide (n ≤ (s.quad q).ticks)) fun s =>
        ((s.count .laneBringupTimeout q).wr F.laneStateDownCause q 7).enterQuad q qWait 0
    | none => s

/-- QUAD_WAIT_END (02 Table 02-7). -/
def execQuadWaitEnd (q : QuadId) (s : State) : Res :=
  .next <| s.when (s.qstate q = qWait && decide (4800 ≤ (s.quad q).ticks)) fun s => s.enterQuad q qPll 0

/-- QUAD_FAILURE (02 R48, R49): a failure in UP or TEST; a loss of block lock only in UP.  The signals it tells of show in every state. -/
def execQuadFailure (q : QuadId) (c : Failure) (s : State) : Res :=
  .next <|
    match c.cause with
    | .pllUnlock => (s.quadFail q 1 qPll c.t16).pllLost q
    | .clockLos => (s.setFlag F.laneStateClkLos q true).quadFail q 2 qClkacq c.t16
    | .clockUnlock => (s.quadFail q 3 qClkacq c.t16).setFlag F.laneStateClkLock q false
    | .dataLos i => s.signalLost (linkAt q i) c.t16
    | .blockLock i => s.when (s.qstate q = qUp) fun s => (s.loseLock (linkAt q i) c.t16).quadFail q 5 qClkacq c.t16
    | .skew _ => s.quadFail q 6 qClkacq c.t16

/-! ### Loops and restart (02 R43, R47) -/

/-- A stored change of LOOP: the receive side restarts at the next tick edge; a loop disqualifies its quad's lanes (02 R37, R43). -/
def State.loopChanged (s : State) (q : Nat) : State :=
  let s := s.setQuad q { s.quad q with reloop := true }
  s.when (s.rd F.laneCtrlLoop q ≠ 0) fun s => s.each (linksOf q) fun l s => s.disqualify l

/-- LANE_LOOP_SELECT (02 R43). -/
def execLaneLoopSelect (m : Master) (q : QuadId) (loop : BitVec 2) (s : State) : Res :=
  .next <| s.byReg m .laneCtrl q 8 true fun s => s.expertOnly m (regAddr .laneCtrl q) fun s =>
    if s.rd F.laneCtrlLoop q = loop.toNat then s
    else (s.wr F.laneCtrlLoop q loop.toNat).loopChanged q

/-- LANE_RESTART (02 R47). -/
def execLaneRestart (m : Master) (q : QuadId) (s : State) : Res :=
  .next <| s.byReg m .laneCtrl q 8 true fun s => s.expertOnly m (regAddr .laneCtrl q) fun s => s.setQuad q { s.quad q with restart := true }

/-! ### PRBS (02 R38, R39, R46) -/

/-- A generator's state as it starts: any but all zeros (02 R38 names none; free, log entry 3). -/
def State.prbsSeed (s : State) (l : Nat) : State :=
  let (w, s) := s.takeFree
  s.setTx l { s.tx l with prbs := if w.setWidth 31 = 0 then 1 else w.setWidth 31 }

/-- TX_EN changed from `old`: generators that start begin from their seeds; a PRBS on the quad disqualifies its lanes (02 R37, R38). -/
def State.txEnChanged (s : State) (q old : Nat) : State :=
  let v := s.rd F.lanePrbsCtrlTxEn q
  let s := s.each ((linksOf q).filter fun l => bit v (laneOf l) && !bit old (laneOf l)) fun l s => s.prbsSeed l
  s.when (v ≠ 0) fun s => s.each (linksOf q) fun l s => s.disqualify l

/-- PRBS_TX_ENABLE (02 R38). -/
def execPrbsTxEnable (m : Master) (q : QuadId) (lanes : BitVec 4) (s : State) : Res :=
  .next <| s.byReg m .lanePrbsCtrl q 8 true fun s => s.expertOnly m (regAddr .lanePrbsCtrl q) fun s =>
    (s.wr F.lanePrbsCtrlTxEn q lanes.toNat).txEnChanged q (s.rd F.lanePrbsCtrlTxEn q)

/-- RX_EN stored, with what R46 does at the next tick edge; a checker that is not enabled holds no lock, and a PRBS on the quad disqualifies its lanes
(02 R37, R39, R46).  A checker enabled and disabled again within a tick takes the quad nowhere (DESIGN CHOICE, log entry 55). -/
def State.setRxEn (s : State) (q v : Nat) : State :=
  let s := s.wr F.lanePrbsCtrlRxEn q v
  let s := s.wr F.lanePrbsCtrlRxLocked q (s.rd F.lanePrbsCtrlRxLocked q &&& v)
  let s := s.each ((linksOf q).filter fun l => !bit v (laneOf l)) fun l s => s.setRx l { s.rx l with prbs := {} }
  let s := s.setQuad q { s.quad q with toTest := decide (v ≠ 0), leaveTest := decide (v = 0) }
  s.when (v ≠ 0) fun s => s.each (linksOf q) fun l s => s.disqualify l

/-- PRBS_RX_ENABLE (02 R46). -/
def execPrbsRxEnable (m : Master) (q : QuadId) (lanes : BitVec 4) (s : State) : Res :=
  .next <| s.byReg m .lanePrbsCtrl q 8 true fun s => s.expertOnly m (regAddr .lanePrbsCtrl q) fun s => s.setRxEn q lanes.toNat

/-- Whether a lane's checker runs: enabled, in TEST (02 R39, R46). -/
def State.checking (s : State) (l : Nat) : Bool := s.laneBit F.lanePrbsCtrlRxEn l && s.qstate (quadOf l) = qTest

/-- The 66 bits of a block as received, given to a running checker; bits checked and errored while it is locked counted (02 R39; 03 R52). -/
def State.prbsTake (s : State) (l : Nat) (hdr : BitVec 2) (line : BitVec 64) : State :=
  if !s.checking l then s
  else
    let q := quadOf l
    let (p, c, e) := PrbsH.take (s.rd F.lanePrbsCtrlRxPat q) (s.flag F.lanePrbsCtrlInvert q) 66 (lineBits hdr line) (s.rx l).prbs 0 0
    ((s.setRx l { s.rx l with prbs := p }).countBy .lanePrbsBits l c).countBy .lanePrbsErr l e

/-- PRBS_CHECKER_LOCK (02 R39): 64 error-free bits have followed the seed. -/
def execPrbsCheckerLock (l : LinkId) (s : State) : Res :=
  .next <| s.when (s.checking l && (s.rx l).prbs.locked) fun s => s.setLaneBit F.lanePrbsCtrlRxLocked l true

/-- PRBS_CHECKER_UNLOCK (02 R39): 16 errored bits within 64 have ended the lock, and the checker seeds itself again. -/
def execPrbsCheckerUnlock (l : LinkId) (s : State) : Res :=
  .next <| s.when (!(s.rx l).prbs.locked) fun s => s.setLaneBit F.lanePrbsCtrlRxLocked l false

/-! ### Eye scan (02 R40 to R42) -/

/-- The points of a scan's grid along one axis. -/
def gridPoints (start stop : Int) (step : Nat) : Nat := ((stop - start) / (step : Int)).toNat + 1

/-- Whether a scan runs on a link's lane (02 R42). -/
def State.scanOn (s : State) (l : Nat) : Bool :=
  s.flag F.laneScanStatusBusy (quadOf l) && decide (s.rd F.laneScanCtrlLane (quadOf l) = laneOf l)

/-- Whether a quad's grid is accepted (02 R40).  A LANE that the mate quad lacks is refused like a bad grid (DESIGN CHOICE, log entry 26). -/
def State.gridOk (s : State) (q : Nat) : Bool :=
  let h0 := s.rdS F.laneScanGridHStart q
  let h1 := s.rdS F.laneScanGridHEnd q
  let v0 := s.rdS F.laneScanGridVStart q
  let v1 := s.rdS F.laneScanGridVEnd q
  let hs := s.rd F.laneScanGridHStep q
  let vs := s.rd F.laneScanGridVStep q
  decide (hs ≠ 0) && decide (vs ≠ 0) && decide (h0 ≤ h1) && decide (v0 ≤ v1) && decide (-32 ≤ h0) && decide (h1 ≤ 31) &&
    decide (-127 ≤ v0) && decide (gridPoints h0 h1 hs * gridPoints v0 v1 vs ≤ 2048) &&
    decide (s.rd F.laneScanCtrlLane q < lanesOf q)

/-- START: ignored while a scan is busy; refused with ERR 3 or 1; else the window is cleared and the scan runs (02 R40 to R42). ERR 3 goes before
ERR 1, and a refused START leaves the window, POINTS and DONE as they were (DESIGN CHOICE, log entry 26). -/
def State.scanStart (s : State) (q : Nat) : State :=
  if s.flag F.laneScanStatusBusy q then s
  else if s.qstate q ≠ qUp then s.wr F.laneScanStatusErr q 3
  else if !s.gridOk q then s.wr F.laneScanStatusErr q 1
  else
    let s := s.setQuad q { s.quad q with scanTaken := 0, scanOut := [] }
    let s := (s.wr F.laneScanStatusPoints q 0).wr F.laneScanStatusErr q 0
    let s := (s.setFlag F.laneScanStatusDone q false).setFlag F.laneScanStatusBusy q true
    s.disqualify (linkAt q (s.rd F.laneScanCtrlLane q))

/-- EYE_SCAN_START (02 R40 to R42). -/
def execEyeScanStart (m : Master) (q : QuadId) (s : State) : Res :=
  .next <| s.byReg m .laneScanCtrl q 8 true fun s => s.expertOnly m (regAddr .laneScanCtrl q) fun s => s.scanStart q

/-- EYE_SCAN_ABORT (02 R41). -/
def execEyeScanAbort (m : Master) (q : QuadId) (s : State) : Res :=
  .next <| s.byReg m .laneScanCtrl q 8 true fun s => s.expertOnly m (regAddr .laneScanCtrl q) fun s => s.scanEnd q 2

/-- EYE_SCAN_POINT (02 R40, R41).  The grid and the lane act as their registers stand at each point (DESIGN CHOICE, log entry 26). -/
def execEyeScanPoint (q : QuadId) (mism : Nat) (s : State) : Res :=
  .next <| s.when (s.flag F.laneScanStatusBusy q) fun s =>
    let h0 := s.rdS F.laneScanGridHStart q
    let v0 := s.rdS F.laneScanGridVStart q
    let hs := s.rd F.laneScanGridHStep q
    let vs := s.rd F.laneScanGridVStep q
    let nh := gridPoints h0 (s.rdS F.laneScanGridHEnd q) hs
    let nv := gridPoints v0 (s.rdS F.laneScanGridVEnd q) vs
    let h := s.quad q
    let i := h.scanTaken
    let code := unsigned 8 (h0 + (i % nh * hs : Nat)) * 2 ^ 16 + unsigned 8 (v0 + (i / nh * vs : Nat)) * 2 ^ 24 + min mism 0xFFFF
    let s := s.setQuad q { h with scanTaken := i + 1, scanOut := Tbl.set 0 h.scanOut i (BitVec.ofNat 32 code) }
    let s := s.wr F.laneScanStatusPoints q (i + 1)
    if nh * nv ≤ i + 1 then (s.setFlag F.laneScanStatusBusy q false).setFlag F.laneScanStatusDone q true else s

/-! ### The judging receiver (02 R34 to R37) -/

/-- Whether the tick in progress qualifies a lane's interval (02 R37). -/
def State.qualifies (s : State) (l : Nat) : Bool :=
  let q := quadOf l
  s.inSync l && decide (s.rd F.lanePrbsCtrlRxEn q = 0) && decide (s.rd F.lanePrbsCtrlTxEn q = 0) &&
    decide (s.rd F.laneCtrlLoop q = 0) && !s.scanOn l

/-- One lane's adaptation at a tick edge, for the tick that ends (02 R34 to R37).  Outside UP the runs of 96, 480 and 24,000 ticks stand still (DESIGN
CHOICE, log entry 55). -/
def State.adaptTick (s : State) (l : Nat) : State :=
  if s.qstate (quadOf l) ≠ qUp then s else
  let h := s.lane l
  let train := !s.laneBit F.laneStateTrained l
  s.setLane l { h with
    interval := bump 122400 h.interval, unqualified := h.unqualified || !s.qualifies l
    waited := if h.waiting then bump 96 h.waited else 0
    silence := if train then bump 480 h.silence else h.silence
    train := if train then bump 24000 h.train else h.train }

/-- Ticks between a receiver's decisions (02 R34). -/
def State.decisionTicks (s : State) (l : Nat) : Nat :=
  if s.laneBit F.laneStateTrained l then max 1 (s.rd F.laneAdaptCfgSvcInterval (quadOf l)) * 480 else 16

/-- A decision that holds; the eighth in a row leaves TRAIN (02 R36). -/
def State.holdDecision (s : State) (l : Nat) : State :=
  let h := s.lane l
  let s := s.setLane l { h with holds := bump 8 h.holds }
  if 8 ≤ h.holds + 1 && !s.laneBit F.laneStateTrained l then s.enterService l else s

/-- The step a qualifying measurement asks for (02 R34). -/
def EqMeasure.step (x : EqMeasure) : Option FirReq :=
  if x.h1 > 2500 then some { post := 1 }
  else if x.h1 < 1000 then some { post := 2 }
  else if x.p1 > 800 then some { pre := 1 }
  else if x.p1 < 200 then some { pre := 2 }
  else none

/-- ADAPT_DECISION (02 R34, R36, R37). -/
def execAdaptDecision (l : LinkId) (x : EqMeasure) (s : State) : Res :=
  let h := s.lane l
  .next <| s.when (s.qstate (quadOf l) = qUp && decide (s.decisionTicks l ≤ h.interval)) fun s =>
    let ok := !h.unqualified && decide (4000 ≤ x.density)
    let h := { h with interval := 0, unqualified := false, frozen := !ok }
    if !ok then ((s.setLane l h).count .laneAdaptFrozen l).holdDecision l
    else if h.waiting then s.setLane l h
    else if h.fixedFar then (s.setLane l h).holdDecision l
    else match EqMeasure.step x with
      | some r => s.setLane l { (h.send r) with holds := 0, retried := false, freeing := false, rejected := none }
      | none => (s.setLane l h).holdDecision l

/-- ADAPT_REQUEST_TIMEOUT (02 R35). -/
def execAdaptRequestTimeout (l : LinkId) (s : State) : Res :=
  let h := s.lane l
  .next <| s.when (h.waiting && decide (96 ≤ h.waited)) fun s =>
    let s := s.setLane l { h with
      reqSeq := nextSeq h.reqSeq, req := {}, waiting := false, waited := 0, freeing := false, retried := false, rejected := none }
    (s.count .laneAdaptTimeout l).raise A.adaptTimeout l

/-- ADAPT_SILENCE_TIMEOUT (02 R36). -/
def execAdaptSilenceTimeout (l : LinkId) (s : State) : Res :=
  let h := s.lane l
  .next <| s.when (s.qstate (quadOf l) = qUp && !s.laneBit F.laneStateTrained l && decide (480 ≤ h.silence)) fun s =>
    (s.setLane l { h with fixedFar := true, req := {}, waiting := false, waited := 0 }).enterService l

/-- ADAPT_TRAIN_TIMEOUT (02 R36). -/
def execAdaptTrainTimeout (l : LinkId) (s : State) : Res :=
  .next <| s.when (s.qstate (quadOf l) = qUp && !s.laneBit F.laneStateTrained l && decide (24000 ≤ (s.lane l).train)) fun s =>
    (s.enterService l).raise A.adaptTimeout l

end Sys2Proof.Machine
end

