-- ==== Sys2Proof/Machine/Links.lean ====
section
/-! DEFINITION. The commands of link receivers (03): blocks, lock, alignment, frame delivery, verdicts and defects. -/

namespace Sys2Proof.Machine

/-! ### Blocks and lock (03 R52, R53, R68) -/

/-- A header tested without block lock: an invalid one moves the candidate bit position (03 R68). -/
def State.lockSearch (s : State) (l : Nat) (valid : Bool) : State :=
  let r := s.rx l
  if valid then s.setRx l { r with validRun := bump 64 r.validRun }
  else s.setRx l { r with validRun := 0, bitPos := (r.bitPos + 1) % 66 }

/-- A header counted under block lock, in windows of 64; a window that has reached 16 invalid ones waits for the loss (03 R68). -/
def State.lockWindow (s : State) (l : Nat) (valid : Bool) : State :=
  let r := s.rx l
  let bad := if valid then r.winBad else r.winBad + 1
  let s := s.when (!valid) (·.count .linkHdrErr l)
  if r.winBlocks + 1 = 64 && decide (bad < 16) then s.setRx l { r with winBlocks := 0, winBad := 0 }
  else s.setRx l { r with winBlocks := r.winBlocks + 1, winBad := bad }

/-- A block under block lock given to frame alignment (03 R69). Block types are judged in SYNC only, also those of the third candidate's first
blocks, which come before it (DESIGN CHOICE, log entry 55). -/
def State.alignBlock (s : State) (l : Nat) (b : Block) : State :=
  let r := s.rx l
  let s := s.setRx l { r with blocks := r.blocks + 1, recent := r.recent }
  let s := if s.inSync l then s.syncBlock l b else s.searchBlock l b
  let r := s.rx l
  s.setRx l { r with recent := (b :: r.recent).take 3 }

/-- The 66 bits that come in: the line's, or what a near-end loop brings back (02 R43, R44). -/
def State.lineIn (s : State) (l : Nat) (hdr : BitVec 2) (line : BitVec 64) : BitVec 2 × BitVec 64 × State :=
  if s.nearLoop l then s.loopBlock l else (hdr, line, s)

/-- Whether bits come in on a link: its quad samples, and a near-end loop's transmitter runs (02 Tables 02-6, 02-7). -/
def State.receives (s : State) (l : Nat) : Bool :=
  s.samples (quadOf l) && (!s.nearLoop l || s.flag F.laneStatePllLock (quadOf l))

/-- RX_BLOCK (03 R52 to R54, R68, R69; 02 R39): `line` is the scrambled word. -/
def execRxBlock (l : LinkId) (hdr : BitVec 2) (line : BitVec 64) (s : State) : Res :=
  .next <| s.when (s.receives l) fun s =>
    let (hdr, line, s) := s.lineIn l hdr line
    let (w, st) := descramble (s.rx l).descr line
    let s := (s.setRx l { s.rx l with descr := st }).prbsTake l hdr line
    if s.laneBit F.laneStateBlockLock l then (s.lockWindow l (validHdr hdr)).alignBlock l ⟨hdr, w⟩
    else s.lockSearch l (validHdr hdr)

/-- BLOCK_LOCK_ACQUIRE (03 R68): 64 consecutive valid headers. -/
def execBlockLockAcquire (l : LinkId) (s : State) : Res :=
  .next <| s.when (s.samples (quadOf l) && !s.laneBit F.laneStateBlockLock l && decide (64 ≤ (s.rx l).validRun)) fun s =>
    let s := s.setRx l { s.rx l with winBlocks := 0, winBad := 0, blocks := 0, recent := [], cands := [] }
    ((s.setLaneBit F.laneStateBlockLock l true).when (s.used l) (·.setFlag F.linkStateLol l false)).alignCheck (quadOf l)

/-- BLOCK_LOCK_LOSS (03 R68; 02 R48): a window with 16 invalid headers; in UP it is the quad's failure too. -/
def execBlockLockLoss (l : LinkMoment) (s : State) : Res :=
  .next <| s.when (s.laneBit F.laneStateBlockLock l.link && decide (16 ≤ (s.rx l.link).winBad)) fun s =>
    (s.loseLock l.link l.t16).when (s.qstate (quadOf l.link) = qUp) (·.quadFail (quadOf l.link) 5 qClkacq l.t16)

/-! ### Frame alignment (03 R69) -/

/-- SYNC entered at the third candidate `c`, whose JUSTIFY is the block just examined; `k` is the stuff count that the second announced. -/
def State.enterSync (s : State) (l k : Nat) (c : FaCand) : State :=
  let len := genO (s.gen l) + genP (s.gen l)
  let s := s.setRx l { s.rx l with
    cands := [], pos := 4, missedFm := 0, kCur := k, kNext := k, kAnn := c.gap - len, fresh := true, oofRun := 0, syncRun := 0
    typeErr := false, typeErrRun := 0, typeCleanRun := 0, rdi1Run := 0, rdi0Run := 0 }
  let s := (s.wr F.linkStateFaState l faSync).setFlag F.linkStateOof l false
  ((s.setLaneBit F.laneStateInFrame l true).disqualify l).alignCheck (quadOf l)

/-- The stuff count that the second of three chained candidates announces. -/
def secondK (cands : List FaCand) (len : Nat) : Nat :=
  match cands with
  | a :: rest => match rest.find? fun b => decide (b.block = a.block + a.gap) with | some b => b.gap - len | none => 0
  | [] => 0

/-- FA_SYNC_ENTRY (03 R69; 02 R45): three consecutive candidates. -/
def execFaSyncEntry (l : LinkId) (s : State) : Res :=
  .next <| s.when (s.laneBit F.laneStateBlockLock l && !s.inSync l && s.used l) fun s =>
    let r := s.rx l
    match chainOfThree r.cands with
    | some c => s.enterSync l (secondK r.cands (genO (s.gen l) + genP (s.gen l))) c
    | none => s

/-- FA_SYNC_LOSS (03 R69): four expected positions in a row without an exact FM. -/
def execFaSyncLoss (l : LinkMoment) (s : State) : Res :=
  .next <| s.when (s.inSync l.link && decide (4 ≤ (s.rx l.link).missedFm)) (·.loseSync l.link l.t16)

/-! ### Delivery (03 R67, R70, R74, R75; 04 R86, R89) -/

/-- The accepted stamp recorded, E advanced (03 R70). -/
def State.acceptStamp (s : State) (l n : Nat) : State :=
  let s := (s.wr F.linkRxTickStamp l n).setFlag F.linkRxTickValid l true
  s.setRx l { s.rx l with expected := BitVec.ofNat 32 (n + 1), fresh := false }

/-- JUSTIFY of a delivered frame: JC by vote; REI and TX_PHASE only where the OCRC is good (03 R67, R71, R74). -/
def State.justifyTake (s : State) (l : Nat) (b : Block) (good : Bool) : State :=
  let r := s.rx l
  let s := s.wr F.linkRxJustK l r.kNext
  if !isCtl b 0x5A then s
  else
    let w := b.word.toNat
    let (jc, disagree) := voteJc w
    let s := (s.when disagree (·.count .linkJcCorrected l)).wr F.linkRxJustJc l jc
    let s := s.setRx l { r with kNext := genK (s.gen l) + jc }
    if !good then s
    else
      let s := s.wr F.linkRxJustTxPhase l (field w 24 20)
      s.when (bit w 17) fun s => (s.count .linkReiRx l).setRx l { s.rx l with reiTick := true }

/-- The block-type errors of the frame before counted into the runs of Table 03-7. -/
def State.typeErrTake (s : State) (l : Nat) : State :=
  let r := s.rx l
  if r.fresh then s.setRx l { r with typeErr := false }
  else if r.typeErr then s.setRx l { r with typeErr := false, typeErrRun := bump 3 r.typeErrRun, typeCleanRun := 0 }
  else s.setRx l { r with typeErrRun := 0, typeCleanRun := bump 48 r.typeCleanRun }

/-- The overhead of a frame taken with stamp `n`: identity, protection, adaptation, mailboxes, phase of a link reference. -/
def State.overheadTake (s : State) (l n : Nat) (f : RxFrame) (good : Bool) : State :=
  let s := s.justifyTake l f.justify good
  let s := s.when (good && isCtl f.ident 0x96) (·.identTake l n f.ident.word.toNat)
  let s := s.each f.protect fun b s => s.protectTake l b
  let s := match f.mgmt with
    | b :: rest =>
      let s := s.when (isCtl b 0x3C) (·.adaptReceive l (field b.word.toNat 8 32))
      s.mboxTake l n f.t16 (field f.justify.word.toNat 24 20) rest
    | [] => s
  let s := s.userTake l f.user
  s.when (good && decide (l < 128)) (·.linkPhase l f.t16)

/-- The arrival of a delivered frame's FM measured (04 R86), and its payload admitted to the lag store where its quad is UP (04 R89), and metered (14
R359).  Answers what the store did with it. -/
def State.payloadTake (s : State) (l n : Nat) (f : RxFrame) (offset : Int) : Admit × State :=
  let s := s.when (decide (l < 128)) (·.lagMeasureF l offset)
  if 128 ≤ l || s.qstate (quadOf l) ≠ qUp then (.unstored, s)
  else
    let (a, s) := s.lagAdmit l n offset f.payload (min f.arrived (genP (s.gen l))) f.overflow
    let bytes := 8 * genP (s.gen l)
    let short := match s.lagTarget l (s.localTick n) with | some t => t.short | none => true
    let s := s.when (a = .written) (·.meter .pmBwLinkIn l bytes)
    (a, s.when (a = .written && !short) (·.meter .pmBwHbmWr (stackOf l) bytes))

/-- How long after its FM's first bit a frame's block 2 is in, in sixteenths of a core cycle: 3 block periods (03 R71; 02 Table 02-1). -/
def checkDelay16 : Nat → Nat
  | 1 => 716 | 2 => 358 | 3 => 179 | _ => 0

/-- A frame in SYNC delivered; the verdict of the frame before it is formed, where VERDICT_FORM has not done so. -/
def State.deliver (s : State) (l : Nat) (f : RxFrame) : State :=
  let s := s.formVerdict l [f.fm, f.ident, f.check, f.justify] (f.t16 + checkDelay16 (s.gen l))
  let s := s.typeErrTake l
  let good := ocrcGood f.fm f.ident f.check f.justify
  let s := s.when (isCtl f.check 0xA5 && !good) (·.count .linkOvhCrcErr l)
  let (n, subst, s) := s.takeStamp l (exactFm f.fm) good (field f.fm.word.toNat 32 32)
  let s := (s.acceptStamp l n).overheadTake l n f good
  let offset : Int := -tdiff s.now n * 31250 + (f.t16 / 16 : Nat)
  let (taken, s) := s.payloadTake l n f offset
  let p := genP (s.gen l)
  let whole := decide (p ≤ f.arrived)
  let s := s.setRx l { s.rx l with frame := some {
    stamp := BitVec.ofNat 32 n, subst := subst, allValid := whole && f.bad.isEmpty, whole := whole
    pcrc := crcOfWords (Tbl.get 0 f.payload) 0 p, offsetF := offset, taken := taken, missed := false } }
  if l = 128 then { s with mate := { s.mate with frame := some (BitVec.ofNat 32 n, f.payload) } }
  else if l = 129 then { s with mate := { s.mate with m1 := f.payload } }
  else s

/-- RX_FRAME_DELIVER (03 R70): given when the first bit of the frame's FM has come in, with the whole of the frame as operand; in a near-end loop the
frame is the one that the link's own transmitter sends (02 R44). -/
def execRxFrameDeliver (l : LinkId) (f : RxFrame) (s : State) : Res :=
  .next <| s.when (s.inSync l && s.used l) fun s => s.deliver l (s.loopFrame l f)

/-- VERDICT_FORM (03 R71): block 2 of the next frame has come in; `next` holds that frame's blocks 0 to 3, or none for an early verdict. -/
def execVerdictForm (l : LinkId) (next : List Block) (t16 : Nat) (s : State) : Res := .next <| s.formVerdict l next t16

/-! ### Defects (03 R72, R77) -/

/-- NEIGHBOUR_CHANGED_CLEAR (03 R77). -/
def execNeighbourChangedClear (m : Master) (l : LinkId) (s : State) : Res :=
  .next <| s.byReg m .linkState l 8 true fun s => (s.setFlag F.linkStateNeighbourChanged l false).clear A.neighbourChanged l

/-- LOSS_OF_SIGNAL (03 Table 03-7; 02 R45, R48). -/
def execLossOfSignal (l : LinkMoment) (s : State) : Res := .next <| s.signalLost l.link l.t16

/-- LOS_EXIT (03 Table 03-7; 02 R45): signal present for 48 ticks. -/
def execLosExit (l : LinkId) (s : State) : Res :=
  .next <| s.when (s.used l && !s.laneBit F.laneStateLos l && decide ((s.rx l).losClear + 48 ≤ s.tick.n + 1)) fun s =>
    s.setFlag F.linkStateLos l false

/-- LOF_ENTRY (03 R72). -/
def execLofEntry (l : LinkId) (s : State) : Res :=
  .next <| s.when (s.used l && decide (48 ≤ (s.rx l).oofRun) && decide (s.qstate (quadOf l) ≠ qTest) && !s.flag F.linkStateLof l) fun s =>
    ((s.setFlag F.linkStateLof l true).count .linkLofEntry l).raise A.linkLof l

/-- LOF_EXIT (03 R72). -/
def execLofExit (l : LinkId) (s : State) : Res :=
  .next <| s.when (s.flag F.linkStateLof l && decide (48 ≤ (s.rx l).syncRun)) (·.lofExit l)

/-- BLOCK_TYPE_ERR_ENTRY (03 Table 03-7). -/
def execBlockTypeErrEntry (l : LinkId) (s : State) : Res :=
  .next <| s.when (s.used l && decide (3 ≤ (s.rx l).typeErrRun) && !s.flag F.linkStateBlockTypeErr l) fun s =>
    (s.setFlag F.linkStateBlockTypeErr l true).raise A.blockTypeErr l

/-- BLOCK_TYPE_ERR_EXIT (03 Table 03-7). -/
def execBlockTypeErrExit (l : LinkId) (s : State) : Res :=
  .next <| s.when (s.flag F.linkStateBlockTypeErr l && decide (48 ≤ (s.rx l).typeCleanRun)) (·.typeErrExit l)

/-- RDI_ENTRY (03 Table 03-7). -/
def execRdiEntry (l : LinkId) (s : State) : Res :=
  .next <| s.when (s.used l && decide (3 ≤ (s.rx l).rdi1Run) && !s.flag F.linkStateRdi l) fun s =>
    (s.setFlag F.linkStateRdi l true).raise A.rdi l

/-- RDI_EXIT (03 Table 03-7). -/
def execRdiExit (l : LinkId) (s : State) : Res :=
  .next <| s.when (s.flag F.linkStateRdi l && decide (3 ≤ (s.rx l).rdi0Run)) (·.rdiExit l)

/-- DISCORD_ENTRY (03 R76). -/
def execDiscordEntry (l : LinkId) (s : State) : Res :=
  .next <| s.when (s.used l && s.rd F.linkIdentRxInfoKind l = 0 && decide (2 ≤ (s.rx l).discRun) && !s.flag F.linkStateDiscord l) fun s =>
    ((s.setFlag F.linkStateDiscord l true).count .linkDiscordEntry l).raise A.discord l

/-- DISCORD_EXIT (03 R76). -/
def execDiscordExit (l : LinkId) (s : State) : Res :=
  .next <| s.when (s.flag F.linkStateDiscord l && decide (2 ≤ (s.rx l).agreeRun)) (·.discordExit l)

/-- A link's defect runs at a tick edge, for the tick that ends (03 R72). -/
def State.defectEdge (s : State) (l : Nat) : State :=
  let r := s.rx l
  if !s.used l then s
  else if s.inSync l then s.setRx l { r with oofRun := 0, syncRun := bump 48 r.syncRun }
  else s.setRx l { r with oofRun := if s.qstate (quadOf l) = qTest then 0 else bump 48 r.oofRun, syncRun := 0 }

end Sys2Proof.Machine
end

