-- ==== Sys2Proof/Machine/Logbook.lean ====
section
/-! DEFINITION. The event buffer and the logbook (14 R369 to R374). -/

namespace Sys2Proof.Machine

/-! ### The event buffer (14 R369) -/

/-- Entries that waited in the logger's queue written to the share in use. -/
def State.evbDrain (s : State) : State :=
  let q := s.log.queue
  let s := { s with log := { s.log with queue := [] } }
  s.each q fun e s => s.evbWrite (s.rd F.logStateEvbStack 0) e

/-- The share of stack `k` in use from now on. -/
def State.evbUse (s : State) (k : Nat) : State :=
  let s := (s.wr F.logStateEvbStack 0 k).setFlag F.logStateEvbValid 0 true
  s.setWord .logEvbBase 0 (s.word .logEvbEntries 0)

/-- The lowest-numbered stack that is not lost. -/
def State.evbStack (s : State) : Option Nat := (List.range 4).find? fun k => !s.rdBit F.lagStateStackLost 0 k

/-- Every stack lost: EVB_UNAVAILABLE, and what waits is lost. -/
def State.evbNone (s : State) : State :=
  let n := s.log.queue.length
  let s := { s with log := { s.log with queue := [], move := false } }
  (s.countBy .logEvbLost 0 n).raise A.evbUnavailable 0

/-- The event buffer opened once every stack's P4 initialisation has ended (14 R369; 13 R338). -/
def State.evbOpen (s : State) : State :=
  match s.evbStack with
  | some k => (s.evbUse k).evbDrain
  | none => s.evbNone

/-- The event buffer loses its share with stack `k` (14 R369): it moves at the next tick edge where a stack is left. -/
def State.evbLose (s : State) (k : Nat) : State :=
  if s.flag F.logStateEvbValid 0 && decide (s.rd F.logStateEvbStack 0 = k) then
    let s := s.setFlag F.logStateEvbValid 0 false
    if s.evbStack.isSome then { s with log := { s.log with move := true } } else s.evbNone
  else if s.log.move && s.evbStack.isNone then s.evbNone
  else s

/-- The event buffer moved at a tick edge. -/
def State.evbMove (s : State) : State :=
  if !s.log.move then s
  else
    let s := { s with log := { s.log with move := false } }
    match s.evbStack with
    | some k =>
      let s := s.evbUse k
      let s := s.logEvent 0x80 0 k (s.word .logEvbBase 0).toNat 0 false
      s.evbDrain
    | none => s.evbNone

/-- EVB_MOVE (14 R369). -/
def execEvbMove (s : State) : Res := .next s.evbMove

/-! ### Flash (13 R340, R354) -/

/-- A flash byte: erased flash reads 0xFF. -/
def State.flashByte (s : State) (a : Nat) : Byte := Tbl.get 0xFF s.nv.flash a

/-- The `n` flash bytes from offset `a`. -/
def State.flashRead (s : State) (a n : Nat) : List Byte := (List.range n).map fun j => s.flashByte (a + j)

/-- Bytes as flash holds them from offset `a`. -/
def flashPut : List Byte → Nat → Tbl Byte → Tbl Byte
  | [], _, t => t
  | b :: bs, a, t => flashPut bs (a + 1) (Tbl.set 0xFF t a b)

def State.flashWrite (s : State) (bs : List Byte) (a : Nat) : State := { s with nv := { s.nv with flash := flashPut bs a s.nv.flash } }

/-- The 64 KiB sector that holds offset `a` erased. -/
def State.flashErase (s : State) (a : Nat) : State :=
  { s with nv := { s.nv with flash := Tbl.clearRange s.nv.flash (a / 65536 * 65536) 65536 } }

/-- Flash bytes that read back as something else: free (log entry 3). -/
def State.flashSpoil (s : State) (a n : Nat) : State :=
  let (ws, s) := State.takeFreeWords ((n + 7) / 8) s
  s.flashWrite ((ws.flatMap fun w => toBytes 8 w.toNat).take n) a

/-! ### Records (14 Table 14-8) -/

def logMagic : Nat := 0x4B42474C

/-- A histogram's counts, 4 bytes each. -/
def histBytes (t : Tbl Nat) (n : Nat) : List Byte := (List.range n).flatMap fun i => toBytes 4 (Tbl.get 0 t i)

/-- Bytes 28 to 31 of a record. -/
def State.recordFlags (s : State) (cause : Nat) : Nat :=
  s.log.firstFlags + 4 * b2n s.numbered + 8 * (cause % 4) + 32 * b2n s.log.totals.candFull

/-- A record of the entries `es`, its CRC included. -/
def State.recordBytes (s : State) (es : List LogEntry) (cause : Nat) : List Byte :=
  let t := s.log.totals
  let cand := fun (c : BitVec 32 × Nat) => toBytes 4 c.1.toNat ++ toBytes 1 c.2 ++ toBytes 1 1 ++ toBytes 2 0
  let head := toBytes 4 logMagic ++ toBytes 2 1 ++ toBytes 2 es.length ++ toBytes 4 s.log.nextRseq.toNat ++ toBytes 4 s.now ++
    toBytes 8 s.nv.dieId.toNat ++ toBytes 4 t.powerUps ++ toBytes 4 (s.recordFlags cause) ++ toBytes 8 t.opSeconds
  let hists := histBytes t.tempHist 16 ++ histBytes t.tstateHist 8 ++ histBytes t.roleHist 4
  let sums := toBytes 8 t.ue ++ toBytes 8 t.corr ++ toBytes 4 t.epochs ++ toBytes 4 t.promotions ++ toBytes 4 t.majors ++
    toBytes 4 t.minors ++ toBytes 4 t.bootFails ++ toBytes 4 0
  let cands := t.cands.flatMap cand ++ List.replicate (256 - 8 * t.cands.length) 0
  let ents := es.flatMap LogEntry.bytes ++ List.replicate (3644 - 32 * es.length) 0
  let body := head ++ hists ++ sums ++ cands ++ ents
  body ++ toBytes 4 (crc32c body).toNat

/-- A number at byte `a` of a record, `n` bytes. -/
def recNum (r : List Byte) (a n : Nat) : Nat := ofBytes ((r.drop a).take n)

/-- Whether a record is valid (14 R370). -/
def recordValid (r : List Byte) : Bool :=
  recNum r 0 4 = logMagic && recNum r 4 2 = 1 && recNum r 4092 4 = (crc32c (r.take 4092)).toNat

/-- A histogram read back. -/
def readHist (r : List Byte) (a n : Nat) : Tbl Nat :=
  (List.range n).foldl (fun t i => Tbl.set 0 t i (recNum r (a + 4 * i) 4)) []

/-- Totals, histograms and candidates a record carries on. -/
def recordTotals (r : List Byte) : LogTotals :=
  { powerUps := recNum r 24 4, opSeconds := recNum r 32 8, tempHist := readHist r 40 16, tstateHist := readHist r 104 8
    roleHist := readHist r 136 4, ue := recNum r 152 8, corr := recNum r 160 8, epochs := recNum r 168 4, promotions := recNum r 172 4
    majors := recNum r 176 4, minors := recNum r 180 4, bootFails := recNum r 184 4
    cands := (List.range 32).filterMap fun i =>
      if bit (recNum r (192 + 8 * i + 5) 1) 0 then some (BitVec.ofNat 32 (recNum r (192 + 8 * i) 4), recNum r (192 + 8 * i + 4) 1)
      else none
    candFull := bit (recNum r 28 4) 5 }

/-- The record at position `p`, where it is valid. -/
def State.recordAt (s : State) (p : Nat) : Option (List Byte) :=
  if recNum (s.flashRead (4096 * p) 4) 0 4 = logMagic then
    let r := s.flashRead (4096 * p) 4096
    if recordValid r then some r else none
  else none

/-- The record with the latest RSEQ under 00 R5, and its position. -/
def latestRecord (rs : List (Nat × List Byte)) : Option (Nat × List Byte) :=
  rs.foldl (fun best x =>
    match best with
    | some b => if 0 < tdiff (recNum b.2 8 4) (recNum x.2 8 4) then some x else best
    | none => some x) none

/-! ### Finding the logbook (14 R371) -/

/-- What P2 finds in the logbook region. -/
def State.logFind (s : State) : State :=
  let rs := (List.range 256).filterMap fun p => (s.recordAt p).map fun r => (p, r)
  let mine := rs.filter fun x => recNum x.2 16 8 = s.nv.dieId.toNat
  let place := fun (s : State) (x : Nat × List Byte) =>
    let q := recNum x.2 8 4
    let s := (s.wr F.logStateRseq 0 q).wr F.logStateNextPos 0 ((x.1 + 1) % 256)
    { s with log := { s.log with nextRseq := BitVec.ofNat 32 (q + 1) } }
  let now := s.log.totals
  match latestRecord mine with
  | some x =>
    let t := recordTotals x.2
    let s := place s x
    { s with log := { s.log with totals := { t with
      majors := t.majors + now.majors, minors := t.minors + now.minors, bootFails := t.bootFails + now.bootFails } } }
  | none =>
    match latestRecord rs with
    | some x =>
      let other := recNum x.2 16 8
      let s := (place s x).setFlag F.logStateHistoryBroken 0 true
      let s := { s with log := { s.log with firstFlags := 1 } }
      (s.raise A.historyBroken 0).logEvent 0xF0 0 2 other 0 true
    | none =>
      let s := s.setFlag F.logStateFirst 0 true
      let s := { s with log := { s.log with firstFlags := 2 } }
      s.logEvent 0xF0 0 1 0 0 true

/-- POWER_UPS advances and a power-up entry is staged (14 R371, Table 14-7). -/
def State.powerUp (s : State) : State :=
  let t := s.log.totals
  let s := { s with log := { s.log with totals := { t with powerUps := t.powerUps + 1 } } }
  s.logEvent 0x01 0 (s.word .sysBootStatus 0).toNat s.nv.dieId.toNat (t.powerUps + 1) true

/-! ### Stores (14 R372) -/

/-- Whether a store may start now. -/
def State.storeDue (s : State) : Bool :=
  !s.log.causes.isEmpty && s.flag F.logStateReady 0 && !s.flag F.logStateStoring 0 && !s.flag F.nvmStatusBusy 0 &&
    (match s.log.lastStore with | some n => decide (n + 48000 ≤ s.tick.n) | none => true)

/-- A store at the next position begun: its sector erased where it is the sector's first position. -/
def State.storeAt (s : State) : State :=
  let p := s.rd F.logStateNextPos 0
  s.when (p % 16 = 0) (·.flashErase (4096 * p))

/-- A store begun: the staged record's content fixed; content kept after two failures is stored first. -/
def State.storeStart (s : State) : State :=
  let h := s.log
  let es := if h.storing.isEmpty then h.stage else h.storing
  let cause := h.causes.headD 0
  let s := { s with log := { h with
    storing := es, stage := (if h.storing.isEmpty then [] else h.stage), causes := [], storeCause := cause, attempts := 0
    lastStore := some s.tick.n, record := s.recordBytes es cause } }
  ((s.setFlag F.logStateStoring 0 true).setFlag F.nvmStatusBusy 0 true).storeAt

/-- LOG_STORE_START (14 R372). -/
def execLogStoreStart (s : State) : Res := .next <| s.when s.storeDue State.storeStart

/-- The second staging record becomes the first. -/
def State.storeNext (s : State) : State :=
  let h := s.log
  let s := { s with log := { h with storing := [], stage := h.stage ++ h.stage2, stage2 := [], record := [] } }
  (s.when (decide (113 ≤ s.log.stage.length)) (·.storeCause 0)).stagedSync

/-- The end of a store: NVM no longer busy. -/
def State.storeEnd (s : State) : State := (s.setFlag F.logStateStoring 0 false).setFlag F.nvmStatusBusy 0 false

/-- A record written and read back: verified, or not (14 R372). -/
def State.storeDone (s : State) (ok : Bool) : State :=
  let p := s.rd F.logStateNextPos 0
  let next := fun (s : State) => s.wr F.logStateNextPos 0 ((p + 1) % 256)
  if ok then
    let s := next (s.flashWrite s.log.record (4096 * p))
    let s := s.wr F.logStateRseq 0 s.log.nextRseq.toNat
    let s := { s with log := { s.log with nextRseq := s.log.nextRseq + 1, firstFlags := 0 } }
    (((s.count .logStores 0).clear A.logStoreFail 0).storeEnd).storeNext
  else
    let s := next (s.flashSpoil (4096 * p) 4096)
    let s := (s.count .logStoreFail 0).raise A.logStoreFail 0
    if s.log.attempts = 0 then ({ s with log := { s.log with attempts := 1 } }).storeAt
    else s.storeEnd

/-- LOG_STORE_DONE (14 R372). -/
def execLogStoreDone (verified : Bool) (s : State) : Res :=
  .next <| s.when (s.flag F.logStateStoring 0) (·.storeDone verified)

/-- LOG_HOURLY (14 R372). -/
def execLogHourly (s : State) : Res := .next <| s.when (decide (s.now % 172800000 = 0)) (·.storeCause 1)

/-- LOG_FLUSH (14 R372). -/
def execLogFlush (m : Master) (s : State) : Res := .next <| s.byReg m .logCtrl 0 8 true fun s => s.storeCause 3

end Sys2Proof.Machine
end

