-- ==== Sys2Proof/Machine/Monitor.lean ====
section
/-! DEFINITION. Performance seconds, snapshots and bandwidth windows (14 R357 to R364). -/

namespace Sys2Proof.Machine

/-! ### Entities (14 R360): links' near ends 0 to 127, far ends 128 to 255, groups 256 to 319, the mate port 320 -/

def State.pmEnt (s : State) (e : Nat) : PmEntity := Tbl.get {} s.pm.ents e
def State.setPmEnt (s : State) (e : Nat) (v : PmEntity) : State := { s with pm := { s.pm with ents := Tbl.set {} s.pm.ents e v } }

/-- Whether an entity is in service now. -/
def State.pmInService (s : State) (e : Nat) : Bool :=
  if e < 256 then s.gen (e % 128) ≠ 0
  else if e < 320 then (s.group (e - 256)).en
  else s.flag F.mateCfgEn 0

/-- Whether the tick that ends was an errored tick of an entity (14 Table 14-4). -/
def State.pmErrored (s : State) (e : Nat) : Bool :=
  if e < 128 then !(s.rx e).verdictTick || (s.rx e).verdictBad
  else if e < 256 then (s.rx (e - 128)).reiTick
  else if e < 320 then
    let g := e - 256
    s.rd (if s.flag F.protGroupStateSel g then F.protGroupStateSVerdict else F.protGroupStatePVerdict) g ≠ vGood
  else !s.mate.usableNow

/-- Whether an entity has its defect now (14 Table 14-4). -/
def State.pmDefect (s : State) (e : Nat) : Bool :=
  if e < 128 then s.qstate (e / 4) ≠ qUp || s.flag F.linkStateLof e
  else if e < 256 then s.flag F.linkStateRdi (e - 128)
  else if e < 320 then s.flag F.protGroupStatePSf (e - 256) && s.flag F.protGroupStateSSf (e - 256)
  else s.active A.mateLinkDown 0 || !s.flag F.mateStateHbOk 0

/-- PM_LINK_STATE, PM_GROUP_STATE and PM_MATE_STATE as their entity stands (14 R363). -/
def State.pmShow (s : State) (e : Nat) : State :=
  let h := s.pmEnt e
  let put := fun (errs sr ok un : Field) (i : Nat) =>
    (((s.wr errs i h.errs).wr sr i h.sesRun).wr ok i h.okRun).setFlag un i h.unavail
  if e < 128 then put F.pmLinkStateErrTicks F.pmLinkStateSesRun F.pmLinkStateOkRun F.pmLinkStateUnavail e
  else if e < 256 then put F.pmLinkStateFeErrTicks F.pmLinkStateFeSesRun F.pmLinkStateFeOkRun F.pmLinkStateFeUnavail (e - 128)
  else if e < 320 then put F.pmGroupStateErrTicks F.pmGroupStateSesRun F.pmGroupStateOkRun F.pmGroupStateUnavail (e - 256)
  else put F.pmMateStateErrTicks F.pmMateStateSesRun F.pmMateStateOkRun F.pmMateStateUnavail 0

/-- An entity's alarm (14 Table 14-9). -/
def State.pmAlarm (s : State) (e : Nat) (b : Bool) : State :=
  if e < 128 then s.setAlarm A.pmUnavailable e b
  else if e < 256 then s.setAlarm A.pmFeUnavailable (e - 128) b
  else s.setAlarm A.pmUnavailable (e - 128) b

/-- An entity's tick that ends, in the second in progress (14 R360). -/
def State.pmTickEnt (s : State) (e : Nat) : State :=
  let h := s.pmEnt e
  if !s.pmInService e then
    if h.outOfService && h.errs = 0 then s
    else ((s.setPmEnt e { h with outOfService := true, errs := 0, sesRun := 0, okRun := 0, unavail := false }).pmAlarm e false).pmShow e
  else
    let h' := { h with
      errs := h.errs + b2n (s.pmErrored e), defect := h.defect || s.pmDefect e
      nearDefect := h.nearDefect || (128 ≤ e && decide (e < 256) && s.pmDefect (e - 128)) }
    if h' = h then s else (s.setPmEnt e h').pmShow e

/-- Every entity's tick that ends. -/
def State.pmTick (s : State) : State :=
  let s := if s.pm.secStart.isSome then s.eachN 321 fun e s => s.pmTickEnt e else s
  s.eachN 130 fun l s =>
    let r := s.rx l
    if r.verdictTick || r.verdictBad || r.reiTick then
      s.setRx l { r with verdictTick := false, verdictBad := false, reiTick := false } else s

/-! ### Seconds (14 R361 to R364).  A waiting second is its class (0 none, 1 ES, 2 SES, 3 neither with a near-end defect, 4 not judged) plus
8 where it is unavailable time. -/

/-- The last seconds marked unavailable or available, back over `n` of class `p` (those of class 3 between them along with them). -/
def markBack (p : Nat → Bool) (un : Bool) : Nat → List Nat → List Nat
  | _, [] => []
  | 0, l => l
  | n + 1, c :: t =>
    let c' := c % 8 + (if un then 8 else 0)
    if c % 8 = 3 then c' :: markBack p un (n + 1) t
    else if p (c % 8) then c' :: markBack p un n t
    else c :: t

/-- A second of length `n` ended for an entity: its class, runs and availability (14 R361, R362). -/
def PmEntity.close (h : PmEntity) (n : Nat) (judged : Bool) : PmEntity :=
  let base := { h with errs := 0, defect := false, outOfService := false, nearDefect := false }
  let un := if h.unavail then 8 else 0
  if !judged then { base with sesRun := 0, okRun := 0, unavail := false, waiting := h.waiting ++ [4] }
  else if h.nearDefect then { base with waiting := h.waiting ++ [3 + un] }
  else
    let ses := h.defect || decide ((3 * n + 9) / 10 ≤ h.errs)
    let cls := if ses then 2 else if 0 < h.errs then 1 else 0
    let w := h.waiting ++ [cls + un]
    let sr := if ses then bump 10 h.sesRun else 0
    let ok := if ses then 0 else bump 10 h.okRun
    let base := { base with sesRun := sr, okRun := ok }
    if !h.unavail && sr = 10 then
      { base with unavail := true, waiting := (markBack (fun c => c = 2) true 10 w.reverse).reverse }
    else if h.unavail && ok = 10 then
      { base with unavail := false, waiting := (markBack (fun c => c < 2) false 10 w.reverse).reverse }
    else { base with waiting := w }

/-- A second of an entity made final: its counters advance (14 R362, R363). -/
def State.pmFinal (s : State) (e c : Nat) : State :=
  let (es, ses, uas, i) :=
    if e < 128 then (Reg.pmEs, Reg.pmSes, Reg.pmUas, e)
    else if e < 256 then (.pmFeEs, .pmFeSes, .pmFeUas, e - 128)
    else if e < 320 then (.pmGroupEs, .pmGroupSes, .pmGroupUas, e - 256)
    else (.pmMateEs, .pmMateSes, .pmMateUas, 0)
  if c % 8 = 4 then s
  else if 8 ≤ c then s.count uas i
  else if c = 2 then (s.count es i).count ses i
  else if c = 1 then s.count es i
  else s

/-- Seconds of an entity that have become final: those beyond the last `keep`. -/
def State.pmRelease (s : State) (e keep : Nat) : State :=
  let h := s.pmEnt e
  let n := h.waiting.length - keep
  if n = 0 then s
  else (s.each (h.waiting.take n) fun c s => s.pmFinal e c).setPmEnt e { h with waiting := h.waiting.drop n }

/-- Seconds counted as made final, with their interrupt source (14 R363, Table 14-5). -/
def State.pmCountFinal (s : State) (n : Nat) : State :=
  if n = 0 then s else ((((s.countBy .pmSeconds 0 n).setSrc 1 8).setSrc 2 8).irqSync)

/-- An entity's second ended (14 R361 to R363). -/
def State.pmCloseEnt (s : State) (n e : Nat) : State :=
  let h := s.pmEnt e
  let on := s.pmInService e && !h.outOfService
  if !on && h.waiting.isEmpty && !h.unavail then
    if h = {} then s else (s.setPmEnt e {}).pmShow e
  else
    let h' := h.close n on
    (((s.setPmEnt e h').pmAlarm e h'.unavail).pmRelease e 9).pmShow e

/-- The logbook's totals at a second's end (14 Table 14-8; 15 R385). -/
def State.totalsSecond (s : State) : State :=
  let t := s.log.totals
  let tj := s.rdS F.sysTempTj 0
  let bin := if tj < 0 then 0 else min 15 (tj.toNat / 64 + 1)
  let role := match s.rd F.mateStateRole 0 with
    | 0 => if s.flag F.mateCfgEn 0 then 1 else 0
    | 1 => 2 | 2 => 3 | _ => 0
  { s with log := { s.log with totals := { t with
    opSeconds := t.opSeconds + 1, tempHist := Tbl.modify 0 t.tempHist bin (· + 1)
    tstateHist := Tbl.modify 0 t.tstateHist (s.rd F.timStateTstate 0) (· + 1), roleHist := Tbl.modify 0 t.roleHist role (· + 1) } } }

/-- PM_SECOND_END (14 R360 to R363): due at a tick number divisible by 48,000 that began after the second did. -/
def execPmSecondEnd (s : State) : Res :=
  .next <| match s.pm.secStart with
    | some b => s.when (decide (b < s.tick.n) && decide (s.now % 48000 = 0)) fun s =>
        let s := s.eachN 321 fun e s => s.pmCloseEnt (s.tick.n - b) e
        let w := s.pm.waiting + 1
        let s := { s with pm := { s.pm with secStart := some s.tick.n, waiting := min 9 w } }
        (s.pmCountFinal (w - 9)).totalsSecond
    | none => s

/-! ### Bandwidth windows (14 R359) -/

/-- The meters' registers and their instances. -/
def meterRegs : List (Reg × List Nat) :=
  [(.pmBwLinkIn, List.range 128), (.pmBwLinkOut, List.range 128), (.pmBwHostWr, [1, 2]), (.pmBwHostRd, [1, 2]), (.pmBwHostReq, [1, 2]),
   (.pmBwHbmWr, List.range 4), (.pmBwHbmRd, List.range 4), (.pmBwHbmPeak, List.range 4), (.pmBwBusBeats, List.range 26),
   (.pmBwBusWait, List.range 26)]

/-- A window latched at the edge that begins the tick in progress. -/
def State.bwLatch (s : State) : State :=
  let s := s.each meterRegs fun x s => s.each x.2 fun i s =>
    s.setWord x.1 i (BitVec.ofNat 64 (Tbl.get 0 s.pm.meters (meterKey x.1 i) % 2 ^ 48))
  let s := (s.wr F.pmBwLastEndTick 0 s.now).wr F.pmBwLastLength 0 s.pm.bwLen
  let s := s.wr F.pmBwLastSeq 0 (s.rd F.pmBwLastSeq 0 + 1)
  let s := { s with pm := { s.pm with meters := [], bwLen := 0 } }
  ((s.setSrc 1 10).setSrc 2 10).irqSync

/-- Whether a window begins at the present tick number. -/
def State.bwBoundary (s : State) : Bool := s.now % max 1 (s.rd F.pmBwCfgWindow 0) = 0

/-- BW_WINDOW_END (14 R359). -/
def execBwWindowEnd (s : State) : Res :=
  .next <| s.when (s.pm.bwOn && decide (0 < s.pm.bwLen) && s.bwBoundary) State.bwLatch

/-- A write of PM_BW_CFG: refused outside R359's values; a change abandons the window in progress. -/
def State.bwCfg (s : State) (m : Master) (w : Nat) : State :=
  if !(decide (48 ≤ w) && decide (w ≤ 48000) && decide (48000 % w = 0)) then s.errResp m (regAddr .pmBwCfg 0) true .value
  else if s.rd F.pmBwCfgWindow 0 = w then s
  else { (s.wr F.pmBwCfgWindow 0 w) with pm := { s.pm with meters := [], bwLen := 0, bwOn := false } }

/-- PM_BW_CFG_WRITE (14 R359). -/
def execPmBwCfgWrite (m : Master) (w : BitVec 16) (s : State) : Res := .next <| s.byReg m .pmBwCfg 0 8 true fun s => s.bwCfg m w.toNat

/-! ### Snapshots (14 R357, R358) -/

/-- The event counters of 14 Table 14-1. -/
def counterRegs : List Reg :=
  [.laneBringupTry, .laneBringupTimeout, .laneUpLoss, .lanePrbsErr, .lanePrbsBits, .laneAdaptMsgErr, .laneAdaptStep,
   .laneAdaptReject, .laneAdaptFrozen, .laneAdaptTimeout,
   .linkFramesGood, .linkFramesDoubtful, .linkFramesBad, .linkFramesAbsent, .linkHdrErr, .linkTypeErr, .linkOvhCrcErr, .linkPayCrcErr,
   .linkJcCorrected, .linkFmErr, .linkOofEntry, .linkLofEntry, .linkLolEntry, .linkTickJump, .linkTickSubst, .linkReiRx, .linkProtMsgErr,
   .linkMboxErr, .linkUserErr, .linkUserFwdDrop, .linkDiscordEntry, .linkJustRange, .linkWiringEntry] ++
  [.lagElasticOvf, .lagReadLate, .lagPageFail, .lagStackLoss, .lagReleased, .lagMissing, .lagLate, .lagEarly, .lagRepeat, .lagPageBad,
   .lagMarginLow, .protRxReserved, .protRxUnmatched, .protSelP, .protSelS, .protSwitch, .protNoGood, .protBothAbsent, .protDiffer,
   .protCmdRefused, .coreOverrunSlots, .coreClashReads, .corePostClash, .coreResvMirror, .coreResvCtrl, .coreResvScrub, .coreResvTest,
   .coreResvAudit, .coreTicks, .almEpochs, .almEpochMissed, .almCheckReject, .almStageFail, .almAuditPasses, .almAuditMismatch, .almTrims] ++
  [.timSwitches, .timHoldoverEntry, .timFreerunEntry, .timDisputes, .timExchOk, .timExchFail, .timDcoClamp, .timRefDisq,
   .matePromotions, .mateDemotions, .mateSwaps, .mateHbLoss, .mateLinkLoss, .mateFrameUnusable, .mateCmpTicks, .mateCmpMismatch,
   .mateDiscrepancies, .mateMirrored, .mateUnmirrored, .mateMirrorGaps, .mateResyncs, .matePromoteUnsynced,
   .eccCorr, .eccUe, .eccPoison, .eccTestFail, .eccTrackFull, .eccWritebacks, .eccRestores, .eccSumPoisonAll, .eccTestRegions, .eccFuseBad,
   .eccSoftNospare, .hbmCe, .hbmUe, .hbmEcs] ++
  [.busErrResp, .busDefault, .busSplits, .busResets, .busGrants, .busWait, .busCollisions, .busSemForced, .busSemTaken,
   .nvmPrograms, .nvmErases, .nvmVerifyFail, .sysFuncStarts, .pmSeconds, .pmSecondsCut, .pmSnapshots, .pmSnapSkipped, .pmEs, .pmSes, .pmUas,
   .pmFeEs, .pmFeSes, .pmFeUas, .pmGroupEs, .pmGroupSes, .pmGroupUas, .pmMateEs, .pmMateSes, .pmMateUas,
   .logEvbEntries, .logDropped, .logEvbLost, .logEntries, .logStores, .logStoreFail]

/-- The instances of a counter, the mate's among them (15 R388). -/
def counterInstances (r : Reg) : List Nat :=
  let p := r.place
  match p.block with
  | .link => List.range 130
  | .lane => if p.count = 4 then List.range 132 else List.range 33
  | _ => (List.range p.count).map (· + p.first)

/-- Every counter as captured, in rising address order: (address, value) (14 Table 14-2). -/
def snapPairs (regs : Tbl (Tbl Word)) : Tbl Word :=
  (counterRegs.flatMap fun r => (counterInstances r).map fun i =>
    (regAddr r i, Tbl.get r.reset (Tbl.get [] regs r.ctorIdx) i)).foldl (fun t x => Tbl.insert x.1 x.2 t) []

/-- The word that begins a snapshot (14 Table 14-2). -/
def snapMagic : Nat := 0x4E535A4D

/-- A snapshot's bytes (14 Table 14-2). -/
def snapBytes (seq tick kind : Nat) (die : Word) (regs : Tbl (Tbl Word)) : List Byte :=
  let ps := snapPairs regs
  let body := ps.flatMap fun x => toBytes 8 x.1 ++ toBytes 8 x.2.toNat
  let head := toBytes 4 snapMagic ++ toBytes 4 seq ++ toBytes 4 tick ++ toBytes 2 ps.length ++ toBytes 2 kind ++
    toBytes 8 die.toNat ++ toBytes 36 0
  head ++ toBytes 4 (crc32c (head ++ body)).toNat ++ body

/-- A snapshot due at the edge that began the tick in progress, for cause bit `kind`: one for each edge (14 R357, R358). -/
def State.snapshot (s : State) (kind : Nat) : State :=
  let p := s.pm
  if p.snapAt = s.tick.n + 1 then
    match p.snapPending with
    | some (t, k) => if t.toNat = s.now then { s with pm := { p with snapPending := some (t, k ||| kind) } } else s
    | none => s
  else
    let s := { s with pm := { p with snapAt := s.tick.n + 1 } }
    if p.snapPending.isSome || !s.flag F.logStateEvbValid 0 then s.count .pmSnapSkipped 0
    else
      let s := { s with pm := { s.pm with snapPending := some (BitVec.ofNat 32 s.now, kind), snapRegs := s.regs } }
      s.count .pmSnapshots 0

/-- SNAPSHOT_AUTO (14 R357): due at a tick number divisible by 48,000 with AUTO set. -/
def execSnapshotAuto (s : State) : Res :=
  .next <| s.when (s.flag F.pmCtrlAuto 0 && decide (s.now % 48000 = 0)) (·.snapshot 1)

/-- PM_SNAP (14 R357): the snapshot is taken at the next tick edge. -/
def execPmSnap (m : Master) (s : State) : Res := .next <| s.byReg m .pmCtrl 0 8 true fun s => { s with pm := { s.pm with snapReq := true } }

/-- SNAPSHOT_ARMED_TICK (14 R357). -/
def execSnapshotArmedTick (s : State) : Res :=
  .next <| s.when (s.flag F.pmCtrlSnapArm 0 && decide (s.now = s.rd F.pmCtrlSnapTick 0)) fun s =>
    (s.snapshot 4).setFlag F.pmCtrlSnapArm 0 false

/-- The bytes of snapshot `seq` stored in the ring of the stack that holds the event buffer (14 R358). -/
def State.snapStore (s : State) (seq : Nat) (bs : List Byte) : State :=
  let stack := s.rd F.logStateEvbStack 0
  let s := { s with hbm := memWrite bs (stackBase stack + 0x586000000 + 0x40000 * (seq % 128)) s.hbm }
  s.meter .pmBwHbmWr stack bs.length

/-- SNAPSHOT_WRITTEN (14 R358, Table 14-5). -/
def execSnapshotWritten (s : State) : Res :=
  .next <| match s.pm.snapPending with
    | some (t, k) =>
      let seq := s.pm.snapSeq
      let regs := s.pm.snapRegs
      let s := { s with pm := { s.pm with snapPending := none, snapRegs := [] } }
      if !s.flag F.logStateEvbValid 0 then s
      else
        let s := s.snapStore seq (snapBytes seq t.toNat k s.nv.dieId regs)
        let s := { s with pm := { s.pm with snapSeq := (seq + 1) % 2 ^ 32 } }
        let s := (s.wr F.pmSnapStatusSeq 0 seq).wr F.pmSnapStatusTick 0 t.toNat
        ((s.setSrc 1 9).setSrc 2 9).irqSync
    | none => s

/-! ### Tick edges and renumbering -/

/-- What monitoring does as a tick begins: a second and a window begun, a requested snapshot taken (14 R357, R359, R360). -/
def State.pmEdge (s : State) : State :=
  let p := s.pm
  let p := { p with
    secStart := if p.secStart.isNone && s.now % 48000 = 0 then some s.tick.n else p.secStart
    bwLen := if p.bwOn then p.bwLen + 1 else 0 }
  let s := { s with pm := p }
  let s := if !p.bwOn && s.bwBoundary then { s with pm := { s.pm with bwOn := true, bwLen := 0, meters := [] } } else s
  if p.snapReq then ({ s with pm := { s.pm with snapReq := false } }).snapshot 2 else s

/-- An entity at a renumbering: its waiting seconds made final, its runs and the second in progress dropped (14 R364). -/
def State.pmRenumberEnt (s : State) (e : Nat) : State :=
  let s := s.pmRelease e 0
  let h := s.pmEnt e
  if h = {} then s else
  (s.setPmEnt e { h with errs := 0, defect := false, outOfService := false, nearDefect := false, sesRun := 0, okRun := 0 }).pmShow e

/-- A renumbering: the second is abandoned, waiting ones are made final, the window is latched with its length (14 R359, R364). -/
def State.pmRenumber (s : State) : State :=
  let s := s.when s.pm.secStart.isSome (·.count .pmSecondsCut 0)
  let s := s.eachN 321 fun e s => s.pmRenumberEnt e
  let s := s.pmCountFinal s.pm.waiting
  let s := { s with pm := { s.pm with secStart := none, waiting := 0 } }
  let s := s.when (s.pm.bwOn && decide (0 < s.pm.bwLen)) State.bwLatch
  { s with pm := { s.pm with bwOn := false } }

end Sys2Proof.Machine
end

