-- ==== Sys2Proof/Machine/Ecc.lean ====
section
/-! DEFINITION. The commands of memory integrity (11): restores, tracker, transparent test, scrub, fuses, HBM repair. -/

namespace Sys2Proof.Machine

/-! ### What an address word holds (11 Tables 11-1, 11-2) -/

/-- The frame-memory word at a bank and row of class 2: its link and word (06 R126). -/
def framePlace (bank w : Nat) : Nat × Nat :=
  let l := w / 32
  (l, 256 * (w % 32) + (bank % 256 + 256 - l % 256) % 256)

/-- The converter pair whose configurations share a word of bank 24 or 25. -/
def pairOf (bank w : Nat) : Nat := 4 * w + bank % 2

/-- A converter's history word `k` as stored. -/
def UpState.word (u : UpState) (k : Nat) : Nat := field u.bits (64 * k) 64

/-- Whether the word at an address is poisoned, and its data; the buffers and queues of classes 8 and 9 are not modelled word by word (log
entry 14).  A sorus that is marked poisoned holds no pattern in its word (06 R135). -/
def State.heldAt (s : State) (a : Nat) : Bool × Nat :=
  let b := eccBank a
  let w := eccWord a
  match eccMem a with
  | 0 => (false, s.winHeld (.emit ((b % 2 = 1) != s.core.emitHalf) (16384 * (b / 2) + w)))
  | 1 => (false, s.winHeld (.term ((b % 2 = 1) != s.core.sumHalf) (32768 * (b / 4) + 2 * w + b / 2 % 2)))
  | 2 =>
    let (l, x) := framePlace b w
    let f := s.frameImg (b / 256) l
    (decide (f.valid ≤ x) || f.badPages.contains (x / 512), (Tbl.get 0 f.words x).toNat)
  | 3 =>
    let sb := Tbl.get {} s.core.sums (b / 64)
    let x := 64 * w + b % 64
    (false, (Tbl.get 0 sb.sums x).toNat)
  | 4 =>
    let t := Tbl.get [] s.core.bridge (b / 32)
    let x := 32 * w + b % 32
    (false, (Tbl.get 0 t (2 * x)).toNat + (Tbl.get 0 t (2 * x + 1)).toNat * 2 ^ 32)
  | 5 =>
    if b < 24 then (false, (Tbl.get {} s.core.up ((24 * w + b) / 6)).word ((24 * w + b) % 6))
    else if b < 26 then
      let j := pairOf b w
      (false, s.winHeld (.up j) + s.winHeld (.up (j + 2)) * 2 ^ 32)
    else (false, field (Tbl.get {} s.core.down (4 * w + (b - 26) / 8)).bits (64 * ((b - 26) % 8)) 64)
  | 6 => (false, (Tbl.get 0 s.bus.scratch (8192 * b + w)).toNat)
  | 7 => (false, s.ringWord b w)
  | _ => (false, 0)

/-- A background read of the word at an address. -/
def State.readAt (s : State) (a : Nat) : Got × State :=
  let (p, v) := s.heldAt a
  s.sramRead a p v false

/-- The word at an address set to what was decoded from it (an unmended pattern of errors can decode to another word). -/
def State.heldPut (s : State) (a v : Nat) : State :=
  let b := eccBank a
  let w := eccWord a
  let c := s.core
  match eccMem a with
  | 0 => s.winPut (.emit ((b % 2 = 1) != c.emitHalf) (16384 * (b / 2) + w)) v 0 allBits
  | 1 => s.winPut (.term ((b % 2 = 1) != c.sumHalf) (32768 * (b / 4) + 2 * w + b / 2 % 2)) v 0 allBits
  | 2 =>
    let (l, x) := framePlace b w
    let f := s.frameImg (b / 256) l
    let f : FrameImg := { f with words := Tbl.set 0 f.words x (BitVec.ofNat 64 v) }
    { s with core := { c with frames := Tbl.set {} c.frames (128 * (b / 256) + l) f } }
  | 3 =>
    let t := Tbl.get {} c.sums (b / 64)
    let t : SumBuf := { t with sums := Tbl.set 0 t.sums (64 * w + b % 64) (BitVec.ofNat 56 v) }
    { s with core := { c with sums := Tbl.set {} c.sums (b / 64) t } }
  | 4 =>
    let x := 32 * w + b % 32
    let t := Tbl.set 0 (Tbl.set 0 (Tbl.get [] c.bridge (b / 32)) (2 * x) (BitVec.ofNat 32 v)) (2 * x + 1) (BitVec.ofNat 32 (v / 2 ^ 32))
    { s with core := { c with bridge := Tbl.set [] c.bridge (b / 32) t } }
  | 5 =>
    if b < 24 then
      let i := (24 * w + b) / 6
      let u := Tbl.get {} c.up i
      s.setUp i (u.ofBits (putField u.bits (64 * ((24 * w + b) % 6)) 64 v))
    else if b < 26 then
      let j := pairOf b w
      (s.winPut (.up j) (v % 2 ^ 32) 0 allBits).winPut (.up (j + 2)) (v / 2 ^ 32) 0 allBits
    else
      let i := 4 * w + (b - 26) / 8
      let d := Tbl.get {} c.down i
      { s with core := { c with down := Tbl.set {} c.down i (d.ofBits (putField d.bits (64 * ((b - 26) % 8)) 64 v)) } }
  | 6 => { s with bus := { s.bus with scratch := Tbl.set 0 s.bus.scratch (8192 * b + w) (BitVec.ofNat 64 v) } }
  | 7 => { s with core := { c with rings := Tbl.modify [] c.rings b fun t => Tbl.set silentPair t w (BitVec.ofNat 64 v) } }
  | _ => s

/-- The decoded word `d` stored at an address with fresh check bits (11 R283, R290). -/
def State.storeBack (s : State) (a d : Nat) : State :=
  (if d = (s.heldAt a).2 then s else s.heldPut a d).freshWord a

/-- What the word at an address decodes to, where it can be read. -/
def State.decoded (s : State) (a : Nat) : Option Nat :=
  let (p, v) := s.heldAt a
  match eccRead (eccMem a = 0) p v (s.wrongBits a p v (Tbl.get [] s.ecc.damage a)) with
  | .clean d => some d
  | .corrected d _ => some d
  | _ => none

/-! ### The cycles with j mod 8 = 2 (06 R144) -/

/-- Whether the accesses to a word's bank use the core's reserved cycles (06 R144). -/
def State.inCore (s : State) (a : Nat) : Bool :=
  match eccMem a with
  | 0 => s.activeTable a | 1 => s.activeTable a | 2 => true | 3 => true | 4 => true | _ => false

/-- `n` such cycles of a word's bank used in the tick in progress. -/
def State.scrubCycles (s : State) (a n : Nat) : State :=
  { s with ecc := { s.ecc with busy := Tbl.modify 0 s.ecc.busy (a / 2 ^ 14) (· + n) } }

/-- The tick's cycles counted, one however many banks it accessed (06 R148); restores, write-backs and scrub take the tick's earliest ones. -/
def State.scrubCount (s : State) : State :=
  let n := (s.ecc.busy.filter fun e => s.inCore (e.1 * 2 ^ 14)).foldl (fun m e => max m e.2) 0
  { (s.countBy .coreResvScrub 0 n) with ecc := { (s.countBy .coreResvScrub 0 n).ecc with busy := [] } }

/-! ### Restores of table words (11 R288) -/

/-- The source slot of an active word's half: the slot active before a swap until the half has followed it. -/
def State.restoreSlot (s : State) (a : Nat) : Nat :=
  let stage := s.alm.swapStage
  let old := s.estate = eSwapping && ((eccMem a = 0 && decide (stage < 2)) || (eccMem a = 1 && decide (stage < 1)))
  if old then s.alm.oldSlot else s.rd F.almStateActiveSlot 0

/-- The word stays bad: TABLE_UE_PERSIST (11 R288, R305). -/
def State.restoreFail (s : State) (a : Nat) : State :=
  let s := { s with ecc := { s.ecc with restores := s.ecc.restores.filter (·.1 ≠ a), persist := s.ecc.persist ++ [a] } }
  (s.setFlag F.eccStatusPersist 0 true).raise A.tableUePersist 0

/-- The restore cycles of a sum term, and of an emit entry. -/
def termCycles : List Nat := (List.range 8).map fun k => 191 + 512 * k
def emitCycles : List Nat := (List.range 61).map fun k => 191 + 512 * k

/-- The first of `cycles` in which no edit of this tick takes the bank, `bankOf` giving an edit's bank. -/
def freeCycle (cycles : List Nat) (edits : List TableEdit) (bankOf : Nat → Nat) (bank : Nat) : Option Nat :=
  cycles.find? fun c => !edits.any fun e => decide (e.cycle = c) && decide (bankOf e.index = bank)

/-- A restore made: counted, the word clean. -/
def State.restoreDone (s : State) (a : Nat) : State :=
  let s := (s.fullWrite a).count .eccRestores 0
  { s with ecc := { s.ecc with restoredAt := s.tick.n + 1 } }

/-- TRIM_LOST (11 R288). -/
def State.trimLost (s : State) : State := (s.setFlag F.eccStatusTrimLost 0 true).raise A.trimLost 0

/-- A sum term restored at cycle `c`, and its partners' OWNGAIN in cycle 30,911. -/
def State.restoreTerm (s : State) (a i v c : Nat) : State :=
  let s := (s.winPut (.term false i) v c allBits).restoreDone a
  (s.each (s.partners i) fun e s => (s.gainWrite (.emit false e) 9 (field v 12 12) 30911).2).trimLost

/-- An emit entry restored at cycle `c`: a MINUS entry's OWNGAIN from its partner term. -/
def State.restoreEntry (s : State) (a i v c : Nat) : State :=
  let v := if entryOp v = opMinus then
      match s.alm.active.trims.find? fun t => decide (t.2 = i) with
      | some t => putField v 9 12 (field (s.winHeld (.term false t.1)) 12 12)
      | none => v
    else v
  let op := entryOp v
  ((s.winPut (.emit false i) v c allBits).restoreDone a).when (op = opCopy || op = opSum || op = opMinus) (·.trimLost)

/-- The configurations of a converter pair restored at the tick edge, their histories cleared. -/
def State.restoreConv (s : State) (a slot : Nat) : State :=
  let t := s.imageConv slot
  let j := pairOf (eccBank a) (eccWord a)
  let s := (s.winPut (.up j) (Tbl.get 0 t j).toNat 0 allBits).winPut (.up (j + 2)) (Tbl.get 0 t (j + 2)).toNat 0 allBits
  let s := { s with core := { s.core with up := Tbl.erase j (Tbl.erase (j + 2) s.core.up) } }
  s.restoreDone a

/-- A restore due in this tick carried out, or put off to the next where no cycle is free. -/
def State.restore (s : State) (a : Nat) : State :=
  let slot := s.restoreSlot a
  let b := eccBank a
  let w := eccWord a
  match eccMem a with
  | 0 =>
    let i := 16384 * (b / 2) + w
    match freeCycle emitCycles s.core.emitEdits (fun x => x / 16384) (b / 2) with
    | some c => (s.scrubCycles a 1).restoreEntry a i (Tbl.get 0 (s.imageEmit slot) i).toNat c
    | none => s
  | 1 =>
    let i := 32768 * (b / 4) + 2 * w + b / 2 % 2
    match freeCycle termCycles s.core.termEdits (fun x => 2 * (x / 32768) + x % 2) (b / 2) with
    | some c => (s.scrubCycles a 1).restoreTerm a i (Tbl.get 0 (s.imageTerms slot) i).toNat c
    | none => s
  | _ => s.restoreConv a slot

/-- TABLE_RESTORE (11 R288): due from the second tick after the detection. -/
def execTableRestore (addr : BitVec 32) (readFails : Bool) (s : State) : Res :=
  .next <|
    let a := addr.toNat
    match s.ecc.restores.find? fun r => decide (r.1 = a) with
    | none => s
    | some r =>
      if s.tick.n < r.2 + 2 then s
      else if !s.activeTable a then { s with ecc := { s.ecc with restores := s.ecc.restores.filter (·.1 ≠ a) } }
      else
        let s := s.when readFails (·.libraryUncorrected (s.restoreSlot a))
        let st := s.slotState (s.restoreSlot a)
        if readFails || st = slotLost || st = slotEmpty then s.restoreFail a else s.restore a

/-! ### The tracker (11 R290, R291) -/

/-- A write-back's read of a static word: what it decodes to waits for its write; a UE cancels it (11 R290). -/
def State.writebackRead (s : State) (n a : Nat) : State :=
  match (s.scrubCycles a 1).readAt a with
  | (.data d, s) => { s with ecc := { s.ecc with writeback := s.ecc.writeback ++ [(n, d)] } }
  | (_, s) => s

/-- TRACKER_THRESHOLD (11 R290): a COUNTING entry that has reached the threshold. -/
def execTrackerThreshold (n : TrackId) (s : State) : Res :=
  .next <| s.when (s.rd F.eccTrackState n = 1 && decide (max 1 (s.rd F.eccTrackCfgThreshold 0) ≤ s.rd F.eccTrackCount n)) fun s =>
    let a := s.rd F.eccTrackAddr n
    if !classStatic (eccMem a) then s.trackerHard n
    else if s.ecc.writeback.any fun w => w.1 = n.val then s
    else s.writebackRead n a

/-- The corrected word written: a partial write since the read has stored a word of its own, which stays. -/
def State.writebackDo (s : State) (n a d : Nat) : State :=
  let s := (s.scrubCycles a 1).storeBack a ((s.decoded a).getD d)
  let s := (s.wr F.eccTrackState n 2).wr F.eccTrackCount n 0
  ({ s with ecc := { s.ecc with written := Tbl.set 0 s.ecc.written n s.tick.n } }).count .eccWritebacks 0

/-- TRACKER_WRITEBACK (11 R290): the corrected word is written, unless a full-word write has cancelled it. -/
def execTrackerWriteback (n : TrackId) (s : State) : Res :=
  .next <| match s.ecc.writeback.find? fun w => w.1 = n.val with
    | some w =>
      ({ s with ecc := { s.ecc with writeback := s.ecc.writeback.filter fun x => x.1 ≠ n.val } }).writebackDo n (s.rd F.eccTrackAddr n) w.2
    | none => s

/-- TRACKER_ENTRY_FREE (11 R290): 24 hours without a correction. -/
def execTrackerEntryFree (n : TrackId) (s : State) : Res :=
  .next <| s.when (s.rd F.eccTrackState n = 2 && decide (Tbl.get 0 s.ecc.written n + 4147200000 ≤ s.tick.n)) fun s =>
    s.setWord .eccTrack n 0

/-! ### The transparent test (11 R292 to R296) -/

/-- A march mismatch (11 R296). -/
def State.testFail (s : State) (a b : Nat) : State :=
  let s := (s.count .eccTestFail (eccMem a)).wr F.eccTestStatusLastFail 0 a
  let s := (s.setFlag F.eccStatusTestFail 0 true).raise A.testFail 0
  let known := (List.range 64).any fun n => s.rd F.eccTrackState n = 3 && s.rd F.eccTrackAddr n = a && s.rd F.eccTrackBit n = b
  if known then s else
  let s := match trackWith fun n => s.rd F.eccTrackState n = 0 with
    | some n =>
      let s := s.setWord .eccTrack n (BitVec.ofNat 64 (a + 3 * 2 ^ 40 + b * 2 ^ 42))
      (s.setFlag F.eccStatusHard 0 true).raise A.eccHardCandidate 0
    | none => s
  s.hardCandidate a b 1

/-- A word of the region saved: a correctable one corrected, and counted; a UE or poison exactly as it was read (11 R293). -/
def State.testSave (s : State) (a : Nat) : State :=
  let (p, v) := s.heldAt a
  let bits := s.wrongBits a p v (Tbl.get [] s.ecc.damage a)
  match s.readAt a with
  | (.data d, s) => s.storeBack a d
  | (_, s) => { s with ecc := { s.ecc with damage := Tbl.set [] s.ecc.damage a bits } }

/-- The march's accesses of the tick that ends, from number `k` on: words saved, stuck cells found by the reads that expect their complement (11 R293,
R294; 06 R144). -/
def State.testTick (s : State) : State :=
  match s.marchAt with
  | none => s
  | some k =>
    let now := fun i => decide (k ≤ i) && decide (i < k + marchPerTick)
    let region := s.marred.filter (underTest s.ecc.testRegion)
    let s := s.countBy .coreResvTest 0 (min marchPerTick (marchLength - k))
    let s := s.each (region.filter fun a => now (eccWord a % 64)) fun a s => s.testSave a
    s.each region fun a s =>
      s.each (Tbl.get [] s.ecc.stuck a) fun c s =>
        s.each ((marchReads (eccWord a % 64)).filter fun r => r.2 && now r.1) fun _ s => s.testFail a c.1

/-- A code-word bit flipped at the beginning of the tick that ends, a second flip puts it right; in a region under test the array holds the march's
patterns, and the next read that compares finds it (11 R293, R294). -/
def State.upset (s : State) (a b : Nat) : State :=
  if !(addrOk a && decide (b < codeBits (eccMem a))) then s
  else if s.inLive a then
    s.when ((marchReads (eccWord a % 64)).any fun r => decide (s.marchAt.getD 0 ≤ r.1)) (·.testFail a b)
  else
    let l := Tbl.get [] s.ecc.damage a
    { s with ecc := { s.ecc with damage := Tbl.set [] s.ecc.damage a (if l.contains b then l.filter (· ≠ b) else l ++ [b]) } }

/-- A cell stuck at a value from now on (11 R299). -/
def State.cellStuck (s : State) (a b : Nat) (v : Bool) : State :=
  if !(addrOk a && decide (b < codeBits (eccMem a))) then s
  else
    let put := fun (t : Tbl (List (Nat × Bool))) => Tbl.modify [] t a fun l => (l.filter (·.1 ≠ b)) ++ [(b, v)]
    let s := { s with ecc := { s.ecc with stuck := put s.ecc.stuck } }
    { s with nv := { s.nv with stuck := put s.nv.stuck } }

/-- TEST_STEP_START (11 R292 to R296): `fails` are the march's mismatches at faults other than stuck cells, as (address word, code-word bit), taken at
the step's start. -/
def execTestStepStart (fails : List (BitVec 32 × Nat)) (s : State) : Res :=
  .next <|
    let st := s.rd F.eccTestStatusStep 0
    let due := (s.ecc.testNow ≠ 0 && decide (s.ecc.testNow ≤ s.tick.n)) || decide (s.rd F.eccTestCfgInterval 0 ≤ s.ecc.testWait)
    s.when (due && s.ecc.testSince.isNone && s.rd F.sysFuncStateState 37 = 2) fun s =>
      let s := { s with ecc := { s.ecc with testNow := 0, testWait := 0, testSince := some s.tick.n, testRegion := st } }
      let s := s.setFlag F.eccTestStatusBusy 0 true
      s.each (fails.filter fun f => underTest st f.1.toNat) fun f s => s.testFail f.1.toNat f.2

/-- Banks of all classes. -/
def allBanks : Nat := (List.range 10).foldl (fun a m => a + classBanks m) 0

/-- TEST_STEP_END (11 R292, R294): 12 ticks, 704 reserved cycles. -/
def execTestStepEnd (s : State) : Res :=
  .next <| match s.ecc.testSince with
    | some n => s.when (decide (n + 12 ≤ s.tick.n)) fun s =>
        let s := { s with ecc := { s.ecc with testSince := none } }
        let s := (s.setFlag F.eccTestStatusBusy 0 false).wr F.eccTestStatusStep 0 (s.rd F.eccTestStatusStep 0 + 1)
        s.countBy .eccTestRegions 0 allBanks
    | none => s

/-- NOW written 1: a step starts at the next tick edge. -/
def State.testNow (s : State) : State := { s with ecc := { s.ecc with testNow := s.tick.n + 1 } }

/-- ECC_TEST_NOW (11 R292). -/
def execEccTestNow (m : Master) (s : State) : Res :=
  .next <| s.byReg m .eccTestCfg 0 8 true fun s => s.expertOnly m (regAddr .eccTestCfg 0) fun s => s.testNow

/-! ### Scrub (11 R297, R298) -/

/-- A pass ended with ERR `e`. -/
def State.scrubFinish (s : State) (e : Nat) : State :=
  let s := { s with ecc := { s.ecc with scrub := none } }
  ((s.setFlag F.eccScrubStatusBusy 0 false).setFlag F.eccScrubStatusDone 0 true).wr F.eccScrubStatusErr 0 e

/-- START of a pass with the command's settings (11 R297, R298). -/
def State.scrubBegin (s : State) : State :=
  if s.flag F.eccScrubStatusBusy 0 then s else
  let s := s.eachN 5 fun k s => s.setWord .eccScrubSum k 0
  let s := (s.eachN 64 fun k s => s.setWord .eccScrubUe k 0).setWord .eccScrubStatus 0 0
  let mem := s.rd F.eccScrubCmdMem 0
  let cnt := s.rd F.eccScrubCmdBankCount 0
  let all := classBanks mem
  let first := if cnt = 0 then 0 else s.rd F.eccScrubCmdBankFirst 0
  let n := if cnt = 0 then all else cnt
  if all = 0 || decide (all < first + n) then s.scrubFinish 1
  else ({ s with ecc := { s.ecc with
    scrub := some ⟨s.tick.n, mem, first, n, s.flag F.eccScrubCmdMode 0, [], []⟩ } }).setFlag F.eccScrubStatusBusy 0 true

/-- ABORT (11 R297). -/
def State.scrubAbort (s : State) : State := if s.flag F.eccScrubStatusBusy 0 then s.scrubFinish 2 else s

/-- A summary value advanced: 0 WORDS, 1 CORR, 2 WRITTEN, 3 UE, 4 POISON. -/
def State.scrubSum (s : State) (k n : Nat) : State := s.setWord .eccScrubSum k (s.word .eccScrubSum k + BitVec.ofNat 64 n)

/-- A UE or poisoned word listed while fewer than 64 are (11 R298). -/
def State.scrubList (s : State) (a : Nat) : State :=
  let n := s.rd F.eccScrubStatusListed 0
  if 64 ≤ n then s
  else (s.setWord .eccScrubUe n (BitVec.ofNat 64 (a + s.now * 2 ^ 32))).wr F.eccScrubStatusListed 0 (n + 1)

/-- One word read by the pass; true where it was corrected (11 R297, R298). -/
def State.scrubWord (s : State) (a : Nat) : Bool × State :=
  let (p, v) := s.heldAt a
  if !p && (s.wrongBits a p v (Tbl.get [] s.ecc.damage a)).isEmpty then (false, s) else
  match s.readAt a with
  | (.data _, s) => (true, s.scrubSum 1 1)
  | (.ue, s) => (false, (s.scrubSum 3 1).scrubList a)
  | (.poison, s) => (false, (s.scrubSum 4 1).scrubList (a + 2 ^ 28))

/-- A corrected word written back in a later cycle, unless it has been written full-word since, or cannot be read any more (11 R290, R297). -/
def State.scrubFix (s : State) (a : Nat) : State :=
  if (Tbl.get [] s.ecc.damage a).isEmpty && (Tbl.get [] s.ecc.stuck a).isEmpty then s
  else match s.decoded a with
    | some d => ((s.storeBack a d).when (classStatic (eccMem a)) (·.fullWrite a)).scrubSum 2 1
    | none => s

/-- A bank's part of a pass: words read, the corrected word that waits for its write-back plus 1, cycles used. -/
structure BankRun where
  done : Nat
  fix : Nat
  used : Nat
  deriving DecidableEq, Repr

/-- A bank's next cycles: a waiting write-back first, else the next word (11 R297). -/
def State.scrubBank (mem bank : Nat) (correct : Bool) : Nat → BankRun → State → BankRun × State
  | 0, r, s => (r, s)
  | n + 1, r, s =>
    if r.fix ≠ 0 then State.scrubBank mem bank correct n ⟨r.done, 0, r.used + 1⟩ (s.scrubFix (eccAddr mem bank (r.fix - 1)))
    else if r.done < bankWords mem bank then
      let x := s.scrubWord (eccAddr mem bank r.done)
      State.scrubBank mem bank correct n ⟨r.done + 1, if correct && x.1 then r.done + 1 else 0, r.used + 1⟩ x.2
    else (r, s)

/-- The pass's cycles in the tick that ends, 61 of each bank but for those that restores and write-backs took (11 R288, R290, R297). -/
def State.scrubTick (s : State) : State :=
  match s.ecc.scrub with
  | none => s
  | some r =>
    if s.tick.n ≤ r.since then s else
    let x := iter (fun bank (acc : ScrubRun × State) =>
      let a := eccAddr r.mem bank 0
      let was : BankRun := ⟨Tbl.get 0 acc.1.done bank, Tbl.get 0 acc.1.fixes bank, 0⟩
      let y := State.scrubBank r.mem bank r.correct (61 - Tbl.get 0 acc.2.ecc.busy (a / 2 ^ 14)) was acc.2
      ({ acc.1 with done := Tbl.set 0 acc.1.done bank y.1.done, fixes := Tbl.set 0 acc.1.fixes bank y.1.fix },
        (y.2.scrubCycles a y.1.used).scrubSum 0 (y.1.done - was.done))) r.first r.count (r, s)
    { x.2 with ecc := { x.2.ecc with scrub := some x.1 } }

/-- SCRUB_START (11 R297): `cmd` is the word written to ECC_SCRUB_CMD. -/
def execScrubStart (m : Master) (cmd : BitVec 64) (s : State) : Res :=
  .next <| s.byReg m .eccScrubCmd 0 8 true fun s => (s.setWord .eccScrubCmd 0 (BitVec.ofNat 64 (Reg.stored .eccScrubCmd 0 cmd.toNat))).scrubBegin

/-- SCRUB_ABORT (11 R297). -/
def execScrubAbort (m : Master) (s : State) : Res := .next <| s.byReg m .eccScrubCmd 0 8 true fun s => s.scrubAbort

/-- Whether a pass has read every word and written back what it corrected. -/
def ScrubRun.over (r : ScrubRun) : Bool :=
  (List.range r.count).all fun j =>
    decide (bankWords r.mem (r.first + j) ≤ Tbl.get 0 r.done (r.first + j)) && Tbl.get 0 r.fixes (r.first + j) = 0

/-- SCRUB_PASS_END (11 R297): every word has been read. -/
def execScrubPassEnd (s : State) : Res :=
  .next <| match s.ecc.scrub with
    | some r => s.when r.over (·.scrubFinish 0)
    | none => s

/-! ### Fuses and soft repairs (11 R299 to R301) -/

/-- A spare in use: column or row, class, bank, index. -/
structure Repair where
  column : Bool
  mem : Nat
  bank : Nat
  index : Nat
  deriving DecidableEq, Repr

/-- Whether an entry has odd parity (11 Table 11-6). -/
def fuseParityOk (e : Nat) : Bool := parity 32 e

/-- What an entry asks for, where its fields are in range. -/
def fuseRepair (e : Nat) : Option Repair :=
  let col := bit e 29
  let mem := field e 25 4
  let bank := field e 15 10
  let idx := field e 0 15
  if decide (bank < classBanks mem) && decide (idx < if col then codeBits mem else bankWords mem bank / 16) then some ⟨col, mem, bank, idx⟩
  else none

/-- Whether a spare of the repair's type is free in its bank. -/
def Repair.fits (r : Repair) (used : List Repair) : Bool :=
  decide ((used.filter fun u => u.column = r.column && u.mem = r.mem && u.bank = r.bank).length < 2)

/-- Whether a repair takes the place of a cell. -/
def Repair.covers (r : Repair) (a b : Nat) : Bool :=
  decide (r.mem = eccMem a) && decide (r.bank = eccBank a) && decide (r.index = if r.column then b else eccWord a / 16)

/-- The fuse map applied in address order, the factory area first: the repairs made and the entries ignored (11 R300). -/
def fuseApply : List Nat → List Repair → Nat → List Repair × Nat
  | [], used, bad => (used, bad)
  | e :: es, used, bad =>
    if e = 0 then fuseApply es used bad
    else if !fuseParityOk e then fuseApply es used (bad + 1)
    else if !bit e 31 then fuseApply es used bad
    else match fuseRepair e with
      | some r => if r.fits used then fuseApply es (used ++ [r]) bad else fuseApply es used (bad + 1)
      | none => fuseApply es used (bad + 1)

/-- The entry of a repair (11 Table 11-6). -/
def Repair.entry (r : Repair) : Nat :=
  let e := r.index + r.bank * 2 ^ 15 + r.mem * 2 ^ 25 + b2n r.column * 2 ^ 29 + 2 ^ 31
  if parity 32 e then e else e + 2 ^ 30

/-- The soft repair of one candidate: the spare it takes, if any (11 R301). -/
def softRepair (cands : List (BitVec 32 × Nat)) (used : List Repair) (a b : Nat) : Option Repair :=
  let col : Repair := ⟨true, eccMem a, eccBank a, b⟩
  let row : Repair := ⟨false, eccMem a, eccBank a, eccWord a / 16⟩
  let same := (cands.filter fun c => eccMem c.1.toNat = eccMem a && eccBank c.1.toNat = eccBank a && c.2 = b).length
  if 3 ≤ same && col.fits used then some col
  else if row.fits used then some row
  else if col.fits used then some col
  else none

/-- A candidate left without a spare: counted, logged; the cause in its entry is open (11 R301; 14 Table 14-7; log entry 3). -/
def State.softMiss (s : State) (a b : Nat) : State :=
  let (w, s) := (s.count .eccSoftNospare 0).takeFree
  s.logEvent 0x20 0 a b w.toNat true

/-- The stuck cells that the spares in use do not replace (11 R299). -/
def State.cellsLeft (s : State) (used : List Repair) : State :=
  let left := s.nv.stuck.filterMap fun e =>
    let l := e.2.filter fun c => !used.any fun r => r.covers e.1 c.1
    if l.isEmpty then none else some (e.1, l)
  { s with ecc := { s.ecc with stuck := left } }

/-- The logbook's candidates soft-repaired, oldest first, and listed in ECC_SOFT (11 R301). -/
def State.softRepairs (s : State) (used : List Repair) : State :=
  let cands := s.log.totals.cands.filter fun c => !used.any fun r => r.covers c.1.toNat c.2
  let x := cands.foldl (fun (acc : List Repair × Nat × State) c =>
    let (used, n, s) := acc
    let a := c.1.toNat
    if used.any fun r => r.covers a c.2 then acc
    else match softRepair cands used a c.2 with
      | some r => (used ++ [r], n + 1, s.setWord .eccSoft n (BitVec.ofNat 64 (r.entry + 2 ^ 32)))
      | none => (used, n, s.softMiss a c.2)) (used, 0, s)
  x.2.2.cellsLeft x.1

/-- The first blank location of the field area, if one is left. -/
def State.blankFuse (s : State) : Option Nat := (List.range 1024).find? fun e => Tbl.get 0 s.nv.fieldMap e = 0

/-- FIELD_USED as the field area stands. -/
def State.fieldUsed (s : State) : State := s.wr F.eccFuseStatusFieldUsed 0 ((List.range 1024).filter fun e => Tbl.get 0 s.nv.fieldMap e ≠ 0).length

/-- BURN of the entry in ECC_FUSE_CMD; ignored while one runs (11 R301). -/
def State.fuseBurn (s : State) : State :=
  let e := s.rd F.eccFuseCmdEntry 0
  if s.flag F.eccFuseStatusBusy 0 then s
  else if !(bit e 31 && fuseParityOk e && (fuseRepair e).isSome) then s.wr F.eccFuseStatusResult 0 3
  else if s.blankFuse.isNone then s.wr F.eccFuseStatusResult 0 2
  else
    let s := (s.setFlag F.eccFuseStatusBusy 0 true).wr F.eccFuseStatusResult 0 0
    { s with ecc := { s.ecc with burn := some (BitVec.ofNat 32 e) } }

/-- FUSE_BURN (11 R301, Table 11-10; expert). -/
def execFuseBurn (m : Master) (entry : BitVec 32) (s : State) : Res :=
  .next <| s.byReg m .eccFuseCmd 0 8 true fun s => s.expertOnly m (regAddr .eccFuseCmd 0) fun s => (s.wr F.eccFuseCmdEntry 0 entry.toNat).fuseBurn

/-- The next blank location holds `v`. -/
def State.fuseSet (s : State) (v : BitVec 32) : State :=
  match s.blankFuse with
  | some n => ({ s with nv := { s.nv with fieldMap := Tbl.set 0 s.nv.fieldMap n v } }).fieldUsed
  | none => s

/-- FUSE_BURN_DONE (11 R301; 14 Table 14-7): `readBack` is what the location reads after the burn. -/
def execFuseBurnDone (readBack : BitVec 32) (s : State) : Res :=
  .next <| match s.ecc.burn with
    | some e =>
      let s := ({ s with ecc := { s.ecc with burn := none } }).fuseSet readBack
      let r := if readBack = e then 1 else 4
      ((s.setFlag F.eccFuseStatusBusy 0 false).wr F.eccFuseStatusResult 0 r).logEvent 0x23 0 e.toNat r 0 true
    | none => s

/-! ### HBM repair and scrub counts (11 R302 to R304) -/

/-- GO for the candidate in HBM_REPAIR_CMD; ignored while a repair runs (11 R304). -/
def State.hbmRepair (s : State) : State :=
  let n := s.rd F.hbmRepairCmdCand 0
  if s.flag F.hbmRepairStatusBusy 0 then s
  else if !s.flag F.hbmCandValid n then s.wr F.hbmRepairStatusResult 0 5
  else if !s.stackLost (s.rd F.hbmCandStack n) then s.wr F.hbmRepairStatusResult 0 4
  else
    let s := (s.setFlag F.hbmRepairStatusBusy 0 true).wr F.hbmRepairStatusResult 0 0
    { s with ecc := { s.ecc with repair := some n } }

/-- HBM_REPAIR_GO (11 R304, Table 11-12; expert). -/
def execHbmRepairGo (m : Master) (cand : CandId) (s : State) : Res :=
  .next <| s.byReg m .hbmRepairCmd 0 8 true fun s => s.expertOnly m (regAddr .hbmRepairCmd 0) fun s => (s.wr F.hbmRepairCmdCand 0 cand.val).hbmRepair

/-- HBM_REPAIR_DONE (11 R304; 14 Table 14-7). -/
def execHbmRepairDone (res : RepairResult) (s : State) : Res :=
  .next <| match s.ecc.repair with
    | some n =>
      let s := { s with ecc := { s.ecc with repair := none } }
      let r := match res with | .done => 1 | .noSpare => 2 | .failed => 3
      let s := s.when (r = 1) (·.setFlag F.hbmCandRepaired n true)
      ((s.setFlag F.hbmRepairStatusBusy 0 false).wr F.hbmRepairStatusResult 0 r).logEvent 0x23 0 n r 0 true
    | none => s

/-- HBM_ECS_READ (11 R302): at a tick number divisible by 48,000, once. -/
def execHbmEcsRead (counts : List Nat) (s : State) : Res :=
  .next <| s.when (s.now % 48000 = 0 && s.ecc.ecsAt ≠ s.tick.n + 1) fun s =>
    let s := { s with ecc := { s.ecc with ecsAt := s.tick.n + 1 } }
    s.eachN 4 fun k s => s.countBy .hbmEcs k (counts.getD k 0)

/-! ### Alarms cleared (11 Table 11-7) -/

/-- ECC_UE_CLEAR. -/
def execEccUeClear (m : Master) (s : State) : Res :=
  .next <| s.byReg m .eccStatus 0 8 true fun s => (s.setFlag F.eccStatusUe 0 false).clear A.eccUe 0

/-- ECC_HARD_CLEAR. -/
def execEccHardClear (m : Master) (s : State) : Res :=
  .next <| s.byReg m .eccStatus 0 8 true fun s => (s.setFlag F.eccStatusHard 0 false).clear A.eccHardCandidate 0

/-- ECC_TEST_FAIL_CLEAR. -/
def execEccTestFailClear (m : Master) (s : State) : Res :=
  .next <| s.byReg m .eccStatus 0 8 true fun s => (s.setFlag F.eccStatusTestFail 0 false).clear A.testFail 0

/-- ECC_TRACK_FULL_CLEAR. -/
def execEccTrackFullClear (m : Master) (s : State) : Res :=
  .next <| s.byReg m .eccStatus 0 8 true fun s => (s.setFlag F.eccStatusTrackFull 0 false).clear A.eccTrackFull 0

/-- TRIM_LOST_CLEAR. -/
def execTrimLostClear (m : Master) (s : State) : Res :=
  .next <| s.byReg m .eccStatus 0 8 true fun s => (s.setFlag F.eccStatusTrimLost 0 false).clear A.trimLost 0

end Sys2Proof.Machine
end

