-- ==== Sys2Proof/Machine/Func.lean ====
section
/-! DEFINITION. Function states (13 R350, R351). -/

namespace Sys2Proof.Machine

/-- STATE codes of 13 Table 13-11. -/
abbrev fOff : Nat := 0
abbrev fStarting : Nat := 1
abbrev fOn : Nat := 2
abbrev fStopping : Nat := 3

def State.fstate (s : State) (f : Nat) : Nat := s.rd F.sysFuncStateState f

/-- A function's state changed in the tick in progress; a start is counted (13 Tables 13-11, 13-12). -/
def State.setFstate (s : State) (f st : Nat) : State :=
  let s := (s.wr F.sysFuncStateState f st).wr F.sysFuncStateSince f s.now
  if st = fStarting then s.count .sysFuncStarts f else s

/-- A function enabled whose start takes no time: OFF and STOPPING to ON (see log entry 15). -/
def State.funcOn (s : State) (f : Nat) : State :=
  let s := s.setFlag F.sysFuncStateEnable f true
  if s.fstate f = fOn then s
  else (((s.setFstate f fStarting).setFstate f fOn).setFlag F.sysFuncStatePending f false).setFlag F.sysFuncStateStopReq f false

/-- An enable (13 R351). -/
def State.funcEnable (s : State) (f : Nat) : State :=
  let s := s.setFlag F.sysFuncStateEnable f true
  let s := { s with boot := { s.boot with want := Tbl.erase f s.boot.want } }
  let st := s.fstate f
  if st = fStopping || (st = fStarting && s.flag F.sysFuncStateStopReq f) then s.setFlag F.sysFuncStatePending f true
  else if st = fOff then s.setFstate f fStarting
  else s

/-- An enable that the next FUNC_ENABLE of the function takes, such as a RESTORE (13 R351). -/
def State.funcWant (s : State) (f : Nat) : State := { s with boot := { s.boot with want := Tbl.set false s.boot.want f true } }

/-- A disable, or the function's fault, for LAST_STOP `cause` 1 or 3 (13 R351, Table 13-11). -/
def State.funcDisable (s : State) (f cause : Nat) : State :=
  let s := s.setFlag F.sysFuncStateEnable f false
  let st := s.fstate f
  if st = fOn then (s.wr F.sysFuncStateLastStop f cause).setFstate f fStopping
  else if st = fStarting then (s.setFlag F.sysFuncStateStopReq f true).setFlag F.sysFuncStatePending f false
  else s.setFlag F.sysFuncStatePending f false

end Sys2Proof.Machine
end

