-- ==== Sys2Proof/Machine/Mate.lean ====
section
/-! DEFINITION. The lichen pair's operations (10): roles, mate frames, heartbeat, comparison, joining and resynchronisation. -/

namespace Sys2Proof.Machine

/-! ### State (10 Table 10-11) -/

/-- SYNC codes of 10 Table 10-2. -/
abbrev syncSyncing : Nat := 0
abbrev syncSettling : Nat := 1
abbrev syncSynced : Nat := 2

/-- Whether the unit is one of a pair: MATE_CFG.EN as the last tick edge found it (10 R243, R252). -/
def State.paired (s : State) : Bool := s.tick.begun && decide (s.role ≠ roleUnpaired)
def State.sync (s : State) : Nat := s.rd F.mateStateSync 0
def State.setSync (s : State) (v : Nat) : State := s.wr F.mateStateSync 0 v
def State.withheld (s : State) : Bool := s.flag F.mateStateWithheld 0
def State.hbSeen (s : State) : Bool := s.flag F.mateStateHbOk 0

/-- Whether the unit withholds its payload (10 R253). -/
def State.withholding (s : State) : Bool :=
  s.paired && (s.role = roleJoining || s.withheld ||
    (s.role = roleVigil && (s.sync ≠ syncSynced || !s.flag F.mateCfgVigilMode 0)))

/-- Fields of the mate's last usable status word (10 Table 10-2). -/
def State.mateRole (s : State) : Nat := field (s.mateSlot 0) 0 2
def State.mateRank (s : State) : Bool := bit (s.mateSlot 0) 2
def State.mateSync (s : State) : Nat := field (s.mateSlot 0) 5 2

/-! ### Roles (10 R252, R255, R258) -/

/-- The row of 10 Table 10-3 of a change from one role to another. -/
def roleRow (old new : Nat) : Nat :=
  if new = roleJoining then 1
  else if old = roleJoining then (if new = roleVigil then 2 else 3)
  else if new = roleActive then 4 else 5

/-- A role entered at the tick edge that began the tick in progress; the frames that decide about the next change are those read from now on (10
R252, R255; 14 Table 14-7; DEDUCED, log entry 41). -/
def State.enterRole (s : State) (r : Nat) : State :=
  let s := { s with mate := { s.mate with status := [] } }
  let old := s.role
  let unsynced := old = roleVigil && s.sync ≠ syncSynced
  let s := ((s.wr F.mateStateRole 0 r).logEvent 0x50 0 r (roleRow old r) 0 true).setSync syncSyncing
  let s :=
    if r = roleActive then
      let s := (s.wr F.mateStateActiveSince 0 s.now).count .matePromotions 0
      let s := (s.when unsynced (·.count .matePromoteUnsynced 0)).setFlag F.mateStateWithheld 0 false
      let t := s.log.totals
      { s with log := { s.log with totals := { t with promotions := t.promotions + 1 } }
               mate := { s.mate with syncWanted := false, syncing := false, syncIn := [] } }
    else
      let s := (s.wr F.mateStateActiveSince 0 0).when (old = roleActive && r = roleVigil) (·.count .mateDemotions 0)
      { s with mate := { s.mate with
        syncWanted := r = roleVigil, syncing := false, syncIn := [], syncAt := none, syncOut := [], evidence := false } }
  s.watchSync

/-- Whether at least one watch is enabled and every enabled one shows the senior's copy lost (10 R258). -/
def State.seniorLost (s : State) : Bool :=
  let on := (List.range 64).filter fun w => s.flag F.mateWatchEn w
  !on.isEmpty && on.all fun w => s.watchShows w true

/-- A simultaneous loss settled at a tick edge (10 R258). -/
def State.settleLoss (s : State) : State :=
  let s := { s with mate := { s.mate with simultaneous := true } }
  if !(s.role = roleActive || s.role = roleVigil) then s
  else if !s.mate.rank then (if s.role = roleActive then s else s.enterRole roleActive)
  else if s.seniorLost then
    let s := if s.role = roleActive then s else s.enterRole roleActive
    { s with mate := { s.mate with evidence := true } }
  else (if s.role = roleVigil then s else s.enterRole roleVigil).raise A.mateDispute 0

/-- A change decided in the tick in progress, for the next tick edge; the first one decided stands.  Role 3 stands for R258. -/
def State.decideRole (s : State) (r : Nat) (withheld : Bool) : State :=
  if s.mate.change.isSome then s
  else { s with mate := { s.mate with change := some (r, withheld), changeAt := s.tick.n } }

/-- A decided change made at a tick edge (10 R252, R255, R258, R264). -/
def State.roleChange (s : State) : State :=
  match s.mate.change with
  | some (r, w) =>
    if s.tick.n ≤ s.mate.changeAt then s else
    let s := { s with mate := { s.mate with change := none } }
    if r = roleUnpaired then s.settleLoss
    else
      let s := if s.role = r then s else s.enterRole r
      if w then s.setFlag F.mateStateWithheld 0 true else s
  | none => s

/-- What the last two usable status words decide about roles (10 Table 10-3, R255, R269). -/
def State.roleFromFrames (s : State) : State :=
  match s.mate.status with
  | [a, b] =>
    let both := fun (p : Nat → Bool) => p a && p b
    let roleIs := fun (r w : Nat) => decide (field w 0 2 = r)
    let rankOk := both fun w => bit w 2 != s.mate.rank
    let senior := !s.mate.rank
    let joinVigil := fun w => roleIs roleJoining w || roleIs roleVigil w
    if !rankOk then s
    else if s.role = roleJoining then
      if both (roleIs roleActive) || (!senior && both (roleIs roleJoining)) then s.decideRole roleVigil false
      else if senior && both joinVigil then s.decideRole roleActive false
      else s
    else if s.role = roleVigil then
      if both joinVigil && (senior || both fun w => bit w 4) then s.decideRole roleActive false else s
    else if s.role = roleActive then
      let since := tdiff (s.rd F.mateStateActiveSince 0) (s.mateSlot 1)
      let yield' := decide (0 < since) || (decide (since = 0) && !senior)
      if both (roleIs roleActive) && yield' && !s.active A.mateRankClash 0 && !s.mate.evidence then
        s.decideRole roleVigil (bit a 8)
      else s
    else s
  | _ => s

/-- MATE_RANK_CLASH (10 R269, R276). -/
def State.rankClash (s : State) : State :=
  match s.mate.status with
  | [a, b] => if bit a 2 == s.mate.rank && bit b 2 == s.mate.rank then s.raise A.mateRankClash 0
    else if bit a 2 != s.mate.rank then s.clear A.mateRankClash 0 else s
  | [a] => if bit a 2 != s.mate.rank then s.clear A.mateRankClash 0 else s
  | _ => s

/-! ### Joining and resynchronisation (10 R269 to R274) -/

/-- Whether both units have the same ESTATE, armed epoch and staged identity (10 R271). -/
def State.sameSet (s : State) : Bool :=
  s.mateSlot 23 = s.estate && s.mateSlot 24 = s.rd F.almArmedArmedTick 0 && s.mateSlot 25 = s.rd F.almArmedArmedEpoch 0 &&
    s.stagedIdent = (s.mateSlot 5 + s.mateSlot 6 * 2 ^ 32, s.mateSlot 7)

/-- The conditions of R269 as this unit sees them; a join outlives single unusable frames, until MATE_LINK_DOWN. -/
def State.joinable (s : State) : Bool :=
  s.paired && (s.role = roleActive || s.role = roleVigil) && s.mateRole ≠ roleJoining && !s.active A.mateLinkDown 0 &&
    (s.joined || decide (0 < s.mate.usableRun)) && (s.mateRank != s.mate.rank) &&
    s.mateSlot 2 + s.mateSlot 3 * 2 ^ 32 = (s.word .almActiveSetid 0).toNat && s.mateSlot 4 = s.rd F.almActiveInfoEpoch 0 &&
    s.numbered && bit (s.mateSlot 0) 9

/-- The join lost; the resynchronisation in progress ends with it (10 R268, R269). -/
def State.unjoin (s : State) : State :=
  { (s.setFlag F.mateStateJoined 0 false) with mate := { s.mate with syncing := false, syncIn := [], syncAt := none, syncOut := [] } }

/-- JOINED brought up to R269 at a tick edge; when the pair joins again the VIGIL is SYNCING (10 R269, R271). -/
def State.joinSync (s : State) : State :=
  let is := s.joinable
  if s.joined == is then s
  else if !is then s.unjoin
  else
    let s := (s.setFlag F.mateStateJoined 0 true).clear A.mateAbsent 0
    let m := s.mate
    let again := m.wasJoined || (s.role = roleActive && (m.gapped || (s.mateRole = roleVigil && s.mateSync = syncSyncing)))
    let s := s.when (s.role = roleVigil && m.wasJoined) (·.setSync syncSyncing)
    { s with mate := { m with wasJoined := true, gapped := false, syncWanted := m.syncWanted || again } }

/-- The almanac-loaded registers in the order they are resynchronised. -/
def loadedPlaces : List (Reg × Nat) :=
  loadedRegs.flatMap fun r => (List.range (loadedCount r)).map fun j => (r, j + r.place.first)

/-- The slots whose active OP is HOLD (10 Table 10-7). -/
def State.holdSlots (s : State) : List Nat := (s.core.emit.filter fun e => entryOp e.2.toNat = opHold).map (·.1)

/-- Where each region of 10 Table 10-7 begins in the flat order, and the number of records in all. -/
def resyncStart2 : Nat := 64
def resyncStart3 : Nat := resyncStart2 + loadedPlaces.length
def resyncStart4 : Nat := resyncStart3 + 16384
def resyncStart5 : Nat := resyncStart4 + 2097152
def resyncStart6 : Nat := resyncStart5 + 2097152
def State.resyncTotal (s : State) : Nat := resyncStart6 + s.holdSlots.length

/-- A resynchronisation record of flat number `n` as read in tick `v`; none where the word reads as a UE (10 R272; 11 Table 11-4).  The order
within regions 4 and 5 goes from bank to bank, so that a reserved cycle can read many (DESIGN CHOICE, log entry 21). -/
def State.resyncRead (s : State) (n v : Nat) : Option ResyncRec × State :=
  let mk := fun (region index data : Nat) => some (⟨region, index, BitVec.ofNat 32 v, BitVec.ofNat 80 data⟩ : ResyncRec)
  let sram := fun (region i : Nat) (p : WinPlace) =>
    match s.winAddr p with
    | some a =>
      if region = 3 then
        match s.winRead8 p 6 with
        | (.data d, s) => (mk region i d, s)
        | (_, s) => (none, s)
      else match s.sramRead a false (s.winHeld p) false with
        | (.data d, s) => (mk region i d, s)
        | (_, s) => (none, s)
    | none => (none, s)
  if n < resyncStart2 then (mk 1 n (s.rd F.protGroupCmdCmd n), s)
  else if n < resyncStart3 then
    match loadedPlaces[n - resyncStart2]? with
    | some (r, i) => (mk 2 ((regAddr r i - 0x1000000) / 8) (s.word r i).toNat, s)
    | none => (none, s)
  else if n < resyncStart4 then sram 3 (n - resyncStart3) (.up (n - resyncStart3))
  else if n < resyncStart5 then sram 4 (lanePos ((n - resyncStart4) % 128) ((n - resyncStart4) / 128))
      (.term false (lanePos ((n - resyncStart4) % 128) ((n - resyncStart4) / 128)))
  else if n < resyncStart6 then sram 5 (16384 * ((n - resyncStart5) % 128) + (n - resyncStart5) / 128)
      (.emit false (16384 * ((n - resyncStart5) % 128) + (n - resyncStart5) / 128))
  else match s.holdSlots[n - resyncStart6]? with
    | some i => (mk 6 i (field (s.ringWord (i / 16384) (i % 16384 / 2)) (32 * (i % 2)) 32), s)
    | none => (none, s)

/-- Up to `k` records from flat number `n` read in tick `v`, ending at the first that waits. -/
def State.resyncBatch (v : Nat) : Nat → Nat → State → List ResyncRec × Nat × State
  | 0, n, s => ([], n, s)
  | k + 1, n, s =>
    if s.resyncTotal ≤ n then ([], n, s)
    else match s.resyncRead n v with
      | (some r, s) =>
        let (rs, n, s) := State.resyncBatch v k (n + 1) s
        (r :: rs, n, s)
      | (none, s) => ([], n, s)

/-- A resynchronisation started in the VIGIL (10 R271, R274). -/
def State.syncStart (s : State) : State :=
  let s := ((s.count .mateResyncs 0).wr F.mateResyncTotal 0 s.resyncTotal).wr F.mateResyncDone 0 0
  { (s.setSync syncSyncing) with mate := { s.mate with
    syncing := true, syncWanted := false, syncIn := [], settled := 0, settling := 0 } }

/-- SETTLING reached (10 R274, R276). -/
def State.syncDone (s : State) : State :=
  ({ (s.setSync syncSettling) with mate := { s.mate with syncing := false, settled := 0, settling := 0 } }).clear A.mirrorLost 0

/-- A run that came without the VIGIL's asking: the ACTIVE found a gap, and its first record starts a resynchronisation (10 R268; DEDUCED, log
entry 40). -/
def State.syncTold (s : State) : State :=
  if s.role = roleVigil && s.joined && !s.mate.syncing && s.mate.syncIn.any fun r => r.region = 1 && r.index = 0 then
    let rs := s.mate.syncIn
    let s := s.syncStart
    { s with mate := { s.mate with syncIn := rs } }
  else s

/-- An ACTIVE whose run has ended sends anew to a VIGIL that is SYNCING still (DESIGN CHOICE, log entry 40). -/
def State.syncAgain (s : State) : State :=
  let m := s.mate
  let n := if m.syncAt.isSome then 0 else bump 16 m.sinceRun
  let again := s.role = roleActive && decide (16 ≤ n) && s.mateRole = roleVigil && s.mateSync = syncSyncing
  { s with mate := { m with sinceRun := if again then 0 else n, syncWanted := m.syncWanted || again } }

/-- What is wanted started where R271 allows it. -/
def State.syncGo (s : State) : State :=
  let s := s.syncTold.syncAgain
  let same := s.sameSet
  let vigil := s.role = roleVigil && s.mate.syncWanted
  let active := s.role = roleActive && s.mateRole = roleVigil && (s.mate.syncWanted || s.mateSync = syncSyncing)
  let s := if same then s.clear A.mateSetDiffer 0 else s.when (s.joined && (vigil || active)) (·.raise A.mateSetDiffer 0)
  let go := s.mate.syncWanted && s.joined && same
  if go && s.role = roleVigil then s.syncStart
  else if go && s.role = roleActive && s.mateRole = roleVigil then
    { s with mate := { s.mate with syncWanted := false, syncAt := some 0 } }
  else s

/-- The next records read, `v` the tick that has ended (10 R272). -/
def State.syncBatch (s : State) (v : Nat) : State :=
  match s.mate.syncAt with
  | some n =>
    let x := State.resyncBatch v 1638 n s
    { x.2.2 with mate := { x.2.2.mate with syncOut := x.1, syncAt := if x.2.2.resyncTotal ≤ x.2.1 then none else some x.2.1 } }
  | none => { s with mate := { s.mate with syncOut := [] } }

/-- The resynchronisation at an edge (10 R271, R272), `v` the tick that has ended. -/
def State.syncEdge (s : State) (v : Nat) : State := s.syncGo.syncBatch v

/-! ### Records (10 R267, R268) -/

/-- A record's 6 slots. -/
def MirrorRec.slots (r : MirrorRec) : List Nat :=
  [r.mseq.toNat, r.u.toNat, 1 + r.be.toNat * 2 ^ 8 + r.addr / 2 ^ 32 % 256 * 2 ^ 24, r.addr % 2 ^ 32, r.data.toNat % 2 ^ 32, r.data.toNat / 2 ^ 32]

/-- The record at slot `o` of a mate frame. -/
def mirrorAt (t : Tbl Word) (o : Nat) : MirrorRec :=
  let w := fun j => mateSlotOf t (o + j)
  { mseq := BitVec.ofNat 32 (w 0), u := BitVec.ofNat 32 (w 1), be := BitVec.ofNat 8 (field (w 2) 8 8)
    addr := field (w 2) 24 8 * 2 ^ 32 + w 3, data := BitVec.ofNat 64 (w 4 + w 5 * 2 ^ 32) }

/-- At a tick edge: what was accepted goes out as new, what was new is repeated, and waiting writes are admitted (10 R267). -/
def State.recordEdge (s : State) : State :=
  let m := s.mate
  let adm := m.waiting.take 640
  let recs := adm.mapIdx fun i r => { r with mseq := m.mseq + BitVec.ofNat 32 i, u := BitVec.ofNat 32 (s.now + 4) }
  { s with mate := { m with
    rep := m.news, news := m.fresh, fresh := recs, waiting := m.waiting.drop 640, own := m.own ++ recs
    mseq := m.mseq + BitVec.ofNat 32 recs.length
    recent := m.recent.filter fun x =>
      decide (tdiff x.1.toNat s.now < 8) || m.syncIn.any fun r => later r.v x.1 } }

/-- The mate's records of a usable frame taken over, or a gap found (10 R268). -/
def State.recordsTake (s : State) (t : Tbl Word) : State :=
  let newN := mateSlotOf t 21 % 2 ^ 16
  let repN := mateSlotOf t 21 / 2 ^ 16
  let newF := mateSlotOf t 20
  let next := BitVec.ofNat 32 (newF + newN)
  if s.mateRole = roleJoining then { s with mate := { s.mate with nextTheirs := none } }
  else match s.mate.nextTheirs with
    | none =>
      let rs := (List.range (min 640 newN)).map fun j => mirrorAt t (512 + 6 * j)
      { s with mate := { s.mate with nextTheirs := some next, theirs := s.mate.theirs ++ rs } }
    | some e =>
      let gap := later e (BitVec.ofNat 32 newF) && (repN = 0 || later e (BitVec.ofNat 32 (mateSlotOf t 22)))
      let rs := (List.range (min 640 repN)).map (fun j => mirrorAt t (4352 + 6 * j)) ++
        (List.range (min 640 newN)).map fun j => mirrorAt t (512 + 6 * j)
      let s := { s with mate := { s.mate with
        nextTheirs := some next, theirs := s.mate.theirs ++ rs.filter fun r => !later r.mseq e } }
      if gap then
        let s := ((s.raise A.mirrorLost 0).count .mateMirrorGaps 0).unjoin
        { s with mate := { s.mate with gapped := true, syncWanted := s.mate.syncWanted || s.role = roleVigil } }
      else s

/-! ### Comparison (10 R262 to R264) -/

/-- Whether any of the events that belong to frames `n` to `n + 2` is listed (10 R249). -/
def eventsOf (l : List (BitVec 32 × Nat)) (n : Nat) : Bool :=
  l.any fun e => e.2 ≠ 0 && decide (-3 ≤ tdiff n e.1.toNat) && decide (tdiff n e.1.toNat ≤ 1)

/-- A discrepancy decided on frames `n` to `n + 2` (10 Table 10-5; 14 Table 14-7). -/
def State.decide' (s : State) (n : Nat) : State :=
  let mine := eventsOf s.mate.ownEvents n
  let theirs := eventsOf s.mate.mateEvents n
  let ranks := s.mate.rankDiff.any fun k => decide (0 ≤ tdiff n k.toNat) && decide (tdiff n k.toNat ≤ 2)
  let cause := if mine && !theirs then 1 else if theirs && !mine then 2 else if mine then 3 else if ranks then 4 else 5
  let s := { s with mate := { s.mate with badRun := [], blame := decide (cause = 2) } }
  let s := ((s.wr F.mateStateDiscCause 0 cause).setFlag F.mateStateDiscNew 0 true).count .mateDiscrepancies 0
  let s := s.logEvent 0x51 0 cause n 0 true
  if cause = 1 then
    (s.raise A.mateFault 0).decideRole roleVigil true
  else if cause = 2 then
    let s := s.raise A.mateFault 0
    if s.role = roleVigil && s.mateRole = roleActive then s.decideRole roleActive false else s
  else if cause = 4 then s.raise A.mateInputDiffer 0
  else s.raise A.discrepancyUnexplained 0

/-- Whether the frames' digests differ on a link valid in both (10 R262). -/
def OwnFrame.differs (f : OwnFrame) (t : Tbl Word) : Bool :=
  (List.range 128).any fun l => f.valid.getLsbD l && bit (mateSlotOf t (8 + l / 32)) (l % 32) &&
    decide ((Tbl.get 0 f.digests l).toNat ≠ mateSlotOf t (32 + l))

/-- Whether the frames' RANKS differ. -/
def OwnFrame.ranksDiffer (f : OwnFrame) (t : Tbl Word) : Bool :=
  (List.range 128).any fun l => decide (Tbl.get 0 f.ranks l ≠ field (mateSlotOf t (12 + l / 16)) (2 * (l % 16)) 2)

/-- SYNC of the pair's VIGIL as this unit sees it. -/
def State.vigilSync (s : State) : Option Nat :=
  if s.role = roleVigil then some s.sync else if s.role = roleActive && s.mateRole = roleVigil then some s.mateSync else none

/-- The mate's usable frame stamped `k` compared with this unit's (10 R262, R274). -/
def State.compareFrame (s : State) (k : Nat) (t : Tbl Word) : State :=
  let stop := { s with mate := { s.mate with badRun := [] } }
  match s.vigilSync, s.mate.sent.find? fun f => f.stamp.toNat = k with
  | some y, some f =>
    if !s.joined || y = syncSyncing then stop else
    let bad := OwnFrame.differs f t
    let s := (s.count .mateCmpTicks 0).when bad (·.count .mateCmpMismatch 0)
    let m := s.mate
    let m := { m with
      cleanRun := if bad then 0 else bump 4800 m.cleanRun
      rankDiff := if OwnFrame.ranksDiffer f t then (BitVec.ofNat 32 k :: m.rankDiff).take 8 else m.rankDiff }
    if y = syncSettling then
      { s with mate := { m with badRun := [], settled := if bad then 0 else bump 48 m.settled } }
    else
      let run := if bad then BitVec.ofNat 32 k :: m.badRun else []
      let s := { s with mate := { m with badRun := run } }
      match run with
      | [_, _, n] => s.decide' n.toNat
      | _ => s
  | _, _ => stop

/-! ### Mate frames (10 R246, R247) -/

/-- A usable M0 frame stamped `k` read (10 R246, R252, R258, R262, R268, R269). -/
def State.mateFrame (s : State) (k : Nat) (t : Tbl Word) : State :=
  let w := mateSlotOf t 0
  let was := s.mateRole = roleVigil && s.mateSync = syncSyncing
  let m := s.mate
  let s := { s with mate := { m with
    ready := none, usableNow := true, status := (w :: m.status).take 2, view := t, viewStamp := BitVec.ofNat 32 k
    usableRun := bump 48 m.usableRun
    mateEvents := ((BitVec.ofNat 32 (k + 2 ^ 32 - 1), field w 10 3) :: m.mateEvents).take 8 } }
  let s := (s.wr F.mateStateMateRole 0 (field w 0 2)).setFlag F.mateStateMateHbSeen 0 (bit w 7)
  let s := s.rankClash.recordsTake t
  let s := s.when (bit w 7 && s.hbSeen) (·.clear A.mateDispute 0)
  let s := s.when (!bit w 7 && s.active A.mateHbFail 0 && !s.mate.simultaneous) (·.decideRole roleUnpaired false)
  let is := s.mateRole = roleVigil && s.mateSync = syncSyncing
  let s := s.when (s.role = roleActive && is && !was && s.mate.syncAt.isNone) fun s => { s with mate := { s.mate with syncWanted := true } }
  let s := s.when (s.role = roleActive && was && s.mateRole = roleVigil && s.mateSync = syncSettling) (·.clear A.mirrorLost 0)
  (s.compareFrame k t).roleFromFrames

/-- A slot of a frame under construction. -/
def putSlot (t : Tbl Word) (n v : Nat) : Tbl Word :=
  if v = 0 then t else Tbl.modify 0 t (n / 2) fun w => BitVec.ofNat 64 (putField w.toNat (32 * (n % 2)) 32 v)

/-- Slots laid down from `o` up. -/
def putSlots (o : Nat) (vs : List Nat) (t : Tbl Word) : Tbl Word :=
  (vs.foldl (fun (acc : Nat × Tbl Word) v => (acc.1 + 1, putSlot acc.2 acc.1 v)) (o, t)).2

/-- The own status word (10 Table 10-2). -/
def State.ownStatus (s : State) : Nat :=
  let ev := match s.mate.ownEvents with | (_, b) :: _ => b | [] => 0
  (if s.role = roleUnpaired then 0 else s.role) + b2n s.mate.rank * 4 + b2n (!s.flag F.mateCfgVigilMode 0) * 8 + b2n s.withheld * 16 +
    (if s.role = roleVigil then s.sync else 0) * 32 + b2n s.hbSeen * 128 + b2n s.mate.blame * 256 + b2n s.numbered * 512 + ev * 1024

/-- The payload of the own M0 frame for the tick in progress (10 Table 10-1). -/
def State.m0Payload (s : State) : Tbl Word :=
  let setid := (s.word .almActiveSetid 0).toNat
  let st := s.stagedIdent
  let m := s.mate
  let f : OwnFrame := m.sent.headD ⟨0, 0, [], []⟩
  let head := [s.ownStatus, if s.role = roleActive then s.rd F.mateStateActiveSince 0 else 0, setid % 2 ^ 32, setid / 2 ^ 32,
    s.rd F.almActiveInfoEpoch 0, st.1 % 2 ^ 32, st.1 / 2 ^ 32, st.2]
  let valid := (List.range 4).map fun j => field f.valid.toNat (32 * j) 32
  let ranks := (List.range 8).map fun j => (List.range 16).foldl (fun a i => a + Tbl.get 0 f.ranks (16 * j + i) * 4 ^ i) 0
  let first := fun (l : List MirrorRec) (d : BitVec 32) => match l with | r :: _ => r.mseq.toNat | [] => d.toNat
  let nextNew := match m.fresh with | r :: _ => r.mseq | [] => m.mseq
  let tail := [first m.news nextNew, m.news.length + m.rep.length * 2 ^ 16, first m.rep 0, s.estate,
    s.rd F.almArmedArmedTick 0, s.rd F.almArmedArmedEpoch 0]
  let digs := (List.range 128).map fun l => (Tbl.get 0 f.digests l).toNat
  putSlots 4352 (m.rep.flatMap MirrorRec.slots) <| putSlots 512 (m.news.flatMap MirrorRec.slots) <|
    putSlots 32 digs <| putSlots 0 (head ++ valid ++ ranks ++ tail) []

/-- The payload of the own M1 frame: the resynchronisation records read in the tick before (10 R272). -/
def State.m1Payload (s : State) : Tbl Word :=
  putSlots 0 (s.mate.syncOut.flatMap fun r =>
    [r.index + r.region * 2 ^ 24, r.v.toNat, field r.data.toNat 0 32, field r.data.toNat 32 32, field r.data.toNat 64 16]) []

/-- The links whose digest is valid (10 R248). -/
def State.digestValid (s : State) : BitVec 128 :=
  let copyOf := fun (l : Nat) => (s.prot.bridges.find? fun e => bit e.2.toNat 16 && decide (field e.2.toNat 8 7 = l)).map
    fun e => field e.2.toNat 0 7
  BitVec.ofNat 128 ((List.range 128).foldl (fun a l =>
    let k := (copyOf l).getD l
    if s.gen k ≠ 0 && !s.stationOff k then a + 2 ^ l else a) 0)

/-! ### Tick edges -/

/-- Whether an edge was missed in the tick that has ended (10 R251): an interval of 320 periods ran out in it. -/
def State.hbMissed (s : State) : Bool :=
  s.mate.hbMissedNow || s.mate.hbEdge = 0 || decide (s.mate.hbEdge - 1 + 320 < 1024 * s.tick.n)

/-- The mate block at a tick edge: `v` the tick that has ended, `events` its integrity events by kind (10 R249, R251, R260, R267 to R274). -/
def State.mateEdge (s : State) (v : Nat) (events : List Nat) : State :=
  if !s.paired then s else
  let has := fun k => b2n (events.contains k)
  let m := s.mate
  let f : OwnFrame := ⟨BitVec.ofNat 32 s.now, s.digestValid, s.core.digests, s.core.ranks.getD 2 []⟩
  let s := { s with mate := { m with
    absentRun := if m.usableNow then 0 else bump 3 m.absentRun, usableNow := false
    hbCleanTicks := if s.hbMissed then 0 else bump 48 m.hbCleanTicks, hbMissedNow := false
    ownEvents := ((BitVec.ofNat 32 v, has 0 + 2 * has 2 + 4 * has 1) :: m.ownEvents).take 8
    sent := (f :: m.sent).take 4
    joinTicks := if s.role = roleJoining then m.joinTicks + 1 else 0
    settling := if s.role = roleVigil && s.sync = syncSettling then bump 48000 m.settling else 0
    evidence := m.evidence && s.seniorLost } }
  s.recordEdge.joinSync.watchSync.syncEdge v

/-- The mate block begun anew: records accepted keep their tick u, and writes still waiting take the next (10 R268). -/
def State.mateFresh (s : State) : State :=
  let m := s.mate
  let waiting := m.waiting.map fun r => { r with u := BitVec.ofNat 32 (s.now + 4) }
  let f : MateH := { rank := m.rank, hbStopped := m.hbStopped, idle := m.idle }
  { s with mate := { f with own := m.own ++ waiting, theirs := m.theirs, left := m.left, mirrorAt := m.mirrorAt } }

/-- The mate port brought up to MATE_CFG.EN at a tick edge (10 R243, R252; 13 Table 13-7). -/
def State.mateCfgSync (s : State) : State :=
  if s.flag F.mateCfgEn 0 then
    if s.paired && decide (s.qstate 32 ≠ qOff) then s
    else
      let s := s.mateFresh
      let s := ((s.wr F.mateStateRole 0 roleJoining).setSync 0).setFlag F.mateStateLinkUp 0 true
      let s := (s.logEvent 0x50 0 roleJoining 1 0 true).funcOn 32
      ((s.wr F.laneStateGen 32 2).each (linksOf 32) fun l s => s.linkUsed l).enterQuad 32 qPll 0
  else if s.role = roleUnpaired then s
  else
    let was := s.qstate 32 ≠ qOff
    let s := (s.wr F.mateStateRole 0 roleUnpaired).when was fun s =>
      let s := ((s.leaveUp 32 0).wr F.laneStateGen 32 0).enterQuad 32 qOff 0
      let s := s.mateFresh.funcDisable 32 1
      let s := ((s.setFlag F.mateStateJoined 0 false).setFlag F.mateStateHbOk 0 false).setFlag F.mateStateLinkUp 0 false
      let s := (s.setFlag F.mateStateWithheld 0 false).setSync 0
      s.eachN 13 fun j s => s.clear (A.mateHbLost + j) 0
    s

/-- The mate's outputs stopped: heartbeat and lanes (10 R245). -/
def State.mateStop (s : State) : State := { s with mate := { s.mate with hbStopped := true, idle := true } }

end Sys2Proof.Machine
end

