-- ==== Sys2Proof/Machine/Stacks.lean ====
section
/-! DEFINITION. Commands and events of the lag store (04): HBM stacks lost and restored, fallback, late frames, lag configuration. -/

namespace Sys2Proof.Machine

/-! ### Stacks lost and restored (04 R99 to R101; 15 R386) -/

/-- The links of stack `k`. -/
def stackLinks (k : Nat) : List Nat := (List.range 32).map (32 * k + ·)

/-- What a lost stack held is gone: its bytes and ring frames read as memory that nothing has written (DESIGN CHOICE, log entry 6). -/
def State.stackWipe (s : State) (k : Nat) : State :=
  let base := stackBase k
  { s with
    hbm := s.hbm.filter fun e => !(decide (base ≤ e.1) && decide (e.1 < base + 0x600000000))
    lag := { s.lag with ring := s.lag.ring.filter fun e => e.1 % 128 / 32 ≠ k } }

/-- Stack `k` lost in the tick in progress (04 R99, R100; 08 R192; 14 R369). -/
def State.loseStack (s : State) (k : Nat) : State :=
  if s.stackLost k then s
  else
    let s := s.wrBit F.lagStateStackLost 0 k true
    let s := (s.wrBit F.hbmStateInitDone 0 k false).count .lagStackLoss k
    let s := { s with lag := { s.lag with
      lossTick := Tbl.insert k s.localNow (Tbl.erase k s.lag.lossTick), fallbackDone := Tbl.erase k s.lag.fallbackDone
      failTicks := Tbl.erase k s.lag.failTicks } }
    let s := s.each (stackLinks k) fun l s => if (s.lagLink l).mode = 2 then s.unwrite l fun _ => true else s
    let s := (s.almStackLost k).evbLose k
    (s.raise A.lagStackLost k).logEvent 0x70 0 k (s.word .lagState 0).toNat 0 true

/-- HBM_INIT_DONE (13 R338; 04 R99): a stack's P4 initialisation has ended. -/
def execHbmInitDone (k : StackId) (ok : Bool) (s : State) : Res :=
  .next <|
    if bit s.boot.p4 k || !s.boot.p3 then s
    else
      let s := { s with boot := { s.boot with p4 := setBit s.boot.p4 k true } }
      let s := if ok then (s.wrBit F.hbmStateInitDone 0 k true).wrBit F.hbmStateAt8g 0 k false else s.loseStack k
      s.when (s.boot.p4 = 15) State.evbOpen

/-- HBM_TEMP_TRIP (04 R99). -/
def execHbmTempTrip (k : StackId) (s : State) : Res := .next <| s.loseStack k

/-- HBM_TEMPERATURE_REPORT (16 R400): a stack's temperature sensor reports; a catastrophic temperature is the trip of 04 R99. -/
def execHbmTemperatureReport (k : StackId) (hot : Bool) (s : State) : Res := .next <| s.when hot (·.loseStack k)

/-- Whether the tick that has just ended, or the one in progress, brought the last of failures on UE_TICKS distinct ticks within UE_WINDOW ticks
(04 R99). -/
def State.ueLossDue (s : State) (k : Nat) : Bool :=
  let n := s.rd F.lagStackCfgUeTicks 0
  let w := max 1 (s.rd F.lagStackCfgUeWindow 0)
  match Tbl.get [] s.lag.failTicks k with
  | [] => false
  | f :: rest => decide (0 < n) && decide (s.tick.n ≤ f + 1) && decide (n ≤ ((f :: rest).filter fun t => decide (f < t + w)).length)

/-- STACK_UE_LOSS (04 R99). -/
def execStackUeLoss (k : StackId) (s : State) : Res := .next <| s.when (s.ueLossDue k) fun s => s.atEnd (·.loseStack k)

/-- OFF bits of LAG_STACK_CMD written (04 R99). -/
def State.stackOff (s : State) (mask : Nat) : State :=
  s.eachN 4 fun k s => s.when (bit mask k) (·.loseStack k)

/-- LAG_STACK_OFF (04 R99; expert). -/
def execLagStackOff (m : Master) (mask : BitVec 4) (s : State) : Res :=
  .next <| s.byReg m .lagStackCmd 0 8 true fun s => s.expertOnly m (regAddr .lagStackCmd 0) (·.stackOff mask.toNat)

/-- STACK_FALLBACK_ENTRY (04 R100): due from the tick after the loss; the release of the tick of loss still had the stack's content. -/
def execStackFallbackEntry (k : StackId) (s : State) : Res :=
  .next <|
    let loss := Tbl.get 0 s.lag.lossTick k
    s.when (s.stackLost k && decide (loss < s.tick.n) && !Tbl.get false s.lag.fallbackDone k) fun s =>
      let s := s.stackWipe k
      let s := { s with lag := { s.lag with fallbackDone := Tbl.set false s.lag.fallbackDone k true } }
      let entering := (stackLinks k).filter fun l =>
        (s.lagLink l).mode = 2 && (match (s.lagLink l).fb with | some b => b.last.isSome | none => true)
      let s := s.each entering fun l s =>
        let s := s.fbEnd l
        s.setLagLink l { s.lagLink l with slots := [] }
      s.each entering fun l s => s.fbEnter l (loss + 1)

/-- RESTORE bits of LAG_STACK_CMD written (04 R101; 13 R351): ignored for a stack that is not lost. -/
def State.stackRestore (s : State) (mask : Nat) : State :=
  s.eachN 4 fun k s =>
    if bit mask k && s.stackLost k then
      let f := 33 + k
      let s := s.wrBit F.lagStateRestoreFail 0 k false
      let st := s.fstate f
      if st = fStopping || (st = fStarting && s.flag F.sysFuncStateStopReq f) then s.funcEnable f
      else if st = fOff then (s.setFlag F.sysFuncStateEnable f true).funcWant f
      else if st = fOn then s.funcWant f
      else s
    else s

/-- LAG_STACK_RESTORE (04 R101; expert). -/
def execLagStackRestore (m : Master) (mask : BitVec 4) (s : State) : Res :=
  .next <| s.byReg m .lagStackCmd 0 8 true fun s => s.expertOnly m (regAddr .lagStackCmd 0) (·.stackRestore mask.toNat)

/-- A stack's re-initialisation has succeeded in the tick in progress (04 R101; 08 R192; 15 R386). -/
def State.stackRestored (s : State) (k : Nat) : State :=
  let r := s.tick.n
  let s := ((s.wrBit F.lagStateRestoring 0 k false).wrBit F.lagStateStackLost 0 k false).wrBit F.hbmStateInitDone 0 k true
  let s := s.wrBit F.hbmStateAt8g 0 k (s.flag F.hbmCfgRate 0)
  let s := { s with lag := { s.lag with restoreTick := Tbl.erase k s.lag.restoreTick } }
  let s := s.each (stackLinks k) fun l s =>
    let s := s.unwrite l fun n => decide ((r : Int) < n)
    let s := s.descClear l
    let h := s.lagLink l
    if h.mode ≠ 2 then s
    else
      let s := s.setLagLink l { h with first := some (r + 1), fb := h.fb.map fun b => { b with last := some r } }
      (s.setFlag F.lagLinkStateNopage l false).clear A.lagFallbackNopage l
  ((s.almStackRestored k).clear A.lagStackLost k).logEvent 0x70 0 k (s.word .lagState 0).toNat 0 true

/-- STACK_RESTORE_DONE (04 R101): due while the stack is being restored, within 480 ticks. -/
def execStackRestoreDone (k : StackId) (s : State) : Res :=
  .next <| s.when (s.rdBit F.lagStateRestoring 0 k && decide (s.tick.n ≤ Tbl.get 0 s.lag.restoreTick k + 480)) (·.stackRestored k)

/-- STACK_RESTORE_FAIL (04 R101). -/
def execStackRestoreFail (k : StackId) (s : State) : Res :=
  .next <| s.when (s.rdBit F.lagStateRestoring 0 k) (·.restoreFailed k)

/-- FALLBACK_RELEASE_END (04 R101): due once the last stored stamp has been released. -/
def execFallbackReleaseEnd (l : IngressId) (s : State) : Res :=
  .next <| match (s.lagLink l).fb with
    | some b =>
      match b.last with
      | some e => s.when (decide (e + b.lag < s.tick.n)) (·.fbEnd l)
      | none => s
    | none => s

/-! ### Late and out-of-range frames (04 R87 to R90) -/

/-- LAG_DEADLINE_MISS (04 R87, R89): due in the tick of the deadline of a frame that is still being written. -/
def execLagDeadlineMiss (l : IngressId) (stamp : BitVec 32) (s : State) : Res :=
  .next <| match (s.rx l).frame with
    | some f =>
      match s.lagTarget l (s.localTick stamp.toNat) with
      | some t =>
        s.when (f.stamp = stamp && f.taken = .written && !f.missed && decide (s.localTick stamp.toNat + t.lag ≤ s.tick.n + 1)) fun s =>
          let s := s.setRx l { s.rx l with frame := some { f with missed := true } }
          (s.lagLate l stamp.toNat).lagMark l (s.ringPos stamp.toNat) stamp.toNat .incomplete
      | none => s
    | none => s

/-- LAG_LATE_RAISE (04 R90). -/
def execLagLateRaise (l : IngressId) (s : State) : Res :=
  .next <| s.when (decide (3 ≤ (s.lagLink l).lateStamps)) fun s =>
    (s.setFlag F.lagLinkStateLate l true).raise A.lagLate l

/-- LAG_LATE_CLEAR (04 R90). -/
def execLagLateClear (l : IngressId) (s : State) : Res :=
  .next <| s.when (decide (48 ≤ (s.lagLink l).onTimeRun)) fun s =>
    let s := s.setLagLink l { s.lagLink l with lateStamps := 0 }
    (s.setFlag F.lagLinkStateLate l false).clear A.lagLate l

/-- LAG_STAMP_RANGE_RAISE (04 R90). -/
def execLagStampRangeRaise (l : IngressId) (s : State) : Res :=
  .next <| s.when (decide (48 ≤ (s.lagLink l).rangeRun)) fun s =>
    (s.setFlag F.lagLinkStateStampRange l true).raise A.lagStampRange l

/-- LAG_STAMP_RANGE_CLEAR (04 R90). -/
def execLagStampRangeClear (l : IngressId) (s : State) : Res :=
  .next <| s.when (decide (48 ≤ (s.lagLink l).okRun)) fun s =>
    (s.setFlag F.lagLinkStateStampRange l false).clear A.lagStampRange l

/-- LAG_MARGIN_CLEAR (04 R88). -/
def execLagMarginClear (l : IngressId) (s : State) : Res :=
  .next <| s.when (decide (48000 ≤ (s.lagLink l).marginRun)) fun s =>
    (s.setFlag F.lagLinkStateMargin l false).clear A.lagMargin l

/-! ### Configuration and extremes (04 Tables 04-10, 04-11) -/

/-- LAG_LINK_CFG_WRITE (04 Table 04-10, R98; expert): in force from the next tick edge, mirrored in a joined pair. -/
def execLagLinkCfgWrite (m : Master) (l : IngressId) (value : BitVec 64) (s : State) : Res :=
  .next <| s.byReg m .lagLinkCfg l 8 true fun s => s.cfgWrite m .lagLinkCfg l value fun s => s

/-- LAG_ARR_EXTREMES_READ (04 R86, Table 04-11): a read of LAG_ARR_MAX or LAG_ARR_MIN clears it. -/
def execLagArrExtremesRead (m : Master) (l : IngressId) (max : Bool) (s : State) : Res :=
  .next <| s.byReg m (if max then .lagArrMax else .lagArrMin) l 8 false fun s =>
    let r := if max then Reg.lagArrMax else Reg.lagArrMin
    (s.answer m true (toBytes 8 (s.word r l).toNat)).setWord r l 0

end Sys2Proof.Machine
end

