-- ==== Sys2Proof/Machine/Start.lean ====
section
/-! DEFINITION. Reset pins, the prelude and function states (13 R336 to R339, R350 to R352; 10 R245), the junction sensor (15 R385) and the test
port (16 R397). -/

namespace Sys2Proof.Machine

/-! ### Reset (13 R336) -/

/-- What a reset cuts off in flash and fuses: a program, an erase, a logbook store and a burn under way leave what they touch open (13 R354; 14
R372; log entry 3). -/
def State.cutOff (s : State) : State :=
  let s := match s.nvm.cmd with
    | some (1, addr, len) => s.flashSpoil addr len
    | some (_, addr, _) => s.flashSpoil (addr / 65536 * 65536) 65536
    | none => s
  let s := s.when (s.flag F.logStateStoring 0) fun s => s.flashSpoil (4096 * s.rd F.logStateNextPos 0) 4096
  match s.ecc.burn with
  | some _ =>
    let (w, s) := s.takeFree
    s.fuseSet (w.setWidth 32)
  | none => s

/-- Everything cleared but what eFuses and flash hold, the test port and the queue. -/
def State.hold (s : State) : State :=
  let s := s.cutOff
  { State.reset with nv := s.nv, jtag := s.jtag, pending := s.pending, free := s.free }

/-- PWR_OK_FALL (13 R336; 10 R245). -/
def execPwrOkFall (s : State) : Res := .next s.hold

/-- RST_N_FALL (13 R336; 10 R245). -/
def execRstNFall (s : State) : Res := .next s.hold

/-- The boot mode a strap value starts (13 R337). -/
def bootModeOf : Nat → BootMode
  | 0 => .autonomous | 2 => .test | _ => .hosted

/-- RST_N_RISE (13 R337, R338, R353; 10 R243): the straps are sampled and the prelude begins. -/
def execRstNRise (mode : BitVec 2) (sel rank : Bool) (s : State) : Res :=
  .next <| s.when (!s.boot.risen) fun s =>
    let s := { s with boot := { s.boot with risen := true, mode := bootModeOf mode.toNat }, mate := { s.mate with rank := rank } }
    let s := (s.wr F.sysBootStatusMode 0 mode.toNat).setFlag F.sysBootStatusImageSel 0 sel
    let s := (s.setFlag F.mateStateRank 0 rank).recoverySync
    s.when (mode.toNat = 3) (·.raise A.bootStrapInvalid 0)

/-- SUPPLY_MONITOR_TRIP (10 R245). -/
def execSupplyMonitorTrip (s : State) : Res := .next s.mateStop

/-- TICK_STOP (10 R245). -/
def execTickStop (s : State) : Res := .next <| ({ s with tick := { s.tick with stopped := true } }).mateStop

/-! ### The prelude (13 R338, R339, R349) -/

/-- Sizes of flash the device supports, in MiB (13 R340). -/
def flashSizeOk (n : Nat) : Bool := decide (64 ≤ n) && decide (n ≤ 256)

/-- The flash as P2 found it. -/
def State.flashIs (s : State) (flashMiB : Option Nat) : State := { s with nv := { s.nv with flashMiB := flashMiB } }

/-- END_OF_P2 (13 R338, Table 13-12; 14 R371). -/
def execEndOfP2 (flashMiB : Option Nat) (s : State) : Res :=
  .next <| s.when (s.boot.risen && !s.boot.p2) fun s =>
    let s := { s with boot := { s.boot with p2 := true } }
    match flashMiB with
    | some n =>
      if flashSizeOk n then
        let s := (((s.flashIs (some n)).wr F.nvmInfoSizeMib 0 n).setFlag F.nvmInfoReady 0 true).setFlag F.logStateReady 0 true
        s.logFind.powerUp
      else (s.flashIs none).raise A.nvmFail 0
    | none => (s.flashIs none).raise A.nvmFail 0

/-- Whether BIST's result makes a device unusable (13 R339). -/
def BistResult.bad (b : BistResult) : Bool := !b.banks.isEmpty || b.sumUnit || b.otherLogic

/-- What BIST finds: beside its operand, the banks of the stuck cells that no spare replaces (11 R300). -/
def State.bistFinds (s : State) (b : BistResult) : BistResult :=
  { b with banks := (b.banks ++ s.ecc.stuck.map fun e => BitVec.ofNat 32 (e.1 / 2 ^ 14 * 2 ^ 14)).eraseDups }

/-- Fuse map and soft repairs (11 R300, R301; 13 R338). -/
def State.repairAll (s : State) : State :=
  let (used, bad) := fuseApply ((s.nv.factory ++ s.nv.fieldMap).map (·.2.toNat)) [] 0
  let s := (s.countBy .eccFuseBad 0 bad).fieldUsed
  if s.boot.mode ≠ .test && s.flag F.nvmInfoReady 0 then s.softRepairs used else s.cellsLeft used

/-- SYS_BIST_STATUS, the failed stations (11 R300; 13 Table 13-10; 06 R143). -/
def State.bistTake (s : State) (b : BistResult) : State :=
  let first := (lowest (b.banks.map fun a => a.toNat)).getD 0
  let s := (s.wr F.sysBistStatusFailedBanks 0 b.banks.length).wr F.sysBistStatusFirstBank 0 (first / 2 ^ 14 * 2 ^ 14)
  let s := (s.setFlag F.sysBistStatusSumUnit 0 b.sumUnit).setFlag F.sysBistStatusOtherLogic 0 b.otherLogic
  let failed := b.stations.foldl (fun t k => Tbl.set false t k.val true) []
  ({ s with core := { s.core with failedStation := failed } }).stationSync

/-- An unusable device (13 R339). -/
def State.enterUnusable (s : State) : State :=
  let s := ({ s with boot := { s.boot with unusable := true } }).wr F.sysBootStatusPhase 0 5
  (s.raise A.deviceUnusable 0).mateStop

/-- END_OF_P3 (13 R338, R339, R349; 11 R300, R301). -/
def execEndOfP3 (b : BistResult) (s : State) : Res :=
  .next <| s.when (s.boot.p2 && !s.boot.p3) fun s =>
    let s := { s with boot := { s.boot with p3 := true } }
    let s := s.repairAll
    let b := s.bistFinds b
    let s := s.bistTake b
    if BistResult.bad b && s.boot.mode ≠ .test then s.enterUnusable
    else s.when (s.boot.mode ≠ .autonomous) (·.wr F.sysBootStatusPhase 0 1)

/-! ### Function states (13 R350, R351) -/

/-- The stack a function is, if any. -/
def stackFunc (f : Nat) : Option Nat := if 33 ≤ f ∧ f < 37 then some (f - 33) else none

/-- A function's condition (13 Table 13-7). -/
def State.funcCond (s : State) (f : Nat) : Bool :=
  match stackFunc f with
  | some k => s.boot.p3 && (!s.stackLost k || Tbl.get false s.boot.want f || s.flag F.sysFuncStatePending f ||
      s.rdBit F.lagStateRestoring 0 k)
  | none =>
    if f < 32 then decide (s.rd F.laneStateGen f ≠ 0)
    else if f = 32 then s.flag F.mateCfgEn 0
    else if f = 37 then s.flag F.eccTestCfgEn 0 && s.boot.p3
    else s.flag F.almAuditCtrlEn 0 && s.flag F.almStateActiveValid 0

/-- Whether a stack's fault stops its function (13 Table 13-7). -/
def State.funcFault (s : State) (f : Nat) : Bool :=
  match stackFunc f with
  | some k => s.stackLost k && !s.rdBit F.lagStateRestoring 0 k && (s.fstate f = fOn || s.fstate f = fStarting)
  | none => false

/-- Whether a disable or a fault of a function has to be taken (13 R351). -/
def State.disableDue (s : State) (f : Nat) : Bool :=
  s.flag F.sysFuncStateEnable f && (Tbl.get false s.boot.stop f || !s.funcCond f || s.funcFault f)

/-- Whether an enable of a function has to be taken, disables that came before it taken first (13 R351). -/
def State.enableDue (s : State) (f : Nat) : Bool :=
  !s.disableDue f && (Tbl.get false s.boot.want f || (s.funcCond f && !s.flag F.sysFuncStateEnable f))

/-- RESTORING as a lost stack starts (04 R101; 13 Example 13-1). -/
def State.restoringSync (s : State) (f : Nat) : State :=
  match stackFunc f with
  | some k => s.when (s.fstate f = fStarting && s.stackLost k) fun s =>
    let s := s.wrBit F.lagStateRestoring 0 k true
    { s with lag := { s.lag with restoreTick := Tbl.insert k s.tick.n (Tbl.erase k s.lag.restoreTick) } }
  | none => s

/-- FUNC_ENABLE (13 R350, R351). -/
def execFuncEnable (f : FuncId) (s : State) : Res :=
  .next <| s.when (s.enableDue f) fun s =>
    let was := s.fstate f
    let s := s.funcEnable f
    s.when (was = fOff) (·.restoringSync f)

/-- LAST_STOP of a disable: a stack's is its fault (13 Tables 13-7, 13-11). -/
def disableCause (f : Nat) : Nat := if (stackFunc f).isSome then 3 else 1

/-- FUNC_DISABLE (13 R350, R351): a disable, or the function's fault. -/
def execFuncDisable (f : FuncId) (s : State) : Res :=
  .next <| s.when (s.disableDue f) fun s =>
    let s := { s with boot := { s.boot with stop := Tbl.erase f s.boot.stop } }
    let s := s.funcDisable f (disableCause f)
    s.when (f.val = 38) fun s => { s with alm := { s.alm with auditSince := none } }

/-- Whether a function's start has completed its steps, as far as the state shows it. -/
def State.startReady (s : State) (f : Nat) : Bool :=
  s.fstate f = fStarting && match stackFunc f with | some k => s.rdBit F.hbmStateInitDone 0 k | none => true

/-- FUNC_START_DONE (13 R351). -/
def execFuncStartDone (f : FuncId) (s : State) : Res :=
  .next <| s.when (s.startReady f) fun s =>
    if s.flag F.sysFuncStateStopReq f then
      ((s.setFlag F.sysFuncStateStopReq f false).wr F.sysFuncStateLastStop f (disableCause f)).setFstate f fStopping
    else
      let s := s.setFstate f fOn
      let s := s.when (decide (f.val ≤ 32) && s.rd F.laneStateGen f ≠ 0 && s.qstate f = qOff) (·.enterQuad f qPll 0)
      s.when (f.val = 38) (·.auditBegin true)

/-- FUNC_START_FAIL (13 R351): a stack's start has failed where its initialisation has. -/
def execFuncStartFail (f : FuncId) (s : State) : Res :=
  .next <|
    let due := s.fstate f = fStarting && match stackFunc f with
      | some k => s.stackLost k && !s.rdBit F.lagStateRestoring 0 k
      | none => true
    s.when due fun s =>
      let s := (s.setFlag F.sysFuncStateStopReq f false).setFlag F.sysFuncStatePending f false
      let s := s.when (stackFunc f).isSome (·.setFlag F.sysFuncStateEnable f false)
      (s.wr F.sysFuncStateLastStop f 2).setFstate f fStopping

/-- FUNC_STOP_DONE (13 R351): the transparent test stops once its running step has completed. -/
def execFuncStopDone (f : FuncId) (s : State) : Res :=
  .next <| s.when (s.fstate f = fStopping && (f.val ≠ 37 || s.ecc.testSince.isNone)) fun s =>
    if s.flag F.sysFuncStatePending f then ((s.setFlag F.sysFuncStatePending f false).setFstate f fStarting).restoringSync f
    else s.setFstate f fOff

/-! ### The junction sensor (15 R385) -/

/-- TEMP_UPDATE (15 R385). -/
def execTempUpdate (tj : BitVec 16) (s : State) : Res :=
  .next <|
    let top := if s.boot.tjRead then tj.toInt else max tj.toInt (s.rdS F.sysTempTjMax 0)
    let s := { s with boot := { s.boot with tjRead := false } }
    let s := ((s.wr F.sysTempTj 0 tj.toNat).wrS F.sysTempTjMax 0 top).setFlag F.sysTempValid 0 true
    let limit := s.rdS F.sysTempCfgLimit 0
    if limit < tj.toInt then s.raise A.tempHigh 0
    else if tj.toInt ≤ limit - 40 then s.clear A.tempHigh 0 else s

/-- TJ_MAX read and cleared. -/
def State.tjClear (s : State) : State := ({ s with boot := { s.boot with tjRead := true } }).wr F.sysTempTjMax 0 0

/-- SYS_TEMP_READ (15 Table 15-15; 12 R320): a read that takes the high half clears TJ_MAX. -/
def execSysTempRead (m : Master) (part : Part) (s : State) : Res :=
  .next <| s.byTarget m 18 (regAddr .sysTemp 0 + if part = .high then 4 else 0) (if part = .whole then 8 else 4) false fun s =>
    let s := s.answer m true (partBytes part (s.word .sysTemp 0).toNat)
    if part = .low then s else s.tjClear

/-! ### The test port (16 R397) -/

/-- IDCODE's word. -/
def jtagIdcode : Nat := 0x0412834F

/-- JTAG_TAP_RESET (16 R397): Test-Logic-Reset selects IDCODE. -/
def execJtagTapReset (s : State) : Res := .next { s with jtag := ⟨.idcode, jtagIdcode⟩ }

/-- JTAG_INSTRUCTION (16 R397): what a boundary-scan register shows is open (log entry 3). -/
def execJtagInstruction (i : JtagInstr) (s : State) : Res :=
  match i with
  | .idcode => .next { s with jtag := ⟨.idcode, jtagIdcode⟩ }
  | .bypass => .next { s with jtag := ⟨.bypass, 0⟩ }
  | .samplePreload =>
    let (w, s) := s.takeFree
    .next { s with jtag := ⟨.samplePreload, w.toNat⟩ }
  | .other => .fault .undefinedUnderTest

end Sys2Proof.Machine
end

