-- ==== Sys2Proof/Machine/Nvm.lean ====
section
/-! DEFINITION. Flash layout and the NVM commands (13 R340, R354, R356). -/

namespace Sys2Proof.Machine

/-- S in bytes; 0 where P2 found no readable flash. -/
def State.flashSize (s : State) : Nat := s.rd F.nvmInfoSizeMib 0 * 2 ^ 20

/-- L, the most bytes of an image region (13 R340). -/
def State.regionLen (s : State) : Nat := (s.flashSize - 2 ^ 20) / 2

/-- Where image region 1 (A) or 2 (B) starts (13 R340). -/
def State.regionBase (s : State) (i : Nat) : Nat := if i = 2 then 2 ^ 20 + s.regionLen else 2 ^ 20

/-- Whether bytes `a` to `a + n - 1` of flash meet the image region the device booted from. -/
def State.inBooted (s : State) (a n : Nat) : Bool :=
  let i := s.rd F.sysBootStatusImage 0
  let b := s.regionBase i
  decide (i ≠ 0) && decide (a < b + s.regionLen) && decide (b < a + n)

/-- Whether a command with these operands keeps R354's limits (13 R354, Table 13-12). -/
def State.nvmOk (s : State) (op addr len : Nat) : Bool :=
  let n := if op = 1 then len else 65536
  !s.flag F.nvmStatusBusy 0 && decide (2 ^ 20 ≤ addr) && decide (addr + n ≤ s.flashSize) &&
    (if op = 1 then decide (1 ≤ len) && decide (len ≤ 4096) && decide (addr / 4096 = (addr + len - 1) / 4096)
     else decide (op = 2) && decide (addr % 65536 = 0))

/-- A command written to NVM_CMD: LEVEL where it names the booted image region at basic level, VALUE where it breaks a limit; else it runs
on what the buffer holds now (13 R354). -/
def State.nvmCommand (s : State) (m : Master) (op addr len : Nat) : State :=
  let at' := regAddr .nvmCmd 0
  if !s.expert m && s.inBooted addr (if op = 1 then len else 65536) then s.errResp m at' true .level
  else s.valueOnly m at' (s.nvmOk op addr len) fun s =>
    let s := ((s.wr F.nvmCmdAddr 0 addr).wr F.nvmCmdLen 0 len).setFlag F.nvmStatusBusy 0 true
    let data := if op = 1 then memRead s.nvm.buf 0 len else []
    { s with nvm := { s.nvm with cmd := some (op, addr, len), data := data } }

/-- NVM_PROGRAM (13 R354). -/
def execNvmProgram (m : Master) (addr : BitVec 28) (len : BitVec 13) (s : State) : Res :=
  .next <| s.byReg m .nvmCmd 0 8 true fun s => s.nvmCommand m 1 addr.toNat len.toNat

/-- NVM_ERASE (13 R354). -/
def execNvmErase (m : Master) (addr : BitVec 28) (s : State) : Res :=
  .next <| s.byReg m .nvmCmd 0 8 true fun s => s.nvmCommand m 2 addr.toNat (s.rd F.nvmCmdLen 0)

/-- The end of a command with RESULT `r`. -/
def State.nvmEnd (s : State) (r : Nat) : State :=
  let s := { s with nvm := { s.nvm with cmd := none, data := [] } }
  (s.wr F.nvmStatusResult 0 r).setFlag F.nvmStatusBusy 0 false

/-- NVM_CMD_DONE (13 R353, R354, Table 13-12): a read-back compares programs only; what a failed command leaves in flash is open (log entry 3). -/
def execNvmCmdDone (res : NvmResult) (s : State) : Res :=
  .next <| match s.nvm.cmd, res with
    | some (1, addr, _), .done =>
      ((s.flashWrite s.nvm.data addr).count .nvmPrograms 0).nvmEnd 1 |>.clear A.nvmFail 0
    | some (_, addr, _), .done => ((s.flashErase addr).count .nvmErases 0).nvmEnd 1 |>.clear A.nvmFail 0
    | some (1, addr, len), .verifyFail => ((s.flashSpoil addr len).count .nvmVerifyFail 0).nvmEnd 3
    | some (1, addr, len), .timeout => ((s.flashSpoil addr len).nvmEnd 4).raise A.nvmFail 0
    | some (_, addr, _), .timeout => ((s.flashSpoil addr 65536).nvmEnd 4).raise A.nvmFail 0
    | _, _ => s

end Sys2Proof.Machine
end

