-- ==== Sys2Proof/Machine/Epoch.lean ====
section
/-! DEFINITION. Epochs: commit, swap and its steps, chaining (08 R199 to R202, R207; 13 R345). -/

namespace Sys2Proof.Machine

/-- The boot loader at step `n` of its list from now on (13 R343, Table 13-10). -/
def State.bootAt (s : State) (n : Nat) : State :=
  { (s.wr F.sysBootStatusStep 0 n) with boot := { s.boot with step := n, since := s.tick.n, fetched := false } }

/-- The boot loader goes on to the step after the present one (13 R343). -/
def State.bootNext (s : State) : State := s.bootAt (s.boot.step + 1)

/-- The queued trims discarded with EPOCH_BUSY (08 R207). -/
def State.trimDiscard (s : State) : State :=
  if s.alm.trims.isEmpty then s else ({ s with alm := { s.alm with trims := [] } }).trimResult 4

/-- An epoch missed at its commit point (08 R201). -/
def State.epochMiss (s : State) : State :=
  let h := s.alm.shadow.head
  let s := s.logEvent 0x31 0 h.setid.toNat (s.rd F.almArmedArmedEpoch 0) (s.rd F.almArmedArmedTick 0) true
  ((s.disarm.setFlag F.almStateMissed 0 true).count .almEpochMissed 0).raise A.epochMissed 0

/-- EPOCH_COMMIT (08 R199, R201, R207): due from tick T - 4,800 of an armed epoch. -/
def execEpochCommit (s : State) : Res :=
  .next <|
    let point := tadd (s.rd F.almArmedArmedTick 0) (-4800)
    s.when (s.estate = eArmed && decide (0 ≤ tdiff point s.now)) fun s =>
      let st := s.slotState (s.rd F.almStateShadowSlot 0)
      if s.shadow = shStaged && (st = slotAccepted || st = slotLost) then (s.wr F.almStateEstate 0 eCommitted).trimDiscard
      else s.epochMiss

/-- Slots at e (08 R200). -/
def State.swapSlots (s : State) : State :=
  let new := s.rd F.almStateShadowSlot 0
  let old := s.rd F.almStateActiveSlot 0
  let s := { s with alm := { s.alm with oldSlot := old } }
  let s := s.when (s.flag F.almStateActiveValid 0 && decide (s.slotState old = slotActive)) (·.setSlot old slotAccepted)
  let st := s.slotState new
  let s := s.when (st ≠ slotLost && st ≠ slotEmpty) (·.setSlot new slotActive)
  s.wr F.almStateActiveSlot 0 new

/-- A quad's generation under the new wiring: an unused quad enters OFF, any other PLL at its new rate, once the verdicts still out have been formed
under the old generation (02 R49, R50; 03 R71; 13 R350). -/
def State.swapQuad (s : State) (q gen : Nat) : State :=
  let old := s.rd F.laneStateGen q
  if old = gen then s
  else
    let s := (s.leaveUp q 0).wr F.laneStateGen q gen
    if gen = 0 then (s.enterQuad q qOff 0).funcDisable q 1
    else
      let s := s.when (old = 0) fun s => s.each (linksOf q) fun l s => s.linkUsed l
      (s.funcOn q).enterQuad q qPll 0

/-- Images and identity at e: the shadow's become active (08 R200); the core stages start at the first activation (16, power sequencing). -/
def State.swapImage (s : State) : State :=
  let new := s.alm.shadow
  let first := !s.flag F.almStateActiveValid 0
  let h := new.head
  let s := { s with
    alm := { s.alm with
      active := new, shadow := s.alm.active, oldSetid := s.word .almActiveSetid 0, swapTick := s.tick.n, swapStage := 0
      follow := !first && decide (h.nextSlot ≠ 0xFF), auditSince := none }
    tim := { s.tim with firstActive := if first then some s.tick.n else s.tim.firstActive } }
  let s := s.when first fun s => (s.wr F.sysBootStatusActTick 0 s.now).setFlag F.coreStatusRun 0 true
  let s := (s.setWord .almActiveSetid 0 h.setid).setFlag F.almStateActiveValid 0 true
  ((s.wr F.almActiveInfoVersion 0 h.version).wr F.almActiveInfoDevice 0 h.device).wr F.almActiveInfoEpoch 0 h.epoch.toNat

/-- All that changes at e (08 Table 08-9; 02 R50; 04 R98; 05 R114; 07 R181; 09 R219). -/
def State.swapAtE (s : State) : State :=
  let s := s.swapSlots.swapImage
  let refs := (List.range 12).map fun i => (s.word .timRefCfg i).toNat
  let s := s.loadRegs s.alm.active.regs
  let s := (s.eachN 32 fun q s => s.swapQuad q (s.alm.active.gen q)).eachN 128 fun l s => s.fenceSync l (false, false, false)
  let s := (s.lagSync.eachN 64 fun g s => s.protSync g).swapUps
  let s := (s.eachN 12 fun i s => s.refReconf i (refs.getD i 0)).refsSync
  let s := s.eachN 128 fun l s => s.wiringCheck l
  ((s.mateCfgSync.legSync.stationSync.clear A.bootFail 0).wr F.almStateEstate 0 eSwapping).setWord .almArmed 0 0

/-- EPOCH_SWAP (08 R200): due from tick T of a committed epoch. -/
def execEpochSwap (s : State) : Res :=
  .next <| s.when (s.estate = eCommitted && decide (0 ≤ tdiff (s.rd F.almArmedArmedTick 0) s.now)) State.swapAtE

/-- Whether step `k` of a swap is the next and due: from the `k`-th tick after e. -/
def State.swapDue (s : State) (k : Nat) : Bool :=
  s.estate = eSwapping && decide (s.alm.swapStage + 1 = k) && decide (s.alm.swapTick + k ≤ s.tick.n)

/-- A step of the swap taken. -/
def State.swapStep (s : State) (k : Nat) : State := { s with alm := { s.alm with swapStage := k } }

/-- EPOCH_SUM_SWAP (06 R125, 08 Table 08-9). -/
def execEpochSumSwap (s : State) : Res := .next <| s.when (s.swapDue 1) fun s => s.swapSums.swapStep 1

/-- The bridges in force brought up to their registers (05 R117). -/
def State.bridgeSync (s : State) : State :=
  ({ s with prot := { s.prot with bridges := s.bridgeWords } }).stationSync

/-- EPOCH_EMIT_SWAP (06 R125, 08 Table 08-9; 05 R117). -/
def execEpochEmitSwap (s : State) : Res := .next <| s.when (s.swapDue 2) fun s => (s.swapEmit.bridgeSync).swapStep 2

/-- The chained epoch staged and armed at e + 3 (08 R202). -/
def State.chainNext (s : State) (e : Nat) : State :=
  let h := s.alm.active.head
  let n := h.nextSlot % 16
  let epoch := (s.imageHead n).epoch.toNat
  let s := if s.slotState n = slotAccepted then s.stageStart n true
    else (s.wr F.almStateShadow 0 shFailed).count .almStageFail 0
  s.arm (tadd e h.nextGap) epoch true

/-- The swap complete at e + 3 (08 R200 to R202, R210; 10 R271; 13 R343). -/
def State.swapComplete (s : State) : State :=
  let e := tadd s.now ((s.alm.swapTick : Int) - (s.tick.n : Nat))
  let follow := s.alm.follow
  let s := (s.wr F.almStateShadow 0 shStale).disarm.count .almEpochs 0
  let t := s.log.totals
  let s := { s with log := { s.log with totals := { t with epochs := t.epochs + 1 } } }
  let s := (s.setFlag F.almStateMissed 0 false).clear A.epochMissed 0
  let s := s.logEvent 0x30 0 (s.word .almActiveSetid 0).toNat (s.rd F.almActiveInfoEpoch 0) e true
  let s := s.when follow (·.chainNext e)
  let s := s.auditBegin (s.fstate 38 = fOn)
  let m := s.mate
  let s := { s with mate := { m with syncWanted := m.syncWanted || m.syncing || m.syncAt.isSome } }
  if s.boot.activating then ({ s with boot := { s.boot with activating := false } }).bootNext else s

/-- EPOCH_SWAP_COMPLETE (08 R200). -/
def execEpochSwapComplete (s : State) : Res := .next <| s.when (s.swapDue 3) fun s => (s.swapStep 3).swapComplete

/-- EPOCH_MISSED_CLEAR (08 R201, Table 08-10). -/
def execEpochMissedClear (m : Master) (s : State) : Res :=
  .next <| s.byReg m .almState 0 8 true fun s => (s.setFlag F.almStateMissed 0 false).clear A.epochMissed 0

end Sys2Proof.Machine
end

