-- ==== Sys2Proof/Machine/Library.lean ====
section
/-! DEFINITION. Commands on the almanac library, staging, arming, trims, the table window and the audit (08). -/

namespace Sys2Proof.Machine

/-! ### The library (08 R191 to R194) -/

/-- Bytes written into HBM from address `a`, those not enabled left alone. -/
def hbmPut : List (Option Byte) → Nat → Memory → Memory
  | [], _, m => m
  | some b :: t, a, m => hbmPut t (a + 1) (Tbl.set 0 m a b)
  | none :: t, a, m => hbmPut t (a + 1) m

/-- A write of `data` at HBM address `a` against the 32-byte words that read with an uncorrected error (12 R321): one that the write covers is good
again; of one that it covers in part the bytes are not written.  Answers the first such address, and what is written. -/
def State.hbmMerge (s : State) (a : Nat) (data : List (Option Byte)) : Option Nat × List (Option Byte) × State :=
  let n := data.length
  let met := s.ecc.hbmBad.filter fun w => decide (a < 32 * w + 32) && decide (32 * w < a + n)
  if met.isEmpty then (none, data, s) else
  let whole := fun (w : Nat) => (List.range 32).all fun j => decide (a ≤ 32 * w + j) && (data.getD (32 * w + j - a) none).isSome
  let touched := fun (w : Nat) => (List.range 32).any fun j => decide (a ≤ 32 * w + j) && (data.getD (32 * w + j - a) none).isSome
  let bad := met.filter fun w => touched w && !whole w
  let s := { s with ecc := { s.ecc with hbmBad := s.ecc.hbmBad.filter fun w => !(met.contains w && whole w) } }
  let s := s.each bad fun w s => s.hbmUncorrected (32 * w) false
  (bad.head?.map fun w => max a (32 * w), data.mapIdx fun j b => if bad.contains ((a + j) / 32) then none else b, s)

/-- A write of bytes into slot `i` from offset `off`, refused as R192 says. -/
def State.libraryWrite (s : State) (m : Master) (i off : Nat) (data : List (Option Byte)) : State :=
  let a := slotBase i + off
  match s.slotWriteRefused i with
  | some c => s.errResp m a true c
  | none =>
    let (bad, data, s) := s.hbmMerge a data
    let s := ({ s with hbm := hbmPut data a s.hbm }).slotWritten i
    match bad with
    | some b => s.errResp m b true .ue
    | none => s

/-- LIBRARY_WRITE (08 R192; 14 Table 14-3). -/
def execLibraryWrite (m : Master) (i : SlotId) (off : Nat) (data : List Byte) (s : State) : Res :=
  .next <| s.byTarget m (21 + i / 4) (slotBase i + off) data.length true fun s =>
    (s.libraryWrite m i off (data.map some)).meter .pmBwHbmWr (i / 4) data.length

/-- A mirrored command register: in a joined pair a record of its word, else `f` at once (10 R265, R266, R269). -/
def State.mirroredCmd (s : State) (r : Reg) (v : Nat) (f : State → State) : State :=
  s.mirrored (regAddr r 0) 0xFF (BitVec.ofNat 64 v) f

/-- A slot command judged and carried out in this unit (08 R193, R194). -/
def State.slotDo (s : State) (op i : Nat) : State :=
  let s := s.wr F.almSlotCmdSlot 0 i
  if op = 1 then (if s.checkRefused i then s else s.checkStart i)
  else if op = 2 then (if s.stageRefused i then s else s.stageStart i false)
  else s

/-- A write of ALM_SLOT_CMD: refused with UNAVAILABLE for a LOST slot, else with VALUE where the command is (08 R192 to R194, Table 08-11; 12 R332).
-/
def State.slotCmd (s : State) (m : Master) (op i : Nat) : State :=
  let bad := if op = 1 then s.checkRefused i else if op = 2 then s.stageRefused i else true
  if bad then s.errResp m (regAddr .almSlotCmd 0) true (if s.slotState i = slotLost then .unavailable else .value)
  else s.mirroredCmd .almSlotCmd (op * 256 + i) fun s => s.slotDo op i

/-- ALM_CHECK (08 R193). -/
def execAlmCheck (m : Master) (i : SlotId) (s : State) : Res := .next <| s.byReg m .almSlotCmd 0 8 true fun s => s.slotCmd m 1 i

/-- ALM_CHECK_DONE (08 R193): the command says when the checks end, within 96,000 ticks. -/
def execAlmCheckDone (readUe : Option Nat) (s : State) : Res := .next <| s.checkEnd readUe

/-- ALM_STAGE (08 R194). -/
def execAlmStage (m : Master) (i : SlotId) (s : State) : Res := .next <| s.byReg m .almSlotCmd 0 8 true fun s => s.slotCmd m 2 i

/-- ALM_STAGE_DONE (08 R194, R202): the command says when the copy ends, within 9,600 ticks. -/
def execAlmStageDone (readUe : Bool) (s : State) : Res := .next <| s.stageEnd readUe

/-! ### Arming (08 R198, R203, R204) -/

/-- An arming command carried out in this unit: 1 ARM, 2 DISARM, 3 REJOIN; 0 does nothing. -/
def State.armCmdDo (s : State) (mirrored : Bool) (op : Nat) : State :=
  if op = 1 then s.armDo mirrored else if op = 2 then s.disarmDo else if op = 3 then s.rejoinDo mirrored else s

/-- A write of ALM_ARM_CMD. -/
def State.armCmd (s : State) (op : Nat) : State :=
  if op = 0 then s else s.mirroredCmd .almArmCmd op fun s => s.armCmdDo false op

/-- ALM_ARM (08 R198). -/
def execAlmArm (m : Master) (s : State) : Res := .next <| s.byReg m .almArmCmd 0 8 true fun s => s.armCmd 1

/-- ALM_DISARM (08 R198). -/
def execAlmDisarm (m : Master) (s : State) : Res := .next <| s.byReg m .almArmCmd 0 8 true fun s => s.armCmd 2

/-- ALM_REJOIN (08 R203). -/
def execAlmRejoin (m : Master) (s : State) : Res := .next <| s.byReg m .almArmCmd 0 8 true fun s => s.armCmd 3

/-! ### Trims (08 R205 to R207) -/

/-- Trims queued and mirrored trims on their way. -/
def State.trimsWaiting (s : State) : Nat :=
  s.alm.trims.length + (s.mate.own.filter fun r => decide (r.addr = regAddr .almTrimCmd 0) && r.data.getLsbD 63).length

/-- A GO write of ALM_TRIM_CMD with value `v`, of which the access brought the bytes `be` (08 R205 to R207). -/
def State.trimGo (s : State) (m : Master) (v : Nat) (be : BitVec 8) : State :=
  if 16 ≤ s.trimsWaiting then s.errResp m (regAddr .almTrimCmd 0) true .value
  else if s.estate = eCommitted || s.estate = eSwapping then
    ((s.when (!s.joined && s.paired) (·.count .mateUnmirrored 0)).setWord .almTrimCmd 0 (trimWord v)).trimResult 4
  else s.mirrored (regAddr .almTrimCmd 0) be (BitVec.ofNat 64 v) fun s => s.trimQueue v (tadd s.now 2)

/-- TRIM_GO (08 R205). -/
def execTrimGo (m : Master) (output : Bool) (index : BitVec 21) (gain : BitVec 12) (s : State) : Res :=
  .next <| s.byReg m .almTrimCmd 0 8 true fun s => s.trimGo m (gain.toNat + index.toNat * 2 ^ 24 + b2n output * 2 ^ 48 + 2 ^ 63) 0xFF

/-- What a trim of a joined pair wrote, noted against resynchronisation records read before it (10 R273). -/
def State.trimNote (s : State) (t : Trim) : State :=
  let entry := fun (e : Nat) => 0x8000000 + 16 * e
  let places := if t.output then [entry t.index] else (0xC000000 + 8 * t.index) :: (s.partners t.index).map entry
  if s.joined then { s with mate := { s.mate with recent := s.mate.recent ++ places.map fun a => (BitVec.ofNat 32 s.now, a) } } else s

/-- TRIM_APPLY (08 R205 to R207; 11 R288): the trim at the head once its tick has come, at most one in a tick and none in a tick in which a
restore is due. -/
def execTrimApply (s : State) : Res :=
  .next <| match s.alm.trims with
    | t :: rest =>
      let restore := s.ecc.restores.any fun r => decide (r.2 + 2 ≤ s.tick.n)
      if 0 ≤ tdiff t.u.toNat s.now && s.alm.trimAt ≠ s.tick.n + 1 && !restore && decide (s.ecc.restoredAt ≠ s.tick.n + 1) then
        (({ s with alm := { s.alm with trims := rest, trimAt := s.tick.n + 1 } }).trimDo t).trimNote t
      else s
    | [] => s

/-! ### The table window (08 R196, R197, R409; 12 R318, R321, R331) -/

/-- Why a write of the table window is refused before it is queued, or its place; one that enables bytes 10 to 15 of an emit entry alone writes
nothing (11 R285). -/
def State.windowJudge (s : State) (m : Master) (addr : Nat) (data : List (Option Byte)) : Except ErrCause (WinPlace × Nat) :=
  match winPlace addr with
  | none => .error .default
  | some (p, off) =>
    if p.size < off + data.length then .error .size
    else if !s.expert m then .error .level
    else if !p.writable || (p.enabled off data = 0 && p.size ≠ 16) then .error .value
    else if p.isShadow && s.shadow = shStaging then .error .unavailable
    else
      let held := s.winHeld p
      if p.encodingOk (mergeBytes held p.base p.bytes off data) then .ok (p, off) else .error .value

/-- The beats of a window write as mirrored records: 8 bytes each, on their lanes (10 R267, 12 R319). -/
def windowBeats (addr : Nat) (data : List (Option Byte)) : List (Nat × BitVec 8 × Word) :=
  let first := addr / 8
  let last := (addr + data.length - 1) / 8
  (List.range (last + 1 - first)).map fun j =>
    let a := 8 * (first + j)
    let lane := fun i => if addr ≤ a + i then data.getD (a + i - addr) none else none
    let be := (List.range 8).foldl (fun x i => if (lane i).isSome then x + 2 ^ i else x) 0
    let w := (List.range 8).foldl (fun x i => x + ((lane i).getD 0).toNat * 2 ^ (8 * i)) 0
    (a, BitVec.ofNat 8 be, BitVec.ofNat 64 w)

/-- A window write carried out at cycle `cyc`, for master `m`; none where no master waits for an answer (11 R284; 08 R409). -/
def State.windowDo (s : State) (m : Option Master) (addr : Nat) (data : List (Option Byte)) (cyc : Nat) : State :=
  match winPlace addr with
  | none => s
  | some (p, off) =>
    let refuse := fun (s : State) (c : ErrCause) => match m with | some m => s.errResp m addr true c | none => s
    if p.isShadow && s.shadow = shStaging then refuse s .unavailable
    else match s.winWrite p off data cyc with
      | (.done, s) => s
      | (.bad, s) => refuse s .ue
      | (.reserved, s) => refuse s .value

/-- A write of the table window (08 R196, R197, R409; 10 R265, R266; 12 R318, R326). -/
def State.windowWrite (s : State) (m : Master) (addr : Nat) (data : List (Option Byte)) (cyc : Nat) : State :=
  match s.windowJudge m addr data with
  | .error c => s.errResp m addr true c
  | .ok (p, off) =>
    let s := s.noteWrite (masterNum m) (addr - off) addr cyc
    if s.joined then
      s.each (windowBeats addr data) fun b s => if b.2.1 = 0 then s else s.mirror b.1 b.2.1 b.2.2
    else
      let s := s.when s.paired (·.count .mateUnmirrored 0)
      if p.isActive then { s with alm := { s.alm with window := s.alm.window ++ [{ master := m, addr := addr, data := data }] } }
      else s.windowDo (some m) addr data 0

/-- The target of an address in the table window's range: an offset that holds nothing is the default target's (08 R196; 12 R312). -/
def windowTarget (addr : Nat) : Nat := if (winPlace addr).isSome then 19 else 25

/-- TABLE_WINDOW_WRITE (08 R196, R409). -/
def execTableWindowWrite (m : Master) (addr : Nat) (data : List (Option Byte)) (cyc : Nat) (s : State) : Res :=
  .next <| s.byTarget m (windowTarget addr) addr data.length true fun s => s.windowWrite m addr data cyc

/-- The bank an access of a place takes: memory class and bank together (06 R144). -/
def State.placeBank (s : State) (p : WinPlace) : Option Nat := (s.winAddr p).map (· / 2 ^ 14)

/-- The waiting writes one reserved cycle takes: in order, each the first of its bank (12 R318), banks in `used` taken already. -/
def State.cycleTakes (s : State) : List WindowWrite → List Nat → List WindowWrite × List WindowWrite
  | [], _ => ([], [])
  | w :: ws, used =>
    let b := (winPlace w.addr).bind fun x => s.placeBank x.1
    match b with
    | some b =>
      if used.contains b then
        let (t, k) := State.cycleTakes s ws used
        (t, w :: k)
      else
        let (t, k) := State.cycleTakes s ws (b :: used)
        (w :: t, k)
    | none =>
      let (t, k) := State.cycleTakes s ws used
      (w :: t, k)

/-- The cycle of reserved cycle `j` (06 R144). -/
def reservedCycle (j : Nat) : Nat := 64 * j + 63

/-- Whether reserved cycle `j` is the control plane's (06 Table 06-5). -/
def controlCycle (j : Nat) : Bool := j % 8 = 1 || j % 8 = 3 || j % 8 = 5

/-- Bytes `bs` put at place `k` of what master `m`'s read returns; `ok` false where they could not be read. -/
def State.answerPatch (s : State) (m : Master) (k : Nat) (ok : Bool) (bs : List Byte) : State :=
  let a := Tbl.get {} s.bus.answers (masterNum m)
  s.answer m (a.ok && ok) (a.data.take k ++ bs ++ a.data.drop (k + bs.length))

/-- `n` bytes of one entry of the table window read at cycle `cyc`: the bytes, or why not (11 Table 11-4; 08 R197). -/
def State.windowPart (s : State) (a n cyc : Nat) : Except ErrCause (List Byte) × State :=
  match winPlace a with
  | none => (.error .default, s)
  | some (p, off) =>
    if p.isShadow && s.shadow = shStaging then (.error .unavailable, s)
    else match s.winRead p off n cyc with
      | (some bs, s) => (.ok bs, s)
      | (none, s) => (.error .ue, s)

/-- A read's part of one entry answered. -/
def State.windowAnswer (s : State) (m : Master) (a n k cyc : Nat) : State :=
  match s.windowPart a n cyc with
  | (.ok bs, s) => s.answerPatch m k true bs
  | (.error c, s) => (s.errResp m a false c).answerPatch m k false []

/-- A waiting access carried out in reserved cycle `j` (12 R318). -/
def State.windowTake (s : State) (w : WindowWrite) (j : Nat) : State :=
  if w.read = 0 then s.windowDo (some w.master) w.addr w.data (reservedCycle j)
  else s.windowAnswer w.master w.addr w.read w.place (reservedCycle j)

/-- TABLE_WINDOW_APPLY in control reserved cycle `j` of the tick in progress (12 R318; 06 R144, R145). -/
def execTableWindowApply (j : ReservedId) (s : State) : Res :=
  .next <| s.when (controlCycle j && !s.alm.window.isEmpty) fun s =>
    let took := (s.mate.syncTook.filter fun x => x.1 = j.val && decide (s.mate.syncTick = s.tick.n + 1)).map (·.2 / 2 ^ 14)
    let (take, keep) := s.cycleTakes s.alm.window took
    let s := ({ s with alm := { s.alm with window := keep } }).when (!take.isEmpty) (·.ctrlCycle j)
    s.each take fun w s => s.windowTake w j

/-! ### The audit (08 R210; 06 R144) -/

/-- AUDIT_PASS_END (08 R210): due 269 ticks after the pass began. -/
def execAuditPassEnd (s : State) : Res :=
  .next <| match s.alm.auditSince with
    | some n => s.when (decide (n + 269 ≤ s.tick.n)) State.auditEnd
    | none => s

/-- ALM_AUDIT_CTRL.EN in force: 0 stops the audit, 1 starts a pass where its function is ON (08 R210). -/
def State.auditCtrl (s : State) (en : Bool) : State :=
  let was := s.flag F.almAuditCtrlEn 0
  let s := s.setFlag F.almAuditCtrlEn 0 en
  if en && was then s else s.auditBegin (s.fstate 38 = fOn)

/-- ALM_AUDIT_CTRL_WRITE (08 R210). -/
def execAlmAuditCtrlWrite (m : Master) (en : Bool) (s : State) : Res :=
  .next <| s.byReg m .almAuditCtrl 0 8 true fun s => s.mirroredCmd .almAuditCtrl (b2n en) fun s => s.auditCtrl en

end Sys2Proof.Machine
end

