-- ==== Sys2Proof/Machine/Shared.lean ====
section
/-! DEFINITION. What hosts share on the control bus: scratch banks, doorbells, collisions, semaphores, master resets, and the host ports' own
configuration (12 R308, R322 to R330; 15 R392; 16 R396). -/

namespace Sys2Proof.Machine

/-! ### Scratch banks (12 R322, R323) -/

/-- STATE codes of BUS_SCR_OWN (12 Table 12-11). -/
abbrev bankFree : Nat := 0
abbrev bankOwned : Nat := 1
abbrev bankOrphaned : Nat := 2

def State.bankState (s : State) (n : Nat) : Nat := s.rd F.busScrOwnState n
def State.bankOwner (s : State) (n : Nat) : Nat := s.rd F.busScrOwnOwner n
def State.setBank (s : State) (n st owner : Nat) : State := (s.wr F.busScrOwnState n st).wr F.busScrOwnOwner n owner

/-- The number of the other host port. -/
def otherHost (m : Nat) : Nat := 3 - m

/-- Whether the link of host port number `m` is up. -/
def State.portUp (s : State) (m : Nat) : Bool := (Tbl.get {} s.irqs m).up

/-- Whether master number `m` may claim bank `n` (12 R323). -/
def State.claimOk (s : State) (m n : Nat) : Bool :=
  s.bankState n = bankFree ||
    (s.bankState n = bankOrphaned && decide (m ≤ 2) && (s.bankOwner n ≠ m || !s.portUp (otherHost m)))

/-- A master's doorbell bit for bank `n` set (12 R323, R325). -/
def State.dbPend (s : State) (m n : Nat) : State := (s.wrBit F.busDbPendPend m n true).irqSync

/-- A write of OP in BUS_SCR_OWN by master number `m`, GIVE_TO as stored; none where it is refused (12 R323). -/
def State.ownOp (s : State) (m n op : Nat) : Option State :=
  let dest := s.rd F.busScrOwnGiveTo n
  let own := s.bankState n = bankOwned && s.bankOwner n = m
  match op with
  | 0 => some s
  | 1 => if s.claimOk m n then some (s.setBank n bankOwned m) else none
  | 2 => if own then some (s.setBank n bankFree 0) else none
  | _ => if own && decide (1 ≤ dest) && decide (dest ≤ 3) then some ((s.setBank n bankOwned dest).dbPend dest n) else none

/-- A write of BUS_SCR_OWN: GIVE_TO is stored where `to` gives it, then OP acts; a refused OP changes nothing (12 R323; 15 R381). -/
def State.scrOwnWrite (s : State) (m : Master) (n : Nat) (op : Nat) (dest : Option Nat) : State :=
  let t := match dest with | some v => s.wr F.busScrOwnGiveTo n v | none => s
  match t.ownOp (masterNum m) n op with
  | some t => t
  | none => s.errResp m (regAddr .busScrOwn n) true .owner

/-- SCRATCH_CLAIM (12 R323). -/
def execScratchClaim (m : Master) (n : BankId) (s : State) : Res := .next <| s.byReg m .busScrOwn n 4 true fun s => s.scrOwnWrite m n 1 none

/-- SCRATCH_RELEASE (12 R323). -/
def execScratchRelease (m : Master) (n : BankId) (s : State) : Res := .next <| s.byReg m .busScrOwn n 4 true fun s => s.scrOwnWrite m n 2 none

/-- SCRATCH_GIVE (12 R323). -/
def execScratchGive (m : Master) (n : BankId) (dest : BitVec 3) (s : State) : Res :=
  .next <| s.byReg m .busScrOwn n 4 true fun s => s.scrOwnWrite m n 3 (some dest.toNat)

/-! ### Scratch words (12 R319, R321, R322; 11 R284) -/

/-- The byte address of a scratch word. -/
def scratchAddr (n w : Nat) : Nat := 0x100000 + 0x10000 * n + 8 * w

/-- Where a scratch word is held. -/
def scratchKey (n w : Nat) : Nat := 8192 * n + w

def State.scratchWord (s : State) (n w : Nat) : Nat := (Tbl.get 0 s.bus.scratch (scratchKey n w)).toNat
def State.setScratch (s : State) (n w v : Nat) : State :=
  { s with bus := { s.bus with scratch := Tbl.set 0 s.bus.scratch (scratchKey n w) (BitVec.ofNat 64 v) } }

/-- A scratch word read under its code. -/
def State.scratchGet (s : State) (n w : Nat) : Got × State := s.sramRead (eccAddr 6 n w) false (s.scratchWord n w) false

/-- Why a read of a bank is refused (12 Table 12-6). -/
def State.bankReadRefused (s : State) (n : Nat) : Bool := s.bankState n = bankOrphaned

/-- Why a plain write of word `w` is refused; the scrub-and-test engine's accesses are exempt (12 R322). -/
def State.bankWriteRefused (s : State) (m : Master) (n w : Nat) : Bool :=
  m ≠ .test && (s.bankState n = bankOrphaned || (s.bankState n = bankOwned && decide (8 ≤ w) && s.bankOwner n ≠ masterNum m))

/-- One beat read from a scratch bank. -/
def State.scratchRead (s : State) (m : Master) (n w : Nat) : Except ErrCause Nat × State :=
  if m ≠ .test && s.bankReadRefused n then (.error .fence, s)
  else match s.scratchGet n w with
    | (.data d, s) => (.ok d, s)
    | (_, s) => (.error .ue, s)

/-- One beat written to a scratch bank, `lanes` its eight byte lanes. -/
def State.scratchWrite (s : State) (m : Master) (n w cyc : Nat) (lanes : List (Option Byte)) : Option ErrCause × State :=
  if s.bankWriteRefused m n w then (some .fence, s)
  else
    let put := fun (s : State) (old : Nat) => (s.setScratch n w (mergeBytes old 0 8 0 lanes)).noteWrite (masterNum m) (scratchKey n w)
      (scratchAddr n w) cyc
    if lanes.all Option.isSome then (none, (put s 0).fullWrite (eccAddr 6 n w))
    else match s.scratchGet n w with
      | (.data d, s) => (none, (put s d).mergedWrite (eccAddr 6 n w))
      | (_, s) => (some .ue, s)

/-! ### Doorbells (12 R324, R325) -/

/-- The masters a changed doorbell word of bank `n` notifies, for an operation by master number `m`; the boot loader's own operation notifies
both hosts (12 R325; DEDUCED, log entry 16). -/
def State.notified (s : State) (m n : Nat) : List Nat :=
  let others := if m ≤ 2 then [otherHost m] else [1, 2]
  if s.bankState n = bankOwned && s.bankOwner n ≠ m then [s.bankOwner n] else others

/-- An indivisible operation on a doorbell word: `f` gives its new value, or none where nothing is written; `wide` where all of its bytes are
written.  Answers the value before, or none on an uncorrectable error. -/
def State.doorbell (s : State) (m n w : Nat) (wide : Bool) (f : Nat → Option Nat) : Option Nat × State :=
  match s.scratchGet n w with
  | (.data d, s) =>
    match f d with
    | some v =>
      let s := s.setScratch n w v
      let s := if wide then s.fullWrite (eccAddr 6 n w) else s.mergedWrite (eccAddr 6 n w)
      (some d, if v = d then s else s.each (s.notified m n) fun k s => s.dbPend k n)
    | none => (some d, s)
  | (_, s) => (none, s)

/-- What an alias operation makes of a word; a read of op 0, 1 or 3 changes nothing (12 Table 12-7). -/
def aliasResult (op data d : Nat) : Nat :=
  match op with
  | 0 => d ||| data
  | 1 => d - (d &&& data)
  | 2 => 0
  | _ => (d + data) % 2 ^ 64

/-- The byte address of an alias (12 R324). -/
def aliasAddr (n op w : Nat) : Nat := 0x1018000 + 0x100 * n + 0x40 * op + 8 * w

/-- An alias access after target 18 has granted it: the bank grants it too; `data` is none for a read (12 R324, Table 12-7, note under Table 12-13).
-/
def State.aliasDo (s : State) (m : Master) (n op w : Nat) (data : Option Nat) : State :=
  let addr := aliasAddr n op w
  let wr := data.isSome
  if wr && op = 2 then s.refuse m addr 8 wr .size
  else
    let s := s.grantTo m (1 + n) 1
    if !s.available (1 + n) then s.refuse m addr 8 wr .unavailable
    else if s.bankReadRefused n then s.refuse m addr 8 wr .fence
    else
      let f := fun d => match data with | some v => some (aliasResult op v d) | none => if op = 2 then some 0 else none
      match s.doorbell (masterNum m) n w true f with
      | (some d, s) => if wr then s else s.answer m true (toBytes 8 d)
      | (none, s) => s.refuse m addr 8 wr .ue

/-- An alias access of 8 bytes. -/
def State.aliasAccess (s : State) (m : Master) (n op w : Nat) (data : Option Nat) : State :=
  s.byTarget m 18 (aliasAddr n op w) 8 data.isSome fun s => s.aliasDo m n op w data

/-- DOORBELL_SET (12 R324, R325). -/
def execDoorbellSet (m : Master) (n : BankId) (w : DoorbellId) (data : BitVec 64) (s : State) : Res :=
  .next <| s.aliasAccess m n 0 w (some data.toNat)

/-- DOORBELL_CLEAR (12 R324, R325). -/
def execDoorbellClear (m : Master) (n : BankId) (w : DoorbellId) (data : BitVec 64) (s : State) : Res :=
  .next <| s.aliasAccess m n 1 w (some data.toNat)

/-- DOORBELL_FETCH_CLEAR (12 R324, R325). -/
def execDoorbellFetchClear (m : Master) (n : BankId) (w : DoorbellId) (s : State) : Res := .next <| s.aliasAccess m n 2 w none

/-- DOORBELL_ADD (12 R324, R325). -/
def execDoorbellAdd (m : Master) (n : BankId) (w : DoorbellId) (data : BitVec 64) (s : State) : Res :=
  .next <| s.aliasAccess m n 3 w (some data.toNat)

/-! ### AtomicOps (12 R308, R324) -/

/-- The host port's master. -/
def portMaster : Port → Master
  | .a => .hostA | .b => .hostB

/-- The doorbell word at an address: its own address, or the remap window's while that shows scratch bank 0 (12 R314, R324). -/
def State.doorbellAt (s : State) (addr : Nat) : Option (Nat × Nat) :=
  if 0x100000 ≤ addr && addr < 0x200000 && decide (addr % 0x10000 < 64) then some ((addr - 0x100000) / 0x10000, addr % 64 / 8)
  else if addr < 64 && s.flag F.sysCtrlRemap 0 then some (0, addr / 8)
  else none

/-- The operand's bits of a word replaced: all of it, or its half at `addr`. -/
def putOperand (wide : Bool) (addr d v : Nat) : Nat := if wide then v % 2 ^ 64 else putField d (8 * (addr % 8)) 32 v

/-- The operand's bits of a word. -/
def getOperand (wide : Bool) (addr d : Nat) : Nat := if wide then d else field d (8 * (addr % 8)) 32

/-- An AtomicOp of a host port: on a doorbell word's aligned 4 or 8 bytes; elsewhere Completer Abort and nothing written (12 R324).  It is refused
while the port's link is down or in D3hot (R308); an error response to it is latched as a read's is (DESIGN CHOICE, log entry 17). -/
def State.atomic (s : State) (p : Port) (addr : Nat) (wide : Bool) (f : Nat → Option Nat) : State :=
  let m := (portMaster p)
  let port := Tbl.get {} s.irqs (masterNum m)
  let n := if wide then 8 else 4
  if !port.up || port.d3hot || s.masterWaits m then s
  else
    match s.doorbellAt addr with
    | some (b, w) =>
      if addr % n ≠ 0 then (s.aerLog (masterNum m)).answer m false []
      else
        let t := if addr < 64 then 0 else 1 + b
        let s := ((s.hostMeter m true n).passOver m t).grantTo m t 1
        let bad := fun (s : State) c => s.refuse m addr n false c
        if !s.available (1 + b) then bad s .unavailable
        else if s.bankReadRefused b then bad s .fence
        else match s.doorbell (masterNum m) b w wide fun d => (f (getOperand wide addr d)).map (putOperand wide addr d) with
          | (some d, s) => s.answer m true (toBytes n (getOperand wide addr d))
          | (none, s) => bad s .ue
    | none => (s.aerLog (masterNum m)).answer m false []

/-- The sum of two operands of an AtomicOp. -/
def atomicAdd (wide : Bool) (a b : Nat) : Nat := (a + b) % 2 ^ (if wide then 64 else 32)

/-- ATOMIC_FETCHADD (12 R324, R325). -/
def execAtomicFetchadd (p : Port) (addr : Nat) (wide : Bool) (data : BitVec 64) (s : State) : Res :=
  .next <| s.atomic p addr wide fun d => some (atomicAdd wide d data.toNat)

/-- ATOMIC_SWAP (12 R324, R325). -/
def execAtomicSwap (p : Port) (addr : Nat) (wide : Bool) (data : BitVec 64) (s : State) : Res :=
  .next <| s.atomic p addr wide fun _ => some data.toNat

/-- ATOMIC_CAS (12 R324, R325): one whose compare fails writes nothing. -/
def execAtomicCas (p : Port) (addr : Nat) (wide : Bool) (cmp data : BitVec 64) (s : State) : Res :=
  .next <| s.atomic p addr wide fun d => if d = getOperand wide 0 cmp.toNat then some data.toNat else none

/-! ### Semaphores (12 R327, R328) -/

/-- The address of a word of a semaphore (12 Table 12-8). -/
def semAddr (i off : Nat) : Nat := 0x200000 + 0x40 * i + off

def State.semOwner (s : State) (i : Nat) : Nat := Tbl.get 0 s.bus.semOwner i

/-- Semaphore `i` held by master number `m`, 0 none; SEM0_HOLDER, recovery and the log follow semaphore 0 (12 R328, R330). -/
def State.semSet (s : State) (i m who : Nat) : State :=
  let s := { s with bus := { s.bus with semOwner := Tbl.set 0 s.bus.semOwner i m } }
  if i = 0 then ((s.wr F.busStatusSem0Holder 0 m).logEvent 0x41 0 who 0 0 true).recoverySync else s

/-- Semaphore `i` freed. -/
def State.semFree (s : State) (i : Nat) : State := if s.semOwner i = 0 then s else s.semSet i 0 (s.semOwner i)

/-- Whether master number `m` wrote ARM within the 1,024 bus cycles before (12 R328). -/
def State.semArmed (s : State) (m cyc : Nat) : Bool :=
  let t := Tbl.get 0 s.bus.armed m
  t ≠ 0 && decide (s.busTime cyc + 1 ≤ t + 3 * 1024)

/-- A read of TRY by master number `m`: what it returns, and whether it takes the semaphore. -/
def State.semTry (s : State) (m i cyc : Nat) : Nat × State :=
  let own := s.semOwner i
  if i = 0 && !s.semArmed m cyc then (own, s)
  else if own = 0 then
    let s := { s with bus := { s.bus with semTick := Tbl.set 0 s.bus.semTick i s.now } }
    (2 ^ 63 + m, (s.count .busSemTaken 0).semSet i m m)
  else (b2n (own = m) * 2 ^ 63 + own, s)

/-- A write of RELEASE (12 R327). -/
def State.semRelease (s : State) (m : Master) (i : Nat) : Option ErrCause × State :=
  if s.semOwner i = masterNum m then (none, s.semFree i) else (some .owner, s)

/-- A write of ARM (12 R327). -/
def State.semArm (s : State) (m : Master) (i data cyc : Nat) : Option ErrCause × State :=
  if i = 0 && data = 0x5EC0 then
    (none, { s with bus := { s.bus with armed := Tbl.set 0 s.bus.armed (masterNum m) (s.busTime cyc + 1) } })
  else (some .value, s)

/-- A write of FORCE (12 R327, R331); only one that frees a semaphore counts. -/
def State.semForce (s : State) (m : Master) (i : Nat) : Option ErrCause × State :=
  if !s.expert m then (some .level, s)
  else if s.semOwner i = 0 then (none, s)
  else (none, (s.semFree i).count .busSemForced 0)

/-- One 8-byte read of the semaphore target; an offset that is not listed, or not read, is an error response (12 R327; its cause is a
DESIGN CHOICE, log entry 17). -/
def State.semRead (s : State) (m : Master) (off cyc : Nat) : Except ErrCause Nat × State :=
  let i := off / 0x40
  match off % 0x40 with
  | 0x00 =>
    let (d, s) := s.semTry (masterNum m) i cyc
    (.ok d, s)
  | 0x10 => (.ok (Tbl.get 0 s.bus.semTick i * 2 ^ 32 + s.semOwner i), s)
  | _ => (.error .value, s)

/-- One 8-byte write of the semaphore target (12 R327). -/
def State.semWrite (s : State) (m : Master) (off data cyc : Nat) : Option ErrCause × State :=
  let i := off / 0x40
  match off % 0x40 with
  | 0x08 => s.semRelease m i
  | 0x18 => s.semArm m i data cyc
  | 0x20 => s.semForce m i
  | _ => (some .value, s)

/-- A semaphore write as its own command. -/
def State.semCmd (s : State) (m : Master) (i off data cyc : Nat) : State :=
  s.byTarget m 17 (semAddr i off) 8 true fun s =>
    match s.semWrite m (0x40 * i + off) data cyc with
    | (none, s) => s
    | (some c, s) => s.errResp m (semAddr i off) true c

/-- SEM_TRY (12 R327, R328). -/
def execSemTry (m : Master) (i : SemId) (cyc : Nat) (s : State) : Res :=
  .next <| s.byTarget m 17 (semAddr i 0) 8 false fun s =>
    let (d, s) := s.semTry (masterNum m) i cyc
    s.answer m true (toBytes 8 d)

/-- SEM_RELEASE (12 R327, R328). -/
def execSemRelease (m : Master) (i : SemId) (s : State) : Res := .next <| s.semCmd m i 0x08 0 0

/-- SEM_ARM (12 R327, R328). -/
def execSemArm (m : Master) (i : SemId) (data : BitVec 64) (cyc : Nat) (s : State) : Res := .next <| s.semCmd m i 0x18 data.toNat cyc

/-- SEM_FORCE (12 R327). -/
def execSemForce (m : Master) (i : SemId) (s : State) : Res := .next <| s.semCmd m i 0x20 0 0

/-! ### Host ports (12 R308; 13 R349; 15 R384, R392) -/

/-- A host port's state changed. -/
def State.setPort (s : State) (m : Nat) (p : IrqH) : State := { s with irqs := Tbl.set {} s.irqs m p }

/-- HOST_LINK_UP (13 R349): training has ended. -/
def execHostLinkUp (p : Port) (s : State) : Res :=
  .next <|
    let m := masterNum (portMaster p)
    s.when s.boot.risen fun s => s.setPort m { Tbl.get {} s.irqs m with up := true }

/-- The identity a port presents: vendor, device, revision, class, subsystem vendor, subsystem (15 Table 15-14). -/
def identityBytes : List Byte :=
  toBytes 2 0x1D5C ++ toBytes 2 0x4128 ++ toBytes 1 0x00 ++ toBytes 3 0x088000 ++ toBytes 2 0x1D5C ++ toBytes 2 0x0001

/-- A base address register as read: its address bits as written above the size of its BAR, and the type; the others read 0 (12 R310, Table 12-2).
The places of type and prefetchable are the PCIe specification's (PRESUMED, log entry 10). -/
def barRead (h : IrqH) (n : Nat) : BitVec 32 :=
  let w := Tbl.get 0 h.bars n
  match n with
  | 0 => (w &&& 0xE0000000) ||| 0x4
  | 1 => w
  | 2 => 0xC
  | 3 => w
  | _ => 0

/-- What the port's writable capabilities hold: power state (3 in D3hot), bus-master enable, MSI-X enable, function mask, then the error status of
advanced error reporting (their order is the model's own, log entry 10). -/
def statusBytes (h : IrqH) : List Byte :=
  [if h.d3hot then 3 else 0, BitVec.ofNat 8 (b2n h.busMaster), BitVec.ofNat 8 (b2n h.msix), BitVec.ofNat 8 (b2n h.fnMask)] ++ toBytes 4 h.aer.toNat

/-- CONFIGURATION_REQUEST (12 R308, R309; 13 R349; 15 R384, R392): answered from link-up on. -/
def execConfigurationRequest (p : Port) (r : CfgReq) (s : State) : Res :=
  .next <|
    let m := masterNum (portMaster p)
    let h := Tbl.get {} s.irqs m
    let put := fun (h : IrqH) => (s.setPort m h.flush).irqSync
    if !h.up then s
    else match r with
      | .readId => s.answer (portMaster p) true identityBytes
      | .readBar n => s.answer (portMaster p) true (toBytes 4 (barRead h n).toNat)
      | .writeBar n v => s.setPort m { h with bars := Tbl.set 0 h.bars n v }
      | .readStatus => s.answer (portMaster p) true (statusBytes h)
      | .clearAer b => s.setPort m { h with aer := h.aer &&& ~~~b }
      | .power d => put { h with d3hot := d }
      | .busMaster on => put { h with busMaster := on }
      | .msix on mask => put { h with msix := on, fnMask := mask }

/-- A port's configuration space and MSI-X structures as the PCIe specification resets them; messages already sent and the sources keep
(15 R392; PRESUMED, log entry 10). -/
def IrqH.restart (h : IrqH) (down : Bool) : IrqH := { seen := h.seen, sent := h.sent, up := h.up && !down }

/-- INT_SRC_CLEAR (15 R391): bits 5 and 6 follow their sources. -/
def State.srcClear (s : State) (m bits : Nat) : State :=
  let w := (s.word .sysIntSrc m).toNat
  (s.setWord .sysIntSrc m (BitVec.ofNat 64 (w - (w &&& (bits &&& 0xF9F))))).irqSync

/-- INT_SRC_CLEAR (15 R391; 14 R367). -/
def execIntSrcClear (m : Master) (p : Port) (bits : BitVec 12) (s : State) : Res :=
  .next <| s.byReg m .sysIntSrc (masterNum (portMaster p)) 8 true fun s => s.srcClear (masterNum (portMaster p)) bits.toNat

/-! ### Master resets (12 R329) -/

/-- Set bits of a mask of `n` indices that satisfy `p`. -/
def maskOf (n : Nat) (p : Nat → Bool) : Nat := (List.range n).foldl (fun a i => if p i then a + 2 ^ i else a) 0

/-- A master reset of master number `m`, 1 to 3, in R329's order. -/
def State.masterReset (s : State) (m : Nat) : State :=
  let sems := maskOf 64 fun i => s.semOwner i = m
  let banks := maskOf 16 fun n => s.bankState n = bankOwned && s.bankOwner n = m
  let s := { s with bus := { s.bus with waiting := s.bus.waiting.filter fun r => masterNum r.master ≠ m } }
  let s := { s with alm := { s.alm with window := s.alm.window.filter fun w => masterNum w.master ≠ m || w.read = 0 } }
  let s := s.eachN 64 fun i s => if bit sems i then s.semFree i else s
  let s := s.eachN 16 fun n s => if bit banks n then s.wr F.busScrOwnState n bankOrphaned else s
  let s := s.setFlag (if m = 1 then F.busStatusPeerResetA else if m = 2 then F.busStatusPeerResetB else F.busStatusPeerResetBl) 0 true
  let s := (s.count .busResets m).logEvent 0x42 0 m sems banks true
  s.irqSync

/-- MASTER_RESET (12 R329; 15 R392; 16 R396): of a host port or the boot loader; `linkDown` where the port's link goes down, as it does but for a
function level reset. -/
def execMasterReset (m : Master) (linkDown : Bool) (s : State) : Res :=
  .next <|
    let i := masterNum m
    if 3 < i then s
    else if i = 3 then s.masterReset 3
    else
      let s := s.masterReset i
      s.setPort i ((Tbl.get {} s.irqs i).restart linkDown)

/-! ### The rest of the control registers that are commands of their own -/

/-- REMAP_WRITE (12 R314). -/
def execRemapWrite (m : Master) (remap : Bool) (s : State) : Res :=
  .next <| s.byReg m .sysCtrl 0 8 true fun s => s.expertOnly m (regAddr .sysCtrl 0) fun s => s.setFlag F.sysCtrlRemap 0 remap

/-- BUS_ERR_LAST_READ (12 R311, Table 12-10): the read clears VALID. -/
def execBusErrLastRead (m of : Master) (s : State) : Res :=
  .next <|
    let i := masterNum of
    s.byReg m .busErrLast i 8 false fun s => (s.answer m true (toBytes 8 (s.word .busErrLast i).toNat)).setFlag F.busErrLastValid i false

/-- The address of a word of the alarm table (15 R387). -/
def alarmAddr (a off : Nat) : Nat := 0x1004000 + 0x40 * a + off

/-- LATCH bits of word `w` of alarm `a` cleared where `bits` is 1 (15 R387). -/
def State.latchClear (s : State) (a w bits : Nat) : State :=
  { s with latch := Tbl.modify 0 s.latch a (· &&& ~~~(BitVec.ofNat 256 (bits * 2 ^ (64 * w)))) }

/-- ALARM_LATCH_CLEAR (15 R387, R391): SRC is left alone. -/
def execAlarmLatchClear (m : Master) (a : AlarmId) (w : Fin 4) (bits : BitVec 64) (s : State) : Res :=
  .next <| s.byTarget m 18 (alarmAddr a (0x20 + 8 * w)) 8 true fun s => s.latchClear a w bits.toNat

end Sys2Proof.Machine
end

