-- ==== Sys2Proof/Machine/Loader.lean ====
section
/-! DEFINITION. How the boot loader starts and ends (13 R343, R344, R346 to R348; 12 R323, R329). -/

namespace Sys2Proof.Machine

/-- PHASE codes of SYS_BOOT_STATUS that the loader sets (13 Table 13-10). -/
abbrev phaseRunning : Nat := 2
abbrev phaseDone : Nat := 3
abbrev phaseFailed : Nat := 4

/-- Whether the loader runs. -/
def State.bootRunning (s : State) : Bool := s.rd F.sysBootStatusPhase 0 = phaseRunning

/-- The loader starts at the head of its list; it owns scratch bank 0 while it runs (13 R343). -/
def State.bootBegin (s : State) : State :=
  let s := { s with boot := { s.boot with
    ran := true, fallbackTried := false, firstLoad := none, slots := [], bootSlot := 0, activating := false } }
  let s := ((s.wr F.sysBootStatusFail 0 0).wr F.sysBootStatusImage 0 0).setFlag F.sysBootStatusFallback 0 false
  ((s.wr F.sysBootStatusPhase 0 phaseRunning).bootAt 0).setBank 0 bankOwned 3

/-- The loader has ended in phase `p`: scratch bank 0 is released where it still owns it, and the end is logged (13 R343; 14 Table 14-7). -/
def State.bootStop (s : State) (p : Nat) : State :=
  let s := (s.wr F.sysBootStatusPhase 0 p).when (s.bankState 0 = bankOwned && s.bankOwner 0 = 3) (·.setBank 0 bankFree 0)
  s.logEvent 0x02 0 (s.word .sysBootStatus 0).toNat (s.word .almActiveSetid 0).toNat (s.rd F.almActiveInfoEpoch 0) true

/-- BOOT_LOADER_START (13 R346): in AUTONOMOUS mode at the end of P3, once. -/
def execBootLoaderStart (s : State) : Res :=
  .next <| s.when (s.boot.p3 && s.boot.mode = .autonomous && !s.boot.unusable && !s.boot.ran) State.bootBegin

/-- Whether a RUN is accepted (13 R339, R347, R348); before the end of P3 or on an unusable device it is not (DESIGN CHOICE, log entry 18). -/
def State.runOk (s : State) : Bool :=
  s.boot.p3 && !s.boot.unusable && !s.bootRunning &&
    (s.boot.mode ≠ .autonomous || s.flag F.busStatusRecFatal 0 || s.flag F.busStatusRecSem0 0)

/-- A RUN: a second one is a master reset of the loader (12 R329; 13 R343). -/
def State.bootRun (s : State) : State := (s.when s.boot.ran (·.masterReset 3)).bootBegin

/-- SYS_BOOT_RUN (13 R347, R348). -/
def execSysBootRun (m : Master) (s : State) : Res :=
  let a := regAddr .sysBootCmd 0
  .next <| s.byReg m .sysBootCmd 0 8 true fun s => s.expertOnly m a fun s => s.valueOnly m a s.runOk State.bootRun

end Sys2Proof.Machine
end

