-- ==== Sys2Proof/Machine/Pair.lean ====
section
/-! DEFINITION. The lichen pair's commands that act at once (10): mate frames, roles, heartbeat, the state of the link, comparison, watches
and MATE_CMD. -/

namespace Sys2Proof.Machine

/-! ### Frames and roles (10 R246, R252, R260) -/

/-- MATE_FRAME_RECEIVE (10 R246): a usable M0 frame that has come is read. -/
def execMateFrameReceive (s : State) : Res :=
  .next <| s.when s.paired fun s =>
    match s.mate.ready with
    | some (k, t) => s.mateFrame k.toNat t
    | none => s

/-- MATE_ROLE_CHANGE (10 R252, R255, R258, R264): a change decided in an earlier tick. -/
def execMateRoleChange (s : State) : Res := .next <| s.when s.paired fun s => s.roleChange.joinSync

/-- MATE_JOIN_WAIT_END (10 Table 10-3, R269). -/
def execMateJoinWaitEnd (s : State) : Res :=
  .next <| s.when (s.paired && s.role = roleJoining && decide (max 1 (s.rd F.mateCfgJoinWait 0) * 48000 ≤ s.mate.joinTicks)) fun s =>
    let s := s.enterRole roleActive
    s.when (!s.active A.mateRankClash 0) (·.raise A.mateAbsent 0)

/-- MATE_LINK_DOWN_RAISE (10 R260). -/
def execMateLinkDownRaise (s : State) : Res :=
  .next <| s.when (s.paired && decide (3 ≤ s.mate.absentRun) && !s.active A.mateLinkDown 0) fun s =>
    (((s.raise A.mateLinkDown 0).setFlag F.mateStateLinkUp 0 false).count .mateLinkLoss 0).joinSync

/-- MATE_LINK_DOWN_CLEAR (10 R260). -/
def execMateLinkDownClear (s : State) : Res :=
  .next <| s.when (s.active A.mateLinkDown 0 && decide (48 ≤ s.mate.usableRun)) fun s =>
    (s.clear A.mateLinkDown 0).setFlag F.mateStateLinkUp 0 true

/-! ### The heartbeat (10 R250, R251, R257, R258) -/

/-- Periods of the disciplined clock in a tick (10 R250). -/
abbrev periodsPerTick : Nat := 1024

/-- MATE_HB_EDGE (10 R251): an edge at a period of the tick in progress; one more than 320 periods after the last follows a missed one. -/
def execMateHbEdge (period : Nat) (s : State) : Res :=
  .next <| s.when s.paired fun s =>
    let now := periodsPerTick * s.tick.n + period + 1
    let m := s.mate
    let late := m.hbEdge ≠ 0 && decide (m.hbEdge + 320 < now)
    { s with mate := { m with hbEdge := now, hbMissedNow := m.hbMissedNow || late } }

/-- MATE_HB_LOST (10 R251, R257): 576 periods have run since the last edge by the end of the tick in progress. -/
def execMateHbLost (s : State) : Res :=
  .next <| s.when (s.paired && s.hbSeen && decide (s.mate.hbEdge + 576 ≤ periodsPerTick * (s.tick.n + 1))) fun s =>
    let s := (s.count .mateHbLoss 0).setFlag F.mateStateHbOk 0 false
    { s with mate := { s.mate with hbClassify := some s.tick.n, hbCleanTicks := 0, hbMissedNow := true } }

/-- MATE_HB_LOSS_CLASSIFY (10 Table 10-4, R258): at the tick edge after a loss. -/
def execMateHbLossClassify (s : State) : Res :=
  .next <| match s.mate.hbClassify with
    | none => s
    | some n => s.when (decide (n < s.tick.n)) fun s =>
      let s := { s with mate := { s.mate with hbClassify := none } }
      if s.qstate 32 ≠ qUp || decide (2 ≤ s.mate.absentRun) || s.active A.mateLinkDown 0 then
        (s.raise A.mateHbLost 0).when (s.role = roleVigil) (·.enterRole roleActive)
      else if s.flag F.mateStateMateHbSeen 0 then s.raise A.mateHbFail 0
      else s.settleLoss

/-- MATE_HB_REGAIN (10 R251, R258, R276). -/
def execMateHbRegain (s : State) : Res :=
  .next <| s.when (s.paired && !s.hbSeen && decide (48 ≤ s.mate.hbCleanTicks)) fun s =>
    let s := ((s.setFlag F.mateStateHbOk 0 true).clear A.mateHbLost 0).clear A.mateHbFail 0
    let s := { s with mate := { s.mate with simultaneous := false } }
    s.when (s.flag F.mateStateMateHbSeen 0) (·.clear A.mateDispute 0)

/-! ### Settling, comparison, watches (10 R259, R274, R276) -/

/-- RESYNC_SETTLED (10 R274): 48 consecutive compared frames have matched. -/
def execResyncSettled (s : State) : Res :=
  .next <| s.when (s.role = roleVigil && s.sync = syncSettling && decide (48 ≤ s.mate.settled)) fun s =>
    (s.setSync syncSynced).clear A.mateUnsettled 0

/-- MATE_UNSETTLED_TIMEOUT (10 R274). -/
def execMateUnsettledTimeout (s : State) : Res :=
  .next <| s.when (s.role = roleVigil && s.sync = syncSettling && decide (48000 ≤ s.mate.settling)) (·.raise A.mateUnsettled 0)

/-- MATE_DISCREPANCY_CLEAR (10 Table 10-9): 4,800 consecutive compared frames without a mismatch. -/
def execMateDiscrepancyClear (s : State) : Res :=
  .next <| s.when (decide (4800 ≤ s.mate.cleanRun)) fun s =>
    (s.clear A.discrepancyUnexplained 0).clear A.mateInputDiffer 0

/-- MATE_WATCH_EXPIRE (10 R259): the last message that showed the copy lost is 48 ticks old. -/
def execMateWatchExpire (w : WatchId) (s : State) : Res :=
  .next <| s.when (bit (s.word .mateWatchLost 0).toNat w) State.watchSync

/-! ### MATE_CMD (10 R275) -/

/-- Whether the pair's VIGIL is SYNCED and not WITHHELD, as this unit sees it. -/
def State.vigilReady (s : State) : Bool :=
  if s.role = roleVigil then s.sync = syncSynced && !s.withheld
  else s.role = roleActive && s.mateRole = roleVigil && s.mateSync = syncSynced && !bit (s.mateSlot 0) 4

/-- SWAP at its tick edge. -/
def State.mateSwap (s : State) : State :=
  (s.enterRole (if s.role = roleActive then roleVigil else roleActive)).count .mateSwaps 0

/-- CLEAR_FAULT. -/
def State.mateClearFault (s : State) : State := (s.setFlag F.mateStateWithheld 0 false).clear A.mateFault 0

/-- RESYNC: the VIGIL wants a new resynchronisation, the ACTIVE starts sending anew. -/
def State.mateResync (s : State) : State :=
  { (s.when (s.role = roleVigil) (·.setSync syncSyncing)) with mate := { s.mate with syncWanted := true } }

/-- A command of MATE_CMD carried out: at u where the pair is joined, else at once; `mine` where this unit was the one written. -/
def State.mateCmdDo (s : State) (mine : Bool) (op : Nat) : State :=
  let ok := match op with
    | 1 => s.joined && s.vigilReady
    | 2 => true
    | _ => if mine then s.role = roleVigil else s.mateRole = roleVigil
  if !ok then s.wr F.mateCmdResult 0 2
  else
    let s := s.wr F.mateCmdResult 0 (if s.joined then 1 else 3)
    match op with | 1 => s.mateSwap | 2 => s.mateClearFault | _ => s.mateResync

/-- A write of MATE_CMD: reserved codes get an error response (10 Table 10-8). -/
def State.mateCmd (s : State) (m : Master) (op : Nat) : State :=
  s.valueOnly m (regAddr .mateCmd 0) (decide (1 ≤ op) && decide (op ≤ 3)) fun s =>
    s.mirroredCmd .mateCmd op fun s => s.mateCmdDo true op

/-- MATE_CMD_SWAP (10 R275). -/
def execMateCmdSwap (m : Master) (s : State) : Res := .next <| s.byReg m .mateCmd 0 8 true fun s => s.mateCmd m 1

/-- MATE_CMD_CLEAR_FAULT (10 R275). -/
def execMateCmdClearFault (m : Master) (s : State) : Res := .next <| s.byReg m .mateCmd 0 8 true fun s => s.mateCmd m 2

/-- MATE_CMD_RESYNC (10 R275). -/
def execMateCmdResync (m : Master) (s : State) : Res := .next <| s.byReg m .mateCmd 0 8 true fun s => s.mateCmd m 3

end Sys2Proof.Machine
end

