-- ==== Sys2Proof/Machine/Schedule.lean ====
section
/-! DEFINITION. The core's status commands and the end of its alarms (06 R141, R146). -/

namespace Sys2Proof.Machine

/-- OVERRUN written 1 (06 Table 06-9): the alarm waits for a following tick without a late pair. -/
def State.overrunClear (s : State) : State :=
  let s := (s.setFlag F.coreStatusOverrun 0 false).wr F.coreStatusOvrStation 0 0
  let s := s.wr F.coreStatusOvrSlot 0 0
  { s with core := { s.core with overrunClear := s.core.overrunClear ++ [s.tick.n] } }

/-- CLASH or POST_CLASH written 1 (06 Table 06-9): with both at 0, the alarm waits for a following tick that has neither. -/
def State.clashClear (s : State) (clash post : Bool) : State :=
  let s := s.when clash (·.setFlag F.coreStatusClash 0 false)
  let s := s.when post (·.setFlag F.coreStatusPostClash 0 false)
  if s.flag F.coreStatusClash 0 || s.flag F.coreStatusPostClash 0 then s
  else { s with core := { s.core with clashClear := s.core.clashClear ++ [s.tick.n] } }

/-- The writes that still wait after the tick `n` that ends, and whether it was the following tick of one of them. -/
def clearsAfter (n : Nat) (w : List Nat) : List Nat × Bool := (w.filter fun m => decide (n ≤ m), w.any fun m => decide (m < n))

/-- Both alarms at the end of a tick (06 Table 06-6). -/
def State.coreAlarms (s : State) : State :=
  let late := s.core.lateThisTick
  let clash := s.core.clashThisTick
  let o := clearsAfter s.tick.n s.core.overrunClear
  let c := clearsAfter s.tick.n s.core.clashClear
  let s := { s with core := { s.core with lateThisTick := false, clashThisTick := false, overrunClear := o.1, clashClear := c.1 } }
  (s.when (o.2 && !late) (·.clear A.scheduleOverrun 0)).when (c.2 && !clash) (·.clear A.scheduleClash 0)

/-- SCHEDULE_OVERRUN_CLEAR (06 Table 06-6). -/
def execScheduleOverrunClear (m : Master) (s : State) : Res := .next <| s.byReg m .coreStatus 0 8 true fun s => s.overrunClear

/-- SCHEDULE_CLASH_CLEAR (06 Table 06-6). -/
def execScheduleClashClear (m : Master) (s : State) : Res := .next <| s.byReg m .coreStatus 0 8 true fun s => s.clashClear true true

/-- CORE_SLACK_READ (06 Table 06-10): the read clears VALID and MIN_SLACK. -/
def execCoreSlackRead (m : Master) (k : StationId) (s : State) : Res := .next <| s.byReg m .coreSlack k 8 false fun s =>
  (s.answer m true (toBytes 8 (s.word .coreSlack k).toNat)).setWord .coreSlack k 0

end Sys2Proof.Machine
end

