-- ==== Sys2Proof/Machine/Timing.lean ====
section
/-! DEFINITION. Commands and events of the timing block (09). -/

namespace Sys2Proof.Machine

/-! ### References (09 R218 to R221) -/

/-- REF_EVENT (09 R218, R219): an edge at a pin, `t16` units after the present tick's edge, with the measured frequency. -/
def execRefEvent (i : PinRefId) (t16 : Nat) (freq : Int) (s : State) : Res :=
  let ty := s.refType i
  .next <|
    if ty = 4 || ty = 5 then s.refFreqTake i freq
    else if ty = 1 || ty = 2 || ty = 3 then (s.refEvent i t16).refFreqTake i freq
    else s

/-- Whether the window of a reference's next event ends by the end of the tick in progress. -/
def State.refOverdue (s : State) (i : Nat) : Bool :=
  match (s.ref i).next with
  | some x => decide (x + s.refWindow i ≤ ((s.tick.n : Int) + 1) * unitsPerTick)
  | none => false

/-- REF_EVENT_MISSING (09 R219): an event has missed its window, or a FREQ reference has had no edge for 1 µs. -/
def execRefEventMissing (i : RefId) (s : State) : Res :=
  .next <| s.when (s.refType i = 4 || s.refType i = 5 || s.refOverdue i) (·.refMissing i)

/-- REF_QUALIFY (09 R219, R221). -/
def execRefQualify (i : RefId) (s : State) : Res :=
  .next <| s.when (!s.refQualified i && s.refDone i) (·.refQualify i)

/-- REF_WTR_END (09 R221). -/
def execRefWtrEnd (i : RefId) (s : State) : Res :=
  .next <| s.when ((s.ref i).waiting && decide ((s.ref i).restoreAt + 48000 * s.rd F.timCfgWtr 0 ≤ s.tick.n)) fun s =>
    (s.setRef i { s.ref i with waiting := false }).setFlag F.timRefStateRestoring i false

/-! ### Commands (09 R224, R229) -/

/-- A write of TIM_CMD: taken at the next tick edge; reserved codes refused (09 Tables 09-4, 09-12). -/
def State.timCmd (s : State) (m : Master) (op ref : Nat) : State :=
  let addr := regAddr .timCmd 0
  s.expertOnly m addr fun s => s.valueOnly m addr (decide (op ≤ 3) && decide (ref ≤ 11)) fun s =>
    { s with tim := { s.tim with cmd := s.tim.cmd ++ [(op, ref)] } }

/-- TIM_CMD_CLEAR (09 R224). -/
def execTimCmdClear (m : Master) (s : State) : Res := .next <| s.byReg m .timCmd 0 8 true fun s => s.timCmd m 0 0

/-- TIM_CMD_FORCE_REF (09 R224). -/
def execTimCmdForceRef (m : Master) (ref : BitVec 4) (s : State) : Res := .next <| s.byReg m .timCmd 0 8 true fun s => s.timCmd m 1 ref.toNat

/-- TIM_CMD_FORCE_HOLDOVER (09 R224). -/
def execTimCmdForceHoldover (m : Master) (s : State) : Res := .next <| s.byReg m .timCmd 0 8 true fun s => s.timCmd m 2 0

/-- TIM_CMD_ADOPT (09 R224, R239). -/
def execTimCmdAdopt (m : Master) (s : State) : Res := .next <| s.byReg m .timCmd 0 8 true fun s => s.timCmd m 3 0

/-- A write of TIM_DCO: `offset` where the write covers OFFSET, `lock` where it covers HOST_LOCKED (09 R229). -/
def State.timDco (s : State) (m : Master) (lock : Option Bool) (offset : Option Int) : State :=
  let addr := regAddr .timDco 0
  s.expertOnly m addr fun s =>
    let ok := match offset with
      | some o => decide (o.natAbs ≤ 500000000) && (s.manual || s.rd F.timStateTstate 0 = tFreerun)
      | none => true
    s.valueOnly m addr ok fun s =>
      let s := match offset with | some o => { s with tim := { s.tim with target := o } } | none => s
      match lock with | some b => s.setFlag F.timDcoHostLocked 0 b | none => s

/-- TIM_DCO_WRITE (09 R226, R229). -/
def execTimDcoWrite (m : Master) (hostLocked : Bool) (offset : BitVec 32) (s : State) : Res :=
  .next <| s.byReg m .timDco 0 8 true fun s => s.timDco m (some hostLocked) (some offset.toInt)

/-! ### Holdover history and the clamp (09 R227, R241) -/

/-- HOLDOVER_SECOND_END (09 R227): the second that ended with a tick before joins the history. -/
def execHoldoverSecondEnd (s : State) : Res :=
  .next <| match s.tim.secDone with
    | some x =>
      { s with tim := { s.tim with secDone := none, hist := (x :: s.tim.hist).take 1100 } }
    | none => s

/-- DCO_LIMIT_CLEAR (09 R241): due after 48,000 ticks without clamping. -/
def execDcoLimitClear (s : State) : Res :=
  .next <| s.when (decide (48000 ≤ s.tim.unclamped)) (·.clear A.dcoLimit 0)

/-! ### Exchanges (09 R233 to R237) -/

/-- Ticks between exchanges (09 Table 09-9). -/
def State.exchTicks (s : State) : Nat := 480 * max 1 (s.rd F.timAdoptCfgExchInterval 0)

/-- Whether an exchange is due on a link (09 R237). -/
def State.exchDue (s : State) (l : Nat) : Bool :=
  let x := s.exch l
  s.exchanges l && s.inSync l && x.since.isNone &&
    (match x.started with
      | some n => decide (n + s.exchTicks ≤ s.tick.n)
      | none => true) || (s.tim.adoptCmd && s.adoptLink = some l && s.inSync l && x.since.isNone)

/-- EXCHANGE_START (09 R235, R237): IDs run 1 to 255. -/
def execExchangeStart (l : IngressId) (s : State) : Res :=
  .next <| s.when (s.exchDue l) fun s =>
    let x := s.exch l
    s.setExch l { x with id := if x.id = 255 then 1 else x.id + 1, since := some s.tick.n, started := some s.tick.n, phis := [] }

/-- PROBE_RECEIVE (09 R235): a probe with a new ID is answered in the next 8 frames. -/
def execProbeReceive (l : IngressId) (s : State) : Res :=
  .next <|
    let x := s.exch l
    match x.inbox with
    | some m =>
      let id := (m.body.getD 1 0).toNat
      if m.body.length = 4 && m.body.getD 0 0 = 1 && decide (1 ≤ id) then
        let s := s.setExch l { x with inbox := none }
        if id = x.answered then s
        else s.setExch l { x with inbox := none, answered := id, report := s.reportBytes id m.stamp m.edge m.g, left := 8 }
      else s
    | none => s

/-- A matching REPORT taken (09 R235 to R237). -/
def State.exchOk (s : State) (l : Nat) (m : TimMsg) (phiA : Nat) : State :=
  let n := fun a k => ofBytes ((m.body.drop a).take k)
  let x := s.exch l
  let (d, num, psi) := exchangeResult m.edge (n 4 4) (n 8 4) m.stamp m.g phiA m.phi (n 12 4) (s.rdS F.timAdoptCfgAsym 0)
  let s := s.setExch l { x with
    inbox := none, since := none, phis := [], delay := some d, fails := 0, okAt := s.tick.n + 1, last := some (bit (n 16 1) 0, n 17 1) }
  let s := s.count .timExchOk 0
  let s := (s.wrS F.timAdoptStatusD 0 d).wrS F.timAdoptStatusPsi 0 psi
  let s := (s.wr F.timAdoptNumId 0 x.id).wr F.timAdoptNumNum 0 num
  let s := s.reportRefs l
  if s.adoptLink = some l then s.adoptResult num psi (bit (n 16 1) 0) (n 17 1) else s

/-- REPORT_RECEIVE (09 R235 to R237): a REPORT matches where it answers the probe that is out, in a frame that carried it. -/
def execReportReceive (l : IngressId) (s : State) : Res :=
  .next <|
    let x := s.exch l
    match x.inbox with
    | some m =>
      if m.body.length = 20 && m.body.getD 0 0 = 2 then
        match x.phis.lookup (ofBytes ((m.body.drop 4).take 4)) with
        | some phiA =>
          if x.since.isSome && (m.body.getD 1 0).toNat = x.id then s.exchOk l m phiA else s.setExch l { x with inbox := none }
        | none => s.setExch l { x with inbox := none }
      else s
    | none => s

/-- EXCHANGE_TIMEOUT (09 R235, Table 09-3): due 480 ticks after the start. -/
def execExchangeTimeout (l : IngressId) (s : State) : Res :=
  .next <| match (s.exch l).since with
    | some b => s.when (decide (b + 480 ≤ s.tick.n)) fun s =>
        let x := s.exch l
        let s := s.setExch l { x with since := none, phis := [], fails := bump 3 x.fails }
        let s := s.count .timExchFail 0
        let s := s.when (s.adoptLink = some l) fun s => { s with tim := { s.tim with adoptCmd := false } }
        s.when (decide (3 ≤ x.fails + 1)) fun s => s.each ((s.refsOf l).filter s.roundtrip) fun i s => s.refLose i 5
    | none => s

/-! ### Adoption (09 R237, R238; 14 R364) -/

/-- TICK_ADOPT (09 R237): due at the tick edge after the exchange. -/
def execTickAdopt (s : State) : Res :=
  .next <| match s.tim.adopt with
    | some a => s.when (decide (a.since < s.tick.n)) fun s =>
        let s := { s with tim := { s.tim with adopt := none } }
        let s := (s.renumber a.num).when (decide (a.num ≠ 0)) (·.pmRenumber)
        let s := s.setNumbered.setHops a.hops
        s.when s.adoptSlews fun s => { s with tim := { s.tim with slew := a.psi * 2000 } }
    | none => s

/-- ADOPT_WAIT_END (09 R238). -/
def execAdoptWaitEnd (s : State) : Res :=
  .next <| match s.tim.firstActive with
    | some n => s.when (!s.tim.waitDone && decide (n + 4800 * max 1 (s.rd F.timAdoptCfgAdoptWait 0) ≤ s.tick.n)) fun s =>
        let s := { s with tim := { s.tim with waitDone := true } }
        if s.numbered then s
        else if s.flag F.timAdoptCfgOrigin 0 then s.setNumbered.wr F.timStateHops 0 0
        else s.raise A.tickUnnumbered 0
    | none => s

end Sys2Proof.Machine
end

