-- ==== Sys2Proof/Machine/Tx.lean ====
section
/-! DEFINITION. Link transmitters (03 R53 to R66, R73, R74, R78, R80, R81; 02 R28 to R33): frames, justification, mailboxes, adaptation answers. -/

namespace Sys2Proof.Machine

/-! ### Justification (03 R65, R66) -/

/-- One block period, with 16 fractional bits. -/
abbrev blockUnit : Int := 65536

/-- T, the target offset of 8 block periods (03 R65). -/
abbrev targetPhi : Int := 8 * 65536

/-- round_half_up of a number with 16 fractional bits. -/
def roundBlocks (x : Int) : Int := (x + 32768) / 65536

/-- A stuff count held in its range, and whether it was clamped (03 R65). -/
def clampK (gen : Nat) (k : Int) : Nat × Bool :=
  let lo : Int := genK gen
  let c := min (max k lo) (lo + 7)
  (c.toNat, decide (c ≠ k))

/-- The first frame's stuff count, begun at the target offset (03 R57, R65), for `b` block periods a tick. -/
def firstK (gen : Nat) (b : Int) : Nat × Bool := clampK gen (roundBlocks (b - blockUnit * (genO gen + genP gen : Nat)))

/-- Where the frame after one of `k` stuff blocks begun at `phi` begins, against the tick edge after its own (03 R65). -/
def phiNext (gen : Nat) (phi b : Int) (k : Nat) : Int := phi + blockUnit * (genO gen + genP gen + k : Nat) - b

/-- The stuff count of that frame (03 R65). -/
def kAfter (gen : Nat) (b next : Int) : Nat × Bool :=
  clampK gen (roundBlocks (b - blockUnit * (genO gen + genP gen : Nat) + targetPhi - next))

/-- The transmitter after it has chosen the frame after one sent in local tick `n` at `phi` with `k`: a frame that begins a whole tick late takes the
next stamp, one that begins early the same (03 R65, R66). -/
def TxH.plan (t : TxH) (gen n : Nat) (phi b : Int) (k : Nat) : TxH :=
  let raw := phiNext gen phi b k
  let (k', c) := kAfter gen b raw
  let t := { t with raw := raw, kNext := k', clamped := c }
  if raw < 0 then { t with phi := raw + b, next := n }
  else if b ≤ raw then { t with phi := raw - b, next := n + 2 }
  else { t with phi := raw, next := n + 1 }

/-- TX_PHASE: the offset in UI, rounded to nearest (03 R62). -/
def txPhase (phi : Int) : Nat := (roundBlocks (phi * 66)).toNat % 2 ^ 20

/-- JUSTIFY_RANGE raised and cleared as a frame begins (03 R66). -/
def State.justifyRange (s : State) (l : Nat) (raw phi : Int) : State :=
  if raw < 0 || 64 * blockUnit < raw then (s.setFlag F.linkStateJustifyRange l true).raise A.justifyRange l
  else if (phi - targetPhi).natAbs ≤ 65536 then (s.setFlag F.linkStateJustifyRange l false).clear A.justifyRange l
  else s

/-! ### Adaptation: the transmitter half (02 R28, R30 to R33) -/

/-- A coefficient moved by a request of its tap: 1 up, 2 down. -/
def stepCoef (req v : Nat) : Int := if req = 1 then (v : Int) + 1 else if req = 2 then (v : Int) - 1 else v

/-- Whether a coefficient `x` lies within its range, and within its fence where bring-up values are latched (02 R33, Table 02-3). -/
def coefIn (lo hi : Int) (fence : Option (Nat × Nat)) (x : Int) : Bool :=
  decide (lo ≤ x) && decide (x ≤ hi) &&
    match fence with
    | some (bu, f) => decide ((fenceOf lo hi bu f).1 ≤ x) && decide (x ≤ (fenceOf lo hi bu f).2)
    | none => true

/-- Whether a set of coefficients breaks a constraint of 02 Table 02-3. -/
def breaksFir (p m o : Int) : Bool := !(decide (p + m + o ≤ 64) && decide (20 ≤ m - p - o))

/-- A decided request's status codes (ST_PRE, ST_MAIN, ST_POST) and the coefficients where they change (02 R32). A requested tap whose step leaves
its range or fence is AT_LIMIT, one whose step alone breaks a constraint REJECTED; where only the steps together break one, each of them is
(DEDUCED, log entry 55). -/
def decideTaps (r : FirReq) (pre main post : Nat) (inside : Int → Int → Int → Bool × Bool × Bool) :
    (Nat × Nat × Nat) × Option (Nat × Nat × Nat) :=
  let p := stepCoef r.pre pre
  let m := stepCoef r.main main
  let o := stepCoef r.post post
  let (ip, im, io) := inside p m o
  let atLimit := (r.pre ≠ 0 && !ip) || (r.main ≠ 0 && !im) || (r.post ≠ 0 && !io)
  if !atLimit && !breaksFir p m o then
    let up := fun q : Nat => if q = 0 then 0 else 1
    ((up r.pre, up r.main, up r.post), some (p.toNat, m.toNat, o.toNat))
  else
    let bp := r.pre ≠ 0 && breaksFir p main post
    let bm := r.main ≠ 0 && breaksFir pre m post
    let bo := r.post ≠ 0 && breaksFir pre main o
    let all := !atLimit && !(bp || bm || bo)
    let st := fun (q : Nat) (ok b : Bool) => if q = 0 then 0 else if !ok then 2 else if b || all then 3 else 0
    ((st r.pre ip bp, st r.main im bm, st r.post io bo), none)

/-- A new request of the far receiver decided at the first frame begun after its receipt (02 R32, R43's R44 under a loop). -/
def State.adaptDecide (s : State) (l : Nat) : State :=
  let h := s.lane l
  match h.pendReq with
  | none => s
  | some w' =>
    let w := w'.toNat
    let q := quadOf l
    let done := fun (s : State) (a b c : Nat) =>
      s.setLane l { h with pendReq := none, ackSeq := field w 27 3, stPre := a, stMain := b, stPost := c }
    let r : FirReq := ⟨field w 23 2, field w 21 2, field w 19 2⟩
    let lim := fun q : Nat => if q = 0 then 0 else 2
    let asked := bit w 26 || r.pre ≠ 0 || r.main ≠ 0 || r.post ≠ 0
    let refuse := fun (s : State) => if asked then s.count .laneAdaptReject l else s
    if !s.flag F.laneCtrlAdaptEn q || decide (s.rd F.laneCtrlLoop q ≠ 0) then
      refuse (if bit w 26 then done s 2 2 2 else done s (lim r.pre) (lim r.main) (lim r.post))
    else if bit w 26 then (done (s.loadPreset l) 1 1 1).count .laneAdaptStep l
    else
      let f := s.rd F.laneAdaptCfgFence q
      let fence := fun (bu : Field) => if h.latched then some (s.rd bu l, f) else none
      let inside := fun (p m o : Int) =>
        (coefIn 0 16 (fence F.laneTxfirPreBu) p, coefIn 32 64 (fence F.laneTxfirMainBu) m, coefIn 0 24 (fence F.laneTxfirPostBu) o)
      match decideTaps r (s.rd F.laneTxfirPre l) (s.rd F.laneTxfirMain l) (s.rd F.laneTxfirPost l) inside with
      | ((a, b, c), some (p, m, o)) =>
        let s := ((s.wr F.laneTxfirPre l p).wr F.laneTxfirMain l m).wr F.laneTxfirPost l o
        let s := done s a b c
        if asked then (s.count .laneAdaptStep l).fenceSync l (r.pre ≠ 0, r.main ≠ 0, r.post ≠ 0) else s
      | ((a, b, c), none) => refuse (done s a b c)

/-- The adaptation message of a lane's next frame (02 Table 02-4, R37, R42, R44); outside UP it holds REQ_SEQ, hold requests and TRAIN (02 R32). -/
def State.adaptMessage (s : State) (l : Nat) : Nat :=
  let h := s.lane l
  let frozen := h.frozen || decide (s.rd F.laneCtrlLoop (quadOf l) ≠ 0) || s.scanOn l
  let req := if h.fixedFar then ({} : FirReq) else h.req
  let body := b2n (s.laneBit F.laneStateTrained l) + h.stPost * 2 ^ 2 + h.stMain * 2 ^ 4 + h.stPre * 2 ^ 6 + h.ackSeq * 2 ^ 8 +
    req.post * 2 ^ 11 + req.main * 2 ^ 13 + req.pre * 2 ^ 15 + b2n frozen * 2 ^ 17 + h.reqSeq * 2 ^ 19 + 1 * 2 ^ 22
  crc8 24 body + body * 2 ^ 8

/-! ### Mailboxes (03 R78, R80, R81; 09 R234) -/

/-- The bytes of a channel content (03 R78). -/
def Mail.bytes (m : Mail) : List Byte :=
  if m.seq = 0 then []
  else m.seq :: m.len :: toBytes 2 (crc16 (m.seq :: m.len :: m.body)) ++ m.body

/-- `n` blocks of type `ty` that carry a channel's bytes (03 R78). -/
def channelBlocks (ty n : Nat) (bs : List Byte) : List Word :=
  (List.range n).map fun j => BitVec.ofNat 64 (ty + 256 * ofBytes ((bs.drop (7 * j)).take 7))

/-- Bytes a channel of `n` blocks carries for a message (03 R78). -/
def capacity (n : Nat) : Nat := 7 * n - 4

/-- A transmit buffer's first bytes as a content. -/
def bufMail (seq len : Nat) (buf : Tbl Byte) : Mail := ⟨BitVec.ofNat 8 seq, BitVec.ofNat 8 len, memRead buf 0 len⟩

/-- A content where it fits `n` bytes; an empty one where a lower generation has left it too long (DESIGN CHOICE, log entry 55). -/
def Mail.fit (m : Mail) (n : Nat) : Mail := if m.len.toNat ≤ n then m else {}

/-- The content of the MGMT mailbox for the frame that begins: a timing message, else the host's, copied where a control write waits. -/
def State.mboxOut (s : State) (l : Nat) : Mail × State :=
  match (if l < 128 then s.timingOut l else none) with
  | some body => (⟨0xFF, BitVec.ofNat 8 body.length, body⟩, s)
  | none =>
    let h := s.link l
    let t := h.tx
    let cap := capacity (genMgmt (s.gen l) - 1)
    if t.mboxWritten then
      let m := bufMail (s.rd F.linkMboxCtrlTxSeq l) (s.rd F.linkMboxCtrlTxLen l) h.mboxTx
      (m.fit cap, s.setTx l { t with mbox := m, mboxWritten := false })
    else (t.mbox.fit cap, s)

/-- The content of the user channel for the frame that begins (03 R80, R81): a forwarded message too long for the link is counted once and leaves
what the channel sends. -/
def State.userOut (s : State) (l : Nat) : Mail × State :=
  let mode := s.rd F.linkCtrlUserMode l
  let h := s.link l
  let t := h.tx
  let cap := capacity (genUser (s.gen l))
  let t := if mode = 1 && t.userWritten then
      { t with user := bufMail (s.rd F.linkUserCtrlTxSeq l) (s.rd F.linkUserCtrlTxLen l) h.userTx, userWritten := false }
    else t
  if mode = 1 then (t.user.fit cap, s.setTx l { t with chan := t.user.fit cap, dropped := none })
  else if mode = 2 then
    let m := (s.link (s.rd F.linkCtrlUserSrc l)).userMail
    if m.len.toNat ≤ cap then (m, s.setTx l { t with chan := m, dropped := none })
    else
      let s := s.setTx l { t with chan := t.chan.fit cap, dropped := some m }
      (t.chan.fit cap, s.when (t.dropped ≠ some m) (·.count .linkUserFwdDrop l))
  else ({}, s.setTx l { t with chan := {}, dropped := none })

/-! ### Overhead (03 R58 to R64) -/

/-- ROLE as IDENT page 5 sends it (03 Table 03-4, 10 R254). -/
def State.identRole (s : State) : Nat := if s.role = roleUnpaired then 0 else if s.role = roleActive then 1 else 2

/-- IDENT page `n mod 8` of link `l` (03 Table 03-4). -/
def State.identPage (s : State) (l n : Nat) : Nat :=
  let setid := (s.word .almActiveSetid 0).toNat
  let die := s.nv.dieId.toNat
  let armed := s.ownArmed
  match n % 8 with
  | 0 => setid % 2 ^ 32
  | 1 => setid / 2 ^ 32
  | 2 => s.rd F.almActiveInfoEpoch 0
  | 3 => die % 2 ^ 32
  | 4 => die / 2 ^ 32
  | 5 => b2n armed.1 + b2n s.mate.rank * 2 + s.identRole * 4 + s.gen l * 16
  | 6 => armed.2.1
  | _ => armed.2.2

/-- The IDENT word (03 Table 03-3). -/
def State.identWord (s : State) (l n : Nat) (rdi : Bool) : Word :=
  BitVec.ofNat 64 (0x96 + s.rd F.almActiveInfoDevice 0 * 2 ^ 8 + (l % 128) * 2 ^ 19 + b2n rdi * 2 ^ 27 +
    s.rd F.almActiveInfoEpoch 0 % 16 * 2 ^ 28 + s.identPage l n * 2 ^ 32)

/-- The FM word (03 R58). -/
def fmWord (n : Nat) : Word := BitVec.ofNat 64 (0xC3 + 0x5EC2A7 * 2 ^ 8 + n * 2 ^ 32)

/-- The JUSTIFY word (03 R62). -/
def justifyWord (jc : Nat) (rei : Bool) (phase : Nat) : Word :=
  BitVec.ofNat 64 (0x5A + jc * 2 ^ 8 + jc * 2 ^ 11 + jc * 2 ^ 14 + b2n rei * 2 ^ 17 + phase * 2 ^ 24)

/-- The CHECK word, its OCRC over blocks 0 to 3 (03 R60, R61). -/
def checkWord (fm ident just : Word) (pcrc : Nat) : Word :=
  let w := 0xA5 + pcrc * 2 ^ 8
  BitVec.ofNat 64 (w + ocrc fm.toNat ident.toNat w just.toNat * 2 ^ 40)

/-- The PROTECT blocks: at Gen1 a link with two messages alternates them (05 R119). -/
def State.protectWords (s : State) (l n : Nat) : List Word :=
  let ms := s.protMessages l
  let k := genProt (s.gen l)
  let sent := if k = 1 && 2 ≤ ms.length then [ms.getD (n % 2) 0] else ms.take k
  sent ++ List.replicate (k - sent.length) 0x69

/-- RDI as sent (03 R73). -/
def State.rdiOut (s : State) (l : Nat) : Bool := !s.inSync l || decide (s.qstate (quadOf l) ≠ qUp) || s.flag F.linkCtrlForceRdi l

/-! ### Payload (03 R56; 05 R116; 06 R140; 10 R247, R253, R272) -/

/-- The framer's fetch of ring word `p`: 0 where it meets an uncorrectable error (11 Table 11-4). -/
def State.framerFetch (s : State) (l p : Nat) : Nat × State :=
  match s.sramRead (eccAddr 7 l p) false (s.ringWord l p) true with
  | (.data v, s) => (v, s)
  | (_, s) => (0, s)

/-- The payload words of a ring from word `p`, `n` of them. -/
def State.ringPayload (l : Nat) : Nat → Nat → State → Tbl Word × State
  | 0, _, s => ([], s)
  | n + 1, p, s =>
    let (v, s) := s.framerFetch l p
    let (t, s) := State.ringPayload l n (p + 1) s
    (if v = 0 then t else (p, BitVec.ofNat 64 v) :: t, s)

/-- The payload of the frame that begins, and whether it is withheld (10 R253). -/
def State.payloadOut (s : State) (l : Nat) : Tbl Word × Bool × State :=
  if l = 128 then (s.m0Payload, false, s)
  else if 128 < l then (s.m1Payload, false, s)
  else if s.withholding then ([], true, s)
  else
    let (t, s) := State.ringPayload l (genP (s.gen l)) 0 s
    (t, false, s)

/-! ### The frame (03 R55, R57) -/

/-- The payload of the frame that begins in tick `n`: a second one begun in the same tick repeats the first one's (03 R66). -/
def State.payloadNow (s : State) (l : Nat) : Tbl Word × Bool × State :=
  let t := s.tx l
  match t.sent with
  | some f => if t.sentAt = s.tick.n then (f.payload, t.withheld, s) else s.payloadOut l
  | none => s.payloadOut l

/-- A transmitter's first frame, `gap` STUFF blocks after it began to send: any PCRC and any scrambler state but all zeros (03 R53, R57, R60; free,
log entry 3). -/
def State.txFirst (s : State) (l : Nat) (b : Int) (gap : Nat) : State :=
  let (w, s) := s.takeFree
  let (v, s) := s.takeFree
  let gen := s.gen l
  let t := s.tx l
  let st : BitVec 58 := if t.scrambler ≠ 0 then t.scrambler else if w.setWidth 58 = 0 then 1 else w.setWidth 58
  s.setTx l { t with
    started := true, phi := targetPhi, raw := targetPhi, kNext := (firstK gen b).1, clamped := (firstK gen b).2
    pcrc := v.setWidth 32, scrambler := scramblerAfter (List.replicate gap stuffBlock) st }

/-- A transmitter that has sent STUFF only since its last frame ended: `gap` blocks of it. Its scrambler has run over them, and its frame begins
like a first one, at the target offset (03 R53, R57; 06 R143; DESIGN CHOICE, log entry 24). -/
def State.txResume (s : State) (l : Nat) (b : Int) (gap : Nat) : State :=
  let t := s.tx l
  let gen := s.gen l
  s.setTx l { t with
    phi := targetPhi, raw := targetPhi, kNext := (firstK gen b).1, clamped := (firstK gen b).2
    scrambler := scramblerAfter (List.replicate gap stuffBlock) t.scrambler }

/-- Frame `n` built and begun, `b` block periods a tick (03 R55 to R66, R73, R74). -/
def State.txFrame (s : State) (l : Nat) (b : Int) : State :=
  let n := s.now
  let gen := s.gen l
  let s := s.adaptDecide l
  let t := s.tx l
  let s := (s.justifyRange l t.raw t.phi).when t.clamped (·.count .linkJustRange l)
  let k := t.kNext
  let t' := t.plan gen s.tick.n t.phi b k
  let jc := t'.kNext - genK gen
  let phase := txPhase t.phi
  let rdi := s.rdiOut l
  let fm := fmWord n
  let ident := s.identWord l n rdi
  let just := justifyWord jc (decide (0 < t.rei)) phase
  let check := checkWord fm ident just t.pcrc.toNat
  let s := s.setTx l { t' with rei := t.rei - 1 }
  let (mail, s) := s.mboxOut l
  let s := s.when (decide (l < 128)) (·.timingSent l n (phaseUnits gen phase))
  let (user, s) := s.userOut l
  let adapt := BitVec.ofNat 64 (0x3C + s.adaptMessage l * 2 ^ 8)
  let overhead := [fm, ident, check, just] ++ s.protectWords l n ++
    adapt :: channelBlocks 0x3C (genMgmt gen - 1) mail.bytes ++ channelBlocks 0x78 (genUser gen) user.bytes
  let (payload, withheld, s) := s.payloadNow l
  let crc := crcOfWords (Tbl.get 0 payload) 0 (genP gen)
  let f : TxFrame := ⟨BitVec.ofNat 32 n, overhead, payload, genP gen, k, t.scrambler⟩
  let s := s.setTx l { s.tx l with
    pcrc := if withheld || (s.tx l).spoiled then ~~~crc else crc, spoiled := false, sent := some f, scrambler := scramblerAfter f.blocks t.scrambler
    sentAt := s.tick.n, withheld := withheld, loopPos := 0, loopScr := t.scrambler }
  let s := ((s.wrS F.linkTxJustPhi l t.phi).wr F.linkTxJustK l k).wr F.linkTxJustJc l jc
  let s := s.setFlag F.linkStateRdiTx l rdi
  s.when (decide (l < 128) && !withheld && s.framesLeave l) (·.meter .pmBwLinkOut l (8 * genP gen))

/-- TX_FRAME_START (03 R57, R65): due in the tick the transmitter has chosen. Under a far-end loop or a PRBS the frame is built as ever and does not leave (02 R38, R44). -/
def execTxFrameStart (l : LinkId) (b : FrameStart) (s : State) : Res :=
  .next <|
    let t := s.tx l
    s.when (t.due && s.flag F.laneStatePllLock (quadOf l) && decide (t.next ≤ s.tick.n) && !s.noFrames l) fun s =>
      let s := if !t.started then s.txFirst l b.b b.gap else s.when (b.gap ≠ 0) (·.txResume l b.b b.gap)
      s.txFrame l b.b

/-- A transmitter at a tick edge: its first frame falls due at the first edge after PLL lock (03 R57). -/
def State.txEdge (s : State) (l : Nat) : State :=
  let t := s.tx l
  if s.flag F.laneStatePllLock (quadOf l) && !t.due then s.setTx l { t with due := true, started := false, next := s.tick.n } else s

/-! ### Control writes (03 R80; 09 R234) -/

/-- A control write of LINK_MBOX_CTRL's TX_SEQ and TX_LEN. -/
def State.mboxSend (s : State) (m : Master) (l seq len : Nat) : State :=
  s.valueOnly m (regAddr .linkMboxCtrl l) (decide (seq ≠ 0xFF) && decide (len ≤ capacity (genMgmt (s.gen l) - 1))) fun s =>
    ((s.wr F.linkMboxCtrlTxSeq l seq).wr F.linkMboxCtrlTxLen l len).setTx l { s.tx l with mboxWritten := true }

/-- MBOX_SEND (03 R80). -/
def execMboxSend (m : Master) (l : LinkId) (seq len : BitVec 8) (s : State) : Res :=
  .next <| s.byReg m .linkMboxCtrl l 8 true fun s => s.mboxSend m l seq.toNat len.toNat

/-- A control write of LINK_USER_CTRL's TX_SEQ and TX_LEN. -/
def State.userSend (s : State) (m : Master) (l seq len : Nat) : State :=
  s.valueOnly m (regAddr .linkUserCtrl l) (decide (len ≤ capacity (genUser (s.gen l)))) fun s =>
    ((s.wr F.linkUserCtrlTxSeq l seq).wr F.linkUserCtrlTxLen l len).setTx l { s.tx l with userWritten := true }

/-- USER_SEND (03 R80). -/
def execUserSend (m : Master) (l : LinkId) (seq len : BitVec 8) (s : State) : Res :=
  .next <| s.byReg m .linkUserCtrl l 8 true fun s => s.userSend m l seq.toNat len.toNat

end Sys2Proof.Machine
end

