-- ==== Sys2Proof/Machine/Access.lean ====
section
/-! DEFINITION. Reads and writes of the register target (15 R378 to R392; 12 R320, R331, R332): what a register reads as, what a write of
each does, and the structures that lie between the registers. -/

namespace Sys2Proof.Machine

/-! ### What a register reads as -/

/-- Whether an alarm drives ALARM_N: a fatal one, or an unmasked MAJOR one (14 R366). -/
def State.drivesAlarm (s : State) (a : Nat) : Bool :=
  alarmSev a = 4 || (alarmSev a = 3 && !s.rdBit F.sysAlarmMaskMask 0 (alarmBlock a))

/-- Whether ALARM_N is low (14 R366). -/
def State.alarmLow (s : State) : Bool := s.act.any fun e => e.2 ≠ 0 && s.drivesAlarm e.1

/-- The blocks of the alarms with a bit set in `t`, as a mask. -/
def blockMask (t : Tbl (BitVec 256)) : Nat :=
  maskOf 15 fun b => t.any fun e => e.2 ≠ 0 && decide (alarmBlock e.1 = b)

/-- SYS_ALM_SUMMARY (15 Table 15-17). -/
def State.summary (s : State) : Nat :=
  blockMask s.act + blockMask s.latch * 2 ^ 32 + b2n s.alarmLow * 2 ^ 48 + b2n s.fatal * 2 ^ 49

/-- A register's value as a read returns it, before it clears anything (15 R380). -/
def State.regValue (s : State) (r : Reg) (i : Nat) : Nat :=
  match r with
  | .almVouched => (s.vouchedWord i).toNat
  | .almState => putField (s.word r i).toNat F.almStateConcordant.lo 1 (b2n s.concordant)
  | .sysIntSrc => s.intSrc i
  | .sysIntPend => s.intPend i + b2n (s.intPend i ≠ 0) * 2 ^ 32
  | .sysAlmSummary => s.summary
  | r => (s.word r i).toNat

/-- Whether a part of a register covers any bit of a field (12 R320). -/
def Part.covers (p : Part) (f : Field) : Bool :=
  match p with
  | .whole => true | .low => decide (f.lo < 32) | .high => decide (32 < f.lo + f.width)

/-- The RC fields in the part read cleared (00 R7, 12 R320). -/
def State.regClear (s : State) (r : Reg) (i : Nat) (p : Part) : State :=
  s.each (r.fields.filter fun f => f.access = .rc && Part.covers p f.field) fun f s =>
    if r = .sysTemp then s.tjClear else s.wr f.field i 0

/-! ### What a write does -/

/-- The 64 bits a write of part `p` stands for: the other half carries the stored value of its RW fields and 0 elsewhere (12 R320).  `v` has
its bits on their own lanes. -/
def State.wholeValue (s : State) (r : Reg) (i : Nat) (p : Part) (v : Nat) : Nat :=
  let old := r.stored 0 (s.word r i).toNat
  match p with
  | .whole => v
  | .low => field v 0 32 + field old 32 32 * 2 ^ 32
  | .high => field old 0 32 + field v 32 32 * 2 ^ 32

/-- Whether a write of a part reaches an expert field (12 R331). -/
def Reg.expertPart (r : Reg) (p : Part) : Bool := r.fields.any fun f => f.expert && Part.covers p f.field

/-- What a stored change of a register starts at once, `old` the word before. -/
def State.regHook (s : State) (r : Reg) (i old : Nat) : State :=
  match r with
  | .timRefCfg => s.refReconf i old
  | .timCfg => s.refsSync
  | .protGroupCfg => s.protCfg i
  | .mateWatch => s.watchSync
  | .sysIntEn => s.irqSync
  | .laneCtrl => if field old 2 2 = s.rd F.laneCtrlLoop i then s else s.loopChanged i
  | .lanePrbsCtrl =>
    let s := if field old 0 4 = s.rd F.lanePrbsCtrlTxEn i then s else s.txEnChanged i (field old 0 4)
    if field old 4 4 = s.rd F.lanePrbsCtrlRxEn i then s else s.setRxEn i (s.rd F.lanePrbsCtrlRxEn i)
  | .laneAdaptCfg => s.each (linksOf i) fun l s => s.fenceSync l (false, false, false)
  | .eccTestCfg =>
    if bit old 0 = s.flag F.eccTestCfgEn 0 then s
    else if s.flag F.eccTestCfgEn 0 then (if s.boot.p3 then s.funcWant 37 else s)
    else if !s.flag F.sysFuncStateEnable 37 then s
    else { s with boot := { s.boot with stop := Tbl.set false s.boot.stop 37 true } }
  | _ => s

/-- RW fields stored, and what that starts. -/
def State.regPut (s : State) (r : Reg) (i v : Nat) : State :=
  let old := (s.word r i).toNat
  (s.setWord r i (BitVec.ofNat 64 (r.stored old v))).regHook r i old

/-- ECC_STATUS bits written 1, with their alarms (11 Table 11-8). -/
def State.eccClear (s : State) (v : Nat) : State :=
  let one := fun (f : Field) (a : Nat) (s : State) => if field v f.lo 1 = 1 then (s.setFlag f 0 false).clear a 0 else s
  one F.eccStatusTrimLost A.trimLost <| one F.eccStatusTrackFull A.eccTrackFull <| one F.eccStatusTestFail A.testFail <|
    one F.eccStatusHard A.eccHardCandidate <| one F.eccStatusUe A.eccUe s

/-- LINK_STATE bits written 1 (03 Table 03-9, R77). -/
def State.linkClear (s : State) (l v : Nat) : State :=
  let one := fun (f : Field) (s : State) => if field v f.lo 1 = 1 then s.setFlag f l false else s
  let s := one F.linkStateUserNew <| one F.linkStateMboxNew <| one F.linkStateNeighbourChanged s
  if field v F.linkStateNeighbourChanged.lo 1 = 1 then s.clear A.neighbourChanged l else s

/-- W1C fields of a register cleared, with nothing else to do. -/
def State.w1c (s : State) (r : Reg) (i v : Nat) : State :=
  s.each (r.fields.filter fun f => f.access = .w1c) fun f s =>
    s.wr f.field i (s.rd f.field i - (s.rd f.field i &&& field v f.field.lo f.field.width))

/-- A write of a configuration register, or of any other whose RW fields are all it has: its value within its chapter's rule; a record where it is
mirrored in a joined pair (12 R332; 10 R265 to R267). -/
def State.regStore (s : State) (m : Master) (r : Reg) (i v : Nat) (be : BitVec 8) : State :=
  let addr := regAddr r i
  s.valueOnly m addr (s.valueOk r i v) fun s =>
    if r.isMirrored i then s.mirrored addr be (BitVec.ofNat 64 v) fun s => s.regPut r i v else s.regPut r i v

/-- What a write of `v` to register `r` does once its level is judged: command registers by their own operations, status registers by what their W1C
bits clear; a command acts where the part written covers it (12 R320, R332; 15 R381). -/
def State.regAct (s : State) (m : Master) (r : Reg) (i : Nat) (p : Part) (v : Nat) : State :=
  let be := partEnables p
  let lo := p ≠ .high
  let hi := p ≠ .low
  match r with
  | .almSlotCmd => if lo then s.slotCmd m (field v 8 2) (field v 0 4) else s
  | .almArmCmd => if lo then s.armCmd (field v 0 2) else s
  | .almTrimCmd => if hi && bit v 63 then s.trimGo m v be else s.regStore m r i v be
  | .almAuditCtrl => if lo then s.mirroredCmd .almAuditCtrl (field v 0 1) fun s => s.auditCtrl (bit v 0) else s
  | .almState => if lo && bit v F.almStateMissed.lo then (s.w1c r i v).clear A.epochMissed 0 else s
  | .protGroupCmd => if lo then s.groupCmd m i (field v 0 3) else s
  | .mateCmd => if lo then s.mateCmd m (field v 0 3) else s
  | .timCmd => if lo then s.timCmd m (field v 4 3) (field v 0 4) else s
  | .timDco => s.timDco m (if hi then some (bit v 32) else none) (if lo then some (signed 32 v) else none)
  | .nvmCmd => if hi then s.nvmCommand m (field v 48 2) (field v 0 28) (field v 32 13) else s.regPut r i v
  | .sysBootCmd => if lo && bit v 0 then s.valueOnly m (regAddr r i) s.runOk State.bootRun else s
  | .busScrOwn => if lo then s.scrOwnWrite m i (field v 12 2) (some (field v 16 3)) else s
  | .pmBwCfg => if lo then s.bwCfg m (field v 0 16) else s
  | .pmCtrl =>
    let s := s.regPut r i v
    if lo && bit v 1 then { s with pm := { s.pm with snapReq := true } } else s
  | .logCtrl => if lo && bit v 0 then s.storeCause 3 else s
  | .eccScrubCmd =>
    let s := s.regPut r i v
    (s.when (hi && bit v F.eccScrubCmdStart.lo) State.scrubBegin).when (hi && bit v F.eccScrubCmdAbort.lo) State.scrubAbort
  | .eccFuseCmd => (s.regPut r i v).when (bit v F.eccFuseCmdBurn.lo && Part.covers p F.eccFuseCmdBurn) State.fuseBurn
  | .hbmRepairCmd => (s.regPut r i v).when (bit v F.hbmRepairCmdGo.lo && Part.covers p F.hbmRepairCmdGo) State.hbmRepair
  | .eccTestCfg => s.valueOnly m (regAddr r i) (s.valueOk r i v) fun s =>
    let s := s.regPut r i v
    if lo && bit v 1 then s.testNow else s
  | .lagStackCmd =>
    (s.when lo (·.stackOff (field v F.lagStackCmdOff.lo 4))).when (Part.covers p F.lagStackCmdRestore)
      (·.stackRestore (field v F.lagStackCmdRestore.lo 4))
  | .laneCtrl => (s.regPut r i v).when (lo && bit v 0) fun s => s.setQuad i { s.quad i with restart := true }
  | .laneScanCtrl =>
    ((s.regPut r i v).when (lo && bit v F.laneScanCtrlStart.lo) (·.scanStart i)).when (lo && bit v F.laneScanCtrlAbort.lo) (·.scanEnd i 2)
  | .linkMboxCtrl => if lo then s.mboxSend m i (field v 0 8) (field v 8 8) else s
  | .linkUserCtrl => if lo then s.userSend m i (field v 0 8) (field v 8 8) else s
  | .linkState => if lo then s.linkClear i v else s
  | .coreStatus =>
    if lo then
      let c := bit v F.coreStatusClash.lo
      let q := bit v F.coreStatusPostClash.lo
      (s.when (bit v F.coreStatusOverrun.lo) State.overrunClear).when (c || q) (·.clashClear c q)
    else s
  | .eccStatus => if lo then s.eccClear v else s
  | .busStatus => if lo then (s.w1c r i v).irqSync else s
  | .busDbPend => if lo then (s.w1c r i v).irqSync else s
  | .sysIntSrc => if lo then s.srcClear i v else s
  | .almAuditStatus => if lo then s.w1c r i v else s
  | .mateState => if lo then s.w1c r i v else s
  | r => s.regStore m r i v be

/-- A write of part `p` of a register, refused with LEVEL where it reaches an expert field at basic level (12 R331). -/
def State.regWrite (s : State) (m : Master) (r : Reg) (i : Nat) (p : Part) (v : Nat) : State :=
  if !s.expert m && r.expertPart p then s.errResp m (regAddr r i) true .level
  else s.regAct m r i p (s.wholeValue r i p v)

/-! ### What lies between the registers -/

/-- What an 8-byte word of the register target is. -/
inductive RegSpot
  /-- a register's instance -/
  | reg (r : Reg) (i : Nat)
  /-- SYS_DIEID -/
  | dieId
  /-- word `j` of port `m`'s MSI-X table, or its pending-bit array -/
  | msix (m j : Nat)
  | pba (m : Nat)
  /-- word `w` of an alarm's ACT or LATCH half -/
  | alarm (latch : Bool) (a w : Nat)
  /-- bytes from `o` of one of a link's four buffers: 0, 1 MGMT transmit and receive, 2, 3 user transmit and receive -/
  | linkBuf (l which o : Nat)
  /-- entries from `e` of a quad's eye-scan window -/
  | scan (q e : Nat)
  /-- entries from `e` of the factory or the field map -/
  | fuses (factory : Bool) (e : Nat)
  /-- bytes from `o` of the NVM buffer -/
  | nvmBuf (o : Nat)
  /-- a doorbell alias -/
  | bell (n op w : Nat)
  /-- no register lies there (12 R313) -/
  | reserved
  deriving DecidableEq, Repr

/-- The link whose LINK block, and the quad whose LANE block, an address lies in, with the offset in it (15 Table 15-1; 10 R244). -/
def linkBlock (a : Nat) : Option (Nat × Nat) :=
  if 0x1400000 ≤ a && a < 0x1600000 then some ((a - 0x1400000) / 0x4000, a % 0x4000)
  else if 0x1034000 ≤ a && a < 0x103C000 then some (128 + (a - 0x1034000) / 0x4000, a % 0x4000)
  else none
def laneBlock (a : Nat) : Option (Nat × Nat) :=
  if 0x1600000 ≤ a && a < 0x1680000 then some ((a - 0x1600000) / 0x4000, a % 0x4000)
  else if 0x103C000 ≤ a && a < 0x1040000 then some (32, a % 0x4000)
  else none

/-- The structures of the SYS block (15 Tables 15-14, 15-19, R392). -/
def sysSpot (o : Nat) : Option RegSpot :=
  if o = 8 then some .dieId
  else if 0x2000 ≤ o && o < 0x2800 then
    let m := 1 + (o - 0x2000) / 0x400
    let x := o % 0x400
    if x < 0x200 then some (.msix m (x / 8)) else if x = 0x200 then some (.pba m) else none
  else if 0x4000 ≤ o && o < 0x8000 then
    let x := o % 0x40
    some (.alarm (decide (0x20 ≤ x)) ((o - 0x4000) / 0x40) (x % 0x20 / 8))
  else none

/-- What the 8-byte word at an address of the register target is. -/
def regSpot (a : Nat) : RegSpot :=
  let special :=
    match linkBlock a, laneBlock a with
    | some (l, o), _ => if 0x1000 ≤ o && o < 0x1400 then some (RegSpot.linkBuf l ((o - 0x1000) / 0x100) (o % 0x100)) else none
    | none, some (q, o) => if 0x2000 ≤ o then some (.scan q ((o - 0x2000) / 4)) else none
    | none, none =>
      if 0x1000000 ≤ a && a < 0x1010000 then sysSpot (a - 0x1000000)
      else if 0x1018000 ≤ a && a < 0x1019000 then some (.bell ((a - 0x1018000) / 0x100) (a % 0x100 / 0x40) (a % 0x40 / 8))
      else if 0x1084000 ≤ a && a < 0x1088000 then some (.fuses true ((a - 0x1084000) / 4))
      else if 0x1088000 ≤ a && a < 0x1089000 then some (.fuses false ((a - 0x1088000) / 4))
      else if 0x10B1000 ≤ a && a < 0x10B2000 then some (.nvmBuf (a - 0x10B1000))
      else none
  match special with
  | some x => x
  | none => match regAt a with | some (r, i) => .reg r i | none => .reserved

/-- A link's buffer. -/
def LinkH.buf (h : LinkH) : Nat → Tbl Byte
  | 0 => h.mboxTx | 1 => h.mboxRx | 2 => h.userTx | _ => h.userRx

/-- The bytes of a part of a word, with their places in it. -/
def Part.bytes (p : Part) (v : Nat) : List (Nat × Byte) :=
  (List.range 8).filterMap fun j =>
    if (match p with | .whole => true | .low => decide (j < 4) | .high => decide (4 ≤ j)) then some (j, BitVec.ofNat 8 (v / 2 ^ (8 * j))) else none

/-- Bytes put into a buffer whose unlisted bytes are 0. -/
def bufPut (t : Tbl Byte) (o : Nat) (bs : List (Nat × Byte)) : Tbl Byte := bs.foldl (fun t b => Tbl.set 0 t (o + b.1) b.2) t

/-- A word of a table of 32-bit entries. -/
def entryPair (t : Tbl (BitVec 32)) (e : Nat) : Nat := (Tbl.get 0 t e).toNat + (Tbl.get 0 t (e + 1)).toNat * 2 ^ 32

/-- Bits of alarm `a` that exist, of a table of them, in word `w`. -/
def alarmWord (t : Tbl (BitVec 256)) (a w : Nat) : Nat := field (Tbl.get 0 t a).toNat (64 * w) 64

/-- A part of an 8-byte word of the register target read: its bytes on their lanes, RC fields cleared after (00 R7; 12 R320). -/
def State.spotRead (s : State) (m : Master) (x : RegSpot) (p : Part) : Except ErrCause Nat × State :=
  match x with
  | .reg r i => (.ok (s.regValue r i), s.regClear r i p)
  | .dieId => (.ok s.nv.dieId.toNat, s)
  | .msix n j => if masterNum m ≠ n then (.error .fence, s) else (.ok ((Tbl.get {} s.irqs n).entry j).toNat, s)
  | .pba n => if masterNum m ≠ n then (.error .fence, s) else (.ok (Tbl.get {} s.irqs n).pba, s)
  | .alarm latch a w => (.ok (alarmWord (if latch then s.latch else s.act) a w), s)
  | .linkBuf l k o => (.ok (ofBytes (memRead (LinkH.buf (s.link l) k) o 8)), s)
  | .scan q e => (.ok (entryPair (s.quad q).scanOut e), s)
  | .fuses f e => (.ok (entryPair (if f then s.nv.factory else s.nv.fieldMap) e), s)
  | .nvmBuf o => (.ok (ofBytes (memRead s.nvm.buf o 8)), s)
  | .bell _ _ _ => (.ok 0, s)
  | .reserved => (.ok 0, s)

/-- A word of a port's MSI-X table stored, its reserved bits left 0; a vector that may send now sends what was pending (15 R392; PRESUMED,
log entry 10). -/
def State.msixPut (s : State) (n j : Nat) (p : Part) (v : Nat) : State :=
  let h := Tbl.get {} s.irqs n
  let w := (Part.bytes p v).foldl (fun w b => putField w (8 * b.1) 8 b.2.toNat) (h.entry j).toNat
  let w := if j % 2 = 1 then w &&& 0x1FFFFFFFF else w
  let d : Word := if j % 2 = 1 then 0x100000000 else 0
  s.setPort n ({ h with table := Tbl.set d h.table j (BitVec.ofNat 64 w) } : IrqH).flush

/-- A part of an 8-byte word of the register target written, `v` with its bytes on their lanes. -/
def State.spotWrite (s : State) (m : Master) (a : Nat) (x : RegSpot) (p : Part) (v : Nat) : State :=
  match x with
  | .reg r i => s.regWrite m r i p v
  | .msix n j => if masterNum m ≠ n then s.errResp m a true .fence else s.msixPut n j p v
  | .pba n => if masterNum m ≠ n then s.errResp m a true .fence else s
  | .alarm latch k w => if latch then s.latchClear k w (match p with | .whole => v | .low => field v 0 32 | .high => field v 32 32 * 2 ^ 32) else s
  | .linkBuf l k o =>
    let h := s.link l
    if k = 0 then s.setLink l { h with mboxTx := bufPut h.mboxTx o (Part.bytes p v) }
    else if k = 2 then s.setLink l { h with userTx := bufPut h.userTx o (Part.bytes p v) }
    else s
  | .scan _ _ => if s.expert m then s else s.errResp m a true .level
  | .nvmBuf o => { s with nvm := { s.nvm with buf := bufPut s.nvm.buf o (Part.bytes p v) } }
  | _ => s

/-- A part of an access of `n` bytes at `a`: 4 or 8 bytes, naturally aligned (12 R320). -/
def partOf (a n : Nat) : Option Part :=
  if n = 8 && a % 8 = 0 then some .whole
  else if n = 4 && a % 8 = 0 then some .low
  else if n = 4 && a % 8 = 4 then some .high
  else none

/-- A read of the register target after it has been granted; a doorbell alias takes 8 bytes only (12 R320, R324). -/
def State.regTargetRead (s : State) (m : Master) (a n : Nat) : State :=
  match partOf a n, regSpot (a / 8 * 8) with
  | none, _ => s.refuse m a n false .size
  | some p, .bell b op w => if p = .whole then s.aliasDo m b op w none else s.refuse m a n false .size
  | some p, x =>
    match s.spotRead m x p with
    | (.ok v, s) => s.answer m true (partBytes p v)
    | (.error c, s) => s.refuse m a n false c

/-- A write of the register target after it has been granted, `v` with its bytes on their lanes. -/
def State.regTargetWrite (s : State) (m : Master) (a n v : Nat) : State :=
  match partOf a n, regSpot (a / 8 * 8) with
  | none, _ => s.errResp m a true .size
  | some p, .bell b op w => if p = .whole then s.aliasDo m b op w (some v) else s.errResp m a true .size
  | some p, x => s.spotWrite m a x p v

end Sys2Proof.Machine
end

