-- ==== Sys2Proof/Machine/Bus.lean ====
section
/-! DEFINITION. Bursts on the control bus and what each target does with them: host reads and writes, grants, register writes (12 R310 to R321). -/

namespace Sys2Proof.Machine

/-! ### The address map (12 R312, Table 12-3) -/

/-- Ranges of the targets: first address, address after the last, target; offsets of the table window that hold nothing are the default target's (08
R196). -/
def targetRanges : List (Nat × Nat × Nat) :=
  [(0, 0x20000, 0)] ++ ((List.range 16).map fun n => (0x100000 + 0x10000 * n, 0x110000 + 0x10000 * n, 1 + n)) ++
    [(0x200000, 0x201000, 17), (0x1000000, 0x10D0000, 18), (0x1400000, 0x1680000, 18), (0x8000000, 0xE110000, 19), (0xE200000, 0xE300000, 19),
     (0xE400000, 0xE400180, 19), (0xE400400, 0xE400580, 19), (0x10000000, 0x20000000, 20)] ++
    (List.range 4).map fun k => (stackBase k, stackBase (k + 1), 21 + k)

/-- The target of an address. -/
def targetAt (a : Nat) : Nat :=
  match targetRanges.find? fun r => decide (r.1 ≤ a) && decide (a < r.2.1) with
  | some r => r.2.2
  | none => 25

/-- The address after the last that lies with `a` in one target without a gap. -/
def targetEnd (a : Nat) : Nat :=
  match targetRanges.find? fun r => decide (a < r.2.1) with
  | some r => if r.1 ≤ a then r.2.1 else r.1
  | none => 2 ^ 40

/-- A transfer cut into bursts: at every 16th beat and at every target boundary (12 R316). -/
def burstsOf : Nat → Nat → Nat → List (Nat × Nat)
  | 0, _, _ => []
  | fuel + 1, a, n =>
    if n = 0 then []
    else
      let k := min n (min (a / 8 * 8 + 128 - a) (targetEnd a - a))
      (a, k) :: burstsOf fuel (a + k) (n - k)

/-! ### The boot ROM and the remap window (12 R314; 13 Table 13-6) -/

/-- A boot step's 24 bytes (13 R343). -/
def stepBytes (op arg addr value : Nat) : List Byte := toBytes 4 op ++ toBytes 4 arg ++ toBytes 8 addr ++ toBytes 8 value

/-- The boot ROM's step list (13 Table 13-6). -/
def romList : List Byte :=
  stepBytes 1 0 0 0 ++ stepBytes 2 0 0 0 ++ stepBytes 3 0 0 0 ++ stepBytes 4 4801 0 0 ++ stepBytes 5 0 0 0 ++ stepBytes 0 0 0 0

/-- A byte of the boot ROM. -/
def romByteAt (o : Nat) : Byte := match romList[o]? with | some b => b | none => Config.romByte o

/-! ### Beats -/

/-- A beat's eight byte lanes: `data` begins at address `a`, the beat at `b`. -/
def lanesAt (a : Nat) (data : List (Option Byte)) (b : Nat) : List (Option Byte) :=
  (List.range 8).map fun j => if a ≤ b + j then data.getD (b + j - a) none else none

/-- The addresses of the beats of `n` bytes at `a`. -/
def beatsOf (a n : Nat) : List Nat := (List.range ((a % 8 + n + 7) / 8)).map fun j => a / 8 * 8 + 8 * j

/-- A word with enabled lanes replaced. -/
def mergeLanes (old : Nat) (lanes : List (Option Byte)) : Nat := mergeBytes old 0 8 0 lanes

/-- One beat of a write: `f` answers a cause where it refuses the beat; a beat with no byte enabled is none. -/
def writeBeat (f : State → Nat → List (Option Byte) → Option ErrCause × State) (a : Nat) (data : List (Option Byte))
    (acc : Option (Nat × ErrCause) × State) (b : Nat) : Option (Nat × ErrCause) × State :=
  let lanes := lanesAt a data b
  if lanes.all Option.isNone then acc
  else
    let x := f acc.2 b lanes
    (acc.1.orElse fun _ => x.1.map fun c => (b, c), x.2)

/-- A burst's write beat by beat: the first refused beat is the burst's error response, and the others complete (12 R316). -/
def State.writeBeats (s : State) (m : Master) (a : Nat) (data : List (Option Byte))
    (f : State → Nat → List (Option Byte) → Option ErrCause × State) : State :=
  let x := (beatsOf a data.length).foldl (writeBeat f a data) (none, s)
  match x.1 with
  | some bc => x.2.errResp m bc.1 true bc.2
  | none => x.2

/-- One beat of a read: `f` answers its word or a cause; a refused beat reads 0. -/
def readBeat (f : State → Nat → Except ErrCause Nat × State) (acc : Option (Nat × ErrCause) × List Byte × State) (b : Nat) :
    Option (Nat × ErrCause) × List Byte × State :=
  let x := f acc.2.2 b
  match x.1 with
  | .ok w => (acc.1, acc.2.1 ++ toBytes 8 w, x.2)
  | .error c => (acc.1.orElse fun _ => some (b, c), acc.2.1 ++ toBytes 8 0, x.2)

/-- A burst's read beat by beat. -/
def State.readBeats (s : State) (m : Master) (a n : Nat) (f : State → Nat → Except ErrCause Nat × State) : State :=
  let x := (beatsOf a n).foldl (readBeat f) (none, [], s)
  let data := (x.2.1.drop (a % 8)).take n
  match x.1 with
  | some bc => (x.2.2.errResp m bc.1 false bc.2).answer m false data
  | none => x.2.2.answer m true data

/-! ### Targets 0 to 16: remap window, boot ROM, scratch banks -/

/-- The scratch word a beat of target 0 shows: the remap window's with REMAP = 1; else the boot ROM (12 R314). -/
def State.windowWord (s : State) (b : Nat) : Option Nat := if b < 0x10000 && s.flag F.sysCtrlRemap 0 then some (b / 8) else none

/-- One beat of target 0 read; scratch bank 0 shows only where it is available (12 R314; 13 R349). -/
def State.read0 (s : State) (m : Master) (b : Nat) : Except ErrCause Nat × State :=
  match s.windowWord b with
  | some w => if s.available 1 then s.scratchRead m 0 w else (.error .unavailable, s)
  | none => (.ok (ofBytes ((List.range 8).map fun j => romByteAt (b % 0x10000 + j))), s)

/-- One beat of target 0 written; the boot ROM takes no write (12 R314; its cause is a DESIGN CHOICE, log entry 17). -/
def State.write0 (s : State) (m : Master) (cyc b : Nat) (lanes : List (Option Byte)) : Option ErrCause × State :=
  match s.windowWord b with
  | some w => if s.available 1 then s.scratchWrite m 0 w cyc lanes else (some .unavailable, s)
  | none => (some .value, s)

/-! ### Target 17: semaphores -/

/-- A read of the semaphore target: 8 bytes, aligned (12 Table 12-3). -/
def State.semTargetRead (s : State) (m : Master) (a n cyc : Nat) : State :=
  if n ≠ 8 || a % 8 ≠ 0 then s.refuse m a n false .size
  else match s.semRead m (a - 0x200000) cyc with
    | (.ok v, s) => s.answer m true (toBytes 8 v)
    | (.error c, s) => s.refuse m a n false c

/-- A write of the semaphore target. -/
def State.semTargetWrite (s : State) (m : Master) (a n v cyc : Nat) : State :=
  if n ≠ 8 || a % 8 ≠ 0 then s.errResp m a true .size
  else match s.semWrite m (a - 0x200000) v cyc with
    | (none, s) => s
    | (some c, s) => s.errResp m a true c

/-! ### Target 19: the table window (08 R196; 12 R315, R318) -/

/-- A read of the table window cut at entries: address and length of each part. -/
def windowParts : Nat → Nat → Nat → List (Nat × Nat)
  | 0, _, _ => []
  | fuel + 1, a, n =>
    if n = 0 then []
    else match winPlace a with
      | none => [(a, n)]
      | some (p, off) => let k := min n (p.size - off); (a, k) :: windowParts fuel (a + k) (n - k)

/-- Whether an address is reached through reserved cycles. -/
def windowActive (a : Nat) : Bool := match winPlace a with | some (p, _) => p.isActive | none => false

/-- A read of the table window: its parts of the active tables wait for reserved cycles, behind what was granted before; one of shadows and
coefficients alone is answered at once (12 R318; 08 R197). Until its data comes it reads as zeros. -/
def State.windowTargetRead (s : State) (m : Master) (a n : Nat) : State :=
  let at' := (Tbl.get {} s.bus.answers (masterNum m)).data.length
  let s := s.answer m true (List.replicate n 0)
  let parts := windowParts (n + 1) a n
  if parts.any fun p => windowActive p.1 then
    { s with alm := { s.alm with window := s.alm.window ++ parts.map fun p => ⟨m, p.1, [], p.2, at' + (p.1 - a)⟩ } }
  else s.each parts fun p s => s.windowAnswer m p.1 p.2 (p.1 - a) 0

/-! ### Target 20: the NVM window (13 R354) -/

/-- A read of flash; while the NVM is busy it is refused, and beyond the flash the spec names no content (log entry 3). -/
def State.nvmRead (s : State) (m : Master) (a n : Nat) : State :=
  if s.flag F.nvmStatusBusy 0 then s.refuse m a n false .unavailable
  else
    let o := a - 0x10000000
    if o + n ≤ s.flashSize then s.answer m true ((List.range n).map fun j => s.flashByte (o + j))
    else
      let x := s.takeFreeWords n
      x.2.answer m true ((List.range n).map fun j => if o + j < s.flashSize then s.flashByte (o + j) else (x.1.getD j 0).setWidth 8)

/-! ### Targets 21 to 24: HBM (04 R91 to R93; 08 R192; 12 R321) -/

/-- The lag-ring slot and word of a stack's offset. -/
def ringPlace (k o : Nat) : Nat × Nat := (slotKey (o / 0x10000 / 32) (32 * k + o / 0x10000 % 32), o % 0x10000 / 8)

/-- One beat of HBM read; a word of 32 bytes with an uncorrected error is an error response (11 R302, Table 11-4). -/
def State.hbmRead (s : State) (k b : Nat) : Except ErrCause Nat × State :=
  let o := b - stackBase k
  if s.ecc.hbmBad.contains (b / 32) then (.error .ue, s.hbmUncorrected b false)
  else if o < 0x580000000 then
    let (key, w) := ringPlace k o
    (.ok (Tbl.get 0 (Tbl.get [] s.lag.ring key) w).toNat, s)
  else (.ok (ofBytes (memRead s.hbm b 8)), s)

/-- One beat of HBM written: the ring and the descriptors at expert level only, a library slot as R192 says. -/
def State.hbmWrite (s : State) (m : Master) (k b : Nat) (lanes : List (Option Byte)) : Option ErrCause × State :=
  let o := b - stackBase k
  let put := fun (s : State) => { s with hbm := hbmPut lanes b s.hbm }
  if o < 0x584000000 then
    if !s.expert m then (some .level, s)
    else if o < 0x580000000 then
      let (key, w) := ringPlace k o
      let words := Tbl.get [] s.lag.ring key
      let v := mergeLanes (Tbl.get 0 words w).toNat lanes
      (none, { s with lag := { s.lag with ring := Tbl.set [] s.lag.ring key (Tbl.set 0 words w (BitVec.ofNat 64 v)) } })
    else (none, put s)
  else match slotAt b with
    | some i =>
      match s.slotWriteRefused i with
      | some c => (some c, s)
      | none => (none, (put s).slotWritten i)
    | none => (none, put s)

/-- Whether a write at address `b` of stack `k` is refused (08 R192; 04 R91). -/
def State.hbmRefused (s : State) (m : Master) (k b : Nat) : Bool :=
  let o := b - stackBase k
  if o < 0x584000000 then !s.expert m
  else match slotAt b with | some i => (s.slotWriteRefused i).isSome | none => false

/-- A burst written to HBM: what a merge with an uncorrected error refuses is not written (12 R321). -/
def State.hbmTargetWrite (s : State) (m : Master) (k a : Nat) (data : List (Option Byte)) : State :=
  let x := if s.hbmRefused m k a then (none, data, s) else s.hbmMerge a data
  let s := x.2.2.writeBeats m a x.2.1 fun s b l => s.hbmWrite m k b l
  match x.1 with
  | some b => s.errResp m b true .ue
  | none => s

/-! ### Bursts -/

/-- The enabled span of a write: its first address and its bytes from the first to the last enabled one. -/
def enabledSpan (a : Nat) (data : List (Option Byte)) : Nat × List (Option Byte) :=
  let d := data.dropWhile Option.isNone
  (a + (data.length - d.length), (d.reverse.dropWhile Option.isNone).reverse)

/-- A granted read burst carried out by its target (12 Table 12-3). -/
def State.targetRead (s : State) (m : Master) (t a n cyc : Nat) : State :=
  if t = 0 then s.readBeats m a n fun s b => s.read0 m b
  else if t ≤ 16 then s.readBeats m a n fun s b => s.scratchRead m (t - 1) (b % 0x10000 / 8)
  else if t = 17 then s.semTargetRead m a n cyc
  else if t = 18 then s.regTargetRead m a n
  else if t = 19 then s.windowTargetRead m a n
  else if t = 20 then s.nvmRead m a n
  else if t ≤ 24 then (s.readBeats m a n fun s b => s.hbmRead (t - 21) b).meter .pmBwHbmRd (t - 21) n
  else s.refuse m a n false .default

/-- A granted write burst carried out by its target; one with no byte enabled does nothing. -/
def State.targetWrite (s : State) (m : Master) (t a : Nat) (data : List (Option Byte)) (cyc : Nat) : State :=
  let (a', d) := enabledSpan a data
  let v := ofBytes ((lanesAt a' d (a' / 8 * 8)).map fun b => b.getD 0)
  let odd := d.any Option.isNone
  if d.isEmpty then s
  else if t = 0 then s.writeBeats m a' d fun s b l => s.write0 m cyc b l
  else if t ≤ 16 then s.writeBeats m a' d fun s b l => s.scratchWrite m (t - 1) (b % 0x10000 / 8) cyc l
  else if t = 17 then (if odd then s.errResp m a' true .size else s.semTargetWrite m a' d.length v cyc)
  else if t = 18 then (if odd then s.errResp m a' true .size else s.regTargetWrite m a' d.length v)
  else if t = 19 then s.windowWrite m a' d cyc
  else if t = 20 then s.errResp m a' true .value
  else if t ≤ 24 then (s.hbmTargetWrite m (t - 21) a' d).meter .pmBwHbmWr (t - 21) (d.filter Option.isSome).length
  else s.errResp m a' true .default

/-- A burst granted and carried out: its path, its target's availability, then the target itself (12 R313, R315, R317; 13 R349).  What a read
returns is laid behind what its transfer's earlier bursts returned. -/
def State.burstDo (s : State) (r : BusReq) (cyc : Nat) : State :=
  let s := if r.first && !r.write then s.answer r.master true [] else s
  let old := Tbl.get {} s.bus.answers (masterNum r.master)
  let n := r.len
  let s :=
    if !hasPath r.master r.target r.write then (s.grantTo r.master 25 1).refuse r.master r.addr n r.write .default
    else
      let s := s.grantTo r.master r.target ((r.addr % 8 + n + 7) / 8)
      if !s.available r.target then s.refuse r.master r.addr n r.write .unavailable
      else if r.write then s.targetWrite r.master r.target r.addr r.data cyc
      else s.targetRead r.master r.target r.addr n cyc
  if r.write then s
  else
    let new := Tbl.get {} s.bus.answers (masterNum r.master)
    s.answer r.master (old.ok && new.ok) (old.data ++ new.data)

/-- The bursts of a transfer. -/
def transferBursts (m : Master) (a n : Nat) (data : List (Option Byte)) (write : Bool) : List BusReq :=
  (burstsOf (n + 1) a n).mapIdx fun i b =>
    { master := m, target := targetAt b.1, addr := b.1, len := b.2, data := (data.drop (b.1 - a)).take b.2, write := write
      first := decide (i = 0), passes := 0 }

/-- A transfer of master `m`: cut and counted; its bursts wait where a target is busy or an earlier burst of the same master waits, else they are
carried out in order (12 R315 to R317). -/
def State.transfer (s : State) (m : Master) (a n : Nat) (data : List (Option Byte)) (write : Bool) (cyc : Nat) (busy : Bool) : State :=
  let bs := transferBursts m a n data write
  let s := s.countBy .busSplits (masterNum m) (bs.length - 1)
  s.each bs fun r s =>
    if busy || s.masterWaits m then { s with bus := { s.bus with waiting := s.bus.waiting ++ [r] } } else (s.passOver m r.target).burstDo r cyc

/-- The control-bus address of a BAR offset (12 R310); none beyond the BAR. -/
def State.barAddr (s : State) (m : Nat) (bar2 : Bool) (off : Nat) : Option Nat :=
  if bar2 then (if off < 2 ^ 32 then some (0x1000000000 + s.rd F.busBar2BaseBase (m - 1) * 2 ^ 32 + off) else none)
  else if off < 0x20000000 then some off else none

/-- A memory request of a host port: none reaches the bus while its link is down; in D3hot, or beyond the BAR, the port refuses it (12 R308, R310). -/
def State.hostRequest (s : State) (p : Port) (bar2 : Bool) (off n : Nat) (data : List (Option Byte)) (write : Bool) (cyc : Nat)
    (busy : Bool) : State :=
  let m := portMaster p
  let h := Tbl.get {} s.irqs (masterNum m)
  if !h.up then s
  else if h.d3hot then (if write then s else s.answer m false [])
  else match s.barAddr (masterNum m) bar2 off with
    | none => if write then s else s.answer m false []
    | some a => (s.hostMeter m write n).transfer m a n data write cyc busy

/-- HOST_READ (12 R308, R310 to R321). -/
def execHostRead (p : Port) (bar2 : Bool) (off len cyc : Nat) (busy : Bool) (s : State) : Res :=
  .next <| s.hostRequest p bar2 off len [] false cyc busy

/-- HOST_WRITE (12 R308, R310 to R321, R326). -/
def execHostWrite (p : Port) (bar2 : Bool) (off : Nat) (data : List (Option Byte)) (cyc : Nat) (busy : Bool) (s : State) : Res :=
  .next <| s.hostRequest p bar2 off data.length data true cyc busy

/-! ### Arbitration (12 R317) -/

/-- A master's level in BUS_PRIO. -/
def State.level (s : State) : Master → Nat
  | .hostA => s.rd F.busPrioLvlA 0 | .hostB => s.rd F.busPrioLvlB 0 | .boot => s.rd F.busPrioLvlBoot 0
  | .test => s.rd F.busPrioLvlTest 0 | .logger => s.rd F.busPrioLvlLogger 0

/-- The better of two waiting bursts: aged, then of the higher level, then next in master-number order after `last`. -/
def State.before (s : State) (last : Nat) (a b : BusReq) : Bool :=
  let aged := fun (r : BusReq) => decide (max 1 (s.rd F.busPrioAge 0) ≤ r.passes)
  let turn := fun (r : BusReq) => (masterNum r.master + 9 - last) % 5
  if aged a != aged b then aged a
  else if aged a then decide (b.passes < a.passes) || (a.passes = b.passes && decide (turn a < turn b))
  else if s.level a.master ≠ s.level b.master then decide (s.level b.master < s.level a.master)
  else decide (turn a < turn b)

/-- The burst a target grants next. -/
def State.granting (s : State) (t : Nat) : Option BusReq :=
  let last := Tbl.get 0 s.bus.lastGrant t
  (s.heads t).foldl (fun best r => match best with | some b => if s.before last r b then some r else some b | none => some r) none

/-- The first waiting burst of a master taken out. -/
def takeBurst (m : Master) (rs : List BusReq) : List BusReq := rs.eraseP fun r => r.master = m

/-- BUS_GRANT (12 R317): target `t` grants the next burst that waits there; `waited` cycles have passed in which a request waited. -/
def execBusGrant (t : TargetId) (cyc waited : Nat) (s : State) : Res :=
  .next <| match s.granting t with
    | none => s
    | some r =>
      let s := s.passOver r.master t
      let s := { s with bus := { s.bus with waiting := takeBurst r.master s.bus.waiting } }
      let s := (s.countBy .busWait t waited).meter .pmBwBusWait t waited
      s.burstDo r cyc

/-! ### Register writes (15 R378 to R383; 12 R320) -/

/-- REGISTER_WRITE: `value` has its bits on their own lanes, of which the part is written; an address that no register target holds is written as
any other. -/
def execRegisterWrite (m : Master) (addr : Nat) (value : BitVec 64) (part : Part) (s : State) : Res :=
  .next <|
    let a := addr / 8 * 8 + (if part = .high then 4 else 0)
    let bs := (Part.bytes part value.toNat).map fun b => some b.2
    (s.hostMeter m true bs.length).transfer m a bs.length bs true 0 false

end Sys2Proof.Machine
end

