-- ==== Sys2Proof/Machine/Boot.lean ====
section
/-! DEFINITION. The boot loader's steps (13 R341 to R345). -/

namespace Sys2Proof.Machine

/-! ### Images in flash (13 R340 to R342) -/

/-- `n` bytes of image `i` (1 A, 2 B) from offset `o`, as a number. -/
def State.bootNum (s : State) (i o n : Nat) : Nat := ofBytes (s.flashRead (s.regionBase i + o) n)

/-- An entry of a boot header. -/
structure BootEntry where
  off : Nat
  len : Nat
  slot : Nat
  crc : Nat
  deriving DecidableEq, Repr

/-- The entries of a header. -/
def State.bootEntries (s : State) (i : Nat) : List BootEntry :=
  (List.range (s.bootNum i 6 1)).map fun e =>
    ⟨s.bootNum i (16 + 16 * e) 4, s.bootNum i (20 + 16 * e) 4, s.bootNum i (24 + 16 * e) 1, s.bootNum i (28 + 16 * e) 4⟩

/-- Whether one entry keeps R341 in an image of `total` bytes. -/
def BootEntry.ok (e : BootEntry) (total : Nat) : Bool :=
  decide (e.off % 4096 = 0) && decide (e.len ≤ 134217728) && decide (e.off + e.len ≤ total) && decide (e.slot < 16)

/-- Whether two entries overlap or name one slot. -/
def BootEntry.clash (a b : BootEntry) : Bool :=
  decide (a.slot = b.slot) || (decide (a.off < b.off + b.len) && decide (b.off < a.off + a.len))

/-- Whether no two of a list of entries clash. -/
def entriesApart : List BootEntry → Bool
  | [] => true
  | e :: es => es.all (fun f => !BootEntry.clash e f) && entriesApart es

/-- Whether an image's header is valid (13 R341, R342). -/
def State.headerValid (s : State) (i : Nat) : Bool :=
  let n := s.bootNum i 6 1
  let total := s.bootNum i 8 4
  let es := s.bootEntries i
  let pads := (List.range 4).all fun e =>
    if e < n then s.bootNum i (25 + 16 * e) 3 = 0 else s.bootNum i (16 + 16 * e) 16 = 0
  decide (s.flashSize ≠ 0) && decide (s.bootNum i 0 4 = 0x54425A4D) && decide (s.bootNum i 4 2 = 1) && decide (1 ≤ n) && decide (n ≤ 4) &&
    decide (s.bootNum i 7 1 < n) && decide (total ≤ s.regionLen) && es.all (fun e => BootEntry.ok e total) && entriesApart es && pads &&
    (s.flashRead (s.regionBase i + 80) 172).all (· = 0) &&
    decide ((crc32c (s.flashRead (s.regionBase i) 252)).toNat = s.bootNum i 252 4)

/-- The image tried first, if any header is valid (13 R342). -/
def State.firstImage (s : State) : Option Nat :=
  match s.headerValid 1, s.headerValid 2 with
  | false, false => none
  | true, false => some 1
  | false, true => some 2
  | true, true =>
    let a : BitVec 32 := BitVec.ofNat 32 (s.bootNum 1 12 4)
    let b : BitVec 32 := BitVec.ofNat 32 (s.bootNum 2 12 4)
    let sel := s.flag F.sysBootStatusImageSel 0
    if a = b then some 1 else if later a b != sel then some 2 else some 1

/-- The fallback image: the other, where its header is valid. -/
def State.fallbackImage (s : State) : Option Nat :=
  match s.firstImage with
  | some i => if s.headerValid (3 - i) then some (3 - i) else none
  | none => none

/-! ### Steps (13 R343, R344) -/

/-- Bytes of the list in the window the loader fetches from, as they stand. -/
def State.listByte (s : State) (o : Nat) : Byte :=
  if s.flag F.sysCtrlRemap 0 then BitVec.ofNat 8 (s.scratchWord 0 (o / 8) / 2 ^ (8 * (o % 8))) else romByteAt o

/-- A number of the present step: `n` bytes from byte `o` of its 24. -/
def State.stepNum (s : State) (o n : Nat) : Nat := ofBytes ((List.range n).map fun j => s.listByte (24 * s.boot.step + o + j))

def State.stepArg (s : State) : Nat := s.stepNum 4 4
def State.stepAddr (s : State) : Nat := s.stepNum 8 8
def State.stepValue (s : State) : Nat := s.stepNum 16 8

/-- The present step's OP: END at the end of the window. -/
def State.stepOp (s : State) : Nat := if 0x10000 < 24 * (s.boot.step + 1) then 0 else s.stepNum 0 4

/-- The list ended by a failure (13 R344; 14 Tables 14-7, 14-8). -/
def State.bootFailed (s : State) (cause : Nat) : State :=
  let t := s.log.totals
  let s := { s with log := { s.log with totals := { t with bootFails := t.bootFails + 1 } } }
  ((s.wr F.sysBootStatusFail 0 cause).bootStop phaseFailed).raise A.bootFail 0

/-- An image step's failure: the list restarts with the fallback image where that has not been tried (13 R344). -/
def State.imageFailed (s : State) (cause : Nat) : State :=
  match s.boot.firstLoad, s.fallbackImage with
  | some n, some _ =>
    if s.boot.fallbackTried then s.bootFailed cause
    else
      let s := { s with boot := { s.boot with fallbackTried := true } }
      ((s.raise A.bootImageFallback 0).setFlag F.sysBootStatusFallback 0 true).bootAt n
  | _, _ => s.bootFailed cause

/-- Whether master 3's error responses have advanced (12 R311). -/
def State.bootErred (s old : State) : Bool := s.word .busErrResp 3 ≠ old.word .busErrResp 3

/-- The present step run where its OP is `op` and the loader runs: its 24 bytes fetched once over the bus, then `f`; a fetch that gets an error
response ends the list (13 R343). -/
def State.bootStep (s : State) (op : Nat) (f : State → State) : State :=
  if !s.bootRunning || s.boot.activating || s.stepOp ≠ op then s
  else if s.boot.fetched then f s
  else
    let t := s.transfer .boot (24 * s.boot.step) 24 [] false 0 false
    if t.bootErred s then t.bootFailed 7 else f { t with boot := { t.boot with fetched := true } }

/-- The slot an entry goes to: its own; on a lost stack the boot entry's is the lowest of a stack that is not lost and that no other entry names, and
any other entry has none (13 R343). -/
def State.bootPlace (s : State) (es : List BootEntry) (boot : Bool) (e : BootEntry) : Option Nat :=
  if !s.stackLost (e.slot / 4) then some e.slot
  else if !boot then none
  else (List.range 16).find? fun i => !s.stackLost (i / 4) && es.all fun x => x = e || x.slot ≠ i

/-- An entry that is skipped is logged; the spec names no code for it (13 R343; log entry 3). -/
def State.skipLogged (s : State) (slot : Nat) : State :=
  let (w, s) := s.takeFree
  s.logEvent (w.toNat % 2 ^ 16) 0 slot 0 0 false

/-- Bytes copied into a slot as the loader writes it. -/
def State.copyBytes (s : State) (slot : Nat) (bs : List Byte) : State :=
  let s := ({ s with hbm := memWrite bs (slotBase slot) s.hbm }).slotWritten slot
  let s := (s.meter .pmBwHbmWr (slot / 4) bs.length).grantAll .boot (21 + slot / 4) (slotBase slot) bs.length
  { s with boot := { s.boot with slots := s.boot.slots ++ [slot] } }

/-- One entry copied; what it found, 0 for success, else the cause of a failure. -/
def State.copyEntry (s : State) (i slot : Nat) (e : BootEntry) : Nat × State :=
  if (s.slotWriteRefused slot).isSome then (7, s)
  else
    let bs := s.flashRead (s.regionBase i + e.off) e.len
    (if (crc32c bs).toNat = e.crc then 0 else 2, s.copyBytes slot bs)

/-- The next entry `e` of image `i`'s entries `es`, `be` the boot almanac's: (entries done, first failure's cause or 0, state). -/
def loadEntry (i be : Nat) (es : List BootEntry) (acc : Nat × Nat × State) (e : BootEntry) : Nat × Nat × State :=
  let n := acc.1
  let s := acc.2.2
  if acc.2.1 ≠ 0 then acc
  else match s.bootPlace es (decide (n = be)) e with
    | some k =>
      let s := if n = be then { s with boot := { s.boot with bootSlot := k } } else s
      let x := s.copyEntry i k e
      (n + 1, x.1, x.2)
    | none => if n = be then (n + 1, 7, s) else (n + 1, 0, s.skipLogged e.slot)

/-- Image `i` loaded: 0, or the cause of the first failure. -/
def State.loadEntries (s : State) (i : Nat) : Nat × State :=
  let es := s.bootEntries i
  let s := { s with boot := { s.boot with slots := [] } }
  (es.foldl (loadEntry i (s.bootNum i 7 1) es) (0, 0, s)).2

/-- LOAD_IMAGE (13 R341 to R344): due once every stack's initialisation has ended and the NVM is free (R338). -/
def execLoadImage (s : State) : Res :=
  .next <| s.when (s.boot.p4 = 15 && !s.flag F.nvmStatusBusy 0) (·.bootStep 1 fun s =>
    let s := { s with boot := { s.boot with firstLoad := some (s.boot.firstLoad.getD s.boot.step) } }
    let s := (s.setFlag F.sysBootStatusAValid 0 (s.headerValid 1)).setFlag F.sysBootStatusBValid 0 (s.headerValid 2)
    match if s.boot.fallbackTried then s.fallbackImage else s.firstImage with
    | none => s.imageFailed 1
    | some i =>
      let (r, s) := (s.wr F.sysBootStatusImage 0 i).loadEntries i
      if r = 0 then s.bootNext else s.imageFailed r)

/-- CHECK of a slot as the loader does it: begun and ended. -/
def State.bootCheck (s : State) (i : Nat) : State := if s.checkRefused i then s else (s.checkStart i).checkEnd none

/-- CHECK_BOOT (13 R343; 08 R193). -/
def execCheckBoot (s : State) : Res :=
  .next <| s.when (!s.flag F.almStateCheckBusy 0) (·.bootStep 2 fun s =>
    let i := s.boot.bootSlot
    if s.checkRefused i then s.imageFailed 7
    else
      let s := s.bootCheck i
      if s.slotState i = slotAccepted then s.bootNext else s.imageFailed 3)

/-- STAGE_BOOT (13 R343; 08 R194). -/
def execStageBoot (s : State) : Res :=
  .next <| s.when (s.shadow ≠ shStaging) (·.bootStep 3 fun s =>
    let i := s.boot.bootSlot
    if s.stageRefused i then s.imageFailed 7
    else
      let s := (s.stageStart i false).stageEnd false
      if s.shadow = shStaged then s.bootNext else s.imageFailed 4)

/-- ACTIVATE (13 R343, R345): arms; the swap's completion ends the step. -/
def execActivate (s : State) : Res :=
  .next <| s.bootStep 4 fun s =>
    let t := tadd s.now s.stepArg
    if s.armResult false t = 1 then
      let s := s.arm t s.alm.shadow.head.epoch.toNat false
      { s with boot := { s.boot with activating := true } }
    else s.bootFailed 5

/-- CHECK_REST (13 R343). -/
def execCheckRest (s : State) : Res :=
  .next <| s.when (!s.flag F.almStateCheckBusy 0) (·.bootStep 5 fun s =>
    (s.each (s.boot.slots.filter (· ≠ s.boot.bootSlot)) fun i s => s.bootCheck i).bootNext)

/-- BOOT_STEP_WRITE (13 R343). -/
def execBootStepWrite (s : State) : Res :=
  .next <| s.bootStep 6 fun s =>
    let t := s.transfer .boot s.stepAddr 8 ((toBytes 8 s.stepValue).map some) true 0 false
    if t.bootErred s then t.bootFailed 7 else t.bootNext

/-- BOOT_STEP_POLL (13 R343): one read of the step; it goes on where a bit is found, fails once ARG ticks have passed. -/
def execBootStepPoll (s : State) : Res :=
  .next <| s.bootStep 7 fun s =>
    let t := s.transfer .boot s.stepAddr 8 [] false 0 false
    if t.bootErred s then t.bootFailed 7
    else
      let w := ofBytes (Tbl.get {} t.bus.answers 3).data
      if w &&& s.stepValue ≠ 0 then t.bootNext
      else if s.boot.since + s.stepArg ≤ s.tick.n then t.bootFailed 6
      else t

/-- BOOT_STEP_WAIT (13 R343): due ARG ticks after the step began. -/
def execBootStepWait (s : State) : Res :=
  .next <| s.when (decide (s.boot.since + s.stepArg ≤ s.tick.n)) (·.bootStep 8 fun s => s.bootNext)

/-- BOOT_STEP_END (13 R343, Table 13-5): END or the end of the window ends the list; a code that is no step fails. -/
def execBootStepEnd (s : State) : Res :=
  .next <|
    if s.bootRunning && !s.boot.activating && decide (0x10000 < 24 * (s.boot.step + 1)) then s.bootStop phaseDone
    else if s.stepOp = 0 then s.bootStep 0 fun s => s.bootStop phaseDone
    else if 8 < s.stepOp then s.bootStep s.stepOp fun s => s.bootFailed 8
    else s

end Sys2Proof.Machine
end

