-- ==== Sys2Proof/Machine/Apply.lean ====
section
/-! DEFINITION. What a lichen pair applies tick by tick (10 R267, R268, R273): mirrored records and resynchronisation records. -/

namespace Sys2Proof.Machine

/-! ### Mirrored records (10 R267) -/

/-- The part of a register that a record's byte enables cover. -/
def partOfEnables (be : BitVec 8) : Part := if be = 0x0F then .low else if be = 0xF0 then .high else .whole

/-- A record's bytes on their lanes. -/
def MirrorRec.lanes (r : MirrorRec) : List (Option Byte) :=
  (List.range 8).map fun j => if r.be.getLsbD j then some (BitVec.ofNat 8 (r.data.toNat / 2 ^ (8 * j))) else none

/-- Whether a record writes an active table: those wait for the mirror's reserved cycles. -/
def MirrorRec.isTable (r : MirrorRec) : Bool :=
  match winPlace r.addr with | some (p, _) => p.isActive | none => false

/-- A command of PROT_GROUP_CMD at its tick edge: where the group is to be reset at this edge, left for the reset (05 R114, R115). -/
def State.groupRecord (s : State) (g cmd : Nat) : State :=
  if !s.flag F.protGroupCfgEn g then s
  else if s.protChanged g then s.setGroup g { s.group g with waiting := (s.group g).waiting ++ [cmd] }
  else s.protTake g cmd

/-- A register or shadow record applied at the tick edge of u; `mine` where this unit accepted the write (10 R265 to R267, R270, R275). -/
def State.recordDo (s : State) (mine : Bool) (r : MirrorRec) : State :=
  let v := r.data.toNat
  match regAt r.addr with
  | none => s.windowDo none r.addr r.lanes 0
  | some (g, i) =>
    match g with
    | .almSlotCmd => s.slotDo (field v 8 2) (field v 0 4)
    | .almArmCmd => s.armCmdDo true (field v 0 2)
    | .almAuditCtrl => s.auditCtrl (bit v 0)
    | .protGroupCmd => s.groupRecord i (field v 0 3)
    | .mateCmd => s.mateCmdDo mine (field v 0 3)
    | .almTrimCmd => if bit v 63 then s.trimQueue v r.u.toNat else s.regPut g i (s.wholeValue g i (partOfEnables r.be) v)
    | g => s.regPut g i (s.wholeValue g i (partOfEnables r.be) v)

/-- A record counted and noted. -/
def State.recordNote (s : State) (r : MirrorRec) : State :=
  let s := s.count .mateMirrored 0
  { s with mate := { s.mate with recent := s.mate.recent ++ [(r.u, r.addr)] } }

/-- One access to a table word: its address, bytes, and the records that make it up. -/
structure TableJob where
  addr : Nat
  data : List (Option Byte)
  recs : List MirrorRec
  deriving DecidableEq, Repr

/-- Whether two records that follow each other are the beats of one joined write of an emit entry (11 R285): a record does not say which burst it came
from (DEDUCED, log entry 36). -/
def MirrorRec.joins (a b : MirrorRec) : Bool :=
  (decide (0x8000000 ≤ a.addr) && decide (a.addr < 0xC000000) && a.addr % 16 = 0 && a.be = 0xFF) &&
    (decide (b.addr = a.addr + 8) && decide (b.u = a.u) && b.be.getLsbD 0 && b.be.getLsbD 1)

/-- Table records as accesses: both halves of an emit entry that follow each other are one. -/
def tableJobs : List MirrorRec → List TableJob
  | a :: b :: t =>
    if a.joins b then
      ⟨a.addr, a.lanes ++ b.lanes, [a, b]⟩ :: tableJobs t
    else ⟨a.addr, a.lanes, [a]⟩ :: tableJobs (b :: t)
  | [a] => [⟨a.addr, a.lanes, [a]⟩]
  | [] => []

/-- The SRAM word of a table-window address, as an address word. -/
def State.windowSram (s : State) (a : Nat) : Option Nat := (winPlace a).bind fun x => s.winAddr x.1

/-- That word for the one-word rule: the two halves of a converter's configuration word count as two (07 R410). -/
def State.windowWordOf (s : State) (a : Nat) : Option Nat :=
  match winPlace a with
  | some (.up i, _) => (s.windowSram a).map fun w => 2 * w + i / 2 % 2
  | _ => (s.windowSram a).map fun w => 2 * w

/-- Whether an access of word `a` would give its bank a second word beside those of `used`. -/
def secondWord (used : List Nat) (a : Nat) : Bool := used.any fun b => decide (b / 2 ^ 15 = a / 2 ^ 15) && decide (b ≠ a)

/-- What one reserved cycle takes of a queue: in order, for as long as no bank receives a second word (10 R267, R273). -/
def cycleRun {α : Type} (word : α → Option Nat) : List α → List Nat → List α × List α
  | [], _ => ([], [])
  | x :: xs, used =>
    match word x with
    | some a =>
      if secondWord used a then ([], x :: xs)
      else
        let (t, k) := cycleRun word xs (a :: used)
        (x :: t, k)
    | none =>
      let (t, k) := cycleRun word xs used
      (x :: t, k)

/-- The mirror's reserved cycles for active tables: j from 4 to 480 (06 Table 06-5, 10 R267). -/
def mirrorCycles : List Nat := (List.range 120).map fun i => 4 + 4 * i

/-- One mirror cycle. -/
def State.mirrorCycle (s : State) (js : List TableJob) (j : Nat) : List TableJob × State :=
  if js.isEmpty then (js, s) else
  let (take, keep) := cycleRun (fun (x : TableJob) => s.windowWordOf x.addr) js []
  let s := s.count .coreResvMirror 0
  (keep, s.each take fun x s => s.each x.recs (fun r s => s.recordNote r) |>.windowDo none x.addr x.data (reservedCycle j))

/-- The records due by the tick in progress, in the order both units keep: left-over table records, those of earlier ticks, then the senior's and
the junior's of this tick (10 R267). -/
def State.recordsDue (s : State) : List (Bool × MirrorRec) :=
  let m := s.mate
  let of := fun (mine : Bool) (p : Int → Bool) =>
    ((if mine then m.own else m.theirs).filter fun r => p (tdiff s.now r.u.toNat)).map fun r => (mine, r)
  let senior := !m.rank
  let turn := fun p => of senior p ++ of (!senior) p
  m.left.map (fun r => (false, r)) ++ turn (fun d => decide (d < 0)) ++ turn fun d => decide (d = 0)

/-- Settings in force brought up to their registers at the tick edge of u (04 R98, 05 R114, R117; 10 R252). -/
def State.syncSettings (s : State) : State :=
  let s := s.mateCfgSync.lagSync.eachN 64 fun g s => s.protSync g
  let s := s.legSync
  if s.estate = eSwapping then s.stationSync else s.bridgeSync

/-- Whether the swap of an epoch is due at the edge that began this tick: it comes before the records of the same edge (05 R114). -/
def State.swapFirst (s : State) : Bool :=
  s.estate = eCommitted && decide (0 ≤ tdiff (s.rd F.almArmedArmedTick 0) s.now)

/-- The records due taken off the queues. -/
def State.mirrorTake (s : State) : State :=
  let later' := fun (r : MirrorRec) => decide (0 < tdiff s.now r.u.toNat)
  let m := s.mate
  { s with mate := { m with
    mirrorAt := s.tick.n + 1, left := [], own := m.own.filter later', theirs := m.theirs.filter later' } }

/-- Register, group and shadow records applied in order, the two of a joined write as one (11 R285). -/
def State.plainRun : List (Bool × MirrorRec) → State → State
  | x :: y :: t, s =>
    if x.2.joins y.2 then
      State.plainRun t (((s.recordNote x.2).recordNote y.2).windowDo none x.2.addr (x.2.lanes ++ y.2.lanes) 0)
    else State.plainRun (y :: t) ((s.recordDo x.1 x.2).recordNote x.2)
  | [x], s => (s.recordDo x.1 x.2).recordNote x.2
  | [], s => s

/-- Register and group records applied. -/
def State.mirrorPlain (s : State) (plain : List (Bool × MirrorRec)) : State :=
  let s := State.plainRun plain s
  if plain.isEmpty then s else s.syncSettings

/-- Table records applied in the cycles they have; those left wait. -/
def State.mirrorTables (s : State) (jobs : List TableJob) : State :=
  let x := mirrorCycles.foldl (fun (acc : List TableJob × State) j => acc.2.mirrorCycle acc.1 j) (jobs, s)
  { x.2 with mate := { x.2.mate with left := x.1.flatMap (·.recs) } }

/-- The records due applied. -/
def State.mirrorApply (s : State) : State :=
  let due := s.recordsDue
  (s.mirrorTake.mirrorPlain (due.filter fun x => !x.2.isTable)).mirrorTables (tableJobs ((due.filter (·.2.isTable)).map (·.2)))

/-- MIRROR_APPLY (10 R266 to R268): once in a tick. -/
def execMirrorApply (s : State) : Res :=
  .next <| s.when (!s.swapFirst && decide (s.mate.mirrorAt ≠ s.tick.n + 1) && !s.recordsDue.isEmpty) State.mirrorApply

/-! ### Resynchronisation records (10 R273) -/

/-- The table-window address a table record names. -/
def ResyncRec.window (r : ResyncRec) : Option Nat :=
  match r.region with
  | 3 => some (0xE000000 + 64 * r.index + 48) | 4 => some (0xC000000 + 8 * r.index) | 5 => some (0x8000000 + 16 * r.index) | _ => none

/-- Whether a mirrored write of address `a` names the record's target. -/
def ResyncRec.names (r : ResyncRec) (a : Nat) : Bool :=
  match r.region with
  | 1 => a = regAddr .protGroupCmd r.index
  | 2 => a = 0x1000000 + 8 * r.index
  | _ => match r.window with
    | some w => (winPlace w).map (·.1) = (winPlace a).map (·.1) && (winPlace a).isSome
    | none => false

/-- Whether a mirrored write later than the record's reading has brought its target up already (10 R273). -/
def State.recordStale (s : State) (r : ResyncRec) : Bool :=
  s.mate.recent.any fun x => r.names x.2 && later r.v x.1 && decide (tdiff x.1.toNat s.now ≥ 0)

/-- The bytes a table record writes. -/
def ResyncRec.bytes (r : ResyncRec) : List (Option Byte) :=
  (toBytes (match r.region with | 3 => 4 | 4 => 8 | _ => 10) r.data.toNat).map some

/-- A protection command in force taken over from the ACTIVE. -/
def State.groupTake (s : State) (g cmd : Nat) : State :=
  let s := (s.wr F.protGroupCmdCmd g cmd).protAlarms g
  s.setGroup g { s.group g with govern := cmd }

/-- Half of a ring word replaced by the ACTIVE's previous value. -/
def State.ringTake (s : State) (i v : Nat) : State :=
  let l := i / 16384
  let p := i % 16384 / 2
  let w := putField (s.ringWord l p) (32 * (i % 2)) 32 v
  { s with core := { s.core with rings := Tbl.modify [] s.core.rings l fun t => Tbl.set silentPair t p (BitVec.ofNat 64 w) } }

/-- A record counted as arrived; the first of all begins the count anew. -/
def State.resyncCount (s : State) (r : ResyncRec) : State :=
  let n := if r.region = 1 && r.index = 0 then 0 else s.rd F.mateResyncDone 0
  s.wr F.mateResyncDone 0 (n + 1)

/-- A record that is no table's, applied at the tick edge of v + 4 unless it is stale. -/
def State.resyncPlain (s : State) (r : ResyncRec) : State :=
  let s := s.resyncCount r
  if s.recordStale r then s else
  match r.region with
  | 1 => if r.index < 64 then s.groupTake r.index (field r.data.toNat 0 3) else s
  | 2 => match regAt (0x1000000 + 8 * r.index) with
    | some (g, i) => if g.isLoaded i then s.regPut g i r.data.toNat else s
    | none => s
  | 6 => s.ringTake r.index (field r.data.toNat 0 32)
  | _ => s

/-- A table record applied in a reserved cycle unless it is stale. -/
def State.resyncTable (s : State) (j : Nat) (r : ResyncRec) : State :=
  let s := s.resyncCount r
  if s.recordStale r then s else
  match r.window with
  | some a => s.windowDo none a r.bytes (reservedCycle j)
  | none => s

/-- The control plane's reserved cycles of a tick. -/
def controlCycles : List Nat := (List.range 488).filter controlCycle

/-- One control cycle: the words it takes are noted against the host's accesses in the same cycle. -/
def State.resyncCycle (s : State) (rs : List ResyncRec) (j : Nat) : List ResyncRec × State :=
  if rs.isEmpty then (rs, s) else
  let word := fun (r : ResyncRec) => r.window.bind s.windowSram
  let (take, keep) := cycleRun (fun r => r.window.bind s.windowWordOf) rs []
  let s := s.ctrlCycle j
  let s := { s with mate := { s.mate with syncTook := s.mate.syncTook ++ (take.filterMap word).map fun a => (j, a) } }
  (keep, s.each take fun r s => s.resyncTable j r)

/-- TOTAL follows the slots that hold as the tables come over; after the last record the VIGIL is SETTLING (10 R274). -/
def State.resyncCheck (s : State) : State :=
  let total := s.resyncTotal
  let s := s.wr F.mateResyncTotal 0 total
  if s.mate.syncIn.isEmpty && decide (total ≤ s.rd F.mateResyncDone 0) then s.syncDone else s

/-- The records due applied (10 R273). -/
def State.resyncApply (s : State) : State :=
  let ready := fun (r : ResyncRec) => decide (4 ≤ tdiff r.v.toNat s.now)
  let (due, wait) := s.mate.syncIn.partition ready
  let plain := due.filter fun r => r.window.isNone
  let s := { s with mate := { s.mate with syncIn := [], syncTick := s.tick.n + 1, syncTook := [] } }
  let s := s.each plain fun r s => s.resyncPlain r
  let s := if plain.any fun r => r.region = 2 then s.syncSettings else s
  let (left, s) := controlCycles.foldl (fun (acc : List ResyncRec × State) j => acc.2.resyncCycle acc.1 j) (due.filter fun r => r.window.isSome, s)
  ({ s with mate := { s.mate with syncIn := left ++ wait } }).resyncCheck

/-- RESYNC_RECORD_APPLY (10 R273): once in a tick. -/
def execResyncRecordApply (s : State) : Res :=
  .next <| s.when (s.role = roleVigil && s.mate.syncing && !s.swapFirst && decide (s.mate.syncTick ≠ s.tick.n + 1) &&
    s.mate.syncIn.any fun r => decide (4 ≤ tdiff r.v.toNat s.now)) State.resyncApply

end Sys2Proof.Machine
end

