-- ==== Sys2Proof/Machine/Tick.lean ====
section
/-! DEFINITION. The local tick edge (06 R123): the tick that ends is closed and the next one begun. -/

namespace Sys2Proof.Machine

/-! ### The end of a tick -/

/-- Reserved cycles the audit used in the tick that ends: 61 words of each bank, 16,384 in a pass (08 R210, 06 R144). -/
def State.auditCycles (s : State) : Nat :=
  match s.alm.auditSince with
  | some n => min 61 (16384 - 61 * (s.tick.n - n))
  | none => 0

/-- The lanes' and stacks' measurements of the tick that ends. -/
def State.measured (s : State) (e : TickEnv) : State :=
  let s := (s.each e.signals fun l s => s.signalBack l).each e.clocks fun x s => s.clockSignal x.1 x.2
  let s := s.each e.fill fun x s => s.meterMax .pmBwHbmPeak x.1 x.2
  let s := { s with ecc := { s.ecc with hbmBad := s.ecc.hbmBad ++ e.hbmBad.filter fun w => !s.ecc.hbmBad.contains w } }
  s.each e.hbmCe fun k s => s.hbmCorrected k

/-- A buffer or queue word that drained with an error (11 Table 11-4, R289): a corrected one counts and is tracked; a bad one spoils what it
carried. -/
def State.drained (s : State) (d : Drain) : State :=
  let a := d.addr.toNat
  if eccMem a ≠ 8 && eccMem a ≠ 9 || !addrOk a then s else
  match d with
  | .corrected _ b =>
    let t := s.log.totals
    (({ s with log := { s.log with totals := { t with corr := t.corr + 1 } } }).count .eccCorr (eccMem a)).trackCount a b
  | .written _ l n p => (s.ueSeen a true).pageSpoil l n p
  | .fetched _ _ _ => s.ueSeen a true
  | .mate _ m1 =>
    let l := 128 + b2n m1
    (s.ueSeen a true).setTx l { (s.ueSeen a true).tx l with spoiled := true }
  | .host _ p =>
    let s := s.ueSeen a false
    match s.bus.waiting.find? fun r => r.master = portMaster p with
    | some r => ({ s with bus := { s.bus with waiting := takeBurst r.master s.bus.waiting } }).refuse r.master r.addr r.len r.write .ue
    | none => s
  | .logger _ =>
    let s := s.ueSeen a false
    match s.log.queue with
    | _ :: q => ({ s with log := { s.log with queue := q } }).count .logDropped 0
    | [] => { s with log := { s.log with spoiled := s.log.spoiled + 1 } }

/-- The tick in progress closed: the core's stages over the tables as written in it, background reads, adaptation, monitoring, defects (06 R124; 11
R293, R297; 02 R34; 14 R360; 03 R72). Upsets stand from the tick's cycle 0, those of its sum buffer from the clear on, those of an egress ring from
its end (DESIGN CHOICE, log entry 57). -/
def State.tickEnd (s : State) (e : TickEnv) : State :=
  let ring := fun (x : BitVec 32 × Nat) => decide (eccMem x.1.toNat = 7)
  let s := (s.sumClear.each e.stuck fun x s => s.cellStuck x.1.toNat x.2.1 x.2.2).each (e.upsets.filter fun x => !ring x)
    fun x s => s.upset x.1.toNat x.2
  let s := (s.testTick.each e.drains fun d s => s.drained d).coreTick e
  let s := (s.coreAlarms.scrubTick.scrubCount).each (e.upsets.filter ring) fun x s => s.upset x.1.toNat x.2
  let s := s.countBy .coreResvAudit 0 s.auditCycles
  let s := { s with ecc := { s.ecc with testWait := bump (2 ^ 32) s.ecc.testWait } }
  let s := s.measured e
  let s := s.eachN 130 fun l s => s.adaptTick l
  (s.pmTick.eachN 130 fun l s => s.defectEdge l).protNotes

/-! ### The beginning of a tick -/

/-- Settings that take effect at tick edges, but where an epoch's swap at this edge brings them over (04 R98, 05 R114, R117). -/
def State.edgeSettings (s : State) : State := if s.swapFirst then s else s.syncSettings

/-- Quads, receivers and transmitters at a tick edge (02 R43, 03 R57, R70). -/
def State.edgeLinks (s : State) : State :=
  let s := s.eachN 33 fun q s => s.quadEdge q
  s.eachN 130 fun l s => (s.absentEdge l).txEdge l

/-- What a tick edge begins, `v` the number of the tick that has ended and `events` its integrity events. -/
def State.tickBegin (s : State) (v : Nat) (events : List Nat) (freq : List (Nat × Int)) : State :=
  let s := s.wr F.lagStateRingPos 0 ((s.rd F.lagStateRingPos 0 + 1) % 11264)
  let s := (s.restoreEdge.sdWindowEdge.edgeSettings.timEdge freq).mateEdge v events
  s.armIdle.edgeLinks.pmEdge

/-- The next tick's number and place (09 R232). -/
def State.tickNext (s : State) : State :=
  let u := BitVec.ofNat 32 s.now
  let t := s.tick
  { (s.wr F.timTickTick 0 (s.now + 1)) with tick := { t with n := t.n + 1, prev1 := u, prev2 := t.prev1, events := [] } }

/-- A tick edge: the first after the rise of RST_N begins tick 0 (13 R338). -/
def State.tickEdge (s : State) (e : TickEnv) : State :=
  if !s.tick.begun then ({ s with tick := { s.tick with begun := true } }).tickBegin s.now [] []
  else
    let v := s.now
    let s := s.tickEnd e
    s.tickNext.tickBegin v s.tick.events e.linkFreq

/-- TICK_EDGE (06 R123): from the rise of RST_N until the tick stops. -/
def execTickEdge (e : TickEnv) (s : State) : Res := .next <| s.when (s.boot.risen && !s.tick.stopped) fun s => s.tickEdge e

end Sys2Proof.Machine
end

