-- ==== Sys2Proof/Machine/Dispatch.lean ====
section
/-! DEFINITION. One arm per command of the table. -/

namespace Sys2Proof.Machine

/-- The effect of a command on everything but the queue. -/
def exec (i : Instr) (s : State) : Host.Outcome State Fault Refusal :=
  match i with
  | .pwrOkFall => Sys2Proof.Machine.execPwrOkFall s
  | .rstNFall => Sys2Proof.Machine.execRstNFall s
  | .rstNRise bootMode imageSel mateRank => Sys2Proof.Machine.execRstNRise bootMode imageSel mateRank s
  | .hbmInitDone k ok => Sys2Proof.Machine.execHbmInitDone k ok s
  | .supplyMonitorTrip => Sys2Proof.Machine.execSupplyMonitorTrip s
  | .tickEdge env => Sys2Proof.Machine.execTickEdge env s
  | .txPllLock q => Sys2Proof.Machine.execTxPllLock q s
  | .txFrameStart l b => Sys2Proof.Machine.execTxFrameStart l b s
  | .rxBlock l hdr line => Sys2Proof.Machine.execRxBlock l hdr line s
  | .blockLockAcquire l => Sys2Proof.Machine.execBlockLockAcquire l s
  | .blockLockLoss l => Sys2Proof.Machine.execBlockLockLoss l s
  | .faSyncEntry l => Sys2Proof.Machine.execFaSyncEntry l s
  | .faSyncLoss l => Sys2Proof.Machine.execFaSyncLoss l s
  | .rxFrameDeliver l f => Sys2Proof.Machine.execRxFrameDeliver l f s
  | .verdictForm l next t16 => Sys2Proof.Machine.execVerdictForm l next t16 s
  | .lagDeadlineMiss l stamp => Sys2Proof.Machine.execLagDeadlineMiss l stamp s
  | .quadFailure q cause => Sys2Proof.Machine.execQuadFailure q cause s
  | .clockLaneAcquire q => Sys2Proof.Machine.execClockLaneAcquire q s
  | .deskewDone q skew => Sys2Proof.Machine.execDeskewDone q skew s
  | .quadStateTimeout q => Sys2Proof.Machine.execQuadStateTimeout q s
  | .quadWaitEnd q => Sys2Proof.Machine.execQuadWaitEnd q s
  | .laneLoopSelect m q loop => Sys2Proof.Machine.execLaneLoopSelect m q loop s
  | .laneRestart m q => Sys2Proof.Machine.execLaneRestart m q s
  | .prbsTxEnable m q lanes => Sys2Proof.Machine.execPrbsTxEnable m q lanes s
  | .prbsRxEnable m q lanes => Sys2Proof.Machine.execPrbsRxEnable m q lanes s
  | .prbsCheckerLock l => Sys2Proof.Machine.execPrbsCheckerLock l s
  | .prbsCheckerUnlock l => Sys2Proof.Machine.execPrbsCheckerUnlock l s
  | .adaptDecision l meas => Sys2Proof.Machine.execAdaptDecision l meas s
  | .adaptRequestTimeout l => Sys2Proof.Machine.execAdaptRequestTimeout l s
  | .adaptSilenceTimeout l => Sys2Proof.Machine.execAdaptSilenceTimeout l s
  | .adaptTrainTimeout l => Sys2Proof.Machine.execAdaptTrainTimeout l s
  | .eyeScanStart m q => Sys2Proof.Machine.execEyeScanStart m q s
  | .eyeScanAbort m q => Sys2Proof.Machine.execEyeScanAbort m q s
  | .eyeScanPoint q mismatches => Sys2Proof.Machine.execEyeScanPoint q mismatches s
  | .mboxSend m l seq len => Sys2Proof.Machine.execMboxSend m l seq len s
  | .userSend m l seq len => Sys2Proof.Machine.execUserSend m l seq len s
  | .neighbourChangedClear m l => Sys2Proof.Machine.execNeighbourChangedClear m l s
  | .losExit l => Sys2Proof.Machine.execLosExit l s
  | .lofEntry l => Sys2Proof.Machine.execLofEntry l s
  | .lofExit l => Sys2Proof.Machine.execLofExit l s
  | .blockTypeErrEntry l => Sys2Proof.Machine.execBlockTypeErrEntry l s
  | .blockTypeErrExit l => Sys2Proof.Machine.execBlockTypeErrExit l s
  | .rdiEntry l => Sys2Proof.Machine.execRdiEntry l s
  | .rdiExit l => Sys2Proof.Machine.execRdiExit l s
  | .discordEntry l => Sys2Proof.Machine.execDiscordEntry l s
  | .discordExit l => Sys2Proof.Machine.execDiscordExit l s
  | .lagLateRaise l => Sys2Proof.Machine.execLagLateRaise l s
  | .lagLateClear l => Sys2Proof.Machine.execLagLateClear l s
  | .lagStampRangeRaise l => Sys2Proof.Machine.execLagStampRangeRaise l s
  | .lagStampRangeClear l => Sys2Proof.Machine.execLagStampRangeClear l s
  | .lagMarginClear l => Sys2Proof.Machine.execLagMarginClear l s
  | .lagStackOff m mask => Sys2Proof.Machine.execLagStackOff m mask s
  | .hbmTempTrip k => Sys2Proof.Machine.execHbmTempTrip k s
  | .stackUeLoss k => Sys2Proof.Machine.execStackUeLoss k s
  | .stackFallbackEntry k => Sys2Proof.Machine.execStackFallbackEntry k s
  | .evbMove => Sys2Proof.Machine.execEvbMove s
  | .lagStackRestore m mask => Sys2Proof.Machine.execLagStackRestore m mask s
  | .stackRestoreDone k => Sys2Proof.Machine.execStackRestoreDone k s
  | .stackRestoreFail k => Sys2Proof.Machine.execStackRestoreFail k s
  | .fallbackReleaseEnd l => Sys2Proof.Machine.execFallbackReleaseEnd l s
  | .lagLinkCfgWrite m l value => Sys2Proof.Machine.execLagLinkCfgWrite m l value s
  | .lagArrExtremesRead m l max => Sys2Proof.Machine.execLagArrExtremesRead m l max s
  | .protCmdClear m g => Sys2Proof.Machine.execProtCmdClear m g s
  | .protCmdManualP m g => Sys2Proof.Machine.execProtCmdManualP m g s
  | .protCmdManualS m g => Sys2Proof.Machine.execProtCmdManualS m g s
  | .protCmdForceP m g => Sys2Proof.Machine.execProtCmdForceP m g s
  | .protCmdForceS m g => Sys2Proof.Machine.execProtCmdForceS m g s
  | .protCmdLockout m g => Sys2Proof.Machine.execProtCmdLockout m g s
  | .protCfgWrite m g value => Sys2Proof.Machine.execProtCfgWrite m g value s
  | .protSfEntry g copy => Sys2Proof.Machine.execProtSfEntry g copy s
  | .protSfExit g copy => Sys2Proof.Machine.execProtSfExit g copy s
  | .protSdWindowEnd => Sys2Proof.Machine.execProtSdWindowEnd s
  | .protWtrEnd g => Sys2Proof.Machine.execProtWtrEnd g s
  | .protMisalignedRaise g => Sys2Proof.Machine.execProtMisalignedRaise g s
  | .protMisalignedClear g => Sys2Proof.Machine.execProtMisalignedClear g s
  | .protRxFreshExpire bridge idx leg => Sys2Proof.Machine.execProtRxFreshExpire bridge idx leg s
  | .scheduleOverrunClear m => Sys2Proof.Machine.execScheduleOverrunClear m s
  | .scheduleClashClear m => Sys2Proof.Machine.execScheduleClashClear m s
  | .coreSlackRead m k => Sys2Proof.Machine.execCoreSlackRead m k s
  | .libraryWrite m slot off data => Sys2Proof.Machine.execLibraryWrite m slot off data s
  | .almCheck m slot => Sys2Proof.Machine.execAlmCheck m slot s
  | .almCheckDone readUe => Sys2Proof.Machine.execAlmCheckDone readUe s
  | .almStage m slot => Sys2Proof.Machine.execAlmStage m slot s
  | .almStageDone readUe => Sys2Proof.Machine.execAlmStageDone readUe s
  | .almArm m => Sys2Proof.Machine.execAlmArm m s
  | .almDisarm m => Sys2Proof.Machine.execAlmDisarm m s
  | .almRejoin m => Sys2Proof.Machine.execAlmRejoin m s
  | .epochCommit => Sys2Proof.Machine.execEpochCommit s
  | .epochSwap => Sys2Proof.Machine.execEpochSwap s
  | .epochSumSwap => Sys2Proof.Machine.execEpochSumSwap s
  | .epochEmitSwap => Sys2Proof.Machine.execEpochEmitSwap s
  | .epochSwapComplete => Sys2Proof.Machine.execEpochSwapComplete s
  | .epochMissedClear m => Sys2Proof.Machine.execEpochMissedClear m s
  | .trimGo m output index gain => Sys2Proof.Machine.execTrimGo m output index gain s
  | .trimApply => Sys2Proof.Machine.execTrimApply s
  | .tableWindowWrite m addr data cyc => Sys2Proof.Machine.execTableWindowWrite m addr data cyc s
  | .tableWindowApply j => Sys2Proof.Machine.execTableWindowApply j s
  | .auditPassEnd => Sys2Proof.Machine.execAuditPassEnd s
  | .almAuditCtrlWrite m en => Sys2Proof.Machine.execAlmAuditCtrlWrite m en s
  | .refEvent idx t16 freq => Sys2Proof.Machine.execRefEvent idx t16 freq s
  | .refEventMissing idx => Sys2Proof.Machine.execRefEventMissing idx s
  | .refQualify idx => Sys2Proof.Machine.execRefQualify idx s
  | .refWtrEnd idx => Sys2Proof.Machine.execRefWtrEnd idx s
  | .timCmdClear m => Sys2Proof.Machine.execTimCmdClear m s
  | .timCmdForceRef m ref => Sys2Proof.Machine.execTimCmdForceRef m ref s
  | .timCmdForceHoldover m => Sys2Proof.Machine.execTimCmdForceHoldover m s
  | .timCmdAdopt m => Sys2Proof.Machine.execTimCmdAdopt m s
  | .timDcoWrite m hostLocked offset => Sys2Proof.Machine.execTimDcoWrite m hostLocked offset s
  | .holdoverSecondEnd => Sys2Proof.Machine.execHoldoverSecondEnd s
  | .dcoLimitClear => Sys2Proof.Machine.execDcoLimitClear s
  | .exchangeStart l => Sys2Proof.Machine.execExchangeStart l s
  | .probeReceive l => Sys2Proof.Machine.execProbeReceive l s
  | .reportReceive l => Sys2Proof.Machine.execReportReceive l s
  | .exchangeTimeout l => Sys2Proof.Machine.execExchangeTimeout l s
  | .tickAdopt => Sys2Proof.Machine.execTickAdopt s
  | .adoptWaitEnd => Sys2Proof.Machine.execAdoptWaitEnd s
  | .mateFrameReceive => Sys2Proof.Machine.execMateFrameReceive s
  | .mateRoleChange => Sys2Proof.Machine.execMateRoleChange s
  | .mateJoinWaitEnd => Sys2Proof.Machine.execMateJoinWaitEnd s
  | .mateHbEdge period => Sys2Proof.Machine.execMateHbEdge period s
  | .mateHbLost => Sys2Proof.Machine.execMateHbLost s
  | .mateHbLossClassify => Sys2Proof.Machine.execMateHbLossClassify s
  | .mateHbRegain => Sys2Proof.Machine.execMateHbRegain s
  | .mateLinkDownRaise => Sys2Proof.Machine.execMateLinkDownRaise s
  | .mateLinkDownClear => Sys2Proof.Machine.execMateLinkDownClear s
  | .mirrorApply => Sys2Proof.Machine.execMirrorApply s
  | .resyncRecordApply => Sys2Proof.Machine.execResyncRecordApply s
  | .resyncSettled => Sys2Proof.Machine.execResyncSettled s
  | .mateUnsettledTimeout => Sys2Proof.Machine.execMateUnsettledTimeout s
  | .mateDiscrepancyClear => Sys2Proof.Machine.execMateDiscrepancyClear s
  | .mateWatchExpire w => Sys2Proof.Machine.execMateWatchExpire w s
  | .mateCmdSwap m => Sys2Proof.Machine.execMateCmdSwap m s
  | .mateCmdClearFault m => Sys2Proof.Machine.execMateCmdClearFault m s
  | .mateCmdResync m => Sys2Proof.Machine.execMateCmdResync m s
  | .tableRestore addr readFails => Sys2Proof.Machine.execTableRestore addr readFails s
  | .trackerThreshold n => Sys2Proof.Machine.execTrackerThreshold n s
  | .trackerWriteback n => Sys2Proof.Machine.execTrackerWriteback n s
  | .trackerEntryFree n => Sys2Proof.Machine.execTrackerEntryFree n s
  | .testStepStart fails => Sys2Proof.Machine.execTestStepStart fails s
  | .testStepEnd => Sys2Proof.Machine.execTestStepEnd s
  | .eccTestNow m => Sys2Proof.Machine.execEccTestNow m s
  | .scrubStart m cmd => Sys2Proof.Machine.execScrubStart m cmd s
  | .scrubAbort m => Sys2Proof.Machine.execScrubAbort m s
  | .scrubPassEnd => Sys2Proof.Machine.execScrubPassEnd s
  | .fuseBurn m entry => Sys2Proof.Machine.execFuseBurn m entry s
  | .fuseBurnDone readBack => Sys2Proof.Machine.execFuseBurnDone readBack s
  | .hbmRepairGo m cand => Sys2Proof.Machine.execHbmRepairGo m cand s
  | .hbmRepairDone res => Sys2Proof.Machine.execHbmRepairDone res s
  | .hbmEcsRead counts => Sys2Proof.Machine.execHbmEcsRead counts s
  | .eccUeClear m => Sys2Proof.Machine.execEccUeClear m s
  | .eccHardClear m => Sys2Proof.Machine.execEccHardClear m s
  | .eccTestFailClear m => Sys2Proof.Machine.execEccTestFailClear m s
  | .eccTrackFullClear m => Sys2Proof.Machine.execEccTrackFullClear m s
  | .trimLostClear m => Sys2Proof.Machine.execTrimLostClear m s
  | .hostLinkUp p => Sys2Proof.Machine.execHostLinkUp p s
  | .hostRead p bar2 off len cyc busy => Sys2Proof.Machine.execHostRead p bar2 off len cyc busy s
  | .hostWrite p bar2 off data cyc busy => Sys2Proof.Machine.execHostWrite p bar2 off data cyc busy s
  | .busGrant t cyc waited => Sys2Proof.Machine.execBusGrant t cyc waited s
  | .busErrLastRead m of => Sys2Proof.Machine.execBusErrLastRead m of s
  | .atomicFetchadd p addr wide data => Sys2Proof.Machine.execAtomicFetchadd p addr wide data s
  | .atomicSwap p addr wide data => Sys2Proof.Machine.execAtomicSwap p addr wide data s
  | .atomicCas p addr wide cmp data => Sys2Proof.Machine.execAtomicCas p addr wide cmp data s
  | .doorbellSet m n w data => Sys2Proof.Machine.execDoorbellSet m n w data s
  | .doorbellClear m n w data => Sys2Proof.Machine.execDoorbellClear m n w data s
  | .doorbellFetchClear m n w => Sys2Proof.Machine.execDoorbellFetchClear m n w s
  | .doorbellAdd m n w data => Sys2Proof.Machine.execDoorbellAdd m n w data s
  | .scratchClaim m n => Sys2Proof.Machine.execScratchClaim m n s
  | .scratchRelease m n => Sys2Proof.Machine.execScratchRelease m n s
  | .scratchGive m n dest => Sys2Proof.Machine.execScratchGive m n dest s
  | .semTry m idx cyc => Sys2Proof.Machine.execSemTry m idx cyc s
  | .semRelease m idx => Sys2Proof.Machine.execSemRelease m idx s
  | .semArm m idx data cyc => Sys2Proof.Machine.execSemArm m idx data cyc s
  | .semForce m idx => Sys2Proof.Machine.execSemForce m idx s
  | .masterReset m linkDown => Sys2Proof.Machine.execMasterReset m linkDown s
  | .remapWrite m remap => Sys2Proof.Machine.execRemapWrite m remap s
  | .bootLoaderStart => Sys2Proof.Machine.execBootLoaderStart s
  | .sysBootRun m => Sys2Proof.Machine.execSysBootRun m s
  | .loadImage => Sys2Proof.Machine.execLoadImage s
  | .checkBoot => Sys2Proof.Machine.execCheckBoot s
  | .stageBoot => Sys2Proof.Machine.execStageBoot s
  | .activate => Sys2Proof.Machine.execActivate s
  | .checkRest => Sys2Proof.Machine.execCheckRest s
  | .bootStepWrite => Sys2Proof.Machine.execBootStepWrite s
  | .bootStepPoll => Sys2Proof.Machine.execBootStepPoll s
  | .bootStepWait => Sys2Proof.Machine.execBootStepWait s
  | .bootStepEnd => Sys2Proof.Machine.execBootStepEnd s
  | .funcEnable f => Sys2Proof.Machine.execFuncEnable f s
  | .funcDisable f => Sys2Proof.Machine.execFuncDisable f s
  | .funcStartDone f => Sys2Proof.Machine.execFuncStartDone f s
  | .funcStartFail f => Sys2Proof.Machine.execFuncStartFail f s
  | .funcStopDone f => Sys2Proof.Machine.execFuncStopDone f s
  | .nvmProgram m addr len => Sys2Proof.Machine.execNvmProgram m addr len s
  | .nvmErase m addr => Sys2Proof.Machine.execNvmErase m addr s
  | .nvmCmdDone res => Sys2Proof.Machine.execNvmCmdDone res s
  | .snapshotAuto => Sys2Proof.Machine.execSnapshotAuto s
  | .pmSnap m => Sys2Proof.Machine.execPmSnap m s
  | .snapshotArmedTick => Sys2Proof.Machine.execSnapshotArmedTick s
  | .snapshotWritten => Sys2Proof.Machine.execSnapshotWritten s
  | .bwWindowEnd => Sys2Proof.Machine.execBwWindowEnd s
  | .pmBwCfgWrite m window => Sys2Proof.Machine.execPmBwCfgWrite m window s
  | .pmSecondEnd => Sys2Proof.Machine.execPmSecondEnd s
  | .alarmLatchClear m a w bits => Sys2Proof.Machine.execAlarmLatchClear m a w bits s
  | .intSrcClear m p bits => Sys2Proof.Machine.execIntSrcClear m p bits s
  | .logHourly => Sys2Proof.Machine.execLogHourly s
  | .logFlush m => Sys2Proof.Machine.execLogFlush m s
  | .logStoreStart => Sys2Proof.Machine.execLogStoreStart s
  | .logStoreDone verified => Sys2Proof.Machine.execLogStoreDone verified s
  | .tempUpdate tj => Sys2Proof.Machine.execTempUpdate tj s
  | .jtagTapReset => Sys2Proof.Machine.execJtagTapReset s
  | .jtagInstruction idx => Sys2Proof.Machine.execJtagInstruction idx s
  | .registerWrite m addr value part => Sys2Proof.Machine.execRegisterWrite m addr value part s
  | .lossOfSignal l => Sys2Proof.Machine.execLossOfSignal l s
  | .tickStop => Sys2Proof.Machine.execTickStop s
  | .endOfP2 flashMiB => Sys2Proof.Machine.execEndOfP2 flashMiB s
  | .endOfP3 bist => Sys2Proof.Machine.execEndOfP3 bist s
  | .configurationRequest p req => Sys2Proof.Machine.execConfigurationRequest p req s
  | .sysTempRead m part => Sys2Proof.Machine.execSysTempRead m part s
  | .hbmTemperatureReport k hot => Sys2Proof.Machine.execHbmTemperatureReport k hot s

end Sys2Proof.Machine
end

