-- ==== Sys2Proof/WellFormed.lean ====
section
/-! DEFINITION. Which commands the outside world can give: the operands that are wider in Lean than the thing they stand for hold a value that thing
can have.  `exec` is total on all of them; nothing in it rests on these checks. -/

namespace Sys2Proof

open Machine

/-- A time within a tick in sixteenths of a core cycle (06 R123). -/
def inTick16 (t : Nat) : Bool := decide (t < 16 * cyclesPerTick)

/-- A core cycle of a tick (06 R123). -/
def inTick (c : Nat) : Bool := decide (c < cyclesPerTick)

/-- A frame as it can come in: overhead of one generation's lengths, payload words and bad positions within its payload, no more blocks than it
has (03 Table 03-2). -/
def RxFrame.wf (f : RxFrame) : Bool :=
  [1, 2, 3].any fun g =>
    decide (f.protect.length = genProt g) && decide (f.mgmt.length = genMgmt g) && decide (f.user.length = genUser g) &&
      f.payload.all (fun e => decide (e.1 < genP g)) && f.bad.all (fun j => decide (j < genP g)) &&
      decide (f.arrived ≤ genP g) && inTick16 f.t16

/-- What the outside world did in a tick: links, stacks, lanes, references and pages that the block has (02, 04 R93, 09 Table 09-2). -/
def TickEnv.wf (e : TickEnv) : Bool :=
  e.upsets.all (fun x => decide (x.2 < 89)) && e.stuck.all (fun x => decide (x.2.1 < 89)) && e.hbmBad.all (fun w => decide (w < 2 ^ 35)) &&
    e.hbmUe.all (fun x => decide (x.1 < 128) && decide (x.2 ≤ 16)) && e.readLate.all (fun x => decide (x.1 < 128) && decide (x.2 < 16)) &&
    e.signals.all (fun l => decide (l < 130)) && e.clocks.all (fun x => decide (x.1 < 33)) &&
    e.fill.all (fun x => decide (x.1 < 4)) && e.hbmCe.all (fun k => decide (k < 4)) && e.linkFreq.all (fun x => decide (8 ≤ x.1) && decide (x.1 < 12))

/-- A host request lies within its BAR (12 R308: BAR0 of 512 MiB, BAR2 of 4 GiB) and moves at least one byte. -/
def inBar (bar2 : Bool) (off len : Nat) : Bool :=
  decide (0 < len) && decide (off + len ≤ if bar2 then 2 ^ 32 else 2 ^ 29)

/-- The command's operands can occur. -/
def Instr.wf : Instr → Bool
  | .tickEdge e => e.wf
  | .rxFrameDeliver _ f => f.wf
  | .verdictForm _ next t16 => (decide (next.length = 0) || decide (next.length = 4)) && inTick16 t16
  | .blockLockLoss l | .faSyncLoss l | .lossOfSignal l => inTick16 l.t16
  | .quadFailure _ c => inTick16 c.t16
  | .libraryWrite _ _ off data => decide (0 < data.length) && decide (off + data.length ≤ 2 ^ 27)
  | .tableWindowWrite _ _ data cyc => decide (0 < data.length) && decide (data.length ≤ 512) && inTick cyc
  | .refEvent _ t16 _ => inTick16 t16
  | .mateHbEdge period => decide (period < 1024)
  | .hostRead _ bar2 off len cyc _ => inBar bar2 off len && inTick cyc
  | .hostWrite _ bar2 off data cyc _ => inBar bar2 off data.length && inTick cyc
  | .busGrant _ cyc _ => inTick cyc
  | .atomicFetchadd _ addr wide _ | .atomicSwap _ addr wide _ | .atomicCas _ addr wide _ _ => decide (addr % (if wide then 8 else 4) = 0)
  | .semTry _ _ cyc | .semArm _ _ _ cyc => inTick cyc
  | .hbmEcsRead counts => decide (counts.length = 4)
  | .eyeScanPoint _ mism => decide (mism < 2 ^ 32)
  | .registerWrite _ addr _ _ => decide (addr % 8 = 0)
  | .testStepStart fails => fails.all fun x => decide (x.2 < 89)
  | .pwrOkFall | .rstNFall | .rstNRise _ _ _ | .hbmInitDone _ _ | .supplyMonitorTrip | .txPllLock _ | .txFrameStart _ _ | .rxBlock _ _ _
  | .blockLockAcquire _ | .faSyncEntry _ | .lagDeadlineMiss _ _ | .clockLaneAcquire _
  | .deskewDone _ _ | .quadStateTimeout _ | .quadWaitEnd _ | .laneLoopSelect _ _ _ | .laneRestart _ _ | .prbsTxEnable _ _ _ | .prbsRxEnable _ _ _
  | .prbsCheckerLock _ | .prbsCheckerUnlock _ | .adaptDecision _ _ | .adaptRequestTimeout _ | .adaptSilenceTimeout _ | .adaptTrainTimeout _
  | .eyeScanStart _ _ | .eyeScanAbort _ _ | .mboxSend _ _ _ _ | .userSend _ _ _ _ | .neighbourChangedClear _ _ | .losExit _ | .lofEntry _ | .lofExit _
  | .blockTypeErrEntry _ | .blockTypeErrExit _ | .rdiEntry _ | .rdiExit _ | .discordEntry _ | .discordExit _ | .lagLateRaise _ | .lagLateClear _
  | .lagStampRangeRaise _ | .lagStampRangeClear _ | .lagMarginClear _ | .lagStackOff _ _ | .hbmTempTrip _ | .stackUeLoss _ | .stackFallbackEntry _
  | .evbMove | .lagStackRestore _ _ | .stackRestoreDone _ | .stackRestoreFail _ | .fallbackReleaseEnd _ | .lagLinkCfgWrite _ _ _
  | .lagArrExtremesRead _ _ _ | .protCmdClear _ _ | .protCmdManualP _ _ | .protCmdManualS _ _ | .protCmdForceP _ _ | .protCmdForceS _ _
  | .protCmdLockout _ _ | .protCfgWrite _ _ _ | .protSfEntry _ _ | .protSfExit _ _ | .protSdWindowEnd | .protWtrEnd _ | .protMisalignedRaise _
  | .protMisalignedClear _ | .protRxFreshExpire _ _ _ | .scheduleOverrunClear _ | .scheduleClashClear _ | .coreSlackRead _ _ | .almCheck _ _
  | .almCheckDone _ | .almStage _ _ | .almStageDone _ | .almArm _ | .almDisarm _ | .almRejoin _ | .epochCommit | .epochSwap | .epochSumSwap
  | .epochEmitSwap | .epochSwapComplete | .epochMissedClear _ | .trimGo _ _ _ _ | .trimApply | .tableWindowApply _ | .auditPassEnd
  | .almAuditCtrlWrite _ _ | .refEventMissing _ | .refQualify _ | .refWtrEnd _ | .timCmdClear _ | .timCmdForceRef _ _ | .timCmdForceHoldover _
  | .timCmdAdopt _ | .timDcoWrite _ _ _ | .holdoverSecondEnd | .dcoLimitClear | .exchangeStart _ | .probeReceive _ | .reportReceive _
  | .exchangeTimeout _ | .tickAdopt | .adoptWaitEnd | .mateFrameReceive | .mateRoleChange | .mateJoinWaitEnd | .mateHbLost | .mateHbLossClassify
  | .mateHbRegain | .mateLinkDownRaise | .mateLinkDownClear | .mirrorApply | .resyncRecordApply | .resyncSettled | .mateUnsettledTimeout
  | .mateDiscrepancyClear | .mateWatchExpire _ | .mateCmdSwap _ | .mateCmdClearFault _ | .mateCmdResync _ | .tableRestore _ _ | .trackerThreshold _
  | .trackerWriteback _ | .trackerEntryFree _ | .testStepEnd | .eccTestNow _ | .scrubStart _ _ | .scrubAbort _ | .scrubPassEnd | .fuseBurn _ _
  | .fuseBurnDone _ | .hbmRepairGo _ _ | .hbmRepairDone _ | .eccUeClear _ | .eccHardClear _ | .eccTestFailClear _ | .eccTrackFullClear _
  | .trimLostClear _ | .hostLinkUp _ | .busErrLastRead _ _ | .doorbellSet _ _ _ _ | .doorbellClear _ _ _ _ | .doorbellFetchClear _ _ _
  | .doorbellAdd _ _ _ _ | .scratchClaim _ _ | .scratchRelease _ _ | .scratchGive _ _ _ | .semRelease _ _ | .semForce _ _ | .masterReset _ _
  | .remapWrite _ _ | .bootLoaderStart | .sysBootRun _ | .loadImage | .checkBoot | .stageBoot | .activate | .checkRest | .bootStepWrite
  | .bootStepPoll | .bootStepWait | .bootStepEnd | .funcEnable _ | .funcDisable _ | .funcStartDone _ | .funcStartFail _ | .funcStopDone _
  | .nvmProgram _ _ _ | .nvmErase _ _ | .nvmCmdDone _ | .snapshotAuto | .pmSnap _ | .snapshotArmedTick | .snapshotWritten | .bwWindowEnd
  | .pmBwCfgWrite _ _ | .pmSecondEnd | .alarmLatchClear _ _ _ _ | .intSrcClear _ _ _ | .logHourly | .logFlush _ | .logStoreStart | .logStoreDone _
  | .tempUpdate _ | .jtagTapReset | .jtagInstruction _ | .tickStop | .endOfP2 _ | .endOfP3 _ | .configurationRequest _ _
  | .sysTempRead _ _ | .hbmTemperatureReport _ _ => true

end Sys2Proof
end

