-- ==== Sys2Proof/Safety.lean ====
section
/-! DEFINITION. What the statements are about: the canonical form of memory, what a command completes with, and which parts of the state a
command may touch. -/

namespace Sys2Proof.Machine

/-- The canonical form of a memory whose unlisted bytes read 0: addresses strictly rising, no entry 0. -/
def Memory.wf (m : Memory) : Bool := Tbl.wf 0 m

/-- The canonical form of the flash, whose unlisted bytes read 0xFF (13 R340). -/
def flashWf (t : Tbl Byte) : Bool := Tbl.wf 0xFF t

/-- Whether a control-bus address lies in a stack's share of the event buffer: 1,048,576 entries of 32 bytes (14 R369). -/
def inEvents (a : Nat) : Bool :=
  (List.range 4).any fun k => decide (stackBase k + 0x584000000 ≤ a) && decide (a < stackBase k + 0x584000000 + 32 * 1048576)

/-- The command `c` completes at `s` with a next state of which `Q` holds. -/
def Completes (c : Instr) (s : State) (Q : State → Prop) : Prop := ∃ t, exec c s = .next t ∧ Q t

/-- Whether an access of master `m` to target `t` is carried out: a path, none of its earlier accesses waiting, a target that answers (12 R312, R315; 13
R349). -/
def State.reaches (s : State) (m : Master) (t : Nat) (write : Bool) : Bool := hasPath m t write && !s.masterWaits m && s.available t

/-- Whether scratch word `w` of bank `k` can be read without an error (12 R319, R322). -/
def State.scratchSound (s : State) (k w : Nat) : Bool :=
  s.available (1 + k) && !s.bankReadRefused k && (Tbl.get [] s.ecc.damage (eccAddr 6 k w)).isEmpty && (Tbl.get [] s.ecc.stuck (eccAddr 6 k w)).isEmpty

/-- Whether the boot loader runs and comes to a step `op`, whose bytes it has or can fetch without an error (13 R343; 12 R314). -/
def State.atStep (s : State) (op : Nat) : Bool :=
  s.bootRunning && !s.boot.activating && s.stepOp = op && !s.masterWaits .boot &&
    (s.boot.fetched || !s.flag F.sysCtrlRemap 0 || (List.range 3).all fun j => s.scratchSound 0 (3 * s.boot.step + j))

/-- The parts of the state beside the registers and the queue; HBM in two: the event buffers, and the rest. -/
inductive Comp
  | free | tick | quads | lanes | links | lag | prot | core | act | latch | irqs | log | pm | boot | nvm | jtag | mate | alm | ecc | tim | bus
  | events | hbm
  | dieId | factory | fieldMap | flashMiB | flash | stuck
  deriving DecidableEq, Repr

/-- What an operation may touch: parts and registers, as bit masks by their places in `Comp` and `Reg`. -/
structure Foot where
  comps : Nat
  regs : Nat
  deriving DecidableEq, Repr

/-- The footprint of the parts and registers named. -/
def Foot.of (cs : List Comp) (rs : List Reg) : Foot :=
  ⟨cs.foldl (fun n c => n ||| 1 <<< c.ctorIdx) 0, rs.foldl (fun n r => n ||| 1 <<< r.ctorIdx) 0⟩

/-- The footprint of these parts and every register. -/
def Foot.allRegs (cs : List Comp) : Foot := ⟨(Foot.of cs []).comps, 0xFFFFFFFFFFFFFFFFFFFFFFFFFFFFFFFFFFFFFFFFFFFFFFFFFFFFFFFFFFFFFFFFFFFFFFFF⟩

/-- Everything. -/
def Foot.all : Foot := ⟨0xFFFFFFFF, 0xFFFFFFFFFFFFFFFFFFFFFFFFFFFFFFFFFFFFFFFFFFFFFFFFFFFFFFFFFFFFFFFFFFFFFFFF⟩

/-- Whether a part, or a register, is in a footprint. -/
def Foot.hasComp (f : Foot) (c : Comp) : Bool := f.comps.testBit c.ctorIdx
def Foot.hasReg (f : Foot) (r : Reg) : Bool := f.regs.testBit r.ctorIdx

/-- Whether a footprint lies within another. -/
def Foot.le (f g : Foot) : Bool := f.comps ||| g.comps == g.comps && (f.regs ||| g.regs == g.regs)

/-- Two footprints together. -/
def Foot.plus (f g : Foot) : Foot := ⟨f.comps ||| g.comps, f.regs ||| g.regs⟩

/-- Clearing an alarm: LATCH stays (14 R365, 15 R387). -/
def Foot.alarmEnd : Foot :=
  .of [.act, .irqs, .log, .pm, .events, .bus] [.busStatus, .busGrants, .logState, .logEvbEntries, .logDropped, .logEvbLost, .logEntries, .sysIntSrc]

/-- Raising an alarm: ACT, LATCH, interrupts, the event log and recovery (14 R365, R368). -/
def Foot.alarm : Foot :=
  Foot.alarmEnd.plus (.of [.latch] [])

/-- A control-bus access: meters, grants, the answer and the error response (12 R311, R317). -/
def Foot.port : Foot :=
  .of [.irqs, .pm, .bus] [.busErrLast, .busErrResp, .busDefault, .busSplits, .busGrants, .sysIntSrc]

/-- A mirrored command handed to the mate instead (10 R265, R269). -/
def Foot.mirror : Foot :=
  .of [.mate] [.mateUnmirrored]

/-- The latched bandwidth meters (14 R359). -/
def Foot.meters : Foot :=
  .of [.pm] [.pmBwLast, .pmBwLinkIn, .pmBwLinkOut, .pmBwHostWr, .pmBwHostRd, .pmBwHostReq, .pmBwHbmWr, .pmBwHbmRd, .pmBwHbmPeak, .pmBwBusBeats,
    .pmBwBusWait]

/-- A read of a protected SRAM word that may be damaged (11 R284 to R289). -/
def Foot.sram : Foot :=
  Foot.alarm.plus (.of [.free, .tick, .ecc] [.almState, .almStageFail, .eccStatus, .eccLastUe, .eccTrack, .eccCorr, .eccUe, .eccPoison,
    .eccTrackFull])

/-- The loss of an HBM stack (04 R99). -/
def Foot.stackLost : Foot :=
  Foot.alarm.plus (.of [.links, .lag, .alm] [.lagState, .lagStackLoss, .almState, .almSlotStatus, .almStageFail, .hbmState])

/-- A frame's verdict and what is released and stored of it (03 R78, R79; 04). -/
def Foot.verdict : Foot :=
  Foot.alarm.plus (.of [.links, .lag, .hbm, .mate] [.linkState, .linkFramesGood, .linkFramesDoubtful, .linkFramesBad, .linkFramesAbsent,
    .linkPayCrcErr, .lagArrLast, .lagArrMax, .lagArrMin, .lagLinkState, .lagLate, .lagMarginLow, .mateFrameUnusable])

/-- A change of state of a quad with what its links lose (02 R22 to R29). -/
def Foot.quad : Foot :=
  Foot.verdict.plus (.of [.quads, .lanes, .tim] [.laneState, .laneTxfir, .lanePrbsCtrl, .laneScanStatus, .laneBringupTry, .linkOofEntry,
    .timRefState, .timRefDisq])

/-- From `s` to `t` nothing but the footprint `f` has changed: never the queue; no register and no part outside `f`; no byte of HBM outside the
event buffers unless `hbm` is in `f`, none within them unless `events` is; and the canonical forms of HBM and flash are kept. -/
structure Within (f : Foot) (s t : State) : Prop where
  pending : t.pending = s.pending
  word : ∀ r, f.hasReg r = false → ∀ i, t.word r i = s.word r i
  free : f.hasComp .free = false → t.free = s.free
  tick : f.hasComp .tick = false → t.tick = s.tick
  quads : f.hasComp .quads = false → t.quads = s.quads
  lanes : f.hasComp .lanes = false → t.lanes = s.lanes
  links : f.hasComp .links = false → t.links = s.links
  lag : f.hasComp .lag = false → t.lag = s.lag
  prot : f.hasComp .prot = false → t.prot = s.prot
  core : f.hasComp .core = false → t.core = s.core
  act : f.hasComp .act = false → t.act = s.act
  latch : f.hasComp .latch = false → t.latch = s.latch
  irqs : f.hasComp .irqs = false → t.irqs = s.irqs
  log : f.hasComp .log = false → t.log = s.log
  pm : f.hasComp .pm = false → t.pm = s.pm
  boot : f.hasComp .boot = false → t.boot = s.boot
  nvm : f.hasComp .nvm = false → t.nvm = s.nvm
  jtag : f.hasComp .jtag = false → t.jtag = s.jtag
  mate : f.hasComp .mate = false → t.mate = s.mate
  alm : f.hasComp .alm = false → t.alm = s.alm
  ecc : f.hasComp .ecc = false → t.ecc = s.ecc
  tim : f.hasComp .tim = false → t.tim = s.tim
  bus : f.hasComp .bus = false → t.bus = s.bus
  events : f.hasComp .events = false → ∀ a, inEvents a = true → memByte t.hbm a = memByte s.hbm a
  hbm : f.hasComp .hbm = false → ∀ a, inEvents a = false → memByte t.hbm a = memByte s.hbm a
  dieId : f.hasComp .dieId = false → t.nv.dieId = s.nv.dieId
  factory : f.hasComp .factory = false → t.nv.factory = s.nv.factory
  fieldMap : f.hasComp .fieldMap = false → t.nv.fieldMap = s.nv.fieldMap
  flashMiB : f.hasComp .flashMiB = false → t.nv.flashMiB = s.nv.flashMiB
  flash : f.hasComp .flash = false → t.nv.flash = s.nv.flash
  stuck : f.hasComp .stuck = false → t.nv.stuck = s.nv.stuck
  hbmWf : Memory.wf s.hbm = true → Memory.wf t.hbm = true
  flashWf : flashWf s.nv.flash = true → flashWf t.nv.flash = true

/-- LATCH bit of an instance (15 R387). -/
def State.latched (s : State) (a i : Nat) : Bool := (Tbl.get 0 s.latch a).getLsbD i

/-- What a command may touch when it completes. -/
def Instr.foot : Instr → Foot
  | .pwrOkFall => .allRegs [.free, .tick, .quads, .lanes, .links, .lag, .prot, .core, .act, .latch, .irqs, .log, .pm, .events, .hbm, .fieldMap,
      .flash, .boot, .nvm, .mate, .alm, .ecc, .tim, .bus]
  | .rstNFall => .allRegs [.free, .tick, .quads, .lanes, .links, .lag, .prot, .core, .act, .latch, .irqs, .log, .pm, .events, .hbm, .fieldMap,
      .flash, .boot, .nvm, .mate, .alm, .ecc, .tim, .bus]
  | .rstNRise .. => Foot.alarm.plus (.of [.boot, .mate] [.mateState, .sysBootStatus])
  | .hbmInitDone .. => Foot.stackLost.plus (.of [.boot] [.logEvbBase])
  | .supplyMonitorTrip => .of [.mate] []
  | .tickEdge .. => (Foot.quad.plus .sram).plus (.of [.prot, .core, .stuck] [.laneUpLoss, .lagState, .lagReadLate, .lagPageFail, .lagReleased,
      .lagMissing, .lagPageBad, .protGroupCmd, .protGroupState, .protSelP, .protSelS, .protSwitch, .protNoGood, .protBothAbsent, .protDiffer,
      .protCmdRefused, .coreStatus, .coreStationDis, .coreSlack, .coreTapData, .coreTapTick, .coreOverrunSlots, .coreClashReads, .corePostClash,
      .coreResvCtrl, .coreResvScrub, .coreResvTest, .coreResvAudit, .coreTicks, .almArmDis, .timState, .timTick, .timPhase, .timDco, .timHold,
      .timSwitches, .timHoldoverEntry, .timFreerunEntry, .timDisputes, .timDcoClamp, .mateState, .mateResync, .mateWatchLost, .mateResyncs,
      .eccTestStatus, .eccScrubStatus, .eccScrubSum, .eccScrubUe, .eccTestFail, .eccSumPoisonAll, .hbmCand, .hbmCe, .hbmUe, .busErrLast,
      .busErrResp, .busDefault, .sysFuncState, .sysFuncStarts, .pmLinkState, .pmGroupState, .pmMateState, .pmSnapshots, .pmSnapSkipped])
  | .txPllLock .. => .quad
  | .txFrameStart .. => Foot.sram.plus (.of [.lanes, .links, .tim] [.laneState, .laneTxfir, .laneAdaptStep, .laneAdaptReject, .linkState,
      .linkTxJust, .linkUserFwdDrop, .linkJustRange])
  | .rxBlock .. => .of [.links] [.lanePrbsErr, .lanePrbsBits, .linkState, .linkHdrErr, .linkTypeErr, .linkFmErr]
  | .blockLockAcquire .. => .quad
  | .blockLockLoss .. => Foot.quad.plus (.of [] [.laneUpLoss, .linkLolEntry])
  | .faSyncEntry .. => .quad
  | .faSyncLoss .. => Foot.verdict.plus (.of [.lanes, .tim] [.laneState, .linkOofEntry, .timRefState, .timRefDisq])
  | .rxFrameDeliver .. => Foot.verdict.plus (.of [.lanes, .prot, .alm, .tim] [.laneTxfir, .laneAdaptMsgErr, .linkRxTick, .linkRxJust,
      .linkIdentRxSetid, .linkIdentRxDieid, .linkIdentRxInfo, .linkIdentRxArmed, .linkMboxCtrl, .linkUserCtrl, .linkOvhCrcErr, .linkJcCorrected,
      .linkTickJump, .linkTickSubst, .linkReiRx, .linkProtMsgErr, .linkMboxErr, .linkUserErr, .linkWiringEntry, .lagElasticOvf, .lagEarly,
      .lagRepeat, .protRxGroup, .protRxBridge, .protRxReserved, .protRxUnmatched, .almArmDis, .mateWatchLost])
  | .verdictForm .. => .verdict
  | .lagDeadlineMiss .. => .of [.links, .lag] [.lagLate]
  | .quadFailure .. => Foot.quad.plus (.of [] [.laneUpLoss, .linkLolEntry])
  | .clockLaneAcquire .. => .quad
  | .deskewDone .. => Foot.quad.plus (.of [] [.laneSkew])
  | .quadStateTimeout .. => Foot.quad.plus (.of [] [.laneBringupTimeout])
  | .quadWaitEnd .. => .quad
  | .laneLoopSelect .. => Foot.port.plus (.of [.quads, .lanes] [.laneCtrl])
  | .laneRestart .. => Foot.port.plus (.of [.quads] [])
  | .prbsTxEnable .. => Foot.port.plus (.of [.free, .lanes, .links] [.lanePrbsCtrl])
  | .prbsRxEnable .. => Foot.port.plus (.of [.quads, .lanes, .links] [.lanePrbsCtrl])
  | .prbsCheckerLock .. => .of [] [.lanePrbsCtrl]
  | .prbsCheckerUnlock .. => .of [] [.lanePrbsCtrl]
  | .adaptDecision .. => .of [.lanes] [.laneState, .laneAdaptFrozen]
  | .adaptRequestTimeout .. => Foot.alarm.plus (.of [.lanes] [.laneAdaptTimeout])
  | .adaptSilenceTimeout .. => .of [.lanes] [.laneState]
  | .adaptTrainTimeout .. => Foot.alarm.plus (.of [] [.laneState])
  | .eyeScanStart .. => Foot.port.plus (.of [.quads, .lanes] [.laneScanStatus])
  | .eyeScanAbort .. => Foot.port.plus (.of [] [.laneScanStatus])
  | .eyeScanPoint .. => .of [.quads] [.laneScanStatus]
  | .mboxSend .. => Foot.port.plus (.of [.links] [.linkMboxCtrl])
  | .userSend .. => Foot.port.plus (.of [.links] [.linkUserCtrl])
  | .neighbourChangedClear .. => (Foot.alarmEnd.plus .port).plus (.of [] [.linkState])
  | .losExit .. => .of [] [.linkState]
  | .lofEntry .. => Foot.alarm.plus (.of [] [.linkState, .linkLofEntry])
  | .lofExit .. => Foot.alarmEnd.plus (.of [] [.linkState])
  | .blockTypeErrEntry .. => Foot.alarm.plus (.of [] [.linkState])
  | .blockTypeErrExit .. => Foot.alarmEnd.plus (.of [] [.linkState])
  | .rdiEntry .. => Foot.alarm.plus (.of [] [.linkState])
  | .rdiExit .. => Foot.alarmEnd.plus (.of [.links] [.linkState])
  | .discordEntry .. => Foot.alarm.plus (.of [] [.linkState, .linkDiscordEntry])
  | .discordExit .. => Foot.alarmEnd.plus (.of [] [.linkState])
  | .lagLateRaise .. => Foot.alarm.plus (.of [] [.lagLinkState])
  | .lagLateClear .. => Foot.alarmEnd.plus (.of [.lag] [.lagLinkState])
  | .lagStampRangeRaise .. => Foot.alarm.plus (.of [] [.lagLinkState])
  | .lagStampRangeClear .. => Foot.alarmEnd.plus (.of [] [.lagLinkState])
  | .lagMarginClear .. => Foot.alarmEnd.plus (.of [] [.lagLinkState])
  | .lagStackOff .. => Foot.stackLost.plus .port
  | .hbmTempTrip .. => .stackLost
  | .stackUeLoss .. => Foot.stackLost.plus (.of [.tick] [])
  | .stackFallbackEntry .. => Foot.alarm.plus (.of [.links, .lag, .hbm] [.lagState, .lagLinkState])
  | .evbMove => Foot.alarm.plus (.of [] [.logEvbBase])
  | .lagStackRestore .. => Foot.port.plus (.of [.boot] [.lagState, .sysFuncState, .sysFuncStarts])
  | .stackRestoreDone .. => Foot.alarmEnd.plus (.of [.links, .lag, .hbm] [.lagState, .lagLinkState, .almSlotStatus, .hbmState])
  | .stackRestoreFail .. => .of [.lag] [.lagState]
  | .fallbackReleaseEnd .. => Foot.alarmEnd.plus (.of [.links, .lag] [.lagState, .lagLinkState])
  | .lagLinkCfgWrite .. => (Foot.port.plus .mirror).plus (.of [] [.lagLinkCfg])
  | .lagArrExtremesRead .. => Foot.port.plus (.of [] [.lagArrMax, .lagArrMin])
  | .protCmdClear .. => ((Foot.alarm.plus .port).plus .mirror).plus (.of [.prot] [.protGroupCmd, .protGroupState, .protCmdRefused])
  | .protCmdManualP .. => ((Foot.alarm.plus .port).plus .mirror).plus (.of [.prot] [.protGroupCmd, .protGroupState, .protCmdRefused])
  | .protCmdManualS .. => ((Foot.alarm.plus .port).plus .mirror).plus (.of [.prot] [.protGroupCmd, .protGroupState, .protCmdRefused])
  | .protCmdForceP .. => ((Foot.alarm.plus .port).plus .mirror).plus (.of [.prot] [.protGroupCmd, .protGroupState, .protCmdRefused])
  | .protCmdForceS .. => ((Foot.alarm.plus .port).plus .mirror).plus (.of [.prot] [.protGroupCmd, .protGroupState, .protCmdRefused])
  | .protCmdLockout .. => ((Foot.alarm.plus .port).plus .mirror).plus (.of [.prot] [.protGroupCmd, .protGroupState, .protCmdRefused])
  | .protCfgWrite .. => ((Foot.alarm.plus .port).plus .mirror).plus (.of [.prot] [.protGroupCfg, .protGroupCmd, .protGroupState, .protCmdRefused])
  | .protSfEntry .. => Foot.alarm.plus (.of [.tick, .prot] [.protGroupState])
  | .protSfExit .. => Foot.alarm.plus (.of [.tick, .prot] [.protGroupState])
  | .protSdWindowEnd => Foot.alarm.plus (.of [.tick, .prot] [.protGroupState])
  | .protWtrEnd .. => Foot.alarm.plus (.of [.tick, .prot] [.protGroupState])
  | .protMisalignedRaise .. => Foot.alarm.plus (.of [.tick] [.protGroupState])
  | .protMisalignedClear .. => Foot.alarmEnd.plus (.of [.tick] [.protGroupState])
  | .protRxFreshExpire .. => Foot.alarm.plus (.of [] [.protRxGroup, .protRxBridge])
  | .scheduleOverrunClear .. => Foot.port.plus (.of [.core] [.coreStatus])
  | .scheduleClashClear .. => Foot.port.plus (.of [.core] [.coreStatus])
  | .coreSlackRead .. => Foot.port.plus (.of [] [.coreSlack])
  | .libraryWrite .. => (Foot.alarm.plus .port).plus (.of [.free, .tick, .hbm, .ecc] [.almSlotStatus, .eccStatus, .hbmCand, .hbmUe])
  | .almCheck .. => (Foot.port.plus .mirror).plus (.of [.alm] [.almState, .almSlotCmd, .almSlotStatus])
  | .almCheckDone .. => Foot.alarm.plus (.of [.free, .tick, .alm, .ecc] [.almState, .almSlotStatus, .almCheckReject, .eccStatus, .hbmCand, .hbmUe])
  | .almStage .. => (Foot.port.plus .mirror).plus (.of [.alm] [.almState, .almSlotCmd, .almSlotStatus])
  | .almStageDone .. => Foot.alarm.plus (.of [.free, .tick, .core, .alm, .ecc] [.almState, .almStageFail, .eccStatus, .eccTrack, .hbmCand, .hbmUe])
  | .almArm .. => ((Foot.alarm.plus .port).plus .mirror).plus (.of [.alm] [.almState, .almArmCmd, .almArmed, .almArmDis])
  | .almDisarm .. => ((Foot.alarm.plus .port).plus .mirror).plus (.of [.alm] [.almState, .almArmCmd, .almArmed, .almArmDis])
  | .almRejoin .. => ((Foot.alarm.plus .port).plus .mirror).plus (.of [.alm] [.almState, .almArmCmd, .almArmed, .almArmDis])
  | .epochCommit => Foot.alarm.plus (.of [.alm] [.almState, .almArmed, .almTrimStatus, .almArmDis, .almEpochMissed])
  | .epochSwap => .allRegs [.quads, .lanes, .links, .lag, .prot, .core, .act, .latch, .irqs, .log, .pm, .events, .hbm, .mate, .alm, .ecc, .tim,
      .bus]
  | .epochSumSwap => .of [.core, .alm] [.coreSumCount]
  | .epochEmitSwap => Foot.alarm.plus (.of [.prot, .core, .alm] [.coreStationDis])
  | .epochSwapComplete => Foot.alarm.plus (.of [.boot, .mate, .alm] [.almState, .almArmed, .almArmDis, .almEpochs, .almStageFail, .sysBootStatus])
  | .epochMissedClear .. => (Foot.alarmEnd.plus .port).plus (.of [] [.almState])
  | .trimGo .. => (Foot.port.plus .mirror).plus (.of [.alm] [.almTrimCmd, .almTrimStatus])
  | .trimApply => Foot.sram.plus (.of [.core, .mate, .alm] [.coreResvMirror, .almTrimStatus, .almTrims])
  | .tableWindowWrite .. => ((Foot.sram.plus .port).plus .mirror).plus (.of [.core, .alm] [.busCollLast, .busCollisions])
  | .tableWindowApply .. => Foot.sram.plus (.of [.core, .alm] [.coreResvCtrl, .busErrLast, .busErrResp, .busDefault])
  | .auditPassEnd => Foot.sram.plus (.of [.alm] [.almAuditStatus, .almAuditPasses, .almAuditMismatch])
  | .almAuditCtrlWrite .. => (Foot.port.plus .mirror).plus (.of [.alm] [.almAuditCtrl])
  | .refEvent .. => Foot.alarm.plus (.of [.tim] [.timRefState, .timRefDisq])
  | .refEventMissing .. => Foot.alarm.plus (.of [.tim] [.timRefState, .timRefDisq])
  | .refQualify .. => Foot.alarmEnd.plus (.of [.tim] [.timRefState])
  | .refWtrEnd .. => .of [.tim] [.timRefState]
  | .timCmdClear .. => Foot.port.plus (.of [.tim] [])
  | .timCmdForceRef .. => Foot.port.plus (.of [.tim] [])
  | .timCmdForceHoldover .. => Foot.port.plus (.of [.tim] [])
  | .timCmdAdopt .. => Foot.port.plus (.of [.tim] [])
  | .timDcoWrite .. => Foot.port.plus (.of [.tim] [.timDco])
  | .holdoverSecondEnd => .of [.tim] []
  | .dcoLimitClear => .alarmEnd
  | .exchangeStart .. => .of [.tim] []
  | .probeReceive .. => .of [.tim] []
  | .reportReceive .. => Foot.alarm.plus (.of [.tim] [.timState, .timRefState, .timAdoptStatus, .timAdoptNum, .timExchOk, .timRefDisq])
  | .exchangeTimeout .. => Foot.alarm.plus (.of [.tim] [.timRefState, .timExchFail, .timRefDisq])
  | .tickAdopt => (Foot.alarmEnd.plus .meters).plus (.of [.prot, .tim] [.timState, .timTick, .pmLinkState, .pmGroupState, .pmMateState, .pmSeconds,
      .pmSecondsCut, .pmEs, .pmSes, .pmUas, .pmFeEs, .pmFeSes, .pmFeUas, .pmGroupEs, .pmGroupSes, .pmGroupUas, .pmMateEs, .pmMateSes, .pmMateUas])
  | .adoptWaitEnd => Foot.alarm.plus (.of [.tim] [.timState])
  | .mateFrameReceive => Foot.alarm.plus (.of [.mate] [.mateState, .mateCmpTicks, .mateCmpMismatch, .mateDiscrepancies, .mateMirrorGaps])
  | .mateRoleChange => Foot.alarm.plus (.of [.mate] [.mateState, .mateWatchLost, .matePromotions, .mateDemotions, .matePromoteUnsynced])
  | .mateJoinWaitEnd => Foot.alarm.plus (.of [.mate] [.mateState, .mateWatchLost, .matePromotions, .mateDemotions, .matePromoteUnsynced])
  | .mateHbEdge .. => .of [.mate] []
  | .mateHbLost => .of [.mate] [.mateState, .mateHbLoss]
  | .mateHbLossClassify => Foot.alarm.plus (.of [.mate] [.mateState, .mateWatchLost, .matePromotions, .mateDemotions, .matePromoteUnsynced])
  | .mateHbRegain => Foot.alarmEnd.plus (.of [.mate] [.mateState])
  | .mateLinkDownRaise => Foot.alarm.plus (.of [.mate] [.mateState, .mateLinkLoss])
  | .mateLinkDownClear => Foot.alarmEnd.plus (.of [] [.mateState])
  | .mirrorApply => .allRegs [.free, .tick, .quads, .lanes, .links, .lag, .prot, .core, .act, .latch, .irqs, .log, .pm, .events, .hbm, .boot, .mate,
      .alm, .ecc, .tim, .bus]
  | .resyncRecordApply => .allRegs [.free, .tick, .quads, .lanes, .links, .lag, .prot, .core, .act, .latch, .irqs, .log, .pm, .events, .hbm, .boot,
      .mate, .ecc, .tim, .bus]
  | .resyncSettled => Foot.alarmEnd.plus (.of [] [.mateState])
  | .mateUnsettledTimeout => .alarm
  | .mateDiscrepancyClear => .alarmEnd
  | .mateWatchExpire .. => Foot.alarm.plus (.of [] [.mateWatchLost])
  | .mateCmdSwap .. => ((Foot.alarm.plus .port).plus .mirror).plus (.of [] [.mateState, .mateCmd, .mateWatchLost, .matePromotions, .mateDemotions,
      .mateSwaps, .matePromoteUnsynced])
  | .mateCmdClearFault .. => ((Foot.alarm.plus .port).plus .mirror).plus (.of [] [.mateState, .mateCmd, .mateWatchLost, .matePromotions,
      .mateDemotions, .mateSwaps, .matePromoteUnsynced])
  | .mateCmdResync .. => ((Foot.alarm.plus .port).plus .mirror).plus (.of [] [.mateState, .mateCmd, .mateWatchLost, .matePromotions, .mateDemotions,
      .mateSwaps, .matePromoteUnsynced])
  | .tableRestore .. => Foot.sram.plus (.of [.core] [.eccRestores, .hbmCand, .hbmUe])
  | .trackerThreshold .. => .sram
  | .trackerWriteback .. => .of [.core, .ecc, .bus] [.eccTrack, .eccWritebacks]
  | .trackerEntryFree .. => .of [] [.eccTrack]
  | .testStepStart .. => Foot.alarm.plus (.of [.ecc] [.eccStatus, .eccTestStatus, .eccTrack, .eccTestFail])
  | .testStepEnd => .of [.ecc] [.eccTestStatus, .eccTestRegions]
  | .eccTestNow .. => Foot.port.plus (.of [.ecc] [])
  | .scrubStart .. => Foot.port.plus (.of [.ecc] [.eccScrubCmd, .eccScrubStatus, .eccScrubSum, .eccScrubUe])
  | .scrubAbort .. => Foot.port.plus (.of [.ecc] [.eccScrubStatus])
  | .scrubPassEnd => .of [.ecc] [.eccScrubStatus]
  | .fuseBurn .. => Foot.port.plus (.of [.ecc] [.eccFuseCmd, .eccFuseStatus])
  | .fuseBurnDone .. => .of [.log, .pm, .events, .fieldMap, .ecc, .bus] [.eccFuseStatus, .busGrants, .logState, .logEvbEntries, .logDropped,
      .logEvbLost, .logEntries, .sysIntSrc]
  | .hbmRepairGo .. => Foot.port.plus (.of [.ecc] [.hbmRepairCmd, .hbmRepairStatus])
  | .hbmRepairDone .. => .of [.log, .pm, .events, .ecc, .bus] [.hbmRepairStatus, .hbmCand, .busGrants, .logState, .logEvbEntries, .logDropped,
      .logEvbLost, .logEntries, .sysIntSrc]
  | .hbmEcsRead .. => .of [.ecc] [.hbmEcs]
  | .eccUeClear .. => (Foot.alarmEnd.plus .port).plus (.of [] [.eccStatus])
  | .eccHardClear .. => (Foot.alarmEnd.plus .port).plus (.of [] [.eccStatus])
  | .eccTestFailClear .. => (Foot.alarmEnd.plus .port).plus (.of [] [.eccStatus])
  | .eccTrackFullClear .. => (Foot.alarmEnd.plus .port).plus (.of [] [.eccStatus])
  | .trimLostClear .. => (Foot.alarmEnd.plus .port).plus (.of [] [.eccStatus])
  | .hostLinkUp .. => .of [.irqs] []
  | .hostRead .. => .allRegs [.free, .tick, .quads, .lanes, .links, .lag, .prot, .core, .act, .latch, .irqs, .log, .pm, .events, .hbm, .boot, .nvm,
      .mate, .alm, .ecc, .tim, .bus]
  | .hostWrite .. => .allRegs [.free, .tick, .quads, .lanes, .links, .lag, .prot, .core, .act, .latch, .irqs, .log, .pm, .events, .hbm, .boot, .nvm,
      .mate, .alm, .ecc, .tim, .bus]
  | .busGrant .. => .allRegs [.free, .tick, .quads, .lanes, .links, .lag, .prot, .core, .act, .latch, .irqs, .log, .pm, .events, .hbm, .boot, .nvm,
      .mate, .alm, .ecc, .tim, .bus]
  | .busErrLastRead .. => .port
  | .atomicFetchadd .. => Foot.sram.plus (.of [] [.busErrLast, .busDbPend, .busErrResp, .busDefault])
  | .atomicSwap .. => Foot.sram.plus (.of [] [.busErrLast, .busDbPend, .busErrResp, .busDefault])
  | .atomicCas .. => Foot.sram.plus (.of [] [.busErrLast, .busDbPend, .busErrResp, .busDefault])
  | .doorbellSet .. => (Foot.sram.plus .port).plus (.of [] [.busDbPend])
  | .doorbellClear .. => (Foot.sram.plus .port).plus (.of [] [.busDbPend])
  | .doorbellFetchClear .. => (Foot.sram.plus .port).plus (.of [] [.busDbPend])
  | .doorbellAdd .. => (Foot.sram.plus .port).plus (.of [] [.busDbPend])
  | .scratchClaim .. => Foot.port.plus (.of [] [.busScrOwn, .busDbPend])
  | .scratchRelease .. => Foot.port.plus (.of [] [.busScrOwn, .busDbPend])
  | .scratchGive .. => Foot.port.plus (.of [] [.busScrOwn, .busDbPend])
  | .semTry .. => Foot.port.plus (.of [.log, .events] [.busStatus, .busSemTaken, .logState, .logEvbEntries, .logDropped, .logEvbLost, .logEntries])
  | .semRelease .. => Foot.port.plus (.of [.log, .events] [.busStatus, .busSemForced, .logState, .logEvbEntries, .logDropped, .logEvbLost,
      .logEntries])
  | .semArm .. => Foot.port.plus (.of [.log, .events] [.busStatus, .busSemForced, .logState, .logEvbEntries, .logDropped, .logEvbLost, .logEntries])
  | .semForce .. => Foot.port.plus (.of [.log, .events] [.busStatus, .busSemForced, .logState, .logEvbEntries, .logDropped, .logEvbLost,
      .logEntries])
  | .masterReset .. => .of [.irqs, .log, .pm, .events, .alm, .bus] [.busStatus, .busScrOwn, .busResets, .busGrants, .logState, .logEvbEntries,
      .logDropped, .logEvbLost, .logEntries, .sysIntSrc]
  | .remapWrite .. => Foot.port.plus (.of [] [.sysCtrl])
  | .bootLoaderStart => .of [.boot] [.busScrOwn, .sysBootStatus]
  | .sysBootRun .. => Foot.port.plus (.of [.log, .events, .boot, .alm] [.busStatus, .busScrOwn, .busResets, .sysBootStatus, .logState,
      .logEvbEntries, .logDropped, .logEvbLost, .logEntries])
  | .loadImage => .allRegs [.free, .tick, .quads, .lanes, .links, .lag, .prot, .core, .act, .latch, .irqs, .log, .pm, .events, .hbm, .boot, .nvm,
      .mate, .alm, .ecc, .tim, .bus]
  | .checkBoot => .allRegs [.free, .tick, .quads, .lanes, .links, .lag, .prot, .core, .act, .latch, .irqs, .log, .pm, .events, .hbm, .boot, .nvm,
      .mate, .alm, .ecc, .tim, .bus]
  | .stageBoot => .allRegs [.free, .tick, .quads, .lanes, .links, .lag, .prot, .core, .act, .latch, .irqs, .log, .pm, .events, .hbm, .boot, .nvm,
      .mate, .alm, .ecc, .tim, .bus]
  | .activate => .allRegs [.free, .tick, .quads, .lanes, .links, .lag, .prot, .core, .act, .latch, .irqs, .log, .pm, .events, .hbm, .boot, .nvm,
      .mate, .alm, .ecc, .tim, .bus]
  | .checkRest => .allRegs [.free, .tick, .quads, .lanes, .links, .lag, .prot, .core, .act, .latch, .irqs, .log, .pm, .events, .hbm, .boot, .nvm,
      .mate, .alm, .ecc, .tim, .bus]
  | .bootStepWrite => .allRegs [.free, .tick, .quads, .lanes, .links, .lag, .prot, .core, .act, .latch, .irqs, .log, .pm, .events, .hbm, .boot,
      .nvm, .mate, .alm, .ecc, .tim, .bus]
  | .bootStepPoll => .allRegs [.free, .tick, .quads, .lanes, .links, .lag, .prot, .core, .act, .latch, .irqs, .log, .pm, .events, .hbm, .boot, .nvm,
      .mate, .alm, .ecc, .tim, .bus]
  | .bootStepWait => .allRegs [.free, .tick, .quads, .lanes, .links, .lag, .prot, .core, .act, .latch, .irqs, .log, .pm, .events, .hbm, .boot, .nvm,
      .mate, .alm, .ecc, .tim, .bus]
  | .bootStepEnd => .allRegs [.free, .tick, .quads, .lanes, .links, .lag, .prot, .core, .act, .latch, .irqs, .log, .pm, .events, .hbm, .boot, .nvm,
      .mate, .alm, .ecc, .tim, .bus]
  | .funcEnable .. => .of [.lag, .boot] [.lagState, .sysFuncState, .sysFuncStarts]
  | .funcDisable .. => .of [.boot, .alm] [.sysFuncState, .sysFuncStarts]
  | .funcStartDone .. => Foot.quad.plus (.of [.alm] [.sysFuncState, .sysFuncStarts])
  | .funcStartFail .. => .of [] [.sysFuncState, .sysFuncStarts]
  | .funcStopDone .. => .of [.lag] [.lagState, .sysFuncState, .sysFuncStarts]
  | .nvmProgram .. => Foot.port.plus (.of [.nvm] [.nvmCmd, .nvmStatus])
  | .nvmErase .. => Foot.port.plus (.of [.nvm] [.nvmCmd, .nvmStatus])
  | .nvmCmdDone .. => Foot.alarm.plus (.of [.free, .flash, .nvm] [.nvmStatus, .nvmPrograms, .nvmErases, .nvmVerifyFail])
  | .snapshotAuto => .of [.pm] [.pmSnapshots, .pmSnapSkipped]
  | .pmSnap .. => .port
  | .snapshotArmedTick => .of [.pm] [.pmCtrl, .pmSnapshots, .pmSnapSkipped]
  | .snapshotWritten => .of [.irqs, .pm, .events, .hbm] [.pmSnapStatus, .sysIntSrc]
  | .bwWindowEnd => Foot.meters.plus (.of [.irqs] [.sysIntSrc])
  | .pmBwCfgWrite .. => Foot.port.plus (.of [] [.pmBwCfg])
  | .pmSecondEnd => Foot.alarm.plus (.of [] [.pmLinkState, .pmGroupState, .pmMateState, .pmSeconds, .pmEs, .pmSes, .pmUas, .pmFeEs, .pmFeSes,
      .pmFeUas, .pmGroupEs, .pmGroupSes, .pmGroupUas, .pmMateEs, .pmMateSes, .pmMateUas])
  | .alarmLatchClear .. => Foot.port.plus (.of [.latch] [])
  | .intSrcClear .. => .port
  | .logHourly => .of [.log] []
  | .logFlush .. => Foot.port.plus (.of [.log] [])
  | .logStoreStart => .of [.log, .flash] [.nvmStatus, .logState]
  | .logStoreDone .. => Foot.alarm.plus (.of [.free, .flash] [.nvmStatus, .logStores, .logStoreFail])
  | .tempUpdate .. => Foot.alarm.plus (.of [.boot] [.sysTemp])
  | .jtagTapReset => .of [.jtag] []
  | .jtagInstruction .. => .of [.free, .jtag] []
  | .registerWrite .. => .allRegs [.free, .tick, .quads, .lanes, .links, .lag, .prot, .core, .act, .latch, .irqs, .log, .pm, .events, .hbm, .boot,
      .nvm, .mate, .alm, .ecc, .tim, .bus]
  | .lossOfSignal .. => Foot.quad.plus (.of [] [.laneUpLoss])
  | .tickStop => .of [.tick, .mate] []
  | .endOfP2 .. => Foot.alarm.plus (.of [.flashMiB, .boot] [.nvmInfo])
  | .endOfP3 .. => Foot.alarm.plus (.of [.free, .core, .boot, .mate, .ecc] [.coreStationDis, .eccFuseStatus, .eccSoft, .eccFuseBad, .eccSoftNospare,
      .sysBootStatus, .sysBistStatus])
  | .configurationRequest .. => .of [.irqs, .bus] []
  | .sysTempRead .. => Foot.port.plus (.of [.boot] [.sysTemp])
  | .hbmTemperatureReport .. => .stackLost

end Sys2Proof.Machine
end

