-- ==== Sys2Proof/Certificates/Slice0/Obligations.lean ====
section
/-! DEFINITION. The statements for the provers. -/

open Sys2Proof Sys2Proof.Machine

/-- For every command c, queue rest and state s whose queue is c followed by rest, the step of s is exec of c on s with its queue replaced by rest.
(What a step is comes from the file of steps; the queue is the model's form of it.) (95_what_each_step_holds.md) -/
def Obligations.FrontCommandRuns : Prop :=
  ∀ (c : Instr) (rest : List Instr) (s : State), s.pending = c :: rest → step s = exec c { s with pending := rest }

/-- A step of a state whose queue is empty answers that same state. The spec gives no command for an idle moment; that a step with nothing to do
changes nothing is the model's choice, log entry 2. (95_what_each_step_holds.md) -/
def Obligations.EmptyQueueIdles : Prop :=
  ∀ s : State, s.pending = [] → step s = .next s

/-- For every command c and states s and t, if exec c s = next t, then from s to t nothing changes but what the footprint of c names: every
register and every part of the state outside it reads as before, HBM outside the event buffers and within them byte by byte unless it names them,
the queue is untouched, and the canonical forms of HBM and of the flash are kept. Footprints are given command by command as the register names and
parts that the rules of the command write. (R8, R77, R92, R299, R340, R365, R369, R378) -/
def Obligations.EveryCommandKeepsToItsFootprint : Prop :=
  ∀ (c : Instr) (s t : State), exec c s = .next t → Within (Sys2Proof.Machine.Instr.foot c) s t

/-- For every state s, if the step of s answers next t, then the queue of t is the queue of s without its first command (and empty where it was
empty). (95_what_each_step_holds.md) -/
def Obligations.QueueIsFirstInFirstOut : Prop :=
  ∀ s t : State, step s = .next t → t.pending = s.pending.tail

/-- For every state whose HBM list and flash list have strictly rising addresses and list no byte equal to what an unlisted one reads as, a step
that answers a next state leaves both so. Hence equal memories are equal data in every run. The canonical form is the model's; the memories are the
spec's. (R91, R191, R322, R340) -/
def Obligations.MemoryKeepsItsCanonicalForm : Prop :=
  ∀ s t : State, Memory.wf s.hbm = true → flashWf s.nv.flash = true → step s = .next t →
    Memory.wf t.hbm = true ∧ flashWf t.nv.flash = true

/-- State.reset: every register holds its reset value; every alarm is clear; HBM lists nothing and is canonical; the queue is empty. Among the
registers, LINK_STATE reads LOS, LOL and OOF 1, RDI_TX 1 and LAST_VERDICT 3; LANE_STATE LOS reads 0xF; TIM_STATE SELECTED reads 0xF; CORE_STATUS
and every event counter read 0; PROT_GROUP_STATE reads both verdicts 3; ALM_STATE reads 0. (R336, R379, R365, R8) -/
def Obligations.ResetLeavesTheBlockEmpty : Prop :=
  (∀ r i, State.reset.word r i = r.reset) ∧ (∀ a i, State.reset.active a i = false ∧ State.reset.latched a i = false) ∧
    State.reset.hbm = [] ∧ Memory.wf State.reset.hbm = true ∧ flashWf State.reset.nv.flash = true ∧ State.reset.pending = [] ∧
    (∀ l < 128, State.reset.flag F.linkStateLos l = true ∧ State.reset.flag F.linkStateLol l = true ∧ State.reset.flag F.linkStateOof l = true ∧
      State.reset.flag F.linkStateRdiTx l = true ∧ State.reset.rd F.linkStateLastVerdict l = 3 ∧ State.reset.word .linkFramesGood l = 0) ∧
    (∀ q < 32, State.reset.rd F.laneStateLos q = 15) ∧ State.reset.rd F.timStateSelected 0 = 15 ∧ State.reset.word .coreStatus 0 = 0 ∧
    (∀ g < 64, State.reset.rd F.protGroupStatePVerdict g = 3 ∧ State.reset.rd F.protGroupStateSVerdict g = 3) ∧ State.reset.word .almState 0 = 0

/-- If a command completes and is none of PWR_OK_FALL, RST_N_FALL, NVM_CMD_DONE, LOG_STORE_START and LOG_STORE_DONE, every flash byte is as before
(a reset matters because an operation it cuts leaves what it touched open); the device's identifier and the factory fuse area are as before
whatever the command. (R340, R354, R355, R371, R299) -/
def Obligations.OnlyFiveCommandsChangeTheFlash : Prop :=
  ∀ (c : Instr) (s t : State), exec c s = .next t →
    t.nv.dieId = s.nv.dieId ∧ t.nv.factory = s.nv.factory ∧
    (c ≠ .pwrOkFall → c ≠ .rstNFall → (∀ r, c ≠ .nvmCmdDone r) → c ≠ .logStoreStart → (∀ b, c ≠ .logStoreDone b) → t.nv.flash = s.nv.flash)

/-- For every integer v and s >= 1, rhu(v / 2^s) is the integer q with q * 2^s <= v + 2^(s-1) < (q + 1) * 2^s, the floor toward minus infinity, so
that a half rounds upward and rhu(-5 / 2) = -2; sat24 and sat16 hold v between their limits as R155's min and max say. (R155) -/
def Obligations.RoundingAndSaturation : Prop :=
  (∀ (v : Int) (s : Nat), 1 ≤ s → rhu v s * 2 ^ s ≤ v + 2 ^ (s - 1) ∧ v + 2 ^ (s - 1) < (rhu v s + 1) * 2 ^ s) ∧ rhu (-5) 1 = -2 ∧
    ∀ v : Int, sat24 v = min (max v (-8388608)) 8388607 ∧ sat16 v = min (max v (-32768)) 32767

/-- Above K = 4,194,304 the soft limit of r is K + ((r - K) >> 2), below -K it is -(K + ((-r - K) >> 2)), between it is r; the 24-bit output
reaches full scale at |r| = 20,971,516 and at no smaller |r|; r = 12,000,000 gives 6,145,728, and without the limit the same r saturates to
8,388,607. (R163) -/
def Obligations.SoftLimitHasItsKnee : Prop :=
  (∀ r : Int, (4194304 < r → softLimit r = 4194304 + (r - 4194304) >>> 2) ∧
    (r < -4194304 → softLimit r = -(4194304 + (-r - 4194304) >>> 2)) ∧ (-4194304 ≤ r → r ≤ 4194304 → softLimit r = r) ∧
    (20971516 ≤ r ↔ 8388607 ≤ softLimit r) ∧ (r ≤ -20971516 ↔ softLimit r ≤ -8388607)) ∧
  softLimit 12000000 = 6145728 ∧ sat24 12000000 = 8388607 ∧
  ∀ (e : Nat) (r : Int), (entryLim e = true → stationSample e r = sat24 (softLimit r)) ∧ (entryLim e = false → stationSample e r = sat24 r)

/-- G(0) = 0. For c from 1 to 4095, G = G(c) is the integer with (2 G - 1)^400 * 10^3840 <= 2^8400 * 10^c (where G > 0) and 2^8400 * 10^c < (2 G +
1)^400 * 10^3840, which is to say that the real value lies in [G - 1/2, G + 1/2); G(c) is below 2^23; G never falls as c rises. (R156) -/
def Obligations.GainCodesRoundTheirValue : Prop :=
  gainOf 0 = 0 ∧
  (∀ c : Nat, 1 ≤ c → c ≤ 4095 → gainOf c < 2 ^ 23 ∧ 2 ^ 8400 * 10 ^ c < (2 * gainOf c + 1) ^ 400 * 10 ^ 3840 ∧
    (0 < gainOf c → (2 * gainOf c - 1) ^ 400 * 10 ^ 3840 ≤ 2 ^ 8400 * 10 ^ c)) ∧
  ∀ c d : Nat, c ≤ d → d ≤ 4095 → gainOf c ≤ gainOf d

/-- Let a sorus hold, in any order, the listener's own term (read as r) and any list of other terms. A MINUS entry with that term's SRC and SORUS,
OWNGAIN equal to the term's GAIN and TALKPASS the opposite of the term's GATE, whose own read is r and not FAULTED, gives the station value that a
SUM entry with the same GAIN, LIM and HOLDBAD gives over the sum of the other terms alone. Where the true sum of the others lies in the 56-bit
range, that sum is what both take. (R132, R157, R162, R164, R165, R166, R167) -/
def Obligations.MixMinusIsExact : Prop :=
  (∀ (own e e' : Nat) (r r' : SrcRead) (others all : List (Nat × SrcRead)),
    all.Perm ((own, r) :: others) → r ≠ .faulted →
    entryOp e = opMinus → entryOp e' = opSum → entryOwn e = termGain own → entryTalkpass e = !termGate own →
    entryGain e' = entryGain e → entryLim e' = entryLim e → entryHoldbad e' = entryHoldbad e →
    entryOut e r (some (all.map fun x => termValue x.1 x.2).sum) = entryOut e' r' (some (others.map fun x => termValue x.1 x.2).sum)) ∧
  ∀ vs : List Int, -(2 ^ 55) ≤ vs.sum → vs.sum < 2 ^ 55 → (vs.map (BitVec.ofInt 56)).sum.toInt = vs.sum

/-- Both reset commands complete in every state and clear everything but what eFuses and flash hold, the test port and the queue. (R336, R8, R77,
R92, R301) -/
def Obligations.ResetPinsClearTheBlock : Prop :=
  ∀ (c : Instr) (s : State), c = .pwrOkFall ∨ c = .rstNFall → Completes c s fun t =>
    (∀ r i, t.word r i = r.reset) ∧ (∀ a i, t.active a i = false ∧ t.latched a i = false) ∧ t.hbm = [] ∧
    t.boot = {} ∧ t.tick = {} ∧ t.core = {} ∧ t.lag = {} ∧ t.links = [] ∧ t.log = {} ∧ t.pm = {} ∧ t.mate = {} ∧ t.tim = {} ∧ t.ecc = {} ∧ t.bus = {} ∧
    t.pending = s.pending ∧ t.jtag = s.jtag ∧ t.nv.dieId = s.nv.dieId ∧ t.nv.factory = s.nv.factory ∧ t.nv.flashMiB = s.nv.flashMiB

/-- While reset has not risen, RST_N_RISE completes: SYS_BOOT_STATUS shows the sampled BOOT_MODE and IMAGE_SEL, MATE_STATE shows MATE_RANK, the
mode started is the one R337's table gives (a reserved value starts as HOSTED and raises BOOT_STRAP_INVALID). (R337, R243, R342) -/
def Obligations.StrapsAreSampledAtTheRiseOfReset : Prop :=
  ∀ (mode : BitVec 2) (sel rank : Bool) (s : State), s.boot.risen = false → Completes (.rstNRise mode sel rank) s fun t =>
    t.rd F.sysBootStatusMode 0 = mode.toNat ∧ t.flag F.sysBootStatusImageSel 0 = sel ∧ t.flag F.mateStateRank 0 = rank ∧
    t.boot = { s.boot with risen := true
                           mode := if mode = 0 then .autonomous else if mode = 2 then .test else .hosted } ∧
    t.mate.rank = rank ∧ (mode = 3 → t.active A.bootStrapInvalid 0 = true)

/-- After the rise of reset END_OF_P2 completes once: a flash of 64 to 256 MiB is shown by NVM_INFO with READY, any other result raises NVM_FAIL
and leaves the flash unreadable. After it END_OF_P3 completes once: outside TEST mode a result with a failed bank, sum unit or other logic makes
the device unusable, shows phase 5, raises DEVICE_UNUSABLE and idles the mate port; every other result leaves a device without stuck cells usable.
That sizes outside 64 to 256 MiB count as unreadable is the model's reading (log entry 54). (R338, R339, R340, R371) -/
def Obligations.PreludeStepsComplete : Prop :=
  (∀ (n : Nat) (s : State), s.boot.risen = true → s.boot.p2 = false → 64 ≤ n → n ≤ 256 → Completes (.endOfP2 (some n)) s fun t =>
    t.boot = { s.boot with p2 := true } ∧ t.rd F.nvmInfoSizeMib 0 = n ∧ t.flag F.nvmInfoReady 0 = true ∧ t.nv.flashMiB = some n) ∧
  (∀ (f : Option Nat) (s : State), s.boot.risen = true → s.boot.p2 = false → (∀ n, f = some n → n < 64 ∨ 256 < n) → Completes (.endOfP2 f) s fun t =>
    t.boot = { s.boot with p2 := true } ∧ t.nv.flashMiB = none ∧ t.active A.nvmFail 0 = true ∧ t.word .nvmInfo 0 = s.word .nvmInfo 0) ∧
  (∀ (b : BistResult) (s : State), s.boot.p2 = true → s.boot.p3 = false → s.boot.mode ≠ .test →
    (b.banks ≠ [] ∨ b.sumUnit = true ∨ b.otherLogic = true) → Completes (.endOfP3 b) s fun t =>
    t.boot = { s.boot with p3 := true, unusable := true } ∧ t.rd F.sysBootStatusPhase 0 = 5 ∧ t.active A.deviceUnusable 0 = true ∧
    t.mate.idle = true ∧ t.mate.hbStopped = true) ∧
  (∀ (b : BistResult) (s : State), s.boot.p2 = true → s.boot.p3 = false →
    (s.boot.mode = .test ∨ (s.nv.stuck = [] ∧ b.banks = [] ∧ b.sumUnit = false ∧ b.otherLogic = false)) → Completes (.endOfP3 b) s fun t =>
    t.boot = { s.boot with p3 := true } ∧ t.mate = s.mate)

/-- In every state both commands complete. The heartbeat output is stopped and the mate port idles; TICK_STOP also stops ticks. Nothing else
changes. (R245) -/
def Obligations.SupplyTripAndTickStopSilenceThePair : Prop :=
  ∀ s : State,
    Completes .supplyMonitorTrip s (fun t => t = { s with mate := { s.mate with hbStopped := true, idle := true } }) ∧
    Completes .tickStop s (fun t => t =
      { s with mate := { s.mate with hbStopped := true, idle := true }, tick := { s.tick with stopped := true } })

/-- An enable that is due sets ENABLE and starts a function that is OFF, counting the start; it makes one that stops PENDING. A disable that is due
clears ENABLE and stops one that is ON. A start that is done ends in ON, or in STOPPING where a stop was requested meanwhile; one that fails ends
in STOPPING with LAST_STOP 2; a stop that is done ends in OFF, or starts again where a start is PENDING. State codes: 0 OFF, 1 STARTING, 2 ON, 3
STOPPING. (R350, R351) -/
def Obligations.FunctionsFollowTheirStateMachine : Prop :=
  ∀ (f : FuncId) (s : State),
    (s.enableDue f = true → Completes (.funcEnable f) s fun t => t.flag F.sysFuncStateEnable f = true ∧
      (s.fstate f = 0 → t.fstate f = 1 ∧ t.word .sysFuncStarts f = s.word .sysFuncStarts f + 1) ∧
      (s.fstate f = 3 → t.flag F.sysFuncStatePending f = true ∧ t.fstate f = 3)) ∧
    (s.disableDue f = true → Completes (.funcDisable f) s fun t => t.flag F.sysFuncStateEnable f = false ∧
      (s.fstate f = 2 → t.fstate f = 3) ∧
      (s.fstate f = 1 → t.flag F.sysFuncStateStopReq f = true ∧ t.fstate f = 1)) ∧
    (s.startReady f = true → Completes (.funcStartDone f) s fun t =>
      t.fstate f = if s.flag F.sysFuncStateStopReq f then 3 else 2) ∧
    (s.fstate f = 1 → stackFunc f = none → Completes (.funcStartFail f) s fun t =>
      t.fstate f = 3 ∧ t.rd F.sysFuncStateLastStop f = 2) ∧
    (s.fstate f = 3 → f ≠ 37 → Completes (.funcStopDone f) s fun t =>
      t.fstate f = if s.flag F.sysFuncStatePending f then 1 else 0)

/-- TEMP_UPDATE shows the reading with VALID and raises TEMP_HIGH above the configured limit, clears it at the limit less 40 or below. A TAP reset
and IDCODE select the identification register with R397's word; BYPASS selects a one-bit register that holds 0; SAMPLE/PRELOAD selects the
boundary-scan register. (R385, R397) -/
def Obligations.SensorAndTestPortComplete : Prop :=
  ∀ s : State,
    (∀ tj : BitVec 16, Completes (.tempUpdate tj) s fun t => t.rd F.sysTempTj 0 = tj.toNat ∧ t.flag F.sysTempValid 0 = true ∧
      (s.rdS F.sysTempCfgLimit 0 < tj.toInt → t.active A.tempHigh 0 = true) ∧
      (tj.toInt ≤ s.rdS F.sysTempCfgLimit 0 - 40 → t.active A.tempHigh 0 = false) ∧
      (s.rdS F.sysTempCfgLimit 0 - 40 < tj.toInt → tj.toInt ≤ s.rdS F.sysTempCfgLimit 0 → t.active A.tempHigh 0 = s.active A.tempHigh 0)) ∧
    Completes .jtagTapReset s (fun t => t = { s with jtag := ⟨.idcode, 0x0412834F⟩ }) ∧
    Completes (.jtagInstruction .idcode) s (fun t => t = { s with jtag := ⟨.idcode, 0x0412834F⟩ }) ∧
    Completes (.jtagInstruction .bypass) s (fun t => t = { s with jtag := ⟨.bypass, 0⟩ }) ∧
    Completes (.jtagInstruction .samplePreload) s (fun t => t.jtag.instr = .samplePreload ∧ { t with jtag := s.jtag, free := s.free } = s)

/-- JTAG_INSTRUCTION with any other instruction of the test port ends in the fault undefinedUnderTest, in every state: R397 leaves what the device
does then undefined. The other three instructions complete (SensorAndTestPortComplete). (R397) -/
def Obligations.UndefinedTestInstructionStops : Prop :=
  ∀ s : State, exec (.jtagInstruction .other) s = .fault .undefinedUnderTest

/-- With QSTATE 0 OFF, 1 PLL, 2 CLKACQ, 3 DESKEW, 4 ALIGN, 5 UP, 6 TEST, 7 WAIT: in PLL the lock of the PLL leads to CLKACQ and shows PLL_LOCK; in
CLKACQ the clock lane leads to DESKEW and shows CLK_LOCK 1 and CLK_LOS 0; in DESKEW skews within 16 UI lead to TEST where a checker is enabled,
else to ALIGN, and show the skews; a bring-up state that has lasted its timeout leads to WAIT with DOWN_CAUSE 7 and counts BRINGUP_TIMEOUT; 4,800
ticks of WAIT lead to PLL. After each, QUAD_DOWN of the quad is ACTIVE exactly while the quad is used and its state is neither UP nor TEST. (R45,
R46, R47, R49, R26, R24) -/
def Obligations.QuadsFollowTheBringUpMachine : Prop :=
  ∀ (q : QuadId) (s : State),
    (s.qstate q = 1 → Completes (.txPllLock q) s fun t => t.qstate q = 2 ∧ t.flag F.laneStatePllLock q = true ∧
      t.active A.quadDown q = decide (s.rd F.laneStateGen q ≠ 0)) ∧
    (s.qstate q = 2 → Completes (.clockLaneAcquire q) s fun t => t.qstate q = 3 ∧ t.flag F.laneStateClkLock q = true ∧
      t.flag F.laneStateClkLos q = false ∧ t.active A.quadDown q = decide (s.rd F.laneStateGen q ≠ 0)) ∧
    (∀ k : Skews, s.qstate q = 3 → Skews.ok k q = true → Completes (.deskewDone q k) s fun t =>
      t.qstate q = (if s.rd F.lanePrbsCtrlRxEn q = 0 then 4 else 6) ∧ t.rd F.laneSkewSkew0 q = unsigned 16 k.s0 ∧ t.rd F.laneSkewSkew1 q = unsigned 16 k.s1 ∧
      t.active A.quadDown q = decide (s.rd F.laneStateGen q ≠ 0 ∧ s.rd F.lanePrbsCtrlRxEn q = 0)) ∧
    (∀ n : Nat, stateTimeout (s.qstate q) = some n → n ≤ (s.quad q).ticks → Completes (.quadStateTimeout q) s fun t =>
      t.qstate q = 7 ∧ t.rd F.laneStateDownCause q = 7 ∧ t.word .laneBringupTimeout q = s.word .laneBringupTimeout q + 1 ∧
      t.active A.quadDown q = decide (s.rd F.laneStateGen q ≠ 0)) ∧
    (s.qstate q = 7 → 4800 ≤ (s.quad q).ticks → Completes (.quadWaitEnd q) s fun t => t.qstate q = 1 ∧
      t.active A.quadDown q = decide (s.rd F.laneStateGen q ≠ 0))

/-- In UP and in TEST a loss of the PLL leads to PLL with DOWN_CAUSE 1; clock loss of signal (2), clock unlock (3), data loss of signal (4) and
skew out of range (6) lead to CLKACQ; a loss of block lock (5) does so in UP. UP_LOSS counts once and QUAD_DOWN is ACTIVE where the quad is used.
In TEST a loss of block lock changes nothing. (R48, R49) -/
def Obligations.QuadFailuresLeaveUp : Prop :=
  ∀ (q : QuadId) (c : FailCause) (t16 : Nat) (s : State),
    ((s.qstate q = 5 ∨ s.qstate q = 6 ∧ ∀ i, c ≠ .blockLock i) → Completes (.quadFailure q ⟨c, t16⟩) s fun t =>
      t.qstate q = (if c = .pllUnlock then 1 else 2) ∧
      t.rd F.laneStateDownCause q = (match c with
        | .pllUnlock => 1 | .clockLos => 2 | .clockUnlock => 3 | .dataLos _ => 4 | .blockLock _ => 5 | .skew _ => 6) ∧
      t.word .laneUpLoss q = s.word .laneUpLoss q + 1 ∧ t.active A.quadDown q = decide (s.rd F.laneStateGen q ≠ 0)) ∧
    (∀ i, s.qstate q = 6 → Completes (.quadFailure q ⟨.blockLock i, t16⟩) s fun t => t = s)

/-- For a master with a path to the registers at expert level: a loop selection stores LOOP and, only where the value changes, has the receive side
restart at the next tick edge; RESTART is noted for the next tick edge; PRBS_TX_ENABLE stores TX_EN; PRBS_RX_ENABLE stores RX_EN, keeps RX_LOCKED
only on lanes still enabled, and has TEST entered or left at the next edge. PRBS_CHECKER_LOCK shows the checker locked where it is enabled, its
quad in TEST and 64 error-free bits have come; PRBS_CHECKER_UNLOCK shows it unlocked where its lock has ended. (R38, R39, R43, R46, R47) -/
def Obligations.LaneCommandsTakeEffect : Prop :=
  ∀ (m : Master) (q : QuadId) (s : State), s.reaches m 18 true = true → s.expert m = true →
    (∀ loop : BitVec 2, Completes (.laneLoopSelect m q loop) s fun t => t.rd F.laneCtrlLoop q = loop.toNat ∧
      t.quad q = (if s.rd F.laneCtrlLoop q = loop.toNat then s.quad q else { s.quad q with reloop := true })) ∧
    Completes (.laneRestart m q) s (fun t => t.quad q = { s.quad q with restart := true }) ∧
    (∀ lanes : BitVec 4, Completes (.prbsTxEnable m q lanes) s fun t => t.rd F.lanePrbsCtrlTxEn q = lanes.toNat ∧
      t.rd F.lanePrbsCtrlRxEn q = s.rd F.lanePrbsCtrlRxEn q ∧ t.quad q = s.quad q) ∧
    (∀ lanes : BitVec 4, Completes (.prbsRxEnable m q lanes) s fun t => t.rd F.lanePrbsCtrlRxEn q = lanes.toNat ∧
      t.rd F.lanePrbsCtrlRxLocked q = s.rd F.lanePrbsCtrlRxLocked q &&& lanes.toNat ∧ t.rd F.lanePrbsCtrlTxEn q = s.rd F.lanePrbsCtrlTxEn q ∧
      t.quad q = { s.quad q with toTest := decide (lanes ≠ 0), leaveTest := decide (lanes = 0) }) ∧
    (∀ l : LinkId, s.laneBit F.lanePrbsCtrlRxEn l = true → s.qstate (quadOf l) = 6 → (s.rx l).prbs.locked = true →
      Completes (.prbsCheckerLock l) s fun t => t.laneBit F.lanePrbsCtrlRxLocked l = true) ∧
    (∀ l : LinkId, (s.rx l).prbs.locked = false → Completes (.prbsCheckerUnlock l) s fun t => t.laneBit F.lanePrbsCtrlRxLocked l = false)

/-- For a master with a path to the registers at expert level: START of a quad not UP shows ERR 3, of a grid out of its rules ERR 1, else it clears
the window and shows BUSY 1, DONE 0, ERR 0, POINTS 0; while a scan is busy it changes nothing of it. ABORT ends a busy scan with BUSY 0, DONE 1,
ERR 2 and keeps its results. A point of a busy scan is entry POINTS of the window, with the mismatch count held to 0xFFFF in its low half, and
POINTS rises by one; earlier entries stay; the last point ends the scan with DONE. (R40, R41, R42) -/
def Obligations.EyeScansRunPointByPoint : Prop :=
  ∀ (m : Master) (q : QuadId) (s : State), s.reaches m 18 true = true → s.expert m = true →
    (s.flag F.laneScanStatusBusy q = true → Completes (.eyeScanStart m q) s fun t => t.quad q = s.quad q ∧ t.word .laneScanStatus q = s.word .laneScanStatus q) ∧
    (s.flag F.laneScanStatusBusy q = false → s.qstate q ≠ 5 → Completes (.eyeScanStart m q) s fun t =>
      t.rd F.laneScanStatusErr q = 3 ∧ t.flag F.laneScanStatusBusy q = false ∧ t.quad q = s.quad q) ∧
    (s.flag F.laneScanStatusBusy q = false → s.qstate q = 5 → s.gridOk q = false → Completes (.eyeScanStart m q) s fun t =>
      t.rd F.laneScanStatusErr q = 1 ∧ t.flag F.laneScanStatusBusy q = false ∧ t.quad q = s.quad q) ∧
    (s.flag F.laneScanStatusBusy q = false → s.qstate q = 5 → s.gridOk q = true → Completes (.eyeScanStart m q) s fun t =>
      t.rd F.laneScanStatusErr q = 0 ∧ t.rd F.laneScanStatusPoints q = 0 ∧ t.flag F.laneScanStatusBusy q = true ∧
        t.flag F.laneScanStatusDone q = false ∧ t.quad q = { s.quad q with scanTaken := 0, scanOut := [] }) ∧
    (s.flag F.laneScanStatusBusy q = true → Completes (.eyeScanAbort m q) s fun t => t.flag F.laneScanStatusBusy q = false ∧
      t.flag F.laneScanStatusDone q = true ∧ t.rd F.laneScanStatusErr q = 2 ∧ t.quad q = s.quad q) ∧
    (s.flag F.laneScanStatusBusy q = false → Completes (.eyeScanAbort m q) s fun t => t.word .laneScanStatus q = s.word .laneScanStatus q ∧ t.quad q = s.quad q) ∧
    (∀ mism : Nat, s.flag F.laneScanStatusBusy q = true → (s.quad q).scanTaken < 2048 → Completes (.eyeScanPoint q mism) s fun t =>
      (t.quad q).scanTaken = (s.quad q).scanTaken + 1 ∧ t.rd F.laneScanStatusPoints q = (s.quad q).scanTaken + 1 ∧
      field (Tbl.get 0 (t.quad q).scanOut (s.quad q).scanTaken).toNat 0 16 = min mism 0xFFFF ∧
      (∀ j, j ≠ (s.quad q).scanTaken → Tbl.get 0 (t.quad q).scanOut j = Tbl.get 0 (s.quad q).scanOut j) ∧
      t.flag F.laneScanStatusBusy q = decide ((s.quad q).scanTaken + 1 <
        gridPoints (s.rdS F.laneScanGridHStart q) (s.rdS F.laneScanGridHEnd q) (s.rd F.laneScanGridHStep q) *
          gridPoints (s.rdS F.laneScanGridVStart q) (s.rdS F.laneScanGridVEnd q) (s.rd F.laneScanGridVStep q)))

/-- In UP, at the end of a decision interval: measurements that do not qualify freeze the lane and count ADAPT_FROZEN; qualifying ones with no
request outstanding send the step that h1 or p1 asks for with the next REQ_SEQ (POST before PRE), or hold where none is asked. An unanswered
request is withdrawn after 96 ticks with the next REQ_SEQ, counts ADAPT_TIMEOUT and raises the alarm. In TRAIN, 480 ticks of silence take the far
end as fixed and enter SERVICE; 24,000 ticks enter SERVICE and raise ADAPT_TIMEOUT. (R34, R35, R36, R37) -/
def Obligations.ReceiversJudgeTheirEqualisation : Prop :=
  ∀ (l : LinkId) (s : State),
    (∀ x : EqMeasure, s.qstate (quadOf l) = 5 → s.decisionTicks l ≤ (s.lane l).interval →
      ((s.lane l).unqualified = true ∨ x.density < 4000) → Completes (.adaptDecision l x) s fun t =>
        (t.lane l).frozen = true ∧ (t.lane l).interval = 0 ∧ (t.lane l).req = (s.lane l).req ∧ t.word .laneAdaptFrozen l = s.word .laneAdaptFrozen l + 1) ∧
    (∀ (x : EqMeasure) (r : FirReq), s.qstate (quadOf l) = 5 → s.decisionTicks l ≤ (s.lane l).interval →
      (s.lane l).unqualified = false → 4000 ≤ x.density → (s.lane l).waiting = false → (s.lane l).fixedFar = false → EqMeasure.step x = some r →
      Completes (.adaptDecision l x) s fun t => (t.lane l).req = r ∧ (t.lane l).waiting = true ∧ (t.lane l).reqSeq = nextSeq (s.lane l).reqSeq ∧
        (t.lane l).holds = 0 ∧ (t.lane l).frozen = false) ∧
    (∀ x : EqMeasure, s.qstate (quadOf l) = 5 → s.decisionTicks l ≤ (s.lane l).interval →
      (s.lane l).unqualified = false → 4000 ≤ x.density → (s.lane l).waiting = false → EqMeasure.step x = none →
      Completes (.adaptDecision l x) s fun t => (t.lane l).req = (s.lane l).req ∧ (t.lane l).reqSeq = (s.lane l).reqSeq ∧
        (t.lane l).holds = bump 8 (s.lane l).holds ∧ (t.lane l).frozen = false ∧
        t.laneBit F.laneStateTrained l = (s.laneBit F.laneStateTrained l || decide (7 ≤ (s.lane l).holds))) ∧
    ((s.lane l).waiting = true → 96 ≤ (s.lane l).waited → Completes (.adaptRequestTimeout l) s fun t =>
      (t.lane l).reqSeq = nextSeq (s.lane l).reqSeq ∧ (t.lane l).req = {} ∧ (t.lane l).waiting = false ∧
      t.word .laneAdaptTimeout l = s.word .laneAdaptTimeout l + 1 ∧ t.active A.adaptTimeout l = true) ∧
    (s.qstate (quadOf l) = 5 → s.laneBit F.laneStateTrained l = false → 480 ≤ (s.lane l).silence → Completes (.adaptSilenceTimeout l) s fun t =>
      (t.lane l).fixedFar = true ∧ (t.lane l).waiting = false ∧ t.laneBit F.laneStateTrained l = true ∧ t.act = s.act) ∧
    (s.qstate (quadOf l) = 5 → s.laneBit F.laneStateTrained l = false → 24000 ≤ (s.lane l).train → Completes (.adaptTrainTimeout l) s fun t =>
      t.laneBit F.laneStateTrained l = true ∧ t.active A.adaptTimeout l = true ∧ t.lane l = s.lane l)

/-- A stack that is not lost is lost by a failed initialisation, a temperature trip, a catastrophic temperature report, page failures that reach
UE_TICKS, and an OFF bit: its STACK_LOST bit is 1, its INIT_DONE bit 0, LAG_STACK_LOSS one more, its four library slots LOST, and (but for the
failed initialisation, which may also move the event buffer) the alarm LAG_STACK_LOST ACTIVE. A successful initialisation sets INIT_DONE. A trip of
a lost stack and a report that is not catastrophic change nothing. OFF bits leave lost exactly the stacks named and those lost before. (R99, R192,
R338, R400) -/
def Obligations.StackLossesAreMarked : Prop :=
  ∀ (k : StackId) (s : State),
    (s.boot.p3 = true → bit s.boot.p4 k = false → s.stackLost k = false → Completes (.hbmInitDone k false) s fun t =>
      t.stackLost k = true ∧ t.rdBit F.hbmStateInitDone 0 k = false ∧ t.word .lagStackLoss k = s.word .lagStackLoss k + 1) ∧
    (s.boot.p3 = true → bit s.boot.p4 k = false → Completes (.hbmInitDone k true) s fun t =>
      t.rdBit F.hbmStateInitDone 0 k = true ∧ t.stackLost k = s.stackLost k) ∧
    (∀ c : Instr, s.stackLost k = false → c = .hbmTempTrip k ∨ c = .hbmTemperatureReport k true ∨ (c = .stackUeLoss k ∧ s.ueLossDue k = true) →
      Completes c s fun t => t.stackLost k = true ∧ t.rdBit F.hbmStateInitDone 0 k = false ∧
        t.word .lagStackLoss k = s.word .lagStackLoss k + 1 ∧ t.active A.lagStackLost k = true ∧ ∀ i, i / 4 = k.val → t.slotState i = slotLost) ∧
    (s.stackLost k = true → Completes (.hbmTempTrip k) s fun t => t = s) ∧
    Completes (.hbmTemperatureReport k false) s (fun t => t = s) ∧
    (∀ (m : Master) (mask : BitVec 4), s.reaches m 18 true = true → s.expert m = true → Completes (.lagStackOff m mask) s fun t =>
      t.stackLost k = (s.stackLost k || mask.getLsbD k))

/-- RESTORE bits at expert level clear RESTORE_FAIL of the lost stacks named and change no stack that is not lost. While a stack is being restored,
success within 480 ticks shows RESTORING 0, STACK_LOST 0, INIT_DONE 1 and LAG_STACK_LOST not ACTIVE; failure shows RESTORING 0 and RESTORE_FAIL 1
and leaves it lost. In the first tick after a loss the fallback entry wipes the stack: outside the event buffers every byte of its share reads 0.
The fallback of a link ends once its last stored stamp has been released: no allotment is held, FALLBACK and NOPAGE are 0. EVB_MOVE changes nothing
where no move is due; where one is, a stack that is left becomes the buffer's share, with LOG_EVB_BASE at the count of entries written so far.
(R100, R101, R192, R351) -/
def Obligations.StacksAreRestored : Prop :=
  ∀ (k : StackId) (s : State),
    (∀ (m : Master) (mask : BitVec 4), s.reaches m 18 true = true → s.expert m = true → Completes (.lagStackRestore m mask) s fun t =>
      t.stackLost k = s.stackLost k ∧ t.rdBit F.lagStateRestoreFail 0 k = (s.rdBit F.lagStateRestoreFail 0 k && !(mask.getLsbD k && s.stackLost k))) ∧
    (s.rdBit F.lagStateRestoring 0 k = true → s.tick.n ≤ Tbl.get 0 s.lag.restoreTick k + 480 → Completes (.stackRestoreDone k) s fun t => t.rdBit F.lagStateRestoring 0 k = false ∧
      t.stackLost k = false ∧ t.rdBit F.hbmStateInitDone 0 k = true ∧ t.active A.lagStackLost k = false) ∧
    (s.rdBit F.lagStateRestoring 0 k = true → Completes (.stackRestoreFail k) s fun t => t.rdBit F.lagStateRestoring 0 k = false ∧
      t.rdBit F.lagStateRestoreFail 0 k = true ∧ t.stackLost k = s.stackLost k) ∧
    (s.stackLost k = true → Tbl.get 0 s.lag.lossTick k < s.tick.n → Tbl.get false s.lag.fallbackDone k = false →
      Completes (.stackFallbackEntry k) s fun t => Tbl.get false t.lag.fallbackDone k = true ∧
        ∀ a, stackBase k ≤ a → a < stackBase k + 0x600000000 → inEvents a = false → memByte t.hbm a = 0) ∧
    (∀ (l : IngressId) (b : Fallback) (e : Nat), (s.lagLink l).fb = some b → b.last = some e → e + b.lag < s.tick.n →
      Completes (.fallbackReleaseEnd l) s fun t => (t.lagLink l).fb = none ∧ t.flag F.lagLinkStateFallback l = false ∧
        t.flag F.lagLinkStateNopage l = false ∧ t.active A.lagFallback l = false ∧ t.active A.lagFallbackNopage l = false) ∧
    (s.log.move = false → Completes .evbMove s fun t => t = s) ∧
    (s.log.move = true → s.evbStack = some k.val → Completes .evbMove s fun t => t.word .logEvbBase 0 = s.word .logEvbEntries 0)

/-- A frame still being written at its deadline is marked missed and incomplete and counts LAG_LATE. Three late stamps in a row set LATE and raise
LAG_LATE, 48 ticks on time clear them and the count of late stamps. 48 ticks of stamps out of range set STAMP_RANGE and raise LAG_STAMP_RANGE, 48
frames written and released clear them. 48,000 ticks with margin clear MARGIN and LAG_MARGIN. (R87, R88, R89, R90) -/
def Obligations.LateFramesAreReported : Prop :=
  ∀ (l : IngressId) (s : State),
    (∀ (f : RxFrameH) (g : LagTarget), (s.rx l).frame = some f → s.lagTarget l (s.localTick f.stamp.toNat) = some g → f.taken = .written →
      f.missed = false → s.localTick f.stamp.toNat + g.lag ≤ s.tick.n + 1 → Completes (.lagDeadlineMiss l f.stamp) s fun t =>
        (t.rx l).frame = some { f with missed := true } ∧ t.word .lagLate l = s.word .lagLate l + 1) ∧
    (3 ≤ (s.lagLink l).lateStamps → Completes (.lagLateRaise l) s fun t => t.flag F.lagLinkStateLate l = true ∧ t.active A.lagLate l = true) ∧
    (48 ≤ (s.lagLink l).onTimeRun → Completes (.lagLateClear l) s fun t => t.flag F.lagLinkStateLate l = false ∧ t.active A.lagLate l = false ∧
      (t.lagLink l).lateStamps = 0) ∧
    (48 ≤ (s.lagLink l).rangeRun → Completes (.lagStampRangeRaise l) s fun t => t.flag F.lagLinkStateStampRange l = true ∧
      t.active A.lagStampRange l = true) ∧
    (48 ≤ (s.lagLink l).okRun → Completes (.lagStampRangeClear l) s fun t => t.flag F.lagLinkStateStampRange l = false ∧
      t.active A.lagStampRange l = false) ∧
    (48000 ≤ (s.lagLink l).marginRun → Completes (.lagMarginClear l) s fun t => t.flag F.lagLinkStateMargin l = false ∧
      t.active A.lagMargin l = false)

/-- At expert level a value within the rules of LAG_LINK_CFG is stored (in a unit that is not joined to a mate), one outside them is refused with
an error response and changes nothing of the register. A read of the arrival extremes answers the stored word, least significant byte first, and
leaves the register 0. (R86, R97, R98, R265, R332) -/
def Obligations.LagConfigurationIsWrittenAndExtremesRead : Prop :=
  ∀ (m : Master) (l : IngressId) (s : State), s.reaches m 18 true = true →
    (∀ v : BitVec 64, s.expert m = true → s.joined = false → s.valueOk .lagLinkCfg l v.toNat = true → Completes (.lagLinkCfgWrite m l v) s fun t =>
      t.rd F.lagLinkCfgMode l = field v.toNat F.lagLinkCfgMode.lo F.lagLinkCfgMode.width ∧
      t.rd F.lagLinkCfgD l = field v.toNat F.lagLinkCfgD.lo F.lagLinkCfgD.width ∧
      t.rd F.lagLinkCfgFbLag l = field v.toNat F.lagLinkCfgFbLag.lo F.lagLinkCfgFbLag.width ∧
      t.rd F.lagLinkCfgMarginMin l = field v.toNat F.lagLinkCfgMarginMin.lo F.lagLinkCfgMarginMin.width) ∧
    (∀ (max : Bool), s.reaches m 18 false = true → Completes (.lagArrExtremesRead m l max) s fun t =>
      t.word (if max then .lagArrMax else .lagArrMin) l = 0 ∧
      Tbl.get {} t.bus.answers (masterNum m) = ⟨true, toBytes 8 (s.word (if max then .lagArrMax else .lagArrMin) l).toNat⟩)

/-- On a used link: loss of signal sets LOS in LINK_STATE and LANE_STATE and brings a quad in UP or TEST to CLKACQ with DOWN_CAUSE 4, 48 ticks of
signal clear LINK_STATE.LOS; 48 ticks out of frame set LOF outside TEST (counting LINK_LOF_ENTRY), 48 in SYNC clear it; three frames with block
type errors set BLOCK_TYPE_ERR, 48 clean ones clear it; three frames with RDI set RDI, three without clear it; two mismatches of identity set
DISCORD where KIND is 0 (counting LINK_DISCORD_ENTRY), two agreements clear it. Each alarm is ACTIVE with its defect and ends with it. (R72, R76,
R77) -/
def Obligations.LinkDefectsFollowTheirRuns : Prop :=
  ∀ (l : LinkId) (s : State),
    (s.used l = true → ∀ t16 : Nat, Completes (.lossOfSignal ⟨l, t16⟩) s fun t => t.flag F.linkStateLos l = true ∧
      t.laneBit F.laneStateLos l = true ∧ (s.qstate (quadOf l) = 5 ∨ s.qstate (quadOf l) = 6 →
        t.qstate (quadOf l) = 2 ∧ t.rd F.laneStateDownCause (quadOf l) = 4)) ∧
    (s.used l = true → s.laneBit F.laneStateLos l = false → (s.rx l).losClear + 48 ≤ s.tick.n + 1 →
      Completes (.losExit l) s fun t => t.flag F.linkStateLos l = false) ∧
    (s.used l = true → 48 ≤ (s.rx l).oofRun → s.qstate (quadOf l) ≠ 6 → s.flag F.linkStateLof l = false → Completes (.lofEntry l) s fun t =>
      t.flag F.linkStateLof l = true ∧ t.word .linkLofEntry l = s.word .linkLofEntry l + 1 ∧ t.active A.linkLof l = true) ∧
    (s.flag F.linkStateLof l = true → 48 ≤ (s.rx l).syncRun → Completes (.lofExit l) s fun t => t.flag F.linkStateLof l = false ∧
      t.active A.linkLof l = false) ∧
    (s.used l = true → 3 ≤ (s.rx l).typeErrRun → s.flag F.linkStateBlockTypeErr l = false → Completes (.blockTypeErrEntry l) s fun t =>
      t.flag F.linkStateBlockTypeErr l = true ∧ t.active A.blockTypeErr l = true) ∧
    (s.flag F.linkStateBlockTypeErr l = true → 48 ≤ (s.rx l).typeCleanRun → Completes (.blockTypeErrExit l) s fun t =>
      t.flag F.linkStateBlockTypeErr l = false ∧ t.active A.blockTypeErr l = false) ∧
    (s.used l = true → 3 ≤ (s.rx l).rdi1Run → s.flag F.linkStateRdi l = false → Completes (.rdiEntry l) s fun t =>
      t.flag F.linkStateRdi l = true ∧ t.active A.rdi l = true) ∧
    (s.flag F.linkStateRdi l = true → 3 ≤ (s.rx l).rdi0Run → Completes (.rdiExit l) s fun t => t.flag F.linkStateRdi l = false ∧
      t.active A.rdi l = false) ∧
    (s.used l = true → s.rd F.linkIdentRxInfoKind l = 0 → 2 ≤ (s.rx l).discRun → s.flag F.linkStateDiscord l = false → Completes (.discordEntry l) s fun t =>
      t.flag F.linkStateDiscord l = true ∧ t.word .linkDiscordEntry l = s.word .linkDiscordEntry l + 1 ∧ t.active A.discord l = true) ∧
    (s.flag F.linkStateDiscord l = true → 2 ≤ (s.rx l).agreeRun → Completes (.discordExit l) s fun t => t.flag F.linkStateDiscord l = false ∧
      t.active A.discord l = false)

/-- In ALIGN, UP and TEST, outside near-end loops: without block lock a valid header lengthens the run of valid headers, an invalid one ends it and
moves the candidate bit position by one (modulo 66); under lock an invalid header counts LINK_HDR_ERR. A run of 64 gives block lock and clears LOL
on a used link; in ALIGN, where that was the last thing missing, the quad reaches UP. 16 invalid headers in a window lose the lock: LOL set,
LINK_LOL_ENTRY counted, and in UP the quad falls to CLKACQ with DOWN_CAUSE 5. Three chained candidates enter SYNC with OOF cleared; four expected
positions without an exact FM leave it for HUNT, with OOF set and LINK_OOF_ENTRY counted. (R53, R68, R69, R48) -/
def Obligations.BlockLockAndAlignmentAreSought : Prop :=
  ∀ (l : LinkId) (t16 : Nat) (s : State),
    (∀ (hdr : BitVec 2) (line : BitVec 64), s.samples (quadOf l) = true → s.nearLoop l = false → Completes (.rxBlock l hdr line) s fun t =>
      (s.laneBit F.laneStateBlockLock l = false → validHdr hdr = true → (t.rx l).validRun = bump 64 (s.rx l).validRun ∧ (t.rx l).bitPos = (s.rx l).bitPos) ∧
      (s.laneBit F.laneStateBlockLock l = false → validHdr hdr = false → (t.rx l).validRun = 0 ∧ (t.rx l).bitPos = ((s.rx l).bitPos + 1) % 66) ∧
      (s.laneBit F.laneStateBlockLock l = true → t.word .linkHdrErr l = s.word .linkHdrErr l + (if validHdr hdr then 0 else 1))) ∧
    (s.samples (quadOf l) = true → s.laneBit F.laneStateBlockLock l = false → 64 ≤ (s.rx l).validRun → s.qstate (quadOf l) ≠ 4 →
      Completes (.blockLockAcquire l) s fun t => t.laneBit F.laneStateBlockLock l = true ∧ (s.used l = true → t.flag F.linkStateLol l = false)) ∧
    (s.qstate (quadOf l) = 4 → s.laneBit F.laneStateBlockLock l = false → 64 ≤ (s.rx l).validRun →
      (s.setLaneBit F.laneStateBlockLock l true).rd F.laneStateBlockLock (quadOf l) = 2 ^ lanesOf (quadOf l) - 1 →
      s.rd F.laneStateInFrame (quadOf l) = 2 ^ lanesOf (quadOf l) - 1 →
      Completes (.blockLockAcquire l) s fun t => t.qstate (quadOf l) = 5) ∧
    (s.laneBit F.laneStateBlockLock l = true → 16 ≤ (s.rx l).winBad → s.qstate (quadOf l) ≠ 5 → Completes (.blockLockLoss ⟨l, t16⟩) s fun t =>
      t.laneBit F.laneStateBlockLock l = false ∧ t.flag F.linkStateLol l = true ∧ t.word .linkLolEntry l = s.word .linkLolEntry l + 1) ∧
    (s.laneBit F.laneStateBlockLock l = true → 16 ≤ (s.rx l).winBad → s.qstate (quadOf l) = 5 → Completes (.blockLockLoss ⟨l, t16⟩) s fun t =>
      t.qstate (quadOf l) = 2 ∧ t.rd F.laneStateDownCause (quadOf l) = 5 ∧ t.word .linkLolEntry l = s.word .linkLolEntry l + 1) ∧
    (∀ c : FaCand, s.laneBit F.laneStateBlockLock l = true → s.inSync l = false → s.used l = true → chainOfThree (s.rx l).cands = some c →
      s.qstate (quadOf l) ≠ 4 → Completes (.faSyncEntry l) s fun t => t.inSync l = true ∧ t.flag F.linkStateOof l = false ∧
        t.laneBit F.laneStateInFrame l = true) ∧
    (s.inSync l = true → 4 ≤ (s.rx l).missedFm → Completes (.faSyncLoss ⟨l, t16⟩) s fun t => t.rd F.linkStateFaState l = 0 ∧ t.flag F.linkStateOof l = true ∧
      t.word .linkOofEntry l = s.word .linkOofEntry l + 1 ∧ t.laneBit F.laneStateInFrame l = false)

/-- On a used link in SYNC a delivered frame (in a near-end loop the one its own transmitter sends) becomes the frame being received, under the
stamp that LINK_RX_TICK shows with VALID, whole where every payload block of the link's generation arrived, and with its payload's PCRC. With a
frame being received, forming its verdict (in UP by Table 03-6 from the next frame's CHECK, otherwise ABSENT) leaves no frame being received, shows
the verdict in LAST_VERDICT and adds 1 to that verdict's counter alone of the four. With none, it changes nothing. NEIGHBOUR_CHANGED_CLEAR clears
the bit and its alarm. (R70, R71, R77) -/
def Obligations.LinkFramesAreReceivedAndJudged : Prop :=
  ∀ (l : LinkId) (s : State),
    (∀ f : RxFrame, s.inSync l = true → s.used l = true → Completes (.rxFrameDeliver l f) s fun t => ∃ fr : RxFrameH,
      (t.rx l).frame = some fr ∧ t.rd F.linkRxTickStamp l = fr.stamp.toNat ∧ t.flag F.linkRxTickValid l = true ∧
      fr.whole = decide (genP (t.gen l) ≤ (s.loopFrame l f).arrived) ∧
      fr.pcrc = crcOfWords (Tbl.get 0 (s.loopFrame l f).payload) 0 (genP (t.gen l))) ∧
    (∀ (next : List Block) (t16 : Nat) (fr : RxFrameH) (check : Option (Bool × Nat)) (v : Nat), (s.rx l).frame = some fr →
      check = (match next with
        | [b0, b1, b2, b3] => if isCtl b2 0xA5 then some (ocrcGood b0 b1 b2 b3, field b2.word.toNat 8 32) else none
        | _ => none) →
      v = (if s.qstate (quadOf l) = 5 then verdictOf fr.allValid fr.subst fr.pcrc check else 3) →
      Completes (.verdictForm l next t16) s fun t => (t.rx l).frame = none ∧ t.rd F.linkStateLastVerdict l = v ∧
        t.word .linkFramesGood l = s.word .linkFramesGood l + (if v = 0 then 1 else 0) ∧
        t.word .linkFramesDoubtful l = s.word .linkFramesDoubtful l + (if v = 1 then 1 else 0) ∧
        t.word .linkFramesBad l = s.word .linkFramesBad l + (if v = 2 then 1 else 0) ∧
        t.word .linkFramesAbsent l = s.word .linkFramesAbsent l + (if v = 3 then 1 else 0)) ∧
    (∀ (next : List Block) (t16 : Nat), (s.rx l).frame = none → Completes (.verdictForm l next t16) s fun t => t = s) ∧
    (∀ m : Master, s.reaches m 18 true = true → Completes (.neighbourChangedClear m l) s fun t =>
      t.flag F.linkStateNeighbourChanged l = false ∧ t.active A.neighbourChanged l = false)

/-- A transmitter whose PLL is locked, whose next frame is due and which may send frames sends one: stamped with the current tick number, its first
overhead word the FM of that number, with the payload blocks of the link's generation and, once it has sent its first frame and no STUFF since that
frame ended, the stuff count chosen one frame ahead, which LINK_TX_JUST.K shows. A control write of the MGMT mailbox with SEQ other than 0xFF and a
LEN within capacity stores both and waits for the next frame's copy; with another SEQ or LEN it changes neither. A control write of the user
channel does likewise with its own capacity. (R55, R57, R58, R65, R80, R234) -/
def Obligations.LinkFramesAreSent : Prop :=
  ∀ (l : LinkId) (s : State),
    (∀ b gap : Nat, (s.tx l).due = true → s.flag F.laneStatePllLock (quadOf l) = true → (s.tx l).next ≤ s.tick.n → s.noFrames l = false →
      Completes (.txFrameStart l ⟨b, gap⟩) s fun t => ∃ f : TxFrame, (t.tx l).sent = some f ∧ f.stamp = BitVec.ofNat 32 s.now ∧
        f.overhead.head? = some (fmWord s.now) ∧ f.payloadBlocks = genP (s.gen l) ∧ ((s.tx l).started = true → gap = 0 → f.stuff = (s.tx l).kNext) ∧
        t.rd F.linkTxJustK l = f.stuff % 2 ^ F.linkTxJustK.width) ∧
    (∀ (m : Master) (seq len : BitVec 8), s.reaches m 18 true = true →
      Completes (.mboxSend m l seq len) s (fun t =>
        (seq ≠ 0xFF → len.toNat ≤ capacity (genMgmt (s.gen l) - 1) → t.rd F.linkMboxCtrlTxSeq l = seq.toNat ∧ t.rd F.linkMboxCtrlTxLen l = len.toNat ∧
          (t.tx l).mboxWritten = true) ∧
        (seq = 0xFF ∨ capacity (genMgmt (s.gen l) - 1) < len.toNat → t.word .linkMboxCtrl l = s.word .linkMboxCtrl l ∧ t.tx l = s.tx l)) ∧
      Completes (.userSend m l seq len) s (fun t =>
        (len.toNat ≤ capacity (genUser (s.gen l)) → t.rd F.linkUserCtrlTxSeq l = seq.toNat ∧ t.rd F.linkUserCtrlTxLen l = len.toNat ∧
          (t.tx l).userWritten = true) ∧
        (capacity (genUser (s.gen l)) < len.toNat → t.word .linkUserCtrl l = s.word .linkUserCtrl l ∧ t.tx l = s.tx l)))

/-- For a group with EN in a unit that is not joined and no change of its links or EN pending, each of the six commands completes: CLEAR, and any
command whose priority (MANUAL 1, FORCE 2, LOCKOUT 3) is at least that of the command in force, is read back as CMD, LAST_RESULT reading ACCEPTED
(UNMIRRORED where the unit has a mate); any other leaves CMD, sets LAST_RESULT to REFUSED and adds 1 to PROT_CMD_REFUSED. Where such a change falls
at the next tick edge the command waits, CMD and LAST_RESULT staying. With EN 0 the write leaves CMD and LAST_RESULT. Which command governs
selection does not change. (R113, R114, R115) -/
def Obligations.GroupCommandsArePrioritised : Prop :=
  ∀ (m : Master) (g : GroupId) (s : State) (c : Instr) (n p : Nat), s.reaches m 18 true = true →
    (c, n, p) ∈ [(Instr.protCmdClear m g, 0, 3), (.protCmdManualP m g, 1, 1), (.protCmdManualS m g, 2, 1), (.protCmdForceP m g, 3, 2),
      (.protCmdForceS m g, 4, 2), (.protCmdLockout m g, 5, 3)] →
    (s.flag F.protGroupCfgEn g = true → s.joined = false → s.protChanged g = false → s.epochChanges g = false →
      Completes c s fun t => (t.group g).govern = (s.group g).govern ∧
        (cmdPriority (s.rd F.protGroupCmdCmd g) ≤ p → t.rd F.protGroupCmdCmd g = n ∧
          t.rd F.protGroupCmdLastResult g = (if s.flag F.mateCfgEn 0 then 4 else 1)) ∧
        (p < cmdPriority (s.rd F.protGroupCmdCmd g) → t.rd F.protGroupCmdCmd g = s.rd F.protGroupCmdCmd g ∧
          t.rd F.protGroupCmdLastResult g = 2 ∧ t.word .protCmdRefused g = s.word .protCmdRefused g + 1)) ∧
    (s.flag F.protGroupCfgEn g = true → s.joined = false → (s.protChanged g || s.epochChanges g) = true → Completes c s fun t =>
      t.group g = { s.group g with waiting := (s.group g).waiting ++ [n] } ∧ t.word .protGroupCmd g = s.word .protGroupCmd g) ∧
    (s.flag F.protGroupCfgEn g = false → Completes c s fun t => t.word .protGroupCmd g = s.word .protGroupCmd g ∧ t.group g = s.group g)

/-- An allowed configuration is stored at expert level in a unit not joined, the links and EN in force staying until the next tick edge. A copy of
an enabled group enters SF when HOLDOFF + 1 bad ticks have run, and leaves it after 48 good ones, PROT_COPY_FAIL and PROT_BOTH_FAIL following both
copies' SF. At the end of an SD window a copy of an enabled group not in SF is in SD exactly if SD_THRESH is not 0 and its count reached the
window's threshold, one in SF is not, and the counts restart. WTR that has run its length stops with WTR_LEFT 0. 48 differing digests set
MISALIGNED and its alarm, 48 equal ones clear both. A leg without a message for 48 ticks loses FRESH, the other leg's entry staying. (R109, R110,
R111, R112, R120, R332) -/
def Obligations.GroupsFollowTheirRuns : Prop :=
  ∀ (g : GroupId) (s : State),
    (∀ (m : Master) (v : BitVec 64), s.reaches m 18 true = true → s.expert m = true → s.joined = false → s.valueOk .protGroupCfg g v.toNat = true →
      Completes (.protCfgWrite m g v) s fun t => t.rd F.protGroupCfgPLink g = field v.toNat 0 7 ∧ t.rd F.protGroupCfgSLink g = field v.toNat 8 7 ∧
        t.flag F.protGroupCfgEn g = bit v.toNat 16 ∧ (t.group g).pLink = (s.group g).pLink ∧ (t.group g).sLink = (s.group g).sLink ∧
        (t.group g).en = (s.group g).en) ∧
    (∀ c : Copy, s.sfEnters g c = true → Completes (.protSfEntry g c) s fun t =>
      (match c with | .primary => t.flag F.protGroupStatePSf g | .secondary => t.flag F.protGroupStateSSf g) = true ∧
      t.active A.protCopyFail g = (t.flag F.protGroupStatePSf g != t.flag F.protGroupStateSSf g) ∧
      t.active A.protBothFail g = (t.flag F.protGroupStatePSf g && t.flag F.protGroupStateSSf g)) ∧
    (∀ c : Copy, s.sfLeaves g c = true → Completes (.protSfExit g c) s fun t =>
      (match c with | .primary => t.flag F.protGroupStatePSf g | .secondary => t.flag F.protGroupStateSSf g) = false ∧
      t.active A.protCopyFail g = (t.flag F.protGroupStatePSf g != t.flag F.protGroupStateSSf g) ∧
      t.active A.protBothFail g = (t.flag F.protGroupStatePSf g && t.flag F.protGroupStateSSf g)) ∧
    (s.prot.sdEnded ≠ 0 → (s.group g).en = true → Completes .protSdWindowEnd s fun t => t.prot.sdEnded = 0 ∧
      t.flag F.protGroupStatePSd g = (!s.flag F.protGroupStatePSf g && decide (s.rd F.protGroupCfgSdThresh g ≠ 0) &&
        decide ((s.rd F.protGroupCfgSdThresh g * s.prot.sdEnded + 4799) / 4800 ≤ (s.group g).p.sdCount)) ∧
      t.flag F.protGroupStateSSd g = (!s.flag F.protGroupStateSSf g && decide (s.rd F.protGroupCfgSdThresh g ≠ 0) &&
        decide ((s.rd F.protGroupCfgSdThresh g * s.prot.sdEnded + 4799) / 4800 ≤ (s.group g).s.sdCount)) ∧
      (t.group g).p.sdCount = 0 ∧ (t.group g).s.sdCount = 0) ∧
    (s.flag F.protGroupStateWtrRun g = true → max 1 (s.rd F.protGroupCfgWtr g) * 480 ≤ (s.group g).wtrRan → Completes (.protWtrEnd g) s fun t =>
      t.flag F.protGroupStateWtrRun g = false ∧ t.rd F.protGroupStateWtrLeft g = 0) ∧
    ((s.group g).en = true → 48 ≤ (s.group g).differRun → Completes (.protMisalignedRaise g) s fun t =>
      t.flag F.protGroupStateMisaligned g = true ∧ t.active A.protMisaligned g = true) ∧
    (48 ≤ (s.group g).equalRun → Completes (.protMisalignedClear g) s fun t =>
      t.flag F.protGroupStateMisaligned g = false ∧ t.active A.protMisaligned g = false) ∧
    (∀ (bridge : Bool) (leg : Copy) (r : Reg) (k : Nat), r = (if bridge then Reg.protRxBridge else Reg.protRxGroup) →
      k = (match leg with | .primary => 0 | .secondary => 1) → bit (s.word r g).toNat (16 * k + 8) = true →
      Tbl.get 0 s.prot.rxTick (legKey bridge g k) + 48 ≤ s.tick.n → Completes (.protRxFreshExpire bridge g leg) s fun t =>
        bit (t.word r g).toNat (16 * k + 8) = false ∧ field (t.word r g).toNat (16 * (1 - k)) 16 = field (s.word r g).toNat (16 * (1 - k)) 16)

/-- For a master with a path to the registers: the overrun's clear leaves OVERRUN, OVR_STATION and OVR_SLOT 0, the clash's leaves CLASH and
POST_CLASH 0; each is noted with its tick, so that its alarm waits for a later tick without the condition, and no alarm changes at once. A read of
a station's CORE_SLACK answers the stored word, least significant byte first, and leaves it 0. (R141, R146, R332) -/
def Obligations.ScheduleAlarmsAndSlackAreCleared : Prop :=
  ∀ (m : Master) (s : State),
    (s.reaches m 18 true = true → Completes (.scheduleOverrunClear m) s fun t => t.flag F.coreStatusOverrun 0 = false ∧
      t.rd F.coreStatusOvrStation 0 = 0 ∧ t.rd F.coreStatusOvrSlot 0 = 0 ∧ t.core = { s.core with overrunClear := s.core.overrunClear ++ [s.tick.n] } ∧ t.act = s.act) ∧
    (s.reaches m 18 true = true → Completes (.scheduleClashClear m) s fun t => t.flag F.coreStatusClash 0 = false ∧
      t.flag F.coreStatusPostClash 0 = false ∧ t.core = { s.core with clashClear := s.core.clashClear ++ [s.tick.n] } ∧ t.act = s.act) ∧
    (∀ k : StationId, s.reaches m 18 false = true → Completes (.coreSlackRead m k) s fun t => t.word .coreSlack k = 0 ∧
      Tbl.get {} t.bus.answers (masterNum m) = ⟨true, toBytes 8 (s.word .coreSlack k).toNat⟩)

/-- Where no word of HBM reads bad, a write into a slot that R192 allows stores its bytes at the slot's base plus the offset and no other byte of
HBM, and leaves the slot EMPTY and WRITTEN with REASON and DETAIL 0; one that R192 refuses changes no byte of HBM and not the slot's status. A
CHECK that R193 allows, in a unit not joined, makes the slot CHECKING with CHECK_BUSY 1; a refused one leaves both. The end of a CHECK clears
CHECK_BUSY; a slot still CHECKING becomes ACCEPTED with REASON and DETAIL 0 where the library was read without error and no row of Table 08-6
fails, and REJECTED with the failing row in REASON and ALM_CHECK_REJECT one more otherwise. (R192, R193, R332) -/
def Obligations.LibrarySlotsAreWrittenAndChecked : Prop :=
  ∀ (m : Master) (i : SlotId) (s : State),
    (∀ (off : Nat) (data : List Byte), s.reaches m (21 + i / 4) true = true → s.ecc.hbmBad = [] →
      Completes (.libraryWrite m i off data) s fun t =>
        (∀ a, a < slotBase i + off ∨ slotBase i + off + data.length ≤ a → Tbl.get 0 t.hbm a = Tbl.get 0 s.hbm a) ∧
        (s.slotWriteRefused i = none → memRead t.hbm (slotBase i + off) data.length = data ∧ t.word .almSlotStatus i = 8) ∧
        (s.slotWriteRefused i ≠ none → t.hbm = s.hbm ∧ t.word .almSlotStatus i = s.word .almSlotStatus i)) ∧
    (s.reaches m 18 true = true → s.joined = false → Completes (.almCheck m i) s fun t =>
      (s.checkRefused i = false → t.slotState i = 1 ∧ t.flag F.almStateCheckBusy 0 = true ∧ t.alm.checking = some (i.val, s.tick.n)) ∧
      (s.checkRefused i = true → t.word .almSlotStatus i = s.word .almSlotStatus i ∧ t.word .almState 0 = s.word .almState 0 ∧ t.alm = s.alm)) ∧
    (∀ (n : Nat) (u : State), s.alm.checking = some (i.val, n) →
      u = ({ s with alm := { s.alm with checking := none } }).setFlag F.almStateCheckBusy 0 false → s.slotState i = 1 →
      Completes (.almCheckDone none) s (fun t => t.flag F.almStateCheckBusy 0 = false ∧ t.alm.checking = none ∧
        (u.loadCheck i = none → t.slotState i = 2 ∧ t.rd F.almSlotStatusReason i = 0 ∧ t.rd F.almSlotStatusDetail i = 0) ∧
        (∀ reason detail, u.loadCheck i = some (reason, detail) → t.slotState i = 3 ∧
          t.rd F.almSlotStatusReason i = reason % 2 ^ F.almSlotStatusReason.width ∧
          t.word .almCheckReject 0 = s.word .almCheckReject 0 + 1)) ∧
      ∀ ty : Nat, Completes (.almCheckDone (some ty)) s fun t => t.slotState i = 3 ∧ t.word .almCheckReject 0 = s.word .almCheckReject 0 + 1)

/-- In a unit not joined a STAGE that R194 allows shows SHADOW STAGING with the slot in SHADOW_SLOT; a refused one leaves ALM_STATE. A staging that
is not chained and ends with the library read without error, every section CRC and region digest matching, leaves SHADOW STAGED and the shadow emit
entries, sum terms, converter configuration and coefficients those of the slot's image; one that ends with a library read error leaves SHADOW
FAILED and ALM_STAGE_FAIL one more. With no staging under way its end changes nothing. (R194, R200, R202, R332) -/
def Obligations.AlmanacsAreStaged : Prop :=
  ∀ (m : Master) (i : SlotId) (s : State),
    (s.reaches m 18 true = true → s.joined = false → Completes (.almStage m i) s fun t =>
      (s.stageRefused i = false → t.shadow = 1 ∧ t.rd F.almStateShadowSlot 0 = i ∧ t.alm.staging = some s.tick.n ∧ t.estate = s.estate) ∧
      (s.stageRefused i = true → t.word .almState 0 = s.word .almState 0 ∧ t.alm = s.alm)) ∧
    (s.alm.staging.isSome = true → s.rd F.almStateShadowSlot 0 = i → Completes (.almStageDone true) s fun t =>
      t.shadow = 4 ∧ t.word .almStageFail 0 = s.word .almStageFail 0 + 1 ∧ t.alm.staging = none ∧ t.core = s.core) ∧
    (s.alm.staging.isSome = true → s.rd F.almStateShadowSlot 0 = i → s.alm.chain = false → s.checkSections i = none →
      s.checkDigests i (s.image i) = none → Completes (.almStageDone false) s fun t => t.shadow = 2 ∧ t.alm.staging = none ∧
        t.core.emitShadow = s.imageEmit i ∧ t.core.termShadow = s.imageTerms i ∧ t.core.upShadow = s.imageConv i ∧
        t.core.coefShadow = s.imageCoef i ∧ t.alm.shadow = s.image i ∧ t.core.emit = s.core.emit ∧ t.core.terms = s.core.terms) ∧
    (∀ readUe : Bool, s.alm.staging = none → Completes (.almStageDone readUe) s fun t => t = s)

/-- In a unit not joined, an ARM is accepted only for a STAGED shadow, with a lead of 4,801 to 2^30 ticks, and not while COMMITTED or SWAPPING;
accepted, ESTATE is ARMED with ALM_ARM.TICK and the staged EPOCH in ALM_ARMED, refused, ESTATE and ALM_ARMED stay. A DISARM in ARMED leaves IDLE
with nothing armed, elsewhere it is refused. A REJOIN that R203 allows arms T = t + 4,801, any other changes ESTATE and ALM_ARMED not at all. At
the commit point an armed epoch with a STAGED shadow whose source is ACCEPTED or LOST is COMMITTED and queued trims are discarded; otherwise it is
missed: IDLE, MISSED set, ALM_EPOCH_MISSED one more, EPOCH_MISSED ACTIVE. EPOCH_MISSED_CLEAR ends MISSED and its alarm. (R198, R199, R201, R203,
R270, R345) -/
def Obligations.ArmingIsJudged : Prop :=
  ∀ (m : Master) (s : State),
    (s.reaches m 18 true = true → s.joined = false →
      Completes (.almArm m) s (fun t => t.rd F.almArmCmdResult 0 = s.armResult false (s.rd F.almArmTick 0) ∧
        (t.rd F.almArmCmdResult 0 = 1 → s.shadow = 2 ∧ 4801 ≤ tdiff s.now (s.rd F.almArmTick 0) ∧ tdiff s.now (s.rd F.almArmTick 0) ≤ 2 ^ 30 ∧
          s.estate ≠ 2 ∧ s.estate ≠ 3 ∧ t.estate = 1 ∧ t.rd F.almArmedArmedTick 0 = s.rd F.almArmTick 0 ∧
          t.rd F.almArmedArmedEpoch 0 = s.alm.shadow.head.epoch.toNat) ∧
        (t.rd F.almArmCmdResult 0 ≠ 1 → t.estate = s.estate ∧ t.word .almArmed 0 = s.word .almArmed 0)) ∧
      Completes (.almDisarm m) s (fun t =>
        (s.estate = 1 → t.estate = 0 ∧ t.word .almArmed 0 = 0 ∧ t.rd F.almArmCmdResult 0 = 1) ∧
        (s.estate ≠ 1 → t.estate = s.estate ∧ t.word .almArmed 0 = s.word .almArmed 0 ∧ t.rd F.almArmCmdResult 0 = 8)) ∧
      Completes (.almRejoin m) s (fun t =>
        (s.rejoinOk false = true → t.estate = 1 ∧ t.rd F.almArmedArmedTick 0 = tadd s.now 4801 ∧ t.rd F.almArmCmdResult 0 = 1) ∧
        (s.rejoinOk false = false → t.estate = s.estate ∧ t.word .almArmed 0 = s.word .almArmed 0 ∧ t.rd F.almArmCmdResult 0 = 8))) ∧
    (s.estate = 1 → 0 ≤ tdiff (tadd (s.rd F.almArmedArmedTick 0) (-4800)) s.now → Completes .epochCommit s fun t =>
      (s.shadow = 2 → s.slotState (s.rd F.almStateShadowSlot 0) = 2 ∨ s.slotState (s.rd F.almStateShadowSlot 0) = 5 →
        t.estate = 2 ∧ t.alm.trims = []) ∧
      (s.shadow ≠ 2 ∨ (s.slotState (s.rd F.almStateShadowSlot 0) ≠ 2 ∧ s.slotState (s.rd F.almStateShadowSlot 0) ≠ 5) →
        t.estate = 0 ∧ t.flag F.almStateMissed 0 = true ∧ t.word .almEpochMissed 0 = s.word .almEpochMissed 0 + 1 ∧ t.active A.epochMissed 0 = true)) ∧
    (s.reaches m 18 true = true → Completes (.epochMissedClear m) s fun t => t.flag F.almStateMissed 0 = false ∧ t.active A.epochMissed 0 = false)

/-- At e of a COMMITTED epoch the shadow's almanac becomes the active one and the active one the shadow's, its SETID is shown in ALM_ACTIVE_SETID,
ACTIVE_SLOT is its source slot, ESTATE is SWAPPING and ALM_ARMED 0. From the tick after, the halves of the sum table change places; from the next,
the halves of the emit table do and the bridges in force are those of their registers; from the third, the swap is complete: ALM_EPOCHS one more,
MISSED 0, and, where no chained almanac follows, ESTATE IDLE with nothing armed and SHADOW STALE, or else ESTATE ARMED and CHAINED 1. Each step is
taken only in its place. (R125, R176, R181, R200, R202, R210, R117) -/
def Obligations.EpochsSwapInFourSteps : Prop :=
  ∀ (s : State),
    (s.estate = 2 → 0 ≤ tdiff (s.rd F.almArmedArmedTick 0) s.now → Completes .epochSwap s fun t => t.estate = 3 ∧ t.word .almArmed 0 = 0 ∧
      t.alm.active = s.alm.shadow ∧ t.alm.shadow = s.alm.active ∧ t.word .almActiveSetid 0 = s.alm.shadow.head.setid ∧
      t.rd F.almStateActiveSlot 0 = s.rd F.almStateShadowSlot 0 ∧ t.alm.swapTick = s.tick.n ∧ t.alm.swapStage = 0) ∧
    (s.estate = 3 → s.alm.swapStage = 0 → s.alm.swapTick + 1 ≤ s.tick.n → Completes .epochSumSwap s fun t => t.alm.swapStage = 1 ∧
      t.core.terms = s.core.termShadow ∧ t.core.termShadow = s.core.terms ∧ t.core.sumHalf = !s.core.sumHalf ∧ t.core.emit = s.core.emit ∧
      t.estate = 3) ∧
    (s.estate = 3 → s.alm.swapStage = 1 → s.alm.swapTick + 2 ≤ s.tick.n → Completes .epochEmitSwap s fun t => t.alm.swapStage = 2 ∧
      t.core.emit = s.core.emitShadow ∧ t.core.emitShadow = s.core.emit ∧ t.core.emitHalf = !s.core.emitHalf ∧ t.core.terms = s.core.terms ∧
      t.prot.bridges = s.bridgeWords ∧ t.estate = 3) ∧
    (s.estate = 3 → s.alm.swapStage = 2 → s.alm.swapTick + 3 ≤ s.tick.n → Completes .epochSwapComplete s fun t =>
      t.word .almEpochs 0 = s.word .almEpochs 0 + 1 ∧ t.flag F.almStateMissed 0 = false ∧
      (s.alm.follow = false → t.estate = 0 ∧ t.word .almArmed 0 = 0 ∧ t.shadow = 3) ∧
      (s.alm.follow = true → t.estate = 1 ∧ t.flag F.almStateChained 0 = true)) ∧
    (s.estate ≠ 3 ∨ s.alm.swapStage ≠ 0 ∨ s.tick.n < s.alm.swapTick + 1 → Completes .epochSumSwap s fun t => t = s) ∧
    (s.estate ≠ 3 ∨ s.alm.swapStage ≠ 1 ∨ s.tick.n < s.alm.swapTick + 2 → Completes .epochEmitSwap s fun t => t = s) ∧
    (s.estate ≠ 3 ∨ s.alm.swapStage ≠ 2 ∨ s.tick.n < s.alm.swapTick + 3 → Completes .epochSwapComplete s fun t => t = s)

/-- A GO written with room in the queue of 16 and no epoch COMMITTED or SWAPPING joins the queue, in a unit not joined for the tick after next;
with the queue full it changes neither queue nor ALM_TRIM_CMD; with an epoch COMMITTED or SWAPPING it leaves the queue and reports EPOCH_BUSY. The
trim at the head is taken once its tick has come, at most one in a tick: a member trim without a trim map reports NO_MAP and an output trim without
an active almanac NO_ENTRY, neither changing the tables; before its tick nothing changes. A pass of the audit that has run 269 ticks ends:
ALM_AUDIT_PASSES is one more and a new pass begins. A write of ALM_AUDIT_CTRL in a unit not joined stores EN, and EN 0 stops the audit. (R205,
R206, R207, R210) -/
def Obligations.TrimsWaitTheirTurn : Prop :=
  ∀ (m : Master) (s : State),
    (∀ (output : Bool) (index : BitVec 21) (gain : BitVec 12), s.reaches m 18 true = true → Completes (.trimGo m output index gain) s fun t =>
      (16 ≤ s.trimsWaiting → t.alm = s.alm ∧ t.word .almTrimCmd 0 = s.word .almTrimCmd 0) ∧
      (s.trimsWaiting < 16 → s.estate = 2 ∨ s.estate = 3 → t.alm = s.alm ∧ t.rd F.almTrimStatusResult 0 = 4) ∧
      (s.trimsWaiting < 16 → s.estate ≠ 2 → s.estate ≠ 3 → s.joined = false →
        t.alm = { s.alm with trims := s.alm.trims ++ [⟨output, index.toNat, gain.toNat, BitVec.ofNat 32 (tadd s.now 2)⟩] })) ∧
    (∀ (x : Trim) (rest : List Trim), s.alm.trims = x :: rest → s.ecc.restores = [] → s.ecc.restoredAt ≠ s.tick.n + 1 →
      s.alm.trimAt ≠ s.tick.n + 1 →
      (0 ≤ tdiff x.u.toNat s.now → Completes .trimApply s fun t => t.alm.trims = rest ∧ t.alm.trimAt = s.tick.n + 1 ∧
        (x.output = false → s.hasTrimMap = false → t.rd F.almTrimStatusResult 0 = 3 ∧ t.core = s.core) ∧
        (x.output = true → s.flag F.almStateActiveValid 0 = false → t.rd F.almTrimStatusResult 0 = 2 ∧ t.core = s.core)) ∧
      (tdiff x.u.toNat s.now < 0 → Completes .trimApply s fun t => t = s)) ∧
    (∀ n : Nat, s.alm.auditSince = some n → n + 269 ≤ s.tick.n → Completes .auditPassEnd s fun t =>
      t.word .almAuditPasses 0 = s.word .almAuditPasses 0 + 1 ∧ t.alm.auditSince = some s.tick.n) ∧
    (∀ en : Bool, s.reaches m 18 true = true → s.joined = false → Completes (.almAuditCtrlWrite m en) s fun t =>
      t.flag F.almAuditCtrlEn 0 = en ∧ (en = false → t.alm.auditSince = none))

/-- For a master with a path to the table window: a write below expert level, of a place that may not be written, that enables no byte of one, or
that would leave a reserved encoding, changes no table and queues nothing. In a unit not joined, a write of whole shadow words (with no staging
under way) is stored at once; a write of an active word waits with the words queued before it and changes no table. In a reserved cycle of the
control plane the waiting writes that the cycle takes, each the first of its bank, leave the queue and the others stay in order; in any other
reserved cycle nothing changes. (R196, R197, R266, R318, R331, R409) -/
def Obligations.TableWindowWritesAreJudged : Prop :=
  ∀ (m : Master) (addr cyc : Nat) (data : List (Option Byte)) (p : WinPlace) (off : Nat) (s : State), s.reaches m 19 true = true →
    winPlace addr = some (p, off) → off + data.length ≤ p.size →
    (s.expert m = false ∨ p.writable = false ∨ (p.enabled off data = 0 ∧ p.size ≠ 16) ∨
        (p.isShadow && s.shadow = shStaging) = false ∧ p.encodingOk (mergeBytes (s.winHeld p) p.base p.bytes off data) = false →
      Completes (.tableWindowWrite m addr data cyc) s fun t => t.core = s.core ∧ t.alm = s.alm) ∧
    (s.expert m = true → p.writable = true → p.enabled off data ≠ 0 → (p.isShadow && s.shadow = shStaging) = false →
      p.encodingOk (mergeBytes (s.winHeld p) p.base p.bytes off data) = true → s.joined = false →
      (p.isActive = true → Completes (.tableWindowWrite m addr data cyc) s fun t => t.core = s.core ∧
        t.alm = { s.alm with window := s.alm.window ++ [⟨m, addr, data, 0, 0⟩] }) ∧
      (p.isShadow = true → p.enabled off data = p.bytes → Completes (.tableWindowWrite m addr data cyc) s fun t =>
        t.core = (s.winPut p (mergeBytes (s.winHeld p) p.base p.bytes off data) 0 allBits).core ∧ t.alm = s.alm)) ∧
    (∀ (j : ReservedId) (took : List Nat),
      took = (s.mate.syncTook.filter fun x => x.1 = j.val && decide (s.mate.syncTick = s.tick.n + 1)).map (·.2 / 2 ^ 14) →
      (j.val % 8 = 1 ∨ j.val % 8 = 3 ∨ j.val % 8 = 5 → Completes (.tableWindowApply j) s fun t =>
        t.alm.window = (s.cycleTakes s.alm.window took).2) ∧
      (j.val % 8 ≠ 1 → j.val % 8 ≠ 3 → j.val % 8 ≠ 5 → Completes (.tableWindowApply j) s fun t => t = s))

/-- An event of a pin reference of types 1 to 3 gives it the phase sample -(g - 6 DELAY), reduced into a tick; one of types 1 to 5 adds its
measured frequency; of an unconfigured reference it changes nothing. A missing event of a qualified FREQ reference disqualifies it with cause 1 and
counts; of a pin event in its window nothing follows yet. A reference not qualified whose qualification is complete becomes qualified and its
REF_FAIL ends. WTR that has run for a reference that waits leaves it neither waiting nor RESTORING. (R218, R219, R220, R221, R241) -/
def Obligations.ReferencesQualifyAndFail : Prop :=
  ∀ (i : RefId) (s : State),
    (∀ (p : PinRefId) (t16 : Nat) (freq : Int),
      (s.refType p = 0 → Completes (.refEvent p t16 freq) s fun t => t = s) ∧
      (1 ≤ s.refType p → s.refType p ≤ 5 → Completes (.refEvent p t16 freq) s fun t => (t.ref p).freqs.head? = some (s.tick.n, freq) ∧
        (s.refType p ≤ 3 → (t.ref p).phase = some (wrapPhase (-((t16 : Int) - 6 * s.rdS F.timRefCfgDelay p)))))) ∧
    (s.refType i = 4 ∨ s.refType i = 5 → s.refQualified i = true → Completes (.refEventMissing i) s fun t =>
      t.refQualified i = false ∧ t.rd F.timRefStateDqCause i = 1 ∧ t.word .timRefDisq i = s.word .timRefDisq i + 1) ∧
    (s.refType i ≠ 4 → s.refType i ≠ 5 → s.refOverdue i = false → Completes (.refEventMissing i) s fun t => t = s) ∧
    (s.refQualified i = false → s.refDone i = true → Completes (.refQualify i) s fun t => t.refQualified i = true ∧
      t.active A.refFail i = false ∧ (t.ref i).fresh = false) ∧
    ((s.ref i).waiting = true → (s.ref i).restoreAt + 48000 * s.rd F.timCfgWtr 0 ≤ s.tick.n → Completes (.refWtrEnd i) s fun t =>
      (t.ref i).waiting = false ∧ t.flag F.timRefStateRestoring i = false)

/-- At expert level each command of TIM_CMD waits for the next tick edge behind those written before it, a FORCE_REF above 11 changing nothing; a
write of TIM_DCO stores HOST_LOCKED and, within 500,000,000 ppt, the OFFSET asked for where the host steers (MANUAL or FREERUN), and else changes
neither. DCO_LIMIT ends once 48,000 ticks have not clamped, and not before. A second that has ended joins the front of the history, which keeps
1,100. (R224, R226, R227, R229, R241, R332) -/
def Obligations.TimingCommandsAreTaken : Prop :=
  ∀ (m : Master) (s : State),
    (s.reaches m 18 true = true → s.expert m = true →
      Completes (.timCmdClear m) s (fun t => t.tim = { s.tim with cmd := s.tim.cmd ++ [(0, 0)] }) ∧
      (∀ ref : BitVec 4, Completes (.timCmdForceRef m ref) s fun t =>
        t.tim = (if ref.toNat ≤ 11 then { s.tim with cmd := s.tim.cmd ++ [(1, ref.toNat)] } else s.tim)) ∧
      Completes (.timCmdForceHoldover m) s (fun t => t.tim = { s.tim with cmd := s.tim.cmd ++ [(2, 0)] }) ∧
      Completes (.timCmdAdopt m) s (fun t => t.tim = { s.tim with cmd := s.tim.cmd ++ [(3, 0)] }) ∧
      (∀ (lock : Bool) (offset : BitVec 32),
        (offset.toInt.natAbs ≤ 500000000 → s.manual = true ∨ s.rd F.timStateTstate 0 = 0 → Completes (.timDcoWrite m lock offset) s fun t =>
          t.tim = { s.tim with target := offset.toInt } ∧ t.flag F.timDcoHostLocked 0 = lock ∧ t.rd F.timDcoOffset 0 = s.rd F.timDcoOffset 0) ∧
        (500000000 < offset.toInt.natAbs ∨ (s.manual = false ∧ s.rd F.timStateTstate 0 ≠ 0) → Completes (.timDcoWrite m lock offset) s fun t =>
          t.tim = s.tim ∧ t.word .timDco 0 = s.word .timDco 0))) ∧
    (48000 ≤ s.tim.unclamped → Completes .dcoLimitClear s fun t => t.active A.dcoLimit 0 = false ∧ t.tim = s.tim) ∧
    (s.tim.unclamped < 48000 → Completes .dcoLimitClear s fun t => t = s) ∧
    (∀ x : Nat × Option Int, s.tim.secDone = some x → Completes .holdoverSecondEnd s fun t =>
      t.tim = { s.tim with secDone := none, hist := (x :: s.tim.hist).take 1100 }) ∧
    (s.tim.secDone = none → Completes .holdoverSecondEnd s fun t => t = s)

/-- A due exchange starts with the next ID of 1 to 255. A probe with a new ID is answered in the next 8 frames. A report that answers the probe
that is out, in a frame that carried it, ends the exchange and counts TIM_EXCH_OK; another is dropped and changes no exchange. 480 ticks after its
start an exchange fails and counts TIM_EXCH_FAIL. After the tick of its exchange an adoption moves the tick number by num and leaves the device
NUMBERED. At the end of ADOPT_WAIT an unnumbered origin becomes NUMBERED with HOPS 0, an unnumbered device that is none raises TICK_UNNUMBERED, a
numbered one stays as it is. (R235, R236, R237, R238, R241) -/
def Obligations.ExchangesAndAdoptionComplete : Prop :=
  ∀ (l : IngressId) (s : State),
    (s.exchDue l = true → Completes (.exchangeStart l) s fun t => t.exch l = { s.exch l with
      id := if (s.exch l).id = 255 then 1 else (s.exch l).id + 1, since := some s.tick.n, started := some s.tick.n, phis := [] }) ∧
    (s.exchDue l = false → Completes (.exchangeStart l) s fun t => t = s) ∧
    (∀ (x : TimMsg) (id : Nat), (s.exch l).inbox = some x → x.body.length = 4 → x.body.getD 0 0 = 1 → (x.body.getD 1 0).toNat = id → 1 ≤ id →
      id ≠ (s.exch l).answered → Completes (.probeReceive l) s fun t =>
        t.exch l = { s.exch l with inbox := none, answered := id, report := s.reportBytes id x.stamp x.edge x.g, left := 8 }) ∧
    (∀ (x : TimMsg) (phiA : Nat), (s.exch l).inbox = some x → x.body.length = 20 → x.body.getD 0 0 = 2 →
      (s.exch l).phis.lookup (ofBytes ((x.body.drop 4).take 4)) = some phiA →
      ((s.exch l).since.isSome = true → (x.body.getD 1 0).toNat = (s.exch l).id → Completes (.reportReceive l) s fun t =>
        (t.exch l).since = none ∧ (t.exch l).inbox = none ∧ (t.exch l).fails = 0 ∧ t.word .timExchOk 0 = s.word .timExchOk 0 + 1) ∧
      ((x.body.getD 1 0).toNat ≠ (s.exch l).id → Completes (.reportReceive l) s fun t => t.exch l = { s.exch l with inbox := none } ∧
        t.word .timExchOk 0 = s.word .timExchOk 0)) ∧
    (∀ b : Nat, (s.exch l).since = some b → b + 480 ≤ s.tick.n → Completes (.exchangeTimeout l) s fun t => (t.exch l).since = none ∧
      (t.exch l).fails = bump 3 (s.exch l).fails ∧ t.word .timExchFail 0 = s.word .timExchFail 0 + 1) ∧
    (∀ a : Adoption, s.tim.adopt = some a → a.since < s.tick.n → Completes .tickAdopt s fun t => t.now = (s.now + a.num) % 2 ^ 32 ∧
      t.numbered = true ∧ t.tim.adopt = none) ∧
    (∀ n : Nat, s.tim.firstActive = some n → s.tim.waitDone = false → n + 4800 * max 1 (s.rd F.timAdoptCfgAdoptWait 0) ≤ s.tick.n →
      Completes .adoptWaitEnd s fun t => t.tim.waitDone = true ∧
        (s.numbered = true → t.numbered = true ∧ t.act = s.act) ∧
        (s.numbered = false → s.flag F.timAdoptCfgOrigin 0 = true → t.numbered = true ∧ t.rd F.timStateHops 0 = 0) ∧
        (s.numbered = false → s.flag F.timAdoptCfgOrigin 0 = false → t.numbered = false ∧ t.active A.tickUnnumbered 0 = true))

/-- After the rise of RST_N and until the tick stops, the first edge begins tick 0 with the tick number and the count of ticks as they are; every
later one adds 1 to the tick number modulo 2^32 and to the count of ticks, keeps the number of the tick that ended, moves the lag ring's position
by one modulo 11,264 and begins with no integrity events. Before the rise and after the stop an edge changes nothing. (R3, R123, R124, R232, R338,
R245) -/
def Obligations.TickEdgesAdvanceTheTick : Prop :=
  ∀ (e : TickEnv) (s : State),
    (s.boot.risen = true → s.tick.stopped = false → s.tick.begun = false → Completes (.tickEdge e) s fun t => t.tick.begun = true ∧
      t.tick.n = s.tick.n ∧ t.now = s.now) ∧
    (s.boot.risen = true → s.tick.stopped = false → s.tick.begun = true → Completes (.tickEdge e) s fun t => t.tick.begun = true ∧
      t.tick.n = s.tick.n + 1 ∧ t.now = (s.now + 1) % 2 ^ 32 ∧ t.tick.prev1 = BitVec.ofNat 32 s.now ∧ t.tick.prev2 = s.tick.prev1 ∧
      t.rd F.lagStateRingPos 0 = (s.rd F.lagStateRingPos 0 + 1) % 11264 ∧ t.tick.stopped = false) ∧
    (s.boot.risen = false ∨ s.tick.stopped = true → Completes (.tickEdge e) s fun t => t = s)

/-- A usable frame that has come is taken as the mate's view: its role, its heartbeat bit and its words. A role decided in an earlier tick is
entered, with WITHHELD where it was decided so. A unit JOINING for JOIN_WAIT becomes ACTIVE and, where no rank clash stands, raises MATE_ABSENT. An
edge is noted with its period. 576 periods without an edge clear HB_OK, count MATE_HB_LOSS and leave the loss to be classified; in a later tick the
loss raises MATE_HB_LOST where the mate link fails too (a VIGIL becoming ACTIVE), else MATE_HB_FAIL where the mate still sees this unit, else it is
taken as simultaneous. 48 clean ticks set HB_OK again and end both alarms. (R246, R250, R251, R252, R257, R258) -/
def Obligations.MateRolesAndHeartbeatFollowTheirRules : Prop :=
  ∀ (s : State),
    (∀ (k : BitVec 32) (w : Tbl Word), s.paired = true → s.mate.ready = some (k, w) → Completes .mateFrameReceive s fun t =>
      t.mate.ready = none ∧ t.mate.view = w ∧ t.rd F.mateStateMateRole 0 = field (mateSlotOf w 0) 0 2 ∧
      t.flag F.mateStateMateHbSeen 0 = bit (mateSlotOf w 0) 7 ∧ t.mate.usableRun = bump 48 s.mate.usableRun) ∧
    (s.mate.ready = none → Completes .mateFrameReceive s fun t => t = s) ∧
    (∀ (r : Nat) (w : Bool), s.paired = true → s.mate.change = some (r, w) → r < 3 → s.mate.changeAt < s.tick.n →
      Completes .mateRoleChange s fun t => t.role = r ∧ t.mate.change = none ∧ (w = true → t.withheld = true)) ∧
    (s.paired = true → s.role = 0 → max 1 (s.rd F.mateCfgJoinWait 0) * 48000 ≤ s.mate.joinTicks → Completes .mateJoinWaitEnd s fun t =>
      t.role = 1 ∧ (s.active A.mateRankClash 0 = false → t.active A.mateAbsent 0 = true)) ∧
    (∀ period : Nat, s.paired = true → Completes (.mateHbEdge period) s fun t => t.mate.hbEdge = 1024 * s.tick.n + period + 1 ∧ t.role = s.role) ∧
    (s.paired = true → s.hbSeen = true → s.mate.hbEdge + 576 ≤ 1024 * (s.tick.n + 1) → Completes .mateHbLost s fun t => t.hbSeen = false ∧
      t.word .mateHbLoss 0 = s.word .mateHbLoss 0 + 1 ∧ t.mate.hbClassify = some s.tick.n) ∧
    (∀ n : Nat, s.mate.hbClassify = some n → n < s.tick.n → Completes .mateHbLossClassify s fun t => t.mate.hbClassify = none ∧
      (s.qstate 32 ≠ 5 ∨ 2 ≤ s.mate.absentRun ∨ s.active A.mateLinkDown 0 = true → t.active A.mateHbLost 0 = true ∧
        (s.role = 2 → t.role = 1)) ∧
      (s.qstate 32 = 5 → s.mate.absentRun < 2 → s.active A.mateLinkDown 0 = false → s.flag F.mateStateMateHbSeen 0 = true →
        t.active A.mateHbFail 0 = true ∧ t.role = s.role) ∧
      (s.qstate 32 = 5 → s.mate.absentRun < 2 → s.active A.mateLinkDown 0 = false → s.flag F.mateStateMateHbSeen 0 = false →
        t.mate.simultaneous = true)) ∧
    (s.paired = true → s.hbSeen = false → 48 ≤ s.mate.hbCleanTicks → Completes .mateHbRegain s fun t => t.hbSeen = true ∧
      t.active A.mateHbLost 0 = false ∧ t.active A.mateHbFail 0 = false ∧ t.role = s.role)

/-- Three absent frames of a paired unit raise MATE_LINK_DOWN, clear LINK_UP, count and end the join; 48 usable ones clear it. A VIGIL that has
settled for 48 compared frames is SYNCED; one settling for 48,000 ticks raises MATE_UNSETTLED; 4,800 clean compared frames end both discrepancy
alarms; an expired watch brings MATE_WATCH_LOST and its alarm up to the watches. A command of MATE_CMD waits in a joined pair as a record for four
ticks on; in a unit not joined SWAP is refused, CLEAR_FAULT clears WITHHELD and MATE_FAULT, and RESYNC of a VIGIL leaves it SYNCING. (R259, R260,
R265, R269, R274, R275, R276) -/
def Obligations.MateLinkComparisonAndCommandsComplete : Prop :=
  ∀ (m : Master) (s : State),
    (s.paired = true → 3 ≤ s.mate.absentRun → s.active A.mateLinkDown 0 = false → Completes .mateLinkDownRaise s fun t =>
      t.active A.mateLinkDown 0 = true ∧ t.flag F.mateStateLinkUp 0 = false ∧ t.word .mateLinkLoss 0 = s.word .mateLinkLoss 0 + 1 ∧
      t.joined = false) ∧
    (s.active A.mateLinkDown 0 = true → 48 ≤ s.mate.usableRun → Completes .mateLinkDownClear s fun t =>
      t.active A.mateLinkDown 0 = false ∧ t.flag F.mateStateLinkUp 0 = true) ∧
    (s.role = 2 → s.sync = 1 → 48 ≤ s.mate.settled → Completes .resyncSettled s fun t => t.sync = 2 ∧ t.active A.mateUnsettled 0 = false) ∧
    (s.role = 2 → s.sync = 1 → 48000 ≤ s.mate.settling → Completes .mateUnsettledTimeout s fun t => t.active A.mateUnsettled 0 = true) ∧
    (4800 ≤ s.mate.cleanRun → Completes .mateDiscrepancyClear s fun t => t.active A.discrepancyUnexplained 0 = false ∧
      t.active A.mateInputDiffer 0 = false) ∧
    (∀ w : WatchId, bit (s.word .mateWatchLost 0).toNat w = true → Completes (.mateWatchExpire w) s fun t =>
      t.word .mateWatchLost 0 = BitVec.ofNat 64 s.watchWord ∧ t.active A.mateWatchLost 0 = decide (s.watchWord ≠ 0)) ∧
    (s.reaches m 18 true = true →
      (s.joined = true → s.mate.fresh.length < 640 → ∀ (c : Instr) (op : Nat), (c, op) ∈ [(Instr.mateCmdSwap m, 1), (.mateCmdClearFault m, 2), (.mateCmdResync m, 3)] →
        Completes c s fun t => t.role = s.role ∧ t.mate.own = s.mate.own ++ [⟨s.mate.mseq, BitVec.ofNat 32 (s.now + 4), 0xFF, regAddr .mateCmd 0, BitVec.ofNat 64 op⟩]) ∧
      (s.joined = false → Completes (.mateCmdSwap m) s (fun t => t.role = s.role ∧ t.rd F.mateCmdResult 0 = 2) ∧
        Completes (.mateCmdClearFault m) s (fun t => t.withheld = false ∧ t.active A.mateFault 0 = false ∧ t.rd F.mateCmdResult 0 = 3) ∧
        Completes (.mateCmdResync m) s fun t =>
          (s.role = 2 → t.sync = 0 ∧ t.mate.syncWanted = true ∧ t.rd F.mateCmdResult 0 = 3) ∧
          (s.role ≠ 2 → t.mate = s.mate ∧ t.rd F.mateCmdResult 0 = 2)))

/-- Where records are due, no swap is due before them and the tick has not applied its records yet, MIRROR_APPLY applies them and notes the tick;
records of later ticks stay in the mate's queue. Otherwise it changes nothing. In a VIGIL that is being resynchronised with a record four ticks
old, RESYNC_RECORD_APPLY applies the records due (here those that are no settings), notes the tick and keeps the younger ones; otherwise it changes
nothing. A slot of the egress ring brought by one that is not stale is what the ring then holds. (R266, R267, R268, R272, R273) -/
def Obligations.MirrorAndResyncRecordsAreApplied : Prop :=
  ∀ (s : State),
    (s.swapFirst = false → s.mate.mirrorAt ≠ s.tick.n + 1 → s.recordsDue ≠ [] → Completes .mirrorApply s fun t =>
      t.mate.mirrorAt = s.tick.n + 1 ∧ ∀ r ∈ s.mate.theirs, 0 < tdiff s.now r.u.toNat → r ∈ t.mate.theirs) ∧
    (s.swapFirst = true ∨ s.mate.mirrorAt = s.tick.n + 1 ∨ s.recordsDue = [] → Completes .mirrorApply s fun t => t = s) ∧
    (s.role = 2 → s.mate.syncing = true → s.swapFirst = false → s.mate.syncTick ≠ s.tick.n + 1 →
      (s.mate.syncIn.any fun r => decide (4 ≤ tdiff r.v.toNat s.now)) = true → (∀ r ∈ s.mate.syncIn, r.region ≠ 2) →
      Completes .resyncRecordApply s fun t => t.mate.syncTick = s.tick.n + 1 ∧
        (∀ r ∈ s.mate.syncIn, tdiff r.v.toNat s.now < 4 → r ∈ t.mate.syncIn) ∧
        ∀ (l p : Nat) (v : BitVec 80) (n : BitVec 32), l < 128 → p < 8192 → s.mate.syncIn = [⟨6, 16384 * l + 2 * p, n, v⟩] →
          s.recordStale ⟨6, 16384 * l + 2 * p, n, v⟩ = false →
          field (t.ringWord l p) 0 32 = field v.toNat 0 32 ∧ t.mate.syncIn = []) ∧
    (s.role ≠ 2 ∨ s.mate.syncing = false ∨ s.swapFirst = true ∨ s.mate.syncTick = s.tick.n + 1 → Completes .resyncRecordApply s fun t => t = s)

/-- A due restore of an active table word whose image can be read is made in a free cycle and counts in ECC_RESTORES; where the read fails or the
source slot is LOST or EMPTY it raises TABLE_UE_PERSIST. A COUNTING entry at the threshold becomes HARD where its word is streaming, with
ECC_HARD_CANDIDATE, and waits for a write-back where it is static and can be read. A write-back leaves the entry WRITTEN_BACK with COUNT 0 and
counts. 24 hours later the entry is freed. A test step that is due starts in the region of STEP with BUSY set; 12 ticks later it ends, BUSY 0 and
STEP one more; NOW makes a step due at the next tick edge. (R288, R290, R291, R292, R294) -/
def Obligations.RestoresTrackerAndTestComplete : Prop :=
  ∀ (m : Master) (addr : BitVec 32) (u : Nat) (n : TrackId) (s : State),
    (s.ecc.restores.find? (fun r => decide (r.1 = addr.toNat)) = some (addr.toNat, u) → u + 2 ≤ s.tick.n → s.activeTable addr.toNat = true →
      (∀ c : Nat, s.slotState (s.restoreSlot addr.toNat) ≠ 5 → s.slotState (s.restoreSlot addr.toNat) ≠ 0 →
        (eccMem addr.toNat = 0 → freeCycle emitCycles s.core.emitEdits (fun x => x / 16384) (eccBank addr.toNat / 2) = some c) →
        (eccMem addr.toNat = 1 → freeCycle termCycles s.core.termEdits (fun x => 2 * (x / 32768) + x % 2) (eccBank addr.toNat / 2) = some c) →
        Completes (.tableRestore addr false) s fun t => t.word .eccRestores 0 = s.word .eccRestores 0 + 1 ∧ t.ecc.restoredAt = s.tick.n + 1) ∧
      Completes (.tableRestore addr true) s (fun t => t.active A.tableUePersist 0 = true ∧ t.flag F.eccStatusPersist 0 = true ∧
        addr.toNat ∈ t.ecc.persist ∧ t.word .eccRestores 0 = s.word .eccRestores 0)) ∧
    (s.rd F.eccTrackState n = 1 → max 1 (s.rd F.eccTrackCfgThreshold 0) ≤ s.rd F.eccTrackCount n →
      (classStatic (eccMem (s.rd F.eccTrackAddr n)) = false → Completes (.trackerThreshold n) s fun t => t.rd F.eccTrackState n = 3 ∧
        t.flag F.eccStatusHard 0 = true ∧ t.active A.eccHardCandidate 0 = true) ∧
      (∀ d : Nat, classStatic (eccMem (s.rd F.eccTrackAddr n)) = true → s.ecc.writeback = [] → s.decoded (s.rd F.eccTrackAddr n) = some d →
        Completes (.trackerThreshold n) s fun t => (n.val, d) ∈ t.ecc.writeback)) ∧
    (∀ d : Nat, s.ecc.writeback.find? (fun w => decide (w.1 = n.val)) = some (n.val, d) → Completes (.trackerWriteback n) s fun t =>
      t.rd F.eccTrackState n = 2 ∧ t.rd F.eccTrackCount n = 0 ∧ t.word .eccWritebacks 0 = s.word .eccWritebacks 0 + 1 ∧
      Tbl.get 0 t.ecc.written n = s.tick.n) ∧
    (s.rd F.eccTrackState n = 2 → Tbl.get 0 s.ecc.written n + 4147200000 ≤ s.tick.n → Completes (.trackerEntryFree n) s fun t =>
      t.word .eccTrack n = 0 ∧ t.ecc = s.ecc) ∧
    (∀ fails : List (BitVec 32 × Nat), s.ecc.testSince = none → s.rd F.sysFuncStateState 37 = 2 →
      (s.ecc.testNow ≠ 0 ∧ s.ecc.testNow ≤ s.tick.n) ∨ s.rd F.eccTestCfgInterval 0 ≤ s.ecc.testWait → Completes (.testStepStart fails) s fun t =>
        t.ecc.testSince = some s.tick.n ∧ t.ecc.testRegion = s.rd F.eccTestStatusStep 0 ∧ t.ecc.testWait = 0 ∧ t.flag F.eccTestStatusBusy 0 = true) ∧
    (∀ k : Nat, s.ecc.testSince = some k → k + 12 ≤ s.tick.n → Completes .testStepEnd s fun t => t.ecc.testSince = none ∧
      t.flag F.eccTestStatusBusy 0 = false ∧ t.rd F.eccTestStatusStep 0 = (s.rd F.eccTestStatusStep 0 + 1) % 2 ^ F.eccTestStatusStep.width) ∧
    (s.reaches m 18 true = true → s.expert m = true → Completes (.eccTestNow m) s fun t => t.ecc = { s.ecc with testNow := s.tick.n + 1 })

/-- With no pass under way, SCRUB_START stores the word written and begins a pass over the banks it names, every bank of the class for BANK_COUNT
0: BUSY set, the summary and the list cleared; where the range goes beyond the class the pass ends at once with ERR 1. While one is under way it
only stores the word. SCRUB_ABORT ends the pass with ERR 2, and SCRUB_PASS_END ends one whose every word has been read with ERR 0; both show DONE
and not BUSY. Each clear ends its bit of ECC_STATUS and its alarm and touches neither tables nor pass. (R297, R298, R305) -/
def Obligations.ScrubAndIntegrityClearsComplete : Prop :=
  ∀ (m : Master) (cmd : BitVec 64) (s : State),
    (s.reaches m 18 true = true →
      (∀ w mem cnt first : Nat, w = Reg.stored .eccScrubCmd 0 cmd.toNat → mem = field w F.eccScrubCmdMem.lo F.eccScrubCmdMem.width →
        cnt = field w F.eccScrubCmdBankCount.lo F.eccScrubCmdBankCount.width → first = field w F.eccScrubCmdBankFirst.lo F.eccScrubCmdBankFirst.width →
        Completes (.scrubStart m cmd) s fun t => t.word .eccScrubCmd 0 = BitVec.ofNat 64 w ∧
          (s.flag F.eccScrubStatusBusy 0 = true → t.ecc = s.ecc ∧ t.word .eccScrubStatus 0 = s.word .eccScrubStatus 0) ∧
          (s.flag F.eccScrubStatusBusy 0 = false → (∀ k : Nat, k < 5 → t.word .eccScrubSum k = 0) ∧
            (classBanks mem = 0 ∨ classBanks mem < (if cnt = 0 then 0 else first + cnt) → t.ecc.scrub = none ∧ t.rd F.eccScrubStatusErr 0 = 1 ∧
              t.flag F.eccScrubStatusDone 0 = true) ∧
            (classBanks mem ≠ 0 → (if cnt = 0 then 0 else first + cnt) ≤ classBanks mem → t.flag F.eccScrubStatusBusy 0 = true ∧
              t.ecc.scrub = some ⟨s.tick.n, mem, if cnt = 0 then 0 else first, if cnt = 0 then classBanks mem else cnt,
                bit w F.eccScrubCmdMode.lo, [], []⟩))) ∧
      Completes (.scrubAbort m) s (fun t => (s.flag F.eccScrubStatusBusy 0 = true → t.ecc.scrub = none ∧ t.flag F.eccScrubStatusBusy 0 = false ∧
          t.flag F.eccScrubStatusDone 0 = true ∧ t.rd F.eccScrubStatusErr 0 = 2) ∧
        (s.flag F.eccScrubStatusBusy 0 = false → t.ecc = s.ecc ∧ t.word .eccScrubStatus 0 = s.word .eccScrubStatus 0)) ∧
      (∀ (c : Instr) (f : Field) (a : Nat), (c, f, a) ∈ [(Instr.eccUeClear m, F.eccStatusUe, A.eccUe), (.eccHardClear m, F.eccStatusHard, A.eccHardCandidate),
          (.eccTestFailClear m, F.eccStatusTestFail, A.testFail), (.eccTrackFullClear m, F.eccStatusTrackFull, A.eccTrackFull),
          (.trimLostClear m, F.eccStatusTrimLost, A.trimLost)] → Completes c s fun t => t.flag f 0 = false ∧ t.active a 0 = false ∧
        t.core = s.core ∧ t.ecc = s.ecc)) ∧
    (∀ r : ScrubRun, s.ecc.scrub = some r → r.over = true → Completes .scrubPassEnd s fun t => t.ecc.scrub = none ∧
      t.flag F.eccScrubStatusBusy 0 = false ∧ t.flag F.eccScrubStatusDone 0 = true ∧ t.rd F.eccScrubStatusErr 0 = 0)

/-- With no burn under way, an entry that is valid, of right parity and in range, with a blank field location left, starts a burn (BUSY, RESULT 0);
a bad entry gives RESULT 3, a full field area RESULT 2. The end of a burn stores what the location reads into the first blank one and gives RESULT
1 where that is the entry, else 4. GO for a candidate that is not valid gives RESULT 5, of a stack not lost RESULT 4, else the repair runs; its end
gives RESULT 1 with REPAIRED set, 2 or 3. At a tick divisible by 48,000 each stack's scrub count is added once to HBM_ECS. (R301, R302, R304) -/
def Obligations.FusesAndHbmRepairsComplete : Prop :=
  ∀ (m : Master) (entry : BitVec 32) (cand : CandId) (s : State),
    (s.reaches m 18 true = true → s.expert m = true →
      (s.flag F.eccFuseStatusBusy 0 = false → Completes (.fuseBurn m entry) s fun t =>
        ((bit entry.toNat 31 && fuseParityOk entry.toNat && (fuseRepair entry.toNat).isSome) = false → t.rd F.eccFuseStatusResult 0 = 3 ∧ t.ecc = s.ecc) ∧
        ((bit entry.toNat 31 && fuseParityOk entry.toNat && (fuseRepair entry.toNat).isSome) = true → s.blankFuse = none →
          t.rd F.eccFuseStatusResult 0 = 2 ∧ t.ecc = s.ecc) ∧
        ((bit entry.toNat 31 && fuseParityOk entry.toNat && (fuseRepair entry.toNat).isSome) = true → s.blankFuse ≠ none →
          t.flag F.eccFuseStatusBusy 0 = true ∧ t.rd F.eccFuseStatusResult 0 = 0 ∧ t.ecc.burn = some entry)) ∧
      (s.flag F.hbmRepairStatusBusy 0 = false → Completes (.hbmRepairGo m cand) s fun t =>
        (s.flag F.hbmCandValid cand = false → t.rd F.hbmRepairStatusResult 0 = 5 ∧ t.ecc = s.ecc) ∧
        (s.flag F.hbmCandValid cand = true → s.stackLost (s.rd F.hbmCandStack cand) = false → t.rd F.hbmRepairStatusResult 0 = 4 ∧ t.ecc = s.ecc) ∧
        (s.flag F.hbmCandValid cand = true → s.stackLost (s.rd F.hbmCandStack cand) = true → t.flag F.hbmRepairStatusBusy 0 = true ∧
          t.rd F.hbmRepairStatusResult 0 = 0 ∧ t.ecc.repair = some cand.val))) ∧
    (∀ e readBack : BitVec 32, s.ecc.burn = some e → Completes (.fuseBurnDone readBack) s fun t => t.ecc.burn = none ∧
      t.flag F.eccFuseStatusBusy 0 = false ∧ (readBack = e → t.rd F.eccFuseStatusResult 0 = 1) ∧ (readBack ≠ e → t.rd F.eccFuseStatusResult 0 = 4) ∧
      ∀ k : Nat, s.blankFuse = some k → Tbl.get 0 t.nv.fieldMap k = readBack) ∧
    (s.ecc.repair = some cand.val →
      Completes (.hbmRepairDone .done) s (fun t => t.ecc.repair = none ∧ t.rd F.hbmRepairStatusResult 0 = 1 ∧ t.flag F.hbmCandRepaired cand = true ∧
        t.flag F.hbmRepairStatusBusy 0 = false) ∧
      Completes (.hbmRepairDone .noSpare) s (fun t => t.ecc.repair = none ∧ t.rd F.hbmRepairStatusResult 0 = 2 ∧
        t.word .hbmCand cand = s.word .hbmCand cand) ∧
      Completes (.hbmRepairDone .failed) s fun t => t.ecc.repair = none ∧ t.rd F.hbmRepairStatusResult 0 = 3 ∧
        t.word .hbmCand cand = s.word .hbmCand cand) ∧
    (∀ counts : List Nat, s.now % 48000 = 0 → s.ecc.ecsAt ≠ s.tick.n + 1 → Completes (.hbmEcsRead counts) s fun t => t.ecc.ecsAt = s.tick.n + 1 ∧
      ∀ k : Nat, k < 4 → t.word .hbmEcs k = s.word .hbmEcs k + BitVec.ofNat 64 (counts.getD k 0))

/-- Once the supplies have risen a port's link comes up. A port that is up answers identity, status and BAR reads and takes D3hot, bus-master,
MSI-X, BAR and error-status writes. A host request for a busy target, within its BAR, waits as bursts behind the others. A read or write of an
aligned word of a scratch bank that answers returns or stores its 8 bytes; a granted read burst leaves the queue, returns its word and counts the
cycles waited. A read of BUS_ERR_LAST returns the word and clears VALID. A register write at expert level stores what the register keeps of the
part written; one at an address no target holds is answered DEFAULT and counted. (R308, R310, R311, R313, R315, R316, R317, R320, R349) -/
def Obligations.HostPortsAndTransfersComplete : Prop :=
  ∀ (p : Port) (m : Master) (a k w off n cyc : Nat) (v : Word) (data : List (Option Byte)) (s : State), a = masterNum (portMaster p) →
    (s.boot.risen = true → Completes (.hostLinkUp p) s fun t => (Tbl.get {} t.irqs a).up = true) ∧
    ((Tbl.get {} s.irqs a).up = true →
      Completes (.configurationRequest p .readId) s (fun t => Tbl.get {} t.bus.answers a = ⟨true, identityBytes⟩) ∧
      Completes (.configurationRequest p .readStatus) s (fun t => Tbl.get {} t.bus.answers a = ⟨true, statusBytes (Tbl.get {} s.irqs a)⟩) ∧
      (∀ j : Fin 6, Completes (.configurationRequest p (.readBar j)) s fun t =>
        Tbl.get {} t.bus.answers a = ⟨true, toBytes 4 (barRead (Tbl.get {} s.irqs a) j).toNat⟩) ∧
      (∀ (j : Fin 6) (b : BitVec 32), Completes (.configurationRequest p (.writeBar j b)) s fun t => Tbl.get 0 (Tbl.get {} t.irqs a).bars j = b) ∧
      (∀ b : BitVec 32, Completes (.configurationRequest p (.clearAer b)) s fun t =>
        (Tbl.get {} t.irqs a).aer = (Tbl.get {} s.irqs a).aer &&& ~~~b) ∧
      (∀ d : Bool, Completes (.configurationRequest p (.power d)) s fun t => (Tbl.get {} t.irqs a).d3hot = d) ∧
      (∀ d : Bool, Completes (.configurationRequest p (.busMaster d)) s fun t => (Tbl.get {} t.irqs a).busMaster = d) ∧
      (∀ d e : Bool, Completes (.configurationRequest p (.msix d e)) s fun t => (Tbl.get {} t.irqs a).msix = d ∧ (Tbl.get {} t.irqs a).fnMask = e) ∧
      ((Tbl.get {} s.irqs a).d3hot = false →
        (∀ (bar2 : Bool) (addr : Nat), s.barAddr a bar2 off = some addr →
          Completes (.hostRead p bar2 off n cyc true) s (fun t =>
            t.bus.waiting = s.bus.waiting ++ transferBursts (portMaster p) addr n [] false ∧ t.core = s.core) ∧
          Completes (.hostWrite p bar2 off data cyc true) s fun t =>
            t.bus.waiting = s.bus.waiting ++ transferBursts (portMaster p) addr data.length data true ∧ t.core = s.core) ∧
        (k < 16 → w < 8192 → off = scratchAddr k w → s.reaches (portMaster p) (1 + k) false = true →
          (s.scratchSound k w = true →
            Completes (.hostRead p false off 8 cyc false) s fun t => Tbl.get {} t.bus.answers a = ⟨true, toBytes 8 (s.scratchWord k w)⟩) ∧
          (s.bankWriteRefused (portMaster p) k w = false →
            Completes (.hostWrite p false off ((toBytes 8 v.toNat).map some) cyc false) s fun t => t.scratchWord k w = v.toNat)))) ∧
    (∀ (i : TargetId) (r : BusReq) (waited : Nat), s.granting i = some r → r.write = false → r.first = true → r.target = 1 + k → i.val = 1 + k → k < 16 →
      w < 8192 → r.addr = scratchAddr k w → r.len = 8 → hasPath r.master (1 + k) false = true → s.scratchSound k w = true →
        Completes (.busGrant i cyc waited) s fun t => t.bus.waiting.length + 1 = s.bus.waiting.length ∧
          Tbl.get {} t.bus.answers (masterNum r.master) = ⟨true, toBytes 8 (s.scratchWord k w)⟩ ∧
          t.word .busWait i = s.word .busWait i + BitVec.ofNat 64 waited) ∧
    (∀ of : Master, s.reaches m 18 false = true → Completes (.busErrLastRead m of) s fun t =>
      Tbl.get {} t.bus.answers (masterNum m) = ⟨true, toBytes 8 (s.word .busErrLast (masterNum of)).toNat⟩ ∧
      t.flag F.busErrLastValid (masterNum of) = false) ∧
    (∀ part : Part, s.reaches m 18 true = true → s.expert m = true →
      ∀ r ∈ [Reg.sysAlarmMask, .eccTrackCfg, .busCollCfg], Completes (.registerWrite m (regAddr r 0) v part) s fun t =>
        t.word r 0 = BitVec.ofNat 64 (r.stored (s.word r 0).toNat (s.wholeValue r 0 part v.toNat)) ∧ t.core = s.core) ∧
    (∀ part : Part, s.masterWaits m = false → targetAt (n / 8 * 8) = 25 → n / 8 * 8 < 2 ^ 40 → Completes (.registerWrite m n v part) s fun t =>
      t.word .busErrResp (masterNum m) = s.word .busErrResp (masterNum m) + 1 ∧ t.rd F.busErrLastCause (masterNum m) = 1 ∧ t.core = s.core)

/-- On an available bank that is not orphaned, and a word without errors, FETCHADD, SWAP and CAS of an aligned 4 or 8 bytes of a doorbell word
return the operand's previous value and store the sum, the data, or the data where the compare holds; SET, CLEAR and ADD store word OR data, word
AND NOT data and word + data, and FETCH_CLEAR stores 0 and returns the word. Whoever R325 names has the bank's bit in BUS_DB_PEND set where the
word changed. (R308, R314, R324, R325) -/
def Obligations.DoorbellsAndAtomicsComplete : Prop :=
  ∀ (p : Port) (m : Master) (b w addr d : Nat) (wide : Bool) (data cmp : Word) (n : BankId) (j : DoorbellId) (s : State),
    ((Tbl.get {} s.irqs (masterNum (portMaster p))).up = true → (Tbl.get {} s.irqs (masterNum (portMaster p))).d3hot = false →
      s.masterWaits (portMaster p) = false → s.doorbellAt addr = some (b, w) → addr % (if wide then 8 else 4) = 0 →
      s.scratchSound b w = true → d = s.scratchWord b w →
      ∀ (c : Instr) (x : Nat), (c, x) ∈ [(Instr.atomicFetchadd p addr wide data, putOperand wide addr d (atomicAdd wide (getOperand wide addr d) data.toNat)),
          (.atomicSwap p addr wide data, putOperand wide addr d data.toNat),
          (.atomicCas p addr wide cmp data, if getOperand wide addr d = getOperand wide 0 cmp.toNat then putOperand wide addr d data.toNat else d)] →
        Completes c s fun t => t.scratchWord b w = x ∧
          Tbl.get {} t.bus.answers (masterNum (portMaster p)) = ⟨true, toBytes (if wide then 8 else 4) (getOperand wide addr d)⟩ ∧
          (x ≠ d → ∀ k ∈ s.notified (masterNum (portMaster p)) b, t.rdBit F.busDbPendPend k b = true)) ∧
    ((∀ wr : Bool, s.reaches m 18 wr = true) → s.scratchSound n j = true → d = s.scratchWord n j →
      ∀ (c : Instr) (x : Nat), (c, x) ∈ [(Instr.doorbellSet m n j data, d ||| data.toNat), (.doorbellClear m n j data, d - (d &&& data.toNat)),
          (.doorbellFetchClear m n j, 0), (.doorbellAdd m n j data, (d + data.toNat) % 2 ^ 64)] →
        Completes c s fun t => t.scratchWord n j = x ∧
          (c = .doorbellFetchClear m n j → Tbl.get {} t.bus.answers (masterNum m) = ⟨true, toBytes 8 d⟩) ∧
          (x ≠ d → ∀ k ∈ s.notified (masterNum m) n, t.rdBit F.busDbPendPend k n = true))

/-- CLAIM of a bank that may be claimed makes its writer the owner; RELEASE by the owner frees it; GIVE by the owner to a host port or the boot
loader hands it over and sets the bank's bit in that master's BUS_DB_PEND; any other OP is refused with OWNER and leaves the bank. A TRY of a free
semaphore, armed where it is semaphore 0, takes it and returns GRANTED; of one held by another it returns the owner only. RELEASE by the holder and
FORCE at expert level free it; ARM with 0x5EC0 arms the writer. A master reset frees the master's semaphores, orphans its banks, discards its
waiting bursts, is counted, and at a host port takes the link down where it is down. REMAP_WRITE stores REMAP. (R314, R323, R327, R328, R329) -/
def Obligations.SharedResourcesChangeHands : Prop :=
  ∀ (m : Master) (n : BankId) (i : SemId) (cyc : Nat) (s : State),
    (s.reaches m 18 true = true →
      Completes (.scratchClaim m n) s (fun t =>
        (s.claimOk (masterNum m) n = true → t.bankState n = 1 ∧ t.bankOwner n = masterNum m) ∧
        (s.claimOk (masterNum m) n = false → t.word .busScrOwn n = s.word .busScrOwn n ∧ t.word .busErrResp (masterNum m) = s.word .busErrResp (masterNum m) + 1)) ∧
      Completes (.scratchRelease m n) s (fun t =>
        (s.bankState n = 1 → s.bankOwner n = masterNum m → t.bankState n = 0 ∧ t.bankOwner n = 0) ∧
        (s.bankState n ≠ 1 ∨ s.bankOwner n ≠ masterNum m → t.word .busScrOwn n = s.word .busScrOwn n ∧
          t.word .busErrResp (masterNum m) = s.word .busErrResp (masterNum m) + 1)) ∧
      (∀ dest : BitVec 3, Completes (.scratchGive m n dest) s fun t =>
        (s.bankState n = 1 → s.bankOwner n = masterNum m → 1 ≤ dest.toNat → dest.toNat ≤ 3 → t.bankState n = 1 ∧ t.bankOwner n = dest.toNat ∧
          t.rdBit F.busDbPendPend dest.toNat n = true) ∧
        (s.bankState n ≠ 1 ∨ s.bankOwner n ≠ masterNum m ∨ dest.toNat = 0 ∨ 3 < dest.toNat → t.word .busScrOwn n = s.word .busScrOwn n ∧
          t.word .busErrResp (masterNum m) = s.word .busErrResp (masterNum m) + 1)) ∧
      (s.expert m = true → ∀ remap : Bool, Completes (.remapWrite m remap) s fun t => t.flag F.sysCtrlRemap 0 = remap)) ∧
    (s.reaches m 17 false = true → Completes (.semTry m i cyc) s fun t =>
      (i.val ≠ 0 ∨ s.semArmed (masterNum m) cyc = true → s.semOwner i = 0 → t.semOwner i = masterNum m ∧
        Tbl.get {} t.bus.answers (masterNum m) = ⟨true, toBytes 8 (2 ^ 63 + masterNum m)⟩ ∧ Tbl.get 0 t.bus.semTick i = s.now) ∧
      (s.semOwner i ≠ 0 → s.semOwner i ≠ masterNum m → t.semOwner i = s.semOwner i ∧
        Tbl.get {} t.bus.answers (masterNum m) = ⟨true, toBytes 8 (s.semOwner i)⟩)) ∧
    (s.reaches m 17 true = true →
      (s.semOwner i = masterNum m → Completes (.semRelease m i) s fun t => t.semOwner i = 0) ∧
      (i.val = 0 → Completes (.semArm m i 0x5EC0 cyc) s fun t => t.semArmed (masterNum m) cyc = true ∧ t.semOwner i = s.semOwner i) ∧
      (s.expert m = true → s.semOwner i ≠ 0 → Completes (.semForce m i) s fun t => t.semOwner i = 0 ∧
        t.word .busSemForced 0 = s.word .busSemForced 0 + 1)) ∧
    (∀ linkDown : Bool, masterNum m ≤ 3 → Completes (.masterReset m linkDown) s fun t =>
      (∀ r ∈ t.bus.waiting, r.master ≠ m) ∧ t.word .busResets (masterNum m) = s.word .busResets (masterNum m) + 1 ∧
      (s.semOwner i = masterNum m → t.semOwner i = 0) ∧
      (s.bankState n = 1 → s.bankOwner n = masterNum m → t.bankState n = 2 ∧ t.bankOwner n = masterNum m) ∧
      (masterNum m ≠ 3 → (Tbl.get {} t.irqs (masterNum m)).up = ((Tbl.get {} s.irqs (masterNum m)).up && !linkDown) ∧
        (Tbl.get {} t.irqs (masterNum m)).d3hot = false) ∧ t.core = s.core)

/-- In AUTONOMOUS mode after P3 the loader starts once; a RUN that is accepted starts it: PHASE running, step 0, scratch bank 0 its own. LOAD_IMAGE
shows which headers are valid; where every entry of the image chosen can be copied and matches its CRC, IMAGE names it, its slots are loaded in
order and the loader goes on; with no valid header the list fails with cause 1 and BOOT_FAIL. CHECK_BOOT leaves the slot ACCEPTED and goes on, or
REJECTED. STAGE_BOOT leaves the shadow STAGED and goes on, or FAILED. ACTIVATE arms T = t + ARG where an ARM of it would be accepted, else fails
with cause 5. CHECK_REST goes on. (R342, R343, R344, R345, R346, R347, R348) -/
def Obligations.LoaderStartsAndImageStepsComplete : Prop :=
  ∀ (m : Master) (s : State),
    (s.boot.p3 = true → s.boot.mode = .autonomous → s.boot.unusable = false → s.boot.ran = false → Completes .bootLoaderStart s fun t =>
      t.bootRunning = true ∧ t.boot.ran = true ∧ t.boot.step = 0 ∧ t.bankState 0 = 1 ∧ t.bankOwner 0 = 3) ∧
    (s.reaches m 18 true = true → s.expert m = true → s.runOk = true → Completes (.sysBootRun m) s fun t =>
      t.bootRunning = true ∧ t.boot.ran = true ∧ t.boot.step = 0 ∧ t.bankState 0 = 1 ∧ t.bankOwner 0 = 3) ∧
    (s.atStep 1 = true → s.boot.p4 = 15 → s.flag F.nvmStatusBusy 0 = false → Completes .loadImage s fun t =>
      t.flag F.sysBootStatusAValid 0 = s.headerValid 1 ∧ t.flag F.sysBootStatusBValid 0 = s.headerValid 2 ∧
      (∀ i : Nat, s.firstImage = some i → s.boot.fallbackTried = false →
        (∀ e ∈ s.bootEntries i, s.stackLost (e.slot / 4) = false ∧ s.slotWriteRefused e.slot = none ∧
          (crc32c (s.flashRead (s.regionBase i + e.off) e.len)).toNat = e.crc) →
        t.rd F.sysBootStatusImage 0 = i ∧ t.boot.step = s.boot.step + 1 ∧ t.boot.slots = (s.bootEntries i).map (·.slot)) ∧
      (s.firstImage = none → t.rd F.sysBootStatusPhase 0 = 4 ∧ t.rd F.sysBootStatusFail 0 = 1 ∧ t.active A.bootFail 0 = true)) ∧
    (s.atStep 2 = true → s.flag F.almStateCheckBusy 0 = false → s.checkRefused s.boot.bootSlot = false → Completes .checkBoot s fun t =>
      t.flag F.almStateCheckBusy 0 = false ∧ (t.slotState s.boot.bootSlot = 2 ∨ t.slotState s.boot.bootSlot = 3) ∧
      (t.slotState s.boot.bootSlot = 2 → t.boot.step = s.boot.step + 1)) ∧
    (s.atStep 3 = true → s.stageRefused s.boot.bootSlot = false → Completes .stageBoot s fun t => (t.shadow = 2 ∨ t.shadow = 4) ∧
      (t.shadow = 2 → t.boot.step = s.boot.step + 1) ∧ t.core.emit = s.core.emit) ∧
    (s.atStep 4 = true → Completes .activate s fun t =>
      (s.armResult false (tadd s.now s.stepArg) = 1 → t.estate = 1 ∧ t.rd F.almArmedArmedTick 0 = tadd s.now s.stepArg ∧ t.boot.activating = true) ∧
      (s.armResult false (tadd s.now s.stepArg) ≠ 1 → t.rd F.sysBootStatusPhase 0 = 4 ∧ t.rd F.sysBootStatusFail 0 = 5)) ∧
    (s.atStep 5 = true → s.flag F.almStateCheckBusy 0 = false → Completes .checkRest s fun t => t.boot.step = s.boot.step + 1 ∧
      t.bootRunning = true)

/-- A WRITE step to a scratch word the loader may write stores VALUE and goes on; a POLL of a word that can be read goes on where it finds a bit,
else stays until ARG ticks have passed and then fails with cause 6; a WAIT goes on once ARG ticks have passed; END ends the list, PHASE done,
scratch bank 0 released; a code that is no step fails with cause 8. A flash command within R354's limits, not of the booted region at basic level,
sets BUSY and takes its operands and, to program, the buffer's bytes; one beyond the limits is refused with VALUE. A read of SYS_TEMP returns the
part; one that takes its high half clears TJ_MAX. (R320, R343, R354, R385) -/
def Obligations.ListStepsFlashAndSensorComplete : Prop :=
  ∀ (m : Master) (k w : Nat) (s : State), k < 16 → w < 8192 →
    (s.atStep 6 = true → s.stepAddr = scratchAddr k w → s.available (1 + k) = true → s.bankWriteRefused .boot k w = false → Completes .bootStepWrite s fun t =>
      t.scratchWord k w = s.stepValue ∧ t.boot.step = s.boot.step + 1 ∧ t.bootRunning = true) ∧
    (s.atStep 7 = true → s.stepAddr = scratchAddr k w → s.scratchSound k w = true → Completes .bootStepPoll s fun t =>
      (s.scratchWord k w &&& s.stepValue ≠ 0 → t.boot.step = s.boot.step + 1) ∧
      (s.scratchWord k w &&& s.stepValue = 0 → s.tick.n < s.boot.since + s.stepArg → t.boot.step = s.boot.step ∧ t.bootRunning = true) ∧
      (s.scratchWord k w &&& s.stepValue = 0 → s.boot.since + s.stepArg ≤ s.tick.n → t.rd F.sysBootStatusPhase 0 = 4 ∧ t.rd F.sysBootStatusFail 0 = 6)) ∧
    (s.atStep 8 = true → s.boot.since + s.stepArg ≤ s.tick.n → Completes .bootStepWait s fun t => t.boot.step = s.boot.step + 1 ∧ t.bootRunning = true) ∧
    (s.atStep 0 = true → Completes .bootStepEnd s fun t => t.rd F.sysBootStatusPhase 0 = 3 ∧
      (s.bankState 0 = 1 → s.bankOwner 0 = 3 → t.bankState 0 = 0)) ∧
    (∀ op : Nat, 8 < op → s.atStep op = true → Completes .bootStepEnd s fun t => t.rd F.sysBootStatusPhase 0 = 4 ∧ t.rd F.sysBootStatusFail 0 = 8) ∧
    (∀ (addr : BitVec 28) (len : BitVec 13), s.reaches m 18 true = true → s.expert m = true →
      Completes (.nvmProgram m addr len) s (fun t =>
        (s.nvmOk 1 addr.toNat len.toNat = true → t.flag F.nvmStatusBusy 0 = true ∧ t.nvm.cmd = some (1, addr.toNat, len.toNat) ∧
          t.nvm.data = memRead s.nvm.buf 0 len.toNat ∧ t.nv = s.nv) ∧
        (s.nvmOk 1 addr.toNat len.toNat = false → t.nvm = s.nvm ∧ t.rd F.busErrLastCause (masterNum m) = 5)) ∧
      Completes (.nvmErase m addr) s (fun t =>
        (∀ l : Nat, s.nvmOk 2 addr.toNat l = true → t.flag F.nvmStatusBusy 0 = true ∧ (t.nvm.cmd.map fun c => (c.1, c.2.1)) = some (2, addr.toNat) ∧ t.nv = s.nv) ∧
        (∀ l : Nat, s.nvmOk 2 addr.toNat l = false → t.nvm = s.nvm ∧ t.rd F.busErrLastCause (masterNum m) = 5))) ∧
    (∀ part : Part, s.reaches m 18 false = true → Completes (.sysTempRead m part) s fun t =>
      Tbl.get {} t.bus.answers (masterNum m) = ⟨true, partBytes part (s.word .sysTemp 0).toNat⟩ ∧
      (part = .low → t.word .sysTemp 0 = s.word .sysTemp 0) ∧ (part ≠ .low → t.rd F.sysTempTjMax 0 = 0 ∧ t.rd F.sysTempTj 0 = s.rd F.sysTempTj 0))

/-- A snapshot due in a tick that has taken none captures the counters with its cause bit and counts in PM_SNAPSHOTS; while one is still being
written, or with no event buffer, it is skipped and counts in PM_SNAP_SKIPPED. An armed tick ends SNAP_ARM. PM_SNAP asks for one at the next edge.
A captured snapshot is written to its place in the ring and shown in PM_SNAP_STATUS. The end of a bandwidth window latches every link's bytes with
the tick, the length and the next SEQ, and the meters start again. A window length that R359 allows is stored, any other is refused with VALUE.
(R357, R358, R359) -/
def Obligations.SnapshotsAndWindowsComplete : Prop :=
  ∀ (m : Master) (s : State),
    (∀ (c : Instr) (k : Nat), (c = .snapshotAuto ∧ k = 1 ∧ s.flag F.pmCtrlAuto 0 = true ∧ s.now % 48000 = 0) ∨
        (c = .snapshotArmedTick ∧ k = 4 ∧ s.flag F.pmCtrlSnapArm 0 = true ∧ s.now = s.rd F.pmCtrlSnapTick 0) → s.pm.snapAt ≠ s.tick.n + 1 →
      Completes c s fun t => (k = 4 → t.flag F.pmCtrlSnapArm 0 = false) ∧
        (s.pm.snapPending = none → s.flag F.logStateEvbValid 0 = true → t.pm.snapPending = some (BitVec.ofNat 32 s.now, k) ∧ t.pm.snapRegs = s.regs ∧
          t.word .pmSnapshots 0 = s.word .pmSnapshots 0 + 1) ∧
        (s.pm.snapPending ≠ none ∨ s.flag F.logStateEvbValid 0 = false → t.pm.snapPending = s.pm.snapPending ∧
          t.word .pmSnapSkipped 0 = s.word .pmSnapSkipped 0 + 1)) ∧
    (s.reaches m 18 true = true → Completes (.pmSnap m) s (fun t => t.pm.snapReq = true) ∧
      ∀ w : BitVec 16, Completes (.pmBwCfgWrite m w) s fun t =>
        (48 ≤ w.toNat → w.toNat ≤ 48000 → 48000 % w.toNat = 0 → t.rd F.pmBwCfgWindow 0 = w.toNat) ∧
        (w.toNat < 48 ∨ 48000 < w.toNat ∨ 48000 % w.toNat ≠ 0 → t.rd F.pmBwCfgWindow 0 = s.rd F.pmBwCfgWindow 0 ∧
          t.rd F.busErrLastCause (masterNum m) = 5)) ∧
    (∀ (n : BitVec 32) (k : Nat) (bs : List Byte), s.pm.snapPending = some (n, k) → s.flag F.logStateEvbValid 0 = true →
      bs = snapBytes s.pm.snapSeq n.toNat k s.nv.dieId s.pm.snapRegs → Completes .snapshotWritten s fun t => t.pm.snapPending = none ∧
        memRead t.hbm (stackBase (s.rd F.logStateEvbStack 0) + 0x586000000 + 0x40000 * (s.pm.snapSeq % 128)) bs.length = bs ∧
        t.pm.snapSeq = (s.pm.snapSeq + 1) % 2 ^ 32 ∧ t.rd F.pmSnapStatusTick 0 = n.toNat) ∧
    (s.pm.bwOn = true → 0 < s.pm.bwLen → s.bwBoundary = true → Completes .bwWindowEnd s fun t => t.pm.meters = [] ∧ t.pm.bwLen = 0 ∧
      t.rd F.pmBwLastEndTick 0 = s.now % 2 ^ F.pmBwLastEndTick.width ∧
      t.rd F.pmBwLastSeq 0 = (s.rd F.pmBwLastSeq 0 + 1) % 2 ^ F.pmBwLastSeq.width ∧
      ∀ i : Nat, i < 128 → t.word .pmBwLinkIn i = BitVec.ofNat 64 (Tbl.get 0 s.pm.meters (meterKey .pmBwLinkIn i) % 2 ^ 48) ∧
        t.word .pmBwLinkOut i = BitVec.ofNat 64 (Tbl.get 0 s.pm.meters (meterKey .pmBwLinkOut i) % 2 ^ 48))

/-- The end of a performance second begins the next, keeps at most nine seconds waiting, counts the one made final in PM_SECONDS once more than
nine wait, and counts a second of operation. ALARM_LATCH_CLEAR clears the latched bits written 1 of one alarm and leaves the active ones.
INT_SRC_CLEAR clears the bits written 1 of a port's sources but for bits 5 and 6, which follow theirs. At a tick number divisible by 172,800,000 an
hourly store is asked for, and LOG_FLUSH asks for one. (R360, R362, R363, R372, R387, R391) -/
def Obligations.SecondsAlarmsAndLogbookComplete : Prop :=
  ∀ (m : Master) (s : State),
    (∀ b : Nat, s.pm.secStart = some b → b < s.tick.n → s.now % 48000 = 0 → Completes .pmSecondEnd s fun t => t.pm.secStart = some s.tick.n ∧
      t.pm.waiting = min 9 (s.pm.waiting + 1) ∧ t.word .pmSeconds 0 = s.word .pmSeconds 0 + BitVec.ofNat 64 (s.pm.waiting + 1 - 9) ∧
      t.log.totals.opSeconds = s.log.totals.opSeconds + 1 ∧ t.core = s.core) ∧
    (s.reaches m 18 true = true →
      (∀ (a : AlarmId) (w : Fin 4) (bits : Word), Completes (.alarmLatchClear m a w bits) s fun t => t.act = s.act ∧
        Tbl.get 0 t.latch a = Tbl.get 0 s.latch a &&& ~~~(BitVec.ofNat 256 (bits.toNat * 2 ^ (64 * w.val)))) ∧
      (∀ (p : Port) (bits : BitVec 12) (w : Nat), w = (s.word .sysIntSrc (masterNum (portMaster p))).toNat → Completes (.intSrcClear m p bits) s fun t =>
        t.word .sysIntSrc (masterNum (portMaster p)) = BitVec.ofNat 64 (w - (w &&& (bits.toNat &&& 0xF9F)))) ∧
      Completes (.logFlush m) s fun t => 3 ∈ t.log.causes) ∧
    (s.now % 172800000 = 0 → Completes .logHourly s fun t => 1 ∈ t.log.causes)
end

