-- ==== Sys2Proof/Laws/Table.lean ====
section
/-! SUPPORT. The laws of sparse tables: what a read finds after a write, and that every operation keeps the canonical form. -/

namespace Sys2Proof

variable {α : Type}

theorem Tbl.get_erase (d : α) (t : Tbl α) (k j : Nat) : Tbl.get d (Tbl.erase k t) j = if j = k then d else Tbl.get d t j := by
  induction t with
  | nil => simp [Tbl.erase, Tbl.get]
  | cons e t ih =>
    obtain ⟨i, v⟩ := e
    by_cases hik : i = k
    · subst hik
      rw [Tbl.erase, if_pos rfl, ih, Tbl.get]
      by_cases hj : j = i <;> simp [hj, Ne.symm]
    · rw [Tbl.erase, if_neg hik, Tbl.get, Tbl.get, ih]
      by_cases hj : j = k
      · subst hj; simp [hik]
      · simp [hj]

theorem Tbl.get_insert (d : α) (t : Tbl α) (k j : Nat) (v : α) :
    Tbl.get d (Tbl.insert k v (Tbl.erase k t)) j = if j = k then v else Tbl.get d t j := by
  induction t with
  | nil => simp only [Tbl.erase, Tbl.insert, Tbl.get, eq_comm]
  | cons e t ih =>
    obtain ⟨i, w⟩ := e
    by_cases hik : i = k
    · subst hik
      rw [Tbl.erase, if_pos rfl, ih, Tbl.get]
      by_cases hj : j = i
      · simp [hj]
      · simp [hj, Ne.symm hj]
    · rw [Tbl.erase, if_neg hik, Tbl.insert]
      by_cases hlt : k < i
      · rw [if_pos hlt, Tbl.get, Tbl.get, Tbl.get_erase]
        by_cases hj : j = k
        · simp [hj]
        · simp [hj, Ne.symm hj, Tbl.get]
      · rw [if_neg hlt, Tbl.get, ih, Tbl.get]
        by_cases hj : j = k
        · subst hj; simp [hik]
        · simp [hj]

/-- A read of a table after a write of one index. -/
theorem Tbl.get_set [DecidableEq α] (d : α) (t : Tbl α) (k j : Nat) (v : α) :
    Tbl.get d (Tbl.set d t k v) j = if j = k then v else Tbl.get d t j := by
  unfold Tbl.set
  split
  · next h => rw [Tbl.get_erase, h]
  · rw [Tbl.get_insert]

@[simp] theorem Tbl.get_set_same [DecidableEq α] (d : α) (t : Tbl α) (k : Nat) (v : α) :
    Tbl.get d (Tbl.set d t k v) k = v := by rw [Tbl.get_set, if_pos rfl]

theorem Tbl.get_set_other [DecidableEq α] (d : α) (t : Tbl α) {k j : Nat} (v : α) (h : j ≠ k) :
    Tbl.get d (Tbl.set d t k v) j = Tbl.get d t j := by rw [Tbl.get_set, if_neg h]

@[simp] theorem Tbl.get_nil (d : α) (k : Nat) : Tbl.get d [] k = d := rfl

/-! ### The canonical form -/

variable [DecidableEq α]

theorem Tbl.wfFrom_mono {d : α} {t : Tbl α} {a b : Nat} (hab : a ≤ b) (h : Tbl.wfFrom d b t = true) : Tbl.wfFrom d a t = true := by
  cases t with
  | nil => rfl
  | cons e t =>
    simp only [Tbl.wfFrom, Bool.and_eq_true, decide_eq_true_eq] at h ⊢
    exact ⟨⟨by omega, h.1.2⟩, h.2⟩

theorem Tbl.wfFrom_filter {d : α} (p : Nat × α → Bool) {t : Tbl α} {lo : Nat} (h : Tbl.wfFrom d lo t = true) :
    Tbl.wfFrom d lo (t.filter p) = true := by
  induction t generalizing lo with
  | nil => rfl
  | cons e t ih =>
    simp only [Tbl.wfFrom, Bool.and_eq_true, decide_eq_true_eq] at h
    rw [List.filter_cons]
    split
    · simp only [Tbl.wfFrom, Bool.and_eq_true, decide_eq_true_eq]
      exact ⟨h.1, ih h.2⟩
    · exact ih (Tbl.wfFrom_mono (by omega) h.2)

theorem Tbl.wfFrom_erase {d : α} (k : Nat) {t : Tbl α} {lo : Nat} (h : Tbl.wfFrom d lo t = true) :
    Tbl.wfFrom d lo (Tbl.erase k t) = true := by
  induction t generalizing lo with
  | nil => rfl
  | cons e t ih =>
    simp only [Tbl.wfFrom, Bool.and_eq_true, decide_eq_true_eq] at h
    rw [Tbl.erase]
    split
    · exact ih (Tbl.wfFrom_mono (by omega) h.2)
    · simp only [Tbl.wfFrom, Bool.and_eq_true, decide_eq_true_eq]
      exact ⟨h.1, ih h.2⟩

theorem Tbl.wfFrom_insert_erase {d : α} {k lo : Nat} {v : α} {t : Tbl α} (hlo : lo ≤ k) (hv : v ≠ d) (h : Tbl.wfFrom d lo t = true) :
    Tbl.wfFrom d lo (Tbl.insert k v (Tbl.erase k t)) = true := by
  induction t generalizing lo with
  | nil => simp [Tbl.erase, Tbl.insert, Tbl.wfFrom, hlo, hv]
  | cons e t ih =>
    obtain ⟨j, w⟩ := e
    simp only [Tbl.wfFrom, Bool.and_eq_true, decide_eq_true_eq] at h
    rw [Tbl.erase]
    split
    · exact ih hlo (Tbl.wfFrom_mono (by omega) h.2)
    · next hjk =>
      rw [Tbl.insert]
      split
      · next hlt =>
        simp only [Tbl.wfFrom, Bool.and_eq_true, decide_eq_true_eq]
        exact ⟨⟨hlo, hv⟩, ⟨⟨by omega, h.1.2⟩, Tbl.wfFrom_erase k h.2⟩⟩
      · simp only [Tbl.wfFrom, Bool.and_eq_true, decide_eq_true_eq]
        exact ⟨h.1, ih (by omega) h.2⟩

/-- A write of one index keeps the canonical form. -/
theorem Tbl.wf_set {d : α} {t : Tbl α} (k : Nat) (v : α) (h : Tbl.wf d t = true) : Tbl.wf d (Tbl.set d t k v) = true := by
  unfold Tbl.set
  split
  · exact Tbl.wfFrom_erase k h
  · next hv => exact Tbl.wfFrom_insert_erase (Nat.zero_le k) hv h

/-- Taking entries out keeps the canonical form. -/
theorem Tbl.wf_filter {d : α} {t : Tbl α} (p : Nat × α → Bool) (h : Tbl.wf d t = true) : Tbl.wf d (t.filter p) = true :=
  Tbl.wfFrom_filter p h

theorem Tbl.wf_clearRange {d : α} {t : Tbl α} (lo n : Nat) (h : Tbl.wf d t = true) : Tbl.wf d (Tbl.clearRange t lo n) = true :=
  Tbl.wfFrom_filter _ h

omit [DecidableEq α] in
theorem Tbl.get_filter_of_not {d : α} (p : Nat × α → Bool) (t : Tbl α) (k : Nat) (hp : ∀ v, p (k, v) = true) :
    Tbl.get d (t.filter p) k = Tbl.get d t k := by
  induction t with
  | nil => rfl
  | cons e t ih =>
    obtain ⟨j, v⟩ := e
    rw [List.filter_cons]
    by_cases hjk : j = k
    · subst hjk; simp [hp, Tbl.get]
    · split <;> simp [Tbl.get, hjk, ih]

/-- A table in canonical form lists no entry below its bound. -/
theorem Tbl.get_lt {d : α} {t : Tbl α} {lo k : Nat} (h : Tbl.wfFrom d lo t = true) (hk : k < lo) : Tbl.get d t k = d := by
  induction t generalizing lo with
  | nil => rfl
  | cons e t ih =>
    obtain ⟨j, v⟩ := e
    simp only [Tbl.wfFrom, Bool.and_eq_true, decide_eq_true_eq] at h
    rw [Tbl.get, if_neg (by omega)]
    exact ih h.2 (by omega)

/-- Two tables in canonical form that read alike are the same list. -/
theorem Tbl.ext_of_wf {d : α} {t u : Tbl α} {lo : Nat} (ht : Tbl.wfFrom d lo t = true) (hu : Tbl.wfFrom d lo u = true)
    (h : ∀ k, Tbl.get d t k = Tbl.get d u k) : t = u := by
  induction t generalizing u lo with
  | nil =>
    cases u with
    | nil => rfl
    | cons e u =>
      obtain ⟨j, v⟩ := e
      simp only [Tbl.wfFrom, Bool.and_eq_true, decide_eq_true_eq] at hu
      have := h j
      simp [Tbl.get] at this
      exact absurd this.symm hu.1.2
  | cons e t ih =>
    obtain ⟨i, w⟩ := e
    simp only [Tbl.wfFrom, Bool.and_eq_true, decide_eq_true_eq] at ht
    cases u with
    | nil =>
      have := h i
      simp [Tbl.get] at this
      exact absurd this ht.1.2
    | cons e u =>
      obtain ⟨j, v⟩ := e
      simp only [Tbl.wfFrom, Bool.and_eq_true, decide_eq_true_eq] at hu
      have hij : i = j := by
        rcases Nat.lt_trichotomy i j with hlt | heq | hgt
        · have := h i
          rw [Tbl.get, if_pos rfl, Tbl.get, if_neg (by omega), Tbl.get_lt hu.2 (by omega)] at this
          exact absurd this ht.1.2
        · exact heq
        · have := h j
          rw [Tbl.get, if_neg (by omega), Tbl.get, if_pos rfl, Tbl.get_lt ht.2 (by omega)] at this
          exact absurd this.symm hu.1.2
      subst hij
      have hvw : w = v := by simpa [Tbl.get] using h i
      subst hvw
      refine congrArg _ (ih ht.2 hu.2 fun k => ?_)
      by_cases hk : k = i
      · subst hk; rw [Tbl.get_lt ht.2 (by omega), Tbl.get_lt hu.2 (by omega)]
      · simpa [Tbl.get, Ne.symm hk] using h k

end Sys2Proof
end

