-- ==== Sys2Proof/Laws/Frame.lean ====
section
/-! SUPPORT. Footprints: how they compose, and the footprints of the primitive updates, from which those of every operation follow. -/

namespace Sys2Proof.Machine

/-! ### Footprints -/

theorem Foot.hasComp_of_le {f g : Foot} (h : f.le g = true) {c : Comp} (hg : g.hasComp c = false) : f.hasComp c = false := by
  simp only [Foot.le, Bool.and_eq_true, beq_iff_eq] at h
  have := congrArg (Nat.testBit · c.ctorIdx) h.1
  simp only [Nat.testBit_or, Foot.hasComp] at this hg ⊢
  cases hf : f.comps.testBit c.ctorIdx
  · rfl
  · simp [hf, hg] at this

theorem Foot.hasReg_of_le {f g : Foot} (h : f.le g = true) {r : Reg} (hg : g.hasReg r = false) : f.hasReg r = false := by
  simp only [Foot.le, Bool.and_eq_true, beq_iff_eq] at h
  have := congrArg (Nat.testBit · r.ctorIdx) h.2
  simp only [Nat.testBit_or, Foot.hasReg] at this hg ⊢
  cases hf : f.regs.testBit r.ctorIdx
  · rfl
  · simp [hf, hg] at this

theorem Within.refl (f : Foot) (s : State) : Within f s s := by
  constructor <;> intros <;> first | rfl | assumption

/-- A change within `g` after one within `f`, both within `f`. -/
theorem Within.after {f g : Foot} {s t u : State} (h : Within g t u) (h0 : Within f s t) (hle : g.le f = true) : Within f s u where
  pending := h.pending.trans h0.pending
  word r hr i := (h.word r (Foot.hasReg_of_le hle hr) i).trans (h0.word r hr i)
  free hc := (h.free (Foot.hasComp_of_le hle hc)).trans (h0.free hc)
  tick hc := (h.tick (Foot.hasComp_of_le hle hc)).trans (h0.tick hc)
  quads hc := (h.quads (Foot.hasComp_of_le hle hc)).trans (h0.quads hc)
  lanes hc := (h.lanes (Foot.hasComp_of_le hle hc)).trans (h0.lanes hc)
  links hc := (h.links (Foot.hasComp_of_le hle hc)).trans (h0.links hc)
  lag hc := (h.lag (Foot.hasComp_of_le hle hc)).trans (h0.lag hc)
  prot hc := (h.prot (Foot.hasComp_of_le hle hc)).trans (h0.prot hc)
  core hc := (h.core (Foot.hasComp_of_le hle hc)).trans (h0.core hc)
  act hc := (h.act (Foot.hasComp_of_le hle hc)).trans (h0.act hc)
  latch hc := (h.latch (Foot.hasComp_of_le hle hc)).trans (h0.latch hc)
  irqs hc := (h.irqs (Foot.hasComp_of_le hle hc)).trans (h0.irqs hc)
  log hc := (h.log (Foot.hasComp_of_le hle hc)).trans (h0.log hc)
  pm hc := (h.pm (Foot.hasComp_of_le hle hc)).trans (h0.pm hc)
  boot hc := (h.boot (Foot.hasComp_of_le hle hc)).trans (h0.boot hc)
  nvm hc := (h.nvm (Foot.hasComp_of_le hle hc)).trans (h0.nvm hc)
  jtag hc := (h.jtag (Foot.hasComp_of_le hle hc)).trans (h0.jtag hc)
  mate hc := (h.mate (Foot.hasComp_of_le hle hc)).trans (h0.mate hc)
  alm hc := (h.alm (Foot.hasComp_of_le hle hc)).trans (h0.alm hc)
  ecc hc := (h.ecc (Foot.hasComp_of_le hle hc)).trans (h0.ecc hc)
  tim hc := (h.tim (Foot.hasComp_of_le hle hc)).trans (h0.tim hc)
  bus hc := (h.bus (Foot.hasComp_of_le hle hc)).trans (h0.bus hc)
  dieId hc := (h.dieId (Foot.hasComp_of_le hle hc)).trans (h0.dieId hc)
  factory hc := (h.factory (Foot.hasComp_of_le hle hc)).trans (h0.factory hc)
  fieldMap hc := (h.fieldMap (Foot.hasComp_of_le hle hc)).trans (h0.fieldMap hc)
  flashMiB hc := (h.flashMiB (Foot.hasComp_of_le hle hc)).trans (h0.flashMiB hc)
  flash hc := (h.flash (Foot.hasComp_of_le hle hc)).trans (h0.flash hc)
  stuck hc := (h.stuck (Foot.hasComp_of_le hle hc)).trans (h0.stuck hc)
  events hc a ha := (h.events (Foot.hasComp_of_le hle hc) a ha).trans (h0.events hc a ha)
  hbm hc a ha := (h.hbm (Foot.hasComp_of_le hle hc) a ha).trans (h0.hbm hc a ha)
  hbmWf w := h.hbmWf (h0.hbmWf w)
  flashWf w := h.flashWf (h0.flashWf w)

/-- A footprint may be widened. -/
theorem Within.mono {f g : Foot} {s t : State} (h : Within f s t) (hle : f.le g = true) : Within g s t := h.after (.refl g s) hle

/-! ### Updates of one part -/

theorem Within.set_free {f : Foot} {s x : State} {v} (h : Within f s x) (hc : f.hasComp .free = true) : Within f s { x with free := v } :=
  { h with free := fun n => by simp [hc] at n }

theorem Within.set_tick {f : Foot} {s x : State} {v} (h : Within f s x) (hc : f.hasComp .tick = true) : Within f s { x with tick := v } :=
  { h with tick := fun n => by simp [hc] at n }

theorem Within.set_quads {f : Foot} {s x : State} {v} (h : Within f s x) (hc : f.hasComp .quads = true) : Within f s { x with quads := v } :=
  { h with quads := fun n => by simp [hc] at n }

theorem Within.set_lanes {f : Foot} {s x : State} {v} (h : Within f s x) (hc : f.hasComp .lanes = true) : Within f s { x with lanes := v } :=
  { h with lanes := fun n => by simp [hc] at n }

theorem Within.set_links {f : Foot} {s x : State} {v} (h : Within f s x) (hc : f.hasComp .links = true) : Within f s { x with links := v } :=
  { h with links := fun n => by simp [hc] at n }

theorem Within.set_lag {f : Foot} {s x : State} {v} (h : Within f s x) (hc : f.hasComp .lag = true) : Within f s { x with lag := v } :=
  { h with lag := fun n => by simp [hc] at n }

theorem Within.set_prot {f : Foot} {s x : State} {v} (h : Within f s x) (hc : f.hasComp .prot = true) : Within f s { x with prot := v } :=
  { h with prot := fun n => by simp [hc] at n }

theorem Within.set_core {f : Foot} {s x : State} {v} (h : Within f s x) (hc : f.hasComp .core = true) : Within f s { x with core := v } :=
  { h with core := fun n => by simp [hc] at n }

theorem Within.set_act {f : Foot} {s x : State} {v} (h : Within f s x) (hc : f.hasComp .act = true) : Within f s { x with act := v } :=
  { h with act := fun n => by simp [hc] at n }

theorem Within.set_latch {f : Foot} {s x : State} {v} (h : Within f s x) (hc : f.hasComp .latch = true) : Within f s { x with latch := v } :=
  { h with latch := fun n => by simp [hc] at n }

theorem Within.set_irqs {f : Foot} {s x : State} {v} (h : Within f s x) (hc : f.hasComp .irqs = true) : Within f s { x with irqs := v } :=
  { h with irqs := fun n => by simp [hc] at n }

theorem Within.set_log {f : Foot} {s x : State} {v} (h : Within f s x) (hc : f.hasComp .log = true) : Within f s { x with log := v } :=
  { h with log := fun n => by simp [hc] at n }

theorem Within.set_pm {f : Foot} {s x : State} {v} (h : Within f s x) (hc : f.hasComp .pm = true) : Within f s { x with pm := v } :=
  { h with pm := fun n => by simp [hc] at n }

theorem Within.set_boot {f : Foot} {s x : State} {v} (h : Within f s x) (hc : f.hasComp .boot = true) : Within f s { x with boot := v } :=
  { h with boot := fun n => by simp [hc] at n }

theorem Within.set_nvm {f : Foot} {s x : State} {v} (h : Within f s x) (hc : f.hasComp .nvm = true) : Within f s { x with nvm := v } :=
  { h with nvm := fun n => by simp [hc] at n }

theorem Within.set_jtag {f : Foot} {s x : State} {v} (h : Within f s x) (hc : f.hasComp .jtag = true) : Within f s { x with jtag := v } :=
  { h with jtag := fun n => by simp [hc] at n }

theorem Within.set_mate {f : Foot} {s x : State} {v} (h : Within f s x) (hc : f.hasComp .mate = true) : Within f s { x with mate := v } :=
  { h with mate := fun n => by simp [hc] at n }

theorem Within.set_alm {f : Foot} {s x : State} {v} (h : Within f s x) (hc : f.hasComp .alm = true) : Within f s { x with alm := v } :=
  { h with alm := fun n => by simp [hc] at n }

theorem Within.set_ecc {f : Foot} {s x : State} {v} (h : Within f s x) (hc : f.hasComp .ecc = true) : Within f s { x with ecc := v } :=
  { h with ecc := fun n => by simp [hc] at n }

theorem Within.set_tim {f : Foot} {s x : State} {v} (h : Within f s x) (hc : f.hasComp .tim = true) : Within f s { x with tim := v } :=
  { h with tim := fun n => by simp [hc] at n }

theorem Within.set_bus {f : Foot} {s x : State} {v} (h : Within f s x) (hc : f.hasComp .bus = true) : Within f s { x with bus := v } :=
  { h with bus := fun n => by simp [hc] at n }

theorem Within.set_dieId {f : Foot} {s x : State} {v} (h : Within f s x) (hc : f.hasComp .dieId = true) :
    Within f s { x with nv := { x.nv with dieId := v } } := { h with dieId := fun n => by simp [hc] at n }

theorem Within.set_factory {f : Foot} {s x : State} {v} (h : Within f s x) (hc : f.hasComp .factory = true) :
    Within f s { x with nv := { x.nv with factory := v } } := { h with factory := fun n => by simp [hc] at n }

theorem Within.set_fieldMap {f : Foot} {s x : State} {v} (h : Within f s x) (hc : f.hasComp .fieldMap = true) :
    Within f s { x with nv := { x.nv with fieldMap := v } } := { h with fieldMap := fun n => by simp [hc] at n }

theorem Within.set_flashMiB {f : Foot} {s x : State} {v} (h : Within f s x) (hc : f.hasComp .flashMiB = true) :
    Within f s { x with nv := { x.nv with flashMiB := v } } := { h with flashMiB := fun n => by simp [hc] at n }

theorem Within.set_stuck {f : Foot} {s x : State} {v} (h : Within f s x) (hc : f.hasComp .stuck = true) :
    Within f s { x with nv := { x.nv with stuck := v } } := { h with stuck := fun n => by simp [hc] at n }

theorem Within.set_boot_mate {f : Foot} {s x : State} {v_boot v_mate} (h : Within f s x) (h_boot : f.hasComp .boot = true) (h_mate : f.hasComp .mate = true) :
    Within f s { x with boot := v_boot, mate := v_mate } :=
  { h with
    boot := fun n => by simp [h_boot] at n
    mate := fun n => by simp [h_mate] at n }

theorem Within.set_log_mate {f : Foot} {s x : State} {v_log v_mate} (h : Within f s x) (h_log : f.hasComp .log = true) (h_mate : f.hasComp .mate = true) :
    Within f s { x with log := v_log, mate := v_mate } :=
  { h with
    log := fun n => by simp [h_log] at n
    mate := fun n => by simp [h_mate] at n }

theorem Within.set_tick_core {f : Foot} {s x : State} {v_tick v_core} (h : Within f s x) (h_tick : f.hasComp .tick = true) (h_core : f.hasComp .core = true) :
    Within f s { x with tick := v_tick, core := v_core } :=
  { h with
    tick := fun n => by simp [h_tick] at n
    core := fun n => by simp [h_core] at n }

theorem Within.set_act_latch {f : Foot} {s x : State} {v_act v_latch} (h : Within f s x) (h_act : f.hasComp .act = true) (h_latch : f.hasComp .latch = true) :
    Within f s { x with act := v_act, latch := v_latch } :=
  { h with
    act := fun n => by simp [h_act] at n
    latch := fun n => by simp [h_latch] at n }

theorem Within.set_core_alm {f : Foot} {s x : State} {v_core v_alm} (h : Within f s x) (h_core : f.hasComp .core = true) (h_alm : f.hasComp .alm = true) :
    Within f s { x with core := v_core, alm := v_alm } :=
  { h with
    core := fun n => by simp [h_core] at n
    alm := fun n => by simp [h_alm] at n }

theorem Within.set_alm_tim {f : Foot} {s x : State} {v_alm v_tim} (h : Within f s x) (h_alm : f.hasComp .alm = true) (h_tim : f.hasComp .tim = true) :
    Within f s { x with alm := v_alm, tim := v_tim } :=
  { h with
    alm := fun n => by simp [h_alm] at n
    tim := fun n => by simp [h_tim] at n }

theorem Within.set_prot_core_ecc {f : Foot} {s x : State} {v_prot v_core v_ecc} (h : Within f s x) (h_prot : f.hasComp .prot = true) (h_core : f.hasComp .core = true) (h_ecc : f.hasComp .ecc = true) :
    Within f s { x with prot := v_prot, core := v_core, ecc := v_ecc } :=
  { h with
    prot := fun n => by simp [h_prot] at n
    core := fun n => by simp [h_core] at n
    ecc := fun n => by simp [h_ecc] at n }

theorem Within.set_flash {f : Foot} {s x : State} {v} (h : Within f s x) (hc : f.hasComp .flash = true)
    (hw : Machine.flashWf x.nv.flash = true → Machine.flashWf v = true) : Within f s { x with nv := { x.nv with flash := v } } :=
  { h with flash := (fun n => by simp [hc] at n), flashWf := fun w => hw (h.flashWf w) }

theorem Within.set_hbm {f : Foot} {s x : State} {v} (h : Within f s x)
    (hh : f.hasComp .hbm = false → ∀ a, inEvents a = false → memByte v a = memByte x.hbm a)
    (he : f.hasComp .events = false → ∀ a, inEvents a = true → memByte v a = memByte x.hbm a)
    (hw : Memory.wf x.hbm = true → Memory.wf v = true) : Within f s { x with hbm := v } :=
  { h with
    hbm := fun n a ha => (hh n a ha).trans (h.hbm n a ha)
    events := fun n a ha => (he n a ha).trans (h.events n a ha)
    hbmWf := fun w => hw (h.hbmWf w) }

theorem Within.set_hbm_any {f : Foot} {s x : State} {v} (h : Within f s x) (hh : f.hasComp .hbm = true) (he : f.hasComp .events = true)
    (hw : Memory.wf x.hbm = true → Memory.wf v = true) : Within f s { x with hbm := v } :=
  h.set_hbm (fun n => by simp [hh] at n) (fun n => by simp [he] at n) hw

theorem Foot.allRegs_hasReg (cs : List Comp) (r : Reg) : (Foot.allRegs cs).hasReg r = true := by
  have h : Foot.all.hasReg r = true := by cases r <;> decide
  exact h

theorem Foot.all_hasReg (r : Reg) : Foot.all.hasReg r = true := by
  cases r <;> decide

theorem Foot.le_trans {f g k : Foot} (h : f.le g = true) (h' : g.le k = true) : f.le k = true := by
  simp only [Foot.le, Bool.and_eq_true, beq_iff_eq] at *
  constructor
  · rw [← h'.1, ← Nat.or_assoc, h.1]
  · rw [← h'.2, ← Nat.or_assoc, h.2]

theorem Within.of_eq {α : Type} {f : Foot} {s y : State} {p : α × State} {w : α} (h : Within f s p.2) (e : p = (w, y)) : Within f s y := by
  rw [e] at h; exact h

theorem Within.of_eq2 {α β : Type} {f : Foot} {s y : State} {p : α × β × State} {w : α} {v : β} (h : Within f s p.2.2) (e : p = (w, v, y)) :
    Within f s y := by
  rw [e] at h; exact h

/-! ### Registers -/

theorem Reg.ctorIdx_inj {r q : Reg} (h : r.ctorIdx = q.ctorIdx) : r = q := by
  rw [← Reg.ofNat_ctorIdx r, ← Reg.ofNat_ctorIdx q, h]

/-- A register word after a write of one. -/
theorem State.word_setWord (s : State) (r q : Reg) (i j : Nat) (v : Word) :
    (s.setWord r i v).word q j = if q = r ∧ j = i then v else s.word q j := by
  unfold State.word State.setWord
  dsimp only
  rw [Tbl.get_set]
  by_cases hq : q = r
  · subst hq
    rw [if_pos rfl, Tbl.get_set]
    simp
  · rw [if_neg fun h => hq (Reg.ctorIdx_inj h)]
    simp [hq]

theorem Within.setWord {f : Foot} {s x : State} (r : Reg) (i : Nat) (v : Word) (h : Within f s x) (hr : f.hasReg r = true) :
    Within f s (x.setWord r i v) :=
  { h with
    word := fun q hq j => by
      rw [State.word_setWord, if_neg fun e => by rw [e.1, hr] at hq; cases hq]
      exact h.word q hq j }

theorem Within.wr {f : Foot} {s x : State} (g : Field) (i v : Nat) (h : Within f s x) (hr : f.hasReg g.reg = true) :
    Within f s (x.wr g i v) := h.setWord _ _ _ hr

theorem Within.setFlag {f : Foot} {s x : State} (g : Field) (i : Nat) (b : Bool) (h : Within f s x) (hr : f.hasReg g.reg = true) :
    Within f s (x.setFlag g i b) := h.setWord _ _ _ hr

theorem Within.wrBit {f : Foot} {s x : State} (g : Field) (i k : Nat) (b : Bool) (h : Within f s x) (hr : f.hasReg g.reg = true) :
    Within f s (x.wrBit g i k b) := h.setWord _ _ _ hr

theorem Within.wrS {f : Foot} {s x : State} (g : Field) (i : Nat) (v : Int) (h : Within f s x) (hr : f.hasReg g.reg = true) :
    Within f s (x.wrS g i v) := h.setWord _ _ _ hr

theorem Within.countBy {f : Foot} {s x : State} (r : Reg) (i n : Nat) (h : Within f s x) (hr : f.hasReg r = true) :
    Within f s (x.countBy r i n) := h.setWord _ _ _ hr

theorem Within.count {f : Foot} {s x : State} (r : Reg) (i : Nat) (h : Within f s x) (hr : f.hasReg r = true) :
    Within f s (x.count r i) := h.setWord _ _ _ hr

theorem Within.setLaneBit {f : Foot} {s x : State} (g : Field) (l : Nat) (b : Bool) (h : Within f s x) (hr : f.hasReg g.reg = true) :
    Within f s (x.setLaneBit g l b) := h.setWord _ _ _ hr

/-! ### Conditions and loops -/

theorem Within.when {f : Foot} {s x : State} (b : Bool) (g : State → State) (h : Within f s x) (hg : ∀ y, Within f s y → Within f s (g y)) :
    Within f s (x.when b g) := by
  unfold State.when
  split
  · exact hg x h
  · exact h

theorem Within.foldl {α : Type} {f : Foot} {s x : State} (l : List α) (g : State → α → State) (h : Within f s x)
    (hg : ∀ y a, Within f s y → Within f s (g y a)) : Within f s (l.foldl g x) := by
  induction l generalizing x with
  | nil => exact h
  | cons a l ih => exact ih (hg x a h)

theorem Within.each {α : Type} {f : Foot} {s x : State} (l : List α) (g : α → State → State) (h : Within f s x)
    (hg : ∀ a y, Within f s y → Within f s (g a y)) : Within f s (x.each l g) := h.foldl l _ fun y a => hg a y

theorem Within.each_mem {α : Type} {f : Foot} {s x : State} (l : List α) (g : α → State → State) (h : Within f s x)
    (hg : ∀ a ∈ l, ∀ y, Within f s y → Within f s (g a y)) : Within f s (x.each l g) := by
  unfold State.each
  induction l generalizing x with
  | nil => exact h
  | cons a l ih => exact ih (hg a (List.mem_cons_self ..) x h) fun b hb => hg b (List.mem_cons_of_mem _ hb)

theorem Within.foldl_of {α σ : Type} {f : Foot} {s : State} (p : σ → State) (l : List α) (g : σ → α → σ) (acc : σ)
    (h : Within f s (p acc)) (hg : ∀ a acc, Within f s (p acc) → Within f s (p (g acc a))) : Within f s (p (l.foldl g acc)) := by
  induction l generalizing acc with
  | nil => exact h
  | cons a l ih => exact ih _ (hg a acc h)

theorem Within.iter {f : Foot} {s x : State} (g : Nat → State → State) (lo n : Nat) (h : Within f s x)
    (hg : ∀ k y, Within f s y → Within f s (g k y)) : Within f s (iter g lo n x) := by
  induction n generalizing lo x with
  | zero => exact h
  | succ n ih => exact ih (lo + 1) (hg lo x h)

theorem Within.ite {c : Prop} [Decidable c] {f : Foot} {s x y : State} (hthen : Within f s x) (helse : Within f s y) :
    Within f s (if c then x else y) := by
  split <;> assumption

theorem Within.foldl_snd {α β : Type} {f : Foot} {s : State} (l : List α) (g : β × State → α → β × State) (acc : β × State)
    (h : Within f s acc.2) (hg : ∀ a acc, Within f s acc.2 → Within f s (g acc a).2) : Within f s (l.foldl g acc).2 := by
  induction l generalizing acc with
  | nil => exact h
  | cons a l ih => exact ih _ (hg a acc h)

theorem Within.iter_snd {β : Type} {f : Foot} {s : State} (g : Nat → β × State → β × State) (lo n : Nat) (acc : β × State)
    (h : Within f s acc.2) (hg : ∀ k acc, Within f s acc.2 → Within f s (g k acc).2) : Within f s (Sys2Proof.iter g lo n acc).2 := by
  induction n generalizing lo acc with
  | zero => exact h
  | succ n ih => exact ih _ _ (hg lo acc h)

theorem Within.eachN {f : Foot} {s x : State} (n : Nat) (g : Nat → State → State) (h : Within f s x)
    (hg : ∀ k y, Within f s y → Within f s (g k y)) : Within f s (x.eachN n g) := h.iter g 0 n hg

/-! ### HBM bytes -/

theorem memByte_memWrite_out (bs : List Byte) (a b : Nat) (m : Memory) (h : b < a ∨ a + bs.length ≤ b) :
    memByte (memWrite bs a m) b = memByte m b := by
  induction bs generalizing a m with
  | nil => rfl
  | cons c bs ih =>
    rw [memWrite, ih _ _ (by simp only [List.length_cons] at h; omega)]
    exact Tbl.get_set_other _ _ _ (by simp only [List.length_cons] at h; omega)

/-- A write keeps the canonical form. -/
theorem memWrite_wf (bs : List Byte) (a : Nat) (m : Memory) (h : Memory.wf m = true) : Memory.wf (memWrite bs a m) = true := by
  induction bs generalizing a m with
  | nil => exact h
  | cons c bs ih => exact ih _ _ (Tbl.wf_set a c h)

end Sys2Proof.Machine
end

