-- ==== Sys2Proof/Laws/Footprint/Ops.lean ====
section
/-! SUPPORT. What each operation of Machine/Ops.lean may touch. -/

namespace Sys2Proof.Machine

theorem State.setQuad_within (s : State) (q : Nat) (v : QuadH) :
    Within (.of [.quads] []) s (State.setQuad s q v) := by
  delta State.setQuad
  repeat' first
    | with_reducible assumption
    | with_reducible apply Within.refl
    | with_reducible apply Within.ite
    | ((with_reducible apply Within.set_quads); (case hc => decide))
    | split
    | dsimp -zeta only

theorem State.setLane_within (s : State) (l : Nat) (v : LaneH) :
    Within (.of [.lanes] []) s (State.setLane s l v) := by
  delta State.setLane
  repeat' first
    | with_reducible assumption
    | with_reducible apply Within.refl
    | with_reducible apply Within.ite
    | ((with_reducible apply Within.set_lanes); (case hc => decide))
    | split
    | dsimp -zeta only

theorem State.setLink_within (s : State) (l : Nat) (v : LinkH) :
    Within (.of [.links] []) s (State.setLink s l v) := by
  delta State.setLink
  repeat' first
    | with_reducible assumption
    | with_reducible apply Within.refl
    | with_reducible apply Within.ite
    | ((with_reducible apply Within.set_links); (case hc => decide))
    | split
    | dsimp -zeta only

theorem State.setRx_within (s : State) (l : Nat) (v : RxH) :
    Within (.of [.links] []) s (State.setRx s l v) := by
  delta State.setRx
  repeat' first
    | with_reducible assumption
    | with_reducible apply Within.refl
    | ((with_reducible apply Within.after (State.setLink_within ..)); (case hle => decide))
    | with_reducible apply Within.ite
    | split
    | dsimp -zeta only

theorem State.setTx_within (s : State) (l : Nat) (v : TxH) :
    Within (.of [.links] []) s (State.setTx s l v) := by
  delta State.setTx
  repeat' first
    | with_reducible assumption
    | with_reducible apply Within.refl
    | ((with_reducible apply Within.after (State.setLink_within ..)); (case hle => decide))
    | with_reducible apply Within.ite
    | split
    | dsimp -zeta only

theorem State.setLagLink_within (s : State) (l : Nat) (v : LagLinkH) :
    Within (.of [.lag] []) s (State.setLagLink s l v) := by
  delta State.setLagLink
  repeat' first
    | with_reducible assumption
    | with_reducible apply Within.refl
    | with_reducible apply Within.ite
    | ((with_reducible apply Within.set_lag); (case hc => decide))
    | split
    | dsimp -zeta only

theorem State.setGroup_within (s : State) (g : Nat) (v : GroupH) :
    Within (.of [.prot] []) s (State.setGroup s g v) := by
  delta State.setGroup
  repeat' first
    | with_reducible assumption
    | with_reducible apply Within.refl
    | with_reducible apply Within.ite
    | ((with_reducible apply Within.set_prot); (case hc => decide))
    | split
    | dsimp -zeta only

theorem State.takeFree_within (s : State) :
    Within (.of [.free] []) s (State.takeFree s).2 := by
  delta State.takeFree
  repeat' first
    | with_reducible assumption
    | with_reducible apply Within.refl
    | with_reducible apply Within.ite
    | ((with_reducible apply Within.set_free); (case hc => decide))
    | split
    | dsimp -zeta only

theorem State.irqSync_within (s : State) :
    Within (.of [.irqs] []) s (State.irqSync s) := by
  delta State.irqSync
  repeat' first
    | with_reducible assumption
    | with_reducible apply Within.refl
    | (intro x
       have hx : Within (.of [.irqs] []) s x := by
         dsimp -zeta only [x]
         repeat' first
           | with_reducible assumption
           | with_reducible apply Within.refl
           | with_reducible apply Within.ite
           | ((with_reducible apply Within.set_irqs); (case hc => decide))
           | split
           | dsimp -zeta only
           | dsimp +zetaDelta only
       clear_value x)
    | intro x
    | lift_lets
    | with_reducible apply Within.ite
    | ((with_reducible apply Within.set_irqs); (case hc => decide))
    | split
    | dsimp -zeta only
    | dsimp +zetaDelta only

theorem State.setSrc_within (s : State) (m : Nat) (v : Nat) :
    Within (.of [] [.sysIntSrc]) s (State.setSrc s m v) := by
  delta State.setSrc
  repeat' first
    | with_reducible assumption
    | with_reducible apply Within.refl
    | ((with_reducible apply Within.setWord); (case hr => first | decide | exact Foot.allRegs_hasReg _ _ | exact Foot.all_hasReg _ | (subst_vars; decide) | ((try dsimp +zetaDelta only); split <;> first | decide | (split <;> first | decide | (split <;> decide)))))
    | with_reducible apply Within.ite
    | split
    | dsimp -zeta only

theorem State.meter_within (s : State) (r : Reg) (i : Nat) (n : Nat) :
    Within (.of [.pm] []) s (State.meter s r i n) := by
  delta State.meter
  repeat' first
    | with_reducible assumption
    | with_reducible apply Within.refl
    | with_reducible apply Within.ite
    | ((with_reducible apply Within.set_pm); (case hc => decide))
    | split
    | dsimp -zeta only

theorem State.meterMax_within (s : State) (r : Reg) (i : Nat) (n : Nat) :
    Within (.of [.pm] []) s (State.meterMax s r i n) := by
  delta State.meterMax
  repeat' first
    | with_reducible assumption
    | with_reducible apply Within.refl
    | with_reducible apply Within.ite
    | ((with_reducible apply Within.set_pm); (case hc => decide))
    | split
    | dsimp -zeta only

theorem State.grantOf_within (s : State) (m : Nat) (t : Nat) (n : Nat) (beats : Nat) :
    Within (.of [.pm, .bus] [.busGrants]) s (State.grantOf s m t n beats) := by
  delta State.grantOf
  repeat' first
    | with_reducible assumption
    | with_reducible apply Within.refl
    | ((with_reducible apply Within.countBy); (case hr => first | decide | exact Foot.allRegs_hasReg _ _ | exact Foot.all_hasReg _ | (subst_vars; decide) | ((try dsimp +zetaDelta only); split <;> first | decide | (split <;> first | decide | (split <;> decide)))))
    | ((with_reducible apply Within.after (State.meter_within ..)); (case hle => decide))
    | (intro x
       have hx : Within (.of [.pm, .bus] [.busGrants]) s x := by
         dsimp -zeta only [x]
         repeat' first
           | with_reducible assumption
           | with_reducible apply Within.refl
           | ((with_reducible apply Within.countBy); (case hr => first | decide | exact Foot.allRegs_hasReg _ _ | exact Foot.all_hasReg _ | (subst_vars; decide) | ((try dsimp +zetaDelta only); split <;> first | decide | (split <;> first | decide | (split <;> decide)))))
           | ((with_reducible apply Within.after (State.meter_within ..)); (case hle => decide))
           | with_reducible apply Within.ite
           | ((with_reducible apply Within.set_bus); (case hc => decide))
           | split
           | dsimp -zeta only
           | dsimp +zetaDelta only
       clear_value x)
    | intro x
    | lift_lets
    | with_reducible apply Within.ite
    | ((with_reducible apply Within.set_bus); (case hc => decide))
    | split
    | dsimp -zeta only
    | dsimp +zetaDelta only

theorem toBytes_length (n x : Nat) : (toBytes n x).length = n := by
  induction n generalizing x with
  | zero => rfl
  | succ n ih => simp [toBytes, ih]

theorem LogEntry.bytes_length (e : LogEntry) : e.bytes.length = 32 := by simp [LogEntry.bytes, toBytes_length]

theorem State.rd_lt (s : State) (f : Field) (i : Nat) : s.rd f i < 2 ^ f.width := Nat.mod_lt _ (Nat.two_pow_pos _)

/-- The event buffer's write stays in the share of its stack. -/
theorem State.evbWrite_within (s : State) (k : Nat) (e : LogEntry) (hk : k < 4) :
    Within (Foot.of [.pm, .events, .bus] [.busGrants, .logEvbEntries, .sysIntSrc]) s (State.evbWrite s k e) := by
  unfold State.evbWrite
  dsimp only
  generalize hp : (((s.word .logEvbEntries 0).toNat + 2 ^ 64 - (s.word .logEvbBase 0).toNat) % 2 ^ 64) % 1048576 = place
  have hlt : place < 1048576 := hp ▸ Nat.mod_lt _ (by decide)
  have h0 : Within (Foot.of [.pm, .events, .bus] [.busGrants, .logEvbEntries, .sysIntSrc]) s { s with hbm := memWrite e.bytes (stackBase k + 0x584000000 + 32 * place) s.hbm } := by
    refine (Within.refl _ s).set_hbm (fun _ a ha => ?_) (fun n => absurd n (by decide)) (memWrite_wf _ _ _)
    refine memByte_memWrite_out _ _ _ _ ?_
    rw [LogEntry.bytes_length]
    simp only [inEvents, List.any_eq_false, Bool.and_eq_true, decide_eq_true_eq, List.mem_range] at ha
    have := ha k hk
    omega
  have h1 : Within (Foot.of [.pm, .events, .bus] [.busGrants, .logEvbEntries, .sysIntSrc]) s (((State.count { s with hbm := memWrite e.bytes (stackBase k + 0x584000000 + 32 * place) s.hbm } .logEvbEntries 0).meter .pmBwHbmWr k 32).grantOf 5 (21 + k) 1 4) :=
    .after (State.grantOf_within ..) (.after (State.meter_within ..) (h0.count _ _ (by decide)) (by decide)) (by decide)
  split
  · exact .after (State.setSrc_within ..) (.after (State.setSrc_within ..) h1 (by decide)) (by decide)
  · exact h1

theorem State.evbPut_within (s : State) (e : LogEntry) :
    Within (.of [.log, .pm, .events, .bus] [.busGrants, .logEvbEntries, .logDropped, .logEvbLost, .sysIntSrc]) s (State.evbPut s e) := by
  delta State.evbPut
  repeat' first
    | with_reducible assumption
    | with_reducible apply Within.refl
    | ((with_reducible apply Within.count); (case hr => first | decide | exact Foot.allRegs_hasReg _ _ | exact Foot.all_hasReg _ | (subst_vars; decide) | ((try dsimp +zetaDelta only); split <;> first | decide | (split <;> first | decide | (split <;> decide)))))
    | ((with_reducible apply Within.after (State.evbWrite_within _ _ _ (State.rd_lt _ F.logStateEvbStack _))); case hle => decide)
    | (intro x
       have hx : Within (.of [.log, .pm, .events, .bus] [.busGrants, .logEvbEntries, .logDropped, .logEvbLost, .sysIntSrc]) s x := by
         dsimp -zeta only [x]
         repeat' first
           | with_reducible assumption
           | with_reducible apply Within.refl
           | ((with_reducible apply Within.count); (case hr => first | decide | exact Foot.allRegs_hasReg _ _ | exact Foot.all_hasReg _ | (subst_vars; decide) | ((try dsimp +zetaDelta only); split <;> first | decide | (split <;> first | decide | (split <;> decide)))))
           | ((with_reducible apply Within.after (State.evbWrite_within _ _ _ (State.rd_lt _ F.logStateEvbStack _))); case hle => decide)
           | with_reducible apply Within.ite
           | ((with_reducible apply Within.set_log); (case hc => decide))
           | split
           | dsimp -zeta only
           | dsimp +zetaDelta only
       clear_value x)
    | intro x
    | lift_lets
    | with_reducible apply Within.ite
    | ((with_reducible apply Within.set_log); (case hc => decide))
    | split
    | dsimp -zeta only
    | dsimp +zetaDelta only

theorem State.stagedSync_within (s : State) :
    Within (.of [] [.logState]) s (State.stagedSync s) := by
  delta State.stagedSync
  repeat' first
    | with_reducible assumption
    | with_reducible apply Within.refl
    | ((with_reducible apply Within.wr); (case hr => first | decide | exact Foot.allRegs_hasReg _ _ | exact Foot.all_hasReg _ | (subst_vars; decide) | ((try dsimp +zetaDelta only); split <;> first | decide | (split <;> first | decide | (split <;> decide)))))
    | with_reducible apply Within.ite
    | split
    | dsimp -zeta only

theorem State.storeCause_within (s : State) (c : Nat) :
    Within (.of [.log] []) s (State.storeCause s c) := by
  delta State.storeCause
  repeat' first
    | with_reducible assumption
    | with_reducible apply Within.refl
    | with_reducible apply Within.ite
    | ((with_reducible apply Within.set_log); (case hc => decide))
    | split
    | dsimp -zeta only

theorem State.stage_within (s : State) (e : LogEntry) :
    Within (.of [.log] [.logState, .logDropped, .logEntries]) s (State.stage s e) := by
  delta State.stage
  repeat' first
    | with_reducible assumption
    | with_reducible apply Within.refl
    | ((with_reducible apply Within.count); (case hr => first | decide | exact Foot.allRegs_hasReg _ _ | exact Foot.all_hasReg _ | (subst_vars; decide) | ((try dsimp +zetaDelta only); split <;> first | decide | (split <;> first | decide | (split <;> decide)))))
    | ((with_reducible apply Within.after (State.stagedSync_within ..)); (case hle => decide))
    | ((with_reducible apply Within.after (State.storeCause_within ..)); (case hle => decide))
    | (intro x
       have hx : Within (.of [.log] [.logState, .logDropped, .logEntries]) s x := by
         dsimp -zeta only [x]
         repeat' first
           | with_reducible assumption
           | with_reducible apply Within.refl
           | ((with_reducible apply Within.count); (case hr => first | decide | exact Foot.allRegs_hasReg _ _ | exact Foot.all_hasReg _ | (subst_vars; decide) | ((try dsimp +zetaDelta only); split <;> first | decide | (split <;> first | decide | (split <;> decide)))))
           | ((with_reducible apply Within.after (State.stagedSync_within ..)); (case hle => decide))
           | ((with_reducible apply Within.after (State.storeCause_within ..)); (case hle => decide))
           | with_reducible apply Within.ite
           | ((with_reducible apply Within.set_log); (case hc => decide))
           | split
           | dsimp -zeta only
           | dsimp +zetaDelta only
       clear_value x)
    | intro x
    | lift_lets
    | with_reducible apply Within.ite
    | ((with_reducible apply Within.set_log); (case hc => decide))
    | split
    | dsimp -zeta only
    | dsimp +zetaDelta only

theorem Within.atEnd {f : Foot} {s x : State} (g : State → State) (h : Within f s x) (hc : f.hasComp .tick = true)
    (hg : ∀ y, Within f s y → Within f s (g y)) : Within f s (x.atEnd g) := (hg _ (h.set_tick hc)).set_tick hc

theorem State.logEvent_within (s : State) (code : Nat) (sev : Nat) (p0 : Nat) (p1 : Nat) (p2 : Nat) (book : Bool) :
    Within (.of [.log, .pm, .events, .bus] [.busGrants, .logState, .logEvbEntries, .logDropped, .logEvbLost, .logEntries, .sysIntSrc]) s (State.logEvent s code sev p0 p1 p2 book) := by
  delta State.logEvent
  repeat' first
    | with_reducible assumption
    | with_reducible apply Within.refl
    | ((with_reducible apply Within.after (State.evbPut_within ..)); (case hle => decide))
    | ((with_reducible apply Within.after (State.stage_within ..)); (case hle => decide))
    | ((with_reducible apply Within.after (State.storeCause_within ..)); (case hle => decide))
    | (intro x
       have hx : Within (.of [.log, .pm, .events, .bus] [.busGrants, .logState, .logEvbEntries, .logDropped, .logEvbLost, .logEntries, .sysIntSrc]) s x := by
         dsimp -zeta only [x]
         repeat' first
           | with_reducible assumption
           | with_reducible apply Within.refl
           | ((with_reducible apply Within.after (State.evbPut_within ..)); (case hle => decide))
           | ((with_reducible apply Within.after (State.stage_within ..)); (case hle => decide))
           | ((with_reducible apply Within.after (State.storeCause_within ..)); (case hle => decide))
           | with_reducible apply Within.ite
           | split
           | dsimp -zeta only
           | dsimp +zetaDelta only
       clear_value x)
    | intro x
    | lift_lets
    | with_reducible apply Within.ite
    | split
    | dsimp -zeta only
    | dsimp +zetaDelta only

theorem State.recoverySync_within (s : State) :
    Within (.of [.log, .pm, .events, .bus] [.busStatus, .busGrants, .logState, .logEvbEntries, .logDropped, .logEvbLost, .logEntries, .sysIntSrc]) s (State.recoverySync s) := by
  delta State.recoverySync
  repeat' first
    | with_reducible assumption
    | with_reducible apply Within.refl
    | ((with_reducible apply Within.setFlag); (case hr => first | decide | exact Foot.allRegs_hasReg _ _ | exact Foot.all_hasReg _ | (subst_vars; decide) | ((try dsimp +zetaDelta only); split <;> first | decide | (split <;> first | decide | (split <;> decide)))))
    | ((with_reducible apply Within.after (State.logEvent_within ..)); (case hle => decide))
    | (intro x
       have hx : Within (.of [.log, .pm, .events, .bus] [.busStatus, .busGrants, .logState, .logEvbEntries, .logDropped, .logEvbLost, .logEntries, .sysIntSrc]) s x := by
         dsimp -zeta only [x]
         repeat' first
           | with_reducible assumption
           | with_reducible apply Within.refl
           | ((with_reducible apply Within.setFlag); (case hr => first | decide | exact Foot.allRegs_hasReg _ _ | exact Foot.all_hasReg _ | (subst_vars; decide) | ((try dsimp +zetaDelta only); split <;> first | decide | (split <;> first | decide | (split <;> decide)))))
           | ((with_reducible apply Within.after (State.logEvent_within ..)); (case hle => decide))
           | with_reducible apply Within.ite
           | split
           | dsimp -zeta only
           | dsimp +zetaDelta only
       clear_value x)
    | intro x
    | lift_lets
    | with_reducible apply Within.ite
    | split
    | dsimp -zeta only
    | dsimp +zetaDelta only

theorem State.srcBlk_within (s : State) (a1 : Nat) (v : Nat) :
    Within (.of [] [.sysIntSrc]) s (State.srcBlk s a1 v) := by
  delta State.srcBlk
  repeat' first
    | with_reducible assumption
    | with_reducible apply Within.refl
    | ((with_reducible apply Within.eachN); (case' hg => intro _ _ _))
    | ((with_reducible apply Within.after (State.setSrc_within ..)); (case hle => decide))
    | with_reducible apply Within.ite
    | split
    | dsimp -zeta only

theorem State.raise_within (s : State) (a1 : Nat) (i : Nat) :
    Within (.of [.act, .latch, .irqs, .log, .pm, .events, .bus] [.busStatus, .busGrants, .logState, .logEvbEntries, .logDropped, .logEvbLost, .logEntries, .sysIntSrc]) s (State.raise s a1 i) := by
  delta State.raise
  repeat' first
    | with_reducible assumption
    | with_reducible apply Within.refl
    | ((with_reducible apply Within.after (State.setSrc_within ..)); (case hle => decide))
    | ((with_reducible apply Within.after (State.srcBlk_within ..)); (case hle => decide))
    | ((with_reducible apply Within.after (State.logEvent_within ..)); (case hle => decide))
    | ((with_reducible apply Within.after (State.irqSync_within ..)); (case hle => decide))
    | ((with_reducible apply Within.after (State.recoverySync_within ..)); (case hle => decide))
    | (intro x
       have hx : Within (.of [.act, .latch, .irqs, .log, .pm, .events, .bus] [.busStatus, .busGrants, .logState, .logEvbEntries, .logDropped, .logEvbLost, .logEntries, .sysIntSrc]) s x := by
         dsimp -zeta only [x]
         repeat' first
           | with_reducible assumption
           | with_reducible apply Within.refl
           | ((with_reducible apply Within.after (State.setSrc_within ..)); (case hle => decide))
           | ((with_reducible apply Within.after (State.srcBlk_within ..)); (case hle => decide))
           | ((with_reducible apply Within.after (State.logEvent_within ..)); (case hle => decide))
           | ((with_reducible apply Within.after (State.irqSync_within ..)); (case hle => decide))
           | ((with_reducible apply Within.after (State.recoverySync_within ..)); (case hle => decide))
           | with_reducible apply Within.ite
           | ((with_reducible apply Within.set_act_latch); (case h_act => decide); (case h_latch => decide))
           | ((with_reducible apply Within.set_act); (case hc => decide))
           | ((with_reducible apply Within.set_latch); (case hc => decide))
           | ((with_reducible apply Within.set_log); (case hc => decide))
           | split
           | dsimp -zeta only
           | dsimp +zetaDelta only
       clear_value x)
    | intro x
    | lift_lets
    | with_reducible apply Within.ite
    | ((with_reducible apply Within.set_act_latch); (case h_act => decide); (case h_latch => decide))
    | ((with_reducible apply Within.set_act); (case hc => decide))
    | ((with_reducible apply Within.set_latch); (case hc => decide))
    | ((with_reducible apply Within.set_log); (case hc => decide))
    | split
    | dsimp -zeta only
    | dsimp +zetaDelta only

theorem State.raiseEach_within (s : State) (a1 : Nat) (i : Nat) :
    Within (.of [.act, .latch, .irqs, .log, .pm, .events, .bus] [.busStatus, .busGrants, .logState, .logEvbEntries, .logDropped, .logEvbLost, .logEntries, .sysIntSrc]) s (State.raiseEach s a1 i) := by
  delta State.raiseEach
  repeat' first
    | with_reducible assumption
    | with_reducible apply Within.refl
    | ((with_reducible apply Within.after (State.logEvent_within ..)); (case hle => decide))
    | ((with_reducible apply Within.after (State.raise_within ..)); (case hle => decide))
    | with_reducible apply Within.ite
    | split
    | dsimp -zeta only

theorem State.clear_within (s : State) (a1 : Nat) (i : Nat) :
    Within (.of [.act, .irqs, .log, .pm, .events, .bus] [.busStatus, .busGrants, .logState, .logEvbEntries, .logDropped, .logEvbLost, .logEntries, .sysIntSrc]) s (State.clear s a1 i) := by
  delta State.clear
  repeat' first
    | with_reducible assumption
    | with_reducible apply Within.refl
    | ((with_reducible apply Within.after (State.srcBlk_within ..)); (case hle => decide))
    | ((with_reducible apply Within.after (State.logEvent_within ..)); (case hle => decide))
    | ((with_reducible apply Within.after (State.irqSync_within ..)); (case hle => decide))
    | ((with_reducible apply Within.after (State.recoverySync_within ..)); (case hle => decide))
    | (intro x
       have hx : Within (.of [.act, .irqs, .log, .pm, .events, .bus] [.busStatus, .busGrants, .logState, .logEvbEntries, .logDropped, .logEvbLost, .logEntries, .sysIntSrc]) s x := by
         dsimp -zeta only [x]
         repeat' first
           | with_reducible assumption
           | with_reducible apply Within.refl
           | ((with_reducible apply Within.after (State.srcBlk_within ..)); (case hle => decide))
           | ((with_reducible apply Within.after (State.logEvent_within ..)); (case hle => decide))
           | ((with_reducible apply Within.after (State.irqSync_within ..)); (case hle => decide))
           | ((with_reducible apply Within.after (State.recoverySync_within ..)); (case hle => decide))
           | with_reducible apply Within.ite
           | ((with_reducible apply Within.set_act); (case hc => decide))
           | split
           | dsimp -zeta only
           | dsimp +zetaDelta only
       clear_value x)
    | intro x
    | lift_lets
    | with_reducible apply Within.ite
    | ((with_reducible apply Within.set_act); (case hc => decide))
    | split
    | dsimp -zeta only
    | dsimp +zetaDelta only

theorem State.setAlarm_within (s : State) (a1 : Nat) (i : Nat) (b : Bool) :
    Within (.of [.act, .latch, .irqs, .log, .pm, .events, .bus] [.busStatus, .busGrants, .logState, .logEvbEntries, .logDropped, .logEvbLost, .logEntries, .sysIntSrc]) s (State.setAlarm s a1 i b) := by
  delta State.setAlarm
  repeat' first
    | with_reducible assumption
    | with_reducible apply Within.refl
    | ((with_reducible apply Within.after (State.raise_within ..)); (case hle => decide))
    | ((with_reducible apply Within.after (State.clear_within ..)); (case hle => decide))
    | with_reducible apply Within.ite
    | split
    | dsimp -zeta only

theorem State.aerLog_within (s : State) (m : Nat) :
    Within (.of [.irqs] []) s (State.aerLog s m) := by
  delta State.aerLog
  repeat' first
    | with_reducible assumption
    | with_reducible apply Within.refl
    | (intro x
       have hx : Within (.of [.irqs] []) s x := by
         dsimp -zeta only [x]
         repeat' first
           | with_reducible assumption
           | with_reducible apply Within.refl
           | with_reducible apply Within.ite
           | ((with_reducible apply Within.set_irqs); (case hc => decide))
           | split
           | dsimp -zeta only
           | dsimp +zetaDelta only
       clear_value x)
    | intro x
    | lift_lets
    | with_reducible apply Within.ite
    | ((with_reducible apply Within.set_irqs); (case hc => decide))
    | split
    | dsimp -zeta only
    | dsimp +zetaDelta only

theorem State.errResp_within (s : State) (m : Master) (addr : Nat) (write : Bool) (c : ErrCause) :
    Within (.of [.irqs] [.busErrLast, .busErrResp, .busDefault, .sysIntSrc]) s (State.errResp s m addr write c) := by
  delta State.errResp
  repeat' first
    | with_reducible assumption
    | with_reducible apply Within.refl
    | ((with_reducible apply Within.setWord); (case hr => first | decide | exact Foot.allRegs_hasReg _ _ | exact Foot.all_hasReg _ | (subst_vars; decide) | ((try dsimp +zetaDelta only); split <;> first | decide | (split <;> first | decide | (split <;> decide)))))
    | ((with_reducible apply Within.count); (case hr => first | decide | exact Foot.allRegs_hasReg _ _ | exact Foot.all_hasReg _ | (subst_vars; decide) | ((try dsimp +zetaDelta only); split <;> first | decide | (split <;> first | decide | (split <;> decide)))))
    | ((with_reducible apply Within.after (State.irqSync_within ..)); (case hle => decide))
    | ((with_reducible apply Within.after (State.setSrc_within ..)); (case hle => decide))
    | ((with_reducible apply Within.after (State.aerLog_within ..)); (case hle => decide))
    | (intro x
       have hx : Within (.of [.irqs] [.busErrLast, .busErrResp, .busDefault, .sysIntSrc]) s x := by
         dsimp -zeta only [x]
         repeat' first
           | with_reducible assumption
           | with_reducible apply Within.refl
           | ((with_reducible apply Within.setWord); (case hr => first | decide | exact Foot.allRegs_hasReg _ _ | exact Foot.all_hasReg _ | (subst_vars; decide) | ((try dsimp +zetaDelta only); split <;> first | decide | (split <;> first | decide | (split <;> decide)))))
           | ((with_reducible apply Within.count); (case hr => first | decide | exact Foot.allRegs_hasReg _ _ | exact Foot.all_hasReg _ | (subst_vars; decide) | ((try dsimp +zetaDelta only); split <;> first | decide | (split <;> first | decide | (split <;> decide)))))
           | ((with_reducible apply Within.after (State.irqSync_within ..)); (case hle => decide))
           | ((with_reducible apply Within.after (State.setSrc_within ..)); (case hle => decide))
           | ((with_reducible apply Within.after (State.aerLog_within ..)); (case hle => decide))
           | with_reducible apply Within.ite
           | split
           | dsimp -zeta only
           | dsimp +zetaDelta only
       clear_value x)
    | intro x
    | lift_lets
    | with_reducible apply Within.ite
    | split
    | dsimp -zeta only
    | dsimp +zetaDelta only

theorem Within.expertOnly {f : Foot} {s x : State} (m : Master) (addr : Nat) (g : State → State) (h : Within f s x)
    (he : (Foot.of [.irqs] [.busErrLast, .busErrResp, .busDefault, .sysIntSrc]).le f = true) (hg : ∀ y, Within f s y → Within f s (g y)) :
    Within f s (x.expertOnly m addr g) := by
  unfold State.expertOnly
  split
  · exact hg _ h
  · exact .after (State.errResp_within ..) h he

theorem Within.valueOnly {f : Foot} {s x : State} (m : Master) (addr : Nat) (ok : Bool) (g : State → State) (h : Within f s x)
    (he : (Foot.of [.irqs] [.busErrLast, .busErrResp, .busDefault, .sysIntSrc]).le f = true) (hg : ∀ y, Within f s y → Within f s (g y)) :
    Within f s (x.valueOnly m addr ok g) := by
  unfold State.valueOnly
  split
  · exact hg _ h
  · exact .after (State.errResp_within ..) h he

end Sys2Proof.Machine
end

