-- ==== Sys2Proof/Laws/Footprint/Operands.lean ====
section
/-! SUPPORT. What each operation of Machine/Operands.lean may touch. -/

namespace Sys2Proof.Machine

theorem State.takeFreeWords_within (n : Nat) (s : State) : Within (Foot.of [.free] []) s (State.takeFreeWords n s).2 := by
  induction n generalizing s with
  | zero => exact .refl _ _
  | succ n ih => exact .after (ih _) (State.takeFree_within s) (by decide)

end Sys2Proof.Machine
end

