-- ==== Sys2Proof/Laws/Footprint/Path.lean ====
section
/-! SUPPORT. What each operation of Machine/Path.lean may touch. -/

namespace Sys2Proof.Machine

theorem State.grantTo_within (s : State) (m : Master) (t : Nat) (beats : Nat) :
    Within (.of [.pm, .bus] [.busGrants]) s (State.grantTo s m t beats) := by
  delta State.grantTo
  repeat' first
    | with_reducible assumption
    | with_reducible apply Within.refl
    | ((with_reducible apply Within.after (State.grantOf_within ..)); (case hle => decide))
    | with_reducible apply Within.ite
    | split
    | dsimp -zeta only

theorem State.grantAll_within (s : State) (m : Master) (t : Nat) (a3 : Nat) (n : Nat) :
    Within (.of [.pm, .bus] [.busSplits, .busGrants]) s (State.grantAll s m t a3 n) := by
  delta State.grantAll
  repeat' first
    | with_reducible assumption
    | with_reducible apply Within.refl
    | ((with_reducible apply Within.countBy); (case hr => first | decide | exact Foot.allRegs_hasReg _ _ | exact Foot.all_hasReg _ | (subst_vars; decide) | ((try dsimp +zetaDelta only); split <;> first | decide | (split <;> first | decide | (split <;> decide)))))
    | ((with_reducible apply Within.after (State.grantOf_within ..)); (case hle => decide))
    | (intro x
       have hx : Within (.of [.pm, .bus] [.busSplits, .busGrants]) s x := by
         dsimp -zeta only [x]
         repeat' first
           | with_reducible assumption
           | with_reducible apply Within.refl
           | ((with_reducible apply Within.countBy); (case hr => first | decide | exact Foot.allRegs_hasReg _ _ | exact Foot.all_hasReg _ | (subst_vars; decide) | ((try dsimp +zetaDelta only); split <;> first | decide | (split <;> first | decide | (split <;> decide)))))
           | ((with_reducible apply Within.after (State.grantOf_within ..)); (case hle => decide))
           | with_reducible apply Within.ite
           | split
           | dsimp -zeta only
           | dsimp +zetaDelta only
       clear_value x)
    | intro x
    | lift_lets
    | with_reducible apply Within.ite
    | split
    | dsimp -zeta only
    | dsimp +zetaDelta only

theorem State.passOver_within (s : State) (m : Master) (t : Nat) :
    Within (.of [.bus] []) s (State.passOver s m t) := by
  delta State.passOver
  repeat' first
    | with_reducible assumption
    | with_reducible apply Within.refl
    | (intro x
       have hx : Within (.of [.bus] []) s x := by
         dsimp -zeta only [x]
         repeat' first
           | with_reducible assumption
           | with_reducible apply Within.refl
           | with_reducible apply Within.ite
           | ((with_reducible apply Within.set_bus); (case hc => decide))
           | split
           | dsimp -zeta only
           | dsimp +zetaDelta only
       clear_value x)
    | intro x
    | lift_lets
    | with_reducible apply Within.ite
    | ((with_reducible apply Within.set_bus); (case hc => decide))
    | split
    | dsimp -zeta only
    | dsimp +zetaDelta only

theorem State.hostMeter_within (s : State) (m : Master) (write : Bool) (n : Nat) :
    Within (.of [.pm] []) s (State.hostMeter s m write n) := by
  delta State.hostMeter
  repeat' first
    | with_reducible assumption
    | with_reducible apply Within.refl
    | ((with_reducible apply Within.after (State.meter_within ..)); (case hle => decide))
    | (intro x
       have hx : Within (.of [.pm] []) s x := by
         dsimp -zeta only [x]
         repeat' first
           | with_reducible assumption
           | with_reducible apply Within.refl
           | ((with_reducible apply Within.after (State.meter_within ..)); (case hle => decide))
           | with_reducible apply Within.ite
           | split
           | dsimp -zeta only
           | dsimp +zetaDelta only
       clear_value x)
    | intro x
    | lift_lets
    | with_reducible apply Within.ite
    | split
    | dsimp -zeta only
    | dsimp +zetaDelta only

theorem State.answer_within (s : State) (m : Master) (ok : Bool) (data : List Byte) :
    Within (.of [.bus] []) s (State.answer s m ok data) := by
  delta State.answer
  repeat' first
    | with_reducible assumption
    | with_reducible apply Within.refl
    | with_reducible apply Within.ite
    | ((with_reducible apply Within.set_bus); (case hc => decide))
    | split
    | dsimp -zeta only

theorem State.refuse_within (s : State) (m : Master) (addr : Nat) (n : Nat) (write : Bool) (c : ErrCause) :
    Within (.of [.irqs, .bus] [.busErrLast, .busErrResp, .busDefault, .sysIntSrc]) s (State.refuse s m addr n write c) := by
  delta State.refuse
  repeat' first
    | with_reducible assumption
    | with_reducible apply Within.refl
    | ((with_reducible apply Within.after (State.errResp_within ..)); (case hle => decide))
    | ((with_reducible apply Within.after (State.answer_within ..)); (case hle => decide))
    | (intro x
       have hx : Within (.of [.irqs, .bus] [.busErrLast, .busErrResp, .busDefault, .sysIntSrc]) s x := by
         dsimp -zeta only [x]
         repeat' first
           | with_reducible assumption
           | with_reducible apply Within.refl
           | ((with_reducible apply Within.after (State.errResp_within ..)); (case hle => decide))
           | ((with_reducible apply Within.after (State.answer_within ..)); (case hle => decide))
           | with_reducible apply Within.ite
           | split
           | dsimp -zeta only
           | dsimp +zetaDelta only
       clear_value x)
    | intro x
    | lift_lets
    | with_reducible apply Within.ite
    | split
    | dsimp -zeta only
    | dsimp +zetaDelta only

theorem Within.byTarget {f : Foot} {s x : State} (m : Master) (t addr n : Nat) (write : Bool) (g : State → State) (h : Within f s x)
    (hp : (Foot.of [.pm] []).le f = true) (hm : (Foot.of [.pm, .bus] [.busSplits, .busGrants]).le f = true) (he : (Foot.of [.irqs, .bus] [.busErrLast, .busErrResp, .busDefault, .sysIntSrc]).le f = true) (hg : ∀ y, Within f s y → Within f s (g y)) :
    Within f s (x.byTarget m t addr n write g) := by
  unfold State.byTarget
  dsimp only
  split
  · exact h
  · have h0 : Within f s (x.hostMeter m write n) := .after (State.hostMeter_within ..) h hp
    split
    · exact .after (State.refuse_within ..) (.after ((State.grantTo_within ..).mono (g := Foot.of [.pm, .bus] [.busSplits, .busGrants]) (by decide)) h0 hm) he
    · have h1 := Within.after (State.grantAll_within _ m t addr n)
        (Within.after ((State.passOver_within (x.hostMeter m write n) m t).mono (g := Foot.of [.pm, .bus] [.busSplits, .busGrants]) (by decide)) h0 hm) hm
      split
      · exact hg _ h1
      · exact .after (State.refuse_within ..) h1 he

theorem Within.byReg {f : Foot} {s x : State} (m : Master) (r : Reg) (i n : Nat) (write : Bool) (g : State → State) (h : Within f s x)
    (hp : (Foot.of [.pm] []).le f = true) (hm : (Foot.of [.pm, .bus] [.busSplits, .busGrants]).le f = true) (he : (Foot.of [.irqs, .bus] [.busErrLast, .busErrResp, .busDefault, .sysIntSrc]).le f = true) (hg : ∀ y, Within f s y → Within f s (g y)) :
    Within f s (x.byReg m r i n write g) := h.byTarget _ _ _ _ _ _ hp hm he hg

theorem State.noteWrite_within (s : State) (m : Nat) (key : Nat) (addr : Nat) (cyc : Nat) :
    Within (.of [.bus] [.busCollLast, .busCollisions]) s (State.noteWrite s m key addr cyc) := by
  delta State.noteWrite
  repeat' first
    | with_reducible assumption
    | with_reducible apply Within.refl
    | ((with_reducible apply Within.setWord); (case hr => first | decide | exact Foot.allRegs_hasReg _ _ | exact Foot.all_hasReg _ | (subst_vars; decide) | ((try dsimp +zetaDelta only); split <;> first | decide | (split <;> first | decide | (split <;> decide)))))
    | ((with_reducible apply Within.count); (case hr => first | decide | exact Foot.allRegs_hasReg _ _ | exact Foot.all_hasReg _ | (subst_vars; decide) | ((try dsimp +zetaDelta only); split <;> first | decide | (split <;> first | decide | (split <;> decide)))))
    | ((with_reducible apply Within.when); (case' hg => intro _ _))
    | (intro x
       have hx : Within (.of [.bus] [.busCollLast, .busCollisions]) s x := by
         dsimp -zeta only [x]
         repeat' first
           | with_reducible assumption
           | with_reducible apply Within.refl
           | ((with_reducible apply Within.setWord); (case hr => first | decide | exact Foot.allRegs_hasReg _ _ | exact Foot.all_hasReg _ | (subst_vars; decide) | ((try dsimp +zetaDelta only); split <;> first | decide | (split <;> first | decide | (split <;> decide)))))
           | ((with_reducible apply Within.count); (case hr => first | decide | exact Foot.allRegs_hasReg _ _ | exact Foot.all_hasReg _ | (subst_vars; decide) | ((try dsimp +zetaDelta only); split <;> first | decide | (split <;> first | decide | (split <;> decide)))))
           | ((with_reducible apply Within.when); (case' hg => intro _ _))
           | with_reducible apply Within.ite
           | split
           | dsimp -zeta only
           | dsimp +zetaDelta only
           | ((with_reducible apply Within.set_bus); (case hc => decide))
       clear_value x)
    | intro x
    | lift_lets
    | with_reducible apply Within.ite
    | split
    | dsimp -zeta only
    | dsimp +zetaDelta only
    | ((with_reducible apply Within.set_bus); (case hc => decide))

end Sys2Proof.Machine
end

