-- ==== Sys2Proof/Laws/State.lean ====
section
/-! SUPPORT. What each primitive update leaves alone: one lemma per field per update, and what it sets. -/

namespace Sys2Proof.Machine

variable (s : State) (r : Reg) (f : Field) (i : Nat)

/-! ### setWord -/

@[simp] theorem State.setWord_pending (v : Word) : (s.setWord r i v).pending = s.pending := rfl
@[simp] theorem State.setWord_free (v : Word) : (s.setWord r i v).free = s.free := rfl
@[simp] theorem State.setWord_tick (v : Word) : (s.setWord r i v).tick = s.tick := rfl
@[simp] theorem State.setWord_quads (v : Word) : (s.setWord r i v).quads = s.quads := rfl
@[simp] theorem State.setWord_lanes (v : Word) : (s.setWord r i v).lanes = s.lanes := rfl
@[simp] theorem State.setWord_links (v : Word) : (s.setWord r i v).links = s.links := rfl
@[simp] theorem State.setWord_lag (v : Word) : (s.setWord r i v).lag = s.lag := rfl
@[simp] theorem State.setWord_prot (v : Word) : (s.setWord r i v).prot = s.prot := rfl
@[simp] theorem State.setWord_core (v : Word) : (s.setWord r i v).core = s.core := rfl
@[simp] theorem State.setWord_act (v : Word) : (s.setWord r i v).act = s.act := rfl
@[simp] theorem State.setWord_latch (v : Word) : (s.setWord r i v).latch = s.latch := rfl
@[simp] theorem State.setWord_irqs (v : Word) : (s.setWord r i v).irqs = s.irqs := rfl
@[simp] theorem State.setWord_log (v : Word) : (s.setWord r i v).log = s.log := rfl
@[simp] theorem State.setWord_pm (v : Word) : (s.setWord r i v).pm = s.pm := rfl
@[simp] theorem State.setWord_hbm (v : Word) : (s.setWord r i v).hbm = s.hbm := rfl
@[simp] theorem State.setWord_nv (v : Word) : (s.setWord r i v).nv = s.nv := rfl
@[simp] theorem State.setWord_boot (v : Word) : (s.setWord r i v).boot = s.boot := rfl
@[simp] theorem State.setWord_nvm (v : Word) : (s.setWord r i v).nvm = s.nvm := rfl
@[simp] theorem State.setWord_jtag (v : Word) : (s.setWord r i v).jtag = s.jtag := rfl
@[simp] theorem State.setWord_mate (v : Word) : (s.setWord r i v).mate = s.mate := rfl
@[simp] theorem State.setWord_alm (v : Word) : (s.setWord r i v).alm = s.alm := rfl
@[simp] theorem State.setWord_ecc (v : Word) : (s.setWord r i v).ecc = s.ecc := rfl
@[simp] theorem State.setWord_tim (v : Word) : (s.setWord r i v).tim = s.tim := rfl
@[simp] theorem State.setWord_bus (v : Word) : (s.setWord r i v).bus = s.bus := rfl

/-! ### wr -/

@[simp] theorem State.wr_pending (v : Nat) : (s.wr f i v).pending = s.pending := rfl
@[simp] theorem State.wr_free (v : Nat) : (s.wr f i v).free = s.free := rfl
@[simp] theorem State.wr_tick (v : Nat) : (s.wr f i v).tick = s.tick := rfl
@[simp] theorem State.wr_quads (v : Nat) : (s.wr f i v).quads = s.quads := rfl
@[simp] theorem State.wr_lanes (v : Nat) : (s.wr f i v).lanes = s.lanes := rfl
@[simp] theorem State.wr_links (v : Nat) : (s.wr f i v).links = s.links := rfl
@[simp] theorem State.wr_lag (v : Nat) : (s.wr f i v).lag = s.lag := rfl
@[simp] theorem State.wr_prot (v : Nat) : (s.wr f i v).prot = s.prot := rfl
@[simp] theorem State.wr_core (v : Nat) : (s.wr f i v).core = s.core := rfl
@[simp] theorem State.wr_act (v : Nat) : (s.wr f i v).act = s.act := rfl
@[simp] theorem State.wr_latch (v : Nat) : (s.wr f i v).latch = s.latch := rfl
@[simp] theorem State.wr_irqs (v : Nat) : (s.wr f i v).irqs = s.irqs := rfl
@[simp] theorem State.wr_log (v : Nat) : (s.wr f i v).log = s.log := rfl
@[simp] theorem State.wr_pm (v : Nat) : (s.wr f i v).pm = s.pm := rfl
@[simp] theorem State.wr_hbm (v : Nat) : (s.wr f i v).hbm = s.hbm := rfl
@[simp] theorem State.wr_nv (v : Nat) : (s.wr f i v).nv = s.nv := rfl
@[simp] theorem State.wr_boot (v : Nat) : (s.wr f i v).boot = s.boot := rfl
@[simp] theorem State.wr_nvm (v : Nat) : (s.wr f i v).nvm = s.nvm := rfl
@[simp] theorem State.wr_jtag (v : Nat) : (s.wr f i v).jtag = s.jtag := rfl
@[simp] theorem State.wr_mate (v : Nat) : (s.wr f i v).mate = s.mate := rfl
@[simp] theorem State.wr_alm (v : Nat) : (s.wr f i v).alm = s.alm := rfl
@[simp] theorem State.wr_ecc (v : Nat) : (s.wr f i v).ecc = s.ecc := rfl
@[simp] theorem State.wr_tim (v : Nat) : (s.wr f i v).tim = s.tim := rfl
@[simp] theorem State.wr_bus (v : Nat) : (s.wr f i v).bus = s.bus := rfl

/-! ### setFlag -/

@[simp] theorem State.setFlag_pending (b : Bool) : (s.setFlag f i b).pending = s.pending := rfl
@[simp] theorem State.setFlag_free (b : Bool) : (s.setFlag f i b).free = s.free := rfl
@[simp] theorem State.setFlag_tick (b : Bool) : (s.setFlag f i b).tick = s.tick := rfl
@[simp] theorem State.setFlag_quads (b : Bool) : (s.setFlag f i b).quads = s.quads := rfl
@[simp] theorem State.setFlag_lanes (b : Bool) : (s.setFlag f i b).lanes = s.lanes := rfl
@[simp] theorem State.setFlag_links (b : Bool) : (s.setFlag f i b).links = s.links := rfl
@[simp] theorem State.setFlag_lag (b : Bool) : (s.setFlag f i b).lag = s.lag := rfl
@[simp] theorem State.setFlag_prot (b : Bool) : (s.setFlag f i b).prot = s.prot := rfl
@[simp] theorem State.setFlag_core (b : Bool) : (s.setFlag f i b).core = s.core := rfl
@[simp] theorem State.setFlag_act (b : Bool) : (s.setFlag f i b).act = s.act := rfl
@[simp] theorem State.setFlag_latch (b : Bool) : (s.setFlag f i b).latch = s.latch := rfl
@[simp] theorem State.setFlag_irqs (b : Bool) : (s.setFlag f i b).irqs = s.irqs := rfl
@[simp] theorem State.setFlag_log (b : Bool) : (s.setFlag f i b).log = s.log := rfl
@[simp] theorem State.setFlag_pm (b : Bool) : (s.setFlag f i b).pm = s.pm := rfl
@[simp] theorem State.setFlag_hbm (b : Bool) : (s.setFlag f i b).hbm = s.hbm := rfl
@[simp] theorem State.setFlag_nv (b : Bool) : (s.setFlag f i b).nv = s.nv := rfl
@[simp] theorem State.setFlag_boot (b : Bool) : (s.setFlag f i b).boot = s.boot := rfl
@[simp] theorem State.setFlag_nvm (b : Bool) : (s.setFlag f i b).nvm = s.nvm := rfl
@[simp] theorem State.setFlag_jtag (b : Bool) : (s.setFlag f i b).jtag = s.jtag := rfl
@[simp] theorem State.setFlag_mate (b : Bool) : (s.setFlag f i b).mate = s.mate := rfl
@[simp] theorem State.setFlag_alm (b : Bool) : (s.setFlag f i b).alm = s.alm := rfl
@[simp] theorem State.setFlag_ecc (b : Bool) : (s.setFlag f i b).ecc = s.ecc := rfl
@[simp] theorem State.setFlag_tim (b : Bool) : (s.setFlag f i b).tim = s.tim := rfl
@[simp] theorem State.setFlag_bus (b : Bool) : (s.setFlag f i b).bus = s.bus := rfl

/-! ### wrBit -/

@[simp] theorem State.wrBit_pending (k : Nat) (b : Bool) : (s.wrBit f i k b).pending = s.pending := rfl
@[simp] theorem State.wrBit_free (k : Nat) (b : Bool) : (s.wrBit f i k b).free = s.free := rfl
@[simp] theorem State.wrBit_tick (k : Nat) (b : Bool) : (s.wrBit f i k b).tick = s.tick := rfl
@[simp] theorem State.wrBit_quads (k : Nat) (b : Bool) : (s.wrBit f i k b).quads = s.quads := rfl
@[simp] theorem State.wrBit_lanes (k : Nat) (b : Bool) : (s.wrBit f i k b).lanes = s.lanes := rfl
@[simp] theorem State.wrBit_links (k : Nat) (b : Bool) : (s.wrBit f i k b).links = s.links := rfl
@[simp] theorem State.wrBit_lag (k : Nat) (b : Bool) : (s.wrBit f i k b).lag = s.lag := rfl
@[simp] theorem State.wrBit_prot (k : Nat) (b : Bool) : (s.wrBit f i k b).prot = s.prot := rfl
@[simp] theorem State.wrBit_core (k : Nat) (b : Bool) : (s.wrBit f i k b).core = s.core := rfl
@[simp] theorem State.wrBit_act (k : Nat) (b : Bool) : (s.wrBit f i k b).act = s.act := rfl
@[simp] theorem State.wrBit_latch (k : Nat) (b : Bool) : (s.wrBit f i k b).latch = s.latch := rfl
@[simp] theorem State.wrBit_irqs (k : Nat) (b : Bool) : (s.wrBit f i k b).irqs = s.irqs := rfl
@[simp] theorem State.wrBit_log (k : Nat) (b : Bool) : (s.wrBit f i k b).log = s.log := rfl
@[simp] theorem State.wrBit_pm (k : Nat) (b : Bool) : (s.wrBit f i k b).pm = s.pm := rfl
@[simp] theorem State.wrBit_hbm (k : Nat) (b : Bool) : (s.wrBit f i k b).hbm = s.hbm := rfl
@[simp] theorem State.wrBit_nv (k : Nat) (b : Bool) : (s.wrBit f i k b).nv = s.nv := rfl
@[simp] theorem State.wrBit_boot (k : Nat) (b : Bool) : (s.wrBit f i k b).boot = s.boot := rfl
@[simp] theorem State.wrBit_nvm (k : Nat) (b : Bool) : (s.wrBit f i k b).nvm = s.nvm := rfl
@[simp] theorem State.wrBit_jtag (k : Nat) (b : Bool) : (s.wrBit f i k b).jtag = s.jtag := rfl
@[simp] theorem State.wrBit_mate (k : Nat) (b : Bool) : (s.wrBit f i k b).mate = s.mate := rfl
@[simp] theorem State.wrBit_alm (k : Nat) (b : Bool) : (s.wrBit f i k b).alm = s.alm := rfl
@[simp] theorem State.wrBit_ecc (k : Nat) (b : Bool) : (s.wrBit f i k b).ecc = s.ecc := rfl
@[simp] theorem State.wrBit_tim (k : Nat) (b : Bool) : (s.wrBit f i k b).tim = s.tim := rfl
@[simp] theorem State.wrBit_bus (k : Nat) (b : Bool) : (s.wrBit f i k b).bus = s.bus := rfl

/-! ### wrS -/

@[simp] theorem State.wrS_pending (v : Int) : (s.wrS f i v).pending = s.pending := rfl
@[simp] theorem State.wrS_free (v : Int) : (s.wrS f i v).free = s.free := rfl
@[simp] theorem State.wrS_tick (v : Int) : (s.wrS f i v).tick = s.tick := rfl
@[simp] theorem State.wrS_quads (v : Int) : (s.wrS f i v).quads = s.quads := rfl
@[simp] theorem State.wrS_lanes (v : Int) : (s.wrS f i v).lanes = s.lanes := rfl
@[simp] theorem State.wrS_links (v : Int) : (s.wrS f i v).links = s.links := rfl
@[simp] theorem State.wrS_lag (v : Int) : (s.wrS f i v).lag = s.lag := rfl
@[simp] theorem State.wrS_prot (v : Int) : (s.wrS f i v).prot = s.prot := rfl
@[simp] theorem State.wrS_core (v : Int) : (s.wrS f i v).core = s.core := rfl
@[simp] theorem State.wrS_act (v : Int) : (s.wrS f i v).act = s.act := rfl
@[simp] theorem State.wrS_latch (v : Int) : (s.wrS f i v).latch = s.latch := rfl
@[simp] theorem State.wrS_irqs (v : Int) : (s.wrS f i v).irqs = s.irqs := rfl
@[simp] theorem State.wrS_log (v : Int) : (s.wrS f i v).log = s.log := rfl
@[simp] theorem State.wrS_pm (v : Int) : (s.wrS f i v).pm = s.pm := rfl
@[simp] theorem State.wrS_hbm (v : Int) : (s.wrS f i v).hbm = s.hbm := rfl
@[simp] theorem State.wrS_nv (v : Int) : (s.wrS f i v).nv = s.nv := rfl
@[simp] theorem State.wrS_boot (v : Int) : (s.wrS f i v).boot = s.boot := rfl
@[simp] theorem State.wrS_nvm (v : Int) : (s.wrS f i v).nvm = s.nvm := rfl
@[simp] theorem State.wrS_jtag (v : Int) : (s.wrS f i v).jtag = s.jtag := rfl
@[simp] theorem State.wrS_mate (v : Int) : (s.wrS f i v).mate = s.mate := rfl
@[simp] theorem State.wrS_alm (v : Int) : (s.wrS f i v).alm = s.alm := rfl
@[simp] theorem State.wrS_ecc (v : Int) : (s.wrS f i v).ecc = s.ecc := rfl
@[simp] theorem State.wrS_tim (v : Int) : (s.wrS f i v).tim = s.tim := rfl
@[simp] theorem State.wrS_bus (v : Int) : (s.wrS f i v).bus = s.bus := rfl

/-! ### countBy -/

@[simp] theorem State.countBy_pending (n : Nat) : (s.countBy r i n).pending = s.pending := rfl
@[simp] theorem State.countBy_free (n : Nat) : (s.countBy r i n).free = s.free := rfl
@[simp] theorem State.countBy_tick (n : Nat) : (s.countBy r i n).tick = s.tick := rfl
@[simp] theorem State.countBy_quads (n : Nat) : (s.countBy r i n).quads = s.quads := rfl
@[simp] theorem State.countBy_lanes (n : Nat) : (s.countBy r i n).lanes = s.lanes := rfl
@[simp] theorem State.countBy_links (n : Nat) : (s.countBy r i n).links = s.links := rfl
@[simp] theorem State.countBy_lag (n : Nat) : (s.countBy r i n).lag = s.lag := rfl
@[simp] theorem State.countBy_prot (n : Nat) : (s.countBy r i n).prot = s.prot := rfl
@[simp] theorem State.countBy_core (n : Nat) : (s.countBy r i n).core = s.core := rfl
@[simp] theorem State.countBy_act (n : Nat) : (s.countBy r i n).act = s.act := rfl
@[simp] theorem State.countBy_latch (n : Nat) : (s.countBy r i n).latch = s.latch := rfl
@[simp] theorem State.countBy_irqs (n : Nat) : (s.countBy r i n).irqs = s.irqs := rfl
@[simp] theorem State.countBy_log (n : Nat) : (s.countBy r i n).log = s.log := rfl
@[simp] theorem State.countBy_pm (n : Nat) : (s.countBy r i n).pm = s.pm := rfl
@[simp] theorem State.countBy_hbm (n : Nat) : (s.countBy r i n).hbm = s.hbm := rfl
@[simp] theorem State.countBy_nv (n : Nat) : (s.countBy r i n).nv = s.nv := rfl
@[simp] theorem State.countBy_boot (n : Nat) : (s.countBy r i n).boot = s.boot := rfl
@[simp] theorem State.countBy_nvm (n : Nat) : (s.countBy r i n).nvm = s.nvm := rfl
@[simp] theorem State.countBy_jtag (n : Nat) : (s.countBy r i n).jtag = s.jtag := rfl
@[simp] theorem State.countBy_mate (n : Nat) : (s.countBy r i n).mate = s.mate := rfl
@[simp] theorem State.countBy_alm (n : Nat) : (s.countBy r i n).alm = s.alm := rfl
@[simp] theorem State.countBy_ecc (n : Nat) : (s.countBy r i n).ecc = s.ecc := rfl
@[simp] theorem State.countBy_tim (n : Nat) : (s.countBy r i n).tim = s.tim := rfl
@[simp] theorem State.countBy_bus (n : Nat) : (s.countBy r i n).bus = s.bus := rfl

/-! ### count -/

@[simp] theorem State.count_pending : (s.count r i).pending = s.pending := rfl
@[simp] theorem State.count_free : (s.count r i).free = s.free := rfl
@[simp] theorem State.count_tick : (s.count r i).tick = s.tick := rfl
@[simp] theorem State.count_quads : (s.count r i).quads = s.quads := rfl
@[simp] theorem State.count_lanes : (s.count r i).lanes = s.lanes := rfl
@[simp] theorem State.count_links : (s.count r i).links = s.links := rfl
@[simp] theorem State.count_lag : (s.count r i).lag = s.lag := rfl
@[simp] theorem State.count_prot : (s.count r i).prot = s.prot := rfl
@[simp] theorem State.count_core : (s.count r i).core = s.core := rfl
@[simp] theorem State.count_act : (s.count r i).act = s.act := rfl
@[simp] theorem State.count_latch : (s.count r i).latch = s.latch := rfl
@[simp] theorem State.count_irqs : (s.count r i).irqs = s.irqs := rfl
@[simp] theorem State.count_log : (s.count r i).log = s.log := rfl
@[simp] theorem State.count_pm : (s.count r i).pm = s.pm := rfl
@[simp] theorem State.count_hbm : (s.count r i).hbm = s.hbm := rfl
@[simp] theorem State.count_nv : (s.count r i).nv = s.nv := rfl
@[simp] theorem State.count_boot : (s.count r i).boot = s.boot := rfl
@[simp] theorem State.count_nvm : (s.count r i).nvm = s.nvm := rfl
@[simp] theorem State.count_jtag : (s.count r i).jtag = s.jtag := rfl
@[simp] theorem State.count_mate : (s.count r i).mate = s.mate := rfl
@[simp] theorem State.count_alm : (s.count r i).alm = s.alm := rfl
@[simp] theorem State.count_ecc : (s.count r i).ecc = s.ecc := rfl
@[simp] theorem State.count_tim : (s.count r i).tim = s.tim := rfl
@[simp] theorem State.count_bus : (s.count r i).bus = s.bus := rfl

/-! ### setSrc -/

@[simp] theorem State.setSrc_pending (m v : Nat) : (s.setSrc m v).pending = s.pending := rfl
@[simp] theorem State.setSrc_free (m v : Nat) : (s.setSrc m v).free = s.free := rfl
@[simp] theorem State.setSrc_tick (m v : Nat) : (s.setSrc m v).tick = s.tick := rfl
@[simp] theorem State.setSrc_quads (m v : Nat) : (s.setSrc m v).quads = s.quads := rfl
@[simp] theorem State.setSrc_lanes (m v : Nat) : (s.setSrc m v).lanes = s.lanes := rfl
@[simp] theorem State.setSrc_links (m v : Nat) : (s.setSrc m v).links = s.links := rfl
@[simp] theorem State.setSrc_lag (m v : Nat) : (s.setSrc m v).lag = s.lag := rfl
@[simp] theorem State.setSrc_prot (m v : Nat) : (s.setSrc m v).prot = s.prot := rfl
@[simp] theorem State.setSrc_core (m v : Nat) : (s.setSrc m v).core = s.core := rfl
@[simp] theorem State.setSrc_act (m v : Nat) : (s.setSrc m v).act = s.act := rfl
@[simp] theorem State.setSrc_latch (m v : Nat) : (s.setSrc m v).latch = s.latch := rfl
@[simp] theorem State.setSrc_irqs (m v : Nat) : (s.setSrc m v).irqs = s.irqs := rfl
@[simp] theorem State.setSrc_log (m v : Nat) : (s.setSrc m v).log = s.log := rfl
@[simp] theorem State.setSrc_pm (m v : Nat) : (s.setSrc m v).pm = s.pm := rfl
@[simp] theorem State.setSrc_hbm (m v : Nat) : (s.setSrc m v).hbm = s.hbm := rfl
@[simp] theorem State.setSrc_nv (m v : Nat) : (s.setSrc m v).nv = s.nv := rfl
@[simp] theorem State.setSrc_boot (m v : Nat) : (s.setSrc m v).boot = s.boot := rfl
@[simp] theorem State.setSrc_nvm (m v : Nat) : (s.setSrc m v).nvm = s.nvm := rfl
@[simp] theorem State.setSrc_jtag (m v : Nat) : (s.setSrc m v).jtag = s.jtag := rfl
@[simp] theorem State.setSrc_mate (m v : Nat) : (s.setSrc m v).mate = s.mate := rfl
@[simp] theorem State.setSrc_alm (m v : Nat) : (s.setSrc m v).alm = s.alm := rfl
@[simp] theorem State.setSrc_ecc (m v : Nat) : (s.setSrc m v).ecc = s.ecc := rfl
@[simp] theorem State.setSrc_tim (m v : Nat) : (s.setSrc m v).tim = s.tim := rfl
@[simp] theorem State.setSrc_bus (m v : Nat) : (s.setSrc m v).bus = s.bus := rfl

/-! ### setQuad -/

@[simp] theorem State.setQuad_regs (v : QuadH) : (s.setQuad i v).regs = s.regs := rfl
@[simp] theorem State.setQuad_pending (v : QuadH) : (s.setQuad i v).pending = s.pending := rfl
@[simp] theorem State.setQuad_free (v : QuadH) : (s.setQuad i v).free = s.free := rfl
@[simp] theorem State.setQuad_tick (v : QuadH) : (s.setQuad i v).tick = s.tick := rfl
@[simp] theorem State.setQuad_lanes (v : QuadH) : (s.setQuad i v).lanes = s.lanes := rfl
@[simp] theorem State.setQuad_links (v : QuadH) : (s.setQuad i v).links = s.links := rfl
@[simp] theorem State.setQuad_lag (v : QuadH) : (s.setQuad i v).lag = s.lag := rfl
@[simp] theorem State.setQuad_prot (v : QuadH) : (s.setQuad i v).prot = s.prot := rfl
@[simp] theorem State.setQuad_core (v : QuadH) : (s.setQuad i v).core = s.core := rfl
@[simp] theorem State.setQuad_act (v : QuadH) : (s.setQuad i v).act = s.act := rfl
@[simp] theorem State.setQuad_latch (v : QuadH) : (s.setQuad i v).latch = s.latch := rfl
@[simp] theorem State.setQuad_irqs (v : QuadH) : (s.setQuad i v).irqs = s.irqs := rfl
@[simp] theorem State.setQuad_log (v : QuadH) : (s.setQuad i v).log = s.log := rfl
@[simp] theorem State.setQuad_pm (v : QuadH) : (s.setQuad i v).pm = s.pm := rfl
@[simp] theorem State.setQuad_hbm (v : QuadH) : (s.setQuad i v).hbm = s.hbm := rfl
@[simp] theorem State.setQuad_nv (v : QuadH) : (s.setQuad i v).nv = s.nv := rfl
@[simp] theorem State.setQuad_boot (v : QuadH) : (s.setQuad i v).boot = s.boot := rfl
@[simp] theorem State.setQuad_nvm (v : QuadH) : (s.setQuad i v).nvm = s.nvm := rfl
@[simp] theorem State.setQuad_jtag (v : QuadH) : (s.setQuad i v).jtag = s.jtag := rfl
@[simp] theorem State.setQuad_mate (v : QuadH) : (s.setQuad i v).mate = s.mate := rfl
@[simp] theorem State.setQuad_alm (v : QuadH) : (s.setQuad i v).alm = s.alm := rfl
@[simp] theorem State.setQuad_ecc (v : QuadH) : (s.setQuad i v).ecc = s.ecc := rfl
@[simp] theorem State.setQuad_tim (v : QuadH) : (s.setQuad i v).tim = s.tim := rfl
@[simp] theorem State.setQuad_bus (v : QuadH) : (s.setQuad i v).bus = s.bus := rfl
@[simp] theorem State.setQuad_word (v : QuadH) (q : Reg) (j : Nat) : (s.setQuad i v).word q j = s.word q j := rfl

/-! ### setLane -/

@[simp] theorem State.setLane_regs (v : LaneH) : (s.setLane i v).regs = s.regs := rfl
@[simp] theorem State.setLane_pending (v : LaneH) : (s.setLane i v).pending = s.pending := rfl
@[simp] theorem State.setLane_free (v : LaneH) : (s.setLane i v).free = s.free := rfl
@[simp] theorem State.setLane_tick (v : LaneH) : (s.setLane i v).tick = s.tick := rfl
@[simp] theorem State.setLane_quads (v : LaneH) : (s.setLane i v).quads = s.quads := rfl
@[simp] theorem State.setLane_links (v : LaneH) : (s.setLane i v).links = s.links := rfl
@[simp] theorem State.setLane_lag (v : LaneH) : (s.setLane i v).lag = s.lag := rfl
@[simp] theorem State.setLane_prot (v : LaneH) : (s.setLane i v).prot = s.prot := rfl
@[simp] theorem State.setLane_core (v : LaneH) : (s.setLane i v).core = s.core := rfl
@[simp] theorem State.setLane_act (v : LaneH) : (s.setLane i v).act = s.act := rfl
@[simp] theorem State.setLane_latch (v : LaneH) : (s.setLane i v).latch = s.latch := rfl
@[simp] theorem State.setLane_irqs (v : LaneH) : (s.setLane i v).irqs = s.irqs := rfl
@[simp] theorem State.setLane_log (v : LaneH) : (s.setLane i v).log = s.log := rfl
@[simp] theorem State.setLane_pm (v : LaneH) : (s.setLane i v).pm = s.pm := rfl
@[simp] theorem State.setLane_hbm (v : LaneH) : (s.setLane i v).hbm = s.hbm := rfl
@[simp] theorem State.setLane_nv (v : LaneH) : (s.setLane i v).nv = s.nv := rfl
@[simp] theorem State.setLane_boot (v : LaneH) : (s.setLane i v).boot = s.boot := rfl
@[simp] theorem State.setLane_nvm (v : LaneH) : (s.setLane i v).nvm = s.nvm := rfl
@[simp] theorem State.setLane_jtag (v : LaneH) : (s.setLane i v).jtag = s.jtag := rfl
@[simp] theorem State.setLane_mate (v : LaneH) : (s.setLane i v).mate = s.mate := rfl
@[simp] theorem State.setLane_alm (v : LaneH) : (s.setLane i v).alm = s.alm := rfl
@[simp] theorem State.setLane_ecc (v : LaneH) : (s.setLane i v).ecc = s.ecc := rfl
@[simp] theorem State.setLane_tim (v : LaneH) : (s.setLane i v).tim = s.tim := rfl
@[simp] theorem State.setLane_bus (v : LaneH) : (s.setLane i v).bus = s.bus := rfl
@[simp] theorem State.setLane_word (v : LaneH) (q : Reg) (j : Nat) : (s.setLane i v).word q j = s.word q j := rfl

/-! ### setLink -/

@[simp] theorem State.setLink_regs (v : LinkH) : (s.setLink i v).regs = s.regs := rfl
@[simp] theorem State.setLink_pending (v : LinkH) : (s.setLink i v).pending = s.pending := rfl
@[simp] theorem State.setLink_free (v : LinkH) : (s.setLink i v).free = s.free := rfl
@[simp] theorem State.setLink_tick (v : LinkH) : (s.setLink i v).tick = s.tick := rfl
@[simp] theorem State.setLink_quads (v : LinkH) : (s.setLink i v).quads = s.quads := rfl
@[simp] theorem State.setLink_lanes (v : LinkH) : (s.setLink i v).lanes = s.lanes := rfl
@[simp] theorem State.setLink_lag (v : LinkH) : (s.setLink i v).lag = s.lag := rfl
@[simp] theorem State.setLink_prot (v : LinkH) : (s.setLink i v).prot = s.prot := rfl
@[simp] theorem State.setLink_core (v : LinkH) : (s.setLink i v).core = s.core := rfl
@[simp] theorem State.setLink_act (v : LinkH) : (s.setLink i v).act = s.act := rfl
@[simp] theorem State.setLink_latch (v : LinkH) : (s.setLink i v).latch = s.latch := rfl
@[simp] theorem State.setLink_irqs (v : LinkH) : (s.setLink i v).irqs = s.irqs := rfl
@[simp] theorem State.setLink_log (v : LinkH) : (s.setLink i v).log = s.log := rfl
@[simp] theorem State.setLink_pm (v : LinkH) : (s.setLink i v).pm = s.pm := rfl
@[simp] theorem State.setLink_hbm (v : LinkH) : (s.setLink i v).hbm = s.hbm := rfl
@[simp] theorem State.setLink_nv (v : LinkH) : (s.setLink i v).nv = s.nv := rfl
@[simp] theorem State.setLink_boot (v : LinkH) : (s.setLink i v).boot = s.boot := rfl
@[simp] theorem State.setLink_nvm (v : LinkH) : (s.setLink i v).nvm = s.nvm := rfl
@[simp] theorem State.setLink_jtag (v : LinkH) : (s.setLink i v).jtag = s.jtag := rfl
@[simp] theorem State.setLink_mate (v : LinkH) : (s.setLink i v).mate = s.mate := rfl
@[simp] theorem State.setLink_alm (v : LinkH) : (s.setLink i v).alm = s.alm := rfl
@[simp] theorem State.setLink_ecc (v : LinkH) : (s.setLink i v).ecc = s.ecc := rfl
@[simp] theorem State.setLink_tim (v : LinkH) : (s.setLink i v).tim = s.tim := rfl
@[simp] theorem State.setLink_bus (v : LinkH) : (s.setLink i v).bus = s.bus := rfl
@[simp] theorem State.setLink_word (v : LinkH) (q : Reg) (j : Nat) : (s.setLink i v).word q j = s.word q j := rfl

/-! ### setRx -/

@[simp] theorem State.setRx_regs (v : RxH) : (s.setRx i v).regs = s.regs := rfl
@[simp] theorem State.setRx_pending (v : RxH) : (s.setRx i v).pending = s.pending := rfl
@[simp] theorem State.setRx_free (v : RxH) : (s.setRx i v).free = s.free := rfl
@[simp] theorem State.setRx_tick (v : RxH) : (s.setRx i v).tick = s.tick := rfl
@[simp] theorem State.setRx_quads (v : RxH) : (s.setRx i v).quads = s.quads := rfl
@[simp] theorem State.setRx_lanes (v : RxH) : (s.setRx i v).lanes = s.lanes := rfl
@[simp] theorem State.setRx_lag (v : RxH) : (s.setRx i v).lag = s.lag := rfl
@[simp] theorem State.setRx_prot (v : RxH) : (s.setRx i v).prot = s.prot := rfl
@[simp] theorem State.setRx_core (v : RxH) : (s.setRx i v).core = s.core := rfl
@[simp] theorem State.setRx_act (v : RxH) : (s.setRx i v).act = s.act := rfl
@[simp] theorem State.setRx_latch (v : RxH) : (s.setRx i v).latch = s.latch := rfl
@[simp] theorem State.setRx_irqs (v : RxH) : (s.setRx i v).irqs = s.irqs := rfl
@[simp] theorem State.setRx_log (v : RxH) : (s.setRx i v).log = s.log := rfl
@[simp] theorem State.setRx_pm (v : RxH) : (s.setRx i v).pm = s.pm := rfl
@[simp] theorem State.setRx_hbm (v : RxH) : (s.setRx i v).hbm = s.hbm := rfl
@[simp] theorem State.setRx_nv (v : RxH) : (s.setRx i v).nv = s.nv := rfl
@[simp] theorem State.setRx_boot (v : RxH) : (s.setRx i v).boot = s.boot := rfl
@[simp] theorem State.setRx_nvm (v : RxH) : (s.setRx i v).nvm = s.nvm := rfl
@[simp] theorem State.setRx_jtag (v : RxH) : (s.setRx i v).jtag = s.jtag := rfl
@[simp] theorem State.setRx_mate (v : RxH) : (s.setRx i v).mate = s.mate := rfl
@[simp] theorem State.setRx_alm (v : RxH) : (s.setRx i v).alm = s.alm := rfl
@[simp] theorem State.setRx_ecc (v : RxH) : (s.setRx i v).ecc = s.ecc := rfl
@[simp] theorem State.setRx_tim (v : RxH) : (s.setRx i v).tim = s.tim := rfl
@[simp] theorem State.setRx_bus (v : RxH) : (s.setRx i v).bus = s.bus := rfl
@[simp] theorem State.setRx_word (v : RxH) (q : Reg) (j : Nat) : (s.setRx i v).word q j = s.word q j := rfl

/-! ### setTx -/

@[simp] theorem State.setTx_regs (v : TxH) : (s.setTx i v).regs = s.regs := rfl
@[simp] theorem State.setTx_pending (v : TxH) : (s.setTx i v).pending = s.pending := rfl
@[simp] theorem State.setTx_free (v : TxH) : (s.setTx i v).free = s.free := rfl
@[simp] theorem State.setTx_tick (v : TxH) : (s.setTx i v).tick = s.tick := rfl
@[simp] theorem State.setTx_quads (v : TxH) : (s.setTx i v).quads = s.quads := rfl
@[simp] theorem State.setTx_lanes (v : TxH) : (s.setTx i v).lanes = s.lanes := rfl
@[simp] theorem State.setTx_lag (v : TxH) : (s.setTx i v).lag = s.lag := rfl
@[simp] theorem State.setTx_prot (v : TxH) : (s.setTx i v).prot = s.prot := rfl
@[simp] theorem State.setTx_core (v : TxH) : (s.setTx i v).core = s.core := rfl
@[simp] theorem State.setTx_act (v : TxH) : (s.setTx i v).act = s.act := rfl
@[simp] theorem State.setTx_latch (v : TxH) : (s.setTx i v).latch = s.latch := rfl
@[simp] theorem State.setTx_irqs (v : TxH) : (s.setTx i v).irqs = s.irqs := rfl
@[simp] theorem State.setTx_log (v : TxH) : (s.setTx i v).log = s.log := rfl
@[simp] theorem State.setTx_pm (v : TxH) : (s.setTx i v).pm = s.pm := rfl
@[simp] theorem State.setTx_hbm (v : TxH) : (s.setTx i v).hbm = s.hbm := rfl
@[simp] theorem State.setTx_nv (v : TxH) : (s.setTx i v).nv = s.nv := rfl
@[simp] theorem State.setTx_boot (v : TxH) : (s.setTx i v).boot = s.boot := rfl
@[simp] theorem State.setTx_nvm (v : TxH) : (s.setTx i v).nvm = s.nvm := rfl
@[simp] theorem State.setTx_jtag (v : TxH) : (s.setTx i v).jtag = s.jtag := rfl
@[simp] theorem State.setTx_mate (v : TxH) : (s.setTx i v).mate = s.mate := rfl
@[simp] theorem State.setTx_alm (v : TxH) : (s.setTx i v).alm = s.alm := rfl
@[simp] theorem State.setTx_ecc (v : TxH) : (s.setTx i v).ecc = s.ecc := rfl
@[simp] theorem State.setTx_tim (v : TxH) : (s.setTx i v).tim = s.tim := rfl
@[simp] theorem State.setTx_bus (v : TxH) : (s.setTx i v).bus = s.bus := rfl
@[simp] theorem State.setTx_word (v : TxH) (q : Reg) (j : Nat) : (s.setTx i v).word q j = s.word q j := rfl

/-! ### setLagLink -/

@[simp] theorem State.setLagLink_regs (v : LagLinkH) : (s.setLagLink i v).regs = s.regs := rfl
@[simp] theorem State.setLagLink_pending (v : LagLinkH) : (s.setLagLink i v).pending = s.pending := rfl
@[simp] theorem State.setLagLink_free (v : LagLinkH) : (s.setLagLink i v).free = s.free := rfl
@[simp] theorem State.setLagLink_tick (v : LagLinkH) : (s.setLagLink i v).tick = s.tick := rfl
@[simp] theorem State.setLagLink_quads (v : LagLinkH) : (s.setLagLink i v).quads = s.quads := rfl
@[simp] theorem State.setLagLink_lanes (v : LagLinkH) : (s.setLagLink i v).lanes = s.lanes := rfl
@[simp] theorem State.setLagLink_links (v : LagLinkH) : (s.setLagLink i v).links = s.links := rfl
@[simp] theorem State.setLagLink_prot (v : LagLinkH) : (s.setLagLink i v).prot = s.prot := rfl
@[simp] theorem State.setLagLink_core (v : LagLinkH) : (s.setLagLink i v).core = s.core := rfl
@[simp] theorem State.setLagLink_act (v : LagLinkH) : (s.setLagLink i v).act = s.act := rfl
@[simp] theorem State.setLagLink_latch (v : LagLinkH) : (s.setLagLink i v).latch = s.latch := rfl
@[simp] theorem State.setLagLink_irqs (v : LagLinkH) : (s.setLagLink i v).irqs = s.irqs := rfl
@[simp] theorem State.setLagLink_log (v : LagLinkH) : (s.setLagLink i v).log = s.log := rfl
@[simp] theorem State.setLagLink_pm (v : LagLinkH) : (s.setLagLink i v).pm = s.pm := rfl
@[simp] theorem State.setLagLink_hbm (v : LagLinkH) : (s.setLagLink i v).hbm = s.hbm := rfl
@[simp] theorem State.setLagLink_nv (v : LagLinkH) : (s.setLagLink i v).nv = s.nv := rfl
@[simp] theorem State.setLagLink_boot (v : LagLinkH) : (s.setLagLink i v).boot = s.boot := rfl
@[simp] theorem State.setLagLink_nvm (v : LagLinkH) : (s.setLagLink i v).nvm = s.nvm := rfl
@[simp] theorem State.setLagLink_jtag (v : LagLinkH) : (s.setLagLink i v).jtag = s.jtag := rfl
@[simp] theorem State.setLagLink_mate (v : LagLinkH) : (s.setLagLink i v).mate = s.mate := rfl
@[simp] theorem State.setLagLink_alm (v : LagLinkH) : (s.setLagLink i v).alm = s.alm := rfl
@[simp] theorem State.setLagLink_ecc (v : LagLinkH) : (s.setLagLink i v).ecc = s.ecc := rfl
@[simp] theorem State.setLagLink_tim (v : LagLinkH) : (s.setLagLink i v).tim = s.tim := rfl
@[simp] theorem State.setLagLink_bus (v : LagLinkH) : (s.setLagLink i v).bus = s.bus := rfl
@[simp] theorem State.setLagLink_word (v : LagLinkH) (q : Reg) (j : Nat) : (s.setLagLink i v).word q j = s.word q j := rfl

/-! ### setGroup -/

@[simp] theorem State.setGroup_regs (v : GroupH) : (s.setGroup i v).regs = s.regs := rfl
@[simp] theorem State.setGroup_pending (v : GroupH) : (s.setGroup i v).pending = s.pending := rfl
@[simp] theorem State.setGroup_free (v : GroupH) : (s.setGroup i v).free = s.free := rfl
@[simp] theorem State.setGroup_tick (v : GroupH) : (s.setGroup i v).tick = s.tick := rfl
@[simp] theorem State.setGroup_quads (v : GroupH) : (s.setGroup i v).quads = s.quads := rfl
@[simp] theorem State.setGroup_lanes (v : GroupH) : (s.setGroup i v).lanes = s.lanes := rfl
@[simp] theorem State.setGroup_links (v : GroupH) : (s.setGroup i v).links = s.links := rfl
@[simp] theorem State.setGroup_lag (v : GroupH) : (s.setGroup i v).lag = s.lag := rfl
@[simp] theorem State.setGroup_core (v : GroupH) : (s.setGroup i v).core = s.core := rfl
@[simp] theorem State.setGroup_act (v : GroupH) : (s.setGroup i v).act = s.act := rfl
@[simp] theorem State.setGroup_latch (v : GroupH) : (s.setGroup i v).latch = s.latch := rfl
@[simp] theorem State.setGroup_irqs (v : GroupH) : (s.setGroup i v).irqs = s.irqs := rfl
@[simp] theorem State.setGroup_log (v : GroupH) : (s.setGroup i v).log = s.log := rfl
@[simp] theorem State.setGroup_pm (v : GroupH) : (s.setGroup i v).pm = s.pm := rfl
@[simp] theorem State.setGroup_hbm (v : GroupH) : (s.setGroup i v).hbm = s.hbm := rfl
@[simp] theorem State.setGroup_nv (v : GroupH) : (s.setGroup i v).nv = s.nv := rfl
@[simp] theorem State.setGroup_boot (v : GroupH) : (s.setGroup i v).boot = s.boot := rfl
@[simp] theorem State.setGroup_nvm (v : GroupH) : (s.setGroup i v).nvm = s.nvm := rfl
@[simp] theorem State.setGroup_jtag (v : GroupH) : (s.setGroup i v).jtag = s.jtag := rfl
@[simp] theorem State.setGroup_mate (v : GroupH) : (s.setGroup i v).mate = s.mate := rfl
@[simp] theorem State.setGroup_alm (v : GroupH) : (s.setGroup i v).alm = s.alm := rfl
@[simp] theorem State.setGroup_ecc (v : GroupH) : (s.setGroup i v).ecc = s.ecc := rfl
@[simp] theorem State.setGroup_tim (v : GroupH) : (s.setGroup i v).tim = s.tim := rfl
@[simp] theorem State.setGroup_bus (v : GroupH) : (s.setGroup i v).bus = s.bus := rfl
@[simp] theorem State.setGroup_word (v : GroupH) (q : Reg) (j : Nat) : (s.setGroup i v).word q j = s.word q j := rfl

/-! ### Conditional updates -/

theorem State.when_pos {s : State} {b : Bool} {g : State → State} (h : b = true) : s.when b g = g s := if_pos h

theorem State.when_neg {s : State} {b : Bool} {g : State → State} (h : b = false) : s.when b g = s := if_neg (by rw [h]; decide)

/-! ### A block's record read after it is set -/

theorem State.quad_setQuad (v : QuadH) (j : Nat) : (s.setQuad i v).quad j = if j = i then v else s.quad j := Tbl.get_set ..
theorem State.lane_setLane (v : LaneH) (j : Nat) : (s.setLane i v).lane j = if j = i then v else s.lane j := Tbl.get_set ..
theorem State.link_setLink (v : LinkH) (j : Nat) : (s.setLink i v).link j = if j = i then v else s.link j := Tbl.get_set ..
theorem State.lagLink_setLagLink (v : LagLinkH) (j : Nat) : (s.setLagLink i v).lagLink j = if j = i then v else s.lagLink j := Tbl.get_set ..
theorem State.group_setGroup (v : GroupH) (j : Nat) : (s.setGroup i v).group j = if j = i then v else s.group j := Tbl.get_set ..

theorem State.rx_setRx (v : RxH) (j : Nat) : (s.setRx i v).rx j = if j = i then v else s.rx j := by
  unfold State.rx State.setRx
  rw [State.link_setLink]
  split <;> rfl

theorem State.tx_setTx (v : TxH) (j : Nat) : (s.setTx i v).tx j = if j = i then v else s.tx j := by
  unfold State.tx State.setTx
  rw [State.link_setLink]
  split <;> rfl

@[simp] theorem State.quad_setQuad_same (v : QuadH) : (s.setQuad i v).quad i = v := by rw [State.quad_setQuad, if_pos rfl]
@[simp] theorem State.lane_setLane_same (v : LaneH) : (s.setLane i v).lane i = v := by rw [State.lane_setLane, if_pos rfl]
@[simp] theorem State.link_setLink_same (v : LinkH) : (s.setLink i v).link i = v := by rw [State.link_setLink, if_pos rfl]
@[simp] theorem State.lagLink_setLagLink_same (v : LagLinkH) : (s.setLagLink i v).lagLink i = v := by rw [State.lagLink_setLagLink, if_pos rfl]
@[simp] theorem State.group_setGroup_same (v : GroupH) : (s.setGroup i v).group i = v := by rw [State.group_setGroup, if_pos rfl]
@[simp] theorem State.rx_setRx_same (v : RxH) : (s.setRx i v).rx i = v := by rw [State.rx_setRx, if_pos rfl]
@[simp] theorem State.tx_setTx_same (v : TxH) : (s.setTx i v).tx i = v := by rw [State.tx_setTx, if_pos rfl]

end Sys2Proof.Machine
end

