-- ==== Sys2Proof/Laws/Registers.lean ====
section
/-! SUPPORT. Register words and fields: what a read finds after a write, and that a read finds after a frame what it found before. -/

namespace Sys2Proof.Machine

/-! ### Fields of a number -/

theorem field_lt (x lo w : Nat) : field x lo w < 2 ^ w := Nat.mod_lt _ (Nat.two_pow_pos w)

theorem field_congr_low {x y lo w n : Nat} (h : x % 2 ^ n = y % 2 ^ n) (hn : lo + w ≤ n) : field x lo w = field y lo w := by
  apply Nat.eq_of_testBit_eq
  intro j
  have hx := congrArg (Nat.testBit · (lo + j)) h
  simp only [Nat.testBit_mod_two_pow] at hx
  simp only [field, Nat.testBit_mod_two_pow, Nat.testBit_div_two_pow, Nat.add_comm j lo]
  by_cases hj : j < w
  · simpa [hj, show lo + j < n by omega] using hx
  · simp [hj]

theorem field_congr_high {x y lo w n : Nat} (h : x / 2 ^ n = y / 2 ^ n) (hn : n ≤ lo) : field x lo w = field y lo w := by
  obtain ⟨k, rfl⟩ := Nat.le.dest hn
  simp only [field, Nat.pow_add, ← Nat.div_div_eq_div_mul, h]

theorem putField_eq (x lo w v : Nat) : putField x lo w v = (x / 2 ^ (lo + w) * 2 ^ w + v % 2 ^ w) * 2 ^ lo + x % 2 ^ lo := by
  unfold putField field
  have h1 : x / 2 ^ lo = 2 ^ w * (x / 2 ^ (lo + w)) + x / 2 ^ lo % 2 ^ w := by
    rw [Nat.pow_add, ← Nat.div_div_eq_div_mul]; exact (Nat.div_add_mod _ _).symm
  have h2 : x = 2 ^ lo * (x / 2 ^ lo) + x % 2 ^ lo := (Nat.div_add_mod _ _).symm
  generalize x / 2 ^ (lo + w) = q at *
  generalize x / 2 ^ lo % 2 ^ w = f at *
  generalize x % 2 ^ lo = r at *
  rw [h1] at h2
  generalize v % 2 ^ w = u
  subst h2
  rw [Nat.mul_add, Nat.add_mul]
  have e1 : 2 ^ lo * (2 ^ w * q) = q * 2 ^ w * 2 ^ lo := by rw [Nat.mul_comm (2 ^ lo), Nat.mul_comm (2 ^ w)]
  have e2 : 2 ^ lo * f = f * 2 ^ lo := Nat.mul_comm _ _
  omega

theorem putField_mod (x lo w v : Nat) : putField x lo w v % 2 ^ lo = x % 2 ^ lo := by
  rw [putField_eq, Nat.mul_add_mod_self_right, Nat.mod_mod]

theorem putField_div_lo (x lo w v : Nat) : putField x lo w v / 2 ^ lo = x / 2 ^ (lo + w) * 2 ^ w + v % 2 ^ w := by
  rw [putField_eq, Nat.add_comm, Nat.add_mul_div_right _ _ (Nat.two_pow_pos lo), Nat.div_eq_of_lt (Nat.mod_lt _ (Nat.two_pow_pos lo)), Nat.zero_add]

theorem putField_div (x lo w v : Nat) : putField x lo w v / 2 ^ (lo + w) = x / 2 ^ (lo + w) := by
  rw [Nat.pow_add, ← Nat.div_div_eq_div_mul, putField_div_lo, Nat.add_comm, Nat.add_mul_div_right _ _ (Nat.two_pow_pos w),
    Nat.div_eq_of_lt (Nat.mod_lt _ (Nat.two_pow_pos w)), Nat.zero_add, ← Nat.pow_add]

/-- A field read after it is put. -/
theorem field_putField_same (x lo w v : Nat) : field (putField x lo w v) lo w = v % 2 ^ w := by
  unfold field
  rw [putField_div_lo, Nat.mul_add_mod_self_right, Nat.mod_mod]

/-- A field read after a disjoint one is put. -/
theorem field_putField_other {x lo w v a b : Nat} (h : a + b ≤ lo ∨ lo + w ≤ a) : field (putField x lo w v) a b = field x a b := by
  rcases h with h | h
  · exact field_congr_low (putField_mod x lo w v) h
  · exact field_congr_high (putField_div x lo w v) h

/-- A field of a register word depends on the word's bits alone. -/
theorem field_ofNat {x a b : Nat} (h : a + b ≤ 64) : field (BitVec.ofNat 64 x).toNat a b = field x a b := by
  rw [BitVec.toNat_ofNat]
  exact field_congr_low (Nat.mod_mod _ _) h

/-! ### Register words -/

@[simp] theorem State.word_setWord_same (s : State) (r : Reg) (i : Nat) (v : Word) : (s.setWord r i v).word r i = v := by
  rw [State.word_setWord, if_pos ⟨rfl, rfl⟩]

theorem State.word_setWord_other (s : State) {r q : Reg} {i j : Nat} (v : Word) (h : r ≠ q ∨ i ≠ j) :
    (s.setWord r i v).word q j = s.word q j := by
  rw [State.word_setWord]
  split
  · next e => rcases h with h | h <;> exact absurd (by first | exact e.1 | exact e.2 | exact e.1.symm | exact e.2.symm) h
  · rfl

/-! ### Fields -/

/-- Fields that share no bit: of different registers, or side by side in one. -/
def Field.apart (f g : Field) : Bool := f.reg != g.reg || decide (g.lo + g.width ≤ f.lo) || decide (f.lo + f.width ≤ g.lo)

theorem State.rd_lt_two_pow (s : State) (f : Field) (i : Nat) : s.rd f i < 2 ^ f.width := field_lt ..

theorem State.rd_congr {s t : State} {f : Field} {i : Nat} (h : t.word f.reg i = s.word f.reg i) : t.rd f i = s.rd f i := by
  unfold State.rd; rw [h]

theorem State.flag_congr {s t : State} {f : Field} {i : Nat} (h : t.word f.reg i = s.word f.reg i) : t.flag f i = s.flag f i := by
  unfold State.flag; rw [State.rd_congr h]

/-- A field read after it is written. -/
theorem State.rd_wr (s : State) (f : Field) (i v : Nat) (h : f.lo + f.width ≤ 64) : (s.wr f i v).rd f i = v % 2 ^ f.width := by
  unfold State.rd State.wr
  rw [State.word_setWord_same, field_ofNat h, field_putField_same]

/-- A field read after another instance, or a field apart from it, is written. -/
theorem State.rd_wr_other (s : State) {f g : Field} {i j : Nat} (v : Nat) (h : j ≠ i ∨ f.apart g = true) (hg : g.lo + g.width ≤ 64) :
    (s.wr f i v).rd g j = s.rd g j := by
  unfold State.rd State.wr
  rw [State.word_setWord]
  split
  · next e =>
    obtain ⟨e1, e2⟩ := e
    have h : g.lo + g.width ≤ f.lo ∨ f.lo + f.width ≤ g.lo := by
      rcases h with h | h
      · exact absurd e2 (by omega)
      · simp only [Field.apart, Bool.or_eq_true, bne_iff_ne, decide_eq_true_eq] at h
        rcases h with (h | h) | h
        · exact absurd e1 (by first | exact h | exact Ne.symm h)
        · exact .inl h
        · exact .inr h
    rw [field_ofNat hg, field_putField_other h]
    first | rw [e1, e2] | rw [← e1, ← e2]
  · rfl

/-- A flag read after it is set. -/
theorem State.flag_setFlag (s : State) (f : Field) (i : Nat) (b : Bool) (h : f.width = 1) (h64 : f.lo + f.width ≤ 64) :
    (s.setFlag f i b).flag f i = b := by
  unfold State.flag State.setFlag
  rw [State.rd_wr _ _ _ _ h64, h]
  cases b <;> rfl

/-- A field read after a flag apart from it is set. -/
theorem State.rd_setFlag_other (s : State) {f g : Field} {i j : Nat} (b : Bool) (h : j ≠ i ∨ f.apart g = true) (hg : g.lo + g.width ≤ 64) :
    (s.setFlag f i b).rd g j = s.rd g j := State.rd_wr_other _ _ h hg

/-- A flag read after a field apart from it is written. -/
theorem State.flag_wr_other (s : State) {f g : Field} {i j : Nat} (v : Nat) (h : j ≠ i ∨ f.apart g = true) (hg : g.lo + g.width ≤ 64) :
    (s.wr f i v).flag g j = s.flag g j := by
  unfold State.flag; rw [State.rd_wr_other _ _ h hg]

theorem State.flag_setFlag_other (s : State) {f g : Field} {i j : Nat} (b : Bool) (h : j ≠ i ∨ f.apart g = true) (hg : g.lo + g.width ≤ 64) :
    (s.setFlag f i b).flag g j = s.flag g j := State.flag_wr_other _ _ h hg

theorem State.rd_wrS (s : State) (f : Field) (i : Nat) (v : Int) (h : f.lo + f.width ≤ 64) : (s.wrS f i v).rd f i = unsigned f.width v := by
  have hv : unsigned f.width v < 2 ^ f.width := by
    have : v % 2 ^ f.width < 2 ^ f.width := Int.emod_lt_of_pos _ (Int.pow_pos (by decide))
    have h0 : 0 ≤ v % 2 ^ f.width := Int.emod_nonneg _ (Int.ne_of_gt (Int.pow_pos (by decide)))
    have e : ((2 ^ f.width : Nat) : Int) = 2 ^ f.width := by simp
    unfold unsigned
    omega
  exact (State.rd_wr _ _ _ _ h).trans (Nat.mod_eq_of_lt hv)

theorem State.rd_wrS_other (s : State) {f g : Field} {i j : Nat} (v : Int) (h : j ≠ i ∨ f.apart g = true) (hg : g.lo + g.width ≤ 64) :
    (s.wrS f i v).rd g j = s.rd g j := State.rd_wr_other _ _ h hg

/-- An event counter read after it is advanced (00 R8). -/
@[simp] theorem State.word_count (s : State) (r : Reg) (i : Nat) : (s.count r i).word r i = s.word r i + 1 := State.word_setWord_same ..

@[simp] theorem State.word_countBy (s : State) (r : Reg) (i n : Nat) : (s.countBy r i n).word r i = s.word r i + BitVec.ofNat 64 n :=
  State.word_setWord_same ..

theorem State.word_count_other (s : State) {r q : Reg} {i j : Nat} (h : r ≠ q ∨ i ≠ j) : (s.count r i).word q j = s.word q j :=
  State.word_setWord_other _ _ h

theorem State.word_wr_other (s : State) {f : Field} {q : Reg} {i j : Nat} (v : Nat) (h : f.reg ≠ q ∨ i ≠ j) : (s.wr f i v).word q j = s.word q j :=
  State.word_setWord_other _ _ h

/-! ### Bits of a field -/

theorem bit_eq_testBit (x k : Nat) : bit x k = x.testBit k := by
  rw [Nat.testBit_eq_decide_div_mod_eq]; rfl

theorem setBit_eq (x k : Nat) (b : Bool) : setBit x k b = putField x k 1 (b2n b) := by
  unfold setBit putField field bit b2n
  cases b <;> rcases Nat.mod_two_eq_zero_or_one (x / 2 ^ k) with h | h <;> simp [h]
  have : 2 ^ k ≤ x := Nat.le_of_not_lt fun hc => by
    rw [Nat.div_eq_of_lt hc] at h
    omega
  omega

theorem bit_putField_one (x k v : Nat) : bit (putField x k 1 v) k = decide (v % 2 = 1) := by
  have := field_putField_same x k 1 v
  unfold field at this
  unfold bit
  rw [Nat.pow_one] at this
  rw [this]

/-- Bit `j` of a number whose bit `k` has been set or cleared. -/
theorem bit_setBit (x k j : Nat) (b : Bool) : bit (setBit x k b) j = if j = k then b else bit x j := by
  rw [setBit_eq]
  split
  · next e => subst e; rw [bit_putField_one]; cases b <;> rfl
  · next e =>
    have h : field (putField x k 1 (b2n b)) j 1 = field x j 1 := field_putField_other (by omega)
    unfold field at h
    unfold bit
    rw [Nat.pow_one] at h
    rw [h]

theorem bit_mod {x n k : Nat} (h : k < n) : bit (x % 2 ^ n) k = bit x k := by
  rw [bit_eq_testBit, bit_eq_testBit, Nat.testBit_mod_two_pow]; simp [h]

/-- A bit of a field read after it is set. -/
theorem State.rdBit_wrBit (s : State) (f : Field) (i k j : Nat) (b : Bool) (h : f.lo + f.width ≤ 64) (hj : j < f.width) :
    (s.wrBit f i k b).rdBit f i j = if j = k then b else s.rdBit f i j := by
  unfold State.rdBit State.wrBit
  rw [State.rd_wr _ _ _ _ h, bit_mod hj, bit_setBit]

/-! ### Frames -/

theorem Within.rd {k : Foot} {s t : State} (h : Within k s t) {f : Field} (hf : k.hasReg f.reg = false) (i : Nat) : t.rd f i = s.rd f i :=
  State.rd_congr (h.word _ hf i)

theorem Within.flag {k : Foot} {s t : State} (h : Within k s t) {f : Field} (hf : k.hasReg f.reg = false) (i : Nat) : t.flag f i = s.flag f i :=
  State.flag_congr (h.word _ hf i)

theorem Within.rdBit {k : Foot} {s t : State} (h : Within k s t) {f : Field} (hf : k.hasReg f.reg = false) (i j : Nat) :
    t.rdBit f i j = s.rdBit f i j := by
  unfold State.rdBit; rw [h.rd hf]

end Sys2Proof.Machine
end

