-- ==== Sys2Proof/Laws/Access.lean ====
section
/-! SUPPORT. Control-bus accesses: what is left of one that its path, target and level allow, and of one that is refused (12 R311 to R317, R330 to
R332). -/

namespace Sys2Proof.Machine

/-- What counts an access before it is carried out: meters, grants, splits, the turn of its target and what it passes over. -/
def Foot.counted : Foot := .of [.pm, .bus] [.busGrants, .busSplits]

theorem Foot.counted_available {s x : State} (h : Within .counted s x) (t : Nat) : x.available t = s.available t := by
  unfold State.available
  rw [h.boot (by decide), h.rdBit (f := F.hbmStateInitDone) (by decide), h.rdBit (f := F.lagStateStackLost) (by decide),
    h.rdBit (f := F.lagStateRestoring) (by decide)]

/-- An access of a master none of whose accesses waits, over a path that exists, of a target that answers: carried out on a state that differs by its
counts alone. -/
theorem State.byTarget_ok (s : State) (m : Master) (t addr n : Nat) (w : Bool) (f : State → State) (h : s.reaches m t w = true) :
    ∃ x, Within .counted s x ∧ s.byTarget m t addr n w f = f x := by
  simp only [State.reaches, Bool.and_eq_true, Bool.not_eq_true'] at h
  obtain ⟨⟨hp, hw⟩, ha⟩ := h
  have h : Within .counted s (((s.hostMeter m w n).passOver m t).grantAll m t addr n) :=
    .after (State.grantAll_within ..) (.after (State.passOver_within ..) ((State.hostMeter_within ..).mono (by decide)) (by decide)) (by decide)
  refine ⟨_, h, ?_⟩
  unfold State.byTarget
  rw [if_neg (by rw [hw]; decide)]
  dsimp only
  rw [if_neg (by rw [hp]; decide), Foot.counted_available h, if_pos ha]

/-- Whether a master may reach the registers. -/
theorem hasPath_regs (m : Master) (h : m = .hostA ∨ m = .hostB ∨ m = .boot) (w : Bool) : hasPath m 18 w = true := by
  rcases h with rfl | rfl | rfl <;> rfl

theorem State.byReg_ok (s : State) (m : Master) (r : Reg) (i n : Nat) (w : Bool) (f : State → State) (h : s.reaches m 18 w = true) :
    ∃ x, Within .counted s x ∧ s.byReg m r i n w f = f x := s.byTarget_ok m 18 _ n w f h

theorem State.expertOnly_ok (s : State) (m : Master) (a : Nat) (f : State → State) (h : s.expert m = true) : s.expertOnly m a f = f s := if_pos h

theorem State.valueOnly_ok (s : State) (m : Master) (a : Nat) (ok : Bool) (f : State → State) (h : ok = true) : s.valueOnly m a ok f = f s := if_pos h

/-- The level a master acts at depends on BUS_STATUS alone (12 R330). -/
theorem Within.expert {k : Foot} {s t : State} (h : Within k s t) (hk : k.hasReg .busStatus = false) (m : Master) : t.expert m = s.expert m := by
  cases m <;> first | rfl | exact h.flag (f := F.busStatusExpert) hk 0

end Sys2Proof.Machine
end

