-- ==== Sys2Proof/Laws/Alarms.lean ====
section
/-! SUPPORT. Alarms: which instances are ACTIVE and which LATCH bits stand after a raise or a clear (14 R365, 15 R387). -/

namespace Sys2Proof.Machine

theorem Tbl.get_modify {α : Type} [DecidableEq α] (d : α) (t : Tbl α) (k j : Nat) (f : α → α) :
    Tbl.get d (Tbl.modify d t k f) j = if j = k then f (Tbl.get d t k) else Tbl.get d t j := Tbl.get_set ..

/-- What follows the change of ACT and LATCH in a raise or a clear. -/
def Foot.tell : Foot := .of [.irqs, .log, .pm, .events, .bus]
  [.busStatus, .busGrants, .logState, .logEvbEntries, .logDropped, .logEvbLost, .logEntries, .sysIntSrc]

theorem State.raise_eq (s : State) (a i : Nat) (h : s.active a i = false) :
    Within .tell { s with act := Tbl.modify 0 s.act a (· ||| 1#256 <<< i), latch := Tbl.modify 0 s.latch a (· ||| 1#256 <<< i) } (s.raise a i) := by
  unfold State.raise
  rw [if_neg (by rw [h]; decide)]
  dsimp only
  refine .after (State.irqSync_within _) (.after (State.recoverySync_within _) (.after (State.logEvent_within ..) ?_ (by decide)) (by decide)) (by decide)
  refine .ite ?_ (.ite ?_ ?_)
  all_goals first
    | refine Within.set_log (.after (State.srcBlk_within ..) ?_ (by decide)) (by decide)
    | refine .after (State.srcBlk_within ..) ?_ (by decide)
  all_goals exact .ite (.after (State.setSrc_within ..) (.after (State.setSrc_within ..) (.refl ..) (by decide)) (by decide)) (.refl ..)

theorem State.clear_eq (s : State) (a i : Nat) (h : s.active a i = true) :
    Within .tell { s with act := Tbl.modify 0 s.act a (· &&& ~~~(1#256 <<< i)) } (s.clear a i) := by
  unfold State.clear
  rw [if_pos h]
  dsimp only
  exact .after (State.irqSync_within _) (.after (State.recoverySync_within _) (.after (State.logEvent_within ..)
    (.after (State.srcBlk_within ..) (.refl ..) (by decide)) (by decide)) (by decide)) (by decide)

theorem one_shiftLeft_getLsbD (i j : Nat) (hi : i < 256) : (1#256 <<< i).getLsbD j = decide (j = i) := by
  simp only [BitVec.getLsbD_shiftLeft, BitVec.getLsbD_one]
  by_cases h : j = i
  · subst h; simp [hi]
  · simp only [h, decide_false]
    by_cases h' : j < i
    · simp [h']
    · simp; omega

theorem or_one_shiftLeft_getLsbD (x : BitVec 256) (i j : Nat) (hi : i < 256) : (x ||| 1#256 <<< i).getLsbD j = (x.getLsbD j || decide (j = i)) := by
  rw [BitVec.getLsbD_or, one_shiftLeft_getLsbD i j hi]

theorem and_not_one_shiftLeft_getLsbD (x : BitVec 256) (i j : Nat) (hi : i < 256) :
    (x &&& ~~~(1#256 <<< i)).getLsbD j = (x.getLsbD j && decide (j ≠ i)) := by
  rw [BitVec.getLsbD_and, BitVec.getLsbD_not, one_shiftLeft_getLsbD i j hi]
  by_cases hj : j < 256
  · simp [hj]
  · simp [BitVec.getLsbD_of_ge x j (by omega)]

/-- After a raise the instance is ACTIVE, and every other is as it was. -/
theorem State.active_raise (s : State) (a i b j : Nat) (hi : i < 256) :
    (s.raise a i).active b j = (s.active b j || (decide (b = a) && decide (j = i))) := by
  by_cases h : s.active a i = true
  · have : s.raise a i = s := if_pos h
    rw [this]
    by_cases e : b = a ∧ j = i
    · rw [e.1, e.2, h]; rfl
    · by_cases hb : b = a
      · have : j ≠ i := fun hj => e ⟨hb, hj⟩
        simp [this]
      · simp [hb]
  · rw [Bool.not_eq_true] at h
    have e := (s.raise_eq a i h).act (by decide)
    unfold State.active
    rw [e]
    dsimp only
    rw [Tbl.get_modify]
    split
    · next hb => subst hb; rw [or_one_shiftLeft_getLsbD _ _ _ hi]; simp
    · next hb => simp [hb]

/-- After a clear the instance is not ACTIVE, and every other is as it was. -/
theorem State.active_clear (s : State) (a i b j : Nat) (hi : i < 256) :
    (s.clear a i).active b j = (s.active b j && !(decide (b = a) && decide (j = i))) := by
  by_cases h : s.active a i = true
  · have e := (s.clear_eq a i h).act (by decide)
    unfold State.active
    rw [e]
    dsimp only
    rw [Tbl.get_modify]
    split
    · next hb => subst hb; rw [and_not_one_shiftLeft_getLsbD _ _ _ hi]; simp
    · next hb => simp [hb]
  · have : s.clear a i = s := if_neg h
    rw [this]
    by_cases e : b = a ∧ j = i
    · rw [e.1, e.2]; simp [h]
    · by_cases hb : b = a
      · have : j ≠ i := fun hj => e ⟨hb, hj⟩
        simp [this]
      · simp [hb]

/-- A raise of an instance that is not ACTIVE sets its LATCH bit and leaves the others. -/
theorem State.latched_raise (s : State) (a i b j : Nat) (hi : i < 256) (h : s.active a i = false) :
    (s.raise a i).latched b j = (s.latched b j || (decide (b = a) && decide (j = i))) := by
  have e := (s.raise_eq a i h).latch (by decide)
  unfold State.latched
  rw [e]
  dsimp only
  rw [Tbl.get_modify]
  split
  · next hb => subst hb; rw [or_one_shiftLeft_getLsbD _ _ _ hi]; simp
  · next hb => simp [hb]

/-- A clear leaves LATCH alone. -/
theorem State.latched_clear (s : State) (a i b j : Nat) : (s.clear a i).latched b j = s.latched b j := by
  unfold State.latched
  rw [(State.clear_within s a i).latch (by decide)]

theorem State.active_setAlarm (s : State) (a i b j : Nat) (v : Bool) (hi : i < 256) :
    (s.setAlarm a i v).active b j = if b = a ∧ j = i then v else s.active b j := by
  unfold State.setAlarm
  split
  · next h =>
    subst h
    rw [State.active_raise _ _ _ _ _ hi]
    split
    · next e => simp [e]
    · next e => by_cases hb : b = a <;> simp_all
  · next h =>
    simp only [Bool.not_eq_true] at h
    subst h
    rw [State.active_clear _ _ _ _ _ hi]
    split
    · next e => simp [e]
    · next e => by_cases hb : b = a <;> simp_all

/-- ACT is a matter of the field `act` alone. -/
theorem State.active_congr {s t : State} (h : t.act = s.act) (a i : Nat) : t.active a i = s.active a i := by unfold State.active; rw [h]

theorem Within.active {k : Foot} {s t : State} (h : Within k s t) (hk : k.hasComp .act = false) (a i : Nat) : t.active a i = s.active a i :=
  State.active_congr (h.act hk) a i

end Sys2Proof.Machine
end

