-- ==== Sys2Proof/Laws/Footprint/Integrity.lean ====
section
/-! SUPPORT. What each operation of Machine/Integrity.lean may touch. -/

namespace Sys2Proof.Machine

theorem State.hardCandidate_within (s : State) (addr : Nat) (b : Nat) (cause : Nat) :
    Within (.of [.log, .pm, .events, .bus] [.busGrants, .logState, .logEvbEntries, .logDropped, .logEvbLost, .logEntries, .sysIntSrc]) s (State.hardCandidate s addr b cause) := by
  delta State.hardCandidate
  repeat' first
    | with_reducible assumption
    | with_reducible apply Within.refl
    | ((with_reducible apply Within.after (State.logEvent_within ..)); (case hle => decide))
    | (intro x
       have hx : Within (.of [.log, .pm, .events, .bus] [.busGrants, .logState, .logEvbEntries, .logDropped, .logEvbLost, .logEntries, .sysIntSrc]) s x := by
         dsimp -zeta only [x]
         repeat' first
           | with_reducible assumption
           | with_reducible apply Within.refl
           | ((with_reducible apply Within.after (State.logEvent_within ..)); (case hle => decide))
           | with_reducible apply Within.ite
           | ((with_reducible apply Within.set_log); (case hc => decide))
           | split
           | dsimp -zeta only
           | dsimp +zetaDelta only
       clear_value x)
    | intro x
    | lift_lets
    | with_reducible apply Within.ite
    | ((with_reducible apply Within.set_log); (case hc => decide))
    | split
    | dsimp -zeta only
    | dsimp +zetaDelta only

theorem State.trackerHard_within (s : State) (n : Nat) :
    Within (.of [.act, .latch, .irqs, .log, .pm, .events, .bus] [.eccStatus, .eccTrack, .busStatus, .busGrants, .logState, .logEvbEntries, .logDropped, .logEvbLost, .logEntries, .sysIntSrc]) s (State.trackerHard s n) := by
  delta State.trackerHard
  repeat' first
    | with_reducible assumption
    | with_reducible apply Within.refl
    | ((with_reducible apply Within.wr); (case hr => first | decide | exact Foot.allRegs_hasReg _ _ | exact Foot.all_hasReg _ | (subst_vars; decide) | ((try dsimp +zetaDelta only); split <;> first | decide | (split <;> first | decide | (split <;> decide)))))
    | ((with_reducible apply Within.setFlag); (case hr => first | decide | exact Foot.allRegs_hasReg _ _ | exact Foot.all_hasReg _ | (subst_vars; decide) | ((try dsimp +zetaDelta only); split <;> first | decide | (split <;> first | decide | (split <;> decide)))))
    | ((with_reducible apply Within.after (State.hardCandidate_within ..)); (case hle => decide))
    | ((with_reducible apply Within.after (State.raise_within ..)); (case hle => decide))
    | (intro x
       have hx : Within (.of [.act, .latch, .irqs, .log, .pm, .events, .bus] [.eccStatus, .eccTrack, .busStatus, .busGrants, .logState, .logEvbEntries, .logDropped, .logEvbLost, .logEntries, .sysIntSrc]) s x := by
         dsimp -zeta only [x]
         repeat' first
           | with_reducible assumption
           | with_reducible apply Within.refl
           | ((with_reducible apply Within.wr); (case hr => first | decide | exact Foot.allRegs_hasReg _ _ | exact Foot.all_hasReg _ | (subst_vars; decide) | ((try dsimp +zetaDelta only); split <;> first | decide | (split <;> first | decide | (split <;> decide)))))
           | ((with_reducible apply Within.setFlag); (case hr => first | decide | exact Foot.allRegs_hasReg _ _ | exact Foot.all_hasReg _ | (subst_vars; decide) | ((try dsimp +zetaDelta only); split <;> first | decide | (split <;> first | decide | (split <;> decide)))))
           | ((with_reducible apply Within.after (State.hardCandidate_within ..)); (case hle => decide))
           | ((with_reducible apply Within.after (State.raise_within ..)); (case hle => decide))
           | with_reducible apply Within.ite
           | split
           | dsimp -zeta only
           | dsimp +zetaDelta only
       clear_value x)
    | intro x
    | lift_lets
    | with_reducible apply Within.ite
    | split
    | dsimp -zeta only
    | dsimp +zetaDelta only

theorem State.markCounted_within (s : State) (n : Nat) :
    Within (.of [.ecc] []) s (State.markCounted s n) := by
  delta State.markCounted
  repeat' first
    | with_reducible assumption
    | with_reducible apply Within.refl
    | with_reducible apply Within.ite
    | ((with_reducible apply Within.set_ecc); (case hc => decide))
    | split
    | dsimp -zeta only

theorem State.trackCount_within (s : State) (addr : Nat) (b : Nat) :
    Within (.of [.act, .latch, .irqs, .log, .pm, .events, .ecc, .bus] [.eccStatus, .eccTrack, .eccTrackFull, .busStatus, .busGrants, .logState, .logEvbEntries, .logDropped, .logEvbLost, .logEntries, .sysIntSrc]) s (State.trackCount s addr b) := by
  delta State.trackCount
  repeat' first
    | with_reducible assumption
    | with_reducible apply Within.refl
    | ((with_reducible apply Within.setWord); (case hr => first | decide | exact Foot.allRegs_hasReg _ _ | exact Foot.all_hasReg _ | (subst_vars; decide) | ((try dsimp +zetaDelta only); split <;> first | decide | (split <;> first | decide | (split <;> decide)))))
    | ((with_reducible apply Within.wr); (case hr => first | decide | exact Foot.allRegs_hasReg _ _ | exact Foot.all_hasReg _ | (subst_vars; decide) | ((try dsimp +zetaDelta only); split <;> first | decide | (split <;> first | decide | (split <;> decide)))))
    | ((with_reducible apply Within.setFlag); (case hr => first | decide | exact Foot.allRegs_hasReg _ _ | exact Foot.all_hasReg _ | (subst_vars; decide) | ((try dsimp +zetaDelta only); split <;> first | decide | (split <;> first | decide | (split <;> decide)))))
    | ((with_reducible apply Within.count); (case hr => first | decide | exact Foot.allRegs_hasReg _ _ | exact Foot.all_hasReg _ | (subst_vars; decide) | ((try dsimp +zetaDelta only); split <;> first | decide | (split <;> first | decide | (split <;> decide)))))
    | ((with_reducible apply Within.after (State.markCounted_within ..)); (case hle => decide))
    | ((with_reducible apply Within.after (State.trackerHard_within ..)); (case hle => decide))
    | ((with_reducible apply Within.after (State.raise_within ..)); (case hle => decide))
    | (intro x
       have hx : Within (.of [.act, .latch, .irqs, .log, .pm, .events, .ecc, .bus] [.eccStatus, .eccTrack, .eccTrackFull, .busStatus, .busGrants, .logState, .logEvbEntries, .logDropped, .logEvbLost, .logEntries, .sysIntSrc]) s x := by
         dsimp -zeta only [x]
         repeat' first
           | with_reducible assumption
           | with_reducible apply Within.refl
           | ((with_reducible apply Within.setWord); (case hr => first | decide | exact Foot.allRegs_hasReg _ _ | exact Foot.all_hasReg _ | (subst_vars; decide) | ((try dsimp +zetaDelta only); split <;> first | decide | (split <;> first | decide | (split <;> decide)))))
           | ((with_reducible apply Within.wr); (case hr => first | decide | exact Foot.allRegs_hasReg _ _ | exact Foot.all_hasReg _ | (subst_vars; decide) | ((try dsimp +zetaDelta only); split <;> first | decide | (split <;> first | decide | (split <;> decide)))))
           | ((with_reducible apply Within.setFlag); (case hr => first | decide | exact Foot.allRegs_hasReg _ _ | exact Foot.all_hasReg _ | (subst_vars; decide) | ((try dsimp +zetaDelta only); split <;> first | decide | (split <;> first | decide | (split <;> decide)))))
           | ((with_reducible apply Within.count); (case hr => first | decide | exact Foot.allRegs_hasReg _ _ | exact Foot.all_hasReg _ | (subst_vars; decide) | ((try dsimp +zetaDelta only); split <;> first | decide | (split <;> first | decide | (split <;> decide)))))
           | ((with_reducible apply Within.after (State.markCounted_within ..)); (case hle => decide))
           | ((with_reducible apply Within.after (State.trackerHard_within ..)); (case hle => decide))
           | ((with_reducible apply Within.after (State.raise_within ..)); (case hle => decide))
           | with_reducible apply Within.ite
           | split
           | dsimp -zeta only
           | dsimp +zetaDelta only
       clear_value x)
    | intro x
    | lift_lets
    | with_reducible apply Within.ite
    | split
    | dsimp -zeta only
    | dsimp +zetaDelta only

theorem State.wantRestore_within (s : State) (a1 : Nat) :
    Within (.of [.ecc] []) s (State.wantRestore s a1) := by
  delta State.wantRestore
  repeat' first
    | with_reducible assumption
    | with_reducible apply Within.refl
    | with_reducible apply Within.ite
    | ((with_reducible apply Within.set_ecc); (case hc => decide))
    | split
    | dsimp -zeta only

theorem State.ueSeen_within (s : State) (a1 : Nat) (path : Bool) :
    Within (.of [.free, .tick, .act, .latch, .irqs, .log, .pm, .events, .bus] [.eccStatus, .eccLastUe, .eccUe, .busStatus, .busGrants, .logState, .logEvbEntries, .logDropped, .logEvbLost, .logEntries, .sysIntSrc]) s (State.ueSeen s a1 path) := by
  delta State.ueSeen
  repeat' first
    | with_reducible assumption
    | with_reducible apply Within.refl
    | ((with_reducible apply Within.setWord); (case hr => first | decide | exact Foot.allRegs_hasReg _ _ | exact Foot.all_hasReg _ | (subst_vars; decide) | ((try dsimp +zetaDelta only); split <;> first | decide | (split <;> first | decide | (split <;> decide)))))
    | ((with_reducible apply Within.setFlag); (case hr => first | decide | exact Foot.allRegs_hasReg _ _ | exact Foot.all_hasReg _ | (subst_vars; decide) | ((try dsimp +zetaDelta only); split <;> first | decide | (split <;> first | decide | (split <;> decide)))))
    | ((with_reducible apply Within.count); (case hr => first | decide | exact Foot.allRegs_hasReg _ _ | exact Foot.all_hasReg _ | (subst_vars; decide) | ((try dsimp +zetaDelta only); split <;> first | decide | (split <;> first | decide | (split <;> decide)))))
    | ((with_reducible apply Within.after (State.raise_within ..)); (case hle => decide))
    | ((with_reducible apply Within.after (State.takeFree_within ..)); (case hle => decide))
    | ((with_reducible apply Within.after (Within.of_eq (State.takeFree_within ..) ?e)); (case e => assumption); (case hle => decide))
    | ((with_reducible apply Within.after (State.logEvent_within ..)); (case hle => decide))
    | (intro x
       have hx : Within (.of [.free, .tick, .act, .latch, .irqs, .log, .pm, .events, .bus] [.eccStatus, .eccLastUe, .eccUe, .busStatus, .busGrants, .logState, .logEvbEntries, .logDropped, .logEvbLost, .logEntries, .sysIntSrc]) s x := by
         dsimp -zeta only [x]
         repeat' first
           | with_reducible assumption
           | with_reducible apply Within.refl
           | ((with_reducible apply Within.setWord); (case hr => first | decide | exact Foot.allRegs_hasReg _ _ | exact Foot.all_hasReg _ | (subst_vars; decide) | ((try dsimp +zetaDelta only); split <;> first | decide | (split <;> first | decide | (split <;> decide)))))
           | ((with_reducible apply Within.setFlag); (case hr => first | decide | exact Foot.allRegs_hasReg _ _ | exact Foot.all_hasReg _ | (subst_vars; decide) | ((try dsimp +zetaDelta only); split <;> first | decide | (split <;> first | decide | (split <;> decide)))))
           | ((with_reducible apply Within.count); (case hr => first | decide | exact Foot.allRegs_hasReg _ _ | exact Foot.all_hasReg _ | (subst_vars; decide) | ((try dsimp +zetaDelta only); split <;> first | decide | (split <;> first | decide | (split <;> decide)))))
           | ((with_reducible apply Within.after (State.raise_within ..)); (case hle => decide))
           | ((with_reducible apply Within.after (State.takeFree_within ..)); (case hle => decide))
           | ((with_reducible apply Within.after (Within.of_eq (State.takeFree_within ..) ?e)); (case e => assumption); (case hle => decide))
           | ((with_reducible apply Within.after (State.logEvent_within ..)); (case hle => decide))
           | with_reducible apply Within.ite
           | split
           | dsimp -zeta only
           | dsimp +zetaDelta only
           | ((with_reducible apply Within.set_tick); (case hc => decide))
           | ((with_reducible apply Within.set_log); (case hc => decide))
       clear_value x)
    | intro x
    | lift_lets
    | with_reducible apply Within.ite
    | split
    | dsimp -zeta only
    | dsimp +zetaDelta only
    | ((with_reducible apply Within.set_tick); (case hc => decide))
    | ((with_reducible apply Within.set_log); (case hc => decide))

theorem State.ueFound_within (s : State) (a1 : Nat) (path : Bool) :
    Within (.of [.free, .tick, .act, .latch, .irqs, .log, .pm, .events, .ecc, .bus] [.almState, .almStageFail, .eccStatus, .eccLastUe, .eccUe, .busStatus, .busGrants, .logState, .logEvbEntries, .logDropped, .logEvbLost, .logEntries, .sysIntSrc]) s (State.ueFound s a1 path) := by
  delta State.ueFound
  repeat' first
    | with_reducible assumption
    | with_reducible apply Within.refl
    | ((with_reducible apply Within.wr); (case hr => first | decide | exact Foot.allRegs_hasReg _ _ | exact Foot.all_hasReg _ | (subst_vars; decide) | ((try dsimp +zetaDelta only); split <;> first | decide | (split <;> first | decide | (split <;> decide)))))
    | ((with_reducible apply Within.count); (case hr => first | decide | exact Foot.allRegs_hasReg _ _ | exact Foot.all_hasReg _ | (subst_vars; decide) | ((try dsimp +zetaDelta only); split <;> first | decide | (split <;> first | decide | (split <;> decide)))))
    | ((with_reducible apply Within.after (State.ueSeen_within ..)); (case hle => decide))
    | ((with_reducible apply Within.after (State.wantRestore_within ..)); (case hle => decide))
    | (intro x
       have hx : Within (.of [.free, .tick, .act, .latch, .irqs, .log, .pm, .events, .ecc, .bus] [.almState, .almStageFail, .eccStatus, .eccLastUe, .eccUe, .busStatus, .busGrants, .logState, .logEvbEntries, .logDropped, .logEvbLost, .logEntries, .sysIntSrc]) s x := by
         dsimp -zeta only [x]
         repeat' first
           | with_reducible assumption
           | with_reducible apply Within.refl
           | ((with_reducible apply Within.wr); (case hr => first | decide | exact Foot.allRegs_hasReg _ _ | exact Foot.all_hasReg _ | (subst_vars; decide) | ((try dsimp +zetaDelta only); split <;> first | decide | (split <;> first | decide | (split <;> decide)))))
           | ((with_reducible apply Within.count); (case hr => first | decide | exact Foot.allRegs_hasReg _ _ | exact Foot.all_hasReg _ | (subst_vars; decide) | ((try dsimp +zetaDelta only); split <;> first | decide | (split <;> first | decide | (split <;> decide)))))
           | ((with_reducible apply Within.after (State.ueSeen_within ..)); (case hle => decide))
           | ((with_reducible apply Within.after (State.wantRestore_within ..)); (case hle => decide))
           | with_reducible apply Within.ite
           | split
           | dsimp -zeta only
           | dsimp +zetaDelta only
       clear_value x)
    | intro x
    | lift_lets
    | with_reducible apply Within.ite
    | split
    | dsimp -zeta only
    | dsimp +zetaDelta only

theorem Within.readWith {f : Foot} {s x : State} (a : Nat) (poisoned : Bool) (v : Nat) (flips : List Nat) (g : State → State)
    (h : Within f s x) (hp : f.hasReg .eccPoison = true) (hc : f.hasReg .eccCorr = true) (hl : f.hasComp .log = true)
    (ht : (Foot.of [.act, .latch, .irqs, .log, .pm, .events, .ecc, .bus] [.eccStatus, .eccTrack, .eccTrackFull, .busStatus, .busGrants, .logState, .logEvbEntries, .logDropped, .logEvbLost, .logEntries, .sysIntSrc]).le f = true) (hg : ∀ y, Within f s y → Within f s (g y)) :
    Within f s (x.readWith a poisoned v flips g).2 := by
  unfold State.readWith
  split
  · split
    · exact h.count _ _ hp
    · exact h
  · split
    · exact h
    · exact .after (State.trackCount_within ..) (.count _ _ (h.set_log hl) hc) ht
    · exact hg _ h
    · exact h.count _ _ hp

theorem State.sramRead_within (s : State) (a1 : Nat) (poisoned : Bool) (v : Nat) (path : Bool) :
    Within (.of [.free, .tick, .act, .latch, .irqs, .log, .pm, .events, .ecc, .bus] [.almState, .almStageFail, .eccStatus, .eccLastUe, .eccTrack, .eccCorr, .eccUe, .eccPoison, .eccTrackFull, .busStatus, .busGrants, .logState, .logEvbEntries, .logDropped, .logEvbLost, .logEntries, .sysIntSrc]) s (State.sramRead s a1 poisoned v path).2 := by
  delta State.sramRead
  repeat' first
    | with_reducible assumption
    | with_reducible apply Within.refl
    | ((with_reducible apply Within.readWith); (case hp => decide); (case hc => decide); (case hl => decide); (case ht => decide); (case' hg => intro _ _))
    | ((with_reducible apply Within.after (State.ueFound_within ..)); (case hle => decide))
    | with_reducible apply Within.ite
    | split
    | dsimp -zeta only

theorem State.freshWord_within (s : State) (a1 : Nat) :
    Within (.of [.ecc] []) s (State.freshWord s a1) := by
  delta State.freshWord
  repeat' first
    | with_reducible assumption
    | with_reducible apply Within.refl
    | with_reducible apply Within.ite
    | ((with_reducible apply Within.set_ecc); (case hc => decide))
    | split
    | dsimp -zeta only

theorem State.freshBanks_within (s : State) (mem : Nat) (bank : Nat) (n : Nat) :
    Within (.of [.ecc] []) s (State.freshBanks s mem bank n) := by
  delta State.freshBanks
  repeat' first
    | with_reducible assumption
    | with_reducible apply Within.refl
    | with_reducible apply Within.ite
    | ((with_reducible apply Within.set_ecc); (case hc => decide))
    | split
    | dsimp -zeta only

theorem State.freshWords_within (s : State) (mem : Nat) (bank : Nat) (n : Nat) :
    Within (.of [.ecc] []) s (State.freshWords s mem bank n) := by
  delta State.freshWords
  repeat' first
    | with_reducible assumption
    | with_reducible apply Within.refl
    | with_reducible apply Within.ite
    | ((with_reducible apply Within.set_ecc); (case hc => decide))
    | split
    | dsimp -zeta only

theorem State.fullWrite_within (s : State) (a1 : Nat) :
    Within (.of [.act, .irqs, .log, .pm, .events, .ecc, .bus] [.eccStatus, .eccTrack, .busStatus, .busGrants, .logState, .logEvbEntries, .logDropped, .logEvbLost, .logEntries, .sysIntSrc]) s (State.fullWrite s a1) := by
  delta State.fullWrite
  repeat' first
    | with_reducible assumption
    | with_reducible apply Within.refl
    | ((with_reducible apply Within.wr); (case hr => first | decide | exact Foot.allRegs_hasReg _ _ | exact Foot.all_hasReg _ | (subst_vars; decide) | ((try dsimp +zetaDelta only); split <;> first | decide | (split <;> first | decide | (split <;> decide)))))
    | ((with_reducible apply Within.setFlag); (case hr => first | decide | exact Foot.allRegs_hasReg _ _ | exact Foot.all_hasReg _ | (subst_vars; decide) | ((try dsimp +zetaDelta only); split <;> first | decide | (split <;> first | decide | (split <;> decide)))))
    | ((with_reducible apply Within.after (State.clear_within ..)); (case hle => decide))
    | (intro x
       have hx : Within (.of [.act, .irqs, .log, .pm, .events, .ecc, .bus] [.eccStatus, .eccTrack, .busStatus, .busGrants, .logState, .logEvbEntries, .logDropped, .logEvbLost, .logEntries, .sysIntSrc]) s x := by
         dsimp -zeta only [x]
         repeat' first
           | with_reducible assumption
           | with_reducible apply Within.refl
           | ((with_reducible apply Within.wr); (case hr => first | decide | exact Foot.allRegs_hasReg _ _ | exact Foot.all_hasReg _ | (subst_vars; decide) | ((try dsimp +zetaDelta only); split <;> first | decide | (split <;> first | decide | (split <;> decide)))))
           | ((with_reducible apply Within.setFlag); (case hr => first | decide | exact Foot.allRegs_hasReg _ _ | exact Foot.all_hasReg _ | (subst_vars; decide) | ((try dsimp +zetaDelta only); split <;> first | decide | (split <;> first | decide | (split <;> decide)))))
           | ((with_reducible apply Within.after (State.clear_within ..)); (case hle => decide))
           | with_reducible apply Within.ite
           | split
           | dsimp -zeta only
           | dsimp +zetaDelta only
           | ((with_reducible apply Within.set_ecc); (case hc => decide))
       clear_value x)
    | intro x
    | lift_lets
    | with_reducible apply Within.ite
    | split
    | dsimp -zeta only
    | dsimp +zetaDelta only
    | ((with_reducible apply Within.set_ecc); (case hc => decide))

theorem State.partialRead_within (s : State) (a1 : Nat) (v : Nat) :
    Within (.of [.free, .tick, .act, .latch, .irqs, .log, .pm, .events, .ecc, .bus] [.almState, .almStageFail, .eccStatus, .eccLastUe, .eccTrack, .eccCorr, .eccUe, .eccPoison, .eccTrackFull, .busStatus, .busGrants, .logState, .logEvbEntries, .logDropped, .logEvbLost, .logEntries, .sysIntSrc]) s (State.partialRead s a1 v).2 := by
  delta State.partialRead
  repeat' first
    | with_reducible assumption
    | with_reducible apply Within.refl
    | ((with_reducible apply Within.after (State.sramRead_within ..)); (case hle => decide))
    | ((with_reducible apply Within.after (Within.of_eq (State.sramRead_within ..) ?e)); (case e => assumption); (case hle => decide))
    | with_reducible apply Within.ite
    | split
    | dsimp -zeta only

theorem State.candDrop_within (s : State) (n : Nat) :
    Within (.of [] [.hbmCand]) s (State.candDrop s n) := by
  delta State.candDrop
  repeat' first
    | with_reducible assumption
    | with_reducible apply Within.refl
    | ((with_reducible apply Within.setWord); (case hr => first | decide | exact Foot.allRegs_hasReg _ _ | exact Foot.all_hasReg _ | (subst_vars; decide) | ((try dsimp +zetaDelta only); split <;> first | decide | (split <;> first | decide | (split <;> decide)))))
    | ((with_reducible apply Within.iter_snd); (case' hg => intro _ _ _))
    | ((with_reducible apply Within.iter); (case' hg => intro _ _ _))
    | with_reducible apply Within.ite
    | split
    | dsimp -zeta only

theorem State.candPlace_within (s : State) :
    Within (.of [.ecc] [.hbmCand]) s (State.candPlace s).2 := by
  delta State.candPlace
  repeat' first
    | with_reducible assumption
    | with_reducible apply Within.refl
    | ((with_reducible apply Within.after (State.candDrop_within ..)); (case hle => decide))
    | with_reducible apply Within.ite
    | split
    | dsimp -zeta only
    | ((with_reducible apply Within.set_ecc); (case hc => decide))

theorem State.hbmCandidate_within (s : State) (row : Nat) (t : Nat) :
    Within (.of [.log, .pm, .events, .ecc, .bus] [.hbmCand, .busGrants, .logState, .logEvbEntries, .logDropped, .logEvbLost, .logEntries, .sysIntSrc]) s (State.hbmCandidate s row t) := by
  delta State.hbmCandidate
  repeat' first
    | with_reducible assumption
    | with_reducible apply Within.refl
    | ((with_reducible apply Within.setWord); (case hr => first | decide | exact Foot.allRegs_hasReg _ _ | exact Foot.all_hasReg _ | (subst_vars; decide) | ((try dsimp +zetaDelta only); split <;> first | decide | (split <;> first | decide | (split <;> decide)))))
    | ((with_reducible apply Within.after (State.candPlace_within ..)); (case hle => decide))
    | ((with_reducible apply Within.after (Within.of_eq (State.candPlace_within ..) ?e)); (case e => assumption); (case hle => decide))
    | ((with_reducible apply Within.after (State.logEvent_within ..)); (case hle => decide))
    | (intro x
       have hx : Within (.of [.log, .pm, .events, .ecc, .bus] [.hbmCand, .busGrants, .logState, .logEvbEntries, .logDropped, .logEvbLost, .logEntries, .sysIntSrc]) s x := by
         dsimp -zeta only [x]
         repeat' first
           | with_reducible assumption
           | with_reducible apply Within.refl
           | ((with_reducible apply Within.setWord); (case hr => first | decide | exact Foot.allRegs_hasReg _ _ | exact Foot.all_hasReg _ | (subst_vars; decide) | ((try dsimp +zetaDelta only); split <;> first | decide | (split <;> first | decide | (split <;> decide)))))
           | ((with_reducible apply Within.after (State.candPlace_within ..)); (case hle => decide))
           | ((with_reducible apply Within.after (Within.of_eq (State.candPlace_within ..) ?e)); (case e => assumption); (case hle => decide))
           | ((with_reducible apply Within.after (State.logEvent_within ..)); (case hle => decide))
           | with_reducible apply Within.ite
           | split
           | dsimp -zeta only
           | dsimp +zetaDelta only
       clear_value x)
    | intro x
    | lift_lets
    | with_reducible apply Within.ite
    | split
    | dsimp -zeta only
    | dsimp +zetaDelta only

theorem State.rowFail_within (s : State) (a1 : Nat) :
    Within (.of [.log, .pm, .events, .ecc, .bus] [.hbmCand, .busGrants, .logState, .logEvbEntries, .logDropped, .logEvbLost, .logEntries, .sysIntSrc]) s (State.rowFail s a1) := by
  delta State.rowFail
  repeat' first
    | with_reducible assumption
    | with_reducible apply Within.refl
    | ((with_reducible apply Within.after (State.hbmCandidate_within ..)); (case hle => decide))
    | (intro x
       have hx : Within (.of [.log, .pm, .events, .ecc, .bus] [.hbmCand, .busGrants, .logState, .logEvbEntries, .logDropped, .logEvbLost, .logEntries, .sysIntSrc]) s x := by
         dsimp -zeta only [x]
         repeat' first
           | with_reducible assumption
           | with_reducible apply Within.refl
           | ((with_reducible apply Within.after (State.hbmCandidate_within ..)); (case hle => decide))
           | with_reducible apply Within.ite
           | split
           | dsimp -zeta only
           | dsimp +zetaDelta only
           | ((with_reducible apply Within.set_ecc); (case hc => decide))
       clear_value x)
    | intro x
    | lift_lets
    | with_reducible apply Within.ite
    | split
    | dsimp -zeta only
    | dsimp +zetaDelta only
    | ((with_reducible apply Within.set_ecc); (case hc => decide))

theorem State.hbmCorrected_within (s : State) (k : Nat) :
    Within (.of [.log] [.hbmCe]) s (State.hbmCorrected s k) := by
  delta State.hbmCorrected
  repeat' first
    | with_reducible assumption
    | with_reducible apply Within.refl
    | ((with_reducible apply Within.count); (case hr => first | decide | exact Foot.allRegs_hasReg _ _ | exact Foot.all_hasReg _ | (subst_vars; decide) | ((try dsimp +zetaDelta only); split <;> first | decide | (split <;> first | decide | (split <;> decide)))))
    | (intro x
       have hx : Within (.of [.log] [.hbmCe]) s x := by
         dsimp -zeta only [x]
         repeat' first
           | with_reducible assumption
           | with_reducible apply Within.refl
           | ((with_reducible apply Within.count); (case hr => first | decide | exact Foot.allRegs_hasReg _ _ | exact Foot.all_hasReg _ | (subst_vars; decide) | ((try dsimp +zetaDelta only); split <;> first | decide | (split <;> first | decide | (split <;> decide)))))
           | with_reducible apply Within.ite
           | ((with_reducible apply Within.set_log); (case hc => decide))
           | split
           | dsimp -zeta only
           | dsimp +zetaDelta only
       clear_value x)
    | intro x
    | lift_lets
    | with_reducible apply Within.ite
    | ((with_reducible apply Within.set_log); (case hc => decide))
    | split
    | dsimp -zeta only
    | dsimp +zetaDelta only

theorem State.hbmUncorrected_within (s : State) (a1 : Nat) (path : Bool) :
    Within (.of [.free, .tick, .act, .latch, .irqs, .log, .pm, .events, .ecc, .bus] [.eccStatus, .hbmCand, .hbmUe, .busStatus, .busGrants, .logState, .logEvbEntries, .logDropped, .logEvbLost, .logEntries, .sysIntSrc]) s (State.hbmUncorrected s a1 path) := by
  delta State.hbmUncorrected
  repeat' first
    | with_reducible assumption
    | with_reducible apply Within.refl
    | ((with_reducible apply Within.setFlag); (case hr => first | decide | exact Foot.allRegs_hasReg _ _ | exact Foot.all_hasReg _ | (subst_vars; decide) | ((try dsimp +zetaDelta only); split <;> first | decide | (split <;> first | decide | (split <;> decide)))))
    | ((with_reducible apply Within.count); (case hr => first | decide | exact Foot.allRegs_hasReg _ _ | exact Foot.all_hasReg _ | (subst_vars; decide) | ((try dsimp +zetaDelta only); split <;> first | decide | (split <;> first | decide | (split <;> decide)))))
    | ((with_reducible apply Within.after (State.raise_within ..)); (case hle => decide))
    | ((with_reducible apply Within.after (State.takeFree_within ..)); (case hle => decide))
    | ((with_reducible apply Within.after (Within.of_eq (State.takeFree_within ..) ?e)); (case e => assumption); (case hle => decide))
    | ((with_reducible apply Within.after (State.logEvent_within ..)); (case hle => decide))
    | ((with_reducible apply Within.after (State.hbmCandidate_within ..)); (case hle => decide))
    | (intro x
       have hx : Within (.of [.free, .tick, .act, .latch, .irqs, .log, .pm, .events, .ecc, .bus] [.eccStatus, .hbmCand, .hbmUe, .busStatus, .busGrants, .logState, .logEvbEntries, .logDropped, .logEvbLost, .logEntries, .sysIntSrc]) s x := by
         dsimp -zeta only [x]
         repeat' first
           | with_reducible assumption
           | with_reducible apply Within.refl
           | ((with_reducible apply Within.setFlag); (case hr => first | decide | exact Foot.allRegs_hasReg _ _ | exact Foot.all_hasReg _ | (subst_vars; decide) | ((try dsimp +zetaDelta only); split <;> first | decide | (split <;> first | decide | (split <;> decide)))))
           | ((with_reducible apply Within.count); (case hr => first | decide | exact Foot.allRegs_hasReg _ _ | exact Foot.all_hasReg _ | (subst_vars; decide) | ((try dsimp +zetaDelta only); split <;> first | decide | (split <;> first | decide | (split <;> decide)))))
           | ((with_reducible apply Within.after (State.raise_within ..)); (case hle => decide))
           | ((with_reducible apply Within.after (State.takeFree_within ..)); (case hle => decide))
           | ((with_reducible apply Within.after (Within.of_eq (State.takeFree_within ..) ?e)); (case e => assumption); (case hle => decide))
           | ((with_reducible apply Within.after (State.logEvent_within ..)); (case hle => decide))
           | ((with_reducible apply Within.after (State.hbmCandidate_within ..)); (case hle => decide))
           | with_reducible apply Within.ite
           | split
           | dsimp -zeta only
           | dsimp +zetaDelta only
           | ((with_reducible apply Within.set_tick); (case hc => decide))
           | ((with_reducible apply Within.set_log); (case hc => decide))
       clear_value x)
    | intro x
    | lift_lets
    | with_reducible apply Within.ite
    | split
    | dsimp -zeta only
    | dsimp +zetaDelta only
    | ((with_reducible apply Within.set_tick); (case hc => decide))
    | ((with_reducible apply Within.set_log); (case hc => decide))

theorem State.libraryUncorrected_within (s : State) (i : Nat) :
    Within (.of [.free, .tick, .act, .latch, .irqs, .log, .pm, .events, .ecc, .bus] [.eccStatus, .hbmCand, .hbmUe, .busStatus, .busGrants, .logState, .logEvbEntries, .logDropped, .logEvbLost, .logEntries, .sysIntSrc]) s (State.libraryUncorrected s i) := by
  delta State.libraryUncorrected
  repeat' first
    | with_reducible assumption
    | with_reducible apply Within.refl
    | ((with_reducible apply Within.after (State.takeFree_within ..)); (case hle => decide))
    | ((with_reducible apply Within.after (Within.of_eq (State.takeFree_within ..) ?e)); (case e => assumption); (case hle => decide))
    | ((with_reducible apply Within.after (State.hbmUncorrected_within ..)); (case hle => decide))
    | (intro x
       have hx : Within (.of [.free, .tick, .act, .latch, .irqs, .log, .pm, .events, .ecc, .bus] [.eccStatus, .hbmCand, .hbmUe, .busStatus, .busGrants, .logState, .logEvbEntries, .logDropped, .logEvbLost, .logEntries, .sysIntSrc]) s x := by
         dsimp -zeta only [x]
         repeat' first
           | with_reducible assumption
           | with_reducible apply Within.refl
           | ((with_reducible apply Within.after (State.takeFree_within ..)); (case hle => decide))
           | ((with_reducible apply Within.after (Within.of_eq (State.takeFree_within ..) ?e)); (case e => assumption); (case hle => decide))
           | ((with_reducible apply Within.after (State.hbmUncorrected_within ..)); (case hle => decide))
           | with_reducible apply Within.ite
           | split
           | dsimp -zeta only
           | dsimp +zetaDelta only
       clear_value x)
    | intro x
    | lift_lets
    | with_reducible apply Within.ite
    | split
    | dsimp -zeta only
    | dsimp +zetaDelta only

end Sys2Proof.Machine
end

