-- ==== Sys2Proof/Laws/Footprint/Lag.lean ====
section
/-! SUPPORT. What each operation of Machine/Lag.lean may touch. -/

namespace Sys2Proof.Machine

theorem State.lateRuns_within (s : State) (l : Nat) (stamp : Nat) :
    Within (.of [.lag] []) s (State.lateRuns s l stamp) := by
  delta State.lateRuns
  repeat' first
    | with_reducible assumption
    | with_reducible apply Within.refl
    | ((with_reducible apply Within.after (State.setLagLink_within ..)); (case hle => decide))
    | (intro x
       have hx : Within (.of [.lag] []) s x := by
         dsimp -zeta only [x]
         repeat' first
           | with_reducible assumption
           | with_reducible apply Within.refl
           | ((with_reducible apply Within.after (State.setLagLink_within ..)); (case hle => decide))
           | with_reducible apply Within.ite
           | split
           | dsimp -zeta only
           | dsimp +zetaDelta only
       clear_value x)
    | intro x
    | lift_lets
    | with_reducible apply Within.ite
    | split
    | dsimp -zeta only
    | dsimp +zetaDelta only

theorem State.lagLate_within (s : State) (l : Nat) (stamp : Nat) :
    Within (.of [.lag] [.lagLate]) s (State.lagLate s l stamp) := by
  delta State.lagLate
  repeat' first
    | with_reducible assumption
    | with_reducible apply Within.refl
    | ((with_reducible apply Within.count); (case hr => first | decide | exact Foot.allRegs_hasReg _ _ | exact Foot.all_hasReg _ | (subst_vars; decide) | ((try dsimp +zetaDelta only); split <;> first | decide | (split <;> first | decide | (split <;> decide)))))
    | ((with_reducible apply Within.after (State.lateRuns_within ..)); (case hle => decide))
    | with_reducible apply Within.ite
    | split
    | dsimp -zeta only

theorem State.lagEarly_within (s : State) (l : Nat) :
    Within (.of [.lag] [.lagEarly]) s (State.lagEarly s l) := by
  delta State.lagEarly
  repeat' first
    | with_reducible assumption
    | with_reducible apply Within.refl
    | ((with_reducible apply Within.count); (case hr => first | decide | exact Foot.allRegs_hasReg _ _ | exact Foot.all_hasReg _ | (subst_vars; decide) | ((try dsimp +zetaDelta only); split <;> first | decide | (split <;> first | decide | (split <;> decide)))))
    | ((with_reducible apply Within.after (State.setLagLink_within ..)); (case hle => decide))
    | (intro x
       have hx : Within (.of [.lag] [.lagEarly]) s x := by
         dsimp -zeta only [x]
         repeat' first
           | with_reducible assumption
           | with_reducible apply Within.refl
           | ((with_reducible apply Within.count); (case hr => first | decide | exact Foot.allRegs_hasReg _ _ | exact Foot.all_hasReg _ | (subst_vars; decide) | ((try dsimp +zetaDelta only); split <;> first | decide | (split <;> first | decide | (split <;> decide)))))
           | ((with_reducible apply Within.after (State.setLagLink_within ..)); (case hle => decide))
           | with_reducible apply Within.ite
           | split
           | dsimp -zeta only
           | dsimp +zetaDelta only
       clear_value x)
    | intro x
    | lift_lets
    | with_reducible apply Within.ite
    | split
    | dsimp -zeta only
    | dsimp +zetaDelta only

theorem State.lagWrite_within (s : State) (l : Nat) (stamp : Nat) (words : Tbl Word) (n : Nat) (short : Bool) :
    Within (.of [.lag] []) s (State.lagWrite s l stamp words n short) := by
  delta State.lagWrite
  repeat' first
    | with_reducible assumption
    | with_reducible apply Within.refl
    | ((with_reducible apply Within.after (State.setLagLink_within ..)); (case hle => decide))
    | (intro x
       have hx : Within (.of [.lag] []) s x := by
         dsimp -zeta only [x]
         repeat' first
           | with_reducible assumption
           | with_reducible apply Within.refl
           | ((with_reducible apply Within.after (State.setLagLink_within ..)); (case hle => decide))
           | with_reducible apply Within.ite
           | ((with_reducible apply Within.set_lag); (case hc => decide))
           | split
           | dsimp -zeta only
           | dsimp +zetaDelta only
       clear_value x)
    | intro x
    | lift_lets
    | with_reducible apply Within.ite
    | ((with_reducible apply Within.set_lag); (case hc => decide))
    | split
    | dsimp -zeta only
    | dsimp +zetaDelta only

theorem State.lagAdmit_within (s : State) (l : Nat) (stamp : Nat) (a3 : Int) (words : Tbl Word) (n : Nat) (overflow : Bool) :
    Within (.of [.lag] [.lagElasticOvf, .lagLate, .lagEarly, .lagRepeat]) s (State.lagAdmit s l stamp a3 words n overflow).2 := by
  delta State.lagAdmit
  repeat' first
    | with_reducible assumption
    | with_reducible apply Within.refl
    | ((with_reducible apply Within.count); (case hr => first | decide | exact Foot.allRegs_hasReg _ _ | exact Foot.all_hasReg _ | (subst_vars; decide) | ((try dsimp +zetaDelta only); split <;> first | decide | (split <;> first | decide | (split <;> decide)))))
    | ((with_reducible apply Within.after (State.lagLate_within ..)); (case hle => decide))
    | ((with_reducible apply Within.after (State.lagEarly_within ..)); (case hle => decide))
    | ((with_reducible apply Within.after (State.setLagLink_within ..)); (case hle => decide))
    | ((with_reducible apply Within.after (State.lagWrite_within ..)); (case hle => decide))
    | (intro x
       have hx : Within (.of [.lag] [.lagElasticOvf, .lagLate, .lagEarly, .lagRepeat]) s x := by
         dsimp -zeta only [x]
         repeat' first
           | with_reducible assumption
           | with_reducible apply Within.refl
           | ((with_reducible apply Within.count); (case hr => first | decide | exact Foot.allRegs_hasReg _ _ | exact Foot.all_hasReg _ | (subst_vars; decide) | ((try dsimp +zetaDelta only); split <;> first | decide | (split <;> first | decide | (split <;> decide)))))
           | ((with_reducible apply Within.after (State.lagLate_within ..)); (case hle => decide))
           | ((with_reducible apply Within.after (State.lagEarly_within ..)); (case hle => decide))
           | ((with_reducible apply Within.after (State.setLagLink_within ..)); (case hle => decide))
           | ((with_reducible apply Within.after (State.lagWrite_within ..)); (case hle => decide))
           | with_reducible apply Within.ite
           | split
           | dsimp -zeta only
           | dsimp +zetaDelta only
       clear_value x)
    | intro x
    | lift_lets
    | with_reducible apply Within.ite
    | split
    | dsimp -zeta only
    | dsimp +zetaDelta only

theorem State.lagMeasureF_within (s : State) (l : Nat) (a2 : Int) :
    Within (.of [] [.lagArrLast]) s (State.lagMeasureF s l a2) := by
  delta State.lagMeasureF
  repeat' first
    | with_reducible assumption
    | with_reducible apply Within.refl
    | ((with_reducible apply Within.wrS); (case hr => first | decide | exact Foot.allRegs_hasReg _ _ | exact Foot.all_hasReg _ | (subst_vars; decide) | ((try dsimp +zetaDelta only); split <;> first | decide | (split <;> first | decide | (split <;> decide)))))
    | with_reducible apply Within.ite
    | split
    | dsimp -zeta only

theorem State.lagMeasureA_within (s : State) (l : Nat) (a2 : Int) :
    Within (.of [] [.lagArrLast, .lagArrMax, .lagArrMin, .lagLinkState]) s (State.lagMeasureA s l a2) := by
  delta State.lagMeasureA
  repeat' first
    | with_reducible assumption
    | with_reducible apply Within.refl
    | ((with_reducible apply Within.setFlag); (case hr => first | decide | exact Foot.allRegs_hasReg _ _ | exact Foot.all_hasReg _ | (subst_vars; decide) | ((try dsimp +zetaDelta only); split <;> first | decide | (split <;> first | decide | (split <;> decide)))))
    | ((with_reducible apply Within.wrS); (case hr => first | decide | exact Foot.allRegs_hasReg _ _ | exact Foot.all_hasReg _ | (subst_vars; decide) | ((try dsimp +zetaDelta only); split <;> first | decide | (split <;> first | decide | (split <;> decide)))))
    | (intro x
       have hx : Within (.of [] [.lagArrLast, .lagArrMax, .lagArrMin, .lagLinkState]) s x := by
         dsimp -zeta only [x]
         repeat' first
           | with_reducible assumption
           | with_reducible apply Within.refl
           | ((with_reducible apply Within.setFlag); (case hr => first | decide | exact Foot.allRegs_hasReg _ _ | exact Foot.all_hasReg _ | (subst_vars; decide) | ((try dsimp +zetaDelta only); split <;> first | decide | (split <;> first | decide | (split <;> decide)))))
           | ((with_reducible apply Within.wrS); (case hr => first | decide | exact Foot.allRegs_hasReg _ _ | exact Foot.all_hasReg _ | (subst_vars; decide) | ((try dsimp +zetaDelta only); split <;> first | decide | (split <;> first | decide | (split <;> decide)))))
           | with_reducible apply Within.ite
           | split
           | dsimp -zeta only
           | dsimp +zetaDelta only
       clear_value x)
    | intro x
    | lift_lets
    | with_reducible apply Within.ite
    | split
    | dsimp -zeta only
    | dsimp +zetaDelta only

theorem State.lagMark_within (s : State) (l : Nat) (r : Nat) (stamp : Nat) (m : SlotState) :
    Within (.of [.lag] []) s (State.lagMark s l r stamp m) := by
  delta State.lagMark
  repeat' first
    | with_reducible assumption
    | with_reducible apply Within.refl
    | ((with_reducible apply Within.after (State.setLagLink_within ..)); (case hle => decide))
    | (intro x
       have hx : Within (.of [.lag] []) s x := by
         dsimp -zeta only [x]
         repeat' first
           | with_reducible assumption
           | with_reducible apply Within.refl
           | ((with_reducible apply Within.after (State.setLagLink_within ..)); (case hle => decide))
           | with_reducible apply Within.ite
           | split
           | dsimp -zeta only
           | dsimp +zetaDelta only
       clear_value x)
    | intro x
    | lift_lets
    | with_reducible apply Within.ite
    | split
    | dsimp -zeta only
    | dsimp +zetaDelta only

theorem State.lagMargin_within (s : State) (l : Nat) (margin : Int) :
    Within (.of [.lag, .act, .latch, .irqs, .log, .pm, .events, .bus] [.lagLinkState, .lagMarginLow, .busStatus, .busGrants, .logState, .logEvbEntries, .logDropped, .logEvbLost, .logEntries, .sysIntSrc]) s (State.lagMargin s l margin) := by
  delta State.lagMargin
  repeat' first
    | with_reducible assumption
    | with_reducible apply Within.refl
    | ((with_reducible apply Within.setFlag); (case hr => first | decide | exact Foot.allRegs_hasReg _ _ | exact Foot.all_hasReg _ | (subst_vars; decide) | ((try dsimp +zetaDelta only); split <;> first | decide | (split <;> first | decide | (split <;> decide)))))
    | ((with_reducible apply Within.count); (case hr => first | decide | exact Foot.allRegs_hasReg _ _ | exact Foot.all_hasReg _ | (subst_vars; decide) | ((try dsimp +zetaDelta only); split <;> first | decide | (split <;> first | decide | (split <;> decide)))))
    | ((with_reducible apply Within.after (State.raise_within ..)); (case hle => decide))
    | ((with_reducible apply Within.after (State.setLagLink_within ..)); (case hle => decide))
    | (intro x
       have hx : Within (.of [.lag, .act, .latch, .irqs, .log, .pm, .events, .bus] [.lagLinkState, .lagMarginLow, .busStatus, .busGrants, .logState, .logEvbEntries, .logDropped, .logEvbLost, .logEntries, .sysIntSrc]) s x := by
         dsimp -zeta only [x]
         repeat' first
           | with_reducible assumption
           | with_reducible apply Within.refl
           | ((with_reducible apply Within.setFlag); (case hr => first | decide | exact Foot.allRegs_hasReg _ _ | exact Foot.all_hasReg _ | (subst_vars; decide) | ((try dsimp +zetaDelta only); split <;> first | decide | (split <;> first | decide | (split <;> decide)))))
           | ((with_reducible apply Within.count); (case hr => first | decide | exact Foot.allRegs_hasReg _ _ | exact Foot.all_hasReg _ | (subst_vars; decide) | ((try dsimp +zetaDelta only); split <;> first | decide | (split <;> first | decide | (split <;> decide)))))
           | ((with_reducible apply Within.after (State.raise_within ..)); (case hle => decide))
           | ((with_reducible apply Within.after (State.setLagLink_within ..)); (case hle => decide))
           | with_reducible apply Within.ite
           | split
           | dsimp -zeta only
           | dsimp +zetaDelta only
       clear_value x)
    | intro x
    | lift_lets
    | with_reducible apply Within.ite
    | split
    | dsimp -zeta only
    | dsimp +zetaDelta only

theorem State.lagComplete_within (s : State) (l : Nat) (stamp : Nat) (verdict : Nat) (short : Bool) :
    Within (.of [.lag, .events, .hbm] []) s (State.lagComplete s l stamp verdict short) := by
  delta State.lagComplete
  repeat' first
    | with_reducible assumption
    | with_reducible apply Within.refl
    | ((with_reducible apply Within.after (State.lagMark_within ..)); (case hle => decide))
    | (intro x
       have hx : Within (.of [.lag, .events, .hbm] []) s x := by
         dsimp -zeta only [x]
         repeat' first
           | with_reducible assumption
           | with_reducible apply Within.refl
           | ((with_reducible apply Within.after (State.lagMark_within ..)); (case hle => decide))
           | with_reducible apply Within.ite
           | ((with_reducible apply Within.set_lag); (case hc => decide))
           | ((with_reducible apply Within.set_hbm_any); (case hh => decide); (case he => decide); (case hw => first | exact memWrite_wf _ _ _ | exact hbmPut_wf _ _ _ | exact fun h => Tbl.wf_set (d := (0 : Byte)) _ _ h | exact fun h => Tbl.wf_filter (d := (0 : Byte)) _ h))
           | split
           | dsimp -zeta only
           | dsimp +zetaDelta only
       clear_value x)
    | intro x
    | lift_lets
    | with_reducible apply Within.ite
    | ((with_reducible apply Within.set_lag); (case hc => decide))
    | ((with_reducible apply Within.set_hbm_any); (case hh => decide); (case he => decide); (case hw => first | exact memWrite_wf _ _ _ | exact hbmPut_wf _ _ _ | exact fun h => Tbl.wf_set (d := (0 : Byte)) _ _ h | exact fun h => Tbl.wf_filter (d := (0 : Byte)) _ h))
    | split
    | dsimp -zeta only
    | dsimp +zetaDelta only

theorem State.onTimeRuns_within (s : State) (l : Nat) (early : Bool) :
    Within (.of [.lag] []) s (State.onTimeRuns s l early) := by
  delta State.onTimeRuns
  repeat' first
    | with_reducible assumption
    | with_reducible apply Within.refl
    | ((with_reducible apply Within.after (State.setLagLink_within ..)); (case hle => decide))
    | (intro x
       have hx : Within (.of [.lag] []) s x := by
         dsimp -zeta only [x]
         repeat' first
           | with_reducible assumption
           | with_reducible apply Within.refl
           | ((with_reducible apply Within.after (State.setLagLink_within ..)); (case hle => decide))
           | with_reducible apply Within.ite
           | split
           | dsimp -zeta only
           | dsimp +zetaDelta only
       clear_value x)
    | intro x
    | lift_lets
    | with_reducible apply Within.ite
    | split
    | dsimp -zeta only
    | dsimp +zetaDelta only

theorem State.lagCut_within (s : State) (l : Nat) (stamp : Nat) :
    Within (.of [.lag] []) s (State.lagCut s l stamp) := by
  delta State.lagCut
  repeat' first
    | with_reducible assumption
    | with_reducible apply Within.refl
    | ((with_reducible apply Within.after (State.lagMark_within ..)); (case hle => decide))
    | ((with_reducible apply Within.after (State.setLagLink_within ..)); (case hle => decide))
    | (intro x
       have hx : Within (.of [.lag] []) s x := by
         dsimp -zeta only [x]
         repeat' first
           | with_reducible assumption
           | with_reducible apply Within.refl
           | ((with_reducible apply Within.after (State.lagMark_within ..)); (case hle => decide))
           | ((with_reducible apply Within.after (State.setLagLink_within ..)); (case hle => decide))
           | with_reducible apply Within.ite
           | split
           | dsimp -zeta only
           | dsimp +zetaDelta only
       clear_value x)
    | intro x
    | lift_lets
    | with_reducible apply Within.ite
    | split
    | dsimp -zeta only
    | dsimp +zetaDelta only

theorem State.lagVerdict_within (s : State) (l : Nat) (stamp : Nat) (a3 : Int) (verdict : Nat) (whole : Bool) (taken : Admit) (missed : Bool) :
    Within (.of [.lag, .act, .latch, .irqs, .log, .pm, .events, .hbm, .bus] [.lagArrLast, .lagArrMax, .lagArrMin, .lagLinkState, .lagLate, .lagMarginLow, .busStatus, .busGrants, .logState, .logEvbEntries, .logDropped, .logEvbLost, .logEntries, .sysIntSrc]) s (State.lagVerdict s l stamp a3 verdict whole taken missed) := by
  delta State.lagVerdict
  repeat' first
    | with_reducible assumption
    | with_reducible apply Within.refl
    | ((with_reducible apply Within.after (State.lagMeasureA_within ..)); (case hle => decide))
    | ((with_reducible apply Within.after (State.lagMark_within ..)); (case hle => decide))
    | ((with_reducible apply Within.after (State.lagLate_within ..)); (case hle => decide))
    | ((with_reducible apply Within.after (State.lateRuns_within ..)); (case hle => decide))
    | ((with_reducible apply Within.after (State.lagMargin_within ..)); (case hle => decide))
    | ((with_reducible apply Within.after (State.onTimeRuns_within ..)); (case hle => decide))
    | ((with_reducible apply Within.after (State.lagComplete_within ..)); (case hle => decide))
    | ((with_reducible apply Within.after (State.lagCut_within ..)); (case hle => decide))
    | (intro x
       have hx : Within (.of [.lag, .act, .latch, .irqs, .log, .pm, .events, .hbm, .bus] [.lagArrLast, .lagArrMax, .lagArrMin, .lagLinkState, .lagLate, .lagMarginLow, .busStatus, .busGrants, .logState, .logEvbEntries, .logDropped, .logEvbLost, .logEntries, .sysIntSrc]) s x := by
         dsimp -zeta only [x]
         repeat' first
           | with_reducible assumption
           | with_reducible apply Within.refl
           | ((with_reducible apply Within.after (State.lagMeasureA_within ..)); (case hle => decide))
           | ((with_reducible apply Within.after (State.lagMark_within ..)); (case hle => decide))
           | ((with_reducible apply Within.after (State.lagLate_within ..)); (case hle => decide))
           | ((with_reducible apply Within.after (State.lateRuns_within ..)); (case hle => decide))
           | ((with_reducible apply Within.after (State.lagMargin_within ..)); (case hle => decide))
           | ((with_reducible apply Within.after (State.onTimeRuns_within ..)); (case hle => decide))
           | ((with_reducible apply Within.after (State.lagComplete_within ..)); (case hle => decide))
           | ((with_reducible apply Within.after (State.lagCut_within ..)); (case hle => decide))
           | with_reducible apply Within.ite
           | split
           | dsimp -zeta only
           | dsimp +zetaDelta only
       clear_value x)
    | intro x
    | lift_lets
    | with_reducible apply Within.ite
    | split
    | dsimp -zeta only
    | dsimp +zetaDelta only

theorem State.pageFail_within (s : State) (l : Nat) (short : Bool) :
    Within (.of [.tick, .lag] [.lagPageFail, .lagPageBad]) s (State.pageFail s l short) := by
  delta State.pageFail
  repeat' first
    | with_reducible assumption
    | with_reducible apply Within.refl
    | ((with_reducible apply Within.count); (case hr => first | decide | exact Foot.allRegs_hasReg _ _ | exact Foot.all_hasReg _ | (subst_vars; decide) | ((try dsimp +zetaDelta only); split <;> first | decide | (split <;> first | decide | (split <;> decide)))))
    | (intro x
       have hx : Within (.of [.tick, .lag] [.lagPageFail, .lagPageBad]) s x := by
         dsimp -zeta only [x]
         repeat' first
           | with_reducible assumption
           | with_reducible apply Within.refl
           | ((with_reducible apply Within.count); (case hr => first | decide | exact Foot.allRegs_hasReg _ _ | exact Foot.all_hasReg _ | (subst_vars; decide) | ((try dsimp +zetaDelta only); split <;> first | decide | (split <;> first | decide | (split <;> decide)))))
           | with_reducible apply Within.ite
           | ((with_reducible apply Within.set_tick); (case hc => decide))
           | ((with_reducible apply Within.set_lag); (case hc => decide))
           | split
           | dsimp -zeta only
           | dsimp +zetaDelta only
       clear_value x)
    | intro x
    | lift_lets
    | with_reducible apply Within.ite
    | ((with_reducible apply Within.set_tick); (case hc => decide))
    | ((with_reducible apply Within.set_lag); (case hc => decide))
    | split
    | dsimp -zeta only
    | dsimp +zetaDelta only

theorem State.releaseAbsent_within (s : State) (l : Nat) :
    Within (.of [] [.lagLinkState, .lagMissing]) s (State.releaseAbsent s l).2 := by
  delta State.releaseAbsent
  repeat' first
    | with_reducible assumption
    | with_reducible apply Within.refl
    | ((with_reducible apply Within.wr); (case hr => first | decide | exact Foot.allRegs_hasReg _ _ | exact Foot.all_hasReg _ | (subst_vars; decide) | ((try dsimp +zetaDelta only); split <;> first | decide | (split <;> first | decide | (split <;> decide)))))
    | ((with_reducible apply Within.count); (case hr => first | decide | exact Foot.allRegs_hasReg _ _ | exact Foot.all_hasReg _ | (subst_vars; decide) | ((try dsimp +zetaDelta only); split <;> first | decide | (split <;> first | decide | (split <;> decide)))))
    | with_reducible apply Within.ite
    | split
    | dsimp -zeta only

theorem State.releaseFrame_within (s : State) (l : Nat) (verdict : Nat) (pages : Nat) (words : Tbl Word) (bad : List Nat) :
    Within (.of [.lag] [.lagLinkState, .lagReleased]) s (State.releaseFrame s l verdict pages words bad).2 := by
  delta State.releaseFrame
  repeat' first
    | with_reducible assumption
    | with_reducible apply Within.refl
    | ((with_reducible apply Within.wr); (case hr => first | decide | exact Foot.allRegs_hasReg _ _ | exact Foot.all_hasReg _ | (subst_vars; decide) | ((try dsimp +zetaDelta only); split <;> first | decide | (split <;> first | decide | (split <;> decide)))))
    | ((with_reducible apply Within.count); (case hr => first | decide | exact Foot.allRegs_hasReg _ _ | exact Foot.all_hasReg _ | (subst_vars; decide) | ((try dsimp +zetaDelta only); split <;> first | decide | (split <;> first | decide | (split <;> decide)))))
    | ((with_reducible apply Within.after (State.setLagLink_within ..)); (case hle => decide))
    | (intro x
       have hx : Within (.of [.lag] [.lagLinkState, .lagReleased]) s x := by
         dsimp -zeta only [x]
         repeat' first
           | with_reducible assumption
           | with_reducible apply Within.refl
           | ((with_reducible apply Within.wr); (case hr => first | decide | exact Foot.allRegs_hasReg _ _ | exact Foot.all_hasReg _ | (subst_vars; decide) | ((try dsimp +zetaDelta only); split <;> first | decide | (split <;> first | decide | (split <;> decide)))))
           | ((with_reducible apply Within.count); (case hr => first | decide | exact Foot.allRegs_hasReg _ _ | exact Foot.all_hasReg _ | (subst_vars; decide) | ((try dsimp +zetaDelta only); split <;> first | decide | (split <;> first | decide | (split <;> decide)))))
           | ((with_reducible apply Within.after (State.setLagLink_within ..)); (case hle => decide))
           | with_reducible apply Within.ite
           | split
           | dsimp -zeta only
           | dsimp +zetaDelta only
       clear_value x)
    | intro x
    | lift_lets
    | with_reducible apply Within.ite
    | split
    | dsimp -zeta only
    | dsimp +zetaDelta only

theorem State.releasePos_within (s : State) (l : Nat) (r : Nat) :
    Within (.of [.lag] []) s (State.releasePos s l r) := by
  delta State.releasePos
  repeat' first
    | with_reducible assumption
    | with_reducible apply Within.refl
    | ((with_reducible apply Within.after (State.setLagLink_within ..)); (case hle => decide))
    | (intro x
       have hx : Within (.of [.lag] []) s x := by
         dsimp -zeta only [x]
         repeat' first
           | with_reducible assumption
           | with_reducible apply Within.refl
           | ((with_reducible apply Within.after (State.setLagLink_within ..)); (case hle => decide))
           | with_reducible apply Within.ite
           | split
           | dsimp -zeta only
           | dsimp +zetaDelta only
       clear_value x)
    | intro x
    | lift_lets
    | with_reducible apply Within.ite
    | split
    | dsimp -zeta only
    | dsimp +zetaDelta only

theorem State.pageSpoil_within (s : State) (l : Nat) (n : BitVec 32) (p : Nat) :
    Within (.of [.lag] []) s (State.pageSpoil s l n p) := by
  delta State.pageSpoil
  repeat' first
    | with_reducible assumption
    | with_reducible apply Within.refl
    | ((with_reducible apply Within.after (State.setLagLink_within ..)); (case hle => decide))
    | (intro x
       have hx : Within (.of [.lag] []) s x := by
         dsimp -zeta only [x]
         repeat' first
           | with_reducible assumption
           | with_reducible apply Within.refl
           | ((with_reducible apply Within.after (State.setLagLink_within ..)); (case hle => decide))
           | with_reducible apply Within.ite
           | split
           | dsimp -zeta only
           | dsimp +zetaDelta only
       clear_value x)
    | intro x
    | lift_lets
    | with_reducible apply Within.ite
    | split
    | dsimp -zeta only
    | dsimp +zetaDelta only

theorem State.releaseShort_within (s : State) (l : Nat) (n : Nat) (failed : List Nat) :
    Within (.of [.tick, .lag] [.lagLinkState, .lagPageFail, .lagReleased, .lagMissing, .lagPageBad]) s (State.releaseShort s l n failed).2 := by
  delta State.releaseShort
  repeat' first
    | with_reducible assumption
    | with_reducible apply Within.refl
    | ((with_reducible apply Within.each); (case' hg => intro _ _ _))
    | ((with_reducible apply Within.after (State.releasePos_within ..)); (case hle => decide))
    | ((with_reducible apply Within.after (State.pageFail_within ..)); (case hle => decide))
    | ((with_reducible apply Within.after (State.releaseFrame_within ..)); (case hle => decide))
    | ((with_reducible apply Within.after (Within.of_eq (State.releaseFrame_within ..) ?e)); (case e => assumption); (case hle => decide))
    | ((with_reducible apply Within.after (State.releaseAbsent_within ..)); (case hle => decide))
    | ((with_reducible apply Within.after (Within.of_eq (State.releaseAbsent_within ..) ?e)); (case e => assumption); (case hle => decide))
    | (intro x
       have hx : Within (.of [.tick, .lag] [.lagLinkState, .lagPageFail, .lagReleased, .lagMissing, .lagPageBad]) s x := by
         dsimp -zeta only [x]
         repeat' first
           | with_reducible assumption
           | with_reducible apply Within.refl
           | ((with_reducible apply Within.each); (case' hg => intro _ _ _))
           | ((with_reducible apply Within.after (State.releasePos_within ..)); (case hle => decide))
           | ((with_reducible apply Within.after (State.pageFail_within ..)); (case hle => decide))
           | ((with_reducible apply Within.after (State.releaseFrame_within ..)); (case hle => decide))
           | ((with_reducible apply Within.after (Within.of_eq (State.releaseFrame_within ..) ?e)); (case e => assumption); (case hle => decide))
           | ((with_reducible apply Within.after (State.releaseAbsent_within ..)); (case hle => decide))
           | ((with_reducible apply Within.after (Within.of_eq (State.releaseAbsent_within ..) ?e)); (case e => assumption); (case hle => decide))
           | with_reducible apply Within.ite
           | split
           | dsimp -zeta only
           | dsimp +zetaDelta only
           | ((with_reducible apply Within.set_lag); (case hc => decide))
       clear_value x)
    | intro x
    | lift_lets
    | with_reducible apply Within.ite
    | split
    | dsimp -zeta only
    | dsimp +zetaDelta only
    | ((with_reducible apply Within.set_lag); (case hc => decide))

theorem State.releaseHbm_within (s : State) (l : Nat) (n : Nat) (a3 : PageFaults) :
    Within (.of [.free, .tick, .lag, .act, .latch, .irqs, .log, .pm, .events, .hbm, .ecc, .bus] [.lagLinkState, .lagReadLate, .lagPageFail, .lagReleased, .lagMissing, .lagPageBad, .eccStatus, .hbmCand, .hbmUe, .busStatus, .busGrants, .logState, .logEvbEntries, .logDropped, .logEvbLost, .logEntries, .sysIntSrc]) s (State.releaseHbm s l n a3).2 := by
  delta State.releaseHbm
  repeat' first
    | with_reducible assumption
    | with_reducible apply Within.refl
    | ((with_reducible apply Within.count); (case hr => first | decide | exact Foot.allRegs_hasReg _ _ | exact Foot.all_hasReg _ | (subst_vars; decide) | ((try dsimp +zetaDelta only); split <;> first | decide | (split <;> first | decide | (split <;> decide)))))
    | ((with_reducible apply Within.each); (case' hg => intro _ _ _))
    | ((with_reducible apply Within.after (State.releasePos_within ..)); (case hle => decide))
    | ((with_reducible apply Within.after (State.pageFail_within ..)); (case hle => decide))
    | ((with_reducible apply Within.after (State.hbmUncorrected_within ..)); (case hle => decide))
    | ((with_reducible apply Within.after (State.releaseAbsent_within ..)); (case hle => decide))
    | ((with_reducible apply Within.after (Within.of_eq (State.releaseAbsent_within ..) ?e)); (case e => assumption); (case hle => decide))
    | ((with_reducible apply Within.after (State.setLagLink_within ..)); (case hle => decide))
    | ((with_reducible apply Within.after (State.rowFail_within ..)); (case hle => decide))
    | ((with_reducible apply Within.after (State.releaseFrame_within ..)); (case hle => decide))
    | ((with_reducible apply Within.after (Within.of_eq (State.releaseFrame_within ..) ?e)); (case e => assumption); (case hle => decide))
    | ((with_reducible apply Within.after (State.meter_within ..)); (case hle => decide))
    | (intro x
       have hx : Within (.of [.free, .tick, .lag, .act, .latch, .irqs, .log, .pm, .events, .hbm, .ecc, .bus] [.lagLinkState, .lagReadLate, .lagPageFail, .lagReleased, .lagMissing, .lagPageBad, .eccStatus, .hbmCand, .hbmUe, .busStatus, .busGrants, .logState, .logEvbEntries, .logDropped, .logEvbLost, .logEntries, .sysIntSrc]) s x := by
         dsimp -zeta only [x]
         repeat' first
           | with_reducible assumption
           | with_reducible apply Within.refl
           | ((with_reducible apply Within.count); (case hr => first | decide | exact Foot.allRegs_hasReg _ _ | exact Foot.all_hasReg _ | (subst_vars; decide) | ((try dsimp +zetaDelta only); split <;> first | decide | (split <;> first | decide | (split <;> decide)))))
           | ((with_reducible apply Within.each); (case' hg => intro _ _ _))
           | ((with_reducible apply Within.after (State.releasePos_within ..)); (case hle => decide))
           | ((with_reducible apply Within.after (State.pageFail_within ..)); (case hle => decide))
           | ((with_reducible apply Within.after (State.hbmUncorrected_within ..)); (case hle => decide))
           | ((with_reducible apply Within.after (State.releaseAbsent_within ..)); (case hle => decide))
           | ((with_reducible apply Within.after (Within.of_eq (State.releaseAbsent_within ..) ?e)); (case e => assumption); (case hle => decide))
           | ((with_reducible apply Within.after (State.setLagLink_within ..)); (case hle => decide))
           | ((with_reducible apply Within.after (State.rowFail_within ..)); (case hle => decide))
           | ((with_reducible apply Within.after (State.releaseFrame_within ..)); (case hle => decide))
           | ((with_reducible apply Within.after (Within.of_eq (State.releaseFrame_within ..) ?e)); (case e => assumption); (case hle => decide))
           | ((with_reducible apply Within.after (State.meter_within ..)); (case hle => decide))
           | (intro x
              have hx : Within (.of [.free, .tick, .lag, .act, .latch, .irqs, .log, .pm, .events, .hbm, .ecc, .bus] [.lagLinkState, .lagReadLate, .lagPageFail, .lagReleased, .lagMissing, .lagPageBad, .eccStatus, .hbmCand, .hbmUe, .busStatus, .busGrants, .logState, .logEvbEntries, .logDropped, .logEvbLost, .logEntries, .sysIntSrc]) s x := by
                dsimp -zeta only [x]
                repeat' first
                  | with_reducible assumption
                  | with_reducible apply Within.refl
                  | ((with_reducible apply Within.count); (case hr => first | decide | exact Foot.allRegs_hasReg _ _ | exact Foot.all_hasReg _ | (subst_vars; decide) | ((try dsimp +zetaDelta only); split <;> first | decide | (split <;> first | decide | (split <;> decide)))))
                  | ((with_reducible apply Within.each); (case' hg => intro _ _ _))
                  | ((with_reducible apply Within.after (State.releasePos_within ..)); (case hle => decide))
                  | ((with_reducible apply Within.after (State.pageFail_within ..)); (case hle => decide))
                  | ((with_reducible apply Within.after (State.hbmUncorrected_within ..)); (case hle => decide))
                  | ((with_reducible apply Within.after (State.releaseAbsent_within ..)); (case hle => decide))
                  | ((with_reducible apply Within.after (Within.of_eq (State.releaseAbsent_within ..) ?e)); (case e => assumption); (case hle => decide))
                  | ((with_reducible apply Within.after (State.setLagLink_within ..)); (case hle => decide))
                  | ((with_reducible apply Within.after (State.rowFail_within ..)); (case hle => decide))
                  | ((with_reducible apply Within.after (State.releaseFrame_within ..)); (case hle => decide))
                  | ((with_reducible apply Within.after (Within.of_eq (State.releaseFrame_within ..) ?e)); (case e => assumption); (case hle => decide))
                  | ((with_reducible apply Within.after (State.meter_within ..)); (case hle => decide))
                  | with_reducible apply Within.ite
                  | ((with_reducible apply Within.set_hbm_any); (case hh => decide); (case he => decide); (case hw => first | exact memWrite_wf _ _ _ | exact hbmPut_wf _ _ _ | exact fun h => Tbl.wf_set (d := (0 : Byte)) _ _ h | exact fun h => Tbl.wf_filter (d := (0 : Byte)) _ h))
                  | split
                  | dsimp -zeta only
                  | dsimp +zetaDelta only
              clear_value x)
           | intro x
           | lift_lets
           | with_reducible apply Within.ite
           | ((with_reducible apply Within.set_hbm_any); (case hh => decide); (case he => decide); (case hw => first | exact memWrite_wf _ _ _ | exact hbmPut_wf _ _ _ | exact fun h => Tbl.wf_set (d := (0 : Byte)) _ _ h | exact fun h => Tbl.wf_filter (d := (0 : Byte)) _ h))
           | split
           | dsimp -zeta only
           | dsimp +zetaDelta only
       clear_value x)
    | intro x
    | lift_lets
    | with_reducible apply Within.ite
    | ((with_reducible apply Within.set_hbm_any); (case hh => decide); (case he => decide); (case hw => first | exact memWrite_wf _ _ _ | exact hbmPut_wf _ _ _ | exact fun h => Tbl.wf_set (d := (0 : Byte)) _ _ h | exact fun h => Tbl.wf_filter (d := (0 : Byte)) _ h))
    | split
    | dsimp -zeta only
    | dsimp +zetaDelta only

theorem State.lagRelease_within (s : State) (l : Nat) (a2 : PageFaults) :
    Within (.of [.free, .tick, .lag, .act, .latch, .irqs, .log, .pm, .events, .hbm, .ecc, .bus] [.lagLinkState, .lagReadLate, .lagPageFail, .lagReleased, .lagMissing, .lagPageBad, .eccStatus, .hbmCand, .hbmUe, .busStatus, .busGrants, .logState, .logEvbEntries, .logDropped, .logEvbLost, .logEntries, .sysIntSrc]) s (State.lagRelease s l a2).2 := by
  delta State.lagRelease
  repeat' first
    | with_reducible assumption
    | with_reducible apply Within.refl
    | ((with_reducible apply Within.after (State.releaseShort_within ..)); (case hle => decide))
    | ((with_reducible apply Within.after (Within.of_eq (State.releaseShort_within ..) ?e)); (case e => assumption); (case hle => decide))
    | ((with_reducible apply Within.after (State.releaseAbsent_within ..)); (case hle => decide))
    | ((with_reducible apply Within.after (Within.of_eq (State.releaseAbsent_within ..) ?e)); (case e => assumption); (case hle => decide))
    | ((with_reducible apply Within.after (State.releaseHbm_within ..)); (case hle => decide))
    | ((with_reducible apply Within.after (Within.of_eq (State.releaseHbm_within ..) ?e)); (case e => assumption); (case hle => decide))
    | (intro x
       have hx : Within (.of [.free, .tick, .lag, .act, .latch, .irqs, .log, .pm, .events, .hbm, .ecc, .bus] [.lagLinkState, .lagReadLate, .lagPageFail, .lagReleased, .lagMissing, .lagPageBad, .eccStatus, .hbmCand, .hbmUe, .busStatus, .busGrants, .logState, .logEvbEntries, .logDropped, .logEvbLost, .logEntries, .sysIntSrc]) s x := by
         dsimp -zeta only [x]
         repeat' first
           | with_reducible assumption
           | with_reducible apply Within.refl
           | ((with_reducible apply Within.after (State.releaseShort_within ..)); (case hle => decide))
           | ((with_reducible apply Within.after (Within.of_eq (State.releaseShort_within ..) ?e)); (case e => assumption); (case hle => decide))
           | ((with_reducible apply Within.after (State.releaseAbsent_within ..)); (case hle => decide))
           | ((with_reducible apply Within.after (Within.of_eq (State.releaseAbsent_within ..) ?e)); (case e => assumption); (case hle => decide))
           | ((with_reducible apply Within.after (State.releaseHbm_within ..)); (case hle => decide))
           | ((with_reducible apply Within.after (Within.of_eq (State.releaseHbm_within ..) ?e)); (case e => assumption); (case hle => decide))
           | with_reducible apply Within.ite
           | split
           | dsimp -zeta only
           | dsimp +zetaDelta only
       clear_value x)
    | intro x
    | lift_lets
    | with_reducible apply Within.ite
    | split
    | dsimp -zeta only
    | dsimp +zetaDelta only

theorem State.restoreFailed_within (s : State) (k : Nat) :
    Within (.of [.lag] [.lagState]) s (State.restoreFailed s k) := by
  delta State.restoreFailed
  repeat' first
    | with_reducible assumption
    | with_reducible apply Within.refl
    | ((with_reducible apply Within.wrBit); (case hr => first | decide | exact Foot.allRegs_hasReg _ _ | exact Foot.all_hasReg _ | (subst_vars; decide) | ((try dsimp +zetaDelta only); split <;> first | decide | (split <;> first | decide | (split <;> decide)))))
    | (intro x
       have hx : Within (.of [.lag] [.lagState]) s x := by
         dsimp -zeta only [x]
         repeat' first
           | with_reducible assumption
           | with_reducible apply Within.refl
           | ((with_reducible apply Within.wrBit); (case hr => first | decide | exact Foot.allRegs_hasReg _ _ | exact Foot.all_hasReg _ | (subst_vars; decide) | ((try dsimp +zetaDelta only); split <;> first | decide | (split <;> first | decide | (split <;> decide)))))
           | with_reducible apply Within.ite
           | ((with_reducible apply Within.set_lag); (case hc => decide))
           | split
           | dsimp -zeta only
           | dsimp +zetaDelta only
       clear_value x)
    | intro x
    | lift_lets
    | with_reducible apply Within.ite
    | ((with_reducible apply Within.set_lag); (case hc => decide))
    | split
    | dsimp -zeta only
    | dsimp +zetaDelta only

theorem State.restoreEdge_within (s : State) :
    Within (.of [.lag] [.lagState]) s (State.restoreEdge s) := by
  delta State.restoreEdge
  repeat' first
    | with_reducible assumption
    | with_reducible apply Within.refl
    | ((with_reducible apply Within.eachN); (case' hg => intro _ _ _))
    | ((with_reducible apply Within.when); (case' hg => intro _ _))
    | ((with_reducible apply Within.after (State.restoreFailed_within ..)); (case hle => decide))
    | with_reducible apply Within.ite
    | split
    | dsimp -zeta only

theorem State.poolFree_within (s : State) (l : Nat) :
    Within (.of [] [.lagState, .lagLinkState]) s (State.poolFree s l) := by
  delta State.poolFree
  repeat' first
    | with_reducible assumption
    | with_reducible apply Within.refl
    | ((with_reducible apply Within.wr); (case hr => first | decide | exact Foot.allRegs_hasReg _ _ | exact Foot.all_hasReg _ | (subst_vars; decide) | ((try dsimp +zetaDelta only); split <;> first | decide | (split <;> first | decide | (split <;> decide)))))
    | (intro x
       have hx : Within (.of [] [.lagState, .lagLinkState]) s x := by
         dsimp -zeta only [x]
         repeat' first
           | with_reducible assumption
           | with_reducible apply Within.refl
           | ((with_reducible apply Within.wr); (case hr => first | decide | exact Foot.allRegs_hasReg _ _ | exact Foot.all_hasReg _ | (subst_vars; decide) | ((try dsimp +zetaDelta only); split <;> first | decide | (split <;> first | decide | (split <;> decide)))))
           | with_reducible apply Within.ite
           | split
           | dsimp -zeta only
           | dsimp +zetaDelta only
       clear_value x)
    | intro x
    | lift_lets
    | with_reducible apply Within.ite
    | split
    | dsimp -zeta only
    | dsimp +zetaDelta only

theorem State.poolTake_within (s : State) (l : Nat) (n : Nat) :
    Within (.of [] [.lagState, .lagLinkState]) s (State.poolTake s l n) := by
  delta State.poolTake
  repeat' first
    | with_reducible assumption
    | with_reducible apply Within.refl
    | ((with_reducible apply Within.wr); (case hr => first | decide | exact Foot.allRegs_hasReg _ _ | exact Foot.all_hasReg _ | (subst_vars; decide) | ((try dsimp +zetaDelta only); split <;> first | decide | (split <;> first | decide | (split <;> decide)))))
    | with_reducible apply Within.ite
    | split
    | dsimp -zeta only

theorem State.unwrite_within (s : State) (l : Nat) (p : Int → Bool) :
    Within (.of [.links] []) s (State.unwrite s l p) := by
  delta State.unwrite
  repeat' first
    | with_reducible assumption
    | with_reducible apply Within.refl
    | ((with_reducible apply Within.after (State.setRx_within ..)); (case hle => decide))
    | (intro x
       have hx : Within (.of [.links] []) s x := by
         dsimp -zeta only [x]
         repeat' first
           | with_reducible assumption
           | with_reducible apply Within.refl
           | ((with_reducible apply Within.after (State.setRx_within ..)); (case hle => decide))
           | with_reducible apply Within.ite
           | split
           | dsimp -zeta only
           | dsimp +zetaDelta only
       clear_value x)
    | intro x
    | lift_lets
    | with_reducible apply Within.ite
    | split
    | dsimp -zeta only
    | dsimp +zetaDelta only

theorem State.shortClear_within (s : State) (l : Nat) :
    Within (.of [.links, .lag] []) s (State.shortClear s l) := by
  delta State.shortClear
  repeat' first
    | with_reducible assumption
    | with_reducible apply Within.refl
    | ((with_reducible apply Within.after (State.unwrite_within ..)); (case hle => decide))
    | (intro x
       have hx : Within (.of [.links, .lag] []) s x := by
         dsimp -zeta only [x]
         repeat' first
           | with_reducible assumption
           | with_reducible apply Within.refl
           | ((with_reducible apply Within.after (State.unwrite_within ..)); (case hle => decide))
           | with_reducible apply Within.ite
           | ((with_reducible apply Within.set_lag); (case hc => decide))
           | split
           | dsimp -zeta only
           | dsimp +zetaDelta only
       clear_value x)
    | intro x
    | lift_lets
    | with_reducible apply Within.ite
    | ((with_reducible apply Within.set_lag); (case hc => decide))
    | split
    | dsimp -zeta only
    | dsimp +zetaDelta only

theorem State.descClear_within (s : State) (l : Nat) :
    Within (.of [.events, .hbm] []) s (State.descClear s l) := by
  delta State.descClear
  repeat' first
    | with_reducible assumption
    | with_reducible apply Within.refl
    | with_reducible apply Within.ite
    | ((with_reducible apply Within.set_hbm_any); (case hh => decide); (case he => decide); (case hw => first | exact memWrite_wf _ _ _ | exact hbmPut_wf _ _ _ | exact fun h => Tbl.wf_set (d := (0 : Byte)) _ _ h | exact fun h => Tbl.wf_filter (d := (0 : Byte)) _ h))
    | split
    | dsimp -zeta only

theorem State.fbEnd_within (s : State) (l : Nat) :
    Within (.of [.links, .lag, .act, .irqs, .log, .pm, .events, .bus] [.lagState, .lagLinkState, .busStatus, .busGrants, .logState, .logEvbEntries, .logDropped, .logEvbLost, .logEntries, .sysIntSrc]) s (State.fbEnd s l) := by
  delta State.fbEnd
  repeat' first
    | with_reducible assumption
    | with_reducible apply Within.refl
    | ((with_reducible apply Within.setFlag); (case hr => first | decide | exact Foot.allRegs_hasReg _ _ | exact Foot.all_hasReg _ | (subst_vars; decide) | ((try dsimp +zetaDelta only); split <;> first | decide | (split <;> first | decide | (split <;> decide)))))
    | ((with_reducible apply Within.after (State.setLagLink_within ..)); (case hle => decide))
    | ((with_reducible apply Within.after (State.shortClear_within ..)); (case hle => decide))
    | ((with_reducible apply Within.after (State.poolFree_within ..)); (case hle => decide))
    | ((with_reducible apply Within.after (State.clear_within ..)); (case hle => decide))
    | (intro x
       have hx : Within (.of [.links, .lag, .act, .irqs, .log, .pm, .events, .bus] [.lagState, .lagLinkState, .busStatus, .busGrants, .logState, .logEvbEntries, .logDropped, .logEvbLost, .logEntries, .sysIntSrc]) s x := by
         dsimp -zeta only [x]
         repeat' first
           | with_reducible assumption
           | with_reducible apply Within.refl
           | ((with_reducible apply Within.setFlag); (case hr => first | decide | exact Foot.allRegs_hasReg _ _ | exact Foot.all_hasReg _ | (subst_vars; decide) | ((try dsimp +zetaDelta only); split <;> first | decide | (split <;> first | decide | (split <;> decide)))))
           | ((with_reducible apply Within.after (State.setLagLink_within ..)); (case hle => decide))
           | ((with_reducible apply Within.after (State.shortClear_within ..)); (case hle => decide))
           | ((with_reducible apply Within.after (State.poolFree_within ..)); (case hle => decide))
           | ((with_reducible apply Within.after (State.clear_within ..)); (case hle => decide))
           | with_reducible apply Within.ite
           | split
           | dsimp -zeta only
           | dsimp +zetaDelta only
       clear_value x)
    | intro x
    | lift_lets
    | with_reducible apply Within.ite
    | split
    | dsimp -zeta only
    | dsimp +zetaDelta only

theorem State.fbEnter_within (s : State) (l : Nat) (first : Nat) :
    Within (.of [.lag, .act, .latch, .irqs, .log, .pm, .events, .bus] [.lagState, .lagLinkState, .busStatus, .busGrants, .logState, .logEvbEntries, .logDropped, .logEvbLost, .logEntries, .sysIntSrc]) s (State.fbEnter s l first) := by
  delta State.fbEnter
  repeat' first
    | with_reducible assumption
    | with_reducible apply Within.refl
    | ((with_reducible apply Within.setFlag); (case hr => first | decide | exact Foot.allRegs_hasReg _ _ | exact Foot.all_hasReg _ | (subst_vars; decide) | ((try dsimp +zetaDelta only); split <;> first | decide | (split <;> first | decide | (split <;> decide)))))
    | ((with_reducible apply Within.after (State.poolTake_within ..)); (case hle => decide))
    | ((with_reducible apply Within.after (State.setLagLink_within ..)); (case hle => decide))
    | ((with_reducible apply Within.after (State.raise_within ..)); (case hle => decide))
    | ((with_reducible apply Within.after (State.clear_within ..)); (case hle => decide))
    | (intro x
       have hx : Within (.of [.lag, .act, .latch, .irqs, .log, .pm, .events, .bus] [.lagState, .lagLinkState, .busStatus, .busGrants, .logState, .logEvbEntries, .logDropped, .logEvbLost, .logEntries, .sysIntSrc]) s x := by
         dsimp -zeta only [x]
         repeat' first
           | with_reducible assumption
           | with_reducible apply Within.refl
           | ((with_reducible apply Within.setFlag); (case hr => first | decide | exact Foot.allRegs_hasReg _ _ | exact Foot.all_hasReg _ | (subst_vars; decide) | ((try dsimp +zetaDelta only); split <;> first | decide | (split <;> first | decide | (split <;> decide)))))
           | ((with_reducible apply Within.after (State.poolTake_within ..)); (case hle => decide))
           | ((with_reducible apply Within.after (State.setLagLink_within ..)); (case hle => decide))
           | ((with_reducible apply Within.after (State.raise_within ..)); (case hle => decide))
           | ((with_reducible apply Within.after (State.clear_within ..)); (case hle => decide))
           | with_reducible apply Within.ite
           | split
           | dsimp -zeta only
           | dsimp +zetaDelta only
       clear_value x)
    | intro x
    | lift_lets
    | with_reducible apply Within.ite
    | split
    | dsimp -zeta only
    | dsimp +zetaDelta only

theorem State.lagFree_within (s : State) (l : Nat) :
    Within (.of [.links, .lag, .act, .irqs, .log, .pm, .events, .bus] [.lagState, .lagLinkState, .busStatus, .busGrants, .logState, .logEvbEntries, .logDropped, .logEvbLost, .logEntries, .sysIntSrc]) s (State.lagFree s l) := by
  delta State.lagFree
  repeat' first
    | with_reducible assumption
    | with_reducible apply Within.refl
    | ((with_reducible apply Within.after (State.shortClear_within ..)); (case hle => decide))
    | ((with_reducible apply Within.after (State.poolFree_within ..)); (case hle => decide))
    | ((with_reducible apply Within.after (State.fbEnd_within ..)); (case hle => decide))
    | (intro x
       have hx : Within (.of [.links, .lag, .act, .irqs, .log, .pm, .events, .bus] [.lagState, .lagLinkState, .busStatus, .busGrants, .logState, .logEvbEntries, .logDropped, .logEvbLost, .logEntries, .sysIntSrc]) s x := by
         dsimp -zeta only [x]
         repeat' first
           | with_reducible assumption
           | with_reducible apply Within.refl
           | ((with_reducible apply Within.after (State.shortClear_within ..)); (case hle => decide))
           | ((with_reducible apply Within.after (State.poolFree_within ..)); (case hle => decide))
           | ((with_reducible apply Within.after (State.fbEnd_within ..)); (case hle => decide))
           | with_reducible apply Within.ite
           | split
           | dsimp -zeta only
           | dsimp +zetaDelta only
       clear_value x)
    | intro x
    | lift_lets
    | with_reducible apply Within.ite
    | split
    | dsimp -zeta only
    | dsimp +zetaDelta only

theorem State.lagSet_within (s : State) (l : Nat) :
    Within (.of [.links, .lag, .events, .hbm] [.lagState, .lagLinkState]) s (State.lagSet s l) := by
  delta State.lagSet
  repeat' first
    | with_reducible assumption
    | with_reducible apply Within.refl
    | ((with_reducible apply Within.after (State.unwrite_within ..)); (case hle => decide))
    | ((with_reducible apply Within.after (State.descClear_within ..)); (case hle => decide))
    | ((with_reducible apply Within.after (State.setLagLink_within ..)); (case hle => decide))
    | ((with_reducible apply Within.after (State.poolTake_within ..)); (case hle => decide))
    | (intro x
       have hx : Within (.of [.links, .lag, .events, .hbm] [.lagState, .lagLinkState]) s x := by
         dsimp -zeta only [x]
         repeat' first
           | with_reducible assumption
           | with_reducible apply Within.refl
           | ((with_reducible apply Within.after (State.unwrite_within ..)); (case hle => decide))
           | ((with_reducible apply Within.after (State.descClear_within ..)); (case hle => decide))
           | ((with_reducible apply Within.after (State.setLagLink_within ..)); (case hle => decide))
           | ((with_reducible apply Within.after (State.poolTake_within ..)); (case hle => decide))
           | with_reducible apply Within.ite
           | split
           | dsimp -zeta only
           | dsimp +zetaDelta only
       clear_value x)
    | intro x
    | lift_lets
    | with_reducible apply Within.ite
    | split
    | dsimp -zeta only
    | dsimp +zetaDelta only

theorem State.lagSync_within (s : State) :
    Within (.of [.links, .lag, .act, .latch, .irqs, .log, .pm, .events, .hbm, .bus] [.lagState, .lagLinkState, .busStatus, .busGrants, .logState, .logEvbEntries, .logDropped, .logEvbLost, .logEntries, .sysIntSrc]) s (State.lagSync s) := by
  delta State.lagSync
  repeat' first
    | with_reducible assumption
    | with_reducible apply Within.refl
    | ((with_reducible apply Within.each); (case' hg => intro _ _ _))
    | ((with_reducible apply Within.after (State.setLagLink_within ..)); (case hle => decide))
    | ((with_reducible apply Within.after (State.lagFree_within ..)); (case hle => decide))
    | ((with_reducible apply Within.after (State.shortClear_within ..)); (case hle => decide))
    | ((with_reducible apply Within.after (State.poolFree_within ..)); (case hle => decide))
    | ((with_reducible apply Within.after (State.lagSet_within ..)); (case hle => decide))
    | ((with_reducible apply Within.after (State.fbEnter_within ..)); (case hle => decide))
    | (intro x
       have hx : Within (.of [.links, .lag, .act, .latch, .irqs, .log, .pm, .events, .hbm, .bus] [.lagState, .lagLinkState, .busStatus, .busGrants, .logState, .logEvbEntries, .logDropped, .logEvbLost, .logEntries, .sysIntSrc]) s x := by
         dsimp -zeta only [x]
         repeat' first
           | with_reducible assumption
           | with_reducible apply Within.refl
           | ((with_reducible apply Within.each); (case' hg => intro _ _ _))
           | ((with_reducible apply Within.after (State.setLagLink_within ..)); (case hle => decide))
           | ((with_reducible apply Within.after (State.lagFree_within ..)); (case hle => decide))
           | ((with_reducible apply Within.after (State.shortClear_within ..)); (case hle => decide))
           | ((with_reducible apply Within.after (State.poolFree_within ..)); (case hle => decide))
           | ((with_reducible apply Within.after (State.lagSet_within ..)); (case hle => decide))
           | ((with_reducible apply Within.after (State.fbEnter_within ..)); (case hle => decide))
           | with_reducible apply Within.ite
           | split
           | dsimp -zeta only
           | dsimp +zetaDelta only
       clear_value x)
    | intro x
    | lift_lets
    | with_reducible apply Within.ite
    | split
    | dsimp -zeta only
    | dsimp +zetaDelta only

end Sys2Proof.Machine
end

