-- ==== Sys2Proof/Laws/Footprint/Prot.lean ====
section
/-! SUPPORT. What each operation of Machine/Prot.lean may touch. -/

namespace Sys2Proof.Machine

theorem State.mirror_within (s : State) (addr : Nat) (be : BitVec 8) (data : Word) :
    Within (.of [.mate] []) s (State.mirror s addr be data) := by
  delta State.mirror
  repeat' first
    | with_reducible assumption
    | with_reducible apply Within.refl
    | (intro x
       have hx : Within (.of [.mate] []) s x := by
         dsimp -zeta only [x]
         repeat' first
           | with_reducible assumption
           | with_reducible apply Within.refl
           | with_reducible apply Within.ite
           | ((with_reducible apply Within.set_mate); (case hc => decide))
           | split
           | dsimp -zeta only
           | dsimp +zetaDelta only
       clear_value x)
    | intro x
    | lift_lets
    | with_reducible apply Within.ite
    | ((with_reducible apply Within.set_mate); (case hc => decide))
    | split
    | dsimp -zeta only
    | dsimp +zetaDelta only

theorem Within.mirrored {f : Foot} {s x : State} (addr : Nat) (be : BitVec 8) (d : Word) (g : State → State) (h : Within f s x)
    (hm : (Foot.of [.mate] []).le f = true) (hr : f.hasReg .mateUnmirrored = true) (hg : ∀ y, Within f s y → Within f s (g y)) :
    Within f s (x.mirrored addr be d g) := by
  unfold State.mirrored
  split
  · exact .after (State.mirror_within ..) h hm
  · split
    · exact hg _ (h.count _ _ hr)
    · exact hg _ h

theorem State.protNote_within (s : State) (cmd : Nat) (g : Nat) :
    Within (.of [.prot] []) s (State.protNote s cmd g) := by
  delta State.protNote
  repeat' first
    | with_reducible assumption
    | with_reducible apply Within.refl
    | ((with_reducible apply Within.after (State.setGroup_within ..)); (case hle => decide))
    | (intro x
       have hx : Within (.of [.prot] []) s x := by
         dsimp -zeta only [x]
         repeat' first
           | with_reducible assumption
           | with_reducible apply Within.refl
           | ((with_reducible apply Within.after (State.setGroup_within ..)); (case hle => decide))
           | with_reducible apply Within.ite
           | split
           | dsimp -zeta only
           | dsimp +zetaDelta only
       clear_value x)
    | intro x
    | lift_lets
    | with_reducible apply Within.ite
    | split
    | dsimp -zeta only
    | dsimp +zetaDelta only

theorem State.protNotes_within (s : State) :
    Within (.of [.prot] []) s (State.protNotes s) := by
  delta State.protNotes
  repeat' first
    | with_reducible assumption
    | with_reducible apply Within.refl
    | ((with_reducible apply Within.eachN); (case' hg => intro _ _ _))
    | ((with_reducible apply Within.after (State.protNote_within ..)); (case hle => decide))
    | with_reducible apply Within.ite
    | split
    | dsimp -zeta only

theorem State.protRenote_within (s : State) (g : Nat) :
    Within (.of [.prot] []) s (State.protRenote s g) := by
  delta State.protRenote
  repeat' first
    | with_reducible assumption
    | with_reducible apply Within.refl
    | ((with_reducible apply Within.after (State.protNote_within ..)); (case hle => decide))
    | with_reducible apply Within.ite
    | split
    | dsimp -zeta only

theorem State.protAlarms_within (s : State) (g : Nat) :
    Within (.of [.act, .latch, .irqs, .log, .pm, .events, .bus] [.protGroupState, .busStatus, .busGrants, .logState, .logEvbEntries, .logDropped, .logEvbLost, .logEntries, .sysIntSrc]) s (State.protAlarms s g) := by
  delta State.protAlarms
  repeat' first
    | with_reducible assumption
    | with_reducible apply Within.refl
    | ((with_reducible apply Within.wr); (case hr => first | decide | exact Foot.allRegs_hasReg _ _ | exact Foot.all_hasReg _ | (subst_vars; decide) | ((try dsimp +zetaDelta only); split <;> first | decide | (split <;> first | decide | (split <;> decide)))))
    | ((with_reducible apply Within.after (State.setAlarm_within ..)); (case hle => decide))
    | (intro x
       have hx : Within (.of [.act, .latch, .irqs, .log, .pm, .events, .bus] [.protGroupState, .busStatus, .busGrants, .logState, .logEvbEntries, .logDropped, .logEvbLost, .logEntries, .sysIntSrc]) s x := by
         dsimp -zeta only [x]
         repeat' first
           | with_reducible assumption
           | with_reducible apply Within.refl
           | ((with_reducible apply Within.wr); (case hr => first | decide | exact Foot.allRegs_hasReg _ _ | exact Foot.all_hasReg _ | (subst_vars; decide) | ((try dsimp +zetaDelta only); split <;> first | decide | (split <;> first | decide | (split <;> decide)))))
           | ((with_reducible apply Within.after (State.setAlarm_within ..)); (case hle => decide))
           | with_reducible apply Within.ite
           | split
           | dsimp -zeta only
           | dsimp +zetaDelta only
       clear_value x)
    | intro x
    | lift_lets
    | with_reducible apply Within.ite
    | split
    | dsimp -zeta only
    | dsimp +zetaDelta only

theorem State.wtrLeft_within (s : State) (g : Nat) :
    Within (.of [] [.protGroupState]) s (State.wtrLeft s g) := by
  delta State.wtrLeft
  repeat' first
    | with_reducible assumption
    | with_reducible apply Within.refl
    | ((with_reducible apply Within.wr); (case hr => first | decide | exact Foot.allRegs_hasReg _ _ | exact Foot.all_hasReg _ | (subst_vars; decide) | ((try dsimp +zetaDelta only); split <;> first | decide | (split <;> first | decide | (split <;> decide)))))
    | (intro x
       have hx : Within (.of [] [.protGroupState]) s x := by
         dsimp -zeta only [x]
         repeat' first
           | with_reducible assumption
           | with_reducible apply Within.refl
           | ((with_reducible apply Within.wr); (case hr => first | decide | exact Foot.allRegs_hasReg _ _ | exact Foot.all_hasReg _ | (subst_vars; decide) | ((try dsimp +zetaDelta only); split <;> first | decide | (split <;> first | decide | (split <;> decide)))))
           | with_reducible apply Within.ite
           | split
           | dsimp -zeta only
           | dsimp +zetaDelta only
       clear_value x)
    | intro x
    | lift_lets
    | with_reducible apply Within.ite
    | split
    | dsimp -zeta only
    | dsimp +zetaDelta only

theorem State.wtrSync_within (s : State) (g : Nat) :
    Within (.of [.prot] [.protGroupState]) s (State.wtrSync s g) := by
  delta State.wtrSync
  repeat' first
    | with_reducible assumption
    | with_reducible apply Within.refl
    | ((with_reducible apply Within.setFlag); (case hr => first | decide | exact Foot.allRegs_hasReg _ _ | exact Foot.all_hasReg _ | (subst_vars; decide) | ((try dsimp +zetaDelta only); split <;> first | decide | (split <;> first | decide | (split <;> decide)))))
    | ((with_reducible apply Within.after (State.wtrLeft_within ..)); (case hle => decide))
    | ((with_reducible apply Within.after (State.setGroup_within ..)); (case hle => decide))
    | (intro x
       have hx : Within (.of [.prot] [.protGroupState]) s x := by
         dsimp -zeta only [x]
         repeat' first
           | with_reducible assumption
           | with_reducible apply Within.refl
           | ((with_reducible apply Within.setFlag); (case hr => first | decide | exact Foot.allRegs_hasReg _ _ | exact Foot.all_hasReg _ | (subst_vars; decide) | ((try dsimp +zetaDelta only); split <;> first | decide | (split <;> first | decide | (split <;> decide)))))
           | ((with_reducible apply Within.after (State.wtrLeft_within ..)); (case hle => decide))
           | ((with_reducible apply Within.after (State.setGroup_within ..)); (case hle => decide))
           | with_reducible apply Within.ite
           | split
           | dsimp -zeta only
           | dsimp +zetaDelta only
       clear_value x)
    | intro x
    | lift_lets
    | with_reducible apply Within.ite
    | split
    | dsimp -zeta only
    | dsimp +zetaDelta only

theorem State.protRetime_within (s : State) (g : Nat) :
    Within (.of [.prot] [.protGroupState]) s (State.protRetime s g) := by
  delta State.protRetime
  repeat' first
    | with_reducible assumption
    | with_reducible apply Within.refl
    | ((with_reducible apply Within.wr); (case hr => first | decide | exact Foot.allRegs_hasReg _ _ | exact Foot.all_hasReg _ | (subst_vars; decide) | ((try dsimp +zetaDelta only); split <;> first | decide | (split <;> first | decide | (split <;> decide)))))
    | ((with_reducible apply Within.after (State.wtrLeft_within ..)); (case hle => decide))
    | ((with_reducible apply Within.after (State.wtrSync_within ..)); (case hle => decide))
    | (intro x
       have hx : Within (.of [.prot] [.protGroupState]) s x := by
         dsimp -zeta only [x]
         repeat' first
           | with_reducible assumption
           | with_reducible apply Within.refl
           | ((with_reducible apply Within.wr); (case hr => first | decide | exact Foot.allRegs_hasReg _ _ | exact Foot.all_hasReg _ | (subst_vars; decide) | ((try dsimp +zetaDelta only); split <;> first | decide | (split <;> first | decide | (split <;> decide)))))
           | ((with_reducible apply Within.after (State.wtrLeft_within ..)); (case hle => decide))
           | ((with_reducible apply Within.after (State.wtrSync_within ..)); (case hle => decide))
           | with_reducible apply Within.ite
           | split
           | dsimp -zeta only
           | dsimp +zetaDelta only
       clear_value x)
    | intro x
    | lift_lets
    | with_reducible apply Within.ite
    | split
    | dsimp -zeta only
    | dsimp +zetaDelta only

theorem State.protDigests_within (s : State) (g : Nat) (p : Release) (t : Release) :
    Within (.of [.prot] [.protDiffer]) s (State.protDigests s g p t) := by
  delta State.protDigests
  repeat' first
    | with_reducible assumption
    | with_reducible apply Within.refl
    | ((with_reducible apply Within.count); (case hr => first | decide | exact Foot.allRegs_hasReg _ _ | exact Foot.all_hasReg _ | (subst_vars; decide) | ((try dsimp +zetaDelta only); split <;> first | decide | (split <;> first | decide | (split <;> decide)))))
    | ((with_reducible apply Within.after (State.setGroup_within ..)); (case hle => decide))
    | (intro x
       have hx : Within (.of [.prot] [.protDiffer]) s x := by
         dsimp -zeta only [x]
         repeat' first
           | with_reducible assumption
           | with_reducible apply Within.refl
           | ((with_reducible apply Within.count); (case hr => first | decide | exact Foot.allRegs_hasReg _ _ | exact Foot.all_hasReg _ | (subst_vars; decide) | ((try dsimp +zetaDelta only); split <;> first | decide | (split <;> first | decide | (split <;> decide)))))
           | ((with_reducible apply Within.after (State.setGroup_within ..)); (case hle => decide))
           | with_reducible apply Within.ite
           | split
           | dsimp -zeta only
           | dsimp +zetaDelta only
       clear_value x)
    | intro x
    | lift_lets
    | with_reducible apply Within.ite
    | split
    | dsimp -zeta only
    | dsimp +zetaDelta only

theorem State.protSelect_within (s : State) (g : Nat) (p : Release) (t : Release) :
    Within (.of [.prot] [.protGroupState, .protSelP, .protSelS, .protSwitch, .protNoGood, .protBothAbsent, .protDiffer]) s (State.protSelect s g p t).2 := by
  delta State.protSelect
  repeat' first
    | with_reducible assumption
    | with_reducible apply Within.refl
    | ((with_reducible apply Within.wr); (case hr => first | decide | exact Foot.allRegs_hasReg _ _ | exact Foot.all_hasReg _ | (subst_vars; decide) | ((try dsimp +zetaDelta only); split <;> first | decide | (split <;> first | decide | (split <;> decide)))))
    | ((with_reducible apply Within.setFlag); (case hr => first | decide | exact Foot.allRegs_hasReg _ _ | exact Foot.all_hasReg _ | (subst_vars; decide) | ((try dsimp +zetaDelta only); split <;> first | decide | (split <;> first | decide | (split <;> decide)))))
    | ((with_reducible apply Within.count); (case hr => first | decide | exact Foot.allRegs_hasReg _ _ | exact Foot.all_hasReg _ | (subst_vars; decide) | ((try dsimp +zetaDelta only); split <;> first | decide | (split <;> first | decide | (split <;> decide)))))
    | ((with_reducible apply Within.when); (case' hg => intro _ _))
    | ((with_reducible apply Within.after (State.setGroup_within ..)); (case hle => decide))
    | ((with_reducible apply Within.after (State.protDigests_within ..)); (case hle => decide))
    | ((with_reducible apply Within.after (State.wtrLeft_within ..)); (case hle => decide))
    | (intro x
       have hx : Within (.of [.prot] [.protGroupState, .protSelP, .protSelS, .protSwitch, .protNoGood, .protBothAbsent, .protDiffer]) s x := by
         dsimp -zeta only [x]
         repeat' first
           | with_reducible assumption
           | with_reducible apply Within.refl
           | ((with_reducible apply Within.wr); (case hr => first | decide | exact Foot.allRegs_hasReg _ _ | exact Foot.all_hasReg _ | (subst_vars; decide) | ((try dsimp +zetaDelta only); split <;> first | decide | (split <;> first | decide | (split <;> decide)))))
           | ((with_reducible apply Within.setFlag); (case hr => first | decide | exact Foot.allRegs_hasReg _ _ | exact Foot.all_hasReg _ | (subst_vars; decide) | ((try dsimp +zetaDelta only); split <;> first | decide | (split <;> first | decide | (split <;> decide)))))
           | ((with_reducible apply Within.count); (case hr => first | decide | exact Foot.allRegs_hasReg _ _ | exact Foot.all_hasReg _ | (subst_vars; decide) | ((try dsimp +zetaDelta only); split <;> first | decide | (split <;> first | decide | (split <;> decide)))))
           | ((with_reducible apply Within.when); (case' hg => intro _ _))
           | ((with_reducible apply Within.after (State.setGroup_within ..)); (case hle => decide))
           | ((with_reducible apply Within.after (State.protDigests_within ..)); (case hle => decide))
           | ((with_reducible apply Within.after (State.wtrLeft_within ..)); (case hle => decide))
           | with_reducible apply Within.ite
           | split
           | dsimp -zeta only
           | dsimp +zetaDelta only
       clear_value x)
    | intro x
    | lift_lets
    | with_reducible apply Within.ite
    | split
    | dsimp -zeta only
    | dsimp +zetaDelta only

theorem State.protReset_within (s : State) (g : Nat) :
    Within (.of [.prot, .act, .latch, .irqs, .log, .pm, .events, .bus] [.protGroupCmd, .protGroupState, .busStatus, .busGrants, .logState, .logEvbEntries, .logDropped, .logEvbLost, .logEntries, .sysIntSrc]) s (State.protReset s g) := by
  delta State.protReset
  repeat' first
    | with_reducible assumption
    | with_reducible apply Within.refl
    | ((with_reducible apply Within.wr); (case hr => first | decide | exact Foot.allRegs_hasReg _ _ | exact Foot.all_hasReg _ | (subst_vars; decide) | ((try dsimp +zetaDelta only); split <;> first | decide | (split <;> first | decide | (split <;> decide)))))
    | ((with_reducible apply Within.setFlag); (case hr => first | decide | exact Foot.allRegs_hasReg _ _ | exact Foot.all_hasReg _ | (subst_vars; decide) | ((try dsimp +zetaDelta only); split <;> first | decide | (split <;> first | decide | (split <;> decide)))))
    | ((with_reducible apply Within.after (State.setGroup_within ..)); (case hle => decide))
    | ((with_reducible apply Within.after (State.wtrLeft_within ..)); (case hle => decide))
    | ((with_reducible apply Within.after (State.clear_within ..)); (case hle => decide))
    | ((with_reducible apply Within.after (State.protAlarms_within ..)); (case hle => decide))
    | (intro x
       have hx : Within (.of [.prot, .act, .latch, .irqs, .log, .pm, .events, .bus] [.protGroupCmd, .protGroupState, .busStatus, .busGrants, .logState, .logEvbEntries, .logDropped, .logEvbLost, .logEntries, .sysIntSrc]) s x := by
         dsimp -zeta only [x]
         repeat' first
           | with_reducible assumption
           | with_reducible apply Within.refl
           | ((with_reducible apply Within.wr); (case hr => first | decide | exact Foot.allRegs_hasReg _ _ | exact Foot.all_hasReg _ | (subst_vars; decide) | ((try dsimp +zetaDelta only); split <;> first | decide | (split <;> first | decide | (split <;> decide)))))
           | ((with_reducible apply Within.setFlag); (case hr => first | decide | exact Foot.allRegs_hasReg _ _ | exact Foot.all_hasReg _ | (subst_vars; decide) | ((try dsimp +zetaDelta only); split <;> first | decide | (split <;> first | decide | (split <;> decide)))))
           | ((with_reducible apply Within.after (State.setGroup_within ..)); (case hle => decide))
           | ((with_reducible apply Within.after (State.wtrLeft_within ..)); (case hle => decide))
           | ((with_reducible apply Within.after (State.clear_within ..)); (case hle => decide))
           | ((with_reducible apply Within.after (State.protAlarms_within ..)); (case hle => decide))
           | with_reducible apply Within.ite
           | split
           | dsimp -zeta only
           | dsimp +zetaDelta only
       clear_value x)
    | intro x
    | lift_lets
    | with_reducible apply Within.ite
    | split
    | dsimp -zeta only
    | dsimp +zetaDelta only

theorem State.sdWindowEdge_within (s : State) :
    Within (.of [.prot] []) s (State.sdWindowEdge s) := by
  delta State.sdWindowEdge
  repeat' first
    | with_reducible assumption
    | with_reducible apply Within.refl
    | ((with_reducible apply Within.eachN); (case' hg => intro _ _ _))
    | ((with_reducible apply Within.after (State.setGroup_within ..)); (case hle => decide))
    | (intro x
       have hx : Within (.of [.prot] []) s x := by
         dsimp -zeta only [x]
         repeat' first
           | with_reducible assumption
           | with_reducible apply Within.refl
           | ((with_reducible apply Within.eachN); (case' hg => intro _ _ _))
           | ((with_reducible apply Within.after (State.setGroup_within ..)); (case hle => decide))
           | with_reducible apply Within.ite
           | ((with_reducible apply Within.set_prot); (case hc => decide))
           | split
           | dsimp -zeta only
           | dsimp +zetaDelta only
       clear_value x)
    | intro x
    | lift_lets
    | with_reducible apply Within.ite
    | ((with_reducible apply Within.set_prot); (case hc => decide))
    | split
    | dsimp -zeta only
    | dsimp +zetaDelta only

theorem State.sdWindowCut_within (s : State) :
    Within (.of [.prot] []) s (State.sdWindowCut s) := by
  delta State.sdWindowCut
  repeat' first
    | with_reducible assumption
    | with_reducible apply Within.refl
    | ((with_reducible apply Within.after (State.sdWindowEdge_within ..)); (case hle => decide))
    | with_reducible apply Within.ite
    | ((with_reducible apply Within.set_prot); (case hc => decide))
    | split
    | dsimp -zeta only

theorem State.protJudge_within (s : State) (g : Nat) (cmd : Nat) :
    Within (.of [.prot, .act, .latch, .irqs, .log, .pm, .events, .bus] [.protGroupCmd, .protGroupState, .protCmdRefused, .busStatus, .busGrants, .logState, .logEvbEntries, .logDropped, .logEvbLost, .logEntries, .sysIntSrc]) s (State.protJudge s g cmd) := by
  delta State.protJudge
  repeat' first
    | with_reducible assumption
    | with_reducible apply Within.refl
    | ((with_reducible apply Within.wr); (case hr => first | decide | exact Foot.allRegs_hasReg _ _ | exact Foot.all_hasReg _ | (subst_vars; decide) | ((try dsimp +zetaDelta only); split <;> first | decide | (split <;> first | decide | (split <;> decide)))))
    | ((with_reducible apply Within.count); (case hr => first | decide | exact Foot.allRegs_hasReg _ _ | exact Foot.all_hasReg _ | (subst_vars; decide) | ((try dsimp +zetaDelta only); split <;> first | decide | (split <;> first | decide | (split <;> decide)))))
    | ((with_reducible apply Within.after (State.protAlarms_within ..)); (case hle => decide))
    | ((with_reducible apply Within.after (State.setGroup_within ..)); (case hle => decide))
    | (intro x
       have hx : Within (.of [.prot, .act, .latch, .irqs, .log, .pm, .events, .bus] [.protGroupCmd, .protGroupState, .protCmdRefused, .busStatus, .busGrants, .logState, .logEvbEntries, .logDropped, .logEvbLost, .logEntries, .sysIntSrc]) s x := by
         dsimp -zeta only [x]
         repeat' first
           | with_reducible assumption
           | with_reducible apply Within.refl
           | ((with_reducible apply Within.wr); (case hr => first | decide | exact Foot.allRegs_hasReg _ _ | exact Foot.all_hasReg _ | (subst_vars; decide) | ((try dsimp +zetaDelta only); split <;> first | decide | (split <;> first | decide | (split <;> decide)))))
           | ((with_reducible apply Within.count); (case hr => first | decide | exact Foot.allRegs_hasReg _ _ | exact Foot.all_hasReg _ | (subst_vars; decide) | ((try dsimp +zetaDelta only); split <;> first | decide | (split <;> first | decide | (split <;> decide)))))
           | ((with_reducible apply Within.after (State.protAlarms_within ..)); (case hle => decide))
           | ((with_reducible apply Within.after (State.setGroup_within ..)); (case hle => decide))
           | with_reducible apply Within.ite
           | split
           | dsimp -zeta only
           | dsimp +zetaDelta only
       clear_value x)
    | intro x
    | lift_lets
    | with_reducible apply Within.ite
    | split
    | dsimp -zeta only
    | dsimp +zetaDelta only

theorem State.protTake_within (s : State) (g : Nat) (cmd : Nat) :
    Within (.of [.prot, .act, .latch, .irqs, .log, .pm, .events, .bus] [.protGroupCmd, .protGroupState, .protCmdRefused, .busStatus, .busGrants, .logState, .logEvbEntries, .logDropped, .logEvbLost, .logEntries, .sysIntSrc]) s (State.protTake s g cmd) := by
  delta State.protTake
  repeat' first
    | with_reducible assumption
    | with_reducible apply Within.refl
    | ((with_reducible apply Within.after (State.setGroup_within ..)); (case hle => decide))
    | ((with_reducible apply Within.after (State.protJudge_within ..)); (case hle => decide))
    | (intro x
       have hx : Within (.of [.prot, .act, .latch, .irqs, .log, .pm, .events, .bus] [.protGroupCmd, .protGroupState, .protCmdRefused, .busStatus, .busGrants, .logState, .logEvbEntries, .logDropped, .logEvbLost, .logEntries, .sysIntSrc]) s x := by
         dsimp -zeta only [x]
         repeat' first
           | with_reducible assumption
           | with_reducible apply Within.refl
           | ((with_reducible apply Within.after (State.setGroup_within ..)); (case hle => decide))
           | ((with_reducible apply Within.after (State.protJudge_within ..)); (case hle => decide))
           | with_reducible apply Within.ite
           | split
           | dsimp -zeta only
           | dsimp +zetaDelta only
       clear_value x)
    | intro x
    | lift_lets
    | with_reducible apply Within.ite
    | split
    | dsimp -zeta only
    | dsimp +zetaDelta only

theorem State.protCfg_within (s : State) (g : Nat) :
    Within (.of [.prot, .act, .latch, .irqs, .log, .pm, .events, .bus] [.protGroupCmd, .protGroupState, .protCmdRefused, .busStatus, .busGrants, .logState, .logEvbEntries, .logDropped, .logEvbLost, .logEntries, .sysIntSrc]) s (State.protCfg s g) := by
  delta State.protCfg
  repeat' first
    | with_reducible assumption
    | with_reducible apply Within.refl
    | ((with_reducible apply Within.setWord); (case hr => first | decide | exact Foot.allRegs_hasReg _ _ | exact Foot.all_hasReg _ | (subst_vars; decide) | ((try dsimp +zetaDelta only); split <;> first | decide | (split <;> first | decide | (split <;> decide)))))
    | ((with_reducible apply Within.wr); (case hr => first | decide | exact Foot.allRegs_hasReg _ _ | exact Foot.all_hasReg _ | (subst_vars; decide) | ((try dsimp +zetaDelta only); split <;> first | decide | (split <;> first | decide | (split <;> decide)))))
    | ((with_reducible apply Within.after (State.protRetime_within ..)); (case hle => decide))
    | ((with_reducible apply Within.after (State.setGroup_within ..)); (case hle => decide))
    | ((with_reducible apply Within.after (State.protAlarms_within ..)); (case hle => decide))
    | (intro x
       have hx : Within (.of [.prot, .act, .latch, .irqs, .log, .pm, .events, .bus] [.protGroupCmd, .protGroupState, .protCmdRefused, .busStatus, .busGrants, .logState, .logEvbEntries, .logDropped, .logEvbLost, .logEntries, .sysIntSrc]) s x := by
         dsimp -zeta only [x]
         repeat' first
           | with_reducible assumption
           | with_reducible apply Within.refl
           | ((with_reducible apply Within.setWord); (case hr => first | decide | exact Foot.allRegs_hasReg _ _ | exact Foot.all_hasReg _ | (subst_vars; decide) | ((try dsimp +zetaDelta only); split <;> first | decide | (split <;> first | decide | (split <;> decide)))))
           | ((with_reducible apply Within.wr); (case hr => first | decide | exact Foot.allRegs_hasReg _ _ | exact Foot.all_hasReg _ | (subst_vars; decide) | ((try dsimp +zetaDelta only); split <;> first | decide | (split <;> first | decide | (split <;> decide)))))
           | ((with_reducible apply Within.after (State.protRetime_within ..)); (case hle => decide))
           | ((with_reducible apply Within.after (State.setGroup_within ..)); (case hle => decide))
           | ((with_reducible apply Within.after (State.protAlarms_within ..)); (case hle => decide))
           | with_reducible apply Within.ite
           | split
           | dsimp -zeta only
           | dsimp +zetaDelta only
       clear_value x)
    | intro x
    | lift_lets
    | with_reducible apply Within.ite
    | split
    | dsimp -zeta only
    | dsimp +zetaDelta only

theorem State.protSync_within (s : State) (g : Nat) :
    Within (.of [.prot, .act, .latch, .irqs, .log, .pm, .events, .bus] [.protGroupCmd, .protGroupState, .protCmdRefused, .busStatus, .busGrants, .logState, .logEvbEntries, .logDropped, .logEvbLost, .logEntries, .sysIntSrc]) s (State.protSync s g) := by
  delta State.protSync
  repeat' first
    | with_reducible assumption
    | with_reducible apply Within.refl
    | ((with_reducible apply Within.when); (case' hg => intro _ _))
    | ((with_reducible apply Within.each); (case' hg => intro _ _ _))
    | ((with_reducible apply Within.after (State.protRetime_within ..)); (case hle => decide))
    | ((with_reducible apply Within.after (State.protReset_within ..)); (case hle => decide))
    | ((with_reducible apply Within.after (State.setGroup_within ..)); (case hle => decide))
    | ((with_reducible apply Within.after (State.protJudge_within ..)); (case hle => decide))
    | (intro x
       have hx : Within (.of [.prot, .act, .latch, .irqs, .log, .pm, .events, .bus] [.protGroupCmd, .protGroupState, .protCmdRefused, .busStatus, .busGrants, .logState, .logEvbEntries, .logDropped, .logEvbLost, .logEntries, .sysIntSrc]) s x := by
         dsimp -zeta only [x]
         repeat' first
           | with_reducible assumption
           | with_reducible apply Within.refl
           | ((with_reducible apply Within.when); (case' hg => intro _ _))
           | ((with_reducible apply Within.each); (case' hg => intro _ _ _))
           | ((with_reducible apply Within.after (State.protRetime_within ..)); (case hle => decide))
           | ((with_reducible apply Within.after (State.protReset_within ..)); (case hle => decide))
           | ((with_reducible apply Within.after (State.setGroup_within ..)); (case hle => decide))
           | ((with_reducible apply Within.after (State.protJudge_within ..)); (case hle => decide))
           | with_reducible apply Within.ite
           | split
           | dsimp -zeta only
           | dsimp +zetaDelta only
       clear_value x)
    | intro x
    | lift_lets
    | with_reducible apply Within.ite
    | split
    | dsimp -zeta only
    | dsimp +zetaDelta only

theorem State.protCommand_within (s : State) (m : Master) (g : Nat) (cmd : Nat) (atEpoch : Bool) :
    Within (.of [.prot, .act, .latch, .irqs, .log, .pm, .events, .mate, .bus] [.protGroupCmd, .protGroupState, .protCmdRefused, .mateUnmirrored, .busStatus, .busErrLast, .busErrResp, .busDefault, .busGrants, .logState, .logEvbEntries, .logDropped, .logEvbLost, .logEntries, .sysIntSrc]) s (State.protCommand s m g cmd atEpoch) := by
  delta State.protCommand
  repeat' first
    | with_reducible assumption
    | with_reducible apply Within.refl
    | ((with_reducible apply Within.mirrored); (case hm => decide); (case hr => first | decide | exact Foot.allRegs_hasReg _ _ | exact Foot.all_hasReg _ | (subst_vars; decide) | ((try dsimp +zetaDelta only); split <;> first | decide | (split <;> first | decide | (split <;> decide)))); (case' hg => intro _ _))
    | ((with_reducible apply Within.after (State.errResp_within ..)); (case hle => decide))
    | ((with_reducible apply Within.after (State.setGroup_within ..)); (case hle => decide))
    | ((with_reducible apply Within.after (State.protTake_within ..)); (case hle => decide))
    | (intro x
       have hx : Within (.of [.prot, .act, .latch, .irqs, .log, .pm, .events, .mate, .bus] [.protGroupCmd, .protGroupState, .protCmdRefused, .mateUnmirrored, .busStatus, .busErrLast, .busErrResp, .busDefault, .busGrants, .logState, .logEvbEntries, .logDropped, .logEvbLost, .logEntries, .sysIntSrc]) s x := by
         dsimp -zeta only [x]
         repeat' first
           | with_reducible assumption
           | with_reducible apply Within.refl
           | ((with_reducible apply Within.mirrored); (case hm => decide); (case hr => first | decide | exact Foot.allRegs_hasReg _ _ | exact Foot.all_hasReg _ | (subst_vars; decide) | ((try dsimp +zetaDelta only); split <;> first | decide | (split <;> first | decide | (split <;> decide)))); (case' hg => intro _ _))
           | ((with_reducible apply Within.after (State.errResp_within ..)); (case hle => decide))
           | ((with_reducible apply Within.after (State.setGroup_within ..)); (case hle => decide))
           | ((with_reducible apply Within.after (State.protTake_within ..)); (case hle => decide))
           | with_reducible apply Within.ite
           | split
           | dsimp -zeta only
           | dsimp +zetaDelta only
       clear_value x)
    | intro x
    | lift_lets
    | with_reducible apply Within.ite
    | split
    | dsimp -zeta only
    | dsimp +zetaDelta only

theorem State.protRxAlarms_within (s : State) (bridge : Bool) (i : Nat) :
    Within (.of [.act, .latch, .irqs, .log, .pm, .events, .bus] [.busStatus, .busGrants, .logState, .logEvbEntries, .logDropped, .logEvbLost, .logEntries, .sysIntSrc]) s (State.protRxAlarms s bridge i) := by
  delta State.protRxAlarms
  repeat' first
    | with_reducible assumption
    | with_reducible apply Within.refl
    | ((with_reducible apply Within.after (State.setAlarm_within ..)); (case hle => decide))
    | (intro x
       have hx : Within (.of [.act, .latch, .irqs, .log, .pm, .events, .bus] [.busStatus, .busGrants, .logState, .logEvbEntries, .logDropped, .logEvbLost, .logEntries, .sysIntSrc]) s x := by
         dsimp -zeta only [x]
         repeat' first
           | with_reducible assumption
           | with_reducible apply Within.refl
           | ((with_reducible apply Within.after (State.setAlarm_within ..)); (case hle => decide))
           | with_reducible apply Within.ite
           | split
           | dsimp -zeta only
           | dsimp +zetaDelta only
       clear_value x)
    | intro x
    | lift_lets
    | with_reducible apply Within.ite
    | split
    | dsimp -zeta only
    | dsimp +zetaDelta only

theorem State.protStore_within (s : State) (bridge : Bool) (i : Nat) (leg : Nat) (code : Nat) (param : Nat) :
    Within (.of [.prot, .act, .latch, .irqs, .log, .pm, .events, .bus] [.protRxGroup, .protRxBridge, .busStatus, .busGrants, .logState, .logEvbEntries, .logDropped, .logEvbLost, .logEntries, .sysIntSrc]) s (State.protStore s bridge i leg code param) := by
  delta State.protStore
  repeat' first
    | with_reducible assumption
    | with_reducible apply Within.refl
    | ((with_reducible apply Within.setWord); (case hr => first | decide | exact Foot.allRegs_hasReg _ _ | exact Foot.all_hasReg _ | (subst_vars; decide) | ((try dsimp +zetaDelta only); split <;> first | decide | (split <;> first | decide | (split <;> decide)))))
    | ((with_reducible apply Within.after (State.protRxAlarms_within ..)); (case hle => decide))
    | (intro x
       have hx : Within (.of [.prot, .act, .latch, .irqs, .log, .pm, .events, .bus] [.protRxGroup, .protRxBridge, .busStatus, .busGrants, .logState, .logEvbEntries, .logDropped, .logEvbLost, .logEntries, .sysIntSrc]) s x := by
         dsimp -zeta only [x]
         repeat' first
           | with_reducible assumption
           | with_reducible apply Within.refl
           | ((with_reducible apply Within.setWord); (case hr => first | decide | exact Foot.allRegs_hasReg _ _ | exact Foot.all_hasReg _ | (subst_vars; decide) | ((try dsimp +zetaDelta only); split <;> first | decide | (split <;> first | decide | (split <;> decide)))))
           | ((with_reducible apply Within.after (State.protRxAlarms_within ..)); (case hle => decide))
           | with_reducible apply Within.ite
           | ((with_reducible apply Within.set_prot); (case hc => decide))
           | split
           | dsimp -zeta only
           | dsimp +zetaDelta only
       clear_value x)
    | intro x
    | lift_lets
    | with_reducible apply Within.ite
    | ((with_reducible apply Within.set_prot); (case hc => decide))
    | split
    | dsimp -zeta only
    | dsimp +zetaDelta only

theorem State.protReceive_within (s : State) (l : Nat) (w : Nat) :
    Within (.of [.prot, .act, .latch, .irqs, .log, .pm, .events, .bus] [.protRxGroup, .protRxBridge, .protRxReserved, .protRxUnmatched, .busStatus, .busGrants, .logState, .logEvbEntries, .logDropped, .logEvbLost, .logEntries, .sysIntSrc]) s (State.protReceive s l w) := by
  delta State.protReceive
  repeat' first
    | with_reducible assumption
    | with_reducible apply Within.refl
    | ((with_reducible apply Within.count); (case hr => first | decide | exact Foot.allRegs_hasReg _ _ | exact Foot.all_hasReg _ | (subst_vars; decide) | ((try dsimp +zetaDelta only); split <;> first | decide | (split <;> first | decide | (split <;> decide)))))
    | ((with_reducible apply Within.when); (case' hg => intro _ _))
    | ((with_reducible apply Within.after (State.protStore_within ..)); (case hle => decide))
    | (intro x
       have hx : Within (.of [.prot, .act, .latch, .irqs, .log, .pm, .events, .bus] [.protRxGroup, .protRxBridge, .protRxReserved, .protRxUnmatched, .busStatus, .busGrants, .logState, .logEvbEntries, .logDropped, .logEvbLost, .logEntries, .sysIntSrc]) s x := by
         dsimp -zeta only [x]
         repeat' first
           | with_reducible assumption
           | with_reducible apply Within.refl
           | ((with_reducible apply Within.count); (case hr => first | decide | exact Foot.allRegs_hasReg _ _ | exact Foot.all_hasReg _ | (subst_vars; decide) | ((try dsimp +zetaDelta only); split <;> first | decide | (split <;> first | decide | (split <;> decide)))))
           | ((with_reducible apply Within.when); (case' hg => intro _ _))
           | ((with_reducible apply Within.after (State.protStore_within ..)); (case hle => decide))
           | with_reducible apply Within.ite
           | split
           | dsimp -zeta only
           | dsimp +zetaDelta only
       clear_value x)
    | intro x
    | lift_lets
    | with_reducible apply Within.ite
    | split
    | dsimp -zeta only
    | dsimp +zetaDelta only

end Sys2Proof.Machine
end

