-- ==== Sys2Proof/Laws/Footprint/Concord.lean ====
section
/-! SUPPORT. What each operation of Machine/Concord.lean may touch. -/

namespace Sys2Proof.Machine

theorem State.vouchNote_within (s : State) (l : Nat) (matched : Bool) :
    Within (.of [.alm] []) s (State.vouchNote s l matched) := by
  delta State.vouchNote
  repeat' first
    | with_reducible assumption
    | with_reducible apply Within.refl
    | (intro x
       have hx : Within (.of [.alm] []) s x := by
         dsimp -zeta only [x]
         repeat' first
           | with_reducible assumption
           | with_reducible apply Within.refl
           | with_reducible apply Within.ite
           | ((with_reducible apply Within.set_alm); (case hc => decide))
           | split
           | dsimp -zeta only
           | dsimp +zetaDelta only
       clear_value x)
    | intro x
    | lift_lets
    | with_reducible apply Within.ite
    | ((with_reducible apply Within.set_alm); (case hc => decide))
    | split
    | dsimp -zeta only
    | dsimp +zetaDelta only

theorem State.setArmDis_within (s : State) (l : Nat) (b : Bool) :
    Within (.of [.act, .latch, .irqs, .log, .pm, .events, .bus] [.almArmDis, .busStatus, .busGrants, .logState, .logEvbEntries, .logDropped, .logEvbLost, .logEntries, .sysIntSrc]) s (State.setArmDis s l b) := by
  delta State.setArmDis
  repeat' first
    | with_reducible assumption
    | with_reducible apply Within.refl
    | ((with_reducible apply Within.wrBit); (case hr => first | decide | exact Foot.allRegs_hasReg _ _ | exact Foot.all_hasReg _ | (subst_vars; decide) | ((try dsimp +zetaDelta only); split <;> first | decide | (split <;> first | decide | (split <;> decide)))))
    | ((with_reducible apply Within.after (State.setAlarm_within ..)); (case hle => decide))
    | with_reducible apply Within.ite
    | split
    | dsimp -zeta only

theorem State.armCompare_within (s : State) (l : Nat) :
    Within (.of [.links, .act, .latch, .irqs, .log, .pm, .events, .bus] [.almArmDis, .busStatus, .busGrants, .logState, .logEvbEntries, .logDropped, .logEvbLost, .logEntries, .sysIntSrc]) s (State.armCompare s l) := by
  delta State.armCompare
  repeat' first
    | with_reducible assumption
    | with_reducible apply Within.refl
    | ((with_reducible apply Within.after (State.setArmDis_within ..)); (case hle => decide))
    | ((with_reducible apply Within.after (State.setRx_within ..)); (case hle => decide))
    | (intro x
       have hx : Within (.of [.links, .act, .latch, .irqs, .log, .pm, .events, .bus] [.almArmDis, .busStatus, .busGrants, .logState, .logEvbEntries, .logDropped, .logEvbLost, .logEntries, .sysIntSrc]) s x := by
         dsimp -zeta only [x]
         repeat' first
           | with_reducible assumption
           | with_reducible apply Within.refl
           | ((with_reducible apply Within.after (State.setArmDis_within ..)); (case hle => decide))
           | ((with_reducible apply Within.after (State.setRx_within ..)); (case hle => decide))
           | with_reducible apply Within.ite
           | split
           | dsimp -zeta only
           | dsimp +zetaDelta only
       clear_value x)
    | intro x
    | lift_lets
    | with_reducible apply Within.ite
    | split
    | dsimp -zeta only
    | dsimp +zetaDelta only

theorem State.armIdle_within (s : State) :
    Within (.of [.act, .latch, .irqs, .log, .pm, .events, .bus] [.almArmDis, .busStatus, .busGrants, .logState, .logEvbEntries, .logDropped, .logEvbLost, .logEntries, .sysIntSrc]) s (State.armIdle s) := by
  delta State.armIdle
  repeat' first
    | with_reducible assumption
    | with_reducible apply Within.refl
    | ((with_reducible apply Within.eachN); (case' hg => intro _ _ _))
    | ((with_reducible apply Within.after (State.setArmDis_within ..)); (case hle => decide))
    | with_reducible apply Within.ite
    | split
    | dsimp -zeta only

theorem State.watchSync_within (s : State) :
    Within (.of [.act, .latch, .irqs, .log, .pm, .events, .bus] [.mateWatchLost, .busStatus, .busGrants, .logState, .logEvbEntries, .logDropped, .logEvbLost, .logEntries, .sysIntSrc]) s (State.watchSync s) := by
  delta State.watchSync
  repeat' first
    | with_reducible assumption
    | with_reducible apply Within.refl
    | ((with_reducible apply Within.setWord); (case hr => first | decide | exact Foot.allRegs_hasReg _ _ | exact Foot.all_hasReg _ | (subst_vars; decide) | ((try dsimp +zetaDelta only); split <;> first | decide | (split <;> first | decide | (split <;> decide)))))
    | ((with_reducible apply Within.after (State.setAlarm_within ..)); (case hle => decide))
    | (intro x
       have hx : Within (.of [.act, .latch, .irqs, .log, .pm, .events, .bus] [.mateWatchLost, .busStatus, .busGrants, .logState, .logEvbEntries, .logDropped, .logEvbLost, .logEntries, .sysIntSrc]) s x := by
         dsimp -zeta only [x]
         repeat' first
           | with_reducible assumption
           | with_reducible apply Within.refl
           | ((with_reducible apply Within.setWord); (case hr => first | decide | exact Foot.allRegs_hasReg _ _ | exact Foot.all_hasReg _ | (subst_vars; decide) | ((try dsimp +zetaDelta only); split <;> first | decide | (split <;> first | decide | (split <;> decide)))))
           | ((with_reducible apply Within.after (State.setAlarm_within ..)); (case hle => decide))
           | with_reducible apply Within.ite
           | split
           | dsimp -zeta only
           | dsimp +zetaDelta only
       clear_value x)
    | intro x
    | lift_lets
    | with_reducible apply Within.ite
    | split
    | dsimp -zeta only
    | dsimp +zetaDelta only

end Sys2Proof.Machine
end

