-- ==== Sys2Proof/Laws/Footprint/Loaded.lean ====
section
/-! SUPPORT. What each operation of Machine/Loaded.lean may touch. -/

namespace Sys2Proof.Machine

theorem Within.cfgWrite {f : Foot} {s x : State} (m : Master) (r : Reg) (i : Nat) (v : Word) (g : State → State) (h : Within f s x)
    (he : (Foot.of [.irqs] [.busErrLast, .busErrResp, .busDefault, .sysIntSrc]).le f = true) (hm : (Foot.of [.mate] []).le f = true) (hu : f.hasReg .mateUnmirrored = true) (hr : f.hasReg r = true)
    (hg : ∀ y, Within f s y → Within f s (g y)) : Within f s (x.cfgWrite m r i v g) := by
  unfold State.cfgWrite
  refine .expertOnly _ _ _ h he fun y hy => .valueOnly _ _ _ _ hy he fun z hz => ?_
  dsimp only
  split
  · exact .mirrored _ _ _ _ hz hm hu fun w hw => hg _ (hw.setWord _ _ _ hr)
  · exact hg _ (hz.setWord _ _ _ hr)

end Sys2Proof.Machine
end

