-- ==== Sys2Proof/Laws/Footprint/Line.lean ====
section
/-! SUPPORT. What each operation of Machine/Line.lean may touch. -/

namespace Sys2Proof.Machine

theorem State.loopBlock_within (s : State) (l : Nat) :
    Within (.of [.links] []) s (State.loopBlock s l).2.2 := by
  delta State.loopBlock
  repeat' first
    | with_reducible assumption
    | with_reducible apply Within.refl
    | ((with_reducible apply Within.after (State.setTx_within ..)); (case hle => decide))
    | (intro x
       have hx : Within (.of [.links] []) s x := by
         dsimp -zeta only [x]
         repeat' first
           | with_reducible assumption
           | with_reducible apply Within.refl
           | ((with_reducible apply Within.after (State.setTx_within ..)); (case hle => decide))
           | with_reducible apply Within.ite
           | split
           | dsimp -zeta only
           | dsimp +zetaDelta only
       clear_value x)
    | intro x
    | lift_lets
    | with_reducible apply Within.ite
    | split
    | dsimp -zeta only
    | dsimp +zetaDelta only

end Sys2Proof.Machine
end

