-- ==== Sys2Proof/Laws/Footprint/Stages.lean ====
section
/-! SUPPORT. What each operation of Machine/Stages.lean may touch. -/

namespace Sys2Proof.Machine

theorem State.frameRead_within (s : State) (g : Nat) (l : Nat) (w : Nat) (path : Bool) :
    Within (.of [.free, .tick, .act, .latch, .irqs, .log, .pm, .events, .ecc, .bus] [.almState, .almStageFail, .eccStatus, .eccLastUe, .eccTrack, .eccCorr, .eccUe, .eccPoison, .eccTrackFull, .busStatus, .busGrants, .logState, .logEvbEntries, .logDropped, .logEvbLost, .logEntries, .sysIntSrc]) s (State.frameRead s g l w path).2 := by
  delta State.frameRead
  repeat' first
    | with_reducible assumption
    | with_reducible apply Within.refl
    | ((with_reducible apply Within.after (State.sramRead_within ..)); (case hle => decide))
    | ((with_reducible apply Within.after (Within.of_eq (State.sramRead_within ..) ?e)); (case e => assumption); (case hle => decide))
    | (intro x
       have hx : Within (.of [.free, .tick, .act, .latch, .irqs, .log, .pm, .events, .ecc, .bus] [.almState, .almStageFail, .eccStatus, .eccLastUe, .eccTrack, .eccCorr, .eccUe, .eccPoison, .eccTrackFull, .busStatus, .busGrants, .logState, .logEvbEntries, .logDropped, .logEvbLost, .logEntries, .sysIntSrc]) s x := by
         dsimp -zeta only [x]
         repeat' first
           | with_reducible assumption
           | with_reducible apply Within.refl
           | ((with_reducible apply Within.after (State.sramRead_within ..)); (case hle => decide))
           | ((with_reducible apply Within.after (Within.of_eq (State.sramRead_within ..) ?e)); (case e => assumption); (case hle => decide))
           | with_reducible apply Within.ite
           | split
           | dsimp -zeta only
           | dsimp +zetaDelta only
       clear_value x)
    | intro x
    | lift_lets
    | with_reducible apply Within.ite
    | split
    | dsimp -zeta only
    | dsimp +zetaDelta only

theorem State.bridgeRead_within (s : State) (g : Nat) (w : Nat) (path : Bool) :
    Within (.of [.free, .tick, .act, .latch, .irqs, .log, .pm, .events, .ecc, .bus] [.almState, .almStageFail, .eccStatus, .eccLastUe, .eccTrack, .eccCorr, .eccUe, .eccPoison, .eccTrackFull, .busStatus, .busGrants, .logState, .logEvbEntries, .logDropped, .logEvbLost, .logEntries, .sysIntSrc]) s (State.bridgeRead s g w path).2 := by
  delta State.bridgeRead
  repeat' first
    | with_reducible assumption
    | with_reducible apply Within.refl
    | ((with_reducible apply Within.after (State.sramRead_within ..)); (case hle => decide))
    | ((with_reducible apply Within.after (Within.of_eq (State.sramRead_within ..) ?e)); (case e => assumption); (case hle => decide))
    | (intro x
       have hx : Within (.of [.free, .tick, .act, .latch, .irqs, .log, .pm, .events, .ecc, .bus] [.almState, .almStageFail, .eccStatus, .eccLastUe, .eccTrack, .eccCorr, .eccUe, .eccPoison, .eccTrackFull, .busStatus, .busGrants, .logState, .logEvbEntries, .logDropped, .logEvbLost, .logEntries, .sysIntSrc]) s x := by
         dsimp -zeta only [x]
         repeat' first
           | with_reducible assumption
           | with_reducible apply Within.refl
           | ((with_reducible apply Within.after (State.sramRead_within ..)); (case hle => decide))
           | ((with_reducible apply Within.after (Within.of_eq (State.sramRead_within ..) ?e)); (case e => assumption); (case hle => decide))
           | with_reducible apply Within.ite
           | split
           | dsimp -zeta only
           | dsimp +zetaDelta only
       clear_value x)
    | intro x
    | lift_lets
    | with_reducible apply Within.ite
    | split
    | dsimp -zeta only
    | dsimp +zetaDelta only

theorem State.wordRead_within (s : State) (g : Nat) (bank : Nat) (word : Nat) (path : Bool) :
    Within (.of [.free, .tick, .act, .latch, .irqs, .log, .pm, .events, .ecc, .bus] [.almState, .almStageFail, .eccStatus, .eccLastUe, .eccTrack, .eccCorr, .eccUe, .eccPoison, .eccTrackFull, .busStatus, .busGrants, .logState, .logEvbEntries, .logDropped, .logEvbLost, .logEntries, .sysIntSrc]) s (State.wordRead s g bank word path).2 := by
  delta State.wordRead
  repeat' first
    | with_reducible assumption
    | with_reducible apply Within.refl
    | ((with_reducible apply Within.after (State.frameRead_within ..)); (case hle => decide))
    | ((with_reducible apply Within.after (Within.of_eq (State.frameRead_within ..) ?e)); (case e => assumption); (case hle => decide))
    | ((with_reducible apply Within.after (State.bridgeRead_within ..)); (case hle => decide))
    | ((with_reducible apply Within.after (Within.of_eq (State.bridgeRead_within ..) ?e)); (case e => assumption); (case hle => decide))
    | with_reducible apply Within.ite
    | split
    | dsimp -zeta only

theorem State.releaseAll_within (s : State) (e : TickEnv) :
    Within (.of [.free, .tick, .lag, .act, .latch, .irqs, .log, .pm, .events, .hbm, .ecc, .bus] [.lagLinkState, .lagReadLate, .lagPageFail, .lagReleased, .lagMissing, .lagPageBad, .eccStatus, .hbmCand, .hbmUe, .busStatus, .busGrants, .logState, .logEvbEntries, .logDropped, .logEvbLost, .logEntries, .sysIntSrc]) s (State.releaseAll s e).2 := by
  delta State.releaseAll
  repeat' first
    | with_reducible assumption
    | with_reducible apply Within.refl
    | ((with_reducible apply Within.iter_snd); (case' hg => intro _ _ _))
    | ((with_reducible apply Within.iter); (case' hg => intro _ _ _))
    | ((with_reducible apply Within.after (State.lagRelease_within ..)); (case hle => decide))
    | ((with_reducible apply Within.after (Within.of_eq (State.lagRelease_within ..) ?e)); (case e => assumption); (case hle => decide))
    | (intro x
       have hx : Within (.of [.free, .tick, .lag, .act, .latch, .irqs, .log, .pm, .events, .hbm, .ecc, .bus] [.lagLinkState, .lagReadLate, .lagPageFail, .lagReleased, .lagMissing, .lagPageBad, .eccStatus, .hbmCand, .hbmUe, .busStatus, .busGrants, .logState, .logEvbEntries, .logDropped, .logEvbLost, .logEntries, .sysIntSrc]) s x := by
         dsimp -zeta only [x]
         repeat' first
           | with_reducible assumption
           | with_reducible apply Within.refl
           | ((with_reducible apply Within.iter_snd); (case' hg => intro _ _ _))
           | ((with_reducible apply Within.iter); (case' hg => intro _ _ _))
           | ((with_reducible apply Within.after (State.lagRelease_within ..)); (case hle => decide))
           | ((with_reducible apply Within.after (Within.of_eq (State.lagRelease_within ..) ?e)); (case e => assumption); (case hle => decide))
           | with_reducible apply Within.ite
           | split
           | dsimp -zeta only
           | dsimp +zetaDelta only
       clear_value x)
    | intro x
    | lift_lets
    | with_reducible apply Within.ite
    | split
    | dsimp -zeta only
    | dsimp +zetaDelta only

theorem State.selectorStage_within (s : State) (g3 : Nat) (e : TickEnv) :
    Within (.of [.free, .tick, .lag, .prot, .core, .act, .latch, .irqs, .log, .pm, .events, .hbm, .ecc, .bus] [.lagLinkState, .lagReadLate, .lagPageFail, .lagReleased, .lagMissing, .lagPageBad, .protGroupState, .protSelP, .protSelS, .protSwitch, .protNoGood, .protBothAbsent, .protDiffer, .eccStatus, .hbmCand, .hbmUe, .busStatus, .busGrants, .logState, .logEvbEntries, .logDropped, .logEvbLost, .logEntries, .sysIntSrc]) s (State.selectorStage s g3 e) := by
  unfold State.selectorStage
  have h := (State.releaseAll_within s e).mono (g := Foot.of [.free, .tick, .lag, .prot, .core, .act, .latch, .irqs, .log, .pm, .events, .hbm, .ecc, .bus] [.lagLinkState, .lagReadLate, .lagPageFail, .lagReleased, .lagMissing, .lagPageBad, .protGroupState, .protSelP, .protSelS, .protSwitch, .protNoGood, .protBothAbsent, .protDiffer, .eccStatus, .hbmCand, .hbmUe, .busStatus, .busGrants, .logState, .logEvbEntries, .logDropped, .logEvbLost, .logEntries, .sysIntSrc]) (by decide)
  generalize s.releaseAll e = p at h ⊢
  obtain ⟨rel, x⟩ := p
  dsimp only at h ⊢
  have h1 := Within.iter_snd (fun g (acc : Tbl Release × State) =>
    let h := acc.2.group g
    if h.en then
      let (sec, s) := acc.2.protSelect g (Tbl.get {} rel h.pLink) (Tbl.get {} rel h.sLink)
      (Tbl.insert h.pLink (if sec then Tbl.get {} rel h.sLink else Tbl.get {} rel h.pLink) (Tbl.erase h.pLink acc.1), s)
    else acc) 0 64 (rel, x) h (by
      intro k acc ha
      dsimp only
      split
      · have hp := Within.after (State.protSelect_within acc.2 k (Tbl.get {} rel (acc.2.group k).pLink) (Tbl.get {} rel (acc.2.group k).sLink)) ha (by decide)
        exact hp
      · exact ha)
  generalize iter _ 0 64 (rel, x) = q at h1 ⊢
  obtain ⟨chosen, y⟩ := q
  exact .after (State.freshBanks_within ..) (Within.set_core h1 (by decide)) (by decide)

theorem State.recordRead_within (s : State) (addr : Nat → Nat) (bits n : Nat) :
    Within (Foot.of [.free, .tick, .act, .latch, .irqs, .log, .pm, .events, .ecc, .bus] [.almState, .almStageFail, .eccStatus, .eccLastUe, .eccTrack, .eccCorr, .eccUe, .eccPoison, .eccTrackFull, .busStatus, .busGrants, .logState, .logEvbEntries, .logDropped, .logEvbLost, .logEntries, .sysIntSrc]) s (State.recordRead s addr bits n).2 := by
  unfold State.recordRead
  refine Within.iter_snd (f := Foot.of [.free, .tick, .act, .latch, .irqs, .log, .pm, .events, .ecc, .bus] [.almState, .almStageFail, .eccStatus, .eccLastUe, .eccTrack, .eccCorr, .eccUe, .eccPoison, .eccTrackFull, .busStatus, .busGrants, .logState, .logEvbEntries, .logDropped, .logEvbLost, .logEntries, .sysIntSrc]) _ 0 n (some 0, s) (.refl _ s) fun k acc ha => ?_
  have hp := Within.after (State.sramRead_within acc.2 (addr k) false (field bits (64 * k) 64) true) ha (by decide)
  generalize acc.2.sramRead (addr k) false (field bits (64 * k) 64) true = y at hp ⊢
  obtain ⟨g, y⟩ := y
  cases acc.1 <;> cases g <;> exact hp

theorem State.recordFresh_within (s : State) (addr : Nat → Nat) (n : Nat) :
    Within (.of [.act, .irqs, .log, .pm, .events, .ecc, .bus] [.eccStatus, .eccTrack, .busStatus, .busGrants, .logState, .logEvbEntries, .logDropped, .logEvbLost, .logEntries, .sysIntSrc]) s (State.recordFresh s addr n) := by
  delta State.recordFresh
  repeat' first
    | with_reducible assumption
    | with_reducible apply Within.refl
    | ((with_reducible apply Within.eachN); (case' hg => intro _ _ _))
    | ((with_reducible apply Within.after (State.fullWrite_within ..)); (case hle => decide))
    | with_reducible apply Within.ite
    | split
    | dsimp -zeta only

theorem State.upCfgRead_within (s : State) (i : Nat) :
    Within (.of [.free, .tick, .act, .latch, .irqs, .log, .pm, .events, .ecc, .bus] [.almState, .almStageFail, .eccStatus, .eccLastUe, .eccTrack, .eccCorr, .eccUe, .eccPoison, .eccTrackFull, .busStatus, .busGrants, .logState, .logEvbEntries, .logDropped, .logEvbLost, .logEntries, .sysIntSrc]) s (State.upCfgRead s i).2 := by
  delta State.upCfgRead
  repeat' first
    | with_reducible assumption
    | with_reducible apply Within.refl
    | ((with_reducible apply Within.after (State.sramRead_within ..)); (case hle => decide))
    | ((with_reducible apply Within.after (Within.of_eq (State.sramRead_within ..) ?e)); (case e => assumption); (case hle => decide))
    | with_reducible apply Within.ite
    | split
    | dsimp -zeta only

theorem State.upRecordRead_within (s : State) (i : Nat) :
    Within (.of [.free, .tick, .act, .latch, .irqs, .log, .pm, .events, .ecc, .bus] [.almState, .almStageFail, .eccStatus, .eccLastUe, .eccTrack, .eccCorr, .eccUe, .eccPoison, .eccTrackFull, .busStatus, .busGrants, .logState, .logEvbEntries, .logDropped, .logEvbLost, .logEntries, .sysIntSrc]) s (State.upRecordRead s i).2 := by
  unfold State.upRecordRead
  lift_lets
  intro u
  split
  · exact .refl _ s
  · intro x y
    have hx : Within (Foot.of [.free, .tick, .act, .latch, .irqs, .log, .pm, .events, .ecc, .bus] [.almState, .almStageFail, .eccStatus, .eccLastUe, .eccTrack, .eccCorr, .eccUe, .eccPoison, .eccTrackFull, .busStatus, .busGrants, .logState, .logEvbEntries, .logDropped, .logEvbLost, .logEntries, .sysIntSrc]) s x.2 := (State.recordRead_within ..).mono (by decide)
    have hy : Within (Foot.of [.free, .tick, .act, .latch, .irqs, .log, .pm, .events, .ecc, .bus] [.almState, .almStageFail, .eccStatus, .eccLastUe, .eccTrack, .eccCorr, .eccUe, .eccPoison, .eccTrackFull, .busStatus, .busGrants, .logState, .logEvbEntries, .logDropped, .logEvbLost, .logEntries, .sysIntSrc]) s y.2 := .after (State.upCfgRead_within ..) hx (by decide)
    clear_value y
    split <;> exact hy

theorem State.bridgePut_within (s : State) (g : Nat) (i : Nat) (w : Nat) :
    Within (.of [.core] []) s (State.bridgePut s g i w) := by
  delta State.bridgePut
  repeat' first
    | with_reducible assumption
    | with_reducible apply Within.refl
    | with_reducible apply Within.ite
    | ((with_reducible apply Within.set_core); (case hc => decide))
    | split
    | dsimp -zeta only

theorem State.setUp_within (s : State) (i : Nat) (u : UpState) :
    Within (.of [.core] []) s (State.setUp s i u) := by
  delta State.setUp
  repeat' first
    | with_reducible assumption
    | with_reducible apply Within.refl
    | with_reducible apply Within.ite
    | ((with_reducible apply Within.set_core); (case hc => decide))
    | split
    | dsimp -zeta only

theorem State.upStep_within (s : State) (g : Nat) (t : Nat) (i : Nat) :
    Within (.of [.free, .tick, .core, .act, .latch, .irqs, .log, .pm, .events, .ecc, .bus] [.almState, .almStageFail, .eccStatus, .eccLastUe, .eccTrack, .eccCorr, .eccUe, .eccPoison, .eccTrackFull, .busStatus, .busGrants, .logState, .logEvbEntries, .logDropped, .logEvbLost, .logEntries, .sysIntSrc]) s (State.upStep s g t i) := by
  delta State.upStep
  repeat' first
    | with_reducible assumption
    | with_reducible apply Within.refl
    | ((with_reducible apply Within.after (State.upRecordRead_within ..)); (case hle => decide))
    | ((with_reducible apply Within.after (Within.of_eq (State.upRecordRead_within ..) ?e)); (case e => assumption); (case hle => decide))
    | ((with_reducible apply Within.after (State.bridgePut_within ..)); (case hle => decide))
    | ((with_reducible apply Within.after (State.recordFresh_within ..)); (case hle => decide))
    | ((with_reducible apply Within.after (State.setUp_within ..)); (case hle => decide))
    | (intro x
       have hx : Within (.of [.free, .tick, .core, .act, .latch, .irqs, .log, .pm, .events, .ecc, .bus] [.almState, .almStageFail, .eccStatus, .eccLastUe, .eccTrack, .eccCorr, .eccUe, .eccPoison, .eccTrackFull, .busStatus, .busGrants, .logState, .logEvbEntries, .logDropped, .logEvbLost, .logEntries, .sysIntSrc]) s x := by
         dsimp -zeta only [x]
         repeat' first
           | with_reducible assumption
           | with_reducible apply Within.refl
           | ((with_reducible apply Within.after (State.upRecordRead_within ..)); (case hle => decide))
           | ((with_reducible apply Within.after (Within.of_eq (State.upRecordRead_within ..) ?e)); (case e => assumption); (case hle => decide))
           | ((with_reducible apply Within.after (State.bridgePut_within ..)); (case hle => decide))
           | ((with_reducible apply Within.after (State.recordFresh_within ..)); (case hle => decide))
           | ((with_reducible apply Within.after (State.setUp_within ..)); (case hle => decide))
           | with_reducible apply Within.ite
           | split
           | dsimp -zeta only
           | dsimp +zetaDelta only
       clear_value x)
    | intro x
    | lift_lets
    | with_reducible apply Within.ite
    | split
    | dsimp -zeta only
    | dsimp +zetaDelta only

theorem State.upStage_within (s : State) (g : Nat) (t : Nat) :
    Within (.of [.free, .tick, .core, .act, .latch, .irqs, .log, .pm, .events, .ecc, .bus] [.almState, .almStageFail, .eccStatus, .eccLastUe, .eccTrack, .eccCorr, .eccUe, .eccPoison, .eccTrackFull, .busStatus, .busGrants, .logState, .logEvbEntries, .logDropped, .logEvbLost, .logEntries, .sysIntSrc]) s (State.upStage s g t) := by
  delta State.upStage
  repeat' first
    | with_reducible assumption
    | with_reducible apply Within.refl
    | ((with_reducible apply Within.each); (case' hg => intro _ _ _))
    | ((with_reducible apply Within.after (State.freshBanks_within ..)); (case hle => decide))
    | ((with_reducible apply Within.after (State.upStep_within ..)); (case hle => decide))
    | (intro x
       have hx : Within (.of [.free, .tick, .core, .act, .latch, .irqs, .log, .pm, .events, .ecc, .bus] [.almState, .almStageFail, .eccStatus, .eccLastUe, .eccTrack, .eccCorr, .eccUe, .eccPoison, .eccTrackFull, .busStatus, .busGrants, .logState, .logEvbEntries, .logDropped, .logEvbLost, .logEntries, .sysIntSrc]) s x := by
         dsimp -zeta only [x]
         repeat' first
           | with_reducible assumption
           | with_reducible apply Within.refl
           | ((with_reducible apply Within.each); (case' hg => intro _ _ _))
           | ((with_reducible apply Within.after (State.freshBanks_within ..)); (case hle => decide))
           | ((with_reducible apply Within.after (State.upStep_within ..)); (case hle => decide))
           | with_reducible apply Within.ite
           | ((with_reducible apply Within.set_core); (case hc => decide))
           | split
           | dsimp -zeta only
           | dsimp +zetaDelta only
       clear_value x)
    | intro x
    | lift_lets
    | with_reducible apply Within.ite
    | ((with_reducible apply Within.set_core); (case hc => decide))
    | split
    | dsimp -zeta only
    | dsimp +zetaDelta only

theorem State.fetchRead_within (s : State) (edits : List TableEdit) (a2 : Nat) (i : Nat) (c : Nat) (now : Nat) (path : Bool) :
    Within (.of [.free, .tick, .act, .latch, .irqs, .log, .pm, .events, .ecc, .bus] [.almState, .almStageFail, .eccStatus, .eccLastUe, .eccTrack, .eccCorr, .eccUe, .eccPoison, .eccTrackFull, .busStatus, .busGrants, .logState, .logEvbEntries, .logDropped, .logEvbLost, .logEntries, .sysIntSrc]) s (State.fetchRead s edits a2 i c now path).2 := by
  delta State.fetchRead
  repeat' first
    | with_reducible assumption
    | with_reducible apply Within.refl
    | ((with_reducible apply Within.readWith); (case hp => decide); (case hc => decide); (case hl => decide); (case ht => decide); (case' hg => intro _ _))
    | ((with_reducible apply Within.after (State.ueSeen_within ..)); (case hle => decide))
    | ((with_reducible apply Within.after (State.sramRead_within ..)); (case hle => decide))
    | ((with_reducible apply Within.after (Within.of_eq (State.sramRead_within ..) ?e)); (case e => assumption); (case hle => decide))
    | with_reducible apply Within.ite
    | split
    | dsimp -zeta only

theorem State.issueFetch_within (s : State) (i : Nat) :
    Within (.of [.free, .tick, .act, .latch, .irqs, .log, .pm, .events, .ecc, .bus] [.almState, .almStageFail, .eccStatus, .eccLastUe, .eccTrack, .eccCorr, .eccUe, .eccPoison, .eccTrackFull, .eccSumPoisonAll, .busStatus, .busGrants, .logState, .logEvbEntries, .logDropped, .logEvbLost, .logEntries, .sysIntSrc]) s (State.issueFetch s i).2 := by
  delta State.issueFetch
  repeat' first
    | with_reducible assumption
    | with_reducible apply Within.refl
    | ((with_reducible apply Within.count); (case hr => first | decide | exact Foot.allRegs_hasReg _ _ | exact Foot.all_hasReg _ | (subst_vars; decide) | ((try dsimp +zetaDelta only); split <;> first | decide | (split <;> first | decide | (split <;> decide)))))
    | ((with_reducible apply Within.foldl_snd); (case' hg => intro _ _ _))
    | ((with_reducible apply Within.foldl); (case' hg => intro _ _ _))
    | ((with_reducible apply Within.after (State.fetchRead_within ..)); (case hle => decide))
    | ((with_reducible apply Within.after (Within.of_eq (State.fetchRead_within ..) ?e)); (case e => assumption); (case hle => decide))
    | (intro x
       have hx : Within (.of [.free, .tick, .act, .latch, .irqs, .log, .pm, .events, .ecc, .bus] [.almState, .almStageFail, .eccStatus, .eccLastUe, .eccTrack, .eccCorr, .eccUe, .eccPoison, .eccTrackFull, .eccSumPoisonAll, .busStatus, .busGrants, .logState, .logEvbEntries, .logDropped, .logEvbLost, .logEntries, .sysIntSrc]) s x := by
         dsimp -zeta only [x]
         repeat' first
           | with_reducible assumption
           | with_reducible apply Within.refl
           | ((with_reducible apply Within.count); (case hr => first | decide | exact Foot.allRegs_hasReg _ _ | exact Foot.all_hasReg _ | (subst_vars; decide) | ((try dsimp +zetaDelta only); split <;> first | decide | (split <;> first | decide | (split <;> decide)))))
           | ((with_reducible apply Within.foldl_snd); (case' hg => intro _ _ _))
           | ((with_reducible apply Within.foldl); (case' hg => intro _ _ _))
           | ((with_reducible apply Within.after (State.fetchRead_within ..)); (case hle => decide))
           | ((with_reducible apply Within.after (Within.of_eq (State.fetchRead_within ..) ?e)); (case e => assumption); (case hle => decide))
           | with_reducible apply Within.ite
           | split
           | dsimp -zeta only
           | dsimp +zetaDelta only
       clear_value x)
    | intro x
    | lift_lets
    | with_reducible apply Within.ite
    | split
    | dsimp -zeta only
    | dsimp +zetaDelta only

theorem State.issueReads_within (s : State) (g : Nat) (t : Nat) (is : List Issue) :
    Within (.of [.free, .tick, .act, .latch, .irqs, .log, .pm, .events, .ecc, .bus] [.coreClashReads, .almState, .almStageFail, .eccStatus, .eccLastUe, .eccTrack, .eccCorr, .eccUe, .eccPoison, .eccTrackFull, .busStatus, .busGrants, .logState, .logEvbEntries, .logDropped, .logEvbLost, .logEntries, .sysIntSrc]) s (State.issueReads s g t is).2.2 := by
  unfold State.issueReads
  dsimp only
  have h1 := Within.foldl_of (f := Foot.of [.free, .tick, .act, .latch, .irqs, .log, .pm, .events, .ecc, .bus] [.coreClashReads, .almState, .almStageFail, .eccStatus, .eccLastUe, .eccTrack, .eccCorr, .eccUe, .eccPoison, .eccTrackFull, .busStatus, .busGrants, .logState, .logEvbEntries, .logDropped, .logEvbLost, .logEntries, .sysIntSrc]) (s := s) (fun acc : List (Issue × SrcRead) × Tbl Got × Bool × State => acc.2.2.2) is
    (fun (acc : List (Issue × SrcRead) × Tbl Got × Bool × State) (x : Issue) =>
      let (out, got, clash, s) := acc
      if x.ue then (out ++ [(x, .absent)], got, clash, s) else
      match srcBank (termSrc x.term) with
      | none => (out ++ [(x, srcClass (termSrc x.term) .poison t)], got, clash, s)
      | some (b, w) =>
        if bankClash is b w then (out ++ [(x, .faulted)], got, true, s.count .coreClashReads 0)
        else match got.lookup b with
          | some r => (out ++ [(x, srcClass (termSrc x.term) r t)], got, clash, s)
          | none =>
            let (r, s) := s.wordRead g b w true
            (out ++ [(x, srcClass (termSrc x.term) r t)], (b, r) :: got, clash, s)) ([], [], false, s) (.refl _ s) (by
      rintro x ⟨out, got, clash, y⟩ hy
      dsimp only at hy ⊢
      split
      · exact hy
      · split
        · exact hy
        · rename_i b w _
          split
          · exact hy.count _ _ (by decide)
          · split
            · exact hy
            · have hp := Within.after (State.wordRead_within y g b w true) hy (by decide)
              exact hp)
  exact h1

theorem State.sumPost_within (s : State) (p : Nat) (b : SumBuf) (x : LaneSum) :
    Within (.of [.free, .tick, .act, .latch, .irqs, .log, .pm, .events, .ecc, .bus] [.almState, .almStageFail, .eccStatus, .eccLastUe, .eccTrack, .eccCorr, .eccUe, .eccPoison, .eccTrackFull, .busStatus, .busGrants, .logState, .logEvbEntries, .logDropped, .logEvbLost, .logEntries, .sysIntSrc]) s (State.sumPost s p b x).2 := by
  delta State.sumPost
  repeat' first
    | with_reducible assumption
    | with_reducible apply Within.refl
    | ((with_reducible apply Within.after (State.sramRead_within ..)); (case hle => decide))
    | ((with_reducible apply Within.after (Within.of_eq (State.sramRead_within ..) ?e)); (case e => assumption); (case hle => decide))
    | ((with_reducible apply Within.after (State.freshWord_within ..)); (case hle => decide))
    | (intro x
       have hx : Within (.of [.free, .tick, .act, .latch, .irqs, .log, .pm, .events, .ecc, .bus] [.almState, .almStageFail, .eccStatus, .eccLastUe, .eccTrack, .eccCorr, .eccUe, .eccPoison, .eccTrackFull, .busStatus, .busGrants, .logState, .logEvbEntries, .logDropped, .logEvbLost, .logEntries, .sysIntSrc]) s x := by
         dsimp -zeta only [x]
         repeat' first
           | with_reducible assumption
           | with_reducible apply Within.refl
           | ((with_reducible apply Within.after (State.sramRead_within ..)); (case hle => decide))
           | ((with_reducible apply Within.after (Within.of_eq (State.sramRead_within ..) ?e)); (case e => assumption); (case hle => decide))
           | ((with_reducible apply Within.after (State.freshWord_within ..)); (case hle => decide))
           | with_reducible apply Within.ite
           | split
           | dsimp -zeta only
           | dsimp +zetaDelta only
       clear_value x)
    | intro x
    | lift_lets
    | with_reducible apply Within.ite
    | split
    | dsimp -zeta only
    | dsimp +zetaDelta only

theorem State.sumPosts_within (s : State) (p : Nat) (r : SumRun) (ps : List LaneSum) :
    Within (.of [.free, .tick, .act, .latch, .irqs, .log, .pm, .events, .ecc, .bus] [.almState, .almStageFail, .eccStatus, .eccLastUe, .eccTrack, .eccCorr, .eccUe, .eccPoison, .eccTrackFull, .busStatus, .busGrants, .logState, .logEvbEntries, .logDropped, .logEvbLost, .logEntries, .sysIntSrc]) s (State.sumPosts s p r ps).2.2 := by
  delta State.sumPosts
  repeat' first
    | with_reducible assumption
    | with_reducible apply Within.refl
    | ((with_reducible apply Within.foldl_snd); (case' hg => intro _ _ _))
    | ((with_reducible apply Within.foldl); (case' hg => intro _ _ _))
    | ((with_reducible apply Within.after (State.sumPost_within ..)); (case hle => decide))
    | ((with_reducible apply Within.after (Within.of_eq (State.sumPost_within ..) ?e)); (case e => assumption); (case hle => decide))
    | (intro x
       have hx : Within (.of [.free, .tick, .act, .latch, .irqs, .log, .pm, .events, .ecc, .bus] [.almState, .almStageFail, .eccStatus, .eccLastUe, .eccTrack, .eccCorr, .eccUe, .eccPoison, .eccTrackFull, .busStatus, .busGrants, .logState, .logEvbEntries, .logDropped, .logEvbLost, .logEntries, .sysIntSrc]) s x := by
         dsimp -zeta only [x]
         repeat' first
           | with_reducible assumption
           | with_reducible apply Within.refl
           | ((with_reducible apply Within.foldl_snd); (case' hg => intro _ _ _))
           | ((with_reducible apply Within.foldl); (case' hg => intro _ _ _))
           | ((with_reducible apply Within.after (State.sumPost_within ..)); (case hle => decide))
           | ((with_reducible apply Within.after (Within.of_eq (State.sumPost_within ..) ?e)); (case e => assumption); (case hle => decide))
           | with_reducible apply Within.ite
           | split
           | dsimp -zeta only
           | dsimp +zetaDelta only
       clear_value x)
    | intro x
    | lift_lets
    | with_reducible apply Within.ite
    | split
    | dsimp -zeta only
    | dsimp +zetaDelta only

theorem State.sumIssue_within (s : State) (p : Nat) (g : Nat) (t : Nat) (i : Nat) (r : SumRun) :
    Within (.of [.free, .tick, .act, .latch, .irqs, .log, .pm, .events, .ecc, .bus] [.coreClashReads, .corePostClash, .almState, .almStageFail, .eccStatus, .eccLastUe, .eccTrack, .eccCorr, .eccUe, .eccPoison, .eccTrackFull, .eccSumPoisonAll, .busStatus, .busGrants, .logState, .logEvbEntries, .logDropped, .logEvbLost, .logEntries, .sysIntSrc]) s (State.sumIssue s p g t i r).2 := by
  delta State.sumIssue
  repeat' first
    | with_reducible assumption
    | with_reducible apply Within.refl
    | ((with_reducible apply Within.countBy); (case hr => first | decide | exact Foot.allRegs_hasReg _ _ | exact Foot.all_hasReg _ | (subst_vars; decide) | ((try dsimp +zetaDelta only); split <;> first | decide | (split <;> first | decide | (split <;> decide)))))
    | ((with_reducible apply Within.foldl_snd); (case' hg => intro _ _ _))
    | ((with_reducible apply Within.foldl); (case' hg => intro _ _ _))
    | ((with_reducible apply Within.after (State.issueFetch_within ..)); (case hle => decide))
    | ((with_reducible apply Within.after (Within.of_eq (State.issueFetch_within ..) ?e)); (case e => assumption); (case hle => decide))
    | ((with_reducible apply Within.after (State.issueReads_within ..)); (case hle => decide))
    | ((with_reducible apply Within.after (Within.of_eq2 (State.issueReads_within ..) ?e)); (case e => assumption); (case hle => decide))
    | ((with_reducible apply Within.after (State.sumPosts_within ..)); (case hle => decide))
    | ((with_reducible apply Within.after (Within.of_eq2 (State.sumPosts_within ..) ?e)); (case e => assumption); (case hle => decide))
    | (intro x
       have hx : Within (.of [.free, .tick, .act, .latch, .irqs, .log, .pm, .events, .ecc, .bus] [.coreClashReads, .corePostClash, .almState, .almStageFail, .eccStatus, .eccLastUe, .eccTrack, .eccCorr, .eccUe, .eccPoison, .eccTrackFull, .eccSumPoisonAll, .busStatus, .busGrants, .logState, .logEvbEntries, .logDropped, .logEvbLost, .logEntries, .sysIntSrc]) s x := by
         dsimp -zeta only [x]
         repeat' first
           | with_reducible assumption
           | with_reducible apply Within.refl
           | ((with_reducible apply Within.countBy); (case hr => first | decide | exact Foot.allRegs_hasReg _ _ | exact Foot.all_hasReg _ | (subst_vars; decide) | ((try dsimp +zetaDelta only); split <;> first | decide | (split <;> first | decide | (split <;> decide)))))
           | ((with_reducible apply Within.foldl_snd); (case' hg => intro _ _ _))
           | ((with_reducible apply Within.foldl); (case' hg => intro _ _ _))
           | ((with_reducible apply Within.after (State.issueFetch_within ..)); (case hle => decide))
           | ((with_reducible apply Within.after (Within.of_eq (State.issueFetch_within ..) ?e)); (case e => assumption); (case hle => decide))
           | ((with_reducible apply Within.after (State.issueReads_within ..)); (case hle => decide))
           | ((with_reducible apply Within.after (Within.of_eq2 (State.issueReads_within ..) ?e)); (case e => assumption); (case hle => decide))
           | ((with_reducible apply Within.after (State.sumPosts_within ..)); (case hle => decide))
           | ((with_reducible apply Within.after (Within.of_eq2 (State.sumPosts_within ..) ?e)); (case e => assumption); (case hle => decide))
           | with_reducible apply Within.ite
           | split
           | dsimp -zeta only
           | dsimp +zetaDelta only
       clear_value x)
    | intro x
    | lift_lets
    | with_reducible apply Within.ite
    | split
    | dsimp -zeta only
    | dsimp +zetaDelta only

theorem State.sumDone_within (s : State) (p : Nat) (r : SumRun) :
    Within (.of [.tick, .core, .act, .latch, .irqs, .log, .pm, .events, .bus] [.coreStatus, .busStatus, .busGrants, .logState, .logEvbEntries, .logDropped, .logEvbLost, .logEntries, .sysIntSrc]) s (State.sumDone s p r) := by
  delta State.sumDone
  repeat' first
    | with_reducible assumption
    | with_reducible apply Within.refl
    | ((with_reducible apply Within.setFlag); (case hr => first | decide | exact Foot.allRegs_hasReg _ _ | exact Foot.all_hasReg _ | (subst_vars; decide) | ((try dsimp +zetaDelta only); split <;> first | decide | (split <;> first | decide | (split <;> decide)))))
    | ((with_reducible apply Within.after (State.raiseEach_within ..)); (case hle => decide))
    | (intro x
       have hx : Within (.of [.tick, .core, .act, .latch, .irqs, .log, .pm, .events, .bus] [.coreStatus, .busStatus, .busGrants, .logState, .logEvbEntries, .logDropped, .logEvbLost, .logEntries, .sysIntSrc]) s x := by
         dsimp -zeta only [x]
         repeat' first
           | with_reducible assumption
           | with_reducible apply Within.refl
           | ((with_reducible apply Within.setFlag); (case hr => first | decide | exact Foot.allRegs_hasReg _ _ | exact Foot.all_hasReg _ | (subst_vars; decide) | ((try dsimp +zetaDelta only); split <;> first | decide | (split <;> first | decide | (split <;> decide)))))
           | ((with_reducible apply Within.after (State.raiseEach_within ..)); (case hle => decide))
           | with_reducible apply Within.ite
           | ((with_reducible apply Within.set_tick_core); (case h_tick => decide); (case h_core => decide))
           | ((with_reducible apply Within.set_tick); (case hc => decide))
           | ((with_reducible apply Within.set_core); (case hc => decide))
           | split
           | dsimp -zeta only
           | dsimp +zetaDelta only
       clear_value x)
    | intro x
    | lift_lets
    | with_reducible apply Within.ite
    | ((with_reducible apply Within.set_tick_core); (case h_tick => decide); (case h_core => decide))
    | ((with_reducible apply Within.set_tick); (case hc => decide))
    | ((with_reducible apply Within.set_core); (case hc => decide))
    | split
    | dsimp -zeta only
    | dsimp +zetaDelta only

theorem State.sumRun_within (s : State) (p : Nat) (g : Nat) (t : Nat) :
    Within (.of [.free, .tick, .act, .latch, .irqs, .log, .pm, .events, .ecc, .bus] [.coreClashReads, .corePostClash, .almState, .almStageFail, .eccStatus, .eccLastUe, .eccTrack, .eccCorr, .eccUe, .eccPoison, .eccTrackFull, .eccSumPoisonAll, .busStatus, .busGrants, .logState, .logEvbEntries, .logDropped, .logEvbLost, .logEntries, .sysIntSrc]) s (State.sumRun s p g t).2 := by
  delta State.sumRun
  repeat' first
    | with_reducible assumption
    | with_reducible apply Within.refl
    | ((with_reducible apply Within.iter_snd); (case' hg => intro _ _ _))
    | ((with_reducible apply Within.iter); (case' hg => intro _ _ _))
    | ((with_reducible apply Within.after (State.sumIssue_within ..)); (case hle => decide))
    | ((with_reducible apply Within.after (Within.of_eq (State.sumIssue_within ..) ?e)); (case e => assumption); (case hle => decide))
    | with_reducible apply Within.ite
    | split
    | dsimp -zeta only

theorem State.sumStage_within (s : State) (p : Nat) (g : Nat) (t : Nat) :
    Within (.of [.free, .tick, .core, .act, .latch, .irqs, .log, .pm, .events, .ecc, .bus] [.coreStatus, .coreClashReads, .corePostClash, .almState, .almStageFail, .eccStatus, .eccLastUe, .eccTrack, .eccCorr, .eccUe, .eccPoison, .eccTrackFull, .eccSumPoisonAll, .busStatus, .busGrants, .logState, .logEvbEntries, .logDropped, .logEvbLost, .logEntries, .sysIntSrc]) s (State.sumStage s p g t) := by
  unfold State.sumStage
  exact .after (State.sumDone_within ..) ((State.sumRun_within ..).mono (by decide)) (by decide)

theorem State.fetchEntries_within (s : State) (k : Nat) (gen : Nat) (slots : List Nat) :
    Within (.of [.free, .tick, .act, .latch, .irqs, .log, .pm, .events, .ecc, .bus] [.almState, .almStageFail, .eccStatus, .eccLastUe, .eccTrack, .eccCorr, .eccUe, .eccPoison, .eccTrackFull, .busStatus, .busGrants, .logState, .logEvbEntries, .logDropped, .logEvbLost, .logEntries, .sysIntSrc]) s (State.fetchEntries s k gen slots).2 := by
  delta State.fetchEntries
  repeat' first
    | with_reducible assumption
    | with_reducible apply Within.refl
    | ((with_reducible apply Within.foldl_snd); (case' hg => intro _ _ _))
    | ((with_reducible apply Within.foldl); (case' hg => intro _ _ _))
    | ((with_reducible apply Within.after (State.fetchRead_within ..)); (case hle => decide))
    | ((with_reducible apply Within.after (Within.of_eq (State.fetchRead_within ..) ?e)); (case e => assumption); (case hle => decide))
    | (intro x
       have hx : Within (.of [.free, .tick, .act, .latch, .irqs, .log, .pm, .events, .ecc, .bus] [.almState, .almStageFail, .eccStatus, .eccLastUe, .eccTrack, .eccCorr, .eccUe, .eccPoison, .eccTrackFull, .busStatus, .busGrants, .logState, .logEvbEntries, .logDropped, .logEvbLost, .logEntries, .sysIntSrc]) s x := by
         dsimp -zeta only [x]
         repeat' first
           | with_reducible assumption
           | with_reducible apply Within.refl
           | ((with_reducible apply Within.foldl_snd); (case' hg => intro _ _ _))
           | ((with_reducible apply Within.foldl); (case' hg => intro _ _ _))
           | ((with_reducible apply Within.after (State.fetchRead_within ..)); (case hle => decide))
           | ((with_reducible apply Within.after (Within.of_eq (State.fetchRead_within ..) ?e)); (case e => assumption); (case hle => decide))
           | with_reducible apply Within.ite
           | split
           | dsimp -zeta only
           | dsimp +zetaDelta only
       clear_value x)
    | intro x
    | lift_lets
    | with_reducible apply Within.ite
    | split
    | dsimp -zeta only
    | dsimp +zetaDelta only

theorem State.doRead_within (s : State) (g : Nat) (p : Nat) (r : BankRead) :
    Within (.of [.free, .tick, .act, .latch, .irqs, .log, .pm, .events, .ecc, .bus] [.almState, .almStageFail, .eccStatus, .eccLastUe, .eccTrack, .eccCorr, .eccUe, .eccPoison, .eccTrackFull, .busStatus, .busGrants, .logState, .logEvbEntries, .logDropped, .logEvbLost, .logEntries, .sysIntSrc]) s (State.doRead s g p r).2 := by
  delta State.doRead
  repeat' first
    | with_reducible assumption
    | with_reducible apply Within.refl
    | ((with_reducible apply Within.after (State.wordRead_within ..)); (case hle => decide))
    | ((with_reducible apply Within.after (Within.of_eq (State.wordRead_within ..) ?e)); (case e => assumption); (case hle => decide))
    | ((with_reducible apply Within.after (State.sramRead_within ..)); (case hle => decide))
    | ((with_reducible apply Within.after (Within.of_eq (State.sramRead_within ..) ?e)); (case e => assumption); (case hle => decide))
    | (intro x
       have hx : Within (.of [.free, .tick, .act, .latch, .irqs, .log, .pm, .events, .ecc, .bus] [.almState, .almStageFail, .eccStatus, .eccLastUe, .eccTrack, .eccCorr, .eccUe, .eccPoison, .eccTrackFull, .busStatus, .busGrants, .logState, .logEvbEntries, .logDropped, .logEvbLost, .logEntries, .sysIntSrc]) s x := by
         dsimp -zeta only [x]
         repeat' first
           | with_reducible assumption
           | with_reducible apply Within.refl
           | ((with_reducible apply Within.after (State.wordRead_within ..)); (case hle => decide))
           | ((with_reducible apply Within.after (Within.of_eq (State.wordRead_within ..) ?e)); (case e => assumption); (case hle => decide))
           | ((with_reducible apply Within.after (State.sramRead_within ..)); (case hle => decide))
           | ((with_reducible apply Within.after (Within.of_eq (State.sramRead_within ..) ?e)); (case e => assumption); (case hle => decide))
           | with_reducible apply Within.ite
           | split
           | dsimp -zeta only
           | dsimp +zetaDelta only
       clear_value x)
    | intro x
    | lift_lets
    | with_reducible apply Within.ite
    | split
    | dsimp -zeta only
    | dsimp +zetaDelta only

theorem State.doReads_within (s : State) (g : Nat) (p : Nat) (rs : List BankRead) :
    Within (.of [.free, .tick, .act, .latch, .irqs, .log, .pm, .events, .ecc, .bus] [.almState, .almStageFail, .eccStatus, .eccLastUe, .eccTrack, .eccCorr, .eccUe, .eccPoison, .eccTrackFull, .busStatus, .busGrants, .logState, .logEvbEntries, .logDropped, .logEvbLost, .logEntries, .sysIntSrc]) s (State.doReads s g p rs).2 := by
  delta State.doReads
  repeat' first
    | with_reducible assumption
    | with_reducible apply Within.refl
    | ((with_reducible apply Within.foldl_snd); (case' hg => intro _ _ _))
    | ((with_reducible apply Within.foldl); (case' hg => intro _ _ _))
    | ((with_reducible apply Within.after (State.doRead_within ..)); (case hle => decide))
    | ((with_reducible apply Within.after (Within.of_eq (State.doRead_within ..) ?e)); (case e => assumption); (case hle => decide))
    | (intro x
       have hx : Within (.of [.free, .tick, .act, .latch, .irqs, .log, .pm, .events, .ecc, .bus] [.almState, .almStageFail, .eccStatus, .eccLastUe, .eccTrack, .eccCorr, .eccUe, .eccPoison, .eccTrackFull, .busStatus, .busGrants, .logState, .logEvbEntries, .logDropped, .logEvbLost, .logEntries, .sysIntSrc]) s x := by
         dsimp -zeta only [x]
         repeat' first
           | with_reducible assumption
           | with_reducible apply Within.refl
           | ((with_reducible apply Within.foldl_snd); (case' hg => intro _ _ _))
           | ((with_reducible apply Within.foldl); (case' hg => intro _ _ _))
           | ((with_reducible apply Within.after (State.doRead_within ..)); (case hle => decide))
           | ((with_reducible apply Within.after (Within.of_eq (State.doRead_within ..) ?e)); (case e => assumption); (case hle => decide))
           | with_reducible apply Within.ite
           | split
           | dsimp -zeta only
           | dsimp +zetaDelta only
       clear_value x)
    | intro x
    | lift_lets
    | with_reducible apply Within.ite
    | split
    | dsimp -zeta only
    | dsimp +zetaDelta only

theorem State.downRead_within (s : State) (i : Nat) :
    Within (.of [.free, .tick, .core, .act, .latch, .irqs, .log, .pm, .events, .ecc, .bus] [.almState, .almStageFail, .eccStatus, .eccLastUe, .eccTrack, .eccCorr, .eccUe, .eccPoison, .eccTrackFull, .busStatus, .busGrants, .logState, .logEvbEntries, .logDropped, .logEvbLost, .logEntries, .sysIntSrc]) s (State.downRead s i).2 := by
  delta State.downRead
  repeat' first
    | with_reducible assumption
    | with_reducible apply Within.refl
    | ((with_reducible apply Within.after (State.recordRead_within ..)); (case hle => decide))
    | ((with_reducible apply Within.after (Within.of_eq (State.recordRead_within ..) ?e)); (case e => assumption); (case hle => decide))
    | (intro x
       have hx : Within (.of [.free, .tick, .core, .act, .latch, .irqs, .log, .pm, .events, .ecc, .bus] [.almState, .almStageFail, .eccStatus, .eccLastUe, .eccTrack, .eccCorr, .eccUe, .eccPoison, .eccTrackFull, .busStatus, .busGrants, .logState, .logEvbEntries, .logDropped, .logEvbLost, .logEntries, .sysIntSrc]) s x := by
         dsimp -zeta only [x]
         repeat' first
           | with_reducible assumption
           | with_reducible apply Within.refl
           | ((with_reducible apply Within.after (State.recordRead_within ..)); (case hle => decide))
           | ((with_reducible apply Within.after (Within.of_eq (State.recordRead_within ..) ?e)); (case e => assumption); (case hle => decide))
           | with_reducible apply Within.ite
           | split
           | dsimp -zeta only
           | dsimp +zetaDelta only
           | ((with_reducible apply Within.set_core); (case hc => decide))
       clear_value x)
    | intro x
    | lift_lets
    | with_reducible apply Within.ite
    | split
    | dsimp -zeta only
    | dsimp +zetaDelta only
    | ((with_reducible apply Within.set_core); (case hc => decide))

theorem State.ringPrev_within (s : State) (l : Nat) (p : Nat) :
    Within (.of [.free, .tick, .act, .latch, .irqs, .log, .pm, .events, .ecc, .bus] [.almState, .almStageFail, .eccStatus, .eccLastUe, .eccTrack, .eccCorr, .eccUe, .eccPoison, .eccTrackFull, .busStatus, .busGrants, .logState, .logEvbEntries, .logDropped, .logEvbLost, .logEntries, .sysIntSrc]) s (State.ringPrev s l p).2 := by
  delta State.ringPrev
  repeat' first
    | with_reducible assumption
    | with_reducible apply Within.refl
    | ((with_reducible apply Within.after (State.sramRead_within ..)); (case hle => decide))
    | ((with_reducible apply Within.after (Within.of_eq (State.sramRead_within ..) ?e)); (case e => assumption); (case hle => decide))
    | with_reducible apply Within.ite
    | split
    | dsimp -zeta only

theorem State.downRead4_within (s : State) (i : Nat) :
    Within (.of [.free, .tick, .core, .act, .latch, .irqs, .log, .pm, .events, .ecc, .bus] [.almState, .almStageFail, .eccStatus, .eccLastUe, .eccTrack, .eccCorr, .eccUe, .eccPoison, .eccTrackFull, .busStatus, .busGrants, .logState, .logEvbEntries, .logDropped, .logEvbLost, .logEntries, .sysIntSrc]) s (State.downRead4 s i).2 := by
  delta State.downRead4
  repeat' first
    | with_reducible assumption
    | with_reducible apply Within.refl
    | ((with_reducible apply Within.iter_snd); (case' hg => intro _ _ _))
    | ((with_reducible apply Within.iter); (case' hg => intro _ _ _))
    | ((with_reducible apply Within.after (State.downRead_within ..)); (case hle => decide))
    | ((with_reducible apply Within.after (Within.of_eq (State.downRead_within ..) ?e)); (case e => assumption); (case hle => decide))
    | (intro x
       have hx : Within (.of [.free, .tick, .core, .act, .latch, .irqs, .log, .pm, .events, .ecc, .bus] [.almState, .almStageFail, .eccStatus, .eccLastUe, .eccTrack, .eccCorr, .eccUe, .eccPoison, .eccTrackFull, .busStatus, .busGrants, .logState, .logEvbEntries, .logDropped, .logEvbLost, .logEntries, .sysIntSrc]) s x := by
         dsimp -zeta only [x]
         repeat' first
           | with_reducible assumption
           | with_reducible apply Within.refl
           | ((with_reducible apply Within.iter_snd); (case' hg => intro _ _ _))
           | ((with_reducible apply Within.iter); (case' hg => intro _ _ _))
           | ((with_reducible apply Within.after (State.downRead_within ..)); (case hle => decide))
           | ((with_reducible apply Within.after (Within.of_eq (State.downRead_within ..) ?e)); (case e => assumption); (case hle => decide))
           | with_reducible apply Within.ite
           | split
           | dsimp -zeta only
           | dsimp +zetaDelta only
       clear_value x)
    | intro x
    | lift_lets
    | with_reducible apply Within.ite
    | split
    | dsimp -zeta only
    | dsimp +zetaDelta only

theorem State.downReads_within (s : State) (r : EmitRun) (a2 : Fetched) (i : Nat) :
    Within (.of [.free, .tick, .core, .act, .latch, .irqs, .log, .pm, .events, .ecc, .bus] [.almState, .almStageFail, .eccStatus, .eccLastUe, .eccTrack, .eccCorr, .eccUe, .eccPoison, .eccTrackFull, .busStatus, .busGrants, .logState, .logEvbEntries, .logDropped, .logEvbLost, .logEntries, .sysIntSrc]) s (State.downReads s r a2 i).2 := by
  delta State.downReads
  repeat' first
    | with_reducible assumption
    | with_reducible apply Within.refl
    | ((with_reducible apply Within.after (State.downRead4_within ..)); (case hle => decide))
    | ((with_reducible apply Within.after (Within.of_eq (State.downRead4_within ..) ?e)); (case e => assumption); (case hle => decide))
    | ((with_reducible apply Within.after (State.downRead_within ..)); (case hle => decide))
    | ((with_reducible apply Within.after (Within.of_eq (State.downRead_within ..) ?e)); (case e => assumption); (case hle => decide))
    | (intro x
       have hx : Within (.of [.free, .tick, .core, .act, .latch, .irqs, .log, .pm, .events, .ecc, .bus] [.almState, .almStageFail, .eccStatus, .eccLastUe, .eccTrack, .eccCorr, .eccUe, .eccPoison, .eccTrackFull, .busStatus, .busGrants, .logState, .logEvbEntries, .logDropped, .logEvbLost, .logEntries, .sysIntSrc]) s x := by
         dsimp -zeta only [x]
         repeat' first
           | with_reducible assumption
           | with_reducible apply Within.refl
           | ((with_reducible apply Within.after (State.downRead4_within ..)); (case hle => decide))
           | ((with_reducible apply Within.after (Within.of_eq (State.downRead4_within ..) ?e)); (case e => assumption); (case hle => decide))
           | ((with_reducible apply Within.after (State.downRead_within ..)); (case hle => decide))
           | ((with_reducible apply Within.after (Within.of_eq (State.downRead_within ..) ?e)); (case e => assumption); (case hle => decide))
           | with_reducible apply Within.ite
           | split
           | dsimp -zeta only
           | dsimp +zetaDelta only
       clear_value x)
    | intro x
    | lift_lets
    | with_reducible apply Within.ite
    | split
    | dsimp -zeta only
    | dsimp +zetaDelta only

theorem State.legacyEntry_within (s : State) (l : Nat) (n : Nat) (r : EmitRun) (a4 : Fetched) (o : EntryOut) (mine : Option Nat) :
    Within (.of [.free, .tick, .core, .act, .latch, .irqs, .log, .pm, .events, .ecc, .bus] [.almState, .almStageFail, .eccStatus, .eccLastUe, .eccTrack, .eccCorr, .eccUe, .eccPoison, .eccTrackFull, .busStatus, .busGrants, .logState, .logEvbEntries, .logDropped, .logEvbLost, .logEntries, .sysIntSrc]) s (State.legacyEntry s l n r a4 o mine).2.2 := by
  delta State.legacyEntry
  repeat' first
    | with_reducible assumption
    | with_reducible apply Within.refl
    | ((with_reducible apply Within.after (State.downReads_within ..)); (case hle => decide))
    | ((with_reducible apply Within.after (Within.of_eq (State.downReads_within ..) ?e)); (case e => assumption); (case hle => decide))
    | ((with_reducible apply Within.after (State.recordFresh_within ..)); (case hle => decide))
    | (intro x
       have hx : Within (.of [.free, .tick, .core, .act, .latch, .irqs, .log, .pm, .events, .ecc, .bus] [.almState, .almStageFail, .eccStatus, .eccLastUe, .eccTrack, .eccCorr, .eccUe, .eccPoison, .eccTrackFull, .busStatus, .busGrants, .logState, .logEvbEntries, .logDropped, .logEvbLost, .logEntries, .sysIntSrc]) s x := by
         dsimp -zeta only [x]
         repeat' first
           | with_reducible assumption
           | with_reducible apply Within.refl
           | ((with_reducible apply Within.after (State.downReads_within ..)); (case hle => decide))
           | ((with_reducible apply Within.after (Within.of_eq (State.downReads_within ..) ?e)); (case e => assumption); (case hle => decide))
           | ((with_reducible apply Within.after (State.recordFresh_within ..)); (case hle => decide))
           | with_reducible apply Within.ite
           | ((with_reducible apply Within.set_core); (case hc => decide))
           | split
           | dsimp -zeta only
           | dsimp +zetaDelta only
       clear_value x)
    | intro x
    | lift_lets
    | with_reducible apply Within.ite
    | ((with_reducible apply Within.set_core); (case hc => decide))
    | split
    | dsimp -zeta only
    | dsimp +zetaDelta only

theorem State.entrySlot_within (s : State) (l : Nat) (n : Nat) (r : EmitRun) (a4 : Fetched) (o : EntryOut) (other : EntryOut) (prev : Option Nat) :
    Within (.of [.free, .tick, .core, .act, .latch, .irqs, .log, .pm, .events, .ecc, .bus] [.almState, .almStageFail, .eccStatus, .eccLastUe, .eccTrack, .eccCorr, .eccUe, .eccPoison, .eccTrackFull, .busStatus, .busGrants, .logState, .logEvbEntries, .logDropped, .logEvbLost, .logEntries, .sysIntSrc]) s (State.entrySlot s l n r a4 o other prev).2.2 := by
  delta State.entrySlot
  repeat' first
    | with_reducible assumption
    | with_reducible apply Within.refl
    | ((with_reducible apply Within.after (State.legacyEntry_within ..)); (case hle => decide))
    | ((with_reducible apply Within.after (Within.of_eq2 (State.legacyEntry_within ..) ?e)); (case e => assumption); (case hle => decide))
    | (intro x
       have hx : Within (.of [.free, .tick, .core, .act, .latch, .irqs, .log, .pm, .events, .ecc, .bus] [.almState, .almStageFail, .eccStatus, .eccLastUe, .eccTrack, .eccCorr, .eccUe, .eccPoison, .eccTrackFull, .busStatus, .busGrants, .logState, .logEvbEntries, .logDropped, .logEvbLost, .logEntries, .sysIntSrc]) s x := by
         dsimp -zeta only [x]
         repeat' first
           | with_reducible assumption
           | with_reducible apply Within.refl
           | ((with_reducible apply Within.after (State.legacyEntry_within ..)); (case hle => decide))
           | ((with_reducible apply Within.after (Within.of_eq2 (State.legacyEntry_within ..) ?e)); (case e => assumption); (case hle => decide))
           | with_reducible apply Within.ite
           | split
           | dsimp -zeta only
           | dsimp +zetaDelta only
       clear_value x)
    | intro x
    | lift_lets
    | with_reducible apply Within.ite
    | split
    | dsimp -zeta only
    | dsimp +zetaDelta only

theorem State.prevWord_within (s : State) (need : Bool) (l : Nat) (p : Nat) :
    Within (.of [.free, .tick, .act, .latch, .irqs, .log, .pm, .events, .ecc, .bus] [.almState, .almStageFail, .eccStatus, .eccLastUe, .eccTrack, .eccCorr, .eccUe, .eccPoison, .eccTrackFull, .busStatus, .busGrants, .logState, .logEvbEntries, .logDropped, .logEvbLost, .logEntries, .sysIntSrc]) s (State.prevWord s need l p).2 := by
  delta State.prevWord
  repeat' first
    | with_reducible assumption
    | with_reducible apply Within.refl
    | ((with_reducible apply Within.after (State.ringPrev_within ..)); (case hle => decide))
    | ((with_reducible apply Within.after (Within.of_eq (State.ringPrev_within ..) ?e)); (case e => assumption); (case hle => decide))
    | with_reducible apply Within.ite
    | split
    | dsimp -zeta only

theorem State.emitPair_within (s : State) (l : Nat) (gen : Nat) (n : Nat) (t : Nat) (rs : List (BankRead × Got)) (r : EmitRun) (a7 : Fetched) (b : Fetched) :
    Within (.of [.free, .tick, .core, .act, .latch, .irqs, .log, .pm, .events, .ecc, .bus] [.almState, .almStageFail, .eccStatus, .eccLastUe, .eccTrack, .eccCorr, .eccUe, .eccPoison, .eccTrackFull, .busStatus, .busGrants, .logState, .logEvbEntries, .logDropped, .logEvbLost, .logEntries, .sysIntSrc]) s (State.emitPair s l gen n t rs r a7 b).2 := by
  unfold State.emitPair
  exact .after (State.entrySlot_within ..) (.after (State.entrySlot_within ..) ((State.prevWord_within ..).mono (by decide)) (by decide)) (by decide)

theorem State.emitPairs_within (s : State) (l gen n t : Nat) (rs : List (BankRead × Got)) (fs : List Fetched) (r : EmitRun) :
    Within (Foot.of [.free, .tick, .core, .act, .latch, .irqs, .log, .pm, .events, .ecc, .bus] [.almState, .almStageFail, .eccStatus, .eccLastUe, .eccTrack, .eccCorr, .eccUe, .eccPoison, .eccTrackFull, .busStatus, .busGrants, .logState, .logEvbEntries, .logDropped, .logEvbLost, .logEntries, .sysIntSrc]) s (State.emitPairs s l gen n t rs fs r).2 := by
  fun_induction State.emitPairs s l gen n t rs fs r with
  | case1 s a b rest r y ih => exact .after ih ((State.emitPair_within s l gen n t rs r a b).mono (by decide)) (by decide)
  | case2 => exact .refl _ _

theorem State.slackTake_within (s : State) (k : Nat) (v : Int) :
    Within (.of [] [.coreSlack]) s (State.slackTake s k v) := by
  delta State.slackTake
  repeat' first
    | with_reducible assumption
    | with_reducible apply Within.refl
    | ((with_reducible apply Within.wr); (case hr => first | decide | exact Foot.allRegs_hasReg _ _ | exact Foot.all_hasReg _ | (subst_vars; decide) | ((try dsimp +zetaDelta only); split <;> first | decide | (split <;> first | decide | (split <;> decide)))))
    | ((with_reducible apply Within.setFlag); (case hr => first | decide | exact Foot.allRegs_hasReg _ _ | exact Foot.all_hasReg _ | (subst_vars; decide) | ((try dsimp +zetaDelta only); split <;> first | decide | (split <;> first | decide | (split <;> decide)))))
    | (intro x
       have hx : Within (.of [] [.coreSlack]) s x := by
         dsimp -zeta only [x]
         repeat' first
           | with_reducible assumption
           | with_reducible apply Within.refl
           | ((with_reducible apply Within.wr); (case hr => first | decide | exact Foot.allRegs_hasReg _ _ | exact Foot.all_hasReg _ | (subst_vars; decide) | ((try dsimp +zetaDelta only); split <;> first | decide | (split <;> first | decide | (split <;> decide)))))
           | ((with_reducible apply Within.setFlag); (case hr => first | decide | exact Foot.allRegs_hasReg _ _ | exact Foot.all_hasReg _ | (subst_vars; decide) | ((try dsimp +zetaDelta only); split <;> first | decide | (split <;> first | decide | (split <;> decide)))))
           | with_reducible apply Within.ite
           | split
           | dsimp -zeta only
           | dsimp +zetaDelta only
       clear_value x)
    | intro x
    | lift_lets
    | with_reducible apply Within.ite
    | split
    | dsimp -zeta only
    | dsimp +zetaDelta only

theorem State.ringPut_within (s : State) (l : Nat) (gen : Nat) (words : Tbl Word) :
    Within (.of [.core, .ecc] []) s (State.ringPut s l gen words) := by
  delta State.ringPut
  repeat' first
    | with_reducible assumption
    | with_reducible apply Within.refl
    | ((with_reducible apply Within.after (State.freshWords_within ..)); (case hle => decide))
    | (intro x
       have hx : Within (.of [.core, .ecc] []) s x := by
         dsimp -zeta only [x]
         repeat' first
           | with_reducible assumption
           | with_reducible apply Within.refl
           | ((with_reducible apply Within.after (State.freshWords_within ..)); (case hle => decide))
           | with_reducible apply Within.ite
           | ((with_reducible apply Within.set_core); (case hc => decide))
           | split
           | dsimp -zeta only
           | dsimp +zetaDelta only
       clear_value x)
    | intro x
    | lift_lets
    | with_reducible apply Within.ite
    | ((with_reducible apply Within.set_core); (case hc => decide))
    | split
    | dsimp -zeta only
    | dsimp +zetaDelta only

theorem State.emitStation_within (s : State) (k : Nat) (g : Nat) (p : Nat) (t : Nat) (n : Nat) :
    Within (.of [.free, .tick, .core, .act, .latch, .irqs, .log, .pm, .events, .ecc, .bus] [.coreSlack, .coreOverrunSlots, .almState, .almStageFail, .eccStatus, .eccLastUe, .eccTrack, .eccCorr, .eccUe, .eccPoison, .eccTrackFull, .busStatus, .busGrants, .logState, .logEvbEntries, .logDropped, .logEvbLost, .logEntries, .sysIntSrc]) s (State.emitStation s k g p t n).2 := by
  delta State.emitStation
  repeat' first
    | with_reducible assumption
    | with_reducible apply Within.refl
    | ((with_reducible apply Within.countBy); (case hr => first | decide | exact Foot.allRegs_hasReg _ _ | exact Foot.all_hasReg _ | (subst_vars; decide) | ((try dsimp +zetaDelta only); split <;> first | decide | (split <;> first | decide | (split <;> decide)))))
    | ((with_reducible apply Within.each); (case' hg => intro _ _ _))
    | ((with_reducible apply Within.after (State.fetchEntries_within ..)); (case hle => decide))
    | ((with_reducible apply Within.after (Within.of_eq (State.fetchEntries_within ..) ?e)); (case e => assumption); (case hle => decide))
    | ((with_reducible apply Within.after (State.doReads_within ..)); (case hle => decide))
    | ((with_reducible apply Within.after (Within.of_eq (State.doReads_within ..) ?e)); (case e => assumption); (case hle => decide))
    | ((with_reducible apply Within.after (State.emitPairs_within ..)); (case hle => decide))
    | ((with_reducible apply Within.after (Within.of_eq (State.emitPairs_within ..) ?e)); (case e => assumption); (case hle => decide))
    | ((with_reducible apply Within.after (State.slackTake_within ..)); (case hle => decide))
    | ((with_reducible apply Within.after (State.ringPut_within ..)); (case hle => decide))
    | (intro x
       have hx : Within (.of [.free, .tick, .core, .act, .latch, .irqs, .log, .pm, .events, .ecc, .bus] [.coreSlack, .coreOverrunSlots, .almState, .almStageFail, .eccStatus, .eccLastUe, .eccTrack, .eccCorr, .eccUe, .eccPoison, .eccTrackFull, .busStatus, .busGrants, .logState, .logEvbEntries, .logDropped, .logEvbLost, .logEntries, .sysIntSrc]) s x := by
         dsimp -zeta only [x]
         repeat' first
           | with_reducible assumption
           | with_reducible apply Within.refl
           | ((with_reducible apply Within.countBy); (case hr => first | decide | exact Foot.allRegs_hasReg _ _ | exact Foot.all_hasReg _ | (subst_vars; decide) | ((try dsimp +zetaDelta only); split <;> first | decide | (split <;> first | decide | (split <;> decide)))))
           | ((with_reducible apply Within.each); (case' hg => intro _ _ _))
           | ((with_reducible apply Within.after (State.fetchEntries_within ..)); (case hle => decide))
           | ((with_reducible apply Within.after (Within.of_eq (State.fetchEntries_within ..) ?e)); (case e => assumption); (case hle => decide))
           | ((with_reducible apply Within.after (State.doReads_within ..)); (case hle => decide))
           | ((with_reducible apply Within.after (Within.of_eq (State.doReads_within ..) ?e)); (case e => assumption); (case hle => decide))
           | ((with_reducible apply Within.after (State.emitPairs_within ..)); (case hle => decide))
           | ((with_reducible apply Within.after (Within.of_eq (State.emitPairs_within ..) ?e)); (case e => assumption); (case hle => decide))
           | ((with_reducible apply Within.after (State.slackTake_within ..)); (case hle => decide))
           | ((with_reducible apply Within.after (State.ringPut_within ..)); (case hle => decide))
           | with_reducible apply Within.ite
           | split
           | dsimp -zeta only
           | dsimp +zetaDelta only
       clear_value x)
    | intro x
    | lift_lets
    | with_reducible apply Within.ite
    | split
    | dsimp -zeta only
    | dsimp +zetaDelta only

theorem State.overrun_within (s : State) (late : List (Nat × Nat × Nat)) :
    Within (.of [.tick, .core, .act, .latch, .irqs, .log, .pm, .events, .bus] [.coreStatus, .busStatus, .busGrants, .logState, .logEvbEntries, .logDropped, .logEvbLost, .logEntries, .sysIntSrc]) s (State.overrun s late) := by
  delta State.overrun
  repeat' first
    | with_reducible assumption
    | with_reducible apply Within.refl
    | ((with_reducible apply Within.wr); (case hr => first | decide | exact Foot.allRegs_hasReg _ _ | exact Foot.all_hasReg _ | (subst_vars; decide) | ((try dsimp +zetaDelta only); split <;> first | decide | (split <;> first | decide | (split <;> decide)))))
    | ((with_reducible apply Within.setFlag); (case hr => first | decide | exact Foot.allRegs_hasReg _ _ | exact Foot.all_hasReg _ | (subst_vars; decide) | ((try dsimp +zetaDelta only); split <;> first | decide | (split <;> first | decide | (split <;> decide)))))
    | ((with_reducible apply Within.foldl_snd); (case' hg => intro _ _ _))
    | ((with_reducible apply Within.foldl); (case' hg => intro _ _ _))
    | ((with_reducible apply Within.after (State.raiseEach_within ..)); (case hle => decide))
    | (intro x
       have hx : Within (.of [.tick, .core, .act, .latch, .irqs, .log, .pm, .events, .bus] [.coreStatus, .busStatus, .busGrants, .logState, .logEvbEntries, .logDropped, .logEvbLost, .logEntries, .sysIntSrc]) s x := by
         dsimp -zeta only [x]
         repeat' first
           | with_reducible assumption
           | with_reducible apply Within.refl
           | ((with_reducible apply Within.wr); (case hr => first | decide | exact Foot.allRegs_hasReg _ _ | exact Foot.all_hasReg _ | (subst_vars; decide) | ((try dsimp +zetaDelta only); split <;> first | decide | (split <;> first | decide | (split <;> decide)))))
           | ((with_reducible apply Within.setFlag); (case hr => first | decide | exact Foot.allRegs_hasReg _ _ | exact Foot.all_hasReg _ | (subst_vars; decide) | ((try dsimp +zetaDelta only); split <;> first | decide | (split <;> first | decide | (split <;> decide)))))
           | ((with_reducible apply Within.foldl_snd); (case' hg => intro _ _ _))
           | ((with_reducible apply Within.foldl); (case' hg => intro _ _ _))
           | ((with_reducible apply Within.after (State.raiseEach_within ..)); (case hle => decide))
           | with_reducible apply Within.ite
           | split
           | dsimp -zeta only
           | dsimp +zetaDelta only
           | ((with_reducible apply Within.set_tick_core); (case h_tick => decide); (case h_core => decide))
           | ((with_reducible apply Within.set_tick); (case hc => decide))
           | ((with_reducible apply Within.set_core); (case hc => decide))
       clear_value x)
    | intro x
    | lift_lets
    | with_reducible apply Within.ite
    | split
    | dsimp -zeta only
    | dsimp +zetaDelta only
    | ((with_reducible apply Within.set_tick_core); (case h_tick => decide); (case h_core => decide))
    | ((with_reducible apply Within.set_tick); (case hc => decide))
    | ((with_reducible apply Within.set_core); (case hc => decide))

theorem State.digestStage_within (s : State) :
    Within (.of [.core] []) s (State.digestStage s) := by
  delta State.digestStage
  repeat' first
    | with_reducible assumption
    | with_reducible apply Within.refl
    | ((with_reducible apply Within.iter_snd); (case' hg => intro _ _ _))
    | ((with_reducible apply Within.iter); (case' hg => intro _ _ _))
    | (intro x
       have hx : Within (.of [.core] []) s x := by
         dsimp -zeta only [x]
         repeat' first
           | with_reducible assumption
           | with_reducible apply Within.refl
           | ((with_reducible apply Within.iter_snd); (case' hg => intro _ _ _))
           | ((with_reducible apply Within.iter); (case' hg => intro _ _ _))
           | with_reducible apply Within.ite
           | ((with_reducible apply Within.set_core); (case hc => decide))
           | split
           | dsimp -zeta only
           | dsimp +zetaDelta only
       clear_value x)
    | intro x
    | lift_lets
    | with_reducible apply Within.ite
    | ((with_reducible apply Within.set_core); (case hc => decide))
    | split
    | dsimp -zeta only
    | dsimp +zetaDelta only

theorem State.emitStage_within (s : State) (g : Nat) (p : Nat) (t : Nat) (n : Nat) :
    Within (.of [.free, .tick, .core, .act, .latch, .irqs, .log, .pm, .events, .ecc, .bus] [.coreStatus, .coreSlack, .coreOverrunSlots, .almState, .almStageFail, .eccStatus, .eccLastUe, .eccTrack, .eccCorr, .eccUe, .eccPoison, .eccTrackFull, .busStatus, .busGrants, .logState, .logEvbEntries, .logDropped, .logEvbLost, .logEntries, .sysIntSrc]) s (State.emitStage s g p t n) := by
  delta State.emitStage
  repeat' first
    | with_reducible assumption
    | with_reducible apply Within.refl
    | ((with_reducible apply Within.iter_snd); (case' hg => intro _ _ _))
    | ((with_reducible apply Within.iter); (case' hg => intro _ _ _))
    | ((with_reducible apply Within.after (State.emitStation_within ..)); (case hle => decide))
    | ((with_reducible apply Within.after (Within.of_eq (State.emitStation_within ..) ?e)); (case e => assumption); (case hle => decide))
    | ((with_reducible apply Within.after (State.digestStage_within ..)); (case hle => decide))
    | ((with_reducible apply Within.after (State.overrun_within ..)); (case hle => decide))
    | (intro x
       have hx : Within (.of [.free, .tick, .core, .act, .latch, .irqs, .log, .pm, .events, .ecc, .bus] [.coreStatus, .coreSlack, .coreOverrunSlots, .almState, .almStageFail, .eccStatus, .eccLastUe, .eccTrack, .eccCorr, .eccUe, .eccPoison, .eccTrackFull, .busStatus, .busGrants, .logState, .logEvbEntries, .logDropped, .logEvbLost, .logEntries, .sysIntSrc]) s x := by
         dsimp -zeta only [x]
         repeat' first
           | with_reducible assumption
           | with_reducible apply Within.refl
           | ((with_reducible apply Within.iter_snd); (case' hg => intro _ _ _))
           | ((with_reducible apply Within.iter); (case' hg => intro _ _ _))
           | ((with_reducible apply Within.after (State.emitStation_within ..)); (case hle => decide))
           | ((with_reducible apply Within.after (Within.of_eq (State.emitStation_within ..) ?e)); (case e => assumption); (case hle => decide))
           | ((with_reducible apply Within.after (State.digestStage_within ..)); (case hle => decide))
           | ((with_reducible apply Within.after (State.overrun_within ..)); (case hle => decide))
           | with_reducible apply Within.ite
           | split
           | dsimp -zeta only
           | dsimp +zetaDelta only
       clear_value x)
    | intro x
    | lift_lets
    | with_reducible apply Within.ite
    | split
    | dsimp -zeta only
    | dsimp +zetaDelta only

theorem State.ctrlCycle_within (s : State) (j : Nat) :
    Within (.of [.core] [.coreResvCtrl]) s (State.ctrlCycle s j) := by
  delta State.ctrlCycle
  repeat' first
    | with_reducible assumption
    | with_reducible apply Within.refl
    | ((with_reducible apply Within.count); (case hr => first | decide | exact Foot.allRegs_hasReg _ _ | exact Foot.all_hasReg _ | (subst_vars; decide) | ((try dsimp +zetaDelta only); split <;> first | decide | (split <;> first | decide | (split <;> decide)))))
    | (intro x
       have hx : Within (.of [.core] [.coreResvCtrl]) s x := by
         dsimp -zeta only [x]
         repeat' first
           | with_reducible assumption
           | with_reducible apply Within.refl
           | ((with_reducible apply Within.count); (case hr => first | decide | exact Foot.allRegs_hasReg _ _ | exact Foot.all_hasReg _ | (subst_vars; decide) | ((try dsimp +zetaDelta only); split <;> first | decide | (split <;> first | decide | (split <;> decide)))))
           | with_reducible apply Within.ite
           | ((with_reducible apply Within.set_core); (case hc => decide))
           | split
           | dsimp -zeta only
           | dsimp +zetaDelta only
       clear_value x)
    | intro x
    | lift_lets
    | with_reducible apply Within.ite
    | ((with_reducible apply Within.set_core); (case hc => decide))
    | split
    | dsimp -zeta only
    | dsimp +zetaDelta only

theorem State.tapRead_within (s : State) (a1 : Nat) (g : Nat) (t : Nat) :
    Within (.of [.free, .tick, .core, .act, .latch, .irqs, .log, .pm, .events, .ecc, .bus] [.coreResvCtrl, .almState, .almStageFail, .eccStatus, .eccLastUe, .eccTrack, .eccCorr, .eccUe, .eccPoison, .eccTrackFull, .busStatus, .busGrants, .logState, .logEvbEntries, .logDropped, .logEvbLost, .logEntries, .sysIntSrc]) s (State.tapRead s a1 g t).2 := by
  delta State.tapRead
  repeat' first
    | with_reducible assumption
    | with_reducible apply Within.refl
    | ((with_reducible apply Within.after (State.wordRead_within ..)); (case hle => decide))
    | ((with_reducible apply Within.after (Within.of_eq (State.wordRead_within ..) ?e)); (case e => assumption); (case hle => decide))
    | ((with_reducible apply Within.after (State.ctrlCycle_within ..)); (case hle => decide))
    | (intro x
       have hx : Within (.of [.free, .tick, .core, .act, .latch, .irqs, .log, .pm, .events, .ecc, .bus] [.coreResvCtrl, .almState, .almStageFail, .eccStatus, .eccLastUe, .eccTrack, .eccCorr, .eccUe, .eccPoison, .eccTrackFull, .busStatus, .busGrants, .logState, .logEvbEntries, .logDropped, .logEvbLost, .logEntries, .sysIntSrc]) s x := by
         dsimp -zeta only [x]
         repeat' first
           | with_reducible assumption
           | with_reducible apply Within.refl
           | ((with_reducible apply Within.after (State.wordRead_within ..)); (case hle => decide))
           | ((with_reducible apply Within.after (Within.of_eq (State.wordRead_within ..) ?e)); (case e => assumption); (case hle => decide))
           | ((with_reducible apply Within.after (State.ctrlCycle_within ..)); (case hle => decide))
           | with_reducible apply Within.ite
           | split
           | dsimp -zeta only
           | dsimp +zetaDelta only
       clear_value x)
    | intro x
    | lift_lets
    | with_reducible apply Within.ite
    | split
    | dsimp -zeta only
    | dsimp +zetaDelta only

theorem State.tapStage_within (s : State) (g : Nat) (t : Nat) :
    Within (.of [.free, .tick, .core, .act, .latch, .irqs, .log, .pm, .events, .ecc, .bus] [.coreTapData, .coreTapTick, .coreResvCtrl, .almState, .almStageFail, .eccStatus, .eccLastUe, .eccTrack, .eccCorr, .eccUe, .eccPoison, .eccTrackFull, .busStatus, .busGrants, .logState, .logEvbEntries, .logDropped, .logEvbLost, .logEntries, .sysIntSrc]) s (State.tapStage s g t) := by
  delta State.tapStage
  repeat' first
    | with_reducible assumption
    | with_reducible apply Within.refl
    | ((with_reducible apply Within.wr); (case hr => first | decide | exact Foot.allRegs_hasReg _ _ | exact Foot.all_hasReg _ | (subst_vars; decide) | ((try dsimp +zetaDelta only); split <;> first | decide | (split <;> first | decide | (split <;> decide)))))
    | ((with_reducible apply Within.setFlag); (case hr => first | decide | exact Foot.allRegs_hasReg _ _ | exact Foot.all_hasReg _ | (subst_vars; decide) | ((try dsimp +zetaDelta only); split <;> first | decide | (split <;> first | decide | (split <;> decide)))))
    | ((with_reducible apply Within.after (State.tapRead_within ..)); (case hle => decide))
    | ((with_reducible apply Within.after (Within.of_eq (State.tapRead_within ..) ?e)); (case e => assumption); (case hle => decide))
    | (intro x
       have hx : Within (.of [.free, .tick, .core, .act, .latch, .irqs, .log, .pm, .events, .ecc, .bus] [.coreTapData, .coreTapTick, .coreResvCtrl, .almState, .almStageFail, .eccStatus, .eccLastUe, .eccTrack, .eccCorr, .eccUe, .eccPoison, .eccTrackFull, .busStatus, .busGrants, .logState, .logEvbEntries, .logDropped, .logEvbLost, .logEntries, .sysIntSrc]) s x := by
         dsimp -zeta only [x]
         repeat' first
           | with_reducible assumption
           | with_reducible apply Within.refl
           | ((with_reducible apply Within.wr); (case hr => first | decide | exact Foot.allRegs_hasReg _ _ | exact Foot.all_hasReg _ | (subst_vars; decide) | ((try dsimp +zetaDelta only); split <;> first | decide | (split <;> first | decide | (split <;> decide)))))
           | ((with_reducible apply Within.setFlag); (case hr => first | decide | exact Foot.allRegs_hasReg _ _ | exact Foot.all_hasReg _ | (subst_vars; decide) | ((try dsimp +zetaDelta only); split <;> first | decide | (split <;> first | decide | (split <;> decide)))))
           | ((with_reducible apply Within.after (State.tapRead_within ..)); (case hle => decide))
           | ((with_reducible apply Within.after (Within.of_eq (State.tapRead_within ..) ?e)); (case e => assumption); (case hle => decide))
           | with_reducible apply Within.ite
           | split
           | dsimp -zeta only
           | dsimp +zetaDelta only
       clear_value x)
    | intro x
    | lift_lets
    | with_reducible apply Within.ite
    | split
    | dsimp -zeta only
    | dsimp +zetaDelta only

theorem State.sumClear_within (s : State) :
    Within (.of [.ecc] []) s (State.sumClear s) := by
  delta State.sumClear
  repeat' first
    | with_reducible assumption
    | with_reducible apply Within.refl
    | ((with_reducible apply Within.after (State.freshBanks_within ..)); (case hle => decide))
    | with_reducible apply Within.ite
    | split
    | dsimp -zeta only

theorem State.coreStages_within (s : State) (e : TickEnv) :
    Within (.of [.free, .tick, .lag, .prot, .core, .act, .latch, .irqs, .log, .pm, .events, .hbm, .ecc, .bus] [.lagLinkState, .lagReadLate, .lagPageFail, .lagReleased, .lagMissing, .lagPageBad, .protGroupState, .protSelP, .protSelS, .protSwitch, .protNoGood, .protBothAbsent, .protDiffer, .coreStatus, .coreSlack, .coreTapData, .coreTapTick, .coreOverrunSlots, .coreClashReads, .corePostClash, .coreResvCtrl, .coreTicks, .almState, .almStageFail, .eccStatus, .eccLastUe, .eccTrack, .eccCorr, .eccUe, .eccPoison, .eccTrackFull, .eccSumPoisonAll, .hbmCand, .hbmUe, .busStatus, .busGrants, .logState, .logEvbEntries, .logDropped, .logEvbLost, .logEntries, .sysIntSrc]) s (State.coreStages s e) := by
  delta State.coreStages
  repeat' first
    | with_reducible assumption
    | with_reducible apply Within.refl
    | ((with_reducible apply Within.count); (case hr => first | decide | exact Foot.allRegs_hasReg _ _ | exact Foot.all_hasReg _ | (subst_vars; decide) | ((try dsimp +zetaDelta only); split <;> first | decide | (split <;> first | decide | (split <;> decide)))))
    | ((with_reducible apply Within.after (State.tapStage_within ..)); (case hle => decide))
    | ((with_reducible apply Within.after (State.emitStage_within ..)); (case hle => decide))
    | ((with_reducible apply Within.after (State.sumStage_within ..)); (case hle => decide))
    | ((with_reducible apply Within.after (State.selectorStage_within ..)); (case hle => decide))
    | ((with_reducible apply Within.after (State.upStage_within ..)); (case hle => decide))
    | (intro x
       have hx : Within (.of [.free, .tick, .lag, .prot, .core, .act, .latch, .irqs, .log, .pm, .events, .hbm, .ecc, .bus] [.lagLinkState, .lagReadLate, .lagPageFail, .lagReleased, .lagMissing, .lagPageBad, .protGroupState, .protSelP, .protSelS, .protSwitch, .protNoGood, .protBothAbsent, .protDiffer, .coreStatus, .coreSlack, .coreTapData, .coreTapTick, .coreOverrunSlots, .coreClashReads, .corePostClash, .coreResvCtrl, .coreTicks, .almState, .almStageFail, .eccStatus, .eccLastUe, .eccTrack, .eccCorr, .eccUe, .eccPoison, .eccTrackFull, .eccSumPoisonAll, .hbmCand, .hbmUe, .busStatus, .busGrants, .logState, .logEvbEntries, .logDropped, .logEvbLost, .logEntries, .sysIntSrc]) s x := by
         dsimp -zeta only [x]
         repeat' first
           | with_reducible assumption
           | with_reducible apply Within.refl
           | ((with_reducible apply Within.count); (case hr => first | decide | exact Foot.allRegs_hasReg _ _ | exact Foot.all_hasReg _ | (subst_vars; decide) | ((try dsimp +zetaDelta only); split <;> first | decide | (split <;> first | decide | (split <;> decide)))))
           | ((with_reducible apply Within.after (State.tapStage_within ..)); (case hle => decide))
           | ((with_reducible apply Within.after (State.emitStage_within ..)); (case hle => decide))
           | ((with_reducible apply Within.after (State.sumStage_within ..)); (case hle => decide))
           | ((with_reducible apply Within.after (State.selectorStage_within ..)); (case hle => decide))
           | ((with_reducible apply Within.after (State.upStage_within ..)); (case hle => decide))
           | with_reducible apply Within.ite
           | split
           | dsimp -zeta only
           | dsimp +zetaDelta only
       clear_value x)
    | intro x
    | lift_lets
    | with_reducible apply Within.ite
    | split
    | dsimp -zeta only
    | dsimp +zetaDelta only

theorem State.coreTick_within (s : State) (e : TickEnv) :
    Within (.of [.free, .tick, .lag, .prot, .core, .act, .latch, .irqs, .log, .pm, .events, .hbm, .ecc, .bus] [.lagLinkState, .lagReadLate, .lagPageFail, .lagReleased, .lagMissing, .lagPageBad, .protGroupState, .protSelP, .protSelS, .protSwitch, .protNoGood, .protBothAbsent, .protDiffer, .coreStatus, .coreSlack, .coreTapData, .coreTapTick, .coreOverrunSlots, .coreClashReads, .corePostClash, .coreResvCtrl, .coreTicks, .almState, .almStageFail, .eccStatus, .eccLastUe, .eccTrack, .eccCorr, .eccUe, .eccPoison, .eccTrackFull, .eccSumPoisonAll, .hbmCand, .hbmUe, .busStatus, .busGrants, .logState, .logEvbEntries, .logDropped, .logEvbLost, .logEntries, .sysIntSrc]) s (State.coreTick s e) := by
  delta State.coreTick
  repeat' first
    | with_reducible assumption
    | with_reducible apply Within.refl
    | ((with_reducible apply Within.when); (case' hg => intro _ _))
    | ((with_reducible apply Within.after (State.coreStages_within ..)); (case hle => decide))
    | (intro x
       have hx : Within (.of [.free, .tick, .lag, .prot, .core, .act, .latch, .irqs, .log, .pm, .events, .hbm, .ecc, .bus] [.lagLinkState, .lagReadLate, .lagPageFail, .lagReleased, .lagMissing, .lagPageBad, .protGroupState, .protSelP, .protSelS, .protSwitch, .protNoGood, .protBothAbsent, .protDiffer, .coreStatus, .coreSlack, .coreTapData, .coreTapTick, .coreOverrunSlots, .coreClashReads, .corePostClash, .coreResvCtrl, .coreTicks, .almState, .almStageFail, .eccStatus, .eccLastUe, .eccTrack, .eccCorr, .eccUe, .eccPoison, .eccTrackFull, .eccSumPoisonAll, .hbmCand, .hbmUe, .busStatus, .busGrants, .logState, .logEvbEntries, .logDropped, .logEvbLost, .logEntries, .sysIntSrc]) s x := by
         dsimp -zeta only [x]
         repeat' first
           | with_reducible assumption
           | with_reducible apply Within.refl
           | ((with_reducible apply Within.when); (case' hg => intro _ _))
           | ((with_reducible apply Within.after (State.coreStages_within ..)); (case hle => decide))
           | with_reducible apply Within.ite
           | ((with_reducible apply Within.set_core); (case hc => decide))
           | split
           | dsimp -zeta only
           | dsimp +zetaDelta only
       clear_value x)
    | intro x
    | lift_lets
    | with_reducible apply Within.ite
    | ((with_reducible apply Within.set_core); (case hc => decide))
    | split
    | dsimp -zeta only
    | dsimp +zetaDelta only

end Sys2Proof.Machine
end

