-- ==== Sys2Proof/Laws/Footprint/Image.lean ====
section
/-! SUPPORT. What each operation of Machine/Image.lean may touch. -/

namespace Sys2Proof.Machine

theorem State.loadRegs_within (s : State) (regs : List (Nat × Word)) :
    Within (.allRegs []) s (State.loadRegs s regs) := by
  delta State.loadRegs
  repeat' first
    | with_reducible assumption
    | with_reducible apply Within.refl
    | ((with_reducible apply Within.setWord); (case hr => first | decide | exact Foot.allRegs_hasReg _ _ | exact Foot.all_hasReg _ | (subst_vars; decide) | ((try dsimp +zetaDelta only); split <;> first | decide | (split <;> first | decide | (split <;> decide)))))
    | ((with_reducible apply Within.each); (case' hg => intro _ _ _))
    | ((with_reducible apply Within.eachN); (case' hg => intro _ _ _))
    | (intro x
       have hx : Within (.allRegs []) s x := by
         dsimp -zeta only [x]
         repeat' first
           | with_reducible assumption
           | with_reducible apply Within.refl
           | ((with_reducible apply Within.setWord); (case hr => first | decide | exact Foot.allRegs_hasReg _ _ | exact Foot.all_hasReg _ | (subst_vars; decide) | ((try dsimp +zetaDelta only); split <;> first | decide | (split <;> first | decide | (split <;> decide)))))
           | ((with_reducible apply Within.each); (case' hg => intro _ _ _))
           | ((with_reducible apply Within.eachN); (case' hg => intro _ _ _))
           | with_reducible apply Within.ite
           | split
           | dsimp -zeta only
           | dsimp +zetaDelta only
       clear_value x)
    | intro x
    | lift_lets
    | with_reducible apply Within.ite
    | split
    | dsimp -zeta only
    | dsimp +zetaDelta only

theorem State.loadCounts_within (s : State) (regs : List (Nat × Word)) :
    Within (.of [] [.coreSumCount]) s (State.loadCounts s regs) := by
  unfold State.loadCounts
  refine Within.each _ _ ?_ ?_
  · exact (Within.refl _ s).eachN _ _ fun _ _ h => h.setWord _ _ _ (by decide)
  · intro x y h
    split
    · split
      · rename_i e
        exact h.setWord _ _ _ (by rw [e]; decide)
      · exact h
    · exact h

theorem State.asLoaded_within (s : State) (i : Nat) :
    Within (.allRegs [.prot, .core, .ecc]) s (State.asLoaded s i) := by
  delta State.asLoaded
  repeat' first
    | with_reducible assumption
    | with_reducible apply Within.refl
    | ((with_reducible apply Within.setWord); (case hr => first | decide | exact Foot.allRegs_hasReg _ _ | exact Foot.all_hasReg _ | (subst_vars; decide) | ((try dsimp +zetaDelta only); split <;> first | decide | (split <;> first | decide | (split <;> decide)))))
    | ((with_reducible apply Within.wr); (case hr => first | decide | exact Foot.allRegs_hasReg _ _ | exact Foot.all_hasReg _ | (subst_vars; decide) | ((try dsimp +zetaDelta only); split <;> first | decide | (split <;> first | decide | (split <;> decide)))))
    | ((with_reducible apply Within.eachN); (case' hg => intro _ _ _))
    | ((with_reducible apply Within.after (State.loadCounts_within ..)); (case hle => decide))
    | ((with_reducible apply Within.after (State.loadRegs_within ..)); (case hle => decide))
    | (intro x
       have hx : Within (.allRegs [.prot, .core, .ecc]) s x := by
         dsimp -zeta only [x]
         repeat' first
           | with_reducible assumption
           | with_reducible apply Within.refl
           | ((with_reducible apply Within.setWord); (case hr => first | decide | exact Foot.allRegs_hasReg _ _ | exact Foot.all_hasReg _ | (subst_vars; decide) | ((try dsimp +zetaDelta only); split <;> first | decide | (split <;> first | decide | (split <;> decide)))))
           | ((with_reducible apply Within.wr); (case hr => first | decide | exact Foot.allRegs_hasReg _ _ | exact Foot.all_hasReg _ | (subst_vars; decide) | ((try dsimp +zetaDelta only); split <;> first | decide | (split <;> first | decide | (split <;> decide)))))
           | ((with_reducible apply Within.eachN); (case' hg => intro _ _ _))
           | ((with_reducible apply Within.after (State.loadCounts_within ..)); (case hle => decide))
           | ((with_reducible apply Within.after (State.loadRegs_within ..)); (case hle => decide))
           | with_reducible apply Within.ite
           | ((with_reducible apply Within.set_prot_core_ecc); (case h_prot => decide); (case h_core => decide); (case h_ecc => decide))
           | ((with_reducible apply Within.set_prot); (case hc => decide))
           | ((with_reducible apply Within.set_core); (case hc => decide))
           | ((with_reducible apply Within.set_ecc); (case hc => decide))
           | split
           | dsimp -zeta only
           | dsimp +zetaDelta only
       clear_value x)
    | intro x
    | lift_lets
    | with_reducible apply Within.ite
    | ((with_reducible apply Within.set_prot_core_ecc); (case h_prot => decide); (case h_core => decide); (case h_ecc => decide))
    | ((with_reducible apply Within.set_prot); (case hc => decide))
    | ((with_reducible apply Within.set_core); (case hc => decide))
    | ((with_reducible apply Within.set_ecc); (case hc => decide))
    | split
    | dsimp -zeta only
    | dsimp +zetaDelta only

end Sys2Proof.Machine
end

