-- ==== Sys2Proof/Laws/Footprint/Tables.lean ====
section
/-! SUPPORT. What each operation of Machine/Tables.lean may touch. -/

namespace Sys2Proof.Machine

theorem State.winPut_within (s : State) (p : WinPlace) (v : Nat) (cyc : Nat) (mask : BitVec 80) :
    Within (.of [.core] []) s (State.winPut s p v cyc mask) := by
  delta State.winPut
  repeat' first
    | with_reducible assumption
    | with_reducible apply Within.refl
    | (intro x
       have hx : Within (.of [.core] []) s x := by
         dsimp -zeta only [x]
         repeat' first
           | with_reducible assumption
           | with_reducible apply Within.refl
           | with_reducible apply Within.ite
           | split
           | dsimp -zeta only
           | dsimp +zetaDelta only
           | ((with_reducible apply Within.set_core); (case hc => decide))
       clear_value x)
    | intro x
    | lift_lets
    | with_reducible apply Within.ite
    | split
    | dsimp -zeta only
    | dsimp +zetaDelta only
    | ((with_reducible apply Within.set_core); (case hc => decide))

theorem State.mergedWrite_within (s : State) (a1 : Nat) :
    Within (.of [.ecc] []) s (State.mergedWrite s a1) := by
  delta State.mergedWrite
  repeat' first
    | with_reducible assumption
    | with_reducible apply Within.refl
    | with_reducible apply Within.ite
    | ((with_reducible apply Within.set_ecc); (case hc => decide))
    | split
    | dsimp -zeta only

theorem State.winWrite_within (s : State) (p : WinPlace) (off : Nat) (data : List (Option Byte)) (cyc : Nat) :
    Within (.of [.free, .tick, .core, .act, .latch, .irqs, .log, .pm, .events, .ecc, .bus] [.almState, .almStageFail, .eccStatus, .eccLastUe, .eccTrack, .eccCorr, .eccUe, .eccPoison, .eccTrackFull, .busStatus, .busGrants, .logState, .logEvbEntries, .logDropped, .logEvbLost, .logEntries, .sysIntSrc]) s (State.winWrite s p off data cyc).2 := by
  delta State.winWrite
  repeat' first
    | with_reducible assumption
    | with_reducible apply Within.refl
    | ((with_reducible apply Within.after (State.winPut_within ..)); (case hle => decide))
    | ((with_reducible apply Within.after (State.sramRead_within ..)); (case hle => decide))
    | ((with_reducible apply Within.after (Within.of_eq (State.sramRead_within ..) ?e)); (case e => assumption); (case hle => decide))
    | ((with_reducible apply Within.after (State.mergedWrite_within ..)); (case hle => decide))
    | ((with_reducible apply Within.after (State.wantRestore_within ..)); (case hle => decide))
    | ((with_reducible apply Within.after (State.fullWrite_within ..)); (case hle => decide))
    | (intro x
       have hx : Within (.of [.free, .tick, .core, .act, .latch, .irqs, .log, .pm, .events, .ecc, .bus] [.almState, .almStageFail, .eccStatus, .eccLastUe, .eccTrack, .eccCorr, .eccUe, .eccPoison, .eccTrackFull, .busStatus, .busGrants, .logState, .logEvbEntries, .logDropped, .logEvbLost, .logEntries, .sysIntSrc]) s x := by
         dsimp -zeta only [x]
         repeat' first
           | with_reducible assumption
           | with_reducible apply Within.refl
           | ((with_reducible apply Within.after (State.winPut_within ..)); (case hle => decide))
           | ((with_reducible apply Within.after (State.sramRead_within ..)); (case hle => decide))
           | ((with_reducible apply Within.after (Within.of_eq (State.sramRead_within ..) ?e)); (case e => assumption); (case hle => decide))
           | ((with_reducible apply Within.after (State.mergedWrite_within ..)); (case hle => decide))
           | ((with_reducible apply Within.after (State.wantRestore_within ..)); (case hle => decide))
           | ((with_reducible apply Within.after (State.fullWrite_within ..)); (case hle => decide))
           | with_reducible apply Within.ite
           | split
           | dsimp -zeta only
           | dsimp +zetaDelta only
       clear_value x)
    | intro x
    | lift_lets
    | with_reducible apply Within.ite
    | split
    | dsimp -zeta only
    | dsimp +zetaDelta only

theorem State.winRead8_within (s : State) (p : WinPlace) (k : Nat) :
    Within (.of [.free, .tick, .act, .latch, .irqs, .log, .pm, .events, .ecc, .bus] [.almState, .almStageFail, .eccStatus, .eccLastUe, .eccTrack, .eccCorr, .eccUe, .eccPoison, .eccTrackFull, .busStatus, .busGrants, .logState, .logEvbEntries, .logDropped, .logEvbLost, .logEntries, .sysIntSrc]) s (State.winRead8 s p k).2 := by
  delta State.winRead8
  repeat' first
    | with_reducible assumption
    | with_reducible apply Within.refl
    | ((with_reducible apply Within.foldl_snd); (case' hg => intro _ _ _))
    | ((with_reducible apply Within.foldl); (case' hg => intro _ _ _))
    | ((with_reducible apply Within.after (State.sramRead_within ..)); (case hle => decide))
    | ((with_reducible apply Within.after (Within.of_eq (State.sramRead_within ..) ?e)); (case e => assumption); (case hle => decide))
    | (intro x
       have hx : Within (.of [.free, .tick, .act, .latch, .irqs, .log, .pm, .events, .ecc, .bus] [.almState, .almStageFail, .eccStatus, .eccLastUe, .eccTrack, .eccCorr, .eccUe, .eccPoison, .eccTrackFull, .busStatus, .busGrants, .logState, .logEvbEntries, .logDropped, .logEvbLost, .logEntries, .sysIntSrc]) s x := by
         dsimp -zeta only [x]
         repeat' first
           | with_reducible assumption
           | with_reducible apply Within.refl
           | ((with_reducible apply Within.foldl_snd); (case' hg => intro _ _ _))
           | ((with_reducible apply Within.foldl); (case' hg => intro _ _ _))
           | ((with_reducible apply Within.after (State.sramRead_within ..)); (case hle => decide))
           | ((with_reducible apply Within.after (Within.of_eq (State.sramRead_within ..) ?e)); (case e => assumption); (case hle => decide))
           | with_reducible apply Within.ite
           | split
           | dsimp -zeta only
           | dsimp +zetaDelta only
       clear_value x)
    | intro x
    | lift_lets
    | with_reducible apply Within.ite
    | split
    | dsimp -zeta only
    | dsimp +zetaDelta only

theorem State.winReads_within (s : State) (p : WinPlace) (lo : Nat) (n : Nat) :
    Within (.of [.free, .tick, .act, .latch, .irqs, .log, .pm, .events, .ecc, .bus] [.almState, .almStageFail, .eccStatus, .eccLastUe, .eccTrack, .eccCorr, .eccUe, .eccPoison, .eccTrackFull, .busStatus, .busGrants, .logState, .logEvbEntries, .logDropped, .logEvbLost, .logEntries, .sysIntSrc]) s (State.winReads s p lo n).2 := by
  delta State.winReads
  repeat' first
    | with_reducible assumption
    | with_reducible apply Within.refl
    | ((with_reducible apply Within.iter_snd); (case' hg => intro _ _ _))
    | ((with_reducible apply Within.iter); (case' hg => intro _ _ _))
    | ((with_reducible apply Within.after (State.winRead8_within ..)); (case hle => decide))
    | ((with_reducible apply Within.after (Within.of_eq (State.winRead8_within ..) ?e)); (case e => assumption); (case hle => decide))
    | with_reducible apply Within.ite
    | split
    | dsimp -zeta only

theorem State.winReadWord_within (s : State) (p : WinPlace) (a2 : Nat) (c : Nat) :
    Within (.of [.free, .tick, .act, .latch, .irqs, .log, .pm, .events, .ecc, .bus] [.almState, .almStageFail, .eccStatus, .eccLastUe, .eccTrack, .eccCorr, .eccUe, .eccPoison, .eccTrackFull, .busStatus, .busGrants, .logState, .logEvbEntries, .logDropped, .logEvbLost, .logEntries, .sysIntSrc]) s (State.winReadWord s p a2 c).2 := by
  delta State.winReadWord
  repeat' first
    | with_reducible assumption
    | with_reducible apply Within.refl
    | ((with_reducible apply Within.after (State.fetchRead_within ..)); (case hle => decide))
    | ((with_reducible apply Within.after (Within.of_eq (State.fetchRead_within ..) ?e)); (case e => assumption); (case hle => decide))
    | ((with_reducible apply Within.after (State.sramRead_within ..)); (case hle => decide))
    | ((with_reducible apply Within.after (Within.of_eq (State.sramRead_within ..) ?e)); (case e => assumption); (case hle => decide))
    | with_reducible apply Within.ite
    | split
    | dsimp -zeta only

theorem State.winRead_within (s : State) (p : WinPlace) (off : Nat) (n : Nat) (c : Nat) :
    Within (.of [.free, .tick, .act, .latch, .irqs, .log, .pm, .events, .ecc, .bus] [.almState, .almStageFail, .eccStatus, .eccLastUe, .eccTrack, .eccCorr, .eccUe, .eccPoison, .eccTrackFull, .busStatus, .busGrants, .logState, .logEvbEntries, .logDropped, .logEvbLost, .logEntries, .sysIntSrc]) s (State.winRead s p off n c).2 := by
  delta State.winRead
  repeat' first
    | with_reducible assumption
    | with_reducible apply Within.refl
    | ((with_reducible apply Within.after (State.winReadWord_within ..)); (case hle => decide))
    | ((with_reducible apply Within.after (Within.of_eq (State.winReadWord_within ..) ?e)); (case e => assumption); (case hle => decide))
    | ((with_reducible apply Within.after (State.winReads_within ..)); (case hle => decide))
    | ((with_reducible apply Within.after (Within.of_eq (State.winReads_within ..) ?e)); (case e => assumption); (case hle => decide))
    | (intro x
       have hx : Within (.of [.free, .tick, .act, .latch, .irqs, .log, .pm, .events, .ecc, .bus] [.almState, .almStageFail, .eccStatus, .eccLastUe, .eccTrack, .eccCorr, .eccUe, .eccPoison, .eccTrackFull, .busStatus, .busGrants, .logState, .logEvbEntries, .logDropped, .logEvbLost, .logEntries, .sysIntSrc]) s x := by
         dsimp -zeta only [x]
         repeat' first
           | with_reducible assumption
           | with_reducible apply Within.refl
           | ((with_reducible apply Within.after (State.winReadWord_within ..)); (case hle => decide))
           | ((with_reducible apply Within.after (Within.of_eq (State.winReadWord_within ..) ?e)); (case e => assumption); (case hle => decide))
           | ((with_reducible apply Within.after (State.winReads_within ..)); (case hle => decide))
           | ((with_reducible apply Within.after (Within.of_eq (State.winReads_within ..) ?e)); (case e => assumption); (case hle => decide))
           | with_reducible apply Within.ite
           | split
           | dsimp -zeta only
           | dsimp +zetaDelta only
       clear_value x)
    | intro x
    | lift_lets
    | with_reducible apply Within.ite
    | split
    | dsimp -zeta only
    | dsimp +zetaDelta only

theorem State.gainWrite_within (s : State) (p : WinPlace) (lo : Nat) (gain : Nat) (cyc : Nat) :
    Within (.of [.free, .tick, .core, .act, .latch, .irqs, .log, .pm, .events, .ecc, .bus] [.almState, .almStageFail, .eccStatus, .eccLastUe, .eccTrack, .eccCorr, .eccUe, .eccPoison, .eccTrackFull, .busStatus, .busGrants, .logState, .logEvbEntries, .logDropped, .logEvbLost, .logEntries, .sysIntSrc]) s (State.gainWrite s p lo gain cyc).2 := by
  delta State.gainWrite
  repeat' first
    | with_reducible assumption
    | with_reducible apply Within.refl
    | ((with_reducible apply Within.after (State.sramRead_within ..)); (case hle => decide))
    | ((with_reducible apply Within.after (Within.of_eq (State.sramRead_within ..) ?e)); (case e => assumption); (case hle => decide))
    | ((with_reducible apply Within.after (State.mergedWrite_within ..)); (case hle => decide))
    | ((with_reducible apply Within.after (State.winPut_within ..)); (case hle => decide))
    | ((with_reducible apply Within.after (State.wantRestore_within ..)); (case hle => decide))
    | (intro x
       have hx : Within (.of [.free, .tick, .core, .act, .latch, .irqs, .log, .pm, .events, .ecc, .bus] [.almState, .almStageFail, .eccStatus, .eccLastUe, .eccTrack, .eccCorr, .eccUe, .eccPoison, .eccTrackFull, .busStatus, .busGrants, .logState, .logEvbEntries, .logDropped, .logEvbLost, .logEntries, .sysIntSrc]) s x := by
         dsimp -zeta only [x]
         repeat' first
           | with_reducible assumption
           | with_reducible apply Within.refl
           | ((with_reducible apply Within.after (State.sramRead_within ..)); (case hle => decide))
           | ((with_reducible apply Within.after (Within.of_eq (State.sramRead_within ..) ?e)); (case e => assumption); (case hle => decide))
           | ((with_reducible apply Within.after (State.mergedWrite_within ..)); (case hle => decide))
           | ((with_reducible apply Within.after (State.winPut_within ..)); (case hle => decide))
           | ((with_reducible apply Within.after (State.wantRestore_within ..)); (case hle => decide))
           | with_reducible apply Within.ite
           | split
           | dsimp -zeta only
           | dsimp +zetaDelta only
       clear_value x)
    | intro x
    | lift_lets
    | with_reducible apply Within.ite
    | split
    | dsimp -zeta only
    | dsimp +zetaDelta only

theorem State.trimResult_within (s : State) (r : Nat) :
    Within (.of [] [.almTrimStatus]) s (State.trimResult s r) := by
  delta State.trimResult
  repeat' first
    | with_reducible assumption
    | with_reducible apply Within.refl
    | ((with_reducible apply Within.wr); (case hr => first | decide | exact Foot.allRegs_hasReg _ _ | exact Foot.all_hasReg _ | (subst_vars; decide) | ((try dsimp +zetaDelta only); split <;> first | decide | (split <;> first | decide | (split <;> decide)))))
    | with_reducible apply Within.ite
    | split
    | dsimp -zeta only

theorem State.trimDo_within (s : State) (t : Trim) :
    Within (.of [.free, .tick, .core, .act, .latch, .irqs, .log, .pm, .events, .ecc, .bus] [.coreResvMirror, .almState, .almTrimStatus, .almStageFail, .almTrims, .eccStatus, .eccLastUe, .eccTrack, .eccCorr, .eccUe, .eccPoison, .eccTrackFull, .busStatus, .busGrants, .logState, .logEvbEntries, .logDropped, .logEvbLost, .logEntries, .sysIntSrc]) s (State.trimDo s t) := by
  delta State.trimDo
  repeat' first
    | with_reducible assumption
    | with_reducible apply Within.refl
    | ((with_reducible apply Within.wr); (case hr => first | decide | exact Foot.allRegs_hasReg _ _ | exact Foot.all_hasReg _ | (subst_vars; decide) | ((try dsimp +zetaDelta only); split <;> first | decide | (split <;> first | decide | (split <;> decide)))))
    | ((with_reducible apply Within.countBy); (case hr => first | decide | exact Foot.allRegs_hasReg _ _ | exact Foot.all_hasReg _ | (subst_vars; decide) | ((try dsimp +zetaDelta only); split <;> first | decide | (split <;> first | decide | (split <;> decide)))))
    | ((with_reducible apply Within.count); (case hr => first | decide | exact Foot.allRegs_hasReg _ _ | exact Foot.all_hasReg _ | (subst_vars; decide) | ((try dsimp +zetaDelta only); split <;> first | decide | (split <;> first | decide | (split <;> decide)))))
    | ((with_reducible apply Within.foldl_snd); (case' hg => intro _ _ _))
    | ((with_reducible apply Within.foldl); (case' hg => intro _ _ _))
    | ((with_reducible apply Within.after (State.trimResult_within ..)); (case hle => decide))
    | ((with_reducible apply Within.after (State.gainWrite_within ..)); (case hle => decide))
    | ((with_reducible apply Within.after (Within.of_eq (State.gainWrite_within ..) ?e)); (case e => assumption); (case hle => decide))
    | (intro x
       have hx : Within (.of [.free, .tick, .core, .act, .latch, .irqs, .log, .pm, .events, .ecc, .bus] [.coreResvMirror, .almState, .almTrimStatus, .almStageFail, .almTrims, .eccStatus, .eccLastUe, .eccTrack, .eccCorr, .eccUe, .eccPoison, .eccTrackFull, .busStatus, .busGrants, .logState, .logEvbEntries, .logDropped, .logEvbLost, .logEntries, .sysIntSrc]) s x := by
         dsimp -zeta only [x]
         repeat' first
           | with_reducible assumption
           | with_reducible apply Within.refl
           | ((with_reducible apply Within.wr); (case hr => first | decide | exact Foot.allRegs_hasReg _ _ | exact Foot.all_hasReg _ | (subst_vars; decide) | ((try dsimp +zetaDelta only); split <;> first | decide | (split <;> first | decide | (split <;> decide)))))
           | ((with_reducible apply Within.countBy); (case hr => first | decide | exact Foot.allRegs_hasReg _ _ | exact Foot.all_hasReg _ | (subst_vars; decide) | ((try dsimp +zetaDelta only); split <;> first | decide | (split <;> first | decide | (split <;> decide)))))
           | ((with_reducible apply Within.count); (case hr => first | decide | exact Foot.allRegs_hasReg _ _ | exact Foot.all_hasReg _ | (subst_vars; decide) | ((try dsimp +zetaDelta only); split <;> first | decide | (split <;> first | decide | (split <;> decide)))))
           | ((with_reducible apply Within.foldl_snd); (case' hg => intro _ _ _))
           | ((with_reducible apply Within.foldl); (case' hg => intro _ _ _))
           | ((with_reducible apply Within.after (State.trimResult_within ..)); (case hle => decide))
           | ((with_reducible apply Within.after (State.gainWrite_within ..)); (case hle => decide))
           | ((with_reducible apply Within.after (Within.of_eq (State.gainWrite_within ..) ?e)); (case e => assumption); (case hle => decide))
           | with_reducible apply Within.ite
           | split
           | dsimp -zeta only
           | dsimp +zetaDelta only
       clear_value x)
    | intro x
    | lift_lets
    | with_reducible apply Within.ite
    | split
    | dsimp -zeta only
    | dsimp +zetaDelta only

end Sys2Proof.Machine
end

