-- ==== Sys2Proof/Laws/Footprint/Tim.lean ====
section
/-! SUPPORT. What each operation of Machine/Tim.lean may touch. -/

namespace Sys2Proof.Machine

theorem State.setRef_within (s : State) (i : Nat) (v : RefH) :
    Within (.of [.tim] []) s (State.setRef s i v) := by
  delta State.setRef
  repeat' first
    | with_reducible assumption
    | with_reducible apply Within.refl
    | with_reducible apply Within.ite
    | ((with_reducible apply Within.set_tim); (case hc => decide))
    | split
    | dsimp -zeta only

theorem State.setExch_within (s : State) (l : Nat) (v : ExchH) :
    Within (.of [.tim] []) s (State.setExch s l v) := by
  delta State.setExch
  repeat' first
    | with_reducible assumption
    | with_reducible apply Within.refl
    | with_reducible apply Within.ite
    | ((with_reducible apply Within.set_tim); (case hc => decide))
    | split
    | dsimp -zeta only

theorem State.refRestart_within (s : State) (i : Nat) :
    Within (.of [.tim] []) s (State.refRestart s i) := by
  delta State.refRestart
  repeat' first
    | with_reducible assumption
    | with_reducible apply Within.refl
    | ((with_reducible apply Within.after (State.setRef_within ..)); (case hle => decide))
    | (intro x
       have hx : Within (.of [.tim] []) s x := by
         dsimp -zeta only [x]
         repeat' first
           | with_reducible assumption
           | with_reducible apply Within.refl
           | ((with_reducible apply Within.after (State.setRef_within ..)); (case hle => decide))
           | with_reducible apply Within.ite
           | split
           | dsimp -zeta only
           | dsimp +zetaDelta only
       clear_value x)
    | intro x
    | lift_lets
    | with_reducible apply Within.ite
    | split
    | dsimp -zeta only
    | dsimp +zetaDelta only

theorem State.refFail_within (s : State) (i : Nat) :
    Within (.of [.act, .latch, .irqs, .log, .pm, .events, .bus] [.busStatus, .busGrants, .logState, .logEvbEntries, .logDropped, .logEvbLost, .logEntries, .sysIntSrc]) s (State.refFail s i) := by
  delta State.refFail
  repeat' first
    | with_reducible assumption
    | with_reducible apply Within.refl
    | ((with_reducible apply Within.when); (case' hg => intro _ _))
    | ((with_reducible apply Within.after (State.raise_within ..)); (case hle => decide))
    | with_reducible apply Within.ite
    | split
    | dsimp -zeta only

theorem State.refLose_within (s : State) (i : Nat) (cause : Nat) :
    Within (.of [.act, .latch, .irqs, .log, .pm, .events, .tim, .bus] [.timRefState, .timRefDisq, .busStatus, .busGrants, .logState, .logEvbEntries, .logDropped, .logEvbLost, .logEntries, .sysIntSrc]) s (State.refLose s i cause) := by
  delta State.refLose
  repeat' first
    | with_reducible assumption
    | with_reducible apply Within.refl
    | ((with_reducible apply Within.wr); (case hr => first | decide | exact Foot.allRegs_hasReg _ _ | exact Foot.all_hasReg _ | (subst_vars; decide) | ((try dsimp +zetaDelta only); split <;> first | decide | (split <;> first | decide | (split <;> decide)))))
    | ((with_reducible apply Within.setFlag); (case hr => first | decide | exact Foot.allRegs_hasReg _ _ | exact Foot.all_hasReg _ | (subst_vars; decide) | ((try dsimp +zetaDelta only); split <;> first | decide | (split <;> first | decide | (split <;> decide)))))
    | ((with_reducible apply Within.count); (case hr => first | decide | exact Foot.allRegs_hasReg _ _ | exact Foot.all_hasReg _ | (subst_vars; decide) | ((try dsimp +zetaDelta only); split <;> first | decide | (split <;> first | decide | (split <;> decide)))))
    | ((with_reducible apply Within.when); (case' hg => intro _ _))
    | ((with_reducible apply Within.after (State.refRestart_within ..)); (case hle => decide))
    | ((with_reducible apply Within.after (State.setRef_within ..)); (case hle => decide))
    | ((with_reducible apply Within.after (State.refFail_within ..)); (case hle => decide))
    | (intro x
       have hx : Within (.of [.act, .latch, .irqs, .log, .pm, .events, .tim, .bus] [.timRefState, .timRefDisq, .busStatus, .busGrants, .logState, .logEvbEntries, .logDropped, .logEvbLost, .logEntries, .sysIntSrc]) s x := by
         dsimp -zeta only [x]
         repeat' first
           | with_reducible assumption
           | with_reducible apply Within.refl
           | ((with_reducible apply Within.wr); (case hr => first | decide | exact Foot.allRegs_hasReg _ _ | exact Foot.all_hasReg _ | (subst_vars; decide) | ((try dsimp +zetaDelta only); split <;> first | decide | (split <;> first | decide | (split <;> decide)))))
           | ((with_reducible apply Within.setFlag); (case hr => first | decide | exact Foot.allRegs_hasReg _ _ | exact Foot.all_hasReg _ | (subst_vars; decide) | ((try dsimp +zetaDelta only); split <;> first | decide | (split <;> first | decide | (split <;> decide)))))
           | ((with_reducible apply Within.count); (case hr => first | decide | exact Foot.allRegs_hasReg _ _ | exact Foot.all_hasReg _ | (subst_vars; decide) | ((try dsimp +zetaDelta only); split <;> first | decide | (split <;> first | decide | (split <;> decide)))))
           | ((with_reducible apply Within.when); (case' hg => intro _ _))
           | ((with_reducible apply Within.after (State.refRestart_within ..)); (case hle => decide))
           | ((with_reducible apply Within.after (State.setRef_within ..)); (case hle => decide))
           | ((with_reducible apply Within.after (State.refFail_within ..)); (case hle => decide))
           | with_reducible apply Within.ite
           | split
           | dsimp -zeta only
           | dsimp +zetaDelta only
       clear_value x)
    | intro x
    | lift_lets
    | with_reducible apply Within.ite
    | split
    | dsimp -zeta only
    | dsimp +zetaDelta only

theorem State.refLimit_within (s : State) (i : Nat) :
    Within (.of [.act, .latch, .irqs, .log, .pm, .events, .tim, .bus] [.timRefState, .timRefDisq, .busStatus, .busGrants, .logState, .logEvbEntries, .logDropped, .logEvbLost, .logEntries, .sysIntSrc]) s (State.refLimit s i) := by
  delta State.refLimit
  repeat' first
    | with_reducible assumption
    | with_reducible apply Within.refl
    | ((with_reducible apply Within.when); (case' hg => intro _ _))
    | ((with_reducible apply Within.after (State.refLose_within ..)); (case hle => decide))
    | with_reducible apply Within.ite
    | split
    | dsimp -zeta only

theorem State.refFreqTake_within (s : State) (i : Nat) (r : Int) :
    Within (.of [.act, .latch, .irqs, .log, .pm, .events, .tim, .bus] [.timRefState, .timRefDisq, .busStatus, .busGrants, .logState, .logEvbEntries, .logDropped, .logEvbLost, .logEntries, .sysIntSrc]) s (State.refFreqTake s i r) := by
  delta State.refFreqTake
  repeat' first
    | with_reducible assumption
    | with_reducible apply Within.refl
    | ((with_reducible apply Within.wrS); (case hr => first | decide | exact Foot.allRegs_hasReg _ _ | exact Foot.all_hasReg _ | (subst_vars; decide) | ((try dsimp +zetaDelta only); split <;> first | decide | (split <;> first | decide | (split <;> decide)))))
    | ((with_reducible apply Within.after (State.refLimit_within ..)); (case hle => decide))
    | ((with_reducible apply Within.after (State.setRef_within ..)); (case hle => decide))
    | (intro x
       have hx : Within (.of [.act, .latch, .irqs, .log, .pm, .events, .tim, .bus] [.timRefState, .timRefDisq, .busStatus, .busGrants, .logState, .logEvbEntries, .logDropped, .logEvbLost, .logEntries, .sysIntSrc]) s x := by
         dsimp -zeta only [x]
         repeat' first
           | with_reducible assumption
           | with_reducible apply Within.refl
           | ((with_reducible apply Within.wrS); (case hr => first | decide | exact Foot.allRegs_hasReg _ _ | exact Foot.all_hasReg _ | (subst_vars; decide) | ((try dsimp +zetaDelta only); split <;> first | decide | (split <;> first | decide | (split <;> decide)))))
           | ((with_reducible apply Within.after (State.refLimit_within ..)); (case hle => decide))
           | ((with_reducible apply Within.after (State.setRef_within ..)); (case hle => decide))
           | with_reducible apply Within.ite
           | split
           | dsimp -zeta only
           | dsimp +zetaDelta only
       clear_value x)
    | intro x
    | lift_lets
    | with_reducible apply Within.ite
    | split
    | dsimp -zeta only
    | dsimp +zetaDelta only

theorem State.restoreSync_within (s : State) (i : Nat) :
    Within (.of [] [.timRefState]) s (State.restoreSync s i) := by
  delta State.restoreSync
  repeat' first
    | with_reducible assumption
    | with_reducible apply Within.refl
    | ((with_reducible apply Within.setFlag); (case hr => first | decide | exact Foot.allRegs_hasReg _ _ | exact Foot.all_hasReg _ | (subst_vars; decide) | ((try dsimp +zetaDelta only); split <;> first | decide | (split <;> first | decide | (split <;> decide)))))
    | (intro x
       have hx : Within (.of [] [.timRefState]) s x := by
         dsimp -zeta only [x]
         repeat' first
           | with_reducible assumption
           | with_reducible apply Within.refl
           | ((with_reducible apply Within.setFlag); (case hr => first | decide | exact Foot.allRegs_hasReg _ _ | exact Foot.all_hasReg _ | (subst_vars; decide) | ((try dsimp +zetaDelta only); split <;> first | decide | (split <;> first | decide | (split <;> decide)))))
           | with_reducible apply Within.ite
           | split
           | dsimp -zeta only
           | dsimp +zetaDelta only
       clear_value x)
    | intro x
    | lift_lets
    | with_reducible apply Within.ite
    | split
    | dsimp -zeta only
    | dsimp +zetaDelta only

theorem State.refReconf_within (s : State) (i : Nat) (old : Nat) :
    Within (.of [.act, .latch, .irqs, .log, .pm, .events, .tim, .bus] [.timRefState, .timRefDisq, .busStatus, .busGrants, .logState, .logEvbEntries, .logDropped, .logEvbLost, .logEntries, .sysIntSrc]) s (State.refReconf s i old) := by
  delta State.refReconf
  repeat' first
    | with_reducible assumption
    | with_reducible apply Within.refl
    | ((with_reducible apply Within.when); (case' hg => intro _ _))
    | ((with_reducible apply Within.after (State.refLose_within ..)); (case hle => decide))
    | ((with_reducible apply Within.after (State.setRef_within ..)); (case hle => decide))
    | ((with_reducible apply Within.after (State.restoreSync_within ..)); (case hle => decide))
    | ((with_reducible apply Within.after (State.refFail_within ..)); (case hle => decide))
    | (intro x
       have hx : Within (.of [.act, .latch, .irqs, .log, .pm, .events, .tim, .bus] [.timRefState, .timRefDisq, .busStatus, .busGrants, .logState, .logEvbEntries, .logDropped, .logEvbLost, .logEntries, .sysIntSrc]) s x := by
         dsimp -zeta only [x]
         repeat' first
           | with_reducible assumption
           | with_reducible apply Within.refl
           | ((with_reducible apply Within.when); (case' hg => intro _ _))
           | ((with_reducible apply Within.after (State.refLose_within ..)); (case hle => decide))
           | ((with_reducible apply Within.after (State.setRef_within ..)); (case hle => decide))
           | ((with_reducible apply Within.after (State.restoreSync_within ..)); (case hle => decide))
           | ((with_reducible apply Within.after (State.refFail_within ..)); (case hle => decide))
           | with_reducible apply Within.ite
           | split
           | dsimp -zeta only
           | dsimp +zetaDelta only
       clear_value x)
    | intro x
    | lift_lets
    | with_reducible apply Within.ite
    | split
    | dsimp -zeta only
    | dsimp +zetaDelta only

theorem State.refsSync_within (s : State) :
    Within (.of [.act, .latch, .irqs, .log, .pm, .events, .tim, .bus] [.timRefState, .timRefDisq, .busStatus, .busGrants, .logState, .logEvbEntries, .logDropped, .logEvbLost, .logEntries, .sysIntSrc]) s (State.refsSync s) := by
  delta State.refsSync
  repeat' first
    | with_reducible assumption
    | with_reducible apply Within.refl
    | ((with_reducible apply Within.eachN); (case' hg => intro _ _ _))
    | ((with_reducible apply Within.after (State.restoreSync_within ..)); (case hle => decide))
    | ((with_reducible apply Within.after (State.refLimit_within ..)); (case hle => decide))
    | with_reducible apply Within.ite
    | split
    | dsimp -zeta only

theorem State.refEvent_within (s : State) (i : Nat) (g : Int) :
    Within (.of [.act, .latch, .irqs, .log, .pm, .events, .tim, .bus] [.timRefState, .timRefDisq, .busStatus, .busGrants, .logState, .logEvbEntries, .logDropped, .logEvbLost, .logEntries, .sysIntSrc]) s (State.refEvent s i g) := by
  delta State.refEvent
  repeat' first
    | with_reducible assumption
    | with_reducible apply Within.refl
    | ((with_reducible apply Within.after (State.setRef_within ..)); (case hle => decide))
    | ((with_reducible apply Within.after (State.refLose_within ..)); (case hle => decide))
    | (intro x
       have hx : Within (.of [.act, .latch, .irqs, .log, .pm, .events, .tim, .bus] [.timRefState, .timRefDisq, .busStatus, .busGrants, .logState, .logEvbEntries, .logDropped, .logEvbLost, .logEntries, .sysIntSrc]) s x := by
         dsimp -zeta only [x]
         repeat' first
           | with_reducible assumption
           | with_reducible apply Within.refl
           | ((with_reducible apply Within.after (State.setRef_within ..)); (case hle => decide))
           | ((with_reducible apply Within.after (State.refLose_within ..)); (case hle => decide))
           | with_reducible apply Within.ite
           | split
           | dsimp -zeta only
           | dsimp +zetaDelta only
       clear_value x)
    | intro x
    | lift_lets
    | with_reducible apply Within.ite
    | split
    | dsimp -zeta only
    | dsimp +zetaDelta only

theorem State.refMissing_within (s : State) (i : Nat) :
    Within (.of [.act, .latch, .irqs, .log, .pm, .events, .tim, .bus] [.timRefState, .timRefDisq, .busStatus, .busGrants, .logState, .logEvbEntries, .logDropped, .logEvbLost, .logEntries, .sysIntSrc]) s (State.refMissing s i) := by
  delta State.refMissing
  repeat' first
    | with_reducible assumption
    | with_reducible apply Within.refl
    | ((with_reducible apply Within.after (State.refLose_within ..)); (case hle => decide))
    | ((with_reducible apply Within.after (State.setRef_within ..)); (case hle => decide))
    | (intro x
       have hx : Within (.of [.act, .latch, .irqs, .log, .pm, .events, .tim, .bus] [.timRefState, .timRefDisq, .busStatus, .busGrants, .logState, .logEvbEntries, .logDropped, .logEvbLost, .logEntries, .sysIntSrc]) s x := by
         dsimp -zeta only [x]
         repeat' first
           | with_reducible assumption
           | with_reducible apply Within.refl
           | ((with_reducible apply Within.after (State.refLose_within ..)); (case hle => decide))
           | ((with_reducible apply Within.after (State.setRef_within ..)); (case hle => decide))
           | with_reducible apply Within.ite
           | split
           | dsimp -zeta only
           | dsimp +zetaDelta only
       clear_value x)
    | intro x
    | lift_lets
    | with_reducible apply Within.ite
    | split
    | dsimp -zeta only
    | dsimp +zetaDelta only

theorem State.refQualify_within (s : State) (i : Nat) :
    Within (.of [.act, .irqs, .log, .pm, .events, .tim, .bus] [.timRefState, .busStatus, .busGrants, .logState, .logEvbEntries, .logDropped, .logEvbLost, .logEntries, .sysIntSrc]) s (State.refQualify s i) := by
  delta State.refQualify
  repeat' first
    | with_reducible assumption
    | with_reducible apply Within.refl
    | ((with_reducible apply Within.setFlag); (case hr => first | decide | exact Foot.allRegs_hasReg _ _ | exact Foot.all_hasReg _ | (subst_vars; decide) | ((try dsimp +zetaDelta only); split <;> first | decide | (split <;> first | decide | (split <;> decide)))))
    | ((with_reducible apply Within.after (State.clear_within ..)); (case hle => decide))
    | ((with_reducible apply Within.after (State.restoreSync_within ..)); (case hle => decide))
    | ((with_reducible apply Within.after (State.setRef_within ..)); (case hle => decide))
    | (intro x
       have hx : Within (.of [.act, .irqs, .log, .pm, .events, .tim, .bus] [.timRefState, .busStatus, .busGrants, .logState, .logEvbEntries, .logDropped, .logEvbLost, .logEntries, .sysIntSrc]) s x := by
         dsimp -zeta only [x]
         repeat' first
           | with_reducible assumption
           | with_reducible apply Within.refl
           | ((with_reducible apply Within.setFlag); (case hr => first | decide | exact Foot.allRegs_hasReg _ _ | exact Foot.all_hasReg _ | (subst_vars; decide) | ((try dsimp +zetaDelta only); split <;> first | decide | (split <;> first | decide | (split <;> decide)))))
           | ((with_reducible apply Within.after (State.clear_within ..)); (case hle => decide))
           | ((with_reducible apply Within.after (State.restoreSync_within ..)); (case hle => decide))
           | ((with_reducible apply Within.after (State.setRef_within ..)); (case hle => decide))
           | with_reducible apply Within.ite
           | split
           | dsimp -zeta only
           | dsimp +zetaDelta only
       clear_value x)
    | intro x
    | lift_lets
    | with_reducible apply Within.ite
    | split
    | dsimp -zeta only
    | dsimp +zetaDelta only

theorem State.linkPhase_within (s : State) (l : Nat) (g : Nat) :
    Within (.of [.tim] []) s (State.linkPhase s l g) := by
  delta State.linkPhase
  repeat' first
    | with_reducible assumption
    | with_reducible apply Within.refl
    | ((with_reducible apply Within.each); (case' hg => intro _ _ _))
    | ((with_reducible apply Within.after (State.setRef_within ..)); (case hle => decide))
    | (intro x
       have hx : Within (.of [.tim] []) s x := by
         dsimp -zeta only [x]
         repeat' first
           | with_reducible assumption
           | with_reducible apply Within.refl
           | ((with_reducible apply Within.each); (case' hg => intro _ _ _))
           | ((with_reducible apply Within.after (State.setRef_within ..)); (case hle => decide))
           | with_reducible apply Within.ite
           | split
           | dsimp -zeta only
           | dsimp +zetaDelta only
       clear_value x)
    | intro x
    | lift_lets
    | with_reducible apply Within.ite
    | split
    | dsimp -zeta only
    | dsimp +zetaDelta only

theorem State.linkRefLost_within (s : State) (l : Nat) :
    Within (.of [.act, .latch, .irqs, .log, .pm, .events, .tim, .bus] [.timRefState, .timRefDisq, .busStatus, .busGrants, .logState, .logEvbEntries, .logDropped, .logEvbLost, .logEntries, .sysIntSrc]) s (State.linkRefLost s l) := by
  delta State.linkRefLost
  repeat' first
    | with_reducible assumption
    | with_reducible apply Within.refl
    | ((with_reducible apply Within.each); (case' hg => intro _ _ _))
    | ((with_reducible apply Within.after (State.refLose_within ..)); (case hle => decide))
    | with_reducible apply Within.ite
    | split
    | dsimp -zeta only

theorem State.reportRefs_within (s : State) (l : Nat) :
    Within (.of [.act, .latch, .irqs, .log, .pm, .events, .tim, .bus] [.timRefState, .timRefDisq, .busStatus, .busGrants, .logState, .logEvbEntries, .logDropped, .logEvbLost, .logEntries, .sysIntSrc]) s (State.reportRefs s l) := by
  delta State.reportRefs
  repeat' first
    | with_reducible assumption
    | with_reducible apply Within.refl
    | ((with_reducible apply Within.when); (case' hg => intro _ _))
    | ((with_reducible apply Within.each); (case' hg => intro _ _ _))
    | ((with_reducible apply Within.after (State.refLose_within ..)); (case hle => decide))
    | with_reducible apply Within.ite
    | split
    | dsimp -zeta only

theorem State.setOffset_within (s : State) (v : Int) :
    Within (.of [.act, .latch, .irqs, .log, .pm, .events, .tim, .bus] [.timState, .timDco, .timDcoClamp, .busStatus, .busGrants, .logState, .logEvbEntries, .logDropped, .logEvbLost, .logEntries, .sysIntSrc]) s (State.setOffset s v) := by
  delta State.setOffset
  repeat' first
    | with_reducible assumption
    | with_reducible apply Within.refl
    | ((with_reducible apply Within.setFlag); (case hr => first | decide | exact Foot.allRegs_hasReg _ _ | exact Foot.all_hasReg _ | (subst_vars; decide) | ((try dsimp +zetaDelta only); split <;> first | decide | (split <;> first | decide | (split <;> decide)))))
    | ((with_reducible apply Within.wrS); (case hr => first | decide | exact Foot.allRegs_hasReg _ _ | exact Foot.all_hasReg _ | (subst_vars; decide) | ((try dsimp +zetaDelta only); split <;> first | decide | (split <;> first | decide | (split <;> decide)))))
    | ((with_reducible apply Within.count); (case hr => first | decide | exact Foot.allRegs_hasReg _ _ | exact Foot.all_hasReg _ | (subst_vars; decide) | ((try dsimp +zetaDelta only); split <;> first | decide | (split <;> first | decide | (split <;> decide)))))
    | ((with_reducible apply Within.after (State.raise_within ..)); (case hle => decide))
    | (intro x
       have hx : Within (.of [.act, .latch, .irqs, .log, .pm, .events, .tim, .bus] [.timState, .timDco, .timDcoClamp, .busStatus, .busGrants, .logState, .logEvbEntries, .logDropped, .logEvbLost, .logEntries, .sysIntSrc]) s x := by
         dsimp -zeta only [x]
         repeat' first
           | with_reducible assumption
           | with_reducible apply Within.refl
           | ((with_reducible apply Within.setFlag); (case hr => first | decide | exact Foot.allRegs_hasReg _ _ | exact Foot.all_hasReg _ | (subst_vars; decide) | ((try dsimp +zetaDelta only); split <;> first | decide | (split <;> first | decide | (split <;> decide)))))
           | ((with_reducible apply Within.wrS); (case hr => first | decide | exact Foot.allRegs_hasReg _ _ | exact Foot.all_hasReg _ | (subst_vars; decide) | ((try dsimp +zetaDelta only); split <;> first | decide | (split <;> first | decide | (split <;> decide)))))
           | ((with_reducible apply Within.count); (case hr => first | decide | exact Foot.allRegs_hasReg _ _ | exact Foot.all_hasReg _ | (subst_vars; decide) | ((try dsimp +zetaDelta only); split <;> first | decide | (split <;> first | decide | (split <;> decide)))))
           | ((with_reducible apply Within.after (State.raise_within ..)); (case hle => decide))
           | with_reducible apply Within.ite
           | ((with_reducible apply Within.set_tim); (case hc => decide))
           | split
           | dsimp -zeta only
           | dsimp +zetaDelta only
       clear_value x)
    | intro x
    | lift_lets
    | with_reducible apply Within.ite
    | ((with_reducible apply Within.set_tim); (case hc => decide))
    | split
    | dsimp -zeta only
    | dsimp +zetaDelta only

theorem State.enterT_within (s : State) (t : Nat) :
    Within (.of [.act, .latch, .irqs, .log, .pm, .events, .bus] [.timState, .timHoldoverEntry, .timFreerunEntry, .busStatus, .busGrants, .logState, .logEvbEntries, .logDropped, .logEvbLost, .logEntries, .sysIntSrc]) s (State.enterT s t) := by
  delta State.enterT
  repeat' first
    | with_reducible assumption
    | with_reducible apply Within.refl
    | ((with_reducible apply Within.wr); (case hr => first | decide | exact Foot.allRegs_hasReg _ _ | exact Foot.all_hasReg _ | (subst_vars; decide) | ((try dsimp +zetaDelta only); split <;> first | decide | (split <;> first | decide | (split <;> decide)))))
    | ((with_reducible apply Within.count); (case hr => first | decide | exact Foot.allRegs_hasReg _ _ | exact Foot.all_hasReg _ | (subst_vars; decide) | ((try dsimp +zetaDelta only); split <;> first | decide | (split <;> first | decide | (split <;> decide)))))
    | ((with_reducible apply Within.when); (case' hg => intro _ _))
    | ((with_reducible apply Within.after (State.raise_within ..)); (case hle => decide))
    | ((with_reducible apply Within.after (State.clear_within ..)); (case hle => decide))
    | (intro x
       have hx : Within (.of [.act, .latch, .irqs, .log, .pm, .events, .bus] [.timState, .timHoldoverEntry, .timFreerunEntry, .busStatus, .busGrants, .logState, .logEvbEntries, .logDropped, .logEvbLost, .logEntries, .sysIntSrc]) s x := by
         dsimp -zeta only [x]
         repeat' first
           | with_reducible assumption
           | with_reducible apply Within.refl
           | ((with_reducible apply Within.wr); (case hr => first | decide | exact Foot.allRegs_hasReg _ _ | exact Foot.all_hasReg _ | (subst_vars; decide) | ((try dsimp +zetaDelta only); split <;> first | decide | (split <;> first | decide | (split <;> decide)))))
           | ((with_reducible apply Within.count); (case hr => first | decide | exact Foot.allRegs_hasReg _ _ | exact Foot.all_hasReg _ | (subst_vars; decide) | ((try dsimp +zetaDelta only); split <;> first | decide | (split <;> first | decide | (split <;> decide)))))
           | ((with_reducible apply Within.when); (case' hg => intro _ _))
           | ((with_reducible apply Within.after (State.raise_within ..)); (case hle => decide))
           | ((with_reducible apply Within.after (State.clear_within ..)); (case hle => decide))
           | with_reducible apply Within.ite
           | split
           | dsimp -zeta only
           | dsimp +zetaDelta only
       clear_value x)
    | intro x
    | lift_lets
    | with_reducible apply Within.ite
    | split
    | dsimp -zeta only
    | dsimp +zetaDelta only

theorem State.enterIdle_within (s : State) (t : Nat) :
    Within (.of [.act, .latch, .irqs, .log, .pm, .events, .tim, .bus] [.timState, .timHoldoverEntry, .timFreerunEntry, .busStatus, .busGrants, .logState, .logEvbEntries, .logDropped, .logEvbLost, .logEntries, .sysIntSrc]) s (State.enterIdle s t) := by
  delta State.enterIdle
  repeat' first
    | with_reducible assumption
    | with_reducible apply Within.refl
    | ((with_reducible apply Within.after (State.enterT_within ..)); (case hle => decide))
    | with_reducible apply Within.ite
    | ((with_reducible apply Within.set_tim); (case hc => decide))
    | split
    | dsimp -zeta only

theorem State.loseSelection_within (s : State) :
    Within (.of [.act, .latch, .irqs, .log, .pm, .events, .tim, .bus] [.timState, .timHold, .timHoldoverEntry, .timFreerunEntry, .busStatus, .busGrants, .logState, .logEvbEntries, .logDropped, .logEvbLost, .logEntries, .sysIntSrc]) s (State.loseSelection s) := by
  delta State.loseSelection
  repeat' first
    | with_reducible assumption
    | with_reducible apply Within.refl
    | ((with_reducible apply Within.wr); (case hr => first | decide | exact Foot.allRegs_hasReg _ _ | exact Foot.all_hasReg _ | (subst_vars; decide) | ((try dsimp +zetaDelta only); split <;> first | decide | (split <;> first | decide | (split <;> decide)))))
    | ((with_reducible apply Within.wrS); (case hr => first | decide | exact Foot.allRegs_hasReg _ _ | exact Foot.all_hasReg _ | (subst_vars; decide) | ((try dsimp +zetaDelta only); split <;> first | decide | (split <;> first | decide | (split <;> decide)))))
    | ((with_reducible apply Within.after (State.enterIdle_within ..)); (case hle => decide))
    | (intro x
       have hx : Within (.of [.act, .latch, .irqs, .log, .pm, .events, .tim, .bus] [.timState, .timHold, .timHoldoverEntry, .timFreerunEntry, .busStatus, .busGrants, .logState, .logEvbEntries, .logDropped, .logEvbLost, .logEntries, .sysIntSrc]) s x := by
         dsimp -zeta only [x]
         repeat' first
           | with_reducible assumption
           | with_reducible apply Within.refl
           | ((with_reducible apply Within.wr); (case hr => first | decide | exact Foot.allRegs_hasReg _ _ | exact Foot.all_hasReg _ | (subst_vars; decide) | ((try dsimp +zetaDelta only); split <;> first | decide | (split <;> first | decide | (split <;> decide)))))
           | ((with_reducible apply Within.wrS); (case hr => first | decide | exact Foot.allRegs_hasReg _ _ | exact Foot.all_hasReg _ | (subst_vars; decide) | ((try dsimp +zetaDelta only); split <;> first | decide | (split <;> first | decide | (split <;> decide)))))
           | ((with_reducible apply Within.after (State.enterIdle_within ..)); (case hle => decide))
           | with_reducible apply Within.ite
           | split
           | dsimp -zeta only
           | dsimp +zetaDelta only
       clear_value x)
    | intro x
    | lift_lets
    | with_reducible apply Within.ite
    | split
    | dsimp -zeta only
    | dsimp +zetaDelta only

theorem State.loopRestart_within (s : State) (sel : Option Nat) :
    Within (.of [.tim] []) s (State.loopRestart s sel) := by
  delta State.loopRestart
  repeat' first
    | with_reducible assumption
    | with_reducible apply Within.refl
    | with_reducible apply Within.ite
    | split
    | dsimp -zeta only
    | ((with_reducible apply Within.set_tim); (case hc => decide))

theorem State.loopStep_within (s : State) (i : Nat) :
    Within (.of [.act, .latch, .irqs, .log, .pm, .events, .tim, .bus] [.timState, .timDco, .timDcoClamp, .busStatus, .busGrants, .logState, .logEvbEntries, .logDropped, .logEvbLost, .logEntries, .sysIntSrc]) s (State.loopStep s i) := by
  delta State.loopStep
  repeat' first
    | with_reducible assumption
    | with_reducible apply Within.refl
    | ((with_reducible apply Within.when); (case' hg => intro _ _))
    | ((with_reducible apply Within.after (State.setOffset_within ..)); (case hle => decide))
    | (intro x
       have hx : Within (.of [.act, .latch, .irqs, .log, .pm, .events, .tim, .bus] [.timState, .timDco, .timDcoClamp, .busStatus, .busGrants, .logState, .logEvbEntries, .logDropped, .logEvbLost, .logEntries, .sysIntSrc]) s x := by
         dsimp -zeta only [x]
         repeat' first
           | with_reducible assumption
           | with_reducible apply Within.refl
           | ((with_reducible apply Within.when); (case' hg => intro _ _))
           | ((with_reducible apply Within.after (State.setOffset_within ..)); (case hle => decide))
           | with_reducible apply Within.ite
           | split
           | dsimp -zeta only
           | dsimp +zetaDelta only
           | ((with_reducible apply Within.set_tim); (case hc => decide))
       clear_value x)
    | intro x
    | lift_lets
    | with_reducible apply Within.ite
    | split
    | dsimp -zeta only
    | dsimp +zetaDelta only
    | ((with_reducible apply Within.set_tim); (case hc => decide))

theorem State.slewStep_within (s : State) (base : Int) :
    Within (.of [.act, .latch, .irqs, .log, .pm, .events, .tim, .bus] [.timState, .timDco, .timDcoClamp, .busStatus, .busGrants, .logState, .logEvbEntries, .logDropped, .logEvbLost, .logEntries, .sysIntSrc]) s (State.slewStep s base) := by
  delta State.slewStep
  repeat' first
    | with_reducible assumption
    | with_reducible apply Within.refl
    | ((with_reducible apply Within.after (State.setOffset_within ..)); (case hle => decide))
    | (intro x
       have hx : Within (.of [.act, .latch, .irqs, .log, .pm, .events, .tim, .bus] [.timState, .timDco, .timDcoClamp, .busStatus, .busGrants, .logState, .logEvbEntries, .logDropped, .logEvbLost, .logEntries, .sysIntSrc]) s x := by
         dsimp -zeta only [x]
         repeat' first
           | with_reducible assumption
           | with_reducible apply Within.refl
           | ((with_reducible apply Within.after (State.setOffset_within ..)); (case hle => decide))
           | with_reducible apply Within.ite
           | ((with_reducible apply Within.set_tim); (case hc => decide))
           | split
           | dsimp -zeta only
           | dsimp +zetaDelta only
       clear_value x)
    | intro x
    | lift_lets
    | with_reducible apply Within.ite
    | ((with_reducible apply Within.set_tim); (case hc => decide))
    | split
    | dsimp -zeta only
    | dsimp +zetaDelta only

theorem State.dcoStep_within (s : State) :
    Within (.of [.act, .latch, .irqs, .log, .pm, .events, .tim, .bus] [.timState, .timDco, .timDcoClamp, .busStatus, .busGrants, .logState, .logEvbEntries, .logDropped, .logEvbLost, .logEntries, .sysIntSrc]) s (State.dcoStep s) := by
  delta State.dcoStep
  repeat' first
    | with_reducible assumption
    | with_reducible apply Within.refl
    | ((with_reducible apply Within.after (State.slewStep_within ..)); (case hle => decide))
    | ((with_reducible apply Within.after (State.setOffset_within ..)); (case hle => decide))
    | ((with_reducible apply Within.after (State.loopStep_within ..)); (case hle => decide))
    | with_reducible apply Within.ite
    | split
    | dsimp -zeta only
    | ((with_reducible apply Within.set_tim); (case hc => decide))

theorem State.timCommandDo_within (s : State) (op : Nat) (ref : Nat) :
    Within (.of [.act, .latch, .irqs, .log, .pm, .events, .tim, .bus] [.timState, .timHold, .timHoldoverEntry, .timFreerunEntry, .busStatus, .busGrants, .logState, .logEvbEntries, .logDropped, .logEvbLost, .logEntries, .sysIntSrc]) s (State.timCommandDo s op ref) := by
  delta State.timCommandDo
  repeat' first
    | with_reducible assumption
    | with_reducible apply Within.refl
    | ((with_reducible apply Within.setFlag); (case hr => first | decide | exact Foot.allRegs_hasReg _ _ | exact Foot.all_hasReg _ | (subst_vars; decide) | ((try dsimp +zetaDelta only); split <;> first | decide | (split <;> first | decide | (split <;> decide)))))
    | ((with_reducible apply Within.when); (case' hg => intro _ _))
    | ((with_reducible apply Within.after (State.loseSelection_within ..)); (case hle => decide))
    | ((with_reducible apply Within.after (State.setAlarm_within ..)); (case hle => decide))
    | (intro x
       have hx : Within (.of [.act, .latch, .irqs, .log, .pm, .events, .tim, .bus] [.timState, .timHold, .timHoldoverEntry, .timFreerunEntry, .busStatus, .busGrants, .logState, .logEvbEntries, .logDropped, .logEvbLost, .logEntries, .sysIntSrc]) s x := by
         dsimp -zeta only [x]
         repeat' first
           | with_reducible assumption
           | with_reducible apply Within.refl
           | ((with_reducible apply Within.setFlag); (case hr => first | decide | exact Foot.allRegs_hasReg _ _ | exact Foot.all_hasReg _ | (subst_vars; decide) | ((try dsimp +zetaDelta only); split <;> first | decide | (split <;> first | decide | (split <;> decide)))))
           | ((with_reducible apply Within.when); (case' hg => intro _ _))
           | ((with_reducible apply Within.after (State.loseSelection_within ..)); (case hle => decide))
           | ((with_reducible apply Within.after (State.setAlarm_within ..)); (case hle => decide))
           | with_reducible apply Within.ite
           | split
           | dsimp -zeta only
           | dsimp +zetaDelta only
           | ((with_reducible apply Within.set_tim); (case hc => decide))
       clear_value x)
    | intro x
    | lift_lets
    | with_reducible apply Within.ite
    | split
    | dsimp -zeta only
    | dsimp +zetaDelta only
    | ((with_reducible apply Within.set_tim); (case hc => decide))

theorem State.timCommand_within (s : State) :
    Within (.of [.act, .latch, .irqs, .log, .pm, .events, .tim, .bus] [.timState, .timHold, .timHoldoverEntry, .timFreerunEntry, .busStatus, .busGrants, .logState, .logEvbEntries, .logDropped, .logEvbLost, .logEntries, .sysIntSrc]) s (State.timCommand s) := by
  delta State.timCommand
  repeat' first
    | with_reducible assumption
    | with_reducible apply Within.refl
    | ((with_reducible apply Within.each); (case' hg => intro _ _ _))
    | ((with_reducible apply Within.after (State.timCommandDo_within ..)); (case hle => decide))
    | (intro x
       have hx : Within (.of [.act, .latch, .irqs, .log, .pm, .events, .tim, .bus] [.timState, .timHold, .timHoldoverEntry, .timFreerunEntry, .busStatus, .busGrants, .logState, .logEvbEntries, .logDropped, .logEvbLost, .logEntries, .sysIntSrc]) s x := by
         dsimp -zeta only [x]
         repeat' first
           | with_reducible assumption
           | with_reducible apply Within.refl
           | ((with_reducible apply Within.each); (case' hg => intro _ _ _))
           | ((with_reducible apply Within.after (State.timCommandDo_within ..)); (case hle => decide))
           | with_reducible apply Within.ite
           | ((with_reducible apply Within.set_tim); (case hc => decide))
           | split
           | dsimp -zeta only
           | dsimp +zetaDelta only
       clear_value x)
    | intro x
    | lift_lets
    | with_reducible apply Within.ite
    | ((with_reducible apply Within.set_tim); (case hc => decide))
    | split
    | dsimp -zeta only
    | dsimp +zetaDelta only

theorem State.disputeSync_within (s : State) (dispute : Bool) (best : List Nat) :
    Within (.of [.act, .latch, .irqs, .log, .pm, .events, .tim, .bus] [.timState, .timRefState, .timDisputes, .busStatus, .busGrants, .logState, .logEvbEntries, .logDropped, .logEvbLost, .logEntries, .sysIntSrc]) s (State.disputeSync s dispute best) := by
  delta State.disputeSync
  repeat' first
    | with_reducible assumption
    | with_reducible apply Within.refl
    | ((with_reducible apply Within.setFlag); (case hr => first | decide | exact Foot.allRegs_hasReg _ _ | exact Foot.all_hasReg _ | (subst_vars; decide) | ((try dsimp +zetaDelta only); split <;> first | decide | (split <;> first | decide | (split <;> decide)))))
    | ((with_reducible apply Within.count); (case hr => first | decide | exact Foot.allRegs_hasReg _ _ | exact Foot.all_hasReg _ | (subst_vars; decide) | ((try dsimp +zetaDelta only); split <;> first | decide | (split <;> first | decide | (split <;> decide)))))
    | ((with_reducible apply Within.eachN); (case' hg => intro _ _ _))
    | ((with_reducible apply Within.after (State.raise_within ..)); (case hle => decide))
    | ((with_reducible apply Within.after (State.clear_within ..)); (case hle => decide))
    | (intro x
       have hx : Within (.of [.act, .latch, .irqs, .log, .pm, .events, .tim, .bus] [.timState, .timRefState, .timDisputes, .busStatus, .busGrants, .logState, .logEvbEntries, .logDropped, .logEvbLost, .logEntries, .sysIntSrc]) s x := by
         dsimp -zeta only [x]
         repeat' first
           | with_reducible assumption
           | with_reducible apply Within.refl
           | ((with_reducible apply Within.setFlag); (case hr => first | decide | exact Foot.allRegs_hasReg _ _ | exact Foot.all_hasReg _ | (subst_vars; decide) | ((try dsimp +zetaDelta only); split <;> first | decide | (split <;> first | decide | (split <;> decide)))))
           | ((with_reducible apply Within.count); (case hr => first | decide | exact Foot.allRegs_hasReg _ _ | exact Foot.all_hasReg _ | (subst_vars; decide) | ((try dsimp +zetaDelta only); split <;> first | decide | (split <;> first | decide | (split <;> decide)))))
           | ((with_reducible apply Within.eachN); (case' hg => intro _ _ _))
           | ((with_reducible apply Within.after (State.raise_within ..)); (case hle => decide))
           | ((with_reducible apply Within.after (State.clear_within ..)); (case hle => decide))
           | with_reducible apply Within.ite
           | ((with_reducible apply Within.set_tim); (case hc => decide))
           | split
           | dsimp -zeta only
           | dsimp +zetaDelta only
       clear_value x)
    | intro x
    | lift_lets
    | with_reducible apply Within.ite
    | ((with_reducible apply Within.set_tim); (case hc => decide))
    | split
    | dsimp -zeta only
    | dsimp +zetaDelta only

theorem State.outStep_within (s : State) (k : Nat) :
    Within (.of [.tim] []) s (State.outStep s k) := by
  delta State.outStep
  repeat' first
    | with_reducible assumption
    | with_reducible apply Within.refl
    | (intro x
       have hx : Within (.of [.tim] []) s x := by
         dsimp -zeta only [x]
         repeat' first
           | with_reducible assumption
           | with_reducible apply Within.refl
           | with_reducible apply Within.ite
           | ((with_reducible apply Within.set_tim); (case hc => decide))
           | split
           | dsimp -zeta only
           | dsimp +zetaDelta only
       clear_value x)
    | intro x
    | lift_lets
    | with_reducible apply Within.ite
    | ((with_reducible apply Within.set_tim); (case hc => decide))
    | split
    | dsimp -zeta only
    | dsimp +zetaDelta only

theorem State.secondBegin_within (s : State) :
    Within (.of [.tim] []) s (State.secondBegin s) := by
  delta State.secondBegin
  repeat' first
    | with_reducible assumption
    | with_reducible apply Within.refl
    | ((with_reducible apply Within.eachN); (case' hg => intro _ _ _))
    | ((with_reducible apply Within.after (State.setRef_within ..)); (case hle => decide))
    | (intro x
       have hx : Within (.of [.tim] []) s x := by
         dsimp -zeta only [x]
         repeat' first
           | with_reducible assumption
           | with_reducible apply Within.refl
           | ((with_reducible apply Within.eachN); (case' hg => intro _ _ _))
           | ((with_reducible apply Within.after (State.setRef_within ..)); (case hle => decide))
           | with_reducible apply Within.ite
           | ((with_reducible apply Within.set_tim); (case hc => decide))
           | split
           | dsimp -zeta only
           | dsimp +zetaDelta only
       clear_value x)
    | intro x
    | lift_lets
    | with_reducible apply Within.ite
    | ((with_reducible apply Within.set_tim); (case hc => decide))
    | split
    | dsimp -zeta only
    | dsimp +zetaDelta only

theorem State.secondEnd_within (s : State) :
    Within (.of [.tim] []) s (State.secondEnd s) := by
  delta State.secondEnd
  repeat' first
    | with_reducible assumption
    | with_reducible apply Within.refl
    | ((with_reducible apply Within.after (State.secondBegin_within ..)); (case hle => decide))
    | (intro x
       have hx : Within (.of [.tim] []) s x := by
         dsimp -zeta only [x]
         repeat' first
           | with_reducible assumption
           | with_reducible apply Within.refl
           | ((with_reducible apply Within.after (State.secondBegin_within ..)); (case hle => decide))
           | with_reducible apply Within.ite
           | ((with_reducible apply Within.set_tim); (case hc => decide))
           | split
           | dsimp -zeta only
           | dsimp +zetaDelta only
       clear_value x)
    | intro x
    | lift_lets
    | with_reducible apply Within.ite
    | ((with_reducible apply Within.set_tim); (case hc => decide))
    | split
    | dsimp -zeta only
    | dsimp +zetaDelta only

theorem State.secondTick_within (s : State) :
    Within (.of [.tim] []) s (State.secondTick s) := by
  delta State.secondTick
  repeat' first
    | with_reducible assumption
    | with_reducible apply Within.refl
    | ((with_reducible apply Within.after (State.setRef_within ..)); (case hle => decide))
    | (intro x
       have hx : Within (.of [.tim] []) s x := by
         dsimp -zeta only [x]
         repeat' first
           | with_reducible assumption
           | with_reducible apply Within.refl
           | ((with_reducible apply Within.after (State.setRef_within ..)); (case hle => decide))
           | with_reducible apply Within.ite
           | split
           | dsimp -zeta only
           | dsimp +zetaDelta only
           | ((with_reducible apply Within.set_tim); (case hc => decide))
       clear_value x)
    | intro x
    | lift_lets
    | with_reducible apply Within.ite
    | split
    | dsimp -zeta only
    | dsimp +zetaDelta only
    | ((with_reducible apply Within.set_tim); (case hc => decide))

theorem State.timState_within (s : State) (changed : Bool) (sel : Option Nat) :
    Within (.of [.act, .latch, .irqs, .log, .pm, .events, .tim, .bus] [.timState, .timHold, .timHoldoverEntry, .timFreerunEntry, .busStatus, .busGrants, .logState, .logEvbEntries, .logDropped, .logEvbLost, .logEntries, .sysIntSrc]) s (State.timState s changed sel) := by
  delta State.timState
  repeat' first
    | with_reducible assumption
    | with_reducible apply Within.refl
    | ((with_reducible apply Within.after (State.enterT_within ..)); (case hle => decide))
    | ((with_reducible apply Within.after (State.loseSelection_within ..)); (case hle => decide))
    | (intro x
       have hx : Within (.of [.act, .latch, .irqs, .log, .pm, .events, .tim, .bus] [.timState, .timHold, .timHoldoverEntry, .timFreerunEntry, .busStatus, .busGrants, .logState, .logEvbEntries, .logDropped, .logEvbLost, .logEntries, .sysIntSrc]) s x := by
         dsimp -zeta only [x]
         repeat' first
           | with_reducible assumption
           | with_reducible apply Within.refl
           | ((with_reducible apply Within.after (State.enterT_within ..)); (case hle => decide))
           | ((with_reducible apply Within.after (State.loseSelection_within ..)); (case hle => decide))
           | with_reducible apply Within.ite
           | split
           | dsimp -zeta only
           | dsimp +zetaDelta only
       clear_value x)
    | intro x
    | lift_lets
    | with_reducible apply Within.ite
    | split
    | dsimp -zeta only
    | dsimp +zetaDelta only

theorem State.timEdge_within (s : State) (linkFreq : List (Nat × Int)) :
    Within (.of [.act, .latch, .irqs, .log, .pm, .events, .tim, .bus] [.timState, .timRefState, .timPhase, .timDco, .timHold, .timSwitches, .timHoldoverEntry, .timFreerunEntry, .timDisputes, .timDcoClamp, .timRefDisq, .busStatus, .busGrants, .logState, .logEvbEntries, .logDropped, .logEvbLost, .logEntries, .sysIntSrc]) s (State.timEdge s linkFreq) := by
  delta State.timEdge
  repeat' first
    | with_reducible assumption
    | with_reducible apply Within.refl
    | ((with_reducible apply Within.wr); (case hr => first | decide | exact Foot.allRegs_hasReg _ _ | exact Foot.all_hasReg _ | (subst_vars; decide) | ((try dsimp +zetaDelta only); split <;> first | decide | (split <;> first | decide | (split <;> decide)))))
    | ((with_reducible apply Within.setFlag); (case hr => first | decide | exact Foot.allRegs_hasReg _ _ | exact Foot.all_hasReg _ | (subst_vars; decide) | ((try dsimp +zetaDelta only); split <;> first | decide | (split <;> first | decide | (split <;> decide)))))
    | ((with_reducible apply Within.wrS); (case hr => first | decide | exact Foot.allRegs_hasReg _ _ | exact Foot.all_hasReg _ | (subst_vars; decide) | ((try dsimp +zetaDelta only); split <;> first | decide | (split <;> first | decide | (split <;> decide)))))
    | ((with_reducible apply Within.count); (case hr => first | decide | exact Foot.allRegs_hasReg _ _ | exact Foot.all_hasReg _ | (subst_vars; decide) | ((try dsimp +zetaDelta only); split <;> first | decide | (split <;> first | decide | (split <;> decide)))))
    | ((with_reducible apply Within.when); (case' hg => intro _ _))
    | ((with_reducible apply Within.each); (case' hg => intro _ _ _))
    | ((with_reducible apply Within.eachN); (case' hg => intro _ _ _))
    | ((with_reducible apply Within.after (State.timCommand_within ..)); (case hle => decide))
    | ((with_reducible apply Within.after (State.secondEnd_within ..)); (case hle => decide))
    | ((with_reducible apply Within.after (State.refFreqTake_within ..)); (case hle => decide))
    | ((with_reducible apply Within.after (State.reportRefs_within ..)); (case hle => decide))
    | ((with_reducible apply Within.after (State.setRef_within ..)); (case hle => decide))
    | ((with_reducible apply Within.after (State.disputeSync_within ..)); (case hle => decide))
    | ((with_reducible apply Within.after (State.loopRestart_within ..)); (case hle => decide))
    | ((with_reducible apply Within.after (State.secondTick_within ..)); (case hle => decide))
    | ((with_reducible apply Within.after (State.dcoStep_within ..)); (case hle => decide))
    | ((with_reducible apply Within.after (State.timState_within ..)); (case hle => decide))
    | ((with_reducible apply Within.after (State.outStep_within ..)); (case hle => decide))
    | (intro x
       have hx : Within (.of [.act, .latch, .irqs, .log, .pm, .events, .tim, .bus] [.timState, .timRefState, .timPhase, .timDco, .timHold, .timSwitches, .timHoldoverEntry, .timFreerunEntry, .timDisputes, .timDcoClamp, .timRefDisq, .busStatus, .busGrants, .logState, .logEvbEntries, .logDropped, .logEvbLost, .logEntries, .sysIntSrc]) s x := by
         dsimp -zeta only [x]
         repeat' first
           | with_reducible assumption
           | with_reducible apply Within.refl
           | ((with_reducible apply Within.wr); (case hr => first | decide | exact Foot.allRegs_hasReg _ _ | exact Foot.all_hasReg _ | (subst_vars; decide) | ((try dsimp +zetaDelta only); split <;> first | decide | (split <;> first | decide | (split <;> decide)))))
           | ((with_reducible apply Within.setFlag); (case hr => first | decide | exact Foot.allRegs_hasReg _ _ | exact Foot.all_hasReg _ | (subst_vars; decide) | ((try dsimp +zetaDelta only); split <;> first | decide | (split <;> first | decide | (split <;> decide)))))
           | ((with_reducible apply Within.wrS); (case hr => first | decide | exact Foot.allRegs_hasReg _ _ | exact Foot.all_hasReg _ | (subst_vars; decide) | ((try dsimp +zetaDelta only); split <;> first | decide | (split <;> first | decide | (split <;> decide)))))
           | ((with_reducible apply Within.count); (case hr => first | decide | exact Foot.allRegs_hasReg _ _ | exact Foot.all_hasReg _ | (subst_vars; decide) | ((try dsimp +zetaDelta only); split <;> first | decide | (split <;> first | decide | (split <;> decide)))))
           | ((with_reducible apply Within.when); (case' hg => intro _ _))
           | ((with_reducible apply Within.each); (case' hg => intro _ _ _))
           | ((with_reducible apply Within.eachN); (case' hg => intro _ _ _))
           | ((with_reducible apply Within.after (State.timCommand_within ..)); (case hle => decide))
           | ((with_reducible apply Within.after (State.secondEnd_within ..)); (case hle => decide))
           | ((with_reducible apply Within.after (State.refFreqTake_within ..)); (case hle => decide))
           | ((with_reducible apply Within.after (State.reportRefs_within ..)); (case hle => decide))
           | ((with_reducible apply Within.after (State.setRef_within ..)); (case hle => decide))
           | ((with_reducible apply Within.after (State.disputeSync_within ..)); (case hle => decide))
           | ((with_reducible apply Within.after (State.loopRestart_within ..)); (case hle => decide))
           | ((with_reducible apply Within.after (State.secondTick_within ..)); (case hle => decide))
           | ((with_reducible apply Within.after (State.dcoStep_within ..)); (case hle => decide))
           | ((with_reducible apply Within.after (State.timState_within ..)); (case hle => decide))
           | ((with_reducible apply Within.after (State.outStep_within ..)); (case hle => decide))
           | with_reducible apply Within.ite
           | split
           | dsimp -zeta only
           | dsimp +zetaDelta only
           | ((with_reducible apply Within.set_tim); (case hc => decide))
       clear_value x)
    | intro x
    | lift_lets
    | with_reducible apply Within.ite
    | split
    | dsimp -zeta only
    | dsimp +zetaDelta only
    | ((with_reducible apply Within.set_tim); (case hc => decide))

theorem State.timingMessage_within (s : State) (l : Nat) (stamp : Nat) (g : Nat) (txPhase : Nat) (body : List Byte) :
    Within (.of [.tim] []) s (State.timingMessage s l stamp g txPhase body) := by
  delta State.timingMessage
  repeat' first
    | with_reducible assumption
    | with_reducible apply Within.refl
    | ((with_reducible apply Within.after (State.setExch_within ..)); (case hle => decide))
    | (intro x
       have hx : Within (.of [.tim] []) s x := by
         dsimp -zeta only [x]
         repeat' first
           | with_reducible assumption
           | with_reducible apply Within.refl
           | ((with_reducible apply Within.after (State.setExch_within ..)); (case hle => decide))
           | with_reducible apply Within.ite
           | split
           | dsimp -zeta only
           | dsimp +zetaDelta only
       clear_value x)
    | intro x
    | lift_lets
    | with_reducible apply Within.ite
    | split
    | dsimp -zeta only
    | dsimp +zetaDelta only

theorem State.timingSent_within (s : State) (l : Nat) (stamp : Nat) (phi : Nat) :
    Within (.of [.tim] []) s (State.timingSent s l stamp phi) := by
  delta State.timingSent
  repeat' first
    | with_reducible assumption
    | with_reducible apply Within.refl
    | ((with_reducible apply Within.after (State.setExch_within ..)); (case hle => decide))
    | (intro x
       have hx : Within (.of [.tim] []) s x := by
         dsimp -zeta only [x]
         repeat' first
           | with_reducible assumption
           | with_reducible apply Within.refl
           | ((with_reducible apply Within.after (State.setExch_within ..)); (case hle => decide))
           | with_reducible apply Within.ite
           | split
           | dsimp -zeta only
           | dsimp +zetaDelta only
       clear_value x)
    | intro x
    | lift_lets
    | with_reducible apply Within.ite
    | split
    | dsimp -zeta only
    | dsimp +zetaDelta only

theorem State.adoptCheck_within (s : State) (num : Nat) (psi : Int) :
    Within (.of [.act, .latch, .irqs, .log, .pm, .events, .tim, .bus] [.timState, .busStatus, .busGrants, .logState, .logEvbEntries, .logDropped, .logEvbLost, .logEntries, .sysIntSrc]) s (State.adoptCheck s num psi) := by
  have step : ∀ (x : State) (a b : Prop) [Decidable a] [Decidable b] (fl : Field) (al : Nat), fl.reg = .timState →
      Within (Foot.of [.act, .latch, .irqs, .log, .pm, .events, .tim, .bus] [.timState, .busStatus, .busGrants, .logState, .logEvbEntries, .logDropped, .logEvbLost, .logEntries, .sysIntSrc]) s x →
      Within (Foot.of [.act, .latch, .irqs, .log, .pm, .events, .tim, .bus] [.timState, .busStatus, .busGrants, .logState, .logEvbEntries, .logDropped, .logEvbLost, .logEntries, .sysIntSrc]) s (if a then (x.setFlag fl 0 true).raise al 0 else if b then (x.setFlag fl 0 false).clear al 0 else x) := by
    intro x a b _ _ fl al hf h
    split
    · exact .after (State.raise_within ..) (h.setFlag _ _ _ (by rw [hf]; decide)) (by decide)
    · split
      · exact .after (State.clear_within ..) (h.setFlag _ _ _ (by rw [hf]; decide)) (by decide)
      · exact h
  exact step _ _ _ _ _ rfl (Within.set_tim (step _ _ _ _ _ rfl ((Within.refl _ s).set_tim (by decide))) (by decide))

theorem State.setHops_within (s : State) (hops : Nat) :
    Within (.of [] [.timState]) s (State.setHops s hops) := by
  delta State.setHops
  repeat' first
    | with_reducible assumption
    | with_reducible apply Within.refl
    | ((with_reducible apply Within.wr); (case hr => first | decide | exact Foot.allRegs_hasReg _ _ | exact Foot.all_hasReg _ | (subst_vars; decide) | ((try dsimp +zetaDelta only); split <;> first | decide | (split <;> first | decide | (split <;> decide)))))
    | with_reducible apply Within.ite
    | split
    | dsimp -zeta only

theorem State.adoptResult_within (s : State) (num : Nat) (psi : Int) (numbered : Bool) (hops : Nat) :
    Within (.of [.act, .latch, .irqs, .log, .pm, .events, .tim, .bus] [.timState, .busStatus, .busGrants, .logState, .logEvbEntries, .logDropped, .logEvbLost, .logEntries, .sysIntSrc]) s (State.adoptResult s num psi numbered hops) := by
  delta State.adoptResult
  repeat' first
    | with_reducible assumption
    | with_reducible apply Within.refl
    | ((with_reducible apply Within.after (State.adoptCheck_within ..)); (case hle => decide))
    | ((with_reducible apply Within.after (State.setHops_within ..)); (case hle => decide))
    | (intro x
       have hx : Within (.of [.act, .latch, .irqs, .log, .pm, .events, .tim, .bus] [.timState, .busStatus, .busGrants, .logState, .logEvbEntries, .logDropped, .logEvbLost, .logEntries, .sysIntSrc]) s x := by
         dsimp -zeta only [x]
         repeat' first
           | with_reducible assumption
           | with_reducible apply Within.refl
           | ((with_reducible apply Within.after (State.adoptCheck_within ..)); (case hle => decide))
           | ((with_reducible apply Within.after (State.setHops_within ..)); (case hle => decide))
           | with_reducible apply Within.ite
           | ((with_reducible apply Within.set_tim); (case hc => decide))
           | split
           | dsimp -zeta only
           | dsimp +zetaDelta only
       clear_value x)
    | intro x
    | lift_lets
    | with_reducible apply Within.ite
    | ((with_reducible apply Within.set_tim); (case hc => decide))
    | split
    | dsimp -zeta only
    | dsimp +zetaDelta only

theorem State.setNumbered_within (s : State) :
    Within (.of [.act, .irqs, .log, .pm, .events, .bus] [.timState, .busStatus, .busGrants, .logState, .logEvbEntries, .logDropped, .logEvbLost, .logEntries, .sysIntSrc]) s (State.setNumbered s) := by
  delta State.setNumbered
  repeat' first
    | with_reducible assumption
    | with_reducible apply Within.refl
    | ((with_reducible apply Within.setFlag); (case hr => first | decide | exact Foot.allRegs_hasReg _ _ | exact Foot.all_hasReg _ | (subst_vars; decide) | ((try dsimp +zetaDelta only); split <;> first | decide | (split <;> first | decide | (split <;> decide)))))
    | ((with_reducible apply Within.after (State.clear_within ..)); (case hle => decide))
    | with_reducible apply Within.ite
    | split
    | dsimp -zeta only

theorem State.renumber_within (s : State) (num : Nat) :
    Within (.of [.prot, .tim] [.timTick]) s (State.renumber s num) := by
  delta State.renumber
  repeat' first
    | with_reducible assumption
    | with_reducible apply Within.refl
    | ((with_reducible apply Within.wr); (case hr => first | decide | exact Foot.allRegs_hasReg _ _ | exact Foot.all_hasReg _ | (subst_vars; decide) | ((try dsimp +zetaDelta only); split <;> first | decide | (split <;> first | decide | (split <;> decide)))))
    | ((with_reducible apply Within.after (State.sdWindowCut_within ..)); (case hle => decide))
    | ((with_reducible apply Within.after (State.secondTick_within ..)); (case hle => decide))
    | ((with_reducible apply Within.after (State.secondBegin_within ..)); (case hle => decide))
    | (intro x
       have hx : Within (.of [.prot, .tim] [.timTick]) s x := by
         dsimp -zeta only [x]
         repeat' first
           | with_reducible assumption
           | with_reducible apply Within.refl
           | ((with_reducible apply Within.wr); (case hr => first | decide | exact Foot.allRegs_hasReg _ _ | exact Foot.all_hasReg _ | (subst_vars; decide) | ((try dsimp +zetaDelta only); split <;> first | decide | (split <;> first | decide | (split <;> decide)))))
           | ((with_reducible apply Within.after (State.sdWindowCut_within ..)); (case hle => decide))
           | ((with_reducible apply Within.after (State.secondTick_within ..)); (case hle => decide))
           | ((with_reducible apply Within.after (State.secondBegin_within ..)); (case hle => decide))
           | with_reducible apply Within.ite
           | split
           | dsimp -zeta only
           | dsimp +zetaDelta only
       clear_value x)
    | intro x
    | lift_lets
    | with_reducible apply Within.ite
    | split
    | dsimp -zeta only
    | dsimp +zetaDelta only

end Sys2Proof.Machine
end

