-- ==== Sys2Proof/Laws/Footprint/Groups.lean ====
section
/-! SUPPORT. What each operation of Machine/Groups.lean may touch. -/

namespace Sys2Proof.Machine

theorem State.groupCmd_within (s : State) (m : Master) (g : Nat) (cmd : Nat) :
    Within (.of [.prot, .act, .latch, .irqs, .log, .pm, .events, .mate, .bus] [.protGroupCmd, .protGroupState, .protCmdRefused, .mateUnmirrored, .busStatus, .busErrLast, .busErrResp, .busDefault, .busGrants, .logState, .logEvbEntries, .logDropped, .logEvbLost, .logEntries, .sysIntSrc]) s (State.groupCmd s m g cmd) := by
  delta State.groupCmd
  repeat' first
    | with_reducible assumption
    | with_reducible apply Within.refl
    | ((with_reducible apply Within.after (State.protCommand_within ..)); (case hle => decide))
    | with_reducible apply Within.ite
    | split
    | dsimp -zeta only

theorem State.sfMove_within (s : State) (g : Nat) (c : Copy) :
    Within (.of [] [.protGroupState]) s (State.sfMove s g c) := by
  delta State.sfMove
  repeat' first
    | with_reducible assumption
    | with_reducible apply Within.refl
    | ((with_reducible apply Within.setFlag); (case hr => first | decide | exact Foot.allRegs_hasReg _ _ | exact Foot.all_hasReg _ | (subst_vars; decide) | ((try dsimp +zetaDelta only); split <;> first | decide | (split <;> first | decide | (split <;> decide)))))
    | (intro x
       have hx : Within (.of [] [.protGroupState]) s x := by
         dsimp -zeta only [x]
         repeat' first
           | with_reducible assumption
           | with_reducible apply Within.refl
           | ((with_reducible apply Within.setFlag); (case hr => first | decide | exact Foot.allRegs_hasReg _ _ | exact Foot.all_hasReg _ | (subst_vars; decide) | ((try dsimp +zetaDelta only); split <;> first | decide | (split <;> first | decide | (split <;> decide)))))
           | with_reducible apply Within.ite
           | split
           | dsimp -zeta only
           | dsimp +zetaDelta only
       clear_value x)
    | intro x
    | lift_lets
    | with_reducible apply Within.ite
    | split
    | dsimp -zeta only
    | dsimp +zetaDelta only

theorem State.sfJudge_within (s : State) (g : Nat) :
    Within (.of [.prot, .act, .latch, .irqs, .log, .pm, .events, .bus] [.protGroupState, .busStatus, .busGrants, .logState, .logEvbEntries, .logDropped, .logEvbLost, .logEntries, .sysIntSrc]) s (State.sfJudge s g) := by
  delta State.sfJudge
  repeat' first
    | with_reducible assumption
    | with_reducible apply Within.refl
    | ((with_reducible apply Within.after (State.protRenote_within ..)); (case hle => decide))
    | ((with_reducible apply Within.after (State.protAlarms_within ..)); (case hle => decide))
    | ((with_reducible apply Within.after (State.wtrSync_within ..)); (case hle => decide))
    | ((with_reducible apply Within.after (State.sfMove_within ..)); (case hle => decide))
    | with_reducible apply Within.ite
    | split
    | dsimp -zeta only

theorem State.sdJudge_within (s : State) (len : Nat) (g : Nat) :
    Within (.of [.prot, .act, .latch, .irqs, .log, .pm, .events, .bus] [.protGroupState, .busStatus, .busGrants, .logState, .logEvbEntries, .logDropped, .logEvbLost, .logEntries, .sysIntSrc]) s (State.sdJudge s len g) := by
  delta State.sdJudge
  repeat' first
    | with_reducible assumption
    | with_reducible apply Within.refl
    | ((with_reducible apply Within.setFlag); (case hr => first | decide | exact Foot.allRegs_hasReg _ _ | exact Foot.all_hasReg _ | (subst_vars; decide) | ((try dsimp +zetaDelta only); split <;> first | decide | (split <;> first | decide | (split <;> decide)))))
    | ((with_reducible apply Within.after (State.setGroup_within ..)); (case hle => decide))
    | ((with_reducible apply Within.after (State.protRenote_within ..)); (case hle => decide))
    | ((with_reducible apply Within.after (State.protAlarms_within ..)); (case hle => decide))
    | ((with_reducible apply Within.after (State.wtrSync_within ..)); (case hle => decide))
    | (intro x
       have hx : Within (.of [.prot, .act, .latch, .irqs, .log, .pm, .events, .bus] [.protGroupState, .busStatus, .busGrants, .logState, .logEvbEntries, .logDropped, .logEvbLost, .logEntries, .sysIntSrc]) s x := by
         dsimp -zeta only [x]
         repeat' first
           | with_reducible assumption
           | with_reducible apply Within.refl
           | ((with_reducible apply Within.setFlag); (case hr => first | decide | exact Foot.allRegs_hasReg _ _ | exact Foot.all_hasReg _ | (subst_vars; decide) | ((try dsimp +zetaDelta only); split <;> first | decide | (split <;> first | decide | (split <;> decide)))))
           | ((with_reducible apply Within.after (State.setGroup_within ..)); (case hle => decide))
           | ((with_reducible apply Within.after (State.protRenote_within ..)); (case hle => decide))
           | ((with_reducible apply Within.after (State.protAlarms_within ..)); (case hle => decide))
           | ((with_reducible apply Within.after (State.wtrSync_within ..)); (case hle => decide))
           | with_reducible apply Within.ite
           | split
           | dsimp -zeta only
           | dsimp +zetaDelta only
       clear_value x)
    | intro x
    | lift_lets
    | with_reducible apply Within.ite
    | split
    | dsimp -zeta only
    | dsimp +zetaDelta only

theorem execProtCmdClear_within (m : Master) (g : GroupId) (s : State) (s' : State)
    (h : execProtCmdClear m g s = .next s') :
    Within (.of [.prot, .act, .latch, .irqs, .log, .pm, .events, .mate, .bus] [.protGroupCmd, .protGroupState, .protCmdRefused, .mateUnmirrored, .busStatus, .busErrLast, .busErrResp, .busDefault, .busSplits, .busGrants, .logState, .logEvbEntries, .logDropped, .logEvbLost, .logEntries, .sysIntSrc]) s s' := by
  delta execProtCmdClear at h
  injection h with h
  subst h
  repeat' first
    | with_reducible assumption
    | with_reducible apply Within.refl
    | ((with_reducible apply Within.byReg); (case hp => decide); (case hm => decide); (case he => decide); (case' hg => intro _ _))
    | ((with_reducible apply Within.after (State.groupCmd_within ..)); (case hle => decide))
    | with_reducible apply Within.ite
    | split
    | dsimp -zeta only

theorem execProtCmdManualP_within (m : Master) (g : GroupId) (s : State) (s' : State)
    (h : execProtCmdManualP m g s = .next s') :
    Within (.of [.prot, .act, .latch, .irqs, .log, .pm, .events, .mate, .bus] [.protGroupCmd, .protGroupState, .protCmdRefused, .mateUnmirrored, .busStatus, .busErrLast, .busErrResp, .busDefault, .busSplits, .busGrants, .logState, .logEvbEntries, .logDropped, .logEvbLost, .logEntries, .sysIntSrc]) s s' := by
  delta execProtCmdManualP at h
  injection h with h
  subst h
  repeat' first
    | with_reducible assumption
    | with_reducible apply Within.refl
    | ((with_reducible apply Within.byReg); (case hp => decide); (case hm => decide); (case he => decide); (case' hg => intro _ _))
    | ((with_reducible apply Within.after (State.groupCmd_within ..)); (case hle => decide))
    | with_reducible apply Within.ite
    | split
    | dsimp -zeta only

theorem execProtCmdManualS_within (m : Master) (g : GroupId) (s : State) (s' : State)
    (h : execProtCmdManualS m g s = .next s') :
    Within (.of [.prot, .act, .latch, .irqs, .log, .pm, .events, .mate, .bus] [.protGroupCmd, .protGroupState, .protCmdRefused, .mateUnmirrored, .busStatus, .busErrLast, .busErrResp, .busDefault, .busSplits, .busGrants, .logState, .logEvbEntries, .logDropped, .logEvbLost, .logEntries, .sysIntSrc]) s s' := by
  delta execProtCmdManualS at h
  injection h with h
  subst h
  repeat' first
    | with_reducible assumption
    | with_reducible apply Within.refl
    | ((with_reducible apply Within.byReg); (case hp => decide); (case hm => decide); (case he => decide); (case' hg => intro _ _))
    | ((with_reducible apply Within.after (State.groupCmd_within ..)); (case hle => decide))
    | with_reducible apply Within.ite
    | split
    | dsimp -zeta only

theorem execProtCmdForceP_within (m : Master) (g : GroupId) (s : State) (s' : State)
    (h : execProtCmdForceP m g s = .next s') :
    Within (.of [.prot, .act, .latch, .irqs, .log, .pm, .events, .mate, .bus] [.protGroupCmd, .protGroupState, .protCmdRefused, .mateUnmirrored, .busStatus, .busErrLast, .busErrResp, .busDefault, .busSplits, .busGrants, .logState, .logEvbEntries, .logDropped, .logEvbLost, .logEntries, .sysIntSrc]) s s' := by
  delta execProtCmdForceP at h
  injection h with h
  subst h
  repeat' first
    | with_reducible assumption
    | with_reducible apply Within.refl
    | ((with_reducible apply Within.byReg); (case hp => decide); (case hm => decide); (case he => decide); (case' hg => intro _ _))
    | ((with_reducible apply Within.after (State.groupCmd_within ..)); (case hle => decide))
    | with_reducible apply Within.ite
    | split
    | dsimp -zeta only

theorem execProtCmdForceS_within (m : Master) (g : GroupId) (s : State) (s' : State)
    (h : execProtCmdForceS m g s = .next s') :
    Within (.of [.prot, .act, .latch, .irqs, .log, .pm, .events, .mate, .bus] [.protGroupCmd, .protGroupState, .protCmdRefused, .mateUnmirrored, .busStatus, .busErrLast, .busErrResp, .busDefault, .busSplits, .busGrants, .logState, .logEvbEntries, .logDropped, .logEvbLost, .logEntries, .sysIntSrc]) s s' := by
  delta execProtCmdForceS at h
  injection h with h
  subst h
  repeat' first
    | with_reducible assumption
    | with_reducible apply Within.refl
    | ((with_reducible apply Within.byReg); (case hp => decide); (case hm => decide); (case he => decide); (case' hg => intro _ _))
    | ((with_reducible apply Within.after (State.groupCmd_within ..)); (case hle => decide))
    | with_reducible apply Within.ite
    | split
    | dsimp -zeta only

theorem execProtCmdLockout_within (m : Master) (g : GroupId) (s : State) (s' : State)
    (h : execProtCmdLockout m g s = .next s') :
    Within (.of [.prot, .act, .latch, .irqs, .log, .pm, .events, .mate, .bus] [.protGroupCmd, .protGroupState, .protCmdRefused, .mateUnmirrored, .busStatus, .busErrLast, .busErrResp, .busDefault, .busSplits, .busGrants, .logState, .logEvbEntries, .logDropped, .logEvbLost, .logEntries, .sysIntSrc]) s s' := by
  delta execProtCmdLockout at h
  injection h with h
  subst h
  repeat' first
    | with_reducible assumption
    | with_reducible apply Within.refl
    | ((with_reducible apply Within.byReg); (case hp => decide); (case hm => decide); (case he => decide); (case' hg => intro _ _))
    | ((with_reducible apply Within.after (State.groupCmd_within ..)); (case hle => decide))
    | with_reducible apply Within.ite
    | split
    | dsimp -zeta only

theorem execProtCfgWrite_within (m : Master) (g : GroupId) (value : BitVec 64) (s : State) (s' : State)
    (h : execProtCfgWrite m g value s = .next s') :
    Within (.of [.prot, .act, .latch, .irqs, .log, .pm, .events, .mate, .bus] [.protGroupCfg, .protGroupCmd, .protGroupState, .protCmdRefused, .mateUnmirrored, .busStatus, .busErrLast, .busErrResp, .busDefault, .busSplits, .busGrants, .logState, .logEvbEntries, .logDropped, .logEvbLost, .logEntries, .sysIntSrc]) s s' := by
  delta execProtCfgWrite at h
  injection h with h
  subst h
  repeat' first
    | with_reducible assumption
    | with_reducible apply Within.refl
    | ((with_reducible apply Within.byReg); (case hp => decide); (case hm => decide); (case he => decide); (case' hg => intro _ _))
    | ((with_reducible apply Within.cfgWrite); (case he => decide); (case hm => decide); (case hu => decide); (case hr => first | decide | exact Foot.allRegs_hasReg _ _ | exact Foot.all_hasReg _ | (subst_vars; decide) | ((try dsimp +zetaDelta only); split <;> first | decide | (split <;> first | decide | (split <;> decide)))); (case' hg => intro _ _))
    | ((with_reducible apply Within.after (State.protCfg_within ..)); (case hle => decide))
    | with_reducible apply Within.ite
    | split
    | dsimp -zeta only

theorem execProtSfEntry_within (g : GroupId) (c : Copy) (s : State) (s' : State)
    (h : execProtSfEntry g c s = .next s') :
    Within (.of [.tick, .prot, .act, .latch, .irqs, .log, .pm, .events, .bus] [.protGroupState, .busStatus, .busGrants, .logState, .logEvbEntries, .logDropped, .logEvbLost, .logEntries, .sysIntSrc]) s s' := by
  delta execProtSfEntry at h
  injection h with h
  subst h
  repeat' first
    | with_reducible assumption
    | with_reducible apply Within.refl
    | ((with_reducible apply Within.when); (case' hg => intro _ _))
    | ((with_reducible apply Within.atEnd); (case hc => decide); (case' hg => intro _ _))
    | ((with_reducible apply Within.after (State.sfJudge_within ..)); (case hle => decide))
    | with_reducible apply Within.ite
    | split
    | dsimp -zeta only

theorem execProtSfExit_within (g : GroupId) (c : Copy) (s : State) (s' : State)
    (h : execProtSfExit g c s = .next s') :
    Within (.of [.tick, .prot, .act, .latch, .irqs, .log, .pm, .events, .bus] [.protGroupState, .busStatus, .busGrants, .logState, .logEvbEntries, .logDropped, .logEvbLost, .logEntries, .sysIntSrc]) s s' := by
  delta execProtSfExit at h
  injection h with h
  subst h
  repeat' first
    | with_reducible assumption
    | with_reducible apply Within.refl
    | ((with_reducible apply Within.when); (case' hg => intro _ _))
    | ((with_reducible apply Within.atEnd); (case hc => decide); (case' hg => intro _ _))
    | ((with_reducible apply Within.after (State.sfJudge_within ..)); (case hle => decide))
    | with_reducible apply Within.ite
    | split
    | dsimp -zeta only

theorem execProtSdWindowEnd_within (s : State) (s' : State)
    (h : execProtSdWindowEnd s = .next s') :
    Within (.of [.tick, .prot, .act, .latch, .irqs, .log, .pm, .events, .bus] [.protGroupState, .busStatus, .busGrants, .logState, .logEvbEntries, .logDropped, .logEvbLost, .logEntries, .sysIntSrc]) s s' := by
  delta execProtSdWindowEnd at h
  injection h with h
  subst h
  repeat' first
    | with_reducible assumption
    | with_reducible apply Within.refl
    | ((with_reducible apply Within.when); (case' hg => intro _ _))
    | ((with_reducible apply Within.atEnd); (case hc => decide); (case' hg => intro _ _))
    | ((with_reducible apply Within.eachN); (case' hg => intro _ _ _))
    | ((with_reducible apply Within.after (State.sdJudge_within ..)); (case hle => decide))
    | (intro x
       have hx : Within (.of [.tick, .prot, .act, .latch, .irqs, .log, .pm, .events, .bus] [.protGroupState, .busStatus, .busGrants, .logState, .logEvbEntries, .logDropped, .logEvbLost, .logEntries, .sysIntSrc]) s x := by
         dsimp -zeta only [x]
         repeat' first
           | with_reducible assumption
           | with_reducible apply Within.refl
           | ((with_reducible apply Within.when); (case' hg => intro _ _))
           | ((with_reducible apply Within.atEnd); (case hc => decide); (case' hg => intro _ _))
           | ((with_reducible apply Within.eachN); (case' hg => intro _ _ _))
           | ((with_reducible apply Within.after (State.sdJudge_within ..)); (case hle => decide))
           | with_reducible apply Within.ite
           | ((with_reducible apply Within.set_prot); (case hc => decide))
           | split
           | dsimp -zeta only
           | dsimp +zetaDelta only
       clear_value x)
    | intro x
    | lift_lets
    | with_reducible apply Within.ite
    | ((with_reducible apply Within.set_prot); (case hc => decide))
    | split
    | dsimp -zeta only
    | dsimp +zetaDelta only

theorem execProtWtrEnd_within (g : GroupId) (s : State) (s' : State)
    (h : execProtWtrEnd g s = .next s') :
    Within (.of [.tick, .prot, .act, .latch, .irqs, .log, .pm, .events, .bus] [.protGroupState, .busStatus, .busGrants, .logState, .logEvbEntries, .logDropped, .logEvbLost, .logEntries, .sysIntSrc]) s s' := by
  delta execProtWtrEnd at h
  injection h with h
  subst h
  repeat' first
    | with_reducible assumption
    | with_reducible apply Within.refl
    | ((with_reducible apply Within.setFlag); (case hr => first | decide | exact Foot.allRegs_hasReg _ _ | exact Foot.all_hasReg _ | (subst_vars; decide) | ((try dsimp +zetaDelta only); split <;> first | decide | (split <;> first | decide | (split <;> decide)))))
    | ((with_reducible apply Within.when); (case' hg => intro _ _))
    | ((with_reducible apply Within.atEnd); (case hc => decide); (case' hg => intro _ _))
    | ((with_reducible apply Within.after (State.protRenote_within ..)); (case hle => decide))
    | ((with_reducible apply Within.after (State.protAlarms_within ..)); (case hle => decide))
    | ((with_reducible apply Within.after (State.wtrLeft_within ..)); (case hle => decide))
    | with_reducible apply Within.ite
    | split
    | dsimp -zeta only

theorem execProtMisalignedRaise_within (g : GroupId) (s : State) (s' : State)
    (h : execProtMisalignedRaise g s = .next s') :
    Within (.of [.tick, .act, .latch, .irqs, .log, .pm, .events, .bus] [.protGroupState, .busStatus, .busGrants, .logState, .logEvbEntries, .logDropped, .logEvbLost, .logEntries, .sysIntSrc]) s s' := by
  delta execProtMisalignedRaise at h
  injection h with h
  subst h
  repeat' first
    | with_reducible assumption
    | with_reducible apply Within.refl
    | ((with_reducible apply Within.setFlag); (case hr => first | decide | exact Foot.allRegs_hasReg _ _ | exact Foot.all_hasReg _ | (subst_vars; decide) | ((try dsimp +zetaDelta only); split <;> first | decide | (split <;> first | decide | (split <;> decide)))))
    | ((with_reducible apply Within.when); (case' hg => intro _ _))
    | ((with_reducible apply Within.atEnd); (case hc => decide); (case' hg => intro _ _))
    | ((with_reducible apply Within.after (State.raise_within ..)); (case hle => decide))
    | with_reducible apply Within.ite
    | split
    | dsimp -zeta only

theorem execProtMisalignedClear_within (g : GroupId) (s : State) (s' : State)
    (h : execProtMisalignedClear g s = .next s') :
    Within (.of [.tick, .act, .irqs, .log, .pm, .events, .bus] [.protGroupState, .busStatus, .busGrants, .logState, .logEvbEntries, .logDropped, .logEvbLost, .logEntries, .sysIntSrc]) s s' := by
  delta execProtMisalignedClear at h
  injection h with h
  subst h
  repeat' first
    | with_reducible assumption
    | with_reducible apply Within.refl
    | ((with_reducible apply Within.setFlag); (case hr => first | decide | exact Foot.allRegs_hasReg _ _ | exact Foot.all_hasReg _ | (subst_vars; decide) | ((try dsimp +zetaDelta only); split <;> first | decide | (split <;> first | decide | (split <;> decide)))))
    | ((with_reducible apply Within.when); (case' hg => intro _ _))
    | ((with_reducible apply Within.atEnd); (case hc => decide); (case' hg => intro _ _))
    | ((with_reducible apply Within.after (State.clear_within ..)); (case hle => decide))
    | with_reducible apply Within.ite
    | split
    | dsimp -zeta only

theorem execProtRxFreshExpire_within (bridge : Bool) (i : GroupId) (leg : Copy) (s : State) (s' : State)
    (h : execProtRxFreshExpire bridge i leg s = .next s') :
    Within (.of [.act, .latch, .irqs, .log, .pm, .events, .bus] [.protRxGroup, .protRxBridge, .busStatus, .busGrants, .logState, .logEvbEntries, .logDropped, .logEvbLost, .logEntries, .sysIntSrc]) s s' := by
  delta execProtRxFreshExpire at h
  try dsimp only at h
  injection h with h
  subst h
  repeat' first
    | with_reducible assumption
    | with_reducible apply Within.refl
    | ((with_reducible apply Within.setWord); (case hr => first | decide | exact Foot.allRegs_hasReg _ _ | exact Foot.all_hasReg _ | (subst_vars; decide) | ((try dsimp +zetaDelta only); split <;> first | decide | (split <;> first | decide | (split <;> decide)))))
    | ((with_reducible apply Within.when); (case' hg => intro _ _))
    | ((with_reducible apply Within.after (State.protRxAlarms_within ..)); (case hle => decide))
    | (intro x
       have hx : Within (.of [.act, .latch, .irqs, .log, .pm, .events, .bus] [.protRxGroup, .protRxBridge, .busStatus, .busGrants, .logState, .logEvbEntries, .logDropped, .logEvbLost, .logEntries, .sysIntSrc]) s x := by
         dsimp -zeta only [x]
         repeat' first
           | with_reducible assumption
           | with_reducible apply Within.refl
           | ((with_reducible apply Within.setWord); (case hr => first | decide | exact Foot.allRegs_hasReg _ _ | exact Foot.all_hasReg _ | (subst_vars; decide) | ((try dsimp +zetaDelta only); split <;> first | decide | (split <;> first | decide | (split <;> decide)))))
           | ((with_reducible apply Within.when); (case' hg => intro _ _))
           | ((with_reducible apply Within.after (State.protRxAlarms_within ..)); (case hle => decide))
           | with_reducible apply Within.ite
           | split
           | dsimp -zeta only
           | dsimp +zetaDelta only
       clear_value x)
    | intro x
    | lift_lets
    | with_reducible apply Within.ite
    | split
    | dsimp -zeta only
    | dsimp +zetaDelta only

end Sys2Proof.Machine
end

