-- ==== Sys2Proof/Laws/Footprint/Rx.lean ====
section
/-! SUPPORT. What each operation of Machine/Rx.lean may touch. -/

namespace Sys2Proof.Machine

theorem State.rdiExit_within (s : State) (l : Nat) :
    Within (.of [.links, .act, .irqs, .log, .pm, .events, .bus] [.linkState, .busStatus, .busGrants, .logState, .logEvbEntries, .logDropped, .logEvbLost, .logEntries, .sysIntSrc]) s (State.rdiExit s l) := by
  delta State.rdiExit
  repeat' first
    | with_reducible assumption
    | with_reducible apply Within.refl
    | ((with_reducible apply Within.setFlag); (case hr => first | decide | exact Foot.allRegs_hasReg _ _ | exact Foot.all_hasReg _ | (subst_vars; decide) | ((try dsimp +zetaDelta only); split <;> first | decide | (split <;> first | decide | (split <;> decide)))))
    | ((with_reducible apply Within.after (State.clear_within ..)); (case hle => decide))
    | ((with_reducible apply Within.after (State.setRx_within ..)); (case hle => decide))
    | (intro x
       have hx : Within (.of [.links, .act, .irqs, .log, .pm, .events, .bus] [.linkState, .busStatus, .busGrants, .logState, .logEvbEntries, .logDropped, .logEvbLost, .logEntries, .sysIntSrc]) s x := by
         dsimp -zeta only [x]
         repeat' first
           | with_reducible assumption
           | with_reducible apply Within.refl
           | ((with_reducible apply Within.setFlag); (case hr => first | decide | exact Foot.allRegs_hasReg _ _ | exact Foot.all_hasReg _ | (subst_vars; decide) | ((try dsimp +zetaDelta only); split <;> first | decide | (split <;> first | decide | (split <;> decide)))))
           | ((with_reducible apply Within.after (State.clear_within ..)); (case hle => decide))
           | ((with_reducible apply Within.after (State.setRx_within ..)); (case hle => decide))
           | with_reducible apply Within.ite
           | split
           | dsimp -zeta only
           | dsimp +zetaDelta only
       clear_value x)
    | intro x
    | lift_lets
    | with_reducible apply Within.ite
    | split
    | dsimp -zeta only
    | dsimp +zetaDelta only

theorem State.lofExit_within (s : State) (l : Nat) :
    Within (.of [.act, .irqs, .log, .pm, .events, .bus] [.linkState, .busStatus, .busGrants, .logState, .logEvbEntries, .logDropped, .logEvbLost, .logEntries, .sysIntSrc]) s (State.lofExit s l) := by
  delta State.lofExit
  repeat' first
    | with_reducible assumption
    | with_reducible apply Within.refl
    | ((with_reducible apply Within.setFlag); (case hr => first | decide | exact Foot.allRegs_hasReg _ _ | exact Foot.all_hasReg _ | (subst_vars; decide) | ((try dsimp +zetaDelta only); split <;> first | decide | (split <;> first | decide | (split <;> decide)))))
    | ((with_reducible apply Within.after (State.clear_within ..)); (case hle => decide))
    | with_reducible apply Within.ite
    | split
    | dsimp -zeta only

theorem State.discordExit_within (s : State) (l : Nat) :
    Within (.of [.act, .irqs, .log, .pm, .events, .bus] [.linkState, .busStatus, .busGrants, .logState, .logEvbEntries, .logDropped, .logEvbLost, .logEntries, .sysIntSrc]) s (State.discordExit s l) := by
  delta State.discordExit
  repeat' first
    | with_reducible assumption
    | with_reducible apply Within.refl
    | ((with_reducible apply Within.setFlag); (case hr => first | decide | exact Foot.allRegs_hasReg _ _ | exact Foot.all_hasReg _ | (subst_vars; decide) | ((try dsimp +zetaDelta only); split <;> first | decide | (split <;> first | decide | (split <;> decide)))))
    | ((with_reducible apply Within.after (State.clear_within ..)); (case hle => decide))
    | with_reducible apply Within.ite
    | split
    | dsimp -zeta only

theorem State.typeErrExit_within (s : State) (l : Nat) :
    Within (.of [.act, .irqs, .log, .pm, .events, .bus] [.linkState, .busStatus, .busGrants, .logState, .logEvbEntries, .logDropped, .logEvbLost, .logEntries, .sysIntSrc]) s (State.typeErrExit s l) := by
  delta State.typeErrExit
  repeat' first
    | with_reducible assumption
    | with_reducible apply Within.refl
    | ((with_reducible apply Within.setFlag); (case hr => first | decide | exact Foot.allRegs_hasReg _ _ | exact Foot.all_hasReg _ | (subst_vars; decide) | ((try dsimp +zetaDelta only); split <;> first | decide | (split <;> first | decide | (split <;> decide)))))
    | ((with_reducible apply Within.after (State.clear_within ..)); (case hle => decide))
    | with_reducible apply Within.ite
    | split
    | dsimp -zeta only

theorem State.errTick_within (s : State) (l : Nat) (bad : Bool) :
    Within (.of [.links] []) s (State.errTick s l bad) := by
  delta State.errTick
  repeat' first
    | with_reducible assumption
    | with_reducible apply Within.refl
    | ((with_reducible apply Within.after (State.setRx_within ..)); (case hle => decide))
    | (intro x
       have hx : Within (.of [.links] []) s x := by
         dsimp -zeta only [x]
         repeat' first
           | with_reducible assumption
           | with_reducible apply Within.refl
           | ((with_reducible apply Within.after (State.setRx_within ..)); (case hle => decide))
           | with_reducible apply Within.ite
           | split
           | dsimp -zeta only
           | dsimp +zetaDelta only
       clear_value x)
    | intro x
    | lift_lets
    | with_reducible apply Within.ite
    | split
    | dsimp -zeta only
    | dsimp +zetaDelta only

theorem State.countVerdict_within (s : State) (l : Nat) (v : Nat) :
    Within (.of [.links] [.linkState, .linkFramesGood, .linkFramesDoubtful, .linkFramesBad, .linkFramesAbsent]) s (State.countVerdict s l v) := by
  delta State.countVerdict
  repeat' first
    | with_reducible assumption
    | with_reducible apply Within.refl
    | ((with_reducible apply Within.wr); (case hr => first | decide | exact Foot.allRegs_hasReg _ _ | exact Foot.all_hasReg _ | (subst_vars; decide) | ((try dsimp +zetaDelta only); split <;> first | decide | (split <;> first | decide | (split <;> decide)))))
    | ((with_reducible apply Within.count); (case hr => first | decide | exact Foot.allRegs_hasReg _ _ | exact Foot.all_hasReg _ | (subst_vars; decide) | ((try dsimp +zetaDelta only); split <;> first | decide | (split <;> first | decide | (split <;> decide)))))
    | ((with_reducible apply Within.after (State.errTick_within ..)); (case hle => decide))
    | with_reducible apply Within.ite
    | split
    | dsimp -zeta only

theorem State.mateUnusable_within (s : State) (n : Nat) :
    Within (.of [.mate] [.mateFrameUnusable]) s (State.mateUnusable s n) := by
  delta State.mateUnusable
  repeat' first
    | with_reducible assumption
    | with_reducible apply Within.refl
    | ((with_reducible apply Within.countBy); (case hr => first | decide | exact Foot.allRegs_hasReg _ _ | exact Foot.all_hasReg _ | (subst_vars; decide) | ((try dsimp +zetaDelta only); split <;> first | decide | (split <;> first | decide | (split <;> decide)))))
    | (intro x
       have hx : Within (.of [.mate] [.mateFrameUnusable]) s x := by
         dsimp -zeta only [x]
         repeat' first
           | with_reducible assumption
           | with_reducible apply Within.refl
           | ((with_reducible apply Within.countBy); (case hr => first | decide | exact Foot.allRegs_hasReg _ _ | exact Foot.all_hasReg _ | (subst_vars; decide) | ((try dsimp +zetaDelta only); split <;> first | decide | (split <;> first | decide | (split <;> decide)))))
           | with_reducible apply Within.ite
           | ((with_reducible apply Within.set_mate); (case hc => decide))
           | split
           | dsimp -zeta only
           | dsimp +zetaDelta only
       clear_value x)
    | intro x
    | lift_lets
    | with_reducible apply Within.ite
    | ((with_reducible apply Within.set_mate); (case hc => decide))
    | split
    | dsimp -zeta only
    | dsimp +zetaDelta only

theorem State.formVerdict_within (s : State) (l : Nat) (next : List Block) (t16 : Nat) :
    Within (.of [.links, .lag, .act, .latch, .irqs, .log, .pm, .events, .hbm, .mate, .bus] [.linkState, .linkFramesGood, .linkFramesDoubtful, .linkFramesBad, .linkFramesAbsent, .linkPayCrcErr, .lagArrLast, .lagArrMax, .lagArrMin, .lagLinkState, .lagLate, .lagMarginLow, .mateFrameUnusable, .busStatus, .busGrants, .logState, .logEvbEntries, .logDropped, .logEvbLost, .logEntries, .sysIntSrc]) s (State.formVerdict s l next t16) := by
  delta State.formVerdict
  repeat' first
    | with_reducible assumption
    | with_reducible apply Within.refl
    | ((with_reducible apply Within.count); (case hr => first | decide | exact Foot.allRegs_hasReg _ _ | exact Foot.all_hasReg _ | (subst_vars; decide) | ((try dsimp +zetaDelta only); split <;> first | decide | (split <;> first | decide | (split <;> decide)))))
    | ((with_reducible apply Within.when); (case' hg => intro _ _))
    | ((with_reducible apply Within.after (State.setRx_within ..)); (case hle => decide))
    | ((with_reducible apply Within.after (State.countVerdict_within ..)); (case hle => decide))
    | ((with_reducible apply Within.after (State.setTx_within ..)); (case hle => decide))
    | ((with_reducible apply Within.after (State.lagVerdict_within ..)); (case hle => decide))
    | ((with_reducible apply Within.after (State.lagMeasureA_within ..)); (case hle => decide))
    | ((with_reducible apply Within.after (State.lagCut_within ..)); (case hle => decide))
    | ((with_reducible apply Within.after (State.mateUnusable_within ..)); (case hle => decide))
    | (intro x
       have hx : Within (.of [.links, .lag, .act, .latch, .irqs, .log, .pm, .events, .hbm, .mate, .bus] [.linkState, .linkFramesGood, .linkFramesDoubtful, .linkFramesBad, .linkFramesAbsent, .linkPayCrcErr, .lagArrLast, .lagArrMax, .lagArrMin, .lagLinkState, .lagLate, .lagMarginLow, .mateFrameUnusable, .busStatus, .busGrants, .logState, .logEvbEntries, .logDropped, .logEvbLost, .logEntries, .sysIntSrc]) s x := by
         dsimp -zeta only [x]
         repeat' first
           | with_reducible assumption
           | with_reducible apply Within.refl
           | ((with_reducible apply Within.count); (case hr => first | decide | exact Foot.allRegs_hasReg _ _ | exact Foot.all_hasReg _ | (subst_vars; decide) | ((try dsimp +zetaDelta only); split <;> first | decide | (split <;> first | decide | (split <;> decide)))))
           | ((with_reducible apply Within.when); (case' hg => intro _ _))
           | ((with_reducible apply Within.after (State.setRx_within ..)); (case hle => decide))
           | ((with_reducible apply Within.after (State.countVerdict_within ..)); (case hle => decide))
           | ((with_reducible apply Within.after (State.setTx_within ..)); (case hle => decide))
           | ((with_reducible apply Within.after (State.lagVerdict_within ..)); (case hle => decide))
           | ((with_reducible apply Within.after (State.lagMeasureA_within ..)); (case hle => decide))
           | ((with_reducible apply Within.after (State.lagCut_within ..)); (case hle => decide))
           | ((with_reducible apply Within.after (State.mateUnusable_within ..)); (case hle => decide))
           | with_reducible apply Within.ite
           | split
           | dsimp -zeta only
           | dsimp +zetaDelta only
           | ((with_reducible apply Within.set_mate); (case hc => decide))
       clear_value x)
    | intro x
    | lift_lets
    | with_reducible apply Within.ite
    | split
    | dsimp -zeta only
    | dsimp +zetaDelta only
    | ((with_reducible apply Within.set_mate); (case hc => decide))

theorem State.disqualify_within (s : State) (l : Nat) :
    Within (.of [.lanes] []) s (State.disqualify s l) := by
  delta State.disqualify
  repeat' first
    | with_reducible assumption
    | with_reducible apply Within.refl
    | ((with_reducible apply Within.after (State.setLane_within ..)); (case hle => decide))
    | with_reducible apply Within.ite
    | split
    | dsimp -zeta only

theorem State.loseSync_within (s : State) (l : Nat) (t16 : Nat) :
    Within (.of [.lanes, .links, .lag, .act, .latch, .irqs, .log, .pm, .events, .hbm, .mate, .tim, .bus] [.laneState, .linkState, .linkFramesGood, .linkFramesDoubtful, .linkFramesBad, .linkFramesAbsent, .linkPayCrcErr, .linkOofEntry, .lagArrLast, .lagArrMax, .lagArrMin, .lagLinkState, .lagLate, .lagMarginLow, .timRefState, .timRefDisq, .mateFrameUnusable, .busStatus, .busGrants, .logState, .logEvbEntries, .logDropped, .logEvbLost, .logEntries, .sysIntSrc]) s (State.loseSync s l t16) := by
  delta State.loseSync
  repeat' first
    | with_reducible assumption
    | with_reducible apply Within.refl
    | ((with_reducible apply Within.wr); (case hr => first | decide | exact Foot.allRegs_hasReg _ _ | exact Foot.all_hasReg _ | (subst_vars; decide) | ((try dsimp +zetaDelta only); split <;> first | decide | (split <;> first | decide | (split <;> decide)))))
    | ((with_reducible apply Within.setFlag); (case hr => first | decide | exact Foot.allRegs_hasReg _ _ | exact Foot.all_hasReg _ | (subst_vars; decide) | ((try dsimp +zetaDelta only); split <;> first | decide | (split <;> first | decide | (split <;> decide)))))
    | ((with_reducible apply Within.count); (case hr => first | decide | exact Foot.allRegs_hasReg _ _ | exact Foot.all_hasReg _ | (subst_vars; decide) | ((try dsimp +zetaDelta only); split <;> first | decide | (split <;> first | decide | (split <;> decide)))))
    | ((with_reducible apply Within.setLaneBit); (case hr => first | decide | exact Foot.allRegs_hasReg _ _ | exact Foot.all_hasReg _ | (subst_vars; decide) | ((try dsimp +zetaDelta only); split <;> first | decide | (split <;> first | decide | (split <;> decide)))))
    | ((with_reducible apply Within.after (State.disqualify_within ..)); (case hle => decide))
    | ((with_reducible apply Within.after (State.formVerdict_within ..)); (case hle => decide))
    | ((with_reducible apply Within.after (State.setRx_within ..)); (case hle => decide))
    | ((with_reducible apply Within.after (State.linkRefLost_within ..)); (case hle => decide))
    | ((with_reducible apply Within.after (State.rdiExit_within ..)); (case hle => decide))
    | (intro x
       have hx : Within (.of [.lanes, .links, .lag, .act, .latch, .irqs, .log, .pm, .events, .hbm, .mate, .tim, .bus] [.laneState, .linkState, .linkFramesGood, .linkFramesDoubtful, .linkFramesBad, .linkFramesAbsent, .linkPayCrcErr, .linkOofEntry, .lagArrLast, .lagArrMax, .lagArrMin, .lagLinkState, .lagLate, .lagMarginLow, .timRefState, .timRefDisq, .mateFrameUnusable, .busStatus, .busGrants, .logState, .logEvbEntries, .logDropped, .logEvbLost, .logEntries, .sysIntSrc]) s x := by
         dsimp -zeta only [x]
         repeat' first
           | with_reducible assumption
           | with_reducible apply Within.refl
           | ((with_reducible apply Within.wr); (case hr => first | decide | exact Foot.allRegs_hasReg _ _ | exact Foot.all_hasReg _ | (subst_vars; decide) | ((try dsimp +zetaDelta only); split <;> first | decide | (split <;> first | decide | (split <;> decide)))))
           | ((with_reducible apply Within.setFlag); (case hr => first | decide | exact Foot.allRegs_hasReg _ _ | exact Foot.all_hasReg _ | (subst_vars; decide) | ((try dsimp +zetaDelta only); split <;> first | decide | (split <;> first | decide | (split <;> decide)))))
           | ((with_reducible apply Within.count); (case hr => first | decide | exact Foot.allRegs_hasReg _ _ | exact Foot.all_hasReg _ | (subst_vars; decide) | ((try dsimp +zetaDelta only); split <;> first | decide | (split <;> first | decide | (split <;> decide)))))
           | ((with_reducible apply Within.setLaneBit); (case hr => first | decide | exact Foot.allRegs_hasReg _ _ | exact Foot.all_hasReg _ | (subst_vars; decide) | ((try dsimp +zetaDelta only); split <;> first | decide | (split <;> first | decide | (split <;> decide)))))
           | ((with_reducible apply Within.after (State.disqualify_within ..)); (case hle => decide))
           | ((with_reducible apply Within.after (State.formVerdict_within ..)); (case hle => decide))
           | ((with_reducible apply Within.after (State.setRx_within ..)); (case hle => decide))
           | ((with_reducible apply Within.after (State.linkRefLost_within ..)); (case hle => decide))
           | ((with_reducible apply Within.after (State.rdiExit_within ..)); (case hle => decide))
           | with_reducible apply Within.ite
           | split
           | dsimp -zeta only
           | dsimp +zetaDelta only
       clear_value x)
    | intro x
    | lift_lets
    | with_reducible apply Within.ite
    | split
    | dsimp -zeta only
    | dsimp +zetaDelta only

theorem State.dropLock_within (s : State) (l : Nat) (t16 : Nat) :
    Within (.of [.lanes, .links, .lag, .act, .latch, .irqs, .log, .pm, .events, .hbm, .mate, .tim, .bus] [.laneState, .linkState, .linkFramesGood, .linkFramesDoubtful, .linkFramesBad, .linkFramesAbsent, .linkPayCrcErr, .linkOofEntry, .lagArrLast, .lagArrMax, .lagArrMin, .lagLinkState, .lagLate, .lagMarginLow, .timRefState, .timRefDisq, .mateFrameUnusable, .busStatus, .busGrants, .logState, .logEvbEntries, .logDropped, .logEvbLost, .logEntries, .sysIntSrc]) s (State.dropLock s l t16) := by
  delta State.dropLock
  repeat' first
    | with_reducible assumption
    | with_reducible apply Within.refl
    | ((with_reducible apply Within.setFlag); (case hr => first | decide | exact Foot.allRegs_hasReg _ _ | exact Foot.all_hasReg _ | (subst_vars; decide) | ((try dsimp +zetaDelta only); split <;> first | decide | (split <;> first | decide | (split <;> decide)))))
    | ((with_reducible apply Within.setLaneBit); (case hr => first | decide | exact Foot.allRegs_hasReg _ _ | exact Foot.all_hasReg _ | (subst_vars; decide) | ((try dsimp +zetaDelta only); split <;> first | decide | (split <;> first | decide | (split <;> decide)))))
    | ((with_reducible apply Within.after (State.loseSync_within ..)); (case hle => decide))
    | ((with_reducible apply Within.after (State.setRx_within ..)); (case hle => decide))
    | (intro x
       have hx : Within (.of [.lanes, .links, .lag, .act, .latch, .irqs, .log, .pm, .events, .hbm, .mate, .tim, .bus] [.laneState, .linkState, .linkFramesGood, .linkFramesDoubtful, .linkFramesBad, .linkFramesAbsent, .linkPayCrcErr, .linkOofEntry, .lagArrLast, .lagArrMax, .lagArrMin, .lagLinkState, .lagLate, .lagMarginLow, .timRefState, .timRefDisq, .mateFrameUnusable, .busStatus, .busGrants, .logState, .logEvbEntries, .logDropped, .logEvbLost, .logEntries, .sysIntSrc]) s x := by
         dsimp -zeta only [x]
         repeat' first
           | with_reducible assumption
           | with_reducible apply Within.refl
           | ((with_reducible apply Within.setFlag); (case hr => first | decide | exact Foot.allRegs_hasReg _ _ | exact Foot.all_hasReg _ | (subst_vars; decide) | ((try dsimp +zetaDelta only); split <;> first | decide | (split <;> first | decide | (split <;> decide)))))
           | ((with_reducible apply Within.setLaneBit); (case hr => first | decide | exact Foot.allRegs_hasReg _ _ | exact Foot.all_hasReg _ | (subst_vars; decide) | ((try dsimp +zetaDelta only); split <;> first | decide | (split <;> first | decide | (split <;> decide)))))
           | ((with_reducible apply Within.after (State.loseSync_within ..)); (case hle => decide))
           | ((with_reducible apply Within.after (State.setRx_within ..)); (case hle => decide))
           | with_reducible apply Within.ite
           | split
           | dsimp -zeta only
           | dsimp +zetaDelta only
       clear_value x)
    | intro x
    | lift_lets
    | with_reducible apply Within.ite
    | split
    | dsimp -zeta only
    | dsimp +zetaDelta only

theorem State.loseLock_within (s : State) (l : Nat) (t16 : Nat) :
    Within (.of [.lanes, .links, .lag, .act, .latch, .irqs, .log, .pm, .events, .hbm, .mate, .tim, .bus] [.laneState, .linkState, .linkFramesGood, .linkFramesDoubtful, .linkFramesBad, .linkFramesAbsent, .linkPayCrcErr, .linkOofEntry, .linkLolEntry, .lagArrLast, .lagArrMax, .lagArrMin, .lagLinkState, .lagLate, .lagMarginLow, .timRefState, .timRefDisq, .mateFrameUnusable, .busStatus, .busGrants, .logState, .logEvbEntries, .logDropped, .logEvbLost, .logEntries, .sysIntSrc]) s (State.loseLock s l t16) := by
  delta State.loseLock
  repeat' first
    | with_reducible assumption
    | with_reducible apply Within.refl
    | ((with_reducible apply Within.count); (case hr => first | decide | exact Foot.allRegs_hasReg _ _ | exact Foot.all_hasReg _ | (subst_vars; decide) | ((try dsimp +zetaDelta only); split <;> first | decide | (split <;> first | decide | (split <;> decide)))))
    | ((with_reducible apply Within.after (State.dropLock_within ..)); (case hle => decide))
    | ((with_reducible apply Within.after (State.setRx_within ..)); (case hle => decide))
    | (intro x
       have hx : Within (.of [.lanes, .links, .lag, .act, .latch, .irqs, .log, .pm, .events, .hbm, .mate, .tim, .bus] [.laneState, .linkState, .linkFramesGood, .linkFramesDoubtful, .linkFramesBad, .linkFramesAbsent, .linkPayCrcErr, .linkOofEntry, .linkLolEntry, .lagArrLast, .lagArrMax, .lagArrMin, .lagLinkState, .lagLate, .lagMarginLow, .timRefState, .timRefDisq, .mateFrameUnusable, .busStatus, .busGrants, .logState, .logEvbEntries, .logDropped, .logEvbLost, .logEntries, .sysIntSrc]) s x := by
         dsimp -zeta only [x]
         repeat' first
           | with_reducible assumption
           | with_reducible apply Within.refl
           | ((with_reducible apply Within.count); (case hr => first | decide | exact Foot.allRegs_hasReg _ _ | exact Foot.all_hasReg _ | (subst_vars; decide) | ((try dsimp +zetaDelta only); split <;> first | decide | (split <;> first | decide | (split <;> decide)))))
           | ((with_reducible apply Within.after (State.dropLock_within ..)); (case hle => decide))
           | ((with_reducible apply Within.after (State.setRx_within ..)); (case hle => decide))
           | with_reducible apply Within.ite
           | split
           | dsimp -zeta only
           | dsimp +zetaDelta only
       clear_value x)
    | intro x
    | lift_lets
    | with_reducible apply Within.ite
    | split
    | dsimp -zeta only
    | dsimp +zetaDelta only

theorem State.searchBlock_within (s : State) (l : Nat) (b : Block) :
    Within (.of [.links] [.linkState]) s (State.searchBlock s l b) := by
  delta State.searchBlock
  repeat' first
    | with_reducible assumption
    | with_reducible apply Within.refl
    | ((with_reducible apply Within.wr); (case hr => first | decide | exact Foot.allRegs_hasReg _ _ | exact Foot.all_hasReg _ | (subst_vars; decide) | ((try dsimp +zetaDelta only); split <;> first | decide | (split <;> first | decide | (split <;> decide)))))
    | ((with_reducible apply Within.after (State.setRx_within ..)); (case hle => decide))
    | (intro x
       have hx : Within (.of [.links] [.linkState]) s x := by
         dsimp -zeta only [x]
         repeat' first
           | with_reducible assumption
           | with_reducible apply Within.refl
           | ((with_reducible apply Within.wr); (case hr => first | decide | exact Foot.allRegs_hasReg _ _ | exact Foot.all_hasReg _ | (subst_vars; decide) | ((try dsimp +zetaDelta only); split <;> first | decide | (split <;> first | decide | (split <;> decide)))))
           | ((with_reducible apply Within.after (State.setRx_within ..)); (case hle => decide))
           | with_reducible apply Within.ite
           | split
           | dsimp -zeta only
           | dsimp +zetaDelta only
       clear_value x)
    | intro x
    | lift_lets
    | with_reducible apply Within.ite
    | split
    | dsimp -zeta only
    | dsimp +zetaDelta only

theorem State.syncBlock_within (s : State) (l : Nat) (b : Block) :
    Within (.of [.links] [.linkTypeErr, .linkFmErr]) s (State.syncBlock s l b) := by
  delta State.syncBlock
  repeat' first
    | with_reducible assumption
    | with_reducible apply Within.refl
    | ((with_reducible apply Within.count); (case hr => first | decide | exact Foot.allRegs_hasReg _ _ | exact Foot.all_hasReg _ | (subst_vars; decide) | ((try dsimp +zetaDelta only); split <;> first | decide | (split <;> first | decide | (split <;> decide)))))
    | ((with_reducible apply Within.after (State.setRx_within ..)); (case hle => decide))
    | (intro x
       have hx : Within (.of [.links] [.linkTypeErr, .linkFmErr]) s x := by
         dsimp -zeta only [x]
         repeat' first
           | with_reducible assumption
           | with_reducible apply Within.refl
           | ((with_reducible apply Within.count); (case hr => first | decide | exact Foot.allRegs_hasReg _ _ | exact Foot.all_hasReg _ | (subst_vars; decide) | ((try dsimp +zetaDelta only); split <;> first | decide | (split <;> first | decide | (split <;> decide)))))
           | ((with_reducible apply Within.after (State.setRx_within ..)); (case hle => decide))
           | with_reducible apply Within.ite
           | split
           | dsimp -zeta only
           | dsimp +zetaDelta only
       clear_value x)
    | intro x
    | lift_lets
    | with_reducible apply Within.ite
    | split
    | dsimp -zeta only
    | dsimp +zetaDelta only

theorem State.issueAbsent_within (s : State) (l : Nat) (n : Nat) :
    Within (.of [.links, .mate] [.linkState, .linkFramesAbsent, .mateFrameUnusable]) s (State.issueAbsent s l n) := by
  delta State.issueAbsent
  repeat' first
    | with_reducible assumption
    | with_reducible apply Within.refl
    | ((with_reducible apply Within.wr); (case hr => first | decide | exact Foot.allRegs_hasReg _ _ | exact Foot.all_hasReg _ | (subst_vars; decide) | ((try dsimp +zetaDelta only); split <;> first | decide | (split <;> first | decide | (split <;> decide)))))
    | ((with_reducible apply Within.countBy); (case hr => first | decide | exact Foot.allRegs_hasReg _ _ | exact Foot.all_hasReg _ | (subst_vars; decide) | ((try dsimp +zetaDelta only); split <;> first | decide | (split <;> first | decide | (split <;> decide)))))
    | ((with_reducible apply Within.when); (case' hg => intro _ _))
    | ((with_reducible apply Within.after (State.errTick_within ..)); (case hle => decide))
    | ((with_reducible apply Within.after (State.mateUnusable_within ..)); (case hle => decide))
    | with_reducible apply Within.ite
    | split
    | dsimp -zeta only

theorem State.takeStamp_within (s : State) (l : Nat) (exact : Bool) (good : Bool) (stamp : Nat) :
    Within (.of [.links, .mate] [.linkState, .linkFramesAbsent, .linkTickJump, .linkTickSubst, .mateFrameUnusable]) s (State.takeStamp s l exact good stamp).2.2 := by
  delta State.takeStamp
  repeat' first
    | with_reducible assumption
    | with_reducible apply Within.refl
    | ((with_reducible apply Within.count); (case hr => first | decide | exact Foot.allRegs_hasReg _ _ | exact Foot.all_hasReg _ | (subst_vars; decide) | ((try dsimp +zetaDelta only); split <;> first | decide | (split <;> first | decide | (split <;> decide)))))
    | ((with_reducible apply Within.after (State.issueAbsent_within ..)); (case hle => decide))
    | (intro x
       have hx : Within (.of [.links, .mate] [.linkState, .linkFramesAbsent, .linkTickJump, .linkTickSubst, .mateFrameUnusable]) s x := by
         dsimp -zeta only [x]
         repeat' first
           | with_reducible assumption
           | with_reducible apply Within.refl
           | ((with_reducible apply Within.count); (case hr => first | decide | exact Foot.allRegs_hasReg _ _ | exact Foot.all_hasReg _ | (subst_vars; decide) | ((try dsimp +zetaDelta only); split <;> first | decide | (split <;> first | decide | (split <;> decide)))))
           | ((with_reducible apply Within.after (State.issueAbsent_within ..)); (case hle => decide))
           | with_reducible apply Within.ite
           | split
           | dsimp -zeta only
           | dsimp +zetaDelta only
       clear_value x)
    | intro x
    | lift_lets
    | with_reducible apply Within.ite
    | split
    | dsimp -zeta only
    | dsimp +zetaDelta only

theorem State.absentEdge_within (s : State) (l : Nat) :
    Within (.of [.links, .mate] [.linkState, .linkFramesAbsent, .mateFrameUnusable]) s (State.absentEdge s l) := by
  delta State.absentEdge
  repeat' first
    | with_reducible assumption
    | with_reducible apply Within.refl
    | ((with_reducible apply Within.after (State.issueAbsent_within ..)); (case hle => decide))
    | ((with_reducible apply Within.after (State.setRx_within ..)); (case hle => decide))
    | (intro x
       have hx : Within (.of [.links, .mate] [.linkState, .linkFramesAbsent, .mateFrameUnusable]) s x := by
         dsimp -zeta only [x]
         repeat' first
           | with_reducible assumption
           | with_reducible apply Within.refl
           | ((with_reducible apply Within.after (State.issueAbsent_within ..)); (case hle => decide))
           | ((with_reducible apply Within.after (State.setRx_within ..)); (case hle => decide))
           | with_reducible apply Within.ite
           | split
           | dsimp -zeta only
           | dsimp +zetaDelta only
       clear_value x)
    | intro x
    | lift_lets
    | with_reducible apply Within.ite
    | split
    | dsimp -zeta only
    | dsimp +zetaDelta only

theorem State.wiringCheck_within (s : State) (l : Nat) :
    Within (.of [.act, .latch, .irqs, .log, .pm, .events, .bus] [.linkWiringEntry, .busStatus, .busGrants, .logState, .logEvbEntries, .logDropped, .logEvbLost, .logEntries, .sysIntSrc]) s (State.wiringCheck s l) := by
  delta State.wiringCheck
  repeat' first
    | with_reducible assumption
    | with_reducible apply Within.refl
    | ((with_reducible apply Within.count); (case hr => first | decide | exact Foot.allRegs_hasReg _ _ | exact Foot.all_hasReg _ | (subst_vars; decide) | ((try dsimp +zetaDelta only); split <;> first | decide | (split <;> first | decide | (split <;> decide)))))
    | ((with_reducible apply Within.after (State.clear_within ..)); (case hle => decide))
    | ((with_reducible apply Within.after (State.raise_within ..)); (case hle => decide))
    | with_reducible apply Within.ite
    | split
    | dsimp -zeta only

theorem State.dieidTaken_within (s : State) (l : Nat) (d : Nat) :
    Within (.of [.act, .latch, .irqs, .log, .pm, .events, .bus] [.linkState, .linkIdentRxDieid, .busStatus, .busGrants, .logState, .logEvbEntries, .logDropped, .logEvbLost, .logEntries, .sysIntSrc]) s (State.dieidTaken s l d) := by
  delta State.dieidTaken
  repeat' first
    | with_reducible assumption
    | with_reducible apply Within.refl
    | ((with_reducible apply Within.wr); (case hr => first | decide | exact Foot.allRegs_hasReg _ _ | exact Foot.all_hasReg _ | (subst_vars; decide) | ((try dsimp +zetaDelta only); split <;> first | decide | (split <;> first | decide | (split <;> decide)))))
    | ((with_reducible apply Within.setFlag); (case hr => first | decide | exact Foot.allRegs_hasReg _ _ | exact Foot.all_hasReg _ | (subst_vars; decide) | ((try dsimp +zetaDelta only); split <;> first | decide | (split <;> first | decide | (split <;> decide)))))
    | ((with_reducible apply Within.after (State.logEvent_within ..)); (case hle => decide))
    | ((with_reducible apply Within.after (State.raise_within ..)); (case hle => decide))
    | (intro x
       have hx : Within (.of [.act, .latch, .irqs, .log, .pm, .events, .bus] [.linkState, .linkIdentRxDieid, .busStatus, .busGrants, .logState, .logEvbEntries, .logDropped, .logEvbLost, .logEntries, .sysIntSrc]) s x := by
         dsimp -zeta only [x]
         repeat' first
           | with_reducible assumption
           | with_reducible apply Within.refl
           | ((with_reducible apply Within.wr); (case hr => first | decide | exact Foot.allRegs_hasReg _ _ | exact Foot.all_hasReg _ | (subst_vars; decide) | ((try dsimp +zetaDelta only); split <;> first | decide | (split <;> first | decide | (split <;> decide)))))
           | ((with_reducible apply Within.setFlag); (case hr => first | decide | exact Foot.allRegs_hasReg _ _ | exact Foot.all_hasReg _ | (subst_vars; decide) | ((try dsimp +zetaDelta only); split <;> first | decide | (split <;> first | decide | (split <;> decide)))))
           | ((with_reducible apply Within.after (State.logEvent_within ..)); (case hle => decide))
           | ((with_reducible apply Within.after (State.raise_within ..)); (case hle => decide))
           | with_reducible apply Within.ite
           | split
           | dsimp -zeta only
           | dsimp +zetaDelta only
       clear_value x)
    | intro x
    | lift_lets
    | with_reducible apply Within.ite
    | split
    | dsimp -zeta only
    | dsimp +zetaDelta only

theorem State.setidTaken_within (s : State) (l : Nat) (setid : Nat) (stamp : Nat) :
    Within (.of [.links, .act, .irqs, .log, .pm, .events, .alm, .bus] [.linkState, .linkIdentRxSetid, .busStatus, .busGrants, .logState, .logEvbEntries, .logDropped, .logEvbLost, .logEntries, .sysIntSrc]) s (State.setidTaken s l setid stamp) := by
  delta State.setidTaken
  repeat' first
    | with_reducible assumption
    | with_reducible apply Within.refl
    | ((with_reducible apply Within.wr); (case hr => first | decide | exact Foot.allRegs_hasReg _ _ | exact Foot.all_hasReg _ | (subst_vars; decide) | ((try dsimp +zetaDelta only); split <;> first | decide | (split <;> first | decide | (split <;> decide)))))
    | ((with_reducible apply Within.after (State.discordExit_within ..)); (case hle => decide))
    | ((with_reducible apply Within.after (State.setRx_within ..)); (case hle => decide))
    | ((with_reducible apply Within.after (State.vouchNote_within ..)); (case hle => decide))
    | (intro x
       have hx : Within (.of [.links, .act, .irqs, .log, .pm, .events, .alm, .bus] [.linkState, .linkIdentRxSetid, .busStatus, .busGrants, .logState, .logEvbEntries, .logDropped, .logEvbLost, .logEntries, .sysIntSrc]) s x := by
         dsimp -zeta only [x]
         repeat' first
           | with_reducible assumption
           | with_reducible apply Within.refl
           | ((with_reducible apply Within.wr); (case hr => first | decide | exact Foot.allRegs_hasReg _ _ | exact Foot.all_hasReg _ | (subst_vars; decide) | ((try dsimp +zetaDelta only); split <;> first | decide | (split <;> first | decide | (split <;> decide)))))
           | ((with_reducible apply Within.after (State.discordExit_within ..)); (case hle => decide))
           | ((with_reducible apply Within.after (State.setRx_within ..)); (case hle => decide))
           | ((with_reducible apply Within.after (State.vouchNote_within ..)); (case hle => decide))
           | with_reducible apply Within.ite
           | split
           | dsimp -zeta only
           | dsimp +zetaDelta only
       clear_value x)
    | intro x
    | lift_lets
    | with_reducible apply Within.ite
    | split
    | dsimp -zeta only
    | dsimp +zetaDelta only

theorem State.assemble_within (s : State) (l : Nat) (n : Nat) (epoch : Nat) :
    Within (.of [.links, .act, .latch, .irqs, .log, .pm, .events, .alm, .bus] [.linkState, .linkIdentRxSetid, .linkIdentRxDieid, .linkIdentRxArmed, .almArmDis, .busStatus, .busGrants, .logState, .logEvbEntries, .logDropped, .logEvbLost, .logEntries, .sysIntSrc]) s (State.assemble s l n epoch) := by
  delta State.assemble
  repeat' first
    | with_reducible assumption
    | with_reducible apply Within.refl
    | ((with_reducible apply Within.setWord); (case hr => first | decide | exact Foot.allRegs_hasReg _ _ | exact Foot.all_hasReg _ | (subst_vars; decide) | ((try dsimp +zetaDelta only); split <;> first | decide | (split <;> first | decide | (split <;> decide)))))
    | ((with_reducible apply Within.after (State.dieidTaken_within ..)); (case hle => decide))
    | ((with_reducible apply Within.after (State.armCompare_within ..)); (case hle => decide))
    | ((with_reducible apply Within.after (State.setidTaken_within ..)); (case hle => decide))
    | (intro x
       have hx : Within (.of [.links, .act, .latch, .irqs, .log, .pm, .events, .alm, .bus] [.linkState, .linkIdentRxSetid, .linkIdentRxDieid, .linkIdentRxArmed, .almArmDis, .busStatus, .busGrants, .logState, .logEvbEntries, .logDropped, .logEvbLost, .logEntries, .sysIntSrc]) s x := by
         dsimp -zeta only [x]
         repeat' first
           | with_reducible assumption
           | with_reducible apply Within.refl
           | ((with_reducible apply Within.setWord); (case hr => first | decide | exact Foot.allRegs_hasReg _ _ | exact Foot.all_hasReg _ | (subst_vars; decide) | ((try dsimp +zetaDelta only); split <;> first | decide | (split <;> first | decide | (split <;> decide)))))
           | ((with_reducible apply Within.after (State.dieidTaken_within ..)); (case hle => decide))
           | ((with_reducible apply Within.after (State.armCompare_within ..)); (case hle => decide))
           | ((with_reducible apply Within.after (State.setidTaken_within ..)); (case hle => decide))
           | with_reducible apply Within.ite
           | split
           | dsimp -zeta only
           | dsimp +zetaDelta only
       clear_value x)
    | intro x
    | lift_lets
    | with_reducible apply Within.ite
    | split
    | dsimp -zeta only
    | dsimp +zetaDelta only

theorem State.identTake_within (s : State) (l : Nat) (n : Nat) (w : Nat) :
    Within (.of [.links, .act, .latch, .irqs, .log, .pm, .events, .alm, .bus] [.linkState, .linkIdentRxSetid, .linkIdentRxDieid, .linkIdentRxInfo, .linkIdentRxArmed, .linkWiringEntry, .almArmDis, .busStatus, .busGrants, .logState, .logEvbEntries, .logDropped, .logEvbLost, .logEntries, .sysIntSrc]) s (State.identTake s l n w) := by
  delta State.identTake
  repeat' first
    | with_reducible assumption
    | with_reducible apply Within.refl
    | ((with_reducible apply Within.wr); (case hr => first | decide | exact Foot.allRegs_hasReg _ _ | exact Foot.all_hasReg _ | (subst_vars; decide) | ((try dsimp +zetaDelta only); split <;> first | decide | (split <;> first | decide | (split <;> decide)))))
    | ((with_reducible apply Within.when); (case' hg => intro _ _))
    | ((with_reducible apply Within.after (State.discordExit_within ..)); (case hle => decide))
    | ((with_reducible apply Within.after (State.setRx_within ..)); (case hle => decide))
    | ((with_reducible apply Within.after (State.wiringCheck_within ..)); (case hle => decide))
    | ((with_reducible apply Within.after (State.assemble_within ..)); (case hle => decide))
    | (intro x
       have hx : Within (.of [.links, .act, .latch, .irqs, .log, .pm, .events, .alm, .bus] [.linkState, .linkIdentRxSetid, .linkIdentRxDieid, .linkIdentRxInfo, .linkIdentRxArmed, .linkWiringEntry, .almArmDis, .busStatus, .busGrants, .logState, .logEvbEntries, .logDropped, .logEvbLost, .logEntries, .sysIntSrc]) s x := by
         dsimp -zeta only [x]
         repeat' first
           | with_reducible assumption
           | with_reducible apply Within.refl
           | ((with_reducible apply Within.wr); (case hr => first | decide | exact Foot.allRegs_hasReg _ _ | exact Foot.all_hasReg _ | (subst_vars; decide) | ((try dsimp +zetaDelta only); split <;> first | decide | (split <;> first | decide | (split <;> decide)))))
           | ((with_reducible apply Within.when); (case' hg => intro _ _))
           | ((with_reducible apply Within.after (State.discordExit_within ..)); (case hle => decide))
           | ((with_reducible apply Within.after (State.setRx_within ..)); (case hle => decide))
           | ((with_reducible apply Within.after (State.wiringCheck_within ..)); (case hle => decide))
           | ((with_reducible apply Within.after (State.assemble_within ..)); (case hle => decide))
           | with_reducible apply Within.ite
           | split
           | dsimp -zeta only
           | dsimp +zetaDelta only
       clear_value x)
    | intro x
    | lift_lets
    | with_reducible apply Within.ite
    | split
    | dsimp -zeta only
    | dsimp +zetaDelta only

theorem State.mboxTake_within (s : State) (l : Nat) (stamp : Nat) (g : Nat) (txPhase : Nat) (blocks : List Block) :
    Within (.of [.links, .tim] [.linkState, .linkMboxCtrl, .linkMboxErr]) s (State.mboxTake s l stamp g txPhase blocks) := by
  delta State.mboxTake
  repeat' first
    | with_reducible assumption
    | with_reducible apply Within.refl
    | ((with_reducible apply Within.wr); (case hr => first | decide | exact Foot.allRegs_hasReg _ _ | exact Foot.all_hasReg _ | (subst_vars; decide) | ((try dsimp +zetaDelta only); split <;> first | decide | (split <;> first | decide | (split <;> decide)))))
    | ((with_reducible apply Within.setFlag); (case hr => first | decide | exact Foot.allRegs_hasReg _ _ | exact Foot.all_hasReg _ | (subst_vars; decide) | ((try dsimp +zetaDelta only); split <;> first | decide | (split <;> first | decide | (split <;> decide)))))
    | ((with_reducible apply Within.count); (case hr => first | decide | exact Foot.allRegs_hasReg _ _ | exact Foot.all_hasReg _ | (subst_vars; decide) | ((try dsimp +zetaDelta only); split <;> first | decide | (split <;> first | decide | (split <;> decide)))))
    | ((with_reducible apply Within.after (State.timingMessage_within ..)); (case hle => decide))
    | ((with_reducible apply Within.after (State.setLink_within ..)); (case hle => decide))
    | (intro x
       have hx : Within (.of [.links, .tim] [.linkState, .linkMboxCtrl, .linkMboxErr]) s x := by
         dsimp -zeta only [x]
         repeat' first
           | with_reducible assumption
           | with_reducible apply Within.refl
           | ((with_reducible apply Within.wr); (case hr => first | decide | exact Foot.allRegs_hasReg _ _ | exact Foot.all_hasReg _ | (subst_vars; decide) | ((try dsimp +zetaDelta only); split <;> first | decide | (split <;> first | decide | (split <;> decide)))))
           | ((with_reducible apply Within.setFlag); (case hr => first | decide | exact Foot.allRegs_hasReg _ _ | exact Foot.all_hasReg _ | (subst_vars; decide) | ((try dsimp +zetaDelta only); split <;> first | decide | (split <;> first | decide | (split <;> decide)))))
           | ((with_reducible apply Within.count); (case hr => first | decide | exact Foot.allRegs_hasReg _ _ | exact Foot.all_hasReg _ | (subst_vars; decide) | ((try dsimp +zetaDelta only); split <;> first | decide | (split <;> first | decide | (split <;> decide)))))
           | ((with_reducible apply Within.after (State.timingMessage_within ..)); (case hle => decide))
           | ((with_reducible apply Within.after (State.setLink_within ..)); (case hle => decide))
           | with_reducible apply Within.ite
           | split
           | dsimp -zeta only
           | dsimp +zetaDelta only
       clear_value x)
    | intro x
    | lift_lets
    | with_reducible apply Within.ite
    | split
    | dsimp -zeta only
    | dsimp +zetaDelta only

theorem State.userTake_within (s : State) (l : Nat) (blocks : List Block) :
    Within (.of [.links] [.linkState, .linkUserCtrl, .linkUserErr]) s (State.userTake s l blocks) := by
  delta State.userTake
  repeat' first
    | with_reducible assumption
    | with_reducible apply Within.refl
    | ((with_reducible apply Within.wr); (case hr => first | decide | exact Foot.allRegs_hasReg _ _ | exact Foot.all_hasReg _ | (subst_vars; decide) | ((try dsimp +zetaDelta only); split <;> first | decide | (split <;> first | decide | (split <;> decide)))))
    | ((with_reducible apply Within.setFlag); (case hr => first | decide | exact Foot.allRegs_hasReg _ _ | exact Foot.all_hasReg _ | (subst_vars; decide) | ((try dsimp +zetaDelta only); split <;> first | decide | (split <;> first | decide | (split <;> decide)))))
    | ((with_reducible apply Within.count); (case hr => first | decide | exact Foot.allRegs_hasReg _ _ | exact Foot.all_hasReg _ | (subst_vars; decide) | ((try dsimp +zetaDelta only); split <;> first | decide | (split <;> first | decide | (split <;> decide)))))
    | ((with_reducible apply Within.after (State.setLink_within ..)); (case hle => decide))
    | (intro x
       have hx : Within (.of [.links] [.linkState, .linkUserCtrl, .linkUserErr]) s x := by
         dsimp -zeta only [x]
         repeat' first
           | with_reducible assumption
           | with_reducible apply Within.refl
           | ((with_reducible apply Within.wr); (case hr => first | decide | exact Foot.allRegs_hasReg _ _ | exact Foot.all_hasReg _ | (subst_vars; decide) | ((try dsimp +zetaDelta only); split <;> first | decide | (split <;> first | decide | (split <;> decide)))))
           | ((with_reducible apply Within.setFlag); (case hr => first | decide | exact Foot.allRegs_hasReg _ _ | exact Foot.all_hasReg _ | (subst_vars; decide) | ((try dsimp +zetaDelta only); split <;> first | decide | (split <;> first | decide | (split <;> decide)))))
           | ((with_reducible apply Within.count); (case hr => first | decide | exact Foot.allRegs_hasReg _ _ | exact Foot.all_hasReg _ | (subst_vars; decide) | ((try dsimp +zetaDelta only); split <;> first | decide | (split <;> first | decide | (split <;> decide)))))
           | ((with_reducible apply Within.after (State.setLink_within ..)); (case hle => decide))
           | with_reducible apply Within.ite
           | split
           | dsimp -zeta only
           | dsimp +zetaDelta only
       clear_value x)
    | intro x
    | lift_lets
    | with_reducible apply Within.ite
    | split
    | dsimp -zeta only
    | dsimp +zetaDelta only

theorem State.adaptTake_within (s : State) (l : Nat) (w : Nat) :
    Within (.of [.lanes, .act, .irqs, .log, .pm, .events, .bus] [.laneTxfir, .busStatus, .busGrants, .logState, .logEvbEntries, .logDropped, .logEvbLost, .logEntries, .sysIntSrc]) s (State.adaptTake s l w) := by
  delta State.adaptTake
  repeat' first
    | with_reducible assumption
    | with_reducible apply Within.refl
    | ((with_reducible apply Within.setWord); (case hr => first | decide | exact Foot.allRegs_hasReg _ _ | exact Foot.all_hasReg _ | (subst_vars; decide) | ((try dsimp +zetaDelta only); split <;> first | decide | (split <;> first | decide | (split <;> decide)))))
    | ((with_reducible apply Within.when); (case' hg => intro _ _))
    | ((with_reducible apply Within.after (State.setLane_within ..)); (case hle => decide))
    | ((with_reducible apply Within.after (State.clear_within ..)); (case hle => decide))
    | (intro x
       have hx : Within (.of [.lanes, .act, .irqs, .log, .pm, .events, .bus] [.laneTxfir, .busStatus, .busGrants, .logState, .logEvbEntries, .logDropped, .logEvbLost, .logEntries, .sysIntSrc]) s x := by
         dsimp -zeta only [x]
         repeat' first
           | with_reducible assumption
           | with_reducible apply Within.refl
           | ((with_reducible apply Within.setWord); (case hr => first | decide | exact Foot.allRegs_hasReg _ _ | exact Foot.all_hasReg _ | (subst_vars; decide) | ((try dsimp +zetaDelta only); split <;> first | decide | (split <;> first | decide | (split <;> decide)))))
           | ((with_reducible apply Within.when); (case' hg => intro _ _))
           | ((with_reducible apply Within.after (State.setLane_within ..)); (case hle => decide))
           | ((with_reducible apply Within.after (State.clear_within ..)); (case hle => decide))
           | with_reducible apply Within.ite
           | split
           | dsimp -zeta only
           | dsimp +zetaDelta only
       clear_value x)
    | intro x
    | lift_lets
    | with_reducible apply Within.ite
    | split
    | dsimp -zeta only
    | dsimp +zetaDelta only

theorem State.adaptReceive_within (s : State) (l : Nat) (w : Nat) :
    Within (.of [.lanes, .act, .irqs, .log, .pm, .events, .bus] [.laneTxfir, .laneAdaptMsgErr, .busStatus, .busGrants, .logState, .logEvbEntries, .logDropped, .logEvbLost, .logEntries, .sysIntSrc]) s (State.adaptReceive s l w) := by
  delta State.adaptReceive
  repeat' first
    | with_reducible assumption
    | with_reducible apply Within.refl
    | ((with_reducible apply Within.count); (case hr => first | decide | exact Foot.allRegs_hasReg _ _ | exact Foot.all_hasReg _ | (subst_vars; decide) | ((try dsimp +zetaDelta only); split <;> first | decide | (split <;> first | decide | (split <;> decide)))))
    | ((with_reducible apply Within.after (State.adaptTake_within ..)); (case hle => decide))
    | (intro x
       have hx : Within (.of [.lanes, .act, .irqs, .log, .pm, .events, .bus] [.laneTxfir, .laneAdaptMsgErr, .busStatus, .busGrants, .logState, .logEvbEntries, .logDropped, .logEvbLost, .logEntries, .sysIntSrc]) s x := by
         dsimp -zeta only [x]
         repeat' first
           | with_reducible assumption
           | with_reducible apply Within.refl
           | ((with_reducible apply Within.count); (case hr => first | decide | exact Foot.allRegs_hasReg _ _ | exact Foot.all_hasReg _ | (subst_vars; decide) | ((try dsimp +zetaDelta only); split <;> first | decide | (split <;> first | decide | (split <;> decide)))))
           | ((with_reducible apply Within.after (State.adaptTake_within ..)); (case hle => decide))
           | with_reducible apply Within.ite
           | split
           | dsimp -zeta only
           | dsimp +zetaDelta only
       clear_value x)
    | intro x
    | lift_lets
    | with_reducible apply Within.ite
    | split
    | dsimp -zeta only
    | dsimp +zetaDelta only

theorem State.watchTake_within (s : State) (l : Nat) (w : Nat) :
    Within (.of [.act, .latch, .irqs, .log, .pm, .events, .mate, .bus] [.mateWatchLost, .busStatus, .busGrants, .logState, .logEvbEntries, .logDropped, .logEvbLost, .logEntries, .sysIntSrc]) s (State.watchTake s l w) := by
  delta State.watchTake
  repeat' first
    | with_reducible assumption
    | with_reducible apply Within.refl
    | ((with_reducible apply Within.each); (case' hg => intro _ _ _))
    | ((with_reducible apply Within.after (State.watchSync_within ..)); (case hle => decide))
    | (intro x
       have hx : Within (.of [.act, .latch, .irqs, .log, .pm, .events, .mate, .bus] [.mateWatchLost, .busStatus, .busGrants, .logState, .logEvbEntries, .logDropped, .logEvbLost, .logEntries, .sysIntSrc]) s x := by
         dsimp -zeta only [x]
         repeat' first
           | with_reducible assumption
           | with_reducible apply Within.refl
           | ((with_reducible apply Within.each); (case' hg => intro _ _ _))
           | ((with_reducible apply Within.after (State.watchSync_within ..)); (case hle => decide))
           | with_reducible apply Within.ite
           | ((with_reducible apply Within.set_mate); (case hc => decide))
           | split
           | dsimp -zeta only
           | dsimp +zetaDelta only
       clear_value x)
    | intro x
    | lift_lets
    | with_reducible apply Within.ite
    | ((with_reducible apply Within.set_mate); (case hc => decide))
    | split
    | dsimp -zeta only
    | dsimp +zetaDelta only

theorem State.protectTake_within (s : State) (l : Nat) (b : Block) :
    Within (.of [.prot, .act, .latch, .irqs, .log, .pm, .events, .mate, .bus] [.linkProtMsgErr, .protRxGroup, .protRxBridge, .protRxReserved, .protRxUnmatched, .mateWatchLost, .busStatus, .busGrants, .logState, .logEvbEntries, .logDropped, .logEvbLost, .logEntries, .sysIntSrc]) s (State.protectTake s l b) := by
  delta State.protectTake
  repeat' first
    | with_reducible assumption
    | with_reducible apply Within.refl
    | ((with_reducible apply Within.count); (case hr => first | decide | exact Foot.allRegs_hasReg _ _ | exact Foot.all_hasReg _ | (subst_vars; decide) | ((try dsimp +zetaDelta only); split <;> first | decide | (split <;> first | decide | (split <;> decide)))))
    | ((with_reducible apply Within.when); (case' hg => intro _ _))
    | ((with_reducible apply Within.after (State.protReceive_within ..)); (case hle => decide))
    | ((with_reducible apply Within.after (State.watchTake_within ..)); (case hle => decide))
    | (intro x
       have hx : Within (.of [.prot, .act, .latch, .irqs, .log, .pm, .events, .mate, .bus] [.linkProtMsgErr, .protRxGroup, .protRxBridge, .protRxReserved, .protRxUnmatched, .mateWatchLost, .busStatus, .busGrants, .logState, .logEvbEntries, .logDropped, .logEvbLost, .logEntries, .sysIntSrc]) s x := by
         dsimp -zeta only [x]
         repeat' first
           | with_reducible assumption
           | with_reducible apply Within.refl
           | ((with_reducible apply Within.count); (case hr => first | decide | exact Foot.allRegs_hasReg _ _ | exact Foot.all_hasReg _ | (subst_vars; decide) | ((try dsimp +zetaDelta only); split <;> first | decide | (split <;> first | decide | (split <;> decide)))))
           | ((with_reducible apply Within.when); (case' hg => intro _ _))
           | ((with_reducible apply Within.after (State.protReceive_within ..)); (case hle => decide))
           | ((with_reducible apply Within.after (State.watchTake_within ..)); (case hle => decide))
           | with_reducible apply Within.ite
           | split
           | dsimp -zeta only
           | dsimp +zetaDelta only
       clear_value x)
    | intro x
    | lift_lets
    | with_reducible apply Within.ite
    | split
    | dsimp -zeta only
    | dsimp +zetaDelta only

end Sys2Proof.Machine
end

