-- ==== Sys2Proof/Laws/Footprint/Quads.lean ====
section
/-! SUPPORT. What each operation of Machine/Quads.lean may touch. -/

namespace Sys2Proof.Machine

theorem State.quadDown_within (s : State) (q : Nat) :
    Within (.of [.act, .latch, .irqs, .log, .pm, .events, .bus] [.busStatus, .busGrants, .logState, .logEvbEntries, .logDropped, .logEvbLost, .logEntries, .sysIntSrc]) s (State.quadDown s q) := by
  delta State.quadDown
  repeat' first
    | with_reducible assumption
    | with_reducible apply Within.refl
    | ((with_reducible apply Within.after (State.setAlarm_within ..)); (case hle => decide))
    | with_reducible apply Within.ite
    | split
    | dsimp -zeta only

theorem State.fenceSync_within (s : State) (l : Nat) (moved : Bool × Bool × Bool) :
    Within (.of [.act, .latch, .irqs, .log, .pm, .events, .bus] [.laneState, .busStatus, .busGrants, .logState, .logEvbEntries, .logDropped, .logEvbLost, .logEntries, .sysIntSrc]) s (State.fenceSync s l moved) := by
  delta State.fenceSync
  repeat' first
    | with_reducible assumption
    | with_reducible apply Within.refl
    | ((with_reducible apply Within.setLaneBit); (case hr => first | decide | exact Foot.allRegs_hasReg _ _ | exact Foot.all_hasReg _ | (subst_vars; decide) | ((try dsimp +zetaDelta only); split <;> first | decide | (split <;> first | decide | (split <;> decide)))))
    | ((with_reducible apply Within.after (State.clear_within ..)); (case hle => decide))
    | ((with_reducible apply Within.after (State.raise_within ..)); (case hle => decide))
    | (intro x
       have hx : Within (.of [.act, .latch, .irqs, .log, .pm, .events, .bus] [.laneState, .busStatus, .busGrants, .logState, .logEvbEntries, .logDropped, .logEvbLost, .logEntries, .sysIntSrc]) s x := by
         dsimp -zeta only [x]
         repeat' first
           | with_reducible assumption
           | with_reducible apply Within.refl
           | ((with_reducible apply Within.setLaneBit); (case hr => first | decide | exact Foot.allRegs_hasReg _ _ | exact Foot.all_hasReg _ | (subst_vars; decide) | ((try dsimp +zetaDelta only); split <;> first | decide | (split <;> first | decide | (split <;> decide)))))
           | ((with_reducible apply Within.after (State.clear_within ..)); (case hle => decide))
           | ((with_reducible apply Within.after (State.raise_within ..)); (case hle => decide))
           | with_reducible apply Within.ite
           | split
           | dsimp -zeta only
           | dsimp +zetaDelta only
       clear_value x)
    | intro x
    | lift_lets
    | with_reducible apply Within.ite
    | split
    | dsimp -zeta only
    | dsimp +zetaDelta only

theorem State.loadPreset_within (s : State) (l : Nat) :
    Within (.of [.act, .latch, .irqs, .log, .pm, .events, .bus] [.laneState, .laneTxfir, .busStatus, .busGrants, .logState, .logEvbEntries, .logDropped, .logEvbLost, .logEntries, .sysIntSrc]) s (State.loadPreset s l) := by
  delta State.loadPreset
  repeat' first
    | with_reducible assumption
    | with_reducible apply Within.refl
    | ((with_reducible apply Within.setWord); (case hr => first | decide | exact Foot.allRegs_hasReg _ _ | exact Foot.all_hasReg _ | (subst_vars; decide) | ((try dsimp +zetaDelta only); split <;> first | decide | (split <;> first | decide | (split <;> decide)))))
    | ((with_reducible apply Within.after (State.fenceSync_within ..)); (case hle => decide))
    | (intro x
       have hx : Within (.of [.act, .latch, .irqs, .log, .pm, .events, .bus] [.laneState, .laneTxfir, .busStatus, .busGrants, .logState, .logEvbEntries, .logDropped, .logEvbLost, .logEntries, .sysIntSrc]) s x := by
         dsimp -zeta only [x]
         repeat' first
           | with_reducible assumption
           | with_reducible apply Within.refl
           | ((with_reducible apply Within.setWord); (case hr => first | decide | exact Foot.allRegs_hasReg _ _ | exact Foot.all_hasReg _ | (subst_vars; decide) | ((try dsimp +zetaDelta only); split <;> first | decide | (split <;> first | decide | (split <;> decide)))))
           | ((with_reducible apply Within.after (State.fenceSync_within ..)); (case hle => decide))
           | with_reducible apply Within.ite
           | split
           | dsimp -zeta only
           | dsimp +zetaDelta only
       clear_value x)
    | intro x
    | lift_lets
    | with_reducible apply Within.ite
    | split
    | dsimp -zeta only
    | dsimp +zetaDelta only

theorem State.enterTrain_within (s : State) (l : Nat) :
    Within (.of [.lanes, .act, .irqs, .log, .pm, .events, .bus] [.laneState, .busStatus, .busGrants, .logState, .logEvbEntries, .logDropped, .logEvbLost, .logEntries, .sysIntSrc]) s (State.enterTrain s l) := by
  delta State.enterTrain
  repeat' first
    | with_reducible assumption
    | with_reducible apply Within.refl
    | ((with_reducible apply Within.setLaneBit); (case hr => first | decide | exact Foot.allRegs_hasReg _ _ | exact Foot.all_hasReg _ | (subst_vars; decide) | ((try dsimp +zetaDelta only); split <;> first | decide | (split <;> first | decide | (split <;> decide)))))
    | ((with_reducible apply Within.after (State.setLane_within ..)); (case hle => decide))
    | ((with_reducible apply Within.after (State.clear_within ..)); (case hle => decide))
    | (intro x
       have hx : Within (.of [.lanes, .act, .irqs, .log, .pm, .events, .bus] [.laneState, .busStatus, .busGrants, .logState, .logEvbEntries, .logDropped, .logEvbLost, .logEntries, .sysIntSrc]) s x := by
         dsimp -zeta only [x]
         repeat' first
           | with_reducible assumption
           | with_reducible apply Within.refl
           | ((with_reducible apply Within.setLaneBit); (case hr => first | decide | exact Foot.allRegs_hasReg _ _ | exact Foot.all_hasReg _ | (subst_vars; decide) | ((try dsimp +zetaDelta only); split <;> first | decide | (split <;> first | decide | (split <;> decide)))))
           | ((with_reducible apply Within.after (State.setLane_within ..)); (case hle => decide))
           | ((with_reducible apply Within.after (State.clear_within ..)); (case hle => decide))
           | with_reducible apply Within.ite
           | split
           | dsimp -zeta only
           | dsimp +zetaDelta only
       clear_value x)
    | intro x
    | lift_lets
    | with_reducible apply Within.ite
    | split
    | dsimp -zeta only
    | dsimp +zetaDelta only

theorem State.enterService_within (s : State) (l : Nat) :
    Within (.of [] [.laneState]) s (State.enterService s l) := by
  delta State.enterService
  repeat' first
    | with_reducible assumption
    | with_reducible apply Within.refl
    | ((with_reducible apply Within.setLaneBit); (case hr => first | decide | exact Foot.allRegs_hasReg _ _ | exact Foot.all_hasReg _ | (subst_vars; decide) | ((try dsimp +zetaDelta only); split <;> first | decide | (split <;> first | decide | (split <;> decide)))))
    | with_reducible apply Within.ite
    | split
    | dsimp -zeta only

theorem State.scanEnd_within (s : State) (q : Nat) (e : Nat) :
    Within (.of [] [.laneScanStatus]) s (State.scanEnd s q e) := by
  delta State.scanEnd
  repeat' first
    | with_reducible assumption
    | with_reducible apply Within.refl
    | ((with_reducible apply Within.wr); (case hr => first | decide | exact Foot.allRegs_hasReg _ _ | exact Foot.all_hasReg _ | (subst_vars; decide) | ((try dsimp +zetaDelta only); split <;> first | decide | (split <;> first | decide | (split <;> decide)))))
    | ((with_reducible apply Within.setFlag); (case hr => first | decide | exact Foot.allRegs_hasReg _ _ | exact Foot.all_hasReg _ | (subst_vars; decide) | ((try dsimp +zetaDelta only); split <;> first | decide | (split <;> first | decide | (split <;> decide)))))
    | with_reducible apply Within.ite
    | split
    | dsimp -zeta only

theorem State.txStop_within (s : State) (l : Nat) :
    Within (.of [.links] []) s (State.txStop s l) := by
  delta State.txStop
  repeat' first
    | with_reducible assumption
    | with_reducible apply Within.refl
    | ((with_reducible apply Within.after (State.setTx_within ..)); (case hle => decide))
    | (intro x
       have hx : Within (.of [.links] []) s x := by
         dsimp -zeta only [x]
         repeat' first
           | with_reducible assumption
           | with_reducible apply Within.refl
           | ((with_reducible apply Within.after (State.setTx_within ..)); (case hle => decide))
           | with_reducible apply Within.ite
           | split
           | dsimp -zeta only
           | dsimp +zetaDelta only
       clear_value x)
    | intro x
    | lift_lets
    | with_reducible apply Within.ite
    | split
    | dsimp -zeta only
    | dsimp +zetaDelta only

theorem State.pllLost_within (s : State) (q : Nat) :
    Within (.of [.links] [.laneState]) s (State.pllLost s q) := by
  delta State.pllLost
  repeat' first
    | with_reducible assumption
    | with_reducible apply Within.refl
    | ((with_reducible apply Within.setFlag); (case hr => first | decide | exact Foot.allRegs_hasReg _ _ | exact Foot.all_hasReg _ | (subst_vars; decide) | ((try dsimp +zetaDelta only); split <;> first | decide | (split <;> first | decide | (split <;> decide)))))
    | ((with_reducible apply Within.each); (case' hg => intro _ _ _))
    | ((with_reducible apply Within.after (State.txStop_within ..)); (case hle => decide))
    | with_reducible apply Within.ite
    | split
    | dsimp -zeta only

theorem State.quadDrop_within (s : State) (q : Nat) (st : Nat) (t16 : Nat) :
    Within (.of [.lanes, .links, .lag, .act, .latch, .irqs, .log, .pm, .events, .hbm, .mate, .tim, .bus] [.laneState, .linkState, .linkFramesGood, .linkFramesDoubtful, .linkFramesBad, .linkFramesAbsent, .linkPayCrcErr, .linkOofEntry, .lagArrLast, .lagArrMax, .lagArrMin, .lagLinkState, .lagLate, .lagMarginLow, .timRefState, .timRefDisq, .mateFrameUnusable, .busStatus, .busGrants, .logState, .logEvbEntries, .logDropped, .logEvbLost, .logEntries, .sysIntSrc]) s (State.quadDrop s q st t16) := by
  delta State.quadDrop
  repeat' first
    | with_reducible assumption
    | with_reducible apply Within.refl
    | ((with_reducible apply Within.setFlag); (case hr => first | decide | exact Foot.allRegs_hasReg _ _ | exact Foot.all_hasReg _ | (subst_vars; decide) | ((try dsimp +zetaDelta only); split <;> first | decide | (split <;> first | decide | (split <;> decide)))))
    | ((with_reducible apply Within.each); (case' hg => intro _ _ _))
    | ((with_reducible apply Within.after (State.dropLock_within ..)); (case hle => decide))
    | ((with_reducible apply Within.after (State.pllLost_within ..)); (case hle => decide))
    | (intro x
       have hx : Within (.of [.lanes, .links, .lag, .act, .latch, .irqs, .log, .pm, .events, .hbm, .mate, .tim, .bus] [.laneState, .linkState, .linkFramesGood, .linkFramesDoubtful, .linkFramesBad, .linkFramesAbsent, .linkPayCrcErr, .linkOofEntry, .lagArrLast, .lagArrMax, .lagArrMin, .lagLinkState, .lagLate, .lagMarginLow, .timRefState, .timRefDisq, .mateFrameUnusable, .busStatus, .busGrants, .logState, .logEvbEntries, .logDropped, .logEvbLost, .logEntries, .sysIntSrc]) s x := by
         dsimp -zeta only [x]
         repeat' first
           | with_reducible assumption
           | with_reducible apply Within.refl
           | ((with_reducible apply Within.setFlag); (case hr => first | decide | exact Foot.allRegs_hasReg _ _ | exact Foot.all_hasReg _ | (subst_vars; decide) | ((try dsimp +zetaDelta only); split <;> first | decide | (split <;> first | decide | (split <;> decide)))))
           | ((with_reducible apply Within.each); (case' hg => intro _ _ _))
           | ((with_reducible apply Within.after (State.dropLock_within ..)); (case hle => decide))
           | ((with_reducible apply Within.after (State.pllLost_within ..)); (case hle => decide))
           | with_reducible apply Within.ite
           | split
           | dsimp -zeta only
           | dsimp +zetaDelta only
       clear_value x)
    | intro x
    | lift_lets
    | with_reducible apply Within.ite
    | split
    | dsimp -zeta only
    | dsimp +zetaDelta only

theorem State.linkUnused_within (s : State) (l : Nat) :
    Within (.of [.links, .act, .irqs, .log, .pm, .events, .bus] [.laneState, .linkState, .busStatus, .busGrants, .logState, .logEvbEntries, .logDropped, .logEvbLost, .logEntries, .sysIntSrc]) s (State.linkUnused s l) := by
  delta State.linkUnused
  repeat' first
    | with_reducible assumption
    | with_reducible apply Within.refl
    | ((with_reducible apply Within.setFlag); (case hr => first | decide | exact Foot.allRegs_hasReg _ _ | exact Foot.all_hasReg _ | (subst_vars; decide) | ((try dsimp +zetaDelta only); split <;> first | decide | (split <;> first | decide | (split <;> decide)))))
    | ((with_reducible apply Within.setLaneBit); (case hr => first | decide | exact Foot.allRegs_hasReg _ _ | exact Foot.all_hasReg _ | (subst_vars; decide) | ((try dsimp +zetaDelta only); split <;> first | decide | (split <;> first | decide | (split <;> decide)))))
    | ((with_reducible apply Within.after (State.discordExit_within ..)); (case hle => decide))
    | ((with_reducible apply Within.after (State.rdiExit_within ..)); (case hle => decide))
    | ((with_reducible apply Within.after (State.lofExit_within ..)); (case hle => decide))
    | ((with_reducible apply Within.after (State.typeErrExit_within ..)); (case hle => decide))
    | ((with_reducible apply Within.after (State.setRx_within ..)); (case hle => decide))
    | ((with_reducible apply Within.after (State.clear_within ..)); (case hle => decide))
    | (intro x
       have hx : Within (.of [.links, .act, .irqs, .log, .pm, .events, .bus] [.laneState, .linkState, .busStatus, .busGrants, .logState, .logEvbEntries, .logDropped, .logEvbLost, .logEntries, .sysIntSrc]) s x := by
         dsimp -zeta only [x]
         repeat' first
           | with_reducible assumption
           | with_reducible apply Within.refl
           | ((with_reducible apply Within.setFlag); (case hr => first | decide | exact Foot.allRegs_hasReg _ _ | exact Foot.all_hasReg _ | (subst_vars; decide) | ((try dsimp +zetaDelta only); split <;> first | decide | (split <;> first | decide | (split <;> decide)))))
           | ((with_reducible apply Within.setLaneBit); (case hr => first | decide | exact Foot.allRegs_hasReg _ _ | exact Foot.all_hasReg _ | (subst_vars; decide) | ((try dsimp +zetaDelta only); split <;> first | decide | (split <;> first | decide | (split <;> decide)))))
           | ((with_reducible apply Within.after (State.discordExit_within ..)); (case hle => decide))
           | ((with_reducible apply Within.after (State.rdiExit_within ..)); (case hle => decide))
           | ((with_reducible apply Within.after (State.lofExit_within ..)); (case hle => decide))
           | ((with_reducible apply Within.after (State.typeErrExit_within ..)); (case hle => decide))
           | ((with_reducible apply Within.after (State.setRx_within ..)); (case hle => decide))
           | ((with_reducible apply Within.after (State.clear_within ..)); (case hle => decide))
           | with_reducible apply Within.ite
           | split
           | dsimp -zeta only
           | dsimp +zetaDelta only
       clear_value x)
    | intro x
    | lift_lets
    | with_reducible apply Within.ite
    | split
    | dsimp -zeta only
    | dsimp +zetaDelta only

theorem State.leaveUp_within (s : State) (q : Nat) (t16 : Nat) :
    Within (.of [.links, .lag, .act, .latch, .irqs, .log, .pm, .events, .hbm, .mate, .bus] [.laneScanStatus, .linkState, .linkFramesGood, .linkFramesDoubtful, .linkFramesBad, .linkFramesAbsent, .linkPayCrcErr, .lagArrLast, .lagArrMax, .lagArrMin, .lagLinkState, .lagLate, .lagMarginLow, .mateFrameUnusable, .busStatus, .busGrants, .logState, .logEvbEntries, .logDropped, .logEvbLost, .logEntries, .sysIntSrc]) s (State.leaveUp s q t16) := by
  delta State.leaveUp
  repeat' first
    | with_reducible assumption
    | with_reducible apply Within.refl
    | ((with_reducible apply Within.each); (case' hg => intro _ _ _))
    | ((with_reducible apply Within.after (State.scanEnd_within ..)); (case hle => decide))
    | ((with_reducible apply Within.after (State.formVerdict_within ..)); (case hle => decide))
    | with_reducible apply Within.ite
    | split
    | dsimp -zeta only

theorem State.leaveTest_within (s : State) (q : Nat) :
    Within (.of [.links] [.lanePrbsCtrl]) s (State.leaveTest s q) := by
  delta State.leaveTest
  repeat' first
    | with_reducible assumption
    | with_reducible apply Within.refl
    | ((with_reducible apply Within.wr); (case hr => first | decide | exact Foot.allRegs_hasReg _ _ | exact Foot.all_hasReg _ | (subst_vars; decide) | ((try dsimp +zetaDelta only); split <;> first | decide | (split <;> first | decide | (split <;> decide)))))
    | ((with_reducible apply Within.each); (case' hg => intro _ _ _))
    | ((with_reducible apply Within.after (State.setRx_within ..)); (case hle => decide))
    | with_reducible apply Within.ite
    | split
    | dsimp -zeta only

theorem State.enterQuad_within (s : State) (q : Nat) (st : Nat) (t16 : Nat) :
    Within (.of [.quads, .lanes, .links, .lag, .act, .latch, .irqs, .log, .pm, .events, .hbm, .mate, .tim, .bus] [.laneState, .laneTxfir, .lanePrbsCtrl, .laneScanStatus, .laneBringupTry, .linkState, .linkFramesGood, .linkFramesDoubtful, .linkFramesBad, .linkFramesAbsent, .linkPayCrcErr, .linkOofEntry, .lagArrLast, .lagArrMax, .lagArrMin, .lagLinkState, .lagLate, .lagMarginLow, .timRefState, .timRefDisq, .mateFrameUnusable, .busStatus, .busGrants, .logState, .logEvbEntries, .logDropped, .logEvbLost, .logEntries, .sysIntSrc]) s (State.enterQuad s q st t16) := by
  delta State.enterQuad
  repeat' first
    | with_reducible assumption
    | with_reducible apply Within.refl
    | ((with_reducible apply Within.wr); (case hr => first | decide | exact Foot.allRegs_hasReg _ _ | exact Foot.all_hasReg _ | (subst_vars; decide) | ((try dsimp +zetaDelta only); split <;> first | decide | (split <;> first | decide | (split <;> decide)))))
    | ((with_reducible apply Within.count); (case hr => first | decide | exact Foot.allRegs_hasReg _ _ | exact Foot.all_hasReg _ | (subst_vars; decide) | ((try dsimp +zetaDelta only); split <;> first | decide | (split <;> first | decide | (split <;> decide)))))
    | ((with_reducible apply Within.each); (case' hg => intro _ _ _))
    | ((with_reducible apply Within.after (State.leaveUp_within ..)); (case hle => decide))
    | ((with_reducible apply Within.after (State.leaveTest_within ..)); (case hle => decide))
    | ((with_reducible apply Within.after (State.quadDrop_within ..)); (case hle => decide))
    | ((with_reducible apply Within.after (State.setQuad_within ..)); (case hle => decide))
    | ((with_reducible apply Within.after (State.loadPreset_within ..)); (case hle => decide))
    | ((with_reducible apply Within.after (State.linkUnused_within ..)); (case hle => decide))
    | ((with_reducible apply Within.after (State.enterTrain_within ..)); (case hle => decide))
    | ((with_reducible apply Within.after (State.lofExit_within ..)); (case hle => decide))
    | ((with_reducible apply Within.after (State.setRx_within ..)); (case hle => decide))
    | ((with_reducible apply Within.after (State.quadDown_within ..)); (case hle => decide))
    | (intro x
       have hx : Within (.of [.quads, .lanes, .links, .lag, .act, .latch, .irqs, .log, .pm, .events, .hbm, .mate, .tim, .bus] [.laneState, .laneTxfir, .lanePrbsCtrl, .laneScanStatus, .laneBringupTry, .linkState, .linkFramesGood, .linkFramesDoubtful, .linkFramesBad, .linkFramesAbsent, .linkPayCrcErr, .linkOofEntry, .lagArrLast, .lagArrMax, .lagArrMin, .lagLinkState, .lagLate, .lagMarginLow, .timRefState, .timRefDisq, .mateFrameUnusable, .busStatus, .busGrants, .logState, .logEvbEntries, .logDropped, .logEvbLost, .logEntries, .sysIntSrc]) s x := by
         dsimp -zeta only [x]
         repeat' first
           | with_reducible assumption
           | with_reducible apply Within.refl
           | ((with_reducible apply Within.wr); (case hr => first | decide | exact Foot.allRegs_hasReg _ _ | exact Foot.all_hasReg _ | (subst_vars; decide) | ((try dsimp +zetaDelta only); split <;> first | decide | (split <;> first | decide | (split <;> decide)))))
           | ((with_reducible apply Within.count); (case hr => first | decide | exact Foot.allRegs_hasReg _ _ | exact Foot.all_hasReg _ | (subst_vars; decide) | ((try dsimp +zetaDelta only); split <;> first | decide | (split <;> first | decide | (split <;> decide)))))
           | ((with_reducible apply Within.each); (case' hg => intro _ _ _))
           | ((with_reducible apply Within.after (State.leaveUp_within ..)); (case hle => decide))
           | ((with_reducible apply Within.after (State.leaveTest_within ..)); (case hle => decide))
           | ((with_reducible apply Within.after (State.quadDrop_within ..)); (case hle => decide))
           | ((with_reducible apply Within.after (State.setQuad_within ..)); (case hle => decide))
           | ((with_reducible apply Within.after (State.loadPreset_within ..)); (case hle => decide))
           | ((with_reducible apply Within.after (State.linkUnused_within ..)); (case hle => decide))
           | ((with_reducible apply Within.after (State.enterTrain_within ..)); (case hle => decide))
           | ((with_reducible apply Within.after (State.lofExit_within ..)); (case hle => decide))
           | ((with_reducible apply Within.after (State.setRx_within ..)); (case hle => decide))
           | ((with_reducible apply Within.after (State.quadDown_within ..)); (case hle => decide))
           | with_reducible apply Within.ite
           | split
           | dsimp -zeta only
           | dsimp +zetaDelta only
       clear_value x)
    | intro x
    | lift_lets
    | with_reducible apply Within.ite
    | split
    | dsimp -zeta only
    | dsimp +zetaDelta only

theorem State.alignCheck_within (s : State) (q : Nat) :
    Within (.of [.quads, .lanes, .links, .lag, .act, .latch, .irqs, .log, .pm, .events, .hbm, .mate, .tim, .bus] [.laneState, .laneTxfir, .lanePrbsCtrl, .laneScanStatus, .laneBringupTry, .linkState, .linkFramesGood, .linkFramesDoubtful, .linkFramesBad, .linkFramesAbsent, .linkPayCrcErr, .linkOofEntry, .lagArrLast, .lagArrMax, .lagArrMin, .lagLinkState, .lagLate, .lagMarginLow, .timRefState, .timRefDisq, .mateFrameUnusable, .busStatus, .busGrants, .logState, .logEvbEntries, .logDropped, .logEvbLost, .logEntries, .sysIntSrc]) s (State.alignCheck s q) := by
  delta State.alignCheck
  repeat' first
    | with_reducible assumption
    | with_reducible apply Within.refl
    | ((with_reducible apply Within.after (State.enterQuad_within ..)); (case hle => decide))
    | (intro x
       have hx : Within (.of [.quads, .lanes, .links, .lag, .act, .latch, .irqs, .log, .pm, .events, .hbm, .mate, .tim, .bus] [.laneState, .laneTxfir, .lanePrbsCtrl, .laneScanStatus, .laneBringupTry, .linkState, .linkFramesGood, .linkFramesDoubtful, .linkFramesBad, .linkFramesAbsent, .linkPayCrcErr, .linkOofEntry, .lagArrLast, .lagArrMax, .lagArrMin, .lagLinkState, .lagLate, .lagMarginLow, .timRefState, .timRefDisq, .mateFrameUnusable, .busStatus, .busGrants, .logState, .logEvbEntries, .logDropped, .logEvbLost, .logEntries, .sysIntSrc]) s x := by
         dsimp -zeta only [x]
         repeat' first
           | with_reducible assumption
           | with_reducible apply Within.refl
           | ((with_reducible apply Within.after (State.enterQuad_within ..)); (case hle => decide))
           | with_reducible apply Within.ite
           | split
           | dsimp -zeta only
           | dsimp +zetaDelta only
       clear_value x)
    | intro x
    | lift_lets
    | with_reducible apply Within.ite
    | split
    | dsimp -zeta only
    | dsimp +zetaDelta only

theorem State.quadFail_within (s : State) (q : Nat) (cause : Nat) (st : Nat) (t16 : Nat) :
    Within (.of [.quads, .lanes, .links, .lag, .act, .latch, .irqs, .log, .pm, .events, .hbm, .mate, .tim, .bus] [.laneState, .laneTxfir, .lanePrbsCtrl, .laneScanStatus, .laneBringupTry, .laneUpLoss, .linkState, .linkFramesGood, .linkFramesDoubtful, .linkFramesBad, .linkFramesAbsent, .linkPayCrcErr, .linkOofEntry, .lagArrLast, .lagArrMax, .lagArrMin, .lagLinkState, .lagLate, .lagMarginLow, .timRefState, .timRefDisq, .mateFrameUnusable, .busStatus, .busGrants, .logState, .logEvbEntries, .logDropped, .logEvbLost, .logEntries, .sysIntSrc]) s (State.quadFail s q cause st t16) := by
  delta State.quadFail
  repeat' first
    | with_reducible assumption
    | with_reducible apply Within.refl
    | ((with_reducible apply Within.wr); (case hr => first | decide | exact Foot.allRegs_hasReg _ _ | exact Foot.all_hasReg _ | (subst_vars; decide) | ((try dsimp +zetaDelta only); split <;> first | decide | (split <;> first | decide | (split <;> decide)))))
    | ((with_reducible apply Within.count); (case hr => first | decide | exact Foot.allRegs_hasReg _ _ | exact Foot.all_hasReg _ | (subst_vars; decide) | ((try dsimp +zetaDelta only); split <;> first | decide | (split <;> first | decide | (split <;> decide)))))
    | ((with_reducible apply Within.after (State.enterQuad_within ..)); (case hle => decide))
    | with_reducible apply Within.ite
    | split
    | dsimp -zeta only

theorem State.signalLost_within (s : State) (l : Nat) (t16 : Nat) :
    Within (.of [.quads, .lanes, .links, .lag, .act, .latch, .irqs, .log, .pm, .events, .hbm, .mate, .tim, .bus] [.laneState, .laneTxfir, .lanePrbsCtrl, .laneScanStatus, .laneBringupTry, .laneUpLoss, .linkState, .linkFramesGood, .linkFramesDoubtful, .linkFramesBad, .linkFramesAbsent, .linkPayCrcErr, .linkOofEntry, .lagArrLast, .lagArrMax, .lagArrMin, .lagLinkState, .lagLate, .lagMarginLow, .timRefState, .timRefDisq, .mateFrameUnusable, .busStatus, .busGrants, .logState, .logEvbEntries, .logDropped, .logEvbLost, .logEntries, .sysIntSrc]) s (State.signalLost s l t16) := by
  delta State.signalLost
  repeat' first
    | with_reducible assumption
    | with_reducible apply Within.refl
    | ((with_reducible apply Within.setFlag); (case hr => first | decide | exact Foot.allRegs_hasReg _ _ | exact Foot.all_hasReg _ | (subst_vars; decide) | ((try dsimp +zetaDelta only); split <;> first | decide | (split <;> first | decide | (split <;> decide)))))
    | ((with_reducible apply Within.setLaneBit); (case hr => first | decide | exact Foot.allRegs_hasReg _ _ | exact Foot.all_hasReg _ | (subst_vars; decide) | ((try dsimp +zetaDelta only); split <;> first | decide | (split <;> first | decide | (split <;> decide)))))
    | ((with_reducible apply Within.when); (case' hg => intro _ _))
    | ((with_reducible apply Within.after (State.quadFail_within ..)); (case hle => decide))
    | (intro x
       have hx : Within (.of [.quads, .lanes, .links, .lag, .act, .latch, .irqs, .log, .pm, .events, .hbm, .mate, .tim, .bus] [.laneState, .laneTxfir, .lanePrbsCtrl, .laneScanStatus, .laneBringupTry, .laneUpLoss, .linkState, .linkFramesGood, .linkFramesDoubtful, .linkFramesBad, .linkFramesAbsent, .linkPayCrcErr, .linkOofEntry, .lagArrLast, .lagArrMax, .lagArrMin, .lagLinkState, .lagLate, .lagMarginLow, .timRefState, .timRefDisq, .mateFrameUnusable, .busStatus, .busGrants, .logState, .logEvbEntries, .logDropped, .logEvbLost, .logEntries, .sysIntSrc]) s x := by
         dsimp -zeta only [x]
         repeat' first
           | with_reducible assumption
           | with_reducible apply Within.refl
           | ((with_reducible apply Within.setFlag); (case hr => first | decide | exact Foot.allRegs_hasReg _ _ | exact Foot.all_hasReg _ | (subst_vars; decide) | ((try dsimp +zetaDelta only); split <;> first | decide | (split <;> first | decide | (split <;> decide)))))
           | ((with_reducible apply Within.setLaneBit); (case hr => first | decide | exact Foot.allRegs_hasReg _ _ | exact Foot.all_hasReg _ | (subst_vars; decide) | ((try dsimp +zetaDelta only); split <;> first | decide | (split <;> first | decide | (split <;> decide)))))
           | ((with_reducible apply Within.when); (case' hg => intro _ _))
           | ((with_reducible apply Within.after (State.quadFail_within ..)); (case hle => decide))
           | with_reducible apply Within.ite
           | split
           | dsimp -zeta only
           | dsimp +zetaDelta only
       clear_value x)
    | intro x
    | lift_lets
    | with_reducible apply Within.ite
    | split
    | dsimp -zeta only
    | dsimp +zetaDelta only

theorem State.signalBack_within (s : State) (l : Nat) :
    Within (.of [.links] [.laneState]) s (State.signalBack s l) := by
  delta State.signalBack
  repeat' first
    | with_reducible assumption
    | with_reducible apply Within.refl
    | ((with_reducible apply Within.setLaneBit); (case hr => first | decide | exact Foot.allRegs_hasReg _ _ | exact Foot.all_hasReg _ | (subst_vars; decide) | ((try dsimp +zetaDelta only); split <;> first | decide | (split <;> first | decide | (split <;> decide)))))
    | ((with_reducible apply Within.after (State.setRx_within ..)); (case hle => decide))
    | with_reducible apply Within.ite
    | split
    | dsimp -zeta only

theorem State.clockSignal_within (s : State) (q : Nat) (present : Bool) :
    Within (.of [.quads, .lanes, .links, .lag, .act, .latch, .irqs, .log, .pm, .events, .hbm, .mate, .tim, .bus] [.laneState, .laneTxfir, .lanePrbsCtrl, .laneScanStatus, .laneBringupTry, .laneUpLoss, .linkState, .linkFramesGood, .linkFramesDoubtful, .linkFramesBad, .linkFramesAbsent, .linkPayCrcErr, .linkOofEntry, .lagArrLast, .lagArrMax, .lagArrMin, .lagLinkState, .lagLate, .lagMarginLow, .timRefState, .timRefDisq, .mateFrameUnusable, .busStatus, .busGrants, .logState, .logEvbEntries, .logDropped, .logEvbLost, .logEntries, .sysIntSrc]) s (State.clockSignal s q present) := by
  delta State.clockSignal
  repeat' first
    | with_reducible assumption
    | with_reducible apply Within.refl
    | ((with_reducible apply Within.setFlag); (case hr => first | decide | exact Foot.allRegs_hasReg _ _ | exact Foot.all_hasReg _ | (subst_vars; decide) | ((try dsimp +zetaDelta only); split <;> first | decide | (split <;> first | decide | (split <;> decide)))))
    | ((with_reducible apply Within.after (State.quadFail_within ..)); (case hle => decide))
    | (intro x
       have hx : Within (.of [.quads, .lanes, .links, .lag, .act, .latch, .irqs, .log, .pm, .events, .hbm, .mate, .tim, .bus] [.laneState, .laneTxfir, .lanePrbsCtrl, .laneScanStatus, .laneBringupTry, .laneUpLoss, .linkState, .linkFramesGood, .linkFramesDoubtful, .linkFramesBad, .linkFramesAbsent, .linkPayCrcErr, .linkOofEntry, .lagArrLast, .lagArrMax, .lagArrMin, .lagLinkState, .lagLate, .lagMarginLow, .timRefState, .timRefDisq, .mateFrameUnusable, .busStatus, .busGrants, .logState, .logEvbEntries, .logDropped, .logEvbLost, .logEntries, .sysIntSrc]) s x := by
         dsimp -zeta only [x]
         repeat' first
           | with_reducible assumption
           | with_reducible apply Within.refl
           | ((with_reducible apply Within.setFlag); (case hr => first | decide | exact Foot.allRegs_hasReg _ _ | exact Foot.all_hasReg _ | (subst_vars; decide) | ((try dsimp +zetaDelta only); split <;> first | decide | (split <;> first | decide | (split <;> decide)))))
           | ((with_reducible apply Within.after (State.quadFail_within ..)); (case hle => decide))
           | with_reducible apply Within.ite
           | split
           | dsimp -zeta only
           | dsimp +zetaDelta only
       clear_value x)
    | intro x
    | lift_lets
    | with_reducible apply Within.ite
    | split
    | dsimp -zeta only
    | dsimp +zetaDelta only

theorem State.linkUsed_within (s : State) (l : Nat) :
    Within (.of [.links] []) s (State.linkUsed s l) := by
  delta State.linkUsed
  repeat' first
    | with_reducible assumption
    | with_reducible apply Within.refl
    | ((with_reducible apply Within.after (State.setRx_within ..)); (case hle => decide))
    | with_reducible apply Within.ite
    | split
    | dsimp -zeta only

theorem State.quadEdge_within (s : State) (q : Nat) :
    Within (.of [.quads, .lanes, .links, .lag, .act, .latch, .irqs, .log, .pm, .events, .hbm, .mate, .tim, .bus] [.laneState, .laneTxfir, .lanePrbsCtrl, .laneScanStatus, .laneBringupTry, .linkState, .linkFramesGood, .linkFramesDoubtful, .linkFramesBad, .linkFramesAbsent, .linkPayCrcErr, .linkOofEntry, .lagArrLast, .lagArrMax, .lagArrMin, .lagLinkState, .lagLate, .lagMarginLow, .timRefState, .timRefDisq, .mateFrameUnusable, .busStatus, .busGrants, .logState, .logEvbEntries, .logDropped, .logEvbLost, .logEntries, .sysIntSrc]) s (State.quadEdge s q) := by
  delta State.quadEdge
  repeat' first
    | with_reducible assumption
    | with_reducible apply Within.refl
    | ((with_reducible apply Within.after (State.setQuad_within ..)); (case hle => decide))
    | ((with_reducible apply Within.after (State.enterQuad_within ..)); (case hle => decide))
    | (intro x
       have hx : Within (.of [.quads, .lanes, .links, .lag, .act, .latch, .irqs, .log, .pm, .events, .hbm, .mate, .tim, .bus] [.laneState, .laneTxfir, .lanePrbsCtrl, .laneScanStatus, .laneBringupTry, .linkState, .linkFramesGood, .linkFramesDoubtful, .linkFramesBad, .linkFramesAbsent, .linkPayCrcErr, .linkOofEntry, .lagArrLast, .lagArrMax, .lagArrMin, .lagLinkState, .lagLate, .lagMarginLow, .timRefState, .timRefDisq, .mateFrameUnusable, .busStatus, .busGrants, .logState, .logEvbEntries, .logDropped, .logEvbLost, .logEntries, .sysIntSrc]) s x := by
         dsimp -zeta only [x]
         repeat' first
           | with_reducible assumption
           | with_reducible apply Within.refl
           | ((with_reducible apply Within.after (State.setQuad_within ..)); (case hle => decide))
           | ((with_reducible apply Within.after (State.enterQuad_within ..)); (case hle => decide))
           | with_reducible apply Within.ite
           | split
           | dsimp -zeta only
           | dsimp +zetaDelta only
       clear_value x)
    | intro x
    | lift_lets
    | with_reducible apply Within.ite
    | split
    | dsimp -zeta only
    | dsimp +zetaDelta only

theorem State.loopChanged_within (s : State) (q : Nat) :
    Within (.of [.quads, .lanes] []) s (State.loopChanged s q) := by
  delta State.loopChanged
  repeat' first
    | with_reducible assumption
    | with_reducible apply Within.refl
    | ((with_reducible apply Within.when); (case' hg => intro _ _))
    | ((with_reducible apply Within.each); (case' hg => intro _ _ _))
    | ((with_reducible apply Within.after (State.setQuad_within ..)); (case hle => decide))
    | ((with_reducible apply Within.after (State.disqualify_within ..)); (case hle => decide))
    | (intro x
       have hx : Within (.of [.quads, .lanes] []) s x := by
         dsimp -zeta only [x]
         repeat' first
           | with_reducible assumption
           | with_reducible apply Within.refl
           | ((with_reducible apply Within.when); (case' hg => intro _ _))
           | ((with_reducible apply Within.each); (case' hg => intro _ _ _))
           | ((with_reducible apply Within.after (State.setQuad_within ..)); (case hle => decide))
           | ((with_reducible apply Within.after (State.disqualify_within ..)); (case hle => decide))
           | with_reducible apply Within.ite
           | split
           | dsimp -zeta only
           | dsimp +zetaDelta only
       clear_value x)
    | intro x
    | lift_lets
    | with_reducible apply Within.ite
    | split
    | dsimp -zeta only
    | dsimp +zetaDelta only

theorem State.prbsSeed_within (s : State) (l : Nat) :
    Within (.of [.free, .links] []) s (State.prbsSeed s l) := by
  delta State.prbsSeed
  repeat' first
    | with_reducible assumption
    | with_reducible apply Within.refl
    | ((with_reducible apply Within.after (State.takeFree_within ..)); (case hle => decide))
    | ((with_reducible apply Within.after (Within.of_eq (State.takeFree_within ..) ?e)); (case e => assumption); (case hle => decide))
    | ((with_reducible apply Within.after (State.setTx_within ..)); (case hle => decide))
    | (intro x
       have hx : Within (.of [.free, .links] []) s x := by
         dsimp -zeta only [x]
         repeat' first
           | with_reducible assumption
           | with_reducible apply Within.refl
           | ((with_reducible apply Within.after (State.takeFree_within ..)); (case hle => decide))
           | ((with_reducible apply Within.after (Within.of_eq (State.takeFree_within ..) ?e)); (case e => assumption); (case hle => decide))
           | ((with_reducible apply Within.after (State.setTx_within ..)); (case hle => decide))
           | with_reducible apply Within.ite
           | split
           | dsimp -zeta only
           | dsimp +zetaDelta only
       clear_value x)
    | intro x
    | lift_lets
    | with_reducible apply Within.ite
    | split
    | dsimp -zeta only
    | dsimp +zetaDelta only

theorem State.txEnChanged_within (s : State) (q : Nat) (old : Nat) :
    Within (.of [.free, .lanes, .links] []) s (State.txEnChanged s q old) := by
  delta State.txEnChanged
  repeat' first
    | with_reducible assumption
    | with_reducible apply Within.refl
    | ((with_reducible apply Within.each); (case' hg => intro _ _ _))
    | ((with_reducible apply Within.when); (case' hg => intro _ _))
    | ((with_reducible apply Within.after (State.prbsSeed_within ..)); (case hle => decide))
    | ((with_reducible apply Within.after (State.disqualify_within ..)); (case hle => decide))
    | (intro x
       have hx : Within (.of [.free, .lanes, .links] []) s x := by
         dsimp -zeta only [x]
         repeat' first
           | with_reducible assumption
           | with_reducible apply Within.refl
           | ((with_reducible apply Within.each); (case' hg => intro _ _ _))
           | ((with_reducible apply Within.when); (case' hg => intro _ _))
           | ((with_reducible apply Within.after (State.prbsSeed_within ..)); (case hle => decide))
           | ((with_reducible apply Within.after (State.disqualify_within ..)); (case hle => decide))
           | with_reducible apply Within.ite
           | split
           | dsimp -zeta only
           | dsimp +zetaDelta only
       clear_value x)
    | intro x
    | lift_lets
    | with_reducible apply Within.ite
    | split
    | dsimp -zeta only
    | dsimp +zetaDelta only

theorem State.setRxEn_within (s : State) (q : Nat) (v : Nat) :
    Within (.of [.quads, .lanes, .links] [.lanePrbsCtrl]) s (State.setRxEn s q v) := by
  delta State.setRxEn
  repeat' first
    | with_reducible assumption
    | with_reducible apply Within.refl
    | ((with_reducible apply Within.wr); (case hr => first | decide | exact Foot.allRegs_hasReg _ _ | exact Foot.all_hasReg _ | (subst_vars; decide) | ((try dsimp +zetaDelta only); split <;> first | decide | (split <;> first | decide | (split <;> decide)))))
    | ((with_reducible apply Within.each); (case' hg => intro _ _ _))
    | ((with_reducible apply Within.when); (case' hg => intro _ _))
    | ((with_reducible apply Within.after (State.setRx_within ..)); (case hle => decide))
    | ((with_reducible apply Within.after (State.setQuad_within ..)); (case hle => decide))
    | ((with_reducible apply Within.after (State.disqualify_within ..)); (case hle => decide))
    | (intro x
       have hx : Within (.of [.quads, .lanes, .links] [.lanePrbsCtrl]) s x := by
         dsimp -zeta only [x]
         repeat' first
           | with_reducible assumption
           | with_reducible apply Within.refl
           | ((with_reducible apply Within.wr); (case hr => first | decide | exact Foot.allRegs_hasReg _ _ | exact Foot.all_hasReg _ | (subst_vars; decide) | ((try dsimp +zetaDelta only); split <;> first | decide | (split <;> first | decide | (split <;> decide)))))
           | ((with_reducible apply Within.each); (case' hg => intro _ _ _))
           | ((with_reducible apply Within.when); (case' hg => intro _ _))
           | ((with_reducible apply Within.after (State.setRx_within ..)); (case hle => decide))
           | ((with_reducible apply Within.after (State.setQuad_within ..)); (case hle => decide))
           | ((with_reducible apply Within.after (State.disqualify_within ..)); (case hle => decide))
           | with_reducible apply Within.ite
           | split
           | dsimp -zeta only
           | dsimp +zetaDelta only
       clear_value x)
    | intro x
    | lift_lets
    | with_reducible apply Within.ite
    | split
    | dsimp -zeta only
    | dsimp +zetaDelta only

theorem State.prbsTake_within (s : State) (l : Nat) (hdr : BitVec 2) (line : BitVec 64) :
    Within (.of [.links] [.lanePrbsErr, .lanePrbsBits]) s (State.prbsTake s l hdr line) := by
  delta State.prbsTake
  repeat' first
    | with_reducible assumption
    | with_reducible apply Within.refl
    | ((with_reducible apply Within.countBy); (case hr => first | decide | exact Foot.allRegs_hasReg _ _ | exact Foot.all_hasReg _ | (subst_vars; decide) | ((try dsimp +zetaDelta only); split <;> first | decide | (split <;> first | decide | (split <;> decide)))))
    | ((with_reducible apply Within.after (State.setRx_within ..)); (case hle => decide))
    | (intro x
       have hx : Within (.of [.links] [.lanePrbsErr, .lanePrbsBits]) s x := by
         dsimp -zeta only [x]
         repeat' first
           | with_reducible assumption
           | with_reducible apply Within.refl
           | ((with_reducible apply Within.countBy); (case hr => first | decide | exact Foot.allRegs_hasReg _ _ | exact Foot.all_hasReg _ | (subst_vars; decide) | ((try dsimp +zetaDelta only); split <;> first | decide | (split <;> first | decide | (split <;> decide)))))
           | ((with_reducible apply Within.after (State.setRx_within ..)); (case hle => decide))
           | with_reducible apply Within.ite
           | split
           | dsimp -zeta only
           | dsimp +zetaDelta only
       clear_value x)
    | intro x
    | lift_lets
    | with_reducible apply Within.ite
    | split
    | dsimp -zeta only
    | dsimp +zetaDelta only

theorem State.scanStart_within (s : State) (q : Nat) :
    Within (.of [.quads, .lanes] [.laneScanStatus]) s (State.scanStart s q) := by
  delta State.scanStart
  repeat' first
    | with_reducible assumption
    | with_reducible apply Within.refl
    | ((with_reducible apply Within.wr); (case hr => first | decide | exact Foot.allRegs_hasReg _ _ | exact Foot.all_hasReg _ | (subst_vars; decide) | ((try dsimp +zetaDelta only); split <;> first | decide | (split <;> first | decide | (split <;> decide)))))
    | ((with_reducible apply Within.setFlag); (case hr => first | decide | exact Foot.allRegs_hasReg _ _ | exact Foot.all_hasReg _ | (subst_vars; decide) | ((try dsimp +zetaDelta only); split <;> first | decide | (split <;> first | decide | (split <;> decide)))))
    | ((with_reducible apply Within.after (State.setQuad_within ..)); (case hle => decide))
    | ((with_reducible apply Within.after (State.disqualify_within ..)); (case hle => decide))
    | (intro x
       have hx : Within (.of [.quads, .lanes] [.laneScanStatus]) s x := by
         dsimp -zeta only [x]
         repeat' first
           | with_reducible assumption
           | with_reducible apply Within.refl
           | ((with_reducible apply Within.wr); (case hr => first | decide | exact Foot.allRegs_hasReg _ _ | exact Foot.all_hasReg _ | (subst_vars; decide) | ((try dsimp +zetaDelta only); split <;> first | decide | (split <;> first | decide | (split <;> decide)))))
           | ((with_reducible apply Within.setFlag); (case hr => first | decide | exact Foot.allRegs_hasReg _ _ | exact Foot.all_hasReg _ | (subst_vars; decide) | ((try dsimp +zetaDelta only); split <;> first | decide | (split <;> first | decide | (split <;> decide)))))
           | ((with_reducible apply Within.after (State.setQuad_within ..)); (case hle => decide))
           | ((with_reducible apply Within.after (State.disqualify_within ..)); (case hle => decide))
           | with_reducible apply Within.ite
           | split
           | dsimp -zeta only
           | dsimp +zetaDelta only
       clear_value x)
    | intro x
    | lift_lets
    | with_reducible apply Within.ite
    | split
    | dsimp -zeta only
    | dsimp +zetaDelta only

theorem State.adaptTick_within (s : State) (l : Nat) :
    Within (.of [.lanes] []) s (State.adaptTick s l) := by
  delta State.adaptTick
  repeat' first
    | with_reducible assumption
    | with_reducible apply Within.refl
    | ((with_reducible apply Within.after (State.setLane_within ..)); (case hle => decide))
    | (intro x
       have hx : Within (.of [.lanes] []) s x := by
         dsimp -zeta only [x]
         repeat' first
           | with_reducible assumption
           | with_reducible apply Within.refl
           | ((with_reducible apply Within.after (State.setLane_within ..)); (case hle => decide))
           | with_reducible apply Within.ite
           | split
           | dsimp -zeta only
           | dsimp +zetaDelta only
       clear_value x)
    | intro x
    | lift_lets
    | with_reducible apply Within.ite
    | split
    | dsimp -zeta only
    | dsimp +zetaDelta only

theorem State.holdDecision_within (s : State) (l : Nat) :
    Within (.of [.lanes] [.laneState]) s (State.holdDecision s l) := by
  delta State.holdDecision
  repeat' first
    | with_reducible assumption
    | with_reducible apply Within.refl
    | ((with_reducible apply Within.after (State.setLane_within ..)); (case hle => decide))
    | ((with_reducible apply Within.after (State.enterService_within ..)); (case hle => decide))
    | (intro x
       have hx : Within (.of [.lanes] [.laneState]) s x := by
         dsimp -zeta only [x]
         repeat' first
           | with_reducible assumption
           | with_reducible apply Within.refl
           | ((with_reducible apply Within.after (State.setLane_within ..)); (case hle => decide))
           | ((with_reducible apply Within.after (State.enterService_within ..)); (case hle => decide))
           | with_reducible apply Within.ite
           | split
           | dsimp -zeta only
           | dsimp +zetaDelta only
       clear_value x)
    | intro x
    | lift_lets
    | with_reducible apply Within.ite
    | split
    | dsimp -zeta only
    | dsimp +zetaDelta only

theorem execTxPllLock_within (q : QuadId) (s : State) (s' : State)
    (h : execTxPllLock q s = .next s') :
    Within (.of [.quads, .lanes, .links, .lag, .act, .latch, .irqs, .log, .pm, .events, .hbm, .mate, .tim, .bus] [.laneState, .laneTxfir, .lanePrbsCtrl, .laneScanStatus, .laneBringupTry, .linkState, .linkFramesGood, .linkFramesDoubtful, .linkFramesBad, .linkFramesAbsent, .linkPayCrcErr, .linkOofEntry, .lagArrLast, .lagArrMax, .lagArrMin, .lagLinkState, .lagLate, .lagMarginLow, .timRefState, .timRefDisq, .mateFrameUnusable, .busStatus, .busGrants, .logState, .logEvbEntries, .logDropped, .logEvbLost, .logEntries, .sysIntSrc]) s s' := by
  delta execTxPllLock at h
  injection h with h
  subst h
  repeat' first
    | with_reducible assumption
    | with_reducible apply Within.refl
    | ((with_reducible apply Within.setFlag); (case hr => first | decide | exact Foot.allRegs_hasReg _ _ | exact Foot.all_hasReg _ | (subst_vars; decide) | ((try dsimp +zetaDelta only); split <;> first | decide | (split <;> first | decide | (split <;> decide)))))
    | ((with_reducible apply Within.when); (case' hg => intro _ _))
    | ((with_reducible apply Within.after (State.enterQuad_within ..)); (case hle => decide))
    | (intro x
       have hx : Within (.of [.quads, .lanes, .links, .lag, .act, .latch, .irqs, .log, .pm, .events, .hbm, .mate, .tim, .bus] [.laneState, .laneTxfir, .lanePrbsCtrl, .laneScanStatus, .laneBringupTry, .linkState, .linkFramesGood, .linkFramesDoubtful, .linkFramesBad, .linkFramesAbsent, .linkPayCrcErr, .linkOofEntry, .lagArrLast, .lagArrMax, .lagArrMin, .lagLinkState, .lagLate, .lagMarginLow, .timRefState, .timRefDisq, .mateFrameUnusable, .busStatus, .busGrants, .logState, .logEvbEntries, .logDropped, .logEvbLost, .logEntries, .sysIntSrc]) s x := by
         dsimp -zeta only [x]
         repeat' first
           | with_reducible assumption
           | with_reducible apply Within.refl
           | ((with_reducible apply Within.setFlag); (case hr => first | decide | exact Foot.allRegs_hasReg _ _ | exact Foot.all_hasReg _ | (subst_vars; decide) | ((try dsimp +zetaDelta only); split <;> first | decide | (split <;> first | decide | (split <;> decide)))))
           | ((with_reducible apply Within.when); (case' hg => intro _ _))
           | ((with_reducible apply Within.after (State.enterQuad_within ..)); (case hle => decide))
           | with_reducible apply Within.ite
           | split
           | dsimp -zeta only
           | dsimp +zetaDelta only
       clear_value x)
    | intro x
    | lift_lets
    | with_reducible apply Within.ite
    | split
    | dsimp -zeta only
    | dsimp +zetaDelta only

theorem execClockLaneAcquire_within (q : QuadId) (s : State) (s' : State)
    (h : execClockLaneAcquire q s = .next s') :
    Within (.of [.quads, .lanes, .links, .lag, .act, .latch, .irqs, .log, .pm, .events, .hbm, .mate, .tim, .bus] [.laneState, .laneTxfir, .lanePrbsCtrl, .laneScanStatus, .laneBringupTry, .linkState, .linkFramesGood, .linkFramesDoubtful, .linkFramesBad, .linkFramesAbsent, .linkPayCrcErr, .linkOofEntry, .lagArrLast, .lagArrMax, .lagArrMin, .lagLinkState, .lagLate, .lagMarginLow, .timRefState, .timRefDisq, .mateFrameUnusable, .busStatus, .busGrants, .logState, .logEvbEntries, .logDropped, .logEvbLost, .logEntries, .sysIntSrc]) s s' := by
  delta execClockLaneAcquire at h
  injection h with h
  subst h
  repeat' first
    | with_reducible assumption
    | with_reducible apply Within.refl
    | ((with_reducible apply Within.setFlag); (case hr => first | decide | exact Foot.allRegs_hasReg _ _ | exact Foot.all_hasReg _ | (subst_vars; decide) | ((try dsimp +zetaDelta only); split <;> first | decide | (split <;> first | decide | (split <;> decide)))))
    | ((with_reducible apply Within.when); (case' hg => intro _ _))
    | ((with_reducible apply Within.after (State.enterQuad_within ..)); (case hle => decide))
    | with_reducible apply Within.ite
    | split
    | dsimp -zeta only

theorem execDeskewDone_within (q : QuadId) (k : Skews) (s : State) (s' : State)
    (h : execDeskewDone q k s = .next s') :
    Within (.of [.quads, .lanes, .links, .lag, .act, .latch, .irqs, .log, .pm, .events, .hbm, .mate, .tim, .bus] [.laneState, .laneSkew, .laneTxfir, .lanePrbsCtrl, .laneScanStatus, .laneBringupTry, .linkState, .linkFramesGood, .linkFramesDoubtful, .linkFramesBad, .linkFramesAbsent, .linkPayCrcErr, .linkOofEntry, .lagArrLast, .lagArrMax, .lagArrMin, .lagLinkState, .lagLate, .lagMarginLow, .timRefState, .timRefDisq, .mateFrameUnusable, .busStatus, .busGrants, .logState, .logEvbEntries, .logDropped, .logEvbLost, .logEntries, .sysIntSrc]) s s' := by
  delta execDeskewDone at h
  injection h with h
  subst h
  repeat' first
    | with_reducible assumption
    | with_reducible apply Within.refl
    | ((with_reducible apply Within.wrS); (case hr => first | decide | exact Foot.allRegs_hasReg _ _ | exact Foot.all_hasReg _ | (subst_vars; decide) | ((try dsimp +zetaDelta only); split <;> first | decide | (split <;> first | decide | (split <;> decide)))))
    | ((with_reducible apply Within.when); (case' hg => intro _ _))
    | ((with_reducible apply Within.each); (case' hg => intro _ _ _))
    | ((with_reducible apply Within.after (State.signalBack_within ..)); (case hle => decide))
    | ((with_reducible apply Within.after (State.enterQuad_within ..)); (case hle => decide))
    | (intro x
       have hx : Within (.of [.quads, .lanes, .links, .lag, .act, .latch, .irqs, .log, .pm, .events, .hbm, .mate, .tim, .bus] [.laneState, .laneSkew, .laneTxfir, .lanePrbsCtrl, .laneScanStatus, .laneBringupTry, .linkState, .linkFramesGood, .linkFramesDoubtful, .linkFramesBad, .linkFramesAbsent, .linkPayCrcErr, .linkOofEntry, .lagArrLast, .lagArrMax, .lagArrMin, .lagLinkState, .lagLate, .lagMarginLow, .timRefState, .timRefDisq, .mateFrameUnusable, .busStatus, .busGrants, .logState, .logEvbEntries, .logDropped, .logEvbLost, .logEntries, .sysIntSrc]) s x := by
         dsimp -zeta only [x]
         repeat' first
           | with_reducible assumption
           | with_reducible apply Within.refl
           | ((with_reducible apply Within.wrS); (case hr => first | decide | exact Foot.allRegs_hasReg _ _ | exact Foot.all_hasReg _ | (subst_vars; decide) | ((try dsimp +zetaDelta only); split <;> first | decide | (split <;> first | decide | (split <;> decide)))))
           | ((with_reducible apply Within.when); (case' hg => intro _ _))
           | ((with_reducible apply Within.each); (case' hg => intro _ _ _))
           | ((with_reducible apply Within.after (State.signalBack_within ..)); (case hle => decide))
           | ((with_reducible apply Within.after (State.enterQuad_within ..)); (case hle => decide))
           | with_reducible apply Within.ite
           | split
           | dsimp -zeta only
           | dsimp +zetaDelta only
       clear_value x)
    | intro x
    | lift_lets
    | with_reducible apply Within.ite
    | split
    | dsimp -zeta only
    | dsimp +zetaDelta only

theorem execQuadStateTimeout_within (q : QuadId) (s : State) (s' : State)
    (h : execQuadStateTimeout q s = .next s') :
    Within (.of [.quads, .lanes, .links, .lag, .act, .latch, .irqs, .log, .pm, .events, .hbm, .mate, .tim, .bus] [.laneState, .laneTxfir, .lanePrbsCtrl, .laneScanStatus, .laneBringupTry, .laneBringupTimeout, .linkState, .linkFramesGood, .linkFramesDoubtful, .linkFramesBad, .linkFramesAbsent, .linkPayCrcErr, .linkOofEntry, .lagArrLast, .lagArrMax, .lagArrMin, .lagLinkState, .lagLate, .lagMarginLow, .timRefState, .timRefDisq, .mateFrameUnusable, .busStatus, .busGrants, .logState, .logEvbEntries, .logDropped, .logEvbLost, .logEntries, .sysIntSrc]) s s' := by
  delta execQuadStateTimeout at h
  injection h with h
  subst h
  repeat' first
    | with_reducible assumption
    | with_reducible apply Within.refl
    | ((with_reducible apply Within.wr); (case hr => first | decide | exact Foot.allRegs_hasReg _ _ | exact Foot.all_hasReg _ | (subst_vars; decide) | ((try dsimp +zetaDelta only); split <;> first | decide | (split <;> first | decide | (split <;> decide)))))
    | ((with_reducible apply Within.count); (case hr => first | decide | exact Foot.allRegs_hasReg _ _ | exact Foot.all_hasReg _ | (subst_vars; decide) | ((try dsimp +zetaDelta only); split <;> first | decide | (split <;> first | decide | (split <;> decide)))))
    | ((with_reducible apply Within.when); (case' hg => intro _ _))
    | ((with_reducible apply Within.after (State.enterQuad_within ..)); (case hle => decide))
    | with_reducible apply Within.ite
    | split
    | dsimp -zeta only

theorem execQuadWaitEnd_within (q : QuadId) (s : State) (s' : State)
    (h : execQuadWaitEnd q s = .next s') :
    Within (.of [.quads, .lanes, .links, .lag, .act, .latch, .irqs, .log, .pm, .events, .hbm, .mate, .tim, .bus] [.laneState, .laneTxfir, .lanePrbsCtrl, .laneScanStatus, .laneBringupTry, .linkState, .linkFramesGood, .linkFramesDoubtful, .linkFramesBad, .linkFramesAbsent, .linkPayCrcErr, .linkOofEntry, .lagArrLast, .lagArrMax, .lagArrMin, .lagLinkState, .lagLate, .lagMarginLow, .timRefState, .timRefDisq, .mateFrameUnusable, .busStatus, .busGrants, .logState, .logEvbEntries, .logDropped, .logEvbLost, .logEntries, .sysIntSrc]) s s' := by
  delta execQuadWaitEnd at h
  injection h with h
  subst h
  repeat' first
    | with_reducible assumption
    | with_reducible apply Within.refl
    | ((with_reducible apply Within.when); (case' hg => intro _ _))
    | ((with_reducible apply Within.after (State.enterQuad_within ..)); (case hle => decide))
    | with_reducible apply Within.ite
    | split
    | dsimp -zeta only

theorem execQuadFailure_within (q : QuadId) (c : Failure) (s : State) (s' : State)
    (h : execQuadFailure q c s = .next s') :
    Within (.of [.quads, .lanes, .links, .lag, .act, .latch, .irqs, .log, .pm, .events, .hbm, .mate, .tim, .bus] [.laneState, .laneTxfir, .lanePrbsCtrl, .laneScanStatus, .laneBringupTry, .laneUpLoss, .linkState, .linkFramesGood, .linkFramesDoubtful, .linkFramesBad, .linkFramesAbsent, .linkPayCrcErr, .linkOofEntry, .linkLolEntry, .lagArrLast, .lagArrMax, .lagArrMin, .lagLinkState, .lagLate, .lagMarginLow, .timRefState, .timRefDisq, .mateFrameUnusable, .busStatus, .busGrants, .logState, .logEvbEntries, .logDropped, .logEvbLost, .logEntries, .sysIntSrc]) s s' := by
  delta execQuadFailure at h
  try dsimp only at h
  injection h with h
  subst h
  repeat' first
    | with_reducible assumption
    | with_reducible apply Within.refl
    | ((with_reducible apply Within.setFlag); (case hr => first | decide | exact Foot.allRegs_hasReg _ _ | exact Foot.all_hasReg _ | (subst_vars; decide) | ((try dsimp +zetaDelta only); split <;> first | decide | (split <;> first | decide | (split <;> decide)))))
    | ((with_reducible apply Within.when); (case' hg => intro _ _))
    | ((with_reducible apply Within.after (State.pllLost_within ..)); (case hle => decide))
    | ((with_reducible apply Within.after (State.quadFail_within ..)); (case hle => decide))
    | ((with_reducible apply Within.after (State.signalLost_within ..)); (case hle => decide))
    | ((with_reducible apply Within.after (State.loseLock_within ..)); (case hle => decide))
    | with_reducible apply Within.ite
    | split
    | dsimp -zeta only

theorem execLaneLoopSelect_within (m : Master) (q : QuadId) (loop : BitVec 2) (s : State) (s' : State)
    (h : execLaneLoopSelect m q loop s = .next s') :
    Within (.of [.quads, .lanes, .irqs, .pm, .bus] [.laneCtrl, .busErrLast, .busErrResp, .busDefault, .busSplits, .busGrants, .sysIntSrc]) s s' := by
  delta execLaneLoopSelect at h
  injection h with h
  subst h
  repeat' first
    | with_reducible assumption
    | with_reducible apply Within.refl
    | ((with_reducible apply Within.wr); (case hr => first | decide | exact Foot.allRegs_hasReg _ _ | exact Foot.all_hasReg _ | (subst_vars; decide) | ((try dsimp +zetaDelta only); split <;> first | decide | (split <;> first | decide | (split <;> decide)))))
    | ((with_reducible apply Within.byReg); (case hp => decide); (case hm => decide); (case he => decide); (case' hg => intro _ _))
    | ((with_reducible apply Within.expertOnly); (case he => decide); (case' hg => intro _ _))
    | ((with_reducible apply Within.after (State.loopChanged_within ..)); (case hle => decide))
    | with_reducible apply Within.ite
    | split
    | dsimp -zeta only

theorem execLaneRestart_within (m : Master) (q : QuadId) (s : State) (s' : State)
    (h : execLaneRestart m q s = .next s') :
    Within (.of [.quads, .irqs, .pm, .bus] [.busErrLast, .busErrResp, .busDefault, .busSplits, .busGrants, .sysIntSrc]) s s' := by
  delta execLaneRestart at h
  injection h with h
  subst h
  repeat' first
    | with_reducible assumption
    | with_reducible apply Within.refl
    | ((with_reducible apply Within.byReg); (case hp => decide); (case hm => decide); (case he => decide); (case' hg => intro _ _))
    | ((with_reducible apply Within.expertOnly); (case he => decide); (case' hg => intro _ _))
    | ((with_reducible apply Within.after (State.setQuad_within ..)); (case hle => decide))
    | with_reducible apply Within.ite
    | split
    | dsimp -zeta only

theorem execPrbsTxEnable_within (m : Master) (q : QuadId) (lanes : BitVec 4) (s : State) (s' : State)
    (h : execPrbsTxEnable m q lanes s = .next s') :
    Within (.of [.free, .lanes, .links, .irqs, .pm, .bus] [.lanePrbsCtrl, .busErrLast, .busErrResp, .busDefault, .busSplits, .busGrants, .sysIntSrc]) s s' := by
  delta execPrbsTxEnable at h
  injection h with h
  subst h
  repeat' first
    | with_reducible assumption
    | with_reducible apply Within.refl
    | ((with_reducible apply Within.wr); (case hr => first | decide | exact Foot.allRegs_hasReg _ _ | exact Foot.all_hasReg _ | (subst_vars; decide) | ((try dsimp +zetaDelta only); split <;> first | decide | (split <;> first | decide | (split <;> decide)))))
    | ((with_reducible apply Within.byReg); (case hp => decide); (case hm => decide); (case he => decide); (case' hg => intro _ _))
    | ((with_reducible apply Within.expertOnly); (case he => decide); (case' hg => intro _ _))
    | ((with_reducible apply Within.after (State.txEnChanged_within ..)); (case hle => decide))
    | with_reducible apply Within.ite
    | split
    | dsimp -zeta only

theorem execPrbsRxEnable_within (m : Master) (q : QuadId) (lanes : BitVec 4) (s : State) (s' : State)
    (h : execPrbsRxEnable m q lanes s = .next s') :
    Within (.of [.quads, .lanes, .links, .irqs, .pm, .bus] [.lanePrbsCtrl, .busErrLast, .busErrResp, .busDefault, .busSplits, .busGrants, .sysIntSrc]) s s' := by
  delta execPrbsRxEnable at h
  injection h with h
  subst h
  repeat' first
    | with_reducible assumption
    | with_reducible apply Within.refl
    | ((with_reducible apply Within.byReg); (case hp => decide); (case hm => decide); (case he => decide); (case' hg => intro _ _))
    | ((with_reducible apply Within.expertOnly); (case he => decide); (case' hg => intro _ _))
    | ((with_reducible apply Within.after (State.setRxEn_within ..)); (case hle => decide))
    | with_reducible apply Within.ite
    | split
    | dsimp -zeta only

theorem execPrbsCheckerLock_within (l : LinkId) (s : State) (s' : State)
    (h : execPrbsCheckerLock l s = .next s') :
    Within (.of [] [.lanePrbsCtrl]) s s' := by
  delta execPrbsCheckerLock at h
  injection h with h
  subst h
  repeat' first
    | with_reducible assumption
    | with_reducible apply Within.refl
    | ((with_reducible apply Within.setLaneBit); (case hr => first | decide | exact Foot.allRegs_hasReg _ _ | exact Foot.all_hasReg _ | (subst_vars; decide) | ((try dsimp +zetaDelta only); split <;> first | decide | (split <;> first | decide | (split <;> decide)))))
    | ((with_reducible apply Within.when); (case' hg => intro _ _))
    | with_reducible apply Within.ite
    | split
    | dsimp -zeta only

theorem execPrbsCheckerUnlock_within (l : LinkId) (s : State) (s' : State)
    (h : execPrbsCheckerUnlock l s = .next s') :
    Within (.of [] [.lanePrbsCtrl]) s s' := by
  delta execPrbsCheckerUnlock at h
  injection h with h
  subst h
  repeat' first
    | with_reducible assumption
    | with_reducible apply Within.refl
    | ((with_reducible apply Within.setLaneBit); (case hr => first | decide | exact Foot.allRegs_hasReg _ _ | exact Foot.all_hasReg _ | (subst_vars; decide) | ((try dsimp +zetaDelta only); split <;> first | decide | (split <;> first | decide | (split <;> decide)))))
    | ((with_reducible apply Within.when); (case' hg => intro _ _))
    | with_reducible apply Within.ite
    | split
    | dsimp -zeta only

theorem execEyeScanStart_within (m : Master) (q : QuadId) (s : State) (s' : State)
    (h : execEyeScanStart m q s = .next s') :
    Within (.of [.quads, .lanes, .irqs, .pm, .bus] [.laneScanStatus, .busErrLast, .busErrResp, .busDefault, .busSplits, .busGrants, .sysIntSrc]) s s' := by
  delta execEyeScanStart at h
  injection h with h
  subst h
  repeat' first
    | with_reducible assumption
    | with_reducible apply Within.refl
    | ((with_reducible apply Within.byReg); (case hp => decide); (case hm => decide); (case he => decide); (case' hg => intro _ _))
    | ((with_reducible apply Within.expertOnly); (case he => decide); (case' hg => intro _ _))
    | ((with_reducible apply Within.after (State.scanStart_within ..)); (case hle => decide))
    | with_reducible apply Within.ite
    | split
    | dsimp -zeta only

theorem execEyeScanAbort_within (m : Master) (q : QuadId) (s : State) (s' : State)
    (h : execEyeScanAbort m q s = .next s') :
    Within (.of [.irqs, .pm, .bus] [.laneScanStatus, .busErrLast, .busErrResp, .busDefault, .busSplits, .busGrants, .sysIntSrc]) s s' := by
  delta execEyeScanAbort at h
  injection h with h
  subst h
  repeat' first
    | with_reducible assumption
    | with_reducible apply Within.refl
    | ((with_reducible apply Within.byReg); (case hp => decide); (case hm => decide); (case he => decide); (case' hg => intro _ _))
    | ((with_reducible apply Within.expertOnly); (case he => decide); (case' hg => intro _ _))
    | ((with_reducible apply Within.after (State.scanEnd_within ..)); (case hle => decide))
    | with_reducible apply Within.ite
    | split
    | dsimp -zeta only

theorem execEyeScanPoint_within (q : QuadId) (mism : Nat) (s : State) (s' : State)
    (h : execEyeScanPoint q mism s = .next s') :
    Within (.of [.quads] [.laneScanStatus]) s s' := by
  delta execEyeScanPoint at h
  injection h with h
  subst h
  repeat' first
    | with_reducible assumption
    | with_reducible apply Within.refl
    | ((with_reducible apply Within.wr); (case hr => first | decide | exact Foot.allRegs_hasReg _ _ | exact Foot.all_hasReg _ | (subst_vars; decide) | ((try dsimp +zetaDelta only); split <;> first | decide | (split <;> first | decide | (split <;> decide)))))
    | ((with_reducible apply Within.setFlag); (case hr => first | decide | exact Foot.allRegs_hasReg _ _ | exact Foot.all_hasReg _ | (subst_vars; decide) | ((try dsimp +zetaDelta only); split <;> first | decide | (split <;> first | decide | (split <;> decide)))))
    | ((with_reducible apply Within.when); (case' hg => intro _ _))
    | ((with_reducible apply Within.after (State.setQuad_within ..)); (case hle => decide))
    | (intro x
       have hx : Within (.of [.quads] [.laneScanStatus]) s x := by
         dsimp -zeta only [x]
         repeat' first
           | with_reducible assumption
           | with_reducible apply Within.refl
           | ((with_reducible apply Within.wr); (case hr => first | decide | exact Foot.allRegs_hasReg _ _ | exact Foot.all_hasReg _ | (subst_vars; decide) | ((try dsimp +zetaDelta only); split <;> first | decide | (split <;> first | decide | (split <;> decide)))))
           | ((with_reducible apply Within.setFlag); (case hr => first | decide | exact Foot.allRegs_hasReg _ _ | exact Foot.all_hasReg _ | (subst_vars; decide) | ((try dsimp +zetaDelta only); split <;> first | decide | (split <;> first | decide | (split <;> decide)))))
           | ((with_reducible apply Within.when); (case' hg => intro _ _))
           | ((with_reducible apply Within.after (State.setQuad_within ..)); (case hle => decide))
           | with_reducible apply Within.ite
           | split
           | dsimp -zeta only
           | dsimp +zetaDelta only
       clear_value x)
    | intro x
    | lift_lets
    | with_reducible apply Within.ite
    | split
    | dsimp -zeta only
    | dsimp +zetaDelta only

theorem execAdaptDecision_within (l : LinkId) (x : EqMeasure) (s : State) (s' : State)
    (h : execAdaptDecision l x s = .next s') :
    Within (.of [.lanes] [.laneState, .laneAdaptFrozen]) s s' := by
  delta execAdaptDecision at h
  try dsimp only at h
  injection h with h
  subst h
  repeat' first
    | with_reducible assumption
    | with_reducible apply Within.refl
    | ((with_reducible apply Within.count); (case hr => first | decide | exact Foot.allRegs_hasReg _ _ | exact Foot.all_hasReg _ | (subst_vars; decide) | ((try dsimp +zetaDelta only); split <;> first | decide | (split <;> first | decide | (split <;> decide)))))
    | ((with_reducible apply Within.when); (case' hg => intro _ _))
    | ((with_reducible apply Within.after (State.holdDecision_within ..)); (case hle => decide))
    | ((with_reducible apply Within.after (State.setLane_within ..)); (case hle => decide))
    | (intro x
       have hx : Within (.of [.lanes] [.laneState, .laneAdaptFrozen]) s x := by
         dsimp -zeta only [x]
         repeat' first
           | with_reducible assumption
           | with_reducible apply Within.refl
           | ((with_reducible apply Within.count); (case hr => first | decide | exact Foot.allRegs_hasReg _ _ | exact Foot.all_hasReg _ | (subst_vars; decide) | ((try dsimp +zetaDelta only); split <;> first | decide | (split <;> first | decide | (split <;> decide)))))
           | ((with_reducible apply Within.when); (case' hg => intro _ _))
           | ((with_reducible apply Within.after (State.holdDecision_within ..)); (case hle => decide))
           | ((with_reducible apply Within.after (State.setLane_within ..)); (case hle => decide))
           | with_reducible apply Within.ite
           | split
           | dsimp -zeta only
           | dsimp +zetaDelta only
       clear_value x)
    | intro x
    | lift_lets
    | with_reducible apply Within.ite
    | split
    | dsimp -zeta only
    | dsimp +zetaDelta only

theorem execAdaptRequestTimeout_within (l : LinkId) (s : State) (s' : State)
    (h : execAdaptRequestTimeout l s = .next s') :
    Within (.of [.lanes, .act, .latch, .irqs, .log, .pm, .events, .bus] [.laneAdaptTimeout, .busStatus, .busGrants, .logState, .logEvbEntries, .logDropped, .logEvbLost, .logEntries, .sysIntSrc]) s s' := by
  delta execAdaptRequestTimeout at h
  try dsimp only at h
  injection h with h
  subst h
  repeat' first
    | with_reducible assumption
    | with_reducible apply Within.refl
    | ((with_reducible apply Within.count); (case hr => first | decide | exact Foot.allRegs_hasReg _ _ | exact Foot.all_hasReg _ | (subst_vars; decide) | ((try dsimp +zetaDelta only); split <;> first | decide | (split <;> first | decide | (split <;> decide)))))
    | ((with_reducible apply Within.when); (case' hg => intro _ _))
    | ((with_reducible apply Within.after (State.setLane_within ..)); (case hle => decide))
    | ((with_reducible apply Within.after (State.raise_within ..)); (case hle => decide))
    | (intro x
       have hx : Within (.of [.lanes, .act, .latch, .irqs, .log, .pm, .events, .bus] [.laneAdaptTimeout, .busStatus, .busGrants, .logState, .logEvbEntries, .logDropped, .logEvbLost, .logEntries, .sysIntSrc]) s x := by
         dsimp -zeta only [x]
         repeat' first
           | with_reducible assumption
           | with_reducible apply Within.refl
           | ((with_reducible apply Within.count); (case hr => first | decide | exact Foot.allRegs_hasReg _ _ | exact Foot.all_hasReg _ | (subst_vars; decide) | ((try dsimp +zetaDelta only); split <;> first | decide | (split <;> first | decide | (split <;> decide)))))
           | ((with_reducible apply Within.when); (case' hg => intro _ _))
           | ((with_reducible apply Within.after (State.setLane_within ..)); (case hle => decide))
           | ((with_reducible apply Within.after (State.raise_within ..)); (case hle => decide))
           | with_reducible apply Within.ite
           | split
           | dsimp -zeta only
           | dsimp +zetaDelta only
       clear_value x)
    | intro x
    | lift_lets
    | with_reducible apply Within.ite
    | split
    | dsimp -zeta only
    | dsimp +zetaDelta only

theorem execAdaptSilenceTimeout_within (l : LinkId) (s : State) (s' : State)
    (h : execAdaptSilenceTimeout l s = .next s') :
    Within (.of [.lanes] [.laneState]) s s' := by
  delta execAdaptSilenceTimeout at h
  try dsimp only at h
  injection h with h
  subst h
  repeat' first
    | with_reducible assumption
    | with_reducible apply Within.refl
    | ((with_reducible apply Within.when); (case' hg => intro _ _))
    | ((with_reducible apply Within.after (State.enterService_within ..)); (case hle => decide))
    | ((with_reducible apply Within.after (State.setLane_within ..)); (case hle => decide))
    | (intro x
       have hx : Within (.of [.lanes] [.laneState]) s x := by
         dsimp -zeta only [x]
         repeat' first
           | with_reducible assumption
           | with_reducible apply Within.refl
           | ((with_reducible apply Within.when); (case' hg => intro _ _))
           | ((with_reducible apply Within.after (State.enterService_within ..)); (case hle => decide))
           | ((with_reducible apply Within.after (State.setLane_within ..)); (case hle => decide))
           | with_reducible apply Within.ite
           | split
           | dsimp -zeta only
           | dsimp +zetaDelta only
       clear_value x)
    | intro x
    | lift_lets
    | with_reducible apply Within.ite
    | split
    | dsimp -zeta only
    | dsimp +zetaDelta only

theorem execAdaptTrainTimeout_within (l : LinkId) (s : State) (s' : State)
    (h : execAdaptTrainTimeout l s = .next s') :
    Within (.of [.act, .latch, .irqs, .log, .pm, .events, .bus] [.laneState, .busStatus, .busGrants, .logState, .logEvbEntries, .logDropped, .logEvbLost, .logEntries, .sysIntSrc]) s s' := by
  delta execAdaptTrainTimeout at h
  injection h with h
  subst h
  repeat' first
    | with_reducible assumption
    | with_reducible apply Within.refl
    | ((with_reducible apply Within.when); (case' hg => intro _ _))
    | ((with_reducible apply Within.after (State.raise_within ..)); (case hle => decide))
    | ((with_reducible apply Within.after (State.enterService_within ..)); (case hle => decide))
    | with_reducible apply Within.ite
    | split
    | dsimp -zeta only

end Sys2Proof.Machine
end

