-- ==== Sys2Proof/Laws/Footprint/Links.lean ====
section
/-! SUPPORT. What each operation of Machine/Links.lean may touch. -/

namespace Sys2Proof.Machine

theorem State.lockSearch_within (s : State) (l : Nat) (valid : Bool) :
    Within (.of [.links] []) s (State.lockSearch s l valid) := by
  delta State.lockSearch
  repeat' first
    | with_reducible assumption
    | with_reducible apply Within.refl
    | ((with_reducible apply Within.after (State.setRx_within ..)); (case hle => decide))
    | (intro x
       have hx : Within (.of [.links] []) s x := by
         dsimp -zeta only [x]
         repeat' first
           | with_reducible assumption
           | with_reducible apply Within.refl
           | ((with_reducible apply Within.after (State.setRx_within ..)); (case hle => decide))
           | with_reducible apply Within.ite
           | split
           | dsimp -zeta only
           | dsimp +zetaDelta only
       clear_value x)
    | intro x
    | lift_lets
    | with_reducible apply Within.ite
    | split
    | dsimp -zeta only
    | dsimp +zetaDelta only

theorem State.lockWindow_within (s : State) (l : Nat) (valid : Bool) :
    Within (.of [.links] [.linkHdrErr]) s (State.lockWindow s l valid) := by
  delta State.lockWindow
  repeat' first
    | with_reducible assumption
    | with_reducible apply Within.refl
    | ((with_reducible apply Within.count); (case hr => first | decide | exact Foot.allRegs_hasReg _ _ | exact Foot.all_hasReg _ | (subst_vars; decide) | ((try dsimp +zetaDelta only); split <;> first | decide | (split <;> first | decide | (split <;> decide)))))
    | ((with_reducible apply Within.when); (case' hg => intro _ _))
    | ((with_reducible apply Within.after (State.setRx_within ..)); (case hle => decide))
    | (intro x
       have hx : Within (.of [.links] [.linkHdrErr]) s x := by
         dsimp -zeta only [x]
         repeat' first
           | with_reducible assumption
           | with_reducible apply Within.refl
           | ((with_reducible apply Within.count); (case hr => first | decide | exact Foot.allRegs_hasReg _ _ | exact Foot.all_hasReg _ | (subst_vars; decide) | ((try dsimp +zetaDelta only); split <;> first | decide | (split <;> first | decide | (split <;> decide)))))
           | ((with_reducible apply Within.when); (case' hg => intro _ _))
           | ((with_reducible apply Within.after (State.setRx_within ..)); (case hle => decide))
           | with_reducible apply Within.ite
           | split
           | dsimp -zeta only
           | dsimp +zetaDelta only
       clear_value x)
    | intro x
    | lift_lets
    | with_reducible apply Within.ite
    | split
    | dsimp -zeta only
    | dsimp +zetaDelta only

theorem State.alignBlock_within (s : State) (l : Nat) (b : Block) :
    Within (.of [.links] [.linkState, .linkTypeErr, .linkFmErr]) s (State.alignBlock s l b) := by
  delta State.alignBlock
  repeat' first
    | with_reducible assumption
    | with_reducible apply Within.refl
    | ((with_reducible apply Within.after (State.setRx_within ..)); (case hle => decide))
    | ((with_reducible apply Within.after (State.syncBlock_within ..)); (case hle => decide))
    | ((with_reducible apply Within.after (State.searchBlock_within ..)); (case hle => decide))
    | (intro x
       have hx : Within (.of [.links] [.linkState, .linkTypeErr, .linkFmErr]) s x := by
         dsimp -zeta only [x]
         repeat' first
           | with_reducible assumption
           | with_reducible apply Within.refl
           | ((with_reducible apply Within.after (State.setRx_within ..)); (case hle => decide))
           | ((with_reducible apply Within.after (State.syncBlock_within ..)); (case hle => decide))
           | ((with_reducible apply Within.after (State.searchBlock_within ..)); (case hle => decide))
           | with_reducible apply Within.ite
           | split
           | dsimp -zeta only
           | dsimp +zetaDelta only
       clear_value x)
    | intro x
    | lift_lets
    | with_reducible apply Within.ite
    | split
    | dsimp -zeta only
    | dsimp +zetaDelta only

theorem State.lineIn_within (s : State) (l : Nat) (hdr : BitVec 2) (line : BitVec 64) :
    Within (.of [.links] []) s (State.lineIn s l hdr line).2.2 := by
  delta State.lineIn
  repeat' first
    | with_reducible assumption
    | with_reducible apply Within.refl
    | ((with_reducible apply Within.after (State.loopBlock_within ..)); (case hle => decide))
    | ((with_reducible apply Within.after (Within.of_eq2 (State.loopBlock_within ..) ?e)); (case e => assumption); (case hle => decide))
    | with_reducible apply Within.ite
    | split
    | dsimp -zeta only

theorem State.enterSync_within (s : State) (l : Nat) (k : Nat) (c : FaCand) :
    Within (.of [.quads, .lanes, .links, .lag, .act, .latch, .irqs, .log, .pm, .events, .hbm, .mate, .tim, .bus] [.laneState, .laneTxfir, .lanePrbsCtrl, .laneScanStatus, .laneBringupTry, .linkState, .linkFramesGood, .linkFramesDoubtful, .linkFramesBad, .linkFramesAbsent, .linkPayCrcErr, .linkOofEntry, .lagArrLast, .lagArrMax, .lagArrMin, .lagLinkState, .lagLate, .lagMarginLow, .timRefState, .timRefDisq, .mateFrameUnusable, .busStatus, .busGrants, .logState, .logEvbEntries, .logDropped, .logEvbLost, .logEntries, .sysIntSrc]) s (State.enterSync s l k c) := by
  delta State.enterSync
  repeat' first
    | with_reducible assumption
    | with_reducible apply Within.refl
    | ((with_reducible apply Within.wr); (case hr => first | decide | exact Foot.allRegs_hasReg _ _ | exact Foot.all_hasReg _ | (subst_vars; decide) | ((try dsimp +zetaDelta only); split <;> first | decide | (split <;> first | decide | (split <;> decide)))))
    | ((with_reducible apply Within.setFlag); (case hr => first | decide | exact Foot.allRegs_hasReg _ _ | exact Foot.all_hasReg _ | (subst_vars; decide) | ((try dsimp +zetaDelta only); split <;> first | decide | (split <;> first | decide | (split <;> decide)))))
    | ((with_reducible apply Within.setLaneBit); (case hr => first | decide | exact Foot.allRegs_hasReg _ _ | exact Foot.all_hasReg _ | (subst_vars; decide) | ((try dsimp +zetaDelta only); split <;> first | decide | (split <;> first | decide | (split <;> decide)))))
    | ((with_reducible apply Within.after (State.setRx_within ..)); (case hle => decide))
    | ((with_reducible apply Within.after (State.alignCheck_within ..)); (case hle => decide))
    | ((with_reducible apply Within.after (State.disqualify_within ..)); (case hle => decide))
    | (intro x
       have hx : Within (.of [.quads, .lanes, .links, .lag, .act, .latch, .irqs, .log, .pm, .events, .hbm, .mate, .tim, .bus] [.laneState, .laneTxfir, .lanePrbsCtrl, .laneScanStatus, .laneBringupTry, .linkState, .linkFramesGood, .linkFramesDoubtful, .linkFramesBad, .linkFramesAbsent, .linkPayCrcErr, .linkOofEntry, .lagArrLast, .lagArrMax, .lagArrMin, .lagLinkState, .lagLate, .lagMarginLow, .timRefState, .timRefDisq, .mateFrameUnusable, .busStatus, .busGrants, .logState, .logEvbEntries, .logDropped, .logEvbLost, .logEntries, .sysIntSrc]) s x := by
         dsimp -zeta only [x]
         repeat' first
           | with_reducible assumption
           | with_reducible apply Within.refl
           | ((with_reducible apply Within.wr); (case hr => first | decide | exact Foot.allRegs_hasReg _ _ | exact Foot.all_hasReg _ | (subst_vars; decide) | ((try dsimp +zetaDelta only); split <;> first | decide | (split <;> first | decide | (split <;> decide)))))
           | ((with_reducible apply Within.setFlag); (case hr => first | decide | exact Foot.allRegs_hasReg _ _ | exact Foot.all_hasReg _ | (subst_vars; decide) | ((try dsimp +zetaDelta only); split <;> first | decide | (split <;> first | decide | (split <;> decide)))))
           | ((with_reducible apply Within.setLaneBit); (case hr => first | decide | exact Foot.allRegs_hasReg _ _ | exact Foot.all_hasReg _ | (subst_vars; decide) | ((try dsimp +zetaDelta only); split <;> first | decide | (split <;> first | decide | (split <;> decide)))))
           | ((with_reducible apply Within.after (State.setRx_within ..)); (case hle => decide))
           | ((with_reducible apply Within.after (State.alignCheck_within ..)); (case hle => decide))
           | ((with_reducible apply Within.after (State.disqualify_within ..)); (case hle => decide))
           | with_reducible apply Within.ite
           | split
           | dsimp -zeta only
           | dsimp +zetaDelta only
       clear_value x)
    | intro x
    | lift_lets
    | with_reducible apply Within.ite
    | split
    | dsimp -zeta only
    | dsimp +zetaDelta only

theorem State.acceptStamp_within (s : State) (l : Nat) (n : Nat) :
    Within (.of [.links] [.linkRxTick]) s (State.acceptStamp s l n) := by
  delta State.acceptStamp
  repeat' first
    | with_reducible assumption
    | with_reducible apply Within.refl
    | ((with_reducible apply Within.wr); (case hr => first | decide | exact Foot.allRegs_hasReg _ _ | exact Foot.all_hasReg _ | (subst_vars; decide) | ((try dsimp +zetaDelta only); split <;> first | decide | (split <;> first | decide | (split <;> decide)))))
    | ((with_reducible apply Within.setFlag); (case hr => first | decide | exact Foot.allRegs_hasReg _ _ | exact Foot.all_hasReg _ | (subst_vars; decide) | ((try dsimp +zetaDelta only); split <;> first | decide | (split <;> first | decide | (split <;> decide)))))
    | ((with_reducible apply Within.after (State.setRx_within ..)); (case hle => decide))
    | (intro x
       have hx : Within (.of [.links] [.linkRxTick]) s x := by
         dsimp -zeta only [x]
         repeat' first
           | with_reducible assumption
           | with_reducible apply Within.refl
           | ((with_reducible apply Within.wr); (case hr => first | decide | exact Foot.allRegs_hasReg _ _ | exact Foot.all_hasReg _ | (subst_vars; decide) | ((try dsimp +zetaDelta only); split <;> first | decide | (split <;> first | decide | (split <;> decide)))))
           | ((with_reducible apply Within.setFlag); (case hr => first | decide | exact Foot.allRegs_hasReg _ _ | exact Foot.all_hasReg _ | (subst_vars; decide) | ((try dsimp +zetaDelta only); split <;> first | decide | (split <;> first | decide | (split <;> decide)))))
           | ((with_reducible apply Within.after (State.setRx_within ..)); (case hle => decide))
           | with_reducible apply Within.ite
           | split
           | dsimp -zeta only
           | dsimp +zetaDelta only
       clear_value x)
    | intro x
    | lift_lets
    | with_reducible apply Within.ite
    | split
    | dsimp -zeta only
    | dsimp +zetaDelta only

theorem State.justifyTake_within (s : State) (l : Nat) (b : Block) (good : Bool) :
    Within (.of [.links] [.linkRxJust, .linkJcCorrected, .linkReiRx]) s (State.justifyTake s l b good) := by
  delta State.justifyTake
  repeat' first
    | with_reducible assumption
    | with_reducible apply Within.refl
    | ((with_reducible apply Within.wr); (case hr => first | decide | exact Foot.allRegs_hasReg _ _ | exact Foot.all_hasReg _ | (subst_vars; decide) | ((try dsimp +zetaDelta only); split <;> first | decide | (split <;> first | decide | (split <;> decide)))))
    | ((with_reducible apply Within.count); (case hr => first | decide | exact Foot.allRegs_hasReg _ _ | exact Foot.all_hasReg _ | (subst_vars; decide) | ((try dsimp +zetaDelta only); split <;> first | decide | (split <;> first | decide | (split <;> decide)))))
    | ((with_reducible apply Within.when); (case' hg => intro _ _))
    | ((with_reducible apply Within.after (State.setRx_within ..)); (case hle => decide))
    | (intro x
       have hx : Within (.of [.links] [.linkRxJust, .linkJcCorrected, .linkReiRx]) s x := by
         dsimp -zeta only [x]
         repeat' first
           | with_reducible assumption
           | with_reducible apply Within.refl
           | ((with_reducible apply Within.wr); (case hr => first | decide | exact Foot.allRegs_hasReg _ _ | exact Foot.all_hasReg _ | (subst_vars; decide) | ((try dsimp +zetaDelta only); split <;> first | decide | (split <;> first | decide | (split <;> decide)))))
           | ((with_reducible apply Within.count); (case hr => first | decide | exact Foot.allRegs_hasReg _ _ | exact Foot.all_hasReg _ | (subst_vars; decide) | ((try dsimp +zetaDelta only); split <;> first | decide | (split <;> first | decide | (split <;> decide)))))
           | ((with_reducible apply Within.when); (case' hg => intro _ _))
           | ((with_reducible apply Within.after (State.setRx_within ..)); (case hle => decide))
           | with_reducible apply Within.ite
           | split
           | dsimp -zeta only
           | dsimp +zetaDelta only
       clear_value x)
    | intro x
    | lift_lets
    | with_reducible apply Within.ite
    | split
    | dsimp -zeta only
    | dsimp +zetaDelta only

theorem State.typeErrTake_within (s : State) (l : Nat) :
    Within (.of [.links] []) s (State.typeErrTake s l) := by
  delta State.typeErrTake
  repeat' first
    | with_reducible assumption
    | with_reducible apply Within.refl
    | ((with_reducible apply Within.after (State.setRx_within ..)); (case hle => decide))
    | (intro x
       have hx : Within (.of [.links] []) s x := by
         dsimp -zeta only [x]
         repeat' first
           | with_reducible assumption
           | with_reducible apply Within.refl
           | ((with_reducible apply Within.after (State.setRx_within ..)); (case hle => decide))
           | with_reducible apply Within.ite
           | split
           | dsimp -zeta only
           | dsimp +zetaDelta only
       clear_value x)
    | intro x
    | lift_lets
    | with_reducible apply Within.ite
    | split
    | dsimp -zeta only
    | dsimp +zetaDelta only

theorem State.overheadTake_within (s : State) (l : Nat) (n : Nat) (a3 : RxFrame) (good : Bool) :
    Within (.of [.lanes, .links, .prot, .act, .latch, .irqs, .log, .pm, .events, .mate, .alm, .tim, .bus] [.laneTxfir, .laneAdaptMsgErr, .linkState, .linkRxJust, .linkIdentRxSetid, .linkIdentRxDieid, .linkIdentRxInfo, .linkIdentRxArmed, .linkMboxCtrl, .linkUserCtrl, .linkJcCorrected, .linkReiRx, .linkProtMsgErr, .linkMboxErr, .linkUserErr, .linkWiringEntry, .protRxGroup, .protRxBridge, .protRxReserved, .protRxUnmatched, .almArmDis, .mateWatchLost, .busStatus, .busGrants, .logState, .logEvbEntries, .logDropped, .logEvbLost, .logEntries, .sysIntSrc]) s (State.overheadTake s l n a3 good) := by
  delta State.overheadTake
  repeat' first
    | with_reducible assumption
    | with_reducible apply Within.refl
    | ((with_reducible apply Within.when); (case' hg => intro _ _))
    | ((with_reducible apply Within.each); (case' hg => intro _ _ _))
    | ((with_reducible apply Within.after (State.justifyTake_within ..)); (case hle => decide))
    | ((with_reducible apply Within.after (State.identTake_within ..)); (case hle => decide))
    | ((with_reducible apply Within.after (State.protectTake_within ..)); (case hle => decide))
    | ((with_reducible apply Within.after (State.adaptReceive_within ..)); (case hle => decide))
    | ((with_reducible apply Within.after (State.mboxTake_within ..)); (case hle => decide))
    | ((with_reducible apply Within.after (State.userTake_within ..)); (case hle => decide))
    | ((with_reducible apply Within.after (State.linkPhase_within ..)); (case hle => decide))
    | (intro x
       have hx : Within (.of [.lanes, .links, .prot, .act, .latch, .irqs, .log, .pm, .events, .mate, .alm, .tim, .bus] [.laneTxfir, .laneAdaptMsgErr, .linkState, .linkRxJust, .linkIdentRxSetid, .linkIdentRxDieid, .linkIdentRxInfo, .linkIdentRxArmed, .linkMboxCtrl, .linkUserCtrl, .linkJcCorrected, .linkReiRx, .linkProtMsgErr, .linkMboxErr, .linkUserErr, .linkWiringEntry, .protRxGroup, .protRxBridge, .protRxReserved, .protRxUnmatched, .almArmDis, .mateWatchLost, .busStatus, .busGrants, .logState, .logEvbEntries, .logDropped, .logEvbLost, .logEntries, .sysIntSrc]) s x := by
         dsimp -zeta only [x]
         repeat' first
           | with_reducible assumption
           | with_reducible apply Within.refl
           | ((with_reducible apply Within.when); (case' hg => intro _ _))
           | ((with_reducible apply Within.each); (case' hg => intro _ _ _))
           | ((with_reducible apply Within.after (State.justifyTake_within ..)); (case hle => decide))
           | ((with_reducible apply Within.after (State.identTake_within ..)); (case hle => decide))
           | ((with_reducible apply Within.after (State.protectTake_within ..)); (case hle => decide))
           | ((with_reducible apply Within.after (State.adaptReceive_within ..)); (case hle => decide))
           | ((with_reducible apply Within.after (State.mboxTake_within ..)); (case hle => decide))
           | ((with_reducible apply Within.after (State.userTake_within ..)); (case hle => decide))
           | ((with_reducible apply Within.after (State.linkPhase_within ..)); (case hle => decide))
           | with_reducible apply Within.ite
           | split
           | dsimp -zeta only
           | dsimp +zetaDelta only
       clear_value x)
    | intro x
    | lift_lets
    | with_reducible apply Within.ite
    | split
    | dsimp -zeta only
    | dsimp +zetaDelta only

theorem State.payloadTake_within (s : State) (l : Nat) (n : Nat) (a3 : RxFrame) (offset : Int) :
    Within (.of [.lag, .pm] [.lagArrLast, .lagElasticOvf, .lagLate, .lagEarly, .lagRepeat]) s (State.payloadTake s l n a3 offset).2 := by
  delta State.payloadTake
  repeat' first
    | with_reducible assumption
    | with_reducible apply Within.refl
    | ((with_reducible apply Within.when); (case' hg => intro _ _))
    | ((with_reducible apply Within.after (State.lagMeasureF_within ..)); (case hle => decide))
    | ((with_reducible apply Within.after (State.lagAdmit_within ..)); (case hle => decide))
    | ((with_reducible apply Within.after (Within.of_eq (State.lagAdmit_within ..) ?e)); (case e => assumption); (case hle => decide))
    | ((with_reducible apply Within.after (State.meter_within ..)); (case hle => decide))
    | (intro x
       have hx : Within (.of [.lag, .pm] [.lagArrLast, .lagElasticOvf, .lagLate, .lagEarly, .lagRepeat]) s x := by
         dsimp -zeta only [x]
         repeat' first
           | with_reducible assumption
           | with_reducible apply Within.refl
           | ((with_reducible apply Within.when); (case' hg => intro _ _))
           | ((with_reducible apply Within.after (State.lagMeasureF_within ..)); (case hle => decide))
           | ((with_reducible apply Within.after (State.lagAdmit_within ..)); (case hle => decide))
           | ((with_reducible apply Within.after (Within.of_eq (State.lagAdmit_within ..) ?e)); (case e => assumption); (case hle => decide))
           | ((with_reducible apply Within.after (State.meter_within ..)); (case hle => decide))
           | with_reducible apply Within.ite
           | split
           | dsimp -zeta only
           | dsimp +zetaDelta only
       clear_value x)
    | intro x
    | lift_lets
    | with_reducible apply Within.ite
    | split
    | dsimp -zeta only
    | dsimp +zetaDelta only

theorem State.deliver_within (s : State) (l : Nat) (a2 : RxFrame) :
    Within (.of [.lanes, .links, .lag, .prot, .act, .latch, .irqs, .log, .pm, .events, .hbm, .mate, .alm, .tim, .bus] [.laneTxfir, .laneAdaptMsgErr, .linkState, .linkRxTick, .linkRxJust, .linkIdentRxSetid, .linkIdentRxDieid, .linkIdentRxInfo, .linkIdentRxArmed, .linkMboxCtrl, .linkUserCtrl, .linkFramesGood, .linkFramesDoubtful, .linkFramesBad, .linkFramesAbsent, .linkOvhCrcErr, .linkPayCrcErr, .linkJcCorrected, .linkTickJump, .linkTickSubst, .linkReiRx, .linkProtMsgErr, .linkMboxErr, .linkUserErr, .linkWiringEntry, .lagArrLast, .lagArrMax, .lagArrMin, .lagLinkState, .lagElasticOvf, .lagLate, .lagEarly, .lagRepeat, .lagMarginLow, .protRxGroup, .protRxBridge, .protRxReserved, .protRxUnmatched, .almArmDis, .mateWatchLost, .mateFrameUnusable, .busStatus, .busGrants, .logState, .logEvbEntries, .logDropped, .logEvbLost, .logEntries, .sysIntSrc]) s (State.deliver s l a2) := by
  delta State.deliver
  repeat' first
    | with_reducible assumption
    | with_reducible apply Within.refl
    | ((with_reducible apply Within.count); (case hr => first | decide | exact Foot.allRegs_hasReg _ _ | exact Foot.all_hasReg _ | (subst_vars; decide) | ((try dsimp +zetaDelta only); split <;> first | decide | (split <;> first | decide | (split <;> decide)))))
    | ((with_reducible apply Within.when); (case' hg => intro _ _))
    | ((with_reducible apply Within.after (State.formVerdict_within ..)); (case hle => decide))
    | ((with_reducible apply Within.after (State.typeErrTake_within ..)); (case hle => decide))
    | ((with_reducible apply Within.after (State.takeStamp_within ..)); (case hle => decide))
    | ((with_reducible apply Within.after (Within.of_eq2 (State.takeStamp_within ..) ?e)); (case e => assumption); (case hle => decide))
    | ((with_reducible apply Within.after (State.overheadTake_within ..)); (case hle => decide))
    | ((with_reducible apply Within.after (State.acceptStamp_within ..)); (case hle => decide))
    | ((with_reducible apply Within.after (State.payloadTake_within ..)); (case hle => decide))
    | ((with_reducible apply Within.after (Within.of_eq (State.payloadTake_within ..) ?e)); (case e => assumption); (case hle => decide))
    | ((with_reducible apply Within.after (State.setRx_within ..)); (case hle => decide))
    | (intro x
       have hx : Within (.of [.lanes, .links, .lag, .prot, .act, .latch, .irqs, .log, .pm, .events, .hbm, .mate, .alm, .tim, .bus] [.laneTxfir, .laneAdaptMsgErr, .linkState, .linkRxTick, .linkRxJust, .linkIdentRxSetid, .linkIdentRxDieid, .linkIdentRxInfo, .linkIdentRxArmed, .linkMboxCtrl, .linkUserCtrl, .linkFramesGood, .linkFramesDoubtful, .linkFramesBad, .linkFramesAbsent, .linkOvhCrcErr, .linkPayCrcErr, .linkJcCorrected, .linkTickJump, .linkTickSubst, .linkReiRx, .linkProtMsgErr, .linkMboxErr, .linkUserErr, .linkWiringEntry, .lagArrLast, .lagArrMax, .lagArrMin, .lagLinkState, .lagElasticOvf, .lagLate, .lagEarly, .lagRepeat, .lagMarginLow, .protRxGroup, .protRxBridge, .protRxReserved, .protRxUnmatched, .almArmDis, .mateWatchLost, .mateFrameUnusable, .busStatus, .busGrants, .logState, .logEvbEntries, .logDropped, .logEvbLost, .logEntries, .sysIntSrc]) s x := by
         dsimp -zeta only [x]
         repeat' first
           | with_reducible assumption
           | with_reducible apply Within.refl
           | ((with_reducible apply Within.count); (case hr => first | decide | exact Foot.allRegs_hasReg _ _ | exact Foot.all_hasReg _ | (subst_vars; decide) | ((try dsimp +zetaDelta only); split <;> first | decide | (split <;> first | decide | (split <;> decide)))))
           | ((with_reducible apply Within.when); (case' hg => intro _ _))
           | ((with_reducible apply Within.after (State.formVerdict_within ..)); (case hle => decide))
           | ((with_reducible apply Within.after (State.typeErrTake_within ..)); (case hle => decide))
           | ((with_reducible apply Within.after (State.takeStamp_within ..)); (case hle => decide))
           | ((with_reducible apply Within.after (Within.of_eq2 (State.takeStamp_within ..) ?e)); (case e => assumption); (case hle => decide))
           | ((with_reducible apply Within.after (State.overheadTake_within ..)); (case hle => decide))
           | ((with_reducible apply Within.after (State.acceptStamp_within ..)); (case hle => decide))
           | ((with_reducible apply Within.after (State.payloadTake_within ..)); (case hle => decide))
           | ((with_reducible apply Within.after (Within.of_eq (State.payloadTake_within ..) ?e)); (case e => assumption); (case hle => decide))
           | ((with_reducible apply Within.after (State.setRx_within ..)); (case hle => decide))
           | with_reducible apply Within.ite
           | split
           | dsimp -zeta only
           | dsimp +zetaDelta only
           | ((with_reducible apply Within.set_mate); (case hc => decide))
       clear_value x)
    | intro x
    | lift_lets
    | with_reducible apply Within.ite
    | split
    | dsimp -zeta only
    | dsimp +zetaDelta only
    | ((with_reducible apply Within.set_mate); (case hc => decide))

theorem State.defectEdge_within (s : State) (l : Nat) :
    Within (.of [.links] []) s (State.defectEdge s l) := by
  delta State.defectEdge
  repeat' first
    | with_reducible assumption
    | with_reducible apply Within.refl
    | ((with_reducible apply Within.after (State.setRx_within ..)); (case hle => decide))
    | (intro x
       have hx : Within (.of [.links] []) s x := by
         dsimp -zeta only [x]
         repeat' first
           | with_reducible assumption
           | with_reducible apply Within.refl
           | ((with_reducible apply Within.after (State.setRx_within ..)); (case hle => decide))
           | with_reducible apply Within.ite
           | split
           | dsimp -zeta only
           | dsimp +zetaDelta only
       clear_value x)
    | intro x
    | lift_lets
    | with_reducible apply Within.ite
    | split
    | dsimp -zeta only
    | dsimp +zetaDelta only

theorem execRxBlock_within (l : LinkId) (hdr : BitVec 2) (line : BitVec 64) (s : State) (s' : State)
    (h : execRxBlock l hdr line s = .next s') :
    Within (.of [.links] [.lanePrbsErr, .lanePrbsBits, .linkState, .linkHdrErr, .linkTypeErr, .linkFmErr]) s s' := by
  delta execRxBlock at h
  injection h with h
  subst h
  repeat' first
    | with_reducible assumption
    | with_reducible apply Within.refl
    | ((with_reducible apply Within.when); (case' hg => intro _ _))
    | ((with_reducible apply Within.after (State.lineIn_within ..)); (case hle => decide))
    | ((with_reducible apply Within.after (Within.of_eq2 (State.lineIn_within ..) ?e)); (case e => assumption); (case hle => decide))
    | ((with_reducible apply Within.after (State.prbsTake_within ..)); (case hle => decide))
    | ((with_reducible apply Within.after (State.setRx_within ..)); (case hle => decide))
    | ((with_reducible apply Within.after (State.alignBlock_within ..)); (case hle => decide))
    | ((with_reducible apply Within.after (State.lockWindow_within ..)); (case hle => decide))
    | ((with_reducible apply Within.after (State.lockSearch_within ..)); (case hle => decide))
    | (intro x
       have hx : Within (.of [.links] [.lanePrbsErr, .lanePrbsBits, .linkState, .linkHdrErr, .linkTypeErr, .linkFmErr]) s x := by
         dsimp -zeta only [x]
         repeat' first
           | with_reducible assumption
           | with_reducible apply Within.refl
           | ((with_reducible apply Within.when); (case' hg => intro _ _))
           | ((with_reducible apply Within.after (State.lineIn_within ..)); (case hle => decide))
           | ((with_reducible apply Within.after (Within.of_eq2 (State.lineIn_within ..) ?e)); (case e => assumption); (case hle => decide))
           | ((with_reducible apply Within.after (State.prbsTake_within ..)); (case hle => decide))
           | ((with_reducible apply Within.after (State.setRx_within ..)); (case hle => decide))
           | ((with_reducible apply Within.after (State.alignBlock_within ..)); (case hle => decide))
           | ((with_reducible apply Within.after (State.lockWindow_within ..)); (case hle => decide))
           | ((with_reducible apply Within.after (State.lockSearch_within ..)); (case hle => decide))
           | with_reducible apply Within.ite
           | split
           | dsimp -zeta only
           | dsimp +zetaDelta only
       clear_value x)
    | intro x
    | lift_lets
    | with_reducible apply Within.ite
    | split
    | dsimp -zeta only
    | dsimp +zetaDelta only

theorem execBlockLockAcquire_within (l : LinkId) (s : State) (s' : State)
    (h : execBlockLockAcquire l s = .next s') :
    Within (.of [.quads, .lanes, .links, .lag, .act, .latch, .irqs, .log, .pm, .events, .hbm, .mate, .tim, .bus] [.laneState, .laneTxfir, .lanePrbsCtrl, .laneScanStatus, .laneBringupTry, .linkState, .linkFramesGood, .linkFramesDoubtful, .linkFramesBad, .linkFramesAbsent, .linkPayCrcErr, .linkOofEntry, .lagArrLast, .lagArrMax, .lagArrMin, .lagLinkState, .lagLate, .lagMarginLow, .timRefState, .timRefDisq, .mateFrameUnusable, .busStatus, .busGrants, .logState, .logEvbEntries, .logDropped, .logEvbLost, .logEntries, .sysIntSrc]) s s' := by
  delta execBlockLockAcquire at h
  injection h with h
  subst h
  repeat' first
    | with_reducible assumption
    | with_reducible apply Within.refl
    | ((with_reducible apply Within.setFlag); (case hr => first | decide | exact Foot.allRegs_hasReg _ _ | exact Foot.all_hasReg _ | (subst_vars; decide) | ((try dsimp +zetaDelta only); split <;> first | decide | (split <;> first | decide | (split <;> decide)))))
    | ((with_reducible apply Within.setLaneBit); (case hr => first | decide | exact Foot.allRegs_hasReg _ _ | exact Foot.all_hasReg _ | (subst_vars; decide) | ((try dsimp +zetaDelta only); split <;> first | decide | (split <;> first | decide | (split <;> decide)))))
    | ((with_reducible apply Within.when); (case' hg => intro _ _))
    | ((with_reducible apply Within.after (State.setRx_within ..)); (case hle => decide))
    | ((with_reducible apply Within.after (State.alignCheck_within ..)); (case hle => decide))
    | (intro x
       have hx : Within (.of [.quads, .lanes, .links, .lag, .act, .latch, .irqs, .log, .pm, .events, .hbm, .mate, .tim, .bus] [.laneState, .laneTxfir, .lanePrbsCtrl, .laneScanStatus, .laneBringupTry, .linkState, .linkFramesGood, .linkFramesDoubtful, .linkFramesBad, .linkFramesAbsent, .linkPayCrcErr, .linkOofEntry, .lagArrLast, .lagArrMax, .lagArrMin, .lagLinkState, .lagLate, .lagMarginLow, .timRefState, .timRefDisq, .mateFrameUnusable, .busStatus, .busGrants, .logState, .logEvbEntries, .logDropped, .logEvbLost, .logEntries, .sysIntSrc]) s x := by
         dsimp -zeta only [x]
         repeat' first
           | with_reducible assumption
           | with_reducible apply Within.refl
           | ((with_reducible apply Within.setFlag); (case hr => first | decide | exact Foot.allRegs_hasReg _ _ | exact Foot.all_hasReg _ | (subst_vars; decide) | ((try dsimp +zetaDelta only); split <;> first | decide | (split <;> first | decide | (split <;> decide)))))
           | ((with_reducible apply Within.setLaneBit); (case hr => first | decide | exact Foot.allRegs_hasReg _ _ | exact Foot.all_hasReg _ | (subst_vars; decide) | ((try dsimp +zetaDelta only); split <;> first | decide | (split <;> first | decide | (split <;> decide)))))
           | ((with_reducible apply Within.when); (case' hg => intro _ _))
           | ((with_reducible apply Within.after (State.setRx_within ..)); (case hle => decide))
           | ((with_reducible apply Within.after (State.alignCheck_within ..)); (case hle => decide))
           | with_reducible apply Within.ite
           | split
           | dsimp -zeta only
           | dsimp +zetaDelta only
       clear_value x)
    | intro x
    | lift_lets
    | with_reducible apply Within.ite
    | split
    | dsimp -zeta only
    | dsimp +zetaDelta only

theorem execBlockLockLoss_within (l : LinkMoment) (s : State) (s' : State)
    (h : execBlockLockLoss l s = .next s') :
    Within (.of [.quads, .lanes, .links, .lag, .act, .latch, .irqs, .log, .pm, .events, .hbm, .mate, .tim, .bus] [.laneState, .laneTxfir, .lanePrbsCtrl, .laneScanStatus, .laneBringupTry, .laneUpLoss, .linkState, .linkFramesGood, .linkFramesDoubtful, .linkFramesBad, .linkFramesAbsent, .linkPayCrcErr, .linkOofEntry, .linkLolEntry, .lagArrLast, .lagArrMax, .lagArrMin, .lagLinkState, .lagLate, .lagMarginLow, .timRefState, .timRefDisq, .mateFrameUnusable, .busStatus, .busGrants, .logState, .logEvbEntries, .logDropped, .logEvbLost, .logEntries, .sysIntSrc]) s s' := by
  delta execBlockLockLoss at h
  injection h with h
  subst h
  repeat' first
    | with_reducible assumption
    | with_reducible apply Within.refl
    | ((with_reducible apply Within.when); (case' hg => intro _ _))
    | ((with_reducible apply Within.after (State.loseLock_within ..)); (case hle => decide))
    | ((with_reducible apply Within.after (State.quadFail_within ..)); (case hle => decide))
    | with_reducible apply Within.ite
    | split
    | dsimp -zeta only

theorem execFaSyncEntry_within (l : LinkId) (s : State) (s' : State)
    (h : execFaSyncEntry l s = .next s') :
    Within (.of [.quads, .lanes, .links, .lag, .act, .latch, .irqs, .log, .pm, .events, .hbm, .mate, .tim, .bus] [.laneState, .laneTxfir, .lanePrbsCtrl, .laneScanStatus, .laneBringupTry, .linkState, .linkFramesGood, .linkFramesDoubtful, .linkFramesBad, .linkFramesAbsent, .linkPayCrcErr, .linkOofEntry, .lagArrLast, .lagArrMax, .lagArrMin, .lagLinkState, .lagLate, .lagMarginLow, .timRefState, .timRefDisq, .mateFrameUnusable, .busStatus, .busGrants, .logState, .logEvbEntries, .logDropped, .logEvbLost, .logEntries, .sysIntSrc]) s s' := by
  delta execFaSyncEntry at h
  injection h with h
  subst h
  repeat' first
    | with_reducible assumption
    | with_reducible apply Within.refl
    | ((with_reducible apply Within.when); (case' hg => intro _ _))
    | ((with_reducible apply Within.after (State.enterSync_within ..)); (case hle => decide))
    | (intro x
       have hx : Within (.of [.quads, .lanes, .links, .lag, .act, .latch, .irqs, .log, .pm, .events, .hbm, .mate, .tim, .bus] [.laneState, .laneTxfir, .lanePrbsCtrl, .laneScanStatus, .laneBringupTry, .linkState, .linkFramesGood, .linkFramesDoubtful, .linkFramesBad, .linkFramesAbsent, .linkPayCrcErr, .linkOofEntry, .lagArrLast, .lagArrMax, .lagArrMin, .lagLinkState, .lagLate, .lagMarginLow, .timRefState, .timRefDisq, .mateFrameUnusable, .busStatus, .busGrants, .logState, .logEvbEntries, .logDropped, .logEvbLost, .logEntries, .sysIntSrc]) s x := by
         dsimp -zeta only [x]
         repeat' first
           | with_reducible assumption
           | with_reducible apply Within.refl
           | ((with_reducible apply Within.when); (case' hg => intro _ _))
           | ((with_reducible apply Within.after (State.enterSync_within ..)); (case hle => decide))
           | with_reducible apply Within.ite
           | split
           | dsimp -zeta only
           | dsimp +zetaDelta only
       clear_value x)
    | intro x
    | lift_lets
    | with_reducible apply Within.ite
    | split
    | dsimp -zeta only
    | dsimp +zetaDelta only

theorem execFaSyncLoss_within (l : LinkMoment) (s : State) (s' : State)
    (h : execFaSyncLoss l s = .next s') :
    Within (.of [.lanes, .links, .lag, .act, .latch, .irqs, .log, .pm, .events, .hbm, .mate, .tim, .bus] [.laneState, .linkState, .linkFramesGood, .linkFramesDoubtful, .linkFramesBad, .linkFramesAbsent, .linkPayCrcErr, .linkOofEntry, .lagArrLast, .lagArrMax, .lagArrMin, .lagLinkState, .lagLate, .lagMarginLow, .timRefState, .timRefDisq, .mateFrameUnusable, .busStatus, .busGrants, .logState, .logEvbEntries, .logDropped, .logEvbLost, .logEntries, .sysIntSrc]) s s' := by
  delta execFaSyncLoss at h
  injection h with h
  subst h
  repeat' first
    | with_reducible assumption
    | with_reducible apply Within.refl
    | ((with_reducible apply Within.when); (case' hg => intro _ _))
    | ((with_reducible apply Within.after (State.loseSync_within ..)); (case hle => decide))
    | with_reducible apply Within.ite
    | split
    | dsimp -zeta only

theorem execRxFrameDeliver_within (l : LinkId) (a1 : RxFrame) (s : State) (s' : State)
    (h : execRxFrameDeliver l a1 s = .next s') :
    Within (.of [.lanes, .links, .lag, .prot, .act, .latch, .irqs, .log, .pm, .events, .hbm, .mate, .alm, .tim, .bus] [.laneTxfir, .laneAdaptMsgErr, .linkState, .linkRxTick, .linkRxJust, .linkIdentRxSetid, .linkIdentRxDieid, .linkIdentRxInfo, .linkIdentRxArmed, .linkMboxCtrl, .linkUserCtrl, .linkFramesGood, .linkFramesDoubtful, .linkFramesBad, .linkFramesAbsent, .linkOvhCrcErr, .linkPayCrcErr, .linkJcCorrected, .linkTickJump, .linkTickSubst, .linkReiRx, .linkProtMsgErr, .linkMboxErr, .linkUserErr, .linkWiringEntry, .lagArrLast, .lagArrMax, .lagArrMin, .lagLinkState, .lagElasticOvf, .lagLate, .lagEarly, .lagRepeat, .lagMarginLow, .protRxGroup, .protRxBridge, .protRxReserved, .protRxUnmatched, .almArmDis, .mateWatchLost, .mateFrameUnusable, .busStatus, .busGrants, .logState, .logEvbEntries, .logDropped, .logEvbLost, .logEntries, .sysIntSrc]) s s' := by
  delta execRxFrameDeliver at h
  injection h with h
  subst h
  repeat' first
    | with_reducible assumption
    | with_reducible apply Within.refl
    | ((with_reducible apply Within.when); (case' hg => intro _ _))
    | ((with_reducible apply Within.after (State.deliver_within ..)); (case hle => decide))
    | with_reducible apply Within.ite
    | split
    | dsimp -zeta only

theorem execVerdictForm_within (l : LinkId) (next : List Block) (t16 : Nat) (s : State) (s' : State)
    (h : execVerdictForm l next t16 s = .next s') :
    Within (.of [.links, .lag, .act, .latch, .irqs, .log, .pm, .events, .hbm, .mate, .bus] [.linkState, .linkFramesGood, .linkFramesDoubtful, .linkFramesBad, .linkFramesAbsent, .linkPayCrcErr, .lagArrLast, .lagArrMax, .lagArrMin, .lagLinkState, .lagLate, .lagMarginLow, .mateFrameUnusable, .busStatus, .busGrants, .logState, .logEvbEntries, .logDropped, .logEvbLost, .logEntries, .sysIntSrc]) s s' := by
  delta execVerdictForm at h
  injection h with h
  subst h
  repeat' first
    | with_reducible assumption
    | with_reducible apply Within.refl
    | ((with_reducible apply Within.after (State.formVerdict_within ..)); (case hle => decide))
    | with_reducible apply Within.ite
    | split
    | dsimp -zeta only

theorem execNeighbourChangedClear_within (m : Master) (l : LinkId) (s : State) (s' : State)
    (h : execNeighbourChangedClear m l s = .next s') :
    Within (.of [.act, .irqs, .log, .pm, .events, .bus] [.linkState, .busStatus, .busErrLast, .busErrResp, .busDefault, .busSplits, .busGrants, .logState, .logEvbEntries, .logDropped, .logEvbLost, .logEntries, .sysIntSrc]) s s' := by
  delta execNeighbourChangedClear at h
  injection h with h
  subst h
  repeat' first
    | with_reducible assumption
    | with_reducible apply Within.refl
    | ((with_reducible apply Within.setFlag); (case hr => first | decide | exact Foot.allRegs_hasReg _ _ | exact Foot.all_hasReg _ | (subst_vars; decide) | ((try dsimp +zetaDelta only); split <;> first | decide | (split <;> first | decide | (split <;> decide)))))
    | ((with_reducible apply Within.byReg); (case hp => decide); (case hm => decide); (case he => decide); (case' hg => intro _ _))
    | ((with_reducible apply Within.after (State.clear_within ..)); (case hle => decide))
    | with_reducible apply Within.ite
    | split
    | dsimp -zeta only

theorem execLossOfSignal_within (l : LinkMoment) (s : State) (s' : State)
    (h : execLossOfSignal l s = .next s') :
    Within (.of [.quads, .lanes, .links, .lag, .act, .latch, .irqs, .log, .pm, .events, .hbm, .mate, .tim, .bus] [.laneState, .laneTxfir, .lanePrbsCtrl, .laneScanStatus, .laneBringupTry, .laneUpLoss, .linkState, .linkFramesGood, .linkFramesDoubtful, .linkFramesBad, .linkFramesAbsent, .linkPayCrcErr, .linkOofEntry, .lagArrLast, .lagArrMax, .lagArrMin, .lagLinkState, .lagLate, .lagMarginLow, .timRefState, .timRefDisq, .mateFrameUnusable, .busStatus, .busGrants, .logState, .logEvbEntries, .logDropped, .logEvbLost, .logEntries, .sysIntSrc]) s s' := by
  delta execLossOfSignal at h
  injection h with h
  subst h
  repeat' first
    | with_reducible assumption
    | with_reducible apply Within.refl
    | ((with_reducible apply Within.after (State.signalLost_within ..)); (case hle => decide))
    | with_reducible apply Within.ite
    | split
    | dsimp -zeta only

theorem execLosExit_within (l : LinkId) (s : State) (s' : State)
    (h : execLosExit l s = .next s') :
    Within (.of [] [.linkState]) s s' := by
  delta execLosExit at h
  injection h with h
  subst h
  repeat' first
    | with_reducible assumption
    | with_reducible apply Within.refl
    | ((with_reducible apply Within.setFlag); (case hr => first | decide | exact Foot.allRegs_hasReg _ _ | exact Foot.all_hasReg _ | (subst_vars; decide) | ((try dsimp +zetaDelta only); split <;> first | decide | (split <;> first | decide | (split <;> decide)))))
    | ((with_reducible apply Within.when); (case' hg => intro _ _))
    | with_reducible apply Within.ite
    | split
    | dsimp -zeta only

theorem execLofEntry_within (l : LinkId) (s : State) (s' : State)
    (h : execLofEntry l s = .next s') :
    Within (.of [.act, .latch, .irqs, .log, .pm, .events, .bus] [.linkState, .linkLofEntry, .busStatus, .busGrants, .logState, .logEvbEntries, .logDropped, .logEvbLost, .logEntries, .sysIntSrc]) s s' := by
  delta execLofEntry at h
  injection h with h
  subst h
  repeat' first
    | with_reducible assumption
    | with_reducible apply Within.refl
    | ((with_reducible apply Within.setFlag); (case hr => first | decide | exact Foot.allRegs_hasReg _ _ | exact Foot.all_hasReg _ | (subst_vars; decide) | ((try dsimp +zetaDelta only); split <;> first | decide | (split <;> first | decide | (split <;> decide)))))
    | ((with_reducible apply Within.count); (case hr => first | decide | exact Foot.allRegs_hasReg _ _ | exact Foot.all_hasReg _ | (subst_vars; decide) | ((try dsimp +zetaDelta only); split <;> first | decide | (split <;> first | decide | (split <;> decide)))))
    | ((with_reducible apply Within.when); (case' hg => intro _ _))
    | ((with_reducible apply Within.after (State.raise_within ..)); (case hle => decide))
    | with_reducible apply Within.ite
    | split
    | dsimp -zeta only

theorem execLofExit_within (l : LinkId) (s : State) (s' : State)
    (h : execLofExit l s = .next s') :
    Within (.of [.act, .irqs, .log, .pm, .events, .bus] [.linkState, .busStatus, .busGrants, .logState, .logEvbEntries, .logDropped, .logEvbLost, .logEntries, .sysIntSrc]) s s' := by
  delta execLofExit at h
  injection h with h
  subst h
  repeat' first
    | with_reducible assumption
    | with_reducible apply Within.refl
    | ((with_reducible apply Within.when); (case' hg => intro _ _))
    | ((with_reducible apply Within.after (State.lofExit_within ..)); (case hle => decide))
    | with_reducible apply Within.ite
    | split
    | dsimp -zeta only

theorem execBlockTypeErrEntry_within (l : LinkId) (s : State) (s' : State)
    (h : execBlockTypeErrEntry l s = .next s') :
    Within (.of [.act, .latch, .irqs, .log, .pm, .events, .bus] [.linkState, .busStatus, .busGrants, .logState, .logEvbEntries, .logDropped, .logEvbLost, .logEntries, .sysIntSrc]) s s' := by
  delta execBlockTypeErrEntry at h
  injection h with h
  subst h
  repeat' first
    | with_reducible assumption
    | with_reducible apply Within.refl
    | ((with_reducible apply Within.setFlag); (case hr => first | decide | exact Foot.allRegs_hasReg _ _ | exact Foot.all_hasReg _ | (subst_vars; decide) | ((try dsimp +zetaDelta only); split <;> first | decide | (split <;> first | decide | (split <;> decide)))))
    | ((with_reducible apply Within.when); (case' hg => intro _ _))
    | ((with_reducible apply Within.after (State.raise_within ..)); (case hle => decide))
    | with_reducible apply Within.ite
    | split
    | dsimp -zeta only

theorem execBlockTypeErrExit_within (l : LinkId) (s : State) (s' : State)
    (h : execBlockTypeErrExit l s = .next s') :
    Within (.of [.act, .irqs, .log, .pm, .events, .bus] [.linkState, .busStatus, .busGrants, .logState, .logEvbEntries, .logDropped, .logEvbLost, .logEntries, .sysIntSrc]) s s' := by
  delta execBlockTypeErrExit at h
  injection h with h
  subst h
  repeat' first
    | with_reducible assumption
    | with_reducible apply Within.refl
    | ((with_reducible apply Within.when); (case' hg => intro _ _))
    | ((with_reducible apply Within.after (State.typeErrExit_within ..)); (case hle => decide))
    | with_reducible apply Within.ite
    | split
    | dsimp -zeta only

theorem execRdiEntry_within (l : LinkId) (s : State) (s' : State)
    (h : execRdiEntry l s = .next s') :
    Within (.of [.act, .latch, .irqs, .log, .pm, .events, .bus] [.linkState, .busStatus, .busGrants, .logState, .logEvbEntries, .logDropped, .logEvbLost, .logEntries, .sysIntSrc]) s s' := by
  delta execRdiEntry at h
  injection h with h
  subst h
  repeat' first
    | with_reducible assumption
    | with_reducible apply Within.refl
    | ((with_reducible apply Within.setFlag); (case hr => first | decide | exact Foot.allRegs_hasReg _ _ | exact Foot.all_hasReg _ | (subst_vars; decide) | ((try dsimp +zetaDelta only); split <;> first | decide | (split <;> first | decide | (split <;> decide)))))
    | ((with_reducible apply Within.when); (case' hg => intro _ _))
    | ((with_reducible apply Within.after (State.raise_within ..)); (case hle => decide))
    | with_reducible apply Within.ite
    | split
    | dsimp -zeta only

theorem execRdiExit_within (l : LinkId) (s : State) (s' : State)
    (h : execRdiExit l s = .next s') :
    Within (.of [.links, .act, .irqs, .log, .pm, .events, .bus] [.linkState, .busStatus, .busGrants, .logState, .logEvbEntries, .logDropped, .logEvbLost, .logEntries, .sysIntSrc]) s s' := by
  delta execRdiExit at h
  injection h with h
  subst h
  repeat' first
    | with_reducible assumption
    | with_reducible apply Within.refl
    | ((with_reducible apply Within.when); (case' hg => intro _ _))
    | ((with_reducible apply Within.after (State.rdiExit_within ..)); (case hle => decide))
    | with_reducible apply Within.ite
    | split
    | dsimp -zeta only

theorem execDiscordEntry_within (l : LinkId) (s : State) (s' : State)
    (h : execDiscordEntry l s = .next s') :
    Within (.of [.act, .latch, .irqs, .log, .pm, .events, .bus] [.linkState, .linkDiscordEntry, .busStatus, .busGrants, .logState, .logEvbEntries, .logDropped, .logEvbLost, .logEntries, .sysIntSrc]) s s' := by
  delta execDiscordEntry at h
  injection h with h
  subst h
  repeat' first
    | with_reducible assumption
    | with_reducible apply Within.refl
    | ((with_reducible apply Within.setFlag); (case hr => first | decide | exact Foot.allRegs_hasReg _ _ | exact Foot.all_hasReg _ | (subst_vars; decide) | ((try dsimp +zetaDelta only); split <;> first | decide | (split <;> first | decide | (split <;> decide)))))
    | ((with_reducible apply Within.count); (case hr => first | decide | exact Foot.allRegs_hasReg _ _ | exact Foot.all_hasReg _ | (subst_vars; decide) | ((try dsimp +zetaDelta only); split <;> first | decide | (split <;> first | decide | (split <;> decide)))))
    | ((with_reducible apply Within.when); (case' hg => intro _ _))
    | ((with_reducible apply Within.after (State.raise_within ..)); (case hle => decide))
    | with_reducible apply Within.ite
    | split
    | dsimp -zeta only

theorem execDiscordExit_within (l : LinkId) (s : State) (s' : State)
    (h : execDiscordExit l s = .next s') :
    Within (.of [.act, .irqs, .log, .pm, .events, .bus] [.linkState, .busStatus, .busGrants, .logState, .logEvbEntries, .logDropped, .logEvbLost, .logEntries, .sysIntSrc]) s s' := by
  delta execDiscordExit at h
  injection h with h
  subst h
  repeat' first
    | with_reducible assumption
    | with_reducible apply Within.refl
    | ((with_reducible apply Within.when); (case' hg => intro _ _))
    | ((with_reducible apply Within.after (State.discordExit_within ..)); (case hle => decide))
    | with_reducible apply Within.ite
    | split
    | dsimp -zeta only

end Sys2Proof.Machine
end

