-- ==== Sys2Proof/Laws/Footprint/Logbook.lean ====
section
/-! SUPPORT. What each operation of Machine/Logbook.lean may touch. -/

namespace Sys2Proof.Machine

theorem State.evbDrain_within (s : State) :
    Within (.of [.log, .pm, .events, .bus] [.busGrants, .logEvbEntries, .sysIntSrc]) s (State.evbDrain s) := by
  delta State.evbDrain
  repeat' first
    | with_reducible assumption
    | with_reducible apply Within.refl
    | ((with_reducible apply Within.each); (case' hg => intro _ _ _))
    | ((with_reducible apply Within.after (State.evbWrite_within _ _ _ (State.rd_lt _ F.logStateEvbStack _))); case hle => decide)
    | (intro x
       have hx : Within (.of [.log, .pm, .events, .bus] [.busGrants, .logEvbEntries, .sysIntSrc]) s x := by
         dsimp -zeta only [x]
         repeat' first
           | with_reducible assumption
           | with_reducible apply Within.refl
           | ((with_reducible apply Within.each); (case' hg => intro _ _ _))
           | ((with_reducible apply Within.after (State.evbWrite_within _ _ _ (State.rd_lt _ F.logStateEvbStack _))); case hle => decide)
           | with_reducible apply Within.ite
           | ((with_reducible apply Within.set_log); (case hc => decide))
           | split
           | dsimp -zeta only
           | dsimp +zetaDelta only
       clear_value x)
    | intro x
    | lift_lets
    | with_reducible apply Within.ite
    | ((with_reducible apply Within.set_log); (case hc => decide))
    | split
    | dsimp -zeta only
    | dsimp +zetaDelta only

theorem State.evbUse_within (s : State) (k : Nat) :
    Within (.of [] [.logState, .logEvbBase]) s (State.evbUse s k) := by
  delta State.evbUse
  repeat' first
    | with_reducible assumption
    | with_reducible apply Within.refl
    | ((with_reducible apply Within.setWord); (case hr => first | decide | exact Foot.allRegs_hasReg _ _ | exact Foot.all_hasReg _ | (subst_vars; decide) | ((try dsimp +zetaDelta only); split <;> first | decide | (split <;> first | decide | (split <;> decide)))))
    | ((with_reducible apply Within.wr); (case hr => first | decide | exact Foot.allRegs_hasReg _ _ | exact Foot.all_hasReg _ | (subst_vars; decide) | ((try dsimp +zetaDelta only); split <;> first | decide | (split <;> first | decide | (split <;> decide)))))
    | ((with_reducible apply Within.setFlag); (case hr => first | decide | exact Foot.allRegs_hasReg _ _ | exact Foot.all_hasReg _ | (subst_vars; decide) | ((try dsimp +zetaDelta only); split <;> first | decide | (split <;> first | decide | (split <;> decide)))))
    | (intro x
       have hx : Within (.of [] [.logState, .logEvbBase]) s x := by
         dsimp -zeta only [x]
         repeat' first
           | with_reducible assumption
           | with_reducible apply Within.refl
           | ((with_reducible apply Within.setWord); (case hr => first | decide | exact Foot.allRegs_hasReg _ _ | exact Foot.all_hasReg _ | (subst_vars; decide) | ((try dsimp +zetaDelta only); split <;> first | decide | (split <;> first | decide | (split <;> decide)))))
           | ((with_reducible apply Within.wr); (case hr => first | decide | exact Foot.allRegs_hasReg _ _ | exact Foot.all_hasReg _ | (subst_vars; decide) | ((try dsimp +zetaDelta only); split <;> first | decide | (split <;> first | decide | (split <;> decide)))))
           | ((with_reducible apply Within.setFlag); (case hr => first | decide | exact Foot.allRegs_hasReg _ _ | exact Foot.all_hasReg _ | (subst_vars; decide) | ((try dsimp +zetaDelta only); split <;> first | decide | (split <;> first | decide | (split <;> decide)))))
           | with_reducible apply Within.ite
           | split
           | dsimp -zeta only
           | dsimp +zetaDelta only
       clear_value x)
    | intro x
    | lift_lets
    | with_reducible apply Within.ite
    | split
    | dsimp -zeta only
    | dsimp +zetaDelta only

theorem State.evbNone_within (s : State) :
    Within (.of [.act, .latch, .irqs, .log, .pm, .events, .bus] [.busStatus, .busGrants, .logState, .logEvbEntries, .logDropped, .logEvbLost, .logEntries, .sysIntSrc]) s (State.evbNone s) := by
  delta State.evbNone
  repeat' first
    | with_reducible assumption
    | with_reducible apply Within.refl
    | ((with_reducible apply Within.countBy); (case hr => first | decide | exact Foot.allRegs_hasReg _ _ | exact Foot.all_hasReg _ | (subst_vars; decide) | ((try dsimp +zetaDelta only); split <;> first | decide | (split <;> first | decide | (split <;> decide)))))
    | ((with_reducible apply Within.after (State.raise_within ..)); (case hle => decide))
    | (intro x
       have hx : Within (.of [.act, .latch, .irqs, .log, .pm, .events, .bus] [.busStatus, .busGrants, .logState, .logEvbEntries, .logDropped, .logEvbLost, .logEntries, .sysIntSrc]) s x := by
         dsimp -zeta only [x]
         repeat' first
           | with_reducible assumption
           | with_reducible apply Within.refl
           | ((with_reducible apply Within.countBy); (case hr => first | decide | exact Foot.allRegs_hasReg _ _ | exact Foot.all_hasReg _ | (subst_vars; decide) | ((try dsimp +zetaDelta only); split <;> first | decide | (split <;> first | decide | (split <;> decide)))))
           | ((with_reducible apply Within.after (State.raise_within ..)); (case hle => decide))
           | with_reducible apply Within.ite
           | ((with_reducible apply Within.set_log); (case hc => decide))
           | split
           | dsimp -zeta only
           | dsimp +zetaDelta only
       clear_value x)
    | intro x
    | lift_lets
    | with_reducible apply Within.ite
    | ((with_reducible apply Within.set_log); (case hc => decide))
    | split
    | dsimp -zeta only
    | dsimp +zetaDelta only

theorem State.evbOpen_within (s : State) :
    Within (.of [.act, .latch, .irqs, .log, .pm, .events, .bus] [.busStatus, .busGrants, .logState, .logEvbBase, .logEvbEntries, .logDropped, .logEvbLost, .logEntries, .sysIntSrc]) s (State.evbOpen s) := by
  delta State.evbOpen
  repeat' first
    | with_reducible assumption
    | with_reducible apply Within.refl
    | ((with_reducible apply Within.after (State.evbDrain_within ..)); (case hle => decide))
    | ((with_reducible apply Within.after (State.evbUse_within ..)); (case hle => decide))
    | ((with_reducible apply Within.after (State.evbNone_within ..)); (case hle => decide))
    | with_reducible apply Within.ite
    | split
    | dsimp -zeta only

theorem State.evbLose_within (s : State) (k : Nat) :
    Within (.of [.act, .latch, .irqs, .log, .pm, .events, .bus] [.busStatus, .busGrants, .logState, .logEvbEntries, .logDropped, .logEvbLost, .logEntries, .sysIntSrc]) s (State.evbLose s k) := by
  delta State.evbLose
  repeat' first
    | with_reducible assumption
    | with_reducible apply Within.refl
    | ((with_reducible apply Within.setFlag); (case hr => first | decide | exact Foot.allRegs_hasReg _ _ | exact Foot.all_hasReg _ | (subst_vars; decide) | ((try dsimp +zetaDelta only); split <;> first | decide | (split <;> first | decide | (split <;> decide)))))
    | ((with_reducible apply Within.after (State.evbNone_within ..)); (case hle => decide))
    | (intro x
       have hx : Within (.of [.act, .latch, .irqs, .log, .pm, .events, .bus] [.busStatus, .busGrants, .logState, .logEvbEntries, .logDropped, .logEvbLost, .logEntries, .sysIntSrc]) s x := by
         dsimp -zeta only [x]
         repeat' first
           | with_reducible assumption
           | with_reducible apply Within.refl
           | ((with_reducible apply Within.setFlag); (case hr => first | decide | exact Foot.allRegs_hasReg _ _ | exact Foot.all_hasReg _ | (subst_vars; decide) | ((try dsimp +zetaDelta only); split <;> first | decide | (split <;> first | decide | (split <;> decide)))))
           | ((with_reducible apply Within.after (State.evbNone_within ..)); (case hle => decide))
           | with_reducible apply Within.ite
           | ((with_reducible apply Within.set_log); (case hc => decide))
           | split
           | dsimp -zeta only
           | dsimp +zetaDelta only
       clear_value x)
    | intro x
    | lift_lets
    | with_reducible apply Within.ite
    | ((with_reducible apply Within.set_log); (case hc => decide))
    | split
    | dsimp -zeta only
    | dsimp +zetaDelta only

theorem State.evbMove_within (s : State) :
    Within (.of [.act, .latch, .irqs, .log, .pm, .events, .bus] [.busStatus, .busGrants, .logState, .logEvbBase, .logEvbEntries, .logDropped, .logEvbLost, .logEntries, .sysIntSrc]) s (State.evbMove s) := by
  delta State.evbMove
  repeat' first
    | with_reducible assumption
    | with_reducible apply Within.refl
    | ((with_reducible apply Within.after (State.evbUse_within ..)); (case hle => decide))
    | ((with_reducible apply Within.after (State.logEvent_within ..)); (case hle => decide))
    | ((with_reducible apply Within.after (State.evbDrain_within ..)); (case hle => decide))
    | ((with_reducible apply Within.after (State.evbNone_within ..)); (case hle => decide))
    | (intro x
       have hx : Within (.of [.act, .latch, .irqs, .log, .pm, .events, .bus] [.busStatus, .busGrants, .logState, .logEvbBase, .logEvbEntries, .logDropped, .logEvbLost, .logEntries, .sysIntSrc]) s x := by
         dsimp -zeta only [x]
         repeat' first
           | with_reducible assumption
           | with_reducible apply Within.refl
           | ((with_reducible apply Within.after (State.evbUse_within ..)); (case hle => decide))
           | ((with_reducible apply Within.after (State.logEvent_within ..)); (case hle => decide))
           | ((with_reducible apply Within.after (State.evbDrain_within ..)); (case hle => decide))
           | ((with_reducible apply Within.after (State.evbNone_within ..)); (case hle => decide))
           | with_reducible apply Within.ite
           | split
           | dsimp -zeta only
           | dsimp +zetaDelta only
           | ((with_reducible apply Within.set_log); (case hc => decide))
       clear_value x)
    | intro x
    | lift_lets
    | with_reducible apply Within.ite
    | split
    | dsimp -zeta only
    | dsimp +zetaDelta only
    | ((with_reducible apply Within.set_log); (case hc => decide))

theorem flashPut_wf (bs : List Byte) (a : Nat) (t : Tbl Byte) (h : flashWf t = true) : flashWf (flashPut bs a t) = true := by
  induction bs generalizing a t with
  | nil => exact h
  | cons b bs ih => exact ih _ _ (Tbl.wf_set a b h)

theorem State.flashWrite_within (s : State) (bs : List Byte) (a : Nat) : Within (Foot.of [.flash] []) s (State.flashWrite s bs a) :=
  (Within.refl _ s).set_flash (by decide) (flashPut_wf _ _ _)

theorem State.flashErase_within (s : State) (a : Nat) : Within (Foot.of [.flash] []) s (State.flashErase s a) :=
  (Within.refl _ s).set_flash (by decide) (Tbl.wf_clearRange _ _)

theorem State.flashSpoil_within (s : State) (a1 : Nat) (n : Nat) :
    Within (.of [.free, .flash] []) s (State.flashSpoil s a1 n) := by
  delta State.flashSpoil
  repeat' first
    | with_reducible assumption
    | with_reducible apply Within.refl
    | ((with_reducible apply Within.after (State.takeFreeWords_within ..)); (case hle => decide))
    | ((with_reducible apply Within.after (Within.of_eq (State.takeFreeWords_within ..) ?e)); (case e => assumption); (case hle => decide))
    | ((with_reducible apply Within.after (State.flashWrite_within ..)); (case hle => decide))
    | (intro x
       have hx : Within (.of [.free, .flash] []) s x := by
         dsimp -zeta only [x]
         repeat' first
           | with_reducible assumption
           | with_reducible apply Within.refl
           | ((with_reducible apply Within.after (State.takeFreeWords_within ..)); (case hle => decide))
           | ((with_reducible apply Within.after (Within.of_eq (State.takeFreeWords_within ..) ?e)); (case e => assumption); (case hle => decide))
           | ((with_reducible apply Within.after (State.flashWrite_within ..)); (case hle => decide))
           | with_reducible apply Within.ite
           | split
           | dsimp -zeta only
           | dsimp +zetaDelta only
       clear_value x)
    | intro x
    | lift_lets
    | with_reducible apply Within.ite
    | split
    | dsimp -zeta only
    | dsimp +zetaDelta only

theorem State.logFind_within (s : State) :
    Within (.of [.act, .latch, .irqs, .log, .pm, .events, .bus] [.busStatus, .busGrants, .logState, .logEvbEntries, .logDropped, .logEvbLost, .logEntries, .sysIntSrc]) s (State.logFind s) := by
  delta State.logFind
  repeat' first
    | with_reducible assumption
    | with_reducible apply Within.refl
    | ((with_reducible apply Within.wr); (case hr => first | decide | exact Foot.allRegs_hasReg _ _ | exact Foot.all_hasReg _ | (subst_vars; decide) | ((try dsimp +zetaDelta only); split <;> first | decide | (split <;> first | decide | (split <;> decide)))))
    | ((with_reducible apply Within.setFlag); (case hr => first | decide | exact Foot.allRegs_hasReg _ _ | exact Foot.all_hasReg _ | (subst_vars; decide) | ((try dsimp +zetaDelta only); split <;> first | decide | (split <;> first | decide | (split <;> decide)))))
    | ((with_reducible apply Within.after (State.logEvent_within ..)); (case hle => decide))
    | ((with_reducible apply Within.after (State.raise_within ..)); (case hle => decide))
    | (intro x
       have hx : Within (.of [.act, .latch, .irqs, .log, .pm, .events, .bus] [.busStatus, .busGrants, .logState, .logEvbEntries, .logDropped, .logEvbLost, .logEntries, .sysIntSrc]) s x := by
         dsimp -zeta only [x]
         repeat' first
           | with_reducible assumption
           | with_reducible apply Within.refl
           | ((with_reducible apply Within.wr); (case hr => first | decide | exact Foot.allRegs_hasReg _ _ | exact Foot.all_hasReg _ | (subst_vars; decide) | ((try dsimp +zetaDelta only); split <;> first | decide | (split <;> first | decide | (split <;> decide)))))
           | ((with_reducible apply Within.setFlag); (case hr => first | decide | exact Foot.allRegs_hasReg _ _ | exact Foot.all_hasReg _ | (subst_vars; decide) | ((try dsimp +zetaDelta only); split <;> first | decide | (split <;> first | decide | (split <;> decide)))))
           | ((with_reducible apply Within.after (State.logEvent_within ..)); (case hle => decide))
           | ((with_reducible apply Within.after (State.raise_within ..)); (case hle => decide))
           | with_reducible apply Within.ite
           | split
           | dsimp -zeta only
           | dsimp +zetaDelta only
           | ((with_reducible apply Within.set_log); (case hc => decide))
       clear_value x)
    | intro x
    | lift_lets
    | with_reducible apply Within.ite
    | split
    | dsimp -zeta only
    | dsimp +zetaDelta only
    | ((with_reducible apply Within.set_log); (case hc => decide))

theorem State.powerUp_within (s : State) :
    Within (.of [.log, .pm, .events, .bus] [.busGrants, .logState, .logEvbEntries, .logDropped, .logEvbLost, .logEntries, .sysIntSrc]) s (State.powerUp s) := by
  delta State.powerUp
  repeat' first
    | with_reducible assumption
    | with_reducible apply Within.refl
    | ((with_reducible apply Within.after (State.logEvent_within ..)); (case hle => decide))
    | (intro x
       have hx : Within (.of [.log, .pm, .events, .bus] [.busGrants, .logState, .logEvbEntries, .logDropped, .logEvbLost, .logEntries, .sysIntSrc]) s x := by
         dsimp -zeta only [x]
         repeat' first
           | with_reducible assumption
           | with_reducible apply Within.refl
           | ((with_reducible apply Within.after (State.logEvent_within ..)); (case hle => decide))
           | with_reducible apply Within.ite
           | ((with_reducible apply Within.set_log); (case hc => decide))
           | split
           | dsimp -zeta only
           | dsimp +zetaDelta only
       clear_value x)
    | intro x
    | lift_lets
    | with_reducible apply Within.ite
    | ((with_reducible apply Within.set_log); (case hc => decide))
    | split
    | dsimp -zeta only
    | dsimp +zetaDelta only

theorem State.storeAt_within (s : State) :
    Within (.of [.flash] []) s (State.storeAt s) := by
  delta State.storeAt
  repeat' first
    | with_reducible assumption
    | with_reducible apply Within.refl
    | ((with_reducible apply Within.when); (case' hg => intro _ _))
    | ((with_reducible apply Within.after (State.flashErase_within ..)); (case hle => decide))
    | (intro x
       have hx : Within (.of [.flash] []) s x := by
         dsimp -zeta only [x]
         repeat' first
           | with_reducible assumption
           | with_reducible apply Within.refl
           | ((with_reducible apply Within.when); (case' hg => intro _ _))
           | ((with_reducible apply Within.after (State.flashErase_within ..)); (case hle => decide))
           | with_reducible apply Within.ite
           | split
           | dsimp -zeta only
           | dsimp +zetaDelta only
       clear_value x)
    | intro x
    | lift_lets
    | with_reducible apply Within.ite
    | split
    | dsimp -zeta only
    | dsimp +zetaDelta only

theorem State.storeStart_within (s : State) :
    Within (.of [.log, .flash] [.nvmStatus, .logState]) s (State.storeStart s) := by
  delta State.storeStart
  repeat' first
    | with_reducible assumption
    | with_reducible apply Within.refl
    | ((with_reducible apply Within.setFlag); (case hr => first | decide | exact Foot.allRegs_hasReg _ _ | exact Foot.all_hasReg _ | (subst_vars; decide) | ((try dsimp +zetaDelta only); split <;> first | decide | (split <;> first | decide | (split <;> decide)))))
    | ((with_reducible apply Within.after (State.storeAt_within ..)); (case hle => decide))
    | (intro x
       have hx : Within (.of [.log, .flash] [.nvmStatus, .logState]) s x := by
         dsimp -zeta only [x]
         repeat' first
           | with_reducible assumption
           | with_reducible apply Within.refl
           | ((with_reducible apply Within.setFlag); (case hr => first | decide | exact Foot.allRegs_hasReg _ _ | exact Foot.all_hasReg _ | (subst_vars; decide) | ((try dsimp +zetaDelta only); split <;> first | decide | (split <;> first | decide | (split <;> decide)))))
           | ((with_reducible apply Within.after (State.storeAt_within ..)); (case hle => decide))
           | with_reducible apply Within.ite
           | ((with_reducible apply Within.set_log); (case hc => decide))
           | split
           | dsimp -zeta only
           | dsimp +zetaDelta only
       clear_value x)
    | intro x
    | lift_lets
    | with_reducible apply Within.ite
    | ((with_reducible apply Within.set_log); (case hc => decide))
    | split
    | dsimp -zeta only
    | dsimp +zetaDelta only

theorem State.storeNext_within (s : State) :
    Within (.of [.log] [.logState]) s (State.storeNext s) := by
  delta State.storeNext
  repeat' first
    | with_reducible assumption
    | with_reducible apply Within.refl
    | ((with_reducible apply Within.when); (case' hg => intro _ _))
    | ((with_reducible apply Within.after (State.stagedSync_within ..)); (case hle => decide))
    | ((with_reducible apply Within.after (State.storeCause_within ..)); (case hle => decide))
    | (intro x
       have hx : Within (.of [.log] [.logState]) s x := by
         dsimp -zeta only [x]
         repeat' first
           | with_reducible assumption
           | with_reducible apply Within.refl
           | ((with_reducible apply Within.when); (case' hg => intro _ _))
           | ((with_reducible apply Within.after (State.stagedSync_within ..)); (case hle => decide))
           | ((with_reducible apply Within.after (State.storeCause_within ..)); (case hle => decide))
           | with_reducible apply Within.ite
           | ((with_reducible apply Within.set_log); (case hc => decide))
           | split
           | dsimp -zeta only
           | dsimp +zetaDelta only
       clear_value x)
    | intro x
    | lift_lets
    | with_reducible apply Within.ite
    | ((with_reducible apply Within.set_log); (case hc => decide))
    | split
    | dsimp -zeta only
    | dsimp +zetaDelta only

theorem State.storeEnd_within (s : State) :
    Within (.of [] [.nvmStatus, .logState]) s (State.storeEnd s) := by
  delta State.storeEnd
  repeat' first
    | with_reducible assumption
    | with_reducible apply Within.refl
    | ((with_reducible apply Within.setFlag); (case hr => first | decide | exact Foot.allRegs_hasReg _ _ | exact Foot.all_hasReg _ | (subst_vars; decide) | ((try dsimp +zetaDelta only); split <;> first | decide | (split <;> first | decide | (split <;> decide)))))
    | with_reducible apply Within.ite
    | split
    | dsimp -zeta only

theorem State.storeDone_within (s : State) (ok : Bool) :
    Within (.of [.free, .act, .latch, .irqs, .log, .pm, .events, .flash, .bus] [.busStatus, .busGrants, .nvmStatus, .logState, .logEvbEntries, .logDropped, .logEvbLost, .logEntries, .logStores, .logStoreFail, .sysIntSrc]) s (State.storeDone s ok) := by
  delta State.storeDone
  repeat' first
    | with_reducible assumption
    | with_reducible apply Within.refl
    | ((with_reducible apply Within.wr); (case hr => first | decide | exact Foot.allRegs_hasReg _ _ | exact Foot.all_hasReg _ | (subst_vars; decide) | ((try dsimp +zetaDelta only); split <;> first | decide | (split <;> first | decide | (split <;> decide)))))
    | ((with_reducible apply Within.count); (case hr => first | decide | exact Foot.allRegs_hasReg _ _ | exact Foot.all_hasReg _ | (subst_vars; decide) | ((try dsimp +zetaDelta only); split <;> first | decide | (split <;> first | decide | (split <;> decide)))))
    | ((with_reducible apply Within.after (State.flashWrite_within ..)); (case hle => decide))
    | ((with_reducible apply Within.after (State.storeNext_within ..)); (case hle => decide))
    | ((with_reducible apply Within.after (State.storeEnd_within ..)); (case hle => decide))
    | ((with_reducible apply Within.after (State.clear_within ..)); (case hle => decide))
    | ((with_reducible apply Within.after (State.flashSpoil_within ..)); (case hle => decide))
    | ((with_reducible apply Within.after (State.raise_within ..)); (case hle => decide))
    | ((with_reducible apply Within.after (State.storeAt_within ..)); (case hle => decide))
    | (intro x
       have hx : Within (.of [.free, .act, .latch, .irqs, .log, .pm, .events, .flash, .bus] [.busStatus, .busGrants, .nvmStatus, .logState, .logEvbEntries, .logDropped, .logEvbLost, .logEntries, .logStores, .logStoreFail, .sysIntSrc]) s x := by
         dsimp -zeta only [x]
         repeat' first
           | with_reducible assumption
           | with_reducible apply Within.refl
           | ((with_reducible apply Within.wr); (case hr => first | decide | exact Foot.allRegs_hasReg _ _ | exact Foot.all_hasReg _ | (subst_vars; decide) | ((try dsimp +zetaDelta only); split <;> first | decide | (split <;> first | decide | (split <;> decide)))))
           | ((with_reducible apply Within.count); (case hr => first | decide | exact Foot.allRegs_hasReg _ _ | exact Foot.all_hasReg _ | (subst_vars; decide) | ((try dsimp +zetaDelta only); split <;> first | decide | (split <;> first | decide | (split <;> decide)))))
           | ((with_reducible apply Within.after (State.flashWrite_within ..)); (case hle => decide))
           | ((with_reducible apply Within.after (State.storeNext_within ..)); (case hle => decide))
           | ((with_reducible apply Within.after (State.storeEnd_within ..)); (case hle => decide))
           | ((with_reducible apply Within.after (State.clear_within ..)); (case hle => decide))
           | ((with_reducible apply Within.after (State.flashSpoil_within ..)); (case hle => decide))
           | ((with_reducible apply Within.after (State.raise_within ..)); (case hle => decide))
           | ((with_reducible apply Within.after (State.storeAt_within ..)); (case hle => decide))
           | with_reducible apply Within.ite
           | ((with_reducible apply Within.set_log); (case hc => decide))
           | split
           | dsimp -zeta only
           | dsimp +zetaDelta only
       clear_value x)
    | intro x
    | lift_lets
    | with_reducible apply Within.ite
    | ((with_reducible apply Within.set_log); (case hc => decide))
    | split
    | dsimp -zeta only
    | dsimp +zetaDelta only

theorem execEvbMove_within (s : State) (s' : State)
    (h : execEvbMove s = .next s') :
    Within (.of [.act, .latch, .irqs, .log, .pm, .events, .bus] [.busStatus, .busGrants, .logState, .logEvbBase, .logEvbEntries, .logDropped, .logEvbLost, .logEntries, .sysIntSrc]) s s' := by
  delta execEvbMove at h
  injection h with h
  subst h
  repeat' first
    | with_reducible assumption
    | with_reducible apply Within.refl
    | ((with_reducible apply Within.after (State.evbMove_within ..)); (case hle => decide))
    | with_reducible apply Within.ite
    | split
    | dsimp -zeta only

theorem execLogStoreStart_within (s : State) (s' : State)
    (h : execLogStoreStart s = .next s') :
    Within (.of [.log, .flash] [.nvmStatus, .logState]) s s' := by
  delta execLogStoreStart at h
  injection h with h
  subst h
  repeat' first
    | with_reducible assumption
    | with_reducible apply Within.refl
    | ((with_reducible apply Within.when); (case' hg => intro _ _))
    | ((with_reducible apply Within.after (State.storeStart_within ..)); (case hle => decide))
    | with_reducible apply Within.ite
    | split
    | dsimp -zeta only

theorem execLogStoreDone_within (verified : Bool) (s : State) (s' : State)
    (h : execLogStoreDone verified s = .next s') :
    Within (.of [.free, .act, .latch, .irqs, .log, .pm, .events, .flash, .bus] [.busStatus, .busGrants, .nvmStatus, .logState, .logEvbEntries, .logDropped, .logEvbLost, .logEntries, .logStores, .logStoreFail, .sysIntSrc]) s s' := by
  delta execLogStoreDone at h
  injection h with h
  subst h
  repeat' first
    | with_reducible assumption
    | with_reducible apply Within.refl
    | ((with_reducible apply Within.when); (case' hg => intro _ _))
    | ((with_reducible apply Within.after (State.storeDone_within ..)); (case hle => decide))
    | with_reducible apply Within.ite
    | split
    | dsimp -zeta only

theorem execLogHourly_within (s : State) (s' : State)
    (h : execLogHourly s = .next s') :
    Within (.of [.log] []) s s' := by
  delta execLogHourly at h
  injection h with h
  subst h
  repeat' first
    | with_reducible assumption
    | with_reducible apply Within.refl
    | ((with_reducible apply Within.when); (case' hg => intro _ _))
    | ((with_reducible apply Within.after (State.storeCause_within ..)); (case hle => decide))
    | with_reducible apply Within.ite
    | split
    | dsimp -zeta only

theorem execLogFlush_within (m : Master) (s : State) (s' : State)
    (h : execLogFlush m s = .next s') :
    Within (.of [.irqs, .log, .pm, .bus] [.busErrLast, .busErrResp, .busDefault, .busSplits, .busGrants, .sysIntSrc]) s s' := by
  delta execLogFlush at h
  injection h with h
  subst h
  repeat' first
    | with_reducible assumption
    | with_reducible apply Within.refl
    | ((with_reducible apply Within.byReg); (case hp => decide); (case hm => decide); (case he => decide); (case' hg => intro _ _))
    | ((with_reducible apply Within.after (State.storeCause_within ..)); (case hle => decide))
    | with_reducible apply Within.ite
    | split
    | dsimp -zeta only

end Sys2Proof.Machine
end

