-- ==== Sys2Proof/Laws/Footprint/Monitor.lean ====
section
/-! SUPPORT. What each operation of Machine/Monitor.lean may touch. -/

namespace Sys2Proof.Machine

theorem State.setPmEnt_within (s : State) (e : Nat) (v : PmEntity) :
    Within (.of [.pm] []) s (State.setPmEnt s e v) := by
  delta State.setPmEnt
  repeat' first
    | with_reducible assumption
    | with_reducible apply Within.refl
    | with_reducible apply Within.ite
    | ((with_reducible apply Within.set_pm); (case hc => decide))
    | split
    | dsimp -zeta only

theorem State.pmShow_within (s : State) (e : Nat) :
    Within (.of [] [.pmLinkState, .pmGroupState, .pmMateState]) s (State.pmShow s e) := by
  delta State.pmShow
  repeat' first
    | with_reducible assumption
    | with_reducible apply Within.refl
    | ((with_reducible apply Within.wr); (case hr => first | decide | exact Foot.allRegs_hasReg _ _ | exact Foot.all_hasReg _ | (subst_vars; decide) | ((try dsimp +zetaDelta only); split <;> first | decide | (split <;> first | decide | (split <;> decide)))))
    | ((with_reducible apply Within.setFlag); (case hr => first | decide | exact Foot.allRegs_hasReg _ _ | exact Foot.all_hasReg _ | (subst_vars; decide) | ((try dsimp +zetaDelta only); split <;> first | decide | (split <;> first | decide | (split <;> decide)))))
    | (intro x
       have hx : Within (.of [] [.pmLinkState, .pmGroupState, .pmMateState]) s x := by
         dsimp -zeta only [x]
         repeat' first
           | with_reducible assumption
           | with_reducible apply Within.refl
           | ((with_reducible apply Within.wr); (case hr => first | decide | exact Foot.allRegs_hasReg _ _ | exact Foot.all_hasReg _ | (subst_vars; decide) | ((try dsimp +zetaDelta only); split <;> first | decide | (split <;> first | decide | (split <;> decide)))))
           | ((with_reducible apply Within.setFlag); (case hr => first | decide | exact Foot.allRegs_hasReg _ _ | exact Foot.all_hasReg _ | (subst_vars; decide) | ((try dsimp +zetaDelta only); split <;> first | decide | (split <;> first | decide | (split <;> decide)))))
           | with_reducible apply Within.ite
           | split
           | dsimp -zeta only
           | dsimp +zetaDelta only
       clear_value x)
    | intro x
    | lift_lets
    | with_reducible apply Within.ite
    | split
    | dsimp -zeta only
    | dsimp +zetaDelta only

theorem State.pmAlarm_within (s : State) (e : Nat) (b : Bool) :
    Within (.of [.act, .latch, .irqs, .log, .pm, .events, .bus] [.busStatus, .busGrants, .logState, .logEvbEntries, .logDropped, .logEvbLost, .logEntries, .sysIntSrc]) s (State.pmAlarm s e b) := by
  delta State.pmAlarm
  repeat' first
    | with_reducible assumption
    | with_reducible apply Within.refl
    | ((with_reducible apply Within.after (State.setAlarm_within ..)); (case hle => decide))
    | with_reducible apply Within.ite
    | split
    | dsimp -zeta only

theorem State.pmTickEnt_within (s : State) (e : Nat) :
    Within (.of [.act, .latch, .irqs, .log, .pm, .events, .bus] [.busStatus, .busGrants, .pmLinkState, .pmGroupState, .pmMateState, .logState, .logEvbEntries, .logDropped, .logEvbLost, .logEntries, .sysIntSrc]) s (State.pmTickEnt s e) := by
  delta State.pmTickEnt
  repeat' first
    | with_reducible assumption
    | with_reducible apply Within.refl
    | ((with_reducible apply Within.after (State.pmShow_within ..)); (case hle => decide))
    | ((with_reducible apply Within.after (State.pmAlarm_within ..)); (case hle => decide))
    | ((with_reducible apply Within.after (State.setPmEnt_within ..)); (case hle => decide))
    | (intro x
       have hx : Within (.of [.act, .latch, .irqs, .log, .pm, .events, .bus] [.busStatus, .busGrants, .pmLinkState, .pmGroupState, .pmMateState, .logState, .logEvbEntries, .logDropped, .logEvbLost, .logEntries, .sysIntSrc]) s x := by
         dsimp -zeta only [x]
         repeat' first
           | with_reducible assumption
           | with_reducible apply Within.refl
           | ((with_reducible apply Within.after (State.pmShow_within ..)); (case hle => decide))
           | ((with_reducible apply Within.after (State.pmAlarm_within ..)); (case hle => decide))
           | ((with_reducible apply Within.after (State.setPmEnt_within ..)); (case hle => decide))
           | with_reducible apply Within.ite
           | split
           | dsimp -zeta only
           | dsimp +zetaDelta only
       clear_value x)
    | intro x
    | lift_lets
    | with_reducible apply Within.ite
    | split
    | dsimp -zeta only
    | dsimp +zetaDelta only

theorem State.pmTick_within (s : State) :
    Within (.of [.links, .act, .latch, .irqs, .log, .pm, .events, .bus] [.busStatus, .busGrants, .pmLinkState, .pmGroupState, .pmMateState, .logState, .logEvbEntries, .logDropped, .logEvbLost, .logEntries, .sysIntSrc]) s (State.pmTick s) := by
  delta State.pmTick
  repeat' first
    | with_reducible assumption
    | with_reducible apply Within.refl
    | ((with_reducible apply Within.eachN); (case' hg => intro _ _ _))
    | ((with_reducible apply Within.after (State.pmTickEnt_within ..)); (case hle => decide))
    | ((with_reducible apply Within.after (State.setRx_within ..)); (case hle => decide))
    | (intro x
       have hx : Within (.of [.links, .act, .latch, .irqs, .log, .pm, .events, .bus] [.busStatus, .busGrants, .pmLinkState, .pmGroupState, .pmMateState, .logState, .logEvbEntries, .logDropped, .logEvbLost, .logEntries, .sysIntSrc]) s x := by
         dsimp -zeta only [x]
         repeat' first
           | with_reducible assumption
           | with_reducible apply Within.refl
           | ((with_reducible apply Within.eachN); (case' hg => intro _ _ _))
           | ((with_reducible apply Within.after (State.pmTickEnt_within ..)); (case hle => decide))
           | ((with_reducible apply Within.after (State.setRx_within ..)); (case hle => decide))
           | with_reducible apply Within.ite
           | split
           | dsimp -zeta only
           | dsimp +zetaDelta only
       clear_value x)
    | intro x
    | lift_lets
    | with_reducible apply Within.ite
    | split
    | dsimp -zeta only
    | dsimp +zetaDelta only

theorem State.pmFinal_within (s : State) (e : Nat) (c : Nat) :
    Within (.of [] [.pmEs, .pmSes, .pmUas, .pmFeEs, .pmFeSes, .pmFeUas, .pmGroupEs, .pmGroupSes, .pmGroupUas, .pmMateEs, .pmMateSes, .pmMateUas]) s (State.pmFinal s e c) := by
  unfold State.pmFinal
  have key : ∀ (es ses uas : Reg) (i : Nat), (Foot.of [] [.pmEs, .pmSes, .pmUas, .pmFeEs, .pmFeSes, .pmFeUas, .pmGroupEs, .pmGroupSes, .pmGroupUas, .pmMateEs, .pmMateSes, .pmMateUas]).hasReg es = true → (Foot.of [] [.pmEs, .pmSes, .pmUas, .pmFeEs, .pmFeSes, .pmFeUas, .pmGroupEs, .pmGroupSes, .pmGroupUas, .pmMateEs, .pmMateSes, .pmMateUas]).hasReg ses = true → (Foot.of [] [.pmEs, .pmSes, .pmUas, .pmFeEs, .pmFeSes, .pmFeUas, .pmGroupEs, .pmGroupSes, .pmGroupUas, .pmMateEs, .pmMateSes, .pmMateUas]).hasReg uas = true →
      Within (Foot.of [] [.pmEs, .pmSes, .pmUas, .pmFeEs, .pmFeSes, .pmFeUas, .pmGroupEs, .pmGroupSes, .pmGroupUas, .pmMateEs, .pmMateSes, .pmMateUas]) s (if c % 8 = 4 then s else if 8 ≤ c then s.count uas i
        else if c = 2 then (s.count es i).count ses i else if c = 1 then s.count es i else s) := by
    intro es ses uas i h1 h2 h3
    have h := Within.refl (Foot.of [] [.pmEs, .pmSes, .pmUas, .pmFeEs, .pmFeSes, .pmFeUas, .pmGroupEs, .pmGroupSes, .pmGroupUas, .pmMateEs, .pmMateSes, .pmMateUas]) s
    exact h.ite (.ite (h.count _ _ h3) (.ite ((h.count _ _ h1).count _ _ h2) (.ite (h.count _ _ h1) h)))
  split
  rename_i e1
  refine key _ _ _ _ ?_ ?_ ?_ <;> (repeat' split at e1) <;> cases e1 <;> decide

theorem State.pmRelease_within (s : State) (e : Nat) (keep : Nat) :
    Within (.of [.pm] [.pmEs, .pmSes, .pmUas, .pmFeEs, .pmFeSes, .pmFeUas, .pmGroupEs, .pmGroupSes, .pmGroupUas, .pmMateEs, .pmMateSes, .pmMateUas]) s (State.pmRelease s e keep) := by
  delta State.pmRelease
  repeat' first
    | with_reducible assumption
    | with_reducible apply Within.refl
    | ((with_reducible apply Within.each); (case' hg => intro _ _ _))
    | ((with_reducible apply Within.after (State.setPmEnt_within ..)); (case hle => decide))
    | ((with_reducible apply Within.after (State.pmFinal_within ..)); (case hle => decide))
    | (intro x
       have hx : Within (.of [.pm] [.pmEs, .pmSes, .pmUas, .pmFeEs, .pmFeSes, .pmFeUas, .pmGroupEs, .pmGroupSes, .pmGroupUas, .pmMateEs, .pmMateSes, .pmMateUas]) s x := by
         dsimp -zeta only [x]
         repeat' first
           | with_reducible assumption
           | with_reducible apply Within.refl
           | ((with_reducible apply Within.each); (case' hg => intro _ _ _))
           | ((with_reducible apply Within.after (State.setPmEnt_within ..)); (case hle => decide))
           | ((with_reducible apply Within.after (State.pmFinal_within ..)); (case hle => decide))
           | with_reducible apply Within.ite
           | split
           | dsimp -zeta only
           | dsimp +zetaDelta only
       clear_value x)
    | intro x
    | lift_lets
    | with_reducible apply Within.ite
    | split
    | dsimp -zeta only
    | dsimp +zetaDelta only

theorem State.pmCountFinal_within (s : State) (n : Nat) :
    Within (.of [.irqs] [.pmSeconds, .sysIntSrc]) s (State.pmCountFinal s n) := by
  delta State.pmCountFinal
  repeat' first
    | with_reducible assumption
    | with_reducible apply Within.refl
    | ((with_reducible apply Within.countBy); (case hr => first | decide | exact Foot.allRegs_hasReg _ _ | exact Foot.all_hasReg _ | (subst_vars; decide) | ((try dsimp +zetaDelta only); split <;> first | decide | (split <;> first | decide | (split <;> decide)))))
    | ((with_reducible apply Within.after (State.irqSync_within ..)); (case hle => decide))
    | ((with_reducible apply Within.after (State.setSrc_within ..)); (case hle => decide))
    | with_reducible apply Within.ite
    | split
    | dsimp -zeta only

theorem State.pmCloseEnt_within (s : State) (n : Nat) (e : Nat) :
    Within (.of [.act, .latch, .irqs, .log, .pm, .events, .bus] [.busStatus, .busGrants, .pmLinkState, .pmGroupState, .pmMateState, .pmEs, .pmSes, .pmUas, .pmFeEs, .pmFeSes, .pmFeUas, .pmGroupEs, .pmGroupSes, .pmGroupUas, .pmMateEs, .pmMateSes, .pmMateUas, .logState, .logEvbEntries, .logDropped, .logEvbLost, .logEntries, .sysIntSrc]) s (State.pmCloseEnt s n e) := by
  delta State.pmCloseEnt
  repeat' first
    | with_reducible assumption
    | with_reducible apply Within.refl
    | ((with_reducible apply Within.after (State.pmShow_within ..)); (case hle => decide))
    | ((with_reducible apply Within.after (State.setPmEnt_within ..)); (case hle => decide))
    | ((with_reducible apply Within.after (State.pmRelease_within ..)); (case hle => decide))
    | ((with_reducible apply Within.after (State.pmAlarm_within ..)); (case hle => decide))
    | (intro x
       have hx : Within (.of [.act, .latch, .irqs, .log, .pm, .events, .bus] [.busStatus, .busGrants, .pmLinkState, .pmGroupState, .pmMateState, .pmEs, .pmSes, .pmUas, .pmFeEs, .pmFeSes, .pmFeUas, .pmGroupEs, .pmGroupSes, .pmGroupUas, .pmMateEs, .pmMateSes, .pmMateUas, .logState, .logEvbEntries, .logDropped, .logEvbLost, .logEntries, .sysIntSrc]) s x := by
         dsimp -zeta only [x]
         repeat' first
           | with_reducible assumption
           | with_reducible apply Within.refl
           | ((with_reducible apply Within.after (State.pmShow_within ..)); (case hle => decide))
           | ((with_reducible apply Within.after (State.setPmEnt_within ..)); (case hle => decide))
           | ((with_reducible apply Within.after (State.pmRelease_within ..)); (case hle => decide))
           | ((with_reducible apply Within.after (State.pmAlarm_within ..)); (case hle => decide))
           | with_reducible apply Within.ite
           | split
           | dsimp -zeta only
           | dsimp +zetaDelta only
       clear_value x)
    | intro x
    | lift_lets
    | with_reducible apply Within.ite
    | split
    | dsimp -zeta only
    | dsimp +zetaDelta only

theorem State.totalsSecond_within (s : State) :
    Within (.of [.log] []) s (State.totalsSecond s) := by
  delta State.totalsSecond
  repeat' first
    | with_reducible assumption
    | with_reducible apply Within.refl
    | (intro x
       have hx : Within (.of [.log] []) s x := by
         dsimp -zeta only [x]
         repeat' first
           | with_reducible assumption
           | with_reducible apply Within.refl
           | with_reducible apply Within.ite
           | split
           | dsimp -zeta only
           | dsimp +zetaDelta only
           | ((with_reducible apply Within.set_log); (case hc => decide))
       clear_value x)
    | intro x
    | lift_lets
    | with_reducible apply Within.ite
    | split
    | dsimp -zeta only
    | dsimp +zetaDelta only
    | ((with_reducible apply Within.set_log); (case hc => decide))

theorem State.bwLatch_within (s : State) :
    Within (.of [.irqs, .pm] [.pmBwLast, .pmBwLinkIn, .pmBwLinkOut, .pmBwHostWr, .pmBwHostRd, .pmBwHostReq, .pmBwHbmWr, .pmBwHbmRd, .pmBwHbmPeak, .pmBwBusBeats, .pmBwBusWait, .sysIntSrc]) s (State.bwLatch s) := by
  unfold State.bwLatch
  have hm : ∀ x ∈ meterRegs, (Foot.of [.irqs, .pm] [.pmBwLast, .pmBwLinkIn, .pmBwLinkOut, .pmBwHostWr, .pmBwHostRd, .pmBwHostReq, .pmBwHbmWr, .pmBwHbmRd, .pmBwHbmPeak, .pmBwBusBeats, .pmBwBusWait, .sysIntSrc]).hasReg x.1 = true := by decide
  have h := Within.each_mem (f := Foot.of [.irqs, .pm] [.pmBwLast, .pmBwLinkIn, .pmBwLinkOut, .pmBwHostWr, .pmBwHostRd, .pmBwHostReq, .pmBwHbmWr, .pmBwHbmRd, .pmBwHbmPeak, .pmBwBusBeats, .pmBwBusWait, .sysIntSrc]) meterRegs (fun x s => s.each x.2 fun i s =>
    s.setWord x.1 i (BitVec.ofNat 64 (Tbl.get 0 s.pm.meters (meterKey x.1 i) % 2 ^ 48))) (.refl _ s)
    fun a ha y hy => hy.each _ _ fun _ _ hz => hz.setWord _ _ _ (hm a ha)
  generalize s.each meterRegs _ = x at h ⊢
  repeat' first
    | with_reducible assumption
    | with_reducible apply Within.refl
    | ((with_reducible apply Within.setWord); (case hr => first | decide | exact Foot.allRegs_hasReg _ _ | exact Foot.all_hasReg _ | (subst_vars; decide) | ((try dsimp +zetaDelta only); split <;> first | decide | (split <;> first | decide | (split <;> decide)))))
    | ((with_reducible apply Within.wr); (case hr => first | decide | exact Foot.allRegs_hasReg _ _ | exact Foot.all_hasReg _ | (subst_vars; decide) | ((try dsimp +zetaDelta only); split <;> first | decide | (split <;> first | decide | (split <;> decide)))))
    | ((with_reducible apply Within.each); (case' hg => intro _ _ _))
    | ((with_reducible apply Within.after (State.irqSync_within ..)); (case hle => decide))
    | ((with_reducible apply Within.after (State.setSrc_within ..)); (case hle => decide))
    | (intro x
       have hx : Within (.of [.irqs, .pm] [.pmBwLast, .pmBwLinkIn, .pmBwLinkOut, .pmBwHostWr, .pmBwHostRd, .pmBwHostReq, .pmBwHbmWr, .pmBwHbmRd, .pmBwHbmPeak, .pmBwBusBeats, .pmBwBusWait, .sysIntSrc]) s x := by
         dsimp -zeta only [x]
         repeat' first
           | with_reducible assumption
           | with_reducible apply Within.refl
           | ((with_reducible apply Within.setWord); (case hr => first | decide | exact Foot.allRegs_hasReg _ _ | exact Foot.all_hasReg _ | (subst_vars; decide) | ((try dsimp +zetaDelta only); split <;> first | decide | (split <;> first | decide | (split <;> decide)))))
           | ((with_reducible apply Within.wr); (case hr => first | decide | exact Foot.allRegs_hasReg _ _ | exact Foot.all_hasReg _ | (subst_vars; decide) | ((try dsimp +zetaDelta only); split <;> first | decide | (split <;> first | decide | (split <;> decide)))))
           | ((with_reducible apply Within.each); (case' hg => intro _ _ _))
           | ((with_reducible apply Within.after (State.irqSync_within ..)); (case hle => decide))
           | ((with_reducible apply Within.after (State.setSrc_within ..)); (case hle => decide))
           | with_reducible apply Within.ite
           | ((with_reducible apply Within.set_pm); (case hc => decide))
           | split
           | dsimp -zeta only
           | dsimp +zetaDelta only
       clear_value x)
    | intro x
    | lift_lets
    | with_reducible apply Within.ite
    | ((with_reducible apply Within.set_pm); (case hc => decide))
    | split
    | dsimp -zeta only
    | dsimp +zetaDelta only

theorem State.bwCfg_within (s : State) (m : Master) (w : Nat) :
    Within (.of [.irqs, .pm] [.busErrLast, .busErrResp, .busDefault, .pmBwCfg, .sysIntSrc]) s (State.bwCfg s m w) := by
  delta State.bwCfg
  repeat' first
    | with_reducible assumption
    | with_reducible apply Within.refl
    | ((with_reducible apply Within.wr); (case hr => first | decide | exact Foot.allRegs_hasReg _ _ | exact Foot.all_hasReg _ | (subst_vars; decide) | ((try dsimp +zetaDelta only); split <;> first | decide | (split <;> first | decide | (split <;> decide)))))
    | ((with_reducible apply Within.after (State.errResp_within ..)); (case hle => decide))
    | with_reducible apply Within.ite
    | ((with_reducible apply Within.set_pm); (case hc => decide))
    | split
    | dsimp -zeta only

theorem State.snapshot_within (s : State) (kind : Nat) :
    Within (.of [.pm] [.pmSnapshots, .pmSnapSkipped]) s (State.snapshot s kind) := by
  delta State.snapshot
  repeat' first
    | with_reducible assumption
    | with_reducible apply Within.refl
    | ((with_reducible apply Within.count); (case hr => first | decide | exact Foot.allRegs_hasReg _ _ | exact Foot.all_hasReg _ | (subst_vars; decide) | ((try dsimp +zetaDelta only); split <;> first | decide | (split <;> first | decide | (split <;> decide)))))
    | (intro x
       have hx : Within (.of [.pm] [.pmSnapshots, .pmSnapSkipped]) s x := by
         dsimp -zeta only [x]
         repeat' first
           | with_reducible assumption
           | with_reducible apply Within.refl
           | ((with_reducible apply Within.count); (case hr => first | decide | exact Foot.allRegs_hasReg _ _ | exact Foot.all_hasReg _ | (subst_vars; decide) | ((try dsimp +zetaDelta only); split <;> first | decide | (split <;> first | decide | (split <;> decide)))))
           | with_reducible apply Within.ite
           | split
           | dsimp -zeta only
           | dsimp +zetaDelta only
           | ((with_reducible apply Within.set_pm); (case hc => decide))
       clear_value x)
    | intro x
    | lift_lets
    | with_reducible apply Within.ite
    | split
    | dsimp -zeta only
    | dsimp +zetaDelta only
    | ((with_reducible apply Within.set_pm); (case hc => decide))

theorem State.snapStore_within (s : State) (seq : Nat) (bs : List Byte) :
    Within (.of [.pm, .events, .hbm] []) s (State.snapStore s seq bs) := by
  delta State.snapStore
  repeat' first
    | with_reducible assumption
    | with_reducible apply Within.refl
    | ((with_reducible apply Within.after (State.meter_within ..)); (case hle => decide))
    | (intro x
       have hx : Within (.of [.pm, .events, .hbm] []) s x := by
         dsimp -zeta only [x]
         repeat' first
           | with_reducible assumption
           | with_reducible apply Within.refl
           | ((with_reducible apply Within.after (State.meter_within ..)); (case hle => decide))
           | with_reducible apply Within.ite
           | ((with_reducible apply Within.set_hbm_any); (case hh => decide); (case he => decide); (case hw => first | exact memWrite_wf _ _ _ | exact hbmPut_wf _ _ _ | exact fun h => Tbl.wf_set (d := (0 : Byte)) _ _ h | exact fun h => Tbl.wf_filter (d := (0 : Byte)) _ h))
           | split
           | dsimp -zeta only
           | dsimp +zetaDelta only
       clear_value x)
    | intro x
    | lift_lets
    | with_reducible apply Within.ite
    | ((with_reducible apply Within.set_hbm_any); (case hh => decide); (case he => decide); (case hw => first | exact memWrite_wf _ _ _ | exact hbmPut_wf _ _ _ | exact fun h => Tbl.wf_set (d := (0 : Byte)) _ _ h | exact fun h => Tbl.wf_filter (d := (0 : Byte)) _ h))
    | split
    | dsimp -zeta only
    | dsimp +zetaDelta only

theorem State.pmEdge_within (s : State) :
    Within (.of [.pm] [.pmSnapshots, .pmSnapSkipped]) s (State.pmEdge s) := by
  delta State.pmEdge
  repeat' first
    | with_reducible assumption
    | with_reducible apply Within.refl
    | ((with_reducible apply Within.after (State.snapshot_within ..)); (case hle => decide))
    | (intro x
       have hx : Within (.of [.pm] [.pmSnapshots, .pmSnapSkipped]) s x := by
         dsimp -zeta only [x]
         repeat' first
           | with_reducible assumption
           | with_reducible apply Within.refl
           | ((with_reducible apply Within.after (State.snapshot_within ..)); (case hle => decide))
           | with_reducible apply Within.ite
           | ((with_reducible apply Within.set_pm); (case hc => decide))
           | split
           | dsimp -zeta only
           | dsimp +zetaDelta only
       clear_value x)
    | intro x
    | lift_lets
    | with_reducible apply Within.ite
    | ((with_reducible apply Within.set_pm); (case hc => decide))
    | split
    | dsimp -zeta only
    | dsimp +zetaDelta only

theorem State.pmRenumberEnt_within (s : State) (e : Nat) :
    Within (.of [.pm] [.pmLinkState, .pmGroupState, .pmMateState, .pmEs, .pmSes, .pmUas, .pmFeEs, .pmFeSes, .pmFeUas, .pmGroupEs, .pmGroupSes, .pmGroupUas, .pmMateEs, .pmMateSes, .pmMateUas]) s (State.pmRenumberEnt s e) := by
  delta State.pmRenumberEnt
  repeat' first
    | with_reducible assumption
    | with_reducible apply Within.refl
    | ((with_reducible apply Within.after (State.pmRelease_within ..)); (case hle => decide))
    | ((with_reducible apply Within.after (State.pmShow_within ..)); (case hle => decide))
    | ((with_reducible apply Within.after (State.setPmEnt_within ..)); (case hle => decide))
    | (intro x
       have hx : Within (.of [.pm] [.pmLinkState, .pmGroupState, .pmMateState, .pmEs, .pmSes, .pmUas, .pmFeEs, .pmFeSes, .pmFeUas, .pmGroupEs, .pmGroupSes, .pmGroupUas, .pmMateEs, .pmMateSes, .pmMateUas]) s x := by
         dsimp -zeta only [x]
         repeat' first
           | with_reducible assumption
           | with_reducible apply Within.refl
           | ((with_reducible apply Within.after (State.pmRelease_within ..)); (case hle => decide))
           | ((with_reducible apply Within.after (State.pmShow_within ..)); (case hle => decide))
           | ((with_reducible apply Within.after (State.setPmEnt_within ..)); (case hle => decide))
           | with_reducible apply Within.ite
           | split
           | dsimp -zeta only
           | dsimp +zetaDelta only
       clear_value x)
    | intro x
    | lift_lets
    | with_reducible apply Within.ite
    | split
    | dsimp -zeta only
    | dsimp +zetaDelta only

theorem State.pmRenumber_within (s : State) :
    Within (.of [.irqs, .pm] [.pmBwLast, .pmLinkState, .pmGroupState, .pmMateState, .pmBwLinkIn, .pmBwLinkOut, .pmBwHostWr, .pmBwHostRd, .pmBwHostReq, .pmBwHbmWr, .pmBwHbmRd, .pmBwHbmPeak, .pmBwBusBeats, .pmBwBusWait, .pmSeconds, .pmSecondsCut, .pmEs, .pmSes, .pmUas, .pmFeEs, .pmFeSes, .pmFeUas, .pmGroupEs, .pmGroupSes, .pmGroupUas, .pmMateEs, .pmMateSes, .pmMateUas, .sysIntSrc]) s (State.pmRenumber s) := by
  delta State.pmRenumber
  repeat' first
    | with_reducible assumption
    | with_reducible apply Within.refl
    | ((with_reducible apply Within.count); (case hr => first | decide | exact Foot.allRegs_hasReg _ _ | exact Foot.all_hasReg _ | (subst_vars; decide) | ((try dsimp +zetaDelta only); split <;> first | decide | (split <;> first | decide | (split <;> decide)))))
    | ((with_reducible apply Within.when); (case' hg => intro _ _))
    | ((with_reducible apply Within.eachN); (case' hg => intro _ _ _))
    | ((with_reducible apply Within.after (State.pmRenumberEnt_within ..)); (case hle => decide))
    | ((with_reducible apply Within.after (State.pmCountFinal_within ..)); (case hle => decide))
    | ((with_reducible apply Within.after (State.bwLatch_within ..)); (case hle => decide))
    | (intro x
       have hx : Within (.of [.irqs, .pm] [.pmBwLast, .pmLinkState, .pmGroupState, .pmMateState, .pmBwLinkIn, .pmBwLinkOut, .pmBwHostWr, .pmBwHostRd, .pmBwHostReq, .pmBwHbmWr, .pmBwHbmRd, .pmBwHbmPeak, .pmBwBusBeats, .pmBwBusWait, .pmSeconds, .pmSecondsCut, .pmEs, .pmSes, .pmUas, .pmFeEs, .pmFeSes, .pmFeUas, .pmGroupEs, .pmGroupSes, .pmGroupUas, .pmMateEs, .pmMateSes, .pmMateUas, .sysIntSrc]) s x := by
         dsimp -zeta only [x]
         repeat' first
           | with_reducible assumption
           | with_reducible apply Within.refl
           | ((with_reducible apply Within.count); (case hr => first | decide | exact Foot.allRegs_hasReg _ _ | exact Foot.all_hasReg _ | (subst_vars; decide) | ((try dsimp +zetaDelta only); split <;> first | decide | (split <;> first | decide | (split <;> decide)))))
           | ((with_reducible apply Within.when); (case' hg => intro _ _))
           | ((with_reducible apply Within.eachN); (case' hg => intro _ _ _))
           | ((with_reducible apply Within.after (State.pmRenumberEnt_within ..)); (case hle => decide))
           | ((with_reducible apply Within.after (State.pmCountFinal_within ..)); (case hle => decide))
           | ((with_reducible apply Within.after (State.bwLatch_within ..)); (case hle => decide))
           | with_reducible apply Within.ite
           | ((with_reducible apply Within.set_pm); (case hc => decide))
           | split
           | dsimp -zeta only
           | dsimp +zetaDelta only
       clear_value x)
    | intro x
    | lift_lets
    | with_reducible apply Within.ite
    | ((with_reducible apply Within.set_pm); (case hc => decide))
    | split
    | dsimp -zeta only
    | dsimp +zetaDelta only

theorem execPmSecondEnd_within (s : State) (s' : State)
    (h : execPmSecondEnd s = .next s') :
    Within (.of [.act, .latch, .irqs, .log, .pm, .events, .bus] [.busStatus, .busGrants, .pmLinkState, .pmGroupState, .pmMateState, .pmSeconds, .pmEs, .pmSes, .pmUas, .pmFeEs, .pmFeSes, .pmFeUas, .pmGroupEs, .pmGroupSes, .pmGroupUas, .pmMateEs, .pmMateSes, .pmMateUas, .logState, .logEvbEntries, .logDropped, .logEvbLost, .logEntries, .sysIntSrc]) s s' := by
  delta execPmSecondEnd at h
  injection h with h
  subst h
  repeat' first
    | with_reducible assumption
    | with_reducible apply Within.refl
    | ((with_reducible apply Within.when); (case' hg => intro _ _))
    | ((with_reducible apply Within.eachN); (case' hg => intro _ _ _))
    | ((with_reducible apply Within.after (State.pmCloseEnt_within ..)); (case hle => decide))
    | ((with_reducible apply Within.after (State.totalsSecond_within ..)); (case hle => decide))
    | ((with_reducible apply Within.after (State.pmCountFinal_within ..)); (case hle => decide))
    | (intro x
       have hx : Within (.of [.act, .latch, .irqs, .log, .pm, .events, .bus] [.busStatus, .busGrants, .pmLinkState, .pmGroupState, .pmMateState, .pmSeconds, .pmEs, .pmSes, .pmUas, .pmFeEs, .pmFeSes, .pmFeUas, .pmGroupEs, .pmGroupSes, .pmGroupUas, .pmMateEs, .pmMateSes, .pmMateUas, .logState, .logEvbEntries, .logDropped, .logEvbLost, .logEntries, .sysIntSrc]) s x := by
         dsimp -zeta only [x]
         repeat' first
           | with_reducible assumption
           | with_reducible apply Within.refl
           | ((with_reducible apply Within.when); (case' hg => intro _ _))
           | ((with_reducible apply Within.eachN); (case' hg => intro _ _ _))
           | ((with_reducible apply Within.after (State.pmCloseEnt_within ..)); (case hle => decide))
           | ((with_reducible apply Within.after (State.totalsSecond_within ..)); (case hle => decide))
           | ((with_reducible apply Within.after (State.pmCountFinal_within ..)); (case hle => decide))
           | with_reducible apply Within.ite
           | split
           | dsimp -zeta only
           | dsimp +zetaDelta only
           | ((with_reducible apply Within.set_pm); (case hc => decide))
       clear_value x)
    | intro x
    | lift_lets
    | with_reducible apply Within.ite
    | split
    | dsimp -zeta only
    | dsimp +zetaDelta only
    | ((with_reducible apply Within.set_pm); (case hc => decide))

theorem execBwWindowEnd_within (s : State) (s' : State)
    (h : execBwWindowEnd s = .next s') :
    Within (.of [.irqs, .pm] [.pmBwLast, .pmBwLinkIn, .pmBwLinkOut, .pmBwHostWr, .pmBwHostRd, .pmBwHostReq, .pmBwHbmWr, .pmBwHbmRd, .pmBwHbmPeak, .pmBwBusBeats, .pmBwBusWait, .sysIntSrc]) s s' := by
  delta execBwWindowEnd at h
  injection h with h
  subst h
  repeat' first
    | with_reducible assumption
    | with_reducible apply Within.refl
    | ((with_reducible apply Within.when); (case' hg => intro _ _))
    | ((with_reducible apply Within.after (State.bwLatch_within ..)); (case hle => decide))
    | with_reducible apply Within.ite
    | split
    | dsimp -zeta only

theorem execPmBwCfgWrite_within (m : Master) (w : BitVec 16) (s : State) (s' : State)
    (h : execPmBwCfgWrite m w s = .next s') :
    Within (.of [.irqs, .pm, .bus] [.busErrLast, .busErrResp, .busDefault, .busSplits, .busGrants, .pmBwCfg, .sysIntSrc]) s s' := by
  delta execPmBwCfgWrite at h
  injection h with h
  subst h
  repeat' first
    | with_reducible assumption
    | with_reducible apply Within.refl
    | ((with_reducible apply Within.byReg); (case hp => decide); (case hm => decide); (case he => decide); (case' hg => intro _ _))
    | ((with_reducible apply Within.after (State.bwCfg_within ..)); (case hle => decide))
    | with_reducible apply Within.ite
    | split
    | dsimp -zeta only

theorem execSnapshotAuto_within (s : State) (s' : State)
    (h : execSnapshotAuto s = .next s') :
    Within (.of [.pm] [.pmSnapshots, .pmSnapSkipped]) s s' := by
  delta execSnapshotAuto at h
  injection h with h
  subst h
  repeat' first
    | with_reducible assumption
    | with_reducible apply Within.refl
    | ((with_reducible apply Within.when); (case' hg => intro _ _))
    | ((with_reducible apply Within.after (State.snapshot_within ..)); (case hle => decide))
    | with_reducible apply Within.ite
    | split
    | dsimp -zeta only

theorem execPmSnap_within (m : Master) (s : State) (s' : State)
    (h : execPmSnap m s = .next s') :
    Within (.of [.irqs, .pm, .bus] [.busErrLast, .busErrResp, .busDefault, .busSplits, .busGrants, .sysIntSrc]) s s' := by
  delta execPmSnap at h
  injection h with h
  subst h
  repeat' first
    | with_reducible assumption
    | with_reducible apply Within.refl
    | ((with_reducible apply Within.byReg); (case hp => decide); (case hm => decide); (case he => decide); (case' hg => intro _ _))
    | with_reducible apply Within.ite
    | ((with_reducible apply Within.set_pm); (case hc => decide))
    | split
    | dsimp -zeta only

theorem execSnapshotArmedTick_within (s : State) (s' : State)
    (h : execSnapshotArmedTick s = .next s') :
    Within (.of [.pm] [.pmCtrl, .pmSnapshots, .pmSnapSkipped]) s s' := by
  delta execSnapshotArmedTick at h
  injection h with h
  subst h
  repeat' first
    | with_reducible assumption
    | with_reducible apply Within.refl
    | ((with_reducible apply Within.setFlag); (case hr => first | decide | exact Foot.allRegs_hasReg _ _ | exact Foot.all_hasReg _ | (subst_vars; decide) | ((try dsimp +zetaDelta only); split <;> first | decide | (split <;> first | decide | (split <;> decide)))))
    | ((with_reducible apply Within.when); (case' hg => intro _ _))
    | ((with_reducible apply Within.after (State.snapshot_within ..)); (case hle => decide))
    | with_reducible apply Within.ite
    | split
    | dsimp -zeta only

theorem execSnapshotWritten_within (s : State) (s' : State)
    (h : execSnapshotWritten s = .next s') :
    Within (.of [.irqs, .pm, .events, .hbm] [.pmSnapStatus, .sysIntSrc]) s s' := by
  delta execSnapshotWritten at h
  injection h with h
  subst h
  repeat' first
    | with_reducible assumption
    | with_reducible apply Within.refl
    | ((with_reducible apply Within.wr); (case hr => first | decide | exact Foot.allRegs_hasReg _ _ | exact Foot.all_hasReg _ | (subst_vars; decide) | ((try dsimp +zetaDelta only); split <;> first | decide | (split <;> first | decide | (split <;> decide)))))
    | ((with_reducible apply Within.after (State.snapStore_within ..)); (case hle => decide))
    | ((with_reducible apply Within.after (State.irqSync_within ..)); (case hle => decide))
    | ((with_reducible apply Within.after (State.setSrc_within ..)); (case hle => decide))
    | (intro x
       have hx : Within (.of [.irqs, .pm, .events, .hbm] [.pmSnapStatus, .sysIntSrc]) s x := by
         dsimp -zeta only [x]
         repeat' first
           | with_reducible assumption
           | with_reducible apply Within.refl
           | ((with_reducible apply Within.wr); (case hr => first | decide | exact Foot.allRegs_hasReg _ _ | exact Foot.all_hasReg _ | (subst_vars; decide) | ((try dsimp +zetaDelta only); split <;> first | decide | (split <;> first | decide | (split <;> decide)))))
           | ((with_reducible apply Within.after (State.snapStore_within ..)); (case hle => decide))
           | ((with_reducible apply Within.after (State.irqSync_within ..)); (case hle => decide))
           | ((with_reducible apply Within.after (State.setSrc_within ..)); (case hle => decide))
           | with_reducible apply Within.ite
           | split
           | dsimp -zeta only
           | dsimp +zetaDelta only
           | ((with_reducible apply Within.set_pm); (case hc => decide))
       clear_value x)
    | intro x
    | lift_lets
    | with_reducible apply Within.ite
    | split
    | dsimp -zeta only
    | dsimp +zetaDelta only
    | ((with_reducible apply Within.set_pm); (case hc => decide))

end Sys2Proof.Machine
end

