-- ==== Sys2Proof/Laws/Footprint/Ecc.lean ====
section
/-! SUPPORT. What each operation of Machine/Ecc.lean may touch. -/

namespace Sys2Proof.Machine

theorem State.readAt_within (s : State) (a1 : Nat) :
    Within (.of [.free, .tick, .act, .latch, .irqs, .log, .pm, .events, .ecc, .bus] [.almState, .almStageFail, .eccStatus, .eccLastUe, .eccTrack, .eccCorr, .eccUe, .eccPoison, .eccTrackFull, .busStatus, .busGrants, .logState, .logEvbEntries, .logDropped, .logEvbLost, .logEntries, .sysIntSrc]) s (State.readAt s a1).2 := by
  delta State.readAt
  repeat' first
    | with_reducible assumption
    | with_reducible apply Within.refl
    | ((with_reducible apply Within.after (State.sramRead_within ..)); (case hle => decide))
    | ((with_reducible apply Within.after (Within.of_eq (State.sramRead_within ..) ?e)); (case e => assumption); (case hle => decide))
    | (intro x
       have hx : Within (.of [.free, .tick, .act, .latch, .irqs, .log, .pm, .events, .ecc, .bus] [.almState, .almStageFail, .eccStatus, .eccLastUe, .eccTrack, .eccCorr, .eccUe, .eccPoison, .eccTrackFull, .busStatus, .busGrants, .logState, .logEvbEntries, .logDropped, .logEvbLost, .logEntries, .sysIntSrc]) s x := by
         dsimp -zeta only [x]
         repeat' first
           | with_reducible assumption
           | with_reducible apply Within.refl
           | ((with_reducible apply Within.after (State.sramRead_within ..)); (case hle => decide))
           | ((with_reducible apply Within.after (Within.of_eq (State.sramRead_within ..) ?e)); (case e => assumption); (case hle => decide))
           | with_reducible apply Within.ite
           | split
           | dsimp -zeta only
           | dsimp +zetaDelta only
       clear_value x)
    | intro x
    | lift_lets
    | with_reducible apply Within.ite
    | split
    | dsimp -zeta only
    | dsimp +zetaDelta only

theorem State.heldPut_within (s : State) (a1 : Nat) (v : Nat) :
    Within (.of [.core, .bus] []) s (State.heldPut s a1 v) := by
  delta State.heldPut
  repeat' first
    | with_reducible assumption
    | with_reducible apply Within.refl
    | ((with_reducible apply Within.after (State.winPut_within ..)); (case hle => decide))
    | ((with_reducible apply Within.after (State.setUp_within ..)); (case hle => decide))
    | (intro x
       have hx : Within (.of [.core, .bus] []) s x := by
         dsimp -zeta only [x]
         repeat' first
           | with_reducible assumption
           | with_reducible apply Within.refl
           | ((with_reducible apply Within.after (State.winPut_within ..)); (case hle => decide))
           | ((with_reducible apply Within.after (State.setUp_within ..)); (case hle => decide))
           | with_reducible apply Within.ite
           | split
           | dsimp -zeta only
           | dsimp +zetaDelta only
           | ((with_reducible apply Within.set_core); (case hc => decide))
           | ((with_reducible apply Within.set_bus); (case hc => decide))
       clear_value x)
    | intro x
    | lift_lets
    | with_reducible apply Within.ite
    | split
    | dsimp -zeta only
    | dsimp +zetaDelta only
    | ((with_reducible apply Within.set_core); (case hc => decide))
    | ((with_reducible apply Within.set_bus); (case hc => decide))

theorem State.storeBack_within (s : State) (a1 : Nat) (d : Nat) :
    Within (.of [.core, .ecc, .bus] []) s (State.storeBack s a1 d) := by
  delta State.storeBack
  repeat' first
    | with_reducible assumption
    | with_reducible apply Within.refl
    | ((with_reducible apply Within.after (State.freshWord_within ..)); (case hle => decide))
    | ((with_reducible apply Within.after (State.heldPut_within ..)); (case hle => decide))
    | with_reducible apply Within.ite
    | split
    | dsimp -zeta only

theorem State.scrubCycles_within (s : State) (a1 : Nat) (n : Nat) :
    Within (.of [.ecc] []) s (State.scrubCycles s a1 n) := by
  delta State.scrubCycles
  repeat' first
    | with_reducible assumption
    | with_reducible apply Within.refl
    | with_reducible apply Within.ite
    | ((with_reducible apply Within.set_ecc); (case hc => decide))
    | split
    | dsimp -zeta only

theorem State.scrubCount_within (s : State) :
    Within (.of [.ecc] [.coreResvScrub]) s (State.scrubCount s) := by
  delta State.scrubCount
  repeat' first
    | with_reducible assumption
    | with_reducible apply Within.refl
    | ((with_reducible apply Within.countBy); (case hr => first | decide | exact Foot.allRegs_hasReg _ _ | exact Foot.all_hasReg _ | (subst_vars; decide) | ((try dsimp +zetaDelta only); split <;> first | decide | (split <;> first | decide | (split <;> decide)))))
    | ((with_reducible apply Within.foldl_snd); (case' hg => intro _ _ _))
    | ((with_reducible apply Within.foldl); (case' hg => intro _ _ _))
    | (intro x
       have hx : Within (.of [.ecc] [.coreResvScrub]) s x := by
         dsimp -zeta only [x]
         repeat' first
           | with_reducible assumption
           | with_reducible apply Within.refl
           | ((with_reducible apply Within.countBy); (case hr => first | decide | exact Foot.allRegs_hasReg _ _ | exact Foot.all_hasReg _ | (subst_vars; decide) | ((try dsimp +zetaDelta only); split <;> first | decide | (split <;> first | decide | (split <;> decide)))))
           | ((with_reducible apply Within.foldl_snd); (case' hg => intro _ _ _))
           | ((with_reducible apply Within.foldl); (case' hg => intro _ _ _))
           | with_reducible apply Within.ite
           | ((with_reducible apply Within.set_ecc); (case hc => decide))
           | split
           | dsimp -zeta only
           | dsimp +zetaDelta only
       clear_value x)
    | intro x
    | lift_lets
    | with_reducible apply Within.ite
    | ((with_reducible apply Within.set_ecc); (case hc => decide))
    | split
    | dsimp -zeta only
    | dsimp +zetaDelta only

theorem State.restoreFail_within (s : State) (a1 : Nat) :
    Within (.of [.act, .latch, .irqs, .log, .pm, .events, .ecc, .bus] [.eccStatus, .busStatus, .busGrants, .logState, .logEvbEntries, .logDropped, .logEvbLost, .logEntries, .sysIntSrc]) s (State.restoreFail s a1) := by
  delta State.restoreFail
  repeat' first
    | with_reducible assumption
    | with_reducible apply Within.refl
    | ((with_reducible apply Within.setFlag); (case hr => first | decide | exact Foot.allRegs_hasReg _ _ | exact Foot.all_hasReg _ | (subst_vars; decide) | ((try dsimp +zetaDelta only); split <;> first | decide | (split <;> first | decide | (split <;> decide)))))
    | ((with_reducible apply Within.after (State.raise_within ..)); (case hle => decide))
    | (intro x
       have hx : Within (.of [.act, .latch, .irqs, .log, .pm, .events, .ecc, .bus] [.eccStatus, .busStatus, .busGrants, .logState, .logEvbEntries, .logDropped, .logEvbLost, .logEntries, .sysIntSrc]) s x := by
         dsimp -zeta only [x]
         repeat' first
           | with_reducible assumption
           | with_reducible apply Within.refl
           | ((with_reducible apply Within.setFlag); (case hr => first | decide | exact Foot.allRegs_hasReg _ _ | exact Foot.all_hasReg _ | (subst_vars; decide) | ((try dsimp +zetaDelta only); split <;> first | decide | (split <;> first | decide | (split <;> decide)))))
           | ((with_reducible apply Within.after (State.raise_within ..)); (case hle => decide))
           | with_reducible apply Within.ite
           | ((with_reducible apply Within.set_ecc); (case hc => decide))
           | split
           | dsimp -zeta only
           | dsimp +zetaDelta only
       clear_value x)
    | intro x
    | lift_lets
    | with_reducible apply Within.ite
    | ((with_reducible apply Within.set_ecc); (case hc => decide))
    | split
    | dsimp -zeta only
    | dsimp +zetaDelta only

theorem State.restoreDone_within (s : State) (a1 : Nat) :
    Within (.of [.act, .irqs, .log, .pm, .events, .ecc, .bus] [.eccStatus, .eccTrack, .eccRestores, .busStatus, .busGrants, .logState, .logEvbEntries, .logDropped, .logEvbLost, .logEntries, .sysIntSrc]) s (State.restoreDone s a1) := by
  delta State.restoreDone
  repeat' first
    | with_reducible assumption
    | with_reducible apply Within.refl
    | ((with_reducible apply Within.count); (case hr => first | decide | exact Foot.allRegs_hasReg _ _ | exact Foot.all_hasReg _ | (subst_vars; decide) | ((try dsimp +zetaDelta only); split <;> first | decide | (split <;> first | decide | (split <;> decide)))))
    | ((with_reducible apply Within.after (State.fullWrite_within ..)); (case hle => decide))
    | (intro x
       have hx : Within (.of [.act, .irqs, .log, .pm, .events, .ecc, .bus] [.eccStatus, .eccTrack, .eccRestores, .busStatus, .busGrants, .logState, .logEvbEntries, .logDropped, .logEvbLost, .logEntries, .sysIntSrc]) s x := by
         dsimp -zeta only [x]
         repeat' first
           | with_reducible assumption
           | with_reducible apply Within.refl
           | ((with_reducible apply Within.count); (case hr => first | decide | exact Foot.allRegs_hasReg _ _ | exact Foot.all_hasReg _ | (subst_vars; decide) | ((try dsimp +zetaDelta only); split <;> first | decide | (split <;> first | decide | (split <;> decide)))))
           | ((with_reducible apply Within.after (State.fullWrite_within ..)); (case hle => decide))
           | with_reducible apply Within.ite
           | ((with_reducible apply Within.set_ecc); (case hc => decide))
           | split
           | dsimp -zeta only
           | dsimp +zetaDelta only
       clear_value x)
    | intro x
    | lift_lets
    | with_reducible apply Within.ite
    | ((with_reducible apply Within.set_ecc); (case hc => decide))
    | split
    | dsimp -zeta only
    | dsimp +zetaDelta only

theorem State.trimLost_within (s : State) :
    Within (.of [.act, .latch, .irqs, .log, .pm, .events, .bus] [.eccStatus, .busStatus, .busGrants, .logState, .logEvbEntries, .logDropped, .logEvbLost, .logEntries, .sysIntSrc]) s (State.trimLost s) := by
  delta State.trimLost
  repeat' first
    | with_reducible assumption
    | with_reducible apply Within.refl
    | ((with_reducible apply Within.setFlag); (case hr => first | decide | exact Foot.allRegs_hasReg _ _ | exact Foot.all_hasReg _ | (subst_vars; decide) | ((try dsimp +zetaDelta only); split <;> first | decide | (split <;> first | decide | (split <;> decide)))))
    | ((with_reducible apply Within.after (State.raise_within ..)); (case hle => decide))
    | with_reducible apply Within.ite
    | split
    | dsimp -zeta only

theorem State.restoreTerm_within (s : State) (a1 : Nat) (i : Nat) (v : Nat) (c : Nat) :
    Within (.of [.free, .tick, .core, .act, .latch, .irqs, .log, .pm, .events, .ecc, .bus] [.almState, .almStageFail, .eccStatus, .eccLastUe, .eccTrack, .eccCorr, .eccUe, .eccPoison, .eccTrackFull, .eccRestores, .busStatus, .busGrants, .logState, .logEvbEntries, .logDropped, .logEvbLost, .logEntries, .sysIntSrc]) s (State.restoreTerm s a1 i v c) := by
  delta State.restoreTerm
  repeat' first
    | with_reducible assumption
    | with_reducible apply Within.refl
    | ((with_reducible apply Within.each); (case' hg => intro _ _ _))
    | ((with_reducible apply Within.after (State.restoreDone_within ..)); (case hle => decide))
    | ((with_reducible apply Within.after (State.winPut_within ..)); (case hle => decide))
    | ((with_reducible apply Within.after (State.trimLost_within ..)); (case hle => decide))
    | ((with_reducible apply Within.after (State.gainWrite_within ..)); (case hle => decide))
    | ((with_reducible apply Within.after (Within.of_eq (State.gainWrite_within ..) ?e)); (case e => assumption); (case hle => decide))
    | (intro x
       have hx : Within (.of [.free, .tick, .core, .act, .latch, .irqs, .log, .pm, .events, .ecc, .bus] [.almState, .almStageFail, .eccStatus, .eccLastUe, .eccTrack, .eccCorr, .eccUe, .eccPoison, .eccTrackFull, .eccRestores, .busStatus, .busGrants, .logState, .logEvbEntries, .logDropped, .logEvbLost, .logEntries, .sysIntSrc]) s x := by
         dsimp -zeta only [x]
         repeat' first
           | with_reducible assumption
           | with_reducible apply Within.refl
           | ((with_reducible apply Within.each); (case' hg => intro _ _ _))
           | ((with_reducible apply Within.after (State.restoreDone_within ..)); (case hle => decide))
           | ((with_reducible apply Within.after (State.winPut_within ..)); (case hle => decide))
           | ((with_reducible apply Within.after (State.trimLost_within ..)); (case hle => decide))
           | ((with_reducible apply Within.after (State.gainWrite_within ..)); (case hle => decide))
           | ((with_reducible apply Within.after (Within.of_eq (State.gainWrite_within ..) ?e)); (case e => assumption); (case hle => decide))
           | with_reducible apply Within.ite
           | split
           | dsimp -zeta only
           | dsimp +zetaDelta only
       clear_value x)
    | intro x
    | lift_lets
    | with_reducible apply Within.ite
    | split
    | dsimp -zeta only
    | dsimp +zetaDelta only

theorem State.restoreEntry_within (s : State) (a1 : Nat) (i : Nat) (v : Nat) (c : Nat) :
    Within (.of [.core, .act, .latch, .irqs, .log, .pm, .events, .ecc, .bus] [.eccStatus, .eccTrack, .eccRestores, .busStatus, .busGrants, .logState, .logEvbEntries, .logDropped, .logEvbLost, .logEntries, .sysIntSrc]) s (State.restoreEntry s a1 i v c) := by
  delta State.restoreEntry
  repeat' first
    | with_reducible assumption
    | with_reducible apply Within.refl
    | ((with_reducible apply Within.when); (case' hg => intro _ _))
    | ((with_reducible apply Within.after (State.restoreDone_within ..)); (case hle => decide))
    | ((with_reducible apply Within.after (State.winPut_within ..)); (case hle => decide))
    | ((with_reducible apply Within.after (State.trimLost_within ..)); (case hle => decide))
    | (intro x
       have hx : Within (.of [.core, .act, .latch, .irqs, .log, .pm, .events, .ecc, .bus] [.eccStatus, .eccTrack, .eccRestores, .busStatus, .busGrants, .logState, .logEvbEntries, .logDropped, .logEvbLost, .logEntries, .sysIntSrc]) s x := by
         dsimp -zeta only [x]
         repeat' first
           | with_reducible assumption
           | with_reducible apply Within.refl
           | ((with_reducible apply Within.when); (case' hg => intro _ _))
           | ((with_reducible apply Within.after (State.restoreDone_within ..)); (case hle => decide))
           | ((with_reducible apply Within.after (State.winPut_within ..)); (case hle => decide))
           | ((with_reducible apply Within.after (State.trimLost_within ..)); (case hle => decide))
           | with_reducible apply Within.ite
           | split
           | dsimp -zeta only
           | dsimp +zetaDelta only
       clear_value x)
    | intro x
    | lift_lets
    | with_reducible apply Within.ite
    | split
    | dsimp -zeta only
    | dsimp +zetaDelta only

theorem State.restoreConv_within (s : State) (a1 : Nat) (slot : Nat) :
    Within (.of [.core, .act, .irqs, .log, .pm, .events, .ecc, .bus] [.eccStatus, .eccTrack, .eccRestores, .busStatus, .busGrants, .logState, .logEvbEntries, .logDropped, .logEvbLost, .logEntries, .sysIntSrc]) s (State.restoreConv s a1 slot) := by
  delta State.restoreConv
  repeat' first
    | with_reducible assumption
    | with_reducible apply Within.refl
    | ((with_reducible apply Within.after (State.winPut_within ..)); (case hle => decide))
    | ((with_reducible apply Within.after (State.restoreDone_within ..)); (case hle => decide))
    | (intro x
       have hx : Within (.of [.core, .act, .irqs, .log, .pm, .events, .ecc, .bus] [.eccStatus, .eccTrack, .eccRestores, .busStatus, .busGrants, .logState, .logEvbEntries, .logDropped, .logEvbLost, .logEntries, .sysIntSrc]) s x := by
         dsimp -zeta only [x]
         repeat' first
           | with_reducible assumption
           | with_reducible apply Within.refl
           | ((with_reducible apply Within.after (State.winPut_within ..)); (case hle => decide))
           | ((with_reducible apply Within.after (State.restoreDone_within ..)); (case hle => decide))
           | with_reducible apply Within.ite
           | ((with_reducible apply Within.set_core); (case hc => decide))
           | split
           | dsimp -zeta only
           | dsimp +zetaDelta only
       clear_value x)
    | intro x
    | lift_lets
    | with_reducible apply Within.ite
    | ((with_reducible apply Within.set_core); (case hc => decide))
    | split
    | dsimp -zeta only
    | dsimp +zetaDelta only

theorem State.restore_within (s : State) (a1 : Nat) :
    Within (.of [.free, .tick, .core, .act, .latch, .irqs, .log, .pm, .events, .ecc, .bus] [.almState, .almStageFail, .eccStatus, .eccLastUe, .eccTrack, .eccCorr, .eccUe, .eccPoison, .eccTrackFull, .eccRestores, .busStatus, .busGrants, .logState, .logEvbEntries, .logDropped, .logEvbLost, .logEntries, .sysIntSrc]) s (State.restore s a1) := by
  delta State.restore
  repeat' first
    | with_reducible assumption
    | with_reducible apply Within.refl
    | ((with_reducible apply Within.after (State.restoreEntry_within ..)); (case hle => decide))
    | ((with_reducible apply Within.after (State.scrubCycles_within ..)); (case hle => decide))
    | ((with_reducible apply Within.after (State.restoreTerm_within ..)); (case hle => decide))
    | ((with_reducible apply Within.after (State.restoreConv_within ..)); (case hle => decide))
    | (intro x
       have hx : Within (.of [.free, .tick, .core, .act, .latch, .irqs, .log, .pm, .events, .ecc, .bus] [.almState, .almStageFail, .eccStatus, .eccLastUe, .eccTrack, .eccCorr, .eccUe, .eccPoison, .eccTrackFull, .eccRestores, .busStatus, .busGrants, .logState, .logEvbEntries, .logDropped, .logEvbLost, .logEntries, .sysIntSrc]) s x := by
         dsimp -zeta only [x]
         repeat' first
           | with_reducible assumption
           | with_reducible apply Within.refl
           | ((with_reducible apply Within.after (State.restoreEntry_within ..)); (case hle => decide))
           | ((with_reducible apply Within.after (State.scrubCycles_within ..)); (case hle => decide))
           | ((with_reducible apply Within.after (State.restoreTerm_within ..)); (case hle => decide))
           | ((with_reducible apply Within.after (State.restoreConv_within ..)); (case hle => decide))
           | with_reducible apply Within.ite
           | split
           | dsimp -zeta only
           | dsimp +zetaDelta only
       clear_value x)
    | intro x
    | lift_lets
    | with_reducible apply Within.ite
    | split
    | dsimp -zeta only
    | dsimp +zetaDelta only

theorem State.writebackRead_within (s : State) (n : Nat) (a2 : Nat) :
    Within (.of [.free, .tick, .act, .latch, .irqs, .log, .pm, .events, .ecc, .bus] [.almState, .almStageFail, .eccStatus, .eccLastUe, .eccTrack, .eccCorr, .eccUe, .eccPoison, .eccTrackFull, .busStatus, .busGrants, .logState, .logEvbEntries, .logDropped, .logEvbLost, .logEntries, .sysIntSrc]) s (State.writebackRead s n a2) := by
  delta State.writebackRead
  repeat' first
    | with_reducible assumption
    | with_reducible apply Within.refl
    | ((with_reducible apply Within.after (State.readAt_within ..)); (case hle => decide))
    | ((with_reducible apply Within.after (Within.of_eq (State.readAt_within ..) ?e)); (case e => assumption); (case hle => decide))
    | ((with_reducible apply Within.after (State.scrubCycles_within ..)); (case hle => decide))
    | with_reducible apply Within.ite
    | split
    | dsimp -zeta only
    | ((with_reducible apply Within.set_ecc); (case hc => decide))

theorem State.writebackDo_within (s : State) (n : Nat) (a2 : Nat) (d : Nat) :
    Within (.of [.core, .ecc, .bus] [.eccTrack, .eccWritebacks]) s (State.writebackDo s n a2 d) := by
  delta State.writebackDo
  repeat' first
    | with_reducible assumption
    | with_reducible apply Within.refl
    | ((with_reducible apply Within.wr); (case hr => first | decide | exact Foot.allRegs_hasReg _ _ | exact Foot.all_hasReg _ | (subst_vars; decide) | ((try dsimp +zetaDelta only); split <;> first | decide | (split <;> first | decide | (split <;> decide)))))
    | ((with_reducible apply Within.count); (case hr => first | decide | exact Foot.allRegs_hasReg _ _ | exact Foot.all_hasReg _ | (subst_vars; decide) | ((try dsimp +zetaDelta only); split <;> first | decide | (split <;> first | decide | (split <;> decide)))))
    | ((with_reducible apply Within.after (State.storeBack_within ..)); (case hle => decide))
    | ((with_reducible apply Within.after (State.scrubCycles_within ..)); (case hle => decide))
    | (intro x
       have hx : Within (.of [.core, .ecc, .bus] [.eccTrack, .eccWritebacks]) s x := by
         dsimp -zeta only [x]
         repeat' first
           | with_reducible assumption
           | with_reducible apply Within.refl
           | ((with_reducible apply Within.wr); (case hr => first | decide | exact Foot.allRegs_hasReg _ _ | exact Foot.all_hasReg _ | (subst_vars; decide) | ((try dsimp +zetaDelta only); split <;> first | decide | (split <;> first | decide | (split <;> decide)))))
           | ((with_reducible apply Within.count); (case hr => first | decide | exact Foot.allRegs_hasReg _ _ | exact Foot.all_hasReg _ | (subst_vars; decide) | ((try dsimp +zetaDelta only); split <;> first | decide | (split <;> first | decide | (split <;> decide)))))
           | ((with_reducible apply Within.after (State.storeBack_within ..)); (case hle => decide))
           | ((with_reducible apply Within.after (State.scrubCycles_within ..)); (case hle => decide))
           | with_reducible apply Within.ite
           | ((with_reducible apply Within.set_ecc); (case hc => decide))
           | split
           | dsimp -zeta only
           | dsimp +zetaDelta only
       clear_value x)
    | intro x
    | lift_lets
    | with_reducible apply Within.ite
    | ((with_reducible apply Within.set_ecc); (case hc => decide))
    | split
    | dsimp -zeta only
    | dsimp +zetaDelta only

theorem State.testFail_within (s : State) (a1 : Nat) (b : Nat) :
    Within (.of [.act, .latch, .irqs, .log, .pm, .events, .bus] [.eccStatus, .eccTestStatus, .eccTrack, .eccTestFail, .busStatus, .busGrants, .logState, .logEvbEntries, .logDropped, .logEvbLost, .logEntries, .sysIntSrc]) s (State.testFail s a1 b) := by
  delta State.testFail
  repeat' first
    | with_reducible assumption
    | with_reducible apply Within.refl
    | ((with_reducible apply Within.setWord); (case hr => first | decide | exact Foot.allRegs_hasReg _ _ | exact Foot.all_hasReg _ | (subst_vars; decide) | ((try dsimp +zetaDelta only); split <;> first | decide | (split <;> first | decide | (split <;> decide)))))
    | ((with_reducible apply Within.wr); (case hr => first | decide | exact Foot.allRegs_hasReg _ _ | exact Foot.all_hasReg _ | (subst_vars; decide) | ((try dsimp +zetaDelta only); split <;> first | decide | (split <;> first | decide | (split <;> decide)))))
    | ((with_reducible apply Within.setFlag); (case hr => first | decide | exact Foot.allRegs_hasReg _ _ | exact Foot.all_hasReg _ | (subst_vars; decide) | ((try dsimp +zetaDelta only); split <;> first | decide | (split <;> first | decide | (split <;> decide)))))
    | ((with_reducible apply Within.count); (case hr => first | decide | exact Foot.allRegs_hasReg _ _ | exact Foot.all_hasReg _ | (subst_vars; decide) | ((try dsimp +zetaDelta only); split <;> first | decide | (split <;> first | decide | (split <;> decide)))))
    | ((with_reducible apply Within.after (State.raise_within ..)); (case hle => decide))
    | ((with_reducible apply Within.after (State.hardCandidate_within ..)); (case hle => decide))
    | (intro x
       have hx : Within (.of [.act, .latch, .irqs, .log, .pm, .events, .bus] [.eccStatus, .eccTestStatus, .eccTrack, .eccTestFail, .busStatus, .busGrants, .logState, .logEvbEntries, .logDropped, .logEvbLost, .logEntries, .sysIntSrc]) s x := by
         dsimp -zeta only [x]
         repeat' first
           | with_reducible assumption
           | with_reducible apply Within.refl
           | ((with_reducible apply Within.setWord); (case hr => first | decide | exact Foot.allRegs_hasReg _ _ | exact Foot.all_hasReg _ | (subst_vars; decide) | ((try dsimp +zetaDelta only); split <;> first | decide | (split <;> first | decide | (split <;> decide)))))
           | ((with_reducible apply Within.wr); (case hr => first | decide | exact Foot.allRegs_hasReg _ _ | exact Foot.all_hasReg _ | (subst_vars; decide) | ((try dsimp +zetaDelta only); split <;> first | decide | (split <;> first | decide | (split <;> decide)))))
           | ((with_reducible apply Within.setFlag); (case hr => first | decide | exact Foot.allRegs_hasReg _ _ | exact Foot.all_hasReg _ | (subst_vars; decide) | ((try dsimp +zetaDelta only); split <;> first | decide | (split <;> first | decide | (split <;> decide)))))
           | ((with_reducible apply Within.count); (case hr => first | decide | exact Foot.allRegs_hasReg _ _ | exact Foot.all_hasReg _ | (subst_vars; decide) | ((try dsimp +zetaDelta only); split <;> first | decide | (split <;> first | decide | (split <;> decide)))))
           | ((with_reducible apply Within.after (State.raise_within ..)); (case hle => decide))
           | ((with_reducible apply Within.after (State.hardCandidate_within ..)); (case hle => decide))
           | with_reducible apply Within.ite
           | split
           | dsimp -zeta only
           | dsimp +zetaDelta only
       clear_value x)
    | intro x
    | lift_lets
    | with_reducible apply Within.ite
    | split
    | dsimp -zeta only
    | dsimp +zetaDelta only

theorem State.testSave_within (s : State) (a1 : Nat) :
    Within (.of [.free, .tick, .core, .act, .latch, .irqs, .log, .pm, .events, .ecc, .bus] [.almState, .almStageFail, .eccStatus, .eccLastUe, .eccTrack, .eccCorr, .eccUe, .eccPoison, .eccTrackFull, .busStatus, .busGrants, .logState, .logEvbEntries, .logDropped, .logEvbLost, .logEntries, .sysIntSrc]) s (State.testSave s a1) := by
  delta State.testSave
  repeat' first
    | with_reducible assumption
    | with_reducible apply Within.refl
    | ((with_reducible apply Within.after (State.readAt_within ..)); (case hle => decide))
    | ((with_reducible apply Within.after (Within.of_eq (State.readAt_within ..) ?e)); (case e => assumption); (case hle => decide))
    | ((with_reducible apply Within.after (State.storeBack_within ..)); (case hle => decide))
    | (intro x
       have hx : Within (.of [.free, .tick, .core, .act, .latch, .irqs, .log, .pm, .events, .ecc, .bus] [.almState, .almStageFail, .eccStatus, .eccLastUe, .eccTrack, .eccCorr, .eccUe, .eccPoison, .eccTrackFull, .busStatus, .busGrants, .logState, .logEvbEntries, .logDropped, .logEvbLost, .logEntries, .sysIntSrc]) s x := by
         dsimp -zeta only [x]
         repeat' first
           | with_reducible assumption
           | with_reducible apply Within.refl
           | ((with_reducible apply Within.after (State.readAt_within ..)); (case hle => decide))
           | ((with_reducible apply Within.after (Within.of_eq (State.readAt_within ..) ?e)); (case e => assumption); (case hle => decide))
           | ((with_reducible apply Within.after (State.storeBack_within ..)); (case hle => decide))
           | with_reducible apply Within.ite
           | split
           | dsimp -zeta only
           | dsimp +zetaDelta only
           | ((with_reducible apply Within.set_ecc); (case hc => decide))
       clear_value x)
    | intro x
    | lift_lets
    | with_reducible apply Within.ite
    | split
    | dsimp -zeta only
    | dsimp +zetaDelta only
    | ((with_reducible apply Within.set_ecc); (case hc => decide))

theorem State.testTick_within (s : State) :
    Within (.of [.free, .tick, .core, .act, .latch, .irqs, .log, .pm, .events, .ecc, .bus] [.coreResvTest, .almState, .almStageFail, .eccStatus, .eccLastUe, .eccTestStatus, .eccTrack, .eccCorr, .eccUe, .eccPoison, .eccTestFail, .eccTrackFull, .busStatus, .busGrants, .logState, .logEvbEntries, .logDropped, .logEvbLost, .logEntries, .sysIntSrc]) s (State.testTick s) := by
  delta State.testTick
  repeat' first
    | with_reducible assumption
    | with_reducible apply Within.refl
    | ((with_reducible apply Within.countBy); (case hr => first | decide | exact Foot.allRegs_hasReg _ _ | exact Foot.all_hasReg _ | (subst_vars; decide) | ((try dsimp +zetaDelta only); split <;> first | decide | (split <;> first | decide | (split <;> decide)))))
    | ((with_reducible apply Within.each); (case' hg => intro _ _ _))
    | ((with_reducible apply Within.after (State.testSave_within ..)); (case hle => decide))
    | ((with_reducible apply Within.after (State.testFail_within ..)); (case hle => decide))
    | (intro x
       have hx : Within (.of [.free, .tick, .core, .act, .latch, .irqs, .log, .pm, .events, .ecc, .bus] [.coreResvTest, .almState, .almStageFail, .eccStatus, .eccLastUe, .eccTestStatus, .eccTrack, .eccCorr, .eccUe, .eccPoison, .eccTestFail, .eccTrackFull, .busStatus, .busGrants, .logState, .logEvbEntries, .logDropped, .logEvbLost, .logEntries, .sysIntSrc]) s x := by
         dsimp -zeta only [x]
         repeat' first
           | with_reducible assumption
           | with_reducible apply Within.refl
           | ((with_reducible apply Within.countBy); (case hr => first | decide | exact Foot.allRegs_hasReg _ _ | exact Foot.all_hasReg _ | (subst_vars; decide) | ((try dsimp +zetaDelta only); split <;> first | decide | (split <;> first | decide | (split <;> decide)))))
           | ((with_reducible apply Within.each); (case' hg => intro _ _ _))
           | ((with_reducible apply Within.after (State.testSave_within ..)); (case hle => decide))
           | ((with_reducible apply Within.after (State.testFail_within ..)); (case hle => decide))
           | with_reducible apply Within.ite
           | split
           | dsimp -zeta only
           | dsimp +zetaDelta only
       clear_value x)
    | intro x
    | lift_lets
    | with_reducible apply Within.ite
    | split
    | dsimp -zeta only
    | dsimp +zetaDelta only

theorem State.upset_within (s : State) (a1 : Nat) (b : Nat) :
    Within (.of [.act, .latch, .irqs, .log, .pm, .events, .ecc, .bus] [.eccStatus, .eccTestStatus, .eccTrack, .eccTestFail, .busStatus, .busGrants, .logState, .logEvbEntries, .logDropped, .logEvbLost, .logEntries, .sysIntSrc]) s (State.upset s a1 b) := by
  delta State.upset
  repeat' first
    | with_reducible assumption
    | with_reducible apply Within.refl
    | ((with_reducible apply Within.when); (case' hg => intro _ _))
    | ((with_reducible apply Within.after (State.testFail_within ..)); (case hle => decide))
    | (intro x
       have hx : Within (.of [.act, .latch, .irqs, .log, .pm, .events, .ecc, .bus] [.eccStatus, .eccTestStatus, .eccTrack, .eccTestFail, .busStatus, .busGrants, .logState, .logEvbEntries, .logDropped, .logEvbLost, .logEntries, .sysIntSrc]) s x := by
         dsimp -zeta only [x]
         repeat' first
           | with_reducible assumption
           | with_reducible apply Within.refl
           | ((with_reducible apply Within.when); (case' hg => intro _ _))
           | ((with_reducible apply Within.after (State.testFail_within ..)); (case hle => decide))
           | with_reducible apply Within.ite
           | ((with_reducible apply Within.set_ecc); (case hc => decide))
           | split
           | dsimp -zeta only
           | dsimp +zetaDelta only
       clear_value x)
    | intro x
    | lift_lets
    | with_reducible apply Within.ite
    | ((with_reducible apply Within.set_ecc); (case hc => decide))
    | split
    | dsimp -zeta only
    | dsimp +zetaDelta only

theorem State.cellStuck_within (s : State) (a1 : Nat) (b : Nat) (v : Bool) :
    Within (.of [.stuck, .ecc] []) s (State.cellStuck s a1 b v) := by
  unfold State.cellStuck
  split
  · exact .refl _ s
  · exact Within.set_stuck (Within.set_ecc (.refl _ s) (by decide)) (by decide)

theorem State.testNow_within (s : State) :
    Within (.of [.ecc] []) s (State.testNow s) := by
  delta State.testNow
  repeat' first
    | with_reducible assumption
    | with_reducible apply Within.refl
    | with_reducible apply Within.ite
    | ((with_reducible apply Within.set_ecc); (case hc => decide))
    | split
    | dsimp -zeta only

theorem State.scrubFinish_within (s : State) (e : Nat) :
    Within (.of [.ecc] [.eccScrubStatus]) s (State.scrubFinish s e) := by
  delta State.scrubFinish
  repeat' first
    | with_reducible assumption
    | with_reducible apply Within.refl
    | ((with_reducible apply Within.wr); (case hr => first | decide | exact Foot.allRegs_hasReg _ _ | exact Foot.all_hasReg _ | (subst_vars; decide) | ((try dsimp +zetaDelta only); split <;> first | decide | (split <;> first | decide | (split <;> decide)))))
    | ((with_reducible apply Within.setFlag); (case hr => first | decide | exact Foot.allRegs_hasReg _ _ | exact Foot.all_hasReg _ | (subst_vars; decide) | ((try dsimp +zetaDelta only); split <;> first | decide | (split <;> first | decide | (split <;> decide)))))
    | (intro x
       have hx : Within (.of [.ecc] [.eccScrubStatus]) s x := by
         dsimp -zeta only [x]
         repeat' first
           | with_reducible assumption
           | with_reducible apply Within.refl
           | ((with_reducible apply Within.wr); (case hr => first | decide | exact Foot.allRegs_hasReg _ _ | exact Foot.all_hasReg _ | (subst_vars; decide) | ((try dsimp +zetaDelta only); split <;> first | decide | (split <;> first | decide | (split <;> decide)))))
           | ((with_reducible apply Within.setFlag); (case hr => first | decide | exact Foot.allRegs_hasReg _ _ | exact Foot.all_hasReg _ | (subst_vars; decide) | ((try dsimp +zetaDelta only); split <;> first | decide | (split <;> first | decide | (split <;> decide)))))
           | with_reducible apply Within.ite
           | ((with_reducible apply Within.set_ecc); (case hc => decide))
           | split
           | dsimp -zeta only
           | dsimp +zetaDelta only
       clear_value x)
    | intro x
    | lift_lets
    | with_reducible apply Within.ite
    | ((with_reducible apply Within.set_ecc); (case hc => decide))
    | split
    | dsimp -zeta only
    | dsimp +zetaDelta only

theorem State.scrubBegin_within (s : State) :
    Within (.of [.ecc] [.eccScrubStatus, .eccScrubSum, .eccScrubUe]) s (State.scrubBegin s) := by
  delta State.scrubBegin
  repeat' first
    | with_reducible assumption
    | with_reducible apply Within.refl
    | ((with_reducible apply Within.setWord); (case hr => first | decide | exact Foot.allRegs_hasReg _ _ | exact Foot.all_hasReg _ | (subst_vars; decide) | ((try dsimp +zetaDelta only); split <;> first | decide | (split <;> first | decide | (split <;> decide)))))
    | ((with_reducible apply Within.setFlag); (case hr => first | decide | exact Foot.allRegs_hasReg _ _ | exact Foot.all_hasReg _ | (subst_vars; decide) | ((try dsimp +zetaDelta only); split <;> first | decide | (split <;> first | decide | (split <;> decide)))))
    | ((with_reducible apply Within.eachN); (case' hg => intro _ _ _))
    | ((with_reducible apply Within.after (State.scrubFinish_within ..)); (case hle => decide))
    | (intro x
       have hx : Within (.of [.ecc] [.eccScrubStatus, .eccScrubSum, .eccScrubUe]) s x := by
         dsimp -zeta only [x]
         repeat' first
           | with_reducible assumption
           | with_reducible apply Within.refl
           | ((with_reducible apply Within.setWord); (case hr => first | decide | exact Foot.allRegs_hasReg _ _ | exact Foot.all_hasReg _ | (subst_vars; decide) | ((try dsimp +zetaDelta only); split <;> first | decide | (split <;> first | decide | (split <;> decide)))))
           | ((with_reducible apply Within.setFlag); (case hr => first | decide | exact Foot.allRegs_hasReg _ _ | exact Foot.all_hasReg _ | (subst_vars; decide) | ((try dsimp +zetaDelta only); split <;> first | decide | (split <;> first | decide | (split <;> decide)))))
           | ((with_reducible apply Within.eachN); (case' hg => intro _ _ _))
           | ((with_reducible apply Within.after (State.scrubFinish_within ..)); (case hle => decide))
           | with_reducible apply Within.ite
           | ((with_reducible apply Within.set_ecc); (case hc => decide))
           | split
           | dsimp -zeta only
           | dsimp +zetaDelta only
       clear_value x)
    | intro x
    | lift_lets
    | with_reducible apply Within.ite
    | ((with_reducible apply Within.set_ecc); (case hc => decide))
    | split
    | dsimp -zeta only
    | dsimp +zetaDelta only

theorem State.scrubAbort_within (s : State) :
    Within (.of [.ecc] [.eccScrubStatus]) s (State.scrubAbort s) := by
  delta State.scrubAbort
  repeat' first
    | with_reducible assumption
    | with_reducible apply Within.refl
    | ((with_reducible apply Within.after (State.scrubFinish_within ..)); (case hle => decide))
    | with_reducible apply Within.ite
    | split
    | dsimp -zeta only

theorem State.scrubSum_within (s : State) (k : Nat) (n : Nat) :
    Within (.of [] [.eccScrubSum]) s (State.scrubSum s k n) := by
  delta State.scrubSum
  repeat' first
    | with_reducible assumption
    | with_reducible apply Within.refl
    | ((with_reducible apply Within.setWord); (case hr => first | decide | exact Foot.allRegs_hasReg _ _ | exact Foot.all_hasReg _ | (subst_vars; decide) | ((try dsimp +zetaDelta only); split <;> first | decide | (split <;> first | decide | (split <;> decide)))))
    | with_reducible apply Within.ite
    | split
    | dsimp -zeta only

theorem State.scrubList_within (s : State) (a1 : Nat) :
    Within (.of [] [.eccScrubStatus, .eccScrubUe]) s (State.scrubList s a1) := by
  delta State.scrubList
  repeat' first
    | with_reducible assumption
    | with_reducible apply Within.refl
    | ((with_reducible apply Within.setWord); (case hr => first | decide | exact Foot.allRegs_hasReg _ _ | exact Foot.all_hasReg _ | (subst_vars; decide) | ((try dsimp +zetaDelta only); split <;> first | decide | (split <;> first | decide | (split <;> decide)))))
    | ((with_reducible apply Within.wr); (case hr => first | decide | exact Foot.allRegs_hasReg _ _ | exact Foot.all_hasReg _ | (subst_vars; decide) | ((try dsimp +zetaDelta only); split <;> first | decide | (split <;> first | decide | (split <;> decide)))))
    | (intro x
       have hx : Within (.of [] [.eccScrubStatus, .eccScrubUe]) s x := by
         dsimp -zeta only [x]
         repeat' first
           | with_reducible assumption
           | with_reducible apply Within.refl
           | ((with_reducible apply Within.setWord); (case hr => first | decide | exact Foot.allRegs_hasReg _ _ | exact Foot.all_hasReg _ | (subst_vars; decide) | ((try dsimp +zetaDelta only); split <;> first | decide | (split <;> first | decide | (split <;> decide)))))
           | ((with_reducible apply Within.wr); (case hr => first | decide | exact Foot.allRegs_hasReg _ _ | exact Foot.all_hasReg _ | (subst_vars; decide) | ((try dsimp +zetaDelta only); split <;> first | decide | (split <;> first | decide | (split <;> decide)))))
           | with_reducible apply Within.ite
           | split
           | dsimp -zeta only
           | dsimp +zetaDelta only
       clear_value x)
    | intro x
    | lift_lets
    | with_reducible apply Within.ite
    | split
    | dsimp -zeta only
    | dsimp +zetaDelta only

theorem State.scrubWord_within (s : State) (a1 : Nat) :
    Within (.of [.free, .tick, .act, .latch, .irqs, .log, .pm, .events, .ecc, .bus] [.almState, .almStageFail, .eccStatus, .eccLastUe, .eccScrubStatus, .eccScrubSum, .eccScrubUe, .eccTrack, .eccCorr, .eccUe, .eccPoison, .eccTrackFull, .busStatus, .busGrants, .logState, .logEvbEntries, .logDropped, .logEvbLost, .logEntries, .sysIntSrc]) s (State.scrubWord s a1).2 := by
  delta State.scrubWord
  repeat' first
    | with_reducible assumption
    | with_reducible apply Within.refl
    | ((with_reducible apply Within.after (State.readAt_within ..)); (case hle => decide))
    | ((with_reducible apply Within.after (Within.of_eq (State.readAt_within ..) ?e)); (case e => assumption); (case hle => decide))
    | ((with_reducible apply Within.after (State.scrubSum_within ..)); (case hle => decide))
    | ((with_reducible apply Within.after (State.scrubList_within ..)); (case hle => decide))
    | (intro x
       have hx : Within (.of [.free, .tick, .act, .latch, .irqs, .log, .pm, .events, .ecc, .bus] [.almState, .almStageFail, .eccStatus, .eccLastUe, .eccScrubStatus, .eccScrubSum, .eccScrubUe, .eccTrack, .eccCorr, .eccUe, .eccPoison, .eccTrackFull, .busStatus, .busGrants, .logState, .logEvbEntries, .logDropped, .logEvbLost, .logEntries, .sysIntSrc]) s x := by
         dsimp -zeta only [x]
         repeat' first
           | with_reducible assumption
           | with_reducible apply Within.refl
           | ((with_reducible apply Within.after (State.readAt_within ..)); (case hle => decide))
           | ((with_reducible apply Within.after (Within.of_eq (State.readAt_within ..) ?e)); (case e => assumption); (case hle => decide))
           | ((with_reducible apply Within.after (State.scrubSum_within ..)); (case hle => decide))
           | ((with_reducible apply Within.after (State.scrubList_within ..)); (case hle => decide))
           | with_reducible apply Within.ite
           | split
           | dsimp -zeta only
           | dsimp +zetaDelta only
       clear_value x)
    | intro x
    | lift_lets
    | with_reducible apply Within.ite
    | split
    | dsimp -zeta only
    | dsimp +zetaDelta only

theorem State.scrubFix_within (s : State) (a1 : Nat) :
    Within (.of [.core, .act, .irqs, .log, .pm, .events, .ecc, .bus] [.eccStatus, .eccScrubSum, .eccTrack, .busStatus, .busGrants, .logState, .logEvbEntries, .logDropped, .logEvbLost, .logEntries, .sysIntSrc]) s (State.scrubFix s a1) := by
  delta State.scrubFix
  repeat' first
    | with_reducible assumption
    | with_reducible apply Within.refl
    | ((with_reducible apply Within.when); (case' hg => intro _ _))
    | ((with_reducible apply Within.after (State.scrubSum_within ..)); (case hle => decide))
    | ((with_reducible apply Within.after (State.storeBack_within ..)); (case hle => decide))
    | ((with_reducible apply Within.after (State.fullWrite_within ..)); (case hle => decide))
    | with_reducible apply Within.ite
    | split
    | dsimp -zeta only

theorem State.scrubBank_within (mem bank : Nat) (correct : Bool) (n : Nat) (r : BankRun) (s : State) :
    Within (Foot.of [.free, .tick, .core, .act, .latch, .irqs, .log, .pm, .events, .ecc, .bus] [.almState, .almStageFail, .eccStatus, .eccLastUe, .eccScrubStatus, .eccScrubSum, .eccScrubUe, .eccTrack, .eccCorr, .eccUe, .eccPoison, .eccTrackFull, .busStatus, .busGrants, .logState, .logEvbEntries, .logDropped, .logEvbLost, .logEntries, .sysIntSrc]) s (State.scrubBank mem bank correct n r s).2 := by
  induction n generalizing r s with
  | zero => exact .refl _ s
  | succ n ih =>
    unfold State.scrubBank
    split
    · exact .after (ih _ _) ((State.scrubFix_within ..).mono (by decide)) (by decide)
    · split
      · exact .after (ih _ _) ((State.scrubWord_within ..).mono (by decide)) (by decide)
      · exact .refl _ s

theorem State.scrubTick_within (s : State) :
    Within (.of [.free, .tick, .core, .act, .latch, .irqs, .log, .pm, .events, .ecc, .bus] [.almState, .almStageFail, .eccStatus, .eccLastUe, .eccScrubStatus, .eccScrubSum, .eccScrubUe, .eccTrack, .eccCorr, .eccUe, .eccPoison, .eccTrackFull, .busStatus, .busGrants, .logState, .logEvbEntries, .logDropped, .logEvbLost, .logEntries, .sysIntSrc]) s (State.scrubTick s) := by
  delta State.scrubTick
  repeat' first
    | with_reducible assumption
    | with_reducible apply Within.refl
    | ((with_reducible apply Within.count); (case hr => first | decide | exact Foot.allRegs_hasReg _ _ | exact Foot.all_hasReg _ | (subst_vars; decide) | ((try dsimp +zetaDelta only); split <;> first | decide | (split <;> first | decide | (split <;> decide)))))
    | ((with_reducible apply Within.iter_snd); (case' hg => intro _ _ _))
    | ((with_reducible apply Within.iter); (case' hg => intro _ _ _))
    | ((with_reducible apply Within.after (State.scrubBank_within ..)); (case hle => decide))
    | ((with_reducible apply Within.after (Within.of_eq (State.scrubBank_within ..) ?e)); (case e => assumption); (case hle => decide))
    | ((with_reducible apply Within.after (State.scrubSum_within ..)); (case hle => decide))
    | ((with_reducible apply Within.after (State.scrubCycles_within ..)); (case hle => decide))
    | (intro x
       have hx : Within (.of [.free, .tick, .core, .act, .latch, .irqs, .log, .pm, .events, .ecc, .bus] [.almState, .almStageFail, .eccStatus, .eccLastUe, .eccScrubStatus, .eccScrubSum, .eccScrubUe, .eccTrack, .eccCorr, .eccUe, .eccPoison, .eccTrackFull, .busStatus, .busGrants, .logState, .logEvbEntries, .logDropped, .logEvbLost, .logEntries, .sysIntSrc]) s x := by
         dsimp -zeta only [x]
         repeat' first
           | with_reducible assumption
           | with_reducible apply Within.refl
           | ((with_reducible apply Within.count); (case hr => first | decide | exact Foot.allRegs_hasReg _ _ | exact Foot.all_hasReg _ | (subst_vars; decide) | ((try dsimp +zetaDelta only); split <;> first | decide | (split <;> first | decide | (split <;> decide)))))
           | ((with_reducible apply Within.iter_snd); (case' hg => intro _ _ _))
           | ((with_reducible apply Within.iter); (case' hg => intro _ _ _))
           | ((with_reducible apply Within.after (State.scrubBank_within ..)); (case hle => decide))
           | ((with_reducible apply Within.after (Within.of_eq (State.scrubBank_within ..) ?e)); (case e => assumption); (case hle => decide))
           | ((with_reducible apply Within.after (State.scrubSum_within ..)); (case hle => decide))
           | ((with_reducible apply Within.after (State.scrubCycles_within ..)); (case hle => decide))
           | with_reducible apply Within.ite
           | split
           | dsimp -zeta only
           | dsimp +zetaDelta only
           | ((with_reducible apply Within.set_ecc); (case hc => decide))
       clear_value x)
    | intro x
    | lift_lets
    | with_reducible apply Within.ite
    | split
    | dsimp -zeta only
    | dsimp +zetaDelta only
    | ((with_reducible apply Within.set_ecc); (case hc => decide))

theorem State.softMiss_within (s : State) (a1 : Nat) (b : Nat) :
    Within (.of [.free, .log, .pm, .events, .bus] [.eccSoftNospare, .busGrants, .logState, .logEvbEntries, .logDropped, .logEvbLost, .logEntries, .sysIntSrc]) s (State.softMiss s a1 b) := by
  delta State.softMiss
  repeat' first
    | with_reducible assumption
    | with_reducible apply Within.refl
    | ((with_reducible apply Within.count); (case hr => first | decide | exact Foot.allRegs_hasReg _ _ | exact Foot.all_hasReg _ | (subst_vars; decide) | ((try dsimp +zetaDelta only); split <;> first | decide | (split <;> first | decide | (split <;> decide)))))
    | ((with_reducible apply Within.after (State.takeFree_within ..)); (case hle => decide))
    | ((with_reducible apply Within.after (Within.of_eq (State.takeFree_within ..) ?e)); (case e => assumption); (case hle => decide))
    | ((with_reducible apply Within.after (State.logEvent_within ..)); (case hle => decide))
    | (intro x
       have hx : Within (.of [.free, .log, .pm, .events, .bus] [.eccSoftNospare, .busGrants, .logState, .logEvbEntries, .logDropped, .logEvbLost, .logEntries, .sysIntSrc]) s x := by
         dsimp -zeta only [x]
         repeat' first
           | with_reducible assumption
           | with_reducible apply Within.refl
           | ((with_reducible apply Within.count); (case hr => first | decide | exact Foot.allRegs_hasReg _ _ | exact Foot.all_hasReg _ | (subst_vars; decide) | ((try dsimp +zetaDelta only); split <;> first | decide | (split <;> first | decide | (split <;> decide)))))
           | ((with_reducible apply Within.after (State.takeFree_within ..)); (case hle => decide))
           | ((with_reducible apply Within.after (Within.of_eq (State.takeFree_within ..) ?e)); (case e => assumption); (case hle => decide))
           | ((with_reducible apply Within.after (State.logEvent_within ..)); (case hle => decide))
           | with_reducible apply Within.ite
           | split
           | dsimp -zeta only
           | dsimp +zetaDelta only
       clear_value x)
    | intro x
    | lift_lets
    | with_reducible apply Within.ite
    | split
    | dsimp -zeta only
    | dsimp +zetaDelta only

theorem State.cellsLeft_within (s : State) (used : List Repair) :
    Within (.of [.ecc] []) s (State.cellsLeft s used) := by
  delta State.cellsLeft
  repeat' first
    | with_reducible assumption
    | with_reducible apply Within.refl
    | (intro x
       have hx : Within (.of [.ecc] []) s x := by
         dsimp -zeta only [x]
         repeat' first
           | with_reducible assumption
           | with_reducible apply Within.refl
           | with_reducible apply Within.ite
           | ((with_reducible apply Within.set_ecc); (case hc => decide))
           | split
           | dsimp -zeta only
           | dsimp +zetaDelta only
       clear_value x)
    | intro x
    | lift_lets
    | with_reducible apply Within.ite
    | ((with_reducible apply Within.set_ecc); (case hc => decide))
    | split
    | dsimp -zeta only
    | dsimp +zetaDelta only

theorem State.softRepairs_within (s : State) (used : List Repair) :
    Within (.of [.free, .log, .pm, .events, .ecc, .bus] [.eccSoft, .eccSoftNospare, .busGrants, .logState, .logEvbEntries, .logDropped, .logEvbLost, .logEntries, .sysIntSrc]) s (State.softRepairs s used) := by
  unfold State.softRepairs
  refine .after (State.cellsLeft_within ..) ?_ (by decide)
  refine Within.foldl_of (f := Foot.of [.free, .log, .pm, .events, .ecc, .bus] [.eccSoft, .eccSoftNospare, .busGrants, .logState, .logEvbEntries, .logDropped, .logEvbLost, .logEntries, .sysIntSrc]) (s := s) (fun acc : List Repair × Nat × State => acc.2.2) _ _ (used, 0, s) (.refl _ s) ?_
  rintro c ⟨us, n, y⟩ hy
  dsimp only at hy ⊢
  split
  · exact hy
  · split
    · exact hy.setWord _ _ _ (by decide)
    · exact .after (State.softMiss_within ..) hy (by decide)

theorem State.fieldUsed_within (s : State) :
    Within (.of [] [.eccFuseStatus]) s (State.fieldUsed s) := by
  delta State.fieldUsed
  repeat' first
    | with_reducible assumption
    | with_reducible apply Within.refl
    | ((with_reducible apply Within.wr); (case hr => first | decide | exact Foot.allRegs_hasReg _ _ | exact Foot.all_hasReg _ | (subst_vars; decide) | ((try dsimp +zetaDelta only); split <;> first | decide | (split <;> first | decide | (split <;> decide)))))
    | with_reducible apply Within.ite
    | split
    | dsimp -zeta only

theorem State.fuseBurn_within (s : State) :
    Within (.of [.ecc] [.eccFuseStatus]) s (State.fuseBurn s) := by
  delta State.fuseBurn
  repeat' first
    | with_reducible assumption
    | with_reducible apply Within.refl
    | ((with_reducible apply Within.wr); (case hr => first | decide | exact Foot.allRegs_hasReg _ _ | exact Foot.all_hasReg _ | (subst_vars; decide) | ((try dsimp +zetaDelta only); split <;> first | decide | (split <;> first | decide | (split <;> decide)))))
    | ((with_reducible apply Within.setFlag); (case hr => first | decide | exact Foot.allRegs_hasReg _ _ | exact Foot.all_hasReg _ | (subst_vars; decide) | ((try dsimp +zetaDelta only); split <;> first | decide | (split <;> first | decide | (split <;> decide)))))
    | (intro x
       have hx : Within (.of [.ecc] [.eccFuseStatus]) s x := by
         dsimp -zeta only [x]
         repeat' first
           | with_reducible assumption
           | with_reducible apply Within.refl
           | ((with_reducible apply Within.wr); (case hr => first | decide | exact Foot.allRegs_hasReg _ _ | exact Foot.all_hasReg _ | (subst_vars; decide) | ((try dsimp +zetaDelta only); split <;> first | decide | (split <;> first | decide | (split <;> decide)))))
           | ((with_reducible apply Within.setFlag); (case hr => first | decide | exact Foot.allRegs_hasReg _ _ | exact Foot.all_hasReg _ | (subst_vars; decide) | ((try dsimp +zetaDelta only); split <;> first | decide | (split <;> first | decide | (split <;> decide)))))
           | with_reducible apply Within.ite
           | ((with_reducible apply Within.set_ecc); (case hc => decide))
           | split
           | dsimp -zeta only
           | dsimp +zetaDelta only
       clear_value x)
    | intro x
    | lift_lets
    | with_reducible apply Within.ite
    | ((with_reducible apply Within.set_ecc); (case hc => decide))
    | split
    | dsimp -zeta only
    | dsimp +zetaDelta only

theorem State.fuseSet_within (s : State) (v : BitVec 32) :
    Within (.of [.fieldMap] [.eccFuseStatus]) s (State.fuseSet s v) := by
  delta State.fuseSet
  repeat' first
    | with_reducible assumption
    | with_reducible apply Within.refl
    | ((with_reducible apply Within.after (State.fieldUsed_within ..)); (case hle => decide))
    | with_reducible apply Within.ite
    | split
    | dsimp -zeta only
    | ((with_reducible apply Within.set_fieldMap); (case hc => decide))

theorem State.hbmRepair_within (s : State) :
    Within (.of [.ecc] [.hbmRepairStatus]) s (State.hbmRepair s) := by
  delta State.hbmRepair
  repeat' first
    | with_reducible assumption
    | with_reducible apply Within.refl
    | ((with_reducible apply Within.wr); (case hr => first | decide | exact Foot.allRegs_hasReg _ _ | exact Foot.all_hasReg _ | (subst_vars; decide) | ((try dsimp +zetaDelta only); split <;> first | decide | (split <;> first | decide | (split <;> decide)))))
    | ((with_reducible apply Within.setFlag); (case hr => first | decide | exact Foot.allRegs_hasReg _ _ | exact Foot.all_hasReg _ | (subst_vars; decide) | ((try dsimp +zetaDelta only); split <;> first | decide | (split <;> first | decide | (split <;> decide)))))
    | (intro x
       have hx : Within (.of [.ecc] [.hbmRepairStatus]) s x := by
         dsimp -zeta only [x]
         repeat' first
           | with_reducible assumption
           | with_reducible apply Within.refl
           | ((with_reducible apply Within.wr); (case hr => first | decide | exact Foot.allRegs_hasReg _ _ | exact Foot.all_hasReg _ | (subst_vars; decide) | ((try dsimp +zetaDelta only); split <;> first | decide | (split <;> first | decide | (split <;> decide)))))
           | ((with_reducible apply Within.setFlag); (case hr => first | decide | exact Foot.allRegs_hasReg _ _ | exact Foot.all_hasReg _ | (subst_vars; decide) | ((try dsimp +zetaDelta only); split <;> first | decide | (split <;> first | decide | (split <;> decide)))))
           | with_reducible apply Within.ite
           | ((with_reducible apply Within.set_ecc); (case hc => decide))
           | split
           | dsimp -zeta only
           | dsimp +zetaDelta only
       clear_value x)
    | intro x
    | lift_lets
    | with_reducible apply Within.ite
    | ((with_reducible apply Within.set_ecc); (case hc => decide))
    | split
    | dsimp -zeta only
    | dsimp +zetaDelta only

theorem execTableRestore_within (addr : BitVec 32) (readFails : Bool) (s : State) (s' : State)
    (h : execTableRestore addr readFails s = .next s') :
    Within (.of [.free, .tick, .core, .act, .latch, .irqs, .log, .pm, .events, .ecc, .bus] [.almState, .almStageFail, .eccStatus, .eccLastUe, .eccTrack, .eccCorr, .eccUe, .eccPoison, .eccTrackFull, .eccRestores, .hbmCand, .hbmUe, .busStatus, .busGrants, .logState, .logEvbEntries, .logDropped, .logEvbLost, .logEntries, .sysIntSrc]) s s' := by
  delta execTableRestore at h
  injection h with h
  subst h
  repeat' first
    | with_reducible assumption
    | with_reducible apply Within.refl
    | ((with_reducible apply Within.when); (case' hg => intro _ _))
    | ((with_reducible apply Within.after (State.libraryUncorrected_within ..)); (case hle => decide))
    | ((with_reducible apply Within.after (State.restoreFail_within ..)); (case hle => decide))
    | ((with_reducible apply Within.after (State.restore_within ..)); (case hle => decide))
    | (intro x
       have hx : Within (.of [.free, .tick, .core, .act, .latch, .irqs, .log, .pm, .events, .ecc, .bus] [.almState, .almStageFail, .eccStatus, .eccLastUe, .eccTrack, .eccCorr, .eccUe, .eccPoison, .eccTrackFull, .eccRestores, .hbmCand, .hbmUe, .busStatus, .busGrants, .logState, .logEvbEntries, .logDropped, .logEvbLost, .logEntries, .sysIntSrc]) s x := by
         dsimp -zeta only [x]
         repeat' first
           | with_reducible assumption
           | with_reducible apply Within.refl
           | ((with_reducible apply Within.when); (case' hg => intro _ _))
           | ((with_reducible apply Within.after (State.libraryUncorrected_within ..)); (case hle => decide))
           | ((with_reducible apply Within.after (State.restoreFail_within ..)); (case hle => decide))
           | ((with_reducible apply Within.after (State.restore_within ..)); (case hle => decide))
           | with_reducible apply Within.ite
           | split
           | dsimp -zeta only
           | dsimp +zetaDelta only
           | ((with_reducible apply Within.set_ecc); (case hc => decide))
       clear_value x)
    | intro x
    | lift_lets
    | with_reducible apply Within.ite
    | split
    | dsimp -zeta only
    | dsimp +zetaDelta only
    | ((with_reducible apply Within.set_ecc); (case hc => decide))

theorem execTrackerThreshold_within (n : TrackId) (s : State) (s' : State)
    (h : execTrackerThreshold n s = .next s') :
    Within (.of [.free, .tick, .act, .latch, .irqs, .log, .pm, .events, .ecc, .bus] [.almState, .almStageFail, .eccStatus, .eccLastUe, .eccTrack, .eccCorr, .eccUe, .eccPoison, .eccTrackFull, .busStatus, .busGrants, .logState, .logEvbEntries, .logDropped, .logEvbLost, .logEntries, .sysIntSrc]) s s' := by
  delta execTrackerThreshold at h
  injection h with h
  subst h
  repeat' first
    | with_reducible assumption
    | with_reducible apply Within.refl
    | ((with_reducible apply Within.when); (case' hg => intro _ _))
    | ((with_reducible apply Within.after (State.trackerHard_within ..)); (case hle => decide))
    | ((with_reducible apply Within.after (State.writebackRead_within ..)); (case hle => decide))
    | (intro x
       have hx : Within (.of [.free, .tick, .act, .latch, .irqs, .log, .pm, .events, .ecc, .bus] [.almState, .almStageFail, .eccStatus, .eccLastUe, .eccTrack, .eccCorr, .eccUe, .eccPoison, .eccTrackFull, .busStatus, .busGrants, .logState, .logEvbEntries, .logDropped, .logEvbLost, .logEntries, .sysIntSrc]) s x := by
         dsimp -zeta only [x]
         repeat' first
           | with_reducible assumption
           | with_reducible apply Within.refl
           | ((with_reducible apply Within.when); (case' hg => intro _ _))
           | ((with_reducible apply Within.after (State.trackerHard_within ..)); (case hle => decide))
           | ((with_reducible apply Within.after (State.writebackRead_within ..)); (case hle => decide))
           | with_reducible apply Within.ite
           | split
           | dsimp -zeta only
           | dsimp +zetaDelta only
       clear_value x)
    | intro x
    | lift_lets
    | with_reducible apply Within.ite
    | split
    | dsimp -zeta only
    | dsimp +zetaDelta only

theorem execTrackerWriteback_within (n : TrackId) (s : State) (s' : State)
    (h : execTrackerWriteback n s = .next s') :
    Within (.of [.core, .ecc, .bus] [.eccTrack, .eccWritebacks]) s s' := by
  delta execTrackerWriteback at h
  injection h with h
  subst h
  repeat' first
    | with_reducible assumption
    | with_reducible apply Within.refl
    | ((with_reducible apply Within.after (State.writebackDo_within ..)); (case hle => decide))
    | with_reducible apply Within.ite
    | split
    | dsimp -zeta only
    | ((with_reducible apply Within.set_ecc); (case hc => decide))

theorem execTrackerEntryFree_within (n : TrackId) (s : State) (s' : State)
    (h : execTrackerEntryFree n s = .next s') :
    Within (.of [] [.eccTrack]) s s' := by
  delta execTrackerEntryFree at h
  injection h with h
  subst h
  repeat' first
    | with_reducible assumption
    | with_reducible apply Within.refl
    | ((with_reducible apply Within.setWord); (case hr => first | decide | exact Foot.allRegs_hasReg _ _ | exact Foot.all_hasReg _ | (subst_vars; decide) | ((try dsimp +zetaDelta only); split <;> first | decide | (split <;> first | decide | (split <;> decide)))))
    | ((with_reducible apply Within.when); (case' hg => intro _ _))
    | with_reducible apply Within.ite
    | split
    | dsimp -zeta only

theorem execTestStepStart_within (fails : List (BitVec 32 × Nat)) (s : State) (s' : State)
    (h : execTestStepStart fails s = .next s') :
    Within (.of [.act, .latch, .irqs, .log, .pm, .events, .ecc, .bus] [.eccStatus, .eccTestStatus, .eccTrack, .eccTestFail, .busStatus, .busGrants, .logState, .logEvbEntries, .logDropped, .logEvbLost, .logEntries, .sysIntSrc]) s s' := by
  delta execTestStepStart at h
  injection h with h
  subst h
  repeat' first
    | with_reducible assumption
    | with_reducible apply Within.refl
    | ((with_reducible apply Within.setFlag); (case hr => first | decide | exact Foot.allRegs_hasReg _ _ | exact Foot.all_hasReg _ | (subst_vars; decide) | ((try dsimp +zetaDelta only); split <;> first | decide | (split <;> first | decide | (split <;> decide)))))
    | ((with_reducible apply Within.when); (case' hg => intro _ _))
    | ((with_reducible apply Within.each); (case' hg => intro _ _ _))
    | ((with_reducible apply Within.after (State.testFail_within ..)); (case hle => decide))
    | (intro x
       have hx : Within (.of [.act, .latch, .irqs, .log, .pm, .events, .ecc, .bus] [.eccStatus, .eccTestStatus, .eccTrack, .eccTestFail, .busStatus, .busGrants, .logState, .logEvbEntries, .logDropped, .logEvbLost, .logEntries, .sysIntSrc]) s x := by
         dsimp -zeta only [x]
         repeat' first
           | with_reducible assumption
           | with_reducible apply Within.refl
           | ((with_reducible apply Within.setFlag); (case hr => first | decide | exact Foot.allRegs_hasReg _ _ | exact Foot.all_hasReg _ | (subst_vars; decide) | ((try dsimp +zetaDelta only); split <;> first | decide | (split <;> first | decide | (split <;> decide)))))
           | ((with_reducible apply Within.when); (case' hg => intro _ _))
           | ((with_reducible apply Within.each); (case' hg => intro _ _ _))
           | ((with_reducible apply Within.after (State.testFail_within ..)); (case hle => decide))
           | with_reducible apply Within.ite
           | ((with_reducible apply Within.set_ecc); (case hc => decide))
           | split
           | dsimp -zeta only
           | dsimp +zetaDelta only
       clear_value x)
    | intro x
    | lift_lets
    | with_reducible apply Within.ite
    | ((with_reducible apply Within.set_ecc); (case hc => decide))
    | split
    | dsimp -zeta only
    | dsimp +zetaDelta only

theorem execTestStepEnd_within (s : State) (s' : State)
    (h : execTestStepEnd s = .next s') :
    Within (.of [.ecc] [.eccTestStatus, .eccTestRegions]) s s' := by
  delta execTestStepEnd at h
  injection h with h
  subst h
  repeat' first
    | with_reducible assumption
    | with_reducible apply Within.refl
    | ((with_reducible apply Within.wr); (case hr => first | decide | exact Foot.allRegs_hasReg _ _ | exact Foot.all_hasReg _ | (subst_vars; decide) | ((try dsimp +zetaDelta only); split <;> first | decide | (split <;> first | decide | (split <;> decide)))))
    | ((with_reducible apply Within.setFlag); (case hr => first | decide | exact Foot.allRegs_hasReg _ _ | exact Foot.all_hasReg _ | (subst_vars; decide) | ((try dsimp +zetaDelta only); split <;> first | decide | (split <;> first | decide | (split <;> decide)))))
    | ((with_reducible apply Within.countBy); (case hr => first | decide | exact Foot.allRegs_hasReg _ _ | exact Foot.all_hasReg _ | (subst_vars; decide) | ((try dsimp +zetaDelta only); split <;> first | decide | (split <;> first | decide | (split <;> decide)))))
    | ((with_reducible apply Within.when); (case' hg => intro _ _))
    | (intro x
       have hx : Within (.of [.ecc] [.eccTestStatus, .eccTestRegions]) s x := by
         dsimp -zeta only [x]
         repeat' first
           | with_reducible assumption
           | with_reducible apply Within.refl
           | ((with_reducible apply Within.wr); (case hr => first | decide | exact Foot.allRegs_hasReg _ _ | exact Foot.all_hasReg _ | (subst_vars; decide) | ((try dsimp +zetaDelta only); split <;> first | decide | (split <;> first | decide | (split <;> decide)))))
           | ((with_reducible apply Within.setFlag); (case hr => first | decide | exact Foot.allRegs_hasReg _ _ | exact Foot.all_hasReg _ | (subst_vars; decide) | ((try dsimp +zetaDelta only); split <;> first | decide | (split <;> first | decide | (split <;> decide)))))
           | ((with_reducible apply Within.countBy); (case hr => first | decide | exact Foot.allRegs_hasReg _ _ | exact Foot.all_hasReg _ | (subst_vars; decide) | ((try dsimp +zetaDelta only); split <;> first | decide | (split <;> first | decide | (split <;> decide)))))
           | ((with_reducible apply Within.when); (case' hg => intro _ _))
           | with_reducible apply Within.ite
           | split
           | dsimp -zeta only
           | dsimp +zetaDelta only
           | ((with_reducible apply Within.set_ecc); (case hc => decide))
       clear_value x)
    | intro x
    | lift_lets
    | with_reducible apply Within.ite
    | split
    | dsimp -zeta only
    | dsimp +zetaDelta only
    | ((with_reducible apply Within.set_ecc); (case hc => decide))

theorem execEccTestNow_within (m : Master) (s : State) (s' : State)
    (h : execEccTestNow m s = .next s') :
    Within (.of [.irqs, .pm, .ecc, .bus] [.busErrLast, .busErrResp, .busDefault, .busSplits, .busGrants, .sysIntSrc]) s s' := by
  delta execEccTestNow at h
  injection h with h
  subst h
  repeat' first
    | with_reducible assumption
    | with_reducible apply Within.refl
    | ((with_reducible apply Within.byReg); (case hp => decide); (case hm => decide); (case he => decide); (case' hg => intro _ _))
    | ((with_reducible apply Within.expertOnly); (case he => decide); (case' hg => intro _ _))
    | ((with_reducible apply Within.after (State.testNow_within ..)); (case hle => decide))
    | with_reducible apply Within.ite
    | split
    | dsimp -zeta only

theorem execScrubStart_within (m : Master) (cmd : BitVec 64) (s : State) (s' : State)
    (h : execScrubStart m cmd s = .next s') :
    Within (.of [.irqs, .pm, .ecc, .bus] [.eccScrubCmd, .eccScrubStatus, .eccScrubSum, .eccScrubUe, .busErrLast, .busErrResp, .busDefault, .busSplits, .busGrants, .sysIntSrc]) s s' := by
  delta execScrubStart at h
  injection h with h
  subst h
  repeat' first
    | with_reducible assumption
    | with_reducible apply Within.refl
    | ((with_reducible apply Within.setWord); (case hr => first | decide | exact Foot.allRegs_hasReg _ _ | exact Foot.all_hasReg _ | (subst_vars; decide) | ((try dsimp +zetaDelta only); split <;> first | decide | (split <;> first | decide | (split <;> decide)))))
    | ((with_reducible apply Within.byReg); (case hp => decide); (case hm => decide); (case he => decide); (case' hg => intro _ _))
    | ((with_reducible apply Within.after (State.scrubBegin_within ..)); (case hle => decide))
    | with_reducible apply Within.ite
    | split
    | dsimp -zeta only

theorem execScrubAbort_within (m : Master) (s : State) (s' : State)
    (h : execScrubAbort m s = .next s') :
    Within (.of [.irqs, .pm, .ecc, .bus] [.eccScrubStatus, .busErrLast, .busErrResp, .busDefault, .busSplits, .busGrants, .sysIntSrc]) s s' := by
  delta execScrubAbort at h
  injection h with h
  subst h
  repeat' first
    | with_reducible assumption
    | with_reducible apply Within.refl
    | ((with_reducible apply Within.byReg); (case hp => decide); (case hm => decide); (case he => decide); (case' hg => intro _ _))
    | ((with_reducible apply Within.after (State.scrubAbort_within ..)); (case hle => decide))
    | with_reducible apply Within.ite
    | split
    | dsimp -zeta only

theorem execScrubPassEnd_within (s : State) (s' : State)
    (h : execScrubPassEnd s = .next s') :
    Within (.of [.ecc] [.eccScrubStatus]) s s' := by
  delta execScrubPassEnd at h
  injection h with h
  subst h
  repeat' first
    | with_reducible assumption
    | with_reducible apply Within.refl
    | ((with_reducible apply Within.when); (case' hg => intro _ _))
    | ((with_reducible apply Within.after (State.scrubFinish_within ..)); (case hle => decide))
    | with_reducible apply Within.ite
    | split
    | dsimp -zeta only

theorem execFuseBurn_within (m : Master) (entry : BitVec 32) (s : State) (s' : State)
    (h : execFuseBurn m entry s = .next s') :
    Within (.of [.irqs, .pm, .ecc, .bus] [.eccFuseCmd, .eccFuseStatus, .busErrLast, .busErrResp, .busDefault, .busSplits, .busGrants, .sysIntSrc]) s s' := by
  delta execFuseBurn at h
  injection h with h
  subst h
  repeat' first
    | with_reducible assumption
    | with_reducible apply Within.refl
    | ((with_reducible apply Within.wr); (case hr => first | decide | exact Foot.allRegs_hasReg _ _ | exact Foot.all_hasReg _ | (subst_vars; decide) | ((try dsimp +zetaDelta only); split <;> first | decide | (split <;> first | decide | (split <;> decide)))))
    | ((with_reducible apply Within.byReg); (case hp => decide); (case hm => decide); (case he => decide); (case' hg => intro _ _))
    | ((with_reducible apply Within.expertOnly); (case he => decide); (case' hg => intro _ _))
    | ((with_reducible apply Within.after (State.fuseBurn_within ..)); (case hle => decide))
    | with_reducible apply Within.ite
    | split
    | dsimp -zeta only

theorem execFuseBurnDone_within (readBack : BitVec 32) (s : State) (s' : State)
    (h : execFuseBurnDone readBack s = .next s') :
    Within (.of [.log, .pm, .events, .fieldMap, .ecc, .bus] [.eccFuseStatus, .busGrants, .logState, .logEvbEntries, .logDropped, .logEvbLost, .logEntries, .sysIntSrc]) s s' := by
  delta execFuseBurnDone at h
  injection h with h
  subst h
  repeat' first
    | with_reducible assumption
    | with_reducible apply Within.refl
    | ((with_reducible apply Within.wr); (case hr => first | decide | exact Foot.allRegs_hasReg _ _ | exact Foot.all_hasReg _ | (subst_vars; decide) | ((try dsimp +zetaDelta only); split <;> first | decide | (split <;> first | decide | (split <;> decide)))))
    | ((with_reducible apply Within.setFlag); (case hr => first | decide | exact Foot.allRegs_hasReg _ _ | exact Foot.all_hasReg _ | (subst_vars; decide) | ((try dsimp +zetaDelta only); split <;> first | decide | (split <;> first | decide | (split <;> decide)))))
    | ((with_reducible apply Within.after (State.fuseSet_within ..)); (case hle => decide))
    | ((with_reducible apply Within.after (State.logEvent_within ..)); (case hle => decide))
    | (intro x
       have hx : Within (.of [.log, .pm, .events, .fieldMap, .ecc, .bus] [.eccFuseStatus, .busGrants, .logState, .logEvbEntries, .logDropped, .logEvbLost, .logEntries, .sysIntSrc]) s x := by
         dsimp -zeta only [x]
         repeat' first
           | with_reducible assumption
           | with_reducible apply Within.refl
           | ((with_reducible apply Within.wr); (case hr => first | decide | exact Foot.allRegs_hasReg _ _ | exact Foot.all_hasReg _ | (subst_vars; decide) | ((try dsimp +zetaDelta only); split <;> first | decide | (split <;> first | decide | (split <;> decide)))))
           | ((with_reducible apply Within.setFlag); (case hr => first | decide | exact Foot.allRegs_hasReg _ _ | exact Foot.all_hasReg _ | (subst_vars; decide) | ((try dsimp +zetaDelta only); split <;> first | decide | (split <;> first | decide | (split <;> decide)))))
           | ((with_reducible apply Within.after (State.fuseSet_within ..)); (case hle => decide))
           | ((with_reducible apply Within.after (State.logEvent_within ..)); (case hle => decide))
           | with_reducible apply Within.ite
           | split
           | dsimp -zeta only
           | dsimp +zetaDelta only
           | ((with_reducible apply Within.set_ecc); (case hc => decide))
       clear_value x)
    | intro x
    | lift_lets
    | with_reducible apply Within.ite
    | split
    | dsimp -zeta only
    | dsimp +zetaDelta only
    | ((with_reducible apply Within.set_ecc); (case hc => decide))

theorem execHbmRepairGo_within (m : Master) (cand : CandId) (s : State) (s' : State)
    (h : execHbmRepairGo m cand s = .next s') :
    Within (.of [.irqs, .pm, .ecc, .bus] [.hbmRepairCmd, .hbmRepairStatus, .busErrLast, .busErrResp, .busDefault, .busSplits, .busGrants, .sysIntSrc]) s s' := by
  delta execHbmRepairGo at h
  injection h with h
  subst h
  repeat' first
    | with_reducible assumption
    | with_reducible apply Within.refl
    | ((with_reducible apply Within.wr); (case hr => first | decide | exact Foot.allRegs_hasReg _ _ | exact Foot.all_hasReg _ | (subst_vars; decide) | ((try dsimp +zetaDelta only); split <;> first | decide | (split <;> first | decide | (split <;> decide)))))
    | ((with_reducible apply Within.byReg); (case hp => decide); (case hm => decide); (case he => decide); (case' hg => intro _ _))
    | ((with_reducible apply Within.expertOnly); (case he => decide); (case' hg => intro _ _))
    | ((with_reducible apply Within.after (State.hbmRepair_within ..)); (case hle => decide))
    | with_reducible apply Within.ite
    | split
    | dsimp -zeta only

theorem execHbmRepairDone_within (res : RepairResult) (s : State) (s' : State)
    (h : execHbmRepairDone res s = .next s') :
    Within (.of [.log, .pm, .events, .ecc, .bus] [.hbmRepairStatus, .hbmCand, .busGrants, .logState, .logEvbEntries, .logDropped, .logEvbLost, .logEntries, .sysIntSrc]) s s' := by
  delta execHbmRepairDone at h
  injection h with h
  subst h
  repeat' first
    | with_reducible assumption
    | with_reducible apply Within.refl
    | ((with_reducible apply Within.wr); (case hr => first | decide | exact Foot.allRegs_hasReg _ _ | exact Foot.all_hasReg _ | (subst_vars; decide) | ((try dsimp +zetaDelta only); split <;> first | decide | (split <;> first | decide | (split <;> decide)))))
    | ((with_reducible apply Within.setFlag); (case hr => first | decide | exact Foot.allRegs_hasReg _ _ | exact Foot.all_hasReg _ | (subst_vars; decide) | ((try dsimp +zetaDelta only); split <;> first | decide | (split <;> first | decide | (split <;> decide)))))
    | ((with_reducible apply Within.when); (case' hg => intro _ _))
    | ((with_reducible apply Within.after (State.logEvent_within ..)); (case hle => decide))
    | (intro x
       have hx : Within (.of [.log, .pm, .events, .ecc, .bus] [.hbmRepairStatus, .hbmCand, .busGrants, .logState, .logEvbEntries, .logDropped, .logEvbLost, .logEntries, .sysIntSrc]) s x := by
         dsimp -zeta only [x]
         repeat' first
           | with_reducible assumption
           | with_reducible apply Within.refl
           | ((with_reducible apply Within.wr); (case hr => first | decide | exact Foot.allRegs_hasReg _ _ | exact Foot.all_hasReg _ | (subst_vars; decide) | ((try dsimp +zetaDelta only); split <;> first | decide | (split <;> first | decide | (split <;> decide)))))
           | ((with_reducible apply Within.setFlag); (case hr => first | decide | exact Foot.allRegs_hasReg _ _ | exact Foot.all_hasReg _ | (subst_vars; decide) | ((try dsimp +zetaDelta only); split <;> first | decide | (split <;> first | decide | (split <;> decide)))))
           | ((with_reducible apply Within.when); (case' hg => intro _ _))
           | ((with_reducible apply Within.after (State.logEvent_within ..)); (case hle => decide))
           | with_reducible apply Within.ite
           | split
           | dsimp -zeta only
           | dsimp +zetaDelta only
           | ((with_reducible apply Within.set_ecc); (case hc => decide))
       clear_value x)
    | intro x
    | lift_lets
    | with_reducible apply Within.ite
    | split
    | dsimp -zeta only
    | dsimp +zetaDelta only
    | ((with_reducible apply Within.set_ecc); (case hc => decide))

theorem execHbmEcsRead_within (counts : List Nat) (s : State) (s' : State)
    (h : execHbmEcsRead counts s = .next s') :
    Within (.of [.ecc] [.hbmEcs]) s s' := by
  delta execHbmEcsRead at h
  injection h with h
  subst h
  repeat' first
    | with_reducible assumption
    | with_reducible apply Within.refl
    | ((with_reducible apply Within.countBy); (case hr => first | decide | exact Foot.allRegs_hasReg _ _ | exact Foot.all_hasReg _ | (subst_vars; decide) | ((try dsimp +zetaDelta only); split <;> first | decide | (split <;> first | decide | (split <;> decide)))))
    | ((with_reducible apply Within.when); (case' hg => intro _ _))
    | ((with_reducible apply Within.eachN); (case' hg => intro _ _ _))
    | (intro x
       have hx : Within (.of [.ecc] [.hbmEcs]) s x := by
         dsimp -zeta only [x]
         repeat' first
           | with_reducible assumption
           | with_reducible apply Within.refl
           | ((with_reducible apply Within.countBy); (case hr => first | decide | exact Foot.allRegs_hasReg _ _ | exact Foot.all_hasReg _ | (subst_vars; decide) | ((try dsimp +zetaDelta only); split <;> first | decide | (split <;> first | decide | (split <;> decide)))))
           | ((with_reducible apply Within.when); (case' hg => intro _ _))
           | ((with_reducible apply Within.eachN); (case' hg => intro _ _ _))
           | with_reducible apply Within.ite
           | ((with_reducible apply Within.set_ecc); (case hc => decide))
           | split
           | dsimp -zeta only
           | dsimp +zetaDelta only
       clear_value x)
    | intro x
    | lift_lets
    | with_reducible apply Within.ite
    | ((with_reducible apply Within.set_ecc); (case hc => decide))
    | split
    | dsimp -zeta only
    | dsimp +zetaDelta only

theorem execEccUeClear_within (m : Master) (s : State) (s' : State)
    (h : execEccUeClear m s = .next s') :
    Within (.of [.act, .irqs, .log, .pm, .events, .bus] [.eccStatus, .busStatus, .busErrLast, .busErrResp, .busDefault, .busSplits, .busGrants, .logState, .logEvbEntries, .logDropped, .logEvbLost, .logEntries, .sysIntSrc]) s s' := by
  delta execEccUeClear at h
  injection h with h
  subst h
  repeat' first
    | with_reducible assumption
    | with_reducible apply Within.refl
    | ((with_reducible apply Within.setFlag); (case hr => first | decide | exact Foot.allRegs_hasReg _ _ | exact Foot.all_hasReg _ | (subst_vars; decide) | ((try dsimp +zetaDelta only); split <;> first | decide | (split <;> first | decide | (split <;> decide)))))
    | ((with_reducible apply Within.byReg); (case hp => decide); (case hm => decide); (case he => decide); (case' hg => intro _ _))
    | ((with_reducible apply Within.after (State.clear_within ..)); (case hle => decide))
    | with_reducible apply Within.ite
    | split
    | dsimp -zeta only

theorem execEccHardClear_within (m : Master) (s : State) (s' : State)
    (h : execEccHardClear m s = .next s') :
    Within (.of [.act, .irqs, .log, .pm, .events, .bus] [.eccStatus, .busStatus, .busErrLast, .busErrResp, .busDefault, .busSplits, .busGrants, .logState, .logEvbEntries, .logDropped, .logEvbLost, .logEntries, .sysIntSrc]) s s' := by
  delta execEccHardClear at h
  injection h with h
  subst h
  repeat' first
    | with_reducible assumption
    | with_reducible apply Within.refl
    | ((with_reducible apply Within.setFlag); (case hr => first | decide | exact Foot.allRegs_hasReg _ _ | exact Foot.all_hasReg _ | (subst_vars; decide) | ((try dsimp +zetaDelta only); split <;> first | decide | (split <;> first | decide | (split <;> decide)))))
    | ((with_reducible apply Within.byReg); (case hp => decide); (case hm => decide); (case he => decide); (case' hg => intro _ _))
    | ((with_reducible apply Within.after (State.clear_within ..)); (case hle => decide))
    | with_reducible apply Within.ite
    | split
    | dsimp -zeta only

theorem execEccTestFailClear_within (m : Master) (s : State) (s' : State)
    (h : execEccTestFailClear m s = .next s') :
    Within (.of [.act, .irqs, .log, .pm, .events, .bus] [.eccStatus, .busStatus, .busErrLast, .busErrResp, .busDefault, .busSplits, .busGrants, .logState, .logEvbEntries, .logDropped, .logEvbLost, .logEntries, .sysIntSrc]) s s' := by
  delta execEccTestFailClear at h
  injection h with h
  subst h
  repeat' first
    | with_reducible assumption
    | with_reducible apply Within.refl
    | ((with_reducible apply Within.setFlag); (case hr => first | decide | exact Foot.allRegs_hasReg _ _ | exact Foot.all_hasReg _ | (subst_vars; decide) | ((try dsimp +zetaDelta only); split <;> first | decide | (split <;> first | decide | (split <;> decide)))))
    | ((with_reducible apply Within.byReg); (case hp => decide); (case hm => decide); (case he => decide); (case' hg => intro _ _))
    | ((with_reducible apply Within.after (State.clear_within ..)); (case hle => decide))
    | with_reducible apply Within.ite
    | split
    | dsimp -zeta only

theorem execEccTrackFullClear_within (m : Master) (s : State) (s' : State)
    (h : execEccTrackFullClear m s = .next s') :
    Within (.of [.act, .irqs, .log, .pm, .events, .bus] [.eccStatus, .busStatus, .busErrLast, .busErrResp, .busDefault, .busSplits, .busGrants, .logState, .logEvbEntries, .logDropped, .logEvbLost, .logEntries, .sysIntSrc]) s s' := by
  delta execEccTrackFullClear at h
  injection h with h
  subst h
  repeat' first
    | with_reducible assumption
    | with_reducible apply Within.refl
    | ((with_reducible apply Within.setFlag); (case hr => first | decide | exact Foot.allRegs_hasReg _ _ | exact Foot.all_hasReg _ | (subst_vars; decide) | ((try dsimp +zetaDelta only); split <;> first | decide | (split <;> first | decide | (split <;> decide)))))
    | ((with_reducible apply Within.byReg); (case hp => decide); (case hm => decide); (case he => decide); (case' hg => intro _ _))
    | ((with_reducible apply Within.after (State.clear_within ..)); (case hle => decide))
    | with_reducible apply Within.ite
    | split
    | dsimp -zeta only

theorem execTrimLostClear_within (m : Master) (s : State) (s' : State)
    (h : execTrimLostClear m s = .next s') :
    Within (.of [.act, .irqs, .log, .pm, .events, .bus] [.eccStatus, .busStatus, .busErrLast, .busErrResp, .busDefault, .busSplits, .busGrants, .logState, .logEvbEntries, .logDropped, .logEvbLost, .logEntries, .sysIntSrc]) s s' := by
  delta execTrimLostClear at h
  injection h with h
  subst h
  repeat' first
    | with_reducible assumption
    | with_reducible apply Within.refl
    | ((with_reducible apply Within.setFlag); (case hr => first | decide | exact Foot.allRegs_hasReg _ _ | exact Foot.all_hasReg _ | (subst_vars; decide) | ((try dsimp +zetaDelta only); split <;> first | decide | (split <;> first | decide | (split <;> decide)))))
    | ((with_reducible apply Within.byReg); (case hp => decide); (case hm => decide); (case he => decide); (case' hg => intro _ _))
    | ((with_reducible apply Within.after (State.clear_within ..)); (case hle => decide))
    | with_reducible apply Within.ite
    | split
    | dsimp -zeta only

end Sys2Proof.Machine
end

