-- ==== Sys2Proof/Laws/Footprint/Stacks.lean ====
section
/-! SUPPORT. What each operation of Machine/Stacks.lean may touch. -/

namespace Sys2Proof.Machine

theorem State.stackWipe_within (s : State) (k : Nat) :
    Within (.of [.lag, .events, .hbm] []) s (State.stackWipe s k) := by
  unfold State.stackWipe
  exact Within.set_lag (x := { s with hbm := s.hbm.filter fun e => !(decide (stackBase k ≤ e.1) && decide (e.1 < stackBase k + 0x600000000)) })
    (Within.set_hbm_any (.refl _ s) (by decide) (by decide) (fun h => Tbl.wf_filter (d := (0 : Byte)) _ h)) (by decide)

theorem State.loseStack_within (s : State) (k : Nat) :
    Within (.of [.links, .lag, .act, .latch, .irqs, .log, .pm, .events, .alm, .bus] [.lagState, .lagStackLoss, .almState, .almSlotStatus, .almStageFail, .busStatus, .busGrants, .logState, .logEvbEntries, .logDropped, .logEvbLost, .logEntries, .hbmState, .sysIntSrc]) s (State.loseStack s k) := by
  delta State.loseStack
  repeat' first
    | with_reducible assumption
    | with_reducible apply Within.refl
    | ((with_reducible apply Within.wrBit); (case hr => first | decide | exact Foot.allRegs_hasReg _ _ | exact Foot.all_hasReg _ | (subst_vars; decide) | ((try dsimp +zetaDelta only); split <;> first | decide | (split <;> first | decide | (split <;> decide)))))
    | ((with_reducible apply Within.count); (case hr => first | decide | exact Foot.allRegs_hasReg _ _ | exact Foot.all_hasReg _ | (subst_vars; decide) | ((try dsimp +zetaDelta only); split <;> first | decide | (split <;> first | decide | (split <;> decide)))))
    | ((with_reducible apply Within.each); (case' hg => intro _ _ _))
    | ((with_reducible apply Within.after (State.unwrite_within ..)); (case hle => decide))
    | ((with_reducible apply Within.after (State.evbLose_within ..)); (case hle => decide))
    | ((with_reducible apply Within.after (State.almStackLost_within ..)); (case hle => decide))
    | ((with_reducible apply Within.after (State.logEvent_within ..)); (case hle => decide))
    | ((with_reducible apply Within.after (State.raise_within ..)); (case hle => decide))
    | (intro x
       have hx : Within (.of [.links, .lag, .act, .latch, .irqs, .log, .pm, .events, .alm, .bus] [.lagState, .lagStackLoss, .almState, .almSlotStatus, .almStageFail, .busStatus, .busGrants, .logState, .logEvbEntries, .logDropped, .logEvbLost, .logEntries, .hbmState, .sysIntSrc]) s x := by
         dsimp -zeta only [x]
         repeat' first
           | with_reducible assumption
           | with_reducible apply Within.refl
           | ((with_reducible apply Within.wrBit); (case hr => first | decide | exact Foot.allRegs_hasReg _ _ | exact Foot.all_hasReg _ | (subst_vars; decide) | ((try dsimp +zetaDelta only); split <;> first | decide | (split <;> first | decide | (split <;> decide)))))
           | ((with_reducible apply Within.count); (case hr => first | decide | exact Foot.allRegs_hasReg _ _ | exact Foot.all_hasReg _ | (subst_vars; decide) | ((try dsimp +zetaDelta only); split <;> first | decide | (split <;> first | decide | (split <;> decide)))))
           | ((with_reducible apply Within.each); (case' hg => intro _ _ _))
           | ((with_reducible apply Within.after (State.unwrite_within ..)); (case hle => decide))
           | ((with_reducible apply Within.after (State.evbLose_within ..)); (case hle => decide))
           | ((with_reducible apply Within.after (State.almStackLost_within ..)); (case hle => decide))
           | ((with_reducible apply Within.after (State.logEvent_within ..)); (case hle => decide))
           | ((with_reducible apply Within.after (State.raise_within ..)); (case hle => decide))
           | with_reducible apply Within.ite
           | ((with_reducible apply Within.set_lag); (case hc => decide))
           | split
           | dsimp -zeta only
           | dsimp +zetaDelta only
       clear_value x)
    | intro x
    | lift_lets
    | with_reducible apply Within.ite
    | ((with_reducible apply Within.set_lag); (case hc => decide))
    | split
    | dsimp -zeta only
    | dsimp +zetaDelta only

theorem State.stackOff_within (s : State) (mask : Nat) :
    Within (.of [.links, .lag, .act, .latch, .irqs, .log, .pm, .events, .alm, .bus] [.lagState, .lagStackLoss, .almState, .almSlotStatus, .almStageFail, .busStatus, .busGrants, .logState, .logEvbEntries, .logDropped, .logEvbLost, .logEntries, .hbmState, .sysIntSrc]) s (State.stackOff s mask) := by
  delta State.stackOff
  repeat' first
    | with_reducible assumption
    | with_reducible apply Within.refl
    | ((with_reducible apply Within.eachN); (case' hg => intro _ _ _))
    | ((with_reducible apply Within.when); (case' hg => intro _ _))
    | ((with_reducible apply Within.after (State.loseStack_within ..)); (case hle => decide))
    | with_reducible apply Within.ite
    | split
    | dsimp -zeta only

theorem State.stackRestore_within (s : State) (mask : Nat) :
    Within (.of [.boot] [.lagState, .sysFuncState, .sysFuncStarts]) s (State.stackRestore s mask) := by
  delta State.stackRestore
  repeat' first
    | with_reducible assumption
    | with_reducible apply Within.refl
    | ((with_reducible apply Within.setFlag); (case hr => first | decide | exact Foot.allRegs_hasReg _ _ | exact Foot.all_hasReg _ | (subst_vars; decide) | ((try dsimp +zetaDelta only); split <;> first | decide | (split <;> first | decide | (split <;> decide)))))
    | ((with_reducible apply Within.wrBit); (case hr => first | decide | exact Foot.allRegs_hasReg _ _ | exact Foot.all_hasReg _ | (subst_vars; decide) | ((try dsimp +zetaDelta only); split <;> first | decide | (split <;> first | decide | (split <;> decide)))))
    | ((with_reducible apply Within.eachN); (case' hg => intro _ _ _))
    | ((with_reducible apply Within.after (State.funcEnable_within ..)); (case hle => decide))
    | ((with_reducible apply Within.after (State.funcWant_within ..)); (case hle => decide))
    | (intro x
       have hx : Within (.of [.boot] [.lagState, .sysFuncState, .sysFuncStarts]) s x := by
         dsimp -zeta only [x]
         repeat' first
           | with_reducible assumption
           | with_reducible apply Within.refl
           | ((with_reducible apply Within.setFlag); (case hr => first | decide | exact Foot.allRegs_hasReg _ _ | exact Foot.all_hasReg _ | (subst_vars; decide) | ((try dsimp +zetaDelta only); split <;> first | decide | (split <;> first | decide | (split <;> decide)))))
           | ((with_reducible apply Within.wrBit); (case hr => first | decide | exact Foot.allRegs_hasReg _ _ | exact Foot.all_hasReg _ | (subst_vars; decide) | ((try dsimp +zetaDelta only); split <;> first | decide | (split <;> first | decide | (split <;> decide)))))
           | ((with_reducible apply Within.eachN); (case' hg => intro _ _ _))
           | ((with_reducible apply Within.after (State.funcEnable_within ..)); (case hle => decide))
           | ((with_reducible apply Within.after (State.funcWant_within ..)); (case hle => decide))
           | with_reducible apply Within.ite
           | split
           | dsimp -zeta only
           | dsimp +zetaDelta only
       clear_value x)
    | intro x
    | lift_lets
    | with_reducible apply Within.ite
    | split
    | dsimp -zeta only
    | dsimp +zetaDelta only

theorem State.stackRestored_within (s : State) (k : Nat) :
    Within (.of [.links, .lag, .act, .irqs, .log, .pm, .events, .hbm, .bus] [.lagState, .lagLinkState, .almSlotStatus, .busStatus, .busGrants, .logState, .logEvbEntries, .logDropped, .logEvbLost, .logEntries, .hbmState, .sysIntSrc]) s (State.stackRestored s k) := by
  delta State.stackRestored
  repeat' first
    | with_reducible assumption
    | with_reducible apply Within.refl
    | ((with_reducible apply Within.setFlag); (case hr => first | decide | exact Foot.allRegs_hasReg _ _ | exact Foot.all_hasReg _ | (subst_vars; decide) | ((try dsimp +zetaDelta only); split <;> first | decide | (split <;> first | decide | (split <;> decide)))))
    | ((with_reducible apply Within.wrBit); (case hr => first | decide | exact Foot.allRegs_hasReg _ _ | exact Foot.all_hasReg _ | (subst_vars; decide) | ((try dsimp +zetaDelta only); split <;> first | decide | (split <;> first | decide | (split <;> decide)))))
    | ((with_reducible apply Within.each); (case' hg => intro _ _ _))
    | ((with_reducible apply Within.after (State.unwrite_within ..)); (case hle => decide))
    | ((with_reducible apply Within.after (State.descClear_within ..)); (case hle => decide))
    | ((with_reducible apply Within.after (State.setLagLink_within ..)); (case hle => decide))
    | ((with_reducible apply Within.after (State.clear_within ..)); (case hle => decide))
    | ((with_reducible apply Within.after (State.logEvent_within ..)); (case hle => decide))
    | ((with_reducible apply Within.after (State.almStackRestored_within ..)); (case hle => decide))
    | (intro x
       have hx : Within (.of [.links, .lag, .act, .irqs, .log, .pm, .events, .hbm, .bus] [.lagState, .lagLinkState, .almSlotStatus, .busStatus, .busGrants, .logState, .logEvbEntries, .logDropped, .logEvbLost, .logEntries, .hbmState, .sysIntSrc]) s x := by
         dsimp -zeta only [x]
         repeat' first
           | with_reducible assumption
           | with_reducible apply Within.refl
           | ((with_reducible apply Within.setFlag); (case hr => first | decide | exact Foot.allRegs_hasReg _ _ | exact Foot.all_hasReg _ | (subst_vars; decide) | ((try dsimp +zetaDelta only); split <;> first | decide | (split <;> first | decide | (split <;> decide)))))
           | ((with_reducible apply Within.wrBit); (case hr => first | decide | exact Foot.allRegs_hasReg _ _ | exact Foot.all_hasReg _ | (subst_vars; decide) | ((try dsimp +zetaDelta only); split <;> first | decide | (split <;> first | decide | (split <;> decide)))))
           | ((with_reducible apply Within.each); (case' hg => intro _ _ _))
           | ((with_reducible apply Within.after (State.unwrite_within ..)); (case hle => decide))
           | ((with_reducible apply Within.after (State.descClear_within ..)); (case hle => decide))
           | ((with_reducible apply Within.after (State.setLagLink_within ..)); (case hle => decide))
           | ((with_reducible apply Within.after (State.clear_within ..)); (case hle => decide))
           | ((with_reducible apply Within.after (State.logEvent_within ..)); (case hle => decide))
           | ((with_reducible apply Within.after (State.almStackRestored_within ..)); (case hle => decide))
           | with_reducible apply Within.ite
           | ((with_reducible apply Within.set_lag); (case hc => decide))
           | split
           | dsimp -zeta only
           | dsimp +zetaDelta only
       clear_value x)
    | intro x
    | lift_lets
    | with_reducible apply Within.ite
    | ((with_reducible apply Within.set_lag); (case hc => decide))
    | split
    | dsimp -zeta only
    | dsimp +zetaDelta only

theorem execHbmInitDone_within (k : StackId) (ok : Bool) (s : State) (s' : State)
    (h : execHbmInitDone k ok s = .next s') :
    Within (.of [.links, .lag, .act, .latch, .irqs, .log, .pm, .events, .boot, .alm, .bus] [.lagState, .lagStackLoss, .almState, .almSlotStatus, .almStageFail, .busStatus, .busGrants, .logState, .logEvbBase, .logEvbEntries, .logDropped, .logEvbLost, .logEntries, .hbmState, .sysIntSrc]) s s' := by
  delta execHbmInitDone at h
  injection h with h
  subst h
  repeat' first
    | with_reducible assumption
    | with_reducible apply Within.refl
    | ((with_reducible apply Within.wrBit); (case hr => first | decide | exact Foot.allRegs_hasReg _ _ | exact Foot.all_hasReg _ | (subst_vars; decide) | ((try dsimp +zetaDelta only); split <;> first | decide | (split <;> first | decide | (split <;> decide)))))
    | ((with_reducible apply Within.when); (case' hg => intro _ _))
    | ((with_reducible apply Within.after (State.loseStack_within ..)); (case hle => decide))
    | ((with_reducible apply Within.after (State.evbOpen_within ..)); (case hle => decide))
    | (intro x
       have hx : Within (.of [.links, .lag, .act, .latch, .irqs, .log, .pm, .events, .boot, .alm, .bus] [.lagState, .lagStackLoss, .almState, .almSlotStatus, .almStageFail, .busStatus, .busGrants, .logState, .logEvbBase, .logEvbEntries, .logDropped, .logEvbLost, .logEntries, .hbmState, .sysIntSrc]) s x := by
         dsimp -zeta only [x]
         repeat' first
           | with_reducible assumption
           | with_reducible apply Within.refl
           | ((with_reducible apply Within.wrBit); (case hr => first | decide | exact Foot.allRegs_hasReg _ _ | exact Foot.all_hasReg _ | (subst_vars; decide) | ((try dsimp +zetaDelta only); split <;> first | decide | (split <;> first | decide | (split <;> decide)))))
           | ((with_reducible apply Within.when); (case' hg => intro _ _))
           | ((with_reducible apply Within.after (State.loseStack_within ..)); (case hle => decide))
           | ((with_reducible apply Within.after (State.evbOpen_within ..)); (case hle => decide))
           | with_reducible apply Within.ite
           | ((with_reducible apply Within.set_boot); (case hc => decide))
           | split
           | dsimp -zeta only
           | dsimp +zetaDelta only
       clear_value x)
    | intro x
    | lift_lets
    | with_reducible apply Within.ite
    | ((with_reducible apply Within.set_boot); (case hc => decide))
    | split
    | dsimp -zeta only
    | dsimp +zetaDelta only

theorem execHbmTempTrip_within (k : StackId) (s : State) (s' : State)
    (h : execHbmTempTrip k s = .next s') :
    Within (.of [.links, .lag, .act, .latch, .irqs, .log, .pm, .events, .alm, .bus] [.lagState, .lagStackLoss, .almState, .almSlotStatus, .almStageFail, .busStatus, .busGrants, .logState, .logEvbEntries, .logDropped, .logEvbLost, .logEntries, .hbmState, .sysIntSrc]) s s' := by
  delta execHbmTempTrip at h
  injection h with h
  subst h
  repeat' first
    | with_reducible assumption
    | with_reducible apply Within.refl
    | ((with_reducible apply Within.after (State.loseStack_within ..)); (case hle => decide))
    | with_reducible apply Within.ite
    | split
    | dsimp -zeta only

theorem execHbmTemperatureReport_within (k : StackId) (hot : Bool) (s : State) (s' : State)
    (h : execHbmTemperatureReport k hot s = .next s') :
    Within (.of [.links, .lag, .act, .latch, .irqs, .log, .pm, .events, .alm, .bus] [.lagState, .lagStackLoss, .almState, .almSlotStatus, .almStageFail, .busStatus, .busGrants, .logState, .logEvbEntries, .logDropped, .logEvbLost, .logEntries, .hbmState, .sysIntSrc]) s s' := by
  delta execHbmTemperatureReport at h
  injection h with h
  subst h
  repeat' first
    | with_reducible assumption
    | with_reducible apply Within.refl
    | ((with_reducible apply Within.when); (case' hg => intro _ _))
    | ((with_reducible apply Within.after (State.loseStack_within ..)); (case hle => decide))
    | with_reducible apply Within.ite
    | split
    | dsimp -zeta only

theorem execStackUeLoss_within (k : StackId) (s : State) (s' : State)
    (h : execStackUeLoss k s = .next s') :
    Within (.of [.tick, .links, .lag, .act, .latch, .irqs, .log, .pm, .events, .alm, .bus] [.lagState, .lagStackLoss, .almState, .almSlotStatus, .almStageFail, .busStatus, .busGrants, .logState, .logEvbEntries, .logDropped, .logEvbLost, .logEntries, .hbmState, .sysIntSrc]) s s' := by
  delta execStackUeLoss at h
  injection h with h
  subst h
  repeat' first
    | with_reducible assumption
    | with_reducible apply Within.refl
    | ((with_reducible apply Within.when); (case' hg => intro _ _))
    | ((with_reducible apply Within.atEnd); (case hc => decide); (case' hg => intro _ _))
    | ((with_reducible apply Within.after (State.loseStack_within ..)); (case hle => decide))
    | with_reducible apply Within.ite
    | split
    | dsimp -zeta only

theorem execLagStackOff_within (m : Master) (mask : BitVec 4) (s : State) (s' : State)
    (h : execLagStackOff m mask s = .next s') :
    Within (.of [.links, .lag, .act, .latch, .irqs, .log, .pm, .events, .alm, .bus] [.lagState, .lagStackLoss, .almState, .almSlotStatus, .almStageFail, .busStatus, .busErrLast, .busErrResp, .busDefault, .busSplits, .busGrants, .logState, .logEvbEntries, .logDropped, .logEvbLost, .logEntries, .hbmState, .sysIntSrc]) s s' := by
  delta execLagStackOff at h
  injection h with h
  subst h
  repeat' first
    | with_reducible assumption
    | with_reducible apply Within.refl
    | ((with_reducible apply Within.byReg); (case hp => decide); (case hm => decide); (case he => decide); (case' hg => intro _ _))
    | ((with_reducible apply Within.expertOnly); (case he => decide); (case' hg => intro _ _))
    | ((with_reducible apply Within.after (State.stackOff_within ..)); (case hle => decide))
    | with_reducible apply Within.ite
    | split
    | dsimp -zeta only

theorem execStackFallbackEntry_within (k : StackId) (s : State) (s' : State)
    (h : execStackFallbackEntry k s = .next s') :
    Within (.of [.links, .lag, .act, .latch, .irqs, .log, .pm, .events, .hbm, .bus] [.lagState, .lagLinkState, .busStatus, .busGrants, .logState, .logEvbEntries, .logDropped, .logEvbLost, .logEntries, .sysIntSrc]) s s' := by
  delta execStackFallbackEntry at h
  injection h with h
  subst h
  repeat' first
    | with_reducible assumption
    | with_reducible apply Within.refl
    | ((with_reducible apply Within.when); (case' hg => intro _ _))
    | ((with_reducible apply Within.each); (case' hg => intro _ _ _))
    | ((with_reducible apply Within.after (State.stackWipe_within ..)); (case hle => decide))
    | ((with_reducible apply Within.after (State.fbEnd_within ..)); (case hle => decide))
    | ((with_reducible apply Within.after (State.setLagLink_within ..)); (case hle => decide))
    | ((with_reducible apply Within.after (State.fbEnter_within ..)); (case hle => decide))
    | (intro x
       have hx : Within (.of [.links, .lag, .act, .latch, .irqs, .log, .pm, .events, .hbm, .bus] [.lagState, .lagLinkState, .busStatus, .busGrants, .logState, .logEvbEntries, .logDropped, .logEvbLost, .logEntries, .sysIntSrc]) s x := by
         dsimp -zeta only [x]
         repeat' first
           | with_reducible assumption
           | with_reducible apply Within.refl
           | ((with_reducible apply Within.when); (case' hg => intro _ _))
           | ((with_reducible apply Within.each); (case' hg => intro _ _ _))
           | ((with_reducible apply Within.after (State.stackWipe_within ..)); (case hle => decide))
           | ((with_reducible apply Within.after (State.fbEnd_within ..)); (case hle => decide))
           | ((with_reducible apply Within.after (State.setLagLink_within ..)); (case hle => decide))
           | ((with_reducible apply Within.after (State.fbEnter_within ..)); (case hle => decide))
           | with_reducible apply Within.ite
           | split
           | dsimp -zeta only
           | dsimp +zetaDelta only
           | ((with_reducible apply Within.set_lag); (case hc => decide))
       clear_value x)
    | intro x
    | lift_lets
    | with_reducible apply Within.ite
    | split
    | dsimp -zeta only
    | dsimp +zetaDelta only
    | ((with_reducible apply Within.set_lag); (case hc => decide))

theorem execLagStackRestore_within (m : Master) (mask : BitVec 4) (s : State) (s' : State)
    (h : execLagStackRestore m mask s = .next s') :
    Within (.of [.irqs, .pm, .boot, .bus] [.lagState, .busErrLast, .busErrResp, .busDefault, .busSplits, .busGrants, .sysFuncState, .sysFuncStarts, .sysIntSrc]) s s' := by
  delta execLagStackRestore at h
  injection h with h
  subst h
  repeat' first
    | with_reducible assumption
    | with_reducible apply Within.refl
    | ((with_reducible apply Within.byReg); (case hp => decide); (case hm => decide); (case he => decide); (case' hg => intro _ _))
    | ((with_reducible apply Within.expertOnly); (case he => decide); (case' hg => intro _ _))
    | ((with_reducible apply Within.after (State.stackRestore_within ..)); (case hle => decide))
    | with_reducible apply Within.ite
    | split
    | dsimp -zeta only

theorem execStackRestoreDone_within (k : StackId) (s : State) (s' : State)
    (h : execStackRestoreDone k s = .next s') :
    Within (.of [.links, .lag, .act, .irqs, .log, .pm, .events, .hbm, .bus] [.lagState, .lagLinkState, .almSlotStatus, .busStatus, .busGrants, .logState, .logEvbEntries, .logDropped, .logEvbLost, .logEntries, .hbmState, .sysIntSrc]) s s' := by
  delta execStackRestoreDone at h
  injection h with h
  subst h
  repeat' first
    | with_reducible assumption
    | with_reducible apply Within.refl
    | ((with_reducible apply Within.when); (case' hg => intro _ _))
    | ((with_reducible apply Within.after (State.stackRestored_within ..)); (case hle => decide))
    | with_reducible apply Within.ite
    | split
    | dsimp -zeta only

theorem execStackRestoreFail_within (k : StackId) (s : State) (s' : State)
    (h : execStackRestoreFail k s = .next s') :
    Within (.of [.lag] [.lagState]) s s' := by
  delta execStackRestoreFail at h
  injection h with h
  subst h
  repeat' first
    | with_reducible assumption
    | with_reducible apply Within.refl
    | ((with_reducible apply Within.when); (case' hg => intro _ _))
    | ((with_reducible apply Within.after (State.restoreFailed_within ..)); (case hle => decide))
    | with_reducible apply Within.ite
    | split
    | dsimp -zeta only

theorem execFallbackReleaseEnd_within (l : IngressId) (s : State) (s' : State)
    (h : execFallbackReleaseEnd l s = .next s') :
    Within (.of [.links, .lag, .act, .irqs, .log, .pm, .events, .bus] [.lagState, .lagLinkState, .busStatus, .busGrants, .logState, .logEvbEntries, .logDropped, .logEvbLost, .logEntries, .sysIntSrc]) s s' := by
  delta execFallbackReleaseEnd at h
  injection h with h
  subst h
  repeat' first
    | with_reducible assumption
    | with_reducible apply Within.refl
    | ((with_reducible apply Within.when); (case' hg => intro _ _))
    | ((with_reducible apply Within.after (State.fbEnd_within ..)); (case hle => decide))
    | with_reducible apply Within.ite
    | split
    | dsimp -zeta only

theorem execLagDeadlineMiss_within (l : IngressId) (stamp : BitVec 32) (s : State) (s' : State)
    (h : execLagDeadlineMiss l stamp s = .next s') :
    Within (.of [.links, .lag] [.lagLate]) s s' := by
  delta execLagDeadlineMiss at h
  injection h with h
  subst h
  repeat' first
    | with_reducible assumption
    | with_reducible apply Within.refl
    | ((with_reducible apply Within.when); (case' hg => intro _ _))
    | ((with_reducible apply Within.after (State.setRx_within ..)); (case hle => decide))
    | ((with_reducible apply Within.after (State.lagMark_within ..)); (case hle => decide))
    | ((with_reducible apply Within.after (State.lagLate_within ..)); (case hle => decide))
    | (intro x
       have hx : Within (.of [.links, .lag] [.lagLate]) s x := by
         dsimp -zeta only [x]
         repeat' first
           | with_reducible assumption
           | with_reducible apply Within.refl
           | ((with_reducible apply Within.when); (case' hg => intro _ _))
           | ((with_reducible apply Within.after (State.setRx_within ..)); (case hle => decide))
           | ((with_reducible apply Within.after (State.lagMark_within ..)); (case hle => decide))
           | ((with_reducible apply Within.after (State.lagLate_within ..)); (case hle => decide))
           | with_reducible apply Within.ite
           | split
           | dsimp -zeta only
           | dsimp +zetaDelta only
       clear_value x)
    | intro x
    | lift_lets
    | with_reducible apply Within.ite
    | split
    | dsimp -zeta only
    | dsimp +zetaDelta only

theorem execLagLateRaise_within (l : IngressId) (s : State) (s' : State)
    (h : execLagLateRaise l s = .next s') :
    Within (.of [.act, .latch, .irqs, .log, .pm, .events, .bus] [.lagLinkState, .busStatus, .busGrants, .logState, .logEvbEntries, .logDropped, .logEvbLost, .logEntries, .sysIntSrc]) s s' := by
  delta execLagLateRaise at h
  injection h with h
  subst h
  repeat' first
    | with_reducible assumption
    | with_reducible apply Within.refl
    | ((with_reducible apply Within.setFlag); (case hr => first | decide | exact Foot.allRegs_hasReg _ _ | exact Foot.all_hasReg _ | (subst_vars; decide) | ((try dsimp +zetaDelta only); split <;> first | decide | (split <;> first | decide | (split <;> decide)))))
    | ((with_reducible apply Within.when); (case' hg => intro _ _))
    | ((with_reducible apply Within.after (State.raise_within ..)); (case hle => decide))
    | with_reducible apply Within.ite
    | split
    | dsimp -zeta only

theorem execLagLateClear_within (l : IngressId) (s : State) (s' : State)
    (h : execLagLateClear l s = .next s') :
    Within (.of [.lag, .act, .irqs, .log, .pm, .events, .bus] [.lagLinkState, .busStatus, .busGrants, .logState, .logEvbEntries, .logDropped, .logEvbLost, .logEntries, .sysIntSrc]) s s' := by
  delta execLagLateClear at h
  injection h with h
  subst h
  repeat' first
    | with_reducible assumption
    | with_reducible apply Within.refl
    | ((with_reducible apply Within.setFlag); (case hr => first | decide | exact Foot.allRegs_hasReg _ _ | exact Foot.all_hasReg _ | (subst_vars; decide) | ((try dsimp +zetaDelta only); split <;> first | decide | (split <;> first | decide | (split <;> decide)))))
    | ((with_reducible apply Within.when); (case' hg => intro _ _))
    | ((with_reducible apply Within.after (State.setLagLink_within ..)); (case hle => decide))
    | ((with_reducible apply Within.after (State.clear_within ..)); (case hle => decide))
    | (intro x
       have hx : Within (.of [.lag, .act, .irqs, .log, .pm, .events, .bus] [.lagLinkState, .busStatus, .busGrants, .logState, .logEvbEntries, .logDropped, .logEvbLost, .logEntries, .sysIntSrc]) s x := by
         dsimp -zeta only [x]
         repeat' first
           | with_reducible assumption
           | with_reducible apply Within.refl
           | ((with_reducible apply Within.setFlag); (case hr => first | decide | exact Foot.allRegs_hasReg _ _ | exact Foot.all_hasReg _ | (subst_vars; decide) | ((try dsimp +zetaDelta only); split <;> first | decide | (split <;> first | decide | (split <;> decide)))))
           | ((with_reducible apply Within.when); (case' hg => intro _ _))
           | ((with_reducible apply Within.after (State.setLagLink_within ..)); (case hle => decide))
           | ((with_reducible apply Within.after (State.clear_within ..)); (case hle => decide))
           | with_reducible apply Within.ite
           | split
           | dsimp -zeta only
           | dsimp +zetaDelta only
       clear_value x)
    | intro x
    | lift_lets
    | with_reducible apply Within.ite
    | split
    | dsimp -zeta only
    | dsimp +zetaDelta only

theorem execLagStampRangeRaise_within (l : IngressId) (s : State) (s' : State)
    (h : execLagStampRangeRaise l s = .next s') :
    Within (.of [.act, .latch, .irqs, .log, .pm, .events, .bus] [.lagLinkState, .busStatus, .busGrants, .logState, .logEvbEntries, .logDropped, .logEvbLost, .logEntries, .sysIntSrc]) s s' := by
  delta execLagStampRangeRaise at h
  injection h with h
  subst h
  repeat' first
    | with_reducible assumption
    | with_reducible apply Within.refl
    | ((with_reducible apply Within.setFlag); (case hr => first | decide | exact Foot.allRegs_hasReg _ _ | exact Foot.all_hasReg _ | (subst_vars; decide) | ((try dsimp +zetaDelta only); split <;> first | decide | (split <;> first | decide | (split <;> decide)))))
    | ((with_reducible apply Within.when); (case' hg => intro _ _))
    | ((with_reducible apply Within.after (State.raise_within ..)); (case hle => decide))
    | with_reducible apply Within.ite
    | split
    | dsimp -zeta only

theorem execLagStampRangeClear_within (l : IngressId) (s : State) (s' : State)
    (h : execLagStampRangeClear l s = .next s') :
    Within (.of [.act, .irqs, .log, .pm, .events, .bus] [.lagLinkState, .busStatus, .busGrants, .logState, .logEvbEntries, .logDropped, .logEvbLost, .logEntries, .sysIntSrc]) s s' := by
  delta execLagStampRangeClear at h
  injection h with h
  subst h
  repeat' first
    | with_reducible assumption
    | with_reducible apply Within.refl
    | ((with_reducible apply Within.setFlag); (case hr => first | decide | exact Foot.allRegs_hasReg _ _ | exact Foot.all_hasReg _ | (subst_vars; decide) | ((try dsimp +zetaDelta only); split <;> first | decide | (split <;> first | decide | (split <;> decide)))))
    | ((with_reducible apply Within.when); (case' hg => intro _ _))
    | ((with_reducible apply Within.after (State.clear_within ..)); (case hle => decide))
    | with_reducible apply Within.ite
    | split
    | dsimp -zeta only

theorem execLagMarginClear_within (l : IngressId) (s : State) (s' : State)
    (h : execLagMarginClear l s = .next s') :
    Within (.of [.act, .irqs, .log, .pm, .events, .bus] [.lagLinkState, .busStatus, .busGrants, .logState, .logEvbEntries, .logDropped, .logEvbLost, .logEntries, .sysIntSrc]) s s' := by
  delta execLagMarginClear at h
  injection h with h
  subst h
  repeat' first
    | with_reducible assumption
    | with_reducible apply Within.refl
    | ((with_reducible apply Within.setFlag); (case hr => first | decide | exact Foot.allRegs_hasReg _ _ | exact Foot.all_hasReg _ | (subst_vars; decide) | ((try dsimp +zetaDelta only); split <;> first | decide | (split <;> first | decide | (split <;> decide)))))
    | ((with_reducible apply Within.when); (case' hg => intro _ _))
    | ((with_reducible apply Within.after (State.clear_within ..)); (case hle => decide))
    | with_reducible apply Within.ite
    | split
    | dsimp -zeta only

theorem execLagLinkCfgWrite_within (m : Master) (l : IngressId) (value : BitVec 64) (s : State) (s' : State)
    (h : execLagLinkCfgWrite m l value s = .next s') :
    Within (.of [.irqs, .pm, .mate, .bus] [.lagLinkCfg, .mateUnmirrored, .busErrLast, .busErrResp, .busDefault, .busSplits, .busGrants, .sysIntSrc]) s s' := by
  delta execLagLinkCfgWrite at h
  injection h with h
  subst h
  repeat' first
    | with_reducible assumption
    | with_reducible apply Within.refl
    | ((with_reducible apply Within.byReg); (case hp => decide); (case hm => decide); (case he => decide); (case' hg => intro _ _))
    | ((with_reducible apply Within.cfgWrite); (case he => decide); (case hm => decide); (case hu => decide); (case hr => first | decide | exact Foot.allRegs_hasReg _ _ | exact Foot.all_hasReg _ | (subst_vars; decide) | ((try dsimp +zetaDelta only); split <;> first | decide | (split <;> first | decide | (split <;> decide)))); (case' hg => intro _ _))
    | with_reducible apply Within.ite
    | split
    | dsimp -zeta only

theorem execLagArrExtremesRead_within (m : Master) (l : IngressId) (max : Bool) (s : State) (s' : State)
    (h : execLagArrExtremesRead m l max s = .next s') :
    Within (.of [.irqs, .pm, .bus] [.lagArrMax, .lagArrMin, .busErrLast, .busErrResp, .busDefault, .busSplits, .busGrants, .sysIntSrc]) s s' := by
  delta execLagArrExtremesRead at h
  injection h with h
  subst h
  repeat' first
    | with_reducible assumption
    | with_reducible apply Within.refl
    | ((with_reducible apply Within.setWord); (case hr => first | decide | exact Foot.allRegs_hasReg _ _ | exact Foot.all_hasReg _ | (subst_vars; decide) | ((try dsimp +zetaDelta only); split <;> first | decide | (split <;> first | decide | (split <;> decide)))))
    | ((with_reducible apply Within.byReg); (case hp => decide); (case hm => decide); (case he => decide); (case' hg => intro _ _))
    | ((with_reducible apply Within.after (State.answer_within ..)); (case hle => decide))
    | (intro x
       have hx : Within (.of [.irqs, .pm, .bus] [.lagArrMax, .lagArrMin, .busErrLast, .busErrResp, .busDefault, .busSplits, .busGrants, .sysIntSrc]) s x := by
         dsimp -zeta only [x]
         repeat' first
           | with_reducible assumption
           | with_reducible apply Within.refl
           | ((with_reducible apply Within.setWord); (case hr => first | decide | exact Foot.allRegs_hasReg _ _ | exact Foot.all_hasReg _ | (subst_vars; decide) | ((try dsimp +zetaDelta only); split <;> first | decide | (split <;> first | decide | (split <;> decide)))))
           | ((with_reducible apply Within.byReg); (case hp => decide); (case hm => decide); (case he => decide); (case' hg => intro _ _))
           | ((with_reducible apply Within.after (State.answer_within ..)); (case hle => decide))
           | with_reducible apply Within.ite
           | split
           | dsimp -zeta only
           | dsimp +zetaDelta only
       clear_value x)
    | intro x
    | lift_lets
    | with_reducible apply Within.ite
    | split
    | dsimp -zeta only
    | dsimp +zetaDelta only

end Sys2Proof.Machine
end

