-- ==== Sys2Proof/Laws/Footprint/Start.lean ====
section
/-! SUPPORT. What each operation of Machine/Start.lean may touch. -/

namespace Sys2Proof.Machine

theorem State.cutOff_within (s : State) :
    Within (.of [.free, .fieldMap, .flash] [.eccFuseStatus]) s (State.cutOff s) := by
  delta State.cutOff
  repeat' first
    | with_reducible assumption
    | with_reducible apply Within.refl
    | ((with_reducible apply Within.when); (case' hg => intro _ _))
    | ((with_reducible apply Within.after (State.flashSpoil_within ..)); (case hle => decide))
    | ((with_reducible apply Within.after (State.takeFree_within ..)); (case hle => decide))
    | ((with_reducible apply Within.after (Within.of_eq (State.takeFree_within ..) ?e)); (case e => assumption); (case hle => decide))
    | ((with_reducible apply Within.after (State.fuseSet_within ..)); (case hle => decide))
    | (intro x
       have hx : Within (.of [.free, .fieldMap, .flash] [.eccFuseStatus]) s x := by
         dsimp -zeta only [x]
         repeat' first
           | with_reducible assumption
           | with_reducible apply Within.refl
           | ((with_reducible apply Within.when); (case' hg => intro _ _))
           | ((with_reducible apply Within.after (State.flashSpoil_within ..)); (case hle => decide))
           | ((with_reducible apply Within.after (State.takeFree_within ..)); (case hle => decide))
           | ((with_reducible apply Within.after (Within.of_eq (State.takeFree_within ..) ?e)); (case e => assumption); (case hle => decide))
           | ((with_reducible apply Within.after (State.fuseSet_within ..)); (case hle => decide))
           | with_reducible apply Within.ite
           | split
           | dsimp -zeta only
           | dsimp +zetaDelta only
       clear_value x)
    | intro x
    | lift_lets
    | with_reducible apply Within.ite
    | split
    | dsimp -zeta only
    | dsimp +zetaDelta only

theorem State.hold_within (s : State) :
    Within (.allRegs [.free, .tick, .quads, .lanes, .links, .lag, .prot, .core, .act, .latch, .irqs, .log, .pm, .events, .hbm, .fieldMap, .flash, .boot, .nvm, .mate, .alm, .ecc, .tim, .bus]) s (State.hold s) := by
  unfold State.hold
  have h := (State.cutOff_within s).mono (g := Foot.allRegs [.free, .tick, .quads, .lanes, .links, .lag, .prot, .core, .act, .latch, .irqs, .log, .pm, .events, .hbm, .fieldMap, .flash, .boot, .nvm, .mate, .alm, .ecc, .tim, .bus]) (by decide)
  generalize s.cutOff = x at h
  constructor
  case word => intro r hr; rw [Foot.allRegs_hasReg] at hr; cases hr
  case hbmWf => intro _; rfl
  case pending => exact h.pending
  case free => exact h.free
  case jtag => exact h.jtag
  case dieId => exact h.dieId
  case factory => exact h.factory
  case fieldMap => exact h.fieldMap
  case stuck => exact h.stuck
  case flashMiB => exact h.flashMiB
  case flash => exact h.flash
  case flashWf => exact h.flashWf
  all_goals exact fun n => absurd n (by decide)

theorem State.flashIs_within (s : State) (flashMiB : Option Nat) :
    Within (.of [.flashMiB] []) s (State.flashIs s flashMiB) := by
  delta State.flashIs
  repeat' first
    | with_reducible assumption
    | with_reducible apply Within.refl
    | with_reducible apply Within.ite
    | ((with_reducible apply Within.set_flashMiB); (case hc => decide))
    | split
    | dsimp -zeta only

theorem State.repairAll_within (s : State) :
    Within (.of [.free, .log, .pm, .events, .ecc, .bus] [.eccFuseStatus, .eccSoft, .eccFuseBad, .eccSoftNospare, .busGrants, .logState, .logEvbEntries, .logDropped, .logEvbLost, .logEntries, .sysIntSrc]) s (State.repairAll s) := by
  delta State.repairAll
  repeat' first
    | with_reducible assumption
    | with_reducible apply Within.refl
    | ((with_reducible apply Within.countBy); (case hr => first | decide | exact Foot.allRegs_hasReg _ _ | exact Foot.all_hasReg _ | (subst_vars; decide) | ((try dsimp +zetaDelta only); split <;> first | decide | (split <;> first | decide | (split <;> decide)))))
    | ((with_reducible apply Within.after (State.fieldUsed_within ..)); (case hle => decide))
    | ((with_reducible apply Within.after (State.softRepairs_within ..)); (case hle => decide))
    | ((with_reducible apply Within.after (State.cellsLeft_within ..)); (case hle => decide))
    | (intro x
       have hx : Within (.of [.free, .log, .pm, .events, .ecc, .bus] [.eccFuseStatus, .eccSoft, .eccFuseBad, .eccSoftNospare, .busGrants, .logState, .logEvbEntries, .logDropped, .logEvbLost, .logEntries, .sysIntSrc]) s x := by
         dsimp -zeta only [x]
         repeat' first
           | with_reducible assumption
           | with_reducible apply Within.refl
           | ((with_reducible apply Within.countBy); (case hr => first | decide | exact Foot.allRegs_hasReg _ _ | exact Foot.all_hasReg _ | (subst_vars; decide) | ((try dsimp +zetaDelta only); split <;> first | decide | (split <;> first | decide | (split <;> decide)))))
           | ((with_reducible apply Within.after (State.fieldUsed_within ..)); (case hle => decide))
           | ((with_reducible apply Within.after (State.softRepairs_within ..)); (case hle => decide))
           | ((with_reducible apply Within.after (State.cellsLeft_within ..)); (case hle => decide))
           | with_reducible apply Within.ite
           | split
           | dsimp -zeta only
           | dsimp +zetaDelta only
       clear_value x)
    | intro x
    | lift_lets
    | with_reducible apply Within.ite
    | split
    | dsimp -zeta only
    | dsimp +zetaDelta only

theorem State.bistTake_within (s : State) (b : BistResult) :
    Within (.of [.core, .act, .latch, .irqs, .log, .pm, .events, .bus] [.coreStationDis, .busStatus, .busGrants, .sysBistStatus, .logState, .logEvbEntries, .logDropped, .logEvbLost, .logEntries, .sysIntSrc]) s (State.bistTake s b) := by
  delta State.bistTake
  repeat' first
    | with_reducible assumption
    | with_reducible apply Within.refl
    | ((with_reducible apply Within.wr); (case hr => first | decide | exact Foot.allRegs_hasReg _ _ | exact Foot.all_hasReg _ | (subst_vars; decide) | ((try dsimp +zetaDelta only); split <;> first | decide | (split <;> first | decide | (split <;> decide)))))
    | ((with_reducible apply Within.setFlag); (case hr => first | decide | exact Foot.allRegs_hasReg _ _ | exact Foot.all_hasReg _ | (subst_vars; decide) | ((try dsimp +zetaDelta only); split <;> first | decide | (split <;> first | decide | (split <;> decide)))))
    | ((with_reducible apply Within.foldl_snd); (case' hg => intro _ _ _))
    | ((with_reducible apply Within.foldl); (case' hg => intro _ _ _))
    | ((with_reducible apply Within.after (State.stationSync_within ..)); (case hle => decide))
    | (intro x
       have hx : Within (.of [.core, .act, .latch, .irqs, .log, .pm, .events, .bus] [.coreStationDis, .busStatus, .busGrants, .sysBistStatus, .logState, .logEvbEntries, .logDropped, .logEvbLost, .logEntries, .sysIntSrc]) s x := by
         dsimp -zeta only [x]
         repeat' first
           | with_reducible assumption
           | with_reducible apply Within.refl
           | ((with_reducible apply Within.wr); (case hr => first | decide | exact Foot.allRegs_hasReg _ _ | exact Foot.all_hasReg _ | (subst_vars; decide) | ((try dsimp +zetaDelta only); split <;> first | decide | (split <;> first | decide | (split <;> decide)))))
           | ((with_reducible apply Within.setFlag); (case hr => first | decide | exact Foot.allRegs_hasReg _ _ | exact Foot.all_hasReg _ | (subst_vars; decide) | ((try dsimp +zetaDelta only); split <;> first | decide | (split <;> first | decide | (split <;> decide)))))
           | ((with_reducible apply Within.foldl_snd); (case' hg => intro _ _ _))
           | ((with_reducible apply Within.foldl); (case' hg => intro _ _ _))
           | ((with_reducible apply Within.after (State.stationSync_within ..)); (case hle => decide))
           | with_reducible apply Within.ite
           | ((with_reducible apply Within.set_core); (case hc => decide))
           | split
           | dsimp -zeta only
           | dsimp +zetaDelta only
       clear_value x)
    | intro x
    | lift_lets
    | with_reducible apply Within.ite
    | ((with_reducible apply Within.set_core); (case hc => decide))
    | split
    | dsimp -zeta only
    | dsimp +zetaDelta only

theorem State.enterUnusable_within (s : State) :
    Within (.of [.act, .latch, .irqs, .log, .pm, .events, .boot, .mate, .bus] [.busStatus, .busGrants, .sysBootStatus, .logState, .logEvbEntries, .logDropped, .logEvbLost, .logEntries, .sysIntSrc]) s (State.enterUnusable s) := by
  delta State.enterUnusable
  repeat' first
    | with_reducible assumption
    | with_reducible apply Within.refl
    | ((with_reducible apply Within.wr); (case hr => first | decide | exact Foot.allRegs_hasReg _ _ | exact Foot.all_hasReg _ | (subst_vars; decide) | ((try dsimp +zetaDelta only); split <;> first | decide | (split <;> first | decide | (split <;> decide)))))
    | ((with_reducible apply Within.after (State.mateStop_within ..)); (case hle => decide))
    | ((with_reducible apply Within.after (State.raise_within ..)); (case hle => decide))
    | (intro x
       have hx : Within (.of [.act, .latch, .irqs, .log, .pm, .events, .boot, .mate, .bus] [.busStatus, .busGrants, .sysBootStatus, .logState, .logEvbEntries, .logDropped, .logEvbLost, .logEntries, .sysIntSrc]) s x := by
         dsimp -zeta only [x]
         repeat' first
           | with_reducible assumption
           | with_reducible apply Within.refl
           | ((with_reducible apply Within.wr); (case hr => first | decide | exact Foot.allRegs_hasReg _ _ | exact Foot.all_hasReg _ | (subst_vars; decide) | ((try dsimp +zetaDelta only); split <;> first | decide | (split <;> first | decide | (split <;> decide)))))
           | ((with_reducible apply Within.after (State.mateStop_within ..)); (case hle => decide))
           | ((with_reducible apply Within.after (State.raise_within ..)); (case hle => decide))
           | with_reducible apply Within.ite
           | ((with_reducible apply Within.set_boot); (case hc => decide))
           | split
           | dsimp -zeta only
           | dsimp +zetaDelta only
       clear_value x)
    | intro x
    | lift_lets
    | with_reducible apply Within.ite
    | ((with_reducible apply Within.set_boot); (case hc => decide))
    | split
    | dsimp -zeta only
    | dsimp +zetaDelta only

theorem State.restoringSync_within (s : State) (a1 : Nat) :
    Within (.of [.lag] [.lagState]) s (State.restoringSync s a1) := by
  delta State.restoringSync
  repeat' first
    | with_reducible assumption
    | with_reducible apply Within.refl
    | ((with_reducible apply Within.wrBit); (case hr => first | decide | exact Foot.allRegs_hasReg _ _ | exact Foot.all_hasReg _ | (subst_vars; decide) | ((try dsimp +zetaDelta only); split <;> first | decide | (split <;> first | decide | (split <;> decide)))))
    | ((with_reducible apply Within.when); (case' hg => intro _ _))
    | (intro x
       have hx : Within (.of [.lag] [.lagState]) s x := by
         dsimp -zeta only [x]
         repeat' first
           | with_reducible assumption
           | with_reducible apply Within.refl
           | ((with_reducible apply Within.wrBit); (case hr => first | decide | exact Foot.allRegs_hasReg _ _ | exact Foot.all_hasReg _ | (subst_vars; decide) | ((try dsimp +zetaDelta only); split <;> first | decide | (split <;> first | decide | (split <;> decide)))))
           | ((with_reducible apply Within.when); (case' hg => intro _ _))
           | with_reducible apply Within.ite
           | split
           | dsimp -zeta only
           | dsimp +zetaDelta only
           | ((with_reducible apply Within.set_lag); (case hc => decide))
       clear_value x)
    | intro x
    | lift_lets
    | with_reducible apply Within.ite
    | split
    | dsimp -zeta only
    | dsimp +zetaDelta only
    | ((with_reducible apply Within.set_lag); (case hc => decide))

theorem State.tjClear_within (s : State) :
    Within (.of [.boot] [.sysTemp]) s (State.tjClear s) := by
  delta State.tjClear
  repeat' first
    | with_reducible assumption
    | with_reducible apply Within.refl
    | ((with_reducible apply Within.wr); (case hr => first | decide | exact Foot.allRegs_hasReg _ _ | exact Foot.all_hasReg _ | (subst_vars; decide) | ((try dsimp +zetaDelta only); split <;> first | decide | (split <;> first | decide | (split <;> decide)))))
    | with_reducible apply Within.ite
    | ((with_reducible apply Within.set_boot); (case hc => decide))
    | split
    | dsimp -zeta only

theorem execPwrOkFall_within (s : State) (s' : State)
    (h : execPwrOkFall s = .next s') :
    Within (.allRegs [.free, .tick, .quads, .lanes, .links, .lag, .prot, .core, .act, .latch, .irqs, .log, .pm, .events, .hbm, .fieldMap, .flash, .boot, .nvm, .mate, .alm, .ecc, .tim, .bus]) s s' := by
  delta execPwrOkFall at h
  injection h with h
  subst h
  repeat' first
    | with_reducible assumption
    | with_reducible apply Within.refl
    | ((with_reducible apply Within.after (State.hold_within ..)); (case hle => decide))
    | with_reducible apply Within.ite
    | split
    | dsimp -zeta only

theorem execRstNFall_within (s : State) (s' : State)
    (h : execRstNFall s = .next s') :
    Within (.allRegs [.free, .tick, .quads, .lanes, .links, .lag, .prot, .core, .act, .latch, .irqs, .log, .pm, .events, .hbm, .fieldMap, .flash, .boot, .nvm, .mate, .alm, .ecc, .tim, .bus]) s s' := by
  delta execRstNFall at h
  injection h with h
  subst h
  repeat' first
    | with_reducible assumption
    | with_reducible apply Within.refl
    | ((with_reducible apply Within.after (State.hold_within ..)); (case hle => decide))
    | with_reducible apply Within.ite
    | split
    | dsimp -zeta only

theorem execRstNRise_within (mode : BitVec 2) (sel : Bool) (rank : Bool) (s : State) (s' : State)
    (h : execRstNRise mode sel rank s = .next s') :
    Within (.of [.act, .latch, .irqs, .log, .pm, .events, .boot, .mate, .bus] [.mateState, .busStatus, .busGrants, .sysBootStatus, .logState, .logEvbEntries, .logDropped, .logEvbLost, .logEntries, .sysIntSrc]) s s' := by
  delta execRstNRise at h
  injection h with h
  subst h
  repeat' first
    | with_reducible assumption
    | with_reducible apply Within.refl
    | ((with_reducible apply Within.wr); (case hr => first | decide | exact Foot.allRegs_hasReg _ _ | exact Foot.all_hasReg _ | (subst_vars; decide) | ((try dsimp +zetaDelta only); split <;> first | decide | (split <;> first | decide | (split <;> decide)))))
    | ((with_reducible apply Within.setFlag); (case hr => first | decide | exact Foot.allRegs_hasReg _ _ | exact Foot.all_hasReg _ | (subst_vars; decide) | ((try dsimp +zetaDelta only); split <;> first | decide | (split <;> first | decide | (split <;> decide)))))
    | ((with_reducible apply Within.when); (case' hg => intro _ _))
    | ((with_reducible apply Within.after (State.recoverySync_within ..)); (case hle => decide))
    | ((with_reducible apply Within.after (State.raise_within ..)); (case hle => decide))
    | (intro x
       have hx : Within (.of [.act, .latch, .irqs, .log, .pm, .events, .boot, .mate, .bus] [.mateState, .busStatus, .busGrants, .sysBootStatus, .logState, .logEvbEntries, .logDropped, .logEvbLost, .logEntries, .sysIntSrc]) s x := by
         dsimp -zeta only [x]
         repeat' first
           | with_reducible assumption
           | with_reducible apply Within.refl
           | ((with_reducible apply Within.wr); (case hr => first | decide | exact Foot.allRegs_hasReg _ _ | exact Foot.all_hasReg _ | (subst_vars; decide) | ((try dsimp +zetaDelta only); split <;> first | decide | (split <;> first | decide | (split <;> decide)))))
           | ((with_reducible apply Within.setFlag); (case hr => first | decide | exact Foot.allRegs_hasReg _ _ | exact Foot.all_hasReg _ | (subst_vars; decide) | ((try dsimp +zetaDelta only); split <;> first | decide | (split <;> first | decide | (split <;> decide)))))
           | ((with_reducible apply Within.when); (case' hg => intro _ _))
           | ((with_reducible apply Within.after (State.recoverySync_within ..)); (case hle => decide))
           | ((with_reducible apply Within.after (State.raise_within ..)); (case hle => decide))
           | with_reducible apply Within.ite
           | ((with_reducible apply Within.set_boot_mate); (case h_boot => decide); (case h_mate => decide))
           | ((with_reducible apply Within.set_boot); (case hc => decide))
           | ((with_reducible apply Within.set_mate); (case hc => decide))
           | split
           | dsimp -zeta only
           | dsimp +zetaDelta only
       clear_value x)
    | intro x
    | lift_lets
    | with_reducible apply Within.ite
    | ((with_reducible apply Within.set_boot_mate); (case h_boot => decide); (case h_mate => decide))
    | ((with_reducible apply Within.set_boot); (case hc => decide))
    | ((with_reducible apply Within.set_mate); (case hc => decide))
    | split
    | dsimp -zeta only
    | dsimp +zetaDelta only

theorem execSupplyMonitorTrip_within (s : State) (s' : State)
    (h : execSupplyMonitorTrip s = .next s') :
    Within (.of [.mate] []) s s' := by
  delta execSupplyMonitorTrip at h
  injection h with h
  subst h
  repeat' first
    | with_reducible assumption
    | with_reducible apply Within.refl
    | ((with_reducible apply Within.after (State.mateStop_within ..)); (case hle => decide))
    | with_reducible apply Within.ite
    | split
    | dsimp -zeta only

theorem execTickStop_within (s : State) (s' : State)
    (h : execTickStop s = .next s') :
    Within (.of [.tick, .mate] []) s s' := by
  delta execTickStop at h
  injection h with h
  subst h
  repeat' first
    | with_reducible assumption
    | with_reducible apply Within.refl
    | ((with_reducible apply Within.after (State.mateStop_within ..)); (case hle => decide))
    | with_reducible apply Within.ite
    | ((with_reducible apply Within.set_tick); (case hc => decide))
    | split
    | dsimp -zeta only

theorem execEndOfP2_within (flashMiB : Option Nat) (s : State) (s' : State)
    (h : execEndOfP2 flashMiB s = .next s') :
    Within (.of [.act, .latch, .irqs, .log, .pm, .events, .flashMiB, .boot, .bus] [.busStatus, .busGrants, .nvmInfo, .logState, .logEvbEntries, .logDropped, .logEvbLost, .logEntries, .sysIntSrc]) s s' := by
  delta execEndOfP2 at h
  injection h with h
  subst h
  repeat' first
    | with_reducible assumption
    | with_reducible apply Within.refl
    | ((with_reducible apply Within.wr); (case hr => first | decide | exact Foot.allRegs_hasReg _ _ | exact Foot.all_hasReg _ | (subst_vars; decide) | ((try dsimp +zetaDelta only); split <;> first | decide | (split <;> first | decide | (split <;> decide)))))
    | ((with_reducible apply Within.setFlag); (case hr => first | decide | exact Foot.allRegs_hasReg _ _ | exact Foot.all_hasReg _ | (subst_vars; decide) | ((try dsimp +zetaDelta only); split <;> first | decide | (split <;> first | decide | (split <;> decide)))))
    | ((with_reducible apply Within.when); (case' hg => intro _ _))
    | ((with_reducible apply Within.after (State.flashIs_within ..)); (case hle => decide))
    | ((with_reducible apply Within.after (State.powerUp_within ..)); (case hle => decide))
    | ((with_reducible apply Within.after (State.logFind_within ..)); (case hle => decide))
    | ((with_reducible apply Within.after (State.raise_within ..)); (case hle => decide))
    | (intro x
       have hx : Within (.of [.act, .latch, .irqs, .log, .pm, .events, .flashMiB, .boot, .bus] [.busStatus, .busGrants, .nvmInfo, .logState, .logEvbEntries, .logDropped, .logEvbLost, .logEntries, .sysIntSrc]) s x := by
         dsimp -zeta only [x]
         repeat' first
           | with_reducible assumption
           | with_reducible apply Within.refl
           | ((with_reducible apply Within.wr); (case hr => first | decide | exact Foot.allRegs_hasReg _ _ | exact Foot.all_hasReg _ | (subst_vars; decide) | ((try dsimp +zetaDelta only); split <;> first | decide | (split <;> first | decide | (split <;> decide)))))
           | ((with_reducible apply Within.setFlag); (case hr => first | decide | exact Foot.allRegs_hasReg _ _ | exact Foot.all_hasReg _ | (subst_vars; decide) | ((try dsimp +zetaDelta only); split <;> first | decide | (split <;> first | decide | (split <;> decide)))))
           | ((with_reducible apply Within.when); (case' hg => intro _ _))
           | ((with_reducible apply Within.after (State.flashIs_within ..)); (case hle => decide))
           | ((with_reducible apply Within.after (State.powerUp_within ..)); (case hle => decide))
           | ((with_reducible apply Within.after (State.logFind_within ..)); (case hle => decide))
           | ((with_reducible apply Within.after (State.raise_within ..)); (case hle => decide))
           | with_reducible apply Within.ite
           | split
           | dsimp -zeta only
           | dsimp +zetaDelta only
           | ((with_reducible apply Within.set_boot); (case hc => decide))
       clear_value x)
    | intro x
    | lift_lets
    | with_reducible apply Within.ite
    | split
    | dsimp -zeta only
    | dsimp +zetaDelta only
    | ((with_reducible apply Within.set_boot); (case hc => decide))

theorem execEndOfP3_within (b : BistResult) (s : State) (s' : State)
    (h : execEndOfP3 b s = .next s') :
    Within (.of [.free, .core, .act, .latch, .irqs, .log, .pm, .events, .boot, .mate, .ecc, .bus] [.coreStationDis, .eccFuseStatus, .eccSoft, .eccFuseBad, .eccSoftNospare, .busStatus, .busGrants, .sysBootStatus, .sysBistStatus, .logState, .logEvbEntries, .logDropped, .logEvbLost, .logEntries, .sysIntSrc]) s s' := by
  delta execEndOfP3 at h
  injection h with h
  subst h
  repeat' first
    | with_reducible assumption
    | with_reducible apply Within.refl
    | ((with_reducible apply Within.wr); (case hr => first | decide | exact Foot.allRegs_hasReg _ _ | exact Foot.all_hasReg _ | (subst_vars; decide) | ((try dsimp +zetaDelta only); split <;> first | decide | (split <;> first | decide | (split <;> decide)))))
    | ((with_reducible apply Within.when); (case' hg => intro _ _))
    | ((with_reducible apply Within.after (State.repairAll_within ..)); (case hle => decide))
    | ((with_reducible apply Within.after (State.bistTake_within ..)); (case hle => decide))
    | ((with_reducible apply Within.after (State.enterUnusable_within ..)); (case hle => decide))
    | (intro x
       have hx : Within (.of [.free, .core, .act, .latch, .irqs, .log, .pm, .events, .boot, .mate, .ecc, .bus] [.coreStationDis, .eccFuseStatus, .eccSoft, .eccFuseBad, .eccSoftNospare, .busStatus, .busGrants, .sysBootStatus, .sysBistStatus, .logState, .logEvbEntries, .logDropped, .logEvbLost, .logEntries, .sysIntSrc]) s x := by
         dsimp -zeta only [x]
         repeat' first
           | with_reducible assumption
           | with_reducible apply Within.refl
           | ((with_reducible apply Within.wr); (case hr => first | decide | exact Foot.allRegs_hasReg _ _ | exact Foot.all_hasReg _ | (subst_vars; decide) | ((try dsimp +zetaDelta only); split <;> first | decide | (split <;> first | decide | (split <;> decide)))))
           | ((with_reducible apply Within.when); (case' hg => intro _ _))
           | ((with_reducible apply Within.after (State.repairAll_within ..)); (case hle => decide))
           | ((with_reducible apply Within.after (State.bistTake_within ..)); (case hle => decide))
           | ((with_reducible apply Within.after (State.enterUnusable_within ..)); (case hle => decide))
           | with_reducible apply Within.ite
           | ((with_reducible apply Within.set_boot); (case hc => decide))
           | split
           | dsimp -zeta only
           | dsimp +zetaDelta only
       clear_value x)
    | intro x
    | lift_lets
    | with_reducible apply Within.ite
    | ((with_reducible apply Within.set_boot); (case hc => decide))
    | split
    | dsimp -zeta only
    | dsimp +zetaDelta only

theorem execFuncEnable_within (a0 : FuncId) (s : State) (s' : State)
    (h : execFuncEnable a0 s = .next s') :
    Within (.of [.lag, .boot] [.lagState, .sysFuncState, .sysFuncStarts]) s s' := by
  delta execFuncEnable at h
  injection h with h
  subst h
  repeat' first
    | with_reducible assumption
    | with_reducible apply Within.refl
    | ((with_reducible apply Within.when); (case' hg => intro _ _))
    | ((with_reducible apply Within.after (State.funcEnable_within ..)); (case hle => decide))
    | ((with_reducible apply Within.after (State.restoringSync_within ..)); (case hle => decide))
    | (intro x
       have hx : Within (.of [.lag, .boot] [.lagState, .sysFuncState, .sysFuncStarts]) s x := by
         dsimp -zeta only [x]
         repeat' first
           | with_reducible assumption
           | with_reducible apply Within.refl
           | ((with_reducible apply Within.when); (case' hg => intro _ _))
           | ((with_reducible apply Within.after (State.funcEnable_within ..)); (case hle => decide))
           | ((with_reducible apply Within.after (State.restoringSync_within ..)); (case hle => decide))
           | with_reducible apply Within.ite
           | split
           | dsimp -zeta only
           | dsimp +zetaDelta only
       clear_value x)
    | intro x
    | lift_lets
    | with_reducible apply Within.ite
    | split
    | dsimp -zeta only
    | dsimp +zetaDelta only

theorem execFuncDisable_within (a0 : FuncId) (s : State) (s' : State)
    (h : execFuncDisable a0 s = .next s') :
    Within (.of [.boot, .alm] [.sysFuncState, .sysFuncStarts]) s s' := by
  delta execFuncDisable at h
  injection h with h
  subst h
  repeat' first
    | with_reducible assumption
    | with_reducible apply Within.refl
    | ((with_reducible apply Within.when); (case' hg => intro _ _))
    | ((with_reducible apply Within.after (State.funcDisable_within ..)); (case hle => decide))
    | (intro x
       have hx : Within (.of [.boot, .alm] [.sysFuncState, .sysFuncStarts]) s x := by
         dsimp -zeta only [x]
         repeat' first
           | with_reducible assumption
           | with_reducible apply Within.refl
           | ((with_reducible apply Within.when); (case' hg => intro _ _))
           | ((with_reducible apply Within.after (State.funcDisable_within ..)); (case hle => decide))
           | with_reducible apply Within.ite
           | ((with_reducible apply Within.set_boot); (case hc => decide))
           | ((with_reducible apply Within.set_alm); (case hc => decide))
           | split
           | dsimp -zeta only
           | dsimp +zetaDelta only
       clear_value x)
    | intro x
    | lift_lets
    | with_reducible apply Within.ite
    | ((with_reducible apply Within.set_boot); (case hc => decide))
    | ((with_reducible apply Within.set_alm); (case hc => decide))
    | split
    | dsimp -zeta only
    | dsimp +zetaDelta only

theorem execFuncStartDone_within (a0 : FuncId) (s : State) (s' : State)
    (h : execFuncStartDone a0 s = .next s') :
    Within (.of [.quads, .lanes, .links, .lag, .act, .latch, .irqs, .log, .pm, .events, .hbm, .mate, .alm, .tim, .bus] [.laneState, .laneTxfir, .lanePrbsCtrl, .laneScanStatus, .laneBringupTry, .linkState, .linkFramesGood, .linkFramesDoubtful, .linkFramesBad, .linkFramesAbsent, .linkPayCrcErr, .linkOofEntry, .lagArrLast, .lagArrMax, .lagArrMin, .lagLinkState, .lagLate, .lagMarginLow, .timRefState, .timRefDisq, .mateFrameUnusable, .busStatus, .busGrants, .sysFuncState, .sysFuncStarts, .logState, .logEvbEntries, .logDropped, .logEvbLost, .logEntries, .sysIntSrc]) s s' := by
  delta execFuncStartDone at h
  injection h with h
  subst h
  repeat' first
    | with_reducible assumption
    | with_reducible apply Within.refl
    | ((with_reducible apply Within.wr); (case hr => first | decide | exact Foot.allRegs_hasReg _ _ | exact Foot.all_hasReg _ | (subst_vars; decide) | ((try dsimp +zetaDelta only); split <;> first | decide | (split <;> first | decide | (split <;> decide)))))
    | ((with_reducible apply Within.setFlag); (case hr => first | decide | exact Foot.allRegs_hasReg _ _ | exact Foot.all_hasReg _ | (subst_vars; decide) | ((try dsimp +zetaDelta only); split <;> first | decide | (split <;> first | decide | (split <;> decide)))))
    | ((with_reducible apply Within.when); (case' hg => intro _ _))
    | ((with_reducible apply Within.after (State.setFstate_within ..)); (case hle => decide))
    | ((with_reducible apply Within.after (State.enterQuad_within ..)); (case hle => decide))
    | ((with_reducible apply Within.after (State.auditBegin_within ..)); (case hle => decide))
    | (intro x
       have hx : Within (.of [.quads, .lanes, .links, .lag, .act, .latch, .irqs, .log, .pm, .events, .hbm, .mate, .alm, .tim, .bus] [.laneState, .laneTxfir, .lanePrbsCtrl, .laneScanStatus, .laneBringupTry, .linkState, .linkFramesGood, .linkFramesDoubtful, .linkFramesBad, .linkFramesAbsent, .linkPayCrcErr, .linkOofEntry, .lagArrLast, .lagArrMax, .lagArrMin, .lagLinkState, .lagLate, .lagMarginLow, .timRefState, .timRefDisq, .mateFrameUnusable, .busStatus, .busGrants, .sysFuncState, .sysFuncStarts, .logState, .logEvbEntries, .logDropped, .logEvbLost, .logEntries, .sysIntSrc]) s x := by
         dsimp -zeta only [x]
         repeat' first
           | with_reducible assumption
           | with_reducible apply Within.refl
           | ((with_reducible apply Within.wr); (case hr => first | decide | exact Foot.allRegs_hasReg _ _ | exact Foot.all_hasReg _ | (subst_vars; decide) | ((try dsimp +zetaDelta only); split <;> first | decide | (split <;> first | decide | (split <;> decide)))))
           | ((with_reducible apply Within.setFlag); (case hr => first | decide | exact Foot.allRegs_hasReg _ _ | exact Foot.all_hasReg _ | (subst_vars; decide) | ((try dsimp +zetaDelta only); split <;> first | decide | (split <;> first | decide | (split <;> decide)))))
           | ((with_reducible apply Within.when); (case' hg => intro _ _))
           | ((with_reducible apply Within.after (State.setFstate_within ..)); (case hle => decide))
           | ((with_reducible apply Within.after (State.enterQuad_within ..)); (case hle => decide))
           | ((with_reducible apply Within.after (State.auditBegin_within ..)); (case hle => decide))
           | with_reducible apply Within.ite
           | split
           | dsimp -zeta only
           | dsimp +zetaDelta only
       clear_value x)
    | intro x
    | lift_lets
    | with_reducible apply Within.ite
    | split
    | dsimp -zeta only
    | dsimp +zetaDelta only

theorem execFuncStartFail_within (a0 : FuncId) (s : State) (s' : State)
    (h : execFuncStartFail a0 s = .next s') :
    Within (.of [] [.sysFuncState, .sysFuncStarts]) s s' := by
  delta execFuncStartFail at h
  injection h with h
  subst h
  repeat' first
    | with_reducible assumption
    | with_reducible apply Within.refl
    | ((with_reducible apply Within.wr); (case hr => first | decide | exact Foot.allRegs_hasReg _ _ | exact Foot.all_hasReg _ | (subst_vars; decide) | ((try dsimp +zetaDelta only); split <;> first | decide | (split <;> first | decide | (split <;> decide)))))
    | ((with_reducible apply Within.setFlag); (case hr => first | decide | exact Foot.allRegs_hasReg _ _ | exact Foot.all_hasReg _ | (subst_vars; decide) | ((try dsimp +zetaDelta only); split <;> first | decide | (split <;> first | decide | (split <;> decide)))))
    | ((with_reducible apply Within.when); (case' hg => intro _ _))
    | ((with_reducible apply Within.after (State.setFstate_within ..)); (case hle => decide))
    | (intro x
       have hx : Within (.of [] [.sysFuncState, .sysFuncStarts]) s x := by
         dsimp -zeta only [x]
         repeat' first
           | with_reducible assumption
           | with_reducible apply Within.refl
           | ((with_reducible apply Within.wr); (case hr => first | decide | exact Foot.allRegs_hasReg _ _ | exact Foot.all_hasReg _ | (subst_vars; decide) | ((try dsimp +zetaDelta only); split <;> first | decide | (split <;> first | decide | (split <;> decide)))))
           | ((with_reducible apply Within.setFlag); (case hr => first | decide | exact Foot.allRegs_hasReg _ _ | exact Foot.all_hasReg _ | (subst_vars; decide) | ((try dsimp +zetaDelta only); split <;> first | decide | (split <;> first | decide | (split <;> decide)))))
           | ((with_reducible apply Within.when); (case' hg => intro _ _))
           | ((with_reducible apply Within.after (State.setFstate_within ..)); (case hle => decide))
           | with_reducible apply Within.ite
           | split
           | dsimp -zeta only
           | dsimp +zetaDelta only
       clear_value x)
    | intro x
    | lift_lets
    | with_reducible apply Within.ite
    | split
    | dsimp -zeta only
    | dsimp +zetaDelta only

theorem execFuncStopDone_within (a0 : FuncId) (s : State) (s' : State)
    (h : execFuncStopDone a0 s = .next s') :
    Within (.of [.lag] [.lagState, .sysFuncState, .sysFuncStarts]) s s' := by
  delta execFuncStopDone at h
  injection h with h
  subst h
  repeat' first
    | with_reducible assumption
    | with_reducible apply Within.refl
    | ((with_reducible apply Within.setFlag); (case hr => first | decide | exact Foot.allRegs_hasReg _ _ | exact Foot.all_hasReg _ | (subst_vars; decide) | ((try dsimp +zetaDelta only); split <;> first | decide | (split <;> first | decide | (split <;> decide)))))
    | ((with_reducible apply Within.when); (case' hg => intro _ _))
    | ((with_reducible apply Within.after (State.restoringSync_within ..)); (case hle => decide))
    | ((with_reducible apply Within.after (State.setFstate_within ..)); (case hle => decide))
    | with_reducible apply Within.ite
    | split
    | dsimp -zeta only

theorem execTempUpdate_within (tj : BitVec 16) (s : State) (s' : State)
    (h : execTempUpdate tj s = .next s') :
    Within (.of [.act, .latch, .irqs, .log, .pm, .events, .boot, .bus] [.busStatus, .busGrants, .logState, .logEvbEntries, .logDropped, .logEvbLost, .logEntries, .sysTemp, .sysIntSrc]) s s' := by
  delta execTempUpdate at h
  injection h with h
  subst h
  repeat' first
    | with_reducible assumption
    | with_reducible apply Within.refl
    | ((with_reducible apply Within.wr); (case hr => first | decide | exact Foot.allRegs_hasReg _ _ | exact Foot.all_hasReg _ | (subst_vars; decide) | ((try dsimp +zetaDelta only); split <;> first | decide | (split <;> first | decide | (split <;> decide)))))
    | ((with_reducible apply Within.setFlag); (case hr => first | decide | exact Foot.allRegs_hasReg _ _ | exact Foot.all_hasReg _ | (subst_vars; decide) | ((try dsimp +zetaDelta only); split <;> first | decide | (split <;> first | decide | (split <;> decide)))))
    | ((with_reducible apply Within.wrS); (case hr => first | decide | exact Foot.allRegs_hasReg _ _ | exact Foot.all_hasReg _ | (subst_vars; decide) | ((try dsimp +zetaDelta only); split <;> first | decide | (split <;> first | decide | (split <;> decide)))))
    | ((with_reducible apply Within.after (State.raise_within ..)); (case hle => decide))
    | ((with_reducible apply Within.after (State.clear_within ..)); (case hle => decide))
    | (intro x
       have hx : Within (.of [.act, .latch, .irqs, .log, .pm, .events, .boot, .bus] [.busStatus, .busGrants, .logState, .logEvbEntries, .logDropped, .logEvbLost, .logEntries, .sysTemp, .sysIntSrc]) s x := by
         dsimp -zeta only [x]
         repeat' first
           | with_reducible assumption
           | with_reducible apply Within.refl
           | ((with_reducible apply Within.wr); (case hr => first | decide | exact Foot.allRegs_hasReg _ _ | exact Foot.all_hasReg _ | (subst_vars; decide) | ((try dsimp +zetaDelta only); split <;> first | decide | (split <;> first | decide | (split <;> decide)))))
           | ((with_reducible apply Within.setFlag); (case hr => first | decide | exact Foot.allRegs_hasReg _ _ | exact Foot.all_hasReg _ | (subst_vars; decide) | ((try dsimp +zetaDelta only); split <;> first | decide | (split <;> first | decide | (split <;> decide)))))
           | ((with_reducible apply Within.wrS); (case hr => first | decide | exact Foot.allRegs_hasReg _ _ | exact Foot.all_hasReg _ | (subst_vars; decide) | ((try dsimp +zetaDelta only); split <;> first | decide | (split <;> first | decide | (split <;> decide)))))
           | ((with_reducible apply Within.after (State.raise_within ..)); (case hle => decide))
           | ((with_reducible apply Within.after (State.clear_within ..)); (case hle => decide))
           | with_reducible apply Within.ite
           | ((with_reducible apply Within.set_boot); (case hc => decide))
           | split
           | dsimp -zeta only
           | dsimp +zetaDelta only
       clear_value x)
    | intro x
    | lift_lets
    | with_reducible apply Within.ite
    | ((with_reducible apply Within.set_boot); (case hc => decide))
    | split
    | dsimp -zeta only
    | dsimp +zetaDelta only

theorem execSysTempRead_within (m : Master) (part : Part) (s : State) (s' : State)
    (h : execSysTempRead m part s = .next s') :
    Within (.of [.irqs, .pm, .boot, .bus] [.busErrLast, .busErrResp, .busDefault, .busSplits, .busGrants, .sysTemp, .sysIntSrc]) s s' := by
  delta execSysTempRead at h
  injection h with h
  subst h
  repeat' first
    | with_reducible assumption
    | with_reducible apply Within.refl
    | ((with_reducible apply Within.byTarget); (case hp => decide); (case hm => decide); (case he => decide); (case' hg => intro _ _))
    | ((with_reducible apply Within.after (State.answer_within ..)); (case hle => decide))
    | ((with_reducible apply Within.after (State.tjClear_within ..)); (case hle => decide))
    | (intro x
       have hx : Within (.of [.irqs, .pm, .boot, .bus] [.busErrLast, .busErrResp, .busDefault, .busSplits, .busGrants, .sysTemp, .sysIntSrc]) s x := by
         dsimp -zeta only [x]
         repeat' first
           | with_reducible assumption
           | with_reducible apply Within.refl
           | ((with_reducible apply Within.byTarget); (case hp => decide); (case hm => decide); (case he => decide); (case' hg => intro _ _))
           | ((with_reducible apply Within.after (State.answer_within ..)); (case hle => decide))
           | ((with_reducible apply Within.after (State.tjClear_within ..)); (case hle => decide))
           | with_reducible apply Within.ite
           | split
           | dsimp -zeta only
           | dsimp +zetaDelta only
       clear_value x)
    | intro x
    | lift_lets
    | with_reducible apply Within.ite
    | split
    | dsimp -zeta only
    | dsimp +zetaDelta only

theorem execJtagTapReset_within (s : State) (s' : State)
    (h : execJtagTapReset s = .next s') :
    Within (.of [.jtag] []) s s' := by
  delta execJtagTapReset at h
  injection h with h
  subst h
  repeat' first
    | with_reducible assumption
    | with_reducible apply Within.refl
    | with_reducible apply Within.ite
    | ((with_reducible apply Within.set_jtag); (case hc => decide))
    | split
    | dsimp -zeta only

theorem execJtagInstruction_within (i : JtagInstr) (s : State) (s' : State)
    (h : execJtagInstruction i s = .next s') :
    Within (.of [.free, .jtag] []) s s' := by
  cases i <;> simp only [execJtagInstruction, Host.Outcome.next.injEq, reduceCtorEq] at h
  all_goals subst h
  case samplePreload => exact Within.set_jtag ((State.takeFree_within s).mono (by decide)) (by decide)
  all_goals exact Within.set_jtag (.refl _ s) (by decide)

end Sys2Proof.Machine
end

