-- ==== Sys2Proof/Laws/Footprint/Nvm.lean ====
section
/-! SUPPORT. What each operation of Machine/Nvm.lean may touch. -/

namespace Sys2Proof.Machine

theorem State.nvmCommand_within (s : State) (m : Master) (op : Nat) (addr : Nat) (len : Nat) :
    Within (.of [.irqs, .nvm] [.busErrLast, .busErrResp, .busDefault, .nvmCmd, .nvmStatus, .sysIntSrc]) s (State.nvmCommand s m op addr len) := by
  delta State.nvmCommand
  repeat' first
    | with_reducible assumption
    | with_reducible apply Within.refl
    | ((with_reducible apply Within.wr); (case hr => first | decide | exact Foot.allRegs_hasReg _ _ | exact Foot.all_hasReg _ | (subst_vars; decide) | ((try dsimp +zetaDelta only); split <;> first | decide | (split <;> first | decide | (split <;> decide)))))
    | ((with_reducible apply Within.setFlag); (case hr => first | decide | exact Foot.allRegs_hasReg _ _ | exact Foot.all_hasReg _ | (subst_vars; decide) | ((try dsimp +zetaDelta only); split <;> first | decide | (split <;> first | decide | (split <;> decide)))))
    | ((with_reducible apply Within.valueOnly); (case he => decide); (case' hg => intro _ _))
    | ((with_reducible apply Within.after (State.errResp_within ..)); (case hle => decide))
    | (intro x
       have hx : Within (.of [.irqs, .nvm] [.busErrLast, .busErrResp, .busDefault, .nvmCmd, .nvmStatus, .sysIntSrc]) s x := by
         dsimp -zeta only [x]
         repeat' first
           | with_reducible assumption
           | with_reducible apply Within.refl
           | ((with_reducible apply Within.wr); (case hr => first | decide | exact Foot.allRegs_hasReg _ _ | exact Foot.all_hasReg _ | (subst_vars; decide) | ((try dsimp +zetaDelta only); split <;> first | decide | (split <;> first | decide | (split <;> decide)))))
           | ((with_reducible apply Within.setFlag); (case hr => first | decide | exact Foot.allRegs_hasReg _ _ | exact Foot.all_hasReg _ | (subst_vars; decide) | ((try dsimp +zetaDelta only); split <;> first | decide | (split <;> first | decide | (split <;> decide)))))
           | ((with_reducible apply Within.valueOnly); (case he => decide); (case' hg => intro _ _))
           | ((with_reducible apply Within.after (State.errResp_within ..)); (case hle => decide))
           | with_reducible apply Within.ite
           | ((with_reducible apply Within.set_nvm); (case hc => decide))
           | split
           | dsimp -zeta only
           | dsimp +zetaDelta only
       clear_value x)
    | intro x
    | lift_lets
    | with_reducible apply Within.ite
    | ((with_reducible apply Within.set_nvm); (case hc => decide))
    | split
    | dsimp -zeta only
    | dsimp +zetaDelta only

theorem State.nvmEnd_within (s : State) (r : Nat) :
    Within (.of [.nvm] [.nvmStatus]) s (State.nvmEnd s r) := by
  delta State.nvmEnd
  repeat' first
    | with_reducible assumption
    | with_reducible apply Within.refl
    | ((with_reducible apply Within.wr); (case hr => first | decide | exact Foot.allRegs_hasReg _ _ | exact Foot.all_hasReg _ | (subst_vars; decide) | ((try dsimp +zetaDelta only); split <;> first | decide | (split <;> first | decide | (split <;> decide)))))
    | ((with_reducible apply Within.setFlag); (case hr => first | decide | exact Foot.allRegs_hasReg _ _ | exact Foot.all_hasReg _ | (subst_vars; decide) | ((try dsimp +zetaDelta only); split <;> first | decide | (split <;> first | decide | (split <;> decide)))))
    | (intro x
       have hx : Within (.of [.nvm] [.nvmStatus]) s x := by
         dsimp -zeta only [x]
         repeat' first
           | with_reducible assumption
           | with_reducible apply Within.refl
           | ((with_reducible apply Within.wr); (case hr => first | decide | exact Foot.allRegs_hasReg _ _ | exact Foot.all_hasReg _ | (subst_vars; decide) | ((try dsimp +zetaDelta only); split <;> first | decide | (split <;> first | decide | (split <;> decide)))))
           | ((with_reducible apply Within.setFlag); (case hr => first | decide | exact Foot.allRegs_hasReg _ _ | exact Foot.all_hasReg _ | (subst_vars; decide) | ((try dsimp +zetaDelta only); split <;> first | decide | (split <;> first | decide | (split <;> decide)))))
           | with_reducible apply Within.ite
           | ((with_reducible apply Within.set_nvm); (case hc => decide))
           | split
           | dsimp -zeta only
           | dsimp +zetaDelta only
       clear_value x)
    | intro x
    | lift_lets
    | with_reducible apply Within.ite
    | ((with_reducible apply Within.set_nvm); (case hc => decide))
    | split
    | dsimp -zeta only
    | dsimp +zetaDelta only

theorem execNvmProgram_within (m : Master) (addr : BitVec 28) (len : BitVec 13) (s : State) (s' : State)
    (h : execNvmProgram m addr len s = .next s') :
    Within (.of [.irqs, .pm, .nvm, .bus] [.busErrLast, .busErrResp, .busDefault, .busSplits, .busGrants, .nvmCmd, .nvmStatus, .sysIntSrc]) s s' := by
  delta execNvmProgram at h
  injection h with h
  subst h
  repeat' first
    | with_reducible assumption
    | with_reducible apply Within.refl
    | ((with_reducible apply Within.byReg); (case hp => decide); (case hm => decide); (case he => decide); (case' hg => intro _ _))
    | ((with_reducible apply Within.after (State.nvmCommand_within ..)); (case hle => decide))
    | with_reducible apply Within.ite
    | split
    | dsimp -zeta only

theorem execNvmErase_within (m : Master) (addr : BitVec 28) (s : State) (s' : State)
    (h : execNvmErase m addr s = .next s') :
    Within (.of [.irqs, .pm, .nvm, .bus] [.busErrLast, .busErrResp, .busDefault, .busSplits, .busGrants, .nvmCmd, .nvmStatus, .sysIntSrc]) s s' := by
  delta execNvmErase at h
  injection h with h
  subst h
  repeat' first
    | with_reducible assumption
    | with_reducible apply Within.refl
    | ((with_reducible apply Within.byReg); (case hp => decide); (case hm => decide); (case he => decide); (case' hg => intro _ _))
    | ((with_reducible apply Within.after (State.nvmCommand_within ..)); (case hle => decide))
    | with_reducible apply Within.ite
    | split
    | dsimp -zeta only

theorem execNvmCmdDone_within (res : NvmResult) (s : State) (s' : State)
    (h : execNvmCmdDone res s = .next s') :
    Within (.of [.free, .act, .latch, .irqs, .log, .pm, .events, .flash, .nvm, .bus] [.busStatus, .busGrants, .nvmStatus, .nvmPrograms, .nvmErases, .nvmVerifyFail, .logState, .logEvbEntries, .logDropped, .logEvbLost, .logEntries, .sysIntSrc]) s s' := by
  delta execNvmCmdDone at h
  injection h with h
  subst h
  repeat' first
    | with_reducible assumption
    | with_reducible apply Within.refl
    | ((with_reducible apply Within.count); (case hr => first | decide | exact Foot.allRegs_hasReg _ _ | exact Foot.all_hasReg _ | (subst_vars; decide) | ((try dsimp +zetaDelta only); split <;> first | decide | (split <;> first | decide | (split <;> decide)))))
    | ((with_reducible apply Within.after (State.clear_within ..)); (case hle => decide))
    | ((with_reducible apply Within.after (State.nvmEnd_within ..)); (case hle => decide))
    | ((with_reducible apply Within.after (State.flashWrite_within ..)); (case hle => decide))
    | ((with_reducible apply Within.after (State.flashErase_within ..)); (case hle => decide))
    | ((with_reducible apply Within.after (State.flashSpoil_within ..)); (case hle => decide))
    | ((with_reducible apply Within.after (State.raise_within ..)); (case hle => decide))
    | with_reducible apply Within.ite
    | split
    | dsimp -zeta only

end Sys2Proof.Machine
end

