-- ==== Sys2Proof/Laws/Footprint/Epoch.lean ====
section
/-! SUPPORT. What each operation of Machine/Epoch.lean may touch. -/

namespace Sys2Proof.Machine

theorem State.bootAt_within (s : State) (n : Nat) :
    Within (.of [.boot] [.sysBootStatus]) s (State.bootAt s n) := by
  delta State.bootAt
  repeat' first
    | with_reducible assumption
    | with_reducible apply Within.refl
    | ((with_reducible apply Within.wr); (case hr => first | decide | exact Foot.allRegs_hasReg _ _ | exact Foot.all_hasReg _ | (subst_vars; decide) | ((try dsimp +zetaDelta only); split <;> first | decide | (split <;> first | decide | (split <;> decide)))))
    | with_reducible apply Within.ite
    | ((with_reducible apply Within.set_boot); (case hc => decide))
    | split
    | dsimp -zeta only

theorem State.bootNext_within (s : State) :
    Within (.of [.boot] [.sysBootStatus]) s (State.bootNext s) := by
  delta State.bootNext
  repeat' first
    | with_reducible assumption
    | with_reducible apply Within.refl
    | ((with_reducible apply Within.after (State.bootAt_within ..)); (case hle => decide))
    | with_reducible apply Within.ite
    | split
    | dsimp -zeta only

theorem State.trimDiscard_within (s : State) :
    Within (.of [.alm] [.almTrimStatus]) s (State.trimDiscard s) := by
  delta State.trimDiscard
  repeat' first
    | with_reducible assumption
    | with_reducible apply Within.refl
    | ((with_reducible apply Within.after (State.trimResult_within ..)); (case hle => decide))
    | with_reducible apply Within.ite
    | ((with_reducible apply Within.set_alm); (case hc => decide))
    | split
    | dsimp -zeta only

theorem State.epochMiss_within (s : State) :
    Within (.of [.act, .latch, .irqs, .log, .pm, .events, .alm, .bus] [.almState, .almArmed, .almArmDis, .almEpochMissed, .busStatus, .busGrants, .logState, .logEvbEntries, .logDropped, .logEvbLost, .logEntries, .sysIntSrc]) s (State.epochMiss s) := by
  delta State.epochMiss
  repeat' first
    | with_reducible assumption
    | with_reducible apply Within.refl
    | ((with_reducible apply Within.setFlag); (case hr => first | decide | exact Foot.allRegs_hasReg _ _ | exact Foot.all_hasReg _ | (subst_vars; decide) | ((try dsimp +zetaDelta only); split <;> first | decide | (split <;> first | decide | (split <;> decide)))))
    | ((with_reducible apply Within.count); (case hr => first | decide | exact Foot.allRegs_hasReg _ _ | exact Foot.all_hasReg _ | (subst_vars; decide) | ((try dsimp +zetaDelta only); split <;> first | decide | (split <;> first | decide | (split <;> decide)))))
    | ((with_reducible apply Within.after (State.logEvent_within ..)); (case hle => decide))
    | ((with_reducible apply Within.after (State.raise_within ..)); (case hle => decide))
    | ((with_reducible apply Within.after (State.disarm_within ..)); (case hle => decide))
    | (intro x
       have hx : Within (.of [.act, .latch, .irqs, .log, .pm, .events, .alm, .bus] [.almState, .almArmed, .almArmDis, .almEpochMissed, .busStatus, .busGrants, .logState, .logEvbEntries, .logDropped, .logEvbLost, .logEntries, .sysIntSrc]) s x := by
         dsimp -zeta only [x]
         repeat' first
           | with_reducible assumption
           | with_reducible apply Within.refl
           | ((with_reducible apply Within.setFlag); (case hr => first | decide | exact Foot.allRegs_hasReg _ _ | exact Foot.all_hasReg _ | (subst_vars; decide) | ((try dsimp +zetaDelta only); split <;> first | decide | (split <;> first | decide | (split <;> decide)))))
           | ((with_reducible apply Within.count); (case hr => first | decide | exact Foot.allRegs_hasReg _ _ | exact Foot.all_hasReg _ | (subst_vars; decide) | ((try dsimp +zetaDelta only); split <;> first | decide | (split <;> first | decide | (split <;> decide)))))
           | ((with_reducible apply Within.after (State.logEvent_within ..)); (case hle => decide))
           | ((with_reducible apply Within.after (State.raise_within ..)); (case hle => decide))
           | ((with_reducible apply Within.after (State.disarm_within ..)); (case hle => decide))
           | with_reducible apply Within.ite
           | split
           | dsimp -zeta only
           | dsimp +zetaDelta only
       clear_value x)
    | intro x
    | lift_lets
    | with_reducible apply Within.ite
    | split
    | dsimp -zeta only
    | dsimp +zetaDelta only

theorem State.swapSlots_within (s : State) :
    Within (.of [.alm] [.almState, .almSlotStatus]) s (State.swapSlots s) := by
  delta State.swapSlots
  repeat' first
    | with_reducible assumption
    | with_reducible apply Within.refl
    | ((with_reducible apply Within.wr); (case hr => first | decide | exact Foot.allRegs_hasReg _ _ | exact Foot.all_hasReg _ | (subst_vars; decide) | ((try dsimp +zetaDelta only); split <;> first | decide | (split <;> first | decide | (split <;> decide)))))
    | ((with_reducible apply Within.when); (case' hg => intro _ _))
    | ((with_reducible apply Within.after (State.setSlot_within ..)); (case hle => decide))
    | (intro x
       have hx : Within (.of [.alm] [.almState, .almSlotStatus]) s x := by
         dsimp -zeta only [x]
         repeat' first
           | with_reducible assumption
           | with_reducible apply Within.refl
           | ((with_reducible apply Within.wr); (case hr => first | decide | exact Foot.allRegs_hasReg _ _ | exact Foot.all_hasReg _ | (subst_vars; decide) | ((try dsimp +zetaDelta only); split <;> first | decide | (split <;> first | decide | (split <;> decide)))))
           | ((with_reducible apply Within.when); (case' hg => intro _ _))
           | ((with_reducible apply Within.after (State.setSlot_within ..)); (case hle => decide))
           | with_reducible apply Within.ite
           | ((with_reducible apply Within.set_alm); (case hc => decide))
           | split
           | dsimp -zeta only
           | dsimp +zetaDelta only
       clear_value x)
    | intro x
    | lift_lets
    | with_reducible apply Within.ite
    | ((with_reducible apply Within.set_alm); (case hc => decide))
    | split
    | dsimp -zeta only
    | dsimp +zetaDelta only

theorem State.swapQuad_within (s : State) (q : Nat) (gen : Nat) :
    Within (.of [.quads, .lanes, .links, .lag, .act, .latch, .irqs, .log, .pm, .events, .hbm, .mate, .tim, .bus] [.laneState, .laneTxfir, .lanePrbsCtrl, .laneScanStatus, .laneBringupTry, .linkState, .linkFramesGood, .linkFramesDoubtful, .linkFramesBad, .linkFramesAbsent, .linkPayCrcErr, .linkOofEntry, .lagArrLast, .lagArrMax, .lagArrMin, .lagLinkState, .lagLate, .lagMarginLow, .timRefState, .timRefDisq, .mateFrameUnusable, .busStatus, .busGrants, .sysFuncState, .sysFuncStarts, .logState, .logEvbEntries, .logDropped, .logEvbLost, .logEntries, .sysIntSrc]) s (State.swapQuad s q gen) := by
  delta State.swapQuad
  repeat' first
    | with_reducible assumption
    | with_reducible apply Within.refl
    | ((with_reducible apply Within.wr); (case hr => first | decide | exact Foot.allRegs_hasReg _ _ | exact Foot.all_hasReg _ | (subst_vars; decide) | ((try dsimp +zetaDelta only); split <;> first | decide | (split <;> first | decide | (split <;> decide)))))
    | ((with_reducible apply Within.when); (case' hg => intro _ _))
    | ((with_reducible apply Within.each); (case' hg => intro _ _ _))
    | ((with_reducible apply Within.after (State.leaveUp_within ..)); (case hle => decide))
    | ((with_reducible apply Within.after (State.funcDisable_within ..)); (case hle => decide))
    | ((with_reducible apply Within.after (State.enterQuad_within ..)); (case hle => decide))
    | ((with_reducible apply Within.after (State.linkUsed_within ..)); (case hle => decide))
    | ((with_reducible apply Within.after (State.funcOn_within ..)); (case hle => decide))
    | (intro x
       have hx : Within (.of [.quads, .lanes, .links, .lag, .act, .latch, .irqs, .log, .pm, .events, .hbm, .mate, .tim, .bus] [.laneState, .laneTxfir, .lanePrbsCtrl, .laneScanStatus, .laneBringupTry, .linkState, .linkFramesGood, .linkFramesDoubtful, .linkFramesBad, .linkFramesAbsent, .linkPayCrcErr, .linkOofEntry, .lagArrLast, .lagArrMax, .lagArrMin, .lagLinkState, .lagLate, .lagMarginLow, .timRefState, .timRefDisq, .mateFrameUnusable, .busStatus, .busGrants, .sysFuncState, .sysFuncStarts, .logState, .logEvbEntries, .logDropped, .logEvbLost, .logEntries, .sysIntSrc]) s x := by
         dsimp -zeta only [x]
         repeat' first
           | with_reducible assumption
           | with_reducible apply Within.refl
           | ((with_reducible apply Within.wr); (case hr => first | decide | exact Foot.allRegs_hasReg _ _ | exact Foot.all_hasReg _ | (subst_vars; decide) | ((try dsimp +zetaDelta only); split <;> first | decide | (split <;> first | decide | (split <;> decide)))))
           | ((with_reducible apply Within.when); (case' hg => intro _ _))
           | ((with_reducible apply Within.each); (case' hg => intro _ _ _))
           | ((with_reducible apply Within.after (State.leaveUp_within ..)); (case hle => decide))
           | ((with_reducible apply Within.after (State.funcDisable_within ..)); (case hle => decide))
           | ((with_reducible apply Within.after (State.enterQuad_within ..)); (case hle => decide))
           | ((with_reducible apply Within.after (State.linkUsed_within ..)); (case hle => decide))
           | ((with_reducible apply Within.after (State.funcOn_within ..)); (case hle => decide))
           | with_reducible apply Within.ite
           | split
           | dsimp -zeta only
           | dsimp +zetaDelta only
       clear_value x)
    | intro x
    | lift_lets
    | with_reducible apply Within.ite
    | split
    | dsimp -zeta only
    | dsimp +zetaDelta only

theorem State.swapImage_within (s : State) :
    Within (.of [.alm, .tim] [.coreStatus, .almState, .almActiveSetid, .almActiveInfo, .sysBootStatus]) s (State.swapImage s) := by
  delta State.swapImage
  repeat' first
    | with_reducible assumption
    | with_reducible apply Within.refl
    | ((with_reducible apply Within.setWord); (case hr => first | decide | exact Foot.allRegs_hasReg _ _ | exact Foot.all_hasReg _ | (subst_vars; decide) | ((try dsimp +zetaDelta only); split <;> first | decide | (split <;> first | decide | (split <;> decide)))))
    | ((with_reducible apply Within.wr); (case hr => first | decide | exact Foot.allRegs_hasReg _ _ | exact Foot.all_hasReg _ | (subst_vars; decide) | ((try dsimp +zetaDelta only); split <;> first | decide | (split <;> first | decide | (split <;> decide)))))
    | ((with_reducible apply Within.setFlag); (case hr => first | decide | exact Foot.allRegs_hasReg _ _ | exact Foot.all_hasReg _ | (subst_vars; decide) | ((try dsimp +zetaDelta only); split <;> first | decide | (split <;> first | decide | (split <;> decide)))))
    | ((with_reducible apply Within.when); (case' hg => intro _ _))
    | (intro x
       have hx : Within (.of [.alm, .tim] [.coreStatus, .almState, .almActiveSetid, .almActiveInfo, .sysBootStatus]) s x := by
         dsimp -zeta only [x]
         repeat' first
           | with_reducible assumption
           | with_reducible apply Within.refl
           | ((with_reducible apply Within.setWord); (case hr => first | decide | exact Foot.allRegs_hasReg _ _ | exact Foot.all_hasReg _ | (subst_vars; decide) | ((try dsimp +zetaDelta only); split <;> first | decide | (split <;> first | decide | (split <;> decide)))))
           | ((with_reducible apply Within.wr); (case hr => first | decide | exact Foot.allRegs_hasReg _ _ | exact Foot.all_hasReg _ | (subst_vars; decide) | ((try dsimp +zetaDelta only); split <;> first | decide | (split <;> first | decide | (split <;> decide)))))
           | ((with_reducible apply Within.setFlag); (case hr => first | decide | exact Foot.allRegs_hasReg _ _ | exact Foot.all_hasReg _ | (subst_vars; decide) | ((try dsimp +zetaDelta only); split <;> first | decide | (split <;> first | decide | (split <;> decide)))))
           | ((with_reducible apply Within.when); (case' hg => intro _ _))
           | with_reducible apply Within.ite
           | ((with_reducible apply Within.set_alm_tim); (case h_alm => decide); (case h_tim => decide))
           | ((with_reducible apply Within.set_alm); (case hc => decide))
           | ((with_reducible apply Within.set_tim); (case hc => decide))
           | split
           | dsimp -zeta only
           | dsimp +zetaDelta only
       clear_value x)
    | intro x
    | lift_lets
    | with_reducible apply Within.ite
    | ((with_reducible apply Within.set_alm_tim); (case h_alm => decide); (case h_tim => decide))
    | ((with_reducible apply Within.set_alm); (case hc => decide))
    | ((with_reducible apply Within.set_tim); (case hc => decide))
    | split
    | dsimp -zeta only
    | dsimp +zetaDelta only

theorem State.swapAtE_within (s : State) :
    Within (.allRegs [.quads, .lanes, .links, .lag, .prot, .core, .act, .latch, .irqs, .log, .pm, .events, .hbm, .mate, .alm, .ecc, .tim, .bus]) s (State.swapAtE s) := by
  delta State.swapAtE
  repeat' first
    | with_reducible assumption
    | with_reducible apply Within.refl
    | ((with_reducible apply Within.setWord); (case hr => first | decide | exact Foot.allRegs_hasReg _ _ | exact Foot.all_hasReg _ | (subst_vars; decide) | ((try dsimp +zetaDelta only); split <;> first | decide | (split <;> first | decide | (split <;> decide)))))
    | ((with_reducible apply Within.wr); (case hr => first | decide | exact Foot.allRegs_hasReg _ _ | exact Foot.all_hasReg _ | (subst_vars; decide) | ((try dsimp +zetaDelta only); split <;> first | decide | (split <;> first | decide | (split <;> decide)))))
    | ((with_reducible apply Within.eachN); (case' hg => intro _ _ _))
    | ((with_reducible apply Within.after (State.swapImage_within ..)); (case hle => decide))
    | ((with_reducible apply Within.after (State.swapSlots_within ..)); (case hle => decide))
    | ((with_reducible apply Within.after (State.loadRegs_within ..)); (case hle => decide))
    | ((with_reducible apply Within.after (State.swapQuad_within ..)); (case hle => decide))
    | ((with_reducible apply Within.after (State.fenceSync_within ..)); (case hle => decide))
    | ((with_reducible apply Within.after (State.swapUps_within ..)); (case hle => decide))
    | ((with_reducible apply Within.after (State.lagSync_within ..)); (case hle => decide))
    | ((with_reducible apply Within.after (State.protSync_within ..)); (case hle => decide))
    | ((with_reducible apply Within.after (State.refsSync_within ..)); (case hle => decide))
    | ((with_reducible apply Within.after (State.refReconf_within ..)); (case hle => decide))
    | ((with_reducible apply Within.after (State.wiringCheck_within ..)); (case hle => decide))
    | ((with_reducible apply Within.after (State.clear_within ..)); (case hle => decide))
    | ((with_reducible apply Within.after (State.stationSync_within ..)); (case hle => decide))
    | ((with_reducible apply Within.after (State.legSync_within ..)); (case hle => decide))
    | ((with_reducible apply Within.after (State.mateCfgSync_within ..)); (case hle => decide))
    | (intro x
       have hx : Within (.allRegs [.quads, .lanes, .links, .lag, .prot, .core, .act, .latch, .irqs, .log, .pm, .events, .hbm, .mate, .alm, .ecc, .tim, .bus]) s x := by
         dsimp -zeta only [x]
         repeat' first
           | with_reducible assumption
           | with_reducible apply Within.refl
           | ((with_reducible apply Within.setWord); (case hr => first | decide | exact Foot.allRegs_hasReg _ _ | exact Foot.all_hasReg _ | (subst_vars; decide) | ((try dsimp +zetaDelta only); split <;> first | decide | (split <;> first | decide | (split <;> decide)))))
           | ((with_reducible apply Within.wr); (case hr => first | decide | exact Foot.allRegs_hasReg _ _ | exact Foot.all_hasReg _ | (subst_vars; decide) | ((try dsimp +zetaDelta only); split <;> first | decide | (split <;> first | decide | (split <;> decide)))))
           | ((with_reducible apply Within.eachN); (case' hg => intro _ _ _))
           | ((with_reducible apply Within.after (State.swapImage_within ..)); (case hle => decide))
           | ((with_reducible apply Within.after (State.swapSlots_within ..)); (case hle => decide))
           | ((with_reducible apply Within.after (State.loadRegs_within ..)); (case hle => decide))
           | ((with_reducible apply Within.after (State.swapQuad_within ..)); (case hle => decide))
           | ((with_reducible apply Within.after (State.fenceSync_within ..)); (case hle => decide))
           | ((with_reducible apply Within.after (State.swapUps_within ..)); (case hle => decide))
           | ((with_reducible apply Within.after (State.lagSync_within ..)); (case hle => decide))
           | ((with_reducible apply Within.after (State.protSync_within ..)); (case hle => decide))
           | ((with_reducible apply Within.after (State.refsSync_within ..)); (case hle => decide))
           | ((with_reducible apply Within.after (State.refReconf_within ..)); (case hle => decide))
           | ((with_reducible apply Within.after (State.wiringCheck_within ..)); (case hle => decide))
           | ((with_reducible apply Within.after (State.clear_within ..)); (case hle => decide))
           | ((with_reducible apply Within.after (State.stationSync_within ..)); (case hle => decide))
           | ((with_reducible apply Within.after (State.legSync_within ..)); (case hle => decide))
           | ((with_reducible apply Within.after (State.mateCfgSync_within ..)); (case hle => decide))
           | with_reducible apply Within.ite
           | split
           | dsimp -zeta only
           | dsimp +zetaDelta only
       clear_value x)
    | intro x
    | lift_lets
    | with_reducible apply Within.ite
    | split
    | dsimp -zeta only
    | dsimp +zetaDelta only

theorem State.swapStep_within (s : State) (k : Nat) :
    Within (.of [.alm] []) s (State.swapStep s k) := by
  delta State.swapStep
  repeat' first
    | with_reducible assumption
    | with_reducible apply Within.refl
    | with_reducible apply Within.ite
    | ((with_reducible apply Within.set_alm); (case hc => decide))
    | split
    | dsimp -zeta only

theorem State.bridgeSync_within (s : State) :
    Within (.of [.prot, .act, .latch, .irqs, .log, .pm, .events, .bus] [.coreStationDis, .busStatus, .busGrants, .logState, .logEvbEntries, .logDropped, .logEvbLost, .logEntries, .sysIntSrc]) s (State.bridgeSync s) := by
  delta State.bridgeSync
  repeat' first
    | with_reducible assumption
    | with_reducible apply Within.refl
    | ((with_reducible apply Within.after (State.stationSync_within ..)); (case hle => decide))
    | with_reducible apply Within.ite
    | ((with_reducible apply Within.set_prot); (case hc => decide))
    | split
    | dsimp -zeta only

theorem State.chainNext_within (s : State) (e : Nat) :
    Within (.of [.alm] [.almState, .almArmed, .almStageFail]) s (State.chainNext s e) := by
  delta State.chainNext
  repeat' first
    | with_reducible assumption
    | with_reducible apply Within.refl
    | ((with_reducible apply Within.wr); (case hr => first | decide | exact Foot.allRegs_hasReg _ _ | exact Foot.all_hasReg _ | (subst_vars; decide) | ((try dsimp +zetaDelta only); split <;> first | decide | (split <;> first | decide | (split <;> decide)))))
    | ((with_reducible apply Within.count); (case hr => first | decide | exact Foot.allRegs_hasReg _ _ | exact Foot.all_hasReg _ | (subst_vars; decide) | ((try dsimp +zetaDelta only); split <;> first | decide | (split <;> first | decide | (split <;> decide)))))
    | ((with_reducible apply Within.after (State.stageStart_within ..)); (case hle => decide))
    | ((with_reducible apply Within.after (State.arm_within ..)); (case hle => decide))
    | (intro x
       have hx : Within (.of [.alm] [.almState, .almArmed, .almStageFail]) s x := by
         dsimp -zeta only [x]
         repeat' first
           | with_reducible assumption
           | with_reducible apply Within.refl
           | ((with_reducible apply Within.wr); (case hr => first | decide | exact Foot.allRegs_hasReg _ _ | exact Foot.all_hasReg _ | (subst_vars; decide) | ((try dsimp +zetaDelta only); split <;> first | decide | (split <;> first | decide | (split <;> decide)))))
           | ((with_reducible apply Within.count); (case hr => first | decide | exact Foot.allRegs_hasReg _ _ | exact Foot.all_hasReg _ | (subst_vars; decide) | ((try dsimp +zetaDelta only); split <;> first | decide | (split <;> first | decide | (split <;> decide)))))
           | ((with_reducible apply Within.after (State.stageStart_within ..)); (case hle => decide))
           | ((with_reducible apply Within.after (State.arm_within ..)); (case hle => decide))
           | with_reducible apply Within.ite
           | split
           | dsimp -zeta only
           | dsimp +zetaDelta only
       clear_value x)
    | intro x
    | lift_lets
    | with_reducible apply Within.ite
    | split
    | dsimp -zeta only
    | dsimp +zetaDelta only

theorem State.swapComplete_within (s : State) :
    Within (.of [.act, .latch, .irqs, .log, .pm, .events, .boot, .mate, .alm, .bus] [.almState, .almArmed, .almArmDis, .almEpochs, .almStageFail, .busStatus, .busGrants, .sysBootStatus, .logState, .logEvbEntries, .logDropped, .logEvbLost, .logEntries, .sysIntSrc]) s (State.swapComplete s) := by
  delta State.swapComplete
  repeat' first
    | with_reducible assumption
    | with_reducible apply Within.refl
    | ((with_reducible apply Within.wr); (case hr => first | decide | exact Foot.allRegs_hasReg _ _ | exact Foot.all_hasReg _ | (subst_vars; decide) | ((try dsimp +zetaDelta only); split <;> first | decide | (split <;> first | decide | (split <;> decide)))))
    | ((with_reducible apply Within.setFlag); (case hr => first | decide | exact Foot.allRegs_hasReg _ _ | exact Foot.all_hasReg _ | (subst_vars; decide) | ((try dsimp +zetaDelta only); split <;> first | decide | (split <;> first | decide | (split <;> decide)))))
    | ((with_reducible apply Within.count); (case hr => first | decide | exact Foot.allRegs_hasReg _ _ | exact Foot.all_hasReg _ | (subst_vars; decide) | ((try dsimp +zetaDelta only); split <;> first | decide | (split <;> first | decide | (split <;> decide)))))
    | ((with_reducible apply Within.when); (case' hg => intro _ _))
    | ((with_reducible apply Within.after (State.disarm_within ..)); (case hle => decide))
    | ((with_reducible apply Within.after (State.clear_within ..)); (case hle => decide))
    | ((with_reducible apply Within.after (State.logEvent_within ..)); (case hle => decide))
    | ((with_reducible apply Within.after (State.chainNext_within ..)); (case hle => decide))
    | ((with_reducible apply Within.after (State.auditBegin_within ..)); (case hle => decide))
    | ((with_reducible apply Within.after (State.bootNext_within ..)); (case hle => decide))
    | (intro x
       have hx : Within (.of [.act, .latch, .irqs, .log, .pm, .events, .boot, .mate, .alm, .bus] [.almState, .almArmed, .almArmDis, .almEpochs, .almStageFail, .busStatus, .busGrants, .sysBootStatus, .logState, .logEvbEntries, .logDropped, .logEvbLost, .logEntries, .sysIntSrc]) s x := by
         dsimp -zeta only [x]
         repeat' first
           | with_reducible assumption
           | with_reducible apply Within.refl
           | ((with_reducible apply Within.wr); (case hr => first | decide | exact Foot.allRegs_hasReg _ _ | exact Foot.all_hasReg _ | (subst_vars; decide) | ((try dsimp +zetaDelta only); split <;> first | decide | (split <;> first | decide | (split <;> decide)))))
           | ((with_reducible apply Within.setFlag); (case hr => first | decide | exact Foot.allRegs_hasReg _ _ | exact Foot.all_hasReg _ | (subst_vars; decide) | ((try dsimp +zetaDelta only); split <;> first | decide | (split <;> first | decide | (split <;> decide)))))
           | ((with_reducible apply Within.count); (case hr => first | decide | exact Foot.allRegs_hasReg _ _ | exact Foot.all_hasReg _ | (subst_vars; decide) | ((try dsimp +zetaDelta only); split <;> first | decide | (split <;> first | decide | (split <;> decide)))))
           | ((with_reducible apply Within.when); (case' hg => intro _ _))
           | ((with_reducible apply Within.after (State.disarm_within ..)); (case hle => decide))
           | ((with_reducible apply Within.after (State.clear_within ..)); (case hle => decide))
           | ((with_reducible apply Within.after (State.logEvent_within ..)); (case hle => decide))
           | ((with_reducible apply Within.after (State.chainNext_within ..)); (case hle => decide))
           | ((with_reducible apply Within.after (State.auditBegin_within ..)); (case hle => decide))
           | ((with_reducible apply Within.after (State.bootNext_within ..)); (case hle => decide))
           | with_reducible apply Within.ite
           | ((with_reducible apply Within.set_log); (case hc => decide))
           | ((with_reducible apply Within.set_boot); (case hc => decide))
           | ((with_reducible apply Within.set_mate); (case hc => decide))
           | split
           | dsimp -zeta only
           | dsimp +zetaDelta only
       clear_value x)
    | intro x
    | lift_lets
    | with_reducible apply Within.ite
    | ((with_reducible apply Within.set_log); (case hc => decide))
    | ((with_reducible apply Within.set_boot); (case hc => decide))
    | ((with_reducible apply Within.set_mate); (case hc => decide))
    | split
    | dsimp -zeta only
    | dsimp +zetaDelta only

theorem execEpochCommit_within (s : State) (s' : State)
    (h : execEpochCommit s = .next s') :
    Within (.of [.act, .latch, .irqs, .log, .pm, .events, .alm, .bus] [.almState, .almArmed, .almTrimStatus, .almArmDis, .almEpochMissed, .busStatus, .busGrants, .logState, .logEvbEntries, .logDropped, .logEvbLost, .logEntries, .sysIntSrc]) s s' := by
  delta execEpochCommit at h
  injection h with h
  subst h
  repeat' first
    | with_reducible assumption
    | with_reducible apply Within.refl
    | ((with_reducible apply Within.wr); (case hr => first | decide | exact Foot.allRegs_hasReg _ _ | exact Foot.all_hasReg _ | (subst_vars; decide) | ((try dsimp +zetaDelta only); split <;> first | decide | (split <;> first | decide | (split <;> decide)))))
    | ((with_reducible apply Within.when); (case' hg => intro _ _))
    | ((with_reducible apply Within.after (State.trimDiscard_within ..)); (case hle => decide))
    | ((with_reducible apply Within.after (State.epochMiss_within ..)); (case hle => decide))
    | (intro x
       have hx : Within (.of [.act, .latch, .irqs, .log, .pm, .events, .alm, .bus] [.almState, .almArmed, .almTrimStatus, .almArmDis, .almEpochMissed, .busStatus, .busGrants, .logState, .logEvbEntries, .logDropped, .logEvbLost, .logEntries, .sysIntSrc]) s x := by
         dsimp -zeta only [x]
         repeat' first
           | with_reducible assumption
           | with_reducible apply Within.refl
           | ((with_reducible apply Within.wr); (case hr => first | decide | exact Foot.allRegs_hasReg _ _ | exact Foot.all_hasReg _ | (subst_vars; decide) | ((try dsimp +zetaDelta only); split <;> first | decide | (split <;> first | decide | (split <;> decide)))))
           | ((with_reducible apply Within.when); (case' hg => intro _ _))
           | ((with_reducible apply Within.after (State.trimDiscard_within ..)); (case hle => decide))
           | ((with_reducible apply Within.after (State.epochMiss_within ..)); (case hle => decide))
           | with_reducible apply Within.ite
           | split
           | dsimp -zeta only
           | dsimp +zetaDelta only
       clear_value x)
    | intro x
    | lift_lets
    | with_reducible apply Within.ite
    | split
    | dsimp -zeta only
    | dsimp +zetaDelta only

theorem execEpochSwap_within (s : State) (s' : State)
    (h : execEpochSwap s = .next s') :
    Within (.allRegs [.quads, .lanes, .links, .lag, .prot, .core, .act, .latch, .irqs, .log, .pm, .events, .hbm, .mate, .alm, .ecc, .tim, .bus]) s s' := by
  delta execEpochSwap at h
  injection h with h
  subst h
  repeat' first
    | with_reducible assumption
    | with_reducible apply Within.refl
    | ((with_reducible apply Within.when); (case' hg => intro _ _))
    | ((with_reducible apply Within.after (State.swapAtE_within ..)); (case hle => decide))
    | with_reducible apply Within.ite
    | split
    | dsimp -zeta only

theorem execEpochSumSwap_within (s : State) (s' : State)
    (h : execEpochSumSwap s = .next s') :
    Within (.of [.core, .alm] [.coreSumCount]) s s' := by
  delta execEpochSumSwap at h
  injection h with h
  subst h
  repeat' first
    | with_reducible assumption
    | with_reducible apply Within.refl
    | ((with_reducible apply Within.when); (case' hg => intro _ _))
    | ((with_reducible apply Within.after (State.swapStep_within ..)); (case hle => decide))
    | ((with_reducible apply Within.after (State.swapSums_within ..)); (case hle => decide))
    | with_reducible apply Within.ite
    | split
    | dsimp -zeta only

theorem execEpochEmitSwap_within (s : State) (s' : State)
    (h : execEpochEmitSwap s = .next s') :
    Within (.of [.prot, .core, .act, .latch, .irqs, .log, .pm, .events, .alm, .bus] [.coreStationDis, .busStatus, .busGrants, .logState, .logEvbEntries, .logDropped, .logEvbLost, .logEntries, .sysIntSrc]) s s' := by
  delta execEpochEmitSwap at h
  injection h with h
  subst h
  repeat' first
    | with_reducible assumption
    | with_reducible apply Within.refl
    | ((with_reducible apply Within.when); (case' hg => intro _ _))
    | ((with_reducible apply Within.after (State.swapStep_within ..)); (case hle => decide))
    | ((with_reducible apply Within.after (State.bridgeSync_within ..)); (case hle => decide))
    | ((with_reducible apply Within.after (State.swapEmit_within ..)); (case hle => decide))
    | with_reducible apply Within.ite
    | split
    | dsimp -zeta only

theorem execEpochSwapComplete_within (s : State) (s' : State)
    (h : execEpochSwapComplete s = .next s') :
    Within (.of [.act, .latch, .irqs, .log, .pm, .events, .boot, .mate, .alm, .bus] [.almState, .almArmed, .almArmDis, .almEpochs, .almStageFail, .busStatus, .busGrants, .sysBootStatus, .logState, .logEvbEntries, .logDropped, .logEvbLost, .logEntries, .sysIntSrc]) s s' := by
  delta execEpochSwapComplete at h
  injection h with h
  subst h
  repeat' first
    | with_reducible assumption
    | with_reducible apply Within.refl
    | ((with_reducible apply Within.when); (case' hg => intro _ _))
    | ((with_reducible apply Within.after (State.swapComplete_within ..)); (case hle => decide))
    | ((with_reducible apply Within.after (State.swapStep_within ..)); (case hle => decide))
    | with_reducible apply Within.ite
    | split
    | dsimp -zeta only

theorem execEpochMissedClear_within (m : Master) (s : State) (s' : State)
    (h : execEpochMissedClear m s = .next s') :
    Within (.of [.act, .irqs, .log, .pm, .events, .bus] [.almState, .busStatus, .busErrLast, .busErrResp, .busDefault, .busSplits, .busGrants, .logState, .logEvbEntries, .logDropped, .logEvbLost, .logEntries, .sysIntSrc]) s s' := by
  delta execEpochMissedClear at h
  injection h with h
  subst h
  repeat' first
    | with_reducible assumption
    | with_reducible apply Within.refl
    | ((with_reducible apply Within.setFlag); (case hr => first | decide | exact Foot.allRegs_hasReg _ _ | exact Foot.all_hasReg _ | (subst_vars; decide) | ((try dsimp +zetaDelta only); split <;> first | decide | (split <;> first | decide | (split <;> decide)))))
    | ((with_reducible apply Within.byReg); (case hp => decide); (case hm => decide); (case he => decide); (case' hg => intro _ _))
    | ((with_reducible apply Within.after (State.clear_within ..)); (case hle => decide))
    | with_reducible apply Within.ite
    | split
    | dsimp -zeta only

end Sys2Proof.Machine
end

