-- ==== Sys2Proof/Laws/Footprint/Library.lean ====
section
/-! SUPPORT. What each operation of Machine/Library.lean may touch. -/

namespace Sys2Proof.Machine

theorem State.hbmMerge_within (s : State) (a1 : Nat) (data : List (Option Byte)) :
    Within (.of [.free, .tick, .act, .latch, .irqs, .log, .pm, .events, .ecc, .bus] [.eccStatus, .hbmCand, .hbmUe, .busStatus, .busGrants, .logState, .logEvbEntries, .logDropped, .logEvbLost, .logEntries, .sysIntSrc]) s (State.hbmMerge s a1 data).2.2 := by
  unfold State.hbmMerge
  lift_lets
  intro n met
  split
  · exact .refl _ s
  · exact Within.each _ _ (Within.set_ecc (.refl _ s) (by decide)) fun _ _ h => .after (State.hbmUncorrected_within ..) h (by decide)

theorem hbmPut_wf (bs : List (Option Byte)) (a : Nat) (m : Memory) (h : Memory.wf m = true) : Memory.wf (hbmPut bs a m) = true := by
  induction bs generalizing a m with
  | nil => exact h
  | cons b bs ih =>
    cases b with
    | none => exact ih _ _ h
    | some b => exact ih _ _ (Tbl.wf_set (d := (0 : Byte)) _ _ h)

theorem State.libraryWrite_within (s : State) (m : Master) (i off : Nat) (data : List (Option Byte)) :
    Within (Foot.of [.free, .tick, .act, .latch, .irqs, .log, .pm, .events, .hbm, .ecc, .bus] [.almSlotStatus, .eccStatus, .hbmCand, .hbmUe, .busStatus, .busErrLast, .busErrResp, .busDefault, .busGrants, .logState, .logEvbEntries, .logDropped, .logEvbLost, .logEntries, .sysIntSrc]) s (State.libraryWrite s m i off data) := by
  unfold State.libraryWrite
  dsimp only
  split
  · exact .after (State.errResp_within ..) (.refl _ s) (by decide)
  · have h := (State.hbmMerge_within s (slotBase i + off) data).mono (g := Foot.of [.free, .tick, .act, .latch, .irqs, .log, .pm, .events, .hbm, .ecc, .bus] [.almSlotStatus, .eccStatus, .hbmCand, .hbmUe, .busStatus, .busErrLast, .busErrResp, .busDefault, .busGrants, .logState, .logEvbEntries, .logDropped, .logEvbLost, .logEntries, .sysIntSrc]) (by decide)
    generalize s.hbmMerge (slotBase i + off) data = y at h ⊢
    obtain ⟨bad, d, y⟩ := y
    have h1 := Within.after (State.slotWritten_within _ i)
      (Within.set_hbm_any h (by decide) (by decide) (hbmPut_wf d (slotBase i + off) _)) (by decide)
    cases bad
    · exact h1
    · exact .after (State.errResp_within ..) h1 (by decide)

theorem Within.mirroredCmd {f : Foot} {s x : State} (r : Reg) (v : Nat) (g : State → State) (h : Within f s x)
    (hm : (Foot.of [.mate] []).le f = true) (hr : f.hasReg .mateUnmirrored = true) (hg : ∀ y, Within f s y → Within f s (g y)) :
    Within f s (x.mirroredCmd r v g) := h.mirrored _ _ _ _ hm hr hg

theorem State.slotDo_within (s : State) (op : Nat) (i : Nat) :
    Within (.of [.alm] [.almState, .almSlotCmd, .almSlotStatus]) s (State.slotDo s op i) := by
  delta State.slotDo
  repeat' first
    | with_reducible assumption
    | with_reducible apply Within.refl
    | ((with_reducible apply Within.wr); (case hr => first | decide | exact Foot.allRegs_hasReg _ _ | exact Foot.all_hasReg _ | (subst_vars; decide) | ((try dsimp +zetaDelta only); split <;> first | decide | (split <;> first | decide | (split <;> decide)))))
    | ((with_reducible apply Within.after (State.checkStart_within ..)); (case hle => decide))
    | ((with_reducible apply Within.after (State.stageStart_within ..)); (case hle => decide))
    | (intro x
       have hx : Within (.of [.alm] [.almState, .almSlotCmd, .almSlotStatus]) s x := by
         dsimp -zeta only [x]
         repeat' first
           | with_reducible assumption
           | with_reducible apply Within.refl
           | ((with_reducible apply Within.wr); (case hr => first | decide | exact Foot.allRegs_hasReg _ _ | exact Foot.all_hasReg _ | (subst_vars; decide) | ((try dsimp +zetaDelta only); split <;> first | decide | (split <;> first | decide | (split <;> decide)))))
           | ((with_reducible apply Within.after (State.checkStart_within ..)); (case hle => decide))
           | ((with_reducible apply Within.after (State.stageStart_within ..)); (case hle => decide))
           | with_reducible apply Within.ite
           | split
           | dsimp -zeta only
           | dsimp +zetaDelta only
       clear_value x)
    | intro x
    | lift_lets
    | with_reducible apply Within.ite
    | split
    | dsimp -zeta only
    | dsimp +zetaDelta only

theorem State.slotCmd_within (s : State) (m : Master) (op : Nat) (i : Nat) :
    Within (.of [.irqs, .mate, .alm] [.almState, .almSlotCmd, .almSlotStatus, .mateUnmirrored, .busErrLast, .busErrResp, .busDefault, .sysIntSrc]) s (State.slotCmd s m op i) := by
  delta State.slotCmd
  repeat' first
    | with_reducible assumption
    | with_reducible apply Within.refl
    | ((with_reducible apply Within.mirroredCmd); (case hm => decide); (case hr => first | decide | exact Foot.allRegs_hasReg _ _ | exact Foot.all_hasReg _ | (subst_vars; decide) | ((try dsimp +zetaDelta only); split <;> first | decide | (split <;> first | decide | (split <;> decide)))); (case' hg => intro _ _))
    | ((with_reducible apply Within.after (State.errResp_within ..)); (case hle => decide))
    | ((with_reducible apply Within.after (State.slotDo_within ..)); (case hle => decide))
    | (intro x
       have hx : Within (.of [.irqs, .mate, .alm] [.almState, .almSlotCmd, .almSlotStatus, .mateUnmirrored, .busErrLast, .busErrResp, .busDefault, .sysIntSrc]) s x := by
         dsimp -zeta only [x]
         repeat' first
           | with_reducible assumption
           | with_reducible apply Within.refl
           | ((with_reducible apply Within.mirroredCmd); (case hm => decide); (case hr => first | decide | exact Foot.allRegs_hasReg _ _ | exact Foot.all_hasReg _ | (subst_vars; decide) | ((try dsimp +zetaDelta only); split <;> first | decide | (split <;> first | decide | (split <;> decide)))); (case' hg => intro _ _))
           | ((with_reducible apply Within.after (State.errResp_within ..)); (case hle => decide))
           | ((with_reducible apply Within.after (State.slotDo_within ..)); (case hle => decide))
           | with_reducible apply Within.ite
           | split
           | dsimp -zeta only
           | dsimp +zetaDelta only
       clear_value x)
    | intro x
    | lift_lets
    | with_reducible apply Within.ite
    | split
    | dsimp -zeta only
    | dsimp +zetaDelta only

theorem State.armCmdDo_within (s : State) (mirrored : Bool) (op : Nat) :
    Within (.of [.act, .latch, .irqs, .log, .pm, .events, .alm, .bus] [.almState, .almArmCmd, .almArmed, .almArmDis, .busStatus, .busGrants, .logState, .logEvbEntries, .logDropped, .logEvbLost, .logEntries, .sysIntSrc]) s (State.armCmdDo s mirrored op) := by
  delta State.armCmdDo
  repeat' first
    | with_reducible assumption
    | with_reducible apply Within.refl
    | ((with_reducible apply Within.after (State.armDo_within ..)); (case hle => decide))
    | ((with_reducible apply Within.after (State.disarmDo_within ..)); (case hle => decide))
    | ((with_reducible apply Within.after (State.rejoinDo_within ..)); (case hle => decide))
    | with_reducible apply Within.ite
    | split
    | dsimp -zeta only

theorem State.armCmd_within (s : State) (op : Nat) :
    Within (.of [.act, .latch, .irqs, .log, .pm, .events, .mate, .alm, .bus] [.almState, .almArmCmd, .almArmed, .almArmDis, .mateUnmirrored, .busStatus, .busGrants, .logState, .logEvbEntries, .logDropped, .logEvbLost, .logEntries, .sysIntSrc]) s (State.armCmd s op) := by
  delta State.armCmd
  repeat' first
    | with_reducible assumption
    | with_reducible apply Within.refl
    | ((with_reducible apply Within.mirroredCmd); (case hm => decide); (case hr => first | decide | exact Foot.allRegs_hasReg _ _ | exact Foot.all_hasReg _ | (subst_vars; decide) | ((try dsimp +zetaDelta only); split <;> first | decide | (split <;> first | decide | (split <;> decide)))); (case' hg => intro _ _))
    | ((with_reducible apply Within.after (State.armCmdDo_within ..)); (case hle => decide))
    | with_reducible apply Within.ite
    | split
    | dsimp -zeta only

theorem State.trimGo_within (s : State) (m : Master) (v : Nat) (be : BitVec 8) :
    Within (.of [.irqs, .mate, .alm] [.almTrimCmd, .almTrimStatus, .mateUnmirrored, .busErrLast, .busErrResp, .busDefault, .sysIntSrc]) s (State.trimGo s m v be) := by
  delta State.trimGo
  repeat' first
    | with_reducible assumption
    | with_reducible apply Within.refl
    | ((with_reducible apply Within.setWord); (case hr => first | decide | exact Foot.allRegs_hasReg _ _ | exact Foot.all_hasReg _ | (subst_vars; decide) | ((try dsimp +zetaDelta only); split <;> first | decide | (split <;> first | decide | (split <;> decide)))))
    | ((with_reducible apply Within.count); (case hr => first | decide | exact Foot.allRegs_hasReg _ _ | exact Foot.all_hasReg _ | (subst_vars; decide) | ((try dsimp +zetaDelta only); split <;> first | decide | (split <;> first | decide | (split <;> decide)))))
    | ((with_reducible apply Within.when); (case' hg => intro _ _))
    | ((with_reducible apply Within.mirrored); (case hm => decide); (case hr => first | decide | exact Foot.allRegs_hasReg _ _ | exact Foot.all_hasReg _ | (subst_vars; decide) | ((try dsimp +zetaDelta only); split <;> first | decide | (split <;> first | decide | (split <;> decide)))); (case' hg => intro _ _))
    | ((with_reducible apply Within.after (State.errResp_within ..)); (case hle => decide))
    | ((with_reducible apply Within.after (State.trimResult_within ..)); (case hle => decide))
    | ((with_reducible apply Within.after (State.trimQueue_within ..)); (case hle => decide))
    | with_reducible apply Within.ite
    | split
    | dsimp -zeta only

theorem State.trimNote_within (s : State) (t : Trim) :
    Within (.of [.mate] []) s (State.trimNote s t) := by
  delta State.trimNote
  repeat' first
    | with_reducible assumption
    | with_reducible apply Within.refl
    | (intro x
       have hx : Within (.of [.mate] []) s x := by
         dsimp -zeta only [x]
         repeat' first
           | with_reducible assumption
           | with_reducible apply Within.refl
           | with_reducible apply Within.ite
           | ((with_reducible apply Within.set_mate); (case hc => decide))
           | split
           | dsimp -zeta only
           | dsimp +zetaDelta only
       clear_value x)
    | intro x
    | lift_lets
    | with_reducible apply Within.ite
    | ((with_reducible apply Within.set_mate); (case hc => decide))
    | split
    | dsimp -zeta only
    | dsimp +zetaDelta only

theorem State.windowDo_within (s : State) (m : Option Master) (addr : Nat) (data : List (Option Byte)) (cyc : Nat) :
    Within (.of [.free, .tick, .core, .act, .latch, .irqs, .log, .pm, .events, .ecc, .bus] [.almState, .almStageFail, .eccStatus, .eccLastUe, .eccTrack, .eccCorr, .eccUe, .eccPoison, .eccTrackFull, .busStatus, .busErrLast, .busErrResp, .busDefault, .busGrants, .logState, .logEvbEntries, .logDropped, .logEvbLost, .logEntries, .sysIntSrc]) s (State.windowDo s m addr data cyc) := by
  delta State.windowDo
  repeat' first
    | with_reducible assumption
    | with_reducible apply Within.refl
    | ((with_reducible apply Within.after (State.errResp_within ..)); (case hle => decide))
    | ((with_reducible apply Within.after (State.winWrite_within ..)); (case hle => decide))
    | ((with_reducible apply Within.after (Within.of_eq (State.winWrite_within ..) ?e)); (case e => assumption); (case hle => decide))
    | (intro x
       have hx : Within (.of [.free, .tick, .core, .act, .latch, .irqs, .log, .pm, .events, .ecc, .bus] [.almState, .almStageFail, .eccStatus, .eccLastUe, .eccTrack, .eccCorr, .eccUe, .eccPoison, .eccTrackFull, .busStatus, .busErrLast, .busErrResp, .busDefault, .busGrants, .logState, .logEvbEntries, .logDropped, .logEvbLost, .logEntries, .sysIntSrc]) s x := by
         dsimp -zeta only [x]
         repeat' first
           | with_reducible assumption
           | with_reducible apply Within.refl
           | ((with_reducible apply Within.after (State.errResp_within ..)); (case hle => decide))
           | ((with_reducible apply Within.after (State.winWrite_within ..)); (case hle => decide))
           | ((with_reducible apply Within.after (Within.of_eq (State.winWrite_within ..) ?e)); (case e => assumption); (case hle => decide))
           | with_reducible apply Within.ite
           | split
           | dsimp -zeta only
           | dsimp +zetaDelta only
       clear_value x)
    | intro x
    | lift_lets
    | with_reducible apply Within.ite
    | split
    | dsimp -zeta only
    | dsimp +zetaDelta only

theorem State.windowWrite_within (s : State) (m : Master) (addr : Nat) (data : List (Option Byte)) (cyc : Nat) :
    Within (.of [.free, .tick, .core, .act, .latch, .irqs, .log, .pm, .events, .mate, .alm, .ecc, .bus] [.almState, .almStageFail, .mateUnmirrored, .eccStatus, .eccLastUe, .eccTrack, .eccCorr, .eccUe, .eccPoison, .eccTrackFull, .busStatus, .busErrLast, .busCollLast, .busErrResp, .busDefault, .busGrants, .busCollisions, .logState, .logEvbEntries, .logDropped, .logEvbLost, .logEntries, .sysIntSrc]) s (State.windowWrite s m addr data cyc) := by
  delta State.windowWrite
  repeat' first
    | with_reducible assumption
    | with_reducible apply Within.refl
    | ((with_reducible apply Within.count); (case hr => first | decide | exact Foot.allRegs_hasReg _ _ | exact Foot.all_hasReg _ | (subst_vars; decide) | ((try dsimp +zetaDelta only); split <;> first | decide | (split <;> first | decide | (split <;> decide)))))
    | ((with_reducible apply Within.each); (case' hg => intro _ _ _))
    | ((with_reducible apply Within.when); (case' hg => intro _ _))
    | ((with_reducible apply Within.after (State.errResp_within ..)); (case hle => decide))
    | ((with_reducible apply Within.after (State.noteWrite_within ..)); (case hle => decide))
    | ((with_reducible apply Within.after (State.mirror_within ..)); (case hle => decide))
    | ((with_reducible apply Within.after (State.windowDo_within ..)); (case hle => decide))
    | (intro x
       have hx : Within (.of [.free, .tick, .core, .act, .latch, .irqs, .log, .pm, .events, .mate, .alm, .ecc, .bus] [.almState, .almStageFail, .mateUnmirrored, .eccStatus, .eccLastUe, .eccTrack, .eccCorr, .eccUe, .eccPoison, .eccTrackFull, .busStatus, .busErrLast, .busCollLast, .busErrResp, .busDefault, .busGrants, .busCollisions, .logState, .logEvbEntries, .logDropped, .logEvbLost, .logEntries, .sysIntSrc]) s x := by
         dsimp -zeta only [x]
         repeat' first
           | with_reducible assumption
           | with_reducible apply Within.refl
           | ((with_reducible apply Within.count); (case hr => first | decide | exact Foot.allRegs_hasReg _ _ | exact Foot.all_hasReg _ | (subst_vars; decide) | ((try dsimp +zetaDelta only); split <;> first | decide | (split <;> first | decide | (split <;> decide)))))
           | ((with_reducible apply Within.each); (case' hg => intro _ _ _))
           | ((with_reducible apply Within.when); (case' hg => intro _ _))
           | ((with_reducible apply Within.after (State.errResp_within ..)); (case hle => decide))
           | ((with_reducible apply Within.after (State.noteWrite_within ..)); (case hle => decide))
           | ((with_reducible apply Within.after (State.mirror_within ..)); (case hle => decide))
           | ((with_reducible apply Within.after (State.windowDo_within ..)); (case hle => decide))
           | with_reducible apply Within.ite
           | split
           | dsimp -zeta only
           | dsimp +zetaDelta only
           | ((with_reducible apply Within.set_alm); (case hc => decide))
       clear_value x)
    | intro x
    | lift_lets
    | with_reducible apply Within.ite
    | split
    | dsimp -zeta only
    | dsimp +zetaDelta only
    | ((with_reducible apply Within.set_alm); (case hc => decide))

theorem State.answerPatch_within (s : State) (m : Master) (k : Nat) (ok : Bool) (bs : List Byte) :
    Within (.of [.bus] []) s (State.answerPatch s m k ok bs) := by
  delta State.answerPatch
  repeat' first
    | with_reducible assumption
    | with_reducible apply Within.refl
    | ((with_reducible apply Within.after (State.answer_within ..)); (case hle => decide))
    | (intro x
       have hx : Within (.of [.bus] []) s x := by
         dsimp -zeta only [x]
         repeat' first
           | with_reducible assumption
           | with_reducible apply Within.refl
           | ((with_reducible apply Within.after (State.answer_within ..)); (case hle => decide))
           | with_reducible apply Within.ite
           | split
           | dsimp -zeta only
           | dsimp +zetaDelta only
       clear_value x)
    | intro x
    | lift_lets
    | with_reducible apply Within.ite
    | split
    | dsimp -zeta only
    | dsimp +zetaDelta only

theorem State.windowPart_within (s : State) (a1 : Nat) (n : Nat) (cyc : Nat) :
    Within (.of [.free, .tick, .act, .latch, .irqs, .log, .pm, .events, .ecc, .bus] [.almState, .almStageFail, .eccStatus, .eccLastUe, .eccTrack, .eccCorr, .eccUe, .eccPoison, .eccTrackFull, .busStatus, .busGrants, .logState, .logEvbEntries, .logDropped, .logEvbLost, .logEntries, .sysIntSrc]) s (State.windowPart s a1 n cyc).2 := by
  delta State.windowPart
  repeat' first
    | with_reducible assumption
    | with_reducible apply Within.refl
    | ((with_reducible apply Within.after (State.winRead_within ..)); (case hle => decide))
    | ((with_reducible apply Within.after (Within.of_eq (State.winRead_within ..) ?e)); (case e => assumption); (case hle => decide))
    | with_reducible apply Within.ite
    | split
    | dsimp -zeta only

theorem State.windowAnswer_within (s : State) (m : Master) (a2 : Nat) (n : Nat) (k : Nat) (cyc : Nat) :
    Within (.of [.free, .tick, .act, .latch, .irqs, .log, .pm, .events, .ecc, .bus] [.almState, .almStageFail, .eccStatus, .eccLastUe, .eccTrack, .eccCorr, .eccUe, .eccPoison, .eccTrackFull, .busStatus, .busErrLast, .busErrResp, .busDefault, .busGrants, .logState, .logEvbEntries, .logDropped, .logEvbLost, .logEntries, .sysIntSrc]) s (State.windowAnswer s m a2 n k cyc) := by
  delta State.windowAnswer
  repeat' first
    | with_reducible assumption
    | with_reducible apply Within.refl
    | ((with_reducible apply Within.after (State.windowPart_within ..)); (case hle => decide))
    | ((with_reducible apply Within.after (Within.of_eq (State.windowPart_within ..) ?e)); (case e => assumption); (case hle => decide))
    | ((with_reducible apply Within.after (State.answerPatch_within ..)); (case hle => decide))
    | ((with_reducible apply Within.after (State.errResp_within ..)); (case hle => decide))
    | with_reducible apply Within.ite
    | split
    | dsimp -zeta only

theorem State.windowTake_within (s : State) (w : WindowWrite) (j : Nat) :
    Within (.of [.free, .tick, .core, .act, .latch, .irqs, .log, .pm, .events, .ecc, .bus] [.almState, .almStageFail, .eccStatus, .eccLastUe, .eccTrack, .eccCorr, .eccUe, .eccPoison, .eccTrackFull, .busStatus, .busErrLast, .busErrResp, .busDefault, .busGrants, .logState, .logEvbEntries, .logDropped, .logEvbLost, .logEntries, .sysIntSrc]) s (State.windowTake s w j) := by
  delta State.windowTake
  repeat' first
    | with_reducible assumption
    | with_reducible apply Within.refl
    | ((with_reducible apply Within.after (State.windowDo_within ..)); (case hle => decide))
    | ((with_reducible apply Within.after (State.windowAnswer_within ..)); (case hle => decide))
    | with_reducible apply Within.ite
    | split
    | dsimp -zeta only

theorem State.auditCtrl_within (s : State) (en : Bool) :
    Within (.of [.alm] [.almAuditCtrl]) s (State.auditCtrl s en) := by
  delta State.auditCtrl
  repeat' first
    | with_reducible assumption
    | with_reducible apply Within.refl
    | ((with_reducible apply Within.setFlag); (case hr => first | decide | exact Foot.allRegs_hasReg _ _ | exact Foot.all_hasReg _ | (subst_vars; decide) | ((try dsimp +zetaDelta only); split <;> first | decide | (split <;> first | decide | (split <;> decide)))))
    | ((with_reducible apply Within.after (State.auditBegin_within ..)); (case hle => decide))
    | (intro x
       have hx : Within (.of [.alm] [.almAuditCtrl]) s x := by
         dsimp -zeta only [x]
         repeat' first
           | with_reducible assumption
           | with_reducible apply Within.refl
           | ((with_reducible apply Within.setFlag); (case hr => first | decide | exact Foot.allRegs_hasReg _ _ | exact Foot.all_hasReg _ | (subst_vars; decide) | ((try dsimp +zetaDelta only); split <;> first | decide | (split <;> first | decide | (split <;> decide)))))
           | ((with_reducible apply Within.after (State.auditBegin_within ..)); (case hle => decide))
           | with_reducible apply Within.ite
           | split
           | dsimp -zeta only
           | dsimp +zetaDelta only
       clear_value x)
    | intro x
    | lift_lets
    | with_reducible apply Within.ite
    | split
    | dsimp -zeta only
    | dsimp +zetaDelta only

theorem execLibraryWrite_within (m : Master) (i : SlotId) (off : Nat) (data : List Byte) (s : State) (s' : State)
    (h : execLibraryWrite m i off data s = .next s') :
    Within (.of [.free, .tick, .act, .latch, .irqs, .log, .pm, .events, .hbm, .ecc, .bus] [.almSlotStatus, .eccStatus, .hbmCand, .hbmUe, .busStatus, .busErrLast, .busErrResp, .busDefault, .busSplits, .busGrants, .logState, .logEvbEntries, .logDropped, .logEvbLost, .logEntries, .sysIntSrc]) s s' := by
  delta execLibraryWrite at h
  injection h with h
  subst h
  repeat' first
    | with_reducible assumption
    | with_reducible apply Within.refl
    | ((with_reducible apply Within.byTarget); (case hp => decide); (case hm => decide); (case he => decide); (case' hg => intro _ _))
    | ((with_reducible apply Within.after (State.meter_within ..)); (case hle => decide))
    | ((with_reducible apply Within.after (State.libraryWrite_within ..)); (case hle => decide))
    | with_reducible apply Within.ite
    | split
    | dsimp -zeta only

theorem execAlmCheck_within (m : Master) (i : SlotId) (s : State) (s' : State)
    (h : execAlmCheck m i s = .next s') :
    Within (.of [.irqs, .pm, .mate, .alm, .bus] [.almState, .almSlotCmd, .almSlotStatus, .mateUnmirrored, .busErrLast, .busErrResp, .busDefault, .busSplits, .busGrants, .sysIntSrc]) s s' := by
  delta execAlmCheck at h
  injection h with h
  subst h
  repeat' first
    | with_reducible assumption
    | with_reducible apply Within.refl
    | ((with_reducible apply Within.byReg); (case hp => decide); (case hm => decide); (case he => decide); (case' hg => intro _ _))
    | ((with_reducible apply Within.after (State.slotCmd_within ..)); (case hle => decide))
    | with_reducible apply Within.ite
    | split
    | dsimp -zeta only

theorem execAlmCheckDone_within (readUe : Option Nat) (s : State) (s' : State)
    (h : execAlmCheckDone readUe s = .next s') :
    Within (.of [.free, .tick, .act, .latch, .irqs, .log, .pm, .events, .alm, .ecc, .bus] [.almState, .almSlotStatus, .almCheckReject, .eccStatus, .hbmCand, .hbmUe, .busStatus, .busGrants, .logState, .logEvbEntries, .logDropped, .logEvbLost, .logEntries, .sysIntSrc]) s s' := by
  delta execAlmCheckDone at h
  injection h with h
  subst h
  repeat' first
    | with_reducible assumption
    | with_reducible apply Within.refl
    | ((with_reducible apply Within.after (State.checkEnd_within ..)); (case hle => decide))
    | with_reducible apply Within.ite
    | split
    | dsimp -zeta only

theorem execAlmStage_within (m : Master) (i : SlotId) (s : State) (s' : State)
    (h : execAlmStage m i s = .next s') :
    Within (.of [.irqs, .pm, .mate, .alm, .bus] [.almState, .almSlotCmd, .almSlotStatus, .mateUnmirrored, .busErrLast, .busErrResp, .busDefault, .busSplits, .busGrants, .sysIntSrc]) s s' := by
  delta execAlmStage at h
  injection h with h
  subst h
  repeat' first
    | with_reducible assumption
    | with_reducible apply Within.refl
    | ((with_reducible apply Within.byReg); (case hp => decide); (case hm => decide); (case he => decide); (case' hg => intro _ _))
    | ((with_reducible apply Within.after (State.slotCmd_within ..)); (case hle => decide))
    | with_reducible apply Within.ite
    | split
    | dsimp -zeta only

theorem execAlmStageDone_within (readUe : Bool) (s : State) (s' : State)
    (h : execAlmStageDone readUe s = .next s') :
    Within (.of [.free, .tick, .core, .act, .latch, .irqs, .log, .pm, .events, .alm, .ecc, .bus] [.almState, .almStageFail, .eccStatus, .eccTrack, .hbmCand, .hbmUe, .busStatus, .busGrants, .logState, .logEvbEntries, .logDropped, .logEvbLost, .logEntries, .sysIntSrc]) s s' := by
  delta execAlmStageDone at h
  injection h with h
  subst h
  repeat' first
    | with_reducible assumption
    | with_reducible apply Within.refl
    | ((with_reducible apply Within.after (State.stageEnd_within ..)); (case hle => decide))
    | with_reducible apply Within.ite
    | split
    | dsimp -zeta only

theorem execAlmArm_within (m : Master) (s : State) (s' : State)
    (h : execAlmArm m s = .next s') :
    Within (.of [.act, .latch, .irqs, .log, .pm, .events, .mate, .alm, .bus] [.almState, .almArmCmd, .almArmed, .almArmDis, .mateUnmirrored, .busStatus, .busErrLast, .busErrResp, .busDefault, .busSplits, .busGrants, .logState, .logEvbEntries, .logDropped, .logEvbLost, .logEntries, .sysIntSrc]) s s' := by
  delta execAlmArm at h
  injection h with h
  subst h
  repeat' first
    | with_reducible assumption
    | with_reducible apply Within.refl
    | ((with_reducible apply Within.byReg); (case hp => decide); (case hm => decide); (case he => decide); (case' hg => intro _ _))
    | ((with_reducible apply Within.after (State.armCmd_within ..)); (case hle => decide))
    | with_reducible apply Within.ite
    | split
    | dsimp -zeta only

theorem execAlmDisarm_within (m : Master) (s : State) (s' : State)
    (h : execAlmDisarm m s = .next s') :
    Within (.of [.act, .latch, .irqs, .log, .pm, .events, .mate, .alm, .bus] [.almState, .almArmCmd, .almArmed, .almArmDis, .mateUnmirrored, .busStatus, .busErrLast, .busErrResp, .busDefault, .busSplits, .busGrants, .logState, .logEvbEntries, .logDropped, .logEvbLost, .logEntries, .sysIntSrc]) s s' := by
  delta execAlmDisarm at h
  injection h with h
  subst h
  repeat' first
    | with_reducible assumption
    | with_reducible apply Within.refl
    | ((with_reducible apply Within.byReg); (case hp => decide); (case hm => decide); (case he => decide); (case' hg => intro _ _))
    | ((with_reducible apply Within.after (State.armCmd_within ..)); (case hle => decide))
    | with_reducible apply Within.ite
    | split
    | dsimp -zeta only

theorem execAlmRejoin_within (m : Master) (s : State) (s' : State)
    (h : execAlmRejoin m s = .next s') :
    Within (.of [.act, .latch, .irqs, .log, .pm, .events, .mate, .alm, .bus] [.almState, .almArmCmd, .almArmed, .almArmDis, .mateUnmirrored, .busStatus, .busErrLast, .busErrResp, .busDefault, .busSplits, .busGrants, .logState, .logEvbEntries, .logDropped, .logEvbLost, .logEntries, .sysIntSrc]) s s' := by
  delta execAlmRejoin at h
  injection h with h
  subst h
  repeat' first
    | with_reducible assumption
    | with_reducible apply Within.refl
    | ((with_reducible apply Within.byReg); (case hp => decide); (case hm => decide); (case he => decide); (case' hg => intro _ _))
    | ((with_reducible apply Within.after (State.armCmd_within ..)); (case hle => decide))
    | with_reducible apply Within.ite
    | split
    | dsimp -zeta only

theorem execTrimGo_within (m : Master) (output : Bool) (index : BitVec 21) (gain : BitVec 12) (s : State) (s' : State)
    (h : execTrimGo m output index gain s = .next s') :
    Within (.of [.irqs, .pm, .mate, .alm, .bus] [.almTrimCmd, .almTrimStatus, .mateUnmirrored, .busErrLast, .busErrResp, .busDefault, .busSplits, .busGrants, .sysIntSrc]) s s' := by
  delta execTrimGo at h
  injection h with h
  subst h
  repeat' first
    | with_reducible assumption
    | with_reducible apply Within.refl
    | ((with_reducible apply Within.byReg); (case hp => decide); (case hm => decide); (case he => decide); (case' hg => intro _ _))
    | ((with_reducible apply Within.after (State.trimGo_within ..)); (case hle => decide))
    | with_reducible apply Within.ite
    | split
    | dsimp -zeta only

theorem execTrimApply_within (s : State) (s' : State)
    (h : execTrimApply s = .next s') :
    Within (.of [.free, .tick, .core, .act, .latch, .irqs, .log, .pm, .events, .mate, .alm, .ecc, .bus] [.coreResvMirror, .almState, .almTrimStatus, .almStageFail, .almTrims, .eccStatus, .eccLastUe, .eccTrack, .eccCorr, .eccUe, .eccPoison, .eccTrackFull, .busStatus, .busGrants, .logState, .logEvbEntries, .logDropped, .logEvbLost, .logEntries, .sysIntSrc]) s s' := by
  delta execTrimApply at h
  injection h with h
  subst h
  repeat' first
    | with_reducible assumption
    | with_reducible apply Within.refl
    | ((with_reducible apply Within.after (State.trimNote_within ..)); (case hle => decide))
    | ((with_reducible apply Within.after (State.trimDo_within ..)); (case hle => decide))
    | (intro x
       have hx : Within (.of [.free, .tick, .core, .act, .latch, .irqs, .log, .pm, .events, .mate, .alm, .ecc, .bus] [.coreResvMirror, .almState, .almTrimStatus, .almStageFail, .almTrims, .eccStatus, .eccLastUe, .eccTrack, .eccCorr, .eccUe, .eccPoison, .eccTrackFull, .busStatus, .busGrants, .logState, .logEvbEntries, .logDropped, .logEvbLost, .logEntries, .sysIntSrc]) s x := by
         dsimp -zeta only [x]
         repeat' first
           | with_reducible assumption
           | with_reducible apply Within.refl
           | ((with_reducible apply Within.after (State.trimNote_within ..)); (case hle => decide))
           | ((with_reducible apply Within.after (State.trimDo_within ..)); (case hle => decide))
           | with_reducible apply Within.ite
           | split
           | dsimp -zeta only
           | dsimp +zetaDelta only
           | ((with_reducible apply Within.set_alm); (case hc => decide))
       clear_value x)
    | intro x
    | lift_lets
    | with_reducible apply Within.ite
    | split
    | dsimp -zeta only
    | dsimp +zetaDelta only
    | ((with_reducible apply Within.set_alm); (case hc => decide))

theorem execTableWindowWrite_within (m : Master) (addr : Nat) (data : List (Option Byte)) (cyc : Nat) (s : State) (s' : State)
    (h : execTableWindowWrite m addr data cyc s = .next s') :
    Within (.of [.free, .tick, .core, .act, .latch, .irqs, .log, .pm, .events, .mate, .alm, .ecc, .bus] [.almState, .almStageFail, .mateUnmirrored, .eccStatus, .eccLastUe, .eccTrack, .eccCorr, .eccUe, .eccPoison, .eccTrackFull, .busStatus, .busErrLast, .busCollLast, .busErrResp, .busDefault, .busSplits, .busGrants, .busCollisions, .logState, .logEvbEntries, .logDropped, .logEvbLost, .logEntries, .sysIntSrc]) s s' := by
  delta execTableWindowWrite at h
  injection h with h
  subst h
  repeat' first
    | with_reducible assumption
    | with_reducible apply Within.refl
    | ((with_reducible apply Within.byTarget); (case hp => decide); (case hm => decide); (case he => decide); (case' hg => intro _ _))
    | ((with_reducible apply Within.after (State.windowWrite_within ..)); (case hle => decide))
    | with_reducible apply Within.ite
    | split
    | dsimp -zeta only

theorem execTableWindowApply_within (j : ReservedId) (s : State) (s' : State)
    (h : execTableWindowApply j s = .next s') :
    Within (.of [.free, .tick, .core, .act, .latch, .irqs, .log, .pm, .events, .alm, .ecc, .bus] [.coreResvCtrl, .almState, .almStageFail, .eccStatus, .eccLastUe, .eccTrack, .eccCorr, .eccUe, .eccPoison, .eccTrackFull, .busStatus, .busErrLast, .busErrResp, .busDefault, .busGrants, .logState, .logEvbEntries, .logDropped, .logEvbLost, .logEntries, .sysIntSrc]) s s' := by
  delta execTableWindowApply at h
  injection h with h
  subst h
  repeat' first
    | with_reducible assumption
    | with_reducible apply Within.refl
    | ((with_reducible apply Within.when); (case' hg => intro _ _))
    | ((with_reducible apply Within.each); (case' hg => intro _ _ _))
    | ((with_reducible apply Within.after (State.ctrlCycle_within ..)); (case hle => decide))
    | ((with_reducible apply Within.after (State.windowTake_within ..)); (case hle => decide))
    | (intro x
       have hx : Within (.of [.free, .tick, .core, .act, .latch, .irqs, .log, .pm, .events, .alm, .ecc, .bus] [.coreResvCtrl, .almState, .almStageFail, .eccStatus, .eccLastUe, .eccTrack, .eccCorr, .eccUe, .eccPoison, .eccTrackFull, .busStatus, .busErrLast, .busErrResp, .busDefault, .busGrants, .logState, .logEvbEntries, .logDropped, .logEvbLost, .logEntries, .sysIntSrc]) s x := by
         dsimp -zeta only [x]
         repeat' first
           | with_reducible assumption
           | with_reducible apply Within.refl
           | ((with_reducible apply Within.when); (case' hg => intro _ _))
           | ((with_reducible apply Within.each); (case' hg => intro _ _ _))
           | ((with_reducible apply Within.after (State.ctrlCycle_within ..)); (case hle => decide))
           | ((with_reducible apply Within.after (State.windowTake_within ..)); (case hle => decide))
           | with_reducible apply Within.ite
           | split
           | dsimp -zeta only
           | dsimp +zetaDelta only
           | ((with_reducible apply Within.set_alm); (case hc => decide))
       clear_value x)
    | intro x
    | lift_lets
    | with_reducible apply Within.ite
    | split
    | dsimp -zeta only
    | dsimp +zetaDelta only
    | ((with_reducible apply Within.set_alm); (case hc => decide))

theorem execAuditPassEnd_within (s : State) (s' : State)
    (h : execAuditPassEnd s = .next s') :
    Within (.of [.free, .tick, .act, .latch, .irqs, .log, .pm, .events, .alm, .ecc, .bus] [.almState, .almAuditStatus, .almStageFail, .almAuditPasses, .almAuditMismatch, .eccStatus, .eccLastUe, .eccTrack, .eccCorr, .eccUe, .eccPoison, .eccTrackFull, .busStatus, .busGrants, .logState, .logEvbEntries, .logDropped, .logEvbLost, .logEntries, .sysIntSrc]) s s' := by
  delta execAuditPassEnd at h
  injection h with h
  subst h
  repeat' first
    | with_reducible assumption
    | with_reducible apply Within.refl
    | ((with_reducible apply Within.when); (case' hg => intro _ _))
    | ((with_reducible apply Within.after (State.auditEnd_within ..)); (case hle => decide))
    | with_reducible apply Within.ite
    | split
    | dsimp -zeta only

theorem execAlmAuditCtrlWrite_within (m : Master) (en : Bool) (s : State) (s' : State)
    (h : execAlmAuditCtrlWrite m en s = .next s') :
    Within (.of [.irqs, .pm, .mate, .alm, .bus] [.almAuditCtrl, .mateUnmirrored, .busErrLast, .busErrResp, .busDefault, .busSplits, .busGrants, .sysIntSrc]) s s' := by
  delta execAlmAuditCtrlWrite at h
  injection h with h
  subst h
  repeat' first
    | with_reducible assumption
    | with_reducible apply Within.refl
    | ((with_reducible apply Within.byReg); (case hp => decide); (case hm => decide); (case he => decide); (case' hg => intro _ _))
    | ((with_reducible apply Within.mirroredCmd); (case hm => decide); (case hr => first | decide | exact Foot.allRegs_hasReg _ _ | exact Foot.all_hasReg _ | (subst_vars; decide) | ((try dsimp +zetaDelta only); split <;> first | decide | (split <;> first | decide | (split <;> decide)))); (case' hg => intro _ _))
    | ((with_reducible apply Within.after (State.auditCtrl_within ..)); (case hle => decide))
    | with_reducible apply Within.ite
    | split
    | dsimp -zeta only

end Sys2Proof.Machine
end

