-- ==== Sys2Proof/Laws/Footprint/Shared.lean ====
section
/-! SUPPORT. What each operation of Machine/Shared.lean may touch. -/

namespace Sys2Proof.Machine

theorem State.setBank_within (s : State) (n : Nat) (st : Nat) (owner : Nat) :
    Within (.of [] [.busScrOwn]) s (State.setBank s n st owner) := by
  delta State.setBank
  repeat' first
    | with_reducible assumption
    | with_reducible apply Within.refl
    | ((with_reducible apply Within.wr); (case hr => first | decide | exact Foot.allRegs_hasReg _ _ | exact Foot.all_hasReg _ | (subst_vars; decide) | ((try dsimp +zetaDelta only); split <;> first | decide | (split <;> first | decide | (split <;> decide)))))
    | with_reducible apply Within.ite
    | split
    | dsimp -zeta only

theorem State.dbPend_within (s : State) (m : Nat) (n : Nat) :
    Within (.of [.irqs] [.busDbPend]) s (State.dbPend s m n) := by
  delta State.dbPend
  repeat' first
    | with_reducible assumption
    | with_reducible apply Within.refl
    | ((with_reducible apply Within.wrBit); (case hr => first | decide | exact Foot.allRegs_hasReg _ _ | exact Foot.all_hasReg _ | (subst_vars; decide) | ((try dsimp +zetaDelta only); split <;> first | decide | (split <;> first | decide | (split <;> decide)))))
    | ((with_reducible apply Within.after (State.irqSync_within ..)); (case hle => decide))
    | with_reducible apply Within.ite
    | split
    | dsimp -zeta only

theorem State.ownOp_within (s : State) (m n op : Nat) (t : State) (h : State.ownOp s m n op = some t) : Within (Foot.of [.irqs] [.busScrOwn, .busDbPend]) s t := by
  unfold State.ownOp at h
  dsimp only at h
  split at h
  · cases h
    exact .refl _ _
  · split at h <;> cases h
    exact .after (State.setBank_within ..) (.refl _ s) (by decide)
  · split at h <;> cases h
    exact .after (State.setBank_within ..) (.refl _ s) (by decide)
  · split at h <;> cases h
    exact .after (State.dbPend_within ..) (.after (State.setBank_within ..) (.refl _ s) (by decide)) (by decide)

theorem State.scrOwnWrite_within (s : State) (m : Master) (n : Nat) (op : Nat) (dest : Option Nat) :
    Within (.of [.irqs] [.busErrLast, .busScrOwn, .busDbPend, .busErrResp, .busDefault, .sysIntSrc]) s (State.scrOwnWrite s m n op dest) := by
  have key : ∀ x, Within (Foot.of [.irqs] [.busErrLast, .busScrOwn, .busDbPend, .busErrResp, .busDefault, .sysIntSrc]) s x → Within (Foot.of [.irqs] [.busErrLast, .busScrOwn, .busDbPend, .busErrResp, .busDefault, .sysIntSrc]) s (match x.ownOp (masterNum m) n op with
      | some t => t | none => s.errResp m (regAddr .busScrOwn n) true .owner) := by
    intro x h
    split
    · rename_i e
      exact .after (State.ownOp_within _ _ _ _ _ e) h (by decide)
    · exact .after (State.errResp_within ..) (.refl _ s) (by decide)
  unfold State.scrOwnWrite
  cases dest
  · exact key _ (.refl _ s)
  · exact key _ ((Within.refl _ s).wr _ _ _ (by decide))

theorem State.setScratch_within (s : State) (n : Nat) (w : Nat) (v : Nat) :
    Within (.of [.bus] []) s (State.setScratch s n w v) := by
  delta State.setScratch
  repeat' first
    | with_reducible assumption
    | with_reducible apply Within.refl
    | with_reducible apply Within.ite
    | ((with_reducible apply Within.set_bus); (case hc => decide))
    | split
    | dsimp -zeta only

theorem State.scratchGet_within (s : State) (n : Nat) (w : Nat) :
    Within (.of [.free, .tick, .act, .latch, .irqs, .log, .pm, .events, .ecc, .bus] [.almState, .almStageFail, .eccStatus, .eccLastUe, .eccTrack, .eccCorr, .eccUe, .eccPoison, .eccTrackFull, .busStatus, .busGrants, .logState, .logEvbEntries, .logDropped, .logEvbLost, .logEntries, .sysIntSrc]) s (State.scratchGet s n w).2 := by
  delta State.scratchGet
  repeat' first
    | with_reducible assumption
    | with_reducible apply Within.refl
    | ((with_reducible apply Within.after (State.sramRead_within ..)); (case hle => decide))
    | ((with_reducible apply Within.after (Within.of_eq (State.sramRead_within ..) ?e)); (case e => assumption); (case hle => decide))
    | with_reducible apply Within.ite
    | split
    | dsimp -zeta only

theorem State.scratchRead_within (s : State) (m : Master) (n : Nat) (w : Nat) :
    Within (.of [.free, .tick, .act, .latch, .irqs, .log, .pm, .events, .ecc, .bus] [.almState, .almStageFail, .eccStatus, .eccLastUe, .eccTrack, .eccCorr, .eccUe, .eccPoison, .eccTrackFull, .busStatus, .busGrants, .logState, .logEvbEntries, .logDropped, .logEvbLost, .logEntries, .sysIntSrc]) s (State.scratchRead s m n w).2 := by
  delta State.scratchRead
  repeat' first
    | with_reducible assumption
    | with_reducible apply Within.refl
    | ((with_reducible apply Within.after (State.scratchGet_within ..)); (case hle => decide))
    | ((with_reducible apply Within.after (Within.of_eq (State.scratchGet_within ..) ?e)); (case e => assumption); (case hle => decide))
    | with_reducible apply Within.ite
    | split
    | dsimp -zeta only

theorem State.scratchWrite_within (s : State) (m : Master) (n : Nat) (w : Nat) (cyc : Nat) (lanes : List (Option Byte)) :
    Within (.of [.free, .tick, .act, .latch, .irqs, .log, .pm, .events, .ecc, .bus] [.almState, .almStageFail, .eccStatus, .eccLastUe, .eccTrack, .eccCorr, .eccUe, .eccPoison, .eccTrackFull, .busStatus, .busCollLast, .busGrants, .busCollisions, .logState, .logEvbEntries, .logDropped, .logEvbLost, .logEntries, .sysIntSrc]) s (State.scratchWrite s m n w cyc lanes).2 := by
  delta State.scratchWrite
  repeat' first
    | with_reducible assumption
    | with_reducible apply Within.refl
    | ((with_reducible apply Within.after (State.noteWrite_within ..)); (case hle => decide))
    | ((with_reducible apply Within.after (State.setScratch_within ..)); (case hle => decide))
    | ((with_reducible apply Within.after (State.fullWrite_within ..)); (case hle => decide))
    | ((with_reducible apply Within.after (State.scratchGet_within ..)); (case hle => decide))
    | ((with_reducible apply Within.after (Within.of_eq (State.scratchGet_within ..) ?e)); (case e => assumption); (case hle => decide))
    | ((with_reducible apply Within.after (State.mergedWrite_within ..)); (case hle => decide))
    | (intro x
       have hx : Within (.of [.free, .tick, .act, .latch, .irqs, .log, .pm, .events, .ecc, .bus] [.almState, .almStageFail, .eccStatus, .eccLastUe, .eccTrack, .eccCorr, .eccUe, .eccPoison, .eccTrackFull, .busStatus, .busCollLast, .busGrants, .busCollisions, .logState, .logEvbEntries, .logDropped, .logEvbLost, .logEntries, .sysIntSrc]) s x := by
         dsimp -zeta only [x]
         repeat' first
           | with_reducible assumption
           | with_reducible apply Within.refl
           | ((with_reducible apply Within.after (State.noteWrite_within ..)); (case hle => decide))
           | ((with_reducible apply Within.after (State.setScratch_within ..)); (case hle => decide))
           | ((with_reducible apply Within.after (State.fullWrite_within ..)); (case hle => decide))
           | ((with_reducible apply Within.after (State.scratchGet_within ..)); (case hle => decide))
           | ((with_reducible apply Within.after (Within.of_eq (State.scratchGet_within ..) ?e)); (case e => assumption); (case hle => decide))
           | ((with_reducible apply Within.after (State.mergedWrite_within ..)); (case hle => decide))
           | with_reducible apply Within.ite
           | split
           | dsimp -zeta only
           | dsimp +zetaDelta only
       clear_value x)
    | intro x
    | lift_lets
    | with_reducible apply Within.ite
    | split
    | dsimp -zeta only
    | dsimp +zetaDelta only

theorem State.doorbell_within (s : State) (m : Nat) (n : Nat) (w : Nat) (wide : Bool) (a5 : Nat → Option Nat) :
    Within (.of [.free, .tick, .act, .latch, .irqs, .log, .pm, .events, .ecc, .bus] [.almState, .almStageFail, .eccStatus, .eccLastUe, .eccTrack, .eccCorr, .eccUe, .eccPoison, .eccTrackFull, .busStatus, .busDbPend, .busGrants, .logState, .logEvbEntries, .logDropped, .logEvbLost, .logEntries, .sysIntSrc]) s (State.doorbell s m n w wide a5).2 := by
  delta State.doorbell
  repeat' first
    | with_reducible assumption
    | with_reducible apply Within.refl
    | ((with_reducible apply Within.each); (case' hg => intro _ _ _))
    | ((with_reducible apply Within.after (State.scratchGet_within ..)); (case hle => decide))
    | ((with_reducible apply Within.after (Within.of_eq (State.scratchGet_within ..) ?e)); (case e => assumption); (case hle => decide))
    | ((with_reducible apply Within.after (State.setScratch_within ..)); (case hle => decide))
    | ((with_reducible apply Within.after (State.fullWrite_within ..)); (case hle => decide))
    | ((with_reducible apply Within.after (State.mergedWrite_within ..)); (case hle => decide))
    | ((with_reducible apply Within.after (State.dbPend_within ..)); (case hle => decide))
    | (intro x
       have hx : Within (.of [.free, .tick, .act, .latch, .irqs, .log, .pm, .events, .ecc, .bus] [.almState, .almStageFail, .eccStatus, .eccLastUe, .eccTrack, .eccCorr, .eccUe, .eccPoison, .eccTrackFull, .busStatus, .busDbPend, .busGrants, .logState, .logEvbEntries, .logDropped, .logEvbLost, .logEntries, .sysIntSrc]) s x := by
         dsimp -zeta only [x]
         repeat' first
           | with_reducible assumption
           | with_reducible apply Within.refl
           | ((with_reducible apply Within.each); (case' hg => intro _ _ _))
           | ((with_reducible apply Within.after (State.scratchGet_within ..)); (case hle => decide))
           | ((with_reducible apply Within.after (Within.of_eq (State.scratchGet_within ..) ?e)); (case e => assumption); (case hle => decide))
           | ((with_reducible apply Within.after (State.setScratch_within ..)); (case hle => decide))
           | ((with_reducible apply Within.after (State.fullWrite_within ..)); (case hle => decide))
           | ((with_reducible apply Within.after (State.mergedWrite_within ..)); (case hle => decide))
           | ((with_reducible apply Within.after (State.dbPend_within ..)); (case hle => decide))
           | with_reducible apply Within.ite
           | split
           | dsimp -zeta only
           | dsimp +zetaDelta only
       clear_value x)
    | intro x
    | lift_lets
    | with_reducible apply Within.ite
    | split
    | dsimp -zeta only
    | dsimp +zetaDelta only

theorem State.aliasDo_within (s : State) (m : Master) (n : Nat) (op : Nat) (w : Nat) (data : Option Nat) :
    Within (.of [.free, .tick, .act, .latch, .irqs, .log, .pm, .events, .ecc, .bus] [.almState, .almStageFail, .eccStatus, .eccLastUe, .eccTrack, .eccCorr, .eccUe, .eccPoison, .eccTrackFull, .busStatus, .busErrLast, .busDbPend, .busErrResp, .busDefault, .busGrants, .logState, .logEvbEntries, .logDropped, .logEvbLost, .logEntries, .sysIntSrc]) s (State.aliasDo s m n op w data) := by
  delta State.aliasDo
  repeat' first
    | with_reducible assumption
    | with_reducible apply Within.refl
    | ((with_reducible apply Within.wr); (case hr => first | decide | exact Foot.allRegs_hasReg _ _ | exact Foot.all_hasReg _ | (subst_vars; decide) | ((try dsimp +zetaDelta only); split <;> first | decide | (split <;> first | decide | (split <;> decide)))))
    | ((with_reducible apply Within.after (State.refuse_within ..)); (case hle => decide))
    | ((with_reducible apply Within.after (State.grantTo_within ..)); (case hle => decide))
    | ((with_reducible apply Within.after (State.doorbell_within ..)); (case hle => decide))
    | ((with_reducible apply Within.after (Within.of_eq (State.doorbell_within ..) ?e)); (case e => assumption); (case hle => decide))
    | ((with_reducible apply Within.after (State.answer_within ..)); (case hle => decide))
    | (intro x
       have hx : Within (.of [.free, .tick, .act, .latch, .irqs, .log, .pm, .events, .ecc, .bus] [.almState, .almStageFail, .eccStatus, .eccLastUe, .eccTrack, .eccCorr, .eccUe, .eccPoison, .eccTrackFull, .busStatus, .busErrLast, .busDbPend, .busErrResp, .busDefault, .busGrants, .logState, .logEvbEntries, .logDropped, .logEvbLost, .logEntries, .sysIntSrc]) s x := by
         dsimp -zeta only [x]
         repeat' first
           | with_reducible assumption
           | with_reducible apply Within.refl
           | ((with_reducible apply Within.wr); (case hr => first | decide | exact Foot.allRegs_hasReg _ _ | exact Foot.all_hasReg _ | (subst_vars; decide) | ((try dsimp +zetaDelta only); split <;> first | decide | (split <;> first | decide | (split <;> decide)))))
           | ((with_reducible apply Within.after (State.refuse_within ..)); (case hle => decide))
           | ((with_reducible apply Within.after (State.grantTo_within ..)); (case hle => decide))
           | ((with_reducible apply Within.after (State.doorbell_within ..)); (case hle => decide))
           | ((with_reducible apply Within.after (Within.of_eq (State.doorbell_within ..) ?e)); (case e => assumption); (case hle => decide))
           | ((with_reducible apply Within.after (State.answer_within ..)); (case hle => decide))
           | with_reducible apply Within.ite
           | split
           | dsimp -zeta only
           | dsimp +zetaDelta only
       clear_value x)
    | intro x
    | lift_lets
    | with_reducible apply Within.ite
    | split
    | dsimp -zeta only
    | dsimp +zetaDelta only

theorem State.aliasAccess_within (s : State) (m : Master) (n : Nat) (op : Nat) (w : Nat) (data : Option Nat) :
    Within (.of [.free, .tick, .act, .latch, .irqs, .log, .pm, .events, .ecc, .bus] [.almState, .almStageFail, .eccStatus, .eccLastUe, .eccTrack, .eccCorr, .eccUe, .eccPoison, .eccTrackFull, .busStatus, .busErrLast, .busDbPend, .busErrResp, .busDefault, .busSplits, .busGrants, .logState, .logEvbEntries, .logDropped, .logEvbLost, .logEntries, .sysIntSrc]) s (State.aliasAccess s m n op w data) := by
  delta State.aliasAccess
  repeat' first
    | with_reducible assumption
    | with_reducible apply Within.refl
    | ((with_reducible apply Within.byTarget); (case hp => decide); (case hm => decide); (case he => decide); (case' hg => intro _ _))
    | ((with_reducible apply Within.after (State.aliasDo_within ..)); (case hle => decide))
    | with_reducible apply Within.ite
    | split
    | dsimp -zeta only

theorem State.atomic_within (s : State) (p : Port) (addr : Nat) (wide : Bool) (a4 : Nat → Option Nat) :
    Within (.of [.free, .tick, .act, .latch, .irqs, .log, .pm, .events, .ecc, .bus] [.almState, .almStageFail, .eccStatus, .eccLastUe, .eccTrack, .eccCorr, .eccUe, .eccPoison, .eccTrackFull, .busStatus, .busErrLast, .busDbPend, .busErrResp, .busDefault, .busGrants, .logState, .logEvbEntries, .logDropped, .logEvbLost, .logEntries, .sysIntSrc]) s (State.atomic s p addr wide a4) := by
  delta State.atomic
  repeat' first
    | with_reducible assumption
    | with_reducible apply Within.refl
    | ((with_reducible apply Within.after (State.answer_within ..)); (case hle => decide))
    | ((with_reducible apply Within.after (State.aerLog_within ..)); (case hle => decide))
    | ((with_reducible apply Within.after (State.grantTo_within ..)); (case hle => decide))
    | ((with_reducible apply Within.after (State.passOver_within ..)); (case hle => decide))
    | ((with_reducible apply Within.after (State.hostMeter_within ..)); (case hle => decide))
    | ((with_reducible apply Within.after (State.refuse_within ..)); (case hle => decide))
    | ((with_reducible apply Within.after (State.doorbell_within ..)); (case hle => decide))
    | ((with_reducible apply Within.after (Within.of_eq (State.doorbell_within ..) ?e)); (case e => assumption); (case hle => decide))
    | (intro x
       have hx : Within (.of [.free, .tick, .act, .latch, .irqs, .log, .pm, .events, .ecc, .bus] [.almState, .almStageFail, .eccStatus, .eccLastUe, .eccTrack, .eccCorr, .eccUe, .eccPoison, .eccTrackFull, .busStatus, .busErrLast, .busDbPend, .busErrResp, .busDefault, .busGrants, .logState, .logEvbEntries, .logDropped, .logEvbLost, .logEntries, .sysIntSrc]) s x := by
         dsimp -zeta only [x]
         repeat' first
           | with_reducible assumption
           | with_reducible apply Within.refl
           | ((with_reducible apply Within.after (State.answer_within ..)); (case hle => decide))
           | ((with_reducible apply Within.after (State.aerLog_within ..)); (case hle => decide))
           | ((with_reducible apply Within.after (State.grantTo_within ..)); (case hle => decide))
           | ((with_reducible apply Within.after (State.passOver_within ..)); (case hle => decide))
           | ((with_reducible apply Within.after (State.hostMeter_within ..)); (case hle => decide))
           | ((with_reducible apply Within.after (State.refuse_within ..)); (case hle => decide))
           | ((with_reducible apply Within.after (State.doorbell_within ..)); (case hle => decide))
           | ((with_reducible apply Within.after (Within.of_eq (State.doorbell_within ..) ?e)); (case e => assumption); (case hle => decide))
           | with_reducible apply Within.ite
           | split
           | dsimp -zeta only
           | dsimp +zetaDelta only
       clear_value x)
    | intro x
    | lift_lets
    | with_reducible apply Within.ite
    | split
    | dsimp -zeta only
    | dsimp +zetaDelta only

theorem State.semSet_within (s : State) (i : Nat) (m : Nat) (who : Nat) :
    Within (.of [.log, .pm, .events, .bus] [.busStatus, .busGrants, .logState, .logEvbEntries, .logDropped, .logEvbLost, .logEntries, .sysIntSrc]) s (State.semSet s i m who) := by
  delta State.semSet
  repeat' first
    | with_reducible assumption
    | with_reducible apply Within.refl
    | ((with_reducible apply Within.wr); (case hr => first | decide | exact Foot.allRegs_hasReg _ _ | exact Foot.all_hasReg _ | (subst_vars; decide) | ((try dsimp +zetaDelta only); split <;> first | decide | (split <;> first | decide | (split <;> decide)))))
    | ((with_reducible apply Within.after (State.recoverySync_within ..)); (case hle => decide))
    | ((with_reducible apply Within.after (State.logEvent_within ..)); (case hle => decide))
    | (intro x
       have hx : Within (.of [.log, .pm, .events, .bus] [.busStatus, .busGrants, .logState, .logEvbEntries, .logDropped, .logEvbLost, .logEntries, .sysIntSrc]) s x := by
         dsimp -zeta only [x]
         repeat' first
           | with_reducible assumption
           | with_reducible apply Within.refl
           | ((with_reducible apply Within.wr); (case hr => first | decide | exact Foot.allRegs_hasReg _ _ | exact Foot.all_hasReg _ | (subst_vars; decide) | ((try dsimp +zetaDelta only); split <;> first | decide | (split <;> first | decide | (split <;> decide)))))
           | ((with_reducible apply Within.after (State.recoverySync_within ..)); (case hle => decide))
           | ((with_reducible apply Within.after (State.logEvent_within ..)); (case hle => decide))
           | with_reducible apply Within.ite
           | ((with_reducible apply Within.set_bus); (case hc => decide))
           | split
           | dsimp -zeta only
           | dsimp +zetaDelta only
       clear_value x)
    | intro x
    | lift_lets
    | with_reducible apply Within.ite
    | ((with_reducible apply Within.set_bus); (case hc => decide))
    | split
    | dsimp -zeta only
    | dsimp +zetaDelta only

theorem State.semFree_within (s : State) (i : Nat) :
    Within (.of [.log, .pm, .events, .bus] [.busStatus, .busGrants, .logState, .logEvbEntries, .logDropped, .logEvbLost, .logEntries, .sysIntSrc]) s (State.semFree s i) := by
  delta State.semFree
  repeat' first
    | with_reducible assumption
    | with_reducible apply Within.refl
    | ((with_reducible apply Within.after (State.semSet_within ..)); (case hle => decide))
    | with_reducible apply Within.ite
    | split
    | dsimp -zeta only

theorem State.semTry_within (s : State) (m : Nat) (i : Nat) (cyc : Nat) :
    Within (.of [.log, .pm, .events, .bus] [.busStatus, .busGrants, .busSemTaken, .logState, .logEvbEntries, .logDropped, .logEvbLost, .logEntries, .sysIntSrc]) s (State.semTry s m i cyc).2 := by
  unfold State.semTry
  dsimp only
  split
  · exact .refl _ s
  · split
    · exact .after (State.semSet_within ..) (Within.count (x := { s with bus := { s.bus with semTick := Tbl.set 0 s.bus.semTick i s.now } }) _ _
        (Within.set_bus (.refl _ s) (by decide)) (by decide)) (by decide)
    · exact .refl _ s

theorem State.semRelease_within (s : State) (m : Master) (i : Nat) :
    Within (.of [.log, .pm, .events, .bus] [.busStatus, .busGrants, .logState, .logEvbEntries, .logDropped, .logEvbLost, .logEntries, .sysIntSrc]) s (State.semRelease s m i).2 := by
  delta State.semRelease
  repeat' first
    | with_reducible assumption
    | with_reducible apply Within.refl
    | ((with_reducible apply Within.after (State.semFree_within ..)); (case hle => decide))
    | with_reducible apply Within.ite
    | split
    | dsimp -zeta only

theorem State.semArm_within (s : State) (m : Master) (i : Nat) (data : Nat) (cyc : Nat) :
    Within (.of [.bus] []) s (State.semArm s m i data cyc).2 := by
  unfold State.semArm
  split
  · exact Within.set_bus (.refl _ s) (by decide)
  · exact .refl _ s

theorem State.semForce_within (s : State) (m : Master) (i : Nat) :
    Within (.of [.log, .pm, .events, .bus] [.busStatus, .busGrants, .busSemForced, .logState, .logEvbEntries, .logDropped, .logEvbLost, .logEntries, .sysIntSrc]) s (State.semForce s m i).2 := by
  delta State.semForce
  repeat' first
    | with_reducible assumption
    | with_reducible apply Within.refl
    | ((with_reducible apply Within.count); (case hr => first | decide | exact Foot.allRegs_hasReg _ _ | exact Foot.all_hasReg _ | (subst_vars; decide) | ((try dsimp +zetaDelta only); split <;> first | decide | (split <;> first | decide | (split <;> decide)))))
    | ((with_reducible apply Within.after (State.semFree_within ..)); (case hle => decide))
    | with_reducible apply Within.ite
    | split
    | dsimp -zeta only

theorem State.semRead_within (s : State) (m : Master) (off : Nat) (cyc : Nat) :
    Within (.of [.log, .pm, .events, .bus] [.busStatus, .busGrants, .busSemTaken, .logState, .logEvbEntries, .logDropped, .logEvbLost, .logEntries, .sysIntSrc]) s (State.semRead s m off cyc).2 := by
  delta State.semRead
  repeat' first
    | with_reducible assumption
    | with_reducible apply Within.refl
    | ((with_reducible apply Within.after (State.semTry_within ..)); (case hle => decide))
    | ((with_reducible apply Within.after (Within.of_eq (State.semTry_within ..) ?e)); (case e => assumption); (case hle => decide))
    | (intro x
       have hx : Within (.of [.log, .pm, .events, .bus] [.busStatus, .busGrants, .busSemTaken, .logState, .logEvbEntries, .logDropped, .logEvbLost, .logEntries, .sysIntSrc]) s x := by
         dsimp -zeta only [x]
         repeat' first
           | with_reducible assumption
           | with_reducible apply Within.refl
           | ((with_reducible apply Within.after (State.semTry_within ..)); (case hle => decide))
           | ((with_reducible apply Within.after (Within.of_eq (State.semTry_within ..) ?e)); (case e => assumption); (case hle => decide))
           | with_reducible apply Within.ite
           | split
           | dsimp -zeta only
           | dsimp +zetaDelta only
       clear_value x)
    | intro x
    | lift_lets
    | with_reducible apply Within.ite
    | split
    | dsimp -zeta only
    | dsimp +zetaDelta only

theorem State.semWrite_within (s : State) (m : Master) (off : Nat) (data : Nat) (cyc : Nat) :
    Within (.of [.log, .pm, .events, .bus] [.busStatus, .busGrants, .busSemForced, .logState, .logEvbEntries, .logDropped, .logEvbLost, .logEntries, .sysIntSrc]) s (State.semWrite s m off data cyc).2 := by
  delta State.semWrite
  repeat' first
    | with_reducible assumption
    | with_reducible apply Within.refl
    | ((with_reducible apply Within.after (State.semRelease_within ..)); (case hle => decide))
    | ((with_reducible apply Within.after (Within.of_eq (State.semRelease_within ..) ?e)); (case e => assumption); (case hle => decide))
    | ((with_reducible apply Within.after (State.semArm_within ..)); (case hle => decide))
    | ((with_reducible apply Within.after (Within.of_eq (State.semArm_within ..) ?e)); (case e => assumption); (case hle => decide))
    | ((with_reducible apply Within.after (State.semForce_within ..)); (case hle => decide))
    | ((with_reducible apply Within.after (Within.of_eq (State.semForce_within ..) ?e)); (case e => assumption); (case hle => decide))
    | (intro x
       have hx : Within (.of [.log, .pm, .events, .bus] [.busStatus, .busGrants, .busSemForced, .logState, .logEvbEntries, .logDropped, .logEvbLost, .logEntries, .sysIntSrc]) s x := by
         dsimp -zeta only [x]
         repeat' first
           | with_reducible assumption
           | with_reducible apply Within.refl
           | ((with_reducible apply Within.after (State.semRelease_within ..)); (case hle => decide))
           | ((with_reducible apply Within.after (Within.of_eq (State.semRelease_within ..) ?e)); (case e => assumption); (case hle => decide))
           | ((with_reducible apply Within.after (State.semArm_within ..)); (case hle => decide))
           | ((with_reducible apply Within.after (Within.of_eq (State.semArm_within ..) ?e)); (case e => assumption); (case hle => decide))
           | ((with_reducible apply Within.after (State.semForce_within ..)); (case hle => decide))
           | ((with_reducible apply Within.after (Within.of_eq (State.semForce_within ..) ?e)); (case e => assumption); (case hle => decide))
           | with_reducible apply Within.ite
           | split
           | dsimp -zeta only
           | dsimp +zetaDelta only
       clear_value x)
    | intro x
    | lift_lets
    | with_reducible apply Within.ite
    | split
    | dsimp -zeta only
    | dsimp +zetaDelta only

theorem State.semCmd_within (s : State) (m : Master) (i : Nat) (off : Nat) (data : Nat) (cyc : Nat) :
    Within (.of [.irqs, .log, .pm, .events, .bus] [.busStatus, .busErrLast, .busErrResp, .busDefault, .busSplits, .busGrants, .busSemForced, .logState, .logEvbEntries, .logDropped, .logEvbLost, .logEntries, .sysIntSrc]) s (State.semCmd s m i off data cyc) := by
  delta State.semCmd
  repeat' first
    | with_reducible assumption
    | with_reducible apply Within.refl
    | ((with_reducible apply Within.byTarget); (case hp => decide); (case hm => decide); (case he => decide); (case' hg => intro _ _))
    | ((with_reducible apply Within.after (State.semWrite_within ..)); (case hle => decide))
    | ((with_reducible apply Within.after (Within.of_eq (State.semWrite_within ..) ?e)); (case e => assumption); (case hle => decide))
    | ((with_reducible apply Within.after (State.errResp_within ..)); (case hle => decide))
    | with_reducible apply Within.ite
    | split
    | dsimp -zeta only

theorem State.setPort_within (s : State) (m : Nat) (p : IrqH) :
    Within (.of [.irqs] []) s (State.setPort s m p) := by
  delta State.setPort
  repeat' first
    | with_reducible assumption
    | with_reducible apply Within.refl
    | with_reducible apply Within.ite
    | ((with_reducible apply Within.set_irqs); (case hc => decide))
    | split
    | dsimp -zeta only

theorem State.srcClear_within (s : State) (m : Nat) (bits : Nat) :
    Within (.of [.irqs] [.sysIntSrc]) s (State.srcClear s m bits) := by
  delta State.srcClear
  repeat' first
    | with_reducible assumption
    | with_reducible apply Within.refl
    | ((with_reducible apply Within.setWord); (case hr => first | decide | exact Foot.allRegs_hasReg _ _ | exact Foot.all_hasReg _ | (subst_vars; decide) | ((try dsimp +zetaDelta only); split <;> first | decide | (split <;> first | decide | (split <;> decide)))))
    | ((with_reducible apply Within.after (State.irqSync_within ..)); (case hle => decide))
    | (intro x
       have hx : Within (.of [.irqs] [.sysIntSrc]) s x := by
         dsimp -zeta only [x]
         repeat' first
           | with_reducible assumption
           | with_reducible apply Within.refl
           | ((with_reducible apply Within.setWord); (case hr => first | decide | exact Foot.allRegs_hasReg _ _ | exact Foot.all_hasReg _ | (subst_vars; decide) | ((try dsimp +zetaDelta only); split <;> first | decide | (split <;> first | decide | (split <;> decide)))))
           | ((with_reducible apply Within.after (State.irqSync_within ..)); (case hle => decide))
           | with_reducible apply Within.ite
           | split
           | dsimp -zeta only
           | dsimp +zetaDelta only
       clear_value x)
    | intro x
    | lift_lets
    | with_reducible apply Within.ite
    | split
    | dsimp -zeta only
    | dsimp +zetaDelta only

theorem State.masterReset_within (s : State) (m : Nat) :
    Within (.of [.irqs, .log, .pm, .events, .alm, .bus] [.busStatus, .busScrOwn, .busResets, .busGrants, .logState, .logEvbEntries, .logDropped, .logEvbLost, .logEntries, .sysIntSrc]) s (State.masterReset s m) := by
  delta State.masterReset
  repeat' first
    | with_reducible assumption
    | with_reducible apply Within.refl
    | ((with_reducible apply Within.wr); (case hr => first | decide | exact Foot.allRegs_hasReg _ _ | exact Foot.all_hasReg _ | (subst_vars; decide) | ((try dsimp +zetaDelta only); split <;> first | decide | (split <;> first | decide | (split <;> decide)))))
    | ((with_reducible apply Within.setFlag); (case hr => first | decide | exact Foot.allRegs_hasReg _ _ | exact Foot.all_hasReg _ | (subst_vars; decide) | ((try dsimp +zetaDelta only); split <;> first | decide | (split <;> first | decide | (split <;> decide)))))
    | ((with_reducible apply Within.count); (case hr => first | decide | exact Foot.allRegs_hasReg _ _ | exact Foot.all_hasReg _ | (subst_vars; decide) | ((try dsimp +zetaDelta only); split <;> first | decide | (split <;> first | decide | (split <;> decide)))))
    | ((with_reducible apply Within.eachN); (case' hg => intro _ _ _))
    | ((with_reducible apply Within.after (State.semFree_within ..)); (case hle => decide))
    | ((with_reducible apply Within.after (State.logEvent_within ..)); (case hle => decide))
    | ((with_reducible apply Within.after (State.irqSync_within ..)); (case hle => decide))
    | (intro x
       have hx : Within (.of [.irqs, .log, .pm, .events, .alm, .bus] [.busStatus, .busScrOwn, .busResets, .busGrants, .logState, .logEvbEntries, .logDropped, .logEvbLost, .logEntries, .sysIntSrc]) s x := by
         dsimp -zeta only [x]
         repeat' first
           | with_reducible assumption
           | with_reducible apply Within.refl
           | ((with_reducible apply Within.wr); (case hr => first | decide | exact Foot.allRegs_hasReg _ _ | exact Foot.all_hasReg _ | (subst_vars; decide) | ((try dsimp +zetaDelta only); split <;> first | decide | (split <;> first | decide | (split <;> decide)))))
           | ((with_reducible apply Within.setFlag); (case hr => first | decide | exact Foot.allRegs_hasReg _ _ | exact Foot.all_hasReg _ | (subst_vars; decide) | ((try dsimp +zetaDelta only); split <;> first | decide | (split <;> first | decide | (split <;> decide)))))
           | ((with_reducible apply Within.count); (case hr => first | decide | exact Foot.allRegs_hasReg _ _ | exact Foot.all_hasReg _ | (subst_vars; decide) | ((try dsimp +zetaDelta only); split <;> first | decide | (split <;> first | decide | (split <;> decide)))))
           | ((with_reducible apply Within.eachN); (case' hg => intro _ _ _))
           | ((with_reducible apply Within.after (State.semFree_within ..)); (case hle => decide))
           | ((with_reducible apply Within.after (State.logEvent_within ..)); (case hle => decide))
           | ((with_reducible apply Within.after (State.irqSync_within ..)); (case hle => decide))
           | with_reducible apply Within.ite
           | ((with_reducible apply Within.set_alm); (case hc => decide))
           | ((with_reducible apply Within.set_bus); (case hc => decide))
           | split
           | dsimp -zeta only
           | dsimp +zetaDelta only
       clear_value x)
    | intro x
    | lift_lets
    | with_reducible apply Within.ite
    | ((with_reducible apply Within.set_alm); (case hc => decide))
    | ((with_reducible apply Within.set_bus); (case hc => decide))
    | split
    | dsimp -zeta only
    | dsimp +zetaDelta only

theorem State.latchClear_within (s : State) (a1 : Nat) (w : Nat) (bits : Nat) :
    Within (.of [.latch] []) s (State.latchClear s a1 w bits) := by
  delta State.latchClear
  repeat' first
    | with_reducible assumption
    | with_reducible apply Within.refl
    | with_reducible apply Within.ite
    | ((with_reducible apply Within.set_latch); (case hc => decide))
    | split
    | dsimp -zeta only

theorem execScratchClaim_within (m : Master) (n : BankId) (s : State) (s' : State)
    (h : execScratchClaim m n s = .next s') :
    Within (.of [.irqs, .pm, .bus] [.busErrLast, .busScrOwn, .busDbPend, .busErrResp, .busDefault, .busSplits, .busGrants, .sysIntSrc]) s s' := by
  delta execScratchClaim at h
  injection h with h
  subst h
  repeat' first
    | with_reducible assumption
    | with_reducible apply Within.refl
    | ((with_reducible apply Within.byReg); (case hp => decide); (case hm => decide); (case he => decide); (case' hg => intro _ _))
    | ((with_reducible apply Within.after (State.scrOwnWrite_within ..)); (case hle => decide))
    | with_reducible apply Within.ite
    | split
    | dsimp -zeta only

theorem execScratchRelease_within (m : Master) (n : BankId) (s : State) (s' : State)
    (h : execScratchRelease m n s = .next s') :
    Within (.of [.irqs, .pm, .bus] [.busErrLast, .busScrOwn, .busDbPend, .busErrResp, .busDefault, .busSplits, .busGrants, .sysIntSrc]) s s' := by
  delta execScratchRelease at h
  injection h with h
  subst h
  repeat' first
    | with_reducible assumption
    | with_reducible apply Within.refl
    | ((with_reducible apply Within.byReg); (case hp => decide); (case hm => decide); (case he => decide); (case' hg => intro _ _))
    | ((with_reducible apply Within.after (State.scrOwnWrite_within ..)); (case hle => decide))
    | with_reducible apply Within.ite
    | split
    | dsimp -zeta only

theorem execScratchGive_within (m : Master) (n : BankId) (dest : BitVec 3) (s : State) (s' : State)
    (h : execScratchGive m n dest s = .next s') :
    Within (.of [.irqs, .pm, .bus] [.busErrLast, .busScrOwn, .busDbPend, .busErrResp, .busDefault, .busSplits, .busGrants, .sysIntSrc]) s s' := by
  delta execScratchGive at h
  injection h with h
  subst h
  repeat' first
    | with_reducible assumption
    | with_reducible apply Within.refl
    | ((with_reducible apply Within.byReg); (case hp => decide); (case hm => decide); (case he => decide); (case' hg => intro _ _))
    | ((with_reducible apply Within.after (State.scrOwnWrite_within ..)); (case hle => decide))
    | with_reducible apply Within.ite
    | split
    | dsimp -zeta only

theorem execDoorbellSet_within (m : Master) (n : BankId) (w : DoorbellId) (data : BitVec 64) (s : State) (s' : State)
    (h : execDoorbellSet m n w data s = .next s') :
    Within (.of [.free, .tick, .act, .latch, .irqs, .log, .pm, .events, .ecc, .bus] [.almState, .almStageFail, .eccStatus, .eccLastUe, .eccTrack, .eccCorr, .eccUe, .eccPoison, .eccTrackFull, .busStatus, .busErrLast, .busDbPend, .busErrResp, .busDefault, .busSplits, .busGrants, .logState, .logEvbEntries, .logDropped, .logEvbLost, .logEntries, .sysIntSrc]) s s' := by
  delta execDoorbellSet at h
  injection h with h
  subst h
  repeat' first
    | with_reducible assumption
    | with_reducible apply Within.refl
    | ((with_reducible apply Within.after (State.aliasAccess_within ..)); (case hle => decide))
    | with_reducible apply Within.ite
    | split
    | dsimp -zeta only

theorem execDoorbellClear_within (m : Master) (n : BankId) (w : DoorbellId) (data : BitVec 64) (s : State) (s' : State)
    (h : execDoorbellClear m n w data s = .next s') :
    Within (.of [.free, .tick, .act, .latch, .irqs, .log, .pm, .events, .ecc, .bus] [.almState, .almStageFail, .eccStatus, .eccLastUe, .eccTrack, .eccCorr, .eccUe, .eccPoison, .eccTrackFull, .busStatus, .busErrLast, .busDbPend, .busErrResp, .busDefault, .busSplits, .busGrants, .logState, .logEvbEntries, .logDropped, .logEvbLost, .logEntries, .sysIntSrc]) s s' := by
  delta execDoorbellClear at h
  injection h with h
  subst h
  repeat' first
    | with_reducible assumption
    | with_reducible apply Within.refl
    | ((with_reducible apply Within.after (State.aliasAccess_within ..)); (case hle => decide))
    | with_reducible apply Within.ite
    | split
    | dsimp -zeta only

theorem execDoorbellFetchClear_within (m : Master) (n : BankId) (w : DoorbellId) (s : State) (s' : State)
    (h : execDoorbellFetchClear m n w s = .next s') :
    Within (.of [.free, .tick, .act, .latch, .irqs, .log, .pm, .events, .ecc, .bus] [.almState, .almStageFail, .eccStatus, .eccLastUe, .eccTrack, .eccCorr, .eccUe, .eccPoison, .eccTrackFull, .busStatus, .busErrLast, .busDbPend, .busErrResp, .busDefault, .busSplits, .busGrants, .logState, .logEvbEntries, .logDropped, .logEvbLost, .logEntries, .sysIntSrc]) s s' := by
  delta execDoorbellFetchClear at h
  injection h with h
  subst h
  repeat' first
    | with_reducible assumption
    | with_reducible apply Within.refl
    | ((with_reducible apply Within.after (State.aliasAccess_within ..)); (case hle => decide))
    | with_reducible apply Within.ite
    | split
    | dsimp -zeta only

theorem execDoorbellAdd_within (m : Master) (n : BankId) (w : DoorbellId) (data : BitVec 64) (s : State) (s' : State)
    (h : execDoorbellAdd m n w data s = .next s') :
    Within (.of [.free, .tick, .act, .latch, .irqs, .log, .pm, .events, .ecc, .bus] [.almState, .almStageFail, .eccStatus, .eccLastUe, .eccTrack, .eccCorr, .eccUe, .eccPoison, .eccTrackFull, .busStatus, .busErrLast, .busDbPend, .busErrResp, .busDefault, .busSplits, .busGrants, .logState, .logEvbEntries, .logDropped, .logEvbLost, .logEntries, .sysIntSrc]) s s' := by
  delta execDoorbellAdd at h
  injection h with h
  subst h
  repeat' first
    | with_reducible assumption
    | with_reducible apply Within.refl
    | ((with_reducible apply Within.after (State.aliasAccess_within ..)); (case hle => decide))
    | with_reducible apply Within.ite
    | split
    | dsimp -zeta only

theorem execAtomicFetchadd_within (p : Port) (addr : Nat) (wide : Bool) (data : BitVec 64) (s : State) (s' : State)
    (h : execAtomicFetchadd p addr wide data s = .next s') :
    Within (.of [.free, .tick, .act, .latch, .irqs, .log, .pm, .events, .ecc, .bus] [.almState, .almStageFail, .eccStatus, .eccLastUe, .eccTrack, .eccCorr, .eccUe, .eccPoison, .eccTrackFull, .busStatus, .busErrLast, .busDbPend, .busErrResp, .busDefault, .busGrants, .logState, .logEvbEntries, .logDropped, .logEvbLost, .logEntries, .sysIntSrc]) s s' := by
  delta execAtomicFetchadd at h
  injection h with h
  subst h
  repeat' first
    | with_reducible assumption
    | with_reducible apply Within.refl
    | ((with_reducible apply Within.after (State.atomic_within ..)); (case hle => decide))
    | with_reducible apply Within.ite
    | split
    | dsimp -zeta only

theorem execAtomicSwap_within (p : Port) (addr : Nat) (wide : Bool) (data : BitVec 64) (s : State) (s' : State)
    (h : execAtomicSwap p addr wide data s = .next s') :
    Within (.of [.free, .tick, .act, .latch, .irqs, .log, .pm, .events, .ecc, .bus] [.almState, .almStageFail, .eccStatus, .eccLastUe, .eccTrack, .eccCorr, .eccUe, .eccPoison, .eccTrackFull, .busStatus, .busErrLast, .busDbPend, .busErrResp, .busDefault, .busGrants, .logState, .logEvbEntries, .logDropped, .logEvbLost, .logEntries, .sysIntSrc]) s s' := by
  delta execAtomicSwap at h
  injection h with h
  subst h
  repeat' first
    | with_reducible assumption
    | with_reducible apply Within.refl
    | ((with_reducible apply Within.after (State.atomic_within ..)); (case hle => decide))
    | with_reducible apply Within.ite
    | split
    | dsimp -zeta only

theorem execAtomicCas_within (p : Port) (addr : Nat) (wide : Bool) (cmp : BitVec 64) (data : BitVec 64) (s : State) (s' : State)
    (h : execAtomicCas p addr wide cmp data s = .next s') :
    Within (.of [.free, .tick, .act, .latch, .irqs, .log, .pm, .events, .ecc, .bus] [.almState, .almStageFail, .eccStatus, .eccLastUe, .eccTrack, .eccCorr, .eccUe, .eccPoison, .eccTrackFull, .busStatus, .busErrLast, .busDbPend, .busErrResp, .busDefault, .busGrants, .logState, .logEvbEntries, .logDropped, .logEvbLost, .logEntries, .sysIntSrc]) s s' := by
  delta execAtomicCas at h
  injection h with h
  subst h
  repeat' first
    | with_reducible assumption
    | with_reducible apply Within.refl
    | ((with_reducible apply Within.after (State.atomic_within ..)); (case hle => decide))
    | with_reducible apply Within.ite
    | split
    | dsimp -zeta only

theorem execSemTry_within (m : Master) (i : SemId) (cyc : Nat) (s : State) (s' : State)
    (h : execSemTry m i cyc s = .next s') :
    Within (.of [.irqs, .log, .pm, .events, .bus] [.busStatus, .busErrLast, .busErrResp, .busDefault, .busSplits, .busGrants, .busSemTaken, .logState, .logEvbEntries, .logDropped, .logEvbLost, .logEntries, .sysIntSrc]) s s' := by
  delta execSemTry at h
  injection h with h
  subst h
  repeat' first
    | with_reducible assumption
    | with_reducible apply Within.refl
    | ((with_reducible apply Within.byTarget); (case hp => decide); (case hm => decide); (case he => decide); (case' hg => intro _ _))
    | ((with_reducible apply Within.after (State.semTry_within ..)); (case hle => decide))
    | ((with_reducible apply Within.after (Within.of_eq (State.semTry_within ..) ?e)); (case e => assumption); (case hle => decide))
    | ((with_reducible apply Within.after (State.answer_within ..)); (case hle => decide))
    | (intro x
       have hx : Within (.of [.irqs, .log, .pm, .events, .bus] [.busStatus, .busErrLast, .busErrResp, .busDefault, .busSplits, .busGrants, .busSemTaken, .logState, .logEvbEntries, .logDropped, .logEvbLost, .logEntries, .sysIntSrc]) s x := by
         dsimp -zeta only [x]
         repeat' first
           | with_reducible assumption
           | with_reducible apply Within.refl
           | ((with_reducible apply Within.byTarget); (case hp => decide); (case hm => decide); (case he => decide); (case' hg => intro _ _))
           | ((with_reducible apply Within.after (State.semTry_within ..)); (case hle => decide))
           | ((with_reducible apply Within.after (Within.of_eq (State.semTry_within ..) ?e)); (case e => assumption); (case hle => decide))
           | ((with_reducible apply Within.after (State.answer_within ..)); (case hle => decide))
           | with_reducible apply Within.ite
           | split
           | dsimp -zeta only
           | dsimp +zetaDelta only
       clear_value x)
    | intro x
    | lift_lets
    | with_reducible apply Within.ite
    | split
    | dsimp -zeta only
    | dsimp +zetaDelta only

theorem execSemRelease_within (m : Master) (i : SemId) (s : State) (s' : State)
    (h : execSemRelease m i s = .next s') :
    Within (.of [.irqs, .log, .pm, .events, .bus] [.busStatus, .busErrLast, .busErrResp, .busDefault, .busSplits, .busGrants, .busSemForced, .logState, .logEvbEntries, .logDropped, .logEvbLost, .logEntries, .sysIntSrc]) s s' := by
  delta execSemRelease at h
  injection h with h
  subst h
  repeat' first
    | with_reducible assumption
    | with_reducible apply Within.refl
    | ((with_reducible apply Within.after (State.semCmd_within ..)); (case hle => decide))
    | with_reducible apply Within.ite
    | split
    | dsimp -zeta only

theorem execSemArm_within (m : Master) (i : SemId) (data : BitVec 64) (cyc : Nat) (s : State) (s' : State)
    (h : execSemArm m i data cyc s = .next s') :
    Within (.of [.irqs, .log, .pm, .events, .bus] [.busStatus, .busErrLast, .busErrResp, .busDefault, .busSplits, .busGrants, .busSemForced, .logState, .logEvbEntries, .logDropped, .logEvbLost, .logEntries, .sysIntSrc]) s s' := by
  delta execSemArm at h
  injection h with h
  subst h
  repeat' first
    | with_reducible assumption
    | with_reducible apply Within.refl
    | ((with_reducible apply Within.after (State.semCmd_within ..)); (case hle => decide))
    | with_reducible apply Within.ite
    | split
    | dsimp -zeta only

theorem execSemForce_within (m : Master) (i : SemId) (s : State) (s' : State)
    (h : execSemForce m i s = .next s') :
    Within (.of [.irqs, .log, .pm, .events, .bus] [.busStatus, .busErrLast, .busErrResp, .busDefault, .busSplits, .busGrants, .busSemForced, .logState, .logEvbEntries, .logDropped, .logEvbLost, .logEntries, .sysIntSrc]) s s' := by
  delta execSemForce at h
  injection h with h
  subst h
  repeat' first
    | with_reducible assumption
    | with_reducible apply Within.refl
    | ((with_reducible apply Within.after (State.semCmd_within ..)); (case hle => decide))
    | with_reducible apply Within.ite
    | split
    | dsimp -zeta only

theorem execHostLinkUp_within (p : Port) (s : State) (s' : State)
    (h : execHostLinkUp p s = .next s') :
    Within (.of [.irqs] []) s s' := by
  delta execHostLinkUp at h
  injection h with h
  subst h
  repeat' first
    | with_reducible assumption
    | with_reducible apply Within.refl
    | ((with_reducible apply Within.when); (case' hg => intro _ _))
    | ((with_reducible apply Within.after (State.setPort_within ..)); (case hle => decide))
    | (intro x
       have hx : Within (.of [.irqs] []) s x := by
         dsimp -zeta only [x]
         repeat' first
           | with_reducible assumption
           | with_reducible apply Within.refl
           | ((with_reducible apply Within.when); (case' hg => intro _ _))
           | ((with_reducible apply Within.after (State.setPort_within ..)); (case hle => decide))
           | with_reducible apply Within.ite
           | split
           | dsimp -zeta only
           | dsimp +zetaDelta only
       clear_value x)
    | intro x
    | lift_lets
    | with_reducible apply Within.ite
    | split
    | dsimp -zeta only
    | dsimp +zetaDelta only

theorem execConfigurationRequest_within (p : Port) (r : CfgReq) (s : State) (s' : State)
    (h : execConfigurationRequest p r s = .next s') :
    Within (.of [.irqs, .bus] []) s s' := by
  delta execConfigurationRequest at h
  injection h with h
  subst h
  repeat' first
    | with_reducible assumption
    | with_reducible apply Within.refl
    | ((with_reducible apply Within.after (State.irqSync_within ..)); (case hle => decide))
    | ((with_reducible apply Within.after (State.setPort_within ..)); (case hle => decide))
    | ((with_reducible apply Within.after (State.answer_within ..)); (case hle => decide))
    | (intro x
       have hx : Within (.of [.irqs, .bus] []) s x := by
         dsimp -zeta only [x]
         repeat' first
           | with_reducible assumption
           | with_reducible apply Within.refl
           | ((with_reducible apply Within.after (State.irqSync_within ..)); (case hle => decide))
           | ((with_reducible apply Within.after (State.setPort_within ..)); (case hle => decide))
           | ((with_reducible apply Within.after (State.answer_within ..)); (case hle => decide))
           | with_reducible apply Within.ite
           | split
           | dsimp -zeta only
           | dsimp +zetaDelta only
       clear_value x)
    | intro x
    | lift_lets
    | with_reducible apply Within.ite
    | split
    | dsimp -zeta only
    | dsimp +zetaDelta only

theorem execIntSrcClear_within (m : Master) (p : Port) (bits : BitVec 12) (s : State) (s' : State)
    (h : execIntSrcClear m p bits s = .next s') :
    Within (.of [.irqs, .pm, .bus] [.busErrLast, .busErrResp, .busDefault, .busSplits, .busGrants, .sysIntSrc]) s s' := by
  delta execIntSrcClear at h
  injection h with h
  subst h
  repeat' first
    | with_reducible assumption
    | with_reducible apply Within.refl
    | ((with_reducible apply Within.byReg); (case hp => decide); (case hm => decide); (case he => decide); (case' hg => intro _ _))
    | ((with_reducible apply Within.after (State.srcClear_within ..)); (case hle => decide))
    | with_reducible apply Within.ite
    | split
    | dsimp -zeta only

theorem execMasterReset_within (m : Master) (linkDown : Bool) (s : State) (s' : State)
    (h : execMasterReset m linkDown s = .next s') :
    Within (.of [.irqs, .log, .pm, .events, .alm, .bus] [.busStatus, .busScrOwn, .busResets, .busGrants, .logState, .logEvbEntries, .logDropped, .logEvbLost, .logEntries, .sysIntSrc]) s s' := by
  delta execMasterReset at h
  injection h with h
  subst h
  repeat' first
    | with_reducible assumption
    | with_reducible apply Within.refl
    | ((with_reducible apply Within.after (State.masterReset_within ..)); (case hle => decide))
    | ((with_reducible apply Within.after (State.setPort_within ..)); (case hle => decide))
    | (intro x
       have hx : Within (.of [.irqs, .log, .pm, .events, .alm, .bus] [.busStatus, .busScrOwn, .busResets, .busGrants, .logState, .logEvbEntries, .logDropped, .logEvbLost, .logEntries, .sysIntSrc]) s x := by
         dsimp -zeta only [x]
         repeat' first
           | with_reducible assumption
           | with_reducible apply Within.refl
           | ((with_reducible apply Within.after (State.masterReset_within ..)); (case hle => decide))
           | ((with_reducible apply Within.after (State.setPort_within ..)); (case hle => decide))
           | with_reducible apply Within.ite
           | split
           | dsimp -zeta only
           | dsimp +zetaDelta only
       clear_value x)
    | intro x
    | lift_lets
    | with_reducible apply Within.ite
    | split
    | dsimp -zeta only
    | dsimp +zetaDelta only

theorem execRemapWrite_within (m : Master) (remap : Bool) (s : State) (s' : State)
    (h : execRemapWrite m remap s = .next s') :
    Within (.of [.irqs, .pm, .bus] [.busErrLast, .busErrResp, .busDefault, .busSplits, .busGrants, .sysCtrl, .sysIntSrc]) s s' := by
  delta execRemapWrite at h
  injection h with h
  subst h
  repeat' first
    | with_reducible assumption
    | with_reducible apply Within.refl
    | ((with_reducible apply Within.setFlag); (case hr => first | decide | exact Foot.allRegs_hasReg _ _ | exact Foot.all_hasReg _ | (subst_vars; decide) | ((try dsimp +zetaDelta only); split <;> first | decide | (split <;> first | decide | (split <;> decide)))))
    | ((with_reducible apply Within.byReg); (case hp => decide); (case hm => decide); (case he => decide); (case' hg => intro _ _))
    | ((with_reducible apply Within.expertOnly); (case he => decide); (case' hg => intro _ _))
    | with_reducible apply Within.ite
    | split
    | dsimp -zeta only

theorem execBusErrLastRead_within (m : Master) (of : Master) (s : State) (s' : State)
    (h : execBusErrLastRead m of s = .next s') :
    Within (.of [.irqs, .pm, .bus] [.busErrLast, .busErrResp, .busDefault, .busSplits, .busGrants, .sysIntSrc]) s s' := by
  delta execBusErrLastRead at h
  injection h with h
  subst h
  repeat' first
    | with_reducible assumption
    | with_reducible apply Within.refl
    | ((with_reducible apply Within.setFlag); (case hr => first | decide | exact Foot.allRegs_hasReg _ _ | exact Foot.all_hasReg _ | (subst_vars; decide) | ((try dsimp +zetaDelta only); split <;> first | decide | (split <;> first | decide | (split <;> decide)))))
    | ((with_reducible apply Within.byReg); (case hp => decide); (case hm => decide); (case he => decide); (case' hg => intro _ _))
    | ((with_reducible apply Within.after (State.answer_within ..)); (case hle => decide))
    | (intro x
       have hx : Within (.of [.irqs, .pm, .bus] [.busErrLast, .busErrResp, .busDefault, .busSplits, .busGrants, .sysIntSrc]) s x := by
         dsimp -zeta only [x]
         repeat' first
           | with_reducible assumption
           | with_reducible apply Within.refl
           | ((with_reducible apply Within.setFlag); (case hr => first | decide | exact Foot.allRegs_hasReg _ _ | exact Foot.all_hasReg _ | (subst_vars; decide) | ((try dsimp +zetaDelta only); split <;> first | decide | (split <;> first | decide | (split <;> decide)))))
           | ((with_reducible apply Within.byReg); (case hp => decide); (case hm => decide); (case he => decide); (case' hg => intro _ _))
           | ((with_reducible apply Within.after (State.answer_within ..)); (case hle => decide))
           | with_reducible apply Within.ite
           | split
           | dsimp -zeta only
           | dsimp +zetaDelta only
       clear_value x)
    | intro x
    | lift_lets
    | with_reducible apply Within.ite
    | split
    | dsimp -zeta only
    | dsimp +zetaDelta only

theorem execAlarmLatchClear_within (m : Master) (a1 : AlarmId) (w : Fin 4) (bits : BitVec 64) (s : State) (s' : State)
    (h : execAlarmLatchClear m a1 w bits s = .next s') :
    Within (.of [.latch, .irqs, .pm, .bus] [.busErrLast, .busErrResp, .busDefault, .busSplits, .busGrants, .sysIntSrc]) s s' := by
  delta execAlarmLatchClear at h
  injection h with h
  subst h
  repeat' first
    | with_reducible assumption
    | with_reducible apply Within.refl
    | ((with_reducible apply Within.byTarget); (case hp => decide); (case hm => decide); (case he => decide); (case' hg => intro _ _))
    | ((with_reducible apply Within.after (State.latchClear_within ..)); (case hle => decide))
    | with_reducible apply Within.ite
    | split
    | dsimp -zeta only

end Sys2Proof.Machine
end

