-- ==== Sys2Proof/Laws/Footprint/Loader.lean ====
section
/-! SUPPORT. What each operation of Machine/Loader.lean may touch. -/

namespace Sys2Proof.Machine

theorem State.bootBegin_within (s : State) :
    Within (.of [.boot] [.busScrOwn, .sysBootStatus]) s (State.bootBegin s) := by
  delta State.bootBegin
  repeat' first
    | with_reducible assumption
    | with_reducible apply Within.refl
    | ((with_reducible apply Within.wr); (case hr => first | decide | exact Foot.allRegs_hasReg _ _ | exact Foot.all_hasReg _ | (subst_vars; decide) | ((try dsimp +zetaDelta only); split <;> first | decide | (split <;> first | decide | (split <;> decide)))))
    | ((with_reducible apply Within.setFlag); (case hr => first | decide | exact Foot.allRegs_hasReg _ _ | exact Foot.all_hasReg _ | (subst_vars; decide) | ((try dsimp +zetaDelta only); split <;> first | decide | (split <;> first | decide | (split <;> decide)))))
    | ((with_reducible apply Within.after (State.setBank_within ..)); (case hle => decide))
    | ((with_reducible apply Within.after (State.bootAt_within ..)); (case hle => decide))
    | (intro x
       have hx : Within (.of [.boot] [.busScrOwn, .sysBootStatus]) s x := by
         dsimp -zeta only [x]
         repeat' first
           | with_reducible assumption
           | with_reducible apply Within.refl
           | ((with_reducible apply Within.wr); (case hr => first | decide | exact Foot.allRegs_hasReg _ _ | exact Foot.all_hasReg _ | (subst_vars; decide) | ((try dsimp +zetaDelta only); split <;> first | decide | (split <;> first | decide | (split <;> decide)))))
           | ((with_reducible apply Within.setFlag); (case hr => first | decide | exact Foot.allRegs_hasReg _ _ | exact Foot.all_hasReg _ | (subst_vars; decide) | ((try dsimp +zetaDelta only); split <;> first | decide | (split <;> first | decide | (split <;> decide)))))
           | ((with_reducible apply Within.after (State.setBank_within ..)); (case hle => decide))
           | ((with_reducible apply Within.after (State.bootAt_within ..)); (case hle => decide))
           | with_reducible apply Within.ite
           | ((with_reducible apply Within.set_boot); (case hc => decide))
           | split
           | dsimp -zeta only
           | dsimp +zetaDelta only
       clear_value x)
    | intro x
    | lift_lets
    | with_reducible apply Within.ite
    | ((with_reducible apply Within.set_boot); (case hc => decide))
    | split
    | dsimp -zeta only
    | dsimp +zetaDelta only

theorem State.bootStop_within (s : State) (p : Nat) :
    Within (.of [.log, .pm, .events, .bus] [.busScrOwn, .busGrants, .sysBootStatus, .logState, .logEvbEntries, .logDropped, .logEvbLost, .logEntries, .sysIntSrc]) s (State.bootStop s p) := by
  delta State.bootStop
  repeat' first
    | with_reducible assumption
    | with_reducible apply Within.refl
    | ((with_reducible apply Within.wr); (case hr => first | decide | exact Foot.allRegs_hasReg _ _ | exact Foot.all_hasReg _ | (subst_vars; decide) | ((try dsimp +zetaDelta only); split <;> first | decide | (split <;> first | decide | (split <;> decide)))))
    | ((with_reducible apply Within.when); (case' hg => intro _ _))
    | ((with_reducible apply Within.after (State.setBank_within ..)); (case hle => decide))
    | ((with_reducible apply Within.after (State.logEvent_within ..)); (case hle => decide))
    | (intro x
       have hx : Within (.of [.log, .pm, .events, .bus] [.busScrOwn, .busGrants, .sysBootStatus, .logState, .logEvbEntries, .logDropped, .logEvbLost, .logEntries, .sysIntSrc]) s x := by
         dsimp -zeta only [x]
         repeat' first
           | with_reducible assumption
           | with_reducible apply Within.refl
           | ((with_reducible apply Within.wr); (case hr => first | decide | exact Foot.allRegs_hasReg _ _ | exact Foot.all_hasReg _ | (subst_vars; decide) | ((try dsimp +zetaDelta only); split <;> first | decide | (split <;> first | decide | (split <;> decide)))))
           | ((with_reducible apply Within.when); (case' hg => intro _ _))
           | ((with_reducible apply Within.after (State.setBank_within ..)); (case hle => decide))
           | ((with_reducible apply Within.after (State.logEvent_within ..)); (case hle => decide))
           | with_reducible apply Within.ite
           | split
           | dsimp -zeta only
           | dsimp +zetaDelta only
       clear_value x)
    | intro x
    | lift_lets
    | with_reducible apply Within.ite
    | split
    | dsimp -zeta only
    | dsimp +zetaDelta only

theorem State.bootRun_within (s : State) :
    Within (.of [.irqs, .log, .pm, .events, .boot, .alm, .bus] [.busStatus, .busScrOwn, .busResets, .busGrants, .sysBootStatus, .logState, .logEvbEntries, .logDropped, .logEvbLost, .logEntries, .sysIntSrc]) s (State.bootRun s) := by
  delta State.bootRun
  repeat' first
    | with_reducible assumption
    | with_reducible apply Within.refl
    | ((with_reducible apply Within.when); (case' hg => intro _ _))
    | ((with_reducible apply Within.after (State.bootBegin_within ..)); (case hle => decide))
    | ((with_reducible apply Within.after (State.masterReset_within ..)); (case hle => decide))
    | with_reducible apply Within.ite
    | split
    | dsimp -zeta only

theorem execBootLoaderStart_within (s : State) (s' : State)
    (h : execBootLoaderStart s = .next s') :
    Within (.of [.boot] [.busScrOwn, .sysBootStatus]) s s' := by
  delta execBootLoaderStart at h
  injection h with h
  subst h
  repeat' first
    | with_reducible assumption
    | with_reducible apply Within.refl
    | ((with_reducible apply Within.when); (case' hg => intro _ _))
    | ((with_reducible apply Within.after (State.bootBegin_within ..)); (case hle => decide))
    | with_reducible apply Within.ite
    | split
    | dsimp -zeta only

theorem execSysBootRun_within (m : Master) (s : State) (s' : State)
    (h : execSysBootRun m s = .next s') :
    Within (.of [.irqs, .log, .pm, .events, .boot, .alm, .bus] [.busStatus, .busErrLast, .busScrOwn, .busErrResp, .busDefault, .busSplits, .busResets, .busGrants, .sysBootStatus, .logState, .logEvbEntries, .logDropped, .logEvbLost, .logEntries, .sysIntSrc]) s s' := by
  delta execSysBootRun at h
  try dsimp only at h
  injection h with h
  subst h
  repeat' first
    | with_reducible assumption
    | with_reducible apply Within.refl
    | ((with_reducible apply Within.byReg); (case hp => decide); (case hm => decide); (case he => decide); (case' hg => intro _ _))
    | ((with_reducible apply Within.expertOnly); (case he => decide); (case' hg => intro _ _))
    | ((with_reducible apply Within.valueOnly); (case he => decide); (case' hg => intro _ _))
    | ((with_reducible apply Within.after (State.bootRun_within ..)); (case hle => decide))
    | (intro x
       have hx : Within (.of [.irqs, .log, .pm, .events, .boot, .alm, .bus] [.busStatus, .busErrLast, .busScrOwn, .busErrResp, .busDefault, .busSplits, .busResets, .busGrants, .sysBootStatus, .logState, .logEvbEntries, .logDropped, .logEvbLost, .logEntries, .sysIntSrc]) s x := by
         dsimp -zeta only [x]
         repeat' first
           | with_reducible assumption
           | with_reducible apply Within.refl
           | ((with_reducible apply Within.byReg); (case hp => decide); (case hm => decide); (case he => decide); (case' hg => intro _ _))
           | ((with_reducible apply Within.expertOnly); (case he => decide); (case' hg => intro _ _))
           | ((with_reducible apply Within.valueOnly); (case he => decide); (case' hg => intro _ _))
           | ((with_reducible apply Within.after (State.bootRun_within ..)); (case hle => decide))
           | with_reducible apply Within.ite
           | split
           | dsimp -zeta only
           | dsimp +zetaDelta only
       clear_value x)
    | intro x
    | lift_lets
    | with_reducible apply Within.ite
    | split
    | dsimp -zeta only
    | dsimp +zetaDelta only

end Sys2Proof.Machine
end

