-- ==== Sys2Proof/Laws/Footprint/Timing.lean ====
section
/-! SUPPORT. What each operation of Machine/Timing.lean may touch. -/

namespace Sys2Proof.Machine

theorem State.timCmd_within (s : State) (m : Master) (op : Nat) (ref : Nat) :
    Within (.of [.irqs, .tim] [.busErrLast, .busErrResp, .busDefault, .sysIntSrc]) s (State.timCmd s m op ref) := by
  delta State.timCmd
  repeat' first
    | with_reducible assumption
    | with_reducible apply Within.refl
    | ((with_reducible apply Within.expertOnly); (case he => decide); (case' hg => intro _ _))
    | ((with_reducible apply Within.valueOnly); (case he => decide); (case' hg => intro _ _))
    | (intro x
       have hx : Within (.of [.irqs, .tim] [.busErrLast, .busErrResp, .busDefault, .sysIntSrc]) s x := by
         dsimp -zeta only [x]
         repeat' first
           | with_reducible assumption
           | with_reducible apply Within.refl
           | ((with_reducible apply Within.expertOnly); (case he => decide); (case' hg => intro _ _))
           | ((with_reducible apply Within.valueOnly); (case he => decide); (case' hg => intro _ _))
           | with_reducible apply Within.ite
           | ((with_reducible apply Within.set_tim); (case hc => decide))
           | split
           | dsimp -zeta only
           | dsimp +zetaDelta only
       clear_value x)
    | intro x
    | lift_lets
    | with_reducible apply Within.ite
    | ((with_reducible apply Within.set_tim); (case hc => decide))
    | split
    | dsimp -zeta only
    | dsimp +zetaDelta only

theorem State.timDco_within (s : State) (m : Master) (lock : Option Bool) (offset : Option Int) :
    Within (.of [.irqs, .tim] [.timDco, .busErrLast, .busErrResp, .busDefault, .sysIntSrc]) s (State.timDco s m lock offset) := by
  delta State.timDco
  repeat' first
    | with_reducible assumption
    | with_reducible apply Within.refl
    | ((with_reducible apply Within.setFlag); (case hr => first | decide | exact Foot.allRegs_hasReg _ _ | exact Foot.all_hasReg _ | (subst_vars; decide) | ((try dsimp +zetaDelta only); split <;> first | decide | (split <;> first | decide | (split <;> decide)))))
    | ((with_reducible apply Within.expertOnly); (case he => decide); (case' hg => intro _ _))
    | ((with_reducible apply Within.valueOnly); (case he => decide); (case' hg => intro _ _))
    | (intro x
       have hx : Within (.of [.irqs, .tim] [.timDco, .busErrLast, .busErrResp, .busDefault, .sysIntSrc]) s x := by
         dsimp -zeta only [x]
         repeat' first
           | with_reducible assumption
           | with_reducible apply Within.refl
           | ((with_reducible apply Within.setFlag); (case hr => first | decide | exact Foot.allRegs_hasReg _ _ | exact Foot.all_hasReg _ | (subst_vars; decide) | ((try dsimp +zetaDelta only); split <;> first | decide | (split <;> first | decide | (split <;> decide)))))
           | ((with_reducible apply Within.expertOnly); (case he => decide); (case' hg => intro _ _))
           | ((with_reducible apply Within.valueOnly); (case he => decide); (case' hg => intro _ _))
           | with_reducible apply Within.ite
           | split
           | dsimp -zeta only
           | dsimp +zetaDelta only
           | ((with_reducible apply Within.set_tim); (case hc => decide))
       clear_value x)
    | intro x
    | lift_lets
    | with_reducible apply Within.ite
    | split
    | dsimp -zeta only
    | dsimp +zetaDelta only
    | ((with_reducible apply Within.set_tim); (case hc => decide))

theorem State.exchOk_within (s : State) (l : Nat) (m : TimMsg) (phiA : Nat) :
    Within (.of [.act, .latch, .irqs, .log, .pm, .events, .tim, .bus] [.timState, .timRefState, .timAdoptStatus, .timAdoptNum, .timExchOk, .timRefDisq, .busStatus, .busGrants, .logState, .logEvbEntries, .logDropped, .logEvbLost, .logEntries, .sysIntSrc]) s (State.exchOk s l m phiA) := by
  delta State.exchOk
  repeat' first
    | with_reducible assumption
    | with_reducible apply Within.refl
    | ((with_reducible apply Within.wr); (case hr => first | decide | exact Foot.allRegs_hasReg _ _ | exact Foot.all_hasReg _ | (subst_vars; decide) | ((try dsimp +zetaDelta only); split <;> first | decide | (split <;> first | decide | (split <;> decide)))))
    | ((with_reducible apply Within.wrS); (case hr => first | decide | exact Foot.allRegs_hasReg _ _ | exact Foot.all_hasReg _ | (subst_vars; decide) | ((try dsimp +zetaDelta only); split <;> first | decide | (split <;> first | decide | (split <;> decide)))))
    | ((with_reducible apply Within.count); (case hr => first | decide | exact Foot.allRegs_hasReg _ _ | exact Foot.all_hasReg _ | (subst_vars; decide) | ((try dsimp +zetaDelta only); split <;> first | decide | (split <;> first | decide | (split <;> decide)))))
    | ((with_reducible apply Within.after (State.setExch_within ..)); (case hle => decide))
    | ((with_reducible apply Within.after (State.reportRefs_within ..)); (case hle => decide))
    | ((with_reducible apply Within.after (State.adoptResult_within ..)); (case hle => decide))
    | (intro x
       have hx : Within (.of [.act, .latch, .irqs, .log, .pm, .events, .tim, .bus] [.timState, .timRefState, .timAdoptStatus, .timAdoptNum, .timExchOk, .timRefDisq, .busStatus, .busGrants, .logState, .logEvbEntries, .logDropped, .logEvbLost, .logEntries, .sysIntSrc]) s x := by
         dsimp -zeta only [x]
         repeat' first
           | with_reducible assumption
           | with_reducible apply Within.refl
           | ((with_reducible apply Within.wr); (case hr => first | decide | exact Foot.allRegs_hasReg _ _ | exact Foot.all_hasReg _ | (subst_vars; decide) | ((try dsimp +zetaDelta only); split <;> first | decide | (split <;> first | decide | (split <;> decide)))))
           | ((with_reducible apply Within.wrS); (case hr => first | decide | exact Foot.allRegs_hasReg _ _ | exact Foot.all_hasReg _ | (subst_vars; decide) | ((try dsimp +zetaDelta only); split <;> first | decide | (split <;> first | decide | (split <;> decide)))))
           | ((with_reducible apply Within.count); (case hr => first | decide | exact Foot.allRegs_hasReg _ _ | exact Foot.all_hasReg _ | (subst_vars; decide) | ((try dsimp +zetaDelta only); split <;> first | decide | (split <;> first | decide | (split <;> decide)))))
           | ((with_reducible apply Within.after (State.setExch_within ..)); (case hle => decide))
           | ((with_reducible apply Within.after (State.reportRefs_within ..)); (case hle => decide))
           | ((with_reducible apply Within.after (State.adoptResult_within ..)); (case hle => decide))
           | with_reducible apply Within.ite
           | split
           | dsimp -zeta only
           | dsimp +zetaDelta only
       clear_value x)
    | intro x
    | lift_lets
    | with_reducible apply Within.ite
    | split
    | dsimp -zeta only
    | dsimp +zetaDelta only

theorem execRefEvent_within (i : PinRefId) (t16 : Nat) (freq : Int) (s : State) (s' : State)
    (h : execRefEvent i t16 freq s = .next s') :
    Within (.of [.act, .latch, .irqs, .log, .pm, .events, .tim, .bus] [.timRefState, .timRefDisq, .busStatus, .busGrants, .logState, .logEvbEntries, .logDropped, .logEvbLost, .logEntries, .sysIntSrc]) s s' := by
  delta execRefEvent at h
  try dsimp only at h
  injection h with h
  subst h
  repeat' first
    | with_reducible assumption
    | with_reducible apply Within.refl
    | ((with_reducible apply Within.after (State.refFreqTake_within ..)); (case hle => decide))
    | ((with_reducible apply Within.after (State.refEvent_within ..)); (case hle => decide))
    | (intro x
       have hx : Within (.of [.act, .latch, .irqs, .log, .pm, .events, .tim, .bus] [.timRefState, .timRefDisq, .busStatus, .busGrants, .logState, .logEvbEntries, .logDropped, .logEvbLost, .logEntries, .sysIntSrc]) s x := by
         dsimp -zeta only [x]
         repeat' first
           | with_reducible assumption
           | with_reducible apply Within.refl
           | ((with_reducible apply Within.after (State.refFreqTake_within ..)); (case hle => decide))
           | ((with_reducible apply Within.after (State.refEvent_within ..)); (case hle => decide))
           | with_reducible apply Within.ite
           | split
           | dsimp -zeta only
           | dsimp +zetaDelta only
       clear_value x)
    | intro x
    | lift_lets
    | with_reducible apply Within.ite
    | split
    | dsimp -zeta only
    | dsimp +zetaDelta only

theorem execRefEventMissing_within (i : RefId) (s : State) (s' : State)
    (h : execRefEventMissing i s = .next s') :
    Within (.of [.act, .latch, .irqs, .log, .pm, .events, .tim, .bus] [.timRefState, .timRefDisq, .busStatus, .busGrants, .logState, .logEvbEntries, .logDropped, .logEvbLost, .logEntries, .sysIntSrc]) s s' := by
  delta execRefEventMissing at h
  injection h with h
  subst h
  repeat' first
    | with_reducible assumption
    | with_reducible apply Within.refl
    | ((with_reducible apply Within.when); (case' hg => intro _ _))
    | ((with_reducible apply Within.after (State.refMissing_within ..)); (case hle => decide))
    | with_reducible apply Within.ite
    | split
    | dsimp -zeta only

theorem execRefQualify_within (i : RefId) (s : State) (s' : State)
    (h : execRefQualify i s = .next s') :
    Within (.of [.act, .irqs, .log, .pm, .events, .tim, .bus] [.timRefState, .busStatus, .busGrants, .logState, .logEvbEntries, .logDropped, .logEvbLost, .logEntries, .sysIntSrc]) s s' := by
  delta execRefQualify at h
  injection h with h
  subst h
  repeat' first
    | with_reducible assumption
    | with_reducible apply Within.refl
    | ((with_reducible apply Within.when); (case' hg => intro _ _))
    | ((with_reducible apply Within.after (State.refQualify_within ..)); (case hle => decide))
    | with_reducible apply Within.ite
    | split
    | dsimp -zeta only

theorem execRefWtrEnd_within (i : RefId) (s : State) (s' : State)
    (h : execRefWtrEnd i s = .next s') :
    Within (.of [.tim] [.timRefState]) s s' := by
  delta execRefWtrEnd at h
  injection h with h
  subst h
  repeat' first
    | with_reducible assumption
    | with_reducible apply Within.refl
    | ((with_reducible apply Within.setFlag); (case hr => first | decide | exact Foot.allRegs_hasReg _ _ | exact Foot.all_hasReg _ | (subst_vars; decide) | ((try dsimp +zetaDelta only); split <;> first | decide | (split <;> first | decide | (split <;> decide)))))
    | ((with_reducible apply Within.when); (case' hg => intro _ _))
    | ((with_reducible apply Within.after (State.setRef_within ..)); (case hle => decide))
    | with_reducible apply Within.ite
    | split
    | dsimp -zeta only

theorem execTimCmdClear_within (m : Master) (s : State) (s' : State)
    (h : execTimCmdClear m s = .next s') :
    Within (.of [.irqs, .pm, .tim, .bus] [.busErrLast, .busErrResp, .busDefault, .busSplits, .busGrants, .sysIntSrc]) s s' := by
  delta execTimCmdClear at h
  injection h with h
  subst h
  repeat' first
    | with_reducible assumption
    | with_reducible apply Within.refl
    | ((with_reducible apply Within.byReg); (case hp => decide); (case hm => decide); (case he => decide); (case' hg => intro _ _))
    | ((with_reducible apply Within.after (State.timCmd_within ..)); (case hle => decide))
    | with_reducible apply Within.ite
    | split
    | dsimp -zeta only

theorem execTimCmdForceRef_within (m : Master) (ref : BitVec 4) (s : State) (s' : State)
    (h : execTimCmdForceRef m ref s = .next s') :
    Within (.of [.irqs, .pm, .tim, .bus] [.busErrLast, .busErrResp, .busDefault, .busSplits, .busGrants, .sysIntSrc]) s s' := by
  delta execTimCmdForceRef at h
  injection h with h
  subst h
  repeat' first
    | with_reducible assumption
    | with_reducible apply Within.refl
    | ((with_reducible apply Within.byReg); (case hp => decide); (case hm => decide); (case he => decide); (case' hg => intro _ _))
    | ((with_reducible apply Within.after (State.timCmd_within ..)); (case hle => decide))
    | with_reducible apply Within.ite
    | split
    | dsimp -zeta only

theorem execTimCmdForceHoldover_within (m : Master) (s : State) (s' : State)
    (h : execTimCmdForceHoldover m s = .next s') :
    Within (.of [.irqs, .pm, .tim, .bus] [.busErrLast, .busErrResp, .busDefault, .busSplits, .busGrants, .sysIntSrc]) s s' := by
  delta execTimCmdForceHoldover at h
  injection h with h
  subst h
  repeat' first
    | with_reducible assumption
    | with_reducible apply Within.refl
    | ((with_reducible apply Within.byReg); (case hp => decide); (case hm => decide); (case he => decide); (case' hg => intro _ _))
    | ((with_reducible apply Within.after (State.timCmd_within ..)); (case hle => decide))
    | with_reducible apply Within.ite
    | split
    | dsimp -zeta only

theorem execTimCmdAdopt_within (m : Master) (s : State) (s' : State)
    (h : execTimCmdAdopt m s = .next s') :
    Within (.of [.irqs, .pm, .tim, .bus] [.busErrLast, .busErrResp, .busDefault, .busSplits, .busGrants, .sysIntSrc]) s s' := by
  delta execTimCmdAdopt at h
  injection h with h
  subst h
  repeat' first
    | with_reducible assumption
    | with_reducible apply Within.refl
    | ((with_reducible apply Within.byReg); (case hp => decide); (case hm => decide); (case he => decide); (case' hg => intro _ _))
    | ((with_reducible apply Within.after (State.timCmd_within ..)); (case hle => decide))
    | with_reducible apply Within.ite
    | split
    | dsimp -zeta only

theorem execTimDcoWrite_within (m : Master) (hostLocked : Bool) (offset : BitVec 32) (s : State) (s' : State)
    (h : execTimDcoWrite m hostLocked offset s = .next s') :
    Within (.of [.irqs, .pm, .tim, .bus] [.timDco, .busErrLast, .busErrResp, .busDefault, .busSplits, .busGrants, .sysIntSrc]) s s' := by
  delta execTimDcoWrite at h
  injection h with h
  subst h
  repeat' first
    | with_reducible assumption
    | with_reducible apply Within.refl
    | ((with_reducible apply Within.byReg); (case hp => decide); (case hm => decide); (case he => decide); (case' hg => intro _ _))
    | ((with_reducible apply Within.after (State.timDco_within ..)); (case hle => decide))
    | with_reducible apply Within.ite
    | split
    | dsimp -zeta only

theorem execHoldoverSecondEnd_within (s : State) (s' : State)
    (h : execHoldoverSecondEnd s = .next s') :
    Within (.of [.tim] []) s s' := by
  delta execHoldoverSecondEnd at h
  injection h with h
  subst h
  repeat' first
    | with_reducible assumption
    | with_reducible apply Within.refl
    | with_reducible apply Within.ite
    | split
    | dsimp -zeta only
    | ((with_reducible apply Within.set_tim); (case hc => decide))

theorem execDcoLimitClear_within (s : State) (s' : State)
    (h : execDcoLimitClear s = .next s') :
    Within (.of [.act, .irqs, .log, .pm, .events, .bus] [.busStatus, .busGrants, .logState, .logEvbEntries, .logDropped, .logEvbLost, .logEntries, .sysIntSrc]) s s' := by
  delta execDcoLimitClear at h
  injection h with h
  subst h
  repeat' first
    | with_reducible assumption
    | with_reducible apply Within.refl
    | ((with_reducible apply Within.when); (case' hg => intro _ _))
    | ((with_reducible apply Within.after (State.clear_within ..)); (case hle => decide))
    | with_reducible apply Within.ite
    | split
    | dsimp -zeta only

theorem execExchangeStart_within (l : IngressId) (s : State) (s' : State)
    (h : execExchangeStart l s = .next s') :
    Within (.of [.tim] []) s s' := by
  delta execExchangeStart at h
  injection h with h
  subst h
  repeat' first
    | with_reducible assumption
    | with_reducible apply Within.refl
    | ((with_reducible apply Within.when); (case' hg => intro _ _))
    | ((with_reducible apply Within.after (State.setExch_within ..)); (case hle => decide))
    | (intro x
       have hx : Within (.of [.tim] []) s x := by
         dsimp -zeta only [x]
         repeat' first
           | with_reducible assumption
           | with_reducible apply Within.refl
           | ((with_reducible apply Within.when); (case' hg => intro _ _))
           | ((with_reducible apply Within.after (State.setExch_within ..)); (case hle => decide))
           | with_reducible apply Within.ite
           | split
           | dsimp -zeta only
           | dsimp +zetaDelta only
       clear_value x)
    | intro x
    | lift_lets
    | with_reducible apply Within.ite
    | split
    | dsimp -zeta only
    | dsimp +zetaDelta only

theorem execProbeReceive_within (l : IngressId) (s : State) (s' : State)
    (h : execProbeReceive l s = .next s') :
    Within (.of [.tim] []) s s' := by
  delta execProbeReceive at h
  injection h with h
  subst h
  repeat' first
    | with_reducible assumption
    | with_reducible apply Within.refl
    | ((with_reducible apply Within.after (State.setExch_within ..)); (case hle => decide))
    | (intro x
       have hx : Within (.of [.tim] []) s x := by
         dsimp -zeta only [x]
         repeat' first
           | with_reducible assumption
           | with_reducible apply Within.refl
           | ((with_reducible apply Within.after (State.setExch_within ..)); (case hle => decide))
           | with_reducible apply Within.ite
           | split
           | dsimp -zeta only
           | dsimp +zetaDelta only
       clear_value x)
    | intro x
    | lift_lets
    | with_reducible apply Within.ite
    | split
    | dsimp -zeta only
    | dsimp +zetaDelta only

theorem execReportReceive_within (l : IngressId) (s : State) (s' : State)
    (h : execReportReceive l s = .next s') :
    Within (.of [.act, .latch, .irqs, .log, .pm, .events, .tim, .bus] [.timState, .timRefState, .timAdoptStatus, .timAdoptNum, .timExchOk, .timRefDisq, .busStatus, .busGrants, .logState, .logEvbEntries, .logDropped, .logEvbLost, .logEntries, .sysIntSrc]) s s' := by
  delta execReportReceive at h
  injection h with h
  subst h
  repeat' first
    | with_reducible assumption
    | with_reducible apply Within.refl
    | ((with_reducible apply Within.after (State.exchOk_within ..)); (case hle => decide))
    | ((with_reducible apply Within.after (State.setExch_within ..)); (case hle => decide))
    | (intro x
       have hx : Within (.of [.act, .latch, .irqs, .log, .pm, .events, .tim, .bus] [.timState, .timRefState, .timAdoptStatus, .timAdoptNum, .timExchOk, .timRefDisq, .busStatus, .busGrants, .logState, .logEvbEntries, .logDropped, .logEvbLost, .logEntries, .sysIntSrc]) s x := by
         dsimp -zeta only [x]
         repeat' first
           | with_reducible assumption
           | with_reducible apply Within.refl
           | ((with_reducible apply Within.after (State.exchOk_within ..)); (case hle => decide))
           | ((with_reducible apply Within.after (State.setExch_within ..)); (case hle => decide))
           | with_reducible apply Within.ite
           | split
           | dsimp -zeta only
           | dsimp +zetaDelta only
       clear_value x)
    | intro x
    | lift_lets
    | with_reducible apply Within.ite
    | split
    | dsimp -zeta only
    | dsimp +zetaDelta only

theorem execExchangeTimeout_within (l : IngressId) (s : State) (s' : State)
    (h : execExchangeTimeout l s = .next s') :
    Within (.of [.act, .latch, .irqs, .log, .pm, .events, .tim, .bus] [.timRefState, .timExchFail, .timRefDisq, .busStatus, .busGrants, .logState, .logEvbEntries, .logDropped, .logEvbLost, .logEntries, .sysIntSrc]) s s' := by
  delta execExchangeTimeout at h
  injection h with h
  subst h
  repeat' first
    | with_reducible assumption
    | with_reducible apply Within.refl
    | ((with_reducible apply Within.count); (case hr => first | decide | exact Foot.allRegs_hasReg _ _ | exact Foot.all_hasReg _ | (subst_vars; decide) | ((try dsimp +zetaDelta only); split <;> first | decide | (split <;> first | decide | (split <;> decide)))))
    | ((with_reducible apply Within.when); (case' hg => intro _ _))
    | ((with_reducible apply Within.each); (case' hg => intro _ _ _))
    | ((with_reducible apply Within.after (State.setExch_within ..)); (case hle => decide))
    | ((with_reducible apply Within.after (State.refLose_within ..)); (case hle => decide))
    | (intro x
       have hx : Within (.of [.act, .latch, .irqs, .log, .pm, .events, .tim, .bus] [.timRefState, .timExchFail, .timRefDisq, .busStatus, .busGrants, .logState, .logEvbEntries, .logDropped, .logEvbLost, .logEntries, .sysIntSrc]) s x := by
         dsimp -zeta only [x]
         repeat' first
           | with_reducible assumption
           | with_reducible apply Within.refl
           | ((with_reducible apply Within.count); (case hr => first | decide | exact Foot.allRegs_hasReg _ _ | exact Foot.all_hasReg _ | (subst_vars; decide) | ((try dsimp +zetaDelta only); split <;> first | decide | (split <;> first | decide | (split <;> decide)))))
           | ((with_reducible apply Within.when); (case' hg => intro _ _))
           | ((with_reducible apply Within.each); (case' hg => intro _ _ _))
           | ((with_reducible apply Within.after (State.setExch_within ..)); (case hle => decide))
           | ((with_reducible apply Within.after (State.refLose_within ..)); (case hle => decide))
           | with_reducible apply Within.ite
           | split
           | dsimp -zeta only
           | dsimp +zetaDelta only
           | ((with_reducible apply Within.set_tim); (case hc => decide))
       clear_value x)
    | intro x
    | lift_lets
    | with_reducible apply Within.ite
    | split
    | dsimp -zeta only
    | dsimp +zetaDelta only
    | ((with_reducible apply Within.set_tim); (case hc => decide))

theorem execTickAdopt_within (s : State) (s' : State)
    (h : execTickAdopt s = .next s') :
    Within (.of [.prot, .act, .irqs, .log, .pm, .events, .tim, .bus] [.timState, .timTick, .busStatus, .busGrants, .pmBwLast, .pmLinkState, .pmGroupState, .pmMateState, .pmBwLinkIn, .pmBwLinkOut, .pmBwHostWr, .pmBwHostRd, .pmBwHostReq, .pmBwHbmWr, .pmBwHbmRd, .pmBwHbmPeak, .pmBwBusBeats, .pmBwBusWait, .pmSeconds, .pmSecondsCut, .pmEs, .pmSes, .pmUas, .pmFeEs, .pmFeSes, .pmFeUas, .pmGroupEs, .pmGroupSes, .pmGroupUas, .pmMateEs, .pmMateSes, .pmMateUas, .logState, .logEvbEntries, .logDropped, .logEvbLost, .logEntries, .sysIntSrc]) s s' := by
  delta execTickAdopt at h
  injection h with h
  subst h
  repeat' first
    | with_reducible assumption
    | with_reducible apply Within.refl
    | ((with_reducible apply Within.when); (case' hg => intro _ _))
    | ((with_reducible apply Within.after (State.renumber_within ..)); (case hle => decide))
    | ((with_reducible apply Within.after (State.pmRenumber_within ..)); (case hle => decide))
    | ((with_reducible apply Within.after (State.setHops_within ..)); (case hle => decide))
    | ((with_reducible apply Within.after (State.setNumbered_within ..)); (case hle => decide))
    | (intro x
       have hx : Within (.of [.prot, .act, .irqs, .log, .pm, .events, .tim, .bus] [.timState, .timTick, .busStatus, .busGrants, .pmBwLast, .pmLinkState, .pmGroupState, .pmMateState, .pmBwLinkIn, .pmBwLinkOut, .pmBwHostWr, .pmBwHostRd, .pmBwHostReq, .pmBwHbmWr, .pmBwHbmRd, .pmBwHbmPeak, .pmBwBusBeats, .pmBwBusWait, .pmSeconds, .pmSecondsCut, .pmEs, .pmSes, .pmUas, .pmFeEs, .pmFeSes, .pmFeUas, .pmGroupEs, .pmGroupSes, .pmGroupUas, .pmMateEs, .pmMateSes, .pmMateUas, .logState, .logEvbEntries, .logDropped, .logEvbLost, .logEntries, .sysIntSrc]) s x := by
         dsimp -zeta only [x]
         repeat' first
           | with_reducible assumption
           | with_reducible apply Within.refl
           | ((with_reducible apply Within.when); (case' hg => intro _ _))
           | ((with_reducible apply Within.after (State.renumber_within ..)); (case hle => decide))
           | ((with_reducible apply Within.after (State.pmRenumber_within ..)); (case hle => decide))
           | ((with_reducible apply Within.after (State.setHops_within ..)); (case hle => decide))
           | ((with_reducible apply Within.after (State.setNumbered_within ..)); (case hle => decide))
           | with_reducible apply Within.ite
           | split
           | dsimp -zeta only
           | dsimp +zetaDelta only
           | ((with_reducible apply Within.set_tim); (case hc => decide))
       clear_value x)
    | intro x
    | lift_lets
    | with_reducible apply Within.ite
    | split
    | dsimp -zeta only
    | dsimp +zetaDelta only
    | ((with_reducible apply Within.set_tim); (case hc => decide))

theorem execAdoptWaitEnd_within (s : State) (s' : State)
    (h : execAdoptWaitEnd s = .next s') :
    Within (.of [.act, .latch, .irqs, .log, .pm, .events, .tim, .bus] [.timState, .busStatus, .busGrants, .logState, .logEvbEntries, .logDropped, .logEvbLost, .logEntries, .sysIntSrc]) s s' := by
  delta execAdoptWaitEnd at h
  injection h with h
  subst h
  repeat' first
    | with_reducible assumption
    | with_reducible apply Within.refl
    | ((with_reducible apply Within.wr); (case hr => first | decide | exact Foot.allRegs_hasReg _ _ | exact Foot.all_hasReg _ | (subst_vars; decide) | ((try dsimp +zetaDelta only); split <;> first | decide | (split <;> first | decide | (split <;> decide)))))
    | ((with_reducible apply Within.when); (case' hg => intro _ _))
    | ((with_reducible apply Within.after (State.setNumbered_within ..)); (case hle => decide))
    | ((with_reducible apply Within.after (State.raise_within ..)); (case hle => decide))
    | (intro x
       have hx : Within (.of [.act, .latch, .irqs, .log, .pm, .events, .tim, .bus] [.timState, .busStatus, .busGrants, .logState, .logEvbEntries, .logDropped, .logEvbLost, .logEntries, .sysIntSrc]) s x := by
         dsimp -zeta only [x]
         repeat' first
           | with_reducible assumption
           | with_reducible apply Within.refl
           | ((with_reducible apply Within.wr); (case hr => first | decide | exact Foot.allRegs_hasReg _ _ | exact Foot.all_hasReg _ | (subst_vars; decide) | ((try dsimp +zetaDelta only); split <;> first | decide | (split <;> first | decide | (split <;> decide)))))
           | ((with_reducible apply Within.when); (case' hg => intro _ _))
           | ((with_reducible apply Within.after (State.setNumbered_within ..)); (case hle => decide))
           | ((with_reducible apply Within.after (State.raise_within ..)); (case hle => decide))
           | with_reducible apply Within.ite
           | split
           | dsimp -zeta only
           | dsimp +zetaDelta only
           | ((with_reducible apply Within.set_tim); (case hc => decide))
       clear_value x)
    | intro x
    | lift_lets
    | with_reducible apply Within.ite
    | split
    | dsimp -zeta only
    | dsimp +zetaDelta only
    | ((with_reducible apply Within.set_tim); (case hc => decide))

end Sys2Proof.Machine
end

