-- ==== Sys2Proof/Laws/Footprint/Tx.lean ====
section
/-! SUPPORT. What each operation of Machine/Tx.lean may touch. -/

namespace Sys2Proof.Machine

theorem State.justifyRange_within (s : State) (l : Nat) (raw : Int) (phi : Int) :
    Within (.of [.act, .latch, .irqs, .log, .pm, .events, .bus] [.linkState, .busStatus, .busGrants, .logState, .logEvbEntries, .logDropped, .logEvbLost, .logEntries, .sysIntSrc]) s (State.justifyRange s l raw phi) := by
  delta State.justifyRange
  repeat' first
    | with_reducible assumption
    | with_reducible apply Within.refl
    | ((with_reducible apply Within.setFlag); (case hr => first | decide | exact Foot.allRegs_hasReg _ _ | exact Foot.all_hasReg _ | (subst_vars; decide) | ((try dsimp +zetaDelta only); split <;> first | decide | (split <;> first | decide | (split <;> decide)))))
    | ((with_reducible apply Within.after (State.raise_within ..)); (case hle => decide))
    | ((with_reducible apply Within.after (State.clear_within ..)); (case hle => decide))
    | with_reducible apply Within.ite
    | split
    | dsimp -zeta only

theorem State.adaptDecide_within (s : State) (l : Nat) :
    Within (.of [.lanes, .act, .latch, .irqs, .log, .pm, .events, .bus] [.laneState, .laneTxfir, .laneAdaptStep, .laneAdaptReject, .busStatus, .busGrants, .logState, .logEvbEntries, .logDropped, .logEvbLost, .logEntries, .sysIntSrc]) s (State.adaptDecide s l) := by
  delta State.adaptDecide
  repeat' first
    | with_reducible assumption
    | with_reducible apply Within.refl
    | ((with_reducible apply Within.wr); (case hr => first | decide | exact Foot.allRegs_hasReg _ _ | exact Foot.all_hasReg _ | (subst_vars; decide) | ((try dsimp +zetaDelta only); split <;> first | decide | (split <;> first | decide | (split <;> decide)))))
    | ((with_reducible apply Within.count); (case hr => first | decide | exact Foot.allRegs_hasReg _ _ | exact Foot.all_hasReg _ | (subst_vars; decide) | ((try dsimp +zetaDelta only); split <;> first | decide | (split <;> first | decide | (split <;> decide)))))
    | ((with_reducible apply Within.after (State.setLane_within ..)); (case hle => decide))
    | ((with_reducible apply Within.after (State.loadPreset_within ..)); (case hle => decide))
    | ((with_reducible apply Within.after (State.fenceSync_within ..)); (case hle => decide))
    | (intro x
       have hx : Within (.of [.lanes, .act, .latch, .irqs, .log, .pm, .events, .bus] [.laneState, .laneTxfir, .laneAdaptStep, .laneAdaptReject, .busStatus, .busGrants, .logState, .logEvbEntries, .logDropped, .logEvbLost, .logEntries, .sysIntSrc]) s x := by
         dsimp -zeta only [x]
         repeat' first
           | with_reducible assumption
           | with_reducible apply Within.refl
           | ((with_reducible apply Within.wr); (case hr => first | decide | exact Foot.allRegs_hasReg _ _ | exact Foot.all_hasReg _ | (subst_vars; decide) | ((try dsimp +zetaDelta only); split <;> first | decide | (split <;> first | decide | (split <;> decide)))))
           | ((with_reducible apply Within.count); (case hr => first | decide | exact Foot.allRegs_hasReg _ _ | exact Foot.all_hasReg _ | (subst_vars; decide) | ((try dsimp +zetaDelta only); split <;> first | decide | (split <;> first | decide | (split <;> decide)))))
           | ((with_reducible apply Within.after (State.setLane_within ..)); (case hle => decide))
           | ((with_reducible apply Within.after (State.loadPreset_within ..)); (case hle => decide))
           | ((with_reducible apply Within.after (State.fenceSync_within ..)); (case hle => decide))
           | with_reducible apply Within.ite
           | split
           | dsimp -zeta only
           | dsimp +zetaDelta only
       clear_value x)
    | intro x
    | lift_lets
    | with_reducible apply Within.ite
    | split
    | dsimp -zeta only
    | dsimp +zetaDelta only

theorem State.mboxOut_within (s : State) (l : Nat) :
    Within (.of [.links] []) s (State.mboxOut s l).2 := by
  delta State.mboxOut
  repeat' first
    | with_reducible assumption
    | with_reducible apply Within.refl
    | ((with_reducible apply Within.after (State.setTx_within ..)); (case hle => decide))
    | (intro x
       have hx : Within (.of [.links] []) s x := by
         dsimp -zeta only [x]
         repeat' first
           | with_reducible assumption
           | with_reducible apply Within.refl
           | ((with_reducible apply Within.after (State.setTx_within ..)); (case hle => decide))
           | with_reducible apply Within.ite
           | split
           | dsimp -zeta only
           | dsimp +zetaDelta only
       clear_value x)
    | intro x
    | lift_lets
    | with_reducible apply Within.ite
    | split
    | dsimp -zeta only
    | dsimp +zetaDelta only

theorem State.userOut_within (s : State) (l : Nat) :
    Within (.of [.links] [.linkUserFwdDrop]) s (State.userOut s l).2 := by
  delta State.userOut
  repeat' first
    | with_reducible assumption
    | with_reducible apply Within.refl
    | ((with_reducible apply Within.count); (case hr => first | decide | exact Foot.allRegs_hasReg _ _ | exact Foot.all_hasReg _ | (subst_vars; decide) | ((try dsimp +zetaDelta only); split <;> first | decide | (split <;> first | decide | (split <;> decide)))))
    | ((with_reducible apply Within.when); (case' hg => intro _ _))
    | ((with_reducible apply Within.after (State.setTx_within ..)); (case hle => decide))
    | (intro x
       have hx : Within (.of [.links] [.linkUserFwdDrop]) s x := by
         dsimp -zeta only [x]
         repeat' first
           | with_reducible assumption
           | with_reducible apply Within.refl
           | ((with_reducible apply Within.count); (case hr => first | decide | exact Foot.allRegs_hasReg _ _ | exact Foot.all_hasReg _ | (subst_vars; decide) | ((try dsimp +zetaDelta only); split <;> first | decide | (split <;> first | decide | (split <;> decide)))))
           | ((with_reducible apply Within.when); (case' hg => intro _ _))
           | ((with_reducible apply Within.after (State.setTx_within ..)); (case hle => decide))
           | with_reducible apply Within.ite
           | split
           | dsimp -zeta only
           | dsimp +zetaDelta only
       clear_value x)
    | intro x
    | lift_lets
    | with_reducible apply Within.ite
    | split
    | dsimp -zeta only
    | dsimp +zetaDelta only

theorem State.framerFetch_within (s : State) (l : Nat) (p : Nat) :
    Within (.of [.free, .tick, .act, .latch, .irqs, .log, .pm, .events, .ecc, .bus] [.almState, .almStageFail, .eccStatus, .eccLastUe, .eccTrack, .eccCorr, .eccUe, .eccPoison, .eccTrackFull, .busStatus, .busGrants, .logState, .logEvbEntries, .logDropped, .logEvbLost, .logEntries, .sysIntSrc]) s (State.framerFetch s l p).2 := by
  delta State.framerFetch
  repeat' first
    | with_reducible assumption
    | with_reducible apply Within.refl
    | ((with_reducible apply Within.after (State.sramRead_within ..)); (case hle => decide))
    | ((with_reducible apply Within.after (Within.of_eq (State.sramRead_within ..) ?e)); (case e => assumption); (case hle => decide))
    | with_reducible apply Within.ite
    | split
    | dsimp -zeta only

theorem State.ringPayload_within (l n p : Nat) (s : State) : Within (Foot.of [.free, .tick, .act, .latch, .irqs, .log, .pm, .events, .ecc, .bus] [.almState, .almStageFail, .eccStatus, .eccLastUe, .eccTrack, .eccCorr, .eccUe, .eccPoison, .eccTrackFull, .busStatus, .busGrants, .logState, .logEvbEntries, .logDropped, .logEvbLost, .logEntries, .sysIntSrc]) s (State.ringPayload l n p s).2 := by
  induction n generalizing p s with
  | zero => exact .refl _ _
  | succ n ih => exact .after (ih _ _) ((State.framerFetch_within s l p).mono (by decide)) (by decide)

theorem State.payloadOut_within (s : State) (l : Nat) :
    Within (.of [.free, .tick, .act, .latch, .irqs, .log, .pm, .events, .ecc, .bus] [.almState, .almStageFail, .eccStatus, .eccLastUe, .eccTrack, .eccCorr, .eccUe, .eccPoison, .eccTrackFull, .busStatus, .busGrants, .logState, .logEvbEntries, .logDropped, .logEvbLost, .logEntries, .sysIntSrc]) s (State.payloadOut s l).2.2 := by
  delta State.payloadOut
  repeat' first
    | with_reducible assumption
    | with_reducible apply Within.refl
    | ((with_reducible apply Within.after (State.ringPayload_within ..)); (case hle => decide))
    | ((with_reducible apply Within.after (Within.of_eq (State.ringPayload_within ..) ?e)); (case e => assumption); (case hle => decide))
    | (intro x
       have hx : Within (.of [.free, .tick, .act, .latch, .irqs, .log, .pm, .events, .ecc, .bus] [.almState, .almStageFail, .eccStatus, .eccLastUe, .eccTrack, .eccCorr, .eccUe, .eccPoison, .eccTrackFull, .busStatus, .busGrants, .logState, .logEvbEntries, .logDropped, .logEvbLost, .logEntries, .sysIntSrc]) s x := by
         dsimp -zeta only [x]
         repeat' first
           | with_reducible assumption
           | with_reducible apply Within.refl
           | ((with_reducible apply Within.after (State.ringPayload_within ..)); (case hle => decide))
           | ((with_reducible apply Within.after (Within.of_eq (State.ringPayload_within ..) ?e)); (case e => assumption); (case hle => decide))
           | with_reducible apply Within.ite
           | split
           | dsimp -zeta only
           | dsimp +zetaDelta only
       clear_value x)
    | intro x
    | lift_lets
    | with_reducible apply Within.ite
    | split
    | dsimp -zeta only
    | dsimp +zetaDelta only

theorem State.payloadNow_within (s : State) (l : Nat) :
    Within (.of [.free, .tick, .act, .latch, .irqs, .log, .pm, .events, .ecc, .bus] [.almState, .almStageFail, .eccStatus, .eccLastUe, .eccTrack, .eccCorr, .eccUe, .eccPoison, .eccTrackFull, .busStatus, .busGrants, .logState, .logEvbEntries, .logDropped, .logEvbLost, .logEntries, .sysIntSrc]) s (State.payloadNow s l).2.2 := by
  delta State.payloadNow
  repeat' first
    | with_reducible assumption
    | with_reducible apply Within.refl
    | ((with_reducible apply Within.after (State.payloadOut_within ..)); (case hle => decide))
    | ((with_reducible apply Within.after (Within.of_eq2 (State.payloadOut_within ..) ?e)); (case e => assumption); (case hle => decide))
    | (intro x
       have hx : Within (.of [.free, .tick, .act, .latch, .irqs, .log, .pm, .events, .ecc, .bus] [.almState, .almStageFail, .eccStatus, .eccLastUe, .eccTrack, .eccCorr, .eccUe, .eccPoison, .eccTrackFull, .busStatus, .busGrants, .logState, .logEvbEntries, .logDropped, .logEvbLost, .logEntries, .sysIntSrc]) s x := by
         dsimp -zeta only [x]
         repeat' first
           | with_reducible assumption
           | with_reducible apply Within.refl
           | ((with_reducible apply Within.after (State.payloadOut_within ..)); (case hle => decide))
           | ((with_reducible apply Within.after (Within.of_eq2 (State.payloadOut_within ..) ?e)); (case e => assumption); (case hle => decide))
           | with_reducible apply Within.ite
           | split
           | dsimp -zeta only
           | dsimp +zetaDelta only
       clear_value x)
    | intro x
    | lift_lets
    | with_reducible apply Within.ite
    | split
    | dsimp -zeta only
    | dsimp +zetaDelta only

theorem State.txFirst_within (s : State) (l : Nat) (b : Int) (gap : Nat) :
    Within (.of [.free, .links] []) s (State.txFirst s l b gap) := by
  delta State.txFirst
  repeat' first
    | with_reducible assumption
    | with_reducible apply Within.refl
    | ((with_reducible apply Within.after (State.takeFree_within ..)); (case hle => decide))
    | ((with_reducible apply Within.after (Within.of_eq (State.takeFree_within ..) ?e)); (case e => assumption); (case hle => decide))
    | ((with_reducible apply Within.after (State.setTx_within ..)); (case hle => decide))
    | (intro x
       have hx : Within (.of [.free, .links] []) s x := by
         dsimp -zeta only [x]
         repeat' first
           | with_reducible assumption
           | with_reducible apply Within.refl
           | ((with_reducible apply Within.after (State.takeFree_within ..)); (case hle => decide))
           | ((with_reducible apply Within.after (Within.of_eq (State.takeFree_within ..) ?e)); (case e => assumption); (case hle => decide))
           | ((with_reducible apply Within.after (State.setTx_within ..)); (case hle => decide))
           | with_reducible apply Within.ite
           | split
           | dsimp -zeta only
           | dsimp +zetaDelta only
       clear_value x)
    | intro x
    | lift_lets
    | with_reducible apply Within.ite
    | split
    | dsimp -zeta only
    | dsimp +zetaDelta only

theorem State.txResume_within (s : State) (l : Nat) (b : Int) (gap : Nat) :
    Within (.of [.links] []) s (State.txResume s l b gap) := by
  delta State.txResume
  repeat' first
    | with_reducible assumption
    | with_reducible apply Within.refl
    | ((with_reducible apply Within.after (State.setTx_within ..)); (case hle => decide))
    | (intro x
       have hx : Within (.of [.links] []) s x := by
         dsimp -zeta only [x]
         repeat' first
           | with_reducible assumption
           | with_reducible apply Within.refl
           | ((with_reducible apply Within.after (State.setTx_within ..)); (case hle => decide))
           | with_reducible apply Within.ite
           | split
           | dsimp -zeta only
           | dsimp +zetaDelta only
       clear_value x)
    | intro x
    | lift_lets
    | with_reducible apply Within.ite
    | split
    | dsimp -zeta only
    | dsimp +zetaDelta only

theorem State.txFrame_within (s : State) (l : Nat) (b : Int) :
    Within (.of [.free, .tick, .lanes, .links, .act, .latch, .irqs, .log, .pm, .events, .ecc, .tim, .bus] [.laneState, .laneTxfir, .laneAdaptStep, .laneAdaptReject, .linkState, .linkTxJust, .linkUserFwdDrop, .linkJustRange, .almState, .almStageFail, .eccStatus, .eccLastUe, .eccTrack, .eccCorr, .eccUe, .eccPoison, .eccTrackFull, .busStatus, .busGrants, .logState, .logEvbEntries, .logDropped, .logEvbLost, .logEntries, .sysIntSrc]) s (State.txFrame s l b) := by
  delta State.txFrame
  repeat' first
    | with_reducible assumption
    | with_reducible apply Within.refl
    | ((with_reducible apply Within.wr); (case hr => first | decide | exact Foot.allRegs_hasReg _ _ | exact Foot.all_hasReg _ | (subst_vars; decide) | ((try dsimp +zetaDelta only); split <;> first | decide | (split <;> first | decide | (split <;> decide)))))
    | ((with_reducible apply Within.setFlag); (case hr => first | decide | exact Foot.allRegs_hasReg _ _ | exact Foot.all_hasReg _ | (subst_vars; decide) | ((try dsimp +zetaDelta only); split <;> first | decide | (split <;> first | decide | (split <;> decide)))))
    | ((with_reducible apply Within.wrS); (case hr => first | decide | exact Foot.allRegs_hasReg _ _ | exact Foot.all_hasReg _ | (subst_vars; decide) | ((try dsimp +zetaDelta only); split <;> first | decide | (split <;> first | decide | (split <;> decide)))))
    | ((with_reducible apply Within.count); (case hr => first | decide | exact Foot.allRegs_hasReg _ _ | exact Foot.all_hasReg _ | (subst_vars; decide) | ((try dsimp +zetaDelta only); split <;> first | decide | (split <;> first | decide | (split <;> decide)))))
    | ((with_reducible apply Within.when); (case' hg => intro _ _))
    | ((with_reducible apply Within.after (State.adaptDecide_within ..)); (case hle => decide))
    | ((with_reducible apply Within.after (State.justifyRange_within ..)); (case hle => decide))
    | ((with_reducible apply Within.after (State.setTx_within ..)); (case hle => decide))
    | ((with_reducible apply Within.after (State.mboxOut_within ..)); (case hle => decide))
    | ((with_reducible apply Within.after (Within.of_eq (State.mboxOut_within ..) ?e)); (case e => assumption); (case hle => decide))
    | ((with_reducible apply Within.after (State.timingSent_within ..)); (case hle => decide))
    | ((with_reducible apply Within.after (State.userOut_within ..)); (case hle => decide))
    | ((with_reducible apply Within.after (Within.of_eq (State.userOut_within ..) ?e)); (case e => assumption); (case hle => decide))
    | ((with_reducible apply Within.after (State.payloadNow_within ..)); (case hle => decide))
    | ((with_reducible apply Within.after (Within.of_eq2 (State.payloadNow_within ..) ?e)); (case e => assumption); (case hle => decide))
    | ((with_reducible apply Within.after (State.meter_within ..)); (case hle => decide))
    | (intro x
       have hx : Within (.of [.free, .tick, .lanes, .links, .act, .latch, .irqs, .log, .pm, .events, .ecc, .tim, .bus] [.laneState, .laneTxfir, .laneAdaptStep, .laneAdaptReject, .linkState, .linkTxJust, .linkUserFwdDrop, .linkJustRange, .almState, .almStageFail, .eccStatus, .eccLastUe, .eccTrack, .eccCorr, .eccUe, .eccPoison, .eccTrackFull, .busStatus, .busGrants, .logState, .logEvbEntries, .logDropped, .logEvbLost, .logEntries, .sysIntSrc]) s x := by
         dsimp -zeta only [x]
         repeat' first
           | with_reducible assumption
           | with_reducible apply Within.refl
           | ((with_reducible apply Within.wr); (case hr => first | decide | exact Foot.allRegs_hasReg _ _ | exact Foot.all_hasReg _ | (subst_vars; decide) | ((try dsimp +zetaDelta only); split <;> first | decide | (split <;> first | decide | (split <;> decide)))))
           | ((with_reducible apply Within.setFlag); (case hr => first | decide | exact Foot.allRegs_hasReg _ _ | exact Foot.all_hasReg _ | (subst_vars; decide) | ((try dsimp +zetaDelta only); split <;> first | decide | (split <;> first | decide | (split <;> decide)))))
           | ((with_reducible apply Within.wrS); (case hr => first | decide | exact Foot.allRegs_hasReg _ _ | exact Foot.all_hasReg _ | (subst_vars; decide) | ((try dsimp +zetaDelta only); split <;> first | decide | (split <;> first | decide | (split <;> decide)))))
           | ((with_reducible apply Within.count); (case hr => first | decide | exact Foot.allRegs_hasReg _ _ | exact Foot.all_hasReg _ | (subst_vars; decide) | ((try dsimp +zetaDelta only); split <;> first | decide | (split <;> first | decide | (split <;> decide)))))
           | ((with_reducible apply Within.when); (case' hg => intro _ _))
           | ((with_reducible apply Within.after (State.adaptDecide_within ..)); (case hle => decide))
           | ((with_reducible apply Within.after (State.justifyRange_within ..)); (case hle => decide))
           | ((with_reducible apply Within.after (State.setTx_within ..)); (case hle => decide))
           | ((with_reducible apply Within.after (State.mboxOut_within ..)); (case hle => decide))
           | ((with_reducible apply Within.after (Within.of_eq (State.mboxOut_within ..) ?e)); (case e => assumption); (case hle => decide))
           | ((with_reducible apply Within.after (State.timingSent_within ..)); (case hle => decide))
           | ((with_reducible apply Within.after (State.userOut_within ..)); (case hle => decide))
           | ((with_reducible apply Within.after (Within.of_eq (State.userOut_within ..) ?e)); (case e => assumption); (case hle => decide))
           | ((with_reducible apply Within.after (State.payloadNow_within ..)); (case hle => decide))
           | ((with_reducible apply Within.after (Within.of_eq2 (State.payloadNow_within ..) ?e)); (case e => assumption); (case hle => decide))
           | ((with_reducible apply Within.after (State.meter_within ..)); (case hle => decide))
           | with_reducible apply Within.ite
           | split
           | dsimp -zeta only
           | dsimp +zetaDelta only
       clear_value x)
    | intro x
    | lift_lets
    | with_reducible apply Within.ite
    | split
    | dsimp -zeta only
    | dsimp +zetaDelta only

theorem State.txEdge_within (s : State) (l : Nat) :
    Within (.of [.links] []) s (State.txEdge s l) := by
  delta State.txEdge
  repeat' first
    | with_reducible assumption
    | with_reducible apply Within.refl
    | ((with_reducible apply Within.after (State.setTx_within ..)); (case hle => decide))
    | (intro x
       have hx : Within (.of [.links] []) s x := by
         dsimp -zeta only [x]
         repeat' first
           | with_reducible assumption
           | with_reducible apply Within.refl
           | ((with_reducible apply Within.after (State.setTx_within ..)); (case hle => decide))
           | with_reducible apply Within.ite
           | split
           | dsimp -zeta only
           | dsimp +zetaDelta only
       clear_value x)
    | intro x
    | lift_lets
    | with_reducible apply Within.ite
    | split
    | dsimp -zeta only
    | dsimp +zetaDelta only

theorem State.mboxSend_within (s : State) (m : Master) (l : Nat) (seq : Nat) (len : Nat) :
    Within (.of [.links, .irqs] [.linkMboxCtrl, .busErrLast, .busErrResp, .busDefault, .sysIntSrc]) s (State.mboxSend s m l seq len) := by
  delta State.mboxSend
  repeat' first
    | with_reducible assumption
    | with_reducible apply Within.refl
    | ((with_reducible apply Within.wr); (case hr => first | decide | exact Foot.allRegs_hasReg _ _ | exact Foot.all_hasReg _ | (subst_vars; decide) | ((try dsimp +zetaDelta only); split <;> first | decide | (split <;> first | decide | (split <;> decide)))))
    | ((with_reducible apply Within.valueOnly); (case he => decide); (case' hg => intro _ _))
    | ((with_reducible apply Within.after (State.setTx_within ..)); (case hle => decide))
    | with_reducible apply Within.ite
    | split
    | dsimp -zeta only

theorem State.userSend_within (s : State) (m : Master) (l : Nat) (seq : Nat) (len : Nat) :
    Within (.of [.links, .irqs] [.linkUserCtrl, .busErrLast, .busErrResp, .busDefault, .sysIntSrc]) s (State.userSend s m l seq len) := by
  delta State.userSend
  repeat' first
    | with_reducible assumption
    | with_reducible apply Within.refl
    | ((with_reducible apply Within.wr); (case hr => first | decide | exact Foot.allRegs_hasReg _ _ | exact Foot.all_hasReg _ | (subst_vars; decide) | ((try dsimp +zetaDelta only); split <;> first | decide | (split <;> first | decide | (split <;> decide)))))
    | ((with_reducible apply Within.valueOnly); (case he => decide); (case' hg => intro _ _))
    | ((with_reducible apply Within.after (State.setTx_within ..)); (case hle => decide))
    | with_reducible apply Within.ite
    | split
    | dsimp -zeta only

theorem execTxFrameStart_within (l : LinkId) (b : FrameStart) (s : State) (s' : State)
    (h : execTxFrameStart l b s = .next s') :
    Within (.of [.free, .tick, .lanes, .links, .act, .latch, .irqs, .log, .pm, .events, .ecc, .tim, .bus] [.laneState, .laneTxfir, .laneAdaptStep, .laneAdaptReject, .linkState, .linkTxJust, .linkUserFwdDrop, .linkJustRange, .almState, .almStageFail, .eccStatus, .eccLastUe, .eccTrack, .eccCorr, .eccUe, .eccPoison, .eccTrackFull, .busStatus, .busGrants, .logState, .logEvbEntries, .logDropped, .logEvbLost, .logEntries, .sysIntSrc]) s s' := by
  delta execTxFrameStart at h
  injection h with h
  subst h
  repeat' first
    | with_reducible assumption
    | with_reducible apply Within.refl
    | ((with_reducible apply Within.when); (case' hg => intro _ _))
    | ((with_reducible apply Within.after (State.txFirst_within ..)); (case hle => decide))
    | ((with_reducible apply Within.after (State.txResume_within ..)); (case hle => decide))
    | ((with_reducible apply Within.after (State.txFrame_within ..)); (case hle => decide))
    | (intro x
       have hx : Within (.of [.free, .tick, .lanes, .links, .act, .latch, .irqs, .log, .pm, .events, .ecc, .tim, .bus] [.laneState, .laneTxfir, .laneAdaptStep, .laneAdaptReject, .linkState, .linkTxJust, .linkUserFwdDrop, .linkJustRange, .almState, .almStageFail, .eccStatus, .eccLastUe, .eccTrack, .eccCorr, .eccUe, .eccPoison, .eccTrackFull, .busStatus, .busGrants, .logState, .logEvbEntries, .logDropped, .logEvbLost, .logEntries, .sysIntSrc]) s x := by
         dsimp -zeta only [x]
         repeat' first
           | with_reducible assumption
           | with_reducible apply Within.refl
           | ((with_reducible apply Within.when); (case' hg => intro _ _))
           | ((with_reducible apply Within.after (State.txFirst_within ..)); (case hle => decide))
           | ((with_reducible apply Within.after (State.txResume_within ..)); (case hle => decide))
           | ((with_reducible apply Within.after (State.txFrame_within ..)); (case hle => decide))
           | with_reducible apply Within.ite
           | split
           | dsimp -zeta only
           | dsimp +zetaDelta only
       clear_value x)
    | intro x
    | lift_lets
    | with_reducible apply Within.ite
    | split
    | dsimp -zeta only
    | dsimp +zetaDelta only

theorem execMboxSend_within (m : Master) (l : LinkId) (seq : BitVec 8) (len : BitVec 8) (s : State) (s' : State)
    (h : execMboxSend m l seq len s = .next s') :
    Within (.of [.links, .irqs, .pm, .bus] [.linkMboxCtrl, .busErrLast, .busErrResp, .busDefault, .busSplits, .busGrants, .sysIntSrc]) s s' := by
  delta execMboxSend at h
  injection h with h
  subst h
  repeat' first
    | with_reducible assumption
    | with_reducible apply Within.refl
    | ((with_reducible apply Within.byReg); (case hp => decide); (case hm => decide); (case he => decide); (case' hg => intro _ _))
    | ((with_reducible apply Within.after (State.mboxSend_within ..)); (case hle => decide))
    | with_reducible apply Within.ite
    | split
    | dsimp -zeta only

theorem execUserSend_within (m : Master) (l : LinkId) (seq : BitVec 8) (len : BitVec 8) (s : State) (s' : State)
    (h : execUserSend m l seq len s = .next s') :
    Within (.of [.links, .irqs, .pm, .bus] [.linkUserCtrl, .busErrLast, .busErrResp, .busDefault, .busSplits, .busGrants, .sysIntSrc]) s s' := by
  delta execUserSend at h
  injection h with h
  subst h
  repeat' first
    | with_reducible assumption
    | with_reducible apply Within.refl
    | ((with_reducible apply Within.byReg); (case hp => decide); (case hm => decide); (case he => decide); (case' hg => intro _ _))
    | ((with_reducible apply Within.after (State.userSend_within ..)); (case hle => decide))
    | with_reducible apply Within.ite
    | split
    | dsimp -zeta only

end Sys2Proof.Machine
end

