-- ==== Sys2Proof/Laws/Footprint/Access.lean ====
section
/-! SUPPORT. What each operation of Machine/Access.lean may touch. -/

namespace Sys2Proof.Machine

theorem State.regClear_within (s : State) (r : Reg) (i : Nat) (p : Part) :
    Within (.allRegs [.boot]) s (State.regClear s r i p) := by
  delta State.regClear
  repeat' first
    | with_reducible assumption
    | with_reducible apply Within.refl
    | ((with_reducible apply Within.wr); (case hr => first | decide | exact Foot.allRegs_hasReg _ _ | exact Foot.all_hasReg _ | (subst_vars; decide) | ((try dsimp +zetaDelta only); split <;> first | decide | (split <;> first | decide | (split <;> decide)))))
    | ((with_reducible apply Within.each); (case' hg => intro _ _ _))
    | ((with_reducible apply Within.after (State.tjClear_within ..)); (case hle => decide))
    | with_reducible apply Within.ite
    | split
    | dsimp -zeta only

theorem State.regHook_within (s : State) (r : Reg) (i : Nat) (old : Nat) :
    Within (.allRegs [.free, .quads, .lanes, .links, .prot, .act, .latch, .irqs, .log, .pm, .events, .boot, .tim, .bus]) s (State.regHook s r i old) := by
  delta State.regHook
  repeat' first
    | with_reducible assumption
    | with_reducible apply Within.refl
    | ((with_reducible apply Within.each); (case' hg => intro _ _ _))
    | ((with_reducible apply Within.after (State.refReconf_within ..)); (case hle => decide))
    | ((with_reducible apply Within.after (State.refsSync_within ..)); (case hle => decide))
    | ((with_reducible apply Within.after (State.protCfg_within ..)); (case hle => decide))
    | ((with_reducible apply Within.after (State.watchSync_within ..)); (case hle => decide))
    | ((with_reducible apply Within.after (State.irqSync_within ..)); (case hle => decide))
    | ((with_reducible apply Within.after (State.loopChanged_within ..)); (case hle => decide))
    | ((with_reducible apply Within.after (State.txEnChanged_within ..)); (case hle => decide))
    | ((with_reducible apply Within.after (State.setRxEn_within ..)); (case hle => decide))
    | ((with_reducible apply Within.after (State.fenceSync_within ..)); (case hle => decide))
    | ((with_reducible apply Within.after (State.funcWant_within ..)); (case hle => decide))
    | (intro x
       have hx : Within (.allRegs [.free, .quads, .lanes, .links, .prot, .act, .latch, .irqs, .log, .pm, .events, .boot, .tim, .bus]) s x := by
         dsimp -zeta only [x]
         repeat' first
           | with_reducible assumption
           | with_reducible apply Within.refl
           | ((with_reducible apply Within.each); (case' hg => intro _ _ _))
           | ((with_reducible apply Within.after (State.refReconf_within ..)); (case hle => decide))
           | ((with_reducible apply Within.after (State.refsSync_within ..)); (case hle => decide))
           | ((with_reducible apply Within.after (State.protCfg_within ..)); (case hle => decide))
           | ((with_reducible apply Within.after (State.watchSync_within ..)); (case hle => decide))
           | ((with_reducible apply Within.after (State.irqSync_within ..)); (case hle => decide))
           | ((with_reducible apply Within.after (State.loopChanged_within ..)); (case hle => decide))
           | ((with_reducible apply Within.after (State.txEnChanged_within ..)); (case hle => decide))
           | ((with_reducible apply Within.after (State.setRxEn_within ..)); (case hle => decide))
           | ((with_reducible apply Within.after (State.fenceSync_within ..)); (case hle => decide))
           | ((with_reducible apply Within.after (State.funcWant_within ..)); (case hle => decide))
           | with_reducible apply Within.ite
           | split
           | dsimp -zeta only
           | dsimp +zetaDelta only
           | ((with_reducible apply Within.set_boot); (case hc => decide))
       clear_value x)
    | intro x
    | lift_lets
    | with_reducible apply Within.ite
    | split
    | dsimp -zeta only
    | dsimp +zetaDelta only
    | ((with_reducible apply Within.set_boot); (case hc => decide))

theorem State.regPut_within (s : State) (r : Reg) (i : Nat) (v : Nat) :
    Within (.allRegs [.free, .quads, .lanes, .links, .prot, .act, .latch, .irqs, .log, .pm, .events, .boot, .tim, .bus]) s (State.regPut s r i v) := by
  delta State.regPut
  repeat' first
    | with_reducible assumption
    | with_reducible apply Within.refl
    | ((with_reducible apply Within.setWord); (case hr => first | decide | exact Foot.allRegs_hasReg _ _ | exact Foot.all_hasReg _ | (subst_vars; decide) | ((try dsimp +zetaDelta only); split <;> first | decide | (split <;> first | decide | (split <;> decide)))))
    | ((with_reducible apply Within.after (State.regHook_within ..)); (case hle => decide))
    | (intro x
       have hx : Within (.allRegs [.free, .quads, .lanes, .links, .prot, .act, .latch, .irqs, .log, .pm, .events, .boot, .tim, .bus]) s x := by
         dsimp -zeta only [x]
         repeat' first
           | with_reducible assumption
           | with_reducible apply Within.refl
           | ((with_reducible apply Within.setWord); (case hr => first | decide | exact Foot.allRegs_hasReg _ _ | exact Foot.all_hasReg _ | (subst_vars; decide) | ((try dsimp +zetaDelta only); split <;> first | decide | (split <;> first | decide | (split <;> decide)))))
           | ((with_reducible apply Within.after (State.regHook_within ..)); (case hle => decide))
           | with_reducible apply Within.ite
           | split
           | dsimp -zeta only
           | dsimp +zetaDelta only
       clear_value x)
    | intro x
    | lift_lets
    | with_reducible apply Within.ite
    | split
    | dsimp -zeta only
    | dsimp +zetaDelta only

theorem State.eccClear_within (s : State) (v : Nat) :
    Within (.of [.act, .irqs, .log, .pm, .events, .bus] [.eccStatus, .busStatus, .busGrants, .logState, .logEvbEntries, .logDropped, .logEvbLost, .logEntries, .sysIntSrc]) s (State.eccClear s v) := by
  delta State.eccClear
  repeat' first
    | with_reducible assumption
    | with_reducible apply Within.refl
    | ((with_reducible apply Within.setFlag); (case hr => first | decide | exact Foot.allRegs_hasReg _ _ | exact Foot.all_hasReg _ | (subst_vars; decide) | ((try dsimp +zetaDelta only); split <;> first | decide | (split <;> first | decide | (split <;> decide)))))
    | ((with_reducible apply Within.after (State.clear_within ..)); (case hle => decide))
    | (intro x
       have hx : Within (.of [.act, .irqs, .log, .pm, .events, .bus] [.eccStatus, .busStatus, .busGrants, .logState, .logEvbEntries, .logDropped, .logEvbLost, .logEntries, .sysIntSrc]) s x := by
         dsimp -zeta only [x]
         repeat' first
           | with_reducible assumption
           | with_reducible apply Within.refl
           | ((with_reducible apply Within.setFlag); (case hr => first | decide | exact Foot.allRegs_hasReg _ _ | exact Foot.all_hasReg _ | (subst_vars; decide) | ((try dsimp +zetaDelta only); split <;> first | decide | (split <;> first | decide | (split <;> decide)))))
           | ((with_reducible apply Within.after (State.clear_within ..)); (case hle => decide))
           | with_reducible apply Within.ite
           | split
           | dsimp -zeta only
           | dsimp +zetaDelta only
       clear_value x)
    | intro x
    | lift_lets
    | with_reducible apply Within.ite
    | split
    | dsimp -zeta only
    | dsimp +zetaDelta only

theorem State.linkClear_within (s : State) (l : Nat) (v : Nat) :
    Within (.of [.act, .irqs, .log, .pm, .events, .bus] [.linkState, .busStatus, .busGrants, .logState, .logEvbEntries, .logDropped, .logEvbLost, .logEntries, .sysIntSrc]) s (State.linkClear s l v) := by
  delta State.linkClear
  repeat' first
    | with_reducible assumption
    | with_reducible apply Within.refl
    | ((with_reducible apply Within.setFlag); (case hr => first | decide | exact Foot.allRegs_hasReg _ _ | exact Foot.all_hasReg _ | (subst_vars; decide) | ((try dsimp +zetaDelta only); split <;> first | decide | (split <;> first | decide | (split <;> decide)))))
    | ((with_reducible apply Within.after (State.clear_within ..)); (case hle => decide))
    | (intro x
       have hx : Within (.of [.act, .irqs, .log, .pm, .events, .bus] [.linkState, .busStatus, .busGrants, .logState, .logEvbEntries, .logDropped, .logEvbLost, .logEntries, .sysIntSrc]) s x := by
         dsimp -zeta only [x]
         repeat' first
           | with_reducible assumption
           | with_reducible apply Within.refl
           | ((with_reducible apply Within.setFlag); (case hr => first | decide | exact Foot.allRegs_hasReg _ _ | exact Foot.all_hasReg _ | (subst_vars; decide) | ((try dsimp +zetaDelta only); split <;> first | decide | (split <;> first | decide | (split <;> decide)))))
           | ((with_reducible apply Within.after (State.clear_within ..)); (case hle => decide))
           | with_reducible apply Within.ite
           | split
           | dsimp -zeta only
           | dsimp +zetaDelta only
       clear_value x)
    | intro x
    | lift_lets
    | with_reducible apply Within.ite
    | split
    | dsimp -zeta only
    | dsimp +zetaDelta only

theorem State.w1c_within (s : State) (r : Reg) (i : Nat) (v : Nat) :
    Within (.allRegs []) s (State.w1c s r i v) := by
  delta State.w1c
  repeat' first
    | with_reducible assumption
    | with_reducible apply Within.refl
    | ((with_reducible apply Within.wr); (case hr => first | decide | exact Foot.allRegs_hasReg _ _ | exact Foot.all_hasReg _ | (subst_vars; decide) | ((try dsimp +zetaDelta only); split <;> first | decide | (split <;> first | decide | (split <;> decide)))))
    | ((with_reducible apply Within.each); (case' hg => intro _ _ _))
    | with_reducible apply Within.ite
    | split
    | dsimp -zeta only

theorem State.regStore_within (s : State) (m : Master) (r : Reg) (i : Nat) (v : Nat) (be : BitVec 8) :
    Within (.allRegs [.free, .quads, .lanes, .links, .prot, .act, .latch, .irqs, .log, .pm, .events, .boot, .mate, .tim, .bus]) s (State.regStore s m r i v be) := by
  delta State.regStore
  repeat' first
    | with_reducible assumption
    | with_reducible apply Within.refl
    | ((with_reducible apply Within.valueOnly); (case he => decide); (case' hg => intro _ _))
    | ((with_reducible apply Within.mirrored); (case hm => decide); (case hr => first | decide | exact Foot.allRegs_hasReg _ _ | exact Foot.all_hasReg _ | (subst_vars; decide) | ((try dsimp +zetaDelta only); split <;> first | decide | (split <;> first | decide | (split <;> decide)))); (case' hg => intro _ _))
    | ((with_reducible apply Within.after (State.regPut_within ..)); (case hle => decide))
    | (intro x
       have hx : Within (.allRegs [.free, .quads, .lanes, .links, .prot, .act, .latch, .irqs, .log, .pm, .events, .boot, .mate, .tim, .bus]) s x := by
         dsimp -zeta only [x]
         repeat' first
           | with_reducible assumption
           | with_reducible apply Within.refl
           | ((with_reducible apply Within.valueOnly); (case he => decide); (case' hg => intro _ _))
           | ((with_reducible apply Within.mirrored); (case hm => decide); (case hr => first | decide | exact Foot.allRegs_hasReg _ _ | exact Foot.all_hasReg _ | (subst_vars; decide) | ((try dsimp +zetaDelta only); split <;> first | decide | (split <;> first | decide | (split <;> decide)))); (case' hg => intro _ _))
           | ((with_reducible apply Within.after (State.regPut_within ..)); (case hle => decide))
           | with_reducible apply Within.ite
           | split
           | dsimp -zeta only
           | dsimp +zetaDelta only
       clear_value x)
    | intro x
    | lift_lets
    | with_reducible apply Within.ite
    | split
    | dsimp -zeta only
    | dsimp +zetaDelta only

theorem State.regAct_within (s : State) (m : Master) (r : Reg) (i : Nat) (p : Part) (v : Nat) :
    Within (.allRegs [.free, .quads, .lanes, .links, .lag, .prot, .core, .act, .latch, .irqs, .log, .pm, .events, .boot, .nvm, .mate, .alm, .ecc, .tim, .bus]) s (State.regAct s m r i p v) := by
  delta State.regAct
  repeat' first
    | with_reducible assumption
    | with_reducible apply Within.refl
    | ((with_reducible apply Within.mirroredCmd); (case hm => decide); (case hr => first | decide | exact Foot.allRegs_hasReg _ _ | exact Foot.all_hasReg _ | (subst_vars; decide) | ((try dsimp +zetaDelta only); split <;> first | decide | (split <;> first | decide | (split <;> decide)))); (case' hg => intro _ _))
    | ((with_reducible apply Within.valueOnly); (case he => decide); (case' hg => intro _ _))
    | ((with_reducible apply Within.when); (case' hg => intro _ _))
    | ((with_reducible apply Within.after (State.slotCmd_within ..)); (case hle => decide))
    | ((with_reducible apply Within.after (State.armCmd_within ..)); (case hle => decide))
    | ((with_reducible apply Within.after (State.trimGo_within ..)); (case hle => decide))
    | ((with_reducible apply Within.after (State.regStore_within ..)); (case hle => decide))
    | ((with_reducible apply Within.after (State.auditCtrl_within ..)); (case hle => decide))
    | ((with_reducible apply Within.after (State.clear_within ..)); (case hle => decide))
    | ((with_reducible apply Within.after (State.w1c_within ..)); (case hle => decide))
    | ((with_reducible apply Within.after (State.groupCmd_within ..)); (case hle => decide))
    | ((with_reducible apply Within.after (State.mateCmd_within ..)); (case hle => decide))
    | ((with_reducible apply Within.after (State.timCmd_within ..)); (case hle => decide))
    | ((with_reducible apply Within.after (State.timDco_within ..)); (case hle => decide))
    | ((with_reducible apply Within.after (State.nvmCommand_within ..)); (case hle => decide))
    | ((with_reducible apply Within.after (State.regPut_within ..)); (case hle => decide))
    | ((with_reducible apply Within.after (State.bootRun_within ..)); (case hle => decide))
    | ((with_reducible apply Within.after (State.scrOwnWrite_within ..)); (case hle => decide))
    | ((with_reducible apply Within.after (State.bwCfg_within ..)); (case hle => decide))
    | ((with_reducible apply Within.after (State.storeCause_within ..)); (case hle => decide))
    | ((with_reducible apply Within.after (State.scrubBegin_within ..)); (case hle => decide))
    | ((with_reducible apply Within.after (State.scrubAbort_within ..)); (case hle => decide))
    | ((with_reducible apply Within.after (State.fuseBurn_within ..)); (case hle => decide))
    | ((with_reducible apply Within.after (State.hbmRepair_within ..)); (case hle => decide))
    | ((with_reducible apply Within.after (State.testNow_within ..)); (case hle => decide))
    | ((with_reducible apply Within.after (State.stackOff_within ..)); (case hle => decide))
    | ((with_reducible apply Within.after (State.stackRestore_within ..)); (case hle => decide))
    | ((with_reducible apply Within.after (State.setQuad_within ..)); (case hle => decide))
    | ((with_reducible apply Within.after (State.scanStart_within ..)); (case hle => decide))
    | ((with_reducible apply Within.after (State.scanEnd_within ..)); (case hle => decide))
    | ((with_reducible apply Within.after (State.mboxSend_within ..)); (case hle => decide))
    | ((with_reducible apply Within.after (State.userSend_within ..)); (case hle => decide))
    | ((with_reducible apply Within.after (State.linkClear_within ..)); (case hle => decide))
    | ((with_reducible apply Within.after (State.overrunClear_within ..)); (case hle => decide))
    | ((with_reducible apply Within.after (State.clashClear_within ..)); (case hle => decide))
    | ((with_reducible apply Within.after (State.eccClear_within ..)); (case hle => decide))
    | ((with_reducible apply Within.after (State.irqSync_within ..)); (case hle => decide))
    | ((with_reducible apply Within.after (State.srcClear_within ..)); (case hle => decide))
    | (intro x
       have hx : Within (.allRegs [.free, .quads, .lanes, .links, .lag, .prot, .core, .act, .latch, .irqs, .log, .pm, .events, .boot, .nvm, .mate, .alm, .ecc, .tim, .bus]) s x := by
         dsimp -zeta only [x]
         repeat' first
           | with_reducible assumption
           | with_reducible apply Within.refl
           | ((with_reducible apply Within.mirroredCmd); (case hm => decide); (case hr => first | decide | exact Foot.allRegs_hasReg _ _ | exact Foot.all_hasReg _ | (subst_vars; decide) | ((try dsimp +zetaDelta only); split <;> first | decide | (split <;> first | decide | (split <;> decide)))); (case' hg => intro _ _))
           | ((with_reducible apply Within.valueOnly); (case he => decide); (case' hg => intro _ _))
           | ((with_reducible apply Within.when); (case' hg => intro _ _))
           | ((with_reducible apply Within.after (State.slotCmd_within ..)); (case hle => decide))
           | ((with_reducible apply Within.after (State.armCmd_within ..)); (case hle => decide))
           | ((with_reducible apply Within.after (State.trimGo_within ..)); (case hle => decide))
           | ((with_reducible apply Within.after (State.regStore_within ..)); (case hle => decide))
           | ((with_reducible apply Within.after (State.auditCtrl_within ..)); (case hle => decide))
           | ((with_reducible apply Within.after (State.clear_within ..)); (case hle => decide))
           | ((with_reducible apply Within.after (State.w1c_within ..)); (case hle => decide))
           | ((with_reducible apply Within.after (State.groupCmd_within ..)); (case hle => decide))
           | ((with_reducible apply Within.after (State.mateCmd_within ..)); (case hle => decide))
           | ((with_reducible apply Within.after (State.timCmd_within ..)); (case hle => decide))
           | ((with_reducible apply Within.after (State.timDco_within ..)); (case hle => decide))
           | ((with_reducible apply Within.after (State.nvmCommand_within ..)); (case hle => decide))
           | ((with_reducible apply Within.after (State.regPut_within ..)); (case hle => decide))
           | ((with_reducible apply Within.after (State.bootRun_within ..)); (case hle => decide))
           | ((with_reducible apply Within.after (State.scrOwnWrite_within ..)); (case hle => decide))
           | ((with_reducible apply Within.after (State.bwCfg_within ..)); (case hle => decide))
           | ((with_reducible apply Within.after (State.storeCause_within ..)); (case hle => decide))
           | ((with_reducible apply Within.after (State.scrubBegin_within ..)); (case hle => decide))
           | ((with_reducible apply Within.after (State.scrubAbort_within ..)); (case hle => decide))
           | ((with_reducible apply Within.after (State.fuseBurn_within ..)); (case hle => decide))
           | ((with_reducible apply Within.after (State.hbmRepair_within ..)); (case hle => decide))
           | ((with_reducible apply Within.after (State.testNow_within ..)); (case hle => decide))
           | ((with_reducible apply Within.after (State.stackOff_within ..)); (case hle => decide))
           | ((with_reducible apply Within.after (State.stackRestore_within ..)); (case hle => decide))
           | ((with_reducible apply Within.after (State.setQuad_within ..)); (case hle => decide))
           | ((with_reducible apply Within.after (State.scanStart_within ..)); (case hle => decide))
           | ((with_reducible apply Within.after (State.scanEnd_within ..)); (case hle => decide))
           | ((with_reducible apply Within.after (State.mboxSend_within ..)); (case hle => decide))
           | ((with_reducible apply Within.after (State.userSend_within ..)); (case hle => decide))
           | ((with_reducible apply Within.after (State.linkClear_within ..)); (case hle => decide))
           | ((with_reducible apply Within.after (State.overrunClear_within ..)); (case hle => decide))
           | ((with_reducible apply Within.after (State.clashClear_within ..)); (case hle => decide))
           | ((with_reducible apply Within.after (State.eccClear_within ..)); (case hle => decide))
           | ((with_reducible apply Within.after (State.irqSync_within ..)); (case hle => decide))
           | ((with_reducible apply Within.after (State.srcClear_within ..)); (case hle => decide))
           | with_reducible apply Within.ite
           | split
           | dsimp -zeta only
           | dsimp +zetaDelta only
           | ((with_reducible apply Within.set_pm); (case hc => decide))
       clear_value x)
    | intro x
    | lift_lets
    | with_reducible apply Within.ite
    | split
    | dsimp -zeta only
    | dsimp +zetaDelta only
    | ((with_reducible apply Within.set_pm); (case hc => decide))

theorem State.regWrite_within (s : State) (m : Master) (r : Reg) (i : Nat) (p : Part) (v : Nat) :
    Within (.allRegs [.free, .quads, .lanes, .links, .lag, .prot, .core, .act, .latch, .irqs, .log, .pm, .events, .boot, .nvm, .mate, .alm, .ecc, .tim, .bus]) s (State.regWrite s m r i p v) := by
  delta State.regWrite
  repeat' first
    | with_reducible assumption
    | with_reducible apply Within.refl
    | ((with_reducible apply Within.after (State.errResp_within ..)); (case hle => decide))
    | ((with_reducible apply Within.after (State.regAct_within ..)); (case hle => decide))
    | with_reducible apply Within.ite
    | split
    | dsimp -zeta only

theorem State.spotRead_within (s : State) (m : Master) (x : RegSpot) (p : Part) :
    Within (.allRegs [.boot]) s (State.spotRead s m x p).2 := by
  delta State.spotRead
  repeat' first
    | with_reducible assumption
    | with_reducible apply Within.refl
    | ((with_reducible apply Within.after (State.regClear_within ..)); (case hle => decide))
    | with_reducible apply Within.ite
    | split
    | dsimp -zeta only

theorem State.msixPut_within (s : State) (n : Nat) (j : Nat) (p : Part) (v : Nat) :
    Within (.of [.irqs] []) s (State.msixPut s n j p v) := by
  delta State.msixPut
  repeat' first
    | with_reducible assumption
    | with_reducible apply Within.refl
    | ((with_reducible apply Within.foldl_snd); (case' hg => intro _ _ _))
    | ((with_reducible apply Within.foldl); (case' hg => intro _ _ _))
    | ((with_reducible apply Within.after (State.setPort_within ..)); (case hle => decide))
    | (intro x
       have hx : Within (.of [.irqs] []) s x := by
         dsimp -zeta only [x]
         repeat' first
           | with_reducible assumption
           | with_reducible apply Within.refl
           | ((with_reducible apply Within.foldl_snd); (case' hg => intro _ _ _))
           | ((with_reducible apply Within.foldl); (case' hg => intro _ _ _))
           | ((with_reducible apply Within.after (State.setPort_within ..)); (case hle => decide))
           | with_reducible apply Within.ite
           | split
           | dsimp -zeta only
           | dsimp +zetaDelta only
       clear_value x)
    | intro x
    | lift_lets
    | with_reducible apply Within.ite
    | split
    | dsimp -zeta only
    | dsimp +zetaDelta only

theorem State.spotWrite_within (s : State) (m : Master) (a2 : Nat) (x : RegSpot) (p : Part) (v : Nat) :
    Within (.allRegs [.free, .quads, .lanes, .links, .lag, .prot, .core, .act, .latch, .irqs, .log, .pm, .events, .boot, .nvm, .mate, .alm, .ecc, .tim, .bus]) s (State.spotWrite s m a2 x p v) := by
  delta State.spotWrite
  repeat' first
    | with_reducible assumption
    | with_reducible apply Within.refl
    | ((with_reducible apply Within.after (State.regWrite_within ..)); (case hle => decide))
    | ((with_reducible apply Within.after (State.errResp_within ..)); (case hle => decide))
    | ((with_reducible apply Within.after (State.msixPut_within ..)); (case hle => decide))
    | ((with_reducible apply Within.after (State.latchClear_within ..)); (case hle => decide))
    | ((with_reducible apply Within.after (State.setLink_within ..)); (case hle => decide))
    | (intro x
       have hx : Within (.allRegs [.free, .quads, .lanes, .links, .lag, .prot, .core, .act, .latch, .irqs, .log, .pm, .events, .boot, .nvm, .mate, .alm, .ecc, .tim, .bus]) s x := by
         dsimp -zeta only [x]
         repeat' first
           | with_reducible assumption
           | with_reducible apply Within.refl
           | ((with_reducible apply Within.after (State.regWrite_within ..)); (case hle => decide))
           | ((with_reducible apply Within.after (State.errResp_within ..)); (case hle => decide))
           | ((with_reducible apply Within.after (State.msixPut_within ..)); (case hle => decide))
           | ((with_reducible apply Within.after (State.latchClear_within ..)); (case hle => decide))
           | ((with_reducible apply Within.after (State.setLink_within ..)); (case hle => decide))
           | with_reducible apply Within.ite
           | split
           | dsimp -zeta only
           | dsimp +zetaDelta only
           | ((with_reducible apply Within.set_nvm); (case hc => decide))
       clear_value x)
    | intro x
    | lift_lets
    | with_reducible apply Within.ite
    | split
    | dsimp -zeta only
    | dsimp +zetaDelta only
    | ((with_reducible apply Within.set_nvm); (case hc => decide))

theorem State.regTargetRead_within (s : State) (m : Master) (a2 : Nat) (n : Nat) :
    Within (.allRegs [.free, .tick, .act, .latch, .irqs, .log, .pm, .events, .boot, .ecc, .bus]) s (State.regTargetRead s m a2 n) := by
  delta State.regTargetRead
  repeat' first
    | with_reducible assumption
    | with_reducible apply Within.refl
    | ((with_reducible apply Within.after (State.refuse_within ..)); (case hle => decide))
    | ((with_reducible apply Within.after (State.aliasDo_within ..)); (case hle => decide))
    | ((with_reducible apply Within.after (State.spotRead_within ..)); (case hle => decide))
    | ((with_reducible apply Within.after (Within.of_eq (State.spotRead_within ..) ?e)); (case e => assumption); (case hle => decide))
    | ((with_reducible apply Within.after (State.answer_within ..)); (case hle => decide))
    | with_reducible apply Within.ite
    | split
    | dsimp -zeta only

theorem State.regTargetWrite_within (s : State) (m : Master) (a2 : Nat) (n : Nat) (v : Nat) :
    Within (.allRegs [.free, .tick, .quads, .lanes, .links, .lag, .prot, .core, .act, .latch, .irqs, .log, .pm, .events, .boot, .nvm, .mate, .alm, .ecc, .tim, .bus]) s (State.regTargetWrite s m a2 n v) := by
  delta State.regTargetWrite
  repeat' first
    | with_reducible assumption
    | with_reducible apply Within.refl
    | ((with_reducible apply Within.after (State.errResp_within ..)); (case hle => decide))
    | ((with_reducible apply Within.after (State.aliasDo_within ..)); (case hle => decide))
    | ((with_reducible apply Within.after (State.spotWrite_within ..)); (case hle => decide))
    | with_reducible apply Within.ite
    | split
    | dsimp -zeta only

end Sys2Proof.Machine
end

