-- ==== Sys2Proof/Laws/Footprint/Bus.lean ====
section
/-! SUPPORT. What each operation of Machine/Bus.lean may touch. -/

namespace Sys2Proof.Machine

theorem Within.writeBeats {f : Foot} {s x : State} (m : Master) (a : Nat) (data : List (Option Byte))
    (g : State → Nat → List (Option Byte) → Option ErrCause × State) (h : Within f s x) (he : (Foot.of [.irqs] [.busErrLast, .busErrResp, .busDefault, .sysIntSrc]).le f = true)
    (hg : ∀ y b l, Within f s y → Within f s (g y b l).2) : Within f s (x.writeBeats m a data g) := by
  unfold State.writeBeats
  have h1 := Within.foldl_snd (f := f) (s := s) (beatsOf a data.length) (writeBeat g a data) (none, x) h (by
    intro acc b hacc
    unfold writeBeat
    dsimp only
    split
    · exact hacc
    · exact hg _ _ _ hacc)
  dsimp only
  split
  · exact .after (State.errResp_within ..) h1 he
  · exact h1

theorem Within.readBeats {f : Foot} {s x : State} (m : Master) (a n : Nat) (g : State → Nat → Except ErrCause Nat × State)
    (h : Within f s x) (he : (Foot.of [.irqs] [.busErrLast, .busErrResp, .busDefault, .sysIntSrc]).le f = true) (hb : f.hasComp .bus = true)
    (hg : ∀ y b, Within f s y → Within f s (g y b).2) : Within f s (x.readBeats m a n g) := by
  unfold State.readBeats
  have h1 := Within.foldl_of (f := f) (s := s) (fun acc : Option (Nat × ErrCause) × List Byte × State => acc.2.2) (beatsOf a n) (readBeat g)
    (none, [], x) h (by
    intro b acc hacc
    unfold readBeat
    have := hg _ b hacc
    dsimp only
    split <;> exact this)
  dsimp only
  split
  · exact .set_bus (.after (State.errResp_within ..) h1 he) hb
  · exact .set_bus h1 hb

theorem State.read0_within (s : State) (m : Master) (b : Nat) :
    Within (.of [.free, .tick, .act, .latch, .irqs, .log, .pm, .events, .ecc, .bus] [.almState, .almStageFail, .eccStatus, .eccLastUe, .eccTrack, .eccCorr, .eccUe, .eccPoison, .eccTrackFull, .busStatus, .busGrants, .logState, .logEvbEntries, .logDropped, .logEvbLost, .logEntries, .sysIntSrc]) s (State.read0 s m b).2 := by
  delta State.read0
  repeat' first
    | with_reducible assumption
    | with_reducible apply Within.refl
    | ((with_reducible apply Within.after (State.scratchRead_within ..)); (case hle => decide))
    | ((with_reducible apply Within.after (Within.of_eq (State.scratchRead_within ..) ?e)); (case e => assumption); (case hle => decide))
    | with_reducible apply Within.ite
    | split
    | dsimp -zeta only

theorem State.write0_within (s : State) (m : Master) (cyc : Nat) (b : Nat) (lanes : List (Option Byte)) :
    Within (.of [.free, .tick, .act, .latch, .irqs, .log, .pm, .events, .ecc, .bus] [.almState, .almStageFail, .eccStatus, .eccLastUe, .eccTrack, .eccCorr, .eccUe, .eccPoison, .eccTrackFull, .busStatus, .busCollLast, .busGrants, .busCollisions, .logState, .logEvbEntries, .logDropped, .logEvbLost, .logEntries, .sysIntSrc]) s (State.write0 s m cyc b lanes).2 := by
  delta State.write0
  repeat' first
    | with_reducible assumption
    | with_reducible apply Within.refl
    | ((with_reducible apply Within.after (State.scratchWrite_within ..)); (case hle => decide))
    | ((with_reducible apply Within.after (Within.of_eq (State.scratchWrite_within ..) ?e)); (case e => assumption); (case hle => decide))
    | with_reducible apply Within.ite
    | split
    | dsimp -zeta only

theorem State.semTargetRead_within (s : State) (m : Master) (a2 : Nat) (n : Nat) (cyc : Nat) :
    Within (.of [.irqs, .log, .pm, .events, .bus] [.busStatus, .busErrLast, .busErrResp, .busDefault, .busGrants, .busSemTaken, .logState, .logEvbEntries, .logDropped, .logEvbLost, .logEntries, .sysIntSrc]) s (State.semTargetRead s m a2 n cyc) := by
  delta State.semTargetRead
  repeat' first
    | with_reducible assumption
    | with_reducible apply Within.refl
    | ((with_reducible apply Within.after (State.refuse_within ..)); (case hle => decide))
    | ((with_reducible apply Within.after (State.semRead_within ..)); (case hle => decide))
    | ((with_reducible apply Within.after (Within.of_eq (State.semRead_within ..) ?e)); (case e => assumption); (case hle => decide))
    | ((with_reducible apply Within.after (State.answer_within ..)); (case hle => decide))
    | with_reducible apply Within.ite
    | split
    | dsimp -zeta only

theorem State.semTargetWrite_within (s : State) (m : Master) (a2 : Nat) (n : Nat) (v : Nat) (cyc : Nat) :
    Within (.of [.irqs, .log, .pm, .events, .bus] [.busStatus, .busErrLast, .busErrResp, .busDefault, .busGrants, .busSemForced, .logState, .logEvbEntries, .logDropped, .logEvbLost, .logEntries, .sysIntSrc]) s (State.semTargetWrite s m a2 n v cyc) := by
  delta State.semTargetWrite
  repeat' first
    | with_reducible assumption
    | with_reducible apply Within.refl
    | ((with_reducible apply Within.after (State.errResp_within ..)); (case hle => decide))
    | ((with_reducible apply Within.after (State.semWrite_within ..)); (case hle => decide))
    | ((with_reducible apply Within.after (Within.of_eq (State.semWrite_within ..) ?e)); (case e => assumption); (case hle => decide))
    | with_reducible apply Within.ite
    | split
    | dsimp -zeta only

theorem State.windowTargetRead_within (s : State) (m : Master) (a2 : Nat) (n : Nat) :
    Within (.of [.free, .tick, .act, .latch, .irqs, .log, .pm, .events, .alm, .ecc, .bus] [.almState, .almStageFail, .eccStatus, .eccLastUe, .eccTrack, .eccCorr, .eccUe, .eccPoison, .eccTrackFull, .busStatus, .busErrLast, .busErrResp, .busDefault, .busGrants, .logState, .logEvbEntries, .logDropped, .logEvbLost, .logEntries, .sysIntSrc]) s (State.windowTargetRead s m a2 n) := by
  delta State.windowTargetRead
  repeat' first
    | with_reducible assumption
    | with_reducible apply Within.refl
    | ((with_reducible apply Within.each); (case' hg => intro _ _ _))
    | ((with_reducible apply Within.after (State.answer_within ..)); (case hle => decide))
    | ((with_reducible apply Within.after (State.windowAnswer_within ..)); (case hle => decide))
    | (intro x
       have hx : Within (.of [.free, .tick, .act, .latch, .irqs, .log, .pm, .events, .alm, .ecc, .bus] [.almState, .almStageFail, .eccStatus, .eccLastUe, .eccTrack, .eccCorr, .eccUe, .eccPoison, .eccTrackFull, .busStatus, .busErrLast, .busErrResp, .busDefault, .busGrants, .logState, .logEvbEntries, .logDropped, .logEvbLost, .logEntries, .sysIntSrc]) s x := by
         dsimp -zeta only [x]
         repeat' first
           | with_reducible assumption
           | with_reducible apply Within.refl
           | ((with_reducible apply Within.each); (case' hg => intro _ _ _))
           | ((with_reducible apply Within.after (State.answer_within ..)); (case hle => decide))
           | ((with_reducible apply Within.after (State.windowAnswer_within ..)); (case hle => decide))
           | with_reducible apply Within.ite
           | ((with_reducible apply Within.set_alm); (case hc => decide))
           | split
           | dsimp -zeta only
           | dsimp +zetaDelta only
       clear_value x)
    | intro x
    | lift_lets
    | with_reducible apply Within.ite
    | ((with_reducible apply Within.set_alm); (case hc => decide))
    | split
    | dsimp -zeta only
    | dsimp +zetaDelta only

theorem State.nvmRead_within (s : State) (m : Master) (a2 : Nat) (n : Nat) :
    Within (.of [.free, .irqs, .bus] [.busErrLast, .busErrResp, .busDefault, .sysIntSrc]) s (State.nvmRead s m a2 n) := by
  delta State.nvmRead
  repeat' first
    | with_reducible assumption
    | with_reducible apply Within.refl
    | ((with_reducible apply Within.after (State.refuse_within ..)); (case hle => decide))
    | ((with_reducible apply Within.after (State.answer_within ..)); (case hle => decide))
    | ((with_reducible apply Within.after (State.takeFreeWords_within ..)); (case hle => decide))
    | ((with_reducible apply Within.after (Within.of_eq (State.takeFreeWords_within ..) ?e)); (case e => assumption); (case hle => decide))
    | (intro x
       have hx : Within (.of [.free, .irqs, .bus] [.busErrLast, .busErrResp, .busDefault, .sysIntSrc]) s x := by
         dsimp -zeta only [x]
         repeat' first
           | with_reducible assumption
           | with_reducible apply Within.refl
           | ((with_reducible apply Within.after (State.refuse_within ..)); (case hle => decide))
           | ((with_reducible apply Within.after (State.answer_within ..)); (case hle => decide))
           | ((with_reducible apply Within.after (State.takeFreeWords_within ..)); (case hle => decide))
           | ((with_reducible apply Within.after (Within.of_eq (State.takeFreeWords_within ..) ?e)); (case e => assumption); (case hle => decide))
           | with_reducible apply Within.ite
           | split
           | dsimp -zeta only
           | dsimp +zetaDelta only
       clear_value x)
    | intro x
    | lift_lets
    | with_reducible apply Within.ite
    | split
    | dsimp -zeta only
    | dsimp +zetaDelta only

theorem State.hbmRead_within (s : State) (k : Nat) (b : Nat) :
    Within (.of [.free, .tick, .act, .latch, .irqs, .log, .pm, .events, .ecc, .bus] [.eccStatus, .hbmCand, .hbmUe, .busStatus, .busGrants, .logState, .logEvbEntries, .logDropped, .logEvbLost, .logEntries, .sysIntSrc]) s (State.hbmRead s k b).2 := by
  delta State.hbmRead
  repeat' first
    | with_reducible assumption
    | with_reducible apply Within.refl
    | ((with_reducible apply Within.after (State.hbmUncorrected_within ..)); (case hle => decide))
    | (intro x
       have hx : Within (.of [.free, .tick, .act, .latch, .irqs, .log, .pm, .events, .ecc, .bus] [.eccStatus, .hbmCand, .hbmUe, .busStatus, .busGrants, .logState, .logEvbEntries, .logDropped, .logEvbLost, .logEntries, .sysIntSrc]) s x := by
         dsimp -zeta only [x]
         repeat' first
           | with_reducible assumption
           | with_reducible apply Within.refl
           | ((with_reducible apply Within.after (State.hbmUncorrected_within ..)); (case hle => decide))
           | with_reducible apply Within.ite
           | split
           | dsimp -zeta only
           | dsimp +zetaDelta only
       clear_value x)
    | intro x
    | lift_lets
    | with_reducible apply Within.ite
    | split
    | dsimp -zeta only
    | dsimp +zetaDelta only

theorem State.hbmWrite_within (s : State) (m : Master) (k : Nat) (b : Nat) (lanes : List (Option Byte)) :
    Within (.of [.lag, .events, .hbm] [.almSlotStatus]) s (State.hbmWrite s m k b lanes).2 := by
  delta State.hbmWrite
  repeat' first
    | with_reducible assumption
    | with_reducible apply Within.refl
    | ((with_reducible apply Within.after (State.slotWritten_within ..)); (case hle => decide))
    | (intro x
       have hx : Within (.of [.lag, .events, .hbm] [.almSlotStatus]) s x := by
         dsimp -zeta only [x]
         repeat' first
           | with_reducible assumption
           | with_reducible apply Within.refl
           | ((with_reducible apply Within.after (State.slotWritten_within ..)); (case hle => decide))
           | with_reducible apply Within.ite
           | split
           | dsimp -zeta only
           | dsimp +zetaDelta only
           | ((with_reducible apply Within.set_lag); (case hc => decide))
           | ((with_reducible apply Within.set_hbm_any); (case hh => decide); (case he => decide); (case hw => first | exact memWrite_wf _ _ _ | exact hbmPut_wf _ _ _ | exact fun h => Tbl.wf_set (d := (0 : Byte)) _ _ h | exact fun h => Tbl.wf_filter (d := (0 : Byte)) _ h))
       clear_value x)
    | intro x
    | lift_lets
    | with_reducible apply Within.ite
    | split
    | dsimp -zeta only
    | dsimp +zetaDelta only
    | ((with_reducible apply Within.set_lag); (case hc => decide))
    | ((with_reducible apply Within.set_hbm_any); (case hh => decide); (case he => decide); (case hw => first | exact memWrite_wf _ _ _ | exact hbmPut_wf _ _ _ | exact fun h => Tbl.wf_set (d := (0 : Byte)) _ _ h | exact fun h => Tbl.wf_filter (d := (0 : Byte)) _ h))

theorem State.hbmTargetWrite_within (s : State) (m : Master) (k : Nat) (a3 : Nat) (data : List (Option Byte)) :
    Within (.of [.free, .tick, .lag, .act, .latch, .irqs, .log, .pm, .events, .hbm, .ecc, .bus] [.almSlotStatus, .eccStatus, .hbmCand, .hbmUe, .busStatus, .busErrLast, .busErrResp, .busDefault, .busGrants, .logState, .logEvbEntries, .logDropped, .logEvbLost, .logEntries, .sysIntSrc]) s (State.hbmTargetWrite s m k a3 data) := by
  delta State.hbmTargetWrite
  repeat' first
    | with_reducible assumption
    | with_reducible apply Within.refl
    | ((with_reducible apply Within.writeBeats); (case he => decide); (case' hg => intro _ _ _ _))
    | ((with_reducible apply Within.after (State.hbmMerge_within ..)); (case hle => decide))
    | ((with_reducible apply Within.after (Within.of_eq2 (State.hbmMerge_within ..) ?e)); (case e => assumption); (case hle => decide))
    | ((with_reducible apply Within.after (State.hbmWrite_within ..)); (case hle => decide))
    | ((with_reducible apply Within.after (Within.of_eq (State.hbmWrite_within ..) ?e)); (case e => assumption); (case hle => decide))
    | ((with_reducible apply Within.after (State.errResp_within ..)); (case hle => decide))
    | (intro x
       have hx : Within (.of [.free, .tick, .lag, .act, .latch, .irqs, .log, .pm, .events, .hbm, .ecc, .bus] [.almSlotStatus, .eccStatus, .hbmCand, .hbmUe, .busStatus, .busErrLast, .busErrResp, .busDefault, .busGrants, .logState, .logEvbEntries, .logDropped, .logEvbLost, .logEntries, .sysIntSrc]) s x := by
         dsimp -zeta only [x]
         repeat' first
           | with_reducible assumption
           | with_reducible apply Within.refl
           | ((with_reducible apply Within.writeBeats); (case he => decide); (case' hg => intro _ _ _ _))
           | ((with_reducible apply Within.after (State.hbmMerge_within ..)); (case hle => decide))
           | ((with_reducible apply Within.after (Within.of_eq2 (State.hbmMerge_within ..) ?e)); (case e => assumption); (case hle => decide))
           | ((with_reducible apply Within.after (State.hbmWrite_within ..)); (case hle => decide))
           | ((with_reducible apply Within.after (Within.of_eq (State.hbmWrite_within ..) ?e)); (case e => assumption); (case hle => decide))
           | ((with_reducible apply Within.after (State.errResp_within ..)); (case hle => decide))
           | with_reducible apply Within.ite
           | split
           | dsimp -zeta only
           | dsimp +zetaDelta only
       clear_value x)
    | intro x
    | lift_lets
    | with_reducible apply Within.ite
    | split
    | dsimp -zeta only
    | dsimp +zetaDelta only

theorem State.targetRead_within (s : State) (m : Master) (t : Nat) (a3 : Nat) (n : Nat) (cyc : Nat) :
    Within (.allRegs [.free, .tick, .act, .latch, .irqs, .log, .pm, .events, .boot, .alm, .ecc, .bus]) s (State.targetRead s m t a3 n cyc) := by
  delta State.targetRead
  repeat' first
    | with_reducible assumption
    | with_reducible apply Within.refl
    | ((with_reducible apply Within.readBeats); (case he => decide); (case hb => decide); (case' hg => intro _ _ _))
    | ((with_reducible apply Within.after (State.read0_within ..)); (case hle => decide))
    | ((with_reducible apply Within.after (Within.of_eq (State.read0_within ..) ?e)); (case e => assumption); (case hle => decide))
    | ((with_reducible apply Within.after (State.scratchRead_within ..)); (case hle => decide))
    | ((with_reducible apply Within.after (Within.of_eq (State.scratchRead_within ..) ?e)); (case e => assumption); (case hle => decide))
    | ((with_reducible apply Within.after (State.semTargetRead_within ..)); (case hle => decide))
    | ((with_reducible apply Within.after (State.regTargetRead_within ..)); (case hle => decide))
    | ((with_reducible apply Within.after (State.windowTargetRead_within ..)); (case hle => decide))
    | ((with_reducible apply Within.after (State.nvmRead_within ..)); (case hle => decide))
    | ((with_reducible apply Within.after (State.meter_within ..)); (case hle => decide))
    | ((with_reducible apply Within.after (State.hbmRead_within ..)); (case hle => decide))
    | ((with_reducible apply Within.after (Within.of_eq (State.hbmRead_within ..) ?e)); (case e => assumption); (case hle => decide))
    | ((with_reducible apply Within.after (State.refuse_within ..)); (case hle => decide))
    | with_reducible apply Within.ite
    | split
    | dsimp -zeta only

theorem State.targetWrite_within (s : State) (m : Master) (t : Nat) (a3 : Nat) (data : List (Option Byte)) (cyc : Nat) :
    Within (.allRegs [.free, .tick, .quads, .lanes, .links, .lag, .prot, .core, .act, .latch, .irqs, .log, .pm, .events, .hbm, .boot, .nvm, .mate, .alm, .ecc, .tim, .bus]) s (State.targetWrite s m t a3 data cyc) := by
  delta State.targetWrite
  repeat' first
    | with_reducible assumption
    | with_reducible apply Within.refl
    | ((with_reducible apply Within.writeBeats); (case he => decide); (case' hg => intro _ _ _ _))
    | ((with_reducible apply Within.after (State.write0_within ..)); (case hle => decide))
    | ((with_reducible apply Within.after (Within.of_eq (State.write0_within ..) ?e)); (case e => assumption); (case hle => decide))
    | ((with_reducible apply Within.after (State.scratchWrite_within ..)); (case hle => decide))
    | ((with_reducible apply Within.after (Within.of_eq (State.scratchWrite_within ..) ?e)); (case e => assumption); (case hle => decide))
    | ((with_reducible apply Within.after (State.errResp_within ..)); (case hle => decide))
    | ((with_reducible apply Within.after (State.semTargetWrite_within ..)); (case hle => decide))
    | ((with_reducible apply Within.after (State.regTargetWrite_within ..)); (case hle => decide))
    | ((with_reducible apply Within.after (State.windowWrite_within ..)); (case hle => decide))
    | ((with_reducible apply Within.after (State.meter_within ..)); (case hle => decide))
    | ((with_reducible apply Within.after (State.hbmTargetWrite_within ..)); (case hle => decide))
    | (intro x
       have hx : Within (.allRegs [.free, .tick, .quads, .lanes, .links, .lag, .prot, .core, .act, .latch, .irqs, .log, .pm, .events, .hbm, .boot, .nvm, .mate, .alm, .ecc, .tim, .bus]) s x := by
         dsimp -zeta only [x]
         repeat' first
           | with_reducible assumption
           | with_reducible apply Within.refl
           | ((with_reducible apply Within.writeBeats); (case he => decide); (case' hg => intro _ _ _ _))
           | ((with_reducible apply Within.after (State.write0_within ..)); (case hle => decide))
           | ((with_reducible apply Within.after (Within.of_eq (State.write0_within ..) ?e)); (case e => assumption); (case hle => decide))
           | ((with_reducible apply Within.after (State.scratchWrite_within ..)); (case hle => decide))
           | ((with_reducible apply Within.after (Within.of_eq (State.scratchWrite_within ..) ?e)); (case e => assumption); (case hle => decide))
           | ((with_reducible apply Within.after (State.errResp_within ..)); (case hle => decide))
           | ((with_reducible apply Within.after (State.semTargetWrite_within ..)); (case hle => decide))
           | ((with_reducible apply Within.after (State.regTargetWrite_within ..)); (case hle => decide))
           | ((with_reducible apply Within.after (State.windowWrite_within ..)); (case hle => decide))
           | ((with_reducible apply Within.after (State.meter_within ..)); (case hle => decide))
           | ((with_reducible apply Within.after (State.hbmTargetWrite_within ..)); (case hle => decide))
           | with_reducible apply Within.ite
           | split
           | dsimp -zeta only
           | dsimp +zetaDelta only
       clear_value x)
    | intro x
    | lift_lets
    | with_reducible apply Within.ite
    | split
    | dsimp -zeta only
    | dsimp +zetaDelta only

theorem State.burstDo_within (s : State) (r : BusReq) (cyc : Nat) :
    Within (.allRegs [.free, .tick, .quads, .lanes, .links, .lag, .prot, .core, .act, .latch, .irqs, .log, .pm, .events, .hbm, .boot, .nvm, .mate, .alm, .ecc, .tim, .bus]) s (State.burstDo s r cyc) := by
  delta State.burstDo
  repeat' first
    | with_reducible assumption
    | with_reducible apply Within.refl
    | ((with_reducible apply Within.after (State.answer_within ..)); (case hle => decide))
    | ((with_reducible apply Within.after (State.refuse_within ..)); (case hle => decide))
    | ((with_reducible apply Within.after (State.grantTo_within ..)); (case hle => decide))
    | ((with_reducible apply Within.after (State.targetWrite_within ..)); (case hle => decide))
    | ((with_reducible apply Within.after (State.targetRead_within ..)); (case hle => decide))
    | (intro x
       have hx : Within (.allRegs [.free, .tick, .quads, .lanes, .links, .lag, .prot, .core, .act, .latch, .irqs, .log, .pm, .events, .hbm, .boot, .nvm, .mate, .alm, .ecc, .tim, .bus]) s x := by
         dsimp -zeta only [x]
         repeat' first
           | with_reducible assumption
           | with_reducible apply Within.refl
           | ((with_reducible apply Within.after (State.answer_within ..)); (case hle => decide))
           | ((with_reducible apply Within.after (State.refuse_within ..)); (case hle => decide))
           | ((with_reducible apply Within.after (State.grantTo_within ..)); (case hle => decide))
           | ((with_reducible apply Within.after (State.targetWrite_within ..)); (case hle => decide))
           | ((with_reducible apply Within.after (State.targetRead_within ..)); (case hle => decide))
           | with_reducible apply Within.ite
           | split
           | dsimp -zeta only
           | dsimp +zetaDelta only
       clear_value x)
    | intro x
    | lift_lets
    | with_reducible apply Within.ite
    | split
    | dsimp -zeta only
    | dsimp +zetaDelta only

theorem State.transfer_within (s : State) (m : Master) (a2 : Nat) (n : Nat) (data : List (Option Byte)) (write : Bool) (cyc : Nat) (busy : Bool) :
    Within (.allRegs [.free, .tick, .quads, .lanes, .links, .lag, .prot, .core, .act, .latch, .irqs, .log, .pm, .events, .hbm, .boot, .nvm, .mate, .alm, .ecc, .tim, .bus]) s (State.transfer s m a2 n data write cyc busy) := by
  delta State.transfer
  repeat' first
    | with_reducible assumption
    | with_reducible apply Within.refl
    | ((with_reducible apply Within.countBy); (case hr => first | decide | exact Foot.allRegs_hasReg _ _ | exact Foot.all_hasReg _ | (subst_vars; decide) | ((try dsimp +zetaDelta only); split <;> first | decide | (split <;> first | decide | (split <;> decide)))))
    | ((with_reducible apply Within.each); (case' hg => intro _ _ _))
    | ((with_reducible apply Within.after (State.burstDo_within ..)); (case hle => decide))
    | ((with_reducible apply Within.after (State.passOver_within ..)); (case hle => decide))
    | (intro x
       have hx : Within (.allRegs [.free, .tick, .quads, .lanes, .links, .lag, .prot, .core, .act, .latch, .irqs, .log, .pm, .events, .hbm, .boot, .nvm, .mate, .alm, .ecc, .tim, .bus]) s x := by
         dsimp -zeta only [x]
         repeat' first
           | with_reducible assumption
           | with_reducible apply Within.refl
           | ((with_reducible apply Within.countBy); (case hr => first | decide | exact Foot.allRegs_hasReg _ _ | exact Foot.all_hasReg _ | (subst_vars; decide) | ((try dsimp +zetaDelta only); split <;> first | decide | (split <;> first | decide | (split <;> decide)))))
           | ((with_reducible apply Within.each); (case' hg => intro _ _ _))
           | ((with_reducible apply Within.after (State.burstDo_within ..)); (case hle => decide))
           | ((with_reducible apply Within.after (State.passOver_within ..)); (case hle => decide))
           | with_reducible apply Within.ite
           | ((with_reducible apply Within.set_bus); (case hc => decide))
           | split
           | dsimp -zeta only
           | dsimp +zetaDelta only
       clear_value x)
    | intro x
    | lift_lets
    | with_reducible apply Within.ite
    | ((with_reducible apply Within.set_bus); (case hc => decide))
    | split
    | dsimp -zeta only
    | dsimp +zetaDelta only

theorem State.hostRequest_within (s : State) (p : Port) (bar2 : Bool) (off : Nat) (n : Nat) (data : List (Option Byte)) (write : Bool) (cyc : Nat) (busy : Bool) :
    Within (.allRegs [.free, .tick, .quads, .lanes, .links, .lag, .prot, .core, .act, .latch, .irqs, .log, .pm, .events, .hbm, .boot, .nvm, .mate, .alm, .ecc, .tim, .bus]) s (State.hostRequest s p bar2 off n data write cyc busy) := by
  delta State.hostRequest
  repeat' first
    | with_reducible assumption
    | with_reducible apply Within.refl
    | ((with_reducible apply Within.after (State.answer_within ..)); (case hle => decide))
    | ((with_reducible apply Within.after (State.transfer_within ..)); (case hle => decide))
    | ((with_reducible apply Within.after (State.hostMeter_within ..)); (case hle => decide))
    | (intro x
       have hx : Within (.allRegs [.free, .tick, .quads, .lanes, .links, .lag, .prot, .core, .act, .latch, .irqs, .log, .pm, .events, .hbm, .boot, .nvm, .mate, .alm, .ecc, .tim, .bus]) s x := by
         dsimp -zeta only [x]
         repeat' first
           | with_reducible assumption
           | with_reducible apply Within.refl
           | ((with_reducible apply Within.after (State.answer_within ..)); (case hle => decide))
           | ((with_reducible apply Within.after (State.transfer_within ..)); (case hle => decide))
           | ((with_reducible apply Within.after (State.hostMeter_within ..)); (case hle => decide))
           | with_reducible apply Within.ite
           | split
           | dsimp -zeta only
           | dsimp +zetaDelta only
       clear_value x)
    | intro x
    | lift_lets
    | with_reducible apply Within.ite
    | split
    | dsimp -zeta only
    | dsimp +zetaDelta only

theorem execHostRead_within (p : Port) (bar2 : Bool) (off : Nat) (len : Nat) (cyc : Nat) (busy : Bool) (s : State) (s' : State)
    (h : execHostRead p bar2 off len cyc busy s = .next s') :
    Within (.allRegs [.free, .tick, .quads, .lanes, .links, .lag, .prot, .core, .act, .latch, .irqs, .log, .pm, .events, .hbm, .boot, .nvm, .mate, .alm, .ecc, .tim, .bus]) s s' := by
  delta execHostRead at h
  injection h with h
  subst h
  repeat' first
    | with_reducible assumption
    | with_reducible apply Within.refl
    | ((with_reducible apply Within.after (State.hostRequest_within ..)); (case hle => decide))
    | with_reducible apply Within.ite
    | split
    | dsimp -zeta only

theorem execHostWrite_within (p : Port) (bar2 : Bool) (off : Nat) (data : List (Option Byte)) (cyc : Nat) (busy : Bool) (s : State) (s' : State)
    (h : execHostWrite p bar2 off data cyc busy s = .next s') :
    Within (.allRegs [.free, .tick, .quads, .lanes, .links, .lag, .prot, .core, .act, .latch, .irqs, .log, .pm, .events, .hbm, .boot, .nvm, .mate, .alm, .ecc, .tim, .bus]) s s' := by
  delta execHostWrite at h
  injection h with h
  subst h
  repeat' first
    | with_reducible assumption
    | with_reducible apply Within.refl
    | ((with_reducible apply Within.after (State.hostRequest_within ..)); (case hle => decide))
    | with_reducible apply Within.ite
    | split
    | dsimp -zeta only

theorem execBusGrant_within (t : TargetId) (cyc : Nat) (waited : Nat) (s : State) (s' : State)
    (h : execBusGrant t cyc waited s = .next s') :
    Within (.allRegs [.free, .tick, .quads, .lanes, .links, .lag, .prot, .core, .act, .latch, .irqs, .log, .pm, .events, .hbm, .boot, .nvm, .mate, .alm, .ecc, .tim, .bus]) s s' := by
  delta execBusGrant at h
  injection h with h
  subst h
  repeat' first
    | with_reducible assumption
    | with_reducible apply Within.refl
    | ((with_reducible apply Within.countBy); (case hr => first | decide | exact Foot.allRegs_hasReg _ _ | exact Foot.all_hasReg _ | (subst_vars; decide) | ((try dsimp +zetaDelta only); split <;> first | decide | (split <;> first | decide | (split <;> decide)))))
    | ((with_reducible apply Within.after (State.passOver_within ..)); (case hle => decide))
    | ((with_reducible apply Within.after (State.meter_within ..)); (case hle => decide))
    | ((with_reducible apply Within.after (State.burstDo_within ..)); (case hle => decide))
    | (intro x
       have hx : Within (.allRegs [.free, .tick, .quads, .lanes, .links, .lag, .prot, .core, .act, .latch, .irqs, .log, .pm, .events, .hbm, .boot, .nvm, .mate, .alm, .ecc, .tim, .bus]) s x := by
         dsimp -zeta only [x]
         repeat' first
           | with_reducible assumption
           | with_reducible apply Within.refl
           | ((with_reducible apply Within.countBy); (case hr => first | decide | exact Foot.allRegs_hasReg _ _ | exact Foot.all_hasReg _ | (subst_vars; decide) | ((try dsimp +zetaDelta only); split <;> first | decide | (split <;> first | decide | (split <;> decide)))))
           | ((with_reducible apply Within.after (State.passOver_within ..)); (case hle => decide))
           | ((with_reducible apply Within.after (State.meter_within ..)); (case hle => decide))
           | ((with_reducible apply Within.after (State.burstDo_within ..)); (case hle => decide))
           | with_reducible apply Within.ite
           | split
           | dsimp -zeta only
           | dsimp +zetaDelta only
           | ((with_reducible apply Within.set_bus); (case hc => decide))
       clear_value x)
    | intro x
    | lift_lets
    | with_reducible apply Within.ite
    | split
    | dsimp -zeta only
    | dsimp +zetaDelta only
    | ((with_reducible apply Within.set_bus); (case hc => decide))

theorem execRegisterWrite_within (m : Master) (addr : Nat) (value : BitVec 64) (part : Part) (s : State) (s' : State)
    (h : execRegisterWrite m addr value part s = .next s') :
    Within (.allRegs [.free, .tick, .quads, .lanes, .links, .lag, .prot, .core, .act, .latch, .irqs, .log, .pm, .events, .hbm, .boot, .nvm, .mate, .alm, .ecc, .tim, .bus]) s s' := by
  delta execRegisterWrite at h
  injection h with h
  subst h
  repeat' first
    | with_reducible assumption
    | with_reducible apply Within.refl
    | ((with_reducible apply Within.after (State.transfer_within ..)); (case hle => decide))
    | ((with_reducible apply Within.after (State.hostMeter_within ..)); (case hle => decide))
    | (intro x
       have hx : Within (.allRegs [.free, .tick, .quads, .lanes, .links, .lag, .prot, .core, .act, .latch, .irqs, .log, .pm, .events, .hbm, .boot, .nvm, .mate, .alm, .ecc, .tim, .bus]) s x := by
         dsimp -zeta only [x]
         repeat' first
           | with_reducible assumption
           | with_reducible apply Within.refl
           | ((with_reducible apply Within.after (State.transfer_within ..)); (case hle => decide))
           | ((with_reducible apply Within.after (State.hostMeter_within ..)); (case hle => decide))
           | with_reducible apply Within.ite
           | split
           | dsimp -zeta only
           | dsimp +zetaDelta only
       clear_value x)
    | intro x
    | lift_lets
    | with_reducible apply Within.ite
    | split
    | dsimp -zeta only
    | dsimp +zetaDelta only

end Sys2Proof.Machine
end

