-- ==== Sys2Proof/Laws/Footprint/Boot.lean ====
section
/-! SUPPORT. What each operation of Machine/Boot.lean may touch. -/

namespace Sys2Proof.Machine

theorem State.bootFailed_within (s : State) (cause : Nat) :
    Within (.of [.act, .latch, .irqs, .log, .pm, .events, .bus] [.busStatus, .busScrOwn, .busGrants, .sysBootStatus, .logState, .logEvbEntries, .logDropped, .logEvbLost, .logEntries, .sysIntSrc]) s (State.bootFailed s cause) := by
  delta State.bootFailed
  repeat' first
    | with_reducible assumption
    | with_reducible apply Within.refl
    | ((with_reducible apply Within.wr); (case hr => first | decide | exact Foot.allRegs_hasReg _ _ | exact Foot.all_hasReg _ | (subst_vars; decide) | ((try dsimp +zetaDelta only); split <;> first | decide | (split <;> first | decide | (split <;> decide)))))
    | ((with_reducible apply Within.after (State.raise_within ..)); (case hle => decide))
    | ((with_reducible apply Within.after (State.bootStop_within ..)); (case hle => decide))
    | (intro x
       have hx : Within (.of [.act, .latch, .irqs, .log, .pm, .events, .bus] [.busStatus, .busScrOwn, .busGrants, .sysBootStatus, .logState, .logEvbEntries, .logDropped, .logEvbLost, .logEntries, .sysIntSrc]) s x := by
         dsimp -zeta only [x]
         repeat' first
           | with_reducible assumption
           | with_reducible apply Within.refl
           | ((with_reducible apply Within.wr); (case hr => first | decide | exact Foot.allRegs_hasReg _ _ | exact Foot.all_hasReg _ | (subst_vars; decide) | ((try dsimp +zetaDelta only); split <;> first | decide | (split <;> first | decide | (split <;> decide)))))
           | ((with_reducible apply Within.after (State.raise_within ..)); (case hle => decide))
           | ((with_reducible apply Within.after (State.bootStop_within ..)); (case hle => decide))
           | with_reducible apply Within.ite
           | ((with_reducible apply Within.set_log); (case hc => decide))
           | split
           | dsimp -zeta only
           | dsimp +zetaDelta only
       clear_value x)
    | intro x
    | lift_lets
    | with_reducible apply Within.ite
    | ((with_reducible apply Within.set_log); (case hc => decide))
    | split
    | dsimp -zeta only
    | dsimp +zetaDelta only

theorem State.imageFailed_within (s : State) (cause : Nat) :
    Within (.of [.act, .latch, .irqs, .log, .pm, .events, .boot, .bus] [.busStatus, .busScrOwn, .busGrants, .sysBootStatus, .logState, .logEvbEntries, .logDropped, .logEvbLost, .logEntries, .sysIntSrc]) s (State.imageFailed s cause) := by
  unfold State.imageFailed
  split
  · split
    · exact .after (State.bootFailed_within ..) (.refl _ s) (by decide)
    · exact .after (State.bootAt_within ..) (Within.setFlag _ _ _ (.after (State.raise_within ..)
        (Within.set_boot (.refl _ s) (by decide)) (by decide)) (by decide)) (by decide)
  · exact .after (State.bootFailed_within ..) (.refl _ s) (by decide)

theorem Within.bootStep {f : Foot} {s x : State} (op : Nat) (g : State → State) (h : Within f s x)
    (ht : (Foot.allRegs [.free, .tick, .quads, .lanes, .links, .lag, .prot, .core, .act, .latch, .irqs, .log, .pm, .events, .hbm, .boot, .nvm, .mate, .alm, .ecc, .tim, .bus]).le f = true) (hf : (Foot.of [.act, .latch, .irqs, .log, .pm, .events, .bus] [.busStatus, .busScrOwn, .busGrants, .sysBootStatus, .logState, .logEvbEntries, .logDropped, .logEvbLost, .logEntries, .sysIntSrc]).le f = true) (hb : f.hasComp .boot = true)
    (hg : ∀ y, Within f s y → Within f s (g y)) : Within f s (x.bootStep op g) := by
  unfold State.bootStep
  split
  · exact h
  · split
    · exact hg _ h
    · have h1 := Within.after (State.transfer_within x .boot (24 * x.boot.step) 24 [] false 0 false) h ht
      dsimp only
      split
      · exact .after (State.bootFailed_within ..) h1 hf
      · exact hg _ (h1.set_boot hb)

theorem State.skipLogged_within (s : State) (slot : Nat) :
    Within (.of [.free, .log, .pm, .events, .bus] [.busGrants, .logState, .logEvbEntries, .logDropped, .logEvbLost, .logEntries, .sysIntSrc]) s (State.skipLogged s slot) := by
  delta State.skipLogged
  repeat' first
    | with_reducible assumption
    | with_reducible apply Within.refl
    | ((with_reducible apply Within.after (State.takeFree_within ..)); (case hle => decide))
    | ((with_reducible apply Within.after (Within.of_eq (State.takeFree_within ..) ?e)); (case e => assumption); (case hle => decide))
    | ((with_reducible apply Within.after (State.logEvent_within ..)); (case hle => decide))
    | (intro x
       have hx : Within (.of [.free, .log, .pm, .events, .bus] [.busGrants, .logState, .logEvbEntries, .logDropped, .logEvbLost, .logEntries, .sysIntSrc]) s x := by
         dsimp -zeta only [x]
         repeat' first
           | with_reducible assumption
           | with_reducible apply Within.refl
           | ((with_reducible apply Within.after (State.takeFree_within ..)); (case hle => decide))
           | ((with_reducible apply Within.after (Within.of_eq (State.takeFree_within ..) ?e)); (case e => assumption); (case hle => decide))
           | ((with_reducible apply Within.after (State.logEvent_within ..)); (case hle => decide))
           | with_reducible apply Within.ite
           | split
           | dsimp -zeta only
           | dsimp +zetaDelta only
       clear_value x)
    | intro x
    | lift_lets
    | with_reducible apply Within.ite
    | split
    | dsimp -zeta only
    | dsimp +zetaDelta only

theorem State.copyBytes_within (s : State) (slot : Nat) (bs : List Byte) :
    Within (.of [.pm, .events, .hbm, .boot, .bus] [.almSlotStatus, .busSplits, .busGrants]) s (State.copyBytes s slot bs) := by
  delta State.copyBytes
  repeat' first
    | with_reducible assumption
    | with_reducible apply Within.refl
    | ((with_reducible apply Within.after (State.slotWritten_within ..)); (case hle => decide))
    | ((with_reducible apply Within.after (State.grantAll_within ..)); (case hle => decide))
    | ((with_reducible apply Within.after (State.meter_within ..)); (case hle => decide))
    | (intro x
       have hx : Within (.of [.pm, .events, .hbm, .boot, .bus] [.almSlotStatus, .busSplits, .busGrants]) s x := by
         dsimp -zeta only [x]
         repeat' first
           | with_reducible assumption
           | with_reducible apply Within.refl
           | ((with_reducible apply Within.after (State.slotWritten_within ..)); (case hle => decide))
           | ((with_reducible apply Within.after (State.grantAll_within ..)); (case hle => decide))
           | ((with_reducible apply Within.after (State.meter_within ..)); (case hle => decide))
           | with_reducible apply Within.ite
           | ((with_reducible apply Within.set_boot); (case hc => decide))
           | ((with_reducible apply Within.set_hbm_any); (case hh => decide); (case he => decide); (case hw => first | exact memWrite_wf _ _ _ | exact hbmPut_wf _ _ _ | exact fun h => Tbl.wf_set (d := (0 : Byte)) _ _ h | exact fun h => Tbl.wf_filter (d := (0 : Byte)) _ h))
           | split
           | dsimp -zeta only
           | dsimp +zetaDelta only
       clear_value x)
    | intro x
    | lift_lets
    | with_reducible apply Within.ite
    | ((with_reducible apply Within.set_boot); (case hc => decide))
    | ((with_reducible apply Within.set_hbm_any); (case hh => decide); (case he => decide); (case hw => first | exact memWrite_wf _ _ _ | exact hbmPut_wf _ _ _ | exact fun h => Tbl.wf_set (d := (0 : Byte)) _ _ h | exact fun h => Tbl.wf_filter (d := (0 : Byte)) _ h))
    | split
    | dsimp -zeta only
    | dsimp +zetaDelta only

theorem State.copyEntry_within (s : State) (i : Nat) (slot : Nat) (e : BootEntry) :
    Within (.of [.pm, .events, .hbm, .boot, .bus] [.almSlotStatus, .busSplits, .busGrants]) s (State.copyEntry s i slot e).2 := by
  unfold State.copyEntry
  split
  · exact .refl _ s
  · exact .after (State.copyBytes_within ..) (.refl _ s) (by decide)

theorem State.loadEntries_within (s : State) (i : Nat) :
    Within (.of [.free, .log, .pm, .events, .hbm, .boot, .bus] [.almSlotStatus, .busSplits, .busGrants, .logState, .logEvbEntries, .logDropped, .logEvbLost, .logEntries, .sysIntSrc]) s (State.loadEntries s i).2 := by
  unfold State.loadEntries
  refine Within.foldl_of (f := Foot.of [.free, .log, .pm, .events, .hbm, .boot, .bus] [.almSlotStatus, .busSplits, .busGrants, .logState, .logEvbEntries, .logDropped, .logEvbLost, .logEntries, .sysIntSrc]) (s := s) (fun acc : Nat × Nat × State => acc.2.2) _ _ _ (Within.set_boot (.refl _ s) (by decide)) ?_
  intro e acc h
  unfold loadEntry
  dsimp only
  split
  · exact h
  · split
    · refine .after (State.copyEntry_within ..) ?_ (by decide)
      split
      · exact Within.set_boot h (by decide)
      · exact h
    · split
      · exact h
      · exact .after (State.skipLogged_within ..) h (by decide)

theorem State.bootCheck_within (s : State) (i : Nat) :
    Within (.of [.free, .tick, .act, .latch, .irqs, .log, .pm, .events, .alm, .ecc, .bus] [.almState, .almSlotStatus, .almCheckReject, .eccStatus, .hbmCand, .hbmUe, .busStatus, .busGrants, .logState, .logEvbEntries, .logDropped, .logEvbLost, .logEntries, .sysIntSrc]) s (State.bootCheck s i) := by
  delta State.bootCheck
  repeat' first
    | with_reducible assumption
    | with_reducible apply Within.refl
    | ((with_reducible apply Within.after (State.checkEnd_within ..)); (case hle => decide))
    | ((with_reducible apply Within.after (State.checkStart_within ..)); (case hle => decide))
    | with_reducible apply Within.ite
    | split
    | dsimp -zeta only

theorem execLoadImage_within (s : State) (s' : State)
    (h : execLoadImage s = .next s') :
    Within (.allRegs [.free, .tick, .quads, .lanes, .links, .lag, .prot, .core, .act, .latch, .irqs, .log, .pm, .events, .hbm, .boot, .nvm, .mate, .alm, .ecc, .tim, .bus]) s s' := by
  delta execLoadImage at h
  injection h with h
  subst h
  repeat' first
    | with_reducible assumption
    | with_reducible apply Within.refl
    | ((with_reducible apply Within.wr); (case hr => first | decide | exact Foot.allRegs_hasReg _ _ | exact Foot.all_hasReg _ | (subst_vars; decide) | ((try dsimp +zetaDelta only); split <;> first | decide | (split <;> first | decide | (split <;> decide)))))
    | ((with_reducible apply Within.setFlag); (case hr => first | decide | exact Foot.allRegs_hasReg _ _ | exact Foot.all_hasReg _ | (subst_vars; decide) | ((try dsimp +zetaDelta only); split <;> first | decide | (split <;> first | decide | (split <;> decide)))))
    | ((with_reducible apply Within.when); (case' hg => intro _ _))
    | ((with_reducible apply Within.bootStep); (case ht => decide); (case hf => decide); (case hb => decide); (case' hg => intro _ _))
    | ((with_reducible apply Within.after (State.imageFailed_within ..)); (case hle => decide))
    | ((with_reducible apply Within.after (State.loadEntries_within ..)); (case hle => decide))
    | ((with_reducible apply Within.after (Within.of_eq (State.loadEntries_within ..) ?e)); (case e => assumption); (case hle => decide))
    | ((with_reducible apply Within.after (State.bootNext_within ..)); (case hle => decide))
    | (intro x
       have hx : Within (.allRegs [.free, .tick, .quads, .lanes, .links, .lag, .prot, .core, .act, .latch, .irqs, .log, .pm, .events, .hbm, .boot, .nvm, .mate, .alm, .ecc, .tim, .bus]) s x := by
         dsimp -zeta only [x]
         repeat' first
           | with_reducible assumption
           | with_reducible apply Within.refl
           | ((with_reducible apply Within.wr); (case hr => first | decide | exact Foot.allRegs_hasReg _ _ | exact Foot.all_hasReg _ | (subst_vars; decide) | ((try dsimp +zetaDelta only); split <;> first | decide | (split <;> first | decide | (split <;> decide)))))
           | ((with_reducible apply Within.setFlag); (case hr => first | decide | exact Foot.allRegs_hasReg _ _ | exact Foot.all_hasReg _ | (subst_vars; decide) | ((try dsimp +zetaDelta only); split <;> first | decide | (split <;> first | decide | (split <;> decide)))))
           | ((with_reducible apply Within.when); (case' hg => intro _ _))
           | ((with_reducible apply Within.bootStep); (case ht => decide); (case hf => decide); (case hb => decide); (case' hg => intro _ _))
           | ((with_reducible apply Within.after (State.imageFailed_within ..)); (case hle => decide))
           | ((with_reducible apply Within.after (State.loadEntries_within ..)); (case hle => decide))
           | ((with_reducible apply Within.after (Within.of_eq (State.loadEntries_within ..) ?e)); (case e => assumption); (case hle => decide))
           | ((with_reducible apply Within.after (State.bootNext_within ..)); (case hle => decide))
           | with_reducible apply Within.ite
           | split
           | dsimp -zeta only
           | dsimp +zetaDelta only
           | ((with_reducible apply Within.set_boot); (case hc => decide))
       clear_value x)
    | intro x
    | lift_lets
    | with_reducible apply Within.ite
    | split
    | dsimp -zeta only
    | dsimp +zetaDelta only
    | ((with_reducible apply Within.set_boot); (case hc => decide))

theorem execCheckBoot_within (s : State) (s' : State)
    (h : execCheckBoot s = .next s') :
    Within (.allRegs [.free, .tick, .quads, .lanes, .links, .lag, .prot, .core, .act, .latch, .irqs, .log, .pm, .events, .hbm, .boot, .nvm, .mate, .alm, .ecc, .tim, .bus]) s s' := by
  delta execCheckBoot at h
  injection h with h
  subst h
  repeat' first
    | with_reducible assumption
    | with_reducible apply Within.refl
    | ((with_reducible apply Within.when); (case' hg => intro _ _))
    | ((with_reducible apply Within.bootStep); (case ht => decide); (case hf => decide); (case hb => decide); (case' hg => intro _ _))
    | ((with_reducible apply Within.after (State.imageFailed_within ..)); (case hle => decide))
    | ((with_reducible apply Within.after (State.bootCheck_within ..)); (case hle => decide))
    | ((with_reducible apply Within.after (State.bootNext_within ..)); (case hle => decide))
    | (intro x
       have hx : Within (.allRegs [.free, .tick, .quads, .lanes, .links, .lag, .prot, .core, .act, .latch, .irqs, .log, .pm, .events, .hbm, .boot, .nvm, .mate, .alm, .ecc, .tim, .bus]) s x := by
         dsimp -zeta only [x]
         repeat' first
           | with_reducible assumption
           | with_reducible apply Within.refl
           | ((with_reducible apply Within.when); (case' hg => intro _ _))
           | ((with_reducible apply Within.bootStep); (case ht => decide); (case hf => decide); (case hb => decide); (case' hg => intro _ _))
           | ((with_reducible apply Within.after (State.imageFailed_within ..)); (case hle => decide))
           | ((with_reducible apply Within.after (State.bootCheck_within ..)); (case hle => decide))
           | ((with_reducible apply Within.after (State.bootNext_within ..)); (case hle => decide))
           | with_reducible apply Within.ite
           | split
           | dsimp -zeta only
           | dsimp +zetaDelta only
       clear_value x)
    | intro x
    | lift_lets
    | with_reducible apply Within.ite
    | split
    | dsimp -zeta only
    | dsimp +zetaDelta only

theorem execStageBoot_within (s : State) (s' : State)
    (h : execStageBoot s = .next s') :
    Within (.allRegs [.free, .tick, .quads, .lanes, .links, .lag, .prot, .core, .act, .latch, .irqs, .log, .pm, .events, .hbm, .boot, .nvm, .mate, .alm, .ecc, .tim, .bus]) s s' := by
  delta execStageBoot at h
  injection h with h
  subst h
  repeat' first
    | with_reducible assumption
    | with_reducible apply Within.refl
    | ((with_reducible apply Within.when); (case' hg => intro _ _))
    | ((with_reducible apply Within.bootStep); (case ht => decide); (case hf => decide); (case hb => decide); (case' hg => intro _ _))
    | ((with_reducible apply Within.after (State.imageFailed_within ..)); (case hle => decide))
    | ((with_reducible apply Within.after (State.stageEnd_within ..)); (case hle => decide))
    | ((with_reducible apply Within.after (State.stageStart_within ..)); (case hle => decide))
    | ((with_reducible apply Within.after (State.bootNext_within ..)); (case hle => decide))
    | (intro x
       have hx : Within (.allRegs [.free, .tick, .quads, .lanes, .links, .lag, .prot, .core, .act, .latch, .irqs, .log, .pm, .events, .hbm, .boot, .nvm, .mate, .alm, .ecc, .tim, .bus]) s x := by
         dsimp -zeta only [x]
         repeat' first
           | with_reducible assumption
           | with_reducible apply Within.refl
           | ((with_reducible apply Within.when); (case' hg => intro _ _))
           | ((with_reducible apply Within.bootStep); (case ht => decide); (case hf => decide); (case hb => decide); (case' hg => intro _ _))
           | ((with_reducible apply Within.after (State.imageFailed_within ..)); (case hle => decide))
           | ((with_reducible apply Within.after (State.stageEnd_within ..)); (case hle => decide))
           | ((with_reducible apply Within.after (State.stageStart_within ..)); (case hle => decide))
           | ((with_reducible apply Within.after (State.bootNext_within ..)); (case hle => decide))
           | with_reducible apply Within.ite
           | split
           | dsimp -zeta only
           | dsimp +zetaDelta only
       clear_value x)
    | intro x
    | lift_lets
    | with_reducible apply Within.ite
    | split
    | dsimp -zeta only
    | dsimp +zetaDelta only

theorem execActivate_within (s : State) (s' : State)
    (h : execActivate s = .next s') :
    Within (.allRegs [.free, .tick, .quads, .lanes, .links, .lag, .prot, .core, .act, .latch, .irqs, .log, .pm, .events, .hbm, .boot, .nvm, .mate, .alm, .ecc, .tim, .bus]) s s' := by
  delta execActivate at h
  injection h with h
  subst h
  repeat' first
    | with_reducible assumption
    | with_reducible apply Within.refl
    | ((with_reducible apply Within.bootStep); (case ht => decide); (case hf => decide); (case hb => decide); (case' hg => intro _ _))
    | ((with_reducible apply Within.after (State.arm_within ..)); (case hle => decide))
    | ((with_reducible apply Within.after (State.bootFailed_within ..)); (case hle => decide))
    | (intro x
       have hx : Within (.allRegs [.free, .tick, .quads, .lanes, .links, .lag, .prot, .core, .act, .latch, .irqs, .log, .pm, .events, .hbm, .boot, .nvm, .mate, .alm, .ecc, .tim, .bus]) s x := by
         dsimp -zeta only [x]
         repeat' first
           | with_reducible assumption
           | with_reducible apply Within.refl
           | ((with_reducible apply Within.bootStep); (case ht => decide); (case hf => decide); (case hb => decide); (case' hg => intro _ _))
           | ((with_reducible apply Within.after (State.arm_within ..)); (case hle => decide))
           | ((with_reducible apply Within.after (State.bootFailed_within ..)); (case hle => decide))
           | with_reducible apply Within.ite
           | ((with_reducible apply Within.set_boot); (case hc => decide))
           | split
           | dsimp -zeta only
           | dsimp +zetaDelta only
       clear_value x)
    | intro x
    | lift_lets
    | with_reducible apply Within.ite
    | ((with_reducible apply Within.set_boot); (case hc => decide))
    | split
    | dsimp -zeta only
    | dsimp +zetaDelta only

theorem execCheckRest_within (s : State) (s' : State)
    (h : execCheckRest s = .next s') :
    Within (.allRegs [.free, .tick, .quads, .lanes, .links, .lag, .prot, .core, .act, .latch, .irqs, .log, .pm, .events, .hbm, .boot, .nvm, .mate, .alm, .ecc, .tim, .bus]) s s' := by
  delta execCheckRest at h
  injection h with h
  subst h
  repeat' first
    | with_reducible assumption
    | with_reducible apply Within.refl
    | ((with_reducible apply Within.when); (case' hg => intro _ _))
    | ((with_reducible apply Within.bootStep); (case ht => decide); (case hf => decide); (case hb => decide); (case' hg => intro _ _))
    | ((with_reducible apply Within.each); (case' hg => intro _ _ _))
    | ((with_reducible apply Within.after (State.bootNext_within ..)); (case hle => decide))
    | ((with_reducible apply Within.after (State.bootCheck_within ..)); (case hle => decide))
    | with_reducible apply Within.ite
    | split
    | dsimp -zeta only

theorem execBootStepWrite_within (s : State) (s' : State)
    (h : execBootStepWrite s = .next s') :
    Within (.allRegs [.free, .tick, .quads, .lanes, .links, .lag, .prot, .core, .act, .latch, .irqs, .log, .pm, .events, .hbm, .boot, .nvm, .mate, .alm, .ecc, .tim, .bus]) s s' := by
  delta execBootStepWrite at h
  injection h with h
  subst h
  repeat' first
    | with_reducible assumption
    | with_reducible apply Within.refl
    | ((with_reducible apply Within.bootStep); (case ht => decide); (case hf => decide); (case hb => decide); (case' hg => intro _ _))
    | ((with_reducible apply Within.after (State.transfer_within ..)); (case hle => decide))
    | ((with_reducible apply Within.after (State.bootFailed_within ..)); (case hle => decide))
    | ((with_reducible apply Within.after (State.bootNext_within ..)); (case hle => decide))
    | (intro x
       have hx : Within (.allRegs [.free, .tick, .quads, .lanes, .links, .lag, .prot, .core, .act, .latch, .irqs, .log, .pm, .events, .hbm, .boot, .nvm, .mate, .alm, .ecc, .tim, .bus]) s x := by
         dsimp -zeta only [x]
         repeat' first
           | with_reducible assumption
           | with_reducible apply Within.refl
           | ((with_reducible apply Within.bootStep); (case ht => decide); (case hf => decide); (case hb => decide); (case' hg => intro _ _))
           | ((with_reducible apply Within.after (State.transfer_within ..)); (case hle => decide))
           | ((with_reducible apply Within.after (State.bootFailed_within ..)); (case hle => decide))
           | ((with_reducible apply Within.after (State.bootNext_within ..)); (case hle => decide))
           | with_reducible apply Within.ite
           | split
           | dsimp -zeta only
           | dsimp +zetaDelta only
       clear_value x)
    | intro x
    | lift_lets
    | with_reducible apply Within.ite
    | split
    | dsimp -zeta only
    | dsimp +zetaDelta only

theorem execBootStepPoll_within (s : State) (s' : State)
    (h : execBootStepPoll s = .next s') :
    Within (.allRegs [.free, .tick, .quads, .lanes, .links, .lag, .prot, .core, .act, .latch, .irqs, .log, .pm, .events, .hbm, .boot, .nvm, .mate, .alm, .ecc, .tim, .bus]) s s' := by
  delta execBootStepPoll at h
  injection h with h
  subst h
  repeat' first
    | with_reducible assumption
    | with_reducible apply Within.refl
    | ((with_reducible apply Within.bootStep); (case ht => decide); (case hf => decide); (case hb => decide); (case' hg => intro _ _))
    | ((with_reducible apply Within.after (State.transfer_within ..)); (case hle => decide))
    | ((with_reducible apply Within.after (State.bootFailed_within ..)); (case hle => decide))
    | ((with_reducible apply Within.after (State.bootNext_within ..)); (case hle => decide))
    | (intro x
       have hx : Within (.allRegs [.free, .tick, .quads, .lanes, .links, .lag, .prot, .core, .act, .latch, .irqs, .log, .pm, .events, .hbm, .boot, .nvm, .mate, .alm, .ecc, .tim, .bus]) s x := by
         dsimp -zeta only [x]
         repeat' first
           | with_reducible assumption
           | with_reducible apply Within.refl
           | ((with_reducible apply Within.bootStep); (case ht => decide); (case hf => decide); (case hb => decide); (case' hg => intro _ _))
           | ((with_reducible apply Within.after (State.transfer_within ..)); (case hle => decide))
           | ((with_reducible apply Within.after (State.bootFailed_within ..)); (case hle => decide))
           | ((with_reducible apply Within.after (State.bootNext_within ..)); (case hle => decide))
           | with_reducible apply Within.ite
           | split
           | dsimp -zeta only
           | dsimp +zetaDelta only
       clear_value x)
    | intro x
    | lift_lets
    | with_reducible apply Within.ite
    | split
    | dsimp -zeta only
    | dsimp +zetaDelta only

theorem execBootStepWait_within (s : State) (s' : State)
    (h : execBootStepWait s = .next s') :
    Within (.allRegs [.free, .tick, .quads, .lanes, .links, .lag, .prot, .core, .act, .latch, .irqs, .log, .pm, .events, .hbm, .boot, .nvm, .mate, .alm, .ecc, .tim, .bus]) s s' := by
  delta execBootStepWait at h
  injection h with h
  subst h
  repeat' first
    | with_reducible assumption
    | with_reducible apply Within.refl
    | ((with_reducible apply Within.when); (case' hg => intro _ _))
    | ((with_reducible apply Within.bootStep); (case ht => decide); (case hf => decide); (case hb => decide); (case' hg => intro _ _))
    | ((with_reducible apply Within.after (State.bootNext_within ..)); (case hle => decide))
    | with_reducible apply Within.ite
    | split
    | dsimp -zeta only

theorem execBootStepEnd_within (s : State) (s' : State)
    (h : execBootStepEnd s = .next s') :
    Within (.allRegs [.free, .tick, .quads, .lanes, .links, .lag, .prot, .core, .act, .latch, .irqs, .log, .pm, .events, .hbm, .boot, .nvm, .mate, .alm, .ecc, .tim, .bus]) s s' := by
  delta execBootStepEnd at h
  injection h with h
  subst h
  repeat' first
    | with_reducible assumption
    | with_reducible apply Within.refl
    | ((with_reducible apply Within.bootStep); (case ht => decide); (case hf => decide); (case hb => decide); (case' hg => intro _ _))
    | ((with_reducible apply Within.after (State.bootStop_within ..)); (case hle => decide))
    | ((with_reducible apply Within.after (State.bootFailed_within ..)); (case hle => decide))
    | with_reducible apply Within.ite
    | split
    | dsimp -zeta only

end Sys2Proof.Machine
end

