-- ==== Sys2Proof/Laws/Footprint/Apply.lean ====
section
/-! SUPPORT. What each operation of Machine/Apply.lean may touch. -/

namespace Sys2Proof.Machine

theorem State.groupRecord_within (s : State) (g : Nat) (cmd : Nat) :
    Within (.of [.prot, .act, .latch, .irqs, .log, .pm, .events, .bus] [.protGroupCmd, .protGroupState, .protCmdRefused, .busStatus, .busGrants, .logState, .logEvbEntries, .logDropped, .logEvbLost, .logEntries, .sysIntSrc]) s (State.groupRecord s g cmd) := by
  delta State.groupRecord
  repeat' first
    | with_reducible assumption
    | with_reducible apply Within.refl
    | ((with_reducible apply Within.after (State.setGroup_within ..)); (case hle => decide))
    | ((with_reducible apply Within.after (State.protTake_within ..)); (case hle => decide))
    | with_reducible apply Within.ite
    | split
    | dsimp -zeta only

theorem State.recordDo_within (s : State) (mine : Bool) (r : MirrorRec) :
    Within (.allRegs [.free, .tick, .quads, .lanes, .links, .prot, .core, .act, .latch, .irqs, .log, .pm, .events, .boot, .mate, .alm, .ecc, .tim, .bus]) s (State.recordDo s mine r) := by
  delta State.recordDo
  repeat' first
    | with_reducible assumption
    | with_reducible apply Within.refl
    | ((with_reducible apply Within.after (State.windowDo_within ..)); (case hle => decide))
    | ((with_reducible apply Within.after (State.slotDo_within ..)); (case hle => decide))
    | ((with_reducible apply Within.after (State.armCmdDo_within ..)); (case hle => decide))
    | ((with_reducible apply Within.after (State.auditCtrl_within ..)); (case hle => decide))
    | ((with_reducible apply Within.after (State.groupRecord_within ..)); (case hle => decide))
    | ((with_reducible apply Within.after (State.mateCmdDo_within ..)); (case hle => decide))
    | ((with_reducible apply Within.after (State.trimQueue_within ..)); (case hle => decide))
    | ((with_reducible apply Within.after (State.regPut_within ..)); (case hle => decide))
    | (intro x
       have hx : Within (.allRegs [.free, .tick, .quads, .lanes, .links, .prot, .core, .act, .latch, .irqs, .log, .pm, .events, .boot, .mate, .alm, .ecc, .tim, .bus]) s x := by
         dsimp -zeta only [x]
         repeat' first
           | with_reducible assumption
           | with_reducible apply Within.refl
           | ((with_reducible apply Within.after (State.windowDo_within ..)); (case hle => decide))
           | ((with_reducible apply Within.after (State.slotDo_within ..)); (case hle => decide))
           | ((with_reducible apply Within.after (State.armCmdDo_within ..)); (case hle => decide))
           | ((with_reducible apply Within.after (State.auditCtrl_within ..)); (case hle => decide))
           | ((with_reducible apply Within.after (State.groupRecord_within ..)); (case hle => decide))
           | ((with_reducible apply Within.after (State.mateCmdDo_within ..)); (case hle => decide))
           | ((with_reducible apply Within.after (State.trimQueue_within ..)); (case hle => decide))
           | ((with_reducible apply Within.after (State.regPut_within ..)); (case hle => decide))
           | with_reducible apply Within.ite
           | split
           | dsimp -zeta only
           | dsimp +zetaDelta only
       clear_value x)
    | intro x
    | lift_lets
    | with_reducible apply Within.ite
    | split
    | dsimp -zeta only
    | dsimp +zetaDelta only

theorem State.recordNote_within (s : State) (r : MirrorRec) :
    Within (.of [.mate] [.mateMirrored]) s (State.recordNote s r) := by
  delta State.recordNote
  repeat' first
    | with_reducible assumption
    | with_reducible apply Within.refl
    | ((with_reducible apply Within.count); (case hr => first | decide | exact Foot.allRegs_hasReg _ _ | exact Foot.all_hasReg _ | (subst_vars; decide) | ((try dsimp +zetaDelta only); split <;> first | decide | (split <;> first | decide | (split <;> decide)))))
    | (intro x
       have hx : Within (.of [.mate] [.mateMirrored]) s x := by
         dsimp -zeta only [x]
         repeat' first
           | with_reducible assumption
           | with_reducible apply Within.refl
           | ((with_reducible apply Within.count); (case hr => first | decide | exact Foot.allRegs_hasReg _ _ | exact Foot.all_hasReg _ | (subst_vars; decide) | ((try dsimp +zetaDelta only); split <;> first | decide | (split <;> first | decide | (split <;> decide)))))
           | with_reducible apply Within.ite
           | ((with_reducible apply Within.set_mate); (case hc => decide))
           | split
           | dsimp -zeta only
           | dsimp +zetaDelta only
       clear_value x)
    | intro x
    | lift_lets
    | with_reducible apply Within.ite
    | ((with_reducible apply Within.set_mate); (case hc => decide))
    | split
    | dsimp -zeta only
    | dsimp +zetaDelta only

theorem State.mirrorCycle_within (s : State) (js : List TableJob) (j : Nat) :
    Within (.of [.free, .tick, .core, .act, .latch, .irqs, .log, .pm, .events, .mate, .ecc, .bus] [.coreResvMirror, .almState, .almStageFail, .mateMirrored, .eccStatus, .eccLastUe, .eccTrack, .eccCorr, .eccUe, .eccPoison, .eccTrackFull, .busStatus, .busErrLast, .busErrResp, .busDefault, .busGrants, .logState, .logEvbEntries, .logDropped, .logEvbLost, .logEntries, .sysIntSrc]) s (State.mirrorCycle s js j).2 := by
  delta State.mirrorCycle
  repeat' first
    | with_reducible assumption
    | with_reducible apply Within.refl
    | ((with_reducible apply Within.count); (case hr => first | decide | exact Foot.allRegs_hasReg _ _ | exact Foot.all_hasReg _ | (subst_vars; decide) | ((try dsimp +zetaDelta only); split <;> first | decide | (split <;> first | decide | (split <;> decide)))))
    | ((with_reducible apply Within.each); (case' hg => intro _ _ _))
    | ((with_reducible apply Within.after (State.windowDo_within ..)); (case hle => decide))
    | ((with_reducible apply Within.after (State.recordNote_within ..)); (case hle => decide))
    | (intro x
       have hx : Within (.of [.free, .tick, .core, .act, .latch, .irqs, .log, .pm, .events, .mate, .ecc, .bus] [.coreResvMirror, .almState, .almStageFail, .mateMirrored, .eccStatus, .eccLastUe, .eccTrack, .eccCorr, .eccUe, .eccPoison, .eccTrackFull, .busStatus, .busErrLast, .busErrResp, .busDefault, .busGrants, .logState, .logEvbEntries, .logDropped, .logEvbLost, .logEntries, .sysIntSrc]) s x := by
         dsimp -zeta only [x]
         repeat' first
           | with_reducible assumption
           | with_reducible apply Within.refl
           | ((with_reducible apply Within.count); (case hr => first | decide | exact Foot.allRegs_hasReg _ _ | exact Foot.all_hasReg _ | (subst_vars; decide) | ((try dsimp +zetaDelta only); split <;> first | decide | (split <;> first | decide | (split <;> decide)))))
           | ((with_reducible apply Within.each); (case' hg => intro _ _ _))
           | ((with_reducible apply Within.after (State.windowDo_within ..)); (case hle => decide))
           | ((with_reducible apply Within.after (State.recordNote_within ..)); (case hle => decide))
           | with_reducible apply Within.ite
           | split
           | dsimp -zeta only
           | dsimp +zetaDelta only
       clear_value x)
    | intro x
    | lift_lets
    | with_reducible apply Within.ite
    | split
    | dsimp -zeta only
    | dsimp +zetaDelta only

theorem State.syncSettings_within (s : State) :
    Within (.of [.quads, .lanes, .links, .lag, .prot, .act, .latch, .irqs, .log, .pm, .events, .hbm, .mate, .tim, .bus] [.laneState, .laneTxfir, .lanePrbsCtrl, .laneScanStatus, .laneBringupTry, .linkState, .linkFramesGood, .linkFramesDoubtful, .linkFramesBad, .linkFramesAbsent, .linkPayCrcErr, .linkOofEntry, .lagState, .lagArrLast, .lagArrMax, .lagArrMin, .lagLinkState, .lagLate, .lagMarginLow, .protGroupCmd, .protGroupState, .protCmdRefused, .coreStationDis, .timRefState, .timRefDisq, .mateState, .mateFrameUnusable, .busStatus, .busGrants, .sysFuncState, .sysFuncStarts, .logState, .logEvbEntries, .logDropped, .logEvbLost, .logEntries, .sysIntSrc]) s (State.syncSettings s) := by
  delta State.syncSettings
  repeat' first
    | with_reducible assumption
    | with_reducible apply Within.refl
    | ((with_reducible apply Within.eachN); (case' hg => intro _ _ _))
    | ((with_reducible apply Within.after (State.lagSync_within ..)); (case hle => decide))
    | ((with_reducible apply Within.after (State.mateCfgSync_within ..)); (case hle => decide))
    | ((with_reducible apply Within.after (State.protSync_within ..)); (case hle => decide))
    | ((with_reducible apply Within.after (State.legSync_within ..)); (case hle => decide))
    | ((with_reducible apply Within.after (State.stationSync_within ..)); (case hle => decide))
    | ((with_reducible apply Within.after (State.bridgeSync_within ..)); (case hle => decide))
    | (intro x
       have hx : Within (.of [.quads, .lanes, .links, .lag, .prot, .act, .latch, .irqs, .log, .pm, .events, .hbm, .mate, .tim, .bus] [.laneState, .laneTxfir, .lanePrbsCtrl, .laneScanStatus, .laneBringupTry, .linkState, .linkFramesGood, .linkFramesDoubtful, .linkFramesBad, .linkFramesAbsent, .linkPayCrcErr, .linkOofEntry, .lagState, .lagArrLast, .lagArrMax, .lagArrMin, .lagLinkState, .lagLate, .lagMarginLow, .protGroupCmd, .protGroupState, .protCmdRefused, .coreStationDis, .timRefState, .timRefDisq, .mateState, .mateFrameUnusable, .busStatus, .busGrants, .sysFuncState, .sysFuncStarts, .logState, .logEvbEntries, .logDropped, .logEvbLost, .logEntries, .sysIntSrc]) s x := by
         dsimp -zeta only [x]
         repeat' first
           | with_reducible assumption
           | with_reducible apply Within.refl
           | ((with_reducible apply Within.eachN); (case' hg => intro _ _ _))
           | ((with_reducible apply Within.after (State.lagSync_within ..)); (case hle => decide))
           | ((with_reducible apply Within.after (State.mateCfgSync_within ..)); (case hle => decide))
           | ((with_reducible apply Within.after (State.protSync_within ..)); (case hle => decide))
           | ((with_reducible apply Within.after (State.legSync_within ..)); (case hle => decide))
           | ((with_reducible apply Within.after (State.stationSync_within ..)); (case hle => decide))
           | ((with_reducible apply Within.after (State.bridgeSync_within ..)); (case hle => decide))
           | with_reducible apply Within.ite
           | split
           | dsimp -zeta only
           | dsimp +zetaDelta only
       clear_value x)
    | intro x
    | lift_lets
    | with_reducible apply Within.ite
    | split
    | dsimp -zeta only
    | dsimp +zetaDelta only

theorem State.mirrorTake_within (s : State) :
    Within (.of [.mate] []) s (State.mirrorTake s) := by
  delta State.mirrorTake
  repeat' first
    | with_reducible assumption
    | with_reducible apply Within.refl
    | (intro x
       have hx : Within (.of [.mate] []) s x := by
         dsimp -zeta only [x]
         repeat' first
           | with_reducible assumption
           | with_reducible apply Within.refl
           | with_reducible apply Within.ite
           | ((with_reducible apply Within.set_mate); (case hc => decide))
           | split
           | dsimp -zeta only
           | dsimp +zetaDelta only
       clear_value x)
    | intro x
    | lift_lets
    | with_reducible apply Within.ite
    | ((with_reducible apply Within.set_mate); (case hc => decide))
    | split
    | dsimp -zeta only
    | dsimp +zetaDelta only

theorem State.plainRun_within (l : List (Bool × MirrorRec)) (s : State) : Within (Foot.allRegs [.free, .tick, .quads, .lanes, .links, .prot, .core, .act, .latch, .irqs, .log, .pm, .events, .boot, .mate, .alm, .ecc, .tim, .bus]) s (State.plainRun l s) := by
  fun_induction State.plainRun l s with
  | case1 x y t s h ih =>
    exact .after ih (.after (State.windowDo_within ..) (.after (State.recordNote_within ..) ((State.recordNote_within ..).mono (by decide)) (by decide)) (by decide)) (by decide)
  | case2 x y t s h ih =>
    exact .after ih (.after (State.recordNote_within ..) ((State.recordDo_within ..).mono (by decide)) (by decide)) (by decide)
  | case3 x s => exact .after (State.recordNote_within ..) ((State.recordDo_within ..).mono (by decide)) (by decide)
  | case4 s => exact .refl _ s

theorem State.mirrorPlain_within (s : State) (plain : List (Bool × MirrorRec)) :
    Within (.allRegs [.free, .tick, .quads, .lanes, .links, .lag, .prot, .core, .act, .latch, .irqs, .log, .pm, .events, .hbm, .boot, .mate, .alm, .ecc, .tim, .bus]) s (State.mirrorPlain s plain) := by
  delta State.mirrorPlain
  repeat' first
    | with_reducible assumption
    | with_reducible apply Within.refl
    | ((with_reducible apply Within.after (State.plainRun_within ..)); (case hle => decide))
    | ((with_reducible apply Within.after (State.syncSettings_within ..)); (case hle => decide))
    | (intro x
       have hx : Within (.allRegs [.free, .tick, .quads, .lanes, .links, .lag, .prot, .core, .act, .latch, .irqs, .log, .pm, .events, .hbm, .boot, .mate, .alm, .ecc, .tim, .bus]) s x := by
         dsimp -zeta only [x]
         repeat' first
           | with_reducible assumption
           | with_reducible apply Within.refl
           | ((with_reducible apply Within.after (State.plainRun_within ..)); (case hle => decide))
           | ((with_reducible apply Within.after (State.syncSettings_within ..)); (case hle => decide))
           | with_reducible apply Within.ite
           | split
           | dsimp -zeta only
           | dsimp +zetaDelta only
       clear_value x)
    | intro x
    | lift_lets
    | with_reducible apply Within.ite
    | split
    | dsimp -zeta only
    | dsimp +zetaDelta only

theorem State.mirrorTables_within (s : State) (jobs : List TableJob) :
    Within (.of [.free, .tick, .core, .act, .latch, .irqs, .log, .pm, .events, .mate, .ecc, .bus] [.coreResvMirror, .almState, .almStageFail, .mateMirrored, .eccStatus, .eccLastUe, .eccTrack, .eccCorr, .eccUe, .eccPoison, .eccTrackFull, .busStatus, .busErrLast, .busErrResp, .busDefault, .busGrants, .logState, .logEvbEntries, .logDropped, .logEvbLost, .logEntries, .sysIntSrc]) s (State.mirrorTables s jobs) := by
  unfold State.mirrorTables
  have h := Within.foldl_snd (f := Foot.of [.free, .tick, .core, .act, .latch, .irqs, .log, .pm, .events, .mate, .ecc, .bus] [.coreResvMirror, .almState, .almStageFail, .mateMirrored, .eccStatus, .eccLastUe, .eccTrack, .eccCorr, .eccUe, .eccPoison, .eccTrackFull, .busStatus, .busErrLast, .busErrResp, .busDefault, .busGrants, .logState, .logEvbEntries, .logDropped, .logEvbLost, .logEntries, .sysIntSrc]) mirrorCycles (fun (acc : List TableJob × State) j => acc.2.mirrorCycle acc.1 j) (jobs, s) (.refl _ s)
    fun j acc ha => .after (State.mirrorCycle_within ..) ha (by decide)
  exact Within.set_mate h (by decide)

theorem State.mirrorApply_within (s : State) :
    Within (.allRegs [.free, .tick, .quads, .lanes, .links, .lag, .prot, .core, .act, .latch, .irqs, .log, .pm, .events, .hbm, .boot, .mate, .alm, .ecc, .tim, .bus]) s (State.mirrorApply s) := by
  unfold State.mirrorApply
  exact .after (State.mirrorTables_within ..) (.after (State.mirrorPlain_within ..) ((State.mirrorTake_within ..).mono (by decide)) (by decide)) (by decide)

theorem State.groupTake_within (s : State) (g : Nat) (cmd : Nat) :
    Within (.of [.prot, .act, .latch, .irqs, .log, .pm, .events, .bus] [.protGroupCmd, .protGroupState, .busStatus, .busGrants, .logState, .logEvbEntries, .logDropped, .logEvbLost, .logEntries, .sysIntSrc]) s (State.groupTake s g cmd) := by
  delta State.groupTake
  repeat' first
    | with_reducible assumption
    | with_reducible apply Within.refl
    | ((with_reducible apply Within.wr); (case hr => first | decide | exact Foot.allRegs_hasReg _ _ | exact Foot.all_hasReg _ | (subst_vars; decide) | ((try dsimp +zetaDelta only); split <;> first | decide | (split <;> first | decide | (split <;> decide)))))
    | ((with_reducible apply Within.after (State.protAlarms_within ..)); (case hle => decide))
    | ((with_reducible apply Within.after (State.setGroup_within ..)); (case hle => decide))
    | (intro x
       have hx : Within (.of [.prot, .act, .latch, .irqs, .log, .pm, .events, .bus] [.protGroupCmd, .protGroupState, .busStatus, .busGrants, .logState, .logEvbEntries, .logDropped, .logEvbLost, .logEntries, .sysIntSrc]) s x := by
         dsimp -zeta only [x]
         repeat' first
           | with_reducible assumption
           | with_reducible apply Within.refl
           | ((with_reducible apply Within.wr); (case hr => first | decide | exact Foot.allRegs_hasReg _ _ | exact Foot.all_hasReg _ | (subst_vars; decide) | ((try dsimp +zetaDelta only); split <;> first | decide | (split <;> first | decide | (split <;> decide)))))
           | ((with_reducible apply Within.after (State.protAlarms_within ..)); (case hle => decide))
           | ((with_reducible apply Within.after (State.setGroup_within ..)); (case hle => decide))
           | with_reducible apply Within.ite
           | split
           | dsimp -zeta only
           | dsimp +zetaDelta only
       clear_value x)
    | intro x
    | lift_lets
    | with_reducible apply Within.ite
    | split
    | dsimp -zeta only
    | dsimp +zetaDelta only

theorem State.ringTake_within (s : State) (i : Nat) (v : Nat) :
    Within (.of [.core] []) s (State.ringTake s i v) := by
  delta State.ringTake
  repeat' first
    | with_reducible assumption
    | with_reducible apply Within.refl
    | (intro x
       have hx : Within (.of [.core] []) s x := by
         dsimp -zeta only [x]
         repeat' first
           | with_reducible assumption
           | with_reducible apply Within.refl
           | with_reducible apply Within.ite
           | ((with_reducible apply Within.set_core); (case hc => decide))
           | split
           | dsimp -zeta only
           | dsimp +zetaDelta only
       clear_value x)
    | intro x
    | lift_lets
    | with_reducible apply Within.ite
    | ((with_reducible apply Within.set_core); (case hc => decide))
    | split
    | dsimp -zeta only
    | dsimp +zetaDelta only

theorem State.resyncCount_within (s : State) (r : ResyncRec) :
    Within (.of [] [.mateResync]) s (State.resyncCount s r) := by
  delta State.resyncCount
  repeat' first
    | with_reducible assumption
    | with_reducible apply Within.refl
    | ((with_reducible apply Within.wr); (case hr => first | decide | exact Foot.allRegs_hasReg _ _ | exact Foot.all_hasReg _ | (subst_vars; decide) | ((try dsimp +zetaDelta only); split <;> first | decide | (split <;> first | decide | (split <;> decide)))))
    | (intro x
       have hx : Within (.of [] [.mateResync]) s x := by
         dsimp -zeta only [x]
         repeat' first
           | with_reducible assumption
           | with_reducible apply Within.refl
           | ((with_reducible apply Within.wr); (case hr => first | decide | exact Foot.allRegs_hasReg _ _ | exact Foot.all_hasReg _ | (subst_vars; decide) | ((try dsimp +zetaDelta only); split <;> first | decide | (split <;> first | decide | (split <;> decide)))))
           | with_reducible apply Within.ite
           | split
           | dsimp -zeta only
           | dsimp +zetaDelta only
       clear_value x)
    | intro x
    | lift_lets
    | with_reducible apply Within.ite
    | split
    | dsimp -zeta only
    | dsimp +zetaDelta only

theorem State.resyncPlain_within (s : State) (r : ResyncRec) :
    Within (.allRegs [.free, .quads, .lanes, .links, .prot, .core, .act, .latch, .irqs, .log, .pm, .events, .boot, .tim, .bus]) s (State.resyncPlain s r) := by
  delta State.resyncPlain
  repeat' first
    | with_reducible assumption
    | with_reducible apply Within.refl
    | ((with_reducible apply Within.after (State.resyncCount_within ..)); (case hle => decide))
    | ((with_reducible apply Within.after (State.groupTake_within ..)); (case hle => decide))
    | ((with_reducible apply Within.after (State.regPut_within ..)); (case hle => decide))
    | ((with_reducible apply Within.after (State.ringTake_within ..)); (case hle => decide))
    | (intro x
       have hx : Within (.allRegs [.free, .quads, .lanes, .links, .prot, .core, .act, .latch, .irqs, .log, .pm, .events, .boot, .tim, .bus]) s x := by
         dsimp -zeta only [x]
         repeat' first
           | with_reducible assumption
           | with_reducible apply Within.refl
           | ((with_reducible apply Within.after (State.resyncCount_within ..)); (case hle => decide))
           | ((with_reducible apply Within.after (State.groupTake_within ..)); (case hle => decide))
           | ((with_reducible apply Within.after (State.regPut_within ..)); (case hle => decide))
           | ((with_reducible apply Within.after (State.ringTake_within ..)); (case hle => decide))
           | with_reducible apply Within.ite
           | split
           | dsimp -zeta only
           | dsimp +zetaDelta only
       clear_value x)
    | intro x
    | lift_lets
    | with_reducible apply Within.ite
    | split
    | dsimp -zeta only
    | dsimp +zetaDelta only

theorem State.resyncTable_within (s : State) (j : Nat) (r : ResyncRec) :
    Within (.of [.free, .tick, .core, .act, .latch, .irqs, .log, .pm, .events, .ecc, .bus] [.almState, .almStageFail, .mateResync, .eccStatus, .eccLastUe, .eccTrack, .eccCorr, .eccUe, .eccPoison, .eccTrackFull, .busStatus, .busErrLast, .busErrResp, .busDefault, .busGrants, .logState, .logEvbEntries, .logDropped, .logEvbLost, .logEntries, .sysIntSrc]) s (State.resyncTable s j r) := by
  delta State.resyncTable
  repeat' first
    | with_reducible assumption
    | with_reducible apply Within.refl
    | ((with_reducible apply Within.after (State.resyncCount_within ..)); (case hle => decide))
    | ((with_reducible apply Within.after (State.windowDo_within ..)); (case hle => decide))
    | (intro x
       have hx : Within (.of [.free, .tick, .core, .act, .latch, .irqs, .log, .pm, .events, .ecc, .bus] [.almState, .almStageFail, .mateResync, .eccStatus, .eccLastUe, .eccTrack, .eccCorr, .eccUe, .eccPoison, .eccTrackFull, .busStatus, .busErrLast, .busErrResp, .busDefault, .busGrants, .logState, .logEvbEntries, .logDropped, .logEvbLost, .logEntries, .sysIntSrc]) s x := by
         dsimp -zeta only [x]
         repeat' first
           | with_reducible assumption
           | with_reducible apply Within.refl
           | ((with_reducible apply Within.after (State.resyncCount_within ..)); (case hle => decide))
           | ((with_reducible apply Within.after (State.windowDo_within ..)); (case hle => decide))
           | with_reducible apply Within.ite
           | split
           | dsimp -zeta only
           | dsimp +zetaDelta only
       clear_value x)
    | intro x
    | lift_lets
    | with_reducible apply Within.ite
    | split
    | dsimp -zeta only
    | dsimp +zetaDelta only

theorem State.resyncCycle_within (s : State) (rs : List ResyncRec) (j : Nat) :
    Within (.of [.free, .tick, .core, .act, .latch, .irqs, .log, .pm, .events, .mate, .ecc, .bus] [.coreResvCtrl, .almState, .almStageFail, .mateResync, .eccStatus, .eccLastUe, .eccTrack, .eccCorr, .eccUe, .eccPoison, .eccTrackFull, .busStatus, .busErrLast, .busErrResp, .busDefault, .busGrants, .logState, .logEvbEntries, .logDropped, .logEvbLost, .logEntries, .sysIntSrc]) s (State.resyncCycle s rs j).2 := by
  delta State.resyncCycle
  repeat' first
    | with_reducible assumption
    | with_reducible apply Within.refl
    | ((with_reducible apply Within.each); (case' hg => intro _ _ _))
    | ((with_reducible apply Within.after (State.ctrlCycle_within ..)); (case hle => decide))
    | ((with_reducible apply Within.after (State.resyncTable_within ..)); (case hle => decide))
    | (intro x
       have hx : Within (.of [.free, .tick, .core, .act, .latch, .irqs, .log, .pm, .events, .mate, .ecc, .bus] [.coreResvCtrl, .almState, .almStageFail, .mateResync, .eccStatus, .eccLastUe, .eccTrack, .eccCorr, .eccUe, .eccPoison, .eccTrackFull, .busStatus, .busErrLast, .busErrResp, .busDefault, .busGrants, .logState, .logEvbEntries, .logDropped, .logEvbLost, .logEntries, .sysIntSrc]) s x := by
         dsimp -zeta only [x]
         repeat' first
           | with_reducible assumption
           | with_reducible apply Within.refl
           | ((with_reducible apply Within.each); (case' hg => intro _ _ _))
           | ((with_reducible apply Within.after (State.ctrlCycle_within ..)); (case hle => decide))
           | ((with_reducible apply Within.after (State.resyncTable_within ..)); (case hle => decide))
           | with_reducible apply Within.ite
           | split
           | dsimp -zeta only
           | dsimp +zetaDelta only
           | ((with_reducible apply Within.set_mate); (case hc => decide))
       clear_value x)
    | intro x
    | lift_lets
    | with_reducible apply Within.ite
    | split
    | dsimp -zeta only
    | dsimp +zetaDelta only
    | ((with_reducible apply Within.set_mate); (case hc => decide))

theorem State.resyncCheck_within (s : State) :
    Within (.of [.act, .irqs, .log, .pm, .events, .mate, .bus] [.mateState, .mateResync, .busStatus, .busGrants, .logState, .logEvbEntries, .logDropped, .logEvbLost, .logEntries, .sysIntSrc]) s (State.resyncCheck s) := by
  delta State.resyncCheck
  repeat' first
    | with_reducible assumption
    | with_reducible apply Within.refl
    | ((with_reducible apply Within.wr); (case hr => first | decide | exact Foot.allRegs_hasReg _ _ | exact Foot.all_hasReg _ | (subst_vars; decide) | ((try dsimp +zetaDelta only); split <;> first | decide | (split <;> first | decide | (split <;> decide)))))
    | ((with_reducible apply Within.after (State.syncDone_within ..)); (case hle => decide))
    | (intro x
       have hx : Within (.of [.act, .irqs, .log, .pm, .events, .mate, .bus] [.mateState, .mateResync, .busStatus, .busGrants, .logState, .logEvbEntries, .logDropped, .logEvbLost, .logEntries, .sysIntSrc]) s x := by
         dsimp -zeta only [x]
         repeat' first
           | with_reducible assumption
           | with_reducible apply Within.refl
           | ((with_reducible apply Within.wr); (case hr => first | decide | exact Foot.allRegs_hasReg _ _ | exact Foot.all_hasReg _ | (subst_vars; decide) | ((try dsimp +zetaDelta only); split <;> first | decide | (split <;> first | decide | (split <;> decide)))))
           | ((with_reducible apply Within.after (State.syncDone_within ..)); (case hle => decide))
           | with_reducible apply Within.ite
           | split
           | dsimp -zeta only
           | dsimp +zetaDelta only
       clear_value x)
    | intro x
    | lift_lets
    | with_reducible apply Within.ite
    | split
    | dsimp -zeta only
    | dsimp +zetaDelta only

theorem State.resyncApply_within (s : State) :
    Within (.allRegs [.free, .tick, .quads, .lanes, .links, .lag, .prot, .core, .act, .latch, .irqs, .log, .pm, .events, .hbm, .boot, .mate, .ecc, .tim, .bus]) s (State.resyncApply s) := by
  delta State.resyncApply
  repeat' first
    | with_reducible assumption
    | with_reducible apply Within.refl
    | ((with_reducible apply Within.foldl_snd); (case' hg => intro _ _ _))
    | ((with_reducible apply Within.foldl); (case' hg => intro _ _ _))
    | ((with_reducible apply Within.each); (case' hg => intro _ _ _))
    | ((with_reducible apply Within.after (State.resyncPlain_within ..)); (case hle => decide))
    | ((with_reducible apply Within.after (State.syncSettings_within ..)); (case hle => decide))
    | ((with_reducible apply Within.after (State.resyncCycle_within ..)); (case hle => decide))
    | ((with_reducible apply Within.after (Within.of_eq (State.resyncCycle_within ..) ?e)); (case e => assumption); (case hle => decide))
    | ((with_reducible apply Within.after (State.resyncCheck_within ..)); (case hle => decide))
    | (intro x
       have hx : Within (.allRegs [.free, .tick, .quads, .lanes, .links, .lag, .prot, .core, .act, .latch, .irqs, .log, .pm, .events, .hbm, .boot, .mate, .ecc, .tim, .bus]) s x := by
         dsimp -zeta only [x]
         repeat' first
           | with_reducible assumption
           | with_reducible apply Within.refl
           | ((with_reducible apply Within.foldl_snd); (case' hg => intro _ _ _))
           | ((with_reducible apply Within.foldl); (case' hg => intro _ _ _))
           | ((with_reducible apply Within.each); (case' hg => intro _ _ _))
           | ((with_reducible apply Within.after (State.resyncPlain_within ..)); (case hle => decide))
           | ((with_reducible apply Within.after (State.syncSettings_within ..)); (case hle => decide))
           | ((with_reducible apply Within.after (State.resyncCycle_within ..)); (case hle => decide))
           | ((with_reducible apply Within.after (Within.of_eq (State.resyncCycle_within ..) ?e)); (case e => assumption); (case hle => decide))
           | ((with_reducible apply Within.after (State.resyncCheck_within ..)); (case hle => decide))
           | with_reducible apply Within.ite
           | split
           | dsimp -zeta only
           | dsimp +zetaDelta only
           | ((with_reducible apply Within.set_mate); (case hc => decide))
       clear_value x)
    | intro x
    | lift_lets
    | with_reducible apply Within.ite
    | split
    | dsimp -zeta only
    | dsimp +zetaDelta only
    | ((with_reducible apply Within.set_mate); (case hc => decide))

theorem execMirrorApply_within (s : State) (s' : State)
    (h : execMirrorApply s = .next s') :
    Within (.allRegs [.free, .tick, .quads, .lanes, .links, .lag, .prot, .core, .act, .latch, .irqs, .log, .pm, .events, .hbm, .boot, .mate, .alm, .ecc, .tim, .bus]) s s' := by
  delta execMirrorApply at h
  injection h with h
  subst h
  repeat' first
    | with_reducible assumption
    | with_reducible apply Within.refl
    | ((with_reducible apply Within.when); (case' hg => intro _ _))
    | ((with_reducible apply Within.after (State.mirrorApply_within ..)); (case hle => decide))
    | with_reducible apply Within.ite
    | split
    | dsimp -zeta only

theorem execResyncRecordApply_within (s : State) (s' : State)
    (h : execResyncRecordApply s = .next s') :
    Within (.allRegs [.free, .tick, .quads, .lanes, .links, .lag, .prot, .core, .act, .latch, .irqs, .log, .pm, .events, .hbm, .boot, .mate, .ecc, .tim, .bus]) s s' := by
  delta execResyncRecordApply at h
  injection h with h
  subst h
  repeat' first
    | with_reducible assumption
    | with_reducible apply Within.refl
    | ((with_reducible apply Within.when); (case' hg => intro _ _))
    | ((with_reducible apply Within.after (State.resyncApply_within ..)); (case hle => decide))
    | with_reducible apply Within.ite
    | split
    | dsimp -zeta only

end Sys2Proof.Machine
end

