-- ==== Sys2Proof/Laws/Footprint/Tick.lean ====
section
/-! SUPPORT. What each operation of Machine/Tick.lean may touch. -/

namespace Sys2Proof.Machine

theorem State.measured_within (s : State) (e : TickEnv) :
    Within (.of [.quads, .lanes, .links, .lag, .act, .latch, .irqs, .log, .pm, .events, .hbm, .mate, .ecc, .tim, .bus] [.laneState, .laneTxfir, .lanePrbsCtrl, .laneScanStatus, .laneBringupTry, .laneUpLoss, .linkState, .linkFramesGood, .linkFramesDoubtful, .linkFramesBad, .linkFramesAbsent, .linkPayCrcErr, .linkOofEntry, .lagArrLast, .lagArrMax, .lagArrMin, .lagLinkState, .lagLate, .lagMarginLow, .timRefState, .timRefDisq, .mateFrameUnusable, .hbmCe, .busStatus, .busGrants, .logState, .logEvbEntries, .logDropped, .logEvbLost, .logEntries, .sysIntSrc]) s (State.measured s e) := by
  delta State.measured
  repeat' first
    | with_reducible assumption
    | with_reducible apply Within.refl
    | ((with_reducible apply Within.each); (case' hg => intro _ _ _))
    | ((with_reducible apply Within.after (State.signalBack_within ..)); (case hle => decide))
    | ((with_reducible apply Within.after (State.clockSignal_within ..)); (case hle => decide))
    | ((with_reducible apply Within.after (State.meterMax_within ..)); (case hle => decide))
    | ((with_reducible apply Within.after (State.hbmCorrected_within ..)); (case hle => decide))
    | (intro x
       have hx : Within (.of [.quads, .lanes, .links, .lag, .act, .latch, .irqs, .log, .pm, .events, .hbm, .mate, .ecc, .tim, .bus] [.laneState, .laneTxfir, .lanePrbsCtrl, .laneScanStatus, .laneBringupTry, .laneUpLoss, .linkState, .linkFramesGood, .linkFramesDoubtful, .linkFramesBad, .linkFramesAbsent, .linkPayCrcErr, .linkOofEntry, .lagArrLast, .lagArrMax, .lagArrMin, .lagLinkState, .lagLate, .lagMarginLow, .timRefState, .timRefDisq, .mateFrameUnusable, .hbmCe, .busStatus, .busGrants, .logState, .logEvbEntries, .logDropped, .logEvbLost, .logEntries, .sysIntSrc]) s x := by
         dsimp -zeta only [x]
         repeat' first
           | with_reducible assumption
           | with_reducible apply Within.refl
           | ((with_reducible apply Within.each); (case' hg => intro _ _ _))
           | ((with_reducible apply Within.after (State.signalBack_within ..)); (case hle => decide))
           | ((with_reducible apply Within.after (State.clockSignal_within ..)); (case hle => decide))
           | ((with_reducible apply Within.after (State.meterMax_within ..)); (case hle => decide))
           | ((with_reducible apply Within.after (State.hbmCorrected_within ..)); (case hle => decide))
           | with_reducible apply Within.ite
           | ((with_reducible apply Within.set_ecc); (case hc => decide))
           | split
           | dsimp -zeta only
           | dsimp +zetaDelta only
       clear_value x)
    | intro x
    | lift_lets
    | with_reducible apply Within.ite
    | ((with_reducible apply Within.set_ecc); (case hc => decide))
    | split
    | dsimp -zeta only
    | dsimp +zetaDelta only

theorem State.drained_within (s : State) (d : Drain) :
    Within (.of [.free, .tick, .links, .lag, .act, .latch, .irqs, .log, .pm, .events, .ecc, .bus] [.eccStatus, .eccLastUe, .eccTrack, .eccCorr, .eccUe, .eccTrackFull, .busStatus, .busErrLast, .busErrResp, .busDefault, .busGrants, .logState, .logEvbEntries, .logDropped, .logEvbLost, .logEntries, .sysIntSrc]) s (State.drained s d) := by
  delta State.drained
  repeat' first
    | with_reducible assumption
    | with_reducible apply Within.refl
    | ((with_reducible apply Within.count); (case hr => first | decide | exact Foot.allRegs_hasReg _ _ | exact Foot.all_hasReg _ | (subst_vars; decide) | ((try dsimp +zetaDelta only); split <;> first | decide | (split <;> first | decide | (split <;> decide)))))
    | ((with_reducible apply Within.after (State.trackCount_within ..)); (case hle => decide))
    | ((with_reducible apply Within.after (State.pageSpoil_within ..)); (case hle => decide))
    | ((with_reducible apply Within.after (State.ueSeen_within ..)); (case hle => decide))
    | ((with_reducible apply Within.after (State.setTx_within ..)); (case hle => decide))
    | ((with_reducible apply Within.after (State.refuse_within ..)); (case hle => decide))
    | (intro x
       have hx : Within (.of [.free, .tick, .links, .lag, .act, .latch, .irqs, .log, .pm, .events, .ecc, .bus] [.eccStatus, .eccLastUe, .eccTrack, .eccCorr, .eccUe, .eccTrackFull, .busStatus, .busErrLast, .busErrResp, .busDefault, .busGrants, .logState, .logEvbEntries, .logDropped, .logEvbLost, .logEntries, .sysIntSrc]) s x := by
         dsimp -zeta only [x]
         repeat' first
           | with_reducible assumption
           | with_reducible apply Within.refl
           | ((with_reducible apply Within.count); (case hr => first | decide | exact Foot.allRegs_hasReg _ _ | exact Foot.all_hasReg _ | (subst_vars; decide) | ((try dsimp +zetaDelta only); split <;> first | decide | (split <;> first | decide | (split <;> decide)))))
           | ((with_reducible apply Within.after (State.trackCount_within ..)); (case hle => decide))
           | ((with_reducible apply Within.after (State.pageSpoil_within ..)); (case hle => decide))
           | ((with_reducible apply Within.after (State.ueSeen_within ..)); (case hle => decide))
           | ((with_reducible apply Within.after (State.setTx_within ..)); (case hle => decide))
           | ((with_reducible apply Within.after (State.refuse_within ..)); (case hle => decide))
           | with_reducible apply Within.ite
           | split
           | dsimp -zeta only
           | dsimp +zetaDelta only
           | ((with_reducible apply Within.set_log); (case hc => decide))
           | ((with_reducible apply Within.set_bus); (case hc => decide))
       clear_value x)
    | intro x
    | lift_lets
    | with_reducible apply Within.ite
    | split
    | dsimp -zeta only
    | dsimp +zetaDelta only
    | ((with_reducible apply Within.set_log); (case hc => decide))
    | ((with_reducible apply Within.set_bus); (case hc => decide))

theorem State.tickEnd_within (s : State) (e : TickEnv) :
    Within (.of [.free, .tick, .quads, .lanes, .links, .lag, .prot, .core, .act, .latch, .irqs, .log, .pm, .events, .hbm, .stuck, .mate, .ecc, .tim, .bus] [.laneState, .laneTxfir, .lanePrbsCtrl, .laneScanStatus, .laneBringupTry, .laneUpLoss, .linkState, .linkFramesGood, .linkFramesDoubtful, .linkFramesBad, .linkFramesAbsent, .linkPayCrcErr, .linkOofEntry, .lagArrLast, .lagArrMax, .lagArrMin, .lagLinkState, .lagReadLate, .lagPageFail, .lagReleased, .lagMissing, .lagLate, .lagPageBad, .lagMarginLow, .protGroupState, .protSelP, .protSelS, .protSwitch, .protNoGood, .protBothAbsent, .protDiffer, .coreStatus, .coreSlack, .coreTapData, .coreTapTick, .coreOverrunSlots, .coreClashReads, .corePostClash, .coreResvCtrl, .coreResvScrub, .coreResvTest, .coreResvAudit, .coreTicks, .almState, .almStageFail, .timRefState, .timRefDisq, .mateFrameUnusable, .eccStatus, .eccLastUe, .eccTestStatus, .eccScrubStatus, .eccScrubSum, .eccScrubUe, .eccTrack, .eccCorr, .eccUe, .eccPoison, .eccTestFail, .eccTrackFull, .eccSumPoisonAll, .hbmCand, .hbmCe, .hbmUe, .busStatus, .busErrLast, .busErrResp, .busDefault, .busGrants, .pmLinkState, .pmGroupState, .pmMateState, .logState, .logEvbEntries, .logDropped, .logEvbLost, .logEntries, .sysIntSrc]) s (State.tickEnd s e) := by
  delta State.tickEnd
  repeat' first
    | with_reducible assumption
    | with_reducible apply Within.refl
    | ((with_reducible apply Within.countBy); (case hr => first | decide | exact Foot.allRegs_hasReg _ _ | exact Foot.all_hasReg _ | (subst_vars; decide) | ((try dsimp +zetaDelta only); split <;> first | decide | (split <;> first | decide | (split <;> decide)))))
    | ((with_reducible apply Within.each); (case' hg => intro _ _ _))
    | ((with_reducible apply Within.eachN); (case' hg => intro _ _ _))
    | ((with_reducible apply Within.after (State.sumClear_within ..)); (case hle => decide))
    | ((with_reducible apply Within.after (State.cellStuck_within ..)); (case hle => decide))
    | ((with_reducible apply Within.after (State.upset_within ..)); (case hle => decide))
    | ((with_reducible apply Within.after (State.coreTick_within ..)); (case hle => decide))
    | ((with_reducible apply Within.after (State.testTick_within ..)); (case hle => decide))
    | ((with_reducible apply Within.after (State.drained_within ..)); (case hle => decide))
    | ((with_reducible apply Within.after (State.scrubCount_within ..)); (case hle => decide))
    | ((with_reducible apply Within.after (State.scrubTick_within ..)); (case hle => decide))
    | ((with_reducible apply Within.after (State.coreAlarms_within ..)); (case hle => decide))
    | ((with_reducible apply Within.after (State.measured_within ..)); (case hle => decide))
    | ((with_reducible apply Within.after (State.adaptTick_within ..)); (case hle => decide))
    | ((with_reducible apply Within.after (State.protNotes_within ..)); (case hle => decide))
    | ((with_reducible apply Within.after (State.pmTick_within ..)); (case hle => decide))
    | ((with_reducible apply Within.after (State.defectEdge_within ..)); (case hle => decide))
    | (intro x
       have hx : Within (.of [.free, .tick, .quads, .lanes, .links, .lag, .prot, .core, .act, .latch, .irqs, .log, .pm, .events, .hbm, .stuck, .mate, .ecc, .tim, .bus] [.laneState, .laneTxfir, .lanePrbsCtrl, .laneScanStatus, .laneBringupTry, .laneUpLoss, .linkState, .linkFramesGood, .linkFramesDoubtful, .linkFramesBad, .linkFramesAbsent, .linkPayCrcErr, .linkOofEntry, .lagArrLast, .lagArrMax, .lagArrMin, .lagLinkState, .lagReadLate, .lagPageFail, .lagReleased, .lagMissing, .lagLate, .lagPageBad, .lagMarginLow, .protGroupState, .protSelP, .protSelS, .protSwitch, .protNoGood, .protBothAbsent, .protDiffer, .coreStatus, .coreSlack, .coreTapData, .coreTapTick, .coreOverrunSlots, .coreClashReads, .corePostClash, .coreResvCtrl, .coreResvScrub, .coreResvTest, .coreResvAudit, .coreTicks, .almState, .almStageFail, .timRefState, .timRefDisq, .mateFrameUnusable, .eccStatus, .eccLastUe, .eccTestStatus, .eccScrubStatus, .eccScrubSum, .eccScrubUe, .eccTrack, .eccCorr, .eccUe, .eccPoison, .eccTestFail, .eccTrackFull, .eccSumPoisonAll, .hbmCand, .hbmCe, .hbmUe, .busStatus, .busErrLast, .busErrResp, .busDefault, .busGrants, .pmLinkState, .pmGroupState, .pmMateState, .logState, .logEvbEntries, .logDropped, .logEvbLost, .logEntries, .sysIntSrc]) s x := by
         dsimp -zeta only [x]
         repeat' first
           | with_reducible assumption
           | with_reducible apply Within.refl
           | ((with_reducible apply Within.countBy); (case hr => first | decide | exact Foot.allRegs_hasReg _ _ | exact Foot.all_hasReg _ | (subst_vars; decide) | ((try dsimp +zetaDelta only); split <;> first | decide | (split <;> first | decide | (split <;> decide)))))
           | ((with_reducible apply Within.each); (case' hg => intro _ _ _))
           | ((with_reducible apply Within.eachN); (case' hg => intro _ _ _))
           | ((with_reducible apply Within.after (State.sumClear_within ..)); (case hle => decide))
           | ((with_reducible apply Within.after (State.cellStuck_within ..)); (case hle => decide))
           | ((with_reducible apply Within.after (State.upset_within ..)); (case hle => decide))
           | ((with_reducible apply Within.after (State.coreTick_within ..)); (case hle => decide))
           | ((with_reducible apply Within.after (State.testTick_within ..)); (case hle => decide))
           | ((with_reducible apply Within.after (State.drained_within ..)); (case hle => decide))
           | ((with_reducible apply Within.after (State.scrubCount_within ..)); (case hle => decide))
           | ((with_reducible apply Within.after (State.scrubTick_within ..)); (case hle => decide))
           | ((with_reducible apply Within.after (State.coreAlarms_within ..)); (case hle => decide))
           | ((with_reducible apply Within.after (State.measured_within ..)); (case hle => decide))
           | ((with_reducible apply Within.after (State.adaptTick_within ..)); (case hle => decide))
           | ((with_reducible apply Within.after (State.protNotes_within ..)); (case hle => decide))
           | ((with_reducible apply Within.after (State.pmTick_within ..)); (case hle => decide))
           | ((with_reducible apply Within.after (State.defectEdge_within ..)); (case hle => decide))
           | with_reducible apply Within.ite
           | ((with_reducible apply Within.set_ecc); (case hc => decide))
           | split
           | dsimp -zeta only
           | dsimp +zetaDelta only
       clear_value x)
    | intro x
    | lift_lets
    | with_reducible apply Within.ite
    | ((with_reducible apply Within.set_ecc); (case hc => decide))
    | split
    | dsimp -zeta only
    | dsimp +zetaDelta only

theorem State.edgeSettings_within (s : State) :
    Within (.of [.quads, .lanes, .links, .lag, .prot, .act, .latch, .irqs, .log, .pm, .events, .hbm, .mate, .tim, .bus] [.laneState, .laneTxfir, .lanePrbsCtrl, .laneScanStatus, .laneBringupTry, .linkState, .linkFramesGood, .linkFramesDoubtful, .linkFramesBad, .linkFramesAbsent, .linkPayCrcErr, .linkOofEntry, .lagState, .lagArrLast, .lagArrMax, .lagArrMin, .lagLinkState, .lagLate, .lagMarginLow, .protGroupCmd, .protGroupState, .protCmdRefused, .coreStationDis, .timRefState, .timRefDisq, .mateState, .mateFrameUnusable, .busStatus, .busGrants, .sysFuncState, .sysFuncStarts, .logState, .logEvbEntries, .logDropped, .logEvbLost, .logEntries, .sysIntSrc]) s (State.edgeSettings s) := by
  delta State.edgeSettings
  repeat' first
    | with_reducible assumption
    | with_reducible apply Within.refl
    | ((with_reducible apply Within.after (State.syncSettings_within ..)); (case hle => decide))
    | with_reducible apply Within.ite
    | split
    | dsimp -zeta only

theorem State.edgeLinks_within (s : State) :
    Within (.of [.quads, .lanes, .links, .lag, .act, .latch, .irqs, .log, .pm, .events, .hbm, .mate, .tim, .bus] [.laneState, .laneTxfir, .lanePrbsCtrl, .laneScanStatus, .laneBringupTry, .linkState, .linkFramesGood, .linkFramesDoubtful, .linkFramesBad, .linkFramesAbsent, .linkPayCrcErr, .linkOofEntry, .lagArrLast, .lagArrMax, .lagArrMin, .lagLinkState, .lagLate, .lagMarginLow, .timRefState, .timRefDisq, .mateFrameUnusable, .busStatus, .busGrants, .logState, .logEvbEntries, .logDropped, .logEvbLost, .logEntries, .sysIntSrc]) s (State.edgeLinks s) := by
  delta State.edgeLinks
  repeat' first
    | with_reducible assumption
    | with_reducible apply Within.refl
    | ((with_reducible apply Within.eachN); (case' hg => intro _ _ _))
    | ((with_reducible apply Within.after (State.quadEdge_within ..)); (case hle => decide))
    | ((with_reducible apply Within.after (State.txEdge_within ..)); (case hle => decide))
    | ((with_reducible apply Within.after (State.absentEdge_within ..)); (case hle => decide))
    | (intro x
       have hx : Within (.of [.quads, .lanes, .links, .lag, .act, .latch, .irqs, .log, .pm, .events, .hbm, .mate, .tim, .bus] [.laneState, .laneTxfir, .lanePrbsCtrl, .laneScanStatus, .laneBringupTry, .linkState, .linkFramesGood, .linkFramesDoubtful, .linkFramesBad, .linkFramesAbsent, .linkPayCrcErr, .linkOofEntry, .lagArrLast, .lagArrMax, .lagArrMin, .lagLinkState, .lagLate, .lagMarginLow, .timRefState, .timRefDisq, .mateFrameUnusable, .busStatus, .busGrants, .logState, .logEvbEntries, .logDropped, .logEvbLost, .logEntries, .sysIntSrc]) s x := by
         dsimp -zeta only [x]
         repeat' first
           | with_reducible assumption
           | with_reducible apply Within.refl
           | ((with_reducible apply Within.eachN); (case' hg => intro _ _ _))
           | ((with_reducible apply Within.after (State.quadEdge_within ..)); (case hle => decide))
           | ((with_reducible apply Within.after (State.txEdge_within ..)); (case hle => decide))
           | ((with_reducible apply Within.after (State.absentEdge_within ..)); (case hle => decide))
           | with_reducible apply Within.ite
           | split
           | dsimp -zeta only
           | dsimp +zetaDelta only
       clear_value x)
    | intro x
    | lift_lets
    | with_reducible apply Within.ite
    | split
    | dsimp -zeta only
    | dsimp +zetaDelta only

theorem State.tickBegin_within (s : State) (v : Nat) (events : List Nat) (freq : List (Nat × Int)) :
    Within (.of [.free, .tick, .quads, .lanes, .links, .lag, .prot, .act, .latch, .irqs, .log, .pm, .events, .hbm, .mate, .ecc, .tim, .bus] [.laneState, .laneTxfir, .lanePrbsCtrl, .laneScanStatus, .laneBringupTry, .linkState, .linkFramesGood, .linkFramesDoubtful, .linkFramesBad, .linkFramesAbsent, .linkPayCrcErr, .linkOofEntry, .lagState, .lagArrLast, .lagArrMax, .lagArrMin, .lagLinkState, .lagLate, .lagMarginLow, .protGroupCmd, .protGroupState, .protCmdRefused, .coreStationDis, .almState, .almArmDis, .almStageFail, .timState, .timRefState, .timPhase, .timDco, .timHold, .timSwitches, .timHoldoverEntry, .timFreerunEntry, .timDisputes, .timDcoClamp, .timRefDisq, .mateState, .mateResync, .mateWatchLost, .mateFrameUnusable, .mateResyncs, .eccStatus, .eccLastUe, .eccTrack, .eccCorr, .eccUe, .eccPoison, .eccTrackFull, .busStatus, .busGrants, .sysFuncState, .sysFuncStarts, .pmSnapshots, .pmSnapSkipped, .logState, .logEvbEntries, .logDropped, .logEvbLost, .logEntries, .sysIntSrc]) s (State.tickBegin s v events freq) := by
  delta State.tickBegin
  repeat' first
    | with_reducible assumption
    | with_reducible apply Within.refl
    | ((with_reducible apply Within.wr); (case hr => first | decide | exact Foot.allRegs_hasReg _ _ | exact Foot.all_hasReg _ | (subst_vars; decide) | ((try dsimp +zetaDelta only); split <;> first | decide | (split <;> first | decide | (split <;> decide)))))
    | ((with_reducible apply Within.after (State.mateEdge_within ..)); (case hle => decide))
    | ((with_reducible apply Within.after (State.timEdge_within ..)); (case hle => decide))
    | ((with_reducible apply Within.after (State.edgeSettings_within ..)); (case hle => decide))
    | ((with_reducible apply Within.after (State.sdWindowEdge_within ..)); (case hle => decide))
    | ((with_reducible apply Within.after (State.restoreEdge_within ..)); (case hle => decide))
    | ((with_reducible apply Within.after (State.pmEdge_within ..)); (case hle => decide))
    | ((with_reducible apply Within.after (State.edgeLinks_within ..)); (case hle => decide))
    | ((with_reducible apply Within.after (State.armIdle_within ..)); (case hle => decide))
    | (intro x
       have hx : Within (.of [.free, .tick, .quads, .lanes, .links, .lag, .prot, .act, .latch, .irqs, .log, .pm, .events, .hbm, .mate, .ecc, .tim, .bus] [.laneState, .laneTxfir, .lanePrbsCtrl, .laneScanStatus, .laneBringupTry, .linkState, .linkFramesGood, .linkFramesDoubtful, .linkFramesBad, .linkFramesAbsent, .linkPayCrcErr, .linkOofEntry, .lagState, .lagArrLast, .lagArrMax, .lagArrMin, .lagLinkState, .lagLate, .lagMarginLow, .protGroupCmd, .protGroupState, .protCmdRefused, .coreStationDis, .almState, .almArmDis, .almStageFail, .timState, .timRefState, .timPhase, .timDco, .timHold, .timSwitches, .timHoldoverEntry, .timFreerunEntry, .timDisputes, .timDcoClamp, .timRefDisq, .mateState, .mateResync, .mateWatchLost, .mateFrameUnusable, .mateResyncs, .eccStatus, .eccLastUe, .eccTrack, .eccCorr, .eccUe, .eccPoison, .eccTrackFull, .busStatus, .busGrants, .sysFuncState, .sysFuncStarts, .pmSnapshots, .pmSnapSkipped, .logState, .logEvbEntries, .logDropped, .logEvbLost, .logEntries, .sysIntSrc]) s x := by
         dsimp -zeta only [x]
         repeat' first
           | with_reducible assumption
           | with_reducible apply Within.refl
           | ((with_reducible apply Within.wr); (case hr => first | decide | exact Foot.allRegs_hasReg _ _ | exact Foot.all_hasReg _ | (subst_vars; decide) | ((try dsimp +zetaDelta only); split <;> first | decide | (split <;> first | decide | (split <;> decide)))))
           | ((with_reducible apply Within.after (State.mateEdge_within ..)); (case hle => decide))
           | ((with_reducible apply Within.after (State.timEdge_within ..)); (case hle => decide))
           | ((with_reducible apply Within.after (State.edgeSettings_within ..)); (case hle => decide))
           | ((with_reducible apply Within.after (State.sdWindowEdge_within ..)); (case hle => decide))
           | ((with_reducible apply Within.after (State.restoreEdge_within ..)); (case hle => decide))
           | ((with_reducible apply Within.after (State.pmEdge_within ..)); (case hle => decide))
           | ((with_reducible apply Within.after (State.edgeLinks_within ..)); (case hle => decide))
           | ((with_reducible apply Within.after (State.armIdle_within ..)); (case hle => decide))
           | with_reducible apply Within.ite
           | split
           | dsimp -zeta only
           | dsimp +zetaDelta only
       clear_value x)
    | intro x
    | lift_lets
    | with_reducible apply Within.ite
    | split
    | dsimp -zeta only
    | dsimp +zetaDelta only

theorem State.tickNext_within (s : State) :
    Within (.of [.tick] [.timTick]) s (State.tickNext s) := by
  delta State.tickNext
  repeat' first
    | with_reducible assumption
    | with_reducible apply Within.refl
    | ((with_reducible apply Within.wr); (case hr => first | decide | exact Foot.allRegs_hasReg _ _ | exact Foot.all_hasReg _ | (subst_vars; decide) | ((try dsimp +zetaDelta only); split <;> first | decide | (split <;> first | decide | (split <;> decide)))))
    | (intro x
       have hx : Within (.of [.tick] [.timTick]) s x := by
         dsimp -zeta only [x]
         repeat' first
           | with_reducible assumption
           | with_reducible apply Within.refl
           | ((with_reducible apply Within.wr); (case hr => first | decide | exact Foot.allRegs_hasReg _ _ | exact Foot.all_hasReg _ | (subst_vars; decide) | ((try dsimp +zetaDelta only); split <;> first | decide | (split <;> first | decide | (split <;> decide)))))
           | with_reducible apply Within.ite
           | ((with_reducible apply Within.set_tick); (case hc => decide))
           | split
           | dsimp -zeta only
           | dsimp +zetaDelta only
       clear_value x)
    | intro x
    | lift_lets
    | with_reducible apply Within.ite
    | ((with_reducible apply Within.set_tick); (case hc => decide))
    | split
    | dsimp -zeta only
    | dsimp +zetaDelta only

theorem State.tickEdge_within (s : State) (e : TickEnv) :
    Within (.of [.free, .tick, .quads, .lanes, .links, .lag, .prot, .core, .act, .latch, .irqs, .log, .pm, .events, .hbm, .stuck, .mate, .ecc, .tim, .bus] [.laneState, .laneTxfir, .lanePrbsCtrl, .laneScanStatus, .laneBringupTry, .laneUpLoss, .linkState, .linkFramesGood, .linkFramesDoubtful, .linkFramesBad, .linkFramesAbsent, .linkPayCrcErr, .linkOofEntry, .lagState, .lagArrLast, .lagArrMax, .lagArrMin, .lagLinkState, .lagReadLate, .lagPageFail, .lagReleased, .lagMissing, .lagLate, .lagPageBad, .lagMarginLow, .protGroupCmd, .protGroupState, .protSelP, .protSelS, .protSwitch, .protNoGood, .protBothAbsent, .protDiffer, .protCmdRefused, .coreStatus, .coreStationDis, .coreSlack, .coreTapData, .coreTapTick, .coreOverrunSlots, .coreClashReads, .corePostClash, .coreResvCtrl, .coreResvScrub, .coreResvTest, .coreResvAudit, .coreTicks, .almState, .almArmDis, .almStageFail, .timState, .timTick, .timRefState, .timPhase, .timDco, .timHold, .timSwitches, .timHoldoverEntry, .timFreerunEntry, .timDisputes, .timDcoClamp, .timRefDisq, .mateState, .mateResync, .mateWatchLost, .mateFrameUnusable, .mateResyncs, .eccStatus, .eccLastUe, .eccTestStatus, .eccScrubStatus, .eccScrubSum, .eccScrubUe, .eccTrack, .eccCorr, .eccUe, .eccPoison, .eccTestFail, .eccTrackFull, .eccSumPoisonAll, .hbmCand, .hbmCe, .hbmUe, .busStatus, .busErrLast, .busErrResp, .busDefault, .busGrants, .sysFuncState, .sysFuncStarts, .pmLinkState, .pmGroupState, .pmMateState, .pmSnapshots, .pmSnapSkipped, .logState, .logEvbEntries, .logDropped, .logEvbLost, .logEntries, .sysIntSrc]) s (State.tickEdge s e) := by
  delta State.tickEdge
  repeat' first
    | with_reducible assumption
    | with_reducible apply Within.refl
    | ((with_reducible apply Within.after (State.tickBegin_within ..)); (case hle => decide))
    | ((with_reducible apply Within.after (State.tickEnd_within ..)); (case hle => decide))
    | ((with_reducible apply Within.after (State.tickNext_within ..)); (case hle => decide))
    | (intro x
       have hx : Within (.of [.free, .tick, .quads, .lanes, .links, .lag, .prot, .core, .act, .latch, .irqs, .log, .pm, .events, .hbm, .stuck, .mate, .ecc, .tim, .bus] [.laneState, .laneTxfir, .lanePrbsCtrl, .laneScanStatus, .laneBringupTry, .laneUpLoss, .linkState, .linkFramesGood, .linkFramesDoubtful, .linkFramesBad, .linkFramesAbsent, .linkPayCrcErr, .linkOofEntry, .lagState, .lagArrLast, .lagArrMax, .lagArrMin, .lagLinkState, .lagReadLate, .lagPageFail, .lagReleased, .lagMissing, .lagLate, .lagPageBad, .lagMarginLow, .protGroupCmd, .protGroupState, .protSelP, .protSelS, .protSwitch, .protNoGood, .protBothAbsent, .protDiffer, .protCmdRefused, .coreStatus, .coreStationDis, .coreSlack, .coreTapData, .coreTapTick, .coreOverrunSlots, .coreClashReads, .corePostClash, .coreResvCtrl, .coreResvScrub, .coreResvTest, .coreResvAudit, .coreTicks, .almState, .almArmDis, .almStageFail, .timState, .timTick, .timRefState, .timPhase, .timDco, .timHold, .timSwitches, .timHoldoverEntry, .timFreerunEntry, .timDisputes, .timDcoClamp, .timRefDisq, .mateState, .mateResync, .mateWatchLost, .mateFrameUnusable, .mateResyncs, .eccStatus, .eccLastUe, .eccTestStatus, .eccScrubStatus, .eccScrubSum, .eccScrubUe, .eccTrack, .eccCorr, .eccUe, .eccPoison, .eccTestFail, .eccTrackFull, .eccSumPoisonAll, .hbmCand, .hbmCe, .hbmUe, .busStatus, .busErrLast, .busErrResp, .busDefault, .busGrants, .sysFuncState, .sysFuncStarts, .pmLinkState, .pmGroupState, .pmMateState, .pmSnapshots, .pmSnapSkipped, .logState, .logEvbEntries, .logDropped, .logEvbLost, .logEntries, .sysIntSrc]) s x := by
         dsimp -zeta only [x]
         repeat' first
           | with_reducible assumption
           | with_reducible apply Within.refl
           | ((with_reducible apply Within.after (State.tickBegin_within ..)); (case hle => decide))
           | ((with_reducible apply Within.after (State.tickEnd_within ..)); (case hle => decide))
           | ((with_reducible apply Within.after (State.tickNext_within ..)); (case hle => decide))
           | with_reducible apply Within.ite
           | ((with_reducible apply Within.set_tick); (case hc => decide))
           | split
           | dsimp -zeta only
           | dsimp +zetaDelta only
       clear_value x)
    | intro x
    | lift_lets
    | with_reducible apply Within.ite
    | ((with_reducible apply Within.set_tick); (case hc => decide))
    | split
    | dsimp -zeta only
    | dsimp +zetaDelta only

theorem execTickEdge_within (e : TickEnv) (s : State) (s' : State)
    (h : execTickEdge e s = .next s') :
    Within (.of [.free, .tick, .quads, .lanes, .links, .lag, .prot, .core, .act, .latch, .irqs, .log, .pm, .events, .hbm, .stuck, .mate, .ecc, .tim, .bus] [.laneState, .laneTxfir, .lanePrbsCtrl, .laneScanStatus, .laneBringupTry, .laneUpLoss, .linkState, .linkFramesGood, .linkFramesDoubtful, .linkFramesBad, .linkFramesAbsent, .linkPayCrcErr, .linkOofEntry, .lagState, .lagArrLast, .lagArrMax, .lagArrMin, .lagLinkState, .lagReadLate, .lagPageFail, .lagReleased, .lagMissing, .lagLate, .lagPageBad, .lagMarginLow, .protGroupCmd, .protGroupState, .protSelP, .protSelS, .protSwitch, .protNoGood, .protBothAbsent, .protDiffer, .protCmdRefused, .coreStatus, .coreStationDis, .coreSlack, .coreTapData, .coreTapTick, .coreOverrunSlots, .coreClashReads, .corePostClash, .coreResvCtrl, .coreResvScrub, .coreResvTest, .coreResvAudit, .coreTicks, .almState, .almArmDis, .almStageFail, .timState, .timTick, .timRefState, .timPhase, .timDco, .timHold, .timSwitches, .timHoldoverEntry, .timFreerunEntry, .timDisputes, .timDcoClamp, .timRefDisq, .mateState, .mateResync, .mateWatchLost, .mateFrameUnusable, .mateResyncs, .eccStatus, .eccLastUe, .eccTestStatus, .eccScrubStatus, .eccScrubSum, .eccScrubUe, .eccTrack, .eccCorr, .eccUe, .eccPoison, .eccTestFail, .eccTrackFull, .eccSumPoisonAll, .hbmCand, .hbmCe, .hbmUe, .busStatus, .busErrLast, .busErrResp, .busDefault, .busGrants, .sysFuncState, .sysFuncStarts, .pmLinkState, .pmGroupState, .pmMateState, .pmSnapshots, .pmSnapSkipped, .logState, .logEvbEntries, .logDropped, .logEvbLost, .logEntries, .sysIntSrc]) s s' := by
  delta execTickEdge at h
  injection h with h
  subst h
  repeat' first
    | with_reducible assumption
    | with_reducible apply Within.refl
    | ((with_reducible apply Within.when); (case' hg => intro _ _))
    | ((with_reducible apply Within.after (State.tickEdge_within ..)); (case hle => decide))
    | with_reducible apply Within.ite
    | split
    | dsimp -zeta only

end Sys2Proof.Machine
end

