-- ==== Sys2Proof/Laws/Reads.lean ====
section
/-! SUPPORT. Reads of the state after a shared operation that does not write what is read. -/

namespace Sys2Proof.Machine

variable (s : State) (f : Field) (j k : Nat) (q : Reg)

/-! ### raise -/

/-- What `raise` may touch. -/
abbrev State.raise_foot : Foot := Foot.alarm

theorem State.word_raise (a i : Nat) (h : State.raise_foot.hasReg q = false) : (s.raise a i).word q j = s.word q j := (State.raise_within s a i).word _ h j
theorem State.rd_raise (a i : Nat) (h : State.raise_foot.hasReg f.reg = false) : (s.raise a i).rd f j = s.rd f j := (State.raise_within s a i).rd h j
theorem State.flag_raise (a i : Nat) (h : State.raise_foot.hasReg f.reg = false) : (s.raise a i).flag f j = s.flag f j := (State.raise_within s a i).flag h j
theorem State.rdBit_raise (a i : Nat) (h : State.raise_foot.hasReg f.reg = false) : (s.raise a i).rdBit f j k = s.rdBit f j k := (State.raise_within s a i).rdBit h j k
@[simp] theorem State.raise_free (a i : Nat) : (s.raise a i).free = s.free := (State.raise_within s a i).free (by decide)
@[simp] theorem State.raise_tick (a i : Nat) : (s.raise a i).tick = s.tick := (State.raise_within s a i).tick (by decide)
@[simp] theorem State.raise_quads (a i : Nat) : (s.raise a i).quads = s.quads := (State.raise_within s a i).quads (by decide)
@[simp] theorem State.raise_lanes (a i : Nat) : (s.raise a i).lanes = s.lanes := (State.raise_within s a i).lanes (by decide)
@[simp] theorem State.raise_links (a i : Nat) : (s.raise a i).links = s.links := (State.raise_within s a i).links (by decide)
@[simp] theorem State.raise_lag (a i : Nat) : (s.raise a i).lag = s.lag := (State.raise_within s a i).lag (by decide)
@[simp] theorem State.raise_prot (a i : Nat) : (s.raise a i).prot = s.prot := (State.raise_within s a i).prot (by decide)
@[simp] theorem State.raise_core (a i : Nat) : (s.raise a i).core = s.core := (State.raise_within s a i).core (by decide)
@[simp] theorem State.raise_boot (a i : Nat) : (s.raise a i).boot = s.boot := (State.raise_within s a i).boot (by decide)
@[simp] theorem State.raise_nvm (a i : Nat) : (s.raise a i).nvm = s.nvm := (State.raise_within s a i).nvm (by decide)
@[simp] theorem State.raise_jtag (a i : Nat) : (s.raise a i).jtag = s.jtag := (State.raise_within s a i).jtag (by decide)
@[simp] theorem State.raise_mate (a i : Nat) : (s.raise a i).mate = s.mate := (State.raise_within s a i).mate (by decide)
@[simp] theorem State.raise_alm (a i : Nat) : (s.raise a i).alm = s.alm := (State.raise_within s a i).alm (by decide)
@[simp] theorem State.raise_ecc (a i : Nat) : (s.raise a i).ecc = s.ecc := (State.raise_within s a i).ecc (by decide)
@[simp] theorem State.raise_tim (a i : Nat) : (s.raise a i).tim = s.tim := (State.raise_within s a i).tim (by decide)

/-! ### clear -/

/-- What `clear` may touch. -/
abbrev State.clear_foot : Foot := Foot.alarmEnd

theorem State.word_clear (a i : Nat) (h : State.clear_foot.hasReg q = false) : (s.clear a i).word q j = s.word q j := (State.clear_within s a i).word _ h j
theorem State.rd_clear (a i : Nat) (h : State.clear_foot.hasReg f.reg = false) : (s.clear a i).rd f j = s.rd f j := (State.clear_within s a i).rd h j
theorem State.flag_clear (a i : Nat) (h : State.clear_foot.hasReg f.reg = false) : (s.clear a i).flag f j = s.flag f j := (State.clear_within s a i).flag h j
theorem State.rdBit_clear (a i : Nat) (h : State.clear_foot.hasReg f.reg = false) : (s.clear a i).rdBit f j k = s.rdBit f j k := (State.clear_within s a i).rdBit h j k
@[simp] theorem State.clear_free (a i : Nat) : (s.clear a i).free = s.free := (State.clear_within s a i).free (by decide)
@[simp] theorem State.clear_tick (a i : Nat) : (s.clear a i).tick = s.tick := (State.clear_within s a i).tick (by decide)
@[simp] theorem State.clear_quads (a i : Nat) : (s.clear a i).quads = s.quads := (State.clear_within s a i).quads (by decide)
@[simp] theorem State.clear_lanes (a i : Nat) : (s.clear a i).lanes = s.lanes := (State.clear_within s a i).lanes (by decide)
@[simp] theorem State.clear_links (a i : Nat) : (s.clear a i).links = s.links := (State.clear_within s a i).links (by decide)
@[simp] theorem State.clear_lag (a i : Nat) : (s.clear a i).lag = s.lag := (State.clear_within s a i).lag (by decide)
@[simp] theorem State.clear_prot (a i : Nat) : (s.clear a i).prot = s.prot := (State.clear_within s a i).prot (by decide)
@[simp] theorem State.clear_core (a i : Nat) : (s.clear a i).core = s.core := (State.clear_within s a i).core (by decide)
@[simp] theorem State.clear_latch (a i : Nat) : (s.clear a i).latch = s.latch := (State.clear_within s a i).latch (by decide)
@[simp] theorem State.clear_boot (a i : Nat) : (s.clear a i).boot = s.boot := (State.clear_within s a i).boot (by decide)
@[simp] theorem State.clear_nvm (a i : Nat) : (s.clear a i).nvm = s.nvm := (State.clear_within s a i).nvm (by decide)
@[simp] theorem State.clear_jtag (a i : Nat) : (s.clear a i).jtag = s.jtag := (State.clear_within s a i).jtag (by decide)
@[simp] theorem State.clear_mate (a i : Nat) : (s.clear a i).mate = s.mate := (State.clear_within s a i).mate (by decide)
@[simp] theorem State.clear_alm (a i : Nat) : (s.clear a i).alm = s.alm := (State.clear_within s a i).alm (by decide)
@[simp] theorem State.clear_ecc (a i : Nat) : (s.clear a i).ecc = s.ecc := (State.clear_within s a i).ecc (by decide)
@[simp] theorem State.clear_tim (a i : Nat) : (s.clear a i).tim = s.tim := (State.clear_within s a i).tim (by decide)

/-! ### setAlarm -/

/-- What `setAlarm` may touch. -/
abbrev State.setAlarm_foot : Foot := Foot.alarm

theorem State.word_setAlarm (a i : Nat) (v : Bool) (h : State.setAlarm_foot.hasReg q = false) : (s.setAlarm a i v).word q j = s.word q j := (State.setAlarm_within s a i v).word _ h j
theorem State.rd_setAlarm (a i : Nat) (v : Bool) (h : State.setAlarm_foot.hasReg f.reg = false) : (s.setAlarm a i v).rd f j = s.rd f j := (State.setAlarm_within s a i v).rd h j
theorem State.flag_setAlarm (a i : Nat) (v : Bool) (h : State.setAlarm_foot.hasReg f.reg = false) : (s.setAlarm a i v).flag f j = s.flag f j := (State.setAlarm_within s a i v).flag h j
theorem State.rdBit_setAlarm (a i : Nat) (v : Bool) (h : State.setAlarm_foot.hasReg f.reg = false) : (s.setAlarm a i v).rdBit f j k = s.rdBit f j k := (State.setAlarm_within s a i v).rdBit h j k
@[simp] theorem State.setAlarm_free (a i : Nat) (v : Bool) : (s.setAlarm a i v).free = s.free := (State.setAlarm_within s a i v).free (by decide)
@[simp] theorem State.setAlarm_tick (a i : Nat) (v : Bool) : (s.setAlarm a i v).tick = s.tick := (State.setAlarm_within s a i v).tick (by decide)
@[simp] theorem State.setAlarm_quads (a i : Nat) (v : Bool) : (s.setAlarm a i v).quads = s.quads := (State.setAlarm_within s a i v).quads (by decide)
@[simp] theorem State.setAlarm_lanes (a i : Nat) (v : Bool) : (s.setAlarm a i v).lanes = s.lanes := (State.setAlarm_within s a i v).lanes (by decide)
@[simp] theorem State.setAlarm_links (a i : Nat) (v : Bool) : (s.setAlarm a i v).links = s.links := (State.setAlarm_within s a i v).links (by decide)
@[simp] theorem State.setAlarm_lag (a i : Nat) (v : Bool) : (s.setAlarm a i v).lag = s.lag := (State.setAlarm_within s a i v).lag (by decide)
@[simp] theorem State.setAlarm_prot (a i : Nat) (v : Bool) : (s.setAlarm a i v).prot = s.prot := (State.setAlarm_within s a i v).prot (by decide)
@[simp] theorem State.setAlarm_core (a i : Nat) (v : Bool) : (s.setAlarm a i v).core = s.core := (State.setAlarm_within s a i v).core (by decide)
@[simp] theorem State.setAlarm_boot (a i : Nat) (v : Bool) : (s.setAlarm a i v).boot = s.boot := (State.setAlarm_within s a i v).boot (by decide)
@[simp] theorem State.setAlarm_nvm (a i : Nat) (v : Bool) : (s.setAlarm a i v).nvm = s.nvm := (State.setAlarm_within s a i v).nvm (by decide)
@[simp] theorem State.setAlarm_jtag (a i : Nat) (v : Bool) : (s.setAlarm a i v).jtag = s.jtag := (State.setAlarm_within s a i v).jtag (by decide)
@[simp] theorem State.setAlarm_mate (a i : Nat) (v : Bool) : (s.setAlarm a i v).mate = s.mate := (State.setAlarm_within s a i v).mate (by decide)
@[simp] theorem State.setAlarm_alm (a i : Nat) (v : Bool) : (s.setAlarm a i v).alm = s.alm := (State.setAlarm_within s a i v).alm (by decide)
@[simp] theorem State.setAlarm_ecc (a i : Nat) (v : Bool) : (s.setAlarm a i v).ecc = s.ecc := (State.setAlarm_within s a i v).ecc (by decide)
@[simp] theorem State.setAlarm_tim (a i : Nat) (v : Bool) : (s.setAlarm a i v).tim = s.tim := (State.setAlarm_within s a i v).tim (by decide)

/-! ### logEvent -/

/-- What `logEvent` may touch. -/
abbrev State.logEvent_foot : Foot := Foot.of [.log, .pm, .events, .bus] [.busGrants, .logState, .logEvbEntries, .logDropped, .logEvbLost, .logEntries, .sysIntSrc]

theorem State.word_logEvent (code sev a b c : Nat) (book : Bool) (h : State.logEvent_foot.hasReg q = false) : (s.logEvent code sev a b c book).word q j = s.word q j := (State.logEvent_within s code sev a b c book).word _ h j
theorem State.rd_logEvent (code sev a b c : Nat) (book : Bool) (h : State.logEvent_foot.hasReg f.reg = false) : (s.logEvent code sev a b c book).rd f j = s.rd f j := (State.logEvent_within s code sev a b c book).rd h j
theorem State.flag_logEvent (code sev a b c : Nat) (book : Bool) (h : State.logEvent_foot.hasReg f.reg = false) : (s.logEvent code sev a b c book).flag f j = s.flag f j := (State.logEvent_within s code sev a b c book).flag h j
theorem State.rdBit_logEvent (code sev a b c : Nat) (book : Bool) (h : State.logEvent_foot.hasReg f.reg = false) : (s.logEvent code sev a b c book).rdBit f j k = s.rdBit f j k := (State.logEvent_within s code sev a b c book).rdBit h j k
@[simp] theorem State.logEvent_free (code sev a b c : Nat) (book : Bool) : (s.logEvent code sev a b c book).free = s.free := (State.logEvent_within s code sev a b c book).free (by decide)
@[simp] theorem State.logEvent_tick (code sev a b c : Nat) (book : Bool) : (s.logEvent code sev a b c book).tick = s.tick := (State.logEvent_within s code sev a b c book).tick (by decide)
@[simp] theorem State.logEvent_quads (code sev a b c : Nat) (book : Bool) : (s.logEvent code sev a b c book).quads = s.quads := (State.logEvent_within s code sev a b c book).quads (by decide)
@[simp] theorem State.logEvent_lanes (code sev a b c : Nat) (book : Bool) : (s.logEvent code sev a b c book).lanes = s.lanes := (State.logEvent_within s code sev a b c book).lanes (by decide)
@[simp] theorem State.logEvent_links (code sev a b c : Nat) (book : Bool) : (s.logEvent code sev a b c book).links = s.links := (State.logEvent_within s code sev a b c book).links (by decide)
@[simp] theorem State.logEvent_lag (code sev a b c : Nat) (book : Bool) : (s.logEvent code sev a b c book).lag = s.lag := (State.logEvent_within s code sev a b c book).lag (by decide)
@[simp] theorem State.logEvent_prot (code sev a b c : Nat) (book : Bool) : (s.logEvent code sev a b c book).prot = s.prot := (State.logEvent_within s code sev a b c book).prot (by decide)
@[simp] theorem State.logEvent_core (code sev a b c : Nat) (book : Bool) : (s.logEvent code sev a b c book).core = s.core := (State.logEvent_within s code sev a b c book).core (by decide)
@[simp] theorem State.logEvent_act (code sev a b c : Nat) (book : Bool) : (s.logEvent code sev a b c book).act = s.act := (State.logEvent_within s code sev a b c book).act (by decide)
@[simp] theorem State.logEvent_latch (code sev a b c : Nat) (book : Bool) : (s.logEvent code sev a b c book).latch = s.latch := (State.logEvent_within s code sev a b c book).latch (by decide)
@[simp] theorem State.logEvent_irqs (code sev a b c : Nat) (book : Bool) : (s.logEvent code sev a b c book).irqs = s.irqs := (State.logEvent_within s code sev a b c book).irqs (by decide)
@[simp] theorem State.logEvent_boot (code sev a b c : Nat) (book : Bool) : (s.logEvent code sev a b c book).boot = s.boot := (State.logEvent_within s code sev a b c book).boot (by decide)
@[simp] theorem State.logEvent_nvm (code sev a b c : Nat) (book : Bool) : (s.logEvent code sev a b c book).nvm = s.nvm := (State.logEvent_within s code sev a b c book).nvm (by decide)
@[simp] theorem State.logEvent_jtag (code sev a b c : Nat) (book : Bool) : (s.logEvent code sev a b c book).jtag = s.jtag := (State.logEvent_within s code sev a b c book).jtag (by decide)
@[simp] theorem State.logEvent_mate (code sev a b c : Nat) (book : Bool) : (s.logEvent code sev a b c book).mate = s.mate := (State.logEvent_within s code sev a b c book).mate (by decide)
@[simp] theorem State.logEvent_alm (code sev a b c : Nat) (book : Bool) : (s.logEvent code sev a b c book).alm = s.alm := (State.logEvent_within s code sev a b c book).alm (by decide)
@[simp] theorem State.logEvent_ecc (code sev a b c : Nat) (book : Bool) : (s.logEvent code sev a b c book).ecc = s.ecc := (State.logEvent_within s code sev a b c book).ecc (by decide)
@[simp] theorem State.logEvent_tim (code sev a b c : Nat) (book : Bool) : (s.logEvent code sev a b c book).tim = s.tim := (State.logEvent_within s code sev a b c book).tim (by decide)

/-! ### irqSync -/

@[simp] theorem State.word_irqSync  : (s.irqSync).word q j = s.word q j := (State.irqSync_within s).word _ (Nat.zero_testBit _) j
@[simp] theorem State.rd_irqSync  : (s.irqSync).rd f j = s.rd f j := (State.irqSync_within s).rd (Nat.zero_testBit _) j
@[simp] theorem State.flag_irqSync  : (s.irqSync).flag f j = s.flag f j := (State.irqSync_within s).flag (Nat.zero_testBit _) j
@[simp] theorem State.rdBit_irqSync  : (s.irqSync).rdBit f j k = s.rdBit f j k := (State.irqSync_within s).rdBit (Nat.zero_testBit _) j k
@[simp] theorem State.irqSync_free  : (s.irqSync).free = s.free := (State.irqSync_within s).free (by decide)
@[simp] theorem State.irqSync_tick  : (s.irqSync).tick = s.tick := (State.irqSync_within s).tick (by decide)
@[simp] theorem State.irqSync_quads  : (s.irqSync).quads = s.quads := (State.irqSync_within s).quads (by decide)
@[simp] theorem State.irqSync_lanes  : (s.irqSync).lanes = s.lanes := (State.irqSync_within s).lanes (by decide)
@[simp] theorem State.irqSync_links  : (s.irqSync).links = s.links := (State.irqSync_within s).links (by decide)
@[simp] theorem State.irqSync_lag  : (s.irqSync).lag = s.lag := (State.irqSync_within s).lag (by decide)
@[simp] theorem State.irqSync_prot  : (s.irqSync).prot = s.prot := (State.irqSync_within s).prot (by decide)
@[simp] theorem State.irqSync_core  : (s.irqSync).core = s.core := (State.irqSync_within s).core (by decide)
@[simp] theorem State.irqSync_act  : (s.irqSync).act = s.act := (State.irqSync_within s).act (by decide)
@[simp] theorem State.irqSync_latch  : (s.irqSync).latch = s.latch := (State.irqSync_within s).latch (by decide)
@[simp] theorem State.irqSync_log  : (s.irqSync).log = s.log := (State.irqSync_within s).log (by decide)
@[simp] theorem State.irqSync_pm  : (s.irqSync).pm = s.pm := (State.irqSync_within s).pm (by decide)
@[simp] theorem State.irqSync_boot  : (s.irqSync).boot = s.boot := (State.irqSync_within s).boot (by decide)
@[simp] theorem State.irqSync_nvm  : (s.irqSync).nvm = s.nvm := (State.irqSync_within s).nvm (by decide)
@[simp] theorem State.irqSync_jtag  : (s.irqSync).jtag = s.jtag := (State.irqSync_within s).jtag (by decide)
@[simp] theorem State.irqSync_mate  : (s.irqSync).mate = s.mate := (State.irqSync_within s).mate (by decide)
@[simp] theorem State.irqSync_alm  : (s.irqSync).alm = s.alm := (State.irqSync_within s).alm (by decide)
@[simp] theorem State.irqSync_ecc  : (s.irqSync).ecc = s.ecc := (State.irqSync_within s).ecc (by decide)
@[simp] theorem State.irqSync_tim  : (s.irqSync).tim = s.tim := (State.irqSync_within s).tim (by decide)
@[simp] theorem State.irqSync_bus  : (s.irqSync).bus = s.bus := (State.irqSync_within s).bus (by decide)

/-! ### meter -/

@[simp] theorem State.word_meter (r : Reg) (i n : Nat) : (s.meter r i n).word q j = s.word q j := (State.meter_within s r i n).word _ (Nat.zero_testBit _) j
@[simp] theorem State.rd_meter (r : Reg) (i n : Nat) : (s.meter r i n).rd f j = s.rd f j := (State.meter_within s r i n).rd (Nat.zero_testBit _) j
@[simp] theorem State.flag_meter (r : Reg) (i n : Nat) : (s.meter r i n).flag f j = s.flag f j := (State.meter_within s r i n).flag (Nat.zero_testBit _) j
@[simp] theorem State.rdBit_meter (r : Reg) (i n : Nat) : (s.meter r i n).rdBit f j k = s.rdBit f j k := (State.meter_within s r i n).rdBit (Nat.zero_testBit _) j k
@[simp] theorem State.meter_free (r : Reg) (i n : Nat) : (s.meter r i n).free = s.free := (State.meter_within s r i n).free (by decide)
@[simp] theorem State.meter_tick (r : Reg) (i n : Nat) : (s.meter r i n).tick = s.tick := (State.meter_within s r i n).tick (by decide)
@[simp] theorem State.meter_quads (r : Reg) (i n : Nat) : (s.meter r i n).quads = s.quads := (State.meter_within s r i n).quads (by decide)
@[simp] theorem State.meter_lanes (r : Reg) (i n : Nat) : (s.meter r i n).lanes = s.lanes := (State.meter_within s r i n).lanes (by decide)
@[simp] theorem State.meter_links (r : Reg) (i n : Nat) : (s.meter r i n).links = s.links := (State.meter_within s r i n).links (by decide)
@[simp] theorem State.meter_lag (r : Reg) (i n : Nat) : (s.meter r i n).lag = s.lag := (State.meter_within s r i n).lag (by decide)
@[simp] theorem State.meter_prot (r : Reg) (i n : Nat) : (s.meter r i n).prot = s.prot := (State.meter_within s r i n).prot (by decide)
@[simp] theorem State.meter_core (r : Reg) (i n : Nat) : (s.meter r i n).core = s.core := (State.meter_within s r i n).core (by decide)
@[simp] theorem State.meter_act (r : Reg) (i n : Nat) : (s.meter r i n).act = s.act := (State.meter_within s r i n).act (by decide)
@[simp] theorem State.meter_latch (r : Reg) (i n : Nat) : (s.meter r i n).latch = s.latch := (State.meter_within s r i n).latch (by decide)
@[simp] theorem State.meter_irqs (r : Reg) (i n : Nat) : (s.meter r i n).irqs = s.irqs := (State.meter_within s r i n).irqs (by decide)
@[simp] theorem State.meter_log (r : Reg) (i n : Nat) : (s.meter r i n).log = s.log := (State.meter_within s r i n).log (by decide)
@[simp] theorem State.meter_boot (r : Reg) (i n : Nat) : (s.meter r i n).boot = s.boot := (State.meter_within s r i n).boot (by decide)
@[simp] theorem State.meter_nvm (r : Reg) (i n : Nat) : (s.meter r i n).nvm = s.nvm := (State.meter_within s r i n).nvm (by decide)
@[simp] theorem State.meter_jtag (r : Reg) (i n : Nat) : (s.meter r i n).jtag = s.jtag := (State.meter_within s r i n).jtag (by decide)
@[simp] theorem State.meter_mate (r : Reg) (i n : Nat) : (s.meter r i n).mate = s.mate := (State.meter_within s r i n).mate (by decide)
@[simp] theorem State.meter_alm (r : Reg) (i n : Nat) : (s.meter r i n).alm = s.alm := (State.meter_within s r i n).alm (by decide)
@[simp] theorem State.meter_ecc (r : Reg) (i n : Nat) : (s.meter r i n).ecc = s.ecc := (State.meter_within s r i n).ecc (by decide)
@[simp] theorem State.meter_tim (r : Reg) (i n : Nat) : (s.meter r i n).tim = s.tim := (State.meter_within s r i n).tim (by decide)
@[simp] theorem State.meter_bus (r : Reg) (i n : Nat) : (s.meter r i n).bus = s.bus := (State.meter_within s r i n).bus (by decide)

/-! ### answer -/

@[simp] theorem State.word_answer (m : Master) (ok : Bool) (d : List Byte) : (s.answer m ok d).word q j = s.word q j := (State.answer_within s m ok d).word _ (Nat.zero_testBit _) j
@[simp] theorem State.rd_answer (m : Master) (ok : Bool) (d : List Byte) : (s.answer m ok d).rd f j = s.rd f j := (State.answer_within s m ok d).rd (Nat.zero_testBit _) j
@[simp] theorem State.flag_answer (m : Master) (ok : Bool) (d : List Byte) : (s.answer m ok d).flag f j = s.flag f j := (State.answer_within s m ok d).flag (Nat.zero_testBit _) j
@[simp] theorem State.rdBit_answer (m : Master) (ok : Bool) (d : List Byte) : (s.answer m ok d).rdBit f j k = s.rdBit f j k := (State.answer_within s m ok d).rdBit (Nat.zero_testBit _) j k
@[simp] theorem State.answer_free (m : Master) (ok : Bool) (d : List Byte) : (s.answer m ok d).free = s.free := (State.answer_within s m ok d).free (by decide)
@[simp] theorem State.answer_tick (m : Master) (ok : Bool) (d : List Byte) : (s.answer m ok d).tick = s.tick := (State.answer_within s m ok d).tick (by decide)
@[simp] theorem State.answer_quads (m : Master) (ok : Bool) (d : List Byte) : (s.answer m ok d).quads = s.quads := (State.answer_within s m ok d).quads (by decide)
@[simp] theorem State.answer_lanes (m : Master) (ok : Bool) (d : List Byte) : (s.answer m ok d).lanes = s.lanes := (State.answer_within s m ok d).lanes (by decide)
@[simp] theorem State.answer_links (m : Master) (ok : Bool) (d : List Byte) : (s.answer m ok d).links = s.links := (State.answer_within s m ok d).links (by decide)
@[simp] theorem State.answer_lag (m : Master) (ok : Bool) (d : List Byte) : (s.answer m ok d).lag = s.lag := (State.answer_within s m ok d).lag (by decide)
@[simp] theorem State.answer_prot (m : Master) (ok : Bool) (d : List Byte) : (s.answer m ok d).prot = s.prot := (State.answer_within s m ok d).prot (by decide)
@[simp] theorem State.answer_core (m : Master) (ok : Bool) (d : List Byte) : (s.answer m ok d).core = s.core := (State.answer_within s m ok d).core (by decide)
@[simp] theorem State.answer_act (m : Master) (ok : Bool) (d : List Byte) : (s.answer m ok d).act = s.act := (State.answer_within s m ok d).act (by decide)
@[simp] theorem State.answer_latch (m : Master) (ok : Bool) (d : List Byte) : (s.answer m ok d).latch = s.latch := (State.answer_within s m ok d).latch (by decide)
@[simp] theorem State.answer_irqs (m : Master) (ok : Bool) (d : List Byte) : (s.answer m ok d).irqs = s.irqs := (State.answer_within s m ok d).irqs (by decide)
@[simp] theorem State.answer_log (m : Master) (ok : Bool) (d : List Byte) : (s.answer m ok d).log = s.log := (State.answer_within s m ok d).log (by decide)
@[simp] theorem State.answer_pm (m : Master) (ok : Bool) (d : List Byte) : (s.answer m ok d).pm = s.pm := (State.answer_within s m ok d).pm (by decide)
@[simp] theorem State.answer_boot (m : Master) (ok : Bool) (d : List Byte) : (s.answer m ok d).boot = s.boot := (State.answer_within s m ok d).boot (by decide)
@[simp] theorem State.answer_nvm (m : Master) (ok : Bool) (d : List Byte) : (s.answer m ok d).nvm = s.nvm := (State.answer_within s m ok d).nvm (by decide)
@[simp] theorem State.answer_jtag (m : Master) (ok : Bool) (d : List Byte) : (s.answer m ok d).jtag = s.jtag := (State.answer_within s m ok d).jtag (by decide)
@[simp] theorem State.answer_mate (m : Master) (ok : Bool) (d : List Byte) : (s.answer m ok d).mate = s.mate := (State.answer_within s m ok d).mate (by decide)
@[simp] theorem State.answer_alm (m : Master) (ok : Bool) (d : List Byte) : (s.answer m ok d).alm = s.alm := (State.answer_within s m ok d).alm (by decide)
@[simp] theorem State.answer_ecc (m : Master) (ok : Bool) (d : List Byte) : (s.answer m ok d).ecc = s.ecc := (State.answer_within s m ok d).ecc (by decide)
@[simp] theorem State.answer_tim (m : Master) (ok : Bool) (d : List Byte) : (s.answer m ok d).tim = s.tim := (State.answer_within s m ok d).tim (by decide)

/-! ### errResp -/

/-- What `errResp` may touch. -/
abbrev State.errResp_foot : Foot := Foot.of [.irqs] [.busErrLast, .busErrResp, .busDefault, .sysIntSrc]

theorem State.word_errResp (m : Master) (ad : Nat) (w : Bool) (c : ErrCause) (h : State.errResp_foot.hasReg q = false) : (s.errResp m ad w c).word q j = s.word q j := (State.errResp_within s m ad w c).word _ h j
theorem State.rd_errResp (m : Master) (ad : Nat) (w : Bool) (c : ErrCause) (h : State.errResp_foot.hasReg f.reg = false) : (s.errResp m ad w c).rd f j = s.rd f j := (State.errResp_within s m ad w c).rd h j
theorem State.flag_errResp (m : Master) (ad : Nat) (w : Bool) (c : ErrCause) (h : State.errResp_foot.hasReg f.reg = false) : (s.errResp m ad w c).flag f j = s.flag f j := (State.errResp_within s m ad w c).flag h j
theorem State.rdBit_errResp (m : Master) (ad : Nat) (w : Bool) (c : ErrCause) (h : State.errResp_foot.hasReg f.reg = false) : (s.errResp m ad w c).rdBit f j k = s.rdBit f j k := (State.errResp_within s m ad w c).rdBit h j k
@[simp] theorem State.errResp_free (m : Master) (ad : Nat) (w : Bool) (c : ErrCause) : (s.errResp m ad w c).free = s.free := (State.errResp_within s m ad w c).free (by decide)
@[simp] theorem State.errResp_tick (m : Master) (ad : Nat) (w : Bool) (c : ErrCause) : (s.errResp m ad w c).tick = s.tick := (State.errResp_within s m ad w c).tick (by decide)
@[simp] theorem State.errResp_quads (m : Master) (ad : Nat) (w : Bool) (c : ErrCause) : (s.errResp m ad w c).quads = s.quads := (State.errResp_within s m ad w c).quads (by decide)
@[simp] theorem State.errResp_lanes (m : Master) (ad : Nat) (w : Bool) (c : ErrCause) : (s.errResp m ad w c).lanes = s.lanes := (State.errResp_within s m ad w c).lanes (by decide)
@[simp] theorem State.errResp_links (m : Master) (ad : Nat) (w : Bool) (c : ErrCause) : (s.errResp m ad w c).links = s.links := (State.errResp_within s m ad w c).links (by decide)
@[simp] theorem State.errResp_lag (m : Master) (ad : Nat) (w : Bool) (c : ErrCause) : (s.errResp m ad w c).lag = s.lag := (State.errResp_within s m ad w c).lag (by decide)
@[simp] theorem State.errResp_prot (m : Master) (ad : Nat) (w : Bool) (c : ErrCause) : (s.errResp m ad w c).prot = s.prot := (State.errResp_within s m ad w c).prot (by decide)
@[simp] theorem State.errResp_core (m : Master) (ad : Nat) (w : Bool) (c : ErrCause) : (s.errResp m ad w c).core = s.core := (State.errResp_within s m ad w c).core (by decide)
@[simp] theorem State.errResp_act (m : Master) (ad : Nat) (w : Bool) (c : ErrCause) : (s.errResp m ad w c).act = s.act := (State.errResp_within s m ad w c).act (by decide)
@[simp] theorem State.errResp_latch (m : Master) (ad : Nat) (w : Bool) (c : ErrCause) : (s.errResp m ad w c).latch = s.latch := (State.errResp_within s m ad w c).latch (by decide)
@[simp] theorem State.errResp_log (m : Master) (ad : Nat) (w : Bool) (c : ErrCause) : (s.errResp m ad w c).log = s.log := (State.errResp_within s m ad w c).log (by decide)
@[simp] theorem State.errResp_pm (m : Master) (ad : Nat) (w : Bool) (c : ErrCause) : (s.errResp m ad w c).pm = s.pm := (State.errResp_within s m ad w c).pm (by decide)
@[simp] theorem State.errResp_boot (m : Master) (ad : Nat) (w : Bool) (c : ErrCause) : (s.errResp m ad w c).boot = s.boot := (State.errResp_within s m ad w c).boot (by decide)
@[simp] theorem State.errResp_nvm (m : Master) (ad : Nat) (w : Bool) (c : ErrCause) : (s.errResp m ad w c).nvm = s.nvm := (State.errResp_within s m ad w c).nvm (by decide)
@[simp] theorem State.errResp_jtag (m : Master) (ad : Nat) (w : Bool) (c : ErrCause) : (s.errResp m ad w c).jtag = s.jtag := (State.errResp_within s m ad w c).jtag (by decide)
@[simp] theorem State.errResp_mate (m : Master) (ad : Nat) (w : Bool) (c : ErrCause) : (s.errResp m ad w c).mate = s.mate := (State.errResp_within s m ad w c).mate (by decide)
@[simp] theorem State.errResp_alm (m : Master) (ad : Nat) (w : Bool) (c : ErrCause) : (s.errResp m ad w c).alm = s.alm := (State.errResp_within s m ad w c).alm (by decide)
@[simp] theorem State.errResp_ecc (m : Master) (ad : Nat) (w : Bool) (c : ErrCause) : (s.errResp m ad w c).ecc = s.ecc := (State.errResp_within s m ad w c).ecc (by decide)
@[simp] theorem State.errResp_tim (m : Master) (ad : Nat) (w : Bool) (c : ErrCause) : (s.errResp m ad w c).tim = s.tim := (State.errResp_within s m ad w c).tim (by decide)
@[simp] theorem State.errResp_bus (m : Master) (ad : Nat) (w : Bool) (c : ErrCause) : (s.errResp m ad w c).bus = s.bus := (State.errResp_within s m ad w c).bus (by decide)

end Sys2Proof.Machine
end

