-- ==== Sys2Proof/Laws/Func.lean ====
section
/-! SUPPORT. What a change of a function's state leaves to be read (13 R350, R351). -/

namespace Sys2Proof.Machine

theorem Field.apart_symm {f g : Field} (h : f.apart g = true) : g.apart f = true := by
  simp only [Field.apart, Bool.or_eq_true, decide_eq_true_eq, bne_iff_ne] at h ⊢
  rcases h with (h | h) | h
  · exact .inl (.inl (Ne.symm h))
  · exact .inr h
  · exact .inl (.inr h)

theorem State.fstate_lt (s : State) (f : Nat) : s.fstate f < 4 := State.rd_lt_two_pow ..

/-- The state shown after a change of state. -/
theorem State.fstate_setFstate (s : State) (f st : Nat) (h : st < 4) : (s.setFstate f st).fstate f = st := by
  unfold State.setFstate State.fstate
  dsimp only
  split
  · rw [State.rd_congr (State.word_count_other _ (.inl (by decide))), State.rd_wr_other _ _ (.inr (by decide)) (by decide),
      State.rd_wr _ _ _ _ (by decide)]
    exact Nat.mod_eq_of_lt h
  · rw [State.rd_wr_other _ _ (.inr (by decide)) (by decide), State.rd_wr _ _ _ _ (by decide)]
    exact Nat.mod_eq_of_lt h

/-- Other fields keep their values over a change of state. -/
theorem State.rd_setFstate (s : State) (f st : Nat) {g : Field} (h1 : g.apart F.sysFuncStateState = true) (h2 : g.apart F.sysFuncStateSince = true)
    (h3 : g.lo + g.width ≤ 64) (h4 : g.reg ≠ .sysFuncStarts) (i : Nat) : (s.setFstate f st).rd g i = s.rd g i := by
  unfold State.setFstate
  dsimp only
  split
  · rw [State.rd_congr (State.word_count_other _ (.inl (Ne.symm h4))), State.rd_wr_other _ _ (.inr (Field.apart_symm h2)) h3,
      State.rd_wr_other _ _ (.inr (Field.apart_symm h1)) h3]
  · rw [State.rd_wr_other _ _ (.inr (Field.apart_symm h2)) h3, State.rd_wr_other _ _ (.inr (Field.apart_symm h1)) h3]

theorem State.flag_setFstate (s : State) (f st : Nat) {g : Field} (h1 : g.apart F.sysFuncStateState = true) (h2 : g.apart F.sysFuncStateSince = true)
    (h3 : g.lo + g.width ≤ 64) (h4 : g.reg ≠ .sysFuncStarts) (i : Nat) : (s.setFstate f st).flag g i = s.flag g i := by
  unfold State.flag
  rw [State.rd_setFstate s f st h1 h2 h3 h4]

/-- A start is counted (13 Table 13-12). -/
theorem State.starts_setFstate (s : State) (f : Nat) : (s.setFstate f fStarting).word .sysFuncStarts f = s.word .sysFuncStarts f + 1 := by
  unfold State.setFstate
  rw [if_pos rfl, State.word_count, State.word_wr_other _ _ (.inl (by decide)), State.word_wr_other _ _ (.inl (by decide))]

end Sys2Proof.Machine
end

