-- ==== Sys2Proof/Laws/PerInstr.lean ====
section
/-! SUPPORT. Per command: no footprint holds the device's identifier or the factory fuse area (11 R299: eFuses written at the factory). -/

namespace Sys2Proof.Laws.Fixed

open Machine

/-- The command's footprint names neither the identifier nor the factory fuse area. -/
def Statement (i : Instr) : Prop := (Machine.Instr.foot i).hasComp .dieId = false ∧ (Machine.Instr.foot i).hasComp .factory = false

theorem pwrOkFall : Statement (.pwrOkFall) := by constructor <;> (dsimp only [Machine.Instr.foot]; decide)
theorem rstNFall : Statement (.rstNFall) := by constructor <;> (dsimp only [Machine.Instr.foot]; decide)
theorem rstNRise (bootMode : BitVec 2) (imageSel : Bool) (mateRank : Bool) : Statement (.rstNRise bootMode imageSel mateRank) := by constructor <;> (dsimp only [Machine.Instr.foot]; decide)
theorem hbmInitDone (k : StackId) (ok : Bool) : Statement (.hbmInitDone k ok) := by constructor <;> (dsimp only [Machine.Instr.foot]; decide)
theorem supplyMonitorTrip : Statement (.supplyMonitorTrip) := by constructor <;> (dsimp only [Machine.Instr.foot]; decide)
theorem tickEdge (env : TickEnv) : Statement (.tickEdge env) := by constructor <;> (dsimp only [Machine.Instr.foot]; decide)
theorem txPllLock (q : QuadId) : Statement (.txPllLock q) := by constructor <;> (dsimp only [Machine.Instr.foot]; decide)
theorem txFrameStart (l : LinkId) (b : FrameStart) : Statement (.txFrameStart l b) := by constructor <;> (dsimp only [Machine.Instr.foot]; decide)
theorem rxBlock (l : LinkId) (hdr : BitVec 2) (line : BitVec 64) : Statement (.rxBlock l hdr line) := by constructor <;> (dsimp only [Machine.Instr.foot]; decide)
theorem blockLockAcquire (l : LinkId) : Statement (.blockLockAcquire l) := by constructor <;> (dsimp only [Machine.Instr.foot]; decide)
theorem blockLockLoss (l : LinkMoment) : Statement (.blockLockLoss l) := by constructor <;> (dsimp only [Machine.Instr.foot]; decide)
theorem faSyncEntry (l : LinkId) : Statement (.faSyncEntry l) := by constructor <;> (dsimp only [Machine.Instr.foot]; decide)
theorem faSyncLoss (l : LinkMoment) : Statement (.faSyncLoss l) := by constructor <;> (dsimp only [Machine.Instr.foot]; decide)
theorem rxFrameDeliver (l : LinkId) (f : RxFrame) : Statement (.rxFrameDeliver l f) := by constructor <;> (dsimp only [Machine.Instr.foot]; decide)
theorem verdictForm (l : LinkId) (next : List Block) (t16 : Nat) : Statement (.verdictForm l next t16) := by constructor <;> (dsimp only [Machine.Instr.foot]; decide)
theorem lagDeadlineMiss (l : IngressId) (stamp : BitVec 32) : Statement (.lagDeadlineMiss l stamp) := by constructor <;> (dsimp only [Machine.Instr.foot]; decide)
theorem quadFailure (q : QuadId) (cause : Failure) : Statement (.quadFailure q cause) := by constructor <;> (dsimp only [Machine.Instr.foot]; decide)
theorem clockLaneAcquire (q : QuadId) : Statement (.clockLaneAcquire q) := by constructor <;> (dsimp only [Machine.Instr.foot]; decide)
theorem deskewDone (q : QuadId) (skew : Skews) : Statement (.deskewDone q skew) := by constructor <;> (dsimp only [Machine.Instr.foot]; decide)
theorem quadStateTimeout (q : QuadId) : Statement (.quadStateTimeout q) := by constructor <;> (dsimp only [Machine.Instr.foot]; decide)
theorem quadWaitEnd (q : QuadId) : Statement (.quadWaitEnd q) := by constructor <;> (dsimp only [Machine.Instr.foot]; decide)
theorem laneLoopSelect (m : Master) (q : QuadId) (loop : BitVec 2) : Statement (.laneLoopSelect m q loop) := by constructor <;> (dsimp only [Machine.Instr.foot]; decide)
theorem laneRestart (m : Master) (q : QuadId) : Statement (.laneRestart m q) := by constructor <;> (dsimp only [Machine.Instr.foot]; decide)
theorem prbsTxEnable (m : Master) (q : QuadId) (lanes : BitVec 4) : Statement (.prbsTxEnable m q lanes) := by constructor <;> (dsimp only [Machine.Instr.foot]; decide)
theorem prbsRxEnable (m : Master) (q : QuadId) (lanes : BitVec 4) : Statement (.prbsRxEnable m q lanes) := by constructor <;> (dsimp only [Machine.Instr.foot]; decide)
theorem prbsCheckerLock (l : LinkId) : Statement (.prbsCheckerLock l) := by constructor <;> (dsimp only [Machine.Instr.foot]; decide)
theorem prbsCheckerUnlock (l : LinkId) : Statement (.prbsCheckerUnlock l) := by constructor <;> (dsimp only [Machine.Instr.foot]; decide)
theorem adaptDecision (l : LinkId) (meas : EqMeasure) : Statement (.adaptDecision l meas) := by constructor <;> (dsimp only [Machine.Instr.foot]; decide)
theorem adaptRequestTimeout (l : LinkId) : Statement (.adaptRequestTimeout l) := by constructor <;> (dsimp only [Machine.Instr.foot]; decide)
theorem adaptSilenceTimeout (l : LinkId) : Statement (.adaptSilenceTimeout l) := by constructor <;> (dsimp only [Machine.Instr.foot]; decide)
theorem adaptTrainTimeout (l : LinkId) : Statement (.adaptTrainTimeout l) := by constructor <;> (dsimp only [Machine.Instr.foot]; decide)
theorem eyeScanStart (m : Master) (q : QuadId) : Statement (.eyeScanStart m q) := by constructor <;> (dsimp only [Machine.Instr.foot]; decide)
theorem eyeScanAbort (m : Master) (q : QuadId) : Statement (.eyeScanAbort m q) := by constructor <;> (dsimp only [Machine.Instr.foot]; decide)
theorem eyeScanPoint (q : QuadId) (mismatches : Nat) : Statement (.eyeScanPoint q mismatches) := by constructor <;> (dsimp only [Machine.Instr.foot]; decide)
theorem mboxSend (m : Master) (l : LinkId) (seq : BitVec 8) (len : BitVec 8) : Statement (.mboxSend m l seq len) := by constructor <;> (dsimp only [Machine.Instr.foot]; decide)
theorem userSend (m : Master) (l : LinkId) (seq : BitVec 8) (len : BitVec 8) : Statement (.userSend m l seq len) := by constructor <;> (dsimp only [Machine.Instr.foot]; decide)
theorem neighbourChangedClear (m : Master) (l : LinkId) : Statement (.neighbourChangedClear m l) := by constructor <;> (dsimp only [Machine.Instr.foot]; decide)
theorem losExit (l : LinkId) : Statement (.losExit l) := by constructor <;> (dsimp only [Machine.Instr.foot]; decide)
theorem lofEntry (l : LinkId) : Statement (.lofEntry l) := by constructor <;> (dsimp only [Machine.Instr.foot]; decide)
theorem lofExit (l : LinkId) : Statement (.lofExit l) := by constructor <;> (dsimp only [Machine.Instr.foot]; decide)
theorem blockTypeErrEntry (l : LinkId) : Statement (.blockTypeErrEntry l) := by constructor <;> (dsimp only [Machine.Instr.foot]; decide)
theorem blockTypeErrExit (l : LinkId) : Statement (.blockTypeErrExit l) := by constructor <;> (dsimp only [Machine.Instr.foot]; decide)
theorem rdiEntry (l : LinkId) : Statement (.rdiEntry l) := by constructor <;> (dsimp only [Machine.Instr.foot]; decide)
theorem rdiExit (l : LinkId) : Statement (.rdiExit l) := by constructor <;> (dsimp only [Machine.Instr.foot]; decide)
theorem discordEntry (l : LinkId) : Statement (.discordEntry l) := by constructor <;> (dsimp only [Machine.Instr.foot]; decide)
theorem discordExit (l : LinkId) : Statement (.discordExit l) := by constructor <;> (dsimp only [Machine.Instr.foot]; decide)
theorem lagLateRaise (l : IngressId) : Statement (.lagLateRaise l) := by constructor <;> (dsimp only [Machine.Instr.foot]; decide)
theorem lagLateClear (l : IngressId) : Statement (.lagLateClear l) := by constructor <;> (dsimp only [Machine.Instr.foot]; decide)
theorem lagStampRangeRaise (l : IngressId) : Statement (.lagStampRangeRaise l) := by constructor <;> (dsimp only [Machine.Instr.foot]; decide)
theorem lagStampRangeClear (l : IngressId) : Statement (.lagStampRangeClear l) := by constructor <;> (dsimp only [Machine.Instr.foot]; decide)
theorem lagMarginClear (l : IngressId) : Statement (.lagMarginClear l) := by constructor <;> (dsimp only [Machine.Instr.foot]; decide)
theorem lagStackOff (m : Master) (mask : BitVec 4) : Statement (.lagStackOff m mask) := by constructor <;> (dsimp only [Machine.Instr.foot]; decide)
theorem hbmTempTrip (k : StackId) : Statement (.hbmTempTrip k) := by constructor <;> (dsimp only [Machine.Instr.foot]; decide)
theorem stackUeLoss (k : StackId) : Statement (.stackUeLoss k) := by constructor <;> (dsimp only [Machine.Instr.foot]; decide)
theorem stackFallbackEntry (k : StackId) : Statement (.stackFallbackEntry k) := by constructor <;> (dsimp only [Machine.Instr.foot]; decide)
theorem evbMove : Statement (.evbMove) := by constructor <;> (dsimp only [Machine.Instr.foot]; decide)
theorem lagStackRestore (m : Master) (mask : BitVec 4) : Statement (.lagStackRestore m mask) := by constructor <;> (dsimp only [Machine.Instr.foot]; decide)
theorem stackRestoreDone (k : StackId) : Statement (.stackRestoreDone k) := by constructor <;> (dsimp only [Machine.Instr.foot]; decide)
theorem stackRestoreFail (k : StackId) : Statement (.stackRestoreFail k) := by constructor <;> (dsimp only [Machine.Instr.foot]; decide)
theorem fallbackReleaseEnd (l : IngressId) : Statement (.fallbackReleaseEnd l) := by constructor <;> (dsimp only [Machine.Instr.foot]; decide)
theorem lagLinkCfgWrite (m : Master) (l : IngressId) (value : BitVec 64) : Statement (.lagLinkCfgWrite m l value) := by constructor <;> (dsimp only [Machine.Instr.foot]; decide)
theorem lagArrExtremesRead (m : Master) (l : IngressId) (max : Bool) : Statement (.lagArrExtremesRead m l max) := by constructor <;> (dsimp only [Machine.Instr.foot]; decide)
theorem protCmdClear (m : Master) (g : GroupId) : Statement (.protCmdClear m g) := by constructor <;> (dsimp only [Machine.Instr.foot]; decide)
theorem protCmdManualP (m : Master) (g : GroupId) : Statement (.protCmdManualP m g) := by constructor <;> (dsimp only [Machine.Instr.foot]; decide)
theorem protCmdManualS (m : Master) (g : GroupId) : Statement (.protCmdManualS m g) := by constructor <;> (dsimp only [Machine.Instr.foot]; decide)
theorem protCmdForceP (m : Master) (g : GroupId) : Statement (.protCmdForceP m g) := by constructor <;> (dsimp only [Machine.Instr.foot]; decide)
theorem protCmdForceS (m : Master) (g : GroupId) : Statement (.protCmdForceS m g) := by constructor <;> (dsimp only [Machine.Instr.foot]; decide)
theorem protCmdLockout (m : Master) (g : GroupId) : Statement (.protCmdLockout m g) := by constructor <;> (dsimp only [Machine.Instr.foot]; decide)
theorem protCfgWrite (m : Master) (g : GroupId) (value : BitVec 64) : Statement (.protCfgWrite m g value) := by constructor <;> (dsimp only [Machine.Instr.foot]; decide)
theorem protSfEntry (g : GroupId) (copy : Copy) : Statement (.protSfEntry g copy) := by constructor <;> (dsimp only [Machine.Instr.foot]; decide)
theorem protSfExit (g : GroupId) (copy : Copy) : Statement (.protSfExit g copy) := by constructor <;> (dsimp only [Machine.Instr.foot]; decide)
theorem protSdWindowEnd : Statement (.protSdWindowEnd) := by constructor <;> (dsimp only [Machine.Instr.foot]; decide)
theorem protWtrEnd (g : GroupId) : Statement (.protWtrEnd g) := by constructor <;> (dsimp only [Machine.Instr.foot]; decide)
theorem protMisalignedRaise (g : GroupId) : Statement (.protMisalignedRaise g) := by constructor <;> (dsimp only [Machine.Instr.foot]; decide)
theorem protMisalignedClear (g : GroupId) : Statement (.protMisalignedClear g) := by constructor <;> (dsimp only [Machine.Instr.foot]; decide)
theorem protRxFreshExpire (bridge : Bool) (i : GroupId) (leg : Copy) : Statement (.protRxFreshExpire bridge i leg) := by constructor <;> (dsimp only [Machine.Instr.foot]; decide)
theorem scheduleOverrunClear (m : Master) : Statement (.scheduleOverrunClear m) := by constructor <;> (dsimp only [Machine.Instr.foot]; decide)
theorem scheduleClashClear (m : Master) : Statement (.scheduleClashClear m) := by constructor <;> (dsimp only [Machine.Instr.foot]; decide)
theorem coreSlackRead (m : Master) (k : StationId) : Statement (.coreSlackRead m k) := by constructor <;> (dsimp only [Machine.Instr.foot]; decide)
theorem libraryWrite (m : Master) (slot : SlotId) (off : Nat) (data : List (BitVec 8)) : Statement (.libraryWrite m slot off data) := by constructor <;> (dsimp only [Machine.Instr.foot]; decide)
theorem almCheck (m : Master) (slot : SlotId) : Statement (.almCheck m slot) := by constructor <;> (dsimp only [Machine.Instr.foot]; decide)
theorem almCheckDone (readUe : Option Nat) : Statement (.almCheckDone readUe) := by constructor <;> (dsimp only [Machine.Instr.foot]; decide)
theorem almStage (m : Master) (slot : SlotId) : Statement (.almStage m slot) := by constructor <;> (dsimp only [Machine.Instr.foot]; decide)
theorem almStageDone (readUe : Bool) : Statement (.almStageDone readUe) := by constructor <;> (dsimp only [Machine.Instr.foot]; decide)
theorem almArm (m : Master) : Statement (.almArm m) := by constructor <;> (dsimp only [Machine.Instr.foot]; decide)
theorem almDisarm (m : Master) : Statement (.almDisarm m) := by constructor <;> (dsimp only [Machine.Instr.foot]; decide)
theorem almRejoin (m : Master) : Statement (.almRejoin m) := by constructor <;> (dsimp only [Machine.Instr.foot]; decide)
theorem epochCommit : Statement (.epochCommit) := by constructor <;> (dsimp only [Machine.Instr.foot]; decide)
theorem epochSwap : Statement (.epochSwap) := by constructor <;> (dsimp only [Machine.Instr.foot]; decide)
theorem epochSumSwap : Statement (.epochSumSwap) := by constructor <;> (dsimp only [Machine.Instr.foot]; decide)
theorem epochEmitSwap : Statement (.epochEmitSwap) := by constructor <;> (dsimp only [Machine.Instr.foot]; decide)
theorem epochSwapComplete : Statement (.epochSwapComplete) := by constructor <;> (dsimp only [Machine.Instr.foot]; decide)
theorem epochMissedClear (m : Master) : Statement (.epochMissedClear m) := by constructor <;> (dsimp only [Machine.Instr.foot]; decide)
theorem trimGo (m : Master) (output : Bool) (index : BitVec 21) (gain : BitVec 12) : Statement (.trimGo m output index gain) := by constructor <;> (dsimp only [Machine.Instr.foot]; decide)
theorem trimApply : Statement (.trimApply) := by constructor <;> (dsimp only [Machine.Instr.foot]; decide)
theorem tableWindowWrite (m : Master) (addr : Nat) (data : List (Option (BitVec 8))) (cyc : Nat) : Statement (.tableWindowWrite m addr data cyc) := by constructor <;> (dsimp only [Machine.Instr.foot]; decide)
theorem tableWindowApply (j : ReservedId) : Statement (.tableWindowApply j) := by constructor <;> (dsimp only [Machine.Instr.foot]; decide)
theorem auditPassEnd : Statement (.auditPassEnd) := by constructor <;> (dsimp only [Machine.Instr.foot]; decide)
theorem almAuditCtrlWrite (m : Master) (en : Bool) : Statement (.almAuditCtrlWrite m en) := by constructor <;> (dsimp only [Machine.Instr.foot]; decide)
theorem refEvent (i : PinRefId) (t16 : Nat) (freq : Int) : Statement (.refEvent i t16 freq) := by constructor <;> (dsimp only [Machine.Instr.foot]; decide)
theorem refEventMissing (i : RefId) : Statement (.refEventMissing i) := by constructor <;> (dsimp only [Machine.Instr.foot]; decide)
theorem refQualify (i : RefId) : Statement (.refQualify i) := by constructor <;> (dsimp only [Machine.Instr.foot]; decide)
theorem refWtrEnd (i : RefId) : Statement (.refWtrEnd i) := by constructor <;> (dsimp only [Machine.Instr.foot]; decide)
theorem timCmdClear (m : Master) : Statement (.timCmdClear m) := by constructor <;> (dsimp only [Machine.Instr.foot]; decide)
theorem timCmdForceRef (m : Master) (ref : BitVec 4) : Statement (.timCmdForceRef m ref) := by constructor <;> (dsimp only [Machine.Instr.foot]; decide)
theorem timCmdForceHoldover (m : Master) : Statement (.timCmdForceHoldover m) := by constructor <;> (dsimp only [Machine.Instr.foot]; decide)
theorem timCmdAdopt (m : Master) : Statement (.timCmdAdopt m) := by constructor <;> (dsimp only [Machine.Instr.foot]; decide)
theorem timDcoWrite (m : Master) (hostLocked : Bool) (offset : BitVec 32) : Statement (.timDcoWrite m hostLocked offset) := by constructor <;> (dsimp only [Machine.Instr.foot]; decide)
theorem holdoverSecondEnd : Statement (.holdoverSecondEnd) := by constructor <;> (dsimp only [Machine.Instr.foot]; decide)
theorem dcoLimitClear : Statement (.dcoLimitClear) := by constructor <;> (dsimp only [Machine.Instr.foot]; decide)
theorem exchangeStart (l : IngressId) : Statement (.exchangeStart l) := by constructor <;> (dsimp only [Machine.Instr.foot]; decide)
theorem probeReceive (l : IngressId) : Statement (.probeReceive l) := by constructor <;> (dsimp only [Machine.Instr.foot]; decide)
theorem reportReceive (l : IngressId) : Statement (.reportReceive l) := by constructor <;> (dsimp only [Machine.Instr.foot]; decide)
theorem exchangeTimeout (l : IngressId) : Statement (.exchangeTimeout l) := by constructor <;> (dsimp only [Machine.Instr.foot]; decide)
theorem tickAdopt : Statement (.tickAdopt) := by constructor <;> (dsimp only [Machine.Instr.foot]; decide)
theorem adoptWaitEnd : Statement (.adoptWaitEnd) := by constructor <;> (dsimp only [Machine.Instr.foot]; decide)
theorem mateFrameReceive : Statement (.mateFrameReceive) := by constructor <;> (dsimp only [Machine.Instr.foot]; decide)
theorem mateRoleChange : Statement (.mateRoleChange) := by constructor <;> (dsimp only [Machine.Instr.foot]; decide)
theorem mateJoinWaitEnd : Statement (.mateJoinWaitEnd) := by constructor <;> (dsimp only [Machine.Instr.foot]; decide)
theorem mateHbEdge (period : Nat) : Statement (.mateHbEdge period) := by constructor <;> (dsimp only [Machine.Instr.foot]; decide)
theorem mateHbLost : Statement (.mateHbLost) := by constructor <;> (dsimp only [Machine.Instr.foot]; decide)
theorem mateHbLossClassify : Statement (.mateHbLossClassify) := by constructor <;> (dsimp only [Machine.Instr.foot]; decide)
theorem mateHbRegain : Statement (.mateHbRegain) := by constructor <;> (dsimp only [Machine.Instr.foot]; decide)
theorem mateLinkDownRaise : Statement (.mateLinkDownRaise) := by constructor <;> (dsimp only [Machine.Instr.foot]; decide)
theorem mateLinkDownClear : Statement (.mateLinkDownClear) := by constructor <;> (dsimp only [Machine.Instr.foot]; decide)
theorem mirrorApply : Statement (.mirrorApply) := by constructor <;> (dsimp only [Machine.Instr.foot]; decide)
theorem resyncRecordApply : Statement (.resyncRecordApply) := by constructor <;> (dsimp only [Machine.Instr.foot]; decide)
theorem resyncSettled : Statement (.resyncSettled) := by constructor <;> (dsimp only [Machine.Instr.foot]; decide)
theorem mateUnsettledTimeout : Statement (.mateUnsettledTimeout) := by constructor <;> (dsimp only [Machine.Instr.foot]; decide)
theorem mateDiscrepancyClear : Statement (.mateDiscrepancyClear) := by constructor <;> (dsimp only [Machine.Instr.foot]; decide)
theorem mateWatchExpire (w : WatchId) : Statement (.mateWatchExpire w) := by constructor <;> (dsimp only [Machine.Instr.foot]; decide)
theorem mateCmdSwap (m : Master) : Statement (.mateCmdSwap m) := by constructor <;> (dsimp only [Machine.Instr.foot]; decide)
theorem mateCmdClearFault (m : Master) : Statement (.mateCmdClearFault m) := by constructor <;> (dsimp only [Machine.Instr.foot]; decide)
theorem mateCmdResync (m : Master) : Statement (.mateCmdResync m) := by constructor <;> (dsimp only [Machine.Instr.foot]; decide)
theorem tableRestore (addr : BitVec 32) (readFails : Bool) : Statement (.tableRestore addr readFails) := by constructor <;> (dsimp only [Machine.Instr.foot]; decide)
theorem trackerThreshold (n : TrackId) : Statement (.trackerThreshold n) := by constructor <;> (dsimp only [Machine.Instr.foot]; decide)
theorem trackerWriteback (n : TrackId) : Statement (.trackerWriteback n) := by constructor <;> (dsimp only [Machine.Instr.foot]; decide)
theorem trackerEntryFree (n : TrackId) : Statement (.trackerEntryFree n) := by constructor <;> (dsimp only [Machine.Instr.foot]; decide)
theorem testStepStart (fails : List (BitVec 32 × Nat)) : Statement (.testStepStart fails) := by constructor <;> (dsimp only [Machine.Instr.foot]; decide)
theorem testStepEnd : Statement (.testStepEnd) := by constructor <;> (dsimp only [Machine.Instr.foot]; decide)
theorem eccTestNow (m : Master) : Statement (.eccTestNow m) := by constructor <;> (dsimp only [Machine.Instr.foot]; decide)
theorem scrubStart (m : Master) (cmd : BitVec 64) : Statement (.scrubStart m cmd) := by constructor <;> (dsimp only [Machine.Instr.foot]; decide)
theorem scrubAbort (m : Master) : Statement (.scrubAbort m) := by constructor <;> (dsimp only [Machine.Instr.foot]; decide)
theorem scrubPassEnd : Statement (.scrubPassEnd) := by constructor <;> (dsimp only [Machine.Instr.foot]; decide)
theorem fuseBurn (m : Master) (entry : BitVec 32) : Statement (.fuseBurn m entry) := by constructor <;> (dsimp only [Machine.Instr.foot]; decide)
theorem fuseBurnDone (readBack : BitVec 32) : Statement (.fuseBurnDone readBack) := by constructor <;> (dsimp only [Machine.Instr.foot]; decide)
theorem hbmRepairGo (m : Master) (cand : CandId) : Statement (.hbmRepairGo m cand) := by constructor <;> (dsimp only [Machine.Instr.foot]; decide)
theorem hbmRepairDone (res : RepairResult) : Statement (.hbmRepairDone res) := by constructor <;> (dsimp only [Machine.Instr.foot]; decide)
theorem hbmEcsRead (counts : List Nat) : Statement (.hbmEcsRead counts) := by constructor <;> (dsimp only [Machine.Instr.foot]; decide)
theorem eccUeClear (m : Master) : Statement (.eccUeClear m) := by constructor <;> (dsimp only [Machine.Instr.foot]; decide)
theorem eccHardClear (m : Master) : Statement (.eccHardClear m) := by constructor <;> (dsimp only [Machine.Instr.foot]; decide)
theorem eccTestFailClear (m : Master) : Statement (.eccTestFailClear m) := by constructor <;> (dsimp only [Machine.Instr.foot]; decide)
theorem eccTrackFullClear (m : Master) : Statement (.eccTrackFullClear m) := by constructor <;> (dsimp only [Machine.Instr.foot]; decide)
theorem trimLostClear (m : Master) : Statement (.trimLostClear m) := by constructor <;> (dsimp only [Machine.Instr.foot]; decide)
theorem hostLinkUp (p : Port) : Statement (.hostLinkUp p) := by constructor <;> (dsimp only [Machine.Instr.foot]; decide)
theorem hostRead (p : Port) (bar2 : Bool) (off : Nat) (len : Nat) (cyc : Nat) (busy : Bool) : Statement (.hostRead p bar2 off len cyc busy) := by constructor <;> (dsimp only [Machine.Instr.foot]; decide)
theorem hostWrite (p : Port) (bar2 : Bool) (off : Nat) (data : List (Option (BitVec 8))) (cyc : Nat) (busy : Bool) : Statement (.hostWrite p bar2 off data cyc busy) := by constructor <;> (dsimp only [Machine.Instr.foot]; decide)
theorem busGrant (t : TargetId) (cyc : Nat) (waited : Nat) : Statement (.busGrant t cyc waited) := by constructor <;> (dsimp only [Machine.Instr.foot]; decide)
theorem busErrLastRead (m : Master) (of : Master) : Statement (.busErrLastRead m of) := by constructor <;> (dsimp only [Machine.Instr.foot]; decide)
theorem atomicFetchadd (p : Port) (addr : Nat) (wide : Bool) (data : BitVec 64) : Statement (.atomicFetchadd p addr wide data) := by constructor <;> (dsimp only [Machine.Instr.foot]; decide)
theorem atomicSwap (p : Port) (addr : Nat) (wide : Bool) (data : BitVec 64) : Statement (.atomicSwap p addr wide data) := by constructor <;> (dsimp only [Machine.Instr.foot]; decide)
theorem atomicCas (p : Port) (addr : Nat) (wide : Bool) (cmp : BitVec 64) (data : BitVec 64) : Statement (.atomicCas p addr wide cmp data) := by constructor <;> (dsimp only [Machine.Instr.foot]; decide)
theorem doorbellSet (m : Master) (n : BankId) (w : DoorbellId) (data : BitVec 64) : Statement (.doorbellSet m n w data) := by constructor <;> (dsimp only [Machine.Instr.foot]; decide)
theorem doorbellClear (m : Master) (n : BankId) (w : DoorbellId) (data : BitVec 64) : Statement (.doorbellClear m n w data) := by constructor <;> (dsimp only [Machine.Instr.foot]; decide)
theorem doorbellFetchClear (m : Master) (n : BankId) (w : DoorbellId) : Statement (.doorbellFetchClear m n w) := by constructor <;> (dsimp only [Machine.Instr.foot]; decide)
theorem doorbellAdd (m : Master) (n : BankId) (w : DoorbellId) (data : BitVec 64) : Statement (.doorbellAdd m n w data) := by constructor <;> (dsimp only [Machine.Instr.foot]; decide)
theorem scratchClaim (m : Master) (n : BankId) : Statement (.scratchClaim m n) := by constructor <;> (dsimp only [Machine.Instr.foot]; decide)
theorem scratchRelease (m : Master) (n : BankId) : Statement (.scratchRelease m n) := by constructor <;> (dsimp only [Machine.Instr.foot]; decide)
theorem scratchGive (m : Master) (n : BankId) (dest : BitVec 3) : Statement (.scratchGive m n dest) := by constructor <;> (dsimp only [Machine.Instr.foot]; decide)
theorem semTry (m : Master) (i : SemId) (cyc : Nat) : Statement (.semTry m i cyc) := by constructor <;> (dsimp only [Machine.Instr.foot]; decide)
theorem semRelease (m : Master) (i : SemId) : Statement (.semRelease m i) := by constructor <;> (dsimp only [Machine.Instr.foot]; decide)
theorem semArm (m : Master) (i : SemId) (data : BitVec 64) (cyc : Nat) : Statement (.semArm m i data cyc) := by constructor <;> (dsimp only [Machine.Instr.foot]; decide)
theorem semForce (m : Master) (i : SemId) : Statement (.semForce m i) := by constructor <;> (dsimp only [Machine.Instr.foot]; decide)
theorem masterReset (m : Master) (linkDown : Bool) : Statement (.masterReset m linkDown) := by constructor <;> (dsimp only [Machine.Instr.foot]; decide)
theorem remapWrite (m : Master) (remap : Bool) : Statement (.remapWrite m remap) := by constructor <;> (dsimp only [Machine.Instr.foot]; decide)
theorem bootLoaderStart : Statement (.bootLoaderStart) := by constructor <;> (dsimp only [Machine.Instr.foot]; decide)
theorem sysBootRun (m : Master) : Statement (.sysBootRun m) := by constructor <;> (dsimp only [Machine.Instr.foot]; decide)
theorem loadImage : Statement (.loadImage) := by constructor <;> (dsimp only [Machine.Instr.foot]; decide)
theorem checkBoot : Statement (.checkBoot) := by constructor <;> (dsimp only [Machine.Instr.foot]; decide)
theorem stageBoot : Statement (.stageBoot) := by constructor <;> (dsimp only [Machine.Instr.foot]; decide)
theorem activate : Statement (.activate) := by constructor <;> (dsimp only [Machine.Instr.foot]; decide)
theorem checkRest : Statement (.checkRest) := by constructor <;> (dsimp only [Machine.Instr.foot]; decide)
theorem bootStepWrite : Statement (.bootStepWrite) := by constructor <;> (dsimp only [Machine.Instr.foot]; decide)
theorem bootStepPoll : Statement (.bootStepPoll) := by constructor <;> (dsimp only [Machine.Instr.foot]; decide)
theorem bootStepWait : Statement (.bootStepWait) := by constructor <;> (dsimp only [Machine.Instr.foot]; decide)
theorem bootStepEnd : Statement (.bootStepEnd) := by constructor <;> (dsimp only [Machine.Instr.foot]; decide)
theorem funcEnable (f : FuncId) : Statement (.funcEnable f) := by constructor <;> (dsimp only [Machine.Instr.foot]; decide)
theorem funcDisable (f : FuncId) : Statement (.funcDisable f) := by constructor <;> (dsimp only [Machine.Instr.foot]; decide)
theorem funcStartDone (f : FuncId) : Statement (.funcStartDone f) := by constructor <;> (dsimp only [Machine.Instr.foot]; decide)
theorem funcStartFail (f : FuncId) : Statement (.funcStartFail f) := by constructor <;> (dsimp only [Machine.Instr.foot]; decide)
theorem funcStopDone (f : FuncId) : Statement (.funcStopDone f) := by constructor <;> (dsimp only [Machine.Instr.foot]; decide)
theorem nvmProgram (m : Master) (addr : BitVec 28) (len : BitVec 13) : Statement (.nvmProgram m addr len) := by constructor <;> (dsimp only [Machine.Instr.foot]; decide)
theorem nvmErase (m : Master) (addr : BitVec 28) : Statement (.nvmErase m addr) := by constructor <;> (dsimp only [Machine.Instr.foot]; decide)
theorem nvmCmdDone (res : NvmResult) : Statement (.nvmCmdDone res) := by constructor <;> (dsimp only [Machine.Instr.foot]; decide)
theorem snapshotAuto : Statement (.snapshotAuto) := by constructor <;> (dsimp only [Machine.Instr.foot]; decide)
theorem pmSnap (m : Master) : Statement (.pmSnap m) := by constructor <;> (dsimp only [Machine.Instr.foot]; decide)
theorem snapshotArmedTick : Statement (.snapshotArmedTick) := by constructor <;> (dsimp only [Machine.Instr.foot]; decide)
theorem snapshotWritten : Statement (.snapshotWritten) := by constructor <;> (dsimp only [Machine.Instr.foot]; decide)
theorem bwWindowEnd : Statement (.bwWindowEnd) := by constructor <;> (dsimp only [Machine.Instr.foot]; decide)
theorem pmBwCfgWrite (m : Master) (window : BitVec 16) : Statement (.pmBwCfgWrite m window) := by constructor <;> (dsimp only [Machine.Instr.foot]; decide)
theorem pmSecondEnd : Statement (.pmSecondEnd) := by constructor <;> (dsimp only [Machine.Instr.foot]; decide)
theorem alarmLatchClear (m : Master) (a : AlarmId) (w : Fin 4) (bits : BitVec 64) : Statement (.alarmLatchClear m a w bits) := by constructor <;> (dsimp only [Machine.Instr.foot]; decide)
theorem intSrcClear (m : Master) (p : Port) (bits : BitVec 12) : Statement (.intSrcClear m p bits) := by constructor <;> (dsimp only [Machine.Instr.foot]; decide)
theorem logHourly : Statement (.logHourly) := by constructor <;> (dsimp only [Machine.Instr.foot]; decide)
theorem logFlush (m : Master) : Statement (.logFlush m) := by constructor <;> (dsimp only [Machine.Instr.foot]; decide)
theorem logStoreStart : Statement (.logStoreStart) := by constructor <;> (dsimp only [Machine.Instr.foot]; decide)
theorem logStoreDone (verified : Bool) : Statement (.logStoreDone verified) := by constructor <;> (dsimp only [Machine.Instr.foot]; decide)
theorem tempUpdate (tj : BitVec 16) : Statement (.tempUpdate tj) := by constructor <;> (dsimp only [Machine.Instr.foot]; decide)
theorem jtagTapReset : Statement (.jtagTapReset) := by constructor <;> (dsimp only [Machine.Instr.foot]; decide)
theorem jtagInstruction (i : JtagInstr) : Statement (.jtagInstruction i) := by constructor <;> (dsimp only [Machine.Instr.foot]; decide)
theorem registerWrite (m : Master) (addr : Nat) (value : BitVec 64) (part : Part) : Statement (.registerWrite m addr value part) := by constructor <;> (dsimp only [Machine.Instr.foot]; decide)
theorem lossOfSignal (l : LinkMoment) : Statement (.lossOfSignal l) := by constructor <;> (dsimp only [Machine.Instr.foot]; decide)
theorem tickStop : Statement (.tickStop) := by constructor <;> (dsimp only [Machine.Instr.foot]; decide)
theorem endOfP2 (flashMiB : Option Nat) : Statement (.endOfP2 flashMiB) := by constructor <;> (dsimp only [Machine.Instr.foot]; decide)
theorem endOfP3 (bist : BistResult) : Statement (.endOfP3 bist) := by constructor <;> (dsimp only [Machine.Instr.foot]; decide)
theorem configurationRequest (p : Port) (req : CfgReq) : Statement (.configurationRequest p req) := by constructor <;> (dsimp only [Machine.Instr.foot]; decide)
theorem sysTempRead (m : Master) (part : Part) : Statement (.sysTempRead m part) := by constructor <;> (dsimp only [Machine.Instr.foot]; decide)
theorem hbmTemperatureReport (k : StackId) (hot : Bool) : Statement (.hbmTemperatureReport k hot) := by constructor <;> (dsimp only [Machine.Instr.foot]; decide)

end Sys2Proof.Laws.Fixed
end

