-- ==== Sys2Proof/Laws/Quads.lean ====
section
/-! SUPPORT. What entering a state of a quad leaves to be read (02 R22 to R29, R45 to R50). -/

namespace Sys2Proof.Machine

/-- A field that every round of a loop leaves alone is left alone by the loop. -/
theorem State.rd_each {α : Type} {g : Field} {j : Nat} (l : List α) (h : α → State → State) (s : State)
    (hh : ∀ a y, (h a y).rd g j = y.rd g j) : (s.each l h).rd g j = s.rd g j := by
  unfold State.each
  induction l generalizing s with
  | nil => rfl
  | cons a l ih => exact (ih _).trans (hh a s)

theorem State.rd_setLaneBit (s : State) {f g : Field} (l j : Nat) (b : Bool) (h : f.apart g = true) (hg : g.lo + g.width ≤ 64) :
    (s.setLaneBit f l b).rd g j = s.rd g j := State.rd_wr_other _ _ (.inr h) hg

/-- Fields of LANE_STATE that entering a state of a quad never writes. -/
def keptByEntry (g : Field) : Bool :=
  F.laneStateInFrame.apart g && F.laneStateBlockLock.apart g && F.laneStateClkLock.apart g && F.laneStateTrained.apart g &&
    F.laneStateFenced.apart g && decide (g.reg = .laneState) && decide (g.lo + g.width ≤ 64)

section
variable {g : Field} (hg : keptByEntry g = true)
include hg

theorem keptByEntry.parts : F.laneStateInFrame.apart g = true ∧ F.laneStateBlockLock.apart g = true ∧ F.laneStateClkLock.apart g = true ∧
    F.laneStateTrained.apart g = true ∧ F.laneStateFenced.apart g = true ∧ g.reg = .laneState ∧ g.lo + g.width ≤ 64 := by
  simp only [keptByEntry, Bool.and_eq_true, decide_eq_true_eq] at hg
  obtain ⟨⟨⟨⟨⟨⟨h1, h2⟩, h3⟩, h4⟩, h5⟩, h6⟩, h7⟩ := hg
  exact ⟨h1, h2, h3, h4, h5, h6, h7⟩

theorem keptByEntry.rd_loseSync (s : State) (l t16 j : Nat) : (s.loseSync l t16).rd g j = s.rd g j := by
  obtain ⟨h1, -, -, -, -, h6, h7⟩ := keptByEntry.parts hg
  have hw : ∀ (x : State) (l : Nat), ((x.rdiExit l).linkRefLost l).rd g j = x.rd g j := fun x l =>
    ((State.linkRefLost_within _ l).rd (by rw [h6]; decide) j).trans ((State.rdiExit_within x l).rd (by rw [h6]; decide) j)
  unfold State.loseSync
  rcases Bool.eq_false_or_eq_true (s.inSync l) with hi | hi
  · rw [if_pos hi]
    have y : ∀ x : State, (State.setLaneBit (State.setFlag (State.wr (State.count x .linkOofEntry l) F.linkStateFaState l faHunt) F.linkStateOof l true)
        F.laneStateInFrame l false).rd g j = x.rd g j := by
      intro x
      rw [State.rd_setLaneBit _ _ _ _ h1 h7, State.rd_setFlag_other _ _ (.inr (by simp [Field.apart, h6])) h7,
        State.rd_wr_other _ _ (.inr (by simp [Field.apart, h6])) h7]
      exact State.rd_congr (State.word_count_other _ (.inl (by rw [h6]; decide)))
    have yv := y ((s.formVerdict l [] t16).disqualify l)
    rw [(State.disqualify_within ..).rd (by rw [h6]; decide) j, (State.formVerdict_within ..).rd (by rw [h6]; decide) j] at yv
    have sr : ∀ (x : State) (r : RxH), (x.setRx l r).rd g j = x.rd g j := fun _ _ => rfl
    rw [hw, sr]
    exact yv
  · rw [if_neg (by rw [hi]; decide)]
    have sr : ∀ (x : State) (r : RxH), (x.setRx l r).rd g j = x.rd g j := fun _ _ => rfl
    rw [sr]
    exact State.rd_wr_other s faHunt (.inr (by simp [Field.apart, h6])) h7

theorem keptByEntry.rd_dropLock (s : State) (l t16 j : Nat) : (s.dropLock l t16).rd g j = s.rd g j := by
  obtain ⟨-, h2, -, -, -, h6, h7⟩ := keptByEntry.parts hg
  show State.rd (State.setFlag (State.setLaneBit _ _ _ _) _ _ _) g j = _
  rw [State.rd_setFlag_other _ _ (.inr (by simp [Field.apart, h6])) h7, State.rd_setLaneBit _ _ _ _ h2 h7]
  exact keptByEntry.rd_loseSync hg s l t16 j

theorem keptByEntry.rd_quadDrop (hp : F.laneStatePllLock.apart g = true) (s : State) (q st t16 j : Nat) :
    (s.quadDrop q st t16).rd g j = s.rd g j := by
  obtain ⟨-, -, h3, -, -, h6, h7⟩ := keptByEntry.parts hg
  have k : ∀ x : State, (if st ≤ qClkacq ∨ st = qWait then
      State.setFlag (x.each (linksOf q) fun l s => s.dropLock l t16) F.laneStateClkLock q false else x).rd g j = x.rd g j := by
    intro x
    split
    · rw [State.rd_setFlag_other _ _ (.inr h3) h7]
      exact State.rd_each _ _ _ fun l y => keptByEntry.rd_dropLock hg y l t16 j
    · rfl
  unfold State.quadDrop
  simp only [Bool.or_eq_true, decide_eq_true_eq]
  split
  · refine (State.rd_each _ _ _ fun l y => (State.txStop_within y l).rd (by rw [h6]; decide) j).trans ?_
    rw [State.rd_setFlag_other _ _ (.inr hp) h7, k]
  · exact k s

theorem keptByEntry.rd_fenceSync (s : State) (l j : Nat) (moved : Bool × Bool × Bool) : (s.fenceSync l moved).rd g j = s.rd g j := by
  obtain ⟨-, -, -, -, h5, h6, h7⟩ := keptByEntry.parts hg
  unfold State.fenceSync
  dsimp only
  split
  · rfl
  · split
    · exact ((State.clear_within _ A.txfirFence l).rd (by rw [h6]; decide) j).trans (State.rd_setLaneBit _ _ _ _ h5 h7)
    · split
      · exact ((State.raise_within _ A.txfirFence l).rd (by rw [h6]; decide) j).trans (State.rd_setLaneBit _ _ _ _ h5 h7)
      · rfl

theorem keptByEntry.rd_after (s : State) (l j : Nat) :
    (s.loadPreset l).rd g j = s.rd g j ∧ (s.linkUnused l).rd g j = s.rd g j ∧ (s.enterTrain l).rd g j = s.rd g j ∧
      (((s.setRx l { s.rx l with oofRun := 0 }).lofExit l).rd g j = s.rd g j) := by
  obtain ⟨-, -, -, h4, h5, h6, h7⟩ := keptByEntry.parts hg
  refine ⟨?_, ?_, ?_, ?_⟩
  · exact (keptByEntry.rd_fenceSync hg _ l j _).trans (State.rd_congr (State.word_setWord_other _ _ (.inl (by rw [h6]; decide))))
  · show State.rd (State.setLaneBit _ _ _ _) g j = _
    rw [State.rd_setLaneBit _ _ _ _ h5 h7]
    rw [State.rd_setFlag_other _ _ (.inr (by simp [Field.apart, h6])) h7]
    refine ((State.clear_within _ A.justifyRange l).rd (by rw [h6]; decide) j).trans ?_
    refine ((State.clear_within _ A.adaptTimeout l).rd (by rw [h6]; decide) j).trans ?_
    refine ((State.clear_within _ A.txfirFence l).rd (by rw [h6]; decide) j).trans ?_
    rw [State.rd_setFlag_other _ _ (.inr (by simp [Field.apart, h6])) h7, State.rd_setFlag_other _ _ (.inr (by simp [Field.apart, h6])) h7,
      State.rd_setFlag_other _ _ (.inr (by simp [Field.apart, h6])) h7]
    refine ((State.typeErrExit_within _ l).rd (by rw [h6]; decide) j).trans ?_
    refine ((State.discordExit_within _ l).rd (by rw [h6]; decide) j).trans ?_
    exact ((State.rdiExit_within _ l).rd (by rw [h6]; decide) j).trans ((State.lofExit_within _ l).rd (by rw [h6]; decide) j)
  · refine ((State.clear_within _ A.txfirFence l).rd (by rw [h6]; decide) j).trans ?_
    rw [State.rd_setLaneBit _ _ _ _ h5 h7, State.rd_setLaneBit _ _ _ _ h4 h7]
    rfl
  · exact (State.lofExit_within _ l).rd (by rw [h6]; decide) j
end

/-- What entering a state of a quad comes to: QUAD_DOWN judged on a state in which QSTATE is the state entered and the kept fields are as before. -/
theorem State.enterQuad_eq (s : State) (q st t16 : Nat) (h : st < 8) :
    ∃ y : State, s.enterQuad q st t16 = y.quadDown q ∧ y.qstate q = st ∧
      (∀ g : Field, keptByEntry g = true → F.laneStateQstate.apart g = true → (F.laneStatePllLock.apart g = true ∨ qPll < st) →
        ∀ j, y.rd g j = s.rd g j) := by
  have e : ∀ x : State, ∃ y : State,
      (let x := if st = qPll then (x.count .laneBringupTry q).each (linksOf q) fun l s => s.loadPreset l else x
        let x := if st = qOff then x.each (linksOf q) fun l s => s.linkUnused l else x
        let x := if st = qUp then x.each (linksOf q) fun l s => s.enterTrain l else x
        if st = qTest then x.each (linksOf q) fun l s => (s.setRx l { s.rx l with oofRun := 0 }).lofExit l else x) = y ∧
      ∀ g : Field, keptByEntry g = true → ∀ j, y.rd g j = x.rd g j := by
    intro x
    refine ⟨_, rfl, fun g hg j => ?_⟩
    have hr := (keptByEntry.parts hg).2.2.2.2.2.1
    have a := fun (x : State) l => keptByEntry.rd_after hg x l j
    have k1 : (if st = qPll then (x.count .laneBringupTry q).each (linksOf q) fun l s => s.loadPreset l else x).rd g j = x.rd g j := by
      split
      · exact (State.rd_each _ _ _ fun l y => (a y l).1).trans (State.rd_congr (State.word_count_other _ (.inl (by rw [hr]; decide))))
      · rfl
    have k2 : ∀ x : State, (if st = qOff then x.each (linksOf q) fun l s => s.linkUnused l else x).rd g j = x.rd g j := by
      intro x; split
      · exact State.rd_each _ _ _ fun l y => (a y l).2.1
      · rfl
    have k3 : ∀ x : State, (if st = qUp then x.each (linksOf q) fun l s => s.enterTrain l else x).rd g j = x.rd g j := by
      intro x; split
      · exact State.rd_each _ _ _ fun l y => (a y l).2.2.1
      · rfl
    have k4 : ∀ x : State, (if st = qTest then x.each (linksOf q) fun l s => (s.setRx l { s.rx l with oofRun := 0 }).lofExit l else x).rd g j
        = x.rd g j := by
      intro x; split
      · exact State.rd_each _ _ _ fun l y => (a y l).2.2.2
      · rfl
    dsimp only
    rw [k4, k3, k2, k1]
  have hd : ∀ (g : Field), keptByEntry g = true → (F.laneStatePllLock.apart g = true ∨ qPll < st) → ∀ (x : State) (j : Nat),
      (x.quadDrop q st t16).rd g j = x.rd g j := by
    intro g hg hp x j
    rcases hp with hp | hp
    · exact keptByEntry.rd_quadDrop hg hp x q st t16 j
    · obtain ⟨-, -, h3, -, -, h6, h7⟩ := keptByEntry.parts hg
      unfold State.quadDrop
      rw [if_neg (by omega)]
      dsimp only
      split
      · rw [State.rd_setFlag_other _ _ (.inr h3) h7]
        exact State.rd_each _ _ _ fun l y => keptByEntry.rd_dropLock hg y l t16 j
      · rfl
  obtain ⟨y, hy, ky⟩ := e (let x := if st = qUp then s else s.leaveUp q t16
    let x := if st = qTest then x else x.leaveTest q
    let x := (x.quadDrop q st t16).wr F.laneStateQstate q st
    x.setQuad q { x.quad q with ticks := 0 })
  refine ⟨y, ?_, ?_, ?_⟩
  · rw [← hy]; rfl
  · show y.rd _ _ = _
    rw [ky _ (by decide)]
    show State.rd (State.wr _ _ _ _) _ _ = _
    rw [State.rd_wr _ _ _ _ (by decide)]
    exact Nat.mod_eq_of_lt h
  · intro g hg hs hp j
    have h6 := (keptByEntry.parts hg).2.2.2.2.2.1
    have h7 := (keptByEntry.parts hg).2.2.2.2.2.2
    rw [ky g hg]
    show State.rd (State.wr _ _ _ _) _ _ = _
    rw [State.rd_wr_other _ _ (.inr hs) h7, hd g hg hp]
    have k1 : (if st = qUp then s else s.leaveUp q t16).rd g j = s.rd g j := by
      split
      · rfl
      · exact (State.leaveUp_within ..).rd (by rw [h6]; decide) j
    have k2 : ∀ x : State, (if st = qTest then x else x.leaveTest q).rd g j = x.rd g j := by
      intro x; split
      · rfl
      · exact (State.leaveTest_within ..).rd (by rw [h6]; decide) j
    exact (k2 _).trans k1

/-- QSTATE after a state is entered. -/
theorem State.qstate_enterQuad (s : State) (q st t16 : Nat) (h : st < 8) : (s.enterQuad q st t16).qstate q = st := by
  obtain ⟨y, e, k, -⟩ := s.enterQuad_eq q st t16 h
  rw [e]
  exact ((State.quadDown_within y q).rd (by decide) q).trans k

/-- A kept field after a state is entered; PLL_LOCK too where the state is beyond PLL. -/
theorem State.rd_enterQuad (s : State) (q st t16 j : Nat) {g : Field} (h : st < 8) (hg : keptByEntry g = true)
    (hs : F.laneStateQstate.apart g = true) (hp : F.laneStatePllLock.apart g = true ∨ qPll < st) : (s.enterQuad q st t16).rd g j = s.rd g j := by
  obtain ⟨y, e, -, k⟩ := s.enterQuad_eq q st t16 h
  rw [e]
  refine ((State.quadDown_within y q).rd ?_ j).trans (k g hg hs hp j)
  rw [(keptByEntry.parts hg).2.2.2.2.2.1]
  decide

/-- QUAD_DOWN after a state is entered: 02 R49. -/
theorem State.active_enterQuad (s : State) (q st t16 : Nat) (hq : q < 256) (h : st < 8) :
    (s.enterQuad q st t16).active A.quadDown q = (decide (s.rd F.laneStateGen q ≠ 0) && decide (st ≠ qUp) && decide (st ≠ qTest)) := by
  obtain ⟨y, e, k, kk⟩ := s.enterQuad_eq q st t16 h
  rw [e]
  unfold State.quadDown
  rw [State.active_setAlarm _ _ _ _ _ _ hq, if_pos ⟨rfl, rfl⟩, kk F.laneStateGen (by decide) (by decide) (.inl (by decide)), k]

end Sys2Proof.Machine
end

