-- ==== Sys2Proof/Laws/Stacks.lean ====
section
/-! SUPPORT. What the loss of an HBM stack leaves to be read (04 R99; 08 R192). -/

namespace Sys2Proof.Machine

/-- The library slots of a stack, LOST. -/
theorem State.slotState_setSlot4 (s : State) (k i : Nat) (h : i / 4 = k) :
    (s.each [4 * k, 4 * k + 1, 4 * k + 2, 4 * k + 3] fun i s => s.setSlot i slotLost).slotState i = slotLost := by
  have e : ∀ (x : State) (j : Nat), (x.setSlot j slotLost).slotState i = if j = i then slotLost else x.slotState i := by
    intro x j
    unfold State.setSlot State.slotState
    split
    · next hj => rw [hj]; exact State.rd_wr x F.almSlotStatusSstate i slotLost (by decide)
    · next hj => exact State.rd_wr_other _ _ (.inl (Ne.symm hj)) (by decide)
  show (State.setSlot (State.setSlot (State.setSlot (State.setSlot s _ _) _ _) _ _) _ _).slotState i = _
  rw [e, e, e, e]
  split
  · rfl
  · split
    · rfl
    · split
      · rfl
      · rw [if_pos (by omega)]

/-- A stack lost for the first time: STACK_LOST, INIT_DONE cleared, one more LAG_STACK_LOSS, LAG_STACK_LOST active, its library slots LOST. -/
theorem State.loseStack_facts (s : State) (k : Nat) (hk : k < 4) (h : s.stackLost k = false) :
    (s.loseStack k).stackLost k = true ∧ (s.loseStack k).rdBit F.hbmStateInitDone 0 k = false ∧
      (s.loseStack k).word .lagStackLoss k = s.word .lagStackLoss k + 1 ∧ (s.loseStack k).active A.lagStackLost k = true ∧
      ∀ i, i / 4 = k → (s.loseStack k).slotState i = slotLost := by
  have base : ∀ x : State, x = ((s.wrBit F.lagStateStackLost 0 k true).wrBit F.hbmStateInitDone 0 k false).count .lagStackLoss k →
      x.rdBit F.lagStateStackLost 0 k = true ∧ x.rdBit F.hbmStateInitDone 0 k = false ∧ x.word .lagStackLoss k = s.word .lagStackLoss k + 1 := by
    rintro x rfl
    have e : ∀ (y : State) (f : Field), f.reg ≠ .lagStackLoss → (y.count .lagStackLoss k).rdBit f 0 k = y.rdBit f 0 k := fun y f hf => by
      unfold State.rdBit; rw [State.rd_congr (State.word_count_other y (.inl (Ne.symm hf)))]
    refine ⟨?_, ?_, ?_⟩
    · rw [e _ _ (by decide)]
      unfold State.rdBit
      rw [State.wrBit, State.rd_wr_other _ _ (.inr (by decide)) (by decide)]
      have := State.rdBit_wrBit s F.lagStateStackLost 0 k k true (by decide) hk
      rw [if_pos rfl] at this
      exact this
    · rw [e _ _ (by decide), State.rdBit_wrBit _ _ _ _ _ _ (by decide) hk, if_pos rfl]
    · rw [State.word_count]
      exact congrArg (· + 1) ((State.word_wr_other _ _ (.inl (by decide))).trans (State.word_wr_other _ _ (.inl (by decide))))
  obtain ⟨b1, b2, b3⟩ := base _ rfl
  unfold State.loseStack
  rw [if_neg (by rw [h]; decide)]
  dsimp only
  generalize State.count (State.wrBit (State.wrBit s _ _ _ _) _ _ _ _) _ _ = x at b1 b2 b3 ⊢
  have hx : ∀ y : State, y = ({ x with lag := { x.lag with
      lossTick := Tbl.insert k x.localNow (Tbl.erase k x.lag.lossTick), fallbackDone := Tbl.erase k x.lag.fallbackDone
      failTicks := Tbl.erase k x.lag.failTicks } } : State) → Within (.of [.links] []) y (y.each (stackLinks k) fun l s =>
        if (s.lagLink l).mode = 2 then s.unwrite l fun _ => true else s) := by
    intro y _
    refine (Within.refl _ y).each _ _ fun a z hz => ?_
    split
    · exact .after (State.unwrite_within ..) hz (by decide)
    · exact hz
  have hy := hx _ rfl
  generalize State.each _ (stackLinks k) _ = y at hy ⊢
  have ha := State.almStackLost_within y k
  have he := State.evbLose_within (y.almStackLost k) k
  have hr := State.raise_within ((y.almStackLost k).evbLose k) A.lagStackLost k
  have hl := fun w => State.logEvent_within (((y.almStackLost k).evbLose k).raise A.lagStackLost k) 0x70 0 k w 0 true
  have hs : ∀ i, i / 4 = k → (y.almStackLost k).slotState i = slotLost := by
    intro i hi
    have := State.slotState_setSlot4 y k i hi
    unfold State.almStackLost
    dsimp only
    split
    · exact ((State.stageFail_within _).rd (by decide) i).trans this
    · exact this
  refine ⟨?_, ?_, ?_, ?_, fun i hi => ?_⟩
  · unfold State.stackLost
    rw [(hl _).rdBit (by decide), hr.rdBit (by decide), he.rdBit (by decide), ha.rdBit (by decide), hy.rdBit (by decide)]
    exact b1
  · rw [(hl _).rdBit (by decide), hr.rdBit (by decide), he.rdBit (by decide), ha.rdBit (by decide), hy.rdBit (by decide)]
    exact b2
  · rw [(hl _).word _ (by decide), hr.word _ (by decide), he.word _ (by decide), ha.word _ (by decide), hy.word _ (by decide)]
    exact b3
  · rw [(hl _).active (by decide), State.active_raise _ _ _ _ _ (by omega)]
    simp
  · unfold State.slotState
    rw [(hl _).rd (by decide), hr.rd (by decide), he.rd (by decide)]
    exact hs i hi

/-- Which stacks are lost after one more is. -/
theorem State.stackLost_loseStack (s : State) (k j : Nat) (hj : j < 4) : (s.loseStack k).stackLost j = (s.stackLost j || decide (j = k)) := by
  cases h : s.stackLost k with
  | true =>
    have e : s.loseStack k = s := if_pos h
    rw [e]
    by_cases hjk : j = k
    · rw [hjk, h]; rfl
    · simp [hjk]
  | false =>
    have base : ∀ x : State, x = ((s.wrBit F.lagStateStackLost 0 k true).wrBit F.hbmStateInitDone 0 k false).count .lagStackLoss k →
        x.rdBit F.lagStateStackLost 0 j = (s.stackLost j || decide (j = k)) := by
      rintro x rfl
      have e := State.rdBit_wrBit s F.lagStateStackLost 0 k j true (by decide) hj
      have r : ∀ y : State, ((y.wrBit F.hbmStateInitDone 0 k false).count .lagStackLoss k).rdBit F.lagStateStackLost 0 j =
          y.rdBit F.lagStateStackLost 0 j := by
        intro y
        unfold State.rdBit
        rw [State.rd_congr (State.word_count_other _ (.inl (by decide))), State.wrBit, State.rd_wr_other _ _ (.inr (by decide)) (by decide)]
      rw [r, e]
      unfold State.stackLost
      by_cases hjk : j = k
      · simp [hjk]
      · simp [hjk]
    have b := base _ rfl
    unfold State.loseStack
    rw [if_neg (by rw [h]; decide)]
    dsimp only
    generalize State.count (State.wrBit (State.wrBit s _ _ _ _) _ _ _ _) _ _ = x at b ⊢
    have hx : ∀ y : State, y = ({ x with lag := { x.lag with
        lossTick := Tbl.insert k x.localNow (Tbl.erase k x.lag.lossTick), fallbackDone := Tbl.erase k x.lag.fallbackDone
        failTicks := Tbl.erase k x.lag.failTicks } } : State) → Within (.of [.links] []) y (y.each (stackLinks k) fun l s =>
          if (s.lagLink l).mode = 2 then s.unwrite l fun _ => true else s) := by
      intro y _
      refine (Within.refl _ y).each _ _ fun a z hz => ?_
      split
      · exact .after (State.unwrite_within ..) hz (by decide)
      · exact hz
    have hy := hx _ rfl
    generalize State.each _ (stackLinks k) _ = y at hy ⊢
    unfold State.stackLost
    rw [(State.logEvent_within ..).rdBit (by decide), (State.raise_within ..).rdBit (by decide), (State.evbLose_within ..).rdBit (by decide),
      (State.almStackLost_within ..).rdBit (by decide), hy.rdBit (by decide)]
    exact b

/-- A stack already lost stays as it is. -/
theorem State.loseStack_again (s : State) (k : Nat) (h : s.stackLost k = true) : s.loseStack k = s := if_pos h

end Sys2Proof.Machine
end

