-- ==== Sys2Proof/Machine/Pins.lean ====
section
/-! DEFINITION. The levels of the low-speed output balls, as the state gives them (13 R336; 09 R216, R230, R231; 10 R245, R250, R254; 14 R366,
R367). -/

namespace Sys2Proof.Machine

/-- Whether the device is out of reset. -/
def State.outOfReset (s : State) : Bool := s.boot.risen

/-- ALARM_N (14 R366); high during reset. -/
def State.pinAlarmN (s : State) : Bool := !(s.outOfReset && s.alarmLow)

/-- INT_A_N (`m` = 1) and INT_B_N (`m` = 2) (14 R367, 15 R391); high during reset. -/
def State.pinIntN (s : State) (m : Nat) : Bool := !(s.outOfReset && decide (s.intPend m ≠ 0))

/-- TSTATE[2:0] (09 R216). -/
def State.pinTstate (s : State) : Nat := if s.outOfReset then s.rd F.timStateTstate 0 else 0

/-- ROLE_OUT: high while the unit is ACTIVE or unpaired (10 R254); low during reset and on an unusable device (13 R339). -/
def State.pinRoleOut (s : State) : Bool :=
  s.outOfReset && !s.boot.unusable && (s.role = roleActive || !s.paired)

/-- Whether MATE_HB_OUT runs (10 R250, R245; 13 R336, R339). -/
def State.hbOut (s : State) : Bool := s.outOfReset && s.tick.begun && !s.mate.hbStopped && !s.boot.unusable

/-- Whether MATE_HB_OUT changes level at period `p` of the tick in progress: at 0, 256, 512 and 768 (10 R250). -/
def State.hbChanges (s : State) (p : Nat) : Bool := s.hbOut && decide (p % 256 = 0) && decide (p < 1024)

/-- Whether the tick of number `v` is marked for SEL code `sel` (09 R230). -/
def selMarks (sel v : Nat) : Bool :=
  match sel with | 1 => true | 2 => decide (v % 6 = 0) | 3 => decide (v % 48000 = 0) | _ => false

/-- Whether the tick in progress is marked on TICKOUT `k` (09 R230). -/
def State.tickMarked (s : State) (k : Nat) : Bool := s.outOfReset && selMarks (s.rd F.timOutCfgSel k) s.now

/-- Where output `k` of TIM_OUT_CFG stands against the tick edge, in billionths of a tick (09 R232). -/
def State.outAt (s : State) (k : Nat) : Int := Tbl.get 0 s.tim.outPos k

/-- The level of TICKOUT `k` at `x` billionths of the tick in progress: high for half a tick from a marked tick's edge, moved by OFFSET; the ticks
before and after reach in where OFFSET moves them (09 R230, R232). -/
def State.pinTickout (s : State) (k : Nat) (x : Int) : Bool :=
  let sel := s.rd F.timOutCfgSel k
  s.outOfReset && [((-1 : Int), s.tick.prev1.toNat), (0, s.now), (1, tadd s.now 1)].any fun e =>
    let rise := e.1 * 1000000000 + s.outAt k
    selMarks sel e.2 && decide (rise ≤ x) && decide (x < rise + 500000000)

/-- The frequency of CLKOUT `k`, output `4 + k` of TIM_OUT_CFG, in Hz; 0 where it is held low (09 R231). -/
def State.clkHz (s : State) (k : Nat) : Nat :=
  if !s.outOfReset then 0 else
  match s.rd F.timOutCfgSel (4 + k) with
  | 1 => 48000 | 2 => 96000 | 3 => 192000 | 4 => 3072000 | 5 => 6144000 | 6 => 12288000 | 7 => 24576000 | 8 => 49152000 | _ => 0

/-- The level of CLKOUT `k` at `x` billionths of the tick in progress: duty 50 %, a rising edge at every tick edge moved by OFFSET (09 R231). -/
def State.pinClkout (s : State) (k : Nat) (x : Int) : Bool :=
  let m : Int := (s.clkHz k / 48000 : Nat)
  decide (0 < m) && decide ((x - s.outAt (4 + k)) * m % 1000000000 < 500000000)

end Sys2Proof.Machine
end

