-- ==== Sys2Proof/Tests/Slice0.lean ====
section
/-! SUPPORT. Small tests: ill-formed commands, worked examples of the spec, and a state for each statement that has hypotheses. -/

namespace Sys2Proof

open Machine

/-! ### Ill-formed commands -/

/-- A frame of Gen1's lengths whose first bit came in `t16` sixteenths of a cycle after the edge. -/
def plainFrame (t16 : Nat) : RxFrame :=
  let b : Block := ⟨1, 0⟩
  ⟨b, b, b, b, List.replicate (genProt 1) b, List.replicate (genMgmt 1) b, List.replicate (genUser 1) b, [], [], 0, t16, false⟩

def quietTick : TickEnv := ⟨[], [], [], [], [], [], [], [], [], [], []⟩

theorem test_wf_frame : (Instr.rxFrameDeliver 0 (plainFrame 0)).wf = true ∧ (Instr.rxFrameDeliver 0 (plainFrame 500000)).wf = false ∧
    (Instr.rxFrameDeliver 0 { plainFrame 0 with protect := [] }).wf = false ∧
    (Instr.rxFrameDeliver 0 { plainFrame 0 with payload := [(9000, 1)] }).wf = false ∧
    (Instr.rxFrameDeliver 0 { plainFrame 0 with bad := [9000] }).wf = false ∧
    (Instr.rxFrameDeliver 0 { plainFrame 0 with arrived := 9000 }).wf = false := by decide

theorem test_wf_tick : (Instr.tickEdge quietTick).wf = true ∧ (Instr.tickEdge { quietTick with upsets := [(0, 89)] }).wf = false ∧
    (Instr.tickEdge { quietTick with hbmUe := [(128, 0)] }).wf = false ∧ (Instr.tickEdge { quietTick with readLate := [(0, 16)] }).wf = false ∧
    (Instr.tickEdge { quietTick with stuck := [(0, 89, true)] }).wf = false ∧
    (Instr.tickEdge { quietTick with signals := [130] }).wf = false ∧ (Instr.tickEdge { quietTick with clocks := [(33, true)] }).wf = false ∧
    (Instr.tickEdge { quietTick with hbmBad := [2 ^ 35] }).wf = false ∧ (Instr.tickEdge { quietTick with fill := [(4, 0)] }).wf = false ∧
    (Instr.tickEdge { quietTick with hbmCe := [4] }).wf = false ∧ (Instr.tickEdge { quietTick with linkFreq := [(7, 0)] }).wf = false := by decide

theorem test_wf_times : (Instr.verdictForm 0 [⟨1, 0⟩] 0).wf = false ∧ (Instr.verdictForm 0 [] 500000).wf = false ∧
    (Instr.refEvent 0 500000 0).wf = false ∧ (Instr.mateHbEdge 1024).wf = false ∧ (Instr.busGrant 0 31250 0).wf = false ∧
    (Instr.semTry .hostA 0 31250).wf = false ∧ (Instr.semArm .hostA 0 0 31250).wf = false := by decide

theorem test_wf_accesses : (Instr.libraryWrite .hostA 0 0 []).wf = false ∧ (Instr.libraryWrite .hostA 0 (2 ^ 27) [0]).wf = false ∧
    (Instr.tableWindowWrite .hostA 0 [] 0).wf = false ∧ (Instr.tableWindowWrite .hostA 0 [none] 31250).wf = false ∧
    (Instr.hostRead .a false (2 ^ 29) 4 0 false).wf = false ∧ (Instr.hostRead .a false 0 0 0 false).wf = false ∧
    (Instr.hostRead .a false 0 4 31250 false).wf = false ∧ (Instr.hostWrite .a true (2 ^ 32) [none] 0 false).wf = false ∧
    (Instr.hostWrite .a true 0 [none] 31250 false).wf = false ∧ (Instr.registerWrite .hostA 4 0 .whole).wf = false ∧
    (Instr.atomicFetchadd .a 4 true 0).wf = false ∧ (Instr.atomicSwap .a 2 false 0).wf = false ∧ (Instr.atomicCas .a 4 true 0 0).wf = false := by
  decide

theorem test_wf_counts : (Instr.hbmEcsRead [0]).wf = false ∧ (Instr.eyeScanPoint 0 (2 ^ 32)).wf = false ∧
    (Instr.testStepStart [(0, 89)]).wf = false ∧ (Instr.quadFailure 0 ⟨.pllUnlock, 500000⟩).wf = false ∧
    (Instr.blockLockLoss ⟨0, 500000⟩).wf = false ∧ (Instr.faSyncLoss ⟨0, 500000⟩).wf = false ∧ (Instr.lossOfSignal ⟨0, 500000⟩).wf = false ∧ (Instr.testStepStart []).wf = true := by decide

/-! ### Worked examples of the spec -/

/-- 00 R5: 0x10 is 32 ticks later than 0xFFFF_FFF0. -/
theorem test_later_over_the_wrap : tickDiff 0xFFFFFFF0 0x10 = 32 ∧ later 0xFFFFFFF0 0x10 = true ∧ later 0x10 0xFFFFFFF0 = false := by decide

/-- 07 Example 07-3: the emit entry and the sum term of seat 337. -/
theorem test_seat_337 : entryOp 0x4010_0128_0001_E01E_0000 = 4 ∧ entrySrc 0x4010_0128_0001_E01E_0000 = 0x20025 ∧
    entryGain 0x4010_0128_0001_E01E_0000 = 0xF00 ∧ entryOwn 0x4010_0128_0001_E01E_0000 = 0xF00 ∧ termSrc 0x0800_9400_00F0_0800 = 0x20025 ∧
    termGain 0x0800_9400_00F0_0800 = 0xF00 ∧ termGate 0x0800_9400_00F0_0800 = true := by decide

/-- 07 R152: slot 37 of ingress link 8, rate-bridge output 1,000, TONE_1K. -/
theorem test_source_addresses : srcPlace 0x20025 = .frame 8 37 ∧ srcPlace 0x2003E8 = .bridge 1000 ∧ srcPlace 0x204002 = .const 16386 := by decide

/-! ### Witnesses -/

theorem test_front_witness : ({ State.reset with pending := [.tickStop] } : State).pending = .tickStop :: [] := by decide

theorem test_empty_witness : State.reset.pending = [] := by decide

theorem test_footprint_witness : ∃ t, exec (.funcEnable 0) State.reset = .next t := ⟨_, rfl⟩

theorem test_queue_witness : ∃ t, step { State.reset with pending := [.tickStop] } = .next t := ⟨_, rfl⟩

theorem test_canonical_witness : Memory.wf State.reset.hbm = true ∧ flashWf State.reset.nv.flash = true ∧
    ∃ t, step { State.reset with pending := [.tickStop] } = .next t := ⟨by decide, by decide, _, rfl⟩

theorem test_flash_witness : ∃ t, exec .evbMove State.reset = .next t := ⟨_, rfl⟩

theorem test_rounding_witness : 1 ≤ 1 := by decide

theorem test_soft_limit_witness : (4194304 : Int) < 4194305 ∧ (-4194305 : Int) < -4194304 ∧ entryLim 256 = true ∧ entryLim 0 = false := by decide

theorem test_gain_witness : 1 ≤ 3840 ∧ 3840 ≤ 4095 ∧ 3840 ≤ 3840 := by decide

theorem test_mix_minus_witness : entryOp (4 * 2 ^ 76) = opMinus ∧ entryOp (3 * 2 ^ 76) = opSum ∧
    entryOwn (4 * 2 ^ 76) = termGain (2 ^ 11) ∧ entryTalkpass (4 * 2 ^ 76) = !termGate (2 ^ 11) ∧
    entryGain (3 * 2 ^ 76) = entryGain (4 * 2 ^ 76) ∧ (SrcRead.absent ≠ .faulted) := by decide

theorem test_straps_before_rise : State.reset.boot.risen = false := by decide

/-- A block whose reset has risen, with more of its start-up done. -/
def risenState (p2 p3 : Bool) : State := { State.reset with boot := { risen := true, p2 := p2, p3 := p3, mode := .hosted } }

theorem test_prelude_witness : (risenState false false).boot.risen = true ∧ (risenState false false).boot.p2 = false ∧
    (risenState true false).boot.p2 = true ∧ (risenState true false).boot.p3 = false ∧ (risenState true false).boot.mode ≠ .test := by decide

/-- A block after P3 in which quad 0 is used and its function has state `st`. -/
def funcState (st : Nat) (enabled : Bool) : State :=
  ((((risenState true true).wr F.laneStateGen 0 1).wr F.sysFuncStateState 0 st).setFlag F.sysFuncStateEnable 0 enabled)

theorem test_func_witness : (funcState 0 false).enableDue 0 = true ∧ (funcState 3 false).enableDue 0 = true ∧
    ((funcState 2 true).wr F.laneStateGen 0 0).disableDue 0 = true ∧ ((funcState 1 true).wr F.laneStateGen 0 0).disableDue 0 = true ∧
    (funcState 1 true).startReady 0 = true ∧ (funcState 1 true).fstate 0 = 1 ∧ stackFunc 0 = none ∧ (funcState 3 true).fstate 0 = 3 := by decide

theorem test_temp_witness : State.reset.rdS F.sysTempCfgLimit 0 < (0x7FFF#16).toInt ∧ (0x8000#16).toInt ≤ State.reset.rdS F.sysTempCfgLimit 0 - 40 ∧
    State.reset.rdS F.sysTempCfgLimit 0 - 40 < (BitVec.ofInt 16 (State.reset.rdS F.sysTempCfgLimit 0)).toInt ∧
    (BitVec.ofInt 16 (State.reset.rdS F.sysTempCfgLimit 0)).toInt ≤ State.reset.rdS F.sysTempCfgLimit 0 := by decide

/-- A block in which quad 0 is used and in state `st` for `n` ticks. -/
def quadState (st n : Nat) : State :=
  (((risenState true true).wr F.laneStateGen 0 1).wr F.laneStateQstate 0 st).setQuad 0 { State.reset.quad 0 with ticks := n }

theorem test_bringup_witness : (quadState 1 10).qstate 0 = 1 ∧ (quadState 2 0).qstate 0 = 2 ∧ (quadState 3 0).qstate 0 = 3 ∧
    Skews.ok ⟨1024, -1024, 0, 0⟩ 0 = true ∧ stateTimeout ((quadState 1 10).qstate 0) = some 10 ∧ 10 ≤ ((quadState 1 10).quad 0).ticks ∧
    (quadState 7 4800).qstate 0 = 7 ∧ 4800 ≤ ((quadState 7 4800).quad 0).ticks := by decide

theorem test_quad_failure_witness : (quadState 5 0).qstate 0 = 5 ∧ (quadState 6 0).qstate 0 = 6 := by decide

/-- A running block in HOSTED mode: its hosts act at expert level. -/
def hostedState : State := ((risenState true true).setFlag F.busStatusExpert 0 true).setFlag F.mateCfgEn 0 false

theorem test_lane_commands_witness : hostedState.reaches .hostA 18 true = true ∧ (State.reset.rx 0).prbs.locked = false ∧
    (((quadState 6 0).setRx 0 { State.reset.rx 0 with prbs := { locked := true } }).rx 0).prbs.locked = true ∧ hostedState.expert .hostA = true ∧
    ((quadState 6 0).wr F.lanePrbsCtrlRxEn 0 1).laneBit F.lanePrbsCtrlRxEn 0 = true ∧
    ((quadState 6 0).wr F.lanePrbsCtrlRxEn 0 1).qstate (quadOf 0) = 6 := by decide

theorem test_eye_scan_witness : (hostedState.setFlag F.laneScanStatusBusy 0 true).expert .hostA = true ∧
    (hostedState.setFlag F.laneScanStatusBusy 0 true).flag F.laneScanStatusBusy 0 = true ∧ hostedState.flag F.laneScanStatusBusy 0 = false ∧
    hostedState.qstate 0 ≠ 5 ∧ (quadState 5 0).qstate 0 = 5 ∧ ((quadState 5 0).wr F.laneScanGridVStep 0 8).gridOk 0 = true ∧
    (quadState 5 0).gridOk 0 = false ∧ (State.reset.quad 0).scanTaken < 2048 := by decide

theorem test_adaptation_witness : (quadState 5 0).qstate (quadOf 0) = 5 ∧
    (((quadState 5 0).setLane 0 { interval := 16 }).decisionTicks 0 ≤ (((quadState 5 0).setLane 0 { interval := 16 }).lane 0).interval) ∧
    EqMeasure.step ⟨2501, 0, 4000⟩ = some { post := 1 } ∧ EqMeasure.step ⟨2500, 800, 4000⟩ = none ∧ (quadState 5 0).laneBit F.laneStateTrained 0 = false ∧
    (({ waiting := true, waited := 96, silence := 480, train := 24000 } : LaneH).waiting = true) := by decide

/-- A running block whose stack 0 has had page failures on 16 ticks. -/
def failingStack : State :=
  { hostedState with lag := { hostedState.lag with failTicks := [(0, (List.range 16).reverse)] }, tick := { hostedState.tick with n := 15 } }

theorem test_stack_loss_witness : (risenState true true).boot.p3 = true ∧ bit (risenState true true).boot.p4 0 = false ∧
    (risenState true true).stackLost 0 = false ∧ failingStack.ueLossDue 0 = true ∧ failingStack.stackLost 0 = false ∧
    ((risenState true true).wrBit F.lagStateStackLost 0 0 true).stackLost 0 = true := by decide

/-- A running block whose stack 0 was lost in tick 0, now in tick 1; link 0 is in fallback with its last stamp released. -/
def lostStack : State :=
  { (hostedState.wrBit F.lagStateStackLost 0 0 true).wrBit F.lagStateRestoring 0 0 true with
    tick := { hostedState.tick with n := 9 }, log := { hostedState.log with move := true } }.setLagLink 0 { hostedState.lagLink 0 with fb := some ⟨2, 1, some 6⟩ }

theorem test_stack_restore_witness : lostStack.expert .hostA = true ∧ lostStack.rdBit F.lagStateRestoring 0 0 = true ∧
    lostStack.tick.n ≤ Tbl.get 0 lostStack.lag.restoreTick 0 + 480 ∧ lostStack.reaches .hostA 18 true = true ∧ lostStack.stackLost 0 = true ∧
    Tbl.get 0 lostStack.lag.lossTick 0 < lostStack.tick.n ∧ Tbl.get false lostStack.lag.fallbackDone 0 = false ∧
    (lostStack.lagLink 0).fb = some ⟨2, 1, some 6⟩ ∧ lostStack.log.move = true ∧ hostedState.log.move = false := by decide

theorem test_late_witness : (3 ≤ ({ lateStamps := 3, onTimeRun := 48, rangeRun := 48, okRun := 48, marginRun := 48000 } : LagLinkH).lateStamps) ∧
    ((State.reset.setLagLink 0 { lateStamps := 3 }).lagLink 0).lateStamps = 3 := by decide

theorem test_lag_cfg_witness : (hostedState.setFlag F.mateCfgEn 0 false).expert .hostA = true ∧ hostedState.joined = false ∧
    hostedState.valueOk .lagLinkCfg 0 0 = true ∧ hostedState.reaches .hostA 18 false = true ∧ hostedState.reaches .hostA 18 true = true := by decide

/-- A running block whose quad 0 is UP and whose link 0 has receiver `r`. -/
def linkState (r : RxH) : State := (quadState 5 0).setRx 0 r

theorem test_defects_witness :
    (linkState { oofRun := 48, typeErrRun := 3, rdi1Run := 3, discRun := 2 }).used 0 = true ∧
    48 ≤ ((linkState { oofRun := 48 }).rx 0).oofRun ∧ (linkState {}).qstate (quadOf 0) ≠ 6 ∧ (linkState {}).flag F.linkStateLof 0 = false ∧
    (linkState {}).flag F.linkStateBlockTypeErr 0 = false ∧ (linkState {}).flag F.linkStateRdi 0 = false ∧ (linkState {}).flag F.linkStateDiscord 0 = false ∧
    ((linkState {}).setFlag F.linkStateLof 0 true).flag F.linkStateLof 0 = true ∧ ((linkState {}).rx 0).losClear ≤ 0 ∧
    ((linkState {}).setLaneBit F.laneStateLos 0 false).laneBit F.laneStateLos 0 = false ∧ (linkState {}).rd F.linkIdentRxInfoKind 0 = 0 := by decide

/-- Three candidates in a row, 8,300 blocks apart. -/
def threeCands : List FaCand := [⟨0, 1, 8300⟩, ⟨8300, 2, 8300⟩, ⟨16600, 3, 8300⟩]

theorem test_alignment_witness : (linkState {}).samples (quadOf 0) = true ∧ (linkState {}).nearLoop 0 = false ∧ (linkState {}).laneBit F.laneStateBlockLock 0 = false ∧
    (linkState {}).qstate (quadOf 0) ≠ 4 ∧ ((linkState {}).setLaneBit F.laneStateBlockLock 0 true).laneBit F.laneStateBlockLock 0 = true ∧
    (linkState {}).inSync 0 = false ∧ (linkState {}).used 0 = true ∧ (chainOfThree threeCands).isSome = true ∧
    (((quadState 4 0).wr F.laneStateBlockLock 0 14).setLaneBit F.laneStateBlockLock 0 true).rd F.laneStateBlockLock 0 = 2 ^ lanesOf 0 - 1 ∧
    ((linkState {}).wr F.linkStateFaState 0 2).inSync 0 = true := by decide

theorem test_frames_witness : (((linkState {}).wr F.linkStateFaState 0 2).inSync 0 = true) ∧ (linkState {}).used 0 = true ∧
    ((linkState { frame := some ⟨0, false, true, true, 7, 0, .unstored, false⟩ }).rx 0).frame.isSome = true ∧
    (linkState {}).qstate (quadOf 0) = 5 ∧ ((linkState {}).rx 0).frame = none ∧
    verdictOf true false 7 (some (false, 7)) = 0 ∧ verdictOf true false 7 (some (true, 8)) = 2 ∧ verdictOf true false 7 none = 1 := by decide

/-- A running block whose link 0 has a locked PLL and a frame due. -/
def sendingState : State := ((linkState {}).setFlag F.laneStatePllLock 0 true).setTx 0 { due := true, started := true }

theorem test_sent_witness : sendingState.flag F.laneStatePllLock (quadOf 0) = true ∧ (sendingState.tx 0).due = true ∧
    (sendingState.tx 0).next ≤ sendingState.tick.n ∧ sendingState.noFrames 0 = false ∧ (sendingState.tx 0).started = true ∧
    (0x10 : BitVec 8) ≠ 0xFF ∧ (0x10 : BitVec 8).toNat ≤ capacity (genMgmt (sendingState.gen 0) - 1) ∧
    (0x10 : BitVec 8).toNat ≤ capacity (genUser (sendingState.gen 0)) ∧ capacity (genUser (sendingState.gen 0)) < (0xFF : BitVec 8).toNat := by decide

/-- A HOSTED block whose protection group 0 is enabled on links 0 and 4 and has command `n` and state word `st`. -/
def groupState (h : GroupH) (n st : Nat) : State :=
  (((((hostedState.setFlag F.protGroupCfgEn 0 true).wr F.protGroupCfgSLink 0 4).wr F.protGroupCmdCmd 0 n).setWord .protGroupState 0
    (BitVec.ofNat 64 st))).setGroup 0 { h with en := true, pLink := 0, sLink := 4 }

theorem test_group_command_witness : (groupState {} 2 0).flag F.protGroupCfgEn 0 = true ∧ (groupState {} 2 0).joined = false ∧
    (groupState {} 2 0).protChanged 0 = false ∧ (groupState {} 2 0).epochChanges 0 = false ∧
    cmdPriority ((groupState {} 2 0).rd F.protGroupCmdCmd 0) ≤ 1 ∧ 2 < cmdPriority ((groupState {} 5 0).rd F.protGroupCmdCmd 0) ∧
    ((groupState {} 2 0).setGroup 0 {}).protChanged 0 = true ∧ hostedState.flag F.protGroupCfgEn 0 = false := by decide

theorem test_groups_witness : (groupState { p := { badRun := 3 } } 0 0).sfEnters 0 .primary = true ∧
    (groupState { s := { goodRun := 48 } } 0 (2 ^ F.protGroupStateSSf.lo)).sfLeaves 0 .secondary = true ∧
    ((groupState {} 0 0).group 0).en = true ∧ hostedState.valueOk .protGroupCfg 0 0 = true ∧
    (groupState {} 0 (2 ^ F.protGroupStateWtrRun.lo)).flag F.protGroupStateWtrRun 0 = true ∧
    max 1 ((groupState { wtrRan := 480000 } 0 0).rd F.protGroupCfgWtr 0) * 480 ≤ ((groupState { wtrRan := 480000 } 0 0).group 0).wtrRan ∧
    (groupState { differRun := 48 } 0 0 |>.group 0).differRun = 48 ∧
    bit ((State.reset.setWord .protRxBridge 0 0x100).word .protRxBridge 0).toNat 8 = true := by decide

theorem test_schedule_witness : hostedState.reaches .hostB 18 true = true ∧ hostedState.reaches .logger 18 false = true := by decide

/-- A HOSTED block whose slot 0 has the status word `v`. -/
def slotsState (v : Nat) : State :=
  (hostedState.setWord .almSlotStatus 0 (BitVec.ofNat 64 v)).wr F.hbmStateInitDone 0 15

theorem test_library_witness : (slotsState 8).reaches .hostA (21 + 0) true = true ∧ (slotsState 8).ecc.hbmBad = [] ∧ (slotsState 8).reaches .hostA 18 true = true ∧ (slotsState 8).slotWriteRefused 0 = none ∧
    (slotsState 4).slotWriteRefused 0 ≠ none ∧ (slotsState 8).checkRefused 0 = false ∧ (slotsState 0).checkRefused 0 = true ∧
    (slotsState 8).joined = false ∧ (slotsState 1).slotState 0 = 1 ∧
    ({ slotsState 1 with alm := { (slotsState 1).alm with checking := some (0, 5) } }).alm.checking = some (0, 5) := by decide

theorem test_stage_witness : (slotsState 2).stageRefused 0 = false ∧ (slotsState 8).stageRefused 0 = true ∧
    ({ slotsState 2 with alm := { (slotsState 2).alm with staging := some 7 } }).alm.staging.isSome = true ∧
    (slotsState 2).rd F.almStateShadowSlot 0 = (0 : SlotId) := by decide

/-- A block whose ALM_STATE holds ESTATE `e` and SHADOW `sh`, its slot 0 ACCEPTED, tick 0 armed and tick 5,000 asked for. -/
def epochState (e sh : Nat) : State :=
  ((((slotsState 2).wr F.almStateEstate 0 e).wr F.almStateShadow 0 sh).wr F.almArmTick 0 5000).wr F.almArmedArmedTick 0 0

theorem test_arming_witness : (epochState 0 2).joined = false ∧ (epochState 0 2).armResult false ((epochState 0 2).rd F.almArmTick 0) = 1 ∧
    (epochState 0 0).armResult false 5000 ≠ 1 ∧ (epochState 1 2).estate = 1 ∧ (epochState 0 2).rejoinOk false = false ∧
    0 ≤ tdiff (tadd ((epochState 1 2).rd F.almArmedArmedTick 0) (-4800)) (epochState 1 2).now ∧
    (epochState 1 2).slotState ((epochState 1 2).rd F.almStateShadowSlot 0) = 2 := by decide

/-- A block in a swap that stands at step `k`, three ticks after e. -/
def swapState (k : Nat) : State :=
  { epochState 3 2 with tick := { (epochState 3 2).tick with n := 8 }, alm := { (epochState 3 2).alm with swapTick := 5, swapStage := k } }

theorem test_swap_witness : (epochState 2 2).estate = 2 ∧ 0 ≤ tdiff ((epochState 2 2).rd F.almArmedArmedTick 0) (epochState 2 2).now ∧ (swapState 0).estate = 3 ∧
    (swapState 1).alm.swapStage = 1 ∧ (swapState 2).alm.swapTick + 3 ≤ (swapState 2).tick.n ∧ (swapState 2).alm.follow = false := by decide

/-- A HOSTED block with the given trims queued. -/
def trimState (q : List Trim) (n : Nat) : State :=
  { slotsState 2 with alm := { (slotsState 2).alm with trims := q, auditSince := some 0 }, tick := { (slotsState 2).tick with n := n } }

theorem test_trim_witness : (trimState [] 0).trimsWaiting < 16 ∧ (trimState [] 0).estate ≠ 2 ∧ (trimState [] 0).joined = false ∧
    (trimState [⟨false, 0, 5, 0⟩] 300).alm.trims = [⟨false, 0, 5, 0⟩] ∧ (trimState [] 300).ecc.restores = [] ∧
    (trimState [] 300).ecc.restoredAt ≠ 301 ∧ (trimState [] 300).alm.trimAt ≠ 301 ∧ (trimState [] 300).hasTrimMap = false ∧
    (trimState [] 300).alm.auditSince = some 0 ∧ 0 + 269 ≤ (trimState [] 300).tick.n ∧
    (trimState [] 300).flag F.almStateActiveValid 0 = false ∧ 0 ≤ tdiff 0 (trimState [] 300).now := by decide

/-- Ten enabled bytes of 0. -/
def tenZeros : List (Option Byte) := List.replicate 10 (some 0)

theorem test_window_witness : (slotsState 2).reaches .hostA 19 true = true ∧
    winPlace 0xA000000 = some (.emit true 0, 0) ∧ 0 + tenZeros.length ≤ (WinPlace.emit true 0).size ∧ (slotsState 2).expert .hostA = true ∧
    (WinPlace.emit true 0).enabled 0 tenZeros = (WinPlace.emit true 0).bytes ∧
    (WinPlace.emit true 0).encodingOk (mergeBytes ((slotsState 2).winHeld (.emit true 0)) 0 10 0 tenZeros) = true ∧
    winPlace 0x8000010 = some (.emit false 1, 0) ∧ (WinPlace.emit false 1).isActive = true ∧ (slotsState 2).joined = false ∧
    ((WinPlace.emit true 0).isShadow && (slotsState 2).shadow = shStaging) = false := by decide

/-- A HOSTED block in tick `n` whose reference 0 has type `ty` and history `r`. -/
def refState (ty n : Nat) (r : RefH) : State :=
  ({ hostedState with tick := { hostedState.tick with n := n } }.wr F.timRefCfgType 0 ty).setRef 0 r

theorem test_reference_witness : (refState 0 0 {}).refType 0 = 0 ∧ (refState 3 0 {}).refType 0 = 3 ∧ (refState 4 0 {}).refType 0 = 4 ∧
    ((refState 4 0 {}).setFlag F.timRefStateQualified 0 true).refQualified 0 = true ∧ (refState 3 0 {}).refOverdue 0 = false ∧
    (refState 4 48000 {}).refQualified 0 = false ∧ (refState 4 48000 {}).refDone 0 = true ∧
    ((refState 4 0 { waiting := true }).ref 0).waiting = true ∧
    (0 : Nat) + 48000 * ((refState 4 0 {}).wr F.timCfgWtr 0 0).rd F.timCfgWtr 0 ≤ 0 := by decide

theorem test_timing_commands_witness : hostedState.reaches .hostA 18 true = true ∧ hostedState.expert .hostA = true ∧
    hostedState.rd F.timStateTstate 0 = 0 ∧ (0 : BitVec 32).toInt.natAbs ≤ 500000000 ∧ 500000000 < (0x7FFFFFFF : BitVec 32).toInt.natAbs ∧
    ((hostedState.wr F.timStateTstate 0 2).manual = false ∧ (hostedState.wr F.timStateTstate 0 2).rd F.timStateTstate 0 ≠ 0) ∧
    hostedState.tim.unclamped < 48000 ∧ hostedState.tim.secDone = none ∧
    ({ hostedState with tim := { hostedState.tim with unclamped := 48000, secDone := some (48000, none) } } : State).tim.secDone = some (48000, none) := by
  decide

/-- A HOSTED block in tick 9,600 whose link 0 has exchange `x` and whose timing block is `f` of its own. -/
def exchState (x : ExchH) (f : TimH → TimH) : State :=
  { hostedState with tick := { hostedState.tick with n := 9600 }, tim := f hostedState.tim }.setExch 0 x

theorem test_exchange_witness :
    ((((exchState {} id).setFlag F.timAdoptCfgEn 0 true).wr F.linkStateFaState 0 2).exchDue 0 = true) ∧ (exchState {} id).exchDue 0 = false ∧
    ((exchState { inbox := some ⟨0, [1, 7, 0, 0], 0, 0, 0⟩ } id).exch 0).inbox = some ⟨0, [1, 7, 0, 0], 0, 0, 0⟩ ∧
    ((exchState { since := some 0, phis := [(0, 5)] } id).exch 0).since = some 0 ∧
    (({ since := some 0, phis := [(0, 5)] } : ExchH).phis.lookup (ofBytes (([2, 0, 0, 0, 0, 0, 0, 0] : List Byte).drop 4))) = some 5 ∧
    (exchState {} fun t => { t with adopt := some ⟨5, 0, 1, 0⟩ }).tim.adopt = some ⟨5, 0, 1, 0⟩ ∧
    (exchState {} fun t => { t with firstActive := some 0 }).tim.firstActive = some 0 ∧
    (exchState {} fun t => { t with firstActive := some 0 }).tim.waitDone = false ∧
    0 + 4800 * max 1 (((exchState {} id).wr F.timAdoptCfgAdoptWait 0 1).rd F.timAdoptCfgAdoptWait 0) ≤ 9600 := by decide

theorem test_tick_witness : (risenState true true).boot.risen = true ∧ (risenState true true).tick.stopped = false ∧
    (risenState true true).tick.begun = false ∧ ({ State.reset with tick := { State.reset.tick with begun := true } } : State).tick.begun = true ∧
    State.reset.boot.risen = false := by decide

/-- A HOSTED block in tick 1,000 paired in role `r` with mate block `m`. -/
def pairState (r : Nat) (m : MateH) : State :=
  ({ hostedState with tick := { hostedState.tick with n := 1000, begun := true }, mate := m }.wr F.mateStateRole 0 r).wr F.laneStateQstate 32 5

theorem test_mate_witness : (pairState 2 {}).paired = true ∧ (pairState 2 { ready := some (7, [(0, 0x81)]) }).mate.ready = some (7, [(0, 0x81)]) ∧
    (pairState 2 { change := some (1, false), changeAt := 999 }).mate.change = some (1, false) ∧ (pairState 0 {}).role = 0 ∧
    max 1 ((pairState 0 {}).rd F.mateCfgJoinWait 0) * 48000 ≤ (pairState 0 { joinTicks := 3000000 }).mate.joinTicks ∧
    ((pairState 2 {}).setFlag F.mateStateHbOk 0 true).hbSeen = true ∧ (pairState 2 {}).hbSeen = false ∧
    (pairState 2 { hbEdge := 1 }).mate.hbEdge + 576 ≤ 1024 * ((pairState 2 {}).tick.n + 1) ∧
    (pairState 2 { hbClassify := some 999 }).mate.hbClassify = some 999 ∧ (pairState 2 {}).qstate 32 = 5 ∧
    (pairState 2 { absentRun := 2 }).mate.absentRun = 2 ∧ (pairState 2 {}).active A.mateLinkDown 0 = false ∧
    ((pairState 2 {}).setFlag F.mateStateMateHbSeen 0 true).flag F.mateStateMateHbSeen 0 = true ∧
    (pairState 2 { hbCleanTicks := 48 }).mate.hbCleanTicks = 48 := by decide

theorem test_mate_commands_witness : (pairState 2 { absentRun := 3 }).mate.absentRun = 3 ∧
    ({ pairState 2 { usableRun := 48 } with act := [(A.mateLinkDown, 1)] } : State).active A.mateLinkDown 0 = true ∧ (pairState 2 {}).role = 2 ∧
    ((pairState 2 { settled := 48, settling := 48000, cleanRun := 4800 }).setSync 1).sync = 1 ∧
    bit (((pairState 2 {}).setWord .mateWatchLost 0 1).word .mateWatchLost 0).toNat (0 : WatchId) = true ∧
    (pairState 2 {}).reaches .hostA 18 true = true ∧ (pairState 2 {}).joined = false ∧ (pairState 1 {}).role ≠ 2 ∧
    ((pairState 2 {}).setFlag F.mateStateJoined 0 true).joined = true := by decide

theorem test_records_witness : (pairState 2 {}).swapFirst = false ∧ (pairState 2 {}).mate.mirrorAt ≠ 1001 ∧
    (pairState 2 { own := [⟨0, 0, 0xFF, regAddr .mateCmd 0, 2⟩] }).recordsDue ≠ [] ∧ (pairState 2 {}).recordsDue = [] ∧
    (pairState 2 { syncing := true }).mate.syncing = true ∧ (pairState 2 {}).mate.syncTick ≠ 1001 ∧
    ((pairState 2 { syncIn := [⟨6, 0, -4, 5⟩] }).mate.syncIn.any fun r => decide (4 ≤ tdiff r.v.toNat (pairState 2 {}).now)) = true ∧
    (pairState 2 { syncIn := [⟨6, 0, -4, 5⟩] }).recordStale ⟨6, 0, -4, 5⟩ = false ∧ (pairState 1 {}).role ≠ 2 := by decide

/-- A HOSTED block in tick `n` with the integrity block's books `e`, tracker entry 0 in state `st` with COUNT 16 for address `a`. -/
def eccState (n st a : Nat) (e : EccH) : State :=
  { (((slotsState 2).wr F.eccTrackState 0 st).wr F.eccTrackCount 0 16).wr F.eccTrackAddr 0 a with tick := { (slotsState 2).tick with n := n }, ecc := e }

theorem test_tracker_witness : ((eccState 9 0 0 { restores := [(5, 0)] }).ecc.restores.find? fun r => decide (r.1 = (5 : BitVec 32).toNat)) = some (5, 0) ∧
    (eccState 9 0 0 {}).activeTable 5 = true ∧ (eccState 9 0 0 {}).slotState ((eccState 9 0 0 {}).restoreSlot 5) = 2 ∧ eccMem 5 = 0 ∧
    freeCycle emitCycles (eccState 9 0 0 {}).core.emitEdits (fun x => x / 16384) (eccBank 5 / 2) = some 191 ∧ (eccState 9 1 0 {}).rd F.eccTrackState (0 : TrackId) = 1 ∧
    max 1 ((eccState 9 1 0 {}).rd F.eccTrackCfgThreshold 0) ≤ (eccState 9 1 0 {}).rd F.eccTrackCount (0 : TrackId) ∧
    classStatic (eccMem ((eccState 9 1 (eccAddr 2 0 0) {}).rd F.eccTrackAddr (0 : TrackId))) = false ∧
    classStatic (eccMem ((eccState 9 1 5 {}).rd F.eccTrackAddr (0 : TrackId))) = true ∧
    ((eccState 9 1 0 { writeback := [(0, 7)] }).ecc.writeback.find? fun w => decide (w.1 = (0 : TrackId).val)) = some (0, 7) := by decide

theorem test_decoded_witness : (eccState 1 1 5 {}).decoded ((eccState 1 1 5 {}).rd F.eccTrackAddr (0 : TrackId)) = some 0 := by decide +kernel

theorem test_step_witness : Tbl.get 0 (eccState 4147200000 2 0 {}).ecc.written (0 : TrackId) + 4147200000 ≤ (eccState 4147200000 2 0 {}).tick.n ∧
    (eccState 4 0 0 { testNow := 3 }).ecc.testSince = none ∧ ((eccState 4 0 0 { testNow := 3 }).wr F.sysFuncStateState 37 2).rd F.sysFuncStateState 37 = 2 ∧
    ((eccState 4 0 0 {}).rd F.eccTestCfgInterval 0 ≤ (eccState 4 0 0 { testWait := 16200000 }).ecc.testWait) ∧
    (eccState 20 0 0 { testSince := some 8 }).ecc.testSince = some 8 ∧ (eccState 1 0 0 {}).reaches .hostA 18 true = true ∧
    (eccState 1 0 0 {}).expert .hostA = true := by decide

theorem test_scrub_witness : (eccState 1 0 0 {}).reaches .hostA 18 true = true ∧ (eccState 1 0 0 {}).flag F.eccScrubStatusBusy 0 = false ∧
    ((eccState 1 0 0 {}).setFlag F.eccScrubStatusBusy 0 true).flag F.eccScrubStatusBusy 0 = true ∧ classBanks 12 = 0 ∧ classBanks 3 ≠ 0 ∧
    (eccState 1 0 0 { scrub := some ⟨0, 3, 0, 1, true, [(0, bankWords 3 0)], []⟩ }).ecc.scrub = some ⟨0, 3, 0, 1, true, [(0, bankWords 3 0)], []⟩ ∧
    ScrubRun.over ⟨0, 3, 0, 1, true, [(0, bankWords 3 0)], []⟩ = true := by decide

theorem test_blank_witness : (eccState 1 0 0 {}).blankFuse = some 0 := by decide +kernel

theorem test_fuse_witness : (eccState 1 0 0 {}).flag F.eccFuseStatusBusy 0 = false ∧
    ((eccState 1 0 0 {}).setFlag F.hbmCandValid (0 : CandId) true).flag F.hbmCandValid (0 : CandId) = true ∧
    (eccState 1 0 0 {}).stackLost 0 = false ∧ lostStack.stackLost 0 = true ∧ (eccState 1 0 0 {}).flag F.hbmRepairStatusBusy 0 = false ∧
    (eccState 1 0 0 {}).flag F.hbmCandValid (0 : CandId) = false ∧ (eccState 1 0 0 { burn := some 9 }).ecc.burn = some 9 ∧
    (eccState 1 0 0 { repair := some 0 }).ecc.repair = some (0 : CandId).val ∧ (eccState 48000 0 0 {}).now % 48000 = 0 := by decide

theorem test_fuse_entry_witness : bit (Repair.entry ⟨true, 2, 0, 0⟩) 31 = true ∧ fuseParityOk (Repair.entry ⟨true, 2, 0, 0⟩) = true ∧
    (fuseRepair (Repair.entry ⟨true, 2, 0, 0⟩)).isSome = true ∧ fuseParityOk 0 = false := by decide

/-- A HOSTED block whose port A is up, with bursts `rs` waiting. -/
def portState (rs : List BusReq) : State :=
  let s := hostedState.setPort 1 { up := true }
  { s with bus := { s.bus with waiting := rs } }

theorem test_transfer_witness : hostedState.boot.risen = true ∧ (Tbl.get {} (portState []).irqs 1).up = true ∧ (Tbl.get {} (portState []).irqs 1).d3hot = false ∧
    (portState []).barAddr 1 false 0x100000 = some 0x100000 ∧ (portState []).reaches (portMaster .a) (1 + 0) false = true ∧ scratchAddr 0 0 = 0x100000 ∧
    (portState []).scratchSound 0 0 = true ∧ (portState []).bankWriteRefused .hostA 0 0 = false ∧ (portState []).reaches .hostA 18 false = true ∧
    (portState []).expert .hostA = true ∧ (portState []).masterWaits .hostA = false ∧ targetAt (0x300000 / 8 * 8) = 25 := by decide

theorem test_grant_witness : (portState [⟨.hostA, 1, 0x100000, 8, [], false, true, 0⟩]).granting 1 = some ⟨.hostA, 1, 0x100000, 8, [], false, true, 0⟩ ∧
    hasPath .hostA (1 + 0) false = true ∧ (portState [⟨.hostA, 1, 0x100000, 8, [], false, true, 0⟩]).scratchSound 0 0 = true := by decide

theorem test_doorbell_witness : (Tbl.get {} (portState []).irqs (masterNum (portMaster .a))).up = true ∧ (portState []).doorbellAt 0x100008 = some (0, 1) ∧
    (portState []).scratchSound 0 1 = true ∧ (∀ wr : Bool, (portState []).reaches .hostA 18 wr = true) ∧ (portState []).notified 1 0 = [2] := by decide

theorem test_shared_witness : (portState []).reaches .hostA 18 true = true ∧ (portState []).claimOk 1 0 = true ∧
    ((portState []).setBank 0 1 2).claimOk 1 0 = false ∧ ((portState []).setBank 0 1 1).bankState 0 = 1 ∧ ((portState []).setBank 0 1 1).bankOwner 0 = masterNum .hostA ∧
    (portState []).reaches .hostA 17 false = true ∧ (portState []).reaches .hostA 17 true = true ∧ (portState []).semOwner 3 = 0 ∧
    ({ portState [] with bus := { (portState []).bus with semOwner := [(3, 1)] } }).semOwner 3 = masterNum .hostA ∧
    ({ portState [] with bus := { (portState []).bus with armed := [(1, 5)] } }).semArmed (masterNum .hostA) 2 = true ∧ (portState []).expert .hostA = true ∧
    masterNum .hostA ≤ 3 := by decide

/-- A HOSTED block whose loader runs, at step `n` of its list, in tick `k`. -/
def bootState (n k : Nat) : State :=
  let s := (slotsState 2).wr F.sysBootStatusPhase 0 2
  { s with boot := { s.boot with step := n, p4 := 15 }, tick := { s.tick with n := k } }

theorem test_loader_witness : ({ hostedState.boot with mode := .autonomous } : BootH).p3 = true ∧ hostedState.boot.unusable = false ∧ hostedState.boot.ran = false ∧
    hostedState.runOk = true ∧ (bootState 0 0).atStep 1 = true ∧ (bootState 1 0).atStep 2 = true ∧ (bootState 2 0).atStep 3 = true ∧
    (bootState 3 0).atStep 4 = true ∧ (bootState 4 0).atStep 5 = true ∧ (bootState 1 0).checkRefused (bootState 1 0).boot.bootSlot = false ∧
    (bootState 2 0).stageRefused (bootState 2 0).boot.bootSlot = false ∧ (bootState 4 0).flag F.almStateCheckBusy 0 = false ∧
    (bootState 3 0).armResult false (tadd (bootState 3 0).now (bootState 3 0).stepArg) ≠ 1 := by decide

theorem test_no_image_witness : (bootState 0 0).headerValid 1 = false ∧ (bootState 0 0).firstImage = none := by decide

/-- A loader at its first step, image A holding one empty entry for slot 0. -/
def imageState : State :=
  let s := (bootState 0 0).wr F.nvmInfoSizeMib 0 4
  let head := 0x54425A4D + 2 ^ 32 + 2 ^ 48 + 3234392817 * 2 ^ 2016
  { s with nv := { s.nv with flash := (List.range 256).map fun j => (0x100000 + j, BitVec.ofNat 8 (head / 2 ^ (8 * j))) } }

theorem test_image_witness : imageState.firstImage = some 1 ∧ imageState.boot.fallbackTried = false ∧ imageState.bootEntries 1 = [⟨0, 0, 0, 0⟩] ∧
    imageState.stackLost 0 = false ∧ imageState.slotWriteRefused 0 = none ∧ (crc32c (imageState.flashRead (imageState.regionBase 1) 0)).toNat = 0 := by
  decide +kernel

/-- The loader at step 0 of a list in scratch bank 0 whose first word is `a`, and whose address word names scratch word 9 of the bank. -/
def listState (a : Nat) : State :=
  let s := (bootState 0 10).setFlag F.sysCtrlRemap 0 true
  ((s.setScratch 0 0 a).setScratch 0 1 (scratchAddr 0 9)).setBank 0 1 3

theorem test_steps_witness : (listState 6).atStep 6 = true ∧ (listState 6).stepAddr = scratchAddr 0 9 ∧ (listState 6).available (1 + 0) = true ∧
    (listState 6).bankWriteRefused .boot 0 9 = false ∧ (listState 7).atStep 7 = true ∧ (listState 7).scratchSound 0 9 = true ∧
    (listState 7).scratchWord 0 9 &&& (listState 7).stepValue = 0 ∧ (listState 8).atStep 8 = true ∧
    (listState 8).boot.since + (listState 8).stepArg ≤ (listState 8).tick.n ∧ (listState 0).atStep 0 = true ∧ (listState 9).atStep 9 = true ∧
    (listState 0).bankState 0 = 1 ∧ (listState 0).bankOwner 0 = 3 := by decide

theorem test_flash_commands_witness : (hostedState.wr F.nvmInfoSizeMib 0 4).nvmOk 1 0x100000 4 = true ∧ hostedState.nvmOk 1 0x100000 4 = false ∧
    (hostedState.wr F.nvmInfoSizeMib 0 4).nvmOk 2 0x100000 0 = true ∧ hostedState.nvmOk 2 0x100000 0 = false ∧
    hostedState.reaches .hostA 18 false = true := by decide

/-- A HOSTED block in tick `n` with an event buffer and monitor books `p`. -/
def pmState (n : Nat) (p : PmH) : State :=
  { hostedState.setFlag F.logStateEvbValid 0 true with tick := { hostedState.tick with n := n, begun := true }, pm := p }

theorem test_snapshot_witness : ((pmState 0 {}).setFlag F.pmCtrlAuto 0 true).flag F.pmCtrlAuto 0 = true ∧ (pmState 0 {}).now % 48000 = 0 ∧
    ((pmState 7 {}).wr F.pmCtrlSnapTick 0 (pmState 7 {}).now).rd F.pmCtrlSnapTick 0 = (pmState 7 {}).now ∧
    ((pmState 7 {}).setFlag F.pmCtrlSnapArm 0 true).flag F.pmCtrlSnapArm 0 = true ∧ (pmState 7 {}).pm.snapAt ≠ (pmState 7 {}).tick.n + 1 ∧
    (pmState 7 {}).pm.snapPending = none ∧ (pmState 7 {}).flag F.logStateEvbValid 0 = true ∧ hostedState.flag F.logStateEvbValid 0 = false ∧
    (pmState 7 { snapPending := some (7, 1) }).pm.snapPending ≠ none ∧ (pmState 7 {}).reaches .hostA 18 true = true ∧
    (pmState 0 { bwOn := true, bwLen := 48 }).bwBoundary = true := by decide

theorem test_second_witness : (pmState 48000 { secStart := some 0 }).pm.secStart = some 0 ∧ 0 < (pmState 48000 {}).tick.n ∧
    (pmState 48000 {}).now % 48000 = 0 ∧ (pmState 0 {}).now % 172800000 = 0 ∧ (pmState 0 {}).reaches .hostA 18 true = true := by decide

end Sys2Proof
end

/-! The footprint of every command: what it changes lies within what it declares. -/

namespace Sys2Proof.Machine

/-- A change within a footprint that the command's own takes in is within the command's own; that it is taken in is computed. -/
theorem Within.foot {f : Foot} {c : Instr} {s t : State} (h : Within f s t)
    (hle : f.le (Instr.foot c) = true := by dsimp only [Instr.foot]; decide) : Within (Instr.foot c) s t := h.mono hle

/-- What a completing command changes lies within its declared footprint: the footprint proved of its operation, widened to the declared one. -/
theorem exec_within {c : Instr} {s t : State} (h : exec c s = .next t) : Within (Instr.foot c) s t := by
  cases c with
  | pwrOkFall => exact (execPwrOkFall_within (h := h) ..).foot
  | rstNFall => exact (execRstNFall_within (h := h) ..).foot
  | rstNRise => exact (execRstNRise_within (h := h) ..).foot
  | hbmInitDone => exact (execHbmInitDone_within (h := h) ..).foot
  | supplyMonitorTrip => exact (execSupplyMonitorTrip_within (h := h) ..).foot
  | tickEdge => exact (execTickEdge_within (h := h) ..).foot
  | txPllLock => exact (execTxPllLock_within (h := h) ..).foot
  | txFrameStart => exact (execTxFrameStart_within (h := h) ..).foot
  | rxBlock => exact (execRxBlock_within (h := h) ..).foot
  | blockLockAcquire => exact (execBlockLockAcquire_within (h := h) ..).foot
  | blockLockLoss => exact (execBlockLockLoss_within (h := h) ..).foot
  | faSyncEntry => exact (execFaSyncEntry_within (h := h) ..).foot
  | faSyncLoss => exact (execFaSyncLoss_within (h := h) ..).foot
  | rxFrameDeliver => exact (execRxFrameDeliver_within (h := h) ..).foot
  | verdictForm => exact (execVerdictForm_within (h := h) ..).foot
  | lagDeadlineMiss => exact (execLagDeadlineMiss_within (h := h) ..).foot
  | quadFailure => exact (execQuadFailure_within (h := h) ..).foot
  | clockLaneAcquire => exact (execClockLaneAcquire_within (h := h) ..).foot
  | deskewDone => exact (execDeskewDone_within (h := h) ..).foot
  | quadStateTimeout => exact (execQuadStateTimeout_within (h := h) ..).foot
  | quadWaitEnd => exact (execQuadWaitEnd_within (h := h) ..).foot
  | laneLoopSelect => exact (execLaneLoopSelect_within (h := h) ..).foot
  | laneRestart => exact (execLaneRestart_within (h := h) ..).foot
  | prbsTxEnable => exact (execPrbsTxEnable_within (h := h) ..).foot
  | prbsRxEnable => exact (execPrbsRxEnable_within (h := h) ..).foot
  | prbsCheckerLock => exact (execPrbsCheckerLock_within (h := h) ..).foot
  | prbsCheckerUnlock => exact (execPrbsCheckerUnlock_within (h := h) ..).foot
  | adaptDecision => exact (execAdaptDecision_within (h := h) ..).foot
  | adaptRequestTimeout => exact (execAdaptRequestTimeout_within (h := h) ..).foot
  | adaptSilenceTimeout => exact (execAdaptSilenceTimeout_within (h := h) ..).foot
  | adaptTrainTimeout => exact (execAdaptTrainTimeout_within (h := h) ..).foot
  | eyeScanStart => exact (execEyeScanStart_within (h := h) ..).foot
  | eyeScanAbort => exact (execEyeScanAbort_within (h := h) ..).foot
  | eyeScanPoint => exact (execEyeScanPoint_within (h := h) ..).foot
  | mboxSend => exact (execMboxSend_within (h := h) ..).foot
  | userSend => exact (execUserSend_within (h := h) ..).foot
  | neighbourChangedClear => exact (execNeighbourChangedClear_within (h := h) ..).foot
  | losExit => exact (execLosExit_within (h := h) ..).foot
  | lofEntry => exact (execLofEntry_within (h := h) ..).foot
  | lofExit => exact (execLofExit_within (h := h) ..).foot
  | blockTypeErrEntry => exact (execBlockTypeErrEntry_within (h := h) ..).foot
  | blockTypeErrExit => exact (execBlockTypeErrExit_within (h := h) ..).foot
  | rdiEntry => exact (execRdiEntry_within (h := h) ..).foot
  | rdiExit => exact (execRdiExit_within (h := h) ..).foot
  | discordEntry => exact (execDiscordEntry_within (h := h) ..).foot
  | discordExit => exact (execDiscordExit_within (h := h) ..).foot
  | lagLateRaise => exact (execLagLateRaise_within (h := h) ..).foot
  | lagLateClear => exact (execLagLateClear_within (h := h) ..).foot
  | lagStampRangeRaise => exact (execLagStampRangeRaise_within (h := h) ..).foot
  | lagStampRangeClear => exact (execLagStampRangeClear_within (h := h) ..).foot
  | lagMarginClear => exact (execLagMarginClear_within (h := h) ..).foot
  | lagStackOff => exact (execLagStackOff_within (h := h) ..).foot
  | hbmTempTrip => exact (execHbmTempTrip_within (h := h) ..).foot
  | stackUeLoss => exact (execStackUeLoss_within (h := h) ..).foot
  | stackFallbackEntry => exact (execStackFallbackEntry_within (h := h) ..).foot
  | evbMove => exact (execEvbMove_within (h := h) ..).foot
  | lagStackRestore => exact (execLagStackRestore_within (h := h) ..).foot
  | stackRestoreDone => exact (execStackRestoreDone_within (h := h) ..).foot
  | stackRestoreFail => exact (execStackRestoreFail_within (h := h) ..).foot
  | fallbackReleaseEnd => exact (execFallbackReleaseEnd_within (h := h) ..).foot
  | lagLinkCfgWrite => exact (execLagLinkCfgWrite_within (h := h) ..).foot
  | lagArrExtremesRead => exact (execLagArrExtremesRead_within (h := h) ..).foot
  | protCmdClear => exact (execProtCmdClear_within (h := h) ..).foot
  | protCmdManualP => exact (execProtCmdManualP_within (h := h) ..).foot
  | protCmdManualS => exact (execProtCmdManualS_within (h := h) ..).foot
  | protCmdForceP => exact (execProtCmdForceP_within (h := h) ..).foot
  | protCmdForceS => exact (execProtCmdForceS_within (h := h) ..).foot
  | protCmdLockout => exact (execProtCmdLockout_within (h := h) ..).foot
  | protCfgWrite => exact (execProtCfgWrite_within (h := h) ..).foot
  | protSfEntry => exact (execProtSfEntry_within (h := h) ..).foot
  | protSfExit => exact (execProtSfExit_within (h := h) ..).foot
  | protSdWindowEnd => exact (execProtSdWindowEnd_within (h := h) ..).foot
  | protWtrEnd => exact (execProtWtrEnd_within (h := h) ..).foot
  | protMisalignedRaise => exact (execProtMisalignedRaise_within (h := h) ..).foot
  | protMisalignedClear => exact (execProtMisalignedClear_within (h := h) ..).foot
  | protRxFreshExpire => exact (execProtRxFreshExpire_within (h := h) ..).foot
  | scheduleOverrunClear => exact (execScheduleOverrunClear_within (h := h) ..).foot
  | scheduleClashClear => exact (execScheduleClashClear_within (h := h) ..).foot
  | coreSlackRead => exact (execCoreSlackRead_within (h := h) ..).foot
  | libraryWrite => exact (execLibraryWrite_within (h := h) ..).foot
  | almCheck => exact (execAlmCheck_within (h := h) ..).foot
  | almCheckDone => exact (execAlmCheckDone_within (h := h) ..).foot
  | almStage => exact (execAlmStage_within (h := h) ..).foot
  | almStageDone => exact (execAlmStageDone_within (h := h) ..).foot
  | almArm => exact (execAlmArm_within (h := h) ..).foot
  | almDisarm => exact (execAlmDisarm_within (h := h) ..).foot
  | almRejoin => exact (execAlmRejoin_within (h := h) ..).foot
  | epochCommit => exact (execEpochCommit_within (h := h) ..).foot
  | epochSwap => exact (execEpochSwap_within (h := h) ..).foot
  | epochSumSwap => exact (execEpochSumSwap_within (h := h) ..).foot
  | epochEmitSwap => exact (execEpochEmitSwap_within (h := h) ..).foot
  | epochSwapComplete => exact (execEpochSwapComplete_within (h := h) ..).foot
  | epochMissedClear => exact (execEpochMissedClear_within (h := h) ..).foot
  | trimGo => exact (execTrimGo_within (h := h) ..).foot
  | trimApply => exact (execTrimApply_within (h := h) ..).foot
  | tableWindowWrite => exact (execTableWindowWrite_within (h := h) ..).foot
  | tableWindowApply => exact (execTableWindowApply_within (h := h) ..).foot
  | auditPassEnd => exact (execAuditPassEnd_within (h := h) ..).foot
  | almAuditCtrlWrite => exact (execAlmAuditCtrlWrite_within (h := h) ..).foot
  | refEvent => exact (execRefEvent_within (h := h) ..).foot
  | refEventMissing => exact (execRefEventMissing_within (h := h) ..).foot
  | refQualify => exact (execRefQualify_within (h := h) ..).foot
  | refWtrEnd => exact (execRefWtrEnd_within (h := h) ..).foot
  | timCmdClear => exact (execTimCmdClear_within (h := h) ..).foot
  | timCmdForceRef => exact (execTimCmdForceRef_within (h := h) ..).foot
  | timCmdForceHoldover => exact (execTimCmdForceHoldover_within (h := h) ..).foot
  | timCmdAdopt => exact (execTimCmdAdopt_within (h := h) ..).foot
  | timDcoWrite => exact (execTimDcoWrite_within (h := h) ..).foot
  | holdoverSecondEnd => exact (execHoldoverSecondEnd_within (h := h) ..).foot
  | dcoLimitClear => exact (execDcoLimitClear_within (h := h) ..).foot
  | exchangeStart => exact (execExchangeStart_within (h := h) ..).foot
  | probeReceive => exact (execProbeReceive_within (h := h) ..).foot
  | reportReceive => exact (execReportReceive_within (h := h) ..).foot
  | exchangeTimeout => exact (execExchangeTimeout_within (h := h) ..).foot
  | tickAdopt => exact (execTickAdopt_within (h := h) ..).foot
  | adoptWaitEnd => exact (execAdoptWaitEnd_within (h := h) ..).foot
  | mateFrameReceive => exact (execMateFrameReceive_within (h := h) ..).foot
  | mateRoleChange => exact (execMateRoleChange_within (h := h) ..).foot
  | mateJoinWaitEnd => exact (execMateJoinWaitEnd_within (h := h) ..).foot
  | mateHbEdge => exact (execMateHbEdge_within (h := h) ..).foot
  | mateHbLost => exact (execMateHbLost_within (h := h) ..).foot
  | mateHbLossClassify => exact (execMateHbLossClassify_within (h := h) ..).foot
  | mateHbRegain => exact (execMateHbRegain_within (h := h) ..).foot
  | mateLinkDownRaise => exact (execMateLinkDownRaise_within (h := h) ..).foot
  | mateLinkDownClear => exact (execMateLinkDownClear_within (h := h) ..).foot
  | mirrorApply => exact (execMirrorApply_within (h := h) ..).foot
  | resyncRecordApply => exact (execResyncRecordApply_within (h := h) ..).foot
  | resyncSettled => exact (execResyncSettled_within (h := h) ..).foot
  | mateUnsettledTimeout => exact (execMateUnsettledTimeout_within (h := h) ..).foot
  | mateDiscrepancyClear => exact (execMateDiscrepancyClear_within (h := h) ..).foot
  | mateWatchExpire => exact (execMateWatchExpire_within (h := h) ..).foot
  | mateCmdSwap => exact (execMateCmdSwap_within (h := h) ..).foot
  | mateCmdClearFault => exact (execMateCmdClearFault_within (h := h) ..).foot
  | mateCmdResync => exact (execMateCmdResync_within (h := h) ..).foot
  | tableRestore => exact (execTableRestore_within (h := h) ..).foot
  | trackerThreshold => exact (execTrackerThreshold_within (h := h) ..).foot
  | trackerWriteback => exact (execTrackerWriteback_within (h := h) ..).foot
  | trackerEntryFree => exact (execTrackerEntryFree_within (h := h) ..).foot
  | testStepStart => exact (execTestStepStart_within (h := h) ..).foot
  | testStepEnd => exact (execTestStepEnd_within (h := h) ..).foot
  | eccTestNow => exact (execEccTestNow_within (h := h) ..).foot
  | scrubStart => exact (execScrubStart_within (h := h) ..).foot
  | scrubAbort => exact (execScrubAbort_within (h := h) ..).foot
  | scrubPassEnd => exact (execScrubPassEnd_within (h := h) ..).foot
  | fuseBurn => exact (execFuseBurn_within (h := h) ..).foot
  | fuseBurnDone => exact (execFuseBurnDone_within (h := h) ..).foot
  | hbmRepairGo => exact (execHbmRepairGo_within (h := h) ..).foot
  | hbmRepairDone => exact (execHbmRepairDone_within (h := h) ..).foot
  | hbmEcsRead => exact (execHbmEcsRead_within (h := h) ..).foot
  | eccUeClear => exact (execEccUeClear_within (h := h) ..).foot
  | eccHardClear => exact (execEccHardClear_within (h := h) ..).foot
  | eccTestFailClear => exact (execEccTestFailClear_within (h := h) ..).foot
  | eccTrackFullClear => exact (execEccTrackFullClear_within (h := h) ..).foot
  | trimLostClear => exact (execTrimLostClear_within (h := h) ..).foot
  | hostLinkUp => exact (execHostLinkUp_within (h := h) ..).foot
  | hostRead => exact (execHostRead_within (h := h) ..).foot
  | hostWrite => exact (execHostWrite_within (h := h) ..).foot
  | busGrant => exact (execBusGrant_within (h := h) ..).foot
  | busErrLastRead => exact (execBusErrLastRead_within (h := h) ..).foot
  | atomicFetchadd => exact (execAtomicFetchadd_within (h := h) ..).foot
  | atomicSwap => exact (execAtomicSwap_within (h := h) ..).foot
  | atomicCas => exact (execAtomicCas_within (h := h) ..).foot
  | doorbellSet => exact (execDoorbellSet_within (h := h) ..).foot
  | doorbellClear => exact (execDoorbellClear_within (h := h) ..).foot
  | doorbellFetchClear => exact (execDoorbellFetchClear_within (h := h) ..).foot
  | doorbellAdd => exact (execDoorbellAdd_within (h := h) ..).foot
  | scratchClaim => exact (execScratchClaim_within (h := h) ..).foot
  | scratchRelease => exact (execScratchRelease_within (h := h) ..).foot
  | scratchGive => exact (execScratchGive_within (h := h) ..).foot
  | semTry => exact (execSemTry_within (h := h) ..).foot
  | semRelease => exact (execSemRelease_within (h := h) ..).foot
  | semArm => exact (execSemArm_within (h := h) ..).foot
  | semForce => exact (execSemForce_within (h := h) ..).foot
  | masterReset => exact (execMasterReset_within (h := h) ..).foot
  | remapWrite => exact (execRemapWrite_within (h := h) ..).foot
  | bootLoaderStart => exact (execBootLoaderStart_within (h := h) ..).foot
  | sysBootRun => exact (execSysBootRun_within (h := h) ..).foot
  | loadImage => exact (execLoadImage_within (h := h) ..).foot
  | checkBoot => exact (execCheckBoot_within (h := h) ..).foot
  | stageBoot => exact (execStageBoot_within (h := h) ..).foot
  | activate => exact (execActivate_within (h := h) ..).foot
  | checkRest => exact (execCheckRest_within (h := h) ..).foot
  | bootStepWrite => exact (execBootStepWrite_within (h := h) ..).foot
  | bootStepPoll => exact (execBootStepPoll_within (h := h) ..).foot
  | bootStepWait => exact (execBootStepWait_within (h := h) ..).foot
  | bootStepEnd => exact (execBootStepEnd_within (h := h) ..).foot
  | funcEnable => exact (execFuncEnable_within (h := h) ..).foot
  | funcDisable => exact (execFuncDisable_within (h := h) ..).foot
  | funcStartDone => exact (execFuncStartDone_within (h := h) ..).foot
  | funcStartFail => exact (execFuncStartFail_within (h := h) ..).foot
  | funcStopDone => exact (execFuncStopDone_within (h := h) ..).foot
  | nvmProgram => exact (execNvmProgram_within (h := h) ..).foot
  | nvmErase => exact (execNvmErase_within (h := h) ..).foot
  | nvmCmdDone => exact (execNvmCmdDone_within (h := h) ..).foot
  | snapshotAuto => exact (execSnapshotAuto_within (h := h) ..).foot
  | pmSnap => exact (execPmSnap_within (h := h) ..).foot
  | snapshotArmedTick => exact (execSnapshotArmedTick_within (h := h) ..).foot
  | snapshotWritten => exact (execSnapshotWritten_within (h := h) ..).foot
  | bwWindowEnd => exact (execBwWindowEnd_within (h := h) ..).foot
  | pmBwCfgWrite => exact (execPmBwCfgWrite_within (h := h) ..).foot
  | pmSecondEnd => exact (execPmSecondEnd_within (h := h) ..).foot
  | alarmLatchClear => exact (execAlarmLatchClear_within (h := h) ..).foot
  | intSrcClear => exact (execIntSrcClear_within (h := h) ..).foot
  | logHourly => exact (execLogHourly_within (h := h) ..).foot
  | logFlush => exact (execLogFlush_within (h := h) ..).foot
  | logStoreStart => exact (execLogStoreStart_within (h := h) ..).foot
  | logStoreDone => exact (execLogStoreDone_within (h := h) ..).foot
  | tempUpdate => exact (execTempUpdate_within (h := h) ..).foot
  | jtagTapReset => exact (execJtagTapReset_within (h := h) ..).foot
  | jtagInstruction => exact (execJtagInstruction_within (h := h) ..).foot
  | registerWrite => exact (execRegisterWrite_within (h := h) ..).foot
  | lossOfSignal => exact (execLossOfSignal_within (h := h) ..).foot
  | tickStop => exact (execTickStop_within (h := h) ..).foot
  | endOfP2 => exact (execEndOfP2_within (h := h) ..).foot
  | endOfP3 => exact (execEndOfP3_within (h := h) ..).foot
  | configurationRequest => exact (execConfigurationRequest_within (h := h) ..).foot
  | sysTempRead => exact (execSysTempRead_within (h := h) ..).foot
  | hbmTemperatureReport => exact (execHbmTemperatureReport_within (h := h) ..).foot

/-- Settles O3, command by command: the footprint that each operation is proved to keep to lies within the one its command declares. -/
theorem everyCommandKeepsToItsFootprint : Obligations.EveryCommandKeepsToItsFootprint := fun _ _ _ => exec_within

end Sys2Proof.Machine

/-! What a tick edge does to the books of the tick: its number and place move by one, and no stage that closes a tick or begins one touches them. -/

namespace Sys2Proof.Machine

/-! ### The tick in progress -/

/-- From `s` to `t` the books of the tick in progress (its number, the numbers of the two before, begun, stopped) stay as they are, but for the
list of its integrity events (10 R263). -/
def SameTick (s t : State) : Prop := { t.tick with events := [] } = { s.tick with events := [] }

theorem SameTick.refl (s : State) : SameTick s s := rfl

theorem SameTick.trans {s t u : State} (h : SameTick s t) (h' : SameTick t u) : SameTick s u := Eq.trans h' h

/-- A change whose footprint leaves the tick out keeps the tick. -/
theorem SameTick.within {f : Foot} {s t u : State} (h : SameTick s t) (w : Within f t u) (hc : f.hasComp .tick = false) :
    SameTick s u := by
  rw [SameTick, w.tick hc]
  exact h

theorem SameTick.of_eq {α : Type} {s y : State} {p : α × State} {a : α} (h : SameTick s p.2) (e : p = (a, y)) : SameTick s y := by
  rw [e] at h
  exact h

section
variable {s x : State} (h : SameTick s x)
include h

theorem SameTick.setWord {r : Reg} {i : Nat} {v : Word} : SameTick s (x.setWord r i v) := h
theorem SameTick.wr {f : Field} {i v : Nat} : SameTick s (x.wr f i v) := h
theorem SameTick.setFlag {f : Field} {i : Nat} {b : Bool} : SameTick s (x.setFlag f i b) := h
theorem SameTick.count {r : Reg} {i : Nat} : SameTick s (x.count r i) := h
theorem SameTick.countBy {r : Reg} {i n : Nat} : SameTick s (x.countBy r i n) := h
theorem SameTick.set_log {v : LogH} : SameTick s { x with log := v } := h
theorem SameTick.set_lag {v : LagH} : SameTick s { x with lag := v } := h
theorem SameTick.set_core {v : CoreH} : SameTick s { x with core := v } := h
theorem SameTick.set_ecc {v : EccH} : SameTick s { x with ecc := v } := h
theorem SameTick.set_bus {v : BusH} : SameTick s { x with bus := v } := h
theorem SameTick.set_mate {v : MateH} : SameTick s { x with mate := v } := h
theorem SameTick.set_hbm {v : Memory} : SameTick s { x with hbm := v } := h

/-- An integrity event noted. -/
theorem SameTick.set_events {l : List Nat} : SameTick s { x with tick := { x.tick with events := l } } := h

theorem SameTick.set_core_events {v : CoreH} {l : List Nat} : SameTick s { x with core := v, tick := { x.tick with events := l } } := h

theorem SameTick.when {b : Bool} {g : State → State} (hg : ∀ y, SameTick s y → SameTick s (g y)) : SameTick s (x.when b g) := by
  unfold State.when
  split
  · exact hg x h
  · exact h

theorem SameTick.each {α : Type} {l : List α} {g : α → State → State} (hg : ∀ a y, SameTick s y → SameTick s (g a y)) :
    SameTick s (x.each l g) := by
  unfold State.each
  induction l generalizing x with
  | nil => exact h
  | cons a l ih => exact ih (hg a x h)

end

/-- A fold whose every round keeps the tick of the state that `p` finds in what is folded. -/
theorem SameTick.foldl {α σ : Type} {s : State} (p : σ → State) {l : List α} {g : σ → α → σ} {acc : σ} (h : SameTick s (p acc))
    (hg : ∀ a acc, SameTick s (p acc) → SameTick s (p (g acc a))) : SameTick s (p (l.foldl g acc)) := by
  induction l generalizing acc with
  | nil => exact h
  | cons a l ih => exact ih (hg a acc h)

theorem SameTick.iter {σ : Type} {s : State} (p : σ → State) {g : Nat → σ → σ} {lo n : Nat} {acc : σ} (h : SameTick s (p acc))
    (hg : ∀ k acc, SameTick s (p acc) → SameTick s (p (g k acc))) : SameTick s (p (iter g lo n acc)) := by
  induction n generalizing lo acc with
  | zero => exact h
  | succ n ih => exact ih (hg lo acc h)

theorem SameTick.eachN {s x : State} {n : Nat} {g : Nat → State → State} (h : SameTick s x)
    (hg : ∀ k y, SameTick s y → SameTick s (g k y)) : SameTick s (x.eachN n g) := SameTick.iter id h hg

/-! ### Reads of SRAM and HBM -/

theorem State.ueSeen_sameTick (s : State) (a : Nat) (path : Bool) : SameTick s (s.ueSeen a path) := by
  unfold State.ueSeen
  extract_lets x y z t u v
  have hv : SameTick s v := ((((SameTick.refl s).count.setWord).setFlag).within (State.raise_within ..) rfl).set_log
  split
  next who w e =>
  have hw : SameTick s w := (hv.within (State.takeFree_within v) rfl).of_eq e
  extract_lets k
  have hk : SameTick s k := hw.within (State.logEvent_within ..) rfl
  split
  · exact hk.set_events
  · exact hk

theorem State.ueFound_sameTick (s : State) (a : Nat) (path : Bool) : SameTick s (s.ueFound a path) := by
  have h := s.ueSeen_sameTick a path
  unfold State.ueFound
  extract_lets x
  split
  · exact h.within (State.wantRestore_within ..) rfl
  · split
    · exact h.wr.count
    · exact h

theorem State.readWith_sameTick (s : State) (a : Nat) (poisoned : Bool) (v : Nat) (flips : List Nat) (found : State → State)
    (h : SameTick s (found s)) : SameTick s (s.readWith a poisoned v flips found).2 := by
  unfold State.readWith
  split
  · split
    · exact (SameTick.refl s).count
    · exact .refl s
  · split
    · exact .refl s
    · exact (SameTick.refl s).set_log.count.within (State.trackCount_within ..) rfl
    · exact h
    · exact (SameTick.refl s).count

theorem State.sramRead_sameTick (s : State) (a : Nat) (poisoned : Bool) (v : Nat) (path : Bool) :
    SameTick s (s.sramRead a poisoned v path).2 := s.readWith_sameTick _ _ _ _ _ (s.ueFound_sameTick a path)

theorem State.hbmUncorrected_sameTick (s : State) (a : Nat) (path : Bool) : SameTick s (s.hbmUncorrected a path) := by
  unfold State.hbmUncorrected
  extract_lets x y t u v
  have hv : SameTick s v := ((SameTick.refl s).count.setFlag.within (State.raise_within ..) rfl).set_log
  split
  next place w e =>
  have hw : SameTick s w := (hv.within (State.takeFree_within v) rfl).of_eq e
  split
  next who k e' =>
  have hk : SameTick s k := (hw.within (State.takeFree_within w) rfl).of_eq e'
  extract_lets m _ n
  have hm : SameTick s m := hk.within (State.logEvent_within ..) rfl
  have hn : SameTick s n := by
    dsimp only [n]
    split
    · exact hm.set_events
    · exact hm
  exact hn.within (State.hbmCandidate_within ..) rfl

/-! ### Release from the lag store -/

theorem State.pageFail_sameTick (s : State) (l : Nat) (short : Bool) : SameTick s (s.pageFail l short) := by
  unfold State.pageFail
  extract_lets x _ y k z seen
  have hz : SameTick s z := (SameTick.refl s).count.set_events.count
  split
  · exact (SameTick.refl s).count.set_events
  · split
    · exact hz
    · exact hz.set_lag

theorem State.releaseShort_sameTick (s : State) (l n : Nat) (failed : List Nat) : SameTick s (s.releaseShort l n failed).2 := by
  unfold State.releaseShort
  extract_lets r key words desc x _ y
  have hy : SameTick s y := ((SameTick.refl s).within (State.releasePos_within ..) rfl).set_lag
  clear_value desc
  split
  · split
    · extract_lets bad z
      have hz : SameTick s z := hy.each fun _ w h => h.trans (w.pageFail_sameTick ..)
      exact hz.within (State.releaseFrame_within ..) rfl
    · exact hy.within (State.releaseAbsent_within ..) rfl
  · exact hy.within (State.releaseAbsent_within ..) rfl

theorem State.releaseHbm_sameTick (s : State) (l n : Nat) (f : PageFaults) : SameTick s (s.releaseHbm l n f).2 := by
  unfold State.releaseHbm
  extract_lets r a stamp status pages words crc x y failed _ bad z
  have hy : SameTick s y := ((SameTick.refl s).within (State.releasePos_within ..) rfl).set_hbm
  split
  · have hf : SameTick s failed := (hy.trans (y.hbmUncorrected_sameTick ..)).trans (State.pageFail_sameTick ..)
    exact (hf.within (State.setLagLink_within ..) rfl).within (State.releaseAbsent_within ..) rfl
  · split
    · have hz : SameTick s z := by
        refine hy.each fun j w h => ?_
        extract_lets page u v
        have hu : SameTick s u := by
          dsimp only [u]
          split
          · exact h.trans (w.hbmUncorrected_sameTick ..)
          · exact h
        have hv : SameTick s v := (hu.trans (u.pageFail_sameTick ..)).within (State.rowFail_within ..) rfl
        split
        · exact hv.count
        · exact hv
      exact (hz.within (State.meter_within ..) rfl).within (State.releaseFrame_within ..) rfl
    · exact hy.within (State.releaseAbsent_within ..) rfl

theorem State.lagRelease_sameTick (s : State) (l : Nat) (f : PageFaults) : SameTick s (s.lagRelease l f).2 := by
  have absent : SameTick s (s.releaseAbsent l).2 := (SameTick.refl s).within (State.releaseAbsent_within ..) rfl
  unfold State.lagRelease
  extract_lets h u fromFirst k fbNow
  split
  · split
    · exact s.releaseShort_sameTick ..
    · exact absent
  · split
    · split
      · exact s.releaseShort_sameTick ..
      · exact absent
    · split
      · exact absent
      · exact s.releaseHbm_sameTick ..

/-! ### Reads of the core's memories -/

theorem State.frameRead_sameTick (s : State) (g l w : Nat) (path : Bool) : SameTick s (s.frameRead g l w path).2 :=
  s.sramRead_sameTick ..

theorem State.bridgeRead_sameTick (s : State) (g w : Nat) (path : Bool) : SameTick s (s.bridgeRead g w path).2 :=
  s.sramRead_sameTick ..

theorem State.wordRead_sameTick (s : State) (g bank word : Nat) (path : Bool) : SameTick s (s.wordRead g bank word path).2 := by
  unfold State.wordRead
  split
  · exact s.frameRead_sameTick ..
  · exact s.bridgeRead_sameTick ..

theorem State.fetchRead_sameTick (s : State) (edits : List TableEdit) (a i c now : Nat) (path : Bool) :
    SameTick s (s.fetchRead edits a i c now path).2 := by
  unfold State.fetchRead
  split
  · exact s.readWith_sameTick _ _ _ _ _ (s.ueSeen_sameTick ..)
  · exact s.sramRead_sameTick ..

theorem State.recordRead_sameTick (s : State) (addr : Nat → Nat) (bits n : Nat) : SameTick s (s.recordRead addr bits n).2 := by
  unfold State.recordRead
  refine SameTick.iter Prod.snd (.refl s) fun k acc h => ?_
  have hr := h.trans (acc.2.sramRead_sameTick (addr k) false (field bits (64 * k) 64) true)
  split <;> exact hr.of_eq ‹_›

/-! ### The selector and the up-converters -/

theorem State.releaseAll_sameTick (s : State) (e : TickEnv) : SameTick s (s.releaseAll e).2 := by
  unfold State.releaseAll
  refine SameTick.iter Prod.snd (.refl s) fun l acc h => ?_
  split
  · exact h.trans (acc.2.lagRelease_sameTick ..)
  · exact h

theorem State.selectorStage_sameTick (s : State) (g3 : Nat) (e : TickEnv) : SameTick s (s.selectorStage g3 e) := by
  unfold State.selectorStage
  split
  next rel x ex =>
  have hx : SameTick s x := (s.releaseAll_sameTick e).of_eq ex
  extract_lets get
  split
  next chosen y ey =>
  have hy : SameTick s y := by
    refine SameTick.of_eq (SameTick.iter Prod.snd hx fun g acc h => ?_) ey
    extract_lets k
    split
    · exact h.within (State.protSelect_within ..) rfl
    · exact h
  exact hy.set_core.within (State.freshBanks_within ..) rfl

theorem State.upCfgRead_sameTick (s : State) (i : Nat) : SameTick s (s.upCfgRead i).2 := by
  have h := s.sramRead_sameTick (eccAddr 5 (24 + i % 2) (i / 4)) false (s.upCfgWord i) true
  unfold State.upCfgRead
  split <;> exact h.of_eq ‹_›

theorem State.upRecordRead_sameTick (s : State) (i : Nat) : SameTick s (s.upRecordRead i).2 := by
  unfold State.upRecordRead
  extract_lets u x y
  have hy : SameTick s y.2 := (s.recordRead_sameTick ..).trans (x.2.upCfgRead_sameTick i)
  split
  · exact .refl s
  · split <;> exact hy

theorem State.upStep_sameTick (s : State) (g t i : Nat) : SameTick s (s.upStep g t i) := by
  have h := s.upRecordRead_sameTick i
  unfold State.upStep
  split
  · exact .refl s
  · split
    next x e =>
      exact (((h.of_eq e).within (State.setUp_within ..) rfl).within (State.recordFresh_within ..) rfl).within (State.bridgePut_within ..) rfl
    next c u x e =>
      have hx := h.of_eq e
      extract_lets mode v m phi u' y
      have hy : SameTick s y := by
        dsimp only [y]
        split
        · exact (hx.within (State.setUp_within ..) rfl).within (State.recordFresh_within ..) rfl
        · exact hx
      split
      · exact hx.within (State.bridgePut_within ..) rfl
      · exact hy.within (State.bridgePut_within ..) rfl

theorem State.upStage_sameTick (s : State) (g t : Nat) : SameTick s (s.upStage g t) := by
  unfold State.upStage
  exact (SameTick.each (SameTick.refl s).set_core fun i y h => h.trans (y.upStep_sameTick ..)).within (State.freshBanks_within ..) rfl

/-! ### The sum stage -/

theorem State.issueFetch_sameTick (s : State) (i : Nat) : SameTick s (s.issueFetch i).2 := by
  unfold State.issueFetch
  refine SameTick.foldl Prod.snd (.refl s) fun lane acc h => ?_
  split
  · extract_lets q t
    have hr := h.trans (acc.2.fetchRead_sameTick acc.2.core.termEdits (eccAddr 1 (2 * lane + b2n acc.2.core.sumHalf) i) q (cycleOf (4096 + i))
      (Tbl.get 0 acc.2.core.terms q).toNat true)
    split
    next e => exact hr.of_eq e
    next e => exact (hr.of_eq e).count
  · exact h

theorem State.issueReads_sameTick (s : State) (g t : Nat) (is : List Issue) : SameTick s (s.issueReads g t is).2.2 := by
  unfold State.issueReads
  extract_lets step
  refine SameTick.foldl (s := s) (fun acc => acc.2.2.2) (l := is) (g := step) (acc := ([], [], false, s)) (.refl s) fun x acc h => ?_
  obtain ⟨out, got, clash, y⟩ := acc
  dsimp only [step]
  split
  · exact h
  · split
    · exact h
    · split
      · exact h.count
      · split
        · exact h
        · exact h.trans (y.wordRead_sameTick ..)

theorem State.sumPost_sameTick (s : State) (p : Nat) (b : SumBuf) (x : LaneSum) : SameTick s (s.sumPost p b x).2 := by
  unfold State.sumPost
  extract_lets a bad
  have h := s.sramRead_sameTick a false (Tbl.get 0 b.sums x.sorus).toNat true
  split
  next e => exact (h.of_eq e).within (State.freshWord_within ..) rfl
  next e => exact h.of_eq e

theorem State.sumPosts_sameTick (s : State) (p : Nat) (r : SumRun) (ps : List LaneSum) : SameTick s (s.sumPosts p r ps).2.2 := by
  unfold State.sumPosts
  refine SameTick.foldl Prod.snd (.refl s) fun x acc h => ?_
  split
  · exact h
  · exact h.trans (acc.2.sumPost_sameTick ..)

theorem State.sumIssue_sameTick (s : State) (p g t i : Nat) (r : SumRun) : SameTick s (s.sumIssue p g t i r).2 := by
  unfold State.sumIssue
  split
  next is x ex =>
  have hx : SameTick s x := (s.issueFetch_sameTick i).of_eq ex
  split
  next xs clash y ey =>
  have hy : SameTick s y := hx.trans ((x.issueReads_sameTick g t is).of_eq (congrArg Prod.snd ey))
  extract_lets step
  split
  split
  next r' n z ez =>
  have hz : SameTick s z := hy.trans ((y.sumPosts_sameTick ..).of_eq (congrArg Prod.snd ez))
  exact hz.countBy

theorem State.sumDone_sameTick (s : State) (p : Nat) (r : SumRun) : SameTick s (s.sumDone p r) := by
  unfold State.sumDone
  extract_lets _ x y z _ w
  have hy : SameTick s y := by
    dsimp only [y]
    split
    · exact (SameTick.refl s).set_core.setFlag
    · exact (SameTick.refl s).set_core
  have hz : SameTick s z := by
    dsimp only [z]
    split
    · exact hy.setFlag
    · exact hy
  split
  · exact hz.set_core_events.within (State.raiseEach_within ..) rfl
  · exact hz

theorem State.sumRun_sameTick (s : State) (p g t : Nat) : SameTick s (s.sumRun p g t).2 := by
  unfold State.sumRun
  exact SameTick.iter Prod.snd (.refl s) fun i acc h => h.trans (acc.2.sumIssue_sameTick ..)

theorem State.sumStage_sameTick (s : State) (p g t : Nat) : SameTick s (s.sumStage p g t) := by
  unfold State.sumStage
  extract_lets x
  have hx : SameTick s x.2 := s.sumRun_sameTick p g t
  exact hx.trans (x.2.sumDone_sameTick ..)

/-! ### The emit stage -/

theorem State.fetchEntries_sameTick (s : State) (k gen : Nat) (slots : List Nat) : SameTick s (s.fetchEntries k gen slots).2 := by
  unfold State.fetchEntries
  refine SameTick.foldl Prod.snd (.refl s) fun sl acc h => ?_
  extract_lets i now c
  have hr := h.trans (acc.2.fetchRead_sameTick acc.2.core.emitEdits (eccAddr 0 (2 * k + b2n acc.2.core.emitHalf) sl) i c now true)
  split <;> exact hr.of_eq ‹_›

theorem State.doRead_sameTick (s : State) (g p : Nat) (r : BankRead) : SameTick s (s.doRead g p r).2 := by
  unfold State.doRead
  split
  · exact s.wordRead_sameTick ..
  · extract_lets b
    have h := s.sramRead_sameTick (eccAddr 3 (64 * p + r.word % 64) (r.word / 64)) false (Tbl.get 0 b.sums r.word).toNat true
    split
    next e => split <;> exact h.of_eq e
    next => exact h

theorem State.doReads_sameTick (s : State) (g p : Nat) (rs : List BankRead) : SameTick s (s.doReads g p rs).2 := by
  unfold State.doReads
  exact SameTick.foldl Prod.snd (.refl s) fun r acc h => h.trans (acc.2.doRead_sameTick ..)

theorem State.downRead_sameTick (s : State) (i : Nat) : SameTick s (s.downRead i).2 := by
  unfold State.downRead
  extract_lets d
  have h := s.recordRead_sameTick (downAddr i) d.bits 8
  split
  · exact .refl s
  · split
    next e => exact h.of_eq e
    next e => exact (h.of_eq e).set_core

theorem State.downRead4_sameTick (s : State) (i : Nat) : SameTick s (s.downRead4 i).2 := by
  unfold State.downRead4
  exact SameTick.iter Prod.snd (.refl s) fun j acc h => h.trans (acc.2.downRead_sameTick ..)

theorem State.downReads_sameTick (s : State) (r : EmitRun) (f : Fetched) (i : Nat) : SameTick s (s.downReads r f i).2 := by
  unfold State.downReads
  split
  · split
    · exact s.downRead4_sameTick i
    · split
      · exact s.downRead_sameTick i
      · exact .refl s
  · exact s.downRead_sameTick i

theorem State.legacyEntry_sameTick (s : State) (l n : Nat) (r : EmitRun) (f : Fetched) (o : EntryOut) (mine : Option Nat) :
    SameTick s (s.legacyEntry l n r f o mine).2.2 := by
  unfold State.legacyEntry
  extract_lets fmt i x d w d0 d' y z
  have hx : SameTick s x.2 := s.downReads_sameTick r f i
  exact hx.set_core.within (State.recordFresh_within ..) rfl

theorem State.entrySlot_sameTick (s : State) (l n : Nat) (r : EmitRun) (f : Fetched) (o other : EntryOut) (prev : Option Nat) :
    SameTick s (s.entrySlot l n r f o other prev).2.2 := by
  unfold State.entrySlot
  extract_lets fmt odd mine h
  split
  · exact .refl s
  · split
    · exact s.legacyEntry_sameTick ..
    · split
      · split <;> exact .refl s
      · exact .refl s

theorem State.ringPrev_sameTick (s : State) (l p : Nat) : SameTick s (s.ringPrev l p).2 := by
  have h := s.sramRead_sameTick (eccAddr 7 l p) false (s.ringWord l p) true
  unfold State.ringPrev
  split <;> exact h.of_eq ‹_›

theorem State.prevWord_sameTick (s : State) (need : Bool) (l p : Nat) : SameTick s (s.prevWord need l p).2 := by
  unfold State.prevWord
  split
  · exact s.ringPrev_sameTick l p
  · exact .refl s

theorem State.emitPair_sameTick (s : State) (l gen n t : Nat) (rs : List (BankRead × Got)) (r : EmitRun) (a b : Fetched) :
    SameTick s (s.emitPair l gen n t rs r a b).2 := by
  unfold State.emitPair
  extract_lets p w reads oa ob prev x y
  have hx : SameTick s x.2.2 := (s.prevWord_sameTick ..).trans (prev.2.entrySlot_sameTick ..)
  exact hx.trans (x.2.2.entrySlot_sameTick ..)

theorem State.emitPairs_sameTick (s : State) (l gen n t : Nat) (rs : List (BankRead × Got)) (fs : List Fetched) (r : EmitRun) :
    SameTick s (s.emitPairs l gen n t rs fs r).2 := by
  fun_induction State.emitPairs s l gen n t rs fs r with
  | case1 s a b rest r y ih => exact (s.emitPair_sameTick l gen n t rs r a b).trans ih
  | case2 => exact .refl _

theorem State.emitStation_sameTick (s : State) (k g p t n : Nat) : SameTick s (s.emitStation k g p t n).2 := by
  unfold State.emitStation
  extract_lets gen silent0 silent1
  split
  · exact .refl s
  · split
    next fs x ex =>
    have hx : SameTick s x := (s.fetchEntries_sameTick ..).of_eq ex
    extract_lets qs
    split
    next rs y ey =>
    have hy : SameTick s y := hx.trans ((x.doReads_sameTick ..).of_eq ey)
    split
    next r z ez =>
    have hz : SameTick s z := hy.trans ((y.emitPairs_sameTick ..).of_eq ez)
    extract_lets r' u v
    have hu : SameTick s u := hz.within (State.slackTake_within ..) rfl
    have hv : SameTick s v := hu.each fun _ w h => h.within (State.ringPut_within ..) rfl
    exact hv.countBy

theorem State.overrun_sameTick (s : State) (late : List (Nat × Nat × Nat)) : SameTick s (s.overrun late) := by
  unfold State.overrun
  split
  · exact .refl s
  · extract_lets f x _ _ y
    have hx : SameTick s x := by
      dsimp only [x]
      split
      · exact .refl s
      · exact (SameTick.refl s).wr.wr
    exact hx.set_core_events.setFlag.within (State.raiseEach_within ..) rfl

theorem State.emitStage_sameTick (s : State) (g p t n : Nat) : SameTick s (s.emitStage g p t n) := by
  unfold State.emitStage
  split
  next late x ex =>
  have hx : SameTick s x := by
    refine SameTick.of_eq (SameTick.iter Prod.snd (.refl s) fun k acc h => ?_) ex
    exact h.trans (acc.2.emitStation_sameTick ..)
  exact (hx.trans (x.overrun_sameTick late)).within (State.digestStage_within ..) rfl

/-! ### The tap and the core's tick -/

theorem State.tapRead_sameTick (s : State) (a g t : Nat) : SameTick s (s.tapRead a g t).2 := by
  unfold State.tapRead
  split
  · extract_lets y
    have hy : SameTick s y.2 := s.wordRead_sameTick ..
    exact hy.within (State.ctrlCycle_within ..) rfl
  · exact .refl s

theorem State.tapStage_sameTick (s : State) (g t : Nat) : SameTick s (s.tapStage g t) := by
  have h := s.tapRead_sameTick (s.rd F.coreTapCtrlSrc 0) g t
  unfold State.tapStage
  split
  · exact .refl s
  · split
    next r x e =>
    have hx := h.of_eq e
    extract_lets y
    split <;> exact hx.wr.wr.setFlag

theorem State.coreStages_sameTick (s : State) (e : TickEnv) : SameTick s (s.coreStages e) := by
  unfold State.coreStages
  extract_lets n t1 x y z w
  have hx : SameTick s x := (SameTick.refl s).count.trans (State.tapStage_sameTick ..)
  have hy : SameTick s y := hx.trans (x.emitStage_sameTick ..)
  have hz : SameTick s z := hy.trans (y.sumStage_sameTick ..)
  have hw : SameTick s w := hz.trans (z.selectorStage_sameTick ..)
  exact hw.trans (w.upStage_sameTick ..)

theorem State.coreTick_sameTick (s : State) (e : TickEnv) : SameTick s (s.coreTick e) := by
  unfold State.coreTick
  exact (SameTick.when (.refl s) fun y h => h.trans (y.coreStages_sameTick e)).set_core

/-! ### Background reads: control bus, test, scrub -/

theorem State.winRead8_sameTick (s : State) (p : WinPlace) (k : Nat) : SameTick s (s.winRead8 p k).2 := by
  unfold State.winRead8
  split
  next i =>
    split
    · exact s.sramRead_sameTick ..
    · split
      · extract_lets j w
        have h := s.sramRead_sameTick (eccAddr 5 (24 + i % 2) (i / 4)) false w false
        split
        next e => exact h.of_eq e
        next => exact h
      · exact .refl s
  next => exact s.sramRead_sameTick ..
  next =>
    split
    next a _ =>
      have h := s.sramRead_sameTick a false (s.winHeld p) false
      split
      next e => exact h.of_eq e
      next => exact h
    next => exact .refl s

theorem State.readAt_sameTick (s : State) (a : Nat) : SameTick s (s.readAt a).2 := s.sramRead_sameTick ..

theorem State.testSave_sameTick (s : State) (a : Nat) : SameTick s (s.testSave a) := by
  have h := s.readAt_sameTick a
  unfold State.testSave
  split
  extract_lets bits
  split
  next e => exact (h.of_eq e).within (State.storeBack_within ..) rfl
  next e => exact (h.of_eq e).set_ecc

theorem State.testTick_sameTick (s : State) : SameTick s s.testTick := by
  unfold State.testTick
  split
  · exact .refl s
  · extract_lets now region x y
    have hx : SameTick s x := (SameTick.refl s).countBy
    have hy : SameTick s y := hx.each fun a z h => h.trans (z.testSave_sameTick a)
    exact hy.each fun _ _ h => h.each fun _ _ h => h.each fun _ _ h => h.within (State.testFail_within ..) rfl

theorem State.scrubWord_sameTick (s : State) (a : Nat) : SameTick s (s.scrubWord a).2 := by
  have h := s.readAt_sameTick a
  unfold State.scrubWord
  split
  split
  · exact .refl s
  · split
    next e => exact (h.of_eq e).within (State.scrubSum_within ..) rfl
    next e => exact ((h.of_eq e).within (State.scrubSum_within ..) rfl).within (State.scrubList_within ..) rfl
    next e => exact ((h.of_eq e).within (State.scrubSum_within ..) rfl).within (State.scrubList_within ..) rfl

theorem State.scrubBank_sameTick (mem bank : Nat) (correct : Bool) (n : Nat) (r : BankRun) (s : State) :
    SameTick s (State.scrubBank mem bank correct n r s).2 := by
  induction n generalizing r s with
  | zero => exact .refl s
  | succ n ih =>
    unfold State.scrubBank
    split
    · exact ((SameTick.refl s).within (State.scrubFix_within ..) rfl).trans (ih ..)
    · split
      · exact (s.scrubWord_sameTick _).trans (ih ..)
      · exact .refl s

theorem State.scrubTick_sameTick (s : State) : SameTick s s.scrubTick := by
  unfold State.scrubTick
  split
  · exact .refl s
  · split
    · exact .refl s
    · extract_lets x
      have hx : SameTick s x.2 := by
        refine SameTick.iter Prod.snd (.refl s) fun bank acc h => ?_
        extract_lets a was y
        have hy : SameTick s y.2 := h.trans (State.scrubBank_sameTick ..)
        exact (hy.within (State.scrubCycles_within ..) rfl).within (State.scrubSum_within ..) rfl
      exact hx.set_ecc

theorem State.drained_sameTick (s : State) (d : Drain) : SameTick s (s.drained d) := by
  unfold State.drained
  extract_lets a t _ x _ _
  split
  · exact .refl s
  · have host := s.ueSeen_sameTick a false
    have path := s.ueSeen_sameTick a true
    split
    · exact (SameTick.refl s).set_log.count.within (State.trackCount_within ..) rfl
    · exact path.within (State.pageSpoil_within ..) rfl
    · exact path
    · exact path.within (State.setTx_within ..) rfl
    · split
      · exact (SameTick.set_bus (x := x) host).within (State.refuse_within ..) rfl
      · exact host
    · split
      · exact (SameTick.set_log (x := x) host).count
      · exact SameTick.set_log (x := x) host

/-! ### Resynchronisation reads -/

theorem State.resyncRead_sameTick (s : State) (n v : Nat) : SameTick s (s.resyncRead n v).2 := by
  unfold State.resyncRead
  extract_lets mk sram
  have hsram : ∀ region i p, SameTick s (sram region i p).2 := by
    intro region i p
    dsimp only [sram]
    split
    next a _ =>
      split
      · have h := s.winRead8_sameTick p 6
        split <;> exact h.of_eq ‹_›
      · have h := s.sramRead_sameTick a false (s.winHeld p) false
        split <;> exact h.of_eq ‹_›
    next => exact .refl s
  clear_value sram
  split
  · exact .refl s
  · split
    · split <;> exact .refl s
    · split
      · exact hsram ..
      · split
        · exact hsram ..
        · split
          · exact hsram ..
          · split <;> exact .refl s

theorem State.resyncBatch_sameTick (v k n : Nat) (s : State) : SameTick s (State.resyncBatch v k n s).2.2 := by
  induction k generalizing n s with
  | zero => exact .refl s
  | succ k ih =>
    have h := s.resyncRead_sameTick n v
    unfold State.resyncBatch
    split
    · exact .refl s
    · split
      next e => exact (h.of_eq e).trans (ih ..)
      next e => exact h.of_eq e

theorem State.syncBatch_sameTick (s : State) (v : Nat) : SameTick s (s.syncBatch v) := by
  unfold State.syncBatch
  generalize 1638 = k
  split
  · extract_lets x
    have hx : SameTick s x.2.2 := State.resyncBatch_sameTick ..
    exact hx.set_mate
  · exact (SameTick.refl s).set_mate

theorem State.syncEdge_sameTick (s : State) (v : Nat) : SameTick s (s.syncEdge v) := by
  unfold State.syncEdge
  exact ((SameTick.refl s).within (State.syncGo_within s) rfl).trans (s.syncGo.syncBatch_sameTick v)

theorem State.mateEdge_sameTick (s : State) (v : Nat) (events : List Nat) : SameTick s (s.mateEdge v events) := by
  unfold State.mateEdge
  split
  · exact .refl s
  · extract_lets has m f x
    have hx : SameTick s x := (SameTick.refl s).set_mate
    exact (((hx.within (State.recordEdge_within ..) rfl).within (State.joinSync_within ..) rfl).within (State.watchSync_within ..) rfl).trans
      (State.syncEdge_sameTick ..)

/-! ### The end and the beginning of a tick -/

theorem State.tickEnd_sameTick (s : State) (e : TickEnv) : SameTick s (s.tickEnd e) := by
  unfold State.tickEnd
  extract_lets ring x y z u _ v w k
  have hx : SameTick s x := by
    refine SameTick.each (SameTick.each ((SameTick.refl s).within (State.sumClear_within s) rfl) fun _ _ h => ?_) fun _ _ h => ?_
    · exact h.within (State.cellStuck_within ..) rfl
    · exact h.within (State.upset_within ..) rfl
  have hy : SameTick s y :=
    (SameTick.each (hx.trans x.testTick_sameTick) fun d t h => h.trans (t.drained_sameTick d)).trans (State.coreTick_sameTick ..)
  have hz : SameTick s z := by
    refine SameTick.each (SameTick.within (SameTick.trans ?_ (State.scrubTick_sameTick _)) (State.scrubCount_within _) rfl) fun _ _ h => ?_
    · exact hy.within (State.coreAlarms_within y) rfl
    · exact h.within (State.upset_within ..) rfl
  have hv : SameTick s v := hz.countBy.set_ecc
  have hw : SameTick s w := hv.within (State.measured_within ..) rfl
  have hk : SameTick s k := hw.eachN fun _ _ h => h.within (State.adaptTick_within ..) rfl
  exact ((hk.within (State.pmTick_within k) rfl).eachN fun _ _ h => h.within (State.defectEdge_within ..) rfl).within (State.protNotes_within ..) rfl

theorem State.tickBegin_sameTick (s : State) (v : Nat) (events : List Nat) (freq : List (Nat × Int)) :
    SameTick s (s.tickBegin v events freq) := by
  unfold State.tickBegin
  extract_lets x y
  have hx : SameTick s x := (SameTick.refl s).wr
  have hy : SameTick s y :=
    ((((hx.within (State.restoreEdge_within x) rfl).within (State.sdWindowEdge_within _) rfl).within (State.edgeSettings_within _) rfl).within
      (State.timEdge_within ..) rfl).trans (State.mateEdge_sameTick ..)
  exact ((hy.within (State.armIdle_within y) rfl).within (State.edgeLinks_within _) rfl).within (State.pmEdge_within _) rfl

/-! ### The position of the lag ring -/

/-- From `s` to `t` the position of the lag ring stays as it is (04 R92, RING_POS of LAG_STATE). -/
def SameRingPos (s t : State) : Prop := t.rd F.lagStateRingPos 0 = s.rd F.lagStateRingPos 0

theorem SameRingPos.refl (s : State) : SameRingPos s s := rfl

theorem SameRingPos.trans {s t u : State} (h : SameRingPos s t) (h' : SameRingPos t u) : SameRingPos s u := Eq.trans h' h

/-- A change whose footprint leaves LAG_STATE out keeps the position. -/
theorem SameRingPos.within {f : Foot} {s t u : State} (h : SameRingPos s t) (w : Within f t u)
    (hr : f.hasReg .lagState = false) : SameRingPos s u := (w.rd hr 0).trans h

section
variable {s x : State} (h : SameRingPos s x)
include h

/-- A write of a field apart from RING_POS keeps the position. -/
theorem SameRingPos.wr {f : Field} {i v : Nat} (ha : f.apart F.lagStateRingPos = true) : SameRingPos s (x.wr f i v) :=
  (x.rd_wr_other v (.inr ha) (by decide)).trans h

theorem SameRingPos.setFlag {f : Field} {i : Nat} {b : Bool} (ha : f.apart F.lagStateRingPos = true) :
    SameRingPos s (x.setFlag f i b) := h.wr ha

theorem SameRingPos.wrBit {f : Field} {i k : Nat} {b : Bool} (ha : f.apart F.lagStateRingPos = true) :
    SameRingPos s (x.wrBit f i k b) := h.wr ha

theorem SameRingPos.set_lag {v : LagH} : SameRingPos s { x with lag := v } := h

theorem SameRingPos.when {b : Bool} {g : State → State} (hg : ∀ y, SameRingPos y (g y)) : SameRingPos s (x.when b g) := by
  unfold State.when
  split
  · exact h.trans (hg x)
  · exact h

theorem SameRingPos.each {α : Type} {l : List α} {g : α → State → State} (hg : ∀ a y, SameRingPos y (g a y)) :
    SameRingPos s (x.each l g) := (State.rd_each l g x hg).trans h

end

theorem SameRingPos.iter {s x : State} {g : Nat → State → State} {lo n : Nat} (h : SameRingPos s x) (hg : ∀ k y, SameRingPos y (g k y)) :
    SameRingPos s (iter g lo n x) := by
  induction n generalizing lo x with
  | zero => exact h
  | succ n ih => exact ih (h.trans (hg lo x))

theorem State.restoreFailed_sameRingPos (s : State) (k : Nat) : SameRingPos s (s.restoreFailed k) := by
  unfold State.restoreFailed
  exact (((SameRingPos.refl s).wrBit rfl).wrBit rfl).set_lag

theorem State.restoreEdge_sameRingPos (s : State) : SameRingPos s s.restoreEdge := by
  unfold State.restoreEdge State.eachN
  exact (SameRingPos.refl s).iter fun k y => (SameRingPos.refl y).when fun z => z.restoreFailed_sameRingPos k

theorem State.poolFree_sameRingPos (s : State) (l : Nat) : SameRingPos s (s.poolFree l) := by
  unfold State.poolFree
  exact ((SameRingPos.refl s).wr rfl).wr rfl

theorem State.poolTake_sameRingPos (s : State) (l n : Nat) : SameRingPos s (s.poolTake l n) := by
  unfold State.poolTake
  exact ((SameRingPos.refl s).wr rfl).wr rfl

theorem State.fbEnd_sameRingPos (s : State) (l : Nat) : SameRingPos s (s.fbEnd l) := by
  unfold State.fbEnd
  extract_lets h x y z
  have hx : SameRingPos s x := (SameRingPos.refl s).within (State.setLagLink_within ..) rfl
  have hy : SameRingPos s y := by
    dsimp only [y]
    split
    · exact (hx.trans (x.poolFree_sameRingPos l)).within (State.shortClear_within ..) rfl
    · exact hx
  exact (((hy.setFlag rfl).setFlag rfl).within (State.clear_within ..) rfl).within (State.clear_within ..) rfl

theorem State.fbEnter_sameRingPos (s : State) (l first : Nat) : SameRingPos s (s.fbEnter l first) := by
  unfold State.fbEnter
  extract_lets f n h x y
  have hx : SameRingPos s x := ((SameRingPos.refl s).within (State.setLagLink_within ..) rfl).trans (State.poolTake_sameRingPos ..)
  have hy : SameRingPos s y := (((SameRingPos.refl s).within (State.setLagLink_within ..) rfl).setFlag rfl).within (State.clear_within ..) rfl
  split
  · exact .refl s
  · split
    · exact (hx.setFlag rfl).within (State.raise_within ..) rfl
    · exact (hy.setFlag rfl).within (State.raise_within ..) rfl

theorem State.lagFree_sameRingPos (s : State) (l : Nat) : SameRingPos s (s.lagFree l) := by
  unfold State.lagFree
  extract_lets x
  have hx : SameRingPos s x := by
    dsimp only [x]
    split
    · exact (s.poolFree_sameRingPos l).within (State.shortClear_within ..) rfl
    · exact .refl s
  exact hx.trans (x.fbEnd_sameRingPos l)

theorem State.lagSet_sameRingPos (s : State) (l : Nat) : SameRingPos s (s.lagSet l) := by
  unfold State.lagSet
  extract_lets h mode d g same x y
  have hx : SameRingPos s x := by
    dsimp only [x]
    split
    · exact .refl s
    · exact ((SameRingPos.refl s).within (State.descClear_within ..) rfl).within (State.unwrite_within ..) rfl
  have hy : SameRingPos s y := hx.within (State.setLagLink_within ..) rfl
  split
  · exact hy.trans (y.poolTake_sameRingPos ..)
  · exact hy

theorem State.lagSync_sameRingPos (s : State) : SameRingPos s s.lagSync := by
  unfold State.lagSync
  extract_lets all changed again gens x y z
  have hx : SameRingPos s x := (SameRingPos.refl s).each fun l w => (SameRingPos.refl w).within (State.setLagLink_within ..) rfl
  have hy : SameRingPos s y :=
    (hx.each fun l w => w.lagFree_sameRingPos l).each fun l w => (w.poolFree_sameRingPos l).within (State.shortClear_within ..) rfl
  have hz : SameRingPos s z := hy.each fun l w => w.lagSet_sameRingPos l
  exact hz.each fun l w => w.fbEnter_sameRingPos ..

theorem State.syncSettings_sameRingPos (s : State) : SameRingPos s s.syncSettings := by
  unfold State.syncSettings State.eachN
  extract_lets x y
  have hx : SameRingPos s x :=
    (((SameRingPos.refl s).within (State.mateCfgSync_within s) rfl).trans (State.lagSync_sameRingPos _)).iter fun g w =>
      (SameRingPos.refl w).within (State.protSync_within ..) rfl
  have hy : SameRingPos s y := hx.within (State.legSync_within x) rfl
  split
  · exact hy.within (State.stationSync_within y) rfl
  · exact hy.within (State.bridgeSync_within y) rfl

theorem State.edgeSettings_sameRingPos (s : State) : SameRingPos s s.edgeSettings := by
  unfold State.edgeSettings
  split
  · exact .refl s
  · exact s.syncSettings_sameRingPos

/-- A tick's beginning moves the ring's position by one (04 R92). -/
theorem State.ringPos_tickBegin (s : State) (v : Nat) (events : List Nat) (freq : List (Nat × Int)) :
    (s.tickBegin v events freq).rd F.lagStateRingPos 0 = (s.rd F.lagStateRingPos 0 + 1) % 11264 := by
  have moved : (s.wr F.lagStateRingPos 0 ((s.rd F.lagStateRingPos 0 + 1) % 11264)).rd F.lagStateRingPos 0 =
      (s.rd F.lagStateRingPos 0 + 1) % 11264 := by
    rw [s.rd_wr _ _ _ (by decide)]
    exact Nat.mod_eq_of_lt (Nat.lt_trans (Nat.mod_lt _ (by decide)) (by decide))
  rw [← moved]
  unfold State.tickBegin
  extract_lets x y
  have hy : SameRingPos x y :=
    ((((x.restoreEdge_sameRingPos.within (State.sdWindowEdge_within _) rfl).trans (State.edgeSettings_sameRingPos _)).within
      (State.timEdge_within ..) rfl)).within (State.mateEdge_within ..) rfl
  exact ((hy.within (State.armIdle_within y) rfl).within (State.edgeLinks_within _) rfl).within (State.pmEdge_within _) rfl

/-! ### A tick edge -/

/-- What stays as it is, field by field. -/
theorem SameTick.fields {s t : State} (h : SameTick s t) : t.tick.begun = s.tick.begun ∧ t.tick.n = s.tick.n ∧
    t.tick.prev1 = s.tick.prev1 ∧ t.tick.prev2 = s.tick.prev2 ∧ t.tick.stopped = s.tick.stopped := by
  obtain ⟨hbegun, hn, hprev1, hprev2, -, hstopped, -⟩ := TickH.mk.inj h
  exact ⟨hbegun, hn, hprev1, hprev2, hstopped⟩

theorem State.now_tickEnd (s : State) (e : TickEnv) : (s.tickEnd e).now = s.now := (s.tickEnd_within e).rd (by decide) 0

theorem State.ringPos_tickEnd (s : State) (e : TickEnv) : (s.tickEnd e).rd F.lagStateRingPos 0 = s.rd F.lagStateRingPos 0 :=
  (s.tickEnd_within e).rd (by decide) 0

theorem State.now_tickBegin (s : State) (v : Nat) (events : List Nat) (freq : List (Nat × Int)) :
    (s.tickBegin v events freq).now = s.now := (s.tickBegin_within v events freq).rd (by decide) 0

theorem State.tick_tickNext (s : State) : s.tickNext.tick =
    { s.tick with n := s.tick.n + 1, prev1 := BitVec.ofNat 32 s.now, prev2 := s.tick.prev1, events := [] } := rfl

theorem State.now_tickNext (s : State) : s.tickNext.now = (s.now + 1) % 2 ^ 32 := s.rd_wr _ _ _ (by decide)

theorem State.ringPos_tickNext (s : State) : s.tickNext.rd F.lagStateRingPos 0 = s.rd F.lagStateRingPos 0 :=
  s.tickNext_within.rd (by decide) 0

/-- The first edge begins tick 0: the number and the count of ticks as they are (13 R338). -/
theorem State.tickEdge_first (s : State) (e : TickEnv) (hb : s.tick.begun = false) :
    (s.tickEdge e).tick.begun = true ∧ (s.tickEdge e).tick.n = s.tick.n ∧ (s.tickEdge e).now = s.now := by
  unfold State.tickEdge
  rw [if_pos (by rw [hb]; rfl)]
  obtain ⟨hbegun, hn, -⟩ := (State.tickBegin_sameTick { s with tick := { s.tick with begun := true } } s.now [] []).fields
  exact ⟨hbegun, hn, State.now_tickBegin ..⟩

/-- A later edge: the tick in progress ended, and the next begun. -/
theorem State.tickEdge_of_begun (s : State) (e : TickEnv) (hb : s.tick.begun = true) :
    s.tickEdge e = (s.tickEnd e).tickNext.tickBegin s.now (s.tickEnd e).tick.events e.linkFreq := by
  unfold State.tickEdge
  rw [if_neg (by rw [hb]; decide)]

/-- A tick that ended as `s` is followed by the one with the next number and the next place (09 R232; 04 R92). -/
theorem State.tickBegin_tickNext (s : State) (v : Nat) (events : List Nat) (freq : List (Nat × Int)) {t : State}
    (ht : t = s.tickNext.tickBegin v events freq) :
    t.tick.begun = s.tick.begun ∧ t.tick.n = s.tick.n + 1 ∧ t.now = (s.now + 1) % 2 ^ 32 ∧ t.tick.prev1 = BitVec.ofNat 32 s.now ∧
      t.tick.prev2 = s.tick.prev1 ∧ t.rd F.lagStateRingPos 0 = (s.rd F.lagStateRingPos 0 + 1) % 11264 ∧ t.tick.stopped = s.tick.stopped := by
  have h := (s.tickNext.tickBegin_sameTick v events freq).fields
  rw [State.tick_tickNext, ← ht] at h
  obtain ⟨hbegun, hn, hprev1, hprev2, hstopped⟩ := h
  refine ⟨hbegun, hn, ?_, hprev1, hprev2, ?_, hstopped⟩
  · rw [ht, State.now_tickBegin, State.now_tickNext]
  · rw [ht, State.ringPos_tickBegin, State.ringPos_tickNext]

/-- Every later edge closes a tick that keeps its books, and begins the next. -/
theorem State.tickEdge_later (s : State) (e : TickEnv) (hb : s.tick.begun = true) :
    (s.tickEdge e).tick.begun = true ∧ (s.tickEdge e).tick.n = s.tick.n + 1 ∧ (s.tickEdge e).now = (s.now + 1) % 2 ^ 32 ∧
      (s.tickEdge e).tick.prev1 = BitVec.ofNat 32 s.now ∧ (s.tickEdge e).tick.prev2 = s.tick.prev1 ∧
      (s.tickEdge e).rd F.lagStateRingPos 0 = (s.rd F.lagStateRingPos 0 + 1) % 11264 ∧
      (s.tickEdge e).tick.stopped = s.tick.stopped := by
  obtain ⟨ebegun, en, eprev1, -, estopped⟩ := (s.tickEnd_sameTick e).fields
  have h := (s.tickEnd e).tickBegin_tickNext _ _ _ (s.tickEdge_of_begun e hb)
  rwa [ebegun, en, eprev1, estopped, State.now_tickEnd, State.ringPos_tickEnd, hb] at h

/-- Within its bounds TICK_EDGE completes with the tick edge (06 R123). -/
theorem completes_tickEdge {s : State} {e : TickEnv} {Q : State → Prop} (hr : s.boot.risen = true) (hs : s.tick.stopped = false)
    (hQ : Q (s.tickEdge e)) : Completes (.tickEdge e) s Q := by
  refine ⟨_, rfl, ?_⟩
  rw [State.when, if_pos (by rw [hr, hs]; rfl)]
  exact hQ

/-- Before the rise of RST_N and after the stop, TICK_EDGE changes nothing (13 R338; 10 R245). -/
theorem completes_tickEdge_idle {s : State} {e : TickEnv} (h : s.boot.risen = false ∨ s.tick.stopped = true) :
    Completes (.tickEdge e) s fun t => t = s := by
  refine ⟨_, rfl, ?_⟩
  rw [State.when, if_neg]
  rcases h with h | h <;> simp [h]

/-- Settles O44: the stages that close a tick and those that begin the next leave the tick's number and its two predecessors alone, so that they stand
as `State.tickNext` puts them; RING_POS is moved at the beginning and by nothing else. -/
theorem tickEdgesAdvanceTheTick : Obligations.TickEdgesAdvanceTheTick := by
  intro e s
  refine ⟨fun hr hs hb => completes_tickEdge hr hs (s.tickEdge_first e hb), fun hr hs hb => completes_tickEdge hr hs ?_,
    completes_tickEdge_idle⟩
  have later := s.tickEdge_later e hb
  rwa [hs] at later

end Sys2Proof.Machine


/-! The serial lanes and their quads: what the bring-up machine, failures, the lanes' commands, eye scans and the judging receiver leave to be read
(02 R22 to R50). -/

namespace Sys2Proof.Machine

/-! ### Reads after writes of fields that share no bit -/

theorem State.rd_wr_apart (s : State) {f g : Field} (i j v : Nat) (h : f.apart g = true) (hg : g.lo + g.width ≤ 64) :
    (s.wr f i v).rd g j = s.rd g j := State.rd_wr_other s v (.inr h) hg

theorem State.rd_setFlag_apart (s : State) {f g : Field} (i j : Nat) (b : Bool) (h : f.apart g = true) (hg : g.lo + g.width ≤ 64) :
    (s.setFlag f i b).rd g j = s.rd g j := State.rd_setFlag_other s b (.inr h) hg

theorem State.flag_wr_apart (s : State) {f g : Field} (i j v : Nat) (h : f.apart g = true) (hg : g.lo + g.width ≤ 64) :
    (s.wr f i v).flag g j = s.flag g j := State.flag_wr_other s v (.inr h) hg

theorem State.flag_setFlag_apart (s : State) {f g : Field} (i j : Nat) (b : Bool) (h : f.apart g = true) (hg : g.lo + g.width ≤ 64) :
    (s.setFlag f i b).flag g j = s.flag g j := State.flag_setFlag_other s b (.inr h) hg

/-- A counter is no field of another register. -/
theorem State.rd_count_other (s : State) {r : Reg} {g : Field} (i j : Nat) (h : r ≠ g.reg) : (s.count r i).rd g j = s.rd g j :=
  State.rd_congr (State.word_count_other s (.inl h))

theorem laneOf_lt (l : LinkId) : laneOf l < 4 := by
  unfold laneOf
  split <;> omega

/-- A lane's bit read after it is set. -/
theorem State.laneBit_setLaneBit (s : State) (f : Field) (l : LinkId) (b : Bool) (h : f.lo + f.width ≤ 64) (hw : f.width = 4) :
    (s.setLaneBit f l b).laneBit f l = b := by
  unfold State.laneBit State.setLaneBit
  rw [State.rdBit_wrBit _ _ _ _ _ _ h (hw ▸ laneOf_lt l), if_pos rfl]

/-- The link on a lane of a quad is a link of that quad. -/
theorem quadOf_linkAt (q : QuadId) (i : Fin 4) : quadOf (linkAt q i) = q := by
  unfold quadOf linkAt
  split <;> split <;> omega

/-! ### The bring-up machine -/

/-- A state other than UP and TEST entered: QSTATE shows it, and QUAD_DOWN is ACTIVE exactly where the quad is used (02 R49). -/
theorem State.enterQuad_down {s x : State} {q : QuadId} {st t16 : Nat} (h : st < 8) (hup : st ≠ qUp) (htest : st ≠ qTest)
    (hgen : x.rd F.laneStateGen q = s.rd F.laneStateGen q) :
    (x.enterQuad q st t16).qstate q = st ∧ (x.enterQuad q st t16).active A.quadDown q = decide (s.rd F.laneStateGen q ≠ 0) := by
  refine ⟨State.qstate_enterQuad _ _ _ _ h, ?_⟩
  rw [State.active_enterQuad _ _ _ _ (by omega) h, hgen, decide_eq_true hup, decide_eq_true htest, Bool.and_true, Bool.and_true]

theorem exec_txPllLock_of_pll {q : QuadId} {s : State} (h : s.qstate q = qPll) :
    exec (.txPllLock q) s = .next ((s.setFlag F.laneStatePllLock q true).enterQuad q qClkacq 0) := by
  have hlocked : (s.setFlag F.laneStatePllLock q true).qstate q = qPll := (State.rd_setFlag_apart s _ _ _ (by decide) (by decide)).trans h
  show execTxPllLock q s = _
  unfold execTxPllLock
  rw [State.when_pos (by rw [h]; decide)]
  dsimp only
  rw [State.when_pos (by rw [hlocked]; decide)]

theorem exec_clockLaneAcquire_of_clkacq {q : QuadId} {s : State} (h : s.qstate q = qClkacq) : exec (.clockLaneAcquire q) s =
    .next (((s.enterQuad q qDeskew 0).setFlag F.laneStateClkLos q false).setFlag F.laneStateClkLock q true) := by
  show execClockLaneAcquire q s = _
  unfold execClockLaneAcquire
  rw [State.when_pos (by rw [h]; decide)]

theorem exec_quadStateTimeout_of_due {q : QuadId} {s : State} {n : Nat} (hn : stateTimeout (s.qstate q) = some n)
    (hdue : n ≤ (s.quad q).ticks) :
    exec (.quadStateTimeout q) s = .next (((s.count .laneBringupTimeout q).wr F.laneStateDownCause q 7).enterQuad q qWait 0) := by
  show execQuadStateTimeout q s = _
  unfold execQuadStateTimeout
  rw [hn]
  dsimp only
  rw [State.when_pos (by simpa using hdue)]

theorem exec_quadWaitEnd_of_due {q : QuadId} {s : State} (h : s.qstate q = qWait) (hdue : 4800 ≤ (s.quad q).ticks) :
    exec (.quadWaitEnd q) s = .next (s.enterQuad q qPll 0) := by
  show execQuadWaitEnd q s = _
  unfold execQuadWaitEnd
  rw [State.when_pos (Bool.and_eq_true_iff.2 ⟨decide_eq_true h, decide_eq_true hdue⟩)]

theorem completes_txPllLock {q : QuadId} {s : State} (h : s.qstate q = qPll) : Completes (.txPllLock q) s fun t =>
    t.qstate q = qClkacq ∧ t.flag F.laneStatePllLock q = true ∧ t.active A.quadDown q = decide (s.rd F.laneStateGen q ≠ 0) := by
  refine ⟨_, exec_txPllLock_of_pll h, ?_⟩
  obtain ⟨hst, hdown⟩ := State.enterQuad_down (s := s) (q := q) (st := qClkacq) (t16 := 0) (by decide) (by decide) (by decide)
    (State.rd_setFlag_apart s (f := F.laneStatePllLock) q q true (by decide) (by decide))
  refine ⟨hst, ?_, hdown⟩
  unfold State.flag
  rw [State.rd_enterQuad _ _ _ _ _ (by decide) (by decide) (by decide) (.inr (by decide))]
  exact State.flag_setFlag s _ _ _ rfl (by decide)

theorem completes_clockLaneAcquire {q : QuadId} {s : State} (h : s.qstate q = qClkacq) : Completes (.clockLaneAcquire q) s fun t =>
    t.qstate q = qDeskew ∧ t.flag F.laneStateClkLock q = true ∧ t.flag F.laneStateClkLos q = false ∧
      t.active A.quadDown q = decide (s.rd F.laneStateGen q ≠ 0) := by
  refine ⟨_, exec_clockLaneAcquire_of_clkacq h, ?_⟩
  obtain ⟨hst, hdown⟩ := State.enterQuad_down (s := s) (q := q) (st := qDeskew) (t16 := 0) (by decide) (by decide) (by decide) rfl
  refine ⟨?_, State.flag_setFlag _ _ _ _ rfl (by decide), ?_, ?_⟩
  · unfold State.qstate
    rw [State.rd_setFlag_apart _ _ _ _ (by decide) (by decide), State.rd_setFlag_apart _ _ _ _ (by decide) (by decide)]
    exact hst
  · rw [State.flag_setFlag_apart _ _ _ _ (by decide) (by decide)]
    exact State.flag_setFlag _ _ _ _ rfl (by decide)
  · rw [State.active_congr (State.setFlag_act ..), State.active_congr (State.setFlag_act ..)]
    exact hdown

theorem completes_quadStateTimeout {q : QuadId} {s : State} {n : Nat} (hn : stateTimeout (s.qstate q) = some n)
    (hdue : n ≤ (s.quad q).ticks) : Completes (.quadStateTimeout q) s fun t =>
      t.qstate q = qWait ∧ t.rd F.laneStateDownCause q = 7 ∧ t.word .laneBringupTimeout q = s.word .laneBringupTimeout q + 1 ∧
        t.active A.quadDown q = decide (s.rd F.laneStateGen q ≠ 0) := by
  refine ⟨_, exec_quadStateTimeout_of_due hn hdue, ?_⟩
  obtain ⟨hst, hdown⟩ := State.enterQuad_down (s := s) (q := q) (st := qWait) (t16 := 0) (by decide) (by decide) (by decide)
    ((State.rd_wr_apart (s.count .laneBringupTimeout q) (f := F.laneStateDownCause) q q 7 (by decide) (by decide)).trans
      (State.rd_count_other s q q (by decide)))
  refine ⟨hst, ?_, ?_, hdown⟩
  · rw [State.rd_enterQuad _ _ _ _ _ (by decide) (by decide) (by decide) (.inl (by decide)), State.rd_wr _ _ _ _ (by decide)]
    rfl
  · rw [(State.enterQuad_within ..).word _ (by decide), State.word_wr_other _ _ (.inl (by decide)), State.word_count]

theorem completes_quadWaitEnd {q : QuadId} {s : State} (h : s.qstate q = qWait) (hdue : 4800 ≤ (s.quad q).ticks) :
    Completes (.quadWaitEnd q) s fun t => t.qstate q = qPll ∧ t.active A.quadDown q = decide (s.rd F.laneStateGen q ≠ 0) :=
  ⟨_, exec_quadWaitEnd_of_due h hdue, State.enterQuad_down (by decide) (by decide) (by decide) rfl⟩

/-! ### DESKEW left -/

/-- The measured skews shown, those of the lanes the quad has (02 R26). -/
def State.showSkews (s : State) (q : QuadId) (k : Skews) : State :=
  let s := (s.wrS F.laneSkewSkew0 q k.s0).wrS F.laneSkewSkew1 q k.s1
  if q.val = 32 then s else (s.wrS F.laneSkewSkew2 q k.s2).wrS F.laneSkewSkew3 q k.s3

theorem State.showSkews_within (s : State) (q : QuadId) (k : Skews) : Within (.of [] [.laneSkew]) s (s.showSkews q k) := by
  have h : Within (.of [] [.laneSkew]) s ((s.wrS F.laneSkewSkew0 q k.s0).wrS F.laneSkewSkew1 q k.s1) :=
    .wrS _ _ _ (.wrS _ _ _ (.refl _ s) (by decide)) (by decide)
  exact .ite h (.wrS _ _ _ (.wrS _ _ _ h (by decide)) (by decide))

theorem State.rd_showSkews (s : State) (q : QuadId) (k : Skews) :
    (s.showSkews q k).rd F.laneSkewSkew0 q = unsigned 16 k.s0 ∧ (s.showSkews q k).rd F.laneSkewSkew1 q = unsigned 16 k.s1 := by
  have apart : ∀ (x : State) (g : Field), F.laneSkewSkew2.apart g = true → F.laneSkewSkew3.apart g = true → g.lo + g.width ≤ 64 →
      (if q.val = 32 then x else (x.wrS F.laneSkewSkew2 q k.s2).wrS F.laneSkewSkew3 q k.s3).rd g q = x.rd g q := by
    intro x g h2 h3 hg
    split
    · rfl
    · rw [State.rd_wrS_other _ _ (.inr h3) hg, State.rd_wrS_other _ _ (.inr h2) hg]
  constructor
  · refine (apart _ _ (by decide) (by decide) (by decide)).trans ?_
    rw [State.rd_wrS_other _ _ (.inr (by decide)) (by decide), State.rd_wrS _ _ _ _ (by decide)]
  · exact (apart _ _ (by decide) (by decide) (by decide)).trans (State.rd_wrS _ _ _ _ (by decide))

/-- The signal of a quad's lanes back writes LOS alone of LANE_STATE (02 R45). -/
theorem State.rd_signalBack_each (s : State) (ls : List Nat) (j : Nat) {g : Field} (h : F.laneStateLos.apart g = true)
    (hg : g.lo + g.width ≤ 64) : (s.each ls fun l s => s.signalBack l).rd g j = s.rd g j := by
  refine State.rd_each _ _ _ fun l x => ?_
  unfold State.signalBack
  split
  · exact (State.rd_congr (State.setRx_word ..)).trans (State.rd_setLaneBit x l j false h hg)
  · rfl

theorem State.signalBack_each_within (s : State) (ls : List Nat) :
    Within (.of [.links] [.laneState]) s (s.each ls fun l s => s.signalBack l) :=
  (Within.refl _ s).each _ _ fun l x h => .after (State.signalBack_within x l) h (by decide)

theorem exec_deskewDone_of_ok {q : QuadId} {k : Skews} {s : State} (h : s.qstate q = qDeskew) (hk : Skews.ok k q = true) :
    exec (.deskewDone q k) s = .next (((s.showSkews q k).each (linksOf q) fun l s => s.signalBack l).enterQuad q
      (if s.rd F.lanePrbsCtrlRxEn q = 0 then qAlign else qTest) 0) := by
  have hen : ((s.showSkews q k).each (linksOf q) fun l s => s.signalBack l).rd F.lanePrbsCtrlRxEn q = s.rd F.lanePrbsCtrlRxEn q :=
    ((State.signalBack_each_within _ _).rd (by decide) q).trans ((s.showSkews_within q k).rd (by decide) q)
  rw [← hen, ← ite_not]
  show execDeskewDone q k s = _
  unfold execDeskewDone
  rw [State.when_pos (by simp [h, hk])]
  rfl

theorem completes_deskewDone {q : QuadId} {k : Skews} {s : State} (h : s.qstate q = qDeskew) (hk : Skews.ok k q = true) :
    Completes (.deskewDone q k) s fun t => t.qstate q = (if s.rd F.lanePrbsCtrlRxEn q = 0 then qAlign else qTest) ∧
      t.rd F.laneSkewSkew0 q = unsigned 16 k.s0 ∧ t.rd F.laneSkewSkew1 q = unsigned 16 k.s1 ∧
      t.active A.quadDown q = decide (s.rd F.laneStateGen q ≠ 0 ∧ s.rd F.lanePrbsCtrlRxEn q = 0) := by
  refine ⟨_, exec_deskewDone_of_ok h hk, ?_⟩
  have hlt : (if s.rd F.lanePrbsCtrlRxEn q = 0 then qAlign else qTest) < 8 := by split <;> decide
  obtain ⟨hskew0, hskew1⟩ := s.rd_showSkews q k
  refine ⟨State.qstate_enterQuad _ _ _ _ hlt, ?_, ?_, ?_⟩
  · rw [(State.enterQuad_within ..).rd (by decide), (State.signalBack_each_within ..).rd (by decide), hskew0]
  · rw [(State.enterQuad_within ..).rd (by decide), (State.signalBack_each_within ..).rd (by decide), hskew1]
  · rw [State.active_enterQuad _ _ _ _ (by omega) hlt, State.rd_signalBack_each _ _ _ (by decide) (by decide),
      (s.showSkews_within q k).rd (by decide)]
    split
    next hen =>
      show (decide _ && true && true) = _
      rw [Bool.and_true, Bool.and_true]
      exact decide_eq_decide.2 (and_iff_left hen).symm
    next hen =>
      show (decide _ && true && false) = _
      rw [Bool.and_false]
      exact (decide_eq_false fun hboth => hen hboth.2).symm

/-- Settles O19: each command enters one state of the machine, and what it shows is kept by the entry or lies outside it. -/
theorem quadsFollowTheBringUpMachine : Obligations.QuadsFollowTheBringUpMachine := fun _ _ =>
  ⟨completes_txPllLock, completes_clockLaneAcquire, fun _ => completes_deskewDone, fun _ => completes_quadStateTimeout,
    completes_quadWaitEnd⟩

/-! ### Failures in UP and TEST -/

/-- From `s` to `t` quad `q` has failed into state `st`: counted once, its cause shown, QUAD_DOWN judged (02 R48, R49). -/
def QuadFailed (q : Nat) (cause st : Nat) (s t : State) : Prop :=
  t.qstate q = st ∧ t.rd F.laneStateDownCause q = cause ∧ t.word .laneUpLoss q = s.word .laneUpLoss q + 1 ∧
    t.active A.quadDown q = decide (s.rd F.laneStateGen q ≠ 0)

/-- What a failure leaves alone before the quad falls: its state, its GEN and its count. -/
def BeforeFailure (q : Nat) (s x : State) : Prop :=
  x.qstate q = s.qstate q ∧ x.rd F.laneStateGen q = s.rd F.laneStateGen q ∧ x.word .laneUpLoss q = s.word .laneUpLoss q

theorem BeforeFailure.refl (q : Nat) (s : State) : BeforeFailure q s s := ⟨rfl, rfl, rfl⟩

/-- DOWN_CAUSE of a failure (02 R48). -/
def FailCause.code : FailCause → Nat
  | .pllUnlock => 1 | .clockLos => 2 | .clockUnlock => 3 | .dataLos _ => 4 | .blockLock _ => 5 | .skew _ => 6

/-- The state a failed quad goes back to (02 R48). -/
def FailCause.landing : FailCause → Nat
  | .pllUnlock => qPll
  | _ => qClkacq

theorem FailCause.landing_eq (c : FailCause) : FailCause.landing c = if c = .pllUnlock then qPll else qClkacq := by cases c <;> rfl

theorem FailCause.landing_bringsUp (c : FailCause) : FailCause.landing c < 8 ∧ FailCause.landing c ≠ qUp ∧ FailCause.landing c ≠ qTest := by
  rw [FailCause.landing_eq]
  split <;> decide

/-- A failure of cause `c`, in a quad whose state, GEN and count are still those of `s`. -/
theorem BeforeFailure.quadFail {q : QuadId} {s x : State} (hx : BeforeFailure q s x) (hin : s.qstate q = qUp ∨ s.qstate q = qTest)
    (c : FailCause) {t16 : Nat} :
    QuadFailed q (FailCause.code c) (FailCause.landing c) s (x.quadFail q (FailCause.code c) (FailCause.landing c) t16) := by
  obtain ⟨hstate, hgen, hcount⟩ := hx
  have hcode : FailCause.code c < 8 := by cases c <;> simp [FailCause.code]
  obtain ⟨hst, hup, htest⟩ := FailCause.landing_bringsUp c
  have hgen' : ((x.count .laneUpLoss q).wr F.laneStateDownCause q (FailCause.code c)).rd F.laneStateGen q = s.rd F.laneStateGen q := by
    rw [State.rd_wr_apart _ _ _ _ (by decide) (by decide), State.rd_count_other _ _ _ (by decide), hgen]
  obtain ⟨hq, hdown⟩ := State.enterQuad_down (t16 := t16) hst hup htest hgen'
  unfold State.quadFail
  rw [if_pos (by rw [hstate]; simpa using hin)]
  refine ⟨hq, ?_, ?_, hdown⟩
  · rw [State.rd_enterQuad _ _ _ _ _ hst (by decide) (by decide) (.inl (by decide)), State.rd_wr _ _ _ _ (by decide)]
    exact Nat.mod_eq_of_lt hcode
  · rw [(State.enterQuad_within ..).word _ (by decide), State.word_wr_other _ _ (.inl (by decide)), State.word_count, hcount]

/-- A failure stays as it is over a flag of LANE_STATE beside QSTATE and DOWN_CAUSE. -/
theorem QuadFailed.setFlag {q cause st : Nat} {s t : State} (h : QuadFailed q cause st s t) {f : Field} (b : Bool) (hr : f.reg = .laneState)
    (hq : f.apart F.laneStateQstate = true) (hc : f.apart F.laneStateDownCause = true) : QuadFailed q cause st s (t.setFlag f q b) := by
  obtain ⟨hst, hcause, hcount, hdown⟩ := h
  refine ⟨?_, ?_, ?_, ?_⟩
  · exact (State.rd_setFlag_apart t q q b hq (by decide)).trans hst
  · exact (State.rd_setFlag_apart t q q b hc (by decide)).trans hcause
  · exact (State.word_wr_other t _ (.inl (by rw [hr]; decide))).trans hcount
  · exact (State.active_congr (State.setFlag_act ..) _ _).trans hdown

theorem State.txStop_each_within (s : State) (ls : List Nat) : Within (.of [.links] []) s (s.each ls fun l s => s.txStop l) :=
  (Within.refl _ s).each _ _ fun l x h => .after (State.txStop_within x l) h (by decide)

theorem QuadFailed.pllLost {q cause st : Nat} {s t : State} (h : QuadFailed q cause st s t) : QuadFailed q cause st s (t.pllLost q) := by
  obtain ⟨hst, hcause, hcount, hdown⟩ := h.setFlag (f := F.laneStatePllLock) false rfl (by decide) (by decide)
  have stopped := (t.setFlag F.laneStatePllLock q false).txStop_each_within (linksOf q)
  exact ⟨(stopped.rd (by decide) q).trans hst, (stopped.rd (by decide) q).trans hcause, (stopped.word _ (by decide) q).trans hcount,
    (stopped.active (by decide) _ q).trans hdown⟩

theorem BeforeFailure.clockLos (q : Nat) (s : State) : BeforeFailure q s (s.setFlag F.laneStateClkLos q true) :=
  ⟨State.rd_setFlag_apart s _ _ _ (by decide) (by decide), State.rd_setFlag_apart s _ _ _ (by decide) (by decide),
    State.word_wr_other s _ (.inl (by decide))⟩

/-- A lane's signal lost shows in LOS of LANE_STATE and of LINK_STATE (02 R45; 03 R72). -/
theorem BeforeFailure.dataLos (q l : Nat) (b : Bool) (s : State) :
    BeforeFailure q s ((s.setLaneBit F.laneStateLos l true).when b (·.setFlag F.linkStateLos l true)) := by
  have lane : BeforeFailure q s (s.setLaneBit F.laneStateLos l true) :=
    ⟨State.rd_setLaneBit s _ _ _ (by decide) (by decide), State.rd_setLaneBit s _ _ _ (by decide) (by decide),
      State.word_wr_other s _ (.inl (by decide))⟩
  unfold State.when
  split
  · obtain ⟨hst, hgen, hcount⟩ := lane
    exact ⟨(State.rd_setFlag_apart _ _ _ _ (by decide) (by decide)).trans hst,
      (State.rd_setFlag_apart _ _ _ _ (by decide) (by decide)).trans hgen, (State.word_wr_other _ _ (.inl (by decide))).trans hcount⟩
  · exact lane

/-- A field that entering a state keeps, over the loss of a lane's block lock (03 R68). -/
theorem State.rd_loseLock (s : State) (l t16 j : Nat) {g : Field} (hg : keptByEntry g = true) : (s.loseLock l t16).rd g j = s.rd g j := by
  obtain ⟨-, -, -, -, -, hreg, -⟩ := keptByEntry.parts hg
  unfold State.loseLock
  dsimp only
  rw [State.rd_count_other _ _ _ (by rw [hreg]; decide), State.rd_congr (State.setRx_word ..)]
  exact keptByEntry.rd_dropLock hg s l t16 j

theorem BeforeFailure.blockLock (q l t16 : Nat) (s : State) : BeforeFailure q s (s.loseLock l t16) :=
  ⟨s.rd_loseLock l t16 q (by decide), s.rd_loseLock l t16 q (by decide), (State.loseLock_within ..).word _ (by decide) q⟩

theorem completes_quadFailure {q : QuadId} {c : FailCause} {t16 : Nat} {s : State}
    (h : s.qstate q = qUp ∨ s.qstate q = qTest ∧ ∀ i, c ≠ .blockLock i) :
    Completes (.quadFailure q ⟨c, t16⟩) s (QuadFailed q (FailCause.code c) (FailCause.landing c) s) := by
  have hin : s.qstate q = qUp ∨ s.qstate q = qTest := h.imp id And.left
  refine ⟨_, rfl, ?_⟩
  cases c with
  | pllUnlock => exact ((BeforeFailure.refl q s).quadFail hin .pllUnlock).pllLost
  | clockLos => exact (BeforeFailure.clockLos q s).quadFail hin .clockLos
  | clockUnlock =>
    exact ((BeforeFailure.refl q s).quadFail hin .clockUnlock).setFlag (f := F.laneStateClkLock) false rfl (by decide) (by decide)
  | dataLos i =>
    show QuadFailed q _ _ s (s.signalLost (linkAt q i) t16)
    unfold State.signalLost
    rw [quadOf_linkAt]
    exact (BeforeFailure.dataLos q _ _ s).quadFail hin (.dataLos i)
  | blockLock i =>
    have hup : s.qstate q = qUp := h.resolve_right fun ⟨_, hnot⟩ => hnot i rfl
    dsimp only
    rw [State.when_pos (decide_eq_true hup)]
    exact (BeforeFailure.blockLock q _ _ s).quadFail hin (.blockLock i)
  | skew i => exact (BeforeFailure.refl q s).quadFail hin (.skew i)

/-- A loss of block lock in TEST changes nothing (02 R48). -/
theorem completes_quadFailure_blockLock_test {q : QuadId} {i : Fin 4} {t16 : Nat} {s : State} (h : s.qstate q = qTest) :
    Completes (.quadFailure q ⟨.blockLock i, t16⟩) s fun t => t = s := by
  refine ⟨_, rfl, State.when_neg ?_⟩
  rw [h]
  decide

/-- Settles O20: what each cause shows before the fall leaves the quad's state, GEN and count, and what follows it leaves the fall. -/
theorem quadFailuresLeaveUp : Obligations.QuadFailuresLeaveUp := fun _ c _ _ =>
  ⟨by rw [← FailCause.landing_eq c]; exact completes_quadFailure, fun _ => completes_quadFailure_blockLock_test⟩

/-! ### The lanes' commands -/

/-- A write of a register at expert level, by a master that reaches it: carried out on a state that differs by the access's counts alone
(12 R330). -/
theorem State.expertReg_ok {s : State} {m : Master} (hr : s.reaches m 18 true = true) (he : s.expert m = true) (r : Reg) (i : Nat)
    (f : State → State) : ∃ x, Within .counted s x ∧ (s.byReg m r i 8 true fun s => s.expertOnly m (regAddr r i) f) = f x := by
  obtain ⟨x, hx, e⟩ := s.byReg_ok m r i 8 true (fun s => s.expertOnly m (regAddr r i) f) hr
  exact ⟨x, hx, e.trans (x.expertOnly_ok m _ f ((hx.expert (by decide) m).trans he))⟩

theorem State.quad_congr {s t : State} (h : t.quads = s.quads) (q : Nat) : t.quad q = s.quad q := by
  unfold State.quad
  rw [h]

theorem Within.quad {k : Foot} {s t : State} (h : Within k s t) (hk : k.hasComp .quads = false) (q : Nat) : t.quad q = s.quad q :=
  State.quad_congr (h.quads hk) q

/-- Lanes disqualified where `b` holds (02 R37). -/
theorem State.disqualifyWhen_within (s : State) (b : Bool) (ls : List Nat) :
    Within (.of [.lanes] []) s (s.when b fun s => s.each ls fun l s => s.disqualify l) :=
  (Within.refl _ s).when _ _ fun _ h => h.each _ _ fun l x h => .after (State.disqualify_within x l) h (by decide)

theorem State.quad_loopChanged (s : State) (q : Nat) : (s.loopChanged q).quad q = { s.quad q with reloop := true } := by
  exact ((State.disqualifyWhen_within ..).quad (by decide) q).trans (State.quad_setQuad_same ..)

theorem completes_laneLoopSelect {m : Master} {q : QuadId} {s : State} (hr : s.reaches m 18 true = true) (he : s.expert m = true)
    (loop : BitVec 2) : Completes (.laneLoopSelect m q loop) s fun t => t.rd F.laneCtrlLoop q = loop.toNat ∧
      t.quad q = (if s.rd F.laneCtrlLoop q = loop.toNat then s.quad q else { s.quad q with reloop := true }) := by
  obtain ⟨x, hx, e⟩ := State.expertReg_ok hr he .laneCtrl q fun s =>
    if s.rd F.laneCtrlLoop q = loop.toNat then s else (s.wr F.laneCtrlLoop q loop.toNat).loopChanged q
  refine ⟨_, congrArg Host.Outcome.next e, ?_⟩
  rw [← hx.rd (f := F.laneCtrlLoop) (by decide) q, ← hx.quad (by decide) q]
  split
  next same => exact ⟨same, rfl⟩
  next =>
    refine ⟨?_, State.quad_loopChanged ..⟩
    rw [(State.loopChanged_within ..).rd (by decide), State.rd_wr _ _ _ _ (by decide)]
    exact Nat.mod_eq_of_lt loop.isLt

theorem completes_laneRestart {m : Master} {q : QuadId} {s : State} (hr : s.reaches m 18 true = true) (he : s.expert m = true) :
    Completes (.laneRestart m q) s fun t => t.quad q = { s.quad q with restart := true } := by
  obtain ⟨x, hx, e⟩ := State.expertReg_ok hr he .laneCtrl q fun s => s.setQuad q { s.quad q with restart := true }
  refine ⟨_, congrArg Host.Outcome.next e, ?_⟩
  rw [← hx.quad (by decide) q]
  exact State.quad_setQuad_same ..

theorem completes_prbsTxEnable {m : Master} {q : QuadId} {s : State} (hr : s.reaches m 18 true = true) (he : s.expert m = true)
    (lanes : BitVec 4) : Completes (.prbsTxEnable m q lanes) s fun t => t.rd F.lanePrbsCtrlTxEn q = lanes.toNat ∧
      t.rd F.lanePrbsCtrlRxEn q = s.rd F.lanePrbsCtrlRxEn q ∧ t.quad q = s.quad q := by
  obtain ⟨x, hx, e⟩ := State.expertReg_ok hr he .lanePrbsCtrl q fun s =>
    (s.wr F.lanePrbsCtrlTxEn q lanes.toNat).txEnChanged q (s.rd F.lanePrbsCtrlTxEn q)
  refine ⟨_, congrArg Host.Outcome.next e, ?_⟩
  have changed := State.txEnChanged_within (x.wr F.lanePrbsCtrlTxEn q lanes.toNat) q (x.rd F.lanePrbsCtrlTxEn q)
  refine ⟨?_, ?_, ?_⟩
  · rw [changed.rd (by decide), State.rd_wr _ _ _ _ (by decide)]
    exact Nat.mod_eq_of_lt lanes.isLt
  · rw [changed.rd (by decide), State.rd_wr_apart _ _ _ _ (by decide) (by decide), hx.rd (by decide)]
  · exact (changed.quad (by decide) q).trans (hx.quad (by decide) q)

/-- RX_EN and what a checker no longer enabled keeps (02 R39): the register's part of `setRxEn`. -/
def State.storeRxEn (s : State) (q v : Nat) : State :=
  let s := s.wr F.lanePrbsCtrlRxEn q v
  let s := s.wr F.lanePrbsCtrlRxLocked q (s.rd F.lanePrbsCtrlRxLocked q &&& v)
  s.each ((linksOf q).filter fun l => !bit v (laneOf l)) fun l s => s.setRx l { s.rx l with prbs := {} }

theorem State.rd_storeRxEn (s : State) (q j v : Nat) (g : Field) : (s.storeRxEn q v).rd g j =
    ((s.wr F.lanePrbsCtrlRxEn q v).wr F.lanePrbsCtrlRxLocked q ((s.wr F.lanePrbsCtrlRxEn q v).rd F.lanePrbsCtrlRxLocked q &&& v)).rd g j :=
  State.rd_each _ _ _ fun _ _ => State.rd_congr (State.setRx_word ..)

theorem State.storeRxEn_within (s : State) (q v : Nat) : Within (.of [.links] [.lanePrbsCtrl]) s (s.storeRxEn q v) :=
  .each _ _ (.wr _ _ _ (.wr _ _ _ (.refl _ s) (by decide)) (by decide)) fun l y h => .after (State.setRx_within y l _) h (by decide)

/-- RX_EN written: stored, TEST noted for the next tick edge, and the lanes disqualified where a checker is enabled (02 R37, R46). -/
theorem State.setRxEn_eq (s : State) (q v : Nat) : s.setRxEn q v =
    ((s.storeRxEn q v).setQuad q { (s.storeRxEn q v).quad q with toTest := decide (v ≠ 0), leaveTest := decide (v = 0) }).when
      (decide (v ≠ 0)) fun s => s.each (linksOf q) fun l s => s.disqualify l := rfl

theorem State.rd_setRxEn (s : State) (q j v : Nat) (g : Field) : (s.setRxEn q v).rd g j = (s.storeRxEn q v).rd g j := by
  rw [State.setRxEn_eq, (State.disqualifyWhen_within ..).rd (Nat.zero_testBit _)]
  rfl

theorem State.rd_setRxEn_fields (s : State) (q v : Nat) (hv : v < 16) : (s.setRxEn q v).rd F.lanePrbsCtrlRxEn q = v ∧
    (s.setRxEn q v).rd F.lanePrbsCtrlRxLocked q = s.rd F.lanePrbsCtrlRxLocked q &&& v ∧
      (s.setRxEn q v).rd F.lanePrbsCtrlTxEn q = s.rd F.lanePrbsCtrlTxEn q := by
  simp only [State.rd_setRxEn, State.rd_storeRxEn]
  refine ⟨?_, ?_, ?_⟩
  · rw [State.rd_wr_apart _ _ _ _ (by decide) (by decide), State.rd_wr _ _ _ _ (by decide)]
    exact Nat.mod_eq_of_lt hv
  · rw [State.rd_wr _ _ _ _ (by decide), State.rd_wr_apart s _ _ _ (by decide) (by decide)]
    exact Nat.mod_eq_of_lt (Nat.and_lt_two_pow _ hv)
  · rw [State.rd_wr_apart _ _ _ _ (by decide) (by decide), State.rd_wr_apart _ _ _ _ (by decide) (by decide)]

theorem State.quad_setRxEn (s : State) (q v : Nat) :
    (s.setRxEn q v).quad q = { s.quad q with toTest := decide (v ≠ 0), leaveTest := decide (v = 0) } := by
  rw [State.setRxEn_eq, (State.disqualifyWhen_within ..).quad (by decide), State.quad_setQuad_same,
    (s.storeRxEn_within q v).quad (by decide)]

theorem completes_prbsRxEnable {m : Master} {q : QuadId} {s : State} (hr : s.reaches m 18 true = true) (he : s.expert m = true)
    (lanes : BitVec 4) : Completes (.prbsRxEnable m q lanes) s fun t => t.rd F.lanePrbsCtrlRxEn q = lanes.toNat ∧
      t.rd F.lanePrbsCtrlRxLocked q = s.rd F.lanePrbsCtrlRxLocked q &&& lanes.toNat ∧
      t.rd F.lanePrbsCtrlTxEn q = s.rd F.lanePrbsCtrlTxEn q ∧
      t.quad q = { s.quad q with toTest := decide (lanes ≠ 0), leaveTest := decide (lanes = 0) } := by
  obtain ⟨x, hx, e⟩ := State.expertReg_ok hr he .lanePrbsCtrl q fun s => s.setRxEn q lanes.toNat
  refine ⟨_, congrArg Host.Outcome.next e, ?_⟩
  have hzero : lanes.toNat = 0 ↔ lanes = 0 := BitVec.toNat_inj (y := 0)
  obtain ⟨hen, hlocked, htx⟩ := x.rd_setRxEn_fields q lanes.toNat lanes.isLt
  refine ⟨hen, ?_, ?_, ?_⟩
  · rw [hlocked, hx.rd (by decide)]
  · rw [htx, hx.rd (by decide)]
  · rw [State.quad_setRxEn, hx.quad (by decide)]
    simp only [ne_eq, hzero]

/-! ### The PRBS checkers -/

theorem completes_prbsCheckerLock {l : LinkId} {s : State} (hen : s.laneBit F.lanePrbsCtrlRxEn l = true)
    (htest : s.qstate (quadOf l) = qTest) (hlocked : (s.rx l).prbs.locked = true) :
    Completes (.prbsCheckerLock l) s fun t => t.laneBit F.lanePrbsCtrlRxLocked l = true := by
  refine ⟨_, rfl, ?_⟩
  rw [State.when_pos (by rw [State.checking, hen, htest, hlocked]; rfl)]
  exact State.laneBit_setLaneBit _ _ _ _ (by decide) rfl

theorem completes_prbsCheckerUnlock {l : LinkId} {s : State} (hlocked : (s.rx l).prbs.locked = false) :
    Completes (.prbsCheckerUnlock l) s fun t => t.laneBit F.lanePrbsCtrlRxLocked l = false := by
  refine ⟨_, rfl, ?_⟩
  rw [State.when_pos (by rw [hlocked]; rfl)]
  exact State.laneBit_setLaneBit _ _ _ _ (by decide) rfl

/-- Settles O21: each write reaches its register on a state that differs by the access's counts, and what follows it leaves the register. -/
theorem laneCommandsTakeEffect : Obligations.LaneCommandsTakeEffect := fun _ _ _ hr he =>
  ⟨completes_laneLoopSelect hr he, completes_laneRestart hr he, completes_prbsTxEnable hr he, completes_prbsRxEnable hr he,
    fun _ => completes_prbsCheckerLock, fun _ => completes_prbsCheckerUnlock⟩

/-! ### Eye scans -/

theorem Within.gridOk {k : Foot} {s t : State} (h : Within k s t) (hgrid : k.hasReg .laneScanGrid = false)
    (hctrl : k.hasReg .laneScanCtrl = false) (q : Nat) : t.gridOk q = s.gridOk q := by
  have signed : ∀ f : Field, f.reg = .laneScanGrid → t.rdS f q = s.rdS f q := fun f hf => by
    unfold State.rdS
    rw [h.rd (by rw [hf]; exact hgrid)]
  unfold State.gridOk
  rw [signed F.laneScanGridHStart rfl, signed F.laneScanGridHEnd rfl, signed F.laneScanGridVStart rfl, signed F.laneScanGridVEnd rfl,
    h.rd (f := F.laneScanGridHStep) hgrid, h.rd (f := F.laneScanGridVStep) hgrid, h.rd (f := F.laneScanCtrlLane) hctrl]

theorem State.scanStart_of_busy {s : State} {q : Nat} (h : s.flag F.laneScanStatusBusy q = true) : s.scanStart q = s := if_pos h

theorem State.scanStart_of_notUp {s : State} {q : Nat} (h : s.flag F.laneScanStatusBusy q = false) (hup : s.qstate q ≠ qUp) :
    s.scanStart q = s.wr F.laneScanStatusErr q 3 := by
  unfold State.scanStart
  rw [if_neg (by rw [h]; decide), if_pos hup]

theorem State.scanStart_of_badGrid {s : State} {q : Nat} (h : s.flag F.laneScanStatusBusy q = false) (hup : s.qstate q = qUp)
    (hgrid : s.gridOk q = false) : s.scanStart q = s.wr F.laneScanStatusErr q 1 := by
  unfold State.scanStart
  rw [if_neg (by rw [h]; decide), if_neg fun hne => hne hup, if_pos (by rw [hgrid]; rfl)]

/-- A scan that begins: the window empty, the status as it begins (02 R41). -/
def State.scanBegun (s : State) (q : Nat) : State :=
  ((((s.setQuad q { s.quad q with scanTaken := 0, scanOut := [] }).wr F.laneScanStatusPoints q 0).wr F.laneScanStatusErr q 0).setFlag
    F.laneScanStatusDone q false).setFlag F.laneScanStatusBusy q true

theorem State.scanStart_runs {s : State} {q : Nat} (h : s.flag F.laneScanStatusBusy q = false) (hup : s.qstate q = qUp)
    (hgrid : s.gridOk q = true) :
    s.scanStart q = (s.scanBegun q).disqualify (linkAt q ((s.scanBegun q).rd F.laneScanCtrlLane q)) := by
  unfold State.scanStart
  rw [if_neg (by rw [h]; decide), if_neg fun hne => hne hup, if_neg (by rw [hgrid]; decide)]
  rfl

theorem State.rd_scanBegun (s : State) (q : Nat) : (s.scanBegun q).rd F.laneScanStatusErr q = 0 ∧
    (s.scanBegun q).rd F.laneScanStatusPoints q = 0 ∧ (s.scanBegun q).flag F.laneScanStatusBusy q = true ∧
      (s.scanBegun q).flag F.laneScanStatusDone q = false := by
  refine ⟨?_, ?_, State.flag_setFlag _ _ _ _ rfl (by decide), ?_⟩
  · unfold State.scanBegun
    rw [State.rd_setFlag_apart _ _ _ _ (by decide) (by decide), State.rd_setFlag_apart _ _ _ _ (by decide) (by decide),
      State.rd_wr _ _ _ _ (by decide)]
    rfl
  · unfold State.scanBegun
    rw [State.rd_setFlag_apart _ _ _ _ (by decide) (by decide), State.rd_setFlag_apart _ _ _ _ (by decide) (by decide),
      State.rd_wr_apart _ _ _ _ (by decide) (by decide), State.rd_wr _ _ _ _ (by decide)]
    rfl
  · unfold State.scanBegun
    rw [State.flag_setFlag_apart _ _ _ _ (by decide) (by decide)]
    exact State.flag_setFlag _ _ _ _ rfl (by decide)

theorem State.quad_scanBegun (s : State) (q : Nat) : (s.scanBegun q).quad q = { s.quad q with scanTaken := 0, scanOut := [] } := by
  unfold State.scanBegun
  rw [State.quad_congr (State.setFlag_quads ..), State.quad_congr (State.setFlag_quads ..), State.quad_congr (State.wr_quads ..),
    State.quad_congr (State.wr_quads ..), State.quad_setQuad_same]

/-- What a refused START shows: its ERR, no scan, the window as it was (02 R40). -/
theorem State.scanRefused {s x : State} {q : Nat} (hx : Within .counted s x) {e : Nat} (hlt : e < 8) (h : s.flag F.laneScanStatusBusy q = false) :
    (x.wr F.laneScanStatusErr q e).rd F.laneScanStatusErr q = e ∧ (x.wr F.laneScanStatusErr q e).flag F.laneScanStatusBusy q = false ∧
      (x.wr F.laneScanStatusErr q e).quad q = s.quad q := by
  refine ⟨?_, ?_, hx.quad (by decide) q⟩
  · rw [State.rd_wr _ _ _ _ (by decide)]
    exact Nat.mod_eq_of_lt hlt
  · rw [State.flag_wr_apart _ _ _ _ (by decide) (by decide), hx.flag (by decide), h]

/-- START is judged on a state that the access has changed by its counts alone (12 R330). -/
theorem exec_eyeScanStart {m : Master} {q : QuadId} {s : State} (hr : s.reaches m 18 true = true) (he : s.expert m = true) :
    ∃ x, Within .counted s x ∧ exec (.eyeScanStart m q) s = .next (x.scanStart q) :=
  (State.expertReg_ok hr he .laneScanCtrl q (·.scanStart q)).imp fun _ h => ⟨h.1, congrArg Host.Outcome.next h.2⟩

theorem exec_eyeScanAbort {m : Master} {q : QuadId} {s : State} (hr : s.reaches m 18 true = true) (he : s.expert m = true) :
    ∃ x, Within .counted s x ∧ exec (.eyeScanAbort m q) s = .next (x.scanEnd q 2) :=
  (State.expertReg_ok hr he .laneScanCtrl q (·.scanEnd q 2)).imp fun _ h => ⟨h.1, congrArg Host.Outcome.next h.2⟩

section
variable {m : Master} {q : QuadId} {s : State} (hr : s.reaches m 18 true = true) (he : s.expert m = true)
include hr he

theorem completes_eyeScanStart_busy (h : s.flag F.laneScanStatusBusy q = true) : Completes (.eyeScanStart m q) s fun t =>
    t.quad q = s.quad q ∧ t.word .laneScanStatus q = s.word .laneScanStatus q := by
  obtain ⟨x, hx, e⟩ := exec_eyeScanStart (q := q) hr he
  refine ⟨_, e, ?_⟩
  rw [State.scanStart_of_busy ((hx.flag (by decide) q).trans h)]
  exact ⟨hx.quad (by decide) q, hx.word _ (by decide) q⟩

theorem completes_eyeScanStart_notUp (h : s.flag F.laneScanStatusBusy q = false) (hup : s.qstate q ≠ qUp) :
    Completes (.eyeScanStart m q) s fun t =>
      t.rd F.laneScanStatusErr q = 3 ∧ t.flag F.laneScanStatusBusy q = false ∧ t.quad q = s.quad q := by
  obtain ⟨x, hx, e⟩ := exec_eyeScanStart (q := q) hr he
  refine ⟨_, e, ?_⟩
  rw [State.scanStart_of_notUp ((hx.flag (by decide) q).trans h) fun hx' => hup ((hx.rd (by decide) q).symm.trans hx')]
  exact State.scanRefused hx (by decide) h

theorem completes_eyeScanStart_badGrid (h : s.flag F.laneScanStatusBusy q = false) (hup : s.qstate q = qUp)
    (hgrid : s.gridOk q = false) : Completes (.eyeScanStart m q) s fun t =>
      t.rd F.laneScanStatusErr q = 1 ∧ t.flag F.laneScanStatusBusy q = false ∧ t.quad q = s.quad q := by
  obtain ⟨x, hx, e⟩ := exec_eyeScanStart (q := q) hr he
  refine ⟨_, e, ?_⟩
  rw [State.scanStart_of_badGrid ((hx.flag (by decide) q).trans h) ((hx.rd (by decide) q).trans hup)
    ((hx.gridOk (by decide) (by decide) q).trans hgrid)]
  exact State.scanRefused hx (by decide) h

theorem completes_eyeScanStart_runs (h : s.flag F.laneScanStatusBusy q = false) (hup : s.qstate q = qUp)
    (hgrid : s.gridOk q = true) : Completes (.eyeScanStart m q) s fun t =>
      t.rd F.laneScanStatusErr q = 0 ∧ t.rd F.laneScanStatusPoints q = 0 ∧ t.flag F.laneScanStatusBusy q = true ∧
        t.flag F.laneScanStatusDone q = false ∧ t.quad q = { s.quad q with scanTaken := 0, scanOut := [] } := by
  obtain ⟨x, hx, e⟩ := exec_eyeScanStart (q := q) hr he
  refine ⟨_, e, ?_⟩
  rw [State.scanStart_runs ((hx.flag (by decide) q).trans h) ((hx.rd (by decide) q).trans hup)
    ((hx.gridOk (by decide) (by decide) q).trans hgrid)]
  have disq := (x.scanBegun q).disqualify_within (linkAt q ((x.scanBegun q).rd F.laneScanCtrlLane q))
  obtain ⟨herr, hpoints, hbusy, hdone⟩ := x.rd_scanBegun q
  refine ⟨(disq.rd (by decide) q).trans herr, (disq.rd (by decide) q).trans hpoints, (disq.flag (by decide) q).trans hbusy,
    (disq.flag (by decide) q).trans hdone, ?_⟩
  rw [disq.quad (by decide), State.quad_scanBegun, hx.quad (by decide)]

theorem completes_eyeScanAbort_busy (h : s.flag F.laneScanStatusBusy q = true) : Completes (.eyeScanAbort m q) s fun t =>
    t.flag F.laneScanStatusBusy q = false ∧ t.flag F.laneScanStatusDone q = true ∧ t.rd F.laneScanStatusErr q = 2 ∧
      t.quad q = s.quad q := by
  obtain ⟨x, hx, e⟩ := exec_eyeScanAbort (q := q) hr he
  refine ⟨_, e, ?_⟩
  have hquad : (x.scanEnd q 2).quad q = s.quad q := ((x.scanEnd_within q 2).quad (by decide) q).trans (hx.quad (by decide) q)
  unfold State.scanEnd at hquad ⊢
  rw [if_pos ((hx.flag (by decide) q).trans h)] at hquad ⊢
  refine ⟨?_, ?_, ?_, hquad⟩
  · rw [State.flag_wr_apart _ _ _ _ (by decide) (by decide), State.flag_setFlag_apart _ _ _ _ (by decide) (by decide)]
    exact State.flag_setFlag _ _ _ _ rfl (by decide)
  · rw [State.flag_wr_apart _ _ _ _ (by decide) (by decide)]
    exact State.flag_setFlag _ _ _ _ rfl (by decide)
  · rw [State.rd_wr _ _ _ _ (by decide)]
    rfl

theorem completes_eyeScanAbort_idle (h : s.flag F.laneScanStatusBusy q = false) : Completes (.eyeScanAbort m q) s fun t =>
    t.word .laneScanStatus q = s.word .laneScanStatus q ∧ t.quad q = s.quad q := by
  obtain ⟨x, hx, e⟩ := exec_eyeScanAbort (q := q) hr he
  refine ⟨_, e, ?_⟩
  unfold State.scanEnd
  rw [if_neg (by rw [hx.flag (by decide), h]; decide)]
  exact ⟨hx.word _ (by decide) q, hx.quad (by decide) q⟩

end

/-- The points of a quad's grid as its registers stand (02 R40). -/
def State.scanSize (s : State) (q : Nat) : Nat :=
  gridPoints (s.rdS F.laneScanGridHStart q) (s.rdS F.laneScanGridHEnd q) (s.rd F.laneScanGridHStep q) *
    gridPoints (s.rdS F.laneScanGridVStart q) (s.rdS F.laneScanGridVEnd q) (s.rd F.laneScanGridVStep q)

/-- Entry `i` of a window: the offsets of its point above the mismatch count, held to 16 bits (02 R41). -/
def State.scanEntry (s : State) (q i mism : Nat) : Nat :=
  let nh := gridPoints (s.rdS F.laneScanGridHStart q) (s.rdS F.laneScanGridHEnd q) (s.rd F.laneScanGridHStep q)
  unsigned 8 (s.rdS F.laneScanGridHStart q + (i % nh * s.rd F.laneScanGridHStep q : Nat)) * 2 ^ 16 +
    unsigned 8 (s.rdS F.laneScanGridVStart q + (i / nh * s.rd F.laneScanGridVStep q : Nat)) * 2 ^ 24 + min mism 0xFFFF

theorem State.field_scanEntry (s : State) (q i mism : Nat) :
    field (BitVec.ofNat 32 (s.scanEntry q i mism)).toNat 0 16 = min mism 0xFFFF := by
  unfold State.scanEntry field
  rw [BitVec.toNat_ofNat]
  dsimp only
  omega

/-- A point stored as the next entry of the window, and POINTS (02 R41). -/
def State.scanStored (s : State) (q mism : Nat) : State :=
  (s.setQuad q { s.quad q with
    scanTaken := (s.quad q).scanTaken + 1
    scanOut := Tbl.set 0 (s.quad q).scanOut (s.quad q).scanTaken (BitVec.ofNat 32 (s.scanEntry q (s.quad q).scanTaken mism)) }).wr
    F.laneScanStatusPoints q ((s.quad q).scanTaken + 1)

/-- A scan whose last point is taken (02 R41). -/
def State.scanDone (s : State) (q : Nat) : State := (s.setFlag F.laneScanStatusBusy q false).setFlag F.laneScanStatusDone q true

theorem exec_eyeScanPoint_of_busy {q : QuadId} {mism : Nat} {s : State} (h : s.flag F.laneScanStatusBusy q = true) :
    exec (.eyeScanPoint q mism) s = .next (if s.scanSize q ≤ (s.quad q).scanTaken + 1 then (s.scanStored q mism).scanDone q
      else s.scanStored q mism) := by
  show execEyeScanPoint q mism s = _
  unfold execEyeScanPoint
  rw [State.when_pos h]
  rfl

theorem State.quad_scanStored (s : State) (q mism : Nat) : (s.scanStored q mism).quad q = { s.quad q with
    scanTaken := (s.quad q).scanTaken + 1
    scanOut := Tbl.set 0 (s.quad q).scanOut (s.quad q).scanTaken (BitVec.ofNat 32 (s.scanEntry q (s.quad q).scanTaken mism)) } := by
  unfold State.scanStored
  rw [State.quad_congr (State.wr_quads ..), State.quad_setQuad_same]

theorem State.points_scanStored (s : State) (q mism : Nat) (h : (s.quad q).scanTaken < 2048) :
    (s.scanStored q mism).rd F.laneScanStatusPoints q = (s.quad q).scanTaken + 1 := by
  unfold State.scanStored
  rw [State.rd_wr _ _ _ _ (by decide)]
  exact Nat.mod_eq_of_lt (show _ < 4096 by omega)

theorem State.busy_scanStored (s : State) (q mism : Nat) :
    (s.scanStored q mism).flag F.laneScanStatusBusy q = s.flag F.laneScanStatusBusy q := by
  unfold State.scanStored
  exact State.flag_wr_apart _ _ _ _ (by decide) (by decide)

theorem State.scanDone_facts (s : State) (q : Nat) : (s.scanDone q).quad q = s.quad q ∧
    (s.scanDone q).rd F.laneScanStatusPoints q = s.rd F.laneScanStatusPoints q ∧
      (s.scanDone q).flag F.laneScanStatusBusy q = false := by
  refine ⟨rfl, ?_, ?_⟩
  · unfold State.scanDone
    rw [State.rd_setFlag_apart _ _ _ _ (by decide) (by decide), State.rd_setFlag_apart _ _ _ _ (by decide) (by decide)]
  · unfold State.scanDone
    rw [State.flag_setFlag_apart _ _ _ _ (by decide) (by decide)]
    exact State.flag_setFlag _ _ _ _ rfl (by decide)

/-- A point taken leaves its entry and POINTS, and BUSY while a point of the grid is left (02 R41). -/
theorem State.scanPoint_facts {s : State} {q : Nat} (mism : Nat) (h : s.flag F.laneScanStatusBusy q = true)
    (hlt : (s.quad q).scanTaken < 2048) {t : State}
    (ht : t = if s.scanSize q ≤ (s.quad q).scanTaken + 1 then (s.scanStored q mism).scanDone q else s.scanStored q mism) :
    t.quad q = (s.scanStored q mism).quad q ∧ t.rd F.laneScanStatusPoints q = (s.quad q).scanTaken + 1 ∧
      t.flag F.laneScanStatusBusy q = decide ((s.quad q).scanTaken + 1 < s.scanSize q) := by
  have points := s.points_scanStored q mism hlt
  subst ht
  split
  next last =>
    obtain ⟨hquad, hpoints, hbusy⟩ := (s.scanStored q mism).scanDone_facts q
    exact ⟨hquad, hpoints.trans points, hbusy.trans (decide_eq_false (by omega)).symm⟩
  next more => exact ⟨rfl, points, (s.busy_scanStored q mism).trans (h.trans (decide_eq_true (by omega)).symm)⟩

theorem completes_eyeScanPoint {q : QuadId} {mism : Nat} {s : State} (h : s.flag F.laneScanStatusBusy q = true)
    (hlt : (s.quad q).scanTaken < 2048) : Completes (.eyeScanPoint q mism) s fun t =>
      (t.quad q).scanTaken = (s.quad q).scanTaken + 1 ∧ t.rd F.laneScanStatusPoints q = (s.quad q).scanTaken + 1 ∧
      field (Tbl.get 0 (t.quad q).scanOut (s.quad q).scanTaken).toNat 0 16 = min mism 0xFFFF ∧
      (∀ j, j ≠ (s.quad q).scanTaken → Tbl.get 0 (t.quad q).scanOut j = Tbl.get 0 (s.quad q).scanOut j) ∧
      t.flag F.laneScanStatusBusy q = decide ((s.quad q).scanTaken + 1 < s.scanSize q) := by
  refine ⟨_, exec_eyeScanPoint_of_busy h, ?_⟩
  obtain ⟨hquad, hpoints, hbusy⟩ := State.scanPoint_facts mism h hlt rfl
  rw [hquad, State.quad_scanStored]
  refine ⟨rfl, hpoints, ?_, fun j hj => Tbl.get_set_other _ _ _ hj, hbusy⟩
  rw [Tbl.get_set_same]
  exact s.field_scanEntry ..

/-- Settles O22: START by the three ways it can go, ABORT by whether a scan runs, and a point by whether it is the last. -/
theorem eyeScansRunPointByPoint : Obligations.EyeScansRunPointByPoint := fun _ _ _ hr he =>
  ⟨completes_eyeScanStart_busy hr he, completes_eyeScanStart_notUp hr he, completes_eyeScanStart_badGrid hr he,
    completes_eyeScanStart_runs hr he, completes_eyeScanAbort_busy hr he, completes_eyeScanAbort_idle hr he,
    fun _ => completes_eyeScanPoint⟩

/-! ### The judging receiver -/

theorem State.laneBit_congr {s t : State} {f : Field} {l : Nat} (h : t.word f.reg (quadOf l) = s.word f.reg (quadOf l)) :
    t.laneBit f l = s.laneBit f l := by
  unfold State.laneBit State.rdBit
  rw [State.rd_congr h]

theorem Within.lane {k : Foot} {s t : State} (h : Within k s t) (hk : k.hasComp .lanes = false) (l : Nat) : t.lane l = s.lane l := by
  unfold State.lane
  rw [h.lanes hk]

/-- A decision that holds is counted, and changes nothing else of the lane (02 R36). -/
theorem State.lane_holdDecision (s : State) (l : Nat) :
    (s.holdDecision l).lane l = { s.lane l with holds := bump 8 (s.lane l).holds } := by
  unfold State.holdDecision
  dsimp only
  split
  · exact ((State.enterService_within ..).lane (by decide) l).trans (State.lane_setLane_same ..)
  · exact State.lane_setLane_same ..

/-- The eighth hold in a row enters SERVICE (02 R36). -/
theorem State.trained_holdDecision (s : State) (l : LinkId) : (s.holdDecision l).laneBit F.laneStateTrained l =
    (s.laneBit F.laneStateTrained l || decide (7 ≤ (s.lane l).holds)) := by
  have kept : (s.setLane l { s.lane l with holds := bump 8 (s.lane l).holds }).laneBit F.laneStateTrained l =
      s.laneBit F.laneStateTrained l := State.laneBit_congr rfl
  unfold State.holdDecision
  dsimp only
  rw [kept]
  cases htrained : s.laneBit F.laneStateTrained l with
  | true => simpa [htrained] using kept
  | false =>
    by_cases hlast : 7 ≤ (s.lane l).holds
    · rw [if_pos (by simpa using hlast), decide_eq_true hlast]
      exact State.laneBit_setLaneBit _ _ _ _ (by decide) rfl
    · rw [if_neg (by simpa using hlast), decide_eq_false hlast]
      exact kept.trans htrained

/-- The lane after a decision interval ends: a new interval, FROZEN where the measurements do not qualify (02 R34, R37). -/
def LaneH.judged (h : LaneH) (frozen : Bool) : LaneH := { h with interval := 0, unqualified := false, frozen := frozen }

/-- The lane that sends step `r` as a new request, its run of holds ended (02 R34 to R36). -/
def LaneH.asking (h : LaneH) (r : FirReq) : LaneH :=
  { (h.send r) with holds := 0, retried := false, freeing := false, rejected := none }

/-- Whether the measurements over a lane's interval qualify (02 R37). -/
def LaneH.qualified (h : LaneH) (x : EqMeasure) : Bool := !h.unqualified && decide (4000 ≤ x.density)

/-- A lane's decision at the end of its interval (02 R34, R36, R37). -/
def State.decided (s : State) (l : Nat) (x : EqMeasure) : State :=
  let h := LaneH.judged (s.lane l) (!LaneH.qualified (s.lane l) x)
  if !LaneH.qualified (s.lane l) x then ((s.setLane l h).count .laneAdaptFrozen l).holdDecision l
  else if (s.lane l).waiting then s.setLane l h
  else if (s.lane l).fixedFar then (s.setLane l h).holdDecision l
  else match EqMeasure.step x with
    | some r => s.setLane l (LaneH.asking h r)
    | none => (s.setLane l h).holdDecision l

theorem State.decided_of_unqualified {s : State} {l : Nat} {x : EqMeasure} (h : (s.lane l).unqualified = true ∨ x.density < 4000) :
    s.decided l x = ((s.setLane l (LaneH.judged (s.lane l) true)).count .laneAdaptFrozen l).holdDecision l := by
  have hok : LaneH.qualified (s.lane l) x = false := by
    unfold LaneH.qualified
    rcases h with h | h
    · rw [h]; rfl
    · rw [decide_eq_false (by omega), Bool.and_false]
  rw [State.decided, hok]
  rfl

section
variable {s : State} {l : Nat} {x : EqMeasure} (hq : (s.lane l).unqualified = false) (hd : 4000 ≤ x.density)
  (hw : (s.lane l).waiting = false)
include hq hd hw

theorem State.decided_of_step {r : FirReq} (hf : (s.lane l).fixedFar = false) (hr : EqMeasure.step x = some r) :
    s.decided l x = s.setLane l (LaneH.asking (LaneH.judged (s.lane l) false) r) := by
  have hok : LaneH.qualified (s.lane l) x = true := by rw [LaneH.qualified, hq, decide_eq_true hd]; rfl
  rw [State.decided, hok, hw, hf, hr]
  rfl

/-- A far end taken as fixed is asked for no step either: the decision holds in both cases (02 R36). -/
theorem State.decided_of_noStep (hn : EqMeasure.step x = none) :
    s.decided l x = (s.setLane l (LaneH.judged (s.lane l) false)).holdDecision l := by
  have hok : LaneH.qualified (s.lane l) x = true := by rw [LaneH.qualified, hq, decide_eq_true hd]; rfl
  rw [State.decided, hok, hw, hn]
  exact ite_self _

end

section
variable {l : LinkId} {x : EqMeasure} {s : State} (hup : s.qstate (quadOf l) = qUp) (hdue : s.decisionTicks l ≤ (s.lane l).interval)
include hup hdue

theorem exec_adaptDecision_of_due : exec (.adaptDecision l x) s = .next (s.decided l x) :=
  congrArg Host.Outcome.next (State.when_pos (Bool.and_eq_true_iff.2 ⟨decide_eq_true hup, decide_eq_true hdue⟩))

theorem completes_adaptDecision_frozen (h : (s.lane l).unqualified = true ∨ x.density < 4000) :
    Completes (.adaptDecision l x) s fun t => (t.lane l).frozen = true ∧ (t.lane l).interval = 0 ∧ (t.lane l).req = (s.lane l).req ∧
      t.word .laneAdaptFrozen l = s.word .laneAdaptFrozen l + 1 := by
  refine ⟨_, exec_adaptDecision_of_due hup hdue, ?_⟩
  have lane : ((s.setLane l (LaneH.judged (s.lane l) true)).count .laneAdaptFrozen l).lane l = LaneH.judged (s.lane l) true :=
    State.lane_setLane_same ..
  dsimp only
  rw [State.decided_of_unqualified h, State.lane_holdDecision, lane, (State.holdDecision_within ..).word _ (by decide), State.word_count]
  exact ⟨rfl, rfl, rfl, rfl⟩

variable (hq : (s.lane l).unqualified = false) (hd : 4000 ≤ x.density) (hw : (s.lane l).waiting = false)
include hq hd hw

theorem completes_adaptDecision_step {r : FirReq} (hf : (s.lane l).fixedFar = false) (hr : EqMeasure.step x = some r) :
    Completes (.adaptDecision l x) s fun t => (t.lane l).req = r ∧ (t.lane l).waiting = true ∧
      (t.lane l).reqSeq = nextSeq (s.lane l).reqSeq ∧ (t.lane l).holds = 0 ∧ (t.lane l).frozen = false := by
  refine ⟨_, exec_adaptDecision_of_due hup hdue, ?_⟩
  dsimp only
  rw [State.decided_of_step hq hd hw hf hr, State.lane_setLane_same]
  exact ⟨rfl, rfl, rfl, rfl, rfl⟩

theorem completes_adaptDecision_hold (hn : EqMeasure.step x = none) :
    Completes (.adaptDecision l x) s fun t => (t.lane l).req = (s.lane l).req ∧ (t.lane l).reqSeq = (s.lane l).reqSeq ∧
      (t.lane l).holds = bump 8 (s.lane l).holds ∧ (t.lane l).frozen = false ∧
      t.laneBit F.laneStateTrained l = (s.laneBit F.laneStateTrained l || decide (7 ≤ (s.lane l).holds)) := by
  refine ⟨_, exec_adaptDecision_of_due hup hdue, ?_⟩
  dsimp only
  rw [State.decided_of_noStep hq hd hw hn, State.trained_holdDecision, State.lane_holdDecision, State.lane_setLane_same]
  exact ⟨rfl, rfl, rfl, rfl, congrArg (· || _) (State.laneBit_congr rfl)⟩

end

/-! ### The adaptation timeouts -/

theorem completes_adaptRequestTimeout {l : LinkId} {s : State} (hw : (s.lane l).waiting = true) (hdue : 96 ≤ (s.lane l).waited) :
    Completes (.adaptRequestTimeout l) s fun t => (t.lane l).reqSeq = nextSeq (s.lane l).reqSeq ∧ (t.lane l).req = {} ∧
      (t.lane l).waiting = false ∧ t.word .laneAdaptTimeout l = s.word .laneAdaptTimeout l + 1 ∧ t.active A.adaptTimeout l = true := by
  refine ⟨_, rfl, ?_⟩
  rw [State.when_pos (Bool.and_eq_true_iff.2 ⟨hw, decide_eq_true hdue⟩)]
  dsimp only
  generalize hx : State.count _ _ _ = x
  have hlane : x.lane l = { s.lane l with
      reqSeq := nextSeq (s.lane l).reqSeq, req := {}, waiting := false, waited := 0, freeing := false, retried := false, rejected := none } :=
    hx ▸ State.lane_setLane_same ..
  have hcount : x.word .laneAdaptTimeout l = s.word .laneAdaptTimeout l + 1 := hx ▸ State.word_count ..
  have raised := x.raise_within A.adaptTimeout l
  rw [raised.lane (by decide), raised.word _ (by decide), hlane, hcount, State.active_raise _ _ _ _ _ (by omega)]
  exact ⟨rfl, rfl, rfl, rfl, by simp⟩

theorem completes_adaptSilenceTimeout {l : LinkId} {s : State} (hup : s.qstate (quadOf l) = qUp)
    (htrain : s.laneBit F.laneStateTrained l = false) (hdue : 480 ≤ (s.lane l).silence) :
    Completes (.adaptSilenceTimeout l) s fun t => (t.lane l).fixedFar = true ∧ (t.lane l).waiting = false ∧
      t.laneBit F.laneStateTrained l = true ∧ t.act = s.act := by
  refine ⟨_, rfl, ?_⟩
  rw [State.when_pos (by rw [decide_eq_true hup, htrain, decide_eq_true hdue]; rfl)]
  have served := fun x : State => x.enterService_within l
  refine ⟨?_, ?_, State.laneBit_setLaneBit _ _ _ _ (by decide) rfl, (served _).act (by decide)⟩
  · rw [(served _).lane (by decide), State.lane_setLane_same]
  · rw [(served _).lane (by decide), State.lane_setLane_same]

theorem completes_adaptTrainTimeout {l : LinkId} {s : State} (hup : s.qstate (quadOf l) = qUp)
    (htrain : s.laneBit F.laneStateTrained l = false) (hdue : 24000 ≤ (s.lane l).train) :
    Completes (.adaptTrainTimeout l) s fun t =>
      t.laneBit F.laneStateTrained l = true ∧ t.active A.adaptTimeout l = true ∧ t.lane l = s.lane l := by
  refine ⟨_, rfl, ?_⟩
  rw [State.when_pos (by rw [decide_eq_true hup, htrain, decide_eq_true hdue]; rfl)]
  have raised := (s.enterService l).raise_within A.adaptTimeout l
  refine ⟨?_, ?_, ?_⟩
  · rw [State.laneBit_congr (raised.word _ (by decide) _)]
    exact State.laneBit_setLaneBit _ _ _ _ (by decide) rfl
  · rw [State.active_raise _ _ _ _ _ (by omega)]
    simp
  · exact (raised.lane (by decide) l).trans ((s.enterService_within l).lane (by decide) l)

/-- Settles O23: a decision by whether it qualifies and whether a step is asked for, then each timeout. -/
theorem receiversJudgeTheirEqualisation : Obligations.ReceiversJudgeTheirEqualisation := fun _ _ =>
  ⟨fun _ => completes_adaptDecision_frozen, fun _ _ hup hdue hq hd hw => completes_adaptDecision_step hup hdue hq hd hw,
    fun _ => completes_adaptDecision_hold, completes_adaptRequestTimeout, completes_adaptSilenceTimeout, completes_adaptTrainTimeout⟩

end Sys2Proof.Machine


/-! The ubath links: what block lock, frame alignment, verdicts and defects leave to be read, and the frames that are sent (03 R52 to R80). -/

namespace Sys2Proof.Machine

/-! ### Reads of a link's records -/

theorem State.link_congr {s t : State} (h : t.links = s.links) (l : Nat) : t.link l = s.link l := by
  unfold State.link
  rw [h]

theorem Within.rx {k : Foot} {s t : State} (h : Within k s t) (hk : k.hasComp .links = false) (l : Nat) : t.rx l = s.rx l :=
  congrArg LinkH.rx (State.link_congr (h.links hk) l)

theorem Within.tx {k : Foot} {s t : State} (h : Within k s t) (hk : k.hasComp .links = false) (l : Nat) : t.tx l = s.tx l :=
  congrArg LinkH.tx (State.link_congr (h.links hk) l)

/-- Both halves of a link lie in one record. -/
theorem State.rx_setTx (s : State) (l j : Nat) (v : TxH) : (s.setTx l v).rx j = s.rx j := by
  unfold State.setTx State.rx
  rw [State.link_setLink]
  split
  next same => rw [same]
  next => rfl

theorem Within.gen {k : Foot} {s t : State} (h : Within k s t) (hk : k.hasReg .laneState = false) (l : Nat) : t.gen l = s.gen l :=
  h.rd hk _

theorem quadOf_lt (l : LinkId) : quadOf l < 33 := by
  unfold quadOf
  split <;> omega

/-- The quad of a link, as an operand. -/
abbrev quadIdOf (l : LinkId) : QuadId := ⟨quadOf l, quadOf_lt l⟩

/-! ### Verdicts (03 R71) -/

/-- CHECK of the next frame as a verdict reads it: whether its OCRC is good, and its PCRC (03 R71). -/
def nextCheck (next : List Block) : Option (Bool × Nat) :=
  match next with
  | [b0, b1, b2, b3] => if isCtl b2 0xA5 then some (ocrcGood b0 b1 b2 b3, field b2.word.toNat 8 32) else none
  | _ => none

/-- The verdict on frame `f`: of 03 Table 03-6 in UP, ABSENT otherwise. -/
def State.verdictOn (s : State) (l : Nat) (f : RxFrameH) (check : Option (Bool × Nat)) : Nat :=
  if s.qstate (quadOf l) = qUp then verdictOf f.allValid f.subst f.pcrc check else vAbsent

/-- The counter of a verdict (03 Table 03-9). -/
def verdictCounter (v : Nat) : Reg :=
  if v = vGood then .linkFramesGood else if v = vDoubtful then .linkFramesDoubtful else if v = vBad then .linkFramesBad else .linkFramesAbsent

theorem verdictOf_lt (allValid subst : Bool) (pcrc : BitVec 32) (check : Option (Bool × Nat)) : verdictOf allValid subst pcrc check < 4 := by
  unfold verdictOf
  extract_lets v
  have hv : v < 4 := by
    dsimp only [v]
    repeat' split
    all_goals decide
  split
  · decide
  · exact hv

theorem State.verdictOn_lt (s : State) (l : Nat) (f : RxFrameH) (check : Option (Bool × Nat)) : s.verdictOn l f check < 4 := by
  unfold State.verdictOn
  split
  · exact verdictOf_lt ..
  · decide

theorem State.word_countVerdict (s : State) (l v : Nat) {r : Reg} (hr : r ≠ .linkState) :
    (s.countVerdict l v).word r l = s.word r l + (if verdictCounter v = r then 1 else 0) := by
  have counted : (s.countVerdict l v).word r l = (s.count (verdictCounter v) l).word r l := State.word_wr_other _ _ (.inl (Ne.symm hr))
  rw [counted]
  split
  next same => rw [same, State.word_count]
  next other => rw [State.word_count_other _ (.inl other)]; exact (BitVec.add_zero _).symm

theorem State.lastVerdict_countVerdict (s : State) (l v : Nat) (h : v < 4) :
    (s.countVerdict l v).rd F.linkStateLastVerdict l = v := by
  refine (State.rd_wr _ F.linkStateLastVerdict _ _ (by decide)).trans (Nat.mod_eq_of_lt ?_)
  exact Nat.lt_trans h (by decide)

/-- Of LINK_STATE a verdict writes LAST_VERDICT alone. -/
theorem State.rd_countVerdict (s : State) (l v j : Nat) {g : Field} (hr : g.reg = .linkState) (h : F.linkStateLastVerdict.apart g = true)
    (hg : g.lo + g.width ≤ 64) : (s.countVerdict l v).rd g j = s.rd g j := by
  refine (State.rd_wr_apart _ (f := F.linkStateLastVerdict) l j v h hg).trans (State.rd_count_other _ _ _ ?_)
  rw [hr]
  repeat' split
  all_goals decide

theorem State.frame_countVerdict (s : State) (l v : Nat) : ((s.countVerdict l v).rx l).frame = (s.rx l).frame := by
  unfold State.countVerdict State.errTick
  rw [State.rx_setRx_same]
  rfl

/-- What a verdict may touch at the lag store and the mate, to which it is told (04 R86 to R90; 10 R246). -/
def Foot.judged : Foot := Foot.alarm.plus
  (.of [.lag, .hbm, .mate] [.lagArrLast, .lagArrMax, .lagArrMin, .lagLinkState, .lagLate, .lagMarginLow, .mateFrameUnusable])

theorem State.formVerdict_of_none {s : State} {l : Nat} (h : (s.rx l).frame = none) (next : List Block) (t16 : Nat) :
    s.formVerdict l next t16 = s := by
  unfold State.formVerdict
  extract_lets r
  rw [show r.frame = none from h]

/-- A verdict is counted and shown on a state in which no frame is being received, and told to the lag store and the mate. -/
theorem State.formVerdict_of_some {s : State} {l : Nat} {f : RxFrameH} (h : (s.rx l).frame = some f) (next : List Block) (t16 : Nat) :
    ∃ x y : State, Within (.of [.links] [.linkPayCrcErr]) s x ∧ (x.rx l).frame = none ∧
      Within (.of [.links] []) (x.countVerdict l (s.verdictOn l f (nextCheck next))) y ∧
      y.rx l = (x.countVerdict l (s.verdictOn l f (nextCheck next))).rx l ∧ Within .judged y (s.formVerdict l next t16) := by
  unfold State.formVerdict
  extract_lets r check
  rw [show r.frame = some f from h]
  dsimp -zeta only
  extract_lets s1 up v rx s2 s3 tx s4 a
  have hs1 : Within (.of [.links] [.linkPayCrcErr]) s s1 := (Within.refl _ s).when _ _ fun y hy => hy.count _ _ (by decide)
  have hv : v = s.verdictOn l f (nextCheck next) := by
    show (if s1.qstate (quadOf l) = qUp then _ else _) = _
    rw [State.qstate, hs1.rd (by decide)]
    rfl
  refine ⟨s2, s4, .after (State.setRx_within ..) hs1 (by decide), congrArg RxH.frame (State.rx_setRx_same ..), ?_, ?_, ?_⟩
  · rw [← hv]
    exact .ite ((State.setTx_within ..).mono (by decide)) (.refl ..)
  · rw [← hv]
    dsimp only [s4]
    split
    · exact State.rx_setTx ..
    · rfl
  · have told : Within .judged s4 s4 := .refl ..
    refine .ite (.ite ?_ ?_) (.ite (.ite (told.set_mate (by decide)) ?_) (.ite (told.set_mate (by decide)) (told.set_mate (by decide))))
    · exact (State.lagVerdict_within ..).mono (by decide)
    · exact Within.when _ _ ((State.lagMeasureA_within ..).mono (by decide)) fun y hy => .after (State.lagCut_within ..) hy (by decide)
    · exact (State.mateUnusable_within ..).mono (by decide)

/-- A field of LINK_STATE beside LAST_VERDICT is kept over a verdict. -/
theorem State.rd_formVerdict (s : State) (l t16 j : Nat) (next : List Block) {g : Field} (hr : g.reg = .linkState)
    (h : F.linkStateLastVerdict.apart g = true) (hg : g.lo + g.width ≤ 64) : (s.formVerdict l next t16).rd g j = s.rd g j := by
  cases hf : (s.rx l).frame with
  | none => rw [State.formVerdict_of_none hf]
  | some f =>
    obtain ⟨x, y, hx, -, hy, -, ht⟩ := State.formVerdict_of_some hf next t16
    rw [ht.rd (by rw [hr]; decide), hy.rd (by rw [hr]; decide), State.rd_countVerdict _ _ _ _ hr h hg, hx.rd (by rw [hr]; decide)]

end Sys2Proof.Machine

namespace Sys2Proof.Machine

/-! ### Frame alignment and block lock left (03 R68, R69) -/

/-- What leaves SYNC clears RDI and loses the link's reference; it writes no other field of LINK_STATE and none of LANE_STATE. -/
theorem State.rd_rdiExit_linkRefLost (s : State) (l j : Nat) {g : Field} (hr : g.reg = .linkState ∨ g.reg = .laneState)
    (h : F.linkStateRdi.apart g = true) (hg : g.lo + g.width ≤ 64) : ((s.rdiExit l).linkRefLost l).rd g j = s.rd g j := by
  have quiet : Foot.alarmEnd.hasReg g.reg = false := by rcases hr with hr | hr <;> rw [hr] <;> decide
  have lost : ((s.rdiExit l).linkRefLost l).rd g j = (s.rdiExit l).rd g j :=
    (State.linkRefLost_within ..).rd (by rcases hr with hr | hr <;> rw [hr] <;> decide) j
  rw [lost]
  exact ((State.clear_within _ A.rdi l).rd quiet j).trans (State.rd_setFlag_apart _ (f := F.linkStateRdi) l j false h hg)

/-- A loss of SYNC counted, HUNT and OOF shown, the lane no longer in-frame (03 R69, R72). -/
def State.showSyncLoss (s : State) (l : Nat) : State :=
  (((s.count .linkOofEntry l).wr F.linkStateFaState l faHunt).setFlag F.linkStateOof l true).setLaneBit F.laneStateInFrame l false

/-- SYNC is left with the loss shown on the state that the early verdict leaves; after it only the link's records change, RDI is cleared and the
link's reference is lost (03 R69, R71, R72). -/
theorem State.loseSync_of_sync {s : State} {l : Nat} (h : s.inSync l = true) (t16 : Nat) : ∃ y : State,
    Within (.of [.links] []) (((s.formVerdict l [] t16).disqualify l).showSyncLoss l) y ∧ s.loseSync l t16 = (y.rdiExit l).linkRefLost l := by
  unfold State.loseSync
  rw [if_pos h]
  exact ⟨_, State.setRx_within .., rfl⟩

/-- CLKACQ entered: what UP and TEST hold is ended, the lanes' block lock and the clock's lock are dropped (02 Table 02-7). -/
theorem State.enterQuad_clkacq (s : State) (q t16 : Nat) : ∃ h : QuadH, s.enterQuad q qClkacq t16 =
    ((((((s.leaveUp q t16).leaveTest q).each (linksOf q) fun l s => s.dropLock l t16).setFlag F.laneStateClkLock q false).wr
      F.laneStateQstate q qClkacq).setQuad q h).quadDown q := ⟨_, rfl⟩

/-- Fields of LINK_STATE that a fall from alignment never writes. -/
def keptByFall (g : Field) : Bool :=
  decide (g.reg = .linkState) && F.linkStateLastVerdict.apart g && F.linkStateFaState.apart g && F.linkStateOof.apart g &&
    F.linkStateRdi.apart g && F.linkStateLol.apart g && decide (g.lo + g.width ≤ 64)

section
variable {g : Field} (hg : keptByFall g = true)
include hg

theorem keptByFall.parts : g.reg = .linkState ∧ F.linkStateLastVerdict.apart g = true ∧ F.linkStateFaState.apart g = true ∧
    F.linkStateOof.apart g = true ∧ F.linkStateRdi.apart g = true ∧ F.linkStateLol.apart g = true ∧ g.lo + g.width ≤ 64 := by
  simp only [keptByFall, Bool.and_eq_true, decide_eq_true_eq] at hg
  obtain ⟨⟨⟨⟨⟨⟨reg, verdict⟩, fa⟩, oof⟩, rdi⟩, lol⟩, fits⟩ := hg
  exact ⟨reg, verdict, fa, oof, rdi, lol, fits⟩

theorem keptByFall.rd_formVerdict (s : State) (l t16 j : Nat) (next : List Block) : (s.formVerdict l next t16).rd g j = s.rd g j := by
  obtain ⟨reg, verdict, -, -, -, -, fits⟩ := keptByFall.parts hg
  exact State.rd_formVerdict s l t16 j next reg verdict fits

theorem keptByFall.rd_loseSync (s : State) (l t16 j : Nat) : (s.loseSync l t16).rd g j = s.rd g j := by
  obtain ⟨reg, -, fa, oof, rdi, -, fits⟩ := keptByFall.parts hg
  cases hsync : s.inSync l with
  | true =>
    obtain ⟨y, hy, e⟩ := State.loseSync_of_sync hsync t16
    rw [e, State.rd_rdiExit_linkRefLost _ _ _ (.inl reg) rdi fits, hy.rd (Nat.zero_testBit _), State.showSyncLoss,
      State.rd_setLaneBit _ _ _ _ (by simp [Field.apart, reg]) fits, State.rd_setFlag_apart _ _ _ _ oof fits,
      State.rd_wr_apart _ _ _ _ fa fits, State.rd_count_other _ _ _ (by rw [reg]; decide),
      (State.disqualify_within ..).rd (by rw [reg]; decide), keptByFall.rd_formVerdict hg]
  | false =>
    unfold State.loseSync
    rw [if_neg (by rw [hsync]; decide)]
    exact State.rd_wr_apart s (f := F.linkStateFaState) l j faHunt fa fits

theorem keptByFall.rd_dropLock (s : State) (l t16 j : Nat) : (s.dropLock l t16).rd g j = s.rd g j := by
  obtain ⟨reg, -, -, -, -, lol, fits⟩ := keptByFall.parts hg
  unfold State.dropLock
  dsimp only
  rw [State.rd_setFlag_apart _ _ _ _ lol fits, State.rd_setLaneBit _ _ _ _ (by simp [Field.apart, reg]) fits]
  exact keptByFall.rd_loseSync hg s l t16 j

theorem keptByFall.rd_leaveUp (s : State) (q t16 j : Nat) : (s.leaveUp q t16).rd g j = s.rd g j := by
  obtain ⟨reg, -⟩ := keptByFall.parts hg
  unfold State.leaveUp
  split
  · refine ((State.scanEnd_within ..).rd (by rw [reg]; decide) j).trans ?_
    exact State.rd_each _ _ _ fun l y => keptByFall.rd_formVerdict hg y l t16 j []
  · rfl

/-- A quad that falls to CLKACQ ends what its links hold, and drops their block lock (02 Table 02-7). -/
theorem keptByFall.rd_enterQuad_clkacq (s : State) (q t16 j : Nat) : (s.enterQuad q qClkacq t16).rd g j = s.rd g j := by
  obtain ⟨reg, -, -, -, -, -, fits⟩ := keptByFall.parts hg
  have lanes : ∀ f : Field, f.reg = .laneState → f.apart g = true := fun f hf => by simp [Field.apart, reg, hf]
  obtain ⟨h, e⟩ := s.enterQuad_clkacq q t16
  rw [e, (State.quadDown_within ..).rd (by rw [reg]; decide), (State.setQuad_within ..).rd (Nat.zero_testBit _),
    State.rd_wr_apart _ _ _ _ (lanes _ rfl) fits, State.rd_setFlag_apart _ _ _ _ (lanes _ rfl) fits,
    State.rd_each _ _ _ fun l y => keptByFall.rd_dropLock hg y l t16 j, (State.leaveTest_within ..).rd (by rw [reg]; decide)]
  exact keptByFall.rd_leaveUp hg s q t16 j

end

/-- A failure to CLKACQ keeps what the fall keeps, but for its count and DOWN_CAUSE (02 R48). -/
theorem State.rd_quadFail_clkacq (s : State) (q cause t16 j : Nat) {g : Field} (hc : F.laneStateDownCause.apart g = true)
    (hg : g.lo + g.width ≤ 64) (hcount : g.reg ≠ .laneUpLoss) (fall : ∀ x : State, (x.enterQuad q qClkacq t16).rd g j = x.rd g j) :
    (s.quadFail q cause qClkacq t16).rd g j = s.rd g j := by
  unfold State.quadFail
  split
  · rw [fall, State.rd_wr_apart _ _ _ _ hc hg, State.rd_count_other _ _ _ hcount.symm]
  · rfl

/-! ### Defects (03 R72, R76; 02 R45) -/

section
variable {c : Instr} {s x : State} {f : Field} {a : Nat} {l : LinkId}

/-- A defect whose bit is set and whose alarm is raised is there to be read. -/
theorem defect_raised (hr : f.reg = .linkState) (h : x.flag f l = true) :
    (x.raise a l).flag f l = true ∧ (x.raise a l).active a l = true := by
  refine ⟨(State.flag_raise _ _ _ _ _ (by rw [hr]; decide)).trans h, ?_⟩
  rw [State.active_raise _ _ _ _ _ (by omega)]
  simp

theorem completes_defectEntry (hr : f.reg = .linkState) (hw : f.width = 1) (hg : f.lo + f.width ≤ 64)
    (e : exec c s = .next ((s.setFlag f l true).raise a l)) :
    Completes c s fun t => t.flag f l = true ∧ t.active a l = true :=
  ⟨_, e, defect_raised hr (State.flag_setFlag s f l true hw hg)⟩

theorem completes_defectEntry_counted {r : Reg} (hr : f.reg = .linkState) (hw : f.width = 1) (hg : f.lo + f.width ≤ 64)
    (hcount : r ≠ .linkState) (quiet : Foot.alarm.hasReg r = false)
    (e : exec c s = .next (((s.setFlag f l true).count r l).raise a l)) :
    Completes c s fun t => t.flag f l = true ∧ t.word r l = s.word r l + 1 ∧ t.active a l = true := by
  have shown : ((s.setFlag f l true).count r l).flag f l = true :=
    (State.flag_congr (State.word_count_other _ (.inl (hr ▸ hcount)))).trans (State.flag_setFlag s f l true hw hg)
  obtain ⟨hflag, hactive⟩ := defect_raised (a := a) hr shown
  refine ⟨_, e, hflag, ?_, hactive⟩
  rw [State.word_raise _ _ _ _ _ quiet, State.word_count, State.setFlag, State.word_wr_other _ _ (.inl (hr ▸ hcount.symm))]

theorem completes_defectExit (hr : f.reg = .linkState) (hw : f.width = 1) (hg : f.lo + f.width ≤ 64)
    (e : exec c s = .next ((x.setFlag f l false).clear a l)) :
    Completes c s fun t => t.flag f l = false ∧ t.active a l = false := by
  refine ⟨_, e, ?_, ?_⟩
  · exact (State.flag_clear _ _ _ _ _ (by rw [hr]; decide)).trans (State.flag_setFlag x f l false hw hg)
  · rw [State.active_clear _ _ _ _ _ (by omega)]
    simp

end

section
variable {l : LinkId} {s : State}

/-- A used link's lost signal shows in both registers, and stays shown where the quad falls. -/
theorem State.los_signalLost (hu : s.used l = true) (t16 : Nat) : (s.signalLost l t16).flag F.linkStateLos l = true ∧
    (s.signalLost l t16).laneBit F.laneStateLos l = true := by
  unfold State.signalLost
  rw [State.when_pos hu]
  dsimp only
  constructor
  · unfold State.flag
    rw [State.rd_quadFail_clkacq _ _ _ _ _ (by decide) (by decide) (by decide) fun x => keptByFall.rd_enterQuad_clkacq (by decide) x _ _ _]
    exact State.flag_setFlag _ F.linkStateLos l true rfl (by decide)
  · unfold State.laneBit State.rdBit
    rw [State.rd_quadFail_clkacq _ _ _ _ _ (by decide) (by decide) (by decide) fun x =>
      State.rd_enterQuad x _ _ _ _ (by decide) (by decide) (by decide) (.inl (by decide)),
      State.rd_setFlag_apart _ _ _ _ (by decide) (by decide)]
    exact State.laneBit_setLaneBit s F.laneStateLos l true (by decide) rfl

theorem completes_lossOfSignal (hu : s.used l = true) (t16 : Nat) : Completes (.lossOfSignal ⟨l, t16⟩) s fun t =>
    t.flag F.linkStateLos l = true ∧ t.laneBit F.laneStateLos l = true ∧ (s.qstate (quadOf l) = 5 ∨ s.qstate (quadOf l) = 6 →
      t.qstate (quadOf l) = 2 ∧ t.rd F.laneStateDownCause (quadOf l) = 4) := by
  obtain ⟨hlink, hlane⟩ := State.los_signalLost hu t16
  refine ⟨_, rfl, hlink, hlane, fun hin => ?_⟩
  obtain ⟨hstate, hcause, -⟩ := (BeforeFailure.dataLos (quadIdOf l) l (s.used l) s).quadFail (q := quadIdOf l) (t16 := t16) hin (.dataLos 0)
  exact ⟨hstate, hcause⟩

theorem completes_losExit (hu : s.used l = true) (hlos : s.laneBit F.laneStateLos l = false) (hdue : (s.rx l).losClear + 48 ≤ s.tick.n + 1) :
    Completes (.losExit l) s fun t => t.flag F.linkStateLos l = false := by
  refine ⟨_, congrArg Host.Outcome.next (State.when_pos ?_), State.flag_setFlag s F.linkStateLos l false rfl (by decide)⟩
  simp [hu, hlos, hdue]

theorem completes_lofEntry (hu : s.used l = true) (hrun : 48 ≤ (s.rx l).oofRun) (htest : s.qstate (quadOf l) ≠ 6)
    (hflag : s.flag F.linkStateLof l = false) : Completes (.lofEntry l) s fun t =>
      t.flag F.linkStateLof l = true ∧ t.word .linkLofEntry l = s.word .linkLofEntry l + 1 ∧ t.active A.linkLof l = true :=
  completes_defectEntry_counted rfl rfl (by decide) (by decide) (by decide)
    (congrArg Host.Outcome.next (State.when_pos (by simp [hu, hrun, htest, hflag])))

theorem completes_lofExit (hflag : s.flag F.linkStateLof l = true) (hrun : 48 ≤ (s.rx l).syncRun) :
    Completes (.lofExit l) s fun t => t.flag F.linkStateLof l = false ∧ t.active A.linkLof l = false :=
  completes_defectExit rfl rfl (by decide) (congrArg Host.Outcome.next (State.when_pos (by simp [hflag, hrun])))

theorem completes_blockTypeErrEntry (hu : s.used l = true) (hrun : 3 ≤ (s.rx l).typeErrRun) (hflag : s.flag F.linkStateBlockTypeErr l = false) :
    Completes (.blockTypeErrEntry l) s fun t => t.flag F.linkStateBlockTypeErr l = true ∧ t.active A.blockTypeErr l = true :=
  completes_defectEntry rfl rfl (by decide) (congrArg Host.Outcome.next (State.when_pos (by simp [hu, hrun, hflag])))

theorem completes_blockTypeErrExit (hflag : s.flag F.linkStateBlockTypeErr l = true) (hrun : 48 ≤ (s.rx l).typeCleanRun) :
    Completes (.blockTypeErrExit l) s fun t => t.flag F.linkStateBlockTypeErr l = false ∧ t.active A.blockTypeErr l = false :=
  completes_defectExit rfl rfl (by decide) (congrArg Host.Outcome.next (State.when_pos (by simp [hflag, hrun])))

theorem completes_rdiEntry (hu : s.used l = true) (hrun : 3 ≤ (s.rx l).rdi1Run) (hflag : s.flag F.linkStateRdi l = false) :
    Completes (.rdiEntry l) s fun t => t.flag F.linkStateRdi l = true ∧ t.active A.rdi l = true :=
  completes_defectEntry rfl rfl (by decide) (congrArg Host.Outcome.next (State.when_pos (by simp [hu, hrun, hflag])))

theorem completes_rdiExit (hflag : s.flag F.linkStateRdi l = true) (hrun : 3 ≤ (s.rx l).rdi0Run) :
    Completes (.rdiExit l) s fun t => t.flag F.linkStateRdi l = false ∧ t.active A.rdi l = false :=
  completes_defectExit rfl rfl (by decide) (congrArg Host.Outcome.next (State.when_pos (by simp [hflag, hrun])))

theorem completes_discordEntry (hu : s.used l = true) (hkind : s.rd F.linkIdentRxInfoKind l = 0) (hrun : 2 ≤ (s.rx l).discRun)
    (hflag : s.flag F.linkStateDiscord l = false) : Completes (.discordEntry l) s fun t =>
      t.flag F.linkStateDiscord l = true ∧ t.word .linkDiscordEntry l = s.word .linkDiscordEntry l + 1 ∧ t.active A.discord l = true :=
  completes_defectEntry_counted rfl rfl (by decide) (by decide) (by decide)
    (congrArg Host.Outcome.next (State.when_pos (by simp [hu, hkind, hrun, hflag])))

theorem completes_discordExit (hflag : s.flag F.linkStateDiscord l = true) (hrun : 2 ≤ (s.rx l).agreeRun) :
    Completes (.discordExit l) s fun t => t.flag F.linkStateDiscord l = false ∧ t.active A.discord l = false :=
  completes_defectExit rfl rfl (by decide) (congrArg Host.Outcome.next (State.when_pos (by simp [hflag, hrun])))

end

/-- Settles O28: the signal's defect over the fall that it may cause, then each defect's entry and exit by its run. -/
theorem linkDefectsFollowTheirRuns : Obligations.LinkDefectsFollowTheirRuns := fun _ _ =>
  ⟨completes_lossOfSignal, completes_losExit, completes_lofEntry, completes_lofExit, completes_blockTypeErrEntry, completes_blockTypeErrExit,
    completes_rdiEntry, completes_rdiExit, completes_discordEntry, completes_discordExit⟩

end Sys2Proof.Machine

namespace Sys2Proof.Machine

/-! ### Blocks received (03 R52, R68) -/

/-- A block's 66 bits taken by the descrambler and, in TEST, by the lane's checker (03 R53; 02 R39). -/
def State.bitsTaken (s : State) (l : Nat) (hdr : BitVec 2) (line : BitVec 64) : State :=
  (s.setRx l { s.rx l with descr := (descramble (s.rx l).descr line).2 }).prbsTake l hdr line

theorem State.bitsTaken_within (s : State) (l : Nat) (hdr : BitVec 2) (line : BitVec 64) :
    Within (.of [.links] [.lanePrbsErr, .lanePrbsBits]) s (s.bitsTaken l hdr line) :=
  .after (State.prbsTake_within ..) (.after (State.setRx_within ..) (.refl ..) (by decide)) (by decide)

/-- The search for block lock does not move with the checker. -/
theorem State.lockRuns_prbsTake (s : State) (l : Nat) (hdr : BitVec 2) (line : BitVec 64) :
    ((s.prbsTake l hdr line).rx l).validRun = (s.rx l).validRun ∧ ((s.prbsTake l hdr line).rx l).bitPos = (s.rx l).bitPos := by
  have taken : ∀ (x : State) (p : PrbsH) (m n : Nat),
      (((x.setRx l { x.rx l with prbs := p }).countBy .lanePrbsBits l m).countBy .lanePrbsErr l n).rx l = { x.rx l with prbs := p } :=
    fun x p _ _ => State.rx_setRx_same x l _
  unfold State.prbsTake
  split
  · exact ⟨rfl, rfl⟩
  · dsimp only
    rw [taken]
    exact ⟨rfl, rfl⟩

theorem State.lockRuns_bitsTaken (s : State) (l : Nat) (hdr : BitVec 2) (line : BitVec 64) :
    ((s.bitsTaken l hdr line).rx l).validRun = (s.rx l).validRun ∧ ((s.bitsTaken l hdr line).rx l).bitPos = (s.rx l).bitPos := by
  unfold State.bitsTaken
  obtain ⟨hrun, hpos⟩ := State.lockRuns_prbsTake (s.setRx l { s.rx l with descr := (descramble (s.rx l).descr line).2 }) l hdr line
  rw [State.rx_setRx_same] at hrun hpos
  exact ⟨hrun, hpos⟩

/-- Outside the near-end loops a block that comes in is searched for the lock, or counted and aligned under it (02 Table 02-7; 03 R68, R69). -/
theorem exec_rxBlock_of_samples {l : LinkId} {hdr : BitVec 2} {line : BitVec 64} {s : State} (hq : s.samples (quadOf l) = true)
    (hn : s.nearLoop l = false) : exec (.rxBlock l hdr line) s = .next (
      if (s.bitsTaken l hdr line).laneBit F.laneStateBlockLock l then
        ((s.bitsTaken l hdr line).lockWindow l (validHdr hdr)).alignBlock l ⟨hdr, (descramble (s.rx l).descr line).1⟩
      else (s.bitsTaken l hdr line).lockSearch l (validHdr hdr)) := by
  have comes : s.receives l = true := by rw [State.receives, hq, hn]; rfl
  have line_in : s.lineIn l hdr line = (hdr, line, s) := if_neg (by rw [hn]; decide)
  show execRxBlock l hdr line s = _
  unfold execRxBlock
  rw [State.when_pos comes, line_in]
  rfl

theorem State.lockSearch_valid (s : State) (l : Nat) :
    ((s.lockSearch l true).rx l).validRun = bump 64 (s.rx l).validRun ∧ ((s.lockSearch l true).rx l).bitPos = (s.rx l).bitPos := by
  unfold State.lockSearch
  rw [if_pos rfl, State.rx_setRx_same]
  exact ⟨rfl, rfl⟩

theorem State.lockSearch_invalid (s : State) (l : Nat) :
    ((s.lockSearch l false).rx l).validRun = 0 ∧ ((s.lockSearch l false).rx l).bitPos = ((s.rx l).bitPos + 1) % 66 := by
  unfold State.lockSearch
  rw [if_neg (by decide), State.rx_setRx_same]
  exact ⟨rfl, rfl⟩

/-- Under block lock an invalid header is counted (03 R68). -/
theorem State.hdrErr_lockWindow (s : State) (l : Nat) (valid : Bool) :
    (s.lockWindow l valid).word .linkHdrErr l = s.word .linkHdrErr l + (if valid then 0 else 1) := by
  have counted : (s.when (!valid) (·.count .linkHdrErr l)).word .linkHdrErr l = s.word .linkHdrErr l + (if valid then 0 else 1) := by
    cases valid with
    | true => exact (BitVec.add_zero _).symm
    | false => exact State.word_count ..
  unfold State.lockWindow
  extract_lets r bad x
  rw [← counted]
  split <;> exact State.setRx_word ..

theorem completes_rxBlock {l : LinkId} {s : State} (hdr : BitVec 2) (line : BitVec 64) (hq : s.samples (quadOf l) = true)
    (hn : s.nearLoop l = false) : Completes (.rxBlock l hdr line) s fun t =>
      (s.laneBit F.laneStateBlockLock l = false → validHdr hdr = true →
        (t.rx l).validRun = bump 64 (s.rx l).validRun ∧ (t.rx l).bitPos = (s.rx l).bitPos) ∧
      (s.laneBit F.laneStateBlockLock l = false → validHdr hdr = false →
        (t.rx l).validRun = 0 ∧ (t.rx l).bitPos = ((s.rx l).bitPos + 1) % 66) ∧
      (s.laneBit F.laneStateBlockLock l = true →
        t.word .linkHdrErr l = s.word .linkHdrErr l + (if validHdr hdr then 0 else 1)) := by
  refine ⟨_, exec_rxBlock_of_samples hq hn, ?_⟩
  have taken := s.bitsTaken_within l hdr line
  obtain ⟨hrun, hpos⟩ := s.lockRuns_bitsTaken l hdr line
  have lock : (s.bitsTaken l hdr line).laneBit F.laneStateBlockLock l = s.laneBit F.laneStateBlockLock l := taken.rdBit (by decide) _ _
  rw [lock]
  refine ⟨fun hlock hv => ?_, fun hlock hv => ?_, fun hlock => ?_⟩
  · rw [if_neg (by rw [hlock]; decide), hv, ← hrun, ← hpos]
    exact State.lockSearch_valid ..
  · rw [if_neg (by rw [hlock]; decide), hv, ← hpos]
    exact State.lockSearch_invalid ..
  · rw [if_pos hlock, (State.alignBlock_within ..).word _ (by decide), State.hdrErr_lockWindow, taken.word _ (by decide)]

/-! ### ALIGN left for UP (02 Table 02-7) -/

theorem State.alignCheck_of_notAlign {s : State} {q : Nat} (h : s.qstate q ≠ qAlign) : s.alignCheck q = s := by
  unfold State.alignCheck
  simp [h]

/-- With every lane locked and in-frame the quad reaches UP (02 R45). -/
theorem State.qstate_alignCheck {s : State} {q : Nat} (h : s.qstate q = qAlign) (hlock : s.rd F.laneStateBlockLock q = 2 ^ lanesOf q - 1)
    (hframe : s.rd F.laneStateInFrame q = 2 ^ lanesOf q - 1) : (s.alignCheck q).qstate q = qUp := by
  unfold State.alignCheck
  dsimp only
  rw [if_pos (by simp [h, hlock, hframe])]
  exact State.qstate_enterQuad _ _ _ _ (by decide)

/-! ### Block lock (03 R68) -/

/-- Block lock shown: the lane's bit, and on a used link the defect left (03 R68, R72). -/
def State.showLock (s : State) (l : Nat) : State :=
  (s.setLaneBit F.laneStateBlockLock l true).when (s.used l) (·.setFlag F.linkStateLol l false)

/-- Of LANE_STATE a lock shown writes the lane's bit alone. -/
theorem State.rd_showLock (s : State) (l j : Nat) {g : Field} (hr : g.reg = .laneState) (hg : g.lo + g.width ≤ 64) :
    (s.showLock l).rd g j = (s.setLaneBit F.laneStateBlockLock l true).rd g j := by
  unfold State.showLock State.when
  split
  · exact State.rd_setFlag_apart _ _ _ _ (by simp [Field.apart, hr]) hg
  · rfl

section
variable {l : LinkId} {s : State}

/-- After 64 valid headers in a row the lock is shown, and the quad's alignment judged (03 R68; 02 R45). -/
theorem exec_blockLockAcquire (hq : s.samples (quadOf l) = true) (hlock : s.laneBit F.laneStateBlockLock l = false)
    (hrun : 64 ≤ (s.rx l).validRun) : ∃ x, Within (.of [.links] []) s x ∧
      exec (.blockLockAcquire l) s = .next ((x.showLock l).alignCheck (quadOf l)) :=
  ⟨_, State.setRx_within .., congrArg Host.Outcome.next (State.when_pos (by simp [hq, hlock, hrun]))⟩

theorem completes_blockLockAcquire (hq : s.samples (quadOf l) = true) (hlock : s.laneBit F.laneStateBlockLock l = false)
    (hrun : 64 ≤ (s.rx l).validRun) (halign : s.qstate (quadOf l) ≠ 4) : Completes (.blockLockAcquire l) s fun t =>
      t.laneBit F.laneStateBlockLock l = true ∧ (s.used l = true → t.flag F.linkStateLol l = false) := by
  obtain ⟨x, hx, e⟩ := exec_blockLockAcquire hq hlock hrun
  have state : (x.showLock l).qstate (quadOf l) = s.qstate (quadOf l) :=
    (State.rd_showLock x l _ rfl (by decide)).trans ((State.rd_setLaneBit x _ _ _ (by decide) (by decide)).trans (hx.rd (by decide) _))
  refine ⟨_, e, ?_⟩
  rw [State.alignCheck_of_notAlign (state ▸ halign)]
  refine ⟨?_, fun hu => ?_⟩
  · unfold State.laneBit State.rdBit
    rw [State.rd_showLock _ _ _ rfl (by decide)]
    exact State.laneBit_setLaneBit x F.laneStateBlockLock l true (by decide) rfl
  · have used : x.used l = true := (congrArg (fun n => decide (n ≠ 0)) (hx.gen (by decide) l)).trans hu
    unfold State.showLock
    rw [State.when_pos used]
    exact State.flag_setFlag _ F.linkStateLol l false rfl (by decide)

theorem completes_blockLockAcquire_last (halign : s.qstate (quadOf l) = 4) (hlock : s.laneBit F.laneStateBlockLock l = false)
    (hrun : 64 ≤ (s.rx l).validRun)
    (hfull : (s.setLaneBit F.laneStateBlockLock l true).rd F.laneStateBlockLock (quadOf l) = 2 ^ lanesOf (quadOf l) - 1)
    (hframe : s.rd F.laneStateInFrame (quadOf l) = 2 ^ lanesOf (quadOf l) - 1) :
    Completes (.blockLockAcquire l) s fun t => t.qstate (quadOf l) = 5 := by
  obtain ⟨x, hx, e⟩ := exec_blockLockAcquire (by rw [State.samples, halign]; rfl) hlock hrun
  refine ⟨_, e, State.qstate_alignCheck ?_ ?_ ?_⟩
  · rw [State.qstate, State.rd_showLock _ _ _ rfl (by decide), State.rd_setLaneBit _ _ _ _ (by decide) (by decide), hx.rd (by decide)]
    exact halign
  · rw [State.rd_showLock _ _ _ rfl (by decide), ← hfull]
    unfold State.setLaneBit State.wrBit
    rw [State.rd_wr _ _ _ _ (by decide), State.rd_wr _ _ _ _ (by decide), hx.rd (by decide)]
  · rw [State.rd_showLock _ _ _ rfl (by decide), State.rd_setLaneBit _ _ _ _ (by decide) (by decide), hx.rd (by decide)]
    exact hframe

end

/-- Block lock left ends in the lane's bit and the link's defect (03 R68, R72). -/
theorem State.dropLock_eq (s : State) (l t16 : Nat) : ∃ x : State,
    s.dropLock l t16 = (x.setLaneBit F.laneStateBlockLock l false).setFlag F.linkStateLol l true := ⟨_, rfl⟩

theorem State.dropLock_facts (s : State) (l : LinkId) (t16 : Nat) : (s.dropLock l t16).laneBit F.laneStateBlockLock l = false ∧
    (s.dropLock l t16).flag F.linkStateLol l = true := by
  obtain ⟨x, e⟩ := s.dropLock_eq l t16
  rw [e]
  refine ⟨?_, State.flag_setFlag _ F.linkStateLol l true rfl (by decide)⟩
  unfold State.laneBit State.rdBit
  rw [State.rd_setFlag_apart _ _ _ _ (by decide) (by decide)]
  exact State.laneBit_setLaneBit x F.laneStateBlockLock l false (by decide) rfl

/-- Block lock lost: left, and counted, the search going on one bit further (03 R68). -/
theorem State.loseLock_eq (s : State) (l t16 : Nat) : ∃ r : RxH, s.loseLock l t16 = ((s.dropLock l t16).setRx l r).count .linkLolEntry l :=
  ⟨_, rfl⟩

theorem State.loseLock_facts (s : State) (l : LinkId) (t16 : Nat) : (s.loseLock l t16).laneBit F.laneStateBlockLock l = false ∧
    (s.loseLock l t16).flag F.linkStateLol l = true ∧ (s.loseLock l t16).word .linkLolEntry l = s.word .linkLolEntry l + 1 := by
  obtain ⟨hlane, hlol⟩ := s.dropLock_facts l t16
  obtain ⟨r, e⟩ := s.loseLock_eq l t16
  rw [e]
  refine ⟨?_, ?_, ?_⟩
  · rw [State.laneBit_congr (State.word_count_other _ (.inl (by decide)))]
    exact hlane
  · rw [State.flag_congr (State.word_count_other _ (.inl (by decide)))]
    exact hlol
  · rw [State.word_count, State.setRx_word, (State.dropLock_within ..).word _ (by decide)]

section
variable {l : LinkId} {s : State}

theorem completes_blockLockLoss (t16 : Nat) (hlock : s.laneBit F.laneStateBlockLock l = true) (hbad : 16 ≤ (s.rx l).winBad)
    (hup : s.qstate (quadOf l) ≠ 5) : Completes (.blockLockLoss ⟨l, t16⟩) s fun t =>
      t.laneBit F.laneStateBlockLock l = false ∧ t.flag F.linkStateLol l = true ∧ t.word .linkLolEntry l = s.word .linkLolEntry l + 1 := by
  refine ⟨_, congrArg Host.Outcome.next ((State.when_pos ?_).trans (State.when_neg ?_)), s.loseLock_facts l t16⟩
  · simp [hlock, hbad]
  · simp [hup]

theorem completes_blockLockLoss_up (t16 : Nat) (hlock : s.laneBit F.laneStateBlockLock l = true) (hbad : 16 ≤ (s.rx l).winBad)
    (hup : s.qstate (quadOf l) = 5) : Completes (.blockLockLoss ⟨l, t16⟩) s fun t =>
      t.qstate (quadOf l) = 2 ∧ t.rd F.laneStateDownCause (quadOf l) = 5 ∧ t.word .linkLolEntry l = s.word .linkLolEntry l + 1 := by
  obtain ⟨-, -, counted⟩ := s.loseLock_facts l t16
  obtain ⟨hstate, hcause, -⟩ :=
    (BeforeFailure.blockLock (quadIdOf l) l t16 s).quadFail (q := quadIdOf l) (t16 := t16) (.inl hup) (.blockLock 0)
  refine ⟨_, congrArg Host.Outcome.next ((State.when_pos ?_).trans (State.when_pos ?_)), hstate, hcause, ?_⟩
  · simp [hlock, hbad]
  · simp [hup]
  · exact ((State.quadFail_within ..).word _ (by decide) _).trans counted

end

/-! ### Frame alignment (03 R69) -/

/-- SYNC shown: FA_STATE, OOF left, the lane in-frame (03 R69, R72; 02 R45). -/
def State.showSync (s : State) (l : Nat) : State :=
  ((s.wr F.linkStateFaState l faSync).setFlag F.linkStateOof l false).setLaneBit F.laneStateInFrame l true

/-- SYNC is entered on new records of the link, and the lane's decision interval and its quad's alignment are judged after it (02 R37, R45). -/
theorem State.enterSync_eq (s : State) (l k : Nat) (c : FaCand) : ∃ x y : State, Within (.of [.links] []) s x ∧
    Within (.of [.lanes] []) (x.showSync l) y ∧ s.enterSync l k c = y.alignCheck (quadOf l) := by
  unfold State.enterSync
  exact ⟨_, _, State.setRx_within .., State.disqualify_within .., rfl⟩

theorem State.showSync_facts (s : State) (l : LinkId) : (s.showSync l).inSync l = true ∧ (s.showSync l).flag F.linkStateOof l = false ∧
    (s.showSync l).laneBit F.laneStateInFrame l = true ∧ (s.showSync l).qstate (quadOf l) = s.qstate (quadOf l) := by
  refine ⟨?_, ?_, State.laneBit_setLaneBit _ F.laneStateInFrame l true (by decide) rfl, ?_⟩
  · unfold State.inSync State.showSync
    rw [State.rd_setLaneBit _ _ _ _ (by decide) (by decide), State.rd_setFlag_apart _ _ _ _ (by decide) (by decide), State.rd_wr _ _ _ _ (by decide)]
    rfl
  · unfold State.showSync State.flag
    rw [State.rd_setLaneBit _ _ _ _ (by decide) (by decide)]
    exact State.flag_setFlag _ F.linkStateOof l false rfl (by decide)
  · unfold State.qstate State.showSync
    rw [State.rd_setLaneBit _ _ _ _ (by decide) (by decide), State.rd_setFlag_apart _ _ _ _ (by decide) (by decide),
      State.rd_wr_apart _ _ _ _ (by decide) (by decide)]

theorem State.showSyncLoss_facts (s : State) (l : LinkId) : (s.showSyncLoss l).rd F.linkStateFaState l = faHunt ∧
    (s.showSyncLoss l).flag F.linkStateOof l = true ∧ (s.showSyncLoss l).word .linkOofEntry l = s.word .linkOofEntry l + 1 ∧
      (s.showSyncLoss l).laneBit F.laneStateInFrame l = false := by
  refine ⟨?_, ?_, ?_, State.laneBit_setLaneBit _ F.laneStateInFrame l false (by decide) rfl⟩
  · unfold State.showSyncLoss
    rw [State.rd_setLaneBit _ _ _ _ (by decide) (by decide), State.rd_setFlag_apart _ _ _ _ (by decide) (by decide), State.rd_wr _ _ _ _ (by decide)]
    rfl
  · unfold State.showSyncLoss State.flag
    rw [State.rd_setLaneBit _ _ _ _ (by decide) (by decide)]
    exact State.flag_setFlag _ F.linkStateOof l true rfl (by decide)
  · unfold State.showSyncLoss State.setLaneBit State.wrBit State.setFlag
    rw [State.word_wr_other _ _ (.inl (by decide)), State.word_wr_other _ _ (.inl (by decide)), State.word_wr_other _ _ (.inl (by decide)),
      State.word_count]

section
variable {l : LinkId} {s : State}

theorem exec_faSyncEntry_of_chain {c : FaCand} (hlock : s.laneBit F.laneStateBlockLock l = true) (hsync : s.inSync l = false)
    (hu : s.used l = true) (hchain : chainOfThree (s.rx l).cands = some c) :
    exec (.faSyncEntry l) s = .next (s.enterSync l (secondK (s.rx l).cands (genO (s.gen l) + genP (s.gen l))) c) := by
  show execFaSyncEntry l s = _
  unfold execFaSyncEntry
  rw [State.when_pos (by simp [hlock, hsync, hu])]
  dsimp only
  rw [hchain]

theorem completes_faSyncEntry {c : FaCand} (hlock : s.laneBit F.laneStateBlockLock l = true) (hsync : s.inSync l = false)
    (hu : s.used l = true) (hchain : chainOfThree (s.rx l).cands = some c) (halign : s.qstate (quadOf l) ≠ 4) :
    Completes (.faSyncEntry l) s fun t => t.inSync l = true ∧ t.flag F.linkStateOof l = false ∧ t.laneBit F.laneStateInFrame l = true := by
  obtain ⟨x, y, hx, hy, e⟩ := s.enterSync_eq l (secondK (s.rx l).cands (genO (s.gen l) + genP (s.gen l))) c
  obtain ⟨hin, hoof, hframe, hstate⟩ := x.showSync_facts l
  have state : y.qstate (quadOf l) = s.qstate (quadOf l) := (hy.rd (by decide) _).trans (hstate.trans (hx.rd (by decide) _))
  refine ⟨_, exec_faSyncEntry_of_chain hlock hsync hu hchain, ?_⟩
  rw [e, State.alignCheck_of_notAlign (state ▸ halign)]
  refine ⟨?_, (hy.flag (by decide) _).trans hoof, (hy.rdBit (by decide) _ _).trans hframe⟩
  exact (congrArg (fun n => decide (n = faSync)) (hy.rd (f := F.linkStateFaState) (by decide) l)).trans hin

theorem completes_faSyncLoss (t16 : Nat) (hsync : s.inSync l = true) (hmiss : 4 ≤ (s.rx l).missedFm) :
    Completes (.faSyncLoss ⟨l, t16⟩) s fun t => t.rd F.linkStateFaState l = 0 ∧ t.flag F.linkStateOof l = true ∧
      t.word .linkOofEntry l = s.word .linkOofEntry l + 1 ∧ t.laneBit F.laneStateInFrame l = false := by
  refine ⟨_, congrArg Host.Outcome.next (State.when_pos (by simp [hsync, hmiss])), ?_⟩
  obtain ⟨y, hy, e⟩ := State.loseSync_of_sync hsync t16
  dsimp only
  rw [e]
  obtain ⟨hfa, hoof, hcount, hframe⟩ := ((s.formVerdict l [] t16).disqualify l).showSyncLoss_facts l
  have kept : ∀ g : Field, g.reg = .linkState ∨ g.reg = .laneState → F.linkStateRdi.apart g = true → g.lo + g.width ≤ 64 → ∀ j,
      ((y.rdiExit l).linkRefLost l).rd g j = (((s.formVerdict l [] t16).disqualify l).showSyncLoss l).rd g j :=
    fun g hr hrdi hg j => (State.rd_rdiExit_linkRefLost y l j hr hrdi hg).trans (hy.rd (Nat.zero_testBit _) j)
  refine ⟨?_, ?_, ?_, ?_⟩
  · exact (kept _ (.inl rfl) (by decide) (by decide) _).trans hfa
  · unfold State.flag at hoof ⊢
    rw [kept _ (.inl rfl) (by decide) (by decide)]
    exact hoof
  · rw [(State.linkRefLost_within ..).word _ (by decide), (State.rdiExit_within ..).word _ (by decide), hy.word _ (by decide), hcount,
      (State.disqualify_within ..).word _ (by decide), (State.formVerdict_within ..).word _ (by decide)]
  · unfold State.laneBit State.rdBit at hframe ⊢
    rw [kept _ (.inr rfl) (by decide) (by decide)]
    exact hframe

end

/-- Settles O29: a block with and without the lock, then the lock's gain and loss by the state of the quad, then SYNC's. -/
theorem blockLockAndAlignmentAreSought : Obligations.BlockLockAndAlignmentAreSought := fun _ t16 _ =>
  ⟨completes_rxBlock, completes_blockLockAcquire, completes_blockLockAcquire_last, completes_blockLockLoss t16, completes_blockLockLoss_up t16,
    fun _ => completes_faSyncEntry, completes_faSyncLoss t16⟩

end Sys2Proof.Machine

namespace Sys2Proof.Machine

/-! ### Frames delivered (03 R70) -/

/-- What a delivered frame's overhead and payload may touch once its stamp is accepted (03 R67, R74 to R79; 04 R86, R89). -/
def Foot.contentTaken : Foot := Foot.alarm.plus
  (.of [.lanes, .links, .lag, .prot, .mate, .alm, .tim] [.laneTxfir, .laneAdaptMsgErr, .linkState, .linkRxJust, .linkIdentRxSetid,
    .linkIdentRxDieid, .linkIdentRxInfo, .linkIdentRxArmed, .linkMboxCtrl, .linkUserCtrl, .linkJcCorrected, .linkReiRx, .linkProtMsgErr,
    .linkMboxErr, .linkUserErr, .linkWiringEntry, .protRxGroup, .protRxBridge, .protRxReserved, .protRxUnmatched, .almArmDis, .mateWatchLost,
    .lagArrLast, .lagElasticOvf, .lagLate, .lagEarly, .lagRepeat])

/-- The accepted stamp shows in LINK_RX_TICK (03 R70). -/
theorem State.acceptStamp_facts (s : State) (l n : Nat) : (s.acceptStamp l n).rd F.linkRxTickStamp l = n % 2 ^ 32 ∧
    (s.acceptStamp l n).flag F.linkRxTickValid l = true := by
  unfold State.acceptStamp
  dsimp only
  rw [State.rd_congr (State.setRx_word ..), State.flag_congr (State.setRx_word ..)]
  refine ⟨?_, State.flag_setFlag _ F.linkRxTickValid l true rfl (by decide)⟩
  rw [State.rd_setFlag_apart _ _ _ _ (by decide) (by decide)]
  exact State.rd_wr s F.linkRxTickStamp l n (by decide)

/-- The frame held after a delivery: under the stamp accepted before its content was taken, and of the payload of the link's generation (03 R70,
R71). -/
theorem State.deliver_eq (s : State) (l : Nat) (f : RxFrame) : ∃ (x y : State) (n : Nat) (fr : RxFrameH),
    Within .contentTaken (x.acceptStamp l n) y ∧ fr.stamp = BitVec.ofNat 32 n ∧ fr.whole = decide (genP (y.gen l) ≤ f.arrived) ∧
      fr.pcrc = crcOfWords (Tbl.get 0 f.payload) 0 (genP (y.gen l)) ∧
      Within (.of [.mate] []) (y.setRx l { y.rx l with frame := some fr }) (s.deliver l f) := by
  unfold State.deliver
  extract_lets judged counted good checked
  split
  next n subst stamped _ =>
  extract_lets heard offset
  split
  next taken stored e =>
  extract_lets p whole was held
  have content : Within .contentTaken (stamped.acceptStamp l n) heard := (State.overheadTake_within ..).mono (by decide)
  have payload : Within .contentTaken heard stored := ((State.payloadTake_within ..).of_eq e).mono (by decide)
  refine ⟨stamped, stored, n, ⟨BitVec.ofNat 32 n, subst, whole && f.bad.isEmpty, whole, crcOfWords (Tbl.get 0 f.payload) 0 p, offset, taken, false⟩,
    payload.after content (by decide), rfl, rfl, rfl, ?_⟩
  exact .ite ((Within.refl _ held).set_mate (by decide)) (.ite ((Within.refl _ held).set_mate (by decide)) (.refl _ held))

section
variable {l : LinkId} {s : State}

theorem completes_rxFrameDeliver (f : RxFrame) (hsync : s.inSync l = true) (hu : s.used l = true) :
    Completes (.rxFrameDeliver l f) s fun t => ∃ fr : RxFrameH,
      (t.rx l).frame = some fr ∧ t.rd F.linkRxTickStamp l = fr.stamp.toNat ∧ t.flag F.linkRxTickValid l = true ∧
      fr.whole = decide (genP (t.gen l) ≤ (s.loopFrame l f).arrived) ∧
      fr.pcrc = crcOfWords (Tbl.get 0 (s.loopFrame l f).payload) 0 (genP (t.gen l)) := by
  obtain ⟨x, y, n, fr, hy, hstamp, hwhole, hpcrc, ht⟩ := s.deliver_eq l (s.loopFrame l f)
  obtain ⟨hshown, hvalid⟩ := x.acceptStamp_facts l n
  refine ⟨_, congrArg Host.Outcome.next (State.when_pos (by rw [hsync, hu]; rfl)), fr, ?_, ?_, ?_, ?_, ?_⟩
  · rw [ht.rx (by decide), State.rx_setRx_same]
  · rw [ht.rd (by decide), (State.setRx_within ..).rd (by decide), hy.rd (by decide), hshown, hstamp, BitVec.toNat_ofNat]
  · rw [ht.flag (by decide), (State.setRx_within ..).flag (by decide), hy.flag (by decide), hvalid]
  · rw [ht.gen (by decide), (State.setRx_within ..).gen (by decide), hwhole]
  · rw [ht.gen (by decide), (State.setRx_within ..).gen (by decide), hpcrc]

/-! ### Verdicts counted and shown (03 R71) -/

/-- Which of the four counters a verdict's is. -/
theorem verdictCounter_eq_iff {v : Nat} (h : v < 4) : (verdictCounter v = .linkFramesGood ↔ v = 0) ∧
    (verdictCounter v = .linkFramesDoubtful ↔ v = 1) ∧ (verdictCounter v = .linkFramesBad ↔ v = 2) ∧
      (verdictCounter v = .linkFramesAbsent ↔ v = 3) := by
  obtain rfl | rfl | rfl | rfl : v = 0 ∨ v = 1 ∨ v = 2 ∨ v = 3 := by omega
  all_goals decide

theorem completes_verdictForm {fr : RxFrameH} (h : (s.rx l).frame = some fr) (next : List Block) (t16 : Nat) :
    Completes (.verdictForm l next t16) s fun t => (t.rx l).frame = none ∧
      t.rd F.linkStateLastVerdict l = s.verdictOn l fr (nextCheck next) ∧
      ∀ r ∈ [Reg.linkFramesGood, .linkFramesDoubtful, .linkFramesBad, .linkFramesAbsent],
        t.word r l = s.word r l + (if verdictCounter (s.verdictOn l fr (nextCheck next)) = r then 1 else 0) := by
  obtain ⟨x, y, hx, hnone, hy, hrx, ht⟩ := State.formVerdict_of_some h next t16
  refine ⟨_, rfl, ?_, ?_, fun r hr => ?_⟩
  · rw [ht.rx (by decide), hrx, State.frame_countVerdict, hnone]
  · rw [ht.rd (by decide), hy.rd (by decide), State.lastVerdict_countVerdict _ _ _ (s.verdictOn_lt ..)]
  · have apart : Foot.judged.hasReg r = false ∧ (Foot.of [.links] [.linkPayCrcErr]).hasReg r = false ∧ r ≠ .linkState := by
      revert r
      decide
    obtain ⟨judged, crc, state⟩ := apart
    rw [ht.word _ judged, hy.word _ (Nat.zero_testBit _), State.word_countVerdict _ _ _ state, hx.word _ crc]

theorem completes_verdictForm_counted {next : List Block} {t16 : Nat} {fr : RxFrameH} {v : Nat} (h : (s.rx l).frame = some fr)
    (hv : v = s.verdictOn l fr (nextCheck next)) : Completes (.verdictForm l next t16) s fun t => (t.rx l).frame = none ∧
      t.rd F.linkStateLastVerdict l = v ∧
      t.word .linkFramesGood l = s.word .linkFramesGood l + (if v = 0 then 1 else 0) ∧
      t.word .linkFramesDoubtful l = s.word .linkFramesDoubtful l + (if v = 1 then 1 else 0) ∧
      t.word .linkFramesBad l = s.word .linkFramesBad l + (if v = 2 then 1 else 0) ∧
      t.word .linkFramesAbsent l = s.word .linkFramesAbsent l + (if v = 3 then 1 else 0) := by
  obtain ⟨t, e, hnone, hlast, hcount⟩ := completes_verdictForm h next t16
  obtain ⟨good, doubtful, bad, absent⟩ := verdictCounter_eq_iff (s.verdictOn_lt l fr (nextCheck next))
  simp only [← hv] at hlast hcount good doubtful bad absent
  simp only [← good, ← doubtful, ← bad, ← absent]
  exact ⟨t, e, hnone, hlast, hcount _ (by simp), hcount _ (by simp), hcount _ (by simp), hcount _ (by simp)⟩

theorem completes_verdictForm_idle (next : List Block) (t16 : Nat) (h : (s.rx l).frame = none) :
    Completes (.verdictForm l next t16) s fun t => t = s := ⟨_, rfl, State.formVerdict_of_none h next t16⟩

/-- The clear is carried out on a state that the access has changed by its counts alone (12 R330). -/
theorem completes_neighbourChangedClear (m : Master) (hr : s.reaches m 18 true = true) : Completes (.neighbourChangedClear m l) s fun t =>
    t.flag F.linkStateNeighbourChanged l = false ∧ t.active A.neighbourChanged l = false := by
  obtain ⟨x, -, e⟩ := s.byReg_ok m .linkState l 8 true
    (fun s => (s.setFlag F.linkStateNeighbourChanged l false).clear A.neighbourChanged l) hr
  exact completes_defectExit (x := x) rfl rfl (by decide) (congrArg Host.Outcome.next e)

end

/-- Settles O30: a delivery through the frame that it leaves held, a verdict through the counter that is its own, and the clear. -/
theorem linkFramesAreReceivedAndJudged : Obligations.LinkFramesAreReceivedAndJudged := by
  refine fun l s => ⟨completes_rxFrameDeliver, ?_, completes_verdictForm_idle, completes_neighbourChangedClear⟩
  intro next t16 fr check v hframe hcheck hv
  refine completes_verdictForm_counted hframe (hv.trans ?_)
  have hnext : check = nextCheck next := hcheck.trans rfl
  rw [hnext]
  rfl

end Sys2Proof.Machine

namespace Sys2Proof.Machine

/-! ### Frames sent (03 R55 to R66) -/

/-- A frame built on `s` with stuff count `k`: its stamp, its FM and its payload blocks (03 R55, R58). -/
def SentFrame (s : State) (l k : Nat) (f : TxFrame) : Prop :=
  f.stamp = BitVec.ofNat 32 s.now ∧ f.overhead.head? = some (fmWord s.now) ∧ f.payloadBlocks = genP (s.gen l) ∧ f.stuff = k

/-- LINK_TX_JUST and RDI_TX as the sending of a frame leaves them (03 R62, R65, R73). -/
def State.showSent (s : State) (l k jc : Nat) (phi : Int) (rdi : Bool) : State :=
  (((s.wrS F.linkTxJustPhi l phi).wr F.linkTxJustK l k).wr F.linkTxJustJc l jc).setFlag F.linkStateRdiTx l rdi

theorem State.showSent_within (s : State) (l k jc : Nat) (phi : Int) (rdi : Bool) :
    Within (.of [] [.linkTxJust, .linkState]) s (s.showSent l k jc phi rdi) :=
  .setFlag _ _ _ (.wr _ _ _ (.wr _ _ _ (.wrS _ _ _ (.refl ..) (by decide)) (by decide)) (by decide)) (by decide)

theorem State.rd_showSent (s : State) (l k jc : Nat) (phi : Int) (rdi : Bool) :
    (s.showSent l k jc phi rdi).rd F.linkTxJustK l = k % 2 ^ F.linkTxJustK.width := by
  unfold State.showSent
  rw [State.rd_setFlag_apart _ _ _ _ (by decide) (by decide), State.rd_wr_apart _ _ _ _ (by decide) (by decide),
    State.rd_wr _ _ _ _ (by decide)]

/-- A frame built is held as the one sent, shown, and metered (03 R55 to R65; 14 R359). -/
theorem State.txFrame_eq (s : State) (l : Nat) (b : Int) : ∃ (x : State) (f : TxFrame) (jc : Nat) (phi : Int) (rdi : Bool),
    SentFrame s l (s.tx l).kNext f ∧ (x.tx l).sent = some f ∧ Within (.of [.pm] []) (x.showSent l f.stuff jc phi rdi) (s.txFrame l b) := by
  unfold State.txFrame
  extract_lets n gen decided t clamped k t' jc phase rdi fm ident just check planned
  split
  next mail copied _ =>
  extract_lets timed
  split
  next user forwarded _ =>
  extract_lets adapt overhead
  split
  next payload withheld fetched _ =>
  extract_lets crc f was held shown flagged
  have chosen : k = (s.tx l).kNext := congrArg TxH.kNext ((State.adaptDecide_within ..).tx (by decide) l)
  refine ⟨held, f, jc, t.phi, rdi, ⟨rfl, rfl, rfl, chosen⟩, congrArg TxH.sent (State.tx_setTx_same ..), ?_⟩
  exact (Within.refl _ flagged).when _ _ fun y h => .after (State.meter_within ..) h (by decide)

theorem State.txFrame_facts (s : State) (l : Nat) (b : Int) : ∃ f : TxFrame, ((s.txFrame l b).tx l).sent = some f ∧
    SentFrame s l (s.tx l).kNext f ∧ (s.txFrame l b).rd F.linkTxJustK l = f.stuff % 2 ^ F.linkTxJustK.width := by
  obtain ⟨x, f, jc, phi, rdi, hf, hsent, ht⟩ := s.txFrame_eq l b
  refine ⟨f, ?_, hf, ?_⟩
  · rw [ht.tx (by decide), (State.showSent_within ..).tx (by decide), hsent]
  · rw [ht.rd (by decide), State.rd_showSent]

/-- What the start of a stream may change before its frame is built: free values and the link's records (03 R53, R57). -/
def Foot.streamStart : Foot := .of [.free, .links] []

theorem State.txFirst_within_streamStart (s : State) (l : Nat) (b : Int) (gap : Nat) : Within .streamStart s (s.txFirst l b gap) :=
  (State.txFirst_within ..).mono (by decide)

/-- A transmitter that is due sends, after what starts its stream: nothing, where frames have gone and no STUFF since (03 R57, R65). -/
theorem exec_txFrameStart_of_due {l : LinkId} {b gap : Nat} {s : State} (hdue : (s.tx l).due = true)
    (hpll : s.flag F.laneStatePllLock (quadOf l) = true) (hnext : (s.tx l).next ≤ s.tick.n) (hsends : s.noFrames l = false) :
    ∃ x, Within .streamStart s x ∧ ((s.tx l).started = true → gap = 0 → x = s) ∧
      exec (.txFrameStart l ⟨b, gap⟩) s = .next (x.txFrame l b) := by
  refine ⟨if !(s.tx l).started then s.txFirst l b gap else s.when (gap ≠ 0) (·.txResume l b gap), ?_, fun hstarted hgap => ?_,
    congrArg Host.Outcome.next (State.when_pos (by simp [hdue, hpll, hnext, hsends]))⟩
  · exact .ite (State.txFirst_within_streamStart ..)
      ((Within.refl ..).when _ _ fun y h => .after (State.txResume_within ..) h (by decide))
  · rw [hstarted, hgap]
    rfl

theorem completes_txFrameStart {l : LinkId} {s : State} (b gap : Nat) (hdue : (s.tx l).due = true)
    (hpll : s.flag F.laneStatePllLock (quadOf l) = true) (hnext : (s.tx l).next ≤ s.tick.n) (hsends : s.noFrames l = false) :
    Completes (.txFrameStart l ⟨b, gap⟩) s fun t => ∃ f : TxFrame, (t.tx l).sent = some f ∧ f.stamp = BitVec.ofNat 32 s.now ∧
      f.overhead.head? = some (fmWord s.now) ∧ f.payloadBlocks = genP (s.gen l) ∧
      ((s.tx l).started = true → gap = 0 → f.stuff = (s.tx l).kNext) ∧
      t.rd F.linkTxJustK l = f.stuff % 2 ^ F.linkTxJustK.width := by
  obtain ⟨x, hx, unstarted, e⟩ := exec_txFrameStart_of_due (b := b) (gap := gap) hdue hpll hnext hsends
  obtain ⟨f, hsent, ⟨hstamp, hhead, hblocks, hstuff⟩, hshown⟩ := x.txFrame_facts l b
  have now : x.now = s.now := hx.rd (by decide) 0
  rw [now] at hstamp hhead
  rw [hx.gen (by decide)] at hblocks
  exact ⟨_, e, f, hsent, hstamp, hhead, hblocks, fun hstarted hgap => by rw [hstuff, unstarted hstarted hgap], hshown⟩

/-! ### Control writes (03 R80; 09 R234) -/

/-- A channel's SEQ and LEN as an accepted control write stores them, with the transmitter's record of it (03 R80). -/
def State.storeControl (s : State) (fSeq fLen : Field) (l seq len : Nat) (v : TxH) : State :=
  ((s.wr fSeq l seq).wr fLen l len).setTx l v

theorem State.storeControl_facts (s : State) {fSeq fLen : Field} (l : Nat) (seq len : BitVec 8) (v : TxH) (hapart : fLen.apart fSeq = true)
    (hseq : fSeq.width = 8 ∧ fSeq.lo + fSeq.width ≤ 64) (hlen : fLen.width = 8 ∧ fLen.lo + fLen.width ≤ 64) :
    (s.storeControl fSeq fLen l seq.toNat len.toNat v).rd fSeq l = seq.toNat ∧
      (s.storeControl fSeq fLen l seq.toNat len.toNat v).rd fLen l = len.toNat ∧
      (s.storeControl fSeq fLen l seq.toNat len.toNat v).tx l = v := by
  unfold State.storeControl
  refine ⟨?_, ?_, State.tx_setTx_same ..⟩
  · rw [(State.setTx_within ..).rd (Nat.zero_testBit _), State.rd_wr_apart _ _ _ _ hapart hseq.2, State.rd_wr _ _ _ _ hseq.2, hseq.1]
    exact Nat.mod_eq_of_lt seq.isLt
  · rw [(State.setTx_within ..).rd (Nat.zero_testBit _), State.rd_wr _ _ _ _ hlen.2, hlen.1]
    exact Nat.mod_eq_of_lt len.isLt

theorem State.valueOnly_refused (s : State) (m : Master) (a : Nat) (ok : Bool) (f : State → State) (h : ok = false) :
    s.valueOnly m a ok f = s.errResp m a true .value :=
  if_neg (Bool.not_eq_true _ ▸ h)

/-- A control write of unfit value changes neither the channel's register nor the transmitter (12 R332). -/
theorem State.valueOnly_refused_keeps {x s : State} (hx : Within .counted s x) (m : Master) (a l : Nat) {ok : Bool} (f : State → State) {r : Reg}
    (hr : (Foot.of [.irqs] [.busErrLast, .busErrResp, .busDefault, .sysIntSrc]).hasReg r = false ∧ Foot.counted.hasReg r = false)
    (h : ok = false) : (x.valueOnly m a ok f).word r l = s.word r l ∧ (x.valueOnly m a ok f).tx l = s.tx l := by
  have refused := x.errResp_within m a true .value
  rw [State.valueOnly_refused _ _ _ _ _ h, refused.word _ hr.1, refused.tx (by decide)]
  exact ⟨hx.word _ hr.2 l, hx.tx (by decide) l⟩

section
variable {l : LinkId} {s : State} {m : Master} {seq len : BitVec 8}

/-- A control write of a channel is judged on a state that the access has changed by its counts alone (12 R330). -/
theorem completes_mboxSend (hr : s.reaches m 18 true = true) : Completes (.mboxSend m l seq len) s fun t =>
    (seq ≠ 0xFF → len.toNat ≤ capacity (genMgmt (s.gen l) - 1) → t.rd F.linkMboxCtrlTxSeq l = seq.toNat ∧
      t.rd F.linkMboxCtrlTxLen l = len.toNat ∧ (t.tx l).mboxWritten = true) ∧
    (seq = 0xFF ∨ capacity (genMgmt (s.gen l) - 1) < len.toNat → t.word .linkMboxCtrl l = s.word .linkMboxCtrl l ∧ t.tx l = s.tx l) := by
  obtain ⟨x, hx, e⟩ := s.byReg_ok m .linkMboxCtrl l 8 true (fun s => s.mboxSend m l seq.toNat len.toNat) hr
  have timing : seq = 0xFF ↔ seq.toNat = 0xFF := BitVec.toNat_inj.symm
  refine ⟨_, congrArg Host.Outcome.next e, ?_⟩
  rw [← hx.gen (by decide), ne_eq, timing]
  unfold State.mboxSend
  refine ⟨fun hseq hlen => ?_, fun hbad => State.valueOnly_refused_keeps hx _ _ _ _ (by decide) (by simp; omega)⟩
  rw [State.valueOnly_ok _ _ _ _ _ (by simp [hseq, hlen])]
  obtain ⟨tseq, tlen, ttx⟩ := x.storeControl_facts (fSeq := F.linkMboxCtrlTxSeq) (fLen := F.linkMboxCtrlTxLen) l seq len
    { x.tx l with mboxWritten := true } (by decide) (by decide) (by decide)
  exact ⟨tseq, tlen, congrArg TxH.mboxWritten ttx⟩

theorem completes_userSend (hr : s.reaches m 18 true = true) : Completes (.userSend m l seq len) s fun t =>
    (len.toNat ≤ capacity (genUser (s.gen l)) → t.rd F.linkUserCtrlTxSeq l = seq.toNat ∧ t.rd F.linkUserCtrlTxLen l = len.toNat ∧
      (t.tx l).userWritten = true) ∧
    (capacity (genUser (s.gen l)) < len.toNat → t.word .linkUserCtrl l = s.word .linkUserCtrl l ∧ t.tx l = s.tx l) := by
  obtain ⟨x, hx, e⟩ := s.byReg_ok m .linkUserCtrl l 8 true (fun s => s.userSend m l seq.toNat len.toNat) hr
  refine ⟨_, congrArg Host.Outcome.next e, ?_⟩
  rw [← hx.gen (by decide)]
  unfold State.userSend
  refine ⟨fun hlen => ?_, fun hbad => State.valueOnly_refused_keeps hx _ _ _ _ (by decide) (by simp; omega)⟩
  rw [State.valueOnly_ok _ _ _ _ _ (by simp [hlen])]
  obtain ⟨tseq, tlen, ttx⟩ := x.storeControl_facts (fSeq := F.linkUserCtrlTxSeq) (fLen := F.linkUserCtrlTxLen) l seq len
    { x.tx l with userWritten := true } (by decide) (by decide) (by decide)
  exact ⟨tseq, tlen, congrArg TxH.userWritten ttx⟩

end

/-- Settles O31: a frame's start through the frame that its build leaves held, and each control write by whether its value is accepted. -/
theorem linkFramesAreSent : Obligations.LinkFramesAreSent := fun _ _ =>
  ⟨completes_txFrameStart, fun _ _ _ hr => ⟨completes_mboxSend hr, completes_userSend hr⟩⟩

end Sys2Proof.Machine

/-! Memories in their canonical form over a step (04 R91; 08 R191; 13 R340). -/

namespace Sys2Proof.Machine

/-- What a step that answers a next state has done: nothing, on an empty queue, or its command on the queue's rest. -/
theorem step_next_cases {s t : State} (h : step s = .next t) :
    (s.pending = [] ∧ t = s) ∨ ∃ c rest, s.pending = c :: rest ∧ exec c { s with pending := rest } = .next t := by
  unfold step at h
  split at h
  next idle => exact .inl ⟨idle, (Host.Outcome.next.inj h).symm⟩
  next c rest front => exact .inr ⟨c, rest, front, h⟩

/-- Settles O5: an idle step leaves the memories, and the footprint of a command keeps both canonical forms. -/
theorem memoryKeepsItsCanonicalForm : Obligations.MemoryKeepsItsCanonicalForm := by
  intro s t hbm flash h
  obtain ⟨-, rfl⟩ | ⟨c, rest, -, run⟩ := step_next_cases h
  · exact ⟨hbm, flash⟩
  · have within := exec_within run
    exact ⟨within.hbmWf hbm, within.flashWf flash⟩

end Sys2Proof.Machine

/-! The lag store: stacks lost and restored, late frames, and what its configuration and its extremes leave to be read (04 R84 to R101). -/

namespace Sys2Proof.Machine

/-! ### Reads and loops -/

/-- A bit of a field read after a bit of a field apart from it is written. -/
theorem State.rdBit_wrBit_apart (s : State) {f g : Field} (i j k m : Nat) (b : Bool) (h : f.apart g = true) (hg : g.lo + g.width ≤ 64) :
    (s.wrBit f i k b).rdBit g j m = s.rdBit g j m := by
  unfold State.rdBit State.wrBit
  rw [State.rd_wr_apart _ _ _ _ h hg]

theorem State.rdBit_wrBit_same (s : State) (f : Field) (i k : Nat) (b : Bool) (h : f.lo + f.width ≤ 64) (hk : k < f.width) :
    (s.wrBit f i k b).rdBit f i k = b := by
  rw [State.rdBit_wrBit _ _ _ _ _ _ h hk, if_pos rfl]

/-- What every round but the `j`-th leaves alone, a counted loop leaves as its `j`-th round does. -/
theorem iter_read_round {α β : Type} (p : α → β) (g : Nat → α → α) {j : Nat} (other : ∀ k y, k ≠ j → p (g k y) = p y)
    (lo n : Nat) (x : α) :
    (lo ≤ j → j < lo + n → ∃ y, p y = p x ∧ p (iter g lo n x) = p (g j y)) ∧ (j < lo ∨ lo + n ≤ j → p (iter g lo n x) = p x) := by
  induction n generalizing lo x with
  | zero => exact ⟨fun hlo hj => absurd hj (by omega), fun _ => rfl⟩
  | succ n ih =>
    obtain ⟨inside, outside⟩ := ih (lo + 1) (g lo x)
    refine ⟨fun hlo hj => ?_, fun hj => (outside (by omega)).trans (other lo x (by omega))⟩
    by_cases here : lo = j
    · exact ⟨x, rfl, here ▸ outside (.inl (by omega))⟩
    · obtain ⟨y, hy, e⟩ := inside (by omega) (by omega)
      exact ⟨y, hy.trans (other lo x here), e⟩

/-- The same of a loop over states, from round 0. -/
theorem State.eachN_read_round {β : Type} (p : State → β) {n j : Nat} (hj : j < n) (s : State) (g : Nat → State → State)
    (other : ∀ k y, k ≠ j → p (g k y) = p y) : ∃ y, p y = p s ∧ p (s.eachN n g) = p (g j y) :=
  (iter_read_round p g other 0 n s).1 (Nat.zero_le j) (by omega)

theorem bit_toNat {w : Nat} (v : BitVec w) (k : Nat) : bit v.toNat k = v.getLsbD k := by
  rw [bit_eq_testBit]
  rfl

/-- What no round of a loop changes, the loop leaves. -/
theorem State.each_keeps {α β : Type} (p : State → β) (ls : List α) (g : α → State → State) (s : State) (h : ∀ a y, p (g a y) = p y) :
    p (s.each ls g) = p s := by
  unfold State.each
  induction ls generalizing s with
  | nil => rfl
  | cons a ls ih => exact (ih _).trans (h a s)

/-- An entry that a filter takes out is read as the default. -/
theorem Tbl.get_filter_of_dropped {α : Type} {d : α} (p : Nat × α → Bool) (t : Tbl α) (k : Nat) (hp : ∀ v, p (k, v) = false) :
    Tbl.get d (t.filter p) k = d := by
  induction t with
  | nil => rfl
  | cons e t ih =>
    obtain ⟨j, v⟩ := e
    rw [List.filter_cons]
    split
    next kept =>
      have other : j ≠ k := fun same => by rw [same, hp v] at kept; exact absurd kept (by decide)
      rw [Tbl.get, if_neg other, ih]
    next => exact ih

theorem State.lagLink_congr {s t : State} (h : t.lag = s.lag) (l : Nat) : t.lagLink l = s.lagLink l := by
  unfold State.lagLink
  rw [h]

theorem Within.lagLink {f : Foot} {s t : State} (h : Within f s t) (hf : f.hasComp .lag = false) (l : Nat) : t.lagLink l = s.lagLink l :=
  State.lagLink_congr (h.lag hf) l

/-! ### Stacks lost (04 R99) -/

/-- From `s` to `t` stack `k` has been lost: STACK_LOST shown, its initialisation no longer done, counted, alarmed, its library slots LOST (04 R99; 08
R192). -/
def StackMarkedLost (k : Nat) (s t : State) : Prop :=
  t.stackLost k = true ∧ t.rdBit F.hbmStateInitDone 0 k = false ∧ t.word .lagStackLoss k = s.word .lagStackLoss k + 1 ∧
    t.active A.lagStackLost k = true ∧ ∀ i, i / 4 = k → t.slotState i = slotLost

section
variable {k : StackId} {s : State}

theorem State.loseStack_marks (h : s.stackLost k = false) : StackMarkedLost k s (s.loseStack k) := s.loseStack_facts k k.isLt h

/-- A loss at the end of a tick marks the same: whether the tick is closing is read of no mark. -/
theorem State.atEnd_loseStack_marks (h : s.stackLost k = false) : StackMarkedLost k s (s.atEnd (·.loseStack k)) :=
  State.loseStack_marks (s := { s with tick := { s.tick with closing := true } }) h

theorem completes_stackLoss (c : Instr) (h : s.stackLost k = false)
    (hc : c = .hbmTempTrip k ∨ c = .hbmTemperatureReport k true ∨ (c = .stackUeLoss k ∧ s.ueLossDue k = true)) :
    Completes c s (StackMarkedLost k s) := by
  obtain rfl | rfl | ⟨rfl, due⟩ := hc
  · exact ⟨_, rfl, State.loseStack_marks h⟩
  · exact ⟨_, rfl, State.loseStack_marks h⟩
  · exact ⟨_, congrArg Host.Outcome.next (State.when_pos due), State.atEnd_loseStack_marks h⟩

/-- The opening of the event buffer touches the log's registers and, where every stack is lost, an alarm (14 R369). -/
theorem State.evbOpenWhen_within (s : State) (b : Bool) : Within (Foot.alarm.plus (.of [] [.logEvbBase])) s (s.when b State.evbOpen) :=
  (Within.refl _ s).when _ _ fun y h => .after y.evbOpen_within h (by decide)

/-- A P4 initialisation that has not been judged yet: its end is noted, its stack brought up or lost, and the event buffer opened with the last
(13 R338). -/
theorem exec_hbmInitDone_of_due (ok : Bool) (hp3 : s.boot.p3 = true) (hp4 : bit s.boot.p4 k = false) : ∃ (v : BootH) (b : Bool),
    exec (.hbmInitDone k ok) s = .next ((if ok then ({ s with boot := v }.wrBit F.hbmStateInitDone 0 k true).wrBit F.hbmStateAt8g 0 k false
      else { s with boot := v }.loseStack k).when b State.evbOpen) :=
  ⟨_, _, congrArg Host.Outcome.next (if_neg (by rw [hp3, hp4]; decide))⟩

theorem completes_hbmInitDone_failed (hp3 : s.boot.p3 = true) (hp4 : bit s.boot.p4 k = false) (h : s.stackLost k = false) :
    Completes (.hbmInitDone k false) s fun t =>
      t.stackLost k = true ∧ t.rdBit F.hbmStateInitDone 0 k = false ∧ t.word .lagStackLoss k = s.word .lagStackLoss k + 1 := by
  obtain ⟨v, b, e⟩ := exec_hbmInitDone_of_due false hp3 hp4
  obtain ⟨lost, init, counted, -⟩ := State.loseStack_marks (k := k) (s := { s with boot := v }) h
  have opened := ({ s with boot := v }.loseStack k).evbOpenWhen_within b
  exact ⟨_, e, (opened.rdBit (by decide) _ _).trans lost, (opened.rdBit (by decide) _ _).trans init,
    (opened.word _ (by decide) _).trans counted⟩

theorem completes_hbmInitDone_ok (hp3 : s.boot.p3 = true) (hp4 : bit s.boot.p4 k = false) :
    Completes (.hbmInitDone k true) s fun t => t.rdBit F.hbmStateInitDone 0 k = true ∧ t.stackLost k = s.stackLost k := by
  obtain ⟨v, b, e⟩ := exec_hbmInitDone_of_due true hp3 hp4
  have opened := (({ s with boot := v }.wrBit F.hbmStateInitDone 0 k true).wrBit F.hbmStateAt8g 0 k false).evbOpenWhen_within b
  refine ⟨_, e, (opened.rdBit (by decide) _ _).trans ?_, (opened.rdBit (by decide) _ _).trans ?_⟩
  · rw [State.rdBit_wrBit_apart _ _ _ _ _ _ (by decide) (by decide)]
    exact State.rdBit_wrBit_same _ F.hbmStateInitDone 0 k true (by decide) k.isLt
  · rw [State.rdBit_wrBit_apart _ _ _ _ _ _ (by decide) (by decide), State.rdBit_wrBit_apart _ _ _ _ _ _ (by decide) (by decide)]
    rfl

theorem completes_hbmTempTrip_again (h : s.stackLost k = true) : Completes (.hbmTempTrip k) s fun t => t = s :=
  ⟨_, rfl, s.loseStack_again k h⟩

theorem completes_hbmTemperatureReport_mild : Completes (.hbmTemperatureReport k false) s fun t => t = s := ⟨_, rfl, rfl⟩

/-- OFF bits lose each stack in a round of its own (04 R99). -/
theorem State.stackLost_stackOff (s : State) (mask : Nat) {j : Nat} (hj : j < 4) :
    (s.stackOff mask).stackLost j = (s.stackLost j || bit mask j) := by
  have round : ∀ k y, (State.when y (bit mask k) (·.loseStack k)).stackLost j = (y.stackLost j || (decide (j = k) && bit mask k)) := by
    intro k y
    cases named : bit mask k with
    | true => rw [State.when_pos rfl, State.stackLost_loseStack _ _ _ hj, Bool.and_true]
    | false => rw [State.when_neg rfl, Bool.and_false, Bool.or_false]
  obtain ⟨y, hy, e⟩ := State.eachN_read_round (State.stackLost · j) hj s (fun k s => s.when (bit mask k) (·.loseStack k))
    fun k y hk => by rw [round, decide_eq_false hk.symm, Bool.false_and, Bool.or_false]
  rw [State.stackOff, e, round, hy, decide_eq_true rfl, Bool.true_and]

theorem completes_lagStackOff (m : Master) (mask : BitVec 4) (hr : s.reaches m 18 true = true) (he : s.expert m = true) :
    Completes (.lagStackOff m mask) s fun t => t.stackLost k = (s.stackLost k || mask.getLsbD k) := by
  obtain ⟨x, hx, e⟩ := State.expertReg_ok hr he .lagStackCmd 0 (·.stackOff mask.toNat)
  refine ⟨_, congrArg Host.Outcome.next e, (x.stackLost_stackOff _ k.isLt).trans ?_⟩
  rw [bit_toNat]
  exact congrArg (· || _) (hx.rdBit (by decide) _ _)

end

/-- Settles O24: each loss by what its stack's loss marks, then the initialisations that succeed, what changes nothing, and the OFF bits round by
round. -/
theorem stackLossesAreMarked : Obligations.StackLossesAreMarked := fun _ _ =>
  ⟨completes_hbmInitDone_failed, completes_hbmInitDone_ok, completes_stackLoss, completes_hbmTempTrip_again, completes_hbmTemperatureReport_mild,
    completes_lagStackOff⟩

/-! ### Restores (04 R101) -/

/-- One round of a RESTORE: RESTORE_FAIL of a lost stack that is named is cleared, and its function is asked for (13 R351). -/
def State.restoreRound (mask k : Nat) (s : State) : State :=
  if bit mask k && s.stackLost k then
    let f := 33 + k
    let s := s.wrBit F.lagStateRestoreFail 0 k false
    let st := s.fstate f
    if st = fStopping || (st = fStarting && s.flag F.sysFuncStateStopReq f) then s.funcEnable f
    else if st = fOff then (s.setFlag F.sysFuncStateEnable f true).funcWant f
    else if st = fOn then s.funcWant f
    else s
  else s

theorem State.stackRestore_eq (s : State) (mask : Nat) : s.stackRestore mask = s.eachN 4 (State.restoreRound mask) := rfl

/-- Of LAG_STATE a round writes RESTORE_FAIL of its stack alone. -/
theorem State.restoreRound_of_lost {s : State} {mask k : Nat} (h : (bit mask k && s.stackLost k) = true) :
    Within (.of [.boot] [.sysFuncState, .sysFuncStarts]) (s.wrBit F.lagStateRestoreFail 0 k false) (s.restoreRound mask k) := by
  unfold State.restoreRound
  rw [if_pos h]
  have asked := Within.refl (.of [.boot] [.sysFuncState, .sysFuncStarts]) (s.wrBit F.lagStateRestoreFail 0 k false)
  refine .ite (.after (State.funcEnable_within ..) asked (by decide)) (.ite ?_ (.ite (.after (State.funcWant_within ..) asked (by decide)) asked))
  exact .after (State.funcWant_within ..) (asked.setFlag _ _ _ (by decide)) (by decide)

/-- What a RESTORE leaves to be read of stack `j`: whether it is lost, and whether its last restore has failed. -/
def State.restoreRead (j : Nat) (s : State) : Bool × Bool := (s.stackLost j, s.rdBit F.lagStateRestoreFail 0 j)

theorem State.restoreRead_restoreRound (s : State) (mask k : Nat) {j : Nat} (hj : j < 4) : State.restoreRead j (s.restoreRound mask k) =
    (s.stackLost j, s.rdBit F.lagStateRestoreFail 0 j && !(decide (j = k) && (bit mask k && s.stackLost k))) := by
  cases lost : bit mask k && s.stackLost k with
  | true =>
    have asked := State.restoreRound_of_lost lost
    refine Prod.ext ?_ ?_
    · exact (asked.rdBit (by decide) 0 j).trans (State.rdBit_wrBit_apart s _ _ _ _ _ (by decide) (by decide))
    · refine (asked.rdBit (by decide) 0 j).trans ((State.rdBit_wrBit s _ 0 k j false (by decide) hj).trans ?_)
      by_cases same : j = k <;> simp [same]
  | false =>
    have idle : s.restoreRound mask k = s := if_neg (by rw [lost]; decide)
    rw [idle, Bool.and_false, Bool.not_false, Bool.and_true]
    rfl

theorem State.restoreRead_stackRestore (s : State) (mask : Nat) {j : Nat} (hj : j < 4) : State.restoreRead j (s.stackRestore mask) =
    (s.stackLost j, s.rdBit F.lagStateRestoreFail 0 j && !(bit mask j && s.stackLost j)) := by
  obtain ⟨y, hy, e⟩ := State.eachN_read_round (State.restoreRead j) hj s (State.restoreRound mask) fun k y hk => by
    rw [State.restoreRead_restoreRound _ _ _ hj, decide_eq_false hk.symm, Bool.false_and, Bool.not_false, Bool.and_true]
    rfl
  obtain ⟨lost, failed⟩ := Prod.mk.inj hy
  rw [State.stackRestore_eq, e, State.restoreRead_restoreRound _ _ _ hj, lost, failed, decide_eq_true rfl, Bool.true_and]

/-- A stack that is up again: neither restored nor lost, its initialisation done (04 R101; 15 R386). -/
def State.showRestored (s : State) (k : Nat) : State :=
  let s := ((s.wrBit F.lagStateRestoring 0 k false).wrBit F.lagStateStackLost 0 k false).wrBit F.hbmStateInitDone 0 k true
  s.wrBit F.hbmStateAt8g 0 k (s.flag F.hbmCfgRate 0)

theorem State.showRestored_facts (s : State) {k : Nat} (hk : k < 4) : (s.showRestored k).rdBit F.lagStateRestoring 0 k = false ∧
    (s.showRestored k).stackLost k = false ∧ (s.showRestored k).rdBit F.hbmStateInitDone 0 k = true := by
  unfold State.showRestored State.stackLost
  dsimp only
  refine ⟨?_, ?_, ?_⟩
  · rw [State.rdBit_wrBit_apart _ _ _ _ _ _ (by decide) (by decide), State.rdBit_wrBit_apart _ _ _ _ _ _ (by decide) (by decide),
      State.rdBit_wrBit_apart _ _ _ _ _ _ (by decide) (by decide)]
    exact State.rdBit_wrBit_same s F.lagStateRestoring 0 k false (by decide) hk
  · rw [State.rdBit_wrBit_apart _ _ _ _ _ _ (by decide) (by decide), State.rdBit_wrBit_apart _ _ _ _ _ _ (by decide) (by decide)]
    exact State.rdBit_wrBit_same _ F.lagStateStackLost 0 k false (by decide) hk
  · rw [State.rdBit_wrBit_apart _ _ _ _ _ _ (by decide) (by decide)]
    exact State.rdBit_wrBit_same _ F.hbmStateInitDone 0 k true (by decide) hk

/-- What the links of a restored stack, and its library slots, may touch on their way back (04 R101; 08 R192). -/
def Foot.refilled : Foot := Foot.alarmEnd.plus (.of [.links, .lag, .hbm] [.lagLinkState, .almSlotStatus])

/-- A restore that has succeeded is shown, its links and slots follow, and LAG_STACK_LOST ends. -/
theorem State.stackRestored_eq (s : State) (k : Nat) : ∃ (x : State) (w : Nat), Within .refilled (s.showRestored k) x ∧
    s.stackRestored k = (x.clear A.lagStackLost k).logEvent 0x70 0 k w 0 true := by
  unfold State.stackRestored
  extract_lets r up shown lag noted links
  have hnoted : Within .refilled (s.showRestored k) noted := (Within.refl _ (s.showRestored k)).set_lag (by decide)
  have hlinks : Within .refilled (s.showRestored k) links := by
    refine hnoted.each _ _ fun l y hy => ?_
    have cleared : Within .refilled (s.showRestored k) ((y.unwrite l fun n => decide ((r : Int) < n)).descClear l) :=
      .after (State.descClear_within ..) (.after (State.unwrite_within ..) hy (by decide)) (by decide)
    refine .ite cleared (.after (State.clear_within ..) (Within.setFlag _ _ _ ?_ (by decide)) (by decide))
    exact .after (State.setLagLink_within ..) cleared (by decide)
  exact ⟨_, _, .after (State.almStackRestored_within ..) hlinks (by decide), rfl⟩

theorem State.restoreFailed_facts (s : State) {k : Nat} (hk : k < 4) : (s.restoreFailed k).rdBit F.lagStateRestoring 0 k = false ∧
    (s.restoreFailed k).rdBit F.lagStateRestoreFail 0 k = true ∧ (s.restoreFailed k).stackLost k = s.stackLost k := by
  have shown : ∀ f : Field, (s.restoreFailed k).rdBit f 0 k =
      ((s.wrBit F.lagStateRestoring 0 k false).wrBit F.lagStateRestoreFail 0 k true).rdBit f 0 k := fun _ => rfl
  unfold State.stackLost
  refine ⟨?_, ?_, ?_⟩
  · rw [shown, State.rdBit_wrBit_apart _ _ _ _ _ _ (by decide) (by decide)]
    exact State.rdBit_wrBit_same s F.lagStateRestoring 0 k false (by decide) hk
  · rw [shown]
    exact State.rdBit_wrBit_same _ F.lagStateRestoreFail 0 k true (by decide) hk
  · rw [shown, State.rdBit_wrBit_apart _ _ _ _ _ _ (by decide) (by decide), State.rdBit_wrBit_apart _ _ _ _ _ _ (by decide) (by decide)]

section
variable {k : StackId} {s : State}

theorem completes_lagStackRestore (m : Master) (mask : BitVec 4) (hr : s.reaches m 18 true = true) (he : s.expert m = true) :
    Completes (.lagStackRestore m mask) s fun t => t.stackLost k = s.stackLost k ∧
      t.rdBit F.lagStateRestoreFail 0 k = (s.rdBit F.lagStateRestoreFail 0 k && !(mask.getLsbD k && s.stackLost k)) := by
  obtain ⟨x, hx, e⟩ := State.expertReg_ok hr he .lagStackCmd 0 (·.stackRestore mask.toNat)
  obtain ⟨lost, failed⟩ := Prod.mk.inj (x.restoreRead_stackRestore mask.toNat k.isLt)
  have stack : x.stackLost k = s.stackLost k := hx.rdBit (by decide) _ _
  rw [bit_toNat, stack, hx.rdBit (by decide)] at failed
  exact ⟨_, congrArg Host.Outcome.next e, lost.trans stack, failed⟩

theorem completes_stackRestoreDone (h : s.rdBit F.lagStateRestoring 0 k = true) (due : s.tick.n ≤ Tbl.get 0 s.lag.restoreTick k + 480) :
    Completes (.stackRestoreDone k) s fun t => t.rdBit F.lagStateRestoring 0 k = false ∧ t.stackLost k = false ∧
      t.rdBit F.hbmStateInitDone 0 k = true ∧ t.active A.lagStackLost k = false := by
  obtain ⟨x, w, hx, e⟩ := s.stackRestored_eq k
  obtain ⟨restoring, lost, init⟩ := s.showRestored_facts k.isLt
  have told : Within .alarmEnd x ((x.clear A.lagStackLost k).logEvent 0x70 0 k w 0 true) :=
    .after (State.logEvent_within ..) ((State.clear_within ..).mono (by decide)) (by decide)
  have shown := told.after hx (by decide)
  refine ⟨_, congrArg Host.Outcome.next ((State.when_pos (by simp [h, due])).trans e), ?_, ?_, ?_, ?_⟩
  · exact (shown.rdBit (by decide) _ _).trans restoring
  · exact (shown.rdBit (by decide) _ _).trans lost
  · exact (shown.rdBit (by decide) _ _).trans init
  · rw [(State.logEvent_within ..).active (by decide), State.active_clear _ _ _ _ _ (by omega)]
    simp

theorem completes_stackRestoreFail (h : s.rdBit F.lagStateRestoring 0 k = true) : Completes (.stackRestoreFail k) s fun t =>
    t.rdBit F.lagStateRestoring 0 k = false ∧ t.rdBit F.lagStateRestoreFail 0 k = true ∧ t.stackLost k = s.stackLost k := by
  obtain ⟨restoring, failed, lost⟩ := s.restoreFailed_facts k.isLt
  exact ⟨_, congrArg Host.Outcome.next (State.when_pos h), restoring, failed, lost⟩

end

/-! ### Fallback (04 R98, R100, R101) -/

/-- Short-store frames dropped leave the links' records and the stacks' (04 R98). -/
theorem State.shortClear_lag (s : State) (l j : Nat) :
    (s.shortClear l).lagLink j = s.lagLink j ∧ (s.shortClear l).lag.fallbackDone = s.lag.fallbackDone := by
  unfold State.shortClear
  rw [(State.unwrite_within ..).lagLink (by decide), (State.unwrite_within ..).lag (by decide)]
  exact ⟨rfl, rfl⟩

/-- What fallback left frees: the allotment and what the short store holds of the link, where it had one (04 R98). -/
def State.fbFree (s : State) (l : Nat) (held : Bool) : State := if held then (s.poolFree l).shortClear l else s

theorem State.fbFree_lag (s : State) (l j : Nat) (held : Bool) :
    (s.fbFree l held).lagLink j = s.lagLink j ∧ (s.fbFree l held).lag.fallbackDone = s.lag.fallbackDone := by
  unfold State.fbFree
  split
  · obtain ⟨record, entered⟩ := (s.poolFree l).shortClear_lag l j
    have freed := s.poolFree_within l
    exact ⟨record.trans (freed.lagLink (by decide) j), entered.trans (congrArg LagH.fallbackDone (freed.lag (by decide)))⟩
  · exact ⟨rfl, rfl⟩

/-- Fallback left: the link's record, what it frees, then the bits shown and their alarms. -/
theorem State.fbEnd_eq (s : State) (l : Nat) : s.fbEnd l =
    (((((s.setLagLink l { s.lagLink l with fb := none }).fbFree l (s.lagLink l).fb.isSome).setFlag F.lagLinkStateFallback l false).setFlag
      F.lagLinkStateNopage l false).clear A.lagFallback l).clear A.lagFallbackNopage l := rfl

/-- Fallback left: no allotment held, FALLBACK and NOPAGE 0, their alarms ended. -/
theorem State.fbEnd_facts (s : State) (l : IngressId) : ((s.fbEnd l).lagLink l).fb = none ∧
    (s.fbEnd l).flag F.lagLinkStateFallback l = false ∧ (s.fbEnd l).flag F.lagLinkStateNopage l = false ∧
      (s.fbEnd l).active A.lagFallback l = false ∧ (s.fbEnd l).active A.lagFallbackNopage l = false := by
  rw [State.fbEnd_eq]
  obtain ⟨kept, -⟩ := (s.setLagLink l { s.lagLink l with fb := none }).fbFree_lag l l (s.lagLink l).fb.isSome
  refine ⟨?_, ?_, ?_, ?_, ?_⟩
  · rw [State.lagLink_congr (State.clear_lag ..), State.lagLink_congr (State.clear_lag ..), State.lagLink_congr (State.setFlag_lag ..),
      State.lagLink_congr (State.setFlag_lag ..), kept, State.lagLink_setLagLink_same]
  · rw [State.flag_clear _ _ _ _ _ (by decide), State.flag_clear _ _ _ _ _ (by decide), State.flag_setFlag_apart _ _ _ _ (by decide) (by decide)]
    exact State.flag_setFlag _ F.lagLinkStateFallback l false rfl (by decide)
  · rw [State.flag_clear _ _ _ _ _ (by decide), State.flag_clear _ _ _ _ _ (by decide)]
    exact State.flag_setFlag _ F.lagLinkStateNopage l false rfl (by decide)
  · rw [State.active_clear _ _ _ _ _ (by omega), State.active_clear _ _ _ _ _ (by omega)]
    simp
  · rw [State.active_clear _ _ _ _ _ (by omega)]
    simp

/-- Whether a stack's fallback has been entered is no matter of its links' fallback. -/
theorem State.fbEnd_fallbackDone (s : State) (l : Nat) : (s.fbEnd l).lag.fallbackDone = s.lag.fallbackDone := by
  obtain ⟨-, kept⟩ := (s.setLagLink l { s.lagLink l with fb := none }).fbFree_lag l l (s.lagLink l).fb.isSome
  rw [State.fbEnd_eq, State.clear_lag, State.clear_lag]
  exact kept

theorem State.fbEnter_fallbackDone (s : State) (l first : Nat) : (s.fbEnter l first).lag.fallbackDone = s.lag.fallbackDone := by
  unfold State.fbEnter
  extract_lets f n h allotted unpaged
  split
  · rfl
  · split
    · rw [State.raise_lag, State.setFlag_lag]
      dsimp only [allotted]
      rw [(State.poolTake_within ..).lag (by decide)]
      rfl
    · rw [State.raise_lag, State.setFlag_lag]
      dsimp only [unpaged]
      rw [State.clear_lag]
      rfl

/-- A link on its way into fallback: its former fallback left, its marks dropped (04 R100). -/
def State.fbLeave (s : State) (l : Nat) : State := (s.fbEnd l).setLagLink l { (s.fbEnd l).lagLink l with slots := [] }

/-- A stack wiped and its fallback noted as entered (04 R100). -/
def State.fbNoted (s : State) (k : Nat) : State :=
  { s.stackWipe k with lag := { (s.stackWipe k).lag with fallbackDone := Tbl.set false (s.stackWipe k).lag.fallbackDone k true } }

theorem exec_stackFallbackEntry_of_due {k : StackId} {s : State} (lost : s.stackLost k = true)
    (later : Tbl.get 0 s.lag.lossTick k < s.tick.n) (due : Tbl.get false s.lag.fallbackDone k = false) : ∃ (ls : List Nat) (first : Nat),
    exec (.stackFallbackEntry k) s =
      .next (((s.fbNoted k).each ls fun l s => s.fbLeave l).each ls fun l s => s.fbEnter l first) :=
  ⟨_, _, congrArg Host.Outcome.next (State.when_pos (by simp [lost, later, due]))⟩

theorem State.memByte_stackWipe (s : State) (k : Nat) {a : Nat} (hlo : stackBase k ≤ a) (hhi : a < stackBase k + 0x600000000) :
    memByte (s.stackWipe k).hbm a = 0 :=
  Tbl.get_filter_of_dropped _ s.hbm a fun _ => by simp [hlo, hhi]

/-- What the links of a lost stack may touch on their way into fallback: of HBM nothing outside the event buffers (04 R100). -/
def Foot.fallbackEntry : Foot := Foot.alarm.plus (.of [.links, .lag] [.lagState, .lagLinkState])

theorem State.fbLeave_fallbackDone (s : State) (l : Nat) : (s.fbLeave l).lag.fallbackDone = s.lag.fallbackDone := s.fbEnd_fallbackDone l

theorem State.fbLeave_within (s : State) (l : Nat) : Within .fallbackEntry s (s.fbLeave l) :=
  .after (State.setLagLink_within ..) ((State.fbEnd_within ..).mono (by decide)) (by decide)

section
variable {s : State}

theorem completes_stackFallbackEntry {k : StackId} (lost : s.stackLost k = true) (later : Tbl.get 0 s.lag.lossTick k < s.tick.n)
    (due : Tbl.get false s.lag.fallbackDone k = false) : Completes (.stackFallbackEntry k) s fun t =>
      Tbl.get false t.lag.fallbackDone k = true ∧
        ∀ a, stackBase k ≤ a → a < stackBase k + 0x600000000 → inEvents a = false → memByte t.hbm a = 0 := by
  obtain ⟨ls, first, e⟩ := exec_stackFallbackEntry_of_due lost later due
  refine ⟨_, e, ?_, fun a hlo hhi outside => ?_⟩
  · rw [State.each_keeps (·.lag.fallbackDone) ls _ _ fun l y => y.fbEnter_fallbackDone l first,
      State.each_keeps (·.lag.fallbackDone) ls _ _ fun l y => y.fbLeave_fallbackDone l]
    exact Tbl.get_set_same false _ _ true
  · have entered : Within .fallbackEntry (s.fbNoted k)
        (((s.fbNoted k).each ls fun l s => s.fbLeave l).each ls fun l s => s.fbEnter l first) :=
      ((Within.refl _ _).each _ _ fun l y h => .after (y.fbLeave_within l) h (by decide)).each _ _ fun l y h =>
        .after (State.fbEnter_within ..) h (by decide)
    exact (entered.hbm (by decide) a outside).trans (s.memByte_stackWipe k hlo hhi)

theorem completes_fallbackReleaseEnd {l : IngressId} {b : Fallback} {e : Nat} (held : (s.lagLink l).fb = some b) (last : b.last = some e)
    (released : e + b.lag < s.tick.n) : Completes (.fallbackReleaseEnd l) s fun t => (t.lagLink l).fb = none ∧
      t.flag F.lagLinkStateFallback l = false ∧ t.flag F.lagLinkStateNopage l = false ∧ t.active A.lagFallback l = false ∧
        t.active A.lagFallbackNopage l = false := by
  have run : exec (.fallbackReleaseEnd l) s = .next (s.fbEnd l) := by
    show execFallbackReleaseEnd l s = _
    unfold execFallbackReleaseEnd
    rw [held]
    dsimp only
    rw [last]
    exact congrArg Host.Outcome.next (State.when_pos (decide_eq_true released))
  exact ⟨_, run, s.fbEnd_facts l⟩

/-! ### The event buffer's move (14 R369) -/

theorem completes_evbMove_idle (h : s.log.move = false) : Completes .evbMove s fun t => t = s := ⟨_, rfl, if_pos (by rw [h]; rfl)⟩

/-- The share in use begins at the entries written so far; what it takes over is counted after. -/
theorem completes_evbMove {k : Nat} (due : s.log.move = true) (left : s.evbStack = some k) :
    Completes .evbMove s fun t => t.word .logEvbBase 0 = s.word .logEvbEntries 0 := by
  refine ⟨_, rfl, ?_⟩
  unfold State.evbMove
  rw [if_neg (by rw [due]; decide)]
  extract_lets log x
  have stack : x.evbStack = some k := left
  rw [stack]
  dsimp only
  rw [(State.evbDrain_within ..).word _ (by decide), (State.logEvent_within ..).word _ (by decide), State.evbUse, State.word_setWord_same]
  exact (State.word_wr_other _ _ (.inl (by decide))).trans (State.word_wr_other _ _ (.inl (by decide)))

end

/-- Settles O25: a RESTORE round by round, its end by what it shows before the links follow, fallback entered over the wiped stack and left, and the
buffer's move. -/
theorem stacksAreRestored : Obligations.StacksAreRestored := fun _ _ =>
  ⟨completes_lagStackRestore, completes_stackRestoreDone, completes_stackRestoreFail, completes_stackFallbackEntry,
    fun _ _ _ => completes_fallbackReleaseEnd, completes_evbMove_idle, completes_evbMove⟩

/-! ### Late and out-of-range frames (04 R87 to R90) -/

section
variable {c : Instr} {s x : State} {f : Field} {a : Nat} {l : IngressId}

/-- A bit of LAG_LINK_STATE set, its alarm raised after it. -/
theorem completes_lagRaise (hr : f.reg = .lagLinkState) (hw : f.width = 1) (hg : f.lo + f.width ≤ 64)
    (e : exec c s = .next ((x.setFlag f l true).raise a l)) : Completes c s fun t => t.flag f l = true ∧ t.active a l = true := by
  refine ⟨_, e, ?_, ?_⟩
  · exact (State.flag_raise _ _ _ _ _ (by rw [hr]; decide)).trans (State.flag_setFlag x f l true hw hg)
  · rw [State.active_raise _ _ _ _ _ (by omega)]
    simp

/-- A bit of LAG_LINK_STATE cleared and its alarm ended after it keep the link's record. -/
theorem State.lagCleared_facts (hr : f.reg = .lagLinkState) (hw : f.width = 1) (hg : f.lo + f.width ≤ 64) :
    ((x.setFlag f l false).clear a l).flag f l = false ∧ ((x.setFlag f l false).clear a l).active a l = false ∧
      ((x.setFlag f l false).clear a l).lagLink l = x.lagLink l := by
  refine ⟨?_, ?_, ?_⟩
  · exact (State.flag_clear _ _ _ _ _ (by rw [hr]; decide)).trans (State.flag_setFlag x f l false hw hg)
  · rw [State.active_clear _ _ _ _ _ (by omega)]
    simp
  · exact (State.lagLink_congr (State.clear_lag ..) l).trans (State.lagLink_congr (State.setFlag_lag ..) l)

theorem completes_lagClear (hr : f.reg = .lagLinkState) (hw : f.width = 1) (hg : f.lo + f.width ≤ 64)
    (e : exec c s = .next ((x.setFlag f l false).clear a l)) : Completes c s fun t => t.flag f l = false ∧ t.active a l = false := by
  obtain ⟨shown, ended, -⟩ := State.lagCleared_facts (x := x) (a := a) (l := l) hr hw hg
  exact ⟨_, e, shown, ended⟩

end

section
variable {l : IngressId} {s : State}

/-- A late frame is counted once, whatever its mark (04 R90). -/
theorem State.lagLate_counts (s : State) (l stamp r n : Nat) (m : SlotState) :
    Within (.of [.lag] []) (s.count .lagLate l) ((s.lagLate l stamp).lagMark l r n m) :=
  .after (State.lagMark_within ..) (State.lateRuns_within ..) (by decide)

theorem completes_lagDeadlineMiss {f : RxFrameH} {g : LagTarget} (frame : (s.rx l).frame = some f)
    (target : s.lagTarget l (s.localTick f.stamp.toNat) = some g) (written : f.taken = .written) (fresh : f.missed = false)
    (due : s.localTick f.stamp.toNat + g.lag ≤ s.tick.n + 1) : Completes (.lagDeadlineMiss l f.stamp) s fun t =>
      (t.rx l).frame = some { f with missed := true } ∧ t.word .lagLate l = s.word .lagLate l + 1 := by
  have run : exec (.lagDeadlineMiss l f.stamp) s = .next (((s.setRx l { s.rx l with frame := some { f with missed := true } }).lagLate l
      f.stamp.toNat).lagMark l (s.ringPos f.stamp.toNat) f.stamp.toNat .incomplete) := by
    show execLagDeadlineMiss l f.stamp s = _
    unfold execLagDeadlineMiss
    rw [frame]
    dsimp only
    rw [target]
    exact congrArg Host.Outcome.next (State.when_pos (by simp [written, fresh, due]))
  have counted := State.lagLate_counts (s.setRx l { s.rx l with frame := some { f with missed := true } }) l f.stamp.toNat
    (s.ringPos f.stamp.toNat) f.stamp.toNat .incomplete
  refine ⟨_, run, ?_, ?_⟩
  · have kept : ((s.setRx l { s.rx l with frame := some { f with missed := true } }).count .lagLate l).rx l =
        { s.rx l with frame := some { f with missed := true } } := State.rx_setRx_same ..
    rw [counted.rx (by decide), kept]
  · rw [counted.word _ (by decide), State.word_count, State.setRx_word]

theorem completes_lagLateRaise (run : 3 ≤ (s.lagLink l).lateStamps) :
    Completes (.lagLateRaise l) s fun t => t.flag F.lagLinkStateLate l = true ∧ t.active A.lagLate l = true :=
  completes_lagRaise rfl rfl (by decide) (congrArg Host.Outcome.next (State.when_pos (decide_eq_true run)))

theorem completes_lagLateClear (run : 48 ≤ (s.lagLink l).onTimeRun) : Completes (.lagLateClear l) s fun t =>
    t.flag F.lagLinkStateLate l = false ∧ t.active A.lagLate l = false ∧ (t.lagLink l).lateStamps = 0 := by
  obtain ⟨shown, ended, record⟩ := State.lagCleared_facts (x := s.setLagLink l { s.lagLink l with lateStamps := 0 }) (f := F.lagLinkStateLate)
    (a := A.lagLate) (l := l) rfl rfl (by decide)
  refine ⟨_, congrArg Host.Outcome.next (State.when_pos (decide_eq_true run)), shown, ended, ?_⟩
  rw [State.lagLink_setLagLink_same] at record
  exact congrArg LagLinkH.lateStamps record

theorem completes_lagStampRangeRaise (run : 48 ≤ (s.lagLink l).rangeRun) :
    Completes (.lagStampRangeRaise l) s fun t => t.flag F.lagLinkStateStampRange l = true ∧ t.active A.lagStampRange l = true :=
  completes_lagRaise rfl rfl (by decide) (congrArg Host.Outcome.next (State.when_pos (decide_eq_true run)))

theorem completes_lagStampRangeClear (run : 48 ≤ (s.lagLink l).okRun) :
    Completes (.lagStampRangeClear l) s fun t => t.flag F.lagLinkStateStampRange l = false ∧ t.active A.lagStampRange l = false :=
  completes_lagClear rfl rfl (by decide) (congrArg Host.Outcome.next (State.when_pos (decide_eq_true run)))

theorem completes_lagMarginClear (run : 48000 ≤ (s.lagLink l).marginRun) :
    Completes (.lagMarginClear l) s fun t => t.flag F.lagLinkStateMargin l = false ∧ t.active A.lagMargin l = false :=
  completes_lagClear rfl rfl (by decide) (congrArg Host.Outcome.next (State.when_pos (decide_eq_true run)))

end

/-- Settles O26: a missed deadline by what it marks and counts, then each run's end by the bit and the alarm that follow it. -/
theorem lateFramesAreReported : Obligations.LateFramesAreReported := fun _ _ =>
  ⟨fun _ _ => completes_lagDeadlineMiss, completes_lagLateRaise, completes_lagLateClear, completes_lagStampRangeRaise,
    completes_lagStampRangeClear, completes_lagMarginClear⟩

/-! ### Configuration and extremes (04 Tables 04-10, 04-11) -/

/-- A configuration write at expert level of a value within its rule, in a unit that is not joined: stored, on a state that may differ by the count of
writes not mirrored (10 R269; 12 R331, R332). -/
theorem State.cfgWrite_stores {s : State} {m : Master} {r : Reg} {i : Nat} {v : Word} (he : s.expert m = true) (hj : s.joined = false)
    (hv : s.valueOk r i v.toNat = true) (f : State → State) : ∃ x, Within (.of [] [.mateUnmirrored]) s x ∧
      s.cfgWrite m r i v f = f (x.setWord r i (BitVec.ofNat 64 (r.stored (x.word r i).toNat v.toNat))) := by
  unfold State.cfgWrite
  dsimp only
  rw [State.expertOnly_ok _ _ _ _ he, State.valueOnly_ok _ _ _ _ _ hv]
  split
  · unfold State.mirrored
    rw [if_neg (by rw [hj]; decide)]
    split
    · exact ⟨_, (Within.refl _ s).count _ _ (by decide), rfl⟩
    · exact ⟨s, .refl .., rfl⟩
  · exact ⟨s, .refl .., rfl⟩

/-- The word of LAG_LINK_CFG that a write leaves: each of its fields takes its bits of the value (04 Table 04-10). -/
theorem field_stored_lagLinkCfg (old v : Nat) : ∀ f ∈ Reg.lagLinkCfg.fields.map (·.field),
    field (Reg.lagLinkCfg.stored old v) f.lo f.width = field v f.lo f.width := by
  have put : Reg.lagLinkCfg.stored old v =
      putField (putField (putField (putField old 32 32 (field v 32 32)) 20 2 (field v 20 2)) 16 2 (field v 16 2)) 0 14 (field v 0 14) := rfl
  have whole : ∀ lo w, field v lo w % 2 ^ w = field v lo w := fun lo w => Nat.mod_eq_of_lt (field_lt v lo w)
  intro f hf
  simp only [Reg.fields, List.map, List.mem_cons, List.not_mem_nil, or_false] at hf
  rw [put]
  obtain rfl | rfl | rfl | rfl := hf
  · rw [field_putField_other (by decide), field_putField_other (by decide), field_putField_other (by decide), field_putField_same, whole]
  · rw [field_putField_other (by decide), field_putField_other (by decide), field_putField_same, whole]
  · rw [field_putField_other (by decide), field_putField_same, whole]
  · rw [field_putField_same, whole]

theorem State.rd_stored_lagLinkCfg (s : State) (i old v : Nat) {f : Field} (hf : f ∈ Reg.lagLinkCfg.fields.map (·.field)) :
    (s.setWord .lagLinkCfg i (BitVec.ofNat 64 (Reg.lagLinkCfg.stored old v))).rd f i = field v f.lo f.width := by
  have place : f.reg = .lagLinkCfg ∧ f.lo + f.width ≤ 64 := by
    revert f
    decide
  obtain ⟨hreg, hfits⟩ := place
  unfold State.rd
  rw [hreg, State.word_setWord_same, field_ofNat hfits, field_stored_lagLinkCfg _ _ f hf]

/-- The rule of LAG_LINK_CFG reads nothing that an access's counts change. -/
theorem Within.valueOk_lagLinkCfg {s x : State} (h : Within .counted s x) (l v : Nat) :
    x.valueOk .lagLinkCfg l v = s.valueOk .lagLinkCfg l v := by
  have gen : ∀ j, x.gen j = s.gen j := h.gen (by decide)
  have grouped : x.grouped l = s.grouped l := by
    unfold State.grouped
    simp only [h.flag (f := F.protGroupCfgEn) (by decide), h.rd (f := F.protGroupCfgPLink) (by decide),
      h.rd (f := F.protGroupCfgSLink) (by decide)]
  have pages : x.pagesOthers l = s.pagesOthers l := by
    unfold State.pagesOthers
    simp only [h.rd (f := F.lagLinkCfgMode) (by decide), h.rd (f := F.lagLinkCfgD) (by decide),
      h.rd (f := F.lagLinkStatePoolPages) (by decide), h.lagLink (by decide), gen]
  unfold State.valueOk State.allotFits
  simp only [gen, grouped, pages]

section
variable {m : Master} {l : IngressId} {s : State}

theorem completes_lagLinkCfgWrite (hr : s.reaches m 18 true = true) (v : BitVec 64) (he : s.expert m = true) (hj : s.joined = false)
    (hv : s.valueOk .lagLinkCfg l v.toNat = true) : Completes (.lagLinkCfgWrite m l v) s fun t =>
      t.rd F.lagLinkCfgMode l = field v.toNat F.lagLinkCfgMode.lo F.lagLinkCfgMode.width ∧
      t.rd F.lagLinkCfgD l = field v.toNat F.lagLinkCfgD.lo F.lagLinkCfgD.width ∧
      t.rd F.lagLinkCfgFbLag l = field v.toNat F.lagLinkCfgFbLag.lo F.lagLinkCfgFbLag.width ∧
      t.rd F.lagLinkCfgMarginMin l = field v.toNat F.lagLinkCfgMarginMin.lo F.lagLinkCfgMarginMin.width := by
  obtain ⟨x, hx, access⟩ := s.byReg_ok m .lagLinkCfg l 8 true (fun s => s.cfgWrite m .lagLinkCfg l v fun s => s) hr
  obtain ⟨y, -, stored⟩ := State.cfgWrite_stores (s := x) (m := m) (r := .lagLinkCfg) (i := l) (v := v) ((hx.expert (by decide) m).trans he)
    ((hx.flag (by decide) 0).trans hj) ((hx.valueOk_lagLinkCfg l _).trans hv) fun s => s
  refine ⟨_, congrArg Host.Outcome.next (access.trans stored), ?_⟩
  exact ⟨y.rd_stored_lagLinkCfg _ _ _ (by decide), y.rd_stored_lagLinkCfg _ _ _ (by decide), y.rd_stored_lagLinkCfg _ _ _ (by decide),
    y.rd_stored_lagLinkCfg _ _ _ (by decide)⟩

theorem State.answers_answer (s : State) (m : Master) (ok : Bool) (data : List Byte) :
    Tbl.get {} (s.answer m ok data).bus.answers (masterNum m) = ⟨ok, data⟩ := Tbl.get_set_same ..

/-- A read that clears its register answers the word from before (04 Table 04-11). -/
theorem completes_lagArrExtremesRead (max : Bool) (hr : s.reaches m 18 false = true) : Completes (.lagArrExtremesRead m l max) s fun t =>
    t.word (if max then .lagArrMax else .lagArrMin) l = 0 ∧
      Tbl.get {} t.bus.answers (masterNum m) = ⟨true, toBytes 8 (s.word (if max then .lagArrMax else .lagArrMin) l).toNat⟩ := by
  obtain ⟨x, hx, e⟩ := s.byReg_ok m (if max then .lagArrMax else .lagArrMin) l 8 false (fun s =>
    (s.answer m true (toBytes 8 (s.word (if max then .lagArrMax else .lagArrMin) l).toNat)).setWord
      (if max then .lagArrMax else .lagArrMin) l 0) hr
  have quiet : Foot.counted.hasReg (if max then .lagArrMax else .lagArrMin) = false := by cases max <;> decide
  refine ⟨_, congrArg Host.Outcome.next e, State.word_setWord_same .., ?_⟩
  rw [← hx.word _ quiet]
  exact State.answers_answer ..

end

/-- Settles O27: a write stored on a state that the access has changed by its counts alone, and a read that answers before it clears. -/
theorem lagConfigurationIsWrittenAndExtremesRead : Obligations.LagConfigurationIsWrittenAndExtremesRead := fun _ _ _ hr =>
  ⟨completes_lagLinkCfgWrite hr, completes_lagArrExtremesRead⟩

end Sys2Proof.Machine

/-! Hitless protection: what the commands of a group leave to be read, and what follows the runs of its copies, digests and messages (05 R103 to
R120). -/

namespace Sys2Proof.Machine

/-! ### Groups' records -/

/-- Of a group's record what only ticks, resets and windows change: links and EN in force, the command that governs, copies' and digests' runs. -/
def GroupH.held (h : GroupH) : GroupH :=
  { pLink := h.pLink, sLink := h.sLink, en := h.en, p := h.p, s := h.s, differRun := h.differRun, equalRun := h.equalRun, govern := h.govern }

theorem GroupH.eq_of_held {h h' : GroupH} (e : h.held = h'.held) :
    h.pLink = h'.pLink ∧ h.sLink = h'.sLink ∧ h.en = h'.en ∧ h.p = h'.p ∧ h.s = h'.s ∧ h.govern = h'.govern := by
  simp only [GroupH.held, GroupH.mk.injEq] at e
  obtain ⟨pLink, sLink, en, p, s, -, -, -, -, govern, -⟩ := e
  exact ⟨pLink, sLink, en, p, s, govern⟩

theorem State.group_congr {s t : State} (h : t.prot = s.prot) (g : Nat) : t.group g = s.group g := by
  unfold State.group
  rw [h]

theorem Within.group {f : Foot} {s t : State} (h : Within f s t) (hf : f.hasComp .prot = false) (g : Nat) : t.group g = s.group g :=
  State.group_congr (h.prot hf) g

/-- A record set that holds the same keeps what every group holds. -/
theorem State.held_setGroup (s : State) (g j : Nat) {v : GroupH} (hv : v.held = (s.group g).held) :
    ((s.setGroup g v).group j).held = (s.group j).held := by
  rw [State.group_setGroup]
  split
  next here => rw [hv, here]
  next => rfl

/-! ### What the judgements of a group end with (05 R112, Table 05-5) -/

/-- Whether a field is none of those that the end of a judgement writes: WTR_RUN, WTR_LEFT, GSTATE, and what alarms write. -/
def keptBySettling (f : Field) : Bool :=
  F.protGroupStateWtrRun.apart f && F.protGroupStateWtrLeft.apart f && F.protGroupStateGstate.apart f && decide (f.lo + f.width ≤ 64) &&
    !Foot.alarm.hasReg f.reg

theorem keptBySettling.parts {f : Field} (h : keptBySettling f = true) : F.protGroupStateWtrRun.apart f = true ∧
    F.protGroupStateWtrLeft.apart f = true ∧ F.protGroupStateGstate.apart f = true ∧ f.lo + f.width ≤ 64 ∧ Foot.alarm.hasReg f.reg = false := by
  simp only [keptBySettling, Bool.and_eq_true, decide_eq_true_eq, Bool.not_eq_true'] at h
  obtain ⟨⟨⟨⟨wtrRun, wtrLeft⟩, gstate⟩, fits⟩, quiet⟩ := h
  exact ⟨wtrRun, wtrLeft, gstate, fits, quiet⟩

/-- From `s` to `t`, of all that judgements of groups read, at most WTR, GSTATE and the message of group `g` and the alarms have changed. -/
structure Settles (g : Nat) (s t : State) : Prop where
  rd : ∀ f j, keptBySettling f = true → t.rd f j = s.rd f j
  word : ∀ r j, j ≠ g → Foot.alarm.hasReg r = false → t.word r j = s.word r j
  held : ∀ j, (t.group j).held = (s.group j).held
  sdEnded : t.prot.sdEnded = s.prot.sdEnded

theorem Settles.refl (g : Nat) (s : State) : Settles g s s := ⟨fun _ _ _ => rfl, fun _ _ _ _ => rfl, fun _ => rfl, rfl⟩

theorem Settles.trans {g : Nat} {s t u : State} (h : Settles g s t) (h' : Settles g t u) : Settles g s u where
  rd f j hf := (h'.rd f j hf).trans (h.rd f j hf)
  word r j hj hr := (h'.word r j hj hr).trans (h.word r j hj hr)
  held j := (h'.held j).trans (h.held j)
  sdEnded := h'.sdEnded.trans h.sdEnded

theorem Settles.flag {g : Nat} {s t : State} (h : Settles g s t) {f : Field} (hf : keptBySettling f = true) (j : Nat) :
    t.flag f j = s.flag f j := by
  unfold State.flag
  rw [h.rd f j hf]

/-- An alarm raised or ended, and what it tells. -/
theorem Settles.of_within {g : Nat} {s t : State} (h : Within .alarm s t) : Settles g s t where
  rd f j hf := by
    obtain ⟨-, -, -, -, quiet⟩ := keptBySettling.parts hf
    exact h.rd quiet j
  word r j _ hr := h.word r hr j
  held j := congrArg GroupH.held (h.group (by decide) j)
  sdEnded := congrArg ProtH.sdEnded (h.prot (by decide))

/-- A write of a field that is apart from every kept one. -/
theorem Settles.wr {g : Nat} (s : State) {f : Field} (v : Nat) (hf : ∀ q, keptBySettling q = true → f.apart q = true) :
    Settles g s (s.wr f g v) where
  rd q j hq := by
    obtain ⟨-, -, -, fits, -⟩ := keptBySettling.parts hq
    exact State.rd_wr_apart s g j v (hf q hq) fits
  word r j hj _ := s.word_wr_other v (.inr hj.symm)
  held _ := rfl
  sdEnded := rfl

theorem Settles.setGroup {g : Nat} (s : State) {v : GroupH} (hv : v.held = (s.group g).held) : Settles g s (s.setGroup g v) :=
  ⟨fun _ _ _ => rfl, fun _ _ _ _ => rfl, fun j => s.held_setGroup g j hv, rfl⟩

section
variable (s : State) (g : Nat)

theorem State.wtrLeft_settles : Settles g s (s.wtrLeft g) := .wr s _ fun _ hq =>
  have ⟨_, wtrLeft, _⟩ := keptBySettling.parts hq
  wtrLeft

theorem State.wtrStop_settles : Settles g s (s.setFlag F.protGroupStateWtrRun g false) := .wr s _ fun _ hq =>
  have ⟨wtrRun, _⟩ := keptBySettling.parts hq
  wtrRun

theorem State.gstate_settles (v : Nat) : Settles g s (s.wr F.protGroupStateGstate g v) := .wr s _ fun _ hq =>
  have ⟨_, _, gstate, _⟩ := keptBySettling.parts hq
  gstate

theorem State.wtrSync_settles : Settles g s (s.wtrSync g) := by
  have stopped : ∀ b, Settles g s (((s.setGroup g { s.group g with wtrRan := 0, wasBad := b }).setFlag F.protGroupStateWtrRun g
      false).wtrLeft g) := fun b => ((Settles.setGroup s (v := { s.group g with wtrRan := 0, wasBad := b }) rfl).trans
        (State.wtrStop_settles ..)).trans (State.wtrLeft_settles ..)
  unfold State.wtrSync
  dsimp only
  split
  · exact stopped _
  · split
    · exact stopped _
    · exact .refl g s

theorem State.protRetime_settles : Settles g s (s.protRetime g) := by
  unfold State.protRetime
  dsimp only
  refine .trans ?_ (State.gstate_settles ..)
  split
  · exact s.wtrLeft_settles g
  · exact s.wtrSync_settles g

/-- A group's four alarms, before its GSTATE is shown. -/
def State.protShowAlarms (s : State) (g : Nat) : State :=
  let psf := s.flag F.protGroupStatePSf g
  let ssf := s.flag F.protGroupStateSSf g
  let cmd := s.rd F.protGroupCmdCmd g
  let failed := (s.setAlarm A.protCopyFail g (psf != ssf)).setAlarm A.protBothFail g (psf && ssf)
  (failed.setAlarm A.protDegrade g (failed.flag F.protGroupStatePSd g || failed.flag F.protGroupStateSSd g)).setAlarm A.protCmd g
    (cmd = 3 || cmd = 4 || cmd = 5)

theorem State.protAlarms_eq : s.protAlarms g = (s.protShowAlarms g).wr F.protGroupStateGstate g ((s.protShowAlarms g).gstate g) := rfl

theorem State.protShowAlarms_within : Within .alarm s (s.protShowAlarms g) :=
  .after (State.setAlarm_within ..) (.after (State.setAlarm_within ..) (.after (State.setAlarm_within ..) (State.setAlarm_within ..)
    (by decide)) (by decide)) (by decide)

theorem State.protAlarms_settles : Settles g s (s.protAlarms g) := by
  rw [State.protAlarms_eq]
  exact (Settles.of_within (s.protShowAlarms_within g)).trans (State.gstate_settles ..)

theorem State.protRenote_settles : Settles g s (s.protRenote g) := .setGroup s rfl

/-- What a judgement of a group's conditions ends with: WTR follows them, then the alarms, then the messages. -/
def State.protSettle (s : State) (g : Nat) : State := ((s.wtrSync g).protAlarms g).protRenote g

theorem State.protSettle_settles : Settles g s (s.protSettle g) :=
  ((s.wtrSync_settles g).trans (State.protAlarms_settles ..)).trans (State.protRenote_settles ..)

/-- An alarm set, read back, and any other read over it. -/
theorem State.active_setAlarm_same (a i : Nat) (v : Bool) (hi : i < 256) : (s.setAlarm a i v).active a i = v := by
  rw [State.active_setAlarm _ _ _ _ _ _ hi, if_pos ⟨rfl, rfl⟩]

theorem State.active_setAlarm_other {a b : Nat} (i j : Nat) (v : Bool) (hi : i < 256) (hb : b ≠ a) :
    (s.setAlarm a i v).active b j = s.active b j := by
  rw [State.active_setAlarm _ _ _ _ _ _ hi, if_neg fun e => hb e.1]

/-- PROT_COPY_FAIL is ACTIVE while one copy is in SF, PROT_BOTH_FAIL while both are (05 Table 05-5). -/
theorem State.active_protAlarms {g : Nat} (hg : g < 256) :
    (s.protAlarms g).active A.protCopyFail g = (s.flag F.protGroupStatePSf g != s.flag F.protGroupStateSSf g) ∧
    (s.protAlarms g).active A.protBothFail g = (s.flag F.protGroupStatePSf g && s.flag F.protGroupStateSSf g) := by
  have shown : ∀ a, (s.protAlarms g).active a g = (s.protShowAlarms g).active a g := fun a => by
    rw [State.protAlarms_eq]
    exact State.active_congr (State.wr_act ..) a g
  rw [shown, shown]
  unfold State.protShowAlarms
  dsimp only
  constructor
  · rw [State.active_setAlarm_other _ _ _ _ hg (by decide), State.active_setAlarm_other _ _ _ _ hg (by decide),
      State.active_setAlarm_other _ _ _ _ hg (by decide), State.active_setAlarm_same _ _ _ _ hg]
  · rw [State.active_setAlarm_other _ _ _ _ hg (by decide), State.active_setAlarm_other _ _ _ _ hg (by decide),
      State.active_setAlarm_same _ _ _ _ hg]

/-- The failures' alarms follow the conditions as they are judged. -/
theorem State.active_protSettle {g : Nat} (hg : g < 256) :
    (s.protSettle g).active A.protCopyFail g = (s.flag F.protGroupStatePSf g != s.flag F.protGroupStateSSf g) ∧
    (s.protSettle g).active A.protBothFail g = (s.flag F.protGroupStatePSf g && s.flag F.protGroupStateSSf g) := by
  have alarms := (s.wtrSync g).active_protAlarms hg
  rw [(s.wtrSync_settles g).flag (by decide), (s.wtrSync_settles g).flag (by decide)] at alarms
  exact alarms

end

/-! ### The six commands (05 R113 to R115) -/

/-- A mirrored write in a unit that is not joined: done at once, on a state that may differ by the count of writes not mirrored (10 R269). -/
theorem State.mirrored_alone {s : State} (hj : s.joined = false) (addr : Nat) (be : BitVec 8) (data : Word) (f : State → State) :
    ∃ x, Within (.of [] [.mateUnmirrored]) s x ∧ s.mirrored addr be data f = f x := by
  unfold State.mirrored
  rw [if_neg (by rw [hj]; decide)]
  split
  · exact ⟨_, (Within.refl _ s).count _ _ (by decide), rfl⟩
  · exact ⟨s, .refl .., rfl⟩

/-- What counts an access that is carried out in one unit alone. -/
def Foot.countedAlone : Foot := Foot.counted.plus (.of [] [.mateUnmirrored])

theorem Within.protChanged {s x : State} (h : Within .countedAlone s x) (g : Nat) : x.protChanged g = s.protChanged g := by
  unfold State.protChanged
  simp only [h.group (by decide), h.rd (f := F.protGroupCfgPLink) (by decide), h.rd (f := F.protGroupCfgSLink) (by decide),
    h.flag (f := F.protGroupCfgEn) (by decide)]

theorem Within.epochChanges {s x : State} (h : Within .counted s x) (g : Nat) : x.epochChanges g = s.epochChanges g := by
  unfold State.epochChanges State.estate State.now
  simp only [h.group (by decide), h.alm (by decide), h.rd (f := F.almStateEstate) (by decide), h.rd (f := F.almArmedArmedTick) (by decide),
    h.rd (f := F.timTickTick) (by decide)]

/-- Each command's code and the highest priority in force at which it is accepted (05 Table 05-2). -/
def groupCommands (m : Master) (g : GroupId) : List (Instr × Nat × Nat) :=
  [(.protCmdClear m g, 0, 3), (.protCmdManualP m g, 1, 1), (.protCmdManualS m g, 2, 1), (.protCmdForceP m g, 3, 2),
    (.protCmdForceS m g, 4, 2), (.protCmdLockout m g, 5, 3)]

theorem cmdPriority_le (n : Nat) : cmdPriority n ≤ 3 := by
  unfold cmdPriority
  split <;> decide

theorem groupCommands_row {m : Master} {g : GroupId} {c : Instr} {n p : Nat} (h : (c, n, p) ∈ groupCommands m g) :
    (∀ s, exec c s = .next (s.byReg m .protGroupCmd g 8 true fun s => s.groupCmd m g n)) ∧ n ≤ 5 ∧
      ∀ q, (n = 0 ∨ cmdPriority q ≤ cmdPriority n) ↔ cmdPriority q ≤ p := by
  simp only [groupCommands, List.mem_cons, Prod.mk.injEq, List.not_mem_nil, or_false] at h
  obtain ⟨rfl, rfl, rfl⟩ | ⟨rfl, rfl, rfl⟩ | ⟨rfl, rfl, rfl⟩ | ⟨rfl, rfl, rfl⟩ | ⟨rfl, rfl, rfl⟩ | ⟨rfl, rfl, rfl⟩ := h
  · exact ⟨fun _ => rfl, by decide, fun q => iff_of_true (.inl rfl) (cmdPriority_le q)⟩
  all_goals exact ⟨fun _ => rfl, by decide, fun _ => or_iff_right (by decide)⟩

section
variable (s : State) (g n : Nat)

/-- A command taken is noted among those of its tick, and judged. -/
theorem State.protTake_eq : ∃ h : GroupH, h.govern = (s.group g).govern ∧ s.protTake g n = (s.setGroup g h).protJudge g n := by
  by_cases first : (s.group g).judged.isEmpty = true
  · exact ⟨{ s.group g with judged := [n], refused := 0, cmdWas := s.rd F.protGroupCmdCmd g, resultWas := s.rd F.protGroupCmdLastResult g },
      rfl, congrArg (State.protJudge · g n) (if_pos first)⟩
  · exact ⟨{ s.group g with judged := (s.group g).judged ++ [n] }, rfl, congrArg (State.protJudge · g n) (if_neg first)⟩

variable {s g n}

theorem State.protJudge_accepts (hn : n ≤ 5) (hj : s.joined = false) (h : n = 0 ∨ cmdPriority (s.rd F.protGroupCmdCmd g) ≤ cmdPriority n) :
    ((s.protJudge g n).group g).govern = (s.group g).govern ∧ (s.protJudge g n).rd F.protGroupCmdCmd g = n ∧
      (s.protJudge g n).rd F.protGroupCmdLastResult g = if s.flag F.mateCfgEn 0 then 4 else 1 := by
  have judged : s.protJudge g n = ((s.wr F.protGroupCmdCmd g n).wr F.protGroupCmdLastResult g
      (if s.flag F.mateCfgEn 0 then 4 else 1)).protAlarms g := by
    unfold State.protJudge
    rw [if_pos (by simpa using h), hj, Bool.not_false, Bool.and_true]
  have settled := ((s.wr F.protGroupCmdCmd g n).wr F.protGroupCmdLastResult g (if s.flag F.mateCfgEn 0 then 4 else 1)).protAlarms_settles g
  obtain ⟨-, -, -, -, -, govern⟩ := GroupH.eq_of_held (settled.held g)
  rw [judged]
  refine ⟨govern, ?_, ?_⟩
  · rw [settled.rd _ _ (by decide), State.rd_wr_apart _ _ _ _ (by decide) (by decide), State.rd_wr _ _ _ _ (by decide)]
    exact Nat.mod_eq_of_lt (Nat.lt_of_le_of_lt hn (by decide))
  · rw [settled.rd _ _ (by decide), State.rd_wr _ _ _ _ (by decide)]
    split <;> rfl

theorem State.protJudge_refuses (h : ¬(n = 0 ∨ cmdPriority (s.rd F.protGroupCmdCmd g) ≤ cmdPriority n)) :
    ((s.protJudge g n).group g).govern = (s.group g).govern ∧ (s.protJudge g n).rd F.protGroupCmdCmd g = s.rd F.protGroupCmdCmd g ∧
      (s.protJudge g n).rd F.protGroupCmdLastResult g = 2 ∧ (s.protJudge g n).word .protCmdRefused g = s.word .protCmdRefused g + 1 := by
  have judged : s.protJudge g n = ((s.setGroup g { s.group g with refused := (s.group g).refused + 1 }).wr F.protGroupCmdLastResult g
      2).count .protCmdRefused g := by
    rw [State.protJudge, if_neg (by simpa using h)]
  rw [judged]
  refine ⟨?_, ?_, ?_, ?_⟩
  · rw [State.group_congr (State.count_prot ..), State.group_congr (State.wr_prot ..), State.group_setGroup_same]
  · rw [State.rd_count_other _ _ _ (by decide), State.rd_wr_apart _ _ _ _ (by decide) (by decide)]
    rfl
  · rw [State.rd_count_other _ _ _ (by decide), State.rd_wr _ _ _ _ (by decide)]
    rfl
  · rw [State.word_count, State.word_wr_other _ _ (.inl (by decide)), State.setGroup_word]

end

section
variable {m : Master} {g : GroupId} {s : State} {c : Instr} {n p : Nat} (hr : s.reaches m 18 true = true) (row : (c, n, p) ∈ groupCommands m g)
include hr row

/-- A command to an enabled group in a unit that is not joined is taken, or waits where a change falls at the next tick edge (05 R114). -/
theorem exec_groupCommand (hen : s.flag F.protGroupCfgEn g = true) (hj : s.joined = false) : ∃ x, Within .countedAlone s x ∧ exec c s = .next
    (if s.protChanged g || s.epochChanges g then x.setGroup g { x.group g with waiting := (x.group g).waiting ++ [n] } else x.protTake g n) := by
  obtain ⟨run, hn, -⟩ := groupCommands_row row
  obtain ⟨x, hx, access⟩ := s.byReg_ok m .protGroupCmd g 8 true (fun s => s.groupCmd m g n) hr
  obtain ⟨y, hy, alone⟩ := State.mirrored_alone (s := x) ((hx.flag (by decide) 0).trans hj) (regAddr .protGroupCmd g) 0xFF (BitVec.ofNat 64 n)
    fun s => if s.protChanged g || x.epochChanges g then s.setGroup g { s.group g with waiting := (s.group g).waiting ++ [n] }
      else s.protTake g n
  have both : Within .countedAlone s y := hy.after (hx.mono (by decide)) (by decide)
  refine ⟨y, both, (run s).trans (congrArg Host.Outcome.next (access.trans ?_))⟩
  rw [← both.protChanged, ← hx.epochChanges, ← alone, State.groupCmd, State.protCommand]
  exact if_neg (by rw [hx.flag (by decide), hen, decide_eq_false (by omega)]; decide)

theorem completes_groupCommand_taken (hen : s.flag F.protGroupCfgEn g = true) (hj : s.joined = false) (hcfg : s.protChanged g = false)
    (hepoch : s.epochChanges g = false) : Completes c s fun t => (t.group g).govern = (s.group g).govern ∧
      (cmdPriority (s.rd F.protGroupCmdCmd g) ≤ p → t.rd F.protGroupCmdCmd g = n ∧
        t.rd F.protGroupCmdLastResult g = (if s.flag F.mateCfgEn 0 then 4 else 1)) ∧
      (p < cmdPriority (s.rd F.protGroupCmdCmd g) → t.rd F.protGroupCmdCmd g = s.rd F.protGroupCmdCmd g ∧
        t.rd F.protGroupCmdLastResult g = 2 ∧ t.word .protCmdRefused g = s.word .protCmdRefused g + 1) := by
  obtain ⟨-, hn, accepts⟩ := groupCommands_row row
  obtain ⟨x, hx, run⟩ := exec_groupCommand hr row hen hj
  obtain ⟨h, govern, taken⟩ := x.protTake_eq g n
  rw [hcfg, hepoch, Bool.or_self, if_neg (by decide), taken] at run
  have cmd : (x.setGroup g h).rd F.protGroupCmdCmd g = s.rd F.protGroupCmdCmd g := hx.rd (by decide) g
  have alone : (x.setGroup g h).joined = false := (hx.flag (by decide) 0).trans hj
  have mate : (x.setGroup g h).flag F.mateCfgEn 0 = s.flag F.mateCfgEn 0 := hx.flag (by decide) 0
  have refused : (x.setGroup g h).word .protCmdRefused g = s.word .protCmdRefused g := hx.word _ (by decide) g
  have before : ((x.setGroup g h).group g).govern = (s.group g).govern := by
    rw [State.group_setGroup_same, govern, hx.group (by decide)]
  refine ⟨_, run, ?_⟩
  by_cases priority : cmdPriority (s.rd F.protGroupCmdCmd g) ≤ p
  · obtain ⟨kept, shown, result⟩ := State.protJudge_accepts hn alone ((accepts _).2 (cmd.symm ▸ priority))
    exact ⟨kept.trans before, fun _ => ⟨shown, mate ▸ result⟩, fun h => absurd priority (Nat.not_le.2 h)⟩
  · obtain ⟨kept, shown, result, counted⟩ := State.protJudge_refuses (s := x.setGroup g h) (g := g) (n := n)
      fun h => priority (cmd ▸ (accepts _).1 h)
    exact ⟨kept.trans before, fun h => absurd h priority, fun _ => ⟨shown.trans cmd, result, counted.trans (congrArg (· + 1) refused)⟩⟩

theorem completes_groupCommand_waits (hen : s.flag F.protGroupCfgEn g = true) (hj : s.joined = false)
    (hchange : (s.protChanged g || s.epochChanges g) = true) : Completes c s fun t =>
      t.group g = { s.group g with waiting := (s.group g).waiting ++ [n] } ∧ t.word .protGroupCmd g = s.word .protGroupCmd g := by
  obtain ⟨x, hx, run⟩ := exec_groupCommand hr row hen hj
  rw [if_pos hchange] at run
  refine ⟨_, run, ?_, hx.word _ (by decide) g⟩
  rw [State.group_setGroup_same, hx.group (by decide)]

/-- A command to a group that is not enabled is refused with an error response (12 R332). -/
theorem completes_groupCommand_disabled (hen : s.flag F.protGroupCfgEn g = false) : Completes c s fun t =>
    t.word .protGroupCmd g = s.word .protGroupCmd g ∧ t.group g = s.group g := by
  obtain ⟨run, -, -⟩ := groupCommands_row row
  obtain ⟨x, hx, access⟩ := s.byReg_ok m .protGroupCmd g 8 true (fun s => s.groupCmd m g n) hr
  have refused : x.groupCmd m g n = x.errResp m (regAddr .protGroupCmd g) true .value := by
    rw [State.groupCmd, State.protCommand]
    exact if_pos (by rw [hx.flag (by decide), hen]; rfl)
  refine ⟨_, (run s).trans (congrArg Host.Outcome.next (access.trans refused)), ?_, ?_⟩
  · exact (State.word_errResp _ _ _ _ _ _ _ (by decide)).trans (hx.word _ (by decide) g)
  · exact (State.group_congr (State.errResp_prot ..) g).trans (hx.group (by decide) g)

end

/-- Settles O32: one path for the six commands, on which priorities are read from their table; a command is judged, or waits, or is refused. -/
theorem groupCommandsArePrioritised : Obligations.GroupCommandsArePrioritised := fun _ _ _ _ _ _ hr row =>
  ⟨completes_groupCommand_taken hr row, completes_groupCommand_waits hr row, completes_groupCommand_disabled hr row⟩

/-! ### Configuration (05 R103, R104, R114, Table 05-6) -/

/-- Each of these fields put to its bits of a value. -/
def putFields (fs : List FieldSpec) (v w : Nat) : Nat :=
  fs.foldl (fun w f => putField w f.field.lo f.field.width (field v f.field.lo f.field.width)) w

/-- Two fields of one register that share no bit. -/
def FieldSpec.beside (f g : FieldSpec) : Bool :=
  decide (f.field.lo + f.field.width ≤ g.field.lo) || decide (g.field.lo + g.field.width ≤ f.field.lo)

theorem field_putFields_of_beside {fs : List FieldSpec} {f : FieldSpec} (h : ∀ g ∈ fs, f.beside g = true) (v w : Nat) :
    field (putFields fs v w) f.field.lo f.field.width = field w f.field.lo f.field.width := by
  induction fs generalizing w with
  | nil => rfl
  | cons g gs ih =>
    have beside : f.field.lo + f.field.width ≤ g.field.lo ∨ g.field.lo + g.field.width ≤ f.field.lo := by
      simpa [FieldSpec.beside] using h g List.mem_cons_self
    exact (ih (fun g hg => h g (List.mem_cons_of_mem _ hg)) _).trans (field_putField_other beside)

/-- Fields side by side, once put, each hold their bits of the value. -/
theorem field_putFields {fs : List FieldSpec} (apart : fs.Pairwise fun f g => f.beside g = true) (v w : Nat) :
    ∀ f ∈ fs, field (putFields fs v w) f.field.lo f.field.width = field v f.field.lo f.field.width := by
  induction fs generalizing w with
  | nil => exact fun f hf => absurd hf List.not_mem_nil
  | cons g gs ih =>
    obtain ⟨first, rest⟩ := List.pairwise_cons.1 apart
    intro f hf
    obtain rfl | hf := List.mem_cons.1 hf
    · refine (field_putFields_of_beside first v _).trans ?_
      rw [field_putField_same, Nat.mod_eq_of_lt (field_lt ..)]
    · exact ih rest _ f hf

/-- A write of PROT_GROUP_CFG puts every field of it: all of them are RW, and none is kept (05 Table 05-6). -/
theorem stored_protGroupCfg (old v : Nat) : Reg.protGroupCfg.stored old v = putFields Reg.protGroupCfg.fields v old := rfl

theorem State.rd_stored_protGroupCfg (s : State) (i old v : Nat) {f : Field} (hf : f ∈ Reg.protGroupCfg.fields.map (·.field)) :
    (s.setWord .protGroupCfg i (BitVec.ofNat 64 (Reg.protGroupCfg.stored old v))).rd f i = field v f.lo f.width := by
  have place : ∀ q ∈ Reg.protGroupCfg.fields, q.field.reg = .protGroupCfg ∧ q.field.lo + q.field.width ≤ 64 := by decide
  obtain ⟨q, hq, rfl⟩ := List.mem_map.1 hf
  obtain ⟨hreg, hfits⟩ := place q hq
  unfold State.rd
  rw [hreg, State.word_setWord_same, field_ofNat hfits, stored_protGroupCfg, field_putFields (by decide) _ _ q hq]

/-- The rule of PROT_GROUP_CFG reads nothing that an access's counts change. -/
theorem Within.valueOk_protGroupCfg {s x : State} (h : Within .counted s x) (g v : Nat) :
    x.valueOk .protGroupCfg g v = s.valueOk .protGroupCfg g v := by
  have gen : ∀ j, x.gen j = s.gen j := h.gen (by decide)
  have links : x.groupLinks g = s.groupLinks g := by
    unfold State.groupLinks
    simp only [h.flag (f := F.protGroupCfgEn) (by decide), h.rd (f := F.protGroupCfgPLink) (by decide),
      h.rd (f := F.protGroupCfgSLink) (by decide)]
  unfold State.valueOk State.groupCfgOk State.pairOk
  simp only [gen, links, h.rd (f := F.lagLinkCfgMode) (by decide), h.rd (f := F.lagLinkCfgD) (by decide),
    h.rd (f := F.lagLinkCfgFbLag) (by decide)]

/-- A configuration stored changes nothing that the group holds until the next tick edge. -/
theorem State.held_protCfg (s : State) (g : Nat) : ((s.protCfg g).group g).held = (s.group g).held := by
  have retimed := (s.protRetime_settles g).held g
  unfold State.protCfg
  dsimp only
  split
  · refine ((State.protAlarms_settles ..).held g).trans (Eq.trans ?_ retimed)
    rw [State.group_congr (State.wr_prot ..), State.group_congr (State.wr_prot ..), State.group_congr (State.setWord_prot ..),
      State.group_setGroup_same]
    rfl
  · exact retimed

section
variable {g : GroupId} {s : State}

theorem completes_protCfgWrite (m : Master) (v : BitVec 64) (hr : s.reaches m 18 true = true) (he : s.expert m = true)
    (hj : s.joined = false) (hv : s.valueOk .protGroupCfg g v.toNat = true) : Completes (.protCfgWrite m g v) s fun t =>
      t.rd F.protGroupCfgPLink g = field v.toNat 0 7 ∧ t.rd F.protGroupCfgSLink g = field v.toNat 8 7 ∧
      t.flag F.protGroupCfgEn g = bit v.toNat 16 ∧ (t.group g).pLink = (s.group g).pLink ∧ (t.group g).sLink = (s.group g).sLink ∧
      (t.group g).en = (s.group g).en := by
  obtain ⟨x, hx, access⟩ := s.byReg_ok m .protGroupCfg g 8 true (fun s => s.cfgWrite m .protGroupCfg g v (·.protCfg g)) hr
  obtain ⟨y, hy, stored⟩ := State.cfgWrite_stores (s := x) (m := m) (r := .protGroupCfg) (i := g) (v := v) ((hx.expert (by decide) m).trans he)
    ((hx.flag (by decide) 0).trans hj) ((hx.valueOk_protGroupCfg g _).trans hv) (·.protCfg g)
  have read : ∀ f ∈ Reg.protGroupCfg.fields.map (·.field), f.reg = .protGroupCfg →
      ((y.setWord .protGroupCfg g (BitVec.ofNat 64 (Reg.protGroupCfg.stored (y.word .protGroupCfg g).toNat v.toNat))).protCfg g).rd f g =
        field v.toNat f.lo f.width := fun f hf hreg =>
    ((State.protCfg_within ..).rd (by rw [hreg]; decide) g).trans (y.rd_stored_protGroupCfg _ _ _ hf)
  have record : (y.setWord .protGroupCfg g (BitVec.ofNat 64 (Reg.protGroupCfg.stored (y.word .protGroupCfg g).toNat v.toNat))).group g =
      s.group g := by
    rw [State.group_congr (State.setWord_prot ..), hy.group (by decide), hx.group (by decide)]
  obtain ⟨pLink, sLink, en, -⟩ := GroupH.eq_of_held ((State.held_protCfg _ g).trans (congrArg GroupH.held record))
  refine ⟨_, congrArg Host.Outcome.next (access.trans stored), read F.protGroupCfgPLink (by decide) rfl,
    read F.protGroupCfgSLink (by decide) rfl, ?_, pLink, sLink, en⟩
  rw [State.flag, read F.protGroupCfgEn (by decide) rfl, field, bit, Nat.pow_one]

end

/-! ### Signal fail (05 R110) -/

/-- SF and SD of a copy. -/
def sfOf : Copy → Field
  | .primary => F.protGroupStatePSf
  | .secondary => F.protGroupStateSSf

def sdOf : Copy → Field
  | .primary => F.protGroupStatePSd
  | .secondary => F.protGroupStateSSd

section
variable (s : State) (g : Nat) (c : Copy)

theorem State.sfMove_eq : s.sfMove g c = if s.sfEnters g c then (s.setFlag (sfOf c) g true).setFlag (sdOf c) g false
    else if s.sfLeaves g c then s.setFlag (sfOf c) g false else s := by
  cases c <;> rfl

/-- SF of a copy follows its own runs. -/
theorem State.flag_sfMove_same : (s.sfMove g c).flag (sfOf c) g = (s.sfEnters g c || (s.flag (sfOf c) g && !s.sfLeaves g c)) := by
  have width : (sfOf c).width = 1 := by cases c <;> rfl
  have fits : (sfOf c).lo + (sfOf c).width ≤ 64 := by cases c <;> decide
  have other : (sdOf c).apart (sfOf c) = true := by cases c <;> decide
  rw [State.sfMove_eq]
  cases s.sfEnters g c with
  | true => rw [if_pos rfl, State.flag_setFlag_apart _ _ _ _ other fits, State.flag_setFlag _ _ _ _ width fits, Bool.true_or]
  | false =>
    rw [if_neg (by decide), Bool.false_or]
    cases s.sfLeaves g c with
    | true => rw [if_pos rfl, State.flag_setFlag _ _ _ _ width fits, Bool.not_true, Bool.and_false]
    | false => rw [if_neg (by decide), Bool.not_false, Bool.and_true]

theorem State.flag_sfMove_apart {f : Field} (hsf : (sfOf c).apart f = true) (hsd : (sdOf c).apart f = true) (fits : f.lo + f.width ≤ 64) :
    (s.sfMove g c).flag f g = s.flag f g := by
  rw [State.sfMove_eq]
  split
  · rw [State.flag_setFlag_apart _ _ _ _ hsd fits, State.flag_setFlag_apart _ _ _ _ hsf fits]
  · split
    · exact State.flag_setFlag_apart _ _ _ _ hsf fits
    · rfl

/-- The secondary's judgement reads nothing that the primary's has written. -/
theorem State.sf_secondary_sfMove_primary : (s.sfMove g .primary).sfEnters g .secondary = s.sfEnters g .secondary ∧
    (s.sfMove g .primary).sfLeaves g .secondary = s.sfLeaves g .secondary := by
  have record : (s.sfMove g .primary).group g = s.group g := (s.sfMove_within g .primary).group (by decide) g
  have holdoff : (s.sfMove g .primary).rd F.protGroupCfgHoldoff g = s.rd F.protGroupCfgHoldoff g :=
    (s.sfMove_within g .primary).rd (by decide) g
  have sf : (s.sfMove g .primary).flag F.protGroupStateSSf g = s.flag F.protGroupStateSSf g :=
    s.flag_sfMove_apart g .primary (by decide) (by decide) (by decide)
  unfold State.sfEnters State.sfLeaves State.copyOf
  dsimp only
  rw [record, holdoff, sf]
  exact ⟨rfl, rfl⟩

/-- Both copies of a group brought up to their runs. -/
def State.sfMoves (s : State) (g : Nat) : State := (s.sfMove g .primary).sfMove g .secondary

theorem State.flag_sfMoves : (s.sfMoves g).flag (sfOf c) g = (s.sfEnters g c || (s.flag (sfOf c) g && !s.sfLeaves g c)) := by
  unfold State.sfMoves
  cases c with
  | primary => exact (State.flag_sfMove_apart _ g .secondary (by decide) (by decide) (by decide)).trans (s.flag_sfMove_same g .primary)
  | secondary =>
    obtain ⟨enters, leaves⟩ := s.sf_secondary_sfMove_primary g
    rw [State.flag_sfMove_same, enters, leaves, sfOf, State.flag_sfMove_apart _ _ _ (by decide) (by decide) (by decide)]

/-- A copy's SF as its runs ask, and the alarms of both copies' SF (05 Table 05-5). -/
theorem State.sfJudge_facts {g : Nat} (hg : g < 256) :
    (s.sfJudge g).flag (sfOf c) g = (s.sfEnters g c || (s.flag (sfOf c) g && !s.sfLeaves g c)) ∧
    (s.sfJudge g).active A.protCopyFail g = ((s.sfJudge g).flag F.protGroupStatePSf g != (s.sfJudge g).flag F.protGroupStateSSf g) ∧
    (s.sfJudge g).active A.protBothFail g = ((s.sfJudge g).flag F.protGroupStatePSf g && (s.sfJudge g).flag F.protGroupStateSSf g) := by
  have settled : Settles g (s.sfMoves g) (s.sfJudge g) := (s.sfMoves g).protSettle_settles g
  have kept : keptBySettling (sfOf c) = true := by cases c <;> decide
  rw [settled.flag kept, settled.flag (by decide), settled.flag (by decide)]
  exact ⟨s.flag_sfMoves g c, (s.sfMoves g).active_protSettle hg⟩

end

/-- The tick that the last edge closed, as what falls at its end sees it. -/
def State.closingTick (s : State) : State := { s with tick := { s.tick with closing := true } }

/-- What is done at the end of a tick leaves to be read what it leaves on the closing tick, of all that is no matter of the tick itself. -/
theorem completes_atEnd {i : Instr} {s x : State} {f : State → State} {Q : State → Prop} (run : exec i s = .next (x.atEnd f))
    (done : Q (f x.closingTick)) (tickless : ∀ y v, Q y → Q { y with tick := v }) : Completes i s Q :=
  ⟨_, run, tickless (f x.closingTick) _ done⟩

section
variable {g : GroupId} {s : State}

/-- A copy judged at the end of a tick is in SF exactly where it enters now, or was in SF and does not leave now. -/
theorem completes_sfJudge {i : Instr} {c : Copy} (run : exec i s = .next (s.atEnd (·.sfJudge g))) : Completes i s fun t =>
    t.flag (sfOf c) g = (s.sfEnters g c || (s.flag (sfOf c) g && !s.sfLeaves g c)) ∧
    t.active A.protCopyFail g = (t.flag F.protGroupStatePSf g != t.flag F.protGroupStateSSf g) ∧
    t.active A.protBothFail g = (t.flag F.protGroupStatePSf g && t.flag F.protGroupStateSSf g) :=
  completes_atEnd run (s.closingTick.sfJudge_facts c (by omega)) fun _ _ h => h

/-- A copy that leaves SF is in it, so that it does not enter it. -/
theorem State.not_sfEnters_of_sfLeaves {c : Copy} (h : s.sfLeaves g c = true) : s.sfEnters g c = false := by
  unfold State.sfLeaves at h
  unfold State.sfEnters
  dsimp only at h ⊢
  simp only [Bool.and_eq_true] at h
  obtain ⟨⟨-, failed⟩, -⟩ := h
  rw [failed, Bool.not_true, Bool.and_false, Bool.false_and]

theorem completes_protSfEntry (c : Copy) (h : s.sfEnters g c = true) : Completes (.protSfEntry g c) s fun t =>
    t.flag (sfOf c) g = true ∧
    t.active A.protCopyFail g = (t.flag F.protGroupStatePSf g != t.flag F.protGroupStateSSf g) ∧
    t.active A.protBothFail g = (t.flag F.protGroupStatePSf g && t.flag F.protGroupStateSSf g) := by
  have due : exec (.protSfEntry g c) s = .next (s.atEnd (·.sfJudge g)) := congrArg Host.Outcome.next (State.when_pos h)
  obtain ⟨t, run, shown, alarms⟩ := completes_sfJudge (c := c) due
  exact ⟨t, run, by rw [shown, h, Bool.true_or], alarms⟩

theorem completes_protSfExit (c : Copy) (h : s.sfLeaves g c = true) : Completes (.protSfExit g c) s fun t =>
    t.flag (sfOf c) g = false ∧
    t.active A.protCopyFail g = (t.flag F.protGroupStatePSf g != t.flag F.protGroupStateSSf g) ∧
    t.active A.protBothFail g = (t.flag F.protGroupStatePSf g && t.flag F.protGroupStateSSf g) := by
  have due : exec (.protSfExit g c) s = .next (s.atEnd (·.sfJudge g)) := congrArg Host.Outcome.next (State.when_pos h)
  obtain ⟨t, run, shown, alarms⟩ := completes_sfJudge (c := c) due
  exact ⟨t, run, by rw [shown, h, State.not_sfEnters_of_sfLeaves h, Bool.not_true, Bool.and_false, Bool.or_self], alarms⟩

end

/-! ### Signal degrade (05 R111) -/

/-- Whether a copy is in SD after a window of `len` ticks. -/
def State.sdAfter (s : State) (len g : Nat) (c : CopyH) (sf : Bool) : Bool :=
  !sf && decide (s.rd F.protGroupCfgSdThresh g ≠ 0) && decide ((s.rd F.protGroupCfgSdThresh g * len + 4799) / 4800 ≤ c.sdCount)

/-- A group's SD bits after a window of `len` ticks, its counts begun again. -/
def State.sdShown (s : State) (len g : Nat) : State :=
  ((s.setFlag F.protGroupStatePSd g (s.sdAfter len g (s.group g).p (s.flag F.protGroupStatePSf g))).setFlag F.protGroupStateSSd g
    (s.sdAfter len g (s.group g).s (s.flag F.protGroupStateSSf g))).setGroup g { s.group g with
      p := { (s.group g).p with sdCount := 0 }, s := { (s.group g).s with sdCount := 0 } }

section
variable (s : State) (len g : Nat)

theorem State.sdJudge_eq : s.sdJudge len g = (s.sdShown len g).protSettle g := rfl

/-- What the end of an SD window decides of group `j`: words and runs that its judgement reads, and the window still to judge. -/
def State.sdRead (j : Nat) (s : State) : Word × Word × GroupH × Nat :=
  (s.word .protGroupState j, s.word .protGroupCfg j, (s.group j).held, s.prot.sdEnded)

theorem State.sdRead_sdJudge_other {j : Nat} (hj : j ≠ g) : State.sdRead j (s.sdJudge len g) = State.sdRead j s := by
  have settled := (s.sdShown len g).protSettle_settles g
  have words : ∀ q, (s.sdShown len g).word q j = s.word q j := fun q => by
    rw [State.sdShown, State.setGroup_word, State.setFlag, State.word_wr_other _ _ (.inr hj.symm), State.setFlag,
      State.word_wr_other _ _ (.inr hj.symm)]
  have record : (s.sdShown len g).group j = s.group j := by
    rw [State.sdShown, State.group_setGroup, if_neg hj]
    rfl
  unfold State.sdRead
  rw [State.sdJudge_eq, settled.word _ _ hj (by decide), settled.word _ _ hj (by decide), settled.held, settled.sdEnded, words, words, record]
  rfl

/-- The judgement of a group at the end of an SD window. -/
theorem State.sdJudge_facts : (s.sdJudge len g).prot.sdEnded = s.prot.sdEnded ∧
    (s.sdJudge len g).flag F.protGroupStatePSd g = s.sdAfter len g (s.group g).p (s.flag F.protGroupStatePSf g) ∧
    (s.sdJudge len g).flag F.protGroupStateSSd g = s.sdAfter len g (s.group g).s (s.flag F.protGroupStateSSf g) ∧
    ((s.sdJudge len g).group g).p.sdCount = 0 ∧ ((s.sdJudge len g).group g).s.sdCount = 0 := by
  have settled := (s.sdShown len g).protSettle_settles g
  have record : ((s.sdShown len g).group g).p.sdCount = 0 ∧ ((s.sdShown len g).group g).s.sdCount = 0 := by
    rw [State.sdShown, State.group_setGroup_same]
    exact ⟨rfl, rfl⟩
  obtain ⟨-, -, -, heldP, heldS, -⟩ := GroupH.eq_of_held (settled.held g)
  rw [State.sdJudge_eq]
  refine ⟨settled.sdEnded, ?_, ?_, ?_, ?_⟩
  · rw [settled.flag (by decide), State.sdShown, State.flag_congr (State.setGroup_word ..),
      State.flag_setFlag_apart _ _ _ _ (by decide) (by decide), State.flag_setFlag _ _ _ _ rfl (by decide)]
  · rw [settled.flag (by decide), State.sdShown, State.flag_congr (State.setGroup_word ..), State.flag_setFlag _ _ _ _ rfl (by decide)]
  · exact (congrArg CopyH.sdCount heldP).trans record.1
  · exact (congrArg CopyH.sdCount heldS).trans record.2

/-- One group's turn at the end of an SD window. -/
def State.sdRound (len g : Nat) (s : State) : State := if (s.group g).en then s.sdJudge len g else s

theorem State.sdRead_sdRound_other {j : Nat} (hj : g ≠ j) : State.sdRead j (s.sdRound len g) = State.sdRead j s := by
  unfold State.sdRound
  split
  · exact s.sdRead_sdJudge_other len g hj.symm
  · rfl

end

/-- The end of an SD window judges each enabled group by its own words and runs (05 R111). -/
theorem State.sdRounds_facts (s : State) (len : Nat) (g : GroupId) (hen : (s.group g).en = true) :
    (s.eachN 64 (State.sdRound len)).prot.sdEnded = s.prot.sdEnded ∧
    (s.eachN 64 (State.sdRound len)).flag F.protGroupStatePSd g = s.sdAfter len g (s.group g).p (s.flag F.protGroupStatePSf g) ∧
    (s.eachN 64 (State.sdRound len)).flag F.protGroupStateSSd g = s.sdAfter len g (s.group g).s (s.flag F.protGroupStateSSf g) ∧
    ((s.eachN 64 (State.sdRound len)).group g).p.sdCount = 0 ∧ ((s.eachN 64 (State.sdRound len)).group g).s.sdCount = 0 := by
  obtain ⟨y, hy, e⟩ := State.eachN_read_round (State.sdRead g) g.isLt s (State.sdRound len) fun k y hk => y.sdRead_sdRound_other len k hk
  simp only [State.sdRead, Prod.mk.injEq] at hy e
  obtain ⟨yState, yCfg, yHeld, yEnded⟩ := hy
  obtain ⟨-, -, yEn, yP, yS, -⟩ := GroupH.eq_of_held yHeld
  have enabled : (y.group g).en = true := yEn.trans hen
  rw [State.sdRound, if_pos enabled] at e
  obtain ⟨state, -, held, ended⟩ := e
  obtain ⟨-, -, -, heldP, heldS, -⟩ := GroupH.eq_of_held held
  obtain ⟨jEnded, jP, jS, jpCount, jsCount⟩ := y.sdJudge_facts len g
  have thresh : y.rd F.protGroupCfgSdThresh g = s.rd F.protGroupCfgSdThresh g := State.rd_congr yCfg
  refine ⟨ended.trans (jEnded.trans yEnded), ?_, ?_, ?_, ?_⟩
  · rw [State.flag_congr (f := F.protGroupStatePSd) state, jP, State.sdAfter, State.sdAfter, thresh,
      State.flag_congr (f := F.protGroupStatePSf) yState, yP]
  · rw [State.flag_congr (f := F.protGroupStateSSd) state, jS, State.sdAfter, State.sdAfter, thresh,
      State.flag_congr (f := F.protGroupStateSSf) yState, yS]
  · exact (congrArg CopyH.sdCount heldP).trans jpCount
  · exact (congrArg CopyH.sdCount heldS).trans jsCount

section
variable {g : GroupId} {s : State}

theorem completes_protSdWindowEnd (due : s.prot.sdEnded ≠ 0) (hen : (s.group g).en = true) : Completes .protSdWindowEnd s fun t =>
    t.prot.sdEnded = 0 ∧
    t.flag F.protGroupStatePSd g = s.sdAfter s.prot.sdEnded g (s.group g).p (s.flag F.protGroupStatePSf g) ∧
    t.flag F.protGroupStateSSd g = s.sdAfter s.prot.sdEnded g (s.group g).s (s.flag F.protGroupStateSSf g) ∧
    (t.group g).p.sdCount = 0 ∧ (t.group g).s.sdCount = 0 := by
  have run : exec .protSdWindowEnd s = .next ({ s with prot := { s.prot with sdEnded := 0 } }.atEnd
      (·.eachN 64 (State.sdRound s.prot.sdEnded))) := congrArg Host.Outcome.next (State.when_pos (decide_eq_true due))
  exact completes_atEnd run (State.sdRounds_facts _ s.prot.sdEnded g hen) fun _ _ h => h

/-! ### WTR, misalignment and FRESH (05 R109, R112, R120) -/

/-- WTR stopped, with nothing left of it. -/
theorem State.wtrStopped_facts (s : State) (g : Nat) :
    ((s.setFlag F.protGroupStateWtrRun g false).wtrLeft g).flag F.protGroupStateWtrRun g = false ∧
    ((s.setFlag F.protGroupStateWtrRun g false).wtrLeft g).rd F.protGroupStateWtrLeft g = 0 := by
  have stopped : (s.setFlag F.protGroupStateWtrRun g false).flag F.protGroupStateWtrRun g = false := State.flag_setFlag _ _ _ _ rfl (by decide)
  unfold State.wtrLeft
  dsimp only
  rw [stopped, if_neg (by decide)]
  exact ⟨(State.flag_wr_apart _ _ _ _ (by decide) (by decide)).trans stopped, State.rd_wr _ F.protGroupStateWtrLeft _ _ (by decide)⟩

/-- Of a group's state its alarms write GSTATE alone. -/
theorem State.rd_protAlarms (s : State) (g j : Nat) {f : Field} (hf : F.protGroupStateGstate.apart f = true) (hg : f.lo + f.width ≤ 64)
    (quiet : Foot.alarm.hasReg f.reg = false) : (s.protAlarms g).rd f j = s.rd f j := by
  rw [State.protAlarms_eq, State.rd_wr_apart _ _ _ _ hf hg]
  exact (s.protShowAlarms_within g).rd quiet j

theorem completes_protWtrEnd (running : s.flag F.protGroupStateWtrRun g = true)
    (due : max 1 (s.rd F.protGroupCfgWtr g) * 480 ≤ (s.group g).wtrRan) : Completes (.protWtrEnd g) s fun t =>
      t.flag F.protGroupStateWtrRun g = false ∧ t.rd F.protGroupStateWtrLeft g = 0 := by
  have run : exec (.protWtrEnd g) s = .next (s.atEnd fun s =>
      (((s.setFlag F.protGroupStateWtrRun g false).wtrLeft g).protAlarms g).protRenote g) :=
    congrArg Host.Outcome.next (State.when_pos (by rw [running, Bool.true_and]; exact decide_eq_true due))
  refine completes_atEnd run ?_ fun _ _ h => h
  obtain ⟨stopped, left⟩ := s.closingTick.wtrStopped_facts g
  constructor
  · rw [State.flag, (State.protRenote_within ..).rd (Nat.zero_testBit _), State.rd_protAlarms _ _ _ (by decide) (by decide) (by decide)]
    exact stopped
  · rw [(State.protRenote_within ..).rd (Nat.zero_testBit _), State.rd_protAlarms _ _ _ (by decide) (by decide) (by decide)]
    exact left

theorem completes_protMisalignedRaise (hen : (s.group g).en = true) (long : 48 ≤ (s.group g).differRun) :
    Completes (.protMisalignedRaise g) s fun t =>
      t.flag F.protGroupStateMisaligned g = true ∧ t.active A.protMisaligned g = true := by
  have run : exec (.protMisalignedRaise g) s = .next (s.atEnd fun s =>
      (s.setFlag F.protGroupStateMisaligned g true).raise A.protMisaligned g) :=
    congrArg Host.Outcome.next (State.when_pos (by rw [hen, Bool.true_and]; exact decide_eq_true long))
  refine completes_atEnd run ⟨?_, ?_⟩ fun _ _ h => h
  · rw [State.flag_raise _ _ _ _ _ (by decide), State.flag_setFlag _ _ _ _ rfl (by decide)]
  · rw [State.active_raise _ _ _ _ _ (by omega), decide_eq_true rfl, decide_eq_true rfl, Bool.and_self, Bool.or_true]

theorem completes_protMisalignedClear (long : 48 ≤ (s.group g).equalRun) : Completes (.protMisalignedClear g) s fun t =>
    t.flag F.protGroupStateMisaligned g = false ∧ t.active A.protMisaligned g = false := by
  have run : exec (.protMisalignedClear g) s = .next (s.atEnd fun s =>
      (s.setFlag F.protGroupStateMisaligned g false).clear A.protMisaligned g) :=
    congrArg Host.Outcome.next (State.when_pos (decide_eq_true long))
  refine completes_atEnd run ⟨?_, ?_⟩ fun _ _ h => h
  · rw [State.flag_clear _ _ _ _ _ (by decide), State.flag_setFlag _ _ _ _ rfl (by decide)]
  · rw [State.active_clear _ _ _ _ _ (by omega), decide_eq_true rfl, decide_eq_true rfl, Bool.and_self, Bool.not_true, Bool.and_false]

/-- FRESH of a leg cleared in its register's word: the other leg's half stays. -/
theorem fresh_cleared (w : Nat) {k : Nat} (hk : k < 2) :
    bit (BitVec.ofNat 64 (setBit w (16 * k + 8) false)).toNat (16 * k + 8) = false ∧
    field (BitVec.ofNat 64 (setBit w (16 * k + 8) false)).toNat (16 * (1 - k)) 16 = field w (16 * (1 - k)) 16 := by
  constructor
  · rw [BitVec.toNat_ofNat, bit_mod (by omega), bit_setBit, if_pos rfl]
  · rw [field_ofNat (by omega), setBit_eq, field_putField_other (by omega)]

theorem completes_protRxFreshExpire (bridge : Bool) (leg : Copy) (r : Reg) (k : Nat) (hr : r = if bridge then Reg.protRxBridge else .protRxGroup)
    (hk : k = match leg with | .primary => 0 | .secondary => 1) (fresh : bit (s.word r g).toNat (16 * k + 8) = true)
    (due : Tbl.get 0 s.prot.rxTick (legKey bridge g k) + 48 ≤ s.tick.n) : Completes (.protRxFreshExpire bridge g leg) s fun t =>
      bit (t.word r g).toNat (16 * k + 8) = false ∧
      field (t.word r g).toNat (16 * (1 - k)) 16 = field (s.word r g).toNat (16 * (1 - k)) 16 := by
  have run : exec (.protRxFreshExpire bridge g leg) s = .next ((s.setWord r g (BitVec.ofNat 64
      (setBit (s.word r g).toNat (16 * k + 8) false))).protRxAlarms bridge g) := by
    subst hr hk
    exact congrArg Host.Outcome.next (State.when_pos (by rw [Bool.and_eq_true]; exact ⟨fresh, decide_eq_true due⟩))
  have quiet : ((s.setWord r g (BitVec.ofNat 64 (setBit (s.word r g).toNat (16 * k + 8) false))).protRxAlarms bridge g).word r g =
      BitVec.ofNat 64 (setBit (s.word r g).toNat (16 * k + 8) false) := by
    refine ((State.protRxAlarms_within ..).word r ?_ g).trans (State.word_setWord_same ..)
    subst hr
    cases bridge <;> decide
  have leg : k < 2 := by
    subst hk
    cases leg <;> decide
  refine ⟨_, run, ?_⟩
  dsimp only
  rw [quiet]
  exact fresh_cleared _ leg

end

/-- Settles O33: a configuration over what holds until the next edge, each copy's SF by its own runs, SD round by round, and the ends of WTR, of a
misalignment and of a message's freshness by what follows them. -/
theorem groupsFollowTheirRuns : Obligations.GroupsFollowTheirRuns := fun _ _ =>
  ⟨completes_protCfgWrite, fun | .primary => completes_protSfEntry .primary | .secondary => completes_protSfEntry .secondary,
    fun | .primary => completes_protSfExit .primary | .secondary => completes_protSfExit .secondary, completes_protSdWindowEnd, completes_protWtrEnd,
    completes_protMisalignedRaise, completes_protMisalignedClear, completes_protRxFreshExpire⟩

end Sys2Proof.Machine

/-! Mix-minus: what a MINUS entry takes of its sorus is the sum of the terms beside its listener's own (06 R132; 07 R157, R162 to R167). -/

namespace Sys2Proof.Machine

/-- A SUM entry's value over an unpoisoned sorus (07 R162). -/
theorem entryOut_sum {e : Nat} (op : entryOp e = opSum) (r : SrcRead) (v : BitVec 56) :
    entryOut e r (some v) = .value ⟨stationSample e (rhu (v.toInt * gainOf (entryGain e)) 40), true, false, 0⟩ := by
  simp only [entryOut, op]
  rfl

/-- A MINUS entry that is paired with its own term, its own read not FAULTED, takes from its sorus what that term put into it (07 R164, R165). -/
theorem entryOut_minus {own e : Nat} {r : SrcRead} (op : entryOp e = opMinus) (usable : r ≠ .faulted) (gain : entryOwn e = termGain own)
    (pass : entryTalkpass e = !termGate own) (v : BitVec 56) : entryOut e r (some v) =
      .value ⟨stationSample e (rhu ((v - termValue own r).toInt * gainOf (entryGain e)) 40), true, false, 0⟩ := by
  have nothing : v - 0 = v := BitVec.sub_zero v
  have absent : asL24 r = .absent → entryOut e r (some v) =
      .value ⟨stationSample e (rhu ((v - termValue own r).toInt * gainOf (entryGain e)) 40), true, false, 0⟩ := fun h => by
    simp only [entryOut, termValue, op, h, nothing]
    rfl
  cases r with
  | faulted => exact absurd rfl usable
  | absent => exact absent rfl
  | good w =>
    by_cases valid : slotValid w = true
    · have read : asL24 (.good w) = .good w := if_pos valid
      simp only [entryOut, termValue, op, read, gain, pass]
      by_cases taken : (!termGate own || slotTalk w) = true
      · simp only [taken]
        rfl
      · simp only [taken, Bool.false_eq_true, if_false, nothing]
        rfl
    · exact absent (if_neg valid)

/-- Additions modulo 2^n do not depend on their order (06 R132). -/
theorem sum_eq_of_perm {n : Nat} {xs ys : List (BitVec n)} (h : xs.Perm ys) : xs.sum = ys.sum := by
  induction h with
  | nil => rfl
  | cons x _ ih => rw [List.sum_cons, List.sum_cons, ih]
  | swap x y l => rw [List.sum_cons, List.sum_cons, List.sum_cons, List.sum_cons, ← BitVec.add_assoc, BitVec.add_comm y,
      BitVec.add_assoc]
  | trans _ _ first second => exact first.trans second

/-- A sorus less its listener's own term, in whatever order its terms were added (07 R166). -/
theorem sum_sub_own {α : Type} {own : α} {others all : List α} (f : α → BitVec 56) (h : all.Perm (own :: others)) :
    (all.map f).sum - f own = (others.map f).sum := by
  rw [sum_eq_of_perm (h.map f), List.map_cons, List.sum_cons, BitVec.add_comm, BitVec.add_sub_cancel]

theorem sum_map_ofInt (n : Nat) (vs : List Int) : (vs.map (BitVec.ofInt n)).sum = BitVec.ofInt n vs.sum := by
  induction vs with
  | nil => rfl
  | cons v vs ih => rw [List.map_cons, List.sum_cons, List.sum_cons, ih, BitVec.ofInt_add]

/-- A sum modulo 2^56 is the true sum where that lies in range (07 R166). -/
theorem toInt_sum_ofInt {vs : List Int} (lo : -(2 ^ 55) ≤ vs.sum) (hi : vs.sum < 2 ^ 55) : (vs.map (BitVec.ofInt 56)).sum.toInt = vs.sum := by
  rw [sum_map_ofInt, BitVec.toInt_ofInt]
  exact Int.bmod_eq_of_le (by omega) (by omega)

/-- Settles O11: the own term is taken out of the sum bit for bit, and the rest is the others' sum in whatever order the terms were added. -/
theorem mixMinusIsExact : Obligations.MixMinusIsExact := by
  refine ⟨fun own e e' r r' others all perm usable minus sum ownGain pass gain lim _ => ?_, fun _ => toInt_sum_ofInt⟩
  rw [entryOut_minus minus usable ownGain pass, entryOut_sum sum, sum_sub_own (fun x => termValue x.1 x.2) perm, gain]
  unfold stationSample
  rw [lim]

end Sys2Proof.Machine

/-! The core's status: what the clears of the schedule's alarms and a read of CORE_SLACK leave to be read (06 R141, R146). -/

namespace Sys2Proof.Machine

/-! ### Clears of the schedule's alarms (06 Tables 06-6, 06-9) -/

theorem State.overrunClear_facts (s : State) : s.overrunClear.flag F.coreStatusOverrun 0 = false ∧
    s.overrunClear.rd F.coreStatusOvrStation 0 = 0 ∧ s.overrunClear.rd F.coreStatusOvrSlot 0 = 0 ∧
    s.overrunClear.core = { s.core with overrunClear := s.core.overrunClear ++ [s.tick.n] } := by
  have shown : Within (.of [.core] []) (((s.setFlag F.coreStatusOverrun 0 false).wr F.coreStatusOvrStation 0 0).wr F.coreStatusOvrSlot 0 0)
      s.overrunClear := .set_core (.refl ..) (by decide)
  refine ⟨(shown.flag (by decide) 0).trans ?_, (shown.rd (by decide) 0).trans ?_, (shown.rd (by decide) 0).trans ?_, ?_⟩
  · exact (State.flag_wr_apart _ _ _ _ (by decide) (by decide)).trans ((State.flag_wr_apart _ _ _ _ (by decide) (by decide)).trans
      (State.flag_setFlag _ _ _ _ rfl (by decide)))
  · exact (State.rd_wr_apart _ _ _ _ (by decide) (by decide)).trans (State.rd_wr _ _ _ _ (by decide))
  · exact State.rd_wr _ _ _ _ (by decide)
  · unfold State.overrunClear
    dsimp only
    rw [State.wr_core, State.wr_core, State.setFlag_core, State.wr_tick, State.wr_tick, State.setFlag_tick]

/-- With both flags cleared the clear of the clash is noted. -/
theorem State.clashClear_facts (s : State) : (s.clashClear true true).flag F.coreStatusClash 0 = false ∧
    (s.clashClear true true).flag F.coreStatusPostClash 0 = false ∧
    (s.clashClear true true).core = { s.core with clashClear := s.core.clashClear ++ [s.tick.n] } := by
  have clash : ((s.setFlag F.coreStatusClash 0 false).setFlag F.coreStatusPostClash 0 false).flag F.coreStatusClash 0 = false :=
    (State.flag_setFlag_apart _ _ _ _ (by decide) (by decide)).trans (State.flag_setFlag _ _ _ _ rfl (by decide))
  have post : ((s.setFlag F.coreStatusClash 0 false).setFlag F.coreStatusPostClash 0 false).flag F.coreStatusPostClash 0 = false :=
    State.flag_setFlag _ _ _ _ rfl (by decide)
  have noted : s.clashClear true true = { (s.setFlag F.coreStatusClash 0 false).setFlag F.coreStatusPostClash 0 false with
      core := { s.core with clashClear := s.core.clashClear ++ [s.tick.n] } } := if_neg (by simp [State.when, clash, post])
  have shown : Within (.of [.core] []) ((s.setFlag F.coreStatusClash 0 false).setFlag F.coreStatusPostClash 0 false) (s.clashClear true true) :=
    noted ▸ .set_core (.refl ..) (by decide)
  exact ⟨(shown.flag (by decide) 0).trans clash, (shown.flag (by decide) 0).trans post, congrArg State.core noted⟩

section
variable {m : Master} {s : State}

theorem completes_scheduleOverrunClear (hr : s.reaches m 18 true = true) : Completes (.scheduleOverrunClear m) s fun t =>
    t.flag F.coreStatusOverrun 0 = false ∧ t.rd F.coreStatusOvrStation 0 = 0 ∧ t.rd F.coreStatusOvrSlot 0 = 0 ∧
      t.core = { s.core with overrunClear := s.core.overrunClear ++ [s.tick.n] } ∧ t.act = s.act := by
  obtain ⟨x, hx, access⟩ := s.byReg_ok m .coreStatus 0 8 true (·.overrunClear) hr
  obtain ⟨overrun, station, slot, core⟩ := x.overrunClear_facts
  rw [hx.core (by decide), hx.tick (by decide)] at core
  exact ⟨_, congrArg Host.Outcome.next access, overrun, station, slot, core, (x.overrunClear_within.act (by decide)).trans (hx.act (by decide))⟩

theorem completes_scheduleClashClear (hr : s.reaches m 18 true = true) : Completes (.scheduleClashClear m) s fun t =>
    t.flag F.coreStatusClash 0 = false ∧ t.flag F.coreStatusPostClash 0 = false ∧
      t.core = { s.core with clashClear := s.core.clashClear ++ [s.tick.n] } ∧ t.act = s.act := by
  obtain ⟨x, hx, access⟩ := s.byReg_ok m .coreStatus 0 8 true (·.clashClear true true) hr
  obtain ⟨clash, post, core⟩ := x.clashClear_facts
  rw [hx.core (by decide), hx.tick (by decide)] at core
  exact ⟨_, congrArg Host.Outcome.next access, clash, post, core, ((x.clashClear_within true true).act (by decide)).trans (hx.act (by decide))⟩

/-- A read that clears its register answers the word from before (06 Table 06-10). -/
theorem completes_coreSlackRead (k : StationId) (hr : s.reaches m 18 false = true) : Completes (.coreSlackRead m k) s fun t =>
    t.word .coreSlack k = 0 ∧ Tbl.get {} t.bus.answers (masterNum m) = ⟨true, toBytes 8 (s.word .coreSlack k).toNat⟩ := by
  obtain ⟨x, hx, access⟩ := s.byReg_ok m .coreSlack k 8 false
    (fun s => (s.answer m true (toBytes 8 (s.word .coreSlack k).toNat)).setWord .coreSlack k 0) hr
  refine ⟨_, congrArg Host.Outcome.next access, State.word_setWord_same .., ?_⟩
  rw [← hx.word .coreSlack (by decide)]
  exact State.answers_answer ..

end

/-- Settles O34: each access is carried out on a state that differs by its counts alone, where what it clears and notes is read off. -/
theorem scheduleAlarmsAndSlackAreCleared : Obligations.ScheduleAlarmsAndSlackAreCleared := fun _ _ =>
  ⟨completes_scheduleOverrunClear, completes_scheduleClashClear, completes_coreSlackRead⟩

end Sys2Proof.Machine

/-! Epochs: what the four steps of a swap leave to be read (08 R200 to R202, Table 08-9; 05 R117; 06 R125). -/

namespace Sys2Proof.Machine

/-! ### An almanac's registers -/

/-- What the loading of an almanac's registers may touch. -/
def Foot.loaded : Foot := .of [] loadedRegs

theorem Foot.loaded_hasReg : ∀ r ∈ loadedRegs, Foot.loaded.hasReg r = true := by decide

theorem Reg.isLoaded.mem {r : Reg} {i : Nat} (h : r.isLoaded i = true) : r ∈ loadedRegs :=
  List.contains_iff_mem.1 (Bool.and_eq_true_iff.1 h).1

theorem State.loadRegs_loaded (s : State) (regs : List (Nat × Word)) : Within .loaded s (s.loadRegs regs) := by
  unfold State.loadRegs
  refine Within.each _ _ (.each_mem _ _ (.refl ..) fun r hr y hy => hy.eachN _ _ fun j z hz => ?_) fun a y hy => ?_
  · exact .ite hz (hz.setWord _ _ _ (Foot.loaded_hasReg r hr))
  · split
    next r i _ =>
      split
      next loaded => exact hy.setWord _ _ _ (Foot.loaded_hasReg r (Reg.isLoaded.mem (Bool.and_eq_true_iff.1 loaded).1))
      next => exact hy
    next => exact hy

/-! ### At e (08 R200) -/

/-- What the registers loaded at e bring about in the blocks that read them. -/
def Foot.rewired : Foot := (Foot.quad.plus .loaded).plus (.of [.prot, .core, .ecc] [.mateState, .sysFuncState, .sysFuncStarts, .lagState,
  .linkWiringEntry, .protGroupCmd, .protGroupState, .protCmdRefused, .eccStatus, .eccTrack, .coreStationDis])

/-- What e changes: slots and images, then what follows from the new registers, then ESTATE and ALM_ARMED. -/
theorem State.swapAtE_eq (s : State) : ∃ x, Within .rewired s.swapSlots.swapImage x ∧
    s.swapAtE = (x.wr F.almStateEstate 0 eSwapping).setWord .almArmed 0 0 := by
  refine ⟨_, ?_, rfl⟩
  refine .after (State.clear_within ..) (.after (State.stationSync_within _) (.after (State.legSync_within _) (.after (State.mateCfgSync_within _)
    ?_ (by decide)) (by decide)) (by decide)) (by decide)
  refine .eachN _ _ (.after (State.refsSync_within _) (.eachN _ _ (.after (State.swapUps_within _) (.eachN _ _ (.after (State.lagSync_within _)
    (.eachN _ _ (.eachN _ _ (.mono (State.loadRegs_loaded ..) (by decide)) ?_) ?_) (by decide)) ?_) (by decide)) ?_) (by decide)) ?_
  · exact fun _ _ h => .after (State.swapQuad_within ..) h (by decide)
  · exact fun _ _ h => .after (State.fenceSync_within ..) h (by decide)
  · exact fun _ _ h => .after (State.protSync_within ..) h (by decide)
  · exact fun _ _ h => .after (State.refReconf_within ..) h (by decide)
  · exact fun _ _ h => .after (State.wiringCheck_within ..) h (by decide)

/-- What an update keeps, it keeps where it is done on a condition. -/
theorem State.read_when {β : Type} (p : State → β) {s : State} {b : Bool} {f : State → State} (hf : ∀ y, p (f y) = p y) :
    p (s.when b f) = p s := by
  cases b
  · rfl
  · exact hf s

theorem State.swapSlots_alm (s : State) : s.swapSlots.alm = { s.alm with oldSlot := s.rd F.almStateActiveSlot 0 } := by
  unfold State.swapSlots
  dsimp only
  rw [State.wr_alm, State.read_when State.alm (fun y => (y.setSlot_within _ _).alm (by decide)),
    State.read_when State.alm (fun y => (y.setSlot_within _ _).alm (by decide))]

theorem State.activeSlot_swapSlots (s : State) : s.swapSlots.rd F.almStateActiveSlot 0 = s.rd F.almStateShadowSlot 0 :=
  (State.rd_wr _ _ _ _ (by decide)).trans (Nat.mod_eq_of_lt (s.rd_lt_two_pow F.almStateShadowSlot 0))

theorem State.swapImage_alm (s : State) : s.swapImage.alm.active = s.alm.shadow ∧ s.swapImage.alm.shadow = s.alm.active ∧
    s.swapImage.alm.swapTick = s.tick.n ∧ s.swapImage.alm.swapStage = 0 := by
  unfold State.swapImage
  dsimp only
  rw [State.wr_alm, State.wr_alm, State.wr_alm, State.setFlag_alm, State.setWord_alm,
    State.read_when State.alm fun _ => (State.setFlag_alm ..).trans (State.wr_alm ..)]
  exact ⟨rfl, rfl, rfl, rfl⟩

theorem State.setid_swapImage (s : State) : s.swapImage.word .almActiveSetid 0 = s.alm.shadow.head.setid := by
  unfold State.swapImage State.setFlag
  dsimp only
  rw [State.word_wr_other _ _ (.inl (by decide)), State.word_wr_other _ _ (.inl (by decide)), State.word_wr_other _ _ (.inl (by decide)),
    State.word_wr_other _ _ (.inl (by decide)), State.word_setWord_same]

theorem State.activeSlot_swapImage (s : State) : s.swapImage.rd F.almStateActiveSlot 0 = s.rd F.almStateActiveSlot 0 := by
  have other : ∀ (y : State) {f : Field} (v : Nat), f.reg ≠ .almState → (y.wr f 0 v).rd F.almStateActiveSlot 0 = y.rd F.almStateActiveSlot 0 :=
    fun y _ _ hf => State.rd_congr (y.word_wr_other _ (.inl hf))
  unfold State.swapImage
  dsimp only
  rw [other _ _ (by decide), other _ _ (by decide), other _ _ (by decide), State.rd_setFlag_apart _ _ _ _ (by decide) (by decide),
    State.rd_congr (State.word_setWord_other _ _ (.inl (by decide)))]
  refine (State.read_when (State.rd · F.almStateActiveSlot 0) fun y => (other _ _ (by decide)).trans (other y _ (by decide))).trans ?_
  exact Within.rd (k := .of [.alm, .tim] []) (.set_alm_tim (.refl ..) (by decide) (by decide)) (by decide) 0

theorem completes_epochSwap {s : State} (committed : s.estate = 2) (due : 0 ≤ tdiff (s.rd F.almArmedArmedTick 0) s.now) :
    Completes .epochSwap s fun t => t.estate = 3 ∧ t.word .almArmed 0 = 0 ∧ t.alm.active = s.alm.shadow ∧ t.alm.shadow = s.alm.active ∧
      t.word .almActiveSetid 0 = s.alm.shadow.head.setid ∧ t.rd F.almStateActiveSlot 0 = s.rd F.almStateShadowSlot 0 ∧
      t.alm.swapTick = s.tick.n ∧ t.alm.swapStage = 0 := by
  obtain ⟨x, wired, ends⟩ := s.swapAtE_eq
  have run : exec .epochSwap s = .next ((x.wr F.almStateEstate 0 eSwapping).setWord .almArmed 0 0) :=
    congrArg Host.Outcome.next ((State.when_pos (Bool.and_eq_true_iff.2 ⟨decide_eq_true committed, decide_eq_true due⟩)).trans ends)
  obtain ⟨active, shadow, tick, stage⟩ := s.swapSlots.swapImage_alm
  have alm := wired.alm (by decide)
  rw [← alm] at active shadow tick stage
  rw [State.swapSlots_alm] at active shadow
  rw [s.swapSlots_within.tick (by decide)] at tick
  have unarmed : ∀ f : Field, f.reg = .almState → ((x.wr F.almStateEstate 0 eSwapping).setWord .almArmed 0 0).rd f 0 =
      (x.wr F.almStateEstate 0 eSwapping).rd f 0 := fun f hf => State.rd_congr (State.word_setWord_other _ _ (.inl (by rw [hf]; decide)))
  refine ⟨_, run, ?_, State.word_setWord_same .., active, shadow, ?_, ?_, tick, stage⟩
  · exact (unarmed _ rfl).trans (State.rd_wr _ _ _ _ (by decide))
  · rw [State.word_setWord_other _ _ (.inl (by decide)), State.word_wr_other _ _ (.inl (by decide)), wired.word _ (by decide),
      State.setid_swapImage, State.swapSlots_alm]
  · rw [unarmed _ rfl, State.rd_wr_apart _ _ _ _ (by decide) (by decide), wired.rd (by decide), State.activeSlot_swapImage,
      State.activeSlot_swapSlots]

/-! ### The steps from e + 1 to e + 3 (08 Table 08-9) -/

section
variable {s : State} {k : Nat}

theorem State.swapDue_of (swapping : s.estate = 3) (next : s.alm.swapStage = k) (due : s.alm.swapTick + (k + 1) ≤ s.tick.n) :
    s.swapDue (k + 1) = true := by
  simp [State.swapDue, swapping, next, due]

theorem State.swapDue_eq_false (h : s.estate ≠ 3 ∨ s.alm.swapStage ≠ k ∨ s.tick.n < s.alm.swapTick + (k + 1)) :
    s.swapDue (k + 1) = false := by
  simp only [State.swapDue, Bool.and_eq_false_iff, decide_eq_false_iff_not, Nat.add_right_cancel_iff, Nat.not_le]
  exact or_assoc.2 h

/-- A step of the swap out of its place or before its tick changes nothing (log entry 7). -/
theorem completes_swapStep_idle {c : Instr} {f : State → State} (run : exec c s = .next (s.when (s.swapDue (k + 1)) f))
    (h : s.estate ≠ 3 ∨ s.alm.swapStage ≠ k ∨ s.tick.n < s.alm.swapTick + (k + 1)) : Completes c s fun t => t = s :=
  ⟨s, run.trans (congrArg Host.Outcome.next (State.when_neg (State.swapDue_eq_false h))), rfl⟩

theorem completes_epochSumSwap (swapping : s.estate = 3) (next : s.alm.swapStage = 0) (due : s.alm.swapTick + 1 ≤ s.tick.n) :
    Completes .epochSumSwap s fun t => t.alm.swapStage = 1 ∧ t.core.terms = s.core.termShadow ∧ t.core.termShadow = s.core.terms ∧
      t.core.sumHalf = !s.core.sumHalf ∧ t.core.emit = s.core.emit ∧ t.estate = 3 := by
  have core : (s.swapSums.swapStep 1).core = { s.core with
      terms := s.core.termShadow, termShadow := s.core.terms, sumHalf := !s.core.sumHalf, termEdits := [] } :=
    (State.loadCounts_within ..).core (by decide)
  have run : execEpochSumSwap s = .next (s.swapSums.swapStep 1) := congrArg Host.Outcome.next (State.when_pos (State.swapDue_of swapping next due))
  refine ⟨_, run, rfl, ?_⟩
  rw [core]
  exact ⟨rfl, rfl, rfl, rfl, ((execEpochSumSwap_within s _ run).rd (by decide) 0).trans swapping⟩

theorem completes_epochEmitSwap (swapping : s.estate = 3) (next : s.alm.swapStage = 1) (due : s.alm.swapTick + 2 ≤ s.tick.n) :
    Completes .epochEmitSwap s fun t => t.alm.swapStage = 2 ∧ t.core.emit = s.core.emitShadow ∧ t.core.emitShadow = s.core.emit ∧
      t.core.emitHalf = !s.core.emitHalf ∧ t.core.terms = s.core.terms ∧ t.prot.bridges = s.bridgeWords ∧ t.estate = 3 := by
  have stations := State.stationSync_within { s.swapEmit with prot := { s.swapEmit.prot with bridges := s.swapEmit.bridgeWords } }
  have core : (s.swapEmit.bridgeSync.swapStep 2).core = s.swapEmit.core := stations.core (by decide)
  have prot : (s.swapEmit.bridgeSync.swapStep 2).prot = { s.swapEmit.prot with bridges := s.swapEmit.bridgeWords } := stations.prot (by decide)
  have run : execEpochEmitSwap s = .next (s.swapEmit.bridgeSync.swapStep 2) :=
    congrArg Host.Outcome.next (State.when_pos (State.swapDue_of swapping next due))
  refine ⟨_, run, rfl, ?_⟩
  rw [core, prot]
  exact ⟨rfl, rfl, rfl, rfl, rfl, ((execEpochEmitSwap_within s _ run).rd (by decide) 0).trans swapping⟩

end

/-! ### The swap complete (08 R200 to R202) -/

/-- Nothing is armed after a disarm, and SHADOW stays. -/
theorem State.disarm_facts (s : State) : s.disarm.estate = 0 ∧ s.disarm.word .almArmed 0 = 0 ∧ s.disarm.shadow = s.shadow := by
  have shown : Within (Foot.alarm.plus (.of [.alm] [.almArmed, .almArmDis])) ((s.wr F.almStateEstate 0 eIdle).setFlag F.almStateChained 0 false)
      s.disarm := .after (State.armIdle_within _) (.setWord _ _ _ (.set_alm (.refl ..) (by decide)) (by decide)) (by decide)
  refine ⟨(shown.rd (by decide) 0).trans ?_, ((State.armIdle_within _).word _ (by decide) 0).trans (State.word_setWord_same ..),
    (shown.rd (by decide) 0).trans ?_⟩
  · exact (State.rd_setFlag_apart _ _ _ _ (by decide) (by decide)).trans (State.rd_wr _ _ _ _ (by decide))
  · exact (State.rd_setFlag_apart _ _ _ _ (by decide) (by decide)).trans (State.rd_wr_apart _ _ _ _ (by decide) (by decide))

/-- A swap that is complete, shown and counted, before it is told and a chained epoch is armed. -/
def State.showSwapped (s : State) : State :=
  let s := (s.wr F.almStateShadow 0 shStale).disarm.count .almEpochs 0
  ({ s with log := { s.log with totals := { s.log.totals with epochs := s.log.totals.epochs + 1 } } }).setFlag F.almStateMissed 0 false

theorem State.showSwapped_facts (s : State) : s.showSwapped.word .almEpochs 0 = s.word .almEpochs 0 + 1 ∧
    s.showSwapped.flag F.almStateMissed 0 = false ∧ s.showSwapped.estate = 0 ∧ s.showSwapped.word .almArmed 0 = 0 ∧
    s.showSwapped.shadow = 3 := by
  obtain ⟨estate, armed, shadow⟩ := (s.wr F.almStateShadow 0 shStale).disarm_facts
  obtain ⟨x, noted, shown⟩ : ∃ x, Within (.of [.log] []) ((s.wr F.almStateShadow 0 shStale).disarm.count .almEpochs 0) x ∧
    s.showSwapped = x.setFlag F.almStateMissed 0 false := ⟨_, .set_log (.refl ..) (by decide), rfl⟩
  have kept : ∀ f : Field, f.reg = .almState → F.almStateMissed.apart f = true → f.lo + f.width ≤ 64 →
      s.showSwapped.rd f 0 = (s.wr F.almStateShadow 0 shStale).disarm.rd f 0 := fun f hf ha hg => by
    rw [shown, State.rd_setFlag_apart _ _ _ _ ha hg, noted.rd (by rw [hf]; decide), State.rd_count_other _ _ _ (by rw [hf]; decide)]
  refine ⟨?_, ?_, (kept _ rfl (by decide) (by decide)).trans estate, ?_,
    (kept _ rfl (by decide) (by decide)).trans (shadow.trans (State.rd_wr _ _ _ _ (by decide)))⟩
  · rw [shown, State.setFlag, State.word_wr_other _ _ (.inl (by decide)), noted.word _ (by decide), State.word_count,
      (State.disarm_within _).word _ (by decide), State.word_wr_other _ _ (.inl (by decide))]
  · rw [shown, State.flag_setFlag _ _ _ _ rfl (by decide)]
  · rw [shown, State.setFlag, State.word_wr_other _ _ (.inl (by decide)), noted.word _ (by decide), State.word_count_other _ (.inl (by decide)),
      armed]

/-- The completion of a swap: it is shown and counted, then told, then come a chained epoch, the audit, the mate and the boot loader. -/
theorem State.swapComplete_eq (s : State) : ∃ x e, Within .alarmEnd s.showSwapped x ∧
    Within (.of [.boot, .mate, .alm] [.sysBootStatus]) (x.when s.alm.follow (·.chainNext e)) s.swapComplete := by
  refine ⟨_, _, ?_, .ite (.after (State.bootNext_within _) (.set_boot (.set_mate (.after (State.auditBegin_within ..) (.refl ..) (by decide))
    (by decide)) (by decide)) (by decide)) (.set_mate (.after (State.auditBegin_within ..) (.refl ..) (by decide)) (by decide))⟩
  exact .after (State.logEvent_within ..) (.after (State.clear_within ..) (.refl ..) (by decide)) (by decide)

theorem State.arm_facts (s : State) (t e : Nat) (chained : Bool) : (s.arm t e chained).estate = 1 ∧
    (s.arm t e chained).flag F.almStateChained 0 = chained ∧ (s.arm t e chained).flag F.almStateMissed 0 = s.flag F.almStateMissed 0 := by
  have shown : Within (.of [] [.almArmed]) ((s.wr F.almStateEstate 0 eArmed).setFlag F.almStateChained 0 chained) (s.arm t e chained) :=
    .wr _ _ _ (.wr _ _ _ (.refl ..) (by decide)) (by decide)
  refine ⟨(shown.rd (by decide) 0).trans ?_, (shown.flag (by decide) 0).trans (State.flag_setFlag _ _ _ _ rfl (by decide)),
    (shown.flag (by decide) 0).trans ?_⟩
  · exact (State.rd_setFlag_apart _ _ _ _ (by decide) (by decide)).trans (State.rd_wr _ _ _ _ (by decide))
  · exact (State.flag_setFlag_apart _ _ _ _ (by decide) (by decide)).trans (State.flag_wr_apart _ _ _ _ (by decide) (by decide))

/-- The chained epoch is armed, whether its staging starts or has failed (08 R202). -/
theorem State.chainNext_facts (s : State) (e : Nat) : (s.chainNext e).estate = 1 ∧ (s.chainNext e).flag F.almStateChained 0 = true ∧
    (s.chainNext e).flag F.almStateMissed 0 = s.flag F.almStateMissed 0 := by
  unfold State.chainNext
  dsimp only
  obtain ⟨estate, chained, missed⟩ := State.arm_facts (if s.slotState (s.alm.active.head.nextSlot % 16) = slotAccepted then
      s.stageStart (s.alm.active.head.nextSlot % 16) true else (s.wr F.almStateShadow 0 shFailed).count .almStageFail 0)
    (tadd e s.alm.active.head.nextGap) (s.imageHead (s.alm.active.head.nextSlot % 16)).epoch.toNat true
  refine ⟨estate, chained, missed.trans ?_⟩
  split
  · have staged : Within (.of [.alm] []) ((s.wr F.almStateShadow 0 shStaging).wr F.almStateShadowSlot 0 (s.alm.active.head.nextSlot % 16))
        (s.stageStart (s.alm.active.head.nextSlot % 16) true) := .set_alm (.refl ..) (by decide)
    exact (staged.flag (by decide) 0).trans ((State.flag_wr_apart _ _ _ _ (by decide) (by decide)).trans
      (State.flag_wr_apart _ _ _ _ (by decide) (by decide)))
  · exact (State.flag_congr (State.word_count_other _ (.inl (by decide)))).trans (State.flag_wr_apart _ _ _ _ (by decide) (by decide))

theorem State.swapComplete_facts (s : State) : s.swapComplete.word .almEpochs 0 = s.word .almEpochs 0 + 1 ∧
    s.swapComplete.flag F.almStateMissed 0 = false ∧
    (s.alm.follow = false → s.swapComplete.estate = 0 ∧ s.swapComplete.word .almArmed 0 = 0 ∧ s.swapComplete.shadow = 3) ∧
    (s.alm.follow = true → s.swapComplete.estate = 1 ∧ s.swapComplete.flag F.almStateChained 0 = true) := by
  obtain ⟨x, e, told, after⟩ := s.swapComplete_eq
  obtain ⟨epochs, missed, estate, armed, shadow⟩ := s.showSwapped_facts
  have keptEpochs : (x.when s.alm.follow (·.chainNext e)).word .almEpochs 0 = x.word .almEpochs 0 :=
    State.read_when (State.word · .almEpochs 0) fun y => (y.chainNext_within e).word _ (by decide) 0
  have keptMissed : (x.when s.alm.follow (·.chainNext e)).flag F.almStateMissed 0 = x.flag F.almStateMissed 0 :=
    State.read_when (State.flag · F.almStateMissed 0) fun y =>
      have ⟨_, _, missed⟩ := y.chainNext_facts e
      missed
  refine ⟨(after.word _ (by decide) 0).trans (keptEpochs.trans ((told.word _ (by decide) 0).trans epochs)),
    (after.flag (by decide) 0).trans (keptMissed.trans ((told.flag (by decide) 0).trans missed)), fun alone => ?_, fun follow => ?_⟩
  · rw [State.when_neg alone] at after
    exact ⟨(after.rd (by decide) 0).trans ((told.rd (by decide) 0).trans estate),
      (after.word _ (by decide) 0).trans ((told.word _ (by decide) 0).trans armed),
      (after.rd (by decide) 0).trans ((told.rd (by decide) 0).trans shadow)⟩
  · rw [State.when_pos follow] at after
    obtain ⟨next, chained, -⟩ := x.chainNext_facts e
    exact ⟨(after.rd (by decide) 0).trans next, (after.flag (by decide) 0).trans chained⟩

theorem completes_epochSwapComplete {s : State} (swapping : s.estate = 3) (next : s.alm.swapStage = 2) (due : s.alm.swapTick + 3 ≤ s.tick.n) :
    Completes .epochSwapComplete s fun t => t.word .almEpochs 0 = s.word .almEpochs 0 + 1 ∧ t.flag F.almStateMissed 0 = false ∧
      (s.alm.follow = false → t.estate = 0 ∧ t.word .almArmed 0 = 0 ∧ t.shadow = 3) ∧
      (s.alm.follow = true → t.estate = 1 ∧ t.flag F.almStateChained 0 = true) :=
  ⟨(s.swapStep 3).swapComplete, congrArg Host.Outcome.next (State.when_pos (State.swapDue_of swapping next due)),
    (s.swapStep 3).swapComplete_facts⟩

/-- Settles O38: e over what its new registers bring about, each later step by what its exchange stores, the last with and without a chained epoch,
and each of the three not taken out of its place. -/
theorem epochsSwapInFourSteps : Obligations.EpochsSwapInFourSteps := fun _ =>
  ⟨completes_epochSwap, completes_epochSumSwap, completes_epochEmitSwap, completes_epochSwapComplete,
    completes_swapStep_idle rfl, completes_swapStep_idle rfl, completes_swapStep_idle rfl⟩

end Sys2Proof.Machine

/-! The arithmetic of mixing: rounding and saturation, the gain of a code, and the soft limit (07 R155, R156, R163). -/

namespace Sys2Proof.Machine

/-! ### Rounding and saturation (R155) -/

/-- A rounded quotient lies at or below the value that rounding floors. -/
theorem rhu_mul_le (v : Int) (s : Nat) : rhu v s * 2 ^ s ≤ v + 2 ^ (s - 1) :=
  Int.ediv_mul_le _ (Int.ne_of_gt (Int.pow_pos (by decide)))

/-- The next integer's multiple lies above it. -/
theorem lt_rhu_add_one_mul (v : Int) (s : Nat) : v + 2 ^ (s - 1) < (rhu v s + 1) * 2 ^ s :=
  Int.lt_ediv_add_one_mul_self _ (Int.pow_pos (by decide))

/-- Saturation as R155 writes it, at any limit that leaves the range a value. -/
theorem satTo_eq_min_max {n : Int} (pos : 0 < n) (v : Int) : satTo n v = min (max v (-n)) (n - 1) := by
  unfold satTo
  split
  · omega
  · split <;> omega

/-- Settles O8: a quotient by its floor, and both saturations by the one they share. -/
theorem roundingAndSaturation : Obligations.RoundingAndSaturation :=
  ⟨fun v s _ => ⟨rhu_mul_le v s, lt_rhu_add_one_mul v s⟩, by decide,
    fun v => ⟨satTo_eq_min_max (by decide) v, satTo_eq_min_max (by decide) v⟩⟩

/-! ### The soft limit (R163) -/

/-- A shift right by two is the quotient by four, of either sign. -/
theorem shiftRight_two_eq_div_four (x : Int) : x >>> 2 = x / 4 := by
  have shifted : x >>> 2 = Int.shiftRight x 2 := by
    cases x with
    | ofNat m => rfl
    | negSucc m => rfl
  exact shifted.trans (Int.shiftRight_eq_div_pow x 2)

theorem softLimit_above {r : Int} (h : 4194304 < r) : softLimit r = 4194304 + (r - 4194304) / 4 := if_pos h

theorem softLimit_below {r : Int} (h : r < -4194304) : softLimit r = -(4194304 + (-r - 4194304) / 4) := by
  have notAbove : ¬ 4194304 < r := by omega
  exact (if_neg notAbove).trans (if_pos h)

theorem softLimit_between {r : Int} (lo : -4194304 ≤ r) (hi : r ≤ 4194304) : softLimit r = r :=
  (if_neg (Int.not_lt.mpr hi)).trans (if_neg (Int.not_lt.mpr lo))

/-- The limit treats both signs alike. -/
theorem softLimit_neg (r : Int) : softLimit (-r) = -softLimit r := by
  rcases Int.lt_or_le 4194304 r with above | notAbove
  · rw [softLimit_above above, softLimit_below (by omega), Int.neg_neg]
  rcases Int.lt_or_le r (-4194304) with below | notBelow
  · rw [softLimit_below below, softLimit_above (by omega), Int.neg_neg]
  · rw [softLimit_between notBelow notAbove, softLimit_between (by omega) (by omega)]

/-- The least `r` that the limit lets reach full scale. -/
theorem fullScale_le_softLimit_iff (r : Int) : 8388607 ≤ softLimit r ↔ 20971516 ≤ r := by
  rcases Int.lt_or_le 4194304 r with above | notAbove
  · rw [softLimit_above above]
    omega
  rcases Int.lt_or_le r (-4194304) with below | notBelow
  · rw [softLimit_below below]
    omega
  · rw [softLimit_between notBelow notAbove]
    omega

theorem softLimit_le_neg_fullScale_iff (r : Int) : softLimit r ≤ -8388607 ↔ r ≤ -20971516 := by
  have mirrored := fullScale_le_softLimit_iff (-r)
  rw [softLimit_neg] at mirrored
  omega

/-- Settles O9: the limit's three ranges, full scale above by these ranges and below by symmetry, and an output by whether its entry has LIM set. -/
theorem softLimitHasItsKnee : Obligations.SoftLimitHasItsKnee := by
  refine ⟨fun r => ⟨fun above => ?_, fun below => ?_, softLimit_between, (fullScale_le_softLimit_iff r).symm,
    (softLimit_le_neg_fullScale_iff r).symm⟩, by decide, by decide, fun e r => ⟨fun lim => ?_, fun free => ?_⟩⟩
  · exact (softLimit_above above).trans (congrArg (4194304 + ·) (shiftRight_two_eq_div_four _).symm)
  · exact (softLimit_below below).trans (congrArg (fun q => -(4194304 + q)) (shiftRight_two_eq_div_four _).symm)
  · exact congrArg sat24 (if_pos lim)
  · exact congrArg sat24 (if_neg (Bool.eq_false_iff.mp free))

/-! ### Gain codes (R156): G(c) is the largest `g` for which the real value is at least g − 1/2 -/

/-- A common factor, `10 ^ c` or `10 ^ 3840`, makes both forms of the comparison one. -/
theorem gainAtLeast_iff (c g : Nat) : gainAtLeast c g = true ↔ (2 * g - 1) ^ 400 * 10 ^ 3840 ≤ 2 ^ 8400 * 10 ^ c := by
  unfold gainAtLeast
  generalize (2 * g - 1) ^ 400 = a
  generalize 2 ^ 8400 = b
  generalize 3840 = z
  split
  next low =>
    rw [decide_eq_true_iff, ← Nat.pow_sub_mul_pow 10 low, ← Nat.mul_assoc]
    exact (Nat.mul_le_mul_right_iff (Nat.pow_pos (by decide))).symm
  next high =>
    rw [decide_eq_true_iff, ← Nat.pow_sub_mul_pow 10 (Nat.le_of_not_le high), ← Nat.mul_assoc]
    exact (Nat.mul_le_mul_right_iff (Nat.pow_pos (by decide))).symm

theorem gainAtLeast_zero (c : Nat) : gainAtLeast c 0 = true := by
  rw [gainAtLeast_iff, Nat.mul_zero, Nat.zero_sub, Nat.zero_pow (by decide), Nat.zero_mul]
  exact Nat.zero_le _

theorem pow_mul_le_pow_mul {a b : Nat} (n z : Nat) (h : a ≤ b) : a ^ n * z ≤ b ^ n * z :=
  Nat.mul_le_mul_right z (Nat.pow_le_pow_left h n)

/-- The comparison goes on to hold for smaller gains and for higher codes. -/
theorem gainAtLeast_mono {c d g g' : Nat} (codes : c ≤ d) (gains : g' ≤ g) (h : gainAtLeast c g = true) : gainAtLeast d g' = true := by
  have halves : 2 * g' - 1 ≤ 2 * g - 1 := by omega
  rw [gainAtLeast_iff] at h ⊢
  exact Nat.le_trans (pow_mul_le_pow_mul 400 (10 ^ 3840) halves)
    (Nat.le_trans h (Nat.mul_le_mul_left _ (Nat.pow_le_pow_right (by decide) codes)))

/-- Ten to the power 16/25 is below 8 − 2^-21: shown by its 25th power, and then of every power of that. -/
theorem two_pow_mul_ten_pow_lt {k p q r : Nat} (z : Nat) (pos : k ≠ 0) (hp : p = 21 * q) (hq : q = 25 * k) (hr : r = 16 * k + z) :
    2 ^ p * 10 ^ r < (2 * 2 ^ 23 - 1) ^ q * 10 ^ z := by
  have base : (2 ^ 21) ^ 25 * 10 ^ 16 < (2 * 2 ^ 23 - 1) ^ 25 := by decide
  subst hp hq hr
  rw [Nat.pow_add, ← Nat.mul_assoc, Nat.pow_mul 2, Nat.pow_mul _ 25, Nat.pow_mul _ 25, Nat.pow_mul _ 16, ← Nat.mul_pow]
  exact Nat.mul_lt_mul_of_pos_right (Nat.pow_lt_pow_left base pos) (Nat.pow_pos (by decide))

/-- No code has a gain of 8 or more: even 4096, which is 16/25 of a decade above unity, falls short. -/
theorem not_gainAtLeast_two_pow_23 {c : Nat} (code : c ≤ 4095) : ¬ gainAtLeast c (2 ^ 23) = true := fun h => by
  have bound := (gainAtLeast_iff 4096 _).mp (gainAtLeast_mono (Nat.le_trans code (by decide)) (Nat.le_refl _) h)
  exact absurd bound (Nat.not_le.mpr (two_pow_mul_ten_pow_lt (k := 16) (p := 8400) (q := 400) (r := 4096) 3840
    (by decide) (by decide) (by decide) (by decide)))

/-- Bisection between a gain that passes and one that fails ends at the last that passes. -/
theorem le_gainSearch_iff {c n lo : Nat} (g : Nat) (passes : gainAtLeast c lo = true) (fails : ¬ gainAtLeast c (lo + 2 ^ n) = true) :
    g ≤ gainSearch c n lo ↔ gainAtLeast c g = true := by
  induction n generalizing lo with
  | zero =>
    rw [gainSearch]
    exact ⟨fun le => gainAtLeast_mono (Nat.le_refl c) le passes,
      fun h => Nat.not_lt.mp fun lt => fails (gainAtLeast_mono (Nat.le_refl c) lt h)⟩
  | succ n ih =>
    rw [gainSearch]
    split
    next middle =>
      rw [Nat.pow_succ, Nat.mul_two, ← Nat.add_assoc] at fails
      exact ih middle fails
    next middle => exact ih passes middle

theorem le_gainOf_iff {c : Nat} (g : Nat) (pos : 1 ≤ c) (code : c ≤ 4095) : g ≤ gainOf c ↔ gainAtLeast c g = true := by
  rw [gainOf, if_neg (Nat.ne_zero_of_lt pos)]
  exact le_gainSearch_iff g (gainAtLeast_zero c) ((Nat.zero_add (2 ^ 23)).symm ▸ not_gainAtLeast_two_pow_23 code)

theorem gainOf_lt {c : Nat} (pos : 1 ≤ c) (code : c ≤ 4095) : gainOf c < 2 ^ 23 :=
  Nat.not_le.mp fun le => not_gainAtLeast_two_pow_23 code ((le_gainOf_iff _ pos code).mp le)

/-- A gain passes its own comparison, so the real value is at least G − 1/2. -/
theorem gainOf_le_value {c : Nat} (pos : 1 ≤ c) (code : c ≤ 4095) : (2 * gainOf c - 1) ^ 400 * 10 ^ 3840 ≤ 2 ^ 8400 * 10 ^ c :=
  (gainAtLeast_iff c _).mp ((le_gainOf_iff _ pos code).mp (Nat.le_refl _))

/-- The next gain fails it, so the real value is below G + 1/2. -/
theorem value_lt_gainOf_succ {c : Nat} (pos : 1 ≤ c) (code : c ≤ 4095) : 2 ^ 8400 * 10 ^ c < (2 * gainOf c + 1) ^ 400 * 10 ^ 3840 := by
  have odd : 2 * (gainOf c + 1) - 1 = 2 * gainOf c + 1 := rfl
  rw [← Nat.not_le, ← odd, ← gainAtLeast_iff, ← le_gainOf_iff _ pos code]
  exact Nat.not_succ_le_self _

theorem gainOf_mono {c d : Nat} (le : c ≤ d) (code : d ≤ 4095) : gainOf c ≤ gainOf d := by
  rcases Nat.eq_zero_or_pos c with rfl | pos
  · exact Nat.zero_le _
  · rw [le_gainOf_iff _ (Nat.le_trans pos le) code]
    exact gainAtLeast_mono le (Nat.le_refl _) ((le_gainOf_iff _ pos (Nat.le_trans le code)).mp (Nat.le_refl _))

/-- Settles O10: the search finds the last gain that the code's value rounds up to or exceeds, and a higher code passes what a lower one does. -/
theorem gainCodesRoundTheirValue : Obligations.GainCodesRoundTheirValue :=
  ⟨rfl, fun _ pos code => ⟨gainOf_lt pos code, value_lt_gainOf_succ pos code, fun _ => gainOf_le_value pos code⟩, fun _ _ => gainOf_mono⟩

end Sys2Proof.Machine

/-! Arming: how ARM, DISARM and REJOIN are judged, and what the commit point leaves to be read (08 R198 to R203, R207; 10 R269; 13 R345). -/

namespace Sys2Proof.Machine

/-! ### Mirrored commands in a unit that is not joined (10 R269) -/

/-- A register's access whose mirrored write is done in this unit alone: on a state that differs by counts. -/
theorem State.byReg_alone {s : State} {m : Master} (hr : s.reaches m 18 true = true) (hj : s.joined = false) (r : Reg) {addr : Nat}
    {be : BitVec 8} {data : Word} {g f : State → State} (write : ∀ x, Within .counted s x → g x = x.mirrored addr be data f) :
    ∃ y, Within .countedAlone s y ∧ s.byReg m r 0 8 true g = f y := by
  obtain ⟨x, hx, access⟩ := s.byReg_ok m r 0 8 true g hr
  obtain ⟨y, hy, alone⟩ := State.mirrored_alone (s := x) ((hx.flag (by decide) 0).trans hj) addr be data f
  exact ⟨y, hy.after (hx.mono (by decide)) (by decide), access.trans ((write x hx).trans alone)⟩

/-! ### Arming (08 R198, Table 08-12; 13 R345) -/

section
variable {s x : State} (h : Within .countedAlone s x)
include h

theorem Within.estate : x.estate = s.estate := h.rd (by decide) 0

theorem Within.stagedForArm (mirrored : Bool) : x.stagedForArm mirrored = s.stagedForArm mirrored := by
  unfold State.stagedForArm State.stagedIdent State.mateSlot State.shadow
  rw [h.alm (by decide), h.mate (by decide), h.rd (by decide)]

theorem Within.armResult (mirrored : Bool) (t : Nat) : x.armResult mirrored t = s.armResult mirrored t := by
  unfold State.armResult State.numbered State.now
  rw [h.stagedForArm, h.estate, h.alm (by decide), h.flag (f := F.almStateActiveValid) (by decide), h.flag (f := F.timStateNumbered) (by decide),
    h.rd (f := F.timTickTick) (by decide), h.rd (f := F.almActiveInfoEpoch) (by decide), h.word _ (by decide)]

theorem Within.rejoinOk (mirrored : Bool) : x.rejoinOk mirrored = s.rejoinOk mirrored := by
  have facing : x.deviceFacing = s.deviceFacing := by
    funext l
    unfold State.deviceFacing
    rw [h.alm (by decide), h.flag (by decide)]
  unfold State.rejoinOk State.numbered
  simp only [h.stagedForArm, h.estate, h.alm (by decide), h.flag (f := F.timStateNumbered) (by decide), facing,
    h.flag (f := F.linkStateDiscord) (by decide), h.rd (f := F.linkIdentRxSetidSetid) (by decide)]

end

section
variable (s : State) (mirrored : Bool) (t : Nat)

theorem State.armResult_lt : s.armResult mirrored t < 16 := by
  unfold State.armResult
  dsimp only
  split_ifs <;> decide

variable {s t}

/-- What an accepted ARM has met. -/
theorem State.armResult_accepts (h : s.armResult false t = 1) :
    s.shadow = 2 ∧ 4801 ≤ tdiff s.now t ∧ tdiff s.now t ≤ 2 ^ 30 ∧ s.estate ≠ 2 ∧ s.estate ≠ 3 := by
  unfold State.armResult at h
  dsimp only at h
  split_ifs at h with unnumbered unstaged short long pred epoch busy <;> cases h
  simp only [State.stagedForArm, Bool.not_false, Bool.true_or, Bool.and_true, Bool.not_eq_true', decide_eq_false_iff_not, not_not] at unstaged
  simp only [Bool.or_eq_true, decide_eq_true_eq, not_or] at busy
  exact ⟨unstaged, not_lt.1 short, not_lt.1 long, busy⟩

end

/-- A RESULT shown, and nothing armed or disarmed by it. -/
theorem State.wr_armResult_facts (s : State) {r : Nat} (hr : r < 16) : (s.wr F.almArmCmdResult 0 r).estate = s.estate ∧
    (s.wr F.almArmCmdResult 0 r).word .almArmed 0 = s.word .almArmed 0 ∧ (s.wr F.almArmCmdResult 0 r).rd F.almArmCmdResult 0 = r :=
  ⟨State.rd_wr_apart _ _ _ _ (by decide) (by decide), State.word_wr_other _ _ (.inl (by decide)),
    (State.rd_wr _ _ _ _ (by decide)).trans (Nat.mod_eq_of_lt hr)⟩

/-- An epoch armed by a command whose RESULT is 1. -/
theorem State.armAccepted_facts (s : State) {t e : Nat} (ht : t < 2 ^ 32) (he : e < 2 ^ 32) :
    ((s.wr F.almArmCmdResult 0 1).arm t e false).estate = 1 ∧
    ((s.wr F.almArmCmdResult 0 1).arm t e false).rd F.almArmedArmedTick 0 = t ∧
    ((s.wr F.almArmCmdResult 0 1).arm t e false).rd F.almArmedArmedEpoch 0 = e ∧
    ((s.wr F.almArmCmdResult 0 1).arm t e false).rd F.almArmCmdResult 0 = 1 := by
  obtain ⟨estate, -⟩ := (s.wr F.almArmCmdResult 0 1).arm_facts t e false
  refine ⟨estate, ?_, (State.rd_wr _ _ _ _ (by decide)).trans (Nat.mod_eq_of_lt he),
    ((State.arm_within ..).rd (by decide) 0).trans (State.rd_wr _ _ _ _ (by decide))⟩
  exact (State.rd_wr_apart _ _ _ _ (by decide) (by decide)).trans ((State.rd_wr _ _ _ _ (by decide)).trans (Nat.mod_eq_of_lt ht))

/-- An ARM judged: its RESULT, and what it arms (08 R198). -/
theorem State.armDo_facts (s : State) : (s.armDo false).rd F.almArmCmdResult 0 = s.armResult false (s.rd F.almArmTick 0) ∧
    (s.armResult false (s.rd F.almArmTick 0) = 1 → (s.armDo false).estate = 1 ∧
      (s.armDo false).rd F.almArmedArmedTick 0 = s.rd F.almArmTick 0 ∧
      (s.armDo false).rd F.almArmedArmedEpoch 0 = s.alm.shadow.head.epoch.toNat) ∧
    (s.armResult false (s.rd F.almArmTick 0) ≠ 1 → (s.armDo false).estate = s.estate ∧
      (s.armDo false).word .almArmed 0 = s.word .almArmed 0) := by
  by_cases accepted : s.armResult false (s.rd F.almArmTick 0) = 1
  · have armed : s.armDo false = (s.wr F.almArmCmdResult 0 1).arm (s.rd F.almArmTick 0) s.alm.shadow.head.epoch.toNat false := by
      unfold State.armDo
      dsimp only
      rw [accepted]
      exact if_pos rfl
    obtain ⟨estate, tick, epoch, result⟩ := s.armAccepted_facts (s.rd_lt_two_pow F.almArmTick 0) s.alm.shadow.head.epoch.isLt
    rw [armed, accepted]
    exact ⟨result, fun _ => ⟨estate, tick, epoch⟩, fun refused => absurd rfl refused⟩
  · have refused : s.armDo false = s.wr F.almArmCmdResult 0 (s.armResult false (s.rd F.almArmTick 0)) := if_neg accepted
    obtain ⟨estate, armed, result⟩ := s.wr_armResult_facts (s.armResult_lt false (s.rd F.almArmTick 0))
    rw [refused]
    exact ⟨result, fun h => absurd h accepted, fun _ => ⟨estate, armed⟩⟩

/-- A DISARM judged (08 R198). -/
theorem State.disarmDo_facts (s : State) :
    (s.estate = 1 → s.disarmDo.estate = 0 ∧ s.disarmDo.word .almArmed 0 = 0 ∧ s.disarmDo.rd F.almArmCmdResult 0 = 1) ∧
    (s.estate ≠ 1 → s.disarmDo.estate = s.estate ∧ s.disarmDo.word .almArmed 0 = s.word .almArmed 0 ∧
      s.disarmDo.rd F.almArmCmdResult 0 = 8) := by
  refine ⟨fun armed => ?_, fun unarmed => ?_⟩
  · have done : s.disarmDo = (s.wr F.almArmCmdResult 0 1).disarm := if_pos armed
    obtain ⟨estate, word, -⟩ := (s.wr F.almArmCmdResult 0 1).disarm_facts
    rw [done]
    exact ⟨estate, word, ((State.disarm_within _).rd (by decide) 0).trans (State.rd_wr _ _ _ _ (by decide))⟩
  · have refused : s.disarmDo = s.wr F.almArmCmdResult 0 8 := if_neg unarmed
    rw [refused]
    exact s.wr_armResult_facts (by decide)

theorem tadd_lt (a : Nat) (d : Int) : tadd a d < 2 ^ 32 := by
  unfold tadd unsigned
  omega

/-- A REJOIN judged (08 R203). -/
theorem State.rejoinDo_facts (s : State) :
    (s.rejoinOk false = true → (s.rejoinDo false).estate = 1 ∧ (s.rejoinDo false).rd F.almArmedArmedTick 0 = tadd s.now 4801 ∧
      (s.rejoinDo false).rd F.almArmCmdResult 0 = 1) ∧
    (s.rejoinOk false = false → (s.rejoinDo false).estate = s.estate ∧ (s.rejoinDo false).word .almArmed 0 = s.word .almArmed 0 ∧
      (s.rejoinDo false).rd F.almArmCmdResult 0 = 8) := by
  refine ⟨fun ok => ?_, fun refused => ?_⟩
  · have done : s.rejoinDo false = (s.wr F.almArmCmdResult 0 1).arm (tadd s.now 4801) s.alm.shadow.head.epoch.toNat false := if_pos ok
    obtain ⟨estate, tick, -, result⟩ := s.armAccepted_facts (tadd_lt s.now 4801) s.alm.shadow.head.epoch.isLt
    rw [done]
    exact ⟨estate, tick, result⟩
  · have done : s.rejoinDo false = s.wr F.almArmCmdResult 0 8 := if_neg (by rw [refused]; decide)
    rw [done]
    exact s.wr_armResult_facts (by decide)

section
variable {m : Master} {s : State} (hr : s.reaches m 18 true = true) (hj : s.joined = false)
include hr hj

theorem completes_almArm : Completes (.almArm m) s fun t => t.rd F.almArmCmdResult 0 = s.armResult false (s.rd F.almArmTick 0) ∧
    (t.rd F.almArmCmdResult 0 = 1 → s.shadow = 2 ∧ 4801 ≤ tdiff s.now (s.rd F.almArmTick 0) ∧ tdiff s.now (s.rd F.almArmTick 0) ≤ 2 ^ 30 ∧
      s.estate ≠ 2 ∧ s.estate ≠ 3 ∧ t.estate = 1 ∧ t.rd F.almArmedArmedTick 0 = s.rd F.almArmTick 0 ∧
      t.rd F.almArmedArmedEpoch 0 = s.alm.shadow.head.epoch.toNat) ∧
    (t.rd F.almArmCmdResult 0 ≠ 1 → t.estate = s.estate ∧ t.word .almArmed 0 = s.word .almArmed 0) := by
  obtain ⟨x, hx, access⟩ := State.byReg_alone (f := (·.armDo false)) hr hj .almArmCmd (g := (·.armCmd 1)) fun _ _ => rfl
  obtain ⟨result, arms, keeps⟩ := x.armDo_facts
  rw [hx.rd (f := F.almArmTick) (by decide), hx.armResult] at result arms keeps
  rw [hx.alm (by decide)] at arms
  rw [hx.estate, hx.word _ (by decide)] at keeps
  refine ⟨_, congrArg Host.Outcome.next access, result, fun accepted => ?_, fun refused => keeps (result ▸ refused)⟩
  rw [result] at accepted
  obtain ⟨staged, early, late, uncommitted, unswapping⟩ := State.armResult_accepts accepted
  exact ⟨staged, early, late, uncommitted, unswapping, arms accepted⟩

theorem completes_almDisarm : Completes (.almDisarm m) s fun t =>
    (s.estate = 1 → t.estate = 0 ∧ t.word .almArmed 0 = 0 ∧ t.rd F.almArmCmdResult 0 = 1) ∧
    (s.estate ≠ 1 → t.estate = s.estate ∧ t.word .almArmed 0 = s.word .almArmed 0 ∧ t.rd F.almArmCmdResult 0 = 8) := by
  obtain ⟨x, hx, access⟩ := State.byReg_alone (f := State.disarmDo) hr hj .almArmCmd (g := (·.armCmd 2)) fun _ _ => rfl
  have facts := x.disarmDo_facts
  rw [hx.estate, hx.word _ (by decide)] at facts
  exact ⟨_, congrArg Host.Outcome.next access, facts⟩

theorem completes_almRejoin : Completes (.almRejoin m) s fun t =>
    (s.rejoinOk false = true → t.estate = 1 ∧ t.rd F.almArmedArmedTick 0 = tadd s.now 4801 ∧ t.rd F.almArmCmdResult 0 = 1) ∧
    (s.rejoinOk false = false → t.estate = s.estate ∧ t.word .almArmed 0 = s.word .almArmed 0 ∧ t.rd F.almArmCmdResult 0 = 8) := by
  obtain ⟨x, hx, access⟩ := State.byReg_alone (f := (·.rejoinDo false)) hr hj .almArmCmd (g := (·.armCmd 3)) fun _ _ => rfl
  have now : x.now = s.now := hx.rd (by decide) 0
  have facts := x.rejoinDo_facts
  rw [hx.rejoinOk, now, hx.estate, hx.word _ (by decide)] at facts
  exact ⟨_, congrArg Host.Outcome.next access, facts⟩

end

/-! ### The commit point (08 R199, R201, R207) -/

theorem State.trimDiscard_facts (s : State) : s.trimDiscard.estate = s.estate ∧ s.trimDiscard.alm.trims = [] := by
  unfold State.trimDiscard
  split
  next none => exact ⟨rfl, List.isEmpty_iff.1 none⟩
  next => exact ⟨((State.trimResult_within ..).rd (by decide) 0).trans rfl, congrArg AlmH.trims ((State.trimResult_within ..).alm (by decide))⟩

theorem State.epochMiss_facts (s : State) : s.epochMiss.estate = 0 ∧ s.epochMiss.flag F.almStateMissed 0 = true ∧
    s.epochMiss.word .almEpochMissed 0 = s.word .almEpochMissed 0 + 1 ∧ s.epochMiss.active A.epochMissed 0 = true := by
  obtain ⟨x, told, missed⟩ : ∃ x, Within (.of [.log, .pm, .events, .bus]
      [.busGrants, .logState, .logEvbEntries, .logDropped, .logEvbLost, .logEntries, .sysIntSrc]) s x ∧
      s.epochMiss = ((x.disarm.setFlag F.almStateMissed 0 true).count .almEpochMissed 0).raise A.epochMissed 0 :=
    ⟨_, State.logEvent_within .., rfl⟩
  obtain ⟨estate, -⟩ := x.disarm_facts
  rw [missed]
  refine ⟨?_, ?_, ?_, ?_⟩
  · unfold State.estate
    rw [State.rd_raise _ _ _ _ _ (by decide), State.rd_count_other _ _ _ (by decide), State.rd_setFlag_apart _ _ _ _ (by decide) (by decide)]
    exact estate
  · rw [State.flag_raise _ _ _ _ _ (by decide), State.flag_congr (State.word_count_other _ (.inl (by decide))),
      State.flag_setFlag _ _ _ _ rfl (by decide)]
  · rw [State.word_raise _ _ _ _ _ (by decide), State.word_count, State.setFlag, State.word_wr_other _ _ (.inl (by decide)),
      (State.disarm_within _).word _ (by decide), told.word _ (by decide)]
  · rw [State.active_raise _ _ _ _ _ (by decide)]
    exact Bool.or_true _

theorem completes_epochCommit {s : State} (armed : s.estate = 1) (due : 0 ≤ tdiff (tadd (s.rd F.almArmedArmedTick 0) (-4800)) s.now) :
    Completes .epochCommit s fun t =>
      (s.shadow = 2 → s.slotState (s.rd F.almStateShadowSlot 0) = 2 ∨ s.slotState (s.rd F.almStateShadowSlot 0) = 5 →
        t.estate = 2 ∧ t.alm.trims = []) ∧
      (s.shadow ≠ 2 ∨ (s.slotState (s.rd F.almStateShadowSlot 0) ≠ 2 ∧ s.slotState (s.rd F.almStateShadowSlot 0) ≠ 5) →
        t.estate = 0 ∧ t.flag F.almStateMissed 0 = true ∧ t.word .almEpochMissed 0 = s.word .almEpochMissed 0 + 1 ∧
          t.active A.epochMissed 0 = true) := by
  refine ⟨_, congrArg Host.Outcome.next (State.when_pos (Bool.and_eq_true_iff.2 ⟨decide_eq_true armed, decide_eq_true due⟩)), ?_⟩
  dsimp only
  split
  next ready =>
    simp only [Bool.and_eq_true, Bool.or_eq_true, decide_eq_true_eq] at ready
    obtain ⟨staged, source⟩ := ready
    obtain ⟨estate, trims⟩ := (s.wr F.almStateEstate 0 eCommitted).trimDiscard_facts
    exact ⟨fun _ _ => ⟨estate.trans (State.rd_wr _ _ _ _ (by decide)), trims⟩,
      fun missed => missed.elim (absurd staged) fun ⟨unaccepted, kept⟩ => (source.elim unaccepted kept).elim⟩
  next unready =>
    simp only [Bool.and_eq_true, Bool.or_eq_true, decide_eq_true_eq] at unready
    exact ⟨fun staged source => absurd ⟨staged, source⟩ unready, fun _ => s.epochMiss_facts⟩

/-- MISSED ends with its alarm (08 Table 08-10). -/
theorem completes_epochMissedClear {m : Master} {s : State} (hr : s.reaches m 18 true = true) : Completes (.epochMissedClear m) s fun t =>
    t.flag F.almStateMissed 0 = false ∧ t.active A.epochMissed 0 = false := by
  obtain ⟨x, -, access⟩ := s.byReg_ok m .almState 0 8 true (fun s => (s.setFlag F.almStateMissed 0 false).clear A.epochMissed 0) hr
  refine ⟨_, congrArg Host.Outcome.next access, ?_, ?_⟩
  · rw [State.flag_clear _ _ _ _ _ (by decide), State.flag_setFlag _ _ _ _ rfl (by decide)]
  · rw [State.active_clear _ _ _ _ _ (by decide)]
    exact Bool.and_false _

/-- Settles O37: each command over a state that differs by counts, judged there as it would be here; the commit point by whether the epoch is ready. -/
theorem armingIsJudged : Obligations.ArmingIsJudged := fun _ _ =>
  ⟨fun hr hj => ⟨completes_almArm hr hj, completes_almDisarm hr hj, completes_almRejoin hr hj⟩, completes_epochCommit,
    completes_epochMissedClear⟩

end Sys2Proof.Machine

/-! Library slots: what a write leaves in HBM and in a slot's status, and how a CHECK begins and ends (08 R191 to R193). -/

namespace Sys2Proof.Machine

/-! ### Accesses leave HBM alone -/

section
variable (s : State) (m : Master)

@[simp] theorem State.meter_hbm (r : Reg) (i n : Nat) : (s.meter r i n).hbm = s.hbm := by
  unfold State.meter
  split <;> rfl

@[simp] theorem State.hostMeter_hbm (w : Bool) (n : Nat) : (s.hostMeter m w n).hbm = s.hbm := by
  unfold State.hostMeter
  dsimp only
  split
  · rw [State.meter_hbm, State.meter_hbm]
  · rfl

@[simp] theorem State.passOver_hbm (t : Nat) : (s.passOver m t).hbm = s.hbm := by
  unfold State.passOver
  dsimp only
  split <;> rfl

@[simp] theorem State.grantAll_hbm (t a n : Nat) : (s.grantAll m t a n).hbm = s.hbm := State.meter_hbm ..

theorem State.hbm_set_irqs (v : Tbl IrqH) : ({ s with irqs := v } : State).hbm = s.hbm := rfl

@[simp] theorem State.irqSync_hbm : s.irqSync.hbm = s.hbm := s.hbm_set_irqs _

@[simp] theorem State.aerLog_hbm (i : Nat) : (s.aerLog i).hbm = s.hbm := s.hbm_set_irqs _

@[simp] theorem State.errResp_hbm (a : Nat) (w : Bool) (c : ErrCause) : (s.errResp m a w c).hbm = s.hbm := by
  unfold State.errResp
  extract_lets i x y z
  have latched : y.hbm = s.hbm := (State.setWord_hbm ..).trans (State.count_hbm ..)
  have told : z.hbm = s.hbm := by
    dsimp only [z]
    split
    · exact (State.count_hbm ..).trans latched
    · exact latched
  split
  · split
    · exact (State.irqSync_hbm _).trans ((State.setSrc_hbm ..).trans told)
    · exact (State.aerLog_hbm ..).trans told
  · exact told

/-- The state that an access is carried out on, if it is: HBM is there as the access found it, list and all. -/
theorem State.byTarget_ok_hbm (t addr n : Nat) (w : Bool) (f : State → State) (h : s.reaches m t w = true) :
    ∃ x, Within .counted s x ∧ x.hbm = s.hbm ∧ s.byTarget m t addr n w f = f x := by
  have counted : Within .counted s (((s.hostMeter m w n).passOver m t).grantAll m t addr n) :=
    .after (State.grantAll_within ..) (.after (State.passOver_within ..) ((State.hostMeter_within ..).mono (by decide)) (by decide)) (by decide)
  simp only [State.reaches, Bool.and_eq_true, Bool.not_eq_true'] at h
  obtain ⟨⟨path, idle⟩, answers⟩ := h
  refine ⟨_, counted, by simp only [State.grantAll_hbm, State.passOver_hbm, State.hostMeter_hbm], ?_⟩
  unfold State.byTarget
  rw [if_neg (by rw [idle]; decide)]
  dsimp only
  rw [if_neg (by rw [path]; decide), Foot.counted_available counted, if_pos answers]

end

/-! ### Bytes written -/

theorem hbmPut_map_some (bs : List Byte) (a : Nat) (m : Memory) : hbmPut (bs.map some) a m = memWrite bs a m := by
  induction bs generalizing a m with
  | nil => rfl
  | cons b bs ih => exact ih (a + 1) _

theorem memByte_memWrite_in (bs : List Byte) (a j : Nat) (m : Memory) (h : j < bs.length) : memByte (memWrite bs a m) (a + j) = bs[j] := by
  induction bs generalizing a j m with
  | nil => exact absurd h (Nat.not_lt_zero j)
  | cons b bs ih =>
    cases j with
    | zero => exact (memByte_memWrite_out bs (a + 1) a _ (.inl (Nat.lt_succ_self a))).trans (Tbl.get_set_same ..)
    | succ j =>
      have next := ih (a + 1) j (Tbl.set 0 m a b) (Nat.lt_of_succ_lt_succ h)
      rw [Nat.add_right_comm] at next
      exact next

theorem memRead_memWrite (bs : List Byte) (a : Nat) (m : Memory) : memRead (memWrite bs a m) a bs.length = bs := by
  refine List.ext_getElem (by simp [memRead]) fun j _ hj => ?_
  simp only [memRead, List.getElem_map, List.getElem_range]
  exact memByte_memWrite_in bs a j m hj

/-! ### Writes into a slot (08 R192) -/

theorem Within.slotState {k : Foot} {s x : State} (h : Within k s x) (hk : k.hasReg .almSlotStatus = false) (i : Nat) :
    x.slotState i = s.slotState i := h.rd hk i

theorem Within.slotWriteRefused {s x : State} (h : Within .counted s x) (i : Nat) : x.slotWriteRefused i = s.slotWriteRefused i := by
  unfold State.slotWriteRefused State.shadowSource State.shadow
  rw [h.slotState (by decide), h.rd (f := F.almStateShadow) (by decide), h.rd (f := F.almStateShadowSlot) (by decide)]

/-- Where no word of HBM reads bad, a write meets none. -/
theorem State.hbmMerge_sound {s : State} (sound : s.ecc.hbmBad = []) (a : Nat) (data : List (Option Byte)) :
    s.hbmMerge a data = (none, data, s) := by
  unfold State.hbmMerge
  rw [sound]
  rfl

section
variable (s : State) (m : Master) (i off : Nat) (data : List Byte)

theorem State.libraryWrite_accepted (sound : s.ecc.hbmBad = []) (writable : s.slotWriteRefused i = none) :
    s.libraryWrite m i off (data.map some) = ({ s with hbm := memWrite data (slotBase i + off) s.hbm }).slotWritten i := by
  unfold State.libraryWrite
  rw [writable]
  dsimp only
  rw [State.hbmMerge_sound sound, hbmPut_map_some]

/-- What a write into a slot leaves of HBM and of the slot's status. -/
theorem State.libraryWrite_facts (sound : s.ecc.hbmBad = []) :
    (s.slotWriteRefused i = none → (s.libraryWrite m i off (data.map some)).hbm = memWrite data (slotBase i + off) s.hbm ∧
      (s.libraryWrite m i off (data.map some)).word .almSlotStatus i = 8) ∧
    (s.slotWriteRefused i ≠ none → (s.libraryWrite m i off (data.map some)).hbm = s.hbm ∧
      (s.libraryWrite m i off (data.map some)).word .almSlotStatus i = s.word .almSlotStatus i) := by
  refine ⟨fun accepted => ?_, fun refused => ?_⟩
  · rw [State.libraryWrite_accepted s m i off data sound accepted]
    exact ⟨rfl, State.word_setWord_same ..⟩
  · obtain ⟨c, cause⟩ := Option.ne_none_iff_exists'.1 refused
    have done : s.libraryWrite m i off (data.map some) = s.errResp m (slotBase i + off) true c := by
      unfold State.libraryWrite
      rw [cause]
    rw [done]
    exact ⟨State.errResp_hbm .., State.word_errResp _ _ _ _ _ _ _ (by decide)⟩

end

theorem completes_libraryWrite {m : Master} {i : SlotId} {s : State} (off : Nat) (data : List Byte)
    (hr : s.reaches m (21 + i / 4) true = true) (sound : s.ecc.hbmBad = []) : Completes (.libraryWrite m i off data) s fun t =>
      (∀ a, a < slotBase i + off ∨ slotBase i + off + data.length ≤ a → Tbl.get 0 t.hbm a = Tbl.get 0 s.hbm a) ∧
      (s.slotWriteRefused i = none → memRead t.hbm (slotBase i + off) data.length = data ∧ t.word .almSlotStatus i = 8) ∧
      (s.slotWriteRefused i ≠ none → t.hbm = s.hbm ∧ t.word .almSlotStatus i = s.word .almSlotStatus i) := by
  obtain ⟨x, hx, hbm, access⟩ := s.byTarget_ok_hbm m (21 + i / 4) (slotBase i + off) data.length true
    (fun s => (s.libraryWrite m i off (data.map some)).meter .pmBwHbmWr (i / 4) data.length) hr
  obtain ⟨accepted, refused⟩ := x.libraryWrite_facts m i off data ((congrArg EccH.hbmBad (hx.ecc (by decide))).trans sound)
  rw [hx.slotWriteRefused, hbm] at accepted refused
  rw [hx.word _ (by decide)] at refused
  refine ⟨_, congrArg Host.Outcome.next access, ?_⟩
  dsimp only
  rw [State.meter_hbm, (State.meter_within ..).word _ (by decide)]
  refine ⟨fun a outside => ?_, fun h => ?_, refused⟩
  · by_cases h : s.slotWriteRefused i = none
    · obtain ⟨written, -⟩ := accepted h
      rw [written]
      exact memByte_memWrite_out data _ a _ outside
    · obtain ⟨kept, -⟩ := refused h
      rw [kept]
  · obtain ⟨written, status⟩ := accepted h
    rw [written]
    exact ⟨memRead_memWrite .., status⟩

/-! ### Commands on a slot (08 R193, R194; 12 R332) -/

/-- Whether a command on a slot gets an error response: 1 CHECK, 2 STAGE. -/
def State.slotCmdRefused (s : State) (op i : Nat) : Bool := if op = 1 then s.checkRefused i else if op = 2 then s.stageRefused i else true

/-- What is judged of a command is the slot's status and ALM_STATE. -/
theorem Within.slotCmdRefused {k : Foot} {s x : State} (h : Within k s x) (status : k.hasReg .almSlotStatus = false)
    (state : k.hasReg .almState = false) (op i : Nat) : x.slotCmdRefused op i = s.slotCmdRefused op i := by
  unfold State.slotCmdRefused State.checkRefused State.stageRefused State.estate State.shadow
  rw [h.slotState status, h.flag (f := F.almStateCheckBusy) state, h.flag (f := F.almSlotStatusWritten) status,
    h.rd (f := F.almStateEstate) state, h.rd (f := F.almStateShadow) state]

section
variable {m : Master} {s : State} {op i : Nat} (hr : s.reaches m 18 true = true)
include hr

/-- A refused command changes nothing but what an error response and the access's counts do. -/
theorem State.slotCmd_refused (refused : s.slotCmdRefused op i = true) :
    Within .port s (s.byReg m .almSlotCmd 0 8 true fun s => s.slotCmd m op i) := by
  obtain ⟨x, hx, access⟩ := s.byReg_ok m .almSlotCmd 0 8 true (fun s => s.slotCmd m op i) hr
  have answered : x.slotCmd m op i = x.errResp m (regAddr .almSlotCmd 0) true (if x.slotState i = slotLost then .unavailable else .value) :=
    if_pos ((hx.slotCmdRefused (by decide) (by decide) op i).trans refused)
  rw [access, answered]
  exact .after (State.errResp_within ..) (hx.mono (by decide)) (by decide)

/-- An accepted command begins on a state that differs by counts and by what ALM_SLOT_CMD shows. -/
theorem State.slotCmd_accepted (hj : s.joined = false) (accepted : s.slotCmdRefused op i = false) : ∃ y,
    Within (Foot.countedAlone.plus (.of [] [.almSlotCmd])) s y ∧ (s.byReg m .almSlotCmd 0 8 true fun s => s.slotCmd m op i) =
      if op = 1 then y.checkStart i else y.stageStart i false := by
  obtain ⟨x, hx, access⟩ := State.byReg_alone (f := (·.slotDo op i)) hr hj .almSlotCmd (g := (·.slotCmd m op i)) fun y hy =>
    if_neg (by rw [← State.slotCmdRefused, hy.slotCmdRefused (by decide) (by decide), accepted]; decide)
  have shown : Within (Foot.countedAlone.plus (.of [] [.almSlotCmd])) s (x.wr F.almSlotCmdSlot 0 i) := .wr _ _ _ (hx.mono (by decide)) (by decide)
  have still := (shown.slotCmdRefused (by decide) (by decide) op i).trans accepted
  refine ⟨_, shown, access.trans ?_⟩
  unfold State.slotCmdRefused at still
  unfold State.slotDo
  extract_lets y
  split
  next check =>
    rw [if_pos check] at still
    exact if_neg (by rw [still]; decide)
  next other =>
    rw [if_neg other] at still
    split
    next stage =>
      rw [if_pos stage] at still
      exact if_neg (by rw [still]; decide)
    next neither =>
      rw [if_neg neither] at still
      cases still

end

/-! ### CHECK begun (08 R193) -/

theorem State.checkStart_facts (s : State) (i : Nat) : (s.checkStart i).slotState i = 1 ∧ (s.checkStart i).flag F.almStateCheckBusy 0 = true ∧
    (s.checkStart i).alm.checking = some (i, s.tick.n) := by
  have shown : Within (.of [.alm] []) ((s.setSlot i slotChecking).setFlag F.almStateCheckBusy 0 true) (s.checkStart i) :=
    .set_alm (.refl ..) (by decide)
  refine ⟨(shown.rd (by decide) i).trans ?_, (shown.flag (by decide) 0).trans (State.flag_setFlag _ _ _ _ rfl (by decide)), ?_⟩
  · exact (State.rd_setFlag_apart _ _ _ _ (by decide) (by decide)).trans (State.rd_wr _ _ _ _ (by decide))
  · have noted : (s.checkStart i).alm.checking = some (i, ((s.setSlot i slotChecking).setFlag F.almStateCheckBusy 0 true).tick.n) := rfl
    rw [noted, State.setFlag_tick, State.setSlot, State.wr_tick]

theorem completes_almCheck {m : Master} {i : SlotId} {s : State} (hr : s.reaches m 18 true = true) (hj : s.joined = false) :
    Completes (.almCheck m i) s fun t =>
      (s.checkRefused i = false → t.slotState i = 1 ∧ t.flag F.almStateCheckBusy 0 = true ∧ t.alm.checking = some (i.val, s.tick.n)) ∧
      (s.checkRefused i = true → t.word .almSlotStatus i = s.word .almSlotStatus i ∧ t.word .almState 0 = s.word .almState 0 ∧
        t.alm = s.alm) := by
  cases judged : s.checkRefused i with
  | true =>
    have kept := State.slotCmd_refused (op := 1) hr judged
    exact ⟨_, rfl, nofun, fun _ => ⟨kept.word _ (by decide) i, kept.word _ (by decide) 0, kept.alm (by decide)⟩⟩
  | false =>
    obtain ⟨y, hy, begun⟩ := State.slotCmd_accepted (op := 1) hr hj judged
    obtain ⟨slot, busy, checking⟩ := y.checkStart_facts i
    rw [hy.tick (by decide)] at checking
    exact ⟨_, congrArg Host.Outcome.next begun, fun _ => ⟨slot, busy, checking⟩, nofun⟩

/-! ### CHECK ended (08 R193, Table 08-6) -/

/-- A CHECK over, before its slot is judged. -/
def State.checkOver (s : State) : State := ({ s with alm := { s.alm with checking := none } }).setFlag F.almStateCheckBusy 0 false

/-- A slot that every row passes, and one that fails a row. -/
def State.slotAccept (s : State) (i : Nat) : State := ((s.setSlot i slotAccepted).wr F.almSlotStatusReason i 0).wr F.almSlotStatusDetail i 0
def State.slotReject (s : State) (i reason detail : Nat) : State :=
  (((s.setSlot i slotRejected).wr F.almSlotStatusReason i reason).wr F.almSlotStatusDetail i detail).count .almCheckReject 0

/-- A slot shown as its checks ended. -/
def State.slotJudged (s : State) (i : Nat) : Failed → State
  | none => s.slotAccept i
  | some (reason, detail) => s.slotReject i reason detail

section
variable (s : State)

theorem State.checkOver_within : Within (.of [.alm] [.almState]) s s.checkOver :=
  .setFlag _ _ _ (.set_alm (.refl ..) (by decide)) (by decide)

theorem State.checkOver_facts : s.checkOver.flag F.almStateCheckBusy 0 = false ∧ s.checkOver.alm.checking = none :=
  ⟨State.flag_setFlag _ _ _ _ rfl (by decide), congrArg AlmH.checking (State.setFlag_alm ..)⟩

variable (i : Nat)

theorem State.slotAccept_within : Within (.of [] [.almSlotStatus]) s (s.slotAccept i) :=
  .wr _ _ _ (.wr _ _ _ (.wr _ _ _ (.refl ..) (by decide)) (by decide)) (by decide)

theorem State.slotAccept_facts : (s.slotAccept i).slotState i = 2 ∧ (s.slotAccept i).rd F.almSlotStatusReason i = 0 ∧
    (s.slotAccept i).rd F.almSlotStatusDetail i = 0 := by
  refine ⟨?_, ?_, State.rd_wr _ _ _ _ (by decide)⟩
  · exact (State.rd_wr_apart _ _ _ _ (by decide) (by decide)).trans ((State.rd_wr_apart _ _ _ _ (by decide) (by decide)).trans
      (State.rd_wr _ _ _ _ (by decide)))
  · exact (State.rd_wr_apart _ _ _ _ (by decide) (by decide)).trans (State.rd_wr _ _ _ _ (by decide))

variable (reason detail : Nat)

theorem State.slotReject_within : Within (.of [] [.almSlotStatus, .almCheckReject]) s (s.slotReject i reason detail) :=
  .count _ _ (.wr _ _ _ (.wr _ _ _ (.wr _ _ _ (.refl ..) (by decide)) (by decide)) (by decide)) (by decide)

theorem State.slotReject_facts : (s.slotReject i reason detail).slotState i = 3 ∧
    (s.slotReject i reason detail).rd F.almSlotStatusReason i = reason % 2 ^ F.almSlotStatusReason.width ∧
    (s.slotReject i reason detail).word .almCheckReject 0 = s.word .almCheckReject 0 + 1 := by
  refine ⟨?_, ?_, ?_⟩
  · exact (State.rd_count_other _ _ _ (by decide)).trans ((State.rd_wr_apart _ _ _ _ (by decide) (by decide)).trans
      ((State.rd_wr_apart _ _ _ _ (by decide) (by decide)).trans (State.rd_wr _ _ _ _ (by decide))))
  · exact (State.rd_count_other _ _ _ (by decide)).trans ((State.rd_wr_apart _ _ _ _ (by decide) (by decide)).trans
      (State.rd_wr _ _ _ _ (by decide)))
  · unfold State.slotReject State.setSlot
    rw [State.word_count, State.word_wr_other _ _ (.inl (by decide)), State.word_wr_other _ _ (.inl (by decide)),
      State.word_wr_other _ _ (.inl (by decide))]

end

section
variable {s : State} {i n : Nat} (running : s.alm.checking = some (i, n)) (checking : s.slotState i = 1)
include running checking

theorem State.checkEnd_none : s.checkEnd none = s.checkOver.slotJudged i (s.checkOver.loadCheck i) := by
  have here : s.checkOver.slotState i = 1 := (s.checkOver_within.slotState (by decide) i).trans checking
  unfold State.checkEnd
  rw [running]
  refine (if_neg (not_not.2 here)).trans ?_
  rw [State.when_neg (b := (none : Option Nat).isSome) rfl]
  rfl

theorem State.checkEnd_some (ty : Nat) : s.checkEnd (some ty) = (s.checkOver.libraryUncorrected i).slotJudged i
    (((s.checkOver.libraryUncorrected i).checkHeader i).orElse fun _ => some (3, ty)) := by
  have here : s.checkOver.slotState i = 1 := (s.checkOver_within.slotState (by decide) i).trans checking
  unfold State.checkEnd
  rw [running]
  refine (if_neg (not_not.2 here)).trans ?_
  rw [State.when_pos (b := (some ty).isSome) rfl]
  rfl

end

theorem completes_almCheckDone {i : SlotId} {s : State} (n : Nat) (u : State) (running : s.alm.checking = some (i.val, n))
    (ended : u = ({ s with alm := { s.alm with checking := none } }).setFlag F.almStateCheckBusy 0 false) (checking : s.slotState i = 1) :
    Completes (.almCheckDone none) s (fun t => t.flag F.almStateCheckBusy 0 = false ∧ t.alm.checking = none ∧
      (u.loadCheck i = none → t.slotState i = 2 ∧ t.rd F.almSlotStatusReason i = 0 ∧ t.rd F.almSlotStatusDetail i = 0) ∧
      (∀ reason detail, u.loadCheck i = some (reason, detail) → t.slotState i = 3 ∧
        t.rd F.almSlotStatusReason i = reason % 2 ^ F.almSlotStatusReason.width ∧
        t.word .almCheckReject 0 = s.word .almCheckReject 0 + 1)) ∧
    ∀ ty : Nat, Completes (.almCheckDone (some ty)) s fun t =>
      t.slotState i = 3 ∧ t.word .almCheckReject 0 = s.word .almCheckReject 0 + 1 := by
  obtain ⟨idle, unchecked⟩ := s.checkOver_facts
  have counter : s.checkOver.word .almCheckReject 0 = s.word .almCheckReject 0 := s.checkOver_within.word _ (by decide) 0
  refine ⟨⟨_, congrArg Host.Outcome.next (State.checkEnd_none running checking), ?_⟩, fun ty => ?_⟩
  · have u_eq : u = s.checkOver := ended
    rw [u_eq]
    cases s.checkOver.loadCheck i with
    | none =>
      have shown := s.checkOver.slotAccept_within i
      exact ⟨(shown.flag (by decide) 0).trans idle, (congrArg AlmH.checking (shown.alm (by decide))).trans unchecked,
        fun _ => s.checkOver.slotAccept_facts i, nofun⟩
    | some failed =>
      obtain ⟨reason, detail⟩ := failed
      have shown := s.checkOver.slotReject_within i reason detail
      obtain ⟨slot, row, rejected⟩ := s.checkOver.slotReject_facts i reason detail
      refine ⟨(shown.flag (by decide) 0).trans idle, (congrArg AlmH.checking (shown.alm (by decide))).trans unchecked,
        nofun, fun _ _ failed => ?_⟩
      cases failed
      exact ⟨slot, row, rejected.trans (congrArg (· + 1) counter)⟩
  · obtain ⟨⟨reason, detail⟩, failed⟩ : ∃ r, (((s.checkOver.libraryUncorrected i).checkHeader i).orElse fun _ => some (3, ty)) = some r := by
      cases (s.checkOver.libraryUncorrected i).checkHeader i <;> exact ⟨_, rfl⟩
    obtain ⟨slot, -, rejected⟩ := (s.checkOver.libraryUncorrected i).slotReject_facts i reason detail
    rw [(State.libraryUncorrected_within ..).word _ (by decide), counter] at rejected
    refine ⟨_, congrArg Host.Outcome.next (State.checkEnd_some running checking ty), ?_⟩
    rw [failed]
    exact ⟨slot, rejected⟩

/-- Settles O35: a write by whether the slot may be written, a CHECK by whether it is refused, its end by what the rows answer. -/
theorem librarySlotsAreWrittenAndChecked : Obligations.LibrarySlotsAreWrittenAndChecked := fun _ _ _ =>
  ⟨completes_libraryWrite, completes_almCheck, completes_almCheckDone⟩

end Sys2Proof.Machine

/-! Staging: SHADOW while a slot is copied, and what the shadow holds once it is (08 R194, R200, R202). -/

namespace Sys2Proof.Machine

/-! ### STAGE (08 R194) -/

theorem State.stageStart_facts (s : State) {i : Nat} (hi : i < 16) (chain : Bool) : (s.stageStart i chain).shadow = 1 ∧
    (s.stageStart i chain).rd F.almStateShadowSlot 0 = i ∧ (s.stageStart i chain).alm.staging = some s.tick.n ∧
    (s.stageStart i chain).estate = s.estate := by
  have shown : Within (.of [.alm] []) ((s.wr F.almStateShadow 0 shStaging).wr F.almStateShadowSlot 0 i) (s.stageStart i chain) :=
    .set_alm (.refl ..) (by decide)
  have since : (s.stageStart i chain).alm.staging = some ((s.wr F.almStateShadow 0 shStaging).wr F.almStateShadowSlot 0 i).tick.n := rfl
  refine ⟨(shown.rd (by decide) 0).trans ?_, (shown.rd (by decide) 0).trans ?_, ?_, (shown.rd (by decide) 0).trans ?_⟩
  · exact (State.rd_wr_apart _ _ _ _ (by decide) (by decide)).trans (State.rd_wr _ _ _ _ (by decide))
  · exact (State.rd_wr _ _ _ _ (by decide)).trans (Nat.mod_eq_of_lt hi)
  · rw [since, State.wr_tick, State.wr_tick]
  · exact (State.rd_wr_apart _ _ _ _ (by decide) (by decide)).trans (State.rd_wr_apart _ _ _ _ (by decide) (by decide))

theorem completes_almStage {m : Master} {i : SlotId} {s : State} (hr : s.reaches m 18 true = true) (hj : s.joined = false) :
    Completes (.almStage m i) s fun t =>
      (s.stageRefused i = false → t.shadow = 1 ∧ t.rd F.almStateShadowSlot 0 = i ∧ t.alm.staging = some s.tick.n ∧ t.estate = s.estate) ∧
      (s.stageRefused i = true → t.word .almState 0 = s.word .almState 0 ∧ t.alm = s.alm) := by
  cases judged : s.stageRefused i with
  | true =>
    have kept := State.slotCmd_refused (op := 2) hr judged
    exact ⟨_, rfl, nofun, fun _ => ⟨kept.word _ (by decide) 0, kept.alm (by decide)⟩⟩
  | false =>
    obtain ⟨y, hy, begun⟩ := State.slotCmd_accepted (op := 2) hr hj judged
    obtain ⟨shadow, slot, since, estate⟩ := y.stageStart_facts i.isLt false
    rw [hy.tick (by decide)] at since
    exact ⟨_, congrArg Host.Outcome.next begun, fun _ => ⟨shadow, slot, since, estate.trans (hy.rd (by decide) 0)⟩, nofun⟩

/-! ### The end of a staging (08 R194, R202) -/

section
variable {s : State}

theorem State.stageFail_facts (s : State) : s.stageFail.shadow = 4 ∧ s.stageFail.word .almStageFail 0 = s.word .almStageFail 0 + 1 ∧
    s.stageFail.alm.staging = none := by
  have start : Within (.of [.alm] []) s { s with alm := { s.alm with staging := none, chain := false } } := .set_alm (.refl ..) (by decide)
  refine ⟨(State.rd_count_other _ _ _ (by decide)).trans (State.rd_wr _ _ _ _ (by decide)), ?_, ?_⟩
  · unfold State.stageFail
    rw [State.word_count, State.word_wr_other _ _ (.inl (by decide)), start.word _ (by decide)]
  · unfold State.stageFail
    rw [State.count_alm, State.wr_alm]

/-- A library read error ends a staging FAILED (11 Table 11-4). -/
theorem completes_almStageDone_unread (running : s.alm.staging.isSome = true) : Completes (.almStageDone true) s fun t =>
    t.shadow = 4 ∧ t.word .almStageFail 0 = s.word .almStageFail 0 + 1 ∧ t.alm.staging = none ∧ t.core = s.core := by
  have read := s.libraryUncorrected_within (s.rd F.almStateShadowSlot 0)
  have ends : s.stageEnd true = (s.libraryUncorrected (s.rd F.almStateShadowSlot 0)).stageFail := by
    unfold State.stageEnd
    rw [if_neg (by rw [← Option.not_isSome, running]; decide)]
    dsimp only
    rw [State.when_pos rfl, if_pos (by rw [Bool.true_or, Bool.true_or])]
  obtain ⟨shadow, failed, idle⟩ := (s.libraryUncorrected (s.rd F.almStateShadowSlot 0)).stageFail_facts
  rw [read.word _ (by decide)] at failed
  exact ⟨_, congrArg Host.Outcome.next ends, shadow, failed, idle, ((State.stageFail_within _).core (by decide)).trans (read.core (by decide))⟩

/-- The shadow filled from a slot holds its image, and the active tables stay. -/
theorem State.fillShadow_facts (s : State) (i : Nat) :
    (s.fillShadow i).core = { s.core with
      emitShadow := s.imageEmit i, termShadow := s.imageTerms i, upShadow := s.imageConv i, coefShadow := s.imageCoef i } ∧
    (s.fillShadow i).alm = { s.alm with shadow := s.image i } := by
  unfold State.fillShadow
  extract_lets _ _ _ x dirty
  have rewritten : Within (.of [.act, .irqs, .log, .pm, .events, .ecc, .bus] [.eccStatus, .eccTrack, .busStatus, .busGrants, .logState,
      .logEvbEntries, .logDropped, .logEvbLost, .logEntries, .sysIntSrc]) x (x.each dirty.eraseDups fun a s => s.fullWrite a) :=
    (Within.refl _ x).each _ _ fun _ _ hy => .after (State.fullWrite_within ..) hy (by decide)
  exact ⟨rewritten.core (by decide), rewritten.alm (by decide)⟩

theorem completes_almStageDone_staged {i : Nat} (running : s.alm.staging.isSome = true) (source : s.rd F.almStateShadowSlot 0 = i)
    (unchained : s.alm.chain = false) (sections : s.checkSections i = none) (digests : s.checkDigests i (s.image i) = none) :
    Completes (.almStageDone false) s fun t => t.shadow = 2 ∧ t.alm.staging = none ∧
      t.core.emitShadow = s.imageEmit i ∧ t.core.termShadow = s.imageTerms i ∧ t.core.upShadow = s.imageConv i ∧
      t.core.coefShadow = s.imageCoef i ∧ t.alm.shadow = s.image i ∧ t.core.emit = s.core.emit ∧ t.core.terms = s.core.terms := by
  obtain ⟨y, filled, ends⟩ : ∃ y : State, (y.core = (s.fillShadow i).core ∧
      y.alm = { (s.fillShadow i).alm with staging := none, chain := false }) ∧ s.stageEnd false = y.wr F.almStateShadow 0 shStaged := by
    refine ⟨{ s.fillShadow i with alm := { (s.fillShadow i).alm with staging := none, chain := false } }, ⟨rfl, rfl⟩, ?_⟩
    unfold State.stageEnd
    rw [if_neg (by rw [← Option.not_isSome, running]; decide), source]
    dsimp only
    rw [State.when_neg rfl, if_neg (by rw [sections, digests]; decide), if_neg (by rw [unchained, Bool.false_and]; decide)]
  obtain ⟨core, alm⟩ := s.fillShadow_facts i
  rw [core, alm] at filled
  obtain ⟨core, alm⟩ := filled
  refine ⟨_, congrArg Host.Outcome.next ends, State.rd_wr _ _ _ _ (by decide), ?_⟩
  rw [State.wr_core, State.wr_alm, core, alm]
  exact ⟨rfl, rfl, rfl, rfl, rfl, rfl, rfl, rfl⟩

/-- An end of a staging that does not run changes nothing (log entry 7). -/
theorem completes_almStageDone_idle (readUe : Bool) (idle : s.alm.staging = none) : Completes (.almStageDone readUe) s fun t => t = s :=
  ⟨s, congrArg Host.Outcome.next (if_pos (by rw [idle]; rfl)), rfl⟩

end

/-- Settles O36: a STAGE by whether it is refused; its end by a read error, by what the shadow is filled with, and where no staging runs. -/
theorem almanacsAreStaged : Obligations.AlmanacsAreStaged := fun _ _ _ =>
  ⟨completes_almStage, fun running _ => completes_almStageDone_unread running, completes_almStageDone_staged, completes_almStageDone_idle⟩

end Sys2Proof.Machine

/-! Trims and the audit: a trim queued and taken, a pass of the audit ended, and ALM_AUDIT_CTRL (08 R205 to R207, R210). -/

namespace Sys2Proof.Machine

/-! ### GO (08 R205 to R207, Table 08-13) -/

/-- The value that TRIM_GO writes: GO, KIND, INDEX and GAIN. -/
def trimValue (output : Bool) (index : BitVec 21) (gain : BitVec 12) : Nat :=
  gain.toNat + index.toNat * 2 ^ 24 + b2n output * 2 ^ 48 + 2 ^ 63

theorem trimValue_fields (output : Bool) (index : BitVec 21) (gain : BitVec 12) : bit (trimValue output index gain) 48 = output ∧
    field (trimValue output index gain) 24 21 = index.toNat ∧ field (trimValue output index gain) 0 12 = gain.toNat := by
  have index_lt := index.isLt
  have gain_lt := gain.isLt
  have kind : b2n output ≤ 1 ∧ (b2n output = 1 ↔ output = true) := by cases output <;> decide
  obtain ⟨kind_le, kind_iff⟩ := kind
  unfold trimValue bit field
  refine ⟨Bool.eq_iff_iff.2 (decide_eq_true_iff.trans (.trans ?_ kind_iff)), ?_, ?_⟩ <;> omega

theorem Within.trimsWaiting {s x : State} (h : Within .counted s x) : x.trimsWaiting = s.trimsWaiting := by
  unfold State.trimsWaiting
  rw [h.alm (by decide), h.mate (by decide)]

section
variable (s : State) (v : Nat)

/-- With no epoch COMMITTED or SWAPPING a trim joins the queue. -/
theorem State.trimQueue_alm (u : Nat) (uncommitted : s.estate ≠ 2) (unswapping : s.estate ≠ 3) : (s.trimQueue v u).alm =
    { s.alm with trims := s.alm.trims ++ [⟨bit v 48, field v 24 21, field v 0 12, BitVec.ofNat 32 u⟩] } := by
  have estate : (s.setWord .almTrimCmd 0 (trimWord v)).estate = s.estate := State.rd_congr (State.word_setWord_other _ _ (.inl (by decide)))
  unfold State.trimQueue
  extract_lets x t _ y
  have kept : x.alm = s.alm := State.setWord_alm ..
  have queued : y.alm = { x.alm with trims := x.alm.trims ++ [t] } := rfl
  rw [if_neg (by rw [estate]; simp [uncommitted, unswapping]), State.wr_alm, queued, kept]

theorem State.trimResult_facts {r : Nat} (hr : r < 8) : (s.trimResult r).rd F.almTrimStatusResult 0 = r ∧ (s.trimResult r).alm = s.alm ∧
    (s.trimResult r).core = s.core := by
  have within := s.trimResult_within r
  refine ⟨?_, within.alm (by decide), within.core (by decide)⟩
  exact (State.rd_wr_apart _ _ _ _ (by decide) (by decide)).trans ((State.rd_wr _ _ _ _ (by decide)).trans (Nat.mod_eq_of_lt hr))

/-- With an epoch COMMITTED or SWAPPING it reports EPOCH_BUSY (08 R207). -/
theorem State.trimGo_busy (m : Master) (be : BitVec 8) (room : s.trimsWaiting < 16) (busy : s.estate = 2 ∨ s.estate = 3) :
    (s.trimGo m v be).alm = s.alm ∧ (s.trimGo m v be).rd F.almTrimStatusResult 0 = 4 := by
  have counts : Within (.of [] [.mateUnmirrored, .almTrimCmd]) s
      ((s.when (!s.joined && s.paired) (·.count .mateUnmirrored 0)).setWord .almTrimCmd 0 (trimWord v)) :=
    .setWord _ _ _ (.when _ _ (.refl ..) fun _ hy => .count _ _ hy (by decide)) (by decide)
  obtain ⟨result, alm, -⟩ := State.trimResult_facts
    ((s.when (!s.joined && s.paired) (·.count .mateUnmirrored 0)).setWord .almTrimCmd 0 (trimWord v)) (r := 4) (by decide)
  unfold State.trimGo
  rw [if_neg (not_le.2 room), if_pos (by simpa using busy)]
  exact ⟨alm.trans (counts.alm (by decide)), result⟩

end

theorem completes_trimGo {m : Master} {s : State} (output : Bool) (index : BitVec 21) (gain : BitVec 12)
    (hr : s.reaches m 18 true = true) : Completes (.trimGo m output index gain) s fun t =>
      (16 ≤ s.trimsWaiting → t.alm = s.alm ∧ t.word .almTrimCmd 0 = s.word .almTrimCmd 0) ∧
      (s.trimsWaiting < 16 → s.estate = 2 ∨ s.estate = 3 → t.alm = s.alm ∧ t.rd F.almTrimStatusResult 0 = 4) ∧
      (s.trimsWaiting < 16 → s.estate ≠ 2 → s.estate ≠ 3 → s.joined = false →
        t.alm = { s.alm with trims := s.alm.trims ++ [⟨output, index.toNat, gain.toNat, BitVec.ofNat 32 (tadd s.now 2)⟩] }) := by
  obtain ⟨x, hx, access⟩ := s.byReg_ok m .almTrimCmd 0 8 true (fun s => s.trimGo m (trimValue output index gain) 0xFF) hr
  have estate : x.estate = s.estate := hx.rd (by decide) 0
  refine ⟨_, congrArg Host.Outcome.next access, fun full => ?_, fun room busy => ?_, fun room uncommitted unswapping alone => ?_⟩
  · have refused : x.trimGo m (trimValue output index gain) 0xFF = x.errResp m (regAddr .almTrimCmd 0) true .value :=
      if_pos (by rw [hx.trimsWaiting]; exact full)
    rw [refused]
    exact ⟨(State.errResp_alm ..).trans (hx.alm (by decide)), (State.word_errResp _ _ _ _ _ _ _ (by decide)).trans (hx.word _ (by decide) 0)⟩
  · obtain ⟨alm, result⟩ := x.trimGo_busy (trimValue output index gain) m 0xFF (by rw [hx.trimsWaiting]; exact room)
      (by rw [estate]; exact busy)
    exact ⟨alm.trans (hx.alm (by decide)), result⟩
  · obtain ⟨y, hy, joins⟩ := State.mirrored_alone (s := x) ((hx.flag (by decide) 0).trans alone) (regAddr .almTrimCmd 0) 0xFF
      (BitVec.ofNat 64 (trimValue output index gain)) fun s => s.trimQueue (trimValue output index gain) (tadd s.now 2)
    have both : Within .countedAlone s y := hy.after (hx.mono (by decide)) (by decide)
    have now : y.now = s.now := both.rd (by decide) 0
    have queued : x.trimGo m (trimValue output index gain) 0xFF = y.trimQueue (trimValue output index gain) (tadd y.now 2) := by
      unfold State.trimGo
      rw [if_neg (by rw [hx.trimsWaiting]; exact not_le.2 room), if_neg (by rw [estate]; simp [uncommitted, unswapping])]
      exact joins
    obtain ⟨kind, term, code⟩ := trimValue_fields output index gain
    rw [queued, State.trimQueue_alm _ _ _ (by rw [both.estate]; exact uncommitted) (by rw [both.estate]; exact unswapping), now,
      both.alm (by decide), kind, term, code]

/-! ### A trim taken (08 R205 to R207) -/

section
variable {s : State} {t : Trim} {rest : List Trim}

/-- A trim without the map or the almanac that it needs reports so, and changes no table. -/
theorem State.trimDo_unmapped (s : State) (term : t.output = false) (unmapped : s.hasTrimMap = false) : s.trimDo t = s.trimResult 3 := by
  unfold State.trimDo
  dsimp only
  rw [if_neg (by rw [term]; decide), if_pos (by rw [unmapped]; rfl)]

theorem State.trimDo_inactive (s : State) (entry : t.output = true) (inactive : s.flag F.almStateActiveValid 0 = false) :
    s.trimDo t = s.trimResult 2 := by
  unfold State.trimDo
  dsimp only
  rw [if_pos entry, if_pos (by rw [inactive]; rfl)]

/-- The head of the queue taken out of it in the tick in progress, `rest` the trims behind it. -/
def State.takeTrim (s : State) (rest : List Trim) : State := { s with alm := { s.alm with trims := rest, trimAt := s.tick.n + 1 } }

theorem State.takeTrim_within (s : State) (rest : List Trim) : Within (.of [.alm] []) s (s.takeTrim rest) := .set_alm (.refl ..) (by decide)

/-- The head of the queue taken in a tick in which no trim was and no restore is due, once its tick has come. -/
theorem execTrimApply_due (queue : s.alm.trims = t :: rest) (unrestored : s.ecc.restores = []) (quiet : s.ecc.restoredAt ≠ s.tick.n + 1)
    (first : s.alm.trimAt ≠ s.tick.n + 1) (due : 0 ≤ tdiff t.u.toNat s.now) : exec .trimApply s =
      .next (((s.takeTrim rest).trimDo t).trimNote t) := by
  show execTrimApply s = _
  unfold execTrimApply
  rw [queue]
  dsimp only
  rw [if_pos (by rw [unrestored]; simp [due, first, quiet])]
  rfl

theorem Within.hasTrimMap {k : Foot} {s x : State} (h : Within k s x) (state : k.hasReg .almState = false)
    (status : k.hasReg .almSlotStatus = false) : x.hasTrimMap = s.hasTrimMap := by
  unfold State.hasTrimMap
  rw [h.flag state, h.rd (f := F.almStateActiveSlot) state, h.rd (f := F.almSlotStatusSstate) status]

theorem completes_trimApply_due (queue : s.alm.trims = t :: rest) (unrestored : s.ecc.restores = [])
    (quiet : s.ecc.restoredAt ≠ s.tick.n + 1) (first : s.alm.trimAt ≠ s.tick.n + 1) (due : 0 ≤ tdiff t.u.toNat s.now) :
    Completes .trimApply s fun u => u.alm.trims = rest ∧ u.alm.trimAt = s.tick.n + 1 ∧
      (t.output = false → s.hasTrimMap = false → u.rd F.almTrimStatusResult 0 = 3 ∧ u.core = s.core) ∧
      (t.output = true → s.flag F.almStateActiveValid 0 = false → u.rd F.almTrimStatusResult 0 = 2 ∧ u.core = s.core) := by
  refine ⟨_, execTrimApply_due queue unrestored quiet first due, ?_⟩
  have taken := s.takeTrim_within rest
  have noted := ((s.takeTrim rest).trimDo t).trimNote_within t
  have alm : (((s.takeTrim rest).trimDo t).trimNote t).alm = (s.takeTrim rest).alm :=
    (noted.alm (by decide)).trans ((State.trimDo_within ..).alm (by decide))
  have refused : ∀ r < 8, (s.takeTrim rest).trimDo t = (s.takeTrim rest).trimResult r →
      (((s.takeTrim rest).trimDo t).trimNote t).rd F.almTrimStatusResult 0 = r ∧
      (((s.takeTrim rest).trimDo t).trimNote t).core = s.core := fun r hr done => by
    obtain ⟨result, -, core⟩ := (s.takeTrim rest).trimResult_facts hr
    rw [noted.rd (by decide), noted.core (by decide), done]
    exact ⟨result, core.trans (taken.core (by decide))⟩
  refine ⟨congrArg AlmH.trims alm, congrArg AlmH.trimAt alm, fun term unmapped => ?_, fun entry inactive => ?_⟩
  · exact refused 3 (by decide) (State.trimDo_unmapped _ term ((taken.hasTrimMap (by decide) (by decide)).trans unmapped))
  · exact refused 2 (by decide) (State.trimDo_inactive _ entry ((taken.flag (by decide) 0).trans inactive))

/-- Before its tick it waits (log entry 7). -/
theorem completes_trimApply_early (queue : s.alm.trims = t :: rest) (early : tdiff t.u.toNat s.now < 0) :
    Completes .trimApply s fun u => u = s := by
  refine ⟨s, ?_, rfl⟩
  show execTrimApply s = _
  unfold execTrimApply
  rw [queue]
  dsimp only
  rw [if_neg (by simp [not_le.2 early])]

end

/-! ### The audit (08 R210) -/

theorem State.auditReads_sameTick (s : State) : SameTick s s.auditReads.2.2 := by
  unfold State.auditReads
  refine SameTick.foldl (fun acc : List (Nat × Nat) × List Nat × State => acc.2.2) (.refl s) fun a acc h => ?_
  have read := h.trans (State.sramRead_sameTick acc.2.2 a false (acc.2.2.auditHeld a) false)
  split
  next e => exact read.of_eq e
  next e => exact read.of_eq e

/-- The end of a pass: the tables read, each region that differs marked, the pass counted, the alarm ended if it is clean, and a new one begun. -/
theorem State.auditEnd_eq (s : State) : ∃ x y w bad,
    Within Foot.sram s x ∧ SameTick s x ∧ Within (Foot.alarm.plus (.of [] [.almAuditStatus, .almAuditMismatch])) x y ∧
    Within .alarmEnd ((y.setFlag F.almStateAuditClean 0 bad).count .almAuditPasses 0) w ∧
    s.auditEnd = { w with alm := { w.alm with auditSince := some w.tick.n } } := by
  have read := s.auditReads_within
  have ticks := s.auditReads_sameTick
  unfold State.auditEnd
  split
  next ds skip x e =>
  rw [e] at read ticks
  refine ⟨x, _, _, _, read.mono (by decide), ticks, (Within.refl _ x).each _ _ fun _ _ h => .after (State.auditMismatch_within ..) h (by decide),
    .ite (State.clear_within ..) (.refl ..), rfl⟩

theorem State.auditEnd_facts (s : State) : s.auditEnd.word .almAuditPasses 0 = s.word .almAuditPasses 0 + 1 ∧
    s.auditEnd.alm.auditSince = some s.tick.n := by
  obtain ⟨x, y, w, bad, read, ticks, judged, cleared, ends⟩ := s.auditEnd_eq
  obtain ⟨-, tick, -⟩ := ticks.fields
  have begun : Within (.of [.alm] []) w s.auditEnd := ends ▸ .set_alm (.refl ..) (by decide)
  have since : w.tick = x.tick := 
    (cleared.tick (by decide)).trans ((State.count_tick ..).trans ((State.setFlag_tick ..).trans (judged.tick (by decide))))
  refine ⟨?_, ?_⟩
  · rw [begun.word _ (by decide), cleared.word _ (by decide), State.word_count, State.setFlag, State.word_wr_other _ _ (.inl (by decide)),
      judged.word _ (by decide), read.word _ (by decide)]
  · rw [ends]
    exact congrArg some ((congrArg TickH.n since).trans tick)

theorem completes_auditPassEnd {s : State} (n : Nat) (running : s.alm.auditSince = some n) (due : n + 269 ≤ s.tick.n) :
    Completes .auditPassEnd s fun t => t.word .almAuditPasses 0 = s.word .almAuditPasses 0 + 1 ∧ t.alm.auditSince = some s.tick.n := by
  refine ⟨s.auditEnd, ?_, s.auditEnd_facts⟩
  show execAuditPassEnd s = _
  unfold execAuditPassEnd
  rw [running]
  exact congrArg Host.Outcome.next (State.when_pos (decide_eq_true due))

theorem State.auditCtrl_facts (s : State) (en : Bool) : (s.auditCtrl en).flag F.almAuditCtrlEn 0 = en ∧
    (en = false → (s.auditCtrl en).alm.auditSince = none) := by
  have stored : (s.setFlag F.almAuditCtrlEn 0 en).flag F.almAuditCtrlEn 0 = en := State.flag_setFlag _ _ _ _ rfl (by decide)
  unfold State.auditCtrl
  extract_lets was x
  split
  next runs =>
    refine ⟨stored, fun off => ?_⟩
    rw [off] at runs
    cases runs
  next =>
    refine ⟨((State.auditBegin_within ..).flag (by decide) 0).trans stored, fun off => ?_⟩
    have disabled : x.flag F.almAuditCtrlEn 0 = false := stored.trans off
    unfold State.auditBegin
    extract_lets run
    exact if_neg (by dsimp only [run]; rw [disabled, Bool.and_false, Bool.false_and, Bool.false_and]; decide)

theorem completes_almAuditCtrlWrite {m : Master} {s : State} (en : Bool) (hr : s.reaches m 18 true = true) (hj : s.joined = false) :
    Completes (.almAuditCtrlWrite m en) s fun t => t.flag F.almAuditCtrlEn 0 = en ∧ (en = false → t.alm.auditSince = none) := by
  obtain ⟨x, -, access⟩ := State.byReg_alone (f := (·.auditCtrl en)) hr hj .almAuditCtrl
    (g := fun s => s.mirroredCmd .almAuditCtrl (b2n en) (·.auditCtrl en)) fun _ _ => rfl
  exact ⟨_, congrArg Host.Outcome.next access, x.auditCtrl_facts en⟩

/-- Settles O39: a GO by room and epoch, the head of the queue by its tick and by what it needs, a pass by what it reads, EN by its value. -/
theorem trimsWaitTheirTurn : Obligations.TrimsWaitTheirTurn := fun _ _ =>
  ⟨completes_trimGo, fun _ _ queue unrestored quiet first => ⟨completes_trimApply_due queue unrestored quiet first,
    completes_trimApply_early queue⟩, completes_auditPassEnd, completes_almAuditCtrlWrite⟩

end Sys2Proof.Machine

/-! The table window: how a write is judged, what it stores or queues, and what a reserved cycle takes of the waiting writes (08 R196, R197, R409; 12
R318). -/

namespace Sys2Proof.Machine

/-! ### Writes judged (08 R197, R409; 12 R331) -/

theorem windowTarget_of {addr off : Nat} {p : WinPlace} (place : winPlace addr = some (p, off)) : windowTarget addr = 19 := by
  unfold windowTarget
  rw [place]
  rfl

section
variable {s : State} {m : Master} {addr off : Nat} {data : List (Option Byte)} {p : WinPlace}

theorem Within.winHeld {k : Foot} {s x : State} (h : Within k s x) (hk : k.hasComp .core = false) : x.winHeld p = s.winHeld p := by
  cases p <;> simp only [State.winHeld, h.core hk]

/-- A write below expert level, of a place that may not be written, that enables no byte of one, or that would leave a reserved encoding. -/
theorem State.windowJudge_refuses (place : winPlace addr = some (p, off))
    (refused : s.expert m = false ∨ p.writable = false ∨ (p.enabled off data = 0 ∧ p.size ≠ 16) ∨
      (p.isShadow && s.shadow = shStaging) = false ∧ p.encodingOk (mergeBytes (s.winHeld p) p.base p.bytes off data) = false) :
    ∃ c, s.windowJudge m addr data = .error c := by
  unfold State.windowJudge
  rw [place]
  dsimp only
  split_ifs with long expert barred staging encoded
  any_goals exact ⟨_, rfl⟩
  simp only [Bool.not_eq_true', Bool.not_eq_false, Bool.or_eq_true, Bool.and_eq_true, decide_eq_true_eq, not_or] at expert barred
  obtain ⟨writable, enabled⟩ := barred
  obtain basic | unwritable | narrow | ⟨-, reserved⟩ := refused
  · exact absurd (expert.symm.trans basic) (by decide)
  · exact absurd (writable.symm.trans unwritable) (by decide)
  · exact absurd narrow enabled
  · exact absurd (encoded.symm.trans reserved) (by decide)

theorem State.windowJudge_accepts (place : winPlace addr = some (p, off)) (fits : off + data.length ≤ p.size) (expert : s.expert m = true)
    (writable : p.writable = true) (enabled : p.enabled off data ≠ 0) (unstaging : (p.isShadow && s.shadow = shStaging) = false)
    (encoding : p.encodingOk (mergeBytes (s.winHeld p) p.base p.bytes off data) = true) : s.windowJudge m addr data = .ok (p, off) := by
  unfold State.windowJudge
  rw [place]
  dsimp only
  rw [if_neg (not_lt.2 fits), if_neg (by rw [expert]; decide), if_neg (by simp [writable, enabled]), if_neg (by rw [unstaging]; decide),
    if_pos encoding]

end

theorem WinPlace.isActive_eq_false {p : WinPlace} (shadow : p.isShadow = true) : p.isActive = false := by
  cases p <;> simp_all [WinPlace.isShadow, WinPlace.isActive]

/-! ### What a write stores or queues -/

section
variable {s : State} {m : Master} {addr off : Nat} {data : List (Option Byte)} {p : WinPlace}

theorem State.windowWrite_refused {c : ErrCause} (judged : s.windowJudge m addr data = .error c) (cyc : Nat) :
    s.windowWrite m addr data cyc = s.errResp m addr true c := by
  unfold State.windowWrite
  rw [judged]

/-- A write accepted in a unit that is not joined is noted, then queued for a reserved cycle or stored at once (08 R197; 12 R318). -/
theorem State.windowWrite_alone (judged : s.windowJudge m addr data = .ok (p, off)) (hj : s.joined = false) (cyc : Nat) :
    ∃ y, Within (.of [.bus] [.busCollLast, .busCollisions, .mateUnmirrored]) s y ∧ s.windowWrite m addr data cyc =
      if p.isActive then { y with alm := { y.alm with window := y.alm.window ++ [⟨m, addr, data, 0, 0⟩] } }
      else y.windowDo (some m) addr data 0 := by
  have noted := s.noteWrite_within (masterNum m) (addr - off) addr cyc
  refine ⟨(s.noteWrite (masterNum m) (addr - off) addr cyc).when (s.noteWrite (masterNum m) (addr - off) addr cyc).paired
    (·.count .mateUnmirrored 0), .when _ _ (noted.mono (by decide)) fun _ hy => .count _ _ hy (by decide), ?_⟩
  unfold State.windowWrite
  rw [judged]
  exact if_neg (by rw [State.joined, noted.flag (by decide)]; exact Bool.eq_false_iff.1 hj)

/-- A word of the shadow is put where its half alone is read. -/
theorem State.winPut_shadow {x : State} (core : x.core = s.core) (shadow : p.isShadow = true) (v c c' : Nat) (k k' : BitVec 80) :
    (x.winPut p v c k).core = (s.winPut p v c' k').core := by
  cases p with
  | emit sh i => cases sh with
    | false => cases shadow
    | true => simp only [State.winPut, core]
  | term sh i => cases sh with
    | false => cases shadow
    | true => simp only [State.winPut, core]
  | coef sh j => cases sh with
    | false => cases shadow
    | true => simp only [State.winPut, core]
  | conv i => simp only [State.winPut, core]
  | up i => cases shadow
  | down i => cases shadow

/-- A write of a whole shadow word that leaves no reserved encoding is done. -/
theorem State.winWrite_shadow (shadow : p.isShadow = true) (whole : p.enabled off data = p.bytes)
    (encoding : p.encodingOk (mergeBytes (s.winHeld p) p.base p.bytes off data) = true) (cyc : Nat) : ∃ x,
      s.winWrite p off data cyc = (.done, x) ∧
      x.core = (s.winPut p (mergeBytes (s.winHeld p) p.base p.bytes off data) 0 allBits).core ∧ x.alm = s.alm := by
  have put : ∀ k, (s.winPut p (mergeBytes (s.winHeld p) p.base p.bytes off data) cyc k).core =
      (s.winPut p (mergeBytes (s.winHeld p) p.base p.bytes off data) 0 allBits).core := fun k => State.winPut_shadow rfl shadow ..
  have alm : ∀ k, (s.winPut p (mergeBytes (s.winHeld p) p.base p.bytes off data) cyc k).alm = s.alm := fun k =>
    (State.winPut_within ..).alm (by decide)
  unfold State.winWrite
  dsimp only
  split
  · rw [if_pos encoding]
    exact ⟨_, rfl, put _, alm _⟩
  · cases shadow
  · rw [if_pos whole, if_pos encoding]
    exact ⟨_, rfl, ((State.fullWrite_within ..).core (by decide)).trans (put _), ((State.fullWrite_within ..).alm (by decide)).trans (alm _)⟩

theorem State.windowDo_shadow (place : winPlace addr = some (p, off)) (shadow : p.isShadow = true)
    (unstaging : (p.isShadow && s.shadow = shStaging) = false) (whole : p.enabled off data = p.bytes)
    (encoding : p.encodingOk (mergeBytes (s.winHeld p) p.base p.bytes off data) = true) (master : Option Master) (cyc : Nat) :
    (s.windowDo master addr data cyc).core = (s.winPut p (mergeBytes (s.winHeld p) p.base p.bytes off data) 0 allBits).core ∧
      (s.windowDo master addr data cyc).alm = s.alm := by
  obtain ⟨x, done, facts⟩ := State.winWrite_shadow (s := s) shadow whole encoding cyc
  have stored : s.windowDo master addr data cyc = x := by
    unfold State.windowDo
    rw [place]
    dsimp only
    rw [if_neg (by rw [unstaging]; decide), done]
  rw [stored]
  exact facts

end

section
variable {m : Master} {addr off : Nat} {data : List (Option Byte)} {p : WinPlace} {s : State} (cyc : Nat)
  (hr : s.reaches m 19 true = true) (place : winPlace addr = some (p, off))
include hr place

/-- A window write carried out on a state that differs by the access's counts. -/
theorem exec_tableWindowWrite : ∃ x, Within .counted s x ∧ exec (.tableWindowWrite m addr data cyc) s = .next (x.windowWrite m addr data cyc) := by
  obtain ⟨x, hx, access⟩ := s.byTarget_ok m (windowTarget addr) addr data.length true (fun s => s.windowWrite m addr data cyc)
    (by rw [windowTarget_of place]; exact hr)
  exact ⟨x, hx, congrArg Host.Outcome.next access⟩

theorem completes_tableWindowWrite_refused
    (refused : s.expert m = false ∨ p.writable = false ∨ (p.enabled off data = 0 ∧ p.size ≠ 16) ∨
      (p.isShadow && s.shadow = shStaging) = false ∧ p.encodingOk (mergeBytes (s.winHeld p) p.base p.bytes off data) = false) :
    Completes (.tableWindowWrite m addr data cyc) s fun t => t.core = s.core ∧ t.alm = s.alm := by
  obtain ⟨x, hx, run⟩ := exec_tableWindowWrite (data := data) cyc hr place
  have shadow : x.shadow = s.shadow := hx.rd (by decide) 0
  obtain ⟨c, judged⟩ := State.windowJudge_refuses (s := x) (m := m) (data := data) place
    (by rw [hx.expert (by decide), shadow, hx.winHeld (by decide)]; exact refused)
  rw [State.windowWrite_refused judged] at run
  exact ⟨_, run, (State.errResp_core ..).trans (hx.core (by decide)), (State.errResp_alm ..).trans (hx.alm (by decide))⟩

theorem completes_tableWindowWrite_accepted (fits : off + data.length ≤ p.size) (expert : s.expert m = true)
    (writable : p.writable = true) (enabled : p.enabled off data ≠ 0) (unstaging : (p.isShadow && s.shadow = shStaging) = false)
    (encoding : p.encodingOk (mergeBytes (s.winHeld p) p.base p.bytes off data) = true) (hj : s.joined = false) :
    (p.isActive = true → Completes (.tableWindowWrite m addr data cyc) s fun t => t.core = s.core ∧
      t.alm = { s.alm with window := s.alm.window ++ [⟨m, addr, data, 0, 0⟩] }) ∧
    (p.isShadow = true → p.enabled off data = p.bytes → Completes (.tableWindowWrite m addr data cyc) s fun t =>
      t.core = (s.winPut p (mergeBytes (s.winHeld p) p.base p.bytes off data) 0 allBits).core ∧ t.alm = s.alm) := by
  obtain ⟨x, hx, run⟩ := exec_tableWindowWrite (data := data) cyc hr place
  have held : x.winHeld p = s.winHeld p := hx.winHeld (by decide)
  have shadow : x.shadow = s.shadow := hx.rd (by decide) 0
  obtain ⟨y, hy, write⟩ := State.windowWrite_alone (s := x) (m := m)
    (State.windowJudge_accepts place fits ((hx.expert (by decide) m).trans expert) writable enabled (by rw [shadow]; exact unstaging)
      (by rw [held]; exact encoding)) ((hx.flag (by decide) 0).trans hj) cyc
  have both : Within (.of [.bus, .pm] [.busGrants, .busSplits, .busCollLast, .busCollisions, .mateUnmirrored]) s y :=
    hy.after (hx.mono (by decide)) (by decide)
  have core : y.core = s.core := both.core (by decide)
  have alm : y.alm = s.alm := both.alm (by decide)
  rw [write] at run
  refine ⟨fun active => ⟨_, run, ?_⟩, fun inShadow whole => ⟨_, run, ?_⟩⟩
  · rw [if_pos active, ← alm]
    exact ⟨core, rfl⟩
  · have same : y.winHeld p = s.winHeld p := both.winHeld (by decide)
    have shown : y.shadow = s.shadow := both.rd (by decide) 0
    obtain ⟨put, kept⟩ := State.windowDo_shadow (s := y) place inShadow (by rw [shown]; exact unstaging) whole (by rw [same]; exact encoding)
      (some m) 0
    rw [if_neg (by rw [WinPlace.isActive_eq_false inShadow]; decide)]
    exact ⟨put.trans (same ▸ State.winPut_shadow core inShadow ..), kept.trans alm⟩

end

/-! ### Reserved cycles (12 R318; 06 R144) -/

theorem State.ctrlCycle_takes_alm (s : State) (take : List WindowWrite) (j : Nat) :
    ((s.when (!take.isEmpty) (·.ctrlCycle j)).each take fun w s => s.windowTake w j).alm = s.alm := by
  have cycle : Within (.of [.core] [.coreResvCtrl]) s (s.when (!take.isEmpty) (·.ctrlCycle j)) :=
    .when _ _ (.refl ..) fun _ h => .after (State.ctrlCycle_within ..) h (by decide)
  have taken : Within (Foot.sram.plus (.of [.core] [.busErrLast, .busErrResp, .busDefault])) (s.when (!take.isEmpty) (·.ctrlCycle j))
      ((s.when (!take.isEmpty) (·.ctrlCycle j)).each take fun w s => s.windowTake w j) :=
    (Within.refl ..).each _ _ fun _ _ h => .after (State.windowTake_within ..) h (by decide)
  exact (taken.alm (by decide)).trans (cycle.alm (by decide))

/-- The waiting writes that a control cycle takes leave the queue, the others stay in order. -/
theorem completes_tableWindowApply_control {s : State} {j : ReservedId} {took : List Nat}
    (banks : took = (s.mate.syncTook.filter fun x => x.1 = j.val && decide (s.mate.syncTick = s.tick.n + 1)).map (·.2 / 2 ^ 14))
    (control : j.val % 8 = 1 ∨ j.val % 8 = 3 ∨ j.val % 8 = 5) : Completes (.tableWindowApply j) s fun t =>
      t.alm.window = (s.cycleTakes s.alm.window took).2 := by
  have cycle : controlCycle j = true := by simpa [controlCycle, or_assoc] using control
  by_cases empty : s.alm.window = []
  · refine ⟨s, congrArg Host.Outcome.next (State.when_neg (by rw [empty]; exact Bool.and_false _)), ?_⟩
    dsimp only
    rw [empty]
    rfl
  · refine ⟨_, congrArg Host.Outcome.next (State.when_pos (by rw [cycle]; simp [empty])), ?_⟩
    dsimp only
    rw [← banks]
    obtain ⟨take, keep⟩ := s.cycleTakes s.alm.window took
    exact congrArg AlmH.window (State.ctrlCycle_takes_alm _ take j)

/-- In any other reserved cycle the writes wait on. -/
theorem completes_tableWindowApply_other {s : State} {j : ReservedId} (first : j.val % 8 ≠ 1) (third : j.val % 8 ≠ 3) (fifth : j.val % 8 ≠ 5) :
    Completes (.tableWindowApply j) s fun t => t = s :=
  ⟨s, congrArg Host.Outcome.next (State.when_neg (by simp [controlCycle, first, third, fifth])), rfl⟩

/-- Settles O40: a write by how it is judged and by what it writes, a reserved cycle by whether it is the control plane's. -/
theorem tableWindowWritesAreJudged : Obligations.TableWindowWritesAreJudged := fun _ _ cyc _ _ _ _ hr place fits =>
  ⟨completes_tableWindowWrite_refused cyc hr place, completes_tableWindowWrite_accepted cyc hr place fits,
    fun _ _ banks => ⟨completes_tableWindowApply_control banks, completes_tableWindowApply_other⟩⟩

end Sys2Proof.Machine

/-! References: what their events, a missing one, their qualification and the end of WTR leave to be read (09 R218 to R221, R241). -/

namespace Sys2Proof.Machine

/-! ### References' records -/

theorem State.ref_setRef (s : State) (i j : Nat) (v : RefH) : (s.setRef i v).ref j = if j = i then v else s.ref j := Tbl.get_set ..

@[simp] theorem State.ref_setRef_same (s : State) (i : Nat) (v : RefH) : (s.setRef i v).ref i = v := by rw [State.ref_setRef, if_pos rfl]

theorem State.ref_congr {s t : State} (h : t.tim = s.tim) (i : Nat) : t.ref i = s.ref i := by
  unfold State.ref
  rw [h]

theorem Within.ref {k : Foot} {s t : State} (h : Within k s t) (hk : k.hasComp .tim = false) (i : Nat) : t.ref i = s.ref i :=
  State.ref_congr (h.tim hk) i

section
variable (s : State) (i : Nat)

/-! ### Disqualification (09 Table 09-11) -/

/-- A qualified reference disqualified for `cause`: its record, its register and its counter. -/
def State.refDisqualify (s : State) (i cause : Nat) : State :=
  ((((s.setRef i { s.ref i with dqSecond := true, waiting := false }).setFlag F.timRefStateQualified i false).setFlag
    F.timRefStateRestoring i false).wr F.timRefStateDqCause i cause).count .timRefDisq i

theorem State.refLose_eq (cause : Nat) :
    s.refLose i cause = ((s.refRestart i).when (s.refQualified i) (·.refDisqualify i cause)).refFail i := rfl

theorem State.refDisqualify_facts {cause : Nat} (h : cause < 16) : (s.refDisqualify i cause).refQualified i = false ∧
    (s.refDisqualify i cause).rd F.timRefStateDqCause i = cause ∧
    (s.refDisqualify i cause).word .timRefDisq i = s.word .timRefDisq i + 1 := by
  unfold State.refDisqualify State.refQualified
  refine ⟨?_, ?_, ?_⟩
  · rw [State.flag_congr (State.word_count_other _ (.inl (by decide))), State.flag_wr_apart _ _ _ _ (by decide) (by decide),
      State.flag_setFlag_apart _ _ _ _ (by decide) (by decide), State.flag_setFlag _ _ _ _ rfl (by decide)]
  · rw [State.rd_count_other _ _ _ (by decide), State.rd_wr _ _ _ _ (by decide)]
    exact Nat.mod_eq_of_lt h
  · rw [State.word_count, State.word_wr_other _ _ (.inl (by decide))]
    exact congrArg (· + 1) ((State.word_setWord_other _ _ (.inl (by decide))).trans (State.word_setWord_other _ _ (.inl (by decide))))

/-- A qualified reference lost for `cause` shows it and counts, whatever alarm is raised for it. -/
theorem State.refLose_facts {cause : Nat} (h : cause < 16) (qualified : s.refQualified i = true) :
    (s.refLose i cause).refQualified i = false ∧ (s.refLose i cause).rd F.timRefStateDqCause i = cause ∧
      (s.refLose i cause).word .timRefDisq i = s.word .timRefDisq i + 1 := by
  have failed := State.refFail_within ((s.refRestart i).refDisqualify i cause) i
  rw [State.refLose_eq, State.when_pos qualified, State.refQualified, failed.flag (by decide), failed.rd (by decide), failed.word _ (by decide)]
  exact State.refDisqualify_facts _ i h

/-! ### Samples (09 R218, R220) -/

/-- The measured frequencies of a reference and its last phase sample. -/
def State.refSamples (i : Nat) (s : State) : List (Nat × Int) × Option Int := ((s.ref i).freqs, (s.ref i).phase)

/-- A reference lost keeps its samples. -/
theorem State.refSamples_refLose (cause : Nat) : State.refSamples i (s.refLose i cause) = State.refSamples i s := by
  have disqualified (y : State) : State.refSamples i (y.refDisqualify i cause) = State.refSamples i y := by
    unfold State.refSamples
    rw [show (y.refDisqualify i cause).ref i = { y.ref i with dqSecond := true, waiting := false } from State.ref_setRef_same ..]
  have restarted : State.refSamples i (s.refRestart i) = State.refSamples i s := by
    unfold State.refSamples State.refRestart
    rw [State.ref_setRef_same]
  calc State.refSamples i (s.refLose i cause)
      = State.refSamples i ((s.refRestart i).when (s.refQualified i) (·.refDisqualify i cause)) := by
        unfold State.refSamples
        rw [State.refLose_eq, (State.refFail_within ..).ref (by decide)]
    _ = State.refSamples i (s.refRestart i) := State.read_when (State.refSamples i) disqualified
    _ = State.refSamples i s := restarted

theorem State.refSamples_refLimit : State.refSamples i (s.refLimit i) = State.refSamples i s :=
  State.read_when (State.refSamples i) fun y => y.refSamples_refLose i 3

/-- The measurements kept once `r` is taken (09 R220). -/
def State.freqsKept (s : State) (i : Nat) (r : Int) : List (Nat × Int) :=
  if s.refType i = 3 then ((s.tick.n, r) :: (s.ref i).freqs).take 10
  else ((s.tick.n, r) :: (s.ref i).freqs).filter fun e => decide (s.tick.n < e.1 + 48000)

/-- A measurement stands first of those kept. -/
theorem State.head_freqsKept (r : Int) : (s.freqsKept i r).head? = some (s.tick.n, r) := by
  unfold State.freqsKept
  split
  · exact List.head?_take.trans (if_neg (by decide))
  · have recent : s.tick.n < s.tick.n + 48000 := by omega
    rw [List.filter_cons, if_pos (decide_eq_true recent), List.head?_cons]

/-- A measurement joins those kept and shows in FREQ, before the limit is judged. -/
def State.refFreqShown (s : State) (i : Nat) (r : Int) : State :=
  (s.setRef i { s.ref i with freqs := s.freqsKept i r }).wrS F.timRefStateFreq i (meanOf ((s.freqsKept i r).map (·.2)))

theorem State.refFreqTake_eq (r : Int) : s.refFreqTake i r = (s.refFreqShown i r).refLimit i := rfl

theorem State.refFreqTake_facts (r : Int) : ((s.refFreqTake i r).ref i).freqs.head? = some (s.tick.n, r) ∧
    ((s.refFreqTake i r).ref i).phase = (s.ref i).phase := by
  have shown : State.refSamples i (s.refFreqShown i r) = (s.freqsKept i r, (s.ref i).phase) := by
    unfold State.refSamples State.refFreqShown
    rw [State.ref_congr (State.wrS_tim ..), State.ref_setRef_same]
  obtain ⟨freqs, phase⟩ := Prod.mk.inj ((State.refSamples_refLimit ..).trans shown)
  rw [State.refFreqTake_eq, freqs]
  exact ⟨s.head_freqsKept i r, phase⟩

/-- An event gives its phase sample, in its window or outside (09 R218). -/
theorem State.phase_refEvent (g : Int) : ((s.refEvent i g).ref i).phase = some (wrapPhase (-(g - 6 * s.rdS F.timRefCfgDelay i))) := by
  unfold State.refEvent
  extract_lets ty old t ok r outs y
  have lost : ((y.refLose i 2).ref i).phase = (y.ref i).phase := congrArg Prod.snd (y.refSamples_refLose i 2)
  split_ifs
  any_goals rw [lost]
  all_goals exact congrArg RefH.phase (State.ref_setRef_same ..)

end

/-! ### The commands -/

section
variable {p : PinRefId} {i : RefId} {s : State}

theorem completes_refEvent_unconfigured (t16 : Nat) (freq : Int) (h : s.refType p = 0) : Completes (.refEvent p t16 freq) s fun t => t = s := by
  refine ⟨_, rfl, ?_⟩
  rw [h]
  rfl

/-- A measurement is taken on the state that the event of a reference that gives phase leaves. -/
theorem completes_refEvent (t16 : Nat) (freq : Int) (configured : 1 ≤ s.refType p) (pin : s.refType p ≤ 5) :
    Completes (.refEvent p t16 freq) s fun t => (t.ref p).freqs.head? = some (s.tick.n, freq) ∧
      (s.refType p ≤ 3 → (t.ref p).phase = some (wrapPhase (-((t16 : Int) - 6 * s.rdS F.timRefCfgDelay p)))) := by
  by_cases frequency : s.refType p = 4 ∨ s.refType p = 5
  · obtain ⟨first, -⟩ := s.refFreqTake_facts p freq
    exact ⟨_, congrArg Host.Outcome.next (if_pos (by simpa using frequency)), first, fun _ => by omega⟩
  · obtain ⟨first, kept⟩ := (s.refEvent p t16).refFreqTake_facts p freq
    rw [(State.refEvent_within ..).tick (by decide)] at first
    have phased : s.refType p = 1 ∨ s.refType p = 2 ∨ s.refType p = 3 := by omega
    exact ⟨_, congrArg Host.Outcome.next ((if_neg (by simpa using frequency)).trans (if_pos (by simpa [or_assoc] using phased))), first,
      fun _ => kept.trans (s.phase_refEvent p t16)⟩

theorem completes_refEventMissing_frequency (frequency : s.refType i = 4 ∨ s.refType i = 5) (qualified : s.refQualified i = true) :
    Completes (.refEventMissing i) s fun t => t.refQualified i = false ∧ t.rd F.timRefStateDqCause i = 1 ∧
      t.word .timRefDisq i = s.word .timRefDisq i + 1 := by
  refine ⟨_, congrArg Host.Outcome.next (State.when_pos (by obtain h | h := frequency <;> rw [h] <;> rfl)), ?_⟩
  rw [show s.refMissing i = s.refLose i 1 from if_pos (by simpa using frequency)]
  exact s.refLose_facts i (by decide) qualified

theorem completes_refEventMissing_early (hf : s.refType i ≠ 4) (hf' : s.refType i ≠ 5) (early : s.refOverdue i = false) :
    Completes (.refEventMissing i) s fun t => t = s :=
  ⟨s, congrArg Host.Outcome.next (State.when_neg (by simp [hf, hf', early])), rfl⟩

theorem completes_refQualify (unqualified : s.refQualified i = false) (done : s.refDone i = true) : Completes (.refQualify i) s fun t =>
    t.refQualified i = true ∧ t.active A.refFail i = false ∧ (t.ref i).fresh = false := by
  refine ⟨_, congrArg Host.Outcome.next (State.when_pos (by rw [unqualified, done]; rfl)), ?_⟩
  unfold State.refQualify
  extract_lets x r
  have synced := State.restoreSync_within (x.setRef i { r with fresh := false, waiting := !r.fresh, restoreAt := x.tick.n }) i
  refine ⟨?_, ?_, ?_⟩
  · exact (State.flag_setFlag_apart _ _ _ _ (by decide) (by decide)).trans
      ((State.flag_clear _ _ _ _ _ (by decide)).trans (State.flag_setFlag _ _ _ _ rfl (by decide)))
  · rw [synced.active (by decide), (State.setRef_within ..).active (by decide), State.active_clear _ _ _ _ _ (by omega)]
    simp
  · rw [synced.ref (by decide), State.ref_setRef_same]

theorem completes_refWtrEnd (waiting : (s.ref i).waiting = true) (run : (s.ref i).restoreAt + 48000 * s.rd F.timCfgWtr 0 ≤ s.tick.n) :
    Completes (.refWtrEnd i) s fun t => (t.ref i).waiting = false ∧ t.flag F.timRefStateRestoring i = false :=
  ⟨_, congrArg Host.Outcome.next (State.when_pos (by rw [waiting, decide_eq_true run]; rfl)),
    congrArg RefH.waiting (State.ref_setRef_same ..), State.flag_setFlag _ _ _ _ rfl (by decide)⟩

end

/-- Settles O41: an event by the samples it leaves, a missing one by whether it disqualifies, a qualification and the end of WTR. -/
theorem referencesQualifyAndFail : Obligations.ReferencesQualifyAndFail := fun _ _ =>
  ⟨fun _ t16 freq => ⟨completes_refEvent_unconfigured t16 freq, completes_refEvent t16 freq⟩, completes_refEventMissing_frequency,
    completes_refEventMissing_early, completes_refQualify, completes_refWtrEnd⟩

end Sys2Proof.Machine

/-! Commands of the timing block: what TIM_CMD and TIM_DCO take and what they refuse, the end of DCO_LIMIT, and the history of seconds (09 R224 to
R229, R241; 12 R332). -/

namespace Sys2Proof.Machine

/-! ### TIM_CMD (09 R224, Tables 09-4, 09-12) -/

/-- A command held for the next tick edge, behind those written before it. -/
def State.timCmdHeld (s : State) (op ref : Nat) : State := { s with tim := { s.tim with cmd := s.tim.cmd ++ [(op, ref)] } }

/-- What an accepted write of both parts of TIM_DCO stores. -/
def State.timDcoStored (s : State) (lock : Bool) (offset : Int) : State :=
  ({ s with tim := { s.tim with target := offset } }).setFlag F.timDcoHostLocked 0 lock

/-- Whether an offset is within its range, where the host steers: in MANUAL or FREERUN (09 R226, R229). -/
def State.timDcoFit (s : State) (offset : Int) : Bool :=
  decide (offset.natAbs ≤ 500000000) && (s.manual || s.rd F.timStateTstate 0 = tFreerun)

theorem Within.timDcoFit {s x : State} (h : Within .counted s x) (offset : Int) : x.timDcoFit offset = s.timDcoFit offset := by
  unfold State.timDcoFit State.manual
  rw [h.flag (by decide), h.rd (by decide)]

section
variable {m : Master} {s : State}

section
variable (hr : s.reaches m 18 true = true) (he : s.expert m = true)
include hr he

section
variable {c : Instr} {op ref : Nat} (run : exec c s = .next (s.byReg m .timCmd 0 8 true fun s => s.timCmd m op ref))
include run

/-- A command's write is judged on a state that the access has changed by its counts alone (12 R330). -/
theorem exec_timCmd : ∃ x, Within .counted s x ∧
    exec c s = .next (x.valueOnly m (regAddr .timCmd 0) (decide (op ≤ 3) && decide (ref ≤ 11)) (·.timCmdHeld op ref)) := by
  obtain ⟨x, hx, e⟩ := State.expertReg_ok hr he .timCmd 0 _
  exact ⟨x, hx, run.trans (congrArg Host.Outcome.next e)⟩

theorem completes_timCmd_taken (known : op ≤ 3) (numbered : ref ≤ 11) : Completes c s fun t =>
    t.tim = { s.tim with cmd := s.tim.cmd ++ [(op, ref)] } := by
  obtain ⟨x, hx, e⟩ := exec_timCmd hr he run
  rw [State.valueOnly_ok _ _ _ _ _ (by simp [known, numbered])] at e
  exact ⟨_, e, congrArg (fun v : TimH => { v with cmd := v.cmd ++ [(op, ref)] }) (hx.tim (by decide))⟩

theorem completes_timCmd_refused (unknown : ¬ref ≤ 11) : Completes c s fun t => t.tim = s.tim := by
  obtain ⟨x, hx, e⟩ := exec_timCmd hr he run
  rw [State.valueOnly_refused _ _ _ _ _ (by simp [unknown])] at e
  exact ⟨_, e, (State.errResp_tim ..).trans (hx.tim (by decide))⟩

end

theorem completes_timCmdForceRef (ref : BitVec 4) : Completes (.timCmdForceRef m ref) s fun t =>
    t.tim = (if ref.toNat ≤ 11 then { s.tim with cmd := s.tim.cmd ++ [(1, ref.toNat)] } else s.tim) := by
  split
  next numbered => exact completes_timCmd_taken hr he rfl (by decide) numbered
  next unknown => exact completes_timCmd_refused hr he rfl unknown

/-! ### TIM_DCO (09 R226, R229) -/

theorem exec_timDcoWrite (lock : Bool) (offset : BitVec 32) : ∃ x, Within .counted s x ∧ exec (.timDcoWrite m lock offset) s =
    .next (x.valueOnly m (regAddr .timDco 0) (x.timDcoFit offset.toInt) (·.timDcoStored lock offset.toInt)) := by
  obtain ⟨x, hx, e⟩ := State.expertReg_ok hr he .timDco 0 _
  exact ⟨x, hx, congrArg Host.Outcome.next e⟩

theorem completes_timDcoWrite_taken (lock : Bool) {offset : BitVec 32} (range : offset.toInt.natAbs ≤ 500000000)
    (steers : s.manual = true ∨ s.rd F.timStateTstate 0 = 0) : Completes (.timDcoWrite m lock offset) s fun t =>
      t.tim = { s.tim with target := offset.toInt } ∧ t.flag F.timDcoHostLocked 0 = lock ∧ t.rd F.timDcoOffset 0 = s.rd F.timDcoOffset 0 := by
  obtain ⟨x, hx, e⟩ := exec_timDcoWrite hr he lock offset
  have fit : s.timDcoFit offset.toInt = true := by simpa [State.timDcoFit, range] using steers
  rw [State.valueOnly_ok _ _ _ _ _ ((hx.timDcoFit _).trans fit)] at e
  exact ⟨_, e, congrArg (fun v : TimH => { v with target := offset.toInt }) (hx.tim (by decide)), State.flag_setFlag _ _ _ _ rfl (by decide),
    (State.rd_setFlag_apart _ _ _ _ (by decide) (by decide)).trans (hx.rd (by decide) 0)⟩

theorem completes_timDcoWrite_refused (lock : Bool) {offset : BitVec 32}
    (refused : 500000000 < offset.toInt.natAbs ∨ (s.manual = false ∧ s.rd F.timStateTstate 0 ≠ 0)) :
    Completes (.timDcoWrite m lock offset) s fun t => t.tim = s.tim ∧ t.word .timDco 0 = s.word .timDco 0 := by
  obtain ⟨x, hx, e⟩ := exec_timDcoWrite hr he lock offset
  have unfit : s.timDcoFit offset.toInt = false := by
    unfold State.timDcoFit
    obtain far | ⟨unsteered, running⟩ := refused
    · rw [decide_eq_false (not_le.2 far), Bool.false_and]
    · rw [unsteered, decide_eq_false running, Bool.or_false, Bool.and_false]
  rw [State.valueOnly_refused _ _ _ _ _ ((hx.timDcoFit _).trans unfit)] at e
  exact ⟨_, e, (State.errResp_tim ..).trans (hx.tim (by decide)),
    (State.word_errResp _ _ _ _ _ _ _ (by decide)).trans (hx.word _ (by decide) 0)⟩

end

/-! ### DCO_LIMIT and the history (09 R227, R241) -/

theorem completes_dcoLimitClear (quiet : 48000 ≤ s.tim.unclamped) : Completes .dcoLimitClear s fun t =>
    t.active A.dcoLimit 0 = false ∧ t.tim = s.tim := by
  refine ⟨_, congrArg Host.Outcome.next (State.when_pos (decide_eq_true quiet)), ?_, State.clear_tim ..⟩
  rw [State.active_clear _ _ _ _ _ (by decide)]
  simp

theorem completes_dcoLimitClear_early (early : s.tim.unclamped < 48000) : Completes .dcoLimitClear s fun t => t = s :=
  ⟨s, congrArg Host.Outcome.next (State.when_neg (decide_eq_false (not_le.2 early))), rfl⟩

theorem completes_holdoverSecondEnd {x : Nat × Option Int} (ended : s.tim.secDone = some x) : Completes .holdoverSecondEnd s fun t =>
    t.tim = { s.tim with secDone := none, hist := (x :: s.tim.hist).take 1100 } := by
  refine ⟨_, rfl, ?_⟩
  rw [ended]

theorem completes_holdoverSecondEnd_idle (none : s.tim.secDone = none) : Completes .holdoverSecondEnd s fun t => t = s := by
  refine ⟨_, rfl, ?_⟩
  rw [none]

end

/-- Settles O42: each command by whether its write is fit, DCO_LIMIT by its run of ticks, a second by whether one has ended. -/
theorem timingCommandsAreTaken : Obligations.TimingCommandsAreTaken := fun _ _ =>
  ⟨fun hr he => ⟨completes_timCmd_taken hr he rfl (by decide) (by decide), completes_timCmdForceRef hr he,
      completes_timCmd_taken hr he rfl (by decide) (by decide), completes_timCmd_taken hr he rfl (by decide) (by decide),
      fun lock _ => ⟨completes_timDcoWrite_taken hr he lock, completes_timDcoWrite_refused hr he lock⟩⟩,
    completes_dcoLimitClear, completes_dcoLimitClear_early, fun _ => completes_holdoverSecondEnd, completes_holdoverSecondEnd_idle⟩

end Sys2Proof.Machine

/-! Exchanges and adoption: the messages a link's exchange takes, its end by a report or by time, and the numbering of the tick (09 R233 to R241). -/

namespace Sys2Proof.Machine

/-! ### Exchanges' records -/

@[simp] theorem State.exch_setExch_same (s : State) (l : Nat) (v : ExchH) : (s.setExch l v).exch l = v :=
  (Tbl.get_set ..).trans (if_pos rfl)

theorem State.exch_congr {s t : State} (h : t.tim.exch = s.tim.exch) (l : Nat) : t.exch l = s.exch l := by
  unfold State.exch
  rw [h]

/-- What no round of a counted loop changes, the loop leaves. -/
theorem State.eachN_keeps {β : Type} (p : State → β) (n : Nat) (g : Nat → State → State) (s : State) (h : ∀ k y, p (g k y) = p y) :
    p (s.eachN n g) = p s :=
  (iter_read_round p g (j := n) (fun k y _ => h k y) 0 n s).2 (.inr (by omega))

/-! ### What leaves the exchanges alone -/

section
variable (s : State)

theorem State.refLose_exch (i cause : Nat) : (s.refLose i cause).tim.exch = s.tim.exch := by
  rw [State.refLose_eq, (State.refFail_within ..).tim (by decide)]
  exact State.read_when (s := s.refRestart i) (f := (·.refDisqualify i cause)) (·.tim.exch) fun _ => rfl

theorem State.reportRefs_exch (l : Nat) : (s.reportRefs l).tim.exch = s.tim.exch :=
  State.read_when (·.tim.exch) fun y => State.each_keeps (·.tim.exch) _ _ y fun i z => z.refLose_exch i 6

/-- A run judged on ADOPT_LINK shows in a flag and its alarm alone (09 R239). -/
theorem State.runShown_tim (f : Field) (a : Nat) (bad ok : Prop) [Decidable bad] [Decidable ok] :
    (if bad then (s.setFlag f 0 true).raise a 0 else if ok then (s.setFlag f 0 false).clear a 0 else s).tim = s.tim := by
  split_ifs
  · exact State.raise_tim ..
  · exact State.clear_tim ..
  · rfl

theorem State.adoptCheck_exch (num : Nat) (psi : Int) : (s.adoptCheck num psi).tim.exch = s.tim.exch := by
  unfold State.adoptCheck
  extract_lets _ _ numbers judged _ _ _ _ phases
  have numberShown : judged.tim = numbers.tim := State.runShown_tim ..
  rw [State.runShown_tim phases]
  exact (congrArg TimH.exch numberShown :)

theorem State.adoptResult_exch (num : Nat) (psi : Int) (numbered : Bool) (hops : Nat) :
    (s.adoptResult num psi numbered hops).tim.exch = s.tim.exch := by
  unfold State.adoptResult
  extract_lets may x
  split_ifs
  · rfl
  · rw [State.adoptCheck_exch, (State.setHops_within ..).tim (by decide)]
  · rfl

end

/-! ### The commands of an exchange (09 R235 to R237) -/

section
variable {l : IngressId} {s : State}

theorem completes_exchangeStart (due : s.exchDue l = true) : Completes (.exchangeStart l) s fun t => t.exch l = { s.exch l with
    id := if (s.exch l).id = 255 then 1 else (s.exch l).id + 1, since := some s.tick.n, started := some s.tick.n, phis := [] } :=
  ⟨_, congrArg Host.Outcome.next (State.when_pos due), State.exch_setExch_same ..⟩

theorem completes_exchangeStart_early (early : s.exchDue l = false) : Completes (.exchangeStart l) s fun t => t = s :=
  ⟨s, congrArg Host.Outcome.next (State.when_neg early), rfl⟩

theorem completes_probeReceive {x : TimMsg} {id : Nat} (came : (s.exch l).inbox = some x) (length : x.body.length = 4)
    (probe : x.body.getD 0 0 = 1) (names : (x.body.getD 1 0).toNat = id) (pos : 1 ≤ id) (new : id ≠ (s.exch l).answered) :
    Completes (.probeReceive l) s fun t =>
      t.exch l = { s.exch l with inbox := none, answered := id, report := s.reportBytes id x.stamp x.edge x.g, left := 8 } := by
  subst names
  refine ⟨_, rfl, ?_⟩
  dsimp only
  rw [came]
  dsimp only
  rw [decide_eq_true length, decide_eq_true probe, decide_eq_true pos, if_pos (by decide), if_neg new, State.exch_setExch_same]
  rfl

/-! ### Reports (09 R235 to R237) -/

/-- An exchange ended with delay `d` and the responder's `last`, and counted. -/
def State.exchClosed (s : State) (l : Nat) (d : Int) (last : Bool × Nat) : State :=
  (s.setExch l { s.exch l with
    inbox := none, since := none, phis := [], delay := some d, fails := 0, okAt := s.tick.n + 1, last := some last }).count .timExchOk 0

/-- An exchange's result in TIM_ADOPT_STATUS and TIM_ADOPT_NUM (09 R236). -/
def State.exchShown (s : State) (id num : Nat) (d psi : Int) : State :=
  (((s.wrS F.timAdoptStatusD 0 d).wrS F.timAdoptStatusPsi 0 psi).wr F.timAdoptNumId 0 id).wr F.timAdoptNumNum 0 num

theorem State.exchShown_within (s : State) (id num : Nat) (d psi : Int) :
    Within (.of [] [.timAdoptStatus, .timAdoptNum]) s (s.exchShown id num d psi) :=
  ((((Within.refl _ s).wrS _ _ _ (by decide)).wrS _ _ _ (by decide)).wr _ _ _ (by decide)).wr _ _ _ (by decide)

/-- What a result asks of the references that follow the link and of the adoption (09 R237, R239). -/
def State.exchFollowed (s : State) (l num hops : Nat) (psi : Int) (numbered : Bool) : State :=
  if (s.reportRefs l).adoptLink = some l then (s.reportRefs l).adoptResult num psi numbered hops else s.reportRefs l

theorem State.exchFollowed_within (s : State) (l num hops : Nat) (psi : Int) (numbered : Bool) :
    Within (Foot.alarm.plus (.of [.tim] [.timState, .timRefState, .timRefDisq])) s (s.exchFollowed l num hops psi numbered) :=
  have judged := (s.reportRefs_within l).mono (by decide)
  .ite (.after (State.adoptResult_within ..) judged (by decide)) judged

theorem State.exchFollowed_exch (s : State) (l num hops : Nat) (psi : Int) (numbered : Bool) :
    (s.exchFollowed l num hops psi numbered).tim.exch = s.tim.exch := by
  unfold State.exchFollowed
  split
  · exact (State.adoptResult_exch ..).trans (State.reportRefs_exch ..)
  · exact State.reportRefs_exch ..

theorem State.exchOk_eq (s : State) (l : Nat) (x : TimMsg) (phiA : Nat) : ∃ d num psi last,
    s.exchOk l x phiA = ((s.exchClosed l d last).exchShown (s.exch l).id num d psi).exchFollowed l num last.2 psi last.1 := by
  unfold State.exchOk
  extract_lets n old
  split
  next d num psi _ => exact ⟨d, num, psi, (bit (n 16 1) 0, n 17 1), rfl⟩

theorem State.exchOk_facts (s : State) (l : Nat) (x : TimMsg) (phiA : Nat) : ((s.exchOk l x phiA).exch l).since = none ∧
    ((s.exchOk l x phiA).exch l).inbox = none ∧ ((s.exchOk l x phiA).exch l).fails = 0 ∧
      (s.exchOk l x phiA).word .timExchOk 0 = s.word .timExchOk 0 + 1 := by
  obtain ⟨d, num, psi, last, e⟩ := s.exchOk_eq l x phiA
  have shown := (s.exchClosed l d last).exchShown_within (s.exch l).id num d psi
  rw [e, State.exch_congr (State.exchFollowed_exch ..), State.exch_congr (congrArg TimH.exch (shown.tim (by decide))),
    (State.exchFollowed_within ..).word _ (by decide), shown.word _ (by decide)]
  unfold State.exchClosed
  rw [State.exch_congr (congrArg TimH.exch (State.count_tim ..)), State.exch_setExch_same, State.word_count]
  exact ⟨rfl, rfl, rfl, rfl⟩

section
variable {x : TimMsg} {phiA : Nat} (came : (s.exch l).inbox = some x) (length : x.body.length = 20) (report : x.body.getD 0 0 = 2)
  (carried : (s.exch l).phis.lookup (ofBytes ((x.body.drop 4).take 4)) = some phiA)
include came length report carried

/-- A report of a frame that carried a probe is taken where its exchange is out, else dropped. -/
theorem exec_reportReceive : exec (.reportReceive l) s = .next
    (if (s.exch l).since.isSome && (x.body.getD 1 0).toNat = (s.exch l).id then s.exchOk l x phiA
      else s.setExch l { s.exch l with inbox := none }) := by
  refine congrArg Host.Outcome.next ?_
  dsimp only
  rw [came]
  dsimp only
  rw [decide_eq_true length, decide_eq_true report, carried]
  rfl

theorem completes_reportReceive_taken (out : (s.exch l).since.isSome = true) (answers : (x.body.getD 1 0).toNat = (s.exch l).id) :
    Completes (.reportReceive l) s fun t => (t.exch l).since = none ∧ (t.exch l).inbox = none ∧ (t.exch l).fails = 0 ∧
      t.word .timExchOk 0 = s.word .timExchOk 0 + 1 := by
  have run := exec_reportReceive came length report carried
  rw [out, decide_eq_true answers, if_pos (by decide)] at run
  exact ⟨_, run, s.exchOk_facts l x phiA⟩

theorem completes_reportReceive_dropped (stray : (x.body.getD 1 0).toNat ≠ (s.exch l).id) : Completes (.reportReceive l) s fun t =>
    t.exch l = { s.exch l with inbox := none } ∧ t.word .timExchOk 0 = s.word .timExchOk 0 := by
  have run := exec_reportReceive came length report carried
  rw [decide_eq_false stray, Bool.and_false, if_neg (by decide)] at run
  exact ⟨_, run, State.exch_setExch_same .., rfl⟩

end

/-! ### An exchange without a report (09 R235, Table 09-3) -/

/-- An exchange ended without a report, and counted. -/
def State.exchFailed (s : State) (l : Nat) : State :=
  (s.setExch l { s.exch l with since := none, phis := [], fails := bump 3 (s.exch l).fails }).count .timExchFail 0

/-- A failed exchange of ADOPT_LINK ends the adoption asked for. -/
def State.adoptCmdDropped (s : State) (l : Nat) : State :=
  s.when (s.adoptLink = some l) fun s => { s with tim := { s.tim with adoptCmd := false } }

theorem State.adoptCmdDropped_within (s : State) (l : Nat) : Within (.of [.tim] []) s (s.adoptCmdDropped l) :=
  .when _ _ (.refl ..) fun _ h => h.set_tim (by decide)

theorem State.adoptCmdDropped_exch (s : State) (l : Nat) : (s.adoptCmdDropped l).tim.exch = s.tim.exch :=
  State.read_when (·.tim.exch) fun _ => rfl

/-- The ROUNDTRIP references that follow a link lost where `b` holds. -/
def State.roundtripsLost (s : State) (l : Nat) (b : Bool) : State :=
  s.when b fun s => s.each ((s.refsOf l).filter s.roundtrip) fun i s => s.refLose i 5

theorem State.roundtripsLost_within (s : State) (l : Nat) (b : Bool) :
    Within (Foot.alarm.plus (.of [.tim] [.timRefState, .timRefDisq])) s (s.roundtripsLost l b) :=
  .when _ _ (.refl ..) fun _ h => h.each _ _ fun _ _ h => .after (State.refLose_within ..) h (by decide)

theorem State.roundtripsLost_exch (s : State) (l : Nat) (b : Bool) : (s.roundtripsLost l b).tim.exch = s.tim.exch :=
  State.read_when (·.tim.exch) fun y => State.each_keeps (·.tim.exch) _ _ y fun i z => z.refLose_exch i 5

theorem completes_exchangeTimeout {b : Nat} (out : (s.exch l).since = some b) (due : b + 480 ≤ s.tick.n) :
    Completes (.exchangeTimeout l) s fun t => (t.exch l).since = none ∧ (t.exch l).fails = bump 3 (s.exch l).fails ∧
      t.word .timExchFail 0 = s.word .timExchFail 0 + 1 := by
  have run : exec (.exchangeTimeout l) s =
      .next (((s.exchFailed l).adoptCmdDropped l).roundtripsLost l (decide (3 ≤ (s.exch l).fails + 1))) := by
    refine congrArg Host.Outcome.next ?_
    rw [out]
    exact State.when_pos (decide_eq_true due)
  refine ⟨_, run, ?_⟩
  dsimp only
  rw [State.exch_congr (State.roundtripsLost_exch ..), State.exch_congr (State.adoptCmdDropped_exch ..),
    (State.roundtripsLost_within ..).word _ (by decide), (State.adoptCmdDropped_within ..).word _ (by decide), State.exchFailed,
    State.exch_congr (congrArg TimH.exch (State.count_tim ..)), State.exch_setExch_same, State.word_count]
  exact ⟨rfl, rfl, rfl⟩

end

/-! ### Adoption (09 R237) -/

section
variable (s : State)

theorem State.secondBegin_adopt : s.secondBegin.tim.adopt = s.tim.adopt :=
  State.eachN_keeps (·.tim.adopt) 12 _ _ fun _ _ => rfl

theorem State.secondTick_adopt : s.secondTick.tim.adopt = s.tim.adopt := by
  unfold State.secondTick
  split <;> rfl

theorem State.renumber_facts (num : Nat) : (s.renumber num).now = (s.now + num) % 2 ^ 32 ∧ (s.renumber num).tim.adopt = s.tim.adopt := by
  unfold State.renumber
  extract_lets x
  have moved : x.now = (s.now + num) % 2 ^ 32 := s.rd_wr _ _ _ (by decide)
  split
  · exact ⟨moved, rfl⟩
  · have cut := x.secondBegin.secondTick.sdWindowCut_within
    refine ⟨?_, ?_⟩
    · rw [State.now, cut.rd (by decide), (State.secondTick_within ..).rd (by decide), (State.secondBegin_within ..).rd (by decide)]
      exact moved
    · rw [cut.tim (by decide), State.secondTick_adopt, State.secondBegin_adopt]
      rfl

theorem State.setNumbered_numbered : s.setNumbered.numbered = true :=
  (State.flag_clear _ _ _ _ _ (by decide)).trans (State.flag_setFlag _ _ _ _ rfl (by decide))

theorem State.setHops_numbered (hops : Nat) : (s.setHops hops).numbered = s.numbered := State.flag_wr_apart _ _ _ _ (by decide) (by decide)

/-- The tick number moved by an adoption, and the monitoring with it where it moves. -/
def State.adoptMoved (s : State) (num : Nat) : State :=
  (({ s with tim := { s.tim with adopt := none } }).renumber num).when (decide (num ≠ 0)) (·.pmRenumber)

theorem State.adoptMoved_facts (num : Nat) : (s.adoptMoved num).now = (s.now + num) % 2 ^ 32 ∧ (s.adoptMoved num).tim.adopt = none := by
  unfold State.adoptMoved
  obtain ⟨moved, none⟩ := ({ s with tim := { s.tim with adopt := none } } : State).renumber_facts num
  exact ⟨(State.read_when State.now fun y => (State.pmRenumber_within y).rd (by decide) 0).trans moved,
    (State.read_when (·.tim.adopt) fun y => congrArg TimH.adopt ((State.pmRenumber_within y).tim (by decide))).trans none⟩

/-- The phase that an adoption leaves, to be slewed (09 R237). -/
def State.adoptSlewed (s : State) (psi : Int) : State := s.when s.adoptSlews fun s => { s with tim := { s.tim with slew := psi * 2000 } }

theorem State.adoptSlewed_within (psi : Int) : Within (.of [.tim] []) s (s.adoptSlewed psi) :=
  .when _ _ (.refl ..) fun _ h => h.set_tim (by decide)

theorem State.adoptSlewed_adopt (psi : Int) : (s.adoptSlewed psi).tim.adopt = s.tim.adopt := State.read_when (·.tim.adopt) fun _ => rfl

end

section
variable {s : State}

theorem completes_tickAdopt {a : Adoption} (asked : s.tim.adopt = some a) (due : a.since < s.tick.n) : Completes .tickAdopt s fun t =>
    t.now = (s.now + a.num) % 2 ^ 32 ∧ t.numbered = true ∧ t.tim.adopt = none := by
  have run : exec .tickAdopt s = .next (((s.adoptMoved a.num).setNumbered.setHops a.hops).adoptSlewed a.psi) := by
    refine congrArg Host.Outcome.next ?_
    rw [asked]
    exact State.when_pos (decide_eq_true due)
  obtain ⟨moved, taken⟩ := s.adoptMoved_facts a.num
  have slewed := ((s.adoptMoved a.num).setNumbered.setHops a.hops).adoptSlewed_within a.psi
  refine ⟨_, run, ?_, ?_, ?_⟩
  · rw [State.now, slewed.rd (by decide), (State.setHops_within ..).rd (by decide), (State.setNumbered_within ..).rd (by decide)]
    exact moved
  · rw [State.numbered, slewed.flag (by decide)]
    exact (State.setHops_numbered ..).trans (State.setNumbered_numbered ..)
  · rw [State.adoptSlewed_adopt, (State.setHops_within ..).tim (by decide), (State.setNumbered_within ..).tim (by decide)]
    exact taken

/-! ### The end of ADOPT_WAIT (09 R238) -/

/-- What the end of ADOPT_WAIT does with a device as it is numbered and configured. -/
def State.numberingJudged (s : State) : State :=
  if s.numbered then s
  else if s.flag F.timAdoptCfgOrigin 0 then s.setNumbered.wr F.timStateHops 0 0
  else s.raise A.tickUnnumbered 0

theorem State.numberingJudged_tim (s : State) : s.numberingJudged.tim = s.tim := by
  unfold State.numberingJudged
  split_ifs
  · rfl
  · exact (State.wr_tim ..).trans ((State.setNumbered_within s).tim (by decide))
  · exact State.raise_tim ..

theorem State.numberingJudged_facts (s : State) : (s.numbered = true → s.numberingJudged.numbered = true ∧ s.numberingJudged.act = s.act) ∧
    (s.numbered = false → s.flag F.timAdoptCfgOrigin 0 = true →
      s.numberingJudged.numbered = true ∧ s.numberingJudged.rd F.timStateHops 0 = 0) ∧
    (s.numbered = false → s.flag F.timAdoptCfgOrigin 0 = false →
      s.numberingJudged.numbered = false ∧ s.numberingJudged.active A.tickUnnumbered 0 = true) := by
  unfold State.numberingJudged
  refine ⟨fun numbered => ?_, fun numbered origin => ?_, fun numbered origin => ?_⟩
  · rw [if_pos numbered]
    exact ⟨numbered, rfl⟩
  · rw [if_neg (by rw [numbered]; decide), if_pos origin]
    exact ⟨(State.flag_wr_apart _ _ _ _ (by decide) (by decide)).trans s.setNumbered_numbered, State.rd_wr _ _ _ _ (by decide)⟩
  · rw [if_neg (by rw [numbered]; decide), if_neg (by rw [origin]; decide)]
    refine ⟨(State.flag_raise _ _ _ _ _ (by decide)).trans numbered, ?_⟩
    rw [State.active_raise _ _ _ _ _ (by decide)]
    simp

theorem completes_adoptWaitEnd {n : Nat} (since : s.tim.firstActive = some n) (waits : s.tim.waitDone = false)
    (due : n + 4800 * max 1 (s.rd F.timAdoptCfgAdoptWait 0) ≤ s.tick.n) : Completes .adoptWaitEnd s fun t => t.tim.waitDone = true ∧
      (s.numbered = true → t.numbered = true ∧ t.act = s.act) ∧
      (s.numbered = false → s.flag F.timAdoptCfgOrigin 0 = true → t.numbered = true ∧ t.rd F.timStateHops 0 = 0) ∧
      (s.numbered = false → s.flag F.timAdoptCfgOrigin 0 = false → t.numbered = false ∧ t.active A.tickUnnumbered 0 = true) := by
  have run : exec .adoptWaitEnd s = .next ({ s with tim := { s.tim with waitDone := true } } : State).numberingJudged := by
    refine congrArg Host.Outcome.next ?_
    rw [since]
    exact State.when_pos (by rw [waits, decide_eq_true due]; rfl)
  obtain ⟨kept, origin, raised⟩ := ({ s with tim := { s.tim with waitDone := true } } : State).numberingJudged_facts
  exact ⟨_, run, congrArg TimH.waitDone (State.numberingJudged_tim _), kept, origin, raised⟩

/-- Settles O43: each message and each timer by whether its moment has come, an adoption by the steps that number the tick. -/
theorem exchangesAndAdoptionComplete : Obligations.ExchangesAndAdoptionComplete := fun _ _ =>
  ⟨completes_exchangeStart, completes_exchangeStart_early, fun _ _ => completes_probeReceive,
    fun _ _ came length report carried => ⟨completes_reportReceive_taken came length report carried,
      completes_reportReceive_dropped came length report carried⟩,
    fun _ => completes_exchangeTimeout, fun _ => completes_tickAdopt, fun _ => completes_adoptWaitEnd⟩

end

end Sys2Proof.Machine

/-! The lichen pair silenced, its roles, its mate's frames and its heartbeat: what these leave to be read (10 R243 to R258). -/

namespace Sys2Proof.Machine

/-! ### The pair silenced (10 R245) -/

/-- Settles O15: both commands are the stop of the mate's outputs, TICK_STOP on a state whose ticks have been stopped. -/
theorem supplyTripAndTickStopSilenceThePair : Obligations.SupplyTripAndTickStopSilenceThePair := fun s =>
  ⟨⟨s.mateStop, rfl, rfl⟩, ({ s with tick := { s.tick with stopped := true } } : State).mateStop, rfl, rfl⟩

/-! ### Reads -/

theorem State.active_raise_same (s : State) (a : Nat) {i : Nat} (hi : i < 256) : (s.raise a i).active a i = true := by
  rw [State.active_raise _ _ _ _ _ hi]
  simp

theorem State.active_clear_same (s : State) (a : Nat) {i : Nat} (hi : i < 256) : (s.clear a i).active a i = false := by
  rw [State.active_clear _ _ _ _ _ hi]
  simp

theorem State.active_clear_other (s : State) {a b : Nat} {i : Nat} (j : Nat) (hi : i < 256) (hb : b ≠ a) :
    (s.clear a i).active b j = s.active b j := by
  rw [State.active_clear _ _ _ _ _ hi]
  simp [hb]

/-- The mate block is no register. -/
theorem State.rd_set_mate (s : State) (m : MateH) (f : Field) (i : Nat) : ({ s with mate := m } : State).rd f i = s.rd f i := rfl

/-! ### Watches (10 R259) -/

theorem Within.role {k : Foot} {s t : State} (h : Within k s t) (hk : k.hasReg .mateState = false) : t.role = s.role := h.rd hk 0

section
variable (s : State)

theorem State.active_watchSync {a : Nat} (i : Nat) (ha : a ≠ A.mateWatchLost) : s.watchSync.active a i = s.active a i := by
  unfold State.watchSync
  split
  · rfl
  · exact State.active_setAlarm_other _ 0 i _ (by decide) ha

/-! ### A role entered (10 R252, R255) -/

/-- What no change of role touches of the mate block: a change decided, a loss to be settled or classified, the mate's records and when some were last
applied. -/
def MateH.beyondRole (m : MateH) : Option (Nat × Bool) × Bool × Option Nat × List MirrorRec × Nat :=
  (m.change, m.simultaneous, m.hbClassify, m.theirs, m.mirrorAt)

/-- What a role brings before the watches follow it: its register, its counters and its entry in the event log. -/
def Foot.roleEntry : Foot := .of [.log, .pm, .events, .mate, .bus]
  [.mateState, .matePromotions, .mateDemotions, .matePromoteUnsynced, .busGrants, .logState, .logEvbEntries, .logDropped, .logEvbLost, .logEntries,
    .sysIntSrc]

/-- `t` follows `s` by what a role brings, and has role `r`. -/
structure RoleEntered (r : Nat) (s t : State) : Prop where
  within : Within .roleEntry s t
  role : t.role = r
  mate : t.mate.beyondRole = s.mate.beyondRole

theorem RoleEntered.trans {r q : Nat} {s t u : State} (h : RoleEntered r s t) (h' : RoleEntered q t u) : RoleEntered q s u where
  within := h'.within.after h.within (by decide)
  role := h'.role
  mate := h'.mate.trans h.mate

/-- A role shown, logged, with SYNC begun anew. -/
def State.roleShown (r : Nat) : State :=
  ((({ s with mate := { s.mate with status := [] } } : State).wr F.mateStateRole 0 r).logEvent 0x50 0 r (roleRow s.role r) 0 true).setSync syncSyncing

/-- What ACTIVE counts and shows. -/
def State.activeCounted (unsynced : Bool) : State :=
  (((s.wr F.mateStateActiveSince 0 s.now).count .matePromotions 0).when unsynced (·.count .matePromoteUnsynced 0)).setFlag F.mateStateWithheld 0 false

/-- What else ACTIVE brings. -/
def State.activeBegun (s : State) : State :=
  { s with log := { s.log with totals := { s.log.totals with promotions := s.log.totals.promotions + 1 } }
           mate := { s.mate with syncWanted := false, syncing := false, syncIn := [] } }

/-- What VIGIL or JOINING counts and shows after role `old`. -/
def State.passiveCounted (old r : Nat) : State :=
  (s.wr F.mateStateActiveSince 0 0).when (old = roleActive && r = roleVigil) (·.count .mateDemotions 0)

/-- What else VIGIL or JOINING brings. -/
def State.passiveBegun (r : Nat) : State :=
  { s with mate := { s.mate with
    syncWanted := r = roleVigil, syncing := false, syncIn := [], syncAt := none, syncOut := [], evidence := false } }

theorem State.enterRole_eq (r : Nat) : s.enterRole r =
    (if r = roleActive then ((s.roleShown r).activeCounted (s.role = roleVigil && s.sync ≠ syncSynced)).activeBegun
      else ((s.roleShown r).passiveCounted s.role r).passiveBegun r).watchSync := rfl

theorem State.roleShown_entered {r : Nat} (hr : r < 4) : RoleEntered r s (s.roleShown r) where
  within := .wr _ _ _ (.after (State.logEvent_within ..) (.wr _ _ _ (.set_mate (.refl ..) (by decide)) (by decide)) (by decide)) (by decide)
  role := (State.rd_wr_apart _ _ _ _ (by decide) (by decide)).trans
    (((State.logEvent_within ..).rd (by decide) 0).trans ((State.rd_wr _ _ _ _ (by decide)).trans (Nat.mod_eq_of_lt hr)))
  mate := by
    rw [State.roleShown, State.setSync, State.wr_mate, State.logEvent_mate]
    rfl

variable {s} in
theorem State.activeCounted_entered {r : Nat} (hr : s.role = r) (unsynced : Bool) : RoleEntered r s (s.activeCounted unsynced) where
  within := .wr _ _ _ (.when _ _ (.count _ _ (.wr _ _ _ (.refl ..) (by decide)) (by decide)) fun _ h => .count _ _ h (by decide)) (by decide)
  role := (State.rd_wr_apart _ _ _ _ (by decide) (by decide)).trans <|
    (State.read_when State.role fun _ => State.rd_count_other _ _ _ (by decide)).trans <|
    (State.rd_count_other _ _ _ (by decide)).trans <| (State.rd_wr_apart _ _ _ _ (by decide) (by decide)).trans hr
  mate := congrArg MateH.beyondRole ((State.setFlag_mate ..).trans ((State.read_when State.mate fun _ => State.count_mate ..).trans
    ((State.count_mate ..).trans (State.wr_mate ..))))

variable {s} in
theorem State.activeBegun_entered {r : Nat} (hr : s.role = r) : RoleEntered r s s.activeBegun where
  within := .set_log_mate (.refl ..) (by decide) (by decide)
  role := hr
  mate := rfl

variable {s} in
theorem State.passiveCounted_entered {r : Nat} (hr : s.role = r) (old new : Nat) : RoleEntered r s (s.passiveCounted old new) where
  within := .when _ _ (.wr _ _ _ (.refl ..) (by decide)) fun _ h => .count _ _ h (by decide)
  role := (State.read_when State.role fun _ => State.rd_count_other _ _ _ (by decide)).trans <|
    (State.rd_wr_apart _ _ _ _ (by decide) (by decide)).trans hr
  mate := congrArg MateH.beyondRole ((State.read_when State.mate fun _ => State.count_mate ..).trans (State.wr_mate ..))

variable {s} in
theorem State.passiveBegun_entered {r : Nat} (hr : s.role = r) (new : Nat) : RoleEntered r s (s.passiveBegun new) where
  within := .set_mate (.refl ..) (by decide)
  role := hr
  mate := rfl

/-- A role entered: its state before the watches follow it. -/
theorem State.enterRole_entered {r : Nat} (hr : r < 4) : ∃ x, RoleEntered r s x ∧ s.enterRole r = x.watchSync := by
  have shown := s.roleShown_entered hr
  rw [State.enterRole_eq]
  split
  · have counted := shown.trans (State.activeCounted_entered shown.role (s.role = roleVigil && s.sync ≠ syncSynced))
    exact ⟨_, counted.trans (State.activeBegun_entered counted.role), rfl⟩
  · have counted := shown.trans (State.passiveCounted_entered shown.role s.role r)
    exact ⟨_, counted.trans (State.passiveBegun_entered counted.role r), rfl⟩

theorem State.role_enterRole {r : Nat} (hr : r < 4) : (s.enterRole r).role = r := by
  obtain ⟨x, entered, e⟩ := s.enterRole_entered hr
  rw [e, x.watchSync_within.role (by decide), entered.role]

theorem State.active_enterRole {r a : Nat} (hr : r < 4) (i : Nat) (ha : a ≠ A.mateWatchLost) : (s.enterRole r).active a i = s.active a i := by
  obtain ⟨x, entered, e⟩ := s.enterRole_entered hr
  rw [e, x.active_watchSync i ha, entered.within.active (by decide)]

theorem State.enterRole_beyondRole {r : Nat} (hr : r < 4) : (s.enterRole r).mate.beyondRole = s.mate.beyondRole := by
  obtain ⟨x, entered, e⟩ := s.enterRole_entered hr
  rw [e, x.watchSync_within.mate (by decide), entered.mate]

end

/-! ### The pair joined, or no longer (10 R269) -/

section
variable (s : State)

/-- Fields of MATE_STATE that joining does not show. -/
theorem State.rd_joinSync {g : Field} (hj : F.mateStateJoined.apart g = true) (hs : F.mateStateSync.apart g = true)
    (quiet : Foot.alarmEnd.hasReg g.reg = false) (fits : g.lo + g.width ≤ 64) (j : Nat) : s.joinSync.rd g j = s.rd g j := by
  unfold State.joinSync
  dsimp only
  split_ifs
  · rfl
  · exact State.rd_setFlag_apart _ _ _ _ hj fits
  · refine (State.read_when (·.rd g j) fun y => State.rd_wr_apart y _ _ _ hs fits).trans ?_
    exact (State.rd_clear _ _ _ _ _ quiet).trans (State.rd_setFlag_apart _ _ _ _ hj fits)

theorem State.joinSync_change : s.joinSync.mate.change = s.mate.change := by
  unfold State.joinSync
  dsimp only
  split_ifs
  · rfl
  · rfl
  · show ((s.setFlag F.mateStateJoined 0 true).clear A.mateAbsent 0).mate.change = _
    rw [State.clear_mate]
    rfl

end

/-! ### Changes of role (10 R252, Table 10-3) -/

section
variable {s : State}

/-- A change decided is taken. -/
def State.changeTaken (s : State) : State := { s with mate := { s.mate with change := none } }

/-- Role `r` entered where it is not the present one. -/
def State.toRole (s : State) (r : Nat) : State := if s.role = r then s else s.enterRole r

theorem State.toRole_facts (s : State) {r : Nat} (hr : r < 4) : (s.toRole r).role = r ∧ (s.toRole r).mate.change = s.mate.change := by
  unfold State.toRole
  split
  next same => exact ⟨same, rfl⟩
  next => exact ⟨s.role_enterRole hr, congrArg Prod.fst (s.enterRole_beyondRole hr)⟩

theorem State.roleChange_due {r : Nat} {w : Bool} (decided : s.mate.change = some (r, w)) (hr : r < 3) (due : s.mate.changeAt < s.tick.n) :
    s.roleChange = (s.changeTaken.toRole r).when w (·.setFlag F.mateStateWithheld 0 true) := by
  unfold State.roleChange
  rw [decided]
  dsimp only
  rw [if_neg (Nat.not_le.2 due), if_neg (Nat.ne_of_lt hr)]
  rfl

/-- A change decided earlier, to a role of a pair: the role is the decided one from then on. -/
theorem State.roleChange_facts {r : Nat} {w : Bool} (decided : s.mate.change = some (r, w)) (hr : r < 3) (due : s.mate.changeAt < s.tick.n) :
    s.roleChange.role = r ∧ s.roleChange.mate.change = none ∧ (w = true → s.roleChange.withheld = true) := by
  obtain ⟨role, change⟩ := s.changeTaken.toRole_facts (Nat.lt_succ_of_lt hr)
  rw [State.roleChange_due decided hr due]
  refine ⟨?_, ?_, fun withheld => ?_⟩
  · exact (State.read_when State.role fun y => State.rd_setFlag_apart y _ _ _ (by decide) (by decide)).trans role
  · exact (State.read_when (f := (·.setFlag F.mateStateWithheld 0 true)) (·.mate.change) fun _ => rfl).trans change
  · rw [State.when_pos withheld]
    exact State.flag_setFlag _ _ _ _ rfl (by decide)

theorem completes_mateRoleChange {r : Nat} {w : Bool} (paired : s.paired = true) (decided : s.mate.change = some (r, w)) (hr : r < 3)
    (due : s.mate.changeAt < s.tick.n) : Completes .mateRoleChange s fun t => t.role = r ∧ t.mate.change = none ∧ (w = true → t.withheld = true) := by
  obtain ⟨role, change, withheld⟩ := State.roleChange_facts decided hr due
  refine ⟨_, congrArg Host.Outcome.next (State.when_pos paired), ?_, (State.joinSync_change _).trans change, fun h => ?_⟩
  · exact (State.rd_joinSync _ (by decide) (by decide) (by decide) (by decide) 0).trans role
  · rw [State.withheld, State.flag, State.rd_joinSync _ (by decide) (by decide) (by decide) (by decide)]
    exact withheld h

theorem completes_mateJoinWaitEnd (paired : s.paired = true) (joining : s.role = 0)
    (due : max 1 (s.rd F.mateCfgJoinWait 0) * 48000 ≤ s.mate.joinTicks) : Completes .mateJoinWaitEnd s fun t => t.role = 1 ∧
      (s.active A.mateRankClash 0 = false → t.active A.mateAbsent 0 = true) := by
  refine ⟨_, congrArg Host.Outcome.next (State.when_pos (by simp [paired, joining, due])), ?_, fun unclashed => ?_⟩
  · exact (State.read_when State.role fun y => (State.raise_within y ..).role (by decide)).trans (s.role_enterRole (by decide))
  · rw [State.when_pos (by rw [State.active_enterRole s (by decide) 0 (by decide), unclashed]; rfl)]
    exact State.active_raise_same _ _ (by decide)

end

/-! ### A frame of the mate (10 R246, R252, R257) -/

/-- What the last usable frame of the mate shows: its words, none that waits, the run of usable frames, the mate's role and its heartbeat bit. -/
def State.mateView (s : State) : Option (BitVec 32 × Tbl Word) × Tbl Word × Nat × Nat × Bool :=
  (s.mate.ready, s.mate.view, s.mate.usableRun, s.rd F.mateStateMateRole 0, s.flag F.mateStateMateHbSeen 0)

theorem Within.mateView {k : Foot} {s t : State} (h : Within k s t) (hm : k.hasComp .mate = false) (hr : k.hasReg .mateState = false) :
    t.mateView = s.mateView := by
  unfold State.mateView
  rw [h.mate hm, h.rd hr, h.flag hr]

section
variable (s : State)

theorem State.mateView_wr {f : Field} (i v : Nat) (hrole : f.apart F.mateStateMateRole = true) (hseen : f.apart F.mateStateMateHbSeen = true) :
    (s.wr f i v).mateView = s.mateView := by
  unfold State.mateView
  rw [State.wr_mate, State.rd_wr_apart _ _ _ _ hrole (by decide), State.flag_wr_apart _ _ _ _ hseen (by decide)]

theorem State.mateView_raise (a i : Nat) : (s.raise a i).mateView = s.mateView := (s.raise_within a i).mateView (by decide) (by decide)

theorem State.mateView_clear (a i : Nat) : (s.clear a i).mateView = s.mateView := (s.clear_within a i).mateView (by decide) (by decide)

theorem State.mateView_count (r : Reg) (i : Nat) (hr : r ≠ .mateState) : (s.count r i).mateView = s.mateView := by
  unfold State.mateView State.flag
  rw [State.count_mate, State.rd_count_other _ _ _ hr, State.rd_count_other _ _ _ hr]

theorem State.mateView_decideRole (r : Nat) (w : Bool) : (s.decideRole r w).mateView = s.mateView := by
  unfold State.decideRole
  split <;> rfl

theorem State.mateView_unjoin : s.unjoin.mateView = s.mateView := s.mateView_wr (f := F.mateStateJoined) 0 _ (by decide) (by decide)

theorem State.mateView_rankClash : s.rankClash.mateView = s.mateView := by
  unfold State.rankClash
  split
  · split
    · exact State.mateView_raise ..
    · split
      · exact State.mateView_clear ..
      · rfl
  · split
    · exact State.mateView_clear ..
    · rfl
  · rfl

theorem State.mateView_recordsTake (t : Tbl Word) : (s.recordsTake t).mateView = s.mateView := by
  unfold State.recordsTake
  dsimp only
  split
  · rfl
  split
  · rfl
  split
  · exact (State.mateView_unjoin _).trans ((State.mateView_count _ _ _ (by decide)).trans (State.mateView_raise ..))
  · rfl

/-- A discrepancy's cause shown, counted and logged. -/
def State.discrepancyShown (s : State) (cause n : Nat) : State :=
  let s := { s with mate := { s.mate with badRun := [], blame := decide (cause = 2) } }
  (((s.wr F.mateStateDiscCause 0 cause).setFlag F.mateStateDiscNew 0 true).count .mateDiscrepancies 0).logEvent 0x51 0 cause n 0 true

theorem State.mateView_discrepancyShown (cause n : Nat) : (s.discrepancyShown cause n).mateView = s.mateView := by
  refine ((State.logEvent_within ..).mateView (by decide) (by decide)).trans ?_
  refine (State.mateView_count _ _ _ (by decide)).trans ?_
  exact (State.mateView_wr _ _ _ (by decide) (by decide)).trans (State.mateView_wr _ _ _ (by decide) (by decide))

theorem State.decide'_eq (n : Nat) : ∃ cause, s.decide' n = (let y := s.discrepancyShown cause n
    if cause = 1 then (y.raise A.mateFault 0).decideRole roleVigil true
    else if cause = 2 then
      (if (y.raise A.mateFault 0).role = roleVigil && (y.raise A.mateFault 0).mateRole = roleActive then
        (y.raise A.mateFault 0).decideRole roleActive false else y.raise A.mateFault 0)
    else if cause = 4 then y.raise A.mateInputDiffer 0
    else y.raise A.discrepancyUnexplained 0) := ⟨_, rfl⟩

theorem State.mateView_decide' (n : Nat) : (s.decide' n).mateView = s.mateView := by
  obtain ⟨cause, e⟩ := s.decide'_eq n
  rw [e]
  refine Eq.trans ?_ (s.mateView_discrepancyShown cause n)
  dsimp only
  split_ifs
  · exact (State.mateView_decideRole ..).trans (State.mateView_raise ..)
  · exact (State.mateView_decideRole ..).trans (State.mateView_raise ..)
  · exact State.mateView_raise ..
  · exact State.mateView_raise ..
  · exact State.mateView_raise ..

theorem State.mateView_set_mate (m : MateH) (h : (m.ready, m.view, m.usableRun) = (s.mate.ready, s.mate.view, s.mate.usableRun)) :
    ({ s with mate := m } : State).mateView = s.mateView := by
  simp only [Prod.mk.injEq] at h
  obtain ⟨ready, view, usable⟩ := h
  unfold State.mateView
  rw [← ready, ← view, ← usable]
  rfl

/-- A comparison counted. -/
def State.compareCounted (s : State) (bad : Bool) : State := (s.count .mateCmpTicks 0).when bad (·.count .mateCmpMismatch 0)

theorem State.mateView_compareCounted (bad : Bool) : (s.compareCounted bad).mateView = s.mateView :=
  (State.read_when State.mateView fun x => x.mateView_count _ _ (by decide)).trans (s.mateView_count _ _ (by decide))

theorem State.mateView_compareFrame (k : Nat) (t : Tbl Word) : (s.compareFrame k t).mateView = s.mateView := by
  have counted := s.mateView_compareCounted
  unfold State.compareFrame
  split
  next y f _ _ =>
    dsimp only
    split
    · rfl
    split
    · exact (State.mateView_set_mate _ _ rfl).trans (counted _)
    split
    · exact (State.mateView_decide' ..).trans ((State.mateView_set_mate _ _ rfl).trans (counted _))
    · exact (State.mateView_set_mate _ _ rfl).trans (counted _)
  next => rfl

theorem State.mateView_roleFromFrames : s.roleFromFrames.mateView = s.mateView := by
  unfold State.roleFromFrames
  split
  · dsimp only
    simp only [apply_ite State.mateView, State.mateView_decideRole, ite_self]
  · rfl

/-- A usable frame's words taken over and shown, before anything follows from them. -/
def State.mateFrameShown (k : Nat) (t : Tbl Word) : State :=
  let w := mateSlotOf t 0
  let m := s.mate
  let s := { s with mate := { m with
    ready := none, usableNow := true, status := (w :: m.status).take 2, view := t, viewStamp := BitVec.ofNat 32 k
    usableRun := bump 48 m.usableRun
    mateEvents := ((BitVec.ofNat 32 (k + 2 ^ 32 - 1), field w 10 3) :: m.mateEvents).take 8 } }
  (s.wr F.mateStateMateRole 0 (field w 0 2)).setFlag F.mateStateMateHbSeen 0 (bit w 7)

/-- Nothing that follows from a frame changes what it has shown. -/
theorem State.mateView_mateFrame (k : Nat) (t : Tbl Word) : (s.mateFrame k t).mateView = (s.mateFrameShown k t).mateView := by
  unfold State.mateFrame
  refine (State.mateView_roleFromFrames _).trans ((State.mateView_compareFrame ..).trans ?_)
  refine (State.read_when State.mateView fun x => x.mateView_clear _ _).trans ?_
  refine (State.read_when (f := fun s => { s with mate := { s.mate with syncWanted := true } }) State.mateView fun _ => rfl).trans ?_
  refine (State.read_when State.mateView fun x => x.mateView_decideRole _ _).trans ?_
  refine (State.read_when State.mateView fun x => x.mateView_clear _ _).trans ?_
  exact (State.mateView_recordsTake ..).trans (State.mateView_rankClash _)

theorem State.mateView_mateFrameShown (k : Nat) (t : Tbl Word) : (s.mateFrameShown k t).mateView =
    (none, t, bump 48 s.mate.usableRun, field (mateSlotOf t 0) 0 2, bit (mateSlotOf t 0) 7) := by
  have role : (s.mateFrameShown k t).rd F.mateStateMateRole 0 = field (mateSlotOf t 0) 0 2 :=
    (State.rd_setFlag_apart _ _ _ _ (by decide) (by decide)).trans
      ((State.rd_wr _ _ _ _ (by decide)).trans (Nat.mod_eq_of_lt (field_lt ..)))
  have seen : (s.mateFrameShown k t).flag F.mateStateMateHbSeen 0 = bit (mateSlotOf t 0) 7 := State.flag_setFlag _ _ _ _ rfl (by decide)
  rw [State.mateView, role, seen]
  rfl

end

section
variable {s : State}

theorem completes_mateFrameReceive {k : BitVec 32} {w : Tbl Word} (paired : s.paired = true) (come : s.mate.ready = some (k, w)) :
    Completes .mateFrameReceive s fun t => t.mate.ready = none ∧ t.mate.view = w ∧ t.rd F.mateStateMateRole 0 = field (mateSlotOf w 0) 0 2 ∧
      t.flag F.mateStateMateHbSeen 0 = bit (mateSlotOf w 0) 7 ∧ t.mate.usableRun = bump 48 s.mate.usableRun := by
  have run : exec .mateFrameReceive s = .next (s.mateFrame k.toNat w) :=
    congrArg Host.Outcome.next ((State.when_pos paired).trans (by rw [come]))
  have shown := (s.mateView_mateFrame k.toNat w).trans (s.mateView_mateFrameShown k.toNat w)
  simp only [State.mateView, Prod.mk.injEq] at shown
  obtain ⟨ready, view, usable, role, seen⟩ := shown
  exact ⟨_, run, ready, view, role, seen, usable⟩

theorem completes_mateFrameReceive_none (none : s.mate.ready = none) : Completes .mateFrameReceive s fun t => t = s := by
  refine ⟨s, congrArg Host.Outcome.next ?_, rfl⟩
  cases paired : s.paired
  · exact State.when_neg rfl
  · exact (State.when_pos rfl).trans (by rw [none])

end

/-! ### The heartbeat (10 R250, R251, R257, R258) -/

section
variable {s : State}

theorem completes_mateHbEdge (period : Nat) (paired : s.paired = true) :
    Completes (.mateHbEdge period) s fun t => t.mate.hbEdge = 1024 * s.tick.n + period + 1 ∧ t.role = s.role :=
  ⟨_, congrArg Host.Outcome.next (State.when_pos paired), rfl, rfl⟩

theorem completes_mateHbLost (paired : s.paired = true) (seen : s.hbSeen = true) (due : s.mate.hbEdge + 576 ≤ 1024 * (s.tick.n + 1)) :
    Completes .mateHbLost s fun t => t.hbSeen = false ∧ t.word .mateHbLoss 0 = s.word .mateHbLoss 0 + 1 ∧
      t.mate.hbClassify = some s.tick.n := by
  refine ⟨_, congrArg Host.Outcome.next (State.when_pos (by simp [paired, seen, due])), ?_, ?_, rfl⟩
  · exact State.flag_setFlag (s.count .mateHbLoss 0) F.mateStateHbOk 0 false rfl (by decide)
  · exact (State.word_wr_other (s.count .mateHbLoss 0) _ (.inl (by decide))).trans (State.word_count ..)

/-- A loss taken as simultaneous stays so noted, whatever role it leads to, and leaves what is to be classified (10 R258). -/
theorem State.settleLoss_facts (s : State) : s.settleLoss.mate.simultaneous = true ∧ s.settleLoss.mate.hbClassify = s.mate.hbClassify := by
  let y : State := { s with mate := { s.mate with simultaneous := true } }
  have entered : ∀ {r : Nat}, r < 4 → (y.enterRole r).mate.simultaneous = true ∧ (y.enterRole r).mate.hbClassify = s.mate.hbClassify := fun hr =>
    ⟨congrArg (·.2.1) (y.enterRole_beyondRole hr), congrArg (·.2.2.1) (y.enterRole_beyondRole hr)⟩
  unfold State.settleLoss
  dsimp only
  split
  · exact ⟨rfl, rfl⟩
  split
  · split
    · exact ⟨rfl, rfl⟩
    · exact entered (by decide)
  split
  · split
    · exact ⟨rfl, rfl⟩
    · exact entered (by decide)
  · rw [State.raise_mate]
    split
    · exact ⟨rfl, rfl⟩
    · exact entered (by decide)

/-- A loss that is to be classified is taken. -/
def State.lossTaken (s : State) : State := { s with mate := { s.mate with hbClassify := none } }

/-- Whether the mate link fails too where the heartbeat is lost (10 Table 10-4). -/
def State.mateLinkFails (s : State) : Bool := s.qstate 32 ≠ qUp || decide (2 ≤ s.mate.absentRun) || s.active A.mateLinkDown 0

theorem State.mateLinkFails_iff : s.mateLinkFails = true ↔ s.qstate 32 ≠ 5 ∨ 2 ≤ s.mate.absentRun ∨ s.active A.mateLinkDown 0 = true := by
  simp only [State.mateLinkFails, Bool.or_eq_true, decide_eq_true_eq, or_assoc]

theorem exec_mateHbLossClassify {n : Nat} (lost : s.mate.hbClassify = some n) (later : n < s.tick.n) : exec .mateHbLossClassify s = .next
    (if s.mateLinkFails then (s.lossTaken.raise A.mateHbLost 0).when (s.role = roleVigil) (·.enterRole roleActive)
      else if s.flag F.mateStateMateHbSeen 0 then s.lossTaken.raise A.mateHbFail 0 else s.lossTaken.settleLoss) := by
  refine congrArg Host.Outcome.next ?_
  rw [lost]
  exact State.when_pos (decide_eq_true later)

/-- A loss with the mate link: the heartbeat counts as lost, and a VIGIL takes over (10 R257). -/
theorem State.raise_mateHbLost_facts (s : State) (r : Nat) :
    let t := (s.raise A.mateHbLost 0).when (r = roleVigil) (·.enterRole roleActive)
    t.mate.hbClassify = s.mate.hbClassify ∧ t.active A.mateHbLost 0 = true ∧ (r = 2 → t.role = 1) := by
  have raised : (s.raise A.mateHbLost 0).active A.mateHbLost 0 = true := State.active_raise_same _ _ (by decide)
  by_cases vigil : r = roleVigil
  · rw [State.when_pos (decide_eq_true vigil)]
    refine ⟨?_, (State.active_enterRole _ (by decide) 0 (by decide)).trans raised, fun _ => State.role_enterRole _ (by decide)⟩
    exact (congrArg (·.2.2.1) (State.enterRole_beyondRole _ (r := roleActive) (by decide))).trans (congrArg MateH.hbClassify (State.raise_mate ..))
  · rw [State.when_neg (decide_eq_false vigil)]
    exact ⟨congrArg MateH.hbClassify (State.raise_mate ..), raised, fun h => absurd h vigil⟩

theorem completes_mateHbLossClassify {n : Nat} (lost : s.mate.hbClassify = some n) (later : n < s.tick.n) :
    Completes .mateHbLossClassify s fun t => t.mate.hbClassify = none ∧
      (s.qstate 32 ≠ 5 ∨ 2 ≤ s.mate.absentRun ∨ s.active A.mateLinkDown 0 = true → t.active A.mateHbLost 0 = true ∧
        (s.role = 2 → t.role = 1)) ∧
      (s.qstate 32 = 5 → s.mate.absentRun < 2 → s.active A.mateLinkDown 0 = false → s.flag F.mateStateMateHbSeen 0 = true →
        t.active A.mateHbFail 0 = true ∧ t.role = s.role) ∧
      (s.qstate 32 = 5 → s.mate.absentRun < 2 → s.active A.mateLinkDown 0 = false → s.flag F.mateStateMateHbSeen 0 = false →
        t.mate.simultaneous = true) := by
  refine ⟨_, exec_mateHbLossClassify lost later, ?_⟩
  rw [← State.mateLinkFails_iff]
  have fine : s.qstate 32 = 5 → s.mate.absentRun < 2 → s.active A.mateLinkDown 0 = false → ¬ s.mateLinkFails = true := fun up run link => by
    rw [State.mateLinkFails_iff, up, link]
    simp only [ne_eq, not_true_eq_false, Bool.false_eq_true, or_false, false_or]
    omega
  cases fails : s.mateLinkFails with
  | true =>
    rw [if_pos rfl]
    obtain ⟨taken, raised, takes⟩ := s.lossTaken.raise_mateHbLost_facts s.role
    exact ⟨taken, fun _ => ⟨raised, takes⟩, fun up run link => absurd fails (fine up run link), fun up run link => absurd fails (fine up run link)⟩
  | false =>
    rw [if_neg (by decide)]
    refine ⟨?_, fun h => absurd h (by decide), fun _ _ _ seen => ?_, fun _ _ _ unseen => ?_⟩
    · split
      · exact congrArg MateH.hbClassify (State.raise_mate ..)
      · exact s.lossTaken.settleLoss_facts.2
    · rw [if_pos seen]
      exact ⟨State.active_raise_same _ _ (by decide), (State.raise_within ..).role (by decide)⟩
    · rw [if_neg (by rw [unseen]; decide)]
      exact s.lossTaken.settleLoss_facts.1

/-- The heartbeat is seen again: HB_OK shown and both alarms ended, no loss left to be settled. -/
def State.hbShown (s : State) : State :=
  let s := ((s.setFlag F.mateStateHbOk 0 true).clear A.mateHbLost 0).clear A.mateHbFail 0
  { s with mate := { s.mate with simultaneous := false } }

theorem State.hbShown_facts (s : State) : s.hbShown.hbSeen = true ∧ s.hbShown.active A.mateHbLost 0 = false ∧
    s.hbShown.active A.mateHbFail 0 = false ∧ s.hbShown.role = s.role := by
  refine ⟨?_, ?_, ?_, ?_⟩
  · exact (State.flag_clear _ _ _ _ _ (by decide)).trans ((State.flag_clear _ _ _ _ _ (by decide)).trans (State.flag_setFlag _ _ _ _ rfl (by decide)))
  · exact (State.active_clear_other _ 0 (by decide) (by decide)).trans (State.active_clear_same _ _ (by decide))
  · exact State.active_clear_same (i := 0) _ A.mateHbFail (by decide)
  · refine ((State.clear_within ..).role (by decide)).trans (((State.clear_within ..).role (by decide)).trans ?_)
    exact State.rd_setFlag_apart _ _ _ _ (by decide) (by decide)

theorem completes_mateHbRegain (paired : s.paired = true) (unseen : s.hbSeen = false) (clean : 48 ≤ s.mate.hbCleanTicks) :
    Completes .mateHbRegain s fun t => t.hbSeen = true ∧ t.active A.mateHbLost 0 = false ∧ t.active A.mateHbFail 0 = false ∧ t.role = s.role := by
  have run : exec .mateHbRegain s = .next (s.hbShown.when (s.hbShown.flag F.mateStateMateHbSeen 0) (·.clear A.mateDispute 0)) :=
    congrArg Host.Outcome.next (State.when_pos (by simp [paired, unseen, clean]))
  obtain ⟨seen, lost, fail, role⟩ := s.hbShown_facts
  have other : ∀ {a : Nat}, a ≠ A.mateDispute → s.hbShown.active a 0 = false →
      (s.hbShown.when (s.hbShown.flag F.mateStateMateHbSeen 0) (·.clear A.mateDispute 0)).active a 0 = false := fun {a} ha h =>
    (State.read_when (·.active a 0) fun y => y.active_clear_other 0 (by decide) ha).trans h
  refine ⟨_, run, ?_, other (by decide) lost, other (by decide) fail, ?_⟩
  · exact (State.read_when State.hbSeen fun y => State.flag_clear _ _ _ _ _ (by decide)).trans seen
  · exact (State.read_when State.role fun y => (State.clear_within ..).role (by decide)).trans role

end

/-- Settles O45: a frame by what it shows before anything follows from it, a change of role by the role that it enters, the heartbeat by its edges,
its loss by whether the mate link fails too, and its return. -/
theorem mateRolesAndHeartbeatFollowTheirRules : Obligations.MateRolesAndHeartbeatFollowTheirRules := fun _ =>
  ⟨fun _ _ => completes_mateFrameReceive, completes_mateFrameReceive_none, fun _ _ => completes_mateRoleChange, completes_mateJoinWaitEnd,
    completes_mateHbEdge, completes_mateHbLost, fun _ => completes_mateHbLossClassify, completes_mateHbRegain⟩

end Sys2Proof.Machine

/-! The mate link, the comparison, the watches and MATE_CMD: what these leave to be read (10 R259 to R276). -/

namespace Sys2Proof.Machine

/-! ### The mate link (10 R260) -/

section
variable {s : State}

/-- While MATE_LINK_DOWN stands the pair is not joined (10 R269). -/
theorem State.joinSync_of_linkDown (down : s.active A.mateLinkDown 0 = true) :
    s.joinSync = if s.joined then s.unjoin else s := by
  have apart : s.joinable = false := by
    unfold State.joinable
    rw [down]
    simp
  unfold State.joinSync
  dsimp only
  rw [apart]
  cases s.joined <;> rfl

theorem State.unjoin_joined (s : State) : s.unjoin.joined = false := State.flag_setFlag _ _ _ _ rfl (by decide)

theorem State.flag_unjoin (s : State) {g : Field} (hj : F.mateStateJoined.apart g = true) (fits : g.lo + g.width ≤ 64) :
    s.unjoin.flag g 0 = s.flag g 0 := by
  unfold State.flag State.unjoin
  rw [State.rd_set_mate, State.rd_setFlag_apart _ _ _ _ hj fits]

/-- MATE_LINK_DOWN raised, shown and counted, before the join follows. -/
def State.linkDownShown (s : State) : State := ((s.raise A.mateLinkDown 0).setFlag F.mateStateLinkUp 0 false).count .mateLinkLoss 0

theorem State.linkDownShown_facts (s : State) : s.linkDownShown.active A.mateLinkDown 0 = true ∧
    s.linkDownShown.flag F.mateStateLinkUp 0 = false ∧ s.linkDownShown.word .mateLinkLoss 0 = s.word .mateLinkLoss 0 + 1 := by
  refine ⟨?_, ?_, ?_⟩
  · exact s.active_raise_same A.mateLinkDown (i := 0) (by decide)
  · exact (State.flag_congr (State.word_count_other _ (.inl (by decide)))).trans (State.flag_setFlag _ _ _ _ rfl (by decide))
  · rw [State.linkDownShown, State.word_count, State.setFlag, State.word_wr_other _ _ (.inl (by decide)), State.word_raise _ _ _ _ _ (by decide)]

theorem completes_mateLinkDownRaise (paired : s.paired = true) (absent : 3 ≤ s.mate.absentRun) (up : s.active A.mateLinkDown 0 = false) :
    Completes .mateLinkDownRaise s fun t => t.active A.mateLinkDown 0 = true ∧ t.flag F.mateStateLinkUp 0 = false ∧
      t.word .mateLinkLoss 0 = s.word .mateLinkLoss 0 + 1 ∧ t.joined = false := by
  obtain ⟨down, shown, counted⟩ := s.linkDownShown_facts
  have run : exec .mateLinkDownRaise s = .next (if s.linkDownShown.joined then s.linkDownShown.unjoin else s.linkDownShown) :=
    congrArg Host.Outcome.next ((State.when_pos (by simp [paired, absent, up])).trans (State.joinSync_of_linkDown down))
  refine ⟨_, run, ?_⟩
  split
  · have unjoined := s.linkDownShown.unjoin_within
    exact ⟨(unjoined.active (by decide) ..).trans down, (State.flag_unjoin _ (by decide) (by decide)).trans shown,
      (unjoined.word _ (by decide) 0).trans counted, State.unjoin_joined _⟩
  next apart => exact ⟨down, shown, counted, Bool.eq_false_of_not_eq_true apart⟩

theorem completes_mateLinkDownClear (down : s.active A.mateLinkDown 0 = true) (usable : 48 ≤ s.mate.usableRun) :
    Completes .mateLinkDownClear s fun t => t.active A.mateLinkDown 0 = false ∧ t.flag F.mateStateLinkUp 0 = true := by
  refine ⟨_, congrArg Host.Outcome.next (State.when_pos (by simp [down, usable])), ?_, State.flag_setFlag _ _ _ _ rfl (by decide)⟩
  exact s.active_clear_same A.mateLinkDown (i := 0) (by decide)

/-! ### Settling, comparison and watches (10 R259, R274, R276) -/

theorem completes_resyncSettled (vigil : s.role = 2) (settling : s.sync = 1) (settled : 48 ≤ s.mate.settled) :
    Completes .resyncSettled s fun t => t.sync = 2 ∧ t.active A.mateUnsettled 0 = false := by
  refine ⟨_, congrArg Host.Outcome.next (State.when_pos (by simp [vigil, settling, settled])), ?_, ?_⟩
  · exact (State.rd_clear _ _ _ _ _ (by decide)).trans (State.rd_wr _ _ _ _ (by decide))
  · exact State.active_clear_same _ _ (by decide)

theorem completes_mateUnsettledTimeout (vigil : s.role = 2) (settling : s.sync = 1) (due : 48000 ≤ s.mate.settling) :
    Completes .mateUnsettledTimeout s fun t => t.active A.mateUnsettled 0 = true := by
  exact ⟨_, congrArg Host.Outcome.next (State.when_pos (by simp [vigil, settling, due])), State.active_raise_same _ _ (by decide)⟩

theorem completes_mateDiscrepancyClear (clean : 4800 ≤ s.mate.cleanRun) : Completes .mateDiscrepancyClear s fun t =>
    t.active A.discrepancyUnexplained 0 = false ∧ t.active A.mateInputDiffer 0 = false := by
  exact ⟨_, congrArg Host.Outcome.next (State.when_pos (decide_eq_true clean)),
    (State.active_clear_other _ 0 (by decide) (by decide)).trans (State.active_clear_same _ _ (by decide)), State.active_clear_same _ _ (by decide)⟩

/-- Where a watch shows a copy lost, the register and its alarm follow the watches. -/
theorem State.watchSync_of_shown (shown : s.word .mateWatchLost 0 ≠ 0) : s.watchSync.word .mateWatchLost 0 = BitVec.ofNat 64 s.watchWord ∧
    s.watchSync.active A.mateWatchLost 0 = decide (s.watchWord ≠ 0) := by
  have run : s.watchSync =
      (s.setWord .mateWatchLost 0 (BitVec.ofNat 64 s.watchWord)).setAlarm A.mateWatchLost 0 (decide (s.watchWord ≠ 0)) :=
    if_neg (by simp only [Bool.and_eq_true, decide_eq_true_eq, not_and]; exact fun _ => shown)
  rw [run]
  exact ⟨(State.word_setAlarm _ _ _ _ _ _ (by decide)).trans (State.word_setWord_same ..), State.active_setAlarm_same _ _ _ _ (by decide)⟩

theorem completes_mateWatchExpire (w : WatchId) (shown : bit (s.word .mateWatchLost 0).toNat w = true) : Completes (.mateWatchExpire w) s fun t =>
    t.word .mateWatchLost 0 = BitVec.ofNat 64 s.watchWord ∧ t.active A.mateWatchLost 0 = decide (s.watchWord ≠ 0) :=
  ⟨_, congrArg Host.Outcome.next (State.when_pos shown), State.watchSync_of_shown fun none => by simp [none, bit] at shown⟩

end

/-! ### MATE_CMD (10 R275) -/

/-- MATE_CMD's commands and their codes (10 Table 10-8). -/
def mateCommands (m : Master) : List (Instr × Nat) := [(.mateCmdSwap m, 1), (.mateCmdClearFault m, 2), (.mateCmdResync m, 3)]

section
variable {m : Master} {s : State} {c : Instr} {op : Nat} (row : (c, op) ∈ mateCommands m) (hr : s.reaches m 18 true = true)
include row

theorem mateCommands_row : 1 ≤ op ∧ op ≤ 3 ∧ exec c s = .next (s.byReg m .mateCmd 0 8 true fun s => s.mateCmd m op) := by
  simp only [mateCommands, List.mem_cons, Prod.mk.injEq, List.not_mem_nil, or_false] at row
  obtain ⟨rfl, rfl⟩ | ⟨rfl, rfl⟩ | ⟨rfl, rfl⟩ := row <;> exact ⟨by decide, by decide, rfl⟩

theorem State.mateCmd_eq (x : State) : x.mateCmd m op = x.mirroredCmd .mateCmd op fun s => s.mateCmdDo true op := by
  obtain ⟨low, high, -⟩ := mateCommands_row (s := x) row
  exact x.valueOnly_ok m _ _ _ (by simp [low, high])

include hr

/-- In a joined pair a command waits as a record for the tick after next but two (10 R266, R267, R275). -/
theorem completes_mateCommand_joined (joined : s.joined = true) (room : s.mate.fresh.length < 640) : Completes c s fun t => t.role = s.role ∧
    t.mate.own = s.mate.own ++ [⟨s.mate.mseq, BitVec.ofNat 32 (s.now + 4), 0xFF, regAddr .mateCmd 0, BitVec.ofNat 64 op⟩] := by
  obtain ⟨-, -, run⟩ := mateCommands_row (s := s) row
  obtain ⟨x, hx, access⟩ := s.byReg_ok m .mateCmd 0 8 true (fun s => s.mateCmd m op) hr
  have mate : x.mate = s.mate := hx.mate (by decide)
  have now : x.now = s.now := hx.rd (by decide) 0
  have record : x.mateCmd m op = x.mirror (regAddr .mateCmd 0) 0xFF (BitVec.ofNat 64 op) :=
    (State.mateCmd_eq row x).trans (if_pos ((hx.flag (by decide) 0).trans joined))
  refine ⟨x.mirror (regAddr .mateCmd 0) 0xFF (BitVec.ofNat 64 op), run.trans (congrArg Host.Outcome.next (access.trans record)), ?_, ?_⟩
  · exact ((State.mirror_within ..).role (by decide)).trans (hx.role (by decide))
  · unfold State.mirror
    rw [if_pos (by rw [mate]; exact room), ← mate, ← now]

/-- In a unit that is not joined a command is carried out at once, on a state that differs by counts (10 R269). -/
theorem exec_mateCommand_alone (alone : s.joined = false) : ∃ x, Within .countedAlone s x ∧ exec c s = .next (x.mateCmdDo true op) := by
  obtain ⟨-, -, run⟩ := mateCommands_row (s := s) row
  obtain ⟨x, hx, done⟩ := State.byReg_alone hr alone .mateCmd fun x _ => State.mateCmd_eq row x
  exact ⟨x, hx, run.trans (congrArg Host.Outcome.next done)⟩

end

section
variable {m : Master} {s : State} (hr : s.reaches m 18 true = true) (alone : s.joined = false)
include hr alone

theorem completes_mateCmdSwap_alone : Completes (.mateCmdSwap m) s fun t => t.role = s.role ∧ t.rd F.mateCmdResult 0 = 2 := by
  obtain ⟨x, hx, run⟩ := exec_mateCommand_alone (c := .mateCmdSwap m) (op := 1) (by simp [mateCommands]) hr alone
  have apart : x.joined = false := (hx.flag (by decide) 0).trans alone
  have refused : x.mateCmdDo true 1 = x.wr F.mateCmdResult 0 2 := if_pos (by simp [apart])
  refine ⟨_, run, ?_⟩
  rw [refused]
  exact ⟨(State.rd_wr_apart _ _ _ _ (by decide) (by decide)).trans (hx.role (by decide)), State.rd_wr _ _ _ _ (by decide)⟩

theorem completes_mateCmdClearFault_alone : Completes (.mateCmdClearFault m) s fun t => t.withheld = false ∧ t.active A.mateFault 0 = false ∧
    t.rd F.mateCmdResult 0 = 3 := by
  obtain ⟨x, hx, run⟩ := exec_mateCommand_alone (c := .mateCmdClearFault m) (op := 2) (by simp [mateCommands]) hr alone
  have apart : x.joined = false := (hx.flag (by decide) 0).trans alone
  have done : x.mateCmdDo true 2 = (x.wr F.mateCmdResult 0 3).mateClearFault := by
    unfold State.mateCmdDo
    rw [apart]
    rfl
  refine ⟨_, run, ?_⟩
  rw [done]
  refine ⟨(State.flag_clear _ _ _ _ _ (by decide)).trans (State.flag_setFlag _ _ _ _ rfl (by decide)), ?_, ?_⟩
  · exact State.active_clear_same (i := 0) _ A.mateFault (by decide)
  · exact (State.rd_clear _ _ _ _ _ (by decide)).trans
      ((State.rd_setFlag_apart _ _ _ _ (by decide) (by decide)).trans (State.rd_wr _ _ _ _ (by decide)))

omit hr alone in
/-- A VIGIL asked to resynchronise is SYNCING and wants it. -/
theorem State.mateResync_facts (vigil : s.role = 2) : s.mateResync.sync = 0 ∧ s.mateResync.mate.syncWanted = true ∧
    s.mateResync.rd F.mateCmdResult 0 = s.rd F.mateCmdResult 0 := by
  unfold State.mateResync
  rw [State.when_pos (decide_eq_true vigil)]
  exact ⟨(State.rd_set_mate ..).trans (State.rd_wr _ _ _ _ (by decide)), rfl,
    (State.rd_set_mate ..).trans (State.rd_wr_apart _ _ _ _ (by decide) (by decide))⟩

theorem completes_mateCmdResync_alone : Completes (.mateCmdResync m) s fun t =>
    (s.role = 2 → t.sync = 0 ∧ t.mate.syncWanted = true ∧ t.rd F.mateCmdResult 0 = 3) ∧
    (s.role ≠ 2 → t.mate = s.mate ∧ t.rd F.mateCmdResult 0 = 2) := by
  obtain ⟨x, hx, run⟩ := exec_mateCommand_alone (c := .mateCmdResync m) (op := 3) (by simp [mateCommands]) hr alone
  have apart : x.joined = false := (hx.flag (by decide) 0).trans alone
  have role : x.role = s.role := hx.role (by decide)
  refine ⟨_, run, fun vigil => ?_, fun other => ?_⟩
  · have done : x.mateCmdDo true 3 = (x.wr F.mateCmdResult 0 3).mateResync := by
      unfold State.mateCmdDo
      simp [role, vigil, apart]
    obtain ⟨sync, wanted, result⟩ := (x.wr F.mateCmdResult 0 3).mateResync_facts
      ((State.rd_wr_apart _ _ _ _ (by decide) (by decide)).trans (role.trans vigil))
    rw [done]
    exact ⟨sync, wanted, result.trans (State.rd_wr _ _ _ _ (by decide))⟩
  · have refused : x.mateCmdDo true 3 = x.wr F.mateCmdResult 0 2 := if_pos (by simp [role, other])
    rw [refused]
    exact ⟨(State.wr_mate ..).trans (hx.mate (by decide)), State.rd_wr _ _ _ _ (by decide)⟩

end

/-- Settles O46: the link by its alarm, on which the join depends, settling, comparison and watches by their runs, and the commands of MATE_CMD by
whether the pair is joined. -/
theorem mateLinkComparisonAndCommandsComplete : Obligations.MateLinkComparisonAndCommandsComplete := fun _ _ =>
  ⟨completes_mateLinkDownRaise, completes_mateLinkDownClear, completes_resyncSettled, completes_mateUnsettledTimeout,
    completes_mateDiscrepancyClear, completes_mateWatchExpire, fun hr =>
    ⟨fun joined room _ _ row => completes_mateCommand_joined row hr joined room,
      fun alone => ⟨completes_mateCmdSwap_alone hr alone, completes_mateCmdClearFault_alone hr alone, completes_mateCmdResync_alone hr alone⟩⟩⟩

end Sys2Proof.Machine

/-! Records of the mate: which are kept waiting where those due are applied, and what resynchronisation leaves in the ring (10 R266 to R273). -/

namespace Sys2Proof.Machine

/-! ### The mate's records (10 R267) -/

/-- From `s` to `t` the mate's records that wait, and the tick in which some were last applied, stay as they are. -/
def SameRecords (s t : State) : Prop := t.mate.theirs = s.mate.theirs ∧ t.mate.mirrorAt = s.mate.mirrorAt

theorem SameRecords.refl (s : State) : SameRecords s s := ⟨rfl, rfl⟩

theorem SameRecords.trans {s t u : State} (h : SameRecords s t) (h' : SameRecords t u) : SameRecords s u := ⟨h'.1.trans h.1, h'.2.trans h.2⟩

/-- A change whose footprint leaves the mate block out keeps the records. -/
theorem SameRecords.within {f : Foot} {s t u : State} (h : SameRecords s t) (w : Within f t u) (hc : f.hasComp .mate = false) :
    SameRecords s u := by
  rw [SameRecords, w.mate hc]
  exact h

section
variable {s x : State} (h : SameRecords s x)
include h

theorem SameRecords.wr {f : Field} {i v : Nat} : SameRecords s (x.wr f i v) := h
theorem SameRecords.setFlag {f : Field} {i : Nat} {b : Bool} : SameRecords s (x.setFlag f i b) := h
theorem SameRecords.setLaneBit {f : Field} {l : Nat} {b : Bool} : SameRecords s (x.setLaneBit f l b) := h
theorem SameRecords.setSync {v : Nat} : SameRecords s (x.setSync v) := h
theorem SameRecords.count {r : Reg} {i : Nat} : SameRecords s (x.count r i) := h
theorem SameRecords.countBy {r : Reg} {i n : Nat} : SameRecords s (x.countBy r i n) := h
theorem SameRecords.setRx {l : Nat} {v : RxH} : SameRecords s (x.setRx l v) := h
theorem SameRecords.setTx {l : Nat} {v : TxH} : SameRecords s (x.setTx l v) := h
theorem SameRecords.setQuad {q : Nat} {v : QuadH} : SameRecords s (x.setQuad q v) := h
theorem SameRecords.clear {a i : Nat} : SameRecords s (x.clear a i) := h.within (State.clear_within ..) (by decide)

/-- Another part of the mate block updated. -/
theorem SameRecords.set_mate {m : MateH} (theirs : m.theirs = x.mate.theirs) (at' : m.mirrorAt = x.mate.mirrorAt) :
    SameRecords s { x with mate := m } := ⟨theirs.trans h.1, at'.trans h.2⟩

theorem SameRecords.ite {c : Prop} [Decidable c] {y : State} (h' : SameRecords s y) : SameRecords s (if c then x else y) := by
  split
  · exact h
  · exact h'

theorem SameRecords.when {b : Bool} {g : State → State} (hg : ∀ y, SameRecords s y → SameRecords s (g y)) : SameRecords s (x.when b g) :=
  (hg x h).ite h

theorem SameRecords.each {α : Type} {l : List α} {g : α → State → State} (hg : ∀ a y, SameRecords s y → SameRecords s (g a y)) :
    SameRecords s (x.each l g) := by
  unfold State.each
  induction l generalizing x with
  | nil => exact h
  | cons a l ih => exact ih (hg a x h)

end

/-- A fold whose every round keeps the records of the state that is folded. -/
theorem SameRecords.foldl_snd {α σ : Type} {s : State} {l : List α} {g : σ × State → α → σ × State} {acc : σ × State} (h : SameRecords s acc.2)
    (hg : ∀ a acc, SameRecords s acc.2 → SameRecords s (g acc a).2) : SameRecords s (l.foldl g acc).2 := by
  induction l generalizing acc with
  | nil => exact h
  | cons a l ih => exact ih (hg a acc h)

theorem SameRecords.eachN {s x : State} {n : Nat} {g : Nat → State → State} (h : SameRecords s x)
    (hg : ∀ k y, SameRecords y (g k y)) : SameRecords s (x.eachN n g) :=
  h.trans ⟨State.eachN_keeps (·.mate.theirs) n g x fun k y => (hg k y).1, State.eachN_keeps (·.mate.mirrorAt) n g x fun k y => (hg k y).2⟩

/-! ### Quads and their links leave the mate's records alone -/

section
variable (s : State)

theorem State.mateUnusable_sameRecords (n : Nat) : SameRecords s (s.mateUnusable n) := (SameRecords.refl s).countBy.set_mate rfl rfl

theorem State.formVerdict_sameRecords (l : Nat) (next : List Block) (t16 : Nat) : SameRecords s (s.formVerdict l next t16) := by
  cases hf : (s.rx l).frame with
  | none =>
    rw [State.formVerdict_of_none hf]
    exact .refl s
  | some f =>
    unfold State.formVerdict
    extract_lets r check
    rw [show r.frame = some f from hf]
    dsimp -zeta only
    extract_lets s1 up v rx s2 s3 tx s4 a
    have h3 : SameRecords s s3 := ((SameRecords.refl s).when fun _ h => h.count).setRx.within (State.countVerdict_within ..) (by decide)
    have h4 : SameRecords s s4 := h3.setTx.ite h3
    refine .ite (.ite ?_ ?_) (.ite (.ite ?_ ?_) (.ite ?_ ?_))
    · exact h4.within (State.lagVerdict_within ..) (by decide)
    · exact (h4.within (State.lagMeasureA_within ..) (by decide)).when fun _ h => h.within (State.lagCut_within ..) (by decide)
    · exact h4.set_mate rfl rfl
    · exact h4.trans (State.mateUnusable_sameRecords ..)
    · exact h4.set_mate rfl rfl
    · exact h4.set_mate rfl rfl

theorem State.loseSync_sameRecords (l t16 : Nat) : SameRecords s (s.loseSync l t16) := by
  cases sync : s.inSync l with
  | true =>
    obtain ⟨y, hy, e⟩ := State.loseSync_of_sync sync t16
    rw [e]
    have shown := ((s.formVerdict_sameRecords l [] t16).within (State.disqualify_within _ l) (by decide)).count (r := .linkOofEntry) (i := l)
    have left : SameRecords s y := shown.wr.setFlag.setLaneBit.within hy (by decide)
    exact (left.within (State.rdiExit_within ..) (by decide)).within (State.linkRefLost_within ..) (by decide)
  | false =>
    unfold State.loseSync
    rw [if_neg (by rw [sync]; decide)]
    exact (SameRecords.refl s).wr.setRx

theorem State.dropLock_sameRecords (l t16 : Nat) : SameRecords s (s.dropLock l t16) :=
  (s.loseSync_sameRecords l t16).setRx.setLaneBit.setFlag

theorem State.quadDrop_sameRecords (q st t16 : Nat) : SameRecords s (s.quadDrop q st t16) := by
  have dropped : SameRecords s (if st ≤ qClkacq || st = qWait then (s.each (linksOf q) fun l s => s.dropLock l t16).setFlag F.laneStateClkLock q false
      else s) := ((SameRecords.refl s).each fun l y h => h.trans (y.dropLock_sameRecords l t16)).setFlag.ite (.refl s)
  exact (dropped.within (State.pllLost_within ..) (by decide)).ite dropped

theorem State.leaveUp_sameRecords (q t16 : Nat) : SameRecords s (s.leaveUp q t16) :=
  (((SameRecords.refl s).each fun l y h => h.trans (y.formVerdict_sameRecords l [] t16)).within (State.scanEnd_within ..) (by decide)).ite (.refl s)

theorem State.enterQuad_sameRecords (q st t16 : Nat) : SameRecords s (s.enterQuad q st t16) := by
  unfold State.enterQuad
  extract_lets up test dropped shown quad entered preset unused trained checked
  have h1 : SameRecords s up := (SameRecords.refl s).ite (s.leaveUp_sameRecords q t16)
  have h2 : SameRecords s test := h1.ite (h1.within (State.leaveTest_within ..) (by decide))
  have h3 : SameRecords s entered := (h2.trans (test.quadDrop_sameRecords q st t16)).wr.setQuad
  have h4 : SameRecords s preset := (h3.count.each fun l y h => h.within (y.loadPreset_within l) (by decide)).ite h3
  have h5 : SameRecords s unused := (h4.each fun l y h => h.within (y.linkUnused_within l) (by decide)).ite h4
  have h6 : SameRecords s trained := (h5.each fun l y h => h.within (y.enterTrain_within l) (by decide)).ite h5
  have h7 : SameRecords s checked := (h6.each fun l y h => h.setRx.within (State.lofExit_within ..) (by decide)).ite h6
  exact h7.within (State.quadDown_within ..) (by decide)

/-! ### Settings leave the mate's records alone -/

/-- The mate block begun anew keeps the records (10 R268). -/
theorem State.mateFresh_sameRecords : SameRecords s s.mateFresh := ⟨rfl, rfl⟩

theorem State.mateCfgSync_sameRecords : SameRecords s s.mateCfgSync := by
  unfold State.mateCfgSync
  refine .ite (.ite (.refl s) ?_) (.ite (.refl s) ?_)
  · have enabled := s.mateFresh_sameRecords.wr (f := F.mateStateRole) (i := 0) (v := roleJoining)
    have logged := (enabled.setSync (v := 0)).setFlag (f := F.mateStateLinkUp) (i := 0) (b := true)
    refine SameRecords.trans ?_ (State.enterQuad_sameRecords ..)
    refine SameRecords.each ?_ fun l y h => h.within (y.linkUsed_within l) (by decide)
    exact ((logged.within (State.logEvent_within ..) (by decide)).within (State.funcOn_within ..) (by decide)).wr
  · refine (SameRecords.refl s).wr.when fun y h => ?_
    have off : SameRecords s (((y.leaveUp 32 0).wr F.laneStateGen 32 0).enterQuad 32 qOff 0) :=
      (h.trans (y.leaveUp_sameRecords 32 0)).wr.trans (State.enterQuad_sameRecords ..)
    refine SameRecords.eachN ?_ fun k z => (SameRecords.refl z).clear
    exact ((off.trans (State.mateFresh_sameRecords _)).within (State.funcDisable_within ..) (by decide)).setFlag.setFlag.setFlag.setFlag.setSync

theorem State.syncSettings_sameRecords : SameRecords s s.syncSettings := by
  have links : SameRecords s (s.mateCfgSync.lagSync.eachN 64 fun g s => s.protSync g) :=
    (s.mateCfgSync_sameRecords.within (State.lagSync_within _) (by decide)).eachN fun g y => (SameRecords.refl y).within (y.protSync_within g) (by decide)
  have legs := links.within (State.legSync_within _) (by decide)
  exact (legs.within (State.stationSync_within _) (by decide)).ite (legs.within (State.bridgeSync_within _) (by decide))

/-! ### Records that are applied leave the waiting ones alone -/

theorem State.enterRole_sameRecords {r : Nat} (hr : r < 4) : SameRecords s (s.enterRole r) :=
  ⟨congrArg (·.2.2.2.1) (s.enterRole_beyondRole hr), congrArg (·.2.2.2.2) (s.enterRole_beyondRole hr)⟩

theorem State.mateCmdDo_sameRecords (mine : Bool) (op : Nat) : SameRecords s (s.mateCmdDo mine op) := by
  unfold State.mateCmdDo
  extract_lets ok y
  have hy : SameRecords s y := (SameRecords.refl s).wr
  refine .ite (SameRecords.refl s).wr ?_
  split
  · exact (hy.trans (y.enterRole_sameRecords (by split <;> decide))).count
  · exact hy.setFlag.clear
  · exact hy

theorem State.recordDo_sameRecords (mine : Bool) (r : MirrorRec) : SameRecords s (s.recordDo mine r) := by
  have same := SameRecords.refl s
  unfold State.recordDo
  extract_lets v
  split
  · exact same.within (State.windowDo_within ..) (by decide)
  split
  · exact same.within (State.slotDo_within ..) (by decide)
  · exact same.within (State.armCmdDo_within ..) (by decide)
  · exact same.within (State.auditCtrl_within ..) (by decide)
  · exact same.within (State.groupRecord_within ..) (by decide)
  · exact s.mateCmdDo_sameRecords ..
  · exact (same.within (State.trimQueue_within ..) (by decide)).ite (same.within (State.regPut_within ..) (by decide))
  · exact same.within (State.regPut_within ..) (by decide)

theorem State.recordNote_sameRecords (r : MirrorRec) : SameRecords s (s.recordNote r) := (SameRecords.refl s).count.set_mate rfl rfl

theorem State.plainRun_sameRecords (l : List (Bool × MirrorRec)) (s : State) : SameRecords s (State.plainRun l s) := by
  fun_induction State.plainRun l s with
  | case1 x y t s _ ih =>
    have noted := (s.recordNote_sameRecords x.2).trans (State.recordNote_sameRecords _ y.2)
    exact (noted.within (State.windowDo_within ..) (by decide)).trans ih
  | case2 x y t s _ ih => exact ((s.recordDo_sameRecords x.1 x.2).trans (State.recordNote_sameRecords ..)).trans ih
  | case3 x s => exact (s.recordDo_sameRecords x.1 x.2).trans (State.recordNote_sameRecords ..)
  | case4 s => exact .refl s

theorem State.mirrorPlain_sameRecords (plain : List (Bool × MirrorRec)) : SameRecords s (s.mirrorPlain plain) :=
  (State.plainRun_sameRecords plain s).ite ((State.plainRun_sameRecords plain s).trans (State.syncSettings_sameRecords _))

theorem State.mirrorCycle_sameRecords (js : List TableJob) (j : Nat) : SameRecords s (s.mirrorCycle js j).2 := by
  unfold State.mirrorCycle
  split
  · exact .refl s
  split
  refine (SameRecords.refl s).count.each fun x y h => ?_
  exact (h.each fun r z hz => hz.trans (z.recordNote_sameRecords r)).within (State.windowDo_within ..) (by decide)

theorem State.mirrorTables_sameRecords (jobs : List TableJob) : SameRecords s (s.mirrorTables jobs) := by
  unfold State.mirrorTables
  generalize mirrorCycles = cycles
  have run : SameRecords s (cycles.foldl (fun (acc : List TableJob × State) j => acc.2.mirrorCycle acc.1 j) (jobs, s)).2 :=
    SameRecords.foldl_snd (acc := (jobs, s)) (.refl s) fun j acc h => h.trans (acc.2.mirrorCycle_sameRecords acc.1 j)
  exact run.set_mate rfl rfl

/-- The records due are taken off the queues first; nothing that they do touches those that wait. -/
theorem State.mirrorApply_sameRecords : SameRecords s.mirrorTake s.mirrorApply :=
  (State.mirrorPlain_sameRecords ..).trans (State.mirrorTables_sameRecords ..)

end

/-! ### MIRROR_APPLY (10 R266 to R268) -/

section
variable {s : State}

theorem completes_mirrorApply (first : s.swapFirst = false) (once : s.mate.mirrorAt ≠ s.tick.n + 1) (due : s.recordsDue ≠ []) :
    Completes .mirrorApply s fun t => t.mate.mirrorAt = s.tick.n + 1 ∧ ∀ r ∈ s.mate.theirs, 0 < tdiff s.now r.u.toNat → r ∈ t.mate.theirs := by
  obtain ⟨theirs, noted⟩ := s.mirrorApply_sameRecords
  refine ⟨s.mirrorApply, congrArg Host.Outcome.next (State.when_pos (by simp [first, once, due])), noted, fun r hr later => ?_⟩
  rw [theirs]
  exact List.mem_filter.2 ⟨hr, decide_eq_true later⟩

theorem completes_mirrorApply_idle (idle : s.swapFirst = true ∨ s.mate.mirrorAt = s.tick.n + 1 ∨ s.recordsDue = []) :
    Completes .mirrorApply s fun t => t = s := by
  refine ⟨s, congrArg Host.Outcome.next (State.when_neg ?_), rfl⟩
  obtain first | twice | none := idle
  · simp [first]
  · simp [twice]
  · simp [none]

end

/-! ### RESYNC_RECORD_APPLY (10 R273) -/

section
variable (s : State)

/-- Whether a record's tick of application has come. -/
def State.resyncReady (r : ResyncRec) : Bool := decide (4 ≤ tdiff r.v.toNat s.now)

/-- The records taken off the queue, the tick noted. -/
def State.resyncTaken : State := { s with mate := { s.mate with syncIn := [], syncTick := s.tick.n + 1, syncTook := [] } }

/-- The records due that are no table's, applied. -/
def State.resyncPlains (due : List ResyncRec) : State := s.each (due.filter fun r => r.window.isNone) fun r s => s.resyncPlain r

/-- The table records due, in the cycles they have: those left, and the state. -/
def State.resyncTables (due : List ResyncRec) : List ResyncRec × State :=
  controlCycles.foldl (fun acc j => acc.2.resyncCycle acc.1 j) (due.filter fun r => r.window.isSome, s)

/-- Records kept waiting. -/
def State.resyncKept (kept : List ResyncRec) : State := { s with mate := { s.mate with syncIn := kept } }

/-- Where none of the records is a setting, they are applied in two parts: those that are no table's, and the tables' in their cycles. -/
theorem State.resyncApply_eq (plain : ∀ r ∈ s.mate.syncIn, r.region ≠ 2) : ∃ x : List ResyncRec × State,
    x = (s.resyncTaken.resyncPlains (s.mate.syncIn.filter s.resyncReady)).resyncTables (s.mate.syncIn.filter s.resyncReady) ∧
    s.resyncApply = (x.2.resyncKept (x.1 ++ s.mate.syncIn.filter fun r => !s.resyncReady r)).resyncCheck := by
  refine ⟨_, rfl, ?_⟩
  have none : (((s.mate.syncIn.filter s.resyncReady).filter fun r => r.window.isNone).any fun r => decide (r.region = 2)) = false := by
    simp only [List.any_eq_false, List.mem_filter, decide_eq_true_eq]
    exact fun r h => plain r h.1.1
  unfold State.resyncApply
  unfold State.resyncTables State.resyncPlains
  generalize controlCycles = cycles
  dsimp only
  rw [List.partition_eq_filter_filter]
  dsimp only
  have ready : (fun r : ResyncRec => decide (4 ≤ tdiff r.v.toNat s.now)) = s.resyncReady := rfl
  rw [ready, if_neg (by rw [none]; decide)]
  rfl

/-- What no step of a fold changes, the fold leaves. -/
theorem foldl_keeps {α β σ : Type} (p : σ → β) (g : σ → α → σ) (h : ∀ acc a, p (g acc a) = p acc) (l : List α) (acc : σ) :
    p (l.foldl g acc) = p acc := by
  induction l generalizing acc with
  | nil => rfl
  | cons a l ih => exact (ih _).trans (h acc a)

theorem State.syncTick_resyncCycle (rs : List ResyncRec) (j : Nat) : (s.resyncCycle rs j).2.mate.syncTick = s.mate.syncTick := by
  unfold State.resyncCycle
  split
  · rfl
  split
  refine (State.each_keeps (·.mate.syncTick) _ _ _ fun r x => congrArg MateH.syncTick ((x.resyncTable_within j r).mate (by decide))).trans ?_
  have cycle : (s.ctrlCycle j).mate.syncTick = s.mate.syncTick := congrArg MateH.syncTick ((s.ctrlCycle_within j).mate (by decide))
  exact cycle

theorem State.syncTick_resyncTables (due : List ResyncRec) : (s.resyncTables due).2.mate.syncTick = s.mate.syncTick := by
  unfold State.resyncTables
  generalize controlCycles = cycles
  exact foldl_keeps (fun acc : List ResyncRec × State => acc.2.mate.syncTick) _ (fun acc j => acc.2.syncTick_resyncCycle acc.1 j) cycles _

theorem State.resyncPlains_mate (due : List ResyncRec) : (s.resyncPlains due).mate = s.mate := by
  have plain (r : ResyncRec) (x : State) : (x.resyncPlain r).mate = x.mate := (x.resyncPlain_within r).mate (by decide)
  unfold State.resyncPlains
  exact State.each_keeps State.mate _ _ s plain

theorem State.syncDone_queue : s.syncDone.mate.syncTick = s.mate.syncTick ∧ s.syncDone.mate.syncIn = s.mate.syncIn := by
  unfold State.syncDone
  rw [State.clear_mate]
  exact ⟨rfl, rfl⟩

/-- The check that ends a resynchronisation keeps the queue and the tick noted. -/
theorem State.resyncCheck_queue : s.resyncCheck.mate.syncTick = s.mate.syncTick ∧ s.resyncCheck.mate.syncIn = s.mate.syncIn := by
  have counted (n : Nat) : (s.wr F.mateResyncTotal 0 n).mate = s.mate := State.wr_mate ..
  unfold State.resyncCheck
  generalize s.resyncTotal = n
  dsimp only
  rw [← counted n]
  split
  · exact State.syncDone_queue _
  · exact ⟨rfl, rfl⟩

/-! ### A slot of the egress ring brought (10 Table 10-7) -/

theorem State.ringWord_congr {s t : State} (h : t.core = s.core) (l p : Nat) : t.ringWord l p = s.ringWord l p := by
  unfold State.ringWord
  rw [h]

/-- No table records: the control plane's cycles take none. -/
theorem State.resyncTables_of_none {due : List ResyncRec} (none : (due.filter fun r => r.window.isSome) = []) : s.resyncTables due = ([], s) := by
  unfold State.resyncTables
  rw [none]
  generalize controlCycles = cycles
  induction cycles with
  | nil => rfl
  | cons j cycles ih => exact ih

theorem State.field_ringWord_ringTake {l p : Nat} (hp : p < 8192) (v : Nat) :
    field ((s.ringTake (16384 * l + 2 * p) v).ringWord l p) 0 32 = v % 2 ^ 32 := by
  have link : (16384 * l + 2 * p) / 16384 = l := by omega
  have pair : (16384 * l + 2 * p) % 16384 / 2 = p := by omega
  have low : (16384 * l + 2 * p) % 2 = 0 := by omega
  unfold State.ringTake
  dsimp only
  rw [link, pair, low]
  unfold State.ringWord
  dsimp only
  rw [Tbl.get_modify, if_pos rfl, Tbl.get_set, if_pos rfl, field_ofNat (by decide), Nat.mul_zero, field_putField_same]

/-- A slot brought by a record that is not stale is what the ring then holds. -/
theorem State.field_ringWord_resyncPlain {l p : Nat} (hp : p < 8192) {v : BitVec 80} {n : BitVec 32}
    (fresh : s.recordStale ⟨6, 16384 * l + 2 * p, n, v⟩ = false) :
    field ((s.resyncPlain ⟨6, 16384 * l + 2 * p, n, v⟩).ringWord l p) 0 32 = field v.toNat 0 32 := by
  have taken : s.resyncPlain ⟨6, 16384 * l + 2 * p, n, v⟩ =
      (s.resyncCount ⟨6, 16384 * l + 2 * p, n, v⟩).ringTake (16384 * l + 2 * p) (field v.toNat 0 32) := by
    have counted : (s.resyncCount ⟨6, 16384 * l + 2 * p, n, v⟩).recordStale ⟨6, 16384 * l + 2 * p, n, v⟩ = false := by
      have h := s.resyncCount_within ⟨6, 16384 * l + 2 * p, n, v⟩
      unfold State.recordStale State.now at fresh ⊢
      rw [h.mate (by decide), h.rd (by decide)]
      exact fresh
    unfold State.resyncPlain
    dsimp only
    rw [counted]
    rfl
  rw [taken, State.field_ringWord_ringTake _ hp]
  exact Nat.mod_eq_of_lt (field_lt ..)

end

section
variable {s : State}

theorem completes_resyncRecordApply (vigil : s.role = 2) (syncing : s.mate.syncing = true) (first : s.swapFirst = false)
    (once : s.mate.syncTick ≠ s.tick.n + 1) (due : (s.mate.syncIn.any fun r => decide (4 ≤ tdiff r.v.toNat s.now)) = true)
    (plain : ∀ r ∈ s.mate.syncIn, r.region ≠ 2) : Completes .resyncRecordApply s fun t => t.mate.syncTick = s.tick.n + 1 ∧
      (∀ r ∈ s.mate.syncIn, tdiff r.v.toNat s.now < 4 → r ∈ t.mate.syncIn) ∧
      ∀ (l p : Nat) (v : BitVec 80) (n : BitVec 32), l < 128 → p < 8192 → s.mate.syncIn = [⟨6, 16384 * l + 2 * p, n, v⟩] →
        s.recordStale ⟨6, 16384 * l + 2 * p, n, v⟩ = false →
        field (t.ringWord l p) 0 32 = field v.toNat 0 32 ∧ t.mate.syncIn = [] := by
  obtain ⟨x, hx, e⟩ := s.resyncApply_eq plain
  have run : exec .resyncRecordApply s = .next (x.2.resyncKept (x.1 ++ s.mate.syncIn.filter fun r => !s.resyncReady r)).resyncCheck :=
    congrArg Host.Outcome.next ((State.when_pos (by simp only [vigil, syncing, first, due]; simp [once])).trans e)
  obtain ⟨tick, kept⟩ := (x.2.resyncKept (x.1 ++ s.mate.syncIn.filter fun r => !s.resyncReady r)).resyncCheck_queue
  refine ⟨_, run, ?_, fun r hr young => ?_, fun l p v n hl hp only fresh => ?_⟩
  · rw [tick]
    show x.2.mate.syncTick = _
    rw [hx, State.syncTick_resyncTables, State.resyncPlains_mate]
    rfl
  · rw [kept]
    exact List.mem_append_right _ (List.mem_filter.2 ⟨hr, by simp [State.resyncReady, young]⟩)
  · have ready : s.resyncReady ⟨6, 16384 * l + 2 * p, n, v⟩ = true := by
      rw [only] at due
      simpa [State.resyncReady] using due
    have taken : s.mate.syncIn.filter s.resyncReady = [⟨6, 16384 * l + 2 * p, n, v⟩] := by rw [only, List.filter_cons_of_pos ready, List.filter_nil]
    have young : (s.mate.syncIn.filter fun r => !s.resyncReady r) = [] := by
      rw [only, List.filter_cons_of_neg (by simp [ready]), List.filter_nil]
    rw [taken, State.resyncTables_of_none _ rfl] at hx
    subst hx
    refine ⟨?_, ?_⟩
    · rw [State.ringWord_congr ((State.resyncCheck_within _).core (by decide))]
      exact State.field_ringWord_resyncPlain s.resyncTaken hp fresh
    · rw [kept]
      exact young

theorem completes_resyncRecordApply_idle
    (idle : s.role ≠ 2 ∨ s.mate.syncing = false ∨ s.swapFirst = true ∨ s.mate.syncTick = s.tick.n + 1) :
    Completes .resyncRecordApply s fun t => t = s := by
  refine ⟨s, congrArg Host.Outcome.next (State.when_neg ?_), rfl⟩
  obtain other | still | first | twice := idle
  · simp [other]
  · simp [still]
  · simp [first]
  · simp [twice]

end

/-- Settles O47: the records due are taken off the mate's queue before anything that they do, which touches neither those that wait nor the tick
noted; a resynchronisation's records by whether they are due, the one of a ring's slot by the word that it replaces. -/
theorem mirrorAndResyncRecordsAreApplied : Obligations.MirrorAndResyncRecordsAreApplied := fun _ =>
  ⟨completes_mirrorApply, completes_mirrorApply_idle, completes_resyncRecordApply, completes_resyncRecordApply_idle⟩

end Sys2Proof.Machine

/-! Restores, the tracker and the transparent test: what a restored word leaves of the reads of its partners, when a word that can be read is read
as what it decodes to, and how a test step begins and ends (11 R281 to R296). -/

namespace Sys2Proof.Machine

/-! ### Reads of a word that decodes (11 R279 to R283) -/

/-- What a reader gets of an outcome. -/
def EccOutcome.data : EccOutcome → Option Nat
  | .clean d => some d
  | .corrected d _ => some d
  | _ => none

/-- Check bits that fit their data decode to nothing else. -/
theorem eccDecode_whole {n m : Nat} {cols : List Nat} {v d : Nat} (h : (eccDecode n m cols v (checkBits cols v)).data = some d) : d = v := by
  unfold eccDecode at h
  dsimp only at h
  rw [Nat.xor_self, if_pos rfl] at h
  split_ifs at h
  · cases h
  · cases h
  · exact (Option.some.inj h).symm

/-- The poison pattern, undamaged, is read as poison. -/
theorem eccRead_pattern : ∀ wide : Bool, eccRead wide true 0 [] = .poison := by decide +kernel

/-- An undamaged word that decodes holds its data, and no poison. -/
theorem eccRead_whole {wide poisoned : Bool} {v d : Nat} (hv : v < 2 ^ if wide then 80 else 64)
    (h : (eccRead wide poisoned v []).data = some d) : poisoned = false ∧ d = v := by
  cases poisoned with
  | true =>
    rw [show eccRead wide true v [] = eccRead wide true 0 [] from rfl, eccRead_pattern] at h
    cases h
  | false =>
    unfold eccRead at h
    dsimp only [List.foldl_nil] at h
    simp only [Bool.false_eq_true, if_false] at h
    rw [Nat.add_mul_mod_self_right, Nat.mod_eq_of_lt hv, Nat.add_mul_div_right _ _ (Nat.two_pow_pos _), Nat.div_eq_of_lt hv, Nat.zero_add] at h
    exact ⟨rfl, eccDecode_whole h⟩

section
variable {s : State} {a d : Nat}

/-- A word whose read decodes is read as what it decodes to. -/
theorem State.readWith_data {poisoned : Bool} {v : Nat} {flips : List Nat} (found : State → State)
    (hv : v < 2 ^ if decide (eccMem a = 0) then 80 else 64) (h : (eccRead (eccMem a = 0) poisoned v flips).data = some d) :
    (s.readWith a poisoned v flips found).1 = .data d := by
  unfold State.readWith
  by_cases whole : flips = []
  · subst whole
    obtain ⟨rfl, rfl⟩ := eccRead_whole hv h
    rfl
  · rw [if_neg (by rwa [List.isEmpty_iff])]
    split
    next clean => rw [clean] at h; exact congrArg Got.data (Option.some.inj h)
    next corrected => rw [corrected] at h; exact congrArg Got.data (Option.some.inj h)
    next ue => rw [ue] at h; cases h
    next poison => rw [poison] at h; cases h

theorem State.decoded_eq (s : State) (a : Nat) : s.decoded a = (eccRead (eccMem a = 0) (s.heldAt a).1 (s.heldAt a).2
    (s.wrongBits a (s.heldAt a).1 (s.heldAt a).2 (Tbl.get [] s.ecc.damage a))).data := by
  unfold State.decoded
  dsimp only
  generalize eccRead .. = read
  cases read <;> rfl

theorem State.winHeld_emit_lt (s : State) (sh : Bool) (i : Nat) : s.winHeld (.emit sh i) < 2 ^ 80 := BitVec.isLt _
theorem State.winHeld_term_lt (s : State) (sh : Bool) (i : Nat) : s.winHeld (.term sh i) < 2 ^ 64 := BitVec.isLt _
theorem State.winHeld_up_lt (s : State) (i : Nat) : s.winHeld (.up i) < 2 ^ 32 := BitVec.isLt _

theorem classStatic_iff (mem : Nat) : classStatic mem = true ↔ mem = 0 ∨ mem = 1 ∨ mem = 5 ∨ mem = 6 := by
  simp only [classStatic, Bool.or_eq_true, decide_eq_true_eq, or_assoc]

/-- A static word fits its code word (11 Table 11-1). -/
theorem State.heldAt_lt (s : State) (static : classStatic (eccMem a) = true) : (s.heldAt a).2 < 2 ^ if decide (eccMem a = 0) then 80 else 64 := by
  obtain mem | mem | mem | mem := (classStatic_iff _).1 static <;> unfold State.heldAt <;> dsimp only <;> rw [mem]
  · exact s.winHeld_emit_lt ..
  · exact s.winHeld_term_lt ..
  · show Prod.snd (if eccBank a < 24 then _ else if eccBank a < 26 then _ else _) < 2 ^ 64
    split_ifs
    · exact field_lt ..
    · have low := s.winHeld_up_lt (pairOf (eccBank a) (eccWord a))
      have high := s.winHeld_up_lt (pairOf (eccBank a) (eccWord a) + 2)
      show _ + _ * 2 ^ 32 < 2 ^ 64
      omega
    · exact field_lt ..
  · exact BitVec.isLt _

theorem State.readAt_decoded (static : classStatic (eccMem a) = true) (h : s.decoded a = some d) : (s.readAt a).1 = .data d :=
  State.readWith_data _ (s.heldAt_lt static) (s.decoded_eq a ▸ h)

end

/-! ### Restores (11 R288) -/

/-- What a restore leaves behind: ECC_RESTORES, and the tick of the last one. -/
def State.restoreMark (s : State) : Word × Nat := (s.word .eccRestores 0, s.ecc.restoredAt)

section
variable {s : State}

theorem Within.restoreMark {f : Foot} {x : State} (h : Within f s x) (hc : f.hasComp .ecc = false) (hr : f.hasReg .eccRestores = false) :
    x.restoreMark = s.restoreMark := Prod.ext (h.word _ hr 0) (congrArg EccH.restoredAt (h.ecc hc))

variable (s)

theorem State.trackCount_restoredAt (a b : Nat) : (s.trackCount a b).ecc.restoredAt = s.ecc.restoredAt := by
  have marked : ∀ (y : State) (n : Nat), (y.markCounted n).ecc.restoredAt = y.ecc.restoredAt := fun _ _ => rfl
  unfold State.trackCount
  split
  next n _ =>
    split
    · rfl
    · dsimp only
      split_ifs
      · rw [State.wr_ecc, marked]
      · rw [(State.trackerHard_within ..).ecc (by decide), marked]
      · rw [marked]
  next =>
    split
    · rw [marked, State.setWord_ecc]
    · rw [State.raise_ecc, State.setFlag_ecc, State.count_ecc]

theorem State.wantRestore_restoredAt (a : Nat) : (s.wantRestore a).ecc.restoredAt = s.ecc.restoredAt := by
  unfold State.wantRestore
  split <;> rfl

theorem State.ueFound_restoredAt (a : Nat) (path : Bool) : (s.ueFound a path).ecc.restoredAt = s.ecc.restoredAt := by
  have seen : (s.ueSeen a path).ecc = s.ecc := (State.ueSeen_within ..).ecc (by decide)
  unfold State.ueFound
  dsimp only
  split_ifs
  · rw [State.wantRestore_restoredAt, seen]
  · rw [State.count_ecc, State.wr_ecc, seen]
  · rw [seen]

theorem State.sramRead_restoredAt (a : Nat) (poisoned : Bool) (v : Nat) (path : Bool) :
    (s.sramRead a poisoned v path).2.ecc.restoredAt = s.ecc.restoredAt := by
  unfold State.sramRead State.readWith
  split
  · split <;> rfl
  · split
    · rfl
    · exact State.trackCount_restoredAt ..
    · exact s.ueFound_restoredAt a path
    · rfl

theorem State.gainWrite_restoredAt (p : WinPlace) (lo gain cyc : Nat) : (s.gainWrite p lo gain cyc).2.ecc.restoredAt = s.ecc.restoredAt := by
  unfold State.gainWrite
  split
  · rfl
  next a _ =>
    have read := s.sramRead_restoredAt a false (s.winHeld p) false
    split
    · rfl
    · split
      next e =>
        rw [e] at read
        exact (congrArg EccH.restoredAt ((State.winPut_within ..).ecc (by decide))).trans read
      next e =>
        rw [e] at read
        exact (State.wantRestore_restoredAt ..).trans read

theorem State.gainWrite_restoreMark (p : WinPlace) (lo gain cyc : Nat) : (s.gainWrite p lo gain cyc).2.restoreMark = s.restoreMark :=
  Prod.ext ((State.gainWrite_within ..).word _ (by decide) 0) (s.gainWrite_restoredAt p lo gain cyc)

theorem State.trimLost_restoreMark : s.trimLost.restoreMark = s.restoreMark := s.trimLost_within.restoreMark (by decide) (by decide)

theorem State.restoreDone_restoreMark (a : Nat) : (s.restoreDone a).restoreMark = (s.word .eccRestores 0 + 1, s.tick.n + 1) := by
  have written := s.fullWrite_within a
  unfold State.restoreDone State.restoreMark
  refine Prod.ext ((State.word_count ..).trans ?_) ?_
  · rw [written.word _ (by decide)]
  · show ((s.fullWrite a).count .eccRestores 0).tick.n + 1 = _
    rw [State.count_tick, written.tick (by decide)]

section
variable {s} {x : State} (h : Within (.of [.core, .ecc] []) s x)
include h

/-- A restore made after no more than stores and books of cycles. -/
theorem Within.restoreDone_restoreMark (a : Nat) : (x.restoreDone a).restoreMark = (s.word .eccRestores 0 + 1, s.tick.n + 1) := by
  rw [x.restoreDone_restoreMark, h.word _ (by decide), h.tick (by decide)]

theorem Within.restoreTerm_restoreMark (a i v c : Nat) : (x.restoreTerm a i v c).restoreMark = (s.word .eccRestores 0 + 1, s.tick.n + 1) := by
  unfold State.restoreTerm
  rw [State.trimLost_restoreMark, State.each_keeps State.restoreMark _ _ _ fun e y => y.gainWrite_restoreMark ..]
  exact Within.restoreDone_restoreMark (.after (State.winPut_within ..) h (by decide)) a

theorem Within.restoreEntry_restoreMark (a i v c : Nat) : (x.restoreEntry a i v c).restoreMark = (s.word .eccRestores 0 + 1, s.tick.n + 1) := by
  unfold State.restoreEntry
  dsimp only
  rw [State.read_when State.restoreMark State.trimLost_restoreMark]
  exact Within.restoreDone_restoreMark (.after (State.winPut_within ..) h (by decide)) a

theorem Within.restoreConv_restoreMark (a slot : Nat) : (x.restoreConv a slot).restoreMark = (s.word .eccRestores 0 + 1, s.tick.n + 1) :=
  Within.restoreDone_restoreMark (.set_core (.after (State.winPut_within ..) (.after (State.winPut_within ..) h (by decide)) (by decide))
    (by decide)) a

end

variable {s}

/-- A restore whose cycle is free is made. -/
theorem State.restore_restoreMark {a c : Nat}
    (entry : eccMem a = 0 → freeCycle emitCycles s.core.emitEdits (fun x => x / 16384) (eccBank a / 2) = some c)
    (term : eccMem a = 1 → freeCycle termCycles s.core.termEdits (fun x => 2 * (x / 32768) + x % 2) (eccBank a / 2) = some c) :
    (s.restore a).restoreMark = (s.word .eccRestores 0 + 1, s.tick.n + 1) := by
  have booked : Within (.of [.core, .ecc] []) s (s.scrubCycles a 1) := (s.scrubCycles_within a 1).mono (by decide)
  unfold State.restore
  dsimp only
  split
  next mem =>
    rw [entry mem]
    exact booked.restoreEntry_restoreMark ..
  next mem =>
    rw [term mem]
    exact booked.restoreTerm_restoreMark ..
  next => exact Within.restoreConv_restoreMark (.refl ..) ..

theorem State.restoreFail_facts (s : State) (a : Nat) : (s.restoreFail a).active A.tableUePersist 0 = true ∧
    (s.restoreFail a).flag F.eccStatusPersist 0 = true ∧ a ∈ (s.restoreFail a).ecc.persist := by
  unfold State.restoreFail
  refine ⟨State.active_raise_same _ _ (by decide), ?_, ?_⟩
  · rw [State.flag_raise _ _ _ _ _ (by decide), State.flag_setFlag _ _ _ _ rfl (by decide)]
  · rw [State.raise_ecc]
    exact List.mem_append_right _ (List.mem_singleton_self a)

section
variable {addr : BitVec 32} {u : Nat} (waits : s.ecc.restores.find? (fun r => decide (r.1 = addr.toNat)) = some (addr.toNat, u))
  (due : u + 2 ≤ s.tick.n) (active : s.activeTable addr.toNat = true)
include waits due active

theorem completes_tableRestore {c : Nat} (kept : s.slotState (s.restoreSlot addr.toNat) ≠ 5) (filled : s.slotState (s.restoreSlot addr.toNat) ≠ 0)
    (entry : eccMem addr.toNat = 0 → freeCycle emitCycles s.core.emitEdits (fun x => x / 16384) (eccBank addr.toNat / 2) = some c)
    (term : eccMem addr.toNat = 1 →
      freeCycle termCycles s.core.termEdits (fun x => 2 * (x / 32768) + x % 2) (eccBank addr.toNat / 2) = some c) :
    Completes (.tableRestore addr false) s fun t =>
      t.word .eccRestores 0 = s.word .eccRestores 0 + 1 ∧ t.ecc.restoredAt = s.tick.n + 1 := by
  have run : exec (.tableRestore addr false) s = .next (s.restore addr.toNat) := by
    show execTableRestore addr false s = _
    unfold execTableRestore
    dsimp only
    rw [waits]
    dsimp only
    rw [if_neg (by omega), if_neg (by rw [active]; decide), State.when_neg rfl, if_neg (by simp [kept, filled])]
  exact ⟨_, run, Prod.ext_iff.1 (State.restore_restoreMark entry term)⟩

theorem completes_tableRestore_fails : Completes (.tableRestore addr true) s fun t => t.active A.tableUePersist 0 = true ∧
    t.flag F.eccStatusPersist 0 = true ∧ addr.toNat ∈ t.ecc.persist ∧ t.word .eccRestores 0 = s.word .eccRestores 0 := by
  have run : exec (.tableRestore addr true) s =
      .next ((s.libraryUncorrected (s.restoreSlot addr.toNat)).restoreFail addr.toNat) := by
    show execTableRestore addr true s = _
    unfold execTableRestore
    dsimp only
    rw [waits]
    dsimp only
    rw [if_neg (by omega), if_neg (by rw [active]; decide), State.when_pos rfl, if_pos (by simp)]
  obtain ⟨alarm, flag, persist⟩ := (s.libraryUncorrected (s.restoreSlot addr.toNat)).restoreFail_facts addr.toNat
  refine ⟨_, run, alarm, flag, persist, ?_⟩
  rw [(State.restoreFail_within ..).word _ (by decide), (State.libraryUncorrected_within ..).word _ (by decide)]

end

/-! ### The tracker (11 R290, R291) -/

theorem State.trackerHard_facts (s : State) (n : Nat) : (s.trackerHard n).rd F.eccTrackState n = 3 ∧
    (s.trackerHard n).flag F.eccStatusHard 0 = true ∧ (s.trackerHard n).active A.eccHardCandidate 0 = true := by
  unfold State.trackerHard
  dsimp only
  refine ⟨?_, ?_, ?_⟩
  · rw [(State.hardCandidate_within ..).rd (by decide), State.rd_raise _ _ _ _ _ (by decide),
      State.rd_setFlag_apart _ _ _ _ (by decide) (by decide)]
    exact State.rd_wr _ _ _ _ (by decide)
  · rw [(State.hardCandidate_within ..).flag (by decide), State.flag_raise _ _ _ _ _ (by decide), State.flag_setFlag _ _ _ _ rfl (by decide)]
  · rw [(State.hardCandidate_within ..).active (by decide)]
    exact State.active_raise_same _ _ (by decide)

theorem State.decoded_scrubCycles (s : State) (a b n : Nat) : (s.scrubCycles b n).decoded a = s.decoded a := rfl

/-- A static word that can be read waits for its write-back. -/
theorem State.writebackRead_waits {n a d : Nat} (static : classStatic (eccMem a) = true) (h : s.decoded a = some d) :
    (n, d) ∈ (s.writebackRead n a).ecc.writeback := by
  have read := State.readAt_decoded (s := s.scrubCycles a 1) static h
  unfold State.writebackRead
  split
  next e y got =>
    rw [got] at read
    cases read
    exact List.mem_append_right _ (List.mem_singleton_self _)
  next y other got =>
    rw [got] at read
    exact absurd read (by simpa using other d)

section
variable {n : TrackId} (counting : s.rd F.eccTrackState n = 1) (reached : max 1 (s.rd F.eccTrackCfgThreshold 0) ≤ s.rd F.eccTrackCount n)
include counting reached

theorem completes_trackerThreshold_streaming (streaming : classStatic (eccMem (s.rd F.eccTrackAddr n)) = false) :
    Completes (.trackerThreshold n) s fun t =>
      t.rd F.eccTrackState n = 3 ∧ t.flag F.eccStatusHard 0 = true ∧ t.active A.eccHardCandidate 0 = true := by
  have run : exec (.trackerThreshold n) s = .next (s.trackerHard n) :=
    congrArg Host.Outcome.next ((State.when_pos (by simp only [counting, reached]; decide)).trans (if_pos (by rw [streaming]; rfl)))
  exact ⟨_, run, s.trackerHard_facts n⟩

theorem completes_trackerThreshold_static {d : Nat} (static : classStatic (eccMem (s.rd F.eccTrackAddr n)) = true)
    (none : s.ecc.writeback = []) (readable : s.decoded (s.rd F.eccTrackAddr n) = some d) :
    Completes (.trackerThreshold n) s fun t => (n.val, d) ∈ t.ecc.writeback := by
  have run : exec (.trackerThreshold n) s = .next (s.writebackRead n (s.rd F.eccTrackAddr n)) :=
    congrArg Host.Outcome.next ((State.when_pos (by simp only [counting, reached]; decide)).trans
      ((if_neg (by rw [static]; decide)).trans (if_neg (by rw [none]; exact Bool.false_ne_true))))
  exact ⟨_, run, State.writebackRead_waits static readable⟩

end

theorem State.word_set_ecc (s : State) (e : EccH) (r : Reg) (i : Nat) : ({ s with ecc := e } : State).word r i = s.word r i := rfl

/-- Entry `n` shown WRITTEN_BACK. -/
def State.writtenShown (s : State) (n : Nat) : State := (s.wr F.eccTrackState n 2).wr F.eccTrackCount n 0

theorem State.writtenShown_facts (s : State) (n : Nat) : (s.writtenShown n).rd F.eccTrackState n = 2 ∧
    (s.writtenShown n).rd F.eccTrackCount n = 0 ∧ (s.writtenShown n).word .eccWritebacks 0 = s.word .eccWritebacks 0 ∧
    (s.writtenShown n).tick = s.tick :=
  ⟨(State.rd_wr_apart _ _ _ _ (by decide) (by decide)).trans (State.rd_wr _ _ _ _ (by decide)), State.rd_wr _ _ _ _ (by decide),
    (State.word_wr_other _ _ (.inl (by decide))).trans (State.word_wr_other _ _ (.inl (by decide))),
    (State.wr_tick ..).trans (State.wr_tick ..)⟩

/-- The same, the tick of it noted. -/
def State.writtenBack (s : State) (n : Nat) : State :=
  let y := s.writtenShown n
  { y with ecc := { y.ecc with written := Tbl.set 0 y.ecc.written n y.tick.n } }

theorem State.writtenBack_facts (s : State) (n : Nat) : (s.writtenBack n).rd F.eccTrackState n = 2 ∧ (s.writtenBack n).rd F.eccTrackCount n = 0 ∧
    (s.writtenBack n).word .eccWritebacks 0 = s.word .eccWritebacks 0 ∧ Tbl.get 0 (s.writtenBack n).ecc.written n = s.tick.n := by
  obtain ⟨state, count, writebacks, tick⟩ := s.writtenShown_facts n
  unfold State.writtenBack
  dsimp only
  refine ⟨?_, ?_, ?_, (Tbl.get_set_same ..).trans (congrArg TickH.n tick)⟩
  · rw [State.rd_congr (State.word_set_ecc ..), state]
  · rw [State.rd_congr (State.word_set_ecc ..), count]
  · rw [State.word_set_ecc, writebacks]

theorem State.writebackDo_facts (s : State) (n a d : Nat) : (s.writebackDo n a d).rd F.eccTrackState n = 2 ∧
    (s.writebackDo n a d).rd F.eccTrackCount n = 0 ∧ (s.writebackDo n a d).word .eccWritebacks 0 = s.word .eccWritebacks 0 + 1 ∧
    Tbl.get 0 (s.writebackDo n a d).ecc.written n = s.tick.n := by
  have stored : Within (.of [.core, .ecc, .bus] []) s ((s.scrubCycles a 1).storeBack a ((s.decoded a).getD d)) :=
    .after (State.storeBack_within ..) ((s.scrubCycles_within a 1).mono (by decide)) (by decide)
  have noted : s.writebackDo n a d =
      (((s.scrubCycles a 1).storeBack a ((s.decoded a).getD d)).writtenBack n).count .eccWritebacks 0 := rfl
  rw [noted]
  generalize (s.scrubCycles a 1).storeBack a ((s.decoded a).getD d) = y at stored ⊢
  obtain ⟨state, count, writebacks, written⟩ := y.writtenBack_facts n
  refine ⟨(State.rd_count_other _ _ _ (by decide)).trans state, (State.rd_count_other _ _ _ (by decide)).trans count, ?_, ?_⟩
  · rw [State.word_count, writebacks, stored.word _ (by decide)]
  · rw [State.count_ecc, written, stored.tick (by decide)]

/-- The state in which entry `n` no longer waits for its write-back. -/
def State.writebackTaken (s : State) (n : Nat) : State := { s with ecc := { s.ecc with writeback := s.ecc.writeback.filter fun x => x.1 ≠ n } }

theorem completes_trackerWriteback {n : TrackId} {d : Nat} (waits : s.ecc.writeback.find? (fun w => decide (w.1 = n.val)) = some (n.val, d)) :
    Completes (.trackerWriteback n) s fun t => t.rd F.eccTrackState n = 2 ∧ t.rd F.eccTrackCount n = 0 ∧
      t.word .eccWritebacks 0 = s.word .eccWritebacks 0 + 1 ∧ Tbl.get 0 t.ecc.written n = s.tick.n := by
  have run : exec (.trackerWriteback n) s = .next ((s.writebackTaken n).writebackDo n (s.rd F.eccTrackAddr n) d) := by
    show execTrackerWriteback n s = _
    unfold execTrackerWriteback
    rw [waits]
    rfl
  exact ⟨_, run, (s.writebackTaken n).writebackDo_facts n _ d⟩

theorem completes_trackerEntryFree {n : TrackId} (written : s.rd F.eccTrackState n = 2)
    (due : Tbl.get 0 s.ecc.written n + 4147200000 ≤ s.tick.n) : Completes (.trackerEntryFree n) s fun t =>
      t.word .eccTrack n = 0 ∧ t.ecc = s.ecc :=
  ⟨_, congrArg Host.Outcome.next (State.when_pos (by simp only [written, due]; decide)), State.word_setWord_same .., rfl⟩

/-! ### The transparent test (11 R292, R294, R296) -/

/-- A march mismatch as it is shown, before the tracker takes it. -/
def State.testFailShown (s : State) (a : Nat) : State := (s.count .eccTestFail (eccMem a)).wr F.eccTestStatusLastFail 0 a

theorem State.testFail_after_shown (s : State) (a b : Nat) :
    Within (Foot.alarm.plus (.of [] [.eccStatus, .eccTrack])) (s.testFailShown a) (s.testFail a b) := by
  unfold State.testFail
  dsimp only
  have raised : Within (Foot.alarm.plus (.of [] [.eccStatus, .eccTrack])) (s.testFailShown a)
      (((s.testFailShown a).setFlag F.eccStatusTestFail 0 true).raise A.testFail 0) :=
    .after (State.raise_within ..) (.setFlag _ _ _ (.refl ..) (by decide)) (by decide)
  refine .ite raised (.after (State.hardCandidate_within ..) ?_ (by decide))
  split
  · exact .after (State.raise_within ..) (.setFlag _ _ _ (.setWord _ _ _ raised (by decide)) (by decide)) (by decide)
  · exact raised

/-- What a test step under way has noted, and BUSY. -/
def State.testNoted (s : State) : EccH × Bool := (s.ecc, s.flag F.eccTestStatusBusy 0)

theorem State.testFail_testNoted (s : State) (a b : Nat) : (s.testFail a b).testNoted = s.testNoted := by
  have after := s.testFail_after_shown a b
  refine Prod.ext (after.ecc (by decide)) ((after.flag (by decide) 0).trans ?_)
  exact (State.flag_wr_apart _ _ _ _ (by decide) (by decide)).trans (State.flag_congr (State.word_count_other _ (.inl (by decide))))

/-- The books of a test step that starts now. -/
def State.testStarted (s : State) : State :=
  { s with ecc := { s.ecc with testNow := 0, testWait := 0, testSince := some s.tick.n, testRegion := s.rd F.eccTestStatusStep 0 } }

theorem completes_testStepStart (fails : List (BitVec 32 × Nat)) (idle : s.ecc.testSince = none) (on : s.rd F.sysFuncStateState 37 = 2)
    (due : (s.ecc.testNow ≠ 0 ∧ s.ecc.testNow ≤ s.tick.n) ∨ s.rd F.eccTestCfgInterval 0 ≤ s.ecc.testWait) :
    Completes (.testStepStart fails) s fun t => t.ecc.testSince = some s.tick.n ∧ t.ecc.testRegion = s.rd F.eccTestStatusStep 0 ∧
      t.ecc.testWait = 0 ∧ t.flag F.eccTestStatusBusy 0 = true := by
  have run : exec (.testStepStart fails) s = .next ((s.testStarted.setFlag F.eccTestStatusBusy 0 true).each
      (fails.filter fun f => underTest (s.rd F.eccTestStatusStep 0) f.1.toNat) fun f s => s.testFail f.1.toNat f.2) :=
    congrArg Host.Outcome.next (State.when_pos (by simpa [idle, on] using due))
  have kept := State.each_keeps State.testNoted (fails.filter fun f => underTest (s.rd F.eccTestStatusStep 0) f.1.toNat)
    (fun f s => s.testFail f.1.toNat f.2) (s.testStarted.setFlag F.eccTestStatusBusy 0 true) fun f y => y.testFail_testNoted f.1.toNat f.2
  obtain ⟨ecc, busy⟩ := Prod.ext_iff.1 kept
  exact ⟨_, run, congrArg EccH.testSince ecc, congrArg EccH.testRegion ecc, congrArg EccH.testWait ecc,
    busy.trans (State.flag_setFlag _ _ _ _ rfl (by decide))⟩

/-- The state in which no test step is under way. -/
def State.testOver (s : State) : State := { s with ecc := { s.ecc with testSince := none } }

theorem completes_testStepEnd {k : Nat} (since : s.ecc.testSince = some k) (due : k + 12 ≤ s.tick.n) : Completes .testStepEnd s fun t =>
    t.ecc.testSince = none ∧ t.flag F.eccTestStatusBusy 0 = false ∧
      t.rd F.eccTestStatusStep 0 = (s.rd F.eccTestStatusStep 0 + 1) % 2 ^ F.eccTestStatusStep.width := by
  have run : exec .testStepEnd s = .next (((s.testOver.setFlag F.eccTestStatusBusy 0 false).wr F.eccTestStatusStep 0
      (s.rd F.eccTestStatusStep 0 + 1)).countBy .eccTestRegions 0 allBanks) := by
    show execTestStepEnd s = _
    unfold execTestStepEnd
    rw [since]
    exact congrArg Host.Outcome.next (State.when_pos (decide_eq_true due))
  refine ⟨_, run, rfl, ?_, ?_⟩
  · refine (State.flag_congr (State.word_setWord_other (r := .eccTestRegions) _ _ (.inl (by decide)))).trans ?_
    rw [State.flag_wr_apart _ _ _ _ (by decide) (by decide), State.flag_setFlag _ _ _ _ rfl (by decide)]
  · refine (State.rd_congr (State.word_setWord_other (r := .eccTestRegions) _ _ (.inl (by decide)))).trans ?_
    rw [State.rd_wr _ _ _ _ (by decide)]

theorem completes_eccTestNow {m : Master} (hr : s.reaches m 18 true = true) (he : s.expert m = true) : Completes (.eccTestNow m) s fun t =>
    t.ecc = { s.ecc with testNow := s.tick.n + 1 } := by
  obtain ⟨x, hx, access⟩ := State.expertReg_ok hr he .eccTestCfg 0 (·.testNow)
  refine ⟨_, congrArg Host.Outcome.next access, ?_⟩
  show { x.ecc with testNow := x.tick.n + 1 } = _
  rw [hx.ecc (by decide), hx.tick (by decide)]

end

/-- Settles O48: a restore by its class, each of which marks it; a tracker's entry by its word's class, where a word that decodes is read as what it
decodes to; the test's steps by what they note. -/
theorem restoresTrackerAndTestComplete : Obligations.RestoresTrackerAndTestComplete := fun _ _ _ _ _ =>
  ⟨fun waits due active => ⟨fun _ kept filled entry term => completes_tableRestore waits due active kept filled entry term,
      completes_tableRestore_fails waits due active⟩,
    fun counting reached => ⟨completes_trackerThreshold_streaming counting reached,
      fun _ => completes_trackerThreshold_static counting reached⟩,
    fun _ => completes_trackerWriteback, completes_trackerEntryFree, completes_testStepStart, fun _ => completes_testStepEnd,
    completes_eccTestNow⟩

end Sys2Proof.Machine

/-! Scrub passes and the alarms of ECC_STATUS: how a pass begins, is refused and ends, and what a clear ends (11 R297, R298, R305). -/

namespace Sys2Proof.Machine

/-! ### A pass (11 R297, R298) -/

section
variable {s : State}

theorem State.scrubFinish_facts (s : State) {e : Nat} (he : e < 8) : (s.scrubFinish e).ecc.scrub = none ∧
    (s.scrubFinish e).flag F.eccScrubStatusBusy 0 = false ∧ (s.scrubFinish e).flag F.eccScrubStatusDone 0 = true ∧
    (s.scrubFinish e).rd F.eccScrubStatusErr 0 = e := by
  unfold State.scrubFinish
  refine ⟨rfl, ?_, ?_, (State.rd_wr _ _ _ _ (by decide)).trans (Nat.mod_eq_of_lt he)⟩
  · rw [State.flag_wr_apart _ _ _ _ (by decide) (by decide), State.flag_setFlag_apart _ _ _ _ (by decide) (by decide),
      State.flag_setFlag _ _ _ _ rfl (by decide)]
  · rw [State.flag_wr_apart _ _ _ _ (by decide) (by decide), State.flag_setFlag _ _ _ _ rfl (by decide)]

/-- The summary, the list and the status of a pass cleared. -/
def State.scrubCleared (s : State) : State :=
  ((s.eachN 5 fun k s => s.setWord .eccScrubSum k 0).eachN 64 fun k s => s.setWord .eccScrubUe k 0).setWord .eccScrubStatus 0 0

theorem State.scrubCleared_within (s : State) : Within (.of [] [.eccScrubSum, .eccScrubUe, .eccScrubStatus]) s s.scrubCleared :=
  .setWord _ _ _ (.eachN _ _ (.eachN _ _ (.refl ..) fun _ _ h => h.setWord _ _ _ (by decide)) fun _ _ h => h.setWord _ _ _ (by decide)) (by decide)

theorem State.scrubCleared_sum (s : State) {k : Nat} (hk : k < 5) : s.scrubCleared.word .eccScrubSum k = 0 := by
  have listed : ∀ y : State, (y.eachN 64 fun k s => s.setWord .eccScrubUe k 0).word .eccScrubSum k = y.word .eccScrubSum k := fun y =>
    State.eachN_keeps (·.word .eccScrubSum k) _ _ _ fun _ _ => State.word_setWord_other _ _ (.inl (by decide))
  obtain ⟨y, -, e⟩ := State.eachN_read_round (·.word .eccScrubSum k) hk s (fun k s => s.setWord .eccScrubSum k 0) fun _ _ other =>
    State.word_setWord_other _ _ (.inr other)
  unfold State.scrubCleared
  rw [State.word_setWord_other _ _ (.inl (by decide)), listed]
  exact e.trans (State.word_setWord_same ..)

/-- The pass `r` under way. -/
def State.scrubRuns (s : State) (r : ScrubRun) : State :=
  ({ s with ecc := { s.ecc with scrub := some r } } : State).setFlag F.eccScrubStatusBusy 0 true

theorem State.scrubRuns_within (s : State) (r : ScrubRun) : Within (.of [.ecc] [.eccScrubStatus]) s (s.scrubRuns r) :=
  .setFlag _ _ _ (.set_ecc (.refl ..) (by decide)) (by decide)

theorem State.scrubBegin_busy (busy : s.flag F.eccScrubStatusBusy 0 = true) : s.scrubBegin = s := if_pos busy

/-- The run that a command's settings ask for, from tick `n` on: every bank of the class for BANK_COUNT 0. -/
def scrubAsked (n mem cnt first : Nat) (mode : Bool) : ScrubRun :=
  ⟨n, mem, if cnt = 0 then 0 else first, if cnt = 0 then classBanks mem else cnt, mode, [], []⟩

section
variable {mem cnt first : Nat} (idle : s.flag F.eccScrubStatusBusy 0 = false) (hmem : s.rd F.eccScrubCmdMem 0 = mem)
  (hcnt : s.rd F.eccScrubCmdBankCount 0 = cnt) (hfirst : s.rd F.eccScrubCmdBankFirst 0 = first)
include idle hmem hcnt hfirst

theorem State.scrubBegin_eq : s.scrubBegin =
    if classBanks mem = 0 ∨ classBanks mem < (if cnt = 0 then 0 else first) + (if cnt = 0 then classBanks mem else cnt)
    then s.scrubCleared.scrubFinish 1 else s.scrubCleared.scrubRuns (scrubAsked s.tick.n mem cnt first (s.flag F.eccScrubCmdMode 0)) := by
  have cleared := s.scrubCleared_within
  unfold State.scrubBegin
  rw [if_neg (by rw [idle]; decide)]
  dsimp only
  rw [← State.scrubCleared]
  generalize s.scrubCleared = y at cleared ⊢
  rw [cleared.rd (f := F.eccScrubCmdMem) (by decide), cleared.rd (f := F.eccScrubCmdBankCount) (by decide),
    cleared.rd (f := F.eccScrubCmdBankFirst) (by decide), cleared.flag (f := F.eccScrubCmdMode) (by decide), hmem, hcnt, hfirst,
    ← cleared.tick (by decide)]
  simp only [Bool.or_eq_true, decide_eq_true_eq]
  rfl

/-- A range beyond its class. -/
theorem State.scrubBegin_outside (outside : classBanks mem = 0 ∨ classBanks mem < if cnt = 0 then 0 else first + cnt) :
    s.scrubBegin = s.scrubCleared.scrubFinish 1 := by
  rw [State.scrubBegin_eq idle hmem hcnt hfirst]
  refine if_pos (outside.imp_right fun beyond => ?_)
  split at beyond
  next => exact absurd beyond (Nat.not_lt_zero _)
  next some => rwa [if_neg some, if_neg some]

theorem State.scrubBegin_within_class (known : classBanks mem ≠ 0) (fits : (if cnt = 0 then 0 else first + cnt) ≤ classBanks mem) :
    s.scrubBegin = s.scrubCleared.scrubRuns (scrubAsked s.tick.n mem cnt first (s.flag F.eccScrubCmdMode 0)) := by
  rw [State.scrubBegin_eq idle hmem hcnt hfirst]
  refine if_neg fun outside => outside.elim known fun beyond => ?_
  by_cases all : cnt = 0
  · rw [if_pos all, if_pos all, Nat.zero_add] at beyond
    exact absurd beyond (Nat.lt_irrefl _)
  · rw [if_neg all, if_neg all] at beyond
    rw [if_neg all] at fits
    exact absurd beyond (Nat.not_lt.2 fits)

theorem State.scrubBegin_facts : (∀ k : Nat, k < 5 → s.scrubBegin.word .eccScrubSum k = 0) ∧
    (classBanks mem = 0 ∨ classBanks mem < (if cnt = 0 then 0 else first + cnt) → s.scrubBegin.ecc.scrub = none ∧
      s.scrubBegin.rd F.eccScrubStatusErr 0 = 1 ∧ s.scrubBegin.flag F.eccScrubStatusDone 0 = true) ∧
    (classBanks mem ≠ 0 → (if cnt = 0 then 0 else first + cnt) ≤ classBanks mem → s.scrubBegin.flag F.eccScrubStatusBusy 0 = true ∧
      s.scrubBegin.ecc.scrub = some (scrubAsked s.tick.n mem cnt first (s.flag F.eccScrubCmdMode 0))) := by
  refine ⟨fun k hk => ?_, fun outside => ?_, fun known fits => ?_⟩
  · by_cases outside : classBanks mem = 0 ∨ classBanks mem < if cnt = 0 then 0 else first + cnt
    · rw [State.scrubBegin_outside idle hmem hcnt hfirst outside]
      exact ((s.scrubCleared.scrubFinish_within 1).word _ (by decide) k).trans (s.scrubCleared_sum hk)
    · obtain ⟨known, fits⟩ := not_or.1 outside
      rw [State.scrubBegin_within_class idle hmem hcnt hfirst known (Nat.not_lt.1 fits)]
      exact ((s.scrubCleared.scrubRuns_within _).word _ (by decide) k).trans (s.scrubCleared_sum hk)
  · rw [State.scrubBegin_outside idle hmem hcnt hfirst outside]
    obtain ⟨ended, -, done, err⟩ := s.scrubCleared.scrubFinish_facts (e := 1) (by decide)
    exact ⟨ended, err, done⟩
  · rw [State.scrubBegin_within_class idle hmem hcnt hfirst known fits]
    exact ⟨State.flag_setFlag _ _ _ _ rfl (by decide), rfl⟩

end

/-- The fields of a register's word just stored, whatever bits beyond it the number has. -/
theorem State.rd_setWord_ofNat (s : State) (f : Field) (i w : Nat) (h : f.lo + f.width ≤ 64) :
    (s.setWord f.reg i (BitVec.ofNat 64 w)).rd f i = field w f.lo f.width := by
  unfold State.rd
  rw [State.word_setWord_same, field_ofNat h]

end

section
variable {s : State} {m : Master} (hr : s.reaches m 18 true = true)
include hr

theorem completes_scrubStart {cmd : BitVec 64} {w mem cnt first : Nat} (hw : w = Reg.stored .eccScrubCmd 0 cmd.toNat)
    (hmem : mem = field w F.eccScrubCmdMem.lo F.eccScrubCmdMem.width)
    (hcnt : cnt = field w F.eccScrubCmdBankCount.lo F.eccScrubCmdBankCount.width)
    (hfirst : first = field w F.eccScrubCmdBankFirst.lo F.eccScrubCmdBankFirst.width) :
    Completes (.scrubStart m cmd) s fun t => t.word .eccScrubCmd 0 = BitVec.ofNat 64 w ∧
      (s.flag F.eccScrubStatusBusy 0 = true → t.ecc = s.ecc ∧ t.word .eccScrubStatus 0 = s.word .eccScrubStatus 0) ∧
      (s.flag F.eccScrubStatusBusy 0 = false → (∀ k : Nat, k < 5 → t.word .eccScrubSum k = 0) ∧
        (classBanks mem = 0 ∨ classBanks mem < (if cnt = 0 then 0 else first + cnt) → t.ecc.scrub = none ∧
          t.rd F.eccScrubStatusErr 0 = 1 ∧ t.flag F.eccScrubStatusDone 0 = true) ∧
        (classBanks mem ≠ 0 → (if cnt = 0 then 0 else first + cnt) ≤ classBanks mem → t.flag F.eccScrubStatusBusy 0 = true ∧
          t.ecc.scrub = some (scrubAsked s.tick.n mem cnt first (bit w F.eccScrubCmdMode.lo)))) := by
  obtain ⟨x, hx, access⟩ := s.byReg_ok m .eccScrubCmd 0 8 true
    (fun s => (s.setWord .eccScrubCmd 0 (BitVec.ofNat 64 (Reg.stored .eccScrubCmd 0 cmd.toNat))).scrubBegin) hr
  have run : exec (.scrubStart m cmd) s = .next (x.setWord .eccScrubCmd 0 (BitVec.ofNat 64 w)).scrubBegin := by
    subst hw
    exact congrArg Host.Outcome.next access
  have stored := fun f => x.rd_setWord_ofNat f 0 w
  have mode : (x.setWord .eccScrubCmd 0 (BitVec.ofNat 64 w)).flag F.eccScrubCmdMode 0 = bit w F.eccScrubCmdMode.lo := by
    unfold State.flag
    rw [stored F.eccScrubCmdMode (by decide)]
    rfl
  have seen : Within (Foot.counted.plus (.of [] [.eccScrubCmd])) s (x.setWord .eccScrubCmd 0 (BitVec.ofNat 64 w)) :=
    .setWord _ _ _ (hx.mono (by decide)) (by decide)
  refine ⟨_, run, ?_, fun busy => ?_, fun idle => ?_⟩
  · exact ((State.scrubBegin_within _).word _ (by decide) 0).trans (State.word_setWord_same ..)
  · rw [State.scrubBegin_busy ((seen.flag (by decide) 0).trans busy)]
    exact ⟨seen.ecc (by decide), seen.word _ (by decide) 0⟩
  · have facts := State.scrubBegin_facts ((seen.flag (by decide) 0).trans idle) ((stored F.eccScrubCmdMem (by decide)).trans hmem.symm)
      ((stored F.eccScrubCmdBankCount (by decide)).trans hcnt.symm) ((stored F.eccScrubCmdBankFirst (by decide)).trans hfirst.symm)
    rwa [mode, seen.tick (by decide)] at facts

theorem completes_scrubAbort : Completes (.scrubAbort m) s fun t =>
    (s.flag F.eccScrubStatusBusy 0 = true → t.ecc.scrub = none ∧ t.flag F.eccScrubStatusBusy 0 = false ∧
      t.flag F.eccScrubStatusDone 0 = true ∧ t.rd F.eccScrubStatusErr 0 = 2) ∧
    (s.flag F.eccScrubStatusBusy 0 = false → t.ecc = s.ecc ∧ t.word .eccScrubStatus 0 = s.word .eccScrubStatus 0) := by
  obtain ⟨x, hx, access⟩ := s.byReg_ok m .eccScrubCmd 0 8 true (·.scrubAbort) hr
  have status : x.flag F.eccScrubStatusBusy 0 = s.flag F.eccScrubStatusBusy 0 := hx.flag (by decide) 0
  refine ⟨_, congrArg Host.Outcome.next access, fun busy => ?_, fun idle => ?_⟩
  · have ended : x.scrubAbort = x.scrubFinish 2 := if_pos (status.trans busy)
    rw [ended]
    exact x.scrubFinish_facts (by decide)
  · have kept : x.scrubAbort = x := if_neg (by rw [status, idle]; decide)
    rw [kept]
    exact ⟨hx.ecc (by decide), hx.word _ (by decide) 0⟩

/-! ### The clears of ECC_STATUS (11 R305, Table 11-7) -/

/-- The five clears, each with its bit of ECC_STATUS and its alarm. -/
def integrityClears (m : Master) : List (Instr × Field × Nat) :=
  [(.eccUeClear m, F.eccStatusUe, A.eccUe), (.eccHardClear m, F.eccStatusHard, A.eccHardCandidate),
    (.eccTestFailClear m, F.eccStatusTestFail, A.testFail), (.eccTrackFullClear m, F.eccStatusTrackFull, A.eccTrackFull),
    (.trimLostClear m, F.eccStatusTrimLost, A.trimLost)]

omit hr in
theorem integrityClears_row {c : Instr} {f : Field} {a : Nat} (row : (c, f, a) ∈ integrityClears m) :
    f.reg = .eccStatus ∧ f.width = 1 ∧ f.lo + f.width ≤ 64 ∧
      exec c s = .next (s.byReg m .eccStatus 0 8 true fun s => (s.setFlag f 0 false).clear a 0) := by
  simp only [integrityClears, List.mem_cons, Prod.mk.injEq, List.not_mem_nil, or_false] at row
  obtain ⟨rfl, rfl, rfl⟩ | ⟨rfl, rfl, rfl⟩ | ⟨rfl, rfl, rfl⟩ | ⟨rfl, rfl, rfl⟩ | ⟨rfl, rfl, rfl⟩ := row <;>
    exact ⟨rfl, rfl, by decide, rfl⟩

theorem completes_integrityClear {c : Instr} {f : Field} {a : Nat} (row : (c, f, a) ∈ integrityClears m) : Completes c s fun t =>
    t.flag f 0 = false ∧ t.active a 0 = false ∧ t.core = s.core ∧ t.ecc = s.ecc := by
  obtain ⟨status, one, fits, run⟩ := integrityClears_row (s := s) row
  obtain ⟨x, hx, access⟩ := s.byReg_ok m .eccStatus 0 8 true (fun s => (s.setFlag f 0 false).clear a 0) hr
  refine ⟨_, run.trans (congrArg Host.Outcome.next access), ?_, State.active_clear_same _ _ (by decide), ?_, ?_⟩
  · rw [State.flag_clear _ _ _ _ _ (by rw [status]; decide), State.flag_setFlag _ _ _ _ one fits]
  · rw [State.clear_core]
    exact hx.core (by decide)
  · rw [State.clear_ecc]
    exact hx.ecc (by decide)

end

theorem completes_scrubPassEnd {s : State} {r : ScrubRun} (running : s.ecc.scrub = some r) (whole : r.over = true) :
    Completes .scrubPassEnd s fun t => t.ecc.scrub = none ∧ t.flag F.eccScrubStatusBusy 0 = false ∧
      t.flag F.eccScrubStatusDone 0 = true ∧ t.rd F.eccScrubStatusErr 0 = 0 := by
  have run : exec .scrubPassEnd s = .next (s.scrubFinish 0) := by
    show execScrubPassEnd s = _
    unfold execScrubPassEnd
    rw [running]
    exact congrArg Host.Outcome.next (State.when_pos whole)
  exact ⟨_, run, s.scrubFinish_facts (by decide)⟩

/-- Settles O49: a pass by whether one is under way and by its range, its two ends by one lemma of how a pass ends, and the five clears as one. -/
theorem scrubAndIntegrityClearsComplete : Obligations.ScrubAndIntegrityClearsComplete := fun _ _ _ =>
  ⟨fun hr => ⟨fun _ _ _ _ => completes_scrubStart hr, completes_scrubAbort hr, fun _ _ _ => completes_integrityClear hr⟩,
    fun _ => completes_scrubPassEnd⟩

end Sys2Proof.Machine

/-! Fuses, HBM repairs and HBM scrub counts: how a burn and a repair are judged, begin and end, and what a boundary adds to HBM_ECS (11 R301, R302,
R304). -/

namespace Sys2Proof.Machine

section
variable {s : State}

/-- A loop that counts in every place of a register once, read at one of them. -/
theorem State.word_eachN_countBy (s : State) (r : Reg) {k n : Nat} (hk : k < n) (by' : Nat → Nat) :
    (s.eachN n fun j s => s.countBy r j (by' j)).word r k = s.word r k + BitVec.ofNat 64 (by' k) := by
  obtain ⟨y, hy, e⟩ := State.eachN_read_round (·.word r k) hk s (fun j s => s.countBy r j (by' j)) fun _ _ other =>
    State.word_setWord_other _ _ (.inr other)
  exact e.trans ((State.word_countBy ..).trans (congrArg (· + _) hy))

/-! ### The end of a burn and of a repair (11 R301, R304; 14 Table 14-7) -/

/-- BUSY and RESULT of a burn and of a repair. -/
def endFields : List (Field × Field) := [(F.eccFuseStatusBusy, F.eccFuseStatusResult), (F.hbmRepairStatusBusy, F.hbmRepairStatusResult)]

/-- Where an end is shown and logged. -/
def Foot.ended : Foot := State.logEvent_foot.plus (.of [] [.eccFuseStatus, .hbmRepairStatus])

theorem endFields_row {busy result : Field} (row : (busy, result) ∈ endFields) : busy.width = 1 ∧ result.width = 3 ∧
    busy.lo + busy.width ≤ 64 ∧ result.lo + result.width ≤ 64 ∧ result.apart busy = true ∧ busy.reg = result.reg ∧
    State.logEvent_foot.hasReg result.reg = false ∧ Foot.ended.hasReg result.reg = true := by
  simp only [endFields, List.mem_cons, Prod.mk.injEq, List.not_mem_nil, or_false] at row
  obtain ⟨rfl, rfl⟩ | ⟨rfl, rfl⟩ := row <;> decide

/-- The end of a burn or a repair, of which the log tells `n`, shown with RESULT `r`. -/
def State.endShown (s : State) (busy result : Field) (n r : Nat) : State :=
  ((s.setFlag busy 0 false).wr result 0 r).logEvent 0x23 0 n r 0 true

theorem State.endShown_facts (s : State) {busy result : Field} (row : (busy, result) ∈ endFields) (n : Nat) {r : Nat} (hr : r < 2 ^ 3) :
    Within .ended s (s.endShown busy result n r) ∧ (s.endShown busy result n r).rd result 0 = r ∧
      (s.endShown busy result n r).flag busy 0 = false := by
  obtain ⟨one, three, busyFits, resultFits, apart, same, silent, shown⟩ := endFields_row row
  unfold State.endShown
  refine ⟨.after (State.logEvent_within ..) (.wr _ _ _ (.setFlag _ _ _ (.refl ..) (same ▸ shown)) shown) (by decide), ?_, ?_⟩
  · rw [State.rd_logEvent _ _ _ _ _ _ _ _ _ silent, State.rd_wr _ _ _ _ resultFits, three]
    exact Nat.mod_eq_of_lt hr
  · rw [State.flag_logEvent _ _ _ _ _ _ _ _ _ (same ▸ silent), State.flag_wr_apart _ _ _ _ apart busyFits,
      State.flag_setFlag _ _ _ _ one busyFits]

/-! ### A burn (11 R301, Table 11-10) -/

/-- Whether a fuse entry is valid, of right parity and in range (11 Table 11-6). -/
def fuseEntryOk (e : Nat) : Bool := bit e 31 && fuseParityOk e && (fuseRepair e).isSome

/-- A state in which a burn has begun, of the entry in ECC_FUSE_CMD. -/
def State.burnBegun (s : State) : State :=
  let y := (s.setFlag F.eccFuseStatusBusy 0 true).wr F.eccFuseStatusResult 0 0
  { y with ecc := { y.ecc with burn := some (BitVec.ofNat 32 (s.rd F.eccFuseCmdEntry 0)) } }

theorem State.fuseBurn_bad (idle : s.flag F.eccFuseStatusBusy 0 = false) (bad : fuseEntryOk (s.rd F.eccFuseCmdEntry 0) = false) :
    s.fuseBurn = s.wr F.eccFuseStatusResult 0 3 := by
  unfold fuseEntryOk at bad
  unfold State.fuseBurn
  dsimp only
  rw [idle, bad]
  rfl

theorem State.fuseBurn_full (idle : s.flag F.eccFuseStatusBusy 0 = false) (ok : fuseEntryOk (s.rd F.eccFuseCmdEntry 0) = true)
    (full : s.blankFuse = none) : s.fuseBurn = s.wr F.eccFuseStatusResult 0 2 := by
  unfold fuseEntryOk at ok
  unfold State.fuseBurn
  dsimp only
  rw [idle, ok, full]
  rfl

theorem State.fuseBurn_begins (idle : s.flag F.eccFuseStatusBusy 0 = false) (ok : fuseEntryOk (s.rd F.eccFuseCmdEntry 0) = true)
    (blank : s.blankFuse ≠ none) : s.fuseBurn = s.burnBegun := by
  obtain ⟨k, blank⟩ := Option.ne_none_iff_exists'.1 blank
  unfold fuseEntryOk at ok
  unfold State.fuseBurn
  dsimp only
  rw [idle, ok, blank]
  rfl

theorem State.blankFuse_congr {s t : State} (h : t.nv.fieldMap = s.nv.fieldMap) : t.blankFuse = s.blankFuse := by
  unfold State.blankFuse
  rw [h]

theorem completes_fuseBurn {m : Master} {entry : BitVec 32} (hr : s.reaches m 18 true = true) (he : s.expert m = true)
    (idle : s.flag F.eccFuseStatusBusy 0 = false) : Completes (.fuseBurn m entry) s fun t =>
      (fuseEntryOk entry.toNat = false → t.rd F.eccFuseStatusResult 0 = 3 ∧ t.ecc = s.ecc) ∧
      (fuseEntryOk entry.toNat = true → s.blankFuse = none → t.rd F.eccFuseStatusResult 0 = 2 ∧ t.ecc = s.ecc) ∧
      (fuseEntryOk entry.toNat = true → s.blankFuse ≠ none →
        t.flag F.eccFuseStatusBusy 0 = true ∧ t.rd F.eccFuseStatusResult 0 = 0 ∧ t.ecc.burn = some entry) := by
  obtain ⟨x, hx, access⟩ := State.expertReg_ok hr he .eccFuseCmd 0 fun s => (s.wr F.eccFuseCmdEntry 0 entry.toNat).fuseBurn
  have stored : (x.wr F.eccFuseCmdEntry 0 entry.toNat).rd F.eccFuseCmdEntry 0 = entry.toNat :=
    (State.rd_wr _ _ _ _ (by decide)).trans (Nat.mod_eq_of_lt entry.isLt)
  have idle : (x.wr F.eccFuseCmdEntry 0 entry.toNat).flag F.eccFuseStatusBusy 0 = false :=
    (State.flag_wr_apart _ _ _ _ (by decide) (by decide)).trans ((hx.flag (by decide) 0).trans idle)
  have blank : (x.wr F.eccFuseCmdEntry 0 entry.toNat).blankFuse = s.blankFuse := State.blankFuse_congr (hx.fieldMap (by decide))
  have ecc : (x.wr F.eccFuseCmdEntry 0 entry.toNat).ecc = s.ecc := hx.ecc (by decide)
  refine ⟨_, congrArg Host.Outcome.next access, ?_⟩
  generalize x.wr F.eccFuseCmdEntry 0 entry.toNat = y at stored idle blank ecc ⊢
  rw [← stored, ← blank, ← ecc]
  refine ⟨fun bad => ?_, fun ok full => ?_, fun ok blank => ?_⟩
  · rw [State.fuseBurn_bad idle bad]
    exact ⟨State.rd_wr _ _ _ _ (by decide), rfl⟩
  · rw [State.fuseBurn_full idle ok full]
    exact ⟨State.rd_wr _ _ _ _ (by decide), rfl⟩
  · rw [State.fuseBurn_begins idle ok blank]
    refine ⟨(State.flag_wr_apart _ _ _ _ (by decide) (by decide)).trans (State.flag_setFlag _ _ _ _ rfl (by decide)),
      State.rd_wr _ _ _ _ (by decide), congrArg some ?_⟩
    rw [stored]
    exact BitVec.ofNat_toNat ..

/-- The state in which the burn under way has been taken off the books. -/
def State.burnOver (s : State) : State := { s with ecc := { s.ecc with burn := none } }

theorem State.fuseSet_fieldMap {k : Nat} (blank : s.blankFuse = some k) (v : BitVec 32) : Tbl.get 0 (s.fuseSet v).nv.fieldMap k = v := by
  unfold State.fuseSet
  rw [blank]
  exact Tbl.get_set_same ..

/-- What a burn leaves to be read when it has ended: the location's content, and whether that is the entry. -/
theorem completes_fuseBurnDone {e : BitVec 32} (readBack : BitVec 32) (burning : s.ecc.burn = some e) :
    Completes (.fuseBurnDone readBack) s fun t => t.ecc.burn = none ∧ t.flag F.eccFuseStatusBusy 0 = false ∧
      (readBack = e → t.rd F.eccFuseStatusResult 0 = 1) ∧ (readBack ≠ e → t.rd F.eccFuseStatusResult 0 = 4) ∧
      ∀ k : Nat, s.blankFuse = some k → Tbl.get 0 t.nv.fieldMap k = readBack := by
  have run : exec (.fuseBurnDone readBack) s =
      .next ((s.burnOver.fuseSet readBack).endShown F.eccFuseStatusBusy F.eccFuseStatusResult e.toNat
      (if readBack = e then 1 else 4)) := by
    show execFuseBurnDone readBack s = _
    unfold execFuseBurnDone
    rw [burning]
    rfl
  obtain ⟨shown, result, busy⟩ := (s.burnOver.fuseSet readBack).endShown_facts (List.mem_cons_self ..) e.toNat
    (r := if readBack = e then 1 else 4) (by split <;> decide)
  refine ⟨_, run, ?_, busy, fun same => result.trans (if_pos same), fun other => result.trans (if_neg other), fun k blank => ?_⟩
  · exact congrArg EccH.burn ((shown.ecc (by decide)).trans ((State.fuseSet_within ..).ecc (by decide)))
  · rw [shown.fieldMap (by decide)]
    exact s.burnOver.fuseSet_fieldMap blank readBack

/-! ### A repair (11 R304, Table 11-12) -/

/-- A state in which the repair of candidate `n` has begun. -/
def State.repairBegun (s : State) (n : Nat) : State :=
  let y := (s.setFlag F.hbmRepairStatusBusy 0 true).wr F.hbmRepairStatusResult 0 0
  { y with ecc := { y.ecc with repair := some n } }

section
variable {n : Nat} (idle : s.flag F.hbmRepairStatusBusy 0 = false) (named : s.rd F.hbmRepairCmdCand 0 = n)
include idle named

theorem State.hbmRepair_invalid (invalid : s.flag F.hbmCandValid n = false) : s.hbmRepair = s.wr F.hbmRepairStatusResult 0 5 := by
  unfold State.hbmRepair
  dsimp only
  rw [idle, named, invalid]
  rfl

theorem State.hbmRepair_inUse (valid : s.flag F.hbmCandValid n = true) (inUse : s.stackLost (s.rd F.hbmCandStack n) = false) :
    s.hbmRepair = s.wr F.hbmRepairStatusResult 0 4 := by
  unfold State.hbmRepair
  dsimp only
  rw [idle, named, valid, inUse]
  rfl

theorem State.hbmRepair_begins (valid : s.flag F.hbmCandValid n = true) (lost : s.stackLost (s.rd F.hbmCandStack n) = true) :
    s.hbmRepair = s.repairBegun n := by
  unfold State.hbmRepair
  dsimp only
  rw [idle, named, valid, lost]
  rfl

end

theorem completes_hbmRepairGo {m : Master} {cand : CandId} (hr : s.reaches m 18 true = true) (he : s.expert m = true)
    (idle : s.flag F.hbmRepairStatusBusy 0 = false) : Completes (.hbmRepairGo m cand) s fun t =>
      (s.flag F.hbmCandValid cand = false → t.rd F.hbmRepairStatusResult 0 = 5 ∧ t.ecc = s.ecc) ∧
      (s.flag F.hbmCandValid cand = true → s.stackLost (s.rd F.hbmCandStack cand) = false →
        t.rd F.hbmRepairStatusResult 0 = 4 ∧ t.ecc = s.ecc) ∧
      (s.flag F.hbmCandValid cand = true → s.stackLost (s.rd F.hbmCandStack cand) = true →
        t.flag F.hbmRepairStatusBusy 0 = true ∧ t.rd F.hbmRepairStatusResult 0 = 0 ∧ t.ecc.repair = some cand.val) := by
  obtain ⟨x, hx, access⟩ := State.expertReg_ok hr he .hbmRepairCmd 0 fun s => (s.wr F.hbmRepairCmdCand 0 cand.val).hbmRepair
  have named : (x.wr F.hbmRepairCmdCand 0 cand.val).rd F.hbmRepairCmdCand 0 = cand.val :=
    (State.rd_wr _ _ _ _ (by decide)).trans (Nat.mod_eq_of_lt cand.isLt)
  have seen : Within (Foot.counted.plus (.of [] [.hbmRepairCmd])) s (x.wr F.hbmRepairCmdCand 0 cand.val) :=
    .wr _ _ _ (hx.mono (by decide)) (by decide)
  refine ⟨_, congrArg Host.Outcome.next access, ?_⟩
  generalize x.wr F.hbmRepairCmdCand 0 cand.val = y at named seen ⊢
  have lost : ∀ k, y.stackLost k = s.stackLost k := fun k => seen.rdBit (f := F.lagStateStackLost) (by decide) 0 k
  rw [← seen.flag (f := F.hbmRepairStatusBusy) (by decide)] at idle
  rw [← seen.flag (f := F.hbmCandValid) (by decide), ← seen.rd (f := F.hbmCandStack) (by decide), ← lost, ← seen.ecc (by decide)]
  refine ⟨fun invalid => ?_, fun valid inUse => ?_, fun valid lost => ?_⟩
  · rw [State.hbmRepair_invalid idle named invalid]
    exact ⟨State.rd_wr _ _ _ _ (by decide), rfl⟩
  · rw [State.hbmRepair_inUse idle named valid inUse]
    exact ⟨State.rd_wr _ _ _ _ (by decide), rfl⟩
  · rw [State.hbmRepair_begins idle named valid lost]
    exact ⟨(State.flag_wr_apart _ _ _ _ (by decide) (by decide)).trans (State.flag_setFlag _ _ _ _ rfl (by decide)),
      State.rd_wr _ _ _ _ (by decide), rfl⟩

/-- The state in which the repair under way has been taken off the books. -/
def State.repairOver (s : State) : State := { s with ecc := { s.ecc with repair := none } }

theorem completes_hbmRepairDone_done {n : Nat} (running : s.ecc.repair = some n) : Completes (.hbmRepairDone .done) s fun t =>
    t.ecc.repair = none ∧ t.rd F.hbmRepairStatusResult 0 = 1 ∧ t.flag F.hbmCandRepaired n = true ∧ t.flag F.hbmRepairStatusBusy 0 = false := by
  have run : exec (.hbmRepairDone .done) s =
      .next ((s.repairOver.setFlag F.hbmCandRepaired n true).endShown F.hbmRepairStatusBusy F.hbmRepairStatusResult n 1) := by
    show execHbmRepairDone .done s = _
    unfold execHbmRepairDone
    rw [running]
    rfl
  obtain ⟨shown, result, busy⟩ := (s.repairOver.setFlag F.hbmCandRepaired n true).endShown_facts
    (List.mem_cons_of_mem _ (List.mem_cons_self ..)) n (r := 1) (by decide)
  exact ⟨_, run, congrArg EccH.repair (shown.ecc (by decide)), result,
    (shown.flag (by decide) n).trans (State.flag_setFlag _ _ _ _ rfl (by decide)), busy⟩

/-- A repair that fails, for want of a spare or otherwise: its RESULT, and the candidates as they were. -/
theorem completes_hbmRepairDone_failed {n r : Nat} {res : RepairResult} (outcome : (res, r) ∈ [(RepairResult.noSpare, 2), (.failed, 3)])
    (running : s.ecc.repair = some n) : Completes (.hbmRepairDone res) s fun t =>
      t.ecc.repair = none ∧ t.rd F.hbmRepairStatusResult 0 = r ∧ t.word .hbmCand n = s.word .hbmCand n := by
  have run : exec (.hbmRepairDone res) s = .next (s.repairOver.endShown F.hbmRepairStatusBusy F.hbmRepairStatusResult n r) ∧ r < 2 ^ 3 := by
    show execHbmRepairDone res s = _ ∧ _
    unfold execHbmRepairDone
    rw [running]
    simp only [List.mem_cons, Prod.mk.injEq, List.not_mem_nil, or_false] at outcome
    obtain ⟨rfl, rfl⟩ | ⟨rfl, rfl⟩ := outcome <;> exact ⟨rfl, by decide⟩
  obtain ⟨run, fits⟩ := run
  obtain ⟨shown, result, -⟩ := s.repairOver.endShown_facts (List.mem_cons_of_mem _ (List.mem_cons_self ..)) n fits
  exact ⟨_, run, congrArg EccH.repair (shown.ecc (by decide)), result, shown.word _ (by decide) n⟩

/-! ### Scrub counts (11 R302) -/

theorem completes_hbmEcsRead (counts : List Nat) (boundary : s.now % 48000 = 0) (once : s.ecc.ecsAt ≠ s.tick.n + 1) :
    Completes (.hbmEcsRead counts) s fun t => t.ecc.ecsAt = s.tick.n + 1 ∧
      ∀ k : Nat, k < 4 → t.word .hbmEcs k = s.word .hbmEcs k + BitVec.ofNat 64 (counts.getD k 0) :=
  ⟨_, congrArg Host.Outcome.next (State.when_pos (by simp [boundary, once])),
    (State.eachN_keeps (·.ecc.ecsAt) 4 _ _ fun _ _ => rfl), fun _ hk => State.word_eachN_countBy _ _ hk (counts.getD · 0)⟩

end

/-- Settles O50: a burn and a repair by the first thing that stands against them, their ends by what is read back and by the outcome, and the scrub
counts stack by stack. -/
theorem fusesAndHbmRepairsComplete : Obligations.FusesAndHbmRepairsComplete := fun _ _ _ _ =>
  ⟨fun hr he => ⟨completes_fuseBurn hr he, completes_hbmRepairGo hr he⟩, fun _ readBack => completes_fuseBurnDone readBack,
    fun running => ⟨completes_hbmRepairDone_done running, completes_hbmRepairDone_failed (by decide) running,
      completes_hbmRepairDone_failed (by decide) running⟩, completes_hbmEcsRead⟩

end Sys2Proof.Machine

/-! One step of the queue: the command at its front, its rest, and what an empty one leaves (95). -/

namespace Sys2Proof.Machine

/-- Settles O1: the branch of a step that finds a command at the front. -/
theorem frontCommandRuns : Obligations.FrontCommandRuns := by
  intro c rest s front
  unfold step
  rw [front]

/-- Settles O2: the branch of a step that finds the queue empty. -/
theorem emptyQueueIdles : Obligations.EmptyQueueIdles := by
  intro s empty
  unfold step
  rw [empty]

/-- Settles O4: an idle step keeps the empty queue, and no footprint of a command takes in the queue, which has lost its front. -/
theorem queueIsFirstInFirstOut : Obligations.QueueIsFirstInFirstOut := by
  intro s t h
  obtain ⟨empty, rfl⟩ | ⟨c, rest, front, run⟩ := step_next_cases h
  · rw [empty, List.tail_nil]
  · rw [front, List.tail_cons]
    exact (exec_within run).pending

end Sys2Proof.Machine

/-! What a reset leaves, and what no command but five changes in flash (11 R299; 13 R336, R340, R354). -/

namespace Sys2Proof.Machine

/-! ### The state of reset (13 R336; 15 R379) -/

theorem State.word_reset (r : Reg) (i : Nat) : State.reset.word r i = r.reset := rfl

theorem State.rd_reset (f : Field) (i : Nat) : State.reset.rd f i = field f.reg.reset.toNat f.lo f.width := rfl

theorem State.not_active_reset (a i : Nat) : State.reset.active a i = false ∧ State.reset.latched a i = false :=
  ⟨BitVec.getLsbD_zero, BitVec.getLsbD_zero⟩

theorem State.flag_reset {f : Field} (h : field f.reg.reset.toNat f.lo f.width = 1) (i : Nat) : State.reset.flag f i = true :=
  decide_eq_true ((State.rd_reset f i).trans h)

/-- Settles O6: a state that lists nothing reads everywhere what an unlisted place reads as, and the reset values of the registers are computed. -/
theorem resetLeavesTheBlockEmpty : Obligations.ResetLeavesTheBlockEmpty :=
  ⟨State.word_reset, State.not_active_reset, rfl, rfl, rfl, rfl,
    fun l _ => ⟨State.flag_reset (by decide) l, State.flag_reset (by decide) l, State.flag_reset (by decide) l, State.flag_reset (by decide) l,
      (State.rd_reset _ l).trans (by decide), by rw [State.word_reset]; decide⟩,
    fun q _ => (State.rd_reset _ q).trans (by decide), (State.rd_reset _ 0).trans (by decide), by rw [State.word_reset]; decide,
    fun g _ => ⟨(State.rd_reset _ g).trans (by decide), (State.rd_reset _ g).trans (by decide)⟩, by rw [State.word_reset]; decide⟩

/-! ### Reset pins (13 R336) -/

/-- Settles O12: what is held after a reset is the state of reset with what eFuses and flash hold, and a reset's footprint keeps the device's
identity. -/
theorem resetPinsClearTheBlock : Obligations.ResetPinsClearTheBlock := by
  intro c s hc
  have run : exec c s = .next s.hold := by obtain rfl | rfl := hc <;> rfl
  have cut := s.cutOff_within
  exact ⟨_, run, State.word_reset, State.not_active_reset, rfl, rfl, rfl, rfl, rfl, rfl, rfl, rfl, rfl, rfl, rfl, rfl,
    cut.pending, cut.jtag (by decide), cut.dieId (by decide), cut.factory (by decide), cut.flashMiB (by decide)⟩

/-! ### Flash and factory fuses (11 R299; 13 R340) -/

/-- No footprint names the device's identifier or the factory fuse area, and that of a command which is none of the five does not name the flash. -/
theorem Instr.foot_nonVolatile (c : Instr) : (Instr.foot c).hasComp .dieId = false ∧ (Instr.foot c).hasComp .factory = false ∧
    (c ≠ .pwrOkFall → c ≠ .rstNFall → (∀ r, c ≠ .nvmCmdDone r) → c ≠ .logStoreStart → (∀ b, c ≠ .logStoreDone b) →
      (Instr.foot c).hasComp .flash = false) := by
  refine ⟨?_, ?_, fun pwr rst nvm start done => ?_⟩
  · cases c <;> (dsimp only [Instr.foot]; decide)
  · cases c <;> (dsimp only [Instr.foot]; decide)
  · cases c with
    | pwrOkFall => exact absurd rfl pwr
    | rstNFall => exact absurd rfl rst
    | nvmCmdDone r => exact absurd rfl (nvm r)
    | logStoreStart => exact absurd rfl start
    | logStoreDone b => exact absurd rfl (done b)
    | _ => dsimp only [Instr.foot]; decide

/-- Settles O7: what a completing command changes lies within its footprint, and only those of the five name the flash. -/
theorem onlyFiveCommandsChangeTheFlash : Obligations.OnlyFiveCommandsChangeTheFlash := by
  intro c s t run
  have within := exec_within run
  obtain ⟨dieId, factory, flash⟩ := Instr.foot_nonVolatile c
  exact ⟨within.dieId dieId, within.factory factory, fun pwr rst nvm start done => within.flash (flash pwr rst nvm start done)⟩

end Sys2Proof.Machine

/-! The junction sensor and the test port (15 R385; 16 R397). -/

namespace Sys2Proof.Machine

section
variable {s : State}

/-! ### The sensor's reading (15 R385) -/

/-- A reading shown, with TJ_MAX `top`, before the alarm is judged. -/
def State.tempShown (s : State) (tj : BitVec 16) (top : Int) : State :=
  ((({ s with boot := { s.boot with tjRead := false } }).wr F.sysTempTj 0 tj.toNat).wrS F.sysTempTjMax 0 top).setFlag F.sysTempValid 0 true

theorem State.tempShown_within (s : State) (tj : BitVec 16) (top : Int) : Within (.of [.boot] [.sysTemp]) s (s.tempShown tj top) :=
  .setFlag _ _ _ (.wrS _ _ _ (.wr _ _ _ (.set_boot (.refl _ s) (by decide)) (by decide)) (by decide)) (by decide)

theorem State.tempShown_facts (s : State) (tj : BitVec 16) (top : Int) :
    (s.tempShown tj top).rd F.sysTempTj 0 = tj.toNat ∧ (s.tempShown tj top).flag F.sysTempValid 0 = true := by
  refine ⟨?_, State.flag_setFlag _ _ _ _ rfl (by decide)⟩
  unfold State.tempShown
  rw [State.rd_setFlag_apart _ _ _ _ (by decide) (by decide), State.rd_wrS_other _ _ (.inr (by decide)) (by decide), State.rd_wr _ _ _ _ (by decide)]
  exact Nat.mod_eq_of_lt tj.isLt

/-- TEMP_HIGH judged by a reading: raised above the limit, cleared 40 below it (15 R385). -/
def State.tempJudge (s : State) (limit tj : Int) : State :=
  if limit < tj then s.raise A.tempHigh 0 else if tj ≤ limit - 40 then s.clear A.tempHigh 0 else s

theorem State.tempJudge_within (s : State) (limit tj : Int) : Within .alarm s (s.tempJudge limit tj) :=
  .ite (s.raise_within ..) (.ite ((s.clear_within ..).mono (by decide)) (.refl _ s))

theorem State.tempJudge_facts (s : State) (limit tj : Int) :
    (limit < tj → (s.tempJudge limit tj).active A.tempHigh 0 = true) ∧
    (tj ≤ limit - 40 → (s.tempJudge limit tj).active A.tempHigh 0 = false) ∧
    (limit - 40 < tj → tj ≤ limit → (s.tempJudge limit tj).active A.tempHigh 0 = s.active A.tempHigh 0) := by
  unfold State.tempJudge
  refine ⟨fun above => ?_, fun below => ?_, fun low high => ?_⟩
  · rw [if_pos above, State.active_raise _ _ _ _ _ (by decide)]
    simp
  · rw [if_neg (by omega), if_pos below, State.active_clear _ _ _ _ _ (by decide)]
    simp
  · rw [if_neg (by omega), if_neg (by omega)]

theorem exec_tempUpdate (tj : BitVec 16) : ∃ top : Int,
    exec (.tempUpdate tj) s = .next ((s.tempShown tj top).tempJudge (s.rdS F.sysTempCfgLimit 0) tj.toInt) := by
  refine ⟨if s.boot.tjRead then tj.toInt else max tj.toInt (s.rdS F.sysTempTjMax 0), congrArg Host.Outcome.next ?_⟩
  rw [show s.rdS F.sysTempCfgLimit 0 = (s.tempShown tj _).rdS F.sysTempCfgLimit 0 from
    congrArg (signed _) ((s.tempShown_within tj _).rd (by decide) 0).symm]
  rfl

theorem completes_tempUpdate (tj : BitVec 16) : Completes (.tempUpdate tj) s fun t =>
    t.rd F.sysTempTj 0 = tj.toNat ∧ t.flag F.sysTempValid 0 = true ∧
      (s.rdS F.sysTempCfgLimit 0 < tj.toInt → t.active A.tempHigh 0 = true) ∧
      (tj.toInt ≤ s.rdS F.sysTempCfgLimit 0 - 40 → t.active A.tempHigh 0 = false) ∧
      (s.rdS F.sysTempCfgLimit 0 - 40 < tj.toInt → tj.toInt ≤ s.rdS F.sysTempCfgLimit 0 → t.active A.tempHigh 0 = s.active A.tempHigh 0) := by
  obtain ⟨top, run⟩ := exec_tempUpdate (s := s) tj
  obtain ⟨reading, valid⟩ := s.tempShown_facts tj top
  obtain ⟨above, below, between⟩ := (s.tempShown tj top).tempJudge_facts (s.rdS F.sysTempCfgLimit 0) tj.toInt
  have judged := (s.tempShown tj top).tempJudge_within (s.rdS F.sysTempCfgLimit 0) tj.toInt
  exact ⟨_, run, (judged.rd (by decide) 0).trans reading, (judged.flag (by decide) 0).trans valid, above, below,
    fun low high => (between low high).trans ((s.tempShown_within tj top).active (by decide) ..)⟩

/-! ### The test port (16 R397) -/

theorem completes_jtagTapReset : Completes .jtagTapReset s fun t => t = { s with jtag := ⟨.idcode, 0x0412834F⟩ } := ⟨_, rfl, rfl⟩

theorem completes_jtagInstruction_idcode : Completes (.jtagInstruction .idcode) s fun t => t = { s with jtag := ⟨.idcode, 0x0412834F⟩ } :=
  ⟨_, rfl, rfl⟩

theorem completes_jtagInstruction_bypass : Completes (.jtagInstruction .bypass) s fun t => t = { s with jtag := ⟨.bypass, 0⟩ } := ⟨_, rfl, rfl⟩

theorem completes_jtagInstruction_samplePreload : Completes (.jtagInstruction .samplePreload) s fun t =>
    t.jtag.instr = .samplePreload ∧ { t with jtag := s.jtag, free := s.free } = s := ⟨_, rfl, rfl, rfl⟩

end

/-- Settles O17: the reading is shown before TEMP_HIGH is judged by it, and the test port's commands are one record each. -/
theorem sensorAndTestPortComplete : Obligations.SensorAndTestPortComplete := fun _ =>
  ⟨completes_tempUpdate, completes_jtagTapReset, completes_jtagInstruction_idcode, completes_jtagInstruction_bypass,
    completes_jtagInstruction_samplePreload⟩

end Sys2Proof.Machine

/-! Start-up: the straps sampled at the rise of reset, and the prelude's steps (13 R337 to R340; 10 R243). -/

namespace Sys2Proof.Machine

section
variable {s : State}

/-! ### The rise of reset (13 R337) -/

/-- The straps' mode and rank taken, and the rise noted. -/
def State.strapsTaken (s : State) (mode : BitVec 2) (rank : Bool) : State :=
  { s with boot := { s.boot with risen := true, mode := bootModeOf mode.toNat }, mate := { s.mate with rank := rank } }

/-- The straps shown. -/
def State.strapsShown (s : State) (mode : BitVec 2) (sel rank : Bool) : State :=
  ((s.wr F.sysBootStatusMode 0 mode.toNat).setFlag F.sysBootStatusImageSel 0 sel).setFlag F.mateStateRank 0 rank

theorem State.strapsShown_facts (s : State) (mode : BitVec 2) (sel rank : Bool) :
    (s.strapsShown mode sel rank).rd F.sysBootStatusMode 0 = mode.toNat ∧ (s.strapsShown mode sel rank).flag F.sysBootStatusImageSel 0 = sel ∧
      (s.strapsShown mode sel rank).flag F.mateStateRank 0 = rank := by
  unfold State.strapsShown
  refine ⟨?_, ?_, State.flag_setFlag _ _ _ _ rfl (by decide)⟩
  · rw [State.rd_setFlag_apart _ _ _ _ (by decide) (by decide), State.rd_setFlag_apart _ _ _ _ (by decide) (by decide),
      State.rd_wr _ _ _ _ (by decide)]
    exact Nat.mod_eq_of_lt mode.isLt
  · rw [State.flag_setFlag_apart _ _ _ _ (by decide) (by decide), State.flag_setFlag _ _ _ _ rfl (by decide)]

theorem bootModeOf_eq (mode : BitVec 2) : bootModeOf mode.toNat = if mode = 0 then .autonomous else if mode = 2 then .test else .hosted := by
  revert mode
  decide

/-- A reserved mode raises BOOT_STRAP_INVALID (13 R337). -/
def State.strapJudge (s : State) (mode : BitVec 2) : State := s.when (mode.toNat = 3) (·.raise A.bootStrapInvalid 0)

theorem State.strapJudge_within (s : State) (mode : BitVec 2) : Within .alarm s (s.strapJudge mode) :=
  .when _ _ (.refl _ s) fun _ h => .after (State.raise_within ..) h (by decide)

theorem completes_rstNRise (mode : BitVec 2) (sel rank : Bool) (down : s.boot.risen = false) : Completes (.rstNRise mode sel rank) s fun t =>
    t.rd F.sysBootStatusMode 0 = mode.toNat ∧ t.flag F.sysBootStatusImageSel 0 = sel ∧ t.flag F.mateStateRank 0 = rank ∧
    t.boot = { s.boot with risen := true
                           mode := if mode = 0 then .autonomous else if mode = 2 then .test else .hosted } ∧
    t.mate.rank = rank ∧ (mode = 3 → t.active A.bootStrapInvalid 0 = true) := by
  have run : exec (.rstNRise mode sel rank) s = .next ((((s.strapsTaken mode rank).strapsShown mode sel rank).recoverySync).strapJudge mode) :=
    congrArg Host.Outcome.next (State.when_pos (by rw [down]; rfl))
  obtain ⟨shownMode, shownSel, shownRank⟩ := (s.strapsTaken mode rank).strapsShown_facts mode sel rank
  have judged : Within .alarm ((s.strapsTaken mode rank).strapsShown mode sel rank)
      ((((s.strapsTaken mode rank).strapsShown mode sel rank).recoverySync).strapJudge mode) :=
    .after (State.strapJudge_within ..) ((State.recoverySync_within _).mono (by decide)) (by decide)
  refine ⟨_, run, (judged.rd (by decide) 0).trans shownMode, (judged.flag (by decide) 0).trans shownSel, (judged.flag (by decide) 0).trans shownRank,
    (judged.boot (by decide)).trans ?_, congrArg MateH.rank (judged.mate (by decide)), fun reserved => ?_⟩
  · rw [← bootModeOf_eq]
    rfl
  · unfold State.strapJudge
    rw [State.when_pos (by rw [reserved]; decide), State.active_raise _ _ _ _ _ (by decide)]
    simp

end

/-- Settles O13: what is shown at the rise lies outside the footprint of what follows, an alarm's. -/
theorem strapsAreSampledAtTheRiseOfReset : Obligations.StrapsAreSampledAtTheRiseOfReset := fun _ _ _ _ => completes_rstNRise _ _ _

section
variable {s : State}

/-! ### The end of P2 (13 R338, R340) -/

/-- P2 over, with the flash it found. -/
def State.p2Over (s : State) (found : Option Nat) : State := ({ s with boot := { s.boot with p2 := true } }).flashIs found

/-- A readable flash of `n` MiB shown, and the logbook ready. -/
def State.flashShown (s : State) (n : Nat) : State :=
  ((s.wr F.nvmInfoSizeMib 0 n).setFlag F.nvmInfoReady 0 true).setFlag F.logStateReady 0 true

theorem State.flashShown_facts (s : State) {n : Nat} (hn : n < 2 ^ F.nvmInfoSizeMib.width) :
    (s.flashShown n).rd F.nvmInfoSizeMib 0 = n ∧ (s.flashShown n).flag F.nvmInfoReady 0 = true := by
  unfold State.flashShown
  constructor
  · rw [State.rd_setFlag_apart _ _ _ _ (by decide) (by decide), State.rd_setFlag_apart _ _ _ _ (by decide) (by decide),
      State.rd_wr _ _ _ _ (by decide)]
    exact Nat.mod_eq_of_lt hn
  · rw [State.flag_setFlag_apart _ _ _ _ (by decide) (by decide), State.flag_setFlag _ _ _ _ rfl (by decide)]

theorem completes_endOfP2_readable {n : Nat} (risen : s.boot.risen = true) (first : s.boot.p2 = false) (low : 64 ≤ n) (high : n ≤ 256) :
    Completes (.endOfP2 (some n)) s fun t =>
      t.boot = { s.boot with p2 := true } ∧ t.rd F.nvmInfoSizeMib 0 = n ∧ t.flag F.nvmInfoReady 0 = true ∧ t.nv.flashMiB = some n := by
  have run : exec (.endOfP2 (some n)) s = .next ((((s.p2Over (some n)).flashShown n).logFind).powerUp) := by
    have ok : flashSizeOk n = true := by simp [flashSizeOk, low, high]
    refine congrArg Host.Outcome.next ((State.when_pos (by rw [risen, first]; rfl)).trans ?_)
    exact if_pos ok
  have booked : Within .alarm ((s.p2Over (some n)).flashShown n) ((((s.p2Over (some n)).flashShown n).logFind).powerUp) :=
    .after (State.powerUp_within _) ((State.logFind_within _).mono (by decide)) (by decide)
  obtain ⟨size, ready⟩ := (s.p2Over (some n)).flashShown_facts (n := n) (lt_of_le_of_lt high (by decide))
  exact ⟨_, run, booked.boot (by decide), (booked.rd (by decide) 0).trans size, (booked.flag (by decide) 0).trans ready,
    booked.flashMiB (by decide)⟩

theorem exec_endOfP2_unreadable {found : Option Nat} (risen : s.boot.risen = true) (first : s.boot.p2 = false)
    (bad : ∀ n, found = some n → n < 64 ∨ 256 < n) : exec (.endOfP2 found) s = .next ((s.p2Over none).raise A.nvmFail 0) := by
  refine congrArg Host.Outcome.next ((State.when_pos (by rw [risen, first]; rfl)).trans ?_)
  cases found with
  | none => rfl
  | some n =>
    have unsupported : ¬flashSizeOk n = true := by
      have := bad n rfl
      simp only [flashSizeOk, Bool.and_eq_true, decide_eq_true_eq]
      omega
    exact if_neg unsupported

theorem completes_endOfP2_unreadable {found : Option Nat} (risen : s.boot.risen = true) (first : s.boot.p2 = false)
    (bad : ∀ n, found = some n → n < 64 ∨ 256 < n) : Completes (.endOfP2 found) s fun t =>
      t.boot = { s.boot with p2 := true } ∧ t.nv.flashMiB = none ∧ t.active A.nvmFail 0 = true ∧ t.word .nvmInfo 0 = s.word .nvmInfo 0 := by
  have raised := (s.p2Over none).raise_within A.nvmFail 0
  refine ⟨_, exec_endOfP2_unreadable risen first bad, raised.boot (by decide), raised.flashMiB (by decide), ?_, raised.word _ (by decide) 0⟩
  rw [State.active_raise _ _ _ _ _ (by decide)]
  simp

/-! ### The end of P3 (13 R339; 11 R300) -/

theorem State.stuck_cellsLeft (used : List Repair) (none : s.nv.stuck = []) : (s.cellsLeft used).ecc.stuck = [] := by
  show List.filterMap _ s.nv.stuck = []
  rw [none, List.filterMap_nil]

theorem State.stuck_softRepairs (used : List Repair) (none : s.nv.stuck = []) : (s.softRepairs used).ecc.stuck = [] := by
  have kept : (s.softRepairs used).nv.stuck = s.nv.stuck := (s.softRepairs_within used).stuck (by decide)
  exact State.stuck_cellsLeft _ (kept.trans none)

/-- Without cells that are stuck, no repair leaves any (11 R300). -/
theorem State.stuck_repairAll (none : s.nv.stuck = []) : s.repairAll.ecc.stuck = [] := by
  unfold State.repairAll
  dsimp only
  split
  · exact State.stuck_softRepairs _ none
  · exact State.stuck_cellsLeft _ none

theorem BistResult.bad_iff (b : BistResult) : BistResult.bad b = true ↔ b.banks ≠ [] ∨ b.sumUnit = true ∨ b.otherLogic = true := by
  simp [BistResult.bad, or_assoc]

theorem State.bistFinds_bad (b : BistResult) (bad : BistResult.bad b = true) : BistResult.bad (s.bistFinds b) = true := by
  rw [BistResult.bad_iff] at bad ⊢
  refine bad.imp_left fun some => ?_
  obtain ⟨a, as, first⟩ := List.exists_cons_of_ne_nil some
  have held : a ∈ (s.bistFinds b).banks := List.mem_eraseDups.2 (List.mem_append_left _ (by rw [first]; exact List.mem_cons_self ..))
  exact List.ne_nil_of_mem held

theorem State.bistFinds_good (b : BistResult) (cells : s.ecc.stuck = []) (good : BistResult.bad b = false) :
    BistResult.bad (s.bistFinds b) = false := by
  simp only [BistResult.bad, Bool.or_eq_false_iff, Bool.not_eq_false', List.isEmpty_iff] at good ⊢
  obtain ⟨⟨banks, sum⟩, logic⟩ := good
  have found : (s.bistFinds b).banks = [] := by
    show List.eraseDups (b.banks ++ List.map _ s.ecc.stuck) = []
    rw [banks, cells]
    rfl
  exact ⟨⟨found, sum⟩, logic⟩

/-- P3 over, repairs made and BIST's result shown. -/
def State.p3Over (s : State) (b : BistResult) : State :=
  let r := ({ s with boot := { s.boot with p3 := true } } : State).repairAll
  r.bistTake (r.bistFinds b)

theorem State.p3Over_facts (s : State) (b : BistResult) : (s.p3Over b).boot = { s.boot with p3 := true } ∧ (s.p3Over b).mate = s.mate := by
  have h : Within (Foot.alarm.plus (.of [.free, .core, .ecc] [.coreStationDis, .eccFuseStatus, .eccSoft, .eccFuseBad, .eccSoftNospare,
      .sysBistStatus])) ({ s with boot := { s.boot with p3 := true } }) (s.p3Over b) :=
    .after (State.bistTake_within ..) ((State.repairAll_within _).mono (by decide)) (by decide)
  exact ⟨h.boot (by decide), h.mate (by decide)⟩

/-- BIST's result as P3 judges it: with the cells that no repair replaces. -/
def State.p3Found (s : State) (b : BistResult) : BistResult := ({ s with boot := { s.boot with p3 := true } } : State).repairAll.bistFinds b

theorem exec_endOfP3 (b : BistResult) (p2 : s.boot.p2 = true) (first : s.boot.p3 = false) : exec (.endOfP3 b) s = .next
    (if BistResult.bad (s.p3Found b) && s.boot.mode ≠ .test then (s.p3Over b).enterUnusable
      else (s.p3Over b).when (s.boot.mode ≠ .autonomous) (·.wr F.sysBootStatusPhase 0 1)) := by
  have mode : (s.p3Over b).boot.mode = s.boot.mode := by rw [(s.p3Over_facts b).1]
  rw [← mode]
  exact congrArg Host.Outcome.next (State.when_pos (by rw [p2, first]; rfl))

/-- An unusable device shown as such, before its alarm. -/
def State.unusableShown (s : State) : State := ({ s with boot := { s.boot with unusable := true } } : State).wr F.sysBootStatusPhase 0 5

theorem State.enterUnusable_eq (s : State) : s.enterUnusable = (s.unusableShown.raise A.deviceUnusable 0).mateStop := rfl

theorem State.enterUnusable_facts (s : State) : s.enterUnusable.boot = { s.boot with unusable := true } ∧
    s.enterUnusable.rd F.sysBootStatusPhase 0 = 5 ∧ s.enterUnusable.active A.deviceUnusable 0 = true ∧ s.enterUnusable.mate.idle = true ∧
    s.enterUnusable.mate.hbStopped = true := by
  have after : Within (Foot.alarm.plus (.of [.mate] [])) s.unusableShown s.enterUnusable :=
    .after (State.mateStop_within _) ((State.raise_within ..).mono (by decide)) (by decide)
  refine ⟨after.boot (by decide), (after.rd (by decide) 0).trans (State.rd_wr _ _ _ _ (by decide)), ?_, rfl, rfl⟩
  rw [State.enterUnusable_eq, (State.mateStop_within _).active (by decide), State.active_raise _ _ _ _ _ (by decide)]
  simp

theorem completes_endOfP3_unusable (b : BistResult) (p2 : s.boot.p2 = true) (first : s.boot.p3 = false) (mode : s.boot.mode ≠ .test)
    (bad : b.banks ≠ [] ∨ b.sumUnit = true ∨ b.otherLogic = true) : Completes (.endOfP3 b) s fun t =>
      t.boot = { s.boot with p3 := true, unusable := true } ∧ t.rd F.sysBootStatusPhase 0 = 5 ∧ t.active A.deviceUnusable 0 = true ∧
      t.mate.idle = true ∧ t.mate.hbStopped = true := by
  have judged : (BistResult.bad (s.p3Found b) && s.boot.mode ≠ .test) = true :=
    Bool.and_eq_true_iff.2 ⟨State.bistFinds_bad b ((BistResult.bad_iff b).2 bad), decide_eq_true mode⟩
  obtain ⟨boot, shown⟩ := (s.p3Over b).enterUnusable_facts
  rw [(s.p3Over_facts b).1] at boot
  exact ⟨_, (exec_endOfP3 b p2 first).trans (congrArg Host.Outcome.next (if_pos judged)), boot, shown⟩

theorem completes_endOfP3_usable (b : BistResult) (p2 : s.boot.p2 = true) (first : s.boot.p3 = false)
    (good : s.boot.mode = .test ∨ (s.nv.stuck = [] ∧ b.banks = [] ∧ b.sumUnit = false ∧ b.otherLogic = false)) : Completes (.endOfP3 b) s fun t =>
      t.boot = { s.boot with p3 := true } ∧ t.mate = s.mate := by
  have judged : (BistResult.bad (s.p3Found b) && s.boot.mode ≠ .test) = false := by
    obtain mode | ⟨cells, banks, sum, logic⟩ := good
    · rw [mode, decide_eq_false (by simp), Bool.and_false]
    · have none : ({ s with boot := { s.boot with p3 := true } } : State).repairAll.ecc.stuck = [] := State.stuck_repairAll cells
      rw [State.p3Found, State.bistFinds_good b none (by simp [BistResult.bad, banks, sum, logic]), Bool.false_and]
  obtain ⟨boot, mate⟩ := s.p3Over_facts b
  have phase : Within (.of [] [.sysBootStatus]) (s.p3Over b)
      ((s.p3Over b).when (s.boot.mode ≠ .autonomous) (·.wr F.sysBootStatusPhase 0 1)) :=
    .when _ _ (.refl _ _) fun _ h => .wr _ _ _ h (by decide)
  exact ⟨_, (exec_endOfP3 b p2 first).trans (congrArg Host.Outcome.next (if_neg (by rw [judged]; decide))), (phase.boot (by decide)).trans boot,
    (phase.mate (by decide)).trans mate⟩

end

/-- Settles O14: what P2 and P3 find is judged by BIST's result and the cells left, and what they show lies outside what follows. -/
theorem preludeStepsComplete : Obligations.PreludeStepsComplete :=
  ⟨fun _ _ risen first low high => completes_endOfP2_readable risen first low high,
    fun _ _ risen first bad => completes_endOfP2_unreadable risen first bad,
    fun b _ p2 first mode bad => completes_endOfP3_unusable b p2 first mode bad, fun b _ p2 first good => completes_endOfP3_usable b p2 first good⟩

end Sys2Proof.Machine

/-! Functions: what an enable, a disable, and the ends of a start and of a stop leave of a function's state (13 R350, R351). -/

namespace Sys2Proof.Machine

section
variable {s : State}

/-! ### Flags of a function beside its state -/

theorem State.fstate_setFlag (s : State) {g : Field} (i f : Nat) (b : Bool) (h : g.apart F.sysFuncStateState = true) :
    (s.setFlag g i b).fstate f = s.fstate f := State.rd_setFlag_apart s i f b h (by decide)

/-- ENABLE, PENDING, STOP_REQ and LAST_STOP over a change of state. -/
theorem State.enable_setFstate (s : State) (f st i : Nat) : (s.setFstate f st).flag F.sysFuncStateEnable i = s.flag F.sysFuncStateEnable i :=
  State.flag_setFstate s f st (by decide) (by decide) (by decide) (by decide) i

/-! ### Enables (13 R351) -/

/-- ENABLE set and the want taken, before the function's state is judged. -/
def State.enableTaken (s : State) (f : Nat) : State :=
  { s.setFlag F.sysFuncStateEnable f true with boot := { s.boot with want := Tbl.erase f s.boot.want } }

theorem State.enableTaken_facts (s : State) (f : Nat) : (s.enableTaken f).flag F.sysFuncStateEnable f = true ∧
    (s.enableTaken f).fstate f = s.fstate f ∧ (s.enableTaken f).word .sysFuncStarts f = s.word .sysFuncStarts f :=
  ⟨State.flag_setFlag s _ _ _ rfl (by decide), s.fstate_setFlag f f true (by decide), State.word_wr_other s _ (.inl (by decide))⟩

theorem State.funcEnable_eq (s : State) (f : Nat) : s.funcEnable f =
    if (s.enableTaken f).fstate f = fStopping || ((s.enableTaken f).fstate f = fStarting && (s.enableTaken f).flag F.sysFuncStateStopReq f) then
      (s.enableTaken f).setFlag F.sysFuncStatePending f true
    else if (s.enableTaken f).fstate f = fOff then (s.enableTaken f).setFstate f fStarting
    else s.enableTaken f := rfl

theorem State.funcEnable_off {f : Nat} (off : s.fstate f = fOff) : s.funcEnable f = (s.enableTaken f).setFstate f fStarting := by
  rw [State.funcEnable_eq, (s.enableTaken_facts f).2.1, off, if_neg (by simp), if_pos rfl]

theorem State.funcEnable_stopping {f : Nat} (stopping : s.fstate f = fStopping) :
    s.funcEnable f = (s.enableTaken f).setFlag F.sysFuncStatePending f true := by
  rw [State.funcEnable_eq, (s.enableTaken_facts f).2.1, stopping, if_pos (by simp)]

theorem State.funcEnable_facts (s : State) (f : Nat) : (s.funcEnable f).flag F.sysFuncStateEnable f = true ∧
    (s.fstate f = 0 → (s.funcEnable f).fstate f = 1 ∧ (s.funcEnable f).word .sysFuncStarts f = s.word .sysFuncStarts f + 1) ∧
    (s.fstate f = 3 → (s.funcEnable f).flag F.sysFuncStatePending f = true ∧ (s.funcEnable f).fstate f = 3) := by
  obtain ⟨enable, state, starts⟩ := s.enableTaken_facts f
  refine ⟨?_, fun off => ?_, fun stopping => ?_⟩
  · rw [State.funcEnable_eq]
    split
    · exact (State.flag_setFlag_apart _ _ _ _ (by decide) (by decide)).trans enable
    · split
      · exact (State.enable_setFstate ..).trans enable
      · exact enable
  · rw [State.funcEnable_off off]
    exact ⟨State.fstate_setFstate _ _ _ (by decide), (State.starts_setFstate ..).trans (by rw [starts])⟩
  · rw [State.funcEnable_stopping stopping, State.fstate_setFlag _ _ _ _ (by decide), state]
    exact ⟨State.flag_setFlag _ _ _ _ rfl (by decide), stopping⟩

theorem completes_funcEnable {f : FuncId} (due : s.enableDue f = true) : Completes (.funcEnable f) s fun t =>
    t.flag F.sysFuncStateEnable f = true ∧
      (s.fstate f = 0 → t.fstate f = 1 ∧ t.word .sysFuncStarts f = s.word .sysFuncStarts f + 1) ∧
      (s.fstate f = 3 → t.flag F.sysFuncStatePending f = true ∧ t.fstate f = 3) := by
  have run : exec (.funcEnable f) s = .next ((s.funcEnable f).when (s.fstate f = fOff) (·.restoringSync f)) :=
    congrArg Host.Outcome.next (State.when_pos due)
  have after : Within (.of [.lag] [.lagState]) (s.funcEnable f) ((s.funcEnable f).when (s.fstate f = fOff) (·.restoringSync f)) :=
    .when _ _ (.refl ..) fun _ h => .after (State.restoringSync_within ..) h (by decide)
  obtain ⟨enable, starts, pends⟩ := s.funcEnable_facts f
  refine ⟨_, run, (after.flag (by decide) _).trans enable, fun off => ?_, fun stopping => ?_⟩
  · exact ⟨(after.rd (by decide) _).trans (starts off).1, (after.word _ (by decide) _).trans (starts off).2⟩
  · exact ⟨(after.flag (by decide) _).trans (pends stopping).1, (after.rd (by decide) _).trans (pends stopping).2⟩

/-! ### Disables (13 R351) -/

theorem State.funcDisable_facts (s : State) (f cause : Nat) : (s.funcDisable f cause).flag F.sysFuncStateEnable f = false ∧
    (s.fstate f = 2 → (s.funcDisable f cause).fstate f = 3) ∧
    (s.fstate f = 1 → (s.funcDisable f cause).flag F.sysFuncStateStopReq f = true ∧ (s.funcDisable f cause).fstate f = 1) := by
  have enable : (s.setFlag F.sysFuncStateEnable f false).flag F.sysFuncStateEnable f = false := State.flag_setFlag s _ _ _ rfl (by decide)
  have state : (s.setFlag F.sysFuncStateEnable f false).fstate f = s.fstate f := s.fstate_setFlag f f false (by decide)
  unfold State.funcDisable
  dsimp only
  rw [state]
  generalize s.setFlag F.sysFuncStateEnable f false = x at enable state
  refine ⟨?_, fun on => ?_, fun starting => ?_⟩
  · split
    · rw [State.enable_setFstate, State.flag_wr_apart _ _ _ _ (by decide) (by decide), enable]
    · split
      · rw [State.flag_setFlag_apart _ _ _ _ (by decide) (by decide), State.flag_setFlag_apart _ _ _ _ (by decide) (by decide), enable]
      · rw [State.flag_setFlag_apart _ _ _ _ (by decide) (by decide), enable]
  · rw [if_pos on]
    exact State.fstate_setFstate _ _ _ (by decide)
  · rw [if_neg (by rw [starting]; decide), if_pos starting]
    constructor
    · rw [State.flag_setFlag_apart _ _ _ _ (by decide) (by decide), State.flag_setFlag _ _ _ _ rfl (by decide)]
    · rw [State.fstate_setFlag _ _ _ _ (by decide), State.fstate_setFlag _ _ _ _ (by decide), state, starting]

/-- The stop taken, before the disable is judged. -/
def State.stopTaken (s : State) (f : Nat) : State := { s with boot := { s.boot with stop := Tbl.erase f s.boot.stop } }

/-- An audit's pass dropped where the function is the audit. -/
def State.auditDrop (s : State) (f : Nat) : State := s.when (f = 38) fun s => { s with alm := { s.alm with auditSince := none } }

theorem State.auditDrop_within (s : State) (f : Nat) : Within (.of [.alm] []) s (s.auditDrop f) :=
  .when _ _ (.refl ..) fun _ h => .set_alm h (by decide)

theorem completes_funcDisable {f : FuncId} (due : s.disableDue f = true) : Completes (.funcDisable f) s fun t =>
    t.flag F.sysFuncStateEnable f = false ∧ (s.fstate f = 2 → t.fstate f = 3) ∧
      (s.fstate f = 1 → t.flag F.sysFuncStateStopReq f = true ∧ t.fstate f = 1) := by
  have run : exec (.funcDisable f) s = .next (((s.stopTaken f).funcDisable f (disableCause f)).auditDrop f) :=
    congrArg Host.Outcome.next (State.when_pos due)
  have after := ((s.stopTaken f).funcDisable f (disableCause f)).auditDrop_within f
  obtain ⟨enable, stops, asks⟩ := (s.stopTaken f).funcDisable_facts f (disableCause f)
  refine ⟨_, run, (after.flag (by decide) _).trans enable, fun on => (after.rd (by decide) _).trans (stops on), fun starting => ?_⟩
  exact ⟨(after.flag (by decide) _).trans (asks starting).1, (after.rd (by decide) _).trans (asks starting).2⟩

/-! ### Ends of starts and stops (13 R351) -/

/-- What a function that has started sets going: a quad its bring-up, the audit its pass. -/
def State.onBegin (s : State) (f : Nat) : State :=
  (s.when (decide (f ≤ 32) && s.rd F.laneStateGen f ≠ 0 && s.qstate f = qOff) (·.enterQuad f qPll 0)).when (f = 38) (·.auditBegin true)

theorem State.onBegin_within (s : State) (f : Nat) : Within (Foot.quad.plus (.of [.alm] [])) s (s.onBegin f) :=
  .when _ _ (.when _ _ (.refl ..) fun _ h => .after (State.enterQuad_within ..) h (by decide)) fun _ h =>
    .after (State.auditBegin_within ..) h (by decide)

theorem completes_funcStartDone {f : FuncId} (ready : s.startReady f = true) : Completes (.funcStartDone f) s fun t =>
    t.fstate f = if s.flag F.sysFuncStateStopReq f then 3 else 2 := by
  by_cases asked : s.flag F.sysFuncStateStopReq f = true
  · refine ⟨_, congrArg Host.Outcome.next ((State.when_pos ready).trans (if_pos asked)), ?_⟩
    rw [if_pos asked]
    exact State.fstate_setFstate _ _ _ (by decide)
  · refine ⟨((s.setFstate f fOn).onBegin f), congrArg Host.Outcome.next ((State.when_pos ready).trans (if_neg asked)), ?_⟩
    rw [if_neg asked]
    exact ((State.onBegin_within ..).rd (by decide) _).trans (State.fstate_setFstate _ _ _ (by decide))

/-- STOP_REQ and PENDING cleared by a start that failed. -/
def State.startFailed (s : State) (f : Nat) : State := (s.setFlag F.sysFuncStateStopReq f false).setFlag F.sysFuncStatePending f false

theorem completes_funcStartFail {f : FuncId} (starting : s.fstate f = 1) (noStack : stackFunc f = none) : Completes (.funcStartFail f) s fun t =>
    t.fstate f = 3 ∧ t.rd F.sysFuncStateLastStop f = 2 := by
  have run : exec (.funcStartFail f) s = .next (((s.startFailed f).wr F.sysFuncStateLastStop f 2).setFstate f fStopping) := by
    show execFuncStartFail f s = _
    unfold execFuncStartFail
    rw [noStack]
    exact congrArg Host.Outcome.next (State.when_pos (by rw [starting]; rfl))
  refine ⟨_, run, State.fstate_setFstate _ _ _ (by decide), ?_⟩
  rw [State.rd_setFstate _ _ _ (by decide) (by decide) (by decide) (by decide), State.rd_wr _ _ _ _ (by decide)]
  rfl

theorem completes_funcStopDone {f : FuncId} (stopping : s.fstate f = 3) (noTest : f ≠ 37) : Completes (.funcStopDone f) s fun t =>
    t.fstate f = if s.flag F.sysFuncStatePending f then 1 else 0 := by
  have due : (s.fstate f = fStopping && (f.val ≠ 37 || s.ecc.testSince.isNone)) = true := by
    have : f.val ≠ 37 := fun e => noTest (Fin.ext e)
    simp [stopping, this]
  by_cases pends : s.flag F.sysFuncStatePending f = true
  · refine ⟨_, congrArg Host.Outcome.next ((State.when_pos due).trans (if_pos pends)), ?_⟩
    rw [if_pos pends]
    exact ((State.restoringSync_within ..).rd (by decide) _).trans (State.fstate_setFstate _ _ _ (by decide))
  · refine ⟨_, congrArg Host.Outcome.next ((State.when_pos due).trans (if_neg pends)), ?_⟩
    rw [if_neg pends]
    exact State.fstate_setFstate _ _ _ (by decide)

end

/-- Settles O16: each command changes the function's state once, and what it sets going beside it leaves SYS_FUNC_STATE. -/
theorem functionsFollowTheirStateMachine : Obligations.FunctionsFollowTheirStateMachine := fun _ _ =>
  ⟨completes_funcEnable, completes_funcDisable, completes_funcStartDone, completes_funcStartFail, completes_funcStopDone⟩

end Sys2Proof.Machine

/-! What an event that is recorded leaves of the parts it is recorded in: of monitoring all but the meters, of the control bus all but the turns of
the targets, and of the logbook's totals the seconds of operation (14 R365, R368 to R372; 12 R317). -/

namespace Sys2Proof.Machine

/-- Monitoring beside its meters, the control bus beside its turns, and the seconds of operation. -/
def State.unlogged (s : State) : PmH × BusH × Nat := ({ s.pm with meters := [] }, { s.bus with lastGrant := [] }, s.log.totals.opSeconds)

section
variable {s : State}

/-- What a change that touches none of the three parts leaves. -/
theorem Within.unlogged {f : Foot} {t : State} (h : Within f s t) (hp : f.hasComp .pm = false) (hb : f.hasComp .bus = false)
    (hl : f.hasComp .log = false) : t.unlogged = s.unlogged := by
  unfold State.unlogged
  rw [h.pm hp, h.bus hb, h.log hl]

theorem State.unlogged_facts {s t : State} (h : t.unlogged = s.unlogged) : t.pm.secStart = s.pm.secStart ∧ t.pm.waiting = s.pm.waiting ∧
    t.log.totals.opSeconds = s.log.totals.opSeconds ∧ t.bus.waiting = s.bus.waiting ∧ t.bus.semOwner = s.bus.semOwner ∧
    t.bus.semTick = s.bus.semTick ∧ t.bus.answers = s.bus.answers ∧ t.bus.armed = s.bus.armed := by
  obtain ⟨pm, rest⟩ := Prod.ext_iff.1 h
  obtain ⟨bus, seconds⟩ := Prod.ext_iff.1 rest
  exact ⟨congrArg (·.secStart) pm, congrArg (·.waiting) pm, seconds, congrArg (·.waiting) bus, congrArg (·.semOwner) bus, congrArg (·.semTick) bus,
    congrArg (·.answers) bus, congrArg (·.armed) bus⟩

theorem State.unlogged_meter (r : Reg) (i n : Nat) : (s.meter r i n).unlogged = s.unlogged := by
  unfold State.meter
  split <;> rfl

theorem State.unlogged_grantOf (m t n beats : Nat) : (s.grantOf m t n beats).unlogged = s.unlogged :=
  State.unlogged_meter (s := s.countBy .busGrants t n) .pmBwBusBeats t beats

theorem State.unlogged_evbWrite (k : Nat) (e : LogEntry) : (s.evbWrite k e).unlogged = s.unlogged := by
  unfold State.evbWrite
  dsimp only
  split
  · exact (State.unlogged_grantOf ..).trans (State.unlogged_meter ..)
  · exact (State.unlogged_grantOf ..).trans (State.unlogged_meter ..)

theorem State.unlogged_evbPut (e : LogEntry) : (s.evbPut e).unlogged = s.unlogged := by
  unfold State.evbPut
  split
  · rfl
  · split
    · exact State.unlogged_evbWrite ..
    · split
      · rfl
      · split <;> rfl

theorem State.unlogged_storeCause (c : Nat) : (s.storeCause c).unlogged = s.unlogged := by
  unfold State.storeCause
  split <;> rfl

theorem State.unlogged_stage (e : LogEntry) : (s.stage e).unlogged = s.unlogged := by
  unfold State.stage
  dsimp only
  split
  · split
    · exact State.unlogged_storeCause 0
    · rfl
  · split <;> rfl

theorem State.unlogged_logEvent (code sev p0 p1 p2 : Nat) (book : Bool) : (s.logEvent code sev p0 p1 p2 book).unlogged = s.unlogged := by
  unfold State.logEvent
  dsimp only
  split
  · have staged := fun e : LogEntry => (State.unlogged_stage (s := s.evbPut e) e).trans (State.unlogged_evbPut e)
    split
    · exact (State.unlogged_storeCause 2).trans (staged _)
    · exact staged _
  · exact State.unlogged_evbPut _

theorem State.unlogged_recoverySync : s.recoverySync.unlogged = s.unlogged := by
  unfold State.recoverySync
  dsimp only
  split
  · rfl
  · exact State.unlogged_logEvent ..

theorem State.unlogged_srcBlk (a v : Nat) : (s.srcBlk a v).unlogged = s.unlogged :=
  (s.srcBlk_within a v).unlogged (by decide) (by decide) (by decide)

/-- A change of ACT and LATCH, told to the interrupt tree and the event log. -/
theorem State.unlogged_told (code sev p0 p1 p2 : Nat) (book : Bool) :
    ((s.logEvent code sev p0 p1 p2 book).recoverySync.irqSync).unlogged = s.unlogged :=
  ((State.irqSync_within _).unlogged (by decide) (by decide) (by decide)).trans
    (State.unlogged_recoverySync.trans (State.unlogged_logEvent ..))

theorem State.unlogged_raise (a i : Nat) : (s.raise a i).unlogged = s.unlogged := by
  unfold State.raise
  split
  · rfl
  · refine (State.unlogged_told ..).trans ?_
    split
    · exact (State.unlogged_srcBlk ..).trans (by split <;> rfl)
    · split
      · exact (State.unlogged_srcBlk ..).trans (by split <;> rfl)
      · exact (State.unlogged_srcBlk ..).trans (by split <;> rfl)

theorem State.unlogged_clear (a i : Nat) : (s.clear a i).unlogged = s.unlogged := by
  unfold State.clear
  split
  · exact (State.unlogged_told ..).trans (State.unlogged_srcBlk ..)
  · rfl

theorem State.unlogged_setAlarm (a i : Nat) (b : Bool) : (s.setAlarm a i b).unlogged = s.unlogged := by
  unfold State.setAlarm
  split
  · exact State.unlogged_raise ..
  · exact State.unlogged_clear ..

end

end Sys2Proof.Machine

/-! Performance seconds, the alarms' latches, the ports' sources and the logbook's stores (14 R360 to R363, R372; 15 R387, R391). -/

namespace Sys2Proof.Machine

section
variable {s : State}

/-! ### The end of a performance second (14 R360 to R363) -/

/-- The seconds that wait, and the seconds of operation. -/
def State.secondBooks (s : State) : Nat × Nat := (s.pm.waiting, s.log.totals.opSeconds)

theorem State.secondBooks_of_unlogged {s t : State} (h : t.unlogged = s.unlogged) : t.secondBooks = s.secondBooks := by
  obtain ⟨-, waiting, seconds, -⟩ := State.unlogged_facts h
  exact Prod.ext waiting seconds

theorem State.secondBooks_facts {s t : State} (h : t.secondBooks = s.secondBooks) : t.pm.waiting = s.pm.waiting ∧
    t.log.totals.opSeconds = s.log.totals.opSeconds := Prod.ext_iff.1 h

theorem Within.secondBooks {f : Foot} {t : State} (h : Within f s t) (hp : f.hasComp .pm = false) (hl : f.hasComp .log = false) :
    t.secondBooks = s.secondBooks := by
  unfold State.secondBooks
  rw [h.pm hp, h.log hl]

theorem State.secondBooks_pmShow (e : Nat) : (s.pmShow e).secondBooks = s.secondBooks := (s.pmShow_within e).secondBooks (by decide) (by decide)

theorem State.secondBooks_pmAlarm (e : Nat) (b : Bool) : (s.pmAlarm e b).secondBooks = s.secondBooks := by
  unfold State.pmAlarm
  split
  · exact State.secondBooks_of_unlogged (State.unlogged_setAlarm ..)
  · split
    · exact State.secondBooks_of_unlogged (State.unlogged_setAlarm ..)
    · exact State.secondBooks_of_unlogged (State.unlogged_setAlarm ..)

theorem State.secondBooks_pmRelease (e keep : Nat) : (s.pmRelease e keep).secondBooks = s.secondBooks := by
  unfold State.pmRelease
  dsimp only
  split
  · rfl
  · exact State.each_keeps State.secondBooks _ _ _ fun c y => (y.pmFinal_within e c).secondBooks (by decide) (by decide)

theorem State.secondBooks_pmCloseEnt (n e : Nat) : (s.pmCloseEnt n e).secondBooks = s.secondBooks := by
  unfold State.pmCloseEnt
  dsimp only
  split
  · split
    · rfl
    · exact State.secondBooks_pmShow ..
  · exact (State.secondBooks_pmShow ..).trans ((State.secondBooks_pmRelease ..).trans (State.secondBooks_pmAlarm ..))

/-- Every entity's second ended. -/
def State.pmCloseAll (s : State) (b : Nat) : State := s.eachN 321 fun e s => s.pmCloseEnt (s.tick.n - b) e

/-- What closing an entity's second may touch (14 R361 to R363). -/
def Foot.secondClosed : Foot := Foot.alarm.plus (.of [] [.pmLinkState, .pmGroupState, .pmMateState, .pmEs, .pmSes, .pmUas, .pmFeEs, .pmFeSes,
  .pmFeUas, .pmGroupEs, .pmGroupSes, .pmGroupUas, .pmMateEs, .pmMateSes, .pmMateUas])

theorem State.pmCloseAll_within (s : State) (b : Nat) : Within .secondClosed s (s.pmCloseAll b) :=
  .eachN _ _ (.refl ..) fun _ _ h => .after (State.pmCloseEnt_within ..) h (by decide)

theorem State.secondBooks_pmCloseAll (b : Nat) : (s.pmCloseAll b).secondBooks = s.secondBooks :=
  State.eachN_keeps State.secondBooks 321 _ _ fun _ _ => State.secondBooks_pmCloseEnt ..

/-- The next second begun, and the second that ended among those that wait. -/
def State.secondBegun (s : State) : State := { s with pm := { s.pm with secStart := some s.tick.n, waiting := min 9 (s.pm.waiting + 1) } }

theorem State.word_pmCountFinal (n : Nat) : (s.pmCountFinal n).word .pmSeconds 0 = s.word .pmSeconds 0 + BitVec.ofNat 64 n := by
  unfold State.pmCountFinal
  split
  next none =>
    rw [none]
    exact (BitVec.add_zero _).symm
  next =>
    rw [State.word_irqSync]
    exact (State.word_setWord_other _ _ (.inl (by decide))).trans
      ((State.word_setWord_other _ _ (.inl (by decide))).trans (State.word_countBy ..))

/-- What follows the closing of the entities' seconds: the next second, the one made final, and the logbook's totals. -/
def State.secondEnded (s : State) : State := (s.secondBegun.pmCountFinal (s.pm.waiting + 1 - 9)).totalsSecond

theorem exec_pmSecondEnd {b : Nat} (since : s.pm.secStart = some b) (later : b < s.tick.n) (due : s.now % 48000 = 0) :
    exec .pmSecondEnd s = .next (s.pmCloseAll b).secondEnded := by
  show execPmSecondEnd s = _
  unfold execPmSecondEnd
  rw [since]
  dsimp only
  rw [State.when_pos (by simp [later, due]), ← State.pmCloseAll]
  rfl

theorem State.secondEnded_facts (s : State) : s.secondEnded.pm.secStart = some s.tick.n ∧
    s.secondEnded.pm.waiting = min 9 (s.pm.waiting + 1) ∧
    s.secondEnded.word .pmSeconds 0 = s.word .pmSeconds 0 + BitVec.ofNat 64 (s.pm.waiting + 1 - 9) ∧
    s.secondEnded.log.totals.opSeconds = s.log.totals.opSeconds + 1 ∧ s.secondEnded.core = s.core := by
  have counted := s.secondBegun.pmCountFinal_within (s.pm.waiting + 1 - 9)
  have pm : s.secondEnded.pm = s.secondBegun.pm := counted.pm (by decide)
  refine ⟨by rw [pm]; rfl, by rw [pm]; rfl, ?_, congrArg (·.totals.opSeconds + 1) (counted.log (by decide)), counted.core (by decide)⟩
  exact ((State.totalsSecond_within _).word _ (by decide) 0).trans (State.word_pmCountFinal _)

theorem completes_pmSecondEnd {b : Nat} (since : s.pm.secStart = some b) (later : b < s.tick.n) (due : s.now % 48000 = 0) :
    Completes .pmSecondEnd s fun t => t.pm.secStart = some s.tick.n ∧ t.pm.waiting = min 9 (s.pm.waiting + 1) ∧
      t.word .pmSeconds 0 = s.word .pmSeconds 0 + BitVec.ofNat 64 (s.pm.waiting + 1 - 9) ∧
      t.log.totals.opSeconds = s.log.totals.opSeconds + 1 ∧ t.core = s.core := by
  refine ⟨_, exec_pmSecondEnd since later due, ?_⟩
  obtain ⟨waiting, seconds⟩ := State.secondBooks_facts (State.secondBooks_pmCloseAll (s := s) b)
  have closed := s.pmCloseAll_within b
  have ended := (s.pmCloseAll b).secondEnded_facts
  rwa [closed.tick (by decide), closed.word .pmSeconds (by decide), closed.core (by decide), waiting, seconds] at ended

/-! ### Latches and sources (15 R387, R391) -/

theorem completes_alarmLatchClear {m : Master} (hr : s.reaches m 18 true = true) (a : AlarmId) (w : Fin 4) (bits : Word) :
    Completes (.alarmLatchClear m a w bits) s fun t => t.act = s.act ∧
      Tbl.get 0 t.latch a = Tbl.get 0 s.latch a &&& ~~~(BitVec.ofNat 256 (bits.toNat * 2 ^ (64 * w.val))) := by
  obtain ⟨x, counted, run⟩ := s.byTarget_ok m 18 (alarmAddr a (0x20 + 8 * w)) 8 true (·.latchClear a w bits.toNat) hr
  refine ⟨_, congrArg Host.Outcome.next run, counted.act (by decide), ?_⟩
  rw [← counted.latch (by decide)]
  unfold State.latchClear
  rw [Tbl.get_modify, if_pos rfl]

theorem completes_intSrcClear {m : Master} (hr : s.reaches m 18 true = true) (p : Port) (bits : BitVec 12) (w : Nat)
    (shown : w = (s.word .sysIntSrc (masterNum (portMaster p))).toNat) : Completes (.intSrcClear m p bits) s fun t =>
      t.word .sysIntSrc (masterNum (portMaster p)) = BitVec.ofNat 64 (w - (w &&& (bits.toNat &&& 0xF9F))) := by
  obtain ⟨x, counted, run⟩ := s.byReg_ok m .sysIntSrc (masterNum (portMaster p)) 8 true (·.srcClear (masterNum (portMaster p)) bits.toNat) hr
  refine ⟨_, congrArg Host.Outcome.next run, ?_⟩
  unfold State.srcClear
  dsimp only
  rw [State.word_irqSync, State.word_setWord_same, counted.word _ (by decide), ← shown]

/-! ### Stores asked for (14 R372) -/

theorem State.mem_storeCause (s : State) (c : Nat) : c ∈ (s.storeCause c).log.causes := by
  unfold State.storeCause
  split
  next asked => exact asked
  next => exact List.mem_append_right _ (List.mem_singleton_self c)

theorem completes_logFlush {m : Master} (hr : s.reaches m 18 true = true) : Completes (.logFlush m) s fun t => 3 ∈ t.log.causes := by
  obtain ⟨x, -, run⟩ := s.byReg_ok m .logCtrl 0 8 true (·.storeCause 3) hr
  exact ⟨_, congrArg Host.Outcome.next run, x.mem_storeCause 3⟩

theorem completes_logHourly (due : s.now % 172800000 = 0) : Completes .logHourly s fun t => 1 ∈ t.log.causes :=
  ⟨_, congrArg Host.Outcome.next (State.when_pos (decide_eq_true due)), s.mem_storeCause 1⟩

end

/-- Settles O57: closing the entities' seconds leaves the books of the second, and each of the others is one write behind an access. -/
theorem secondsAlarmsAndLogbookComplete : Obligations.SecondsAlarmsAndLogbookComplete := fun _ _ =>
  ⟨fun _ since later due => completes_pmSecondEnd since later due,
    fun hr => ⟨completes_alarmLatchClear hr, completes_intSrcClear hr, completes_logFlush hr⟩, completes_logHourly⟩

end Sys2Proof.Machine

/-! Error responses: what is counted and latched of one (12 R311, Table 12-10). -/

namespace Sys2Proof.Machine

section
variable (s : State) (m : Master) (addr : Nat) (write : Bool) (c : ErrCause)

/-- What of an error response is shown to the port itself: its interrupt source or its error status. -/
def Foot.errTold : Foot := .of [.irqs] [.busDefault, .sysIntSrc]

/-- An error response is counted and latched, and else told to the port alone. -/
theorem State.errResp_eq : Within .errTold ((s.count .busErrResp (masterNum m)).setWord .busErrLast (masterNum m)
    (BitVec.ofNat 64 (addr / 8 * 8 % 2 ^ 40 + b2n write * 2 ^ 40 + c.code * 2 ^ 48 + 2 ^ 63))) (s.errResp m addr write c) := by
  unfold State.errResp
  dsimp only
  generalize (s.count .busErrResp (masterNum m)).setWord .busErrLast (masterNum m) _ = x
  have default : Within .errTold x (if c = .default then x.count .busDefault (masterNum m) else x) :=
    .ite (.count _ _ (.refl ..) (by decide)) (.refl ..)
  exact .ite (.ite (.after (State.irqSync_within _) (.after (State.setSrc_within ..) default (by decide)) (by decide))
    (.after (State.aerLog_within ..) default (by decide))) default

theorem State.word_busErrResp_errResp : (s.errResp m addr write c).word .busErrResp (masterNum m) = s.word .busErrResp (masterNum m) + 1 :=
  ((s.errResp_eq m addr write c).word _ (by decide) _).trans ((State.word_setWord_other _ _ (.inl (by decide))).trans (State.word_count ..))

theorem ErrCause.code_lt (c : ErrCause) : c.code < 16 := by cases c <;> decide

theorem State.rd_busErrLastCause_errResp : (s.errResp m addr write c).rd F.busErrLastCause (masterNum m) = c.code := by
  have code := ErrCause.code_lt c
  have dir : b2n write ≤ 1 := by cases write <;> decide
  have low : addr / 8 * 8 % 2 ^ 40 < 2 ^ 40 := Nat.mod_lt _ (by decide)
  rw [(s.errResp_eq m addr write c).rd (by decide)]
  unfold State.rd
  rw [State.word_setWord_same, field_ofNat (by decide)]
  show _ / 2 ^ 48 % 2 ^ 4 = _
  omega

end

end Sys2Proof.Machine

/-! Snapshots of the counters and windows of the bandwidth meters (14 R357 to R359). -/

namespace Sys2Proof.Machine

section
variable {s : State}

/-! ### Snapshots (14 R357, R358) -/

theorem State.snapshot_facts (s : State) (kind : Nat) (first : s.pm.snapAt ≠ s.tick.n + 1) :
    (s.pm.snapPending = none → s.flag F.logStateEvbValid 0 = true → (s.snapshot kind).pm.snapPending = some (BitVec.ofNat 32 s.now, kind) ∧
      (s.snapshot kind).pm.snapRegs = s.regs ∧ (s.snapshot kind).word .pmSnapshots 0 = s.word .pmSnapshots 0 + 1) ∧
    (s.pm.snapPending ≠ none ∨ s.flag F.logStateEvbValid 0 = false → (s.snapshot kind).pm.snapPending = s.pm.snapPending ∧
      (s.snapshot kind).word .pmSnapSkipped 0 = s.word .pmSnapSkipped 0 + 1) := by
  have taken : s.snapshot kind = if s.pm.snapPending.isSome || !s.flag F.logStateEvbValid 0 then
      ({ s with pm := { s.pm with snapAt := s.tick.n + 1 } } : State).count .pmSnapSkipped 0
    else ({ s with pm := { s.pm with snapAt := s.tick.n + 1, snapPending := some (BitVec.ofNat 32 s.now, kind), snapRegs := s.regs } } :
      State).count .pmSnapshots 0 := if_neg first
  refine ⟨fun idle valid => ?_, fun busy => ?_⟩
  · rw [taken, if_neg (by rw [idle, valid]; decide)]
    exact ⟨rfl, rfl, State.word_count ..⟩
  · have skipped : (s.pm.snapPending.isSome || !s.flag F.logStateEvbValid 0) = true := by
      obtain pending | invalid := busy
      · rw [Option.isSome_iff_ne_none.2 pending, Bool.true_or]
      · rw [invalid, Bool.not_false, Bool.or_true]
    rw [taken, if_pos skipped]
    exact ⟨rfl, State.word_count ..⟩

/-- What a snapshot that was due leaves: captured, or skipped and counted so. -/
def SnapshotTaken (k : Nat) (s t : State) : Prop :=
  (s.pm.snapPending = none → s.flag F.logStateEvbValid 0 = true → t.pm.snapPending = some (BitVec.ofNat 32 s.now, k) ∧ t.pm.snapRegs = s.regs ∧
    t.word .pmSnapshots 0 = s.word .pmSnapshots 0 + 1) ∧
  (s.pm.snapPending ≠ none ∨ s.flag F.logStateEvbValid 0 = false → t.pm.snapPending = s.pm.snapPending ∧
    t.word .pmSnapSkipped 0 = s.word .pmSnapSkipped 0 + 1)

theorem completes_snapshotAuto (first : s.pm.snapAt ≠ s.tick.n + 1) (auto : s.flag F.pmCtrlAuto 0 = true) (due : s.now % 48000 = 0) :
    Completes .snapshotAuto s (SnapshotTaken 1 s) :=
  ⟨_, congrArg Host.Outcome.next (State.when_pos (by simp [auto, due])), s.snapshot_facts 1 first⟩

theorem completes_snapshotArmedTick (first : s.pm.snapAt ≠ s.tick.n + 1) (armed : s.flag F.pmCtrlSnapArm 0 = true)
    (due : s.now = s.rd F.pmCtrlSnapTick 0) : Completes .snapshotArmedTick s fun t => t.flag F.pmCtrlSnapArm 0 = false ∧ SnapshotTaken 4 s t := by
  have disarmed : Within (.of [] [.pmCtrl]) (s.snapshot 4) ((s.snapshot 4).setFlag F.pmCtrlSnapArm 0 false) := .setFlag _ _ _ (.refl ..) (by decide)
  refine ⟨_, congrArg Host.Outcome.next (State.when_pos (by simp [armed, due])), State.flag_setFlag _ _ _ _ rfl (by decide), ?_⟩
  unfold SnapshotTaken
  rw [disarmed.pm (by decide), disarmed.word _ (by decide), disarmed.word _ (by decide)]
  exact s.snapshot_facts 4 first

theorem completes_snapshot {c : Instr} {k : Nat} (due : (c = .snapshotAuto ∧ k = 1 ∧ s.flag F.pmCtrlAuto 0 = true ∧ s.now % 48000 = 0) ∨
    (c = .snapshotArmedTick ∧ k = 4 ∧ s.flag F.pmCtrlSnapArm 0 = true ∧ s.now = s.rd F.pmCtrlSnapTick 0)) (first : s.pm.snapAt ≠ s.tick.n + 1) :
    Completes c s fun t => (k = 4 → t.flag F.pmCtrlSnapArm 0 = false) ∧ SnapshotTaken k s t := by
  obtain ⟨rfl, rfl, auto, boundary⟩ | ⟨rfl, rfl, armed, tick⟩ := due
  · obtain ⟨t, run, taken⟩ := completes_snapshotAuto first auto boundary
    exact ⟨t, run, fun four => absurd four (by decide), taken⟩
  · obtain ⟨t, run, disarmed, taken⟩ := completes_snapshotArmedTick first armed tick
    exact ⟨t, run, fun _ => disarmed, taken⟩

theorem completes_pmSnap {m : Master} (hr : s.reaches m 18 true = true) : Completes (.pmSnap m) s fun t => t.pm.snapReq = true := by
  obtain ⟨x, -, run⟩ := s.byReg_ok m .pmCtrl 0 8 true (fun s => { s with pm := { s.pm with snapReq := true } }) hr
  exact ⟨_, congrArg Host.Outcome.next run, rfl⟩

/-- The captured snapshot taken out to be written. -/
def State.snapTaken (s : State) : State := { s with pm := { s.pm with snapPending := none, snapRegs := [] } }

/-- A snapshot's number advanced, and what is shown of the one written. -/
def State.snapShown (s : State) (seq n : Nat) : State :=
  ((({ s with pm := { s.pm with snapSeq := (seq + 1) % 2 ^ 32 } } : State).wr F.pmSnapStatusSeq 0 seq).wr F.pmSnapStatusTick 0 n)

/-- A snapshot shown, and its interrupt source. -/
def State.snapTold (s : State) (seq n : Nat) : State := (((s.snapShown seq n).setSrc 1 9).setSrc 2 9).irqSync

theorem State.snapTold_within (s : State) (seq n : Nat) : Within (.of [.irqs] [.sysIntSrc]) (s.snapShown seq n) (s.snapTold seq n) :=
  .after (State.irqSync_within _) (.after (State.setSrc_within ..) (.after (State.setSrc_within ..) (.refl ..) (by decide)) (by decide)) (by decide)

theorem exec_snapshotWritten {n : BitVec 32} {k : Nat} (pending : s.pm.snapPending = some (n, k)) (valid : s.flag F.logStateEvbValid 0 = true) :
    exec .snapshotWritten s = .next ((s.snapTaken.snapStore s.pm.snapSeq
      (snapBytes s.pm.snapSeq n.toNat k s.nv.dieId s.pm.snapRegs)).snapTold s.pm.snapSeq n.toNat) := by
  show execSnapshotWritten s = _
  unfold execSnapshotWritten
  rw [pending]
  dsimp only
  refine congrArg Host.Outcome.next ((if_neg ?_).trans rfl)
  show ¬(!s.flag F.logStateEvbValid 0) = true
  rw [valid]
  decide

/-- Where a snapshot stands in the ring of the stack that holds the event buffer (14 R358). -/
def State.snapPlace (s : State) (seq : Nat) : Nat := stackBase (s.rd F.logStateEvbStack 0) + 0x586000000 + 0x40000 * (seq % 128)

theorem State.snapPlace_congr {s t : State} (h : t.rd F.logStateEvbStack 0 = s.rd F.logStateEvbStack 0) (seq : Nat) :
    t.snapPlace seq = s.snapPlace seq := by
  unfold State.snapPlace
  rw [h]

theorem State.snapStore_facts (s : State) (seq : Nat) (bs : List Byte) : (s.snapStore seq bs).pm.snapPending = s.pm.snapPending ∧
    (s.snapStore seq bs).hbm = memWrite bs (s.snapPlace seq) s.hbm := by
  unfold State.snapStore State.meter
  dsimp only
  split <;> exact ⟨rfl, rfl⟩

theorem State.snapShown_facts (s : State) (seq : Nat) (n : BitVec 32) : (s.snapShown seq n.toNat).hbm = s.hbm ∧
    (s.snapShown seq n.toNat).pm.snapPending = s.pm.snapPending ∧ (s.snapShown seq n.toNat).pm.snapSeq = (seq + 1) % 2 ^ 32 ∧
    (s.snapShown seq n.toNat).rd F.pmSnapStatusTick 0 = n.toNat := by
  unfold State.snapShown
  generalize (seq + 1) % 2 ^ 32 = next
  rw [State.wr_hbm, State.wr_hbm, State.wr_pm, State.wr_pm, State.rd_wr _ _ _ _ (by decide)]
  exact ⟨rfl, rfl, rfl, Nat.mod_eq_of_lt n.isLt⟩

theorem State.snapTold_facts (s : State) (seq : Nat) (n : BitVec 32) : (s.snapTold seq n.toNat).hbm = s.hbm ∧
    (s.snapTold seq n.toNat).pm.snapPending = s.pm.snapPending ∧ (s.snapTold seq n.toNat).pm.snapSeq = (seq + 1) % 2 ^ 32 ∧
    (s.snapTold seq n.toNat).rd F.pmSnapStatusTick 0 = n.toNat := by
  have told := s.snapTold_within seq n.toNat
  have hbm : (s.snapTold seq n.toNat).hbm = (s.snapShown seq n.toNat).hbm := by
    unfold State.snapTold
    rw [State.irqSync_hbm, State.setSrc_hbm, State.setSrc_hbm]
  rw [hbm, told.pm (by decide), told.rd (by decide)]
  exact s.snapShown_facts seq n

theorem completes_snapshotWritten {n : BitVec 32} {k : Nat} {bs : List Byte} (pending : s.pm.snapPending = some (n, k))
    (valid : s.flag F.logStateEvbValid 0 = true) (bytes : bs = snapBytes s.pm.snapSeq n.toNat k s.nv.dieId s.pm.snapRegs) :
    Completes .snapshotWritten s fun t => t.pm.snapPending = none ∧ memRead t.hbm (s.snapPlace s.pm.snapSeq) bs.length = bs ∧
      t.pm.snapSeq = (s.pm.snapSeq + 1) % 2 ^ 32 ∧ t.rd F.pmSnapStatusTick 0 = n.toNat := by
  refine ⟨_, exec_snapshotWritten pending valid, ?_⟩
  rw [← bytes]
  obtain ⟨none, stored⟩ := s.snapTaken.snapStore_facts s.pm.snapSeq bs
  obtain ⟨hbm, pend, seq, tick⟩ := (s.snapTaken.snapStore s.pm.snapSeq bs).snapTold_facts s.pm.snapSeq n
  rw [hbm, pend, seq, tick, none, stored, State.snapPlace_congr (s := s) (t := s.snapTaken) rfl]
  exact ⟨rfl, memRead_memWrite .., rfl, rfl⟩

/-! ### Windows (14 R359) -/

/-- A meter's total of the window in progress, as it is latched. -/
def State.meterTotal (s : State) (p : Reg × Nat) : Word := BitVec.ofNat 64 (Tbl.get 0 s.pm.meters (meterKey p.1 p.2) % 2 ^ 48)

/-- One meter latched. -/
def State.meterLatch (p : Reg × Nat) (s : State) : State := s.setWord p.1 p.2 (s.meterTotal p)

/-- The meters' registers, place by place. -/
def meterPlaces : List (Reg × Nat) := meterRegs.flatMap fun x => x.2.map (x.1, ·)

/-- Every meter latched. -/
def State.metersLatched (s : State) : State := s.each meterPlaces State.meterLatch

theorem State.metersLatched_eq (s : State) : (s.each meterRegs fun x s => s.each x.2 fun i s =>
    s.setWord x.1 i (BitVec.ofNat 64 (Tbl.get 0 s.pm.meters (meterKey x.1 i) % 2 ^ 48))) = s.metersLatched := by
  unfold State.metersLatched State.each meterPlaces
  rw [List.foldl_flatMap]
  simp only [List.foldl_map]
  rfl

theorem State.word_each_meterLatch (l : List (Reg × Nat)) (s : State) (p : Reg × Nat) :
    (s.each l State.meterLatch).word p.1 p.2 = if p ∈ l then s.meterTotal p else s.word p.1 p.2 := by
  induction l generalizing s with
  | nil => rfl
  | cons a l ih =>
    have first : (State.meterLatch a s).word p.1 p.2 = if p = a then s.meterTotal p else s.word p.1 p.2 := by
      unfold State.meterLatch
      rw [State.word_setWord]
      by_cases same : p = a
      · rw [same, if_pos ⟨rfl, rfl⟩, if_pos rfl]
      · rw [if_neg fun e => same (Prod.ext e.1 e.2), if_neg same]
    refine (ih (State.meterLatch a s)).trans ?_
    rw [first, show (State.meterLatch a s).meterTotal p = s.meterTotal p from rfl]
    by_cases later : p ∈ l <;> simp [later]

theorem State.word_metersLatched_other {r : Reg} (other : r ∉ meterRegs.map (·.1)) (i : Nat) : s.metersLatched.word r i = s.word r i := by
  refine (State.word_each_meterLatch meterPlaces s (r, i)).trans (if_neg fun place => other ?_)
  obtain ⟨x, row, among⟩ := List.mem_flatMap.1 place
  obtain ⟨j, -, same⟩ := List.mem_map.1 among
  exact List.mem_map.2 ⟨x, row, congrArg Prod.fst same⟩

/-- What PM_BW_LAST shows of a window that ends. -/
def State.windowShown (s : State) : State :=
  let t := (s.wr F.pmBwLastEndTick 0 s.now).wr F.pmBwLastLength 0 s.pm.bwLen
  t.wr F.pmBwLastSeq 0 (t.rd F.pmBwLastSeq 0 + 1)

theorem State.windowShown_facts (s : State) : s.windowShown.rd F.pmBwLastEndTick 0 = s.now % 2 ^ F.pmBwLastEndTick.width ∧
    s.windowShown.rd F.pmBwLastSeq 0 = (s.rd F.pmBwLastSeq 0 + 1) % 2 ^ F.pmBwLastSeq.width := by
  unfold State.windowShown
  dsimp only
  constructor
  · rw [State.rd_wr_apart _ _ _ _ (by decide) (by decide), State.rd_wr_apart _ _ _ _ (by decide) (by decide), State.rd_wr _ _ _ _ (by decide)]
  · rw [State.rd_wr _ _ _ _ (by decide), State.rd_wr_apart _ _ _ _ (by decide) (by decide), State.rd_wr_apart _ _ _ _ (by decide) (by decide)]

/-- The meters begun again. -/
def State.metersBegun (s : State) : State := { s with pm := { s.pm with meters := [], bwLen := 0 } }

theorem State.metersBegun_pm (s : State) : s.metersBegun.pm.meters = [] ∧ s.metersBegun.pm.bwLen = 0 := ⟨rfl, rfl⟩

theorem State.rd_metersBegun (s : State) (f : Field) (i : Nat) : s.metersBegun.rd f i = s.rd f i := rfl

theorem State.bwLatch_eq (s : State) : Within (.of [.irqs] [.sysIntSrc]) s.metersLatched.windowShown.metersBegun s.bwLatch := by
  unfold State.bwLatch
  rw [State.metersLatched_eq]
  exact .after (State.irqSync_within _) (.after (State.setSrc_within ..) (.after (State.setSrc_within ..) (.refl ..) (by decide)) (by decide))
    (by decide)

theorem mem_meterPlaces_link {r : Reg} (row : (r, List.range 128) ∈ meterRegs) {i : Nat} (hi : i < 128) : (r, i) ∈ meterPlaces :=
  List.mem_flatMap.2 ⟨_, row, List.mem_map.2 ⟨i, List.mem_range.2 hi, rfl⟩⟩

/-- What is shown of a window, its interrupt source included, beside the meters themselves. -/
theorem State.bwLatch_within_metersLatched (s : State) : Within (.of [.irqs, .pm] [.pmBwLast, .sysIntSrc]) s.metersLatched s.bwLatch :=
  .after s.bwLatch_eq (.set_pm (.wr _ _ _ (.wr _ _ _ (.wr _ _ _ (.refl ..) (by decide)) (by decide)) (by decide)) (by decide)) (by decide)

theorem State.word_bwLatch_link {r : Reg} (row : (r, List.range 128) ∈ meterRegs) (hr : (Foot.of [] [.pmBwLast, .sysIntSrc]).hasReg r = false)
    {i : Nat} (hi : i < 128) : s.bwLatch.word r i = s.meterTotal (r, i) :=
  (s.bwLatch_within_metersLatched.word r hr i).trans ((State.word_each_meterLatch _ _ (r, i)).trans (if_pos (mem_meterPlaces_link row hi)))

theorem completes_bwWindowEnd (on : s.pm.bwOn = true) (long : 0 < s.pm.bwLen) (due : s.bwBoundary = true) : Completes .bwWindowEnd s fun t =>
    t.pm.meters = [] ∧ t.pm.bwLen = 0 ∧ t.rd F.pmBwLastEndTick 0 = s.now % 2 ^ F.pmBwLastEndTick.width ∧
      t.rd F.pmBwLastSeq 0 = (s.rd F.pmBwLastSeq 0 + 1) % 2 ^ F.pmBwLastSeq.width ∧
      ∀ i : Nat, i < 128 → t.word .pmBwLinkIn i = BitVec.ofNat 64 (Tbl.get 0 s.pm.meters (meterKey .pmBwLinkIn i) % 2 ^ 48) ∧
        t.word .pmBwLinkOut i = BitVec.ofNat 64 (Tbl.get 0 s.pm.meters (meterKey .pmBwLinkOut i) % 2 ^ 48) := by
  have latched := s.bwLatch_eq
  have pm : s.bwLatch.pm = s.metersLatched.windowShown.metersBegun.pm := latched.pm (by decide)
  obtain ⟨endTick, seq⟩ := s.metersLatched.windowShown_facts
  have now : s.metersLatched.now = s.now := State.rd_congr (State.word_metersLatched_other (by decide) 0)
  have number : s.metersLatched.rd F.pmBwLastSeq 0 = s.rd F.pmBwLastSeq 0 := State.rd_congr (State.word_metersLatched_other (by decide) 0)
  rw [now] at endTick
  rw [number] at seq
  have run : exec .bwWindowEnd s = .next s.bwLatch := congrArg Host.Outcome.next (State.when_pos (by simp [on, long, due]))
  refine ⟨_, run, ?_, ?_,
    (latched.rd (by decide) 0).trans ((State.rd_metersBegun ..).trans endTick),
    (latched.rd (by decide) 0).trans ((State.rd_metersBegun ..).trans seq), fun i hi => ⟨?_, ?_⟩⟩
  · rw [pm, (State.metersBegun_pm _).1]
  · rw [pm, (State.metersBegun_pm _).2]
  · exact State.word_bwLatch_link (List.mem_cons_self ..) (by decide) hi
  · exact State.word_bwLatch_link (List.mem_cons_of_mem _ (List.mem_cons_self ..)) (by decide) hi

/-! ### The length of a window (14 R359) -/

/-- The lengths R359 allows. -/
def windowOk (w : Nat) : Bool := decide (48 ≤ w) && decide (w ≤ 48000) && decide (48000 % w = 0)

theorem State.bwCfg_taken {w : BitVec 16} (m : Master) (ok : windowOk w.toNat = true) : (s.bwCfg m w.toNat).rd F.pmBwCfgWindow 0 = w.toNat := by
  unfold State.bwCfg
  rw [if_neg (by rw [← windowOk, ok]; decide)]
  split
  next same => exact same
  next => exact (State.rd_wr s _ _ _ (by decide)).trans (Nat.mod_eq_of_lt w.isLt)

theorem State.bwCfg_refused {w : Nat} (m : Master) (bad : windowOk w = false) : s.bwCfg m w = s.errResp m (regAddr .pmBwCfg 0) true .value :=
  if_pos (by rw [← windowOk, bad]; decide)

theorem completes_pmBwCfgWrite {m : Master} (hr : s.reaches m 18 true = true) (w : BitVec 16) : Completes (.pmBwCfgWrite m w) s fun t =>
    (48 ≤ w.toNat → w.toNat ≤ 48000 → 48000 % w.toNat = 0 → t.rd F.pmBwCfgWindow 0 = w.toNat) ∧
    (w.toNat < 48 ∨ 48000 < w.toNat ∨ 48000 % w.toNat ≠ 0 → t.rd F.pmBwCfgWindow 0 = s.rd F.pmBwCfgWindow 0 ∧
      t.rd F.busErrLastCause (masterNum m) = 5) := by
  obtain ⟨x, counted, run⟩ := s.byReg_ok m .pmBwCfg 0 8 true (·.bwCfg m w.toNat) hr
  refine ⟨_, congrArg Host.Outcome.next run, fun low high divides => ?_, fun bad => ?_⟩
  · exact State.bwCfg_taken m (by simp [windowOk, low, high, divides])
  · have refused : windowOk w.toNat = false := by
      simp only [windowOk, Bool.and_eq_false_iff, decide_eq_false_iff_not]
      omega
    rw [State.bwCfg_refused m refused, State.rd_errResp _ _ _ _ _ _ _ (by decide), counted.rd (by decide), State.rd_busErrLastCause_errResp]
    exact ⟨rfl, rfl⟩

end

/-- Settles O56: a snapshot and a window are taken by one record each, and what is shown of them lies apart from what they hold. -/
theorem snapshotsAndWindowsComplete : Obligations.SnapshotsAndWindowsComplete := fun _ _ =>
  ⟨fun _ _ due first => completes_snapshot due first, fun hr => ⟨completes_pmSnap hr, completes_pmBwCfgWrite hr⟩,
    fun _ _ _ pending valid bytes => completes_snapshotWritten pending valid bytes, completes_bwWindowEnd⟩

end Sys2Proof.Machine

/-! What an access, an event and a notice leave of the control bus: scratch words, semaphores, armings, answers and what the ports hold of their
configuration (12 R308, R317, R325, R327). -/

namespace Sys2Proof.Machine

section
variable {s : State}

/-- The control bus beside its queues and turns. -/
def State.shared (s : State) : BusH := { s.bus with lastGrant := [], waiting := [] }

theorem State.shared_facts {s t : State} (h : t.shared = s.shared) : t.bus.scratch = s.bus.scratch ∧ t.bus.semOwner = s.bus.semOwner ∧
    t.bus.semTick = s.bus.semTick ∧ t.bus.armed = s.bus.armed ∧ t.bus.answers = s.bus.answers :=
  ⟨congrArg (·.scratch) h, congrArg (·.semOwner) h, congrArg (·.semTick) h, congrArg (·.armed) h, congrArg (·.answers) h⟩

theorem Within.shared {f : Foot} {t : State} (h : Within f s t) (hb : f.hasComp .bus = false) : t.shared = s.shared := by
  unfold State.shared
  rw [h.bus hb]

theorem State.shared_of_unlogged {s t : State} (h : t.unlogged = s.unlogged) : t.shared = s.shared :=
  congrArg (fun u : PmH × BusH × Nat => { u.2.1 with waiting := [] }) h

theorem State.shared_hostMeter (m : Master) (write : Bool) (n : Nat) : (s.hostMeter m write n).shared = s.shared :=
  (State.hostMeter_within s m write n).shared (by decide)

theorem State.shared_passOver (m : Master) (t : Nat) : (s.passOver m t).shared = s.shared := by
  unfold State.passOver
  dsimp only
  split <;> rfl

theorem State.shared_grantTo (m : Master) (t beats : Nat) : (s.grantTo m t beats).shared = s.shared :=
  State.shared_of_unlogged (State.unlogged_grantOf ..)

theorem State.shared_grantAll (m : Master) (t a n : Nat) : (s.grantAll m t a n).shared = s.shared :=
  State.shared_of_unlogged (State.unlogged_grantOf (s := s) ..)

/-- The state that an access is carried out on, if it is: nothing of the bus has changed but queues and turns. -/
theorem State.byTarget_ok_shared (s : State) (m : Master) (t addr n : Nat) (w : Bool) (f : State → State) (h : s.reaches m t w = true) :
    ∃ x, Within .counted s x ∧ x.shared = s.shared ∧ s.byTarget m t addr n w f = f x := by
  have counted : Within .counted s (((s.hostMeter m w n).passOver m t).grantAll m t addr n) :=
    .after (State.grantAll_within ..) (.after (State.passOver_within ..) ((State.hostMeter_within ..).mono (by decide)) (by decide)) (by decide)
  simp only [State.reaches, Bool.and_eq_true, Bool.not_eq_true'] at h
  obtain ⟨⟨path, idle⟩, answers⟩ := h
  refine ⟨_, counted, by rw [State.shared_grantAll, State.shared_passOver, State.shared_hostMeter], ?_⟩
  unfold State.byTarget
  rw [if_neg (by rw [idle]; decide)]
  dsimp only
  rw [if_neg (by rw [path]; decide), Foot.counted_available counted, if_pos answers]

/-! ### The ports' configuration -/

/-- A port beside its vectors. -/
def IrqH.config (h : IrqH) : IrqH := { h with pba := 0, seen := 0, sent := [] }

theorem IrqH.config_facts {h k : IrqH} (e : k.config = h.config) : k.up = h.up ∧ k.d3hot = h.d3hot ∧ k.busMaster = h.busMaster ∧ k.msix = h.msix ∧
    k.fnMask = h.fnMask :=
  ⟨congrArg (·.up) e, congrArg (·.d3hot) e, congrArg (·.busMaster) e, congrArg (·.msix) e, congrArg (·.fnMask) e⟩

/-- What no round of a counted loop changes, the loop leaves. -/
theorem iter_keeps {α β : Type} (p : α → β) (g : Nat → α → α) (h : ∀ k y, p (g k y) = p y) (lo n : Nat) (x : α) : p (iter g lo n x) = p x := by
  induction n generalizing lo x with
  | zero => rfl
  | succ n ih => exact (ih (lo + 1) (g lo x)).trans (h lo x)

theorem IrqH.config_flush (h : IrqH) : h.flush.config = h.config :=
  iter_keeps IrqH.config _ (fun _ _ => by split <;> rfl) 0 12 h

theorem IrqH.config_rise (h : IrqH) (v : Nat) : (h.rise v).config = h.config := by
  unfold IrqH.rise
  split <;> rfl

theorem IrqH.config_follow (h : IrqH) (pend : Nat) : (h.follow pend).config = h.config :=
  iter_keeps IrqH.config _ (fun _ _ => by
    split
    · exact IrqH.config_rise ..
    · split <;> rfl) 0 12 h

theorem State.config_irqSync (a : Nat) : (Tbl.get {} s.irqSync.irqs a).config = (Tbl.get {} s.irqs a).config := by
  unfold State.irqSync
  dsimp only
  rw [Tbl.get_set]
  split
  next second =>
    rw [second]
    exact IrqH.config_follow ..
  next =>
    rw [Tbl.get_set]
    split
    next first =>
      rw [first]
      exact IrqH.config_follow ..
    next => rfl

end

end Sys2Proof.Machine

/-! Scratch banks, semaphores, master resets and the remap change hands (12 R314, R323, R327 to R329). -/

namespace Sys2Proof.Machine

section
variable {s : State} {m : Master}

/-! ### Scratch banks (12 R323) -/

theorem Within.claimOk {k : Foot} {t : State} (h : Within k s t) (hr : k.hasReg .busScrOwn = false) (hi : k.hasComp .irqs = false) (a n : Nat) :
    t.claimOk a n = s.claimOk a n := by
  unfold State.claimOk State.bankState State.bankOwner State.portUp
  rw [h.rd hr, h.rd hr, h.irqs hi]

theorem Within.bank {k : Foot} {t : State} (h : Within k s t) (hr : k.hasReg .busScrOwn = false) (n : Nat) :
    t.bankState n = s.bankState n ∧ t.bankOwner n = s.bankOwner n := ⟨h.rd hr n, h.rd hr n⟩

theorem State.bank_setBank (s : State) (n st owner : Nat) : (s.setBank n st owner).bankState n = st % 4 ∧
    (s.setBank n st owner).bankOwner n = owner % 8 :=
  ⟨(State.rd_wr_apart _ _ _ _ (by decide) (by decide)).trans (State.rd_wr _ _ _ _ (by decide)), State.rd_wr _ _ _ _ (by decide)⟩

theorem masterNum_lt (m : Master) : masterNum m % 8 = masterNum m := by cases m <;> rfl

/-- What a refused write of BUS_SCR_OWN leaves. -/
theorem State.bank_errResp (s : State) (m : Master) (n : Nat) (c : ErrCause) : (s.errResp m (regAddr .busScrOwn n) true c).word .busScrOwn n =
      s.word .busScrOwn n ∧
    (s.errResp m (regAddr .busScrOwn n) true c).word .busErrResp (masterNum m) = s.word .busErrResp (masterNum m) + 1 :=
  ⟨State.word_errResp _ _ _ _ _ _ _ (by decide), State.word_busErrResp_errResp ..⟩

theorem State.ownOp_claim (s : State) (a n : Nat) : s.ownOp a n 1 = if s.claimOk a n then some (s.setBank n 1 a) else none := rfl

theorem State.ownOp_release (s : State) (a n : Nat) :
    s.ownOp a n 2 = if s.bankState n = 1 ∧ s.bankOwner n = a then some (s.setBank n 0 0) else none := by
  rw [show s.ownOp a n 2 = if (s.bankState n = 1 && s.bankOwner n = a : Bool) then some (s.setBank n 0 0) else none from rfl]
  simp only [Bool.and_eq_true, decide_eq_true_eq]

/-- A bank handed over, and its new owner told. -/
def State.bankGiven (s : State) (n dest : Nat) : State := (s.setBank n 1 dest).dbPend dest n

theorem State.ownOp_give {s : State} {n dest : Nat} (h : s.rd F.busScrOwnGiveTo n = dest) (a : Nat) : s.ownOp a n 3 =
    if s.bankState n = 1 ∧ s.bankOwner n = a ∧ 1 ≤ dest ∧ dest ≤ 3 then some (s.bankGiven n dest) else none := by
  rw [← h, show s.ownOp a n 3 = if (s.bankState n = 1 && s.bankOwner n = a && decide (1 ≤ s.rd F.busScrOwnGiveTo n) &&
    decide (s.rd F.busScrOwnGiveTo n ≤ 3) : Bool) then some (s.bankGiven n (s.rd F.busScrOwnGiveTo n)) else none from rfl]
  simp only [Bool.and_eq_true, decide_eq_true_eq, and_assoc]

theorem State.bank_bankGiven (s : State) (n : BankId) (dest : BitVec 3) : (s.bankGiven n dest.toNat).bankState n = 1 ∧
    (s.bankGiven n dest.toNat).bankOwner n = dest.toNat ∧ (s.bankGiven n dest.toNat).rdBit F.busDbPendPend dest.toNat n = true := by
  obtain ⟨state, owner⟩ := (State.dbPend_within (s.setBank n 1 dest.toNat) dest.toNat n).bank (by decide) n
  refine ⟨state.trans (s.bank_setBank ..).1, owner.trans ((s.bank_setBank ..).2.trans (Nat.mod_eq_of_lt dest.isLt)), ?_⟩
  unfold State.bankGiven State.dbPend
  rw [State.rdBit_irqSync]
  exact State.rdBit_wrBit_same _ _ _ _ _ (by decide) n.isLt

theorem State.scrOwnWrite_alone (s : State) (m : Master) (n op : Nat) : s.scrOwnWrite m n op none =
    (s.ownOp (masterNum m) n op).getD (s.errResp m (regAddr .busScrOwn n) true .owner) := by
  unfold State.scrOwnWrite
  dsimp only
  cases s.ownOp (masterNum m) n op <;> rfl

theorem State.scrOwnWrite_given (s : State) (m : Master) (n op v : Nat) : s.scrOwnWrite m n op (some v) =
    ((s.wr F.busScrOwnGiveTo n v).ownOp (masterNum m) n op).getD (s.errResp m (regAddr .busScrOwn n) true .owner) := by
  unfold State.scrOwnWrite
  dsimp only
  cases (s.wr F.busScrOwnGiveTo n v).ownOp (masterNum m) n op <;> rfl

theorem completes_scratchClaim (hr : s.reaches m 18 true = true) (n : BankId) : Completes (.scratchClaim m n) s fun t =>
    (s.claimOk (masterNum m) n = true → t.bankState n = 1 ∧ t.bankOwner n = masterNum m) ∧
    (s.claimOk (masterNum m) n = false → t.word .busScrOwn n = s.word .busScrOwn n ∧
      t.word .busErrResp (masterNum m) = s.word .busErrResp (masterNum m) + 1) := by
  obtain ⟨x, counted, run⟩ := s.byReg_ok m .busScrOwn n 4 true (·.scrOwnWrite m n 1 none) hr
  refine ⟨_, congrArg Host.Outcome.next run, ?_⟩
  rw [← counted.claimOk (by decide) (by decide), ← counted.word .busScrOwn (by decide), ← counted.word .busErrResp (by decide),
    State.scrOwnWrite_alone, State.ownOp_claim]
  refine ⟨fun claim => ?_, fun held => ?_⟩
  · rw [if_pos claim]
    exact ⟨(x.bank_setBank ..).1, (x.bank_setBank ..).2.trans (masterNum_lt m)⟩
  · rw [if_neg (by rw [held]; decide)]
    exact x.bank_errResp ..

theorem completes_scratchRelease (hr : s.reaches m 18 true = true) (n : BankId) : Completes (.scratchRelease m n) s fun t =>
    (s.bankState n = 1 → s.bankOwner n = masterNum m → t.bankState n = 0 ∧ t.bankOwner n = 0) ∧
    (s.bankState n ≠ 1 ∨ s.bankOwner n ≠ masterNum m → t.word .busScrOwn n = s.word .busScrOwn n ∧
      t.word .busErrResp (masterNum m) = s.word .busErrResp (masterNum m) + 1) := by
  obtain ⟨x, counted, run⟩ := s.byReg_ok m .busScrOwn n 4 true (·.scrOwnWrite m n 2 none) hr
  obtain ⟨state, owner⟩ := counted.bank (by decide) n
  refine ⟨_, congrArg Host.Outcome.next run, ?_⟩
  rw [← state, ← owner, ← counted.word .busScrOwn (by decide), ← counted.word .busErrResp (by decide), State.scrOwnWrite_alone,
    State.ownOp_release]
  refine ⟨fun owned mine => ?_, fun other => ?_⟩
  · rw [if_pos ⟨owned, mine⟩]
    exact x.bank_setBank ..
  · rw [if_neg fun own => other.elim (· own.1) (· own.2)]
    exact x.bank_errResp ..

theorem completes_scratchGive (hr : s.reaches m 18 true = true) (n : BankId) (dest : BitVec 3) : Completes (.scratchGive m n dest) s fun t =>
    (s.bankState n = 1 → s.bankOwner n = masterNum m → 1 ≤ dest.toNat → dest.toNat ≤ 3 → t.bankState n = 1 ∧ t.bankOwner n = dest.toNat ∧
      t.rdBit F.busDbPendPend dest.toNat n = true) ∧
    (s.bankState n ≠ 1 ∨ s.bankOwner n ≠ masterNum m ∨ dest.toNat = 0 ∨ 3 < dest.toNat → t.word .busScrOwn n = s.word .busScrOwn n ∧
      t.word .busErrResp (masterNum m) = s.word .busErrResp (masterNum m) + 1) := by
  obtain ⟨x, counted, run⟩ := s.byReg_ok m .busScrOwn n 4 true (·.scrOwnWrite m n 3 (some dest.toNat)) hr
  obtain ⟨state, owner⟩ := counted.bank (by decide) n
  have given : (x.wr F.busScrOwnGiveTo n dest.toNat).rd F.busScrOwnGiveTo n = dest.toNat :=
    (State.rd_wr _ _ _ _ (by decide)).trans (Nat.mod_eq_of_lt dest.isLt)
  have state' : (x.wr F.busScrOwnGiveTo n dest.toNat).bankState n = s.bankState n := (State.rd_wr_apart _ _ _ _ (by decide) (by decide)).trans state
  have owner' : (x.wr F.busScrOwnGiveTo n dest.toNat).bankOwner n = s.bankOwner n := (State.rd_wr_apart _ _ _ _ (by decide) (by decide)).trans owner
  refine ⟨_, congrArg Host.Outcome.next run, ?_⟩
  rw [← counted.word .busScrOwn (by decide), ← counted.word .busErrResp (by decide), State.scrOwnWrite_given, State.ownOp_give given, state', owner']
  refine ⟨fun owned mine low high => ?_, fun other => ?_⟩
  · rw [if_pos ⟨owned, mine, low, high⟩]
    exact State.bank_bankGiven ..
  · rw [if_neg (by omega)]
    exact x.bank_errResp ..

theorem completes_remapWrite (hr : s.reaches m 18 true = true) (he : s.expert m = true) (remap : Bool) :
    Completes (.remapWrite m remap) s fun t => t.flag F.sysCtrlRemap 0 = remap := by
  obtain ⟨x, counted, run⟩ := s.byReg_ok m .sysCtrl 0 8 true (fun s => s.expertOnly m (regAddr .sysCtrl 0) fun s =>
    s.setFlag F.sysCtrlRemap 0 remap) hr
  refine ⟨_, congrArg Host.Outcome.next (run.trans (x.expertOnly_ok m _ _ ((counted.expert (by decide) m).trans he))), ?_⟩
  exact State.flag_setFlag _ _ _ _ rfl (by decide)

/-! ### Semaphores (12 R327, R328) -/

/-- A semaphore's owner written, and nothing else. -/
def State.setSemOwner (s : State) (i a : Nat) : State := { s with bus := { s.bus with semOwner := Tbl.set 0 s.bus.semOwner i a } }

theorem State.semSet_shared (s : State) (i a who : Nat) : (s.semSet i a who).shared = (s.setSemOwner i a).shared := by
  unfold State.semSet
  dsimp only
  split
  · exact State.shared_of_unlogged (State.unlogged_recoverySync.trans (State.unlogged_logEvent ..))
  · rfl

theorem State.semSet_facts (s : State) (i a who : Nat) : (∀ j : Nat, (s.semSet i a who).semOwner j = if j = i then a else s.semOwner j) ∧
    (s.semSet i a who).bus.semTick = s.bus.semTick ∧ (s.semSet i a who).bus.waiting = s.bus.waiting := by
  obtain ⟨-, owners, ticks, -⟩ := State.shared_facts (s.semSet_shared i a who)
  refine ⟨fun j => ?_, ticks, ?_⟩
  · unfold State.semOwner
    rw [owners]
    exact Tbl.get_set ..
  · unfold State.semSet
    dsimp only
    split
    · obtain ⟨-, -, -, waiting, -⟩ := State.unlogged_facts (State.unlogged_recoverySync.trans
        (State.unlogged_logEvent (s := (s.setSemOwner i a).wr F.busStatusSem0Holder 0 a) 0x41 0 who 0 0 true))
      exact waiting
    · rfl

theorem State.semOwner_semFree (s : State) (i : Nat) : (s.semFree i).semOwner i = 0 := by
  unfold State.semFree
  split
  next free => exact free
  next => exact ((s.semSet_facts ..).1 i).trans (if_pos rfl)

theorem Within.semArmed {k : Foot} {t : State} (h : Within k s t) (ht : k.hasComp .tick = false) (hs : t.shared = s.shared) (a cyc : Nat) :
    t.semArmed a cyc = s.semArmed a cyc := by
  obtain ⟨-, -, -, armed, -⟩ := State.shared_facts hs
  unfold State.semArmed State.busTime
  rw [armed, h.tick ht]

theorem State.semOwner_of_shared {s t : State} (h : t.shared = s.shared) (i : Nat) : t.semOwner i = s.semOwner i := by
  obtain ⟨-, owners, -⟩ := State.shared_facts h
  exact congrArg (Tbl.get 0 · i) owners

/-- A semaphore taken: its tick, the count and its owner. -/
def State.semTaken (s : State) (a i : Nat) : State :=
  (({ s with bus := { s.bus with semTick := Tbl.set 0 s.bus.semTick i s.now } } : State).count .busSemTaken 0).semSet i a a

theorem State.semTry_granted (s : State) {a i cyc : Nat} (allowed : i ≠ 0 ∨ s.semArmed a cyc = true) (free : s.semOwner i = 0) :
    s.semTry a i cyc = (2 ^ 63 + a, s.semTaken a i) := by
  unfold State.semTry
  dsimp only
  have open_ : ¬(i = 0 && !s.semArmed a cyc : Bool) = true := by
    obtain other | armed := allowed
    · simp [other]
    · simp [armed]
  rw [if_neg open_, if_pos free]
  rfl

theorem State.semTry_held (s : State) {a i : Nat} (cyc : Nat) (held : s.semOwner i ≠ 0) (other : s.semOwner i ≠ a) :
    s.semTry a i cyc = (s.semOwner i, s) := by
  unfold State.semTry
  dsimp only
  split
  · rfl
  · rw [show b2n (s.semOwner i = a : Bool) = 0 by simp [b2n, other], Nat.zero_mul, Nat.zero_add]

theorem completes_semTry (hr : s.reaches m 17 false = true) (i : SemId) (cyc : Nat) : Completes (.semTry m i cyc) s fun t =>
    (i.val ≠ 0 ∨ s.semArmed (masterNum m) cyc = true → s.semOwner i = 0 → t.semOwner i = masterNum m ∧
      Tbl.get {} t.bus.answers (masterNum m) = ⟨true, toBytes 8 (2 ^ 63 + masterNum m)⟩ ∧ Tbl.get 0 t.bus.semTick i = s.now) ∧
    (s.semOwner i ≠ 0 → s.semOwner i ≠ masterNum m → t.semOwner i = s.semOwner i ∧
      Tbl.get {} t.bus.answers (masterNum m) = ⟨true, toBytes 8 (s.semOwner i)⟩) := by
  obtain ⟨x, counted, shared, run⟩ := s.byTarget_ok_shared m 17 (semAddr i 0) 8 false (fun s =>
    (s.semTry (masterNum m) i cyc).2.answer m true (toBytes 8 (s.semTry (masterNum m) i cyc).1)) hr
  have now : x.now = s.now := counted.rd (by decide) 0
  refine ⟨_, congrArg Host.Outcome.next run, ?_⟩
  rw [← counted.semArmed (by decide) shared, ← State.semOwner_of_shared shared, ← now]
  refine ⟨fun allowed free => ?_, fun held other => ?_⟩
  · rw [x.semTry_granted allowed free]
    obtain ⟨owner, ticks, -⟩ := (({ x with bus := { x.bus with semTick := Tbl.set 0 x.bus.semTick i x.now } } : State).count
      .busSemTaken 0).semSet_facts i (masterNum m) (masterNum m)
    exact ⟨(owner i).trans (if_pos rfl), State.answers_answer .., (congrArg (Tbl.get 0 · i.val) ticks).trans (Tbl.get_set_same ..)⟩
  · rw [x.semTry_held cyc held other]
    exact ⟨rfl, State.answers_answer ..⟩

/-- A semaphore write is the one its offset names. -/
theorem State.semWrite_at (s : State) (m : Master) (i data cyc : Nat) :
    s.semWrite m (0x40 * i + 0x08) data cyc = s.semRelease m i ∧ s.semWrite m (0x40 * i + 0x18) data cyc = s.semArm m i data cyc ∧
    s.semWrite m (0x40 * i + 0x20) data cyc = s.semForce m i := by
  have place : ∀ off, off < 0x40 → (0x40 * i + off) / 0x40 = i ∧ (0x40 * i + off) % 0x40 = off := fun off small => by omega
  unfold State.semWrite
  rw [(place 0x08 (by decide)).1, (place 0x08 (by decide)).2, (place 0x18 (by decide)).1, (place 0x18 (by decide)).2,
    (place 0x20 (by decide)).1, (place 0x20 (by decide)).2]
  exact ⟨rfl, rfl, rfl⟩

/-- A semaphore write that its target takes. -/
theorem State.semCmd_ok (hr : s.reaches m 17 true = true) (i off data cyc : Nat) :
    ∃ x, Within .counted s x ∧ x.shared = s.shared ∧
      ∀ y, x.semWrite m (0x40 * i + off) data cyc = (none, y) → s.semCmd m i off data cyc = y := by
  obtain ⟨x, counted, shared, run⟩ := s.byTarget_ok_shared m 17 (semAddr i off) 8 true (fun s =>
    match s.semWrite m (0x40 * i + off) data cyc with
    | (none, s) => s
    | (some c, s) => s.errResp m (semAddr i off) true c) hr
  refine ⟨x, counted, shared, fun y taken => Eq.trans run ?_⟩
  rw [taken]

theorem completes_semRelease (hr : s.reaches m 17 true = true) (i : SemId) (mine : s.semOwner i = masterNum m) :
    Completes (.semRelease m i) s fun t => t.semOwner i = 0 := by
  obtain ⟨x, -, shared, run⟩ := State.semCmd_ok hr i 0x08 0 0
  have freed : x.semRelease m i = (none, x.semFree i) := if_pos ((State.semOwner_of_shared shared i).trans mine)
  exact ⟨_, congrArg Host.Outcome.next (run _ ((x.semWrite_at ..).1.trans freed)), x.semOwner_semFree i⟩

theorem completes_semArm (hr : s.reaches m 17 true = true) (i : SemId) (cyc : Nat) (first : i.val = 0) :
    Completes (.semArm m i 0x5EC0 cyc) s fun t => t.semArmed (masterNum m) cyc = true ∧ t.semOwner i = s.semOwner i := by
  obtain ⟨x, -, shared, run⟩ := State.semCmd_ok hr i 0x18 0x5EC0 cyc
  have armed : x.semArm m i 0x5EC0 cyc =
      (none, { x with bus := { x.bus with armed := Tbl.set 0 x.bus.armed (masterNum m) (x.busTime cyc + 1) } }) := if_pos (by simp [first])
  refine ⟨_, congrArg Host.Outcome.next (run _ ((x.semWrite_at ..).2.1.trans armed)), ?_, State.semOwner_of_shared shared i⟩
  unfold State.semArmed
  dsimp only
  rw [Tbl.get_set_same]
  exact Bool.and_eq_true_iff.2 ⟨decide_eq_true (Nat.succ_ne_zero _), decide_eq_true (Nat.le_add_right (x.busTime cyc + 1) (3 * 1024))⟩

theorem completes_semForce (hr : s.reaches m 17 true = true) (i : SemId) (he : s.expert m = true) (held : s.semOwner i ≠ 0) :
    Completes (.semForce m i) s fun t => t.semOwner i = 0 ∧ t.word .busSemForced 0 = s.word .busSemForced 0 + 1 := by
  obtain ⟨x, counted, shared, run⟩ := State.semCmd_ok hr i 0x20 0 0
  have forced : x.semForce m i = (none, (x.semFree i).count .busSemForced 0) := by
    unfold State.semForce
    rw [(counted.expert (by decide) m).trans he, if_neg (by decide), if_neg (by rwa [State.semOwner_of_shared shared])]
  refine ⟨_, congrArg Host.Outcome.next (run _ ((x.semWrite_at ..).2.2.trans forced)), x.semOwner_semFree i, ?_⟩
  rw [State.word_count, (x.semFree_within i).word _ (by decide), counted.word _ (by decide)]

/-! ### Master resets (12 R329) -/

theorem maskOf_succ (n : Nat) (p : Nat → Bool) : maskOf (n + 1) p = if p n then maskOf n p + 2 ^ n else maskOf n p := by
  unfold maskOf
  rw [List.range_succ, List.foldl_append]
  rfl

theorem maskOf_lt (n : Nat) (p : Nat → Bool) : maskOf n p < 2 ^ n := by
  induction n with
  | zero => exact Nat.one_pos
  | succ n ih =>
    rw [maskOf_succ, Nat.pow_succ]
    split <;> omega

theorem bit_maskOf (p : Nat → Bool) {n i : Nat} (hi : i < n) : bit (maskOf n p) i = p i := by
  rw [bit_eq_testBit]
  induction n with
  | zero => exact absurd hi (Nat.not_lt_zero i)
  | succ n ih =>
    have top : (maskOf n p).testBit n = false := Nat.testBit_lt_two_pow (maskOf_lt n p)
    rw [maskOf_succ]
    obtain low | rfl := Nat.lt_succ_iff_lt_or_eq.1 hi
    · split
      · rw [Nat.add_comm, Nat.testBit_two_pow_add_gt low]
        exact ih low
      · exact ih low
    · split
      next set => rw [Nat.add_comm, Nat.testBit_two_pow_add_eq, top, set, Bool.not_false]
      next clear => rw [top, Bool.eq_false_iff.2 clear]

/-- The queue without a master's bursts, and the windows without its reads. -/
def State.masterQueues (s : State) (a : Nat) : State :=
  { s with bus := { s.bus with waiting := s.bus.waiting.filter fun r => masterNum r.master ≠ a },
           alm := { s.alm with window := s.alm.window.filter fun w => masterNum w.master ≠ a || w.read = 0 } }

/-- The semaphores of a master. -/
def State.semMask (s : State) (a : Nat) : Nat := maskOf 64 fun i => s.semOwner i = a

/-- The banks a master owns. -/
def State.bankMask (s : State) (a : Nat) : Nat := maskOf 16 fun n => s.bankState n = bankOwned && s.bankOwner n = a

/-- One semaphore freed where a mask names it. -/
def State.semFreeIn (mask i : Nat) (s : State) : State := if bit mask i then s.semFree i else s

/-- One bank orphaned where a mask names it. -/
def State.orphanIn (mask n : Nat) (s : State) : State := if bit mask n then s.wr F.busScrOwnState n bankOrphaned else s

/-- The semaphores of one mask freed, the banks of another orphaned. -/
def State.masterFreed (s : State) (sems banks : Nat) : State := (s.eachN 64 (State.semFreeIn sems)).eachN 16 (State.orphanIn banks)

/-- A master reset counted, logged and told. -/
def State.masterTold (s : State) (a sems banks : Nat) : State :=
  (((s.setFlag (if a = 1 then F.busStatusPeerResetA else if a = 2 then F.busStatusPeerResetB else F.busStatusPeerResetBl) 0 true).count
    .busResets a).logEvent 0x42 0 a sems banks true).irqSync

theorem State.masterReset_eq (s : State) (a : Nat) : s.masterReset a =
    ((s.masterQueues a).masterFreed (s.semMask a) (s.bankMask a)).masterTold a (s.semMask a) (s.bankMask a) := rfl

theorem State.semFreeIn_within (mask i : Nat) (s : State) : Within (.of [.log, .pm, .events, .bus] [.busStatus, .busGrants, .logState,
    .logEvbEntries, .logDropped, .logEvbLost, .logEntries, .sysIntSrc]) s (s.semFreeIn mask i) :=
  .ite (s.semFree_within i) (.refl ..)

theorem State.semFreeIn_other (mask : Nat) {i k : Nat} (s : State) (other : k ≠ i) : (s.semFreeIn mask k).semOwner i = s.semOwner i := by
  unfold State.semFreeIn State.semFree
  split
  · split
    · rfl
    · exact ((s.semSet_facts ..).1 i).trans (if_neg other.symm)
  · rfl

theorem State.semFreeIn_waiting (mask i : Nat) (s : State) : (s.semFreeIn mask i).bus.waiting = s.bus.waiting := by
  unfold State.semFreeIn State.semFree
  split
  · split
    · rfl
    · exact (s.semSet_facts ..).2.2
  · rfl

theorem State.orphanIn_bus (mask n : Nat) (s : State) : (s.orphanIn mask n).bus = s.bus := by
  unfold State.orphanIn
  split <;> rfl

theorem State.masterFreed_bus (s : State) (sems banks : Nat) : (s.masterFreed sems banks).bus = (s.eachN 64 (State.semFreeIn sems)).bus :=
  State.eachN_keeps (·.bus) 16 _ _ fun n y => State.orphanIn_bus banks n y

/-- A semaphore that the mask names is free afterwards. -/
theorem State.semOwner_masterFreed (s : State) (banks : Nat) {sems i : Nat} (hi : i < 64) (mine : bit sems i = true) :
    (s.masterFreed sems banks).semOwner i = 0 := by
  unfold State.semOwner
  rw [State.masterFreed_bus]
  obtain ⟨y, -, freed⟩ := State.eachN_read_round (·.semOwner i) hi s (State.semFreeIn sems) fun k y other => State.semFreeIn_other sems y other
  refine Eq.trans freed ?_
  unfold State.semFreeIn
  rw [if_pos mine]
  exact y.semOwner_semFree i

/-- A bank that the mask names is orphaned, its owner as before. -/
theorem State.bank_masterFreed (s : State) (sems : Nat) {banks n : Nat} (hn : n < 16) (mine : bit banks n = true) :
    (s.masterFreed sems banks).bankState n = 2 ∧ (s.masterFreed sems banks).bankOwner n = s.bankOwner n := by
  have freed : Within (.of [.log, .pm, .events, .bus] [.busStatus, .busGrants, .logState, .logEvbEntries, .logDropped, .logEvbLost, .logEntries,
      .sysIntSrc]) s (s.eachN 64 (State.semFreeIn sems)) := .eachN _ _ (.refl ..) fun i y h => .after (y.semFreeIn_within sems i) h (by decide)
  constructor
  · obtain ⟨y, -, orphaned⟩ := State.eachN_read_round (·.bankState n) hn (s.eachN 64 (State.semFreeIn sems)) (State.orphanIn banks)
      fun k y other => by
        unfold State.orphanIn
        split
        · exact State.rd_wr_other _ _ (.inl other.symm) (by decide)
        · rfl
    refine Eq.trans orphaned ?_
    unfold State.orphanIn
    rw [if_pos mine]
    exact State.rd_wr _ _ _ _ (by decide)
  · refine (State.eachN_keeps (·.bankOwner n) 16 _ _ fun k y => ?_).trans (freed.rd (by decide) n)
    unfold State.orphanIn
    split
    · exact State.rd_wr_other _ _ (.inr (by decide)) (by decide)
    · rfl

/-- What telling a master reset leaves of the queue, the semaphores, the banks and the ports, and what it counts. -/
theorem State.masterTold_facts (s : State) (a sems banks : Nat) : (s.masterTold a sems banks).bus.waiting = s.bus.waiting ∧
    (∀ i : Nat, (s.masterTold a sems banks).semOwner i = s.semOwner i) ∧
    (∀ n : Nat, (s.masterTold a sems banks).bankState n = s.bankState n ∧ (s.masterTold a sems banks).bankOwner n = s.bankOwner n) ∧
    (s.masterTold a sems banks).word .busResets a = s.word .busResets a + 1 ∧
    ∀ p : Nat, (Tbl.get {} (s.masterTold a sems banks).irqs p).config = (Tbl.get {} s.irqs p).config := by
  unfold State.masterTold
  generalize flag : (if a = 1 then F.busStatusPeerResetA else if a = 2 then F.busStatusPeerResetB else F.busStatusPeerResetBl) = f
  have status : f.reg = .busStatus := by
    rw [← flag]
    split
    · rfl
    · split <;> rfl
  have shown : Within (.of [] [.busStatus]) s (s.setFlag f 0 true) := .setFlag _ _ _ (.refl ..) (by rw [status]; decide)
  have counted : Within (.of [] [.busStatus, .busResets]) s ((s.setFlag f 0 true).count .busResets a) :=
    .count _ _ (shown.mono (by decide)) (by decide)
  generalize told : ((s.setFlag f 0 true).count .busResets a).logEvent 0x42 0 a sems banks true = y
  have logged : Within State.logEvent_foot ((s.setFlag f 0 true).count .busResets a) y := told ▸ State.logEvent_within ..
  obtain ⟨-, -, -, waiting, owners, -⟩ := State.unlogged_facts (told ▸ State.unlogged_logEvent (s := (s.setFlag f 0 true).count .busResets a)
    0x42 0 a sems banks true)
  refine ⟨?_, fun i => ?_, fun n => ?_, ?_, fun p => ?_⟩
  · rw [State.irqSync_bus, waiting, counted.bus (by decide)]
  · unfold State.semOwner
    rw [State.irqSync_bus, owners, counted.bus (by decide)]
  · exact (State.irqSync_within y).bank (by decide) n |>.imp
      (·.trans ((logged.bank (by decide) n).1.trans (counted.bank (by decide) n).1))
      (·.trans ((logged.bank (by decide) n).2.trans (counted.bank (by decide) n).2))
  · rw [State.word_irqSync, logged.word _ (by decide), State.word_count, shown.word _ (by decide)]
  · rw [State.config_irqSync, logged.irqs (by decide), counted.irqs (by decide)]

/-- What freeing semaphores and banks leaves of the queue, the count of resets and the ports. -/
theorem State.masterFreed_facts (s : State) (sems banks : Nat) : (s.masterFreed sems banks).bus.waiting = s.bus.waiting ∧
    (∀ a : Nat, (s.masterFreed sems banks).word .busResets a = s.word .busResets a) ∧ (s.masterFreed sems banks).irqs = s.irqs := by
  have freed : Within (.of [.log, .pm, .events, .bus] [.busScrOwn, .busStatus, .busGrants, .logState, .logEvbEntries, .logDropped, .logEvbLost,
      .logEntries, .sysIntSrc]) s (s.masterFreed sems banks) :=
    .eachN _ _ (.eachN _ _ (.refl ..) fun i y h => .after (y.semFreeIn_within sems i) h (by decide))
      fun n y h => .ite (.wr _ _ _ h (by decide)) h
  refine ⟨?_, freed.word _ (by decide), freed.irqs (by decide)⟩
  rw [State.masterFreed_bus]
  exact State.eachN_keeps (·.bus.waiting) 64 _ _ fun i y => State.semFreeIn_waiting sems i y

theorem State.masterReset_facts (s : State) (a : Nat) : (s.masterReset a).bus.waiting = s.bus.waiting.filter (fun r => masterNum r.master ≠ a) ∧
    (s.masterReset a).word .busResets a = s.word .busResets a + 1 ∧
    (∀ i : Nat, i < 64 → s.semOwner i = a → (s.masterReset a).semOwner i = 0) ∧
    (∀ n : Nat, n < 16 → s.bankState n = 1 → s.bankOwner n = a → (s.masterReset a).bankState n = 2 ∧ (s.masterReset a).bankOwner n = a) ∧
    (∀ p : Nat, (Tbl.get {} (s.masterReset a).irqs p).config = (Tbl.get {} s.irqs p).config) := by
  rw [State.masterReset_eq]
  generalize sems : s.semMask a = sm
  generalize banks : s.bankMask a = bm
  obtain ⟨waiting, owners, states, counted, ports⟩ := ((s.masterQueues a).masterFreed sm bm).masterTold_facts a sm bm
  obtain ⟨waiting', counted', ports'⟩ := (s.masterQueues a).masterFreed_facts sm bm
  refine ⟨waiting.trans waiting', ?_, fun i hi mine => ?_, fun n hn owned mine => ?_, fun p => ?_⟩
  · rw [counted, counted']
    rfl
  · rw [owners]
    refine State.semOwner_masterFreed _ bm hi ?_
    rw [← sems]
    exact (bit_maskOf _ hi).trans (decide_eq_true mine)
  · obtain ⟨orphaned, owner⟩ := (s.masterQueues a).bank_masterFreed sm (banks := bm) hn
      (by rw [← banks]; exact (bit_maskOf _ hn).trans (by simp [owned, mine]))
    exact ⟨(states n).1.trans orphaned, (states n).2.trans (owner.trans mine)⟩
  · rw [ports, ports']
    rfl

theorem State.setPort_facts (s : State) (a : Nat) (p : IrqH) : Tbl.get {} (s.setPort a p).irqs a = p ∧ (s.setPort a p).bus = s.bus ∧
    (∀ i : Nat, (s.setPort a p).semOwner i = s.semOwner i) ∧ (∀ n : Nat, (s.setPort a p).bankState n = s.bankState n) ∧
    (∀ n : Nat, (s.setPort a p).bankOwner n = s.bankOwner n) ∧ (∀ (r : Reg) (i : Nat), (s.setPort a p).word r i = s.word r i) ∧
    (s.setPort a p).core = s.core :=
  ⟨Tbl.get_set_same .., rfl, fun _ => rfl, fun _ => rfl, fun _ => rfl, fun _ _ => rfl, rfl⟩

/-- A master reset as it runs: at the boot loader the reset alone, at a host port the port begun again as well. -/
theorem exec_masterReset (s : State) (m : Master) (linkDown : Bool) (known : masterNum m ≤ 3) : exec (.masterReset m linkDown) s =
    .next (if masterNum m = 3 then s.masterReset 3 else (s.masterReset (masterNum m)).setPort (masterNum m)
      ((Tbl.get {} (s.masterReset (masterNum m)).irqs (masterNum m)).restart linkDown)) :=
  congrArg Host.Outcome.next (if_neg (by omega))

theorem completes_masterReset (linkDown : Bool) (known : masterNum m ≤ 3) (n : BankId) (i : SemId) : Completes (.masterReset m linkDown) s fun t =>
    (∀ r ∈ t.bus.waiting, r.master ≠ m) ∧ t.word .busResets (masterNum m) = s.word .busResets (masterNum m) + 1 ∧
    (s.semOwner i = masterNum m → t.semOwner i = 0) ∧
    (s.bankState n = 1 → s.bankOwner n = masterNum m → t.bankState n = 2 ∧ t.bankOwner n = masterNum m) ∧
    (masterNum m ≠ 3 → (Tbl.get {} t.irqs (masterNum m)).up = ((Tbl.get {} s.irqs (masterNum m)).up && !linkDown) ∧
      (Tbl.get {} t.irqs (masterNum m)).d3hot = false) ∧ t.core = s.core := by
  obtain ⟨waiting, counted, sems, banks, ports⟩ := s.masterReset_facts (masterNum m)
  have gone : ∀ r ∈ (s.masterReset (masterNum m)).bus.waiting, r.master ≠ m := by
    rw [waiting]
    intro r left same
    exact of_decide_eq_true (List.mem_filter.1 left).2 (congrArg masterNum same)
  have core : (s.masterReset (masterNum m)).core = s.core := (State.masterReset_within ..).core (by decide)
  refine ⟨_, exec_masterReset s m linkDown known, ?_⟩
  split
  next loader =>
    rw [loader] at gone counted sems banks core ⊢
    exact ⟨gone, counted, sems i i.isLt, banks n n.isLt, fun host => absurd rfl host, core⟩
  next =>
    obtain ⟨port, bus, owners, states, bankOwners, words, core'⟩ := (s.masterReset (masterNum m)).setPort_facts (masterNum m)
      ((Tbl.get {} (s.masterReset (masterNum m)).irqs (masterNum m)).restart linkDown)
    rw [port, bus, owners, states, bankOwners, words, core']
    exact ⟨gone, counted, sems i i.isLt, banks n n.isLt,
      fun _ => ⟨congrArg (· && !linkDown) (IrqH.config_facts (ports (masterNum m))).1, rfl⟩, core⟩

end

/-- Settles O53: each command by the one operation it makes on what it hands over, and a master reset by the masks taken before it. -/
theorem sharedResourcesChangeHands : Obligations.SharedResourcesChangeHands := fun _ n i cyc _ =>
  ⟨fun hr => ⟨completes_scratchClaim hr n, completes_scratchRelease hr n, completes_scratchGive hr n, completes_remapWrite hr⟩,
    fun hr => completes_semTry hr i cyc,
    fun hr => ⟨completes_semRelease hr i, completes_semArm hr i cyc, completes_semForce hr i⟩,
    fun linkDown known => completes_masterReset linkDown known n i⟩

end Sys2Proof.Machine

/-! Scratch words: what a word without errors is read as, and what a write of it leaves (12 R319, R322; 11 R284). -/

namespace Sys2Proof.Machine

section
variable {s : State}

theorem State.scratchWord_lt (s : State) (k w : Nat) : s.scratchWord k w < 2 ^ 64 := BitVec.isLt _

theorem State.scratchWord_of_shared {s t : State} (h : t.shared = s.shared) (k w : Nat) : t.scratchWord k w = s.scratchWord k w := by
  obtain ⟨words, -⟩ := State.shared_facts h
  unfold State.scratchWord
  rw [words]

theorem State.scratchWord_setScratch (s : State) (k w : Nat) {v : Nat} (small : v < 2 ^ 64) : (s.setScratch k w v).scratchWord k w = v := by
  unfold State.scratchWord State.setScratch
  dsimp only
  rw [Tbl.get_set_same, BitVec.toNat_ofNat, Nat.mod_eq_of_lt small]

/-- What a sound scratch word means. -/
theorem State.scratchSound_iff (s : State) (k w : Nat) : s.scratchSound k w = true ↔ s.available (1 + k) = true ∧ s.bankReadRefused k = false ∧
    Tbl.get [] s.ecc.damage (eccAddr 6 k w) = [] ∧ Tbl.get [] s.ecc.stuck (eccAddr 6 k w) = [] := by
  simp only [State.scratchSound, Bool.and_eq_true, Bool.not_eq_true', List.isEmpty_iff, and_assoc]

/-- A word without an upset bit and without a stuck cell is read as it stands. -/
theorem State.scratchGet_sound {k w : Nat} (sound : s.scratchSound k w = true) : s.scratchGet k w = (.data (s.scratchWord k w), s) := by
  obtain ⟨-, -, whole, free⟩ := (s.scratchSound_iff k w).1 sound
  unfold State.scratchGet State.sramRead State.wrongBits
  rw [whole, free]
  rfl

/-- What a word's soundness rests on. -/
theorem Within.scratchSound {f : Foot} {t : State} (h : Within f s t) (hb : f.hasComp .boot = false) (he : f.hasComp .ecc = false)
    (hr : f.hasReg .busScrOwn = false) (h1 : f.hasReg .hbmState = false) (h2 : f.hasReg .lagState = false) (k w : Nat) :
    t.scratchSound k w = s.scratchSound k w := by
  unfold State.scratchSound State.available State.bankReadRefused
  rw [h.boot hb, h.ecc he, (h.bank hr k).1, h.rdBit (f := F.hbmStateInitDone) h1, h.rdBit (f := F.lagStateStackLost) h2,
    h.rdBit (f := F.lagStateRestoring) h2]

/-- A static word's damage gone, its write-back and its restore cancelled. -/
def State.wordFreed (s : State) (a : Nat) : State :=
  { s with ecc := { s.ecc with
    damage := Tbl.erase a s.ecc.damage, restores := s.ecc.restores.filter (·.1 ≠ a), persist := s.ecc.persist.filter (· ≠ a)
    writeback := s.ecc.writeback.filter fun n => s.rd F.eccTrackAddr n.1 ≠ a } }

/-- A word's COUNTING entry begun again. -/
def State.trackBegun (s : State) (a : Nat) : State :=
  match trackWith fun n => s.rd F.eccTrackState n = 1 && s.rd F.eccTrackAddr n = a with
  | some n => s.wr F.eccTrackCount n 0
  | none => s

/-- TABLE_UE_PERSIST cleared. -/
def State.persistEnded (s : State) (ended : Bool) : State :=
  if ended then (s.setFlag F.eccStatusPersist 0 false).clear A.tableUePersist 0 else s

theorem State.fullWrite_eq (s : State) (a : Nat) : s.fullWrite a =
    ((s.wordFreed a).trackBegun a).persistEnded (!s.ecc.persist.isEmpty && ((s.wordFreed a).trackBegun a).ecc.persist.isEmpty) := rfl

theorem State.shared_trackBegun (a : Nat) : (s.trackBegun a).shared = s.shared := by
  unfold State.trackBegun
  split
  · exact (Within.wr (f := .of [] [.eccTrack]) _ _ _ (.refl ..) (by decide)).shared (by decide)
  · rfl

theorem State.shared_persistEnded (ended : Bool) : (s.persistEnded ended).shared = s.shared := by
  unfold State.persistEnded
  split
  · exact State.shared_of_unlogged (State.unlogged_clear (s := s.setFlag F.eccStatusPersist 0 false) ..)
  · rfl

theorem State.shared_wordFreed (a : Nat) : (s.wordFreed a).shared = s.shared := rfl

theorem State.shared_fullWrite (a : Nat) : (s.fullWrite a).shared = s.shared := by
  rw [State.fullWrite_eq, State.shared_persistEnded, State.shared_trackBegun, State.shared_wordFreed]

theorem State.shared_mergedWrite (a : Nat) : (s.mergedWrite a).shared = s.shared := rfl

end

end Sys2Proof.Machine

/-! Doorbells and AtomicOps (12 R308, R324, R325). -/

namespace Sys2Proof.Machine

section
variable {s : State}

/-! ### An operation on a doorbell word (12 R324, R325) -/

/-- What a change of a doorbell word may touch beside the words and BUS_DB_PEND. -/
def Foot.doorbell : Foot := .of [.free, .tick, .act, .latch, .irqs, .log, .pm, .events, .ecc, .bus] [.almState, .almStageFail, .eccStatus, .eccLastUe,
  .eccTrack, .eccCorr, .eccUe, .eccPoison, .eccTrackFull, .busStatus, .busDbPend, .busGrants, .logState, .logEvbEntries, .logDropped, .logEvbLost,
  .logEntries, .sysIntSrc]

theorem State.dbPend_bus (s : State) (k n : Nat) : (s.dbPend k n).bus = s.bus := (s.dbPend_within k n).bus (by decide)

/-- A notice sets its own bit and no other. -/
theorem State.rdBit_dbPend (s : State) (j k : Nat) {n : Nat} (hn : n < 16) : (s.dbPend j n).rdBit F.busDbPendPend k n =
    (decide (k = j) || s.rdBit F.busDbPendPend k n) := by
  unfold State.dbPend
  rw [State.rdBit_irqSync]
  by_cases same : k = j
  · rw [same, State.rdBit_wrBit_same _ _ _ _ _ (by decide) hn, decide_eq_true rfl, Bool.true_or]
  · rw [decide_eq_false same, Bool.false_or]
    unfold State.rdBit State.wrBit
    rw [State.rd_wr_other _ _ (.inl same) (by decide)]

/-- Every master of a list notified. -/
def State.notifyAll (s : State) (l : List Nat) (n : Nat) : State := s.each l fun k s => s.dbPend k n

theorem State.notifyAll_bus (s : State) (l : List Nat) (n : Nat) : (s.notifyAll l n).bus = s.bus :=
  State.each_keeps (·.bus) _ _ _ fun k y => y.dbPend_bus k n

theorem State.rdBit_notifyAll (s : State) (l : List Nat) {n : Nat} (hn : n < 16) (k : Nat) :
    (s.notifyAll l n).rdBit F.busDbPendPend k n = (decide (k ∈ l) || s.rdBit F.busDbPendPend k n) := by
  unfold State.notifyAll State.each
  induction l generalizing s with
  | nil => simp
  | cons j l ih =>
    rw [List.foldl_cons, ih, State.rdBit_dbPend s j k hn, Bool.or_left_comm, ← Bool.or_assoc, List.decide_mem_cons, beq_eq_decide]

theorem Within.notified {f : Foot} {t : State} (h : Within f s t) (hr : f.hasReg .busScrOwn = false) (a n : Nat) :
    t.notified a n = s.notified a n := by
  obtain ⟨state, owner⟩ := h.bank hr n
  unfold State.notified
  rw [state, owner]

/-- A doorbell word stored, its code with it. -/
def State.doorbellPut (s : State) (n w : Nat) (wide : Bool) (v : Nat) : State :=
  if wide then (s.setScratch n w v).fullWrite (eccAddr 6 n w) else (s.setScratch n w v).mergedWrite (eccAddr 6 n w)

theorem State.doorbellPut_facts (s : State) {n w v : Nat} (wide : Bool) (small : v < 2 ^ 64) :
    Within .doorbell s (s.doorbellPut n w wide v) ∧ (s.doorbellPut n w wide v).scratchWord n w = v := by
  unfold State.doorbellPut
  cases wide with
  | true =>
    exact ⟨.after (State.fullWrite_within ..) (.after (State.setScratch_within ..) (.refl ..) (by decide)) (by decide),
      (State.scratchWord_of_shared (State.shared_fullWrite ..) n w).trans (s.scratchWord_setScratch n w small)⟩
  | false =>
    exact ⟨.after (State.mergedWrite_within ..) (.after (State.setScratch_within ..) (.refl ..) (by decide)) (by decide),
      (State.scratchWord_of_shared (State.shared_mergedWrite _) n w).trans (s.scratchWord_setScratch n w small)⟩

/-- What an operation of master number `a` on the doorbell word leaves, `v` the word's new value. -/
def DoorbellDone (a n w v : Nat) (s t : State) : Prop :=
  t.scratchWord n w = v ∧ (v ≠ s.scratchWord n w → ∀ k ∈ s.notified a n, t.rdBit F.busDbPendPend k n = true)

theorem State.doorbell_stored {n w : Nat} (sound : s.scratchSound n w = true) (hn : n < 16) (a : Nat) (wide : Bool) {f : Nat → Option Nat} {v : Nat}
    (result : f (s.scratchWord n w) = some v) (small : v < 2 ^ 64) :
    ∃ t, s.doorbell a n w wide f = (some (s.scratchWord n w), t) ∧ DoorbellDone a n w v s t := by
  obtain ⟨within, stored⟩ := s.doorbellPut_facts (n := n) (w := w) wide small
  have run : s.doorbell a n w wide f = (some (s.scratchWord n w), if v = s.scratchWord n w then s.doorbellPut n w wide v
      else (s.doorbellPut n w wide v).notifyAll ((s.doorbellPut n w wide v).notified a n) n) := by
    unfold State.doorbell
    rw [State.scratchGet_sound sound]
    dsimp only
    rw [result]
    rfl
  refine ⟨_, run, ?_⟩
  unfold DoorbellDone
  split
  next same => exact ⟨stored, fun changed => absurd same changed⟩
  next =>
    refine ⟨?_, fun _ k told => ?_⟩
    · unfold State.scratchWord
      rw [State.notifyAll_bus]
      exact stored
    · rw [State.rdBit_notifyAll _ _ hn, within.notified (by decide), decide_eq_true told, Bool.true_or]

theorem State.doorbell_left {n w : Nat} (sound : s.scratchSound n w = true) (a : Nat) (wide : Bool) {f : Nat → Option Nat}
    (result : f (s.scratchWord n w) = none) : s.doorbell a n w wide f = (some (s.scratchWord n w), s) := by
  unfold State.doorbell
  rw [State.scratchGet_sound sound]
  dsimp only
  rw [result]

/-- An operation on a sound doorbell word: what it returns, and the word it leaves, whether it stores it or leaves it. -/
theorem State.doorbell_sound {n w : Nat} (sound : s.scratchSound n w = true) (hn : n < 16) (a : Nat) (wide : Bool) {f : Nat → Option Nat} {v : Nat}
    (result : (f (s.scratchWord n w)).getD (s.scratchWord n w) = v) (small : v < 2 ^ 64) :
    ∃ t, s.doorbell a n w wide f = (some (s.scratchWord n w), t) ∧ DoorbellDone a n w v s t := by
  cases new : f (s.scratchWord n w) with
  | some u =>
    rw [new] at result
    exact State.doorbell_stored sound hn a wide (new.trans (congrArg some result)) small
  | none =>
    rw [new] at result
    exact ⟨s, State.doorbell_left sound a wide new, result, fun changed => absurd result.symm changed⟩

/-- The same of a state that differs by counts alone. -/
theorem DoorbellDone.of_counted {f : Foot} {x t : State} {a n w v : Nat} (counted : Within f s x) (hr : f.hasReg .busScrOwn = false)
    (shared : x.shared = s.shared) (done : DoorbellDone a n w v x t) : DoorbellDone a n w v s t := by
  unfold DoorbellDone at done ⊢
  rwa [State.scratchWord_of_shared shared, counted.notified hr] at done

/-- An answer leaves a doorbell word and its notices. -/
theorem DoorbellDone.answer {t : State} {a n w v : Nat} (done : DoorbellDone a n w v s t) (m : Master) (ok : Bool) (d : List Byte) :
    DoorbellDone a n w v s (t.answer m ok d) :=
  ⟨done.1, fun changed k told => (State.rdBit_answer ..).trans (done.2 changed k told)⟩

/-! ### AtomicOps (12 R308, R324) -/

theorem putField_lt {x lo w n : Nat} (v : Nat) (small : x < 2 ^ n) (fits : lo + w ≤ n) : putField x lo w v < 2 ^ n := by
  obtain ⟨k, rfl⟩ := Nat.exists_eq_add_of_le fits
  rw [Nat.pow_add] at small ⊢
  rw [Nat.mul_comm] at small ⊢
  exact (Nat.div_lt_iff_lt_mul (Nat.two_pow_pos _)).1 ((putField_div x lo w v).symm ▸ (Nat.div_lt_iff_lt_mul (Nat.two_pow_pos _)).2 small)

theorem putOperand_lt {wide : Bool} {addr d : Nat} (v : Nat) (small : d < 2 ^ 64) (aligned : addr % (if wide then 8 else 4) = 0) :
    putOperand wide addr d v < 2 ^ 64 := by
  cases wide with
  | true => exact Nat.mod_lt _ (by decide)
  | false => exact putField_lt v small (by change addr % 4 = 0 at aligned; omega)

theorem State.doorbellAt_lt {addr b w : Nat} (h : s.doorbellAt addr = some (b, w)) : b < 16 := by
  unfold State.doorbellAt at h
  split_ifs at h with bank window
  · simp only [Bool.and_eq_true, decide_eq_true_eq] at bank
    obtain ⟨rfl, -⟩ := Prod.ext_iff.1 (Option.some.inj h)
    dsimp only
    omega
  · obtain ⟨rfl, -⟩ := Prod.ext_iff.1 (Option.some.inj h)
    exact Nat.succ_pos 15

/-- The state a host port's AtomicOp is carried out on. -/
def State.atomicCounted (s : State) (m : Master) (t n : Nat) : State := ((s.hostMeter m true n).passOver m t).grantTo m t 1

theorem State.atomicCounted_within (s : State) (m : Master) (t n : Nat) : Within .counted s (s.atomicCounted m t n) :=
  .after (State.grantTo_within ..) (.after (State.passOver_within ..) ((State.hostMeter_within ..).mono (by decide)) (by decide)) (by decide)

theorem State.atomicCounted_shared (s : State) (m : Master) (t n : Nat) : (s.atomicCounted m t n).shared = s.shared := by
  unfold State.atomicCounted
  rw [State.shared_grantTo, State.shared_passOver, State.shared_hostMeter]

/-- What a port's AtomicOp on a sound doorbell word does: `v` the word it leaves. -/
theorem State.atomic_sound {p : Port} {addr b w v : Nat} {wide : Bool} {f : Nat → Option Nat}
    (up : (Tbl.get {} s.irqs (masterNum (portMaster p))).up = true) (awake : (Tbl.get {} s.irqs (masterNum (portMaster p))).d3hot = false)
    (idle : s.masterWaits (portMaster p) = false) (place : s.doorbellAt addr = some (b, w)) (aligned : addr % (if wide then 8 else 4) = 0)
    (sound : s.scratchSound b w = true)
    (result : ((f (getOperand wide addr (s.scratchWord b w))).map (putOperand wide addr (s.scratchWord b w))).getD (s.scratchWord b w) = v)
    (small : v < 2 ^ 64) : ∃ t, s.atomic p addr wide f =
      t.answer (portMaster p) true (toBytes (if wide then 8 else 4) (getOperand wide addr (s.scratchWord b w))) ∧
      DoorbellDone (masterNum (portMaster p)) b w v s t := by
  have counted := s.atomicCounted_within (portMaster p) (if addr < 64 then 0 else 1 + b) (if wide then 8 else 4)
  have shared := s.atomicCounted_shared (portMaster p) (if addr < 64 then 0 else 1 + b) (if wide then 8 else 4)
  generalize start : s.atomicCounted (portMaster p) (if addr < 64 then 0 else 1 + b) (if wide then 8 else 4) = x at counted shared
  have sound' : x.scratchSound b w = true :=
    (counted.scratchSound (by decide) (by decide) (by decide) (by decide) (by decide) b w).trans sound
  obtain ⟨available, readable, -⟩ := (x.scratchSound_iff b w).1 sound'
  have word := State.scratchWord_of_shared shared b w
  obtain ⟨t, run, done⟩ := State.doorbell_sound (f := fun d => (f (getOperand wide addr d)).map (putOperand wide addr d)) sound'
    (State.doorbellAt_lt place) (masterNum (portMaster p)) wide (by rw [word]; exact result) small
  refine ⟨t, ?_, done.of_counted counted (by decide) shared⟩
  unfold State.atomic
  dsimp only
  rw [up, awake, idle, if_neg (by decide), place]
  dsimp only
  rw [if_neg (by rw [aligned]; decide), ← State.atomicCounted, start, available, readable, run, word]
  rfl

/-- An AtomicOp on a sound doorbell word, by the function its command names. -/
theorem completes_atomic {p : Port} {addr b w : Nat} {wide : Bool} (up : (Tbl.get {} s.irqs (masterNum (portMaster p))).up = true)
    (awake : (Tbl.get {} s.irqs (masterNum (portMaster p))).d3hot = false) (idle : s.masterWaits (portMaster p) = false)
    (place : s.doorbellAt addr = some (b, w)) (aligned : addr % (if wide then 8 else 4) = 0) (sound : s.scratchSound b w = true)
    {c : Instr} {x : Nat} {f : Nat → Option Nat} (named : exec c s = .next (s.atomic p addr wide f))
    (result : ((f (getOperand wide addr (s.scratchWord b w))).map (putOperand wide addr (s.scratchWord b w))).getD (s.scratchWord b w) = x) :
    Completes c s fun t => t.scratchWord b w = x ∧
      Tbl.get {} t.bus.answers (masterNum (portMaster p)) =
        ⟨true, toBytes (if wide then 8 else 4) (getOperand wide addr (s.scratchWord b w))⟩ ∧
      (x ≠ s.scratchWord b w → ∀ k ∈ s.notified (masterNum (portMaster p)) b, t.rdBit F.busDbPendPend k b = true) := by
  have small : x < 2 ^ 64 := by
    rw [← result]
    cases f (getOperand wide addr (s.scratchWord b w)) with
    | some v => exact putOperand_lt v (s.scratchWord_lt b w) aligned
    | none => exact s.scratchWord_lt b w
  obtain ⟨t, run, done⟩ := State.atomic_sound up awake idle place aligned sound result small
  obtain ⟨word, told⟩ := done.answer (portMaster p) true (toBytes (if wide then 8 else 4) (getOperand wide addr (s.scratchWord b w)))
  exact ⟨_, named.trans (congrArg Host.Outcome.next run), word, State.answers_answer .., told⟩

/-! ### The doorbell aliases (12 R324, R325) -/

/-- What a doorbell operation makes of a word. -/
def aliasNew (op : Nat) (data : Option Nat) (d : Nat) : Option Nat :=
  match data with
  | some v => some (aliasResult op v d)
  | none => if op = 2 then some 0 else none

/-- What the master of a doorbell operation gets of it. -/
def aliasEnd (m : Master) (addr : Nat) (write : Bool) : Option Nat × State → State
  | (some d, s) => if write then s else s.answer m true (toBytes 8 d)
  | (none, s) => s.refuse m addr 8 write .ue

theorem aliasResult_lt {op data d : Nat} (hv : data < 2 ^ 64) (hd : d < 2 ^ 64) : aliasResult op data d < 2 ^ 64 := by
  unfold aliasResult
  split
  · exact Nat.or_lt_two_pow hd hv
  · exact Nat.lt_of_le_of_lt (Nat.sub_le ..) hd
  · decide
  · exact Nat.mod_lt _ (by decide)

theorem State.aliasAccess_sound {m : Master} {n w op v : Nat} {data : Option Nat} (hr : s.reaches m 18 data.isSome = true)
    (sound : s.scratchSound n w = true) (hn : n < 16) (sized : (data.isSome && decide (op = 2)) = false)
    (result : aliasNew op data (s.scratchWord n w) = some v) (small : v < 2 ^ 64) : ∃ t, DoorbellDone (masterNum m) n w v s t ∧
      s.aliasAccess m n op w data = if data.isSome then t else t.answer m true (toBytes 8 (s.scratchWord n w)) := by
  obtain ⟨x, counted, shared, access⟩ := s.byTarget_ok_shared m 18 (aliasAddr n op w) 8 data.isSome (·.aliasDo m n op w data) hr
  have granted : Within .counted s (x.grantTo m (1 + n) 1) := .after (State.grantTo_within ..) counted (by decide)
  have shared' : (x.grantTo m (1 + n) 1).shared = s.shared := (State.shared_grantTo m (1 + n) 1).trans shared
  generalize start : x.grantTo m (1 + n) 1 = y at granted shared'
  have sound' : y.scratchSound n w = true :=
    (granted.scratchSound (by decide) (by decide) (by decide) (by decide) (by decide) n w).trans sound
  obtain ⟨available, readable, -⟩ := (y.scratchSound_iff n w).1 sound'
  have word := State.scratchWord_of_shared shared' n w
  obtain ⟨t, run, done⟩ := State.doorbell_stored (f := aliasNew op data) sound' hn (masterNum m) true (by rw [word]; exact result) small
  refine ⟨t, done.of_counted granted (by decide) shared', access.trans ?_⟩
  unfold State.aliasDo
  dsimp only
  rw [sized, if_neg (by decide), start, available, readable, if_neg (by decide), if_neg (by decide), ← word]
  exact congrArg (aliasEnd m (aliasAddr n op w) data.isSome) run

/-- A doorbell write on a sound word. -/
theorem completes_aliasWrite {m : Master} {n : BankId} {j : DoorbellId} {op : Nat} {data : Word} {c : Instr} (hr : s.reaches m 18 true = true)
    (sound : s.scratchSound n j = true) (sized : op ≠ 2) (named : exec c s = .next (s.aliasAccess m n op j (some data.toNat))) :
    Completes c s (DoorbellDone (masterNum m) n j (aliasResult op data.toNat (s.scratchWord n j)) s) := by
  obtain ⟨t, done, run⟩ := State.aliasAccess_sound (data := some data.toNat) hr sound n.isLt (decide_eq_false sized) rfl
    (aliasResult_lt data.isLt (s.scratchWord_lt n j))
  exact ⟨t, named.trans (congrArg Host.Outcome.next run), done⟩

theorem completes_doorbellFetchClear {m : Master} {n : BankId} {j : DoorbellId} (hr : s.reaches m 18 false = true)
    (sound : s.scratchSound n j = true) : Completes (.doorbellFetchClear m n j) s fun t => DoorbellDone (masterNum m) n j 0 s t ∧
      Tbl.get {} t.bus.answers (masterNum m) = ⟨true, toBytes 8 (s.scratchWord n j)⟩ := by
  obtain ⟨t, done, run⟩ := State.aliasAccess_sound (op := 2) (data := none) hr sound n.isLt rfl rfl (Nat.two_pow_pos 64)
  exact ⟨_, congrArg Host.Outcome.next run, done.answer .., State.answers_answer ..⟩

/-- Each doorbell operation by its row. -/
theorem completes_doorbell {m : Master} {n : BankId} {j : DoorbellId} {data : Word} (hr : ∀ w : Bool, s.reaches m 18 w = true)
    (sound : s.scratchSound n j = true) {d : Nat} (word : d = s.scratchWord n j) {c : Instr} {x : Nat}
    (row : (c, x) ∈ [(Instr.doorbellSet m n j data, d ||| data.toNat), (.doorbellClear m n j data, d - (d &&& data.toNat)),
      (.doorbellFetchClear m n j, 0), (.doorbellAdd m n j data, (d + data.toNat) % 2 ^ 64)]) :
    Completes c s fun t => t.scratchWord n j = x ∧
      (c = .doorbellFetchClear m n j → Tbl.get {} t.bus.answers (masterNum m) = ⟨true, toBytes 8 d⟩) ∧
      (x ≠ d → ∀ k ∈ s.notified (masterNum m) n, t.rdBit F.busDbPendPend k n = true) := by
  subst word
  have written : ∀ op, op ≠ 2 → x = aliasResult op data.toNat (s.scratchWord n j) → c ≠ .doorbellFetchClear m n j →
      exec c s = .next (s.aliasAccess m n op j (some data.toNat)) → Completes c s fun t => t.scratchWord n j = x ∧
        (c = .doorbellFetchClear m n j → Tbl.get {} t.bus.answers (masterNum m) = ⟨true, toBytes 8 (s.scratchWord n j)⟩) ∧
        (x ≠ s.scratchWord n j → ∀ k ∈ s.notified (masterNum m) n, t.rdBit F.busDbPendPend k n = true) := by
    rintro op sized rfl write named
    obtain ⟨t, run, word, told⟩ := completes_aliasWrite (hr true) sound sized named
    exact ⟨t, run, word, fun fetch => absurd fetch write, told⟩
  simp only [List.mem_cons, List.not_mem_nil, or_false, Prod.mk.injEq] at row
  obtain ⟨rfl, rfl⟩ | ⟨rfl, rfl⟩ | ⟨rfl, rfl⟩ | ⟨rfl, rfl⟩ := row
  · exact written 0 (by decide) rfl nofun rfl
  · exact written 1 (by decide) rfl nofun rfl
  · obtain ⟨t, run, ⟨word, told⟩, answer⟩ := completes_doorbellFetchClear (hr false) sound
    exact ⟨t, run, word, fun _ => answer, told⟩
  · exact written 3 (by decide) rfl nofun rfl

end

/-- Settles O52: every operation is one change of the word by the function its command names, notified where the word changed. -/
theorem doorbellsAndAtomicsComplete : Obligations.DoorbellsAndAtomicsComplete := by
  intro p m b w addr d wide data cmp n j s
  refine ⟨fun up awake idle place aligned sound word c x row => ?_, fun hr sound word c x row => completes_doorbell hr sound word row⟩
  subst word
  simp only [List.mem_cons, List.not_mem_nil, or_false, Prod.mk.injEq] at row
  obtain ⟨rfl, rfl⟩ | ⟨rfl, rfl⟩ | ⟨rfl, rfl⟩ := row
  · exact completes_atomic up awake idle place aligned sound rfl rfl
  · exact completes_atomic up awake idle place aligned sound rfl rfl
  · refine completes_atomic up awake idle place aligned sound rfl ?_
    split <;> rfl

end Sys2Proof.Machine

/-! Transfers: the bytes of a word, the target of an address, the one burst of a short aligned transfer, and what such a burst leaves
(12 R312, R314 to R317, Table 12-3). -/

namespace Sys2Proof.Machine

/-! ### The bytes of a word (00 R4) -/

theorem toBytes_getD {n j : Nat} (x : Nat) (hj : j < n) (d : Byte) : (toBytes n x).getD j d = BitVec.ofNat 8 (x / 256 ^ j) := by
  induction n generalizing j x with
  | zero => exact absurd hj (Nat.not_lt_zero j)
  | succ n ih =>
    cases j with
    | zero => rw [Nat.pow_zero, Nat.div_one]; rfl
    | succ j => rw [Nat.pow_succ', ← Nat.div_div_eq_div_mul]; exact ih _ (Nat.lt_of_succ_lt_succ hj)

theorem ofBytes_toBytes (n x : Nat) : ofBytes (toBytes n x) = x % 256 ^ n := by
  induction n generalizing x with
  | zero => exact (Nat.mod_one x).symm
  | succ n ih =>
    show (BitVec.ofNat 8 x).toNat + 256 * ofBytes (toBytes n (x / 256)) = _
    rw [ih, Nat.pow_succ', Nat.mod_mul]
    rfl

theorem ofBytes_lt (l : List Byte) : ofBytes l < 256 ^ l.length := by
  induction l with
  | nil => exact Nat.one_pos
  | cons b l ih =>
    have byte : b.toNat < 256 := b.isLt
    show b.toNat + 256 * ofBytes l < 256 ^ (l.length + 1)
    rw [Nat.pow_succ']
    omega

/-- The lanes of a beat that every byte of a word covers. -/
theorem lanesAt_whole (a v : Nat) : lanesAt a ((toBytes 8 v).map some) a = (toBytes 8 v).map some := by
  refine List.ext_getElem (by simp [lanesAt, toBytes_length]) fun j hj _ => ?_
  have inside : j < ((toBytes 8 v).map some).length := by simpa [lanesAt, toBytes_length] using hj
  simp only [lanesAt, List.getElem_map, List.getElem_range]
  rw [if_pos (Nat.le_add_right a j), Nat.add_sub_cancel_left, List.getD_eq_getElem _ _ inside, List.getElem_map]

/-- Bytes placed one above the other spell their number. -/
theorem putField_byte (v j : Nat) : putField (v % 2 ^ (8 * j)) (8 * j) 8 (BitVec.ofNat 8 (v / 256 ^ j)).toNat = v % 2 ^ (8 * (j + 1)) := by
  have low : v % 2 ^ (8 * j) < 2 ^ (8 * j) := Nat.mod_lt _ (Nat.two_pow_pos _)
  have none : v % 2 ^ (8 * j) / 2 ^ (8 * j + 8) = 0 :=
    Nat.div_eq_of_lt (Nat.lt_of_lt_of_le low (Nat.pow_le_pow_right (by decide) (Nat.le_add_right ..)))
  rw [putField_eq, none, Nat.mod_eq_of_lt low, Nat.zero_mul, Nat.zero_add, BitVec.toNat_ofNat, Nat.mod_mod,
    show (256 : Nat) ^ j = 2 ^ (8 * j) from (Nat.pow_mul 2 8 j).symm, Nat.mul_succ, Nat.pow_add, Nat.mod_mul, Nat.mul_comm, Nat.add_comm]

theorem mergeBytes_whole (v : Nat) : mergeBytes 0 0 8 0 ((toBytes 8 v).map some) = v % 2 ^ 64 := by
  have step : ∀ n, n ≤ 8 → (List.range n).foldl (fun w j => if 0 ≤ 0 + j then
      match ((toBytes 8 v).map some).getD (0 + j - 0) none with
      | some b => putField w (8 * j) 8 b.toNat
      | none => w else w) 0 = v % 2 ^ (8 * n) := by
    intro n hn
    induction n with
    | zero => exact (Nat.mod_one v).symm
    | succ n ih =>
      have byte : ((toBytes 8 v).map some).getD (0 + n - 0) none = some (BitVec.ofNat 8 (v / 256 ^ n)) := by
        have inside : n < ((toBytes 8 v).map some).length := by rw [List.length_map, toBytes_length]; omega
        rw [Nat.zero_add, Nat.sub_zero, List.getD_eq_getElem _ _ inside, List.getElem_map, ← toBytes_getD v (by omega : n < 8) 0,
          List.getD_eq_getElem]
      rw [List.range_succ, List.foldl_append, ih (by omega), List.foldl_cons, List.foldl_nil, if_pos (Nat.zero_le _), byte]
      exact putField_byte v n
  exact step 8 (Nat.le_refl 8)

/-- Bytes that are all enabled span themselves. -/
theorem enabledSpan_some (a : Nat) (l : List Byte) : enabledSpan a (l.map some) = (a, l.map some) := by
  have kept : ∀ l : List Byte, (l.map some).dropWhile Option.isNone = l.map some := fun l => by cases l <;> rfl
  unfold enabledSpan
  dsimp only
  rw [kept, ← List.map_reverse, kept, List.map_reverse, List.reverse_reverse, Nat.sub_self]
  rfl

/-! ### The address map (12 R312, Table 12-3) -/

/-- Of ranges in order, the first that ends behind an address is the one that holds it. -/
theorem find_range {l : List (Nat × Nat × Nat)} (order : l.Pairwise fun x y => x.2.1 ≤ y.1) {r : Nat × Nat × Nat} (listed : r ∈ l) {a : Nat}
    (low : r.1 ≤ a) {p : Nat × Nat × Nat → Bool} (holds : p r = true) (behind : ∀ x, x.2.1 ≤ a → p x = false) : l.find? p = some r := by
  induction l with
  | nil => cases listed
  | cons x l ih =>
    obtain ⟨first, rest⟩ := List.pairwise_cons.1 order
    rw [List.find?_cons]
    obtain rfl | later := List.mem_cons.1 listed
    · rw [holds]
    · rw [behind x (Nat.le_trans (first r later) low)]
      exact ih rest later

theorem targetRanges_order : targetRanges.Pairwise fun x y => x.2.1 ≤ y.1 := by decide +kernel

theorem targetAt_of_mem {r : Nat × Nat × Nat} (listed : r ∈ targetRanges) {a : Nat} (low : r.1 ≤ a) (high : a < r.2.1) :
    targetAt a = r.2.2 ∧ targetEnd a = r.2.1 := by
  unfold targetAt targetEnd
  rw [find_range targetRanges_order listed low (by simp [low, high]) (by simp; omega),
    find_range targetRanges_order listed low (by simp [high]) (by simp)]
  exact ⟨rfl, if_pos low⟩

theorem targetAt_scratch {k w : Nat} (hk : k < 16) (hw : w < 8192) : targetAt (scratchAddr k w) = 1 + k ∧
    targetEnd (scratchAddr k w) = 0x110000 + 0x10000 * k :=
  targetAt_of_mem (r := (0x100000 + 0x10000 * k, 0x110000 + 0x10000 * k, 1 + k))
    (List.mem_append_left _ (List.mem_append_left _ (List.mem_append_right _ (List.mem_map.2 ⟨k, List.mem_range.2 hk, rfl⟩))))
    (by unfold scratchAddr; omega) (by unfold scratchAddr; dsimp only; omega)

theorem targetAt_window {a : Nat} (ha : a < 0x20000) : targetAt a = 0 ∧ targetEnd a = 0x20000 :=
  targetAt_of_mem (r := (0, 0x20000, 0)) (List.mem_cons_self ..) (Nat.zero_le a) ha

/-! ### One burst (12 R315 to R317) -/

/-- The one burst of a transfer that no beat count and no target's end cuts. -/
def oneBurst (m : Master) (a n : Nat) (data : List (Option Byte)) (write : Bool) : BusReq :=
  { master := m, target := targetAt a, addr := a, len := n, data := data.take n, write := write, first := true, passes := 0 }

theorem transferBursts_one (m : Master) {a n : Nat} (data : List (Option Byte)) (write : Bool) (some_ : 0 < n)
    (beats : n ≤ a / 8 * 8 + 128 - a) (fits : n ≤ targetEnd a - a) : transferBursts m a n data write = [oneBurst m a n data write] := by
  have one : burstsOf (n + 1) a n = [(a, n)] := by
    obtain ⟨k, rfl⟩ := Nat.exists_eq_succ_of_ne_zero (Nat.ne_of_gt some_)
    rw [burstsOf, if_neg (Nat.succ_ne_zero k)]
    dsimp only
    rw [Nat.min_eq_left (Nat.le_min.2 ⟨beats, fits⟩), Nat.sub_self, burstsOf, if_pos rfl]
  unfold transferBursts
  rw [one]
  unfold oneBurst
  simp

section
variable {s : State}

/-! ### What a quiet access leaves -/

/-- A state that differs by the counts of accesses and by answers alone: no scratch word has changed, and the accesses of the same masters wait. -/
structure Unmoved (s x : State) : Prop where
  within : Within .counted s x
  words : x.bus.scratch = s.bus.scratch
  masters : x.bus.waiting.map (·.master) = s.bus.waiting.map (·.master)

theorem Unmoved.refl (s : State) : Unmoved s s := ⟨.refl .., rfl, rfl⟩

theorem Unmoved.trans {s x y : State} (h : Unmoved s x) (k : Unmoved x y) : Unmoved s y :=
  ⟨.after k.within h.within (by decide), k.words.trans h.words, k.masters.trans h.masters⟩

/-- What changes neither the queue nor a scratch word. -/
theorem Unmoved.of_bus {x : State} (h : Within .counted s x) (words : x.bus.scratch = s.bus.scratch) (waiting : x.bus.waiting = s.bus.waiting) :
    Unmoved s x := ⟨h, words, congrArg _ waiting⟩

theorem Unmoved.length {x : State} (h : Unmoved s x) : x.bus.waiting.length = s.bus.waiting.length := by
  rw [← List.length_map (f := (·.master)), h.masters, List.length_map]

/-- Whose accesses wait is told by the masters of the queue. -/
theorem Unmoved.waits {x : State} (h : Unmoved s x) (m : Master) : x.masterWaits m = s.masterWaits m := by
  have told : ∀ rs : List BusReq, (rs.any fun r => decide (r.master = m)) = (rs.map (·.master)).any (fun a => decide (a = m)) := fun rs => by
    rw [List.any_map]
    rfl
  unfold State.masterWaits
  rw [told, h.masters, ← told, h.within.alm (by decide)]

theorem passBursts_masters (passed seen : List Master) (rs : List BusReq) : (passBursts passed seen rs).map (·.master) = rs.map (·.master) := by
  induction rs generalizing seen with
  | nil => rfl
  | cons r rs ih =>
    unfold passBursts
    split
    · rw [List.map_cons, List.map_cons, ih]
    · rw [List.map_cons, List.map_cons, ih]
      split <;> rfl

theorem State.passOver_masters (s : State) (m : Master) (t : Nat) : (s.passOver m t).bus.waiting.map (·.master) = s.bus.waiting.map (·.master) := by
  unfold State.passOver
  dsimp only
  split
  · rfl
  · exact passBursts_masters ..

theorem Unmoved.passOver (s : State) (m : Master) (t : Nat) : Unmoved s (s.passOver m t) := by
  obtain ⟨words, -⟩ := State.shared_facts (s.shared_passOver m t)
  exact ⟨.after (State.passOver_within ..) (.refl ..) (by decide), words, State.passOver_masters ..⟩

theorem Unmoved.grantTo (s : State) (m : Master) (t beats : Nat) : Unmoved s (s.grantTo m t beats) := by
  obtain ⟨words, -⟩ := State.shared_facts (s.shared_grantTo m t beats)
  obtain ⟨-, -, -, waiting, -⟩ := State.unlogged_facts (s.unlogged_grantOf (masterNum m) t 1 beats)
  exact .of_bus (.after (State.grantTo_within ..) (.refl ..) (by decide)) words waiting

theorem Unmoved.answer (s : State) (m : Master) (ok : Bool) (d : List Byte) : Unmoved s (s.answer m ok d) :=
  .of_bus (.after (State.answer_within ..) (.refl ..) (by decide)) rfl rfl

theorem Unmoved.split (s : State) (m n : Nat) : Unmoved s (s.countBy .busSplits m n) :=
  .of_bus (.countBy _ _ _ (.refl ..) (by decide)) rfl rfl

theorem Unmoved.hostMeter (s : State) (m : Master) (write : Bool) (n : Nat) : Unmoved s (s.hostMeter m write n) := by
  have within : Within (.of [.pm] []) s (s.hostMeter m write n) := State.hostMeter_within ..
  exact .of_bus (within.mono (by decide)) (congrArg (·.scratch) (within.bus (by decide))) (congrArg (·.waiting) (within.bus (by decide)))

theorem Unmoved.scratchWord {x : State} (h : Unmoved s x) (k w : Nat) : x.scratchWord k w = s.scratchWord k w := by
  unfold State.scratchWord
  rw [h.words]

theorem Unmoved.scratchSound {x : State} (h : Unmoved s x) (k w : Nat) : x.scratchSound k w = s.scratchSound k w :=
  h.within.scratchSound (by decide) (by decide) (by decide) (by decide) (by decide) k w

/-! ### Reads -/

/-- A scratch word without errors is read by any master, and nothing else happens. -/
theorem State.scratchRead_sound {k w : Nat} (sound : s.scratchSound k w = true) (m : Master) :
    s.scratchRead m k w = (.ok (s.scratchWord k w), s) := by
  obtain ⟨-, readable, -⟩ := (s.scratchSound_iff k w).1 sound
  unfold State.scratchRead
  rw [readable, Bool.and_false, if_neg (by decide), State.scratchGet_sound sound]

/-- A burst whose beats are all read without a change answers their bytes. -/
theorem State.readBeats_quiet (m : Master) (a n : Nat) {f : State → Nat → Except ErrCause Nat × State} {g : Nat → Nat}
    (quiet : ∀ b ∈ beatsOf a n, f s b = (.ok (g b), s)) :
    s.readBeats m a n f = s.answer m true ((((beatsOf a n).flatMap fun b => toBytes 8 (g b)).drop (a % 8)).take n) := by
  have fold : ∀ (bs : List Nat) (l : List Byte), (∀ b ∈ bs, f s b = (.ok (g b), s)) →
      bs.foldl (readBeat f) (none, l, s) = (none, l ++ bs.flatMap fun b => toBytes 8 (g b), s) := by
    intro bs
    induction bs with
    | nil => intro l _; rw [List.foldl_nil, List.flatMap_nil, List.append_nil]
    | cons b bs ih =>
      intro l each
      have first : readBeat f (none, l, s) b = (none, l ++ toBytes 8 (g b), s) := by
        unfold readBeat
        rw [each b (List.mem_cons_self ..)]
      rw [List.foldl_cons, first, ih _ fun b' later => each b' (List.mem_cons_of_mem _ later), List.flatMap_cons, List.append_assoc]
  unfold State.readBeats
  rw [fold _ _ quiet]
  rfl

/-- The state a granted burst is carried out on. -/
def State.burstStart (s : State) (r : BusReq) : State :=
  (if r.first && !r.write then s.answer r.master true [] else s).grantTo r.master r.target ((r.addr % 8 + r.len + 7) / 8)

theorem Unmoved.burstStart (s : State) (r : BusReq) : Unmoved s (s.burstStart r) := by
  unfold State.burstStart
  split
  · exact (Unmoved.answer ..).trans (Unmoved.grantTo ..)
  · exact Unmoved.grantTo ..

/-- A read burst that its target answers: nothing has moved, and a transfer's first burst returns the bytes alone. -/
theorem State.burstDo_read {r : BusReq} (read : r.write = false) (first : r.first = true) (path : hasPath r.master r.target false = true)
    (available : s.available r.target = true) {cyc : Nat} {d : List Byte}
    (target : (s.burstStart r).targetRead r.master r.target r.addr r.len cyc = (s.burstStart r).answer r.master true d) :
    Unmoved s (s.burstDo r cyc) ∧ Tbl.get {} (s.burstDo r cyc).bus.answers (masterNum r.master) = ⟨true, d⟩ := by
  have start := Unmoved.burstStart s r
  have old : Tbl.get {} (s.answer r.master true []).bus.answers (masterNum r.master) = ⟨true, []⟩ := State.answers_answer ..
  have run : s.burstDo r cyc = ((s.burstStart r).answer r.master true d).answer r.master true d := by
    have begun : (if r.first && !r.write then s.answer r.master true [] else s) = s.answer r.master true [] := by rw [first, read]; rfl
    have granted : (s.answer r.master true []).grantTo r.master r.target ((r.addr % 8 + r.len + 7) / 8) = s.burstStart r := by
      unfold State.burstStart
      rw [begun]
    unfold State.burstDo
    rw [begun]
    dsimp only
    rw [old, granted, read, path, if_neg (by decide), Foot.counted_available start.within, available, if_neg (by decide), if_neg (by decide),
      target, if_neg (by decide), State.answers_answer]
    rfl
  rw [run]
  exact ⟨start.trans ((Unmoved.answer ..).trans (Unmoved.answer ..)), State.answers_answer ..⟩

/-- A transfer of one burst that nothing keeps waiting. -/
theorem State.transfer_one {m : Master} (idle : s.masterWaits m = false) {a n : Nat} {data : List (Option Byte)} {write : Bool} (some_ : 0 < n)
    (beats : n ≤ a / 8 * 8 + 128 - a) (fits : n ≤ targetEnd a - a) (cyc : Nat) : s.transfer m a n data write cyc false =
      ((s.countBy .busSplits (masterNum m) 0).passOver m (targetAt a)).burstDo (oneBurst m a n data write) cyc := by
  unfold State.transfer
  dsimp only
  rw [transferBursts_one m data write some_ beats fits]
  show (if false || (s.countBy .busSplits (masterNum m) 0).masterWaits m then _ else _) = _
  rw [(Unmoved.split s (masterNum m) 0).waits, idle, Bool.or_false, if_neg (by decide)]
  rfl

/-- The state of a transfer's one burst. -/
theorem Unmoved.transferStart (s : State) (m : Master) (t : Nat) : Unmoved s ((s.countBy .busSplits (masterNum m) 0).passOver m t) :=
  (Unmoved.split ..).trans (Unmoved.passOver ..)

/-- A read transfer of one burst whose beats are read without a change returns their bytes. -/
theorem State.transfer_read {m : Master} (idle : s.masterWaits m = false) {a n t : Nat} (some_ : 0 < n) (beats : n ≤ a / 8 * 8 + 128 - a)
    (fits : n ≤ targetEnd a - a) (target : targetAt a = t) (path : hasPath m t false = true) (available : s.available t = true) {cyc : Nat}
    {d : List Byte} (read : ∀ x, Unmoved s x → x.targetRead m t a n cyc = x.answer m true d) :
    Unmoved s (s.transfer m a n [] false cyc false) ∧
      Tbl.get {} (s.transfer m a n [] false cyc false).bus.answers (masterNum m) = ⟨true, d⟩ := by
  subst target
  have start := Unmoved.transferStart s m (targetAt a)
  rw [State.transfer_one idle some_ beats fits cyc]
  obtain ⟨unmoved, answer⟩ := State.burstDo_read (r := oneBurst m a n [] false) (cyc := cyc) rfl rfl path
    ((Foot.counted_available start.within _).trans available) (read _ (start.trans (Unmoved.burstStart ..)))
  exact ⟨start.trans unmoved, answer⟩

theorem beatsOf_word {a : Nat} (aligned : a % 8 = 0) : beatsOf a 8 = [a] := by
  unfold beatsOf
  rw [aligned]
  show [a / 8 * 8 + 8 * 0] = _
  rw [Nat.div_mul_cancel (Nat.dvd_of_mod_eq_zero aligned)]
  rfl

/-- An aligned word of a scratch bank read. -/
theorem State.targetRead_scratch {k w : Nat} (hk : k < 16) (hw : w < 8192) (sound : s.scratchSound k w = true) (m : Master) (cyc : Nat) :
    s.targetRead m (1 + k) (scratchAddr k w) 8 cyc = s.answer m true (toBytes 8 (s.scratchWord k w)) := by
  have word : scratchAddr k w % 0x10000 / 8 = w := by unfold scratchAddr; omega
  have aligned : scratchAddr k w % 8 = 0 := by unfold scratchAddr; omega
  have one := beatsOf_word aligned
  unfold State.targetRead
  rw [if_neg (by omega), if_pos (by omega), Nat.add_sub_cancel_left, State.readBeats_quiet m _ _ (g := fun _ => s.scratchWord k w), one, aligned]
  · simp [List.take_of_length_le, toBytes_length]
  · rw [one]
    intro b only
    rw [List.mem_singleton.1 only, word, State.scratchRead_sound sound m]

theorem hasPath_scratch {m : Master} (known : m ≠ .logger) {k : Nat} (hk : k < 16) (write : Bool) : hasPath m (1 + k) write = true := by
  cases m <;> first | exact absurd rfl known | (simp [hasPath]; omega)

/-- A master's read of a scratch word without errors. -/
theorem State.transfer_scratchRead {m : Master} (known : m ≠ .logger) (idle : s.masterWaits m = false) {k w : Nat} (hk : k < 16) (hw : w < 8192)
    (sound : s.scratchSound k w = true) (cyc : Nat) : Unmoved s (s.transfer m (scratchAddr k w) 8 [] false cyc false) ∧
      Tbl.get {} (s.transfer m (scratchAddr k w) 8 [] false cyc false).bus.answers (masterNum m) = ⟨true, toBytes 8 (s.scratchWord k w)⟩ := by
  obtain ⟨available, -⟩ := (s.scratchSound_iff k w).1 sound
  obtain ⟨target, last⟩ := targetAt_scratch hk hw
  refine State.transfer_read idle (by decide) (by omega) ?_ target (hasPath_scratch known hk false) available fun x h => ?_
  · rw [last]
    unfold scratchAddr
    omega
  · rw [State.targetRead_scratch hk hw ((h.scratchSound k w).trans sound), h.scratchWord]

/-! ### Writes -/

/-- What a write of a scratch word may touch. -/
def Foot.scratchWrite : Foot := .of [.free, .tick, .act, .latch, .irqs, .log, .pm, .events, .ecc, .bus] [.almState, .almStageFail, .eccStatus,
  .eccLastUe, .eccTrack, .eccCorr, .eccUe, .eccPoison, .eccTrackFull, .busStatus, .busCollLast, .busGrants, .busSplits, .busCollisions, .logState,
  .logEvbEntries, .logDropped, .logEvbLost, .logEntries, .sysIntSrc]

theorem State.bus_when {c : Bool} {f : State → State} (h : ∀ y, (f y).bus = y.bus) : (s.when c f).bus = s.bus := by
  cases c
  · rfl
  · exact h s

theorem State.noteWrite_scratch (s : State) (m key addr cyc : Nat) : (s.noteWrite m key addr cyc).bus.scratch = s.bus.scratch := by
  unfold State.noteWrite
  dsimp only
  rw [State.bus_when fun y => by rw [State.setWord_bus, State.count_bus]]

/-- A whole word stored in a scratch bank. -/
def State.scratchPut (s : State) (m : Master) (k w v cyc : Nat) : State :=
  ((s.setScratch k w v).noteWrite (masterNum m) (scratchKey k w) (scratchAddr k w) cyc).fullWrite (eccAddr 6 k w)

theorem State.scratchWord_scratchPut (s : State) (m : Master) (k w v cyc : Nat) : (s.scratchPut m k w v cyc).scratchWord k w = v % 2 ^ 64 := by
  unfold State.scratchPut
  rw [State.scratchWord_of_shared (State.shared_fullWrite ..)]
  unfold State.scratchWord
  rw [State.noteWrite_scratch]
  unfold State.setScratch
  dsimp only
  rw [Tbl.get_set_same, BitVec.toNat_ofNat]

theorem State.scratchPut_within (s : State) (m : Master) (k w v cyc : Nat) : Within .scratchWrite s (s.scratchPut m k w v cyc) :=
  .after (State.fullWrite_within ..) (.after (State.noteWrite_within ..) (.after (State.setScratch_within ..) (.refl ..) (by decide)) (by decide))
    (by decide)

theorem State.scratchWrite_whole {m : Master} {k w : Nat} (allowed : s.bankWriteRefused m k w = false) (v cyc : Nat) :
    s.scratchWrite m k w cyc ((toBytes 8 v).map some) = (none, s.scratchPut m k w (v % 2 ^ 64) cyc) := by
  unfold State.scratchWrite
  dsimp only
  rw [allowed, if_neg (by decide), if_pos (by simp), mergeBytes_whole]
  rfl

/-- An aligned word of a scratch bank written whole. -/
theorem State.targetWrite_scratch {m : Master} {k w : Nat} (hk : k < 16) (hw : w < 8192) (allowed : s.bankWriteRefused m k w = false) (v cyc : Nat) :
    s.targetWrite m (1 + k) (scratchAddr k w) ((toBytes 8 v).map some) cyc = s.scratchPut m k w (v % 2 ^ 64) cyc := by
  have word : scratchAddr k w % 0x10000 / 8 = w := by unfold scratchAddr; omega
  have one : beatsOf (scratchAddr k w) ((toBytes 8 v).map some).length = [scratchAddr k w] := by
    rw [List.length_map, toBytes_length, beatsOf_word (by unfold scratchAddr; omega)]
  unfold State.targetWrite
  rw [enabledSpan_some]
  dsimp only
  rw [if_neg (by simp [toBytes]), if_neg (by omega), if_pos (by omega), Nat.add_sub_cancel_left]
  unfold State.writeBeats
  rw [one, List.foldl_cons, List.foldl_nil]
  unfold writeBeat
  dsimp only
  rw [lanesAt_whole, word, State.scratchWrite_whole allowed, if_neg (by simp [toBytes])]
  rfl

/-- A write burst that its target takes. -/
theorem State.burstDo_write {r : BusReq} (write : r.write = true) (path : hasPath r.master r.target true = true)
    (available : s.available r.target = true) (cyc : Nat) :
    s.burstDo r cyc = (s.burstStart r).targetWrite r.master r.target r.addr r.data cyc := by
  have start := Unmoved.burstStart s r
  have begun : (if r.first && !r.write then s.answer r.master true [] else s) = s := by rw [write, Bool.not_true, Bool.and_false]; rfl
  have granted : s.grantTo r.master r.target ((r.addr % 8 + r.len + 7) / 8) = s.burstStart r := by
    unfold State.burstStart
    rw [begun]
  unfold State.burstDo
  rw [begun]
  dsimp only
  rw [granted, write, if_pos rfl, path, if_neg (by decide), Foot.counted_available start.within, available, if_neg (by decide), if_pos rfl]

/-- The burst of a whole word of a scratch bank. -/
def scratchBurst (m : Master) (k w v : Nat) : BusReq :=
  { master := m, target := 1 + k, addr := scratchAddr k w, len := 8, data := (toBytes 8 v).map some, write := true, first := true, passes := 0 }

theorem oneBurst_scratch (m : Master) {k w : Nat} (hk : k < 16) (hw : w < 8192) (v : Nat) :
    oneBurst m (scratchAddr k w) 8 ((toBytes 8 v).map some) true = scratchBurst m k w v := by
  unfold oneBurst scratchBurst
  rw [(targetAt_scratch hk hw).1, List.take_of_length_le (by rw [List.length_map, toBytes_length])]

theorem Unmoved.bankWriteRefused {x : State} (h : Unmoved s x) (m : Master) (k w : Nat) : x.bankWriteRefused m k w = s.bankWriteRefused m k w := by
  obtain ⟨state, owner⟩ := h.within.bank (by decide) k
  unfold State.bankWriteRefused
  rw [state, owner]

/-- A master's write of a whole scratch word. -/
theorem State.transfer_scratchWrite {m : Master} (known : m ≠ .logger) (idle : s.masterWaits m = false) {k w : Nat} (hk : k < 16) (hw : w < 8192)
    (available : s.available (1 + k) = true) (allowed : s.bankWriteRefused m k w = false) (v cyc : Nat) : ∃ x, Unmoved s x ∧
      s.transfer m (scratchAddr k w) 8 ((toBytes 8 v).map some) true cyc false = x.scratchPut m k w (v % 2 ^ 64) cyc := by
  obtain ⟨target, last⟩ := targetAt_scratch hk hw
  have start := Unmoved.transferStart s m (1 + k)
  have all := start.trans (Unmoved.burstStart _ (scratchBurst m k w v))
  have allowed' := (all.bankWriteRefused m k w).trans allowed
  refine ⟨_, all, ?_⟩
  rw [State.transfer_one idle (by decide) (by omega) (by rw [last]; unfold scratchAddr; omega), target, oneBurst_scratch m hk hw,
    State.burstDo_write (r := scratchBurst m k w v) rfl (hasPath_scratch known hk true)
      ((Foot.counted_available start.within _).trans available)]
  exact State.targetWrite_scratch hk hw allowed' v cyc

end

end Sys2Proof.Machine

/-! The boot loader's list: a step fetched, a step that goes on, and the list ended (13 R343, R344). -/

namespace Sys2Proof.Machine

section
variable {s : State}

/-! ### A step fetched (13 R343; 12 R314) -/

/-- What a beat of target 0 shows. -/
def State.windowShows (s : State) (b : Nat) : Nat :=
  if s.flag F.sysCtrlRemap 0 then s.scratchWord 0 (b / 8) else ofBytes ((List.range 8).map fun j => romByteAt (b % 0x10000 + j))

theorem Unmoved.windowShows {x : State} (h : Unmoved s x) (b : Nat) : x.windowShows b = s.windowShows b := by
  unfold State.windowShows
  rw [h.within.flag (by decide), h.scratchWord]

/-- A beat of the window that shows the boot ROM, or a scratch word without errors. -/
theorem State.read0_quiet (m : Master) {b : Nat} (inside : b < 0x10000)
    (sound : s.flag F.sysCtrlRemap 0 = true → s.scratchSound 0 (b / 8) = true) : s.read0 m b = (.ok (s.windowShows b), s) := by
  unfold State.read0 State.windowWord State.windowShows
  cases remap : s.flag F.sysCtrlRemap 0 with
  | false => rw [Bool.and_false]; rfl
  | true =>
    obtain ⟨available, -⟩ := (s.scratchSound_iff 0 (b / 8)).1 (sound remap)
    rw [decide_eq_true inside]
    show (if s.available 1 then s.scratchRead m 0 (b / 8) else _) = _
    rw [if_pos available, State.scratchRead_sound (sound remap)]
    rfl

/-- The three beats of a step. -/
theorem mem_beatsOf_step {n b : Nat} (beat : b ∈ beatsOf (24 * n) 24) : ∃ j, j < 3 ∧ b = 8 * (3 * n + j) := by
  unfold beatsOf at beat
  rw [show (24 * n % 8 + 24 + 7) / 8 = 3 by omega] at beat
  obtain ⟨j, hj, rfl⟩ := List.mem_map.1 beat
  exact ⟨j, List.mem_range.1 hj, by omega⟩

/-- The bytes of a step are fetched without an error. -/
theorem State.transfer_step (idle : s.masterWaits .boot = false) {n : Nat} (inside : 24 * (n + 1) ≤ 0x10000)
    (sound : s.flag F.sysCtrlRemap 0 = true → ∀ j, j < 3 → s.scratchSound 0 (3 * n + j) = true) :
    Unmoved s (s.transfer .boot (24 * n) 24 [] false 0 false) := by
  obtain ⟨target, last⟩ := targetAt_window (a := 24 * n) (by omega)
  refine (State.transfer_read (d := ((((beatsOf (24 * n) 24).flatMap fun b => toBytes 8 (s.windowShows b)).drop (24 * n % 8)).take 24)) idle
    (by decide) (by omega) (by omega) target rfl rfl fun x h => ?_).1
  have quiet : ∀ b ∈ beatsOf (24 * n) 24, x.read0 .boot b = (.ok (s.windowShows b), x) := by
    intro b beat
    obtain ⟨j, hj, rfl⟩ := mem_beatsOf_step beat
    rw [← h.windowShows]
    refine State.read0_quiet .boot (by omega) fun remap => ?_
    rw [Nat.mul_div_cancel_left _ (by decide), h.scratchSound]
    exact sound ((h.within.flag (by decide) 0).symm.trans remap) j hj
  exact State.readBeats_quiet .boot _ _ quiet

/-! ### A step taken -/

/-- A state that differs by the counts of accesses, by answers, and by the present step's being fetched. -/
structure StepFetched (s x : State) : Prop where
  within : Within (.of [.pm, .bus, .boot] [.busGrants, .busSplits]) s x
  words : x.bus.scratch = s.bus.scratch
  waits : ∀ m, x.masterWaits m = s.masterWaits m
  boot : x.boot = { s.boot with fetched := true }

theorem StepFetched.scratchWord {x : State} (h : StepFetched s x) (k w : Nat) : x.scratchWord k w = s.scratchWord k w := by
  unfold State.scratchWord
  rw [h.words]

theorem StepFetched.available {x : State} (h : StepFetched s x) (t : Nat) : x.available t = s.available t := by
  unfold State.available
  rw [h.boot, h.within.rdBit (f := F.hbmStateInitDone) (by decide), h.within.rdBit (f := F.lagStateStackLost) (by decide),
    h.within.rdBit (f := F.lagStateRestoring) (by decide)]

theorem StepFetched.scratchSound {x : State} (h : StepFetched s x) (k w : Nat) : x.scratchSound k w = s.scratchSound k w := by
  unfold State.scratchSound State.bankReadRefused
  rw [h.available, h.within.ecc (by decide), (h.within.bank (by decide) k).1]

theorem StepFetched.bankWriteRefused {x : State} (h : StepFetched s x) (m : Master) (k w : Nat) :
    x.bankWriteRefused m k w = s.bankWriteRefused m k w := by
  obtain ⟨state, owner⟩ := h.within.bank (by decide) k
  unfold State.bankWriteRefused
  rw [state, owner]

/-- A fetched step's numbers. -/
theorem StepFetched.stepNum {x : State} (h : StepFetched s x) (o n : Nat) : x.stepNum o n = s.stepNum o n := by
  unfold State.stepNum State.listByte
  rw [h.within.flag (by decide), h.boot]
  simp only [h.scratchWord]

/-- What the loader's coming to a step means. -/
theorem State.atStep_iff (s : State) (op : Nat) : s.atStep op = true ↔ s.bootRunning = true ∧ s.boot.activating = false ∧ s.stepOp = op ∧
    s.masterWaits .boot = false ∧ (s.boot.fetched = true ∨ s.flag F.sysCtrlRemap 0 = false ∨
      ∀ j, j < 3 → s.scratchSound 0 (3 * s.boot.step + j) = true) := by
  simp only [State.atStep, Bool.and_eq_true, Bool.or_eq_true, Bool.not_eq_true', decide_eq_true_eq, List.all_eq_true, List.mem_range, and_assoc,
    or_assoc]

theorem State.stepOp_inside {op : Nat} (h : s.stepOp = op) (some_ : op ≠ 0) : 24 * (s.boot.step + 1) ≤ 0x10000 := by
  unfold State.stepOp at h
  by_contra beyond
  rw [if_pos (by omega)] at h
  exact some_ h.symm

/-- A step inside the window is fetched once, and what its code names is done. -/
theorem State.bootStep_taken {op : Nat} (at_ : s.atStep op = true) (inside : 24 * (s.boot.step + 1) ≤ 0x10000) (f : State → State) :
    ∃ x, StepFetched s x ∧ s.bootStep op f = f x := by
  obtain ⟨running, waiting, code, idle, bytes⟩ := (s.atStep_iff op).1 at_
  have due : ¬(!s.bootRunning || s.boot.activating || decide (s.stepOp ≠ op)) = true := by simp [running, waiting, code]
  unfold State.bootStep
  rw [if_neg due]
  cases fetched : s.boot.fetched with
  | true =>
    refine ⟨s, ⟨.refl .., rfl, fun _ => rfl, ?_⟩, if_pos rfl⟩
    rw [← fetched]
  | false =>
    have sound : s.flag F.sysCtrlRemap 0 = true → ∀ j, j < 3 → s.scratchSound 0 (3 * s.boot.step + j) = true := fun remap => by
      rw [fetched, remap] at bytes
      exact (bytes.resolve_left (by decide)).resolve_left (by decide)
    have quiet := State.transfer_step idle inside sound
    generalize s.transfer .boot (24 * s.boot.step) 24 [] false 0 false = t at quiet
    have unfailed : t.bootErred s = false := decide_eq_false (not_not_intro (quiet.within.word _ (by decide) 3))
    refine ⟨{ t with boot := { t.boot with fetched := true } },
      ⟨.set_boot (quiet.within.mono (by decide)) (by decide), quiet.words, quiet.waits, ?_⟩, ?_⟩
    · dsimp only
      rw [quiet.within.boot (by decide)]
    · dsimp only
      rw [if_neg (by decide), unfailed, if_neg (by decide)]

/-! ### The list goes on, or ends -/

theorem State.bootAt_facts (s : State) (n : Nat) : (s.bootAt n).boot.step = n ∧ (s.bootAt n).bootRunning = s.bootRunning ∧
    (s.bootAt n).bus = s.bus := by
  have regs : (s.bootAt n).regs = (s.wr F.sysBootStatusStep 0 n).regs := rfl
  have phase : (s.bootAt n).rd F.sysBootStatusPhase 0 = (s.wr F.sysBootStatusStep 0 n).rd F.sysBootStatusPhase 0 := by
    unfold State.rd State.word
    rw [regs]
  refine ⟨rfl, ?_, (s.bootAt_within n).bus (by decide)⟩
  unfold State.bootRunning
  rw [phase, State.rd_wr_apart _ _ _ _ (by decide) (by decide)]

/-- The end of the list shown, and scratch bank 0 given back. -/
def State.bootEnded (s : State) (p : Nat) : State :=
  (s.wr F.sysBootStatusPhase 0 p).when (s.bankState 0 = bankOwned && s.bankOwner 0 = 3) (·.setBank 0 bankFree 0)

theorem State.bootStop_eq (s : State) (p : Nat) : ∃ a b c, s.bootStop p = (s.bootEnded p).logEvent 0x02 0 a b c true := ⟨_, _, _, rfl⟩

theorem State.bootEnded_facts (s : State) (p : Nat) : (s.bootEnded p).rd F.sysBootStatusPhase 0 = p % 8 ∧
    (s.bootEnded p).rd F.sysBootStatusFail 0 = s.rd F.sysBootStatusFail 0 ∧
    (s.bankState 0 = 1 → s.bankOwner 0 = 3 → (s.bootEnded p).bankState 0 = 0) := by
  have shown : Within (.of [] [.busScrOwn]) (s.wr F.sysBootStatusPhase 0 p) (s.bootEnded p) :=
    .ite (.after (State.setBank_within ..) (.refl ..) (by decide)) (.refl ..)
  refine ⟨(shown.rd (by decide) 0).trans (State.rd_wr _ _ _ _ (by decide)),
    (shown.rd (by decide) 0).trans (State.rd_wr_apart _ _ _ _ (by decide) (by decide)), fun owned loader => ?_⟩
  have own : (decide (s.bankState 0 = bankOwned) && decide (s.bankOwner 0 = 3)) = true := by simp [owned, loader]
  unfold State.bootEnded
  rw [State.when_pos own]
  exact (State.bank_setBank ..).1

theorem State.bootStop_facts (s : State) (p : Nat) : (s.bootStop p).rd F.sysBootStatusPhase 0 = p % 8 ∧
    (s.bootStop p).rd F.sysBootStatusFail 0 = s.rd F.sysBootStatusFail 0 ∧
    (s.bankState 0 = 1 → s.bankOwner 0 = 3 → (s.bootStop p).bankState 0 = 0) := by
  obtain ⟨a, b, c, run⟩ := s.bootStop_eq p
  have logged := (s.bootEnded p).logEvent_within 0x02 0 a b c true
  rw [← run] at logged
  rw [logged.rd (by decide), logged.rd (by decide), (logged.bank (by decide) 0).1]
  exact s.bootEnded_facts p

/-- A failed boot counted in the logbook's totals. -/
def State.failCounted (s : State) : State :=
  let t := s.log.totals
  { s with log := { s.log with totals := { t with bootFails := t.bootFails + 1 } } }

theorem State.bootFailed_eq (s : State) (cause : Nat) :
    s.bootFailed cause = ((s.failCounted.wr F.sysBootStatusFail 0 cause).bootStop phaseFailed).raise A.bootFail 0 := rfl

theorem State.bootFailed_facts (s : State) (cause : Nat) : (s.bootFailed cause).rd F.sysBootStatusPhase 0 = 4 ∧
    (s.bootFailed cause).rd F.sysBootStatusFail 0 = cause % 16 ∧ (s.bootFailed cause).active A.bootFail 0 = true := by
  rw [State.bootFailed_eq]
  generalize s.failCounted = x
  rw [State.rd_raise _ _ _ _ _ (by decide), State.rd_raise _ _ _ _ _ (by decide)]
  obtain ⟨phase, fail, -⟩ := (x.wr F.sysBootStatusFail 0 cause).bootStop_facts phaseFailed
  exact ⟨phase, fail.trans (State.rd_wr _ _ _ _ (by decide)), State.active_raise_same _ _ (by decide)⟩

/-- The loader at the next step of its list, still running, and no scratch word changed by that. -/
theorem State.bootNext_facts (s : State) : s.bootNext.boot.step = s.boot.step + 1 ∧ s.bootNext.bootRunning = s.bootRunning ∧
    s.bootNext.bus = s.bus := s.bootAt_facts (s.boot.step + 1)

end

end Sys2Proof.Machine

/-! List steps, flash commands and the junction sensor (12 R320; 13 R343, R354; 15 R385). -/

namespace Sys2Proof.Machine

section
variable {s : State}

/-! ### WRITE, POLL, WAIT and END (13 R343, R344) -/

theorem StepFetched.running {x : State} (h : StepFetched s x) : x.bootRunning = s.bootRunning := by
  unfold State.bootRunning
  rw [h.within.rd (by decide)]

theorem StepFetched.step {x : State} (h : StepFetched s x) : x.boot.step = s.boot.step := by rw [h.boot]

/-- A step that the loader comes to inside the window is run on its fetched state. -/
theorem State.bootStep_run {op : Nat} (at_ : s.atStep op = true) (some_ : op ≠ 0) (f : State → State) :
    ∃ x, StepFetched s x ∧ x.bootRunning = true ∧ x.masterWaits .boot = false ∧ s.bootStep op f = f x := by
  obtain ⟨running, -, code, idle, -⟩ := (s.atStep_iff op).1 at_
  obtain ⟨x, fetched, run⟩ := State.bootStep_taken at_ (State.stepOp_inside code some_) f
  exact ⟨x, fetched, fetched.running.trans running, (fetched.waits .boot).trans idle, run⟩

theorem State.stepValue_lt (s : State) : s.stepValue < 2 ^ 64 := by
  have small := ofBytes_lt ((List.range 8).map fun j => s.listByte (24 * s.boot.step + 16 + j))
  rw [List.length_map, List.length_range] at small
  exact small

/-- A step whose access meets no error response goes on. -/
theorem State.bootErred_of_within {f : Foot} {x t : State} (h : Within f x t) (hr : f.hasReg .busErrResp = false) : t.bootErred x = false :=
  decide_eq_false (not_not_intro (h.word _ hr 3))

theorem completes_bootStepWrite {k w : Nat} (hk : k < 16) (hw : w < 8192) (at_ : s.atStep 6 = true) (place : s.stepAddr = scratchAddr k w)
    (available : s.available (1 + k) = true) (allowed : s.bankWriteRefused .boot k w = false) : Completes .bootStepWrite s fun t =>
      t.scratchWord k w = s.stepValue ∧ t.boot.step = s.boot.step + 1 ∧ t.bootRunning = true := by
  obtain ⟨x, fetched, running, idle, run⟩ := State.bootStep_run at_ (by decide) fun s =>
    let t := s.transfer .boot s.stepAddr 8 ((toBytes 8 s.stepValue).map some) true 0 false
    if t.bootErred s then t.bootFailed 7 else t.bootNext
  have value : x.stepValue = s.stepValue := fetched.stepNum 16 8
  have addr : x.stepAddr = scratchAddr k w := (fetched.stepNum 8 8).trans place
  obtain ⟨y, unmoved, stored⟩ := State.transfer_scratchWrite (by decide) idle hk hw ((fetched.available _).trans available)
    ((fetched.bankWriteRefused ..).trans allowed) x.stepValue 0
  have put : Within .scratchWrite x (y.scratchPut .boot k w (x.stepValue % 2 ^ 64) 0) :=
    .after (State.scratchPut_within ..) (unmoved.within.mono (by decide)) (by decide)
  refine ⟨_, congrArg Host.Outcome.next run, ?_⟩
  dsimp only
  rw [addr, stored, State.bootErred_of_within put (by decide), if_neg (by decide)]
  obtain ⟨step, still, bus⟩ := (y.scratchPut .boot k w (x.stepValue % 2 ^ 64) 0).bootNext_facts
  refine ⟨?_, ?_, ?_⟩
  · unfold State.scratchWord
    rw [bus]
    refine (State.scratchWord_scratchPut y .boot k w _ 0).trans ?_
    rw [Nat.mod_mod, Nat.mod_eq_of_lt x.stepValue_lt, value]
  · rw [step, put.boot (by decide), fetched.step]
  · rw [still, ← running]
    unfold State.bootRunning
    rw [put.rd (by decide)]

theorem completes_bootStepPoll {k w : Nat} (hk : k < 16) (hw : w < 8192) (at_ : s.atStep 7 = true) (place : s.stepAddr = scratchAddr k w)
    (sound : s.scratchSound k w = true) : Completes .bootStepPoll s fun t =>
      (s.scratchWord k w &&& s.stepValue ≠ 0 → t.boot.step = s.boot.step + 1) ∧
      (s.scratchWord k w &&& s.stepValue = 0 → s.tick.n < s.boot.since + s.stepArg → t.boot.step = s.boot.step ∧ t.bootRunning = true) ∧
      (s.scratchWord k w &&& s.stepValue = 0 → s.boot.since + s.stepArg ≤ s.tick.n → t.rd F.sysBootStatusPhase 0 = 4 ∧
        t.rd F.sysBootStatusFail 0 = 6) := by
  obtain ⟨x, fetched, running, idle, run⟩ := State.bootStep_run at_ (by decide) fun s =>
    let t := s.transfer .boot s.stepAddr 8 [] false 0 false
    if t.bootErred s then t.bootFailed 7
    else
      let w := ofBytes (Tbl.get {} t.bus.answers 3).data
      if w &&& s.stepValue ≠ 0 then t.bootNext
      else if s.boot.since + s.stepArg ≤ s.tick.n then t.bootFailed 6
      else t
  have value : x.stepValue = s.stepValue := fetched.stepNum 16 8
  have arg : x.stepArg = s.stepArg := fetched.stepNum 4 4
  have addr : x.stepAddr = scratchAddr k w := (fetched.stepNum 8 8).trans place
  have since : x.boot.since = s.boot.since := by rw [fetched.boot]
  obtain ⟨unmoved, answer⟩ := State.transfer_scratchRead (m := .boot) (by decide) idle hk hw ((fetched.scratchSound k w).trans sound) 0
  generalize read : x.transfer .boot (scratchAddr k w) 8 [] false 0 false = t at unmoved answer
  have word : ofBytes (Tbl.get {} t.bus.answers 3).data = s.scratchWord k w := by
    rw [show Tbl.get {} t.bus.answers 3 = _ from answer, ofBytes_toBytes, fetched.scratchWord]
    exact Nat.mod_eq_of_lt (s.scratchWord_lt k w)
  refine ⟨_, congrArg Host.Outcome.next run, ?_⟩
  dsimp only
  rw [addr, read, State.bootErred_of_within unmoved.within (by decide), if_neg (by decide), word, value, arg, since,
    fetched.within.tick (by decide)]
  have step : t.boot.step = s.boot.step := (congrArg (·.step) (unmoved.within.boot (by decide))).trans fetched.step
  refine ⟨fun found => ?_, fun none early => ?_, fun none late => ?_⟩
  · rw [if_pos found, t.bootNext_facts.1, step]
  · rw [if_neg (not_not_intro none), if_neg (Nat.not_le.2 early)]
    refine ⟨step, ?_⟩
    rw [← running]
    unfold State.bootRunning
    rw [unmoved.within.rd (by decide)]
  · rw [if_neg (not_not_intro none), if_pos late]
    obtain ⟨phase, fail, -⟩ := t.bootFailed_facts 6
    exact ⟨phase, fail⟩

theorem completes_bootStepWait (at_ : s.atStep 8 = true) (late : s.boot.since + s.stepArg ≤ s.tick.n) : Completes .bootStepWait s fun t =>
    t.boot.step = s.boot.step + 1 ∧ t.bootRunning = true := by
  obtain ⟨x, fetched, running, -, run⟩ := State.bootStep_run at_ (by decide) State.bootNext
  refine ⟨_, congrArg Host.Outcome.next ((State.when_pos (decide_eq_true late)).trans run), ?_⟩
  obtain ⟨step, still, -⟩ := x.bootNext_facts
  exact ⟨step.trans (congrArg (· + 1) fetched.step), still.trans running⟩

/-- The list's end, whether its code is END or the window ends. -/
theorem exec_bootStepEnd (at_ : s.atStep 0 = true) : ∃ x : State, (x.bankState 0 = s.bankState 0 ∧ x.bankOwner 0 = s.bankOwner 0) ∧
    exec .bootStepEnd s = .next (x.bootStop phaseDone) := by
  obtain ⟨running, waiting, code, -⟩ := (s.atStep_iff 0).1 at_
  by_cases beyond : 0x10000 < 24 * (s.boot.step + 1)
  · exact ⟨s, ⟨rfl, rfl⟩, congrArg Host.Outcome.next (if_pos (by simp [running, waiting, beyond]))⟩
  · obtain ⟨x, fetched, run⟩ := State.bootStep_taken at_ (Nat.not_lt.1 beyond) fun s => s.bootStop phaseDone
    exact ⟨x, fetched.within.bank (by decide) 0,
      congrArg Host.Outcome.next ((if_neg (by simp [beyond])).trans ((if_pos code).trans run))⟩

theorem completes_bootStepEnd (at_ : s.atStep 0 = true) : Completes .bootStepEnd s fun t => t.rd F.sysBootStatusPhase 0 = 3 ∧
    (s.bankState 0 = 1 → s.bankOwner 0 = 3 → t.bankState 0 = 0) := by
  obtain ⟨x, ⟨state, owner⟩, run⟩ := exec_bootStepEnd at_
  obtain ⟨phase, -, freed⟩ := x.bootStop_facts phaseDone
  exact ⟨_, run, phase, state ▸ owner ▸ freed⟩

theorem completes_bootStepEnd_unknown {op : Nat} (unknown : 8 < op) (at_ : s.atStep op = true) : Completes .bootStepEnd s fun t =>
    t.rd F.sysBootStatusPhase 0 = 4 ∧ t.rd F.sysBootStatusFail 0 = 8 := by
  obtain ⟨-, -, code, -⟩ := (s.atStep_iff op).1 at_
  have inside := State.stepOp_inside code (by omega)
  obtain ⟨x, -, run⟩ := State.bootStep_taken at_ inside fun s => s.bootFailed 8
  obtain ⟨phase, fail, -⟩ := x.bootFailed_facts 8
  refine ⟨_, congrArg Host.Outcome.next ((if_neg (by simp; omega)).trans ((if_neg (by omega)).trans ((if_pos (by omega)).trans ?_))), phase, fail⟩
  rw [code]
  exact run

/-! ### Flash commands (13 R354) -/

/-- What a reset does not clear, held by a change that names none of its parts. -/
theorem Within.nv {f : Foot} {t : State} (h : Within f s t) (apart : [Comp.dieId, .factory, .fieldMap, .flashMiB, .flash, .stuck].all
    (fun c => !f.hasComp c) = true) : t.nv = s.nv := by
  simp only [List.all_cons, List.all_nil, Bool.and_true, Bool.and_eq_true, Bool.not_eq_true'] at apart
  obtain ⟨die, factory, map, size, flash, stuck⟩ := apart
  have eta : ∀ n : NonVol, n = ⟨n.dieId, n.factory, n.fieldMap, n.flashMiB, n.flash, n.stuck⟩ := fun _ => rfl
  rw [eta t.nv, h.dieId die, h.factory factory, h.fieldMap map, h.flashMiB size, h.flash flash, h.stuck stuck]

theorem Within.nvmOk {f : Foot} {t : State} (h : Within f s t) (h1 : f.hasReg .nvmStatus = false) (h2 : f.hasReg .nvmInfo = false)
    (op addr len : Nat) : t.nvmOk op addr len = s.nvmOk op addr len := by
  unfold State.nvmOk State.flashSize
  rw [h.flag h1, h.rd h2]

/-- A flash command's operands shown, and BUSY. -/
def State.nvmShown (s : State) (addr len : Nat) : State := ((s.wr F.nvmCmdAddr 0 addr).wr F.nvmCmdLen 0 len).setFlag F.nvmStatusBusy 0 true

/-- A flash command's operands taken, and what the buffer holds for a program. -/
def State.nvmHeld (s : State) (op addr len : Nat) : State :=
  { s with nvm := { s.nvm with cmd := some (op, addr, len), data := if op = 1 then memRead s.nvm.buf 0 len else [] } }

theorem State.nvmCommand_expert {m : Master} (he : s.expert m = true) (op addr len : Nat) : s.nvmCommand m op addr len =
    if s.nvmOk op addr len then (s.nvmShown addr len).nvmHeld op addr len else s.errResp m (regAddr .nvmCmd 0) true .value := by
  unfold State.nvmCommand
  dsimp only
  rw [he, if_neg (by simp)]
  rfl

theorem State.nvmHeld_within (s : State) (op addr len : Nat) : Within (.of [.nvm] []) s (s.nvmHeld op addr len) := .set_nvm (.refl ..) (by decide)

theorem State.nvmShown_within (s : State) (addr len : Nat) : Within (.of [] [.nvmCmd, .nvmStatus]) s (s.nvmShown addr len) :=
  .setFlag _ _ _ (.wr _ _ _ (.wr _ _ _ (.refl ..) (by decide)) (by decide)) (by decide)

theorem State.nvmTaken_facts (s : State) (op addr len : Nat) : ((s.nvmShown addr len).nvmHeld op addr len).flag F.nvmStatusBusy 0 = true ∧
    ((s.nvmShown addr len).nvmHeld op addr len).nvm.cmd = some (op, addr, len) ∧
    ((s.nvmShown addr len).nvmHeld op addr len).nvm.data = (if op = 1 then memRead s.nvm.buf 0 len else []) ∧
    ((s.nvmShown addr len).nvmHeld op addr len).nv = s.nv := by
  have shown := s.nvmShown_within addr len
  have busy : (s.nvmShown addr len).flag F.nvmStatusBusy 0 = true := State.flag_setFlag _ _ _ _ rfl (by decide)
  have held : ∀ y : State, (y.nvmHeld op addr len).nvm.cmd = some (op, addr, len) ∧
      (y.nvmHeld op addr len).nvm.data = (if op = 1 then memRead y.nvm.buf 0 len else []) ∧ (y.nvmHeld op addr len).nv = y.nv :=
    fun _ => ⟨rfl, rfl, rfl⟩
  obtain ⟨cmd, data, nv⟩ := held (s.nvmShown addr len)
  refine ⟨(State.nvmHeld_within ..).flag (by decide) 0 |>.trans busy, cmd, ?_, nv.trans (shown.nv rfl)⟩
  rw [data, shown.nvm (by decide)]


/-- A flash command beyond the limits. -/
theorem State.nvmRefused_facts (s : State) (m : Master) : (s.errResp m (regAddr .nvmCmd 0) true .value).nvm = s.nvm ∧
    (s.errResp m (regAddr .nvmCmd 0) true .value).rd F.busErrLastCause (masterNum m) = 5 :=
  ⟨State.errResp_nvm .., State.rd_busErrLastCause_errResp ..⟩

theorem completes_nvmProgram {m : Master} (hr : s.reaches m 18 true = true) (he : s.expert m = true) (addr : BitVec 28) (len : BitVec 13) :
    Completes (.nvmProgram m addr len) s fun t =>
      (s.nvmOk 1 addr.toNat len.toNat = true → t.flag F.nvmStatusBusy 0 = true ∧ t.nvm.cmd = some (1, addr.toNat, len.toNat) ∧
        t.nvm.data = memRead s.nvm.buf 0 len.toNat ∧ t.nv = s.nv) ∧
      (s.nvmOk 1 addr.toNat len.toNat = false → t.nvm = s.nvm ∧ t.rd F.busErrLastCause (masterNum m) = 5) := by
  obtain ⟨x, counted, run⟩ := s.byReg_ok m .nvmCmd 0 8 true (·.nvmCommand m 1 addr.toNat len.toNat) hr
  refine ⟨_, congrArg Host.Outcome.next run, ?_⟩
  rw [State.nvmCommand_expert ((counted.expert (by decide) m).trans he), counted.nvmOk (by decide) (by decide), ← counted.nvm (by decide),
    ← counted.nv (by decide)]
  refine ⟨fun ok => ?_, fun bad => ?_⟩
  · rw [if_pos ok]
    obtain ⟨busy, cmd, data, nv⟩ := x.nvmTaken_facts 1 addr.toNat len.toNat
    exact ⟨busy, cmd, data, nv⟩
  · rw [if_neg (by rw [bad]; decide)]
    exact x.nvmRefused_facts m

theorem State.nvmOk_erase (s : State) (addr l k : Nat) : s.nvmOk 2 addr l = s.nvmOk 2 addr k := rfl

theorem completes_nvmErase {m : Master} (hr : s.reaches m 18 true = true) (he : s.expert m = true) (addr : BitVec 28) :
    Completes (.nvmErase m addr) s fun t =>
      (∀ l : Nat, s.nvmOk 2 addr.toNat l = true → t.flag F.nvmStatusBusy 0 = true ∧ (t.nvm.cmd.map fun c => (c.1, c.2.1)) = some (2, addr.toNat) ∧
        t.nv = s.nv) ∧
      (∀ l : Nat, s.nvmOk 2 addr.toNat l = false → t.nvm = s.nvm ∧ t.rd F.busErrLastCause (masterNum m) = 5) := by
  obtain ⟨x, counted, run⟩ := s.byReg_ok m .nvmCmd 0 8 true (fun s => s.nvmCommand m 2 addr.toNat (s.rd F.nvmCmdLen 0)) hr
  refine ⟨_, congrArg Host.Outcome.next run, ?_⟩
  rw [State.nvmCommand_expert ((counted.expert (by decide) m).trans he), counted.nvmOk (by decide) (by decide), ← counted.nvm (by decide),
    ← counted.nv (by decide)]
  generalize x.rd F.nvmCmdLen 0 = len
  refine ⟨fun l ok => ?_, fun l bad => ?_⟩
  · rw [if_pos ((s.nvmOk_erase ..).trans ok)]
    obtain ⟨busy, cmd, -, nv⟩ := x.nvmTaken_facts 2 addr.toNat len
    exact ⟨busy, by rw [cmd]; rfl, nv⟩
  · rw [if_neg (by rw [s.nvmOk_erase addr.toNat len l, bad]; decide)]
    exact x.nvmRefused_facts m

/-! ### The junction sensor (15 R385; 12 R320) -/

/-- A read of TJ_MAX noted. -/
def State.tjNoted (s : State) : State := { s with boot := { s.boot with tjRead := true } }

theorem State.tjNoted_within (s : State) : Within (.of [.boot] []) s s.tjNoted := .set_boot (.refl ..) (by decide)

theorem State.tjClear_eq (s : State) : s.tjClear = s.tjNoted.wr F.sysTempTjMax 0 0 := rfl

theorem State.tjClear_facts (s : State) : s.tjClear.rd F.sysTempTjMax 0 = 0 ∧ s.tjClear.rd F.sysTempTj 0 = s.rd F.sysTempTj 0 ∧
    s.tjClear.bus = s.bus := by
  rw [State.tjClear_eq, State.rd_wr _ _ _ _ (by decide), State.rd_wr_apart _ _ _ _ (by decide) (by decide), s.tjNoted_within.rd (by decide),
    State.wr_bus, s.tjNoted_within.bus (by decide)]
  exact ⟨rfl, rfl, rfl⟩

theorem completes_sysTempRead {m : Master} (hr : s.reaches m 18 false = true) (part : Part) : Completes (.sysTempRead m part) s fun t =>
    Tbl.get {} t.bus.answers (masterNum m) = ⟨true, partBytes part (s.word .sysTemp 0).toNat⟩ ∧
    (part = .low → t.word .sysTemp 0 = s.word .sysTemp 0) ∧
    (part ≠ .low → t.rd F.sysTempTjMax 0 = 0 ∧ t.rd F.sysTempTj 0 = s.rd F.sysTempTj 0) := by
  obtain ⟨x, counted, run⟩ := s.byTarget_ok m 18 (regAddr .sysTemp 0 + if part = .high then 4 else 0) (if part = .whole then 8 else 4) false
    (fun s => if part = .low then s.answer m true (partBytes part (s.word .sysTemp 0).toNat)
      else (s.answer m true (partBytes part (s.word .sysTemp 0).toNat)).tjClear) hr
  have word : x.word .sysTemp 0 = s.word .sysTemp 0 := counted.word _ (by decide) 0
  refine ⟨_, congrArg Host.Outcome.next run, ?_⟩
  rw [word]
  by_cases low : part = .low
  · rw [if_pos low]
    exact ⟨State.answers_answer .., fun _ => (State.word_answer ..).trans word, fun other => absurd low other⟩
  · rw [if_neg low]
    obtain ⟨cleared, kept, bus⟩ := (x.answer m true (partBytes part (s.word .sysTemp 0).toNat)).tjClear_facts
    rw [bus, cleared, kept, State.rd_answer, counted.rd (by decide)]
    exact ⟨State.answers_answer .., fun same => absurd same low, fun _ => ⟨rfl, rfl⟩⟩

end

/-- Settles O55: a step is fetched and its access made without a change to what it names, a flash command is judged by its limits, and a read of the
sensor answers before it clears. -/
theorem listStepsFlashAndSensorComplete : Obligations.ListStepsFlashAndSensorComplete := fun _ _ _ _ hk hw =>
  ⟨completes_bootStepWrite hk hw, completes_bootStepPoll hk hw, completes_bootStepWait, completes_bootStepEnd,
    fun _ unknown at_ => completes_bootStepEnd_unknown unknown at_,
    fun addr len hr he => ⟨completes_nvmProgram hr he addr len, completes_nvmErase hr he addr⟩, fun part hr => completes_sysTempRead hr part⟩

end Sys2Proof.Machine

/-! The host ports: what a configuration request answers and stores, and a request that waits (12 R308, R310, R315; 13 R349; 15 R384, R392). -/

namespace Sys2Proof.Machine

section
variable {s : State} {p : Port}

theorem completes_hostLinkUp (risen : s.boot.risen = true) : Completes (.hostLinkUp p) s fun t =>
    (Tbl.get {} t.irqs (masterNum (portMaster p))).up = true :=
  ⟨_, congrArg Host.Outcome.next (State.when_pos risen), congrArg (·.up) (State.setPort_facts ..).1⟩

/-! ### Configuration requests (12 R308, R310) -/

/-- What a port that is up does with a configuration request that reads. -/
theorem completes_configurationRead {r : CfgReq} {d : List Byte} (up : (Tbl.get {} s.irqs (masterNum (portMaster p))).up = true)
    (named : (exec (.configurationRequest p r) s = .next (if !(Tbl.get {} s.irqs (masterNum (portMaster p))).up then s
      else s.answer (portMaster p) true d))) :
    Completes (.configurationRequest p r) s fun t => Tbl.get {} t.bus.answers (masterNum (portMaster p)) = ⟨true, d⟩ :=
  ⟨_, named.trans (congrArg Host.Outcome.next (if_neg (by rw [up]; decide))), State.answers_answer ..⟩

/-- What a port that is up does with one that stores. -/
theorem completes_configurationWrite {r : CfgReq} {h : IrqH} (up : (Tbl.get {} s.irqs (masterNum (portMaster p))).up = true)
    (named : exec (.configurationRequest p r) s = .next (if !(Tbl.get {} s.irqs (masterNum (portMaster p))).up then s
      else s.setPort (masterNum (portMaster p)) h)) :
    Completes (.configurationRequest p r) s fun t => Tbl.get {} t.irqs (masterNum (portMaster p)) = h :=
  ⟨_, named.trans (congrArg Host.Outcome.next (if_neg (by rw [up]; decide))), (State.setPort_facts ..).1⟩

/-- The same of one that lets vectors send. -/
theorem completes_configurationPut {r : CfgReq} {h : IrqH} (up : (Tbl.get {} s.irqs (masterNum (portMaster p))).up = true)
    (named : exec (.configurationRequest p r) s = .next (if !(Tbl.get {} s.irqs (masterNum (portMaster p))).up then s
      else (s.setPort (masterNum (portMaster p)) h.flush).irqSync)) :
    Completes (.configurationRequest p r) s fun t => (Tbl.get {} t.irqs (masterNum (portMaster p))).config = h.config := by
  refine ⟨_, named.trans (congrArg Host.Outcome.next (if_neg (by rw [up]; decide))), ?_⟩
  dsimp only
  rw [State.config_irqSync, (State.setPort_facts ..).1, IrqH.config_flush]

theorem Completes.imp {c : Instr} {P Q : State → Prop} (h : Completes c s P) (hpq : ∀ t, P t → Q t) : Completes c s Q := by
  obtain ⟨t, run, done⟩ := h
  exact ⟨t, run, hpq t done⟩

theorem completes_configurationRequest {a : Nat} (port : a = masterNum (portMaster p)) (up : (Tbl.get {} s.irqs a).up = true) :
    Completes (.configurationRequest p .readId) s (fun t => Tbl.get {} t.bus.answers a = ⟨true, identityBytes⟩) ∧
    Completes (.configurationRequest p .readStatus) s (fun t => Tbl.get {} t.bus.answers a = ⟨true, statusBytes (Tbl.get {} s.irqs a)⟩) ∧
    (∀ j : Fin 6, Completes (.configurationRequest p (.readBar j)) s fun t =>
      Tbl.get {} t.bus.answers a = ⟨true, toBytes 4 (barRead (Tbl.get {} s.irqs a) j).toNat⟩) ∧
    (∀ (j : Fin 6) (b : BitVec 32), Completes (.configurationRequest p (.writeBar j b)) s fun t => Tbl.get 0 (Tbl.get {} t.irqs a).bars j = b) ∧
    (∀ b : BitVec 32, Completes (.configurationRequest p (.clearAer b)) s fun t =>
      (Tbl.get {} t.irqs a).aer = (Tbl.get {} s.irqs a).aer &&& ~~~b) ∧
    (∀ d : Bool, Completes (.configurationRequest p (.power d)) s fun t => (Tbl.get {} t.irqs a).d3hot = d) ∧
    (∀ d : Bool, Completes (.configurationRequest p (.busMaster d)) s fun t => (Tbl.get {} t.irqs a).busMaster = d) ∧
    (∀ d e : Bool, Completes (.configurationRequest p (.msix d e)) s fun t =>
      (Tbl.get {} t.irqs a).msix = d ∧ (Tbl.get {} t.irqs a).fnMask = e) := by
  subst port
  refine ⟨completes_configurationRead up rfl, completes_configurationRead up rfl, fun j => completes_configurationRead up rfl, fun j b => ?_,
    fun b => ?_, fun d => ?_, fun d => ?_, fun d e => ?_⟩
  · refine (completes_configurationWrite up rfl).imp fun t stored => ?_
    rw [stored]
    exact Tbl.get_set_same ..
  · exact (completes_configurationWrite up rfl).imp fun t stored => congrArg (·.aer) stored
  · exact (completes_configurationPut up rfl).imp fun t shown => congrArg (·.d3hot) shown
  · exact (completes_configurationPut up rfl).imp fun t shown => congrArg (·.busMaster) shown
  · exact (completes_configurationPut up rfl).imp fun t shown => ⟨congrArg (·.msix) shown, congrArg (·.fnMask) shown⟩

/-! ### Memory requests (12 R308, R310, R315) -/

/-- A memory request within its BAR of a port that is up and awake. -/
theorem State.hostRequest_taken (up : (Tbl.get {} s.irqs (masterNum (portMaster p))).up = true)
    (awake : (Tbl.get {} s.irqs (masterNum (portMaster p))).d3hot = false) {bar2 : Bool} {off addr : Nat}
    (within : s.barAddr (masterNum (portMaster p)) bar2 off = some addr) (n : Nat) (data : List (Option Byte)) (write : Bool) (cyc : Nat)
    (busy : Bool) : s.hostRequest p bar2 off n data write cyc busy =
      (s.hostMeter (portMaster p) write n).transfer (portMaster p) addr n data write cyc busy := by
  unfold State.hostRequest
  dsimp only
  rw [up, awake, if_neg (by decide), if_neg (by decide), within]

/-- A burst laid behind those that wait. -/
def State.burstWaits (r : BusReq) (s : State) : State := { s with bus := { s.bus with waiting := s.bus.waiting ++ [r] } }

theorem State.each_burstWaits (bs : List BusReq) (s : State) : (s.each bs State.burstWaits).bus.waiting = s.bus.waiting ++ bs ∧
    (s.each bs State.burstWaits).core = s.core := by
  unfold State.each
  induction bs generalizing s with
  | nil => exact ⟨(List.append_nil _).symm, rfl⟩
  | cons r bs ih =>
    obtain ⟨waiting, core⟩ := ih (s.burstWaits r)
    exact ⟨waiting.trans (List.append_assoc ..), core⟩

/-- A transfer to a busy target waits as its bursts, behind the others. -/
theorem State.transfer_busy (s : State) (m : Master) (a n : Nat) (data : List (Option Byte)) (write : Bool) (cyc : Nat) :
    (s.transfer m a n data write cyc true).bus.waiting = s.bus.waiting ++ transferBursts m a n data write ∧
    (s.transfer m a n data write cyc true).core = s.core :=
  State.each_burstWaits (transferBursts m a n data write) (s.countBy .busSplits (masterNum m) ((transferBursts m a n data write).length - 1))

theorem State.hostRequest_waits (up : (Tbl.get {} s.irqs (masterNum (portMaster p))).up = true)
    (awake : (Tbl.get {} s.irqs (masterNum (portMaster p))).d3hot = false) {bar2 : Bool} {off addr : Nat}
    (within : s.barAddr (masterNum (portMaster p)) bar2 off = some addr) (n : Nat) (data : List (Option Byte)) (write : Bool) (cyc : Nat) :
    (s.hostRequest p bar2 off n data write cyc true).bus.waiting = s.bus.waiting ++ transferBursts (portMaster p) addr n data write ∧
      (s.hostRequest p bar2 off n data write cyc true).core = s.core := by
  have metered := State.hostMeter_within s (portMaster p) write n
  obtain ⟨waiting, core⟩ := (s.hostMeter (portMaster p) write n).transfer_busy (portMaster p) addr n data write cyc
  rw [State.hostRequest_taken up awake within, waiting, core, metered.bus (by decide), metered.core (by decide)]
  exact ⟨rfl, rfl⟩

theorem State.barAddr_scratch (s : State) (a : Nat) {k w : Nat} (hk : k < 16) (hw : w < 8192) :
    s.barAddr a false (scratchAddr k w) = some (scratchAddr k w) := by
  have inside : scratchAddr k w < 0x20000000 := by
    unfold scratchAddr
    omega
  unfold State.barAddr
  rw [if_neg (by decide), if_pos inside]

theorem portMaster_known (p : Port) : portMaster p ≠ .logger := by cases p <;> decide

theorem completes_hostRead_scratch {k w : Nat} (up : (Tbl.get {} s.irqs (masterNum (portMaster p))).up = true)
    (awake : (Tbl.get {} s.irqs (masterNum (portMaster p))).d3hot = false) (hk : k < 16) (hw : w < 8192)
    (idle : s.masterWaits (portMaster p) = false) (sound : s.scratchSound k w = true) (cyc : Nat) :
    Completes (.hostRead p false (scratchAddr k w) 8 cyc false) s fun t =>
      Tbl.get {} t.bus.answers (masterNum (portMaster p)) = ⟨true, toBytes 8 (s.scratchWord k w)⟩ := by
  have metered := Unmoved.hostMeter s (portMaster p) false 8
  refine ⟨_, congrArg Host.Outcome.next (State.hostRequest_taken up awake (s.barAddr_scratch _ hk hw) ..), ?_⟩
  rw [← metered.scratchWord]
  exact (State.transfer_scratchRead (portMaster_known p) ((metered.waits _).trans idle) hk hw ((metered.scratchSound k w).trans sound) cyc).2

theorem completes_hostWrite_scratch {k w : Nat} (up : (Tbl.get {} s.irqs (masterNum (portMaster p))).up = true)
    (awake : (Tbl.get {} s.irqs (masterNum (portMaster p))).d3hot = false) (hk : k < 16) (hw : w < 8192)
    (idle : s.masterWaits (portMaster p) = false) (available : s.available (1 + k) = true)
    (allowed : s.bankWriteRefused (portMaster p) k w = false) (v : Word) (cyc : Nat) :
    Completes (.hostWrite p false (scratchAddr k w) ((toBytes 8 v.toNat).map some) cyc false) s fun t => t.scratchWord k w = v.toNat := by
  have metered := Unmoved.hostMeter s (portMaster p) true 8
  obtain ⟨x, -, run⟩ := State.transfer_scratchWrite (portMaster_known p) ((metered.waits _).trans idle) hk hw
    ((Foot.counted_available metered.within _).trans available) ((metered.bankWriteRefused ..).trans allowed) v.toNat cyc
  refine ⟨x.scratchPut (portMaster p) k w (v.toNat % 2 ^ 64) cyc,
    congrArg Host.Outcome.next ((State.hostRequest_taken up awake (s.barAddr_scratch _ hk hw) ..).trans run),
    (State.scratchWord_scratchPut ..).trans ((Nat.mod_mod ..).trans (Nat.mod_eq_of_lt v.isLt))⟩

theorem completes_hostRequests {a off : Nat} (port : a = masterNum (portMaster p)) (up : (Tbl.get {} s.irqs a).up = true)
    (awake : (Tbl.get {} s.irqs a).d3hot = false) (n cyc : Nat) (data : List (Option Byte)) {k w : Nat} (v : Word) :
    (∀ (bar2 : Bool) (addr : Nat), s.barAddr a bar2 off = some addr →
      Completes (.hostRead p bar2 off n cyc true) s (fun t =>
        t.bus.waiting = s.bus.waiting ++ transferBursts (portMaster p) addr n [] false ∧ t.core = s.core) ∧
      Completes (.hostWrite p bar2 off data cyc true) s fun t =>
        t.bus.waiting = s.bus.waiting ++ transferBursts (portMaster p) addr data.length data true ∧ t.core = s.core) ∧
    (k < 16 → w < 8192 → off = scratchAddr k w → s.reaches (portMaster p) (1 + k) false = true →
      (s.scratchSound k w = true →
        Completes (.hostRead p false off 8 cyc false) s fun t => Tbl.get {} t.bus.answers a = ⟨true, toBytes 8 (s.scratchWord k w)⟩) ∧
      (s.bankWriteRefused (portMaster p) k w = false →
        Completes (.hostWrite p false off ((toBytes 8 v.toNat).map some) cyc false) s fun t => t.scratchWord k w = v.toNat)) := by
  subst port
  refine ⟨fun bar2 addr within => ⟨⟨_, rfl, State.hostRequest_waits up awake within ..⟩, ⟨_, rfl, State.hostRequest_waits up awake within ..⟩⟩,
    fun hk hw place hr => ?_⟩
  subst place
  simp only [State.reaches, Bool.and_eq_true, Bool.not_eq_true'] at hr
  obtain ⟨⟨-, idle⟩, available⟩ := hr
  exact ⟨fun sound => completes_hostRead_scratch up awake hk hw idle sound cyc,
    fun allowed => completes_hostWrite_scratch up awake hk hw idle available allowed v cyc⟩

end

end Sys2Proof.Machine

/-! Grants, the latched error, and register writes (12 R311, R313, R317, R320; 15 R378 to R382). -/

namespace Sys2Proof.Machine

section
variable {s : State}

/-! ### A granted burst (12 R317) -/

/-- The burst a target grants is the first of its master's that wait. -/
theorem State.granting_mem {t : Nat} {r : BusReq} (granted : s.granting t = some r) : r ∈ s.heads t := by
  have chosen : ∀ (l : List BusReq) (best : Option BusReq) (f : BusReq → BusReq → Bool),
      l.foldl (fun best r => match best with | some b => if f r b then some r else some b | none => some r) best = some r →
      best = some r ∨ r ∈ l := by
    intro l
    induction l with
    | nil => exact fun best f found => .inl found
    | cons x l ih =>
      intro best f found
      obtain first | later := ih _ f found
      · cases best with
        | none => exact .inr (List.mem_cons.2 (.inl (Option.some.inj first).symm))
        | some b =>
          dsimp only at first
          split at first
          · exact .inr (List.mem_cons.2 (.inl (Option.some.inj first).symm))
          · exact .inl first
      · exact .inr (List.mem_cons_of_mem _ later)
  exact (chosen _ none _ granted).resolve_left nofun

theorem State.heads_waiting {t : Nat} {r : BusReq} (head : r ∈ s.heads t) : r ∈ s.bus.waiting := by
  unfold State.heads at head
  obtain ⟨m, -, found⟩ := List.mem_filterMap.1 head
  split at found
  · cases found
  · split at found
    next x first =>
      split at found
      · rw [← Option.some.inj found]
        exact List.mem_of_find?_eq_some first
      · cases found
    next => cases found

/-- Taking out a burst of a master that has one leaves one less. -/
theorem takeBurst_length {m : Master} {rs : List BusReq} (waits : m ∈ rs.map (·.master)) : (takeBurst m rs).length + 1 = rs.length := by
  obtain ⟨r, listed, rfl⟩ := List.mem_map.1 waits
  have taken := List.length_eraseP_of_mem (p := fun x => decide (x.master = r.master)) listed (decide_eq_true rfl)
  have some_ := List.length_pos_of_mem listed
  unfold takeBurst
  omega

/-- The queue without the burst that a target grants. -/
def State.burstTaken (s : State) (m : Master) : State := { s with bus := { s.bus with waiting := takeBurst m s.bus.waiting } }

/-- The state a granted burst is carried out on. -/
def State.grantStart (s : State) (r : BusReq) (t waited : Nat) : State :=
  (((s.passOver r.master t).burstTaken r.master).countBy .busWait t waited).meter .pmBwBusWait t waited

theorem State.grantStart_facts (s : State) (r : BusReq) (t waited : Nat) :
    Within (.of [.pm, .bus] [.busWait]) s (s.grantStart r t waited) ∧ (s.grantStart r t waited).bus.scratch = s.bus.scratch ∧
      (s.grantStart r t waited).bus.waiting = takeBurst r.master (s.passOver r.master t).bus.waiting ∧
      (s.grantStart r t waited).word .busWait t = s.word .busWait t + BitVec.ofNat 64 waited := by
  have passed := State.passOver_within s r.master t
  have taken : Within (.of [.bus] []) s ((s.passOver r.master t).burstTaken r.master) := .set_bus passed (by decide)
  obtain ⟨words, -⟩ := State.shared_facts (s.shared_passOver r.master t)
  unfold State.grantStart
  have metered := State.meter_within (((s.passOver r.master t).burstTaken r.master).countBy .busWait t waited) .pmBwBusWait t waited
  refine ⟨.after metered (.countBy _ _ _ (taken.mono (by decide)) (by decide)) (by decide), ?_, ?_, ?_⟩
  · rw [metered.bus (by decide)]
    exact words
  · rw [metered.bus (by decide)]
    rfl
  · rw [metered.word _ (by decide), State.word_countBy, taken.word _ (by decide)]

theorem completes_busGrant {i : TargetId} {r : BusReq} {k w : Nat} (granted : s.granting i = some r) (read : r.write = false)
    (first : r.first = true) (target : r.target = 1 + k) (hk : k < 16) (hw : w < 8192) (addr : r.addr = scratchAddr k w)
    (len : r.len = 8) (path : hasPath r.master (1 + k) false = true) (sound : s.scratchSound k w = true) (cyc waited : Nat) :
    Completes (.busGrant i cyc waited) s fun t => t.bus.waiting.length + 1 = s.bus.waiting.length ∧
      Tbl.get {} t.bus.answers (masterNum r.master) = ⟨true, toBytes 8 (s.scratchWord k w)⟩ ∧
      t.word .busWait i = s.word .busWait i + BitVec.ofNat 64 waited := by
  have run : exec (.busGrant i cyc waited) s = .next ((s.grantStart r i waited).burstDo r cyc) := by
    show execBusGrant i cyc waited s = _
    unfold execBusGrant
    rw [granted]
    rfl
  obtain ⟨within, words, waiting, counted⟩ := s.grantStart_facts r i waited
  generalize s.grantStart r i waited = x at run within words waiting counted
  have sound' : x.scratchSound k w = true :=
    (within.scratchSound (by decide) (by decide) (by decide) (by decide) (by decide) k w).trans sound
  obtain ⟨available, -⟩ := (x.scratchSound_iff k w).1 sound'
  have word : x.scratchWord k w = s.scratchWord k w := by
    unfold State.scratchWord
    rw [words]
  have start := Unmoved.burstStart x r
  obtain ⟨moved, answer⟩ := State.burstDo_read (cyc := cyc) read first (target ▸ path) (target ▸ available) (by
    rw [target, addr, len, State.targetRead_scratch hk hw ((start.scratchSound k w).trans sound')])
  refine ⟨_, run, ?_, ?_, ?_⟩
  · rw [moved.length, waiting, takeBurst_length, ← List.length_map (f := (·.master)), State.passOver_masters, List.length_map]
    rw [State.passOver_masters]
    exact List.mem_map.2 ⟨r, State.heads_waiting (State.granting_mem granted), rfl⟩
  · rw [answer, start.scratchWord, word]
  · rw [moved.within.word _ (by decide), counted]

/-! ### The latched error (12 R311, Table 12-10) -/

theorem completes_busErrLastRead {m : Master} (hr : s.reaches m 18 false = true) (of : Master) : Completes (.busErrLastRead m of) s fun t =>
    Tbl.get {} t.bus.answers (masterNum m) = ⟨true, toBytes 8 (s.word .busErrLast (masterNum of)).toNat⟩ ∧
    t.flag F.busErrLastValid (masterNum of) = false := by
  obtain ⟨x, counted, run⟩ := s.byReg_ok m .busErrLast (masterNum of) 8 false (fun s =>
    (s.answer m true (toBytes 8 (s.word .busErrLast (masterNum of)).toNat)).setFlag F.busErrLastValid (masterNum of) false) hr
  refine ⟨_, congrArg Host.Outcome.next run, ?_, State.flag_setFlag _ _ _ _ rfl (by decide)⟩
  rw [counted.word _ (by decide), State.setFlag_bus]
  exact State.answers_answer ..

/-! ### The bytes of a part (12 R320) -/

theorem bytes_eq_partBytes (p : Part) (v : Nat) : (Part.bytes p v).map (fun b => some b.2) = (partBytes p v).map some := by
  cases p <;> simp [Part.bytes, partBytes, toBytes, List.range_succ, Nat.div_div_eq_div_mul]

/-- The address of a part of the word at `b`. -/
def partPlace (p : Part) (b : Nat) : Nat := b + if p = .high then 4 else 0

/-- How many bytes a part has. -/
def partSize (p : Part) : Nat := if p = .whole then 8 else 4

/-- The bits of a part, on their own lanes. -/
def partLanes (p : Part) (v : Nat) : Nat :=
  match p with
  | .whole => v % 2 ^ 64
  | .low => v % 2 ^ 32
  | .high => v / 2 ^ 32 % 2 ^ 32 * 2 ^ 32

theorem partBytes_length (p : Part) (v : Nat) : (partBytes p v).length = partSize p := by
  cases p <;> rfl

theorem partOf_partPlace (p : Part) {b : Nat} (aligned : b % 8 = 0) : partOf (partPlace p b) (partSize p) = some p := by
  have four : (b + 4) % 8 = 4 := by omega
  cases p <;> simp [partOf, partPlace, partSize, aligned, four]

theorem partPlace_word (p : Part) {b : Nat} (aligned : b % 8 = 0) : partPlace p b / 8 * 8 = b := by
  unfold partPlace
  split <;> omega

theorem partPlace_fits (p : Part) (b : Nat) : b ≤ partPlace p b ∧ partPlace p b + partSize p ≤ b + 8 ∧ 0 < partSize p := by
  unfold partPlace partSize
  cases p <;> simp

theorem ofBytes_append (l k : List Byte) : ofBytes (l ++ k) = ofBytes l + 256 ^ l.length * ofBytes k := by
  induction l with
  | nil => rw [List.nil_append, List.length_nil, Nat.pow_zero, Nat.one_mul]; exact (Nat.zero_add _).symm
  | cons b l ih =>
    show b.toNat + 256 * ofBytes (l ++ k) = b.toNat + 256 * ofBytes l + 256 ^ (l.length + 1) * ofBytes k
    rw [ih, Nat.pow_succ', Nat.mul_add, Nat.mul_assoc, Nat.add_assoc]

theorem lanesAt_low (b x : Nat) : lanesAt b ((toBytes 4 x).map some) b = (toBytes 4 x).map some ++ List.replicate 4 none := by
  simp [lanesAt, toBytes, List.range_succ]

theorem lanesAt_high (b x : Nat) : lanesAt (b + 4) ((toBytes 4 x).map some) b = List.replicate 4 none ++ (toBytes 4 x).map some := by
  simp [lanesAt, toBytes, List.range_succ, Nat.add_sub_add_left]

theorem getD_map_some (l : List Byte) : (l.map some).map (fun x => x.getD 0) = l := by
  rw [List.map_map]
  exact List.map_id l

/-- The bytes of a part spell its bits on their lanes. -/
theorem ofBytes_lanesAt (p : Part) (b v : Nat) :
    ofBytes ((lanesAt (partPlace p b) ((partBytes p v).map some) b).map fun x => x.getD 0) = partLanes p v := by
  cases p with
  | whole =>
    rw [show partPlace .whole b = b from rfl, show partBytes .whole v = toBytes 8 v from rfl, lanesAt_whole, getD_map_some, ofBytes_toBytes]
    rfl
  | low =>
    rw [show partPlace .low b = b from rfl, show partBytes .low v = toBytes 4 v from rfl, lanesAt_low, List.map_append, getD_map_some, ofBytes_append,
      ofBytes_toBytes]
    rfl
  | high =>
    rw [show partPlace .high b = b + 4 from rfl, show partBytes .high v = toBytes 4 (v / 2 ^ 32) from rfl, lanesAt_high, List.map_append,
      getD_map_some, ofBytes_append, ofBytes_toBytes]
    show 0 + 256 ^ 4 * (v / 2 ^ 32 % 256 ^ 4) = v / 2 ^ 32 % 2 ^ 32 * 2 ^ 32
    omega

/-- The other half of a register is the stored one, whatever is written beside the part. -/
theorem State.wholeValue_partLanes (s : State) (r : Reg) (i : Nat) (p : Part) {v : Nat} (small : v < 2 ^ 64) :
    s.wholeValue r i p (partLanes p v) = s.wholeValue r i p v := by
  have whole : v % 2 ^ 64 = v := Nat.mod_eq_of_lt small
  have low : field (v % 2 ^ 32) 0 32 = field v 0 32 := by
    unfold field
    omega
  have high : field (v / 2 ^ 32 % 2 ^ 32 * 2 ^ 32) 32 32 = field v 32 32 := by
    unfold field
    omega
  unfold State.wholeValue partLanes
  cases p <;> simp only [whole, low, high]

/-! ### Register writes (15 R378 to R382) -/

theorem targetRanges_aligned : ∀ r ∈ targetRanges, r.1 % 8 = 0 ∧ r.2.1 % 8 = 0 := by decide +kernel

/-- A part of a word lies in the word's target. -/
theorem targetAt_partPlace (p : Part) {b : Nat} (aligned : b % 8 = 0) : targetAt (partPlace p b) = targetAt b := by
  obtain ⟨start, last, some_⟩ := partPlace_fits p b
  unfold targetAt
  rw [List.find?_congr (p₂ := fun r => decide (r.1 ≤ b) && decide (b < r.2.1)) fun r listed => ?_]
  obtain ⟨low, high⟩ := targetRanges_aligned r listed
  exact congrArg₂ (· && ·) (decide_eq_decide.2 (by omega)) (decide_eq_decide.2 (by omega))

/-- A target ends where a word does. -/
theorem targetEnd_partPlace (p : Part) {b : Nat} (aligned : b % 8 = 0) (inside : b < 2 ^ 40) :
    partSize p ≤ targetEnd (partPlace p b) - partPlace p b := by
  obtain ⟨start, last, some_⟩ := partPlace_fits p b
  unfold targetEnd
  split
  next r found =>
    obtain ⟨low, high⟩ := targetRanges_aligned r (List.mem_of_find?_eq_some found)
    have before : partPlace p b < r.2.1 := of_decide_eq_true (List.find?_some (p := fun r : Nat × Nat × Nat => decide (partPlace p b < r.2.1)) found)
    split <;> omega
  next => omega

/-- The burst of a part of a word. -/
def partBurst (m : Master) (p : Part) (b v : Nat) : BusReq :=
  { master := m, target := targetAt b, addr := partPlace p b, len := partSize p, data := (partBytes p v).map some, write := true, first := true,
    passes := 0 }

theorem oneBurst_part (m : Master) (p : Part) {b : Nat} (aligned : b % 8 = 0) (v : Nat) :
    oneBurst m (partPlace p b) (partSize p) ((partBytes p v).map some) true = partBurst m p b v := by
  unfold oneBurst partBurst
  rw [targetAt_partPlace p aligned, List.take_of_length_le (by rw [List.length_map, partBytes_length])]

/-- The state a register write's one burst is granted on. -/
def State.partStart (s : State) (m : Master) (p : Part) (t : Nat) : State :=
  ((s.hostMeter m true (partSize p)).countBy .busSplits (masterNum m) 0).passOver m t

theorem Unmoved.partStart (s : State) (m : Master) (p : Part) (t : Nat) : Unmoved s (s.partStart m p t) :=
  (Unmoved.hostMeter ..).trans (Unmoved.transferStart ..)

/-- A register write is one burst. -/
theorem exec_registerWrite {m : Master} (idle : s.masterWaits m = false) (p : Part) (n : Nat) (inside : n / 8 * 8 < 2 ^ 40) (v : Word) :
    exec (.registerWrite m n v p) s =
      .next ((s.partStart m p (targetAt (n / 8 * 8))).burstDo (partBurst m p (n / 8 * 8) v.toNat) 0) := by
  have aligned : n / 8 * 8 % 8 = 0 := Nat.mul_mod_left ..
  obtain ⟨-, last, some_⟩ := partPlace_fits p (n / 8 * 8)
  have bytes := bytes_eq_partBytes p v.toNat
  have length : ((partBytes p v.toNat).map some).length = partSize p := by rw [List.length_map, partBytes_length]
  have beats : partSize p ≤ partPlace p (n / 8 * 8) / 8 * 8 + 128 - partPlace p (n / 8 * 8) := by
    rw [partPlace_word p aligned]
    omega
  show execRegisterWrite m n v p s = _
  unfold execRegisterWrite
  dsimp only
  rw [bytes, length, ← partPlace, State.transfer_one (((Unmoved.hostMeter ..).waits m).trans idle) some_ beats
    (targetEnd_partPlace p aligned inside), oneBurst_part m p aligned, targetAt_partPlace p aligned]
  rfl

/-- A write burst for which its master has no path. -/
theorem State.burstDo_nowhere {r : BusReq} (write : r.write = true) (path : hasPath r.master r.target true = false) (cyc : Nat) :
    s.burstDo r cyc = (s.grantTo r.master 25 1).errResp r.master r.addr true .default := by
  have begun : (if r.first && !r.write then s.answer r.master true [] else s) = s := by rw [write, Bool.not_true, Bool.and_false]; rfl
  unfold State.burstDo
  rw [begun]
  dsimp only
  rw [write, if_pos rfl, path, if_pos (by decide)]
  unfold State.refuse
  exact if_pos rfl

/-- An address that no target holds is answered DEFAULT. -/
theorem completes_registerWrite_default {m : Master} (idle : s.masterWaits m = false) (p : Part) {n : Nat} (nowhere : targetAt (n / 8 * 8) = 25)
    (inside : n / 8 * 8 < 2 ^ 40) (v : Word) : Completes (.registerWrite m n v p) s fun t =>
      t.word .busErrResp (masterNum m) = s.word .busErrResp (masterNum m) + 1 ∧ t.rd F.busErrLastCause (masterNum m) = 1 ∧ t.core = s.core := by
  have start := Unmoved.partStart s m p 25
  have path : hasPath m 25 true = false := by cases m <;> rfl
  have granted := start.trans (Unmoved.grantTo (s.partStart m p 25) m 25 1)
  refine ⟨_, exec_registerWrite idle p n inside v, ?_⟩
  have refused : (s.partStart m p (targetAt (n / 8 * 8))).burstDo (partBurst m p (n / 8 * 8) v.toNat) 0 =
      ((s.partStart m p 25).grantTo m 25 1).errResp m (partPlace p (n / 8 * 8)) true .default := by
    rw [nowhere]
    exact State.burstDo_nowhere (r := partBurst m p (n / 8 * 8) v.toNat) rfl (by rw [partBurst, nowhere]; exact path) 0
  dsimp only
  rw [refused, State.word_busErrResp_errResp, State.rd_busErrLastCause_errResp, State.errResp_core, granted.within.word _ (by decide),
    granted.within.core (by decide)]
  exact ⟨rfl, rfl, rfl⟩

/-- A write of a part that the register target takes. -/
theorem State.targetWrite_reg {m : Master} (p : Part) {r : Reg} (i : Nat) (aligned : regAddr r i % 8 = 0) (spot : regSpot (regAddr r i) = .reg r i)
    (v cyc : Nat) : s.targetWrite m 18 (partPlace p (regAddr r i)) ((partBytes p v).map some) cyc = s.regWrite m r i p (partLanes p v) := by
  have length : ((partBytes p v).map some).length = partSize p := by rw [List.length_map, partBytes_length]
  have some_ : ((partBytes p v).map some).isEmpty = false := by cases p <;> rfl
  have whole : ((partBytes p v).map some).any Option.isNone = false := by cases p <;> rfl
  unfold State.targetWrite
  rw [enabledSpan_some]
  dsimp only
  rw [some_, whole, length, partPlace_word p aligned, ofBytes_lanesAt]
  show s.regTargetWrite m (partPlace p (regAddr r i)) (partSize p) (partLanes p v) = _
  unfold State.regTargetWrite
  rw [partOf_partPlace p aligned, partPlace_word p aligned, spot]
  rfl

/-- The registers whose RW fields are all a write of them stores. -/
def plainRegs : List Reg := [.sysAlarmMask, .eccTrackCfg, .busCollCfg]

theorem plainRegs_place : ∀ r ∈ plainRegs, regAddr r 0 % 8 = 0 ∧ regSpot (regAddr r 0) = .reg r 0 ∧ r.isMirrored 0 = false ∧
    0x1000000 ≤ regAddr r 0 ∧ regAddr r 0 < 0x10D0000 := by decide +kernel

theorem plainRegs_counted : ∀ r ∈ plainRegs, Foot.counted.hasReg r = false := by decide

theorem State.regAct_plain {m : Master} {r : Reg} (plain : r ∈ plainRegs) (p : Part) (v : Nat) :
    s.regAct m r 0 p v = s.setWord r 0 (BitVec.ofNat 64 (r.stored (s.word r 0).toNat v)) := by
  obtain ⟨-, -, single, -⟩ := plainRegs_place r plain
  have stored : s.regStore m r 0 v (partEnables p) = s.valueOnly m (regAddr r 0) (s.valueOk r 0 v) fun s => s.regPut r 0 v := by
    unfold State.regStore
    dsimp only
    rw [single]
    rfl
  simp only [plainRegs, List.mem_cons, List.not_mem_nil, or_false] at plain
  obtain rfl | rfl | rfl := plain
  · exact stored
  · exact stored
  · exact stored

theorem completes_registerWrite {m : Master} (hr : s.reaches m 18 true = true) (he : s.expert m = true) (p : Part) (v : Word) {r : Reg}
    (plain : r ∈ plainRegs) : Completes (.registerWrite m (regAddr r 0) v p) s fun t =>
      t.word r 0 = BitVec.ofNat 64 (r.stored (s.word r 0).toNat (s.wholeValue r 0 p v.toNat)) ∧ t.core = s.core := by
  simp only [State.reaches, Bool.and_eq_true, Bool.not_eq_true'] at hr
  obtain ⟨⟨path, idle⟩, available⟩ := hr
  obtain ⟨aligned, spot, -, low, high⟩ := plainRegs_place r plain
  have word : regAddr r 0 / 8 * 8 = regAddr r 0 := Nat.div_mul_cancel (Nat.dvd_of_mod_eq_zero aligned)
  have target : targetAt (regAddr r 0) = 18 := (targetAt_of_mem (r := (0x1000000, 0x10D0000, 18)) (by decide +kernel) low high).1
  have start := Unmoved.partStart s m p 18
  have all := start.trans (Unmoved.burstStart _ (partBurst m p (regAddr r 0) v.toNat))
  have run := exec_registerWrite idle p (regAddr r 0) (by rw [word]; omega) v
  rw [word, target, State.burstDo_write (r := partBurst m p (regAddr r 0) v.toNat) rfl (by rw [partBurst, target]; exact path)
    (by rw [partBurst, target]; rfl)] at run
  generalize (s.partStart m p 18).burstStart (partBurst m p (regAddr r 0) v.toNat) = x at all run
  have written : x.targetWrite m (targetAt (regAddr r 0)) (partPlace p (regAddr r 0)) ((partBytes p v.toNat).map some) 0 =
      x.setWord r 0 (BitVec.ofNat 64 (r.stored (x.word r 0).toNat (x.wholeValue r 0 p v.toNat))) := by
    rw [target, State.targetWrite_reg p 0 aligned spot]
    unfold State.regWrite
    rw [(all.within.expert (by decide) m).trans he, if_neg (by simp), State.regAct_plain plain, State.wholeValue_partLanes _ _ _ _ v.isLt]
  have kept : x.word r 0 = s.word r 0 := all.within.word r (plainRegs_counted r plain) 0
  have value : x.wholeValue r 0 p v.toNat = s.wholeValue r 0 p v.toNat := by
    unfold State.wholeValue
    rw [kept]
  refine ⟨_, run.trans (congrArg Host.Outcome.next written), ?_, all.within.core (by decide)⟩
  rw [kept, value]
  exact State.word_setWord_same ..

theorem completes_registerWrites {m : Master} (hr : s.reaches m 18 true = true) (he : s.expert m = true) (p : Part) (v : Word) :
    ∀ r ∈ [Reg.sysAlarmMask, .eccTrackCfg, .busCollCfg], Completes (.registerWrite m (regAddr r 0) v p) s fun t =>
      t.word r 0 = BitVec.ofNat 64 (r.stored (s.word r 0).toNat (s.wholeValue r 0 p v.toNat)) ∧ t.core = s.core :=
  fun _ plain => completes_registerWrite hr he p v plain

end

/-- Settles O51: a request that waits is its bursts laid behind the others, one that is granted is one burst of its target, and a register write is
one burst of a part. -/
theorem hostPortsAndTransfersComplete : Obligations.HostPortsAndTransfersComplete := by
  intro p m a k w off n cyc v data s port
  refine ⟨fun risen => port ▸ completes_hostLinkUp risen, fun up => ?_,
    fun i r waited granted read first target here hk hw addr len path sound =>
      completes_busGrant granted read first target hk hw addr len path sound cyc waited,
    fun of hr => completes_busErrLastRead hr of, fun part hr he => completes_registerWrites hr he part v,
    fun part idle nowhere inside => completes_registerWrite_default idle part nowhere inside v⟩
  obtain ⟨readId, readStatus, readBar, writeBar, clearAer, power, busMaster, msix⟩ := completes_configurationRequest port up
  exact ⟨readId, readStatus, readBar, writeBar, clearAer, power, busMaster, msix, fun awake => completes_hostRequests port up awake n cyc data v⟩

end Sys2Proof.Machine

/-! How the boot loader starts, and its image steps (13 R342 to R348; 08 R192 to R194, R198). -/

namespace Sys2Proof.Machine

section
variable {s : State}

/-! ### The start (13 R343, R346 to R348) -/

/-- The loader at the head of its list, scratch bank 0 its own. -/
def LoaderBegun (t : State) : Prop :=
  t.bootRunning = true ∧ t.boot.ran = true ∧ t.boot.step = 0 ∧ t.bankState 0 = 1 ∧ t.bankOwner 0 = 3

/-- What the loader keeps of an earlier run, forgotten. -/
def State.bootFresh (s : State) : State :=
  { s with boot := { s.boot with ran := true, fallbackTried := false, firstLoad := none, slots := [], bootSlot := 0, activating := false } }

/-- A run shown as begun. -/
def State.bootShown (s : State) : State :=
  (((s.wr F.sysBootStatusFail 0 0).wr F.sysBootStatusImage 0 0).setFlag F.sysBootStatusFallback 0 false).wr F.sysBootStatusPhase 0 phaseRunning

theorem State.bootBegin_eq (s : State) : s.bootBegin = (s.bootFresh.bootShown.bootAt 0).setBank 0 bankOwned 3 := by
  unfold State.bootBegin State.bootShown State.bootFresh
  with_reducible rfl

theorem State.bootShown_facts (s : State) : s.bootShown.bootRunning = true ∧ s.bootShown.boot = s.boot := by
  unfold State.bootRunning State.bootShown
  rw [State.rd_wr _ _ _ _ (by decide), State.wr_boot, State.setFlag_boot, State.wr_boot, State.wr_boot]
  exact ⟨by decide, rfl⟩

theorem State.bootAt_ran (s : State) (n : Nat) : (s.bootAt n).boot.ran = s.boot.ran := by
  unfold State.bootAt
  rfl

theorem State.bootFresh_ran (s : State) : s.bootFresh.boot.ran = true := rfl

theorem LoaderBegun.of_running {x : State} (running : x.bootRunning = true) (ran : x.boot.ran = true) :
    LoaderBegun ((x.bootAt 0).setBank 0 bankOwned 3) := by
  obtain ⟨step, still, -⟩ := x.bootAt_facts 0
  rw [← x.bootAt_ran 0] at ran
  generalize x.bootAt 0 = y at ran step still
  have owned := y.setBank_within 0 bankOwned 3
  obtain ⟨state, owner⟩ := y.bank_setBank 0 bankOwned 3
  refine ⟨?_, ?_, ?_, state, owner⟩
  · rw [← running, ← still]
    unfold State.bootRunning
    rw [owned.rd (by decide)]
  · rw [owned.boot (by decide), ran]
  · rw [owned.boot (by decide), step]

theorem State.bootBegin_facts (s : State) : LoaderBegun s.bootBegin := by
  obtain ⟨running, boot⟩ := s.bootFresh.bootShown_facts
  rw [State.bootBegin_eq]
  exact .of_running running (by rw [boot, State.bootFresh_ran])

theorem completes_bootLoaderStart (p3 : s.boot.p3 = true) (mode : s.boot.mode = .autonomous) (usable : s.boot.unusable = false)
    (fresh : s.boot.ran = false) : Completes .bootLoaderStart s LoaderBegun :=
  ⟨_, congrArg Host.Outcome.next (State.when_pos (by simp [p3, mode, usable, fresh])), s.bootBegin_facts⟩

theorem Within.runOk {x : State} (h : Within .counted s x) : x.runOk = s.runOk := by
  unfold State.runOk State.bootRunning
  rw [h.boot (by decide), h.rd (by decide), h.flag (f := F.busStatusRecFatal) (by decide), h.flag (f := F.busStatusRecSem0) (by decide)]

theorem completes_sysBootRun {m : Master} (hr : s.reaches m 18 true = true) (he : s.expert m = true) (ok : s.runOk = true) :
    Completes (.sysBootRun m) s LoaderBegun := by
  obtain ⟨x, counted, run⟩ := State.expertReg_ok hr he .sysBootCmd 0 fun s => s.valueOnly m (regAddr .sysBootCmd 0) s.runOk State.bootRun
  exact ⟨_, congrArg Host.Outcome.next (run.trans (x.valueOnly_ok _ _ _ _ (counted.runOk.trans ok))), State.bootBegin_facts _⟩

/-! ### CHECK_BOOT and CHECK_REST (13 R343; 08 R193) -/

/-- A CHECK that the loader makes ends its slot ACCEPTED or REJECTED. -/
theorem State.bootCheck_facts {i : Nat} (allowed : s.checkRefused i = false) : (s.bootCheck i).flag F.almStateCheckBusy 0 = false ∧
    ((s.bootCheck i).slotState i = 2 ∨ (s.bootCheck i).slotState i = 3) := by
  obtain ⟨checking, -, running⟩ := s.checkStart_facts i
  have ends := State.checkEnd_none running checking
  have run : s.bootCheck i = (s.checkStart i).checkEnd none := if_neg (by rw [allowed]; decide)
  obtain ⟨idle, -⟩ := (s.checkStart i).checkOver_facts
  rw [run, ends]
  generalize (s.checkStart i).checkOver = x at idle
  cases x.loadCheck i with
  | none => exact ⟨((x.slotAccept_within i).flag (by decide) 0).trans idle, .inl (x.slotAccept_facts i).1⟩
  | some failed =>
    obtain ⟨reason, detail⟩ := failed
    exact ⟨((x.slotReject_within i reason detail).flag (by decide) 0).trans idle, .inr (x.slotReject_facts i reason detail).1⟩

theorem StepFetched.checkRefused {x : State} (h : StepFetched s x) (i : Nat) : x.checkRefused i = s.checkRefused i := by
  unfold State.checkRefused State.slotState
  rw [h.within.flag (by decide), h.within.rd (by decide), h.within.flag (f := F.almSlotStatusWritten) (by decide)]

theorem StepFetched.bootSlot {x : State} (h : StepFetched s x) : x.boot.bootSlot = s.boot.bootSlot := by rw [h.boot]

theorem completes_checkBoot (at_ : s.atStep 2 = true) (idle : s.flag F.almStateCheckBusy 0 = false)
    (allowed : s.checkRefused s.boot.bootSlot = false) : Completes .checkBoot s fun t => t.flag F.almStateCheckBusy 0 = false ∧
      (t.slotState s.boot.bootSlot = 2 ∨ t.slotState s.boot.bootSlot = 3) ∧
      (t.slotState s.boot.bootSlot = 2 → t.boot.step = s.boot.step + 1) := by
  obtain ⟨x, fetched, -, -, run⟩ := State.bootStep_run at_ (by decide) fun s =>
    if s.checkRefused s.boot.bootSlot then s.imageFailed 7
    else if (s.bootCheck s.boot.bootSlot).slotState s.boot.bootSlot = slotAccepted then (s.bootCheck s.boot.bootSlot).bootNext
    else (s.bootCheck s.boot.bootSlot).imageFailed 3
  refine ⟨_, congrArg Host.Outcome.next ((State.when_pos (by rw [idle]; rfl)).trans run), ?_⟩
  dsimp only
  rw [fetched.bootSlot, fetched.checkRefused, allowed, if_neg (by decide)]
  obtain ⟨free, judged⟩ := State.bootCheck_facts ((fetched.checkRefused _).trans allowed)
  have checked := x.bootCheck_within s.boot.bootSlot
  generalize x.bootCheck s.boot.bootSlot = y at free judged checked
  split
  next accepted =>
    have next := y.bootNext_within
    refine ⟨(next.flag (by decide) 0).trans free, .inl ((next.slotState (by decide) _).trans accepted), fun _ => ?_⟩
    rw [y.bootNext_facts.1, checked.boot (by decide), fetched.step]
  next other =>
    have failed := y.imageFailed_within 3
    rw [failed.flag (by decide), failed.slotState (by decide)]
    exact ⟨free, judged, fun accepted => absurd accepted other⟩

theorem completes_checkRest (at_ : s.atStep 5 = true) (idle : s.flag F.almStateCheckBusy 0 = false) : Completes .checkRest s fun t =>
    t.boot.step = s.boot.step + 1 ∧ t.bootRunning = true := by
  obtain ⟨x, fetched, running, -, run⟩ := State.bootStep_run at_ (by decide) fun s =>
    (s.each (s.boot.slots.filter (· ≠ s.boot.bootSlot)) fun i s => s.bootCheck i).bootNext
  refine ⟨_, congrArg Host.Outcome.next ((State.when_pos (by rw [idle]; rfl)).trans run), ?_⟩
  have checked : Within (.of [.free, .tick, .act, .latch, .irqs, .log, .pm, .events, .alm, .ecc, .bus] [.almState, .almSlotStatus, .almCheckReject,
      .eccStatus, .hbmCand, .hbmUe, .busStatus, .busGrants, .logState, .logEvbEntries, .logDropped, .logEvbLost, .logEntries, .sysIntSrc]) x
      (x.each (x.boot.slots.filter (· ≠ x.boot.bootSlot)) fun i s => s.bootCheck i) :=
    .each _ _ (.refl ..) fun i y h => .after (y.bootCheck_within i) h (by decide)
  dsimp only
  generalize x.each (x.boot.slots.filter (· ≠ x.boot.bootSlot)) (fun i s => s.bootCheck i) = y at checked
  obtain ⟨step, still, -⟩ := y.bootNext_facts
  rw [step, still, checked.boot (by decide), fetched.step, ← running]
  refine ⟨rfl, ?_⟩
  unfold State.bootRunning
  rw [checked.rd (by decide)]

/-! ### STAGE_BOOT (13 R343; 08 R194) -/

/-- A staging ends STAGED or FAILED, and the active emit table stays. -/
theorem State.stageEnd_facts (running : s.alm.staging.isSome = true) : ((s.stageEnd false).shadow = 2 ∨ (s.stageEnd false).shadow = 4) ∧
    (s.stageEnd false).core.emit = s.core.emit := by
  have failed : ∀ y : State, y.core.emit = s.core.emit → (y.stageFail.shadow = 2 ∨ y.stageFail.shadow = 4) ∧
      y.stageFail.core.emit = s.core.emit := fun y same =>
    ⟨.inr y.stageFail_facts.1, (congrArg (·.emit) (y.stageFail_within.core (by decide))).trans same⟩
  unfold State.stageEnd
  rw [if_neg (by rw [← Option.not_isSome, running]; decide)]
  dsimp only
  rw [State.when_neg rfl]
  split
  · exact failed s rfl
  · have filled : (s.fillShadow (s.rd F.almStateShadowSlot 0)).core.emit = s.core.emit := by rw [(s.fillShadow_facts _).1]
    split
    · exact failed _ filled
    · exact ⟨.inl (State.rd_wr _ _ _ _ (by decide)), filled⟩

theorem StepFetched.stageRefused {x : State} (h : StepFetched s x) (i : Nat) : x.stageRefused i = s.stageRefused i := by
  unfold State.stageRefused State.estate State.shadow State.slotState
  rw [h.within.rd (by decide), h.within.rd (by decide), h.within.rd (by decide)]

theorem completes_stageBoot (at_ : s.atStep 3 = true) (allowed : s.stageRefused s.boot.bootSlot = false) : Completes .stageBoot s fun t =>
    (t.shadow = 2 ∨ t.shadow = 4) ∧ (t.shadow = 2 → t.boot.step = s.boot.step + 1) ∧ t.core.emit = s.core.emit := by
  obtain ⟨x, fetched, -, -, run⟩ := State.bootStep_run at_ (by decide) fun s =>
    if s.stageRefused s.boot.bootSlot then s.imageFailed 7
    else if ((s.stageStart s.boot.bootSlot false).stageEnd false).shadow = shStaged
      then ((s.stageStart s.boot.bootSlot false).stageEnd false).bootNext
    else ((s.stageStart s.boot.bootSlot false).stageEnd false).imageFailed 4
  have free : s.shadow ≠ shStaging := by
    simp only [State.stageRefused, Bool.or_eq_false_iff, decide_eq_false_iff_not] at allowed
    exact allowed.1.2
  refine ⟨_, congrArg Host.Outcome.next ((State.when_pos (decide_eq_true free)).trans run), ?_⟩
  dsimp only
  rw [fetched.bootSlot, fetched.stageRefused, allowed, if_neg (by decide)]
  have started := x.stageStart_within s.boot.bootSlot false
  have running : (x.stageStart s.boot.bootSlot false).alm.staging.isSome = true := rfl
  generalize x.stageStart s.boot.bootSlot false = y at started running
  obtain ⟨judged, emit⟩ := State.stageEnd_facts running
  have ended := y.stageEnd_within false
  generalize y.stageEnd false = z at judged emit ended
  have core : z.core.emit = s.core.emit := by rw [emit, started.core (by decide), fetched.within.core (by decide)]
  split
  next staged =>
    have next := z.bootNext_within
    refine ⟨.inl ((next.rd (by decide) 0).trans staged), fun _ => ?_, by rw [next.core (by decide), core]⟩
    rw [z.bootNext_facts.1, ended.boot (by decide), started.boot (by decide), fetched.step]
  next other =>
    have failed := z.imageFailed_within 4
    have shadow : (z.imageFailed 4).shadow = z.shadow := failed.rd (by decide) 0
    rw [shadow, failed.core (by decide)]
    exact ⟨judged, fun staged => absurd staged other, core⟩

/-! ### ACTIVATE (13 R343, R345) -/

theorem StepFetched.armResult {x : State} (h : StepFetched s x) (t : Nat) : x.armResult false t = s.armResult false t := by
  unfold State.armResult State.stagedForArm State.stagedIdent State.mateSlot State.shadow State.estate State.numbered State.now
  rw [h.within.alm (by decide), h.within.mate (by decide), h.within.rd (f := F.almStateShadow) (by decide),
    h.within.rd (f := F.almStateEstate) (by decide), h.within.flag (f := F.almStateActiveValid) (by decide),
    h.within.flag (f := F.timStateNumbered) (by decide), h.within.rd (f := F.timTickTick) (by decide),
    h.within.rd (f := F.almActiveInfoEpoch) (by decide), h.within.word _ (by decide)]

/-- The loader waits for its swap. -/
def State.bootActivating (s : State) : State := { s with boot := { s.boot with activating := true } }

theorem State.bootActivating_within (s : State) : Within (.of [.boot] []) s s.bootActivating := .set_boot (.refl ..) (by decide)

theorem completes_activate (at_ : s.atStep 4 = true) : Completes .activate s fun t =>
    (s.armResult false (tadd s.now s.stepArg) = 1 → t.estate = 1 ∧ t.rd F.almArmedArmedTick 0 = tadd s.now s.stepArg ∧ t.boot.activating = true) ∧
    (s.armResult false (tadd s.now s.stepArg) ≠ 1 → t.rd F.sysBootStatusPhase 0 = 4 ∧ t.rd F.sysBootStatusFail 0 = 5) := by
  obtain ⟨x, fetched, -, -, run⟩ := State.bootStep_run at_ (by decide) fun s =>
    if s.armResult false (tadd s.now s.stepArg) = 1 then
      (s.arm (tadd s.now s.stepArg) s.alm.shadow.head.epoch.toNat false).bootActivating
    else s.bootFailed 5
  have now : x.now = s.now := fetched.within.rd (by decide) 0
  have arg : x.stepArg = s.stepArg := fetched.stepNum 4 4
  refine ⟨_, congrArg Host.Outcome.next run, ?_⟩
  dsimp only
  rw [fetched.armResult, now, arg]
  refine ⟨fun accepted => ?_, fun refused => ?_⟩
  · rw [if_pos accepted]
    have waits := (x.arm (tadd s.now s.stepArg) x.alm.shadow.head.epoch.toNat false).bootActivating_within
    refine ⟨(waits.rd (by decide) 0).trans (x.arm_facts ..).1, (waits.rd (by decide) 0).trans ?_, rfl⟩
    exact (State.rd_wr_apart _ _ _ _ (by decide) (by decide)).trans ((State.rd_wr _ _ _ _ (by decide)).trans (Nat.mod_eq_of_lt (tadd_lt ..)))
  · rw [if_neg refused]
    obtain ⟨phase, fail, -⟩ := x.bootFailed_facts 5
    exact ⟨phase, fail⟩

end

end Sys2Proof.Machine

/-! LOAD_IMAGE: headers judged, entries copied (13 R340 to R344). -/

namespace Sys2Proof.Machine

section
variable {s : State}

/-! ### What is read of flash (13 R340 to R342) -/

/-- Two states that read the same of flash. -/
structure SameFlash (s t : State) : Prop where
  nv : t.nv = s.nv
  size : t.flashSize = s.flashSize

theorem Within.sameFlash {f : Foot} {t : State} (h : Within f s t) (apart : [Comp.dieId, .factory, .fieldMap, .flashMiB, .flash, .stuck].all
    (fun c => !f.hasComp c) = true) (info : f.hasReg .nvmInfo = false) : SameFlash s t where
  nv := h.nv apart
  size := congrArg (· * 2 ^ 20) (h.rd info 0)

theorem SameFlash.trans {t u : State} (h : SameFlash s t) (g : SameFlash t u) : SameFlash s u := ⟨g.nv.trans h.nv, g.size.trans h.size⟩

theorem SameFlash.flashRead {t : State} (h : SameFlash s t) (a n : Nat) : t.flashRead a n = s.flashRead a n := by
  unfold State.flashRead State.flashByte
  rw [h.nv]

theorem SameFlash.regionLen {t : State} (h : SameFlash s t) : t.regionLen = s.regionLen := by
  unfold State.regionLen
  rw [h.size]

theorem SameFlash.regionBase {t : State} (h : SameFlash s t) (i : Nat) : t.regionBase i = s.regionBase i := by
  unfold State.regionBase
  rw [h.regionLen]

theorem SameFlash.bootNum {t : State} (h : SameFlash s t) (i o n : Nat) : t.bootNum i o n = s.bootNum i o n := by
  unfold State.bootNum
  rw [h.regionBase, h.flashRead]

theorem SameFlash.bootEntries {t : State} (h : SameFlash s t) (i : Nat) : t.bootEntries i = s.bootEntries i := by
  unfold State.bootEntries
  simp only [h.bootNum]

theorem SameFlash.headerValid {t : State} (h : SameFlash s t) (i : Nat) : t.headerValid i = s.headerValid i := by
  have num : t.bootNum i = s.bootNum i := funext fun o => funext fun n => h.bootNum i o n
  have read : t.flashRead = s.flashRead := funext fun a => funext fun n => h.flashRead a n
  unfold State.headerValid
  rw [num, read, h.bootEntries, h.size, h.regionLen, h.regionBase]

/-! The kernel would evaluate a header to compare a choice of image with its cases, so the choice is rewritten as a function. -/

theorem SameFlash.firstImage {t : State} (h : SameFlash s t) (sel : t.flag F.sysBootStatusImageSel 0 = s.flag F.sysBootStatusImageSel 0) :
    t.firstImage = s.firstImage := by
  have run : State.firstImage = State.firstImage := rfl
  conv at run => rhs; delta State.firstImage
  rw [run]
  beta_reduce
  rw [h.headerValid, h.headerValid, h.bootNum, h.bootNum, sel]

theorem State.fallbackImage_none (none_ : s.firstImage = none) : s.fallbackImage = none := by
  have run : State.fallbackImage = State.fallbackImage := rfl
  conv at run => rhs; delta State.fallbackImage
  rw [run]
  beta_reduce
  rw [none_]

/-- The image tried first is A or B. -/
theorem State.firstImage_cases {i : Nat} (first : s.firstImage = some i) : i = 1 ∨ i = 2 := by
  have run : State.firstImage = State.firstImage := rfl
  conv at run => rhs; delta State.firstImage
  rw [run] at first
  beta_reduce at first
  split at first
  · exact absurd first (by simp)
  · exact .inl (Option.some.inj first).symm
  · exact .inr (Option.some.inj first).symm
  · dsimp only at first
    split at first
    · exact .inl (Option.some.inj first).symm
    · split at first
      · exact .inr (Option.some.inj first).symm
      · exact .inl (Option.some.inj first).symm

/-! ### Which headers are shown valid (13 R342, Table 13-10) -/

/-- A_VALID and B_VALID. -/
def State.headersShown (s : State) : Bool × Bool := (s.flag F.sysBootStatusAValid 0, s.flag F.sysBootStatusBValid 0)

theorem Within.headersShown {f : Foot} {t : State} (h : Within f s t) (hr : f.hasReg .sysBootStatus = false) :
    t.headersShown = s.headersShown := by
  unfold State.headersShown
  rw [h.flag hr, h.flag hr]

theorem State.headersShown_wr (s : State) (g : Field) (v : Nat) (a : g.apart F.sysBootStatusAValid = true)
    (b : g.apart F.sysBootStatusBValid = true) : (s.wr g 0 v).headersShown = s.headersShown := by
  unfold State.headersShown
  rw [State.flag_wr_apart _ _ _ _ a (by decide), State.flag_wr_apart _ _ _ _ b (by decide)]

theorem State.rd_bootAt (s : State) (n : Nat) {g : Field} (j : Nat) (apart : F.sysBootStatusStep.apart g = true) (hg : g.lo + g.width ≤ 64) :
    (s.bootAt n).rd g j = s.rd g j := by
  have regs : (s.bootAt n).regs = (s.wr F.sysBootStatusStep 0 n).regs := rfl
  have shown : (s.bootAt n).rd g j = (s.wr F.sysBootStatusStep 0 n).rd g j := by
    unfold State.rd State.word
    rw [regs]
  exact shown.trans (State.rd_wr_apart _ _ _ _ apart hg)

theorem State.bootAt_slots (s : State) (n : Nat) : (s.bootAt n).boot.slots = s.boot.slots := rfl

theorem State.headersShown_bootAt (s : State) (n : Nat) : (s.bootAt n).headersShown = s.headersShown := by
  unfold State.headersShown State.flag
  rw [State.rd_bootAt _ _ _ (by decide) (by decide), State.rd_bootAt _ _ _ (by decide) (by decide)]

theorem State.headersShown_bootStop (s : State) (p : Nat) : (s.bootStop p).headersShown = s.headersShown := by
  obtain ⟨a, b, c, run⟩ := s.bootStop_eq p
  have ended : Within (.of [] [.busScrOwn]) (s.wr F.sysBootStatusPhase 0 p) (s.bootEnded p) :=
    .ite (.after (State.setBank_within ..) (.refl ..) (by decide)) (.refl ..)
  rw [run, (State.logEvent_within ..).headersShown (by decide), ended.headersShown (by decide)]
  exact s.headersShown_wr _ _ (by decide) (by decide)

theorem State.failCounted_within (s : State) : Within (.of [.log] []) s s.failCounted := .set_log (.refl ..) (by decide)

theorem State.headersShown_bootFailed (s : State) (cause : Nat) : (s.bootFailed cause).headersShown = s.headersShown := by
  rw [State.bootFailed_eq, (State.raise_within ..).headersShown (by decide), State.headersShown_bootStop,
    State.headersShown_wr _ _ _ (by decide) (by decide), s.failCounted_within.headersShown (by decide)]

theorem State.headersShown_imageFailed (s : State) (cause : Nat) : (s.imageFailed cause).headersShown = s.headersShown := by
  unfold State.imageFailed
  split
  · split
    · exact s.headersShown_bootFailed cause
    · dsimp only
      rw [State.headersShown_bootAt]
      refine (State.headersShown_wr _ _ _ (by decide) (by decide)).trans ?_
      exact (Within.after (f := .of [.boot, .act, .latch, .irqs, .log, .pm, .events, .bus] [.busStatus, .busGrants, .logState, .logEvbEntries,
        .logDropped, .logEvbLost, .logEntries, .sysIntSrc]) (State.raise_within ..) (.set_boot (.refl ..) (by decide)) (by decide)).headersShown
        (by decide)
  · exact s.headersShown_bootFailed cause

/-! ### Entries copied (13 R343; 08 R192) -/

theorem State.slotWriteRefused_none (s : State) (i : Nat) : s.slotWriteRefused i = none ↔
    s.slotState i ≠ slotLost ∧ s.slotState i ≠ slotChecking ∧ s.slotState i ≠ slotActive ∧ s.shadowSource i = false := by
  unfold State.slotWriteRefused
  by_cases lost : s.slotState i = slotLost
  · simp [lost]
  · cases source : s.shadowSource i <;> simp [lost]

/-- A slot that has been written is open to writes where it was, and so is every other. -/
theorem State.slotWriteRefused_slotWritten (s : State) (k i : Nat) (open_ : s.slotWriteRefused i = none) :
    (s.slotWritten k).slotWriteRefused i = none := by
  rw [State.slotWriteRefused_none] at open_ ⊢
  obtain ⟨lost, checking, active, source⟩ := open_
  have shadow : (s.slotWritten k).shadowSource i = s.shadowSource i := by
    unfold State.shadowSource State.shadow
    rw [(s.slotWritten_within k).rd (by decide), (s.slotWritten_within k).rd (by decide)]
  rw [shadow]
  by_cases same : k = i
  · have empty : (s.slotWritten k).slotState i = slotEmpty := by
      subst same
      unfold State.slotState State.rd State.slotWritten
      rw [State.word_setWord_same]
      decide
    rw [empty]
    exact ⟨by decide, by decide, by decide, source⟩
  · have kept : (s.slotWritten k).slotState i = s.slotState i := State.rd_congr (State.word_setWord_other _ _ (.inr same))
    rw [kept]
    exact ⟨lost, checking, active, source⟩

/-- What copying entries touches. -/
abbrev copyFoot : Foot := .of [.pm, .events, .hbm, .boot, .bus] [.almSlotStatus, .busSplits, .busGrants]

/-- The state `y` of an image's load whose entries done went to `slots`, as it differs from where the load began. -/
structure Copying (s : State) (slots : List Nat) (y : State) : Prop where
  within : Within copyFoot s y
  step : y.boot.step = s.boot.step
  slots : y.boot.slots = slots
  writable : ∀ j, s.slotWriteRefused j = none → y.slotWriteRefused j = none

theorem Copying.sameFlash {slots : List Nat} {y : State} (h : Copying s slots y) : SameFlash s y := h.within.sameFlash (by decide) (by decide)

/-- Bytes in a slot, its status written and the bursts counted; the loader's own state not yet. -/
def State.bytesCopied (s : State) (k : Nat) (bs : List Byte) : State :=
  ((({ s with hbm := memWrite bs (slotBase k) s.hbm }).slotWritten k).meter .pmBwHbmWr (k / 4) bs.length).grantAll
    .boot (21 + k / 4) (slotBase k) bs.length

theorem State.copyBytes_boot (s : State) (k : Nat) (bs : List Byte) : (s.copyBytes k bs).boot =
    { (s.bytesCopied k bs).boot with slots := (s.bytesCopied k bs).boot.slots ++ [k] } := rfl

theorem State.copyBytes_regs (s : State) (k : Nat) (bs : List Byte) : (s.copyBytes k bs).regs = (s.bytesCopied k bs).regs := rfl

theorem State.bytesCopied_within (s : State) (k : Nat) (bs : List Byte) :
    Within (.of [.pm, .events, .hbm, .bus] [.almSlotStatus, .busSplits, .busGrants]) s (s.bytesCopied k bs) :=
  .after (State.grantAll_within ..) (.after (State.meter_within ..) (.after (State.slotWritten_within ..)
    (.set_hbm_any (.refl ..) (by decide) (by decide) (memWrite_wf _ _ _)) (by decide)) (by decide)) (by decide)

theorem State.slotWriteRefused_congr {s t : State} (status : ∀ i, t.word .almSlotStatus i = s.word .almSlotStatus i)
    (state : t.word .almState 0 = s.word .almState 0) (i : Nat) : t.slotWriteRefused i = s.slotWriteRefused i := by
  unfold State.slotWriteRefused State.shadowSource State.shadow State.slotState
  rw [State.rd_congr (status i), State.rd_congr (f := F.almStateShadow) state, State.rd_congr (f := F.almStateShadowSlot) state]

theorem State.slotWriteRefused_copyBytes (s : State) (k : Nat) (bs : List Byte) (i : Nat) (open_ : s.slotWriteRefused i = none) :
    (s.copyBytes k bs).slotWriteRefused i = none := by
  have shown : ∀ r j, (s.copyBytes k bs).word r j = (s.bytesCopied k bs).word r j := fun r j => by
    unfold State.word
    rw [State.copyBytes_regs]
  have counted : Within (.of [.pm, .bus] [.busSplits, .busGrants]) (({ s with hbm := memWrite bs (slotBase k) s.hbm }).slotWritten k)
      (s.bytesCopied k bs) := .after (State.grantAll_within ..) (.after (State.meter_within ..) (.refl ..) (by decide)) (by decide)
  rw [State.slotWriteRefused_congr (fun i => (shown _ i).trans (counted.word _ (by decide) i)) ((shown _ 0).trans (counted.word _ (by decide) 0))]
  exact State.slotWriteRefused_slotWritten _ k i open_

theorem Copying.copyBytes {slots : List Nat} {y : State} (h : Copying s slots y) (k : Nat) (bs : List Byte) :
    Copying s (slots ++ [k]) (y.copyBytes k bs) := by
  have boot : (y.bytesCopied k bs).boot = y.boot := (y.bytesCopied_within k bs).boot (by decide)
  refine ⟨.after (State.copyBytes_within ..) h.within (by decide), ?_, ?_, fun j open_ => y.slotWriteRefused_copyBytes k bs j (h.writable j open_)⟩
  · rw [State.copyBytes_boot, boot, ← h.step]
  · rw [State.copyBytes_boot, boot, ← h.slots]

/-- The boot almanac's slot noted. -/
theorem Copying.set_bootSlot {slots : List Nat} {y : State} (h : Copying s slots y) (k : Nat) :
    Copying s slots { y with boot := { y.boot with bootSlot := k } } :=
  ⟨.set_boot h.within (by decide), h.step, h.slots, h.writable⟩

/-- An entry that can be copied and matches its CRC (13 R343). -/
def State.entrySound (s : State) (i : Nat) (e : BootEntry) : Prop :=
  s.stackLost (e.slot / 4) = false ∧ s.slotWriteRefused e.slot = none ∧ (crc32c (s.flashRead (s.regionBase i + e.off) e.len)).toNat = e.crc

theorem loadEntry_sound {slots : List Nat} {y : State} {i be : Nat} {es : List BootEntry} {e : BootEntry} (h : Copying s slots y)
    (sound : s.entrySound i e) (n : Nat) :
    ∃ z, loadEntry i be es (n, 0, y) e = (n + 1, 0, z) ∧ Copying s (slots ++ [e.slot]) z := by
  obtain ⟨kept, writable, crc⟩ := sound
  have place : y.bootPlace es (decide (n = be)) e = some e.slot := if_pos (by
    unfold State.stackLost at kept ⊢
    rw [h.within.rdBit (by decide), kept]
    rfl)
  have copied : ∀ z, Copying s slots z → ∃ u, z.copyEntry i e.slot e = (0, u) ∧ Copying s (slots ++ [e.slot]) u := fun z hz => by
    refine ⟨_, ?_, hz.copyBytes e.slot (z.flashRead (z.regionBase i + e.off) e.len)⟩
    unfold State.copyEntry
    rw [hz.writable _ writable, if_neg (by decide), hz.sameFlash.regionBase, hz.sameFlash.flashRead]
    dsimp only
    rw [if_pos crc]
  unfold loadEntry
  dsimp only
  rw [if_neg (by decide), place]
  by_cases boot : n = be
  · obtain ⟨u, run, hu⟩ := copied _ (h.set_bootSlot e.slot)
    refine ⟨u, ?_, hu⟩
    dsimp only
    rw [if_pos boot, run]
  · obtain ⟨u, run, hu⟩ := copied y h
    refine ⟨u, ?_, hu⟩
    dsimp only
    rw [if_neg boot, run]

/-- Entries that are all sound are all copied, in order. -/
theorem foldl_loadEntry_sound {i be : Nat} {all : List BootEntry} (es : List BootEntry) (sound : ∀ e ∈ es, s.entrySound i e) {slots : List Nat}
    {y : State} (h : Copying s slots y) (n : Nat) :
    ∃ z, es.foldl (loadEntry i be all) (n, 0, y) = (n + es.length, 0, z) ∧ Copying s (slots ++ es.map (·.slot)) z := by
  induction es generalizing slots y n with
  | nil => exact ⟨y, rfl, by rwa [List.map_nil, List.append_nil]⟩
  | cons e es ih =>
    obtain ⟨z, run, hz⟩ := loadEntry_sound (be := be) (es := all) h (sound e List.mem_cons_self) n
    obtain ⟨u, rest, hu⟩ := ih (fun f mem => sound f (List.mem_cons_of_mem _ mem)) hz (n + 1)
    refine ⟨u, ?_, ?_⟩
    · rw [List.foldl_cons, run, rest, List.length_cons, Nat.add_assoc, Nat.add_comm 1]
    · rwa [List.append_assoc] at hu

/-- No slot loaded yet. -/
def State.slotsCleared (s : State) : State := { s with boot := { s.boot with slots := [] } }

theorem State.loadEntries_sound {i : Nat} (sound : ∀ e ∈ s.bootEntries i, s.entrySound i e) :
    ∃ z, s.loadEntries i = (0, z) ∧ Copying s ((s.bootEntries i).map (·.slot)) z := by
  have begun : Copying s [] s.slotsCleared := ⟨.set_boot (.refl ..) (by decide), rfl, rfl, fun _ open_ => open_⟩
  obtain ⟨z, run, hz⟩ := foldl_loadEntry_sound (be := s.bootNum i 7 1) (all := s.bootEntries i) (s.bootEntries i) sound begun 0
  exact ⟨z, congrArg Prod.snd run, hz⟩

end

section
variable {s : State}

/-! ### LOAD_IMAGE (13 R341 to R344) -/

/-- The step that a restart of the list goes to, noted. -/
def State.loadNoted (s : State) : State := { s with boot := { s.boot with firstLoad := some (s.boot.firstLoad.getD s.boot.step) } }

/-- Which headers are valid, shown. -/
def State.headersMarked (s : State) : State :=
  (s.setFlag F.sysBootStatusAValid 0 (s.headerValid 1)).setFlag F.sysBootStatusBValid 0 (s.headerValid 2)

/-- The load of the image that is tried, if one is. -/
def State.imageTried (s : State) (image : Option Nat) : State :=
  match image with
  | none => s.imageFailed 1
  | some i =>
    let (r, s) := (s.wr F.sysBootStatusImage 0 i).loadEntries i
    if r = 0 then s.bootNext else s.imageFailed r

/-- The image that is tried. -/
def State.imageChosen (s : State) : Option Nat := if s.boot.fallbackTried then s.fallbackImage else s.firstImage

/-- What LOAD_IMAGE does with its step. -/
def State.imageLoad (s : State) : State := s.loadNoted.headersMarked.imageTried s.loadNoted.headersMarked.imageChosen

theorem execLoadImage_eq (due : s.boot.p4 = 15) (free : s.flag F.nvmStatusBusy 0 = false) : execLoadImage s =
    .next (s.bootStep 1 State.imageLoad) := by
  have run : execLoadImage s = .next (s.when (s.boot.p4 = 15 && !s.flag F.nvmStatusBusy 0) (·.bootStep 1 State.imageLoad)) := rfl
  rw [run, State.when_pos (by rw [due, free]; rfl)]

theorem State.loadNoted_within (s : State) : Within (.of [.boot] []) s s.loadNoted := .set_boot (.refl ..) (by decide)

theorem State.headersMarked_within (s : State) : Within (.of [] [.sysBootStatus]) s s.headersMarked :=
  .setFlag _ _ _ (.setFlag _ _ _ (.refl ..) (by decide)) (by decide)

theorem State.headersShown_headersMarked (s : State) : s.headersMarked.headersShown = (s.headerValid 1, s.headerValid 2) := by
  unfold State.headersShown State.headersMarked
  rw [State.flag_setFlag_apart _ _ _ _ (by decide) (by decide), State.flag_setFlag _ _ _ _ (by decide) (by decide),
    State.flag_setFlag _ _ _ _ (by decide) (by decide)]

theorem State.imageSel_headersMarked (s : State) : s.headersMarked.flag F.sysBootStatusImageSel 0 = s.flag F.sysBootStatusImageSel 0 :=
  (State.flag_setFlag_apart _ _ _ _ (by decide) (by decide)).trans (State.flag_setFlag_apart _ _ _ _ (by decide) (by decide))

/-- The state a load tries its image in, as it differs from where the step began. -/
structure HeadersRead (s x : State) : Prop where
  within : Within (.of [.pm, .bus, .boot] [.busGrants, .busSplits, .sysBootStatus]) s x
  step : x.boot.step = s.boot.step
  tried : x.boot.fallbackTried = s.boot.fallbackTried
  shown : x.headersShown = (s.headerValid 1, s.headerValid 2)
  first : x.firstImage = s.firstImage

theorem StepFetched.headersRead {x : State} (h : StepFetched s x) : HeadersRead s x.loadNoted.headersMarked := by
  have noted : Within (.of [.pm, .bus, .boot] [.busGrants, .busSplits]) s x.loadNoted := .after x.loadNoted_within h.within (by decide)
  have marked := x.loadNoted.headersMarked_within
  have same : SameFlash s x.loadNoted := noted.sameFlash (by decide) (by decide)
  have tried : x.loadNoted.boot.fallbackTried = x.boot.fallbackTried := rfl
  have step : x.loadNoted.boot.step = x.boot.step := rfl
  refine ⟨.after marked (noted.mono (by decide)) (by decide), ?_, ?_, ?_, ?_⟩
  · rw [marked.boot (by decide), step, h.step]
  · rw [marked.boot (by decide), tried, h.boot]
  · rw [State.headersShown_headersMarked, same.headerValid, same.headerValid]
  · exact (same.trans (marked.sameFlash (by decide) (by decide))).firstImage
      (x.loadNoted.imageSel_headersMarked.trans (noted.flag (by decide) 0))

theorem State.headersShown_imageTried (s : State) (image : Option Nat) : (s.imageTried image).headersShown = s.headersShown := by
  cases image with
  | none => exact s.headersShown_imageFailed 1
  | some i =>
    have loaded := (s.wr F.sysBootStatusImage 0 i).loadEntries_within i
    have tried : s.imageTried (some i) = if ((s.wr F.sysBootStatusImage 0 i).loadEntries i).1 = 0
        then ((s.wr F.sysBootStatusImage 0 i).loadEntries i).2.bootNext
        else ((s.wr F.sysBootStatusImage 0 i).loadEntries i).2.imageFailed ((s.wr F.sysBootStatusImage 0 i).loadEntries i).1 := rfl
    rw [tried, ← s.headersShown_wr F.sysBootStatusImage i (by decide) (by decide), ← loaded.headersShown (by decide)]
    split
    · exact State.headersShown_bootAt ..
    · exact State.headersShown_imageFailed ..

theorem State.entrySound_congr {i : Nat} {e : BootEntry} {t : State} (same : SameFlash s t)
    (lost : t.stackLost (e.slot / 4) = s.stackLost (e.slot / 4)) (open_ : t.slotWriteRefused e.slot = s.slotWriteRefused e.slot)
    (sound : s.entrySound i e) : t.entrySound i e := by
  unfold State.entrySound at sound ⊢
  rwa [same.regionBase, same.flashRead, lost, open_]

/-- An image whose entries are all sound is loaded, and the loader goes on. -/
theorem State.imageTried_sound {i : Nat} (small : i < 4) (sound : ∀ e ∈ s.bootEntries i, s.entrySound i e) :
    (s.imageTried (some i)).rd F.sysBootStatusImage 0 = i ∧ (s.imageTried (some i)).boot.step = s.boot.step + 1 ∧
      (s.imageTried (some i)).boot.slots = (s.bootEntries i).map (·.slot) := by
  have named : Within (.of [] [.sysBootStatus]) s (s.wr F.sysBootStatusImage 0 i) := .wr _ _ _ (.refl ..) (by decide)
  have same : SameFlash s (s.wr F.sysBootStatusImage 0 i) := named.sameFlash (by decide) (by decide)
  have boot : (s.wr F.sysBootStatusImage 0 i).boot = s.boot := State.wr_boot ..
  have image : (s.wr F.sysBootStatusImage 0 i).rd F.sysBootStatusImage 0 = i := (State.rd_wr _ _ _ _ (by decide)).trans (Nat.mod_eq_of_lt small)
  obtain ⟨z, run, hz⟩ := State.loadEntries_sound (s := s.wr F.sysBootStatusImage 0 i) (i := i) fun e mem =>
    State.entrySound_congr same (named.rdBit (by decide) ..) (State.slotWriteRefused_congr (named.word _ (by decide)) (named.word _ (by decide) 0) _)
      (sound e (same.bootEntries i ▸ mem))
  have tried : s.imageTried (some i) = z.bootNext := by
    unfold State.imageTried
    dsimp only
    rw [run]
    rfl
  obtain ⟨step, -, -⟩ := z.bootNext_facts
  have slots : z.bootNext.boot.slots = z.boot.slots := z.bootAt_slots _
  rw [tried, step, hz.step, boot, slots, hz.slots, same.bootEntries]
  exact ⟨(z.rd_bootAt _ 0 (by decide) (by decide)).trans ((hz.within.rd (by decide) 0).trans image), rfl, rfl⟩

theorem HeadersRead.entrySound {x : State} (h : HeadersRead s x) {i : Nat} {e : BootEntry} (sound : s.entrySound i e) : x.entrySound i e :=
  State.entrySound_congr (h.within.sameFlash (by decide) (by decide)) (h.within.rdBit (by decide) ..)
    (State.slotWriteRefused_congr (h.within.word _ (by decide)) (h.within.word _ (by decide) 0) _) sound

/-- With no valid header there is no image to try, first or second. -/
theorem State.imageChosen_none (none_ : s.firstImage = none) : s.imageChosen = none := by
  unfold State.imageChosen
  rw [State.fallbackImage_none none_, none_, ite_self]

theorem State.imageFailed_of_none (none_ : s.firstImage = none) (cause : Nat) : s.imageFailed cause = s.bootFailed cause := by
  unfold State.imageFailed
  rw [State.fallbackImage_none none_]
  cases s.boot.firstLoad <;> rfl

theorem completes_loadImage (at_ : s.atStep 1 = true) (due : s.boot.p4 = 15) (free : s.flag F.nvmStatusBusy 0 = false) :
    Completes .loadImage s fun t =>
      t.flag F.sysBootStatusAValid 0 = s.headerValid 1 ∧ t.flag F.sysBootStatusBValid 0 = s.headerValid 2 ∧
      (∀ i : Nat, s.firstImage = some i → s.boot.fallbackTried = false → (∀ e ∈ s.bootEntries i, s.entrySound i e) →
        t.rd F.sysBootStatusImage 0 = i ∧ t.boot.step = s.boot.step + 1 ∧ t.boot.slots = (s.bootEntries i).map (·.slot)) ∧
      (s.firstImage = none → t.rd F.sysBootStatusPhase 0 = 4 ∧ t.rd F.sysBootStatusFail 0 = 1 ∧ t.active A.bootFail 0 = true) := by
  obtain ⟨x, fetched, -, -, run⟩ := State.bootStep_run at_ (by decide) State.imageLoad
  refine ⟨x.imageLoad, (execLoadImage_eq due free).trans (congrArg Host.Outcome.next run), ?_⟩
  have read := fetched.headersRead
  unfold State.imageLoad
  generalize x.loadNoted.headersMarked = y at read
  have shown : (y.imageTried y.imageChosen).headersShown = (s.headerValid 1, s.headerValid 2) := (y.headersShown_imageTried _).trans read.shown
  obtain ⟨a, b⟩ := Prod.mk.inj shown
  refine ⟨a, b, fun i first untried sound => ?_, fun none_ => ?_⟩
  · have chosen : y.imageChosen = some i := by
      unfold State.imageChosen
      rw [read.tried, untried, if_neg (by decide), read.first, first]
    have entries : y.bootEntries i = s.bootEntries i := (read.within.sameFlash (by decide) (by decide)).bootEntries i
    have small : i < 4 := by
      obtain rfl | rfl := State.firstImage_cases first <;> decide
    rw [chosen, ← entries, ← read.step]
    exact State.imageTried_sound small fun e mem => read.entrySound (sound e (entries ▸ mem))
  · have unchosen : y.firstImage = none := read.first.trans none_
    rw [State.imageChosen_none unchosen]
    obtain ⟨phase, fail, active⟩ := y.bootFailed_facts 1
    have tried : y.imageTried none = y.bootFailed 1 := State.imageFailed_of_none unchosen 1
    rw [tried]
    exact ⟨phase, fail, active⟩

end

/-- Settles O54: the loader's start and each image step are run on a state that fetching the step has not changed in what they read; an image whose
entries are all sound is copied entry by entry. -/
theorem loaderStartsAndImageStepsComplete : Obligations.LoaderStartsAndImageStepsComplete := fun _ _ =>
  ⟨completes_bootLoaderStart, completes_sysBootRun, completes_loadImage, completes_checkBoot, completes_stageBoot, completes_activate,
    completes_checkRest⟩

end Sys2Proof.Machine
